-- ==== Sys2Proof/Word.lean ====
section
/-! DEFINITION. The word types of the hub: a register, a configuration cell and a stream word are 32 bits (spec/00 R1,
spec/02 R22), a queue word is 40 bits (spec/11 R277). -/

namespace Sys2Proof

/-- A 32-bit register, cell or stream word. -/
abbrev Word := BitVec 32

/-- A byte, as the two-wire buses and the radio carry them. -/
abbrev Byte := BitVec 8

/-- A 40-bit queue word: end mark [39], kind [38:36], auxiliary [35:32], payload [31:0]. -/
abbrev QWord := BitVec 40

end Sys2Proof
end

