-- ==== Sys2Proof/Syntax.lean ====
section
/-! DEFINITION. The commands of the hub: one constructor for each row of spec/opcode_table.json, with the operands the row's
rule gives it. A command is one indivisible step of spec/95_what_each_step_holds.md. Unit numbers of fixed ranges are `Fin`;
words, addresses and register operands are bit vectors; what the world outside the hub decides (bits captured, a count that
passed, a check that failed, an upset) is an operand. A register command of the two-wire target names the address its transaction
began at and the register's index in it. -/

namespace Sys2Proof

/-- The three on-chip PLLs (spec/01 R8). -/
inductive Pll where
  | time | fabric | link
  deriving DecidableEq, Repr

/-- A frame of the host serial port as the hub received it (spec/03 R61, R62). -/
structure HspFrame where
  /-- command byte, count byte, address -/
  cmd : BitVec 8
  count : BitVec 8
  addr : BitVec 24
  /-- data words of a WRITE -/
  words : List Word
  /-- the CRC the host sent: of the whole WRITE frame, or of a READ frame's header -/
  crc : BitVec 16
  /-- rising HSP_SCK edges received while HSP_nCS was low -/
  edges : Nat
  /-- HSP_SCK frequency in Hz (R66) -/
  hz : Nat
  /-- the host drove the data lines past the first dummy edge of a quad READ (R66) -/
  contend : Bool
  deriving DecidableEq, Repr

/-- A register in a two-wire transaction of the host: the address at which the transaction began and how many registers after it this
one stands (spec/03 R69). -/
structure HtwReg where
  base : BitVec 24
  index : Nat
  deriving DecidableEq, Repr

/-- A select's assertion at a target port: the TDC's count, 0 for the present TCLK cycle or 1 for the next one (spec/01 R14), whether the
frame will have all its edges (spec/04 R96, R102), and whether the port's bank is below warning at that edge (spec/04 R103). -/
structure SelectEdge where
  tdc : Fin 2
  whole : Bool
  dip : Bool
  deriving DecidableEq, Repr

/-- An attempt of a two-wire controller ends: the controller and whether the supply dipped during the attempt (spec/05 R129). -/
structure TwAttempt where
  ctl : Fin 8
  dip : Bool
  deriving DecidableEq, Repr

/-- An attempt of a two-wire controller is cut off: the bytes read until then as well (spec/05 R132, R133). -/
structure TwCut where
  ctl : Fin 8
  bytes : List Byte
  dip : Bool
  deriving DecidableEq, Repr

/-- The stages that evaluate: of a context's own chain or of its shadow copy (spec/06 R159). -/
structure Chain where
  ctx : Fin 192
  shadow : Bool
  deriving DecidableEq, Repr

/-- A queue that is flushed and the copies of its pointers as the flush finds them, changed bits set (spec/11 R287, R289). -/
structure QueueAt where
  queue : Fin 64
  ptr : BitVec 38
  deriving DecidableEq, Repr

/-- What a metrology converter says beside its sample: out of its range, and taken in a supply dip (spec/15 R398). -/
structure MetFlags where
  ovr : Bool
  dip : Bool
  deriving DecidableEq, Repr

/-- Stored tile words that go bad before an evaluation (spec/06 R155): a coefficient word (512 × bank + index) and a word of
the stage's delay line (its age). -/
structure ParityFault where
  coef : Option (Fin 1024)
  delay : Option (Fin 4096)
  deriving DecidableEq, Repr

/-- An upset of a 72-bit stockpot word or of its address as an access sees it (spec/11 R290): the bits of the 64 data bits, 8
check bits and 21 address bits that differ. -/
structure Upset where
  data : BitVec 72
  addr : BitVec 21
  deriving DecidableEq, Repr

/-- A frame between hubs as it arrives (spec/13 R335): the header fields, the queue words and whether the CRC passed. Its class,
its bridge bit and a CTRL frame's kind are the command's own. -/
structure CasFrame where
  bcast : Bool
  dst : BitVec 9
  src : BitVec 9
  /-- DATA: source queue or destination bridge -/
  sub : BitVec 6
  seq : BitVec 12
  cont : Bool
  words : List QWord
  crcOk : Bool
  deriving DecidableEq, Repr, Inhabited

/-- An upset of a limit-table word as it is read: entry, word, and which of its 32 data and 7 check bits flipped (spec/09 R246). -/
structure LimUpset where
  entry : Fin 8192
  word : Fin 4
  bits : BitVec 39
  deriving DecidableEq, Repr

/-- A frame received by the radio (spec/14 R370, R383). -/
structure RadFrame where
  bytes : List Byte
  fcsOk : Bool
  rssi : BitVec 8
  lqi : BitVec 8
  deriving DecidableEq, Repr

/-- What a self-test measured up to its end (spec/17 R467, R469): elements completed, failing words, the first of them, words
tested, words skipped or accesses refused, µs, and whether a ROM signature differed. -/
structure StResult where
  elements : BitVec 6
  fails : BitVec 10
  first : Word
  tested : Word
  skipped : Word
  micros : Word
  sigBad : Bool
  deriving DecidableEq, Repr

/-- The commands. -/
inductive Instr where
  -- clocks (spec/01)
  | porRelease
  | refclkCountWindowEnd (pass : Bool)
  | refclkRecount (pass : Bool)
  | wclkTrimComplete
  | pllLocked (p : Pll)
  | pllLockTimeout (p : Pll)
  | refclkLost
  | refclkReturn
  | pllLost (p : Pll)
  | fclkStepRequest (point : Fin 3)
  | fclkSlewStep
  | fclkSlewDone
  -- loader (spec/02)
  | bootLoadStart
  | ldrFrame (flash : List Word)
  | ldrTimeout
  | ldrAbort
  | stagingDiscarded
  | ldrDataWrite (words : List Word)
  | ldrCommitGo
  | ldrCommitArm (chan : BitVec 7)
  | sectionEffectPoint (sect : Fin 16) (unit : Fin 256)
  | metroReread (words : List Word)
  -- host access (spec/03)
  | hspWrite (f : HspFrame)
  | hspRead (f : HspFrame)
  | hspCmdRefused (cmd : BitVec 8)
  | htwWriteRegister (r : HtwReg) (w : Word)
  | htwReadRegister (r : HtwReg)
  | htwProtocolError
  | htwTransactionEnd (addrBytes dataBytes : Fin 4)
  | htwSclTimeout
  | hostAccessWake (htw : Bool)
  | glbCommitGo
  | glbCommitArm (chan : BitVec 7)
  | resetQueue (unit : BitVec 9)
  | resetContext (unit : BitVec 9)
  | resetPort (unit : BitVec 9)
  | resetTile (unit : BitVec 9)
  | resetLink (unit : BitVec 9)
  | resetRadio
  | resetFabric
  | resetDevice
  | registerWrite (addr : BitVec 24) (w : Word)
  | rcRead (addr : BitVec 24)
  -- sample ports (spec/04)
  | portStart (p : Fin 24)
  | heldStartTaken (p : Fin 24)
  | portFrameComplete (p : Fin 24) (lanes : List Nat) (shadow : List Word) (dip : BitVec 17) (keepUp parity : Bool)
  | targetSelectAssert (p : Fin 24) (e : SelectEdge)
  | targetFrameEnd (p : Fin 24) (shadow : List Word) (keepUp parity : Bool)
  | targetExtraEdge (p : Fin 24)
  | ingressWord (u : Fin 32) (parity : Bool)
  | spPlanRestart (p : Fin 24)
  | portStagedApply (p : Fin 24)
  | spStampRead (p : Fin 24)
  -- two-wire buses (spec/05)
  | twPollStart (c : Fin 8) (e : Fin 16) (sdaLow : Bool)
  | twHeldStartsServed (c : Fin 8) (sdaLow : Bool)
  | twTransactionComplete (c : Fin 8) (bytes : List Byte) (dip : Bool)
  | twNack (x : TwAttempt) (dataByte : Bool)
  | twRetry (c : Fin 8) (sdaLow : Bool)
  | twArbitrationLost (x : TwAttempt)
  | twBusError (x : TwCut)
  | twLineTimeout (x : TwCut) (sda stillLow : Bool)
  | twBusClear (c : Fin 8) (freed : Bool)
  | twXferGo (c : Fin 8) (w : Word)
  | twXferRun (c : Fin 8) (sdaLow : Bool)
  | twAbort (c : Fin 8)
  -- tiles and contexts (spec/06 to spec/08)
  | firEvaluation (x : Chain) (i : Fin 8) (bad : ParityFault)
  | sieveEvaluation (x : Chain) (i : Fin 8) (bad : ParityFault)
  | settlePiece (x : Chain) (i : Fin 8) (bad : ParityFault)
  | resampleEvaluation (x : Chain) (i : Fin 8) (bad : ParityFault)
  | delayEvaluation (x : Chain) (i : Fin 8) (bad : ParityFault)
  | orderEvaluation (x : Chain) (i : Fin 8) (bad : ParityFault)
  | detectEvaluation (x : Chain) (i : Fin 8) (bad : ParityFault)
  | detectBlockResult (c : Fin 192) (i : Fin 8)
  | shadowCompare (c : Fin 192) (flipTag : BitVec 8) (flipVal : BitVec 24)
  | digestBlockEnd (c : Fin 192) (head : Bool)
  | digRestart (c : Fin 192)
  | digSeqRead (c : Fin 192)
  | contextEnableWrite (c : Fin 192) (on : Bool)
  | swapRequest (t : Fin 32)
  | fadeIdleSwitch (t : Fin 32) (slot : Fin 64)
  | coefWindowWrite (t : Fin 32) (i : Fin 512) (w : Word)
  -- spectra, features, limits (spec/09)
  | spectralBlockComplete (e : Fin 4) (j : Fin 64)
  | spectralTransform (e : Fin 4) (parity : List (Fin 16384))
  | spectralKick (e : Fin 4) (j : Fin 64)
  | timeBlockComplete (c : Fin 192)
  | featureSnapshot (c : Fin 192)
  | feaValuesRead (c : Fin 192)
  | limitRecordEvaluate (upset : Option LimUpset)
  | limEntryWordHold (e : Fin 8192) (i : Fin 3) (w : Word)
  | limEntryApply (e : Fin 8192) (w : Word)
  | limitScrubRead (upset : Option LimUpset)
  -- event fabric (spec/10)
  | channelFire (n : Fin 128)
  | heldFiringRelease (n : Fin 128)
  | watchdogWindowEnd (n : Fin 128)
  | stormClear (k : Fin 4) (w : Word)
  | evFire (w : Word)
  | evStampRead (n : Fin 128)
  -- queues and rewind (spec/11)
  | queueProducerWrite (producer : Fin 2048)
  | queueSpill (q : Fin 64) (ptr : BitVec 38)
  | queueRefill (q : Fin 64) (ptr : BitVec 38) (upsets : List Upset)
  | queueWindowRead (q : Fin 64) (payload : Bool)
  | queueFlush (x : QueueAt)
  | ringLineWrite (c : Fin 192)
  | ringArm (c : Fin 192)
  | ringFire (c : Fin 192)
  | captureReadout (c : Fin 192) (upsets : List Upset)
  | dbgRead (i : BitVec 20) (upset : Upset)
  | dbgWriteLow (i : BitVec 19) (w : Word)
  | dbgWriteHigh (i : BitVec 19) (w : Word)
  -- time (spec/12)
  | tmNowRead (n : Fin 18)
  | slewEnd (n : Fin 18)
  | triggerDue (g : Fin 32)
  | triggerEnableWrite (g : Fin 32) (w : Word)
  | trgPulseEnd (k : Fin 16)
  | tachEdge (t : Fin 8) (rising : Bool)
  | tachStampRead (t : Fin 8)
  | ktHeldWordWrite (a : Fin 256) (i : Fin 5) (w : Word)
  | ktCtlWrite (a : Fin 256) (w : Word)
  | ktActionDue (a : Fin 256)
  | sleepRequest
  | kettleWake (src : Fin 16) (ticks : Nat)
  | ktWakeTimer
  -- cascade (spec/13)
  | linkSignalFound (p : Fin 3)
  | linkTrained (p : Fin 3) (role : Fin 3) (cmstr same : Bool) (device : BitVec 9) (delay : BitVec 32)
  | linkLoss (p : Fin 3)
  | linkReturn (p : Fin 3) (role : Fin 3) (device : BitVec 9)
  | holdExpire (p : Fin 3)
  | credit (p : Fin 3) (cls : Fin 4) (n : BitVec 14)
  | ack (p : Fin 3) (cls : Fin 4) (seq : BitVec 12)
  | nak (p : Fin 3) (cls : Fin 4) (seq : BitVec 12)
  | retransmitTimeout (p : Fin 3) (cls : Fin 4)
  | frameTransmit (p : Fin 3)
  | dataFrameIdleClose
  | timeExchangeStart
  | sync (num : BitVec 16)
  | dreqSend
  | dreq (p : Fin 3) (num : BitVec 16)
  | timeFrameReceive (f : CasFrame)
  | enumGo
  | masterSelfEnum
  | enumTimeout
  | enum (p : Fin 3) (f : CasFrame)
  | enumDone (p : Fin 3) (f : CasFrame)
  | enumEnd (f : CasFrame)
  | enumFail (p : Fin 3) (f : CasFrame)
  | lost (p : Fin 3) (f : CasFrame)
  | renum (f : CasFrame)
  | bitstream (p : Fin 3) (f : CasFrame)
  | notify (p : Fin 3) (f : CasFrame)
  | rq (f : CasFrame)
  | rsp (p : Fin 3) (f : CasFrame)
  | logFrameReceive (p : Fin 3) (f : CasFrame)
  | unknownCtrlFrame (p : Fin 3) (f : CasFrame)
  | alarmFrameReceive (p : Fin 3) (f : CasFrame)
  | dataFrameReceive (p : Fin 3) (f : CasFrame)
  | bridgeFrameReceive (p : Fin 3) (f : CasFrame)
  | bridgeSampleRelease (b : Fin 32)
  | casRqGo
  | remoteTimeout
  | casBsDataWrite (words : List Word)
  -- radio (spec/14)
  | radCmdSleep (w : Word)
  | radCmdStandby (w : Word)
  | radCmdRx (w : Word)
  | radCmdTx (w : Word)
  | radCmdCal (w : Word)
  | radCmdAbort (w : Word)
  | radioStateReached
  | txNoLock
  | synthLockLost
  | radioCalStepStart (step : Fin 16)
  | radioCalStepDone (temp : BitVec 8)
  | slotAction
  | radioFrameReceived (f : RadFrame)
  | joinReceived (f : RadFrame)
  | nodeLost (n : Fin 48)
  | radioSampleRelease (n : Fin 48)
  | dctlReady (n : Fin 48)
  | radioHang
  | wakeCmdHub (addr : BitVec 16)
  | wakeCmdHost (addr : BitVec 16)
  | wakeCmdBoth (addr : BitVec 16)
  | wakeCmdOther (addr : BitVec 16)
  | wakeTelegramBad
  -- metrology partition (spec/15)
  | metSample (ch : Fin 8) (v : BitVec 24) (f : MetFlags) (mclk : BitVec 32)
  | metSampleRelease (ch : Fin 8)
  | rotationStepStart
  | spareCalibrationDone (offset gain : BitVec 24)
  | seamEvaluation (pairs : List (BitVec 24 × BitVec 24))
  | severitySecond (ch : Fin 8) (v : BitVec 32)
  | severityIntervalEnd
  | mbSetTime
  | mbSeal (mlid : Bool)
  | mbUnseal (mlid : Bool)
  | mbRetire (mlid : Bool)
  | mbDiscard
  | mbArchive
  | mbLogSeek
  | mbCalibrate
  | calibrateEnd
  | mbUnknownOp
  | followNetAdjust
  | followerSteer
  | followerReload
  | alignPulse (phase : BitVec 16)
  | mpor (nmrst torn : Bool)
  | feramScan (r : StResult)
  -- integrity (spec/16)
  | cfgCheckUnit (sect : Fin 16) (unit : Fin 256) (cell : Fin 4096) (flip : Word)
  | recoveryEnd (scope : Fin 16) (unit : BitVec 9)
  | recTimeout (scope : Fin 16) (unit : BitVec 9)
  | bucketTokenAdd (b : Fin 6)
  -- self-test and ageing (spec/17)
  | stGo (w : Word)
  | stAbort (w : Word)
  | stComplete (g : Fin 9) (r : StResult)
  | stStarved (g : Fin 9)
  | stRestorePassDone (g : Fin 9)
  | controlCycle (margins : List (BitVec 8)) (drift : BitVec 16) (temp : BitVec 8) (eyes : BitVec 24)
  | vddcSettled
  | wclkRetrimApply
  -- supplies (spec/18)
  | supplyWarning (rail : Fin 12) (mv : BitVec 16)
  | supplyRecovered (rail : Fin 12)
  | recoveryWindowRestart (rail : Fin 12)
  | dipSample (rail : Fin 12) (mv : BitVec 16)
  | reducedEnter
  | railResetLevel (rail : Fin 12)
  | railRelease (rail : Fin 12) (hi : Bool)
  | nrstLow
  -- completions the table lists last
  | targetCaptureEdge (p : Fin 24) (bits : BitVec 4) (dip : Bool) (shadow : List Word) (keepUp parity : Bool)
  | holdPeriodsComplete (p : Fin 24)
  | partnerDisconnected (p : Fin 3)
  | txComplete
  | rxWindowEnd
  | slotEnd (arriving : Bool)
  | xclkOscillatorStep (up : Bool)
  | aclkStart
  | lifeCycleFactoryChange (state : Fin 8)
  deriving DecidableEq, Repr

end Sys2Proof
end

