-- ==== Sys2Proof/Decode.lean ====
section
/-! DEFINITION. Commands as words. No row of spec/opcode_table.json gives bits: a command reaches the hub as an access of a
register, a frame or an event, never as a word to be decoded. -/

namespace Sys2Proof

/-- The command a word spells by the table's bits: no row has any. -/
def decodeTableWord (_nbits _w : Nat) : Option Instr := none

end Sys2Proof
end

