-- ==== Sys2Proof/Config.lean ====
section
/-! DEFINITION. What the spec leaves open as a value: constants without a body, so that no proof can see what they are.
`freeValue` gives a fresh unconstrained number for each value of the state's counter. -/

namespace Sys2Proof.Config

/-- A value the spec calls undefined, for each count of the free counter. -/
opaque freeValue : Nat → Nat

/-- Interpolation ROM entries other than phase 0 (spec/08 R196): row and phase to a Q1.23 word. -/
opaque interpRom : Nat → Nat → BitVec 32

/-- Entries of the Q1.23 tables cos_t and sin_t that are rounded up (spec/08 R210): the spec gives the functions, not the rounding. -/
opaque cosUp : Nat → Bool
opaque sinUp : Nat → Bool

/-- Arithmetic noise of bin k of the transform of a block under a window kind: real and imaginary part in units of 2^-46 (spec/09 R225,
R253). The spec bounds it and does not give the bits. -/
opaque binNoise : List Int → Nat → Nat → Int × Int

/-- The eight check bits of a stockpot word over its data and address (spec/11 R290): the spec gives the code's distance, not
its matrix. -/
opaque checkBits : BitVec 64 → BitVec 21 → BitVec 8

/-- The seven check bits of a limit-table word (spec/09 R246). -/
opaque limitCheck : BitVec 32 → BitVec 7

end Sys2Proof.Config
end

