-- ==== Sys2Proof/Machine/RegKinds.lean ====
section
/-! DEFINITION. What a row of a register table says (spec/00 R6, R7 and "Registers"): the type of each field, its reset
scope, and where the copies of a register sit. -/

namespace Sys2Proof.Machine

/-- The register types of spec/00, with the staged fields of R78 and the held fields of R245 and R319. -/
inductive FKind where
  | rw | ro | w1c | w1s | wo | rc
  /-- read and write through a shadow that the global commit applies (R78) -/
  | staged
  /-- read and write through words held until the unit's last word is written (R245, R319) -/
  | held
  deriving DecidableEq, Repr

/-- Reset scopes in the order of R6; `mpor` is the partition's own, `fixed` and `kept` are reset by none. -/
inductive Scope where
  | queue | context | port | tile | link | radio | fabric | device | por | mpor | fixed | kept
  deriving DecidableEq, Repr

/-- One field of a register. -/
structure RField where
  lo : Nat
  len : Nat
  kind : FKind
  reset : Nat
  scope : Scope
  deriving DecidableEq, Repr

/-- One row of a register table: copies at `first + s1 * i + s2 * j` for `i < n1`, `j < n2`. -/
structure RegRow where
  first : Nat
  s1 : Nat
  n1 : Nat
  s2 : Nat
  n2 : Nat
  fields : List RField
  deriving DecidableEq, Repr

/-- A named field: the register's byte address, the lowest bit and the width. -/
structure Fld where
  addr : Nat
  lo : Nat
  len : Nat
  deriving DecidableEq, Repr

end Sys2Proof.Machine
end

