-- ==== Sys2Proof/Machine/Fields.lean ====
section
/-! DEFINITION. The name of every register and of every field of the register tables of spec/01 to spec/18: a register is its
byte address (as a function of its unit numbers), a field its address, lowest bit and width. -/

namespace Sys2Proof.Machine

/-- R1: `glb.caps`. -/
abbrev rGlbCaps : Nat := 0x000000
def fGlbCapsLayout : Fld := ⟨rGlbCaps, 30, 2⟩
def fGlbCapsCtxCount : Fld := ⟨rGlbCaps, 22, 8⟩
def fGlbCapsTileCount : Fld := ⟨rGlbCaps, 16, 6⟩
def fGlbCapsSpcCount : Fld := ⟨rGlbCaps, 13, 3⟩
def fGlbCapsQCount : Fld := ⟨rGlbCaps, 6, 7⟩
def fGlbCapsSpHi : Fld := ⟨rGlbCaps, 5, 1⟩
def fGlbCapsCasBr : Fld := ⟨rGlbCaps, 4, 1⟩
def fGlbCapsRad : Fld := ⟨rGlbCaps, 3, 1⟩
def fGlbCapsWake : Fld := ⟨rGlbCaps, 2, 1⟩
def fGlbCapsMet : Fld := ⟨rGlbCaps, 1, 1⟩
/-- R80: `glb.status`. -/
abbrev rGlbStatus : Nat := 0x000004
def fGlbStatusRun : Fld := ⟨rGlbStatus, 28, 4⟩
def fGlbStatusLc : Fld := ⟨rGlbStatus, 25, 3⟩
def fGlbStatusMaster : Fld := ⟨rGlbStatus, 24, 1⟩
def fGlbStatusEnumOk : Fld := ⟨rGlbStatus, 23, 1⟩
def fGlbStatusDevnum : Fld := ⟨rGlbStatus, 14, 9⟩
def fGlbStatusConfigured : Fld := ⟨rGlbStatus, 13, 1⟩
def fGlbStatusLastReset : Fld := ⟨rGlbStatus, 8, 4⟩
/-- R81: `glb.commit`. -/
abbrev rGlbCommit : Nat := 0x000008
def fGlbCommitGo : Fld := ⟨rGlbCommit, 31, 1⟩
def fGlbCommitArm : Fld := ⟨rGlbCommit, 30, 1⟩
def fGlbCommitChan : Fld := ⟨rGlbCommit, 0, 7⟩
/-- R81: `glb.reset`. -/
abbrev rGlbReset : Nat := 0x00000C
def fGlbResetGo : Fld := ⟨rGlbReset, 31, 1⟩
def fGlbResetBusy : Fld := ⟨rGlbReset, 30, 1⟩
def fGlbResetRefused : Fld := ⟨rGlbReset, 29, 1⟩
def fGlbResetScope : Fld := ⟨rGlbReset, 16, 4⟩
def fGlbResetUnit : Fld := ⟨rGlbReset, 0, 9⟩
/-- R82: `glb.tag`. -/
abbrev rGlbTag : Nat := 0x000010
def fGlbTagTag : Fld := ⟨rGlbTag, 0, 32⟩
/-- R83: `glb.irq0_en`. -/
abbrev rGlbIrq0En : Nat := 0x000020
def fGlbIrq0EnBlocks : Fld := ⟨rGlbIrq0En, 0, 15⟩
/-- R83: `glb.irq0_stat`. -/
abbrev rGlbIrq0Stat : Nat := 0x000024
def fGlbIrq0StatBlocks : Fld := ⟨rGlbIrq0Stat, 0, 15⟩
/-- R83: `glb.irq1_en`. -/
abbrev rGlbIrq1En : Nat := 0x000028
def fGlbIrq1EnBlocks : Fld := ⟨rGlbIrq1En, 0, 15⟩
/-- R83: `glb.irq1_stat`. -/
abbrev rGlbIrq1Stat : Nat := 0x00002C
def fGlbIrq1StatBlocks : Fld := ⟨rGlbIrq1Stat, 0, 15⟩
/-- R84: `glb.wake`. -/
abbrev rGlbWake : Nat := 0x000030
def fGlbWakeEn : Fld := ⟨rGlbWake, 8, 3⟩
def fGlbWakePend : Fld := ⟨rGlbWake, 0, 3⟩
/-- R85: `hst.cfg`. -/
abbrev rHstCfg : Nat := 0x000100
def fHstCfgCrcReq : Fld := ⟨rHstCfg, 1, 1⟩
def fHstCfgIrqPol : Fld := ⟨rHstCfg, 0, 1⟩
/-- R85: `hst.status`. -/
abbrev rHstStatus : Nat := 0x000104
def fHstStatusHtwPartial : Fld := ⟨rHstStatus, 14, 1⟩
def fHstStatusHtwTimeout : Fld := ⟨rHstStatus, 13, 1⟩
def fHstStatusHtwProto : Fld := ⟨rHstStatus, 12, 1⟩
def fHstStatusNoCrc : Fld := ⟨rHstStatus, 11, 1⟩
def fHstStatusRdEarly : Fld := ⟨rHstStatus, 10, 1⟩
def fHstStatusCrcErr : Fld := ⟨rHstStatus, 9, 1⟩
def fHstStatusCmdErr : Fld := ⟨rHstStatus, 8, 1⟩
def fHstStatusAlign : Fld := ⟨rHstStatus, 7, 1⟩
def fHstStatusOverclock : Fld := ⟨rHstStatus, 6, 1⟩
def fHstStatusShort : Fld := ⟨rHstStatus, 5, 1⟩
def fHstStatusAborted : Fld := ⟨rHstStatus, 4, 1⟩
def fHstStatusNotready : Fld := ⟨rHstStatus, 3, 1⟩
def fHstStatusDenied : Fld := ⟨rHstStatus, 2, 1⟩
def fHstStatusOver : Fld := ⟨rHstStatus, 1, 1⟩
/-- R85: `hst.last`. -/
abbrev rHstLast : Nat := 0x000108
def fHstLastAddr : Fld := ⟨rHstLast, 0, 24⟩
/-- R85: `hst.count`. -/
abbrev rHstCount : Nat := 0x00010C
def fHstCountHspBad : Fld := ⟨rHstCount, 16, 16⟩
def fHstCountHtwBad : Fld := ⟨rHstCount, 0, 16⟩
/-- R17: `clk.status`. -/
abbrev rClkStatus : Nat := 0x010000
def fClkStatusFclkPoint : Fld := ⟨rClkStatus, 14, 2⟩
def fClkStatusSlewing : Fld := ⟨rClkStatus, 13, 1⟩
def fClkStatusFclkPlan : Fld := ⟨rClkStatus, 11, 2⟩
def fClkStatusAclkOk : Fld := ⟨rClkStatus, 10, 1⟩
def fClkStatusXclkOk : Fld := ⟨rClkStatus, 9, 1⟩
def fClkStatusWclkTrim : Fld := ⟨rClkStatus, 8, 1⟩
def fClkStatusLinkLock : Fld := ⟨rClkStatus, 7, 1⟩
def fClkStatusFabLock : Fld := ⟨rClkStatus, 6, 1⟩
def fClkStatusTimeLock : Fld := ⟨rClkStatus, 5, 1⟩
def fClkStatusRefclkOk : Fld := ⟨rClkStatus, 4, 1⟩
def fClkStatusStepDeferred : Fld := ⟨rClkStatus, 3, 1⟩
def fClkStatusLockLost : Fld := ⟨rClkStatus, 2, 1⟩
def fClkStatusRefclkLost : Fld := ⟨rClkStatus, 1, 1⟩
/-- R18: `clk.boot_div`. -/
abbrev rClkBootDiv : Nat := 0x010004
def fClkBootDivDiv : Fld := ⟨rClkBootDiv, 0, 6⟩
/-- R510: `clk.sup.now`. -/
abbrev rClkSupNow : Nat := 0x010100
def fClkSupNowReduced : Fld := ⟨rClkSupNow, 31, 1⟩
def fClkSupNowHeld : Fld := ⟨rClkSupNow, 16, 12⟩
def fClkSupNowWarn : Fld := ⟨rClkSupNow, 0, 12⟩
/-- R510: `clk.sup.dip`. -/
abbrev rClkSupDip : Nat := 0x010104
def fClkSupDipReducedLeave : Fld := ⟨rClkSupDip, 13, 1⟩
def fClkSupDipReducedEnter : Fld := ⟨rClkSupDip, 12, 1⟩
def fClkSupDipDip : Fld := ⟨rClkSupDip, 0, 12⟩
/-- R510: `clk.sup.ien`. -/
abbrev rClkSupIen : Nat := 0x010108
def fClkSupIenIen : Fld := ⟨rClkSupIen, 0, 14⟩
/-- R511: `clk.sup.last`. -/
abbrev rClkSupLast : Nat := 0x01010C
def fClkSupLastRail : Fld := ⟨rClkSupLast, 28, 4⟩
def fClkSupLastClass : Fld := ⟨rClkSupLast, 26, 2⟩
def fClkSupLastDur : Fld := ⟨rClkSupLast, 0, 26⟩
/-- R511: `clk.sup.min`. -/
abbrev rClkSupMin : Nat := 0x010110
def fClkSupMinCount : Fld := ⟨rClkSupMin, 16, 16⟩
def fClkSupMinMv : Fld := ⟨rClkSupMin, 0, 16⟩
/-- R511: `clk.sup.bank`. -/
abbrev rClkSupBank : Nat := 0x010114
def fClkSupBankBank : Fld := ⟨rClkSupBank, 0, 5⟩
/-- R511: `clk.sup.cause`. -/
abbrev rClkSupCause : Nat := 0x010118
def fClkSupCauseCause : Fld := ⟨rClkSupCause, 0, 4⟩
/-- R512: `clk.sleep`. -/
abbrev rClkSleep : Nat := 0x010120
def fClkSleepGo : Fld := ⟨rClkSleep, 31, 1⟩
def fClkSleepRefused : Fld := ⟨rClkSleep, 30, 1⟩
def fClkSleepReason : Fld := ⟨rClkSleep, 26, 4⟩
def fClkSleepSrc : Fld := ⟨rClkSleep, 0, 4⟩
/-- R50: `ldr.ctl`. -/
abbrev rLdrCtl : Nat := 0x020000
def fLdrCtlHoldBoot : Fld := ⟨rLdrCtl, 2, 1⟩
def fLdrCtlHostOnly : Fld := ⟨rLdrCtl, 1, 1⟩
def fLdrCtlAbort : Fld := ⟨rLdrCtl, 0, 1⟩
/-- R51: `ldr.status`. -/
abbrev rLdrStatus : Nat := 0x020004
def fLdrStatusState : Fld := ⟨rLdrStatus, 28, 4⟩
def fLdrStatusSrc : Fld := ⟨rLdrStatus, 26, 2⟩
def fLdrStatusConfigured : Fld := ⟨rLdrStatus, 25, 1⟩
def fLdrStatusDeferred : Fld := ⟨rLdrStatus, 24, 1⟩
def fLdrStatusEarly : Fld := ⟨rLdrStatus, 23, 1⟩
def fLdrStatusFifoOver : Fld := ⟨rLdrStatus, 22, 1⟩
def fLdrStatusSkipped : Fld := ⟨rLdrStatus, 21, 1⟩
def fLdrStatusRejected : Fld := ⟨rLdrStatus, 20, 1⟩
def fLdrStatusDone : Fld := ⟨rLdrStatus, 19, 1⟩
def fLdrStatusFrames : Fld := ⟨rLdrStatus, 0, 16⟩
/-- R52: `ldr.reject`. -/
abbrev rLdrReject : Nat := 0x020008
def fLdrRejectCode : Fld := ⟨rLdrReject, 24, 8⟩
def fLdrRejectSection : Fld := ⟨rLdrReject, 16, 8⟩
def fLdrRejectFrame : Fld := ⟨rLdrReject, 0, 16⟩
/-- R53: `ldr.level`. -/
abbrev rLdrLevel : Nat := 0x02000C
def fLdrLevelStaged : Fld := ⟨rLdrLevel, 16, 16⟩
def fLdrLevelFree : Fld := ⟨rLdrLevel, 0, 10⟩
/-- R54: `ldr.commit`. -/
abbrev rLdrCommit : Nat := 0x020010
def fLdrCommitGo : Fld := ⟨rLdrCommit, 31, 1⟩
def fLdrCommitArm : Fld := ⟨rLdrCommit, 30, 1⟩
def fLdrCommitChan : Fld := ⟨rLdrCommit, 0, 7⟩
/-- R55: `ldr.pending`. -/
abbrev rLdrPending : Nat := 0x020014
def fLdrPendingSect : Fld := ⟨rLdrPending, 1, 15⟩
/-- R56: `ldr.metro`. -/
abbrev rLdrMetro : Nat := 0x020018
def fLdrMetroOutcome : Fld := ⟨rLdrMetro, 28, 4⟩
/-- R57: `ldr.count`. -/
abbrev rLdrCount : Nat := 0x02001C
def fLdrCountSkipped : Fld := ⟨rLdrCount, 24, 8⟩
def fLdrCountDeferrals : Fld := ⟨rLdrCount, 16, 8⟩
def fLdrCountRefused : Fld := ⟨rLdrCount, 0, 16⟩
/-- R58: `ldr.boot`. -/
abbrev rLdrBoot : Nat := 0x020020
def fLdrBootCodeA : Fld := ⟨rLdrBoot, 24, 8⟩
def fLdrBootCodeB : Fld := ⟨rLdrBoot, 16, 8⟩
def fLdrBootStraps : Fld := ⟨rLdrBoot, 2, 2⟩
def fLdrBootImage : Fld := ⟨rLdrBoot, 0, 2⟩
/-- R58: `ldr.build`. -/
abbrev rLdrBuild (n : Nat) : Nat := 0x020024 + 0x4 * n
def fLdrBuildBuild (n : Nat) : Fld := ⟨rLdrBuild n, 0, 32⟩
/-- R60: `ldr.ien`. -/
abbrev rLdrIen : Nat := 0x02002C
def fLdrIenIen : Fld := ⟨rLdrIen, 19, 6⟩
/-- R59: `ldr.data`. -/
abbrev rLdrData (n : Nat) : Nat := 0x020400 + 0x4 * n
def fLdrDataData (n : Nat) : Fld := ⟨rLdrData n, 0, 32⟩
/-- R113: `sp.pNN.ctl`. -/
abbrev rSpPCtl (n : Nat) : Nat := 0x040000 + 0x800 * n
def fSpPCtlTrain (n : Nat) : Fld := ⟨rSpPCtl n, 2, 2⟩
def fSpPCtlRole (n : Nat) : Fld := ⟨rSpPCtl n, 1, 1⟩
def fSpPCtlEnable (n : Nat) : Fld := ⟨rSpPCtl n, 0, 1⟩
/-- R114: `sp.pNN.div`. -/
abbrev rSpPDiv (n : Nat) : Nat := 0x040004 + 0x800 * n
def fSpPDivDiv (n : Nat) : Fld := ⟨rSpPDiv n, 0, 16⟩
/-- R115: `sp.pNN.status`. -/
abbrev rSpPStatus (n : Nat) : Nat := 0x040008 + 0x800 * n
def fSpPStatusSupplyDip (n : Nat) : Fld := ⟨rSpPStatus n, 12, 1⟩
def fSpPStatusNoEye (n : Nat) : Fld := ⟨rSpPStatus n, 11, 1⟩
def fSpPStatusParity (n : Nat) : Fld := ⟨rSpPStatus n, 10, 1⟩
def fSpPStatusFifoOver (n : Nat) : Fld := ⟨rSpPStatus n, 9, 1⟩
def fSpPStatusSyncErr (n : Nat) : Fld := ⟨rSpPStatus n, 8, 1⟩
def fSpPStatusCrcErr (n : Nat) : Fld := ⟨rSpPStatus n, 7, 1⟩
def fSpPStatusStartDrop (n : Nat) : Fld := ⟨rSpPStatus n, 6, 1⟩
def fSpPStatusLate (n : Nat) : Fld := ⟨rSpPStatus n, 5, 1⟩
def fSpPStatusOverclock (n : Nat) : Fld := ⟨rSpPStatus n, 4, 1⟩
def fSpPStatusShort (n : Nat) : Fld := ⟨rSpPStatus n, 3, 1⟩
def fSpPStatusAborted (n : Nat) : Fld := ⟨rSpPStatus n, 2, 1⟩
def fSpPStatusTrained (n : Nat) : Fld := ⟨rSpPStatus n, 1, 1⟩
def fSpPStatusBusy (n : Nat) : Fld := ⟨rSpPStatus n, 0, 1⟩
/-- R115: `sp.pNN.ien`. -/
abbrev rSpPIen (n : Nat) : Nat := 0x04000C + 0x800 * n
def fSpPIenIen (n : Nat) : Fld := ⟨rSpPIen n, 1, 12⟩
/-- R116: `sp.pNN.frames`. -/
abbrev rSpPFrames (n : Nat) : Nat := 0x040010 + 0x800 * n
def fSpPFramesFrames (n : Nat) : Fld := ⟨rSpPFrames n, 0, 32⟩
/-- R116: `sp.pNN.err`. -/
abbrev rSpPErr (n : Nat) : Nat := 0x040014 + 0x800 * n
def fSpPErrBad (n : Nat) : Fld := ⟨rSpPErr n, 24, 8⟩
def fSpPErrCrc (n : Nat) : Fld := ⟨rSpPErr n, 16, 8⟩
def fSpPErrSync (n : Nat) : Fld := ⟨rSpPErr n, 8, 8⟩
def fSpPErrParity (n : Nat) : Fld := ⟨rSpPErr n, 0, 8⟩
/-- R116: `sp.pNN.lost`. -/
abbrev rSpPLost (n : Nat) : Nat := 0x040018 + 0x800 * n
def fSpPLostEdges (n : Nat) : Fld := ⟨rSpPLost n, 16, 16⟩
def fSpPLostStarts (n : Nat) : Fld := ⟨rSpPLost n, 8, 8⟩
def fSpPLostWords (n : Nat) : Fld := ⟨rSpPLost n, 0, 8⟩
/-- R116: `sp.pNN.late`. -/
abbrev rSpPLate (n : Nat) : Nat := 0x04001C + 0x800 * n
def fSpPLateCount (n : Nat) : Fld := ⟨rSpPLate n, 16, 16⟩
def fSpPLateLast (n : Nat) : Fld := ⟨rSpPLate n, 0, 16⟩
/-- R117: `sp.pNN.tap`. -/
abbrev rSpPTap (n : Nat) : Nat := 0x040020 + 0x800 * n
def fSpPTapLateEdge (n : Nat) : Fld := ⟨rSpPTap n, 31, 1⟩
def fSpPTapLane3 (n : Nat) : Fld := ⟨rSpPTap n, 24, 6⟩
def fSpPTapLane2 (n : Nat) : Fld := ⟨rSpPTap n, 16, 6⟩
def fSpPTapLane1 (n : Nat) : Fld := ⟨rSpPTap n, 8, 6⟩
def fSpPTapLane0 (n : Nat) : Fld := ⟨rSpPTap n, 0, 6⟩
/-- R117: `sp.pNN.eye`. -/
abbrev rSpPEye (n : Nat) : Nat := 0x040024 + 0x800 * n
def fSpPEyeLane3 (n : Nat) : Fld := ⟨rSpPEye n, 24, 6⟩
def fSpPEyeLane2 (n : Nat) : Fld := ⟨rSpPEye n, 16, 6⟩
def fSpPEyeLane1 (n : Nat) : Fld := ⟨rSpPEye n, 8, 6⟩
def fSpPEyeLane0 (n : Nat) : Fld := ⟨rSpPEye n, 0, 6⟩
/-- R117: `sp.pNN.plan`. -/
abbrev rSpPPlan (n : Nat) : Nat := 0x040028 + 0x800 * n
def fSpPPlanRestart (n : Nat) : Fld := ⟨rSpPPlan n, 31, 1⟩
def fSpPPlanEntry (n : Nat) : Fld := ⟨rSpPPlan n, 8, 3⟩
def fSpPPlanFrame (n : Nat) : Fld := ⟨rSpPPlan n, 0, 8⟩
/-- R118: `sp.pNN.stamp0`. -/
abbrev rSpPStamp0 (n : Nat) : Nat := 0x040030 + 0x800 * n
def fSpPStamp0Stamp0 (n : Nat) : Fld := ⟨rSpPStamp0 n, 0, 32⟩
/-- R118: `sp.pNN.stamp1`. -/
abbrev rSpPStamp1 (n : Nat) : Nat := 0x040034 + 0x800 * n
def fSpPStamp1Stamp1 (n : Nat) : Fld := ⟨rSpPStamp1 n, 0, 32⟩
/-- R118: `sp.pNN.stamp2`. -/
abbrev rSpPStamp2 (n : Nat) : Nat := 0x040038 + 0x800 * n
def fSpPStamp2Stamp2 (n : Nat) : Fld := ⟨rSpPStamp2 n, 0, 32⟩
/-- R118: `sp.pNN.stamp3`. -/
abbrev rSpPStamp3 (n : Nat) : Nat := 0x04003C + 0x800 * n
def fSpPStamp3Frac (n : Nat) : Fld := ⟨rSpPStamp3 n, 16, 16⟩
def fSpPStamp3Late (n : Nat) : Fld := ⟨rSpPStamp3 n, 2, 1⟩
def fSpPStamp3Tdc (n : Nat) : Fld := ⟨rSpPStamp3 n, 1, 1⟩
def fSpPStamp3Bad (n : Nat) : Fld := ⟨rSpPStamp3 n, 0, 1⟩
/-- R119: `sp.sum`. -/
abbrev rSpSum (n : Nat) : Nat := 0x050000 + 0x4 * n
def fSpSumSum (n : Nat) : Fld := ⟨rSpSum n, 0, 24⟩
/-- R139: `tw.cN.ctl`. -/
abbrev rTwCCtl (n : Nat) : Nat := 0x060000 + 0x400 * n
def fTwCCtlTmoSel (n : Nat) : Fld := ⟨rTwCCtl n, 4, 1⟩
def fTwCCtlAbort (n : Nat) : Fld := ⟨rTwCCtl n, 3, 1⟩
def fTwCCtlState (n : Nat) : Fld := ⟨rTwCCtl n, 1, 2⟩
def fTwCCtlEnable (n : Nat) : Fld := ⟨rTwCCtl n, 0, 1⟩
/-- R140: `tw.cN.status`. -/
abbrev rTwCStatus (n : Nat) : Nat := 0x060004 + 0x400 * n
def fTwCStatusSupplyDip (n : Nat) : Fld := ⟨rTwCStatus n, 13, 1⟩
def fTwCStatusXferDone (n : Nat) : Fld := ⟨rTwCStatus n, 12, 1⟩
def fTwCStatusXferRefused (n : Nat) : Fld := ⟨rTwCStatus n, 11, 1⟩
def fTwCStatusLate (n : Nat) : Fld := ⟨rTwCStatus n, 10, 1⟩
def fTwCStatusStartDrop (n : Nat) : Fld := ⟨rTwCStatus n, 9, 1⟩
def fTwCStatusParity (n : Nat) : Fld := ⟨rTwCStatus n, 8, 1⟩
def fTwCStatusFifoOver (n : Nat) : Fld := ⟨rTwCStatus n, 7, 1⟩
def fTwCStatusStuck (n : Nat) : Fld := ⟨rTwCStatus n, 6, 1⟩
def fTwCStatusSdaLow (n : Nat) : Fld := ⟨rTwCStatus n, 5, 1⟩
def fTwCStatusSclLow (n : Nat) : Fld := ⟨rTwCStatus n, 4, 1⟩
def fTwCStatusBusErr (n : Nat) : Fld := ⟨rTwCStatus n, 3, 1⟩
def fTwCStatusArbLost (n : Nat) : Fld := ⟨rTwCStatus n, 2, 1⟩
def fTwCStatusDataNack (n : Nat) : Fld := ⟨rTwCStatus n, 1, 1⟩
def fTwCStatusAddrNack (n : Nat) : Fld := ⟨rTwCStatus n, 0, 1⟩
/-- R140: `tw.cN.ien`. -/
abbrev rTwCIen (n : Nat) : Nat := 0x060008 + 0x400 * n
def fTwCIenIen (n : Nat) : Fld := ⟨rTwCIen n, 0, 14⟩
/-- R141: `tw.cN.err`. -/
abbrev rTwCErr (n : Nat) : Nat := 0x06000C + 0x400 * n
def fTwCErrNack (n : Nat) : Fld := ⟨rTwCErr n, 24, 8⟩
def fTwCErrArb (n : Nat) : Fld := ⟨rTwCErr n, 16, 8⟩
def fTwCErrBus (n : Nat) : Fld := ⟨rTwCErr n, 8, 8⟩
def fTwCErrTmo (n : Nat) : Fld := ⟨rTwCErr n, 0, 8⟩
/-- R141: `tw.cN.lost`. -/
abbrev rTwCLost (n : Nat) : Nat := 0x060010 + 0x400 * n
def fTwCLostStarts (n : Nat) : Fld := ⟨rTwCLost n, 24, 8⟩
def fTwCLostWords (n : Nat) : Fld := ⟨rTwCLost n, 16, 8⟩
/-- R141: `tw.cN.late`. -/
abbrev rTwCLate (n : Nat) : Nat := 0x060014 + 0x400 * n
def fTwCLateCount (n : Nat) : Fld := ⟨rTwCLate n, 16, 16⟩
def fTwCLateLast (n : Nat) : Fld := ⟨rTwCLate n, 0, 16⟩
/-- R142: `tw.cN.xfer`. -/
abbrev rTwCXfer (n : Nat) : Nat := 0x060018 + 0x400 * n
def fTwCXferGo (n : Nat) : Fld := ⟨rTwCXfer n, 31, 1⟩
def fTwCXferBusy (n : Nat) : Fld := ⟨rTwCXfer n, 30, 1⟩
def fTwCXferResult (n : Nat) : Fld := ⟨rTwCXfer n, 27, 3⟩
def fTwCXferJoin (n : Nat) : Fld := ⟨rTwCXfer n, 26, 1⟩
def fTwCXferWcount (n : Nat) : Fld := ⟨rTwCXfer n, 22, 4⟩
def fTwCXferRcount (n : Nat) : Fld := ⟨rTwCXfer n, 18, 4⟩
def fTwCXferAddr (n : Nat) : Fld := ⟨rTwCXfer n, 0, 7⟩
/-- R142: `tw.cN.wdata`. -/
abbrev rTwCWdata (n : Nat) (k : Nat) : Nat := 0x06001C + 0x400 * n + 0x4 * k
def fTwCWdataWdata (n : Nat) (k : Nat) : Fld := ⟨rTwCWdata n k, 0, 32⟩
/-- R142: `tw.cN.rdata`. -/
abbrev rTwCRdata (n : Nat) (k : Nat) : Nat := 0x060028 + 0x400 * n + 0x4 * k
def fTwCRdataRdata (n : Nat) (k : Nat) : Fld := ⟨rTwCRdata n k, 0, 32⟩
/-- R143: `tw.cN.lines`. -/
abbrev rTwCLines (n : Nat) : Nat := 0x060030 + 0x400 * n
def fTwCLinesSclIn (n : Nat) : Fld := ⟨rTwCLines n, 3, 1⟩
def fTwCLinesSdaIn (n : Nat) : Fld := ⟨rTwCLines n, 2, 1⟩
def fTwCLinesSclDrv (n : Nat) : Fld := ⟨rTwCLines n, 1, 1⟩
def fTwCLinesSdaDrv (n : Nat) : Fld := ⟨rTwCLines n, 0, 1⟩
/-- R144: `tw.sum`. -/
abbrev rTwSum (n : Nat) : Nat := 0x062000 + 0x4 * n
def fTwSumSum (n : Nat) : Fld := ⟨rTwSum n, 0, 8⟩
/-- R168: `fab.tNN.status`. -/
abbrev rFabTStatus (n : Nat) : Nat := 0x080000 + 0x1000 * n
def fFabTStatusPartner (n : Nat) : Fld := ⟨rFabTStatus n, 8, 1⟩
def fFabTStatusBankAct (n : Nat) : Fld := ⟨rFabTStatus n, 7, 1⟩
def fFabTStatusFading (n : Nat) : Fld := ⟨rFabTStatus n, 6, 1⟩
def fFabTStatusSwapPend (n : Nat) : Fld := ⟨rFabTStatus n, 5, 1⟩
def fFabTStatusWrRefused (n : Nat) : Fld := ⟨rFabTStatus n, 4, 1⟩
def fFabTStatusSwapRepl (n : Nat) : Fld := ⟨rFabTStatus n, 3, 1⟩
def fFabTStatusParDelay (n : Nat) : Fld := ⟨rFabTStatus n, 2, 1⟩
def fFabTStatusParCoef (n : Nat) : Fld := ⟨rFabTStatus n, 1, 1⟩
/-- R168: `fab.tNN.ien`. -/
abbrev rFabTIen (n : Nat) : Nat := 0x080004 + 0x1000 * n
def fFabTIenIen (n : Nat) : Fld := ⟨rFabTIen n, 1, 4⟩
/-- R169: `fab.tNN.fir`. -/
abbrev rFabTFir (n : Nat) : Nat := 0x080008 + 0x1000 * n
def fFabTFirSwap (n : Nat) : Fld := ⟨rFabTFir n, 31, 1⟩
def fFabTFirBankNext (n : Nat) : Fld := ⟨rFabTFir n, 16, 1⟩
def fFabTFirFadeLen (n : Nat) : Fld := ⟨rFabTFir n, 0, 16⟩
/-- R169: `fab.tNN.cwin`. -/
abbrev rFabTCwin (n : Nat) : Nat := 0x08000C + 0x1000 * n
def fFabTCwinBank (n : Nat) : Fld := ⟨rFabTCwin n, 0, 1⟩
/-- R169: `fab.tNN.util`. -/
abbrev rFabTUtil (n : Nat) : Nat := 0x080010 + 0x1000 * n
def fFabTUtilPeak (n : Nat) : Fld := ⟨rFabTUtil n, 16, 16⟩
def fFabTUtilLast (n : Nat) : Fld := ⟨rFabTUtil n, 0, 16⟩
/-- R169: `fab.tNN.count`. -/
abbrev rFabTCount (n : Nat) : Nat := 0x080014 + 0x1000 * n
def fFabTCountSwapRepl (n : Nat) : Fld := ⟨rFabTCount n, 24, 8⟩
def fFabTCountWrRefused (n : Nat) : Fld := ⟨rFabTCount n, 16, 8⟩
def fFabTCountParCoef (n : Nat) : Fld := ⟨rFabTCount n, 8, 8⟩
def fFabTCountParDelay (n : Nat) : Fld := ⟨rFabTCount n, 0, 8⟩
/-- R169: `fab.tNN.par_addr`. -/
abbrev rFabTParAddr (n : Nat) : Nat := 0x080018 + 0x1000 * n
def fFabTParAddrMem (n : Nat) : Fld := ⟨rFabTParAddr n, 30, 2⟩
def fFabTParAddrAddr (n : Nat) : Fld := ⟨rFabTParAddr n, 0, 12⟩
/-- R193: `fab.tNN.fade`. -/
abbrev rFabTFade (n : Nat) : Nat := 0x08001C + 0x1000 * n
def fFabTFadeIdle (n : Nat) : Fld := ⟨rFabTFade n, 25, 7⟩
def fFabTFadeLeft (n : Nat) : Fld := ⟨rFabTFade n, 18, 7⟩
def fFabTFadeWaitBank (n : Nat) : Fld := ⟨rFabTFade n, 16, 1⟩
def fFabTFadeWaitLen (n : Nat) : Fld := ⟨rFabTFade n, 0, 16⟩
/-- R194: `fab.tNN.scnt`. -/
abbrev rFabTScnt (n : Nat) (k : Nat) : Nat := 0x080100 + 0x1000 * n + 0x4 * k
def fFabTScntEvents (n : Nat) (k : Nat) : Fld := ⟨rFabTScnt n k, 16, 16⟩
def fFabTScntFill (n : Nat) (k : Nat) : Fld := ⟨rFabTScnt n k, 0, 16⟩
/-- R215: `fab.tNN.slJJ.set`. -/
abbrev rFabTSlSet (n : Nat) (k : Nat) : Nat := 0x080200 + 0x1000 * n + 0x10 * k
def fFabTSlSetSet (n : Nat) (k : Nat) : Fld := ⟨rFabTSlSet n k, 0, 32⟩
/-- R216: `fab.tNN.slJJ.st`. -/
abbrev rFabTSlSt (n : Nat) (k : Nat) : Nat := 0x080204 + 0x1000 * n + 0x10 * k
def fFabTSlStState (n : Nat) (k : Nat) : Fld := ⟨rFabTSlSt n k, 8, 3⟩
def fFabTSlStRefused (n : Nat) (k : Nat) : Fld := ⟨rFabTSlSt n k, 7, 1⟩
def fFabTSlStOriginLost (n : Nat) (k : Nat) : Fld := ⟨rFabTSlSt n k, 6, 1⟩
def fFabTSlStLost (n : Nat) (k : Nat) : Fld := ⟨rFabTSlSt n k, 5, 1⟩
def fFabTSlStStopped (n : Nat) (k : Nat) : Fld := ⟨rFabTSlSt n k, 4, 1⟩
def fFabTSlStOverspeed (n : Nat) (k : Nat) : Fld := ⟨rFabTSlSt n k, 3, 1⟩
def fFabTSlStResync (n : Nat) (k : Nat) : Fld := ⟨rFabTSlSt n k, 2, 1⟩
def fFabTSlStCoast (n : Nat) (k : Nat) : Fld := ⟨rFabTSlSt n k, 1, 1⟩
def fFabTSlStDoubled (n : Nat) (k : Nat) : Fld := ⟨rFabTSlSt n k, 0, 1⟩
/-- R217: `fab.tNN.slJJ.cnt`. -/
abbrev rFabTSlCnt (n : Nat) (k : Nat) : Nat := 0x080208 + 0x1000 * n + 0x10 * k
def fFabTSlCntSynth (n : Nat) (k : Nat) : Fld := ⟨rFabTSlCnt n k, 24, 8⟩
def fFabTSlCntDoubled (n : Nat) (k : Nat) : Fld := ⟨rFabTSlCnt n k, 16, 8⟩
def fFabTSlCntResync (n : Nat) (k : Nat) : Fld := ⟨rFabTSlCnt n k, 8, 8⟩
def fFabTSlCntAcq (n : Nat) (k : Nat) : Fld := ⟨rFabTSlCnt n k, 0, 8⟩
/-- R217: `fab.tNN.slJJ.speed`. -/
abbrev rFabTSlSpeed (n : Nat) (k : Nat) : Nat := 0x08020C + 0x1000 * n + 0x10 * k
def fFabTSlSpeedSpeed (n : Nat) (k : Nat) : Fld := ⟨rFabTSlSpeed n k, 0, 32⟩
/-- R170: `fab.tNN.coef`. -/
abbrev rFabTCoef (n : Nat) (k : Nat) : Nat := 0x080800 + 0x1000 * n + 0x4 * k
def fFabTCoefCoef (n : Nat) (k : Nat) : Fld := ⟨rFabTCoef n k, 0, 24⟩
/-- R171: `fab.cNNN.status`. -/
abbrev rFabCStatus (n : Nat) : Nat := 0x0A0000 + 0x40 * n
def fFabCStatusRunning (n : Nat) : Fld := ⟨rFabCStatus n, 9, 1⟩
def fFabCStatusSettling (n : Nat) : Fld := ⟨rFabCStatus n, 8, 1⟩
def fFabCStatusDigLost (n : Nat) : Fld := ⟨rFabCStatus n, 7, 1⟩
def fFabCStatusDigMis (n : Nat) : Fld := ⟨rFabCStatus n, 6, 1⟩
def fFabCStatusShadowSlip (n : Nat) : Fld := ⟨rFabCStatus n, 5, 1⟩
def fFabCStatusShadowMis (n : Nat) : Fld := ⟨rFabCStatus n, 4, 1⟩
def fFabCStatusOutLost (n : Nat) : Fld := ⟨rFabCStatus n, 3, 1⟩
def fFabCStatusInOver (n : Nat) : Fld := ⟨rFabCStatus n, 2, 1⟩
def fFabCStatusSat (n : Nat) : Fld := ⟨rFabCStatus n, 1, 1⟩
/-- R171: `fab.cNNN.ien`. -/
abbrev rFabCIen (n : Nat) : Nat := 0x0A0004 + 0x40 * n
def fFabCIenIen (n : Nat) : Fld := ⟨rFabCIen n, 1, 7⟩
/-- R171: `fab.cNNN.ctl`. -/
abbrev rFabCCtl (n : Nat) : Nat := 0x0A0008 + 0x40 * n
def fFabCCtlDigRestart (n : Nat) : Fld := ⟨rFabCCtl n, 1, 1⟩
def fFabCCtlEnable (n : Nat) : Fld := ⟨rFabCCtl n, 0, 1⟩
/-- R171: `fab.cNNN.count`. -/
abbrev rFabCCount (n : Nat) : Nat := 0x0A000C + 0x40 * n
def fFabCCountLostOut (n : Nat) : Fld := ⟨rFabCCount n, 16, 16⟩
def fFabCCountLostIn (n : Nat) : Fld := ⟨rFabCCount n, 0, 16⟩
/-- R171: `fab.cNNN.shadow`. -/
abbrev rFabCShadow (n : Nat) : Nat := 0x0A0010 + 0x40 * n
def fFabCShadowMism (n : Nat) : Fld := ⟨rFabCShadow n, 16, 16⟩
def fFabCShadowIndex (n : Nat) : Fld := ⟨rFabCShadow n, 0, 16⟩
/-- R171: `fab.cNNN.dig_seq`. -/
abbrev rFabCDigSeq (n : Nat) : Nat := 0x0A0014 + 0x40 * n
def fFabCDigSeqIn (n : Nat) : Fld := ⟨rFabCDigSeq n, 16, 16⟩
def fFabCDigSeqHead (n : Nat) : Fld := ⟨rFabCDigSeq n, 0, 16⟩
/-- R171: `fab.cNNN.dig_in`. -/
abbrev rFabCDigIn (n : Nat) : Nat := 0x0A0018 + 0x40 * n
def fFabCDigInDigIn (n : Nat) : Fld := ⟨rFabCDigIn n, 0, 32⟩
/-- R171: `fab.cNNN.dig_head`. -/
abbrev rFabCDigHead (n : Nat) : Nat := 0x0A001C + 0x40 * n
def fFabCDigHeadDigHead (n : Nat) : Fld := ⟨rFabCDigHead n, 0, 32⟩
/-- R171: `fab.cNNN.outcount`. -/
abbrev rFabCOutcount (n : Nat) : Nat := 0x0A0020 + 0x40 * n
def fFabCOutcountOutcount (n : Nat) : Fld := ⟨rFabCOutcount n, 0, 32⟩
/-- R172: `fab.tsum`. -/
abbrev rFabTsum (n : Nat) : Nat := 0x0B0000 + 0x4 * n
def fFabTsumTsum (n : Nat) : Fld := ⟨rFabTsum n, 0, 32⟩
/-- R172: `fab.csum0`. -/
abbrev rFabCsum0 (n : Nat) : Nat := 0x0B0010 + 0x4 * n
def fFabCsum0Csum0 (n : Nat) : Fld := ⟨rFabCsum0 n, 0, 32⟩
/-- R172: `fab.csum1`. -/
abbrev rFabCsum1 (n : Nat) : Nat := 0x0B0030 + 0x4 * n
def fFabCsum1Csum1 (n : Nat) : Fld := ⟨rFabCsum1 n, 0, 32⟩
/-- R249: `spc.eN.status`. -/
abbrev rSpcEStatus (n : Nat) : Nat := 0x100000 + 0x1000 * n
def fSpcEStatusParity (n : Nat) : Fld := ⟨rSpcEStatus n, 4, 1⟩
def fSpcEStatusOverrun (n : Nat) : Fld := ⟨rSpcEStatus n, 3, 1⟩
def fSpcEStatusBusyStart (n : Nat) : Fld := ⟨rSpcEStatus n, 2, 1⟩
def fSpcEStatusExcluded (n : Nat) : Fld := ⟨rSpcEStatus n, 1, 1⟩
def fSpcEStatusBusy (n : Nat) : Fld := ⟨rSpcEStatus n, 0, 1⟩
/-- R249: `spc.eN.ien`. -/
abbrev rSpcEIen (n : Nat) : Nat := 0x100004 + 0x1000 * n
def fSpcEIenIen (n : Nat) : Fld := ⟨rSpcEIen n, 1, 4⟩
/-- R249: `spc.eN.kick`. -/
abbrev rSpcEKick (n : Nat) : Nat := 0x100008 + 0x1000 * n
def fSpcEKickGo (n : Nat) : Fld := ⟨rSpcEKick n, 31, 1⟩
def fSpcEKickJob (n : Nat) : Fld := ⟨rSpcEKick n, 0, 6⟩
/-- R249: `spc.eN.count`. -/
abbrev rSpcECount (n : Nat) : Nat := 0x10000C + 0x1000 * n
def fSpcECountBlocks (n : Nat) : Fld := ⟨rSpcECount n, 16, 16⟩
def fSpcECountDropped (n : Nat) : Fld := ⟨rSpcECount n, 8, 8⟩
def fSpcECountExcluded (n : Nat) : Fld := ⟨rSpcECount n, 0, 8⟩
/-- R249: `spc.eN.util`. -/
abbrev rSpcEUtil (n : Nat) : Nat := 0x100010 + 0x1000 * n
def fSpcEUtilPeak (n : Nat) : Fld := ⟨rSpcEUtil n, 16, 16⟩
def fSpcEUtilLast (n : Nat) : Fld := ⟨rSpcEUtil n, 0, 16⟩
/-- R249: `spc.eN.busy`. -/
abbrev rSpcEBusy (n : Nat) : Nat := 0x100014 + 0x1000 * n
def fSpcEBusyBusy (n : Nat) : Fld := ⟨rSpcEBusy n, 0, 16⟩
/-- R251: `spc.sum`. -/
abbrev rSpcSum (n : Nat) : Nat := 0x108000 + 0x4 * n
def fSpcSumSum (n : Nat) : Fld := ⟨rSpcSum n, 0, 4⟩
/-- R250: `fea.cNNN.status`. -/
abbrev rFeaCStatus (n : Nat) : Nat := 0x110000 + 0x40 * n
def fFeaCStatusSnapRefused (n : Nat) : Fld := ⟨rFeaCStatus n, 2, 1⟩
def fFeaCStatusRecLost (n : Nat) : Fld := ⟨rFeaCStatus n, 1, 1⟩
/-- R250: `fea.cNNN.ien`. -/
abbrev rFeaCIen (n : Nat) : Nat := 0x110004 + 0x40 * n
def fFeaCIenIen (n : Nat) : Fld := ⟨rFeaCIen n, 1, 2⟩
/-- R250: `fea.cNNN.ctl`. -/
abbrev rFeaCCtl (n : Nat) : Nat := 0x110008 + 0x40 * n
def fFeaCCtlSnap (n : Nat) : Fld := ⟨rFeaCCtl n, 0, 1⟩
/-- R250: `fea.cNNN.count`. -/
abbrev rFeaCCount (n : Nat) : Nat := 0x11000C + 0x40 * n
def fFeaCCountRecords (n : Nat) : Fld := ⟨rFeaCCount n, 16, 16⟩
def fFeaCCountLost (n : Nat) : Fld := ⟨rFeaCCount n, 0, 16⟩
/-- R250: `fea.cNNN.values`. -/
abbrev rFeaCValues (n : Nat) (k : Nat) : Nat := 0x110010 + 0x40 * n + 0x4 * k
def fFeaCValuesValue (n : Nat) (k : Nat) : Fld := ⟨rFeaCValues n k, 0, 32⟩
/-- R251: `fea.csum0`. -/
abbrev rFeaCsum0 (n : Nat) : Nat := 0x118000 + 0x4 * n
def fFeaCsum0Csum0 (n : Nat) : Fld := ⟨rFeaCsum0 n, 0, 32⟩
/-- R251: `fea.csum1`. -/
abbrev rFeaCsum1 (n : Nat) : Nat := 0x118020 + 0x4 * n
def fFeaCsum1Csum1 (n : Nat) : Fld := ⟨rFeaCsum1 n, 0, 32⟩
/-- R237: `lim.entry`. -/
abbrev rLimEntry (n : Nat) : Nat := 0x140000 + 0x4 * n
def fLimEntryWord (n : Nat) : Fld := ⟨rLimEntry n, 0, 32⟩
/-- R252: `lim.st`. -/
abbrev rLimSt (n : Nat) : Nat := 0x160000 + 0x4 * n
def fLimStLevel (n : Nat) : Fld := ⟨rLimSt n, 30, 2⟩
def fLimStOnCnt (n : Nat) : Fld := ⟨rLimSt n, 26, 4⟩
def fLimStOffCnt (n : Nat) : Fld := ⟨rLimSt n, 22, 4⟩
def fLimStBad (n : Nat) : Fld := ⟨rLimSt n, 21, 1⟩
def fLimStTrans (n : Nat) : Fld := ⟨rLimSt n, 0, 16⟩
/-- R252: `lim.cfg`. -/
abbrev rLimCfg : Nat := 0x170000
def fLimCfgScrub : Fld := ⟨rLimCfg, 6, 1⟩
def fLimCfgAlarmQ : Fld := ⟨rLimCfg, 0, 6⟩
/-- R252: `lim.status`. -/
abbrev rLimStatus : Nat := 0x170004
def fLimStatusAct : Fld := ⟨rLimStatus, 6, 1⟩
def fLimStatusWrRefused : Fld := ⟨rLimStatus, 5, 1⟩
def fLimStatusWrDiscard : Fld := ⟨rLimStatus, 4, 1⟩
def fLimStatusOver : Fld := ⟨rLimStatus, 3, 1⟩
def fLimStatusUncorr : Fld := ⟨rLimStatus, 2, 1⟩
def fLimStatusCorr : Fld := ⟨rLimStatus, 1, 1⟩
/-- R252: `lim.ien`. -/
abbrev rLimIen : Nat := 0x170008
def fLimIenIen : Fld := ⟨rLimIen, 0, 7⟩
/-- R252: `lim.count`. -/
abbrev rLimCount : Nat := 0x17000C
def fLimCountCorr : Fld := ⟨rLimCount, 24, 8⟩
def fLimCountUncorr : Fld := ⟨rLimCount, 16, 8⟩
def fLimCountDropped : Fld := ⟨rLimCount, 8, 8⟩
def fLimCountSkipped : Fld := ⟨rLimCount, 0, 8⟩
/-- R252: `lim.err_addr`. -/
abbrev rLimErrAddr : Nat := 0x170010
def fLimErrAddrWord : Fld := ⟨rLimErrAddr, 13, 2⟩
def fLimErrAddrEntry : Fld := ⟨rLimErrAddr, 0, 13⟩
/-- R252: `lim.active`. -/
abbrev rLimActive : Nat := 0x170014
def fLimActiveAlarm : Fld := ⟨rLimActive, 16, 14⟩
def fLimActiveWarning : Fld := ⟨rLimActive, 0, 14⟩
/-- R252: `lim.scrub`. -/
abbrev rLimScrub : Nat := 0x170018
def fLimScrubPos : Fld := ⟨rLimScrub, 0, 13⟩
/-- R272: `ev.fire`. -/
abbrev rEvFire : Nat := 0x180000
def fEvFireFire : Fld := ⟨rEvFire, 0, 32⟩
/-- R272: `ev.fire_bank`. -/
abbrev rEvFireBank : Nat := 0x180004
def fEvFireBankFireBank : Fld := ⟨rEvFireBank, 0, 2⟩
/-- R272: `ev.cfg`. -/
abbrev rEvCfg : Nat := 0x180008
def fEvCfgStormIrq : Fld := ⟨rEvCfg, 0, 1⟩
/-- R272: `ev.coinc`. -/
abbrev rEvCoinc : Nat := 0x18000C
def fEvCoincCount : Fld := ⟨rEvCoinc, 16, 16⟩
def fEvCoincLast : Fld := ⟨rEvCoinc, 0, 16⟩
/-- R272: `ev.flag`. -/
abbrev rEvFlag (n : Nat) : Nat := 0x180010 + 0x4 * n
def fEvFlagFlag (n : Nat) : Fld := ⟨rEvFlag n, 0, 32⟩
/-- R272: `ev.storm`. -/
abbrev rEvStorm (n : Nat) : Nat := 0x180020 + 0x4 * n
def fEvStormStorm (n : Nat) : Fld := ⟨rEvStorm n, 0, 32⟩
/-- R272: `ev.irq0`. -/
abbrev rEvIrq0 (n : Nat) : Nat := 0x180030 + 0x4 * n
def fEvIrq0Irq0 (n : Nat) : Fld := ⟨rEvIrq0 n, 0, 32⟩
/-- R272: `ev.irq1`. -/
abbrev rEvIrq1 (n : Nat) : Nat := 0x180040 + 0x4 * n
def fEvIrq1Irq1 (n : Nat) : Fld := ⟨rEvIrq1 n, 0, 32⟩
/-- R272: `ev.sum`. -/
abbrev rEvSum : Nat := 0x180050
def fEvSumStorm : Fld := ⟨rEvSum, 2, 1⟩
def fEvSumIrq1 : Fld := ⟨rEvSum, 1, 1⟩
def fEvSumIrq0 : Fld := ⟨rEvSum, 0, 1⟩
/-- R273: `ev.cNNN.st`. -/
abbrev rEvCSt (n : Nat) : Nat := 0x181000 + 0x20 * n
def fEvCStMuted (n : Nat) : Fld := ⟨rEvCSt n, 31, 1⟩
def fEvCStHeld (n : Nat) : Fld := ⟨rEvCSt n, 30, 1⟩
def fEvCStEnabled (n : Nat) : Fld := ⟨rEvCSt n, 29, 1⟩
def fEvCStWindow (n : Nat) : Fld := ⟨rEvCSt n, 0, 17⟩
/-- R273: `ev.cNNN.fires`. -/
abbrev rEvCFires (n : Nat) : Nat := 0x181004 + 0x20 * n
def fEvCFiresFires (n : Nat) : Fld := ⟨rEvCFires n, 0, 32⟩
/-- R273: `ev.cNNN.lost`. -/
abbrev rEvCLost (n : Nat) : Nat := 0x181008 + 0x20 * n
def fEvCLostMerged (n : Nat) : Fld := ⟨rEvCLost n, 16, 16⟩
def fEvCLostHeld (n : Nat) : Fld := ⟨rEvCLost n, 0, 16⟩
/-- R273: `ev.cNNN.drop`. -/
abbrev rEvCDrop (n : Nat) : Nat := 0x18100C + 0x20 * n
def fEvCDropRefused (n : Nat) : Fld := ⟨rEvCDrop n, 16, 16⟩
def fEvCDropMuted (n : Nat) : Fld := ⟨rEvCDrop n, 0, 16⟩
/-- R273: `ev.cNNN.stamp0`. -/
abbrev rEvCStamp0 (n : Nat) : Nat := 0x181010 + 0x20 * n
def fEvCStamp0Stamp0 (n : Nat) : Fld := ⟨rEvCStamp0 n, 0, 32⟩
/-- R273: `ev.cNNN.stamp1`. -/
abbrev rEvCStamp1 (n : Nat) : Nat := 0x181014 + 0x20 * n
def fEvCStamp1Stamp1 (n : Nat) : Fld := ⟨rEvCStamp1 n, 0, 32⟩
/-- R273: `ev.cNNN.stamp2`. -/
abbrev rEvCStamp2 (n : Nat) : Nat := 0x181018 + 0x20 * n
def fEvCStamp2Stamp2 (n : Nat) : Fld := ⟨rEvCStamp2 n, 0, 32⟩
/-- R273: `ev.cNNN.stamp3`. -/
abbrev rEvCStamp3 (n : Nat) : Nat := 0x18101C + 0x20 * n
def fEvCStamp3Frac (n : Nat) : Fld := ⟨rEvCStamp3 n, 16, 16⟩
def fEvCStamp3Held (n : Nat) : Fld := ⟨rEvCStamp3 n, 0, 1⟩
/-- R274: `ev.ctrKK.val`. -/
abbrev rEvCtrVal (n : Nat) : Nat := 0x182000 + 0x8 * n
def fEvCtrValVal (n : Nat) : Fld := ⟨rEvCtrVal n, 0, 32⟩
/-- R274: `ev.ctrKK.cmp`. -/
abbrev rEvCtrCmp (n : Nat) : Nat := 0x182004 + 0x8 * n
def fEvCtrCmpCmp (n : Nat) : Fld := ⟨rEvCtrCmp n, 0, 32⟩
/-- R302: `q.qNN.ctl`. -/
abbrev rQQCtl (n : Nat) : Nat := 0x1A0000 + 0x400 * n
def fQQCtlFlush (n : Nat) : Fld := ⟨rQQCtl n, 0, 1⟩
/-- R302: `q.qNN.status`. -/
abbrev rQQStatus (n : Nat) : Nat := 0x1A0004 + 0x400 * n
def fQQStatusNotHost (n : Nat) : Fld := ⟨rQQStatus n, 7, 1⟩
def fQQStatusTrunc (n : Nat) : Fld := ⟨rQQStatus n, 6, 1⟩
def fQQStatusFlushed (n : Nat) : Fld := ⟨rQQStatus n, 5, 1⟩
def fQQStatusPtrErr (n : Nat) : Fld := ⟨rQQStatus n, 4, 1⟩
def fQQStatusUncorr (n : Nat) : Fld := ⟨rQQStatus n, 3, 1⟩
def fQQStatusCorr (n : Nat) : Fld := ⟨rQQStatus n, 2, 1⟩
def fQQStatusThr (n : Nat) : Fld := ⟨rQQStatus n, 1, 1⟩
def fQQStatusFull (n : Nat) : Fld := ⟨rQQStatus n, 0, 1⟩
/-- R302: `q.qNN.ien`. -/
abbrev rQQIen (n : Nat) : Nat := 0x1A0008 + 0x400 * n
def fQQIenIen (n : Nat) : Fld := ⟨rQQIen n, 1, 7⟩
/-- R302: `q.qNN.level`. -/
abbrev rQQLevel (n : Nat) : Nat := 0x1A000C + 0x400 * n
def fQQLevelLevel (n : Nat) : Fld := ⟨rQQLevel n, 0, 22⟩
/-- R302: `q.qNN.pkts`. -/
abbrev rQQPkts (n : Nat) : Nat := 0x1A0010 + 0x400 * n
def fQQPktsPkts (n : Nat) : Fld := ⟨rQQPkts n, 0, 22⟩
/-- R302: `q.qNN.thr`. -/
abbrev rQQThr (n : Nat) : Nat := 0x1A0014 + 0x400 * n
def fQQThrThr (n : Nat) : Fld := ⟨rQQThr n, 0, 22⟩
/-- R302: `q.qNN.count`. -/
abbrev rQQCount (n : Nat) : Nat := 0x1A0018 + 0x400 * n
def fQQCountFlush (n : Nat) : Fld := ⟨rQQCount n, 24, 8⟩
def fQQCountTrunc (n : Nat) : Fld := ⟨rQQCount n, 16, 8⟩
def fQQCountCorr (n : Nat) : Fld := ⟨rQQCount n, 8, 8⟩
def fQQCountUncorr (n : Nat) : Fld := ⟨rQQCount n, 0, 8⟩
/-- R302: `q.qNN.epoch`. -/
abbrev rQQEpoch (n : Nat) : Nat := 0x1A001C + 0x400 * n
def fQQEpochEpoch (n : Nat) : Fld := ⟨rQQEpoch n, 0, 16⟩
/-- R302: `q.qNN.cap`. -/
abbrev rQQCap (n : Nat) : Nat := 0x1A0020 + 0x400 * n
def fQQCapCap (n : Nat) : Fld := ⟨rQQCap n, 0, 22⟩
/-- R302: `q.qNN.win`. -/
abbrev rQQWin (n : Nat) (k : Nat) : Nat := 0x1A0200 + 0x400 * n + 0x4 * k
def fQQWinWin (n : Nat) (k : Nat) : Fld := ⟨rQQWin n k, 0, 32⟩
/-- R303: `q.rCCC.ctl`. -/
abbrev rQRCtl (n : Nat) : Nat := 0x1B0000 + 0x20 * n
def fQRCtlFire (n : Nat) : Fld := ⟨rQRCtl n, 1, 1⟩
def fQRCtlArm (n : Nat) : Fld := ⟨rQRCtl n, 0, 1⟩
/-- R303: `q.rCCC.status`. -/
abbrev rQRStatus (n : Nat) : Nat := 0x1B0004 + 0x20 * n
def fQRStatusState (n : Nat) : Fld := ⟨rQRStatus n, 6, 3⟩
def fQRStatusOverrun (n : Nat) : Fld := ⟨rQRStatus n, 5, 1⟩
def fQRStatusRdLost (n : Nat) : Fld := ⟨rQRStatus n, 4, 1⟩
def fQRStatusFireIgn (n : Nat) : Fld := ⟨rQRStatus n, 3, 1⟩
def fQRStatusArmRef (n : Nat) : Fld := ⟨rQRStatus n, 2, 1⟩
def fQRStatusRUncorr (n : Nat) : Fld := ⟨rQRStatus n, 1, 1⟩
def fQRStatusDone (n : Nat) : Fld := ⟨rQRStatus n, 0, 1⟩
/-- R303: `q.rCCC.ien`. -/
abbrev rQRIen (n : Nat) : Nat := 0x1B0008 + 0x20 * n
def fQRIenIen (n : Nat) : Fld := ⟨rQRIen n, 0, 6⟩
/-- R303: `q.rCCC.lost`. -/
abbrev rQRLost (n : Nat) : Nat := 0x1B000C + 0x20 * n
def fQRLostPre (n : Nat) : Fld := ⟨rQRLost n, 16, 16⟩
def fQRLostRead (n : Nat) : Fld := ⟨rQRLost n, 0, 16⟩
/-- R303: `q.rCCC.count`. -/
abbrev rQRCount (n : Nat) : Nat := 0x1B0010 + 0x20 * n
def fQRCountCaptures (n : Nat) : Fld := ⟨rQRCount n, 16, 16⟩
def fQRCountIgnored (n : Nat) : Fld := ⟨rQRCount n, 0, 16⟩
/-- R303: `q.rCCC.wpos`. -/
abbrev rQRWpos (n : Nat) : Nat := 0x1B0014 + 0x20 * n
def fQRWposWpos (n : Nat) : Fld := ⟨rQRWpos n, 0, 32⟩
/-- R304: `q.qsum0`. -/
abbrev rQQsum0 (n : Nat) : Nat := 0x1B8000 + 0x4 * n
def fQQsum0Qsum0 (n : Nat) : Fld := ⟨rQQsum0 n, 0, 32⟩
/-- R304: `q.qsum1`. -/
abbrev rQQsum1 (n : Nat) : Nat := 0x1B8008 + 0x4 * n
def fQQsum1Qsum1 (n : Nat) : Fld := ⟨rQQsum1 n, 0, 32⟩
/-- R304: `q.rsum0`. -/
abbrev rQRsum0 (n : Nat) : Nat := 0x1B8010 + 0x4 * n
def fQRsum0Rsum0 (n : Nat) : Fld := ⟨rQRsum0 n, 0, 32⟩
/-- R304: `q.rsum1`. -/
abbrev rQRsum1 (n : Nat) : Nat := 0x1B8028 + 0x4 * n
def fQRsum1Rsum1 (n : Nat) : Fld := ⟨rQRsum1 n, 0, 32⟩
/-- R305: `q.dbg.page`. -/
abbrev rQDbgPage : Nat := 0x1B8100
def fQDbgPagePage : Fld := ⟨rQDbgPage, 0, 2⟩
/-- R305: `q.dbg.chk`. -/
abbrev rQDbgChk : Nat := 0x1B8108
def fQDbgChkStored : Fld := ⟨rQDbgChk, 8, 8⟩
def fQDbgChkSyndrome : Fld := ⟨rQDbgChk, 0, 8⟩
/-- R326: `tm.tbNN.now0`. -/
abbrev rTmTbNow0 (n : Nat) : Nat := 0x1C0000 + 0x40 * n
def fTmTbNow0Now0 (n : Nat) : Fld := ⟨rTmTbNow0 n, 0, 32⟩
/-- R326: `tm.tbNN.now1`. -/
abbrev rTmTbNow1 (n : Nat) : Nat := 0x1C0004 + 0x40 * n
def fTmTbNow1Now1 (n : Nat) : Fld := ⟨rTmTbNow1 n, 0, 32⟩
/-- R326: `tm.tbNN.now2`. -/
abbrev rTmTbNow2 (n : Nat) : Nat := 0x1C0008 + 0x40 * n
def fTmTbNow2Now2 (n : Nat) : Fld := ⟨rTmTbNow2 n, 0, 32⟩
/-- R326: `tm.tbNN.now3`. -/
abbrev rTmTbNow3 (n : Nat) : Nat := 0x1C000C + 0x40 * n
def fTmTbNow3Frac (n : Nat) : Fld := ⟨rTmTbNow3 n, 16, 16⟩
/-- R326: `tm.tbNN.inc_hi`. -/
abbrev rTmTbIncHi (n : Nat) : Nat := 0x1C0010 + 0x40 * n
def fTmTbIncHiIncHi (n : Nat) : Fld := ⟨rTmTbIncHi n, 0, 8⟩
/-- R326: `tm.tbNN.inc_lo`. -/
abbrev rTmTbIncLo (n : Nat) : Nat := 0x1C0014 + 0x40 * n
def fTmTbIncLoIncLo (n : Nat) : Fld := ⟨rTmTbIncLo n, 0, 32⟩
/-- R326: `tm.tbNN.step`. -/
abbrev rTmTbStep (n : Nat) (k : Nat) : Nat := 0x1C0018 + 0x40 * n + 0x4 * k
def fTmTbStepStep (n : Nat) (k : Nat) : Fld := ⟨rTmTbStep n k, 0, 32⟩
/-- R326: `tm.tbNN.step3`. -/
abbrev rTmTbStep3 (n : Nat) : Nat := 0x1C0024 + 0x40 * n
def fTmTbStep3Frac (n : Nat) : Fld := ⟨rTmTbStep3 n, 16, 16⟩
/-- R326: `tm.tbNN.slew_adj`. -/
abbrev rTmTbSlewAdj (n : Nat) : Nat := 0x1C0028 + 0x40 * n
def fTmTbSlewAdjSlewAdj (n : Nat) : Fld := ⟨rTmTbSlewAdj n, 0, 32⟩
/-- R326: `tm.tbNN.slew_len`. -/
abbrev rTmTbSlewLen (n : Nat) : Nat := 0x1C002C + 0x40 * n
def fTmTbSlewLenSlewLen (n : Nat) : Fld := ⟨rTmTbSlewLen n, 0, 32⟩
/-- R326: `tm.tbNN.ctl`. -/
abbrev rTmTbCtl (n : Nat) : Nat := 0x1C0030 + 0x40 * n
def fTmTbCtlOp (n : Nat) : Fld := ⟨rTmTbCtl n, 1, 1⟩
def fTmTbCtlStep (n : Nat) : Fld := ⟨rTmTbCtl n, 0, 1⟩
/-- R326: `tm.tbNN.slew_left`. -/
abbrev rTmTbSlewLeft (n : Nat) : Nat := 0x1C0034 + 0x40 * n
def fTmTbSlewLeftSlewLeft (n : Nat) : Fld := ⟨rTmTbSlewLeft n, 0, 32⟩
/-- R326: `tm.tbNN.steps`. -/
abbrev rTmTbSteps (n : Nat) : Nat := 0x1C0038 + 0x40 * n
def fTmTbStepsUsed (n : Nat) : Fld := ⟨rTmTbSteps n, 31, 1⟩
def fTmTbStepsSteps (n : Nat) : Fld := ⟨rTmTbSteps n, 0, 16⟩
/-- R327: `tm.tgGG.ctl`. -/
abbrev rTmTgCtl (n : Nat) : Nat := 0x1C0800 + 0x10 * n
def fTmTgCtlEnable (n : Nat) : Fld := ⟨rTmTgCtl n, 0, 1⟩
/-- R327: `tm.tgGG.st`. -/
abbrev rTmTgSt (n : Nat) : Nat := 0x1C0804 + 0x10 * n
def fTmTgStLate (n : Nat) : Fld := ⟨rTmTgSt n, 31, 1⟩
def fTmTgStMissed (n : Nat) : Fld := ⟨rTmTgSt n, 0, 16⟩
/-- R327: `tm.tgGG.lateness`. -/
abbrev rTmTgLateness (n : Nat) : Nat := 0x1C0808 + 0x10 * n
def fTmTgLatenessLateness (n : Nat) : Fld := ⟨rTmTgLateness n, 0, 32⟩
/-- R327: `tm.tachN.stamp0`. -/
abbrev rTmTachStamp0 (n : Nat) : Nat := 0x1C0A00 + 0x20 * n
def fTmTachStamp0Stamp0 (n : Nat) : Fld := ⟨rTmTachStamp0 n, 0, 32⟩
/-- R327: `tm.tachN.stamp1`. -/
abbrev rTmTachStamp1 (n : Nat) : Nat := 0x1C0A04 + 0x20 * n
def fTmTachStamp1Stamp1 (n : Nat) : Fld := ⟨rTmTachStamp1 n, 0, 32⟩
/-- R327: `tm.tachN.stamp2`. -/
abbrev rTmTachStamp2 (n : Nat) : Nat := 0x1C0A08 + 0x20 * n
def fTmTachStamp2Stamp2 (n : Nat) : Fld := ⟨rTmTachStamp2 n, 0, 32⟩
/-- R327: `tm.tachN.stamp3`. -/
abbrev rTmTachStamp3 (n : Nat) : Nat := 0x1C0A0C + 0x20 * n
def fTmTachStamp3Frac (n : Nat) : Fld := ⟨rTmTachStamp3 n, 16, 16⟩
/-- R327: `tm.tachN.count`. -/
abbrev rTmTachCount (n : Nat) : Nat := 0x1C0A10 + 0x20 * n
def fTmTachCountQual (n : Nat) : Fld := ⟨rTmTachCount n, 16, 16⟩
def fTmTachCountRej (n : Nat) : Fld := ⟨rTmTachCount n, 0, 16⟩
/-- R327: `tm.tachN.period`. -/
abbrev rTmTachPeriod (n : Nat) : Nat := 0x1C0A14 + 0x20 * n
def fTmTachPeriodPeriod (n : Nat) : Fld := ⟨rTmTachPeriod n, 0, 32⟩
/-- R328: `tm.ktAAA.due`. -/
abbrev rTmKtDue (n : Nat) (k : Nat) : Nat := 0x1C1000 + 0x20 * n + 0x4 * k
def fTmKtDueDue (n : Nat) (k : Nat) : Fld := ⟨rTmKtDue n k, 0, 32⟩
/-- R328: `tm.ktAAA.per0`. -/
abbrev rTmKtPer0 (n : Nat) : Nat := 0x1C100C + 0x20 * n
def fTmKtPer0Per0 (n : Nat) : Fld := ⟨rTmKtPer0 n, 0, 32⟩
/-- R328: `tm.ktAAA.per1`. -/
abbrev rTmKtPer1 (n : Nat) : Nat := 0x1C1010 + 0x20 * n
def fTmKtPer1Frac (n : Nat) : Fld := ⟨rTmKtPer1 n, 16, 16⟩
/-- R328: `tm.ktAAA.ctl`. -/
abbrev rTmKtCtl (n : Nat) : Nat := 0x1C1014 + 0x20 * n
def fTmKtCtlEnable (n : Nat) : Fld := ⟨rTmKtCtl n, 31, 1⟩
def fTmKtCtlPeriodic (n : Nat) : Fld := ⟨rTmKtCtl n, 30, 1⟩
def fTmKtCtlWake (n : Nat) : Fld := ⟨rTmKtCtl n, 29, 1⟩
def fTmKtCtlTb (n : Nat) : Fld := ⟨rTmKtCtl n, 24, 5⟩
def fTmKtCtlChan (n : Nat) : Fld := ⟨rTmKtCtl n, 0, 7⟩
/-- R328: `tm.ktAAA.st`. -/
abbrev rTmKtSt (n : Nat) : Nat := 0x1C1018 + 0x20 * n
def fTmKtStLate (n : Nat) : Fld := ⟨rTmKtSt n, 31, 1⟩
def fTmKtStRefused (n : Nat) : Fld := ⟨rTmKtSt n, 30, 1⟩
def fTmKtStMissed (n : Nat) : Fld := ⟨rTmKtSt n, 0, 16⟩
/-- R328: `tm.ktAAA.lateness`. -/
abbrev rTmKtLateness (n : Nat) : Nat := 0x1C101C + 0x20 * n
def fTmKtLatenessLateness (n : Nat) : Fld := ⟨rTmKtLateness n, 0, 32⟩
/-- R329: `tm.status`. -/
abbrev rTmStatus : Nat := 0x1C3000
def fTmStatusKtLate : Fld := ⟨rTmStatus, 5, 1⟩
def fTmStatusTgLate : Fld := ⟨rTmStatus, 4, 1⟩
def fTmStatusTrgExt : Fld := ⟨rTmStatus, 3, 1⟩
def fTmStatusKtRefused : Fld := ⟨rTmStatus, 2, 1⟩
def fTmStatusRateRef : Fld := ⟨rTmStatus, 1, 1⟩
def fTmStatusStepRef : Fld := ⟨rTmStatus, 0, 1⟩
/-- R329: `tm.ien`. -/
abbrev rTmIen : Nat := 0x1C3004
def fTmIenIen : Fld := ⟨rTmIen, 0, 6⟩
/-- R329: `tm.kt.fired`. -/
abbrev rTmKtFired (n : Nat) : Nat := 0x1C3010 + 0x4 * n
def fTmKtFiredFired (n : Nat) : Fld := ⟨rTmKtFired n, 0, 32⟩
/-- R329: `tm.kt.late`. -/
abbrev rTmKtLate (n : Nat) : Nat := 0x1C3030 + 0x4 * n
def fTmKtLateLate (n : Nat) : Fld := ⟨rTmKtLate n, 0, 32⟩
/-- R360: `cas.pN.status`. -/
abbrev rCasPStatus (n : Nat) : Nat := 0x1D0000 + 0x100 * n
def fCasPStatusState (n : Nat) : Fld := ⟨rCasPStatus n, 29, 3⟩
def fCasPStatusPartner (n : Nat) : Fld := ⟨rCasPStatus n, 27, 2⟩
def fCasPStatusPartnerCmstr (n : Nat) : Fld := ⟨rCasPStatus n, 26, 1⟩
def fCasPStatusRetryLim (n : Nat) : Fld := ⟨rCasPStatus n, 8, 1⟩
def fCasPStatusTooLong (n : Nat) : Fld := ⟨rCasPStatus n, 7, 1⟩
def fCasPStatusWiring (n : Nat) : Fld := ⟨rCasPStatus n, 6, 1⟩
def fCasPStatusLost (n : Nat) : Fld := ⟨rCasPStatus n, 5, 1⟩
def fCasPStatusExpired (n : Nat) : Fld := ⟨rCasPStatus n, 4, 1⟩
def fCasPStatusCrc (n : Nat) : Fld := ⟨rCasPStatus n, 3, 1⟩
def fCasPStatusUnroutable (n : Nat) : Fld := ⟨rCasPStatus n, 2, 1⟩
def fCasPStatusUp (n : Nat) : Fld := ⟨rCasPStatus n, 1, 1⟩
/-- R360: `cas.pN.ien`. -/
abbrev rCasPIen (n : Nat) : Nat := 0x1D0004 + 0x100 * n
def fCasPIenIen (n : Nat) : Fld := ⟨rCasPIen n, 1, 8⟩
/-- R360: `cas.pN.delay`. -/
abbrev rCasPDelay (n : Nat) : Nat := 0x1D0008 + 0x100 * n
def fCasPDelayDelay (n : Nat) : Fld := ⟨rCasPDelay n, 0, 32⟩
/-- R360: `cas.pN.asym`. -/
abbrev rCasPAsym (n : Nat) : Nat := 0x1D000C + 0x100 * n
def fCasPAsymAsym (n : Nat) : Fld := ⟨rCasPAsym n, 0, 16⟩
/-- R360: `cas.pN.count`. -/
abbrev rCasPCount (n : Nat) : Nat := 0x1D0010 + 0x100 * n
def fCasPCountCrc (n : Nat) : Fld := ⟨rCasPCount n, 24, 8⟩
def fCasPCountNak (n : Nat) : Fld := ⟨rCasPCount n, 16, 8⟩
def fCasPCountTimeout (n : Nat) : Fld := ⟨rCasPCount n, 8, 8⟩
def fCasPCountLost (n : Nat) : Fld := ⟨rCasPCount n, 0, 8⟩
/-- R360: `cas.pN.count2`. -/
abbrev rCasPCount2 (n : Nat) : Nat := 0x1D0014 + 0x100 * n
def fCasPCount2TimeBad (n : Nat) : Fld := ⟨rCasPCount2 n, 16, 16⟩
def fCasPCount2Unroutable (n : Nat) : Fld := ⟨rCasPCount2 n, 0, 16⟩
/-- R361: `cas.enum`. -/
abbrev rCasEnum : Nat := 0x1D0300
def fCasEnumGo : Fld := ⟨rCasEnum, 31, 1⟩
def fCasEnumState : Fld := ⟨rCasEnum, 28, 3⟩
def fCasEnumCode : Fld := ⟨rCasEnum, 24, 4⟩
def fCasEnumDevices : Fld := ⟨rCasEnum, 14, 10⟩
def fCasEnumHops : Fld := ⟨rCasEnum, 8, 6⟩
def fCasEnumAutoEnum : Fld := ⟨rCasEnum, 7, 1⟩
/-- R361: `cas.path`. -/
abbrev rCasPath : Nat := 0x1D0304
def fCasPathPath : Fld := ⟨rCasPath, 0, 32⟩
/-- R361: `cas.range`. -/
abbrev rCasRange : Nat := 0x1D0308
def fCasRangeDn : Fld := ⟨rCasRange, 22, 10⟩
def fCasRangeBr : Fld := ⟨rCasRange, 12, 10⟩
/-- R361: `cas.status`. -/
abbrev rCasStatus : Nat := 0x1D0310
def fCasStatusLock : Fld := ⟨rCasStatus, 31, 1⟩
def fCasStatusStepped : Fld := ⟨rCasStatus, 30, 1⟩
def fCasStatusMasterStepped : Fld := ⟨rCasStatus, 29, 1⟩
def fCasStatusLockLost : Fld := ⟨rCasStatus, 6, 1⟩
def fCasStatusEnumFail : Fld := ⟨rCasStatus, 5, 1⟩
def fCasStatusEnumDone : Fld := ⟨rCasStatus, 4, 1⟩
def fCasStatusBrLate : Fld := ⟨rCasStatus, 3, 1⟩
def fCasStatusBrGap : Fld := ⟨rCasStatus, 2, 1⟩
def fCasStatusLandingMiss : Fld := ⟨rCasStatus, 1, 1⟩
def fCasStatusRqDone : Fld := ⟨rCasStatus, 0, 1⟩
/-- R361: `cas.ien`. -/
abbrev rCasIen : Nat := 0x1D0314
def fCasIenIen : Fld := ⟨rCasIen, 0, 7⟩
/-- R361: `cas.offset`. -/
abbrev rCasOffset : Nat := 0x1D0318
def fCasOffsetOffset : Fld := ⟨rCasOffset, 0, 32⟩
/-- R362: `cas.rq.ctl`. -/
abbrev rCasRqCtl : Nat := 0x1D0320
def fCasRqCtlGo : Fld := ⟨rCasRqCtl, 31, 1⟩
def fCasRqCtlBusy : Fld := ⟨rCasRqCtl, 30, 1⟩
def fCasRqCtlResult : Fld := ⟨rCasRqCtl, 27, 3⟩
def fCasRqCtlWrite : Fld := ⟨rCasRqCtl, 26, 1⟩
def fCasRqCtlBcast : Fld := ⟨rCasRqCtl, 25, 1⟩
def fCasRqCtlCount : Fld := ⟨rCasRqCtl, 21, 4⟩
def fCasRqCtlDev : Fld := ⟨rCasRqCtl, 0, 9⟩
/-- R362: `cas.rq.addr`. -/
abbrev rCasRqAddr : Nat := 0x1D0324
def fCasRqAddrAddr : Fld := ⟨rCasRqAddr, 0, 24⟩
/-- R362: `cas.rq.data`. -/
abbrev rCasRqData (n : Nat) : Nat := 0x1D0340 + 0x4 * n
def fCasRqDataData (n : Nat) : Fld := ⟨rCasRqData n, 0, 32⟩
/-- R362: `cas.bs.ctl`. -/
abbrev rCasBsCtl : Nat := 0x1D0380
def fCasBsCtlBcast : Fld := ⟨rCasBsCtl, 31, 1⟩
def fCasBsCtlFifoOver : Fld := ⟨rCasBsCtl, 30, 1⟩
def fCasBsCtlDev : Fld := ⟨rCasBsCtl, 0, 9⟩
/-- R362: `cas.bs.level`. -/
abbrev rCasBsLevel : Nat := 0x1D0384
def fCasBsLevelFree : Fld := ⟨rCasBsLevel, 0, 10⟩
/-- R362: `cas.bs.data`. -/
abbrev rCasBsData (n : Nat) : Nat := 0x1D0400 + 0x4 * n
def fCasBsDataData (n : Nat) : Fld := ⟨rCasBsData n, 0, 32⟩
/-- R363: `cas.bgBB.err`. -/
abbrev rCasBgErr (n : Nat) : Nat := 0x1D0800 + 0x8 * n
def fCasBgErrLate (n : Nat) : Fld := ⟨rCasBgErr n, 16, 16⟩
def fCasBgErrGap (n : Nat) : Fld := ⟨rCasBgErr n, 0, 16⟩
/-- R363: `cas.bgBB.frames`. -/
abbrev rCasBgFrames (n : Nat) : Nat := 0x1D0804 + 0x8 * n
def fCasBgFramesFrames (n : Nat) : Fld := ⟨rCasBgFrames n, 0, 32⟩
/-- R364: `cas.sum`. -/
abbrev rCasSum (n : Nat) : Nat := 0x1D0900 + 0x4 * n
def fCasSumSum (n : Nat) : Fld := ⟨rCasSum n, 0, 4⟩
/-- R392: `rad.ctl`. -/
abbrev rRadCtl : Nat := 0x1E0000
def fRadCtlAutoCal : Fld := ⟨rRadCtl, 2, 1⟩
def fRadCtlMode : Fld := ⟨rRadCtl, 0, 2⟩
/-- R392: `rad.status`. -/
abbrev rRadStatus : Nat := 0x1E0004
def fRadStatusState : Fld := ⟨rRadStatus, 28, 4⟩
def fRadStatusWakeHit : Fld := ⟨rRadStatus, 10, 1⟩
def fRadStatusSfMissed : Fld := ⟨rRadStatus, 9, 1⟩
def fRadStatusNodeLost : Fld := ⟨rRadStatus, 8, 1⟩
def fRadStatusJoinUnknown : Fld := ⟨rRadStatus, 7, 1⟩
def fRadStatusRxDone : Fld := ⟨rRadStatus, 6, 1⟩
def fRadStatusCalDone : Fld := ⟨rRadStatus, 5, 1⟩
def fRadStatusCalForced : Fld := ⟨rRadStatus, 4, 1⟩
def fRadStatusCmdRefused : Fld := ⟨rRadStatus, 3, 1⟩
def fRadStatusTxLate : Fld := ⟨rRadStatus, 2, 1⟩
def fRadStatusTxAbort : Fld := ⟨rRadStatus, 1, 1⟩
def fRadStatusBusy : Fld := ⟨rRadStatus, 0, 1⟩
/-- R392: `rad.ien`. -/
abbrev rRadIen : Nat := 0x1E0008
def fRadIenIen : Fld := ⟨rRadIen, 1, 10⟩
/-- R392: `rad.cmd`. -/
abbrev rRadCmd : Nat := 0x1E000C
def fRadCmdGo : Fld := ⟨rRadCmd, 31, 1⟩
def fRadCmdOp : Fld := ⟨rRadCmd, 28, 3⟩
def fRadCmdTimed : Fld := ⟨rRadCmd, 27, 1⟩
def fRadCmdMode : Fld := ⟨rRadCmd, 26, 1⟩
def fRadCmdChan : Fld := ⟨rRadCmd, 21, 5⟩
def fRadCmdPower : Fld := ⟨rRadCmd, 16, 5⟩
def fRadCmdStep : Fld := ⟨rRadCmd, 12, 4⟩
/-- R392: `rad.cmd_t`. -/
abbrev rRadCmdT (n : Nat) : Nat := 0x1E0010 + 0x4 * n
def fRadCmdTT (n : Nat) : Fld := ⟨rRadCmdT n, 0, 32⟩
/-- R392: `rad.tx_len`. -/
abbrev rRadTxLen : Nat := 0x1E001C
def fRadTxLenTxLen : Fld := ⟨rRadTxLen, 0, 8⟩
/-- R392: `rad.abort`. -/
abbrev rRadAbort : Nat := 0x1E0020
def fRadAbortReason : Fld := ⟨rRadAbort, 28, 4⟩
def fRadAbortCount : Fld := ⟨rRadAbort, 0, 16⟩
/-- R392: `rad.late`. -/
abbrev rRadLate : Nat := 0x1E0024
def fRadLateLate : Fld := ⟨rRadLate, 0, 32⟩
/-- R392: `rad.rxinfo`. -/
abbrev rRadRxinfo : Nat := 0x1E0028
def fRadRxinfoCrcOk : Fld := ⟨rRadRxinfo, 31, 1⟩
def fRadRxinfoMode : Fld := ⟨rRadRxinfo, 30, 1⟩
def fRadRxinfoChan : Fld := ⟨rRadRxinfo, 25, 5⟩
def fRadRxinfoLqi : Fld := ⟨rRadRxinfo, 17, 8⟩
def fRadRxinfoRssi : Fld := ⟨rRadRxinfo, 9, 8⟩
def fRadRxinfoLen : Fld := ⟨rRadRxinfo, 0, 8⟩
/-- R392: `rad.rxt`. -/
abbrev rRadRxt (n : Nat) : Nat := 0x1E002C + 0x4 * n
def fRadRxtT (n : Nat) : Fld := ⟨rRadRxt n, 0, 32⟩
/-- R392: `rad.temp`. -/
abbrev rRadTemp : Nat := 0x1E0038
def fRadTempTemp : Fld := ⟨rRadTemp, 24, 8⟩
/-- R392: `rad.cal`. -/
abbrev rRadCal : Nat := 0x1E003C
def fRadCalDue : Fld := ⟨rRadCal, 16, 16⟩
def fRadCalDueIf : Fld := ⟨rRadCal, 12, 4⟩
/-- R392: `rad.calst`. -/
abbrev rRadCalst : Nat := 0x1E0040
def fRadCalstStale : Fld := ⟨rRadCalst, 16, 16⟩
/-- R392: `rad.sf`. -/
abbrev rRadSf : Nat := 0x1E0044
def fRadSfSf : Fld := ⟨rRadSf, 0, 32⟩
/-- R392: `rad.sfcnt`. -/
abbrev rRadSfcnt : Nat := 0x1E0048
def fRadSfcntMissed : Fld := ⟨rRadSfcnt, 16, 16⟩
def fRadSfcntCal : Fld := ⟨rRadSfcnt, 0, 16⟩
/-- R392: `rad.pwr`. -/
abbrev rRadPwr : Nat := 0x1E004C
def fRadPwrComp : Fld := ⟨rRadPwr, 0, 8⟩
/-- R392: `rad.join`. -/
abbrev rRadJoin : Nat := 0x1E0050
def fRadJoinUnknown : Fld := ⟨rRadJoin, 16, 16⟩
def fRadJoinRejoin : Fld := ⟨rRadJoin, 0, 16⟩
/-- R392: `rad.join_id`. -/
abbrev rRadJoinId : Nat := 0x1E0054
def fRadJoinIdJoinId : Fld := ⟨rRadJoinId, 0, 32⟩
/-- R392: `rad.txbuf`. -/
abbrev rRadTxbuf (n : Nat) : Nat := 0x1E0100 + 0x4 * n
def fRadTxbufTxbuf (n : Nat) : Fld := ⟨rRadTxbuf n, 0, 32⟩
/-- R392: `rad.rxbuf`. -/
abbrev rRadRxbuf (n : Nat) : Nat := 0x1E0200 + 0x4 * n
def fRadRxbufRxbuf (n : Nat) : Fld := ⟨rRadRxbuf n, 0, 32⟩
/-- R393: `rad.nNN.st`. -/
abbrev rRadNSt (n : Nat) : Nat := 0x1E1080 + 0x80 * n
def fRadNStState (n : Nat) : Fld := ⟨rRadNSt n, 30, 2⟩
def fRadNStSeq (n : Nat) : Fld := ⟨rRadNSt n, 22, 8⟩
def fRadNStRssi (n : Nat) : Fld := ⟨rRadNSt n, 14, 8⟩
/-- R393: `rad.nNN.cnt`. -/
abbrev rRadNCnt (n : Nat) : Nat := 0x1E1084 + 0x80 * n
def fRadNCntCrc (n : Nat) : Fld := ⟨rRadNCnt n, 24, 8⟩
def fRadNCntDup (n : Nat) : Fld := ⟨rRadNCnt n, 16, 8⟩
def fRadNCntSeqGap (n : Nat) : Fld := ⟨rRadNCnt n, 8, 8⟩
def fRadNCntRxCut (n : Nat) : Fld := ⟨rRadNCnt n, 0, 8⟩
/-- R393: `rad.nNN.cnt2`. -/
abbrev rRadNCnt2 (n : Nat) : Nat := 0x1E1088 + 0x80 * n
def fRadNCnt2Frames (n : Nat) : Fld := ⟨rRadNCnt2 n, 16, 16⟩
def fRadNCnt2Late (n : Nat) : Fld := ⟨rRadNCnt2 n, 8, 8⟩
def fRadNCnt2Gap (n : Nat) : Fld := ⟨rRadNCnt2 n, 0, 8⟩
/-- R393: `rad.nNN.dctl`. -/
abbrev rRadNDctl (n : Nat) : Nat := 0x1E108C + 0x80 * n
def fRadNDctlReady (n : Nat) : Fld := ⟨rRadNDctl n, 31, 1⟩
def fRadNDctlSent (n : Nat) : Fld := ⟨rRadNDctl n, 30, 1⟩
def fRadNDctlNoSlot (n : Nat) : Fld := ⟨rRadNDctl n, 29, 1⟩
def fRadNDctlLen (n : Nat) : Fld := ⟨rRadNDctl n, 0, 7⟩
/-- R393: `rad.nNN.id`. -/
abbrev rRadNId (n : Nat) : Nat := 0x1E1090 + 0x80 * n
def fRadNIdId (n : Nat) : Fld := ⟨rRadNId n, 0, 32⟩
/-- R393: `rad.nNN.dtx`. -/
abbrev rRadNDtx (n : Nat) (k : Nat) : Nat := 0x1E10C0 + 0x80 * n + 0x4 * k
def fRadNDtxDtx (n : Nat) (k : Nat) : Fld := ⟨rRadNDtx n k, 0, 32⟩
/-- R394: `rad.wake`. -/
abbrev rRadWake : Nat := 0x1E3000
def fRadWakeEn : Fld := ⟨rRadWake, 31, 1⟩
def fRadWakeBcastOk : Fld := ⟨rRadWake, 30, 1⟩
def fRadWakeAddr : Fld := ⟨rRadWake, 0, 16⟩
/-- R394: `rad.wake.cnt`. -/
abbrev rRadWakeCnt : Nat := 0x1E3004
def fRadWakeCntHits : Fld := ⟨rRadWakeCnt, 16, 16⟩
def fRadWakeCntCrcBad : Fld := ⟨rRadWakeCnt, 8, 8⟩
def fRadWakeCntCmdBad : Fld := ⟨rRadWakeCnt, 0, 8⟩
/-- R394: `rad.sum`. -/
abbrev rRadSum (n : Nat) : Nat := 0x1E3100 + 0x4 * n
def fRadSumSum (n : Nat) : Fld := ⟨rRadSum n, 0, 1⟩
/-- R480: `hlt.lc`. -/
abbrev rHltLc : Nat := 0x1F0000
def fHltLcState : Fld := ⟨rHltLc, 29, 3⟩
def fHltLcValid : Fld := ⟨rHltLc, 28, 1⟩
/-- R480: `hlt.status`. -/
abbrev rHltStatus : Nat := 0x1F0004
def fHltStatusBudget : Fld := ⟨rHltStatus, 8, 1⟩
def fHltStatusMarginLow : Fld := ⟨rHltStatus, 7, 1⟩
def fHltStatusRefDrift : Fld := ⟨rHltStatus, 6, 1⟩
def fHltStatusStFail : Fld := ⟨rHltStatus, 5, 1⟩
def fHltStatusEyeLow : Fld := ⟨rHltStatus, 4, 1⟩
def fHltStatusStDone : Fld := ⟨rHltStatus, 3, 1⟩
def fHltStatusStBusy : Fld := ⟨rHltStatus, 2, 1⟩
def fHltStatusLedger : Fld := ⟨rHltStatus, 1, 1⟩
/-- R480: `hlt.ien`. -/
abbrev rHltIen : Nat := 0x1F0008
def fHltIenIen : Fld := ⟨rHltIen, 1, 8⟩
/-- R481: `hlt.st.ctl`. -/
abbrev rHltStCtl : Nat := 0x1F0010
def fHltStCtlGo : Fld := ⟨rHltStCtl, 31, 1⟩
def fHltStCtlAbort : Fld := ⟨rHltStCtl, 30, 1⟩
def fHltStCtlAlg : Fld := ⟨rHltStCtl, 8, 3⟩
def fHltStCtlGroup : Fld := ⟨rHltStCtl, 0, 4⟩
/-- R482: `hlt.stG.done`. -/
abbrev rHltStDone (n : Nat) : Nat := 0x1F0100 + 0x20 * n
def fHltStDoneDone (n : Nat) : Fld := ⟨rHltStDone n, 0, 32⟩
/-- R482: `hlt.stG.dur`. -/
abbrev rHltStDur (n : Nat) : Nat := 0x1F0104 + 0x20 * n
def fHltStDurDur (n : Nat) : Fld := ⟨rHltStDur n, 0, 32⟩
/-- R482: `hlt.stG.fail`. -/
abbrev rHltStFail (n : Nat) : Nat := 0x1F0108 + 0x20 * n
def fHltStFailFail (n : Nat) : Fld := ⟨rHltStFail n, 0, 32⟩
/-- R482: `hlt.stG.tested`. -/
abbrev rHltStTested (n : Nat) : Nat := 0x1F010C + 0x20 * n
def fHltStTestedTested (n : Nat) : Fld := ⟨rHltStTested n, 0, 32⟩
/-- R482: `hlt.stG.skipped`. -/
abbrev rHltStSkipped (n : Nat) : Nat := 0x1F0110 + 0x20 * n
def fHltStSkippedSkipped (n : Nat) : Fld := ⟨rHltStSkipped n, 0, 32⟩
/-- R483: `hlt.monII`. -/
abbrev rHltMon (n : Nat) : Nat := 0x1F1000 + 0x4 * n
def fHltMonNow (n : Nat) : Fld := ⟨rHltMon n, 8, 8⟩
def fHltMonMin (n : Nat) : Fld := ⟨rHltMon n, 0, 8⟩
/-- R484: `hlt.plan`. -/
abbrev rHltPlan : Nat := 0x1F1100
def fHltPlanVddc : Fld := ⟨rHltPlan, 28, 4⟩
def fHltPlanScale : Fld := ⟨rHltPlan, 25, 3⟩
def fHltPlanMonth : Fld := ⟨rHltPlan, 0, 16⟩
/-- R484: `hlt.plan.ctl`. -/
abbrev rHltPlanCtl : Nat := 0x1F1104
def fHltPlanCtlFreeze : Fld := ⟨rHltPlanCtl, 0, 1⟩
/-- R484: `hlt.ref`. -/
abbrev rHltRef : Nat := 0x1F1108
def fHltRefDrift : Fld := ⟨rHltRef, 16, 16⟩
def fHltRefRefclk : Fld := ⟨rHltRef, 0, 16⟩
/-- R484: `hlt.xtal`. -/
abbrev rHltXtal : Nat := 0x1F110C
def fHltXtalDrift : Fld := ⟨rHltXtal, 16, 16⟩
/-- R484: `hlt.eye`. -/
abbrev rHltEye : Nat := 0x1F1110
def fHltEyeUp : Fld := ⟨rHltEye, 16, 8⟩
def fHltEyeDn : Fld := ⟨rHltEye, 8, 8⟩
def fHltEyeBr : Fld := ⟨rHltEye, 0, 8⟩
/-- R484: `hlt.plan.cnt`. -/
abbrev rHltPlanCnt : Nat := 0x1F1114
def fHltPlanCntDeferred : Fld := ⟨rHltPlanCnt, 16, 16⟩
def fHltPlanCntStarted : Fld := ⟨rHltPlanCnt, 0, 16⟩
/-- R456: `hlt.flt.status`. -/
abbrev rHltFltStatus : Nat := 0x1F8000
def fHltFltStatusCfgUpset : Fld := ⟨rHltFltStatus, 6, 1⟩
def fHltFltStatusEscalated : Fld := ⟨rHltFltStatus, 5, 1⟩
def fHltFltStatusRecTimeout : Fld := ⟨rHltFltStatus, 4, 1⟩
def fHltFltStatusAlarmPend : Fld := ⟨rHltFltStatus, 3, 1⟩
def fHltFltStatusSuppressed : Fld := ⟨rHltFltStatus, 2, 1⟩
def fHltFltStatusRecDone : Fld := ⟨rHltFltStatus, 1, 1⟩
def fHltFltStatusBusy : Fld := ⟨rHltFltStatus, 0, 1⟩
/-- R456: `hlt.flt.ien`. -/
abbrev rHltFltIen : Nat := 0x1F8004
def fHltFltIenIen : Fld := ⟨rHltFltIen, 1, 6⟩
/-- R456: `hlt.flt.last`. -/
abbrev rHltFltLast : Nat := 0x1F8008
def fHltFltLastCode : Fld := ⟨rHltFltLast, 24, 8⟩
def fHltFltLastScope : Fld := ⟨rHltFltLast, 20, 4⟩
def fHltFltLastUnit : Fld := ⟨rHltFltLast, 0, 16⟩
/-- R456: `hlt.flt.count`. -/
abbrev rHltFltCount : Nat := 0x1F800C
def fHltFltCountFaults : Fld := ⟨rHltFltCount, 16, 16⟩
def fHltFltCountRestarts : Fld := ⟨rHltFltCount, 8, 8⟩
def fHltFltCountEscalations : Fld := ⟨rHltFltCount, 0, 8⟩
/-- R456: `hlt.rec.active`. -/
abbrev rHltRecActive : Nat := 0x1F8010
def fHltRecActiveActive : Fld := ⟨rHltRecActive, 1, 9⟩
/-- R456: `hlt.rec.last`. -/
abbrev rHltRecLast : Nat := 0x1F8014
def fHltRecLastScope : Fld := ⟨rHltRecLast, 28, 4⟩
def fHltRecLastRestarts : Fld := ⟨rHltRecLast, 24, 4⟩
def fHltRecLastDur : Fld := ⟨rHltRecLast, 0, 24⟩
/-- R456: `hlt.cfg.chk`. -/
abbrev rHltCfgChk : Nat := 0x1F8018
def fHltCfgChkSection : Fld := ⟨rHltCfgChk, 24, 8⟩
def fHltCfgChkUnit : Fld := ⟨rHltCfgChk, 16, 8⟩
def fHltCfgChkPasses : Fld := ⟨rHltCfgChk, 0, 16⟩
/-- R457: `hlt.bkB`. -/
abbrev rHltBk (n : Nat) : Nat := 0x1F8020 + 0x4 * n
def fHltBkTokens (n : Nat) : Fld := ⟨rHltBk n, 16, 13⟩
def fHltBkCount (n : Nat) : Fld := ⟨rHltBk n, 0, 16⟩
/-- R457: `hlt.pendP`. -/
abbrev rHltPend (n : Nat) : Nat := 0x1F8040 + 0x4 * n
def fHltPendKeys (n : Nat) : Fld := ⟨rHltPend n, 16, 14⟩
def fHltPendSlots (n : Nat) : Fld := ⟨rHltPend n, 0, 14⟩
/-- R484: `hlt.sum`. -/
abbrev rHltSum (n : Nat) : Nat := 0x1F9000 + 0x4 * n
def fHltSumFlt (n : Nat) : Fld := ⟨rHltSum n, 1, 1⟩
def fHltSumSt (n : Nat) : Fld := ⟨rHltSum n, 0, 1⟩
/-- R433: `met.mb.cmd`. -/
abbrev rMetMbCmd : Nat := 0x800000
def fMetMbCmdGo : Fld := ⟨rMetMbCmd, 31, 1⟩
def fMetMbCmdBusy : Fld := ⟨rMetMbCmd, 30, 1⟩
def fMetMbCmdResult : Fld := ⟨rMetMbCmd, 20, 4⟩
def fMetMbCmdOp : Fld := ⟨rMetMbCmd, 0, 8⟩
/-- R433: `met.mb.arg`. -/
abbrev rMetMbArg (n : Nat) : Nat := 0x800004 + 0x4 * n
def fMetMbArgArg (n : Nat) : Fld := ⟨rMetMbArg n, 0, 32⟩
/-- R433: `met.mb.res`. -/
abbrev rMetMbRes (n : Nat) : Nat := 0x800028 + 0x4 * n
def fMetMbResRes (n : Nat) : Fld := ⟨rMetMbRes n, 0, 32⟩
/-- R433: `met.status`. -/
abbrev rMetStatus : Nat := 0x800030
def fMetStatusNetLimit : Fld := ⟨rMetStatus, 8, 1⟩
def fMetStatusDone : Fld := ⟨rMetStatus, 7, 1⟩
def fMetStatusEvLow : Fld := ⟨rMetStatus, 6, 1⟩
def fMetStatusEvFull : Fld := ⟨rMetStatus, 5, 1⟩
def fMetStatusSeamRef : Fld := ⟨rMetStatus, 4, 1⟩
def fMetStatusRotStop : Fld := ⟨rMetStatus, 3, 1⟩
def fMetStatusDigest : Fld := ⟨rMetStatus, 2, 1⟩
def fMetStatusUnconf : Fld := ⟨rMetStatus, 1, 1⟩
/-- R433: `met.ien`. -/
abbrev rMetIen : Nat := 0x800034
def fMetIenIen : Fld := ⟨rMetIen, 1, 8⟩
/-- R434: `met.lid`. -/
abbrev rMetLid : Nat := 0x800100
def fMetLidState : Fld := ⟨rMetLid, 29, 3⟩
def fMetLidConfigured : Fld := ⟨rMetLid, 28, 1⟩
def fMetLidMlid : Fld := ⟨rMetLid, 27, 1⟩
def fMetLidUsed : Fld := ⟨rMetLid, 26, 1⟩
/-- R434: `met.lid.audit`. -/
abbrev rMetLidAudit : Nat := 0x800104
def fMetLidAuditAudit : Fld := ⟨rMetLidAudit, 0, 24⟩
/-- R434: `met.lid.overflow`. -/
abbrev rMetLidOverflow : Nat := 0x800108
def fMetLidOverflowOverflow : Fld := ⟨rMetLidOverflow, 0, 32⟩
/-- R434: `met.lid.mpor`. -/
abbrev rMetLidMpor : Nat := 0x80010C
def fMetLidMporMpor : Fld := ⟨rMetLidMpor, 0, 32⟩
/-- R434: `met.lid.first`. -/
abbrev rMetLidFirst : Nat := 0x800110
def fMetLidFirstFirst : Fld := ⟨rMetLidFirst, 0, 32⟩
/-- R434: `met.lid.next`. -/
abbrev rMetLidNext : Nat := 0x800114
def fMetLidNextNext : Fld := ⟨rMetLidNext, 0, 32⟩
/-- R434: `met.lid.free`. -/
abbrev rMetLidFree : Nat := 0x800118
def fMetLidFreeFree : Fld := ⟨rMetLidFree, 0, 13⟩
/-- R434: `met.lid.sealed`. -/
abbrev rMetLidSealed (n : Nat) : Nat := 0x800120 + 0x4 * n
def fMetLidSealedSealed (n : Nat) : Fld := ⟨rMetLidSealed n, 0, 32⟩
/-- R434: `met.lid.head`. -/
abbrev rMetLidHead (n : Nat) : Nat := 0x800140 + 0x4 * n
def fMetLidHeadHead (n : Nat) : Fld := ⟨rMetLidHead n, 0, 32⟩
/-- R434: `met.lid.held`. -/
abbrev rMetLidHeld (n : Nat) : Nat := 0x800160 + 0x4 * n
def fMetLidHeldHeld (n : Nat) : Fld := ⟨rMetLidHeld n, 0, 32⟩
/-- R435: `met.chN.v`. -/
abbrev rMetChV (n : Nat) : Nat := 0x800200 + 0x10 * n
def fMetChVV (n : Nat) : Fld := ⟨rMetChV n, 0, 32⟩
/-- R435: `met.chN.st`. -/
abbrev rMetChSt (n : Nat) : Nat := 0x800204 + 0x10 * n
def fMetChStConv (n : Nat) : Fld := ⟨rMetChSt n, 8, 4⟩
def fMetChStBad (n : Nat) : Fld := ⟨rMetChSt n, 7, 1⟩
def fMetChStFlags (n : Nat) : Fld := ⟨rMetChSt n, 0, 7⟩
/-- R435: `met.chN.secs`. -/
abbrev rMetChSecs (n : Nat) : Nat := 0x800208 + 0x10 * n
def fMetChSecsSecs (n : Nat) : Fld := ⟨rMetChSecs n, 0, 32⟩
/-- R435: `met.chN.seam`. -/
abbrev rMetChSeam (n : Nat) : Nat := 0x80020C + 0x10 * n
def fMetChSeamSeam (n : Nat) : Fld := ⟨rMetChSeam n, 0, 32⟩
/-- R436: `met.rot`. -/
abbrev rMetRot : Nat := 0x800300
def fMetRotSpare : Fld := ⟨rMetRot, 28, 4⟩
def fMetRotChan : Fld := ⟨rMetRot, 24, 4⟩
def fMetRotCount : Fld := ⟨rMetRot, 0, 24⟩
/-- R436: `met.rot2`. -/
abbrev rMetRot2 : Nat := 0x800304
def fMetRot2Slips : Fld := ⟨rMetRot2, 16, 16⟩
def fMetRot2Refused : Fld := ⟨rMetRot2, 8, 8⟩
def fMetRot2Forced : Fld := ⟨rMetRot2, 0, 8⟩
/-- R436: `met.ev.rec`. -/
abbrev rMetEvRec (n : Nat) : Nat := 0x801000 + 0x4 * n
def fMetEvRecRec (n : Nat) : Fld := ⟨rMetEvRec n, 0, 32⟩
/-- R436: `met.ev.pos`. -/
abbrev rMetEvPos : Nat := 0x801040
def fMetEvPosValid : Fld := ⟨rMetEvPos, 31, 1⟩
/-- R436: `met.ev.dig`. -/
abbrev rMetEvDig (n : Nat) : Nat := 0x801044 + 0x4 * n
def fMetEvDigDig (n : Nat) : Fld := ⟨rMetEvDig n, 0, 32⟩

end Sys2Proof.Machine
end

