-- ==== Sys2Proof/Machine/Bits.lean ====
section
/-! DEFINITION. Bit fields of words, as numbers. Every field of a register, a cell, a stream word or a record is read and
written through these two operations. -/

namespace Sys2Proof.Machine
open Sys2Proof

/-- The field of `len` bits from bit `lo` of a word, as a number. -/
def fieldOf (w : Word) (lo len : Nat) : Nat := (w.extractLsb' lo len).toNat

/-- The word with the field of `len` bits from bit `lo` replaced by `v` (its low `len` bits). -/
def putField (w : Word) (lo len v : Nat) : Word :=
  (w &&& ~~~((BitVec.allOnes 32 >>> (32 - len)) <<< lo)) ||| (BitVec.ofNat 32 (v % 2 ^ len) <<< lo)

/-- One bit of a word. -/
def bitOf (w : Word) (i : Nat) : Bool := w.getLsbD i

/-- A Boolean as 0 or 1. -/
def b2n (b : Bool) : Nat := if b then 1 else 0

/-- The field of a number: `len` bits from bit `lo`. -/
def natField (n lo len : Nat) : Nat := n / 2 ^ lo % 2 ^ len

/-- The two's-complement value of the low `len` bits of a number. -/
def signedOf (n len : Nat) : Int :=
  let m := n % 2 ^ len
  if 2 * m < 2 ^ len then (m : Int) else (m : Int) - (2 ^ len : Nat)

/-- Two's complement of an integer in `len` bits. -/
def ofInt (v : Int) (len : Nat) : Nat := (v % (2 ^ len : Nat)).toNat

/-- A number kept at or below a field's all-ones value. -/
def satTo (len n : Nat) : Nat := if n < 2 ^ len then n else 2 ^ len - 1

/-- The four bytes of a word, least significant first (R21, R23). -/
def wordBytes (w : Word) : List Byte :=
  [w.extractLsb' 0 8, w.extractLsb' 8 8, w.extractLsb' 16 8, w.extractLsb' 24 8]

/-- A word as a number is cut to 32 bits. -/
def w32 (n : Nat) : Word := BitVec.ofNat 32 n

/-- One step of the reflected CRC-32 over one bit (R23). -/
def crc32Bit (c : BitVec 32) : BitVec 32 :=
  if c.getLsbD 0 then (c >>> 1) ^^^ 0xEDB88320#32 else c >>> 1

/-- CRC-32 register after one byte. -/
def crc32Byte (c : BitVec 32) (b : Byte) : BitVec 32 :=
  let c0 := c ^^^ b.setWidth 32
  crc32Bit (crc32Bit (crc32Bit (crc32Bit (crc32Bit (crc32Bit (crc32Bit (crc32Bit c0)))))))

/-- CRC-32 of bytes under R23: polynomial 0x04C1_1DB7, reflected, initial value and final XOR all ones. -/
def crc32 (bs : List Byte) : BitVec 32 := ~~~(bs.foldl crc32Byte 0xFFFFFFFF#32)

/-- CRC-32 over words, each least significant byte first. -/
def crc32Words (ws : List Word) : BitVec 32 :=
  ~~~(ws.foldl (fun c w => (wordBytes w).foldl crc32Byte c) 0xFFFFFFFF#32)

/-- One step of the reflected CRC-16 of the IEEE 802.15.4 FCS over one bit (PRESUMED, log entry 114). -/
def fcsBit (c : BitVec 16) : BitVec 16 := if c.getLsbD 0 then (c >>> 1) ^^^ 0x8408#16 else c >>> 1

/-- The 16-bit FCS of IEEE 802.15.4 over octets (R370; PRESUMED, log entry 114). -/
def fcs16 (bs : List Byte) : BitVec 16 :=
  bs.foldl (fun c b => fcsBit (fcsBit (fcsBit (fcsBit (fcsBit (fcsBit (fcsBit (fcsBit (c ^^^ b.setWidth 16))))))))) 0#16

/-- CRC-16 of R63 over one bit at the top. -/
def crc16Bit (poly c : BitVec 16) : BitVec 16 :=
  if c.getLsbD 15 then (c <<< 1) ^^^ poly else c <<< 1

/-- CRC-16 register after one byte, most significant bit first. -/
def crc16Byte (poly c : BitVec 16) (b : Byte) : BitVec 16 :=
  let c0 := c ^^^ (b.setWidth 16 <<< 8)
  let f := crc16Bit poly
  f (f (f (f (f (f (f (f c0)))))))

/-- CRC-16 of R63: polynomial 0x1021, initial value 0xFFFF, no reflection, no final XOR. -/
def crc16 (bs : List Byte) : BitVec 16 := bs.foldl (crc16Byte 0x1021#16) 0xFFFF#16

/-- CRC-8 over bits in the order they travel, with the polynomial and initial value given (R101). -/
def crc8 (poly init : BitVec 8) (bits : List Bool) : BitVec 8 :=
  bits.foldl (fun c b => if (c.getLsbD 7 != b) then (c <<< 1) ^^^ poly else c <<< 1) init

/-- The bits of a number, most significant first. -/
def msbBits (n len : Nat) : List Bool := (List.range len).map (fun i => (n / 2 ^ (len - 1 - i)) % 2 == 1)

/-- The number spelled by bits, most significant first. -/
def ofMsb (bs : List Bool) : Nat := bs.foldl (fun a b => 2 * a + b2n b) 0

/-- A list without repeats, first occurrences kept. -/
def dedup (l : List Nat) : List Nat := l.foldl (fun a x => if a.contains x then a else a ++ [x]) []

end Sys2Proof.Machine
end

