-- ==== Sys2Proof/Machine/RegTable.lean ====
section
/-! DEFINITION. The register map of the hub, one row per register of the register tables of spec/01 to spec/18: the
first address, the strides and counts of its copies, its reset scope and its fields. A field's reset number is the
number the spec gives; where the spec gives the configuration, a pin, a measurement or another register instead, the row
holds 0 and the operation that seeds or derives the field says so. -/

namespace Sys2Proof.Machine
open Sys2Proof

/-- Registers at 0x00_xxxx (R1 to R85). -/
def regRows00 : List RegRow := [
  -- R1 glb.caps
  ⟨0x000000, 0, 1, 0, 1, [⟨30, 2, .ro, 1, .fixed⟩, ⟨22, 8, .ro, 0, .fixed⟩, ⟨16, 6, .ro, 0, .fixed⟩, ⟨13, 3, .ro, 0, .fixed⟩, ⟨6, 7, .ro, 0, .fixed⟩, ⟨5, 1, .ro, 0, .fixed⟩, ⟨4, 1, .ro, 0, .fixed⟩, ⟨3, 1, .ro, 0, .fixed⟩, ⟨2, 1, .ro, 0, .fixed⟩, ⟨1, 1, .ro, 0, .fixed⟩]⟩,
  -- R80 glb.status
  ⟨0x000004, 0, 1, 0, 1, [⟨28, 4, .ro, 0, .por⟩, ⟨25, 3, .ro, 0, .por⟩, ⟨24, 1, .ro, 0, .link⟩, ⟨23, 1, .ro, 0, .link⟩, ⟨14, 9, .ro, 0, .link⟩, ⟨13, 1, .ro, 0, .device⟩, ⟨8, 4, .ro, 9, .por⟩]⟩,
  -- R81 glb.commit
  ⟨0x000008, 0, 1, 0, 1, [⟨31, 1, .w1s, 0, .device⟩, ⟨30, 1, .w1s, 0, .device⟩, ⟨0, 7, .rw, 0, .device⟩]⟩,
  -- R81 glb.reset
  ⟨0x00000C, 0, 1, 0, 1, [⟨31, 1, .w1s, 0, .por⟩, ⟨30, 1, .ro, 0, .por⟩, ⟨29, 1, .w1c, 0, .por⟩, ⟨16, 4, .rw, 0, .por⟩, ⟨0, 9, .rw, 0, .por⟩]⟩,
  -- R82 glb.tag
  ⟨0x000010, 0, 1, 0, 1, [⟨0, 32, .rw, 0, .device⟩]⟩,
  -- R83 glb.irq0_en
  ⟨0x000020, 0, 1, 0, 1, [⟨0, 15, .rw, 0, .device⟩]⟩,
  -- R83 glb.irq0_stat
  ⟨0x000024, 0, 1, 0, 1, [⟨0, 15, .ro, 0, .por⟩]⟩,
  -- R83 glb.irq1_en
  ⟨0x000028, 0, 1, 0, 1, [⟨0, 15, .rw, 16383, .por⟩]⟩,
  -- R83 glb.irq1_stat
  ⟨0x00002C, 0, 1, 0, 1, [⟨0, 15, .ro, 0, .por⟩]⟩,
  -- R84 glb.wake
  ⟨0x000030, 0, 1, 0, 1, [⟨8, 3, .rw, 6, .por⟩, ⟨0, 3, .w1c, 0, .por⟩]⟩,
  -- R85 hst.cfg
  ⟨0x000100, 0, 1, 0, 1, [⟨1, 1, .rw, 0, .por⟩, ⟨0, 1, .rw, 0, .por⟩]⟩,
  -- R85 hst.status
  ⟨0x000104, 0, 1, 0, 1, [⟨14, 1, .w1c, 0, .por⟩, ⟨13, 1, .w1c, 0, .por⟩, ⟨12, 1, .w1c, 0, .por⟩, ⟨11, 1, .w1c, 0, .por⟩, ⟨10, 1, .w1c, 0, .por⟩, ⟨9, 1, .w1c, 0, .por⟩, ⟨8, 1, .w1c, 0, .por⟩, ⟨7, 1, .w1c, 0, .por⟩, ⟨6, 1, .w1c, 0, .por⟩, ⟨5, 1, .w1c, 0, .por⟩, ⟨4, 1, .w1c, 0, .por⟩, ⟨3, 1, .w1c, 0, .por⟩, ⟨2, 1, .w1c, 0, .por⟩, ⟨1, 1, .w1c, 0, .por⟩]⟩,
  -- R85 hst.last
  ⟨0x000108, 0, 1, 0, 1, [⟨0, 24, .ro, 0, .por⟩]⟩,
  -- R85 hst.count
  ⟨0x00010C, 0, 1, 0, 1, [⟨16, 16, .rc, 0, .por⟩, ⟨0, 16, .rc, 0, .por⟩]⟩]

/-- Registers at 0x01_xxxx (R17 to R512). -/
def regRows01 : List RegRow := [
  -- R17 clk.status
  ⟨0x010000, 0, 1, 0, 1, [⟨14, 2, .ro, 0, .por⟩, ⟨13, 1, .ro, 0, .por⟩, ⟨11, 2, .ro, 0, .device⟩, ⟨10, 1, .ro, 0, .por⟩, ⟨9, 1, .ro, 0, .radio⟩, ⟨8, 1, .ro, 0, .por⟩, ⟨7, 1, .ro, 0, .por⟩, ⟨6, 1, .ro, 0, .por⟩, ⟨5, 1, .ro, 0, .por⟩, ⟨4, 1, .ro, 0, .por⟩, ⟨3, 1, .w1c, 0, .device⟩, ⟨2, 1, .w1c, 0, .por⟩, ⟨1, 1, .w1c, 0, .por⟩]⟩,
  -- R18 clk.boot_div
  ⟨0x010004, 0, 1, 0, 1, [⟨0, 6, .rw, 32, .por⟩]⟩,
  -- R510 clk.sup.now
  ⟨0x010100, 0, 1, 0, 1, [⟨31, 1, .ro, 0, .por⟩, ⟨16, 12, .ro, 0, .por⟩, ⟨0, 12, .ro, 0, .por⟩]⟩,
  -- R510 clk.sup.dip
  ⟨0x010104, 0, 1, 0, 1, [⟨13, 1, .w1c, 0, .por⟩, ⟨12, 1, .w1c, 0, .por⟩, ⟨0, 12, .w1c, 0, .por⟩]⟩,
  -- R510 clk.sup.ien
  ⟨0x010108, 0, 1, 0, 1, [⟨0, 14, .rw, 4096, .por⟩]⟩,
  -- R511 clk.sup.last
  ⟨0x01010C, 0, 1, 0, 1, [⟨28, 4, .ro, 0, .por⟩, ⟨26, 2, .ro, 0, .por⟩, ⟨0, 26, .ro, 0, .por⟩]⟩,
  -- R511 clk.sup.min
  ⟨0x010110, 0, 1, 0, 1, [⟨16, 16, .rc, 0, .por⟩, ⟨0, 16, .ro, 0, .por⟩]⟩,
  -- R511 clk.sup.bank
  ⟨0x010114, 0, 1, 0, 1, [⟨0, 5, .ro, 0, .por⟩]⟩,
  -- R511 clk.sup.cause
  ⟨0x010118, 0, 1, 0, 1, [⟨0, 4, .ro, 0, .kept⟩]⟩,
  -- R512 clk.sleep
  ⟨0x010120, 0, 1, 0, 1, [⟨31, 1, .w1s, 0, .por⟩, ⟨30, 1, .w1c, 0, .por⟩, ⟨26, 4, .ro, 0, .por⟩, ⟨0, 4, .ro, 0, .por⟩]⟩]

/-- Registers at 0x02_xxxx (R50 to R59). -/
def regRows02 : List RegRow := [
  -- R50 ldr.ctl
  ⟨0x020000, 0, 1, 0, 1, [⟨2, 1, .rw, 0, .por⟩, ⟨1, 1, .rw, 0, .device⟩, ⟨0, 1, .w1s, 0, .device⟩]⟩,
  -- R51 ldr.status
  ⟨0x020004, 0, 1, 0, 1, [⟨28, 4, .ro, 0, .device⟩, ⟨26, 2, .ro, 0, .device⟩, ⟨25, 1, .ro, 0, .device⟩, ⟨24, 1, .w1c, 0, .device⟩, ⟨23, 1, .w1c, 0, .device⟩, ⟨22, 1, .w1c, 0, .device⟩, ⟨21, 1, .w1c, 0, .device⟩, ⟨20, 1, .w1c, 0, .device⟩, ⟨19, 1, .w1c, 0, .device⟩, ⟨0, 16, .ro, 0, .device⟩]⟩,
  -- R52 ldr.reject
  ⟨0x020008, 0, 1, 0, 1, [⟨24, 8, .ro, 0, .device⟩, ⟨16, 8, .ro, 0, .device⟩, ⟨0, 16, .ro, 0, .device⟩]⟩,
  -- R53 ldr.level
  ⟨0x02000C, 0, 1, 0, 1, [⟨16, 16, .ro, 0, .device⟩, ⟨0, 10, .ro, 528, .device⟩]⟩,
  -- R54 ldr.commit
  ⟨0x020010, 0, 1, 0, 1, [⟨31, 1, .w1s, 0, .device⟩, ⟨30, 1, .w1s, 0, .device⟩, ⟨0, 7, .rw, 0, .device⟩]⟩,
  -- R55 ldr.pending
  ⟨0x020014, 0, 1, 0, 1, [⟨1, 15, .ro, 0, .device⟩]⟩,
  -- R56 ldr.metro
  ⟨0x020018, 0, 1, 0, 1, [⟨28, 4, .ro, 0, .device⟩]⟩,
  -- R57 ldr.count
  ⟨0x02001C, 0, 1, 0, 1, [⟨24, 8, .rc, 0, .device⟩, ⟨16, 8, .rc, 0, .device⟩, ⟨0, 16, .rc, 0, .device⟩]⟩,
  -- R58 ldr.boot
  ⟨0x020020, 0, 1, 0, 1, [⟨24, 8, .ro, 0, .device⟩, ⟨16, 8, .ro, 0, .device⟩, ⟨2, 2, .ro, 0, .por⟩, ⟨0, 2, .ro, 0, .device⟩]⟩,
  -- R58 ldr.build
  ⟨0x020024, 4, 2, 0, 1, [⟨0, 32, .ro, 0, .device⟩]⟩,
  -- R60 ldr.ien
  ⟨0x02002C, 0, 1, 0, 1, [⟨19, 6, .rw, 10, .device⟩]⟩,
  -- R59 ldr.data
  ⟨0x020400, 4, 256, 0, 1, [⟨0, 32, .wo, 0, .device⟩]⟩]

/-- Registers at 0x04_xxxx (R113 to R118). -/
def regRows04 : List RegRow := [
  -- R113 sp.pNN.ctl
  ⟨0x040000, 2048, 24, 0, 1, [⟨2, 2, .rw, 0, .port⟩, ⟨1, 1, .staged, 0, .port⟩, ⟨0, 1, .rw, 1, .port⟩]⟩,
  -- R114 sp.pNN.div
  ⟨0x040004, 2048, 24, 0, 1, [⟨0, 16, .staged, 0, .port⟩]⟩,
  -- R115 sp.pNN.status
  ⟨0x040008, 2048, 24, 0, 1, [⟨12, 1, .w1c, 0, .port⟩, ⟨11, 1, .w1c, 0, .port⟩, ⟨10, 1, .w1c, 0, .port⟩, ⟨9, 1, .w1c, 0, .port⟩, ⟨8, 1, .w1c, 0, .port⟩, ⟨7, 1, .w1c, 0, .port⟩, ⟨6, 1, .w1c, 0, .port⟩, ⟨5, 1, .w1c, 0, .port⟩, ⟨4, 1, .w1c, 0, .port⟩, ⟨3, 1, .w1c, 0, .port⟩, ⟨2, 1, .w1c, 0, .port⟩, ⟨1, 1, .w1c, 0, .port⟩, ⟨0, 1, .ro, 0, .port⟩]⟩,
  -- R115 sp.pNN.ien
  ⟨0x04000C, 2048, 24, 0, 1, [⟨1, 12, .rw, 2030, .port⟩]⟩,
  -- R116 sp.pNN.frames
  ⟨0x040010, 2048, 24, 0, 1, [⟨0, 32, .ro, 0, .port⟩]⟩,
  -- R116 sp.pNN.err
  ⟨0x040014, 2048, 24, 0, 1, [⟨24, 8, .rc, 0, .port⟩, ⟨16, 8, .rc, 0, .port⟩, ⟨8, 8, .rc, 0, .port⟩, ⟨0, 8, .rc, 0, .port⟩]⟩,
  -- R116 sp.pNN.lost
  ⟨0x040018, 2048, 24, 0, 1, [⟨16, 16, .rc, 0, .port⟩, ⟨8, 8, .rc, 0, .port⟩, ⟨0, 8, .rc, 0, .port⟩]⟩,
  -- R116 sp.pNN.late
  ⟨0x04001C, 2048, 24, 0, 1, [⟨16, 16, .rc, 0, .port⟩, ⟨0, 16, .ro, 0, .port⟩]⟩,
  -- R117 sp.pNN.tap
  ⟨0x040020, 2048, 24, 0, 1, [⟨31, 1, .ro, 0, .port⟩, ⟨24, 6, .rw, 0, .port⟩, ⟨16, 6, .rw, 0, .port⟩, ⟨8, 6, .rw, 0, .port⟩, ⟨0, 6, .rw, 0, .port⟩]⟩,
  -- R117 sp.pNN.eye
  ⟨0x040024, 2048, 24, 0, 1, [⟨24, 6, .ro, 0, .port⟩, ⟨16, 6, .ro, 0, .port⟩, ⟨8, 6, .ro, 0, .port⟩, ⟨0, 6, .ro, 0, .port⟩]⟩,
  -- R117 sp.pNN.plan
  ⟨0x040028, 2048, 24, 0, 1, [⟨31, 1, .w1s, 0, .port⟩, ⟨8, 3, .ro, 0, .port⟩, ⟨0, 8, .ro, 0, .port⟩]⟩,
  -- R118 sp.pNN.stamp0
  ⟨0x040030, 2048, 24, 0, 1, [⟨0, 32, .ro, 0, .port⟩]⟩,
  -- R118 sp.pNN.stamp1
  ⟨0x040034, 2048, 24, 0, 1, [⟨0, 32, .ro, 0, .port⟩]⟩,
  -- R118 sp.pNN.stamp2
  ⟨0x040038, 2048, 24, 0, 1, [⟨0, 32, .ro, 0, .port⟩]⟩,
  -- R118 sp.pNN.stamp3
  ⟨0x04003C, 2048, 24, 0, 1, [⟨16, 16, .ro, 0, .port⟩, ⟨2, 1, .ro, 0, .port⟩, ⟨1, 1, .ro, 0, .port⟩, ⟨0, 1, .ro, 0, .port⟩]⟩]

/-- Registers at 0x05_xxxx (R119 to R119). -/
def regRows05 : List RegRow := [
  -- R119 sp.sum
  ⟨0x050000, 4, 2, 0, 1, [⟨0, 24, .ro, 0, .fabric⟩]⟩]

/-- Registers at 0x06_xxxx (R139 to R144). -/
def regRows06 : List RegRow := [
  -- R139 tw.cN.ctl
  ⟨0x060000, 1024, 8, 0, 1, [⟨4, 1, .rw, 0, .port⟩, ⟨3, 1, .w1s, 0, .port⟩, ⟨1, 2, .ro, 0, .port⟩, ⟨0, 1, .rw, 0, .port⟩]⟩,
  -- R140 tw.cN.status
  ⟨0x060004, 1024, 8, 0, 1, [⟨13, 1, .w1c, 0, .port⟩, ⟨12, 1, .w1c, 0, .port⟩, ⟨11, 1, .w1c, 0, .port⟩, ⟨10, 1, .w1c, 0, .port⟩, ⟨9, 1, .w1c, 0, .port⟩, ⟨8, 1, .w1c, 0, .port⟩, ⟨7, 1, .w1c, 0, .port⟩, ⟨6, 1, .w1c, 0, .port⟩, ⟨5, 1, .w1c, 0, .port⟩, ⟨4, 1, .w1c, 0, .port⟩, ⟨3, 1, .w1c, 0, .port⟩, ⟨2, 1, .w1c, 0, .port⟩, ⟨1, 1, .w1c, 0, .port⟩, ⟨0, 1, .w1c, 0, .port⟩]⟩,
  -- R140 tw.cN.ien
  ⟨0x060008, 1024, 8, 0, 1, [⟨0, 14, .rw, 1023, .port⟩]⟩,
  -- R141 tw.cN.err
  ⟨0x06000C, 1024, 8, 0, 1, [⟨24, 8, .rc, 0, .port⟩, ⟨16, 8, .rc, 0, .port⟩, ⟨8, 8, .rc, 0, .port⟩, ⟨0, 8, .rc, 0, .port⟩]⟩,
  -- R141 tw.cN.lost
  ⟨0x060010, 1024, 8, 0, 1, [⟨24, 8, .rc, 0, .port⟩, ⟨16, 8, .rc, 0, .port⟩]⟩,
  -- R141 tw.cN.late
  ⟨0x060014, 1024, 8, 0, 1, [⟨16, 16, .rc, 0, .port⟩, ⟨0, 16, .ro, 0, .port⟩]⟩,
  -- R142 tw.cN.xfer
  ⟨0x060018, 1024, 8, 0, 1, [⟨31, 1, .w1s, 0, .port⟩, ⟨30, 1, .ro, 0, .port⟩, ⟨27, 3, .ro, 0, .port⟩, ⟨26, 1, .rw, 0, .port⟩, ⟨22, 4, .rw, 0, .port⟩, ⟨18, 4, .rw, 0, .port⟩, ⟨0, 7, .rw, 0, .port⟩]⟩,
  -- R142 tw.cN.wdata
  ⟨0x06001C, 1024, 8, 4, 3, [⟨0, 32, .rw, 0, .port⟩]⟩,
  -- R142 tw.cN.rdata
  ⟨0x060028, 1024, 8, 4, 2, [⟨0, 32, .ro, 0, .port⟩]⟩,
  -- R143 tw.cN.lines
  ⟨0x060030, 1024, 8, 0, 1, [⟨3, 1, .ro, 0, .port⟩, ⟨2, 1, .ro, 0, .port⟩, ⟨1, 1, .ro, 0, .port⟩, ⟨0, 1, .ro, 0, .port⟩]⟩,
  -- R144 tw.sum
  ⟨0x062000, 4, 2, 0, 1, [⟨0, 8, .ro, 0, .fabric⟩]⟩]

/-- Registers at 0x08_xxxx (R168 to R170). -/
def regRows08 : List RegRow := [
  -- R168 fab.tNN.status
  ⟨0x080000, 4096, 32, 0, 1, [⟨8, 1, .ro, 0, .tile⟩, ⟨7, 1, .ro, 0, .tile⟩, ⟨6, 1, .ro, 0, .tile⟩, ⟨5, 1, .ro, 0, .tile⟩, ⟨4, 1, .w1c, 0, .tile⟩, ⟨3, 1, .w1c, 0, .tile⟩, ⟨2, 1, .w1c, 0, .tile⟩, ⟨1, 1, .w1c, 0, .tile⟩]⟩,
  -- R168 fab.tNN.ien
  ⟨0x080004, 4096, 32, 0, 1, [⟨1, 4, .rw, 3, .tile⟩]⟩,
  -- R169 fab.tNN.fir
  ⟨0x080008, 4096, 32, 0, 1, [⟨31, 1, .w1s, 0, .tile⟩, ⟨16, 1, .rw, 0, .tile⟩, ⟨0, 16, .rw, 0, .tile⟩]⟩,
  -- R169 fab.tNN.cwin
  ⟨0x08000C, 4096, 32, 0, 1, [⟨0, 1, .rw, 0, .tile⟩]⟩,
  -- R169 fab.tNN.util
  ⟨0x080010, 4096, 32, 0, 1, [⟨16, 16, .rc, 0, .tile⟩, ⟨0, 16, .ro, 0, .tile⟩]⟩,
  -- R169 fab.tNN.count
  ⟨0x080014, 4096, 32, 0, 1, [⟨24, 8, .rc, 0, .tile⟩, ⟨16, 8, .rc, 0, .tile⟩, ⟨8, 8, .rc, 0, .tile⟩, ⟨0, 8, .rc, 0, .tile⟩]⟩,
  -- R169 fab.tNN.par_addr
  ⟨0x080018, 4096, 32, 0, 1, [⟨30, 2, .ro, 0, .tile⟩, ⟨0, 12, .ro, 0, .tile⟩]⟩,
  -- R193 fab.tNN.fade
  ⟨0x08001C, 4096, 32, 0, 1, [⟨25, 7, .rc, 0, .tile⟩, ⟨18, 7, .ro, 0, .tile⟩, ⟨16, 1, .ro, 0, .tile⟩, ⟨0, 16, .ro, 0, .tile⟩]⟩,
  -- R194 fab.tNN.scnt
  ⟨0x080100, 4096, 32, 4, 64, [⟨16, 16, .rc, 0, .context⟩, ⟨0, 16, .ro, 0, .context⟩]⟩,
  -- R215 fab.tNN.slJJ.set
  ⟨0x080200, 4096, 32, 16, 64, [⟨0, 32, .staged, 0, .context⟩]⟩,
  -- R216 fab.tNN.slJJ.st
  ⟨0x080204, 4096, 32, 16, 64, [⟨8, 3, .ro, 0, .context⟩, ⟨7, 1, .w1c, 0, .context⟩, ⟨6, 1, .w1c, 0, .context⟩, ⟨5, 1, .w1c, 0, .context⟩, ⟨4, 1, .w1c, 0, .context⟩, ⟨3, 1, .w1c, 0, .context⟩, ⟨2, 1, .w1c, 0, .context⟩, ⟨1, 1, .w1c, 0, .context⟩, ⟨0, 1, .w1c, 0, .context⟩]⟩,
  -- R217 fab.tNN.slJJ.cnt
  ⟨0x080208, 4096, 32, 16, 64, [⟨24, 8, .rc, 0, .context⟩, ⟨16, 8, .rc, 0, .context⟩, ⟨8, 8, .rc, 0, .context⟩, ⟨0, 8, .rc, 0, .context⟩]⟩,
  -- R217 fab.tNN.slJJ.speed
  ⟨0x08020C, 4096, 32, 16, 64, [⟨0, 32, .ro, 0, .context⟩]⟩,
  -- R170 fab.tNN.coef
  ⟨0x080800, 4096, 32, 4, 512, [⟨0, 24, .rw, 0, .device⟩]⟩]

/-- Registers at 0x0A_xxxx (R171 to R171). -/
def regRows0A : List RegRow := [
  -- R171 fab.cNNN.status
  ⟨0x0A0000, 64, 192, 0, 1, [⟨9, 1, .ro, 0, .context⟩, ⟨8, 1, .ro, 0, .context⟩, ⟨7, 1, .w1c, 0, .context⟩, ⟨6, 1, .w1c, 0, .context⟩, ⟨5, 1, .w1c, 0, .context⟩, ⟨4, 1, .w1c, 0, .context⟩, ⟨3, 1, .w1c, 0, .context⟩, ⟨2, 1, .w1c, 0, .context⟩, ⟨1, 1, .w1c, 0, .context⟩]⟩,
  -- R171 fab.cNNN.ien
  ⟨0x0A0004, 64, 192, 0, 1, [⟨1, 7, .rw, 58, .context⟩]⟩,
  -- R171 fab.cNNN.ctl
  ⟨0x0A0008, 64, 192, 0, 1, [⟨1, 1, .w1s, 0, .context⟩, ⟨0, 1, .rw, 0, .context⟩]⟩,
  -- R171 fab.cNNN.count
  ⟨0x0A000C, 64, 192, 0, 1, [⟨16, 16, .rc, 0, .context⟩, ⟨0, 16, .rc, 0, .context⟩]⟩,
  -- R171 fab.cNNN.shadow
  ⟨0x0A0010, 64, 192, 0, 1, [⟨16, 16, .rc, 0, .context⟩, ⟨0, 16, .ro, 0, .context⟩]⟩,
  -- R171 fab.cNNN.dig_seq
  ⟨0x0A0014, 64, 192, 0, 1, [⟨16, 16, .ro, 0, .context⟩, ⟨0, 16, .ro, 0, .context⟩]⟩,
  -- R171 fab.cNNN.dig_in
  ⟨0x0A0018, 64, 192, 0, 1, [⟨0, 32, .ro, 0, .context⟩]⟩,
  -- R171 fab.cNNN.dig_head
  ⟨0x0A001C, 64, 192, 0, 1, [⟨0, 32, .ro, 0, .context⟩]⟩,
  -- R171 fab.cNNN.outcount
  ⟨0x0A0020, 64, 192, 0, 1, [⟨0, 32, .ro, 0, .context⟩]⟩]

/-- Registers at 0x0B_xxxx (R172 to R172). -/
def regRows0B : List RegRow := [
  -- R172 fab.tsum
  ⟨0x0B0000, 4, 2, 0, 1, [⟨0, 32, .ro, 0, .fabric⟩]⟩,
  -- R172 fab.csum0
  ⟨0x0B0010, 4, 6, 0, 1, [⟨0, 32, .ro, 0, .fabric⟩]⟩,
  -- R172 fab.csum1
  ⟨0x0B0030, 4, 6, 0, 1, [⟨0, 32, .ro, 0, .fabric⟩]⟩]

/-- Registers at 0x10_xxxx (R249 to R251). -/
def regRows10 : List RegRow := [
  -- R249 spc.eN.status
  ⟨0x100000, 4096, 4, 0, 1, [⟨4, 1, .w1c, 0, .fabric⟩, ⟨3, 1, .w1c, 0, .fabric⟩, ⟨2, 1, .w1c, 0, .fabric⟩, ⟨1, 1, .w1c, 0, .fabric⟩, ⟨0, 1, .ro, 0, .fabric⟩]⟩,
  -- R249 spc.eN.ien
  ⟨0x100004, 4096, 4, 0, 1, [⟨1, 4, .rw, 12, .fabric⟩]⟩,
  -- R249 spc.eN.kick
  ⟨0x100008, 4096, 4, 0, 1, [⟨31, 1, .w1s, 0, .fabric⟩, ⟨0, 6, .rw, 0, .fabric⟩]⟩,
  -- R249 spc.eN.count
  ⟨0x10000C, 4096, 4, 0, 1, [⟨16, 16, .rc, 0, .fabric⟩, ⟨8, 8, .rc, 0, .fabric⟩, ⟨0, 8, .rc, 0, .fabric⟩]⟩,
  -- R249 spc.eN.util
  ⟨0x100010, 4096, 4, 0, 1, [⟨16, 16, .rc, 0, .fabric⟩, ⟨0, 16, .ro, 0, .fabric⟩]⟩,
  -- R249 spc.eN.busy
  ⟨0x100014, 4096, 4, 0, 1, [⟨0, 16, .rc, 0, .fabric⟩]⟩,
  -- R251 spc.sum
  ⟨0x108000, 4, 2, 0, 1, [⟨0, 4, .ro, 0, .fabric⟩]⟩]

/-- Registers at 0x11_xxxx (R250 to R251). -/
def regRows11 : List RegRow := [
  -- R250 fea.cNNN.status
  ⟨0x110000, 64, 192, 0, 1, [⟨2, 1, .w1c, 0, .context⟩, ⟨1, 1, .w1c, 0, .context⟩]⟩,
  -- R250 fea.cNNN.ien
  ⟨0x110004, 64, 192, 0, 1, [⟨1, 2, .rw, 1, .context⟩]⟩,
  -- R250 fea.cNNN.ctl
  ⟨0x110008, 64, 192, 0, 1, [⟨0, 1, .w1s, 0, .context⟩]⟩,
  -- R250 fea.cNNN.count
  ⟨0x11000C, 64, 192, 0, 1, [⟨16, 16, .rc, 0, .context⟩, ⟨0, 16, .rc, 0, .context⟩]⟩,
  -- R250 fea.cNNN.values
  ⟨0x110010, 64, 192, 4, 6, [⟨0, 32, .ro, 0, .context⟩]⟩,
  -- R251 fea.csum0
  ⟨0x118000, 4, 6, 0, 1, [⟨0, 32, .ro, 0, .fabric⟩]⟩,
  -- R251 fea.csum1
  ⟨0x118020, 4, 6, 0, 1, [⟨0, 32, .ro, 0, .fabric⟩]⟩]

/-- Registers at 0x14_xxxx (R237 to R237). -/
def regRows14 : List RegRow := [
  -- R237 lim.entry
  ⟨0x140000, 4, 32768, 0, 1, [⟨0, 32, .held, 0, .device⟩]⟩]

/-- Registers at 0x16_xxxx (R252 to R252). -/
def regRows16 : List RegRow := [
  -- R252 lim.st
  ⟨0x160000, 4, 8192, 0, 1, [⟨30, 2, .ro, 0, .device⟩, ⟨26, 4, .ro, 0, .device⟩, ⟨22, 4, .ro, 0, .device⟩, ⟨21, 1, .ro, 0, .device⟩, ⟨0, 16, .ro, 0, .device⟩]⟩]

/-- Registers at 0x17_xxxx (R252 to R252). -/
def regRows17 : List RegRow := [
  -- R252 lim.cfg
  ⟨0x170000, 0, 1, 0, 1, [⟨6, 1, .rw, 1, .device⟩, ⟨0, 6, .rw, 63, .device⟩]⟩,
  -- R252 lim.status
  ⟨0x170004, 0, 1, 0, 1, [⟨6, 1, .w1c, 0, .device⟩, ⟨5, 1, .w1c, 0, .device⟩, ⟨4, 1, .w1c, 0, .device⟩, ⟨3, 1, .w1c, 0, .device⟩, ⟨2, 1, .w1c, 0, .device⟩, ⟨1, 1, .w1c, 0, .device⟩]⟩,
  -- R252 lim.ien
  ⟨0x170008, 0, 1, 0, 1, [⟨0, 7, .rw, 76, .device⟩]⟩,
  -- R252 lim.count
  ⟨0x17000C, 0, 1, 0, 1, [⟨24, 8, .rc, 0, .device⟩, ⟨16, 8, .rc, 0, .device⟩, ⟨8, 8, .rc, 0, .device⟩, ⟨0, 8, .rc, 0, .device⟩]⟩,
  -- R252 lim.err_addr
  ⟨0x170010, 0, 1, 0, 1, [⟨13, 2, .ro, 0, .device⟩, ⟨0, 13, .ro, 0, .device⟩]⟩,
  -- R252 lim.active
  ⟨0x170014, 0, 1, 0, 1, [⟨16, 14, .ro, 0, .device⟩, ⟨0, 14, .ro, 0, .device⟩]⟩,
  -- R252 lim.scrub
  ⟨0x170018, 0, 1, 0, 1, [⟨0, 13, .ro, 0, .device⟩]⟩]

/-- Registers at 0x18_xxxx (R272 to R274). -/
def regRows18 : List RegRow := [
  -- R272 ev.fire
  ⟨0x180000, 0, 1, 0, 1, [⟨0, 32, .wo, 0, .device⟩]⟩,
  -- R272 ev.fire_bank
  ⟨0x180004, 0, 1, 0, 1, [⟨0, 2, .rw, 0, .device⟩]⟩,
  -- R272 ev.cfg
  ⟨0x180008, 0, 1, 0, 1, [⟨0, 1, .rw, 1, .device⟩]⟩,
  -- R272 ev.coinc
  ⟨0x18000C, 0, 1, 0, 1, [⟨16, 16, .rc, 0, .device⟩, ⟨0, 16, .ro, 0, .device⟩]⟩,
  -- R272 ev.flag
  ⟨0x180010, 4, 4, 0, 1, [⟨0, 32, .w1c, 0, .device⟩]⟩,
  -- R272 ev.storm
  ⟨0x180020, 4, 4, 0, 1, [⟨0, 32, .w1c, 0, .device⟩]⟩,
  -- R272 ev.irq0
  ⟨0x180030, 4, 4, 0, 1, [⟨0, 32, .w1c, 0, .device⟩]⟩,
  -- R272 ev.irq1
  ⟨0x180040, 4, 4, 0, 1, [⟨0, 32, .w1c, 0, .device⟩]⟩,
  -- R272 ev.sum
  ⟨0x180050, 0, 1, 0, 1, [⟨2, 1, .ro, 0, .device⟩, ⟨1, 1, .ro, 0, .device⟩, ⟨0, 1, .ro, 0, .device⟩]⟩,
  -- R273 ev.cNNN.st
  ⟨0x181000, 32, 128, 0, 1, [⟨31, 1, .ro, 0, .device⟩, ⟨30, 1, .ro, 0, .device⟩, ⟨29, 1, .ro, 0, .device⟩, ⟨0, 17, .ro, 0, .device⟩]⟩,
  -- R273 ev.cNNN.fires
  ⟨0x181004, 32, 128, 0, 1, [⟨0, 32, .ro, 0, .device⟩]⟩,
  -- R273 ev.cNNN.lost
  ⟨0x181008, 32, 128, 0, 1, [⟨16, 16, .rc, 0, .device⟩, ⟨0, 16, .rc, 0, .device⟩]⟩,
  -- R273 ev.cNNN.drop
  ⟨0x18100C, 32, 128, 0, 1, [⟨16, 16, .rc, 0, .device⟩, ⟨0, 16, .rc, 0, .device⟩]⟩,
  -- R273 ev.cNNN.stamp0
  ⟨0x181010, 32, 128, 0, 1, [⟨0, 32, .ro, 0, .device⟩]⟩,
  -- R273 ev.cNNN.stamp1
  ⟨0x181014, 32, 128, 0, 1, [⟨0, 32, .ro, 0, .device⟩]⟩,
  -- R273 ev.cNNN.stamp2
  ⟨0x181018, 32, 128, 0, 1, [⟨0, 32, .ro, 0, .device⟩]⟩,
  -- R273 ev.cNNN.stamp3
  ⟨0x18101C, 32, 128, 0, 1, [⟨16, 16, .ro, 0, .device⟩, ⟨0, 1, .ro, 0, .device⟩]⟩,
  -- R274 ev.ctrKK.val
  ⟨0x182000, 8, 16, 0, 1, [⟨0, 32, .rw, 0, .device⟩]⟩,
  -- R274 ev.ctrKK.cmp
  ⟨0x182004, 8, 16, 0, 1, [⟨0, 32, .rw, 0, .device⟩]⟩]

/-- Registers at 0x1A_xxxx (R302 to R302). -/
def regRows1A : List RegRow := [
  -- R302 q.qNN.ctl
  ⟨0x1A0000, 1024, 64, 0, 1, [⟨0, 1, .w1s, 0, .queue⟩]⟩,
  -- R302 q.qNN.status
  ⟨0x1A0004, 1024, 64, 0, 1, [⟨7, 1, .w1c, 0, .fabric⟩, ⟨6, 1, .w1c, 0, .fabric⟩, ⟨5, 1, .w1c, 0, .fabric⟩, ⟨4, 1, .w1c, 0, .fabric⟩, ⟨3, 1, .w1c, 0, .fabric⟩, ⟨2, 1, .w1c, 0, .fabric⟩, ⟨1, 1, .w1c, 0, .fabric⟩, ⟨0, 1, .ro, 0, .queue⟩]⟩,
  -- R302 q.qNN.ien
  ⟨0x1A0008, 1024, 64, 0, 1, [⟨1, 7, .rw, 12, .fabric⟩]⟩,
  -- R302 q.qNN.level
  ⟨0x1A000C, 1024, 64, 0, 1, [⟨0, 22, .ro, 0, .queue⟩]⟩,
  -- R302 q.qNN.pkts
  ⟨0x1A0010, 1024, 64, 0, 1, [⟨0, 22, .ro, 0, .queue⟩]⟩,
  -- R302 q.qNN.thr
  ⟨0x1A0014, 1024, 64, 0, 1, [⟨0, 22, .rw, 0, .queue⟩]⟩,
  -- R302 q.qNN.count
  ⟨0x1A0018, 1024, 64, 0, 1, [⟨24, 8, .rc, 0, .fabric⟩, ⟨16, 8, .rc, 0, .fabric⟩, ⟨8, 8, .rc, 0, .fabric⟩, ⟨0, 8, .rc, 0, .fabric⟩]⟩,
  -- R302 q.qNN.epoch
  ⟨0x1A001C, 1024, 64, 0, 1, [⟨0, 16, .ro, 0, .device⟩]⟩,
  -- R302 q.qNN.cap
  ⟨0x1A0020, 1024, 64, 0, 1, [⟨0, 22, .ro, 0, .queue⟩]⟩,
  -- R302 q.qNN.win
  ⟨0x1A0200, 1024, 64, 4, 128, [⟨0, 32, .ro, 0, .queue⟩]⟩]

/-- Registers at 0x1B_xxxx (R303 to R305). -/
def regRows1B : List RegRow := [
  -- R303 q.rCCC.ctl
  ⟨0x1B0000, 32, 192, 0, 1, [⟨1, 1, .w1s, 0, .context⟩, ⟨0, 1, .w1s, 0, .context⟩]⟩,
  -- R303 q.rCCC.status
  ⟨0x1B0004, 32, 192, 0, 1, [⟨6, 3, .ro, 0, .context⟩, ⟨5, 1, .w1c, 0, .fabric⟩, ⟨4, 1, .w1c, 0, .fabric⟩, ⟨3, 1, .w1c, 0, .fabric⟩, ⟨2, 1, .w1c, 0, .fabric⟩, ⟨1, 1, .w1c, 0, .fabric⟩, ⟨0, 1, .w1c, 0, .fabric⟩]⟩,
  -- R303 q.rCCC.ien
  ⟨0x1B0008, 32, 192, 0, 1, [⟨0, 6, .rw, 18, .fabric⟩]⟩,
  -- R303 q.rCCC.lost
  ⟨0x1B000C, 32, 192, 0, 1, [⟨16, 16, .ro, 0, .context⟩, ⟨0, 16, .ro, 0, .context⟩]⟩,
  -- R303 q.rCCC.count
  ⟨0x1B0010, 32, 192, 0, 1, [⟨16, 16, .ro, 0, .context⟩, ⟨0, 16, .rc, 0, .context⟩]⟩,
  -- R303 q.rCCC.wpos
  ⟨0x1B0014, 32, 192, 0, 1, [⟨0, 32, .ro, 0, .context⟩]⟩,
  -- R304 q.qsum0
  ⟨0x1B8000, 4, 2, 0, 1, [⟨0, 32, .ro, 0, .fabric⟩]⟩,
  -- R304 q.qsum1
  ⟨0x1B8008, 4, 2, 0, 1, [⟨0, 32, .ro, 0, .fabric⟩]⟩,
  -- R304 q.rsum0
  ⟨0x1B8010, 4, 6, 0, 1, [⟨0, 32, .ro, 0, .fabric⟩]⟩,
  -- R304 q.rsum1
  ⟨0x1B8028, 4, 6, 0, 1, [⟨0, 32, .ro, 0, .fabric⟩]⟩,
  -- R305 q.dbg.page
  ⟨0x1B8100, 0, 1, 0, 1, [⟨0, 2, .rw, 0, .device⟩]⟩,
  -- R305 q.dbg.chk
  ⟨0x1B8108, 0, 1, 0, 1, [⟨8, 8, .ro, 0, .device⟩, ⟨0, 8, .ro, 0, .device⟩]⟩]

/-- Registers at 0x1C_xxxx (R326 to R329). -/
def regRows1C : List RegRow := [
  -- R326 tm.tbNN.now0
  ⟨0x1C0000, 64, 18, 0, 1, [⟨0, 32, .ro, 0, .device⟩]⟩,
  -- R326 tm.tbNN.now1
  ⟨0x1C0004, 64, 18, 0, 1, [⟨0, 32, .ro, 0, .device⟩]⟩,
  -- R326 tm.tbNN.now2
  ⟨0x1C0008, 64, 18, 0, 1, [⟨0, 32, .ro, 0, .device⟩]⟩,
  -- R326 tm.tbNN.now3
  ⟨0x1C000C, 64, 18, 0, 1, [⟨16, 16, .ro, 0, .device⟩]⟩,
  -- R326 tm.tbNN.inc_hi
  ⟨0x1C0010, 64, 18, 0, 1, [⟨0, 8, .staged, 1, .device⟩]⟩,
  -- R326 tm.tbNN.inc_lo
  ⟨0x1C0014, 64, 18, 0, 1, [⟨0, 32, .staged, 1073741824, .device⟩]⟩,
  -- R326 tm.tbNN.step
  ⟨0x1C0018, 64, 18, 4, 3, [⟨0, 32, .rw, 0, .device⟩]⟩,
  -- R326 tm.tbNN.step3
  ⟨0x1C0024, 64, 18, 0, 1, [⟨16, 16, .rw, 0, .device⟩]⟩,
  -- R326 tm.tbNN.slew_adj
  ⟨0x1C0028, 64, 18, 0, 1, [⟨0, 32, .staged, 0, .device⟩]⟩,
  -- R326 tm.tbNN.slew_len
  ⟨0x1C002C, 64, 18, 0, 1, [⟨0, 32, .staged, 0, .device⟩]⟩,
  -- R326 tm.tbNN.ctl
  ⟨0x1C0030, 64, 18, 0, 1, [⟨1, 1, .rw, 0, .device⟩, ⟨0, 1, .staged, 0, .device⟩]⟩,
  -- R326 tm.tbNN.slew_left
  ⟨0x1C0034, 64, 18, 0, 1, [⟨0, 32, .ro, 0, .device⟩]⟩,
  -- R326 tm.tbNN.steps
  ⟨0x1C0038, 64, 18, 0, 1, [⟨31, 1, .ro, 0, .device⟩, ⟨0, 16, .ro, 0, .device⟩]⟩,
  -- R327 tm.tgGG.ctl
  ⟨0x1C0800, 16, 32, 0, 1, [⟨0, 1, .rw, 0, .device⟩]⟩,
  -- R327 tm.tgGG.st
  ⟨0x1C0804, 16, 32, 0, 1, [⟨31, 1, .w1c, 0, .device⟩, ⟨0, 16, .rc, 0, .device⟩]⟩,
  -- R327 tm.tgGG.lateness
  ⟨0x1C0808, 16, 32, 0, 1, [⟨0, 32, .ro, 0, .device⟩]⟩,
  -- R327 tm.tachN.stamp0
  ⟨0x1C0A00, 32, 8, 0, 1, [⟨0, 32, .ro, 0, .device⟩]⟩,
  -- R327 tm.tachN.stamp1
  ⟨0x1C0A04, 32, 8, 0, 1, [⟨0, 32, .ro, 0, .device⟩]⟩,
  -- R327 tm.tachN.stamp2
  ⟨0x1C0A08, 32, 8, 0, 1, [⟨0, 32, .ro, 0, .device⟩]⟩,
  -- R327 tm.tachN.stamp3
  ⟨0x1C0A0C, 32, 8, 0, 1, [⟨16, 16, .ro, 0, .device⟩]⟩,
  -- R327 tm.tachN.count
  ⟨0x1C0A10, 32, 8, 0, 1, [⟨16, 16, .ro, 0, .device⟩, ⟨0, 16, .rc, 0, .device⟩]⟩,
  -- R327 tm.tachN.period
  ⟨0x1C0A14, 32, 8, 0, 1, [⟨0, 32, .ro, 0, .device⟩]⟩,
  -- R328 tm.ktAAA.due
  ⟨0x1C1000, 32, 256, 4, 3, [⟨0, 32, .held, 0, .device⟩]⟩,
  -- R328 tm.ktAAA.per0
  ⟨0x1C100C, 32, 256, 0, 1, [⟨0, 32, .held, 0, .device⟩]⟩,
  -- R328 tm.ktAAA.per1
  ⟨0x1C1010, 32, 256, 0, 1, [⟨16, 16, .held, 0, .device⟩]⟩,
  -- R328 tm.ktAAA.ctl
  ⟨0x1C1014, 32, 256, 0, 1, [⟨31, 1, .rw, 0, .device⟩, ⟨30, 1, .rw, 0, .device⟩, ⟨29, 1, .rw, 0, .device⟩, ⟨24, 5, .rw, 0, .device⟩, ⟨0, 7, .rw, 0, .device⟩]⟩,
  -- R328 tm.ktAAA.st
  ⟨0x1C1018, 32, 256, 0, 1, [⟨31, 1, .w1c, 0, .device⟩, ⟨30, 1, .w1c, 0, .device⟩, ⟨0, 16, .rc, 0, .device⟩]⟩,
  -- R328 tm.ktAAA.lateness
  ⟨0x1C101C, 32, 256, 0, 1, [⟨0, 32, .ro, 0, .device⟩]⟩,
  -- R329 tm.status
  ⟨0x1C3000, 0, 1, 0, 1, [⟨5, 1, .w1c, 0, .device⟩, ⟨4, 1, .w1c, 0, .device⟩, ⟨3, 1, .w1c, 0, .device⟩, ⟨2, 1, .w1c, 0, .device⟩, ⟨1, 1, .w1c, 0, .device⟩, ⟨0, 1, .w1c, 0, .device⟩]⟩,
  -- R329 tm.ien
  ⟨0x1C3004, 0, 1, 0, 1, [⟨0, 6, .rw, 7, .device⟩]⟩]

/-- Registers at 0x1C_xxxx (R329 to R329). -/
def regRows1Cb : List RegRow := [
  -- R329 tm.kt.fired
  ⟨0x1C3010, 4, 8, 0, 1, [⟨0, 32, .w1c, 0, .device⟩]⟩,
  -- R329 tm.kt.late
  ⟨0x1C3030, 4, 8, 0, 1, [⟨0, 32, .ro, 0, .device⟩]⟩]

/-- Registers at 0x1D_xxxx (R360 to R364). -/
def regRows1D : List RegRow := [
  -- R360 cas.pN.status
  ⟨0x1D0000, 256, 3, 0, 1, [⟨29, 3, .ro, 0, .link⟩, ⟨27, 2, .ro, 0, .link⟩, ⟨26, 1, .ro, 0, .link⟩, ⟨8, 1, .w1c, 0, .link⟩, ⟨7, 1, .w1c, 0, .link⟩, ⟨6, 1, .w1c, 0, .link⟩, ⟨5, 1, .w1c, 0, .link⟩, ⟨4, 1, .w1c, 0, .link⟩, ⟨3, 1, .w1c, 0, .link⟩, ⟨2, 1, .w1c, 0, .link⟩, ⟨1, 1, .w1c, 0, .link⟩]⟩,
  -- R360 cas.pN.ien
  ⟨0x1D0004, 256, 3, 0, 1, [⟨1, 8, .rw, 250, .link⟩]⟩,
  -- R360 cas.pN.delay
  ⟨0x1D0008, 256, 3, 0, 1, [⟨0, 32, .ro, 0, .link⟩]⟩,
  -- R360 cas.pN.asym
  ⟨0x1D000C, 256, 3, 0, 1, [⟨0, 16, .rw, 0, .link⟩]⟩,
  -- R360 cas.pN.count
  ⟨0x1D0010, 256, 3, 0, 1, [⟨24, 8, .rc, 0, .link⟩, ⟨16, 8, .rc, 0, .link⟩, ⟨8, 8, .rc, 0, .link⟩, ⟨0, 8, .rc, 0, .link⟩]⟩,
  -- R360 cas.pN.count2
  ⟨0x1D0014, 256, 3, 0, 1, [⟨16, 16, .rc, 0, .link⟩, ⟨0, 16, .rc, 0, .link⟩]⟩,
  -- R361 cas.enum
  ⟨0x1D0300, 0, 1, 0, 1, [⟨31, 1, .w1s, 0, .device⟩, ⟨28, 3, .ro, 0, .link⟩, ⟨24, 4, .ro, 0, .link⟩, ⟨14, 10, .ro, 0, .link⟩, ⟨8, 6, .ro, 0, .link⟩, ⟨7, 1, .rw, 0, .device⟩]⟩,
  -- R361 cas.path
  ⟨0x1D0304, 0, 1, 0, 1, [⟨0, 32, .ro, 0, .link⟩]⟩,
  -- R361 cas.range
  ⟨0x1D0308, 0, 1, 0, 1, [⟨22, 10, .ro, 0, .link⟩, ⟨12, 10, .ro, 0, .link⟩]⟩,
  -- R361 cas.status
  ⟨0x1D0310, 0, 1, 0, 1, [⟨31, 1, .ro, 0, .link⟩, ⟨30, 1, .ro, 0, .device⟩, ⟨29, 1, .ro, 0, .link⟩, ⟨6, 1, .w1c, 0, .link⟩, ⟨5, 1, .w1c, 0, .link⟩, ⟨4, 1, .w1c, 0, .link⟩, ⟨3, 1, .w1c, 0, .link⟩, ⟨2, 1, .w1c, 0, .link⟩, ⟨1, 1, .w1c, 0, .link⟩, ⟨0, 1, .w1c, 0, .link⟩]⟩,
  -- R361 cas.ien
  ⟨0x1D0314, 0, 1, 0, 1, [⟨0, 7, .rw, 102, .device⟩]⟩,
  -- R361 cas.offset
  ⟨0x1D0318, 0, 1, 0, 1, [⟨0, 32, .ro, 0, .link⟩]⟩,
  -- R362 cas.rq.ctl
  ⟨0x1D0320, 0, 1, 0, 1, [⟨31, 1, .w1s, 0, .device⟩, ⟨30, 1, .ro, 0, .device⟩, ⟨27, 3, .ro, 0, .device⟩, ⟨26, 1, .rw, 0, .device⟩, ⟨25, 1, .rw, 0, .device⟩, ⟨21, 4, .rw, 0, .device⟩, ⟨0, 9, .rw, 0, .device⟩]⟩,
  -- R362 cas.rq.addr
  ⟨0x1D0324, 0, 1, 0, 1, [⟨0, 24, .rw, 0, .device⟩]⟩,
  -- R362 cas.rq.data
  ⟨0x1D0340, 4, 16, 0, 1, [⟨0, 32, .rw, 0, .device⟩]⟩,
  -- R362 cas.bs.ctl
  ⟨0x1D0380, 0, 1, 0, 1, [⟨31, 1, .rw, 0, .device⟩, ⟨30, 1, .w1c, 0, .device⟩, ⟨0, 9, .rw, 0, .device⟩]⟩,
  -- R362 cas.bs.level
  ⟨0x1D0384, 0, 1, 0, 1, [⟨0, 10, .ro, 528, .device⟩]⟩,
  -- R362 cas.bs.data
  ⟨0x1D0400, 4, 256, 0, 1, [⟨0, 32, .wo, 0, .device⟩]⟩,
  -- R363 cas.bgBB.err
  ⟨0x1D0800, 8, 32, 0, 1, [⟨16, 16, .rc, 0, .device⟩, ⟨0, 16, .rc, 0, .device⟩]⟩,
  -- R363 cas.bgBB.frames
  ⟨0x1D0804, 8, 32, 0, 1, [⟨0, 32, .ro, 0, .device⟩]⟩,
  -- R364 cas.sum
  ⟨0x1D0900, 4, 2, 0, 1, [⟨0, 4, .ro, 0, .device⟩]⟩]

/-- Registers at 0x1E_xxxx (R392 to R394). -/
def regRows1E : List RegRow := [
  -- R392 rad.ctl
  ⟨0x1E0000, 0, 1, 0, 1, [⟨2, 1, .rw, 0, .radio⟩, ⟨0, 2, .rw, 0, .radio⟩]⟩,
  -- R392 rad.status
  ⟨0x1E0004, 0, 1, 0, 1, [⟨28, 4, .ro, 0, .radio⟩, ⟨10, 1, .w1c, 0, .radio⟩, ⟨9, 1, .w1c, 0, .radio⟩, ⟨8, 1, .w1c, 0, .radio⟩, ⟨7, 1, .w1c, 0, .radio⟩, ⟨6, 1, .w1c, 0, .radio⟩, ⟨5, 1, .w1c, 0, .radio⟩, ⟨4, 1, .w1c, 0, .radio⟩, ⟨3, 1, .w1c, 0, .radio⟩, ⟨2, 1, .w1c, 0, .radio⟩, ⟨1, 1, .w1c, 0, .radio⟩, ⟨0, 1, .ro, 0, .radio⟩]⟩,
  -- R392 rad.ien
  ⟨0x1E0008, 0, 1, 0, 1, [⟨1, 10, .rw, 393, .radio⟩]⟩,
  -- R392 rad.cmd
  ⟨0x1E000C, 0, 1, 0, 1, [⟨31, 1, .w1s, 0, .radio⟩, ⟨28, 3, .rw, 0, .radio⟩, ⟨27, 1, .rw, 0, .radio⟩, ⟨26, 1, .rw, 0, .radio⟩, ⟨21, 5, .rw, 0, .radio⟩, ⟨16, 5, .rw, 0, .radio⟩, ⟨12, 4, .rw, 0, .radio⟩]⟩,
  -- R392 rad.cmd_t
  ⟨0x1E0010, 4, 3, 0, 1, [⟨0, 32, .rw, 0, .radio⟩]⟩,
  -- R392 rad.tx_len
  ⟨0x1E001C, 0, 1, 0, 1, [⟨0, 8, .rw, 0, .radio⟩]⟩,
  -- R392 rad.abort
  ⟨0x1E0020, 0, 1, 0, 1, [⟨28, 4, .ro, 0, .radio⟩, ⟨0, 16, .rc, 0, .radio⟩]⟩,
  -- R392 rad.late
  ⟨0x1E0024, 0, 1, 0, 1, [⟨0, 32, .ro, 0, .radio⟩]⟩,
  -- R392 rad.rxinfo
  ⟨0x1E0028, 0, 1, 0, 1, [⟨31, 1, .ro, 0, .radio⟩, ⟨30, 1, .ro, 0, .radio⟩, ⟨25, 5, .ro, 0, .radio⟩, ⟨17, 8, .ro, 0, .radio⟩, ⟨9, 8, .ro, 0, .radio⟩, ⟨0, 8, .ro, 0, .radio⟩]⟩,
  -- R392 rad.rxt
  ⟨0x1E002C, 4, 3, 0, 1, [⟨0, 32, .ro, 0, .radio⟩]⟩,
  -- R392 rad.temp
  ⟨0x1E0038, 0, 1, 0, 1, [⟨24, 8, .ro, 0, .radio⟩]⟩,
  -- R392 rad.cal
  ⟨0x1E003C, 0, 1, 0, 1, [⟨16, 16, .ro, 0, .radio⟩, ⟨12, 4, .ro, 0, .radio⟩]⟩,
  -- R392 rad.calst
  ⟨0x1E0040, 0, 1, 0, 1, [⟨16, 16, .ro, 0, .radio⟩]⟩,
  -- R392 rad.sf
  ⟨0x1E0044, 0, 1, 0, 1, [⟨0, 32, .ro, 0, .radio⟩]⟩,
  -- R392 rad.sfcnt
  ⟨0x1E0048, 0, 1, 0, 1, [⟨16, 16, .rc, 0, .radio⟩, ⟨0, 16, .rc, 0, .radio⟩]⟩,
  -- R392 rad.pwr
  ⟨0x1E004C, 0, 1, 0, 1, [⟨0, 8, .ro, 0, .radio⟩]⟩,
  -- R392 rad.join
  ⟨0x1E0050, 0, 1, 0, 1, [⟨16, 16, .rc, 0, .radio⟩, ⟨0, 16, .rc, 0, .radio⟩]⟩,
  -- R392 rad.join_id
  ⟨0x1E0054, 0, 1, 0, 1, [⟨0, 32, .ro, 0, .radio⟩]⟩,
  -- R392 rad.txbuf
  ⟨0x1E0100, 4, 64, 0, 1, [⟨0, 32, .rw, 0, .radio⟩]⟩,
  -- R392 rad.rxbuf
  ⟨0x1E0200, 4, 64, 0, 1, [⟨0, 32, .ro, 0, .radio⟩]⟩,
  -- R393 rad.nNN.st
  ⟨0x1E1080, 128, 48, 0, 1, [⟨30, 2, .ro, 0, .radio⟩, ⟨22, 8, .ro, 0, .radio⟩, ⟨14, 8, .ro, 0, .radio⟩]⟩,
  -- R393 rad.nNN.cnt
  ⟨0x1E1084, 128, 48, 0, 1, [⟨24, 8, .rc, 0, .radio⟩, ⟨16, 8, .rc, 0, .radio⟩, ⟨8, 8, .rc, 0, .radio⟩, ⟨0, 8, .rc, 0, .radio⟩]⟩,
  -- R393 rad.nNN.cnt2
  ⟨0x1E1088, 128, 48, 0, 1, [⟨16, 16, .ro, 0, .radio⟩, ⟨8, 8, .rc, 0, .radio⟩, ⟨0, 8, .rc, 0, .radio⟩]⟩,
  -- R393 rad.nNN.dctl
  ⟨0x1E108C, 128, 48, 0, 1, [⟨31, 1, .w1s, 0, .radio⟩, ⟨30, 1, .w1c, 0, .radio⟩, ⟨29, 1, .w1c, 0, .radio⟩, ⟨0, 7, .rw, 0, .radio⟩]⟩,
  -- R393 rad.nNN.id
  ⟨0x1E1090, 128, 48, 0, 1, [⟨0, 32, .ro, 0, .radio⟩]⟩,
  -- R393 rad.nNN.dtx
  ⟨0x1E10C0, 128, 48, 4, 16, [⟨0, 32, .rw, 0, .radio⟩]⟩,
  -- R394 rad.wake
  ⟨0x1E3000, 0, 1, 0, 1, [⟨31, 1, .rw, 0, .por⟩, ⟨30, 1, .rw, 0, .por⟩, ⟨0, 16, .rw, 0, .por⟩]⟩,
  -- R394 rad.wake.cnt
  ⟨0x1E3004, 0, 1, 0, 1, [⟨16, 16, .rc, 0, .por⟩, ⟨8, 8, .rc, 0, .por⟩, ⟨0, 8, .rc, 0, .por⟩]⟩,
  -- R394 rad.sum
  ⟨0x1E3100, 4, 2, 0, 1, [⟨0, 1, .ro, 0, .radio⟩]⟩]

/-- Registers at 0x1F_xxxx (R480 to R484). -/
def regRows1F : List RegRow := [
  -- R480 hlt.lc
  ⟨0x1F0000, 0, 1, 0, 1, [⟨29, 3, .ro, 0, .por⟩, ⟨28, 1, .ro, 0, .por⟩]⟩,
  -- R480 hlt.status
  ⟨0x1F0004, 0, 1, 0, 1, [⟨8, 1, .w1c, 0, .por⟩, ⟨7, 1, .w1c, 0, .por⟩, ⟨6, 1, .w1c, 0, .por⟩, ⟨5, 1, .w1c, 0, .por⟩, ⟨4, 1, .w1c, 0, .por⟩, ⟨3, 1, .w1c, 0, .por⟩, ⟨2, 1, .w1c, 0, .por⟩, ⟨1, 1, .w1c, 0, .por⟩]⟩,
  -- R480 hlt.ien
  ⟨0x1F0008, 0, 1, 0, 1, [⟨1, 8, .rw, 240, .por⟩]⟩,
  -- R481 hlt.st.ctl
  ⟨0x1F0010, 0, 1, 0, 1, [⟨31, 1, .w1s, 0, .por⟩, ⟨30, 1, .w1s, 0, .por⟩, ⟨8, 3, .rw, 2, .por⟩, ⟨0, 4, .rw, 0, .por⟩]⟩,
  -- R482 hlt.stG.done
  ⟨0x1F0100, 32, 9, 0, 1, [⟨0, 32, .ro, 0, .por⟩]⟩,
  -- R482 hlt.stG.dur
  ⟨0x1F0104, 32, 9, 0, 1, [⟨0, 32, .ro, 0, .por⟩]⟩,
  -- R482 hlt.stG.fail
  ⟨0x1F0108, 32, 9, 0, 1, [⟨0, 32, .ro, 0, .por⟩]⟩,
  -- R482 hlt.stG.tested
  ⟨0x1F010C, 32, 9, 0, 1, [⟨0, 32, .ro, 0, .por⟩]⟩,
  -- R482 hlt.stG.skipped
  ⟨0x1F0110, 32, 9, 0, 1, [⟨0, 32, .ro, 0, .por⟩]⟩,
  -- R483 hlt.monII
  ⟨0x1F1000, 4, 64, 0, 1, [⟨8, 8, .ro, 0, .por⟩, ⟨0, 8, .ro, 255, .por⟩]⟩,
  -- R484 hlt.plan
  ⟨0x1F1100, 0, 1, 0, 1, [⟨28, 4, .ro, 0, .por⟩, ⟨25, 3, .ro, 0, .por⟩, ⟨0, 16, .ro, 0, .por⟩]⟩,
  -- R484 hlt.plan.ctl
  ⟨0x1F1104, 0, 1, 0, 1, [⟨0, 1, .rw, 0, .por⟩]⟩,
  -- R484 hlt.ref
  ⟨0x1F1108, 0, 1, 0, 1, [⟨16, 16, .ro, 0, .por⟩, ⟨0, 16, .ro, 0, .por⟩]⟩,
  -- R484 hlt.xtal
  ⟨0x1F110C, 0, 1, 0, 1, [⟨16, 16, .ro, 0, .por⟩]⟩,
  -- R484 hlt.eye
  ⟨0x1F1110, 0, 1, 0, 1, [⟨16, 8, .ro, 0, .por⟩, ⟨8, 8, .ro, 0, .por⟩, ⟨0, 8, .ro, 0, .por⟩]⟩,
  -- R484 hlt.plan.cnt
  ⟨0x1F1114, 0, 1, 0, 1, [⟨16, 16, .rc, 0, .por⟩, ⟨0, 16, .rc, 0, .por⟩]⟩,
  -- R456 hlt.flt.status
  ⟨0x1F8000, 0, 1, 0, 1, [⟨6, 1, .w1c, 0, .por⟩, ⟨5, 1, .w1c, 0, .por⟩, ⟨4, 1, .w1c, 0, .por⟩, ⟨3, 1, .w1c, 0, .por⟩, ⟨2, 1, .w1c, 0, .por⟩, ⟨1, 1, .w1c, 0, .por⟩, ⟨0, 1, .ro, 0, .por⟩]⟩,
  -- R456 hlt.flt.ien
  ⟨0x1F8004, 0, 1, 0, 1, [⟨1, 6, .rw, 56, .por⟩]⟩,
  -- R456 hlt.flt.last
  ⟨0x1F8008, 0, 1, 0, 1, [⟨24, 8, .ro, 0, .por⟩, ⟨20, 4, .ro, 0, .por⟩, ⟨0, 16, .ro, 0, .por⟩]⟩,
  -- R456 hlt.flt.count
  ⟨0x1F800C, 0, 1, 0, 1, [⟨16, 16, .rc, 0, .por⟩, ⟨8, 8, .rc, 0, .por⟩, ⟨0, 8, .rc, 0, .por⟩]⟩,
  -- R456 hlt.rec.active
  ⟨0x1F8010, 0, 1, 0, 1, [⟨1, 9, .ro, 0, .por⟩]⟩,
  -- R456 hlt.rec.last
  ⟨0x1F8014, 0, 1, 0, 1, [⟨28, 4, .ro, 0, .por⟩, ⟨24, 4, .ro, 0, .por⟩, ⟨0, 24, .ro, 0, .por⟩]⟩,
  -- R456 hlt.cfg.chk
  ⟨0x1F8018, 0, 1, 0, 1, [⟨24, 8, .ro, 0, .por⟩, ⟨16, 8, .ro, 0, .por⟩, ⟨0, 16, .ro, 0, .device⟩]⟩,
  -- R457 hlt.bkB
  ⟨0x1F8020, 4, 6, 0, 1, [⟨16, 13, .ro, 0, .device⟩, ⟨0, 16, .rc, 0, .device⟩]⟩,
  -- R457 hlt.pendP
  ⟨0x1F8040, 4, 3, 0, 1, [⟨16, 14, .ro, 0, .por⟩, ⟨0, 14, .ro, 0, .por⟩]⟩,
  -- R484 hlt.sum
  ⟨0x1F9000, 4, 2, 0, 1, [⟨1, 1, .ro, 0, .por⟩, ⟨0, 1, .ro, 0, .por⟩]⟩]

/-- Registers at 0x80_xxxx (R433 to R436). -/
def regRows80 : List RegRow := [
  -- R433 met.mb.cmd
  ⟨0x800000, 0, 1, 0, 1, [⟨31, 1, .w1s, 0, .mpor⟩, ⟨30, 1, .ro, 0, .mpor⟩, ⟨20, 4, .ro, 0, .mpor⟩, ⟨0, 8, .rw, 0, .mpor⟩]⟩,
  -- R433 met.mb.arg
  ⟨0x800004, 4, 9, 0, 1, [⟨0, 32, .rw, 0, .mpor⟩]⟩,
  -- R433 met.mb.res
  ⟨0x800028, 4, 2, 0, 1, [⟨0, 32, .ro, 0, .mpor⟩]⟩,
  -- R433 met.status
  ⟨0x800030, 0, 1, 0, 1, [⟨8, 1, .w1c, 0, .mpor⟩, ⟨7, 1, .w1c, 0, .mpor⟩, ⟨6, 1, .w1c, 0, .mpor⟩, ⟨5, 1, .w1c, 0, .mpor⟩, ⟨4, 1, .w1c, 0, .mpor⟩, ⟨3, 1, .w1c, 0, .mpor⟩, ⟨2, 1, .w1c, 0, .mpor⟩, ⟨1, 1, .w1c, 0, .mpor⟩]⟩,
  -- R433 met.ien
  ⟨0x800034, 0, 1, 0, 1, [⟨1, 8, .rw, 31, .mpor⟩]⟩,
  -- R434 met.lid
  ⟨0x800100, 0, 1, 0, 1, [⟨29, 3, .ro, 0, .mpor⟩, ⟨28, 1, .ro, 0, .mpor⟩, ⟨27, 1, .ro, 0, .mpor⟩, ⟨26, 1, .ro, 0, .mpor⟩]⟩,
  -- R434 met.lid.audit
  ⟨0x800104, 0, 1, 0, 1, [⟨0, 24, .ro, 0, .mpor⟩]⟩,
  -- R434 met.lid.overflow
  ⟨0x800108, 0, 1, 0, 1, [⟨0, 32, .ro, 0, .mpor⟩]⟩,
  -- R434 met.lid.mpor
  ⟨0x80010C, 0, 1, 0, 1, [⟨0, 32, .ro, 0, .mpor⟩]⟩,
  -- R434 met.lid.first
  ⟨0x800110, 0, 1, 0, 1, [⟨0, 32, .ro, 0, .mpor⟩]⟩,
  -- R434 met.lid.next
  ⟨0x800114, 0, 1, 0, 1, [⟨0, 32, .ro, 0, .mpor⟩]⟩,
  -- R434 met.lid.free
  ⟨0x800118, 0, 1, 0, 1, [⟨0, 13, .ro, 0, .mpor⟩]⟩,
  -- R434 met.lid.sealed
  ⟨0x800120, 4, 8, 0, 1, [⟨0, 32, .ro, 0, .mpor⟩]⟩,
  -- R434 met.lid.head
  ⟨0x800140, 4, 8, 0, 1, [⟨0, 32, .ro, 0, .mpor⟩]⟩,
  -- R434 met.lid.held
  ⟨0x800160, 4, 8, 0, 1, [⟨0, 32, .ro, 0, .mpor⟩]⟩,
  -- R435 met.chN.v
  ⟨0x800200, 16, 8, 0, 1, [⟨0, 32, .ro, 0, .mpor⟩]⟩,
  -- R435 met.chN.st
  ⟨0x800204, 16, 8, 0, 1, [⟨8, 4, .ro, 0, .mpor⟩, ⟨7, 1, .ro, 0, .mpor⟩, ⟨0, 7, .ro, 0, .mpor⟩]⟩,
  -- R435 met.chN.secs
  ⟨0x800208, 16, 8, 0, 1, [⟨0, 32, .ro, 0, .mpor⟩]⟩,
  -- R435 met.chN.seam
  ⟨0x80020C, 16, 8, 0, 1, [⟨0, 32, .ro, 0, .mpor⟩]⟩,
  -- R436 met.rot
  ⟨0x800300, 0, 1, 0, 1, [⟨28, 4, .ro, 8, .mpor⟩, ⟨24, 4, .ro, 0, .mpor⟩, ⟨0, 24, .ro, 0, .mpor⟩]⟩,
  -- R436 met.rot2
  ⟨0x800304, 0, 1, 0, 1, [⟨16, 16, .ro, 0, .mpor⟩, ⟨8, 8, .ro, 0, .mpor⟩, ⟨0, 8, .ro, 0, .mpor⟩]⟩,
  -- R436 met.ev.rec
  ⟨0x801000, 4, 16, 0, 1, [⟨0, 32, .ro, 0, .mpor⟩]⟩,
  -- R436 met.ev.pos
  ⟨0x801040, 0, 1, 0, 1, [⟨31, 1, .ro, 0, .mpor⟩]⟩,
  -- R436 met.ev.dig
  ⟨0x801044, 4, 8, 0, 1, [⟨0, 32, .ro, 0, .mpor⟩]⟩]

/-- The rows that can hold a register of the 64 KiB block `b` (an address divided by 65,536). -/
def regRowsOf (b : Nat) : List RegRow :=
  if b = 0x00 then regRows00
  else if b = 0x01 then regRows01
  else if b = 0x02 then regRows02
  else if b = 0x04 then regRows04
  else if b = 0x05 then regRows05
  else if b = 0x06 then regRows06
  else if b = 0x08 then regRows08
  else if b = 0x09 then regRows08
  else if b = 0x0A then regRows0A
  else if b = 0x0B then regRows0B
  else if b = 0x10 then regRows10
  else if b = 0x11 then regRows11
  else if b = 0x14 then regRows14
  else if b = 0x15 then regRows14
  else if b = 0x16 then regRows16
  else if b = 0x17 then regRows17
  else if b = 0x18 then regRows18
  else if b = 0x1A then regRows1A
  else if b = 0x1B then regRows1B
  else if b = 0x1C then regRows1C ++ regRows1Cb
  else if b = 0x1D then regRows1D
  else if b = 0x1E then regRows1E
  else if b = 0x1F then regRows1F
  else if b = 0x80 then regRows80
  else []

/-- Every row of the register map. -/
def regRows : List RegRow :=
  regRows00 ++
  regRows01 ++
  regRows02 ++
  regRows04 ++
  regRows05 ++
  regRows06 ++
  regRows08 ++
  regRows0A ++
  regRows0B ++
  regRows10 ++
  regRows11 ++
  regRows14 ++
  regRows16 ++
  regRows17 ++
  regRows18 ++
  regRows1A ++
  regRows1B ++
  regRows1C ++
  regRows1Cb ++
  regRows1D ++
  regRows1E ++
  regRows1F ++
  regRows80

end Sys2Proof.Machine
end

