-- ==== Sys2Proof/Machine/RegMap.lean ====
section
/-! DEFINITION. Reading the register map: which row holds an address, and the word it resets to. -/

namespace Sys2Proof.Machine
open Sys2Proof

/-- The copy numbers (i, j) of an address in a row, if the row holds it. -/
def RegRow.unit? (r : RegRow) (a : Nat) : Option (Nat × Nat) :=
  if a < r.first then none
  else
    let off := a - r.first
    let i := if r.s1 = 0 then 0 else off / r.s1
    let rem := off - r.s1 * i
    let j := if r.s2 = 0 then 0 else rem / r.s2
    if i < r.n1 ∧ j < r.n2 ∧ rem = r.s2 * j then some (i, j) else none

/-- The row of an address. -/
def rowOf (a : Nat) : Option RegRow := (regRowsOf (a / 65536)).find? (fun r => (r.unit? a).isSome)

/-- The word the fields of a row reset to. -/
def resetOfFields (fs : List RField) : Word :=
  fs.foldl (fun w f => w ||| (BitVec.ofNat 32 f.reset <<< f.lo)) 0#32

/-- The word a register resets to: the numbers of the reset columns, 0 where the spec gives none. -/
def resetWord (a : Nat) : Word :=
  match rowOf a with
  | some r => resetOfFields r.fields
  | none => 0#32

end Sys2Proof.Machine
end

