-- ==== Sys2Proof/Machine/NMap.lean ====
section
/-! DEFINITION. Sparse tables: a value for every number, held as a list of (number, value) pairs in one canonical form:
numbers strictly rising and no entry equal to what an unlisted number reads as. Registers, configuration cells, the
stockpot and the per-unit records of the hub are such tables, so that equal tables are equal data. -/

namespace Sys2Proof.Machine

/-- A sparse table. -/
abbrev NMap (α : Type) := List (Nat × α)

/-- The entry at `k`, or `d` where none is listed. -/
def NMap.getD {α : Type} (m : NMap α) (k : Nat) (d : α) : α :=
  match m with
  | [] => d
  | (j, v) :: t => if j = k then v else NMap.getD t k d

/-- The table without an entry at `k`. -/
def NMap.erase {α : Type} (m : NMap α) (k : Nat) : NMap α :=
  match m with
  | [] => []
  | (j, v) :: t => if j = k then NMap.erase t k else (j, v) :: NMap.erase t k

/-- The table with an entry put in its place in the rising order. -/
def NMap.insert {α : Type} (m : NMap α) (k : Nat) (v : α) : NMap α :=
  match m with
  | [] => [(k, v)]
  | (j, w) :: t => if k < j then (k, v) :: (j, w) :: t else (j, w) :: NMap.insert t k v

/-- Write `v` at `k`, where an unlisted `k` reads as `d`. -/
def NMap.setD {α : Type} [DecidableEq α] (m : NMap α) (k : Nat) (v d : α) : NMap α :=
  if v = d then NMap.erase m k else NMap.insert (NMap.erase m k) k v

/-- Read a table whose unlisted entries hold the type's default. -/
def NMap.get {α : Type} [Inhabited α] (m : NMap α) (k : Nat) : α := NMap.getD m k default

/-- Write a table whose unlisted entries hold the type's default. -/
def NMap.set {α : Type} [Inhabited α] [DecidableEq α] (m : NMap α) (k : Nat) (v : α) : NMap α :=
  NMap.setD m k v default

/-- Change one entry. -/
def NMap.modify {α : Type} [Inhabited α] [DecidableEq α] (m : NMap α) (k : Nat) (f : α → α) : NMap α :=
  NMap.set m k (f (NMap.get m k))

/-- The canonical form: numbers strictly rising above `lo`, no entry equal to the unlisted value `d`. -/
def NMap.wfFrom {α : Type} [DecidableEq α] (d : Nat → α) : NMap α → Bool
  | [] => true
  | (k, v) :: t =>
    (match t with
      | [] => true
      | (j, _) :: _ => decide (k < j)) && decide (v ≠ d k) && NMap.wfFrom d t

/-- The canonical form of a table whose unlisted entry `k` reads as `d k`. -/
def NMap.wf {α : Type} [DecidableEq α] (m : NMap α) (d : Nat → α) : Bool := NMap.wfFrom d m

/-- The table without the entries whose number meets `p`. -/
def NMap.drop {α : Type} (m : NMap α) (p : Nat → Bool) : NMap α := m.filter (fun e => !p e.1)

end Sys2Proof.Machine
end

