-- ==== Sys2Proof/Machine/State.lean ====
section
/-! DEFINITION. The state of the hub as plain data, and the state after power-on reset. Registers are one sparse table keyed by
host byte address, whose unlisted entries read as the register map's reset value; configuration cells one keyed by section,
unit and cell; what the chapters describe beside registers is in the structures below, one table of records per kind of unit,
whose unlisted units are in the all-zero state. -/

namespace Sys2Proof.Machine
open Sys2Proof

/-- The four parts (spec/00). -/
inductive Variant where
  | dx192 | dx192n | dx192u | dx128
  deriving DecidableEq, Repr, Inhabited

/-- What a board and the manufacture fix: the variant and the straps and balls sampled at POR (R5, R31, R68, R342, R511). -/
structure Fixed where
  variant : Variant
  bootsrc : Fin 4
  htwA : Fin 4
  cmstr : Bool
  /-- VDDIO bank voltage classes as detected -/
  banks : BitVec 5
  deriving DecidableEq, Repr, Inhabited

/-- Why the hub stops. The spec names no behaviour at which it does: a failed hub is HALTED and still answers (R11, R447). -/
inductive Fault where
  /-- No command raises it (safe). -/
  | none
  deriving DecidableEq, Repr

/-- Why a command is turned away. -/
inductive Refusal where
  /-- A dispatch arm of a command without a meaning; every arm has one, so no command raises it (safe: the run would stop). -/
  | notModelled (mnemonic : String)
  deriving DecidableEq, Repr

/-- One sample: 24-bit value, 8-bit tag (SETTLE, CAL, BRIDGED, SAT, SUPPLY_DIP, ABORTED, GAP, LATE from bit 7 down, R103)
and time in units of 2^-16 ns on its timebase (R307). -/
structure Samp where
  val : BitVec 24
  tag : BitVec 8
  time : Nat
  deriving DecidableEq, Repr, Inhabited

/-- A sample waiting in a receive FIFO for its context (R104, R127). -/
structure FifoWord where
  ctx : Nat
  samp : Samp
  /-- a received sample; a placeholder takes its value when it leaves the FIFO (R99) -/
  real : Bool
  deriving DecidableEq, Repr, Inhabited

/-- Clock start and FCLK slew (spec/01 R10, R11, R15, R16). `step` counts the completed rows of R10's table. -/
structure Clk where
  step : Nat
  /-- lock attempts failed so far by the time, fabric and link PLL -/
  fails : NMap Nat
  /-- TCLK and FCLK domain clock gates open -/
  gates : Bool
  /-- REFCLK stopped during service: the time PLL holds its last control value -/
  holdover : Bool
  /-- a PLL's second lock attempt failed: every domain but WCLK and ACLK is held (R11) -/
  held : Bool
  /-- resting point the FCLK is moving to, with the 1/64 steps made -/
  slewTo : Nat
  slewStep : Nat
  /-- a further step held until the first one rests, and a step deferred until both PLLs are locked -/
  next : Option Nat
  deferred : Option Nat
  /-- the last count of 256 REFCLK edges failed (R11) -/
  recount : Bool
  /-- FCLK_planned of a reload that waits for FCLK to slew up to it (R16) -/
  plan : Option Nat
  deriving DecidableEq, Repr, Inhabited

/-- A word in the loader FIFO with the source that wrote it: 2 host, 3 cascade (R34, R35). -/
structure LdrWord where
  src : Nat
  word : Word
  deriving DecidableEq, Repr, Inhabited

/-- One staged cell write (R38). -/
structure Staged where
  key : Nat
  word : Word
  deriving DecidableEq, Repr, Inhabited

/-- The item a part's word stream is inside (R27): 0 none, 1 WRITE, 2 FILL word, 3 REL descriptor, 4 REL words. -/
structure LdrItem where
  kind : Nat
  unit : Nat
  offset : Nat
  left : Nat
  desc : Word
  deriving DecidableEq, Repr, Inhabited

/-- The loader's stream in progress (spec/02 R24 to R43). -/
structure Ldr where
  fifo : List LdrWord
  /-- the flash image being read: 0 none, 1 image A, 2 image B, and the image last booted from -/
  flash : Nat
  booted : Nat
  /-- a boot waits for the host or the cascade -/
  waiting : Bool
  partialLoad : Bool
  total : Nat
  mask : Nat
  seen : Nat
  lastSect : Nat
  plan : Option Nat
  builds : List Word
  /-- the part in progress: section, opt flag, first frame index, END seen, selected on this device -/
  inPart : Bool
  sect : Nat
  opt : Bool
  firstFrame : Nat
  ended : Bool
  sel : Bool
  item : LdrItem
  /-- staged writes, oldest first, and how many of them stood before the part in progress -/
  staged : List Staged
  partBase : Nat
  /-- payload words of the METRO frames of the stream (R43) -/
  metro : List Word
  hasMetro : Bool
  /-- the cell writes of the commit in progress that have not taken effect -/
  commit : List Staged
  /-- units of the commit in progress that have not reached their effect points -/
  todo : List (Nat × Nat)
  /-- tiles whose switch waited for a fade (R47) -/
  deferred : List Nat
  /-- the cycle plus one in which the last commit was taken, and its units (R78) -/
  taken : Nat
  units : List (Nat × Nat)
  deriving DecidableEq, Repr, Inhabited

/-- A staged register field waiting for the global commit (R78). -/
structure Shadow where
  addr : Nat
  lo : Nat
  len : Nat
  val : Nat
  deriving DecidableEq, Repr, Inhabited

/-- The host ports (spec/03). -/
structure HostIf where
  /-- words shifted out by the last read, in order: the hub's answer to the host, and the data CRC sent after them (R63) -/
  out : List Word
  crc : Option (BitVec 16)
  /-- the HTW target waits for the next START after a protocol error or a timeout -/
  htwIdle : Bool
  /-- staged fields awaiting the next global commit, and those a commit left for their unit's effect point (R78) -/
  shadows : List Shadow
  after : List Shadow
  deriving DecidableEq, Repr, Inhabited

/-- A target frame or a controller frame in progress on a sample port (spec/04). -/
structure Port where
  /-- 0 none, 1 shifting, 2 in the H select-high periods after a frame or a PORT reset, 3 a target frame that is ignored -/
  phase : Nat
  /-- frame start edge (TCLK cycle), stamp, and whether it started from a held start -/
  start : Nat
  stamp : Nat
  late : Bool
  /-- arrival cycle of a held start -/
  heldStart : Option Nat
  restart : Bool
  /-- plan entry of the frame in progress -/
  entry : Option Nat
  /-- capture edges of a target frame and the bits of each lane, first bit most significant -/
  edges : Nat
  lanes : NMap Nat
  /-- slots in which the bank was below warning, and bit 16 for the start edge -/
  dips : Nat
  /-- the frame will have its E edges; one of its checks failed -/
  whole : Bool
  bad : Bool
  fifo : List FifoWord
  gaps : List Nat
  /-- last sample delivered whole and checked, by context -/
  last : NMap (BitVec 24)
  /-- structural values switched by the global commit, and a tap word written, waiting for the frame boundary (R109, R117) -/
  newRole : Option Nat
  newDiv : Option Nat
  newTap : Option Word
  /-- training sweep: shadow tap, pass bits of each lane, target taps plus one, a completed sweep of mode ONCE -/
  sweep : Nat
  pass : NMap Nat
  target : NMap Nat
  swept : Bool
  /-- stamp words latched by a read of stamp0 -/
  latch : Nat
  /-- last stamp of a completed frame and its late, tdc and bad bits -/
  lastStamp : Nat
  flags : Nat
  deriving DecidableEq, Repr, Inhabited

/-- A two-wire controller (spec/05). -/
structure TwoWire where
  /-- 0 none, 1 poll, 2 host transfer: in progress, waiting for a retry, or behind a bus clear -/
  kind : Nat
  entry : Nat
  attempt : Nat
  late : Bool
  stamp : Nat
  dip : Bool
  /-- arrival cycle plus one of the held start it runs from (R126) -/
  since : Nat
  /-- waiting for a STOP and one bus free before a retry; after an arbitration loss or a bus error, for another device's STOP -/
  retry : Bool
  foreign : Bool
  arb : Bool
  /-- held starts: by entry, the arrival cycle plus one -/
  held : NMap Nat
  xferWait : Bool
  fifo : List FifoWord
  gaps : List Nat
  last : NMap (BitVec 24)
  deriving DecidableEq, Repr, Inhabited

/-- An event channel beside its registers (spec/10). -/
structure EvChan where
  /-- cycles of the producers presented and not yet taken by a firing -/
  presented : List Nat
  lastFire : Option Nat
  winStart : Nat
  /-- the latched stamp words: twice the stamp plus its held bit -/
  latch : Nat
  stamp : Nat
  heldFire : Bool
  /-- first cycle that a producer presented since the last unmute reaches the channel in, and first cycle of a held firing under a
  spacing that a reload has changed (R265, R270) -/
  live : Nat
  notBefore : Nat
  deriving DecidableEq, Repr, Inhabited

/-- Task inputs that acted in the latest delivery cycle (held plus one), and those whose coincidence is counted; of inputs outside TCLK
the cycle plus one in which they last acted, and whether a coincidence with it is counted (R262); the next cycle in which each counter
may present (R263). -/
structure EvSeen where
  cyc : Nat
  acted : List Nat
  counted : List Nat
  far : NMap (Nat × Bool)
  next : NMap Nat
  deriving DecidableEq, Repr, Inhabited

/-- A line of a queue's middle: its slot and how many of its eight words are held. -/
structure MidLine where
  slot : Nat
  n : Nat
  deriving DecidableEq, Repr, Inhabited

/-- A queue beside its registers (spec/11 R279 to R289). -/
structure Queue where
  tail : List QWord
  mid : List MidLine
  head : List QWord
  /-- the middle's line pointers and their second copies (held complemented by the hub, R289) -/
  wr : BitVec 19
  wrN : BitVec 19
  rd : BitVec 19
  rdN : BitVec 19
  /-- the producer that holds the write port, the words of its item held in the queue, and whether the rest is discarded -/
  holder : Option Nat
  inItem : Nat
  discard : Bool
  begun : Bool
  pkts : Nat
  thrDone : Bool
  /-- producer after which the round robin of the write port goes on, plus one (R281) -/
  turn : Nat
  deriving DecidableEq, Repr, Inhabited

/-- A rewind ring beside its registers (spec/11 R294 to R299). -/
structure Ring where
  /-- index of the next sample, mark, trigger sample, post-trigger samples wanted, first line kept -/
  next : Nat
  mark : Nat
  trig : Nat
  post : Nat
  /-- samples not yet in the stockpot, from the start of a line -/
  line : List Samp
  cut : Bool
  lost : Nat
  rdLost : Nat
  /-- read-out: pre-trigger length kept, position, end, header written, lines discarded unread, the index restarted since completion -/
  keep : Nat
  pos : Nat
  stop : Nat
  hdrDone : Bool
  gone : List Nat
  restarted : Bool
  /-- OR of the tags delivered -/
  orTag : BitVec 8
  startFlag : Bool
  overFlag : Bool
  /-- a fire ignored in IDLE: its cycle, and `fire_ign` and the count before it (R295) -/
  ign : Option (Nat × Bool × Nat)
  deriving DecidableEq, Repr, Inhabited

/-- A timebase: value in units of 2^-48 ns, remaining slew ticks, the latched now words (R307 to R312). -/
structure TimeBase where
  val : Nat
  slewTicks : Nat
  latch : Nat
  deriving DecidableEq, Repr, Inhabited

/-- A trigger's pending due time in units of 2^-16 ns (R313). -/
structure Trig where
  due : Nat
  deriving DecidableEq, Repr, Inhabited

/-- A TACH input: its last qualified edge and its stamps on every timebase (R317, R318). -/
structure Tach where
  any : Bool
  lastCyc : Nat
  stamps : NMap Nat
  latch : Nat
  deriving DecidableEq, Repr, Inhabited

/-- A kitchen timer action beside its registers (R319, R320). -/
structure KtAct where
  held : NMap Word
  /-- fraction of the next due time of a periodic action, in units of 2^-16 ns -/
  frac : Nat
  deriving DecidableEq, Repr, Inhabited

/-- A running recovery (spec/16 R445, R446). -/
structure Rec where
  scope : Nat
  unit : Nat
  start : Nat
  faults : Nat
  restarts : Nat
  escs : Nat
  /-- requested by the host through glb.reset -/
  host : Bool
  lostItems : Nat
  deriving DecidableEq, Repr, Inhabited

/-- A pending alarm slot (R450): its entry, or for the master's landing store 8,192 × (device + 1) + entry (R451), and the
words of its record. -/
structure AlarmSlot where
  key : Nat
  words : List Word
  deriving DecidableEq, Repr, Inhabited

/-- Alarms, logs and the configuration check beside their registers (spec/16). -/
structure Flt where
  recs : List Rec
  /-- pending slots of the HOST, CASCADE and RADIO paths in the order they became pending -/
  pend : NMap (List AlarmSlot)
  suppressed : Nat
  suppMask : Nat
  dropped : Nat
  /-- logs suppressed on the CASCADE path since its last SUPPRESSED record, and their types -/
  upSupp : Nat
  upMask : Nat
  /-- the RECOVERY record held until q62 exists -/
  heldRec : List Word
  /-- configuration units (section, unit) found mismatched and not yet passed again, and cells an upset changed -/
  upset : List (Nat × Nat)
  refs : NMap Word
  /-- DELAY_PARITY windows: window start and errors by tile -/
  dpWin : NMap (Nat × Nat)
  parity : NMap Nat
  coefSeen : List Nat
  deriving DecidableEq, Repr, Inhabited
/-- A word of a stage's delay line: the sample and whether its stored parity is bad (spec/06 R155). -/
structure HistWord where
  samp : Samp
  bad : Bool
  deriving DecidableEq, Repr, Inhabited

/-- A finished DETECT block waiting to be delivered (spec/08 R211). -/
structure DetBlock where
  i : List Int
  q : List Int
  flags : BitVec 8
  time : Nat
  deriving DecidableEq, Repr, Inhabited

/-- A stage of a context's chain (spec/07, spec/08). Positions are in units of 2^-24 input periods. -/
structure Stage where
  /-- inputs since the last synchronising reset, the delay line newest first, outputs computed -/
  n : Nat
  hist : List HistWord
  outs : Nat
  prev : BitVec 24
  /-- samples waiting to be taken -/
  inq : List Samp
  /-- value for bridging CAL inputs, CAL inputs discarded since the last taken one, tags due on the next output -/
  bridge : BitVec 24
  calGap : Bool
  gapDue : Bool
  lateDue : Bool
  /-- switched in the swap in progress, and outputs made since its request -/
  switched : Bool
  swOuts : Nat
  /-- words of the delay region with bad parity that hold no sample (SETTLE, DETECT); an evaluation of the block met one -/
  badW : List Nat
  blkBad : Bool
  /-- averager block: sum and count of the inputs included, inputs of the block, last input carried SETTLE, their tags -/
  sum : Int
  cnt : Nat
  inBlk : Nat
  wasSettle : Bool
  orTag : BitVec 8
  /-- RESAMPLE and ORDER: next output's position -/
  pos : Nat
  /-- ORDER: edge positions kept newest first, stamps not yet applied, edge and output indices, intervals, ratio, window -/
  edges : List Nat
  stamps : List Nat
  e : Nat
  eReal : Nat
  kNext : Nat
  uLast : Nat
  d : Nat
  dPrev : Nat
  dhat : Nat
  winLo : Nat
  winHi : Nat
  synthRun : Nat
  acquired : Bool
  /-- DETECT: phases in 2^-48 turns, accumulators, the block's first time and a finished block -/
  phase : List Nat
  iacc : List Int
  qacc : List Int
  blkTime : Nat
  done : Option DetBlock
  deriving DecidableEq, Repr, Inhabited

/-- A tile beside its registers: the swap in progress and the waiting one (bank, fade length), coefficient words whose stored parity is
bad (bank × 512 + index), whether a stage has run on it since its reset, and the cycle plus one of the last read of its utilisation
(R169). -/
structure Tile where
  swap : Option (Nat × Nat)
  wait : Option (Nat × Nat)
  badCoef : List Nat
  busy : Bool
  readAt : Nat
  deriving DecidableEq, Repr, Inhabited

/-- One digest point of a context (spec/06 R162): running CRC register (complemented, so that all zeros is its initial value),
samples of the block, block number, and finished blocks' digests not yet latched, each with whether it lost a sample. -/
structure Digest where
  crc : BitVec 32
  n : Nat
  num : Nat
  done : List (BitVec 32 × Bool)
  /-- the block in progress lost a sample or was touched by a flush -/
  spoilt : Bool
  /-- SAMPLE words queued before a restart, to be passed over -/
  skip : Nat
  deriving DecidableEq, Repr, Inhabited

/-- A context beside its registers (spec/06). -/
structure Ctx where
  inq : List Samp
  /-- the next sample in, the next word out carries GAP; no output since enable or reset -/
  gapIn : Bool
  gapOut : Bool
  begun : Bool
  /-- a GAP went with a withheld output: the next word out stands behind a MARK -/
  markDue : Bool
  /-- outputs of the primary and of the shadow copy that wait to be compared; the next one counts as a mismatch -/
  cmp : List Samp
  cmpS : List Samp
  slipped : Bool
  digIn : Digest
  digHead : Digest
  /-- latched block digests waiting for their partner: block number and digest -/
  blkIn : List (Nat × BitVec 32)
  blkHead : List (Nat × BitVec 32)
  spoiltBlk : List Nat
  digStop : Bool
  digLatch : Option (BitVec 32 × BitVec 32)
  deriving DecidableEq, Repr, Inhabited


/-- A spectral job (spec/09 R219 to R229). -/
structure Job where
  /-- tap samples from the start of the oldest incomplete block, oldest first, with the words whose stored parity is bad -/
  buf : List HistWord
  /-- cycle plus one of the last start (R220) -/
  started : Nat
  /-- a start waits for the next sample (TRIGGERED) -/
  armed : Bool
  /-- a block has ended since the gathering began: only the overlap remains of it -/
  ran : Bool
  /-- a completed block that waits for the engine, and how many of its samples `buf` no longer holds -/
  ready : Option (List HistWord)
  off : Nat
  /-- average: POWER one value per bin in units of 2^-92, COMPLEX real and imaginary parts in units of 2^-46, summed over the
  accepted blocks (LINEAR) -/
  acc : List Int
  cnt : Nat
  tag : BitVec 8
  time : Nat
  dropped : Bool
  parity : Bool
  deriving DecidableEq, Repr, Inhabited

/-- A spectral engine: its completed blocks in the order in which they are transformed, each its cycle and job (R222); whether it has
transformed since its reset, and the cycle plus one of the last read of its utilisation (R249). -/
structure Spc where
  order : List (Nat × Nat)
  busy : Bool
  readAt : Nat
  deriving DecidableEq, Repr, Inhabited

/-- A feature set: samples of the TIME block in progress, the six latched values and how many reads they still answer (R231, R250). -/
structure Fea where
  blk : List Samp
  latch : List Word
  reads : Nat
  deriving DecidableEq, Repr, Inhabited

/-- A FEATURE record waiting for the limit engine: set 0 TIME, 1 BAND, 2 BIN (R239). -/
structure FeaRec where
  ctx : Nat
  set : Nat
  tag : BitVec 8
  time : Nat
  vals : List Word
  /-- cycle in which it was finished -/
  cyc : Nat
  deriving DecidableEq, Repr, Inhabited

/-- The limit engine: input FIFO, entry-write buffer, and the bits of stored entry words an upset has flipped, by word number
4 × entry + word: 32 data bits, then 7 check bits (R239, R245, R246). -/
structure Lim where
  fifo : List FeaRec
  entry : Option Nat
  buf : NMap Word
  ups : NMap (BitVec 39)
  deriving DecidableEq, Repr, Inhabited
/-- A frame waiting to be sent on a link: the input it came from (0 to 2 the receive buffer of port UP, DN or BR, 3 the hub
itself, 8 + q CASCADE queue q, 128 + b sending bridge b), its class, the bridge bit and the frame. -/
structure TxItem where
  src : Nat
  cls : Nat
  bridge : Bool
  f : CasFrame
  deriving DecidableEq, Repr, Inhabited

/-- A cascade port beside its registers (spec/13 R332 to R341, R347). Tables by class: 0 TIME, 1 CTRL, 2 ALARM, 3 DATA. -/
structure Link where
  /-- frames waiting to be sent, oldest first -/
  txq : List TxItem
  /-- a CASCADE queue being read into a frame, with the words taken -/
  gather : Option (Nat × List QWord)
  /-- DATA input whose item the next DATA frame continues, and the input that sent last -/
  cont : Option Nat
  rr : Nat
  /-- frames sent and not acknowledged, oldest first; how many of the newest of them are to be sent again; times the oldest was -/
  retry : NMap (List TxItem)
  again : NMap Nat
  resent : NMap Nat
  seqTx : NMap Nat
  seqRx : NMap Nat
  /-- cumulative credits the partner released, used, and this end released (modulo 2^14) -/
  got : NMap Nat
  used : NMap Nat
  released : NMap Nat
  /-- ordered sets owed or last sent: acknowledged sequence plus one, and a NAK whose sequence has not yet arrived -/
  acked : NMap Nat
  nak : NMap Bool
  /-- frames kept in the receive buffer until the hub takes them: DATA waiting for its landing queue, ALARM for a free key -/
  rx : List TxItem
  /-- device number the partner had -/
  dev : Nat
  /-- bytes of the frame that went last, between SOF and EOF (R335) -/
  line : List Byte
  /-- time exchange in progress: number, t1 (parent) or t2 and t3 (child), and the cycle of the SYNC -/
  exNum : Nat
  t1 : Option Nat
  t2 : Option Nat
  t3 : Option Nat
  syncCyc : Nat
  deriving DecidableEq, Repr, Inhabited

/-- A context bridge: samples waiting to be sent with the output counts their MARK records name, or received with their release times
(LATE was decided on arrival); whether the next sample carries GAP; the device plus one the last received frame came from. -/
structure Bridge where
  fifo : List Samp
  due : List Nat
  gap : Bool
  src : Nat
  deriving DecidableEq, Repr, Inhabited

/-- An item being landed from an input: its queue plus one, 0 for a discarded item. -/
structure Landing where
  busy : Bool
  dest : Nat
  deriving DecidableEq, Repr, Inhabited

/-- The cascade beside its ports (spec/13). -/
structure Cas where
  /-- enumeration walk: 0 idle, 1 the DN subtree, 2 the BR subtree; number, hops, path and next free number taken -/
  phase : Nat
  num : Nat
  hops : Nat
  path : Word
  next : Nat
  /-- a walk started by RENUM, and the number of devices the parent expects -/
  renum : Option Nat
  /-- a returning subtree is being renumbered on this port (plus one) -/
  renumPort : Nat
  /-- first enumeration since reset done -/
  begun : Bool
  /-- landing by input, the input plus one that holds a destination queue, the last stream landed plus one -/
  land : NMap Landing
  hold : NMap Nat
  last : NMap Nat
  bridge : NMap Bridge
  /-- θ of the last exchanges newest first in units of 2^-16 ns / 250, and consecutive small ones -/
  theta : List Int
  good : Nat
  /-- remote request: tag and, while one waits, its device -/
  tag : Nat
  rqDev : Option Nat
  bs : List Word
  deriving DecidableEq, Repr, Inhabited
/-- A command of the radio sequencer (spec/14 R368, R376): op as `rad.cmd.op`; the node it serves, 0 for none; the alarm slot it
carries plus one; whether it is the beacon; channel, PHY mode, power code, start time and frame. -/
structure RadCmd where
  op : Nat
  node : Nat
  alarm : Nat
  beacon : Bool
  tdma : Bool
  chan : Nat
  phy : Nat
  power : Nat
  step : Nat
  start : Option Nat
  bytes : List Byte
  deriving DecidableEq, Repr, Inhabited

/-- The producer a TX_ABORT presents: that of the node, for a beacon or a MANUAL transmission the transceiver's state change (R377). -/
def RadCmd.abortProducer (c : RadCmd) : Nat := if c.node = 0 || !c.tdma then 0x9000 else 0x9200 + c.node

/-- A sample waiting in a node's buffer: its radio channel, release time, and the sample. -/
structure NodeSamp where
  chan : Nat
  due : Nat
  samp : Samp
  deriving DecidableEq, Repr, Inhabited

/-- A radio node beside its registers (spec/14 R382 to R386). -/
structure RadNode where
  miss : Nat
  /-- a frame was accepted since admission -/
  heard : Bool
  buf : List NodeSamp
  /-- contexts whose next sample carries GAP -/
  gaps : List Nat
  /-- last release time by channel, plus one -/
  last : NMap Nat
  /-- a frame of its downlink buffer is asked for -/
  want : Bool
  deriving DecidableEq, Repr, Inhabited

/-- The radio beside its registers (spec/14). -/
structure Radio where
  /-- effective mode: 0 OFF, 1 MANUAL, 2 TDMA -/
  mode : Nat
  chan : Nat
  phy : Nat
  /-- the channel the transition in progress locks on -/
  goal : Nat
  cmd : Option RadCmd
  held : Option RadCmd
  /-- states the transition in progress still passes -/
  path : List Nat
  /-- calibration step running: 0 SYNTH, 1 IMAGE, 2 FILTER, with its channel or PHY mode -/
  cal : Option (Nat × Nat)
  /-- its start on the radio timebase -/
  calAt : Nat
  /-- the octets on air of the last transmission and its power in dBm (R370 to R372) -/
  air : List Byte
  dbm : Int
  /-- stored calibration temperatures plus 129: SYNTH by channel, IMAGE and FILTER by PHY mode -/
  synth : NMap Nat
  image : NMap Nat
  filt : NMap Nat
  /-- a superframe runs: its start time, next slot, and what reception is open: 0 none, a node, 49 ADMIT, 50 MANUAL -/
  sfOn : Bool
  sfTime : Nat
  /-- TCLK cycle of the last superframe start -/
  sfCyc : Nat
  slot : Nat
  rx : Nat
  heard : List Nat
  /-- start times plus one by the low 16 bits of the superframe number -/
  starts : NMap Nat
  /-- the answer the next beacon carries, and the node answered by the last one -/
  answer : Option (Word × Nat)
  entrant : Option Nat
  node : NMap RadNode
  /-- crystal load trim in steps of 0.5 ppm -/
  xtrim : Int
  deriving DecidableEq, Repr, Inhabited
/-- A MET sample in the MCLK-to-FCLK FIFO: channel, TCLK cycle of arrival, sample on tb_met (R400). -/
structure MetWord where
  ch : Nat
  cyc : Nat
  /-- tb_net less the follower of tb_met at its arrival, in units of 2^-16 ns (R399) -/
  diff : Int
  samp : Samp
  deriving DecidableEq, Repr, Inhabited

/-- A certified channel of the partition beside its registers (spec/15 R398 to R407). -/
structure MetCh where
  /-- consecutive refused seams; samples still to carry SETTLE; the next sample carries GAP -/
  refused : Nat
  settle : Nat
  gap : Bool
  /-- the second in progress: OR of its tags, a sample that contributes; whole seconds since start -/
  tags : BitVec 8
  got : Bool
  age : Nat
  /-- evidence interval ends until SUSPECT clears -/
  suspect : Nat
  /-- the evidence interval: sum of v² in units of 2^-298 and seconds counted, a second was excluded, DIP or SAT, SUSPECT seen -/
  vsum : Nat
  vcnt : Nat
  excl : Bool
  dipSat : Bool
  susp : Bool
  deriving DecidableEq, Repr, Inhabited

/-- The sealed metrology partition (spec/15). Its lid fields are registers of its windows, kept in FeRAM. -/
structure Met where
  regs : NMap Word
  /-- out of MPOR -/
  up : Bool
  /-- METRO cells in force, by section key, and the outcome they were taken with: 0 unconfigured, 1 LOADED, 2 VERIFIED -/
  cells : NMap Word
  outcome : Nat
  /-- tb_met in units of 2^-48 ns, its increment in units of 2^-32 ns per MCLK tick; a step was made from NET -/
  val : Nat
  incr : Nat
  netStep : Bool
  ch : NMap MetCh
  /-- rotation step: 0 waiting, 1 the spare calibrates, 2 the parallel run; stopped by a BAD spare; BAD converters; the channel
  the next step takes; corrections of the converters, offset in LSB and gain in ppm -/
  phase : Nat
  stopped : Bool
  bad : Nat
  nextCh : Nat
  corr : NMap (Int × Int)
  /-- held seam entries, and whether one of them was forced -/
  seams : List Word
  forced : Bool
  /-- evidence log: records by slot; entries lost since the last LOSS and their types; the last POSITION record -/
  log : NMap (List Word)
  lost : Nat
  lostMask : Nat
  pos : Option (Nat × Nat × Nat)
  /-- CALIBRATE running: channel, duration, samples, sum and sum of squares -/
  calCh : Option Nat
  calDur : Nat
  calN : Nat
  calSum : Int
  calSq : Nat
  /-- the first alignment restart was made; phase error left in MCLK cycles; conversions since the last move -/
  aligned : Bool
  phaseErr : Nat
  convs : Nat
  /-- partition rails below warning, bit per rail code -/
  warn : Nat
  /-- generation of the lid's newer copies (R420) -/
  gen : Nat
  deriving DecidableEq, Repr, Inhabited

/-- A self-test of a memory group (spec/17 R463 to R469): it runs, its algorithm, the cycle it began in, the cause that ended it
early, its restore pass, and a completion that waits for the recovery at a destructive test's end. -/
structure StTest where
  run : Bool
  alg : Nat
  start : Nat
  cause : Nat
  restore : Bool
  waiting : Option (List Nat)
  deriving DecidableEq, Repr, Inhabited

/-- Self-test, planner and life cycle beside their registers (spec/17). -/
structure Hlt where
  test : NMap StTest
  /-- the life-cycle state has been read since POR; the DX-192U's factory cells -/
  lcKnown : Bool
  factory : Nat
  /-- control cycles since POR or DEVICE; the cycle of the last one; µs of control cycles since POR and in this month -/
  cycles : Nat
  lastCyc : Nat
  micros : Nat
  month : Nat
  /-- VDDC settles; the ageing budget is spent; steps this month -/
  settling : Bool
  budget : Bool
  steps : Nat
  /-- the month's least eye widths by port plus one, highest and lowest die temperature plus 129 -/
  eyeMin : NMap Nat
  tempHi : Nat
  tempLo : Nat
  /-- the month's transparent tests passed, tests not passed, CFG_UPSET faults and recoveries -/
  passed : Nat
  notPassed : Nat
  upsets : Nat
  recs : Nat
  /-- planner entries: µs of the last start, and those counted as deferred -/
  last : NMap Nat
  deferred : List Nat
  /-- a WCLK retrim waits to be applied; the month's FCLK step up waits for VDDC to settle (R475) -/
  retrim : Bool
  wantUp : Bool
  /-- the fields a POR resets have taken their cells since (`hlt.plan.vddc`, `rad.wake`) -/
  seeded : Bool
  deriving DecidableEq, Repr, Inhabited

/-- A rail's supervisor (spec/18 R496, R497): in a dip, its first cycle, lowest voltage, window start plus one, reset level
reached, dips since POR. -/
structure Dip where
  on : Bool
  start : Nat
  low : Nat
  win : Nat
  atReset : Bool
  count : Nat
  deriving DecidableEq, Repr, Inhabited

/-- Supplies, sleep and wake beside their registers (spec/18). -/
structure Sup where
  dip : NMap Dip
  /-- a rail caused the last POR and its RESET record is not yet written, rail plus one -/
  resetRec : Nat
  /-- source that asked for a wake; the hub has woken and its full load has not yet taken effect -/
  wake : Nat
  woke : Bool
  deriving DecidableEq, Repr, Inhabited

/-- The hub outside the sealed partition. -/
structure Hub where
  regs : NMap Word
  cells : NMap Word
  clk : Clk
  ldr : Ldr
  host : HostIf
  sp : NMap Port
  tw : NMap TwoWire
  /-- place at which the ingress path's round robin goes on (R104) -/
  ingress : Nat
  ctx : NMap Ctx
  /-- stages, numbered 8 × chain + position; chains 192 to 383 are the shadow copies of contexts 0 to 191 -/
  stg : NMap Stage
  tile : NMap Tile
  ev : NMap EvChan
  evSeen : EvSeen
  q : NMap Queue
  /-- the stockpot's 64 data bits by word; its check bits are a function of data and address (R290) -/
  stock : NMap (BitVec 64)
  /-- what a destructive test left in every word: the data of a word is the entry of `stock` with these bits flipped (R463) -/
  stockFill : BitVec 64
  dbgHeld : NMap Word
  ring : NMap Ring
  /-- words producers have not yet written into their queues, with the queue of each (R284) -/
  outbox : NMap (List (Nat × QWord))
  tb : NMap TimeBase
  trig : NMap Trig
  /-- TRG outputs asserted: the cycle in which each pulse ends (R316) -/
  trg : NMap Nat
  tach : NMap Tach
  kt : NMap KtAct
  flt : Flt
  /-- spectral jobs, numbered 64 × engine + job -/
  job : NMap Job
  spc : NMap Spc
  fea : NMap Fea
  lim : Lim
  /-- cascade ports: 0 UP, 1 DN, 2 BR -/
  link : NMap Link
  cas : Cas
  rad : Radio
  hlt : Hlt
  sup : Sup
  /-- copy of tb_met as the time unit shows it (R308) -/
  tbMet : Nat
  /-- the copy follows tb_met; after a hub POR it reads 0 until the partition reloads it (R411) -/
  metFollows : Bool
  /-- MET samples on the fabric side, and channels whose next sample carries GAP (R400) -/
  metFifo : List MetWord
  metGap : List Nat
  /-- TCLK cycles counted -/
  cyc : Nat
  /-- the hub sleeps, only the kettle runs (R502) -/
  asleep : Bool
  /-- counter of free values taken -/
  free : Nat
  deriving DecidableEq, Repr, Inhabited
/-- The machine: what manufacture and board fix, the hub, the partition, and the commands waiting, first in, first out. -/
structure State where
  fixed : Fixed
  hub : Hub
  met : Met
  pending : List Instr
  deriving DecidableEq, Repr

/-- The hub at the release of power-on reset: every register at its reset value, nothing loaded, nothing in progress. The two lid
fields show OPEN, in which parts ship (R6, R460). -/
def Hub.reset : Hub :=
  { (default : Hub) with
    regs := [(0x4, 0x02000900#32), (0x1F0000, 0x20000000#32)], hlt := { (default : Hlt) with factory := 1 } }

/-- The partition as shipped, OPEN with an empty log, its MPOR not yet released (R459, R460). -/
def Met.reset : Met :=
  { (default : Met) with
    regs := [(0x800100, 0x20000000#32), (0x800118, 8128#32), (0x800214, 0x100#32), (0x800224, 0x200#32), (0x800234, 0x300#32),
      (0x800244, 0x400#32), (0x800254, 0x500#32), (0x800264, 0x600#32), (0x800274, 0x700#32)]
    incr := 0x30D4000000 }

/-- The state after power-on reset of a DX-192 whose straps read 0. -/
def State.reset : State :=
  { fixed := { variant := .dx192, bootsrc := 0, htwA := 0, cmstr := false, banks := 0 }
    hub := Hub.reset, met := Met.reset, pending := [] }

end Sys2Proof.Machine
end

