-- ==== Sys2Proof/Machine/Regs.lean ====
section
/-! DEFINITION. Reading and writing registers, the two interrupt lines (spec/03 R76, R77, R83), and the lifts by which a command
of one part acts on the whole state. -/

namespace Sys2Proof.Machine
open Sys2Proof

/-! ### Registers and cells -/

/-- The stored word of a register. -/
def Hub.reg (h : Hub) (a : Nat) : Word := NMap.getD h.regs a (resetWord a)

/-- Store a register's word. -/
def Hub.setReg (h : Hub) (a : Nat) (w : Word) : Hub := { h with regs := NMap.setD h.regs a w (resetWord a) }

/-- A field of a register, as a number. -/
def Hub.rd (h : Hub) (f : Fld) : Nat := fieldOf (h.reg f.addr) f.lo f.len

/-- A one-bit field. -/
def Hub.is (h : Hub) (f : Fld) : Bool := h.rd f != 0

/-- Store a field. -/
def Hub.wr (h : Hub) (f : Fld) (n : Nat) : Hub := h.setReg f.addr (putField (h.reg f.addr) f.lo f.len n)

/-- Set a one-bit field. -/
def Hub.on (h : Hub) (f : Fld) : Hub := h.wr f 1

/-- Clear a field. -/
def Hub.off (h : Hub) (f : Fld) : Hub := h.wr f 0

/-- Add to a count that wraps. -/
def Hub.count (h : Hub) (f : Fld) (n : Nat) : Hub := h.wr f (h.rd f + n)

/-- Add to a count that saturates at its all-ones value. -/
def Hub.countSat (h : Hub) (f : Fld) (n : Nat) : Hub := h.wr f (satTo f.len (h.rd f + n))

/-- The partition's registers. -/
def Met.reg (m : Met) (a : Nat) : Word := NMap.getD m.regs a (resetWord a)
def Met.setReg (m : Met) (a : Nat) (w : Word) : Met := { m with regs := NMap.setD m.regs a w (resetWord a) }
def Met.rd (m : Met) (f : Fld) : Nat := fieldOf (m.reg f.addr) f.lo f.len
def Met.is (m : Met) (f : Fld) : Bool := m.rd f != 0
def Met.wr (m : Met) (f : Fld) (n : Nat) : Met := m.setReg f.addr (putField (m.reg f.addr) f.lo f.len n)
def Met.on (m : Met) (f : Fld) : Met := m.wr f 1
def Met.off (m : Met) (f : Fld) : Met := m.wr f 0
def Met.count (m : Met) (f : Fld) (n : Nat) : Met := m.wr f (m.rd f + n)

/-! ### Interrupt lines (R76, R77, R83) -/

/-- A group of status registers with their enables: first address, stride, copies, offset of the enable register, the bits that
are causes of IRQ0 and of IRQ1, and the block's bit in `glb.irq0_stat` and `glb.irq1_stat`. -/
structure IrqSrc where
  first : Nat
  stride : Nat
  copies : Nat
  en : Nat
  m0 : Word
  m1 : Word
  block : Nat
  deriving DecidableEq, Repr

def irqSupply : IrqSrc := ⟨0x010104, 4, 1, 4, 0x2FFF#32, 0x1000#32, 0⟩
def irqLoader : IrqSrc := ⟨0x020004, 4, 1, 0x28, 0x1A80000#32, 0x500000#32, 1⟩
def irqPort : IrqSrc := ⟨0x040008, 0x800, 24, 4, 0x1022#32, 0xFDC#32, 2⟩
def irqTw : IrqSrc := ⟨0x060004, 0x400, 8, 4, 0x3C00#32, 0x3FF#32, 3⟩
def irqTile : IrqSrc := ⟨0x080000, 0x1000, 32, 4, 0x18#32, 0x6#32, 4⟩
def irqCtx : IrqSrc := ⟨0x0A0000, 0x40, 192, 4, 0x8A#32, 0x74#32, 4⟩
def irqSpc : IrqSrc := ⟨0x100000, 0x1000, 4, 4, 0x6#32, 0x18#32, 5⟩
def irqFea : IrqSrc := ⟨0x110000, 0x40, 192, 4, 0x4#32, 0x2#32, 5⟩
def irqLim : IrqSrc := ⟨0x170004, 4, 1, 4, 0x72#32, 0xC#32, 6⟩
def irqQueue : IrqSrc := ⟨0x1A0004, 0x400, 64, 4, 0xE6#32, 0x18#32, 8⟩
def irqRing : IrqSrc := ⟨0x1B0004, 0x20, 192, 4, 0x2D#32, 0x12#32, 8⟩
def irqTime : IrqSrc := ⟨0x1C3000, 4, 1, 4, 0x38#32, 0x7#32, 9⟩
def irqLink : IrqSrc := ⟨0x1D0000, 0x100, 3, 4, 0xA#32, 0x1F4#32, 10⟩
def irqCas : IrqSrc := ⟨0x1D0310, 4, 1, 4, 0x19#32, 0x66#32, 10⟩
def irqRad : IrqSrc := ⟨0x1E0004, 4, 1, 4, 0x4EC#32, 0x312#32, 11⟩
def irqHlt : IrqSrc := ⟨0x1F0004, 4, 1, 4, 0x1E#32, 0x1E0#32, 12⟩
def irqFlt : IrqSrc := ⟨0x1F8000, 4, 1, 4, 0xE#32, 0x70#32, 12⟩

/-- The groups whose registers the hub holds. -/
def irqSrcs : List IrqSrc :=
  [irqSupply, irqLoader, irqPort, irqTw, irqTile, irqCtx, irqSpc, irqFea, irqLim, irqQueue, irqRing, irqTime, irqLink, irqCas,
    irqRad, irqHlt, irqFlt]

/-- Unit `n` of a group raises line 0 (IRQ0) or 1 (IRQ1). -/
def Hub.irqUnit (h : Hub) (x : IrqSrc) (line n : Nat) : Bool :=
  h.reg (x.first + x.stride * n) &&& h.reg (x.first + x.stride * n + x.en) &&& (if line = 0 then x.m0 else x.m1) != 0#32

/-- The units of a group that raise a line, of `len` units from `n0`, as the bits of a summary word. -/
def Hub.irqUnits (h : Hub) (x : IrqSrc) (line n0 len : Nat) : Nat :=
  (List.range len).foldl (fun a i => if decide (n0 + i < x.copies) && h.irqUnit x line (n0 + i) then a + 2 ^ i else a) 0

/-- A group raises a line: a status register that reads 0 raises nothing, so only the listed registers count. -/
def Hub.irqGroup (h : Hub) (x : IrqSrc) (line : Nat) : Bool :=
  h.regs.any (fun e =>
    decide (x.first ≤ e.1) && (e.1 - x.first) % x.stride == 0 && decide ((e.1 - x.first) / x.stride < x.copies) &&
      h.irqUnit x line ((e.1 - x.first) / x.stride))

/-- A bit of `glb.irq0_stat` or `glb.irq1_stat`. -/
def irqBlock (h : Hub) (m : Met) (line b : Nat) : Bool :=
  irqSrcs.any (fun x => x.block == b && h.irqGroup x line) ||
  (if b = 0 then (if line = 0 then h.is fClkSleepRefused else h.is fClkStatusLockLost || h.is fClkStatusRefclkLost)
  else if b = 7 then
    let four (a : Nat) : Bool := (List.range 4).any (fun k => h.reg (a + 4 * k) != 0#32)
    (if line = 0 then four 0x180030 else four 0x180040 || (h.is fEvCfgStormIrq && four 0x180020))
  else if b = 13 then
    m.reg 0x800030 &&& m.reg 0x800034 &&& (if line = 0 then 0x1C0#32 else 0x3E#32) != 0#32
  else if b = 14 then line == 1 && h.reg 0x104 &&& 0x7FF0#32 != 0#32
  else false)

/-- `glb.irq0_stat` or `glb.irq1_stat`. -/
def irqStat (h : Hub) (m : Met) (line : Nat) : Nat :=
  (List.range 15).foldl (fun a b => if irqBlock h m line b then a + 2 ^ b else a) 0

/-- A line is active (R76): a summary bit that is enabled, or on IRQ1 the clock failure of R11. -/
def irqActive (h : Hub) (m : Met) (line : Nat) : Bool :=
  (List.range 15).any (fun b => bitOf (h.reg (if line = 0 then 0x20 else 0x28)) b && irqBlock h m line b) ||
    (line == 1 && h.clk.held)

/-- A line that becomes active sets its pending bit in `glb.wake` (R77). -/
def latchIrq (h0 : Hub) (m0 : Met) (h : Hub) (m : Met) : Hub :=
  let h1 := if !irqActive h0 m0 0 && irqActive h m 0 then h.wr fGlbWakePend (h.rd fGlbWakePend ||| 1) else h
  if !irqActive h0 m0 1 && irqActive h m 1 then h1.wr fGlbWakePend (h1.rd fGlbWakePend ||| 2) else h1

/-- The level the IRQ0 or IRQ1 ball is driven to (R76): active low unless `hst.cfg.irq_pol` is 1. -/
def irqPin (h : Hub) (m : Met) (line : Nat) : Bool := irqActive h m line == h.is fHstCfgIrqPol

/-- WAKE_OUT is driven low (R77). -/
def Hub.wakeOut (h : Hub) : Bool := h.rd fGlbWakePend &&& h.rd fGlbWakeEn != 0

/-! ### Lifting to the whole state -/

/-- Outcome of a step. -/
abbrev Out := Host.Outcome State Fault Refusal

/-- A command whose effect may reach the hub and the partition (R396). -/
def liftBoth (s : State) (f : Fixed → Hub → Met → Hub × Met) : Out :=
  let r := f s.fixed s.hub s.met
  .next { s with hub := latchIrq s.hub s.met r.1 r.2, met := r.2 }

/-- A command that acts on the hub alone: what manufacture fixed, the sealed partition and the waiting commands stay. -/
def liftHub (s : State) (f : Fixed → Hub → Hub) : Out :=
  .next { s with hub := latchIrq s.hub s.met (f s.fixed s.hub) s.met }

/-- A command that acts on the partition alone: of the hub only the interrupt lines follow. -/
def liftMet (s : State) (f : Fixed → Met → Met) : Out :=
  .next { s with hub := latchIrq s.hub s.met s.hub (f s.fixed s.met), met := f s.fixed s.met }

end Sys2Proof.Machine
end

