-- ==== Sys2Proof/Machine/Ops.lean ====
section
/-! DEFINITION. The named operations over the hub's cells, time, events, queues, faults and outgoing words, used by every
command. -/

namespace Sys2Proof.Machine
open Sys2Proof

/-! ### Configuration cells -/

/-- The key of a configuration cell: section, unit, cell (R26). -/
def cellKey (sect unit cell : Nat) : Nat := sect * 1048576 + unit * 4096 + cell

/-- A cell's load default (R513). -/
def cellDefault (k : Nat) : Word :=
  let sect := k / 1048576
  let unit := k / 4096 % 256
  let cell := k % 4096
  if sect = 9 ∧ 4 ≤ cell ∧ cell ≤ 7 then 0xFFFFFFFF#32
  else if sect = 10 ∧ unit < 16 ∧ cell = 0 then 1#32
  else if sect = 10 ∧ unit < 16 ∧ cell = 1 then 0x40000000#32
  else 0#32

/-- A configuration cell. -/
def Hub.cell (h : Hub) (sect unit cell : Nat) : Word :=
  NMap.getD h.cells (cellKey sect unit cell) (cellDefault (cellKey sect unit cell))

/-- A field of a configuration cell. -/
def Hub.cf (h : Hub) (sect unit cell lo len : Nat) : Nat := fieldOf (h.cell sect unit cell) lo len

/-- Write a configuration cell. -/
def Hub.setCell (h : Hub) (k : Nat) (w : Word) : Hub := { h with cells := NMap.setD h.cells k w (cellDefault k) }

/-- The units of a section with a cell away from its load default: the used units (R513). -/
def Hub.usedUnits (h : Hub) (sect : Nat) : List Nat :=
  dedup ((h.cells.filter (fun e => e.1 / 1048576 == sect)).map (fun e => e.1 / 4096 % 256))

/-- A unit of a section is used. -/
def Hub.used (h : Hub) (sect unit : Nat) : Bool := h.cells.any (fun e => e.1 / 4096 == sect * 256 + unit)

/-! ### What a variant holds (R2, R3) -/

def Variant.ctxCount : Variant → Nat | .dx128 => 128 | _ => 192
def Variant.tileCount : Variant → Nat | .dx128 => 16 | _ => 32
def Variant.spcCount : Variant → Nat | .dx128 => 2 | _ => 4
def Variant.qCount : Variant → Nat | .dx128 => 40 | _ => 64
def Variant.spCount : Variant → Nat | .dx128 => 16 | _ => 24
def Variant.linkCount : Variant → Nat | .dx128 => 2 | _ => 3
def Variant.hasRad : Variant → Bool | .dx192n => false | _ => true
def Variant.hasMet : Variant → Bool | .dx192u => false | _ => true
/-- Queues q00 to q37, q62 and q63 are present in the DX-128. -/
def Variant.hasQueue (v : Variant) (q : Nat) : Bool :=
  match v with
  | .dx128 => q < 38 || q == 62 || q == 63
  | _ => q < 64

/-- The capability word (R1, R2). -/
def Variant.caps (v : Variant) : Word :=
  match v with
  | .dx192 => 0x7020903E#32
  | .dx192n => 0x70209032#32
  | .dx192u => 0x7020903C#32
  | .dx128 => 0x60104A0E#32

/-! ### Time (R307 to R312) -/

/-- One second and one nanosecond in units of 2^-48 ns. -/
def nsUnits : Nat := 2 ^ 48
def secUnits : Nat := 1000000000 * 2 ^ 48
/-- A timebase's values wrap with the 64-bit seconds. -/
def tbWrap : Nat := 2 ^ 64 * secUnits

/-- The increment of a timebase in units of 2^-32 ns, from its registers (R309). -/
def Hub.tbIncr (h : Hub) (n : Nat) : Nat := h.rd (fTmTbIncHiIncHi n) * 2 ^ 32 + h.rd (fTmTbIncLoIncLo n)

/-- What one tick adds, the running slew included (R311), in units of 2^-32 ns. -/
def Hub.tbAdd (h : Hub) (n : Nat) : Int :=
  (h.tbIncr n : Int) + (if (NMap.get h.tb n).slewTicks = 0 then 0 else signedOf (h.rd (fTmTbSlewAdjSlewAdj n)) 32)

/-- The value of a timebase in units of 2^-48 ns: 0 to 15 local, 16 tb_net, 17 tb_met. -/
def Hub.tbVal (h : Hub) (n : Nat) : Nat := if n = 17 then h.tbMet else (NMap.get h.tb n).val

/-- The value the next TCLK edge brings. -/
def Hub.tbNext (h : Hub) (n : Nat) : Nat :=
  if n = 17 then h.tbMet else (((h.tbVal n : Int) + h.tbAdd n * 65536) % (tbWrap : Int)).toNat

/-- A value as reported: truncated to 2^-16 ns (R307). -/
def report (v : Nat) : Nat := v / 2 ^ 32

/-- The four words of a reported time (R277): seconds high, seconds low, nanoseconds, fraction in [31:16]. -/
def timeWords (t : Nat) : List Word :=
  let s := t / 65536000000000
  let r := t % 65536000000000
  [w32 (s / 2 ^ 32), w32 s, w32 (r / 65536), w32 (r % 65536 * 65536)]

/-- The reported time spelled by register words. -/
def ofTimeWords (a b c f : Nat) : Nat := (a * 2 ^ 32 + b) * 65536000000000 + c * 65536 + f

/-- tb_net now, as records of unit sources carry it (R277). -/
def Hub.netNow (h : Hub) : Nat := report (h.tbVal 16)

/-- The timebase code of a cell field: 0 to 15 local, 16 tb_net. -/
def Hub.timeOn (h : Hub) (code : Nat) : Nat := report (h.tbVal code)

/-! ### Queue words and records (R276, R277) -/

/-- A queue word. -/
def qword (last : Bool) (kind aux : Nat) (payload : Word) : QWord :=
  BitVec.ofNat 40 (b2n last * 2 ^ 39 + kind * 2 ^ 36 + aux * 2 ^ 32 + payload.toNat)

/-- The words of a record as queue words of its kind, the last with the end mark. -/
def recordWords (kind : Nat) : List Word → List QWord
  | [] => []
  | [w] => [qword true kind 0 w]
  | w :: ws => qword false kind 0 w :: recordWords kind ws

/-- A record header: type, source, length. -/
def recHeader (typ src len : Nat) : Word := w32 (typ * 2 ^ 24 + src * 2 ^ 16 + len)

/-- The payload of a SAMPLE word: tag and sample (R276). -/
def sampWord (x : Samp) : Word := BitVec.ofNat 32 (x.tag.toNat * 2 ^ 24 + x.val.toNat)

/-- Give words to a producer, for it to write into queue `q` one after another (R281, R284). -/
def Hub.pushOut (h : Hub) (producer q : Nat) (ws : List QWord) : Hub :=
  { h with outbox := NMap.modify h.outbox producer (fun l => l ++ ws.map (fun w => (q, w))) }

/-- A producer loses its words, but for the rest of an item a queue has already taken words of. -/
def Hub.cutOutbox (h : Hub) (p : Nat) : Hub :=
  let ws := NMap.get h.outbox p
  let busy := h.q.any (fun e => e.2.holder == some p && e.2.inItem != 0)
  let kept := if busy then
      match ws.findIdx? (fun w => w.2.getLsbD 39) with
      | some k => ws.take (k + 1)
      | none => ws
    else []
  { h with outbox := NMap.set h.outbox p kept }

/-- Producer numbers of the outbox: contexts, feature sets, ring read-outs, spectral engines, and the path writers. -/
def prodFea (c : Nat) : Nat := 192 + c
def prodRing (c : Nat) : Nat := 384 + c
def prodSpc (e : Nat) : Nat := 576 + e
def prodAlarm : Nat := 584
def prodLog : Nat := 585
def prodTrace : Nat := 586
def prodLand (q : Nat) : Nat := 1024 + q

/-- The word a read returns to the host. -/
def Hub.toHost (h : Hub) (w : Word) : Hub := { h with host := { h.host with out := [w], crc := none } }

/-! ### Queues as other units see them -/

/-- A queue is enabled by its QUEUES cell 0x000 of the structure in force. -/
def Hub.qEnabled (h : Hub) (q : Nat) : Bool := h.is fLdrStatusConfigured && h.cf 9 q 0 0 1 == 1

/-- Capacity, 32 + 8L words (R279). -/
def Hub.qCap (h : Hub) (q : Nat) : Nat := 32 + 8 * h.cf 9 q 0 2 19

/-- Words held in tail, middle and head (R282). -/
def Queue.level (x : Queue) : Nat := x.tail.length + (x.mid.map (fun m => m.n)).sum + x.head.length

/-- Words producers have ready for a queue beside those it holds. -/
def Hub.qWaiting (h : Hub) (producer q : Nat) : Nat :=
  ((NMap.get h.outbox producer).filter (fun e => e.1 == q)).length

/-! ### Recoveries as other units see them (R443, R445) -/

/-- A wider scope contains a narrower one for the units it covers (R6): QUEUE 1, CONTEXT 2, PORT 3, TILE 4, LINK 5, RADIO 6,
FABRIC 7, DEVICE 8, POR 9. -/
def scopeCovers (wide narrow : Nat) : Bool :=
  (wide == 7 && (narrow == 1 || narrow == 2 || narrow == 3 || narrow == 4)) ||
  (wide == 8 && narrow < 8 && 0 < narrow) || (wide == 9 && narrow < 9 && 0 < narrow)

/-- Tile `t` names tile `u` as its partner (R159). -/
def Hub.isPartner (h : Hub) (t u : Nat) : Bool := h.cf 5 t 0x800 5 1 == 1 && h.cf 5 t 0x800 0 5 == u

/-- A running recovery covers a unit: its own, a TILE recovery that of the partner too, or a wider one (R443). -/
def Hub.recCovers (h : Hub) (r : Rec) (scope unit : Nat) : Bool :=
  (r.scope == scope && (r.unit == unit || (scope == 4 && h.isPartner r.unit unit))) || scopeCovers r.scope scope

/-- A unit is under recovery. -/
def Hub.recovering (h : Hub) (scope unit : Nat) : Bool := h.flt.recs.any (fun r => h.recCovers r scope unit)

/-! ### Holds of the reduced monitor plan and of destructive self-tests (R465, R498, R499) -/

/-- The reduced plan is in force and its HEALTH unit 1 field is as given. -/
def Hub.planHolds (h : Hub) (cell lo : Nat) : Bool := h.is fClkSupNowReduced && h.cf 13 1 cell lo 1 == 1
def Hub.ctxHeld (h : Hub) (c : Nat) : Bool := h.is fClkSupNowReduced && h.cf 13 1 (2 + c / 32) (c % 32) 1 == 0
def Hub.portHeld (h : Hub) (p : Nat) : Bool := h.planHolds 1 p
def Hub.radHeld (h : Hub) : Bool := h.planHolds 0 13
def Hub.jobsHeld (h : Hub) : Bool := h.planHolds 0 14
def Hub.pollsHeld (h : Hub) : Bool := h.planHolds 0 15

/-- A rail holds its units (R494). -/
def Hub.railHeld (h : Hub) (r : Nat) : Bool := h.rd fClkSupNowHeld / 2 ^ r % 2 == 1
/-- The rail of a port's VDDIO bank (R493). -/
def spRail (p : Nat) : Nat := 3 + p / 8

/-- A destructive self-test of memory group `g` holds the units that use it. -/
def Hub.stHolds (h : Hub) (g : Nat) : Bool := (NMap.get h.hlt.test g).run && decide ((NMap.get h.hlt.test g).alg < 2)
/-- One of several groups' tests holds a unit, and an access it refuses counts in the registers of the groups that hold it. -/
def Hub.stHeld (h : Hub) (gs : List Nat) : Bool := gs.any h.stHolds
def Hub.refusedBy (h : Hub) (gs : List Nat) : Hub :=
  gs.foldl (fun a g => if a.stHolds g then a.setReg (rHltStSkipped g) (w32 (satTo 32 ((a.reg (rHltStSkipped g)).toNat + 1))) else a) h
/-- The groups whose tests hold the queues, the FIFOs, the tiles, the coefficient windows, the gather memories and the limit table: the
memory itself, the FIFOs of group 5 on the way, and the configuration cells of group 6 (R462, R465). -/
def heldQueue : List Nat := [0, 5, 6]
def heldFifo : List Nat := [5, 6]
def heldTile : List Nat := [1, 2, 6]
def heldCoef : List Nat := [1, 6]
def heldGather : List Nat := [3, 6]
def heldLimit : List Nat := [4, 6]

/-! ### Events (R256 to R260) -/

/-- A channel is enabled by EVENTS cell 0x082. -/
def Hub.chanEnabled (h : Hub) (n : Nat) : Bool := h.cf 8 n 0x082 0 1 == 1

/-- The channels whose producer list holds a code. -/
def Hub.chansOf (h : Hub) (code : Nat) : List Nat :=
  dedup ((h.cells.filter (fun e => e.1 / 1048576 == 8 && e.1 % 4096 < 0x40 && fieldOf e.2 0 16 == code)).map
    (fun e => e.1 / 4096 % 256))

/-- Present a producer to one channel in a cycle (R260, R264): a muted channel counts it, up to the cycle in which it is unmuted (R265);
a disabled one does not (R270). -/
def Hub.presentAt (h : Hub) (n c : Nat) : Hub :=
  if h.chanEnabled n then
    if h.is (fEvCStMuted n) || decide (c < (NMap.get h.ev n).live) then h.countSat (fEvCDropMuted n) 1
    else { h with ev := NMap.modify h.ev n (fun x => { x with presented := x.presented ++ [c] }) }
  else h

/-- Present a producer to one channel now. -/
def Hub.presentChan (h : Hub) (n : Nat) : Hub := h.presentAt n h.cyc

/-- Present a producer code to every channel that lists it, in a cycle and now (R256). -/
def Hub.presentCode (h : Hub) (code c : Nat) : Hub := (h.chansOf code).foldl (fun a n => a.presentAt n c) h
def Hub.present (h : Hub) (code : Nat) : Hub := h.presentCode code h.cyc

/-! ### Free values -/

/-- Take a fresh free value. -/
def Hub.takeFree (h : Hub) : Nat × Hub := (Config.freeValue h.free, { h with free := h.free + 1 })

/-! ### Coincidence at a task input (R262) -/

/-- Count one coincidence at an input. -/
def Hub.coincide (h : Hub) (code : Nat) : Hub := (h.countSat fEvCoincCount 1).wr fEvCoincLast code

/-- Two destination clock periods of an input outside TCLK, in TCLK cycles: deliveries less far apart may coincide there. FCLK: swap and
snapshot; XCLK: the radio. -/
def farSpan (code : Nat) : Nat :=
  match code / 4096 with
  | 3 => 4
  | 5 => 4
  | 7 => 50
  | _ => 0

/-- A firing or a time-triggered start reaches a trigger-type task input now: it acts once in a cycle of the input's clock; the others of
the cycle count one coincidence. Whether deliveries of two TCLK cycles meet in one cycle of another clock is open: a free value decides. -/
def Hub.taskHit (h : Hub) (code : Nat) : Bool × Hub :=
  let x := if h.evSeen.cyc = h.cyc + 1 then h.evSeen else { h.evSeen with cyc := h.cyc + 1, acted := [], counted := [] }
  if x.acted.contains code then
    if x.counted.contains code then (false, h)
    else (false, { h with evSeen := { x with counted := x.counted ++ [code] } }.coincide code)
  else
    let f := NMap.get x.far code
    let act (k : Hub) : Bool × Hub :=
      (true, { k with evSeen := { x with
        acted := x.acted ++ [code], far := if farSpan code = 0 then x.far else NMap.set x.far code (k.cyc + 1, false) } })
    if f.1 ≠ 0 ∧ h.cyc + 1 < f.1 + farSpan code then
      let r := h.takeFree
      if r.1 % 2 = 0 then act r.2
      else
        let k := { r.2 with evSeen := { x with far := NMap.set x.far code (f.1, true) } }
        (false, if f.2 then k else k.coincide code)
    else act h

/-! ### Buckets, logs and traces (R448 to R453) -/

/-- Depth of a bucket: GLOBAL cell 0x080 + b, or its default (R448, R455). -/
def Hub.bkDepth (h : Hub) (b : Nat) : Nat :=
  let d := h.cf 1 0 (0x080 + b) 0 13
  if d ≠ 0 then d
  else if b = 0 then 256 else if b = 1 then 64 else if b = 2 then 1024 else if b = 3 then 128 else if b = 4 then 32 else 8

/-- Tokens held: the register holds the tokens spent, so that a full bucket is its reset value. -/
def Hub.bkTokens (h : Hub) (b : Nat) : Nat := h.bkDepth b - h.rd (fHltBkTokens b)

/-- Take one token. -/
def Hub.bkTake (h : Hub) (b : Nat) : Hub := h.count (fHltBkTokens b) 1

/-- Device number for the records of R441. -/
def Hub.devnum (h : Hub) : Nat := h.rd fGlbStatusDevnum

/-- q62 exists: a full load has taken effect since the last DEVICE or POR recovery started (R452). A record given to it during
another recovery waits with its producer (R288, R289). -/
def Hub.logQueueExists (h : Hub) : Bool := h.qEnabled 62

/-- q62 takes a record: words waiting and held stay below its capacity. -/
def Hub.logRoom (h : Hub) : Bool :=
  h.logQueueExists && decide ((NMap.get h.q 62).level + h.qWaiting prodLog 62 < h.qCap 62)

/-- The SUPPRESSED record (R441, type 0x2F). -/
def Hub.suppressedWords (h : Hub) : List Word :=
  recHeader 0x2F 0xCA 9 :: timeWords h.netNow ++
    [w32 (h.devnum * 2 ^ 23), w32 h.flt.suppressed, w32 h.flt.suppMask, w32 h.flt.dropped]

/-- Logs were suppressed or traces dropped since the last SUPPRESSED record. -/
def Hub.hasSuppressed (h : Hub) : Bool := h.flt.suppressed != 0 || h.flt.dropped != 0

/-- Write the SUPPRESSED record when one is due and the log path can take it (R452). -/
def Hub.sendSuppressed (h : Hub) : Hub :=
  if h.hasSuppressed && decide (0 < h.bkTokens 1) && h.logRoom then
    let h1 := (h.bkTake 1).pushOut prodLog 62 (recordWords 5 h.suppressedWords)
    { h1 with flt := { h1.flt with suppressed := 0, suppMask := 0, dropped := 0 } }
  else h

/-- Suppress a log: it finds no token, or its queue is full or does not exist (R452). -/
def Hub.suppress (h : Hub) (typ : Nat) : Hub :=
  let h1 := (h.on fHltFltStatusSuppressed).countSat (fHltBkCount 1) 1
  { h1 with flt := { h1.flt with
      suppressed := h1.flt.suppressed + 1, suppMask := h1.flt.suppMask ||| 2 ^ (typ - 0x20) } }

/-- Logs go up the cascade as LOG frames: `log_up` is set, this hub is not the master and its UP port is UP (R448, R455). -/
def Hub.logUpOn (h : Hub) : Bool :=
  h.cf 1 0 0x088 7 1 == 1 && !h.is fGlbStatusMaster && h.rd (fCasPStatusPartner 0) != 0

/-- Queue a LOG frame to device 0 at the UP port. -/
def Hub.sendLogUp (h : Hub) (ws : List Word) : Hub :=
  let f : CasFrame :=
    { bcast := false, dst := 0#9, src := BitVec.ofNat 9 h.devnum, sub := 0x0C#6, seq := 0#12, cont := false
      words := recordWords 5 ws, crcOk := true }
  addLink0 (h.bkTake 4) { src := 3, cls := 1, bridge := false, f := f }
where
  /-- The frames waiting at UP with one more. -/
  addLink0 (h : Hub) (t : TxItem) : Hub :=
    { h with link := NMap.modify h.link 0 (fun x => { x with txq := x.txq ++ [t] }) }

/-- The CASCADE log path writes its SUPPRESSED record on its own once it can (R452). -/
def Hub.sendUpSuppressed (h : Hub) : Hub :=
  if h.flt.upSupp ≠ 0 ∧ h.logUpOn ∧ h.rd (fCasPStatusState 0) = 2 ∧ 0 < h.bkTokens 4 then
    let a := h.sendLogUp (recHeader 0x2F 0xCA 9 :: timeWords h.netNow ++
      [w32 (h.devnum * 2 ^ 23), w32 h.flt.upSupp, w32 h.flt.upMask, 0#32])
    { a with flt := { a.flt with upSupp := 0, upMask := 0 } }
  else h

/-- The CASCADE log path: like HOST's, with bucket 4 and the UP link as its destination. -/
def Hub.logUp (h : Hub) (typ : Nat) (ws : List Word) : Hub :=
  if !h.logUpOn then h
  else if h.sendUpSuppressed.flt.upSupp = 0 ∧ h.rd (fCasPStatusState 0) = 2 ∧ 0 < h.sendUpSuppressed.bkTokens 4 then
    h.sendUpSuppressed.sendLogUp ws
  else
    let h := h.sendUpSuppressed
    let h1 := (h.on fHltFltStatusSuppressed).countSat (fHltBkCount 4) 1
    { h1 with flt := { h1.flt with upSupp := h1.flt.upSupp + 1, upMask := h1.flt.upMask ||| 2 ^ (typ - 0x20) } }

/-- Send a log record on the HOST path, a due SUPPRESSED record before it (R452), and on the CASCADE path. -/
def Hub.logWords (h0 : Hub) (typ : Nat) (ws : List Word) : Hub :=
  let h := h0.logUp typ ws
  let h1 := h.sendSuppressed
  if !h1.hasSuppressed && decide (0 < h1.bkTokens 1) && h1.logRoom then
    (h1.bkTake 1).pushOut prodLog 62 (recordWords 5 ws)
  else h1.suppress typ

/-- The nine words of a log record (R441). -/
def Hub.logBody (h : Hub) (typ src code scope unit : Nat) (d7 d8 : Word) : List Word :=
  recHeader typ src 9 :: timeWords h.netNow ++
    [w32 (h.devnum * 2 ^ 23 + code * 256 + scope * 16), w32 unit, d7, d8]

/-- Write a log record of nine words. -/
def Hub.log (h : Hub) (typ src code scope unit : Nat) (d7 d8 : Word) : Hub :=
  h.logWords typ (h.logBody typ src code scope unit d7 d8)

/-- Traces enabled, and the trace queue (R455). -/
def Hub.traceOn (h : Hub) : Bool := h.cf 1 0 0x088 6 1 == 1
def Hub.traceQ (h : Hub) : Nat := h.cf 1 0 0x088 0 6

/-- Write a trace record with its time, or drop and count it (R442, R453). -/
def Hub.trace (h : Hub) (typ src time : Nat) (w5 w6 : Word) : Hub :=
  if h.traceOn then
    let q := h.traceQ
    if decide (0 < h.bkTokens 2) && h.qEnabled q &&
        decide (2 * ((NMap.get h.q q).level + h.qWaiting prodTrace q) < h.qCap q) then
      (h.bkTake 2).pushOut prodTrace q (recordWords 6 (recHeader typ src 7 :: timeWords time ++ [w5, w6]))
    else
      let h1 := (h.on fHltFltStatusSuppressed).countSat (fHltBkCount 2) 1
      { h1 with flt := { h1.flt with dropped := h1.flt.dropped + 1 } }
  else h

/-- A STATE trace of class 1 ORDER, 2 link, 3 radio transceiver (R442, R455); an ORDER stage's is on its context's timebase (R277). -/
def Hub.traceState (h : Hub) (cls src unit code : Nat) : Hub :=
  if h.cf 1 0 0x088 (7 + cls) 1 == 1 then
    h.trace 0x31 src (if cls = 1 then h.timeOn (h.cf 5 (32 + unit) 0 14 5) else h.netNow) (w32 (cls * 2 ^ 24 + unit)) (w32 code)
  else h

end Sys2Proof.Machine
end

