-- ==== Sys2Proof/Machine/Access.lean ====
section
/-! DEFINITION. The address map as an access of the host meets it (spec/00 R4, spec/03 R71 to R75), and the shape of a command
that is one access of one register. -/

namespace Sys2Proof.Machine
open Sys2Proof

/-- The state whose permissions apply: the one shown, and SEALED from a hub POR until the lid has been read (R459). -/
def Hub.lcState (h : Hub) : Nat := if h.hlt.lcKnown then h.rd fHltLcState else 2

/-- `dbg` answers in OPEN and SERVICE only (R75, R461). -/
def Hub.dbgOpen (h : Hub) : Bool := h.lcState == 1 || h.lcState == 3

/-! ### Blocks, holes and readiness (R4, R71, R73 to R75) -/

/-- The blocks of R73; `none` is the unmapped range. -/
inductive Blk where
  | glb | clk | ldr | sp | tw | fab | spc | lim | ev | q | tm | cas | rad | hlt | none | met | dbg
  deriving DecidableEq, Repr

/-- The block of an address, and the address after its last implemented register. -/
def blkOf (a : Nat) : Blk × Nat :=
  if a < 0x010000 then (.glb, 0x110) else if a < 0x020000 then (.clk, 0x010124) else if a < 0x040000 then (.ldr, 0x020800)
  else if a < 0x060000 then (.sp, 0x050008) else if a < 0x080000 then (.tw, 0x062008)
  else if a < 0x100000 then (.fab, 0x0B0048) else if a < 0x140000 then (.spc, 0x118038)
  else if a < 0x180000 then (.lim, 0x17001C) else if a < 0x1A0000 then (.ev, 0x182080)
  else if a < 0x1C0000 then (.q, 0x1B810C) else if a < 0x1D0000 then (.tm, 0x1C3050)
  else if a < 0x1E0000 then (.cas, 0x1D0908) else if a < 0x1F0000 then (.rad, 0x1E3108)
  else if a < 0x200000 then (.hlt, 0x1F9008) else if a < 0x800000 then (.none, 0)
  else if a < 0xC00000 then (.met, 0x801064) else (.dbg, 0x1000000)

/-- An address is in `[lo, hi)`. -/
def within (a lo hi : Nat) : Bool := decide (lo ≤ a) && decide (a < hi)

/-- Registers of units the variant does not have (R3, R4). -/
def absentAt (v : Variant) (a : Nat) : Bool :=
  (v == .dx128 && (within a 0x048000 0x04C000 || within a 0x090000 0x0A0000 || within a 0x0A2000 0x0A3000 ||
    within a 0x102000 0x104000 || within a 0x112000 0x113000 || within a 0x1A9800 0x1AF800 || within a 0x1B1000 0x1B1800 ||
    within a 0x1D0200 0x1D0300)) ||
  (!v.hasRad && within a 0x1E0000 0x1F0000) ||
  (!v.hasMet && (within a 0x800000 0xC00000 || within a 0x1C0440 0x1C0480))

/-- The block answers (R71, R427). The `met` block of a variant without the partition holds no register to answer. -/
def blkReady (v : Variant) (h : Hub) (m : Met) (b : Blk) : Bool :=
  match b with
  | .glb | .clk => true
  | .ldr | .hlt => h.clk.gates && h.rd fGlbStatusRun != 6
  | .met => m.up || !v.hasMet
  | _ => h.rd fGlbStatusRun == 3 && !h.flt.recs.any (fun r => decide (7 ≤ r.scope))

/-- What an access meets: a register that answers, nothing, a block that does not answer, a window that is denied. -/
inductive Access where
  | ok | over | notready | denied
  deriving DecidableEq, Repr

/-- An access to address `a` of a burst that began in block `b`, whose registers end before `fin`. -/
def accessAt (v : Variant) (h : Hub) (m : Met) (b : Blk) (fin a : Nat) : Access :=
  if b = .dbg && !h.dbgOpen then .denied
  else if !blkReady v h m b then .notready
  else if fin ≤ a then .over
  else if b = .dbg then .ok
  else if absentAt v a || (rowOf a).isNone then .over
  else .ok

/-- What an access that finds no register leaves in `hst`. -/
def Hub.noteAccess (h : Hub) (x : Access) (a : Nat) : Hub :=
  match x with
  | .ok => h
  | .over => (h.on fHstStatusOver).wr fHstLastAddr a
  | .notready => h.on fHstStatusNotready
  | .denied => (h.on fHstStatusDenied).wr fHstLastAddr a

/-- Count a bad frame of the host serial port and set its flags (R85). -/
def Hub.hspBad (h : Hub) (flags : List Fld) : Hub := flags.foldl Hub.on (h.countSat fHstCountHspBad 1)

/-! ### Commands that are one access of a register -/

/-- What a command that names a register of block `b` at address `a` meets. -/
def regMeets (fx : Fixed) (m : Met) (b : Blk) (a : Nat) (h : Hub) : Access :=
  if b = .dbg && !h.dbgOpen then .denied
  else if !blkReady fx.variant h m b then .notready
  else if absentAt fx.variant a then .over
  else .ok

/-- The register answers a command. -/
def Hub.answers (fx : Fixed) (m : Met) (b : Blk) (a : Nat) (h : Hub) : Bool := !h.asleep && regMeets fx m b a h == .ok

/-- A write of the register, whichever port it came by: it acts where the register answers. A sleeping hub takes none. -/
def Hub.atReg (fx : Fixed) (m : Met) (b : Blk) (a : Nat) (act : Hub → Hub) (h : Hub) : Hub :=
  if h.asleep then h
  else match regMeets fx m b a h with
    | .ok => act h
    | x => h.noteAccess x a

/-- A read of the register: the word it answers with is the host's, and zero where it does not answer. -/
def Hub.readOf (fx : Fixed) (m : Met) (b : Blk) (a : Nat) (act : Hub → Word × Hub) (h : Hub) : Hub :=
  if h.asleep then h
  else match regMeets fx m b a h with
    | .ok => let r := act h; r.2.toHost r.1
    | x => (h.noteAccess x a).toHost 0#32

end Sys2Proof.Machine
end

