-- ==== Sys2Proof/Machine/Banks.lean ====
section
/-! DEFINITION. Where stages and their shadow copies stand, what a synchronising reset does to one, and the coefficient bank swaps of
a tile (spec/06 R146, R154, R159, R160; spec/07 R185, R187 to R193; spec/08 R209). -/

namespace Sys2Proof.Machine
open Sys2Proof

/-! ### Context cells (R166) -/
def Hub.ctxKind (h : Hub) (c : Nat) : Nat := h.cf 5 (32 + c) 0 1 3
def Hub.ctxStages (h : Hub) (c : Nat) : Nat := h.cf 5 (32 + c) 0 4 4
def Hub.ctxQueue (h : Hub) (c : Nat) : Nat := h.cf 5 (32 + c) 0 8 6
def Hub.ctxTb (h : Hub) (c : Nat) : Nat := h.cf 5 (32 + c) 0 14 5
/-- A shadow runs: it is on and there are stages to copy. -/
def Hub.ctxShadow (h : Hub) (c : Nat) : Bool := h.cf 5 (32 + c) 0 21 1 == 1 && h.ctxStages c != 0
def Hub.digOn (h : Hub) (c : Nat) (head : Bool) : Bool := h.cf 5 (32 + c) 0 (if head then 25 else 24) 1 == 1
def Hub.digBlock (h : Hub) (c : Nat) : Nat := 2 ^ h.cf 5 (32 + c) 0 26 5

/-! ### Chains (R146, R159)

Chain x is the chain of context x for x below 192, and the chain of the shadow copies of context x − 192 above. Stage i of chain x
has the number 8x + i. -/

/-- The context of a chain. -/
def ctxOf (x : Nat) : Nat := x % 192
/-- Tile and slot of stage `i` of chain `x`. -/
def Hub.stTile (h : Hub) (x i : Nat) : Nat := h.cf 5 (32 + ctxOf x) (0x10 + i) (if x < 192 then 0 else 11) 5
def Hub.stSlot (h : Hub) (x i : Nat) : Nat := h.cf 5 (32 + ctxOf x) (0x10 + i) (if x < 192 then 5 else 16) 6
/-- A field of slot cell 0x400 + `k` of the stage. -/
def Hub.sc (h : Hub) (x i k lo len : Nat) : Nat := h.cf 5 (h.stTile x i) (0x400 + 16 * h.stSlot x i + k) lo len
def Hub.stKind (h : Hub) (x i : Nat) : Nat :=
  if i < h.ctxStages (ctxOf x) && (decide (x < 192) || h.ctxShadow (ctxOf x)) then h.sc x i 0 0 4 else 0

def Hub.stg' (h : Hub) (x i : Nat) : Stage := NMap.get h.stg (8 * x + i)
def Hub.setStg (h : Hub) (x i : Nat) (s : Stage) : Hub := { h with stg := NMap.set h.stg (8 * x + i) s }
def Hub.modStg (h : Hub) (x i : Nat) (f : Stage → Stage) : Hub := h.setStg x i (f (h.stg' x i))

/-- The stage that stands in a slot of a tile. -/
def Hub.slotStage (h : Hub) (t j : Nat) : Option Nat :=
  if h.cf 5 t (0x400 + 16 * j) 0 4 = 0 then none
  else some (8 * (h.cf 5 t (0x400 + 16 * j) 4 8 + 192 * h.cf 5 t (0x400 + 16 * j) 16 1) + h.cf 5 t (0x400 + 16 * j) 12 3)

/-- The stages on a tile, shadow copies with them. -/
def Hub.stagesOn (h : Hub) (t : Nat) : List Nat := (List.range 64).filterMap (h.slotStage t)

/-- Tiles that carry a context's stages and copies. -/
def Hub.tilesOf (h : Hub) (c : Nat) : List Nat :=
  let is := List.range (h.ctxStages c)
  dedup (is.map (h.stTile c) ++ (if h.ctxShadow c then is.map (h.stTile (192 + c)) else []))

/-- The partner of a tile (R159), and the tiles of its bank domain (R160). -/
def Hub.partnerOf (h : Hub) (t : Nat) : Option Nat := if h.cf 5 t 0x800 5 1 = 1 then some (h.cf 5 t 0x800 0 5) else none
def Hub.domain (h : Hub) (t : Nat) : List Nat := t :: (h.partnerOf t).toList

/-! ### Coefficient bank swaps (R187 to R193) -/

/-- The stage is a FIR or a DETECT. -/
def Hub.bankKind (h : Hub) (k : Nat) : Bool := let kd := h.stKind (k / 8) (k % 8); kd == 1 || kd == 7
/-- FIR and DETECT stages of a tile, and of its bank domain. -/
def Hub.bankOn (h : Hub) (t : Nat) : List Nat := (h.stagesOn t).filter h.bankKind
def Hub.bankStages (h : Hub) (t : Nat) : List Nat := (h.domain t).flatMap h.bankOn
/-- Those that have not switched (R193). -/
def Hub.unswitched (h : Hub) (ks : List Nat) : Nat := (ks.filter (fun k => !(NMap.get h.stg k).switched)).length

/-- Show a tile's swap in its registers. -/
def Hub.showSwap (h : Hub) (t : Nat) : Hub :=
  let x := NMap.get h.tile t
  let h1 := (h.wr (fFabTStatusFading t) (b2n x.swap.isSome)).wr (fFabTStatusSwapPend t) (b2n x.wait.isSome)
  let h2 := h1.wr (fFabTFadeLeft t) (if x.swap.isSome then h.unswitched (h.bankOn t) else 0)
  (h2.wr (fFabTFadeWaitBank t) (match x.wait with | some (b, _) => b | none => 0)).wr (fFabTFadeWaitLen t)
    (match x.wait with | some (_, l) => l | none => 0)

/-- Start a swap to bank `b` over `len` outputs on a tile's domain (R187, R188, R189). Stages of disabled contexts have switched
at once, for idleness (R190). -/
def Hub.beginSwap (h : Hub) (t b len : Nat) : Hub :=
  let h1 := (h.domain t).foldl (fun a u =>
    { a with tile := NMap.modify a.tile u (fun x => { x with swap := some (b, len), wait := none }) }) h
  let h2 := (h.bankStages t).foldl (fun a k =>
    let off := !a.is (fFabCCtlEnable (ctxOf (k / 8)))
    let a1 := { a with stg := NMap.modify a.stg k (fun s => { s with switched := off, swOuts := 0 }) }
    if off then a1.countSat (fFabTFadeIdle (a1.stTile (k / 8) (k % 8))) 1 else a1) h1
  (h.domain t).foldl (fun a u => a.showSwap u) h2

/-- A committed load is about to write a bank of the domain (R47). -/
def Hub.coefPending (h : Hub) (t : Nat) : Bool :=
  (h.domain t).any (fun u => h.ldr.commit.any (fun x => x.key / 4096 == 5 * 256 + u && decide (x.key % 4096 < 0x400)))

/-- End the swap of a domain when every stage has switched, and take a waiting one, unless a load's coefficients come first (R47,
R190, R191). `fuel` bounds the chain: a waiting request is taken once. -/
def Hub.endSwap (fuel : Nat) (h : Hub) (t : Nat) : Hub :=
  match fuel with
  | 0 => h
  | fuel + 1 =>
    match (NMap.get h.tile t).swap with
    | none => h
    | some (b, _) =>
      if h.unswitched (h.bankStages t) = 0 then
        let w := (NMap.get h.tile t).wait
        let keep := h.coefPending t
        let h1 := (h.domain t).foldl (fun a u =>
          ({ a with tile := NMap.modify a.tile u (fun x => { x with swap := none, wait := if keep then w else none }) }.wr
            (fFabTStatusBankAct u) b).showSwap u) h
        match w with
        | some (wb, wl) => if wb = b ∨ keep then h1 else Hub.endSwap fuel (h1.beginSwap t wb wl) t
        | none => h1
      else (h.domain t).foldl (fun a u => a.showSwap u) h

/-- A request that waited for a load's coefficients is taken; one for the active bank has no effect (R47, R191). -/
def Hub.takeWait (h : Hub) (t : Nat) : Hub :=
  let x := NMap.get h.tile t
  match x.swap, x.wait with
  | none, some (b, len) =>
    if b = h.rd (fFabTStatusBankAct t) then
      (h.domain t).foldl (fun a u => { a with tile := NMap.modify a.tile u (fun y => { y with wait := none }) }.showSwap u) h
    else (h.beginSwap t b len).endSwap 2 t
  | _, _ => h

/-! ### Synchronising reset (R185, R209) -/

/-- History, counts and bridging value cleared; switched for a swap in progress. Samples and tach stamps not yet taken stay. -/
def Stage.syncReset (s : Stage) : Stage := { (default : Stage) with inq := s.inq, stamps := s.stamps, switched := true }

/-- Change the ORDER state: register, producer, trace on the context's timebase (R209, R277, R442). A shadow copy follows its primary
in its own slot's register only (DEDUCED, log entry 98). -/
def Hub.ordState (h : Hub) (x i st : Nat) : Hub :=
  let f := fFabTSlStState (h.stTile x i) (h.stSlot x i)
  if h.rd f = st then h
  else if x < 192 then ((h.wr f st).present (0x3400 + x)).traceState 1 x x st
  else h.wr f st

/-- A synchronising reset of a stage; a swap that waited only for it ends (R190). -/
def Hub.syncStage (h : Hub) (x i : Nat) : Hub :=
  let h1 := h.modStg x i Stage.syncReset
  (if h1.stKind x i = 5 then h1.ordState x i 0 else h1).endSwap 2 (h.stTile x i)

/-- A synchronising reset of stage `i` and every later stage of a chain. -/
def Hub.syncFrom (h : Hub) (x i : Nat) : Hub :=
  ((List.range (h.ctxStages (ctxOf x))).filter (fun k => decide (i ≤ k))).foldl (fun a k => a.syncStage x k) h

end Sys2Proof.Machine
end

