-- ==== Sys2Proof/Machine/Stockpot.lean ====
section
/-! DEFINITION. The stockpot and how queue lines and ring lines lie in it (spec/11 R279, R290, R291, R294). Word j of a line of
eight 40-bit words takes bits 40j to 40j + 39 of the line's five 64-bit words. -/

namespace Sys2Proof.Machine
open Sys2Proof

/-- A stockpot word's data. -/
def Hub.stockAt (h : Hub) (a : Nat) : BitVec 64 := NMap.getD h.stock a 0#64 ^^^ h.stockFill
/-- Write a stockpot word. -/
def Hub.setStock (h : Hub) (a : Nat) (w : BitVec 64) : Hub := { h with stock := NMap.setD h.stock a (w ^^^ h.stockFill) 0#64 }

/-- Number of set bits. -/
def popcount (n len : Nat) : Nat := ((List.range len).filter (fun i => n.testBit i)).length

/-- What an access to a stockpot word yields (R290). -/
inductive StockRead where
  | good | corrected | uncorrectable
  deriving DecidableEq, Repr

/-- Read a stockpot word through an upset: outcome, data, and the hub with any free value taken. -/
def Hub.readStock (h : Hub) (a : Nat) (u : Upset) : StockRead × BitVec 64 × Hub :=
  let d := h.stockAt a
  let wd := popcount u.data.toNat 72
  let wa := popcount u.addr.toNat 21
  if wd + wa = 0 then (.good, d, h)
  else if wd = 1 ∧ wa = 0 then (.corrected, d, h)
  else if wd + wa ≤ 2 then (.uncorrectable, d ^^^ u.data.setWidth 64, h)
  else
    let r := h.takeFree
    if r.1 % 2 = 0 then (.uncorrectable, d ^^^ u.data.setWidth 64, r.2)
    else
      let r2 := r.2.takeFree
      (.good, BitVec.ofNat 64 r2.1, r2.2)

/-- Read `n` stockpot words from `a` on, word k through upset k of `us`: outcomes and data. -/
def Hub.readWords (h : Hub) (a n : Nat) (us : List Upset) : List (StockRead × BitVec 64) × Hub :=
  (List.range n).foldl (fun (r : List (StockRead × BitVec 64) × Hub) k =>
    let x := r.2.readStock (a + k) (us.getD k { data := 0#72, addr := 0#21 })
    (r.1 ++ [(x.1, x.2.1)], x.2.2)) ([], h)

/-- Eight 40-bit words as five 64-bit ones. -/
def packLine (ws : List QWord) : List (BitVec 64) :=
  let v := (ws.take 8).foldr (fun w a => a * 2 ^ 40 + w.toNat) 0
  (List.range 5).map (fun k => BitVec.ofNat 64 (v / 2 ^ (64 * k)))

/-- Five 64-bit words as `n` 40-bit ones. -/
def unpackLine (ds : List (BitVec 64)) (n : Nat) : List QWord :=
  let v := ds.foldr (fun d a => a * 2 ^ 64 + d.toNat) 0
  (List.range n).map (fun k => BitVec.ofNat 40 (v / 2 ^ (40 * k)))

/-- Store a line at a stockpot address. -/
def Hub.storeLine (h : Hub) (a : Nat) (ws : List QWord) : Hub :=
  ((packLine ws).zipIdx).foldl (fun b p => b.setStock (a + p.2) p.1) h

/-- The data of a line. -/
def Hub.lineData (h : Hub) (a : Nat) : List (BitVec 64) := (List.range 5).map (fun k => h.stockAt (a + k))

/-- Middle base and line count of a queue (R301). -/
def Hub.qBase (h : Hub) (q : Nat) : Nat := h.cf 9 q 1 0 21
def Hub.qLines (h : Hub) (q : Nat) : Nat := h.cf 9 q 0 2 19

/-- Every word a queue holds, oldest first. -/
def Hub.qWords (h : Hub) (q : Nat) : List QWord :=
  let x := NMap.get h.q q
  x.head ++ (x.mid.flatMap (fun m => unpackLine (h.lineData (h.qBase q + 5 * m.slot)) m.n)) ++ x.tail

/-! ### Rewind rings (R294, R301) -/

/-- A context's ring: its queue and number, stage point, base word, line count, pre-trigger and post-trigger lengths, rearm. -/
structure RingCfg where
  q : Nat
  num : Nat
  point : Nat
  base : Nat
  lines : Nat
  pre : Nat
  post : Nat
  rearm : Bool
  deriving DecidableEq, Repr

/-- Where the ring of a context is defined: queue and ring number. -/
def Hub.ringDef (h : Hub) (c : Nat) : Option (Nat × Nat) :=
  (h.cells.find? (fun e => e.1 / 1048576 == 9 && decide (0x10 ≤ e.1 % 4096) && e.1 % 4 == 0 &&
    fieldOf e.2 0 1 == 1 && fieldOf e.2 1 8 == c)).map (fun e => (e.1 / 4096 % 256, (e.1 % 4096 - 0x10) / 4))

def Hub.ringCfg (h : Hub) (c : Nat) : Option RingCfg :=
  (h.ringDef c).map (fun d =>
    { q := d.1, num := d.2, point := h.cf 9 d.1 (0x10 + 4 * d.2) 9 4, base := h.cf 9 d.1 (0x11 + 4 * d.2) 0 21
      lines := h.cf 9 d.1 (0x12 + 4 * d.2) 0 19, pre := h.cf 9 d.1 (0x13 + 4 * d.2) 0 16
      post := h.cf 9 d.1 (0x13 + 4 * d.2) 16 16, rearm := h.cf 9 d.1 (0x10 + 4 * d.2) 13 1 == 1 })

/-- The ring slot of a line, and its first stockpot word. -/
def RingCfg.slot (k : RingCfg) (line : Nat) : Nat := line % max k.lines 1
def RingCfg.addr (k : RingCfg) (line : Nat) : Nat := k.base + 7 * k.slot line

/-- Store a ring line: five words of samples, two of the first sample's time. -/
def Hub.storeRing (h : Hub) (k : RingCfg) (line : Nat) (xs : List Samp) : Hub :=
  let a := k.addr line
  let t := match xs with | x :: _ => x.time | [] => 0
  ((h.storeLine a ((xs.take 8).map (fun x => qword false 1 0 (sampWord x)))).setStock (a + 5)
    (BitVec.ofNat 64 (t / 65536000000000))).setStock (a + 6) (BitVec.ofNat 64 (t % 65536000000000))

/-- Store every line gathered, the last one in part. `fuel` bounds the lines. -/
def Hub.storeRings (k : RingCfg) : Nat → Hub → Nat → List Samp → Hub
  | 0, h, _, _ => h
  | fuel + 1, h, line, xs => if xs.isEmpty then h else Hub.storeRings k fuel (h.storeRing k line xs) (line + 1) (xs.drop 8)

/-- Fields of a queue word. -/
def qEnd (w : QWord) : Bool := w.getLsbD 39
def qKind (w : QWord) : Nat := w.toNat / 2 ^ 36 % 8
def qAux (w : QWord) : Nat := w.toNat / 2 ^ 32 % 16
def qPayload (w : QWord) : Word := w.setWidth 32

end Sys2Proof.Machine
end

