-- ==== Sys2Proof/Machine/Resets.lean ====
section
/-! DEFINITION. What a reset of each scope clears (spec/16 R443 and the rules it names), and the fields that take their
configuration cells again. -/

namespace Sys2Proof.Machine
open Sys2Proof

/-! ### Registers by scope (R6) -/

/-- A row's register word with the fields whose scope `hit` names back at their reset values. -/
def resetFields (hit : Scope → Bool) (fs : List RField) (w : Word) : Word :=
  fs.foldl (fun a f => if hit f.scope then putField a f.lo f.len f.reset else a) w

/-- A staged value is one of a field the reset covers. -/
def Shadow.resetBy (hit : Scope → Nat → Bool) (x : Shadow) : Bool :=
  match rowOf x.addr with
  | some r => r.fields.any (fun f => f.lo == x.lo && hit f.scope x.addr)
  | none => false

/-- Return every register field the reset covers to its reset value; registers not listed hold it already. The values staged for
them are discarded (R454). -/
def Hub.resetRegs (h : Hub) (hit : Scope → Nat → Bool) : Hub :=
  let h1 := { h with host := { h.host with
    shadows := h.host.shadows.filter (fun x => !x.resetBy hit), after := h.host.after.filter (fun x => !x.resetBy hit) } }
  h.regs.foldl (fun a e =>
    match rowOf e.1 with
    | some r => a.setReg e.1 (resetFields (fun s => hit s e.1) r.fields e.2)
    | none => a) h1

/-- The queue, port and tile whose window holds an address. -/
def queueOfAddr (a : Nat) : Nat := (a - 0x1A0000) / 0x400
def portOfAddr (a : Nat) : Nat := if a < 0x60000 then (a - 0x40000) / 0x800 else 24 + (a - 0x60000) / 0x400
def tileOfAddr (a : Nat) : Nat := (a - 0x80000) / 0x1000

/-- The context a slot register of a tile belongs to. -/
def Hub.ctxOfSlot (h : Hub) (t j : Nat) : Nat := h.cf 5 t (0x400 + 16 * j) 4 8

/-- The context whose registers hold an address. -/
def Hub.ctxOfAddr (h : Hub) (a : Nat) : Nat :=
  if a < 0xA0000 then
    let t := tileOfAddr a
    let off := (a - 0x80000) % 0x1000
    if off < 0x200 then h.ctxOfSlot t ((off - 0x100) / 4) else h.ctxOfSlot t ((off - 0x200) / 16)
  else if a < 0x100000 then (a - 0xA0000) / 0x40
  else if a < 0x1A0000 then (a - 0x110000) / 0x40
  else (a - 0x1B0000) / 0x20

/-! ### Fields that take their cells (R113 to R117, R139, R168, R169, R171, R215, R302) -/

/-- Sample port `n` takes role, divider, training mode and taps from its PORTS cells. -/
def Hub.seedPort (h : Hub) (n : Nat) : Hub :=
  let tap := h.cf 3 n 6 8 6
  let h1 := ((h.wr (fSpPCtlRole n) (h.cf 3 n 0 0 1)).wr (fSpPDivDiv n) (h.cf 3 n 1 0 16)).wr (fSpPCtlTrain n) (h.cf 3 n 6 0 2)
  (((((h1.wr (fSpPTapLane0 n) tap).wr (fSpPTapLane1 n) tap).wr (fSpPTapLane2 n) tap).wr (fSpPTapLane3 n) tap).wr
    (fSpPTapLateEdge n) (h.cf 3 n 0 23 1))

/-- Two-wire controller `n` takes its timeout choice and enable from TWOWIRE cell 0x000. -/
def Hub.seedTw (h : Hub) (n : Nat) : Hub :=
  (h.wr (fTwCCtlTmoSel n) (h.cf 4 n 0 22 1)).wr (fTwCCtlEnable n) (h.cf 4 n 0 23 1)

/-- Tile `t` takes its bank, next bank, fade length and partner bit from cells 0x800 and 0x801. -/
def Hub.seedTile (h : Hub) (t : Nat) : Hub :=
  (((h.wr (fFabTStatusPartner t) (h.cf 5 t 0x800 5 1)).wr (fFabTStatusBankAct t) (h.cf 5 t 0x801 0 1)).wr
    (fFabTFirBankNext t) (h.cf 5 t 0x801 1 1)).wr (fFabTFirFadeLen t) (h.cf 5 t 0x801 16 16)

/-- `set` of a slot takes RESAMPLE FIXED's ratio or DELAY's I and F from its cells; of any other kind it reads 0 until an ORDER stage
shows its ratio (R215). -/
def Hub.seedSet (h : Hub) (t j : Nat) : Hub :=
  let kind := h.cf 5 t (0x400 + 16 * j) 0 4
  h.wr (fFabTSlSetSet t j)
    (if kind = 4 ∧ h.cf 5 t (0x404 + 16 * j) 0 1 = 0 then h.cf 5 t (0x405 + 16 * j) 0 32
     else if kind = 6 then h.cf 5 t (0x405 + 16 * j) 0 21 else 0)

/-- The chains of a context: its own and, with a shadow, that of the copies. -/
def Hub.chainsOf (h : Hub) (c : Nat) : List Nat := c :: (if h.ctxShadow c then [192 + c] else [])

/-- The slots of a context's stages and copies take their settings. -/
def Hub.seedSlots (h : Hub) (c : Nat) : Hub :=
  (h.chainsOf c).foldl (fun a x => (List.range (h.ctxStages c)).foldl (fun b i => b.seedSet (b.stTile x i) (b.stSlot x i)) a) h

/-- Context `c` takes its enable from cell 0x000 and its slots take theirs. -/
def Hub.seedCtx (h : Hub) (c : Nat) : Hub := (h.wr (fFabCCtlEnable c) (h.cf 5 (32 + c) 0 0 1)).seedSlots c

/-- Queue `q` takes its threshold from cell 0x002. -/
def Hub.seedQueue (h : Hub) (q : Nat) : Hub := h.wr (fQQThrThr q) (h.cf 9 q 2 0 22)

/-! ### Feature sets, spectral engines, links and radio -/

/-- The valid jobs of a context, as engine and job. -/
def Hub.jobsOf (h : Hub) (c : Nat) : List (Nat × Nat) :=
  (h.cells.filter (fun e => e.1 / 1048576 == 6 && decide (e.1 / 4096 % 256 < 4) && e.1 % 16 == 0 && bitOf e.2 0 &&
    fieldOf e.2 1 8 == c)).map (fun e => (e.1 / 4096 % 256, e.1 % 4096 / 16))

/-- A feature set's block goes, and the incomplete blocks and averages of the context's jobs (R226, R443). -/
def Hub.clearFea (h : Hub) (c : Nat) : Hub :=
  let h1 := { h with fea := NMap.set h.fea c default }
  (h1.jobsOf c).foldl (fun a p => { a with job := NMap.modify a.job (64 * p.1 + p.2) (fun j =>
    { (default : Job) with ready := j.ready }) }) h1

/-- Spectral engines, feature sets and the limit engine's input FIFO go, with what the producers of the fabric still held (R443). -/
def Hub.clearSpectral (h : Hub) : Hub :=
  { h with
    job := [], spc := [], fea := [], lim := { h.lim with fifo := [] }
    outbox := NMap.drop h.outbox (fun p => decide (p < prodAlarm))
    q := h.q.foldl (fun m e => NMap.modify m e.1 (fun y =>
      match y.holder with
      | some p => if p < prodAlarm then { y with holder := none, discard := false } else y
      | none => y)) h.q }
/-- `glb.status.master` and the STANDALONE state follow CMSTR and the ports' partners (R342). -/
def Hub.showRole (fx : Fixed) (h : Hub) : Hub :=
  let up := h.rd (fCasPStatusPartner 0) != 0
  let any := up || h.rd (fCasPStatusPartner 1) != 0 || h.rd (fCasPStatusPartner 2) != 0
  let h1 := h.wr fGlbStatusMaster (b2n (fx.cmstr && !up))
  if !fx.cmstr && !any then h1.wr fCasEnumState 4
  else if h1.rd fCasEnumState = 4 then h1.wr fCasEnumState 0 else h1

/-- A port has no partner (R360). -/
def Hub.noPartner (h : Hub) (p : Nat) : Hub := (h.wr (fCasPStatusPartner p) 0).wr (fCasPStatusPartnerCmstr p) 0

/-- The port of a cascade register: 3 for those of the hub as a whole. -/
def linkOfAddr (a : Nat) : Nat := if 0x1D0000 ≤ a ∧ a < 0x1D0300 then (a - 0x1D0000) / 0x100 else 3

/-- Credits a frame of `n` words costs: 14 + 5n symbols (R335, R338). -/
def frameCost (n : Nat) : Nat := (14 + 5 * n + 63) / 64

def Hub.modLk (h : Hub) (p : Nat) (f : Link → Link) : Hub := { h with link := NMap.modify h.link p f }

/-- Credits released to the partner (R338). -/
def Hub.release (h : Hub) (p cls n : Nat) : Hub :=
  h.modLk p (fun x => { x with released := NMap.modify x.released cls (fun k => (k + frameCost n) % 16384) })

/-- Discard a frame as unroutable (R345). -/
def Hub.unroutable (h : Hub) (p : Nat) : Hub := (h.on (fCasPStatusUnroutable p)).countSat (fCasPCount2Unroutable p) 1

/-- A frame that waited to leave on port `p` has no route any more: a forwarded one leaves its receive buffer. -/
def Hub.dropFrame (p : Nat) (h : Hub) (t : TxItem) : Hub :=
  if t.src < 3 then (h.unroutable t.src).release t.src t.cls t.f.words.length else h.unroutable p

/-- A slew of tb_net that the cascade runs ends: UP has left UP (R348). -/
def Hub.endNetSlew (h : Hub) : Hub := { h with tb := NMap.modify h.tb 16 (fun x => { x with slewTicks := 0 }) }

/-- A LINK reset of a cascade port (R358): buffers, retry store, sequences and credits go and it retrains; one of UP also clears
enumeration state, path, ranges and lock. Its walk and its number stay known for R444. Frames of its receive buffer that wait at other
ports go with it; those of other buffers that waited to leave here have no route but for alarms, which wait on (R345). -/
def Hub.clearLink (fx : Fixed) (h : Hub) (p : Nat) : Hub :=
  let x := NMap.get h.link p
  let h1 := h.resetRegs (fun s a => s == .link && (linkOfAddr a == p || (p == 0 && linkOfAddr a == 3)))
  let other (t : TxItem) : Bool := decide (t.src < 3) && t.src != p
  let links := h1.link.foldl (fun (m : NMap Link) e => NMap.set m e.1 { e.2 with txq := e.2.txq.filter (fun t => t.src != p) }) []
  let h2 := { h1 with link := NMap.set links p { (default : Link) with
    dev := x.dev, txq := x.txq.filter (fun t => other t && t.cls == 2) } }
  let h3 := (x.txq.filter (fun t => other t && t.cls != 2)).foldl (Hub.dropFrame p) h2
  let h4 := h3.wr (fCasPAsymAsym p) (h3.cf 11 p 0 16 16)
  let h5 := if p = 0 then { h4 with cas := { h4.cas with phase := 0, theta := [], good := 0 } } else h4
  (if p = 0 ∧ h.rd (fCasPStatusPartner 0) ≠ 0 then h5.endNetSlew else h5).showRole fx
/-- Mode, `auto_cal` and the node identifiers take their cells. -/
def Hub.seedRadio (h : Hub) : Hub :=
  let h1 := (h.wr fRadCtlMode (h.cf 12 0 0 0 2)).wr fRadCtlAutoCal (h.cf 12 0 0 2 1)
  (List.range 48).foldl (fun a i => a.setReg (rRadNId i) (a.cell 12 (i + 1) 0)) h1

/-- The contexts fed by a node. -/
def Hub.ctxsOfNode (h : Hub) (n : Nat) : List Nat :=
  ((h.usedUnits 5).filter (fun u => decide (32 ≤ u) && h.cf 5 u 0 1 3 == 3 && h.cf 5 u 1 0 8 == n)).map (fun u => u - 32)

/-- A transmission that ran before a reset has ended with reason RESET (R377). -/
def Hub.radAfterReset (old h : Hub) : Hub :=
  match old.rad.cmd with
  | some c =>
    if c.op = 3 then (((h.on fRadStatusTxAbort).wr fRadAbortReason 6).countSat fRadAbortCount 1).present c.abortProducer else h
  | none => h

/-- A RADIO reset (R390): a transmission ends with reason RESET; admissions, buffers, requests and counters go; the sequencer
returns to SLEEP; stored calibrations stay; the next sample of each RADIO context carries GAP. -/
def Hub.clearRadio (h : Hub) : Hub :=
  let moved := h.rd fRadStatusState != 0
  let h1 := (h.resetRegs (fun s _ => s == .radio)).seedRadio.wr fClkStatusXclkOk 0
  let nodes := (List.range 48).foldl (fun m i =>
    let g := h.ctxsOfNode (i + 1)
    if g.isEmpty then m else NMap.set m (i + 1) { (default : RadNode) with gaps := g }) []
  let r : Radio := { (default : Radio) with
    synth := h.rad.synth, image := h.rad.image, filt := h.rad.filt, xtrim := h.rad.xtrim, starts := h.rad.starts, node := nodes }
  let h2 := { h1 with rad := r }
  Hub.radAfterReset h (if moved then (h2.traceState 3 0xC9 0 0).present 0x9000 else h2)

/-- A destructive self-test of the stockpot, of the FIFOs or of the configuration cells runs: queues return idle items and back-pressure (R293, R465). -/
def Hub.stHoldsQueues (h : Hub) : Bool := h.stHeld heldQueue

/-! ### Narrow scopes -/

/-- Contexts a sample port's maps name. -/
def Hub.portCtxs (h : Hub) (n : Nat) : List Nat :=
  dedup ((h.cells.filter (fun e => e.1 / 4096 == 3 * 256 + n && decide (0x100 ≤ e.1 % 4096) && bitOf e.2 31)).map
    (fun e => fieldOf e.2 0 8))

/-- Contexts a two-wire controller's poll fields name. -/
def Hub.twCtxs (h : Hub) (n : Nat) : List Nat :=
  dedup ((h.cells.filter (fun e => e.1 / 4096 == 4 * 256 + n && decide (0x10 ≤ e.1 % 4096) &&
    (e.1 % 8 == 3 || e.1 % 8 == 4) && bitOf e.2 31)).map (fun e => fieldOf e.2 0 8))

/-- PORT reset of a sample port (R111): the frame is abandoned, FIFO, held start, held samples, counters, flags and stamps go,
the plan returns to entry 0; a controller's selects stay high for H periods, and its contexts' next words carry GAP. -/
def Hub.clearPort (h : Hub) (n : Nat) : Hub :=
  let h1 := (h.resetRegs (fun s a => s == .port && decide (a < 0x60000) && portOfAddr a == n)).seedPort n
  let ctl := h1.used 3 n && h1.rd (fSpPCtlRole n) == 0
  let h2 := { h1 with sp := NMap.set h1.sp n { (default : Port) with
    phase := (if ctl then 2 else 0), gaps := h1.portCtxs n } }
  h2.wr (fSpPStatusBusy n) (b2n ctl)

/-- What a reset leaves of a two-wire controller that stood as in `old` (R137): lines released, a bus clear when a transaction was in
progress, held starts and waiting transfers discarded, a running one ended with RESET, GAP due to its contexts. -/
def Hub.twAfterReset (old h : Hub) (n : Nat) : Hub :=
  let x := NMap.get old.tw n
  let h1 := { h with tw := NMap.set h.tw n { (default : TwoWire) with gaps := old.twCtxs n } }
  let h2 := if x.kind = 2 then (h1.wr (fTwCXferResult n) 7).present (0x2200 + n) else h1
  if x.kind = 0 then h2 else h2.wr (fTwCCtlState n) 2

/-- PORT reset of a two-wire controller (R137). -/
def Hub.clearTw (h : Hub) (n : Nat) : Hub :=
  Hub.twAfterReset h
    ((h.resetRegs (fun s a => s == .port && decide (0x60000 ≤ a) && decide (a < 0x80000) && portOfAddr a == 24 + n)).seedTw n) n

/-- End a ring's read-out as at the end of a capture (R297, R299). -/
def Hub.ringIdle (h : Hub) (c : Nat) (rearm : Bool) : Hub :=
  let h1 := { h with ring := NMap.modify h.ring c (fun g => { g with
    hdrDone := false, keep := 0, pos := 0, stop := 0, gone := [], restarted := false, orTag := 0#8, cut := false, rdLost := 0
    lost := 0, overFlag := false, startFlag := false }) }
  h1.wr (fQRStatusState c) (if rearm then 1 else 0)

/-- Contexts whose HEAD digest a flush or reset of the queue stops (R163). -/
def Hub.stopDigests (h : Hub) (q : Nat) : Hub :=
  ((h.usedUnits 5).filter (fun u => decide (32 ≤ u) && h.ctxQueue (u - 32) == q && h.digOn (u - 32) true)).foldl
    (fun a u => { (a.on (fFabCStatusDigLost (u - 32))) with
      ctx := NMap.modify a.ctx (u - 32) (fun y => { y with digStop := true }) }) h

/-- A QUEUE reset (R288): empties the queue, an item in progress is discarded up to its end word, epoch counts; a ring being read
out into it abandons the read-out (R299), and its contexts' digests stop (R163). -/
def Hub.clearQueue (h : Hub) (q : Nat) : Hub :=
  let x := NMap.get h.q q
  let h1 := (h.resetRegs (fun s a => s == .queue && decide (0x1A0000 ≤ a) && decide (a < 0x1B0000) && queueOfAddr a == q)).seedQueue q
  let h2 := h1.count (fQQEpochEpoch q) 1
  let h3 := Hub.stopDigests { h2 with q := NMap.set h2.q q { (default : Queue) with
    holder := x.holder, discard := x.holder.isSome, turn := x.turn } } q
  (h3.cells.filter (fun e => e.1 / 4096 == 9 * 256 + q && decide (0x10 ≤ e.1 % 4096) && e.1 % 4 == 0 && bitOf e.2 0)).foldl
    (fun a e =>
      let c := fieldOf e.2 1 8
      if a.rd (fQRStatusState c) = 3 then
        { (a.ringIdle c (bitOf e.2 13)) with
          outbox := NMap.set a.outbox (prodRing c) []
          q := NMap.modify a.q q (fun y => if y.holder = some (prodRing c) then { y with holder := none, discard := false } else y) }
      else a) h3

/-- A CONTEXT reset of a rewind ring (R299): a capture is cut at the samples written and will be read out, the index restarts; the lines
gathered for it go to their slots. -/
def Hub.clearRing (h : Hub) (c : Nat) : Hub :=
  let g := NMap.get h.ring c
  let st := h.rd (fQRStatusState c)
  let lostW := h.reg (rQRLost c)
  let h0 := match h.ringCfg c with
    | some k => if st = 2 ∨ st = 3 then Hub.storeRings k (g.line.length / 8 + 1) h ((g.next - g.line.length) / 8) g.line else h
    | none => h
  let h1 := h0.resetRegs (fun s a => s == .context && decide (0x1B0000 ≤ a) && decide (a < 0x1B2000) && h.ctxOfAddr a == c)
  if st = 2 then
    ({ h1 with ring := NMap.set h1.ring c { g with
        next := 0, line := [], post := g.next - g.trig, stop := g.next, pos := g.mark, keep := g.trig - g.mark, gone := []
        hdrDone := false, restarted := true, cut := true } }.wr (fQRStatusState c) 3)
  else if st = 3 then
    ({ h1 with ring := NMap.set h1.ring c { g with next := 0, line := [], restarted := true } }.wr (fQRStatusState c) 3).setReg
      (rQRLost c) lostW
  else { h1 with ring := NMap.set h1.ring c default }

/-- SAMPLE words of a context that its queue already holds. -/
def Hub.queuedSamples (h : Hub) (c : Nat) : Nat := ((h.qWords (h.ctxQueue c)).filter (fun w => qKind w == 1)).length

/-- Restart both digests at block 0: HEAD passes over the words already queued (R163). -/
def Hub.digRestart (h : Hub) (c : Nat) : Hub :=
  let d : Digest := default
  { h with ctx := NMap.modify h.ctx c (fun y => { y with
      digIn := d, digHead := { d with skip := h.queuedSamples c }
      blkIn := [], blkHead := [], spoiltBlk := [], digStop := false }) }

/-- A CONTEXT reset (R165, R185, R299, R226): stage history of both copies, both FIFOs, flags, counters, digests, comparator. -/
def Hub.clearCtx (h : Hub) (c : Nat) : Hub :=
  let h0 := (h.chainsOf c).foldl (fun a x => (List.range 8).foldl (fun b i =>
    (b.syncStage x i).modStg x i (fun s => { s with inq := [] })) a) h
  let h1 := h0.resetRegs (fun s a => s == .context && decide (0x80000 ≤ a) && decide (a < 0x1A0000) && h.ctxOfAddr a == c)
  let h2 := (h1.clearRing c).seedCtx c
  let h3 := { h2 with ctx := NMap.set h2.ctx c { (default : Ctx) with gapIn := true, gapOut := true } }
  (((h3.cutOutbox c).digRestart c).clearFea c).wr (fFabCCtlEnable c) (h.cf 5 (32 + c) 0 0 1)

/-- A TILE reset (R165, R192): history of every stage on the tile and its partner, bank state, fades, flags and counters. -/
def Hub.clearTile (h : Hub) (t : Nat) : Hub :=
  (h.domain t).foldl (fun a u =>
    let a1 := { a with tile := NMap.modify a.tile u (fun x => { x with swap := none, wait := none, busy := false, readAt := 0 }) }
    let a2 := (a1.resetRegs (fun s x => s == .tile && decide (0x80000 ≤ x) && decide (x < 0xA0000) && tileOfAddr x == u)).seedTile u
    (a2.stagesOn u).foldl (fun b k => b.syncStage (k / 8) (k % 8)) a2) h

/-! ### The wide scopes -/

/-- Units with something to clear: those used by the structure, listed in a table of records, or with a register listed. -/
def Hub.listedUnits (h : Hub) (f : Nat → Option Nat) : List Nat := dedup (h.regs.filterMap (fun e => f e.1))

/-- MET samples on the fabric side go; the next of each channel carries GAP (R400). -/
def Hub.dropMet (h : Hub) : Hub :=
  { h with metFifo := [], metGap := h.metGap ++ (h.metFifo.map (fun x => x.ch)).filter (fun c => !h.metGap.contains c) }

/-- The registers of tb_met's copy, which only MPOR resets (R326). -/
def tbMetReg (a : Nat) : Bool := decide (0x1C0440 ≤ a) && decide (a < 0x1C0480)

/-- A FABRIC reset (R443): every unit of the QUEUE, CONTEXT, PORT and TILE scopes, spectral engines, feature sets, the limit
engine's input FIFO. -/
def Hub.clearFabric (h : Hub) : Hub :=
  let h1 := h.resetRegs (fun s _ => s == .fabric)
  let h2 := (List.range 24).foldl Hub.clearPort h1
  let h3 := { (List.range 8).foldl Hub.clearTw h2 with ingress := 0 }
  let h4 := (List.range 64).foldl Hub.clearQueue h3
  let h5 := (List.range 192).foldl Hub.clearCtx h4
  ((List.range 32).foldl Hub.clearTile h5).clearSpectral.dropMet

/-- A DEVICE reset (R443): all of the above and the links, the radio, the loader, the event fabric, the time unit and the limit
states; configuration cells return to their load defaults for the reload of R31. -/
def Hub.clearDevice (fx : Fixed) (h : Hub) : Hub :=
  let hold := h.is fLdrCtlHoldBoot
  let h1 := h.dropMet.resetRegs (fun s a => !tbMetReg a && (s == .queue || s == .context || s == .port || s == .tile ||
    s == .link || s == .radio || s == .fabric || s == .device))
  let h2 : Hub := { h1 with
    cells := []
    ldr := { (default : Ldr) with waiting := hold || 2 ≤ fx.bootsrc.val, booted := 0 }
    host := { h1.host with shadows := [], after := [] }
    sp := [], tw := [], ingress := 0, ctx := [], stg := [], tile := [], ev := [], evSeen := default, q := [], ring := [], outbox := []
    tb := [], trig := [], trg := [], tach := [], kt := []
    flt := { h1.flt with upset := [], refs := [], dpWin := [], parity := [], coefSeen := [], upSupp := 0, upMask := 0 }
    stock := h1.stock, dbgHeld := [], job := [], spc := [], fea := [], lim := { (default : Lim) with ups := h1.lim.ups }
    link := [], cas := default
    rad := { (default : Radio) with xtrim := h1.rad.xtrim }
    hlt := { h1.hlt with cycles := 0, retrim := false, wantUp := false } }
  (Hub.radAfterReset h ((List.range 8).foldl (Hub.twAfterReset h) h2)).showRole fx

/-- A POR (R443): everything outside the kettle's POR-kept fields. The two lid fields keep the last state read, valid or not
(DEDUCED, log entry 84); until the lid is read again the permissions are SEALED's (R459). -/
def Hub.clearPor (h : Hub) : Hub :=
  let keep := h.regs.filter (fun e => e.1 == rClkSupCause || tbMetReg e.1)
  let h1 : Hub := { (default : Hub) with
    regs := keep, stock := h.stock, stockFill := h.stockFill, free := h.free, cyc := h.cyc, metGap := h.dropMet.metGap
    hlt := { (default : Hlt) with factory := h.hlt.factory } }
  (h1.wr fHltLcState (h.rd fHltLcState)).wr fGlbStatusLc (h.rd fHltLcState)

/-- What a reset of a scope and unit clears. -/
def Hub.clearScope (fx : Fixed) (h : Hub) (scope unit : Nat) : Hub :=
  match scope with
  | 1 => h.clearQueue unit
  | 2 => h.clearCtx unit
  | 3 => if unit < 24 then h.clearPort unit else h.clearTw (unit - 24)
  | 4 => h.clearTile unit
  | 5 => h.clearLink fx unit
  | 6 => h.clearRadio
  | 7 => h.clearFabric
  | 8 => h.clearDevice fx
  | 9 => h.clearPor.wr fClkSupCauseCause 5
  | _ => h

/-- Alarm items a queue holds. -/
def Hub.alarmItems (h : Hub) (q : Nat) : Nat := ((h.qWords q).filter (fun w => qEnd w && qKind w == 4)).length

/-- Alarm items a recovery discards with its queues (R441 word 8). -/
def Hub.alarmItemsLost (h : Hub) (scope unit : Nat) : Nat :=
  if scope = 1 then h.alarmItems unit else if 7 ≤ scope then (h.q.map (fun e => h.alarmItems e.1)).sum else 0

end Sys2Proof.Machine
end

