-- ==== Sys2Proof/Machine/Faults.lean ====
section
/-! DEFINITION. Raising a fault and running recoveries (spec/16 R440, R441, R443 to R447). -/

namespace Sys2Proof.Machine
open Sys2Proof

/-- The source code of a recovering scope in RECOVERY, ESCALATED and REC_TIMEOUT records (R441). -/
def scopeSource (scope : Nat) : Nat :=
  if scope = 1 then 0xC6 else if scope = 3 then 0xC1 else if scope = 2 ∨ scope = 4 ∨ scope = 7 then 0xC2
  else if scope = 5 then 0xC8 else if scope = 6 then 0xC9 else 0xCA

/-- Report a fault: count it, show it as the last one and write its FAULT record (R440, R441, R456). -/
def Hub.reportFault (h : Hub) (code scope unit src : Nat) (d7 d8 : Word) : Hub :=
  let h1 := (((h.wr fHltFltLastCode code).wr fHltFltLastScope scope).wr fHltFltLastUnit unit).countSat fHltFltCountFaults 1
  h1.log 0x20 src code scope unit d7 d8

/-- Recompute `hlt.rec.active`, `hlt.flt.status.busy` and `glb.reset.busy` from the running recoveries (R445, R456, R81). -/
def Hub.showRecs (h : Hub) : Hub :=
  let act := (List.range 9).foldl (fun a i => if h.flt.recs.any (fun r => r.scope == i + 1) then a + 2 ^ i else a) 0
  ((h.wr fHltRecActiveActive act).wr fHltFltStatusBusy (b2n (!h.flt.recs.isEmpty))).wr fGlbResetBusy
    (b2n (h.flt.recs.any (fun r => r.host)))

/-- A reset's scope covers a user of a memory group (R468). -/
def resetHits (scope g : Nat) : Bool :=
  decide (7 ≤ scope) || ((scope == 1 || scope == 2) && g == 0) || (scope == 4 && (g == 1 || g == 2))

/-- Running self-tests whose memory a reset's users hold end with cause RESET (R468). -/
def Hub.testsReset (h : Hub) (scope : Nat) : Hub :=
  { h with hlt := { h.hlt with test := h.hlt.test.foldl (fun m e =>
      if resetHits scope e.1 && e.2.run && e.2.cause == 0 then NMap.set m e.1 { e.2 with cause := 2 } else m) h.hlt.test } }

/-- Start a recovery of a scope: clear what the scope clears, take over the narrower recoveries it covers, and show it
(R443, R445). -/
def Hub.startRec (fx : Fixed) (h : Hub) (r : Rec) : Hub :=
  let inner := h.flt.recs.filter (fun x => scopeCovers r.scope x.scope || (x.scope == r.scope && x.unit == r.unit))
  let r1 := { r with
    start := inner.foldl (fun a x => min a x.start) r.start
    restarts := inner.foldl (fun a x => a + x.restarts) r.restarts
    escs := inner.foldl (fun a x => a + x.escs) r.escs
    lostItems := inner.foldl (fun a x => a + x.lostItems) (r.lostItems + h.alarmItemsLost r.scope r.unit)
    host := r.host || inner.any (fun x => x.host) }
  let h1 := { h with flt := { h.flt with
    recs := h.flt.recs.filter (fun x => !(scopeCovers r.scope x.scope || (x.scope == r.scope && x.unit == r.unit))) } }
  let h2 := (h1.testsReset r.scope).clearScope fx r.scope r.unit
  let h3 := { h2 with flt := { h2.flt with recs := h2.flt.recs ++ [r1] } }
  -- `run` shows RECOVERING in a FABRIC recovery too, so that every block but `glb`, `hst`, `clk`, `ldr`, `hlt` and `met` waits for
  -- its end (DESIGN CHOICE, log entry 87)
  let h4 := if 7 ≤ r.scope then h3.wr fGlbStatusRun 4 else h3
  h4.showRecs

/-- The scope and unit a recovery escalates to (R443): the hub halts after POR. -/
def Hub.nextScope (h : Hub) (scope unit : Nat) : Option (Nat × Nat) :=
  if scope = 1 ∨ scope = 3 ∨ scope = 4 then some (7, 0)
  else if scope = 2 then
    match h.tilesOf unit with
    | t :: _ => some (4, t)
    | [] => some (7, 0)
  else if scope = 5 ∨ scope = 6 ∨ scope = 7 then some (8, 0)
  else if scope = 8 then some (9, 0)
  else none

/-- Escalate a recovery to its next scope, with an ESCALATED record of the scope called for (R446, R456); out of POR the hub halts
(R447). -/
def Hub.escalate (fx : Fixed) (h : Hub) (r : Rec) : Hub :=
  let h1 := (h.on fHltFltStatusEscalated).countSat fHltFltCountEscalations 1
  let src := scopeSource r.scope
  match h.nextScope r.scope r.unit with
  | some (sc, u) =>
    let h2 := h1.reportFault 0x72 sc u src 0#32 0#32
    let more := if r.scope = 2 then (h.tilesOf r.unit).drop 1 else []
    let h3 := h2.startRec fx { r with scope := sc, unit := u, faults := 1, escs := r.escs + 1 }
    let h4 := more.foldl (fun a t => a.startRec fx
      { r with scope := 4, unit := t, faults := 1, restarts := 0, escs := 1, lostItems := 0 }) h3
    { h4 with flt := { h4.flt with recs := h4.flt.recs.filter (fun x => !(x.scope == r.scope && x.unit == r.unit)) } }.showRecs
  | none =>
    let h2 := h1.reportFault 0x72 0 0 src 0#32 0#32
    ({ h2 with flt := { h2.flt with recs := [] } }.showRecs).wr fGlbStatusRun 6

/-- A fault calls for a recovery of its scope (R446): it starts one; of the faults counted while one runs, the second restarts it once
and the third escalates it; under a running wider recovery it is only reported. The fault that started or escalated a recovery is its
first; a host request is none (R445, log entry 121). -/
def Hub.callRec (fx : Fixed) (h : Hub) (scope unit : Nat) : Hub :=
  if h.flt.recs.any (fun r => scopeCovers r.scope scope) then h
  else match h.flt.recs.find? (fun r => r.scope == scope && r.unit == unit) with
    | some r =>
      let h1 := { h with flt := { h.flt with recs := h.flt.recs.filter (fun x => !(x.scope == scope && x.unit == unit)) } }
      if r.faults = 0 then { h1 with flt := { h1.flt with recs := h1.flt.recs ++ [{ r with faults := 1 }] } }
      else if r.faults = 1 then
        (h1.countSat fHltFltCountRestarts 1).startRec fx { r with faults := 2, restarts := r.restarts + 1 }
      else h.escalate fx r
    | none => h.startRec fx { (default : Rec) with scope := scope, unit := unit, start := h.cyc, faults := 1 }

/-- A fault in something a running recovery depends on escalates it at once (R446). -/
def Hub.escalateOf (fx : Fixed) (h : Hub) (scope unit : Nat) : Hub :=
  match h.flt.recs.find? (fun r => r.scope == scope && r.unit == unit) with
  | some r => h.escalate fx r
  | none => h

/-- A running recovery depends on a unit whose fault calls for a recovery: a CONTEXT on its tiles and its queue, a TILE on its
partner (R446). -/
def Hub.dependsOn (h : Hub) (r : Rec) (scope unit : Nat) : Bool :=
  (r.scope == 2 && scope == 4 && (h.tilesOf r.unit).contains unit) ||
  (r.scope == 2 && scope == 1 && h.cf 5 (32 + r.unit) 0 8 6 == unit) ||
  (r.scope == 4 && scope == 4 && h.partnerOf r.unit == some unit)

/-- Escalate the running recoveries that meet a condition. -/
def Hub.escalateAll (fx : Fixed) (h : Hub) (p : Rec → Bool) : Hub :=
  (h.flt.recs.filter p).foldl (fun a r => a.escalateOf fx r.scope r.unit) h

/-- Raise a fault that calls for no recovery. -/
def Hub.fault (h : Hub) (code unit src : Nat) (d7 d8 : Word) : Hub := h.reportFault code 0 unit src d7 d8

/-- Raise a fault that calls for a recovery. The record of a fault that resets q62 is the queue's first item after the reset
(R289). -/
def Hub.faultRec (fx : Fixed) (h : Hub) (code scope unit src : Nat) (d7 d8 : Word) : Hub :=
  let h1 := if scope = 1 ∧ unit = 62 then (h.callRec fx scope unit).reportFault code scope unit src d7 d8
    else (h.reportFault code scope unit src d7 d8).callRec fx scope unit
  h1.escalateAll fx (fun r => h1.dependsOn r scope unit)

/-- Microseconds since a TCLK cycle. -/
def Hub.microsSince (h : Hub) (c : Nat) : Nat := (h.cyc - c) / 800

/-- The words of a RECOVERY record (R441). -/
def Hub.recoveryWords (h : Hub) (r : Rec) : List Word :=
  h.logBody 0x21 (scopeSource r.scope) 0 r.scope r.unit (w32 (h.microsSince r.start))
    (w32 (satTo 8 r.restarts * 2 ^ 24 + satTo 8 r.escs * 2 ^ 16 + satTo 16 r.lostItems))

/-- Close a recovery that has ended: `last_reset`, `hlt.rec.last`, `rec_done` and its record (R445, R456). A DEVICE or POR
record that comes before the reload's full load has taken effect is held until then. -/
def Hub.closeRec (h : Hub) (r : Rec) : Hub :=
  let h1 := { h with flt := { h.flt with
    recs := h.flt.recs.filter (fun x => !(x.scope == r.scope && x.unit == r.unit)) } }
  let h2 := (((({ h1 with hlt := { h1.hlt with recs := h1.hlt.recs + 1 } }.wr fGlbStatusLastReset r.scope).wr fHltRecLastScope r.scope).wr fHltRecLastRestarts r.restarts).wr
    fHltRecLastDur (satTo 24 (h.microsSince r.start))).on fHltFltStatusRecDone
  let h3 := if 8 ≤ r.scope ∧ h2.is fLdrStatusConfigured = false then { h2 with flt := { h2.flt with heldRec := h.recoveryWords r } }
    else h2.logWords 0x21 (h.recoveryWords r)
  h3.showRecs

end Sys2Proof.Machine
end

