-- ==== Sys2Proof/Machine/Alarms.lean ====
section
/-! DEFINITION. The alarm paths: pending slots, coalescing and buckets (spec/16 R448 to R452). Path 0 is HOST, 1 CASCADE, 2
RADIO. -/

namespace Sys2Proof.Machine
open Sys2Proof

/-! ### The cascade as the alarm path sees it (R336, R338, R342) -/

/-- Credits of 64 bytes a class starts with. -/
def casCredits (cls : Nat) : Nat := if cls = 0 then 8 else if cls = 3 then 184 else 32

/-- Credits the transmitter holds for a class. -/
def Link.avail (x : Link) (cls : Nat) : Nat :=
  casCredits cls - (NMap.get x.used cls + 16384 - NMap.get x.got cls) % 16384

/-- A port's link is UP (R332). -/
def Hub.linkUp (h : Hub) (p : Nat) : Bool := h.rd (fCasPStatusState p) == 2

/-- The master: CMSTR high and no partner on UP. Standalone: CMSTR low and no partner on any port (R342). -/
def Hub.isMaster (fx : Fixed) (h : Hub) : Bool := fx.cmstr && h.rd (fCasPStatusPartner 0) == 0
def Hub.standalone (fx : Fixed) (h : Hub) : Bool :=
  !fx.cmstr && h.rd (fCasPStatusPartner 0) == 0 && h.rd (fCasPStatusPartner 1) == 0 && h.rd (fCasPStatusPartner 2) == 0

/-! ### Sending (R449) -/

/-- The bucket of a path. -/
def pathBucket (p : Nat) : Nat := if p = 0 then 0 else if p = 1 then 3 else 5

/-- The alarm queue has room for one more record beside the words it holds and those it is still to take. -/
def Hub.alarmRoom (h : Hub) (n : Nat) : Bool :=
  let q := h.rd fLimCfgAlarmQ
  h.qEnabled q && !h.recovering 1 q && decide ((NMap.get h.q q).level + h.qWaiting prodAlarm q + n ≤ h.qCap q)

/-- ALARM credits remain for one more frame beside those waiting. -/
def Hub.alarmCredit (h : Hub) (n : Nat) : Bool :=
  let x := NMap.get h.link 0
  let owed := ((x.txq.filter (fun i => i.cls == 2)).map (fun i => frameCost i.f.words.length)).sum
  h.linkUp 0 && decide (owed + frameCost n ≤ x.avail 2)

/-- A path can send a record now. Records leave on the RADIO path in DOWN slots only (R386). -/
def Hub.pathCan (h : Hub) (p n : Nat) : Bool :=
  decide (0 < h.bkTokens (pathBucket p)) && (if p = 0 then h.alarmRoom n else if p = 1 then h.alarmCredit n else false)

/-- Send a record: a token goes; the words go to the alarm queue, or as an ALARM frame to device 0. -/
def Hub.pathSend (h : Hub) (p : Nat) (ws : List Word) : Hub :=
  let h1 := h.bkTake (pathBucket p)
  if p = 0 then h1.pushOut prodAlarm (h1.rd fLimCfgAlarmQ) (recordWords 4 ws)
  else
    { h1 with link := NMap.modify h1.link 0 (fun x => { x with txq := x.txq ++
        [{ src := 3, cls := 2, bridge := false
           f := { bcast := false, dst := 0#9, src := BitVec.ofNat 9 h1.devnum, sub := 0#6, seq := 0#12, cont := false
                  words := recordWords 4 ws, crcOk := true } }] }) }

/-! ### Pending slots (R450, R451, R457) -/

/-- Store a path's pending slots and show their number; on HOST the master's landing-store keys are counted apart. -/
def Hub.setPend (h : Hub) (p : Nat) (l : List AlarmSlot) : Hub :=
  let own := (l.filter (fun s => decide (s.key < 8192))).length
  ({ h with flt := { h.flt with pend := NMap.set h.flt.pend p l } }.wr (fHltPendSlots p) own).wr (fHltPendKeys p) (l.length - own)

/-- Word `k` of a record. -/
def recWord (ws : List Word) (k : Nat) : Word := ws.getD k 0#32

/-- A record coalesces into a slot: words 1 to 5 of the first, counts added, the newest new level, value, level crossed and
last time. -/
def coalesce (a b : List Word) : List Word :=
  let n := satTo 16 (fieldOf (recWord a 6) 0 16 + fieldOf (recWord b 6) 0 16)
  (a.take 5) ++ [putField (recWord a 5) 8 2 (fieldOf (recWord b 5) 8 2), putField (recWord a 6) 0 16 n, recWord b 7,
    recWord b 8] ++ (b.drop 9)

/-- A new alarm on a path: it coalesces into its slot, is sent at once when nothing is pending and the path can send, or becomes
pending behind the slots already there. -/
def Hub.alarmTo (h : Hub) (p : Nat) (s : AlarmSlot) : Hub :=
  let l := NMap.get h.flt.pend p
  if l.any (fun x => x.key == s.key) then
    (h.setPend p (l.map (fun x => if x.key = s.key then { x with words := coalesce x.words s.words } else x))).countSat
      (fHltBkCount (pathBucket p)) 1
  else if l.isEmpty && h.pathCan p s.words.length then h.pathSend p s.words
  else (h.setPend p (l ++ [s])).on fHltFltStatusAlarmPend

/-- Pending slots leave in order while the path can send. -/
def Hub.drainSlots (p : Nat) (h : Hub) : List AlarmSlot → Hub
  | [] => h.setPend p []
  | s :: t => if h.pathCan p s.words.length then Hub.drainSlots p (h.pathSend p s.words) t else h.setPend p (s :: t)

/-- What a token, queue room or credits let out: pending alarms of HOST and CASCADE, and a due SUPPRESSED record (R450, R452). -/
def Hub.drainPaths (h : Hub) : Hub :=
  let h1 := if (NMap.get h.flt.pend 0).isEmpty then h else h.drainSlots 0 (NMap.get h.flt.pend 0)
  let h2 := if (NMap.get h1.flt.pend 1).isEmpty then h1 else h1.drainSlots 1 (NMap.get h1.flt.pend 1)
  h2.sendSuppressed.sendUpSuppressed

end Sys2Proof.Machine
end

