-- ==== Sys2Proof/Machine/Taps.lean ====
section
/-! DEFINITION. What listens to a stage point of a context beside its next stage: rewind rings, the feature tap and sending
bridges. -/

namespace Sys2Proof.Machine
open Sys2Proof

/-! ### Tag bits (R103) -/
def tSettle : BitVec 8 := 0x80#8
def tCal : BitVec 8 := 0x40#8
def tBridged : BitVec 8 := 0x20#8
def tSat : BitVec 8 := 0x10#8
def tDip : BitVec 8 := 0x08#8
def tAborted : BitVec 8 := 0x04#8
def tGap : BitVec 8 := 0x02#8
def tLate : BitVec 8 := 0x01#8

/-- A tag bit is set. -/
def Samp.has (x : Samp) (t : BitVec 8) : Bool := x.tag &&& t != 0#8
/-- Add tag bits. -/
def Samp.add (x : Samp) (t : BitVec 8) : Samp := { x with tag := x.tag ||| t }
/-- Add a tag bit when a condition holds. -/
def Samp.addIf (x : Samp) (b : Bool) (t : BitVec 8) : Samp := if b then x.add t else x

/-! ### Rewind rings (R294, R296, R298) -/

def Hub.ringState (h : Hub) (c : Nat) : Nat := h.rd (fQRStatusState c)

/-- REWIND_OVERRUN (R296). -/
def Hub.ringOverrun (h : Hub) (c : Nat) : Hub := (h.on (fQRStatusOverrun c)).present (0x6400 + c)

/-- Before the writer starts a line it discards what stands in the slot: CAPTURING, the mark moves past a line that held it; READING, an
unread line of the capture is lost to the read-out. -/
def Hub.ringStart (h : Hub) (c : Nat) (k : RingCfg) : Hub :=
  let g := NMap.get h.ring c
  let ln := g.next / 8
  let st := h.ringState c
  if st = 2 ∧ g.mark / 8 + k.lines ≤ ln then
    let m := 8 * (ln - k.lines + 1)
    { h.ringOverrun c with ring := NMap.set h.ring c { g with mark := m, lost := g.lost + 8, overFlag := true } }
  else if st = 3 then
    let lost := ((List.range ((g.stop + 7) / 8 - g.pos / 8)).map (fun i => g.pos / 8 + i)).filter (fun l =>
      k.slot l == k.slot ln && !g.gone.contains l)
    if lost.isEmpty then h
    else { (h.ringOverrun c).on (fQRStatusRdLost c) with ring := NMap.set h.ring c { g with gone := g.gone ++ lost } }
  else h

/-- The capture is complete and its read-out begins at the mark; the pre-trigger length kept is taken now. -/
def Hub.ringDone (h : Hub) (c : Nat) : Hub :=
  { h with ring := NMap.modify h.ring c (fun g => { g with
      pos := g.mark, keep := g.trig - g.mark, stop := g.trig + g.post, gone := [], restarted := false, hdrDone := false }) }.wr
    (fQRStatusState c) 3

/-- A sample of the ring's stage point is written: it joins the line being gathered, and the last one of a capture completes it. -/
def Hub.ringSample (h : Hub) (c point : Nat) (x : Samp) : Hub :=
  match h.ringCfg c with
  | some k =>
    if k.point = point then
      let h0 := if (NMap.get h.ring c).next % 8 = 0 then h.ringStart c k else h
      let h1 := { h0 with ring := NMap.modify h0.ring c (fun g => { g with next := g.next + 1, line := g.line ++ [x] }) }
      let g := NMap.get h1.ring c
      let h2 := h1.wr (fQRWposWpos c) g.next
      if h2.ringState c = 2 ∧ g.trig + g.post ≤ g.next then h2.ringDone c else h2
    else h
  | none => h

end Sys2Proof.Machine
end

