-- ==== Sys2Proof/Machine/BridgeTap.lean ====
section
/-! DEFINITION. What sending bridges take from a stage point (spec/13 R352). -/

namespace Sys2Proof.Machine
open Sys2Proof

/-- A field of cell `k` of bridge `b` (R359). -/
def Hub.bgCell (h : Hub) (b k lo len : Nat) : Nat := h.cf 11 3 (0x10 + 4 * b + k) lo len

/-- Bridge `b` is valid and sends. -/
def Hub.bgSends (h : Hub) (b : Nat) : Bool :=
  h.is fLdrStatusConfigured && h.bgCell b 0 0 1 == 1 && h.bgCell b 0 1 1 == 0

def Hub.bg (h : Hub) (b : Nat) : Bridge := NMap.get h.cas.bridge b
def Hub.setBg (h : Hub) (b : Nat) (x : Bridge) : Hub := { h with cas := { h.cas with bridge := NMap.set h.cas.bridge b x } }

/-- A sample reaches a bridge's store of 512 with its output count or release time: discarded when it is full, and the next one carries
GAP. -/
def Hub.bgPush (h : Hub) (b : Nat) (x : Samp) (due : Nat) : Hub :=
  let y := h.bg b
  if 512 ≤ y.fifo.length then (h.setBg b { y with gap := true }).countSat (fCasBgErrGap b) 1
  else h.setBg b { y with fifo := y.fifo ++ [x.addIf y.gap tGap], due := y.due ++ [due], gap := false }

/-- The sending bridges at stage point `s` of context `c` take a sample; its MARK would name the count of the context's next output. -/
def Hub.bridgeSample (h : Hub) (c s : Nat) (x : Samp) : Hub :=
  ((List.range 32).filter (fun b => h.bgSends b && h.bgCell b 0 2 8 == c && h.bgCell b 0 10 4 == s)).foldl
    (fun a b => a.bgPush b x ((a.rd (fFabCOutcountOutcount c) + 1) % 2 ^ 32)) h

end Sys2Proof.Machine
end

