-- ==== Sys2Proof/Machine/Binary32.lean ====
section
/-! DEFINITION. IEEE 754 binary32 and binary16 as the feature and limit engines use them: values rounded once, to nearest even,
from exact rationals and square roots, and exact comparisons (spec/09 R230, R240). -/

namespace Sys2Proof.Machine
open Sys2Proof

/-- floor(log2 n), 0 for 0, by halving `fuel` times at most. -/
def ilog2 : Nat → Nat → Nat
  | 0, _ => 0
  | f + 1, n => if n < 2 then 0 else 1 + ilog2 f (n / 2)

/-- floor(√n), built bit by bit from bit `k` down. -/
def isqrtFrom : Nat → Nat → Nat → Nat
  | 0, n, r => if (r + 1) * (r + 1) ≤ n then r + 1 else r
  | k + 1, n, r =>
    let t := r + 2 ^ (k + 1)
    isqrtFrom k n (if t * t ≤ n then t else r)

def isqrt (n : Nat) : Nat := isqrtFrom (ilog2 4096 n / 2 + 1) n 0

/-- Scale a fraction by 2^-e (e may be negative): numerator and denominator. -/
def scaleFrac (n d : Nat) (e : Int) : Nat × Nat :=
  if e < 0 then (n * 2 ^ (-e).toNat, d) else (n, d * 2 ^ e.toNat)

/-- The binary32 word of mantissa `m` (at most 2^24) times 2^e. -/
def packF32 (neg : Bool) (m : Nat) (e : Int) : Word :=
  let (m1, e1) := if 16777216 ≤ m then (m / 2, e + 1) else (m, e)
  let body := if m1 < 8388608 then m1
    else if 104 < e1 then 255 * 8388608
    else (e1 + 150).toNat * 8388608 + (m1 - 8388608)
  w32 (b2n neg * 2 ^ 31 + body)

/-- Quotient rounded to nearest even. -/
def roundDiv (n d : Nat) : Nat :=
  if d = 0 then 0
  else
    let q := n / d
    let r := n % d
    if d < 2 * r then q + 1 else if 2 * r = d then q + q % 2 else q

/-- The exponent at which a quotient near 2^l has 24 bits, not below the subnormal one. -/
def pickExp (l : Int) (floorAt : Int → Nat) : Int :=
  let e := l - 23
  let c := if 8388608 ≤ floorAt (e + 1) then e + 1 else if 8388608 ≤ floorAt e then e else e - 1
  if c < -149 then -149 else c

/-- n / d as binary32, rounded to nearest even. -/
def f32Ratio (neg : Bool) (n d : Nat) : Word :=
  if n = 0 ∨ d = 0 then 0#32
  else
    let l : Int := (ilog2 4096 n : Int) - (ilog2 4096 d : Int)
    let e := pickExp l (fun e => let p := scaleFrac n d e; p.1 / p.2)
    let p := scaleFrac n d e
    packF32 neg (roundDiv p.1 p.2) e

/-- √(n / d) as binary32, rounded to nearest even. -/
def f32Sqrt (n d : Nat) : Word :=
  if n = 0 ∨ d = 0 then 0#32
  else
    let l : Int := ((ilog2 4096 n : Int) - (ilog2 4096 d : Int)) / 2
    let fl (e : Int) : Nat := let p := scaleFrac n d (2 * e); isqrt (p.1 / p.2)
    let e := pickExp l fl
    let p := scaleFrac n d (2 * e)
    let q := isqrt (p.1 / p.2)
    let h := (2 * q + 1) * (2 * q + 1) * p.2
    let m := if h < 4 * p.1 then q + 1 else if h = 4 * p.1 then q + q % 2 else q
    packF32 false m e

/-- A signed rational as binary32. -/
def f32OfInt (n : Int) (d : Nat) : Word := f32Ratio (n < 0) n.natAbs d

/-- A binary32 word's value in units of 2^-149. Infinities count as 2^128. -/
def f32Val (w : Word) : Int :=
  let e := fieldOf w 23 8
  let m := fieldOf w 0 23
  let v : Nat := if e = 0 then m else if e = 255 then 2 ^ 277 else (m + 8388608) * 2 ^ (e - 1)
  if bitOf w 31 then -(v : Int) else v

/-- NaN or infinite. -/
def f32Special (w : Word) : Bool := fieldOf w 23 8 == 255

/-- A binary16 half word's value in units of 2^-149. -/
def f16Val (n : Nat) : Int :=
  let e := natField n 10 5
  let m := natField n 0 10
  let v : Nat := (if e = 0 then m else (m + 1024) * 2 ^ (e - 1)) * 2 ^ 125
  if natField n 15 1 = 1 then -(v : Int) else v

/-- A value in units of 2^-149 as binary32. -/
def f32OfVal (v : Int) : Word := f32OfInt v (2 ^ 149)

end Sys2Proof.Machine
end

