-- ==== Sys2Proof/Machine/Trig.lean ====
section
/-! DEFINITION. Sines, cosines and arc tangents in fixed point, far finer than any word the hub keeps: the series of R210's tables,
R224's windows, R225's transform and R233's phases. -/

namespace Sys2Proof.Machine
open Sys2Proof

/-- π in units of 2^-320. -/
def pi320 : Nat :=
  6710401180212168915155840974220003240804194089427148950727106424351713218671805380099500388914039

/-! ### Sine and cosine of a fraction of a turn, in units of 2^-128 -/

/-- The alternating series of cosine (from `n` = 0, term 1) and sine (from `n` = 1, term a), where `a2` is the angle's square. -/
def trigSeries (a2 : Nat) : Nat → Nat → Nat → Int
  | 0, _, _ => 0
  | f + 1, n, term => (term : Int) - trigSeries a2 f (n + 2) (term * a2 / 2 ^ 128 / ((n + 1) * (n + 2)))

/-- Cosine of num/den of a right angle, num ≤ den. -/
def cosRight (num den : Nat) : Int :=
  if num = den then 0
  else
    let flip := decide (den < 2 * num)
    let r := if flip then den - num else num
    let a := pi320 / 2 ^ 193 * r / den
    if flip then trigSeries (a * a / 2 ^ 128) 24 1 a else trigSeries (a * a / 2 ^ 128) 24 0 (2 ^ 128)

/-- Cosine and sine of num/den of a turn. -/
def cosTurn (num den : Nat) : Int :=
  let q := 4 * num / den % 4
  let r := 4 * num % den
  if q = 0 then cosRight r den else if q = 1 then -cosRight (den - r) den
  else if q = 2 then -cosRight r den else cosRight (den - r) den
def sinTurn (num den : Nat) : Int := cosTurn (4 * num + 3 * den) (4 * den)

/-- A Q1.23 word of a value in units of 2^-128: the spec names the function and not the rounding, which `up` leaves open; 1 is no
Q1.23 number and is held as the largest one. -/
def q23 (up : Bool) (v : Int) : Int :=
  let f := v / 2 ^ 105
  min 8388607 (if up && v % 2 ^ 105 != 0 then f + 1 else f)

/-! ### Windows (R224) -/

/-- Entry `n` of the ROM of a window kind at N = 16,384, a Q1.23 word rounded to nearest, 1 held as the largest one. -/
def winRom (win n : Nat) : Int :=
  let one : Int := 2 ^ 128
  let c (m : Nat) : Int := cosTurn (m * n % 16384) 16384
  let v : Int :=
    if win = 0 then one
    else if win = 1 then (one - c 1) / 2
    else (21557895 * one - 41663158 * c 1 + 27726316 * c 2 - 8357895 * c 3 + 694737 * c 4) / 100000000
  min 8388607 ((v + 2 ^ 104) / 2 ^ 105)

/-- The window of size N. -/
def winOf (win n : Nat) : List Int := (List.range n).map (fun i => winRom win (i * (16384 / n)))

/-- N × CG, and ENBW as numerator and denominator, computed from the stored entries. -/
def winSum (win n : Nat) : Int := (winOf win n).sum
def enbw (win n : Nat) : Nat × Nat :=
  (n * ((winOf win n).map (fun w => w.natAbs * w.natAbs)).sum, (winSum win n).natAbs * (winSum win n).natAbs)

/-! ### The transform (R225, R253) -/

/-- Arithmetic noise of a bin: nobody fixes it within −150 dB of a full-scale sine. -/
def binNoise (xs : List Int) (win k : Nat) : Int × Int :=
  let z := Config.binNoise xs win k
  if z.1 * z.1 + z.2 * z.2 ≤ 2225255 * 2225255 then z else (0, 0)

/-- X[k] of a block under a window, real and imaginary part in units of 2^-46. -/
def binX (xs : List Int) (win k : Nat) : Int × Int :=
  let n := xs.length
  let ws := (List.zipWith (fun w x => w * x) (winOf win n) xs).zipIdx
  let ck : Int := if k = 0 ∨ 2 * k = n then 1 else 2
  let den : Int := winSum win n * 2 ^ 105
  let re := (ws.map (fun p => p.1 * cosTurn (k * p.2 % n) n)).sum
  let im := (ws.map (fun p => p.1 * sinTurn (k * p.2 % n) n)).sum
  let z := binNoise xs win k
  (ck * re / den + z.1, -(ck * im / den) + z.2)

/-! ### Arc tangent, in units of 2^-320 -/

/-- The alternating series of the arc tangent, where `t2` is the tangent's square. -/
def atanSeries (t2 : Nat) : Nat → Nat → Nat → Int
  | 0, _, _ => 0
  | f + 1, k, term => ((term / (2 * k + 1) : Nat) : Int) - atanSeries t2 f (k + 1) (term * t2 / 2 ^ 320)

/-- tan(φ / 2) from tan φ. -/
def halfTan (t : Nat) : Nat := t * 2 ^ 320 / (2 ^ 320 + isqrt (2 ^ 640 + t * t))

/-- Arc tangent of y / x for 0 ≤ y ≤ x. -/
def atanOf (y x : Nat) : Int :=
  let t := halfTan (halfTan (halfTan (halfTan (y * 2 ^ 320 / x))))
  16 * atanSeries (t * t / 2 ^ 320) 40 0 t

end Sys2Proof.Machine
end

