-- ==== Sys2Proof/Machine/Features.lean ====
section
/-! DEFINITION. Feature sets: TIME, BAND and BIN values and the records they finish (spec/09 R230 to R236). -/

namespace Sys2Proof.Machine
open Sys2Proof

/-! ### Cells (R248) -/
def Hub.feaOn (h : Hub) (c : Nat) : Bool := h.is fLdrStatusConfigured && h.cf 6 (4 + c) 0 0 1 == 1
def Hub.feaN (h : Hub) (c : Nat) : Nat := 2 ^ h.cf 6 (4 + c) 0 1 5
def Hub.feaAc (h : Hub) (c : Nat) : Bool := h.cf 6 (4 + c) 0 6 1 == 1
def Hub.feaQueue (h : Hub) (c : Nat) : Nat := h.cf 6 (4 + c) 0 7 6
/-- Number of bands, 0 while bands are off. -/
def Hub.feaBands (h : Hub) (c : Nat) : Nat := if h.cf 6 (4 + c) 1 0 1 = 1 then h.cf 6 (4 + c) 1 9 5 + 1 else 0

/-! ### TIME values (R231) -/

/-- A sample as an integer. -/
def sInt (x : Samp) : Int := x.val.toInt

/-- The sums a TIME record needs. -/
structure TimeSums where
  n : Nat
  sum : Int
  sq : Nat
  peak : Nat
  lo : Int
  hi : Int
  deriving DecidableEq, Repr

/-- Sums over samples. -/
def timeSums (xs : List Samp) : TimeSums :=
  let vs := xs.map sInt
  let v0 := vs.headD 0
  { n := xs.length, sum := vs.sum, sq := (vs.map (fun v => v.natAbs * v.natAbs)).sum
    peak := (vs.map Int.natAbs).foldl max 0, lo := vs.foldl min v0, hi := vs.foldl max v0 }

/-- Full scale of a sample (R230). -/
def fsc : Nat := 2 ^ 23

/-- MEAN, RMS, PEAK, P2P, CREST and KURT of a block, each the exact value rounded once. -/
def timeValues (ac : Bool) (xs : List Samp) : List Word :=
  let t := timeSums xs
  let n := t.n
  let ys := xs.map (fun x => ((n : Int) * sInt x - t.sum).natAbs)
  let s2 := (ys.map (fun y => y * y)).sum
  let s4 := (ys.map (fun y => y * y * y * y)).sum
  let pk := if ac then ys.foldl max 0 else t.peak
  let mean := f32OfInt t.sum (n * fsc)
  let rms := if ac then f32Sqrt s2 (n * n * n * fsc * fsc) else f32Sqrt t.sq (n * fsc * fsc)
  let peak := if ac then f32Ratio false pk (n * fsc) else f32Ratio false pk fsc
  let p2p := f32OfInt (t.hi - t.lo) fsc
  let crest := if ac then f32Sqrt (pk * pk * n) s2 else f32Sqrt (pk * pk * n) t.sq
  let kurt := f32Ratio false (n * s4) (s2 * s2)
  [mean, rms, peak, p2p, crest, kurt]

/-! ### Finishing a record (R234, R236, R239, R247) -/

/-- A record takes its place: in order of arrival, of one cycle the lower context first, of one context TIME, BAND, BIN (R239). -/
def limInsert (r : FeaRec) : List FeaRec → List FeaRec
  | [] => [r]
  | y :: t => if r.cyc = y.cyc ∧ 3 * r.ctx + r.set < 3 * y.ctx + y.set then r :: y :: t else y :: limInsert r t

/-- Give a record to the limit engine's input FIFO of 64 records. -/
def Hub.limPush (h : Hub) (r : FeaRec) : Hub :=
  if 64 ≤ h.lim.fifo.length then (h.on fLimStatusOver).countSat fLimCountDropped 1
  else { h with lim := { h.lim with fifo := limInsert { r with cyc := h.cyc } h.lim.fifo } }

/-- A queue holds its producers back: full, held by another producer's item, in recovery or under a destructive self-test. -/
def Hub.qHolds (h : Hub) (q p : Nat) : Bool :=
  let x := NMap.get h.q q
  decide (h.qCap q ≤ x.level) || (match x.holder with | some o => o != p | none => false) || h.recovering 1 q || h.stHoldsQueues

/-- The words of a FEATURE record. -/
def featureWords (h : Hub) (r : FeaRec) (snap : Bool) (n : Nat) : List Word :=
  match timeWords r.time with
  | [a, b, d, f] =>
    [recHeader 0x11 r.ctx (6 + r.vals.length), a, b, d,
     f ||| w32 (r.tag.toNat * 256 + b2n (r.set == 0 && h.feaAc r.ctx) * 2 + b2n snap), w32 (r.set * 2 ^ 24 + n)] ++ r.vals
  | _ => []

/-- A feature set finishes a record: counted and presented; queued when delivered, unless the queue holds back a record finished before;
passed to the limit engine unless it is a snapshot. -/
def Hub.featDone (h : Hub) (r : FeaRec) (snap : Bool) (n : Nat) : Hub :=
  let c := r.ctx
  let h1 := (h.countSat (fFeaCCountRecords c) 1).present (0x4100 + c)
  let h2 := if h1.cf 6 (4 + c) 0 (13 + r.set) 1 = 1 then
      if (NMap.get h1.outbox (prodFea c)).isEmpty || !h1.qHolds (h1.feaQueue c) (prodFea c) then
        h1.pushOut (prodFea c) (h1.feaQueue c) (recordWords 2 (featureWords h1 r snap n))
      else (h1.on (fFeaCStatusRecLost c)).countSat (fFeaCCountLost c) 1
    else h1
  if snap then h2 else h2.limPush r

/-- OR of the tags of samples. -/
def orTags (xs : List Samp) : BitVec 8 := xs.foldl (fun a x => a ||| x.tag) 0#8

/-- The TIME record over samples. -/
def Hub.timeRec (h : Hub) (c : Nat) (xs : List Samp) : FeaRec :=
  { ctx := c, set := 0, tag := orTags xs, time := (xs.headD default).time, vals := timeValues (h.feaAc c) xs, cyc := h.cyc }

/-- TIME_BLOCK_COMPLETE: a full block becomes a record and the set's values. -/
def Hub.timeBlock (h : Hub) (c : Nat) : Hub :=
  let n := h.feaN c
  let x := NMap.get h.fea c
  if h.feaOn c && decide (n ≤ x.blk.length) then
    let r := h.timeRec c (x.blk.take n)
    let h1 := { h with fea := NMap.set h.fea c { x with blk := x.blk.drop n } }
    let h2 := (r.vals.zipIdx).foldl (fun a p => a.setReg (rFeaCValues c p.2) p.1) h1
    h2.featDone r false n
  else h

/-- TIME_BLOCK_COMPLETE. -/
def execTimeBlockComplete (c : Fin 192) (s : State) : Out := liftHub s (fun _ h => h.timeBlock c)

/-- A snapshot: a record over the samples of the current block so far; with the block just full, its full record instead. -/
def Hub.snapshot (h : Hub) (c : Nat) : Hub :=
  let x := NMap.get h.fea c
  if !h.feaOn c || h.recovering 2 c then h
  else if h.feaN c ≤ x.blk.length then h.timeBlock c
  else if x.blk.length < 2 then h.on (fFeaCStatusSnapRefused c)
  else h.featDone (h.timeRec c x.blk) true x.blk.length

/-- FEATURE_SNAPSHOT. -/
def execFeatureSnapshot (c : Fin 192) (s : State) : Out :=
  liftHub s (fun fx h => h.atReg fx s.met .spc (0x110008 + 0x40 * c) (fun h => h.snapshot c))

/-- The six values now. -/
def Hub.feaValues (h : Hub) (c : Nat) : List Word := (List.range 6).map (fun k => h.reg (rFeaCValues c k))

/-- FEA_VALUES_READ: reading offset 0x10 latches all six values. -/
def Hub.feaRead (h : Hub) (c : Nat) : Word × Hub :=
  let vs := h.feaValues c
  (vs.headD 0#32, { h with fea := NMap.modify h.fea c (fun x => { x with latch := vs, reads := 5 }) })

/-- Reading one of the other values: the latched one for the five reads behind a read of offset 0x10, else the value now (R250). -/
def Hub.feaNext (h : Hub) (c k : Nat) : Word × Hub :=
  let x := NMap.get h.fea c
  if x.reads = 0 then (h.reg (rFeaCValues c k), h)
  else (x.latch.getD k 0#32, { h with fea := NMap.set h.fea c { x with reads := x.reads - 1 } })

/-- FEA_VALUES_READ. -/
def execFeaValuesRead (c : Fin 192) (s : State) : Out :=
  liftHub s (fun fx h => h.readOf fx s.met .spc (0x110010 + 0x40 * c) (fun h => h.feaRead c))

/-! ### BIN records (R233) -/

/-- Phase in degrees of (I, Q), the exact angle rounded once: the octant's arc tangent from its axis. -/
def binPhase (i q : Int) : Word :=
  if i = 0 ∧ q = 0 then 0#32
  else
    let ax := i.natAbs
    let ay := q.natAbs
    let p : Int := pi320
    let first := if ay = ax then 45 * p else if ay < ax then 180 * atanOf ay ax else 90 * p - 180 * atanOf ax ay
    let up := if i < 0 then 180 * p - first else first
    f32Ratio (decide (q < 0)) up.toNat pi320

/-- The BIN record of a finished DETECT block of `nb` inputs. -/
def binVals (nb : Nat) (d : DetBlock) : List Word :=
  (d.i.zip d.q).flatMap (fun p =>
    [f32Sqrt (4 * (p.1.natAbs * p.1.natAbs + p.2.natAbs * p.2.natAbs)) (nb * nb * 2 ^ 92), binPhase p.1 p.2])

end Sys2Proof.Machine
end

