-- ==== Sys2Proof/Machine/Spectra.lean ====
section
/-! DEFINITION. Spectral jobs: gathering, the transform's average, SPECTRUM records and the BAND values taken from them (spec/09
R219 to R229, R232). -/

namespace Sys2Proof.Machine
open Sys2Proof

/-! ### Cells (R248) -/

/-- A field of cell `k` of job `j` of engine `e`. -/
def Hub.jc (h : Hub) (e j k lo len : Nat) : Nat := h.cf 6 e (16 * j + k) lo len
def Hub.jobOn (h : Hub) (e j : Nat) : Bool := h.is fLdrStatusConfigured && h.jc e j 0 0 1 == 1
def Hub.jobCtx (h : Hub) (e j : Nat) : Nat := h.jc e j 0 1 8
def Hub.jobLog (h : Hub) (e j : Nat) : Nat := h.jc e j 0 9 3 + 8
def Hub.jobN (h : Hub) (e j : Nat) : Nat := 2 ^ h.jobLog e j
def Hub.jobWin (h : Hub) (e j : Nat) : Nat := h.jc e j 0 12 2
/-- Hop H = N × (1 − o). -/
def Hub.jobHop (h : Hub) (e j : Nat) : Nat := h.jobN e j / 2 ^ h.jc e j 0 14 2
def Hub.jobTrig (h : Hub) (e j : Nat) : Bool := h.jc e j 0 16 1 == 1
def Hub.jobAvg (h : Hub) (e j : Nat) : Nat := h.jc e j 0 17 2
def Hub.jobComplex (h : Hub) (e j : Nat) : Bool := h.jc e j 0 19 1 == 1

def Hub.job' (h : Hub) (e j : Nat) : Job := NMap.get h.job (64 * e + j)
def Hub.setJob (h : Hub) (e j : Nat) (x : Job) : Hub := { h with job := NMap.set h.job (64 * e + j) x }

/-! ### Gathering (R220, R223) -/

/-- A completed block takes its place: in order of completion, in one cycle the lower job first (R222). -/
def spcInsert (x : Nat × Nat) : List (Nat × Nat) → List (Nat × Nat)
  | [] => [x]
  | y :: t => if x.1 = y.1 ∧ x.2 < y.2 then x :: y :: t else y :: spcInsert x t

/-- The oldest N samples are a block: it waits for the engine, or is dropped when one still waits (R223). -/
def Hub.blockDone (h : Hub) (e j : Nat) : Hub :=
  let x := h.job' e j
  let n := h.jobN e j
  if h.jobOn e j && decide (n ≤ x.buf.length) then
    let go := if h.jobTrig e j then n else h.jobHop e j
    let rest := x.buf.drop go
    if x.ready.isSome then
      ((h.setJob e j { x with buf := rest, ran := true, off := x.off + go, dropped := true }).on (fSpcEStatusOverrun e)).countSat (fSpcECountDropped e) 1
    else
      let h1 := h.setJob e j { x with buf := rest, ran := true, off := go, ready := some (x.buf.take n) }
      { h1 with spc := NMap.modify h1.spc e (fun s => { s with order := spcInsert (h.cyc, j) s.order }) }
  else h

/-- SPECTRAL_BLOCK_COMPLETE. -/
def execSpectralBlockComplete (e : Fin 4) (j : Fin 64) (s : State) : Out := liftHub s (fun _ h => h.blockDone e j)

/-- A tap sample reaches a job: a block just filled is completed first; a GAP discards incomplete blocks and restarts a COMPLEX
average. -/
def Hub.gather (h0 : Hub) (e j : Nat) (x : Samp) : Hub :=
  if h0.jobsHeld || h0.stHeld heldGather then h0.refusedBy heldGather
  else
  let h := h0.blockDone e j
  let y := h.job' e j
  let y1 := if x.has tGap then
      let z := { y with buf := ([] : List HistWord), ran := false }
      if h.jobComplex e j then { z with acc := [], cnt := 0, tag := 0#8, parity := false } else z
    else y
  let w : HistWord := { samp := x, bad := false }
  if h.jobTrig e j then
    if !y1.buf.isEmpty then h.setJob e j { y1 with buf := y1.buf ++ [w] }
    else if y1.armed || (x.has tGap && !y.buf.isEmpty) then h.setJob e j { y1 with buf := [w], armed := false }
    else h.setJob e j y1
  else h.setJob e j { y1 with buf := y1.buf ++ [w] }

/-- A start of a TRIGGERED job: ignored and counted while it gathers; a register start and an event start of one cycle are one. -/
def Hub.jobStart (h : Hub) (e j : Nat) : Hub :=
  let x := h.job' e j
  if !(h.jobOn e j && h.jobTrig e j) || x.started == h.cyc + 1 then h
  else
    let h1 := h.setJob e j { x with started := h.cyc + 1 }
    if !x.buf.isEmpty && decide (x.buf.length < h.jobN e j) then
      (h1.on (fSpcEStatusBusyStart e)).countSat (fSpcEBusyBusy e) 1
    else h1.setJob e j { x with started := h.cyc + 1, armed := true }

/-- SPECTRAL_KICK. -/
def execSpectralKick (e : Fin 4) (j : Fin 64) (s : State) : Out :=
  liftHub s (fun fx h => h.atReg fx s.met .spc (0x100008 + 0x1000 * e) (fun h => h.jobStart e j))

/-! ### Averaging (R225, R226) -/

/-- The values a block adds: P[k] in units of 2^-92, or Re and Im of X[k] in units of 2^-46, for k = 0 to N/2. -/
def binVector (cplx : Bool) (win log : Nat) (xs : List Int) : List Int :=
  (List.range (2 ^ (log - 1) + 1)).flatMap (fun k =>
    let z := binX xs win k
    if cplx then [z.1, z.2] else [z.1 * z.1 + z.2 * z.2])

/-- Add vectors, an empty one standing for zeros. -/
def addVec (a b : List Int) : List Int := if a.isEmpty then b else List.zipWith (fun x y => x + y) a b

/-- S + (P − S) / 2^a, rounded to nearest in the unit of the vector; the engine's 48-bit mantissas are coarser, and their rounding lies
within the noise of a bin, which nobody fixes (DESIGN CHOICE, log entry 105). -/
def expStep (s p : Int) (a : Nat) : Int := s + (2 * (p - s) + (2 : Int) ^ a) / (2 : Int) ^ (a + 1)

/-- The average after an accepted block. -/
def avgStep (mode a : Nat) (acc v : List Int) : List Int :=
  if mode = 0 then v
  else if mode = 1 then addVec acc v
  else if acc.isEmpty then v else List.zipWith (fun s p => expStep s p a) acc v

/-! ### Output (R227, R228) -/

/-- A rational rounded to nearest, ties toward +∞, in units of 2^e. -/
def roundUp (n : Int) (d : Nat) (e : Int) : Int :=
  let nn : Int := if e < 0 then n * 2 ^ (-e).toNat else n
  let dd : Nat := if e < 0 then d else d * 2 ^ e.toNat
  if dd = 0 then 0 else (2 * nn + dd) / (2 * dd : Nat)

/-- All mantissas fit in 32 signed bits. -/
def fits32 (vs : List Int) (d : Nat) (e : Int) : Bool :=
  vs.all (fun v => let m := roundUp v d e; decide (-2147483648 ≤ m) && decide (m ≤ 2147483647))

/-- The shared exponent: the smallest from −128 on that fits. -/
def blockExp (vs : List Int) (d : Nat) : Int :=
  match ((List.range 256).map (fun (k : Nat) => (k : Int) - 128)).find? (fun e => fits32 vs d e) with
  | some e => e
  | none => 127

/-- The SPECTRUM record of an output: `n` accepted blocks, values over denominator `d`. -/
def Hub.spectrumWords (h : Hub) (e j : Nat) (x : Job) (n d : Nat) : List Word :=
  let per := if h.jobComplex e j then 2 else 1
  let k0 := h.jc e j 2 0 14
  let nb := h.jc e j 2 14 14
  let vs := (x.acc.drop (per * k0)).take (per * nb)
  let ex := blockExp vs d
  match timeWords x.time with
  | [a, b, c, f] =>
    [recHeader 0x10 (h.jobCtx e j) (8 + per * nb), a, b, c,
     f ||| w32 (x.tag.toNat * 256 + b2n x.parity * 4 + b2n x.dropped * 2 + b2n (h.jobComplex e j)),
     w32 (h.jobWin e j * 2 ^ 30 + (h.jobLog e j - 8) * 2 ^ 27 + h.jobAvg e j * 2 ^ 25 + e * 2 ^ 22 + j * 2 ^ 16 + (n - 1)),
     w32 (ofInt ex 8 * 2 ^ 24 + k0), w32 nb] ++ vs.map (fun v => w32 (ofInt (roundUp v d ex) 32))
  | _ => []

/-! ### BAND values (R232) -/

/-- P[k] of the output, over `d` (POWER) or its square (COMPLEX). -/
def Hub.outPower (h : Hub) (e j : Nat) (x : Job) (k : Nat) : Nat :=
  if h.jobComplex e j then
    let r := x.acc.getD (2 * k) 0
    let i := x.acc.getD (2 * k + 1) 0
    r.natAbs * r.natAbs + i.natAbs * i.natAbs
  else (x.acc.getD k 0).natAbs

/-- BAND_b of an output. -/
def Hub.bandVal (h : Hub) (c e j : Nat) (x : Job) (d b : Nat) : Word :=
  let k1 := h.cf 6 (4 + c) (0x10 + b) 0 14
  let k2 := h.cf 6 (4 + c) (0x10 + b) 14 14
  let half := h.jobN e j / 2
  let sum := ((List.range (k2 + 1 - k1)).map (fun i =>
    let k := k1 + i
    (if k = 0 ∨ k = half then 2 else 1) * h.outPower e j x k)).sum
  let den := 2 * (if h.jobComplex e j then d * d else d)
  let w := enbw (h.jobWin e j) (h.jobN e j)
  f32Sqrt (sum * w.2) (den * w.1)

/-- After an output of its band job a feature set finishes a BAND record. -/
def Hub.bandRec (h : Hub) (e j : Nat) (x : Job) (d : Nat) : Hub :=
  let c := h.jobCtx e j
  let nb := h.feaBands c
  if h.feaOn c && nb != 0 && h.cf 6 (4 + c) 1 1 2 == e && h.cf 6 (4 + c) 1 3 6 == j then
    h.featDone { ctx := c, set := 1, tag := x.tag, time := x.time, vals := (List.range nb).map (h.bandVal c e j x d), cyc := h.cyc } false nb
  else h

/-! ### SPECTRAL_TRANSFORM (R222, R226, R229) -/

/-- An accepted block is due for output. -/
def Hub.outDue (h : Hub) (e j n : Nat) : Bool :=
  let m := h.jobAvg e j
  if m = 0 then true
  else if m = 1 then decide (h.jc e j 1 0 16 + 1 ≤ n)
  else decide (h.jc e j 1 16 16 + 1 ≤ n)

/-- Deliver an output: the record, the producer, the BAND record; then the average starts anew, or runs on when it is
exponential. -/
def Hub.specOut (h : Hub) (e j : Nat) (x : Job) : Hub :=
  let m := h.jobAvg e j
  let u := if h.jobComplex e j then 2 ^ 46 else 2 ^ 92
  let d := if m = 1 then x.cnt * u else u
  let h1 := if h.jc e j 3 6 1 = 1 then
      h.pushOut (prodSpc e) (h.jc e j 3 0 6) (recordWords 3 (h.spectrumWords e j x x.cnt d)) else h
  let h2 := (h1.present (0x4000 + 64 * e + j)).bandRec e j x d
  h2.setJob e j { x with
    acc := if m = 2 then x.acc else [], cnt := 0, tag := 0#8, dropped := false, parity := false }

/-- Gather-memory words go bad: those of the completed block, and those of the block being gathered that overlap it (R229). -/
def Job.spoil (x : Job) (bad : List Nat) : Job :=
  { x with
    ready := x.ready.map (fun blk => blk.zipIdx.map (fun p => if bad.contains p.2 then { p.1 with bad := true } else p.1))
    buf := if x.ran then x.buf.zipIdx.map (fun p =>
        if bad.contains (p.2 + x.off) && (match x.ready with | some blk => decide (p.2 + x.off < blk.length) | none => false) then
          { p.1 with bad := true } else p.1)
      else x.buf }

/-- The engine transforms the oldest completed block; `bad` are samples of it whose gather-memory words fail their parity check. -/
def Hub.transform (h : Hub) (e : Nat) (bad : List Nat) : Hub :=
  match (NMap.get h.spc e).order with
  | [] => h
  | (_, j) :: rest =>
    let h0 := { h with spc := NMap.modify h.spc e (fun s => { s with order := rest, busy := true }) }
    let x := (h0.job' e j).spoil bad
    match x.ready with
    | none => h0
    | some ws =>
      let blk := ws.map (fun w => w.samp)
      let hit := ws.any (fun w => w.bad)
      let vs := ws.map (fun w => if w.bad then 0 else sInt w.samp)
      let tag := orTags blk ||| (if hit then tAborted else 0#8)
      let h1 := h0.countSat (fSpcECountBlocks e) 1
      let h2 := if hit then (h1.on (fSpcEStatusParity e)).fault 0x24 e 0xC3 (w32 j) 0#32 else h1
      let y := { x with ready := none, parity := x.parity || hit }
      if tag.toNat &&& h.jc e j 3 8 8 ≠ 0 then
        ((h2.setJob e j { y with parity := x.parity }).on (fSpcEStatusExcluded e)).countSat (fSpcECountExcluded e) 1
      else
        let v := binVector (h.jobComplex e j) (h.jobWin e j) (h.jobLog e j) vs
        let z := { y with
          acc := avgStep (h.jobAvg e j) (h.jc e j 1 0 5) y.acc v, cnt := y.cnt + 1, tag := y.tag ||| tag
          time := if y.cnt = 0 then (blk.headD default).time else y.time }
        if h.outDue e j z.cnt then h2.specOut e j z else h2.setJob e j z

/-- SPECTRAL_TRANSFORM. -/
def execSpectralTransform (e : Fin 4) (parity : List (Fin 16384)) (s : State) : Out :=
  liftHub s (fun _ h => if h.stHeld heldGather then h.refusedBy heldGather else h.transform e (parity.map Fin.val))

end Sys2Proof.Machine
end

