-- ==== Sys2Proof/Machine/FeatureTap.lean ====
section
/-! DEFINITION. What the spectral jobs and the feature set of a context gather from its feature tap (spec/09 R220, R231). -/

namespace Sys2Proof.Machine
open Sys2Proof

/-- A tap sample reaches a feature set: a block just filled is completed first; a GAP discards the incomplete block. -/
def Hub.feaSample (h0 : Hub) (c : Nat) (x : Samp) : Hub :=
  if h0.feaOn c then
    let h := h0.timeBlock c
    { h with fea := NMap.modify h.fea c (fun y => { y with blk := if x.has tGap then [x] else y.blk ++ [x] }) }
  else h0

/-- The feature tap of a context takes a sample. -/
def Hub.tapSample (h : Hub) (c : Nat) (x : Samp) : Hub :=
  ((h.jobsOf c).foldl (fun a p => a.gather p.1 p.2 x) h).feaSample c x

end Sys2Proof.Machine
end

