-- ==== Sys2Proof/Machine/Flow.lean ====
section
/-! DEFINITION. How samples move through a context: ingress, stage points, branches and outputs (spec/06 R146 to R150, R159 to
R163). -/

namespace Sys2Proof.Machine
open Sys2Proof

/-! ### Where samples go -/

/-- A context takes samples: structure in force, source bound, enabled, not in recovery (R150, R165). -/
def Hub.ctxRuns (h : Hub) (c : Nat) : Bool :=
  h.is fLdrStatusConfigured && h.ctxKind c != 0 && h.is (fFabCCtlEnable c) && !h.recovering 2 c && !h.ctxHeld c

/-- The lane a queue gives a context (R281). -/
def Hub.laneOf (h : Hub) (q c : Nat) : Nat :=
  match (List.range 16).find? (fun i => h.cf 9 q (4 + i / 4) (8 * (i % 4)) 8 == c) with
  | some i => i
  | none => 0

/-- Contexts that branch from stage point `s` of context `c` (R147). -/
def Hub.branchesOf (h : Hub) (c s : Nat) : List Nat :=
  ((h.usedUnits 5).filter (fun u => decide (32 ≤ u) && h.cf 5 u 0 1 3 == 6 && h.cf 5 u 1 0 8 == c && h.cf 5 u 1 8 4 == s)).map
    (fun u => u - 32)

/-! ### Digests (R162) -/

/-- A SAMPLE word joins a digest; at the end of its block the finished CRC waits to be latched. -/
def Digest.add (d : Digest) (blk : Nat) (w : Word) : Digest :=
  let c := ~~~((wordBytes w).foldl crc32Byte (~~~d.crc))
  if d.n + 1 ≥ blk then { d with crc := 0#32, n := 0, done := d.done ++ [(c, d.spoilt)], spoilt := false }
  else { d with crc := c, n := d.n + 1 }

/-- The block that holds the sample last added lost it (R163). -/
def Digest.lose (d : Digest) : Digest :=
  if d.n = 0 then
    match d.done.reverse with
    | (c, _) :: r => { d with done := (((c, true) :: r).reverse) }
    | [] => { d with spoilt := true }
  else { d with spoilt := true }

/-! ### Outputs (R149, R150, R278) -/

/-- The MARK record before a sample (R278). -/
def markWords (h : Hub) (c : Nat) (x : Samp) (periodic first : Bool) (n : Nat) : List Word :=
  match timeWords x.time with
  | [a, b, d, f] =>
    [recHeader 0x01 c 7, a, b, d, f ||| w32 (b2n periodic * 4 + b2n (x.has tGap) * 2 + b2n first), w32 (h.ctxTb c), w32 n]
  | _ => []

/-- Deliver an output toward the queue: MARK record when one is due, then the SAMPLE word. The egress FIFO holds 16 words; an output
that does not fit is lost (R149, R173). -/
def Hub.deliver (h : Hub) (c n : Nat) (x0 : Samp) : Hub :=
  let y := NMap.get h.ctx c
  let x := x0.addIf y.gapOut tGap
  let periodic := h.cf 5 (32 + c) 3 5 1 == 1 && decide (n % 2 ^ h.cf 5 (32 + c) 3 0 5 = 0)
  let mk := if !y.begun || y.markDue || x.has tGap || periodic then recordWords 7 (markWords h c x periodic (!y.begun) n) else []
  if 16 < (NMap.get h.outbox c).length + mk.length + 1 ∨ h.stHeld heldFifo = true then
    let h1 := ((((h.refusedBy heldFifo).on (fFabCStatusOutLost c)).countSat (fFabCCountLostOut c) 1).present (0x3500 + c))
    { h1 with ctx := NMap.modify h1.ctx c (fun y => { y with gapOut := true, digIn := y.digIn.lose }) }
  else
    let h1 := h.pushOut c (h.ctxQueue c) (mk ++ [qword true 1 (h.laneOf (h.ctxQueue c) c) (sampWord x)])
    { h1 with ctx := NMap.modify h1.ctx c (fun y => { y with gapOut := false, markDue := false, begun := true }) }

/-- An output leaves for the queue, unless it is withheld while settling; a GAP that is withheld leaves its MARK due (R150, R186). -/
def Hub.releaseOut (h : Hub) (c n : Nat) (x : Samp) : Hub :=
  if h.cf 5 (32 + c) 0 20 1 == 1 && x.has tSettle then
    if x.has tGap then { h with ctx := NMap.modify h.ctx c (fun y => { y with markDue := true }) } else h
  else h.deliver c n x

/-- An output of the context's last stage: counted and presented (R149, R171). -/
def Hub.countOutput (h : Hub) (c : Nat) (x : Samp) : Hub :=
  ((h.count (fFabCOutcountOutcount c) 1).wr (fFabCStatusSettling c) (b2n (x.has tSettle))).present (0x3000 + c)

/-- An output of a context without a shadow leaves. -/
def Hub.ctxOutput (h : Hub) (c : Nat) (x : Samp) : Hub :=
  let h1 := h.countOutput c x
  h1.releaseOut c (h1.rd (fFabCOutcountOutcount c)) x

/-! ### The comparator (R161) -/

/-- The comparator takes the oldest output of each copy; output indices count from 0. `flip` is how an error of the datapath changed
the shadow copy's word; after a slip the primary's output is a mismatch, and goes alone when the other copy has none. -/
def Hub.cmpStep (fx : Fixed) (h : Hub) (c : Nat) (flip : Word) : Hub :=
  let y := NMap.get h.ctx c
  match y.cmp with
  | [] => h
  | x :: rest =>
    if y.cmpS.isEmpty && !y.slipped then h
    else
      let n := h.rd (fFabCOutcountOutcount c) - rest.length
      let act := h.cf 5 (32 + c) 0 22 2
      let bad := y.slipped || (match y.cmpS with | s :: _ => sampWord x != sampWord s ^^^ flip | [] => true)
      let h1 := { h with ctx := NMap.set h.ctx c { y with cmp := rest, cmpS := y.cmpS.drop 1, slipped := false } }
      let h2 := if bad then
          (((h1.on (fFabCStatusShadowMis c)).countSat (fFabCShadowMism c) 1).wr (fFabCShadowIndex c) (n - 1)).present (0x3200 + c)
        else h1
      let h3 := h2.releaseOut c n (x.addIf (bad && act != 0) tAborted)
      if !bad then h3
      else if act = 2 then h3.faultRec fx 0x22 2 c 0xC2 0#32 0#32
      else h3.fault 0x22 c 0xC2 0#32 0#32

/-- One copy stands 16 outputs ahead of the other: a slip, and a waiting output of the primary is the mismatch. -/
def Hub.cmpSlip (fx : Fixed) (h : Hub) (c : Nat) : Hub :=
  let y := NMap.get h.ctx c
  if y.cmp.length = y.cmpS.length + 16 ∨ y.cmpS.length = y.cmp.length + 16 then
    Hub.cmpStep fx ({ h with ctx := NMap.set h.ctx c { y with slipped := true } }.on (fFabCStatusShadowSlip c)) c 0#32
  else h

/-- An output of a copy's last stage comes to the comparator, which holds up to 16 of each; what a full one cannot hold is lost to
it. -/
def Hub.cmpTake (fx : Fixed) (h0 : Hub) (c : Nat) (shadow : Bool) (x : Samp) : Hub :=
  let full (h : Hub) : Bool := decide (16 ≤ (if shadow then (NMap.get h.ctx c).cmpS else (NMap.get h.ctx c).cmp).length)
  let h := if full h0 then Hub.cmpStep fx h0 c 0#32 else h0
  if full h then h
  else
    Hub.cmpSlip fx { h with ctx := NMap.modify h.ctx c (fun y =>
      if shadow then { y with cmpS := y.cmpS ++ [x] } else { y with cmp := y.cmp ++ [x] }) } c

/-- An output of the last stage of a chain: to the comparator of a context with a shadow, else on its way. -/
def Hub.lastOutput (fx : Fixed) (h : Hub) (x : Nat) (y : Samp) : Hub :=
  if x < 192 then
    if h.ctxShadow x then Hub.cmpTake fx (h.countOutput x y) x false y else h.ctxOutput x y
  else Hub.cmpTake fx h (ctxOf x) true y

/-! ### Stage points and ingress (R147, R148) -/

/-- Everything that listens at stage point `s` of context `c` takes the sample: its ring, the feature tap, sending bridges. -/
def Hub.listen (h : Hub) (c s : Nat) (x : Samp) : Hub :=
  let h1 := h.ringSample c s x
  let h2 := if h1.cf 5 (32 + c) 3 8 4 = s then h1.tapSample c x else h1
  h2.bridgeSample c s x

/-- A sample reaches a context's ingress (R148), where both copies of stage 0 take it (R159); a context without stages passes it on at
once. `fuel` bounds the depth of branches (R147: at most four references). -/
def Hub.ctxIngress (fuel : Nat) (h : Hub) (c : Nat) (x0 : Samp) : Hub :=
  match fuel with
  | 0 => h
  | fuel + 1 =>
    if !h.ctxRuns c then h
    else
      let y := NMap.get h.ctx c
      if h.ctxStages c = 0 then
        let x := x0.addIf y.gapIn tGap
        let h1 := { h with ctx := NMap.modify h.ctx c (fun y => { y with
          gapIn := false
          digIn := if h.digOn c false then y.digIn.add (h.digBlock c) (sampWord x) else y.digIn }) }
        let h2 := (h1.branchesOf c 0).foldl (fun a b => Hub.ctxIngress fuel a b x) (h1.listen c 0 x)
        h2.ctxOutput c x
      else if y.inq.length ≥ 16 ∨ (h.ctxShadow c = true ∧ (h.stg' (192 + c) 0).inq.length ≥ 16) ∨ h.stHeld heldFifo = true then
        let h1 := (((h.refusedBy heldFifo).on (fFabCStatusInOver c)).countSat (fFabCCountLostIn c) 1).present (0x3500 + c)
        { h1 with ctx := NMap.modify h1.ctx c (fun y => { y with gapIn := true }) }
      else
        let x := x0.addIf y.gapIn tGap
        let h1 := { h with ctx := NMap.modify h.ctx c (fun y => { y with gapIn := false, inq := y.inq ++ [x] }) }
        if h.ctxShadow c then h1.modStg (192 + c) 0 (fun s => { s with inq := s.inq ++ [x] }) else h1

/-- A sample at stage point `s` of a context: listeners and branches take it. -/
def Hub.pointOut (h : Hub) (c s : Nat) (x : Samp) : Hub :=
  (h.branchesOf c s).foldl (fun a b => Hub.ctxIngress 5 a b x) (h.listen c s x)

end Sys2Proof.Machine
end

