-- ==== Sys2Proof/Machine/StageOps.lean ====
section
/-! DEFINITION. What every stage kind shares: its cells, the arithmetic of the tile, taking an input, the coefficient bank in
use, stored parity, and giving an output (spec/06 R151 to R155, spec/07 R182 to R191). -/

namespace Sys2Proof.Machine
open Sys2Proof

/-! ### Cells of a stage (R166, R167, R181, R214) -/

def Hub.stShift (h : Hub) (c i : Nat) : Nat := h.sc c i 0 17 7
def Hub.coefOff (h : Hub) (c i : Nat) : Nat := h.sc c i 1 0 9
def Hub.coefLen (h : Hub) (c i : Nat) : Nat := h.sc c i 1 9 10
def Hub.delayLen (h : Hub) (c i : Nat) : Nat := h.sc c i 2 12 13
def Hub.outRate (h : Hub) (c i : Nat) : Nat := h.sc c i 3 0 32
/-- The port and map, or the controller and entry, whose slot names a context (R90, R127). -/
def Hub.slotOfCtx (h : Hub) (c : Nat) : Option (Nat × Nat) :=
  (h.cells.find? (fun e => e.1 / 1048576 == 3 && decide (0x100 ≤ e.1 % 4096) && bitOf e.2 31 && fieldOf e.2 0 8 == c)).map
    (fun e => (e.1 / 4096 % 256, (e.1 % 4096 - 0x100) / 64))
def Hub.fieldOfCtx (h : Hub) (c : Nat) : Option (Nat × Nat) :=
  (h.cells.find? (fun e => e.1 / 1048576 == 4 && decide (0x10 ≤ e.1 % 4096) && (e.1 % 8 == 3 || e.1 % 8 == 4) &&
    bitOf e.2 31 && fieldOf e.2 0 8 == c)).map (fun e => (e.1 / 4096 % 256, (e.1 % 4096 - 0x10) / 8))
/-- Frames per run of a plan entry, and the entries of a port's plan (R97). -/
def Hub.planRun (h : Hub) (p e : Nat) : Nat := h.cf 3 p (0x10 + 4 * e) 4 8 + 1
def Hub.planLen (h : Hub) (p : Nat) : Nat := h.cf 3 p 1 24 3 + 1

/-- The rate at which a source feeds a context, samples per second as numerator and denominator (R147); `fuel` bounds the references
to parents. -/
def Hub.rateOf (fuel : Nat) (h : Hub) (c : Nat) : Nat × Nat :=
  match fuel with
  | 0 => (0, 1)
  | fuel + 1 =>
    let k := h.ctxKind c
    if k = 1 then
      match h.slotOfCtx c with
      | some (p, m) =>
        let es := List.range (h.planLen p)
        let uses := fun e => h.cf 3 p (0x10 + 4 * e) 2 2 == m
        if h.cf 3 p 0 0 1 = 1 then (if uses 0 then h.cf 3 p 4 0 32 else 0, 1)
        else (h.cf 3 p 4 0 32 * ((es.filter uses).map (h.planRun p)).sum, (es.map (h.planRun p)).sum)
      | none => (0, 1)
    else if k = 2 then
      match h.fieldOfCtx c with
      | some (n, e) => (h.cf 4 n (0x12 + 8 * e) 0 32, 1)
      | none => (0, 1)
    else if k = 6 then
      let par := h.cf 5 (32 + c) 1 0 8
      let pt := h.cf 5 (32 + c) 1 8 4
      if pt = 0 then Hub.rateOf fuel h par else (h.outRate par (pt - 1), 1)
    else (h.cf 5 (32 + c) 2 0 32, 1)

/-- Declared rate of a stage's input (R158). -/
def Hub.inRate (h : Hub) (x i : Nat) : Nat × Nat := if i = 0 then h.rateOf 6 (ctxOf x) else (h.outRate x (i - 1), 1)

/-- A stage of a kind is placed and its context takes part. -/
def Hub.stUp (h : Hub) (x i kind : Nat) : Bool :=
  h.ctxRuns (ctxOf x) && h.stKind x i == kind && !h.recovering 4 (h.stTile x i) && !h.stHeld heldTile

/-! ### Arithmetic (R153) -/

/-- Limit to 24 bits, and whether the limit acted. -/
def sat24 (v : Int) : Int × Bool :=
  if v > 8388607 then (8388607, true) else if v < -8388608 then (-8388608, true) else (v, false)
/-- Limit to the 56-bit accumulator. -/
def sat56 (v : Int) : Int × Bool :=
  if v > 36028797018963967 then (36028797018963967, true)
  else if v < -36028797018963968 then (-36028797018963968, true) else (v, false)
/-- Rounding shift and limit of a stage output. -/
def outShift (acc : Int) (sh : Nat) : Int × Bool :=
  if sh = 0 then sat24 acc else sat24 ((acc + (2 : Int) ^ (sh - 1)) / (2 : Int) ^ sh)
/-- Sum of products, saturating at each addition, and whether the accumulator limited. -/
def macSum (ps : List (Int × Int)) : Int × Bool :=
  ps.foldl (fun a p => let r := sat56 (a.1 + p.1 * p.2); (r.1, a.2 || r.2)) (0, false)
/-- A sample's value as an integer, and back. -/
def valOf (v : BitVec 24) : Int := v.toInt
def toVal (v : Int) : BitVec 24 := BitVec.ofInt 24 v

/-! ### Taking an input (R183, R184) -/

/-- The next sample of a stage, taken out of its queue: the primary stage 0 takes from the context's ingress FIFO, where the IN digest
and stage point 0 see it. -/
def Hub.popIn (h : Hub) (x i : Nat) : Option (Samp × Hub) :=
  if i = 0 ∧ x < 192 then
    match (NMap.get h.ctx x).inq with
    | v :: rest =>
      let h1 := { h with ctx := NMap.modify h.ctx x (fun y => { y with
        inq := rest
        digIn := if h.digOn x false then y.digIn.add (h.digBlock x) (sampWord v) else y.digIn }) }
      some (v, h1.pointOut x 0 v)
    | [] => none
  else
    match (h.stg' x i).inq with
    | v :: rest => some (v, h.modStg x i (fun y => { y with inq := rest }))
    | [] => none

/-- The CAL policy of the context on the next sample: `none` when there is no sample or it was discarded. Each copy restarts its own
chain when it takes the input (R184). -/
def Hub.takeIn (h : Hub) (c i : Nat) : Option Samp × Hub :=
  match h.popIn c i with
  | none => (none, h)
  | some (x, h1) =>
    let st := h1.stg' c i
    let due (y : Samp) (k : Hub) : Option Samp × Hub :=
      (some y, k.modStg c i (fun s => { s with gapDue := s.gapDue || y.has tGap, lateDue := s.lateDue || y.has tLate }))
    if x.has tCal then
      if h1.cf 5 (32 + ctxOf c) 0 19 1 = 1 then
        due { x with val := st.bridge, tag := (x.tag &&& ~~~tCal) ||| tBridged } h1
      else (none, h1.modStg c i (fun s => { s with calGap := true }))
    else if st.calGap then
      let h2 := h1.syncFrom c i
      let y := x.add tGap
      due y (h2.modStg c i (fun s => { s with bridge := x.val }))
    else due x (h1.modStg c i (fun s => { s with bridge := x.val }))

/-- Put an input at the front of a stage's delay line. -/
def Stage.shift (s : Stage) (len : Nat) (x : Samp) : Stage :=
  { s with n := s.n + 1, hist := ({ samp := x, bad := false } :: s.hist).take len }

/-- The input of index `j` in a stage's delay line, zero before the first (R175, R196). -/
def Stage.at? (s : Stage) (j : Int) : Option Samp :=
  if j < 0 then none else ((s.hist[s.n - 1 - j.toNat]?).map (fun w => w.samp)).filter (fun _ => decide (j.toNat < s.n))
def Stage.valAt (s : Stage) (j : Int) : Int := match s.at? j with | some x => valOf x.val | none => 0
def Stage.timeAt (s : Stage) (j : Int) : Nat := match s.at? j with | some x => x.time | none => 0
/-- OR of the tags of the contributing inputs. -/
def tagsOf (xs : List Samp) : BitVec 8 := xs.foldl (fun a x => a ||| x.tag) 0#8
/-- Tags a contributing input passes on (R182): SETTLE, BRIDGED, SAT, SUPPLY_DIP, ABORTED. -/
def passMask : BitVec 8 := 0xBC#8

/-! ### Coefficient banks (R174, R187 to R191) -/

/-- A stored coefficient word. -/
def Hub.coef (h : Hub) (t bank i : Nat) : Int := signedOf (h.cf 5 t (512 * bank + i) 0 24) 24

/-- The bank words a stage reads for its next output: a single bank, or the two banks and the weight of a fade. -/
inductive BankUse where
  | one (bank : Nat)
  | blend (old new a : Nat)
  deriving DecidableEq, Repr

/-- What a stage reads now: during a swap it has not switched for, a FIR stage blends over the fade's length and any other stage
switches at its next output. -/
def Hub.bankUse (h : Hub) (c i : Nat) (fir : Bool) : BankUse :=
  let t := h.stTile c i
  let act := h.rd (fFabTStatusBankAct t)
  match (NMap.get h.tile t).swap with
  | none => .one act
  | some (b, len) =>
    let s := h.stg' c i
    if s.switched || len = 0 || !fir then .one b
    else .blend act b ((s.swOuts + 1) * 65536 / len)

/-- The coefficient at word `i` under a bank use (R189). -/
def Hub.coefOf (h : Hub) (t i : Nat) : BankUse → Int
  | .one b => h.coef t b i
  | .blend old new a =>
    let ho := h.coef t old i
    let hn := h.coef t new i
    ho + ((hn - ho) * a + 32768) / 65536

/-- A stage of the tile has made an output during a swap (R190). -/
def Hub.swapOutput (h : Hub) (c i : Nat) (fir : Bool) : Hub :=
  let t := h.stTile c i
  match (NMap.get h.tile t).swap with
  | none => h
  | some (_, len) =>
    let h1 := h.modStg c i (fun s =>
      { s with swOuts := s.swOuts + 1, switched := s.switched || !fir || decide (len ≤ s.swOuts + 1) })
    h1.endSwap 2 t

/-! ### Stored parity (R155, R440) -/

/-- Put the parity faults a command names into the memories. A delay word holds a sample, counted by its age; the words of SETTLE and
DETECT hold a sum and phases, counted from the region's start, and a phase that goes bad is a free value. -/
def Hub.spoil (h : Hub) (x i : Nat) (b : ParityFault) : Hub :=
  let t := h.stTile x i
  let h1 := match b.coef with
    | some k => { h with tile := NMap.modify h.tile t (fun x => { x with badCoef := dedup (x.badCoef ++ [k.val]) }) }
    | none => h
  match b.delay with
  | none => h1
  | some k =>
    let kind := h1.stKind x i
    if (kind = 3 ∨ kind = 7) then
      if h1.delayLen x i ≤ k.val then h1
      else
        let h2 := h1.modStg x i (fun s => { s with badW := dedup (s.badW ++ [k.val]) })
        if kind = 7 then
          let r := h2.takeFree
          r.2.modStg x i (fun s => { s with phase := (List.range 8).map (fun n =>
            if n = k.val / 2 then r.1 % 2 ^ 48 else s.phase.getD n 0) })
        else h2
    else h1.modStg x i (fun s => { s with hist := s.hist.mapIdx (fun j w => if j = k.val then { w with bad := true } else w) })

/-- The first bad coefficient word a bank use reads in the stage's region. -/
def Hub.badCoefOf (h : Hub) (c i : Nat) (u : BankUse) : Option Nat :=
  let o := h.coefOff c i
  let n := h.coefLen c i
  let inR (b k : Nat) : Bool := decide (512 * b + o ≤ k) && decide (k < 512 * b + o + n)
  (NMap.get h.tile (h.stTile c i)).badCoef.find? (fun k => match u with
    | .one b => inR b k
    | .blend x y _ => inR x k || inR y k)

/-- Report a bad coefficient word: flags, count, address, one fault record per word. -/
def Hub.parCoef (h : Hub) (t k : Nat) : Hub :=
  let h1 := (((h.on (fFabTStatusParCoef t)).countSat (fFabTCountParCoef t) 1).wr (fFabTParAddrMem t) (1 + k / 512)).wr
    (fFabTParAddrAddr t) (k % 512)
  if h1.flt.coefSeen.contains (1024 * t + k) then h1
  else { h1 with flt := { h1.flt with coefSeen := h1.flt.coefSeen ++ [1024 * t + k] } }.fault 0x20 t 0xC2 (w32 (k % 512))
    (w32 (k / 512))

/-- 2^20 FCLK cycles at the present resting point, in TCLK cycles. -/
def Hub.dpWindow (h : Hub) : Nat :=
  let p := h.rd fClkStatusFclkPoint
  2 ^ 20 * 800 / (if p = 0 then 480 else if p = 1 then 456 else 432)

/-- Report a bad delay word; the T_d-th within 2^20 FCLK cycles calls for a TILE reset (R440). -/
def Hub.parDelay (fx : Fixed) (h : Hub) (t a : Nat) : Hub :=
  let h1 := (((h.on (fFabTStatusParDelay t)).countSat (fFabTCountParDelay t) 1).wr (fFabTParAddrMem t) 3).wr
    (fFabTParAddrAddr t) a
  let w := NMap.get h1.flt.dpWin t
  let w1 := if h1.cyc - w.1 < h1.dpWindow ∧ w.2 ≠ 0 then (w.1, w.2 + 1) else (h1.cyc, 1)
  let td := h1.cf 1 0 0x08D 0 4
  if td ≠ 0 ∧ td ≤ w1.2 then
    { h1 with flt := { h1.flt with dpWin := NMap.set h1.flt.dpWin t (0, 0) } }.faultRec fx 0x21 4 t 0xC2 (w32 a) 0#32
  else { h1 with flt := { h1.flt with dpWin := NMap.set h1.flt.dpWin t w1 } }.fault 0x21 t 0xC2 (w32 a) 0#32

/-- Report a bad word that holds a sample. Which word of its region holds a sample of a given age the spec leaves open: the place is a
free value within the region (DESIGN CHOICE, log entry 99). -/
def Hub.parSample (fx : Fixed) (h : Hub) (x i : Nat) : Hub :=
  let r := h.takeFree
  Hub.parDelay fx r.2 (h.stTile x i) (h.sc x i 2 0 12 + r.1 % max 1 (h.delayLen x i))

/-- Report the bad words of a region that holds no samples and that an evaluation read; the evaluation writes them anew. -/
def Hub.parWords (fx : Fixed) (h : Hub) (x i : Nat) : Hub :=
  ((h.stg' x i).badW.foldl (fun a k => Hub.parDelay fx a (h.stTile x i) (h.sc x i 2 0 12 + k)) h).modStg x i
    (fun s => { s with badW := [] })

/-- Stored parity of the words an evaluation reads: reported, and whether the evaluation is spoilt. It reads the samples of ages `lo`
to `lo + len − 1`. -/
def Hub.checkParity (fx : Fixed) (h : Hub) (x i lo len : Nat) (u : Option BankUse) : Bool × Hub :=
  let t := h.stTile x i
  let r1 := match u.bind (h.badCoefOf x i) with
    | some k => (true, h.parCoef t k)
    | none => (false, h)
  if (((r1.2.stg' x i).hist.drop lo).take len).any (fun w => w.bad) then (true, Hub.parSample fx r1.2 x i) else r1

/-! ### Giving an output -/

/-- A stage gives an output: GAP and LATE due on it, the previous output's value when the evaluation was spoilt, the SAT flag and
producer, then the next stage or the last output's way, and the stage point take it (R149, R153, R155, R182). A shadow copy's outputs
go to its own chain and the comparator only (R164). -/
def Hub.giveOut (fx : Fixed) (h : Hub) (x i : Nat) (v : Int) (limited spoilt : Bool) (tag : BitVec 8) (time : Nat) : Hub :=
  let s := h.stg' x i
  let c := ctxOf x
  let val := if spoilt then s.prev else toVal v
  let y0 : Samp := { val := val, tag := tag, time := time }
  let y := (((y0.addIf limited tSat).addIf spoilt tAborted).addIf s.gapDue tGap).addIf s.lateDue tLate
  let h1 := h.setStg x i { s with prev := val, outs := s.outs + 1, gapDue := false, lateDue := false }
  let h2 := { h1 with tile := NMap.modify h1.tile (h.stTile x i) (fun u => { u with busy := true }) }
  let h3 := if limited && decide (x < 192) then (h2.on (fFabCStatusSat c)).present (0x3100 + c) else h2
  if i + 1 < h3.ctxStages c then
    let h4 := h3.modStg x (i + 1) (fun n => { n with inq := n.inq ++ [y] })
    if x < 192 then h4.pointOut x (i + 1) y else h4
  else if x < 192 then Hub.lastOutput fx (h3.pointOut x (i + 1) y) x y
  else Hub.lastOutput fx h3 x y

/-! ### Sorting for the sieve (R177) -/

/-- Insert into a rising list. -/
def insSorted (x : Int) : List Int → List Int
  | [] => [x]
  | y :: t => if x ≤ y then x :: y :: t else y :: insSorted x t

/-- The median of an odd number of values. -/
def median (xs : List Int) : Int := ((xs.foldl (fun a x => insSorted x a) [])[xs.length / 2]?).getD 0

/-! ### The interpolator (R196, R197) -/

/-- A position rounded to input index and phase. -/
def roundPos (p : Nat) : Nat × Nat :=
  let m := p / 16777216
  let phi := (p % 16777216 + 8192) / 16384
  if phi = 1024 then (m + 1, 0) else (m, phi)

/-- The interpolation ROM: phase 0 is given, the other phases are the part's own (R196). -/
def romAt (phi i : Nat) : Int :=
  if phi = 0 then (if i = 16 then 4194304 else 0) else signedOf (Config.interpRom phi i).toNat 24

/-- The interpolated value at input position m + φ/1,024 and whether it was limited. -/
def Stage.interp (s : Stage) (m : Int) (phi : Nat) : Int × Bool :=
  let a := macSum ((List.range 32).map (fun (i : Nat) => (romAt phi i, s.valAt (m + 16 - (i : Int)))))
  let r := outShift a.1 22
  (r.1, a.2 || r.2)

/-- Tags of the 32 inputs around a position. -/
def Stage.interpTags (s : Stage) (m : Int) : BitVec 8 :=
  tagsOf ((List.range 32).filterMap (fun (i : Nat) => s.at? (m + 16 - (i : Int))))

/-- Time of the position m + g/2^24: T[m] + g/2^24 × (T[m+1] − T[m]), rounded to nearest (R198). -/
def Stage.timePos (s : Stage) (p : Nat) : Nat :=
  let m := p / 16777216
  let g := p % 16777216
  let a : Int := s.timeAt m
  let b : Int := s.timeAt (m + 1)
  (a + (2 * (g : Int) * (b - a) + 16777216) / 33554432).toNat

end Sys2Proof.Machine
end

