-- ==== Sys2Proof/Machine/Stages.lean ====
section
/-! DEFINITION. The stage kinds: FIR, sieve, settling averager, RESAMPLE, DELAY, ORDER and DETECT (spec/07, spec/08). Each
command lets one stage of a context's chain, or its shadow copy, take its next input sample and gives the outputs that input
completes. -/

namespace Sys2Proof.Machine
open Sys2Proof

/-- The chain a command names: a context's own, or its shadow copies'. -/
def chainOf (c : Nat) (shadow : Bool) : Nat := if shadow then 192 + c else c

/-- Run a stage command: the stage must be placed with that kind; the parity faults named are stored first. -/
def Hub.evalStage (h : Hub) (c i kind : Nat) (bad : ParityFault) (f : Hub → Samp → Hub) : Hub :=
  if h.stUp c i kind then
    match (h.spoil c i bad).takeIn c i with
    | (some x, h1) => f h1 x
    | (none, h1) => h1
  else h

/-! ### FIR (R175) -/

/-- A FIR stage takes an input; at the newest input of an output's window it computes the output. -/
def Hub.firTake (fx : Fixed) (c i : Nat) (h : Hub) (x : Samp) : Hub :=
  let n := h.coefLen c i
  let df := h.sc c i 4 0 10 + 1
  let ph := h.sc c i 4 10 10
  let h1 := h.modStg c i (fun s => s.shift n x)
  let s := h1.stg' c i
  let idx := s.n - 1
  if ph ≤ idx ∧ (idx - ph) % df = 0 then
    let u := h1.bankUse c i true
    let t := h1.stTile c i
    let o := h1.coefOff c i
    let acc := macSum (s.hist.mapIdx (fun k w => (h1.coefOf t (o + k) u, valOf w.samp.val)))
    let r := outShift acc.1 (h1.stShift c i)
    let y := if h1.sc c i 0 15 1 = 1 then sat24 (if r.1 < 0 then -r.1 else r.1) else (r.1, false)
    let lim := acc.2 || r.2 || y.2
    let pc := Hub.checkParity fx h1 c i 0 n (some u)
    let tag := (tagsOf (s.hist.map (fun w => w.samp)) &&& passMask) ||| (if idx < n - 1 then tSettle else 0#8)
    let h2 := if lim then pc.2.countSat (fFabTScntEvents t (h1.stSlot c i)) 1 else pc.2
    (Hub.giveOut fx h2 c i y.1 lim pc.1 tag x.time).swapOutput c i true
  else h1

/-- FIR_EVALUATION. -/
def execFirEvaluation (x : Chain) (i : Fin 8) (bad : ParityFault) (s : State) : Out :=
  liftHub s (fun fx h => h.evalStage (chainOf x.ctx x.shadow) i 1 bad (Hub.firTake fx (chainOf x.ctx x.shadow) i))

/-! ### Sieve (R177) -/

/-- The sieve's decision on a centre: the value and whether it was replaced. -/
def sieveTest (k floor : Nat) (center : Int) (win : List Int) : Int × Bool :=
  let med := median win
  let mad := median (win.map (fun v => if v < med then med - v else v - med))
  let dev := if center < med then med - center else center - med
  if 16 * dev > (k : Int) * max mad (floor : Int) then (med, true) else (center, false)

/-- A sieve takes an input and tests the input h older. -/
def Hub.sieveTake (fx : Fixed) (c i : Nat) (h : Hub) (x : Samp) : Hub :=
  let w := h.sc c i 4 0 5
  let hw := (w - 1) / 2
  let h1 := h.modStg c i (fun s => s.shift w x)
  let s := h1.stg' c i
  let idx := s.n - 1
  if hw ≤ idx then
    let n : Nat := idx - hw
    let pc := Hub.checkParity fx h1 c i 0 w none
    let tags := tagsOf (s.hist.map (fun v => v.samp)) &&& passMask
    if n < hw then
      Hub.giveOut fx pc.2 c i (s.valAt n) false pc.1 (tags ||| tSettle) (s.timeAt n)
    else
      let r := sieveTest (h1.sc c i 4 8 8) (h1.sc c i 5 0 24) (s.valAt n) (s.hist.map (fun v => valOf v.samp.val))
      let h2 := if r.2 then pc.2.countSat (fFabTScntEvents (h1.stTile c i) (h1.stSlot c i)) 1 else pc.2
      Hub.giveOut fx h2 c i r.1 false pc.1 tags (s.timeAt n)
  else h1

/-- SIEVE_EVALUATION. -/
def execSieveEvaluation (x : Chain) (i : Fin 8) (bad : ParityFault) (s : State) : Out :=
  liftHub s (fun fx h => h.evalStage (chainOf x.ctx x.shadow) i 2 bad (Hub.sieveTake fx (chainOf x.ctx x.shadow) i))

/-! ### Settling averager (R179, R180) -/

/-- The averager takes an input: a run start discards an incomplete block; each piece but a block's first reads the running sum of the
two delay words (R157), and the block's last input gives the mean. A piece that reads a bad word spoils the block's output (R155). -/
def Hub.settleTake (fx : Fixed) (c i : Nat) (h : Hub) (x : Samp) : Hub :=
  let m := h.sc c i 4 0 16 + 1
  let align := h.sc c i 4 16 1 == 1
  let s0 := h.stg' c i
  let runStart := align && x.has tSettle && !s0.wasSettle
  let s1 := if runStart && s0.inBlk != 0 then { s0 with sum := 0, cnt := 0, inBlk := 0, orTag := 0#8, gapDue := true } else s0
  let met := s1.inBlk != 0 && !s1.badW.isEmpty
  let h0 := if met then Hub.parWords fx h c i else h
  let keep := !x.has tSettle
  let s2 := { s1 with
    n := s1.n + 1
    sum := if keep then s1.sum + valOf x.val else s1.sum
    cnt := if keep then s1.cnt + 1 else s1.cnt
    inBlk := s1.inBlk + 1
    orTag := if keep then s1.orTag ||| x.tag else s1.orTag
    badW := [], blkBad := met || (s1.inBlk != 0 && s1.blkBad)
    wasSettle := x.has tSettle }
  if s2.inBlk < m then h0.setStg c i s2
  else
    let h1 := h0.setStg c i { s2 with sum := 0, cnt := 0, inBlk := 0, orTag := 0#8, blkBad := false }
    if s2.cnt = 0 then Hub.giveOut fx h1 c i (valOf s2.prev) false s2.blkBad tSettle x.time
    else
      let n : Int := s2.cnt
      Hub.giveOut fx h1 c i ((2 * s2.sum + n) / (2 * n)) false s2.blkBad (s2.orTag &&& passMask) x.time

/-- SETTLE_PIECE. -/
def execSettlePiece (x : Chain) (i : Fin 8) (bad : ParityFault) (s : State) : Out :=
  liftHub s (fun fx h => h.evalStage (chainOf x.ctx x.shadow) i 3 bad (Hub.settleTake fx (chainOf x.ctx x.shadow) i))

/-! ### RESAMPLE (R199, R200) -/

/-- Give the output at a position, when its window's newest input has arrived. -/
def Hub.outAt (fx : Fixed) (c i : Nat) (h : Hub) (p : Nat) (extra : BitVec 8) (time : Nat) : Hub :=
  let s := h.stg' c i
  let mp := roundPos p
  let r := s.interp mp.1 mp.2
  let pc := Hub.checkParity fx h c i (s.n - 17 - mp.1) (min 32 (s.n + 15 - mp.1)) none
  let tag := (s.interpTags mp.1 &&& passMask) ||| extra ||| (if mp.1 < 15 then tSettle else 0#8)
  Hub.giveOut fx pc.2 c i r.1 r.2 pc.1 tag time

/-- The input that completes a position has arrived: m + 16 of its unrounded index (R197). -/
def Stage.reached (s : Stage) (p : Nat) : Bool := decide (p / 16777216 + 16 < s.n)

/-- FIXED mode: every output whose position the newest input completes. -/
def Hub.fixedRun (fx : Fixed) (c i r : Nat) : Nat → Hub → Hub
  | 0, h => h
  | fuel + 1, h =>
    let s := h.stg' c i
    if s.reached s.pos then
      let h1 := Hub.outAt fx c i h s.pos 0#8 (s.timePos s.pos)
      Hub.fixedRun fx c i r fuel (h1.modStg c i (fun x => { x with pos := x.pos + r }))
    else h

/-- GRID mode: the outputs of the interval the newest input completes, k counting up; at most 512 lie between near neighbours. -/
def Hub.gridRun (fx : Fixed) (c i m t0 t1 tg : Nat) : Nat → Nat → Hub → Hub
  | 0, _, h => h
  | fuel + 1, tau, h =>
    if tau < t1 then
      let g := (2 * (tau - t0) * 16777216 + (t1 - t0)) / (2 * (t1 - t0))
      Hub.gridRun fx c i m t0 t1 tg fuel (tau + tg) (Hub.outAt fx c i h (m * 16777216 + g) 0#8 tau)
    else h

/-- The first grid time at or above a time. -/
def gridFirst (off tg t : Nat) : Nat := if t ≤ off then off else off + (t - off + tg - 1) / tg * tg

/-- A RESAMPLE stage takes an input. In GRID mode an interval between inputs that are not adjacent gives no output, and the next one
carries GAP (R200). -/
def Hub.resampleTake (fx : Fixed) (c i : Nat) (h : Hub) (x : Samp) : Hub :=
  let h1 := h.modStg c i (fun s => s.shift 64 x)
  let s := h1.stg' c i
  if h1.sc c i 4 0 1 = 0 then
    Hub.fixedRun fx c i (h1.rd (fFabTSlSetSet (h1.stTile c i) (h1.stSlot c i))) 300 h1
  else if s.n < 17 then h1
  else
    let m := s.n - 17
    let t0 := s.timeAt m
    let t1 := s.timeAt (m + 1)
    let tg := h1.sc c i 8 0 32 * 65536 + h1.sc c i 9 0 16
    let off := h1.sc c i 10 0 32 * 65536
    let rate := h1.inRate c i
    let gap := match s.at? ((m : Int) + 1) with | some y => y.has tGap | none => false
    let near := !gap && decide (t0 < t1) && (rate.1 == 0 || decide ((t1 - t0) * rate.1 ≤ 2 * 65536000000000 * rate.2))
    if tg = 0 then h1
    else if near then Hub.gridRun fx c i m t0 t1 tg 600 (gridFirst off tg t0) h1
    else h1.modStg c i (fun s => { s with gapDue := true })

/-- RESAMPLE_EVALUATION. -/
def execResampleEvaluation (x : Chain) (i : Fin 8) (bad : ParityFault) (s : State) : Out :=
  liftHub s (fun fx h => h.evalStage (chainOf x.ctx x.shadow) i 4 bad (Hub.resampleTake fx (chainOf x.ctx x.shadow) i))

/-! ### DELAY (R202) -/

/-- A DELAY stage takes input k and gives output k. -/
def Hub.delayTake (fx : Fixed) (c i : Nat) (h : Hub) (x : Samp) : Hub :=
  let set := h.rd (fFabTSlSetSet (h.stTile c i) (h.stSlot c i))
  let f := natField set 0 10
  let ip := natField set 10 11
  let h1 := h.modStg c i (fun s => s.shift (h.delayLen c i) x)
  let s := h1.stg' c i
  let k : Nat := s.n - 1
  let m : Int := if f = 0 then (k : Int) - 16 - ip else (k : Int) - 17 - ip
  let phi := if f = 0 then 0 else 1024 - f
  let r := s.interp m phi
  let need := ip + 31 + (if f = 0 then 0 else 1)
  let pc := Hub.checkParity fx h1 c i (if f = 0 then ip else ip + 1) 32 none
  let tag := (s.interpTags m &&& passMask) ||| (if k < need then tSettle else 0#8)
  Hub.giveOut fx pc.2 c i r.1 r.2 pc.1 tag x.time

/-- DELAY_EVALUATION. -/
def execDelayEvaluation (x : Chain) (i : Fin 8) (bad : ParityFault) (s : State) : Out :=
  liftHub s (fun fx h => h.evalStage (chainOf x.ctx x.shadow) i 6 bad (Hub.delayTake fx (chainOf x.ctx x.shadow) i))

/-! ### DETECT (R210, R211) -/

/-- The increment of bin `b`: coefficient words 2b and 2b + 1 of the bank in use. -/
def Hub.binInc (h : Hub) (c i b : Nat) (u : BankUse) : Nat :=
  let t := h.stTile c i
  let o := h.coefOff c i
  ofInt (h.coefOf t (o + 2 * b) u) 24 * 2 ^ 24 + ofInt (h.coefOf t (o + 2 * b + 1) u) 24

/-- The tables cos_t and sin_t of 16,384 entries (R210). -/
def cosTab (k : Nat) : Int := q23 (Config.cosUp k) (cosTurn k 16384)
def sinTab (k : Nat) : Int := q23 (Config.sinUp k) (sinTurn k 16384)

/-- A DETECT stage takes an input: every bin accumulates, the input passes to the output, and the N_b-th input finishes a
block. -/
def Hub.detectTake (fx : Fixed) (c i : Nat) (h : Hub) (x : Samp) : Hub :=
  let bins := h.sc c i 4 0 4
  let nb := h.sc c i 4 5 16 + 1
  let u := h.bankUse c i false
  let pc := Hub.checkParity fx h c i 0 0 (some u)
  let met := !(pc.2.stg' c i).badW.isEmpty
  let h1 := if met then Hub.parWords fx pc.2 c i else pc.2
  let s0 := h1.stg' c i
  let fresh := x.has tGap || s0.inBlk == 0
  let s := if x.has tGap then { s0 with phase := [], iacc := [], qacc := [], inBlk := 0, orTag := 0#8 } else s0
  let v := valOf x.val
  let ph := (List.range bins).map (fun b => s.phase.getD b 0)
  let ia := (List.range bins).map (fun b => sat56 (s.iacc.getD b 0 + v * cosTab (ph.getD b 0 / 2 ^ 34)))
  let qa := (List.range bins).map (fun b => sat56 (s.qacc.getD b 0 - v * sinTab (ph.getD b 0 / 2 ^ 34)))
  let lim := ia.any (fun p => p.2) || qa.any (fun p => p.2)
  let tag := s.orTag ||| x.tag ||| (if lim then tSat else 0#8)
  let s1 := { s with
    n := s.n + 1
    phase := (List.range bins).map (fun b => (ph.getD b 0 + h.binInc c i b u) % 2 ^ 48)
    iacc := ia.map (fun p => p.1), qacc := qa.map (fun p => p.1), inBlk := s.inBlk + 1, orTag := tag
    blkTime := if fresh then x.time else s.blkTime }
  let s2 := if nb ≤ s1.inBlk then
      { s1 with iacc := [], qacc := [], inBlk := 0, orTag := 0#8
                done := if c < 192 then some { i := s1.iacc, q := s1.qacc, flags := s1.orTag, time := s1.blkTime } else none }
    else s1
  (Hub.giveOut fx (h1.setStg c i s2) c i v false (pc.1 || met) (x.tag &&& ~~~(tGap ||| tLate)) x.time).swapOutput c i false

/-- DETECT_EVALUATION. -/
def execDetectEvaluation (x : Chain) (i : Fin 8) (bad : ParityFault) (s : State) : Out :=
  liftHub s (fun fx h => h.evalStage (chainOf x.ctx x.shadow) i 7 bad (Hub.detectTake fx (chainOf x.ctx x.shadow) i))

/-! ### DETECT_BLOCK_RESULT (R211, R233) -/

/-- The stage delivers its finished block to the context's feature set; a shadow copy delivers none. -/
def Hub.detectResult (h : Hub) (c i : Nat) : Hub :=
  if h.stKind c i = 7 then
    let s := h.stg' c i
    match s.done with
    | none => h
    | some d =>
      let t := h.stTile c i
      let j := h.stSlot c i
      let h1 := (h.setStg c i { s with done := none }).setReg (rFabTSlCnt t j) (h.reg (rFabTSlCnt t j) + 1#32)
      if h1.feaOn c then
        h1.featDone { ctx := c, set := 2, tag := d.flags, time := d.time, vals := binVals (h.sc c i 4 5 16 + 1) d, cyc := h1.cyc } false d.i.length
      else h1
  else h

/-- DETECT_BLOCK_RESULT. -/
def execDetectBlockResult (c : Fin 192) (i : Fin 8) (s : State) : Out := liftHub s (fun _ h => h.detectResult c i)

end Sys2Proof.Machine
end

