-- ==== Sys2Proof/Machine/Limits.lean ====
section
/-! DEFINITION. The limit table and its engine (spec/09 R237 to R247). -/

namespace Sys2Proof.Machine
open Sys2Proof

/-! ### Stored entries (R237, R246) -/

/-- The configuration cell of word `i` of entry `e`. -/
def limCell (e i : Nat) : Nat := cellKey 7 (e / 64) (4 * (e % 64) + i)

/-- A word as stored: the word last written, with the data bits upsets flipped. -/
def Hub.limRaw (h : Hub) (e i : Nat) : Word :=
  h.cell 7 (e / 64) (4 * (e % 64) + i) ^^^ (NMap.get h.lim.ups (4 * e + i)).setWidth 32


/-- An upset flips bits of a stored word. -/
def Hub.limUpset (h : Hub) (u : Option LimUpset) : Hub :=
  match u with
  | some x =>
    let m := NMap.modify h.lim.ups (4 * x.entry.val + x.word.val) (fun b => b ^^^ x.bits)
    { h with lim := { h.lim with ups := m } }
  | none => h

/-- An entry is passed over until it is rewritten. -/
def Hub.limBad (h : Hub) (e : Nat) : Bool := h.is (fLimStBad e)

/-- An uncorrectable word: counted, recorded, its entry marked; LIMIT_UNCORR once until the entry is rewritten. -/
def Hub.limUncorr (h : Hub) (e i : Nat) : Hub :=
  let h1 := (((h.on fLimStatusUncorr).countSat fLimCountUncorr 1).wr fLimErrAddrWord i).wr fLimErrAddrEntry e
  if h.limBad e then h1 else (h1.on (fLimStBad e)).fault 0x33 e 0xC4 (w32 (0x140000 + 16 * e + 4 * i)) 0#32

/-- Read a stored word: one flipped bit is corrected and written back; two are uncorrectable; of more the outcome is open. -/
def Hub.limRead (h : Hub) (e i : Nat) : Option Word × Hub :=
  let u := NMap.get h.lim.ups (4 * e + i)
  let w := h.cell 7 (e / 64) (4 * (e % 64) + i)
  let n := popcount39 u
  if n = 0 then (some w, h)
  else if n = 1 then
    (some w, ({ h with lim := { h.lim with ups := NMap.set h.lim.ups (4 * e + i) 0#39 } }.on fLimStatusCorr).countSat fLimCountCorr 1)
  else if n = 2 then (none, h.limUncorr e i)
  else
    let r := h.takeFree
    if r.1 % 2 = 0 then (none, r.2.limUncorr e i)
    else
      let r2 := r.2.takeFree
      (some (w32 r2.1), r2.2)
where
  popcount39 (u : BitVec 39) : Nat := ((List.range 39).filter (fun k => u.getLsbD k)).length

/-- Read the four words of an entry: `none` when one is uncorrectable. -/
def Hub.limEntry (h : Hub) (e : Nat) : Option (List Word) × Hub :=
  (List.range 4).foldl (fun a i =>
    let r := a.2.limRead e i
    (match a.1, r.1 with
      | some ws, some w => some (ws ++ [w])
      | _, _ => none, r.2)) (some [], h)

/-! ### Fields of an entry -/
def leValid (ws : List Word) : Bool := bitOf (recWord ws 0) 31
def leCtx (ws : List Word) : Nat := fieldOf (recWord ws 0) 23 8
def leSel (ws : List Word) : Nat := fieldOf (recWord ws 0) 15 8
def leLow (ws : List Word) : Bool := fieldOf (recWord ws 0) 13 2 == 1
def leOn (ws : List Word) : Nat := fieldOf (recWord ws 0) 9 4 + 1
def leOff (ws : List Word) : Nat := fieldOf (recWord ws 0) 5 4 + 1
def leHyst (ws : List Word) : Int := f16Val (fieldOf (recWord ws 3) 16 16)
/-- One of the action bits of word 3. -/
def leAct (ws : List Word) (b : Nat) : Bool := bitOf (recWord ws 3) b

/-! ### The check of an entry (R238) -/

/-- First entry and entry count of a context's run (R248). -/
def Hub.limRun (h : Hub) (c : Nat) : Nat × Nat := (h.cf 6 (4 + c) 2 0 13, h.cf 6 (4 + c) 2 13 14)

/-- Bins of a context's DETECT stage (R210). -/
def Hub.detBins (h : Hub) (c : Nat) : Nat :=
  match (List.range (h.ctxStages c)).find? (fun i => h.stKind c i == 7) with
  | some i => h.sc c i 4 0 4
  | none => 0

/-- A context's feature set produces a selector. -/
def Hub.limSelOk (h : Hub) (c sel : Nat) : Bool :=
  h.feaOn c &&
    (decide (sel < 6) || (decide (0x10 ≤ sel) && decide (sel < 0x10 + h.feaBands c)) ||
     (decide (0x40 ≤ sel) && decide (sel < 0x40 + h.detBins c)) || (decide (0x48 ≤ sel) && decide (sel < 0x48 + h.detBins c)))

/-- A binary16 half word is NaN or infinite. -/
def f16Special (n : Nat) : Bool := natField n 10 5 == 31

/-- A valid entry that R238 refuses. -/
def Hub.limRefused (h : Hub) (e : Nat) (ws : List Word) : Bool :=
  let c := leCtx ws
  let run := h.limRun c
  let w := f32Val (recWord ws 1)
  let a := f32Val (recWord ws 2)
  let hy := fieldOf (recWord ws 3) 16 16
  leValid ws &&
    (decide (192 ≤ c) || !h.limSelOk c (leSel ws) || decide (e < run.1) || decide (run.1 + run.2 ≤ e) ||
     decide (2 ≤ fieldOf (recWord ws 0) 13 2) || (leLow ws && decide (w < a)) || (!leLow ws && decide (a < w)) ||
     f32Special (recWord ws 1) || f32Special (recWord ws 2) || f16Special hy || decide (f16Val hy < 0) ||
     fieldOf (recWord ws 0) 0 5 != 0 || fieldOf (recWord ws 3) 0 3 != 0)

/-! ### Transitions (R241, R242, R244) -/

/-- Give an entry a level and keep `lim.active` in step. -/
def Hub.limSetLevel (h : Hub) (e new : Nat) : Hub :=
  let old := h.rd (fLimStLevel e)
  let h1 := h.wr (fLimStLevel e) new
  let h2 := (h1.wr fLimActiveWarning (h1.rd fLimActiveWarning + b2n (new == 1) - b2n (old == 1)))
  h2.wr fLimActiveAlarm (h2.rd fLimActiveAlarm + b2n (new == 2) - b2n (old == 2))

/-- The alarm record. -/
def Hub.alarmWords (h : Hub) (e : Nat) (ws : List Word) (time : Nat) (tag : BitVec 8) (new old cause : Nat) (v crossed : Word) :
    List Word :=
  match timeWords time with
  | [a, b, d, f] =>
    let t := [a, b, d, f ||| w32 (tag.toNat * 256)]
    recHeader 0x18 (leCtx ws) 13 :: t ++
      [w32 (h.devnum * 2 ^ 23 + e * 1024 + new * 256 + old * 64 + cause * 8), w32 (leSel ws * 2 ^ 24 + 1), v, crossed] ++ t
  | _ => []

/-- The radio node a context takes its samples from, directly or through CONTEXT sources. -/
def Hub.nodeOf : Nat → Hub → Nat → Option Nat
  | 0, _, _ => none
  | f + 1, h, c =>
    if h.ctxKind c = 3 then some (h.cf 5 (32 + c) 1 0 8)
    else if h.ctxKind c = 6 then Hub.nodeOf f h (h.cf 5 (32 + c) 1 0 8) else none

/-- An entry's alarms go on the RADIO path: its context's node takes alarms (R386, R450). -/
def Hub.radioAlarm (h : Hub) (c : Nat) : Bool :=
  match h.nodeOf 6 c with
  | some n => h.cf 12 n 1 8 1 == 1
  | none => false

/-- An acting transition: alarm record, cascade, channel, `act`, in that order. -/
def Hub.limAct (fx : Fixed) (h : Hub) (e : Nat) (ws rec : List Word) : Hub :=
  let s : AlarmSlot := { key := e, words := rec }
  let h1 := if leAct ws 15 then h.alarmTo 0 s else h
  let h2 := if leAct ws 13 && !h1.isMaster fx && !h1.standalone fx then h1.alarmTo 1 s else h1
  let h3 := if leAct ws 15 && h2.radioAlarm (leCtx ws) then h2.alarmTo 2 s else h2
  let h4 := if leAct ws 12 then h3.presentChan (fieldOf (recWord ws 3) 5 7) else h3
  if leAct ws 14 then h4.on fLimStatusAct else h4

/-- A transition acts when either level is ALARM, or with warn_acts (R241). -/
def limActs (ws : List Word) (old new : Nat) : Bool := old == 2 || new == 2 || leAct ws 4

/-- The level crossed: rising the level's own threshold, falling it less the hysteresis. -/
def crossedLevel (ws : List Word) (old new : Nat) : Word :=
  let hy := if leLow ws then -leHyst ws else leHyst ws
  if old < new then (if new = 2 then recWord ws 2 else recWord ws 1)
  else f32OfVal (f32Val (recWord ws (if new = 1 then 2 else 1)) - hy)

/-- A changed entry becomes NORMAL with zeroed counters; out of WARNING or ALARM that is a REWRITE transition (R244). -/
def Hub.limChanged (fx : Fixed) (h : Hub) (e : Nat) (old new : List Word) : Hub :=
  let lv := h.rd (fLimStLevel e)
  let h1 := ((((h.limSetLevel e 0).wr (fLimStOnCnt e) 0).wr (fLimStOffCnt e) 0).wr (fLimStTrans e) 0)
  let ws := if leValid new then new else old
  if lv = 0 || !limActs ws lv 0 then h1
  else h1.limAct fx e ws (h1.alarmWords e ws (report (h1.tbVal (h1.ctxTb (leCtx ws)))) 0#8 0 lv 1 0#32 0#32)

/-! ### Evaluation (R239, R240) -/

/-- A record's value for a selector. -/
def FeaRec.value (r : FeaRec) (sel : Nat) : Option Word :=
  if r.set = 0 then (if sel < 6 then r.vals[sel]? else none)
  else if r.set = 1 then (if 0x10 ≤ sel ∧ sel < 0x30 then r.vals[sel - 0x10]? else none)
  else if 0x40 ≤ sel ∧ sel < 0x48 then r.vals[2 * (sel - 0x40)]?
  else if 0x48 ≤ sel ∧ sel < 0x50 then r.vals[2 * (sel - 0x48) + 1]?
  else none

/-- The level a value proposes from the present one. -/
def propLevel (ws : List Word) (v : Word) (level : Nat) : Nat :=
  let s : Int := if leLow ws then -1 else 1
  let x := s * f32Val v
  let w := s * f32Val (recWord ws 1)
  let a := s * f32Val (recWord ws 2)
  let hy := leHyst ws
  let up := if a ≤ x then 2 else if w ≤ x then 1 else 0
  let down := if a - hy ≤ x then 2 else if w - hy ≤ x then 1 else 0
  if level < up then up else if down < level then down else level

/-- Take a transition: the level, the count of transitions, and its actions. -/
def Hub.limGoes (fx : Fixed) (h : Hub) (e : Nat) (ws : List Word) (r : FeaRec) (v : Word) (old new : Nat) : Hub :=
  let h1 := (((h.limSetLevel e new).wr (fLimStOnCnt e) 0).wr (fLimStOffCnt e) 0).count (fLimStTrans e) 1
  if limActs ws old new then
    h1.limAct fx e ws (h1.alarmWords e ws r.time r.tag new old 0 v (crossedLevel ws old new))
  else h1

/-- Evaluate one entry on one value. -/
def Hub.limEval (fx : Fixed) (h : Hub) (e : Nat) (ws : List Word) (r : FeaRec) (v : Word) : Hub :=
  if leAct ws 3 && r.tag &&& 0xC4#8 != 0#8 then h.countSat fLimCountSkipped 1
  else
    let lv := h.rd (fLimStLevel e)
    let p := propLevel ws v lv
    if lv < p then
      let n := h.rd (fLimStOnCnt e) + 1
      if leOn ws ≤ n then h.limGoes fx e ws r v lv p else (h.wr (fLimStOnCnt e) n).wr (fLimStOffCnt e) 0
    else if p < lv then
      let n := h.rd (fLimStOffCnt e) + 1
      if leOff ws ≤ n then h.limGoes fx e ws r v lv p else (h.wr (fLimStOffCnt e) n).wr (fLimStOnCnt e) 0
    else (h.wr (fLimStOnCnt e) 0).wr (fLimStOffCnt e) 0

/-- One entry of the walk: passed over when bad or unreadable, evaluated when valid and its selector is in the record. -/
def Hub.limStep (fx : Fixed) (r : FeaRec) (h : Hub) (e : Nat) : Hub :=
  if h.limBad e then h
  else
    let x := h.limEntry e
    match x.1 with
    | some ws =>
      match (if leValid ws && leCtx ws == r.ctx then r.value (leSel ws) else none) with
      | some v => x.2.limEval fx e ws r v
      | none => x.2
    | none => x.2

/-- The walk of a record through its context's run, in ascending entry order. -/
def Hub.limRecord (fx : Fixed) (h : Hub) : Hub :=
  match h.lim.fifo with
  | [] => h
  | r :: rest =>
    let run := h.limRun r.ctx
    ((List.range run.2).map (fun i => run.1 + i)).foldl (Hub.limStep fx r) { h with lim := { h.lim with fifo := rest } }

/-- LIMIT_RECORD_EVALUATE. -/
def execLimitRecordEvaluate (upset : Option LimUpset) (s : State) : Out :=
  liftHub s (fun fx h => if h.stHeld heldLimit then h.refusedBy heldLimit else (h.limUpset upset).limRecord fx)

/-- LIMIT_SCRUB_READ: the scrubber reads one entry while the engine is idle. -/
def execLimitScrubRead (upset : Option LimUpset) (s : State) : Out :=
  liftHub s (fun _ h0 =>
    let h := h0.limUpset upset
    if h.is fLimCfgScrub && h.lim.fifo.isEmpty && !h.stHeld heldLimit then
      let e := h.rd fLimScrubPos
      (h.limEntry e).2.wr fLimScrubPos (e + 1)
    else h)

/-! ### Host writes (R245) -/

/-- Hold word 0, 1 or 2 of an entry; words held for another entry are discarded. A destructive test of the table refuses host writes and
counts them (R465, log entry 122). -/
def Hub.limHold (h : Hub) (e i : Nat) (w : Word) : Hub :=
  if h.stHeld heldLimit then h.refusedBy heldLimit
  else match h.lim.entry with
  | some e0 =>
    if e0 = e then { h with lim := { h.lim with buf := NMap.insert (NMap.erase h.lim.buf i) i w } }
    else { (h.on fLimStatusWrDiscard) with lim := { h.lim with entry := some e, buf := [(i, w)] } }
  | none => { h with lim := { h.lim with entry := some e, buf := [(i, w)] } }

/-- LIM_ENTRY_WORD_HOLD. -/
def execLimEntryWordHold (e : Fin 8192) (i : Fin 3) (w : Word) (s : State) : Out :=
  liftHub s (fun fx h => h.atReg fx s.met .lim (0x140000 + 16 * e + 4 * i) (fun h => h.limHold e i w))

/-- The stored words of an entry, each read through its check bits: corrected, or as it stands when it is uncorrectable (R246). -/
def Hub.limStored (h : Hub) (e : Nat) : List Word × Hub :=
  (List.range 4).foldl (fun (a : List Word × Hub) i =>
    let r := a.2.limRead e i
    (a.1 ++ [match r.1 with | some w => w | none => r.2.limRaw e i], r.2)) ([], h)

/-- Store the words given of an entry with fresh check bits. The entry is no longer passed over, unless a word that was not written
stands uncorrectable (DESIGN CHOICE, log entry 106). -/
def Hub.limPut (h : Hub) (e : Nat) (ws : List (Option Word)) : Hub :=
  let h1 := (List.range 4).foldl (fun (a : Hub) i =>
    match ws.getD i none with
    | some w => { (a.setCell (limCell e i) w) with lim := { a.lim with ups := NMap.erase a.lim.ups (4 * e + i) } }
    | none => a) h
  if (List.range 4).all (fun i => NMap.get h1.lim.ups (4 * e + i) == 0#39) then h1.off (fLimStBad e) else h1

/-- Word 3: the held words, with the stored ones for those not written, are checked and applied together, or refused. The reserved bits of
an entry whose valid bit is 0 are stored and read back as written: R238 accepts them, and R7 would have them read 0 (DESIGN CHOICE, log
entry 107). -/
def Hub.limApply (fx : Fixed) (h : Hub) (e : Nat) (w : Word) : Hub :=
  if h.stHeld heldLimit then h.refusedBy heldLimit else
  let mine := h.lim.entry == some e
  let held (i : Nat) : Option Word := if i = 3 then some w else if mine then (h.lim.buf.find? (fun x => x.1 == i)).map Prod.snd else none
  let r := h.limStored e
  let old := r.1
  let new := (List.range 4).map (fun i => (held i).getD (recWord old i))
  let h1 := if mine then { r.2 with lim := { r.2.lim with entry := none, buf := [] } } else r.2
  if h1.limRefused e new then h1.on fLimStatusWrRefused
  else
    let h2 := h1.limPut e ((List.range 4).map held)
    if new = old then h2 else h2.limChanged fx e old new

/-- LIM_ENTRY_APPLY. -/
def execLimEntryApply (e : Fin 8192) (w : Word) (s : State) : Out :=
  liftHub s (fun fx h => h.atReg fx s.met .lim (0x14000C + 16 * e) (fun h => h.limApply fx e w))

end Sys2Proof.Machine
end

