-- ==== Sys2Proof/Machine/Order.lean ====
section
/-! DEFINITION. The ORDER stage (spec/08 R203 to R209): tach stamps become edge positions, edges steer the ratio, outputs follow
at equal angles. Positions and intervals are in units of 2^-24 input periods. -/

namespace Sys2Proof.Machine
open Sys2Proof

/-- ORDER parameters (R204, R214). -/
structure OrdCfg where
  predict : Nat
  w : Nat
  nLost : Nat
  p : Nat
  q : Nat
  fMin : Nat
  fMax : Nat
  /-- the declared rate of the input, numerator and denominator -/
  rate : Nat
  den : Nat
  rFloor : Nat
  deriving DecidableEq, Repr

/-- Division rounded to nearest. -/
def divNear (a b : Nat) : Nat := (2 * a + b) / (2 * b)

def Hub.ordCfg (h : Hub) (c i : Nat) : OrdCfg :=
  let p := h.sc c i 5 0 9
  let rate := h.inRate c i
  { predict := h.sc c i 4 3 2, w := h.sc c i 4 5 6, nLost := h.sc c i 4 11 4, p := p
    q := h.sc c i 5 9 13 / (max p 1), fMin := h.sc c i 6 0 32, fMax := h.sc c i 7 0 32, rate := rate.1, den := max rate.2 1
    rFloor := max 1 (divNear (rate.1 * 16777216) (max rate.2 1 * max (h.outRate c i) 1)) }

/-- Speed of an interval in 0.001 rev/s (R208). -/
def OrdCfg.speed (k : OrdCfg) (d : Nat) : Nat := if d = 0 ∨ k.p = 0 then 0 else divNear (k.rate * 1000 * 16777216) (k.den * k.p * d)

/-- The prediction, ratio and window that follow an accepted edge at `u` (the second half of R206). -/
def Hub.ordAim (h : Hub) (c i : Nat) (k : OrdCfg) (u : Nat) : Hub :=
  let s := h.stg' c i
  let dhat :=
    if k.predict = 1 then max (2 * s.d - s.dPrev) (s.d / 2)
    else if k.predict = 2 then
      let far := (s.edges.drop 1).take k.p
      match far.getLast? with
      | some f => divNear (u - f) far.length
      | none => s.d
    else s.d
  let nRem := if s.kNext < (s.e + 1) * k.q then (s.e + 1) * k.q - s.kNext else 1
  let r0 := if s.pos < u + dhat then divNear (u + dhat - s.pos) nRem else 0
  let r := min (max r0 k.rFloor) (255 * 16777216)
  let h1 := h.setStg c i { s with dhat := dhat, winLo := u + divNear (dhat * (64 - k.w)) 64,
                                  winHi := u + divNear (dhat * (64 + k.w)) 64, dPrev := s.d, uLast := u }
  h1.wr (fFabTSlSetSet (h.stTile c i) (h.stSlot c i)) r

/-- Return to ACQUIRE with `lost` set (R207, R209). -/
def Hub.ordLose (h : Hub) (c i : Nat) (k : OrdCfg) (originToo : Bool) : Hub :=
  let t := h.stTile c i
  let j := h.stSlot c i
  let h1 := h.on (fFabTSlStLost t j)
  let h2 := if originToo && decide (1 < k.p) then h1.on (fFabTSlStOriginLost t j) else h1
  (h2.modStg c i (fun s => { s with acquired := false, edges := [], synthRun := 0 })).ordState c i 0

/-- An accepted edge, real or synthetic, at position `u` while tracking (R206, R209); outputs of OVERSPEED stay at r_floor (R208). -/
def Hub.ordEdge (h : Hub) (c i : Nat) (k : OrdCfg) (u : Nat) (real : Bool) : Hub :=
  let t := h.stTile c i
  let j := h.stSlot c i
  let h0 := h.modStg c i (fun s =>
    let e := s.e + 1
    { s with e := e, d := u - s.uLast, edges := (u :: s.edges).take 258, synthRun := if real then 0 else s.synthRun + 1
             eReal := if real then e + 1 else s.eReal })
  let s := h0.stg' c i
  let f := k.speed s.d
  let st := h.rd (fFabTSlStState t j)
  let inLimits := decide (k.fMin ≤ f) && decide (f ≤ k.fMax)
  let h1 := h0.wr (fFabTSlSpeedSpeed t j) f
  let h1 := if real then h1 else (h1.on (fFabTSlStCoast t j)).countSat (fFabTSlCntSynth t j) 1
  if !real && decide (k.nLost ≤ s.synthRun) then h1.ordLose c i k true
  else if st = 3 ∨ st = 4 then
    if real && inLimits && s.e % max k.p 1 == 0 then
      let h2 := h1.modStg c i (fun s => { s with kNext := s.e * k.q, pos := u, gapDue := true })
      (((h2.ordAim c i k u).on (fFabTSlStResync t j)).countSat (fFabTSlCntResync t j) 1).ordState c i 1
    else if st = 3 then (h1.ordAim c i k u).wr (fFabTSlSetSet t j) k.rFloor
    else h1.ordAim c i k u
  else
    let h2 := h1.ordAim c i k u
    let r := h2.rd (fFabTSlSetSet t j)
    if k.fMax < f ∨ r ≤ k.rFloor then ((h2.wr (fFabTSlSetSet t j) k.rFloor).on (fFabTSlStOverspeed t j)).ordState c i 3
    else if f < k.fMin ∨ 255 * 16777216 ≤ r then (h2.on (fFabTSlStStopped t j)).ordState c i 4
    else h2.ordState c i (if real then 1 else 2)

/-- Insert synthetic edges while a position lies beyond the window (R207). -/
def Hub.ordMissing (c i : Nat) (k : OrdCfg) (u : Nat) : Nat → Hub → Hub
  | 0, h => h
  | fuel + 1, h =>
    let s := h.stg' c i
    if s.acquired && decide (s.winHi ≤ u) then
      Hub.ordMissing c i k u fuel (h.ordEdge c i k (s.uLast + s.dhat) false)
    else h

/-- A stamped edge at position `u`: acquisition (R205) or the window test (R207). -/
def Hub.ordStamp (h : Hub) (c i : Nat) (k : OrdCfg) (u : Nat) : Hub :=
  let t := h.stTile c i
  let j := h.stSlot c i
  let h0 := Hub.ordMissing c i k (u - 1) 16 h
  let s := h0.stg' c i
  if s.acquired then
    if u < s.winLo then (h0.on (fFabTSlStDoubled t j)).countSat (fFabTSlCntDoubled t j) 1
    else h0.ordEdge c i k u true
  else
    match s.edges with
    | u2 :: u1 :: _ =>
      let d1 := u2 - u1
      let d2 := u - u2
      let ok (d : Nat) : Bool := decide (k.fMin ≤ k.speed d) && decide (k.speed d ≤ k.fMax)
      let diff := if d1 < d2 then d2 - d1 else d1 - d2
      if ok d1 && ok d2 && decide (diff * 64 ≤ d1 * k.w) then
        let h1 := h0.setStg c i { s with acquired := true, edges := [u], e := 0, eReal := 1, kNext := 0, pos := u, dPrev := d1,
                                         d := d2, gapDue := true, synthRun := 0 }
        (((h1.ordAim c i k u).wr (fFabTSlSpeedSpeed t j) (k.speed d2)).countSat (fFabTSlCntAcq t j) 1).ordState c i 1
      else h0.setStg c i { s with edges := [u, u2] }
    | _ => h0.setStg c i { s with edges := (u :: s.edges).take 2 }

/-- Outputs whose windows the newest input completes (R206, R207, R208). -/
def Hub.ordRun (fx : Fixed) (c i : Nat) (k : OrdCfg) : Nat → Hub → Hub
  | 0, h => h
  | fuel + 1, h =>
    let t := h.stTile c i
    let j := h.stSlot c i
    let s := h.stg' c i
    let st := h.rd (fFabTSlStState t j)
    if s.acquired && s.reached s.pos then
      let extra := (if s.eReal * k.q ≤ s.kNext then tBridged else 0#8) ||| (if st = 3 then tAborted else 0#8)
      let h1 := if st = 4 then h else Hub.outAt fx c i h s.pos extra (s.timePos s.pos)
      let r := h1.rd (fFabTSlSetSet t j)
      Hub.ordRun fx c i k fuel (h1.modStg c i (fun x => { x with pos := x.pos + r, kNext := x.kNext + 1 }))
    else h

/-- An ORDER stage takes an input: the stamps up to its time first, in stamp order, then a missing edge, then its outputs. -/
def Hub.orderTake (fx : Fixed) (c i : Nat) (h : Hub) (x : Samp) : Hub :=
  let k := h.ordCfg c i
  let h0 := if x.has tGap && (h.stg' c i).acquired then h.ordLose c i k false else h
  let h1 := h0.modStg c i (fun s => s.shift 64 x)
  let s := h1.stg' c i
  let idx := s.n - 1
  let t1 := x.time
  let t0 := s.timeAt ((idx : Int) - 1)
  let mine := s.stamps.filter (fun e => decide (t0 < e) && decide (e ≤ t1))
  let h2 := h1.setStg c i { s with stamps := s.stamps.filter (fun e => decide (t1 < e)) }
  let h3 := if idx = 0 then h2 else
    mine.foldl (fun a e => a.ordStamp c i k ((idx - 1) * 16777216 + divNear ((e - t0) * 16777216) (t1 - t0))) h2
  let h4 := Hub.ordMissing c i k (idx * 16777216) 16 h3
  Hub.ordRun fx c i k (16777216 / k.rFloor + 2) h4

/-- ORDER_EVALUATION. -/
def execOrderEvaluation (x : Chain) (i : Fin 8) (bad : ParityFault) (s : State) : Out :=
  liftHub s (fun fx h => h.evalStage (chainOf x.ctx x.shadow) i 5 bad (Hub.orderTake fx (chainOf x.ctx x.shadow) i))

/-- A stamp on every timebase reaches the ORDER stages that read its tach input and their shadow copies, each on its context's timebase
(R159, R203, R318). -/
def Hub.tachToStages (h : Hub) (t : Nat) (stamp : Nat → Nat) : Hub :=
  ((h.usedUnits 5).filter (fun u => decide (32 ≤ u))).foldl (fun a u => (a.chainsOf (u - 32)).foldl (fun b x =>
    (List.range (b.ctxStages (u - 32))).foldl (fun d i =>
      if d.stKind x i = 5 ∧ d.sc x i 4 0 3 = t then
        d.modStg x i (fun s => { s with stamps := s.stamps ++ [stamp (d.ctxTb (u - 32))] })
      else d) b) a) h

end Sys2Proof.Machine
end

