-- ==== Sys2Proof/Machine/Queues.lean ====
section
/-! DEFINITION. Queues: producer writes, bypass, spill, refill, window reads and flush (spec/11 R279 to R293). -/

namespace Sys2Proof.Machine
open Sys2Proof

/-! ### Shared movements -/

/-- Bypass: words move from tail to head while the middle is empty and the head has room (R280). -/
def Queue.bypass (x : Queue) : Queue :=
  if x.mid.isEmpty then
    let n := 16 - x.head.length
    { x with head := x.head ++ x.tail.take n, tail := x.tail.drop n }
  else x

/-- Forget that the threshold was reached once the level is below it (R282). -/
def Hub.rearmThr (h : Hub) (q : Nat) : Hub :=
  let x := NMap.get h.q q
  if x.thrDone && decide (x.level < h.rd (fQQThrThr q)) then { h with q := NMap.set h.q q { x with thrDone := false } } else h

/-- A SAMPLE word leaves the head of a queue: the HEAD digest of the queue's only SAMPLE context takes it (R162, R163). -/
def Hub.headLeave (h : Hub) (q : Nat) (w : QWord) : Hub :=
  if qKind w = 1 then
    match ((h.usedUnits 5).filter (fun u => decide (32 ≤ u))).find?
        (fun u => h.ctxQueue (u - 32) == q && h.digOn (u - 32) true) with
    | some u =>
      let c := u - 32
      let d := (NMap.get h.ctx c).digHead
      let d1 := if d.skip = 0 then d.add (h.digBlock c) (qPayload w) else { d with skip := d.skip - 1 }
      { h with ctx := NMap.modify h.ctx c (fun y => { y with digHead := d1 }) }
    | none => h
  else h

/-- Remove the next word of a queue for its consumer (R282, R285, R286). -/
def Hub.qPop (h : Hub) (q : Nat) : Option (QWord × Hub) :=
  let x := NMap.get h.q q
  match x.head with
  | w :: rest =>
    let x1 := { x with head := rest, begun := !qEnd w, pkts := if qEnd w then x.pkts - 1 else x.pkts }
    let h1 := { h with q := NMap.set h.q q x1.bypass }
    some (w, (h1.headLeave q w).rearmThr q)
  | [] => none

/-- The word of a read of an empty queue (R283). -/
def idleWord : QWord := qword true 0 0 0#32

/-! ### QUEUE_PRODUCER_WRITE (R281, R282, R284) -/

/-- A word completes into the tail: item counts, threshold and item producers, bypass. -/
def Hub.qPush (h : Hub) (q producer : Nat) (w : QWord) : Hub :=
  let x := NMap.get h.q q
  let x1 := { x with
    tail := x.tail ++ [w], holder := if qEnd w then none else some producer
    inItem := (if qEnd w then 0 else x.inItem + 1), pkts := if qEnd w then x.pkts + 1 else x.pkts }
  let h1 := { h with q := NMap.set h.q q x1.bypass }
  let h2 := if qEnd w then h1.present (0x6000 + q) else h1
  let thr := h2.rd (fQQThrThr q)
  if thr ≠ 0 ∧ x1.level = thr ∧ !x.thrDone then
    { (h2.on (fQQStatusThr q)).present (0x6100 + q) with
      q := NMap.modify h2.q q (fun y => { y with thrDone := true }) }
  else h2

/-- A capture's record is complete with its trailer: done, counts, producer, and the ring idles or is armed again (R295, R297). -/
def Hub.captureEnd (h : Hub) (c : Nat) : Hub :=
  let g := NMap.get h.ring c
  if h.ringState c = 3 then
    let h1 := (((h.wr (fQRLostPre c) (satTo 16 g.lost)).wr (fQRLostRead c) (satTo 16 g.rdLost)).count (fQRCountCaptures c) 1).on
      (fQRStatusDone c)
    (h1.ringIdle c (match h1.ringCfg c with | some k => k.rearm | none => false)).present (0x6300 + c)
  else h

/-- The producers that wait at a queue's write port. -/
def Hub.qAsk (h : Hub) (q : Nat) : List Nat :=
  (h.outbox.filter (fun e => match e.2 with | (p, _) :: _ => p == q | [] => false)).map Prod.fst

/-- The producer a free write port serves: the first waiting one behind the last served, in producer order (R281; the order is a DESIGN
CHOICE, log entry 102). -/
def Hub.qTurn (h : Hub) (q : Nat) : Option Nat :=
  let ps := h.qAsk q
  match ps.find? (fun p => decide ((NMap.get h.q q).turn ≤ p)) with
  | some p => some p
  | none => ps.head?

/-- The end word of a producer's item has left it: a ring's capture is complete. -/
def Hub.itemLeft (h : Hub) (p : Nat) (w : QWord) : Hub :=
  if qEnd w && decide (prodRing 0 ≤ p) && decide (p < prodRing 192) then h.captureEnd (p - prodRing 0) else h

/-- A producer's next word, if its queue takes it now. -/
def Hub.producerWrite (h : Hub) (p : Nat) : Hub :=
  match NMap.get h.outbox p with
  | [] => h
  | (q, w) :: rest =>
    let x := NMap.get h.q q
    let taken := { h with outbox := NMap.set h.outbox p rest }
    if x.holder = some p ∧ x.discard then
      if qEnd w then
        { taken with q := NMap.set h.q q { x with holder := none, discard := false, inItem := 0, turn := p + 1 } }.itemLeft p w
      else taken
    else if h.qEnabled q && !h.recovering 1 q && !h.stHoldsQueues &&
        (if x.holder.isNone then h.qTurn q == some p else x.holder == some p) &&
        decide (x.tail.length < 16) && decide (x.level < h.qCap q) then
      ({ taken with q := NMap.set h.q q { x with turn := p + 1 } }.qPush q p w).itemLeft p w
    else h.refusedBy heldQueue

/-! ### QUEUE_SPILL and QUEUE_REFILL (R280, R289, R291) -/

/-- A pointer whose two copies differ forces a QUEUE reset (R289). -/
def Hub.ptrFault (fx : Fixed) (h : Hub) (q : Nat) : Hub :=
  ((h.on (fQQStatusPtrErr q)).faultRec fx 0x32 1 q 0xC6 (w32 q) 0#32)

/-- The line pointers of a queue after an update, with their second copies; `ptr` is how an upset makes the copies differ, the write
pointer's below the read pointer's. -/
def Queue.movePtr (x : Queue) (wr rd : BitVec 19) (ptr : BitVec 38) : Queue :=
  { x with wr := wr, wrN := wr ^^^ ptr.extractLsb' 0 19, rd := rd, rdN := rd ^^^ ptr.extractLsb' 19 19 }

/-- Both pointers equal their second copies. -/
def Queue.ptrOk (x : Queue) : Bool := x.wr == x.wrN && x.rd == x.rdN

/-- The line slot behind a slot. -/
def Hub.nextSlot (h : Hub) (q slot : Nat) : BitVec 19 := BitVec.ofNat 19 (if slot + 1 < h.qLines q then slot + 1 else 0)

/-- The eight oldest tail words go to the middle. -/
def Hub.spill (fx : Fixed) (h : Hub) (q : Nat) (ptr : BitVec 38) : Hub :=
  let x := NMap.get h.q q
  if decide (8 ≤ x.tail.length) && (!x.mid.isEmpty || decide (16 ≤ x.head.length)) && decide (x.mid.length < h.qLines q) &&
      !h.recovering 1 q && !h.stHoldsQueues then
    let slot := x.wr.toNat
    let h1 := h.storeLine (h.qBase q + 5 * slot) (x.tail.take 8)
    let x0 : Queue := { x with tail := x.tail.drop 8, mid := x.mid ++ [{ slot := slot, n := 8 }] }
    let x1 := x0.movePtr (h.nextSlot q slot) x.rd ptr
    let h2 := { h1 with q := NMap.set h1.q q x1 }
    if x1.ptrOk then h2 else h2.ptrFault fx q
  else h

/-- QUEUE_SPILL. -/
def execQueueSpill (q : Fin 64) (ptr : BitVec 38) (s : State) : Out := liftHub s (fun fx h => h.spill fx q ptr)

/-- Count a corrected or uncorrectable stockpot word of a queue; an uncorrectable one resets it, or escalates the recovery it
strikes (R291, R446). -/
def Hub.stockEvent (fx : Fixed) (h : Hub) (q a : Nat) (r : StockRead) : Hub :=
  match r with
  | .good => h
  | .corrected => (h.on (fQQStatusCorr q)).countSat (fQQCountCorr q) 1
  | .uncorrectable =>
    let h1 := (h.on (fQQStatusUncorr q)).countSat (fQQCountUncorr q) 1
    if h1.flt.recs.any (fun x => x.scope == 7) then (h1.reportFault 0x30 1 q 0xC6 (w32 a) 0#32).escalateOf fx 7 0
    else if h1.flt.recs.any (fun x => x.scope == 1 && x.unit == q) then
      (h1.reportFault 0x30 1 q 0xC6 (w32 a) 0#32).escalateOf fx 1 q
    else h1.faultRec fx 0x30 1 q 0xC6 (w32 a) 0#32

/-- Take the outcomes of a line's reads in order, up to the first word that is uncorrectable. -/
def Hub.stockEvents (fx : Fixed) (q : Nat) : List (StockRead × BitVec 64) → Hub → Nat → Hub
  | [], h, _ => h
  | r :: rs, h, a =>
    if r.1 = .uncorrectable then h.stockEvent fx q a r.1 else Hub.stockEvents fx q rs (h.stockEvent fx q a r.1) (a + 1)

/-- The test pattern a recovery writes to line 0 of a queue's middle (R443); the spec leaves its words open, so they are free values. -/
def Hub.writePattern (h : Hub) (q : Nat) : Hub :=
  let r := (List.range 8).foldl (fun (a : List QWord × Hub) _ => let f := a.2.takeFree; (a.1 ++ [BitVec.ofNat 40 f.1], f.2)) ([], h)
  r.2.storeLine (h.qBase q) r.1

/-- A QUEUE or FABRIC recovery runs over queue `q`, which has a middle: it tests the middle's line 0 (R443). -/
def Hub.testsLine (h : Hub) (q : Nat) : Bool :=
  h.qEnabled q && decide (0 < h.qLines q) && h.flt.recs.any (fun r => (r.scope == 1 && r.unit == q) || r.scope == 7)

/-- The oldest middle line goes to the head; a recovery writes a test pattern to line 0 and reads it back instead (R443). `us` are the
upsets of the line's five words. -/
def Hub.refill (fx : Fixed) (h : Hub) (q : Nat) (ptr : BitVec 38) (us : List Upset) : Hub :=
  let x := NMap.get h.q q
  if h.testsLine q then
    let r := (h.writePattern q).readWords (h.qBase q) 5 us
    Hub.stockEvents fx q r.1 r.2 (h.qBase q)
  else if h.recovering 1 q || h.stHoldsQueues then h
  else match x.mid with
    | [] => h
    | m :: rest =>
      if x.head.length ≤ 8 then
        let a := h.qBase q + 5 * m.slot
        let r := h.readWords a 5 us
        let x0 : Queue := { x with mid := rest, head := x.head ++ unpackLine (r.1.map Prod.snd) m.n }
        let x1 := x0.movePtr x.wr (h.nextSlot q m.slot) ptr
        let h1 := Hub.stockEvents fx q r.1 r.2 a
        if r.1.any (fun w => w.1 == .uncorrectable) then h1
        else
          let h2 := { h1 with q := NMap.set h1.q q x1.bypass }
          if x1.ptrOk then h2 else h2.ptrFault fx q
      else h

/-! ### QUEUE_WINDOW_READ (R283, R285, R286) -/

/-- The register word of a queue word's end, kind and aux (R302). -/
def winInfo (w : QWord) : Word := w32 (w.toNat / 2 ^ 32)

/-- The hub fetches ahead of a consumer: an empty head takes the oldest middle line before the next word is read (R285). -/
def Hub.fetchAhead (fx : Fixed) (h : Hub) (q : Nat) : Hub :=
  if (NMap.get h.q q).head.isEmpty && !h.recovering 1 q then h.refill fx q 0#38 [] else h

/-- A read of a queue's window: information without, payload with removal. The word read is given. A CASCADE queue answers idle on every
read (R286). -/
def Hub.windowRead (fx : Fixed) (h0 : Hub) (q : Nat) (payload : Bool) : Word × Hub :=
  let idle := if payload then 0#32 else winInfo idleWord
  if h0.qEnabled q && h0.cf 9 q 0 1 1 == 1 then (idle, h0.on (fQQStatusNotHost q))
  else
  let h := h0.fetchAhead fx q
  if !h.qEnabled q || h.recovering 1 q || h.stHoldsQueues then (idle, h.refusedBy heldQueue)
  else if payload then
    match h.qPop q with
    | some (w, h1) => (qPayload w, h1)
    | none => (idle, h)
  else
    match (NMap.get h.q q).head with
    | w :: _ => (winInfo w, h)
    | [] => (idle, h)

/-! ### QUEUE_FLUSH (R287) -/

/-- Words kept by a flush: the item its consumer has begun, up to its end word. -/
def keptWords (begun : Bool) (ws : List QWord) : Nat :=
  if begun then
    match ws.findIdx? qEnd with
    | some k => k + 1
    | none => ws.length
  else 0

/-- Keep the first `k` words of the middle lines. -/
def keepMid (k : Nat) : List MidLine → List MidLine
  | [] => []
  | m :: t => if k = 0 then [] else if k < m.n then [{ m with n := k }] else m :: keepMid (k - m.n) t

/-- A flush removes every complete item but one the consumer has begun, and truncates an item in progress. The write pointer goes behind
the last line kept; pointers whose copies then differ make it a QUEUE reset alone (R289). -/
def Hub.flush (fx : Fixed) (h : Hub) (q : Nat) (ptr : BitVec 38) : Hub :=
  let x := NMap.get h.q q
  let ws := h.qWords q
  let k := keptWords x.begun ws
  let whole := x.begun && (ws.take k).any qEnd
  let trunc := x.holder.isSome && !x.discard && (!x.begun || whole)
  let midN := (x.mid.map (fun m => m.n)).sum
  let mid := keepMid (k - x.head.length) x.mid
  let x0 := { x with
    head := x.head.take k, mid := mid, tail := x.tail.take (k - x.head.length - midN)
    pkts := b2n whole, discard := x.discard || trunc, inItem := if trunc then 0 else x.inItem }
  let x1 := x0.movePtr (match mid.getLast? with | some m => h.nextSlot q m.slot | none => x.rd) x.rd ptr
  if !x1.ptrOk then h.ptrFault fx q
  else
  let h1 := { h with q := NMap.set h.q q x1.bypass }
  let h2 := ((h1.on (fQQStatusFlushed q)).countSat (fQQCountFlush q) 1).stopDigests q
  let h3 := if trunc then ((h2.on (fQQStatusTrunc q)).countSat (fQQCountTrunc q) 1).present (0x6200 + q) else h2
  h3.rearmThr q

end Sys2Proof.Machine
end

