-- ==== Sys2Proof/Machine/Time.lean ====
section
/-! DEFINITION. The passing of time, slews, TRG pulses and TACH inputs (spec/12 R307 to R312, R316 to R318). A command that
names a moment of the hub's own time brings the hub to that moment. -/

namespace Sys2Proof.Machine
open Sys2Proof

/-! ### The passing of TCLK cycles -/

/-- A timebase's value after `n` ticks and the slew ticks then left (R307, R311), in units of 2^-48 ns. -/
def tbAfter (val slewTicks incr : Nat) (adj : Int) (n : Nat) : Nat :=
  ((((val : Int) + ((incr : Int) * n + adj * (min n slewTicks : Nat)) * 65536)) % (tbWrap : Int)).toNat

/-- `n` ticks pass on one timebase: 0 to 15 local, 16 tb_net, 17 the follower of tb_met. -/
def Hub.tickTb (h : Hub) (k n : Nat) : Hub :=
  if k = 17 then (if h.metFollows then { h with tbMet := tbAfter h.tbMet 0 (h.tbIncr 17) 0 n } else h)
  else
    let adj := signedOf (h.rd (fTmTbSlewAdjSlewAdj k)) 32
    let incr := h.tbIncr k
    { h with tb := NMap.modify h.tb k (fun x => { x with
        val := tbAfter x.val x.slewTicks incr adj n, slewTicks := x.slewTicks - n }) }

/-- `n` TCLK cycles pass, once the clock gates are open. -/
def Hub.tickN (h : Hub) (n : Nat) : Hub :=
  if n = 0 || !h.clk.gates then h
  else (List.range 18).foldl (fun a k => a.tickTb k n) { h with cyc := h.cyc + n }

/-- Time reaches a TCLK cycle. -/
def Hub.reach (h : Hub) (c : Nat) : Hub := h.tickN (c - h.cyc)

/-- Ticks until a timebase covers `d` more units of 2^-48 ns: at the slewed rate while the slew runs, then at its own. -/
def ticksFor (d slewTicks incr : Nat) (adj : Int) : Nat :=
  let a1 := (((incr : Int) + adj) * 65536).toNat
  let a2 := incr * 65536
  let n1 := if a1 = 0 then 0 else (d + a1 - 1) / a1
  if a1 ≠ 0 ∧ n1 ≤ slewTicks then n1
  else if a2 = 0 then 0
  else slewTicks + (d - slewTicks * a1 + a2 - 1) / a2

/-- Time reaches a due time (units of 2^-16 ns) on a timebase. -/
def Hub.reachDue (h : Hub) (k due : Nat) : Hub :=
  let v := h.tbVal k
  let d := due * 2 ^ 32
  if d ≤ v then h
  else if k = 17 then h.tickN (ticksFor (d - v) 0 (h.tbIncr 17) 0)
  else h.tickN (ticksFor (d - v) (NMap.get h.tb k).slewTicks (h.tbIncr k) (signedOf (h.rd (fTmTbSlewAdjSlewAdj k)) 32))

/-- Blocks of a slew that remain (R311). -/
def Hub.slewLeft (h : Hub) (k : Nat) : Nat := ((NMap.get h.tb k).slewTicks + 1023) / 1024

/-! ### TM_NOW_READ (R312) and SLEW_END (R311) -/

/-- tb_met is absent in the DX-192U; every other timebase is present. -/
def tbPresent (v : Variant) (n : Nat) : Bool := n < 17 || (n == 17 && v.hasMet)

/-- The word `k` of a latched reported time. -/
def latchedWord (t k : Nat) : Word := (timeWords t).getD k 0#32

/-- Reading `now0` latches the four words. -/
def Hub.nowRead (h : Hub) (n : Nat) : Word × Hub :=
  let t := report (h.tbVal n)
  (latchedWord t 0, { h with tb := NMap.modify h.tb n (fun x => { x with latch := t }) })

/-- TM_NOW_READ. -/
def execTmNowRead (n : Fin 18) (s : State) : Out :=
  liftHub s (fun fx h => h.readOf fx s.met .tm (0x1C0000 + 0x40 * n) (fun h => h.nowRead n))

/-- SLEW_END: the ticks of the slew have passed. -/
def execSlewEnd (n : Fin 18) (s : State) : Out :=
  liftHub s (fun _ h => h.tickN (if n.val = 17 then 0 else (NMap.get h.tb n).slewTicks))

/-! ### TRG outputs (R316) -/

/-- A pulse on TRGk: a new one is presented, one still asserted is extended. -/
def Hub.trgPulse (h : Hub) (k : Nat) : Hub :=
  if h.cf 10 16 (0x010 + k) 17 1 = 1 then
    let stop := h.cyc + h.cf 10 16 (0x010 + k) 0 16
    let on := decide (h.cyc < NMap.get h.trg k)
    let h1 := { h with trg := NMap.set h.trg k stop }
    if on then h1.on fTmStatusTrgExt else h1.present (0x5100 + k)
  else h

/-- TRG_PULSE_END: the width count expires. -/
def Hub.trgEnd (h : Hub) (k : Nat) : Hub :=
  let e := NMap.get h.trg k
  if e = 0 then h else let h1 := h.reach e; { h1 with trg := NMap.set h1.trg k 0 }

/-- TRG_PULSE_END. -/
def execTrgPulseEnd (k : Fin 16) (s : State) : Out := liftHub s (fun _ h => h.trgEnd k)

/-! ### TACH inputs (R317, R318, R327) -/

/-- An edge on TACHt: ignored against its polarity, rejected inside the hold-off, else stamped on every timebase, counted, presented two
cycles on (R256) and given to the ORDER stages. The TDC names the edge of the present cycle: its error is taken as 0 (DESIGN CHOICE, log
entry 39). -/
def Hub.tachEdge (h : Hub) (t : Nat) (rising : Bool) : Hub :=
  let pol := h.cf 10 16 (2 * t) 0 2
  if !(pol == 3 || (pol == 1 && rising) || (pol == 2 && !rising)) then h
  else
    let x := NMap.get h.tach t
    let gap := h.cyc - x.lastCyc
    if x.any && decide (gap < 16 * h.cf 10 16 (2 * t) 2 16) then h.countSat (fTmTachCountRej t) 1
    else
      let stamps := (List.range 18).foldl (fun m k => NMap.set m k (report (h.tbVal k))) []
      let h1 := { h with tach := NMap.set h.tach t { x with any := true, lastCyc := h.cyc, stamps := stamps } }
      let h2 := h1.count (fTmTachCountQual t) 1
      let h3 := if x.any then h2.wr (fTmTachPeriodPeriod t) (satTo 32 gap) else h2
      (h3.tachToStages t (fun k => report (h.tbVal k))).presentCode (0x5000 + t) (h.cyc + 2)

/-- TACH_EDGE. -/
def execTachEdge (t : Fin 8) (rising : Bool) (s : State) : Out :=
  liftHub s (fun _ h => if h.is fLdrStatusConfigured then h.tachEdge t rising else h)

/-- The last stamp on the timebase of the input's cell. -/
def Hub.tachStamp (h : Hub) (t : Nat) : Nat := NMap.get (NMap.get h.tach t).stamps (h.cf 10 16 (2 * t + 1) 0 5)

/-- Reading `stamp0` latches the four stamp words. -/
def Hub.tachRead (h : Hub) (t : Nat) : Word × Hub :=
  let v := h.tachStamp t
  (latchedWord v 0, { h with tach := NMap.modify h.tach t (fun x => { x with latch := v }) })

/-- TACH_STAMP_READ. -/
def execTachStampRead (t : Fin 8) (s : State) : Out :=
  liftHub s (fun fx h => h.readOf fx s.met .tm (0x1C0A00 + 0x20 * t) (fun h => h.tachRead t))

end Sys2Proof.Machine
end

