-- ==== Sys2Proof/Machine/Links.lean ====
section
/-! DEFINITION. Autia links: states, frame checks, credits, retransmission, transmission, and the landing of queues on the
master (spec/13 R331 to R346, R350 to R353, R356, R357). -/

namespace Sys2Proof.Machine
open Sys2Proof

/-! ### Shared operations -/
def Hub.lk (h : Hub) (p : Nat) : Link := NMap.get h.link p
def Hub.modCas (h : Hub) (f : Cas → Cas) : Hub := { h with cas := f h.cas }

/-- The port exists and its link is enabled: by its cell once a structure is in force, before that always (R31, R332, R359); a VDDL
below its reset level holds every port in LINK reset (R494). -/
def Hub.linkOn (fx : Fixed) (h : Hub) (p : Nat) : Bool :=
  decide (p < fx.variant.linkCount) && !h.railHeld 7 && (!h.is fLdrStatusConfigured || h.cf 11 p 0 0 1 == 1)

/-- Change a port's state, with its STATE trace (R442). -/
def Hub.setLinkState (h : Hub) (p st : Nat) : Hub := (h.wr (fCasPStatusState p) st).traceState 2 0xC8 p st

/-- Put a frame on a port's transmit queue. -/
def Hub.queueTx (h : Hub) (p : Nat) (t : TxItem) : Hub := h.modLk p (fun x => { x with txq := x.txq ++ [t] })

/-- A CTRL frame of this hub's own. -/
def Hub.ctrlFrame (h : Hub) (sub dst : Nat) (bcast : Bool) (ws : List Word) : TxItem :=
  { src := 3, cls := 1, bridge := false
    f := { bcast := bcast, dst := BitVec.ofNat 9 dst, src := BitVec.ofNat 9 h.devnum, sub := BitVec.ofNat 6 sub, seq := 0#12
           cont := false, words := recordWords 7 ws, crcOk := true } }

/-- Send a CTRL frame on one port. -/
def Hub.sendCtrl (h : Hub) (p sub dst : Nat) (ws : List Word) : Hub := h.queueTx p (h.ctrlFrame sub dst false ws)

/-- Broadcast a CTRL frame to every UP partner below. -/
def Hub.bcastCtrl (h : Hub) (sub : Nat) (ws : List Word) : Hub :=
  [1, 2].foldl (fun a p => if a.linkUp p then a.queueTx p (a.ctrlFrame sub 0 true ws) else a) h

/-- Payload words of a frame. -/
def framePay (f : CasFrame) : List Word := f.words.map qPayload

/-! ### Routing (R345) -/

/-- Where a frame for device `d` goes: port 0 to 2, or 3 for this hub; `none` when the master finds it outside its ranges. -/
def Hub.route (fx : Fixed) (h : Hub) (d : Nat) : Option Nat :=
  let n := h.devnum
  let dn := h.rd fCasRangeDn
  if d = n then some 3
  else if n < d ∧ d ≤ n + dn then some 1
  else if n + dn < d ∧ d ≤ n + dn + h.rd fCasRangeBr then some 2
  else if h.isMaster fx then none else some 0

/-- Forward a frame received on port `p`: to its route's port, or discarded as unroutable. ALARM frames always wait. -/
def Hub.forward (fx : Fixed) (h : Hub) (p : Nat) (t : TxItem) : Hub :=
  match h.route fx t.f.dst.toNat with
  | some q =>
    if q < 3 ∧ (h.linkUp q ∨ t.cls = 2) then h.queueTx q { t with src := p }
    else (h.unroutable p).release p t.cls t.f.words.length
  | none => (h.unroutable p).release p t.cls t.f.words.length

/-! ### Enumeration failure (R344) -/

/-- Enumeration fails with a code; the code goes up, or from the master or a root without one down. -/
def Hub.enumFail (h : Hub) (code dev : Nat) (up : Bool) : Hub :=
  let h1 := (((h.wr fCasEnumState 3).wr fCasEnumCode code).off fGlbStatusEnumOk).wr fGlbStatusDevnum 0
  let h2 := ((h1.on fCasStatusEnumFail).modCas (fun c => { c with phase := 0, renumPort := 0 })).present 0x8200
  let h3 := h2.fault 0x52 code 0xC8 (w32 dev) 0#32
  let w := w32 (code * 2 ^ 28 + dev * 2 ^ 19)
  if up && h3.linkUp 0 then h3.sendCtrl 0 0x04 0 [w] else h3.bcastCtrl 0x04 [w]

/-- An enumeration runs. -/
def Hub.enumRuns (h : Hub) : Bool := h.rd fCasEnumState == 1

/-! ### Leaving UP (R356) and remote access results (R355) -/

/-- A remote request ends with a result. -/
def Hub.rqEnd (h : Hub) (res : Nat) : Hub :=
  (((h.wr fCasRqCtlResult res).off fCasRqCtlBusy).on fCasStatusRqDone).modCas (fun c => { c with rqDev := none })

/-- What ends when port `p` leaves UP: a remote request whose path it is, an enumeration. -/
def Hub.leavesUp (fx : Fixed) (h : Hub) (p : Nat) : Hub :=
  if h.linkUp p then
    let h1 := match h.cas.rqDev with
      | some d => if h.route fx d = some p then h.rqEnd 4 else h
      | none => h
    if h1.enumRuns then h1.enumFail 5 h1.devnum (p != 0) else h1
  else h

/-- A port leaves UP for HOLD. -/
def Hub.linkLost (fx : Fixed) (h : Hub) (p : Nat) : Hub :=
  if h.linkUp p then
    let h1 := (((h.leavesUp fx p).setLinkState p 3).on (fCasPStatusLost p)).present (0x8100 + p)
    if p = 0 then
      let a := if h1.is fCasStatusLock then (h1.off fCasStatusLock).on fCasStatusLockLost else h1
      (a.modCas (fun c => { c with good := 0 })).endNetSlew
    else h1
  else h

/-- LINK_LOSS: LOS, code violations or silence. -/
def execLinkLoss (p : Fin 3) (s : State) : Out := liftHub s (fun fx h => h.linkLost fx p)

/-! ### Receiving (R336, R338, R340) -/

/-- Most words a frame of a class carries. -/
def classMax (cls : Nat) : Nat := if cls = 0 then 8 else if cls = 3 then 512 else 72

/-- A NAK naming the sequence expected, once. -/
def Hub.sendNak (h : Hub) (p cls : Nat) : Hub := h.modLk p (fun x => { x with nak := NMap.set x.nak cls true })

/-- Check a received frame: CRC and count, then sequence. Answers whether it is accepted; a discarded one frees its credits. -/
def Hub.rxCheck (h : Hub) (p cls : Nat) (f : CasFrame) : Bool × Hub :=
  if !h.linkUp p then (false, h)
  else if !f.crcOk || decide (classMax cls < f.words.length) || f.words.isEmpty then
    let h1 := ((h.on (fCasPStatusCrc p)).countSat (fCasPCountCrc p) 1).release p cls f.words.length
    (false, if cls = 0 then h1.countSat (fCasPCount2TimeBad p) 1 else h1.sendNak p cls)
  else if cls = 0 then (true, h.release p 0 f.words.length)
  else if f.seq.toNat = NMap.get (h.lk p).seqRx cls then
    (true, h.modLk p (fun x => { x with
      seqRx := NMap.set x.seqRx cls ((f.seq.toNat + 1) % 4096), acked := NMap.set x.acked cls (f.seq.toNat + 1)
      nak := NMap.set x.nak cls false }))
  else (false, (h.release p cls f.words.length).sendNak p cls)

/-- Take a CTRL frame for this hub or on its way: `act` is its effect here; a broadcast acts here and goes on below. -/
def Hub.takeCtrl (fx : Fixed) (h : Hub) (p sub : Nat) (f : CasFrame) (act : Hub → Hub) : Hub :=
  let r := h.rxCheck p 1 f
  if !r.1 then r.2
  else
    let g := { f with sub := BitVec.ofNat 6 sub }
    let t : TxItem := { src := p, cls := 1, bridge := false, f := g }
    if f.bcast then
      let h1 := act (r.2.release p 1 f.words.length)
      [1, 2].foldl (fun a q => if q ≠ p ∧ a.linkUp q then a.queueTx q { t with src := 3 } else a) h1
    else if r.2.route fx f.dst.toNat = some 3 then act (r.2.release p 1 f.words.length)
    else r.2.forward fx p t

/-! ### Landing (R350) -/

/-- The landing entry a stream matches, lowest first: destination queue and `origin`. -/
def Hub.landMatch (h : Hub) (dev q : Nat) : Option (Nat × Bool) :=
  ((List.range 64).find? (fun i => h.cf 11 3 (0x100 + i) 0 1 == 1 && decide (h.cf 11 3 (0x100 + i) 1 9 ≤ dev) &&
    decide (dev ≤ h.cf 11 3 (0x100 + i) 10 9) && h.cf 11 3 (0x100 + i) 19 6 == q)).map
    (fun i => (h.cf 11 3 (0x100 + i) 25 6, h.cf 11 3 (0x100 + i) 31 1 == 1))

/-- The ORIGIN record. -/
def originWords (h : Hub) (dev q : Nat) : List Word :=
  recHeader 0x03 0xC8 6 :: timeWords h.netNow ++ [w32 (dev * 2 ^ 23 + q * 2 ^ 17)]

/-- Words of a stream land one after another: an item that matches no entry is discarded, others go to their queue. -/
def Hub.landWords (i dev q : Nat) (h : Hub) : List QWord → Hub
  | [] => h
  | w :: t =>
    let cur := NMap.get h.cas.land i
    let put (a : Hub) (d : Nat) : Hub :=
      (a.pushOut (prodLand d) d [w]).modCas (fun c => { c with
        land := NMap.set c.land i { busy := !qEnd w, dest := d + 1 }
        hold := NMap.set c.hold d (if qEnd w then 0 else i + 1) })
    if cur.busy then
      if cur.dest = 0 then
        Hub.landWords i dev q (h.modCas (fun c => { c with land := NMap.set c.land i { busy := !qEnd w, dest := 0 } })) t
      else Hub.landWords i dev q (put h (cur.dest - 1)) t
    else match h.landMatch dev q with
      | none =>
        let h1 := (h.on fCasStatusLandingMiss).log 0x22 0xC8 0x92 0 dev (w32 dev) (w32 q)
        Hub.landWords i dev q (h1.modCas (fun c => { c with land := NMap.set c.land i { busy := !qEnd w, dest := 0 } })) t
      | some (d, origin) =>
        let id := dev * 64 + q + 1
        let h1 := if origin && NMap.get h.cas.last d != id then
            h.pushOut (prodLand d) d (recordWords 7 (originWords h dev q)) else h
        Hub.landWords i dev q (put (h1.modCas (fun c => { c with last := NMap.set c.last d id })) d) t

/-- The landing path takes a stream's words now: its destination's producer is idle and holds no other stream's item. -/
def Hub.canLand (h : Hub) (i dev q : Nat) : Bool :=
  let cur := NMap.get h.cas.land i
  let d? := if cur.busy then (if cur.dest = 0 then none else some (cur.dest - 1)) else (h.landMatch dev q).map Prod.fst
  match d? with
  | none => true
  | some d => (NMap.get h.outbox (prodLand d)).isEmpty && (NMap.get h.cas.hold d == 0 || NMap.get h.cas.hold d == i + 1)

/-- Frames for this hub waiting in a port's receive buffer land in order. -/
def Hub.landRx (p : Nat) : Nat → Hub → Hub
  | 0, h => h
  | n + 1, h =>
    match (h.lk p).rx.find? (fun t => t.cls == 3) with
    | none => h
    | some t =>
      if h.canLand p t.f.src.toNat t.f.sub.toNat then
        let h1 := (h.landWords p t.f.src.toNat t.f.sub.toNat t.f.words).release p 3 t.f.words.length
        Hub.landRx p n (h1.modLk p (fun x => { x with rx := x.rx.erase t }))
      else h

/-- The consumer of a queue is CASCADE. -/
def Hub.qCascade (h : Hub) (q : Nat) : Bool := h.qEnabled q && !h.recovering 1 q && !h.stHoldsQueues && h.cf 9 q 0 1 1 == 1

/-- On the master, a CASCADE queue's words land as from device 0. -/
def Hub.landLocal (q : Nat) : Nat → Hub → Hub
  | 0, h => h
  | n + 1, h =>
    if h.canLand (8 + q) 0 q then
      match h.qPop q with
      | some (w, h1) => Hub.landLocal q n (h1.landWords (8 + q) 0 q [w])
      | none => h
    else h

/-! ### Alarms on the master (R451) -/

/-- The key of an alarm record from another hub. -/
def alarmKey (ws : List Word) : Nat := 8192 * (fieldOf (recWord ws 5) 23 9 + 1) + fieldOf (recWord ws 5) 10 13

/-- The landing store takes an alarm whose key it holds, or while a key is free. -/
def Hub.storeTakes (h : Hub) (ws : List Word) : Bool :=
  let l := NMap.get h.flt.pend 0
  l.any (fun s => s.key == alarmKey ws) || decide ((l.filter (fun s => decide (8192 ≤ s.key))).length < 1024)

/-- ALARM frames waiting in a port's receive buffer enter the store while it takes them, and then free their credits. -/
def Hub.alarmRx (p : Nat) : Nat → Hub → Hub
  | 0, h => h
  | n + 1, h =>
    match (h.lk p).rx.find? (fun t => t.cls == 2) with
    | none => h
    | some t =>
      if h.storeTakes (framePay t.f) then
        let h1 := (h.alarmTo 0 { key := alarmKey (framePay t.f), words := (framePay t.f) }).release p 2 t.f.words.length
        Hub.alarmRx p n (h1.modLk p (fun x => { x with rx := x.rx.erase t }))
      else h

/-- What moves on when a queue, a bucket or a link gains room: pending alarms and logs, waiting alarms, landing streams. -/
def Hub.settle (fx : Fixed) (h : Hub) : Hub :=
  let h1 := h.drainPaths
  let h2 := [0, 1, 2].foldl (fun a p => if (a.lk p).rx.isEmpty then a else
    let b := Hub.alarmRx p (a.lk p).rx.length a
    Hub.landRx p (b.lk p).rx.length b) h1
  if h2.isMaster fx then
    ((h2.usedUnits 9).filter h2.qCascade).foldl (fun a q => Hub.landLocal q 16 a) h2
  else h2

/-! ### Bridges (R352, R353) -/

/-- Samples of a sending bridge's next frame, once it can be closed: n_f samples, or fewer before one that carries GAP. -/
def Hub.bgRun (h : Hub) (b : Nat) : Option (List Samp) :=
  match (h.bg b).fifo with
  | [] => none
  | x :: t =>
    let nf := h.bgCell b 1 0 8
    let run := x :: t.takeWhile (fun y => !y.has tGap)
    if nf ≤ run.length then some (run.take nf) else if run.length < t.length + 1 then some run else none

/-- The MARK record of a bridge frame's first or last sample, whose output count is `n`. -/
def Hub.bgMark (h : Hub) (b : Nat) (x : Samp) (n : Nat) : List QWord :=
  recordWords 7 (markWords h (h.bgCell b 0 2 8) x false false n)

/-- A closed bridge frame of samples with their output counts. -/
def Hub.bgFrame (h : Hub) (b : Nat) (xs : List Samp) (ns : List Nat) : TxItem :=
  { src := 128 + b, cls := 3, bridge := true
    f := { bcast := false, dst := BitVec.ofNat 9 (h.bgCell b 0 14 9), src := BitVec.ofNat 9 h.devnum
           sub := BitVec.ofNat 6 (h.bgCell b 0 23 5), seq := 0#12, cont := false, crcOk := true
           words := h.bgMark b (xs.headD default) (ns.headD 0) ++ xs.map (fun x => qword false 1 0 (sampWord x)) ++
             h.bgMark b (xs.getLastD default) (ns.getLastD 0) } }

/-- The time a MARK record's words spell, in units of 2^-16 ns. -/
def markTime (ws : List Word) : Nat :=
  ofTimeWords (recWord ws 1).toNat (recWord ws 2).toNat (recWord ws 3).toNat (fieldOf (recWord ws 4) 16 16)

/-- T_k rounded to 2^-16 ns. -/
def interpTime (t0 t1 k n : Nat) : Nat :=
  if n ≤ 1 then t0
  else (((t0 : Int) * (2 * (n - 1) : Nat) + 2 * (k : Int) * ((t1 : Int) - t0) + ((n - 1 : Nat) : Int)) / (2 * (n - 1) : Nat)).toNat

/-- Release the oldest sample of a receiving bridge to its context. -/
def Hub.bgRelease (h : Hub) (b : Nat) : Hub :=
  let y := h.bg b
  match y.fifo with
  | [] => h
  | x :: t =>
    let h1 := h.setBg b { y with fifo := t, due := y.due.drop 1 }
    let h2 := if x.has tGap then h1.on fCasStatusBrGap else h1
    ((h2.usedUnits 5).filter (fun u => decide (32 ≤ u) && h2.cf 5 u 0 1 3 == 5 && h2.cf 5 u 1 0 8 == b)).foldl
      (fun a u => a.ctxIngress 6 (u - 32) x) h2

/-- A sample arrives at a receiving bridge: LATE when its release time has passed, which is one tb_net had reached before the present
cycle, and released at once when none waits before it. -/
def Hub.bgArrive (h : Hub) (b : Nat) (x : Samp) : Hub :=
  let due := x.time + h.bgCell b 2 0 32 * 65536
  if (due : Int) * 2 ^ 32 ≤ h.tbVal 16 - h.tbAdd 16 * 65536 then
    let free := (h.bg b).fifo.isEmpty
    let h1 := ((h.on fCasStatusBrLate).countSat (fCasBgErrLate b) 1).bgPush b (x.add tLate) due
    if free then h1.bgRelease b else h1
  else h.bgPush b x due

/-- Bridge `b` is valid and receives. -/
def Hub.bgTakes (h : Hub) (b : Nat) : Bool := h.is fLdrStatusConfigured && h.bgCell b 0 0 1 == 1 && h.bgCell b 0 1 1 == 1

/-- A bridge frame from device `src`: its samples get their interpolated times and enter the buffer. -/
def Hub.bgReceive (h : Hub) (b src : Nat) (ws : List Word) : Hub :=
  let n := ws.length - 14
  let t0 := markTime (ws.take 7)
  let t1 := markTime (ws.drop (7 + n))
  let h1 := h.count (fCasBgFramesFrames b) 1
  if h1.bgTakes b then
    (((ws.drop 7).take n).zipIdx).foldl (fun a p =>
      a.bgArrive b { val := p.1.extractLsb' 0 24, tag := p.1.extractLsb' 24 8, time := interpTime t0 t1 p.2 n })
      (h1.setBg b { h1.bg b with src := src + 1 })
  else h1

/-- Receiving bridges whose samples came over port `p`: the first sample to arrive afterwards carries GAP (R357). -/
def Hub.bgAwait (fx : Fixed) (h : Hub) (p : Nat) : Hub :=
  ((List.range 32).filter (fun b => h.bgTakes b && (h.bg b).src != 0 && h.route fx ((h.bg b).src - 1) == some p)).foldl
    (fun a b => a.setBg b { a.bg b with gap := true }) h

/-- BRIDGE_SAMPLE_RELEASE: tb_net reaches the oldest sample's release time. -/
def execBridgeSampleRelease (b : Fin 32) (s : State) : Out :=
  liftHub s (fun _ h =>
    let y := h.bg b.val
    match y.due with
    | d :: _ => if h.bgCell b.val 0 1 1 = 1 then (h.reachDue 16 d).bgRelease b else h
    | [] => h)

/-- BRIDGE_FRAME_RECEIVE. -/
def execBridgeFrameReceive (p : Fin 3) (f : CasFrame) (s : State) : Out :=
  liftHub s (fun fx h =>
    let r := h.rxCheck p 3 f
    if !r.1 then r.2
    else if r.2.route fx f.dst.toNat = some 3 then (r.2.release p 3 f.words.length).bgReceive f.sub.toNat f.src.toNat (framePay f)
    else r.2.forward fx p { src := p, cls := 3, bridge := true, f := f })

/-! ### DATA and ALARM frames (R345, R350, R351) -/

/-- DATA_FRAME_RECEIVE. -/
def execDataFrameReceive (p : Fin 3) (f : CasFrame) (s : State) : Out :=
  liftHub s (fun fx h =>
    let r := h.rxCheck p 3 f
    let t : TxItem := { src := p, cls := 3, bridge := false, f := f }
    if !r.1 then r.2
    else if r.2.route fx f.dst.toNat = some 3 then (r.2.modLk p (fun x => { x with rx := x.rx ++ [t] })).settle fx
    else r.2.forward fx p t)

/-- ALARM_FRAME_RECEIVE. -/
def execAlarmFrameReceive (p : Fin 3) (f : CasFrame) (s : State) : Out :=
  liftHub s (fun fx h =>
    let r := h.rxCheck p 2 f
    let t : TxItem := { src := p, cls := 2, bridge := false, f := f }
    if !r.1 then r.2
    else if r.2.isMaster fx then (r.2.modLk p (fun x => { x with rx := x.rx ++ [t] })).settle fx
    else r.2.forward fx p t)

/-! ### CREDIT, ACK, NAK and timeouts (R338, R340) -/

/-- CREDIT: cumulative credits released by the partner. -/
def execCredit (p : Fin 3) (cls : Fin 4) (n : BitVec 14) (s : State) : Out :=
  liftHub s (fun fx h =>
    if h.linkUp p then (h.modLk p (fun x => { x with got := NMap.set x.got cls.val n.toNat })).settle fx else h)

/-- Frames of a retry store up to and including the one with a sequence are acknowledged; how many. -/
def ackCount (l : List TxItem) (seq : Nat) : Nat :=
  match l.findIdx? (fun t => t.f.seq.toNat == seq) with
  | some k => k + 1
  | none => 0

/-- Drop `k` acknowledged frames. -/
def Hub.ackDrop (h : Hub) (p cls k : Nat) : Hub :=
  h.modLk p (fun x =>
    let l := (NMap.get x.retry cls).drop k
    { x with
      retry := NMap.set x.retry cls l, again := NMap.set x.again cls (min (NMap.get x.again cls) l.length)
      resent := if k = 0 then x.resent else NMap.set x.resent cls 0 })

/-- ACK: frames up to the named one leave the retry store. -/
def execAck (p : Fin 3) (cls : Fin 4) (seq : BitVec 12) (s : State) : Out :=
  liftHub s (fun _ h =>
    if h.linkUp p then h.ackDrop p cls (ackCount (NMap.get (h.lk p).retry cls.val) seq.toNat) else h)

/-- Resend every frame of a class's retry store; at the eighth time for its oldest the link leaves UP (LINK_RETRY). -/
def Hub.resendAll (fx : Fixed) (h : Hub) (p cls : Nat) : Hub :=
  let l := NMap.get (h.lk p).retry cls
  if l.isEmpty then h
  else
    let n := NMap.get (h.lk p).resent cls + 1
    let h1 := h.modLk p (fun x => { x with again := NMap.set x.again cls l.length, resent := NMap.set x.resent cls n })
    if n < 8 then h1 else ((h1.on (fCasPStatusRetryLim p)).fault 0x50 p 0xC8 (w32 cls) 0#32).linkLost fx p

/-- NAK: frames before the named one are acknowledged, the named one and those after it are sent again. -/
def execNak (p : Fin 3) (cls : Fin 4) (seq : BitVec 12) (s : State) : Out :=
  liftHub s (fun fx h =>
    if h.linkUp p then
      let l := NMap.get (h.lk p).retry cls.val
      let k := match l.findIdx? (fun t => t.f.seq == seq) with
        | some k => k
        | none => if NMap.get (h.lk p).seqTx cls.val = seq.toNat then l.length else 0
      ((h.countSat (fCasPCountNak p) 1).ackDrop p cls k).resendAll fx p cls
    else h)

/-- RETRANSMIT_TIMEOUT. -/
def execRetransmitTimeout (p : Fin 3) (cls : Fin 4) (s : State) : Out :=
  liftHub s (fun fx h =>
    if h.linkUp p && !(NMap.get (h.lk p).retry cls.val).isEmpty then
      (h.countSat (fCasPCountTimeout p) 1).resendAll fx p cls
    else h)

/-! ### FRAME_TRANSMIT and DATA_FRAME_IDLE_CLOSE (R341, R350, R354) -/

/-- A frame of the words gathered from CASCADE queue `q`. -/
def Hub.gatherFrame (h : Hub) (q : Nat) (ws : List QWord) : TxItem :=
  { src := 8 + q, cls := 3, bridge := false
    f := { bcast := false, dst := 0#9, src := BitVec.ofNat 9 h.devnum, sub := BitVec.ofNat 6 q, seq := 0#12
           cont := !((ws.getLast?.map qEnd).getD true), words := ws, crcOk := true } }

/-- Close the frame being gathered. -/
def Hub.closeGather (h : Hub) : Hub :=
  match (h.lk 0).gather with
  | some (q, ws) => (h.modLk 0 (fun x => { x with gather := none })).queueTx 0 (h.gatherFrame q ws)
  | none => h

/-- Words ready in a CASCADE queue join the frame being gathered from it, up to 512. -/
def Hub.gatherWords (q : Nat) : Nat → Hub → Hub
  | 0, h => h
  | n + 1, h =>
    match (h.lk 0).gather with
    | some (_, ws) =>
      if 512 ≤ ws.length then h.closeGather
      else match h.qPop q with
        | some (w, h1) => Hub.gatherWords q n (h1.modLk 0 (fun x => { x with gather := some (q, ws ++ [w]) }))
        | none => h
    | none => h

/-- The UP transmitter reads a CASCADE queue: the one whose frame is open, or the next with a word ready in round robin, while no
frame of a local queue waits. -/
def Hub.gatherUp (fx : Fixed) (h : Hub) : Hub :=
  let x := h.lk 0
  if h.isMaster fx || x.txq.any (fun t => decide (8 ≤ t.src) && decide (t.src < 72)) then h
  else match x.gather with
    | some (q, _) => Hub.gatherWords q 513 h
    | none =>
      let ready (i : Nat) : Bool := h.qCascade i && !(NMap.get h.q i).head.isEmpty
      let from_ := match x.cont with
        | some c => if 8 ≤ c ∧ c < 72 then [c - 8] else []
        | none => (List.range 64).map (fun k => (x.rr + 64 - 8 + 1 + k) % 64)
      match from_.find? ready with
      | some q => Hub.gatherWords q 513 (h.modLk 0 (fun y => { y with gather := some (q, []) }))
      | none => h

/-- Closed frames of sending bridges routed to a port, one at a time each. -/
def Hub.bridgeFill (fx : Fixed) (p : Nat) (h : Hub) : Hub :=
  ((List.range 32).filter h.bgSends).foldl (fun a b =>
    if (a.lk p).txq.any (fun t => t.src == 128 + b) then a
    else match a.bgRun b with
      | some xs =>
        let y := a.bg b
        let t := a.bgFrame b xs y.due
        let a1 := a.setBg b { y with fifo := y.fifo.drop xs.length, due := y.due.drop xs.length }
        match a.route fx t.f.dst.toNat with
        | some 3 => ((a1.count (fCasBgFramesFrames b) 1).bgReceive t.f.sub.toNat a1.devnum (framePay t.f))
        | some q => if q = p then (a1.count (fCasBgFramesFrames b) 1).queueTx p t else a
        | none => a1.unroutable p
      | none => a) h

/-- `cas.bs.level.free` follows the window's words. -/
def Hub.showBs (h : Hub) : Hub := h.wr fCasBsLevelFree (528 - h.cas.bs.length)

/-- A group of 66 window words becomes a BITSTREAM frame on its route, or on both ports below. -/
def Hub.bsFill (fx : Fixed) (h : Hub) : Hub :=
  if h.cas.bs.length < 66 ∨ !h.isMaster fx then h
  else
    let ws := h.cas.bs.take 66
    let h1 := (h.modCas (fun c => { c with bs := c.bs.drop 66 })).showBs
    if h.is fCasBsCtlBcast then h1.bcastCtrl 0x08 ws
    else match h.route fx (h.rd fCasBsCtlDev) with
      | some q => if q < 3 ∧ h.linkUp q then h1.sendCtrl q 0x08 (h.rd fCasBsCtlDev) ws else h1.unroutable 1
      | none => h1.unroutable 1

/-- The frame of a class that may go next: for DATA the item in progress first, else its inputs in round robin. -/
def Link.pick (x : Link) (cls : Nat) : Option TxItem :=
  let l := x.txq.filter (fun t => t.cls == cls)
  if cls ≠ 3 then l.head?
  else match x.cont with
    | some c => l.find? (fun t => t.src == c)
    | none =>
      l.foldl (fun (a : Option TxItem) t =>
        match a with
        | none => some t
        | some u => if (t.src + 512 - x.rr - 1) % 256 < (u.src + 512 - x.rr - 1) % 256 then some t else some u) none

/-- The header of a frame (R335). -/
def TxItem.header (t : TxItem) : BitVec 64 :=
  BitVec.ofNat 64 (t.cls * 2 ^ 62 + b2n t.f.bcast * 2 ^ 61 + t.f.dst.toNat * 2 ^ 52 + t.f.src.toNat * 2 ^ 43 + b2n t.bridge * 2 ^ 42 +
    t.f.sub.toNat * 2 ^ 36 + t.f.seq.toNat * 2 ^ 24 + b2n t.f.cont * 2 ^ 9 + (t.f.words.length - 1))

/-- The `n` bytes of a vector, most significant first. -/
def bytesDown (n : Nat) {w : Nat} (x : BitVec w) : List Byte := (List.range n).map (fun i => x.extractLsb' (8 * (n - 1 - i)) 8)

/-- The bytes of a frame between SOF and EOF: header and queue words most significant byte first, then their CRC least significant byte
first (R335). -/
def TxItem.bytes (t : TxItem) : List Byte :=
  let l := bytesDown 8 t.header ++ t.f.words.flatMap (bytesDown 5)
  l ++ wordBytes (crc32 l)

/-- Send a frame for the first time: sequence, retry store, credits used; a forwarded one frees its receive buffer. -/
def Hub.sendFrame (h : Hub) (p : Nat) (t : TxItem) : Hub :=
  let x := h.lk p
  let seq := NMap.get x.seqTx t.cls
  let u : TxItem := { t with f := { t.f with seq := if t.cls = 0 then 0#12 else BitVec.ofNat 12 seq } }
  let y := { x with
    txq := x.txq.erase t
    used := NMap.modify x.used t.cls (fun k => (k + frameCost t.f.words.length) % 16384)
    seqTx := if t.cls = 0 then x.seqTx else NMap.set x.seqTx t.cls ((seq + 1) % 4096)
    retry := if t.cls = 0 then x.retry else NMap.modify x.retry t.cls (fun l => l ++ [u])
    cont := if t.cls = 3 then (if t.f.cont then some t.src else none) else x.cont
    rr := if t.cls = 3 then t.src else x.rr
    line := u.bytes }
  let h1 := { h with link := NMap.set h.link p y }
  if t.src < 3 then h1.release t.src t.cls t.f.words.length else h1

/-- The next frame of a class, if one is ready and its credits are held: a resent one first. -/
def Hub.sendClass (h : Hub) (p cls : Nat) : Option Hub :=
  let x := h.lk p
  let l := NMap.get x.retry cls
  let k := NMap.get x.again cls
  if 0 < k then
    match l[l.length - k]? with
    | some t =>
      if frameCost t.f.words.length ≤ x.avail cls then
        some (h.modLk p (fun y => { y with
          again := NMap.set y.again cls (k - 1), line := t.bytes
          used := NMap.modify y.used cls (fun n => (n + frameCost t.f.words.length) % 16384) }))
      else none
    | none => none
  else match x.pick cls with
    | some t => if frameCost t.f.words.length ≤ x.avail cls ∧ l.length < 2047 then some (h.sendFrame p t) else none
    | none => none

/-- FRAME_TRANSMIT: at a frame boundary the first ready class goes, in the order TIME, ALARM, CTRL, DATA. -/
def Hub.transmit (fx : Fixed) (h0 : Hub) (p : Nat) : Hub :=
  if !h0.linkUp p then h0
  else
    let h1 := (if p = 0 then h0.gatherUp fx else h0.bsFill fx).bridgeFill fx p
    let sent := match h1.sendClass p 0 with
      | some h => h
      | none => match h1.sendClass p 2 with
        | some h => h
        | none => match h1.sendClass p 1 with
          | some h => h
          | none => (h1.sendClass p 3).getD h1
    sent.settle fx

/-- FRAME_TRANSMIT. -/
def execFrameTransmit (p : Fin 3) (s : State) : Out := liftHub s (fun fx h => h.transmit fx p)

/-- DATA_FRAME_IDLE_CLOSE: a queue with no word ready for 10 µs closes the frame gathered from it. -/
def execDataFrameIdleClose (s : State) : Out :=
  liftHub s (fun _ h =>
    match (h.lk 0).gather with
    | some (_, ws) => if ws.isEmpty then h.modLk 0 (fun x => { x with gather := none }) else h.closeGather
    | none => h)

/-! ### Hold time (R357) -/

/-- HOLD_EXPIRE: the port goes DOWN; DATA and CTRL frames of its retry store are discarded and counted, those that wait to be sent have
no route any more, ALARM frames wait for a link; an expired UP port takes a LINK reset and LOST goes to its subtree. -/
def Hub.holdExpire (fx : Fixed) (h : Hub) (p : Nat) : Hub :=
  if h.rd (fCasPStatusState p) ≠ 3 then h
  else
    let x := h.lk p
    let lost := (NMap.get x.retry 1).length + (NMap.get x.retry 3).length
    let alarms := NMap.get x.retry 2 ++ x.txq.filter (fun t => t.cls == 2)
    let h0 := (x.txq.filter (fun t => t.cls != 2)).foldl (Hub.dropFrame p) ((h.bgAwait fx p).modLk p (fun y => { y with
      txq := y.txq.filter (fun t => t.cls == 2) }))
    let h1 := (h0.setLinkState p 0).noPartner p
    let keep (a : Hub) : Hub :=
      ((a.on (fCasPStatusExpired p)).countSat (fCasPCountLost p) lost).modLk p (fun y => { y with
        txq := alarms, retry := [], again := [], resent := [], gather := none, cont := none })
    let h2 := if p = 0 then keep (h1.faultRec fx 0x51 5 0 0xC8 0#32 0#32) else keep (h1.fault 0x51 p 0xC8 0#32 0#32)
    let h3 := if p = 0 then h2.bcastCtrl 0x05 [0#32] else h2
    h3.showRole fx

/-- HOLD_EXPIRE. -/
def execHoldExpire (p : Fin 3) (s : State) : Out := liftHub s (fun fx h => h.holdExpire fx p)

/-- PARTNER_DISCONNECTED: a port in TRAIN or REFUSED returns to DOWN. -/
def execPartnerDisconnected (p : Fin 3) (s : State) : Out :=
  liftHub s (fun fx h =>
    let st := h.rd (fCasPStatusState p)
    if st = 1 ∨ st = 4 then ((h.setLinkState p 0).noPartner p).showRole fx else h)

/-- LINK_SIGNAL_FOUND: a DOWN port trains; a LINK recovery of it ends. -/
def execLinkSignalFound (p : Fin 3) (s : State) : Out :=
  liftHub s (fun fx h =>
    if h.rd (fCasPStatusState p) = 0 ∧ h.linkOn fx p = true then
      let h1 := h.setLinkState p 1
      match h1.flt.recs.find? (fun r => r.scope == 5 && r.unit == p.val) with
      | some r => h1.closeRec r
      | none => h1
    else h)

end Sys2Proof.Machine
end

