-- ==== Sys2Proof/Machine/Ingress.lean ====
section
/-! DEFINITION. The receive FIFOs of the sample ports and two-wire controllers, and the ingress path that serves them in round
robin (spec/04 R99, R104, R105; spec/05 R127, R129). -/

namespace Sys2Proof.Machine
open Sys2Proof

def Hub.port (h : Hub) (p : Nat) : Port := NMap.get h.sp p
def Hub.setPort (h : Hub) (p : Nat) (x : Port) : Hub := { h with sp := NMap.set h.sp p x }
def Hub.modPort (h : Hub) (p : Nat) (f : Port → Port) : Hub := h.setPort p (f (h.port p))
def Hub.twc (h : Hub) (c : Nat) : TwoWire := NMap.get h.tw c
def Hub.setTw (h : Hub) (c : Nat) (x : TwoWire) : Hub := { h with tw := NMap.set h.tw c x }
def Hub.modTw (h : Hub) (c : Nat) (f : TwoWire → TwoWire) : Hub := h.setTw c (f (h.twc c))

/-- A word leaves a receive FIFO: a parity error makes it a placeholder; a placeholder takes the last good sample of its
context; a good sample becomes the last one. -/
def resolveWord (last : NMap (BitVec 24)) (w : FifoWord) (bad : Bool) : Samp × NMap (BitVec 24) :=
  let x := if bad then w.samp.add tAborted else w.samp
  let ph := bad || !w.real
  let y := if ph then { x with val := NMap.get last w.ctx } else x
  (y, if ph || y.has tAborted then last else NMap.set last w.ctx y.val)

/-- One PORT_PARITY record for every 1,024 errors of a unit, at the first of them (R440). -/
def Hub.parityFault (h : Hub) (u : Nat) : Hub :=
  let n := NMap.get h.flt.parity u
  let h1 := { h with flt := { h.flt with parity := NMap.set h.flt.parity u ((n + 1) % 1024) } }
  if n = 0 then h1.fault 0x10 u 0xC1 0#32 0#32 else h1

/-- The ingress path takes the oldest word of a sample port's FIFO. -/
def Hub.spIngress (h : Hub) (p : Nat) (bad : Bool) : Hub :=
  let x := h.port p
  match x.fifo with
  | [] => h
  | w :: rest =>
    let r := resolveWord x.last w bad
    let h1 := h.setPort p { x with fifo := rest, last := r.2 }
    let h2 := if bad then ((h1.on (fSpPStatusParity p)).countSat (fSpPErrParity p) 1).parityFault p else h1
    h2.ctxIngress 6 w.ctx r.1

/-- The ingress path takes the oldest sample of a controller's FIFO. -/
def Hub.twIngress (h : Hub) (c : Nat) (bad : Bool) : Hub :=
  let x := h.twc c
  match x.fifo with
  | [] => h
  | w :: rest =>
    let r := resolveWord x.last w bad
    let h1 := h.setTw c { x with fifo := rest, last := r.2 }
    let h2 := if bad then (h1.on (fTwCStatusParity c)).parityFault (24 + c) else h1
    h2.ctxIngress 6 w.ctx r.1

/-- Words waiting in a receive FIFO: places 0 to 23 are the sample ports, 24 to 31 the two-wire controllers. -/
def Hub.ingressLen (h : Hub) (u : Nat) : Nat := if u < 24 then (h.port u).fifo.length else (h.twc (u - 24)).fifo.length

/-- The place the round robin serves next: the first non-empty FIFO after the place served last (R104). The order of the places is
the model's (DESIGN CHOICE, log entry 91). -/
def Hub.ingressTurn (h : Hub) : Option Nat :=
  ((List.range 32).map (fun i => (h.ingress + i) % 32)).find? (fun u => decide (0 < h.ingressLen u))

/-- The ingress path takes one word, if any FIFO holds one. `bad` says, for the place served, whether the word's parity fails. -/
def Hub.ingressServe (h : Hub) (bad : Nat → Bool) : Hub :=
  match h.ingressTurn with
  | none => h
  | some u =>
    if h.stHeld heldFifo then h.refusedBy heldFifo else
    let h1 := { h with ingress := (u + 1) % 32 }
    if u < 24 then h1.spIngress u (bad u) else h1.twIngress (u - 24) (bad u)

/-- INGRESS_WORD: the ingress path takes a word of place `u`, whose turn it is; of a place whose turn it is not it takes nothing. -/
def execIngressWord (u : Fin 32) (parity : Bool) (s : State) : Out :=
  liftHub s (fun _ h => if h.ingressTurn = some u.val then h.ingressServe (fun _ => parity) else h)

/-- The ingress path serves FIFOs in turn, at most `n` words, until place `u` has room. -/
def Hub.ingressUntil (u : Nat) (bad : Bool) : Nat → Hub → Hub
  | 0, h => h
  | n + 1, h => if h.ingressLen u < 8 then h else Hub.ingressUntil u bad n (h.ingressServe (fun v => bad && v == u))

/-- A word arrives at a port's FIFO: lost when it is full; the next word of its context carries GAP. `keepUp` says that the
ingress path had made room by then. -/
def Hub.spPush (h0 : Hub) (p : Nat) (keepUp bad : Bool) (w : FifoWord) : Hub :=
  let h1 := if w.samp.has tDip then h0.on (fSpPStatusSupplyDip p) else h0
  let h := if keepUp then Hub.ingressUntil p bad 32 h1 else h1
  let x := h.port p
  if 8 ≤ x.fifo.length ∨ h.stHeld heldFifo = true then
    ((h.refusedBy heldFifo).setPort p { x with gaps := dedup (x.gaps ++ [w.ctx]) } |>.on (fSpPStatusFifoOver p)).countSat (fSpPLostWords p) 1
  else
    let s := w.samp.addIf (x.gaps.contains w.ctx) tGap
    h.setPort p { x with fifo := x.fifo ++ [{ w with samp := s }], gaps := x.gaps.filter (fun c => c != w.ctx) }

/-- A sample arrives at a controller's FIFO. -/
def Hub.twPush (h : Hub) (c : Nat) (w : FifoWord) : Hub :=
  let x := h.twc c
  let h1 := if w.samp.has tDip then h.on (fTwCStatusSupplyDip c) else h
  if 8 ≤ x.fifo.length ∨ h.stHeld heldFifo = true then
    (((h1.refusedBy heldFifo).setTw c { x with gaps := dedup (x.gaps ++ [w.ctx]) }).on (fTwCStatusFifoOver c)).countSat (fTwCLostWords c) 1
  else
    let s := w.samp.addIf (x.gaps.contains w.ctx) tGap
    h1.setTw c { x with fifo := x.fifo ++ [{ w with samp := s }], gaps := x.gaps.filter (fun k => k != w.ctx) }

end Sys2Proof.Machine
end

