-- ==== Sys2Proof/Machine/Ports.lean ====
section
/-! DEFINITION. Sample ports: frames, checks, the receive FIFO, training and the select plan (spec/04). -/

namespace Sys2Proof.Machine
open Sys2Proof

/-! ### Cells (R112) -/
def Hub.spLanes (h : Hub) (p : Nat) : Nat := let c := h.cf 3 p 0 1 2; if c = 0 then 1 else if c = 1 then 2 else 4
def Hub.spLsb (h : Hub) (p : Nat) : Bool := h.cf 3 p 0 5 1 == 1
def Hub.spW (h : Hub) (p : Nat) : Nat := h.cf 3 p 0 6 5 + 1
def Hub.spS (h : Hub) (p : Nat) : Nat := h.cf 3 p 0 11 4 + 1
def Hub.spC (h : Hub) (p : Nat) : Nat := h.cf 3 p 0 15 6
/-- CRC scope: 0 NONE, 1 FRAME, 2 WORD. -/
def Hub.spCrc (h : Hub) (p : Nat) : Nat := h.cf 3 p 0 21 2
def Hub.spTrg (h : Hub) (p : Nat) : Bool := h.cf 3 p 0 24 1 == 1
def Hub.spTb (h : Hub) (p : Nat) : Nat := h.cf 3 p 5 0 5
def Hub.spSyncOn (h : Hub) (p : Nat) : Bool := h.cf 3 p 2 20 1 == 1
/-- Expected edge count of a frame (R87). -/
def Hub.spE (h : Hub) (p : Nat) : Nat := h.spC p + h.spS p * h.spW p + (if h.spCrc p = 1 then 8 else 0)
def Hub.spMap (h : Hub) (p : Nat) (e : Nat) : Nat := h.cf 3 p (0x10 + 4 * e) 2 2
/-- The cell of a mapped slot. -/
def Hub.slotCell (h : Hub) (p m l t : Nat) : Word := h.cell 3 p (0x100 + 64 * m + 16 * l + t)

/-- The port's structure is in force and nothing holds it in PORT reset. -/
def Hub.spUp (h : Hub) (p : Nat) : Bool :=
  h.is fLdrStatusConfigured && h.used 3 p && !h.recovering 3 p && !h.railHeld (spRail p)
/-- Starts and target frames are taken: enabled and its clock not gated off (R93, R19). -/
def Hub.spOn (h : Hub) (p : Nat) : Bool := h.is (fSpPCtlEnable p) && h.cf 2 p 0 0 1 == 0 && !h.portHeld p
def Hub.spTarget (h : Hub) (p : Nat) : Bool := h.rd (fSpPCtlRole p) == 1

/-- The plan entry in use: a target port uses entry 0 only (R97). -/
def Hub.spEntry (h : Hub) (p : Nat) : Nat := if h.spTarget p then 0 else h.rd (fSpPPlanEntry p)

/-! ### Slots -/

/-- A slot's context in map `m`, when it is mapped. -/
def Hub.slotCtx (h : Hub) (p m l t : Nat) : Option Nat :=
  let c := h.slotCell p m l t
  if bitOf c 31 then some (fieldOf c 0 8) else none

/-- Slots of a frame in the order their words complete; of the lanes, whose words complete at one edge, the lowest comes first
(DESIGN CHOICE, log entry 92). -/
def Hub.slotOrder (h : Hub) (p : Nat) : List (Nat × Nat) :=
  (List.range (h.spS p)).flatMap (fun t => (List.range (h.spLanes p)).map (fun l => (l, t)))

/-! ### Reading a frame (R87 to R89, R100, R101) -/

/-- A lane's frame as bits in the order they travelled; `n` bits were captured. -/
def laneBits (v n : Nat) : List Bool := msbBits v n

/-- A word from its bits in travel order. -/
def wordOfBits (lsb : Bool) (bs : List Bool) : Nat := ofMsb (if lsb then bs.reverse else bs)

/-- The bits of slot `t`. -/
def Hub.slotBits (h : Hub) (p t : Nat) (bs : List Bool) : List Bool := (bs.drop (h.spC p + t * h.spW p)).take (h.spW p)

/-- The 24-bit sample of a field `f0` of `w` bits: format 0 TWOS, 1 OFFSET, 2 UNSIGNED; right or left justified (R89). -/
def fmtSample (fmt : Nat) (left : Bool) (w f0 : Nat) : BitVec 24 :=
  let f := if fmt = 1 then f0 ^^^ 2 ^ (w - 1) else f0
  if left then BitVec.ofNat 24 (if w ≤ 24 then f * 2 ^ (24 - w) else f / 2 ^ (w - 24))
  else if fmt = 2 then BitVec.ofNat 24 f
  else BitVec.ofInt 24 (signedOf f w)

/-- The sample of a port word under its slot cell. -/
def sampleOf (cell : Word) (v : Nat) : BitVec 24 :=
  let w := fieldOf cell 18 5 + 1
  fmtSample (fieldOf cell 29 2) (fieldOf cell 28 1 == 1) w (natField v (fieldOf cell 23 5) w)

/-- The CRC-8 check of a FRAME-scope lane: the byte after the last slot against all slot bits (R101). -/
def Hub.frameCrcOk (h : Hub) (p : Nat) (bs : List Bool) : Bool :=
  let n := h.spS p * h.spW p
  let body := (bs.drop (h.spC p)).take n
  let got := wordOfBits (h.spLsb p) ((bs.drop (h.spC p + n)).take 8)
  (crc8 (BitVec.ofNat 8 (h.cf 3 p 2 0 8)) (BitVec.ofNat 8 (h.cf 3 p 2 8 8)) body).toNat == got

/-- The CRC-8 check of a word: its bits [7:0] against its bits [W−1:8], in the order they travelled. -/
def Hub.wordCrcOk (h : Hub) (p : Nat) (bs : List Bool) : Bool :=
  let lsb := h.spLsb p
  let body := if lsb then bs.drop 8 else bs.take (bs.length - 8)
  let got := wordOfBits lsb bs % 256
  (crc8 (BitVec.ofNat 8 (h.cf 3 p 2 0 8)) (BitVec.ofNat 8 (h.cf 3 p 2 8 8)) body).toNat == got

/-- The sync check of a lane's slot word (R100). -/
def Hub.syncOk (h : Hub) (p l v : Nat) : Bool :=
  let m := (h.cell 3 p (0xC + l)).toNat
  (v &&& m) == ((h.cell 3 p (8 + l)).toNat &&& m)

/-- What a frame's checks say of each lane. -/
structure LaneCheck where
  syncBad : Bool
  crcBad : Bool
  deriving DecidableEq, Repr

/-- Check a lane of a frame of which `n` edges came: the sync slot when it is whole, the CRC when the frame is. -/
def Hub.checkLane (h : Hub) (p l v n : Nat) : LaneCheck :=
  let bs := laneBits v n
  let ss := h.cf 3 p 2 16 4
  let whole := decide (h.spC p + (ss + 1) * h.spW p ≤ n)
  { syncBad := h.spSyncOn p && whole && !h.syncOk p l (wordOfBits (h.spLsb p) (h.slotBits p ss bs))
    crcBad := h.spCrc p == 1 && decide (h.spE p ≤ n) && !h.frameCrcOk p bs }

/-- The word of one slot as it enters the FIFO. -/
def Hub.slotWord (h : Hub) (p m l t v n : Nat) (k : LaneCheck) (cut : Bool) (tag : BitVec 8) (stamp : Nat) : FifoWord :=
  let cell := h.slotCell p m l t
  let bits := h.slotBits p t (laneBits v n)
  let have_ := decide (h.spC p + (t + 1) * h.spW p ≤ n) && !(cut && h.spCrc p == 1)
  let wcrc := h.spCrc p == 2 && have_ && !h.wordCrcOk p bits
  let good := have_ && !k.syncBad && !k.crcBad && !wcrc
  { ctx := fieldOf cell 0 8, real := good
    samp := { val := if good then sampleOf cell (wordOfBits (h.spLsb p) bits) else 0#24
              tag := tag ||| (if good && !cut then 0#8 else tAborted), time := stamp } }

/-! ### Training (R106 to R108) -/

/-- Longest run of set bits of a 64-tap pass map, the lowest of equals: start and length. -/
def bestRun (pass : Nat) : Nat × Nat :=
  ((List.range 64).foldl (fun (a : (Nat × Nat) × Nat) i =>
    if pass.testBit i then
      let cur := a.2 + 1
      ((if cur > a.1.2 then (i + 1 - cur, cur) else a.1), cur)
    else (a.1, 0)) ((0, 0), 0)).1

def tapFld (p l : Nat) : Fld :=
  if l = 0 then fSpPTapLane0 p else if l = 1 then fSpPTapLane1 p else if l = 2 then fSpPTapLane2 p else fSpPTapLane3 p
def eyeFld (p l : Nat) : Fld :=
  if l = 0 then fSpPEyeLane0 p else if l = 1 then fSpPEyeLane1 p else if l = 2 then fSpPEyeLane2 p else fSpPEyeLane3 p

/-- Training runs: a sync check and mode ONCE or CONTINUOUS. -/
def Hub.training (h : Hub) (p : Nat) : Bool :=
  h.spSyncOn p && (h.rd (fSpPCtlTrain p) == 1 || h.rd (fSpPCtlTrain p) == 2)

/-- One frame of the sweep: the shadow sampler's sync slot at the present shadow tap; after tap 63 the eye of each lane. -/
def Hub.sweepFrame (h : Hub) (p : Nat) (shadow : List Word) : Hub :=
  let x := h.port p
  if h.training p && !(x.swept && h.rd (fSpPCtlTrain p) == 1) then
    let lanes := List.range (h.spLanes p)
    let pass := lanes.foldl (fun m l =>
      if h.syncOk p l (shadow.getD l 0#32).toNat then NMap.set m l (NMap.get m l + 2 ^ x.sweep) else m) x.pass
    if x.sweep < 63 then h.setPort p { x with sweep := x.sweep + 1, pass := pass }
    else
      let runs := lanes.map (fun l => (l, bestRun (NMap.get pass l)))
      let target := runs.foldl (fun m r => if 4 ≤ r.2.2 then NMap.set m r.1 (r.2.1 + (r.2.2 - 1) / 2 + 1) else m) x.target
      let h1 := h.setPort p { x with sweep := 0, pass := [], target := target, swept := true }
      let h2 := runs.foldl (fun a r => a.wr (eyeFld p r.1) (satTo 6 r.2.2)) (h1.on (fSpPStatusTrained p))
      if runs.any (fun r => decide (r.2.2 < 4)) then h2.on (fSpPStatusNoEye p) else h2
  else h

/-- A tap word written with training OFF takes effect at a frame boundary (R117). -/
def Hub.applyTap (h : Hub) (p : Nat) : Hub :=
  match (h.port p).newTap with
  | some w =>
    if h.training p then h
    else ((List.range 4).foldl (fun a l => a.wr (tapFld p l) (fieldOf w (8 * l) 6)) h).modPort p (fun y => { y with newTap := none })
  | none => h

/-- Between frames each main tap moves one step toward its target; a tap word written with training OFF takes effect. -/
def Hub.moveTaps (h : Hub) (p : Nat) : Hub :=
  let x := h.port p
  if h.training p then
    (List.range (h.spLanes p)).foldl (fun a l =>
      let t := NMap.get x.target l
      let cur := a.rd (tapFld p l)
      if t = 0 || cur + 1 == t then a else a.wr (tapFld p l) (if cur + 1 < t then cur + 1 else cur - 1)) h
  else h.applyTap p

/-! ### Finishing a frame (R96, R97, R102, R103, R116, R118) -/

/-- The plan moves on after a frame (R97). -/
def Hub.planNext (h : Hub) (p : Nat) : Hub :=
  let e := h.spEntry p
  let f := h.rd (fSpPPlanFrame p) + 1
  if f < h.planRun p e then h.wr (fSpPPlanFrame p) f
  else (h.wr (fSpPPlanFrame p) 0).wr (fSpPPlanEntry p) (if h.spTarget p || h.planLen p ≤ e + 1 then 0 else e + 1)

/-- The edge at which slot `t` is complete, and the one at which its word may enter the FIFO: the latest of its own last edge, the
sync slot's when the sync check is on, and the frame's when the CRC covers the frame (R102). -/
def Hub.slotLast (h : Hub) (p t : Nat) : Nat := h.spC p + (t + 1) * h.spW p
def Hub.wordDue (h : Hub) (p t : Nat) : Nat :=
  max (h.slotLast p t) (max (if h.spSyncOn p then h.slotLast p (h.cf 3 p 2 16 4) else 0) (if h.spCrc p = 1 then h.spE p else 0))

/-- What edge `n` of a frame lets the port check: the sync slot of each lane at its last edge, the CRC of each lane's word at that
word's last edge or of its frame at the frame's (R100, R101). -/
def Hub.edgeChecks (h : Hub) (p : Nat) (lanes : List Nat) (n : Nat) : Hub :=
  let ls := List.range (h.spLanes p)
  let chk := ls.map (fun l => h.checkLane p l (lanes.getD l 0) n)
  let nSync := if n = h.slotLast p (h.cf 3 p 2 16 4) then (chk.filter (fun k => k.syncBad)).length else 0
  let nFrame := if n = h.spE p then (chk.filter (fun k => k.crcBad)).length else 0
  let nWord := if h.spCrc p = 2 then ((h.slotOrder p).filter (fun q =>
      h.slotLast p q.2 == n && !h.wordCrcOk p (h.slotBits p q.2 (laneBits (lanes.getD q.1 0) n)))).length else 0
  let h1 := if 0 < nSync then (h.on (fSpPStatusSyncErr p)).countSat (fSpPErrSync p) nSync else h
  let h2 := if 0 < nFrame + nWord then (h1.on (fSpPStatusCrcErr p)).countSat (fSpPErrCrc p) (nFrame + nWord) else h1
  if 0 < nSync + nFrame + nWord then h2.modPort p (fun y => { y with bad := true }) else h2

/-- Give the words of the slots that `which` picks to the FIFO, of a frame of which `n` edges came (R96, R99, R103). `cut` says
that it ended before its E-th edge; `dips` marks the slots in which the bank was below warning, and bit 16 the start edge. -/
def Hub.pushSlots (h : Hub) (p : Nat) (lanes : List Nat) (n : Nat) (cut : Bool) (dips : Nat) (keepUp bad : Bool)
    (which : Nat → Bool) : Hub :=
  let x := h.port p
  let m := h.spMap p (h.spEntry p)
  let settle := decide (h.rd (fSpPPlanFrame p) < h.cf 3 p (0x10 + 4 * h.spEntry p) 12 8)
  let base := (if settle then tSettle else 0#8) ||| (if x.late then tLate else 0#8)
  let chk := (List.range (h.spLanes p)).map (fun l => h.checkLane p l (lanes.getD l 0) n)
  let words := ((h.slotOrder p).filter (fun q => which q.2)).filterMap (fun q =>
    (h.slotCtx p m q.1 q.2).map (fun _ =>
      let dip := dips.testBit 16 || dips.testBit q.2
      h.slotWord p m q.1 q.2 (lanes.getD q.1 0) n (chk.getD q.1 ⟨false, false⟩) cut
        (base ||| (if dip then tDip else 0#8)) x.stamp))
  words.foldl (fun a w => a.spPush p keepUp bad w) h

/-- A frame is complete: counters, stamp, plan, producers and the training sweep. `cut` says that it ended before its E-th edge,
`inWord` that it ended inside a word. -/
def Hub.frameDone (h : Hub) (p : Nat) (cut inWord : Bool) (shadow : List Word) : Hub :=
  let x := h.port p
  let h1 := if cut then (h.on (if inWord then fSpPStatusAborted p else fSpPStatusShort p)).countSat (fSpPErrBad p) 1 else h
  let h2 := (h1.count (fSpPFramesFrames p) 1).modPort p (fun y => { y with
    lastStamp := x.stamp, flags := b2n x.late * 4 + b2n (h.spTarget p) * 2 + b2n cut })
  let h3 := (h2.planNext p).present (0x1000 + p)
  (if cut || x.bad then h3.present (0x1100 + p) else h3).sweepFrame p shadow

/-! ### Controller frames (R91 to R93) -/

/-- A frame begins: stamp of TCLK edge T + 1, a waiting plan restart, the TRG pulse of TRG mode. -/
def Hub.spBegin (h : Hub) (p : Nat) (late : Option Nat) : Hub :=
  let x := h.port p
  let h1 := if x.restart then (h.wr (fSpPPlanEntry p) 0).wr (fSpPPlanFrame p) 0 else h
  let h2 := h1.setPort p { x with
    phase := 1, start := h.cyc, stamp := Machine.report (h.tbNext (h.spTb p)), late := late.isSome, heldStart := none
    restart := false, entry := some (h1.spEntry p), edges := 0, lanes := [], dips := 0, whole := true, bad := false }
  let h3 := h2.on (fSpPStatusBusy p)
  let h4 := match late with
    | some n => ((h3.on (fSpPStatusLate p)).countSat (fSpPLateCount p) 1).wr (fSpPLateLast p) (satTo 16 n)
    | none => h3
  if h4.spTrg p then h4.trgPulse (h4.cf 3 p 3 16 4) else h4

/-- A dropped start: every context mapped in the current plan entry gets a GAP placeholder (R93). -/
def Hub.spDrop (h : Hub) (p : Nat) : Hub :=
  let m := h.spMap p (h.spEntry p)
  let t := Machine.report (h.tbNext (h.spTb p))
  let h1 := ((h.on (fSpPStatusStartDrop p)).countSat (fSpPLostStarts p) 1).present (0x1200 + p)
  ((h1.slotOrder p).filterMap (fun q => h1.slotCtx p m q.1 q.2)).foldl (fun a c =>
    a.spPush p false false { ctx := c, samp := { val := 0#24, tag := tGap, time := t }, real := false }) h1

/-- A start reaches a controller port: ignored, started, held or dropped. -/
def Hub.portStart (h : Hub) (p : Nat) : Hub :=
  let x := h.port p
  if !(h.spUp p && h.spOn p && !h.spTarget p) then h
  else if x.phase = 0 ∧ x.heldStart = none then h.spBegin p none
  else if x.heldStart.isNone then h.setPort p { x with heldStart := some h.cyc }
  else h.spDrop p

/-- PORT_START. -/
def execPortStart (p : Fin 24) (s : State) : Out := liftHub s (fun _ h => h.portStart p)

/-- A held start is taken once the frame in progress has ended. -/
def Hub.takeHeld (h : Hub) (p : Nat) : Hub :=
  let x := h.port p
  match x.heldStart with
  | some c => if x.phase = 0 && h.spUp p && h.spOn p then h.spBegin p (some (h.cyc - c)) else h
  | none => h

/-- HELD_START_TAKEN. -/
def execHeldStartTaken (p : Fin 24) (s : State) : Out := liftHub s (fun _ h => h.takeHeld p)

/-- PORT_FRAME_COMPLETE: the frame's last edge. Every word goes to the FIFO in the order of the edges that let it enter (R102);
the select then rises and stays high for H periods. Bits 15 to 0 of `dip` mark the slots whose capture edges fell while the bank
was below warning, bit 16 the start edge. -/
def Hub.frameComplete (h : Hub) (p : Nat) (lanes : List Nat) (shadow : List Word) (dip : Nat) (keepUp bad : Bool) : Hub :=
  if (h.port p).phase = 1 ∧ !h.spTarget p then
    let edges := dedup ((List.range (h.spS p)).map (fun t => h.slotLast p t) ++ [h.spE p])
    let h1 := edges.foldl (fun a n =>
      (a.edgeChecks p lanes n).pushSlots p lanes n false dip keepUp bad (fun t => h.wordDue p t == n)) h
    (h1.frameDone p false false shadow).modPort p (fun y => { y with phase := 2 })
  else h

/-- PORT_FRAME_COMPLETE. -/
def execPortFrameComplete (p : Fin 24) (lanes : List Nat) (shadow : List Word) (dip : BitVec 17) (keepUp parity : Bool)
    (s : State) : Out :=
  liftHub s (fun _ h => h.frameComplete p lanes shadow dip.toNat keepUp parity)

/-- HOLD_PERIODS_COMPLETE: the frame is no longer in progress; the taps move at this boundary (R107, R117). -/
def Hub.holdDone (h : Hub) (p : Nat) : Hub :=
  if (h.port p).phase = 2 then
    ((h.modPort p (fun y => { y with phase := 0, entry := none })).off (fSpPStatusBusy p)).moveTaps p
  else h

/-- HOLD_PERIODS_COMPLETE. -/
def execHoldPeriodsComplete (p : Fin 24) (s : State) : Out := liftHub s (fun _ h => h.holdDone p)

/-! ### Target frames (R94 to R96, R102) -/

/-- TARGET_SELECT_ASSERT: the TDC names this TCLK cycle, or the next one within its error (R14). `whole` says that the sensor will
give the frame its E edges: words of a whole frame enter the FIFO at their own edges (R102), those of a frame cut short carry
ABORTED from its first word on (R96), which no causal order of the two rules gives (DEDUCED, log entry 93). -/
def Hub.selectAssert (h : Hub) (p tdc : Nat) (whole dip : Bool) : Hub :=
  let x := h.port p
  if !(h.spTarget p) || x.phase != 0 then h
  else if h.spUp p && h.spOn p then
    let tb := h.spTb p
    let h1 := if x.restart then (h.wr (fSpPPlanEntry p) 0).wr (fSpPPlanFrame p) 0 else h
    (h1.setPort p { x with
      phase := 1, start := h.cyc, stamp := Machine.report (if tdc = 0 then h.tbVal tb else h.tbNext tb), late := false
      restart := false, entry := some 0, edges := 0, lanes := [], dips := if dip then 2 ^ 16 else 0
      whole := whole, bad := false }).on (fSpPStatusBusy p)
  else h.setPort p { x with phase := 3 }

/-- TARGET_SELECT_ASSERT. -/
def execTargetSelectAssert (p : Fin 24) (e : SelectEdge) (s : State) : Out :=
  liftHub s (fun _ h => h.selectAssert p e.tdc e.whole e.dip)

/-- An edge beyond E or outside a frame (R96). -/
def Hub.extraEdge (h : Hub) (p : Nat) : Hub :=
  let x := h.port p
  if h.spTarget p && h.spUp p && h.spOn p && (x.phase == 0 || (x.phase == 1 && decide (h.spE p ≤ x.edges))) then
    (h.on (fSpPStatusOverclock p)).countSat (fSpPLostEdges p) 1
  else h

/-- TARGET_EXTRA_EDGE. -/
def execTargetExtraEdge (p : Fin 24) (s : State) : Out := liftHub s (fun _ h => h.extraEdge p)

/-- The lanes of a frame received so far. -/
def Port.laneList (x : Port) : List Nat := (List.range 4).map (fun l => NMap.get x.lanes l)

/-- TARGET_CAPTURE_EDGE: one bit of each lane, the checks the edge completes, the words it lets enter the FIFO; the E-th edge
completes the frame. -/
def Hub.captureEdge (h : Hub) (p : Nat) (bits : BitVec 4) (dip : Bool) (shadow : List Word) (keepUp bad : Bool) : Hub :=
  let x := h.port p
  if x.phase = 1 ∧ h.spTarget p ∧ x.edges < h.spE p then
    let y := { x with
      edges := x.edges + 1
      dips := if dip && decide (h.spC p ≤ x.edges) then x.dips ||| 2 ^ ((x.edges - h.spC p) / h.spW p) else x.dips
      lanes := (List.range (h.spLanes p)).foldl (fun m l => NMap.set m l (2 * NMap.get m l + b2n (bits.getLsbD l))) x.lanes }
    let n := y.edges
    let last := decide (n = h.spE p)
    let h1 := ((h.setPort p y).edgeChecks p y.laneList n).pushSlots p y.laneList n false y.dips keepUp bad
      (fun t => if x.whole then h.wordDue p t == n else last)
    if last then h1.frameDone p false false shadow else h1
  else h.extraEdge p

/-- TARGET_CAPTURE_EDGE. -/
def execTargetCaptureEdge (p : Fin 24) (bits : BitVec 4) (dip : Bool) (shadow : List Word) (keepUp parity : Bool)
    (s : State) : Out :=
  liftHub s (fun _ h => h.captureEdge p bits dip shadow keepUp parity)

/-- TARGET_FRAME_END: the select deasserts; a frame short of its E edges is ABORTED or SHORT. The taps move at this boundary. -/
def Hub.targetEnd (h : Hub) (p : Nat) (shadow : List Word) (keepUp bad : Bool) : Hub :=
  let x := h.port p
  if !(h.spTarget p) || x.phase == 0 || x.phase == 2 then h
  else
    let n := x.edges
    let body := h.spC p + h.spS p * h.spW p
    let inWord := decide (h.spC p < n) &&
      (if n < body then (n - h.spC p) % h.spW p != 0 else decide (body < n))
    let h1 := if x.phase = 1 ∧ n < h.spE p then
        (h.pushSlots p x.laneList n true x.dips keepUp bad (fun t => !x.whole || decide (n < h.wordDue p t))).frameDone p true inWord
          shadow
      else h
    let h2 := (h1.modPort p (fun y => { y with phase := 0, entry := none })).off (fSpPStatusBusy p)
    if x.phase = 1 then h2.moveTaps p else h2.applyTap p

/-- TARGET_FRAME_END. -/
def execTargetFrameEnd (p : Fin 24) (shadow : List Word) (keepUp parity : Bool) (s : State) : Out :=
  liftHub s (fun _ h => h.targetEnd p shadow keepUp parity)

/-! ### The output balls of a port (R88, R91, R93) -/

/-- What a ball does: high impedance, a level, or a level the spec leaves open. -/
inductive Pin where
  | hiz
  | level (b : Bool)
  | unstated
  deriving DecidableEq, Repr

/-- The port drives its balls: a controller, used, its bank up and its PCLK not gated off (R5, R19, R42, R109, R493). -/
def Hub.spDrives (h : Hub) (p : Nat) : Bool :=
  h.is fLdrStatusConfigured && h.used 3 p && !h.railHeld (spRail p) && !h.spTarget p && h.cf 2 p 0 0 1 == 0

/-- TCLK cycles since the select pin fell, one cycle behind the start edge and in TRG mode Q more (R93); `none` before that. -/
def Hub.sinceFall (h : Hub) (p : Nat) : Option Nat :=
  let x := h.port p
  let t := x.start + 1 + (if h.spTrg p then h.cf 3 p 3 0 16 else 0)
  if x.entry.isNone || decide (h.cyc < t) then none else some (h.cyc - t)

/-- The divider in use, 16 to 4,096 (R114). -/
def Hub.spDiv (h : Hub) (p : Nat) : Nat := min 4096 (max 16 (h.rd (fSpPDivDiv p)))

/-- SPn_CSk: low from the fall until one period after the last capture edge, for the select of the frame's plan entry. -/
def Hub.pinCs (h : Hub) (p k : Nat) : Pin :=
  if !h.spDrives p then .hiz
  else
    match h.sinceFall p, (h.port p).entry with
    | some t, some e => .level !(h.cf 3 p (0x10 + 4 * e) 0 2 == k && decide (t < (h.spE p + 1) * h.spDiv p))
    | _, _ => .level true

/-- SPn_SCK: capture edge k falls k periods after the select; SCK is high for ⌊D/2⌋ cycles of each period, in each of the four
modes, and rests at `cpol` outside them. -/
def Hub.pinSck (h : Hub) (p : Nat) : Pin :=
  if !h.spDrives p then .hiz
  else
    let cpol := h.cf 3 p 0 3 1 == 1
    let cpha := h.cf 3 p 0 4 1 == 1
    let d := h.spDiv p
    let act := if cpol then d - d / 2 else d / 2
    match h.sinceFall p with
    | none => .level cpol
    | some t =>
      let u := if cpha then t + act else t
      let k := u / d
      .level (cpol != (decide (1 ≤ k) && decide (k ≤ h.spE p) && decide (u % d < act)))

/-- The command bits of a plan entry in the order they are sent: bit C − 1 first unless `lsb_first` (R88, R112). -/
def Hub.commandBits (h : Hub) (p e : Nat) : List Bool :=
  let bs := (List.range (h.spC p)).map (fun i => bitOf (h.cell 3 p (0x11 + 4 * e)) i)
  if h.spLsb p then bs else bs.reverse

/-- SPn_DO: the first command bit from the fall of the select, each next one from the shift edge behind a capture edge; what stands
there after the command bits the spec leaves open. -/
def Hub.pinDo (h : Hub) (p : Nat) : Pin :=
  if !h.spDrives p then .hiz
  else
    let d := h.spDiv p
    let act := if h.cf 3 p 0 3 1 == 1 then d - d / 2 else d / 2
    match h.sinceFall p, (h.port p).entry with
    | some t, some e =>
      let i := if h.cf 3 p 0 4 1 == 1 then (t + act) / d - 1 else if t < act then 0 else (t - act) / d
      match (h.commandBits p e)[i]? with
      | some b => .level b
      | none => .unstated
    | _, _ => .unstated

/-! ### Plan restart, staged fields, stamp (R98, R109, R118) -/

/-- SP_PLAN_RESTART: the request is kept beside the register, whose bit 31 reads 0 while it waits (DESIGN CHOICE, log entry 94). -/
def execSpPlanRestart (p : Fin 24) (s : State) : Out :=
  liftHub s (fun fx h => h.atReg fx s.met .sp (0x040028 + 0x800 * p) (fun h => h.modPort p (fun y => { y with restart := true })))

/-- PORT_STAGED_APPLY: at a frame boundary a committed role and divider take effect; a target drives no starts. -/
def Hub.stagedApply (h : Hub) (p : Nat) : Hub :=
  let x := h.port p
  if x.phase = 0 then
    let h1 := match x.newRole with
      | some r => (h.wr (fSpPCtlRole p) r).modPort p (fun y => { y with heldStart := if r = 1 then none else y.heldStart })
      | none => h
    let h2 := match x.newDiv with
      | some d => h1.wr (fSpPDivDiv p) d
      | none => h1
    h2.modPort p (fun y => { y with newRole := none, newDiv := none })
  else h

/-- PORT_STAGED_APPLY. -/
def execPortStagedApply (p : Fin 24) (s : State) : Out := liftHub s (fun _ h => h.stagedApply p)

/-- Reading `stamp0` latches the four stamp words. -/
def Hub.spStampRead (h : Hub) (p : Nat) : Word × Hub :=
  let t := (h.port p).lastStamp
  (latchedWord t 0, h.modPort p (fun y => { y with latch := 8 * t + y.flags }))

/-- SP_STAMP_READ. -/
def execSpStampRead (p : Fin 24) (s : State) : Out :=
  liftHub s (fun fx h => h.readOf fx s.met .sp (0x040030 + 0x800 * p) (fun h => h.spStampRead p))

end Sys2Proof.Machine
end

