-- ==== Sys2Proof/Machine/Radio.lean ====
section
/-! DEFINITION. The radio transceiver, its sequencer, superframes and nodes (spec/14 R366 to R386, R389, R390). A node operand of a
command counts from 0; node numbers of the spec count from 1. -/

namespace Sys2Proof.Machine
open Sys2Proof

/-! ### Cells (R391) and small operations -/
def Hub.radTb (h : Hub) : Nat := h.cf 12 0 0 4 5
/-- The radio timebase now, in units of 2^-16 ns. -/
def Hub.radNow (h : Hub) : Nat := report (h.tbVal h.radTb)
def Hub.slotCount (h : Hub) : Nat := h.cf 12 0 1 0 6 + 1
def Hub.slotKind (h : Hub) (i : Nat) : Nat := h.cf 12 0 (0x21 + 2 * i) 0 2
def Hub.slotNode (h : Hub) (i : Nat) : Nat := h.cf 12 0 (0x21 + 2 * i) 2 6
def Hub.slotPhy (h : Hub) (i : Nat) : Nat := h.cf 12 0 (0x21 + 2 * i) 13 1
def Hub.slotPower (h : Hub) (i : Nat) : Nat := h.cf 12 0 (0x21 + 2 * i) 14 5
/-- A slot's channel: its own, or the hop table's entry for the superframe. -/
def Hub.slotChan (h : Hub) (i : Nat) : Nat :=
  let c := h.cf 12 0 (0x21 + 2 * i) 8 5
  if c = 0 then h.cf 12 0 (0x10 + h.rd fRadSfSf % 16) 0 5 else c

def Hub.modRad (h : Hub) (f : Radio → Radio) : Hub := { h with rad := f h.rad }
def Hub.node (h : Hub) (n : Nat) : RadNode := NMap.get h.rad.node n
def Hub.modNode (h : Hub) (n : Nat) (f : RadNode → RadNode) : Hub :=
  h.modRad (fun r => { r with node := NMap.modify r.node n f })
/-- State of node `n` (1 to 48): 0 FREE, 1 ADMITTED, 2 LOST. -/
def Hub.nodeState (h : Hub) (n : Nat) : Nat := h.rd (fRadNStState (n - 1))

/-- The radio is present, in force and not under a RADIO recovery. -/
def Hub.radUp (fx : Fixed) (h : Hub) : Bool := fx.variant.hasRad && h.is fLdrStatusConfigured && !h.recovering 6 0

/-- The crystal may run: its clock gate is not off (R19). -/
def Hub.xclkOn (h : Hub) : Bool := h.cf 2 25 0 4 1 == 0

/-- A supervisor warning holds transmissions off until SUPPLY_RECOVERED (R389). -/
def Hub.supWarned (h : Hub) : Bool := h.rd fClkSupNowWarn != 0

/-- Enter a state: shown, traced and presented (R366, R256, R442). -/
def Hub.setRadState (h : Hub) (st : Nat) : Hub :=
  (((h.wr fRadStatusState st).wr fClkStatusXclkOk (b2n (st != 0))).traceState 3 0xC9 0 st).present 0x9000

def Hub.radState (h : Hub) : Nat := h.rd fRadStatusState

/-- Show whether a command runs or is held. -/
def Hub.showBusy (h : Hub) : Hub := h.wr fRadStatusBusy (b2n (h.rad.cmd.isSome || h.rad.held.isSome))

/-- Contexts fed by a node, and by one of its channels. -/
def Hub.nodeCtxs (h : Hub) (n : Nat) : List Nat :=
  ((h.usedUnits 5).filter (fun u => decide (32 ≤ u) && h.cf 5 u 0 1 3 == 3 && h.cf 5 u 1 0 8 == n)).map (fun u => u - 32)
def Hub.chanCtxs (h : Hub) (n k : Nat) : List Nat :=
  (h.nodeCtxs n).filter (fun c => h.cf 5 (32 + c) 1 8 4 == k)

/-- The next sample of each of a node's contexts carries GAP. -/
def Hub.nodeGap (h : Hub) (n : Nat) : Hub := h.modNode n (fun x => { x with gaps := h.nodeCtxs n })

/-! ### Calibrations (R373, R374) -/

/-- A signed temperature of a register byte. -/
def tempOf (b : Nat) : Int := signedOf b 8

/-- Difference of a stored calibration (temperature plus 129) to the present temperature. -/
def calDiff (h : Hub) (stored : Nat) : Nat := ((stored : Int) - 129 - tempOf (h.rd fRadTempTemp)).natAbs

/-- A stored result is due; is stale. -/
def calIsDue (h : Hub) (stored : Nat) : Bool := stored != 0 && decide (8 < calDiff h stored)
def calIsStale (h : Hub) (stored : Nat) : Bool := stored != 0 && decide (16 < calDiff h stored)

/-- Bits of a test over indices. -/
def bitsWhere (n : Nat) (p : Nat → Bool) : Nat := (List.range n).foldl (fun a i => if p i then a + 2 ^ i else a) 0

/-- Show due and stale results. -/
def Hub.showCal (h : Hub) : Hub :=
  let syn (i : Nat) : Nat := NMap.get h.rad.synth (11 + i)
  let ifs := bitsWhere 4 (fun i => calIsDue h (if i < 2 then NMap.get h.rad.filt (1 - i) else NMap.get h.rad.image (3 - i)))
  ((h.wr fRadCalDue (bitsWhere 16 (fun i => calIsDue h (syn i)))).wr fRadCalDueIf ifs).wr fRadCalstStale
    (bitsWhere 16 (fun i => calIsStale h (syn i)))

/-- A lock onto a channel runs a full calibration: no usable result is stored. -/
def Hub.lockNeedsCal (h : Hub) (c : Nat) : Bool := let t := NMap.get h.rad.synth c; t == 0 || calIsStale h t

/-! ### Transitions (R366, R367) -/

/-- The states still to pass to reach `target` on channel `c`. -/
def Hub.radPath (h : Hub) (target c : Nat) : List Nat :=
  let st := h.radState
  if target = 0 then (if st = 0 then [] else if st = 1 then [0] else [1, 0])
  else if target = 1 then (if st = 1 then [] else [1])
  else
    let lock := if h.lockNeedsCal c then [2, 3] else [3]
    let last := if target = 3 then [] else [target]
    if st = 0 then 1 :: lock ++ last
    else if 3 ≤ st ∧ h.rad.chan = c then (if st = target then [] else last)
    else lock ++ last

/-- Set out for a state; a stale result forces a calibration (R374). -/
def Hub.radGoto (h : Hub) (target c : Nat) : Hub :=
  let p := h.radPath target c
  let stale := p.contains 2 && calIsStale h (NMap.get h.rad.synth c)
  (if stale then h.on fRadStatusCalForced else h).modRad (fun r => { r with path := p, goal := c })

/-- A command ends on its way: a lock under way goes on to SYNTH, and nothing else does (R376). -/
def Radio.lockOnly (r : Radio) : Radio :=
  { r with path := if r.path.contains 3 then r.path.filter (fun st => decide (st < 4)) else [] }

/-- RFSW_TX: high from the start of SYNTH-to-TX until the end of TX (spec/14). -/
def Hub.rfswTx (h : Hub) : Bool := h.radState == 5 || h.rad.path.head? == some 5

/-! ### The end of transmit commands (R377, R386) -/

/-- TX_ABORT of a command: shown, counted and presented. -/
def Hub.abortShown (h : Hub) (c : RadCmd) (reason : Nat) : Hub :=
  (((h.on fRadStatusTxAbort).wr fRadAbortReason reason).countSat fRadAbortCount 1).present c.abortProducer

/-- TX_ABORT of the running command. -/
def Hub.txAbort (h : Hub) (reason : Nat) : Hub :=
  match h.rad.cmd with
  | some c =>
    if c.op ≠ 3 then h
    else
      let h2 := h.abortShown c reason
      let h3 := if reason = 4 then h2.fault 0x61 0 0xC9 (w32 c.node) 0#32 else h2
      h3.modRad (fun r => { r.lockOnly with cmd := none })
  | none => h

/-- The transceiver is left in SYNTH when a command ends in RX or TX. -/
def Hub.toSynth (h : Hub) : Hub := if 4 ≤ h.radState then h.setRadState 3 else h

/-- Lateness of the first symbol against t_s (R376). -/
def Hub.txLateness (h : Hub) (c : RadCmd) : Hub :=
  match c.start with
  | some t =>
    -- TX is reached at the start time at the earliest, so a later value is lateness
    if t < h.radNow then (h.on fRadStatusTxLate).wr fRadLateLate (satTo 32 ((h.radNow - t) / 65536)) else h
  | none => h

/-- The octets of a frame on air (R370, R371). -/
def Hub.airOctets (h : Hub) (phy : Nat) (p : List Byte) : List Byte :=
  if phy = 1 then
    let l := BitVec.ofNat 8 p.length :: p
    let c := crc16 l
    [0xAA#8, 0xAA#8] ++ (wordBytes (h.cell 12 0 3)).reverse ++ l ++ [c.extractLsb' 8 8, c.extractLsb' 0 8]
  else
    let c := fcs16 p
    [0#8, 0#8, 0#8, 0#8, 0xA7#8, BitVec.ofNat 8 (p.length + 2)] ++ p ++ [c.extractLsb' 0 8, c.extractLsb' 8 8]

/-- The first symbol of a frame leaves: a freshly adjusted amplifier, the frame's octets, its power (R372). -/
def Hub.txFirst (h : Hub) (c : RadCmd) : Hub :=
  let r := h.takeFree
  ((r.2.wr fRadPwrComp r.1).modRad (fun x => { x with
    air := h.airOctets c.phy c.bytes, dbm := (min c.power 30 : Nat) - (20 : Int) })).txLateness c

/-- What a command does when its state is reached: SLEEP and STANDBY end; RX listens; TX sends; CAL waits for its step. Answers
whether the command has ended. -/
def Hub.radArrive (h : Hub) (c : RadCmd) : Bool × Hub :=
  if c.op ≤ 1 then (true, h.modRad (fun r => { r with cmd := none }))
  else if c.op = 2 then (false, if c.tdma then h else h.modRad (fun r => { r with rx := 50 }))
  else if c.op = 3 then (false, h.txFirst c)
  else (false, h)

/-- The state a command needs. -/
def cmdTarget (c : RadCmd) : Nat :=
  if c.op = 0 then 0 else if c.op = 1 then 1 else if c.op = 2 then 4 else if c.op = 3 then 5 else if c.step = 0 then 2 else 1

/-- Start a command; a transmission under a supervisor warning ends at once (R389). Answers whether it ended. -/
def Hub.radBegin (h : Hub) (c : RadCmd) : Bool × Hub :=
  let h1 := h.modRad (fun r => { r with cmd := some c, phy := if c.op = 2 ∨ c.op = 3 then c.phy else r.phy })
  if c.op = 3 && h1.supWarned then (true, h1.txAbort 2)
  else if c.op = 4 then (false, if c.step = 0 then (if h1.radState = 0 then h1.radGoto 1 c.chan else h1) else h1.radGoto 1 c.chan)
  else
    let h2 := h1.radGoto (cmdTarget c) c.chan
    if h2.rad.path.isEmpty then h2.radArrive c else (false, h2)

/-- A transceiver without anything to do rests: in SLEEP in mode OFF, between superframes in `idle_state` (R366, R379). -/
def Hub.radRest (h : Hub) : Hub :=
  if h.rad.cmd.isSome || h.rad.cal.isSome || !h.rad.path.isEmpty || h.rad.sfOn then h
  else if h.rad.mode = 0 then h.radGoto 0 0
  else if h.rad.mode = 2 then h.radGoto (if h.cf 12 0 0 3 1 = 1 then 0 else 1) 0
  else h

/-- The running command has ended: the held one starts. -/
def Hub.radNext (h : Hub) : Hub :=
  match h.rad.held with
  | some c =>
    let r := (h.modRad (fun r => { r with held := none, cmd := none })).radBegin c
    r.2.showBusy
  | none => (h.modRad (fun r => { r with cmd := none })).showBusy.radRest

/-- A command reaches the sequencer: it starts, is held behind the running one, a calibration step or a lock, or is refused. -/
def Hub.radSubmit (h : Hub) (c : RadCmd) : Hub :=
  if h.rad.cmd.isNone && h.rad.cal.isNone && !h.rad.path.contains 3 then
    let r := h.radBegin c
    if r.1 then r.2.radNext else r.2.showBusy
  else if h.rad.held.isNone then (h.modRad (fun r => { r with held := some c })).showBusy
  else h.on fRadStatusCmdRefused

/-! ### rad.cmd (R368, R392) -/

/-- The command of a `rad.cmd` word. -/
def Hub.cmdOfWord (h : Hub) (op : Nat) (w : Word) : RadCmd :=
  let len := h.rd fRadTxLenTxLen
  let bytes := ((List.range 64).flatMap (fun k => (wordBytes (h.reg (rRadTxbuf k))).reverse)).take len
  let sec := h.radNow / 65536000000000 / 2 ^ 32
  let ts := ofTimeWords sec (h.reg (rRadCmdT 0)).toNat (h.reg (rRadCmdT 1)).toNat (fieldOf (h.reg (rRadCmdT 2)) 16 16)
  { (default : RadCmd) with
    op := op, chan := fieldOf w 21 5, phy := fieldOf w 26 1, power := fieldOf w 16 5, step := fieldOf w 12 4
    start := if bitOf w 27 then some ts else none, bytes := bytes }

/-- The channel of a command lies outside 11 to 26 where it needs one (R369). -/
def badChan (c : RadCmd) : Bool :=
  (c.op == 2 || c.op == 3 || (c.op == 4 && c.step == 0)) && (decide (c.chan < 11) || decide (26 < c.chan))

/-- A frame length or a calibration step outside its range (R392): such a command is refused as one for a channel outside 11 to 26 is
(DESIGN CHOICE, log entry 115). -/
def badCmd (c : RadCmd) (len : Nat) : Bool :=
  (c.op == 3 && (len == 0 || (c.phy == 0 && decide (125 < len)))) || (c.op == 4 && decide (2 < c.step))

/-- A `rad.cmd` write of an op other than ABORT. -/
def Hub.radCmd (fx : Fixed) (h0 : Hub) (op : Nat) (w : Word) : Hub :=
  let h := h0.setReg rRadCmd (putField w 31 1 0 &&& 0x7FFFF000#32)
  let c := h.cmdOfWord op w
  if !h.radUp fx || h.rad.mode ≠ 1 || badChan c || badCmd c (h.rd fRadTxLenTxLen) then h.on fRadStatusCmdRefused else h.radSubmit c

/-- ABORT ends the running command and discards the held one. -/
def Hub.radAbort (fx : Fixed) (h0 : Hub) (w : Word) : Hub :=
  let h := h0.setReg rRadCmd (putField w 31 1 0 &&& 0x7FFFF000#32)
  if !h.radUp fx || h.rad.mode ≠ 1 then h.on fRadStatusCmdRefused
  else
    let h1 := (h.txAbort 5).modRad (fun r => { r.lockOnly with cmd := none, held := none, rx := 0 })
    (h1.toSynth).showBusy

/-- RAD_CMD_SLEEP. -/
def execRadCmdSleep (w : Word) (s : State) : Out :=
  liftHub s (fun fx h => h.atReg fx s.met .rad 0x1E000C (fun h => h.radCmd fx 0 w))
/-- RAD_CMD_STANDBY. -/
def execRadCmdStandby (w : Word) (s : State) : Out :=
  liftHub s (fun fx h => h.atReg fx s.met .rad 0x1E000C (fun h => h.radCmd fx 1 w))
/-- RAD_CMD_RX. -/
def execRadCmdRx (w : Word) (s : State) : Out :=
  liftHub s (fun fx h => h.atReg fx s.met .rad 0x1E000C (fun h => h.radCmd fx 2 w))
/-- RAD_CMD_TX. -/
def execRadCmdTx (w : Word) (s : State) : Out :=
  liftHub s (fun fx h => h.atReg fx s.met .rad 0x1E000C (fun h => h.radCmd fx 3 w))
/-- RAD_CMD_CAL. -/
def execRadCmdCal (w : Word) (s : State) : Out :=
  liftHub s (fun fx h => h.atReg fx s.met .rad 0x1E000C (fun h => h.radCmd fx 4 w))
/-- RAD_CMD_ABORT. -/
def execRadCmdAbort (w : Word) (s : State) : Out :=
  liftHub s (fun fx h => h.atReg fx s.met .rad 0x1E000C (fun h => h.radAbort fx w))

/-! ### RADIO_STATE_REACHED -/

/-- A lock that calibrated stores its result. -/
def Hub.storeSynth (h : Hub) (c : Nat) : Hub :=
  (h.modRad (fun r => { r with synth := NMap.set r.synth c (tempOf (h.rd fRadTempTemp) + 129).toNat })).showCal

/-- The transition in progress reaches its next state; a timed transmission reaches TX at its start time at the earliest. -/
def Hub.radReached (h : Hub) : Hub :=
  match h.rad.path with
  | [] => h
  | st :: rest =>
    let was := h.radState
    let c := h.rad.cmd.getD default
    let h0 := match c.start with
      | some t => if st = 5 then h.reachDue h.radTb t else h
      | none => h
    let ch := h.rad.goal
    let h1 := (h0.modRad (fun r => { r with path := rest, chan := if st = 3 then ch else r.chan })).setRadState st
    let h2 := if was = 2 ∧ st = 3 then h1.storeSynth ch else h1
    if rest.isEmpty then
      match h2.rad.cmd with
      | some c =>
        let r := h2.radArrive c
        if r.1 then r.2.radNext else r.2
      | none => h2.radNext
    else h2

/-- RADIO_STATE_REACHED. -/
def execRadioStateReached (s : State) : Out :=
  liftHub s (fun fx h => if h.radUp fx && h.xclkOn then h.radReached else h)

/-! ### Ends of transmissions -/

/-- The node whose buffer a transmission carried has been served: `sent` and its producer (R386). -/
def Hub.txDone (h : Hub) (c : RadCmd) : Hub :=
  if c.node = 0 then h
  else
    let h1 := if c.alarm = 0 then
        ((h.on (fRadNDctlSent (c.node - 1))).off (fRadNDctlReady (c.node - 1))).modNode c.node (fun x => { x with want := false })
      else h.setPend 2 ((NMap.get h.flt.pend 2).filter (fun a => a.key + 1 != c.alarm))
    h1.present (0x9100 + c.node)

/-- TX_COMPLETE: the frame has been sent. -/
def Hub.txComplete (h : Hub) : Hub :=
  match h.rad.cmd with
  | some c =>
    if c.op = 3 ∧ h.radState = 5 then
      let h1 := h.txDone c
      let h2 := if c.beacon then h1.modRad (fun r => { r with entrant := r.answer.map Prod.snd, answer := none }) else h1
      (h2.modRad (fun r => { r with cmd := none })).toSynth.radNext
    else h
  | none => h

/-- TX_COMPLETE. -/
def execTxComplete (s : State) : Out := liftHub s (fun fx h => if h.radUp fx then h.txComplete else h)

/-- A command held for 250 µs whose channel the transceiver has not locked on ends. -/
def Hub.heldNoLock (h : Hub) : Hub :=
  match h.rad.held with
  | some c =>
    if c.op = 3 ∧ (h.radState < 3 ∨ h.rad.chan ≠ c.chan) then ((h.abortShown c 1).modRad (fun r => { r with held := none })).showBusy else h
  | none => h

/-- TX_NO_LOCK: 250 µs without a lock; the lock itself continues. -/
def Hub.noLock (h : Hub) : Hub :=
  match h.rad.cmd with
  | some c => if c.op = 3 ∧ h.radState ≠ 5 ∧ h.rad.path.contains 3 then (h.txAbort 1).radNext else h.heldNoLock
  | none => h.heldNoLock

/-- TX_NO_LOCK. -/
def execTxNoLock (s : State) : Out := liftHub s (fun fx h => if h.radUp fx then h.noLock else h)

/-- SYNTH_LOCK_LOST during a transmission. -/
def execSynthLockLost (s : State) : Out :=
  liftHub s (fun fx h =>
    if h.radUp fx && h.radState == 5 then (h.txAbort 4).toSynth.radNext else h)

/-- A transmission ends for the supply (R389). -/
def Hub.radSupply (h : Hub) : Hub :=
  match h.rad.cmd with
  | some c => if c.op = 3 then (h.txAbort 2).toSynth.radNext else h
  | none => h

/-! ### Calibration steps (R373, R375) -/

/-- µs of a step. -/
def calMicros (kind : Nat) : Nat := if kind = 0 then 180 else if kind = 1 then 120 else 60

/-- µs in units of 2^-16 ns. -/
def microUnits (n : Nat) : Nat := n * 65536000

/-- A channel is one of the plan's; a PHY mode is in use in it. -/
def Hub.planChan (h : Hub) (c : Nat) : Bool :=
  (List.range h.slotCount).any (fun i =>
    let x := h.cf 12 0 (0x21 + 2 * i) 8 5
    x == c || (x == 0 && (List.range 16).any (fun k => h.cf 12 0 (0x10 + k) 0 5 == c)))
def Hub.planPhy (h : Hub) (m : Nat) : Bool := (List.range h.slotCount).any (fun i => h.slotPhy i == m)

/-- The lowest due step of a kind: SYNTH by channel, IMAGE and FILTER by mode; in mode TDMA of the plan's channels and modes. -/
def Hub.dueStep (h : Hub) (kind : Nat) : Option Nat :=
  let all := h.rad.mode != 2
  if kind = 0 then (List.range 27).find? (fun c => decide (11 ≤ c) && calIsDue h (NMap.get h.rad.synth c) && (all || h.planChan c))
  else [0, 1].find? (fun m => calIsDue h (NMap.get (if kind = 1 then h.rad.image else h.rad.filt) m) && (all || h.planPhy m))

/-- The next due step: SYNTH before IMAGE before FILTER. -/
def Hub.nextStep (h : Hub) : Option (Nat × Nat) := [0, 1, 2].findSome? (fun k => (h.dueStep k).map (fun i => (k, i)))

/-- The plan needs the transceiver in a slot: not for a node that is not ADMITTED. -/
def Hub.slotNeeded (h : Hub) (i : Nat) : Bool := h.slotKind i == 0 || h.slotKind i == 3 || h.nodeState (h.slotNode i) == 1

/-- A slot's offset and end, in µs from the superframe start. -/
def Hub.slotOff (h : Hub) (i : Nat) : Nat := h.cf 12 0 (0x20 + 2 * i) 0 16
def Hub.slotLen (h : Hub) (i : Nat) : Nat := h.cf 12 0 (0x20 + 2 * i) 16 16
def Hub.slotStop (h : Hub) (i : Nat) : Nat := h.slotOff i + h.slotLen i

/-- The superframe's period on the radio timebase: that of the trigger whose target is 0x31, in units of 2^-16 ns. -/
def Hub.sfPeriod (h : Hub) : Nat :=
  match (List.range 32).find? (fun g => (List.range 4).any (fun i => h.cf 10 16 (0x25 + 6 * g) (8 * i) 8 == 0x31)) with
  | some g => h.cf 10 16 (0x21 + 6 * g) 0 32 * 65536 + h.cf 10 16 (0x22 + 6 * g) 16 16
  | none => 0

/-- When a step of `micros` µs may start in the free window after the slot last acted on: 5 µs after the slot and early enough to
leave 54 µs before the next slot the plan needs. -/
def Hub.freeStart (h : Hub) (micros : Nat) : Option Nat :=
  match ((List.range (min h.rad.slot h.slotCount)).filter h.slotNeeded).getLast? with
  | none => none
  | some p =>
    let at_ := max h.radNow (h.rad.sfTime + microUnits (h.slotStop p + 5))
    let next := match (List.range h.slotCount).find? (fun i => decide (h.rad.slot ≤ i) && h.slotNeeded i) with
      | some i => h.rad.sfTime + microUnits (h.slotOff i)
      | none => h.rad.sfTime + h.sfPeriod + microUnits (h.slotOff 0)
    if at_ + microUnits (micros + 54) ≤ next then some at_ else none

/-- A step starts: the one `rad.cmd` asks for, or the next due one in a free window with room, or in STANDBY with `auto_cal`. -/
def Hub.calStart (h : Hub) (kind : Nat) : Hub :=
  if h.rad.cal.isSome || decide (2 < kind) then h
  else
    let go (h : Hub) (i : Nat) : Hub :=
      (h.modRad (fun r => { r with cal := some (kind, i), calAt := h.radNow, path := [] })).setRadState (if kind = 0 then 2 else 1)
    match h.rad.cmd with
    | some c => if c.op = 4 ∧ c.step = kind ∧ h.rad.path.isEmpty then go h (if kind = 0 then c.chan else c.phy) else h
    | none =>
      match h.nextStep with
      | some (k, i) =>
        if k ≠ kind then h
        else if h.rad.mode = 1 then (if h.radState = 1 ∧ h.is fRadCtlAutoCal = true then go h i else h)
        else if h.rad.mode = 2 ∧ h.rad.rx = 0 ∧ h.radState ≠ 5 then
          match h.freeStart (calMicros kind) with
          | some t => go (h.reachDue h.radTb t) i
          | none => h
        else h
      | none => h

/-- In mode TDMA the transceiver makes ready for the next slot the plan needs, or rests. -/
def Hub.radReady (h : Hub) : Hub :=
  if h.rad.mode = 2 ∧ h.rad.sfOn = true ∧ h.rad.cmd.isNone ∧ h.rad.cal.isNone ∧ h.radState < 4 ∧ h.rad.path.isEmpty then
    match (List.range h.slotCount).find? (fun i => decide (h.rad.slot ≤ i) && h.slotNeeded i) with
    | some i => h.radGoto 3 (h.slotChan i)
    | none => h
  else h

/-- RADIO_CAL_STEP_START. -/
def execRadioCalStepStart (step : Fin 16) (s : State) : Out :=
  liftHub s (fun fx h => if h.radUp fx && h.xclkOn then h.calStart step else h)

/-- A step completes when its airtime has passed: its result is stored with the die temperature; SYNTH leaves the synthesiser locked; a
held command goes on. -/
def Hub.calDone (h0 : Hub) (temp : BitVec 8) : Hub :=
  let hT := h0.wr fRadTempTemp temp.toNat
  match hT.rad.cal with
  | none => hT.showCal
  | some (kind, i) =>
    let h := hT.reachDue hT.radTb (hT.rad.calAt + microUnits (calMicros kind))
    let v := (temp.toInt + 129).toNat
    let h1 := h.modRad (fun r => { r with
      cal := none, chan := if kind = 0 then i else r.chan
      synth := if kind = 0 then NMap.set r.synth i v else r.synth
      image := if kind = 1 then NMap.set r.image i v else r.image
      filt := if kind = 2 then NMap.set r.filt i v else r.filt })
    let h2 := (((if kind = 0 then h1.setRadState 3 else h1).on fRadStatusCalDone).countSat fRadSfcntCal 1).showCal
    h2.radNext.radReady

/-- RADIO_CAL_STEP_DONE. -/
def execRadioCalStepDone (temp : BitVec 8) (s : State) : Out :=
  liftHub s (fun fx h => if h.radUp fx then h.calDone temp else h)

/-- XCLK_OSCILLATOR_STEP: half a ppm of trim, never in RX or TX. -/
def execXclkOscillatorStep (up : Bool) (s : State) : Out :=
  liftHub s (fun fx h =>
    if h.radUp fx && h.radState != 0 && decide (h.radState < 4) then
      h.modRad (fun r => { r with xtrim := if up then r.xtrim + 1 else r.xtrim - 1 })
    else h)

/-! ### Superframes (R378, R379, R381) -/

/-- Octets of a number, most significant first. -/
def octets (n len : Nat) : List Byte := (List.range len).map (fun i => BitVec.ofNat 8 (n / 256 ^ (len - 1 - i)))

/-- The beacon's payload; the content of its flags octet is open. -/
def Hub.beaconBytes (h : Hub) (flags : Nat) : List Byte :=
  let t := timeWords h.rad.sfTime
  let ans := match h.rad.answer with
    | some (id, n) => octets id.toNat 4 ++ octets n 1
    | none => octets 0 5
  octets 1 1 ++ octets flags 1 ++ octets (h.rd fRadSfSf) 4 ++ octets (recWord t 1).toNat 4 ++ octets (recWord t 2).toNat 4 ++ ans ++
    octets (h.cf 12 0 0 9 6 + 1) 1 ++ (List.range 48).map (fun i => BitVec.ofNat 8 (h.rd (fRadNStSeq i)))

/-- Close the superframe that ends: a transmission is aborted with SLOT_END, a reception cut; a node whose UP slots yielded no
accepted frame has missed one more. -/
def Hub.sfEnd (h : Hub) : Hub :=
  if !h.rad.sfOn then h
  else
    let h1 := match h.rad.cmd with
      | some c => if c.op = 3 then (h.txAbort 3).toSynth.radNext else h
      | none => h.toSynth
    let ups := dedup ((List.range h1.slotCount).filterMap (fun i =>
      if h1.slotKind i = 1 ∧ h1.nodeState (h1.slotNode i) = 1 then some (h1.slotNode i) else none))
    ups.foldl (fun a n => a.modNode n (fun x => { x with miss := if h1.rad.heard.contains n then 0 else x.miss + 1 }))
      (h1.modRad (fun r => { r with rx := 0, sfOn := false }))

/-- The mode in `rad.ctl` takes effect (R390): another mode ends a superframe, and the transceiver rests as its new mode has it. -/
def Hub.radMode (h : Hub) : Hub :=
  let m := if h.radHeld then 0 else h.rd fRadCtlMode
  if m = h.rad.mode then h
  else
    let h1 := (h.sfEnd).modRad (fun r => { r with mode := m })
    (if h1.rad.cmd.isNone && h1.rad.cal.isNone then h1.toSynth else h1).radRest

/-- A superframe starts with index `k` at the start edge's time on the radio timebase. -/
def Hub.sfStart (fx : Fixed) (h0 : Hub) (k : Nat) : Hub :=
  if !fx.variant.hasRad then h0
  else if h0.recovering 6 0 then (h0.on fRadStatusSfMissed).countSat fRadSfcntMissed 1
  else
    let h := (h0.sfEnd).radMode
    if h.rad.mode ≠ 2 then h
    else
      let t := h.radNow
      let h1 := match h.rad.entrant with
        | some n => (h.wr (fRadNStState (n - 1)) 1).modNode n (fun x => { x with miss := 0, heard := false })
        | none => h
      let h2 := (h1.wr fRadSfSf k).modRad (fun r => { r with
        sfOn := true, sfTime := t, sfCyc := h.cyc, slot := 0, rx := 0, heard := [], entrant := none
        starts := NMap.set r.starts (k % 65536) (t + 1) })
      let h3 := if h2.rad.cmd.isNone && h2.rad.cal.isNone then h2.radGoto 3 (h2.slotChan 0) else h2
      h3.present 0x9400

/-- The transceiver reaches a slot's channel in time: it is locked, on that channel or with a usable result for it. -/
def Hub.slotLocked (h : Hub) (c : Nat) : Bool :=
  decide (3 ≤ h.radState) && h.rad.cal.isNone && (h.rad.chan == c || !h.lockNeedsCal c)

/-- A transmission of a slot. -/
def Hub.slotTx (h : Hub) (i node alarm : Nat) (beacon : Bool) (bytes : List Byte) : Hub :=
  let c : RadCmd := { (default : RadCmd) with
    op := 3, node := node, alarm := alarm, beacon := beacon, tdma := true, chan := h.slotChan i, phy := h.slotPhy i
    power := h.slotPower i, bytes := bytes }
  -- the sequencer began its transition ahead of the slot, which the loader's gaps allow (R380)
  let h1 := if h.slotLocked c.chan ∧ h.rad.cmd.isNone ∧ ¬h.supWarned then
      (h.modRad (fun r => { r with chan := c.chan, path := [] })).setRadState 5 else h
  h1.radSubmit c

/-- A reception of a slot opens; a channel without a usable result is locked with a full calibration first. -/
def Hub.slotRx (h : Hub) (i who : Nat) : Hub :=
  if h.rad.cmd.isSome || h.rad.cal.isSome then h
  else
    let h1 := h.modRad (fun r => { r with rx := who, phy := h.slotPhy i })
    if h.slotLocked (h.slotChan i) then (h1.modRad (fun r => { r with chan := h.slotChan i, path := [] })).setRadState 4
    else if h.rad.path.contains 3 && h.rad.goal == h.slotChan i then h1.modRad (fun r => { r with path := r.path ++ [4] })
    else h1.radGoto 4 (h.slotChan i)

/-- A CMD frame. -/
def cmdFrame (node : Nat) (p : List Byte) : List Byte := octets 3 1 ++ octets node 1 ++ octets p.length 1 ++ p

/-- The octets of a node's downlink buffer. -/
def Hub.downBytes (h : Hub) (n : Nat) : List Byte :=
  ((List.range 16).flatMap (fun k => (wordBytes (h.reg (rRadNDtx (n - 1) k))).reverse)).take (h.rd (fRadNDctlLen (n - 1)))

/-- The oldest alarm waiting for a node. -/
def Hub.nodeAlarm (h : Hub) (n : Nat) : Option AlarmSlot :=
  (NMap.get h.flt.pend 2).find? (fun a => h.nodeOf 6 (fieldOf (recWord a.words 0) 16 8) == some n)

/-- A DOWN slot: the node's buffer, or the oldest waiting alarm record on a token of the RADIO bucket. -/
def Hub.downSlot (h : Hub) (i n : Nat) : Hub :=
  if h.nodeState n ≠ 1 then h
  else if (h.node n).want then h.slotTx i n 0 false (cmdFrame n (h.downBytes n))
  else if h.cf 12 n 1 8 1 = 1 ∧ 0 < h.bkTokens 5 then
    match h.nodeAlarm n with
    | some a => (h.bkTake 5).slotTx i n (a.key + 1) false (cmdFrame n (a.words.flatMap (fun w => octets w.toNat 4)))
    | none => h
  else h

/-- Time reaches `n` µs of the running superframe. -/
def Hub.sfReach (h : Hub) (n : Nat) : Hub := h.reachDue h.radTb (h.rad.sfTime + microUnits n)

/-- SLOT_ACTION: the slot timer reaches the next slot of the plan. -/
def Hub.slotAction (h : Hub) : Hub :=
  let i := h.rad.slot
  if !h.rad.sfOn || decide (h.slotCount ≤ i) then h
  else
    let h1 := (h.sfReach (h.slotOff i)).modRad (fun r => { r with slot := i + 1 })
    let k := h1.slotKind i
    if k = 0 then
      let r := h1.takeFree
      r.2.slotTx i 0 0 true (r.2.beaconBytes r.1)
    else if k = 1 then (if h1.nodeState (h1.slotNode i) = 1 then h1.slotRx i (h1.slotNode i) else h1)
    else if k = 2 then h1.downSlot i (h1.slotNode i)
    else h1.slotRx i 49

/-- SLOT_ACTION. -/
def execSlotAction (s : State) : Out := liftHub s (fun fx h => if h.radUp fx then h.slotAction else h)

/-- The reception of a slot closes. -/
def Hub.closeRx (h : Hub) : Hub :=
  if h.rad.rx = 0 ∨ h.rad.rx = 50 then h else (h.modRad (fun r => { r.lockOnly with rx := 0 })).toSynth

/-- RX_WINDOW_END: no preamble began within the slot's window. -/
def execRxWindowEnd (s : State) : Out :=
  liftHub s (fun fx h =>
    if h.radUp fx then
      if h.rad.sfOn ∧ 0 < h.rad.slot ∧ 1 ≤ h.rad.rx ∧ h.rad.rx ≤ 49 then
        let i := h.rad.slot - 1
        (h.sfReach (h.slotOff i + h.cf 12 0 (0x21 + 2 * i) 19 8)).closeRx
      else h.closeRx
    else h)

/-- A transmission still in progress at its slot's end is aborted. -/
def Hub.slotCut (h : Hub) : Hub :=
  match h.rad.cmd with
  | some c => if c.op = 3 ∧ c.tdma then (h.txAbort 3).toSynth.radNext else h
  | none => h

/-- After the last slot the superframe's work is done, and the transceiver rests in `idle_state`. -/
def Hub.slotRest (h : Hub) : Hub := if h.slotCount ≤ h.rad.slot then h.sfEnd.radRest else h

/-- SLOT_END: a frame still arriving is cut, one still being sent is aborted. -/
def Hub.slotEnd (h0 : Hub) (arriving : Bool) : Hub :=
  if !h0.rad.sfOn || h0.rad.slot == 0 then h0
  else
    let h := h0.sfReach (h0.slotStop (h0.rad.slot - 1))
    let n := h.rad.rx
    (if arriving && decide (1 ≤ n) && decide (n ≤ 48) then h.countSat (fRadNCntRxCut (n - 1)) 1 else h).slotCut.closeRx.slotRest

/-- SLOT_END. -/
def execSlotEnd (arriving : Bool) (s : State) : Out := liftHub s (fun fx h => if h.radUp fx then h.slotEnd arriving else h)

/-! ### Receptions (R382 to R385) -/

/-- A number from octets, most significant first. -/
def ofOctets (bs : List Byte) : Nat := bs.foldl (fun a b => a * 256 + b.toNat) 0
def octetsAt (bs : List Byte) (i n : Nat) : Nat := ofOctets ((bs.drop i).take n)

/-- Release sample `i` of a node's buffer to the contexts of its channel. -/
def Hub.nodeRelease (h : Hub) (n i : Nat) : Hub :=
  let x := h.node n
  match x.buf[i]? with
  | none => h
  | some y =>
    let cs := h.chanCtxs n y.chan
    let h1 := h.modNode n (fun z => { z with
      buf := z.buf.eraseIdx i, last := NMap.set z.last y.chan (y.due + 1), gaps := z.gaps.filter (fun c => !cs.contains c) })
    cs.foldl (fun a c => a.ctxIngress 6 c (y.samp.addIf (x.gaps.contains c) tGap)) h1

/-- Input period of the first context of a node's channel, in units of 2^-16 ns. -/
def Hub.nodePeriod (h : Hub) (n k : Nat) : Nat :=
  match h.chanCtxs n k with
  | c :: _ => let r := h.cf 5 (32 + c) 2 0 32; if r = 0 then 0 else 65536000000000 / r
  | [] => 0

/-- A sample of a node's frame: its release time is the later of T_k + D_r and one period after the channel's last; past that time
it is LATE and released at once. -/
def Hub.nodeSample (h : Hub) (n k : Nat) (x : Samp) : Hub :=
  let y := h.node n
  if 2048 ≤ y.buf.length then
    (h.countSat (fRadNCnt2Gap (n - 1)) 1).modNode n (fun z => { z with gaps := dedup (z.gaps ++ h.chanCtxs n k) })
  else
    let mine := (y.buf.filter (fun e => e.chan == k)).map (fun e => e.due + 1)
    let prev := mine.getLastD (NMap.get y.last k)
    let base := x.time + h.cf 12 n 2 0 32 * 65536
    let due := if prev = 0 then base else max base (prev - 1 + h.nodePeriod n k)
    -- the release time has passed when the radio timebase had reached it before the present cycle
    if (due : Int) * 2 ^ 32 ≤ h.tbVal h.radTb - h.tbAdd h.radTb * 65536 then
      let h1 := (h.countSat (fRadNCnt2Late (n - 1)) 1).modNode n (fun z => { z with
        buf := z.buf ++ [{ chan := k, due := h.radNow, samp := x.add tLate }] })
      if mine.isEmpty then h1.nodeRelease n y.buf.length else h1
    else h.modNode n (fun z => { z with buf := z.buf ++ [{ chan := k, due := due, samp := x }] })

/-- The samples of an accepted DATA frame. The start of a superframe that never began is open: a free value. -/
def Hub.nodeSamples (h0 : Hub) (n : Nat) (bs : List Byte) : Hub :=
  let k := octetsAt bs 4 1
  let cnt := octetsAt bs 5 1
  let known := NMap.get h0.rad.starts (octetsAt bs 6 2)
  let r := if known = 0 then h0.takeFree else (known - 1, h0)
  let h := r.2
  let start := r.1
  let t0 := start + octetsAt bs 8 4 * 65536
  let t1 := start + octetsAt bs 12 4 * 65536
  (List.range cnt).foldl (fun a i => a.nodeSample n k
    { val := BitVec.ofNat 24 (octetsAt bs (16 + 3 * i) 3), tag := BitVec.ofNat 8 (octetsAt bs 3 1)
      time := interpTime t0 t1 i cnt }) h

/-- The payload of a DATA frame of node `n`: type, number, channel and sample count in their ranges, and every sample there (R383). Any
other frame is discarded (DEDUCED, log entry 113). -/
def isDataOf (n phy : Nat) (bs : List Byte) : Bool :=
  octetsAt bs 0 1 == 2 && octetsAt bs 1 1 == n && decide (octetsAt bs 4 1 < 16) && decide (1 ≤ octetsAt bs 5 1) &&
    decide (octetsAt bs 5 1 ≤ if phy = 1 then 79 else 36) && decide (16 + 3 * octetsAt bs 5 1 ≤ bs.length)

/-- A frame in an UP slot of node `n` (R383). -/
def Hub.dataFrame (h : Hub) (n : Nat) (f : RadFrame) : Hub :=
  if !f.fcsOk then h.countSat (fRadNCntCrc (n - 1)) 1
  else if !isDataOf n h.rad.phy f.bytes then h
  else
    let seq := octetsAt f.bytes 2 1
    let d := (seq + 256 - h.rd (fRadNStSeq (n - 1))) % 256
    let heard := (h.node n).heard
    if heard ∧ (d = 0 ∨ 128 ≤ d) then h.countSat (fRadNCntDup (n - 1)) 1
    else
      let h1 := ((h.count (fRadNCnt2Frames (n - 1)) 1).wr (fRadNStSeq (n - 1)) seq).wr (fRadNStRssi (n - 1)) f.rssi.toNat
      let h2 := (h1.modNode n (fun x => { x with heard := true })).modRad (fun r => { r with heard := r.heard ++ [n] })
      let h3 := if heard ∧ 1 < d then (h2.countSat (fRadNCntSeqGap (n - 1)) 1).nodeGap n else h2
      (h3.present (0x9300 + n)).nodeSamples n f.bytes

/-- A reception in mode MANUAL: reported unless `rx_done` is still set; the receiver then returns to SYNTH. -/
def Hub.manualFrame (h : Hub) (f : RadFrame) : Hub :=
  let h1 := if h.is fRadStatusRxDone then h
    else
      let a := ((((((h.wr fRadRxinfoCrcOk (b2n f.fcsOk)).wr fRadRxinfoMode h.rad.phy).wr fRadRxinfoChan h.rad.chan).wr
        fRadRxinfoLqi f.lqi.toNat).wr fRadRxinfoRssi f.rssi.toNat).wr fRadRxinfoLen f.bytes.length).on fRadStatusRxDone
      let t := timeWords h.radNow
      let b := ((a.setReg (rRadRxt 0) (recWord t 1)).setReg (rRadRxt 1) (recWord t 2)).setReg (rRadRxt 2) (recWord t 3)
      (List.range 64).foldl (fun c k => c.setReg (rRadRxbuf k)
        (w32 (ofOctets ((List.range 4).map (fun i => f.bytes.getD (4 * k + i) 0#8))))) b
  (h1.modRad (fun r => { r with cmd := none, rx := 0 })).toSynth.radNext

/-- RADIO_FRAME_RECEIVED. -/
def execRadioFrameReceived (f : RadFrame) (s : State) : Out :=
  liftHub s (fun fx h =>
    if !h.radUp fx || h.radState ≠ 4 then h
    else if h.rad.rx = 50 then h.manualFrame f
    else if 1 ≤ h.rad.rx ∧ h.rad.rx ≤ 48 then h.dataFrame h.rad.rx f
    else h)

/-- A JOIN frame in an ADMIT slot (R382). -/
def Hub.join (h : Hub) (f : RadFrame) : Hub :=
  if !f.fcsOk || octetsAt f.bytes 0 1 ≠ 4 then h
  else
    let id := w32 (octetsAt f.bytes 1 4)
    match (List.range 49).find? (fun n => decide (0 < n) && id != 0#32 && h.cell 12 n 0 == id) with
    | none => ((h.countSat fRadJoinUnknown 1).wr fRadJoinIdJoinId id.toNat).on fRadStatusJoinUnknown
    | some n =>
      let h1 := if h.nodeState n = 1 then
          ((h.countSat fRadJoinRejoin 1).modNode n (fun x => { x with buf := [], heard := false, miss := 0 })).nodeGap n
        else h
      if h1.rad.answer.isNone then h1.modRad (fun r => { r with answer := some (id, n) }) else h1

/-- JOIN_RECEIVED. -/
def execJoinReceived (f : RadFrame) (s : State) : Out :=
  liftHub s (fun fx h => if h.radUp fx && h.radState == 4 && h.rad.rx == 49 then h.join f else h)

/-- NODE_LOST: an admitted node has missed n_miss superframes. -/
def Hub.loseNode (h : Hub) (n : Nat) : Hub :=
  if h.nodeState n = 1 ∧ h.cf 12 n 1 0 8 ≤ (h.node n).miss then
    (((h.wr (fRadNStState (n - 1)) 2).on fRadStatusNodeLost).log 0x22 0xC9 0x93 0 n (w32 n) 0#32).nodeGap n
  else h

/-- NODE_LOST. -/
def execNodeLost (n : Fin 48) (s : State) : Out := liftHub s (fun fx h => if h.radUp fx then h.loseNode (n + 1) else h)

/-- The oldest-due sample of a node's buffer. -/
def firstDue (l : List NodeSamp) : Option Nat :=
  (l.zipIdx.foldl (fun (a : Option (NodeSamp × Nat)) p =>
    match a with
    | none => some p
    | some b => if p.1.due < b.1.due then some p else some b) none).map Prod.snd

/-- RADIO_SAMPLE_RELEASE. -/
def execRadioSampleRelease (n : Fin 48) (s : State) : Out :=
  liftHub s (fun _ h =>
    let x := h.node (n + 1)
    match firstDue x.buf with
    | some i => (h.reachDue h.radTb ((x.buf.getD i default).due)).nodeRelease (n + 1) i
    | none => h)

/-! ### Downlink requests (R386) -/

/-- A node has a DOWN slot in the plan. -/
def Hub.hasDown (h : Hub) (n : Nat) : Bool := (List.range h.slotCount).any (fun i => h.slotKind i == 2 && h.slotNode i == n)

/-- `dctl.ready`, or the task in mode TDMA: sent in the next DOWN slot; refused without one. -/
def Hub.dctlReady (h : Hub) (n : Nat) : Hub :=
  if h.hasDown n then (h.on (fRadNDctlReady (n - 1))).modNode n (fun x => { x with want := true })
  else h.on (fRadNDctlNoSlot (n - 1))

/-- DCTL_READY. -/
def execDctlReady (n : Fin 48) (s : State) : Out :=
  liftHub s (fun fx h => h.atReg fx s.met .rad (0x1E108C + 0x80 * n) (fun h => if h.radUp fx then h.dctlReady (n + 1) else h))

/-- The task "send a radio frame": in mode MANUAL an untimed command on the manual channel and mode. -/
def Hub.sendTask (h : Hub) (n : Nat) : Hub :=
  if h.rad.mode = 1 then
    let c : RadCmd := { (default : RadCmd) with
      op := 3, node := n, chan := h.cf 12 0 2 0 5, phy := h.cf 12 0 2 5 1, power := h.cf 12 0 2 6 5
      bytes := cmdFrame n (h.downBytes n) }
    if badChan c then h.on fRadStatusCmdRefused else h.radSubmit c
  else h.dctlReady n

/-- RADIO_HANG: a command that has not ended 2 ms after it began (R440). -/
def execRadioHang (s : State) : Out :=
  liftHub s (fun fx h =>
    if h.radUp fx && h.rad.cmd.isSome then h.faultRec fx 0x60 6 0 0xC9 0#32 0#32 else h)

/-! ### The wake receiver (R387, R388) -/

/-- The receiver listens and the address is its own, or the broadcast it accepts. -/
def Hub.wakeMine (fx : Fixed) (h : Hub) (addr : BitVec 16) : Bool :=
  fx.variant.hasRad && h.is fRadWakeEn && (addr.toNat == h.rd fRadWakeAddr || (addr == 0xFFFF#16 && h.is fRadWakeBcastOk))

/-- An accepted telegram: counted, flagged and presented. -/
def Hub.wakeHit (h : Hub) : Hub := ((h.countSat fRadWakeCntHits 1).on fRadStatusWakeHit).present 0x9500

/-- WAKE_TELEGRAM_BAD: its CRC fails. -/
def execWakeTelegramBad (s : State) : Out :=
  liftHub s (fun fx h => if fx.variant.hasRad && h.is fRadWakeEn then h.countSat fRadWakeCntCrcBad 1 else h)

/-- WAKE_CMD_OTHER: ignored and counted. -/
def execWakeCmdOther (addr : BitVec 16) (s : State) : Out :=
  liftHub s (fun fx h => if h.wakeMine fx addr then h.wakeHit.countSat fRadWakeCntCmdBad 1 else h)

/-- WAKE_CMD_HOST: the wake bit of the host (R77). -/
def execWakeCmdHost (addr : BitVec 16) (s : State) : Out :=
  liftHub s (fun fx h => if h.wakeMine fx addr then h.wakeHit.wr fGlbWakePend (h.rd fGlbWakePend ||| 4) else h)

end Sys2Proof.Machine
end

