-- ==== Sys2Proof/Machine/TwoWire.lean ====
section
/-! DEFINITION. Two-wire controllers: polls, host transfers, bus errors and bus clears (spec/05). -/

namespace Sys2Proof.Machine
open Sys2Proof

/-! ### Cells and state (R138, R139) -/
def Hub.twEntries (h : Hub) (c : Nat) : Nat := h.cf 4 c 1 0 5
def Hub.twTb (h : Hub) (c : Nat) : Nat := h.cf 4 c 1 8 5
def Hub.twRetries (h : Hub) (c e : Nat) : Nat := h.cf 4 c (0x10 + 8 * e) 15 2
def Hub.twReads (h : Hub) (c e : Nat) : Nat := h.cf 4 c (0x10 + 8 * e) 10 4

/-- Controller states. -/
def twIdle : Nat := 0
def twBusy : Nat := 1
def twClear : Nat := 2
def twStuck : Nat := 3
def Hub.twState (h : Hub) (c : Nat) : Nat := h.rd (fTwCCtlState c)
def Hub.setTwState (h : Hub) (c n : Nat) : Hub := h.wr (fTwCCtlState c) n

/-- The buses sit on VDDIO4, rail 6 (R493). -/
def twRail : Nat := 6

/-- The controller's structure is in force and nothing holds it in PORT reset. -/
def Hub.twUp (h : Hub) (c : Nat) : Bool :=
  h.is fLdrStatusConfigured && h.used 4 c && !h.recovering 3 (24 + c) && !h.railHeld twRail

/-! ### Samples (R124, R126, R127, R129) -/

/-- Contexts of an entry's mapped fields, in field order. -/
def Hub.twFields (h : Hub) (c e : Nat) : List Word :=
  ([h.cell 4 c (0x13 + 8 * e), h.cell 4 c (0x14 + 8 * e)]).filter (fun w => bitOf w 31)

/-- Placeholders for every field of an entry. -/
def Hub.twPlaceholders (h : Hub) (c e : Nat) (tag : BitVec 8) (time : Nat) : Hub :=
  (h.twFields c e).foldl (fun a f =>
    a.twPush c { ctx := fieldOf f 0 8, samp := { val := 0#24, tag := tag, time := time }, real := false }) h

/-- The tags a transaction's samples carry. -/
def TwoWire.tags (x : TwoWire) (dip : Bool) : BitVec 8 :=
  (if x.late then tLate else 0#8) ||| (if x.dip || dip then tDip else 0#8)

/-! ### Transactions (R125, R126, R134, R135) -/

/-- Nothing runs: the lines are released and the controller rests in a state. -/
def Hub.twRest (h : Hub) (c n : Nat) : Hub :=
  (h.modTw c (fun x => { x with kind := 0, retry := false, foreign := false, arb := false })).setTwState c n

/-- The START of an entry taken from a held start (R126): its stamp is the present time, its lateness in WCLK cycles. -/
def Hub.twLateStart (h : Hub) (c : Nat) : Hub :=
  let late := (h.cyc + 1 - (h.twc c).since) * 3 / 50
  (((h.on (fTwCStatusLate c)).countSat (fTwCLateCount c) 1).wr (fTwCLateLast c) (satTo 16 late)).modTw c
    (fun x => { x with stamp := Machine.report (h.tbVal (h.twTb c)) })

/-- An entry's transaction begins, or the bus clear that must come first when SDA is low or the controller is STUCK. A held entry's
START comes after that clear. -/
def Hub.twBegin (h : Hub) (c e since : Nat) (late sdaLow : Bool) : Hub :=
  let clear := sdaLow || h.twState c == twStuck
  let h1 := (h.modTw c (fun x => { x with
    kind := 1, entry := e, attempt := 0, late := late, since := since, stamp := Machine.report (h.tbNext (h.twTb c)), dip := false
    retry := false, foreign := false, arb := false, held := NMap.set x.held e 0 })).setTwState c (if clear then twClear else twBusy)
  if late && !clear then h1.twLateStart c else h1

/-- A start reaches a poll entry: ignored, started, held or dropped. While other entries are held it waits with them, for the
boundary serves them in ascending order (R126). -/
def Hub.twStart (h : Hub) (c e : Nat) (sdaLow : Bool) : Hub :=
  let x := h.twc c
  if !(h.twUp c && h.is (fTwCCtlEnable c)) || h.pollsHeld || h.twEntries c ≤ e then h
  else if h.is fClkStatusWclkTrim && x.kind == 0 && x.held.isEmpty && (h.twState c == twIdle || h.twState c == twStuck) then
    h.twBegin c e 0 false sdaLow
  else if NMap.get x.held e = 0 then h.setTw c { x with held := NMap.set x.held e (h.cyc + 1) }
  else ((h.on (fTwCStatusStartDrop c)).countSat (fTwCLostStarts c) 1).twPlaceholders c e tGap
    (Machine.report (h.tbNext (h.twTb c)))

/-- A start that a channel or the time unit gives: the level of SDA at its START is the board's, a free value. -/
def Hub.twStartOf (h : Hub) (c e : Nat) : Hub := let r := h.takeFree; r.2.twStart c e (r.1 % 2 == 1)

/-- TW_POLL_START. -/
def execTwPollStart (c : Fin 8) (e : Fin 16) (sdaLow : Bool) (s : State) : Out := liftHub s (fun _ h => h.twStart c e sdaLow)

/-- A boundary: nothing runs, and the trim is complete. -/
def Hub.twBoundary (h : Hub) (c : Nat) : Bool :=
  h.twUp c && h.is fClkStatusWclkTrim && (h.twc c).kind == 0 && (h.twState c == twIdle || h.twState c == twStuck)

/-- The lowest held entry runs, late. -/
def Hub.twServe (h : Hub) (c : Nat) (sdaLow : Bool) : Hub :=
  if h.twBoundary c then
    match (h.twc c).held with
    | (e, a) :: _ => h.twBegin c e a true sdaLow
    | [] => h
  else h

/-- TW_HELD_STARTS_SERVED. -/
def execTwHeldStartsServed (c : Fin 8) (sdaLow : Bool) (s : State) : Out := liftHub s (fun _ h => h.twServe c sdaLow)

/-- Four bytes as a data register holds them, byte 0 in [31:24]. -/
def dataReg (bs : List Byte) (k : Nat) : Word :=
  (bs.getD (4 * k) 0#8) ++ (bs.getD (4 * k + 1) 0#8) ++ (bs.getD (4 * k + 2) 0#8) ++ (bs.getD (4 * k + 3) 0#8)

/-- A host transfer ends with a result; of the bytes asked for, those read stand in the data registers and the others read 0 (R135,
R142). -/
def Hub.twXferEnd (h : Hub) (c result : Nat) (bytes : List Byte) : Hub :=
  let bs := bytes.take (min (h.rd (fTwCXferRcount c)) 8)
  let h1 := (h.setReg (rTwCRdata c 0) (dataReg bs 0)).setReg (rTwCRdata c 1) (dataReg bs 1)
  (((h1.wr (fTwCXferResult c) result).off (fTwCXferBusy c)).on (fTwCStatusXferDone c)).present (0x2200 + c)

/-- The running transaction fails for good: placeholders or a transfer result; the controller rests in a state. -/
def Hub.twFail (h : Hub) (c result rest : Nat) (bytes : List Byte) : Hub :=
  let x := h.twc c
  let h1 := if x.kind = 1 then
      (h.twPlaceholders c x.entry (tAborted ||| x.tags false) x.stamp).present (0x2100 + 16 * c + x.entry)
    else if x.kind = 2 then h.twXferEnd c result bytes else h
  h1.twRest c rest

/-- The bank was below warning at an edge of the transaction (R129). -/
def Hub.twDip (h : Hub) (c : Nat) (dip : Bool) : Hub := if dip then h.modTw c (fun x => { x with dip := true }) else h

/-- A transaction is on the bus. -/
def Hub.twRunning (h : Hub) (c : Nat) : Bool := h.twState c == twBusy && (h.twc c).kind != 0 && !(h.twc c).retry

/-- An attempt failed: another follows while the entry has retries; a host transfer has none (R130, R135). `foreign` says that the
retry waits for another device's STOP. -/
def Hub.twAttemptFailed (h : Hub) (c result : Nat) (foreign arb : Bool) (bytes : List Byte) (last : Hub → Hub) : Hub :=
  let x := h.twc c
  if x.kind = 1 ∧ x.attempt < h.twRetries c x.entry then
    h.setTw c { x with attempt := x.attempt + 1, retry := true, foreign := foreign, arb := arb }
  else (last h).twFail c result twIdle bytes

/-- TW_TRANSACTION_COMPLETE: the STOP of a poll or a host transfer; `bytes` are those the target sent. -/
def Hub.twComplete (h : Hub) (c : Nat) (bytes : List Byte) (dip : Bool) : Hub :=
  let x := h.twc c
  if !h.twRunning c then h
  else if x.kind = 1 then
    let n := h.twReads c x.entry
    let v := (List.range n).foldl (fun a k => 256 * a + (bytes.getD k 0#8).toNat) 0
    let tag := x.tags dip
    let h1 := (if n = 0 then [] else h.twFields c x.entry).foldl (fun a f =>
      let w := fieldOf f 17 5 + 1
      let val := fmtSample (fieldOf f 29 2) (fieldOf f 28 1 == 1) w (natField v (fieldOf f 22 6) w)
      a.twPush c { ctx := fieldOf f 0 8, samp := { val := val, tag := tag, time := x.stamp }, real := true }) h
    (h1.twRest c twIdle).present (0x2000 + 16 * c + x.entry)
  else
    (h.twXferEnd c 0 bytes).twRest c twIdle

/-- TW_TRANSACTION_COMPLETE. -/
def execTwTransactionComplete (c : Fin 8) (bytes : List Byte) (dip : Bool) (s : State) : Out :=
  liftHub s (fun _ h => h.twComplete c bytes dip)

/-- TW_NACK. -/
def Hub.twNack (h : Hub) (c : Nat) (data dip : Bool) : Hub :=
  if h.twRunning c then
    ((h.twDip c dip).countSat (fTwCErrNack c) 1).twAttemptFailed c (if data then 2 else 1) false false []
      (fun a => a.on (if data then fTwCStatusDataNack c else fTwCStatusAddrNack c))
  else h

/-- TW_NACK. -/
def execTwNack (x : TwAttempt) (dataByte : Bool) (s : State) : Out := liftHub s (fun _ h => h.twNack x.ctl dataByte x.dip)

/-- TW_RETRY: the transaction runs again, behind a bus clear when SDA is low. -/
def execTwRetry (c : Fin 8) (sdaLow : Bool) (s : State) : Out :=
  liftHub s (fun _ h =>
    if (h.twc c).retry then
      (h.modTw c (fun x => { x with retry := false, foreign := false, arb := false })).setTwState c
        (if sdaLow then twClear else twBusy)
    else h)

/-- TW_ARBITRATION_LOST. -/
def execTwArbitrationLost (x : TwAttempt) (s : State) : Out :=
  liftHub s (fun _ h =>
    if h.twRunning x.ctl then
      (((h.twDip x.ctl x.dip).on (fTwCStatusArbLost x.ctl)).countSat (fTwCErrArb x.ctl) 1).twAttemptFailed x.ctl 3 true true [] id
    else h)

/-- A bus error shows (R132). -/
def Hub.twBusErr (h : Hub) (c : Nat) : Hub := (h.on (fTwCStatusBusErr c)).countSat (fTwCErrBus c) 1

/-- TW_BUS_ERROR; `bytes` are those a read phase had read. -/
def execTwBusError (x : TwCut) (s : State) : Out :=
  liftHub s (fun _ h =>
    if h.twRunning x.ctl then ((h.twDip x.ctl x.dip).twBusErr x.ctl).twAttemptFailed x.ctl 4 true false x.bytes id else h)

/-- TW_LINE_TIMEOUT: the transaction, one that waits for a retry or behind a bus clear too, is abandoned without a retry; a bus clear
follows while SDA is still low (R133), once WCLK is trimmed (R121). A retry that waited for the winner's STOP ends with the bus
error of R132 as well (R131). -/
def Hub.twTimeout (h : Hub) (c : Nat) (sda stillLow : Bool) (bytes : List Byte) (dip : Bool) : Hub :=
  if !h.twUp c then h
  else
    let h1 := (h.on (if sda then fTwCStatusSdaLow c else fTwCStatusSclLow c)).countSat (fTwCErrTmo c) 1
    let st := h1.twState c
    let clear := stillLow && h.is fClkStatusWclkTrim
    if st = twBusy ∨ st = twClear then
      let h2 := if (h.twc c).retry && (h.twc c).arb then h1.twBusErr c else h1
      (h2.twDip c dip).twFail c 6 (if clear then twClear else twIdle) bytes
    else if st = twIdle ∧ clear then h1.setTwState c twClear
    else h1

/-- TW_LINE_TIMEOUT. -/
def execTwLineTimeout (x : TwCut) (sda stillLow : Bool) (s : State) : Out :=
  liftHub s (fun _ h => h.twTimeout x.ctl sda stillLow x.bytes x.dip)

/-- TW_BUS_CLEAR: a STOP frees the bus and what waited behind the clear runs; or the controller is STUCK (R134). -/
def Hub.twBusClear (h : Hub) (c : Nat) (freed : Bool) : Hub :=
  let x := h.twc c
  if h.twState c = twClear then
    if !freed then ((h.on (fTwCStatusStuck c)).fault 0x11 (24 + c) 0xC1 0#32 0#32).twFail c 5 twStuck []
    else if x.kind = 0 then h.setTwState c twIdle
    else
      let h1 := h.setTwState c twBusy
      if x.kind = 1 ∧ x.late = true ∧ x.attempt = 0 then h1.twLateStart c else h1
  else h

/-- TW_BUS_CLEAR. -/
def execTwBusClear (c : Fin 8) (freed : Bool) (s : State) : Out := liftHub s (fun _ h => h.twBusClear c freed)

/-! ### Host transfers and abort (R135, R139) -/

/-- A write of `tw.cN.xfer`: refused while busy, its `go` refused for more than 12 write bytes. -/
def Hub.twXferWrite (h : Hub) (c : Nat) (w : Word) : Hub :=
  if h.is (fTwCXferBusy c) then h.on (fTwCStatusXferRefused c)
  else
    let h1 := (((h.wr (fTwCXferJoin c) (fieldOf w 26 1)).wr (fTwCXferWcount c) (fieldOf w 22 4)).wr
      (fTwCXferRcount c) (fieldOf w 18 4)).wr (fTwCXferAddr c) (fieldOf w 0 7)
    if !bitOf w 31 then h1
    else if 12 < fieldOf w 22 4 then h1.on (fTwCStatusXferRefused c)
    else if h1.twState c = twStuck then h1.twXferEnd c 5 []
    else (h1.on (fTwCXferBusy c)).modTw c (fun x => { x with xferWait := true })

/-- TW_XFER_GO. -/
def execTwXferGo (c : Fin 8) (w : Word) (s : State) : Out :=
  liftHub s (fun fx h => h.atReg fx s.met .tw (0x060018 + 0x400 * c) (fun h => h.twXferWrite c w))

/-- TW_XFER_RUN: at a boundary with no held start the waiting transfer runs. -/
def Hub.twXferRun (h : Hub) (c : Nat) (sdaLow : Bool) : Hub :=
  let x := h.twc c
  if h.twBoundary c && x.held.isEmpty && x.xferWait then
    let h1 := h.setTw c { x with kind := 2, xferWait := false, retry := false, foreign := false, arb := false, dip := false, late := false }
    if h.twState c = twStuck then (h1.twXferEnd c 5 []).twRest c twStuck
    else h1.setTwState c (if sdaLow then twClear else twBusy)
  else h

/-- TW_XFER_RUN. -/
def execTwXferRun (c : Fin 8) (sdaLow : Bool) (s : State) : Out := liftHub s (fun _ h => h.twXferRun c sdaLow)

/-- TW_ABORT: a transaction in progress is abandoned and a bus clear runs. An aborted poll delivers nothing and presents no producer;
of a host transfer the spec names no result, and how many bytes it had read is the bus's: both are free values (DESIGN CHOICE, log
entry 41). -/
def Hub.twAbort (h : Hub) (c : Nat) : Hub :=
  let x := h.twc c
  if x.kind = 0 then h
  else if x.kind = 2 then
    let r := h.takeFree
    let g := r.2.takeFree
    let bs := (List.range (g.1 % 9)).map (fun i => BitVec.ofNat 8 (g.1 / 16 / 256 ^ i))
    (g.2.twXferEnd c (r.1 % 8) bs).twRest c twClear
  else h.twRest c twClear

/-- TW_ABORT. -/
def execTwAbort (c : Fin 8) (s : State) : Out :=
  liftHub s (fun fx h => h.atReg fx s.met .tw (0x060000 + 0x400 * c) (fun h => h.twAbort c))

end Sys2Proof.Machine
end

