-- ==== Sys2Proof/Machine/TimeFire.lean ====
section
/-! DEFINITION. Triggers, kitchen timer actions, steps of timebases and the global commit (spec/12 R309 to R321, spec/03 R78). -/

namespace Sys2Proof.Machine
open Sys2Proof

/-! ### Triggers (R313 to R315) -/

/-- Period and phase of a trigger in units of 2^-16 ns, and its timebase. -/
def Hub.tgPeriod (h : Hub) (g : Nat) : Nat := h.cf 10 16 (0x21 + 6 * g) 0 32 * 65536 + h.cf 10 16 (0x22 + 6 * g) 16 16
def Hub.tgPhase (h : Hub) (g : Nat) : Nat := h.cf 10 16 (0x23 + 6 * g) 0 32 * 65536 + h.cf 10 16 (0x24 + 6 * g) 16 16
def Hub.tgTb (h : Hub) (g : Nat) : Nat := h.cf 10 16 (0x20 + 6 * g) 1 5

/-- The first grid point above a value (units of 2^-48 ns), in units of 2^-16 ns. -/
def firstGrid (period phase v : Nat) : Nat :=
  if v < phase * 2 ^ 32 ∨ period = 0 then phase
  else phase + ((v - phase * 2 ^ 32) / (period * 2 ^ 32) + 1) * period

/-- Grid points above `d` (itself a grid point) at or below a value. -/
def gridAfter (period d v : Nat) : Nat := if period = 0 then 0 else (v - d * 2 ^ 32) / (period * 2 ^ 32)

/-- A trigger's next due time becomes the first grid point above its timebase's value. -/
def Hub.armTrig (h : Hub) (g : Nat) : Hub :=
  { h with trig := NMap.set h.trig g { due := firstGrid (h.tgPeriod g) (h.tgPhase g) (h.tbVal (h.tgTb g)) } }

/-- A trigger runs. -/
def Hub.tgOn (h : Hub) (g : Nat) : Bool :=
  h.is fLdrStatusConfigured && h.is (fTmTgCtlEnable g) && h.tgPeriod g != 0

/-- Fire a trigger's targets. Converter alignment and the control cycle (0x30, 0x32) arrive as commands of their own. -/
def Hub.fireTargets (fx : Fixed) (h : Hub) (g k : Nat) : Hub :=
  (List.range 4).foldl (fun a i =>
    let t := a.cf 10 16 (0x25 + 6 * g) (8 * i) 8
    if 1 ≤ t ∧ t ≤ 0x18 then
      let r := a.taskHit (0x1000 + (t - 1))
      if r.1 then r.2.portStart (t - 1) else r.2
    else if 0x20 ≤ t ∧ t ≤ 0x2F then a.trgPulse (t - 0x20)
    else if t = 0x31 then a.sfStart fx (k % 2 ^ 32)
    else if 0x80 ≤ t then
      let r := a.taskHit (0x2000 + (t - 0x80))
      if r.1 then r.2.twStartOf ((t - 0x80) / 16) ((t - 0x80) % 16) else r.2
    else a) h

/-- A whole number of nanoseconds from units of 2^-48 ns, saturating. -/
def wholeNs (v : Nat) : Nat := satTo 32 (v / nsUnits)

/-- A trigger fires at the present value: once, late when its due time was passed by a step; further grid points are missed. -/
def Hub.tgFire (fx : Fixed) (h : Hub) (g : Nat) (late : Bool) : Hub :=
  let d := (NMap.get h.trig g).due
  let v := h.tbVal (h.tgTb g)
  let n := gridAfter (h.tgPeriod g) d v
  let h1 := if late then
      ((h.on (fTmTgStLate g)).on fTmStatusTgLate).wr (fTmTgLatenessLateness g) (wholeNs (v - d * 2 ^ 32))
    else h
  let h2 := h1.countSat (fTmTgStMissed g) n
  let k := (d - h.tgPhase g) / (if h.tgPeriod g = 0 then 1 else h.tgPeriod g)
  (h2.armTrig g).fireTargets fx g (if late then k + n else k)

/-- TRIGGER_DUE: the pending due time comes on time. -/
def Hub.triggerDue (fx : Fixed) (h : Hub) (g : Nat) : Hub :=
  if h.tgOn g then
    let d := (NMap.get h.trig g).due
    let h1 := h.reachDue (h.tgTb g) d
    if d * 2 ^ 32 ≤ h1.tbVal (h1.tgTb g) then h1.tgFire fx g false else h1
  else h

/-- TRIGGER_DUE. -/
def execTriggerDue (g : Fin 32) (s : State) : Out := liftHub s (fun fx h => h.triggerDue fx g)

/-- A write of a trigger's enable; 1 is ignored while the period is 0. -/
def Hub.tgEnable (h : Hub) (g : Nat) (on : Bool) : Hub :=
  if !on then h.off (fTmTgCtlEnable g)
  else if h.tgPeriod g = 0 then h.off (fTmTgCtlEnable g)
  else if h.is (fTmTgCtlEnable g) then h
  else (h.on (fTmTgCtlEnable g)).armTrig g

/-- TRIGGER_ENABLE_WRITE. -/
def execTriggerEnableWrite (g : Fin 32) (w : Word) (s : State) : Out :=
  liftHub s (fun fx h => h.atReg fx s.met .tm (0x1C0800 + 0x10 * g) (fun h => h.tgEnable g (bitOf w 0)))

/-! ### Kitchen timer (R319 to R321) -/

/-- An action's due time and period, in units of 2^-16 ns. -/
def Hub.ktDue (h : Hub) (a : Nat) : Nat :=
  ofTimeWords (h.rd (fTmKtDueDue a 0)) (h.rd (fTmKtDueDue a 1)) (h.rd (fTmKtDueDue a 2)) (NMap.get h.kt a).frac
def Hub.ktPeriod (h : Hub) (a : Nat) : Nat := h.rd (fTmKtPer0Per0 a) * 65536 + h.rd (fTmKtPer1Frac a)
def Hub.ktTb (h : Hub) (a : Nat) : Nat := h.rd (fTmKtCtlTb a)
def Hub.ktOn (h : Hub) (a : Nat) : Bool := h.is fLdrStatusConfigured && h.is (fTmKtCtlEnable a)

/-- Store a due time. -/
def Hub.setKtDue (h : Hub) (a d : Nat) : Hub :=
  let t := timeWords d
  let h1 := ((h.setReg (rTmKtDue a 0) (recWord t 0)).setReg (rTmKtDue a 1) (recWord t 1)).setReg (rTmKtDue a 2) (recWord t 2)
  { h1 with kt := NMap.modify h1.kt a (fun x => { x with frac := d % 65536 }) }

/-- An action fires at the present value of its timebase. -/
def Hub.ktFire (h : Hub) (a : Nat) (late : Bool) : Hub :=
  let d := h.ktDue a
  let v := h.tbVal (h.ktTb a)
  let p := h.ktPeriod a
  let h1 := h.presentChan (h.rd (fTmKtCtlChan a))
  let h2 := h1.setReg (rTmKtFired (a / 32)) (h1.reg (rTmKtFired (a / 32)) ||| w32 (2 ^ (a % 32)))
  let h3 := if late then
      ((h2.on (fTmKtStLate a)).on fTmStatusKtLate).wr (fTmKtLatenessLateness a) (wholeNs (v - d * 2 ^ 32))
    else h2
  if h3.is (fTmKtCtlPeriodic a) then
    let n := gridAfter p d v
    (h3.countSat (fTmKtStMissed a) n).setKtDue a (d + (n + 1) * p)
  else h3.off (fTmKtCtlEnable a)

/-- KT_ACTION_DUE: the due time comes on time. -/
def execKtActionDue (a : Fin 256) (s : State) : Out :=
  liftHub s (fun _ h =>
    if h.ktOn a then
      let h1 := h.reachDue (h.ktTb a) (h.ktDue a)
      if h1.ktDue a * 2 ^ 32 ≤ h1.tbVal (h1.ktTb a) then h1.ktFire a false else h1
    else h)

/-- The timer considers an action for the first time, `n` cycles on: due at or before the value of the cycle before it is late,
due in that cycle it is on time. -/
def Hub.ktConsider (h : Hub) (a n : Nat) : Hub :=
  if !h.ktOn a then h
  else
    let before := (h.tickN (n - 1)).tbVal (h.ktTb a)
    let h1 := h.tickN n
    let d := h.ktDue a * 2 ^ 32
    if d ≤ before then h1.ktFire a true
    else if d ≤ h1.tbVal (h1.ktTb a) then h1.ktFire a false
    else h

/-- Words of a kitchen timer action are held until its `ctl` is written. -/
def Hub.ktHold (h : Hub) (x i : Nat) (w : Word) : Hub :=
  { h with kt := NMap.modify h.kt x (fun k => { k with
      held := NMap.insert (NMap.erase k.held i) i (if i = 4 then w &&& 0xFFFF0000#32 else w) }) }

/-- KT_HELD_WORD_WRITE. -/
def execKtHeldWordWrite (a : Fin 256) (i : Fin 5) (w : Word) (s : State) : Out :=
  liftHub s (fun fx h => h.atReg fx s.met .tm (0x1C1000 + 0x20 * a + 4 * i) (fun h => h.ktHold a i w))

/-- A write of an action's `ctl` applies the held words with it, or is refused. -/
def Hub.ktCtl (fx : Fixed) (h : Hub) (a : Nat) (w : Word) : Hub :=
  let x := NMap.get h.kt a
  let word (i : Nat) : Word := NMap.getD x.held i (h.reg (0x1C1000 + 0x20 * a + 4 * i))
  let per := (word 3).toNat * 65536 + fieldOf (word 4) 16 16
  let tb := fieldOf w 24 5
  if (bitOf w 30 && decide (per < 20 * 65536)) || decide (18 ≤ tb) || (tb == 17 && !fx.variant.hasMet) then
    (h.on (fTmKtStRefused a)).on fTmStatusKtRefused
  else
    let h1 := (List.range 5).foldl (fun b i => b.setReg (0x1C1000 + 0x20 * a + 4 * i) (word i)) h
    let fr := if x.held.any (fun e => decide (e.1 < 3)) then 0 else x.frac
    let h2 := { h1 with kt := NMap.set h1.kt a { held := [], frac := fr } }
    (h2.setReg (0x1C1014 + 0x20 * a) (w &&& 0xFF00007F#32)).ktConsider a 2

/-- KT_CTL_WRITE. -/
def execKtCtlWrite (a : Fin 256) (w : Word) (s : State) : Out :=
  liftHub s (fun fx h => h.atReg fx s.met .tm (0x1C1014 + 0x20 * a) (fun h => h.ktCtl fx a w))

/-! ### Steps (R310, R314, R321) -/

/-- A step of timebase `k` at the present edge: `v0` its value before the edge, `vn` the value the edge would have brought, `v1`
the value it brings. Triggers and actions a forward step passes fire once late; a backward one moves the triggers' next due
times. -/
def Hub.tbStepped (fx : Fixed) (h0 : Hub) (k v0 vn v1 : Nat) : Hub :=
  let h := if k = 17 then { h0 with tbMet := v1 } else { h0 with tb := NMap.modify h0.tb k (fun x => { x with val := v1 }) }
  let a1 := (List.range 32).foldl (fun a g =>
    if a.tgOn g && a.tgTb g == k then
      let d := (NMap.get a.trig g).due * 2 ^ 32
      if d ≤ v1 then (if v0 < d then a.tgFire fx g (decide (vn < d)) else a)
      else if v1 < v0 then a.armTrig g else a
    else a) h
  (List.range 256).foldl (fun a i =>
    if a.ktOn i && a.ktTb i == k then
      let d := a.ktDue i * 2 ^ 32
      if v0 < d && decide (d ≤ v1) then a.ktFire i (decide (vn < d)) else a
    else a) a1

/-- The operand of a SET, and of an ADD as a signed amount, in units of 2^-48 ns. -/
def Hub.stepOperand (h : Hub) (k : Nat) (signed : Bool) : Int :=
  let hi := (h.reg (rTmTbStep k 0)).toNat * 2 ^ 32 + (h.reg (rTmTbStep k 1)).toNat
  let sec : Int := if signed then signedOf hi 64 else hi
  sec * (secUnits : Int) + (((h.reg (rTmTbStep k 2)).toNat * 65536 + h.rd (fTmTbStep3Frac k)) * 2 ^ 32 : Nat)

/-- A requested step at the commit's edge, which has been taken: `v0` is the value before it. tb_net steps once. -/
def Hub.takeStep (fx : Fixed) (h : Hub) (k v0 : Nat) : Hub :=
  if 16 ≤ k ∧ h.is (fTmTbStepsUsed k) = true then h.on fTmStatusStepRef
  else
    let vn := h.tbVal k
    let v1 := if h.is (fTmTbCtlOp k) then (((vn : Int) + h.stepOperand k true) % (tbWrap : Int)).toNat
      else ((h.stepOperand k false) % (tbWrap : Int)).toNat
    let h1 := (h.count (fTmTbStepsSteps k) 1)
    (if k = 16 then h1.on (fTmTbStepsUsed k) else h1).tbStepped fx k v0 vn v1

/-! ### The global commit (R78, R309, R311) -/

/-- Sum of increment and slew adjustment a privileged timebase may take, in units of 2^-32 ns. -/
def rateOk (incr : Nat) (adj : Int) : Bool :=
  decide ((0x013FAE147B : Int) ≤ incr + adj) && decide ((incr : Int) + adj ≤ 0x014051EB85)

/-- Apply a staged field. A role or divider waits for the port's frame boundary. -/
def Hub.applyShadow (h : Hub) (x : Shadow) : Hub :=
  if 0x40000 ≤ x.addr ∧ x.addr < 0x60000 then
    let p := portOfAddr x.addr
    h.modPort p (fun y => if x.addr % 0x800 = 0 then { y with newRole := some x.val } else { y with newDiv := some x.val })
  else h.wr ⟨x.addr, x.lo, x.len⟩ x.val

/-- The staged rate fields of timebase `k` apply: a changed slew starts anew; a privileged timebase keeps its range. -/
def Hub.commitRate (h : Hub) (k : Nat) (xs : List Shadow) : Hub :=
  let mine := xs.filter (fun x => x.addr == rTmTbIncHi k || x.addr == rTmTbIncLo k || x.addr == rTmTbSlewAdj k || x.addr == rTmTbSlewLen k)
  if mine.isEmpty then h
  else
    let h1 := mine.foldl Hub.applyShadow h
    let adj (a : Hub) : Int := signedOf (a.rd (fTmTbSlewAdjSlewAdj k)) 32
    let slews := decide (adj h1 ≠ adj h) || h1.rd (fTmTbSlewLenSlewLen k) != h.rd (fTmTbSlewLenSlewLen k)
    let h2 := if slews then
        { h1 with tb := NMap.modify h1.tb k (fun x => { x with slewTicks := h1.rd (fTmTbSlewLenSlewLen k) * 1024 }) } else h1
    let runs := (NMap.get h2.tb k).slewTicks != 0
    if k = 16 && !(rateOk (h2.tbIncr k) (if runs then adj h2 else 0)) then h.on fTmStatusRateRef else h2

/-- A staged field of the time unit. -/
def Shadow.isTime (x : Shadow) : Bool := decide (0x1C0000 ≤ x.addr) && decide (x.addr < 0x1C0480)

/-- The unit, by section, a staged field belongs to. -/
def Shadow.unit (x : Shadow) : Nat × Nat :=
  if x.addr < 0x60000 then (3, portOfAddr x.addr) else if x.addr < 0xA0000 then (5, tileOfAddr x.addr) else (10, 0)

/-- The structure in force has what a staged field sets: its port, or a RESAMPLE or DELAY slot. -/
def Hub.shadowLives (h : Hub) (x : Shadow) : Bool :=
  if x.addr < 0x60000 then h.used 3 (portOfAddr x.addr)
  else if x.addr < 0xA0000 then
    let kind := h.cf 5 (tileOfAddr x.addr) (0x400 + (x.addr - 0x200) % 0x1000 / 16 * 16) 0 4
    kind == 4 || kind == 6
  else true

/-- Staged fields switch; `tick` TCLK edges are taken on the way, the addition of the edge already with the new increments and slews
(DEDUCED), and every requested step applies at the end. -/
def Hub.switchShadows (fx : Fixed) (h : Hub) (xs : List Shadow) (tick : Nat) : Hub :=
  let before := (List.range 17).map h.tbVal
  let h2 := (xs.filter (fun x => !x.isTime)).foldl Hub.applyShadow h
  let h3 := ((List.range 17).foldl (fun a k => a.commitRate k xs) h2).tickN tick
  let h4 := (List.range 24).foldl (fun a p =>
    if (a.port p).newRole.isSome || (a.port p).newDiv.isSome then a.stagedApply p else a) h3
  (List.range 17).foldl (fun a k =>
    if xs.any (fun x => x.addr == rTmTbCtl k && x.val == 1) then a.takeStep fx k (before.getD k 0) else a) h4

/-- A staged field waits for its unit's effect point: a loader commit was taken in this cycle and the unit is still pending. -/
def Hub.shadowWaits (h : Hub) (x : Shadow) : Bool := h.ldr.taken == h.cyc + 1 && h.ldr.todo.contains x.unit

/-- A staged field goes with its unit: the loader commit of this cycle has removed what it sets. -/
def Hub.shadowGone (h : Hub) (x : Shadow) : Bool :=
  h.ldr.taken == h.cyc + 1 && h.ldr.units.contains x.unit && !h.ldr.todo.contains x.unit && !h.shadowLives x

/-- A global commit: every staged field switches at the edge c + 1, but for those of units that a loader commit of the same cycle
leaves pending (they wait for the effect point) or has removed (they are discarded). A loader commit that comes after the global
commit is one of a later cycle (DESIGN CHOICE, log entry 86). -/
def Hub.globalCommit (fx : Fixed) (h : Hub) : Hub :=
  let xs := h.host.shadows
  let h1 := { h with host := { h.host with shadows := [], after := h.host.after ++ xs.filter h.shadowWaits } }
  h1.switchShadows fx (xs.filter (fun x => !h.shadowWaits x && !h.shadowGone x)) 1

/-- A unit has reached its effect point: its staged fields that waited for it switch, those of what the load removes go (R78). -/
def Hub.shadowsAfter (fx : Fixed) (h : Hub) (sect unit : Nat) : Hub :=
  let mine := h.host.after.filter (fun x => x.unit == (sect, unit))
  if mine.isEmpty then h
  else
    let h1 := { h with host := { h.host with after := h.host.after.filter (fun x => x.unit != (sect, unit)) } }
    h1.switchShadows fx (mine.filter h1.shadowLives) 0

/-- GLB_COMMIT_GO. -/
def execGlbCommitGo (s : State) : Out :=
  liftHub s (fun fx h => h.atReg fx s.met .glb 0x8 (fun h => h.globalCommit fx))

/-- GLB_COMMIT_ARM: the commit is taken when the channel fires. -/
def execGlbCommitArm (chan : BitVec 7) (s : State) : Out :=
  liftHub s (fun fx h => h.atReg fx s.met .glb 0x8 (fun h => (h.wr fGlbCommitChan chan.toNat).on fGlbCommitArm))

end Sys2Proof.Machine
end

