-- ==== Sys2Proof/Machine/CasTime.lean ====
section
/-! DEFINITION. Time transfer over the cascade (spec/13 R347, R348). An offset θ is held as 250 times its value in units of
2^-16 ns, in which a picosecond of asymmetry is a whole number. -/

namespace Sys2Proof.Machine
open Sys2Proof

/-! ### The exchange (R347) -/

/-- TIME_EXCHANGE_START: a parent's SYNC leaves on each of its DN and BR ports that is UP. -/
def execTimeExchangeStart (s : State) : Out :=
  liftHub s (fun _ h => [1, 2].foldl (fun a p =>
    if a.linkUp p then a.modLk p (fun x => { x with exNum := (x.exNum + 1) % 65536, t1 := some a.netNow }) else a) h)

/-- SYNC: the child stamps its arrival. -/
def execSync (num : BitVec 16) (s : State) : Out :=
  liftHub s (fun _ h =>
    if h.linkUp 0 then
      h.modLk 0 (fun x => { x with exNum := num.toNat, t2 := some h.netNow, t3 := none, syncCyc := h.cyc })
    else h)

/-- DREQ_SEND: at least 1 µs after SYNC. -/
def execDreqSend (s : State) : Out :=
  liftHub s (fun _ h =>
    if h.linkUp 0 && (h.lk 0).t2.isSome && (h.lk 0).t3.isNone then
      let h1 := h.reach ((h.lk 0).syncCyc + 800)
      h1.modLk 0 (fun x => { x with t3 := some h1.netNow })
    else h)

/-- master_stepped as this hub passes it on: the master's step is spent, and this hub has followed. -/
def Hub.passStepped (fx : Fixed) (h : Hub) : Bool :=
  if h.isMaster fx then h.is (fTmTbStepsUsed 16) else h.is fCasStatusMasterStepped && h.is fCasStatusStepped

/-- The eight words of a TIME frame (R337). -/
def Hub.timeFrameWords (fx : Fixed) (h : Hub) (num t1 t4 : Nat) : List Word :=
  let a := timeWords t1
  let b := timeWords t4
  [w32 (num * 2 ^ 16 + h.rd fCasEnumHops * 2 ^ 10 + h.rd fCasStatusLock * 2 ^ 9 + b2n (h.passStepped fx) * 2 ^ 8)] ++
    a.take 3 ++ [w32 (t1 % 65536 * 65536 + t4 % 65536)] ++ b.take 3

/-- DREQ: the parent stamps its arrival and answers with the TIME frame. -/
def execDreq (p : Fin 3) (num : BitVec 16) (s : State) : Out :=
  liftHub s (fun fx h =>
    let x := h.lk p
    match x.t1 with
    | some t1 =>
      if p.val ≠ 0 ∧ h.linkUp p = true ∧ x.exNum = num.toNat then
        let ws := h.timeFrameWords fx x.exNum t1 h.netNow
        (h.modLk p (fun y => { y with t1 := none })).queueTx p
          { src := 3, cls := 0, bridge := false
            f := { bcast := false, dst := 0#9, src := BitVec.ofNat 9 h.devnum, sub := 0#6, seq := 0#12, cont := false
                   words := recordWords 7 ws, crcOk := true } }
      else h
    | none => h)

/-! ### Steering (R348) -/

/-- A quotient rounded to the nearest integer, ties upward. -/
def nearest (a b : Int) : Int := (2 * a + b) / (2 * b)

/-- Keep a value within bounds. -/
def clampInt (lo hi x : Int) : Int := if x < lo then lo else if hi < x then hi else x

/-- The range of a privileged timebase's increment with its slew (R309). -/
def rateLo : Int := 0x013FAE147B
def rateHi : Int := 0x014051EB85

/-- Set tb_net's increment, kept in range. -/
def Hub.setNetIncr (h : Hub) (v : Int) : Hub :=
  let n := (clampInt rateLo rateHi v).toNat
  (h.wr (fTmTbIncHiIncHi 16) (n / 2 ^ 32)).wr (fTmTbIncLoIncLo 16) (n % 2 ^ 32)

/-- Start a slew of tb_net of 781 blocks, the whole blocks of 1 ms, its sum with the increment kept in range. -/
def Hub.netSlew (h : Hub) (adj : Int) : Hub :=
  let i : Int := h.tbIncr 16
  let a := clampInt (rateLo - i) (rateHi - i) adj
  let h1 := (h.wr (fTmTbSlewAdjSlewAdj 16) (ofInt a 32)).wr (fTmTbSlewLenSlewLen 16) 781
  { h1 with tb := NMap.modify h1.tb 16 (fun x => { x with slewTicks := 799744 }) }

/-- The mean of offsets. -/
def meanOf (l : List Int) : Int := if l.isEmpty then 0 else nearest l.sum l.length

/-- Steering before the step: rate only, from the change of θ over the 800,000 ticks between exchanges. -/
def Hub.steerRate (h : Hub) (th : Int) : Hub :=
  match h.cas.theta with
  | prev :: _ => h.setNetIncr ((h.tbIncr 16 : Int) - nearest ((th - prev) * 65536) (250 * 800000))
  | [] => h

/-- The one step: ADD of −θ at the next TCLK edge. The averages start anew. -/
def Hub.netStep (fx : Fixed) (h : Hub) (th : Int) : Hub :=
  let v0 := h.tbVal 16
  let h1 := h.tickN 1
  let vn := h1.tbVal 16
  let v1 := (((vn : Int) + nearest (-th) 250 * 2 ^ 32) % (tbWrap : Int)).toNat
  let h2 := (((h1.count (fTmTbStepsSteps 16) 1).on (fTmTbStepsUsed 16)).on fCasStatusStepped).tbStepped fx 16 v0 vn v1
  h2.modCas (fun c => { c with theta := [], good := 0 })

/-- Steering after the step, from the mean θ_f of the last 16 offsets, and the lock. -/
def Hub.steerAfter (h : Hub) : Hub :=
  let tf := meanOf h.cas.theta
  let h1 := (h.setNetIncr ((h.tbIncr 16 : Int) - nearest (tf * 65536) (250 * 12800000))).netSlew
    (- nearest (tf * 65536) (250 * 8 * 799744))
  let small := decide (tf.natAbs ≤ 4 * 65536 * 250)
  let good := if small then h1.cas.good + 1 else 0
  let h2 := h1.modCas (fun c => { c with good := min good 16 })
  if 20 * 65536 * 250 < tf.natAbs then
    if h2.is fCasStatusLock then (h2.off fCasStatusLock).on fCasStatusLockLost else h2
  else if 16 ≤ good then h2.on fCasStatusLock else h2

/-- A complete exchange at the child: delay, offset, steering. -/
def Hub.timeTaken (fx : Fixed) (h : Hub) (ws : List Word) (t2 t3 : Nat) : Hub :=
  let t1 : Int := ofTimeWords (recWord ws 1).toNat (recWord ws 2).toNat (recWord ws 3).toNat (fieldOf (recWord ws 4) 16 16)
  let t4 : Int := ofTimeWords (recWord ws 5).toNat (recWord ws 6).toNat (recWord ws 7).toNat (fieldOf (recWord ws 4) 0 16)
  let round := (t4 - t1) - ((t3 : Int) - t2)
  let d250 := 125 * round + 8192 * signedOf (h.rd (fCasPAsymAsym 0)) 16
  let th := 250 * ((t2 : Int) - t1) - d250
  let ms := bitOf (recWord ws 0) 8
  let h1 := (h.wr (fCasPDelayDelay 0) (ofInt (d250 / 64000) 32)).wr fCasStatusMasterStepped (b2n ms)
  let push (a : Hub) : Hub := a.modCas (fun c => { c with theta := (th :: c.theta).take 16 })
  let h2 :=
    if h1.is (fTmTbStepsUsed 16) then (push h1).steerAfter
    else if ms || h1.cf 11 3 0 1 1 == 0 then h1.netStep fx th
    else push (h1.steerRate th)
  h2.wr fCasOffsetOffset (ofInt (meanOf h2.cas.theta / 64000) 32)

/-- TIME_FRAME_RECEIVE. -/
def execTimeFrameReceive (f : CasFrame) (s : State) : Out :=
  liftHub s (fun fx h =>
    let r := h.rxCheck 0 0 f
    let x := r.2.lk 0
    match x.t2, x.t3 with
    | some t2, some t3 =>
      if r.1 = true ∧ fieldOf (recWord (framePay f) 0) 16 16 = x.exNum then
        (r.2.modLk 0 (fun y => { y with t2 := none, t3 := none })).timeTaken fx (framePay f) t2 t3
      else r.2
    | _, _ => r.2)

end Sys2Proof.Machine
end

