-- ==== Sys2Proof/Machine/Sha256.lean ====
section
/-! DEFINITION. SHA-256, which the partition uses for the METRO digest and the evidence chain (spec/02 R43, spec/15 R414). The
spec names the function; its definition is the published one of FIPS 180-4 (PRESUMED, log entry 12). -/

namespace Sys2Proof.Machine
open Sys2Proof

/-- The 64 round constants. -/
def shaK : List (BitVec 32) :=
  [0x428A2F98#32, 0x71374491#32, 0xB5C0FBCF#32, 0xE9B5DBA5#32, 0x3956C25B#32, 0x59F111F1#32, 0x923F82A4#32, 0xAB1C5ED5#32] ++
  [0xD807AA98#32, 0x12835B01#32, 0x243185BE#32, 0x550C7DC3#32, 0x72BE5D74#32, 0x80DEB1FE#32, 0x9BDC06A7#32, 0xC19BF174#32] ++
  [0xE49B69C1#32, 0xEFBE4786#32, 0x0FC19DC6#32, 0x240CA1CC#32, 0x2DE92C6F#32, 0x4A7484AA#32, 0x5CB0A9DC#32, 0x76F988DA#32] ++
  [0x983E5152#32, 0xA831C66D#32, 0xB00327C8#32, 0xBF597FC7#32, 0xC6E00BF3#32, 0xD5A79147#32, 0x06CA6351#32, 0x14292967#32] ++
  [0x27B70A85#32, 0x2E1B2138#32, 0x4D2C6DFC#32, 0x53380D13#32, 0x650A7354#32, 0x766A0ABB#32, 0x81C2C92E#32, 0x92722C85#32] ++
  [0xA2BFE8A1#32, 0xA81A664B#32, 0xC24B8B70#32, 0xC76C51A3#32, 0xD192E819#32, 0xD6990624#32, 0xF40E3585#32, 0x106AA070#32] ++
  [0x19A4C116#32, 0x1E376C08#32, 0x2748774C#32, 0x34B0BCB5#32, 0x391C0CB3#32, 0x4ED8AA4A#32, 0x5B9CCA4F#32, 0x682E6FF3#32] ++
  [0x748F82EE#32, 0x78A5636F#32, 0x84C87814#32, 0x8CC70208#32, 0x90BEFFFA#32, 0xA4506CEB#32, 0xBEF9A3F7#32, 0xC67178F2#32]

/-- The initial hash value. -/
def shaH : List (BitVec 32) := [0x6A09E667#32, 0xBB67AE85#32, 0x3C6EF372#32, 0xA54FF53A#32, 0x510E527F#32, 0x9B05688C#32, 0x1F83D9AB#32, 0x5BE0CD19#32]

def shaS0 (x : BitVec 32) : BitVec 32 := x.rotateRight 2 ^^^ x.rotateRight 13 ^^^ x.rotateRight 22
def shaS1 (x : BitVec 32) : BitVec 32 := x.rotateRight 6 ^^^ x.rotateRight 11 ^^^ x.rotateRight 25
def shaG0 (x : BitVec 32) : BitVec 32 := x.rotateRight 7 ^^^ x.rotateRight 18 ^^^ (x >>> 3)
def shaG1 (x : BitVec 32) : BitVec 32 := x.rotateRight 17 ^^^ x.rotateRight 19 ^^^ (x >>> 10)

/-- The eight working variables. -/
structure ShaReg where
  a : BitVec 32
  b : BitVec 32
  c : BitVec 32
  d : BitVec 32
  e : BitVec 32
  f : BitVec 32
  g : BitVec 32
  h : BitVec 32
  deriving DecidableEq, Repr

/-- One round with a constant and a schedule word. -/
def shaRound (r : ShaReg) (k w : BitVec 32) : ShaReg :=
  let t1 := r.h + shaS1 r.e + ((r.e &&& r.f) ^^^ (~~~r.e &&& r.g)) + k + w
  let t2 := shaS0 r.a + ((r.a &&& r.b) ^^^ (r.a &&& r.c) ^^^ (r.b &&& r.c))
  { a := t1 + t2, b := r.a, c := r.b, d := r.c, e := r.d + t1, f := r.e, g := r.f, h := r.g }

/-- The next schedule word from the last sixteen, oldest first. -/
def shaNext (w : List (BitVec 32)) : BitVec 32 :=
  shaG1 (w.getD 14 0#32) + w.getD 9 0#32 + shaG0 (w.getD 1 0#32) + w.getD 0 0#32

/-- The rounds over the constants, with a sliding window of sixteen schedule words. -/
def shaRounds : List (BitVec 32) → List (BitVec 32) → ShaReg → ShaReg
  | [], _, r => r
  | k :: ks, w, r => shaRounds ks (w.drop 1 ++ [shaNext w]) (shaRound r k (w.headD 0#32))

/-- Compress one block of sixteen words into the hash value. -/
def shaBlock (hv w : List (BitVec 32)) : List (BitVec 32) :=
  let g (i : Nat) : BitVec 32 := hv.getD i 0#32
  let r := shaRounds shaK w { a := g 0, b := g 1, c := g 2, d := g 3, e := g 4, f := g 5, g := g 6, h := g 7 }
  [g 0 + r.a, g 1 + r.b, g 2 + r.c, g 3 + r.d, g 4 + r.e, g 5 + r.f, g 6 + r.g, g 7 + r.h]

/-- Compress `n` blocks. -/
def shaBlocks : Nat → List (BitVec 32) → List (BitVec 32) → List (BitVec 32)
  | 0, _, hv => hv
  | n + 1, ws, hv => shaBlocks n (ws.drop 16) (shaBlock hv (ws.take 16))

/-- Bytes of a word in the other order. -/
def swapBytes (w : BitVec 32) : BitVec 32 :=
  w.extractLsb' 0 8 ++ w.extractLsb' 8 8 ++ w.extractLsb' 16 8 ++ w.extractLsb' 24 8

/-- SHA-256 of words, each taken least significant byte first; the digest as eight words with its first byte lowest. -/
def sha256 (ws : List Word) : List Word :=
  let pad := [0x80000000#32] ++ List.replicate ((29 - ws.length % 16) % 16) 0#32 ++ [w32 (ws.length * 32 / 2 ^ 32), w32 (ws.length * 32)]
  let m := ws.map swapBytes ++ pad
  (shaBlocks (m.length / 16) m shaH).map swapBytes

end Sys2Proof.Machine
end

