-- ==== Sys2Proof/Machine/Metro.lean ====
section
/-! DEFINITION. The sealed metrology partition: evidence log, lid, configuration, samples, rotation, severity, tb_met
(spec/15 R396 to R432). -/

namespace Sys2Proof.Machine
open Sys2Proof

/-- Change a channel. -/
def Met.modCh (m : Met) (c : Nat) (f : MetCh → MetCh) : Met := { m with ch := NMap.modify m.ch c f }

/-- The lost entries have been told. -/
def Met.clearLost (m : Met) : Met := { m with lost := 0, lostMask := 0 }

/-- The held seam entries are gone. -/
def Met.clearSeams (m : Met) : Met := { m with seams := [], forced := false }

/-- A running rotation step is abandoned. -/
def Met.abandon (m : Met) : Met := { m with phase := 0 }

/-- A rail of the partition stands below warning. -/
def Met.railLow (m : Met) (rail : Nat) : Met := { m with warn := m.warn ||| 2 ^ rail }

/-- tb_met takes a value; whether it came from NET. -/
def Met.setTime (m : Met) (v : Nat) (net : Bool) : Met := { m with val := v, netStep := net }

/-- The last POSITION record. -/
def Met.setPos (m : Met) (p : Nat × Nat × Nat) : Met := { m with pos := some p }

/-- The METRO cells in force and the outcome they were taken with. -/
def Met.setCells (m : Met) (cells : NMap Word) (outcome : Nat) : Met := { m with cells := cells, outcome := outcome }

/-- Eight words in a window. -/
def Met.wr8 (m : Met) (a : Nat) (ws : List Word) : Met :=
  (List.range 8).foldl (fun x i => x.setReg (a + 4 * i) (ws.getD i 0#32)) m

/-- Eight words of a window. -/
def Met.rd8 (m : Met) (a : Nat) : List Word := (List.range 8).map (fun i => m.reg (a + 4 * i))

/-- The hub reads the life-cycle state through the partition's read path, at every change and every MPOR (R459). -/
def Hub.readLc (h : Hub) (m : Met) : Hub :=
  let st := m.rd fMetLidState
  { ((h.wr fHltLcState st).on fHltLcValid).wr fGlbStatusLc st with hlt := { h.hlt with lcKnown := true } }

/-! ### Configuration cells (R432) -/

/-- A METRO cell's value where METRO leaves it unwritten. -/
def metDefault (unit cell : Nat) : Word :=
  if unit < 8 ∧ cell = 2 then w32 (200 * 65536 + 64)
  else if unit < 8 ∧ cell = 3 then 0x3F800000#32
  else if unit = 8 then 600#32 else if unit = 9 then 10#32 else 0#32

def Met.cf (m : Met) (unit cell lo len : Nat) : Nat :=
  fieldOf (NMap.getD m.cells (cellKey 15 unit cell) (metDefault unit cell)) lo len

/-- A channel converts: the partition is out of MPOR and configured, its state measures, the channel is enabled (R429, R461). -/
def Met.measures (m : Met) : Bool :=
  m.up && m.outcome != 0 && (m.rd fMetLidState == 1 || m.rd fMetLidState == 2)
def Met.chOn (m : Met) (c : Nat) : Bool := m.measures && m.cf c 0 0 1 == 1

/-- A channel whose severity range is set. -/
def Met.sevOn (m : Met) (c : Nat) : Bool := m.chOn c && m.cf c 0 4 2 != 0

/-- One cell keeps R432: only its listed bits, and its values in range. -/
def metCellOk (unit cell : Nat) (w : Word) : Bool :=
  if unit < 8 then
    if cell = 0 then decide (w.toNat < 64) && decide (fieldOf w 4 2 < 3)
    else if cell = 1 then true
    else if cell = 2 then decide (w.toNat < 2 ^ 27)
    else if cell = 3 then
      !f32Special w && decide (98 * (2 ^ 149 : Int) ≤ 100 * f32Val w) && decide (100 * f32Val w ≤ 102 * (2 ^ 149 : Int))
    else w == 0#32
  else if unit = 8 ∧ cell = 0 then decide (60 ≤ w.toNat) && decide (w.toNat ≤ 3600)
  else if unit = 9 ∧ cell = 0 then decide (w.toNat < 4096) && decide (fieldOf w 0 10 ≤ 600)
  else w == 0#32

/-! ### The evidence log (R413 to R417) -/

/-- Slots free. -/
def Met.slots (m : Met) : Nat := 8128 - (m.rd fMetLidNextNext - m.rd fMetLidFirstFirst)

/-- Show the free slots, and `ev_low` below 512. -/
def Met.showFree (m : Met) : Met :=
  let n := m.slots
  let m1 := m.wr fMetLidFreeFree n
  if n < 512 then m1.on fMetStatusEvLow else m1

/-- Record types that may use the last eight slots. -/
def reservedType (t : Nat) : Bool := [1, 3, 4, 5, 0x0C, 0x0D, 0x0F].contains t

/-- The sixteen words of a record (R413). -/
def Met.record (m : Met) (typ subj flags : Nat) (pay : List Word) : List Word :=
  let t := timeWords (report m.val)
  let body := [w32 (typ * 2 ^ 24 + subj * 2 ^ 16 + 0x10), m.reg rMetLidNext, t.getD 1 0#32, t.getD 2 0#32,
    w32 (m.rd fMetLidAuditAudit * 256 + m.rd fMetLidState * 32 + flags)] ++
    (pay ++ List.replicate 6 0#32).take 6 ++ (m.rd8 (rMetLidHead 0)).take 4
  body ++ [crc32Words body]

/-- Store a record in the next slot; the lid's copies follow (R420). -/
def Met.store (m : Met) (r : List Word) : Met :=
  let n := m.rd fMetLidNextNext
  let m1 := { m with log := NMap.set m.log (n % 8128) r, gen := m.gen + 1 }
  ((m1.wr fMetLidNextNext (n + 1)).wr8 (rMetLidHead 0) (sha256 r)).showFree

/-- A LOSS record once space has returned. -/
def Met.flushLoss (m : Met) : Met :=
  if m.lost ≠ 0 ∧ 8 < m.slots then
    (m.store (m.record 0x0D 0xFF 0 [w32 m.lost, w32 m.lostMask])).clearLost
  else m

/-- An entry that is not written: counted, and `ev_full`. -/
def Met.loseEntry (m : Met) (typ : Nat) : Met :=
  let m1 := (m.wr fMetLidOverflowOverflow (satTo 32 (m.rd fMetLidOverflowOverflow + 1))).on fMetStatusEvFull
  { m1 with lost := satTo 32 (m1.lost + 1), lostMask := m1.lostMask ||| 2 ^ typ }

/-- The log takes an entry of a type now. -/
def Met.takes (m : Met) (typ : Nat) : Bool := if reservedType typ then decide (0 < m.slots) else decide (8 < m.slots)

/-- Write a record, behind a due LOSS record, or lose it. -/
def Met.write (m : Met) (typ subj flags : Nat) (pay : List Word) : Met :=
  let m1 := m.flushLoss
  if m1.takes typ then m1.store (m1.record typ subj flags pay) else m1.loseEntry typ

/-- Held seam entries become a SEAM record; one written early carries PARTIAL (R416). -/
def Met.commitSeams (m : Met) : Met :=
  match m.seams with
  | [] => m
  | l =>
    let fl := (if l.length < 5 then 1 else 0) + (if m.forced then 4 else 0)
    (m.write 0x08 0xFF fl (w32 (m.rd fMetRotCount * 256 + (l.length - 1) * 32) :: l)).clearSeams

/-- A seam entry joins the held ones; five make a record. -/
def Met.holdSeam (m : Met) (w : Word) (forced : Bool) : Met :=
  let m1 := { m with seams := m.seams ++ [w], forced := m.forced || forced }
  if 5 ≤ m1.seams.length then m1.commitSeams else m1

/-- The audit counter counts with a record of R421 that is written. -/
def Met.writeAudit (m : Met) (typ : Nat) (pay : List Word) : Met :=
  let m1 := m.flushLoss
  if m1.takes typ then (m1.count fMetLidAuditAudit 1).write typ 0xFF 0 pay else m1.loseEntry typ

/-- The audit counter is at its maximum. -/
def Met.auditMax (m : Met) : Bool := m.rd fMetLidAuditAudit == 0xFFFFFF

/-! ### Configuration (R43, R422, R429) -/

/-- Conversion starts or restarts on every enabled channel: GAP, 64 samples of SETTLE, severity settles. -/
def Met.restart (m : Met) : Met :=
  (List.range 8).foldl (fun a c =>
    if a.chOn c then a.modCh c (fun x => { x with settle := 64, gap := true, age := 0, tags := 0#8, got := false }) else a) m

/-- Conversion stops and the configuration goes. -/
def Met.unconfigure (m : Met) : Met :=
  let m1 := { m with cells := [], outcome := 0, phase := 0, calCh := none, aligned := false, phaseErr := 0, ch := [] }
  ((m1.off fMetLidConfigured).wr8 (rMetLidHeld 0) [])

/-- METRO reaches the partition: its cells and the SHA-256 of its payload words. Answers the outcome code of R43. -/
def Met.load (m : Met) (cells : NMap Word) (words : List Word) : Nat × Met :=
  let st := m.rd fMetLidState
  let dig := sha256 words
  let ok := cells.all (fun e => metCellOk (e.1 / 4096 % 256) (e.1 % 4096) e.2)
  let note (a : Met) (code : Nat) : Met := a.write 0x02 0xFF 0 (w32 code :: dig.take 5)
  let config (a : Met) (code : Nat) : Met :=
    (((a.setCells cells code).on fMetLidConfigured).wr8 (rMetLidHeld 0) dig).restart
  if st ≠ 1 ∧ st ≠ 2 then (5, note m 5)
  else if m.outcome ≠ 0 then (4, m)
  else if st = 2 ∧ m.rd8 (rMetLidSealed 0) ≠ dig then (3, (note m 3).on fMetStatusDigest)
  else if !ok then (5, note m 5)
  else if st = 2 then (2, config (note m 2) 2)
  else if m.auditMax then (5, note m 5)
  else (1, config (m.writeAudit 0x02 (w32 1 :: dig.take 5)) 1)

/-! ### Samples (R398 to R400) -/

/-- MCLK cycles pass on tb_met. -/
def Met.tick (m : Met) (n : Nat) : Met := { m with val := (m.val + m.incr * n * 65536) % tbWrap }

/-- Once every 16 conversion periods the grid moves one MCLK cycle toward the pulse, until its error is below one (R412). -/
def Met.gridMove (m : Met) : Met :=
  if m.phaseErr = 0 then m
  else if m.convs < 15 then { m with convs := m.convs + 1 }
  else ({ m with phaseErr := m.phaseErr - 1, convs := 0 }).count fMetRot2Slips 1

/-- The lowest enabled channel, whose conversions count the periods between grid moves. -/
def Met.firstOn (m : Met) : Nat := ((List.range 8).find? m.chOn).getD 8

/-- The channel's gain correction applied to a converter's corrected value, rounded to nearest even (DESIGN CHOICE, log entry 119). -/
def gained (g : Word) (v : BitVec 24) : Int :=
  let p := v.toInt * f32Val g
  let n := roundDiv p.natAbs (2 ^ 149)
  if p < 0 then -(n : Int) else n

/-- A conversion period of a channel ends: its sample, with tags and time. `v` is the converter's value after its own correction. -/
def Met.sample (m0 : Met) (c : Nat) (v0 : BitVec 24) (ovr dip : Bool) (mclk : Nat) : Samp × Met :=
  let m1 := m0.tick mclk
  let m := if c = m1.firstOn then m1.gridMove else m1
  let x := NMap.get m.ch c
  let cal := m.calCh == some c
  let g := gained (w32 (m.cf c 3 0 32)) v0
  let i : Int := if g < -8388608 then -8388608 else if 8388607 < g then 8388607 else g
  let v := BitVec.ofInt 24 i
  let tag := (if x.settle ≠ 0 then 0x80#8 else 0#8) ||| (if cal then 0x40#8 else 0#8) |||
    (if ovr || g != i then 0x10#8 else 0#8) ||| (if dip then 0x08#8 else 0#8) ||| (if x.gap then 0x02#8 else 0#8)
  let m2 := m.modCh c (fun x => { x with
    settle := x.settle - 1, gap := false, tags := x.tags ||| tag, got := x.got || !cal })
  let m3 := if cal then
      { m2 with calN := m2.calN + 1, calSum := m2.calSum + i, calSq := m2.calSq + i.natAbs * i.natAbs } else m2
  ({ val := v, tag := tag, time := report m.val }, m3)

/-- A sample meets the fabric side's FIFO: a full one, or a recovery of the fabric, discards it (R400). -/
def Hub.metArrive (h : Hub) (c : Nat) (x : Samp) : Hub :=
  if h.recovering 7 0 || decide (16 ≤ h.metFifo.length) || !h.clk.gates then
    { h with metGap := if h.metGap.contains c then h.metGap else h.metGap ++ [c] }
  else
    let y := if h.metGap.contains c then { x with tag := x.tag ||| 0x02#8 } else x
    { h with metGap := h.metGap.filter (fun k => k != c), metFifo := h.metFifo ++ [{ ch := c, cyc := h.cyc, diff := (report (h.tbVal 16) : Int) - report (h.tbVal 17), samp := y }] }

/-- MET_SAMPLE. -/
def execMetSample (ch : Fin 8) (v : BitVec 24) (f : MetFlags) (mclk : BitVec 32) (s : State) : Out :=
  liftBoth s (fun fx h m =>
    if fx.variant.hasMet && m.chOn ch then
      let r := m.sample ch v f.ovr f.dip mclk.toNat
      (h.metArrive ch r.1, r.2)
    else (h, m))

/-- Release a sample to every context fed by its channel; on tb_net its time moves by the follower's difference at its arrival
(R399). -/
def Hub.metDeliver (h : Hub) (w : MetWord) : Hub :=
  ((h.usedUnits 5).filter (fun u => decide (32 ≤ u) && h.cf 5 u 0 1 3 == 4 && h.cf 5 u 1 0 8 == w.ch)).foldl
    (fun a u =>
      let t := if a.cf 5 u 0 14 5 = 16 then ((w.samp.time : Int) + w.diff).toNat else w.samp.time
      a.ctxIngress 6 (u - 32) { w.samp with time := t }) h

/-- MET_SAMPLE_RELEASE: the oldest word of the FIFO, 3 MCLK cycles, 118 TCLK cycles, after its arrival. -/
def execMetSampleRelease (ch : Fin 8) (s : State) : Out :=
  liftHub s (fun _ h =>
    match h.metFifo with
    | w :: rest =>
      if w.ch = ch.val then
        let h1 := h.reach (w.cyc + 118)
        ({ h1 with metFifo := rest }).metDeliver w
      else h
    | [] => h)

/-! ### Rotating calibration (R401 to R404) -/

/-- Channels in rotation: enabled, their converter not BAD, not under CALIBRATE. -/
def Met.inRot (m : Met) (c : Nat) : Bool :=
  m.chOn c && !m.bad.testBit (m.rd (fMetChStConv c)) && m.calCh != some c

/-- The next channel in rotation from one upward, cyclically. -/
def Met.rotFrom (m : Met) (c : Nat) : Option Nat := ((List.range 8).map (fun k => (c + k) % 8)).find? m.inRot

/-- ROTATION_STEP_START: the step period has elapsed and the spare begins calibrating for the next channel. -/
def execRotationStepStart (s : State) : Out :=
  liftMet s (fun fx m =>
    if !fx.variant.hasMet || m.stopped || m.phase != 0 || m.warn != 0 then m
    else match m.rotFrom m.nextCh with
      | some c => ({ m with phase := 1, nextCh := c }).wr fMetRotChan c
      | none => m)

/-- SPARE_CALIBRATION_DONE: offset in LSB and gain in ppm; a BAD spare ends the rotation. -/
def execSpareCalibrationDone (offset gain : BitVec 24) (s : State) : Out :=
  liftMet s (fun _ m =>
    if m.phase ≠ 1 then m
    else
      let sp := m.rd fMetRotSpare
      if 41943 < offset.toInt.natAbs ∨ 20000 < gain.toInt.natAbs then
        let m1 := { m with bad := m.bad ||| 2 ^ sp, stopped := true, phase := 0 }
        ((m1.on fMetStatusRotStop).commitSeams).write 0x10 0xFF 0 [w32 m1.bad]
      else { m with phase := 2, corr := NMap.set m.corr sp (offset.toInt, gain.toInt) })

/-- n times the sum of squares less the squared sum: n² times the variance. -/
def varNum (l : List Int) : Nat :=
  ((l.length : Int) * (l.map (fun x => x * x)).sum - l.sum * l.sum).toNat

/-- The seam of a parallel run of (old, new) samples: offset step, and gain step in ppm where measurable (R402). -/
def seamOf (pairs : List (BitVec 24 × BitVec 24)) : Int × Option Int :=
  let old := pairs.map (fun p => p.1.toInt)
  let new := pairs.map (fun p => p.2.toInt)
  let n : Int := pairs.length
  let d := new.sum - old.sum
  let off := if n = 0 then 0 else (2 * d + n) / (2 * n)
  let vo := varNum old
  let small := decide (10000 * vo < pairs.length * pairs.length * 2 ^ 46)
  (off, if small then none else some (((isqrt (4 * varNum new * 1000000000000 / vo) + 1) / 2 : Nat) - 1000000))

/-- A signed value saturating in a field of `len` bits. -/
def satSigned (v : Int) (len : Nat) : Int :=
  let hi : Int := 2 ^ (len - 1) - 1
  if hi < v then hi else if v < -hi - 1 then -hi - 1 else v

/-- A seam entry (R415). -/
def seamEntry (c : Nat) (refused : Bool) (off : Int) (gain : Option Int) : Word :=
  let g : Int := match gain with
    | some x => if 1023 < x then 1023 else if x < -1023 then -1023 else x
    | none => 0
  w32 (c * 2 ^ 29 + b2n refused * 2 ^ 28 + b2n gain.isNone * 2 ^ 27 + ofInt g 11 * 2 ^ 16 + ofInt (satSigned off 16) 16)

/-- The spare takes the channel over at the sample boundary; the old converter becomes the spare. -/
def Met.handOver (m : Met) (c : Nat) : Met :=
  let old := m.rd (fMetChStConv c)
  ((m.wr (fMetChStConv c) (m.rd fMetRotSpare)).wr fMetRotSpare old).modCh c (fun x => { x with refused := 0 })

/-- The step ends and the next one takes the channel after it; the last channel of the order completes a rotation. -/
def Met.stepNext (m : Met) (c : Nat) : Met :=
  let m1 := { m with nextCh := (c + 1) % 8 }
  if (List.range 8).any (fun k => decide (c < k) && m.inRot k) then m1 else m1.count fMetRotCount 1

/-- The seam of the step is evaluated: handover, refusal, or a forced handover at the second consecutive refusal. -/
def Met.seam (m : Met) (pairs : List (BitVec 24 × BitVec 24)) : Met :=
  if m.phase ≠ 2 then m
  else
    let c := m.rd fMetRotChan
    let r := seamOf pairs
    let lim := decide (r.1.natAbs ≤ m.cf c 2 0 16) && (match r.2 with
      | some g => decide (g.natAbs ≤ m.cf c 2 16 11)
      | none => true)
    let m0 := { m with phase := 0 }
    if lim then
      let e := seamEntry c false r.1 r.2
      (((m0.handOver c).stepNext c).setReg (rMetChSeam c) e).holdSeam e false
    else if (NMap.get m.ch c).refused = 0 then
      let e := seamEntry c true r.1 r.2
      ((((m0.modCh c (fun x => { x with refused := 1 })).on fMetStatusSeamRef).count fMetRot2Refused 1).setReg (rMetChSeam c) e).holdSeam
        e false
    else
      let e := seamEntry c false r.1 r.2
      let m1 := (((m0.handOver c).stepNext c).modCh c (fun x => { x with suspect := 2 })).count fMetRot2Refused 1
      (((m1.on fMetStatusSeamRef).count fMetRot2Forced 1).setReg (rMetChSeam c) e).holdSeam e true

/-- SEAM_EVALUATION. -/
def execSeamEvaluation (pairs : List (BitVec 24 × BitVec 24)) (s : State) : Out := liftMet s (fun _ m => m.seam pairs)

/-! ### Severity (R406, R407) -/

/-- A 1-s value is reported with its flags; a second without a contributing sample reports 0. -/
def Met.second (m : Met) (c : Nat) (v : Word) : Met :=
  if !m.sevOn c then m
  else
    let x := NMap.get m.ch c
    let has (b : Nat) : Bool := x.tags.getLsbD b
    let settle := decide (x.age < (if m.cf c 0 4 2 = 1 then 2 else 10))
    let sus := x.suspect != 0
    let fl := b2n x.got + 2 * b2n settle + 4 * b2n (has 3) + 8 * b2n (has 4) + 16 * b2n (has 6) + 32 * b2n sus
    let w := if x.got then v else 0#32
    let use := x.got && !settle && !has 6
    let f := (f32Val w).natAbs
    let m1 := ((m.setReg (rMetChV c) w).wr (fMetChStFlags c) fl).count (fMetChSecsSecs c) 1
    m1.modCh c (fun y => { y with
      tags := 0#8, got := false, age := y.age + 1
      vsum := if use then y.vsum + f * f else y.vsum, vcnt := if use then y.vcnt + 1 else y.vcnt
      excl := y.excl || !use, dipSat := y.dipSat || has 3 || has 4, susp := y.susp || sus })

/-- SEVERITY_SECOND. -/
def execSeveritySecond (ch : Fin 8) (v : BitVec 32) (s : State) : Out := liftMet s (fun _ m => m.second ch v)

/-- V of an interval in units of 0.01 mm/s. -/
def sevV (x : MetCh) : Nat :=
  if x.vcnt = 0 then 0 else satTo 16 ((isqrt (4 * x.vsum * 10000 / (x.vcnt * 2 ^ 298)) + 1) / 2)

/-- The evidence interval ends: a SEVERITY record; the accumulators start anew. -/
def Met.interval (m : Met) : Met :=
  if !m.measures then m
  else
    let x (c : Nat) : MetCh := NMap.get m.ch c
    let v (c : Nat) : Nat := sevV (x c)
    let fl (c : Nat) : Nat :=
      8 * b2n ((x c).vcnt == 0) + 4 * b2n (x c).excl + 2 * b2n (x c).dipSat + b2n (x c).susp
    let pay := (List.range 4).map (fun i => w32 (v (2 * i) * 65536 + v (2 * i + 1))) ++
      [w32 ((List.range 8).foldl (fun a c => a * 16 + fl c) 0),
       w32 (m.cf 8 0 0 12 * 65536 + (List.range 8).foldl (fun a c => a * 4 + m.cf c 0 4 2) 0)]
    let m1 := m.write 0x09 0xFF 0 pay
    (List.range 8).foldl (fun a c => a.modCh c (fun y => { y with
      vsum := 0, vcnt := 0, excl := false, dipSat := false, susp := false, suspect := y.suspect - 1 })) m1

/-- SEVERITY_INTERVAL_END. -/
def execSeverityIntervalEnd (s : State) : Out := liftMet s (fun _ m => m.interval)

/-! ### tb_met and its copy (R408 to R412) -/

/-- The copy of tb_met takes a value by the step SET_TIME made. -/
def Hub.metStep (fx : Fixed) (h : Hub) (v : Nat) : Hub :=
  if h.metFollows then ((h.count (fTmTbStepsSteps 17) 1).on (fTmTbStepsUsed 17)).tbStepped fx 17 h.tbMet h.tbMet v
  else (h.count (fTmTbStepsSteps 17) 1).on (fTmTbStepsUsed 17)

/-- Nominal increment of tb_met per MCLK tick, in units of 2^-32 ns (R408). -/
def metNominal : Nat := 0x30D4000000

/-- FOLLOW_NET_ADJUST: every second the increment takes the offset out over the next one, within ±200 ppm (R410). -/
def execFollowNetAdjust (s : State) : Out :=
  liftBoth s (fun fx h m =>
    if fx.variant.hasMet && m.up && m.outcome != 0 && m.cf 9 0 11 1 == 1 && m.netStep && h.metFollows then
      let off : Int := (h.tbMet : Int) - h.tbVal 16
      let want : Int := (metNominal : Int) - nearestInt off (20480000 * 65536)
      let lim : Int := metNominal * 200 / 1000000
      let m1 := { m with incr := (clampTo ((metNominal : Int) - lim) ((metNominal : Int) + lim) want).toNat }
      (h, if lim < (want - metNominal).natAbs then m1.on fMetStatusNetLimit else m1)
    else (h, m))
where
  /-- a quotient rounded to the nearest integer -/
  nearestInt (a b : Int) : Int := (2 * a + b) / (2 * b)
  /-- a value kept within bounds -/
  clampTo (lo hi x : Int) : Int := if x < lo then lo else if hi < x then hi else x

/-- FOLLOWER_STEER: every 1,024 MCLK cycles, 40,000 TCLK cycles, the copy's rate is set so that it meets tb_met at the next
steering: the rate of tb_met with the copy's offset taken out. -/
def execFollowerSteer (s : State) : Out :=
  liftBoth s (fun fx h m =>
    if fx.variant.hasMet && m.up && h.metFollows then
      let n : Int := ((m.val + m.incr * 1024 * 65536 : Nat) : Int) - h.tbMet
      let inc := execFollowNetAdjust.clampTo 0x013FAE147B 0x014051EB85 (n / (40000 * 65536))
      ((h.wr (fTmTbIncHiIncHi 17) (inc.toNat / 2 ^ 32)).wr (fTmTbIncLoIncLo 17) (inc.toNat % 2 ^ 32), m)
    else (h, m))

/-- FOLLOWER_RELOAD: after a hub POR, once the time PLL has locked; not a step (R411). The hub reads the life-cycle state with it. -/
def execFollowerReload (s : State) : Out :=
  liftBoth s (fun fx h m =>
    if fx.variant.hasMet && m.up && !h.metFollows && h.is fClkStatusTimeLock then
      ({ h with tbMet := m.val, metFollows := true }.readLc m, m)
    else (h, m))

/-- ALIGN_PULSE: the first restarts the converters, later ones measure the phase error (R412). -/
def execAlignPulse (phase : BitVec 16) (s : State) : Out :=
  liftMet s (fun fx m =>
    if fx.variant.hasMet && m.measures && m.cf 9 0 10 1 == 1 then
      if m.aligned then { m with phaseErr := phase.toNat }
      else (({ m with aligned := true, phase := 0, phaseErr := 0, convs := 0 }).restart).write 0x07 0xFF 0 [w32 phase.toNat]
    else m)

/-! ### Position (R431) -/

/-- The hub passes number, hop count, path and tag at an enumeration; a change of position is written. -/
def Met.position (m : Met) (dev hops path : Nat) (tag : Word) : Met :=
  if !m.up || m.pos == some (dev, hops, path) then m
  else
    let o := m.pos.getD (0, 0, 0)
    (m.write 0x0B 0xFF 0
      [w32 (dev * 2 ^ 23 + hops * 2 ^ 17), w32 path, w32 (o.1 * 2 ^ 23 + o.2.1 * 2 ^ 17), w32 o.2.2, tag]).setPos (dev, hops, path)

/-- What an enumeration passes across the boundary. -/
def passPosition (fx : Fixed) (h : Hub) (m : Met) : Met :=
  if fx.variant.hasMet then
    m.position h.devnum (h.rd fCasEnumHops) (h.rd fCasPathPath) (h.reg rGlbTag)
  else m

/-! ### Supplies (R404, R430) -/

/-- A supervisor warning of a rail: VIN 0, VDDC 1, VDDMA 10, VDDMD 11 commit the held evidence; the partition's own rails abandon
a step. -/
def Met.supplyWarn (m : Met) (rail : Nat) : Met :=
  if !m.up || !([0, 1, 10, 11].contains rail) then m
  else
    if 10 ≤ rail then (m.commitSeams.abandon).railLow rail else m.commitSeams

/-- A partition rail recovers: a DIP record. -/
def Met.supplyBack (m : Met) (rail micros cls : Nat) : Met :=
  if m.up && decide (10 ≤ rail) && m.warn.testBit rail then
    ({ m with warn := m.warn - 2 ^ rail }).write 0x0A 0xFF 0 [w32 rail, w32 micros, w32 cls]
  else m

end Sys2Proof.Machine
end

