-- ==== Sys2Proof/Machine/Mailbox.lean ====
section
/-! DEFINITION. The partition's mailbox and its reset (spec/15 R409, R418, R419, R422 to R428, R436). -/

namespace Sys2Proof.Machine
open Sys2Proof

/-! ### Results (R426) -/
def mOk : Nat := 0
def mBusy : Nat := 1
def mState : Nat := 2
def mLid : Nat := 3
def mDigest : Nat := 4
def mUsed : Nat := 5
def mFull : Nat := 6
def mArg : Nat := 7
def mUnconf : Nat := 8
def mAudit : Nat := 9
def mOp : Nat := 10

/-- A command ends with a result. -/
def Met.mbEnd (m : Met) (res : Nat) : Met := (m.wr fMetMbCmdResult res).on fMetStatusDone

/-- An argument of the mailbox. -/
def Met.arg (m : Met) (i : Nat) : Word := m.reg (rMetMbArg i)
/-- The digest in arguments 1 to 8. -/
def Met.argDigest (m : Met) : List Word := (List.range 8).map (fun i => m.arg (i + 1))

/-- A `go` with an op: turned away while the partition is in MPOR or absent, ended with BUSY while a command runs, else run; the
hub reads the life-cycle state again when it changes. A run answers its result and what it leaves. -/
def mailbox (fx : Fixed) (h : Hub) (m : Met) (op : Nat) (run : Hub → Met → Nat × Hub × Met) : Hub × Met :=
  if !h.answers fx m .met 0x800000 then (h.atReg fx m .met 0x800000 id, m)
  else
    let m1 := m.wr fMetMbCmdOp op
    if m1.is fMetMbCmdBusy then (h, m1.mbEnd mBusy)
    else
      let r := run h m1
      let m2 := r.2.2.mbEnd r.1
      (if m2.rd fMetLidState = m.rd fMetLidState then r.2.1 else r.2.1.readLc m2, m2)

/-- The life-cycle state is OPEN 1, SEALED 2 or RETIRED 4. -/
def Met.stateIn (m : Met) (l : List Nat) : Bool := l.contains (m.rd fMetLidState)

/-- SET_TIME (R409). -/
def runSetTime (fx : Fixed) (h : Hub) (m : Met) : Nat × Hub × Met :=
  let src := (m.arg 0).toNat
  if !m.stateIn [1, 2] then (mState, h, m)
  else if 1 < src ∨ (src = 0 ∧ 1000000000 ≤ (m.arg 3).toNat) then (mArg, h, m)
  else if m.is fMetLidUsed then (mUsed, h, m)
  else
    let v := if src = 0 then ofTimeWords (m.arg 1).toNat (m.arg 2).toNat (m.arg 3).toNat 0 * 2 ^ 32 else h.tbVal 16
    let o := timeWords (report m.val)
    let n := timeWords (report v)
    let m1 := (m.commitSeams.setTime v (src == 1)).on fMetLidUsed
    (mOk, h.metStep fx v, m1.write 0x06 0xFF 0
      [o.getD 1 0#32, o.getD 2 0#32, n.getD 1 0#32, n.getD 2 0#32, w32 src])

/-- SEAL (R423). -/
def runSeal (h : Hub) (m : Met) : Nat × Hub × Met :=
  if !m.stateIn [1] then (mState, h, m)
  else if m.arg 0 ≠ 0x5345414C#32 then (mArg, h, m)
  else if !m.is fMetLidMlid then (mLid, h, m)
  else if m.outcome ≠ 1 then (mUnconf, h, m)
  else if m.slots < 8 then (mFull, h, m)
  else if m.auditMax then (mAudit, h, m)
  else if m.argDigest ≠ m.rd8 (rMetLidHeld 0) then (mDigest, h, m)
  else
    let d := m.rd8 (rMetLidHeld 0)
    let m1 := ((m.commitSeams.wr8 (rMetLidSealed 0) d).wr fMetLidState 2)
    (mOk, h, m1.writeAudit 0x03 (d.take 6))

/-- UNSEAL (R424). -/
def runUnseal (h : Hub) (m : Met) : Nat × Hub × Met :=
  if !m.stateIn [2] then (mState, h, m)
  else if !m.is fMetLidMlid then (mLid, h, m)
  else if m.slots < 8 then (mFull, h, m)
  else if m.auditMax then (mAudit, h, m)
  else (mOk, h, ((m.commitSeams.wr fMetLidState 1).writeAudit 0x04 ((m.rd8 (rMetLidSealed 0)).take 6)))

/-- RETIRE (R424): conversion stops; every read window stays. -/
def runRetire (h : Hub) (m : Met) : Nat × Hub × Met :=
  if !m.stateIn [1, 2] then (mState, h, m)
  else if !m.is fMetLidMlid then (mLid, h, m)
  else if m.slots < 8 then (mFull, h, m)
  else if m.auditMax then (mAudit, h, m)
  else
    let m1 := m.commitSeams.abandon.wr fMetLidState 4
    (mOk, h, m1.writeAudit 0x05 ((m.rd8 (rMetLidSealed 0)).take 6))

/-- DISCARD (R422). -/
def runDiscard (h : Hub) (m : Met) : Nat × Hub × Met :=
  if !m.stateIn [1] then (mState, h, m)
  else if m.outcome = 0 then (mUnconf, h, m)
  else if m.auditMax then (mAudit, h, m)
  else (mOk, h, (m.commitSeams.unconfigure.on fMetStatusUnconf).writeAudit 0x0F [])

/-- The stored record with a sequence number. -/
def Met.recordOf (m : Met) (n : Nat) : Option (List Word) :=
  let r := NMap.get m.log (n % 8128)
  if r.length = 16 ∧ (r.getD 1 0#32).toNat = n then some r else none

/-- ARCHIVE (R418). -/
def runArchive (h : Hub) (m : Met) : Nat × Hub × Met :=
  let n := (m.arg 0).toNat
  let first := m.rd fMetLidFirstFirst
  if !m.stateIn [1, 2] then (mState, h, m)
  else if n < first ∨ m.rd fMetLidNextNext ≤ n then (mArg, h, m)
  else if sha256 ((m.recordOf n).getD []) ≠ m.argDigest then (mDigest, h, m)
  else
    let m1 := (m.commitSeams.wr fMetLidFirstFirst (n + 1)).showFree
    (mOk, h, m1.write 0x0C 0xFF 0 [w32 n, w32 (n + 1 - first)])

/-- LOG_SEEK (R436). -/
def runSeek (h : Hub) (m : Met) : Nat × Hub × Met :=
  match m.recordOf (m.arg 0).toNat with
  | some r =>
    let m1 := (List.range 16).foldl (fun a i => a.setReg (rMetEvRec i) (r.getD i 0#32)) m
    (mOk, h, (m1.on fMetEvPosValid).wr8 (rMetEvDig 0) (sha256 r))
  | none => (mArg, h, m)

/-- CALIBRATE (R405): the channel's samples carry CAL until the duration has passed. -/
def runCalibrate (h : Hub) (m : Met) : Nat × Hub × Met :=
  let c := (m.arg 0).toNat
  let d := (m.arg 1).toNat
  if !m.stateIn [1] then (mState, h, m)
  else if m.outcome = 0 then (mUnconf, h, m)
  else if 8 ≤ c ∨ m.chOn c = false ∨ d = 0 ∨ 600 < d then (mArg, h, m)
  else (mOk, h, { m with calCh := some c, calDur := d, calN := 0, calSum := 0, calSq := 0 }.on fMetMbCmdBusy)

/-- MB_SET_TIME. -/
def execMbSetTime (s : State) : Out := liftBoth s (fun fx h m => mailbox fx h m 1 (runSetTime fx))

/-- The level of ball MLID_OPEN. -/
def Met.pin (m : Met) (mlid : Bool) : Met := m.wr fMetLidMlid (b2n mlid)

/-- MB_SEAL. -/
def execMbSeal (mlid : Bool) (s : State) : Out := liftBoth s (fun fx h m => mailbox fx h (m.pin mlid) 2 runSeal)
/-- MB_UNSEAL. -/
def execMbUnseal (mlid : Bool) (s : State) : Out := liftBoth s (fun fx h m => mailbox fx h (m.pin mlid) 3 runUnseal)
/-- MB_RETIRE. -/
def execMbRetire (mlid : Bool) (s : State) : Out := liftBoth s (fun fx h m => mailbox fx h (m.pin mlid) 4 runRetire)
/-- MB_DISCARD. -/
def execMbDiscard (s : State) : Out := liftBoth s (fun fx h m => mailbox fx h m 5 runDiscard)
/-- MB_ARCHIVE. -/
def execMbArchive (s : State) : Out := liftBoth s (fun fx h m => mailbox fx h m 6 runArchive)
/-- MB_LOG_SEEK. -/
def execMbLogSeek (s : State) : Out := liftBoth s (fun fx h m => mailbox fx h m 7 runSeek)

/-- CALIBRATE's start shows no result before its end. -/
def startCalibrate (fx : Fixed) (h : Hub) (m : Met) : Hub × Met :=
  let r := mailbox fx h m 8 runCalibrate
  if r.2.is fMetMbCmdBusy && !m.is fMetMbCmdBusy then
    (r.1, (r.2.wr fMetMbCmdResult (m.rd fMetMbCmdResult)).wr fMetStatusDone (m.rd fMetStatusDone))
  else r

/-- MB_CALIBRATE. -/
def execMbCalibrate (s : State) : Out := liftBoth s startCalibrate

/-- MB_UNKNOWN_OP: an op outside R425, shown as 0xFF by the command itself. -/
def execMbUnknownOp (s : State) : Out := liftBoth s (fun fx h m => mailbox fx h m 0xFF (fun h m => (mOp, h, m)))

/-- A `go` written to `met.mb.cmd` with an op. -/
def mbGo (fx : Fixed) (h : Hub) (m : Met) (op : Nat) : Hub × Met :=
  match op with
  | 1 => mailbox fx h m 1 (runSetTime fx)
  | 2 => mailbox fx h m 2 runSeal
  | 3 => mailbox fx h m 3 runUnseal
  | 4 => mailbox fx h m 4 runRetire
  | 5 => mailbox fx h m 5 runDiscard
  | 6 => mailbox fx h m 6 runArchive
  | 7 => mailbox fx h m 7 runSeek
  | 8 => startCalibrate fx h m
  | n => mailbox fx h m n (fun h m => (mOp, h, m))

/-- CALIBRATE_END: RMS and mean of the channel's samples, the CALIBRATE record. -/
def execCalibrateEnd (s : State) : Out :=
  liftMet s (fun _ m =>
    match m.calCh with
    | some c =>
      let n := m.calN
      let rms := if n = 0 then 0 else (isqrt (4 * m.calSq / n) + 1) / 2
      let mean : Int := if n = 0 then 0 else (2 * m.calSum + n) / (2 * (n : Int))
      let m1 := ({ m with calCh := none }.off fMetMbCmdBusy)
      let m2 := (m1.setReg (rMetMbRes 0) (w32 rms)).setReg (rMetMbRes 1) (w32 (ofInt mean 32))
      (m2.commitSeams.write 0x0E c 0 [w32 m.calDur, w32 rms, w32 (ofInt mean 32)]).mbEnd mOk
    | none => m)

/-! ### MPOR (R419, R420, R428) -/

/-- A record of the scan: its number follows, its CRC passes and its link continues the chain. -/
def Met.chains (m : Met) (r : List Word) : Bool :=
  r.length == 16 && (r.getD 1 0#32) == m.reg rMetLidNext && r.getD 15 0#32 == crc32Words (r.take 15) &&
    (r.drop 11).take 4 == (m.rd8 (rMetLidHead 0)).take 4

/-- The effect of a record the lid does not show: number, chain head, audit counter, state, freed records. -/
def Met.apply (m : Met) (r : List Word) : Met :=
  let n := m.rd fMetLidNextNext
  let m1 := ((m.wr fMetLidNextNext (n + 1)).wr8 (rMetLidHead 0) (sha256 r)).wr fMetLidAuditAudit (fieldOf (r.getD 4 0#32) 8 24)
  let m2 := m1.wr fMetLidState (fieldOf (r.getD 4 0#32) 5 3)
  if fieldOf (r.getD 0 0#32) 24 8 = 0x0C then m2.wr fMetLidFirstFirst (fieldOf (r.getD 5 0#32) 0 32 + 1) else m2

/-- Scan forward from the lid's next sequence number. -/
def Met.scan : Nat → Met → Met
  | 0, m => m
  | k + 1, m =>
    let r := NMap.get m.log (m.rd fMetLidNextNext % 8128)
    if m.chains r then Met.scan k (m.apply r) else m

/-- Registers of the partition's lid, which the FeRAM keeps. -/
def lidReg (a : Nat) : Bool := decide (0x800100 ≤ a) && decide (a < 0x800160)

/-- What MPOR clears; FeRAM and ball level stay, held seam entries are lost and counted. -/
def Met.clear (m : Met) : Met :=
  let held := m.seams.length
  let keep := m.regs.filter (fun e => lidReg e.1)
  let m1 : Met := { (default : Met) with
    regs := keep, incr := metNominal, log := m.log, pos := m.pos, gen := m.gen, warn := m.warn, up := true
    lost := m.lost, lostMask := m.lostMask }
  let m2 := ((m1.off fMetLidConfigured).off fMetLidUsed)
  let m3 := (List.range 8).foldl (fun a c => a.wr (fMetChStConv c) c) m2
  (List.range held).foldl (fun a _ => a.loseEntry 8) m3

/-- MPOR ends: the scan, the BOOT record, a cut-short slot marked TORN. -/
def Met.boot (m : Met) (nmrst torn : Bool) : Met :=
  let m1 := Met.scan 8128 m.clear
  let m2 := m1.wr fMetLidMporMpor (m1.rd fMetLidMporMpor + 1)
  let n := m2.rd fMetLidNextNext
  let pay := [w32 (m2.rd fMetLidMporMpor), w32 (b2n nmrst), if torn then w32 n else 0#32, m2.reg rMetLidOverflow]
  let m3 := if m2.takes 1 then m2.store (m2.record 0x01 0xFF (if torn then 2 else 0) pay) else m2.loseEntry 1
  (m3.flushLoss.showFree).on fMetStatusUnconf

/-- MPOR. The hub reads the state again; its copy of tb_met and that copy's registers return to reset. -/
def execMpor (nmrst torn : Bool) (s : State) : Out :=
  liftBoth s (fun fx h m =>
    if fx.variant.hasMet then
      let m1 := m.boot nmrst torn
      let h1 := { h with regs := h.regs.filter (fun e => !tbMetReg e.1), tbMet := 0 }
      (h1.readLc m1, m1)
    else (h, m))

end Sys2Proof.Machine
end

