-- ==== Sys2Proof/Machine/CasEnum.lean ====
section
/-! DEFINITION. Training, return of a link, and enumeration of the tree (spec/13 R331, R332, R342 to R346, spec/16 R444). -/

namespace Sys2Proof.Machine
open Sys2Proof

/-! ### The walk (R343) -/

/-- The enumeration of this hub ends well: number, hop count and path are shown, `enum_ok` set, the producer presented. -/
def Hub.enumGood (h : Hub) (devices : Nat) : Hub :=
  let c := h.cas
  let h1 := ((((h.wr fCasEnumState 2).wr fCasEnumCode 0).wr fCasEnumHops c.hops).wr fCasPathPath c.path.toNat).wr fGlbStatusDevnum c.num
  ((((h1.wr fCasEnumDevices devices).on fGlbStatusEnumOk).on fCasStatusEnumDone).modCas (fun x => { x with phase := 0 })).present
    0x8200

/-- Words of an ENUM frame. -/
def enumWords (next hops : Nat) (path : Word) : List Word := [w32 (next * 2 ^ 23 + hops * 2 ^ 17), path]

/-- The walk of this hub's subtrees ends: the master broadcasts ENUM_END and is done itself; any other hub answers its parent.
Answers whether this hub's enumeration ended here. -/
def Hub.walkEnd (fx : Fixed) (h : Hub) : Bool × Hub :=
  let c := h.cas
  let n := c.next - c.num
  if h.isMaster fx then (true, (h.enumGood n).bcastCtrl 0x03 [w32 (n * 2 ^ 22)])
  else (false, (h.modCas (fun x => { x with phase := 3 })).sendCtrl 0 0x02 0 [w32 (c.next % 512 * 2 ^ 23 + n * 2 ^ 13)])

/-- Send ENUM on a port with the next free number, or fail with TOO_MANY when none is left. -/
def Hub.sendEnum (h : Hub) (p : Nat) : Hub :=
  if 511 < h.cas.next then h.enumFail 3 h.cas.num true
  else (h.modLk p (fun x => { x with dev := h.cas.next })).sendCtrl p 0x01 0 (enumWords h.cas.next h.cas.hops h.cas.path)

/-- The walk comes to its BR subtree. -/
def Hub.walkBr (fx : Fixed) (h : Hub) : Bool × Hub :=
  if h.linkUp 2 then (false, (h.modCas (fun c => { c with phase := 2 })).sendEnum 2)
  else (h.wr fCasRangeBr 0).walkEnd fx

/-- A hub takes its number, hop count and path and walks its DN subtree, then its BR subtree. -/
def Hub.walk (fx : Fixed) (h : Hub) (num hops : Nat) (path : Word) : Bool × Hub :=
  let h1 := (h.modCas (fun c => { c with
    phase := 1, num := num, hops := hops, path := path, next := num + 1, renumPort := 0, begun := true })).wr fCasEnumState 1
  if h1.linkUp 1 then (false, h1.sendEnum 1) else (h1.wr fCasRangeDn 0).walkBr fx

/-- ENUM_DONE from the subtree the walk is in: its range is recorded and the walk goes on. -/
def Hub.walkOn (fx : Fixed) (h : Hub) (p n : Nat) : Bool × Hub :=
  let h1 := h.modCas (fun c => { c with next := c.next + n })
  if p = 1 then (h1.wr fCasRangeDn n).walkBr fx else (h1.wr fCasRangeBr n).walkEnd fx

/-- The master enumerates: alone when no port below has a partner (R342). -/
def Hub.masterEnum (fx : Fixed) (h : Hub) : Bool × Hub := if h.isMaster fx then h.walk fx 0 0 0#32 else (false, h)

/-- A command that may end this hub's enumeration: position and tag then pass to the partition (R346, R431). -/
def liftEnum (s : State) (f : Fixed → Hub → Bool × Hub) : Out :=
  liftBoth s (fun fx h m =>
    let r := f fx h
    (r.2, if r.1 then passPosition fx r.2 m else m))

/-! ### Training (R331, R332, R346) -/

/-- What a link that reaches UP starts: the first enumeration once no port below trains any more, a later one for another
partner under `auto_enum` (any, where the enumeration found none, R342), the old numbers for the subtree it had. -/
def Hub.upStarts (fx : Fixed) (h : Hub) (p : Nat) (same : Bool) : Bool × Hub :=
  if p = 0 then (false, h)
  else
    let range := h.rd (if p = 1 then fCasRangeDn else fCasRangeBr)
    if h.isMaster fx && !h.cas.begun then
      if h.rd (fCasPStatusState 1) = 1 ∨ h.rd (fCasPStatusState 2) = 1 then (false, h) else h.masterEnum fx
    else if same && h.is fGlbStatusEnumOk && range != 0 then
      let first := h.devnum + 1 + (if p = 1 then 0 else h.rd fCasRangeDn)
      (false, (h.modCas (fun c => { c with renumPort := p + 1 })).sendCtrl p 0x06 0 [w32 (first * 2 ^ 23 + range * 2 ^ 13)])
    else if (!same || (h.rd fCasEnumState == 2 && range == 0)) && h.is fCasEnumAutoEnum then h.masterEnum fx
    else (false, h)

/-- The partner's role and CMSTR are shown (R360). -/
def Hub.showPartner (h : Hub) (p role : Nat) (cmstr : Bool) : Hub :=
  (h.wr (fCasPStatusPartner p) (role + 1)).wr (fCasPStatusPartnerCmstr p) (b2n cmstr)

/-- Training ends: an illegal pairing or a delay over 60 µs (in units of 2^-8 ns) refuses the port, else it is UP with fresh
sequences and credits. -/
def Hub.trained (fx : Fixed) (h : Hub) (p role : Nat) (cmstr same : Bool) (dev delay : Nat) : Bool × Hub :=
  if h.rd (fCasPStatusState p) ≠ 1 ∨ h.linkOn fx p = false then (false, h)
  else if (p = 0) = (role = 0) then (false, (((h.setLinkState p 4).on (fCasPStatusWiring p)).showPartner p role cmstr).showRole fx)
  else if 15360000 < delay then (false, (((h.setLinkState p 4).on (fCasPStatusTooLong p)).showPartner p role cmstr).showRole fx)
  else
    let h1 := ((h.setLinkState p 2).on (fCasPStatusUp p)).showPartner p role cmstr
    let h2 := (h1.wr (fCasPDelayDelay p) delay).modLk p (fun x => { (default : Link) with txq := x.txq, rx := x.rx, dev := dev })
    ((h2.present (0x8000 + p)).showRole fx).upStarts fx p same

/-- LINK_TRAINED. -/
def execLinkTrained (p role : Fin 3) (cmstr same : Bool) (device : BitVec 9) (delay : BitVec 32) (s : State) : Out :=
  liftEnum s (fun fx h => h.trained fx p role cmstr same device.toNat delay.toNat)

/-- LINK_RETURN: a port in HOLD is UP again when its partner is the one it had; every unacknowledged frame goes again (R356). -/
def execLinkReturn (p role : Fin 3) (device : BitVec 9) (s : State) : Out :=
  liftHub s (fun fx h =>
    if h.rd (fCasPStatusState p) = 3 ∧ h.rd (fCasPStatusPartner p) = role.val + 1 ∧
        (p.val = 0 ∨ (h.lk p).dev = device.toNat) then
      (((h.setLinkState p 2).on (fCasPStatusUp p)).modLk p (fun x => { x with
        again := [1, 2, 3].foldl (fun a c => NMap.set a c (NMap.get x.retry c).length) [] })).present (0x8000 + p) |>.settle fx
    else h)

/-! ### Commands of an enumeration -/

/-- ENUM_GO: the master enumerates now; ignored elsewhere. -/
def execEnumGo (s : State) : Out :=
  liftEnum s (fun fx h =>
    if h.answers fx s.met .cas 0x1D0300 then h.masterEnum fx else (false, h.atReg fx s.met .cas 0x1D0300 id))

/-- MASTER_SELF_ENUM: 200 ms after the end of the clock start, when no port has reached UP. -/
def execMasterSelfEnum (s : State) : Out :=
  liftEnum s (fun fx h =>
    if h.clk.gates && !h.cas.begun && (List.range 3).all (fun p => h.rd (fCasPStatusPartner p) == 0) then h.masterEnum fx
    else (false, h))

/-- ENUM_TIMEOUT: NO_MASTER after 200 ms without an UP partner but with others, or without an ENUM since UP. -/
def execEnumTimeout (s : State) : Out :=
  liftHub s (fun fx h =>
    let up := h.rd (fCasPStatusPartner 0) != 0
    let below := h.rd (fCasPStatusPartner 1) != 0 || h.rd (fCasPStatusPartner 2) != 0
    if (!up && !fx.cmstr && below) || (up && h.linkUp 0 && h.rd fCasEnumState == 0) then h.enumFail 1 h.devnum false else h)

/-- A link-wise CTRL frame: checked, its credits released, its content taken here. -/
def Hub.takeHere (h : Hub) (p : Nat) (f : CasFrame) (act : Hub → Bool × Hub) : Bool × Hub :=
  let r := h.rxCheck p 1 f
  if r.1 then act (r.2.release p 1 f.words.length) else (false, r.2)

/-- ENUM from the parent: number, hop count and path; two masters and too deep a tree fail. -/
def Hub.enumTaken (fx : Fixed) (h : Hub) (w0 w1 : Word) : Bool × Hub :=
  let n := fieldOf w0 23 9
  let hp := fieldOf w0 17 6
  if fx.cmstr then (false, h.enumFail 2 n true)
  else if 32 ≤ hp then (false, h.enumFail 4 n true)
  else
    let bit := if h.rd (fCasPStatusPartner 0) = 3 then w32 (2 ^ hp) else 0#32
    h.walk fx n (hp + 1) (w1 ||| bit)

/-- ENUM. -/
def execEnum (p : Fin 3) (f : CasFrame) (s : State) : Out :=
  liftEnum s (fun fx h => h.takeHere p f (fun a =>
    if p.val = 0 then a.enumTaken fx (recWord (framePay f) 0) (recWord (framePay f) 1) else (false, a)))

/-- A subtree given its old numbers answers: its count must be the one recorded, else LOST is reported (R444). -/
def Hub.renumAnswer (h : Hub) (p n : Nat) : Hub :=
  let h1 := h.modCas (fun c => { c with renumPort := 0 })
  if n = h.rd (if p = 1 then fCasRangeDn else fCasRangeBr) then
    h1.queueTx p (h1.ctrlFrame 0x03 0 true [w32 (n * 2 ^ 22)])
  else
    let w := w32 (5 * 2 ^ 28 + h1.devnum * 2 ^ 19)
    if h1.linkUp 0 then h1.sendCtrl 0 0x04 0 [w] else h1.enumFail 5 h1.devnum false

/-- ENUM_DONE from below. -/
def execEnumDone (p : Fin 3) (f : CasFrame) (s : State) : Out :=
  liftEnum s (fun fx h => h.takeHere p f (fun a =>
    let n := fieldOf (recWord (framePay f) 0) 13 10
    if p.val ≠ 0 ∧ a.enumRuns = true ∧ a.cas.phase = p.val then a.walkOn fx p n
    else if a.cas.renumPort = p.val + 1 then (false, a.renumAnswer p n)
    else (false, a)))

/-- ENUM_END from above: broadcast on, and taken by a hub that has its number. -/
def execEnumEnd (f : CasFrame) (s : State) : Out :=
  liftBoth s (fun fx h m =>
    let h1 := h.takeCtrl fx 0 0x03 f (fun a => if a.enumRuns && a.cas.phase == 3 then a.enumGood 0 else a)
    (h1, if h.enumRuns && h1.rd fCasEnumState == 2 then passPosition fx h1 m else m))

/-- ENUM_FAIL: from below it goes up to the master, or to the root of the subtree, which broadcasts it; from above every hub
takes it and passes it on. -/
def Hub.failTaken (fx : Fixed) (h : Hub) (p : Nat) (w : Word) : Hub :=
  if p ≠ 0 ∧ h.isMaster fx = false ∧ h.linkUp 0 = true then h.sendCtrl 0 0x04 0 [w]
  else h.enumFail (fieldOf w 28 4) (fieldOf w 19 9) false

/-- ENUM_FAIL. -/
def execEnumFail (p : Fin 3) (f : CasFrame) (s : State) : Out :=
  liftEnum s (fun fx h => h.takeHere p f (fun a => (false, a.failTaken fx p (recWord (framePay f) 0))))

/-- LOST: a hub of the subtree of an expired UP port clears `enum_ok`, and its bridges fed over that port wait (R357). -/
def execLost (p : Fin 3) (f : CasFrame) (s : State) : Out :=
  liftHub s (fun fx h => h.takeCtrl fx p 0x05 f (fun a => (a.bgAwait fx p).off fGlbStatusEnumOk))

/-- RENUM: the subtree takes its old numbers by the walk, this hub its old hop count and path (R444). -/
def execRenum (f : CasFrame) (s : State) : Out :=
  liftEnum s (fun fx h => h.takeHere 0 f (fun a =>
    let r := a.walk fx (fieldOf (recWord (framePay f) 0) 23 9) a.cas.hops a.cas.path
    (r.1, r.2.modCas (fun c => { c with renum := some (fieldOf (recWord (framePay f) 0) 13 10) }))))

/-! ### Reports from other hubs (R354, R448) -/

/-- NOTIFY: the master writes a NOTICE of code REMOTE_LOADER. -/
def execNotify (p : Fin 3) (f : CasFrame) (s : State) : Out :=
  liftHub s (fun fx h => h.takeCtrl fx p 0x09 f (fun a =>
    let dev := fieldOf (recWord (framePay f) 1) 23 9
    if a.isMaster fx then a.log 0x22 0xC8 0x91 0 dev (recWord (framePay f) 0) (w32 dev) else a))

/-- LOG: a log record of another hub takes the master's log path. -/
def execLogFrameReceive (p : Fin 3) (f : CasFrame) (s : State) : Out :=
  liftHub s (fun fx h => h.takeCtrl fx p 0x0C f (fun a =>
    if a.isMaster fx then a.logWords (fieldOf (recWord (framePay f) 0) 24 8) (framePay f) else a))

/-- UNKNOWN_CTRL_FRAME: acknowledged, discarded and counted (R337). -/
def execUnknownCtrlFrame (p : Fin 3) (f : CasFrame) (s : State) : Out :=
  liftHub s (fun _ h => (h.takeHere p f (fun a => (false, a.countSat (fCasPCount2Unroutable p) 1))).2)

end Sys2Proof.Machine
end

