-- ==== Sys2Proof/Machine/Clocks.lean ====
section
/-! DEFINITION. Clock start, loss of clocks and the FCLK slew (spec/01 R10, R11, R15, R16, R19). -/

namespace Sys2Proof.Machine
open Sys2Proof

/-! ### Shared operations -/

def Hub.modClk (h : Hub) (f : Clk → Clk) : Hub := { h with clk := f h.clk }

/-- The clock gates open once the fabric PLL is locked after a passing count and the time PLL's lock (R10); the loader may then
start, and a hub in CLOCKS is UNCONFIGURED. -/
def Hub.gatesOpen (h : Hub) : Hub :=
  if h.is fClkStatusRefclkOk && h.is fClkStatusTimeLock && h.is fClkStatusFabLock && !h.clk.gates && !h.clk.held then
    let h1 := h.modClk (fun c => { c with gates := true })
    if h1.rd fGlbStatusRun = 0 then h1.wr fGlbStatusRun 1 else h1
  else h

/-- The CLOCK section turns the link PLL off (R19). -/
def Hub.linkPllOff (h : Hub) : Bool := h.cf 2 25 0 5 1 == 1

/-- The lock bit of a PLL. -/
def lockBit : Pll → Fld
  | .time => fClkStatusTimeLock
  | .fabric => fClkStatusFabLock
  | .link => fClkStatusLinkLock

def pllNo : Pll → Nat
  | .time => 0
  | .fabric => 1
  | .link => 2

/-! ### FCLK steps (R15, R16): resting points 0 480 MHz, 1 456 MHz, 2 432 MHz -/

/-- Start slewing one resting point toward `p`; a point two steps away follows as a held step. -/
def Hub.startSlew (h : Hub) (p : Nat) : Hub :=
  let cur := h.rd fClkStatusFclkPoint
  if p = cur then h
  else
    let goal := if p < cur then cur - 1 else cur + 1
    (h.modClk (fun c => { c with slewTo := goal, slewStep := 0, next := if goal = p then c.next else some p })).on fClkStatusSlewing

/-- Both PLLs an FCLK step needs are locked. -/
def Hub.stepReady (h : Hub) : Bool :=
  !h.clk.holdover && h.is fClkStatusTimeLock && h.is fClkStatusFabLock

/-- The lowest resting point FCLK may take: FCLK_planned in force, or a higher one that waits for FCLK to slew up to it. -/
def Hub.planFloor (h : Hub) : Nat :=
  match h.clk.plan with
  | some x => min x (h.rd fClkStatusFclkPlan)
  | none => h.rd fClkStatusFclkPlan

/-- A request to move FCLK: refused below FCLK_planned, held while slewing, deferred without lock, else started. One request is
held and one deferred; a later one takes the place of the one that waits (DESIGN CHOICE, log entry 83: R16 names no third
request). -/
def Hub.stepRequest (h : Hub) (p : Nat) : Hub :=
  if h.planFloor < p then h.on fClkStatusStepDeferred
  else if h.is fClkStatusSlewing then (h.modClk (fun c => { c with next := some p })).on fClkStatusStepDeferred
  else if !h.stepReady then (h.modClk (fun c => { c with deferred := some p })).on fClkStatusStepDeferred
  else h.startSlew p

/-- A new FCLK_planned: it takes effect at once, or after FCLK has slewed up to it (R16). -/
def Hub.setPlan (h : Hub) (code : Nat) : Hub :=
  if h.rd fClkStatusFclkPoint ≤ code ∧ !h.is fClkStatusSlewing then
    (h.modClk (fun c => { c with plan := none })).wr fClkStatusFclkPlan code
  else
    let h1 := h.modClk (fun c => { c with plan := some code })
    if h1.is fClkStatusSlewing then h1
    else if h1.stepReady then h1.startSlew code
    else (h1.modClk (fun c => { c with deferred := some code })).on fClkStatusStepDeferred

/-- A step deferred until both PLLs are locked is taken, unless FCLK_planned has risen above it meanwhile. -/
def Hub.resumeDeferred (h : Hub) : Hub :=
  match h.clk.deferred with
  | some p =>
    if h.stepReady && !h.is fClkStatusSlewing then (h.modClk (fun c => { c with deferred := none })).stepRequest p else h
  | none => h

/-- FCLK rests at its new point: a waiting plan takes effect, and a held step follows. -/
def Hub.slewDone (h : Hub) : Hub :=
  if h.is fClkStatusSlewing && h.clk.slewStep == 64 then
    let h1 := ((h.wr fClkStatusFclkPoint h.clk.slewTo).off fClkStatusSlewing).modClk (fun c => { c with slewStep := 0 })
    let h2 := match h1.clk.plan with
      | some code => h1.setPlan code
      | none => h1
    match h2.clk.next with
    | some p => if h2.is fClkStatusSlewing then h2 else (h2.modClk (fun c => { c with next := none })).stepRequest p
    | none => h2
  else h

/-- FCLK_STEP_REQUEST. -/
def execFclkStepRequest (point : Fin 3) (s : State) : Out := liftHub s (fun _ h => h.stepRequest point)

/-- FCLK_SLEW_STEP: one 1/64 of the divider. -/
def execFclkSlewStep (s : State) : Out :=
  liftHub s (fun _ h =>
    if h.is fClkStatusSlewing && decide (h.clk.slewStep < 64) then h.modClk (fun c => { c with slewStep := c.slewStep + 1 })
    else h)

/-- FCLK_SLEW_DONE. -/
def execFclkSlewDone (s : State) : Out := liftHub s (fun _ h => h.slewDone)

/-! ### The start sequence (R10, R11) -/

/-- POR is released: WCLK starts and every other clock waits for its own step; the straps and the banks' classes are taken (R31,
R494), master and standalone follow CMSTR (R342), and the DX-192U shows its factory life-cycle state (R459). -/
def Hub.porRelease (fx : Fixed) (h : Hub) : Hub :=
  if h.clk.step ≠ 0 ∨ h.asleep = true then h
  else
    let h0 := ((h.modClk (fun c => { c with step := 1 })).wr fClkSupBankBank fx.banks.toNat).wr fLdrBootStraps fx.bootsrc.val
    let h1 := h0.showRole fx
    if fx.variant.hasMet then h1
    else
      let h2 := ((h1.wr fHltLcState h1.hlt.factory).on fHltLcValid).wr fGlbStatusLc h1.hlt.factory
      { h2 with hlt := { h2.hlt with lcKnown := true } }

/-- POR_RELEASE. -/
def execPorRelease (s : State) : Out := liftHub s (fun fx h => h.porRelease fx)

/-- A count of 256 REFCLK edges ends: before the start it enables the time and link PLLs; in holdover a passing one ends the
holdover. -/
def Hub.countEnd (h : Hub) (pass : Bool) : Hub :=
  if h.clk.step = 1 then
    if pass then (h.on fClkStatusRefclkOk).modClk (fun c => { c with step := 2, recount := false })
    else h.modClk (fun c => { c with recount := true })
  else if h.clk.holdover && pass then (h.on fClkStatusRefclkOk).modClk (fun c => { c with holdover := false })
  else h

/-- REFCLK_COUNT_WINDOW_END: the count of the start sequence, or a window during holdover. -/
def execRefclkCountWindowEnd (pass : Bool) (s : State) : Out :=
  liftHub s (fun _ h => if h.clk.recount then h else h.countEnd pass)

/-- REFCLK_RECOUNT: the count repeated every 100 µs after a failed one. -/
def execRefclkRecount (pass : Bool) (s : State) : Out :=
  liftHub s (fun _ h => if h.clk.recount then h.countEnd pass else h)

/-- WCLK_TRIM_COMPLETE. -/
def execWclkTrimComplete (s : State) : Out :=
  liftHub s (fun _ h => if h.is fClkStatusRefclkOk && h.clk.step != 0 then h.on fClkStatusWclkTrim else h)

/-- A PLL may lock: REFCLK passes; the fabric PLL runs from a locked time PLL; the link PLL is not turned off. -/
def Hub.mayLock (h : Hub) (p : Pll) : Bool :=
  h.is fClkStatusRefclkOk && !h.clk.held && (match p with
    | .time => !h.clk.holdover
    | .fabric => h.is fClkStatusTimeLock
    | .link => !h.linkPllOff)

/-- PLL_LOCKED: the lock bit, the clock gates, a deferred FCLK step. -/
def Hub.pllLocked (h : Hub) (p : Pll) : Hub :=
  if h.mayLock p then
    (((h.on (lockBit p)).modClk (fun c => { c with fails := NMap.set c.fails (pllNo p) 0 })).gatesOpen).resumeDeferred
  else h

/-- PLL_LOCKED. -/
def execPllLocked (p : Pll) (s : State) : Out := liftHub s (fun _ h => h.pllLocked p)

/-- A second failed attempt: every domain but WCLK and ACLK is held in reset and the hub is HALTED (R11, PLL_FAIL). -/
def Hub.pllFail (fx : Fixed) (h : Hub) (p : Pll) : Hub :=
  let h1 := (h.off (lockBit p)).fault 0x03 0 0xCD 0#32 0#32
  let h2 := h1.clearDevice fx
  ({ h2 with flt := { h2.flt with recs := [] } }.showRecs.modClk (fun c => { c with held := true, gates := false })).wr
    fGlbStatusRun 6

/-- PLL_LOCK_TIMEOUT: a PLL that runs and has not locked is restarted once. One that is off, in holdover or without its reference
is not yet locking. -/
def Hub.pllTimeout (fx : Fixed) (h : Hub) (p : Pll) : Hub :=
  if !h.mayLock p || h.is (lockBit p) then h
  else if NMap.get h.clk.fails (pllNo p) = 0 then h.modClk (fun c => { c with fails := NMap.set c.fails (pllNo p) 1 })
  else h.pllFail fx p

/-- PLL_LOCK_TIMEOUT. -/
def execPllLockTimeout (p : Pll) (s : State) : Out := liftHub s (fun fx h => h.pllTimeout fx p)

/-! ### Loss and return in service (R11, R440, R446) -/

/-- REFCLK_LOST: holdover; the domains keep running. -/
def Hub.refclkLost (h : Hub) : Hub :=
  if h.is fClkStatusRefclkOk then
    (((((h.off fClkStatusRefclkOk).off fClkStatusTimeLock).on fClkStatusRefclkLost).on fClkStatusLockLost).modClk
      (fun c => { c with holdover := true })).fault 0x01 0 0xCD 0#32 0#32
  else h

/-- REFCLK_LOST. -/
def execRefclkLost (s : State) : Out := liftHub s (fun _ h => if h.clk.gates then h.refclkLost else h)

/-- REFCLK_RETURN: the first passing window ends the holdover. -/
def execRefclkReturn (s : State) : Out := liftHub s (fun _ h => if h.clk.holdover then h.countEnd true else h)

/-- A recovery of a scope runs on a PLL (R446). -/
def runsOn (scope : Nat) : Pll → Bool
  | .time => scope != 5 && scope != 6
  | .fabric => scope == 2 || scope == 4 || scope == 7 || scope == 9
  | .link => scope == 5 || scope == 9

/-- PLL_LOST: the hub relocks without a reset; a recovery that runs on the PLL escalates. -/
def Hub.pllLost (fx : Fixed) (h : Hub) (p : Pll) : Hub :=
  if h.is (lockBit p) then
    (((h.off (lockBit p)).on fClkStatusLockLost).fault 0x02 0 0xCD 0#32 0#32).escalateAll fx (fun r => runsOn r.scope p)
  else h

/-- PLL_LOST. -/
def execPllLost (p : Pll) (s : State) : Out := liftHub s (fun fx h => h.pllLost fx p)

end Sys2Proof.Machine
end

