-- ==== Sys2Proof/Machine/Rewind.lean ====
section
/-! DEFINITION. Rewind rings and the debug window (spec/11 R293 to R300). -/

namespace Sys2Proof.Machine
open Sys2Proof

/-- RING_LINE_WRITE (R294): the oldest line gathered goes to its slot. -/
def Hub.ringLine (h : Hub) (c : Nat) : Hub :=
  match h.ringCfg c with
  | none => h
  | some k =>
    let g := NMap.get h.ring c
    if g.line.length < 8 ∨ h.stHoldsQueues = true then h
    else
      let h1 := h.storeRing k ((g.next - g.line.length) / 8) g.line
      { h1 with ring := NMap.set h1.ring c { g with line := g.line.drop 8 } }

/-- RING_LINE_WRITE. -/
def execRingLineWrite (c : Fin 192) (s : State) : Out := liftHub s (fun _ h => h.ringLine c)

/-- A fire reaches an ARMED ring (R296): the next sample written is the trigger sample, the mark goes to the line of t − P, or to the
oldest line the ring keeps. -/
def Hub.ringTrigger (h : Hub) (c : Nat) (k : RingCfg) : Hub :=
  let g := NMap.get h.ring c
  let t := g.next
  let want := (t - k.pre) / 8 * 8
  let oldest := ((t + 7) / 8 - k.lines) * 8
  let past := decide (want < oldest)
  let h1 := if past then h.ringOverrun c else h
  { h1 with ring := NMap.set h1.ring c { g with
      trig := t, post := k.post, mark := max want oldest, lost := oldest - want, overFlag := past
      startFlag := decide (t < k.pre) || want == 0, cut := false, rdLost := 0, hdrDone := false, orTag := 0#8 } }.wr
    (fQRStatusState c) 2

/-- A fire reaches a ring. One that is ignored in IDLE is remembered for its cycle: an arm of the same cycle is taken first (R295). -/
def Hub.ringFire (h : Hub) (c : Nat) : Hub :=
  match h.ringCfg c with
  | none => h
  | some k =>
    if h.ringState c = 1 then h.ringTrigger c k
    else
      let was := (h.cyc, h.is (fQRStatusFireIgn c), h.rd (fQRCountIgnored c))
      let h1 := if h.ringState c = 0 then
          { h with ring := NMap.modify h.ring c (fun g => { g with ign := match g.ign with
            | some (y, f, n) => if y = h.cyc then some (y, f, n) else some was
            | none => some was }) }
        else h
      (h1.on (fQRStatusFireIgn c)).countSat (fQRCountIgnored c) 1

/-- Arm a capture (R295); with a fire of the same cycle the capture starts, and that fire was not ignored. -/
def Hub.ringArm (h : Hub) (c : Nat) : Hub :=
  match h.ringCfg c with
  | none => h
  | some k =>
    let st := h.ringState c
    if st = 0 then
      match (NMap.get h.ring c).ign with
      | some (y, f, n) =>
        if y = h.cyc then (((h.wr (fQRStatusFireIgn c) (b2n f)).wr (fQRCountIgnored c) n)).ringTrigger c k
        else h.wr (fQRStatusState c) 1
      | none => h.wr (fQRStatusState c) 1
    else if st = 1 then h
    else h.on (fQRStatusArmRef c)

/-- RING_ARM. -/
def execRingArm (c : Fin 192) (s : State) : Out :=
  liftHub s (fun fx h => h.atReg fx s.met .q (0x1B0000 + 0x20 * c) (fun h => h.ringArm c))

/-- RING_FIRE. -/
def execRingFire (c : Fin 192) (s : State) : Out :=
  liftHub s (fun fx h => h.atReg fx s.met .q (0x1B0000 + 0x20 * c) (fun h => h.ringFire c))

/-! ### The read-out (R297, R298) -/

/-- An uncorrectable ring word: `r_uncorr` and its log. -/
def Hub.ringUncorr (h : Hub) (c a : Nat) : Hub := (h.on (fQRStatusRUncorr c)).fault 0x31 c 0xC6 (w32 a) 0#32

/-- Line `ln` of a capture still stands among the samples gathered: those samples. -/
def Ring.held (g : Ring) (ln : Nat) : Option (List Samp) :=
  if !g.restarted && decide (g.next - g.line.length ≤ 8 * ln) then some (g.line.drop (8 * ln - (g.next - g.line.length))) else none

/-- The time of a capture's first sample, from its line. Of a discarded line, or one whose time words are uncorrectable, the spec states
none: it is a free value (DESIGN CHOICE, log entry 103). -/
def Hub.ringTime (h : Hub) (c : Nat) (k : RingCfg) (g : Ring) (us : List Upset) : Nat × Hub :=
  let ln := g.pos / 8
  let a := k.addr ln
  if g.gone.contains ln then h.takeFree
  else match g.held ln with
  | some xs => ((xs.headD default).time, h)
  | none =>
    let r := h.readWords (a + 5) 2 (us.drop 5)
    match r.1.findIdx? (fun w => w.1 == .uncorrectable) with
    | some i => (r.2.ringUncorr c (a + 5 + i)).takeFree
    | none =>
      match r.1 with
      | [x, y] => (x.2.toNat * 65536000000000 + y.2.toNat, r.2)
      | _ => (0, r.2)

/-- The seven header words of a CAPTURE record. -/
def captureHeader (h : Hub) (c : Nat) (k : RingCfg) (g : Ring) (t : Nat) : List QWord :=
  let fl := b2n g.startFlag * 4 + b2n g.cut * 2 + b2n g.overFlag
  match timeWords t with
  | [a, b, d, f] =>
    [recHeader 0x02 c (8 + g.keep + g.post), a, b, d, f ||| w32 fl, w32 (g.keep * 65536 + g.post),
     w32 (satTo 16 g.lost * 65536 + k.num * 256 + h.rd (fQRCountCaptures c) % 256)].map (fun w => qword false 7 0 w)
  | _ => []

/-- The sample words of line `ln` of a capture: GAP placeholders for a discarded line, ABORTED ones for samples an uncorrectable word
holds a part of. -/
def Hub.ringWords (h : Hub) (c : Nat) (k : RingCfg) (g : Ring) (ln : Nat) (us : List Upset) : List Word × Hub :=
  if g.gone.contains ln then (List.replicate 8 (w32 (0x02 * 2 ^ 24)), h)
  else match g.held ln with
  | some xs => (xs.map sampWord, h)
  | none =>
    let a := k.addr ln
    let r := h.readWords a 5 us
    let bad (w : Nat) : Bool := match r.1[w]? with | some x => x.1 == .uncorrectable | none => false
    let ws := unpackLine (r.1.map Prod.snd) 8
    (ws.zipIdx.map (fun p => if bad (40 * p.2 / 64) || bad ((40 * p.2 + 39) / 64) then w32 (0x04 * 2 ^ 24) else qPayload p.1),
     (List.range 5).foldl (fun b i => if bad i then b.ringUncorr c (a + i) else b) r.2)

/-- CAPTURE_READOUT (R297, R298): header first, a line of samples at each grant, then the trailer. The read-out goes on once the queue has
taken what it gave. `us` are the upsets of the line's seven words. -/
def Hub.readout (h : Hub) (c : Nat) (us : List Upset) : Hub :=
  match h.ringCfg c with
  | none => h
  | some k =>
    if h.ringState c ≠ 3 || h.recovering 1 k.q || h.stHoldsQueues || !(NMap.get h.outbox (prodRing c)).isEmpty then h
    else
      let g0 := NMap.get h.ring c
      let h0 := if g0.hdrDone then h
        else
          let t := h.ringTime c k g0 us
          t.2.pushOut (prodRing c) k.q (captureHeader t.2 c k g0 t.1)
      let g := { g0 with hdrDone := true }
      if g.pos < g.stop then
        let ln := g.pos / 8
        let hi := min (8 * ln + 8) g.stop
        let r := h0.ringWords c k g ln us
        let out := (r.1.drop (g.pos % 8)).take (hi - g.pos)
        let tags := out.foldl (fun t w => t ||| w.extractLsb' 24 8) g.orTag
        let h2 := r.2.pushOut (prodRing c) k.q (out.map (fun w => qword false 1 0 w))
        { h2 with ring := NMap.set h2.ring c { g with
            pos := hi, orTag := tags, rdLost := if g.gone.contains ln then g.rdLost + (hi - g.pos) else g.rdLost } }
      else
        { h0.pushOut (prodRing c) k.q [qword true 7 0 (w32 (satTo 16 g.rdLost * 65536 + g.orTag.toNat * 256))] with
          ring := NMap.set h0.ring c g }

/-- CAPTURE_READOUT. -/
def execCaptureReadout (c : Fin 192) (upsets : List Upset) (s : State) : Out := liftHub s (fun _ h => h.readout c upsets)

/-! ### The debug window (R75, R300, R305) -/

/-- The stockpot word an offset into the window shows. -/
def Hub.dbgWord (h : Hub) (a : Nat) : Nat := h.rd fQDbgPagePage * 524288 + a / 8

/-- A read of the window: the word corrected, its check byte and syndrome latched. A destructive test of the stockpot
holds the window as it holds the queues (R465, log entry 122). -/
def Hub.dbgGet (h : Hub) (a : Nat) (u : Upset) : Word × Hub :=
  if h.stHolds 0 then (0#32, h.refusedBy [0]) else
  let w := h.dbgWord a
  let r := h.readStock w u
  let chk := (Config.checkBits (h.stockAt w) (BitVec.ofNat 21 w)) ^^^ u.data.extractLsb' 64 8
  let syn := if r.1 = .good then (0, r.2.2) else (let f := r.2.2.takeFree; (1 + f.1 % 255, f.2))
  let h1 := (syn.2.wr fQDbgChkStored chk.toNat).wr fQDbgChkSyndrome syn.1
  ((if a / 4 % 2 = 0 then r.2.1.extractLsb' 0 32 else r.2.1.extractLsb' 32 32), h1)

/-- DBG_READ: word `i` of the window. -/
def execDbgRead (i : BitVec 20) (upset : Upset) (s : State) : Out :=
  liftHub s (fun fx h => h.readOf fx s.met .dbg (0xC00000 + 4 * i.toNat) (fun h => h.dbgGet (4 * i.toNat) upset))

/-- A write at +0 is held. -/
def Hub.dbgLow (h : Hub) (a : Nat) (w : Word) : Hub := { h with dbgHeld := [(h.dbgWord a, w)] }

/-- DBG_WRITE_LOW. -/
def execDbgWriteLow (i : BitVec 19) (w : Word) (s : State) : Out :=
  liftHub s (fun fx h => h.atReg fx s.met .dbg (0xC00000 + 8 * i.toNat) (fun h => h.dbgLow (8 * i.toNat) w))

/-- A write at +4 writes both halves: the held one, or the stored one where none is held. -/
def Hub.dbgHigh (h : Hub) (a : Nat) (w : Word) : Hub :=
  if h.stHolds 0 then h.refusedBy [0] else
  let k := h.dbgWord a
  let lo := NMap.getD h.dbgHeld k ((h.stockAt k).extractLsb' 0 32)
  { (h.setStock k (w ++ lo)) with dbgHeld := [] }

/-- DBG_WRITE_HIGH. -/
def execDbgWriteHigh (i : BitVec 19) (w : Word) (s : State) : Out :=
  liftHub s (fun fx h => h.atReg fx s.met .dbg (0xC00004 + 8 * i.toNat) (fun h => h.dbgHigh (8 * i.toNat) w))

end Sys2Proof.Machine
end

