-- ==== Sys2Proof/Machine/Contexts.lean ====
section
/-! DEFINITION. What the host and the comparators do to contexts and coefficient banks (spec/06 R150, R160 to R163, R171, spec/07
R187 to R192). -/

namespace Sys2Proof.Machine
open Sys2Proof

/-! ### SHADOW_COMPARE (R161) -/

/-- SHADOW_COMPARE: `flipTag` and `flipVal` are how an error of the datapath changed the tags and the value of the shadow copy's
word. -/
def execShadowCompare (c : Fin 192) (flipTag : BitVec 8) (flipVal : BitVec 24) (s : State) : Out :=
  liftHub s (fun fx h => if h.ctxShadow c && !h.recovering 2 c then Hub.cmpStep fx h c (flipTag ++ flipVal) else h)

/-! ### DIGEST_BLOCK_END, DIG_RESTART, DIG_SEQ_READ (R162, R163, R171) -/

/-- A pass-through: no stages and both digests on. -/
def Hub.passThrough (h : Hub) (c : Nat) : Bool := h.ctxStages c == 0 && h.digOn c false && h.digOn c true

/-- Compare the oldest IN and HEAD blocks of one number. -/
def Hub.digCompare (h : Hub) (c : Nat) : Hub :=
  let y := NMap.get h.ctx c
  match y.blkIn.find? (fun b => y.blkHead.any (fun d => d.1 == b.1)) with
  | none => h
  | some (n, din) =>
    match y.blkHead.find? (fun d => d.1 == n) with
    | none => h
    | some (_, dhd) =>
      let h1 := { h with ctx := NMap.set h.ctx c { y with
        blkIn := y.blkIn.filter (fun b => b.1 != n), blkHead := y.blkHead.filter (fun b => b.1 != n)
        spoiltBlk := y.spoiltBlk.filter (fun k => k != n) } }
      if y.spoiltBlk.contains n then h1.on (fFabCStatusDigLost c)
      else if din = dhd then h1
      else ((h1.on (fFabCStatusDigMis c)).present (0x3300 + c)).fault 0x23 c 0xC2 (w32 c) (w32 n)

/-- A digest point latches its finished block with the block number; a pass-through compares IN block n with HEAD block n. -/
def Hub.digBlockEnd (h : Hub) (c : Nat) (head : Bool) : Hub :=
  let y := NMap.get h.ctx c
  let d := if head then y.digHead else y.digIn
  match d.done with
  | [] => h
  | (v, bad) :: rest =>
    let num := d.num % 65536
    let d1 := { d with done := rest, num := (d.num + 1) % 65536 }
    let cmp := h.passThrough c && !y.digStop
    let y1 := if head then
        { y with digHead := d1, blkHead := if cmp then y.blkHead ++ [(num, v)] else y.blkHead }
      else
        { y with
          digIn := d1, blkIn := if cmp then y.blkIn ++ [(num, v)] else y.blkIn
          spoiltBlk := if cmp && bad then y.spoiltBlk ++ [num] else y.spoiltBlk }
    let h1 := { h with ctx := NMap.set h.ctx c y1 }
    let h2 := if head then (h1.wr (fFabCDigSeqHead c) num).setReg (fFabCDigHeadDigHead c).addr v
      else (h1.wr (fFabCDigSeqIn c) num).setReg (fFabCDigInDigIn c).addr v
    if cmp then h2.digCompare c else h2

/-- DIGEST_BLOCK_END. -/
def execDigestBlockEnd (c : Fin 192) (head : Bool) (s : State) : Out := liftHub s (fun _ h => h.digBlockEnd c head)

/-- DIG_RESTART. -/
def execDigRestart (c : Fin 192) (s : State) : Out :=
  liftHub s (fun fx h => h.atReg fx s.met .fab (0x0A0008 + 0x40 * c) (fun h => h.digRestart c))

/-- Reading `dig_seq` latches the two digests for the next reads. -/
def Hub.digSeqRead (h : Hub) (c : Nat) : Word × Hub :=
  (h.reg (rFabCDigSeq c), { h with ctx := NMap.modify h.ctx c (fun y => { y with
    digLatch := some (h.reg (rFabCDigIn c), h.reg (rFabCDigHead c)) }) })

/-- DIG_SEQ_READ. -/
def execDigSeqRead (c : Fin 192) (s : State) : Out :=
  liftHub s (fun fx h => h.readOf fx s.met .fab (0x0A0014 + 0x40 * c) (fun h => h.digSeqRead c))

/-! ### CONTEXT_ENABLE_WRITE (R150, R190) -/

/-- A stage counts as switched, for idleness, in a swap in progress (R190). -/
def Hub.idleSwitch (h : Hub) (k : Nat) : Hub :=
  let t := h.stTile (k / 8) (k % 8)
  if h.bankKind k && (NMap.get h.tile t).swap.isSome && !(NMap.get h.stg k).switched then
    ((h.modStg (k / 8) (k % 8) (fun s => { s with switched := true })).countSat (fFabTFadeIdle t) 1).endSwap 2 t
  else h

/-- Stages of a disabled context and their copies count as switched in a swap in progress. -/
def Hub.idleSwitchCtx (h : Hub) (c : Nat) : Hub :=
  (h.chainsOf c).foldl (fun a x => (List.range (h.ctxStages c)).foldl (fun b i => b.idleSwitch (8 * x + i)) a) h

/-- The enable bit: 0 discards input and gives no output; back at 1, the first output carries GAP. -/
def Hub.ctxEnable (h : Hub) (c : Nat) (on : Bool) : Hub :=
  let h1 := h.wr (fFabCCtlEnable c) (b2n on)
  if on then
    if h.is (fFabCCtlEnable c) then h1
    else { h1 with ctx := NMap.modify h1.ctx c (fun y => { y with gapOut := true, begun := false }) }
  else h1.idleSwitchCtx c

/-- CONTEXT_ENABLE_WRITE. -/
def execContextEnableWrite (c : Fin 192) (on : Bool) (s : State) : Out :=
  liftHub s (fun fx h => h.atReg fx s.met .fab (0x0A0008 + 0x40 * c) (fun h => h.ctxEnable c on))

/-! ### SWAP_REQUEST and FADE_IDLE_SWITCH (R187, R190, R191) -/

/-- A swap request reaches a tile and latches its bank and length. It waits behind a swap in progress, and behind a committed load that
is to write a bank (R47, R191, R192). -/
def Hub.swapRequest (h : Hub) (t : Nat) : Hub :=
  let b := h.rd (fFabTFirBankNext t)
  let len := h.rd (fFabTFirFadeLen t)
  let x := NMap.get h.tile t
  if h.recovering 4 t then h
  else if x.swap.isNone && x.wait.isNone && b == h.rd (fFabTStatusBankAct t) then h
  else if x.swap.isNone && x.wait.isNone && !h.coefPending t then (h.beginSwap t b len).endSwap 2 t
  else
    (h.domain t).foldl (fun a u =>
      let repl := (NMap.get a.tile u).wait.isSome
      let a1 := { a with tile := NMap.modify a.tile u (fun y => { y with wait := some (b, len) }) }
      let a2 := if repl then (a1.on (fFabTStatusSwapRepl u)).countSat (fFabTCountSwapRepl u) 1 else a1
      a2.showSwap u) h

/-- SWAP_REQUEST. -/
def execSwapRequest (t : Fin 32) (s : State) : Out :=
  liftHub s (fun fx h => h.atReg fx s.met .fab (0x080008 + 0x1000 * t) (fun h => h.swapRequest t))

/-- A FIR or DETECT stage idle for four output periods counts as switched. -/
def Hub.fadeIdle (h : Hub) (t j : Nat) : Hub :=
  match h.slotStage t j with
  | some k => if h.stTile (k / 8) (k % 8) = t then h.idleSwitch k else h
  | none => h

/-- FADE_IDLE_SWITCH. -/
def execFadeIdleSwitch (t : Fin 32) (slot : Fin 64) (s : State) : Out := liftHub s (fun _ h => h.fadeIdle t slot)

/-! ### COEF_WINDOW_WRITE (R160, R192) -/

/-- The slots of a tile whose coefficient region holds word `i`, primaries or shadow copies. -/
def Hub.slotsAt (h : Hub) (t i : Nat) (shadow : Bool) : List Nat :=
  (List.range 64).filter (fun j =>
    h.cf 5 t (0x400 + 16 * j) 0 4 != 0 && h.cf 5 t (0x400 + 16 * j) 16 1 == b2n shadow &&
    decide (h.cf 5 t (0x401 + 16 * j) 0 9 ≤ i) && decide (i < h.cf 5 t (0x401 + 16 * j) 0 9 + h.cf 5 t (0x401 + 16 * j) 9 10))

/-- Write one coefficient word with fresh parity. -/
def Hub.putCoef (h : Hub) (t bank i : Nat) (w : Word) : Hub :=
  let h1 := h.setCell (cellKey 5 t (512 * bank + i)) (w32 (fieldOf w 0 24))
  { h1 with
    tile := NMap.modify h1.tile t (fun x => { x with badCoef := x.badCoef.filter (fun k => k != 512 * bank + i) })
    flt := { h1.flt with coefSeen := h1.flt.coefSeen.filter (fun k => k != 1024 * t + 512 * bank + i) } }

/-- A host write through the window: refused while a swap runs or waits, or into a shadow copy's region; else written, and
mirrored to the shadow copies of the stages that read the word. -/
def Hub.coefWrite (h : Hub) (t i : Nat) (w : Word) : Hub :=
  if h.stHeld heldCoef then h.refusedBy heldCoef else
  let x := NMap.get h.tile t
  if x.swap.isSome || x.wait.isSome || !(h.slotsAt t i true).isEmpty then
    (h.on (fFabTStatusWrRefused t)).countSat (fFabTCountWrRefused t) 1
  else
    let b := h.rd (fFabTCwinBank t)
    (h.slotsAt t i false).foldl (fun a j =>
      let c := a.cf 5 t (0x400 + 16 * j) 4 8
      let k := a.cf 5 t (0x400 + 16 * j) 12 3
      if a.ctxShadow c then
        let u := a.stTile (192 + c) k
        let v := a.stSlot (192 + c) k
        a.putCoef u b (a.cf 5 u (0x401 + 16 * v) 0 9 + (i - a.cf 5 t (0x401 + 16 * j) 0 9)) w
      else a) (h.putCoef t b i w)

/-- COEF_WINDOW_WRITE. -/
def execCoefWindowWrite (t : Fin 32) (i : Fin 512) (w : Word) (s : State) : Out :=
  liftHub s (fun fx h => h.atReg fx s.met .fab (0x080800 + 0x1000 * t + 4 * i) (fun h => h.coefWrite t i w))

end Sys2Proof.Machine
end

