-- ==== Sys2Proof/Machine/LoadCommit.lean ====
section
/-! DEFINITION. Taking the commit of a staged partial load (spec/02 R40, R44, R48). -/

namespace Sys2Proof.Machine
open Sys2Proof

/-- Loader state codes (R40). -/
def ldrIdle : Nat := 0
def ldrStage : Nat := 2
def ldrSkip : Nat := 3
def ldrReady : Nat := 5
def ldrCommit : Nat := 6
def ldrReject : Nat := 7

def Hub.ldrState (h : Hub) : Nat := h.rd fLdrStatusState
def Hub.setLdrState (h : Hub) (n : Nat) : Hub := h.wr fLdrStatusState n
def Hub.modLdr (h : Hub) (f : Ldr → Ldr) : Hub := { h with ldr := f h.ldr }

/-- Sections whose units all switch at one edge: their effect point is that of unit 0 (R45). -/
def oneEdge (sect : Nat) : Bool := [1, 7, 8, 9, 10, 12, 13, 15].contains sect

/-- The unit under which a unit's effect point is kept. -/
def effectUnit (sect unit : Nat) : Nat := if oneEdge sect then 0 else unit

/-- A list of pairs without repeats. -/
def dedupPairs (l : List (Nat × Nat)) : List (Nat × Nat) := l.foldl (fun a x => if a.contains x then a else a ++ [x]) []

/-- `ldr.pending` shows the sections with units short of their effect points, and `ldr.level.staged` the cells not yet applied. -/
def Hub.showPending (h : Hub) : Hub :=
  (h.wr fLdrPendingSect ((dedup (h.ldr.todo.map (fun u => u.1))).foldl (fun a n => a + 2 ^ (n - 1)) 0)).wr fLdrLevelStaged
    (h.ldr.staged.length + h.ldr.commit.length)

/-- Every section has reached its effect point: the loader leaves COMMIT (R48). -/
def Hub.commitDone (h : Hub) : Hub :=
  if h.ldr.todo.isEmpty && h.ldrState == ldrCommit then
    ((h.modLdr (fun l => { (default : Ldr) with
      fifo := l.fifo, booted := l.booted, waiting := l.waiting, taken := l.taken, units := l.units })).setLdrState
        ldrIdle).showPending.on fLdrStatusDone
  else h.showPending

/-- The last write to each cell. -/
def lastWrites (l : List Staged) : List Staged := l.foldl (fun a x => a.filter (fun y => y.key != x.key) ++ [x]) []

/-- A staged write that changes something: another value, or a limit or coefficient word that stands in error. -/
def Hub.writeActs (h : Hub) (x : Staged) : Bool :=
  let unit := x.key / 4096 % 256
  let cell := x.key % 4096
  let sect := x.key / 1048576
  sect == 15 || decide (x.word ≠ NMap.getD h.cells x.key (cellDefault x.key)) ||
    (sect == 7 && (h.is (fLimStBad (64 * unit + cell / 4)) || NMap.get h.lim.ups (256 * unit + cell) != 0#39)) ||
    (sect == 5 && decide (unit < 32) && decide (cell < 0x400) && (NMap.get h.tile unit).badCoef.contains cell)

/-- A load's coefficient words wait while a cross-fade runs on their tile (R47). -/
def Hub.fadeHolds (h : Hub) (t : Nat) : Bool :=
  decide (t < 32) && h.ldr.commit.any (fun x => x.key / 4096 == 5 * 256 + t && decide (x.key % 4096 < 0x400)) &&
    (match (NMap.get h.tile t).swap with | some (_, len) => len != 0 | none => false)

/-- A switch waits behind a running fade, counted once a tile (R47). -/
def Hub.deferTile (h : Hub) (t : Nat) : Hub :=
  if h.ldr.deferred.contains t || !h.fadeHolds t then h
  else ((h.on fLdrStatusDeferred).countSat fLdrCountDeferrals 1).modLdr (fun l => { l with deferred := l.deferred ++ [t] })

/-- A commit arrives: taken in READY, else `early` (R40, R44); switches that must wait behind a fade are deferred. -/
def Hub.takeCommit (h : Hub) : Hub :=
  if h.ldrState = ldrReady then
    let l := h.ldr
    let ws := (lastWrites l.staged).filter h.writeActs
    let units := (ws.filter (fun x => x.key / 1048576 != 15)).map (fun x => (x.key / 1048576, effectUnit (x.key / 1048576) (x.key / 4096 % 256)))
    let todo := dedupPairs ((if l.plan.isSome then [(1, 0)] else []) ++ units ++ (if l.hasMetro then [(15, 0)] else []))
    let h1 := (h.modLdr (fun l => { l with
      commit := ws, staged := [], todo := todo, taken := h.cyc + 1, units := todo })).setLdrState ldrCommit
    ((List.range 32).foldl Hub.deferTile h1).commitDone
  else h.on fLdrStatusEarly

/-- LDR_COMMIT_GO. -/
def execLdrCommitGo (s : State) : Out :=
  liftHub s (fun fx h => h.atReg fx s.met .ldr 0x020010 (fun h => h.takeCommit))

/-- LDR_COMMIT_ARM: the commit is armed on a channel. -/
def execLdrCommitArm (chan : BitVec 7) (s : State) : Out :=
  liftHub s (fun fx h => h.atReg fx s.met .ldr 0x020010 (fun h => (h.wr fLdrCommitChan chan.toNat).on fLdrCommitArm))

/-- The armed channel fires: the arm is consumed and the commit is taken, or `early` is set. -/
def Hub.armedLoad (h : Hub) (n : Nat) : Hub :=
  if h.is fLdrCommitArm && h.rd fLdrCommitChan == n then (h.off fLdrCommitArm).takeCommit else h

end Sys2Proof.Machine
end

