-- ==== Sys2Proof/Machine/Events.lean ====
section
/-! DEFINITION. The event fabric: firing, spacing, the rate watchdog, task delivery and counters (spec/10 R257 to R270). -/

namespace Sys2Proof.Machine
open Sys2Proof

/-! ### A channel's cells and records (R254) -/

def Hub.evSpacing (h : Hub) (n : Nat) : Nat := h.cf 8 n 0x080 0 12
def Hub.evWindow (h : Hub) (n : Nat) : Nat := 2 ^ h.cf 8 n 0x081 0 5
def Hub.evLimit (h : Hub) (n : Nat) : Nat := h.cf 8 n 0x081 16 16
def Hub.evTb (h : Hub) (n : Nat) : Nat := h.cf 8 n 0x082 1 5
def Hub.evTasks (h : Hub) (n : Nat) : List Nat :=
  (List.range 64).filterMap (fun i => let t := h.cf 8 n (0x40 + i) 0 16; if t = 0 then none else some t)

def Hub.chan (h : Hub) (n : Nat) : EvChan := NMap.get h.ev n
def Hub.modChan (h : Hub) (n : Nat) (f : EvChan → EvChan) : Hub := { h with ev := NMap.modify h.ev n f }

/-- Set channel `n`'s bit in a register of four words. -/
def Hub.setChanBit (h : Hub) (r : Nat → Nat) (n : Nat) : Hub :=
  h.setReg (r (n / 32)) (h.reg (r (n / 32)) ||| w32 (2 ^ (n % 32)))

/-- A new watchdog window begins at a cycle (R264). -/
def Hub.newWindow (h : Hub) (n c : Nat) : Hub := (h.modChan n (fun x => { x with winStart := c })).wr (fEvCStWindow n) 0

/-- The window in which cycle `f` lies: the windows run back to back. -/
def Hub.rollWindow (h : Hub) (n f : Nat) : Hub :=
  let w := h.evWindow n
  let s := (h.chan n).winStart
  if s + w ≤ f then h.newWindow n (s + (f - s) / w * w) else h

/-! ### Counters (R263) -/

/-- A counter takes deliveries: each whole `cmp` it holds is subtracted in a cycle of its own and presented in the next, behind those that
earlier deliveries of the cycle caused. -/
def Hub.counterAdd (h : Hub) (k n : Nat) : Hub :=
  let v := (h.rd (fEvCtrValVal k) + n) % 2 ^ 32
  let c := h.rd (fEvCtrCmpCmp k)
  if c = 0 ∨ v < c then h.wr (fEvCtrValVal k) v
  else
    let p := max (h.cyc + 1) (NMap.get h.evSeen.next k)
    (List.range (v / c)).foldl (fun a i => a.presentCode (0x7100 + k) (p + i))
      { h.wr (fEvCtrValVal k) (v % c) with evSeen := { h.evSeen with next := NMap.set h.evSeen.next k (p + v / c) } }

/-! ### Tasks (R258, R259, R262, R268, R269) -/

/-- The unit behind a task input is in recovery. -/
def Hub.taskRecovers (h : Hub) (code : Nat) : Bool :=
  let u := code % 256
  match code / 4096 with
  | 1 => h.recovering 3 u
  | 2 => h.recovering 3 (24 + u / 16)
  | 3 => h.recovering 4 u
  | 4 => h.recovering 7 0
  | 5 => h.recovering 2 u
  | 6 => h.recovering 2 u
  | 7 => h.recovering 6 0
  | _ => h.recovering 8 0

/-- A trigger-type input acts. -/
def Hub.taskAct (h : Hub) (code : Nat) : Hub :=
  let u := code % 256
  match code / 4096 with
  | 1 => h.portStart u
  | 2 => h.twStartOf (u / 16) (u % 16)
  | 3 => h.swapRequest u
  | 4 => h.jobStart (u / 64) (u % 64)
  | 5 => h.snapshot u
  | 6 => if code / 256 % 16 = 0 then h.ringArm u else h.ringFire u
  | 7 => h.sendTask u
  | _ => h

/-- A firing of channel `n` reaches a task input: discarded by a unit in recovery; a counter adds; IRQ inputs set the channel's
bit; the others act once in a cycle. -/
def Hub.deliverTask (n : Nat) (h : Hub) (code : Nat) : Hub :=
  if h.taskRecovers code then h.countSat (fEvCDropRefused n) 1
  else if code / 4096 = 9 then h.counterAdd (code % 256) 1
  else
    let r := h.taskHit code
    if code = 0x8000 then r.2.setChanBit rEvIrq0 n
    else if code = 0x8100 then r.2.setChanBit rEvIrq1 n
    else if r.1 then r.2.taskAct code else r.2

/-- The armed channel of the global commit fires (R78). -/
def Hub.armedCommit (fx : Fixed) (h : Hub) (n : Nat) : Hub :=
  if h.is fGlbCommitArm && h.rd fGlbCommitChan == n then (h.off fGlbCommitArm).globalCommit fx else h

/-- A firing is delivered to every input of a task list and to the armed commits. -/
def Hub.deliverFiring (fx : Fixed) (h : Hub) (n : Nat) (tasks : List Nat) : Hub :=
  ((tasks.foldl (Hub.deliverTask n) h).armedLoad n).armedCommit fx n

/-! ### Firing (R260, R261, R264) -/

/-- A firing that would exceed the limit is not made: the channel mutes (R264). -/
def Hub.evStorm (h : Hub) (n : Nat) : Hub :=
  ((((h.modChan n (fun x => { x with heldFire := false })).off (fEvCStHeld n)).on (fEvCStMuted n)).setChanBit rEvStorm n).fault
    0x40 n 0xC5 0#32 0#32

/-- The time of TCLK edge `f`, not after the present one, on a timebase. -/
def Hub.edgeTime (h : Hub) (k f : Nat) : Nat :=
  Machine.report ((((h.tbVal k : Int) - h.tbAdd k * 65536 * ((h.cyc - f : Nat) : Int)) % (tbWrap : Int)).toNat)

/-- The FIRE trace of a traced channel (R442, R455). -/
def Hub.traceFire (h : Hub) (n : Nat) : Hub :=
  if h.cf 1 0 (0x089 + n / 32) (n % 32) 1 = 1 then h.trace 0x30 0xC5 h.netNow (w32 n) (h.reg (rEvCFires n)) else h

/-- A firing in cycle `f`: flag, counts, stamp, the presentation to listing channels in `f + 1`, the delivery along `tasks` in `f + 2`. -/
def Hub.fireAt (fx : Fixed) (h0 : Hub) (n f : Nat) (held : Bool) (tasks : List Nat) : Hub :=
  let h := (h0.reach f).rollWindow n f
  if h.evLimit n ≤ h.rd (fEvCStWindow n) then h.evStorm n
  else
    let t := h.edgeTime (h.evTb n) f
    let h1 := ((h.setChanBit rEvFlag n).count (fEvCFiresFires n) 1).count (fEvCStWindow n) 1
    let h2 := (h1.modChan n (fun x => { x with stamp := t, lastFire := some f, heldFire := false })).off (fEvCStHeld n)
    let h3 := (if held then h2.countSat (fEvCLostHeld n) 1 else h2).wr (fEvCStamp3Held n) (b2n held)
    let h4 := (h3.chansOf (0x7000 + n)).foldl (fun a c => a.presentAt c (f + 1)) (h3.traceFire n)
    (h4.reach (f + 2)).deliverFiring fx n tasks

/-- The cycle in which the spacing allows the held firing. -/
def Hub.heldCycle (h : Hub) (n : Nat) : Nat :=
  match (h.chan n).lastFire with
  | some l => max (l + h.evSpacing n) (h.chan n).notBefore
  | none => h.cyc

/-- The held firing fires in the first cycle the spacing allows (R261). -/
def Hub.releaseHeld (fx : Fixed) (h : Hub) (n : Nat) : Hub :=
  if (h.chan n).heldFire && !h.is (fEvCStMuted n) then h.fireAt fx n (h.heldCycle n) true (h.evTasks n) else h

/-- The producers presented in the earliest cycle make the channel fire along `tasks`, or a held firing, or merge into one (R260, R261). -/
def Hub.channelFireOn (fx : Fixed) (h0 : Hub) (n : Nat) (tasks : List Nat) : Hub :=
  match (h0.chan n).presented with
  | [] => h0
  | c :: cs =>
    let p := cs.foldl min c
    let h := if (h0.chan n).heldFire && decide (h0.heldCycle n ≤ p) then h0.releaseHeld fx n else h0
    let l := (h.chan n).presented
    let k := (l.filter (fun x => x == p)).length
    let h1 := h.modChan n (fun x => { x with presented := l.filter (fun x => x != p) })
    if h1.is (fEvCStMuted n) || decide (p < (h1.chan n).live) then h1.countSat (fEvCDropMuted n) k
    else if (h1.chan n).heldFire then (h1.reach p).countSat (fEvCLostMerged n) k
    else
      let h2 := h1.countSat (fEvCLostMerged n) (k - 1)
      let early := match (h2.chan n).lastFire with
        | some l => decide (p + 1 < l + h2.evSpacing n)
        | none => false
      if early then ((h2.reach p).modChan n (fun x => { x with heldFire := true })).on (fEvCStHeld n)
      else h2.fireAt fx n (p + 1) false tasks

/-- CHANNEL_FIRE: along the channel's task list. -/
def Hub.channelFire (fx : Fixed) (h : Hub) (n : Nat) : Hub := h.channelFireOn fx n (h.evTasks n)

/-- CHANNEL_FIRE. -/
def execChannelFire (n : Fin 128) (s : State) : Out := liftHub s (fun fx h => h.channelFire fx n)

/-- HELD_FIRING_RELEASE. -/
def execHeldFiringRelease (n : Fin 128) (s : State) : Out := liftHub s (fun fx h => h.releaseHeld fx n)

/-- WATCHDOG_WINDOW_END: the window's last cycle has passed. -/
def execWatchdogWindowEnd (n : Fin 128) (s : State) : Out :=
  liftHub s (fun _ h =>
    if h.chanEnabled n then
      let e := (h.chan n).winStart + h.evWindow n
      (h.reach e).rollWindow n e
    else h)

/-- A channel is unmuted and a new window begins in the cycle after the write (R265). -/
def Hub.unmute (h : Hub) (n : Nat) : Hub :=
  if h.is (fEvCStMuted n) then
    ((h.off (fEvCStMuted n)).newWindow n (h.cyc + 1)).modChan n (fun x => { x with live := h.cyc + 1 })
  else h

/-- Storm bits written 1 clear and unmute their channels. -/
def Hub.stormClear (h : Hub) (k : Nat) (w : Word) : Hub :=
  (List.range 32).foldl (fun a i => if w.getLsbD i then a.unmute (32 * k + i) else a)
    (h.setReg (rEvStorm k) (h.reg (rEvStorm k) &&& ~~~w))

/-- STORM_CLEAR. -/
def execStormClear (k : Fin 4) (w : Word) (s : State) : Out :=
  liftHub s (fun fx h => h.atReg fx s.met .ev (0x180020 + 4 * k) (fun h => h.stormClear k w))

/-- A write of `ev.fire` presents the channels of the bank (R267). -/
def Hub.evFire (h : Hub) (w : Word) : Hub :=
  let b := h.rd fEvFireBankFireBank
  (List.range 32).foldl (fun a i => if w.getLsbD i then a.presentChan (32 * b + i) else a) h

/-- EV_FIRE. -/
def execEvFire (w : Word) (s : State) : Out :=
  liftHub s (fun fx h => h.atReg fx s.met .ev 0x180000 (fun h => h.evFire w))

/-- Word `k` of a channel's latched stamp; the fourth carries `held`. -/
def Hub.stampWord (h : Hub) (n k : Nat) : Word :=
  let l := (h.chan n).latch
  if k = 3 then latchedWord (l / 2) 3 ||| w32 (l % 2) else latchedWord (l / 2) k

/-- Reading `stamp0` latches all four words (R266). -/
def Hub.stampRead (h : Hub) (n : Nat) : Word × Hub :=
  let h1 := h.modChan n (fun x => { x with latch := 2 * x.stamp + h.rd (fEvCStamp3Held n) })
  (h1.stampWord n 0, h1)

/-- EV_STAMP_READ. -/
def execEvStampRead (n : Fin 128) (s : State) : Out :=
  liftHub s (fun fx h => h.readOf fx s.met .ev (0x181010 + 0x20 * n) (fun h => h.stampRead n))

end Sys2Proof.Machine
end

