-- ==== Sys2Proof/Machine/Fill.lean ====
section
/-! DEFINITION. How many outputs a stage will still tag SETTLE: for its own history (spec/07 R186, spec/08 R212) and for the
SETTLE it inherits from its inputs (R182), as `fab.tNN.scnt.fill` shows it (R194 and the worked example beside it). -/

namespace Sys2Proof.Machine
open Sys2Proof

/-- One more than the index of the last sample that carries SETTLE, 0 for none. -/
def lastSettle (xs : List Samp) : Nat :=
  (xs.foldl (fun a x => (a.1 + 1, if x.has tSettle then a.1 + 1 else a.2)) ((0, 0) : Nat × Nat)).2

/-- Samples still to leave a queue that carry SETTLE or stand before one that does, when `up` more such samples enter it. -/
def settlePend (up : Nat) (q : List Samp) : Nat := if up = 0 then lastSettle q else q.length + up

/-- One more than the index of the last input of a stage that carries SETTLE, when the next `f` inputs reach the last one to
come; 0 when no input its delay line holds carries it. -/
def Stage.settleMark (s : Stage) (f : Nat) : Nat :=
  if f = 0 then
    match s.hist.findIdx? (fun w => w.samp.has tSettle) with
    | some k => s.n - k
    | none => 0
  else s.n + f

/-- Outputs at rising positions from `p` in steps of `r` whose window reaches before input `b` (R197, R212). -/
def resampleFill (p r b : Nat) : Nat :=
  let lim := (b + 15) * 16777216
  if p + 8192 < lim then (lim - 8192 - p + r - 1) / r else 0

/-- Averager: whole blocks of the next `f` inputs, all with SETTLE, that hold no other input (R179, R180). -/
def Stage.settleBlocks (s : Stage) (m f : Nat) (align : Bool) : Nat :=
  if s.cnt = 0 then (s.inBlk + f) / m
  else if align && !s.wasSettle then f / m
  else (s.inBlk + f) / m - 1

/-- Outputs stage `i` of context `c` will still tag SETTLE when SETTLE ends with its next `f` inputs. `none`: the number hangs on
times or tach edges still to come. -/
def Hub.stageFill (h : Hub) (c i f : Nat) : Option Nat :=
  let s := h.stg' c i
  let b := s.settleMark f
  match h.stKind c i with
  | 1 =>
    let df := h.sc c i 4 0 10 + 1
    let ph := h.sc c i 4 10 10
    some ((b + h.coefLen c i - 1 - ph + df - 1) / df - (s.n - ph + df - 1) / df)
  | 2 =>
    let hw := (h.sc c i 4 0 5 - 1) / 2
    some (b + hw - (s.n - hw))
  | 3 => some (s.settleBlocks (h.sc c i 4 0 16 + 1) f (h.sc c i 4 16 1 == 1))
  | 4 =>
    if h.sc c i 4 0 1 = 0 then some (resampleFill s.pos (h.rd (fFabTSlSetSet (h.stTile c i) (h.stSlot c i))) b)
    else if b + 31 ≤ s.n then some 0 else none
  | 5 =>
    let m := if s.acquired then (roundPos s.pos).1 else s.n - 17
    if b + 15 ≤ m then some 0 else none
  | 6 =>
    let set := h.rd (fFabTSlSetSet (h.stTile c i) (h.stSlot c i))
    some (b + natField set 10 11 + 31 + (if natField set 0 10 = 0 then 0 else 1) - s.n)
  | 7 => some (b - s.n)
  | _ => some 0

/-- Samples that will still pass stage point `p` of chain `c` up to the last one with SETTLE, as far as stages cause it; a
branch context inherits from its parent's stage point (R147). `fuel` bounds the references. -/
def Hub.settleLeft (fuel : Nat) (h : Hub) (c p : Nat) : Option Nat :=
  match fuel, p with
  | 0, _ => none
  | fuel + 1, 0 =>
    let k := ctxOf c
    let up := if h.ctxKind k = 6 then Hub.settleLeft fuel h (h.cf 5 (32 + k) 1 0 8) (h.cf 5 (32 + k) 1 8 4) else some 0
    up.map (fun n => settlePend n (if c < 192 then (NMap.get h.ctx c).inq else (h.stg' c 0).inq))
  | fuel + 1, i + 1 =>
    (Hub.settleLeft fuel h c i).bind (fun n => h.stageFill c i (settlePend n (if i = 0 then [] else (h.stg' c i).inq)))

/-- `fab.tNN.scnt.fill` of a slot: 0 without a stage. `none` where the number is open. -/
def Hub.slotFill (h : Hub) (t j : Nat) : Option Nat :=
  match h.slotStage t j with
  | some k => (Hub.settleLeft 64 h (k / 8) (k % 8 + 1)).map (satTo 16)
  | none => some 0

end Sys2Proof.Machine
end

