-- ==== Sys2Proof/Machine/QueueCmds.lean ====
section
/-! DEFINITION. The queue commands after which waiting alarms, logs and landing streams may move on (spec/11 R280 to R287, spec/13
R350, spec/16 R450, R452). -/

namespace Sys2Proof.Machine
open Sys2Proof

/-- QUEUE_PRODUCER_WRITE. -/
def execQueueProducerWrite (producer : Fin 2048) (s : State) : Out :=
  liftHub s (fun fx h => (h.producerWrite producer).settle fx)

/-- QUEUE_REFILL. -/
def execQueueRefill (q : Fin 64) (ptr : BitVec 38) (upsets : List Upset) (s : State) : Out :=
  liftHub s (fun fx h => (h.refill fx q ptr upsets).settle fx)

/-- QUEUE_WINDOW_READ. -/
def execQueueWindowRead (q : Fin 64) (payload : Bool) (s : State) : Out :=
  liftHub s (fun fx h => h.readOf fx s.met .q (0x1A0200 + 0x400 * q + 4 * b2n payload) (fun h => let r := h.windowRead fx q payload; (r.1, r.2.settle fx)))

/-- QUEUE_FLUSH. -/
def execQueueFlush (x : QueueAt) (s : State) : Out :=
  liftHub s (fun fx h =>
    h.atReg fx s.met .q (0x1A0000 + 0x400 * x.queue)
      (fun h => if h.qEnabled x.queue then (Hub.flush fx h x.queue x.ptr).settle fx else h))

end Sys2Proof.Machine
end

