-- ==== Sys2Proof/Machine/Integrity.lean ====
section
/-! DEFINITION. The configuration check, the end and the timeout of recoveries, and the tokens of the buckets (spec/16 R439, R443
to R449). -/

namespace Sys2Proof.Machine
open Sys2Proof

/-! ### The configuration check (R439) -/

/-- A unit the check covers: every section but LIMITS and METRO, tiles from cell 0x400 on. -/
def cfgChecked (sect : Nat) : Bool := sect != 7 && sect != 15

/-- A cell the check covers. -/
def cfgCovered (sect unit cell : Nat) : Bool := cfgChecked sect && !(sect == 5 && decide (unit < 32) && decide (cell < 0x400))

/-- The CRC-32 over a unit's covered cells in cell order. -/
def Hub.unitCrc (h : Hub) (sect unit : Nat) : Word :=
  crc32Words ((h.cells.filter (fun e => e.1 / 4096 == sect * 256 + unit && cfgCovered sect unit (e.1 % 4096))).map Prod.snd)

/-- The key of a unit's reference. -/
def unitKey (sect unit : Nat) : Nat := sect * 256 + unit

/-- A unit's cells become its reference, and a mismatch found before is over. -/
def Hub.setRef (h : Hub) (sect unit : Nat) : Hub :=
  { h with flt := { h.flt with
      refs := NMap.set h.flt.refs (unitKey sect unit) (h.unitCrc sect unit)
      upset := h.flt.upset.filter (fun u => !(u.1 == sect && u.2 == unit)) } }

/-- The last unit a pass reads. -/
def Hub.lastChecked (h : Hub) (sect unit : Nat) : Bool :=
  h.cells.all (fun e => !cfgChecked (e.1 / 1048576) || decide (e.1 / 4096 ≤ unitKey sect unit))

/-- An upset flips bits of a covered cell, and the checker reads the unit: a mismatch is reported once until the unit passes. -/
def Hub.cfgCheck (h : Hub) (sect unit cell : Nat) (flip : Word) : Hub :=
  if !cfgChecked sect then h
  else
    let h1 := if cfgCovered sect unit cell && flip != 0#32 then
        h.setCell (cellKey sect unit cell) (h.cell sect unit cell ^^^ flip) else h
    let h2 := if h1.lastChecked sect unit then h1.count fHltCfgChkPasses 1 else h1
    let known := h2.flt.upset.contains (sect, unit)
    if h2.unitCrc sect unit = NMap.get h2.flt.refs (unitKey sect unit) then
      if known then { h2 with flt := { h2.flt with upset := h2.flt.upset.filter (fun u => u != (sect, unit)) } } else h2
    else if known then h2
    else
      let h3 := ((h2.on fHltFltStatusCfgUpset).wr fHltCfgChkSection sect).wr fHltCfgChkUnit unit
      let h4 := { h3 with flt := { h3.flt with upset := h3.flt.upset ++ [(sect, unit)] } }
      { h4 with hlt := { h4.hlt with upsets := h4.hlt.upsets + 1 } }.fault 0x70 unit 0xC0 (w32 sect) (w32 unit)

/-- CFG_CHECK_UNIT. -/
def execCfgCheckUnit (sect : Fin 16) (unit : Fin 256) (cell : Fin 4096) (flip : Word) (s : State) : Out :=
  liftHub s (fun _ h => h.cfgCheck sect unit cell flip)

/-! ### Ends and timeouts of recoveries (R443, R445, R447) -/

/-- What `glb.status.run` shows once no wide recovery runs. -/
def Hub.runAfter (h : Hub) : Hub :=
  if h.flt.recs.any (fun r => decide (7 ≤ r.scope)) || h.rd fGlbStatusRun = 6 then h
  else if !h.clk.gates then h.wr fGlbStatusRun 0
  else if h.is fLdrStatusConfigured then h.wr fGlbStatusRun 3
  else h.wr fGlbStatusRun 1

/-- A recovery ends; a LINK recovery ends with its port in training. -/
def Hub.recEnd (fx : Fixed) (h : Hub) (scope unit : Nat) : Hub :=
  match h.flt.recs.find? (fun r => r.scope == scope && r.unit == unit) with
  | some r =>
    let h1 := if scope = 5 && h.linkOn fx unit && h.rd (fCasPStatusState unit) == 0 then h.setLinkState unit 1 else h
    let h2 := (h1.closeRec r)
    ((if 7 ≤ scope then h2.runAfter else if scope = 6 then h2.radMode else h2).settle fx)
  | none => h

/-- REC_TIMEOUT: twice the recovery time has passed; the recovery escalates at once. -/
def execRecTimeout (scope : Fin 16) (unit : BitVec 9) (s : State) : Out :=
  liftHub s (fun fx h =>
    match h.flt.recs.find? (fun r => r.scope == scope.val && r.unit == unit.toNat) with
    | some r =>
      ((h.on fHltFltStatusRecTimeout).reportFault 0x71 r.scope r.unit (scopeSource r.scope) 0#32 0#32).escalate fx r
    | none => h)

/-- BUCKET_TOKEN_ADD: the bucket's timer adds a token until the bucket is full. -/
def execBucketTokenAdd (b : Fin 6) (s : State) : Out :=
  liftHub s (fun fx h =>
    let n := h.rd (fHltBkTokens b)
    if n = 0 then h else (h.wr (fHltBkTokens b) (n - 1)).settle fx)

end Sys2Proof.Machine
end

