-- ==== Sys2Proof/Machine/SelfTest.lean ====
section
/-! DEFINITION. Life cycle and self-tests (spec/17 R459 to R470). -/

namespace Sys2Proof.Machine
open Sys2Proof

/-! ### Life cycle (R459 to R461) -/

/-- A factory change of state: BLANK 0, OPEN 1, SEALED 2, SERVICE 3, RETIRED 4 (R460). -/
def lcFactory (old new : Nat) : Bool := (old == 0 && new == 1) || (old == 1 && new == 3) || (old == 3 && (new == 1 || new == 4))

/-- LIFE_CYCLE_FACTORY_CHANGE: Qorrex moves a part; leaving OPEN for SERVICE needs MLID_OPEN and clears the configuration. -/
def execLifeCycleFactoryChange (state : Fin 8) (s : State) : Out :=
  liftBoth s (fun fx h m =>
    if fx.variant.hasMet then
      let old := m.rd fMetLidState
      if !m.up || !lcFactory old state || (state.val == 3 && !m.is fMetLidMlid) then (h, m)
      else
        let m1 := (if state.val = 3 then m.commitSeams.unconfigure.on fMetStatusUnconf else m).wr fMetLidState state
        let m2 := if old = 0 then m1.write 0x01 0xFF 0 [] else m1.writeAudit (if state.val = 4 then 0x05 else 0x0F) []
        (h.readLc m2, m2)
    else if lcFactory h.hlt.factory state && state.val != 4 then
      let h1 := ((h.wr fHltLcState state).on fHltLcValid).wr fGlbStatusLc state
      ({ h1 with hlt := { h1.hlt with factory := state, lcKnown := true } }, m)
    else (h, m))

/-! ### Starting a test (R462, R466, R467) -/

def Hub.test (h : Hub) (g : Nat) : StTest := NMap.get h.hlt.test g
def Hub.setTest (h : Hub) (g : Nat) (t : StTest) : Hub := { h with hlt := { h.hlt with test := NMap.set h.hlt.test g t } }

/-- Elements of an algorithm. -/
def algElements (alg : Nat) : Nat := if alg < 2 then 12 else if alg = 2 then 5 else 1

/-- An algorithm is one of the group's, and the hub may start it. -/
def algOf (g alg : Nat) : Bool :=
  (decide (g ≤ 6) && decide (alg < 2)) || (decide (g ≤ 4) && alg == 2) || (g == 7 && alg == 3)

/-- The life-cycle state permits an algorithm: destructive marches in BLANK and SERVICE. -/
def Hub.algPermitted (h : Hub) (alg : Nat) : Bool := 2 ≤ alg || h.lcState == 0 || h.lcState == 3

/-- A completion word. -/
def doneWord (result alg cause elements fails : Nat) : Word :=
  w32 (result * 2 ^ 28 + alg % 8 * 2 ^ 25 + cause * 2 ^ 22 + elements % 64 * 2 ^ 16 + algElements alg * 2 ^ 10 + fails % 1024)

/-- The completion word of a refused start. The number of elements of a code that R463 does not name is a free value. -/
def Hub.stRefuse (h : Hub) (g result alg : Nat) : Hub :=
  if alg < 5 then h.setReg (rHltStDone g) (doneWord result alg 0 0 0)
  else
    let r := h.takeFree
    r.2.setReg (rHltStDone g) (putField (doneWord result alg 0 0 0) 10 6 r.1)

/-- Start a test of a group, or refuse it: the first of R466's cases that holds decides, and a group above 8 is no group (DESIGN CHOICE,
log entry 123). `skipped` counts anew. -/
def Hub.stStart (fx : Fixed) (h : Hub) (g alg : Nat) : Hub :=
  if 8 < g then h
  else if g = 8 ∧ fx.variant.hasMet = false then h.stRefuse g 5 alg
  else if !algOf g alg || !h.algPermitted alg then h.stRefuse g 4 alg
  else if (h.test g).run || (h.test g).restore || (h.test g).waiting.isSome then h.on fHltStatusStBusy
  else
    ((h.setTest g { run := true, alg := alg, start := h.cyc, cause := 0, restore := false, waiting := none }).setReg (rHltStDone g)
      (doneWord 6 alg 0 0 0)).setReg (rHltStSkipped g) 0#32

/-- ST_GO: `hlt.st.ctl` written with go. -/
def Hub.stGo (fx : Fixed) (h : Hub) (w : Word) : Hub :=
  ((h.wr fHltStCtlAlg (fieldOf w 8 3)).wr fHltStCtlGroup (fieldOf w 0 4)).stStart fx (fieldOf w 0 4) (fieldOf w 8 3)

/-- ST_GO. -/
def execStGo (w : Word) (s : State) : Out :=
  liftHub s (fun fx h => h.atReg fx s.met .hlt 0x1F0010 (fun h => h.stGo fx w))

/-- A running test is ended early with a cause; its completion follows. -/
def Hub.stEndBy (h : Hub) (g cause : Nat) : Hub :=
  let t := h.test g
  if t.run && t.cause == 0 then h.setTest g { t with cause := cause } else h

/-- Every running test ends for the supply (R468, R496). -/
def Hub.testsSupply (h : Hub) : Hub := (List.range 9).foldl (fun a g => a.stEndBy g 3) h

/-- ST_ABORT: `hlt.st.ctl` written with abort. -/
def Hub.stAbort (h : Hub) (w : Word) : Hub :=
  ((h.wr fHltStCtlAlg (fieldOf w 8 3)).wr fHltStCtlGroup (fieldOf w 0 4)).stEndBy (fieldOf w 0 4) 1

/-- ST_ABORT. -/
def execStAbort (w : Word) (s : State) : Out :=
  liftHub s (fun fx h => h.atReg fx s.met .hlt 0x1F0010 (fun h => h.stAbort w))

/-- ST_STARVED: a transparent test is not complete after 64 times its minimum duration. -/
def execStStarved (g : Fin 9) (s : State) : Out :=
  liftHub s (fun _ h => if (h.test g).alg = 2 then h.stEndBy g 4 else h)

/-! ### The end of a test (R465, R467 to R469) -/

/-- Result of a test: FAIL, INCOMPLETE or PASS. -/
def stResult (fails : Nat) (sigBad : Bool) (elements total : Nat) : Nat :=
  if fails ≠ 0 ∨ sigBad = true then 2 else if elements < total then 3 else 1

/-- Publish a completion: its word and registers, the flags, the producer and the SELFTEST record. The numbers are result,
algorithm, cause, elements, fails, µs, first failing word, words tested, words skipped, and the scope of the reset. -/
def Hub.stPublish (h : Hub) (g : Nat) (l : List Nat) : Hub :=
  let n (i : Nat) : Nat := l.getD i 0
  let w := doneWord (n 0) (n 1) (n 2) (n 3) (n 4)
  let h1 := ((((h.setReg (rHltStDone g) w).setReg (rHltStDur g) (w32 (n 5))).setReg (rHltStFail g) (w32 (n 6))).setReg
    (rHltStTested g) (w32 (n 7))).setReg (rHltStSkipped g) (w32 (n 8))
  let h2 := h1.on fHltStatusStDone
  let h3 := (if n 0 = 2 then h2.on fHltStatusStFail else h2).present (0xA200 + g)
  let good := n 0 == 1 && n 1 == 2
  let h4 := { h3 with hlt := { h3.hlt with
    passed := if good then h3.hlt.passed + 1 else h3.hlt.passed
    notPassed := if n 0 ≠ 1 then h3.hlt.notPassed + 1 else h3.hlt.notPassed } }
  h4.logWords 0x28 (recHeader 0x28 0xCA 12 :: timeWords h4.netNow ++
    [w32 (h4.devnum * 2 ^ 23 + n 9 * 16), w32 g, w, w32 (n 5), w32 (n 6), w32 (n 7), w32 (n 8)])

/-- The scope of the reset that ends a destructive test of a group. -/
def stScope (g : Nat) : Nat := if g = 0 ∨ g = 2 ∨ g = 3 ∨ g = 5 then 7 else 8

/-- Words of the limit table whose stored bits are in error fail a complete transparent test of group 4, which writes those with a
single-bit error back corrected (R464). -/
def Hub.badWords (h : Hub) (g : Nat) (t : StTest) : Nat :=
  if g = 4 ∧ t.alg = 2 ∧ t.cause = 0 then (h.lim.ups.filter (fun u => u.2 != 0#39)).length else 0
def Hub.mendWords (h : Hub) (g : Nat) (t : StTest) : Hub :=
  if g = 4 ∧ t.alg = 2 ∧ t.cause = 0 then { h with lim := { h.lim with ups := h.lim.ups.filter (fun u => Hub.limRead.popcount39 u.2 != 1) } }
  else h

/-- A destructive test of the stockpot leaves the background of its last pass in every word; one that ended early leaves what it had
written, a free value (log entry 124). -/
def Hub.wipeStock (h : Hub) (g : Nat) (t : StTest) : Hub :=
  if g ≠ 0 then h
  else if t.cause = 0 then { h with stock := [], stockFill := 0x5555555555555555#64 }
  else
    let r := h.takeFree
    { r.2 with stock := [], stockFill := BitVec.ofNat 64 r.1 }

/-- A test ends: a destructive one takes its reset first, and its completion follows the recovery; a transparent one that ended
early restores its words. The operand counts failing words beside those whose error State holds, and words skipped beside the
accesses counted. -/
def Hub.stFinish (fx : Fixed) (h : Hub) (g : Nat) (r : StResult) : Hub :=
  let t := h.test g
  if !t.run then h
  else
    let total := algElements t.alg
    let el := if t.cause = 0 then total else min r.elements.toNat total
    let destructive := decide (t.alg < 2)
    let fails := satTo 10 (r.fails.toNat + h.badWords g t)
    let refused := satTo 32 ((h.reg (rHltStSkipped g)).toNat + r.skipped.toNat)
    let l := [stResult fails r.sigBad el total, t.alg, t.cause, el, fails, r.micros.toNat, r.first.toNat,
      r.tested.toNat, refused, if destructive then stScope g else 0]
    if destructive then
      let h1 := (h.wipeStock g t).setTest g { t with run := false, waiting := some l }
      if h1.flt.recs.any (fun x => decide (stScope g ≤ x.scope)) then h1
      else h1.startRec fx { (default : Rec) with scope := stScope g, start := h1.cyc }
    else ((h.mendWords g t).setTest g { t with run := false, restore := t.alg == 2 && t.cause != 0 }).stPublish g l

/-- ST_COMPLETE. -/
def execStComplete (g : Fin 9) (r : StResult) (s : State) : Out := liftHub s (fun fx h => h.stFinish fx g r)

/-- ST_RESTORE_PASS_DONE: the polarity map is released. -/
def execStRestorePassDone (g : Fin 9) (s : State) : Out :=
  liftHub s (fun _ h => if (h.test g).restore then h.setTest g { h.test g with restore := false } else h)

/-- Completions that waited for a wide recovery. -/
def Hub.stAfterRec (h : Hub) : Hub :=
  if h.flt.recs.any (fun x => decide (7 ≤ x.scope)) then h
  else (List.range 9).foldl (fun a g =>
    match (a.test g).waiting with
    | some l => (a.setTest g default).stPublish g l
    | none => a) h

/-- FERAM_SCAN: the partition's own scan of group 8; it changes nothing in the partition (R470). -/
def execFeramScan (r : StResult) (s : State) : Out :=
  liftHub s (fun fx h =>
    if fx.variant.hasMet then
      h.stPublish 8 [stResult r.fails.toNat r.sigBad 1 1, 4, 0, 1, r.fails.toNat, r.micros.toNat, r.first.toNat, r.tested.toNat,
        r.skipped.toNat, 0]
    else h)

end Sys2Proof.Machine
end

