-- ==== Sys2Proof/Machine/Supplies.lean ====
section
/-! DEFINITION. Supervisors, dips, the reduced monitor plan, rail resets, sleep and wake (spec/18 R491 to R504). -/

namespace Sys2Proof.Machine
open Sys2Proof

/-! ### Rails (R489, R494) -/

def Hub.dip (h : Hub) (r : Nat) : Dip := NMap.get h.sup.dip r
def Hub.setDip (h : Hub) (r : Nat) (d : Dip) : Hub := { h with sup := { h.sup with dip := NMap.set h.sup.dip r d } }

/-- Warning and reset level of a rail in mV times ten; a VDDIO bank's by its class. -/
def Hub.railLevels (h : Hub) (r : Nat) : Nat × Nat :=
  if r = 0 then (30000, 27000)
  else if r = 1 ∨ r = 11 then (7450, 7000)
  else if 2 ≤ r ∧ r ≤ 6 then (if h.rd fClkSupBankBank / 2 ^ (r - 2) % 2 = 1 then (30000, 27000) else (16200, 15000))
  else if r = 7 then (9300, 8800)
  else if r = 9 then (11000, 10000)
  else (16700, 15500)

/-- Class of a dip by its lowest voltage (R497). -/
def Hub.dipClass (h : Hub) (r : Nat) (d : Dip) : Nat :=
  let l := h.railLevels r
  if d.atReset || decide (d.low * 10 ≤ l.2) then 3 else if 2 * (d.low * 10) < l.1 + l.2 then 2 else 1

/-- The mask of rails in a dip. -/
def Hub.dipMask (h : Hub) : Nat := (List.range 12).foldl (fun a r => if (h.dip r).on then a + 2 ^ r else a) 0

/-- A SUPPLY record (R500). -/
def Hub.supplyRecord (h : Hub) (code rail cls mv micros : Nat) : Hub :=
  h.logWords 0x26 (recHeader 0x26 0xCA 10 :: timeWords h.netNow ++
    [w32 (h.devnum * 2 ^ 23 + code * 256 + (if code = 4 then 9 else 0) * 16), w32 rail, w32 (cls * 2 ^ 24 + mv % 65536), w32 (satTo 32 micros),
     w32 (satTo 16 (h.dip rail).count * 65536 + h.dipMask)])

/-- A RESET record comes before any other SUPPLY record after a POR that a rail caused. -/
def Hub.supplyReset (h : Hub) : Hub :=
  if h.sup.resetRec = 0 then h
  else { h with sup := { h.sup with resetRec := 0 } }.supplyRecord 4 (h.sup.resetRec - 1) 3 0 0

/-- Write a SUPPLY record, a due RESET record before it. -/
def Hub.supplyLog (h : Hub) (code rail cls mv micros : Nat) : Hub := h.supplyReset.supplyRecord code rail cls mv micros

/-! ### Dips (R495 to R497) -/

/-- The kettle watches a rail: not the partition's rails in a variant without it, nor, asleep, a rail that CORE_EN takes away (R488,
R502; log entry 126). -/
def Hub.railWatched (fx : Fixed) (h : Hub) (r : Nat) : Bool :=
  (fx.variant.hasMet || decide (r < 10)) && !(h.asleep && (r == 1 || (decide (3 ≤ r) && decide (r ≤ 8))))

/-- A rail falls below its warning level: producer and bit, then the radio and the self-tests; a dip in its window continues. -/
def Hub.supplyWarning (h : Hub) (r mv : Nat) : Hub :=
  let d := h.dip r
  if d.on then h.setDip r { d with low := min d.low mv, win := 0 }
  else
    let h1 := (h.setDip r { d with on := true, start := h.cyc, low := mv, win := 0, atReset := false }).present (0xA000 + r)
    (((h1.wr fClkSupNowWarn (h1.rd fClkSupNowWarn ||| 2 ^ r)).radSupply).testsSupply)

/-- SUPPLY_WARNING. -/
def execSupplyWarning (rail : Fin 12) (mv : BitVec 16) (s : State) : Out :=
  liftBoth s (fun fx h m =>
    if h.railWatched fx rail then (h.supplyWarning rail mv.toNat, if fx.variant.hasMet then m.supplyWarn rail else m) else (h, m))

/-- DIP_SAMPLE: the monitor converter samples a rail below warning. -/
def execDipSample (rail : Fin 12) (mv : BitVec 16) (s : State) : Out :=
  liftHub s (fun _ h =>
    let d := h.dip rail
    if d.on then h.setDip rail { d with low := min d.low mv.toNat } else h)

/-- RECOVERY_WINDOW_RESTART: the 100 µs begin anew. -/
def execRecoveryWindowRestart (rail : Fin 12) (s : State) : Out :=
  liftHub s (fun _ h =>
    let d := h.dip rail
    if d.on then h.setDip rail { d with win := h.cyc + 1 } else h)

/-- Rails of the plan's mask in a dip (R498). -/
def Hub.maskedDips (h : Hub) : Nat := h.dipMask &&& h.cf 13 1 0 0 12

/-- The reduced plan is left: contexts released carry GAP on their first output, released jobs begin new blocks. -/
def Hub.planLeave (h : Hub) (r cls mv micros : Nat) : Hub :=
  let held := (h.usedUnits 5).filterMap (fun u => if 32 ≤ u ∧ h.ctxHeld (u - 32) = true then some (u - 32) else none)
  let h1 := (h.off fClkSupNowReduced).on fClkSupDipReducedLeave
  let h2 := held.foldl (fun a c => { a with ctx := NMap.modify a.ctx c (fun y => { y with gapOut := true, begun := false }) }) h1
  h2.radMode.supplyLog 3 r cls mv micros

/-- A rail has stood above warning plus hysteresis for 100 µs. -/
def Hub.supplyRecovered (h0 : Hub) (r : Nat) : Hub × Nat × Nat :=
  let d := h0.dip r
  let h := h0.reach (if d.win = 0 then d.start + 80000 else d.win - 1 + 80000)
  let win := if d.win = 0 then h.cyc - 80000 else d.win - 1
  let micros := (win - d.start) / 800
  let cls := h.dipClass r d
  let h1 := (h.setDip r { d with on := false, count := d.count + 1 }).present (0xA100 + r)
  let h2 := (h1.wr fClkSupNowWarn (h1.rd fClkSupNowWarn &&& (4095 - 2 ^ r))).wr fClkSupDipDip (h1.rd fClkSupDipDip ||| 2 ^ r)
  let h3 := ((((h2.wr fClkSupLastRail r).wr fClkSupLastClass cls).wr fClkSupLastDur (satTo 26 micros)).wr fClkSupMinMv d.low).countSat
    fClkSupMinCount 1
  let h4 := h3.supplyLog 1 r cls d.low micros
  (if h4.is fClkSupNowReduced && h4.maskedDips == 0 then h4.planLeave r cls d.low micros else h4, micros, cls)

/-- SUPPLY_RECOVERED. -/
def execSupplyRecovered (rail : Fin 12) (s : State) : Out :=
  liftBoth s (fun fx h m =>
    if (h.dip rail).on then
      let x := h.supplyRecovered rail
      (x.1, if fx.variant.hasMet then m.supplyBack rail x.2.1 x.2.2 else m)
    else (h, m))

/-- The rail of the plan's mask that has been longest in one dip, of those above their reset levels (R498). -/
def Hub.longestDip (h : Hub) : Option Nat :=
  ((List.range 12).filter (fun r => (h.dip r).on && !(h.dip r).atReset && (h.cf 13 1 0 0 12).testBit r)).foldl
    (fun (a : Option Nat) r => match a with
      | some o => if (h.dip r).start < (h.dip o).start then some r else some o
      | none => some r) none

/-- REDUCED_ENTER: a masked rail has been in one dip for 2 ms without reaching its reset level: every hold of the plan at once. -/
def Hub.reducedEnter (h : Hub) : Hub :=
  match h.longestDip with
  | some r =>
    if h.cf 13 1 0 12 1 = 0 ∨ h.is fClkSupNowReduced = true then h
    else
      let d := h.dip r
      let h1 := ((h.reach (d.start + 1600000)).on fClkSupNowReduced).on fClkSupDipReducedEnter
      let h2 := if h1.jobsHeld then
          { h1 with job := h1.job.foldl (fun m e => NMap.set m e.1 { e.2 with buf := [], armed := false }) [] } else h1
      let h3 := if h2.radHeld then h2.radMode else h2
      h3.supplyLog 2 r (h3.dipClass r d) d.low ((h3.cyc - d.start) / 800)
  | none => h

/-- REDUCED_ENTER. -/
def execReducedEnter (s : State) : Out := liftHub s (fun _ h => h.reducedEnter)

/-! ### Reset levels, release and nRST (R492, R494, R501) -/

/-- A POR that is not a recovery: 0 power-up, 1 nRST, 2 VIN, 3 VDDC, 4 VDDA. -/
def Hub.por (h : Hub) (cause : Nat) : Hub := h.clearPor.wr fClkSupCauseCause cause

/-- A rail falls to its reset level. -/
def Hub.railReset (fx : Fixed) (h : Hub) (r : Nat) : Hub :=
  let after (cause : Nat) : Hub := let h1 := h.por cause; { h1 with sup := { h1.sup with resetRec := r + 1 } }
  if r = 0 then after 2
  else if r = 1 then after 3
  else if r = 8 then after 4
  else if r = 9 then h.por 0
  else
    let h1 := (h.setDip r { h.dip r with atReset := true }).wr fClkSupNowHeld (h.rd fClkSupNowHeld ||| 2 ^ r)
    if 3 ≤ r ∧ r ≤ 5 then (List.range 8).foldl (fun a i => a.clearPort (8 * (r - 3) + i)) h1
    else if r = 6 then (List.range 8).foldl Hub.clearTw h1
    else if r = 7 then (List.range fx.variant.linkCount).foldl (fun a p => (a.leavesUp fx p).clearLink fx p) h1
    else h1

/-- The partition's own supervisor: MPOR begins (R428). -/
def Met.railReset (m : Met) (r : Nat) : Met := if 10 ≤ r then { m.clear with up := false } else m

/-- RAIL_RESET_LEVEL. -/
def execRailResetLevel (rail : Fin 12) (s : State) : Out :=
  liftBoth s (fun fx h m =>
    if !h.railWatched fx rail then (h, m)
    else if 10 ≤ rail.val then ((h.railReset fx rail).off fHltLcValid, m.railReset rail)
    else (h.railReset fx rail, m))

/-- RAIL_RELEASE: 100 µs after the rail stands above warning plus hysteresis its units are released; a bank's class is detected
again. -/
def execRailRelease (rail : Fin 12) (hi : Bool) (s : State) : Out :=
  liftHub s (fun _ h =>
    if h.railHeld rail then
      let r := rail.val
      let h1 := h.wr fClkSupNowHeld (h.rd fClkSupNowHeld &&& (4095 - 2 ^ r))
      if 2 ≤ r ∧ r ≤ 6 then
        h1.wr fClkSupBankBank ((h1.rd fClkSupBankBank &&& (31 - 2 ^ (r - 2))) ||| (b2n hi * 2 ^ (r - 2)))
      else h1
    else h)

/-- NRST_LOW: nRST low for at least 1 µs. -/
def execNrstLow (s : State) : Out := liftHub s (fun _ h => h.por 1)

/-- ACLK_START. -/
def execAclkStart (s : State) : Out := liftHub s (fun _ h => h.on fClkStatusAclkOk)

/-! ### Sleep and wake (R502 to R504, R323) -/

/-- The first reason that refuses a sleep. -/
def Hub.sleepReason (h : Hub) (m : Met) : Nat :=
  if (List.range 3).any (fun p => !(NMap.get h.flt.pend p).isEmpty) then 1
  else if !h.flt.recs.isEmpty then 2
  else if h.rd fLdrStatusState != 0 then 3
  else if m.is fMetMbCmdBusy then 4
  else if h.rd fClkSupNowWarn != 0 || h.rd fClkSupNowHeld != 0 then 5
  else 0

/-- Registers the kettle retains: increments, slews and steps of tb00 to tb_net, the kitchen timer actions. -/
def sleepReg (a : Nat) : Bool :=
  (decide (0x1C0000 ≤ a) && decide (a < 0x1C0480)) || (decide (0x1C1000 ≤ a) && decide (a < 0x1C3000))

/-- Every clock but ACLK stops: no PLL is locked, WCLK has no trim, and the clocks start again under R10 with N = 20 (R502,
R504). -/
def Hub.clocksStop (h : Hub) : Hub :=
  ([fClkStatusRefclkOk, fClkStatusTimeLock, fClkStatusFabLock, fClkStatusLinkLock, fClkStatusWclkTrim, fClkStatusSlewing,
    fClkStatusFclkPoint].foldl Hub.off h).modClk (fun _ => default)

/-- The hub sleeps: everything but what the kettle retains is lost as by a DEVICE reset. -/
def Hub.sleep (fx : Fixed) (h : Hub) : Hub :=
  let h1 := (h.clearDevice fx).clocksStop
  let kept := (h.regs.filter (fun e => sleepReg e.1)).foldl (fun (a : Hub) e => a.setReg e.1 e.2) h1
  { kept with
    tb := h.tb.foldl (fun (m : NMap TimeBase) (e : Nat × TimeBase) => NMap.set m e.1 { e.2 with slewTicks := 0 }) [], kt := h.kt, stock := [], stockFill := 0#64, asleep := true
    metFollows := false, tbMet := 0, sup := { kept.sup with wake := 0, woke := false } }.wr fGlbStatusRun 0

/-- SLEEP_REQUEST. -/
def execSleepRequest (s : State) : Out :=
  liftHub s (fun fx h => h.atReg fx s.met .clk 0x010120 (fun h =>
    let why := h.sleepReason s.met
    if why = 0 then h.sleep fx else (h.on fClkSleepRefused).wr fClkSleepReason why))

/-- A source asks the sleeping hub to wake: 1 HSP, 2 HTW, 3 wake receiver, 4 kitchen timer. -/
def Hub.askWake (h : Hub) (src : Nat) : Hub :=
  if h.asleep && h.sup.wake == 0 then { h with sup := { h.sup with wake := src } } else h

/-- `n` ACLK cycles of sleep on one timebase: n × 30,517.578125 ns × (increment / 1.25 ns). -/
def Hub.sleepAdvance (n : Nat) (h : Hub) (k : Nat) : Hub :=
  let inc := h.tbIncr k
  { h with tb := NMap.modify h.tb k (fun x => { x with
      val := (x.val + n * 1000000000 * 2 ^ 33 * inc / 0x0140000000) % tbWrap }) }

/-- KETTLE_WAKE: the source is recorded, the timebases advance, the clocks start again and the hub loads anew. -/
def Hub.kettleWake (fx : Fixed) (h : Hub) (src ticks : Nat) : Hub :=
  let why := if h.sup.wake = 0 then src else h.sup.wake
  if !h.asleep || why = 0 || decide (4 < why) then h
  else
    let h1 := (List.range 17).foldl (Hub.sleepAdvance ticks) h
    let h2 := { h1 with asleep := false, sup := { h1.sup with wake := 0, woke := true } }
    ((h2.wr fClkSleepSrc why).wr fGlbStatusRun 5).porRelease fx

/-- KETTLE_WAKE. -/
def execKettleWake (src : Fin 16) (ticks : Nat) (s : State) : Out := liftHub s (fun fx h => h.kettleWake fx src ticks)

/-- KT_WAKE_TIMER: the kettle's count reaches the wake lead before the earliest waking action. -/
def execKtWakeTimer (s : State) : Out :=
  liftHub s (fun _ h =>
    if (List.range 256).any (fun a => h.is (fTmKtCtlEnable a) && h.is (fTmKtCtlWake a)) then h.askWake 4 else h)

/-- WAKE_CMD_HUB. -/
def execWakeCmdHub (addr : BitVec 16) (s : State) : Out :=
  liftHub s (fun fx h => if h.wakeMine fx addr then h.wakeHit.askWake 3 else h)

/-- WAKE_CMD_BOTH. -/
def execWakeCmdBoth (addr : BitVec 16) (s : State) : Out :=
  liftHub s (fun fx h =>
    if h.wakeMine fx addr then (h.wakeHit.wr fGlbWakePend (h.rd fGlbWakePend ||| 4)).askWake 3 else h)

end Sys2Proof.Machine
end

