-- ==== Sys2Proof/Machine/HostMap.lean ====
section
/-! DEFINITION. The word each register reads as (the register tables of every chapter). A field kept elsewhere in the state than in its register is derived here. -/

namespace Sys2Proof.Machine
open Sys2Proof

/-! ### Derived words -/

/-- A word nobody fixes. -/
def Hub.freeWord (h : Hub) : Word × Hub := let r := h.takeFree; (w32 r.1, r.2)

/-- The word with a field put in. -/
def Hub.shown (h : Hub) (a lo len n : Nat) : Word := putField (h.reg a) lo len n

/-- The registers of `glb` and `hst`. -/
def readGlb (fx : Fixed) (h : Hub) (m : Met) (a : Nat) : Word :=
  if a = 0 then fx.variant.caps
  else if a = 4 then h.shown a 13 1 (b2n (h.is fLdrStatusConfigured))
  else if a = 0x24 then w32 (irqStat h m 0)
  else if a = 0x2C then w32 (irqStat h m 1)
  else h.reg a

/-- The registers of the sample ports (R118, R119): `stamp0` latches. -/
def readSp (h : Hub) (a : Nat) : Word × Hub :=
  if 0x050000 ≤ a then (w32 (h.irqUnits irqPort ((a - 0x050000) / 4) 0 24), h)
  else
    let p := portOfAddr a
    let off := (a - 0x040000) % 0x800
    if off = 0x30 then h.spStampRead p
    else if 0x34 ≤ off ∧ off ≤ 0x3C then
      let l := (h.port p).latch
      (latchedWord (l / 8) ((off - 0x30) / 4) ||| (if off = 0x3C then w32 (l % 8) else 0#32), h)
    else (h.reg a, h)

/-- A controller may be driving its lines: a transaction or a bus clear runs, and no retry waits on lines released to another device
(R131, R132, R134). -/
def Hub.twDrives (h : Hub) (c : Nat) : Bool :=
  h.twState c == twClear || (h.twState c == twBusy && !((h.twc c).retry && (h.twc c).foreign))

/-- The registers of the two-wire controllers (R143, R144): a controller that released the lines drives neither; what the board's
lines read is open. -/
def readTw (h : Hub) (a : Nat) : Word × Hub :=
  if 0x062000 ≤ a then (w32 (h.irqUnits irqTw ((a - 0x062000) / 4) 0 8), h)
  else if (a - 0x060000) % 0x400 = 0x30 then
    let r := h.takeFree
    (w32 (if h.twDrives ((a - 0x060000) / 0x400) then r.1 % 16 else 4 * (r.1 % 4)), r.2)
  else (h.reg a, h)

/-- Utilisation: 0 until the unit has run since its reset. Behind that the counts hang on clock cycles: nobody fixes them, but the peak
is 0 in the cycle in which a read has cleared it (R169, R249). -/
def Hub.utilWord (h : Hub) (busy : Bool) (readAt : Nat) : Word × Hub :=
  if !busy then (0#32, h)
  else
    let r := h.takeFree
    (w32 (if readAt = h.cyc + 1 then r.1 % 65536 else r.1), r.2)
def Hub.tileUtil (h : Hub) (t : Nat) : Word × Hub :=
  let x := NMap.get h.tile t
  let r := h.utilWord x.busy x.readAt
  (r.1, { r.2 with tile := NMap.set r.2.tile t { x with readAt := if x.busy then h.cyc + 1 else 0 } })
def Hub.spcUtil (h : Hub) (e : Nat) : Word × Hub :=
  let x := NMap.get h.spc e
  let r := h.utilWord x.busy x.readAt
  (r.1, { r.2 with spc := NMap.set r.2.spc e { x with readAt := if x.busy then h.cyc + 1 else 0 } })

/-- The registers of tiles and contexts (R168 to R172, R194): utilisation hangs on clock cycles, and so does `scnt.fill` where it hangs on times
still to come. -/
def readFab (h : Hub) (a : Nat) : Word × Hub :=
  if a < 0x0A0000 then
    let t := tileOfAddr a
    let off := (a - 0x080000) % 0x1000
    if off = 0x10 then h.tileUtil t
    else if within off 0x100 0x200 then
      match h.slotFill t ((off - 0x100) / 4) with
      | some n => (h.shown a 0 16 n, h)
      | none => (let r := h.takeFree; (r.2.shown a 0 16 (r.1 % 65536), r.2))
    else if 0x800 ≤ off then
      if h.stHeld heldCoef then (0#32, h.refusedBy heldCoef) else
      (h.cell 5 t (512 * h.rd (fFabTCwinBank t) + (off - 0x800) / 4) &&& 0xFFFFFF#32, h)
    else (h.reg a, h)
  else if a < 0x0B0000 then
    let c := (a - 0x0A0000) / 0x40
    let off := (a - 0x0A0000) % 0x40
    if off = 0 then
      (h.shown a 9 1 (b2n (h.is fLdrStatusConfigured && h.is (fFabCCtlEnable c) && h.cf 5 (32 + c) 0 1 3 != 0)), h)
    else if off = 0x14 then h.digSeqRead c
    else if off = 0x18 then (match (NMap.get h.ctx c).digLatch with | some d => d.1 | none => h.reg a, h)
    else if off = 0x1C then (match (NMap.get h.ctx c).digLatch with | some d => d.2 | none => h.reg a, h)
    else (h.reg a, h)
  else if a < 0x0B0010 then (w32 (h.irqUnits irqTile ((a - 0x0B0000) / 4) 0 32), h)
  else if a < 0x0B0030 then (w32 (h.irqUnits irqCtx 0 (32 * ((a - 0x0B0010) / 4)) 32), h)
  else (w32 (h.irqUnits irqCtx 1 (32 * ((a - 0x0B0030) / 4)) 32), h)

/-- The registers of spectral engines and features (R249 to R251). -/
def readSpc (h : Hub) (a : Nat) : Word × Hub :=
  if a < 0x108000 then
    let off := (a - 0x100000) % 0x1000
    if off = 0 then (h.shown a 0 1 (b2n (!(NMap.get h.spc ((a - 0x100000) / 0x1000)).order.isEmpty)), h)
    else if off = 0x10 then h.spcUtil ((a - 0x100000) / 0x1000)
    else (h.reg a, h)
  else if a < 0x110000 then (w32 (h.irqUnits irqSpc ((a - 0x108000) / 4) 0 4), h)
  else if a < 0x118000 then
    let c := (a - 0x110000) / 0x40
    let off := (a - 0x110000) % 0x40
    if off = 0x10 then h.feaRead c
    else if 0x14 ≤ off then h.feaNext c ((off - 0x10) / 4)
    else (h.reg a, h)
  else if a < 0x118020 then (w32 (h.irqUnits irqFea 0 (32 * ((a - 0x118000) / 4)) 32), h)
  else (w32 (h.irqUnits irqFea 1 (32 * ((a - 0x118020) / 4)) 32), h)

/-- The registers of the limit table: an entry's word is read through its check bits (R246); an uncorrectable one reads as an
open value. -/
def readLim (h : Hub) (a : Nat) : Word × Hub :=
  if a < 0x160000 then
    if h.stHeld heldLimit then (0#32, h.refusedBy heldLimit) else
    let r := h.limRead ((a - 0x140000) / 16) ((a - 0x140000) / 4 % 4)
    match r.1 with
    | some w => (w, r.2)
    | none => r.2.freeWord
  else (h.reg a, h)

/-- The registers of the event fabric (R272, R273). -/
def readEv (h : Hub) (a : Nat) : Word × Hub :=
  if a = 0x180050 then
    let four (b : Nat) : Bool := (List.range 4).any (fun k => h.reg (b + 4 * k) != 0#32)
    (w32 (b2n (four 0x180030) + 2 * b2n (four 0x180040) + 4 * b2n (four 0x180020)), h)
  else if within a 0x181000 0x182000 then
    let n := (a - 0x181000) / 0x20
    let off := (a - 0x181000) % 0x20
    if off = 0 then
      let w := putField (h.reg a) 29 1 (b2n (h.chanEnabled n))
      (if (h.chan n).winStart + h.evWindow n ≤ h.cyc then putField w 0 17 0 else w, h)
    else if off = 0x10 then h.stampRead n
    else if 0x14 ≤ off then (h.stampWord n ((off - 0x10) / 4), h)
    else (h.reg a, h)
  else (h.reg a, h)

/-- The registers of queues and rings (R285, R302 to R305). -/
def readQ (fx : Fixed) (h : Hub) (a : Nat) : Word × Hub :=
  if a < 0x1B0000 then
    let q := queueOfAddr a
    let off := (a - 0x1A0000) % 0x400
    let x := NMap.get h.q q
    if off = 4 then (h.shown a 0 1 (b2n (decide (h.qCap q ≤ x.level))), h)
    else if off = 0x0C then (w32 x.level, h)
    else if off = 0x10 then (w32 x.pkts, h)
    else if off = 0x20 then (w32 (h.qCap q), h)
    else if 0x200 ≤ off then (let r := h.windowRead fx q (a / 4 % 2 == 1); (r.1, r.2.settle fx))
    else (h.reg a, h)
  else if a < 0x1B8000 then (h.reg a, h)
  else if a < 0x1B8008 then (w32 (h.irqUnits irqQueue 0 (32 * ((a - 0x1B8000) / 4)) 32), h)
  else if a < 0x1B8010 then (w32 (h.irqUnits irqQueue 1 (32 * ((a - 0x1B8008) / 4)) 32), h)
  else if a < 0x1B8028 then (w32 (h.irqUnits irqRing 0 (32 * ((a - 0x1B8010) / 4)) 32), h)
  else if a < 0x1B8040 then (w32 (h.irqUnits irqRing 1 (32 * ((a - 0x1B8028) / 4)) 32), h)
  else (h.reg a, h)

/-- The registers of time (R326 to R329). -/
def readTm (h : Hub) (a : Nat) : Word × Hub :=
  if a < 0x1C0800 then
    let n := (a - 0x1C0000) / 0x40
    let off := (a - 0x1C0000) % 0x40
    if off = 0 then h.nowRead n
    else if off < 0x10 then (latchedWord (NMap.get h.tb n).latch (off / 4), h)
    else if off = 0x34 then (w32 (h.slewLeft n), h)
    else (h.reg a, h)
  else if within a 0x1C0A00 0x1C0B00 then
    let t := (a - 0x1C0A00) / 0x20
    let off := (a - 0x1C0A00) % 0x20
    if off = 0 then h.tachRead t
    else if off < 0x10 then (latchedWord (NMap.get h.tach t).latch (off / 4), h)
    else (h.reg a, h)
  else if within a 0x1C3030 0x1C3050 then
    let k := (a - 0x1C3030) / 4
    (w32 ((List.range 32).foldl (fun x i => if h.is (fTmKtStLate (32 * k + i)) then x + 2 ^ i else x) 0), h)
  else (h.reg a, h)

/-- The registers of the cascade: the summaries (R364). -/
def readCas (h : Hub) (a : Nat) : Word :=
  if 0x1D0900 ≤ a then
    let line := (a - 0x1D0900) / 4
    w32 (h.irqUnits irqLink line 0 3 + 8 * h.irqUnits irqCas line 0 1)
  else h.reg a

/-- The registers of the radio. -/
def readRad (h : Hub) (a : Nat) : Word × Hub :=
  if 0x1E3100 ≤ a then (w32 (h.irqUnits irqRad ((a - 0x1E3100) / 4) 0 1), h)
  else (h.reg a, h)

/-- The registers of health: tokens held and the summaries (R457, R484). -/
def readHlt (h : Hub) (a : Nat) : Word :=
  if within a 0x1F8020 0x1F8038 then h.shown a 16 13 (h.bkTokens ((a - 0x1F8020) / 4))
  else if 0x1F9000 ≤ a then
    let line := (a - 0x1F9000) / 4
    w32 (h.irqUnits irqHlt line 0 1 + 2 * h.irqUnits irqFlt line 0 1)
  else h.reg a

/-- The registers of the partition: a channel on a BAD converter shows it (R435). -/
def readMet (m : Met) (a : Nat) : Word :=
  if within a 0x800200 0x800280 && (a - 0x800200) % 0x10 == 4 then
    let w := m.reg a
    putField w 7 1 (b2n (m.bad.testBit (fieldOf w 8 4)))
  else m.reg a

/-- The word a register reads as, with what reading it latches or takes. -/
def readReg (fx : Fixed) (h : Hub) (m : Met) (b : Blk) (a : Nat) : Word × Hub :=
  match b with
  | .glb => (readGlb fx h m a, h)
  | .clk | .ldr => (h.reg a, h)
  | .sp => readSp h a
  | .tw => readTw h a
  | .fab => readFab h a
  | .spc => readSpc h a
  | .lim => readLim h a
  | .ev => readEv h a
  | .q => readQ fx h a
  | .tm => readTm h a
  | .cas => (readCas h a, h)
  | .rad => readRad h a
  | .hlt => (readHlt h a, h)
  | .none => (0#32, h)
  | .met => (readMet m a, h)
  | .dbg => h.dbgGet (a - 0xC00000) { data := 0#72, addr := 0#21 }

/-- A slot's `cnt` register counts a DETECT stage's block results, and is then read only (R217). -/
def Hub.detectCnt (h : Hub) (a : Nat) : Bool :=
  let off := (a - 0x080000) % 0x1000
  within a 0x080000 0x0A0000 && within off 0x200 0x600 && off % 0x10 == 8 &&
    h.cf 5 (tileOfAddr a) (0x400 + 16 * ((off - 0x200) / 0x10)) 0 4 == 7

/-- A read clears the RC fields it returned (R65). -/
def Hub.clearRc (h : Hub) (a : Nat) : Hub :=
  match rowOf a with
  | some r =>
    if r.fields.any (fun f => f.kind == .rc) && !h.detectCnt a then
      h.setReg a (r.fields.foldl (fun w f => if f.kind = .rc then putField w f.lo f.len 0 else w) (h.reg a))
    else h
  | none => h

/-- One word of a burst that began in block `b`: a word that finds no register reads as zero. -/
def readAt (fx : Fixed) (h : Hub) (m : Met) (b : Blk) (fin a : Nat) : Word × Hub :=
  match accessAt fx.variant h m b fin a with
  | .ok =>
    let r := readReg fx h m b a
    (r.1, if b = .dbg || b = .met then r.2 else r.2.clearRc a)
  | x => (0#32, h.noteAccess x a)

/-- The words of a burst of `n` words from address `a`. -/
def readBurst (fx : Fixed) (m : Met) (b : Blk) (fin : Nat) : Nat → Nat → Hub → List Word × Hub
  | 0, _, h => ([], h)
  | n + 1, a, h =>
    let r := readAt fx h m b fin a
    let t := readBurst fx m b fin n (a + 4) r.2
    (r.1 :: t.1, t.2)

end Sys2Proof.Machine
end

