-- ==== Sys2Proof/Machine/CellTable.lean ====
section
/-! DEFINITION. The configuration cells the loader accepts (spec/02 R26, R27, R513): for each section the fields of its units'
cells with the values a field takes, as the cell tables of the chapters list them, and the units and codes each part lacks. -/

namespace Sys2Proof.Machine
open Sys2Proof

/-- Fields of cells: units `u0` to `u1`, `n` cells from `cell` in steps of `stride`, bits from `lo`, values `min` to `max`. -/
structure CellRow where
  u0 : Nat
  u1 : Nat
  cell : Nat
  stride : Nat
  n : Nat
  lo : Nat
  len : Nat
  min : Nat
  max : Nat
  deriving DecidableEq, Repr

/-- A field of one cell that takes every value. -/
def c1 (u0 u1 cell lo len : Nat) : CellRow := ⟨u0, u1, cell, 1, 1, lo, len, 0, 2 ^ len - 1⟩
/-- A field of one cell with its range. -/
def c1r (u0 u1 cell lo len min max : Nat) : CellRow := ⟨u0, u1, cell, 1, 1, lo, len, min, max⟩
/-- A field of several cells that takes every value. -/
def cn (u0 u1 cell stride n lo len : Nat) : CellRow := ⟨u0, u1, cell, stride, n, lo, len, 0, 2 ^ len - 1⟩
/-- A field of several cells with its range. -/
def cnr (u0 u1 cell stride n lo len min max : Nat) : CellRow := ⟨u0, u1, cell, stride, n, lo, len, min, max⟩

/-- GLOBAL (spec/16 R455). -/
def rowsGlobal : List CellRow :=
  [cnr 0 0 0x080 1 6 0 13 0 4096, cn 0 0 0x080 1 6 16 16, c1 0 0 0x088 0 11, cn 0 0 0x089 1 4 0 32, c1 0 0 0x08D 0 4]

/-- CLOCK (spec/01 R19). -/
def rowsClock : List CellRow :=
  [c1 0 23 0 0 1, c1r 0 23 0 1 2 0 2, c1 0 23 0 3 1, c1 24 24 0 0 1, c1 25 25 0 0 6, c1 25 25 0 6 3, c1 25 25 1 0 32]

/-- PORTS (spec/04 R112). -/
def rowsPorts : List CellRow :=
  [c1 0 23 0 0 1, c1r 0 23 0 1 2 0 2, c1 0 23 0 3 3, c1r 0 23 0 6 5 7 31, c1 0 23 0 11 4, c1r 0 23 0 15 6 0 32,
   c1r 0 23 0 21 2 0 2, c1 0 23 0 23 3,
   c1r 0 23 1 0 16 16 4096, c1r 0 23 1 16 8 1 255, c1 0 23 1 24 3] ++
  [c1 0 23 2 0 21, c1 0 23 3 0 20, c1 0 23 4 0 32, c1r 0 23 5 0 5 0 16, c1r 0 23 6 0 2 0 2, c1 0 23 6 8 6,
   cn 0 23 0x008 1 8 0 32, cn 0 23 0x010 4 8 0 20, cn 0 23 0x011 4 8 0 32,
   cn 0 23 0x100 1 256 31 1, cnr 0 23 0x100 1 256 29 2 0 2, cn 0 23 0x100 1 256 18 11, cn 0 23 0x100 1 256 0 8]

/-- TWOWIRE (spec/05 R138). -/
def rowsTwowire : List CellRow :=
  [c1 0 7 0 0 24, c1r 0 7 1 0 5 0 16, c1r 0 7 1 8 5 0 16,
   cn 0 7 0x010 8 16 0 7, cnr 0 7 0x010 8 16 7 3 0 4, cnr 0 7 0x010 8 16 10 4 0 8, cn 0 7 0x010 8 16 14 3,
   cn 0 7 0x011 8 16 0 32, cn 0 7 0x012 8 16 0 32] ++
  [cn 0 7 0x013 8 16 31 1, cnr 0 7 0x013 8 16 29 2 0 2, cn 0 7 0x013 8 16 17 12, cn 0 7 0x013 8 16 0 8,
   cn 0 7 0x014 8 16 31 1, cnr 0 7 0x014 8 16 29 2 0 2, cn 0 7 0x014 8 16 17 12, cn 0 7 0x014 8 16 0 8]

/-- FABRIC (spec/06 R166, R167, spec/07 R174, R181): the kind parameters of a slot are checked against its kind at the end. -/
def rowsFabric : List CellRow :=
  [cn 0 31 0x000 1 1024 0 24, cnr 0 31 0x400 16 64 0 4 0 7, cn 0 31 0x400 16 64 4 13, cnr 0 31 0x400 16 64 17 7 0 31,
   cn 0 31 0x401 16 64 0 9, cnr 0 31 0x401 16 64 9 10 0 512, cn 0 31 0x402 16 64 0 12, cnr 0 31 0x402 16 64 12 13 0 4096,
   cn 0 31 0x403 16 64 0 32] ++ (List.range 12).map (fun k => cn 0 31 (0x404 + k) 16 64 0 32) ++
  [c1 0 31 0x800 0 6, c1 0 31 0x801 0 2, c1 0 31 0x801 16 16] ++
  [c1 32 223 0 0 1, c1r 32 223 0 1 3 0 6, c1r 32 223 0 4 4 0 8, c1 32 223 0 8 6, c1r 32 223 0 14 5 0 17, c1 32 223 0 19 3,
   c1r 32 223 0 22 2 0 2, c1 32 223 0 24 2, c1r 32 223 0 26 5 0 20, c1 32 223 1 0 12, c1 32 223 2 0 32,
   c1r 32 223 3 0 5 0 20, c1 32 223 3 5 1, c1r 32 223 3 8 4 0 8, cn 32 223 0x010 1 8 0 22]

/-- SPECTRAL (spec/09 R248). -/
def rowsSpectral : List CellRow :=
  [cn 0 3 0 16 64 0 9, cnr 0 3 0 16 64 9 3 0 6, cnr 0 3 0 16 64 12 2 0 2, cn 0 3 0 16 64 14 3, cnr 0 3 0 16 64 17 2 0 2,
   cn 0 3 0 16 64 19 1, cn 0 3 1 16 64 0 32, cn 0 3 2 16 64 0 28, cn 0 3 3 16 64 0 7, cn 0 3 3 16 64 8 8,
   cn 0 3 4 16 64 0 16, cn 0 3 5 16 64 0 32] ++
  [c1 4 195 0 0 1, c1r 4 195 0 1 5 0 20, c1 4 195 0 6 10, c1 4 195 1 0 14, c1 4 195 2 0 13, c1r 4 195 2 13 14 0 8192,
   cn 4 195 0x010 1 32 0 28]

/-- LIMITS (spec/09 R237): entries whose valid bit is 0 take any word. -/
def rowsLimits : List CellRow := [cn 0 127 0 1 256 0 32]

/-- EVENTS (spec/10 R254). -/
def rowsEvents : List CellRow :=
  [cn 0 127 0 1 128 0 16, c1r 0 127 0x080 0 12 2 4095, c1r 0 127 0x081 0 5 10 24, c1r 0 127 0x081 16 16 1 65535,
   c1 0 127 0x082 0 1, c1r 0 127 0x082 1 5 0 16]

/-- QUEUES (spec/11 R301). -/
def rowsQueues : List CellRow :=
  [c1 0 63 0 0 2, c1r 0 63 0 2 19 0 419430, c1 0 63 1 0 21, c1 0 63 2 0 22, cn 0 63 4 1 4 0 32,
   cn 0 63 0x010 4 12 0 9, cnr 0 63 0x010 4 12 9 4 0 8, cn 0 63 0x010 4 12 13 1, cn 0 63 0x011 4 12 0 21,
   cn 0 63 0x012 4 12 0 19, cn 0 63 0x013 4 12 0 32]

/-- TIME (spec/12 R325, actions in the layout of R328). -/
def rowsTime : List CellRow :=
  [c1 0 15 0 0 8, c1 0 15 1 0 32, cn 16 16 0 2 8 0 18, cnr 16 16 1 2 8 0 5 0 16, cn 16 16 0x010 1 16 0 18,
   cn 16 16 0x020 6 32 0 1, cnr 16 16 0x020 6 32 1 5 0 16, cn 16 16 0x021 6 32 0 32, cn 16 16 0x022 6 32 16 16] ++
  [cn 16 16 0x023 6 32 0 32, cn 16 16 0x024 6 32 16 16, cn 16 16 0x025 6 32 0 32, c1r 16 16 0x0E0 0 16 16 65535,
   cn 32 39 0 8 32 0 32, cn 32 39 1 8 32 0 32, cnr 32 39 2 8 32 0 32 0 999999999, cn 32 39 3 8 32 0 32,
   cn 32 39 4 8 32 16 16, cn 32 39 5 8 32 0 7, cnr 32 39 5 8 32 24 5 0 17, cn 32 39 5 8 32 29 3]

/-- CASCADE (spec/13 R359). -/
def rowsCascade : List CellRow :=
  [c1 0 2 0 0 2, c1r 0 2 0 2 10 1 1000, c1 0 2 0 16 16, c1 3 3 0 0 2, cn 3 3 0x010 4 32 0 10, cnr 3 3 0x010 4 32 10 4 0 8,
   cn 3 3 0x010 4 32 14 14, cnr 3 3 0x011 4 32 0 8 8 248, cn 3 3 0x012 4 32 0 32, cn 3 3 0x100 1 64 0 32]

/-- RADIO (spec/14 R391). -/
def rowsRadio : List CellRow :=
  [c1r 0 0 0 0 2 0 2, c1 0 0 0 2 2, c1r 0 0 0 4 5 0 16, c1 0 0 0 9 6, c1 0 0 1 0 6, c1r 0 0 2 0 5 11 26, c1 0 0 2 5 6,
   c1 0 0 3 0 32, cnr 0 0 0x010 1 16 0 5 11 26, cn 0 0 0x020 2 64 0 32, cn 0 0 0x021 2 64 0 27] ++
  [c1 1 48 0 0 32, c1r 1 48 1 0 8 1 255, c1 1 48 1 8 1, c1 1 48 2 0 32, c1 49 49 0 0 18]

/-- HEALTH (spec/17 R479, spec/18 R499). -/
def rowsHealth : List CellRow :=
  [c1 0 0 0 0 30, c1 0 0 1 0 24, c1 1 1 0 0 16, c1 1 1 1 0 24, cn 1 1 2 1 6 0 32, c1r 2 2 0 0 4 0 10, c1 2 2 0 4 5,
   cn 2 2 0x010 1 32 0 32]

/-- The rows of a section. -/
def cellRows (sect : Nat) : List CellRow :=
  match sect with
  | 1 => rowsGlobal
  | 2 => rowsClock
  | 3 => rowsPorts
  | 4 => rowsTwowire
  | 5 => rowsFabric
  | 6 => rowsSpectral
  | 7 => rowsLimits
  | 8 => rowsEvents
  | 9 => rowsQueues
  | 10 => rowsTime
  | 11 => rowsCascade
  | 12 => rowsRadio
  | 13 => rowsHealth
  | _ => []

/-- A row holds a cell of a unit. -/
def CellRow.holds (r : CellRow) (unit cell : Nat) : Bool :=
  decide (r.u0 ≤ unit) && decide (unit ≤ r.u1) && decide (r.cell ≤ cell) && (cell - r.cell) % r.stride == 0 &&
    decide ((cell - r.cell) / r.stride < r.n)

/-- Bits of a word that no row of its cell lists are 0. -/
def unlistedClear (rs : List CellRow) (w : Word) : Bool := rs.foldl (fun a r => putField a r.lo r.len 0) w == 0#32

/-- A trigger target code (spec/12 R315). -/
def targetOk (t : Nat) : Bool := decide (t ≤ 0x18) || (decide (0x20 ≤ t) && decide (t ≤ 0x32)) || decide (0x80 ≤ t)

/-- A producer code (spec/10 R255, R256), 0 empty. -/
def producerOk (v : Nat) : Bool :=
  let sub := v / 256 % 16
  let u := v % 256
  v == 0 || (match v / 4096 with
    | 1 => decide (sub ≤ 2) && decide (u < 24)
    | 2 => (decide (sub ≤ 1) && decide (u < 128)) || (sub == 2 && decide (u < 8))
    | 3 => decide (sub ≤ 5) && decide (u < 192)
    | 4 => sub == 0 || (sub == 1 && decide (u < 192))
    | 5 => (sub == 0 && decide (u < 8)) || (sub == 1 && decide (u < 16))
    | 6 => (decide (sub ≤ 2) && decide (u < 64)) || ((sub == 3 || sub == 4) && decide (u < 192))
    | 7 => (sub == 0 && decide (u < 128)) || (sub == 1 && decide (u < 16))
    | 8 => (decide (sub ≤ 1) && decide (u < 3)) || (sub == 2 && u == 0)
    | 9 => ((sub == 0 || sub == 4 || sub == 5) && u == 0) || (decide (1 ≤ sub) && decide (sub ≤ 3) && decide (1 ≤ u) && decide (u ≤ 48))
    | 10 => (decide (sub ≤ 1) && decide (u < 12)) || (sub == 2 && decide (u < 9)) || ((sub == 3 || sub == 4) && u == 0)
    | _ => false)

/-- A task code (spec/10 R255, R258), 0 empty. -/
def taskOk (v : Nat) : Bool :=
  let sub := v / 256 % 16
  let u := v % 256
  v == 0 || (match v / 4096 with
    | 1 => sub == 0 && decide (u < 24)
    | 2 => sub == 0 && decide (u < 128)
    | 3 => sub == 0 && decide (u < 32)
    | 4 => sub == 0
    | 5 => sub == 0 && decide (u < 192)
    | 6 => decide (sub ≤ 1) && decide (u < 192)
    | 7 => sub == 0 && decide (1 ≤ u) && decide (u ≤ 48)
    | 8 => decide (sub ≤ 1) && u == 0
    | 9 => sub == 0 && decide (u < 16)
    | _ => false)

/-- A field of an item's word is in its range (R27). A word of 0 may leave its unit unused, and a 0 in the watchdog cells is judged
by the channel's enable, so those wait for the end of the stream (R513). -/
def CellRow.takes (r : CellRow) (sect : Nat) (w : Word) : Bool :=
  (fieldOf w r.lo r.len == 0 && (w == 0#32 || sect == 8)) ||
    (decide (r.min ≤ fieldOf w r.lo r.len) && decide (fieldOf w r.lo r.len ≤ r.max))

/-- A cell takes a value an item writes (R27): no unlisted bit, every field in its range, every code known. -/
def cellTakes (sect unit cell : Nat) (w : Word) : Bool :=
  let rs := (cellRows sect).filter (fun r => r.holds unit cell)
  unlistedClear rs w &&
    rs.all (fun r => r.takes sect w) &&
    (sect != 8 || decide (0x80 ≤ cell) || (if cell < 0x40 then producerOk (fieldOf w 0 16) else taskOk (fieldOf w 0 16))) &&
    (!(sect == 10 && unit == 16 && decide (0x025 ≤ cell) && decide (cell < 0x0E0) && (cell - 0x025) % 6 == 0) ||
      (List.range 4).all (fun i => targetOk (fieldOf w (8 * i) 8))) &&
    (sect != 4 || cell != 0 || fieldOf w 0 2 != 3 || (decide (24 ≤ fieldOf w 2 10) && decide (13 ≤ fieldOf w 12 10) && decide (48 ≤ fieldOf w 2 10 + fieldOf w 12 10))) &&
    (!(sect == 3 && decide (0x010 ≤ cell) && decide (cell < 0x030) && cell % 4 == 0) || decide (fieldOf w 12 8 ≤ fieldOf w 4 8))

/-! ### Units (R26) -/

/-- A unit number lies in its section's unit list. -/
def unitListed (sect unit : Nat) : Bool :=
  match sect with
  | 1 => unit == 0
  | 2 => decide (unit < 26)
  | 3 => decide (unit < 24)
  | 4 => decide (unit < 8)
  | 5 => decide (unit < 224)
  | 6 => decide (unit < 196)
  | 7 => decide (unit < 128)
  | 8 => decide (unit < 128)
  | 9 => decide (unit < 64)
  | 10 => decide (unit < 17) || (decide (32 ≤ unit) && decide (unit < 40))
  | 11 => decide (unit < 4)
  | 12 => decide (unit < 50)
  | 13 => decide (unit < 3)
  | 15 => decide (unit < 10)
  | _ => false

/-- Cells per unit. -/
def cellSpace (sect : Nat) : Nat :=
  match sect with
  | 1 => 256
  | 2 => 64
  | 3 => 512
  | 4 => 256
  | 5 => 4096
  | 6 => 1024
  | 7 => 256
  | 8 => 256
  | 9 => 64
  | 10 => 256
  | 11 => 1024
  | 12 => 256
  | 13 => 512
  | 15 => 1024
  | _ => 0

/-- A section number the hub knows. -/
def sectionKnown (sect : Nat) : Bool := decide (1 ≤ sect) && decide (sect ≤ 15) && sect != 14

/-- A part lacks a unit (R26). -/
def unitAbsent (v : Variant) (sect unit : Nat) : Bool :=
  match v with
  | .dx192 => false
  | .dx192n => sect == 12
  | .dx192u => sect == 15
  | .dx128 =>
    ((sect == 2 || sect == 3) && decide (16 ≤ unit) && decide (unit ≤ 23)) ||
    (sect == 5 && ((decide (16 ≤ unit) && decide (unit ≤ 31)) || decide (160 ≤ unit))) ||
    (sect == 6 && (unit == 2 || unit == 3 || decide (132 ≤ unit))) ||
    (sect == 9 && decide (38 ≤ unit) && decide (unit ≤ 61)) || (sect == 11 && unit == 2)

/-- A producer or task code names a unit a part lacks (R255). -/
def codeAbsent (v : Variant) (task : Bool) (code : Nat) : Bool :=
  let cls := code / 4096
  let sub := code / 256 % 16
  let u := code % 256
  match v with
  | .dx192n => cls == (if task then 7 else 9)
  | .dx128 =>
    (cls == 1 && decide (16 ≤ u)) || (cls == 3 && decide ((if task then 16 else 128) ≤ u)) || (cls == 4 && decide (128 ≤ u)) ||
    (task && (cls == 5 || cls == 6) && decide (128 ≤ u)) || (!task && cls == 6 && decide (3 ≤ sub) && decide (128 ≤ u)) ||
    (!task && cls == 6 && decide (sub < 3) && decide (38 ≤ u) && decide (u ≤ 61)) || (!task && cls == 8 && decide (sub < 2) && u == 2)
  | _ => false

/-- A trigger target names a unit a part lacks: its port, the partition (METRO unit 9) or the transceiver (RADIO unit 0). -/
def targetAbsent (v : Variant) (t : Nat) : Option Nat :=
  if v.spCount < t ∧ t ≤ 0x18 then some (t - 1)
  else if t = 0x30 ∧ v.hasMet = false then some 9
  else if t = 0x31 ∧ v.hasRad = false then some 0
  else none

/-- The unit a cell's value names that a part lacks: a source (its number stands in another cell), a code's unit, a trigger target,
the partition behind an action's timebase (R42, R147, R255, R315, R319). -/
def refAbsent (v : Variant) (sect unit cell : Nat) (w : Word) : Option Nat :=
  let k := fieldOf w 1 3
  if sect = 5 ∧ 32 ≤ unit ∧ cell = 0 ∧ ((k = 3 ∧ v.hasRad = false) ∨ (k = 4 ∧ v.hasMet = false)) then some 0
  else if sect = 8 ∧ cell < 0x80 ∧ codeAbsent v (decide (0x40 ≤ cell)) (fieldOf w 0 16) = true then some (fieldOf w 0 8)
  else if sect = 10 ∧ unit = 16 ∧ 0x025 ≤ cell ∧ cell < 0x0E0 ∧ (cell - 0x025) % 6 = 0 then
    ((List.range 4).filterMap (fun i => targetAbsent v (fieldOf w (8 * i) 8))).head?
  else if sect = 10 ∧ 32 ≤ unit ∧ cell % 8 = 5 ∧ fieldOf w 24 5 = 17 ∧ v.hasMet = false then some 9
  else none

end Sys2Proof.Machine
end

