-- ==== Sys2Proof/Machine/LoadCheck.lean ====
section
/-! DEFINITION. The checks at the end of a stream over the structure as a whole (spec/02 R39, R513, and the loader rules of the
chapters). The hub given is the candidate: the cells as they would be, FCLK_planned as a code, shown as configured. -/

namespace Sys2Proof.Machine
open Sys2Proof

/-! ### Shared pieces -/

/-- No repeats. -/
def noDup (l : List Nat) : Bool :=
  match l with
  | [] => true
  | x :: xs => !xs.contains x && noDup xs

/-- Every pair of different members meets a symmetric test. -/
def pairwiseOk {α : Type} (p : α → α → Bool) : List α → Bool
  | [] => true
  | x :: xs => xs.all (p x) && pairwiseOk p xs

/-- Two regions (start, length) share no word. -/
def apart (a b : Nat × Nat) : Bool := a.2 == 0 || b.2 == 0 || decide (a.1 + a.2 ≤ b.1) || decide (b.1 + b.2 ≤ a.1)

/-- FCLK at a resting point, in Hz. -/
def fclkHz (code : Nat) : Rat := if code = 0 then 480000000 else if code = 1 then 456000000 else 432000000

/-- The contexts with a source. -/
def Hub.activeCtxs (h : Hub) : List Nat :=
  ((h.usedUnits 5).filter (fun u => decide (32 ≤ u) && h.cf 5 u 0 1 3 != 0)).map (fun u => u - 32)

/-- The used tiles. -/
def Hub.usedTiles (h : Hub) : List Nat := (h.usedUnits 5).filter (fun u => decide (u < 32))

/-- Slots of a tile that carry a stage. -/
def Hub.slotsOf (h : Hub) (t : Nat) : List Nat := (List.range 64).filter (fun j => h.cf 5 t (0x400 + 16 * j) 0 4 != 0)

/-- A used unit's fields lie at or above the low ends of their ranges, but for the fields R513 excepts, which are checked apart. -/
def Hub.fieldsOk (h : Hub) (sect unit : Nat) : Bool :=
  (cellRows sect).all (fun r =>
    r.min == 0 || decide (unit < r.u0) || decide (r.u1 < unit) ||
    (sect == 8 && r.cell == 0x081 && h.cf 8 unit 0x082 0 1 == 0) || (sect == 10 && r.cell == 0x0E0) ||
    (List.range r.n).all (fun k =>
      let v := h.cf sect unit (r.cell + r.stride * k) r.lo r.len
      decide (r.min ≤ v) && decide (v ≤ r.max)))

/-! ### Ports and two-wire buses (R87 to R90, R100, R101, R105, R112, R121 to R128) -/

/-- A slot map or poll field fits its word (R89, R101). -/
def fieldFits (w : Word) (lo len W : Nat) (wordCrc : Bool) : Bool :=
  let fmt := fieldOf w 29 2
  let left := bitOf w 28
  decide (lo + len ≤ W) && (!wordCrc || decide (8 ≤ lo)) &&
    (if left then fmt != 2 && decide (2 ≤ len) else decide (len ≤ (if fmt = 2 then 23 else 24)))

/-- The mapped slots of a port as map, lane, slot and cell. -/
def Hub.mapped (h : Hub) (p : Nat) : List (Nat × Nat × Nat × Word) :=
  (h.cells.filter (fun e => e.1 / 4096 == 3 * 256 + p && decide (0x100 ≤ e.1 % 4096) && bitOf e.2 31)).map
    (fun e => let k := e.1 % 4096 - 0x100; (k / 64, k / 16 % 4, k % 16, e.2))

def Hub.portOk (h : Hub) (v : Variant) (p : Nat) : Bool :=
  let W := h.cf 3 p 0 6 5 + 1
  let S := h.cf 3 p 0 11 4 + 1
  let lanes := h.cf 3 p 0 1 2
  let L := if lanes = 0 then 1 else if lanes = 1 then 2 else 4
  let crc := h.cf 3 p 0 21 2
  h.fieldsOk 3 p && (lanes == 0 || decide (p < 8)) && (crc != 2 || decide (16 ≤ W)) &&
    (h.cf 3 p 2 20 1 == 0 || decide (h.cf 3 p 2 16 4 < S)) &&
    ((h.mapped p).isEmpty || h.cf 2 p 0 0 1 == 0) &&
    (h.mapped p).all (fun m => decide (m.2.1 < L) && decide (m.2.2.1 < S) && decide (fieldOf m.2.2.2 0 8 < v.ctxCount) &&
      fieldFits m.2.2.2 (fieldOf m.2.2.2 23 5) (fieldOf m.2.2.2 18 4 + 16 * fieldOf m.2.2.2 22 1 + 1) W (crc == 2))

/-- Bits per second a port offers the ingress: the most mapped words of a frame over the entries of its plan. R105 counts "every written
plan entry": an entry written beyond the plan's length is never used and is not counted (DEDUCED, log entry 128). -/
def Hub.portIngress (h : Hub) (p : Nat) : Nat :=
  let words := ((List.range (h.planLen p)).map (fun e =>
    ((h.mapped p).filter (fun m => m.1 == h.cf 3 p (0x10 + 4 * e) 2 2)).length)).foldl max 0
  h.cf 3 p 4 0 32 * words * (h.cf 3 p 0 6 5 + 1)

/-- The mapped poll fields of a controller as entry and cell. -/
def Hub.pollFields (h : Hub) (n : Nat) : List (Nat × Word) :=
  (h.cells.filter (fun e => e.1 / 4096 == 4 * 256 + n && decide (0x10 ≤ e.1 % 4096) && (e.1 % 8 == 3 || e.1 % 8 == 4) &&
    bitOf e.2 31)).map (fun e => ((e.1 % 4096 - 0x10) / 8, e.2))

def Hub.twOk (h : Hub) (v : Variant) (n : Nat) : Bool :=
  (h.pollFields n).all (fun f => decide (fieldOf f.2 0 8 < v.ctxCount) &&
    fieldFits f.2 (fieldOf f.2 22 6) (fieldOf f.2 17 5 + 1) (8 * h.cf 4 n (0x10 + 8 * f.1) 10 4) false)

/-- Low and high counts of a controller (R121). -/
def Hub.twCounts (h : Hub) (n : Nat) : Nat × Nat :=
  match h.cf 4 n 0 0 2 with
  | 0 => (240, 240)
  | 1 => (72, 48)
  | 2 => (30, 18)
  | _ => (h.cf 4 n 0 2 10, h.cf 4 n 0 12 10)

/-- WCLK cycles of a poll entry, one bus free included (R123). -/
def Hub.twCycles (h : Hub) (n e : Nat) : Nat :=
  let l := (h.twCounts n).1
  let hi := (h.twCounts n).2
  let byte := 9 * (l + hi)
  let w := h.cf 4 n (0x10 + 8 * e) 7 3
  let r := h.cf 4 n (0x10 + 8 * e) 10 4
  let stop := l + hi
  let join := if h.cf 4 n (0x10 + 8 * e) 14 1 = 0 then l + 2 * hi else stop + l + hi
  if w = 0 ∨ r = 0 then hi + (1 + w + r) * byte + stop + l
  else hi + (1 + w) * byte + join + (1 + r) * byte + stop + l

/-- WCLK cycles per second of a controller's polls (R128). -/
def Hub.twLoad (h : Hub) (n : Nat) : Nat :=
  ((List.range (h.cf 4 n 1 0 5)).map (fun e =>
    h.cf 4 n (0x12 + 8 * e) 0 32 * (1 + h.cf 4 n (0x10 + 8 * e) 15 2) * h.twCycles n e)).sum

/-- Every source of samples by port or two-wire bus, as the contexts fed. -/
def Hub.fedBy (h : Hub) : List Nat :=
  ((h.usedUnits 3).flatMap (fun p => (h.mapped p).map (fun m => fieldOf m.2.2.2 0 8))) ++
    ((h.usedUnits 4).flatMap (fun n => (h.pollFields n).map (fun f => fieldOf f.2 0 8)))

/-- Ports and buses together. -/
def Hub.sourcesOk (h : Hub) (v : Variant) : Bool :=
  (h.usedUnits 3).all (h.portOk v) && (h.usedUnits 4).all (fun n => h.twOk v n && decide (h.twLoad n ≤ 38400000)) &&
    noDup h.fedBy &&
    decide (((h.usedUnits 3).map h.portIngress).sum +
      ((h.usedUnits 4).map (fun n => ((h.pollFields n).map (fun f => 24 * h.cf 4 n (0x12 + 8 * f.1) 0 32)).sum)).sum ≤ 2000000000)

/-! ### Rates (R147, R158) -/

/-- The declared rate of a context's source. -/
def Hub.rateQ (h : Hub) (c : Nat) : Rat := let r := h.rateOf 6 c; (r.1 : Rat) / (r.2 : Rat)

/-- The declared rate of a context's stage point. -/
def Hub.pointQ (h : Hub) (c s : Nat) : Rat := if s = 0 then h.rateQ c else (h.outRate c (s - 1) : Rat)

/-! ### Contexts (R146, R147, R156, R159, R162) -/

/-- References from a context to a source of another kind, at most `fuel`. -/
def Hub.refsEnd (fuel : Nat) (h : Hub) (c : Nat) : Bool :=
  match fuel with
  | 0 => h.ctxKind c != 6 && h.ctxKind c != 0
  | fuel + 1 => if h.ctxKind c = 6 then Hub.refsEnd fuel h (h.cf 5 (32 + c) 1 0 8) else h.ctxKind c != 0

/-- A slot's cells that a shadow copy shares with its primary. -/
def Hub.shape (h : Hub) (t j : Nat) : List Nat :=
  [h.cf 5 t (0x400 + 16 * j) 0 4, h.cf 5 t (0x400 + 16 * j) 15 1, h.cf 5 t (0x400 + 16 * j) 17 7, h.cf 5 t (0x401 + 16 * j) 0 19,
    h.cf 5 t (0x402 + 16 * j) 12 13, h.cf 5 t (0x403 + 16 * j) 0 32] ++
    (List.range 12).map (fun k => h.cf 5 t (0x404 + k + 16 * j) 0 32)

/-- A tile slot carries stage `i` of context `c`, as primary or shadow copy. -/
def Hub.slotIs (h : Hub) (t j c i shadow : Nat) : Bool :=
  h.cf 5 t (0x400 + 16 * j) 0 4 != 0 && h.cf 5 t (0x400 + 16 * j) 4 8 == c && h.cf 5 t (0x400 + 16 * j) 12 3 == i &&
    h.cf 5 t (0x400 + 16 * j) 16 1 == shadow

def Hub.chainOk (h : Hub) (v : Variant) (c : Nat) : Bool :=
  let n := h.ctxStages c
  let u := 32 + c
  (List.range n).all (fun i =>
    let t := h.stTile c i
    let j := h.stSlot c i
    let ts := h.cf 5 u (0x10 + i) 11 5
    let js := h.cf 5 u (0x10 + i) 16 6
    !unitAbsent v 5 t && h.slotIs t j c i 0 &&
      (!h.ctxShadow c ||
        (h.partnerOf t == some ts && !unitAbsent v 5 ts && h.slotIs ts js c i 1 && h.shape ts js == h.shape t j &&
          !((List.range n).map (h.stTile c)).contains ts)))

/-- A queue's lanes that are not empty. -/
def Hub.lanes (h : Hub) (q : Nat) : List Nat :=
  (List.range 16).filterMap (fun i => let c := h.cf 9 q (4 + i / 4) (8 * (i % 4)) 8; if c = 255 then none else some c)

def Hub.ctxOk (h : Hub) (v : Variant) (fed : List Nat) (c : Nat) : Bool :=
  let u := 32 + c
  let k := h.ctxKind c
  let src := h.cf 5 u 1 0 8
  let pt := h.cf 5 u 1 8 4
  let tb := h.ctxTb c
  let q := h.ctxQueue c
  decide (c < v.ctxCount) &&
    (fed.contains c == (k == 1 || k == 2)) && (k != 1 || (h.slotOfCtx c).isSome) && (k != 2 || (h.fieldOfCtx c).isSome) &&
    (k != 3 || (decide (1 ≤ src) && decide (src ≤ 48) && tb == h.cf 12 0 0 4 5)) && (k != 4 || decide (src < 8)) &&
    (k != 5 || (decide (src < 32) && tb == 16)) &&
    (k != 6 || (decide (src < 192) && h.ctxKind src != 0 && decide (pt ≤ h.ctxStages src) && h.refsEnd 4 c)) &&
    (tb != 17 || k == 4) && decide (h.cf 5 u 3 8 4 ≤ h.ctxStages c) &&
    h.chainOk v c && h.qEnabled q && v.hasQueue q && (h.lanes q).contains c

/-- A used context's digest exponent: 4 to 20, or 0 while both digests are off (R166, R513). -/
def Hub.digestOk (h : Hub) (c : Nat) : Bool :=
  let k := h.cf 5 (32 + c) 0 26 5
  decide (4 ≤ k) || (k == 0 && !(h.digOn c false || h.digOn c true))

/-- A context that no source feeds by port or bus and that has no source of its own may not be named by a slot. -/
def Hub.fedOk (h : Hub) (fed : List Nat) : Bool := fed.all (fun c => h.ctxKind c == 1 || h.ctxKind c == 2)

/-- HEAD digests: the context alone writes SAMPLE words into its queue; no ring's captures go there, and nothing lands there, since the
items of another hub's queue may be SAMPLE words (R162, R350; DEDUCED, log entry 104). -/
def Hub.headOk (h : Hub) (act : List Nat) : Bool :=
  act.all (fun c => !h.digOn c true ||
    (act.all (fun d => d == c || h.ctxQueue d != h.ctxQueue c) &&
      (List.range 12).all (fun r => h.cf 9 (h.ctxQueue c) (0x10 + 4 * r) 0 1 == 0) &&
      (List.range 64).all (fun i => h.cf 11 3 (0x100 + i) 0 1 == 0 || h.cf 11 3 (0x100 + i) 25 6 != h.ctxQueue c)))

/-! ### Stages and tiles (R152, R156, R158, R176, R178, R180, R181, R199, R200, R202, R204, R214) -/

/-- An ORDER stage stands before stage `i` of a chain, or in the parent's chain before the branch. -/
def Hub.orderBefore (fuel : Nat) (h : Hub) (c i : Nat) : Bool :=
  (List.range i).any (fun k => h.stKind c k == 5) ||
    (match fuel with
     | 0 => false
     | fuel + 1 => h.ctxKind c == 6 && Hub.orderBefore fuel h (h.cf 5 (32 + c) 1 0 8) (h.cf 5 (32 + c) 1 8 4))

/-- The least whole number not below a rate. -/
def ceilQ (x : Rat) : Int := x.ceil

/-- A stage's parameters, for the rate of its input. -/
def Hub.kindOk (h : Hub) (t j : Nat) (rin : Rat) : Bool :=
  let s (k lo len : Nat) : Nat := h.cf 5 t (0x400 + 16 * j + k) lo len
  let kind := s 0 0 4
  let sh := s 0 17 7
  let coef := s 1 9 10
  let dly := s 2 12 13
  let out : Rat := (s 3 0 32 : Rat)
  let zeros (a : Nat) : Bool := (List.range (16 - a)).all (fun k => s (a + k) 0 32 == 0)
  let interp := sh == 22 && coef == 0
  (kind == 1 || s 0 15 1 == 0) &&
  (match kind with
   | 1 =>
     let df := s 4 0 10 + 1
     decide (1 ≤ coef) && dly == coef && decide (s 4 10 10 < df) && out * df == rin && s 4 20 12 == 0 && zeros 5
   | 2 =>
     let w := s 4 0 5
     w % 2 == 1 && decide (3 ≤ w) && dly == w && coef == 0 && sh == 0 && out == rin && s 4 5 3 == 0 && s 4 16 16 == 0 &&
       s 5 24 8 == 0 && zeros 6
   | 3 =>
     let m := s 4 0 16 + 1
     decide (16 ≤ m) && dly == 2 && coef == 0 && sh == 0 && out * m == rin && s 4 17 15 == 0 && zeros 5
   | 4 =>
     let tg : Nat := s 8 0 32 * 65536 + s 9 0 16
     interp && dly == 64 && s 4 1 31 == 0 && s 9 16 16 == 0 && zeros 11 &&
       (if s 4 0 1 = 0 then
         decide (65536 ≤ s 6 0 32) && decide (s 7 0 32 ≤ 255 * 16777216) && decide (s 6 0 32 ≤ s 5 0 32) &&
           decide (s 5 0 32 ≤ s 7 0 32) && decide (((ceilQ (rin * 16777216 / (s 6 0 32 : Rat)) : Int) : Rat) ≤ out)
       else
         decide (s 10 0 32 * 65536 < tg) && decide ((65536000000000 : Rat) ≤ (tg : Rat) * rin * 256) &&
           decide ((tg : Rat) * rin ≤ 255 * 65536000000000) && decide (((ceilQ ((65536000000000 : Rat) / (tg : Rat)) : Int) : Rat) ≤ out))
   | 5 =>
     let p := s 5 0 9
     let sr := s 5 9 13
     let fmin := s 6 0 32
     let fmax := s 7 0 32
     interp && dly == 64 && decide (s 4 3 2 ≤ 2) && decide (1 ≤ s 4 5 6) && decide (s 4 5 6 ≤ 32) && decide (1 ≤ s 4 11 4) &&
       s 4 15 17 == 0 && s 5 22 10 == 0 && zeros 8 && decide (1 ≤ p) && decide (p ≤ 256) && decide (16 ≤ sr) && decide (sr ≤ 4096) &&
       sr % p == 0 && decide (1 ≤ fmin) && decide (fmin < fmax) && decide ((sr * fmax : Rat) ≤ out * 1000) &&
       decide ((sr * fmax : Rat) ≤ rin * 1000 * 256) && decide (rin * 1000 ≤ (255 * sr * fmin : Rat))
   | 6 =>
     let im := s 4 0 11
     interp && dly == im + 32 && decide (im ≤ 1023) && decide (s 5 10 11 + (if s 5 0 10 = 0 then 0 else 1) ≤ im) && out == rin &&
       s 4 11 21 == 0 && s 5 21 11 == 0 && zeros 6
   | 7 =>
     let b := s 4 0 4
     sh == 0 && decide (1 ≤ b) && decide (b ≤ 8) && coef == 2 * b && dly == 2 * b && out == rin && decide (15 ≤ s 4 5 16) &&
       decide (s 5 0 6 + b ≤ 64) && s 4 21 11 == 0 && s 5 6 26 == 0 && zeros 6
   | _ => false)

/-- MAC slots per evaluation. -/
def Hub.macCost (h : Hub) (t j : Nat) : Nat :=
  let s (k lo len : Nat) : Nat := h.cf 5 t (0x400 + 16 * j + k) lo len
  match s 0 0 4 with
  | 1 => s 1 9 10 + 4 + s 0 15 1
  | 2 => 12
  | 3 => 4 * (s 4 0 16 + 1) + 4
  | 4 => 38
  | 5 => 42
  | 6 => 36
  | 7 => 2 * s 4 0 4 + 2
  | _ => 0

/-- Delay, coefficient and accumulator regions of a tile's slots. -/
def Hub.regionsOk (h : Hub) (t : Nat) : Bool :=
  let js := h.slotsOf t
  let dly := js.map (fun j => (h.cf 5 t (0x402 + 16 * j) 0 12, h.cf 5 t (0x402 + 16 * j) 12 13))
  let coef := js.map (fun j => (h.cf 5 t (0x401 + 16 * j) 0 9, h.cf 5 t (0x401 + 16 * j) 9 10))
  let acc := (js.filter (fun j => h.cf 5 t (0x400 + 16 * j) 0 4 == 7)).map (fun j =>
    (h.cf 5 t (0x405 + 16 * j) 0 6, h.cf 5 t (0x404 + 16 * j) 0 4))
  dly.all (fun r => decide (r.1 + r.2 ≤ 4096)) && coef.all (fun r => decide (r.1 + r.2 ≤ 512)) &&
    pairwiseOk apart dly && pairwiseOk (fun a b => apart a b || a == b) coef && pairwiseOk apart acc

def Hub.tileOk (h : Hub) (v : Variant) (t : Nat) : Bool :=
  let js := h.slotsOf t
  h.regionsOk t && (js.isEmpty || h.cf 2 25 1 t 1 == 0) &&
    (match h.partnerOf t with
     | some p => p != t && !unitAbsent v 5 p && h.partnerOf p == some t
     | none => true) &&
    js.all (fun j =>
      let c := h.cf 5 t (0x400 + 16 * j) 4 8
      let i := h.cf 5 t (0x400 + 16 * j) 12 3
      let sh := h.cf 5 t (0x400 + 16 * j) 16 1
      let lo := if sh = 1 then 11 else 0
      decide (c < 192) && h.ctxKind c != 0 && decide (i < h.ctxStages c) && (sh == 0 || h.ctxShadow c) &&
        h.cf 5 (32 + c) (0x10 + i) lo 5 == t && h.cf 5 (32 + c) (0x10 + i) (lo + 5) 6 == j && h.kindOk t j (h.pointQ c i) &&
        (h.cf 5 t (0x400 + 16 * j) 0 4 != 7 || h.cf 5 t (0x404 + 16 * j) 4 1 == 0 || h.orderBefore 5 c i))

/-- The compute budget of a tile (R158). -/
def Hub.tileBudget (h : Hub) (hz : Rat) (t : Nat) : Bool :=
  let rate (j : Nat) : Rat :=
    if h.cf 5 t (0x400 + 16 * j) 0 4 = 7 then h.pointQ (h.cf 5 t (0x400 + 16 * j) 4 8) (h.cf 5 t (0x400 + 16 * j) 12 3)
    else (h.cf 5 t (0x403 + 16 * j) 0 32 : Rat)
  decide (((h.slotsOf t).map (fun j => (h.macCost t j : Rat) * rate j)).sum ≤ 4 * hz) &&
    decide ((((h.slotsOf t).filter (fun j => h.cf 5 t (0x400 + 16 * j) 0 4 == 2)).map (fun j => 2 * rate j)).sum ≤ hz)

/-! ### Spectral jobs, feature sets, limits (R219, R221, R222, R236, R238, R247, R248) -/

/-- The valid jobs as engine and job. -/
def Hub.validJobs (h : Hub) : List (Nat × Nat) :=
  (h.cells.filter (fun e => e.1 / 1048576 == 6 && decide (e.1 / 4096 % 256 < 4) && e.1 % 16 == 0 && bitOf e.2 0)).map
    (fun e => (e.1 / 4096 % 256, e.1 % 4096 / 16))

/-- A feature tap's rate. -/
def Hub.tapQ (h : Hub) (c : Nat) : Rat := h.pointQ c (h.cf 5 (32 + c) 3 8 4)

def Hub.jobOk (h : Hub) (v : Variant) (e j : Nat) : Bool :=
  let n := h.jobN e j
  let k0 := h.jc e j 2 0 14
  let nb := h.jc e j 2 14 14
  let c := h.jobCtx e j
  !unitAbsent v 6 e && h.cf 2 25 0 e 1 == 0 && decide (c < v.ctxCount) && h.ctxKind c != 0 && decide (1 ≤ nb) &&
    decide (k0 + nb ≤ n / 2 + 1) && decide (h.jc e j 4 0 16 + n + h.jobHop e j ≤ 65536) &&
    (h.jobAvg e j != 2 || (decide (1 ≤ h.jc e j 1 0 16) && decide (h.jc e j 1 0 16 ≤ 16))) &&
    (h.jobAvg e j == 2 || h.jc e j 1 16 16 == 0) && (h.jobAvg e j != 0 || h.jc e j 1 0 16 == 0) &&
    (h.jc e j 3 6 1 == 0 || (h.qEnabled (h.jc e j 3 0 6) && v.hasQueue (h.jc e j 3 0 6)))

/-- FCLK cycles of a transform (R222). -/
def xformCycles (log : Nat) : Nat := 2 ^ log / 8 * (log - 1) + 2 ^ log + 64

/-- Blocks per second of a job. -/
def Hub.blockQ (h : Hub) (e j : Nat) : Rat :=
  if h.jobTrig e j then (h.jc e j 5 0 32 : Rat) else h.tapQ (h.jobCtx e j) / (h.jobHop e j : Rat)

/-- SPECTRUM outputs per second of a job. -/
def Hub.outQ (h : Hub) (e j : Nat) : Rat :=
  if h.jobAvg e j = 1 then h.blockQ e j / (h.jc e j 1 0 16 + 1 : Rat)
  else if h.jobAvg e j = 2 then h.blockQ e j / (h.jc e j 1 16 16 + 1 : Rat) else h.blockQ e j

def Hub.engineBudget (h : Hub) (hz : Rat) (e : Nat) (jobs : List (Nat × Nat)) : Bool :=
  let js := (jobs.filter (fun p => p.1 == e)).map (fun p => p.2)
  let all : Nat := (js.map (fun j => xformCycles (h.jobLog e j))).sum
  decide ((js.map (fun j => h.blockQ e j * (xformCycles (h.jobLog e j) : Rat))).sum * 10 ≤ 9 * hz) &&
    js.all (fun j => decide ((all : Rat) * h.tapQ (h.jobCtx e j) ≤ (h.jobHop e j : Rat) * hz))

/-- The enabled feature sets' contexts. -/
def Hub.feaSets (h : Hub) : List Nat :=
  ((h.usedUnits 6).filter (fun u => decide (4 ≤ u) && h.cf 6 u 0 0 1 == 1)).map (fun u => u - 4)

def Hub.feaOk (h : Hub) (v : Variant) (jobs : List (Nat × Nat)) (c : Nat) : Bool :=
  let u := 4 + c
  let q := h.cf 6 u 0 1 5
  let e := h.cf 6 u 1 1 2
  let j := h.cf 6 u 1 3 6
  decide (c < v.ctxCount) && h.ctxKind c != 0 && decide (4 ≤ q) &&
    (h.cf 6 u 0 13 3 == 0 || (h.qEnabled (h.feaQueue c) && v.hasQueue (h.feaQueue c))) &&
    (h.cf 6 u 1 0 1 == 0 || (jobs.contains (e, j) && h.jobCtx e j == c &&
      (List.range (h.cf 6 u 1 9 5 + 1)).all (fun b =>
        decide (h.cf 6 u (0x10 + b) 0 14 ≤ h.cf 6 u (0x10 + b) 14 14) && decide (h.cf 6 u (0x10 + b) 14 14 ≤ h.jobN e j / 2))))

/-- Exponents of sets that are not enabled, and runs of entries. -/
def Hub.runsOk (h : Hub) : Bool :=
  let us := (h.usedUnits 6).filter (fun u => decide (4 ≤ u))
  us.all (fun u => h.cf 6 u 0 1 5 == 0 || decide (4 ≤ h.cf 6 u 0 1 5)) &&
    us.all (fun u => decide (h.cf 6 u 2 0 13 + h.cf 6 u 2 13 14 ≤ 8192)) &&
    pairwiseOk apart (us.map (fun u => (h.cf 6 u 2 0 13, h.cf 6 u 2 13 14)))

/-- The valid limit entries with their words. -/
def Hub.validEntries (h : Hub) : List (Nat × List Word) :=
  (h.cells.filter (fun e => e.1 / 1048576 == 7 && e.1 % 4 == 0 && bitOf e.2 31)).map (fun e =>
    let n := e.1 / 4096 % 256 * 64 + e.1 % 4096 / 4
    (n, (List.range 4).map (fun i => h.cell 7 (n / 64) (4 * (n % 64) + i))))

/-- Evaluations per second of an entry. -/
def Hub.entryRate (h : Hub) (ws : List Word) : Rat :=
  let c := leCtx ws
  let s := leSel ws
  let u := 4 + c
  if s < 6 then h.tapQ c / ((h.feaN c : Nat) : Rat)
  else if s < 0x40 then h.outQ (h.cf 6 u 1 1 2) (h.cf 6 u 1 3 6)
  else match (List.range (h.ctxStages c)).find? (fun i => h.stKind c i == 7) with
    | some i => h.pointQ c i / (h.sc c i 4 5 16 + 1 : Rat)
    | none => 0

/-! ### Events, time, radio, cascade, health, clocks -/

def Hub.chanOk (h : Hub) (n : Nat) : Bool :=
  let codes (base : Nat) : List Nat := (List.range 64).filterMap (fun i => let c := h.cf 8 n (base + i) 0 16; if c = 0 then none else some c)
  h.fieldsOk 8 n && noDup (codes 0) && noDup (codes 0x40)

/-- The triggers that name a target. -/
def Hub.trigsOf (h : Hub) (t : Nat) : List Nat :=
  (List.range 32).filter (fun g => (List.range 4).any (fun i => h.cf 10 16 (0x25 + 6 * g) (8 * i) 8 == t))

def Hub.timeOk (h : Hub) : Bool :=
  let trgPorts := ((h.usedUnits 3).filter (fun p => h.cf 3 p 0 24 1 == 1)).map (fun p => h.cf 3 p 3 16 4)
  (List.range 32).all (fun g =>
    (h.cf 10 16 (0x20 + 6 * g) 0 1 == 0 && h.tgPeriod g == 0) ||
      (decide (20 * 65536 ≤ h.tgPeriod g) && decide (h.tgPeriod g ≤ 4294967295 * 65536) && decide (h.tgPhase g < h.tgPeriod g))) &&
  (List.range 16).all (fun k => h.cf 10 16 (0x10 + k) 17 1 == 0 || decide (1 ≤ h.cf 10 16 (0x10 + k) 0 16)) &&
  noDup trgPorts && trgPorts.all (fun k => (h.trigsOf (0x20 + k)).isEmpty) &&
  (h.trigsOf 0x32).all (fun g => decide (1000000 * 65536 ≤ h.tgPeriod g) && decide (h.tgPeriod g ≤ 1000000000 * 65536)) &&
  (h.usedUnits 10).all (fun u => decide (u < 32) || (List.range 32).all (fun a =>
    let per := h.cf 10 u (8 * a + 3) 0 32 * 65536 + h.cf 10 u (8 * a + 4) 16 16
    (h.cf 10 u (8 * a + 5) 30 1 == 0 && per == 0) || (decide (20 * 65536 ≤ per) && decide (per ≤ 4294967295 * 65536 + 65535))))

/-- A slot transmits. -/
def Hub.slotSends (h : Hub) (i : Nat) : Bool := h.slotKind i == 0 || h.slotKind i == 2
def Hub.slotFix (h : Hub) (i : Nat) : Nat := h.cf 12 0 (0x21 + 2 * i) 8 5

/-- µs of the transition from one slot to the next (R367). -/
def Hub.slotGap (h : Hub) (a b : Nat) : Nat :=
  if h.slotFix a ≠ h.slotFix b then 35 + (if h.slotSends b then 14 else 12)
  else if h.slotSends a ≠ h.slotSends b ∨ h.slotPhy a ≠ h.slotPhy b then 20 else 0

/-- µs on air of a frame of `p` payload octets. -/
def airTime (phy p : Nat) : Nat := if phy = 1 then (9 + p) * 4 else (4 + 1 + 1 + p + 2) * 32

/-- The superframe plan (R378 to R380). -/
def Hub.planOk (h : Hub) : Bool :=
  let n := h.slotCount
  let rest := h.cf 12 0 0 3 1
  let wake := if rest = 1 then 504 else 54
  match h.trigsOf 0x31 with
  | [g] =>
    let per := h.tgPeriod g
    let stop (i : Nat) : Nat := h.slotStop i
    let lastGap := per + microUnits (h.slotOff 0) - microUnits (stop (n - 1))
    h.tgTb g == h.radTb && decide (microUnits 1000 ≤ per) && decide (per ≤ microUnits 65535) && decide (microUnits (stop (n - 1)) ≤ per) &&
      h.slotKind 0 == 0 && decide (wake ≤ h.slotOff 0) &&
      (List.range n).all (fun i =>
        decide (10 ≤ h.slotLen i) && (i == 0 || h.slotKind i != 0) &&
          (h.slotFix i == 0 || (decide (11 ≤ h.slotFix i) && decide (h.slotFix i ≤ 26))) &&
          (h.slotKind i % 3 == 0 || (decide (1 ≤ h.slotNode i) && decide (h.slotNode i ≤ 48))) &&
          (!h.slotSends i || decide (airTime (h.slotPhy i) (if h.slotKind i = 0 then 68 else 67) ≤ h.slotLen i))) &&
      (List.range (n - 1)).all (fun i => decide (stop i + h.slotGap i (i + 1) ≤ h.slotOff (i + 1))) &&
      decide (microUnits ((if rest = 1 then 15 else 5) + wake) ≤ lastGap) &&
      (decide (microUnits 239 ≤ lastGap) || (List.range (n - 1)).any (fun i => decide (239 ≤ h.slotOff (i + 1) - stop i)))
  | _ => false

def Hub.radioOk (h : Hub) : Bool :=
  (h.usedUnits 12).all (h.fieldsOk 12) && (h.cf 12 0 0 0 2 == 0 || h.cf 2 25 0 4 1 == 0) && ((h.cf 12 0 0 0 2 != 2 && (h.trigsOf 0x31).isEmpty) || h.planOk)

def Hub.casOk (h : Hub) (v : Variant) : Bool :=
  (h.usedUnits 11).all (h.fieldsOk 11) &&
  (List.range 3).all (fun p => h.cf 11 p 0 0 1 == 0 || unitAbsent v 11 p || (h.cf 2 25 0 5 1 == 0 && h.cf 2 25 0 (6 + p) 1 == 0)) &&
  (List.range 32).all (fun b =>
    let k (i lo len : Nat) : Nat := h.cf 11 3 (0x10 + 4 * b + i) lo len
    let c := k 0 2 8
    k 0 0 1 == 0 || k 0 1 1 == 1 ||
      (decide (c < v.ctxCount) && h.ctxKind c != 0 && h.ctxTb c == 16 && decide (k 0 10 4 ≤ h.ctxStages c))) &&
  (List.range 64).all (fun i =>
    let w := h.cell 11 3 (0x100 + i)
    !bitOf w 0 || (h.qEnabled (fieldOf w 25 6) && v.hasQueue (fieldOf w 25 6)))

/-- A calibration planner item (R478). -/
def plannerItem (k : Nat) : Bool := (decide (0x10 ≤ k) && decide (k ≤ 0x14)) || k == 0x17 || (decide (0x20 ≤ k) && decide (k ≤ 0x24))

def Hub.healthOk (h : Hub) : Bool :=
  (!h.used 13 0 || (decide (h.cf 13 0 0 0 10 < h.cf 13 0 0 10 10) && decide (h.cf 13 0 0 10 10 < h.cf 13 0 0 20 10))) &&
  decide (h.cf 13 2 0 4 4 ≤ h.cf 13 2 0 0 4) &&
  (List.range 32).all (fun k =>
    h.cell 13 2 (0x10 + k) == 0#32 || (plannerItem (h.cf 13 2 (0x10 + k) 0 8) && decide (1 ≤ h.cf 13 2 (0x10 + k) 8 24)))

/-! ### Queues and the stockpot (R281, R292, R294, R296, R301) -/

/-- The valid rings as queue and ring. -/
def Hub.validRings (h : Hub) : List (Nat × Nat) :=
  (h.cells.filter (fun e => e.1 / 1048576 == 9 && decide (0x10 ≤ e.1 % 4096) && e.1 % 4 == 0 && bitOf e.2 0)).map
    (fun e => (e.1 / 4096 % 256, (e.1 % 4096 - 0x10) / 4))

def Hub.ringCtx (h : Hub) (q r : Nat) : Nat := h.cf 9 q (0x10 + 4 * r) 1 8

def Hub.ringOk (h : Hub) (q r : Nat) : Bool :=
  let c := h.ringCtx q r
  let n := h.cf 9 q (0x12 + 4 * r) 0 19
  let a := h.cf 9 q (0x13 + 4 * r) 16 16
  h.qEnabled q && decide (c < 192) && h.ctxKind c != 0 && decide (h.cf 9 q (0x10 + 4 * r) 9 4 ≤ h.ctxStages c) && decide (2 ≤ n) &&
    decide (n ≤ 299593) && decide (h.cf 9 q (0x13 + 4 * r) 0 16 ≤ 32760) && decide (1 ≤ a) && decide (a ≤ 32760) &&
    decide (a + 16 ≤ 8 * n)

def Hub.queuesOk (h : Hub) (v : Variant) (rings : List (Nat × Nat)) : Bool :=
  let qs := h.usedUnits 9
  h.qEnabled 62 && (h.cf 1 0 0x088 6 1 == 0 || (h.qEnabled (h.traceQ) && v.hasQueue h.traceQ)) &&
    qs.all (fun q => noDup (h.lanes q) && (h.lanes q).all (fun c => decide (c < 192)) && decide (h.cf 9 q 2 0 22 ≤ h.qCap q)) &&
    rings.all (fun p => h.ringOk p.1 p.2) && noDup (rings.map (fun p => h.ringCtx p.1 p.2)) &&
    (let regions := qs.map (fun q => (h.cf 9 q 1 0 21, 5 * h.cf 9 q 0 2 19)) ++
       rings.map (fun p => (h.cf 9 p.1 (0x11 + 4 * p.2) 0 21, 7 * h.cf 9 p.1 (0x12 + 4 * p.2) 0 19))
     regions.all (fun r => r.2 == 0 || decide (r.1 + r.2 ≤ 2097152)) && pairwiseOk apart regions)

/-- Stockpot accesses per second (R292). -/
def Hub.stockLoad (h : Hub) (act : List Nat) (jobs rings : List (Nat × Nat)) : Rat :=
  let ctxs := (act.map (fun c =>
    let out := h.pointQ c (h.ctxStages c)
    if h.cf 5 (32 + c) 3 5 1 = 1 then out + 7 * out / ((2 ^ h.cf 5 (32 + c) 3 0 5 : Nat) : Rat) else out)).sum
  let specs := ((jobs.filter (fun p => h.jc p.1 p.2 3 6 1 == 1)).map (fun p =>
    h.outQ p.1 p.2 * (8 + (if h.jobComplex p.1 p.2 then 2 else 1) * h.jc p.1 p.2 2 14 14 : Rat))).sum
  let feas := (h.feaSets.map (fun c =>
    let u := 4 + c
    (if h.cf 6 u 0 13 1 = 1 then 12 * (h.tapQ c / ((h.feaN c : Nat) : Rat)) else 0) +
    (if h.cf 6 u 0 14 1 = 1 ∧ h.cf 6 u 1 0 1 = 1 then
      h.outQ (h.cf 6 u 1 1 2) (h.cf 6 u 1 3 6) * (7 + h.cf 6 u 1 9 5 : Rat) else 0) +
    (if h.cf 6 u 0 15 1 = 1 then
      match (List.range (h.ctxStages c)).find? (fun i => h.stKind c i == 7) with
      | some i => h.pointQ c i / (h.sc c i 4 5 16 + 1 : Rat) * (6 + 2 * h.sc c i 4 0 4 : Rat)
      | none => 0 else 0))).sum
  let ring := (rings.map (fun p => h.pointQ (h.ringCtx p.1 p.2) (h.cf 9 p.1 (0x10 + 4 * p.2) 9 4))).sum
  (ctxs + specs + feas) * 5 / 4 + ring * 7 / 8

/-! ### The end-of-stream check -/

/-- What the structure as a whole breaks: 0 nothing, 8 RANGE, 10 BUDGET. -/
def Hub.structCheck (h0 : Hub) (v : Variant) (plan : Nat) : Nat :=
  let h := h0.on fLdrStatusConfigured
  let fed := h.fedBy
  let act := h.activeCtxs
  let jobs := h.validJobs
  let rings := h.validRings
  let entries := h.validEntries
  let hz := fclkHz plan
  let range :=
    h.sourcesOk v && act.all (h.ctxOk v fed) && h.fedOk fed && h.headOk act && h.usedTiles.all (h.tileOk v) &&
    jobs.all (fun p => h.jobOk v p.1 p.2) &&
    (List.range 4).all (fun e => pairwiseOk apart ((jobs.filter (fun p => p.1 == e)).map (fun p =>
      (h.jc e p.2 4 0 16, h.jobN e p.2 + h.jobHop e p.2)))) &&
    h.feaSets.all (h.feaOk v jobs) && h.runsOk && entries.all (fun e => !h.limRefused e.1 e.2) &&
    (h.usedUnits 8).all h.chanOk && h.timeOk && (h.usedUnits 5).all (fun u => decide (u < 32) || h.digestOk (u - 32)) && h.radioOk && h.casOk v && h.healthOk && h.queuesOk v rings
  if !range then 8
  else if
    h.usedTiles.all (h.tileBudget hz) && (List.range 4).all (fun e => h.engineBudget hz e jobs) &&
    decide (2 * ((h.feaSets.map h.tapQ).sum + (jobs.map (fun p => h.tapQ (h.jobCtx p.1 p.2))).sum) ≤ hz) &&
    decide ((entries.map (fun e => h.entryRate e.2)).sum ≤ 200000000) && decide (h.stockLoad act jobs rings ≤ 400000000) then 0
  else 10

end Sys2Proof.Machine
end

