-- ==== Sys2Proof/Machine/LoadItems.lean ====
section
/-! DEFINITION. The items of a section part's word stream (spec/02 R27 to R29, R38, R42). -/

namespace Sys2Proof.Machine
open Sys2Proof

/-- Rejection codes (R41). -/
def rejCrc : Nat := 1
def rejSync : Nat := 2
def rejVersion : Nat := 3
def rejVariant : Nat := 4
def rejSection : Nat := 5
def rejOrder : Nat := 6
def rejItem : Nat := 7
def rejRange : Nat := 8
def rejAbsent : Nat := 9
def rejSize : Nat := 11
def rejLive : Nat := 12
def rejTimeout : Nat := 13
def rejAbort : Nat := 14

/-- What a word of the stream does: a rejection code or 0, an absent unit it addresses, and the loader after it. -/
structure ItemRes where
  code : Nat
  absent : Option Nat
  ldr : Ldr
  deriving DecidableEq, Repr

def ItemRes.good (l : Ldr) : ItemRes := { code := 0, absent := none, ldr := l }
def ItemRes.bad (l : Ldr) (c : Nat) : ItemRes := { code := c, absent := none, ldr := l }

/-- Cells the staging store holds (R49). -/
def stagingCells : Nat := 49152

/-- Put a write into the staging store; a partial load may not overfill it (R38). Each write takes a place in it, a later one to
the same cell too (DESIGN CHOICE, log entry 88). -/
def Ldr.put (l : Ldr) (key : Nat) (w : Word) : ItemRes :=
  let l1 := { l with staged := l.staged ++ [{ key := key, word := w }] }
  if l.partialLoad && decide (stagingCells < l1.staged.length) then .bad l rejSize else .good l1

/-- The source number a context's cell 0x001 has been given in the stream, 0 before it. -/
def Ldr.stagedSource (l : Ldr) (unit : Nat) : Nat :=
  match (l.staged.filter (fun x => x.key == cellKey 5 unit 1)).getLast? with
  | some x => fieldOf x.word 0 8
  | none => 0

/-- Write one cell: its value is checked on every device and written on those selected (R27, R28). METRO's cells are the
partition's to check (R432). -/
def Ldr.writeCell (v : Variant) (l : Ldr) (unit cell : Nat) (w : Word) : ItemRes :=
  if l.sect ≠ 15 ∧ cellTakes l.sect unit cell w = false then .bad l rejRange
  else if l.sect ≠ 15 ∧ (refAbsent v l.sect unit cell w).isSome = true then
    { code := 0, absent := if l.sect = 5 then some (l.stagedSource unit) else refAbsent v l.sect unit cell w, ldr := l }
  else if l.sel then l.put (cellKey l.sect unit cell) w
  else .good l

/-- A FILL word goes to `n` cells. -/
def Ldr.fill (v : Variant) (unit : Nat) (w : Word) : Nat → Nat → Ldr → ItemRes
  | 0, _, l => .good l
  | n + 1, cell, l =>
    let r := l.writeCell v unit cell w
    if r.code ≠ 0 ∨ r.absent.isSome then r else Ldr.fill v unit w n (cell + 1) r.ldr

/-- The header of a WRITE, FILL or REL item: its unit is listed and present, its cells lie in the unit's space. -/
def Ldr.openItem (v : Variant) (l : Ldr) (kind : Nat) (w : Word) : ItemRes :=
  let unit := fieldOf w 20 8
  let off := fieldOf w 8 12
  let n := if fieldOf w 0 8 = 0 then 256 else fieldOf w 0 8
  let fits := decide (off + n ≤ cellSpace l.sect)
  let it : LdrItem := { kind := kind, unit := unit, offset := off, left := n, desc := 0#32 }
  if l.sect = 15 ∧ v.hasMet = false then { code := 0, absent := some unit, ldr := l }
  else if !unitListed l.sect unit then .bad l rejRange
  else if unitAbsent v l.sect unit then { code := 0, absent := some unit, ldr := l }
  else if !fits then .bad l rejRange
  else .good { l with item := it }

/-- An item header (R27, R28). -/
def Ldr.header (v : Variant) (dev : Nat) (l : Ldr) (w : Word) : ItemRes :=
  let k := fieldOf w 28 4
  let rest := fieldOf w 0 28
  if k = 0 then (if rest = 0 then .good l else .bad l rejRange)
  else if 1 ≤ k ∧ k ≤ 3 then l.openItem v k w
  else if k = 4 then
    if bitOf w 27 || fieldOf w 0 9 != 0 then .bad l rejRange
    else .good { l with sel := decide (fieldOf w 18 9 ≤ dev) && decide (dev ≤ fieldOf w 9 9) }
  else if k = 15 then
    if rest ≠ 0 then .bad l rejRange
    else if l.sect = 15 ∧ v.hasMet = false then { code := 0, absent := some 0, ldr := l }
    else .good { l with ended := true }
  else .bad l rejItem

/-- A data word goes to the item's next cell. -/
def Ldr.dataWord (v : Variant) (l : Ldr) (w : Word) : ItemRes :=
  let it := l.item
  let l1 := { l with item := if it.left ≤ 1 then default else { it with offset := it.offset + 1, left := it.left - 1 } }
  l1.writeCell v it.unit it.offset w

/-- A REL descriptor: field, multiplier (R29). -/
def relLo (d : Word) : Nat := fieldOf d 27 5
def relWidth (d : Word) : Nat := fieldOf d 22 5 + 1
def relMul (d : Word) : Nat := fieldOf d 0 16

/-- The next payload word of a part. -/
def Ldr.word (v : Variant) (dev : Nat) (l : Ldr) (w : Word) : ItemRes :=
  if l.ended then (if w = 0#32 then .good l else .bad l rejItem)
  else if l.item.kind = 0 then l.header v dev w
  else if l.item.kind = 1 then l.dataWord v w
  else if l.item.kind = 2 then { l with item := default }.fill v l.item.unit w l.item.left l.item.offset
  else if l.item.kind = 3 then
    if fieldOf w 16 6 ≠ 0 ∨ 32 < relLo w + relWidth w then .bad l rejRange
    else .good { l with item := { l.item with kind := 4, desc := w } }
  else
    let d := l.item.desc
    let f := fieldOf w (relLo d) (relWidth d) + dev * relMul d
    if 2 ^ relWidth d ≤ f then .bad l rejRange else l.dataWord v (putField w (relLo d) (relWidth d) f)

/-- The payload words of a frame, up to the first that fails or addresses an absent unit. -/
def Ldr.words (v : Variant) (dev : Nat) : Ldr → List Word → ItemRes
  | l, [] => .good l
  | l, w :: ws =>
    let r := l.word v dev w
    if r.code ≠ 0 ∨ r.absent.isSome then r else Ldr.words v dev r.ldr ws

end Sys2Proof.Machine
end

