-- ==== Sys2Proof/Machine/Loader.lean ====
section
/-! DEFINITION. The loader takes frames from the flash, the host and the cascade master, checks them and stages their items
(spec/02 R20 to R42). -/

namespace Sys2Proof.Machine
open Sys2Proof

/-! ### Header fields (R22) -/
def hdSect (w : Word) : Nat := fieldOf w 24 8
def hdOpt (w : Word) : Bool := bitOf w 23
def hdFirst (w : Word) : Bool := bitOf w 22
def hdLast (w : Word) : Bool := bitOf w 21
def hdIndex (w : Word) : Nat := fieldOf w 0 16

/-- Owners of a stream as `ldr.status.src` shows them. -/
def srcFlash : Nat := 1
def srcHost : Nat := 2
def srcCascade : Nat := 3

/-- Words of the loader FIFO (R34). -/
def fifoWords : Nat := 528

/-- `ldr.level`: a full load stages nothing in the store (R37). -/
def Hub.showLevel (h : Hub) : Hub :=
  (h.wr fLdrLevelFree (fifoWords - h.ldr.fifo.length)).wr fLdrLevelStaged (if h.ldr.partialLoad then h.ldr.staged.length else 0)

/-- Tell the master (R354): a rejection code, or 0xFF for a refused frame. -/
def Hub.notifyUp (h : Hub) (code sect idx : Nat) : Hub :=
  if h.linkUp 0 then h.sendCtrl 0 0x09 0 [w32 (code * 2 ^ 24 + sect % 256 * 2 ^ 16 + idx % 65536), w32 (h.devnum * 2 ^ 23)] else h

/-- A frame of a source that does not own the loader is refused and counted (R36). -/
def Hub.ldrRefuse (h : Hub) (src : Nat) (w0 : Word) : Hub :=
  let h1 := h.countSat fLdrCountRefused 1
  if src = srcCascade then h1.notifyUp 0xFF (hdSect w0) (hdIndex w0) else h1

/-- Reject the stream with the code of its first failure (R41, R52, R58): the stores are emptied by STAGING_DISCARDED. -/
def Hub.ldrFail (h : Hub) (code sect idx : Nat) : Hub :=
  let src := h.rd fLdrStatusSrc
  let h1 := (h.setLdrState ldrReject).on fLdrStatusRejected
  let h2 := if src = srcFlash then h1.wr (if h.ldr.flash = 2 then fLdrBootCodeB else fLdrBootCodeA) code
    else ((h1.wr fLdrRejectCode code).wr fLdrRejectSection sect).wr fLdrRejectFrame idx
  let h3 := h2.modLdr (fun l => { (default : Ldr) with
    fifo := l.fifo, flash := l.flash, booted := l.booted, waiting := l.waiting, partialLoad := l.partialLoad, staged := l.staged })
  if src = srcCascade then h3.notifyUp code sect idx else h3

/-- Staging store and FIFO are empty; image B follows image A, and after both the hub stays unconfigured (R32, R40). -/
def Hub.ldrDiscard (h : Hub) : Hub :=
  let fl := h.ldr.flash
  let h1 := ((h.modLdr (fun l => { (default : Ldr) with booted := l.booted, waiting := l.waiting, flash := if fl = 1 then 2 else 0 })).setLdrState
    ldrIdle).showLevel
  let h2 := if fl = 2 then h1.wr fLdrBootImage 3 else h1
  if fl ≠ 1 ∧ h2.rd fGlbStatusRun = 2 then h2.wr fGlbStatusRun 1 else h2

/-- STAGING_DISCARDED. -/
def execStagingDiscarded (s : State) : Out := liftHub s (fun _ h => if h.ldrState = ldrReject then h.ldrDiscard else h)

/-- A stream in STAGE or SKIP is rejected outside a frame. -/
def Hub.ldrBreak (h : Hub) (code : Nat) : Hub :=
  if h.ldrState = ldrStage ∨ h.ldrState = ldrSkip then h.ldrFail code h.ldr.lastSect (h.rd fLdrStatusFrames) else h

/-- LDR_TIMEOUT: 10 ms without a frame of a host or cascade stream. -/
def execLdrTimeout (s : State) : Out :=
  liftHub s (fun _ h => if h.rd fLdrStatusSrc = srcFlash then h else h.ldrBreak rejTimeout)

/-- `ldr.ctl.abort`, effective in STAGE, SKIP and READY. -/
def Hub.ldrAbort (h : Hub) : Hub :=
  if h.ldrState = ldrReady then h.ldrFail rejAbort h.ldr.lastSect (h.rd fLdrStatusFrames) else h.ldrBreak rejAbort

/-- LDR_ABORT. -/
def execLdrAbort (s : State) : Out :=
  liftHub s (fun fx h => h.atReg fx s.met .ldr 0x020000 (fun h => h.ldrAbort))

/-! ### The FIFO (R34, R35) -/

/-- The FIFO takes `n` more words: a destructive self-test of the FIFOs takes its room (log entry 122). -/
def Hub.ldrRoom (h : Hub) (n : Nat) : Bool := !h.stHeld heldFifo && decide (h.ldr.fifo.length + n ≤ fifoWords)

/-- Words written to `ldr.data` enter the FIFO together, or none does and `fifo_over` is set. -/
def Hub.ldrWrite (h : Hub) (ws : List Word) : Hub :=
  if h.ldrRoom ws.length then
    (h.modLdr (fun l => { l with fifo := l.fifo ++ ws.map (fun w => { src := srcHost, word := w }) })).showLevel
  else (h.refusedBy heldFifo).on fLdrStatusFifoOver

/-- LDR_DATA_WRITE: a frame refused whole counts as a refused frame (R34, R85). -/
def execLdrDataWrite (words : List Word) (s : State) : Out :=
  liftHub s (fun fx h => h.atReg fx s.met .ldr 0x020400 (fun h =>
    if h.ldrRoom words.length then h.ldrWrite words else (h.refusedBy heldFifo).hspBad [fLdrStatusFifoOver]))

/-- The list without the first `n` words of a source. -/
def dropWords (s : Nat) : Nat → List LdrWord → List LdrWord
  | _, [] => []
  | 0, l => l
  | n + 1, x :: t => if x.src = s then dropWords s n t else x :: dropWords s (n + 1) t

/-- The words of a source waiting in the FIFO. -/
def Ldr.wordsOf (l : Ldr) (s : Nat) : List Word := (l.fifo.filter (fun x => x.src == s)).map (fun x => x.word)

/-- The frame the loader takes next: from the image being read, whose words past its end read erased, or 66 words of one source
from the FIFO, the oldest word's source first. None in COMMIT and REJECT. -/
def Hub.nextFrame (h : Hub) (flash : List Word) : Option (Nat × List Word × Hub) :=
  if h.ldrState = ldrCommit ∨ h.ldrState = ldrReject ∨ h.clk.gates = false then none
  else if flash ≠ [] ∧ h.ldr.flash ≠ 0 then some (srcFlash, (flash ++ List.replicate 66 0xFFFFFFFF#32).take 66, h)
  else
    match h.ldr.fifo with
    | [] => none
    | x :: _ =>
      let s := if 66 ≤ (h.ldr.wordsOf x.src).length then x.src else srcHost + srcCascade - x.src
      if 66 ≤ (h.ldr.wordsOf s).length then
        some (s, (h.ldr.wordsOf s).take 66, (h.modLdr (fun l => { l with fifo := dropWords s 66 l.fifo })).showLevel)
      else none

/-! ### Frames (R24, R25, R40, R42) -/

/-- A source may start a stream: the boot waits for the source of its straps (R31). -/
def Hub.mayStart (fx : Fixed) (h : Hub) (src : Nat) : Bool :=
  src != srcCascade || !h.ldr.waiting ||
    (fx.bootsrc == 3 && !h.is fLdrCtlHoldBoot && h.is fGlbStatusEnumOk && !h.isMaster fx && !h.standalone fx)

/-- Skip the part in progress, with what it had staged (R42). -/
def Hub.skipPart (h : Hub) (unit : Nat) (last : Bool) : Hub :=
  let l := h.ldr
  let h1 := (h.on fLdrStatusSkipped).countSat fLdrCountSkipped 1
  let h2 := (h1.modLdr (fun x => { x with staged := x.staged.take x.partBase, item := default, inPart := !last })).setLdrState
    (if last then ldrStage else ldrSkip)
  h2.log 0x22 0xC0 0x90 0 unit (w32 l.sect) (w32 l.firstFrame)

/-- A frame has been taken: the last of the count leads to CHECK, state 4, with every part and section complete (R24). -/
def Hub.ldrAdvance (h : Hub) (sect idx : Nat) : Hub :=
  let h1 := h.showLevel
  if idx + 1 < h.ldr.total then h1
  else if h.ldr.inPart || h.ldr.seen != h.ldr.mask then h1.ldrFail rejOrder sect idx
  else h1.setLdrState 4

/-- The payload of a frame in its part. `whole` are all its payload words, for METRO's digest (R43). -/
def Hub.ldrPart (fx : Fixed) (h : Hub) (hd : Word) (idx : Nat) (payload whole : List Word) : Hub :=
  let l := h.ldr
  let sect := hdSect hd
  let fits := if l.inPart then !hdFirst hd && sect == l.sect && hdOpt hd == l.opt
    else hdFirst hd && decide (l.lastSect ≤ sect) && l.mask.testBit sect
  if !fits then h.ldrFail rejOrder sect idx
  else
    let l1 := if l.inPart then l else { l with
      inPart := true, sect := sect, opt := hdOpt hd, firstFrame := idx, ended := false, sel := true, item := default
      partBase := l.staged.length, lastSect := sect, seen := l.seen ||| 2 ^ sect, hasMetro := l.hasMetro || sect == 15 }
    let l2 := if sect = 15 then { l1 with metro := l1.metro ++ whole } else l1
    let r := l2.words fx.variant h.devnum payload
    let h1 := { h with ldr := r.ldr }
    match r.absent with
    | some u =>
      if l2.opt || sect == 15 then (h1.skipPart u (hdLast hd)).ldrAdvance sect idx else h.ldrFail rejAbsent sect idx
    | none =>
      if r.code ≠ 0 then h.ldrFail r.code sect idx
      else if !hdLast hd then h1.ldrAdvance sect idx
      else if r.ldr.ended then (h1.modLdr (fun x => { x with inPart := false })).ldrAdvance sect idx
      else h.ldrFail rejItem sect idx

/-- The checks of frame 0 in order (R24, R25, R37, R41): 0 when the header passes. -/
def Hub.headCode (fx : Fixed) (h : Hub) (ws : List Word) : Nat :=
  let hd := recWord ws 0
  let p (k : Nat) : Word := recWord ws (k + 1)
  let part := bitOf (p 2) 31
  let count := fieldOf (p 2) 0 16
  let bit := match fx.variant with | .dx192 => 0 | .dx192n => 1 | .dx192u => 2 | .dx128 => 3
  let plan := bitOf (p 4) 31
  if hdSect hd ≠ 1 ∨ p 0 ≠ 0x4B464231#32 then rejSync
  else if crc32Words (ws.take 65) ≠ recWord ws 65 then rejCrc
  else if hdIndex hd ≠ 0 ∨ hdFirst hd = false then rejOrder
  else if fieldOf (p 1) 16 16 ≠ 1 then rejVersion
  else if bitOf (p 3) bit = false then rejVariant
  else if 2048 < count then rejSize
  else if count = 0 then rejOrder
  else if part = false ∧ h.is fLdrStatusConfigured = true then rejLive
  else if fieldOf hd 16 5 ≠ 0 ∨ fieldOf (p 2) 16 15 ≠ 0 ∨ fieldOf (p 3) 4 28 ≠ 0 ∨ fieldOf (p 4) 2 29 ≠ 0 ∨ fieldOf (p 5) 16 16 ≠ 0 ∨
      bitOf (p 5) 0 = true ∨ (List.range 8).any (fun k => p (8 + k) != 0#32) = true ∨ (plan = true ∧ fieldOf (p 4) 0 2 = 3) ∨
      (plan = false ∧ part = false) then rejRange
  else if bitOf (p 5) 1 = false then rejOrder
  else 0

/-- HEAD: a new stream begins. -/
def Hub.ldrHead (fx : Fixed) (h0 : Hub) (src : Nat) (ws : List Word) : Hub :=
  let hd := recWord ws 0
  let p (k : Nat) : Word := recWord ws (k + 1)
  let h := (((h0.setReg rLdrReject 0#32).wr fLdrStatusSrc src).wr fLdrStatusFrames 1).modLdr (fun l => { (default : Ldr) with
    fifo := l.fifo, flash := l.flash, booted := l.booted, waiting := l.waiting })
  let code := h.headCode fx ws
  if code ≠ 0 then h.ldrFail code (hdSect hd) (hdIndex hd)
  else
    let part := bitOf (p 2) 31
    let h1 := (h.modLdr (fun l => { l with
      partialLoad := part, total := fieldOf (p 2) 0 16, mask := fieldOf (p 5) 0 16
      plan := if bitOf (p 4) 31 then some (fieldOf (p 4) 0 2) else none
      builds := [p 6, p 7] })).setLdrState ldrStage
    let h2 := if !part && h1.rd fGlbStatusRun == 1 then h1.wr fGlbStatusRun 2 else h1
    h2.ldrPart fx hd 0 ((ws.drop 17).take 48) ((ws.drop 1).take 64)

/-- A frame of a skipped part: its CRC and its place in the stream (R24, R42), not its items. -/
def Hub.ldrSkipFrame (h : Hub) (hd : Word) (idx : Nat) : Hub :=
  let sect := hdSect hd
  if hdIndex hd ≠ idx ∨ hdFirst hd = true ∨ sect ≠ h.ldr.sect ∨ hdOpt hd ≠ h.ldr.opt then h.ldrFail rejOrder sect idx
  else (if hdLast hd then (h.modLdr (fun l => { l with inPart := false })).setLdrState ldrStage else h).ldrAdvance sect idx

/-- A frame of the owner in STAGE or SKIP: its CRC, then its place, then its items. -/
def Hub.ldrStageFrame (fx : Fixed) (h0 : Hub) (ws : List Word) : Hub :=
  let hd := recWord ws 0
  let sect := hdSect hd
  let idx := h0.rd fLdrStatusFrames
  let h := h0.countSat fLdrStatusFrames 1
  if crc32Words (ws.take 65) ≠ recWord ws 65 then h.ldrFail rejCrc sect idx
  else if h.ldrState = ldrSkip then h.ldrSkipFrame hd idx
  else if hdIndex hd ≠ idx then h.ldrFail rejOrder sect idx
  else if !sectionKnown sect then h.ldrFail rejSection sect idx
  else if fieldOf hd 16 5 ≠ 0 then h.ldrFail rejRange sect idx
  else h.ldrPart fx hd idx ((ws.drop 1).take 64) ((ws.drop 1).take 64)

/-- A frame by the state of the loader (R36, R40). A flash image starts its stream with its first frame. -/
def Hub.ldrTake (fx : Fixed) (h : Hub) (src : Nat) (ws : List Word) : Hub :=
  let w0 := recWord ws 0
  let st := h.ldrState
  if st = ldrIdle then
    if src = srcFlash then h.ldrHead fx src ws
    else if h.ldr.flash ≠ 0 then h.ldrRefuse src w0
    else if hdIndex w0 ≠ 0 then h.countSat fLdrCountRefused 1
    else if h.mayStart fx src then h.ldrHead fx src ws
    else h.ldrRefuse src w0
  else if src ≠ h.rd fLdrStatusSrc then h.ldrRefuse src w0
  else if st = ldrReady then
    if hdIndex w0 ≠ 0 then h.countSat fLdrCountRefused 1
    else
      -- the rejection empties the FIFO with the staging store (R40); the new frame 0 has been taken from it
      let h1 := h.ldrFail rejAbort h.ldr.lastSect (h.rd fLdrStatusFrames)
      (h1.modLdr (fun l => { l with staged := [], fifo := [] })).showLevel.ldrHead fx src ws
  else h.ldrStageFrame fx ws

/-! ### CHECK (R39, R58) -/

/-- The structure as it would be: a full load over the load defaults, a partial one over the cells in force (R513). -/
def Hub.candidate (h : Hub) : Hub :=
  (h.ldr.staged.filter (fun x => x.key / 1048576 != 15)).foldl (fun a x => a.setCell x.key x.word)
    (if h.ldr.partialLoad then h else { h with cells := [] })

/-- The code of the end-of-stream checks. -/
def Hub.checkCode (fx : Fixed) (h : Hub) : Nat :=
  h.candidate.structCheck fx.variant (h.ldr.plan.getD (h.rd fClkStatusFclkPlan))

/-- `ldr.build` takes the identifier of an accepted stream. -/
def Hub.showBuild (h : Hub) : Hub :=
  (h.setReg (rLdrBuild 0) (recWord h.ldr.builds 0)).setReg (rLdrBuild 1) (recWord h.ldr.builds 1)

/-! ### Boot (R31, R32) -/

/-- BOOT_LOAD_START: the source of the straps, or the host under `hold_boot`. -/
def Hub.bootStart (fx : Fixed) (h : Hub) : Hub :=
  if !h.clk.gates || h.is fLdrStatusConfigured || h.ldrState != ldrIdle || h.ldr.flash != 0 || h.rd fLdrBootImage != 0 then h
  else if h.is fLdrCtlHoldBoot || decide (2 ≤ fx.bootsrc.val) then h.modLdr (fun l => { l with waiting := true })
  else (h.modLdr (fun l => { l with flash := 1, waiting := false })).wr fLdrStatusSrc srcFlash

/-- BOOT_LOAD_START. -/
def execBootLoadStart (s : State) : Out := liftHub s (fun fx h => h.bootStart fx)

/-! ### The cascade's windows (R35, R354) -/

/-- A BITSTREAM frame at the UP port enters the FIFO; on another port, under `host_only`, or without room it is refused. -/
def Hub.bitstreamIn (h : Hub) (p : Nat) (ws : List Word) : Hub :=
  if p = 0 ∧ ws.length = 66 ∧ h.is fLdrCtlHostOnly = false ∧ h.ldrRoom 66 = true then
    (h.modLdr (fun l => { l with fifo := l.fifo ++ ws.map (fun w => { src := srcCascade, word := w }) })).showLevel
  else h.ldrRefuse srcCascade (recWord ws 0)

/-- BITSTREAM. -/
def execBitstream (p : Fin 3) (f : CasFrame) (s : State) : Out :=
  liftHub s (fun fx h => h.takeCtrl fx p 0x08 f (fun a => a.bitstreamIn p (framePay f)))

/-- Words into `cas.bs.data`: on the master, all or none; FRAME_TRANSMIT sends each 66 of them as one BITSTREAM frame. -/
def Hub.bsWrite (fx : Fixed) (h : Hub) (ws : List Word) : Hub :=
  if !h.isMaster fx then h.wr fCasRqCtlResult 5
  else if h.cas.bs.length + ws.length ≤ fifoWords then (h.modCas (fun c => { c with bs := c.bs ++ ws })).showBs
  else h.on fCasBsCtlFifoOver

/-- CAS_BS_DATA_WRITE: a frame the master refuses whole counts as a refused frame (R85, R354). -/
def execCasBsDataWrite (words : List Word) (s : State) : Out :=
  liftHub s (fun fx h => h.atReg fx s.met .cas 0x1D0400 (fun h =>
    if h.isMaster fx && decide (fifoWords < h.cas.bs.length + words.length) then h.hspBad [fCasBsCtlFifoOver]
    else h.bsWrite fx words))

end Sys2Proof.Machine
end

