-- ==== Sys2Proof/Machine/HostWrite.lean ====
section
/-! DEFINITION. What a write to each register does (the register tables of every chapter, with the rules they cite). A register
without a rule of its own takes its fields by their types; the others have an arm here. -/

namespace Sys2Proof.Machine
open Sys2Proof

/-! ### Fields by type -/

/-- Hold a value for a staged field until the next global commit; a later one takes its place (R78). -/
def Hub.stage (h : Hub) (a lo len v : Nat) : Hub :=
  { h with host := { h.host with
      shadows := h.host.shadows.filter (fun x => !(x.addr == a && x.lo == lo)) ++ [{ addr := a, lo := lo, len := len, val := v }] } }

/-- The word a write leaves in a register: RW fields take their bits, W1C bits written 1 clear. -/
def fieldsWritten (fs : List RField) (old w : Word) : Word :=
  fs.foldl (fun x f =>
    if f.kind = .rw then putField x f.lo f.len (fieldOf w f.lo f.len)
    else if f.kind = .w1c then putField x f.lo f.len (x &&& ~~~w |>.extractLsb' f.lo f.len).toNat
    else x) old

/-- Write a register by its fields' types; RO, RC and WO fields and the bits of no field ignore it. -/
def Hub.writeFields (h : Hub) (a : Nat) (w : Word) : Hub :=
  match rowOf a with
  | some r =>
    (r.fields.filter (fun f => f.kind == .staged)).foldl (fun x f => x.stage a f.lo f.len (fieldOf w f.lo f.len))
      (h.setReg a (fieldsWritten r.fields (h.reg a) w))
  | none => h

/-! ### Global registers (R44, R79, R81) -/

/-- The scope and unit name something the variant has (R79). -/
def resetNames (v : Variant) (scope unit : Nat) : Bool :=
  if scope = 1 then v.hasQueue unit
  else if scope = 2 then decide (unit < v.ctxCount)
  else if scope = 3 then decide (unit < v.spCount) || (decide (24 ≤ unit) && decide (unit < 32))
  else if scope = 4 then decide (unit < v.tileCount)
  else if scope = 5 then decide (unit < v.linkCount)
  else if scope = 6 then v.hasRad
  else scope == 7 || scope == 8

/-- A reset requested through `glb.reset`: refused for what the variant lacks and, but for DEVICE, while HALTED, where DEVICE starts
with every count cleared (R447). One for a unit that
a running recovery covers starts nothing; `busy` shows that recovery until it ends (R445). -/
def Hub.requestReset (fx : Fixed) (h : Hub) (scope unit : Nat) : Hub :=
  let u := if scope < 6 then unit else 0
  if !resetNames fx.variant scope unit || (h.rd fGlbStatusRun == 6 && scope != 8) then h.on fGlbResetRefused
  else if h.rd fGlbStatusRun == 6 then
    { h with flt := { h.flt with recs := [] } }.startRec fx { (default : Rec) with scope := 8, unit := 0, start := h.cyc, host := true }
  else if h.recovering scope u then
    { h with flt := { h.flt with recs := h.flt.recs.map (fun (r : Rec) => if h.recCovers r scope u then { r with host := true } else r) } }.showRecs
  else (if scope = 5 then h.leavesUp fx u else h).startRec fx { (default : Rec) with scope := scope, unit := u, start := h.cyc, host := true }

/-- A command register with `go` and `arm`: the channel is stored, then the arm, then `go` acts. -/
def Hub.commitWrite (h : Hub) (arm chan : Fld) (w : Word) (go : Hub → Hub) : Hub :=
  let h1 := h.wr chan (fieldOf w 0 7)
  let h2 := if bitOf w 30 then h1.on arm else h1
  if bitOf w 31 then go h2 else h2

def writeGlb (fx : Fixed) (h : Hub) (a : Nat) (w : Word) : Hub :=
  if a = 0x8 then h.commitWrite fGlbCommitArm fGlbCommitChan w (fun x => x.globalCommit fx)
  else if a = 0xC then
    let h1 := h.writeFields a w
    if bitOf w 31 then h1.requestReset fx (fieldOf w 16 4) (fieldOf w 0 9) else h1
  else h.writeFields a w

def writeClk (fx : Fixed) (h : Hub) (m : Met) (a : Nat) (w : Word) : Hub :=
  if a = 0x010120 then
    let h1 := h.writeFields a w
    if bitOf w 31 then
      let why := h1.sleepReason m
      if why = 0 then h1.sleep fx else (h1.on fClkSleepRefused).wr fClkSleepReason why
    else h1
  else h.writeFields a w

def writeLdr (h : Hub) (a : Nat) (w : Word) : Hub :=
  if a = 0x020000 then
    let h1 := h.writeFields a w
    if bitOf w 0 then h1.ldrAbort else h1
  else if a = 0x020010 then h.commitWrite fLdrCommitArm fLdrCommitChan w Hub.takeCommit
  else if 0x020400 ≤ a then h.ldrWrite [w]
  else h.writeFields a w

/-! ### Ports and two-wire controllers (R93, R108, R109, R113 to R118, R135, R139, R142) -/

/-- `sp.pNN.ctl`: a disabled port drops its held start; another training mode begins its sweep anew. -/
def Hub.writeSpCtl (h : Hub) (p a : Nat) (w : Word) : Hub :=
  let old := h.rd (fSpPCtlTrain p)
  let h1 := h.writeFields a w
  let h2 := if bitOf w 0 then h1 else h1.modPort p (fun y => { y with heldStart := none })
  if fieldOf w 2 2 = old then h2
  else h2.modPort p (fun y => { y with sweep := 0, pass := [], swept := false, target := [] })

def writeSp (h : Hub) (a : Nat) (w : Word) : Hub :=
  if 0x050000 ≤ a then h
  else
    let p := portOfAddr a
    let off := (a - 0x040000) % 0x800
    if off = 0 then h.writeSpCtl p a w
    else if off = 0x20 then
      if h.rd (fSpPCtlTrain p) = 1 ∨ h.rd (fSpPCtlTrain p) = 2 then h
      else
        let h1 := h.modPort p (fun y => { y with newTap := some w })
        if (h.port p).phase = 0 then h1.moveTaps p else h1
    else if off = 0x28 then
      if bitOf w 31 then h.modPort p (fun y => { y with restart := true }) else h
    else h.writeFields a w

def writeTw (h : Hub) (a : Nat) (w : Word) : Hub :=
  if 0x062000 ≤ a then h
  else
    let c := (a - 0x060000) / 0x400
    let off := (a - 0x060000) % 0x400
    if off = 0 then
      let h1 := h.writeFields a w
      if bitOf w 3 then h1.twAbort c else h1
    else if off = 0x18 then h.twXferWrite c w
    else if within off 0x1C 0x30 && h.is (fTwCXferBusy c) then h.on (fTwCStatusXferRefused c)
    else h.writeFields a w

/-! ### Tiles and contexts (R150, R162, R187, R192, R199, R202) -/

/-- A write of a slot's staged parameter: RESAMPLE FIXED takes a ratio within its cells' bounds, DELAY an I and F within I_max;
another value is refused, and a slot of another kind has no such parameter. -/
def Hub.writeSet (h : Hub) (t j a : Nat) (w : Word) : Hub :=
  let kind := h.cf 5 t (0x400 + 16 * j) 0 4
  if kind = 4 ∧ h.cf 5 t (0x404 + 16 * j) 0 1 = 0 then
    if h.cf 5 t (0x406 + 16 * j) 0 32 ≤ w.toNat ∧ w.toNat ≤ h.cf 5 t (0x407 + 16 * j) 0 32 then h.stage a 0 32 w.toNat
    else h.on (fFabTSlStRefused t j)
  else if kind = 6 then
    if fieldOf w 10 11 + (if fieldOf w 0 10 = 0 then 0 else 1) ≤ h.cf 5 t (0x404 + 16 * j) 0 11 then
      h.stage a 0 32 (fieldOf w 0 21)
    else h.on (fFabTSlStRefused t j)
  else h

def writeFab (h : Hub) (a : Nat) (w : Word) : Hub :=
  if a < 0x0A0000 then
    let t := tileOfAddr a
    let off := (a - 0x080000) % 0x1000
    if off = 8 then
      let h1 := h.writeFields a w
      if bitOf w 31 then h1.swapRequest t else h1
    else if within off 0x200 0x600 && off % 0x10 == 0 then h.writeSet t ((off - 0x200) / 0x10) a w
    else if 0x800 ≤ off then h.coefWrite t ((off - 0x800) / 4) w
    else h.writeFields a w
  else if a < 0x0B0000 then
    let c := (a - 0x0A0000) / 0x40
    if (a - 0x0A0000) % 0x40 = 8 then
      let h1 := if bitOf w 1 then h.digRestart c else h
      h1.ctxEnable c (bitOf w 0)
    else h.writeFields a w
  else h

/-! ### Spectra, limits, events (R226, R234, R245, R263, R265, R266) -/

def writeSpc (h : Hub) (a : Nat) (w : Word) : Hub :=
  if a < 0x108000 then
    if (a - 0x100000) % 0x1000 = 8 then
      let h1 := h.writeFields a w
      if bitOf w 31 then h1.jobStart ((a - 0x100000) / 0x1000) (fieldOf w 0 6) else h1
    else h.writeFields a w
  else if within a 0x110000 0x118000 && (a - 0x110000) % 0x40 == 8 then
    if bitOf w 0 then h.snapshot ((a - 0x110000) / 0x40) else h
  else h.writeFields a w

def writeLim (fx : Fixed) (h : Hub) (a : Nat) (w : Word) : Hub :=
  if a < 0x160000 then
    let e := (a - 0x140000) / 16
    let i := (a - 0x140000) / 4 % 4
    if i = 3 then h.limApply fx e w else h.limHold e i w
  else h.writeFields a w

def writeEv (h : Hub) (a : Nat) (w : Word) : Hub :=
  if a = 0x180000 then h.evFire w
  else if within a 0x180020 0x180030 then h.stormClear ((a - 0x180020) / 4) w
  else if 0x182000 ≤ a then (h.writeFields a w).counterAdd ((a - 0x182000) / 8) 0
  else h.writeFields a w

/-! ### Queues and rings (R280, R287, R288, R295) -/

def writeQ (fx : Fixed) (h : Hub) (a : Nat) (w : Word) : Hub :=
  if a < 0x1B0000 then
    let q := queueOfAddr a
    let off := (a - 0x1A0000) % 0x400
    if off = 0 then
      if bitOf w 0 && h.qEnabled q then (Hub.flush fx h q 0#38).settle fx else h
    else if off = 0x14 then (h.writeFields a w).rearmThr q
    else h.writeFields a w
  else if a < 0x1B8000 && (a - 0x1B0000) % 0x20 == 0 then
    let c := (a - 0x1B0000) / 0x20
    let h1 := if bitOf w 0 then h.ringArm c else h
    if bitOf w 1 then h1.ringFire c else h1
  else h.writeFields a w

/-! ### Time (R308, R313, R319) -/

/-- A timebase's registers: tb_met takes no write, tb_net none but on a master or a standalone hub. -/
def writeTb (fx : Fixed) (h : Hub) (n a : Nat) (w : Word) : Hub :=
  let off := (a - 0x1C0000) % 0x40
  if n = 17 ∨ (n = 16 ∧ (h.isMaster fx || h.standalone fx) = false) then
    if off = 0x10 ∨ off = 0x14 ∨ off = 0x28 ∨ off = 0x2C then h.on fTmStatusRateRef
    else if within off 0x18 0x28 || off == 0x30 then h.on fTmStatusStepRef
    else h
  else h.writeFields a w

def writeTm (fx : Fixed) (h : Hub) (a : Nat) (w : Word) : Hub :=
  if a < 0x1C0800 then writeTb fx h ((a - 0x1C0000) / 0x40) a w
  else if within a 0x1C0800 0x1C0A00 && (a - 0x1C0800) % 0x10 == 0 then h.tgEnable ((a - 0x1C0800) / 0x10) (bitOf w 0)
  else if within a 0x1C1000 0x1C3000 then
    let x := (a - 0x1C1000) / 0x20
    let i := (a - 0x1C1000) % 0x20 / 4
    if i < 5 then h.ktHold x i w
    else if i = 5 then h.ktCtl fx x w
    else h.writeFields a w
  else h.writeFields a w

/-! ### Radio, health, partition, debug window (R368, R386, R390, R433, R480, R481) -/

def writeRad (fx : Fixed) (h : Hub) (a : Nat) (w : Word) : Hub :=
  if a = 0x1E0000 then
    let h1 := h.writeFields a w
    if h1.rad.mode = 2 then h1 else h1.radMode
  else if a = 0x1E000C then
    let op := fieldOf w 28 3
    if !bitOf w 31 then h.writeFields a w
    else if op ≤ 4 then h.radCmd fx op w
    else if op = 5 then h.radAbort fx w
    else (h.writeFields a w).on fRadStatusCmdRefused
  else if within a 0x1E1080 0x1E2880 && (a - 0x1E1080) % 0x80 == 0x0C then
    let h1 := h.writeFields a w
    if bitOf w 31 && h1.radUp fx then h1.dctlReady ((a - 0x1E1080) / 0x80 + 1) else h1
  else h.writeFields a w

def writeHlt (fx : Fixed) (h : Hub) (a : Nat) (w : Word) : Hub :=
  if a = 0x1F0010 then
    let h1 := if bitOf w 30 then h.stAbort w else h
    if bitOf w 31 then h1.stGo fx w else h1.writeFields a w
  else h.writeFields a w

/-- The mailbox (R413 to R415, R433): `go` runs the operation; arguments wait while one runs. -/
def writeMet (fx : Fixed) (h : Hub) (m : Met) (a : Nat) (w : Word) : Hub × Met :=
  if a = 0x800000 then
    if m.is fMetMbCmdBusy then (h, m)
    else
      let m1 := m.wr fMetMbCmdOp (fieldOf w 0 8)
      if bitOf w 31 then mbGo fx h m1 (fieldOf w 0 8) else (h, m1)
  else if within a 0x800004 0x800028 && m.is fMetMbCmdBusy then (h, m)
  else
    match rowOf a with
    | some r => (h, m.setReg a (fieldsWritten r.fields (m.reg a) w))
    | none => (h, m)

def writeDbg (h : Hub) (a : Nat) (w : Word) : Hub :=
  if a / 4 % 2 = 0 then h.dbgLow (a - 0xC00000) w else h.dbgHigh (a - 0xC00000) w

/-! ### Cascade (R343, R354, R355) -/

/-- What a remote request does here: its words, or the write, and whether the block answered. -/
structure Served where
  hub : Hub
  met : Met
  data : List Word
  result : Nat

/-- A hub takes a request to its own number through the same registers. -/
abbrev SelfServe := Fixed → Hub → Met → Nat → Bool → List Word → Nat → Served

/-- The words a request carries. -/
def rqWords (h : Hub) (bcast : Bool) : List Word :=
  let n := h.rd fCasRqCtlCount
  let wr := h.is fCasRqCtlWrite
  [w32 (b2n wr * 2 ^ 31 + b2n bcast * 2 ^ 30 + n * 2 ^ 26 + h.rd fCasRqAddrAddr), w32 (h.cas.tag % 65536 * 65536)] ++
    (if wr then (List.range (n + 1)).map (fun i => h.reg (rCasRqData i)) else [])

/-- Read data of a request is stored. -/
def Hub.rqStore (h : Hub) (ws : List Word) : Hub :=
  ((List.range 16).zip ws).foldl (fun (x : Hub) e => x.setReg (rCasRqData e.1) e.2) h

/-- `cas.rq.ctl.go`: one request at a time; refused off the master, and for a read of every hub. -/
def casRqGo (self : SelfServe) (fx : Fixed) (h0 : Hub) (m : Met) : Hub × Met :=
  if h0.is fCasRqCtlBusy then (h0, m)
  else if !h0.isMaster fx then (h0.rqEnd 5, m)
  else
    let h := h0.modCas (fun c => { c with tag := (c.tag + 1) % 65536 })
    let dev := h.rd fCasRqCtlDev
    let wr := h.is fCasRqCtlWrite
    if h.is fCasRqCtlBcast then
      if wr then ((h.bcastCtrl 0x0A (rqWords h true)).rqEnd 0, m) else (h.rqEnd 5, m)
    else
      match h.route fx dev with
      | none => (h.rqEnd 2, m)
      | some 3 =>
        let r := self fx (h.on fCasRqCtlBusy) m (h.rd fCasRqAddrAddr) wr ((rqWords h false).drop 2) (h.rd fCasRqCtlCount + 1)
        ((if wr then r.hub else r.hub.rqStore r.data).rqEnd r.result, r.met)
      | some p =>
        -- a route that leads to a port that is not UP is no route (R345)
        if !h.linkUp p then (h.rqEnd 2, m) else
        (((h.on fCasRqCtlBusy).modCas (fun c => { c with rqDev := some dev })).sendCtrl p 0x0A dev (rqWords h false), m)

def writeCas (self : SelfServe) (fx : Fixed) (h : Hub) (m : Met) (a : Nat) (w : Word) : Hub × Met :=
  if a = 0x1D0300 then
    let h1 := h.writeFields a w
    if bitOf w 31 then
      let r := h1.masterEnum fx
      (r.2, if r.1 then passPosition fx r.2 m else m)
    else (h1, m)
  else if a = 0x1D0320 then
    let h1 := h.writeFields a w
    if bitOf w 31 then casRqGo self fx h1 m else (h1, m)
  else if a = 0x1D0380 ∧ h.isMaster fx = false then (h.wr fCasRqCtlResult 5, m)
  else if within a 0x1D0400 0x1D0800 then (h.bsWrite fx [w], m)
  else (h.writeFields a w, m)

/-! ### One register, one burst -/

/-- Write one register that answers. -/
def writeRegWith (self : SelfServe) (fx : Fixed) (h : Hub) (m : Met) (b : Blk) (a : Nat) (w : Word) : Hub × Met :=
  match b with
  | .glb => (writeGlb fx h a w, m)
  | .clk => (writeClk fx h m a w, m)
  | .ldr => (writeLdr h a w, m)
  | .sp => (writeSp h a w, m)
  | .tw => (writeTw h a w, m)
  | .fab => (writeFab h a w, m)
  | .spc => (writeSpc h a w, m)
  | .lim => (writeLim fx h a w, m)
  | .ev => (writeEv h a w, m)
  | .q => (writeQ fx h a w, m)
  | .tm => (writeTm fx h a w, m)
  | .cas => writeCas self fx h m a w
  | .rad => (writeRad fx h a w, m)
  | .hlt => (writeHlt fx h a w, m)
  | .none => (h, m)
  | .met => writeMet fx h m a w
  | .dbg => (writeDbg h a w, m)

/-- The words of a write burst one after another; a word that finds no register is ignored (R74). -/
def writeBurstWith (self : SelfServe) (fx : Fixed) (b : Blk) (fin : Nat) : Nat → List Word → Hub → Met → Hub × Met
  | _, [], h, m => (h, m)
  | a, w :: ws, h, m =>
    let r := match accessAt fx.variant h m b fin a with
      | .ok => writeRegWith self fx h m b a w
      | x => (h.noteAccess x a, m)
    writeBurstWith self fx b fin (a + 4) ws r.1 r.2

/-- Addresses of a burst that lie in a window. -/
def burstIn (lo hi a n : Nat) : Nat := ((List.range n).filter (fun i => within (a + 4 * i) lo hi)).length

/-- A write frame carries more words for a bitstream FIFO than it has free: the whole frame is refused (R34, R354). -/
def Hub.frameOver (fx : Fixed) (h : Hub) (m : Met) (b : Blk) (a n : Nat) : Option Fld :=
  if !blkReady fx.variant h m b then none
  else if b = .ldr && burstIn 0x020400 0x020800 a n != 0 && !h.ldrRoom (burstIn 0x020400 0x020800 a n) then some fLdrStatusFifoOver
  else if b = .cas && h.isMaster fx && decide (fifoWords - h.cas.bs.length < burstIn 0x1D0400 0x1D0800 a n) then
    some fCasBsCtlFifoOver
  else none

/-- A self-test that takes the loader FIFO's room counts the frame it refuses. -/
def Hub.frameFull (h : Hub) (f : Fld) : Hub := if f = fLdrStatusFifoOver then h.refusedBy heldFifo else h

/-- Words written together at `a`, of a burst that began in block `b`. -/
def writeInWith (self : SelfServe) (fx : Fixed) (h : Hub) (m : Met) (b : Blk × Nat) (a : Nat) (ws : List Word) : Hub × Met :=
  match h.frameOver fx m b.1 a ws.length with
  | some f => ((h.frameFull f).on f, m)
  | none => writeBurstWith self fx b.1 b.2 a ws h m

/-- A whole write frame. -/
def writeFrameWith (self : SelfServe) (fx : Fixed) (h : Hub) (m : Met) (a : Nat) (ws : List Word) : Hub × Met :=
  writeInWith self fx h m (blkOf a) a ws

/-- Serve a remote request (R355): a misaligned address is refused; `dbg` where it is denied is refused; a block that does not
answer gives NOT_READY. -/
def serveWith (self : SelfServe) : SelfServe := fun fx h m a wr ws n =>
  let b := blkOf a
  let zeros := List.replicate n 0#32
  if a % 4 ≠ 0 then { hub := h.on fHstStatusAlign, met := m, data := zeros, result := 5 }
  else
    let res := match accessAt fx.variant h m b.1 b.2 a with
      | .denied => 5
      | .notready => 3
      | _ => 0
    if wr then
      let r := writeFrameWith self fx h m a ws
      { hub := r.1, met := r.2, data := [], result := res }
    else
      let r := readBurst fx m b.1 b.2 n a h
      { hub := r.2, met := m, data := r.1, result := res }

/-- A request a hub makes of itself while it serves one finds `busy` set. -/
def serveNone : SelfServe := fun _ h m _ _ _ _ => { hub := h, met := m, data := [], result := 5 }

/-- Serve a request. -/
def serve : SelfServe := serveWith (serveWith serveNone)

/-- Words the host writes together in a burst that began in block `b`. -/
def writeFrameIn (fx : Fixed) (h : Hub) (m : Met) (b : Blk × Nat) (a : Nat) (ws : List Word) : Hub × Met :=
  writeInWith (serveWith serveNone) fx h m b a ws

/-- A whole write frame of the host. -/
def writeFrame (fx : Fixed) (h : Hub) (m : Met) (a : Nat) (ws : List Word) : Hub × Met := writeFrameIn fx h m (blkOf a) a ws

end Sys2Proof.Machine
end

