-- ==== Sys2Proof/Machine/Host.lean ====
section
/-! DEFINITION. The host's two ports (spec/03 R61 to R71, R79) and the commands that are one access of a register. -/

namespace Sys2Proof
open Sys2Proof.Machine

/-! ### The HSP frame (R61 to R63, R66) -/

def HspFrame.op (f : HspFrame) : Nat := f.cmd.toNat / 32
def HspFrame.quad (f : HspFrame) : Bool := f.cmd.getLsbD 4
def HspFrame.crcOn (f : HspFrame) : Bool := f.cmd.getLsbD 3
def HspFrame.dummies (f : HspFrame) : Nat := if f.cmd.getLsbD 2 then 16 else 8
def HspFrame.n (f : HspFrame) : Nat := f.count.toNat + 1
def HspFrame.isRead (f : HspFrame) : Bool := f.op == 2

/-- Edges of a word, of a CRC, and up to the end of the address. -/
def HspFrame.wordEdges (f : HspFrame) : Nat := if f.quad then 8 else 32
def HspFrame.crcEdges (f : HspFrame) : Nat := if f.crcOn then (if f.quad then 4 else 16) else 0
def HspFrame.addrEnd (f : HspFrame) : Nat := if f.quad then 16 else 40
/-- Edges up to the end of a READ's header. -/
def HspFrame.hdrEnd (f : HspFrame) : Nat := f.addrEnd + f.crcEdges
/-- Edges before the first data word. -/
def HspFrame.dataStart (f : HspFrame) : Nat := if f.isRead then f.hdrEnd + f.dummies else f.addrEnd
/-- The edges of a well-formed frame (R62). -/
def HspFrame.total (f : HspFrame) : Nat := f.dataStart + f.n * f.wordEdges + f.crcEdges

/-- The edges end on a boundary between two phases. -/
def HspFrame.onBoundary (f : HspFrame) : Bool :=
  [8, if f.quad then 10 else 16, f.addrEnd, if f.isRead then f.hdrEnd else f.addrEnd].contains f.edges ||
    (decide (f.dataStart ≤ f.edges) && decide (f.edges ≤ f.dataStart + f.n * f.wordEdges) &&
      (f.edges - f.dataStart) % f.wordEdges == 0)

/-- The flag of a frame that does not have its edges. -/
def HspFrame.form (f : HspFrame) : Option Fld :=
  if f.edges = f.total then none
  else if f.total < f.edges then some fHstStatusOverclock
  else if f.onBoundary then some fHstStatusShort
  else some fHstStatusAborted

/-- The bytes of a word in transmitted order. -/
def msbBytes (w : Word) : List Byte := (wordBytes w).reverse

/-- The header bytes. -/
def HspFrame.header (f : HspFrame) : List Byte :=
  [f.cmd, f.count, f.addr.extractLsb' 16 8, f.addr.extractLsb' 8 8, f.addr.extractLsb' 0 8]

/-- The data words received; a word the command does not give reads 0. -/
def HspFrame.data (f : HspFrame) : List Word := (List.range f.n).map (fun i => f.words.getD i 0#32)

/-- The CRC was received and is wrong. -/
def HspFrame.crcBad (f : HspFrame) : Bool :=
  f.crcOn && (if f.isRead then decide (f.hdrEnd ≤ f.edges) && f.crc != crc16 f.header
    else decide (f.total ≤ f.edges) && f.crc != crc16 (f.header ++ f.data.flatMap msbBytes))

/-- The address was received and is misaligned. -/
def HspFrame.misaligned (f : HspFrame) : Bool := decide (f.addrEnd ≤ f.edges) && f.addr.toNat % 4 != 0

/-- The first word is not ready at its first falling edge: D − 0.5 < 4 + (6 + A) × 1.25 ns × f (R66). A frame that ends with its
last dummy edge has had no such edge (DESIGN CHOICE, log entry 85). -/
def HspFrame.early (f : HspFrame) : Bool :=
  f.isRead && decide (f.dataStart < f.edges) &&
    decide ((2 * f.dummies - 9) * 2000000000 < 5 * (6 + (if 0xC00000 ≤ f.addr.toNat then 64 else 16)) * f.hz)

/-- The frame reached the end of the data CRC the hub sends (R62, R63). -/
def HspFrame.crcOut (f : HspFrame) : Bool := f.crcOn && decide (f.total ≤ f.edges)

/-- Whole data words shifted out. -/
def HspFrame.shifted (f : HspFrame) : Nat := min f.n ((f.edges - f.dataStart) / f.wordEdges)

/-- The errors of a frame whose op is WRITE or READ. -/
def HspFrame.errors (f : HspFrame) : List Fld :=
  (if f.misaligned then [fHstStatusAlign] else []) ++ (if f.crcBad then [fHstStatusCrcErr] else []) ++ f.form.toList

end Sys2Proof

namespace Sys2Proof.Machine
open Sys2Proof

/-- The words a read shifts out are the host's answer. -/
def Hub.answer (h : Hub) (ws : List Word) : Hub := { h with host := { h.host with out := ws, crc := none } }

/-- The data CRC that follows them (R63). -/
def Hub.sendCrc (h : Hub) (c : Option (BitVec 16)) : Hub := { h with host := { h.host with crc := c } }

/-- Words nobody fixes. -/
def Hub.freeWords (h : Hub) : Nat → List Word × Hub
  | 0 => ([], h)
  | n + 1 => let r := h.freeWord; let t := r.2.freeWords n; (r.1 :: t.1, t.2)

/-- The data of a READ frame: contending lines are open; a refused header, a wrong address or an early word gives zeros; else the
registers' words, whose side effects stay only where `keep`. The data CRC covers the data bytes; a frame of zeros is zeros to its
end, its CRC included (DEDUCED, log entry 85). -/
def hspData (fx : Fixed) (h : Hub) (m : Met) (f : HspFrame) (zeros keep : Bool) : Hub :=
  let b := blkOf f.addr.toNat
  let r := if zeros then (List.replicate f.n 0#32, h) else readBurst fx m b.1 b.2 f.n f.addr.toNat h
  let h1 := if keep then r.2 else { h with free := r.2.free }
  if f.quad && f.contend then
    let t := h1.freeWords f.shifted
    let c := t.2.takeFree
    (c.2.answer t.1).sendCrc (if f.crcOut then some (BitVec.ofNat 16 c.1) else none)
  else
    (h1.answer (r.1.take f.shifted)).sendCrc
      (if f.crcOut then some (if zeros then 0#16 else crc16 (r.1.flatMap msbBytes)) else none)

/-- A well-formed WRITE frame; one a bitstream FIFO refuses whole counts as refused (R34, R85). -/
def hspStore (fx : Fixed) (h : Hub) (m : Met) (a : Nat) (ws : List Word) : Hub × Met :=
  match h.frameOver fx m (blkOf a).1 a ws.length with
  | some f => ((h.frameFull f).hspBad [f], m)
  | none => writeFrame fx h m a ws

/-- A frame from the fall of HSP_nCS to its rise. -/
def hspFrame (fx : Fixed) (h : Hub) (m : Met) (f : HspFrame) : Hub × Met :=
  if h.railHeld 2 then (h, m)
  else if h.asleep then (h.askWake 1, m)
  else if f.edges = 0 then (h, m)
  else if f.edges < 8 then (h.hspBad [fHstStatusAborted], m)
  else if f.op ≠ 1 ∧ f.op ≠ 2 then ((h.hspBad [fHstStatusCmdErr]).answer [], m)
  else if !f.crcOn && h.is fHstCfgCrcReq then ((h.hspBad (fHstStatusNoCrc :: f.form.toList)).answer [], m)
  else
    let errs := f.errors
    if f.isRead then
      let refused := f.misaligned || f.crcBad
      let h1 := if errs.isEmpty then h else h.hspBad errs
      let early := !refused && f.early
      let h2 := if early then h1.on fHstStatusRdEarly else h1
      (hspData fx h2 m f (refused || early) errs.isEmpty, m)
    else if errs.isEmpty then hspStore fx h m f.addr.toNat f.data
    else (h.hspBad errs, m)

/-- HSP_WRITE. -/
def execHspWrite (f : HspFrame) (s : State) : Out := liftBoth s (fun fx h m => hspFrame fx h m f)

/-- HSP_READ. -/
def execHspRead (f : HspFrame) (s : State) : Out := liftBoth s (fun fx h m => hspFrame fx h m f)

/-- HSP_CMD_REFUSED: the command byte of a frame whose op is refused. -/
def execHspCmdRefused (cmd : BitVec 8) (s : State) : Out :=
  liftHub s (fun _ h =>
    if h.railHeld 2 then h
    else if h.asleep then h.askWake 1
    else if cmd.toNat / 32 = 1 ∨ cmd.toNat / 32 = 2 then h
    else (h.hspBad [fHstStatusCmdErr]).answer [])

/-! ### The two-wire target (R68 to R71) -/

def Hub.htwCount (h : Hub) : Hub := h.countSat fHstCountHtwBad 1
def Hub.htwIdle (h : Hub) (b : Bool) : Hub := { h with host := { h.host with htwIdle := b } }

/-- The target's 7-bit address, from its straps (R68). -/
def htwAddress (fx : Fixed) : Nat := 0x58 + fx.htwA.val

/-- An addressing while the hub sleeps is not acknowledged, and wakes it. -/
def Hub.htwAsleep (h : Hub) : Hub := h.htwCount.askWake 2

/-- What the target does with one register of a transaction. -/
def htwTake (h : Hub) (m : Met) (a : Nat) (act : Hub → Hub × Met) : Hub × Met :=
  if h.railHeld 2 then (h, m)
  else if h.asleep then (h.htwAsleep, m)
  else if a % 4 ≠ 0 then ((h.htwIdle false).on fHstStatusAlign, m)
  else act (h.htwIdle false)

/-- HTW_WRITE_REGISTER: the fourth data byte of register `i` of a transaction that began at `addr` is acknowledged. The address
counts on by 4 under R74, within the block the transaction began in (R69). -/
def execHtwWriteRegister (r : HtwReg) (w : Word) (s : State) : Out :=
  liftBoth s (fun fx h m =>
    htwTake h m r.base.toNat (fun x => writeFrameIn fx x m (blkOf r.base.toNat) (r.base.toNat + 4 * r.index) [w]))

/-- One register read with its side effect, in a burst that began in block `b`. -/
def hostReadIn (fx : Fixed) (h : Hub) (m : Met) (b : Blk × Nat) (a : Nat) : Hub :=
  let r := readAt fx h m b.1 b.2 a
  r.2.answer [r.1]

/-- One register read by itself. -/
def hostRead (fx : Fixed) (h : Hub) (m : Met) (a : Nat) : Hub := hostReadIn fx h m (blkOf a) a

/-- HTW_READ_REGISTER: the ninth clock of the fourth byte of register `i` completes; a misaligned address reads zeros. -/
def execHtwReadRegister (g : HtwReg) (s : State) : Out :=
  liftBoth s (fun fx h m =>
    let r := htwTake h m g.base.toNat (fun x => (hostReadIn fx x m (blkOf g.base.toNat) (g.base.toNat + 4 * g.index), m))
    if g.base.toNat % 4 ≠ 0 ∧ h.asleep = false ∧ h.railHeld 2 = false then (r.1.answer [0#32], r.2) else r)

/-- The target abandons a transaction and waits for the next START. -/
def Hub.htwAbandon (h : Hub) (f : Fld) : Hub :=
  if h.railHeld 2 || h.asleep then h else ((h.on f).htwCount).htwIdle true

/-- HTW_PROTOCOL_ERROR. -/
def execHtwProtocolError (s : State) : Out := liftHub s (fun _ h => h.htwAbandon fHstStatusHtwProto)

/-- HTW_SCL_TIMEOUT. -/
def execHtwSclTimeout (s : State) : Out := liftHub s (fun _ h => h.htwAbandon fHstStatusHtwTimeout)

/-- HTW_TRANSACTION_END: whole address bytes short of three, or whole data bytes of an unfinished register, are reported. -/
def execHtwTransactionEnd (addrBytes dataBytes : Fin 4) (s : State) : Out :=
  liftHub s (fun _ h =>
    if h.railHeld 2 || h.asleep then h
    else if (addrBytes.val = 1 ∨ addrBytes.val = 2) ∨ (addrBytes.val = 3 ∧ dataBytes.val ≠ 0) then
      ((h.htwIdle false).on fHstStatusHtwPartial).htwCount
    else h.htwIdle false)

/-- HOST_ACCESS_WAKE: a select or an address while the hub sleeps is ignored and wakes it. -/
def execHostAccessWake (htw : Bool) (s : State) : Out :=
  liftHub s (fun _ h => if h.asleep then (if htw then h.htwAsleep else h.askWake 1) else h)

/-! ### Accesses of one register -/

/-- A register written, whichever port the word came by. -/
def hostWrite (fx : Fixed) (h : Hub) (m : Met) (a : Nat) (w : Word) : Hub × Met :=
  if h.asleep then (h, m)
  else if a % 4 ≠ 0 then (h.on fHstStatusAlign, m)
  else writeFrame fx h m a [w]

/-- REGISTER_WRITE. -/
def execRegisterWrite (addr : BitVec 24) (w : Word) (s : State) : Out :=
  liftBoth s (fun fx h m => hostWrite fx h m addr.toNat w)

/-- RC_READ: the RC fields of the word returned are cleared. -/
def execRcRead (addr : BitVec 24) (s : State) : Out :=
  liftHub s (fun fx h =>
    if h.asleep then h
    else if addr.toNat % 4 ≠ 0 then (h.on fHstStatusAlign).answer [0#32]
    else hostRead fx h s.met addr.toNat)

/-- A reset of a scope requested through `glb.reset`. -/
def resetCommand (scope unit : Nat) (s : State) : Out :=
  liftHub s (fun fx h => if h.asleep then h else writeGlb fx h 0xC (w32 (2 ^ 31 + scope * 65536 + unit)))

/-- RESET_QUEUE. -/
def execResetQueue (unit : BitVec 9) (s : State) : Out := resetCommand 1 unit.toNat s
/-- RESET_CONTEXT. -/
def execResetContext (unit : BitVec 9) (s : State) : Out := resetCommand 2 unit.toNat s
/-- RESET_PORT: units 24 to 31 are the two-wire controllers. -/
def execResetPort (unit : BitVec 9) (s : State) : Out := resetCommand 3 unit.toNat s
/-- RESET_TILE. -/
def execResetTile (unit : BitVec 9) (s : State) : Out := resetCommand 4 unit.toNat s
/-- RESET_LINK. -/
def execResetLink (unit : BitVec 9) (s : State) : Out := resetCommand 5 unit.toNat s
/-- RESET_RADIO. -/
def execResetRadio (s : State) : Out := resetCommand 6 0 s
/-- RESET_FABRIC. -/
def execResetFabric (s : State) : Out := resetCommand 7 0 s
/-- RESET_DEVICE. -/
def execResetDevice (s : State) : Out := resetCommand 8 0 s

end Sys2Proof.Machine
end

