-- ==== Sys2Proof/Machine/FabricLoad.lean ====
section
/-! DEFINITION. The cells of a commit, and how its FABRIC part takes effect stage by stage (spec/02 R45 to R48, spec/06 R160, spec/08
R209). -/

namespace Sys2Proof.Machine
open Sys2Proof

/-! ### Cells of the commit -/

/-- The commit's writes to a unit. -/
def Hub.writesOf (h : Hub) (sect unit : Nat) : List Staged := h.ldr.commit.filter (fun x => x.key / 4096 == sect * 256 + unit)

/-- Apply the writes of a unit to the cells that meet a condition; the unit's reference follows (R439). -/
def Hub.applyCells (h : Hub) (sect unit : Nat) (p : Nat → Bool) : Hub :=
  let mine (x : Staged) : Bool := x.key / 4096 == sect * 256 + unit && p (x.key % 4096)
  let h1 := (h.ldr.commit.filter mine).foldl (fun (a : Hub) x => a.setCell x.key x.word) h
  let h2 := h1.modLdr (fun l => { l with commit := l.commit.filter (fun x => !mine x) })
  if cfgChecked sect then h2.setRef sect unit else h2

/-- Apply every write of a unit. -/
def Hub.applyUnit (h : Hub) (sect unit : Nat) : Hub := h.applyCells sect unit (fun _ => true)

/-- A field of a cell differs between two structures. -/
def cellMoved (a b : Hub) (sect unit cell lo len : Nat) : Bool := a.cf sect unit cell lo len != b.cf sect unit cell lo len

/-- One of `n` cells differs. -/
def cellsMoved (a b : Hub) (sect unit cell n : Nat) : Bool := (List.range n).any (fun k => cellMoved a b sect unit (cell + k) 0 32)

/-- A field of a register takes its cell again where that cell changed. -/
def Hub.retake (old h : Hub) (f : Fld) (sect unit cell lo len : Nat) : Hub :=
  if cellMoved old h sect unit cell lo len then h.wr f (h.cf sect unit cell lo len) else h

/-! ### Which writes switch together (R46, R160)

A stage of a context is named here by 8 × context + position, its shadow copy with it. -/

/-- The stage to which a slot belongs. -/
def Hub.slotOwner (h : Hub) (t j : Nat) : List Nat := ((h.slotStage t j).map (fun k => k % 1536)).toList

/-- The stages that read word `i` of a tile's banks. -/
def Hub.coefOwners (h : Hub) (t i : Nat) : List Nat :=
  (h.slotsAt t i false ++ h.slotsAt t i true).flatMap (h.slotOwner t)

/-- The stages a FABRIC write changes between two structures; a context's cell 0x000 changes the stages that come, go, or gain or lose
their copy. -/
def fabricOwners (a b : Hub) (x : Staged) : List Nat :=
  let u := x.key / 4096 % 256
  let k := x.key % 4096
  if u < 32 then
    if k < 0x400 then dedup (a.coefOwners u (k % 512) ++ b.coefOwners u (k % 512))
    else if k < 0x800 then dedup (a.slotOwner u ((k - 0x400) / 16) ++ b.slotOwner u ((k - 0x400) / 16))
    else []
  else
    let c := u - 32
    if k = 0 then
      ((List.range 8).filter (fun i => decide (i < max (a.ctxStages c) (b.ctxStages c)) &&
        (a.ctxShadow c != b.ctxShadow c || decide (min (a.ctxStages c) (b.ctxStages c) ≤ i)))).map (fun i => 8 * c + i)
    else if 0x10 ≤ k then [8 * c + (k - 0x10)] else []

/-- The stages that switch together with `gs`: a common write joins stages. `fuel` bounds the chain. -/
def joined (ws : List (Staged × List Nat)) : Nat → List Nat → List Nat
  | 0, gs => gs
  | fuel + 1, gs =>
    let more := ws.foldl (fun a w => if w.2.any (fun g => a.contains g) then dedup (a ++ w.2) else a) gs
    if more.length = gs.length then gs else joined ws fuel more

/-- A stage stands at an output-sample boundary: an averager between blocks, a FIR stage between an output's newest input and the next
input. -/
def Hub.stageEdge (h : Hub) (x i : Nat) : Bool :=
  let s := h.stg' x i
  if h.stKind x i = 3 then s.inBlk == 0
  else if h.stKind x i = 1 then
    let ph := h.sc x i 4 10 10
    s.n == 0 || (decide (ph < s.n) && (s.n - 1 - ph) % (h.sc x i 4 0 10 + 1) == 0)
  else true

/-- A stage may switch to structure `b`: its context gives no outputs, or it stands at its boundary, its copy at the same output index
and with no output left to compare where the copy goes. -/
def Hub.stageReady (h b : Hub) (g : Nat) : Bool :=
  let c := g / 8
  let i := g % 8
  !h.ctxRuns c || (h.stageEdge c i && (!h.ctxShadow c ||
    (h.stageEdge (192 + c) i && (h.stg' c i).outs == (h.stg' (192 + c) i).outs &&
      (b.ctxShadow c || (NMap.get h.ctx c).cmp.isEmpty))))

/-! ### A stage switches (R46, R209) -/

/-- Stage `i` of a chain keeps its history: same kind, tap count, tile and delay-line place, and for ORDER the same tach input,
predict, P and S_rev. -/
def stageKeeps (a b : Hub) (x i : Nat) : Bool :=
  let same (k lo len : Nat) : Bool := a.sc x i k lo len == b.sc x i k lo len
  a.stKind x i != 0 && a.stKind x i == b.stKind x i && a.stTile x i == b.stTile x i && same 1 9 10 && same 2 0 25 &&
    (a.stKind x i != 5 || (same 4 0 5 && same 5 0 32))

/-- Before the switch: a stage that does not keep its history is reset as by a synchronising reset. -/
def Hub.leaveStage (b h : Hub) (x i : Nat) : Hub := if h.stKind x i = 0 ∨ stageKeeps h b x i = true then h else h.syncStage x i

/-- After it: a stage that went is forgotten, and one that came starts from zeroed history. A copy that came takes the samples that
wait for its primary, and counts outputs with it (DESIGN CHOICE, log entry 100). -/
def Hub.enterStage (a h : Hub) (x i : Nat) : Hub :=
  if h.stKind x i = 0 then { h with stg := NMap.erase h.stg (8 * x + i) }
  else if a.stKind x i = 0 then
    let p := h.stg' (ctxOf x) i
    h.setStg x i (if x < 192 then Stage.syncReset default else { Stage.syncReset { (default : Stage) with inq := p.inq } with outs := p.outs })
  else h

/-- The registers of a slot (R168, R194, R215 to R217). -/
def slotRegs (t j : Nat) : List Nat := [rFabTScnt t j, rFabTSlSet t j, rFabTSlSt t j, rFabTSlCnt t j, rFabTSlSpeed t j]

/-- A slot's registers after a switch from `a`: where another stage or kind stands in it they read zero, or what they read in the slot
from which a stage that kept its history came; `set` takes changed cells again. -/
def Hub.enterSlot (a h : Hub) (t j : Nat) : Hub :=
  let k (x : Hub) : Nat := x.cf 5 t (0x400 + 16 * j) 0 4
  if a.slotStage t j = h.slotStage t j ∧ k a = k h then
    if cellsMoved a h 5 t (0x404 + 16 * j) 2 then h.seedSet t j else h
  else
    let old := match h.slotStage t j with
      | some s => if stageKeeps a h (s / 8) (s % 8) then (slotRegs t (a.stSlot (s / 8) (s % 8))).map a.reg else []
      | none => []
    let h1 := ((slotRegs t j).zipIdx).foldl (fun b r => b.setReg r.1 (recWord old r.2)) h
    if old.isEmpty then h1.seedSet t j else h1

/-- The rest of a context's cells switch: changed digests restart; a changed enable applies. -/
def Hub.enterCtx (a h : Hub) (c : Nat) : Hub :=
  let h1 := if cellMoved a h 5 (32 + c) 0 24 7 then h.digRestart c else h
  let h2 := if cellMoved a h 5 (32 + c) 0 0 1 then h1.ctxEnable c (h1.cf 5 (32 + c) 0 0 1 == 1) else h1
  if a.ctxKind c = 0 ∨ h.ctxKind c = 0 then { h2 with ctx := NMap.set h2.ctx c default } else h2

/-- A tile's partner bit, next bank and fade length follow their cells; a swap that waited behind the switch is taken (R47). -/
def Hub.enterTile (a h : Hub) (t : Nat) : Hub :=
  let h1 := h.wr (fFabTStatusPartner t) (h.cf 5 t 0x800 5 1)
  let h2 := (Hub.retake a (Hub.retake a h1 (fFabTFirBankNext t) 5 t 0x801 1 1) (fFabTFirFadeLen t) 5 t 0x801 16 16).endSwap 2 t
  if h2.coefPending t then h2 else h2.takeWait t

/-- The writes `sel` switch, and with them the stages `gs`. -/
def Hub.fabricApply (h : Hub) (sel : List Staged) (gs : List Nat) : Hub :=
  let b := sel.foldl (fun (a : Hub) x => a.setCell x.key x.word) h
  let chains (g : Nat) : List (Nat × Nat) := [(g / 8, g % 8), (192 + g / 8, g % 8)]
  let out := (gs.flatMap chains).foldl (fun (a : Hub) p => Hub.leaveStage b a p.1 p.2) h
  let n := sel.foldl (fun (a : Hub) x =>
    let u := x.key / 4096 % 256
    let k := x.key % 4096
    if u < 32 ∧ k < 0x400 then a.putCoef u (k / 512) (k % 512) x.word else a.setCell x.key x.word) out
  let n1 := n.modLdr (fun l => { l with commit := l.commit.filter (fun x => !sel.any (fun y => y.key == x.key)) })
  let units := dedup (sel.map (fun x => x.key / 4096 % 256))
  let n2 := units.foldl (fun (a : Hub) u => a.setRef 5 u) n1
  let n3 := (gs.flatMap chains).foldl (fun (a : Hub) p => Hub.enterStage out a p.1 p.2) n2
  let slots := dedup ((sel.filter (fun x => decide (x.key / 4096 % 256 < 32) && decide (0x400 ≤ x.key % 4096) &&
    decide (x.key % 4096 < 0x800))).map (fun x => 64 * (x.key / 4096 % 256) + (x.key % 4096 - 0x400) / 16))
  let n4 := slots.foldl (fun (a : Hub) s => Hub.enterSlot out a (s / 64) (s % 64)) n3
  units.foldl (fun (a : Hub) u => if u < 32 then Hub.enterTile out a u else Hub.enterCtx out a (u - 32)) n4

/-- FABRIC reaches its effect points on the units that `on` names: every write there whose stages may all switch; the rest stays
pending. At the end of a reset (`force`) all of them switch (R48). -/
def Hub.fabricSwitch (h : Hub) (on : Nat → Bool) (force : Bool) : Hub :=
  let all := h.ldr.commit.filter (fun x => x.key / 1048576 == 5)
  let b := all.foldl (fun (a : Hub) x => a.setCell x.key x.word) h
  let unit (w : Staged × List Nat) : Nat := w.1.key / 4096 % 256
  let ws := all.map (fun x => (x, fabricOwners h b x))
  let free (gs : List Nat) : Bool := force || (gs.all (h.stageReady b) &&
    !ws.any (fun w => w.2.any (fun g => gs.contains g) && h.fadeHolds (unit w)))
  let gs := (ws.filter (fun w => on (unit w))).foldl (fun (a : List Nat) w =>
    if w.2.all (fun g => a.contains g) then a
    else
      let c := joined ws ws.length w.2
      if free c then dedup (a ++ c) else a) []
  let go (w : Staged × List Nat) : Bool :=
    if w.2.isEmpty then on (unit w) && (force || !h.fadeHolds (unit w)) else w.2.any (fun g => gs.contains g)
  h.fabricApply ((ws.filter go).map Prod.fst) gs

end Sys2Proof.Machine
end

