-- ==== Sys2Proof/Machine/LoadEffect.lean ====
section
/-! DEFINITION. How a load takes effect: a full load at the end of its stream, the sections of a committed partial load at their
effect points (FABRIC's are in FabricLoad), and METRO (spec/02 R37, R43 to R48, R513). -/

namespace Sys2Proof.Machine
open Sys2Proof

/-! ### The effect of each section (R45) -/

/-- GLOBAL: cells and FCLK_planned (R16). -/
def Hub.effectGlobal (h : Hub) : Hub :=
  let h1 := h.applyUnit 1 0
  match h.ldr.plan with
  | some c => h1.setPlan c
  | none => h1

/-- Clock gates as `clk.status` shows them (R19). -/
def Hub.showGates (h : Hub) : Hub :=
  let h1 := if h.linkPllOff then h.off fClkStatusLinkLock else h
  if h1.cf 2 25 0 4 1 = 1 then h1.off fClkStatusXclkOk else h1

/-- CLOCK: a port whose PCLK is gated off drops its held start as a disabled one does (R19, R93), and a kept WCLK trim takes no
retrim. -/
def Hub.effectClock (h : Hub) (u : Nat) : Hub :=
  let n := (h.applyUnit 2 u).showGates
  if u < 24 ∧ n.cf 2 u 0 0 1 = 1 then n.modPort u (fun y => { y with heldStart := none })
  else if u = 24 ∧ n.cf 2 24 0 0 1 = 1 then { n with hlt := { n.hlt with retrim := false } }
  else n

/-- PORTS: the fields whose cells changed take them again, a changed plan starts at entry 0 (R98). -/
def Hub.effectPort (h : Hub) (p : Nat) : Hub :=
  let n := h.applyUnit 3 p
  let n1 := ((h.retake n (fSpPCtlRole p) 3 p 0 0 1).wr (fSpPTapLateEdge p) (n.cf 3 p 0 23 1))
  let n2 := (Hub.retake h n1 (fSpPDivDiv p) 3 p 1 0 16)
  let n3 := Hub.retake h n2 (fSpPCtlTrain p) 3 p 6 0 2
  let n4 := [fSpPTapLane0 p, fSpPTapLane1 p, fSpPTapLane2 p, fSpPTapLane3 p].foldl (fun a f => Hub.retake h a f 3 p 6 8 6) n3
  let n5 := if h.planLen p != n.planLen p || cellsMoved h n 3 p 0x010 0x20 then
      (n4.wr (fSpPPlanEntry p) 0).wr (fSpPPlanFrame p) 0 else n4
  let n6 := n5.modPort p (fun y => { y with
    heldStart := if n5.spTarget p then none else y.heldStart
    newRole := if cellMoved h n 3 p 0 0 1 then none else y.newRole
    newDiv := if cellMoved h n 3 p 1 0 16 then none else y.newDiv })
  if n6.used 3 p then n6 else (n6.setPort p default).off (fSpPStatusBusy p)

/-- TWOWIRE: a held start of a changed entry goes, and its contexts' next samples carry GAP (R136). -/
def Hub.effectTw (h : Hub) (c : Nat) : Hub :=
  let n := h.applyUnit 4 c
  let n1 := Hub.retake h (Hub.retake h n (fTwCCtlTmoSel c) 4 c 0 22 1) (fTwCCtlEnable c) 4 c 0 23 1
  (List.range 16).foldl (fun a e =>
    let gone := decide (n.twEntries c ≤ e)
    if cellsMoved h n 4 c (0x10 + 8 * e) 5 || (gone && decide (e < h.twEntries c)) then
      a.modTw c (fun x => { x with
        held := NMap.erase x.held e
        gaps := dedup (x.gaps ++ (if gone then [] else
          ((n.twFields c e).filter (fun w => bitOf w 31)).map (fun w => fieldOf w 0 8))) })
    else a) n1

/-- A changed job may switch: its context is disabled, it holds no sample, or a block has just ended and only the overlap is held
(R45). A completed block is transformed under the old settings first. -/
def Hub.jobAtEdge (h : Hub) (e j : Nat) : Bool :=
  let x := h.job' e j
  x.ready.isNone && (!h.jobOn e j || !h.is (fFabCCtlEnable (h.jobCtx e j)) || x.buf.isEmpty ||
    (!h.jobTrig e j && x.ran && x.buf.length == h.jobN e j - h.jobHop e j))

/-- An average that lives through a change of the output form: its values in the new form the spec does not state, each is a free value
(DESIGN CHOICE, log entry 101). -/
def Hub.reformAcc (h : Hub) (e j : Nat) (x : Job) : Job × Hub :=
  if x.acc.isEmpty then (x, h)
  else
    let r := (List.range ((if h.jobComplex e j then 2 else 1) * (h.jobN e j / 2 + 1))).foldl (fun (a : List Int × Hub) _ =>
      let f := a.2.takeFree
      (a.1 ++ [(f.1 : Int)], f.2)) ([], h)
    ({ x with acc := r.1 }, r.2)

/-- SPECTRAL, an engine: each changed job at its block boundary; its average stays unless size, window or averaging changed. -/
def Hub.effectEngine (h : Hub) (e : Nat) : Hub :=
  (List.range 64).foldl (fun a j =>
    if !((a.writesOf 6 e).any (fun x => x.key % 4096 / 16 == j)) || !a.jobAtEdge e j then a
    else
      let n := a.applyCells 6 e (fun c => c / 16 == j)
      let x := a.job' e j
      let gather := cellMoved a n 6 e (16 * j) 0 12 || cellMoved a n 6 e (16 * j) 14 3
      let avg := cellMoved a n 6 e (16 * j) 9 5 || cellMoved a n 6 e (16 * j) 17 2 || cellMoved a n 6 e (16 * j + 1) 0 32
      let y := if gather then { x with buf := [], ran := false, armed := false } else x
      let r := if avg then ({ y with acc := [], cnt := 0, tag := 0#8, time := 0, parity := false }, n)
        else if cellMoved a n 6 e (16 * j) 19 1 then n.reformAcc e j y else (y, n)
      r.2.setJob e j r.1) h

/-- SPECTRAL, a feature set. -/
def Hub.effectFea (h : Hub) (c : Nat) : Hub :=
  let n := h.applyUnit 6 (4 + c)
  if cellMoved h n 6 (4 + c) 0 0 6 then { n with fea := NMap.modify n.fea c (fun x => { x with blk := [] }) } else n

/-- LIMITS: every written entry at once, with fresh check bits; a changed one starts clear (R244). The words a load leaves are read
through their check bits (R246). -/
def Hub.effectLimits (fx : Fixed) (h : Hub) : Hub :=
  let ws := h.ldr.commit.filter (fun x => x.key / 1048576 == 7)
  let entries := dedup (ws.map (fun x => x.key / 4096 % 256 * 64 + x.key % 4096 / 4))
  let h1 := h.modLdr (fun l => { l with commit := l.commit.filter (fun x => x.key / 1048576 != 7) })
  let given (e i : Nat) : Option Word := (ws.find? (fun x => x.key == limCell e i)).map (fun x => x.word)
  let old := entries.foldl (fun (a : List (Nat × List Word) × Hub) e =>
    let r := a.2.limStored e
    (a.1 ++ [(e, r.1)], r.2)) ([], h1)
  let h2 := entries.foldl (fun (a : Hub) e => a.limPut e ((List.range 4).map (given e))) old.2
  old.1.foldl (fun (a : Hub) (x : Nat × List Word) =>
    let new := (List.range 4).map (fun i => (given x.1 i).getD (recWord x.2 i))
    if x.2 = new then a else a.limChanged fx x.1 x.2 new) h2

/-- EVENTS, at the edge behind the commit: changed watchdog cells begin a new window there, a held firing comes no earlier under a changed
spacing, producers presented before the edge fire along the old lists, and a disabled channel drops its held firing (R264, R270). -/
def Hub.effectEvents (fx : Fixed) (h : Hub) : Hub :=
  let chans := (List.range 128).filter (fun n => !(h.writesOf 8 n).isEmpty)
  let edge := max h.ldr.taken h.cyc
  let new := chans.foldl (fun a n => a.applyUnit 8 n) h
  let n1 := chans.foldl (fun a n =>
    let a1 := if cellMoved h new 8 n 0x081 0 32 then a.newWindow n edge else a
    if cellMoved h new 8 n 0x080 0 12 then a1.modChan n (fun x => { x with notBefore := edge }) else a1) new
  let n2 := chans.foldl (fun a n =>
    (List.range (a.chan n).presented.length).foldl (fun b _ =>
      if (b.chan n).presented.any (fun p => decide (p < edge)) then b.channelFireOn fx n (h.evTasks n) else b) a) n1
  chans.foldl (fun a n =>
    if a.chanEnabled n then a
    else (a.modChan n (fun x => { x with heldFire := false, presented := [] })).off (fEvCStHeld n)) n2

/-- QUEUES, the queues that `on` names: a queue whose size or place changes or that is disabled takes a QUEUE reset, unless one has just
ended (`fresh` clear, R48); a changed ring starts idle. -/
def Hub.effectQueues (fx : Fixed) (h : Hub) (on : Nat → Bool) (fresh : Bool) : Hub :=
  let qs := (List.range 64).filter (fun q => on q && !(h.writesOf 9 q).isEmpty)
  let new := qs.foldl (fun a q => a.applyUnit 9 q) h
  let n1 := qs.foldl (fun a q =>
    (List.range 12).foldl (fun b r =>
      if cellsMoved h new 9 q (0x10 + 4 * r) 4 then
        dedup [h.cf 9 q (0x10 + 4 * r) 1 8, new.cf 9 q (0x10 + 4 * r) 1 8] |>.foldl (fun (x : Hub) c =>
          ({ x with ring := NMap.set x.ring c default }.cutOutbox (prodRing c)).wr (fQRStatusState c) 0) b
      else b) a) new
  qs.foldl (fun a q =>
    if fresh && (cellMoved h new 9 q 0 2 19 || cellMoved h new 9 q 1 0 32 || (h.cf 9 q 0 0 1 == 1 && new.cf 9 q 0 0 1 == 0)) then
      a.startRec fx { (default : Rec) with scope := 1, unit := q, start := a.cyc }
    else Hub.retake h a (fQQThrThr q) 9 q 2 0 22) n1

/-- A kitchen timer action takes its cells (R319). -/
def Hub.seedKt (h : Hub) (a : Nat) : Hub :=
  let h1 := (List.range 6).foldl (fun b i => b.setReg (0x1C1000 + 0x20 * a + 4 * i) (b.cell 10 (32 + a / 32) (8 * (a % 32) + i))) h
  { h1 with kt := NMap.set h1.kt a default }

/-- The timer considers an action for the first time at the present edge (R321). -/
def Hub.ktNow (h : Hub) (a : Nat) : Hub :=
  if !h.ktOn a then h
  else
    let k := h.ktTb a
    let v := h.tbVal k
    let before := ((v : Int) - (if k = 17 then 0 else h.tbAdd k * 65536)).toNat
    let d := h.ktDue a * 2 ^ 32
    if d ≤ before then h.ktFire a true else if d ≤ v then h.ktFire a false else h

/-- A trigger takes its enable and is enabled anew (R313). -/
def Hub.seedTrig (h : Hub) (g : Nat) : Hub :=
  let h1 := h.wr (fTmTgCtlEnable g) (h.cf 10 16 (0x20 + 6 * g) 0 1)
  if h1.is (fTmTgCtlEnable g) then h1.armTrig g else h1

/-- TIME: changed triggers are enabled anew, changed actions are considered anew; increments stay (R322). -/
def Hub.effectTime (h : Hub) : Hub :=
  let us := (h.usedUnits 10 ++ List.range 40).filter (fun u => !(h.writesOf 10 u).isEmpty)
  let new := us.foldl (fun a u => a.applyUnit 10 u) h
  let n1 := (List.range 32).foldl (fun a g => if cellsMoved h new 10 16 (0x20 + 6 * g) 6 then a.seedTrig g else a) new
  (List.range 256).foldl (fun a k =>
    if cellsMoved h new 10 (32 + k / 32) (8 * (k % 32)) 6 then (a.seedKt k).ktNow k else a) n1

/-- CASCADE: a port whose link settings change takes a LINK reset, unless one has just ended (`fresh` clear, R48); changed bridges start
empty. -/
def Hub.effectCas (fx : Fixed) (h : Hub) (u : Nat) (fresh : Bool) : Hub :=
  let new := h.applyUnit 11 u
  if u < 3 then if !fresh then new.wr (fCasPAsymAsym u) (new.cf 11 u 0 16 16) else (new.leavesUp fx u).startRec fx { (default : Rec) with scope := 5, unit := u, start := new.cyc }
  else
    (List.range 32).foldl (fun a b =>
      if cellsMoved h new 11 3 (0x10 + 4 * b) 4 then a.modCas (fun c => { c with bridge := NMap.set c.bridge b default }) else a)
      (Hub.retake h new fCasEnumAutoEnum 11 3 0 0 1)

/-- The wake receiver takes its cells. -/
def Hub.seedWake (h : Hub) : Hub :=
  ((h.wr fRadWakeAddr (h.cf 12 49 0 0 16)).wr fRadWakeEn (h.cf 12 49 0 16 1)).wr fRadWakeBcastOk (h.cf 12 49 0 17 1)

/-- RADIO: a node whose id changes is free; other admissions stay (R390). -/
def Hub.effectRadio (h : Hub) : Hub :=
  let us := (List.range 50).filter (fun u => !(h.writesOf 12 u).isEmpty)
  let new := us.foldl (fun a u => a.applyUnit 12 u) h
  let n1 := (List.range 48).foldl (fun a i =>
    if cellMoved h new 12 (i + 1) 0 0 32 then
      ((a.setReg (rRadNId i) (a.cell 12 (i + 1) 0)).wr (fRadNStState i) 0).modNode (i + 1) (fun _ =>
        { (default : RadNode) with gaps := new.nodeCtxs (i + 1) })
    else a) new
  let n2 := (Hub.retake h (Hub.retake h n1 fRadCtlMode 12 0 0 0 2) fRadCtlAutoCal 12 0 0 2 1).radMode
  if cellMoved h new 12 49 0 0 18 then n2.seedWake else n2

/-- HEALTH. -/
def Hub.effectHealth (h : Hub) : Hub := ((h.applyUnit 13 0).applyUnit 13 1).applyUnit 13 2

/-- The METRO cells among a stream's writes, as the partition's table: a cell at its default is not listed. -/
def metroTable (cells : List Staged) : NMap Word :=
  (cells.filter (fun x => x.key / 1048576 == 15)).foldl (fun (a : NMap Word) x =>
    NMap.setD a x.key x.word (metDefault (x.key / 4096 % 256) (x.key % 4096))) []

/-- METRO reaches the partition, which answers with its outcome (R43, R422). A partition held in MPOR takes none. -/
def loadMetro (fx : Fixed) (h : Hub) (m : Met) (cells : List Staged) (words : List Word) : Hub × Met :=
  if !fx.variant.hasMet then (h.wr fLdrMetroOutcome 6, m)
  else if !m.up then (h, m)
  else
    let r := m.load (metroTable cells) words
    ((h.wr fLdrMetroOutcome r.1).readLc r.2, r.2)

/-! ### Effect points -/

/-- A unit of a section other than FABRIC stands at its effect point (R45, R110, R390). -/
def Hub.effectReady (h : Hub) (sect unit : Nat) : Bool :=
  if (sect = 2 ∧ unit < 24) ∨ sect = 3 then (h.port unit).phase == 0
  else if sect = 4 then (h.twc unit).kind == 0
  else if sect = 6 ∧ 4 ≤ unit then (NMap.get h.fea (unit - 4)).blk.isEmpty || !h.is (fFabCCtlEnable (unit - 4)) || !h.feaOn (unit - 4)
  else if sect = 12 then h.rad.mode != 2 || (h.rad.sfOn && h.rad.slot == 0 && decide (h.ldr.taken < h.rad.sfCyc))
  else true

/-- A section other than FABRIC switches on a unit; `fresh` is clear at the end of a reset that covers it (R48). -/
def Hub.effectAt (fx : Fixed) (h : Hub) (sect unit : Nat) (fresh : Bool) : Hub :=
  match sect with
  | 1 => h.effectGlobal
  | 2 => h.effectClock unit
  | 3 => h.effectPort unit
  | 4 => h.effectTw unit
  | 6 => if unit < 4 then h.effectEngine unit else h.effectFea (unit - 4)
  | 7 => h.effectLimits fx
  | 8 => h.effectEvents fx
  | 9 => h.effectQueues fx (fun _ => true) fresh
  | 10 => h.effectTime
  | 11 => h.effectCas fx unit fresh
  | 12 => h.effectRadio
  | 13 => h.effectHealth
  | _ => h

/-- The unit has switched; an engine stays pending while one of its jobs has not. -/
def Hub.effectDone (fx : Fixed) (h : Hub) (sect unit : Nat) : Hub :=
  if sect = 6 ∧ unit < 4 ∧ (h.writesOf 6 unit).isEmpty = false then h
  else (h.modLdr (fun l => { l with todo := l.todo.filter (fun x => !(x.1 == sect && x.2 == unit)) })).shadowsAfter fx sect unit

/-- FABRIC units without a write left have switched. -/
def Hub.fabricDone (fx : Fixed) (h : Hub) : Hub :=
  (h.ldr.todo.filter (fun x => x.1 == 5 && (h.writesOf 5 x.2).isEmpty)).foldl (fun (a : Hub) x => Hub.effectDone fx a 5 x.2) h

/-- A section reaches its effect point on a unit, if it stands there. -/
def sectionEffect (fx : Fixed) (h : Hub) (m : Met) (sect unit : Nat) : Hub × Met :=
  let u := effectUnit sect unit
  if h.ldrState ≠ ldrCommit ∨ h.ldr.todo.contains (sect, u) = false then (h, m)
  else if sect = 15 then
    let r := loadMetro fx h m h.ldr.commit h.ldr.metro
    (((r.1.effectDone fx 15 0).commitDone).settle fx, r.2)
  else if sect = 5 then ((((((h.deferTile u).fabricSwitch (fun v => v == u) false).fabricDone fx).commitDone).settle fx), m)
  else if h.effectReady sect u then ((((h.effectAt fx sect u true).effectDone fx sect u).commitDone).settle fx, m)
  else (h, m)

/-- SECTION_EFFECT_POINT. -/
def execSectionEffectPoint (sect : Fin 16) (unit : Fin 256) (s : State) : Out :=
  liftBoth s (fun fx h m => sectionEffect fx h m sect unit)

/-- A reset of a scope and unit covers a pending unit (R48); one of TILE covers the partner as well (R160). -/
def Hub.resetCovers (h : Hub) (scope unit sect u : Nat) : Bool :=
  match scope with
  | 1 => sect == 9
  | 2 => (sect == 5 && u == 32 + unit) || (sect == 6 && u == 4 + unit)
  | 3 => if unit < 24 then (sect == 3 || sect == 2) && u == unit else sect == 4 && u + 24 == unit
  | 4 => sect == 5 && (h.domain unit).contains u
  | 5 => sect == 11 && u == unit
  | 6 => sect == 12
  | 7 => sect == 3 || sect == 4 || sect == 5 || sect == 6 || sect == 9 || (sect == 2 && decide (u < 24))
  | _ => false

/-- The end of a reset counts as the effect point of the pending units it covers; no further reset follows. A QUEUE reset covers its
queue's writes alone. -/
def Hub.effectsAfter (fx : Fixed) (h : Hub) (scope unit : Nat) : Hub :=
  if h.ldrState ≠ ldrCommit then h
  else
    let cov := h.ldr.todo.filter (fun x => h.resetCovers scope unit x.1 x.2)
    let h1 := (h.fabricSwitch (fun u => cov.contains (5, u)) true).fabricDone fx
    ((cov.filter (fun x => x.1 != 5)).foldl (fun (a : Hub) (x : Nat × Nat) =>
      if scope = 1 then
        let b := a.effectQueues fx (fun q => q == unit) false
        if b.ldr.commit.any (fun y => y.key / 1048576 == 9) then b else Hub.effectDone fx b 9 0
      else Hub.effectDone fx (a.effectAt fx x.1 x.2 false) x.1 x.2) h1).commitDone

/-- RECOVERY_END. -/
def execRecoveryEnd (scope : Fin 16) (unit : BitVec 9) (s : State) : Out :=
  liftHub s (fun fx h =>
    if h.flt.recs.any (fun r => r.scope == scope.val && r.unit == unit.toNat) then
      (((h.recEnd fx scope unit.toNat).stAfterRec).effectsAfter fx scope unit.toNat)
    else h)

/-! ### A full load takes effect (R37, R445, R452, R504, R513) -/

/-- The fields that only a POR resets take their cells at the first full load after it. -/
def Hub.seedPor (h : Hub) : Hub :=
  if h.hlt.seeded then h
  else { (h.seedWake).wr fHltPlanVddc (h.cf 13 2 0 0 4) with hlt := { h.hlt with seeded := true } }

/-- Units take the fields that stand in cells. -/
def Hub.seedUnits (fx : Fixed) (h : Hub) : Hub :=
  let h1 := (List.range 24).foldl Hub.seedPort h
  let h2 := (List.range 8).foldl Hub.seedTw h1
  let h3 := (List.range 32).foldl Hub.seedTile h2
  let h4 := (List.range 192).foldl Hub.seedCtx h3
  let h5 := (List.range 64).foldl Hub.seedQueue h4
  let h6 := (List.range 3).foldl (fun a p => a.wr (fCasPAsymAsym p) (a.cf 11 p 0 16 16)) h5
  let h7 := h6.wr fCasEnumAutoEnum (h6.cf 11 3 0 0 1)
  let h8 := if fx.variant.hasRad then h7.seedRadio.radMode else h7
  let h9 := (h8.usedUnits 8).foldl (fun a n => a.newWindow n a.cyc) h8.seedPor
  (List.range 3).foldl (fun a p =>
    if a.cf 11 p 0 0 1 = 0 ∧ a.rd (fCasPStatusState p) ≠ 0 then (a.leavesUp fx p).clearLink fx p else a) h9

/-- Timebases, actions and triggers; after a wake the retained increments and actions stay (R504). -/
def Hub.seedTime (h : Hub) : Hub :=
  let h1 := if h.sup.woke then h
    else
      let a := (List.range 16).foldl (fun b n => (b.wr (fTmTbIncHiIncHi n) (b.cf 10 n 0 0 8)).wr (fTmTbIncLoIncLo n) (b.cf 10 n 1 0 32)) h
      (List.range 256).foldl Hub.seedKt a
  (List.range 32).foldl Hub.seedTrig h1

/-- The units' references (R439). -/
def Hub.seedRefs (h : Hub) : Hub :=
  (h.cells.map (fun e => e.1 / 4096)).foldl (fun (a : Hub) u =>
    if cfgChecked (u / 256) then a.setRef (u / 256) (u % 256) else a) { h with flt := { h.flt with refs := [], upset := [] } }

/-- The held RECOVERY record is q62's first item; a due RESET record follows (R445, R500). -/
def Hub.firstRecords (h : Hub) : Hub :=
  let r := h.flt.heldRec
  let h1 := if r.isEmpty then h
    else { h with flt := { h.flt with heldRec := [] } }.pushOut prodLog 62 (recordWords 5 r)
  h1.supplyReset

/-- A full load takes effect. -/
def fullEffect (fx : Fixed) (h0 : Hub) (m : Met) : Hub × Met :=
  let l := h0.ldr
  let c := h0.candidate
  let flash := c.rd fLdrStatusSrc == srcFlash
  let h1 := (((c.modLdr (fun x => { (default : Ldr) with
    fifo := x.fifo, booted := if flash then x.flash else x.booted })).setLdrState ldrIdle).on fLdrStatusConfigured).on fLdrStatusDone
  let h2 := (if flash then h1.wr fLdrBootImage l.flash else h1).showLevel
  let h3 := match l.plan with
    | some p => h2.setPlan p
    | none => h2
  let h4 := ((h3.showGates.seedUnits fx).seedTime).seedRefs.firstRecords
  let h5 := (List.range 256).foldl Hub.ktNow { h4 with sup := { h4.sup with woke := false } }
  let r := if l.hasMetro then loadMetro fx h5 m l.staged l.metro else (h5, m)
  ((r.1.runAfter).settle fx, r.2)

/-- CHECK: the whole structure; a full load takes effect, a partial one waits for its commit (R39, R40). -/
def ldrCheck (fx : Fixed) (h : Hub) (m : Met) : Hub × Met :=
  let code := h.checkCode fx
  if code ≠ 0 then (h.ldrFail code h.ldr.lastSect (h.rd fLdrStatusFrames - 1), m)
  else if h.ldr.partialLoad then ((h.showBuild).setLdrState ldrReady, m)
  else fullEffect fx h.showBuild m

/-- LDR_FRAME: the next frame, and CHECK behind the last one. -/
def execLdrFrame (flash : List Word) (s : State) : Out :=
  liftBoth s (fun fx h m =>
    match h.nextFrame flash with
    | none => (h, m)
    | some (src, ws, h1) =>
      let h2 := h1.ldrTake fx src ws
      if h2.ldrState = 4 then ldrCheck fx h2 m else (h2, m))

/-- METRO's payload words again, 64 of each frame; a frame behind a part's END begins another part. `n` bounds the frames. -/
def Ldr.rereadWords (v : Variant) (dev : Nat) : Nat → Ldr → List Word → Ldr
  | 0, l, _ => l
  | n + 1, l, ws =>
    let l1 := if l.ended then { l with ended := false, sel := true, item := default } else l
    Ldr.rereadWords v dev n (l1.words v dev (ws.take 64)).ldr (ws.drop 64)

/-- The writes of METRO's payload words read again. -/
def metroAgain (fx : Fixed) (h : Hub) (words : List Word) : List Staged :=
  (Ldr.rereadWords fx.variant h.devnum (words.length / 64 + 1) { (default : Ldr) with sect := 15, sel := true } words).staged

/-- METRO_REREAD: the payload words of METRO of the image last booted from, for a partition out of MPOR and unconfigured (R43). -/
def execMetroReread (words : List Word) (s : State) : Out :=
  liftBoth s (fun fx h m =>
    if h.ldr.booted = 0 ∨ 2 ≤ fx.bootsrc.val ∨ m.outcome ≠ 0 then (h, m)
    else loadMetro fx h m (metroAgain fx h words) words)

end Sys2Proof.Machine
end

