-- ==== Sys2Proof/Machine/Planner.lean ====
section
/-! DEFINITION. Ageing monitors, margins and the calibration planner (spec/17 R471 to R478). -/

namespace Sys2Proof.Machine
open Sys2Proof

def Hub.modHlt (h : Hub) (f : Hlt → Hlt) : Hub := { h with hlt := f h.hlt }

/-! ### Monitors (R471, R472) -/

/-- The clock of a monitor's domain runs: links and transmit clocks from the link PLL, XCLK, ACLK by their bits. -/
def Hub.domainRuns (h : Hub) (d : Nat) : Bool :=
  if d = 2 then h.is fClkStatusLinkLock else if d = 6 then h.is fClkStatusXclkOk else if d = 7 then h.is fClkStatusAclkOk else true

/-- Every monitor is read; a stopped domain keeps its last margin. -/
def Hub.readMons (h : Hub) (ms : List (BitVec 8)) : Hub :=
  (List.range 64).foldl (fun a i =>
    if a.domainRuns (i / 8) then
      let m := (ms.getD i 0#8).toNat
      (a.wr (fHltMonNow i) m).wr (fHltMonMin i) (min (a.rd (fHltMonMin i)) m)
    else a) h

/-- The least of a field over a domain's eight monitors. -/
def Hub.leastOf (h : Hub) (f : Nat → Fld) (d : Nat) : Nat := (List.range 8).foldl (fun a i => min a (h.rd (f (8 * d + i)))) 255

/-- The least of a field over the domains other than FCLK. -/
def Hub.leastOther (h : Hub) (f : Nat → Fld) : Nat := (List.range 7).foldl (fun a d => min a (h.leastOf f (d + 1))) 255

/-- Drifts of REFCLK, from tb_net's increment where it is steered, and of XCLK. -/
def Hub.readDrifts (fx : Fixed) (h : Hub) : Hub :=
  let d : Int := (h.tbIncr 16 : Int) - 0x0140000000
  let ref : Int := if h.isMaster fx then 0 else (2 * d * 10000000 + 0x0140000000) / (2 * 0x0140000000)
  (h.wr fHltRefRefclk (ofInt ref 16)).wr fHltXtalDrift (ofInt (h.rad.xtrim * 5) 16)

/-! ### Margins (R474 to R476) -/

/-- Thresholds of HEALTH unit 0, and the planner's cells. -/
def Hub.mCrit (h : Hub) : Nat := h.cf 13 0 0 0 10
def Hub.mLo (h : Hub) : Nat := h.cf 13 0 0 10 10
def Hub.mHi (h : Hub) : Nat := h.cf 13 0 0 20 10
def Hub.vddcFloor (h : Hub) : Nat := h.cf 13 2 0 4 4
def Hub.plannerOn (h : Hub) : Bool := h.cf 13 2 0 8 1 == 1

/-- FCLK of a resting point, in MHz. -/
def fclkMhz (p : Nat) : Nat := 480 - 24 * p

/-- Nothing moves: a step may be taken. -/
def Hub.mayStep (h : Hub) : Bool := h.plannerOn && !h.is fClkStatusSlewing && !h.hlt.settling

/-- Set VDDC; it settles. -/
def Hub.setVddc (h : Hub) (code : Nat) : Hub :=
  (h.wr fHltPlanVddc code).modHlt (fun x => { x with settling := true, steps := x.steps + 1 })

/-- Ask for FCLK one resting point down or up. -/
def Hub.fclkStep (h : Hub) (p : Nat) : Hub := (h.stepRequest p).modHlt (fun x => { x with steps := x.steps + 1 })

/-- The budget is spent: the flag, the producer, the shortest scale. -/
def Hub.spendBudget (h : Hub) : Hub :=
  (((h.on fHltStatusBudget).present 0xA400).wr fHltPlanScale 3).modHlt (fun x => { x with budget := true })

/-- Raise VDDC by 10 mV, or find no knob left; `again` repeats the report. Answers whether a step was taken. -/
def Hub.raiseVddc (h : Hub) (again : Bool) : Bool × Hub :=
  let v := h.rd fHltPlanVddc
  if v < 10 then (true, h.setVddc (v + 1))
  else (false, if h.hlt.budget && !again then h else h.spendBudget)

/-- FCLK stands above its plan: it may step down. -/
def Hub.abovePlan (h : Hub) : Bool := decide (h.rd fClkStatusFclkPoint < h.rd fClkStatusFclkPlan)

/-- The rule of every control cycle, on the present margins. Answers whether a step was taken. -/
def Hub.urgent (h : Hub) : Bool × Hub :=
  let mf := h.leastOf fHltMonNow 0
  let mo := h.leastOther fHltMonNow
  if !h.mayStep then (false, h)
  else if mf < h.mCrit ∧ h.abovePlan = true then (true, (h.fclkStep (h.rd fClkStatusFclkPoint + 1)).on fHltStatusMarginLow)
  else if min mf mo < h.mCrit then
    let r := h.raiseVddc false
    (r.1, if r.1 then r.2.on fHltStatusMarginLow else r.2)
  else (false, h)

/-- The steps of the monthly rule, on the month's least margins. -/
def Hub.monthStep (h : Hub) (mf mo : Nat) : Hub :=
  if !h.mayStep || h.is fHltPlanCtlFreeze then h
  else if mf < h.mLo ∧ h.abovePlan = true then h.fclkStep (h.rd fClkStatusFclkPoint + 1)
  else if min mf mo < h.mLo then (h.raiseVddc true).2
  else if h.mHi ≤ min mf mo then
    let p := h.rd fClkStatusFclkPoint
    let v := h.rd fHltPlanVddc
    if h.vddcFloor < v then h.setVddc (v - 1)
    else if 0 < p ∧ (1000 - mf) * fclkMhz (p - 1) ≤ (1000 - h.mLo) * fclkMhz p then h.fclkStep (p - 1)
    else h
  else h

/-- A raise of FCLK that the month's rule asks for waits for a VDDC step of the month to settle (R475). -/
def Hub.awaitUp (h : Hub) (mf mo : Nat) : Hub :=
  let p := h.rd fClkStatusFclkPoint
  if h.hlt.settling && !h.is fHltPlanCtlFreeze && h.plannerOn && decide (h.mHi ≤ min mf mo) && decide (h.rd fHltPlanVddc ≤ h.vddcFloor) &&
      decide (0 < p) && decide ((1000 - mf) * fclkMhz (p - 1) ≤ (1000 - h.mLo) * fclkMhz p) then h.modHlt (fun x => { x with wantUp := true })
  else h

/-- The raise that waited, once nothing moves and the cycle has made no other step. -/
def Hub.raiseLate (h : Hub) (stepped : Bool) : Hub :=
  let p := h.rd fClkStatusFclkPoint
  if stepped || !h.hlt.wantUp || !h.mayStep || h.is fHltPlanCtlFreeze then h
  else
    let h1 := h.modHlt (fun x => { x with wantUp := false })
    if 0 < p then h1.fclkStep (p - 1) else h1

/-- The interval scale follows the month's least margin. -/
def Hub.monthScale (h : Hub) (m : Nat) : Hub :=
  let v := h.rd fHltPlanScale
  if !h.plannerOn then h
  else if m < h.mLo then h.wr fHltPlanScale (min 3 (v + 1))
  else if h.mHi ≤ m then h.wr fHltPlanScale (v - 1)
  else h

/-- The monthly rule. `stepped` says that this control cycle has made its step. -/
def Hub.monthly (h : Hub) (stepped : Bool) : Hub :=
  let mf := h.leastOf fHltMonMin 0
  let mo := h.leastOther fHltMonMin
  (if stepped then h.awaitUp mf mo else (h.awaitUp mf mo).monthStep mf mo).monthScale (min mf mo)

/-- The LEDGER record (R477), and the month's counts begin anew. -/
def Hub.ledger (h : Hub) (next : Word) : Hub :=
  let x := h.hlt
  let month := h.rd fHltPlanMonth + 1
  let dom (d : Nat) : Nat := h.leastOf fHltMonMin d
  let four (d : Nat) : Word := w32 (dom d + dom (d + 1) * 256 + dom (d + 2) * 65536 + dom (d + 3) * 16777216)
  let eye (p : Nat) : Nat := if h.rd (fCasPStatusState p) = 2 then NMap.get x.eyeMin p - 1 else 0
  let ws := recHeader 0x27 0xCA 16 :: timeWords h.netNow ++
    [w32 (h.devnum * 2 ^ 23), 0#32,
     w32 (h.rd fClkStatusFclkPoint * 2 ^ 30 + h.rd fClkStatusFclkPlan * 2 ^ 28 + h.rd fHltPlanVddc * 2 ^ 24 +
       h.rd fHltPlanScale % 4 * 2 ^ 22 + b2n x.budget * 2 ^ 21 + satTo 5 x.steps * 65536 + month % 65536),
     four 0, four 4, h.reg rHltRef,
     w32 (h.rd fHltXtalDrift * 65536 + ofInt ((x.tempHi : Int) - 129) 8 * 256 + ofInt ((x.tempLo : Int) - 129) 8),
     w32 (eye 0 * 65536 + eye 1 * 256 + eye 2), next,
     w32 (satTo 16 x.passed * 65536 + satTo 16 x.notPassed), w32 (satTo 16 x.upsets * 65536 + satTo 16 x.recs)]
  let h1 := (((h.logWords 0x27 ws).on fHltStatusLedger).wr fHltPlanMonth month).present 0xA300
  let h2 := (List.range 64).foldl (fun a i => a.wr (fHltMonMin i) 255) h1
  h2.modHlt (fun x => { x with
    month := x.month - 2592000000000, steps := 0, eyeMin := [], tempHi := 0, tempLo := 0, passed := 0, notPassed := 0
    upsets := 0, recs := 0 })

/-! ### The calibration planner (R478) -/

/-- What a control cycle's monitors measured beside the margins: reference drift, eye widths. -/
structure Measured where
  drift : BitVec 16
  eyes : BitVec 24
  deriving DecidableEq, Repr

/-- Interval and item of a planner entry. -/
def Hub.planItem (h : Hub) (k : Nat) : Nat := h.cf 13 2 (0x010 + k) 0 8
def Hub.planSecs (h : Hub) (k : Nat) : Nat := h.cf 13 2 (0x010 + k) 8 24

/-- The resource of an item is free and nothing keeps it from starting. -/
def Hub.itemFree (h : Hub) (item : Nat) : Bool :=
  h.rd fClkSupNowWarn == 0 && !h.flt.recs.any (fun r => decide (8 ≤ r.scope)) &&
  (if 0x10 ≤ item ∧ item ≤ 0x17 then
     !(h.test (item - 0x10)).run && !(h.test (item - 0x10)).restore && !h.flt.recs.any (fun r => resetHits r.scope (item - 0x10))
   else if item = 0x20 then !h.hlt.retrim
   else if 0x21 ≤ item ∧ item ≤ 0x23 then h.rd (fCasPStatusState (item - 0x21)) == 2 && !h.recovering 5 (item - 0x21)
   else item == 0x24)

/-- The limit of a HEALTH threshold cell, with its default where it holds 0. -/
def Hub.healthLimit (h : Hub) (lo len dflt : Nat) : Nat := let n := h.cf 13 0 1 lo len; if n = 0 then dflt else n

/-- Start an item. -/
def Hub.itemStart (fx : Fixed) (h : Hub) (item : Nat) (z : Measured) : Hub :=
  if 0x10 ≤ item ∧ item ≤ 0x17 then h.stStart fx (item - 0x10) (if item = 0x17 then 3 else 2)
  else if item = 0x20 then (if h.cf 2 24 0 0 1 = 1 then h else h.modHlt (fun x => { x with retrim := true }))
  else if 0x21 ≤ item ∧ item ≤ 0x23 then
    let p := item - 0x21
    let w := (z.eyes.toNat / 2 ^ (8 * (2 - p))) % 256
    let h1 := h.wr (if p = 0 then fHltEyeUp else if p = 1 then fHltEyeDn else fHltEyeBr) w
    let h2 := h1.modHlt (fun x => { x with
      eyeMin := NMap.modify x.eyeMin p (fun o => if o = 0 then w + 1 else min o (w + 1)) })
    if w < h.healthLimit 16 8 16 then h2.on fHltStatusEyeLow else h2
  else
    let h1 := h.wr fHltRefDrift z.drift.toNat
    if h.healthLimit 0 16 500 < z.drift.toInt.natAbs then h1.on fHltStatusRefDrift else h1

/-- An entry is due: an interval × scale after its last start. -/
def Hub.planDue (h : Hub) (k : Nat) : Bool :=
  decide (NMap.get h.hlt.last k + h.planSecs k * 1000000 / 2 ^ h.rd fHltPlanScale ≤ h.hlt.micros)

/-- One entry at a control cycle. -/
def Hub.planEntry (fx : Fixed) (z : Measured) (h : Hub) (k : Nat) : Hub :=
  if h.planItem k = 0 || !h.planDue k then h
  else if h.itemFree (h.planItem k) then
    let late := h.hlt.deferred.contains k
    let h1 := (h.countSat fHltPlanCntStarted 1).modHlt (fun x => { x with
      last := NMap.set x.last k x.micros, deferred := x.deferred.filter (fun i => i != k) })
    (if late then h1.countSat fHltPlanCntDeferred 1 else h1).itemStart fx (h.planItem k) z
  else h.modHlt (fun x => { x with deferred := if x.deferred.contains k then x.deferred else x.deferred ++ [k] })

/-! ### CONTROL_CYCLE (R473) -/

/-- A trigger drives the control cycle. -/
def Hub.cycleTrig (h : Hub) : Bool :=
  (List.range 32).any (fun g => h.tgOn g && (List.range 4).any (fun i => h.cf 10 16 (0x25 + 6 * g) (8 * i) 8 == 0x32))

/-- A control cycle: monitors, the urgent rule, the month, the planner's entries. Without a trigger it comes 10 ms after the last. -/
def Hub.controlCycle (fx : Fixed) (h0 : Hub) (ms : List (BitVec 8)) (temp : BitVec 8) (z : Measured) (next : Word) : Hub :=
  let h := if h0.cycleTrig then h0 else h0.reach (h0.hlt.lastCyc + 8000000)
  let dt := (h.cyc - h.hlt.lastCyc) / 800
  let t := (temp.toInt + 129).toNat
  let h1 := ((h.modHlt (fun x => { x with
      cycles := x.cycles + 1, lastCyc := h.cyc, micros := x.micros + dt, month := x.month + dt, tempHi := max x.tempHi t
      tempLo := if x.tempLo = 0 then t else min x.tempLo t })).readMons ms).readDrifts fx
  let r := h1.urgent
  let ends := decide (2592000000000 ≤ r.2.hlt.month)
  let h2 := if ends || r.2.hlt.cycles == 100 then r.2.monthly r.1 else r.2.raiseLate r.1
  let h3 := if ends then h2.ledger next else h2
  if h3.plannerOn then (List.range 32).foldl (Hub.planEntry fx z) h3 else h3

/-- CONTROL_CYCLE. -/
def execControlCycle (margins : List (BitVec 8)) (drift : BitVec 16) (temp : BitVec 8) (eyes : BitVec 24) (s : State) : Out :=
  liftHub s (fun fx h =>
    if h.clk.gates then
      h.controlCycle fx margins temp { drift := drift, eyes := eyes } (if fx.variant.hasMet then s.met.reg rMetLidNext else 0#32)
    else h)

/-- VDDC_SETTLED: 100 µs after a step has ended. -/
def execVddcSettled (s : State) : Out := liftHub s (fun _ h => h.modHlt (fun x => { x with settling := false }))

/-- WCLK_RETRIM_APPLY: the new trim applies when all eight two-wire controllers are between transactions. -/
def execWclkRetrimApply (s : State) : Out :=
  liftHub s (fun _ h =>
    if (List.range 8).all (fun c => (NMap.get h.tw c).kind == 0) then h.modHlt (fun x => { x with retrim := false }) else h)

end Sys2Proof.Machine
end

