-- ==== Sys2Proof/Machine/Remote.lean ====
section
/-! DEFINITION. Remote register access over the cascade (spec/13 R337, R355). -/

namespace Sys2Proof.Machine
open Sys2Proof

/-- CAS_RQ_GO: `cas.rq.ctl.go` is written. -/
def execCasRqGo (s : State) : Out :=
  liftBoth s (fun fx h m =>
    if h.answers fx m .cas 0x1D0320 then casRqGo serve fx h m else (h.atReg fx m .cas 0x1D0320 id, m))

/-- Serve the request a frame carries and answer it; a broadcast write is not answered. -/
def answerRq (fx : Fixed) (h : Hub) (m : Met) (f : CasFrame) : Hub × Met :=
  let ws := framePay f
  let w0 := recWord ws 0
  let n := fieldOf w0 26 4 + 1
  let data := (List.range n).map (fun i => recWord ws (2 + i))
  let r := serve fx h m (fieldOf w0 0 24) (bitOf w0 31) data n
  if f.bcast || bitOf w0 30 then (r.hub, r.met)
  else
    (r.hub.sendCtrl 0 0x0B f.src.toNat
      (w32 (r.result * 2 ^ 29 + (n - 1) * 2 ^ 25 + fieldOf (recWord ws 1) 16 16) :: (if bitOf w0 31 then [] else r.data)), r.met)

/-- RQ: a request of the master at the UP port, for this hub, for one below, or for every hub. -/
def execRq (f : CasFrame) (s : State) : Out :=
  liftBoth s (fun fx h m =>
    let r := h.rxCheck 0 1 f
    if !r.1 then (r.2, m)
    else if f.bcast || r.2.route fx f.dst.toNat == some 3 then
      -- the request is served, then a broadcast goes on below
      let a := answerRq fx (r.2.release 0 1 f.words.length) m f
      if f.bcast then
        ([1, 2].foldl (fun (x : Hub) q => if x.linkUp q then
          x.queueTx q { src := 3, cls := 1, bridge := false, f := { f with sub := 0x0A#6 } } else x) a.1, a.2)
      else a
    else (r.2.forward fx 0 { src := 0, cls := 1, bridge := false, f := { f with sub := 0x0A#6 } }, m))

/-- The master takes an answer: that of the request that waits, by its tag. -/
def Hub.takeRsp (h : Hub) (ws : List Word) : Hub :=
  let w0 := recWord ws 0
  if h.is fCasRqCtlBusy && fieldOf w0 0 16 == h.cas.tag % 65536 then
    ((if h.is fCasRqCtlWrite then h else h.rqStore (ws.drop 1)).rqEnd (fieldOf w0 29 3))
  else h

/-- RSP. -/
def execRsp (p : Fin 3) (f : CasFrame) (s : State) : Out :=
  liftHub s (fun fx h => h.takeCtrl fx p 0x0B f (fun a => a.takeRsp (framePay f)))

/-- REMOTE_TIMEOUT: 2 ms passed without an answer. -/
def execRemoteTimeout (s : State) : Out := liftHub s (fun _ h => if h.is fCasRqCtlBusy then h.rqEnd 1 else h)

end Sys2Proof.Machine
end

