-- ==== Sys2Proof/Machine/Dispatch.lean ====
section
/-! DEFINITION. One arm for each command: the call of its meaning. -/

namespace Sys2Proof.Machine
open Sys2Proof

def exec (i : Instr) (s : State) : Host.Outcome State Fault Refusal :=
  match i with
  | .porRelease => Sys2Proof.Machine.execPorRelease s
  | .refclkCountWindowEnd pass => Sys2Proof.Machine.execRefclkCountWindowEnd pass s
  | .refclkRecount pass => Sys2Proof.Machine.execRefclkRecount pass s
  | .wclkTrimComplete => Sys2Proof.Machine.execWclkTrimComplete s
  | .pllLocked p => Sys2Proof.Machine.execPllLocked p s
  | .pllLockTimeout p => Sys2Proof.Machine.execPllLockTimeout p s
  | .refclkLost => Sys2Proof.Machine.execRefclkLost s
  | .refclkReturn => Sys2Proof.Machine.execRefclkReturn s
  | .pllLost p => Sys2Proof.Machine.execPllLost p s
  | .fclkStepRequest point => Sys2Proof.Machine.execFclkStepRequest point s
  | .fclkSlewStep => Sys2Proof.Machine.execFclkSlewStep s
  | .fclkSlewDone => Sys2Proof.Machine.execFclkSlewDone s
  | .bootLoadStart => Sys2Proof.Machine.execBootLoadStart s
  | .ldrFrame flash => Sys2Proof.Machine.execLdrFrame flash s
  | .ldrTimeout => Sys2Proof.Machine.execLdrTimeout s
  | .ldrAbort => Sys2Proof.Machine.execLdrAbort s
  | .stagingDiscarded => Sys2Proof.Machine.execStagingDiscarded s
  | .ldrDataWrite words => Sys2Proof.Machine.execLdrDataWrite words s
  | .ldrCommitGo => Sys2Proof.Machine.execLdrCommitGo s
  | .ldrCommitArm chan => Sys2Proof.Machine.execLdrCommitArm chan s
  | .sectionEffectPoint sect unit => Sys2Proof.Machine.execSectionEffectPoint sect unit s
  | .metroReread words => Sys2Proof.Machine.execMetroReread words s
  | .hspWrite f => Sys2Proof.Machine.execHspWrite f s
  | .hspRead f => Sys2Proof.Machine.execHspRead f s
  | .hspCmdRefused cmd => Sys2Proof.Machine.execHspCmdRefused cmd s
  | .htwWriteRegister r w => Sys2Proof.Machine.execHtwWriteRegister r w s
  | .htwReadRegister r => Sys2Proof.Machine.execHtwReadRegister r s
  | .htwProtocolError => Sys2Proof.Machine.execHtwProtocolError s
  | .htwTransactionEnd addrBytes dataBytes => Sys2Proof.Machine.execHtwTransactionEnd addrBytes dataBytes s
  | .htwSclTimeout => Sys2Proof.Machine.execHtwSclTimeout s
  | .hostAccessWake htw => Sys2Proof.Machine.execHostAccessWake htw s
  | .glbCommitGo => Sys2Proof.Machine.execGlbCommitGo s
  | .glbCommitArm chan => Sys2Proof.Machine.execGlbCommitArm chan s
  | .resetQueue unit => Sys2Proof.Machine.execResetQueue unit s
  | .resetContext unit => Sys2Proof.Machine.execResetContext unit s
  | .resetPort unit => Sys2Proof.Machine.execResetPort unit s
  | .resetTile unit => Sys2Proof.Machine.execResetTile unit s
  | .resetLink unit => Sys2Proof.Machine.execResetLink unit s
  | .resetRadio => Sys2Proof.Machine.execResetRadio s
  | .resetFabric => Sys2Proof.Machine.execResetFabric s
  | .resetDevice => Sys2Proof.Machine.execResetDevice s
  | .registerWrite addr w => Sys2Proof.Machine.execRegisterWrite addr w s
  | .rcRead addr => Sys2Proof.Machine.execRcRead addr s
  | .portStart p => Sys2Proof.Machine.execPortStart p s
  | .heldStartTaken p => Sys2Proof.Machine.execHeldStartTaken p s
  | .portFrameComplete p lanes shadow dip keepUp parity => Sys2Proof.Machine.execPortFrameComplete p lanes shadow dip keepUp parity s
  | .targetSelectAssert p e => Sys2Proof.Machine.execTargetSelectAssert p e s
  | .targetFrameEnd p shadow keepUp parity => Sys2Proof.Machine.execTargetFrameEnd p shadow keepUp parity s
  | .targetExtraEdge p => Sys2Proof.Machine.execTargetExtraEdge p s
  | .ingressWord u parity => Sys2Proof.Machine.execIngressWord u parity s
  | .spPlanRestart p => Sys2Proof.Machine.execSpPlanRestart p s
  | .portStagedApply p => Sys2Proof.Machine.execPortStagedApply p s
  | .spStampRead p => Sys2Proof.Machine.execSpStampRead p s
  | .twPollStart c e sdaLow => Sys2Proof.Machine.execTwPollStart c e sdaLow s
  | .twHeldStartsServed c sdaLow => Sys2Proof.Machine.execTwHeldStartsServed c sdaLow s
  | .twTransactionComplete c bytes dip => Sys2Proof.Machine.execTwTransactionComplete c bytes dip s
  | .twNack x dataByte => Sys2Proof.Machine.execTwNack x dataByte s
  | .twRetry c sdaLow => Sys2Proof.Machine.execTwRetry c sdaLow s
  | .twArbitrationLost x => Sys2Proof.Machine.execTwArbitrationLost x s
  | .twBusError x => Sys2Proof.Machine.execTwBusError x s
  | .twLineTimeout x sda stillLow => Sys2Proof.Machine.execTwLineTimeout x sda stillLow s
  | .twBusClear c freed => Sys2Proof.Machine.execTwBusClear c freed s
  | .twXferGo c w => Sys2Proof.Machine.execTwXferGo c w s
  | .twXferRun c sdaLow => Sys2Proof.Machine.execTwXferRun c sdaLow s
  | .twAbort c => Sys2Proof.Machine.execTwAbort c s
  | .firEvaluation x k bad => Sys2Proof.Machine.execFirEvaluation x k bad s
  | .sieveEvaluation x k bad => Sys2Proof.Machine.execSieveEvaluation x k bad s
  | .settlePiece x k bad => Sys2Proof.Machine.execSettlePiece x k bad s
  | .resampleEvaluation x k bad => Sys2Proof.Machine.execResampleEvaluation x k bad s
  | .delayEvaluation x k bad => Sys2Proof.Machine.execDelayEvaluation x k bad s
  | .orderEvaluation x k bad => Sys2Proof.Machine.execOrderEvaluation x k bad s
  | .detectEvaluation x k bad => Sys2Proof.Machine.execDetectEvaluation x k bad s
  | .detectBlockResult c k => Sys2Proof.Machine.execDetectBlockResult c k s
  | .shadowCompare c flipTag flipVal => Sys2Proof.Machine.execShadowCompare c flipTag flipVal s
  | .digestBlockEnd c head => Sys2Proof.Machine.execDigestBlockEnd c head s
  | .digRestart c => Sys2Proof.Machine.execDigRestart c s
  | .digSeqRead c => Sys2Proof.Machine.execDigSeqRead c s
  | .contextEnableWrite c on => Sys2Proof.Machine.execContextEnableWrite c on s
  | .swapRequest t => Sys2Proof.Machine.execSwapRequest t s
  | .fadeIdleSwitch t slot => Sys2Proof.Machine.execFadeIdleSwitch t slot s
  | .coefWindowWrite t k w => Sys2Proof.Machine.execCoefWindowWrite t k w s
  | .spectralBlockComplete e j => Sys2Proof.Machine.execSpectralBlockComplete e j s
  | .spectralTransform e parity => Sys2Proof.Machine.execSpectralTransform e parity s
  | .spectralKick e j => Sys2Proof.Machine.execSpectralKick e j s
  | .timeBlockComplete c => Sys2Proof.Machine.execTimeBlockComplete c s
  | .featureSnapshot c => Sys2Proof.Machine.execFeatureSnapshot c s
  | .feaValuesRead c => Sys2Proof.Machine.execFeaValuesRead c s
  | .limitRecordEvaluate upset => Sys2Proof.Machine.execLimitRecordEvaluate upset s
  | .limEntryWordHold e k w => Sys2Proof.Machine.execLimEntryWordHold e k w s
  | .limEntryApply e w => Sys2Proof.Machine.execLimEntryApply e w s
  | .limitScrubRead upset => Sys2Proof.Machine.execLimitScrubRead upset s
  | .channelFire n => Sys2Proof.Machine.execChannelFire n s
  | .heldFiringRelease n => Sys2Proof.Machine.execHeldFiringRelease n s
  | .watchdogWindowEnd n => Sys2Proof.Machine.execWatchdogWindowEnd n s
  | .stormClear k w => Sys2Proof.Machine.execStormClear k w s
  | .evFire w => Sys2Proof.Machine.execEvFire w s
  | .evStampRead n => Sys2Proof.Machine.execEvStampRead n s
  | .queueProducerWrite producer => Sys2Proof.Machine.execQueueProducerWrite producer s
  | .queueSpill q ptr => Sys2Proof.Machine.execQueueSpill q ptr s
  | .queueRefill q ptr upsets => Sys2Proof.Machine.execQueueRefill q ptr upsets s
  | .queueWindowRead q payload => Sys2Proof.Machine.execQueueWindowRead q payload s
  | .queueFlush x => Sys2Proof.Machine.execQueueFlush x s
  | .ringLineWrite c => Sys2Proof.Machine.execRingLineWrite c s
  | .ringArm c => Sys2Proof.Machine.execRingArm c s
  | .ringFire c => Sys2Proof.Machine.execRingFire c s
  | .captureReadout c upsets => Sys2Proof.Machine.execCaptureReadout c upsets s
  | .dbgRead k upset => Sys2Proof.Machine.execDbgRead k upset s
  | .dbgWriteLow k w => Sys2Proof.Machine.execDbgWriteLow k w s
  | .dbgWriteHigh k w => Sys2Proof.Machine.execDbgWriteHigh k w s
  | .tmNowRead n => Sys2Proof.Machine.execTmNowRead n s
  | .slewEnd n => Sys2Proof.Machine.execSlewEnd n s
  | .triggerDue g => Sys2Proof.Machine.execTriggerDue g s
  | .triggerEnableWrite g w => Sys2Proof.Machine.execTriggerEnableWrite g w s
  | .trgPulseEnd k => Sys2Proof.Machine.execTrgPulseEnd k s
  | .tachEdge t rising => Sys2Proof.Machine.execTachEdge t rising s
  | .tachStampRead t => Sys2Proof.Machine.execTachStampRead t s
  | .ktHeldWordWrite a k w => Sys2Proof.Machine.execKtHeldWordWrite a k w s
  | .ktCtlWrite a w => Sys2Proof.Machine.execKtCtlWrite a w s
  | .ktActionDue a => Sys2Proof.Machine.execKtActionDue a s
  | .sleepRequest => Sys2Proof.Machine.execSleepRequest s
  | .kettleWake src ticks => Sys2Proof.Machine.execKettleWake src ticks s
  | .ktWakeTimer => Sys2Proof.Machine.execKtWakeTimer s
  | .linkSignalFound p => Sys2Proof.Machine.execLinkSignalFound p s
  | .linkTrained p role cmstr same device delay => Sys2Proof.Machine.execLinkTrained p role cmstr same device delay s
  | .linkLoss p => Sys2Proof.Machine.execLinkLoss p s
  | .linkReturn p role device => Sys2Proof.Machine.execLinkReturn p role device s
  | .holdExpire p => Sys2Proof.Machine.execHoldExpire p s
  | .credit p cls n => Sys2Proof.Machine.execCredit p cls n s
  | .ack p cls seq => Sys2Proof.Machine.execAck p cls seq s
  | .nak p cls seq => Sys2Proof.Machine.execNak p cls seq s
  | .retransmitTimeout p cls => Sys2Proof.Machine.execRetransmitTimeout p cls s
  | .frameTransmit p => Sys2Proof.Machine.execFrameTransmit p s
  | .dataFrameIdleClose => Sys2Proof.Machine.execDataFrameIdleClose s
  | .timeExchangeStart => Sys2Proof.Machine.execTimeExchangeStart s
  | .sync num => Sys2Proof.Machine.execSync num s
  | .dreqSend => Sys2Proof.Machine.execDreqSend s
  | .dreq p num => Sys2Proof.Machine.execDreq p num s
  | .timeFrameReceive f => Sys2Proof.Machine.execTimeFrameReceive f s
  | .enumGo => Sys2Proof.Machine.execEnumGo s
  | .masterSelfEnum => Sys2Proof.Machine.execMasterSelfEnum s
  | .enumTimeout => Sys2Proof.Machine.execEnumTimeout s
  | .enum p f => Sys2Proof.Machine.execEnum p f s
  | .enumDone p f => Sys2Proof.Machine.execEnumDone p f s
  | .enumEnd f => Sys2Proof.Machine.execEnumEnd f s
  | .enumFail p f => Sys2Proof.Machine.execEnumFail p f s
  | .lost p f => Sys2Proof.Machine.execLost p f s
  | .renum f => Sys2Proof.Machine.execRenum f s
  | .bitstream p f => Sys2Proof.Machine.execBitstream p f s
  | .notify p f => Sys2Proof.Machine.execNotify p f s
  | .rq f => Sys2Proof.Machine.execRq f s
  | .rsp p f => Sys2Proof.Machine.execRsp p f s
  | .logFrameReceive p f => Sys2Proof.Machine.execLogFrameReceive p f s
  | .unknownCtrlFrame p f => Sys2Proof.Machine.execUnknownCtrlFrame p f s
  | .alarmFrameReceive p f => Sys2Proof.Machine.execAlarmFrameReceive p f s
  | .dataFrameReceive p f => Sys2Proof.Machine.execDataFrameReceive p f s
  | .bridgeFrameReceive p f => Sys2Proof.Machine.execBridgeFrameReceive p f s
  | .bridgeSampleRelease b => Sys2Proof.Machine.execBridgeSampleRelease b s
  | .casRqGo => Sys2Proof.Machine.execCasRqGo s
  | .remoteTimeout => Sys2Proof.Machine.execRemoteTimeout s
  | .casBsDataWrite words => Sys2Proof.Machine.execCasBsDataWrite words s
  | .radCmdSleep w => Sys2Proof.Machine.execRadCmdSleep w s
  | .radCmdStandby w => Sys2Proof.Machine.execRadCmdStandby w s
  | .radCmdRx w => Sys2Proof.Machine.execRadCmdRx w s
  | .radCmdTx w => Sys2Proof.Machine.execRadCmdTx w s
  | .radCmdCal w => Sys2Proof.Machine.execRadCmdCal w s
  | .radCmdAbort w => Sys2Proof.Machine.execRadCmdAbort w s
  | .radioStateReached => Sys2Proof.Machine.execRadioStateReached s
  | .txNoLock => Sys2Proof.Machine.execTxNoLock s
  | .synthLockLost => Sys2Proof.Machine.execSynthLockLost s
  | .radioCalStepStart step => Sys2Proof.Machine.execRadioCalStepStart step s
  | .radioCalStepDone temp => Sys2Proof.Machine.execRadioCalStepDone temp s
  | .slotAction => Sys2Proof.Machine.execSlotAction s
  | .radioFrameReceived f => Sys2Proof.Machine.execRadioFrameReceived f s
  | .joinReceived f => Sys2Proof.Machine.execJoinReceived f s
  | .nodeLost n => Sys2Proof.Machine.execNodeLost n s
  | .radioSampleRelease n => Sys2Proof.Machine.execRadioSampleRelease n s
  | .dctlReady n => Sys2Proof.Machine.execDctlReady n s
  | .radioHang => Sys2Proof.Machine.execRadioHang s
  | .wakeCmdHub addr => Sys2Proof.Machine.execWakeCmdHub addr s
  | .wakeCmdHost addr => Sys2Proof.Machine.execWakeCmdHost addr s
  | .wakeCmdBoth addr => Sys2Proof.Machine.execWakeCmdBoth addr s
  | .wakeCmdOther addr => Sys2Proof.Machine.execWakeCmdOther addr s
  | .wakeTelegramBad => Sys2Proof.Machine.execWakeTelegramBad s
  | .metSample ch v f mclk => Sys2Proof.Machine.execMetSample ch v f mclk s
  | .metSampleRelease ch => Sys2Proof.Machine.execMetSampleRelease ch s
  | .rotationStepStart => Sys2Proof.Machine.execRotationStepStart s
  | .spareCalibrationDone offset gain => Sys2Proof.Machine.execSpareCalibrationDone offset gain s
  | .seamEvaluation pairs => Sys2Proof.Machine.execSeamEvaluation pairs s
  | .severitySecond ch v => Sys2Proof.Machine.execSeveritySecond ch v s
  | .severityIntervalEnd => Sys2Proof.Machine.execSeverityIntervalEnd s
  | .mbSetTime => Sys2Proof.Machine.execMbSetTime s
  | .mbSeal mlid => Sys2Proof.Machine.execMbSeal mlid s
  | .mbUnseal mlid => Sys2Proof.Machine.execMbUnseal mlid s
  | .mbRetire mlid => Sys2Proof.Machine.execMbRetire mlid s
  | .mbDiscard => Sys2Proof.Machine.execMbDiscard s
  | .mbArchive => Sys2Proof.Machine.execMbArchive s
  | .mbLogSeek => Sys2Proof.Machine.execMbLogSeek s
  | .mbCalibrate => Sys2Proof.Machine.execMbCalibrate s
  | .calibrateEnd => Sys2Proof.Machine.execCalibrateEnd s
  | .mbUnknownOp => Sys2Proof.Machine.execMbUnknownOp s
  | .followNetAdjust => Sys2Proof.Machine.execFollowNetAdjust s
  | .followerSteer => Sys2Proof.Machine.execFollowerSteer s
  | .followerReload => Sys2Proof.Machine.execFollowerReload s
  | .alignPulse phase => Sys2Proof.Machine.execAlignPulse phase s
  | .mpor nmrst torn => Sys2Proof.Machine.execMpor nmrst torn s
  | .feramScan r => Sys2Proof.Machine.execFeramScan r s
  | .cfgCheckUnit sect unit cell flip => Sys2Proof.Machine.execCfgCheckUnit sect unit cell flip s
  | .recoveryEnd scope unit => Sys2Proof.Machine.execRecoveryEnd scope unit s
  | .recTimeout scope unit => Sys2Proof.Machine.execRecTimeout scope unit s
  | .bucketTokenAdd b => Sys2Proof.Machine.execBucketTokenAdd b s
  | .stGo w => Sys2Proof.Machine.execStGo w s
  | .stAbort w => Sys2Proof.Machine.execStAbort w s
  | .stComplete g r => Sys2Proof.Machine.execStComplete g r s
  | .stStarved g => Sys2Proof.Machine.execStStarved g s
  | .stRestorePassDone g => Sys2Proof.Machine.execStRestorePassDone g s
  | .controlCycle margins drift temp eyes => Sys2Proof.Machine.execControlCycle margins drift temp eyes s
  | .vddcSettled => Sys2Proof.Machine.execVddcSettled s
  | .wclkRetrimApply => Sys2Proof.Machine.execWclkRetrimApply s
  | .supplyWarning rail mv => Sys2Proof.Machine.execSupplyWarning rail mv s
  | .supplyRecovered rail => Sys2Proof.Machine.execSupplyRecovered rail s
  | .recoveryWindowRestart rail => Sys2Proof.Machine.execRecoveryWindowRestart rail s
  | .dipSample rail mv => Sys2Proof.Machine.execDipSample rail mv s
  | .reducedEnter => Sys2Proof.Machine.execReducedEnter s
  | .railResetLevel rail => Sys2Proof.Machine.execRailResetLevel rail s
  | .railRelease rail hi => Sys2Proof.Machine.execRailRelease rail hi s
  | .nrstLow => Sys2Proof.Machine.execNrstLow s
  | .targetCaptureEdge p bits dip shadow keepUp parity => Sys2Proof.Machine.execTargetCaptureEdge p bits dip shadow keepUp parity s
  | .holdPeriodsComplete p => Sys2Proof.Machine.execHoldPeriodsComplete p s
  | .partnerDisconnected p => Sys2Proof.Machine.execPartnerDisconnected p s
  | .txComplete => Sys2Proof.Machine.execTxComplete s
  | .rxWindowEnd => Sys2Proof.Machine.execRxWindowEnd s
  | .slotEnd arriving => Sys2Proof.Machine.execSlotEnd arriving s
  | .xclkOscillatorStep up => Sys2Proof.Machine.execXclkOscillatorStep up s
  | .aclkStart => Sys2Proof.Machine.execAclkStart s
  | .lifeCycleFactoryChange state => Sys2Proof.Machine.execLifeCycleFactoryChange state s

end Sys2Proof.Machine
end

