-- ==== Sys2Proof/Machine/Idle.lean ====
section
/-! DEFINITION. What the hub does while no command waits. -/

namespace Sys2Proof.Machine
open Sys2Proof

/-- One TCLK cycle passes (spec/12 R307): once the clock gates are open and unless the hub sleeps, the cycle counter and every
timebase advance. -/
def idle (s : State) : Out := liftHub s (fun _ h => if h.asleep then h else h.tickN 1)

end Sys2Proof.Machine
end

