-- ==== Sys2Proof/Machine/Step.lean ====
section
/-! DEFINITION. A step of the hub: the command that waits longest, or one TCLK cycle when none waits. -/

namespace Sys2Proof.Machine
open Sys2Proof

/-- Take the command at the front of the queue; with none waiting, a TCLK cycle passes (DESIGN CHOICE, log entry 1). -/
def step (s : State) : Host.Outcome State Fault Refusal :=
  match s.pending with
  | [] => idle s
  | c :: rest => exec c { s with pending := rest }

/-- The state with the command a word spells put at the front of the queue: no word spells one. -/
def State.withFetchWord (s : State) (nbits w : Nat) : State :=
  match decodeTableWord nbits w with
  | some c => { s with pending := c :: s.pending }
  | none => s

end Sys2Proof.Machine
end

