-- ==== Sys2Proof/WellFormed.lean ====
section
/-! DEFINITION. Which command terms spell something that can reach the hub: the bounds on frames and lists that the operand
types alone do not say. Unit numbers of fixed ranges are already bounded by their types. -/

namespace Sys2Proof

/-- A host frame holds as many words as its count byte says (spec/03 R61, R62). -/
def HspFrame.wf (f : HspFrame) : Bool := decide (f.words.length ≤ 256)

/-- The count field of a cascade frame spells at most 512 queue words (spec/13 R335). -/
def CasFrame.wf (f : CasFrame) : Bool := decide (f.words.length ≤ 512)

/-- A received radio frame has at most 127 octets (spec/14 R370). -/
def RadFrame.wf (f : RadFrame) : Bool := decide (f.bytes.length ≤ 127)

/-- Lanes captured by a sample port: at most four (spec/04 R87). -/
def lanesWf (l : List Nat) : Bool := decide (l.length ≤ 4)

/-- A command term is well formed. -/
def Instr.wf : Instr → Bool
  | .hspWrite f => f.wf
  | .hspRead f => f.wf && f.words.isEmpty
  | .portFrameComplete _ lanes shadow _ _ _ => lanesWf lanes && decide (shadow.length ≤ 4)
  | .enum _ f => f.wf
  | .enumDone _ f => f.wf
  | .enumEnd f => f.wf
  | .enumFail _ f => f.wf
  | .lost _ f => f.wf
  | .renum f => f.wf
  | .bitstream _ f => f.wf
  | .notify _ f => f.wf
  | .rq f => f.wf
  | .rsp _ f => f.wf
  | .timeFrameReceive f => f.wf && decide (f.words.length = 8)
  | .logFrameReceive _ f => f.wf
  | .unknownCtrlFrame _ f => f.wf
  | .alarmFrameReceive _ f => f.wf
  | .dataFrameReceive _ f => f.wf
  | .bridgeFrameReceive _ f => f.wf
  | .radioFrameReceived f => f.wf
  | .joinReceived f => f.wf
  | _ => true

end Sys2Proof
end

