-- ==== Sys2Proof/Laws/PerInstr.lean ====
section
/-! SUPPORT. What holds of each command as a term: no word of the table's bits spells it, for no row has any, and it is well
formed unless it is one of those that carry a frame or lanes of limited size (spec/03 R61, spec/04 R87, spec/13 R335, spec/14
R370). -/

namespace Sys2Proof.Laws.Spelling
open Sys2Proof

/-- A command that carries a frame or lanes of limited size. -/
def limited (i : Instr) : Bool :=
  match i with
  | .hspWrite _ | .hspRead _ | .portFrameComplete _ _ _ _ _ _ | .enum _ _ | .enumDone _ _ | .enumEnd _ | .enumFail _ _
  | .lost _ _ | .renum _ | .bitstream _ _ | .notify _ _ | .rq _ | .rsp _ _ | .timeFrameReceive _
  | .logFrameReceive _ _ | .unknownCtrlFrame _ _ | .alarmFrameReceive _ _ | .dataFrameReceive _ _
  | .bridgeFrameReceive _ _ | .radioFrameReceived _ | .joinReceived _ => true
  | _ => false

/-- No word spells the command, and only a limited one can be ill formed. -/
def Statement (i : Instr) : Prop := (∀ nbits w, decodeTableWord nbits w ≠ some i) ∧ (limited i = false → i.wf = true)

/-- No word spells any command. -/
theorem no_word (i : Instr) (nbits w : Nat) : decodeTableWord nbits w ≠ some i := fun h => nomatch h

theorem porRelease : Statement .porRelease := ⟨no_word _, fun _ => rfl⟩
theorem refclkCountWindowEnd (x0) : Statement (.refclkCountWindowEnd x0) := ⟨no_word _, fun _ => rfl⟩
theorem refclkRecount (x0) : Statement (.refclkRecount x0) := ⟨no_word _, fun _ => rfl⟩
theorem wclkTrimComplete : Statement .wclkTrimComplete := ⟨no_word _, fun _ => rfl⟩
theorem pllLocked (x0) : Statement (.pllLocked x0) := ⟨no_word _, fun _ => rfl⟩
theorem pllLockTimeout (x0) : Statement (.pllLockTimeout x0) := ⟨no_word _, fun _ => rfl⟩
theorem refclkLost : Statement .refclkLost := ⟨no_word _, fun _ => rfl⟩
theorem refclkReturn : Statement .refclkReturn := ⟨no_word _, fun _ => rfl⟩
theorem pllLost (x0) : Statement (.pllLost x0) := ⟨no_word _, fun _ => rfl⟩
theorem fclkStepRequest (x0) : Statement (.fclkStepRequest x0) := ⟨no_word _, fun _ => rfl⟩
theorem fclkSlewStep : Statement .fclkSlewStep := ⟨no_word _, fun _ => rfl⟩
theorem fclkSlewDone : Statement .fclkSlewDone := ⟨no_word _, fun _ => rfl⟩
theorem bootLoadStart : Statement .bootLoadStart := ⟨no_word _, fun _ => rfl⟩
theorem ldrFrame (x0) : Statement (.ldrFrame x0) := ⟨no_word _, fun _ => rfl⟩
theorem ldrTimeout : Statement .ldrTimeout := ⟨no_word _, fun _ => rfl⟩
theorem ldrAbort : Statement .ldrAbort := ⟨no_word _, fun _ => rfl⟩
theorem stagingDiscarded : Statement .stagingDiscarded := ⟨no_word _, fun _ => rfl⟩
theorem ldrDataWrite (x0) : Statement (.ldrDataWrite x0) := ⟨no_word _, fun _ => rfl⟩
theorem ldrCommitGo : Statement .ldrCommitGo := ⟨no_word _, fun _ => rfl⟩
theorem ldrCommitArm (x0) : Statement (.ldrCommitArm x0) := ⟨no_word _, fun _ => rfl⟩
theorem sectionEffectPoint (x0 x1) : Statement (.sectionEffectPoint x0 x1) := ⟨no_word _, fun _ => rfl⟩
theorem metroReread (x0) : Statement (.metroReread x0) := ⟨no_word _, fun _ => rfl⟩
theorem hspWrite (x0) : Statement (.hspWrite x0) := ⟨no_word _, fun h => nomatch h⟩
theorem hspRead (x0) : Statement (.hspRead x0) := ⟨no_word _, fun h => nomatch h⟩
theorem hspCmdRefused (x0) : Statement (.hspCmdRefused x0) := ⟨no_word _, fun _ => rfl⟩
theorem htwWriteRegister (x0 x1) : Statement (.htwWriteRegister x0 x1) := ⟨no_word _, fun _ => rfl⟩
theorem htwReadRegister (x0) : Statement (.htwReadRegister x0) := ⟨no_word _, fun _ => rfl⟩
theorem htwProtocolError : Statement .htwProtocolError := ⟨no_word _, fun _ => rfl⟩
theorem htwTransactionEnd (x0 x1) : Statement (.htwTransactionEnd x0 x1) := ⟨no_word _, fun _ => rfl⟩
theorem htwSclTimeout : Statement .htwSclTimeout := ⟨no_word _, fun _ => rfl⟩
theorem hostAccessWake (x0) : Statement (.hostAccessWake x0) := ⟨no_word _, fun _ => rfl⟩
theorem glbCommitGo : Statement .glbCommitGo := ⟨no_word _, fun _ => rfl⟩
theorem glbCommitArm (x0) : Statement (.glbCommitArm x0) := ⟨no_word _, fun _ => rfl⟩
theorem resetQueue (x0) : Statement (.resetQueue x0) := ⟨no_word _, fun _ => rfl⟩
theorem resetContext (x0) : Statement (.resetContext x0) := ⟨no_word _, fun _ => rfl⟩
theorem resetPort (x0) : Statement (.resetPort x0) := ⟨no_word _, fun _ => rfl⟩
theorem resetTile (x0) : Statement (.resetTile x0) := ⟨no_word _, fun _ => rfl⟩
theorem resetLink (x0) : Statement (.resetLink x0) := ⟨no_word _, fun _ => rfl⟩
theorem resetRadio : Statement .resetRadio := ⟨no_word _, fun _ => rfl⟩
theorem resetFabric : Statement .resetFabric := ⟨no_word _, fun _ => rfl⟩
theorem resetDevice : Statement .resetDevice := ⟨no_word _, fun _ => rfl⟩
theorem registerWrite (x0 x1) : Statement (.registerWrite x0 x1) := ⟨no_word _, fun _ => rfl⟩
theorem rcRead (x0) : Statement (.rcRead x0) := ⟨no_word _, fun _ => rfl⟩
theorem portStart (x0) : Statement (.portStart x0) := ⟨no_word _, fun _ => rfl⟩
theorem heldStartTaken (x0) : Statement (.heldStartTaken x0) := ⟨no_word _, fun _ => rfl⟩
theorem portFrameComplete (x0 x1 x2 x3 x4 x5) : Statement (.portFrameComplete x0 x1 x2 x3 x4 x5) := ⟨no_word _, fun h => nomatch h⟩
theorem targetSelectAssert (x0 x1) : Statement (.targetSelectAssert x0 x1) := ⟨no_word _, fun _ => rfl⟩
theorem targetFrameEnd (x0 x1 x2 x3) : Statement (.targetFrameEnd x0 x1 x2 x3) := ⟨no_word _, fun _ => rfl⟩
theorem targetExtraEdge (x0) : Statement (.targetExtraEdge x0) := ⟨no_word _, fun _ => rfl⟩
theorem ingressWord (x0 x1) : Statement (.ingressWord x0 x1) := ⟨no_word _, fun _ => rfl⟩
theorem spPlanRestart (x0) : Statement (.spPlanRestart x0) := ⟨no_word _, fun _ => rfl⟩
theorem portStagedApply (x0) : Statement (.portStagedApply x0) := ⟨no_word _, fun _ => rfl⟩
theorem spStampRead (x0) : Statement (.spStampRead x0) := ⟨no_word _, fun _ => rfl⟩
theorem twPollStart (x0 x1 x2) : Statement (.twPollStart x0 x1 x2) := ⟨no_word _, fun _ => rfl⟩
theorem twHeldStartsServed (x0 x1) : Statement (.twHeldStartsServed x0 x1) := ⟨no_word _, fun _ => rfl⟩
theorem twTransactionComplete (x0 x1 x2) : Statement (.twTransactionComplete x0 x1 x2) := ⟨no_word _, fun _ => rfl⟩
theorem twNack (x0 x1) : Statement (.twNack x0 x1) := ⟨no_word _, fun _ => rfl⟩
theorem twRetry (x0 x1) : Statement (.twRetry x0 x1) := ⟨no_word _, fun _ => rfl⟩
theorem twArbitrationLost (x0) : Statement (.twArbitrationLost x0) := ⟨no_word _, fun _ => rfl⟩
theorem twBusError (x0) : Statement (.twBusError x0) := ⟨no_word _, fun _ => rfl⟩
theorem twLineTimeout (x0 x1 x2) : Statement (.twLineTimeout x0 x1 x2) := ⟨no_word _, fun _ => rfl⟩
theorem twBusClear (x0 x1) : Statement (.twBusClear x0 x1) := ⟨no_word _, fun _ => rfl⟩
theorem twXferGo (x0 x1) : Statement (.twXferGo x0 x1) := ⟨no_word _, fun _ => rfl⟩
theorem twXferRun (x0 x1) : Statement (.twXferRun x0 x1) := ⟨no_word _, fun _ => rfl⟩
theorem twAbort (x0) : Statement (.twAbort x0) := ⟨no_word _, fun _ => rfl⟩
theorem firEvaluation (x0 x1 x2) : Statement (.firEvaluation x0 x1 x2) := ⟨no_word _, fun _ => rfl⟩
theorem sieveEvaluation (x0 x1 x2) : Statement (.sieveEvaluation x0 x1 x2) := ⟨no_word _, fun _ => rfl⟩
theorem settlePiece (x0 x1 x2) : Statement (.settlePiece x0 x1 x2) := ⟨no_word _, fun _ => rfl⟩
theorem resampleEvaluation (x0 x1 x2) : Statement (.resampleEvaluation x0 x1 x2) := ⟨no_word _, fun _ => rfl⟩
theorem delayEvaluation (x0 x1 x2) : Statement (.delayEvaluation x0 x1 x2) := ⟨no_word _, fun _ => rfl⟩
theorem orderEvaluation (x0 x1 x2) : Statement (.orderEvaluation x0 x1 x2) := ⟨no_word _, fun _ => rfl⟩
theorem detectEvaluation (x0 x1 x2) : Statement (.detectEvaluation x0 x1 x2) := ⟨no_word _, fun _ => rfl⟩
theorem detectBlockResult (x0 x1) : Statement (.detectBlockResult x0 x1) := ⟨no_word _, fun _ => rfl⟩
theorem shadowCompare (x0 x1 x2) : Statement (.shadowCompare x0 x1 x2) := ⟨no_word _, fun _ => rfl⟩
theorem digestBlockEnd (x0 x1) : Statement (.digestBlockEnd x0 x1) := ⟨no_word _, fun _ => rfl⟩
theorem digRestart (x0) : Statement (.digRestart x0) := ⟨no_word _, fun _ => rfl⟩
theorem digSeqRead (x0) : Statement (.digSeqRead x0) := ⟨no_word _, fun _ => rfl⟩
theorem contextEnableWrite (x0 x1) : Statement (.contextEnableWrite x0 x1) := ⟨no_word _, fun _ => rfl⟩
theorem swapRequest (x0) : Statement (.swapRequest x0) := ⟨no_word _, fun _ => rfl⟩
theorem fadeIdleSwitch (x0 x1) : Statement (.fadeIdleSwitch x0 x1) := ⟨no_word _, fun _ => rfl⟩
theorem coefWindowWrite (x0 x1 x2) : Statement (.coefWindowWrite x0 x1 x2) := ⟨no_word _, fun _ => rfl⟩
theorem spectralBlockComplete (x0 x1) : Statement (.spectralBlockComplete x0 x1) := ⟨no_word _, fun _ => rfl⟩
theorem spectralTransform (x0 x1) : Statement (.spectralTransform x0 x1) := ⟨no_word _, fun _ => rfl⟩
theorem spectralKick (x0 x1) : Statement (.spectralKick x0 x1) := ⟨no_word _, fun _ => rfl⟩
theorem timeBlockComplete (x0) : Statement (.timeBlockComplete x0) := ⟨no_word _, fun _ => rfl⟩
theorem featureSnapshot (x0) : Statement (.featureSnapshot x0) := ⟨no_word _, fun _ => rfl⟩
theorem feaValuesRead (x0) : Statement (.feaValuesRead x0) := ⟨no_word _, fun _ => rfl⟩
theorem limitRecordEvaluate (x0) : Statement (.limitRecordEvaluate x0) := ⟨no_word _, fun _ => rfl⟩
theorem limEntryWordHold (x0 x1 x2) : Statement (.limEntryWordHold x0 x1 x2) := ⟨no_word _, fun _ => rfl⟩
theorem limEntryApply (x0 x1) : Statement (.limEntryApply x0 x1) := ⟨no_word _, fun _ => rfl⟩
theorem limitScrubRead (x0) : Statement (.limitScrubRead x0) := ⟨no_word _, fun _ => rfl⟩
theorem channelFire (x0) : Statement (.channelFire x0) := ⟨no_word _, fun _ => rfl⟩
theorem heldFiringRelease (x0) : Statement (.heldFiringRelease x0) := ⟨no_word _, fun _ => rfl⟩
theorem watchdogWindowEnd (x0) : Statement (.watchdogWindowEnd x0) := ⟨no_word _, fun _ => rfl⟩
theorem stormClear (x0 x1) : Statement (.stormClear x0 x1) := ⟨no_word _, fun _ => rfl⟩
theorem evFire (x0) : Statement (.evFire x0) := ⟨no_word _, fun _ => rfl⟩
theorem evStampRead (x0) : Statement (.evStampRead x0) := ⟨no_word _, fun _ => rfl⟩
theorem queueProducerWrite (x0) : Statement (.queueProducerWrite x0) := ⟨no_word _, fun _ => rfl⟩
theorem queueSpill (x0 x1) : Statement (.queueSpill x0 x1) := ⟨no_word _, fun _ => rfl⟩
theorem queueRefill (x0 x1 x2) : Statement (.queueRefill x0 x1 x2) := ⟨no_word _, fun _ => rfl⟩
theorem queueWindowRead (x0 x1) : Statement (.queueWindowRead x0 x1) := ⟨no_word _, fun _ => rfl⟩
theorem queueFlush (x0) : Statement (.queueFlush x0) := ⟨no_word _, fun _ => rfl⟩
theorem ringLineWrite (x0) : Statement (.ringLineWrite x0) := ⟨no_word _, fun _ => rfl⟩
theorem ringArm (x0) : Statement (.ringArm x0) := ⟨no_word _, fun _ => rfl⟩
theorem ringFire (x0) : Statement (.ringFire x0) := ⟨no_word _, fun _ => rfl⟩
theorem captureReadout (x0 x1) : Statement (.captureReadout x0 x1) := ⟨no_word _, fun _ => rfl⟩
theorem dbgRead (x0 x1) : Statement (.dbgRead x0 x1) := ⟨no_word _, fun _ => rfl⟩
theorem dbgWriteLow (x0 x1) : Statement (.dbgWriteLow x0 x1) := ⟨no_word _, fun _ => rfl⟩
theorem dbgWriteHigh (x0 x1) : Statement (.dbgWriteHigh x0 x1) := ⟨no_word _, fun _ => rfl⟩
theorem tmNowRead (x0) : Statement (.tmNowRead x0) := ⟨no_word _, fun _ => rfl⟩
theorem slewEnd (x0) : Statement (.slewEnd x0) := ⟨no_word _, fun _ => rfl⟩
theorem triggerDue (x0) : Statement (.triggerDue x0) := ⟨no_word _, fun _ => rfl⟩
theorem triggerEnableWrite (x0 x1) : Statement (.triggerEnableWrite x0 x1) := ⟨no_word _, fun _ => rfl⟩
theorem trgPulseEnd (x0) : Statement (.trgPulseEnd x0) := ⟨no_word _, fun _ => rfl⟩
theorem tachEdge (x0 x1) : Statement (.tachEdge x0 x1) := ⟨no_word _, fun _ => rfl⟩
theorem tachStampRead (x0) : Statement (.tachStampRead x0) := ⟨no_word _, fun _ => rfl⟩
theorem ktHeldWordWrite (x0 x1 x2) : Statement (.ktHeldWordWrite x0 x1 x2) := ⟨no_word _, fun _ => rfl⟩
theorem ktCtlWrite (x0 x1) : Statement (.ktCtlWrite x0 x1) := ⟨no_word _, fun _ => rfl⟩
theorem ktActionDue (x0) : Statement (.ktActionDue x0) := ⟨no_word _, fun _ => rfl⟩
theorem sleepRequest : Statement .sleepRequest := ⟨no_word _, fun _ => rfl⟩
theorem kettleWake (x0 x1) : Statement (.kettleWake x0 x1) := ⟨no_word _, fun _ => rfl⟩
theorem ktWakeTimer : Statement .ktWakeTimer := ⟨no_word _, fun _ => rfl⟩
theorem linkSignalFound (x0) : Statement (.linkSignalFound x0) := ⟨no_word _, fun _ => rfl⟩
theorem linkTrained (x0 x1 x2 x3 x4 x5) : Statement (.linkTrained x0 x1 x2 x3 x4 x5) := ⟨no_word _, fun _ => rfl⟩
theorem linkLoss (x0) : Statement (.linkLoss x0) := ⟨no_word _, fun _ => rfl⟩
theorem linkReturn (x0 x1 x2) : Statement (.linkReturn x0 x1 x2) := ⟨no_word _, fun _ => rfl⟩
theorem holdExpire (x0) : Statement (.holdExpire x0) := ⟨no_word _, fun _ => rfl⟩
theorem credit (x0 x1 x2) : Statement (.credit x0 x1 x2) := ⟨no_word _, fun _ => rfl⟩
theorem ack (x0 x1 x2) : Statement (.ack x0 x1 x2) := ⟨no_word _, fun _ => rfl⟩
theorem nak (x0 x1 x2) : Statement (.nak x0 x1 x2) := ⟨no_word _, fun _ => rfl⟩
theorem retransmitTimeout (x0 x1) : Statement (.retransmitTimeout x0 x1) := ⟨no_word _, fun _ => rfl⟩
theorem frameTransmit (x0) : Statement (.frameTransmit x0) := ⟨no_word _, fun _ => rfl⟩
theorem dataFrameIdleClose : Statement .dataFrameIdleClose := ⟨no_word _, fun _ => rfl⟩
theorem timeExchangeStart : Statement .timeExchangeStart := ⟨no_word _, fun _ => rfl⟩
theorem sync (x0) : Statement (.sync x0) := ⟨no_word _, fun _ => rfl⟩
theorem dreqSend : Statement .dreqSend := ⟨no_word _, fun _ => rfl⟩
theorem dreq (x0 x1) : Statement (.dreq x0 x1) := ⟨no_word _, fun _ => rfl⟩
theorem timeFrameReceive (x0) : Statement (.timeFrameReceive x0) := ⟨no_word _, fun h => nomatch h⟩
theorem enumGo : Statement .enumGo := ⟨no_word _, fun _ => rfl⟩
theorem masterSelfEnum : Statement .masterSelfEnum := ⟨no_word _, fun _ => rfl⟩
theorem enumTimeout : Statement .enumTimeout := ⟨no_word _, fun _ => rfl⟩
theorem enum (x0 x1) : Statement (.enum x0 x1) := ⟨no_word _, fun h => nomatch h⟩
theorem enumDone (x0 x1) : Statement (.enumDone x0 x1) := ⟨no_word _, fun h => nomatch h⟩
theorem enumEnd (x0) : Statement (.enumEnd x0) := ⟨no_word _, fun h => nomatch h⟩
theorem enumFail (x0 x1) : Statement (.enumFail x0 x1) := ⟨no_word _, fun h => nomatch h⟩
theorem lost (x0 x1) : Statement (.lost x0 x1) := ⟨no_word _, fun h => nomatch h⟩
theorem renum (x0) : Statement (.renum x0) := ⟨no_word _, fun h => nomatch h⟩
theorem bitstream (x0 x1) : Statement (.bitstream x0 x1) := ⟨no_word _, fun h => nomatch h⟩
theorem notify (x0 x1) : Statement (.notify x0 x1) := ⟨no_word _, fun h => nomatch h⟩
theorem rq (x0) : Statement (.rq x0) := ⟨no_word _, fun h => nomatch h⟩
theorem rsp (x0 x1) : Statement (.rsp x0 x1) := ⟨no_word _, fun h => nomatch h⟩
theorem logFrameReceive (x0 x1) : Statement (.logFrameReceive x0 x1) := ⟨no_word _, fun h => nomatch h⟩
theorem unknownCtrlFrame (x0 x1) : Statement (.unknownCtrlFrame x0 x1) := ⟨no_word _, fun h => nomatch h⟩
theorem alarmFrameReceive (x0 x1) : Statement (.alarmFrameReceive x0 x1) := ⟨no_word _, fun h => nomatch h⟩
theorem dataFrameReceive (x0 x1) : Statement (.dataFrameReceive x0 x1) := ⟨no_word _, fun h => nomatch h⟩
theorem bridgeFrameReceive (x0 x1) : Statement (.bridgeFrameReceive x0 x1) := ⟨no_word _, fun h => nomatch h⟩
theorem bridgeSampleRelease (x0) : Statement (.bridgeSampleRelease x0) := ⟨no_word _, fun _ => rfl⟩
theorem casRqGo : Statement .casRqGo := ⟨no_word _, fun _ => rfl⟩
theorem remoteTimeout : Statement .remoteTimeout := ⟨no_word _, fun _ => rfl⟩
theorem casBsDataWrite (x0) : Statement (.casBsDataWrite x0) := ⟨no_word _, fun _ => rfl⟩
theorem radCmdSleep (x0) : Statement (.radCmdSleep x0) := ⟨no_word _, fun _ => rfl⟩
theorem radCmdStandby (x0) : Statement (.radCmdStandby x0) := ⟨no_word _, fun _ => rfl⟩
theorem radCmdRx (x0) : Statement (.radCmdRx x0) := ⟨no_word _, fun _ => rfl⟩
theorem radCmdTx (x0) : Statement (.radCmdTx x0) := ⟨no_word _, fun _ => rfl⟩
theorem radCmdCal (x0) : Statement (.radCmdCal x0) := ⟨no_word _, fun _ => rfl⟩
theorem radCmdAbort (x0) : Statement (.radCmdAbort x0) := ⟨no_word _, fun _ => rfl⟩
theorem radioStateReached : Statement .radioStateReached := ⟨no_word _, fun _ => rfl⟩
theorem txNoLock : Statement .txNoLock := ⟨no_word _, fun _ => rfl⟩
theorem synthLockLost : Statement .synthLockLost := ⟨no_word _, fun _ => rfl⟩
theorem radioCalStepStart (x0) : Statement (.radioCalStepStart x0) := ⟨no_word _, fun _ => rfl⟩
theorem radioCalStepDone (x0) : Statement (.radioCalStepDone x0) := ⟨no_word _, fun _ => rfl⟩
theorem slotAction : Statement .slotAction := ⟨no_word _, fun _ => rfl⟩
theorem radioFrameReceived (x0) : Statement (.radioFrameReceived x0) := ⟨no_word _, fun h => nomatch h⟩
theorem joinReceived (x0) : Statement (.joinReceived x0) := ⟨no_word _, fun h => nomatch h⟩
theorem nodeLost (x0) : Statement (.nodeLost x0) := ⟨no_word _, fun _ => rfl⟩
theorem radioSampleRelease (x0) : Statement (.radioSampleRelease x0) := ⟨no_word _, fun _ => rfl⟩
theorem dctlReady (x0) : Statement (.dctlReady x0) := ⟨no_word _, fun _ => rfl⟩
theorem radioHang : Statement .radioHang := ⟨no_word _, fun _ => rfl⟩
theorem wakeCmdHub (x0) : Statement (.wakeCmdHub x0) := ⟨no_word _, fun _ => rfl⟩
theorem wakeCmdHost (x0) : Statement (.wakeCmdHost x0) := ⟨no_word _, fun _ => rfl⟩
theorem wakeCmdBoth (x0) : Statement (.wakeCmdBoth x0) := ⟨no_word _, fun _ => rfl⟩
theorem wakeCmdOther (x0) : Statement (.wakeCmdOther x0) := ⟨no_word _, fun _ => rfl⟩
theorem wakeTelegramBad : Statement .wakeTelegramBad := ⟨no_word _, fun _ => rfl⟩
theorem metSample (x0 x1 x2 x3) : Statement (.metSample x0 x1 x2 x3) := ⟨no_word _, fun _ => rfl⟩
theorem metSampleRelease (x0) : Statement (.metSampleRelease x0) := ⟨no_word _, fun _ => rfl⟩
theorem rotationStepStart : Statement .rotationStepStart := ⟨no_word _, fun _ => rfl⟩
theorem spareCalibrationDone (x0 x1) : Statement (.spareCalibrationDone x0 x1) := ⟨no_word _, fun _ => rfl⟩
theorem seamEvaluation (x0) : Statement (.seamEvaluation x0) := ⟨no_word _, fun _ => rfl⟩
theorem severitySecond (x0 x1) : Statement (.severitySecond x0 x1) := ⟨no_word _, fun _ => rfl⟩
theorem severityIntervalEnd : Statement .severityIntervalEnd := ⟨no_word _, fun _ => rfl⟩
theorem mbSetTime : Statement .mbSetTime := ⟨no_word _, fun _ => rfl⟩
theorem mbSeal (x0) : Statement (.mbSeal x0) := ⟨no_word _, fun _ => rfl⟩
theorem mbUnseal (x0) : Statement (.mbUnseal x0) := ⟨no_word _, fun _ => rfl⟩
theorem mbRetire (x0) : Statement (.mbRetire x0) := ⟨no_word _, fun _ => rfl⟩
theorem mbDiscard : Statement .mbDiscard := ⟨no_word _, fun _ => rfl⟩
theorem mbArchive : Statement .mbArchive := ⟨no_word _, fun _ => rfl⟩
theorem mbLogSeek : Statement .mbLogSeek := ⟨no_word _, fun _ => rfl⟩
theorem mbCalibrate : Statement .mbCalibrate := ⟨no_word _, fun _ => rfl⟩
theorem calibrateEnd : Statement .calibrateEnd := ⟨no_word _, fun _ => rfl⟩
theorem mbUnknownOp : Statement .mbUnknownOp := ⟨no_word _, fun _ => rfl⟩
theorem followNetAdjust : Statement .followNetAdjust := ⟨no_word _, fun _ => rfl⟩
theorem followerSteer : Statement .followerSteer := ⟨no_word _, fun _ => rfl⟩
theorem followerReload : Statement .followerReload := ⟨no_word _, fun _ => rfl⟩
theorem alignPulse (x0) : Statement (.alignPulse x0) := ⟨no_word _, fun _ => rfl⟩
theorem mpor (x0 x1) : Statement (.mpor x0 x1) := ⟨no_word _, fun _ => rfl⟩
theorem feramScan (x0) : Statement (.feramScan x0) := ⟨no_word _, fun _ => rfl⟩
theorem cfgCheckUnit (x0 x1 x2 x3) : Statement (.cfgCheckUnit x0 x1 x2 x3) := ⟨no_word _, fun _ => rfl⟩
theorem recoveryEnd (x0 x1) : Statement (.recoveryEnd x0 x1) := ⟨no_word _, fun _ => rfl⟩
theorem recTimeout (x0 x1) : Statement (.recTimeout x0 x1) := ⟨no_word _, fun _ => rfl⟩
theorem bucketTokenAdd (x0) : Statement (.bucketTokenAdd x0) := ⟨no_word _, fun _ => rfl⟩
theorem stGo (x0) : Statement (.stGo x0) := ⟨no_word _, fun _ => rfl⟩
theorem stAbort (x0) : Statement (.stAbort x0) := ⟨no_word _, fun _ => rfl⟩
theorem stComplete (x0 x1) : Statement (.stComplete x0 x1) := ⟨no_word _, fun _ => rfl⟩
theorem stStarved (x0) : Statement (.stStarved x0) := ⟨no_word _, fun _ => rfl⟩
theorem stRestorePassDone (x0) : Statement (.stRestorePassDone x0) := ⟨no_word _, fun _ => rfl⟩
theorem controlCycle (x0 x1 x2 x3) : Statement (.controlCycle x0 x1 x2 x3) := ⟨no_word _, fun _ => rfl⟩
theorem vddcSettled : Statement .vddcSettled := ⟨no_word _, fun _ => rfl⟩
theorem wclkRetrimApply : Statement .wclkRetrimApply := ⟨no_word _, fun _ => rfl⟩
theorem supplyWarning (x0 x1) : Statement (.supplyWarning x0 x1) := ⟨no_word _, fun _ => rfl⟩
theorem supplyRecovered (x0) : Statement (.supplyRecovered x0) := ⟨no_word _, fun _ => rfl⟩
theorem recoveryWindowRestart (x0) : Statement (.recoveryWindowRestart x0) := ⟨no_word _, fun _ => rfl⟩
theorem dipSample (x0 x1) : Statement (.dipSample x0 x1) := ⟨no_word _, fun _ => rfl⟩
theorem reducedEnter : Statement .reducedEnter := ⟨no_word _, fun _ => rfl⟩
theorem railResetLevel (x0) : Statement (.railResetLevel x0) := ⟨no_word _, fun _ => rfl⟩
theorem railRelease (x0 x1) : Statement (.railRelease x0 x1) := ⟨no_word _, fun _ => rfl⟩
theorem nrstLow : Statement .nrstLow := ⟨no_word _, fun _ => rfl⟩
theorem targetCaptureEdge (x0 x1 x2 x3 x4 x5) : Statement (.targetCaptureEdge x0 x1 x2 x3 x4 x5) := ⟨no_word _, fun _ => rfl⟩
theorem holdPeriodsComplete (x0) : Statement (.holdPeriodsComplete x0) := ⟨no_word _, fun _ => rfl⟩
theorem partnerDisconnected (x0) : Statement (.partnerDisconnected x0) := ⟨no_word _, fun _ => rfl⟩
theorem txComplete : Statement .txComplete := ⟨no_word _, fun _ => rfl⟩
theorem rxWindowEnd : Statement .rxWindowEnd := ⟨no_word _, fun _ => rfl⟩
theorem slotEnd (x0) : Statement (.slotEnd x0) := ⟨no_word _, fun _ => rfl⟩
theorem xclkOscillatorStep (x0) : Statement (.xclkOscillatorStep x0) := ⟨no_word _, fun _ => rfl⟩
theorem aclkStart : Statement .aclkStart := ⟨no_word _, fun _ => rfl⟩
theorem lifeCycleFactoryChange (x0) : Statement (.lifeCycleFactoryChange x0) := ⟨no_word _, fun _ => rfl⟩

end Sys2Proof.Laws.Spelling
end

