-- ==== Sys2Proof/Safety.lean ====
section
/-! DEFINITION. What counts as a safe step: the hub never stops; it answers a next state to every command. -/

namespace Sys2Proof.Machine

/-- An outcome that goes on. -/
def goesOn (o : Host.Outcome State Fault Refusal) : Prop := ∃ s, o = .next s

/-- The samples that wait for stage `i` of a chain: a context's own stage 0 takes from the context's FIFO (R148). -/
def Hub.stageIn (h : Hub) (x i : Nat) : List Samp := if i = 0 ∧ x < 192 then (NMap.get h.ctx x).inq else (h.stg' x i).inq

/-- A stage of a kind runs, and an input without CAL waits behind which none was discarded (R183, R184). -/
abbrev Hub.takes (h : Hub) (x i kind : Nat) (v : Samp) (rest : List Samp) : Prop :=
  h.stUp x i kind = true ∧ h.stageIn x i = v :: rest ∧ v.has tCal = false ∧ (h.stg' x i).calGap = false

/-- No stored parity the stage meets is bad (R155). -/
abbrev Hub.parityGood (h : Hub) (x i : Nat) : Prop :=
  (NMap.get h.tile (h.stTile x i)).badCoef = [] ∧ ((h.stg' x i).hist.all (fun w => !w.bad)) = true ∧ (h.stg' x i).badW = []

/-- An output of the stage starts no CONTEXT recovery: it does not come to a comparator, or to one whose action is no recovery
(R161). -/
abbrev Hub.noCtxReset (h : Hub) (c i : Nat) : Prop :=
  h.ctxShadow c = false ∨ i + 1 < h.ctxStages c ∨ h.cf 5 (32 + c) 0 22 2 ≠ 2

/-- A stage takes its next input without anything out of the ordinary. -/
abbrev Hub.takesNext (h : Hub) (x i kind : Nat) (v : Samp) (rest : List Samp) : Prop :=
  h.takes x i kind v rest ∧ h.parityGood x i ∧ h.noCtxReset (ctxOf x) i

/-- A frame of a class that a port accepts (R336, R340): the link UP, its CRC and length right, its sequence the expected one. -/
abbrev Hub.rxGood (h : Hub) (p cls : Nat) (f : CasFrame) : Prop :=
  h.linkUp p = true ∧ f.crcOk = true ∧ f.words ≠ [] ∧ f.words.length ≤ classMax cls ∧
    (cls ≠ 0 → f.seq.toNat = NMap.get (h.lk p).seqRx cls)

/-- The word that the commit in progress holds for a cell. -/
def Hub.committed (h : Hub) (sect unit cell : Nat) : Option Word :=
  ((h.writesOf sect unit).reverse.find? (fun x => x.key % 4096 == cell)).map (fun x => x.word)

/-- The four words last written of a limit entry (R237). -/
def Hub.limWords (h : Hub) (e : Nat) : List Word := (List.range 4).map (fun i => h.cell 7 (e / 64) (4 * (e % 64) + i))

/-- A spectral job after its average took a block of good words (R225, R226). -/
def Hub.accepted (h : Hub) (e j : Nat) (blk : List HistWord) : Job :=
  let x := h.job' e j
  let ys := blk.map (fun w => w.samp)
  { x with
    acc := avgStep (h.jobAvg e j) (h.jc e j 1 0 5) x.acc (binVector (h.jobComplex e j) (h.jobWin e j) (h.jobLog e j) (ys.map sInt))
    cnt := x.cnt + 1, tag := x.tag ||| orTags ys, time := if x.cnt = 0 then (ys.headD default).time else x.time }

/-- What a job's bins are divided by: the unit of its sums, times the blocks of a linear average (R226). -/
def Hub.jobUnit (h : Hub) (e j n : Nat) : Nat :=
  (if h.jobAvg e j = 1 then n else 1) * (if h.jobComplex e j then 2 ^ 46 else 2 ^ 92)

/-- An evaluation that upsets nothing. -/
def noParity : ParityFault := { coef := none, delay := none }

/-- What holds of the partition between steps: its tables are canonical, stored records have sixteen words (R413), fewer than five
seam entries are held (R415), phase, outcome and channel numbers are legal, and an unconfigured partition holds no cell (R429). -/
abbrev Met.inv (m : Met) : Prop :=
  NMap.wf m.regs resetWord = true ∧ NMap.wf m.cells (fun k => metDefault (k / 4096 % 256) (k % 4096)) = true ∧
    NMap.wf m.log (fun _ => []) = true ∧ (m.log.all (fun e => e.2.length == 16)) = true ∧ m.seams.length < 5 ∧
    m.phase ≤ 2 ∧ m.outcome ≤ 2 ∧ (m.outcome = 0 → m.cells = []) ∧ m.calCh.getD 0 < 8 ∧ m.nextCh < 8

end Sys2Proof.Machine

/-- An event of the partition itself, which shows the hub nothing but interrupt causes (R396). -/
def Sys2Proof.Instr.ofPartition (i : Sys2Proof.Instr) : Bool :=
  match i with
  | .rotationStepStart | .spareCalibrationDone _ _ | .seamEvaluation _ | .severitySecond _ _ | .severityIntervalEnd
  | .calibrateEnd | .alignPulse _ => true
  | _ => false

/-- A command that names a crossing of the partition's boundary: a host or remote access, a METRO load, a sample, an enumeration, a
supply warning, the follower, a life-cycle change, or an event of the partition itself (R396). -/
def Sys2Proof.Instr.reachesPartition (i : Sys2Proof.Instr) : Bool :=
  match i with
  | .ldrFrame _ | .sectionEffectPoint _ _ | .metroReread _ | .hspWrite _ | .hspRead _ | .htwWriteRegister _ _
  | .htwReadRegister _ | .registerWrite _ _ | .enumEnd _ | .rq _ | .casRqGo | .metSample _ _ _ _ | .mbSetTime
  | .mbSeal _ | .mbUnseal _ | .mbRetire _ | .mbDiscard | .mbArchive | .mbLogSeek | .mbCalibrate | .mbUnknownOp
  | .followNetAdjust | .followerSteer | .followerReload | .mpor _ _ | .supplyWarning _ _ | .supplyRecovered _
  | .railResetLevel _ | .lifeCycleFactoryChange _ | .linkTrained _ _ _ _ _ _ | .enumGo | .masterSelfEnum | .enum _ _
  | .enumDone _ _ | .enumFail _ _ | .renum _ => true
  | i => i.ofPartition
end

