-- ==== Sys2Proof/Certificates/Slice0/Obligations.lean ====
section
/-! DEFINITION. The statements for the provers. Each docstring names the rules of spec/ it rests on; `t` is always the state a
command answers. A register address 0x30 is `glb.wake`, whose pending bits follow the interrupt lines on every command (R77). -/

open Sys2Proof Sys2Proof.Machine

/-- The start of the clocks, step by step. POR release takes the straps and bank classes and starts WCLK; a passing
count of REFCLK sets refclk_ok and enables the PLLs, a failing one opens no gate and is repeated; the WCLK trim
completes; a PLL that may lock shows its lock bit, and with time and fabric PLL locked the clock gates are open. (R10,
R11, R31, R494) -/
def Obligations.ClockStart : Prop :=
    -- POR_RELEASE
    (∀ (s : State),
      s.hub.clk.step = 0 → s.hub.asleep = false → ∃ t,
        exec .porRelease s = .next t ∧ t.hub.clk.step = 1 ∧ t.hub.rd fClkSupBankBank = s.fixed.banks.toNat ∧
        t.hub.rd fLdrBootStraps = s.fixed.bootsrc.val ∧ t.hub.clk.gates = s.hub.clk.gates) ∧
    -- REFCLK_COUNT_WINDOW_END: the first count
    (∀ (s : State) (pass : Bool),
      s.hub.clk.step = 1 → s.hub.clk.recount = false → ∃ t,
        exec (.refclkCountWindowEnd pass) s = .next t ∧ t.hub.clk.step = (if pass then 2 else 1) ∧
        t.hub.is fClkStatusRefclkOk = (pass || s.hub.is fClkStatusRefclkOk) ∧ t.hub.clk.recount = !pass ∧
        t.hub.clk.gates = s.hub.clk.gates) ∧
    -- REFCLK_RECOUNT: the count repeated after a failed one
    (∀ (s : State) (pass : Bool),
      s.hub.clk.step = 1 → s.hub.clk.recount = true → ∃ t,
        exec (.refclkRecount pass) s = .next t ∧ t.hub.clk.step = (if pass then 2 else 1) ∧
        t.hub.is fClkStatusRefclkOk = (pass || s.hub.is fClkStatusRefclkOk) ∧ t.hub.clk.recount = !pass ∧
        t.hub.clk.gates = s.hub.clk.gates) ∧
    -- WCLK_TRIM_COMPLETE
    (∀ (s : State),
      s.hub.is fClkStatusRefclkOk = true → s.hub.clk.step ≠ 0 → ∃ t,
        exec .wclkTrimComplete s = .next t ∧ t.hub.is fClkStatusWclkTrim = true ∧ t.hub.is fClkStatusRefclkOk = true) ∧
    -- PLL_LOCKED: the time PLL out of holdover, the fabric PLL on a locked time PLL, the link PLL where it is not turned off
    (∀ (s : State) (p : Pll),
      s.hub.is fClkStatusRefclkOk = true → s.hub.clk.held = false → (p = .time → s.hub.clk.holdover = false) →
      (p = .fabric → s.hub.is fClkStatusTimeLock = true) → (p = .link → s.hub.linkPllOff = false) → ∃ t,
        exec (.pllLocked p) s = .next t ∧ t.hub.is (lockBit p) = true ∧ NMap.get t.hub.clk.fails (pllNo p) = 0 ∧
        (t.hub.is fClkStatusTimeLock = true → t.hub.is fClkStatusFabLock = true → t.hub.clk.gates = true))

/-- Losing and finding the clocks. A running PLL that misses its lock time is restarted once; a second miss holds every
domain but WCLK and ACLK, halts the hub and drives IRQ1 active. A lost REFCLK puts the time PLL in holdover while the
clock gates stay open and the timebases keep their values; the first passing window ends the holdover. A PLL that loses
lock shows it, and where no running recovery needs it nothing is reset. (R11, R446) -/
def Obligations.ClockLoss : Prop :=
    -- PLL_LOCK_TIMEOUT of a PLL that runs and may lock, the first: the PLL is restarted, every register reads as before
    (∀ (s : State) (p : Pll),
      s.hub.mayLock p = true → s.hub.is (lockBit p) = false → NMap.get s.hub.clk.fails (pllNo p) = 0 → ∃ t,
        exec (.pllLockTimeout p) s = .next t ∧ NMap.get t.hub.clk.fails (pllNo p) = 1 ∧ t.hub.clk.held = false ∧
        (∀ a, a ≠ 0x30 → t.hub.reg a = s.hub.reg a)) ∧
    -- PLL_LOCK_TIMEOUT, the second
    (∀ (s : State) (p : Pll),
      s.hub.mayLock p = true → s.hub.is (lockBit p) = false → NMap.get s.hub.clk.fails (pllNo p) ≠ 0 → ∃ t,
        exec (.pllLockTimeout p) s = .next t ∧ t.hub.clk.held = true ∧ t.hub.rd fGlbStatusRun = 6 ∧
        t.hub.flt.recs = [] ∧ irqActive t.hub t.met 1 = true) ∧
    -- REFCLK_LOST
    (∀ (s : State),
      s.hub.clk.gates = true → s.hub.is fClkStatusRefclkOk = true → ∃ t,
        exec .refclkLost s = .next t ∧ t.hub.is fClkStatusRefclkOk = false ∧ t.hub.is fClkStatusTimeLock = false ∧
        t.hub.is fClkStatusRefclkLost = true ∧ t.hub.is fClkStatusLockLost = true ∧ t.hub.clk.holdover = true ∧
        t.hub.clk.gates = true ∧ t.hub.tb = s.hub.tb) ∧
    -- REFCLK_COUNT_WINDOW_END in holdover, passing: as REFCLK_RETURN
    (∀ (s : State),
      s.hub.clk.holdover = true → s.hub.clk.step ≠ 1 → s.hub.clk.recount = false → ∃ t,
        exec (.refclkCountWindowEnd true) s = .next t ∧ t.hub.clk.holdover = false ∧
        t.hub.is fClkStatusRefclkOk = true ∧ t.hub.tb = s.hub.tb) ∧
    -- REFCLK_RETURN
    (∀ (s : State),
      s.hub.clk.holdover = true → s.hub.clk.step ≠ 1 → ∃ t,
        exec .refclkReturn s = .next t ∧ t.hub.clk.holdover = false ∧ t.hub.is fClkStatusRefclkOk = true ∧
        t.hub.is fClkStatusTimeLock = s.hub.is fClkStatusTimeLock ∧ t.hub.tb = s.hub.tb) ∧
    -- PLL_LOST, no recovery running on the PLL
    (∀ (s : State) (p : Pll),
      s.hub.is (lockBit p) = true → (∀ r ∈ s.hub.flt.recs, runsOn r.scope p = false) → ∃ t,
        exec (.pllLost p) s = .next t ∧ t.hub.is (lockBit p) = false ∧ t.hub.is fClkStatusLockLost = true ∧
        t.hub.clk = s.hub.clk ∧ t.hub.flt.recs = s.hub.flt.recs ∧ t.hub.tb = s.hub.tb)

/-- The FCLK steps between resting points. A request below FCLK_planned (in force, or waiting for FCLK to slew up to it)
is refused; one while FCLK slews is held; one in holdover or without lock is deferred; any other for another point
starts a slew of 64 steps toward the next resting point. At its end FCLK is at the new point, and slewing reads 0 there
where nothing waits and 1 where a held request for another point starts at once. (R15, R16) -/
def Obligations.FclkSteps : Prop :=
    -- FCLK_STEP_REQUEST below FCLK_planned (a larger point is a lower clock): refused
    (∀ (s : State) (point : Fin 3),
      s.hub.planFloor < point.val → ∃ t,
        exec (.fclkStepRequest point) s = .next t ∧ t.hub.is fClkStatusStepDeferred = true ∧ t.hub.clk = s.hub.clk ∧
        t.hub.rd fClkStatusFclkPoint = s.hub.rd fClkStatusFclkPoint ∧
        t.hub.is fClkStatusSlewing = s.hub.is fClkStatusSlewing) ∧
    -- FCLK_STEP_REQUEST while slewing: held
    (∀ (s : State) (point : Fin 3),
      point.val ≤ s.hub.planFloor → s.hub.is fClkStatusSlewing = true → ∃ t,
        exec (.fclkStepRequest point) s = .next t ∧ t.hub.clk = { s.hub.clk with next := some point.val }) ∧
    -- FCLK_STEP_REQUEST in holdover or without lock: deferred
    (∀ (s : State) (point : Fin 3),
      point.val ≤ s.hub.planFloor → s.hub.is fClkStatusSlewing = false →
      (s.hub.clk.holdover = true ∨ s.hub.is fClkStatusTimeLock = false ∨ s.hub.is fClkStatusFabLock = false) → ∃ t,
        exec (.fclkStepRequest point) s = .next t ∧ t.hub.clk = { s.hub.clk with deferred := some point.val } ∧
        t.hub.is fClkStatusStepDeferred = true) ∧
    -- FCLK_STEP_REQUEST: the slew starts
    (∀ (s : State) (point : Fin 3),
      point.val ≤ s.hub.planFloor → s.hub.is fClkStatusSlewing = false → s.hub.clk.holdover = false →
      s.hub.is fClkStatusTimeLock = true → s.hub.is fClkStatusFabLock = true →
      point.val ≠ s.hub.rd fClkStatusFclkPoint → ∃ t,
        exec (.fclkStepRequest point) s = .next t ∧ t.hub.is fClkStatusSlewing = true ∧ t.hub.clk.slewStep = 0 ∧
        t.hub.rd fClkStatusFclkPoint = s.hub.rd fClkStatusFclkPoint ∧
        t.hub.clk.slewTo = (if point.val < s.hub.rd fClkStatusFclkPoint then s.hub.rd fClkStatusFclkPoint - 1 else s.hub.rd fClkStatusFclkPoint + 1)) ∧
    -- FCLK_SLEW_STEP
    (∀ (s : State),
      s.hub.is fClkStatusSlewing = true → s.hub.clk.slewStep < 64 → ∃ t,
        exec .fclkSlewStep s = .next t ∧ t.hub.clk = { s.hub.clk with slewStep := s.hub.clk.slewStep + 1 } ∧
        t.hub.is fClkStatusSlewing = true) ∧
    -- FCLK_SLEW_DONE: FCLK rests at the new point; a request held meanwhile starts its own slew from there, one for that point none
    (∀ (s : State),
      s.hub.is fClkStatusSlewing = true → s.hub.clk.slewStep = 64 → ∃ t,
        exec .fclkSlewDone s = .next t ∧ t.hub.rd fClkStatusFclkPoint = s.hub.clk.slewTo % 4 ∧
        t.hub.clk.slewStep = 0 ∧
        (s.hub.clk.plan = none → s.hub.clk.next = none → t.hub.is fClkStatusSlewing = false) ∧
        (∀ n, s.hub.clk.plan = none → s.hub.clk.next = some n → n ≤ s.hub.rd fClkStatusFclkPlan → s.hub.stepReady = true → t.hub.is fClkStatusSlewing = decide (n ≠ s.hub.clk.slewTo % 4)))

/-- The loader takes, rejects and empties a stream. A boot starts from the flash or waits for the host or the cascade as
the straps say; words written to ldr.data enter the FIFO together or not at all, and a frame refused whole is counted; a
frame of the part in progress that passes its checks is staged, the last frame of a partial stream that passes CHECK
leaves it READY with its build shown and nothing switched, and a frame that fails its CRC rejects the stream; a timeout
and an abort reject it with their codes; a rejected stream leaves staging store and FIFO empty, image B following image
A. (R31, R34, R36, R38, R40, R41) -/
def Obligations.LoaderStream : Prop :=
    -- BOOT_LOAD_START with flash straps
    (∀ (s : State),
      s.hub.clk.gates = true → s.hub.is fLdrStatusConfigured = false → s.hub.ldrState = ldrIdle →
      s.hub.ldr.flash = 0 → s.hub.rd fLdrBootImage = 0 → s.hub.is fLdrCtlHoldBoot = false → s.fixed.bootsrc.val < 2 →
      ∃ t,
        exec .bootLoadStart s = .next t ∧ t.hub.ldr.flash = 1 ∧ t.hub.rd fLdrStatusSrc = 1 ∧
        t.hub.ldr.waiting = false ∧ t.hub.cells = s.hub.cells) ∧
    -- BOOT_LOAD_START with the straps of the host or the cascade, or under hold_boot
    (∀ (s : State),
      s.hub.clk.gates = true → s.hub.is fLdrStatusConfigured = false → s.hub.ldrState = ldrIdle →
      s.hub.ldr.flash = 0 → s.hub.rd fLdrBootImage = 0 → (s.hub.is fLdrCtlHoldBoot = true ∨ 2 ≤ s.fixed.bootsrc.val) →
      ∃ t,
        exec .bootLoadStart s = .next t ∧ t.hub.ldr = { s.hub.ldr with waiting := true } ∧ t.hub.ldrState = ldrIdle) ∧
    -- LDR_DATA_WRITE: all words enter, or none does and the frame is counted
    (∀ (s : State) (words : List Word),
      s.hub.answers s.fixed s.met .ldr 0x020400 = true → s.hub.stHeld heldFifo = false → ∃ t,
        exec (.ldrDataWrite words) s = .next t ∧
        t.hub.ldr.fifo = (if s.hub.ldr.fifo.length + words.length ≤ 528 then s.hub.ldr.fifo ++ words.map (fun w => { src := 2, word := w }) else s.hub.ldr.fifo) ∧
        (528 < s.hub.ldr.fifo.length + words.length → t.hub.is fLdrStatusFifoOver = true ∧ t.hub.rd fHstCountHspBad = satTo 16 (s.hub.rd fHstCountHspBad + 1)) ∧
        (s.hub.ldr.fifo.length + words.length ≤ 528 → t.hub.rd fLdrLevelFree = 528 - (s.hub.ldr.fifo.length + words.length))) ∧
    -- LDR_FRAME: a frame of the part in progress is staged
    (∀ (s : State) (flash ws : List Word) (src : Nat) (h1 : Hub),
      s.hub.nextFrame flash = some (src, ws, h1) → h1.ldrState = ldrStage → src = h1.rd fLdrStatusSrc →
      crc32Words (ws.take 65) = recWord ws 65 → hdIndex (recWord ws 0) = h1.rd fLdrStatusFrames →
      h1.rd fLdrStatusFrames + 1 < h1.ldr.total → h1.ldr.total ≤ 2048 → sectionKnown (hdSect (recWord ws 0)) = true →
      hdSect (recWord ws 0) ≠ 15 → fieldOf (recWord ws 0) 16 5 = 0 → h1.ldr.inPart = true →
      hdFirst (recWord ws 0) = false → hdLast (recWord ws 0) = false → hdSect (recWord ws 0) = h1.ldr.sect →
      hdOpt (recWord ws 0) = h1.ldr.opt → (h1.ldr.words s.fixed.variant h1.devnum ((ws.drop 1).take 64)).code = 0 →
      (h1.ldr.words s.fixed.variant h1.devnum ((ws.drop 1).take 64)).absent = none → ∃ t,
        exec (.ldrFrame flash) s = .next t ∧
        t.hub.ldr = (h1.ldr.words s.fixed.variant h1.devnum ((ws.drop 1).take 64)).ldr ∧ t.hub.ldrState = ldrStage ∧
        t.hub.rd fLdrStatusFrames = h1.rd fLdrStatusFrames + 1 ∧ t.hub.cells = h1.cells) ∧
    -- LDR_FRAME: the last frame of a partial stream, whose structure passes CHECK: READY
    (∀ (s : State) (flash ws : List Word) (src : Nat) (h1 : Hub),
      s.hub.nextFrame flash = some (src, ws, h1) → (h1.ldrTake s.fixed src ws).ldrState = 4 →
      (h1.ldrTake s.fixed src ws).ldr.partialLoad = true → (h1.ldrTake s.fixed src ws).checkCode s.fixed = 0 → ∃ t,
        exec (.ldrFrame flash) s = .next t ∧ t.hub.ldrState = ldrReady ∧ t.hub.ldr = (h1.ldrTake s.fixed src ws).ldr ∧
        (∀ i : Fin 2, t.hub.reg (rLdrBuild i) = recWord t.hub.ldr.builds i) ∧
        t.hub.cells = (h1.ldrTake s.fixed src ws).cells ∧ t.met = s.met) ∧
    -- LDR_FRAME: a frame that fails its CRC rejects the stream
    (∀ (s : State) (flash ws : List Word) (src : Nat) (h1 : Hub),
      s.hub.nextFrame flash = some (src, ws, h1) → (h1.ldrState = ldrStage ∨ h1.ldrState = ldrSkip) →
      src = h1.rd fLdrStatusSrc → src ≠ 1 → crc32Words (ws.take 65) ≠ recWord ws 65 → ∃ t,
        exec (.ldrFrame flash) s = .next t ∧ t.hub.ldrState = ldrReject ∧ t.hub.is fLdrStatusRejected = true ∧
        t.hub.rd fLdrRejectCode = rejCrc ∧ t.hub.cells = h1.cells) ∧
    -- LDR_TIMEOUT
    (∀ (s : State),
      (s.hub.ldrState = ldrStage ∨ s.hub.ldrState = ldrSkip) → s.hub.rd fLdrStatusSrc ≠ 1 → ∃ t,
        exec .ldrTimeout s = .next t ∧ t.hub.ldrState = ldrReject ∧ t.hub.is fLdrStatusRejected = true ∧
        t.hub.rd fLdrRejectCode = rejTimeout ∧ t.hub.cells = s.hub.cells) ∧
    -- LDR_ABORT
    (∀ (s : State),
      s.hub.answers s.fixed s.met .ldr 0x020000 = true →
      (s.hub.ldrState = ldrStage ∨ s.hub.ldrState = ldrSkip ∨ s.hub.ldrState = ldrReady) →
      s.hub.rd fLdrStatusSrc ≠ 1 → ∃ t,
        exec .ldrAbort s = .next t ∧ t.hub.ldrState = ldrReject ∧ t.hub.is fLdrStatusRejected = true ∧
        t.hub.rd fLdrRejectCode = rejAbort ∧ t.hub.cells = s.hub.cells) ∧
    -- STAGING_DISCARDED: the stores are empty, and image B follows a rejected image A
    (∀ (s : State),
      s.hub.ldrState = ldrReject → ∃ t,
        exec .stagingDiscarded s = .next t ∧ t.hub.ldrState = ldrIdle ∧ t.hub.ldr.staged = [] ∧ t.hub.ldr.fifo = [] ∧
        t.hub.ldr.flash = (if s.hub.ldr.flash = 1 then 2 else 0) ∧ t.hub.cells = s.hub.cells)

/-- The commit of a partial load and its effect points. A commit in READY empties the staging store and leaves every
changed unit, and FCLK_planned and METRO where the stream carries them, pending in COMMIT; a commit with nothing to
switch ends it at once. Elsewhere a commit only sets early. An armed commit shows its channel. A unit that stands at its
effect point is no longer pending, and the cells of GLOBAL, CLOCK, PORTS, TWOWIRE and HEALTH are then in force; an
engine leaves with the last of its changed jobs, a FABRIC unit with the last of its writes, at once where no context
gives outputs. METRO, committed or read again for an unconfigured partition, configures it as the partition's life-cycle
rules say. (R40, R43, R44, R45, R46, R48, R78) -/
def Obligations.LoaderCommit : Prop :=
    -- LDR_COMMIT_GO in READY
    (∀ (s : State),
      s.hub.answers s.fixed s.met .ldr 0x020010 = true → s.hub.ldrState = ldrReady → ∃ t,
        exec .ldrCommitGo s = .next t ∧ t.hub.ldr.staged = [] ∧ t.hub.cells = s.hub.cells ∧
        t.hub.is fLdrStatusEarly = s.hub.is fLdrStatusEarly ∧
        (∀ x ∈ lastWrites s.hub.ldr.staged, s.hub.writeActs x = true → x.key / 1048576 ≠ 15 → x ∈ t.hub.ldr.commit ∧ (x.key / 1048576, effectUnit (x.key / 1048576) (x.key / 4096 % 256)) ∈ t.hub.ldr.todo ∧ t.hub.ldrState = ldrCommit) ∧
        (s.hub.ldr.plan.isSome = true → (1, 0) ∈ t.hub.ldr.todo ∧ t.hub.ldrState = ldrCommit) ∧
        (s.hub.ldr.hasMetro = true → (15, 0) ∈ t.hub.ldr.todo ∧ t.hub.ldrState = ldrCommit) ∧
        (s.hub.ldr.plan = none → s.hub.ldr.hasMetro = false → ((lastWrites s.hub.ldr.staged).all (fun x => !s.hub.writeActs x || x.key / 1048576 == 15)) = true → t.hub.ldrState = ldrIdle ∧ t.hub.is fLdrStatusDone = true)) ∧
    -- LDR_COMMIT_GO outside READY
    (∀ (s : State),
      s.hub.answers s.fixed s.met .ldr 0x020010 = true → s.hub.ldrState ≠ ldrReady → ∃ t,
        exec .ldrCommitGo s = .next t ∧ t.hub.is fLdrStatusEarly = true ∧ t.hub.ldr = s.hub.ldr ∧
        t.hub.ldrState = s.hub.ldrState ∧ t.hub.cells = s.hub.cells) ∧
    -- LDR_COMMIT_ARM
    (∀ (s : State) (chan : BitVec 7),
      s.hub.answers s.fixed s.met .ldr 0x020010 = true → ∃ t,
        exec (.ldrCommitArm chan) s = .next t ∧ t.hub.is fLdrCommitArm = true ∧ t.hub.rd fLdrCommitChan = chan.toNat ∧
        t.hub.ldr = s.hub.ldr ∧ (∀ a, a ≠ 0x30 ∧ a ≠ 0x20010 → t.hub.reg a = s.hub.reg a)) ∧
    -- SECTION_EFFECT_POINT of a section but FABRIC and METRO, and but an engine: the unit is no longer pending
    (∀ (s : State) (sect : Fin 16) (unit : Fin 256),
      s.hub.ldrState = ldrCommit → sect.val ≠ 5 → sect.val ≠ 15 → (sect.val ≠ 6 ∨ 4 ≤ unit.val) →
      s.hub.ldr.todo.contains (sect.val, effectUnit sect unit) = true →
      s.hub.effectReady sect (effectUnit sect unit) = true → ∃ t,
        exec (.sectionEffectPoint sect unit) s = .next t ∧ (sect.val, effectUnit sect unit) ∉ t.hub.ldr.todo) ∧
    -- SECTION_EFFECT_POINT of GLOBAL, CLOCK, PORTS and TWOWIRE: the unit's cells are in force
    (∀ (s : State) (sect : Fin 16) (unit : Fin 256) (k : Fin 4096),
      s.hub.ldrState = ldrCommit → (sect.val = 1 ∨ sect.val = 2 ∨ sect.val = 3 ∨ sect.val = 4) →
      s.hub.ldr.todo.contains (sect.val, effectUnit sect unit) = true →
      s.hub.effectReady sect (effectUnit sect unit) = true → ∃ t,
        exec (.sectionEffectPoint sect unit) s = .next t ∧
        t.hub.cell sect (effectUnit sect unit) k = (s.hub.committed sect (effectUnit sect unit) k).getD (s.hub.cell sect (effectUnit sect unit) k) ∧
        (∀ f, sect.val = 1 → s.hub.ldr.plan = some f → s.hub.rd fClkStatusFclkPoint ≤ f → s.hub.is fClkStatusSlewing = false → t.hub.rd fClkStatusFclkPlan = f % 4)) ∧
    -- SECTION_EFFECT_POINT of HEALTH: its cells are in force
    (∀ (s : State) (unit : Fin 256) (v : Fin 3) (k : Fin 4096),
      s.hub.ldrState = ldrCommit → s.hub.ldr.todo.contains (13, 0) = true → ∃ t,
        exec (.sectionEffectPoint 13 unit) s = .next t ∧
        t.hub.cell 13 v k = (s.hub.committed 13 v k).getD (s.hub.cell 13 v k) ∧ (13, 0) ∉ t.hub.ldr.todo) ∧
    -- SECTION_EFFECT_POINT of an engine all of whose changed jobs stand at their block boundaries
    (∀ (s : State) (e : Fin 4),
      s.hub.ldrState = ldrCommit → s.hub.ldr.todo.contains (6, e.val) = true →
      (∀ x ∈ s.hub.writesOf 6 e, x.key % 4096 < 1024 ∧ s.hub.jobAtEdge e (x.key % 4096 / 16) = true) → ∃ t,
        exec (.sectionEffectPoint 6 (e.castLE (by decide))) s = .next t ∧ (6, e.val) ∉ t.hub.ldr.todo ∧
        (∀ k, k < 1024 → t.hub.cell 6 e k = (s.hub.committed 6 e k).getD (s.hub.cell 6 e k))) ∧
    -- SECTION_EFFECT_POINT of FABRIC: the units with a write left are the ones still pending, and nothing joins the commit
    (∀ (s : State) (unit : Fin 256),
      s.hub.ldrState = ldrCommit → s.hub.ldr.todo.contains (5, unit.val) = true → ∃ t,
        exec (.sectionEffectPoint 5 unit) s = .next t ∧
        (∀ u, (5, u) ∈ t.hub.ldr.todo ↔ (5, u) ∈ s.hub.ldr.todo ∧ t.hub.writesOf 5 u ≠ []) ∧
        (∀ x ∈ t.hub.ldr.commit, x ∈ s.hub.ldr.commit)) ∧
    -- SECTION_EFFECT_POINT of FABRIC where no context gives outputs and no cross-fade runs: the unit switches
    (∀ (s : State) (unit : Fin 256),
      s.hub.ldrState = ldrCommit → s.hub.ldr.todo.contains (5, unit.val) = true →
      (∀ c ∈ List.range 224, s.hub.ctxRuns c = false) → (∀ u ∈ List.range 32, s.hub.fadeHolds u = false) → ∃ t,
        exec (.sectionEffectPoint 5 unit) s = .next t ∧ (5, unit.val) ∉ t.hub.ldr.todo ∧ t.hub.writesOf 5 unit = []) ∧
    -- SECTION_EFFECT_POINT of METRO: the partition takes the staged METRO as its life-cycle rules say, and its outcome shows
    (∀ (s : State) (unit : Fin 256),
      s.hub.ldrState = ldrCommit → s.hub.ldr.todo.contains (15, 0) = true → s.fixed.variant.hasMet = true →
      s.met.up = true → ∃ t,
        exec (.sectionEffectPoint 15 unit) s = .next t ∧
        t.met = (s.met.load (metroTable s.hub.ldr.commit) s.hub.ldr.metro).2 ∧
        t.hub.rd fLdrMetroOutcome = (s.met.load (metroTable s.hub.ldr.commit) s.hub.ldr.metro).1 ∧
        (15, 0) ∉ t.hub.ldr.todo) ∧
    -- METRO_REREAD for an unconfigured partition out of MPOR: METRO of the image booted from, as its life-cycle rules say
    (∀ (s : State) (words : List Word),
      s.hub.ldr.booted ≠ 0 → s.fixed.bootsrc.val < 2 → s.fixed.variant.hasMet = true → s.met.up = true →
      s.met.outcome = 0 → ∃ t,
        exec (.metroReread words) s = .next t ∧
        t.met = (s.met.load (metroTable (metroAgain s.fixed s.hub words)) words).2 ∧
        t.hub.rd fLdrMetroOutcome = (s.met.load (metroTable (metroAgain s.fixed s.hub words)) words).1 ∧
        t.hub.cells = s.hub.cells) ∧
    -- METRO_REREAD, SEALED and another digest: the attempt is noted, the partition stays unconfigured
    (∀ (s : State) (words : List Word),
      s.hub.ldr.booted ≠ 0 → s.fixed.bootsrc.val < 2 → s.fixed.variant.hasMet = true → s.met.up = true →
      s.met.outcome = 0 → s.met.rd fMetLidState = 2 → s.met.rd8 (rMetLidSealed 0) ≠ sha256 words → ∃ t,
        exec (.metroReread words) s = .next t ∧ t.hub.rd fLdrMetroOutcome = 3 ∧ t.met.outcome = 0 ∧
        t.met.cells = s.met.cells) ∧
    -- METRO_REREAD, OPEN, legal cells and room for the audit record: the partition is configured from METRO
    (∀ (s : State) (words : List Word),
      s.hub.ldr.booted ≠ 0 → s.fixed.bootsrc.val < 2 → s.fixed.variant.hasMet = true → s.met.up = true →
      s.met.outcome = 0 → s.met.rd fMetLidState = 1 → s.met.auditMax = false →
      (metroTable (metroAgain s.fixed s.hub words)).all (fun e => metCellOk (e.1 / 4096 % 256) (e.1 % 4096) e.2) = true →
      ∃ t,
        exec (.metroReread words) s = .next t ∧ t.hub.rd fLdrMetroOutcome = 1 ∧ t.met.outcome = 1 ∧
        t.met.cells = metroTable (metroAgain s.fixed s.hub words) ∧ t.met.rd8 (rMetLidHeld 0) = sha256 words)

/-- The host writes and reads registers through both of its ports. A well-formed WRITE frame of one word does exactly
what REGISTER_WRITE of that word does, and so does a register written through the two-wire target, whose address counts
on within its block and past its end finds nothing; a well-formed READ frame of one word, and a register read through
the target, does exactly what reading the register does, with its data CRC behind it where one is asked for. A frame in
error writes nothing, is counted and sets its flag; a READ frame in error, or one whose first word is not ready in time,
answers zeros. A write to a read-write register of glb and hst takes the written bits and changes no other register; a
count read is cleared. (R61, R62, R63, R64, R65, R66, R68, R69) -/
def Obligations.HostPorts : Prop :=
    -- HSP_WRITE of one word, well-formed: the same as REGISTER_WRITE of that word
    (∀ (s : State) (f : HspFrame) (w : Word),
      s.hub.railHeld 2 = false → s.hub.asleep = false → f.op = 1 → (f.crcOn = true ∨ s.hub.is fHstCfgCrcReq = false) →
      8 ≤ f.edges → f.errors = [] → f.data = [w] → f.addr.toNat % 4 = 0 → ∃ t,
        exec (.hspWrite f) s = .next t ∧ exec (.registerWrite f.addr w) s = .next t) ∧
    -- HSP_WRITE of a frame in error: nothing is written, the frame is counted and its flag set
    (∀ (s : State) (f : HspFrame),
      s.hub.railHeld 2 = false → s.hub.asleep = false → f.op = 1 → (f.crcOn = true ∨ s.hub.is fHstCfgCrcReq = false) →
      8 ≤ f.edges → f.errors ≠ [] → ∃ t,
        exec (.hspWrite f) s = .next t ∧ (∀ a, a ≠ 0x30 ∧ a ≠ 0x104 ∧ a ≠ 0x10C → t.hub.reg a = s.hub.reg a) ∧
        t.hub.rd fHstCountHspBad = satTo 16 (s.hub.rd fHstCountHspBad + 1) ∧
        (f.total < f.edges → t.hub.is fHstStatusOverclock = true) ∧
        (f.crcBad = true → t.hub.is fHstStatusCrcErr = true) ∧
        (f.misaligned = true → t.hub.is fHstStatusAlign = true) ∧ t.hub.cells = s.hub.cells ∧ t.met = s.met) ∧
    -- HSP_READ of one word, well-formed and in time: the same as reading the register, and the data CRC behind the word
    (∀ (s : State) (f : HspFrame),
      s.hub.railHeld 2 = false → s.hub.asleep = false → f.op = 2 → (f.crcOn = true ∨ s.hub.is fHstCfgCrcReq = false) →
      f.addr.toNat % 4 = 0 → f.n = 1 → f.edges = f.total → f.crcBad = false → f.early = false →
      (f.quad && f.contend) = false → ∃ t,
        exec (.hspRead f) s = .next t ∧ exec (.rcRead f.addr) s = .next { t with hub := t.hub.sendCrc none } ∧
        (f.crcOn = true → t.hub.host.crc = some (crc16 (t.hub.host.out.flatMap msbBytes)))) ∧
    -- HSP_READ of glb.tag: its word, and nothing else changes
    (∀ (s : State) (f : HspFrame),
      s.hub.railHeld 2 = false → s.hub.asleep = false → f.op = 2 → (f.crcOn = true ∨ s.hub.is fHstCfgCrcReq = false) →
      f.addr = 0x10#24 → f.n = 1 → f.edges = f.total → f.crcBad = false → f.early = false →
      (f.quad && f.contend) = false → ∃ t,
        exec (.hspRead f) s = .next t ∧ t.hub.host.out = [s.hub.reg 0x10] ∧
        (∀ a, a ≠ 0x30 → t.hub.reg a = s.hub.reg a) ∧ t.met = s.met) ∧
    -- HSP_READ whose first word is not ready in time: zeros and rd_early; what the read would clear is as the frame's length says
    (∀ (s : State) (f : HspFrame),
      s.hub.railHeld 2 = false → s.hub.asleep = false → f.op = 2 → (f.crcOn = true ∨ s.hub.is fHstCfgCrcReq = false) →
      f.errors = [] → f.addr.toNat % 4 = 0 → f.early = true → (f.quad && f.contend) = false → ∃ t,
        exec (.hspRead f) s = .next t ∧ t.hub.host.out = List.replicate f.n 0#32 ∧ t.hub.is fHstStatusRdEarly = true ∧
        (∀ a, a ≠ 0x30 ∧ a ≠ 0x104 → t.hub.reg a = s.hub.reg a)) ∧
    -- HSP_READ of a frame whose header CRC fails or whose address is misaligned: zeros, and no side effect
    (∀ (s : State) (f : HspFrame),
      s.hub.railHeld 2 = false → s.hub.asleep = false → f.op = 2 → (f.crcOn = true ∨ s.hub.is fHstCfgCrcReq = false) →
      f.edges = f.total → (f.crcBad = true ∨ f.misaligned = true) → (f.quad && f.contend) = false → ∃ t,
        exec (.hspRead f) s = .next t ∧ t.hub.host.out = List.replicate f.n 0#32 ∧
        (∀ a, a ≠ 0x30 ∧ a ≠ 0x104 ∧ a ≠ 0x10C → t.hub.reg a = s.hub.reg a) ∧
        (f.crcBad = true → t.hub.is fHstStatusCrcErr = true) ∧ (f.misaligned = true → t.hub.is fHstStatusAlign = true)) ∧
    -- HSP_CMD_REFUSED
    (∀ (s : State) (cmd : BitVec 8),
      s.hub.railHeld 2 = false → s.hub.asleep = false → cmd.toNat / 32 ≠ 1 → cmd.toNat / 32 ≠ 2 → ∃ t,
        exec (.hspCmdRefused cmd) s = .next t ∧ t.hub.is fHstStatusCmdErr = true ∧
        t.hub.rd fHstCountHspBad = satTo 16 (s.hub.rd fHstCountHspBad + 1) ∧ t.hub.host.out = [] ∧
        (∀ a, a ≠ 0x30 ∧ a ≠ 0x104 ∧ a ≠ 0x10C → t.hub.reg a = s.hub.reg a)) ∧
    -- HTW_WRITE_REGISTER, register i of a transaction: the same as REGISTER_WRITE at its address, within the block it began in
    (∀ (s : State) (addr : BitVec 24) (i : Nat) (w : Word),
      s.hub.railHeld 2 = false → s.hub.asleep = false → addr.toNat % 4 = 0 → addr.toNat + 4 * i < 16777216 →
      blkOf (addr.toNat + 4 * i) = blkOf addr.toNat → s.hub.host.htwIdle = false → ∃ t,
        exec (.htwWriteRegister ⟨addr, i⟩ w) s = .next t ∧
        exec (.registerWrite (BitVec.ofNat 24 (addr.toNat + 4 * i)) w) s = .next t) ∧
    -- HTW_WRITE_REGISTER past the end of a block that answers: nothing is written, and over is set
    (∀ (s : State) (addr : BitVec 24) (i : Nat) (w : Word),
      s.hub.railHeld 2 = false → s.hub.asleep = false → addr.toNat % 4 = 0 →
      (blkOf addr.toNat).2 ≤ addr.toNat + 4 * i → addr.toNat + 4 * i < 16777216 → (blkOf addr.toNat).1 ≠ .dbg →
      (blkOf addr.toNat).1 ≠ .ldr → (blkOf addr.toNat).1 ≠ .cas →
      blkReady s.fixed.variant s.hub s.met (blkOf addr.toNat).1 = true → ∃ t,
        exec (.htwWriteRegister ⟨addr, i⟩ w) s = .next t ∧ t.hub.is fHstStatusOver = true ∧
        t.hub.rd fHstLastAddr = addr.toNat + 4 * i ∧ t.hub.host.htwIdle = false ∧
        (∀ a, a ≠ 0x30 ∧ a ≠ 0x104 ∧ a ≠ 0x108 → t.hub.reg a = s.hub.reg a)) ∧
    -- HTW_READ_REGISTER, register i of a transaction: the same as reading the register at its address
    (∀ (s : State) (addr : BitVec 24) (i : Nat),
      s.hub.railHeld 2 = false → s.hub.asleep = false → addr.toNat % 4 = 0 → addr.toNat + 4 * i < 16777216 →
      blkOf (addr.toNat + 4 * i) = blkOf addr.toNat → s.hub.host.htwIdle = false → ∃ t,
        exec (.htwReadRegister ⟨addr, i⟩) s = .next t ∧
        exec (.rcRead (BitVec.ofNat 24 (addr.toNat + 4 * i))) s = .next t) ∧
    -- HTW_READ_REGISTER of glb.tag
    (∀ (s : State),
      s.hub.railHeld 2 = false → s.hub.asleep = false → ∃ t,
        exec (.htwReadRegister ⟨0x10#24, 0⟩) s = .next t ∧ t.hub.host.out = [s.hub.reg 0x10] ∧
        t.hub.host.htwIdle = false ∧ (∀ a, a ≠ 0x30 → t.hub.reg a = s.hub.reg a)) ∧
    -- REGISTER_WRITE of a read-write register of glb and hst: the channel fields and the interrupt enables
    (∀ (s : State) (addr : BitVec 24) (w : Word),
      s.hub.asleep = false → (addr = 0x10#24 ∨ addr = 0x20#24 ∨ addr = 0x28#24 ∨ addr = 0x100#24) → ∃ t,
        exec (.registerWrite addr w) s = .next t ∧ (addr = 0x10#24 → t.hub.reg 0x10 = w) ∧
        (addr = 0x20#24 → t.hub.rd fGlbIrq0EnBlocks = fieldOf w 0 15) ∧
        (addr = 0x28#24 → t.hub.rd fGlbIrq1EnBlocks = fieldOf w 0 15) ∧
        (addr = 0x100#24 → t.hub.rd fHstCfgIrqPol = fieldOf w 0 1 ∧ t.hub.rd fHstCfgCrcReq = fieldOf w 1 1) ∧
        (∀ a, a ≠ 0x30 ∧ a ≠ addr.toNat → t.hub.reg a = s.hub.reg a) ∧ t.met = s.met) ∧
    -- REGISTER_WRITE of hst.status: a bit written 1 clears, a bit written 0 stays
    (∀ (s : State) (w : Word),
      s.hub.asleep = false → ∃ t,
        exec (.registerWrite 0x104#24 w) s = .next t ∧
        t.hub.rd fHstStatusOver = (if bitOf w 1 then 0 else s.hub.rd fHstStatusOver) ∧
        t.hub.rd fHstStatusHtwPartial = (if bitOf w 14 then 0 else s.hub.rd fHstStatusHtwPartial) ∧
        (∀ a, a ≠ 0x30 ∧ a ≠ 0x104 → t.hub.reg a = s.hub.reg a)) ∧
    -- RC_READ of hst.count: the counts are returned and cleared
    (∀ (s : State),
      s.hub.asleep = false → ∃ t,
        exec (.rcRead 0x10C#24) s = .next t ∧ t.hub.host.out = [s.hub.reg 0x10C] ∧ t.hub.rd fHstCountHspBad = 0 ∧
        t.hub.rd fHstCountHtwBad = 0 ∧ (∀ a, a ≠ 0x30 ∧ a ≠ 0x10C → t.hub.reg a = s.hub.reg a))

/-- The two-wire target reports what goes wrong, and a select or an address wakes a sleeping hub. A protocol error and a
timeout of HTW_SCL are flagged and counted and leave the target waiting for a START; a transaction that ends inside a
register or inside its address is flagged partial and counted, any other end is no error; while the hub sleeps an access
only asks for a wake. (R69, R70, R71) -/
def Obligations.HostTwoWireErrors : Prop :=
    -- HTW_PROTOCOL_ERROR
    (∀ (s : State),
      s.hub.railHeld 2 = false → s.hub.asleep = false → ∃ t,
        exec .htwProtocolError s = .next t ∧ t.hub.is fHstStatusHtwProto = true ∧
        t.hub.rd fHstCountHtwBad = satTo 16 (s.hub.rd fHstCountHtwBad + 1) ∧ t.hub.host.htwIdle = true ∧
        (∀ a, a ≠ 0x30 ∧ a ≠ 0x104 ∧ a ≠ 0x10C → t.hub.reg a = s.hub.reg a)) ∧
    -- HTW_SCL_TIMEOUT
    (∀ (s : State),
      s.hub.railHeld 2 = false → s.hub.asleep = false → ∃ t,
        exec .htwSclTimeout s = .next t ∧ t.hub.is fHstStatusHtwTimeout = true ∧
        t.hub.rd fHstCountHtwBad = satTo 16 (s.hub.rd fHstCountHtwBad + 1) ∧ t.hub.host.htwIdle = true ∧
        (∀ a, a ≠ 0x30 ∧ a ≠ 0x104 ∧ a ≠ 0x10C → t.hub.reg a = s.hub.reg a)) ∧
    -- HTW_TRANSACTION_END part-way through the address or through a register
    (∀ (s : State) (n k : Fin 4),
      s.hub.railHeld 2 = false → s.hub.asleep = false → (n = 1 ∨ n = 2 ∨ n = 3 ∧ k ≠ 0) → ∃ t,
        exec (.htwTransactionEnd n k) s = .next t ∧ t.hub.is fHstStatusHtwPartial = true ∧
        t.hub.rd fHstCountHtwBad = satTo 16 (s.hub.rd fHstCountHtwBad + 1) ∧
        (∀ a, a ≠ 0x30 ∧ a ≠ 0x104 ∧ a ≠ 0x10C → t.hub.reg a = s.hub.reg a)) ∧
    -- HTW_TRANSACTION_END on a boundary: no error
    (∀ (s : State) (n k : Fin 4),
      s.hub.railHeld 2 = false → s.hub.asleep = false → (n = 0 ∨ n = 3 ∧ k = 0) → ∃ t,
        exec (.htwTransactionEnd n k) s = .next t ∧ (∀ a, a ≠ 0x30 → t.hub.reg a = s.hub.reg a)) ∧
    -- HOST_ACCESS_WAKE
    (∀ (s : State) (htw : Bool),
      s.hub.asleep = true → s.hub.sup.wake = 0 → ∃ t,
        exec (.hostAccessWake htw) s = .next t ∧ t.hub.sup.wake = (if htw then 2 else 1) ∧ t.hub.asleep = true ∧
        (htw = true → t.hub.rd fHstCountHtwBad = satTo 16 (s.hub.rd fHstCountHtwBad + 1)) ∧
        (∀ a, a ≠ 0x30 ∧ a ≠ 0x10C → t.hub.reg a = s.hub.reg a))

/-- The global commit. An armed commit shows its channel and switches nothing. A commit spends every staged value and
passes the clock edge it takes; a staged parameter of a tile slot, the staged divider of an idle port and a staged
increment of an unprivileged timebase are then in force; with nothing staged no register changes. (R78, R81, R309) -/
def Obligations.GlobalCommit : Prop :=
    -- GLB_COMMIT_ARM
    (∀ (s : State) (chan : BitVec 7),
      s.hub.answers s.fixed s.met .glb 0x8 = true → ∃ t,
        exec (.glbCommitArm chan) s = .next t ∧ t.hub.is fGlbCommitArm = true ∧ t.hub.rd fGlbCommitChan = chan.toNat ∧
        t.hub.host = s.hub.host ∧ (∀ a, a ≠ 0x30 ∧ a ≠ 0x8 → t.hub.reg a = s.hub.reg a)) ∧
    -- GLB_COMMIT_GO, no loader commit taken in the same cycle: every staged value is spent, and the cycle of its edge passes
    (∀ (s : State),
      s.hub.answers s.fixed s.met .glb 0x8 = true → s.hub.ldr.taken ≠ s.hub.cyc + 1 → ∃ t,
        exec .glbCommitGo s = .next t ∧ t.hub.host.shadows = [] ∧ t.hub.host.after = s.hub.host.after ∧
        t.hub.cyc = (if s.hub.clk.gates then s.hub.cyc + 1 else s.hub.cyc) ∧ t.hub.cells = s.hub.cells) ∧
    -- GLB_COMMIT_GO without a step of a timebase: a staged value of a tile slot, a port's divider or a timebase's increment is in force
    (∀ (s : State) (x : Shadow),
      s.hub.answers s.fixed s.met .glb 0x8 = true → s.hub.ldr.taken ≠ s.hub.cyc + 1 → x ∈ s.hub.host.shadows →
      (∀ y ∈ s.hub.host.shadows, y.addr = x.addr → y = x) →
      (List.range 17).all (fun k => s.hub.host.shadows.all (fun y => y.addr != rTmTbCtl k)) = true →
      x.lo + x.len ≤ 32 → ∃ t,
        exec .glbCommitGo s = .next t ∧
        (0x80000 ≤ x.addr → x.addr < 0xA0000 → t.hub.rd ⟨x.addr, x.lo, x.len⟩ = x.val % 2 ^ x.len) ∧
        (∀ p : Fin 24, x.addr = rSpPDiv p → (s.hub.port p).phase = 0 → t.hub.rd (fSpPDivDiv p) = x.val % 65536) ∧
        (∀ k : Fin 16, x.addr = rTmTbIncLo k → x.lo = 0 → x.len = 32 → t.hub.rd (fTmTbIncLoIncLo k) = x.val % 2 ^ 32)) ∧
    -- GLB_COMMIT_GO with nothing staged and no port waiting: no register changes
    (∀ (s : State),
      s.hub.answers s.fixed s.met .glb 0x8 = true → s.hub.host.shadows = [] →
      (List.range 24).all (fun p => (s.hub.port p).newRole.isNone && (s.hub.port p).newDiv.isNone) = true → ∃ t,
        exec .glbCommitGo s = .next t ∧ t.hub.host = s.hub.host ∧
        t.hub.cyc = (if s.hub.clk.gates then s.hub.cyc + 1 else s.hub.cyc) ∧
        (∀ a, a ≠ 0x30 → t.hub.reg a = s.hub.reg a)) ∧
    -- GLB_COMMIT_GO with one staged value of a tile slot's parameter: no other register changes
    (∀ (s : State) (x : Shadow),
      s.hub.answers s.fixed s.met .glb 0x8 = true → s.hub.ldr.taken ≠ s.hub.cyc + 1 → s.hub.host.shadows = [x] →
      0x80000 ≤ x.addr → x.addr < 0xA0000 → x.lo + x.len ≤ 32 →
      (List.range 24).all (fun p => (s.hub.port p).newRole.isNone && (s.hub.port p).newDiv.isNone) = true → ∃ t,
        exec .glbCommitGo s = .next t ∧ t.hub.host.shadows = [] ∧ t.hub.rd ⟨x.addr, x.lo, x.len⟩ = x.val % 2 ^ x.len ∧
        (∀ a, a ≠ 0x30 ∧ a ≠ x.addr → t.hub.reg a = s.hub.reg a))

/-- Controller frames of a sample port. A start in an idle port begins a frame with the stamp of the next edge, from
entry 0 of the plan where a restart waits and with its TRG pulse in TRG mode; one during a frame is held and begins late
after it, and one with another held is dropped and counted. A frame that completes counts, stores its stamp and, in a
port of one lane and one slot without checks, gives its sample to the FIFO; it stays in progress for the hold periods,
at whose end the taps move or a written tap word applies. A restart is noted for the next frame; a committed role and
divider take effect between frames; reading stamp0 latches the stamp. (R91, R92, R93, R97, R98, R102, R107, R109, R117,
R118) -/
def Obligations.PortFrames : Prop :=
    -- PORT_START, idle port
    (∀ (s : State) (p : Fin 24),
      s.hub.spUp p = true → s.hub.spOn p = true → s.hub.spTarget p = false → (s.hub.port p).phase = 0 →
      (s.hub.port p).heldStart = none → ∃ t,
        exec (.portStart p) s = .next t ∧ (t.hub.port p).phase = 1 ∧ (t.hub.port p).start = s.hub.cyc ∧
        (t.hub.port p).stamp = Sys2Proof.Machine.report (s.hub.tbNext (s.hub.spTb p)) ∧ (t.hub.port p).late = false ∧
        (t.hub.port p).restart = false ∧ t.hub.is (fSpPStatusBusy p) = true ∧
        ((s.hub.port p).restart = true → t.hub.rd (fSpPPlanEntry p) = 0 ∧ t.hub.rd (fSpPPlanFrame p) = 0) ∧
        ((s.hub.port p).restart = false → t.hub.reg (rSpPPlan p) = s.hub.reg (rSpPPlan p)) ∧
        (s.hub.spTrg p = true → s.hub.cf 10 16 (0x010 + s.hub.cf 3 p 3 16 4) 17 1 = 1 → NMap.get t.hub.trg (s.hub.cf 3 p 3 16 4) = s.hub.cyc + s.hub.cf 10 16 (0x010 + s.hub.cf 3 p 3 16 4) 0 16) ∧
        (∀ a, 0x40000 ≤ a → a < 0x60000 → a ≠ rSpPStatus p → a ≠ rSpPPlan p → t.hub.reg a = s.hub.reg a)) ∧
    -- PORT_START during a frame: held
    (∀ (s : State) (p : Fin 24),
      s.hub.spUp p = true → s.hub.spOn p = true → s.hub.spTarget p = false → (s.hub.port p).phase ≠ 0 →
      (s.hub.port p).heldStart = none → ∃ t,
        exec (.portStart p) s = .next t ∧ t.hub.port p = { s.hub.port p with heldStart := some s.hub.cyc } ∧
        (∀ a, a ≠ 0x30 → t.hub.reg a = s.hub.reg a)) ∧
    -- PORT_START with one held already: dropped
    (∀ (s : State) (p : Fin 24),
      s.hub.spUp p = true → s.hub.spOn p = true → s.hub.spTarget p = false → (s.hub.port p).heldStart ≠ none → ∃ t,
        exec (.portStart p) s = .next t ∧ t.hub.is (fSpPStatusStartDrop p) = true ∧
        t.hub.rd (fSpPLostStarts p) = satTo 8 (s.hub.rd (fSpPLostStarts p) + 1) ∧
        (t.hub.port p).heldStart = (s.hub.port p).heldStart ∧ (t.hub.port p).phase = (s.hub.port p).phase) ∧
    -- HELD_START_TAKEN
    (∀ (s : State) (p : Fin 24) (c : Nat),
      (s.hub.port p).heldStart = some c → (s.hub.port p).phase = 0 → s.hub.spUp p = true → s.hub.spOn p = true → ∃ t,
        exec (.heldStartTaken p) s = .next t ∧ (t.hub.port p).phase = 1 ∧ (t.hub.port p).start = s.hub.cyc ∧
        (t.hub.port p).stamp = Sys2Proof.Machine.report (s.hub.tbNext (s.hub.spTb p)) ∧ (t.hub.port p).late = true ∧
        (t.hub.port p).heldStart = none ∧ t.hub.is (fSpPStatusLate p) = true ∧ t.hub.is (fSpPStatusBusy p) = true ∧
        t.hub.rd (fSpPLateCount p) = satTo 16 (s.hub.rd (fSpPLateCount p) + 1) ∧
        t.hub.rd (fSpPLateLast p) = satTo 16 (s.hub.cyc - c)) ∧
    -- PORT_FRAME_COMPLETE
    (∀ (s : State) (p : Fin 24) (lanes : List Nat) (shadow : List Word) (dip : BitVec 17) (keepUp parity : Bool),
      (s.hub.port p).phase = 1 → s.hub.spTarget p = false → ∃ t,
        exec (.portFrameComplete p lanes shadow dip keepUp parity) s = .next t ∧ (t.hub.port p).phase = 2 ∧
        (t.hub.port p).lastStamp = (s.hub.port p).stamp) ∧
    -- PORT_FRAME_COMPLETE while the ingress path has not taken a word of it: its count
    (∀ (s : State) (p : Fin 24) (lanes : List Nat) (shadow : List Word) (dip : BitVec 17) (parity : Bool),
      (s.hub.port p).phase = 1 → s.hub.spTarget p = false → ∃ t,
        exec (.portFrameComplete p lanes shadow dip false parity) s = .next t ∧
        t.hub.rd (fSpPFramesFrames p) = (s.hub.rd (fSpPFramesFrames p) + 1) % 2 ^ 32 ∧
        t.hub.rd (fSpPErrBad p) = s.hub.rd (fSpPErrBad p)) ∧
    -- PORT_FRAME_COMPLETE of a port of one lane and one slot without checks: its sample enters the FIFO
    (∀ (s : State) (p : Fin 24) (v c : Nat) (dip : BitVec 17) (parity : Bool),
      (s.hub.port p).phase = 1 → s.hub.spTarget p = false → s.hub.spLanes p = 1 → s.hub.spS p = 1 →
      s.hub.spCrc p = 0 → s.hub.spSyncOn p = false → s.hub.slotCtx p (s.hub.spMap p (s.hub.spEntry p)) 0 0 = some c →
      (s.hub.port p).fifo.length < 8 → (s.hub.port p).gaps = [] → s.hub.stHeld heldFifo = false → ∃ t,
        exec (.portFrameComplete p [v] [] dip false parity) s = .next t ∧
        (t.hub.port p).fifo = (s.hub.port p).fifo ++ [{ ctx := c, real := true, samp := { val := sampleOf (s.hub.slotCell p (s.hub.spMap p (s.hub.spEntry p)) 0 0) (wordOfBits (s.hub.spLsb p) (s.hub.slotBits p 0 (laneBits v (s.hub.spE p)))), tag := (if s.hub.rd (fSpPPlanFrame p) < s.hub.cf 3 p (0x10 + 4 * s.hub.spEntry p) 12 8 then tSettle else 0#8) ||| (if (s.hub.port p).late then tLate else 0#8) ||| (if dip.getLsbD 16 || dip.getLsbD 0 then tDip else 0#8), time := (s.hub.port p).stamp } }]) ∧
    -- HOLD_PERIODS_COMPLETE
    (∀ (s : State) (p : Fin 24),
      (s.hub.port p).phase = 2 → ∃ t,
        exec (.holdPeriodsComplete p) s = .next t ∧ (t.hub.port p).phase = 0 ∧ t.hub.is (fSpPStatusBusy p) = false ∧
        (s.hub.training p = false → (s.hub.port p).newTap = none → ∀ a, a ≠ 0x30 ∧ a ≠ rSpPStatus p → t.hub.reg a = s.hub.reg a) ∧
        (∀ w (l : Fin 4), s.hub.training p = false → (s.hub.port p).newTap = some w → t.hub.rd (tapFld p l) = fieldOf w (8 * l) 6) ∧
        (∀ l, l < s.hub.spLanes p → s.hub.training p = true → t.hub.rd (tapFld p l) = (if NMap.get (s.hub.port p).target l = 0 ∨ s.hub.rd (tapFld p l) + 1 = NMap.get (s.hub.port p).target l then s.hub.rd (tapFld p l) else if s.hub.rd (tapFld p l) + 1 < NMap.get (s.hub.port p).target l then (s.hub.rd (tapFld p l) + 1) % 64 else s.hub.rd (tapFld p l) - 1))) ∧
    -- SP_PLAN_RESTART: noted for the next frame start
    (∀ (s : State) (p : Fin 24),
      s.hub.answers s.fixed s.met .sp (0x040028 + 0x800 * p) = true → ∃ t,
        exec (.spPlanRestart p) s = .next t ∧ t.hub.port p = { s.hub.port p with restart := true } ∧
        (∀ a, a ≠ 0x30 → t.hub.reg a = s.hub.reg a)) ∧
    -- PORT_S(if s.hub.rd (fSpPPlanFrame p) < s.hub.cf 3 p (0x10 + 4 * s.hub.spEntry p) 12 8 then tSettle else 0#8) ||| (if (s.hub.port p).late then tLate else 0#8)ED_APPLY between frames
    (∀ (s : State) (p : Fin 24),
      (s.hub.port p).phase = 0 → ∃ t,
        exec (.portStagedApply p) s = .next t ∧
        (∀ r, (s.hub.port p).newRole = some r → t.hub.rd (fSpPCtlRole p) = r % 2 ∧ (r = 1 → (t.hub.port p).heldStart = none)) ∧
        (∀ d, (s.hub.port p).newDiv = some d → t.hub.rd (fSpPDivDiv p) = d % 65536) ∧
        ((s.hub.port p).newRole = none → t.hub.reg (rSpPCtl p) = s.hub.reg (rSpPCtl p)) ∧
        ((s.hub.port p).newDiv = none → t.hub.reg (rSpPDiv p) = s.hub.reg (rSpPDiv p)) ∧
        (t.hub.port p).newRole = none ∧ (t.hub.port p).newDiv = none) ∧
    -- SP_STAMP_READ
    (∀ (s : State) (p : Fin 24),
      s.hub.answers s.fixed s.met .sp (0x040030 + 0x800 * p) = true → ∃ t,
        exec (.spStampRead p) s = .next t ∧ t.hub.host.out = [(timeWords (s.hub.port p).lastStamp).getD 0 0#32] ∧
        (t.hub.port p).latch = 8 * (s.hub.port p).lastStamp + (s.hub.port p).flags ∧
        (∀ a, a ≠ 0x30 → t.hub.reg a = s.hub.reg a))

/-- Target frames of a sample port and the ingress path. An assertion of the select opens a frame with the stamp of the
cycle the TDC names; each edge of a frame shifts one bit into each lane, the last edge of a slot gives its sample to the
FIFO in a port of one lane without checks, and the last edge of a frame counts it; an edge beyond the expected ones is
only counted; the deassertion closes the frame, and a frame short of its edges counts as bad. The ingress path takes the
oldest word of the FIFO whose turn it is: a good one reaches its context, one whose parity fails is replaced by the last
good sample with ABORTED, and with every FIFO empty nothing changes. A place named out of its turn gives nothing; the
order of the places is the model's choice (log entry 91). (R94, R95, R96, R98, R102, R104, R107, R129) -/
def Obligations.PortTargets : Prop :=
    -- TARGET_SELECT_ASSERT
    (∀ (s : State) (p : Fin 24) (tdc : Fin 2) (whole dip : Bool),
      s.hub.spTarget p = true → (s.hub.port p).phase = 0 → s.hub.spUp p = true → s.hub.spOn p = true → ∃ t,
        exec (.targetSelectAssert p ⟨tdc, whole, dip⟩) s = .next t ∧ (t.hub.port p).phase = 1 ∧
        (t.hub.port p).edges = 0 ∧ (t.hub.port p).start = s.hub.cyc ∧
        (t.hub.port p).stamp = Sys2Proof.Machine.report (if tdc.val = 0 then s.hub.tbVal (s.hub.spTb p) else s.hub.tbNext (s.hub.spTb p)) ∧
        (t.hub.port p).restart = false ∧ t.hub.is (fSpPStatusBusy p) = true ∧
        ((s.hub.port p).restart = true → t.hub.rd (fSpPPlanEntry p) = 0 ∧ t.hub.rd (fSpPPlanFrame p) = 0) ∧
        (∀ a, a ≠ 0x30 ∧ a ≠ rSpPStatus p ∧ a ≠ rSpPPlan p → t.hub.reg a = s.hub.reg a)) ∧
    -- TARGET_CAPTURE_EDGE of a frame short of its edges
    (∀ (s : State) (p : Fin 24) (bits : BitVec 4) (dip : Bool) (shadow : List Word) (keepUp parity : Bool),
      (s.hub.port p).phase = 1 → s.hub.spTarget p = true → (s.hub.port p).edges < s.hub.spE p → ∃ t,
        exec (.targetCaptureEdge p bits dip shadow keepUp parity) s = .next t ∧
        (t.hub.port p).edges = (s.hub.port p).edges + 1 ∧ (t.hub.port p).phase = 1 ∧
        (∀ l : Fin 4, l.val < s.hub.spLanes p → NMap.get (t.hub.port p).lanes l = 2 * NMap.get (s.hub.port p).lanes l + b2n (bits.getLsbD l))) ∧
    -- TARGET_CAPTURE_EDGE, the last of the frame, while the ingress path has not taken a word of it
    (∀ (s : State) (p : Fin 24) (bits : BitVec 4) (dip : Bool) (shadow : List Word) (parity : Bool),
      (s.hub.port p).phase = 1 → s.hub.spTarget p = true → (s.hub.port p).edges + 1 = s.hub.spE p → ∃ t,
        exec (.targetCaptureEdge p bits dip shadow false parity) s = .next t ∧
        (t.hub.port p).lastStamp = (s.hub.port p).stamp ∧
        t.hub.rd (fSpPFramesFrames p) = (s.hub.rd (fSpPFramesFrames p) + 1) % 2 ^ 32) ∧
    -- TARGET_CAPTURE_EDGE, the last edge of slot k in a frame that will be whole, one lane without checks: its sample enters the FIFO
    (∀ (s : State) (p : Fin 24) (bits : BitVec 4) (shadow : List Word) (k c : Nat) (parity : Bool),
      (s.hub.port p).phase = 1 → s.hub.spTarget p = true → (s.hub.port p).edges < s.hub.spE p →
      (s.hub.port p).whole = true → s.hub.spLanes p = 1 → k < s.hub.spS p →
      (s.hub.port p).edges + 1 = s.hub.slotLast p k → s.hub.spCrc p = 0 → s.hub.spSyncOn p = false →
      s.hub.slotCtx p (s.hub.spMap p 0) 0 k = some c → (s.hub.port p).fifo.length < 8 → (s.hub.port p).gaps = [] →
      s.hub.stHeld heldFifo = false → ∃ t,
        exec (.targetCaptureEdge p bits false shadow false parity) s = .next t ∧
        (t.hub.port p).fifo = (s.hub.port p).fifo ++ [{ ctx := c, real := true, samp := { val := sampleOf (s.hub.slotCell p (s.hub.spMap p 0) 0 k) (wordOfBits (s.hub.spLsb p) (s.hub.slotBits p k (laneBits (2 * NMap.get (s.hub.port p).lanes 0 + b2n (bits.getLsbD 0)) ((s.hub.port p).edges + 1)))), tag := (if s.hub.rd (fSpPPlanFrame p) < s.hub.cf 3 p (0x10 + 4 * s.hub.spEntry p) 12 8 then tSettle else 0#8) ||| (if (s.hub.port p).late then tLate else 0#8) ||| (if (s.hub.port p).dips.testBit 16 || (s.hub.port p).dips.testBit k then tDip else 0#8), time := (s.hub.port p).stamp } }]) ∧
    -- TARGET_EXTRA_EDGE
    (∀ (s : State) (p : Fin 24),
      s.hub.spTarget p = true → s.hub.spUp p = true → s.hub.spOn p = true →
      ((s.hub.port p).phase = 0 ∨ (s.hub.port p).phase = 1 ∧ s.hub.spE p ≤ (s.hub.port p).edges) → ∃ t,
        exec (.targetExtraEdge p) s = .next t ∧ t.hub.is (fSpPStatusOverclock p) = true ∧
        t.hub.rd (fSpPLostEdges p) = satTo 16 (s.hub.rd (fSpPLostEdges p) + 1) ∧ t.hub.sp = s.hub.sp) ∧
    -- TARGET_FRAME_END of a frame that had all its edges
    (∀ (s : State) (p : Fin 24) (shadow : List Word) (keepUp parity : Bool),
      s.hub.spTarget p = true → (s.hub.port p).phase = 1 → s.hub.spE p ≤ (s.hub.port p).edges → ∃ t,
        exec (.targetFrameEnd p shadow keepUp parity) s = .next t ∧ (t.hub.port p).phase = 0 ∧
        (t.hub.port p).fifo = (s.hub.port p).fifo ∧ t.hub.is (fSpPStatusBusy p) = false ∧
        (s.hub.training p = false → (s.hub.port p).newTap = none → ∀ a, a ≠ 0x30 ∧ a ≠ rSpPStatus p → t.hub.reg a = s.hub.reg a)) ∧
    -- TARGET_FRAME_END of a frame short of its edges, while the ingress path has not taken a word of it
    (∀ (s : State) (p : Fin 24) (shadow : List Word) (parity : Bool),
      s.hub.spTarget p = true → (s.hub.port p).phase = 1 → (s.hub.port p).edges < s.hub.spE p → ∃ t,
        exec (.targetFrameEnd p shadow false parity) s = .next t ∧ (t.hub.port p).phase = 0 ∧
        t.hub.is (fSpPStatusBusy p) = false ∧ t.hub.rd (fSpPErrBad p) = satTo 8 (s.hub.rd (fSpPErrBad p) + 1) ∧
        t.hub.rd (fSpPFramesFrames p) = (s.hub.rd (fSpPFramesFrames p) + 1) % 2 ^ 32 ∧
        (t.hub.is (fSpPStatusAborted p) = true ∨ t.hub.is (fSpPStatusShort p) = true)) ∧
    -- INGRESS_WORD, a sample port's turn: a good word for a running context with stages and room
    (∀ (s : State) (p : Fin 24) (w : FifoWord) (rest : List FifoWord) (u : Fin 32),
      s.hub.ingressTurn = some u.val → u.val = p.val → s.hub.stHeld heldFifo = false →
      (s.hub.port p).fifo = w :: rest → w.real = true → w.samp.has tAborted = false → s.hub.ctxRuns w.ctx = true →
      s.hub.ctxStages w.ctx ≠ 0 → (NMap.get s.hub.ctx w.ctx).inq.length < 16 →
      (s.hub.ctxShadow w.ctx = true → (s.hub.stg' (192 + w.ctx) 0).inq.length < 16) → ∃ t,
        exec (.ingressWord u false) s = .next t ∧ (t.hub.port p).fifo = rest ∧ t.hub.ingress = (p.val + 1) % 32 ∧
        (NMap.get t.hub.ctx w.ctx).inq = (NMap.get s.hub.ctx w.ctx).inq ++ [w.samp.addIf (NMap.get s.hub.ctx w.ctx).gapIn tGap] ∧
        NMap.get (t.hub.port p).last w.ctx = w.samp.val ∧ (∀ a, a ≠ 0x30 → t.hub.reg a = s.hub.reg a)) ∧
    -- INGRESS_WORD, a sample port's turn: a word whose parity fails, for a context with stages and room
    (∀ (s : State) (p : Fin 24) (w : FifoWord) (rest : List FifoWord) (u : Fin 32),
      s.hub.ingressTurn = some u.val → u.val = p.val → s.hub.stHeld heldFifo = false →
      (s.hub.port p).fifo = w :: rest → s.hub.ctxRuns w.ctx = true → s.hub.ctxStages w.ctx ≠ 0 →
      (NMap.get s.hub.ctx w.ctx).inq.length < 16 → (NMap.get s.hub.ctx w.ctx).gapIn = false →
      s.hub.ctxShadow w.ctx = false → NMap.get s.hub.flt.parity p ≠ 0 → ∃ t,
        exec (.ingressWord u true) s = .next t ∧ (t.hub.port p).fifo = rest ∧
        (NMap.get t.hub.ctx w.ctx).inq = (NMap.get s.hub.ctx w.ctx).inq ++ [{ w.samp with val := NMap.get (s.hub.port p).last w.ctx, tag := w.samp.tag ||| tAborted }] ∧
        t.hub.is (fSpPStatusParity p) = true ∧ t.hub.rd (fSpPErrParity p) = satTo 8 (s.hub.rd (fSpPErrParity p) + 1)) ∧
    -- INGRESS_WORD, a two-wire controller's turn: a good sample for a running context with stages and room
    (∀ (s : State) (c : Fin 8) (w : FifoWord) (rest : List FifoWord) (u : Fin 32),
      s.hub.ingressTurn = some u.val → u.val = 24 + c.val → s.hub.stHeld heldFifo = false →
      (s.hub.twc c).fifo = w :: rest → w.real = true → w.samp.has tAborted = false → s.hub.ctxRuns w.ctx = true →
      s.hub.ctxStages w.ctx ≠ 0 → (NMap.get s.hub.ctx w.ctx).inq.length < 16 →
      (s.hub.ctxShadow w.ctx = true → (s.hub.stg' (192 + w.ctx) 0).inq.length < 16) → ∃ t,
        exec (.ingressWord u false) s = .next t ∧ (t.hub.twc c).fifo = rest ∧ t.hub.ingress = (25 + c.val) % 32 ∧
        (NMap.get t.hub.ctx w.ctx).inq = (NMap.get s.hub.ctx w.ctx).inq ++ [w.samp.addIf (NMap.get s.hub.ctx w.ctx).gapIn tGap] ∧
        (∀ a, a ≠ 0x30 → t.hub.reg a = s.hub.reg a)) ∧
    -- INGRESS_WORD with every FIFO empty
    (∀ (s : State) (parity : Bool) (u : Fin 32),
      (List.range 32).all (fun v => s.hub.ingressLen v == 0) = true → ∃ t,
        exec (.ingressWord u parity) s = .next t ∧ (∀ a, a ≠ 0x30 → t.hub.reg a = s.hub.reg a) ∧ t.hub.sp = s.hub.sp ∧
        t.hub.tw = s.hub.tw ∧ t.hub.ctx = s.hub.ctx) ∧
    -- INGRESS_WORD of a place whose turn it is not: nothing is taken
    (∀ (s : State) (parity : Bool) (u : Fin 32),
      s.hub.ingressTurn ≠ some u.val → ∃ t,
        exec (.ingressWord u parity) s = .next t ∧ (∀ a, a ≠ 0x30 → t.hub.reg a = s.hub.reg a) ∧ t.hub.sp = s.hub.sp ∧
        t.hub.tw = s.hub.tw ∧ t.hub.ctx = s.hub.ctx)

/-- Polls of a two-wire controller. A start of an idle or STUCK controller with nothing held begins the entry's
transaction with the stamp of the next edge, behind a bus clear where SDA is low or the controller STUCK; one that finds
a transaction, another held start or an untrimmed WCLK is held, and one already held is dropped and counted. The first
held entry is served late. A poll that completes gives its mapped fields' samples to the FIFO and rests; a NACK repeats
the poll while it has retries and is flagged after the last. (R125, R126, R127, R129, R130, R134) -/
def Obligations.TwoWirePolls : Prop :=
    -- TW_POLL_START at once
    (∀ (s : State) (c : Fin 8) (e : Fin 16) (sdaLow : Bool),
      s.hub.twUp c = true → s.hub.is (fTwCCtlEnable c) = true → s.hub.pollsHeld = false → e.val < s.hub.twEntries c →
      s.hub.is fClkStatusWclkTrim = true → (s.hub.twc c).kind = 0 → (s.hub.twc c).held = [] →
      (s.hub.twState c = twIdle ∨ s.hub.twState c = twStuck) → ∃ t,
        exec (.twPollStart c e sdaLow) s = .next t ∧
        (t.hub.twState c = (if sdaLow = true ∨ s.hub.twState c = twStuck then twClear else twBusy)) ∧
        (t.hub.twc c).kind = 1 ∧ (t.hub.twc c).entry = e ∧ (t.hub.twc c).attempt = 0 ∧ (t.hub.twc c).late = false ∧
        (t.hub.twc c).stamp = Sys2Proof.Machine.report (s.hub.tbNext (s.hub.twTb c)) ∧
        (∀ a, a ≠ 0x30 ∧ a ≠ rTwCCtl c → t.hub.reg a = s.hub.reg a)) ∧
    -- TW_POLL_START held
    (∀ (s : State) (c : Fin 8) (e : Fin 16) (sdaLow : Bool),
      s.hub.twUp c = true → s.hub.is (fTwCCtlEnable c) = true → s.hub.pollsHeld = false → e.val < s.hub.twEntries c →
      ((s.hub.twc c).kind ≠ 0 ∨ (s.hub.twc c).held ≠ [] ∨ s.hub.is fClkStatusWclkTrim = false) →
      NMap.get (s.hub.twc c).held e = 0 → ∃ t,
        exec (.twPollStart c e sdaLow) s = .next t ∧ NMap.get (t.hub.twc c).held e = s.hub.cyc + 1 ∧
        (t.hub.twc c).kind = (s.hub.twc c).kind ∧ (∀ a, a ≠ 0x30 → t.hub.reg a = s.hub.reg a)) ∧
    -- TW_POLL_START of an entry already held: dropped
    (∀ (s : State) (c : Fin 8) (e : Fin 16) (sdaLow : Bool),
      s.hub.twUp c = true → s.hub.is (fTwCCtlEnable c) = true → s.hub.pollsHeld = false → e.val < s.hub.twEntries c →
      NMap.get (s.hub.twc c).held e ≠ 0 → ∃ t,
        exec (.twPollStart c e sdaLow) s = .next t ∧ t.hub.is (fTwCStatusStartDrop c) = true ∧
        t.hub.rd (fTwCLostStarts c) = satTo 8 (s.hub.rd (fTwCLostStarts c) + 1) ∧
        (t.hub.twc c).held = (s.hub.twc c).held ∧ (t.hub.twc c).kind = (s.hub.twc c).kind) ∧
    -- TW_HELD_STARTS_SERVED: the first held entry, late
    (∀ (s : State) (c : Fin 8) (e : Fin 16) (a0 : Nat) (r0 : List (Nat × Nat)) (sdaLow : Bool),
      s.hub.twBoundary c = true → (s.hub.twc c).held = (e.val, a0) :: r0 → ∃ t,
        exec (.twHeldStartsServed c sdaLow) s = .next t ∧
        (t.hub.twState c = (if sdaLow = true ∨ s.hub.twState c = twStuck then twClear else twBusy)) ∧
        (t.hub.twc c).kind = 1 ∧ (t.hub.twc c).entry = e ∧ (t.hub.twc c).attempt = 0 ∧ (t.hub.twc c).late = true ∧
        NMap.get (t.hub.twc c).held e = 0 ∧
        (sdaLow = false → s.hub.twState c = twIdle → t.hub.is (fTwCStatusLate c) = true ∧ t.hub.rd (fTwCLateCount c) = satTo 16 (s.hub.rd (fTwCLateCount c) + 1))) ∧
    -- TW_TRANSACTION_COMPLETE of a poll
    (∀ (s : State) (c : Fin 8) (bytes : List Byte) (dip : Bool),
      s.hub.twRunning c = true → (s.hub.twc c).kind = 1 → ∃ t,
        exec (.twTransactionComplete c bytes dip) s = .next t ∧ t.hub.twState c = twIdle ∧ (t.hub.twc c).kind = 0 ∧
        (s.hub.twReads c (s.hub.twc c).entry = 0 → (t.hub.twc c).fifo = (s.hub.twc c).fifo)) ∧
    -- TW_TRANSACTION_COMPLETE of a poll that reads, with room: the samples of its mapped fields enter the FIFO
    (∀ (s : State) (c : Fin 8) (bytes : List Byte) (dip : Bool),
      s.hub.twRunning c = true → (s.hub.twc c).kind = 1 → s.hub.twReads c (s.hub.twc c).entry ≠ 0 →
      (s.hub.twc c).fifo.length + (s.hub.twFields c (s.hub.twc c).entry).length ≤ 8 → (s.hub.twc c).gaps = [] →
      s.hub.stHeld heldFifo = false → ∃ t,
        exec (.twTransactionComplete c bytes dip) s = .next t ∧
        (t.hub.twc c).fifo = (s.hub.twc c).fifo ++ (s.hub.twFields c (s.hub.twc c).entry).map (fun f => { ctx := fieldOf f 0 8, real := true, samp := { val := fmtSample (fieldOf f 29 2) (fieldOf f 28 1 == 1) (fieldOf f 17 5 + 1) (natField ((List.range (s.hub.twReads c (s.hub.twc c).entry)).foldl (fun a k => 256 * a + (bytes.getD k 0#8).toNat) 0) (fieldOf f 22 6) (fieldOf f 17 5 + 1)), tag := (if (s.hub.twc c).late then tLate else 0#8) ||| (if (s.hub.twc c).dip || dip then tDip else 0#8), time := (s.hub.twc c).stamp } })) ∧
    -- TW_NACK of a poll with a retry left
    (∀ (s : State) (c : Fin 8) (d dip : Bool),
      s.hub.twRunning c = true → (s.hub.twc c).kind = 1 →
      (s.hub.twc c).attempt < s.hub.twRetries c (s.hub.twc c).entry → ∃ t,
        exec (.twNack ⟨c, dip⟩ d) s = .next t ∧ (t.hub.twc c).attempt = (s.hub.twc c).attempt + 1 ∧
        (t.hub.twc c).retry = true ∧ (t.hub.twc c).fifo = (s.hub.twc c).fifo ∧
        t.hub.rd (fTwCErrNack c) = satTo 8 (s.hub.rd (fTwCErrNack c) + 1) ∧
        (∀ a, a ≠ 0x30 ∧ a ≠ rTwCErr c → t.hub.reg a = s.hub.reg a)) ∧
    -- TW_NACK of the last attempt, or of a host transfer: the error is flagged and the controller rests
    (∀ (s : State) (c : Fin 8) (d dip : Bool),
      s.hub.twRunning c = true →
      ((s.hub.twc c).kind ≠ 1 ∨ s.hub.twRetries c (s.hub.twc c).entry ≤ (s.hub.twc c).attempt) → ∃ t,
        exec (.twNack ⟨c, dip⟩ d) s = .next t ∧
        t.hub.is (if d then fTwCStatusDataNack c else fTwCStatusAddrNack c) = true ∧
        t.hub.rd (fTwCErrNack c) = satTo 8 (s.hub.rd (fTwCErrNack c) + 1) ∧ (t.hub.twc c).kind = 0 ∧
        t.hub.twState c = twIdle ∧ ((s.hub.twc c).kind = 2 → t.hub.rd (fTwCXferResult c) = (if d then 2 else 1))) ∧
    -- TW_RETRY: the transaction runs again, behind a bus clear when SDA is low
    (∀ (s : State) (c : Fin 8) (sdaLow : Bool),
      (s.hub.twc c).retry = true → ∃ t,
        exec (.twRetry c sdaLow) s = .next t ∧
        t.hub.twc c = { s.hub.twc c with retry := false, foreign := false, arb := false } ∧
        t.hub.twState c = (if sdaLow then twClear else twBusy) ∧
        (∀ a, a ≠ 0x30 ∧ a ≠ rTwCCtl c → t.hub.reg a = s.hub.reg a))

/-- Errors and bus clears of a two-wire controller. A lost arbitration and a bus error are flagged and counted, and the
attempt repeats while a poll has retries and fails otherwise, a host transfer with results 3 and 4. A line held low is
flagged and counted, a transaction is abandoned without a retry, a host transfer with result 6, and a bus clear follows
while SDA stays low and WCLK is trimmed. A clear that frees the bus lets what waited behind it run, one that does not
leaves the controller STUCK, with result 5 for a host transfer. (R131, R132, R133, R134) -/
def Obligations.TwoWireErrors : Prop :=
    -- TW_ARBITRATION_LOST of a poll with a retry left
    (∀ (s : State) (c : Fin 8) (dip : Bool),
      s.hub.twRunning c = true → (s.hub.twc c).kind = 1 →
      (s.hub.twc c).attempt < s.hub.twRetries c (s.hub.twc c).entry → ∃ t,
        exec (.twArbitrationLost ⟨c, dip⟩) s = .next t ∧ t.hub.is (fTwCStatusArbLost c) = true ∧
        t.hub.rd (fTwCErrArb c) = satTo 8 (s.hub.rd (fTwCErrArb c) + 1) ∧
        (t.hub.twc c).attempt = (s.hub.twc c).attempt + 1 ∧ (t.hub.twc c).retry = true) ∧
    -- TW_ARBITRATION_LOST of the last attempt, or of a host transfer
    (∀ (s : State) (c : Fin 8) (dip : Bool),
      s.hub.twRunning c = true →
      ((s.hub.twc c).kind ≠ 1 ∨ s.hub.twRetries c (s.hub.twc c).entry ≤ (s.hub.twc c).attempt) → ∃ t,
        exec (.twArbitrationLost ⟨c, dip⟩) s = .next t ∧ t.hub.is (fTwCStatusArbLost c) = true ∧
        t.hub.rd (fTwCErrArb c) = satTo 8 (s.hub.rd (fTwCErrArb c) + 1) ∧ (t.hub.twc c).kind = 0 ∧
        t.hub.twState c = twIdle ∧ ((s.hub.twc c).kind = 2 → t.hub.rd (fTwCXferResult c) = 3)) ∧
    -- TW_BUS_ERROR of a poll with a retry left
    (∀ (s : State) (c : Fin 8) (bytes : List Byte) (dip : Bool),
      s.hub.twRunning c = true → (s.hub.twc c).kind = 1 →
      (s.hub.twc c).attempt < s.hub.twRetries c (s.hub.twc c).entry → ∃ t,
        exec (.twBusError ⟨c, bytes, dip⟩) s = .next t ∧ t.hub.is (fTwCStatusBusErr c) = true ∧
        t.hub.rd (fTwCErrBus c) = satTo 8 (s.hub.rd (fTwCErrBus c) + 1) ∧
        (t.hub.twc c).attempt = (s.hub.twc c).attempt + 1 ∧ (t.hub.twc c).retry = true) ∧
    -- TW_BUS_ERROR of the last attempt, or of a host transfer
    (∀ (s : State) (c : Fin 8) (bytes : List Byte) (dip : Bool),
      s.hub.twRunning c = true →
      ((s.hub.twc c).kind ≠ 1 ∨ s.hub.twRetries c (s.hub.twc c).entry ≤ (s.hub.twc c).attempt) → ∃ t,
        exec (.twBusError ⟨c, bytes, dip⟩) s = .next t ∧ t.hub.is (fTwCStatusBusErr c) = true ∧
        t.hub.rd (fTwCErrBus c) = satTo 8 (s.hub.rd (fTwCErrBus c) + 1) ∧ t.hub.twState c = twIdle ∧
        (t.hub.twc c).kind = 0 ∧
        ((s.hub.twc c).kind = 2 → t.hub.rd (fTwCXferResult c) = 4 ∧ t.hub.is (fTwCXferBusy c) = false ∧ t.hub.is (fTwCStatusXferDone c) = true)) ∧
    -- TW_LINE_TIMEOUT during a transaction or a bus clear: abandoned without a retry
    (∀ (s : State) (c : Fin 8) (sda low dip : Bool) (bytes : List Byte),
      s.hub.twUp c = true → (s.hub.twState c = twBusy ∨ s.hub.twState c = twClear) → ∃ t,
        exec (.twLineTimeout ⟨c, bytes, dip⟩ sda low) s = .next t ∧
        t.hub.is (if sda then fTwCStatusSdaLow c else fTwCStatusSclLow c) = true ∧
        t.hub.rd (fTwCErrTmo c) = satTo 8 (s.hub.rd (fTwCErrTmo c) + 1) ∧
        t.hub.twState c = (if low && s.hub.is fClkStatusWclkTrim then twClear else twIdle) ∧ (t.hub.twc c).kind = 0 ∧
        ((s.hub.twc c).kind = 2 → t.hub.rd (fTwCXferResult c) = 6)) ∧
    -- TW_LINE_TIMEOUT of an idle bus
    (∀ (s : State) (c : Fin 8) (sda low dip : Bool) (bytes : List Byte),
      s.hub.twUp c = true → s.hub.twState c = twIdle → ∃ t,
        exec (.twLineTimeout ⟨c, bytes, dip⟩ sda low) s = .next t ∧
        t.hub.is (if sda then fTwCStatusSdaLow c else fTwCStatusSclLow c) = true ∧
        t.hub.rd (fTwCErrTmo c) = satTo 8 (s.hub.rd (fTwCErrTmo c) + 1) ∧
        t.hub.twState c = (if low && s.hub.is fClkStatusWclkTrim then twClear else twIdle) ∧ t.hub.tw = s.hub.tw) ∧
    -- TW_BUS_CLEAR that frees the bus
    (∀ (s : State) (c : Fin 8),
      s.hub.twState c = twClear → ∃ t,
        exec (.twBusClear c true) s = .next t ∧
        t.hub.twState c = (if (s.hub.twc c).kind = 0 then twIdle else twBusy) ∧
        (t.hub.twc c).kind = (s.hub.twc c).kind ∧ ((s.hub.twc c).late = false → t.hub.tw = s.hub.tw) ∧
        ((s.hub.twc c).late = false → ∀ a, a ≠ 0x30 ∧ a ≠ rTwCCtl c → t.hub.reg a = s.hub.reg a) ∧
        ((s.hub.twc c).kind = 1 → (s.hub.twc c).late = true → (s.hub.twc c).attempt = 0 → t.hub.is (fTwCStatusLate c) = true)) ∧
    -- TW_BUS_CLEAR that does not
    (∀ (s : State) (c : Fin 8),
      s.hub.twState c = twClear → ∃ t,
        exec (.twBusClear c false) s = .next t ∧ t.hub.twState c = twStuck ∧ t.hub.is (fTwCStatusStuck c) = true ∧
        (t.hub.twc c).kind = 0 ∧ ((s.hub.twc c).kind = 2 → t.hub.rd (fTwCXferResult c) = 5))

/-- Host transfers of a two-wire controller. A transfer the host starts waits, and runs at a boundary with no held
start; its STOP shows result 0 and the bytes read. One with more than 12 write bytes and one while another is busy is
refused, and one of a STUCK controller ends with result 5. An abort abandons the transaction in progress and a bus clear
follows. That an aborted poll delivers nothing is the model's choice (log entry 41). (R134, R135, R139, R142) -/
def Obligations.TwoWireTransfers : Prop :=
    -- TW_XFER_GO taken
    (∀ (s : State) (c : Fin 8) (w : Word),
      s.hub.answers s.fixed s.met .tw (0x060018 + 0x400 * c) = true → s.hub.is (fTwCXferBusy c) = false →
      bitOf w 31 = true → fieldOf w 22 4 ≤ 12 → s.hub.twState c ≠ twStuck → ∃ t,
        exec (.twXferGo c w) s = .next t ∧ t.hub.is (fTwCXferBusy c) = true ∧ (t.hub.twc c).xferWait = true ∧
        t.hub.rd (fTwCXferAddr c) = fieldOf w 0 7 ∧ t.hub.rd (fTwCXferWcount c) = fieldOf w 22 4 ∧
        t.hub.rd (fTwCXferRcount c) = fieldOf w 18 4 ∧ (∀ a, a ≠ 0x30 ∧ a ≠ rTwCXfer c → t.hub.reg a = s.hub.reg a)) ∧
    -- TW_XFER_GO of a STUCK controller
    (∀ (s : State) (c : Fin 8) (w : Word),
      s.hub.answers s.fixed s.met .tw (0x060018 + 0x400 * c) = true → s.hub.is (fTwCXferBusy c) = false →
      bitOf w 31 = true → fieldOf w 22 4 ≤ 12 → s.hub.twState c = twStuck → ∃ t,
        exec (.twXferGo c w) s = .next t ∧ t.hub.rd (fTwCXferResult c) = 5 ∧ t.hub.is (fTwCXferBusy c) = false ∧
        t.hub.is (fTwCStatusXferDone c) = true ∧ t.hub.tw = s.hub.tw) ∧
    -- TW_XFER_GO with more than 12 write bytes: refused
    (∀ (s : State) (c : Fin 8) (w : Word),
      s.hub.answers s.fixed s.met .tw (0x060018 + 0x400 * c) = true → s.hub.is (fTwCXferBusy c) = false →
      bitOf w 31 = true → 12 < fieldOf w 22 4 → ∃ t,
        exec (.twXferGo c w) s = .next t ∧ t.hub.is (fTwCStatusXferRefused c) = true ∧ t.hub.tw = s.hub.tw ∧
        t.hub.is (fTwCXferBusy c) = false) ∧
    -- TW_XFER_GO refused while busy
    (∀ (s : State) (c : Fin 8) (w : Word),
      s.hub.answers s.fixed s.met .tw (0x060018 + 0x400 * c) = true → s.hub.is (fTwCXferBusy c) = true → ∃ t,
        exec (.twXferGo c w) s = .next t ∧ t.hub.is (fTwCStatusXferRefused c) = true ∧ t.hub.tw = s.hub.tw ∧
        (∀ a, a ≠ 0x30 ∧ a ≠ rTwCStatus c → t.hub.reg a = s.hub.reg a)) ∧
    -- TW_XFER_RUN
    (∀ (s : State) (c : Fin 8) (sdaLow : Bool),
      s.hub.twBoundary c = true → (s.hub.twc c).held = [] → (s.hub.twc c).xferWait = true → s.hub.twState c = twIdle →
      ∃ t,
        exec (.twXferRun c sdaLow) s = .next t ∧ (t.hub.twc c).kind = 2 ∧ (t.hub.twc c).xferWait = false ∧
        t.hub.twState c = (if sdaLow then twClear else twBusy) ∧
        (∀ a, a ≠ 0x30 ∧ a ≠ rTwCCtl c → t.hub.reg a = s.hub.reg a)) ∧
    -- TW_XFER_RUN of a controller that has become STUCK
    (∀ (s : State) (c : Fin 8) (sdaLow : Bool),
      s.hub.twBoundary c = true → (s.hub.twc c).held = [] → (s.hub.twc c).xferWait = true →
      s.hub.twState c = twStuck → ∃ t,
        exec (.twXferRun c sdaLow) s = .next t ∧ (t.hub.twc c).kind = 0 ∧ (t.hub.twc c).xferWait = false ∧
        t.hub.rd (fTwCXferResult c) = 5 ∧ t.hub.twState c = twStuck) ∧
    -- TW_TRANSACTION_COMPLETE of a host transfer
    (∀ (s : State) (c : Fin 8) (bytes : List Byte) (dip : Bool),
      s.hub.twRunning c = true → (s.hub.twc c).kind ≠ 1 → ∃ t,
        exec (.twTransactionComplete c bytes dip) s = .next t ∧ t.hub.twState c = twIdle ∧ (t.hub.twc c).kind = 0 ∧
        t.hub.rd (fTwCXferResult c) = 0 ∧ t.hub.is (fTwCXferBusy c) = false ∧ t.hub.is (fTwCStatusXferDone c) = true ∧
        (∀ k : Fin 2, t.hub.reg (rTwCRdata c k) = dataReg (bytes.take (min (s.hub.rd (fTwCXferRcount c)) 8)) k)) ∧
    -- TW_ABORT of a poll
    (∀ (s : State) (c : Fin 8),
      s.hub.answers s.fixed s.met .tw (0x060000 + 0x400 * c) = true → (s.hub.twc c).kind = 1 → ∃ t,
        exec (.twAbort c) s = .next t ∧ (t.hub.twc c).kind = 0 ∧ (t.hub.twc c).retry = false ∧
        (t.hub.twc c).fifo = (s.hub.twc c).fifo ∧ t.hub.twState c = twClear ∧
        (∀ a, a ≠ 0x30 ∧ a ≠ rTwCCtl c → t.hub.reg a = s.hub.reg a)) ∧
    -- TW_ABORT of a host transfer
    (∀ (s : State) (c : Fin 8),
      s.hub.answers s.fixed s.met .tw (0x060000 + 0x400 * c) = true → (s.hub.twc c).kind = 2 → ∃ t,
        exec (.twAbort c) s = .next t ∧ (t.hub.twc c).kind = 0 ∧ t.hub.twState c = twClear ∧
        t.hub.is (fTwCXferBusy c) = false ∧ t.hub.is (fTwCStatusXferDone c) = true)

/-- What one input makes each kind of stage compute. A stage, or its shadow copy, takes the oldest waiting input into
its delay line. A FIR stage gives, at the newest input of an output's window, the rounded, limited sum of products of
the coefficients in use with the newest inputs, or its magnitude; reading a bad coefficient word it gives its last
output again and reports the word. A sieve gives the centre of its window or the median. The averager gives the rounded
mean of a block of inputs without SETTLE, and a run start discards an incomplete block where alignment is on. RESAMPLE
and DELAY give the interpolated value at their position, DELAY with no fraction the input itself; a RESAMPLE stage whose
next position is not reached gives none. (R153, R155, R175, R177, R179, R184, R189, R196, R199, R200, R202) -/
def Obligations.StageOutputs : Prop :=
    -- FIR_EVALUATION at the newest input of an output's window
    (∀ (s : State) (c : Fin 192) (sh : Bool) (i : Fin 8) (x : Samp) (rest : List Samp),
      s.hub.takesNext (chainOf c sh) i 1 x rest →
      s.hub.sc (chainOf c sh) i 4 10 10 ≤ (s.hub.stg' (chainOf c sh) i).n →
      ((s.hub.stg' (chainOf c sh) i).n - s.hub.sc (chainOf c sh) i 4 10 10) % (s.hub.sc (chainOf c sh) i 4 0 10 + 1) = 0 →
      ∃ t,
        exec (.firEvaluation ⟨c, sh⟩ i noParity) s = .next t ∧
        ((t.hub.stg' (chainOf c sh) i).prev = toVal (let r := (outShift (macSum (((s.hub.stg' (chainOf c sh) i).shift (s.hub.coefLen (chainOf c sh) i) x).hist.mapIdx (fun k w => (s.hub.coefOf (s.hub.stTile (chainOf c sh) i) (s.hub.coefOff (chainOf c sh) i + k) (s.hub.bankUse (chainOf c sh) i true), valOf w.samp.val)))).1 (s.hub.stShift (chainOf c sh) i)).1; if s.hub.sc (chainOf c sh) i 0 15 1 = 1 then (sat24 (if r < 0 then -r else r)).1 else r)) ∧
        (t.hub.stg' (chainOf c sh) i).n = (s.hub.stg' (chainOf c sh) i).n + 1 ∧
        (t.hub.stg' (chainOf c sh) i).outs = (s.hub.stg' (chainOf c sh) i).outs + 1 ∧
        (s.hub.ctxKind c ≠ 6 → t.hub.stageIn (chainOf c sh) i = rest)) ∧
    -- FIR_EVALUATION between outputs: only the delay line moves
    (∀ (s : State) (c : Fin 192) (sh : Bool) (i : Fin 8) (x : Samp) (rest : List Samp),
      s.hub.takesNext (chainOf c sh) i 1 x rest →
      ((s.hub.stg' (chainOf c sh) i).n < s.hub.sc (chainOf c sh) i 4 10 10 ∨ ((s.hub.stg' (chainOf c sh) i).n - s.hub.sc (chainOf c sh) i 4 10 10) % (s.hub.sc (chainOf c sh) i 4 0 10 + 1) ≠ 0) →
      ∃ t,
        exec (.firEvaluation ⟨c, sh⟩ i noParity) s = .next t ∧
        (t.hub.stg' (chainOf c sh) i).n = (s.hub.stg' (chainOf c sh) i).n + 1 ∧
        (t.hub.stg' (chainOf c sh) i).outs = (s.hub.stg' (chainOf c sh) i).outs ∧
        (t.hub.stg' (chainOf c sh) i).prev = (s.hub.stg' (chainOf c sh) i).prev ∧
        (t.hub.stg' (chainOf c sh) i).hist = ((s.hub.stg' (chainOf c sh) i).shift (s.hub.coefLen (chainOf c sh) i) x).hist ∧
        (s.hub.ctxKind c ≠ 6 → t.hub.stageIn (chainOf c sh) i = rest)) ∧
    -- FIR_EVALUATION of an output that reads a bad coefficient word
    (∀ (s : State) (c : Fin 192) (sh : Bool) (i : Fin 8) (x : Samp) (rest : List Samp) (k : Nat),
      s.hub.takes (chainOf c sh) i 1 x rest → s.hub.noCtxReset c i →
      ((s.hub.stg' (chainOf c sh) i).hist.all (fun w => !w.bad)) = true →
      s.hub.badCoefOf (chainOf c sh) i (s.hub.bankUse (chainOf c sh) i true) = some k →
      s.hub.sc (chainOf c sh) i 4 10 10 ≤ (s.hub.stg' (chainOf c sh) i).n →
      ((s.hub.stg' (chainOf c sh) i).n - s.hub.sc (chainOf c sh) i 4 10 10) % (s.hub.sc (chainOf c sh) i 4 0 10 + 1) = 0 →
      ∃ t,
        exec (.firEvaluation ⟨c, sh⟩ i noParity) s = .next t ∧
        (t.hub.stg' (chainOf c sh) i).prev = (s.hub.stg' (chainOf c sh) i).prev ∧
        (t.hub.stg' (chainOf c sh) i).outs = (s.hub.stg' (chainOf c sh) i).outs + 1 ∧
        t.hub.is (fFabTStatusParCoef (s.hub.stTile (chainOf c sh) i)) = true ∧
        t.hub.rd (fFabTParAddrAddr (s.hub.stTile (chainOf c sh) i)) = k % 512 ∧
        t.hub.rd (fFabTParAddrMem (s.hub.stTile (chainOf c sh) i)) = (1 + k / 512) % 4) ∧
    -- SIEVE_EVALUATION with a full window
    (∀ (s : State) (c : Fin 192) (sh : Bool) (i : Fin 8) (x : Samp) (rest : List Samp),
      s.hub.takesNext (chainOf c sh) i 2 x rest →
      2 * ((s.hub.sc (chainOf c sh) i 4 0 5 - 1) / 2) ≤ (s.hub.stg' (chainOf c sh) i).n → ∃ t,
        exec (.sieveEvaluation ⟨c, sh⟩ i noParity) s = .next t ∧
        (t.hub.stg' (chainOf c sh) i).prev = toVal (sieveTest (s.hub.sc (chainOf c sh) i 4 8 8) (s.hub.sc (chainOf c sh) i 5 0 24) (((s.hub.stg' (chainOf c sh) i).shift (s.hub.sc (chainOf c sh) i 4 0 5) x).valAt ((s.hub.stg' (chainOf c sh) i).n - (s.hub.sc (chainOf c sh) i 4 0 5 - 1) / 2 : Nat)) (((s.hub.stg' (chainOf c sh) i).shift (s.hub.sc (chainOf c sh) i 4 0 5) x).hist.map (fun w => valOf w.samp.val))).1 ∧
        (t.hub.stg' (chainOf c sh) i).outs = (s.hub.stg' (chainOf c sh) i).outs + 1 ∧
        (s.hub.ctxKind c ≠ 6 → t.hub.stageIn (chainOf c sh) i = rest)) ∧
    -- SIEVE_EVALUATION before its window is full: the centre itself, or nothing yet
    (∀ (s : State) (c : Fin 192) (sh : Bool) (i : Fin 8) (x : Samp) (rest : List Samp),
      s.hub.takesNext (chainOf c sh) i 2 x rest →
      (s.hub.stg' (chainOf c sh) i).n < 2 * ((s.hub.sc (chainOf c sh) i 4 0 5 - 1) / 2) → ∃ t,
        exec (.sieveEvaluation ⟨c, sh⟩ i noParity) s = .next t ∧
        (t.hub.stg' (chainOf c sh) i).n = (s.hub.stg' (chainOf c sh) i).n + 1 ∧
        (t.hub.stg' (chainOf c sh) i).outs = (if (s.hub.sc (chainOf c sh) i 4 0 5 - 1) / 2 ≤ (s.hub.stg' (chainOf c sh) i).n then (s.hub.stg' (chainOf c sh) i).outs + 1 else (s.hub.stg' (chainOf c sh) i).outs) ∧
        ((s.hub.sc (chainOf c sh) i 4 0 5 - 1) / 2 ≤ (s.hub.stg' (chainOf c sh) i).n → (t.hub.stg' (chainOf c sh) i).prev = toVal (((s.hub.stg' (chainOf c sh) i).shift (s.hub.sc (chainOf c sh) i 4 0 5) x).valAt ((s.hub.stg' (chainOf c sh) i).n - (s.hub.sc (chainOf c sh) i 4 0 5 - 1) / 2 : Nat))) ∧
        (s.hub.ctxKind c ≠ 6 → t.hub.stageIn (chainOf c sh) i = rest)) ∧
    -- SETTLE_PIECE that completes a block
    (∀ (s : State) (c : Fin 192) (sh : Bool) (i : Fin 8) (x : Samp) (rest : List Samp),
      s.hub.takesNext (chainOf c sh) i 3 x rest →
      (s.hub.sc (chainOf c sh) i 4 16 1 = 0 ∨ x.has tSettle = false ∨ (s.hub.stg' (chainOf c sh) i).wasSettle = true) →
      (s.hub.stg' (chainOf c sh) i).blkBad = false →
      (s.hub.stg' (chainOf c sh) i).inBlk = s.hub.sc (chainOf c sh) i 4 0 16 → ∃ t,
        exec (.settlePiece ⟨c, sh⟩ i noParity) s = .next t ∧
        (x.has tSettle = false → (t.hub.stg' (chainOf c sh) i).prev = toVal ((2 * ((s.hub.stg' (chainOf c sh) i).sum + valOf x.val) + ((s.hub.stg' (chainOf c sh) i).cnt + 1 : Nat)) / (2 * ((s.hub.stg' (chainOf c sh) i).cnt + 1 : Nat)))) ∧
        (x.has tSettle = true → 0 < (s.hub.stg' (chainOf c sh) i).cnt → (t.hub.stg' (chainOf c sh) i).prev = toVal ((2 * (s.hub.stg' (chainOf c sh) i).sum + ((s.hub.stg' (chainOf c sh) i).cnt : Nat)) / (2 * ((s.hub.stg' (chainOf c sh) i).cnt : Nat)))) ∧
        (x.has tSettle = true → (s.hub.stg' (chainOf c sh) i).cnt = 0 → (t.hub.stg' (chainOf c sh) i).prev = (s.hub.stg' (chainOf c sh) i).prev) ∧
        (t.hub.stg' (chainOf c sh) i).inBlk = 0 ∧ (t.hub.stg' (chainOf c sh) i).sum = 0 ∧
        (t.hub.stg' (chainOf c sh) i).outs = (s.hub.stg' (chainOf c sh) i).outs + 1 ∧
        (s.hub.ctxKind c ≠ 6 → t.hub.stageIn (chainOf c sh) i = rest)) ∧
    -- SETTLE_PIECE inside a block
    (∀ (s : State) (c : Fin 192) (sh : Bool) (i : Fin 8) (x : Samp) (rest : List Samp),
      s.hub.takesNext (chainOf c sh) i 3 x rest →
      (s.hub.sc (chainOf c sh) i 4 16 1 = 0 ∨ x.has tSettle = false ∨ (s.hub.stg' (chainOf c sh) i).wasSettle = true) →
      (s.hub.stg' (chainOf c sh) i).inBlk < s.hub.sc (chainOf c sh) i 4 0 16 → ∃ t,
        exec (.settlePiece ⟨c, sh⟩ i noParity) s = .next t ∧
        (t.hub.stg' (chainOf c sh) i).sum = (if x.has tSettle then (s.hub.stg' (chainOf c sh) i).sum else (s.hub.stg' (chainOf c sh) i).sum + valOf x.val) ∧
        (t.hub.stg' (chainOf c sh) i).cnt = (if x.has tSettle then (s.hub.stg' (chainOf c sh) i).cnt else (s.hub.stg' (chainOf c sh) i).cnt + 1) ∧
        (t.hub.stg' (chainOf c sh) i).inBlk = (s.hub.stg' (chainOf c sh) i).inBlk + 1 ∧
        (t.hub.stg' (chainOf c sh) i).outs = (s.hub.stg' (chainOf c sh) i).outs ∧
        (s.hub.ctxKind c ≠ 6 → t.hub.stageIn (chainOf c sh) i = rest)) ∧
    -- SETTLE_PIECE at a run start inside a block of at least two inputs, with alignment: the incomplete block goes
    (∀ (s : State) (c : Fin 192) (sh : Bool) (i : Fin 8) (x : Samp) (rest : List Samp),
      s.hub.takesNext (chainOf c sh) i 3 x rest → s.hub.sc (chainOf c sh) i 4 16 1 = 1 → x.has tSettle = true →
      (s.hub.stg' (chainOf c sh) i).wasSettle = false → (s.hub.stg' (chainOf c sh) i).inBlk ≠ 0 →
      0 < s.hub.sc (chainOf c sh) i 4 0 16 → ∃ t,
        exec (.settlePiece ⟨c, sh⟩ i noParity) s = .next t ∧ (t.hub.stg' (chainOf c sh) i).sum = 0 ∧
        (t.hub.stg' (chainOf c sh) i).cnt = 0 ∧ (t.hub.stg' (chainOf c sh) i).inBlk = 1 ∧
        (t.hub.stg' (chainOf c sh) i).gapDue = true ∧
        (t.hub.stg' (chainOf c sh) i).outs = (s.hub.stg' (chainOf c sh) i).outs ∧
        (s.hub.ctxKind c ≠ 6 → t.hub.stageIn (chainOf c sh) i = rest)) ∧
    -- RESAMPLE_EVALUATION, FIXED, one output completed
    (∀ (s : State) (c : Fin 192) (sh : Bool) (i : Fin 8) (x : Samp) (rest : List Samp) (r : Nat),
      s.hub.takesNext (chainOf c sh) i 4 x rest → s.hub.sc (chainOf c sh) i 4 0 1 = 0 →
      s.hub.rd (fFabTSlSetSet (s.hub.stTile (chainOf c sh) i) (s.hub.stSlot (chainOf c sh) i)) = r →
      (s.hub.stg' (chainOf c sh) i).pos / 16777216 + 16 < (s.hub.stg' (chainOf c sh) i).n + 1 →
      (s.hub.stg' (chainOf c sh) i).n + 1 ≤ ((s.hub.stg' (chainOf c sh) i).pos + r) / 16777216 + 16 → ∃ t,
        exec (.resampleEvaluation ⟨c, sh⟩ i noParity) s = .next t ∧
        (t.hub.stg' (chainOf c sh) i).prev = toVal (((s.hub.stg' (chainOf c sh) i).shift 64 x).interp (roundPos (s.hub.stg' (chainOf c sh) i).pos).1 (roundPos (s.hub.stg' (chainOf c sh) i).pos).2).1 ∧
        (t.hub.stg' (chainOf c sh) i).pos = (s.hub.stg' (chainOf c sh) i).pos + r ∧
        (t.hub.stg' (chainOf c sh) i).outs = (s.hub.stg' (chainOf c sh) i).outs + 1 ∧
        (s.hub.ctxKind c ≠ 6 → t.hub.stageIn (chainOf c sh) i = rest)) ∧
    -- RESAMPLE_EVALUATION, no position reached: FIXED, or GRID before the first 17 inputs
    (∀ (s : State) (c : Fin 192) (sh : Bool) (i : Fin 8) (x : Samp) (rest : List Samp),
      s.hub.takesNext (chainOf c sh) i 4 x rest →
      (s.hub.sc (chainOf c sh) i 4 0 1 = 0 ∧ (s.hub.stg' (chainOf c sh) i).n ≤ (s.hub.stg' (chainOf c sh) i).pos / 16777216 + 15 ∨ s.hub.sc (chainOf c sh) i 4 0 1 ≠ 0 ∧ (s.hub.stg' (chainOf c sh) i).n < 16) →
      ∃ t,
        exec (.resampleEvaluation ⟨c, sh⟩ i noParity) s = .next t ∧
        t.hub.stg' (chainOf c sh) i = { (s.hub.stg' (chainOf c sh) i).shift 64 x with inq := (t.hub.stg' (chainOf c sh) i).inq, bridge := x.val, gapDue := (s.hub.stg' (chainOf c sh) i).gapDue || x.has tGap, lateDue := (s.hub.stg' (chainOf c sh) i).lateDue || x.has tLate } ∧
        (s.hub.ctxKind c ≠ 6 → t.hub.stageIn (chainOf c sh) i = rest)) ∧
    -- RESAMPLE_EVALUATION, GRID, one grid time in an interval between adjacent inputs
    (∀ (s : State) (c : Fin 192) (sh : Bool) (i : Fin 8) (x : Samp) (rest : List Samp) (t0 t1 tg tau : Nat),
      s.hub.takesNext (chainOf c sh) i 4 x rest → s.hub.sc (chainOf c sh) i 4 0 1 ≠ 0 →
      16 ≤ (s.hub.stg' (chainOf c sh) i).n →
      t0 = ((s.hub.stg' (chainOf c sh) i).shift 64 x).timeAt ((s.hub.stg' (chainOf c sh) i).n - 16 : Nat) →
      t1 = ((s.hub.stg' (chainOf c sh) i).shift 64 x).timeAt ((s.hub.stg' (chainOf c sh) i).n - 15 : Nat) →
      ((((s.hub.stg' (chainOf c sh) i).shift 64 x).at? ((s.hub.stg' (chainOf c sh) i).n - 15 : Nat)).map (fun y => y.has tGap)).getD false = false →
      t0 < t1 →
      ((s.hub.inRate (chainOf c sh) i).1 = 0 ∨ (t1 - t0) * (s.hub.inRate (chainOf c sh) i).1 ≤ 2 * 65536000000000 * (s.hub.inRate (chainOf c sh) i).2) →
      tg = s.hub.sc (chainOf c sh) i 8 0 32 * 65536 + s.hub.sc (chainOf c sh) i 9 0 16 → 0 < tg →
      tau = gridFirst (s.hub.sc (chainOf c sh) i 10 0 32 * 65536) tg t0 → tau < t1 → t1 ≤ tau + tg → ∃ t,
        exec (.resampleEvaluation ⟨c, sh⟩ i noParity) s = .next t ∧
        (t.hub.stg' (chainOf c sh) i).prev = toVal (let p := roundPos (((s.hub.stg' (chainOf c sh) i).n - 16) * 16777216 + (2 * (tau - t0) * 16777216 + (t1 - t0)) / (2 * (t1 - t0))); (((s.hub.stg' (chainOf c sh) i).shift 64 x).interp p.1 p.2).1) ∧
        (t.hub.stg' (chainOf c sh) i).outs = (s.hub.stg' (chainOf c sh) i).outs + 1 ∧
        (s.hub.ctxKind c ≠ 6 → t.hub.stageIn (chainOf c sh) i = rest)) ∧
    -- DELAY_EVALUATION; without a fraction the output is the input itself, I + 16 inputs old
    (∀ (s : State) (c : Fin 192) (sh : Bool) (i : Fin 8) (x : Samp) (rest : List Samp),
      s.hub.takesNext (chainOf c sh) i 6 x rest → ∃ t,
        exec (.delayEvaluation ⟨c, sh⟩ i noParity) s = .next t ∧
        (natField (s.hub.rd (fFabTSlSetSet (s.hub.stTile (chainOf c sh) i) (s.hub.stSlot (chainOf c sh) i))) 0 10 = 0 → (t.hub.stg' (chainOf c sh) i).prev = toVal (((s.hub.stg' (chainOf c sh) i).shift (s.hub.delayLen (chainOf c sh) i) x).valAt ((s.hub.stg' (chainOf c sh) i).n - 16 - natField (s.hub.rd (fFabTSlSetSet (s.hub.stTile (chainOf c sh) i) (s.hub.stSlot (chainOf c sh) i))) 10 11 : Int))) ∧
        (natField (s.hub.rd (fFabTSlSetSet (s.hub.stTile (chainOf c sh) i) (s.hub.stSlot (chainOf c sh) i))) 0 10 ≠ 0 → (t.hub.stg' (chainOf c sh) i).prev = toVal (((s.hub.stg' (chainOf c sh) i).shift (s.hub.delayLen (chainOf c sh) i) x).interp ((s.hub.stg' (chainOf c sh) i).n - 17 - natField (s.hub.rd (fFabTSlSetSet (s.hub.stTile (chainOf c sh) i) (s.hub.stSlot (chainOf c sh) i))) 10 11 : Int) (1024 - natField (s.hub.rd (fFabTSlSetSet (s.hub.stTile (chainOf c sh) i) (s.hub.stSlot (chainOf c sh) i))) 0 10)).1) ∧
        (t.hub.stg' (chainOf c sh) i).n = (s.hub.stg' (chainOf c sh) i).n + 1 ∧
        (t.hub.stg' (chainOf c sh) i).outs = (s.hub.stg' (chainOf c sh) i).outs + 1 ∧
        (s.hub.ctxKind c ≠ 6 → t.hub.stageIn (chainOf c sh) i = rest))

/-- What one input makes an ORDER and a DETECT stage do. An ORDER stage in ACQUIRE gives no output and turns its first
stamp into an edge position; one in TRACK or COAST with no edge due gives the output whose window the input completes
and steps by its ratio. A DETECT stage passes its input on and every bin accumulates it; a GAP starts a new block, the
last input of a block finishes it, and a finished block is counted when it is delivered, with a record of the feature
set where that is on. (R203, R205, R206, R207, R210, R211) -/
def Obligations.OrderAndDetect : Prop :=
    -- ORDER_EVALUATION, nothing acquired and no stamp due
    (∀ (s : State) (c : Fin 192) (sh : Bool) (i : Fin 8) (x : Samp) (rest : List Samp),
      s.hub.takesNext (chainOf c sh) i 5 x rest → (s.hub.stg' (chainOf c sh) i).acquired = false →
      (s.hub.stg' (chainOf c sh) i).stamps.all (fun e => decide (x.time < e)) = true → ∃ t,
        exec (.orderEvaluation ⟨c, sh⟩ i noParity) s = .next t ∧
        (t.hub.stg' (chainOf c sh) i).n = (s.hub.stg' (chainOf c sh) i).n + 1 ∧
        (t.hub.stg' (chainOf c sh) i).hist = ((s.hub.stg' (chainOf c sh) i).shift 64 x).hist ∧
        (t.hub.stg' (chainOf c sh) i).edges = (s.hub.stg' (chainOf c sh) i).edges ∧
        (t.hub.stg' (chainOf c sh) i).stamps = (s.hub.stg' (chainOf c sh) i).stamps ∧
        (t.hub.stg' (chainOf c sh) i).outs = (s.hub.stg' (chainOf c sh) i).outs ∧
        (s.hub.ctxKind c ≠ 6 → t.hub.stageIn (chainOf c sh) i = rest)) ∧
    -- ORDER_EVALUATION, the first stamp lies between the previous input and this one
    (∀ (s : State) (c : Fin 192) (sh : Bool) (i : Fin 8) (x : Samp) (rest : List Samp) (e : Nat),
      s.hub.takesNext (chainOf c sh) i 5 x rest → (s.hub.stg' (chainOf c sh) i).acquired = false →
      (s.hub.stg' (chainOf c sh) i).edges = [] → 0 < (s.hub.stg' (chainOf c sh) i).n →
      (s.hub.stg' (chainOf c sh) i).stamps = [e] →
      ((s.hub.stg' (chainOf c sh) i).shift 64 x).timeAt ((s.hub.stg' (chainOf c sh) i).n - 1 : Nat) < e → e ≤ x.time →
      ∃ t,
        exec (.orderEvaluation ⟨c, sh⟩ i noParity) s = .next t ∧
        (t.hub.stg' (chainOf c sh) i).edges = [((s.hub.stg' (chainOf c sh) i).n - 1) * 16777216 + divNear ((e - ((s.hub.stg' (chainOf c sh) i).shift 64 x).timeAt ((s.hub.stg' (chainOf c sh) i).n - 1 : Nat)) * 16777216) (x.time - ((s.hub.stg' (chainOf c sh) i).shift 64 x).timeAt ((s.hub.stg' (chainOf c sh) i).n - 1 : Nat))] ∧
        (t.hub.stg' (chainOf c sh) i).stamps = [] ∧
        (t.hub.stg' (chainOf c sh) i).outs = (s.hub.stg' (chainOf c sh) i).outs) ∧
    -- ORDER_EVALUATION in TRACK or COAST, no stamp and no missing edge due, one output completed
    (∀ (s : State) (c : Fin 192) (sh : Bool) (i : Fin 8) (x : Samp) (rest : List Samp) (r : Nat),
      s.hub.takesNext (chainOf c sh) i 5 x rest → (s.hub.stg' (chainOf c sh) i).acquired = true → x.has tGap = false →
      (s.hub.stg' (chainOf c sh) i).stamps.all (fun e => decide (x.time < e)) = true →
      (s.hub.stg' (chainOf c sh) i).n * 16777216 < (s.hub.stg' (chainOf c sh) i).winHi →
      (s.hub.rd (fFabTSlStState (s.hub.stTile (chainOf c sh) i) (s.hub.stSlot (chainOf c sh) i)) = 1 ∨ s.hub.rd (fFabTSlStState (s.hub.stTile (chainOf c sh) i) (s.hub.stSlot (chainOf c sh) i)) = 2) →
      s.hub.rd (fFabTSlSetSet (s.hub.stTile (chainOf c sh) i) (s.hub.stSlot (chainOf c sh) i)) = r →
      (s.hub.stg' (chainOf c sh) i).pos / 16777216 + 16 < (s.hub.stg' (chainOf c sh) i).n + 1 →
      (s.hub.stg' (chainOf c sh) i).n + 1 ≤ ((s.hub.stg' (chainOf c sh) i).pos + r) / 16777216 + 16 → ∃ t,
        exec (.orderEvaluation ⟨c, sh⟩ i noParity) s = .next t ∧
        (t.hub.stg' (chainOf c sh) i).prev = toVal (((s.hub.stg' (chainOf c sh) i).shift 64 x).interp (roundPos (s.hub.stg' (chainOf c sh) i).pos).1 (roundPos (s.hub.stg' (chainOf c sh) i).pos).2).1 ∧
        (t.hub.stg' (chainOf c sh) i).pos = (s.hub.stg' (chainOf c sh) i).pos + r ∧
        (t.hub.stg' (chainOf c sh) i).kNext = (s.hub.stg' (chainOf c sh) i).kNext + 1 ∧
        (t.hub.stg' (chainOf c sh) i).outs = (s.hub.stg' (chainOf c sh) i).outs + 1 ∧
        (s.hub.ctxKind c ≠ 6 → t.hub.stageIn (chainOf c sh) i = rest)) ∧
    -- DETECT_EVALUATION inside a block
    (∀ (s : State) (c : Fin 192) (sh : Bool) (i : Fin 8) (x : Samp) (rest : List Samp),
      s.hub.takesNext (chainOf c sh) i 7 x rest → x.has tGap = false →
      (s.hub.stg' (chainOf c sh) i).inBlk < s.hub.sc (chainOf c sh) i 4 5 16 → ∃ t,
        exec (.detectEvaluation ⟨c, sh⟩ i noParity) s = .next t ∧ (t.hub.stg' (chainOf c sh) i).prev = x.val ∧
        (t.hub.stg' (chainOf c sh) i).inBlk = (s.hub.stg' (chainOf c sh) i).inBlk + 1 ∧
        (t.hub.stg' (chainOf c sh) i).iacc = (List.range (s.hub.sc (chainOf c sh) i 4 0 4)).map (fun b => (sat56 ((s.hub.stg' (chainOf c sh) i).iacc.getD b 0 + valOf x.val * cosTab ((s.hub.stg' (chainOf c sh) i).phase.getD b 0 / 2 ^ 34))).1) ∧
        (t.hub.stg' (chainOf c sh) i).qacc = (List.range (s.hub.sc (chainOf c sh) i 4 0 4)).map (fun b => (sat56 ((s.hub.stg' (chainOf c sh) i).qacc.getD b 0 - valOf x.val * sinTab ((s.hub.stg' (chainOf c sh) i).phase.getD b 0 / 2 ^ 34))).1) ∧
        (t.hub.stg' (chainOf c sh) i).phase = (List.range (s.hub.sc (chainOf c sh) i 4 0 4)).map (fun b => ((s.hub.stg' (chainOf c sh) i).phase.getD b 0 + s.hub.binInc (chainOf c sh) i b (s.hub.bankUse (chainOf c sh) i false)) % 2 ^ 48) ∧
        (t.hub.stg' (chainOf c sh) i).outs = (s.hub.stg' (chainOf c sh) i).outs + 1 ∧
        (s.hub.ctxKind c ≠ 6 → t.hub.stageIn (chainOf c sh) i = rest)) ∧
    -- DETECT_EVALUATION of the last input of a block: the block is done and the bins start from 0
    (∀ (s : State) (c : Fin 192) (sh : Bool) (i : Fin 8) (x : Samp) (rest : List Samp),
      s.hub.takesNext (chainOf c sh) i 7 x rest → x.has tGap = false →
      s.hub.sc (chainOf c sh) i 4 5 16 ≤ (s.hub.stg' (chainOf c sh) i).inBlk → sh = false → ∃ t,
        exec (.detectEvaluation ⟨c, sh⟩ i noParity) s = .next t ∧ (t.hub.stg' (chainOf c sh) i).prev = x.val ∧
        (t.hub.stg' (chainOf c sh) i).inBlk = 0 ∧ (t.hub.stg' (chainOf c sh) i).iacc = [] ∧
        (t.hub.stg' (chainOf c sh) i).done.map (fun d => d.i) = some ((List.range (s.hub.sc (chainOf c sh) i 4 0 4)).map (fun b => (sat56 ((s.hub.stg' (chainOf c sh) i).iacc.getD b 0 + valOf x.val * cosTab ((s.hub.stg' (chainOf c sh) i).phase.getD b 0 / 2 ^ 34))).1)) ∧
        (t.hub.stg' (chainOf c sh) i).outs = (s.hub.stg' (chainOf c sh) i).outs + 1) ∧
    -- DETECT_EVALUATION of an input with GAP: a new block begins, its phases at 0
    (∀ (s : State) (c : Fin 192) (sh : Bool) (i : Fin 8) (x : Samp) (rest : List Samp),
      s.hub.takesNext (chainOf c sh) i 7 x rest → x.has tGap = true → 0 < s.hub.sc (chainOf c sh) i 4 5 16 → ∃ t,
        exec (.detectEvaluation ⟨c, sh⟩ i noParity) s = .next t ∧ (t.hub.stg' (chainOf c sh) i).prev = x.val ∧
        (t.hub.stg' (chainOf c sh) i).inBlk = 1 ∧
        (t.hub.stg' (chainOf c sh) i).iacc = (List.range (s.hub.sc (chainOf c sh) i 4 0 4)).map (fun _ => (sat56 (valOf x.val * cosTab 0)).1) ∧
        (t.hub.stg' (chainOf c sh) i).outs = (s.hub.stg' (chainOf c sh) i).outs + 1) ∧
    -- DETECT_BLOCK_RESULT
    (∀ (s : State) (c : Fin 192) (i : Fin 8) (d : DetBlock),
      s.hub.stKind c i = 7 → (s.hub.stg' c i).done = some d → ∃ t,
        exec (.detectBlockResult c i) s = .next t ∧ (t.hub.stg' c i).done = none ∧
        t.hub.reg (rFabTSlCnt (s.hub.stTile c i) (s.hub.stSlot c i)) = s.hub.reg (rFabTSlCnt (s.hub.stTile c i) (s.hub.stSlot c i)) + 1#32 ∧
        (s.hub.feaOn c = true → t.hub.rd (fFeaCCountRecords c) = satTo 16 (s.hub.rd (fFeaCCountRecords c) + 1)))

/-- Contexts: enable, shadow comparison and digests. The comparator takes the oldest output of both copies: one that
agrees changes no flag, one that does not is flagged and counted, and where the action asks for it starts a CONTEXT
recovery; with one copy's output missing it waits. A finished digest block is latched with its number, and in a
pass-through an IN block that differs from the HEAD block of its number is flagged; a restart begins both digests anew,
and reading the sequence word latches both digests. Disabling a context keeps its samples and stages, and enabling a
disabled one makes its next output carry GAP. (R150, R161, R162, R163, R164, R171) -/
def Obligations.ContextIntegrity : Prop :=
    -- SHADOW_COMPARE, the copies agree
    (∀ (s : State) (c : Fin 192) (x y : Samp) (rest resty : List Samp) (ft : BitVec 8) (fv : BitVec 24),
      s.hub.ctxShadow c = true → s.hub.recovering 2 c = false → (NMap.get s.hub.ctx c).cmp = x :: rest →
      (NMap.get s.hub.ctx c).cmpS = y :: resty → (NMap.get s.hub.ctx c).slipped = false →
      sampWord x = sampWord y ^^^ (ft ++ fv) → ∃ t,
        exec (.shadowCompare c ft fv) s = .next t ∧ (NMap.get t.hub.ctx c).cmp = rest ∧
        (NMap.get t.hub.ctx c).cmpS = resty ∧ t.hub.rd (fFabCShadowMism c) = s.hub.rd (fFabCShadowMism c) ∧
        t.hub.rd (fFabCStatusShadowMis c) = s.hub.rd (fFabCStatusShadowMis c) ∧ t.hub.flt = s.hub.flt) ∧
    -- SHADOW_COMPARE, the copies differ and the action is no recovery
    (∀ (s : State) (c : Fin 192) (x y : Samp) (rest resty : List Samp) (ft : BitVec 8) (fv : BitVec 24),
      s.hub.ctxShadow c = true → s.hub.recovering 2 c = false → (NMap.get s.hub.ctx c).cmp = x :: rest →
      (NMap.get s.hub.ctx c).cmpS = y :: resty → sampWord x ≠ sampWord y ^^^ (ft ++ fv) →
      s.hub.cf 5 (32 + c) 0 22 2 ≠ 2 → ∃ t,
        exec (.shadowCompare c ft fv) s = .next t ∧ (NMap.get t.hub.ctx c).cmp = rest ∧
        (NMap.get t.hub.ctx c).cmpS = resty ∧ t.hub.is (fFabCStatusShadowMis c) = true ∧
        t.hub.rd (fFabCShadowMism c) = satTo 16 (s.hub.rd (fFabCShadowMism c) + 1) ∧ t.hub.flt.recs = s.hub.flt.recs) ∧
    -- SHADOW_COMPARE, the copies differ, the action is a CONTEXT recovery and none runs
    (∀ (s : State) (c : Fin 192) (x y : Samp) (rest resty : List Samp) (ft : BitVec 8) (fv : BitVec 24),
      s.hub.ctxShadow c = true → s.hub.flt.recs = [] → (NMap.get s.hub.ctx c).cmp = x :: rest →
      (NMap.get s.hub.ctx c).cmpS = y :: resty → sampWord x ≠ sampWord y ^^^ (ft ++ fv) →
      s.hub.cf 5 (32 + c) 0 22 2 = 2 → ∃ t,
        exec (.shadowCompare c ft fv) s = .next t ∧ t.hub.recovering 2 c = true) ∧
    -- SHADOW_COMPARE with an output of one copy missing, no slip: nothing is compared
    (∀ (s : State) (c : Fin 192) (ft : BitVec 8) (fv : BitVec 24),
      ((NMap.get s.hub.ctx c).cmp = [] ∨ (NMap.get s.hub.ctx c).cmpS = [] ∧ (NMap.get s.hub.ctx c).slipped = false) →
      ∃ t,
        exec (.shadowCompare c ft fv) s = .next t ∧ t.hub.ctx = s.hub.ctx ∧
        (∀ a, a ≠ 0x30 → t.hub.reg a = s.hub.reg a)) ∧
    -- DIGEST_BLOCK_END of the IN digest
    (∀ (s : State) (c : Fin 192) (v : BitVec 32) (b : Bool) (rest : List (BitVec 32 × Bool)),
      (NMap.get s.hub.ctx c).digIn.done = (v, b) :: rest → ∃ t,
        exec (.digestBlockEnd c false) s = .next t ∧ t.hub.reg (rFabCDigIn c) = v ∧
        t.hub.rd (fFabCDigSeqIn c) = (NMap.get s.hub.ctx c).digIn.num % 65536 ∧
        (NMap.get t.hub.ctx c).digIn.done = rest ∧
        (NMap.get t.hub.ctx c).digIn.num = ((NMap.get s.hub.ctx c).digIn.num + 1) % 65536 ∧
        (NMap.get t.hub.ctx c).digHead = (NMap.get s.hub.ctx c).digHead ∧
        (s.hub.passThrough c = false → ∀ a, a ≠ 0x30 ∧ a ≠ rFabCDigIn c ∧ a ≠ rFabCDigSeq c → t.hub.reg a = s.hub.reg a)) ∧
    -- DIGEST_BLOCK_END of the HEAD digest
    (∀ (s : State) (c : Fin 192) (v : BitVec 32) (b : Bool) (rest : List (BitVec 32 × Bool)),
      (NMap.get s.hub.ctx c).digHead.done = (v, b) :: rest → ∃ t,
        exec (.digestBlockEnd c true) s = .next t ∧ t.hub.reg (rFabCDigHead c) = v ∧
        t.hub.rd (fFabCDigSeqHead c) = (NMap.get s.hub.ctx c).digHead.num % 65536 ∧
        (NMap.get t.hub.ctx c).digHead.done = rest ∧ (NMap.get t.hub.ctx c).digIn = (NMap.get s.hub.ctx c).digIn ∧
        (s.hub.passThrough c = false → ∀ a, a ≠ 0x30 ∧ a ≠ rFabCDigHead c ∧ a ≠ rFabCDigSeq c → t.hub.reg a = s.hub.reg a)) ∧
    -- DIGEST_BLOCK_END of a pass-through whose HEAD block of the same number waits
    (∀ (s : State) (c : Fin 192) (v w : BitVec 32) (n : Nat) (rest : List (BitVec 32 × Bool)),
      s.hub.passThrough c = true → (NMap.get s.hub.ctx c).digStop = false →
      (NMap.get s.hub.ctx c).digIn.done = (v, false) :: rest → (NMap.get s.hub.ctx c).digIn.num % 65536 = n →
      (NMap.get s.hub.ctx c).blkIn = [] → (NMap.get s.hub.ctx c).spoiltBlk = [] →
      (NMap.get s.hub.ctx c).blkHead = [(n, w)] → ∃ t,
        exec (.digestBlockEnd c false) s = .next t ∧
        t.hub.is (fFabCStatusDigMis c) = (decide (v ≠ w) || s.hub.is (fFabCStatusDigMis c)) ∧
        (NMap.get t.hub.ctx c).blkIn = [] ∧ (NMap.get t.hub.ctx c).blkHead = []) ∧
    -- DIG_RESTART
    (∀ (s : State) (c : Fin 192),
      s.hub.answers s.fixed s.met .fab (0x0A0008 + 0x40 * c) = true → ∃ t,
        exec (.digRestart c) s = .next t ∧ (NMap.get t.hub.ctx c).digIn = default ∧
        (NMap.get t.hub.ctx c).digHead = { (default : Digest) with skip := s.hub.queuedSamples c } ∧
        (NMap.get t.hub.ctx c).blkIn = [] ∧ (NMap.get t.hub.ctx c).blkHead = [] ∧
        (NMap.get t.hub.ctx c).digStop = false ∧ (∀ a, a ≠ 0x30 → t.hub.reg a = s.hub.reg a)) ∧
    -- DIG_SEQ_READ
    (∀ (s : State) (c : Fin 192),
      s.hub.answers s.fixed s.met .fab (0x0A0014 + 0x40 * c) = true → ∃ t,
        exec (.digSeqRead c) s = .next t ∧ t.hub.host.out = [s.hub.reg (rFabCDigSeq c)] ∧
        (NMap.get t.hub.ctx c).digLatch = some (s.hub.reg (rFabCDigIn c), s.hub.reg (rFabCDigHead c)) ∧
        (∀ a, a ≠ 0x30 → t.hub.reg a = s.hub.reg a)) ∧
    -- CONTEXT_ENABLE_WRITE of 1
    (∀ (s : State) (c : Fin 192),
      s.hub.answers s.fixed s.met .fab (0x0A0008 + 0x40 * c) = true → ∃ t,
        exec (.contextEnableWrite c true) s = .next t ∧ t.hub.is (fFabCCtlEnable c) = true ∧
        (s.hub.is (fFabCCtlEnable c) = false → (NMap.get t.hub.ctx c).gapOut = true ∧ (NMap.get t.hub.ctx c).begun = false) ∧
        (s.hub.is (fFabCCtlEnable c) = true → t.hub.ctx = s.hub.ctx) ∧
        (∀ a, a ≠ 0x30 ∧ a ≠ rFabCCtl c → t.hub.reg a = s.hub.reg a)) ∧
    -- CONTEXT_ENABLE_WRITE of 0; stages change only for a swap that runs on their tiles
    (∀ (s : State) (c : Fin 192),
      s.hub.answers s.fixed s.met .fab (0x0A0008 + 0x40 * c) = true → ∃ t,
        exec (.contextEnableWrite c false) s = .next t ∧ t.hub.is (fFabCCtlEnable c) = false ∧ t.hub.ctx = s.hub.ctx ∧
        ((List.range 32).all (fun u => (NMap.get s.hub.tile u).swap.isNone) = true → t.hub.stg = s.hub.stg) ∧
        ((List.range 32).all (fun u => (NMap.get s.hub.tile u).swap.isNone) = true → ∀ a, a ≠ 0x30 ∧ a ≠ rFabCCtl c → t.hub.reg a = s.hub.reg a))

/-- Coefficient banks of a tile. A swap request starts a swap to the other bank in which every stage of an enabled
context has yet to switch, and switches the bank at once where the domain has no FIR or DETECT stage; one to the bank in
force does nothing, one during a swap waits and takes the place of one that waits. An idle stage counts as switched, and
the last one to switch ends the swap and starts the one that waits. A word written through the window enters the bank
the window selects and the region of the stage's shadow copy, and is refused while a swap runs or waits and in a shadow
copy's region. (R160, R187, R188, R190, R191, R192) -/
def Obligations.CoefficientBanks : Prop :=
    -- SWAP_REQUEST to the other bank, no stage to switch
    (∀ (s : State) (u : Fin 32),
      s.hub.answers s.fixed s.met .fab (0x080008 + 0x1000 * u) = true → s.hub.recovering 4 u = false →
      (NMap.get s.hub.tile u).swap = none → (NMap.get s.hub.tile u).wait = none → s.hub.coefPending u = false →
      s.hub.rd (fFabTFirBankNext u) ≠ s.hub.rd (fFabTStatusBankAct u) → s.hub.bankStages u = [] → ∃ t,
        exec (.swapRequest u) s = .next t ∧ t.hub.rd (fFabTStatusBankAct u) = s.hub.rd (fFabTFirBankNext u) ∧
        (NMap.get t.hub.tile u).swap = none ∧ t.hub.is (fFabTStatusFading u) = false) ∧
    -- SWAP_REQUEST to the other bank with a stage of an enabled context to switch
    (∀ (s : State) (u : Fin 32),
      s.hub.answers s.fixed s.met .fab (0x080008 + 0x1000 * u) = true → s.hub.recovering 4 u = false →
      (NMap.get s.hub.tile u).swap = none → (NMap.get s.hub.tile u).wait = none → s.hub.coefPending u = false →
      s.hub.rd (fFabTFirBankNext u) ≠ s.hub.rd (fFabTStatusBankAct u) →
      (s.hub.bankStages u).any (fun k => s.hub.is (fFabCCtlEnable (ctxOf (k / 8)))) = true → ∃ t,
        exec (.swapRequest u) s = .next t ∧
        (NMap.get t.hub.tile u).swap = some (s.hub.rd (fFabTFirBankNext u), s.hub.rd (fFabTFirFadeLen u)) ∧
        t.hub.is (fFabTStatusFading u) = true ∧ t.hub.rd (fFabTStatusBankAct u) = s.hub.rd (fFabTStatusBankAct u) ∧
        (∀ k ∈ s.hub.bankStages u, (NMap.get t.hub.stg k).switched = !(s.hub.is (fFabCCtlEnable (ctxOf (k / 8)))) ∧ (NMap.get t.hub.stg k).swOuts = 0)) ∧
    -- SWAP_REQUEST to the bank in force
    (∀ (s : State) (u : Fin 32),
      s.hub.answers s.fixed s.met .fab (0x080008 + 0x1000 * u) = true → s.hub.recovering 4 u = false →
      (NMap.get s.hub.tile u).swap = none → (NMap.get s.hub.tile u).wait = none →
      s.hub.rd (fFabTFirBankNext u) = s.hub.rd (fFabTStatusBankAct u) → ∃ t,
        exec (.swapRequest u) s = .next t ∧ t.hub.tile = s.hub.tile ∧ t.hub.stg = s.hub.stg ∧
        (∀ a, a ≠ 0x30 → t.hub.reg a = s.hub.reg a)) ∧
    -- SWAP_REQUEST during a swap: it waits, and takes the place of one that waits
    (∀ (s : State) (u : Fin 32),
      s.hub.answers s.fixed s.met .fab (0x080008 + 0x1000 * u) = true → s.hub.recovering 4 u = false →
      (NMap.get s.hub.tile u).swap.isSome = true → ∃ t,
        exec (.swapRequest u) s = .next t ∧
        NMap.get t.hub.tile u = { NMap.get s.hub.tile u with wait := some (s.hub.rd (fFabTFirBankNext u), s.hub.rd (fFabTFirFadeLen u)) } ∧
        t.hub.is (fFabTStatusSwapPend u) = true ∧
        ((NMap.get s.hub.tile u).wait.isSome = true → t.hub.is (fFabTStatusSwapRepl u) = true) ∧ t.hub.stg = s.hub.stg) ∧
    -- FADE_IDLE_SWITCH, with no swap waiting
    (∀ (s : State) (u : Fin 32) (j : Fin 64) (k : Nat),
      s.hub.slotStage u j = some k → s.hub.stTile (k / 8) (k % 8) = u.val → s.hub.bankKind k = true →
      (NMap.get s.hub.tile u).swap.isSome = true → (NMap.get s.hub.tile u).wait = none →
      (NMap.get s.hub.stg k).switched = false → ∃ t,
        exec (.fadeIdleSwitch u j) s = .next t ∧ (NMap.get t.hub.stg k).switched = true ∧
        t.hub.rd (fFabTFadeIdle u) = satTo 7 (s.hub.rd (fFabTFadeIdle u) + 1)) ∧
    -- FADE_IDLE_SWITCH of the only stage of a tile without a partner, its context enabled, another swap waiting: that one starts
    (∀ (s : State) (u : Fin 32) (j : Fin 64) (k b len wb wl : Nat),
      s.hub.slotStage u j = some k → s.hub.stTile (k / 8) (k % 8) = u.val → s.hub.bankKind k = true →
      s.hub.cf 5 u 0x800 5 1 = 0 → s.hub.bankStages u = [k] → (NMap.get s.hub.tile u).swap = some (b, len) →
      (NMap.get s.hub.tile u).wait = some (wb, wl) → wb ≠ b → s.hub.coefPending u = false →
      s.hub.is (fFabCCtlEnable (ctxOf (k / 8))) = true → (NMap.get s.hub.stg k).switched = false → ∃ t,
        exec (.fadeIdleSwitch u j) s = .next t ∧ (NMap.get t.hub.tile u).swap = some (wb, wl) ∧
        (NMap.get t.hub.tile u).wait = none ∧ t.hub.rd (fFabTStatusBankAct u) = b % 2 ∧
        (NMap.get t.hub.stg k).switched = false) ∧
    -- COEF_WINDOW_WRITE
    (∀ (s : State) (u : Fin 32) (i : Fin 512) (w : Word),
      s.hub.answers s.fixed s.met .fab (0x080800 + 0x1000 * u + 4 * i) = true → s.hub.stHeld heldCoef = false →
      (NMap.get s.hub.tile u).swap = none → (NMap.get s.hub.tile u).wait = none → s.hub.slotsAt u i true = [] → ∃ t,
        exec (.coefWindowWrite u i w) s = .next t ∧
        t.hub.cell 5 u (512 * s.hub.rd (fFabTCwinBank u) + i) = w32 (fieldOf w 0 24) ∧
        512 * s.hub.rd (fFabTCwinBank u) + i.val ∉ (NMap.get t.hub.tile u).badCoef ∧
        (∀ a, a ≠ 0x30 → t.hub.reg a = s.hub.reg a)) ∧
    -- COEF_WINDOW_WRITE in the region of one stage with a shadow copy: the copy's word follows
    (∀ (s : State) (u : Fin 32) (i : Fin 512) (w : Word) (j c k v y : Nat),
      s.hub.answers s.fixed s.met .fab (0x080800 + 0x1000 * u + 4 * i) = true → s.hub.stHeld heldCoef = false →
      (NMap.get s.hub.tile u).swap = none → (NMap.get s.hub.tile u).wait = none → s.hub.slotsAt u i true = [] →
      s.hub.slotsAt u i false = [j] → c = s.hub.cf 5 u (0x400 + 16 * j) 4 8 → k = s.hub.cf 5 u (0x400 + 16 * j) 12 3 →
      s.hub.ctxShadow c = true → v = s.hub.stTile (192 + c) k → y = s.hub.stSlot (192 + c) k → ∃ t,
        exec (.coefWindowWrite u i w) s = .next t ∧
        t.hub.cell 5 v (512 * s.hub.rd (fFabTCwinBank u) + (s.hub.cf 5 v (0x401 + 16 * y) 0 9 + (i - s.hub.cf 5 u (0x401 + 16 * j) 0 9))) = w32 (fieldOf w 0 24) ∧
        t.hub.cell 5 u (512 * s.hub.rd (fFabTCwinBank u) + i) = w32 (fieldOf w 0 24)) ∧
    -- COEF_WINDOW_WRITE while a swap runs or waits, or in a shadow copy's region: refused
    (∀ (s : State) (u : Fin 32) (i : Fin 512) (w : Word),
      s.hub.answers s.fixed s.met .fab (0x080800 + 0x1000 * u + 4 * i) = true → s.hub.stHeld heldCoef = false →
      ((NMap.get s.hub.tile u).swap.isSome = true ∨ (NMap.get s.hub.tile u).wait.isSome = true ∨ s.hub.slotsAt u i true ≠ []) →
      ∃ t,
        exec (.coefWindowWrite u i w) s = .next t ∧ t.hub.is (fFabTStatusWrRefused u) = true ∧
        t.hub.rd (fFabTCountWrRefused u) = satTo 8 (s.hub.rd (fFabTCountWrRefused u) + 1) ∧ t.hub.cells = s.hub.cells)

/-- Spectral jobs gather, transform and start. A job's full block waits for its engine behind the blocks completed
before it, or is dropped, flagged and counted when one of the job still waits; below a full block nothing changes. The
engine takes the oldest waiting block and counts it: a word that fails its parity check enters as 0, adds ABORTED and is
flagged; a block with an excluded tag leaves the average and is counted; any other enters the average, which after an
output starts anew unless it is exponential, and a delivered output joins the engine's outgoing words. A start arms a
triggered job that does not gather, is ignored and counted while it gathers, and does nothing to any other job. (R219,
R220, R222, R223, R225, R226, R227, R229) -/
def Obligations.SpectralJobs : Prop :=
    -- SPECTRAL_BLOCK_COMPLETE, no block of the job waiting
    (∀ (s : State) (e : Fin 4) (j : Fin 64),
      s.hub.jobOn e j = true → s.hub.jobN e j ≤ (s.hub.job' e j).buf.length → (s.hub.job' e j).ready = none → ∃ t,
        exec (.spectralBlockComplete e j) s = .next t ∧
        (t.hub.job' e j).ready = some ((s.hub.job' e j).buf.take (s.hub.jobN e j)) ∧
        (t.hub.job' e j).buf = (s.hub.job' e j).buf.drop (if s.hub.jobTrig e j then s.hub.jobN e j else s.hub.jobHop e j) ∧
        (NMap.get t.hub.spc e).order = spcInsert (s.hub.cyc, j.val) (NMap.get s.hub.spc e).order ∧
        (∀ a, a ≠ 0x30 → t.hub.reg a = s.hub.reg a)) ∧
    -- SPECTRAL_BLOCK_COMPLETE while a block still waits: dropped
    (∀ (s : State) (e : Fin 4) (j : Fin 64),
      s.hub.jobOn e j = true → s.hub.jobN e j ≤ (s.hub.job' e j).buf.length → (s.hub.job' e j).ready ≠ none → ∃ t,
        exec (.spectralBlockComplete e j) s = .next t ∧ (t.hub.job' e j).ready = (s.hub.job' e j).ready ∧
        (t.hub.job' e j).buf = (s.hub.job' e j).buf.drop (if s.hub.jobTrig e j then s.hub.jobN e j else s.hub.jobHop e j) ∧
        (t.hub.job' e j).dropped = true ∧ t.hub.is (fSpcEStatusOverrun e) = true ∧
        t.hub.rd (fSpcECountDropped e) = satTo 8 (s.hub.rd (fSpcECountDropped e) + 1) ∧ t.hub.spc = s.hub.spc) ∧
    -- SPECTRAL_BLOCK_COMPLETE of a job that is off or whose block is not full
    (∀ (s : State) (e : Fin 4) (j : Fin 64),
      (s.hub.jobOn e j = false ∨ (s.hub.job' e j).buf.length < s.hub.jobN e j) → ∃ t,
        exec (.spectralBlockComplete e j) s = .next t ∧ t.hub.job = s.hub.job ∧ t.hub.spc = s.hub.spc ∧
        (∀ a, a ≠ 0x30 → t.hub.reg a = s.hub.reg a)) ∧
    -- SPECTRAL_TRANSFORM with no block waiting
    (∀ (s : State) (e : Fin 4) (p : List (Fin 16384)),
      (NMap.get s.hub.spc e).order = [] → s.hub.stHeld heldGather = false → ∃ t,
        exec (.spectralTransform e p) s = .next t ∧ t.hub.job = s.hub.job ∧ t.hub.outbox = s.hub.outbox ∧
        (∀ a, a ≠ 0x30 → t.hub.reg a = s.hub.reg a)) ∧
    -- SPECTRAL_TRANSFORM of a block whose words pass their check, no excluded tag, no output due
    (∀ (s : State) (e : Fin 4) (p : List (Fin 16384)) (c j : Nat) (rest : List (Nat × Nat)) (blk : List HistWord),
      s.hub.stHeld heldGather = false → (NMap.get s.hub.spc e).order = (c, j) :: rest →
      ((s.hub.job' e j).spoil (p.map Fin.val)).ready = some blk → (blk.any (fun w => w.bad)) = false →
      (orTags (blk.map (fun w => w.samp))).toNat &&& s.hub.jc e j 3 8 8 = 0 →
      s.hub.outDue e j ((s.hub.job' e j).cnt + 1) = false → ∃ t,
        exec (.spectralTransform e p) s = .next t ∧ (t.hub.job' e j).ready = none ∧
        (t.hub.job' e j).cnt = (s.hub.job' e j).cnt + 1 ∧ (t.hub.job' e j).acc = (s.hub.accepted e j blk).acc ∧
        (t.hub.job' e j).tag = (s.hub.accepted e j blk).tag ∧ (NMap.get t.hub.spc e).order = rest ∧
        t.hub.rd (fSpcECountBlocks e) = satTo 16 (s.hub.rd (fSpcECountBlocks e) + 1) ∧ t.hub.outbox = s.hub.outbox) ∧
    -- SPECTRAL_TRANSFORM of a block whose words pass their check, no excluded tag, an output due that is delivered and feeds no bands
    (∀ (s : State) (e : Fin 4) (p : List (Fin 16384)) (c j : Nat) (rest : List (Nat × Nat)) (blk : List HistWord),
      s.hub.stHeld heldGather = false → (NMap.get s.hub.spc e).order = (c, j) :: rest →
      ((s.hub.job' e j).spoil (p.map Fin.val)).ready = some blk → (blk.any (fun w => w.bad)) = false →
      (orTags (blk.map (fun w => w.samp))).toNat &&& s.hub.jc e j 3 8 8 = 0 →
      s.hub.outDue e j ((s.hub.job' e j).cnt + 1) = true → s.hub.jc e j 3 6 1 = 1 →
      s.hub.feaBands (s.hub.jobCtx e j) = 0 → ∃ t,
        exec (.spectralTransform e p) s = .next t ∧ (t.hub.job' e j).ready = none ∧ (t.hub.job' e j).cnt = 0 ∧
        ((t.hub.job' e j).acc = if s.hub.jobAvg e j = 2 then (s.hub.accepted e j blk).acc else []) ∧
        (NMap.get t.hub.spc e).order = rest ∧
        t.hub.rd (fSpcECountBlocks e) = satTo 16 (s.hub.rd (fSpcECountBlocks e) + 1) ∧
        NMap.get t.hub.outbox (prodSpc e) = NMap.get s.hub.outbox (prodSpc e) ++ (recordWords 3 (s.hub.spectrumWords e j (s.hub.accepted e j blk) ((s.hub.job' e j).cnt + 1) (s.hub.jobUnit e j ((s.hub.job' e j).cnt + 1)))).map (fun w => (s.hub.jc e j 3 0 6, w))) ∧
    -- SPECTRAL_TRANSFORM of a block with words that fail their check, ABORTED not excluded, no output due
    (∀ (s : State) (e : Fin 4) (p : List (Fin 16384)) (c j : Nat) (rest : List (Nat × Nat)) (blk : List HistWord),
      s.hub.stHeld heldGather = false → (NMap.get s.hub.spc e).order = (c, j) :: rest →
      ((s.hub.job' e j).spoil (p.map Fin.val)).ready = some blk → (blk.any (fun w => w.bad)) = true →
      (orTags (blk.map (fun w => w.samp)) ||| tAborted).toNat &&& s.hub.jc e j 3 8 8 = 0 →
      s.hub.outDue e j ((s.hub.job' e j).cnt + 1) = false → ∃ t,
        exec (.spectralTransform e p) s = .next t ∧
        ((t.hub.job' e j).acc = avgStep (s.hub.jobAvg e j) (s.hub.jc e j 1 0 5) (s.hub.job' e j).acc (binVector (s.hub.jobComplex e j) (s.hub.jobWin e j) (s.hub.jobLog e j) (blk.map (fun w => if w.bad then 0 else sInt w.samp)))) ∧
        (t.hub.job' e j).tag = (s.hub.job' e j).tag ||| (orTags (blk.map (fun w => w.samp)) ||| tAborted) ∧
        (t.hub.job' e j).parity = true ∧ t.hub.is (fSpcEStatusParity e) = true) ∧
    -- SPECTRAL_TRANSFORM of a block with an excluded tag
    (∀ (s : State) (e : Fin 4) (p : List (Fin 16384)) (c j : Nat) (rest : List (Nat × Nat)) (blk : List HistWord),
      s.hub.stHeld heldGather = false → (NMap.get s.hub.spc e).order = (c, j) :: rest →
      ((s.hub.job' e j).spoil (p.map Fin.val)).ready = some blk → (blk.any (fun w => w.bad)) = false →
      (orTags (blk.map (fun w => w.samp))).toNat &&& s.hub.jc e j 3 8 8 ≠ 0 → ∃ t,
        exec (.spectralTransform e p) s = .next t ∧ (t.hub.job' e j).ready = none ∧
        (t.hub.job' e j).acc = (s.hub.job' e j).acc ∧ (t.hub.job' e j).cnt = (s.hub.job' e j).cnt ∧
        t.hub.is (fSpcEStatusExcluded e) = true ∧
        t.hub.rd (fSpcECountExcluded e) = satTo 8 (s.hub.rd (fSpcECountExcluded e) + 1) ∧ t.hub.outbox = s.hub.outbox) ∧
    -- SPECTRAL_KICK of a triggered job that does not gather, not yet started in this cycle
    (∀ (s : State) (e : Fin 4) (j : Fin 64),
      s.hub.answers s.fixed s.met .spc (0x100008 + 0x1000 * e) = true → s.hub.jobOn e j = true →
      s.hub.jobTrig e j = true → (s.hub.job' e j).started ≠ s.hub.cyc + 1 →
      ((s.hub.job' e j).buf = [] ∨ s.hub.jobN e j ≤ (s.hub.job' e j).buf.length) → ∃ t,
        exec (.spectralKick e j) s = .next t ∧ (t.hub.job' e j).armed = true ∧
        (t.hub.job' e j).buf = (s.hub.job' e j).buf ∧ (t.hub.job' e j).ready = (s.hub.job' e j).ready ∧
        (∀ a, a ≠ 0x30 → t.hub.reg a = s.hub.reg a)) ∧
    -- SPECTRAL_KICK while the job gathers: ignored and counted
    (∀ (s : State) (e : Fin 4) (j : Fin 64),
      s.hub.answers s.fixed s.met .spc (0x100008 + 0x1000 * e) = true → s.hub.jobOn e j = true →
      s.hub.jobTrig e j = true → (s.hub.job' e j).started ≠ s.hub.cyc + 1 → (s.hub.job' e j).buf ≠ [] →
      (s.hub.job' e j).buf.length < s.hub.jobN e j → ∃ t,
        exec (.spectralKick e j) s = .next t ∧ (t.hub.job' e j).armed = (s.hub.job' e j).armed ∧
        (t.hub.job' e j).buf = (s.hub.job' e j).buf ∧ t.hub.is (fSpcEStatusBusyStart e) = true ∧
        t.hub.rd (fSpcEBusyBusy e) = satTo 16 (s.hub.rd (fSpcEBusyBusy e) + 1)) ∧
    -- SPECTRAL_KICK of a job that is off or not triggered, or started in this cycle already
    (∀ (s : State) (e : Fin 4) (j : Fin 64),
      s.hub.answers s.fixed s.met .spc (0x100008 + 0x1000 * e) = true →
      (s.hub.jobOn e j = false ∨ s.hub.jobTrig e j = false ∨ (s.hub.job' e j).started = s.hub.cyc + 1) → ∃ t,
        exec (.spectralKick e j) s = .next t ∧ t.hub.job = s.hub.job ∧ (∀ a, a ≠ 0x30 → t.hub.reg a = s.hub.reg a))

/-- Feature sets. A full block gives the set's six values and one counted record, which joins the set's outgoing words
when TIME records are delivered, and passes to the limit engine; below a full block nothing changes. A snapshot gives a
counted record over the samples so far and leaves block, values and limit engine; with a full block it is that block's
record; below two samples it is refused. Reading the first value latches all six. (R231, R234, R235, R236, R239, R250) -/
def Obligations.FeatureSets : Prop :=
    -- TIME_BLOCK_COMPLETE
    (∀ (s : State) (c : Fin 192),
      s.hub.feaOn c = true → s.hub.feaN c ≤ (NMap.get s.hub.fea c).blk.length → ∃ t,
        exec (.timeBlockComplete c) s = .next t ∧
        (NMap.get t.hub.fea c).blk = (NMap.get s.hub.fea c).blk.drop (s.hub.feaN c) ∧
        (List.range 6).map (fun k => t.hub.reg (rFeaCValues c k)) = timeValues (s.hub.feaAc c) ((NMap.get s.hub.fea c).blk.take (s.hub.feaN c)) ∧
        t.hub.rd (fFeaCCountRecords c) = satTo 16 (s.hub.rd (fFeaCCountRecords c) + 1) ∧
        (s.hub.lim.fifo.length < 64 → t.hub.lim.fifo = limInsert (s.hub.timeRec c ((NMap.get s.hub.fea c).blk.take (s.hub.feaN c))) s.hub.lim.fifo) ∧
        (64 ≤ s.hub.lim.fifo.length → t.hub.lim.fifo = s.hub.lim.fifo ∧ t.hub.is fLimStatusOver = true)) ∧
    -- TIME_BLOCK_COMPLETE of a set that delivers TIME records, none of its words waiting
    (∀ (s : State) (c : Fin 192),
      s.hub.feaOn c = true → s.hub.feaN c ≤ (NMap.get s.hub.fea c).blk.length → s.hub.cf 6 (4 + c) 0 13 1 = 1 →
      NMap.get s.hub.outbox (prodFea c) = [] → ∃ t,
        exec (.timeBlockComplete c) s = .next t ∧
        NMap.get t.hub.outbox (prodFea c) = (recordWords 2 (featureWords s.hub (s.hub.timeRec c ((NMap.get s.hub.fea c).blk.take (s.hub.feaN c))) false (s.hub.feaN c))).map (fun w => (s.hub.feaQueue c, w)) ∧
        t.hub.rd (fFeaCCountLost c) = s.hub.rd (fFeaCCountLost c)) ∧
    -- TIME_BLOCK_COMPLETE of a set that is off or whose block is not full
    (∀ (s : State) (c : Fin 192),
      (s.hub.feaOn c = false ∨ (NMap.get s.hub.fea c).blk.length < s.hub.feaN c) → ∃ t,
        exec (.timeBlockComplete c) s = .next t ∧ t.hub.fea = s.hub.fea ∧ t.hub.outbox = s.hub.outbox ∧
        (∀ a, a ≠ 0x30 → t.hub.reg a = s.hub.reg a)) ∧
    -- FEATURE_SNAPSHOT of a block in progress
    (∀ (s : State) (c : Fin 192),
      s.hub.answers s.fixed s.met .spc (0x110008 + 0x40 * c) = true → s.hub.feaOn c = true →
      s.hub.recovering 2 c = false → 2 ≤ (NMap.get s.hub.fea c).blk.length →
      (NMap.get s.hub.fea c).blk.length < s.hub.feaN c → ∃ t,
        exec (.featureSnapshot c) s = .next t ∧ t.hub.fea = s.hub.fea ∧ t.hub.lim = s.hub.lim ∧
        (List.range 6).map (fun k => t.hub.reg (rFeaCValues c k)) = (List.range 6).map (fun k => s.hub.reg (rFeaCValues c k)) ∧
        t.hub.rd (fFeaCCountRecords c) = satTo 16 (s.hub.rd (fFeaCCountRecords c) + 1)) ∧
    -- FEATURE_SNAPSHOT of a full block: its record
    (∀ (s : State) (c : Fin 192),
      s.hub.answers s.fixed s.met .spc (0x110008 + 0x40 * c) = true → s.hub.feaOn c = true →
      s.hub.recovering 2 c = false → s.hub.feaN c ≤ (NMap.get s.hub.fea c).blk.length → ∃ t,
        exec (.featureSnapshot c) s = .next t ∧
        (NMap.get t.hub.fea c).blk = (NMap.get s.hub.fea c).blk.drop (s.hub.feaN c) ∧
        (List.range 6).map (fun k => t.hub.reg (rFeaCValues c k)) = timeValues (s.hub.feaAc c) ((NMap.get s.hub.fea c).blk.take (s.hub.feaN c)) ∧
        t.hub.rd (fFeaCCountRecords c) = satTo 16 (s.hub.rd (fFeaCCountRecords c) + 1)) ∧
    -- FEATURE_SNAPSHOT below two samples: refused
    (∀ (s : State) (c : Fin 192),
      s.hub.answers s.fixed s.met .spc (0x110008 + 0x40 * c) = true → s.hub.feaOn c = true →
      s.hub.recovering 2 c = false → (NMap.get s.hub.fea c).blk.length < 2 →
      (NMap.get s.hub.fea c).blk.length < s.hub.feaN c → ∃ t,
        exec (.featureSnapshot c) s = .next t ∧ t.hub.is (fFeaCStatusSnapRefused c) = true ∧ t.hub.fea = s.hub.fea ∧
        t.hub.outbox = s.hub.outbox ∧ (∀ a, a ≠ 0x30 ∧ a ≠ rFeaCStatus c → t.hub.reg a = s.hub.reg a)) ∧
    -- FEA_VALUES_READ
    (∀ (s : State) (c : Fin 192),
      s.hub.answers s.fixed s.met .spc (0x110010 + 0x40 * c) = true → ∃ t,
        exec (.feaValuesRead c) s = .next t ∧ t.hub.host.out = [s.hub.reg (rFeaCValues c 0)] ∧
        (NMap.get t.hub.fea c).latch = (List.range 6).map (fun k => s.hub.reg (rFeaCValues c k)) ∧
        (∀ a, a ≠ 0x30 → t.hub.reg a = s.hub.reg a))

/-- The limit table and its engine. The engine takes the oldest record, whatever its context's run: an entry the run
holds stays at its level when the value proposes it, counts towards a higher or a lower level below its on or off count,
takes the level with the last of the count, and a bad entry is passed over; with no record waiting nothing changes.
Words 0 to 2 of a host write are held for one entry and word 3 applies them together with the stored ones or refuses
them. The scrubber reads entry after entry while the engine is idle and repairs a single flipped bit; a double one marks
the entry bad; switched off, or with a record waiting, it does not read. (R237, R238, R239, R240, R241, R242, R244,
R245, R246, R465) -/
def Obligations.LimitTable : Prop :=
    -- LIMIT_RECORD_EVALUATE with no record waiting
    (∀ (s : State) (u : Option LimUpset),
      s.hub.stHeld heldLimit = false → s.hub.lim.fifo = [] → ∃ t,
        exec (.limitRecordEvaluate u) s = .next t ∧ t.hub.lim.fifo = [] ∧ t.hub.cells = s.hub.cells ∧
        (∀ a, a ≠ 0x30 → t.hub.reg a = s.hub.reg a)) ∧
    -- LIMIT_RECORD_EVALUATE of the oldest record, any run
    (∀ (s : State) (u : Option LimUpset) (r : FeaRec) (rest : List FeaRec),
      s.hub.stHeld heldLimit = false → s.hub.lim.fifo = r :: rest → ∃ t,
        exec (.limitRecordEvaluate u) s = .next t ∧ t.hub.lim.fifo = rest ∧ t.hub.cells = s.hub.cells) ∧
    -- LIMIT_RECORD_EVALUATE, a run of one readable entry, the value proposes the present level
    (∀ (s : State) (e : Nat) (r : FeaRec) (rest : List FeaRec) (v : Word),
      s.hub.stHeld heldLimit = false → s.hub.lim.fifo = r :: rest → s.hub.limRun r.ctx = (e, 1) →
      s.hub.limBad e = false → (List.range 4).all (fun i => NMap.get s.hub.lim.ups (4 * e + i) == 0#39) = true →
      leValid (s.hub.limWords e) = true → leCtx (s.hub.limWords e) = r.ctx →
      r.value (leSel (s.hub.limWords e)) = some v → (leAct (s.hub.limWords e) 3 && r.tag &&& 0xC4#8 != 0#8) = false →
      propLevel (s.hub.limWords e) v (s.hub.rd (fLimStLevel e)) = s.hub.rd (fLimStLevel e) → ∃ t,
        exec (.limitRecordEvaluate none) s = .next t ∧ t.hub.lim.fifo = rest ∧
        t.hub.rd (fLimStLevel e) = s.hub.rd (fLimStLevel e) ∧ t.hub.rd (fLimStOnCnt e) = 0 ∧
        t.hub.rd (fLimStOffCnt e) = 0 ∧ (∀ a, a ≠ 0x30 ∧ a ≠ (fLimStLevel e).addr → t.hub.reg a = s.hub.reg a)) ∧
    -- LIMIT_RECORD_EVALUATE, a higher level proposed below the on count
    (∀ (s : State) (e : Nat) (r : FeaRec) (rest : List FeaRec) (v : Word),
      s.hub.stHeld heldLimit = false → s.hub.lim.fifo = r :: rest → s.hub.limRun r.ctx = (e, 1) →
      s.hub.limBad e = false → (List.range 4).all (fun i => NMap.get s.hub.lim.ups (4 * e + i) == 0#39) = true →
      leValid (s.hub.limWords e) = true → leCtx (s.hub.limWords e) = r.ctx →
      r.value (leSel (s.hub.limWords e)) = some v → (leAct (s.hub.limWords e) 3 && r.tag &&& 0xC4#8 != 0#8) = false →
      s.hub.rd (fLimStLevel e) < propLevel (s.hub.limWords e) v (s.hub.rd (fLimStLevel e)) →
      s.hub.rd (fLimStOnCnt e) + 1 < leOn (s.hub.limWords e) → ∃ t,
        exec (.limitRecordEvaluate none) s = .next t ∧ t.hub.lim.fifo = rest ∧
        t.hub.rd (fLimStLevel e) = s.hub.rd (fLimStLevel e) ∧
        t.hub.rd (fLimStOnCnt e) = s.hub.rd (fLimStOnCnt e) + 1 ∧ t.hub.rd (fLimStOffCnt e) = 0 ∧
        (∀ a, a ≠ 0x30 ∧ a ≠ (fLimStLevel e).addr → t.hub.reg a = s.hub.reg a)) ∧
    -- LIMIT_RECORD_EVALUATE, a lower level proposed below the off count
    (∀ (s : State) (e : Nat) (r : FeaRec) (rest : List FeaRec) (v : Word),
      s.hub.stHeld heldLimit = false → s.hub.lim.fifo = r :: rest → s.hub.limRun r.ctx = (e, 1) →
      s.hub.limBad e = false → (List.range 4).all (fun i => NMap.get s.hub.lim.ups (4 * e + i) == 0#39) = true →
      leValid (s.hub.limWords e) = true → leCtx (s.hub.limWords e) = r.ctx →
      r.value (leSel (s.hub.limWords e)) = some v → (leAct (s.hub.limWords e) 3 && r.tag &&& 0xC4#8 != 0#8) = false →
      propLevel (s.hub.limWords e) v (s.hub.rd (fLimStLevel e)) < s.hub.rd (fLimStLevel e) →
      s.hub.rd (fLimStOffCnt e) + 1 < leOff (s.hub.limWords e) → ∃ t,
        exec (.limitRecordEvaluate none) s = .next t ∧ t.hub.lim.fifo = rest ∧
        t.hub.rd (fLimStLevel e) = s.hub.rd (fLimStLevel e) ∧
        t.hub.rd (fLimStOffCnt e) = s.hub.rd (fLimStOffCnt e) + 1 ∧ t.hub.rd (fLimStOnCnt e) = 0 ∧
        (∀ a, a ≠ 0x30 ∧ a ≠ (fLimStLevel e).addr → t.hub.reg a = s.hub.reg a)) ∧
    -- LIMIT_RECORD_EVALUATE, the last of the on count, to WARNING without warn_acts
    (∀ (s : State) (e : Nat) (r : FeaRec) (rest : List FeaRec) (v : Word),
      s.hub.stHeld heldLimit = false → s.hub.lim.fifo = r :: rest → s.hub.limRun r.ctx = (e, 1) →
      s.hub.limBad e = false → (List.range 4).all (fun i => NMap.get s.hub.lim.ups (4 * e + i) == 0#39) = true →
      leValid (s.hub.limWords e) = true → leCtx (s.hub.limWords e) = r.ctx →
      r.value (leSel (s.hub.limWords e)) = some v → (leAct (s.hub.limWords e) 3 && r.tag &&& 0xC4#8 != 0#8) = false →
      s.hub.rd (fLimStLevel e) = 0 → propLevel (s.hub.limWords e) v 0 = 1 →
      leOn (s.hub.limWords e) ≤ s.hub.rd (fLimStOnCnt e) + 1 → leAct (s.hub.limWords e) 4 = false → ∃ t,
        exec (.limitRecordEvaluate none) s = .next t ∧ t.hub.lim.fifo = rest ∧ t.hub.rd (fLimStLevel e) = 1 ∧
        t.hub.rd (fLimStTrans e) = (s.hub.rd (fLimStTrans e) + 1) % 2 ^ (fLimStTrans e).len ∧
        t.hub.rd fLimActiveWarning = (s.hub.rd fLimActiveWarning + 1) % 2 ^ fLimActiveWarning.len ∧
        t.hub.flt = s.hub.flt) ∧
    -- LIMIT_RECORD_EVALUATE, the last of the off count, back to NORMAL without warn_acts
    (∀ (s : State) (e : Nat) (r : FeaRec) (rest : List FeaRec) (v : Word),
      s.hub.stHeld heldLimit = false → s.hub.lim.fifo = r :: rest → s.hub.limRun r.ctx = (e, 1) →
      s.hub.limBad e = false → (List.range 4).all (fun i => NMap.get s.hub.lim.ups (4 * e + i) == 0#39) = true →
      leValid (s.hub.limWords e) = true → leCtx (s.hub.limWords e) = r.ctx →
      r.value (leSel (s.hub.limWords e)) = some v → (leAct (s.hub.limWords e) 3 && r.tag &&& 0xC4#8 != 0#8) = false →
      s.hub.rd (fLimStLevel e) = 1 → propLevel (s.hub.limWords e) v 1 = 0 →
      leOff (s.hub.limWords e) ≤ s.hub.rd (fLimStOffCnt e) + 1 → leAct (s.hub.limWords e) 4 = false →
      s.hub.rd fLimActiveWarning ≠ 0 → ∃ t,
        exec (.limitRecordEvaluate none) s = .next t ∧ t.hub.lim.fifo = rest ∧ t.hub.rd (fLimStLevel e) = 0 ∧
        t.hub.rd (fLimStTrans e) = (s.hub.rd (fLimStTrans e) + 1) % 2 ^ (fLimStTrans e).len ∧
        t.hub.rd fLimActiveWarning = s.hub.rd fLimActiveWarning - 1) ∧
    -- LIMIT_RECORD_EVALUATE, every entry of the run bad
    (∀ (s : State) (r : FeaRec) (rest : List FeaRec),
      s.hub.stHeld heldLimit = false → s.hub.lim.fifo = r :: rest →
      (∀ i ∈ List.range (s.hub.limRun r.ctx).2, s.hub.limBad ((s.hub.limRun r.ctx).1 + i) = true) → ∃ t,
        exec (.limitRecordEvaluate none) s = .next t ∧ t.hub.lim.fifo = rest ∧
        (∀ a, a ≠ 0x30 → t.hub.reg a = s.hub.reg a)) ∧
    -- LIM_ENTRY_WORD_HOLD, nothing held for another entry
    (∀ (s : State) (e : Fin 8192) (i : Fin 3) (w : Word),
      s.hub.answers s.fixed s.met .lim (0x140000 + 16 * e + 4 * i) = true → s.hub.stHeld heldLimit = false →
      s.hub.lim.entry = none → ∃ t,
        exec (.limEntryWordHold e i w) s = .next t ∧ t.hub.lim.entry = some e.val ∧ t.hub.lim.buf = [(i.val, w)] ∧
        t.hub.cells = s.hub.cells ∧ (∀ a, a ≠ 0x30 → t.hub.reg a = s.hub.reg a)) ∧
    -- LIM_ENTRY_WORD_HOLD, words of the same entry held
    (∀ (s : State) (e : Fin 8192) (i : Fin 3) (w : Word),
      s.hub.answers s.fixed s.met .lim (0x140000 + 16 * e + 4 * i) = true → s.hub.stHeld heldLimit = false →
      s.hub.lim.entry = some e.val → ∃ t,
        exec (.limEntryWordHold e i w) s = .next t ∧ t.hub.lim.entry = some e.val ∧
        t.hub.lim.buf = NMap.insert (NMap.erase s.hub.lim.buf i) i w ∧ t.hub.cells = s.hub.cells ∧
        (∀ a, a ≠ 0x30 → t.hub.reg a = s.hub.reg a)) ∧
    -- LIM_ENTRY_WORD_HOLD, words of another entry are discarded
    (∀ (s : State) (e : Fin 8192) (i : Fin 3) (w : Word) (e0 : Nat),
      s.hub.answers s.fixed s.met .lim (0x140000 + 16 * e + 4 * i) = true → s.hub.stHeld heldLimit = false →
      s.hub.lim.entry = some e0 → e0 ≠ e.val → ∃ t,
        exec (.limEntryWordHold e i w) s = .next t ∧ t.hub.lim.entry = some e.val ∧ t.hub.lim.buf = [(i.val, w)] ∧
        t.hub.is fLimStatusWrDiscard = true ∧ t.hub.cells = s.hub.cells) ∧
    -- LIM_ENTRY_APPLY of four words the check accepts
    (∀ (s : State) (e : Fin 8192) (w0 w1 w2 w : Word),
      s.hub.answers s.fixed s.met .lim (0x14000C + 16 * e) = true → s.hub.stHeld heldLimit = false →
      s.hub.lim.entry = some e.val → s.hub.lim.buf = [(0, w0), (1, w1), (2, w2)] →
      (s.hub.limStored e).2.limRefused e [w0, w1, w2, w] = false → ∃ t,
        exec (.limEntryApply e w) s = .next t ∧
        (List.range 4).map (fun i => t.hub.cell 7 (e.val / 64) (4 * (e.val % 64) + i)) = [w0, w1, w2, w] ∧
        (List.range 4).map (fun i => NMap.get t.hub.lim.ups (4 * e.val + i)) = [0#39, 0#39, 0#39, 0#39] ∧
        t.hub.lim.entry = none ∧ t.hub.limBad e = false ∧
        ((s.hub.limStored e).1 ≠ [w0, w1, w2, w] → t.hub.rd (fLimStLevel e) = 0)) ∧
    -- LIM_ENTRY_APPLY with no word held: word 3 with the stored words 0 to 2
    (∀ (s : State) (e : Fin 8192) (w : Word),
      s.hub.answers s.fixed s.met .lim (0x14000C + 16 * e) = true → s.hub.stHeld heldLimit = false →
      s.hub.lim.entry = none → (List.range 4).all (fun i => NMap.get s.hub.lim.ups (4 * e + i) == 0#39) = true →
      s.hub.limRefused e [s.hub.limRaw e 0, s.hub.limRaw e 1, s.hub.limRaw e 2, w] = false → ∃ t,
        exec (.limEntryApply e w) s = .next t ∧
        (List.range 4).map (fun i => t.hub.limRaw e i) = [s.hub.limRaw e 0, s.hub.limRaw e 1, s.hub.limRaw e 2, w] ∧
        t.hub.lim.entry = none) ∧
    -- LIM_ENTRY_APPLY of four words the check refuses
    (∀ (s : State) (e : Fin 8192) (w0 w1 w2 w : Word),
      s.hub.answers s.fixed s.met .lim (0x14000C + 16 * e) = true → s.hub.stHeld heldLimit = false →
      s.hub.lim.entry = some e.val → s.hub.lim.buf = [(0, w0), (1, w1), (2, w2)] →
      (List.range 4).all (fun i => NMap.get s.hub.lim.ups (4 * e + i) == 0#39) = true →
      s.hub.limRefused e [w0, w1, w2, w] = true → ∃ t,
        exec (.limEntryApply e w) s = .next t ∧ t.hub.is fLimStatusWrRefused = true ∧ t.hub.cells = s.hub.cells ∧
        t.hub.lim.entry = none ∧ (∀ a, a ≠ 0x30 ∧ a ≠ fLimStatusWrRefused.addr → t.hub.reg a = s.hub.reg a)) ∧
    -- LIMIT_SCRUB_READ of a clean entry
    (∀ (s : State),
      s.hub.stHeld heldLimit = false → s.hub.is fLimCfgScrub = true → s.hub.lim.fifo = [] →
      (List.range 4).all (fun i => NMap.get s.hub.lim.ups (4 * s.hub.rd fLimScrubPos + i) == 0#39) = true → ∃ t,
        exec (.limitScrubRead none) s = .next t ∧ t.hub.lim = s.hub.lim ∧ t.hub.cells = s.hub.cells ∧
        t.hub.rd fLimScrubPos = (s.hub.rd fLimScrubPos + 1) % 2 ^ fLimScrubPos.len ∧
        (∀ a, a ≠ 0x30 ∧ a ≠ fLimScrubPos.addr → t.hub.reg a = s.hub.reg a)) ∧
    -- LIMIT_SCRUB_READ of an entry in which one bit of one word flipped: repaired
    (∀ (s : State) (x : LimUpset),
      s.hub.stHeld heldLimit = false → s.hub.is fLimCfgScrub = true → s.hub.lim.fifo = [] →
      x.entry.val = s.hub.rd fLimScrubPos →
      (List.range 4).all (fun i => NMap.get s.hub.lim.ups (4 * s.hub.rd fLimScrubPos + i) == 0#39) = true →
      ((List.range 39).filter (fun k => x.bits.getLsbD k)).length = 1 → ∃ t,
        exec (.limitScrubRead (some x)) s = .next t ∧ NMap.get t.hub.lim.ups (4 * x.entry.val + x.word.val) = 0#39 ∧
        t.hub.cells = s.hub.cells ∧ t.hub.is fLimStatusCorr = true ∧
        t.hub.rd fLimCountCorr = satTo 8 (s.hub.rd fLimCountCorr + 1)) ∧
    -- LIMIT_SCRUB_READ of an entry in which two bits of one word flipped: bad
    (∀ (s : State) (x : LimUpset),
      s.hub.stHeld heldLimit = false → s.hub.is fLimCfgScrub = true → s.hub.lim.fifo = [] →
      x.entry.val = s.hub.rd fLimScrubPos →
      (List.range 4).all (fun i => NMap.get s.hub.lim.ups (4 * s.hub.rd fLimScrubPos + i) == 0#39) = true →
      ((List.range 39).filter (fun k => x.bits.getLsbD k)).length = 2 → ∃ t,
        exec (.limitScrubRead (some x)) s = .next t ∧ t.hub.limBad x.entry = true ∧ t.hub.is fLimStatusUncorr = true ∧
        t.hub.rd fLimCountUncorr = satTo 8 (s.hub.rd fLimCountUncorr + 1)) ∧
    -- LIMIT_SCRUB_READ while the scrubber is off or a record waits
    (∀ (s : State),
      (s.hub.is fLimCfgScrub = false ∨ s.hub.lim.fifo ≠ []) → ∃ t,
        exec (.limitScrubRead none) s = .next t ∧ t.hub.lim = s.hub.lim ∧ (∀ a, a ≠ 0x30 → t.hub.reg a = s.hub.reg a))

/-- Event channels fire, merge, mute and are fired by the host. A producer presented in cycle p makes a channel that may
fire do so in p + 1, with its flag, counts and cycle, and the firing is delivered along the channel's tasks two cycles
later, an IRQ0 task setting the channel's bit; inside the spacing the firing is held, presented while one is held it
merges, while the channel is muted it is dropped and counted; the held firing fires when the spacing allows; a firing
beyond the watchdog limit is not made and mutes the channel until its storm bit is cleared; a window end begins the next
window; ev.fire presents the enabled channels whose bits are written; reading the first stamp word latches the stamp.
(R254, R260, R261, R262, R264, R265, R266, R267) -/
def Obligations.ChannelFirings : Prop :=
    -- CHANNEL_FIRE with nothing presented
    (∀ (s : State) (n : Fin 128),
      (s.hub.chan n).presented = [] → ∃ t,
        exec (.channelFire n) s = .next t ∧ t.hub.ev = s.hub.ev ∧ (∀ a, a ≠ 0x30 → t.hub.reg a = s.hub.reg a)) ∧
    -- CHANNEL_FIRE, whatever the channel's tasks
    (∀ (s : State) (n : Fin 128) (p : Nat),
      (s.hub.chan n).presented = [p] → (s.hub.chan n).heldFire = false → s.hub.is (fEvCStMuted n) = false →
      (s.hub.chan n).live ≤ p →
      ((s.hub.chan n).lastFire.all (fun l => decide (l + s.hub.evSpacing n ≤ p + 1))) = true →
      ((p + 1 < (s.hub.chan n).winStart + s.hub.evWindow n ∧ s.hub.rd (fEvCStWindow n) < s.hub.evLimit n) ∨ ((s.hub.chan n).winStart + s.hub.evWindow n ≤ p + 1 ∧ 0 < s.hub.evLimit n)) →
      ∃ t,
        exec (.channelFire n) s = .next t ∧
        (∃ h1 : Hub, t.hub = latchIrq s.hub s.met (h1.deliverFiring s.fixed n (s.hub.evTasks n)) s.met ∧ (h1.chan n).lastFire = some (p + 1) ∧ (h1.chan n).heldFire = false ∧ h1.rd (fEvCFiresFires n) = (s.hub.rd (fEvCFiresFires n) + 1) % 2 ^ 32 ∧ (h1.reg (rEvFlag (n / 32))).getLsbD (n % 32) = true ∧ h1.is (fEvCStamp3Held n) = false ∧ (s.hub.clk.gates = true → h1.cyc = max s.hub.cyc (p + 1 + 2)))) ∧
    -- CHANNEL_FIRE of a channel no commit, channel or task follows
    (∀ (s : State) (n : Fin 128) (p : Nat),
      (s.hub.chan n).presented = [p] → (s.hub.chan n).heldFire = false → s.hub.is (fEvCStMuted n) = false →
      (s.hub.chan n).live ≤ p →
      ((s.hub.chan n).lastFire.all (fun l => decide (l + s.hub.evSpacing n ≤ p + 1))) = true →
      ((p + 1 < (s.hub.chan n).winStart + s.hub.evWindow n ∧ s.hub.rd (fEvCStWindow n) < s.hub.evLimit n) ∨ ((s.hub.chan n).winStart + s.hub.evWindow n ≤ p + 1 ∧ 0 < s.hub.evLimit n)) →
      s.hub.evTasks n = [] → s.hub.chansOf (0x7000 + n) = [] → s.hub.is fLdrCommitArm = false →
      s.hub.is fGlbCommitArm = false → ∃ t,
        exec (.channelFire n) s = .next t ∧ (t.hub.chan n).presented = [] ∧ (t.hub.chan n).lastFire = some (p + 1) ∧
        t.hub.rd (fEvCFiresFires n) = (s.hub.rd (fEvCFiresFires n) + 1) % 2 ^ 32 ∧
        (t.hub.reg (rEvFlag (n / 32))).getLsbD (n % 32) = true ∧ t.hub.is (fEvCStamp3Held n) = false ∧
        (s.hub.clk.gates = true → t.hub.cyc = max s.hub.cyc (p + 3))) ∧
    -- CHANNEL_FIRE of a channel whose only task is the IRQ0 input
    (∀ (s : State) (n : Fin 128) (p : Nat),
      (s.hub.chan n).presented = [p] → (s.hub.chan n).heldFire = false → s.hub.is (fEvCStMuted n) = false →
      (s.hub.chan n).live ≤ p →
      ((s.hub.chan n).lastFire.all (fun l => decide (l + s.hub.evSpacing n ≤ p + 1))) = true →
      ((p + 1 < (s.hub.chan n).winStart + s.hub.evWindow n ∧ s.hub.rd (fEvCStWindow n) < s.hub.evLimit n) ∨ ((s.hub.chan n).winStart + s.hub.evWindow n ≤ p + 1 ∧ 0 < s.hub.evLimit n)) →
      s.hub.evTasks n = [0x8000] → s.hub.chansOf (0x7000 + n) = [] → s.hub.is fLdrCommitArm = false →
      s.hub.is fGlbCommitArm = false → s.hub.flt.recs = [] → ∃ t,
        exec (.channelFire n) s = .next t ∧ (t.hub.reg (rEvIrq0 (n / 32))).getLsbD (n % 32) = true ∧
        t.hub.rd (fEvCFiresFires n) = (s.hub.rd (fEvCFiresFires n) + 1) % 2 ^ 32) ∧
    -- CHANNEL_FIRE inside the spacing: held
    (∀ (s : State) (n : Fin 128) (p l : Nat),
      (s.hub.chan n).presented = [p] → (s.hub.chan n).heldFire = false → s.hub.is (fEvCStMuted n) = false →
      (s.hub.chan n).live ≤ p → (s.hub.chan n).lastFire = some l → p + 1 < l + s.hub.evSpacing n → ∃ t,
        exec (.channelFire n) s = .next t ∧ (t.hub.chan n).presented = [] ∧ (t.hub.chan n).heldFire = true ∧
        t.hub.is (fEvCStHeld n) = true ∧ t.hub.rd (fEvCFiresFires n) = s.hub.rd (fEvCFiresFires n)) ∧
    -- CHANNEL_FIRE of a muted channel: dropped
    (∀ (s : State) (n : Fin 128) (p : Nat),
      (s.hub.chan n).presented = [p] → (s.hub.chan n).heldFire = false → s.hub.is (fEvCStMuted n) = true → ∃ t,
        exec (.channelFire n) s = .next t ∧ (t.hub.chan n).presented = [] ∧
        t.hub.rd (fEvCDropMuted n) = satTo 16 (s.hub.rd (fEvCDropMuted n) + 1) ∧
        t.hub.rd (fEvCFiresFires n) = s.hub.rd (fEvCFiresFires n)) ∧
    -- CHANNEL_FIRE while a firing is held: merged
    (∀ (s : State) (n : Fin 128) (p : Nat),
      (s.hub.chan n).presented = [p] → (s.hub.chan n).heldFire = true → s.hub.is (fEvCStMuted n) = false →
      (s.hub.chan n).live ≤ p → p < s.hub.heldCycle n → ∃ t,
        exec (.channelFire n) s = .next t ∧ (t.hub.chan n).presented = [] ∧ (t.hub.chan n).heldFire = true ∧
        t.hub.rd (fEvCLostMerged n) = satTo 16 (s.hub.rd (fEvCLostMerged n) + 1) ∧
        t.hub.rd (fEvCFiresFires n) = s.hub.rd (fEvCFiresFires n)) ∧
    -- CHANNEL_FIRE beyond the watchdog limit: the channel mutes
    (∀ (s : State) (n : Fin 128) (p : Nat),
      (s.hub.chan n).presented = [p] → (s.hub.chan n).heldFire = false → s.hub.is (fEvCStMuted n) = false →
      (s.hub.chan n).live ≤ p →
      ((s.hub.chan n).lastFire.all (fun l => decide (l + s.hub.evSpacing n ≤ p + 1))) = true →
      p + 1 < (s.hub.chan n).winStart + s.hub.evWindow n → s.hub.evLimit n ≤ s.hub.rd (fEvCStWindow n) → ∃ t,
        exec (.channelFire n) s = .next t ∧ t.hub.is (fEvCStMuted n) = true ∧
        (t.hub.reg (rEvStorm (n / 32))).getLsbD (n % 32) = true ∧
        t.hub.rd (fEvCFiresFires n) = s.hub.rd (fEvCFiresFires n)) ∧
    -- HELD_FIRING_RELEASE, whatever the channel's tasks
    (∀ (s : State) (n : Fin 128),
      (s.hub.chan n).heldFire = true → s.hub.is (fEvCStMuted n) = false →
      ((s.hub.heldCycle n < (s.hub.chan n).winStart + s.hub.evWindow n ∧ s.hub.rd (fEvCStWindow n) < s.hub.evLimit n) ∨ ((s.hub.chan n).winStart + s.hub.evWindow n ≤ s.hub.heldCycle n ∧ 0 < s.hub.evLimit n)) →
      ∃ t,
        exec (.heldFiringRelease n) s = .next t ∧
        (∃ h1 : Hub, t.hub = latchIrq s.hub s.met (h1.deliverFiring s.fixed n (s.hub.evTasks n)) s.met ∧ (h1.chan n).lastFire = some (s.hub.heldCycle n) ∧ (h1.chan n).heldFire = false ∧ h1.rd (fEvCFiresFires n) = (s.hub.rd (fEvCFiresFires n) + 1) % 2 ^ 32 ∧ (h1.reg (rEvFlag (n / 32))).getLsbD (n % 32) = true ∧ h1.is (fEvCStamp3Held n) = true ∧ (s.hub.clk.gates = true → h1.cyc = max s.hub.cyc (s.hub.heldCycle n + 2)))) ∧
    -- HELD_FIRING_RELEASE of a channel no commit, channel or task follows: at the spacing after the last firing
    (∀ (s : State) (n : Fin 128) (l : Nat),
      (s.hub.chan n).heldFire = true → (s.hub.chan n).lastFire = some l →
      (s.hub.chan n).notBefore ≤ l + s.hub.evSpacing n → s.hub.is (fEvCStMuted n) = false →
      ((l + s.hub.evSpacing n < (s.hub.chan n).winStart + s.hub.evWindow n ∧ s.hub.rd (fEvCStWindow n) < s.hub.evLimit n) ∨ ((s.hub.chan n).winStart + s.hub.evWindow n ≤ l + s.hub.evSpacing n ∧ 0 < s.hub.evLimit n)) →
      s.hub.evTasks n = [] → s.hub.chansOf (0x7000 + n) = [] → s.hub.is fLdrCommitArm = false →
      s.hub.is fGlbCommitArm = false → ∃ t,
        exec (.heldFiringRelease n) s = .next t ∧ (t.hub.chan n).heldFire = false ∧
        (t.hub.chan n).lastFire = some (l + s.hub.evSpacing n) ∧
        t.hub.rd (fEvCFiresFires n) = (s.hub.rd (fEvCFiresFires n) + 1) % 2 ^ 32 ∧
        t.hub.rd (fEvCLostHeld n) = satTo 16 (s.hub.rd (fEvCLostHeld n) + 1) ∧ t.hub.is (fEvCStamp3Held n) = true ∧
        t.hub.is (fEvCStHeld n) = false) ∧
    -- HELD_FIRING_RELEASE with no firing held, or muted
    (∀ (s : State) (n : Fin 128),
      ((s.hub.chan n).heldFire = false ∨ s.hub.is (fEvCStMuted n) = true) → ∃ t,
        exec (.heldFiringRelease n) s = .next t ∧ t.hub.ev = s.hub.ev ∧ (∀ a, a ≠ 0x30 → t.hub.reg a = s.hub.reg a)) ∧
    -- WATCHDOG_WINDOW_END
    (∀ (s : State) (n : Fin 128),
      s.hub.chanEnabled n = true → ∃ t,
        exec (.watchdogWindowEnd n) s = .next t ∧ t.hub.rd (fEvCStWindow n) = 0 ∧
        (t.hub.chan n).winStart = (s.hub.chan n).winStart + s.hub.evWindow n ∧
        (s.hub.clk.gates = true → t.hub.cyc = max s.hub.cyc ((s.hub.chan n).winStart + s.hub.evWindow n))) ∧
    -- STORM_CLEAR
    (∀ (s : State) (k : Fin 4) (w : Word),
      s.hub.answers s.fixed s.met .ev (0x180020 + 4 * k) = true → ∃ t,
        exec (.stormClear k w) s = .next t ∧ t.hub.reg (rEvStorm k) = s.hub.reg (rEvStorm k) &&& ~~~w ∧
        (List.range 32).all (fun i => !(w.getLsbD i) || !(t.hub.is (fEvCStMuted (32 * k.val + i)))) = true ∧
        t.hub.cells = s.hub.cells) ∧
    -- EV_FIRE: a channel whose bit is written 1
    (∀ (s : State) (w : Word) (i : Fin 32),
      s.hub.answers s.fixed s.met .ev 0x180000 = true → w.getLsbD i = true →
      s.hub.chanEnabled (32 * s.hub.rd fEvFireBankFireBank + i) = true →
      s.hub.is (fEvCStMuted (32 * s.hub.rd fEvFireBankFireBank + i)) = false →
      (s.hub.chan (32 * s.hub.rd fEvFireBankFireBank + i)).live ≤ s.hub.cyc → ∃ t,
        exec (.evFire w) s = .next t ∧
        (t.hub.chan (32 * s.hub.rd fEvFireBankFireBank + i)).presented = (s.hub.chan (32 * s.hub.rd fEvFireBankFireBank + i)).presented ++ [s.hub.cyc] ∧
        t.hub.cells = s.hub.cells) ∧
    -- EV_FIRE: a channel whose bit is written 0
    (∀ (s : State) (w : Word) (i : Fin 32),
      w.getLsbD i = false → ∃ t,
        exec (.evFire w) s = .next t ∧
        t.hub.chan (32 * s.hub.rd fEvFireBankFireBank + i) = s.hub.chan (32 * s.hub.rd fEvFireBankFireBank + i)) ∧
    -- EV_STAMP_READ
    (∀ (s : State) (n : Fin 128),
      s.hub.answers s.fixed s.met .ev (0x181010 + 0x20 * n) = true → ∃ t,
        exec (.evStampRead n) s = .next t ∧ t.hub.host.out = [(timeWords (s.hub.chan n).stamp).getD 0 0#32] ∧
        (t.hub.chan n).latch = 2 * (s.hub.chan n).stamp + s.hub.rd (fEvCStamp3Held n) ∧
        (∀ a, a ≠ 0x30 → t.hub.reg a = s.hub.reg a))

/-- A queue is first in, first out. A producer's word goes behind every word the queue holds, when the queue has room
and the producer holds its write port or is next in turn, and waits otherwise; a spill moves the eight oldest words of
the tail into a line of the stockpot and a refill the oldest line into the head, a flipped bit of it corrected, flagged
and counted; pointers that disagree with their copies after a move start a QUEUE recovery. The host reads the oldest
word, first its information and then its payload, which removes it; an empty queue and a CASCADE queue read as an idle
word. A flush keeps the words of the item its consumer has begun and nothing else, and truncates an item in progress.
Where words leave or join a queue, pending alarms, logs and landing words then move on (settle). The order in which
waiting producers take a queue's write port is the model's choice (log entry 102). (R280, R281, R282, R283, R284, R285,
R286, R287, R289, R291, R302, R443) -/
def Obligations.QueueOrder : Prop :=
    -- QUEUE_PRODUCER_WRITE of a word the queue takes
    (∀ (s : State) (p : Fin 2048) (q : Nat) (w : QWord) (rest : List (Nat × QWord)),
      NMap.get s.hub.outbox p = (q, w) :: rest → s.hub.qEnabled q = true → s.hub.recovering 1 q = false →
      s.hub.stHoldsQueues = false → (NMap.get s.hub.q q).discard = false →
      ((NMap.get s.hub.q q).holder = some p.val ∨ (NMap.get s.hub.q q).holder = none ∧ s.hub.qTurn q = some p.val) →
      (NMap.get s.hub.q q).tail.length < 16 → (NMap.get s.hub.q q).level < s.hub.qCap q → ∃ t,
        exec (.queueProducerWrite p) s = .next t ∧ (s.hub.producerWrite p).qWords q = s.hub.qWords q ++ [w] ∧
        NMap.get (s.hub.producerWrite p).outbox p = rest ∧
        (NMap.get (s.hub.producerWrite p).q q).pkts = (NMap.get s.hub.q q).pkts + b2n (qEnd w) ∧
        (NMap.get (s.hub.producerWrite p).q q).holder = (if qEnd w then none else some p.val) ∧
        t.hub = latchIrq s.hub s.met ((s.hub.producerWrite p).settle s.fixed) s.met) ∧
    -- QUEUE_PRODUCER_WRITE while the queue is full or another producer's item holds it: the word waits
    (∀ (s : State) (p : Fin 2048) (q : Nat) (w : QWord) (rest : List (Nat × QWord)),
      NMap.get s.hub.outbox p = (q, w) :: rest →
      (s.hub.qCap q ≤ (NMap.get s.hub.q q).level ∨ ((NMap.get s.hub.q q).holder.any (fun o => o != p.val)) = true) →
      ((NMap.get s.hub.q q).holder == some p.val && (NMap.get s.hub.q q).discard) = false →
      s.hub.stHeld heldQueue = false → ∃ t,
        exec (.queueProducerWrite p) s = .next t ∧ (s.hub.producerWrite p).q = s.hub.q ∧
        (s.hub.producerWrite p).outbox = s.hub.outbox ∧
        t.hub = latchIrq s.hub s.met ((s.hub.producerWrite p).settle s.fixed) s.met) ∧
    -- QUEUE_PRODUCER_WRITE of a producer with no word
    (∀ (s : State) (p : Fin 2048),
      NMap.get s.hub.outbox p = [] → ∃ t,
        exec (.queueProducerWrite p) s = .next t ∧ t.hub = latchIrq s.hub s.met (s.hub.settle s.fixed) s.met) ∧
    -- QUEUE_SPILL with agreeing pointers
    (∀ (s : State) (q : Fin 64),
      8 ≤ (NMap.get s.hub.q q).tail.length → ((NMap.get s.hub.q q).mid ≠ [] ∨ 16 ≤ (NMap.get s.hub.q q).head.length) →
      (NMap.get s.hub.q q).mid.length < s.hub.qLines q → s.hub.recovering 1 q = false → s.hub.stHoldsQueues = false →
      (NMap.get s.hub.q q).rd = (NMap.get s.hub.q q).rdN → ∃ t,
        exec (.queueSpill q 0#38) s = .next t ∧ (NMap.get t.hub.q q).tail = (NMap.get s.hub.q q).tail.drop 8 ∧
        (NMap.get t.hub.q q).mid = (NMap.get s.hub.q q).mid ++ [{ slot := (NMap.get s.hub.q q).wr.toNat, n := 8 }] ∧
        (NMap.get t.hub.q q).head = (NMap.get s.hub.q q).head ∧
        t.hub.lineData (s.hub.qBase q + 5 * (NMap.get s.hub.q q).wr.toNat) = packLine ((NMap.get s.hub.q q).tail.take 8) ∧
        (NMap.get t.hub.q q).wr = s.hub.nextSlot q (NMap.get s.hub.q q).wr.toNat ∧
        (∀ a, a ≠ 0x30 → t.hub.reg a = s.hub.reg a)) ∧
    -- QUEUE_SPILL that leaves a pointer different from its copy: a QUEUE recovery
    (∀ (s : State) (q : Fin 64) (ptr : BitVec 38),
      8 ≤ (NMap.get s.hub.q q).tail.length → ((NMap.get s.hub.q q).mid ≠ [] ∨ 16 ≤ (NMap.get s.hub.q q).head.length) →
      (NMap.get s.hub.q q).mid.length < s.hub.qLines q → s.hub.flt.recs = [] → s.hub.stHoldsQueues = false →
      ptr ≠ 0#38 → q ≠ 62 → ∃ t,
        exec (.queueSpill q ptr) s = .next t ∧ t.hub.recovering 1 q = true ∧ t.hub.is (fQQStatusPtrErr q) = true) ∧
    -- QUEUE_SPILL without eight words to move, or without room in the middle
    (∀ (s : State) (q : Fin 64) (ptr : BitVec 38),
      ((NMap.get s.hub.q q).tail.length < 8 ∨ s.hub.qLines q ≤ (NMap.get s.hub.q q).mid.length ∨ (NMap.get s.hub.q q).mid = [] ∧ (NMap.get s.hub.q q).head.length < 16) →
      ∃ t,
        exec (.queueSpill q ptr) s = .next t ∧ t.hub.q = s.hub.q ∧ t.hub.stock = s.hub.stock ∧
        (∀ a, a ≠ 0x30 → t.hub.reg a = s.hub.reg a)) ∧
    -- QUEUE_REFILL of a clean line with agreeing pointers
    (∀ (s : State) (q : Fin 64) (m : MidLine) (rest : List MidLine) (us : List Upset),
      s.hub.recovering 1 q = false → s.hub.testsLine q = false → s.hub.stHoldsQueues = false →
      (NMap.get s.hub.q q).mid = m :: rest → (NMap.get s.hub.q q).head.length ≤ 8 →
      (NMap.get s.hub.q q).wr = (NMap.get s.hub.q q).wrN →
      us.all (fun u => u == { data := 0#72, addr := 0#21 }) = true → ∃ t,
        exec (.queueRefill q 0#38 us) s = .next t ∧ (s.hub.refill s.fixed q 0#38 us).qWords q = s.hub.qWords q ∧
        (NMap.get (s.hub.refill s.fixed q 0#38 us).q q).mid = rest ∧
        (NMap.get (s.hub.refill s.fixed q 0#38 us).q q).rd = s.hub.nextSlot q m.slot ∧
        (s.hub.refill s.fixed q 0#38 us).regs = s.hub.regs ∧
        t.hub = latchIrq s.hub s.met ((s.hub.refill s.fixed q 0#38 us).settle s.fixed) s.met) ∧
    -- QUEUE_REFILL of a line whose first stored word has one flipped bit: corrected
    (∀ (s : State) (q : Fin 64) (m : MidLine) (rest : List MidLine) (u : Upset),
      s.hub.recovering 1 q = false → s.hub.testsLine q = false → s.hub.stHoldsQueues = false →
      (NMap.get s.hub.q q).mid = m :: rest → (NMap.get s.hub.q q).head.length ≤ 8 →
      (NMap.get s.hub.q q).wr = (NMap.get s.hub.q q).wrN → popcount u.data.toNat 72 = 1 → u.addr = 0#21 → ∃ t,
        exec (.queueRefill q 0#38 [u]) s = .next t ∧ (s.hub.refill s.fixed q 0#38 [u]).qWords q = s.hub.qWords q ∧
        (s.hub.refill s.fixed q 0#38 [u]).is (fQQStatusCorr q) = true ∧
        (s.hub.refill s.fixed q 0#38 [u]).rd (fQQCountCorr q) = satTo 8 (s.hub.rd (fQQCountCorr q) + 1) ∧
        t.hub = latchIrq s.hub s.met ((s.hub.refill s.fixed q 0#38 [u]).settle s.fixed) s.met) ∧
    -- QUEUE_REFILL with no line in the middle, or no room for one
    (∀ (s : State) (q : Fin 64) (us : List Upset),
      s.hub.testsLine q = false → ((NMap.get s.hub.q q).mid = [] ∨ 8 < (NMap.get s.hub.q q).head.length) → ∃ t,
        exec (.queueRefill q 0#38 us) s = .next t ∧ t.hub = latchIrq s.hub s.met (s.hub.settle s.fixed) s.met) ∧
    -- QUEUE_REFILL by a recovery, whose test of line 0 reads clean: the queue stays as it is
    (∀ (s : State) (q : Fin 64) (us : List Upset),
      s.hub.testsLine q = true → us.all (fun u => u == { data := 0#72, addr := 0#21 }) = true → ∃ t,
        exec (.queueRefill q 0#38 us) s = .next t ∧ (s.hub.refill s.fixed q 0#38 us).q = s.hub.q ∧
        (s.hub.refill s.fixed q 0#38 us).regs = s.hub.regs ∧
        t.hub = latchIrq s.hub s.met ((s.hub.refill s.fixed q 0#38 us).settle s.fixed) s.met) ∧
    -- QUEUE_WINDOW_READ of the payload: the oldest word is read and removed
    (∀ (s : State) (q : Fin 64) (w : QWord) (rest : List QWord),
      s.hub.answers s.fixed s.met .q (0x1A0204 + 0x400 * q) = true → s.hub.qEnabled q = true →
      s.hub.recovering 1 q = false → s.hub.stHoldsQueues = false → s.hub.cf 9 q 0 1 1 = 0 →
      (NMap.get s.hub.q q).head = w :: rest → ∃ t,
        exec (.queueWindowRead q true) s = .next t ∧
        s.hub.qWords q = w :: (s.hub.windowRead s.fixed q true).2.qWords q ∧
        t.hub = latchIrq s.hub s.met (((s.hub.windowRead s.fixed q true).2.settle s.fixed).toHost (qPayload w)) s.met) ∧
    -- QUEUE_WINDOW_READ of the information: nothing is removed
    (∀ (s : State) (q : Fin 64) (w : QWord) (rest : List QWord),
      s.hub.answers s.fixed s.met .q (0x1A0200 + 0x400 * q) = true → s.hub.qEnabled q = true →
      s.hub.recovering 1 q = false → s.hub.stHoldsQueues = false → s.hub.cf 9 q 0 1 1 = 0 →
      (NMap.get s.hub.q q).head = w :: rest → ∃ t,
        exec (.queueWindowRead q false) s = .next t ∧
        t.hub = latchIrq s.hub s.met ((s.hub.settle s.fixed).toHost (w32 (w.toNat / 2 ^ 32))) s.met) ∧
    -- QUEUE_WINDOW_READ of an empty queue: an idle word
    (∀ (s : State) (q : Fin 64) (payload : Bool),
      s.hub.answers s.fixed s.met .q (0x1A0200 + 0x400 * q + 4 * b2n payload) = true → s.hub.qEnabled q = true →
      s.hub.recovering 1 q = false → s.hub.stHoldsQueues = false → s.hub.testsLine q = false →
      s.hub.cf 9 q 0 1 1 = 0 → (NMap.get s.hub.q q).head = [] → (NMap.get s.hub.q q).mid = [] → ∃ t,
        exec (.queueWindowRead q payload) s = .next t ∧
        t.hub = latchIrq s.hub s.met ((s.hub.settle s.fixed).toHost (if payload then 0#32 else w32 (2 ^ 7))) s.met) ∧
    -- QUEUE_WINDOW_READ of a CASCADE queue: an idle word, flagged
    (∀ (s : State) (q : Fin 64) (payload : Bool),
      s.hub.answers s.fixed s.met .q (0x1A0200 + 0x400 * q + 4 * b2n payload) = true → s.hub.qEnabled q = true →
      s.hub.cf 9 q 0 1 1 = 1 → ∃ t,
        exec (.queueWindowRead q payload) s = .next t ∧
        t.hub = latchIrq s.hub s.met (((s.hub.on (fQQStatusNotHost q)).settle s.fixed).toHost (if payload then 0#32 else w32 (2 ^ 7))) s.met) ∧
    -- QUEUE_FLUSH with no item in progress: the item the consumer has begun stays
    (∀ (s : State) (q : Fin 64) (ptr : BitVec 38),
      s.hub.answers s.fixed s.met .q (0x1A0000 + 0x400 * q) = true → s.hub.qEnabled q = true →
      (NMap.get s.hub.q q).holder = none → ptr = 0#38 → (NMap.get s.hub.q q).rd = (NMap.get s.hub.q q).rdN → ∃ t,
        exec (.queueFlush ⟨q, ptr⟩) s = .next t ∧
        (s.hub.flush s.fixed q ptr).qWords q = (s.hub.qWords q).take (keptWords (NMap.get s.hub.q q).begun (s.hub.qWords q)) ∧
        (s.hub.flush s.fixed q ptr).is (fQQStatusFlushed q) = true ∧
        (s.hub.flush s.fixed q ptr).rd (fQQCountFlush q) = satTo 8 (s.hub.rd (fQQCountFlush q) + 1) ∧
        t.hub = latchIrq s.hub s.met ((s.hub.flush s.fixed q ptr).settle s.fixed) s.met) ∧
    -- QUEUE_FLUSH with an item in progress that the consumer has not begun: truncated, its rest discarded
    (∀ (s : State) (q : Fin 64) (p : Nat),
      s.hub.answers s.fixed s.met .q (0x1A0000 + 0x400 * q) = true → s.hub.qEnabled q = true →
      (NMap.get s.hub.q q).holder = some p → (NMap.get s.hub.q q).discard = false →
      (NMap.get s.hub.q q).begun = false → (NMap.get s.hub.q q).rd = (NMap.get s.hub.q q).rdN → ∃ t,
        exec (.queueFlush ⟨q, 0#38⟩) s = .next t ∧ (s.hub.flush s.fixed q 0#38).qWords q = [] ∧
        (NMap.get (s.hub.flush s.fixed q 0#38).q q).discard = true ∧
        (s.hub.flush s.fixed q 0#38).is (fQQStatusTrunc q) = true ∧
        (s.hub.flush s.fixed q 0#38).is (fQQStatusFlushed q) = true ∧
        t.hub = latchIrq s.hub s.met ((s.hub.flush s.fixed q 0#38).settle s.fixed) s.met) ∧
    -- QUEUE_FLUSH of a queue that is not enabled
    (∀ (s : State) (q : Fin 64) (ptr : BitVec 38),
      s.hub.answers s.fixed s.met .q (0x1A0000 + 0x400 * q) = true → s.hub.qEnabled q = false → ∃ t,
        exec (.queueFlush ⟨q, ptr⟩) s = .next t ∧ t.hub.q = s.hub.q ∧ (∀ a, a ≠ 0x30 → t.hub.reg a = s.hub.reg a))

/-- Rewind rings. A gathered line goes with its first sample's time to its slot of the stockpot; below a line nothing is
stored. Arming an idle ring waits for a fire, firing an armed one starts a capture at the next sample, any other fire is
ignored and counted, and an arm during a capture or its read-out is refused. The read-out gives the header, then the
samples of one line at each grant, then the trailer, and waits while its queue has not taken what it gave. (R293, R294,
R295, R296, R297, R298) -/
def Obligations.RewindRings : Prop :=
    -- RING_LINE_WRITE
    (∀ (s : State) (c : Fin 192) (k : RingCfg) (l : List Samp) (x : Samp),
      s.hub.ringCfg c = some k → (NMap.get s.hub.ring c).line = x :: l → 7 ≤ l.length → s.hub.stHoldsQueues = false →
      ∃ t,
        exec (.ringLineWrite c) s = .next t ∧
        (NMap.get t.hub.ring c) = { NMap.get s.hub.ring c with line := l.drop 7 } ∧
        t.hub.lineData (k.addr (((NMap.get s.hub.ring c).next - (l.length + 1)) / 8)) = packLine (((x :: l).take 8).map (fun y => qword false 1 0 (sampWord y))) ∧
        t.hub.stockAt (k.addr (((NMap.get s.hub.ring c).next - (l.length + 1)) / 8) + 5) = BitVec.ofNat 64 (x.time / 65536000000000) ∧
        t.hub.stockAt (k.addr (((NMap.get s.hub.ring c).next - (l.length + 1)) / 8) + 6) = BitVec.ofNat 64 (x.time % 65536000000000) ∧
        (∀ a, a ≠ 0x30 → t.hub.reg a = s.hub.reg a)) ∧
    -- RING_LINE_WRITE without a ring or below a line
    (∀ (s : State) (c : Fin 192),
      (s.hub.ringCfg c = none ∨ (NMap.get s.hub.ring c).line.length < 8) → ∃ t,
        exec (.ringLineWrite c) s = .next t ∧ t.hub.ring = s.hub.ring ∧ t.hub.stock = s.hub.stock ∧
        (∀ a, a ≠ 0x30 → t.hub.reg a = s.hub.reg a)) ∧
    -- RING_ARM of an idle ring, no fire in this cycle
    (∀ (s : State) (c : Fin 192),
      s.hub.answers s.fixed s.met .q (0x1B0000 + 0x20 * c) = true → (s.hub.ringCfg c).isSome = true →
      s.hub.ringState c = 0 → ((NMap.get s.hub.ring c).ign.all (fun x => x.1 != s.hub.cyc)) = true → ∃ t,
        exec (.ringArm c) s = .next t ∧ t.hub.ringState c = 1 ∧ t.hub.ring = s.hub.ring ∧
        (∀ a, a ≠ 0x30 ∧ a ≠ (fQRStatusState c).addr → t.hub.reg a = s.hub.reg a)) ∧
    -- RING_ARM of an armed ring
    (∀ (s : State) (c : Fin 192),
      s.hub.answers s.fixed s.met .q (0x1B0000 + 0x20 * c) = true → (s.hub.ringCfg c).isSome = true →
      s.hub.ringState c = 1 → ∃ t,
        exec (.ringArm c) s = .next t ∧ t.hub.ringState c = 1 ∧ t.hub.ring = s.hub.ring ∧
        (∀ a, a ≠ 0x30 → t.hub.reg a = s.hub.reg a)) ∧
    -- RING_ARM during a capture or its read-out: refused
    (∀ (s : State) (c : Fin 192),
      s.hub.answers s.fixed s.met .q (0x1B0000 + 0x20 * c) = true → (s.hub.ringCfg c).isSome = true →
      2 ≤ s.hub.ringState c → ∃ t,
        exec (.ringArm c) s = .next t ∧ t.hub.is (fQRStatusArmRef c) = true ∧ t.hub.ringState c = s.hub.ringState c ∧
        t.hub.ring = s.hub.ring) ∧
    -- RING_FIRE of an armed ring: the next sample is the trigger sample
    (∀ (s : State) (c : Fin 192) (k : RingCfg),
      s.hub.answers s.fixed s.met .q (0x1B0000 + 0x20 * c) = true → s.hub.ringCfg c = some k → s.hub.ringState c = 1 →
      ∃ t,
        exec (.ringFire c) s = .next t ∧ t.hub.ringState c = 2 ∧
        (NMap.get t.hub.ring c).trig = (NMap.get s.hub.ring c).next ∧ (NMap.get t.hub.ring c).post = k.post ∧
        (NMap.get t.hub.ring c).mark = max (((NMap.get s.hub.ring c).next - k.pre) / 8 * 8) ((((NMap.get s.hub.ring c).next + 7) / 8 - k.lines) * 8) ∧
        (NMap.get t.hub.ring c).lost = (((NMap.get s.hub.ring c).next + 7) / 8 - k.lines) * 8 - ((NMap.get s.hub.ring c).next - k.pre) / 8 * 8) ∧
    -- RING_FIRE of a ring that is not armed: ignored and counted
    (∀ (s : State) (c : Fin 192),
      s.hub.answers s.fixed s.met .q (0x1B0000 + 0x20 * c) = true → (s.hub.ringCfg c).isSome = true →
      s.hub.ringState c ≠ 1 → ∃ t,
        exec (.ringFire c) s = .next t ∧ t.hub.is (fQRStatusFireIgn c) = true ∧
        t.hub.rd (fQRCountIgnored c) = satTo 16 (s.hub.rd (fQRCountIgnored c) + 1) ∧
        t.hub.ringState c = s.hub.ringState c) ∧
    -- RING_ARM and RING_FIRE of a context without a ring
    (∀ (s : State) (c : Fin 192),
      s.hub.answers s.fixed s.met .q (0x1B0000 + 0x20 * c) = true → s.hub.ringCfg c = none → ∃ t,
        exec (.ringArm c) s = .next t ∧ exec (.ringFire c) s = .next t ∧ t.hub.ring = s.hub.ring ∧
        (∀ a, a ≠ 0x30 → t.hub.reg a = s.hub.reg a)) ∧
    -- CAPTURE_READOUT, the first line, from the stockpot and clean: the header, then its samples
    (∀ (s : State) (c : Fin 192) (k : RingCfg) (us : List Upset),
      s.hub.ringCfg c = some k → s.hub.ringState c = 3 → s.hub.recovering 1 k.q = false →
      s.hub.stHoldsQueues = false → NMap.get s.hub.outbox (prodRing c) = [] →
      (NMap.get s.hub.ring c).hdrDone = false →
      (NMap.get s.hub.ring c).gone.contains ((NMap.get s.hub.ring c).pos / 8) = false →
      (NMap.get s.hub.ring c).held ((NMap.get s.hub.ring c).pos / 8) = none →
      (NMap.get s.hub.ring c).pos < (NMap.get s.hub.ring c).stop →
      us.all (fun u => u == { data := 0#72, addr := 0#21 }) = true → ∃ t,
        exec (.captureReadout c us) s = .next t ∧ (NMap.get t.hub.ring c).hdrDone = true ∧
        (NMap.get t.hub.ring c).pos = min (8 * ((NMap.get s.hub.ring c).pos / 8) + 8) (NMap.get s.hub.ring c).stop ∧
        NMap.get t.hub.outbox (prodRing c) = (captureHeader s.hub c k (NMap.get s.hub.ring c) ((s.hub.stockAt (k.addr ((NMap.get s.hub.ring c).pos / 8) + 5)).toNat * 65536000000000 + (s.hub.stockAt (k.addr ((NMap.get s.hub.ring c).pos / 8) + 6)).toNat) ++ ((((unpackLine (s.hub.lineData (k.addr ((NMap.get s.hub.ring c).pos / 8))) 8).map qPayload).drop ((NMap.get s.hub.ring c).pos % 8)).take (min (8 * ((NMap.get s.hub.ring c).pos / 8) + 8) (NMap.get s.hub.ring c).stop - (NMap.get s.hub.ring c).pos)).map (fun w => qword false 1 0 w)).map (fun w => (k.q, w)) ∧
        t.hub.ringState c = 3) ∧
    -- CAPTURE_READOUT of a further line, from the stockpot and clean
    (∀ (s : State) (c : Fin 192) (k : RingCfg) (us : List Upset),
      s.hub.ringCfg c = some k → s.hub.ringState c = 3 → s.hub.recovering 1 k.q = false →
      s.hub.stHoldsQueues = false → NMap.get s.hub.outbox (prodRing c) = [] → (NMap.get s.hub.ring c).hdrDone = true →
      (NMap.get s.hub.ring c).gone.contains ((NMap.get s.hub.ring c).pos / 8) = false →
      (NMap.get s.hub.ring c).held ((NMap.get s.hub.ring c).pos / 8) = none →
      (NMap.get s.hub.ring c).pos < (NMap.get s.hub.ring c).stop →
      us.all (fun u => u == { data := 0#72, addr := 0#21 }) = true → ∃ t,
        exec (.captureReadout c us) s = .next t ∧
        (NMap.get t.hub.ring c).pos = min (8 * ((NMap.get s.hub.ring c).pos / 8) + 8) (NMap.get s.hub.ring c).stop ∧
        NMap.get t.hub.outbox (prodRing c) = ((((unpackLine (s.hub.lineData (k.addr ((NMap.get s.hub.ring c).pos / 8))) 8).map qPayload).drop ((NMap.get s.hub.ring c).pos % 8)).take (min (8 * ((NMap.get s.hub.ring c).pos / 8) + 8) (NMap.get s.hub.ring c).stop - (NMap.get s.hub.ring c).pos)).map (fun w => (k.q, qword false 1 0 w)) ∧
        t.hub.ringState c = 3) ∧
    -- CAPTURE_READOUT, the trailer
    (∀ (s : State) (c : Fin 192) (k : RingCfg) (us : List Upset),
      s.hub.ringCfg c = some k → s.hub.ringState c = 3 → s.hub.recovering 1 k.q = false →
      s.hub.stHoldsQueues = false → NMap.get s.hub.outbox (prodRing c) = [] → (NMap.get s.hub.ring c).hdrDone = true →
      (NMap.get s.hub.ring c).stop ≤ (NMap.get s.hub.ring c).pos → ∃ t,
        exec (.captureReadout c us) s = .next t ∧
        NMap.get t.hub.outbox (prodRing c) = [(k.q, qword true 7 0 (w32 (satTo 16 (NMap.get s.hub.ring c).rdLost * 65536 + (NMap.get s.hub.ring c).orTag.toNat * 256)))] ∧
        t.hub.ringState c = 3) ∧
    -- CAPTURE_READOUT outside a read-out, or while words of it wait for the queue
    (∀ (s : State) (c : Fin 192) (us : List Upset),
      (s.hub.ringState c ≠ 3 ∨ NMap.get s.hub.outbox (prodRing c) ≠ []) → ∃ t,
        exec (.captureReadout c us) s = .next t ∧ t.hub.ring = s.hub.ring ∧ t.hub.outbox = s.hub.outbox ∧
        (∀ a, a ≠ 0x30 → t.hub.reg a = s.hub.reg a))

/-- The debug window over the stockpot. In the life-cycle states OPEN and SERVICE the host reads either half of a
stockpot word, one flipped bit corrected and shown in the syndrome; a write of the lower half is held, and a write of
the upper half writes both halves, the lower one as held or, with none held, as stored. In any other life-cycle state an
access is denied, answered with zero and changes nothing in the stockpot. (R75, R290, R300, R305) -/
def Obligations.DebugWindow : Prop :=
    -- DBG_READ of a clean word
    (∀ (s : State) (i : BitVec 20),
      s.hub.answers s.fixed s.met .dbg (0xC00000 + 4 * i.toNat) = true → s.hub.stHolds 0 = false → ∃ t,
        exec (.dbgRead i { data := 0#72, addr := 0#21 }) s = .next t ∧
        t.hub.host.out = [(if i.toNat % 2 = 0 then (s.hub.stockAt (s.hub.dbgWord (4 * i.toNat))).extractLsb' 0 32 else (s.hub.stockAt (s.hub.dbgWord (4 * i.toNat))).extractLsb' 32 32)] ∧
        t.hub.stock = s.hub.stock ∧ t.hub.rd fQDbgChkSyndrome = 0) ∧
    -- DBG_READ of a word with one flipped bit: corrected
    (∀ (s : State) (i : BitVec 20) (u : Upset),
      s.hub.answers s.fixed s.met .dbg (0xC00000 + 4 * i.toNat) = true → s.hub.stHolds 0 = false →
      popcount u.data.toNat 72 = 1 → u.addr = 0#21 → ∃ t,
        exec (.dbgRead i u) s = .next t ∧
        t.hub.host.out = [(if i.toNat % 2 = 0 then (s.hub.stockAt (s.hub.dbgWord (4 * i.toNat))).extractLsb' 0 32 else (s.hub.stockAt (s.hub.dbgWord (4 * i.toNat))).extractLsb' 32 32)] ∧
        t.hub.stock = s.hub.stock ∧ t.hub.rd fQDbgChkSyndrome ≠ 0) ∧
    -- DBG_READ in another life-cycle state: denied
    (∀ (s : State) (i : BitVec 20) (u : Upset),
      s.hub.asleep = false → s.hub.dbgOpen = false → ∃ t,
        exec (.dbgRead i u) s = .next t ∧ t.hub.host.out = [0#32] ∧ t.hub.is fHstStatusDenied = true ∧
        t.hub.rd fHstLastAddr = 0xC00000 + 4 * i.toNat ∧ t.hub.stock = s.hub.stock) ∧
    -- DBG_WRITE_LOW: held
    (∀ (s : State) (i : BitVec 19) (w : Word),
      s.hub.answers s.fixed s.met .dbg (0xC00000 + 8 * i.toNat) = true → ∃ t,
        exec (.dbgWriteLow i w) s = .next t ∧ t.hub.dbgHeld = [((s.hub.dbgWord (8 * i.toNat)), w)] ∧
        t.hub.stock = s.hub.stock ∧ (∀ a, a ≠ 0x30 → t.hub.reg a = s.hub.reg a)) ∧
    -- DBG_WRITE_HIGH with the lower half of the same word held
    (∀ (s : State) (i : BitVec 19) (w lo : Word),
      s.hub.answers s.fixed s.met .dbg (0xC00004 + 8 * i.toNat) = true → s.hub.stHolds 0 = false →
      s.hub.dbgHeld = [((s.hub.dbgWord (8 * i.toNat)), lo)] → ∃ t,
        exec (.dbgWriteHigh i w) s = .next t ∧ t.hub.stockAt (s.hub.dbgWord (8 * i.toNat)) = w ++ lo ∧
        (∀ k, k ≠ (s.hub.dbgWord (8 * i.toNat)) → t.hub.stockAt k = s.hub.stockAt k) ∧ t.hub.dbgHeld = [] ∧
        (∀ a, a ≠ 0x30 → t.hub.reg a = s.hub.reg a)) ∧
    -- DBG_WRITE_HIGH with no lower half held
    (∀ (s : State) (i : BitVec 19) (w : Word),
      s.hub.answers s.fixed s.met .dbg (0xC00004 + 8 * i.toNat) = true → s.hub.stHolds 0 = false →
      s.hub.dbgHeld = [] → ∃ t,
        exec (.dbgWriteHigh i w) s = .next t ∧
        t.hub.stockAt (s.hub.dbgWord (8 * i.toNat)) = w ++ (s.hub.stockAt (s.hub.dbgWord (8 * i.toNat))).extractLsb' 0 32 ∧
        (∀ k, k ≠ (s.hub.dbgWord (8 * i.toNat)) → t.hub.stockAt k = s.hub.stockAt k)) ∧
    -- DBG_WRITE_LOW in another life-cycle state: denied
    (∀ (s : State) (i : BitVec 19) (w : Word),
      s.hub.asleep = false → s.hub.dbgOpen = false → ∃ t,
        exec (.dbgWriteLow i w) s = .next t ∧ t.hub.is fHstStatusDenied = true ∧ t.hub.stock = s.hub.stock ∧
        t.hub.dbgHeld = s.hub.dbgHeld) ∧
    -- DBG_WRITE_HIGH in another life-cycle state: denied
    (∀ (s : State) (i : BitVec 19) (w : Word),
      s.hub.asleep = false → s.hub.dbgOpen = false → ∃ t,
        exec (.dbgWriteHigh i w) s = .next t ∧ t.hub.is fHstStatusDenied = true ∧ t.hub.stock = s.hub.stock ∧
        t.hub.dbgHeld = s.hub.dbgHeld)

/-- Timebases, TRG outputs and TACH inputs. Reading the first now word latches the value; a slew ends after its ticks
and leaves the rate; a pulse ends when its width has passed; an edge that qualifies is counted, stamped on every
timebase and kept as the last one, and its period measured from the one before; one inside the hold-off is rejected and
counted, and one against the polarity is nothing. Reading the first stamp word latches the stamp. (R307, R311, R312,
R316, R317, R318) -/
def Obligations.Timebases : Prop :=
    -- TM_NOW_READ
    (∀ (s : State) (n : Fin 18),
      s.hub.answers s.fixed s.met .tm (0x1C0000 + 0x40 * n) = true → ∃ t,
        exec (.tmNowRead n) s = .next t ∧
        t.hub.host.out = [(timeWords (Sys2Proof.Machine.report (s.hub.tbVal n))).getD 0 0#32] ∧
        (NMap.get t.hub.tb n).latch = Sys2Proof.Machine.report (s.hub.tbVal n) ∧ t.hub.tbVal n = s.hub.tbVal n ∧
        (∀ a, a ≠ 0x30 → t.hub.reg a = s.hub.reg a)) ∧
    -- SLEW_END: the slew's ticks have passed
    (∀ (s : State) (n : Fin 17),
      s.hub.clk.gates = true → (NMap.get s.hub.tb n).slewTicks ≠ 0 → ∃ t,
        exec (.slewEnd n.castSucc) s = .next t ∧ (NMap.get t.hub.tb n).slewTicks = 0 ∧
        t.hub.cyc = s.hub.cyc + (NMap.get s.hub.tb n).slewTicks ∧
        t.hub.tbVal n = tbAfter (s.hub.tbVal n) (NMap.get s.hub.tb n).slewTicks (s.hub.tbIncr n) (signedOf (s.hub.rd (fTmTbSlewAdjSlewAdj n)) 32) (NMap.get s.hub.tb n).slewTicks ∧
        (∀ a, a ≠ 0x30 → t.hub.reg a = s.hub.reg a)) ∧
    -- SLEW_END of a timebase that does not slew
    (∀ (s : State) (n : Fin 18),
      (n.val = 17 ∨ (NMap.get s.hub.tb n).slewTicks = 0) → ∃ t,
        exec (.slewEnd n) s = .next t ∧ t.hub.tb = s.hub.tb ∧ t.hub.cyc = s.hub.cyc ∧
        (∀ a, a ≠ 0x30 → t.hub.reg a = s.hub.reg a)) ∧
    -- TRG_PULSE_END
    (∀ (s : State) (k : Fin 16),
      NMap.get s.hub.trg k ≠ 0 → ∃ t,
        exec (.trgPulseEnd k) s = .next t ∧ NMap.get t.hub.trg k = 0 ∧
        (s.hub.clk.gates = true → t.hub.cyc = max s.hub.cyc (NMap.get s.hub.trg k)) ∧
        (∀ a, a ≠ 0x30 → t.hub.reg a = s.hub.reg a)) ∧
    -- TRG_PULSE_END with no pulse
    (∀ (s : State) (k : Fin 16),
      NMap.get s.hub.trg k = 0 → ∃ t,
        exec (.trgPulseEnd k) s = .next t ∧ t.hub.trg = s.hub.trg ∧ t.hub.cyc = s.hub.cyc ∧
        (∀ a, a ≠ 0x30 → t.hub.reg a = s.hub.reg a)) ∧
    -- TACH_EDGE that qualifies
    (∀ (s : State) (i : Fin 8) (rising : Bool),
      s.hub.is fLdrStatusConfigured = true →
      (s.hub.cf 10 16 (2 * i) 0 2 = 3 ∨ s.hub.cf 10 16 (2 * i) 0 2 = 1 ∧ rising = true ∨ s.hub.cf 10 16 (2 * i) 0 2 = 2 ∧ rising = false) →
      ((NMap.get s.hub.tach i).any = false ∨ 16 * s.hub.cf 10 16 (2 * i) 2 16 ≤ s.hub.cyc - (NMap.get s.hub.tach i).lastCyc) →
      ∃ t,
        exec (.tachEdge i rising) s = .next t ∧ (NMap.get t.hub.tach i).any = true ∧
        (NMap.get t.hub.tach i).lastCyc = s.hub.cyc ∧
        (∀ k ∈ List.range 18, NMap.get (NMap.get t.hub.tach i).stamps k = Sys2Proof.Machine.report (s.hub.tbVal k)) ∧
        t.hub.rd (fTmTachCountQual i) = (s.hub.rd (fTmTachCountQual i) + 1) % 65536 ∧
        (t.hub.rd (fTmTachPeriodPeriod i) = if (NMap.get s.hub.tach i).any then satTo 32 (s.hub.cyc - (NMap.get s.hub.tach i).lastCyc) else s.hub.rd (fTmTachPeriodPeriod i))) ∧
    -- TACH_EDGE inside the hold-off: rejected
    (∀ (s : State) (i : Fin 8) (rising : Bool),
      s.hub.is fLdrStatusConfigured = true →
      (s.hub.cf 10 16 (2 * i) 0 2 = 3 ∨ s.hub.cf 10 16 (2 * i) 0 2 = 1 ∧ rising = true ∨ s.hub.cf 10 16 (2 * i) 0 2 = 2 ∧ rising = false) →
      (NMap.get s.hub.tach i).any = true →
      s.hub.cyc - (NMap.get s.hub.tach i).lastCyc < 16 * s.hub.cf 10 16 (2 * i) 2 16 → ∃ t,
        exec (.tachEdge i rising) s = .next t ∧
        t.hub.rd (fTmTachCountRej i) = satTo 16 (s.hub.rd (fTmTachCountRej i) + 1) ∧ t.hub.tach = s.hub.tach ∧
        t.hub.ev = s.hub.ev) ∧
    -- TACH_EDGE against the polarity, or before a structure is loaded
    (∀ (s : State) (i : Fin 8) (rising : Bool),
      (s.hub.is fLdrStatusConfigured = false ∨ s.hub.cf 10 16 (2 * i) 0 2 = 0 ∨ s.hub.cf 10 16 (2 * i) 0 2 = 1 ∧ rising = false ∨ s.hub.cf 10 16 (2 * i) 0 2 = 2 ∧ rising = true) →
      ∃ t,
        exec (.tachEdge i rising) s = .next t ∧ t.hub.tach = s.hub.tach ∧ t.hub.ev = s.hub.ev ∧
        (∀ a, a ≠ 0x30 → t.hub.reg a = s.hub.reg a)) ∧
    -- TACH_STAMP_READ
    (∀ (s : State) (i : Fin 8),
      s.hub.answers s.fixed s.met .tm (0x1C0A00 + 0x20 * i) = true → ∃ t,
        exec (.tachStampRead i) s = .next t ∧ t.hub.host.out = [(timeWords (s.hub.tachStamp i)).getD 0 0#32] ∧
        (NMap.get t.hub.tach i).latch = s.hub.tachStamp i ∧ (∀ a, a ≠ 0x30 → t.hub.reg a = s.hub.reg a))

/-- Triggers and the kitchen timer. A trigger enabled takes the first grid point above its timebase's value as its due
time, and when it is due it takes the next and fires its targets, a TRG target starting its pulse; disabled, or with a
period of 0, it does nothing. An action's words are held until its control word applies them together or is refused; an
action enabled whose due time lies ahead waits, one whose due time has passed fires late at once; an action that is due
sets its bit, fires its channel and, unless it is periodic, is disabled. (R313, R314, R315, R316, R319, R320, R321) -/
def Obligations.TriggersAndTimer : Prop :=
    -- TRIGGER_ENABLE_WRITE of 1
    (∀ (s : State) (g : Fin 32) (w : Word),
      s.hub.answers s.fixed s.met .tm (0x1C0800 + 0x10 * g) = true → bitOf w 0 = true → s.hub.tgPeriod g ≠ 0 →
      s.hub.is (fTmTgCtlEnable g) = false → ∃ t,
        exec (.triggerEnableWrite g w) s = .next t ∧ t.hub.is (fTmTgCtlEnable g) = true ∧
        (NMap.get t.hub.trig g).due = firstGrid (s.hub.tgPeriod g) (s.hub.tgPhase g) (s.hub.tbVal (s.hub.tgTb g)) ∧
        (∀ a, a ≠ 0x30 ∧ a ≠ rTmTgCtl g → t.hub.reg a = s.hub.reg a)) ∧
    -- TRIGGER_ENABLE_WRITE of 1 to an enabled trigger
    (∀ (s : State) (g : Fin 32) (w : Word),
      s.hub.answers s.fixed s.met .tm (0x1C0800 + 0x10 * g) = true → bitOf w 0 = true → s.hub.tgPeriod g ≠ 0 →
      s.hub.is (fTmTgCtlEnable g) = true → ∃ t,
        exec (.triggerEnableWrite g w) s = .next t ∧ t.hub.trig = s.hub.trig ∧
        (∀ a, a ≠ 0x30 → t.hub.reg a = s.hub.reg a)) ∧
    -- TRIGGER_ENABLE_WRITE of 0, and of 1 while the period is 0
    (∀ (s : State) (g : Fin 32) (w : Word),
      s.hub.answers s.fixed s.met .tm (0x1C0800 + 0x10 * g) = true → (bitOf w 0 = false ∨ s.hub.tgPeriod g = 0) → ∃ t,
        exec (.triggerEnableWrite g w) s = .next t ∧ t.hub.is (fTmTgCtlEnable g) = false ∧ t.hub.trig = s.hub.trig ∧
        (∀ a, a ≠ 0x30 ∧ a ≠ rTmTgCtl g → t.hub.reg a = s.hub.reg a)) ∧
    -- TRIGGER_DUE at a due time its timebase has reached, whatever the targets
    (∀ (s : State) (g : Fin 32),
      s.hub.tgOn g = true → (NMap.get s.hub.trig g).due * 2 ^ 32 ≤ s.hub.tbVal (s.hub.tgTb g) → ∃ t,
        exec (.triggerDue g) s = .next t ∧
        (∃ h1 : Hub, t.hub = latchIrq s.hub s.met (h1.fireTargets s.fixed g (((NMap.get s.hub.trig g).due - s.hub.tgPhase g) / s.hub.tgPeriod g)) s.met ∧ (NMap.get h1.trig g).due = firstGrid (s.hub.tgPeriod g) (s.hub.tgPhase g) (s.hub.tbVal (s.hub.tgTb g)) ∧ h1.rd (fTmTgStMissed g) = satTo 16 (s.hub.rd (fTmTgStMissed g) + gridAfter (s.hub.tgPeriod g) (NMap.get s.hub.trig g).due (s.hub.tbVal (s.hub.tgTb g))) ∧ h1.cyc = s.hub.cyc)) ∧
    -- TRIGGER_DUE at a due time its timebase has reached, no target
    (∀ (s : State) (g : Fin 32),
      s.hub.tgOn g = true → (NMap.get s.hub.trig g).due * 2 ^ 32 ≤ s.hub.tbVal (s.hub.tgTb g) →
      s.hub.cell 10 16 (0x25 + 6 * g) = 0#32 → ∃ t,
        exec (.triggerDue g) s = .next t ∧
        (NMap.get t.hub.trig g).due = firstGrid (s.hub.tgPeriod g) (s.hub.tgPhase g) (s.hub.tbVal (s.hub.tgTb g)) ∧
        t.hub.rd (fTmTgStMissed g) = satTo 16 (s.hub.rd (fTmTgStMissed g) + gridAfter (s.hub.tgPeriod g) (NMap.get s.hub.trig g).due (s.hub.tbVal (s.hub.tgTb g))) ∧
        t.hub.cyc = s.hub.cyc) ∧
    -- TRIGGER_DUE with the only target TRGk: its pulse
    (∀ (s : State) (g : Fin 32) (k : Fin 16),
      s.hub.tgOn g = true → (NMap.get s.hub.trig g).due * 2 ^ 32 ≤ s.hub.tbVal (s.hub.tgTb g) →
      s.hub.cell 10 16 (0x25 + 6 * g) = w32 (0x20 + k) → s.hub.cf 10 16 (0x010 + k) 17 1 = 1 → ∃ t,
        exec (.triggerDue g) s = .next t ∧ NMap.get t.hub.trg k = s.hub.cyc + s.hub.cf 10 16 (0x010 + k) 0 16 ∧
        (NMap.get t.hub.trig g).due = firstGrid (s.hub.tgPeriod g) (s.hub.tgPhase g) (s.hub.tbVal (s.hub.tgTb g))) ∧
    -- TRIGGER_DUE of a trigger that does not run
    (∀ (s : State) (g : Fin 32),
      s.hub.tgOn g = false → ∃ t,
        exec (.triggerDue g) s = .next t ∧ t.hub.trig = s.hub.trig ∧ t.hub.cyc = s.hub.cyc ∧
        (∀ a, a ≠ 0x30 → t.hub.reg a = s.hub.reg a)) ∧
    -- KT_HELD_WORD_WRITE: held, nothing shown
    (∀ (s : State) (a : Fin 256) (i : Fin 5) (w : Word),
      s.hub.answers s.fixed s.met .tm (0x1C1000 + 0x20 * a + 4 * i) = true → ∃ t,
        exec (.ktHeldWordWrite a i w) s = .next t ∧
        (NMap.getD (NMap.get t.hub.kt a).held i 0#32 = if i.val = 4 then w &&& 0xFFFF0000#32 else w) ∧
        (∀ b, b ≠ 0x30 → t.hub.reg b = s.hub.reg b)) ∧
    -- KT_CTL_WRITE that disables the action: the held words are applied
    (∀ (s : State) (a : Fin 256) (w : Word),
      s.hub.answers s.fixed s.met .tm (0x1C1014 + 0x20 * a) = true → bitOf w 31 = false →
      (bitOf w 30 = false ∨ 20 * 65536 ≤ ((NMap.getD (NMap.get s.hub.kt a).held 3 (s.hub.reg (rTmKtPer0 a))).toNat * 65536 + fieldOf (NMap.getD (NMap.get s.hub.kt a).held 4 (s.hub.reg (0x1C1010 + 0x20 * a))) 16 16)) →
      (fieldOf w 24 5 < 17 ∨ fieldOf w 24 5 = 17 ∧ s.fixed.variant.hasMet = true) → ∃ t,
        exec (.ktCtlWrite a w) s = .next t ∧ (NMap.get t.hub.kt a).held = [] ∧
        t.hub.reg (rTmKtCtl a) = w &&& 0xFF00007F#32 ∧
        (List.range 5).map (fun i => t.hub.reg (0x1C1000 + 0x20 * a.val + 4 * i)) = (List.range 5).map (fun i => NMap.getD (NMap.get s.hub.kt a).held i (s.hub.reg (0x1C1000 + 0x20 * a.val + 4 * i))) ∧
        t.hub.ev = s.hub.ev) ∧
    -- KT_CTL_WRITE that enables an action without held words whose due time lies ahead
    (∀ (s : State) (a : Fin 256) (w : Word),
      s.hub.answers s.fixed s.met .tm (0x1C1014 + 0x20 * a) = true →
      (bitOf w 30 = false ∨ 20 * 65536 ≤ ((NMap.getD (NMap.get s.hub.kt a).held 3 (s.hub.reg (rTmKtPer0 a))).toNat * 65536 + fieldOf (NMap.getD (NMap.get s.hub.kt a).held 4 (s.hub.reg (0x1C1010 + 0x20 * a))) 16 16)) →
      (fieldOf w 24 5 < 17 ∨ fieldOf w 24 5 = 17 ∧ s.fixed.variant.hasMet = true) → (NMap.get s.hub.kt a).held = [] →
      (s.hub.tickN 1).tbVal (fieldOf w 24 5) < s.hub.ktDue a * 2 ^ 32 →
      (s.hub.tickN 2).tbVal (fieldOf w 24 5) < s.hub.ktDue a * 2 ^ 32 → ∃ t,
        exec (.ktCtlWrite a w) s = .next t ∧ t.hub.reg (rTmKtCtl a) = w &&& 0xFF00007F#32 ∧
        t.hub.ktDue a = s.hub.ktDue a ∧ t.hub.ev = s.hub.ev) ∧
    -- KT_CTL_WRITE that enables an action without held words, to fire once, whose due time has passed: it fires late
    (∀ (s : State) (a : Fin 256) (w : Word),
      s.hub.answers s.fixed s.met .tm (0x1C1014 + 0x20 * a) = true → s.hub.is fLdrStatusConfigured = true →
      bitOf w 31 = true → bitOf w 30 = false →
      (fieldOf w 24 5 < 17 ∨ fieldOf w 24 5 = 17 ∧ s.fixed.variant.hasMet = true) → (NMap.get s.hub.kt a).held = [] →
      s.hub.ktDue a * 2 ^ 32 ≤ (s.hub.tickN 1).tbVal (fieldOf w 24 5) → ∃ t,
        exec (.ktCtlWrite a w) s = .next t ∧ t.hub.is (fTmKtCtlEnable a) = false ∧
        (t.hub.reg (rTmKtFired (a / 32))).getLsbD (a % 32) = true ∧ t.hub.is (fTmKtStLate a) = true ∧
        t.hub.is fTmStatusKtLate = true) ∧
    -- KT_CTL_WRITE of a periodic action with a period below 20 ns, or of a timebase that does not exist: refused
    (∀ (s : State) (a : Fin 256) (w : Word),
      s.hub.answers s.fixed s.met .tm (0x1C1014 + 0x20 * a) = true →
      ((bitOf w 30 = true ∧ ((NMap.getD (NMap.get s.hub.kt a).held 3 (s.hub.reg (rTmKtPer0 a))).toNat * 65536 + fieldOf (NMap.getD (NMap.get s.hub.kt a).held 4 (s.hub.reg (0x1C1010 + 0x20 * a))) 16 16) < 20 * 65536) ∨ 18 ≤ fieldOf w 24 5 ∨ (fieldOf w 24 5 = 17 ∧ s.fixed.variant.hasMet = false)) →
      ∃ t,
        exec (.ktCtlWrite a w) s = .next t ∧ t.hub.is (fTmKtStRefused a) = true ∧ t.hub.is fTmStatusKtRefused = true ∧
        t.hub.kt = s.hub.kt ∧ t.hub.reg (rTmKtCtl a) = s.hub.reg (rTmKtCtl a)) ∧
    -- KT_ACTION_DUE at a due time its timebase has reached
    (∀ (s : State) (a : Fin 256),
      s.hub.ktOn a = true → s.hub.ktDue a * 2 ^ 32 ≤ s.hub.tbVal (s.hub.ktTb a) → ∃ t,
        exec (.ktActionDue a) s = .next t ∧ t.hub.is (fTmKtCtlEnable a) = s.hub.is (fTmKtCtlPeriodic a) ∧
        (t.hub.reg (rTmKtFired (a / 32))).getLsbD (a % 32) = true ∧
        (s.hub.is (fTmKtCtlPeriodic a) = true → t.hub.rd (fTmKtStMissed a) = satTo 16 (s.hub.rd (fTmKtStMissed a) + gridAfter (s.hub.ktPeriod a) (s.hub.ktDue a) (s.hub.tbVal (s.hub.ktTb a)))) ∧
        (s.hub.chanEnabled (s.hub.rd (fTmKtCtlChan a)) = true → s.hub.is (fEvCStMuted (s.hub.rd (fTmKtCtlChan a))) = false → (s.hub.chan (s.hub.rd (fTmKtCtlChan a))).live ≤ s.hub.cyc → (t.hub.chan (s.hub.rd (fTmKtCtlChan a))).presented = (s.hub.chan (s.hub.rd (fTmKtCtlChan a))).presented ++ [s.hub.cyc])) ∧
    -- KT_ACTION_DUE of an action that is not enabled
    (∀ (s : State) (a : Fin 256),
      s.hub.ktOn a = false → ∃ t,
        exec (.ktActionDue a) s = .next t ∧ t.hub.ev = s.hub.ev ∧ t.hub.cyc = s.hub.cyc ∧
        (∀ b, b ≠ 0x30 → t.hub.reg b = s.hub.reg b))

/-- The states of a cascade port. A DOWN port that finds a signal trains; a legal pairing within 60 µs is UP with fresh
sequences and credits, another is refused, and a port that does not train takes no training; a port that loses its link
holds its frames, returns to the partner it had with every unacknowledged frame to be sent again and to no other, and
goes DOWN when the hold expires, keeping only ALARM frames; a port in TRAIN or REFUSED whose partner disconnects is
DOWN. In any other state these events change nothing. (R331, R332, R342, R346, R356, R357, R442) -/
def Obligations.LinkStates : Prop :=
    -- LINK_SIGNAL_FOUND at a DOWN port whose link is enabled
    (∀ (s : State) (p : Fin 3),
      s.hub.rd (fCasPStatusState p) = 0 → s.hub.linkOn s.fixed p = true →
      s.hub.flt.recs.find? (fun r => r.scope == 5 && r.unit == p.val) = none → ∃ t,
        exec (.linkSignalFound p) s = .next t ∧ t.hub.rd (fCasPStatusState p) = 1 ∧ t.hub.link = s.hub.link ∧
        (∀ a, a ≠ 0x30 ∧ a ≠ rCasPStatus p ∧ (a < 0x1F8000 ∨ 0x1F9000 ≤ a) → t.hub.reg a = s.hub.reg a)) ∧
    -- LINK_SIGNAL_FOUND at a port that is not DOWN, or whose link is off
    (∀ (s : State) (p : Fin 3),
      (s.hub.rd (fCasPStatusState p) ≠ 0 ∨ s.hub.linkOn s.fixed p = false) → ∃ t,
        exec (.linkSignalFound p) s = .next t ∧ t.hub.link = s.hub.link ∧ t.hub.cas = s.hub.cas ∧
        (∀ a, a ≠ 0x30 → t.hub.reg a = s.hub.reg a)) ∧
    -- LINK_TRAINED with a legal pairing
    (∀ (s : State) (p role : Fin 3) (cmstr same : Bool) (device : BitVec 9) (delay : BitVec 32),
      s.hub.rd (fCasPStatusState p) = 1 → s.hub.linkOn s.fixed p = true → ¬((p.val = 0) = (role.val = 0)) →
      delay.toNat ≤ 15360000 → ∃ t,
        exec (.linkTrained p role cmstr same device delay) s = .next t ∧ t.hub.linkUp p = true ∧
        t.hub.is (fCasPStatusUp p) = true ∧ t.hub.rd (fCasPStatusPartner p) = role.val + 1 ∧
        t.hub.rd (fCasPDelayDelay p) = delay.toNat ∧ (t.hub.lk p).seqTx = [] ∧ (t.hub.lk p).seqRx = [] ∧
        (t.hub.lk p).retry = [] ∧ (t.hub.lk p).used = [] ∧ t.hub.cells = s.hub.cells) ∧
    -- LINK_TRAINED refused: a wrong pairing, or a delay over 60 µs
    (∀ (s : State) (p role : Fin 3) (cmstr same : Bool) (device : BitVec 9) (delay : BitVec 32),
      s.hub.rd (fCasPStatusState p) = 1 → s.hub.linkOn s.fixed p = true →
      (((p.val = 0) = (role.val = 0)) ∨ 15360000 < delay.toNat) → ∃ t,
        exec (.linkTrained p role cmstr same device delay) s = .next t ∧ t.hub.rd (fCasPStatusState p) = 4 ∧
        (((p.val = 0) = (role.val = 0)) → t.hub.is (fCasPStatusWiring p) = true) ∧
        (¬((p.val = 0) = (role.val = 0)) → t.hub.is (fCasPStatusTooLong p) = true) ∧ t.hub.link = s.hub.link ∧
        t.met = s.met) ∧
    -- LINK_TRAINED at a port that does not train
    (∀ (s : State) (p role : Fin 3) (cmstr same : Bool) (device : BitVec 9) (delay : BitVec 32),
      (s.hub.rd (fCasPStatusState p) ≠ 1 ∨ s.hub.linkOn s.fixed p = false) → ∃ t,
        exec (.linkTrained p role cmstr same device delay) s = .next t ∧ t.hub.link = s.hub.link ∧
        t.hub.cas = s.hub.cas ∧ t.met = s.met ∧ (∀ a, a ≠ 0x30 → t.hub.reg a = s.hub.reg a)) ∧
    -- LINK_LOSS of a port that is UP
    (∀ (s : State) (p : Fin 3),
      s.hub.linkUp p = true → ∃ t,
        exec (.linkLoss p) s = .next t ∧ t.hub.rd (fCasPStatusState p) = 3 ∧ t.hub.is (fCasPStatusLost p) = true ∧
        (t.hub.lk p).retry = (s.hub.lk p).retry ∧ (p.val = 0 → t.hub.is fCasStatusLock = false) ∧
        (p.val = 0 → s.hub.is fCasStatusLock = true → t.hub.is fCasStatusLockLost = true) ∧
        (s.hub.enumRuns = true → t.hub.rd fCasEnumState = 3 ∧ t.hub.rd fCasEnumCode = 5 ∧ t.hub.is fGlbStatusEnumOk = false) ∧
        (∀ d, s.hub.cas.rqDev = some d → s.hub.route s.fixed d = some p.val → t.hub.rd fCasRqCtlResult = 4 ∧ t.hub.is fCasRqCtlBusy = false) ∧
        t.met = s.met) ∧
    -- LINK_LOSS of a port that is not UP
    (∀ (s : State) (p : Fin 3),
      s.hub.linkUp p = false → ∃ t,
        exec (.linkLoss p) s = .next t ∧ t.hub.link = s.hub.link ∧ t.hub.cas = s.hub.cas ∧
        (∀ a, a ≠ 0x30 → t.hub.reg a = s.hub.reg a)) ∧
    -- LINK_RETURN of the same partner
    (∀ (s : State) (p role : Fin 3) (device : BitVec 9),
      s.hub.rd (fCasPStatusState p) = 3 → s.hub.rd (fCasPStatusPartner p) = role.val + 1 →
      (p.val = 0 ∨ (s.hub.lk p).dev = device.toNat) → ∃ t,
        exec (.linkReturn p role device) s = .next t ∧ t.hub.linkUp p = true ∧ t.hub.is (fCasPStatusUp p) = true ∧
        (t.hub.lk p).retry = (s.hub.lk p).retry ∧
        (∀ c : Fin 3, NMap.get (t.hub.lk p).again (c + 1) = (NMap.get (s.hub.lk p).retry (c + 1)).length)) ∧
    -- LINK_RETURN at a port not in HOLD, or of another partner: not taken
    (∀ (s : State) (p role : Fin 3) (device : BitVec 9),
      (s.hub.rd (fCasPStatusState p) ≠ 3 ∨ s.hub.rd (fCasPStatusPartner p) ≠ role.val + 1 ∨ p.val ≠ 0 ∧ (s.hub.lk p).dev ≠ device.toNat) →
      ∃ t,
        exec (.linkReturn p role device) s = .next t ∧ t.hub.link = s.hub.link ∧ t.hub.cas = s.hub.cas ∧
        (∀ a, a ≠ 0x30 → t.hub.reg a = s.hub.reg a)) ∧
    -- HOLD_EXPIRE
    (∀ (s : State) (p : Fin 3),
      s.hub.rd (fCasPStatusState p) = 3 → ∃ t,
        exec (.holdExpire p) s = .next t ∧ t.hub.rd (fCasPStatusState p) = 0 ∧ t.hub.rd (fCasPStatusPartner p) = 0 ∧
        t.hub.is (fCasPStatusExpired p) = true ∧ (t.hub.lk p).retry = [] ∧
        (t.hub.lk p).txq = NMap.get (s.hub.lk p).retry 2 ++ (s.hub.lk p).txq.filter (fun x => x.cls == 2) ∧
        (p.val ≠ 0 → t.hub.rd (fCasPCountLost p) = satTo 8 (s.hub.rd (fCasPCountLost p) + ((NMap.get (s.hub.lk p).retry 1).length + (NMap.get (s.hub.lk p).retry 3).length)))) ∧
    -- PARTNER_DISCONNECTED from a port in TRAIN or REFUSED
    (∀ (s : State) (p : Fin 3),
      (s.hub.rd (fCasPStatusState p) = 1 ∨ s.hub.rd (fCasPStatusState p) = 4) → ∃ t,
        exec (.partnerDisconnected p) s = .next t ∧ t.hub.rd (fCasPStatusState p) = 0 ∧
        t.hub.rd (fCasPStatusPartner p) = 0 ∧ t.hub.link = s.hub.link ∧ t.met = s.met) ∧
    -- HOLD_EXPIRE of a port not in HOLD
    (∀ (s : State) (p : Fin 3),
      s.hub.rd (fCasPStatusState p) ≠ 3 → ∃ t,
        exec (.holdExpire p) s = .next t ∧ t.hub.link = s.hub.link ∧ t.hub.cas = s.hub.cas ∧
        (∀ a, a ≠ 0x30 → t.hub.reg a = s.hub.reg a)) ∧
    -- PARTNER_DISCONNECTED from any other port
    (∀ (s : State) (p : Fin 3),
      s.hub.rd (fCasPStatusState p) ≠ 1 → s.hub.rd (fCasPStatusState p) ≠ 4 → ∃ t,
        exec (.partnerDisconnected p) s = .next t ∧ t.hub.link = s.hub.link ∧ t.hub.cas = s.hub.cas ∧
        (∀ a, a ≠ 0x30 → t.hub.reg a = s.hub.reg a))

/-- Credits, acknowledgements, retransmission and the order of frames. Credits are the partner's cumulative count; an
ACK drops frames from the retry store; a NAK drops those before the named one and sends the rest again, and a timeout
sends all again, at the eighth time the link leaves UP; at a port that is not UP none of them is anything. A transmitted
frame takes its credits and, but for TIME, its sequence and a place in the retry store, TIME before ALARM before the
others, a frame to be sent again before a new one of its class; without credits or frames nothing goes. An idle queue
closes its frame; a receiving bridge's sample whose time has come leaves. (R336, R338, R339, R340, R341, R350, R353) -/
def Obligations.LinkTraffic : Prop :=
    -- CREDIT
    (∀ (s : State) (p : Fin 3) (cls : Fin 4) (n : BitVec 14),
      s.hub.linkUp p = true → ∃ t,
        exec (.credit p cls n) s = .next t ∧ NMap.get (t.hub.lk p).got cls = n.toNat ∧
        (t.hub.lk p).used = (s.hub.lk p).used ∧ (t.hub.lk p).retry = (s.hub.lk p).retry) ∧
    -- CREDIT, ACK, NAK, RETRANSMIT_TIMEOUT and FRAME_TRANSMIT at a port that is not UP
    (∀ (s : State) (p : Fin 3) (cls : Fin 4) (n : BitVec 14) (seq : BitVec 12),
      s.hub.linkUp p = false → ∃ t,
        exec (.credit p cls n) s = .next t ∧ exec (.ack p cls seq) s = .next t ∧ exec (.nak p cls seq) s = .next t ∧
        exec (.retransmitTimeout p cls) s = .next t ∧ exec (.frameTransmit p) s = .next t ∧ t.hub.link = s.hub.link ∧
        t.hub.cas = s.hub.cas ∧ (∀ a, a ≠ 0x30 → t.hub.reg a = s.hub.reg a)) ∧
    -- ACK
    (∀ (s : State) (p : Fin 3) (cls : Fin 4) (seq : BitVec 12),
      s.hub.linkUp p = true → ∃ t,
        exec (.ack p cls seq) s = .next t ∧
        NMap.get (t.hub.lk p).retry cls = (NMap.get (s.hub.lk p).retry cls).drop (ackCount (NMap.get (s.hub.lk p).retry cls) seq.toNat) ∧
        (t.hub.lk p).txq = (s.hub.lk p).txq ∧ (∀ a, a ≠ 0x30 → t.hub.reg a = s.hub.reg a)) ∧
    -- NAK of a frame in the retry store that was not yet sent eight times
    (∀ (s : State) (p : Fin 3) (cls : Fin 4) (seq : BitVec 12) (k : Nat),
      s.hub.linkUp p = true → (NMap.get (s.hub.lk p).retry cls).findIdx? (fun x => x.f.seq == seq) = some k →
      (k ≠ 0 ∨ NMap.get (s.hub.lk p).resent cls + 1 < 8) → ∃ t,
        exec (.nak p cls seq) s = .next t ∧
        NMap.get (t.hub.lk p).retry cls = (NMap.get (s.hub.lk p).retry cls).drop k ∧
        NMap.get (t.hub.lk p).again cls = (NMap.get (s.hub.lk p).retry cls).length - k ∧
        NMap.get (t.hub.lk p).resent cls = (if k = 0 then NMap.get (s.hub.lk p).resent cls else 0) + 1 ∧
        t.hub.rd (fCasPCountNak p) = satTo 8 (s.hub.rd (fCasPCountNak p) + 1) ∧ t.hub.linkUp p = true) ∧
    -- RETRANSMIT_TIMEOUT, fewer than eight times
    (∀ (s : State) (p : Fin 3) (cls : Fin 4),
      s.hub.linkUp p = true → NMap.get (s.hub.lk p).retry cls ≠ [] → NMap.get (s.hub.lk p).resent cls + 1 < 8 → ∃ t,
        exec (.retransmitTimeout p cls) s = .next t ∧
        NMap.get (t.hub.lk p).again cls = (NMap.get (s.hub.lk p).retry cls).length ∧
        NMap.get (t.hub.lk p).resent cls = NMap.get (s.hub.lk p).resent cls + 1 ∧
        t.hub.rd (fCasPCountTimeout p) = satTo 8 (s.hub.rd (fCasPCountTimeout p) + 1) ∧ t.hub.linkUp p = true) ∧
    -- RETRANSMIT_TIMEOUT, the eighth time: the link leaves UP
    (∀ (s : State) (p : Fin 3) (cls : Fin 4),
      s.hub.linkUp p = true → NMap.get (s.hub.lk p).retry cls ≠ [] → 7 ≤ NMap.get (s.hub.lk p).resent cls → ∃ t,
        exec (.retransmitTimeout p cls) s = .next t ∧ t.hub.is (fCasPStatusRetryLim p) = true ∧
        t.hub.rd (fCasPStatusState p) = 3 ∧
        t.hub.rd (fCasPCountTimeout p) = satTo 8 (s.hub.rd (fCasPCountTimeout p) + 1)) ∧
    -- RETRANSMIT_TIMEOUT with no frame unacknowledged
    (∀ (s : State) (p : Fin 3) (cls : Fin 4),
      NMap.get (s.hub.lk p).retry cls = [] → ∃ t,
        exec (.retransmitTimeout p cls) s = .next t ∧ t.hub.link = s.hub.link ∧ t.hub.cas = s.hub.cas ∧
        (∀ a, a ≠ 0x30 → t.hub.reg a = s.hub.reg a)) ∧
    -- FRAME_TRANSMIT with a TIME frame waiting: it goes first, without sequence or retry
    (∀ (s : State) (p : Fin 3) (x : TxItem),
      s.hub.linkUp p = true → NMap.get (s.hub.lk p).again 0 = 0 → (NMap.get (s.hub.lk p).retry 0).length < 2047 →
      (s.hub.lk p).txq.find? (fun i => i.cls == 0) = some x → frameCost x.f.words.length ≤ (s.hub.lk p).avail 0 → ∃ t,
        exec (.frameTransmit p) s = .next t ∧
        NMap.get (t.hub.lk p).used 0 = (NMap.get (s.hub.lk p).used 0 + frameCost x.f.words.length) % 16384 ∧
        (t.hub.lk p).retry = (s.hub.lk p).retry ∧ (t.hub.lk p).seqTx = (s.hub.lk p).seqTx) ∧
    -- FRAME_TRANSMIT with an ALARM frame and no TIME frame waiting: it takes the next sequence and stays in the retry store
    (∀ (s : State) (p : Fin 3) (x : TxItem),
      s.hub.linkUp p = true → NMap.get (s.hub.lk p).again 0 = 0 → (s.hub.lk p).txq.all (fun i => i.cls != 0) = true →
      NMap.get (s.hub.lk p).again 2 = 0 → (NMap.get (s.hub.lk p).retry 2).length < 2047 →
      (s.hub.lk p).txq.find? (fun i => i.cls == 2) = some x → frameCost x.f.words.length ≤ (s.hub.lk p).avail 2 → ∃ t,
        exec (.frameTransmit p) s = .next t ∧
        NMap.get (t.hub.lk p).retry 2 = NMap.get (s.hub.lk p).retry 2 ++ [{ x with f := { x.f with seq := BitVec.ofNat 12 (NMap.get (s.hub.lk p).seqTx 2) } }] ∧
        NMap.get (t.hub.lk p).seqTx 2 = (NMap.get (s.hub.lk p).seqTx 2 + 1) % 4096 ∧
        NMap.get (t.hub.lk p).used 2 = (NMap.get (s.hub.lk p).used 2 + frameCost x.f.words.length) % 16384) ∧
    -- FRAME_TRANSMIT with ALARM frames to be sent again and no TIME frame waiting: the oldest of them goes, as it was
    (∀ (s : State) (p : Fin 3) (k : Nat) (x : TxItem),
      s.hub.linkUp p = true → NMap.get (s.hub.lk p).again 0 = 0 → (s.hub.lk p).txq.all (fun i => i.cls != 0) = true →
      NMap.get (s.hub.lk p).again 2 = k + 1 →
      (NMap.get (s.hub.lk p).retry 2)[(NMap.get (s.hub.lk p).retry 2).length - (k + 1)]? = some x →
      frameCost x.f.words.length ≤ (s.hub.lk p).avail 2 → ∃ t,
        exec (.frameTransmit p) s = .next t ∧ NMap.get (t.hub.lk p).again 2 = k ∧
        (t.hub.lk p).retry = (s.hub.lk p).retry ∧
        NMap.get (t.hub.lk p).used 2 = (NMap.get (s.hub.lk p).used 2 + frameCost x.f.words.length) % 16384 ∧
        (t.hub.lk p).line = x.bytes) ∧
    -- FRAME_TRANSMIT with only DATA frames waiting below, no bridge and no bit stream window: the next in turn goes
    (∀ (s : State) (p : Fin 3) (x : TxItem),
      p.val ≠ 0 → s.hub.linkUp p = true → s.hub.cas.bs.length < 66 → (∀ b ∈ List.range 32, s.hub.bgSends b = false) →
      (∀ c ∈ List.range 4, NMap.get (s.hub.lk p).again c = 0) → (s.hub.lk p).txq.all (fun i => i.cls == 3) = true →
      (NMap.get (s.hub.lk p).retry 3).length < 2047 → (s.hub.lk p).pick 3 = some x →
      frameCost x.f.words.length ≤ (s.hub.lk p).avail 3 → ∃ t,
        exec (.frameTransmit p) s = .next t ∧
        NMap.get (t.hub.lk p).retry 3 = NMap.get (s.hub.lk p).retry 3 ++ [{ x with f := { x.f with seq := BitVec.ofNat 12 (NMap.get (s.hub.lk p).seqTx 3) } }] ∧
        NMap.get (t.hub.lk p).seqTx 3 = (NMap.get (s.hub.lk p).seqTx 3 + 1) % 4096 ∧
        NMap.get (t.hub.lk p).used 3 = (NMap.get (s.hub.lk p).used 3 + frameCost x.f.words.length) % 16384 ∧
        (t.hub.lk p).rr = x.src) ∧
    -- DATA_FRAME_IDLE_CLOSE of a frame being gathered
    (∀ (s : State) (q : Nat) (w : QWord) (ws : List QWord),
      (s.hub.lk 0).gather = some (q, w :: ws) → ∃ t,
        exec .dataFrameIdleClose s = .next t ∧ (t.hub.lk 0).gather = none ∧
        (t.hub.lk 0).txq = (s.hub.lk 0).txq ++ [s.hub.gatherFrame q (w :: ws)] ∧
        (∀ a, a ≠ 0x30 → t.hub.reg a = s.hub.reg a)) ∧
    -- DATA_FRAME_IDLE_CLOSE with none
    (∀ (s : State),
      (s.hub.lk 0).gather = none → ∃ t,
        exec .dataFrameIdleClose s = .next t ∧ t.hub.link = s.hub.link ∧ t.hub.cas = s.hub.cas ∧
        (∀ a, a ≠ 0x30 → t.hub.reg a = s.hub.reg a)) ∧
    -- BRIDGE_SAMPLE_RELEASE of a receiving bridge at a time tb_net has reached
    (∀ (s : State) (b : Fin 32) (d : Nat) (ds : List Nat) (x : Samp) (xs : List Samp),
      s.hub.bgCell b 0 1 1 = 1 → (s.hub.bg b).fifo = x :: xs → (s.hub.bg b).due = d :: ds →
      d * 2 ^ 32 ≤ s.hub.tbVal 16 → ∃ t,
        exec (.bridgeSampleRelease b) s = .next t ∧ (t.hub.bg b).fifo = xs ∧ (t.hub.bg b).due = ds ∧
        (x.has tGap = true → t.hub.is fCasStatusBrGap = true) ∧ t.hub.cyc = s.hub.cyc) ∧
    -- BRIDGE_SAMPLE_RELEASE of a sending bridge, or with no sample
    (∀ (s : State) (b : Fin 32),
      (s.hub.bgCell b 0 1 1 = 0 ∨ (s.hub.bg b).due = []) → ∃ t,
        exec (.bridgeSampleRelease b) s = .next t ∧ t.hub.link = s.hub.link ∧ t.hub.cas = s.hub.cas ∧
        t.hub.cyc = s.hub.cyc ∧ (∀ a, a ≠ 0x30 → t.hub.reg a = s.hub.reg a))

/-- Frames received and passed on. A frame with a good CRC and the expected sequence is accepted and acknowledged; one
for another hub waits at the port of its route, an ALARM frame even while that link is not UP; a DATA frame for this hub
and an ALARM frame on the master wait to be landed, which settle does as far as their queues take them; a bridge's
samples enter its store; one without a route is counted as unroutable and its credits are released; a frame with a bad
CRC is counted and asked for again, and one out of sequence asked for again; at a port that is not UP a frame is
nothing. (R336, R337, R338, R340, R345, R350, R351, R352) -/
def Obligations.FramesReceived : Prop :=
    -- DATA_FRAME_RECEIVE for a hub beyond a port that is UP
    (∀ (s : State) (p : Fin 3) (f : CasFrame) (q : Fin 3),
      s.hub.rxGood p 3 f → s.hub.route s.fixed f.dst.toNat = some q.val → s.hub.linkUp q = true → ∃ t,
        exec (.dataFrameReceive p f) s = .next t ∧
        (t.hub.lk q).txq = (s.hub.lk q).txq ++ [{ src := p, cls := 3, bridge := false, f := f }] ∧
        NMap.get (t.hub.lk p).seqRx 3 = (f.seq.toNat + 1) % 4096 ∧ NMap.get (t.hub.lk p).acked 3 = f.seq.toNat + 1 ∧
        (∀ a, a ≠ 0x30 → t.hub.reg a = s.hub.reg a)) ∧
    -- DATA_FRAME_RECEIVE for this hub: accepted, and landed as far as its queue takes it
    (∀ (s : State) (p : Fin 3) (f : CasFrame),
      s.hub.rxGood p 3 f → s.hub.route s.fixed f.dst.toNat = some 3 → ∃ t,
        exec (.dataFrameReceive p f) s = .next t ∧ NMap.get (t.hub.lk p).seqRx 3 = (f.seq.toNat + 1) % 4096 ∧
        t.hub.cells = s.hub.cells ∧
        t.hub = latchIrq s.hub s.met (((s.hub.rxCheck p 3 f).2.modLk p (fun x => { x with rx := x.rx ++ [{ src := p, cls := 3, bridge := false, f := f }] })).settle s.fixed) s.met) ∧
    -- DATA_FRAME_RECEIVE without a route: counted and discarded, its credits released
    (∀ (s : State) (p : Fin 3) (f : CasFrame),
      s.hub.rxGood p 3 f → s.hub.route s.fixed f.dst.toNat = none → ∃ t,
        exec (.dataFrameReceive p f) s = .next t ∧ t.hub.is (fCasPStatusUnroutable p) = true ∧
        t.hub.rd (fCasPCount2Unroutable p) = satTo 16 (s.hub.rd (fCasPCount2Unroutable p) + 1) ∧
        NMap.get (t.hub.lk p).released 3 = (NMap.get (s.hub.lk p).released 3 + frameCost f.words.length) % 16384 ∧
        (t.hub.lk p).txq = (s.hub.lk p).txq) ∧
    -- DATA_FRAME_RECEIVE with a bad CRC: counted, and asked for again
    (∀ (s : State) (p : Fin 3) (f : CasFrame),
      s.hub.linkUp p = true → f.crcOk = false → ∃ t,
        exec (.dataFrameReceive p f) s = .next t ∧ t.hub.is (fCasPStatusCrc p) = true ∧
        t.hub.rd (fCasPCountCrc p) = satTo 8 (s.hub.rd (fCasPCountCrc p) + 1) ∧ NMap.get (t.hub.lk p).nak 3 = true ∧
        (t.hub.lk p).seqRx = (s.hub.lk p).seqRx) ∧
    -- ALARM_FRAME_RECEIVE off the master: it waits at its route's port, UP or not
    (∀ (s : State) (p : Fin 3) (f : CasFrame) (q : Fin 3),
      s.hub.rxGood p 2 f → s.hub.isMaster s.fixed = false → s.hub.route s.fixed f.dst.toNat = some q.val → ∃ t,
        exec (.alarmFrameReceive p f) s = .next t ∧
        (t.hub.lk q).txq = (s.hub.lk q).txq ++ [{ src := p, cls := 2, bridge := false, f := f }] ∧
        NMap.get (t.hub.lk p).seqRx 2 = (f.seq.toNat + 1) % 4096 ∧ (∀ a, a ≠ 0x30 → t.hub.reg a = s.hub.reg a)) ∧
    -- ALARM_FRAME_RECEIVE on the master
    (∀ (s : State) (p : Fin 3) (f : CasFrame),
      s.hub.rxGood p 2 f → s.hub.isMaster s.fixed = true → ∃ t,
        exec (.alarmFrameReceive p f) s = .next t ∧
        t.hub = latchIrq s.hub s.met (((s.hub.rxCheck p 2 f).2.modLk p (fun x => { x with rx := x.rx ++ [{ src := p, cls := 2, bridge := false, f := f }] })).settle s.fixed) s.met ∧
        NMap.get (t.hub.lk p).seqRx 2 = (f.seq.toNat + 1) % 4096 ∧ t.hub.cells = s.hub.cells) ∧
    -- BRIDGE_FRAME_RECEIVE for a hub beyond a port that is UP
    (∀ (s : State) (p : Fin 3) (f : CasFrame) (q : Fin 3),
      s.hub.rxGood p 3 f → s.hub.route s.fixed f.dst.toNat = some q.val → s.hub.linkUp q = true → ∃ t,
        exec (.bridgeFrameReceive p f) s = .next t ∧
        (t.hub.lk q).txq = (s.hub.lk q).txq ++ [{ src := p, cls := 3, bridge := true, f := f }] ∧
        NMap.get (t.hub.lk p).seqRx 3 = (f.seq.toNat + 1) % 4096 ∧ (∀ a, a ≠ 0x30 → t.hub.reg a = s.hub.reg a)) ∧
    -- BRIDGE_FRAME_RECEIVE for this hub
    (∀ (s : State) (p : Fin 3) (f : CasFrame),
      s.hub.rxGood p 3 f → s.hub.route s.fixed f.dst.toNat = some 3 → f.sub.toNat < 32 → ∃ t,
        exec (.bridgeFrameReceive p f) s = .next t ∧
        t.hub.rd (fCasBgFramesFrames f.sub.toNat) = (s.hub.rd (fCasBgFramesFrames f.sub.toNat) + 1) % 2 ^ 32 ∧
        NMap.get (t.hub.lk p).seqRx 3 = (f.seq.toNat + 1) % 4096 ∧
        NMap.get (t.hub.lk p).released 3 = (NMap.get (s.hub.lk p).released 3 + frameCost f.words.length) % 16384) ∧
    -- UNKNOWN_CTRL_FRAME: acknowledged, discarded and counted
    (∀ (s : State) (p : Fin 3) (f : CasFrame),
      s.hub.rxGood p 1 f → ∃ t,
        exec (.unknownCtrlFrame p f) s = .next t ∧
        t.hub.rd (fCasPCount2Unroutable p) = satTo 16 (s.hub.rd (fCasPCount2Unroutable p) + 1) ∧
        NMap.get (t.hub.lk p).acked 1 = f.seq.toNat + 1 ∧ t.met = s.met ∧
        (∀ a, a ≠ 0x30 ∧ a ≠ rCasPCount2 p → t.hub.reg a = s.hub.reg a)) ∧
    -- BRIDGE_FRAME_RECEIVE of one sample for this hub, its bridge receiving, its store with room, its time ahead
    (∀ (s : State) (p : Fin 3) (f : CasFrame),
      s.hub.rxGood p 3 f → s.hub.route s.fixed f.dst.toNat = some 3 → f.words.length = 15 → f.sub.toNat < 32 →
      s.hub.bgTakes f.sub.toNat = true → (s.hub.bg f.sub.toNat).fifo.length < 512 →
      s.hub.tbVal 16 - s.hub.tbAdd 16 * 65536 < ((markTime ((framePay f).take 7) + s.hub.bgCell f.sub.toNat 2 0 32 * 65536 : Nat) : Int) * 2 ^ 32 →
      ∃ t,
        exec (.bridgeFrameReceive p f) s = .next t ∧
        (t.hub.bg f.sub.toNat).fifo = (s.hub.bg f.sub.toNat).fifo ++ [Samp.addIf { val := (recWord (framePay f) 7).extractLsb' 0 24, tag := (recWord (framePay f) 7).extractLsb' 24 8, time := markTime ((framePay f).take 7) } (s.hub.bg f.sub.toNat).gap tGap] ∧
        (t.hub.bg f.sub.toNat).due = (s.hub.bg f.sub.toNat).due ++ [markTime ((framePay f).take 7) + s.hub.bgCell f.sub.toNat 2 0 32 * 65536] ∧
        (t.hub.bg f.sub.toNat).src = f.src.toNat + 1) ∧
    -- ALARM_FRAME_RECEIVE and BRIDGE_FRAME_RECEIVE with a bad CRC: counted, and asked for again
    (∀ (s : State) (p : Fin 3) (f : CasFrame),
      s.hub.linkUp p = true → f.crcOk = false → ∃ t,
        exec (.bridgeFrameReceive p f) s = .next t ∧ t.hub.is (fCasPStatusCrc p) = true ∧
        t.hub.rd (fCasPCountCrc p) = satTo 8 (s.hub.rd (fCasPCountCrc p) + 1) ∧ NMap.get (t.hub.lk p).nak 3 = true ∧
        (∃ u, exec (.alarmFrameReceive p f) s = .next u ∧ u.hub.is (fCasPStatusCrc p) = true ∧ NMap.get (u.hub.lk p).nak 2 = true)) ∧
    -- DATA_FRAME_RECEIVE and BRIDGE_FRAME_RECEIVE out of sequence: asked for again
    (∀ (s : State) (p : Fin 3) (f : CasFrame),
      s.hub.linkUp p = true → f.crcOk = true → f.words ≠ [] → f.words.length ≤ 512 →
      f.seq.toNat ≠ NMap.get (s.hub.lk p).seqRx 3 → ∃ t,
        exec (.dataFrameReceive p f) s = .next t ∧ exec (.bridgeFrameReceive p f) s = .next t ∧
        NMap.get (t.hub.lk p).nak 3 = true ∧ (t.hub.lk p).seqRx = (s.hub.lk p).seqRx ∧
        (∀ a, a ≠ 0x30 → t.hub.reg a = s.hub.reg a)) ∧
    -- DATA, ALARM, BRIDGE and unknown CTRL frames at a port that is not UP
    (∀ (s : State) (p : Fin 3) (f : CasFrame),
      s.hub.linkUp p = false → ∃ t,
        exec (.dataFrameReceive p f) s = .next t ∧ exec (.alarmFrameReceive p f) s = .next t ∧
        exec (.bridgeFrameReceive p f) s = .next t ∧ exec (.unknownCtrlFrame p f) s = .next t ∧
        t.hub.link = s.hub.link ∧ t.hub.cas = s.hub.cas ∧ (∀ a, a ≠ 0x30 → t.hub.reg a = s.hub.reg a))

/-- The enumeration of the tree. The master takes number 0 and walks its DN subtree, then its BR subtree; alone it is
device 0 of 1; no other hub starts a walk. A hub takes the number, hop count and path its parent gives it, offers the
next number below or answers with its one device; a second master or too deep a tree fails. The last subtree's answer
ends the master's walk, and the broadcast end numbers every other hub; a failure from below goes up, and where it is
taken it clears `enum_ok` and the number; a lost subtree clears `enum_ok`, and a returning one walks from its old
number. (R337, R342, R343, R344, R346, R357, R444) -/
def Obligations.EnumerationWalk : Prop :=
    -- ENUM_GO on the master with a partner on DN: number 1 is offered there
    (∀ (s : State),
      s.hub.answers s.fixed s.met .cas 0x1D0300 = true → s.hub.isMaster s.fixed = true → s.hub.linkUp 1 = true → ∃ t,
        exec .enumGo s = .next t ∧ t.hub.rd fCasEnumState = 1 ∧ t.hub.cas.num = 0 ∧ t.hub.cas.phase = 1 ∧
        (t.hub.lk 1).dev = 1 ∧
        (t.hub.lk 1).txq = (s.hub.lk 1).txq ++ [s.hub.ctrlFrame 0x01 0 false (enumWords 1 0 0#32)]) ∧
    -- ENUM_GO on the master with a partner on BR only: number 1 is offered there
    (∀ (s : State),
      s.hub.answers s.fixed s.met .cas 0x1D0300 = true → s.hub.isMaster s.fixed = true → s.hub.linkUp 1 = false →
      s.hub.linkUp 2 = true → ∃ t,
        exec .enumGo s = .next t ∧ t.hub.rd fCasEnumState = 1 ∧ t.hub.cas.phase = 2 ∧ t.hub.rd fCasRangeDn = 0 ∧
        (t.hub.lk 2).txq = (s.hub.lk 2).txq ++ [s.hub.ctrlFrame 0x01 0 false (enumWords 1 0 0#32)]) ∧
    -- ENUM_GO on a master alone: it is device 0 of 1
    (∀ (s : State),
      s.hub.answers s.fixed s.met .cas 0x1D0300 = true → s.hub.isMaster s.fixed = true → s.hub.linkUp 1 = false →
      s.hub.linkUp 2 = false → ∃ t,
        exec .enumGo s = .next t ∧ t.hub.rd fCasEnumState = 2 ∧ t.hub.rd fCasEnumDevices = 1 ∧
        t.hub.rd fGlbStatusDevnum = 0 ∧ t.hub.is fGlbStatusEnumOk = true ∧ t.hub.is fCasStatusEnumDone = true ∧
        t.hub.rd fCasEnumHops = 0) ∧
    -- ENUM_GO elsewhere: ignored
    (∀ (s : State),
      s.hub.answers s.fixed s.met .cas 0x1D0300 = true → s.hub.isMaster s.fixed = false → ∃ t,
        exec .enumGo s = .next t ∧ t.hub.cas = s.hub.cas ∧ t.hub.link = s.hub.link ∧
        (∀ a, a ≠ 0x30 → t.hub.reg a = s.hub.reg a)) ∧
    -- MASTER_SELF_ENUM: no port has reached UP
    (∀ (s : State),
      s.hub.clk.gates = true → s.fixed.cmstr = true → s.hub.cas.begun = false →
      (List.range 3).all (fun p => s.hub.rd (fCasPStatusPartner p) == 0) = true → s.hub.linkUp 1 = false →
      s.hub.linkUp 2 = false → ∃ t,
        exec .masterSelfEnum s = .next t ∧ t.hub.rd fCasEnumState = 2 ∧ t.hub.rd fCasEnumDevices = 1 ∧
        t.hub.is fGlbStatusEnumOk = true ∧ t.hub.cas.begun = true) ∧
    -- MASTER_SELF_ENUM before the clocks run, off a master, or after a first enumeration
    (∀ (s : State),
      (s.hub.clk.gates = false ∨ s.fixed.cmstr = false ∨ s.hub.cas.begun = true ∨ s.hub.rd (fCasPStatusPartner 0) ≠ 0) →
      ∃ t,
        exec .masterSelfEnum s = .next t ∧ t.hub.link = s.hub.link ∧ t.hub.cas = s.hub.cas ∧
        (∀ a, a ≠ 0x30 → t.hub.reg a = s.hub.reg a)) ∧
    -- ENUM_TIMEOUT: NO_MASTER, with partners only below, or without an ENUM since UP
    (∀ (s : State),
      ((s.fixed.cmstr = false ∧ s.hub.rd (fCasPStatusPartner 0) = 0 ∧ (s.hub.rd (fCasPStatusPartner 1) ≠ 0 ∨ s.hub.rd (fCasPStatusPartner 2) ≠ 0)) ∨ (s.hub.rd (fCasPStatusPartner 0) ≠ 0 ∧ s.hub.linkUp 0 = true ∧ s.hub.rd fCasEnumState = 0)) →
      ∃ t,
        exec .enumTimeout s = .next t ∧ t.hub.rd fCasEnumState = 3 ∧ t.hub.rd fCasEnumCode = 1 ∧
        t.hub.is fGlbStatusEnumOk = false ∧ t.hub.rd fGlbStatusDevnum = 0 ∧ t.hub.is fCasStatusEnumFail = true ∧
        t.hub.rd fHltFltLastCode = 0x52) ∧
    -- ENUM_TIMEOUT in any other case
    (∀ (s : State),
      (s.hub.rd (fCasPStatusPartner 0) ≠ 0 ∨ s.fixed.cmstr = true ∨ s.hub.rd (fCasPStatusPartner 1) = 0 ∧ s.hub.rd (fCasPStatusPartner 2) = 0) →
      (s.hub.rd (fCasPStatusPartner 0) = 0 ∨ s.hub.linkUp 0 = false ∨ s.hub.rd fCasEnumState ≠ 0) → ∃ t,
        exec .enumTimeout s = .next t ∧ t.hub.link = s.hub.link ∧ t.hub.cas = s.hub.cas ∧
        (∀ a, a ≠ 0x30 → t.hub.reg a = s.hub.reg a)) ∧
    -- ENUM from the parent, a partner on DN: the next number is offered there
    (∀ (s : State) (f : CasFrame),
      s.hub.rxGood 0 1 f → s.fixed.cmstr = false → fieldOf (recWord (framePay f) 0) 17 6 < 32 →
      fieldOf (recWord (framePay f) 0) 23 9 < 511 → s.hub.linkUp 1 = true → ∃ t,
        exec (.enum 0 f) s = .next t ∧ t.hub.rd fCasEnumState = 1 ∧
        t.hub.cas.num = fieldOf (recWord (framePay f) 0) 23 9 ∧
        t.hub.cas.hops = fieldOf (recWord (framePay f) 0) 17 6 + 1 ∧
        t.hub.cas.path = recWord (framePay f) 1 ||| (if s.hub.rd (fCasPStatusPartner 0) = 3 then w32 (2 ^ fieldOf (recWord (framePay f) 0) 17 6) else 0#32) ∧
        (t.hub.lk 1).dev = fieldOf (recWord (framePay f) 0) 23 9 + 1 ∧ t.met = s.met) ∧
    -- ENUM from the parent at the end of a branch: answered with one device
    (∀ (s : State) (f : CasFrame),
      s.hub.rxGood 0 1 f → s.fixed.cmstr = false → fieldOf (recWord (framePay f) 0) 17 6 < 32 →
      s.hub.linkUp 1 = false → s.hub.linkUp 2 = false → ∃ t,
        exec (.enum 0 f) s = .next t ∧ t.hub.cas.phase = 3 ∧
        (t.hub.lk 0).txq = (s.hub.lk 0).txq ++ [s.hub.ctrlFrame 0x02 0 false [w32 ((fieldOf (recWord (framePay f) 0) 23 9 + 1) % 512 * 2 ^ 23 + 1 * 2 ^ 13)]] ∧
        t.hub.rd fCasRangeDn = 0 ∧ t.hub.rd fCasRangeBr = 0) ∧
    -- ENUM at a second master, or too deep
    (∀ (s : State) (f : CasFrame),
      s.hub.rxGood 0 1 f → (s.fixed.cmstr = true ∨ 32 ≤ fieldOf (recWord (framePay f) 0) 17 6) → ∃ t,
        exec (.enum 0 f) s = .next t ∧ t.hub.rd fCasEnumState = 3 ∧
        t.hub.rd fCasEnumCode = (if s.fixed.cmstr then 2 else 4) ∧ t.hub.is fGlbStatusEnumOk = false) ∧
    -- ENUM_DONE of the DN subtree at the master without a BR partner: the walk ends
    (∀ (s : State) (f : CasFrame),
      s.hub.rxGood 1 1 f → s.hub.isMaster s.fixed = true → s.hub.enumRuns = true → s.hub.cas.phase = 1 →
      s.hub.linkUp 2 = false → ∃ t,
        exec (.enumDone 1 f) s = .next t ∧ t.hub.rd fCasEnumState = 2 ∧
        t.hub.rd fCasRangeDn = fieldOf (recWord (framePay f) 0) 13 10 ∧
        t.hub.rd fCasEnumDevices = (s.hub.cas.next + fieldOf (recWord (framePay f) 0) 13 10 - s.hub.cas.num) % 1024 ∧
        t.hub.is fGlbStatusEnumOk = true ∧ t.hub.rd fGlbStatusDevnum = s.hub.cas.num % 512) ∧
    -- ENUM_DONE of the DN subtree with a BR partner: the next free number is offered there
    (∀ (s : State) (f : CasFrame),
      s.hub.rxGood 1 1 f → s.hub.enumRuns = true → s.hub.cas.phase = 1 → s.hub.linkUp 2 = true →
      s.hub.cas.next + fieldOf (recWord (framePay f) 0) 13 10 ≤ 511 → ∃ t,
        exec (.enumDone 1 f) s = .next t ∧ t.hub.cas.phase = 2 ∧
        t.hub.rd fCasRangeDn = fieldOf (recWord (framePay f) 0) 13 10 ∧
        t.hub.cas.next = s.hub.cas.next + fieldOf (recWord (framePay f) 0) 13 10 ∧
        (t.hub.lk 2).txq = (s.hub.lk 2).txq ++ [s.hub.ctrlFrame 0x01 0 false (enumWords (s.hub.cas.next + fieldOf (recWord (framePay f) 0) 13 10) s.hub.cas.hops s.hub.cas.path)]) ∧
    -- ENUM_DONE of the BR subtree off the master: the parent is answered
    (∀ (s : State) (f : CasFrame),
      s.hub.rxGood 2 1 f → s.hub.isMaster s.fixed = false → s.hub.enumRuns = true → s.hub.cas.phase = 2 → ∃ t,
        exec (.enumDone 2 f) s = .next t ∧ t.hub.cas.phase = 3 ∧
        t.hub.rd fCasRangeBr = fieldOf (recWord (framePay f) 0) 13 10 ∧
        (t.hub.lk 0).txq = (s.hub.lk 0).txq ++ [s.hub.ctrlFrame 0x02 0 false [w32 ((s.hub.cas.next + fieldOf (recWord (framePay f) 0) 13 10) % 512 * 2 ^ 23 + (s.hub.cas.next + fieldOf (recWord (framePay f) 0) 13 10 - s.hub.cas.num) * 2 ^ 13)]]) ∧
    -- ENUM_END, broadcast: this hub has its number
    (∀ (s : State) (f : CasFrame),
      s.hub.rxGood 0 1 f → f.bcast = true → s.hub.enumRuns = true → s.hub.cas.phase = 3 → ∃ t,
        exec (.enumEnd f) s = .next t ∧ t.hub.rd fCasEnumState = 2 ∧ t.hub.rd fGlbStatusDevnum = s.hub.cas.num % 512 ∧
        t.hub.rd fCasEnumHops = s.hub.cas.hops % 64 ∧ t.hub.reg rCasPath = s.hub.cas.path ∧
        t.hub.is fGlbStatusEnumOk = true) ∧
    -- ENUM_FAIL from below, off the master: it goes up
    (∀ (s : State) (p : Fin 3) (f : CasFrame),
      p.val ≠ 0 → s.hub.rxGood p 1 f → s.hub.isMaster s.fixed = false → s.hub.linkUp 0 = true → ∃ t,
        exec (.enumFail p f) s = .next t ∧
        (t.hub.lk 0).txq = (s.hub.lk 0).txq ++ [s.hub.ctrlFrame 0x04 0 false [recWord (framePay f) 0]] ∧
        t.hub.cas = s.hub.cas ∧ (∀ a, a ≠ 0x30 → t.hub.reg a = s.hub.reg a)) ∧
    -- ENUM_FAIL from above, or at the master
    (∀ (s : State) (p : Fin 3) (f : CasFrame),
      s.hub.rxGood p 1 f → (p.val = 0 ∨ s.hub.isMaster s.fixed = true) → ∃ t,
        exec (.enumFail p f) s = .next t ∧ t.hub.rd fCasEnumState = 3 ∧
        t.hub.rd fCasEnumCode = fieldOf (recWord (framePay f) 0) 28 4 ∧ t.hub.is fGlbStatusEnumOk = false ∧
        t.hub.is fCasStatusEnumFail = true) ∧
    -- LOST, broadcast
    (∀ (s : State) (p : Fin 3) (f : CasFrame),
      s.hub.rxGood p 1 f → f.bcast = true → ∃ t,
        exec (.lost p f) s = .next t ∧ t.hub.is fGlbStatusEnumOk = false ∧
        (∀ a, a ≠ 0x30 ∧ a ≠ rGlbStatus → t.hub.reg a = s.hub.reg a)) ∧
    -- RENUM: the walk from the old number, with the hop count and path this hub has
    (∀ (s : State) (f : CasFrame),
      s.hub.rxGood 0 1 f → fieldOf (recWord (framePay f) 0) 23 9 < 511 → ∃ t,
        exec (.renum f) s = .next t ∧ t.hub.cas.num = fieldOf (recWord (framePay f) 0) 23 9 ∧
        t.hub.cas.renum = some (fieldOf (recWord (framePay f) 0) 13 10) ∧ t.hub.cas.hops = s.hub.cas.hops ∧
        t.hub.cas.path = s.hub.cas.path ∧
        (s.hub.linkUp 1 = true → t.hub.rd fCasEnumState = 1 ∧ (t.hub.lk 1).dev = fieldOf (recWord (framePay f) 0) 23 9 + 1)) ∧
    -- ENUM, ENUM_DONE, ENUM_FAIL and LOST at a port that is not UP
    (∀ (s : State) (p : Fin 3) (f : CasFrame),
      s.hub.linkUp p = false → ∃ t,
        exec (.enum p f) s = .next t ∧ exec (.enumDone p f) s = .next t ∧ exec (.enumFail p f) s = .next t ∧
        exec (.lost p f) s = .next t ∧ t.hub.link = s.hub.link ∧ t.hub.cas = s.hub.cas ∧
        (∀ a, a ≠ 0x30 → t.hub.reg a = s.hub.reg a)) ∧
    -- ENUM_END and RENUM while UP is not UP
    (∀ (s : State) (f : CasFrame),
      s.hub.linkUp 0 = false → s.hub.enumRuns = false → ∃ t,
        exec (.enumEnd f) s = .next t ∧ exec (.renum f) s = .next t ∧ t.hub.link = s.hub.link ∧
        t.hub.cas = s.hub.cas ∧ (∀ a, a ≠ 0x30 → t.hub.reg a = s.hub.reg a))

/-- Remote registers, bit streams and reports over the cascade. A request of the master goes to the port of its device,
a broadcast write to every port below, and one without a way ends with a result at once; with one waiting another is
nothing. A request for a hub below is passed on, and one for this hub answered; an answer with the tag of the waiting
request ends it, and so does 2 ms without one. Bit stream words enter the master's window together or not at all; a
BITSTREAM frame is accepted and gives its words to the loader; reports of other hubs enter the master's log. (R337,
R354, R355, R448, R452) -/
def Obligations.RemoteAccess : Prop :=
    -- CAS_RQ_GO on the master for a device beyond port p
    (∀ (s : State) (p : Fin 3),
      s.hub.answers s.fixed s.met .cas 0x1D0320 = true → s.hub.is fCasRqCtlBusy = false →
      s.hub.isMaster s.fixed = true → s.hub.is fCasRqCtlBcast = false →
      s.hub.route s.fixed (s.hub.rd fCasRqCtlDev) = some p.val → s.hub.linkUp p = true → ∃ t,
        exec .casRqGo s = .next t ∧ t.hub.is fCasRqCtlBusy = true ∧ t.hub.cas.rqDev = some (s.hub.rd fCasRqCtlDev) ∧
        t.hub.cas.tag = (s.hub.cas.tag + 1) % 65536 ∧
        (∃ ws, (t.hub.lk p).txq = (s.hub.lk p).txq ++ [s.hub.ctrlFrame 0x0A (s.hub.rd fCasRqCtlDev) false ws] ∧ recWord ws 0 = w32 (b2n (s.hub.is fCasRqCtlWrite) * 2 ^ 31 + s.hub.rd fCasRqCtlCount * 2 ^ 26 + s.hub.rd fCasRqAddrAddr)) ∧
        t.met = s.met) ∧
    -- CAS_RQ_GO for a device outside the ranges, and off the master
    (∀ (s : State),
      s.hub.answers s.fixed s.met .cas 0x1D0320 = true → s.hub.is fCasRqCtlBusy = false →
      (s.hub.isMaster s.fixed = false ∨ (s.hub.is fCasRqCtlBcast = false ∧ s.hub.route s.fixed (s.hub.rd fCasRqCtlDev) = none)) →
      ∃ t,
        exec .casRqGo s = .next t ∧ t.hub.rd fCasRqCtlResult = (if s.hub.isMaster s.fixed then 2 else 5) ∧
        t.hub.is fCasRqCtlBusy = false ∧ t.hub.is fCasStatusRqDone = true ∧ t.hub.link = s.hub.link ∧ t.met = s.met) ∧
    -- REMOTE_TIMEOUT with no request waiting
    (∀ (s : State),
      s.hub.is fCasRqCtlBusy = false → ∃ t,
        exec .remoteTimeout s = .next t ∧ t.hub.link = s.hub.link ∧ t.hub.cas = s.hub.cas ∧ t.met = s.met ∧
        (∀ a, a ≠ 0x30 → t.hub.reg a = s.hub.reg a)) ∧
    -- CAS_RQ_GO of a broadcast on the master: a write goes to every port below that is UP, a read is refused
    (∀ (s : State),
      s.hub.answers s.fixed s.met .cas 0x1D0320 = true → s.hub.is fCasRqCtlBusy = false →
      s.hub.isMaster s.fixed = true → s.hub.is fCasRqCtlBcast = true → ∃ t,
        exec .casRqGo s = .next t ∧ t.hub.rd fCasRqCtlResult = (if s.hub.is fCasRqCtlWrite then 0 else 5) ∧
        t.hub.is fCasRqCtlBusy = false ∧ t.hub.is fCasStatusRqDone = true ∧
        (∀ p : Fin 3, (t.hub.lk p).txq.length = (s.hub.lk p).txq.length + b2n (p.val != 0 && s.hub.linkUp p && s.hub.is fCasRqCtlWrite)) ∧
        t.met = s.met) ∧
    -- CAS_RQ_GO while a request waits
    (∀ (s : State),
      s.hub.answers s.fixed s.met .cas 0x1D0320 = true → s.hub.is fCasRqCtlBusy = true → ∃ t,
        exec .casRqGo s = .next t ∧ t.hub.link = s.hub.link ∧ t.hub.cas = s.hub.cas ∧ t.met = s.met ∧
        (∀ a, a ≠ 0x30 → t.hub.reg a = s.hub.reg a)) ∧
    -- REMOTE_TIMEOUT of a request that waits
    (∀ (s : State),
      s.hub.is fCasRqCtlBusy = true → ∃ t,
        exec .remoteTimeout s = .next t ∧ t.hub.rd fCasRqCtlResult = 1 ∧ t.hub.is fCasRqCtlBusy = false ∧
        t.hub.is fCasStatusRqDone = true ∧ t.hub.cas.rqDev = none ∧
        (∀ a, a ≠ 0x30 ∧ a ≠ rCasRqCtl ∧ a ≠ rCasStatus → t.hub.reg a = s.hub.reg a)) ∧
    -- RQ for a hub below: passed on
    (∀ (s : State) (f : CasFrame) (q : Fin 3),
      s.hub.rxGood 0 1 f → f.bcast = false → s.hub.route s.fixed f.dst.toNat = some q.val → s.hub.linkUp q = true →
      ∃ t,
        exec (.rq f) s = .next t ∧
        (t.hub.lk q).txq = (s.hub.lk q).txq ++ [{ src := 0, cls := 1, bridge := false, f := { f with sub := 0x0A#6 } }] ∧
        NMap.get (t.hub.lk 0).seqRx 1 = (f.seq.toNat + 1) % 4096 ∧ t.met = s.met ∧
        (∀ a, a ≠ 0x30 → t.hub.reg a = s.hub.reg a)) ∧
    -- RQ for this hub, to be answered: an RSP frame to the asker is queued at UP
    (∀ (s : State) (f : CasFrame),
      s.hub.rxGood 0 1 f → f.bcast = false → s.hub.route s.fixed f.dst.toNat = some 3 →
      bitOf (recWord (framePay f) 0) 30 = false → ∃ t,
        exec (.rq f) s = .next t ∧
        ((t.hub.lk 0).txq.getLast?).map (fun x => (x.cls, x.f.sub, x.f.dst)) = some (1, 0x0B#6, f.src)) ∧
    -- RSP to the waiting request
    (∀ (s : State) (p : Fin 3) (f : CasFrame),
      s.hub.rxGood p 1 f → (f.bcast = true ∨ s.hub.route s.fixed f.dst.toNat = some 3) →
      s.hub.is fCasRqCtlBusy = true → fieldOf (recWord (framePay f) 0) 0 16 = s.hub.cas.tag % 65536 → ∃ t,
        exec (.rsp p f) s = .next t ∧ t.hub.rd fCasRqCtlResult = fieldOf (recWord (framePay f) 0) 29 3 ∧
        t.hub.is fCasRqCtlBusy = false ∧ t.hub.is fCasStatusRqDone = true ∧
        (s.hub.is fCasRqCtlWrite = false → ∀ i : Fin 16, i.val + 1 < (framePay f).length → t.hub.reg (rCasRqData i) = recWord (framePay f) (i + 1)) ∧
        t.met = s.met) ∧
    -- RSP without a request that waits, or with another tag
    (∀ (s : State) (p : Fin 3) (f : CasFrame),
      s.hub.rxGood p 1 f → f.bcast = false → s.hub.route s.fixed f.dst.toNat = some 3 →
      (s.hub.is fCasRqCtlBusy = false ∨ fieldOf (recWord (framePay f) 0) 0 16 ≠ s.hub.cas.tag % 65536) → ∃ t,
        exec (.rsp p f) s = .next t ∧ t.hub.cas = s.hub.cas ∧
        NMap.get (t.hub.lk p).seqRx 1 = (f.seq.toNat + 1) % 4096 ∧ (∀ a, a ≠ 0x30 → t.hub.reg a = s.hub.reg a)) ∧
    -- BITSTREAM for this hub alone: its words come to the loader
    (∀ (s : State) (p : Fin 3) (f : CasFrame),
      s.hub.rxGood p 1 f → f.bcast = false → s.hub.route s.fixed f.dst.toNat = some 3 → ∃ t,
        exec (.bitstream p f) s = .next t ∧
        t.hub = latchIrq s.hub s.met (((s.hub.rxCheck p 1 f).2.release p 1 f.words.length).bitstreamIn p (framePay f)) s.met ∧
        NMap.get (t.hub.lk p).seqRx 1 = (f.seq.toNat + 1) % 4096 ∧ t.hub.cells = s.hub.cells ∧ t.met = s.met) ∧
    -- CAS_BS_DATA_WRITE on the master: all words or none
    (∀ (s : State) (words : List Word),
      s.hub.answers s.fixed s.met .cas 0x1D0400 = true → s.hub.isMaster s.fixed = true → ∃ t,
        exec (.casBsDataWrite words) s = .next t ∧
        (s.hub.cas.bs.length + words.length ≤ fifoWords → t.hub.cas.bs = s.hub.cas.bs ++ words ∧ t.hub.rd fCasBsLevelFree = (528 - (s.hub.cas.bs.length + words.length)) % 1024) ∧
        (fifoWords < s.hub.cas.bs.length + words.length → t.hub.cas.bs = s.hub.cas.bs ∧ t.hub.is fCasBsCtlFifoOver = true) ∧
        t.hub.link = s.hub.link) ∧
    -- CAS_BS_DATA_WRITE off the master: refused
    (∀ (s : State) (words : List Word),
      s.hub.answers s.fixed s.met .cas 0x1D0400 = true → s.hub.isMaster s.fixed = false → ∃ t,
        exec (.casBsDataWrite words) s = .next t ∧ t.hub.cas = s.hub.cas ∧ t.hub.rd fCasRqCtlResult = 5 ∧
        (∀ a, a ≠ 0x30 ∧ a ≠ rCasRqCtl → t.hub.reg a = s.hub.reg a)) ∧
    -- NOTIFY at the master: a NOTICE REMOTE_LOADER
    (∀ (s : State) (p : Fin 3) (f : CasFrame),
      s.hub.rxGood p 1 f → s.hub.isMaster s.fixed = true → f.bcast = false →
      s.hub.route s.fixed f.dst.toNat = some 3 → s.hub.hasSuppressed = false → 0 < s.hub.bkTokens 1 →
      s.hub.logRoom = true → ∃ t,
        exec (.notify p f) s = .next t ∧
        NMap.get t.hub.outbox prodLog = NMap.get s.hub.outbox prodLog ++ (recordWords 5 (s.hub.logBody 0x22 0xC8 0x91 0 (fieldOf (recWord (framePay f) 1) 23 9) (recWord (framePay f) 0) (w32 (fieldOf (recWord (framePay f) 1) 23 9)))).map (fun w => (62, w)) ∧
        t.hub.bkTokens 1 = s.hub.bkTokens 1 - 1) ∧
    -- LOG_FRAME_RECEIVE at the master: the record takes the log path
    (∀ (s : State) (p : Fin 3) (f : CasFrame),
      s.hub.rxGood p 1 f → s.hub.isMaster s.fixed = true → f.bcast = false →
      s.hub.route s.fixed f.dst.toNat = some 3 → s.hub.hasSuppressed = false → 0 < s.hub.bkTokens 1 →
      s.hub.logRoom = true → ∃ t,
        exec (.logFrameReceive p f) s = .next t ∧
        NMap.get t.hub.outbox prodLog = NMap.get s.hub.outbox prodLog ++ (recordWords 5 (framePay f)).map (fun w => (62, w)) ∧
        t.hub.bkTokens 1 = s.hub.bkTokens 1 - 1) ∧
    -- NOTIFY and LOG_FRAME_RECEIVE off the master at the way up: passed on there
    (∀ (s : State) (p : Fin 3) (f : CasFrame),
      s.hub.rxGood p 1 f → s.hub.isMaster s.fixed = false → f.bcast = false →
      s.hub.route s.fixed f.dst.toNat = some 0 → s.hub.linkUp 0 = true → ∃ t,
        exec (.notify p f) s = .next t ∧
        (t.hub.lk 0).txq = (s.hub.lk 0).txq ++ [{ src := p, cls := 1, bridge := false, f := { f with sub := 0x09#6 } }] ∧
        (∃ u, exec (.logFrameReceive p f) s = .next u ∧ (u.hub.lk 0).txq = (s.hub.lk 0).txq ++ [{ src := p, cls := 1, bridge := false, f := { f with sub := 0x0C#6 } }]) ∧
        (∀ a, a ≠ 0x30 → t.hub.reg a = s.hub.reg a)) ∧
    -- BITSTREAM, RSP, NOTIFY and LOG_FRAME_RECEIVE at a port that is not UP
    (∀ (s : State) (p : Fin 3) (f : CasFrame),
      s.hub.linkUp p = false → ∃ t,
        exec (.bitstream p f) s = .next t ∧ exec (.rsp p f) s = .next t ∧ exec (.notify p f) s = .next t ∧
        exec (.logFrameReceive p f) s = .next t ∧ t.hub.link = s.hub.link ∧ t.hub.cas = s.hub.cas ∧
        (∀ a, a ≠ 0x30 → t.hub.reg a = s.hub.reg a))

/-- The time exchange and the child's timebase. A parent's exchange stamps its departure, the child's SYNC and DREQ
theirs, and the parent answers with a TIME frame; the child takes the path delay and offset from the four times, keeps
the offset while the master has not stepped, makes its one step when it has, and after it only steers. A frame with a
bad CRC is counted; with a port not UP or no exchange open nothing happens. (R337, R347, R348, R349) -/
def Obligations.TimeTransfer : Prop :=
    -- TIME_EXCHANGE_START
    (∀ (s : State),
      ∃ t,
        exec .timeExchangeStart s = .next t ∧
        (∀ p : Fin 3, p.val ≠ 0 → s.hub.linkUp p = true → (t.hub.lk p).t1 = some s.hub.netNow ∧ (t.hub.lk p).exNum = ((s.hub.lk p).exNum + 1) % 65536) ∧
        t.hub.lk 0 = s.hub.lk 0 ∧ (∀ a, a ≠ 0x30 → t.hub.reg a = s.hub.reg a)) ∧
    -- SYNC at a child
    (∀ (s : State) (num : BitVec 16),
      s.hub.linkUp 0 = true → ∃ t,
        exec (.sync num) s = .next t ∧ (t.hub.lk 0).t2 = some s.hub.netNow ∧ (t.hub.lk 0).t3 = none ∧
        (t.hub.lk 0).exNum = num.toNat ∧ (∀ a, a ≠ 0x30 → t.hub.reg a = s.hub.reg a)) ∧
    -- SYNC and DREQ_SEND while UP is not UP
    (∀ (s : State) (num : BitVec 16),
      s.hub.linkUp 0 = false → ∃ t,
        exec (.sync num) s = .next t ∧ exec .dreqSend s = .next t ∧ t.hub.link = s.hub.link ∧ t.hub.cas = s.hub.cas ∧
        (∀ a, a ≠ 0x30 → t.hub.reg a = s.hub.reg a)) ∧
    -- DREQ_SEND, 1 µs (800 TCLK cycles) after SYNC
    (∀ (s : State),
      s.hub.linkUp 0 = true → (s.hub.lk 0).t2.isSome = true → (s.hub.lk 0).t3 = none →
      (s.hub.lk 0).syncCyc + 800 ≤ s.hub.cyc → ∃ t,
        exec .dreqSend s = .next t ∧ (t.hub.lk 0).t3 = some s.hub.netNow ∧ (t.hub.lk 0).t2 = (s.hub.lk 0).t2 ∧
        t.hub.cyc = s.hub.cyc ∧ (∀ a, a ≠ 0x30 → t.hub.reg a = s.hub.reg a)) ∧
    -- DREQ_SEND sooner than that: at 1 µs after SYNC
    (∀ (s : State),
      s.hub.clk.gates = true → s.hub.linkUp 0 = true → (s.hub.lk 0).t2.isSome = true → (s.hub.lk 0).t3 = none →
      s.hub.cyc < (s.hub.lk 0).syncCyc + 800 → ∃ t,
        exec .dreqSend s = .next t ∧ (t.hub.lk 0).t3 = some t.hub.netNow ∧ t.hub.cyc = (s.hub.lk 0).syncCyc + 800 ∧
        (∀ a, a ≠ 0x30 → t.hub.reg a = s.hub.reg a)) ∧
    -- DREQ at a parent: the TIME frame answers it
    (∀ (s : State) (p : Fin 3) (num : BitVec 16) (t1 : Nat),
      p.val ≠ 0 → s.hub.linkUp p = true → (s.hub.lk p).t1 = some t1 → (s.hub.lk p).exNum = num.toNat → ∃ t,
        exec (.dreq p num) s = .next t ∧ (t.hub.lk p).t1 = none ∧
        (t.hub.lk p).txq.map (fun x => (x.cls, x.f.words)) = (s.hub.lk p).txq.map (fun x => (x.cls, x.f.words)) ++ [(0, recordWords 7 (s.hub.timeFrameWords s.fixed num.toNat t1 s.hub.netNow))] ∧
        (∀ a, a ≠ 0x30 → t.hub.reg a = s.hub.reg a)) ∧
    -- DREQ at no parent, or of another exchange
    (∀ (s : State) (p : Fin 3) (num : BitVec 16),
      (p.val = 0 ∨ s.hub.linkUp p = false ∨ (s.hub.lk p).t1 = none ∨ (s.hub.lk p).exNum ≠ num.toNat) → ∃ t,
        exec (.dreq p num) s = .next t ∧ t.hub.link = s.hub.link ∧ t.hub.cas = s.hub.cas ∧
        (∀ a, a ≠ 0x30 → t.hub.reg a = s.hub.reg a)) ∧
    -- TIME_FRAME_RECEIVE of the exchange in progress before the step, the master not having stepped, rate steering first
    (∀ (s : State) (f : CasFrame) (t1 t2 t3 t4 : Nat),
      s.hub.rxGood 0 0 f → (s.hub.lk 0).t2 = some t2 → (s.hub.lk 0).t3 = some t3 →
      fieldOf (recWord (framePay f) 0) 16 16 = (s.hub.lk 0).exNum →
      t1 = ofTimeWords (recWord (framePay f) 1).toNat (recWord (framePay f) 2).toNat (recWord (framePay f) 3).toNat (fieldOf (recWord (framePay f) 4) 16 16) →
      t4 = ofTimeWords (recWord (framePay f) 5).toNat (recWord (framePay f) 6).toNat (recWord (framePay f) 7).toNat (fieldOf (recWord (framePay f) 4) 0 16) →
      s.hub.is (fTmTbStepsUsed 16) = false → bitOf (recWord (framePay f) 0) 8 = false → s.hub.cf 11 3 0 1 1 = 1 → ∃ t,
        exec (.timeFrameReceive f) s = .next t ∧ (t.hub.lk 0).t3 = none ∧ (t.hub.lk 0).t2 = none ∧
        t.hub.rd (fCasPDelayDelay 0) = ofInt ((125 * (((t4 : Int) - t1) - ((t3 : Int) - t2)) + 8192 * signedOf (s.hub.rd (fCasPAsymAsym 0)) 16) / 64000) 32 ∧
        t.hub.is fCasStatusMasterStepped = false ∧
        t.hub.cas.theta = ((250 * ((t2 : Int) - t1) - (125 * (((t4 : Int) - t1) - ((t3 : Int) - t2)) + 8192 * signedOf (s.hub.rd (fCasPAsymAsym 0)) 16)) :: s.hub.cas.theta).take 16 ∧
        t.hub.tbVal 16 = s.hub.tbVal 16 ∧ t.hub.is (fTmTbStepsUsed 16) = false) ∧
    -- TIME_FRAME_RECEIVE once the master has stepped: the child's one step
    (∀ (s : State) (f : CasFrame) (t2 t3 : Nat),
      s.hub.rxGood 0 0 f → (s.hub.lk 0).t2 = some t2 → (s.hub.lk 0).t3 = some t3 →
      fieldOf (recWord (framePay f) 0) 16 16 = (s.hub.lk 0).exNum → s.hub.is (fTmTbStepsUsed 16) = false →
      bitOf (recWord (framePay f) 0) 8 = true → ∃ t,
        exec (.timeFrameReceive f) s = .next t ∧ t.hub.is (fTmTbStepsUsed 16) = true ∧
        t.hub.is fCasStatusStepped = true ∧ t.hub.is fCasStatusMasterStepped = true ∧
        t.hub.rd (fTmTbStepsSteps 16) = (s.hub.rd (fTmTbStepsSteps 16) + 1) % 2 ^ (fTmTbStepsSteps 16).len ∧
        t.hub.cas.theta = []) ∧
    -- TIME_FRAME_RECEIVE with a bad CRC: counted, the exchange stays open
    (∀ (s : State) (f : CasFrame),
      s.hub.linkUp 0 = true → f.crcOk = false → ∃ t,
        exec (.timeFrameReceive f) s = .next t ∧
        t.hub.rd (fCasPCount2TimeBad 0) = satTo 16 (s.hub.rd (fCasPCount2TimeBad 0) + 1) ∧
        (t.hub.lk 0).t2 = (s.hub.lk 0).t2 ∧ t.hub.cas = s.hub.cas) ∧
    -- TIME_FRAME_RECEIVE after the step: steering only, a slew of 781 blocks, the last 16 offsets
    (∀ (s : State) (f : CasFrame) (t2 t3 : Nat),
      s.hub.rxGood 0 0 f → (s.hub.lk 0).t2 = some t2 → (s.hub.lk 0).t3 = some t3 →
      fieldOf (recWord (framePay f) 0) 16 16 = (s.hub.lk 0).exNum → s.hub.is (fTmTbStepsUsed 16) = true → ∃ t,
        exec (.timeFrameReceive f) s = .next t ∧ t.hub.tbVal 16 = s.hub.tbVal 16 ∧
        t.hub.rd (fTmTbStepsSteps 16) = s.hub.rd (fTmTbStepsSteps 16) ∧ t.hub.rd (fTmTbSlewLenSlewLen 16) = 781 ∧
        (NMap.get t.hub.tb 16).slewTicks = 799744 ∧ t.hub.cas.theta.length = min 16 (s.hub.cas.theta.length + 1) ∧
        t.hub.is fCasStatusMasterStepped = bitOf (recWord (framePay f) 0) 8) ∧
    -- TIME_FRAME_RECEIVE with no exchange open, or of another exchange
    (∀ (s : State) (f : CasFrame),
      s.hub.rxGood 0 0 f →
      ((s.hub.lk 0).t2 = none ∨ (s.hub.lk 0).t3 = none ∨ fieldOf (recWord (framePay f) 0) 16 16 ≠ (s.hub.lk 0).exNum) →
      ∃ t,
        exec (.timeFrameReceive f) s = .next t ∧ t.hub.cas = s.hub.cas ∧ (t.hub.lk 0).t2 = (s.hub.lk 0).t2 ∧
        (∀ a, a ≠ 0x30 → t.hub.reg a = s.hub.reg a))

/-- The radio's commands, its transitions and calibrations. A command in mode MANUAL sets out through the states that
lead to its own, or has its effect at once where it is there; behind a running command one is held and a further one
refused, and so is one outside mode MANUAL, outside channels 11 to 26, or with a frame length or calibration step out of
range (log entry 115: the model's choice for the last two). A state reached is shown, a reception then listens and a
transmission sends its octets; a transmission ends with its reason when it finds no lock, loses it, is aborted or meets
a supply warning; a calibration step stores its result; a hang starts a RADIO recovery. An event that meets nothing it
concerns changes nothing. (R366, R367, R368, R369, R370, R372, R373, R375, R376, R377, R389, R440) -/
def Obligations.RadioCommands : Prop :=
    -- RAD_CMD_SLEEP of a sequencer that is not asleep
    (∀ (s : State) (w : Word),
      s.hub.answers s.fixed s.met .rad 0x1E000C = true → s.hub.radUp s.fixed = true → s.hub.rad.mode = 1 →
      s.hub.rad.cmd = none → s.hub.rad.cal = none → s.hub.rad.path.contains 3 = false → s.hub.radState ≠ 0 → ∃ t,
        exec (.radCmdSleep w) s = .next t ∧ t.hub.rad.path = s.hub.radPath 0 (fieldOf w 21 5) ∧
        t.hub.rad.cmd.map (fun c => c.op) = some 0 ∧ t.hub.is fRadStatusBusy = true ∧ t.hub.radState = s.hub.radState) ∧
    -- RAD_CMD_STANDBY of a sequencer in another state
    (∀ (s : State) (w : Word),
      s.hub.answers s.fixed s.met .rad 0x1E000C = true → s.hub.radUp s.fixed = true → s.hub.rad.mode = 1 →
      s.hub.rad.cmd = none → s.hub.rad.cal = none → s.hub.rad.path.contains 3 = false → s.hub.radState ≠ 1 → ∃ t,
        exec (.radCmdStandby w) s = .next t ∧ t.hub.rad.path = [1] ∧ t.hub.rad.cmd.map (fun c => c.op) = some 1 ∧
        t.hub.is fRadStatusBusy = true) ∧
    -- RAD_CMD_SLEEP in SLEEP: it ends at once
    (∀ (s : State) (w : Word),
      s.hub.answers s.fixed s.met .rad 0x1E000C = true → s.hub.radUp s.fixed = true → s.hub.rad.mode = 1 →
      s.hub.rad.cmd = none → s.hub.rad.cal = none → s.hub.rad.path.contains 3 = false → s.hub.rad.held = none →
      s.hub.radState = 0 → ∃ t,
        exec (.radCmdSleep w) s = .next t ∧ t.hub.rad.cmd = none ∧ t.hub.is fRadStatusBusy = false ∧
        t.hub.radState = 0) ∧
    -- RAD_CMD_STANDBY in STANDBY: it ends at once
    (∀ (s : State) (w : Word),
      s.hub.answers s.fixed s.met .rad 0x1E000C = true → s.hub.radUp s.fixed = true → s.hub.rad.mode = 1 →
      s.hub.rad.cmd = none → s.hub.rad.cal = none → s.hub.rad.path.contains 3 = false → s.hub.rad.held = none →
      s.hub.radState = 1 → ∃ t,
        exec (.radCmdStandby w) s = .next t ∧ t.hub.rad.cmd = none ∧ t.hub.is fRadStatusBusy = false ∧
        t.hub.radState = 1) ∧
    -- RAD_CMD_RX on a channel from 11 to 26
    (∀ (s : State) (w : Word),
      s.hub.answers s.fixed s.met .rad 0x1E000C = true → s.hub.radUp s.fixed = true → s.hub.rad.mode = 1 →
      s.hub.rad.cmd = none → s.hub.rad.cal = none → s.hub.rad.path.contains 3 = false → 11 ≤ fieldOf w 21 5 →
      fieldOf w 21 5 ≤ 26 → ∃ t,
        exec (.radCmdRx w) s = .next t ∧ t.hub.rad.path = s.hub.radPath 4 (fieldOf w 21 5) ∧
        t.hub.rad.cmd.map (fun c => (c.op, c.chan, c.phy)) = some (2, fieldOf w 21 5, fieldOf w 26 1) ∧
        t.hub.is fRadStatusBusy = true ∧ (s.hub.radPath 4 (fieldOf w 21 5) = [] → t.hub.rad.rx = 50)) ∧
    -- RAD_CMD_TX on a channel from 11 to 26 of a frame length in range, no supply warning
    (∀ (s : State) (w : Word),
      s.hub.answers s.fixed s.met .rad 0x1E000C = true → s.hub.radUp s.fixed = true → s.hub.rad.mode = 1 →
      s.hub.rad.cmd = none → s.hub.rad.cal = none → s.hub.rad.path.contains 3 = false → 11 ≤ fieldOf w 21 5 →
      fieldOf w 21 5 ≤ 26 → s.hub.rd fRadTxLenTxLen ≠ 0 → (fieldOf w 26 1 = 1 ∨ s.hub.rd fRadTxLenTxLen ≤ 125) →
      s.hub.supWarned = false → ∃ t,
        exec (.radCmdTx w) s = .next t ∧ t.hub.rad.path = s.hub.radPath 5 (fieldOf w 21 5) ∧
        t.hub.rad.cmd.map (fun c => (c.op, c.chan, c.phy, c.power)) = some (3, fieldOf w 21 5, fieldOf w 26 1, fieldOf w 16 5) ∧
        t.hub.is fRadStatusBusy = true) ∧
    -- RAD_CMD_TX under a supply warning: TX_ABORT with reason SUPPLY
    (∀ (s : State) (w : Word),
      s.hub.answers s.fixed s.met .rad 0x1E000C = true → s.hub.radUp s.fixed = true → s.hub.rad.mode = 1 →
      s.hub.rad.cmd = none → s.hub.rad.cal = none → s.hub.rad.path.contains 3 = false → 11 ≤ fieldOf w 21 5 →
      fieldOf w 21 5 ≤ 26 → s.hub.rd fRadTxLenTxLen ≠ 0 → (fieldOf w 26 1 = 1 ∨ s.hub.rd fRadTxLenTxLen ≤ 125) →
      s.hub.rad.held = none → s.hub.supWarned = true → ∃ t,
        exec (.radCmdTx w) s = .next t ∧ t.hub.is fRadStatusTxAbort = true ∧ t.hub.rd fRadAbortReason = 2 ∧
        t.hub.rd fRadAbortCount = satTo 16 (s.hub.rd fRadAbortCount + 1) ∧ t.hub.rad.cmd = none ∧
        t.hub.is fRadStatusBusy = false) ∧
    -- RAD_CMD_CAL
    (∀ (s : State) (w : Word),
      s.hub.answers s.fixed s.met .rad 0x1E000C = true → s.hub.radUp s.fixed = true → s.hub.rad.mode = 1 →
      s.hub.rad.cmd = none → s.hub.rad.cal = none → s.hub.rad.path.contains 3 = false → fieldOf w 12 4 ≤ 2 →
      (fieldOf w 12 4 ≠ 0 ∨ 11 ≤ fieldOf w 21 5 ∧ fieldOf w 21 5 ≤ 26) → ∃ t,
        exec (.radCmdCal w) s = .next t ∧ t.hub.rad.cmd.map (fun c => (c.op, c.step)) = some (4, fieldOf w 12 4) ∧
        t.hub.is fRadStatusBusy = true) ∧
    -- RAD_CMD_RX behind a running command: held
    (∀ (s : State) (w : Word),
      s.hub.answers s.fixed s.met .rad 0x1E000C = true → s.hub.radUp s.fixed = true → s.hub.rad.mode = 1 →
      11 ≤ fieldOf w 21 5 → fieldOf w 21 5 ≤ 26 → s.hub.rad.cmd ≠ none → s.hub.rad.held = none → ∃ t,
        exec (.radCmdRx w) s = .next t ∧ t.hub.rad.held.map (fun c => (c.op, c.chan)) = some (2, fieldOf w 21 5) ∧
        t.hub.rad.cmd = s.hub.rad.cmd ∧ t.hub.rad.path = s.hub.rad.path ∧ t.hub.is fRadStatusBusy = true) ∧
    -- RAD_CMD_SLEEP, STANDBY and RX with a command running and one held, and every op outside mode MANUAL: refused
    (∀ (s : State) (w : Word),
      s.hub.answers s.fixed s.met .rad 0x1E000C = true →
      (s.hub.rad.mode ≠ 1 ∨ s.hub.rad.cmd ≠ none ∧ s.hub.rad.held ≠ none) → ∃ t,
        exec (.radCmdSleep w) s = .next t ∧ exec (.radCmdStandby w) s = .next t ∧ exec (.radCmdRx w) s = .next t ∧
        (s.hub.rad.mode ≠ 1 → exec (.radCmdTx w) s = .next t ∧ exec (.radCmdCal w) s = .next t ∧ exec (.radCmdAbort w) s = .next t) ∧
        t.hub.is fRadStatusCmdRefused = true ∧ t.hub.rad = s.hub.rad ∧
        (∀ a, a ≠ 0x30 ∧ a ≠ rRadCmd ∧ a ≠ rRadStatus → t.hub.reg a = s.hub.reg a)) ∧
    -- RAD_CMD_TX, RX and CAL of a synthesiser step on another channel: refused
    (∀ (s : State) (w : Word),
      s.hub.answers s.fixed s.met .rad 0x1E000C = true → (fieldOf w 21 5 < 11 ∨ 26 < fieldOf w 21 5) → ∃ t,
        exec (.radCmdTx w) s = .next t ∧ exec (.radCmdRx w) s = .next t ∧
        (fieldOf w 12 4 = 0 → exec (.radCmdCal w) s = .next t) ∧ t.hub.is fRadStatusCmdRefused = true ∧
        t.hub.rad = s.hub.rad ∧ (∀ a, a ≠ 0x30 ∧ a ≠ rRadCmd ∧ a ≠ rRadStatus → t.hub.reg a = s.hub.reg a)) ∧
    -- RAD_CMD_TX of a frame length out of range: refused (log entry 115)
    (∀ (s : State) (w : Word),
      s.hub.answers s.fixed s.met .rad 0x1E000C = true →
      (s.hub.rd fRadTxLenTxLen = 0 ∨ fieldOf w 26 1 = 0 ∧ 125 < s.hub.rd fRadTxLenTxLen) → ∃ t,
        exec (.radCmdTx w) s = .next t ∧ t.hub.is fRadStatusCmdRefused = true ∧ t.hub.rad = s.hub.rad ∧
        (∀ a, a ≠ 0x30 ∧ a ≠ rRadCmd ∧ a ≠ rRadStatus → t.hub.reg a = s.hub.reg a)) ∧
    -- RAD_CMD_CAL of a step above 2: refused (log entry 115)
    (∀ (s : State) (w : Word),
      s.hub.answers s.fixed s.met .rad 0x1E000C = true → 2 < fieldOf w 12 4 → ∃ t,
        exec (.radCmdCal w) s = .next t ∧ t.hub.is fRadStatusCmdRefused = true ∧ t.hub.rad = s.hub.rad ∧
        (∀ a, a ≠ 0x30 ∧ a ≠ rRadCmd ∧ a ≠ rRadStatus → t.hub.reg a = s.hub.reg a)) ∧
    -- RAD_CMD_ABORT
    (∀ (s : State) (w : Word),
      s.hub.answers s.fixed s.met .rad 0x1E000C = true → s.hub.radUp s.fixed = true → s.hub.rad.mode = 1 → ∃ t,
        exec (.radCmdAbort w) s = .next t ∧ t.hub.rad.cmd = none ∧ t.hub.rad.held = none ∧
        t.hub.rad.path = s.hub.rad.lockOnly.path ∧ t.hub.rad.rx = 0 ∧
        t.hub.radState = (if 4 ≤ s.hub.radState then 3 else s.hub.radState) ∧ t.hub.is fRadStatusBusy = false ∧
        (∀ c, s.hub.rad.cmd = some c → c.op = 3 → t.hub.rd fRadAbortReason = 5)) ∧
    -- RADIO_STATE_REACHED on the way
    (∀ (s : State) (st x : Nat) (rest : List Nat),
      s.hub.radUp s.fixed = true → s.hub.xclkOn = true → s.hub.rad.path = st :: x :: rest → st < 16 → ∃ t,
        exec .radioStateReached s = .next t ∧ t.hub.radState = st ∧ t.hub.rad.path = x :: rest ∧
        t.hub.rad.cmd = s.hub.rad.cmd ∧ t.hub.is fClkStatusXclkOk = decide (st ≠ 0)) ∧
    -- RADIO_STATE_REACHED: a reception of mode MANUAL listens
    (∀ (s : State) (c : RadCmd),
      s.hub.radUp s.fixed = true → s.hub.xclkOn = true → s.hub.rad.path = [4] → s.hub.rad.cmd = some c → c.op = 2 →
      c.tdma = false → ∃ t,
        exec .radioStateReached s = .next t ∧ t.hub.radState = 4 ∧ t.hub.rad.path = [] ∧ t.hub.rad.rx = 50 ∧
        t.hub.rad.cmd = some c) ∧
    -- RADIO_STATE_REACHED: a transmission without a start time sends
    (∀ (s : State) (c : RadCmd),
      s.hub.radUp s.fixed = true → s.hub.xclkOn = true → s.hub.rad.path = [5] → s.hub.rad.cmd = some c → c.op = 3 →
      c.start = none → ∃ t,
        exec .radioStateReached s = .next t ∧ t.hub.radState = 5 ∧ t.hub.rad.path = [] ∧
        t.hub.rad.air = s.hub.airOctets c.phy c.bytes ∧ t.hub.rad.dbm = (min c.power 30 : Nat) - (20 : Int) ∧
        t.hub.rad.cmd = some c) ∧
    -- RADIO_STATE_REACHED with no transition under way, or without the radio or its clock
    (∀ (s : State),
      (s.hub.radUp s.fixed = false ∨ s.hub.xclkOn = false ∨ s.hub.rad.path = []) → ∃ t,
        exec .radioStateReached s = .next t ∧ t.hub.rad = s.hub.rad ∧ (∀ a, a ≠ 0x30 → t.hub.reg a = s.hub.reg a)) ∧
    -- TX_NO_LOCK
    (∀ (s : State) (c : RadCmd),
      s.hub.radUp s.fixed = true → s.hub.rad.cmd = some c → s.hub.rad.held = none → c.op = 3 → s.hub.radState ≠ 5 →
      s.hub.rad.path.contains 3 = true → ∃ t,
        exec .txNoLock s = .next t ∧ t.hub.is fRadStatusTxAbort = true ∧ t.hub.rd fRadAbortReason = 1 ∧
        t.hub.rd fRadAbortCount = satTo 16 (s.hub.rd fRadAbortCount + 1) ∧ t.hub.rad.cmd = none ∧
        t.hub.rad.path = s.hub.rad.lockOnly.path ∧ t.hub.radState = s.hub.radState) ∧
    -- TX_NO_LOCK of a held transmission behind another command
    (∀ (s : State) (c : RadCmd),
      s.hub.radUp s.fixed = true → s.hub.rad.cmd.all (fun x => x.op != 3) = true → s.hub.rad.held = some c →
      c.op = 3 → (s.hub.radState < 3 ∨ s.hub.rad.chan ≠ c.chan) → ∃ t,
        exec .txNoLock s = .next t ∧ t.hub.is fRadStatusTxAbort = true ∧ t.hub.rd fRadAbortReason = 1 ∧
        t.hub.rad.held = none ∧ t.hub.rad.cmd = s.hub.rad.cmd) ∧
    -- SYNTH_LOCK_LOST during a transmission
    (∀ (s : State) (c : RadCmd),
      s.hub.radUp s.fixed = true → s.hub.radState = 5 → s.hub.rad.cmd = some c → s.hub.rad.held = none → c.op = 3 →
      ∃ t,
        exec .synthLockLost s = .next t ∧ t.hub.rd fRadAbortReason = 4 ∧ t.hub.rd fHltFltLastCode = 0x61 ∧
        t.hub.rad.cmd = none ∧ t.hub.radState = 3) ∧
    -- TX_COMPLETE
    (∀ (s : State) (c : RadCmd),
      s.hub.radUp s.fixed = true → s.hub.radState = 5 → s.hub.rad.cmd = some c → s.hub.rad.held = none → c.op = 3 →
      c.node ≤ 48 → ∃ t,
        exec .txComplete s = .next t ∧ t.hub.rad.cmd = none ∧ t.hub.radState = 3 ∧ t.hub.is fRadStatusBusy = false ∧
        (c.node ≠ 0 → c.alarm = 0 → t.hub.is (fRadNDctlSent (c.node - 1)) = true ∧ t.hub.is (fRadNDctlReady (c.node - 1)) = false ∧ (t.hub.node c.node).want = false) ∧
        (c.beacon = true → t.hub.rad.answer = none ∧ t.hub.rad.entrant = s.hub.rad.answer.map Prod.snd)) ∧
    -- TX_COMPLETE and SYNTH_LOCK_LOST outside TX
    (∀ (s : State),
      s.hub.radState ≠ 5 → ∃ t,
        exec .txComplete s = .next t ∧ exec .synthLockLost s = .next t ∧ t.hub.rad = s.hub.rad ∧
        (∀ a, a ≠ 0x30 → t.hub.reg a = s.hub.reg a)) ∧
    -- RADIO_CAL_STEP_START of the step `rad.cmd` asks for
    (∀ (s : State) (c : RadCmd) (step : Fin 16),
      s.hub.radUp s.fixed = true → s.hub.xclkOn = true → s.hub.rad.cal = none → s.hub.rad.path = [] →
      s.hub.rad.cmd = some c → c.op = 4 → c.step = step.val → step.val ≤ 2 → ∃ t,
        exec (.radioCalStepStart step) s = .next t ∧
        (t.hub.rad.cal = some (step.val, if step.val = 0 then c.chan else c.phy)) ∧ t.hub.rad.calAt = s.hub.radNow ∧
        t.hub.radState = (if step.val = 0 then 2 else 1) ∧ t.hub.rad.cmd = some c) ∧
    -- RADIO_CAL_STEP_START of the next due step in STANDBY with auto_cal
    (∀ (s : State) (k i : Nat) (step : Fin 16),
      s.hub.radUp s.fixed = true → s.hub.xclkOn = true → s.hub.rad.cal = none → s.hub.rad.cmd = none →
      s.hub.rad.mode = 1 → s.hub.radState = 1 → s.hub.is fRadCtlAutoCal = true → s.hub.nextStep = some (k, i) →
      k = step.val → step.val ≤ 2 → ∃ t,
        exec (.radioCalStepStart step) s = .next t ∧ t.hub.rad.cal = some (k, i) ∧
        t.hub.radState = (if step.val = 0 then 2 else 1)) ∧
    -- RADIO_CAL_STEP_START during a step or another command, or of no step
    (∀ (s : State) (step : Fin 16),
      (s.hub.rad.cal ≠ none ∨ 2 < step.val ∨ s.hub.rad.cmd.any (fun c => c.op != 4) = true) → ∃ t,
        exec (.radioCalStepStart step) s = .next t ∧ t.hub.rad = s.hub.rad ∧
        (∀ a, a ≠ 0x30 → t.hub.reg a = s.hub.reg a)) ∧
    -- RADIO_CAL_STEP_DONE
    (∀ (s : State) (temp : BitVec 8) (kind i : Nat),
      s.hub.radUp s.fixed = true → s.hub.rad.cal = some (kind, i) → s.hub.rad.held = none → ∃ t,
        exec (.radioCalStepDone temp) s = .next t ∧ t.hub.rad.cal = none ∧ t.hub.is fRadStatusCalDone = true ∧
        t.hub.rd fRadTempTemp = temp.toNat ∧ t.hub.rd fRadSfcntCal = satTo 16 (s.hub.rd fRadSfcntCal + 1) ∧
        (kind = 0 → NMap.get t.hub.rad.synth i = (temp.toInt + 129).toNat ∧ t.hub.radState = 3 ∧ t.hub.rad.chan = i) ∧
        (kind = 1 → NMap.get t.hub.rad.image i = (temp.toInt + 129).toNat) ∧
        (kind = 2 → NMap.get t.hub.rad.filt i = (temp.toInt + 129).toNat) ∧ t.hub.rad.cmd = none) ∧
    -- RADIO_CAL_STEP_DONE with no step: the temperature
    (∀ (s : State) (temp : BitVec 8),
      s.hub.radUp s.fixed = true → s.hub.rad.cal = none → ∃ t,
        exec (.radioCalStepDone temp) s = .next t ∧ t.hub.rd fRadTempTemp = temp.toNat ∧ t.hub.rad = s.hub.rad) ∧
    -- XCLK_OSCILLATOR_STEP in STANDBY, CAL or SYNTH
    (∀ (s : State) (up : Bool),
      s.hub.radUp s.fixed = true → s.hub.radState ≠ 0 → s.hub.radState < 4 → ∃ t,
        exec (.xclkOscillatorStep up) s = .next t ∧
        t.hub.rad.xtrim = (if up then s.hub.rad.xtrim + 1 else s.hub.rad.xtrim - 1) ∧
        (∀ a, a ≠ 0x30 → t.hub.reg a = s.hub.reg a)) ∧
    -- XCLK_OSCILLATOR_STEP in SLEEP, RX or TX
    (∀ (s : State) (up : Bool),
      (s.hub.radState = 0 ∨ 4 ≤ s.hub.radState) → ∃ t,
        exec (.xclkOscillatorStep up) s = .next t ∧ t.hub.rad = s.hub.rad ∧
        (∀ a, a ≠ 0x30 → t.hub.reg a = s.hub.reg a)) ∧
    -- RADIO_HANG with no recovery running: a RADIO recovery
    (∀ (s : State) (c : RadCmd),
      s.hub.radUp s.fixed = true → s.hub.rad.cmd = some c → s.hub.flt.recs = [] → ∃ t,
        exec .radioHang s = .next t ∧ t.hub.rd fHltFltLastCode = 0x60 ∧ t.hub.rd fHltFltLastScope = 6 ∧
        t.hub.flt.recs.any (fun r => r.scope == 6) = true ∧ t.hub.rad.cmd = none ∧ t.hub.radState = 0 ∧
        t.hub.rad.synth = s.hub.rad.synth ∧ t.hub.cells = s.hub.cells) ∧
    -- RADIO_HANG with no command running
    (∀ (s : State),
      s.hub.rad.cmd = none → ∃ t,
        exec .radioHang s = .next t ∧ t.hub.rad = s.hub.rad ∧ (∀ a, a ≠ 0x30 → t.hub.reg a = s.hub.reg a))

/-- Slots, frames and nodes of the radio. In a BASE slot the beacon is sent, in an UP slot an admitted node is listened
to, in a DOWN slot its buffer is sent, and a slot of a node that is not admitted stays empty. A reception ends with its
window or its slot, a frame still arriving cut and counted, and a transmission still being sent aborted; after the last
slot the superframe is over. A frame in mode MANUAL is reported once; in an UP slot a node's data frame is counted and
shown, a repeated one counted as such, and one that fails its check counted. A JOIN is answered or counted as unknown;
an admitted node that stays silent is lost; a sample whose time has come leaves; a downlink needs a DOWN slot. Outside a
superframe or a reception these events change nothing. (R378, R379, R380, R381, R382, R383, R384, R385, R386) -/
def Obligations.RadioSlots : Prop :=
    -- SLOT_ACTION of the beacon's slot, the channel locked
    (∀ (s : State),
      s.hub.radUp s.fixed = true → s.hub.rad.sfOn = true → s.hub.rad.slot < s.hub.slotCount →
      s.hub.slotKind s.hub.rad.slot = 0 → s.hub.rad.cmd = none → s.hub.rad.cal = none → s.hub.supWarned = false →
      3 ≤ s.hub.radState → s.hub.lockNeedsCal (s.hub.slotChan s.hub.rad.slot) = false → ∃ t,
        exec .slotAction s = .next t ∧ t.hub.rad.slot = s.hub.rad.slot + 1 ∧ t.hub.radState = 5 ∧
        t.hub.rad.cmd.map (fun c => (c.op, c.node, c.beacon, c.tdma, c.chan)) = some (3, 0, true, true, s.hub.slotChan s.hub.rad.slot) ∧
        t.hub.rad.cmd.map (fun c => c.bytes.take 1) = some [1#8]) ∧
    -- SLOT_ACTION of an UP slot of an admitted node
    (∀ (s : State),
      s.hub.radUp s.fixed = true → s.hub.rad.sfOn = true → s.hub.rad.slot < s.hub.slotCount →
      s.hub.slotKind s.hub.rad.slot = 1 → s.hub.nodeState (s.hub.slotNode s.hub.rad.slot) = 1 → s.hub.rad.cmd = none →
      s.hub.rad.cal = none → s.hub.slotLocked (s.hub.slotChan s.hub.rad.slot) = true → ∃ t,
        exec .slotAction s = .next t ∧ t.hub.rad.slot = s.hub.rad.slot + 1 ∧ t.hub.radState = 4 ∧
        t.hub.rad.rx = s.hub.slotNode s.hub.rad.slot ∧ t.hub.rad.chan = s.hub.slotChan s.hub.rad.slot) ∧
    -- SLOT_ACTION of an UP or DOWN slot of a node that is not admitted
    (∀ (s : State),
      s.hub.radUp s.fixed = true → s.hub.rad.sfOn = true → s.hub.rad.slot < s.hub.slotCount →
      (s.hub.slotKind s.hub.rad.slot = 1 ∨ s.hub.slotKind s.hub.rad.slot = 2) →
      s.hub.nodeState (s.hub.slotNode s.hub.rad.slot) ≠ 1 → ∃ t,
        exec .slotAction s = .next t ∧ t.hub.rad = { s.hub.rad with slot := s.hub.rad.slot + 1 } ∧
        (∀ a, a ≠ 0x30 → t.hub.reg a = s.hub.reg a)) ∧
    -- SLOT_ACTION of an ADMIT slot
    (∀ (s : State),
      s.hub.radUp s.fixed = true → s.hub.rad.sfOn = true → s.hub.rad.slot < s.hub.slotCount →
      s.hub.slotKind s.hub.rad.slot = 3 → s.hub.rad.cmd = none → s.hub.rad.cal = none →
      s.hub.slotLocked (s.hub.slotChan s.hub.rad.slot) = true → ∃ t,
        exec .slotAction s = .next t ∧ t.hub.rad.slot = s.hub.rad.slot + 1 ∧ t.hub.radState = 4 ∧ t.hub.rad.rx = 49) ∧
    -- SLOT_ACTION outside a superframe or behind its last slot
    (∀ (s : State),
      (s.hub.rad.sfOn = false ∨ s.hub.slotCount ≤ s.hub.rad.slot) → ∃ t,
        exec .slotAction s = .next t ∧ t.hub.rad = s.hub.rad ∧ t.hub.cyc = s.hub.cyc ∧
        (∀ a, a ≠ 0x30 → t.hub.reg a = s.hub.reg a)) ∧
    -- SLOT_ACTION of a DOWN slot of an admitted node that asks for it
    (∀ (s : State),
      s.hub.radUp s.fixed = true → s.hub.rad.sfOn = true → s.hub.rad.slot < s.hub.slotCount →
      s.hub.slotKind s.hub.rad.slot = 2 → s.hub.nodeState (s.hub.slotNode s.hub.rad.slot) = 1 →
      (s.hub.node (s.hub.slotNode s.hub.rad.slot)).want = true → s.hub.rad.cmd = none → s.hub.rad.cal = none →
      s.hub.supWarned = false → 3 ≤ s.hub.radState → s.hub.lockNeedsCal (s.hub.slotChan s.hub.rad.slot) = false → ∃ t,
        exec .slotAction s = .next t ∧ t.hub.rad.slot = s.hub.rad.slot + 1 ∧ t.hub.radState = 5 ∧
        t.hub.rad.cmd.map (fun c => (c.op, c.node, c.bytes)) = some (3, s.hub.slotNode s.hub.rad.slot, cmdFrame (s.hub.slotNode s.hub.rad.slot) (s.hub.downBytes (s.hub.slotNode s.hub.rad.slot)))) ∧
    -- RX_WINDOW_END of a slot's reception
    (∀ (s : State),
      s.hub.radUp s.fixed = true → s.hub.rad.rx ≠ 0 → s.hub.rad.rx ≠ 50 → ∃ t,
        exec .rxWindowEnd s = .next t ∧ t.hub.rad.rx = 0 ∧
        t.hub.radState = (if 4 ≤ s.hub.radState then 3 else s.hub.radState) ∧ t.hub.rad.node = s.hub.rad.node) ∧
    -- RX_WINDOW_END with no reception of a slot
    (∀ (s : State),
      (s.hub.rad.rx = 0 ∨ s.hub.rad.rx = 50) → ∃ t,
        exec .rxWindowEnd s = .next t ∧ t.hub.rad = s.hub.rad ∧ (∀ a, a ≠ 0x30 → t.hub.reg a = s.hub.reg a)) ∧
    -- SLOT_END of an UP slot that is not the last, nothing being sent
    (∀ (s : State) (arriving : Bool),
      s.hub.radUp s.fixed = true → s.hub.rad.sfOn = true → s.hub.rad.cmd = none → 1 ≤ s.hub.rad.rx →
      s.hub.rad.rx ≤ 48 → s.hub.rad.slot ≠ 0 → s.hub.rad.slot < s.hub.slotCount → ∃ t,
        exec (.slotEnd arriving) s = .next t ∧ t.hub.rad.rx = 0 ∧
        t.hub.radState = (if 4 ≤ s.hub.radState then 3 else s.hub.radState) ∧
        t.hub.rd (fRadNCntRxCut (s.hub.rad.rx - 1)) = (if arriving then satTo 8 (s.hub.rd (fRadNCntRxCut (s.hub.rad.rx - 1)) + 1) else s.hub.rd (fRadNCntRxCut (s.hub.rad.rx - 1))) ∧
        t.hub.rad.slot = s.hub.rad.slot) ∧
    -- SLOT_END with a transmission of the slot still being sent, no reception, not the last slot
    (∀ (s : State) (arriving : Bool) (c : RadCmd),
      s.hub.radUp s.fixed = true → s.hub.rad.sfOn = true → s.hub.rad.slot ≠ 0 → s.hub.rad.slot < s.hub.slotCount →
      s.hub.rad.cmd = some c → c.op = 3 → c.tdma = true → s.hub.rad.held = none → s.hub.rad.rx = 0 → ∃ t,
        exec (.slotEnd arriving) s = .next t ∧ t.hub.is fRadStatusTxAbort = true ∧ t.hub.rd fRadAbortReason = 3 ∧
        t.hub.rad.cmd = none ∧ t.hub.radState = (if 4 ≤ s.hub.radState then 3 else s.hub.radState)) ∧
    -- SLOT_END of the last slot, nothing being sent: the superframe is over
    (∀ (s : State) (arriving : Bool),
      s.hub.radUp s.fixed = true → s.hub.rad.sfOn = true → s.hub.rad.slot ≠ 0 → s.hub.slotCount ≤ s.hub.rad.slot →
      s.hub.rad.cmd = none → ∃ t,
        exec (.slotEnd arriving) s = .next t ∧ t.hub.rad.sfOn = false ∧ t.hub.rad.rx = 0 ∧
        t.hub.rad.slot = s.hub.rad.slot) ∧
    -- SLOT_END outside a slot
    (∀ (s : State) (arriving : Bool),
      (s.hub.rad.sfOn = false ∨ s.hub.rad.slot = 0) → ∃ t,
        exec (.slotEnd arriving) s = .next t ∧ t.hub.rad = s.hub.rad ∧ t.hub.cyc = s.hub.cyc ∧
        (∀ a, a ≠ 0x30 → t.hub.reg a = s.hub.reg a)) ∧
    -- RADIO_FRAME_RECEIVED in mode MANUAL
    (∀ (s : State) (f : RadFrame),
      s.hub.radUp s.fixed = true → s.hub.radState = 4 → s.hub.rad.rx = 50 → s.hub.rad.held = none →
      s.hub.is fRadStatusRxDone = false → ∃ t,
        exec (.radioFrameReceived f) s = .next t ∧ t.hub.is fRadStatusRxDone = true ∧
        t.hub.rd fRadRxinfoLen = f.bytes.length % 256 ∧ t.hub.is fRadRxinfoCrcOk = f.fcsOk ∧
        t.hub.rd fRadRxinfoRssi = f.rssi.toNat ∧ t.hub.rd fRadRxinfoLqi = f.lqi.toNat ∧ t.hub.rad.cmd = none ∧
        t.hub.rad.rx = 0 ∧ t.hub.radState = 3) ∧
    -- RADIO_FRAME_RECEIVED in mode MANUAL while `rx_done` is set: not reported
    (∀ (s : State) (f : RadFrame),
      s.hub.radUp s.fixed = true → s.hub.radState = 4 → s.hub.rad.rx = 50 → s.hub.rad.held = none →
      s.hub.is fRadStatusRxDone = true → ∃ t,
        exec (.radioFrameReceived f) s = .next t ∧ t.hub.reg (fRadRxinfoLen).addr = s.hub.reg (fRadRxinfoLen).addr ∧
        t.hub.rad.cmd = none ∧ t.hub.rad.rx = 0 ∧ t.hub.radState = 3) ∧
    -- RADIO_FRAME_RECEIVED in an UP slot, the first since admission
    (∀ (s : State) (f : RadFrame) (n : Fin 48),
      s.hub.radUp s.fixed = true → s.hub.radState = 4 → s.hub.rad.rx = n.val + 1 → f.fcsOk = true →
      isDataOf (n.val + 1) s.hub.rad.phy f.bytes = true → (s.hub.node (n.val + 1)).heard = false → ∃ t,
        exec (.radioFrameReceived f) s = .next t ∧
        t.hub.rd (fRadNCnt2Frames n) = (s.hub.rd (fRadNCnt2Frames n) + 1) % 65536 ∧
        t.hub.rd (fRadNStSeq n) = octetsAt f.bytes 2 1 ∧ t.hub.rd (fRadNStRssi n) = f.rssi.toNat ∧
        (t.hub.node (n.val + 1)).heard = true ∧ t.hub.rad.heard = s.hub.rad.heard ++ [n.val + 1]) ∧
    -- RADIO_FRAME_RECEIVED in an UP slot, a repeated frame
    (∀ (s : State) (f : RadFrame) (n : Fin 48),
      s.hub.radUp s.fixed = true → s.hub.radState = 4 → s.hub.rad.rx = n.val + 1 → f.fcsOk = true →
      isDataOf (n.val + 1) s.hub.rad.phy f.bytes = true → (s.hub.node (n.val + 1)).heard = true →
      octetsAt f.bytes 2 1 = s.hub.rd (fRadNStSeq n) → ∃ t,
        exec (.radioFrameReceived f) s = .next t ∧ t.hub.rd (fRadNCntDup n) = satTo 8 (s.hub.rd (fRadNCntDup n) + 1) ∧
        t.hub.rad = s.hub.rad) ∧
    -- RADIO_FRAME_RECEIVED in an UP slot that is no data frame of its node: discarded
    (∀ (s : State) (f : RadFrame) (n : Fin 48),
      s.hub.radUp s.fixed = true → s.hub.radState = 4 → s.hub.rad.rx = n.val + 1 → f.fcsOk = true →
      isDataOf (n.val + 1) s.hub.rad.phy f.bytes = false → ∃ t,
        exec (.radioFrameReceived f) s = .next t ∧ t.hub.rad = s.hub.rad ∧ (∀ a, a ≠ 0x30 → t.hub.reg a = s.hub.reg a)) ∧
    -- RADIO_FRAME_RECEIVED and JOIN_RECEIVED outside RX
    (∀ (s : State) (f : RadFrame),
      s.hub.radState ≠ 4 → ∃ t,
        exec (.radioFrameReceived f) s = .next t ∧ exec (.joinReceived f) s = .next t ∧ t.hub.rad = s.hub.rad ∧
        (∀ a, a ≠ 0x30 → t.hub.reg a = s.hub.reg a)) ∧
    -- RADIO_FRAME_RECEIVED in an UP slot whose check fails
    (∀ (s : State) (f : RadFrame) (n : Fin 48),
      s.hub.radUp s.fixed = true → s.hub.radState = 4 → s.hub.rad.rx = n.val + 1 → f.fcsOk = false → ∃ t,
        exec (.radioFrameReceived f) s = .next t ∧ t.hub.rd (fRadNCntCrc n) = satTo 8 (s.hub.rd (fRadNCntCrc n) + 1) ∧
        t.hub.rad = s.hub.rad) ∧
    -- JOIN_RECEIVED of a known node while no answer waits
    (∀ (s : State) (f : RadFrame) (n : Nat),
      s.hub.radUp s.fixed = true → s.hub.radState = 4 → s.hub.rad.rx = 49 → f.fcsOk = true →
      octetsAt f.bytes 0 1 = 4 →
      (List.range 49).find? (fun n => decide (0 < n) && w32 (octetsAt f.bytes 1 4) != 0#32 && s.hub.cell 12 n 0 == w32 (octetsAt f.bytes 1 4)) = some n →
      s.hub.rad.answer = none → ∃ t,
        exec (.joinReceived f) s = .next t ∧ t.hub.rad.answer = some (w32 (octetsAt f.bytes 1 4), n) ∧
        (s.hub.nodeState n = 1 → t.hub.rd fRadJoinRejoin = satTo 16 (s.hub.rd fRadJoinRejoin + 1) ∧ (t.hub.node n).buf = [] ∧ (t.hub.node n).gaps = s.hub.nodeCtxs n)) ∧
    -- JOIN_RECEIVED of an unknown node
    (∀ (s : State) (f : RadFrame),
      s.hub.radUp s.fixed = true → s.hub.radState = 4 → s.hub.rad.rx = 49 → f.fcsOk = true →
      octetsAt f.bytes 0 1 = 4 →
      (List.range 49).find? (fun n => decide (0 < n) && w32 (octetsAt f.bytes 1 4) != 0#32 && s.hub.cell 12 n 0 == w32 (octetsAt f.bytes 1 4)) = none →
      ∃ t,
        exec (.joinReceived f) s = .next t ∧ t.hub.rd fRadJoinUnknown = satTo 16 (s.hub.rd fRadJoinUnknown + 1) ∧
        t.hub.rd fRadJoinIdJoinId = octetsAt f.bytes 1 4 % 2 ^ 32 ∧ t.hub.is fRadStatusJoinUnknown = true ∧
        t.hub.rad = s.hub.rad) ∧
    -- NODE_LOST of an admitted node that has missed its superframes
    (∀ (s : State) (n : Fin 48),
      s.hub.radUp s.fixed = true → s.hub.radUp s.fixed = true → s.hub.nodeState (n.val + 1) = 1 →
      s.hub.cf 12 (n.val + 1) 1 0 8 ≤ (s.hub.node (n.val + 1)).miss → ∃ t,
        exec (.nodeLost n) s = .next t ∧ t.hub.rd (fRadNStState n) = 2 ∧ t.hub.is fRadStatusNodeLost = true ∧
        (t.hub.node (n.val + 1)).gaps = s.hub.nodeCtxs (n.val + 1)) ∧
    -- NODE_LOST of a node not admitted, or that has missed fewer
    (∀ (s : State) (n : Fin 48),
      (s.hub.nodeState (n.val + 1) ≠ 1 ∨ (s.hub.node (n.val + 1)).miss < s.hub.cf 12 (n.val + 1) 1 0 8) → ∃ t,
        exec (.nodeLost n) s = .next t ∧ t.hub.rad = s.hub.rad ∧ (∀ a, a ≠ 0x30 → t.hub.reg a = s.hub.reg a)) ∧
    -- RADIO_SAMPLE_RELEASE of the oldest-due sample at a time its timebase has reached
    (∀ (s : State) (n : Fin 48) (i : Nat) (x : NodeSamp),
      firstDue (s.hub.node (n.val + 1)).buf = some i → (s.hub.node (n.val + 1)).buf[i]? = some x →
      x.due * 2 ^ 32 ≤ s.hub.tbVal s.hub.radTb → ∃ t,
        exec (.radioSampleRelease n) s = .next t ∧
        (t.hub.node (n.val + 1)).buf = (s.hub.node (n.val + 1)).buf.eraseIdx i ∧
        NMap.get (t.hub.node (n.val + 1)).last x.chan = x.due + 1 ∧ t.hub.cyc = s.hub.cyc) ∧
    -- RADIO_SAMPLE_RELEASE of an empty buffer
    (∀ (s : State) (n : Fin 48),
      (s.hub.node (n.val + 1)).buf = [] → ∃ t,
        exec (.radioSampleRelease n) s = .next t ∧ t.hub.rad = s.hub.rad ∧ t.hub.cyc = s.hub.cyc ∧
        (∀ a, a ≠ 0x30 → t.hub.reg a = s.hub.reg a)) ∧
    -- DCTL_READY
    (∀ (s : State) (n : Fin 48),
      s.hub.answers s.fixed s.met .rad (0x1E108C + 0x80 * n) = true → s.hub.radUp s.fixed = true → ∃ t,
        exec (.dctlReady n) s = .next t ∧
        (s.hub.hasDown (n.val + 1) = true → t.hub.is (fRadNDctlReady n) = true ∧ (t.hub.node (n.val + 1)).want = true) ∧
        (s.hub.hasDown (n.val + 1) = false → t.hub.is (fRadNDctlNoSlot n) = true ∧ t.hub.rad = s.hub.rad) ∧
        (∀ a, a ≠ 0x30 ∧ a ≠ rRadNDctl n → t.hub.reg a = s.hub.reg a))

/-- The partition's samples, its rotating calibration and severity. A conversion of an enabled channel puts its sample,
with value, tags and time, in the FIFO to the fabric, or marks a gap, and the FIFO releases its oldest word; a rotation
step takes the next channel, a BAD spare ends the rotation, a seam within its limits hands the channel over, one beyond
them is refused once and forced the second time; a severity second is reported with its flags and an interval becomes a
record where the log has room. Where a command meets a channel, a step or a word it does not concern, nothing changes.
The rounding of the gain's product is the model's choice (log entry 119). (R398, R399, R400, R401, R402, R403, R404,
R405, R406, R407) -/
def Obligations.Measurement : Prop :=
    -- MET_SAMPLE with room in the FIFO: its value, its tags and its time
    (∀ (s : State) (ch : Fin 8) (v : BitVec 24) (ovr dip : Bool) (mclk : BitVec 32),
      s.fixed.variant.hasMet = true → s.met.chOn ch = true → s.hub.clk.gates = true → s.hub.recovering 7 0 = false →
      s.hub.metFifo.length < 16 → ∃ t,
        exec (.metSample ch v ⟨ovr, dip⟩ mclk) s = .next t ∧ t.hub.metFifo.dropLast = s.hub.metFifo ∧
        (t.hub.metFifo.getLast?).map (fun w => (w.ch, w.cyc, w.diff)) = some (ch.val, s.hub.cyc, (report (s.hub.tbVal 16) : Int) - report (s.hub.tbVal 17)) ∧
        (-8388608 ≤ gained (w32 (s.met.cf ch 3 0 32)) v → gained (w32 (s.met.cf ch 3 0 32)) v ≤ 8388607 → (t.hub.metFifo.getLast?).map (fun w => w.samp.val) = some (BitVec.ofInt 24 (gained (w32 (s.met.cf ch 3 0 32)) v))) ∧
        (8388607 < gained (w32 (s.met.cf ch 3 0 32)) v → (t.hub.metFifo.getLast?).map (fun w => w.samp.val) = some 0x7FFFFF#24) ∧
        (gained (w32 (s.met.cf ch 3 0 32)) v < -8388608 → (t.hub.metFifo.getLast?).map (fun w => w.samp.val) = some 0x800000#24) ∧
        ((t.hub.metFifo.getLast?).map (fun w => (w.samp.has tSettle, w.samp.has tCal, w.samp.has tSat, w.samp.has tDip, w.samp.has tGap)) = some (decide ((NMap.get s.met.ch ch).settle ≠ 0), s.met.calCh == some ch.val, ovr || decide (gained (w32 (s.met.cf ch 3 0 32)) v < -8388608 ∨ 8388607 < gained (w32 (s.met.cf ch 3 0 32)) v), dip, (NMap.get s.met.ch ch).gap || s.hub.metGap.contains ch.val)) ∧
        t.met.val = (s.met.val + s.met.incr * mclk.toNat * 65536) % tbWrap ∧
        (t.hub.metFifo.getLast?).map (fun w => w.samp.time) = some (Sys2Proof.Machine.report t.met.val) ∧
        (NMap.get t.met.ch ch).settle = (NMap.get s.met.ch ch).settle - 1 ∧ (NMap.get t.met.ch ch).gap = false ∧
        (∀ c : Fin 8, c ≠ ch → NMap.get t.met.ch c = NMap.get s.met.ch c) ∧ t.hub.metGap.contains ch.val = false ∧
        (∀ a, a ≠ 0x30 → t.hub.reg a = s.hub.reg a)) ∧
    -- MET_SAMPLE that meets a full FIFO, a recovery of the fabric, or closed clocks: discarded, the channel's next sample carries GAP
    (∀ (s : State) (ch : Fin 8) (v : BitVec 24) (ovr dip : Bool) (mclk : BitVec 32),
      s.fixed.variant.hasMet = true → s.met.chOn ch = true →
      (16 ≤ s.hub.metFifo.length ∨ s.hub.recovering 7 0 = true ∨ s.hub.clk.gates = false) → ∃ t,
        exec (.metSample ch v ⟨ovr, dip⟩ mclk) s = .next t ∧ t.hub.metFifo = s.hub.metFifo ∧
        t.hub.metGap.contains ch.val = true ∧ t.met.val = (s.met.val + s.met.incr * mclk.toNat * 65536) % tbWrap ∧
        (NMap.get t.met.ch ch).settle = (NMap.get s.met.ch ch).settle - 1) ∧
    -- MET_SAMPLE of a channel that does not convert
    (∀ (s : State) (ch : Fin 8) (v : BitVec 24) (ovr dip : Bool) (mclk : BitVec 32),
      (s.fixed.variant.hasMet = false ∨ s.met.chOn ch = false) → ∃ t,
        exec (.metSample ch v ⟨ovr, dip⟩ mclk) s = .next t ∧ t.met = s.met ∧ t.hub.metFifo = s.hub.metFifo ∧
        t.hub.metGap = s.hub.metGap ∧ (∀ a, a ≠ 0x30 → t.hub.reg a = s.hub.reg a)) ∧
    -- MET_SAMPLE_RELEASE, at the earliest 118 TCLK cycles after its arrival, to every context fed by the channel
    (∀ (s : State) (ch : Fin 8) (w : MetWord) (rest : List MetWord),
      s.hub.metFifo = w :: rest → w.ch = ch.val → w.cyc + 118 ≤ s.hub.cyc → ∃ t,
        exec (.metSampleRelease ch) s = .next t ∧ t.hub.metFifo = rest ∧ t.hub.cyc = s.hub.cyc ∧ t.met = s.met ∧
        t.hub = latchIrq s.hub s.met (({ s.hub with metFifo := rest } : Hub).metDeliver w) s.met) ∧
    -- MET_SAMPLE_RELEASE with no context of the partition's channels in use: the word goes, TCLK having run on where it was early
    (∀ (s : State) (ch : Fin 8) (w : MetWord) (rest : List MetWord),
      s.hub.metFifo = w :: rest → w.ch = ch.val → (∀ u ∈ s.hub.usedUnits 5, ¬(32 ≤ u ∧ s.hub.cf 5 u 0 1 3 = 4)) → ∃ t,
        exec (.metSampleRelease ch) s = .next t ∧ t.hub.metFifo = rest ∧
        (t.hub.cyc = max s.hub.cyc (w.cyc + 118) ∨ s.hub.clk.gates = false) ∧ t.hub.ctx = s.hub.ctx ∧ t.met = s.met) ∧
    -- MET_SAMPLE_RELEASE where the oldest word is not of the channel, or none waits
    (∀ (s : State) (ch : Fin 8),
      (s.hub.metFifo.head?).map (fun w => w.ch) ≠ some ch.val → ∃ t,
        exec (.metSampleRelease ch) s = .next t ∧ t.met = s.met ∧ t.hub.metFifo = s.hub.metFifo ∧
        (∀ a, a ≠ 0x30 → t.hub.reg a = s.hub.reg a)) ∧
    -- ROTATION_STEP_START
    (∀ (s : State) (c : Fin 8),
      s.fixed.variant.hasMet = true → s.met.stopped = false → s.met.phase = 0 → s.met.warn = 0 →
      s.met.rotFrom s.met.nextCh = some c.val → ∃ t,
        exec .rotationStepStart s = .next t ∧ t.met.phase = 1 ∧ t.met.rd fMetRotChan = c ∧ t.met.nextCh = c ∧
        (∀ a, a ≠ rMetRot → t.met.reg a = s.met.reg a)) ∧
    -- ROTATION_STEP_START while a step runs, a rail is low, the rotation is stopped or no channel is in rotation
    (∀ (s : State),
      (s.fixed.variant.hasMet = false ∨ s.met.stopped = true ∨ s.met.phase ≠ 0 ∨ s.met.warn ≠ 0 ∨ s.met.rotFrom s.met.nextCh = none) →
      ∃ t,
        exec .rotationStepStart s = .next t ∧ t.met = s.met ∧ (∀ a, a ≠ 0x30 → t.hub.reg a = s.hub.reg a)) ∧
    -- SPARE_CALIBRATION_DONE
    (∀ (s : State) (offset gain : BitVec 24),
      s.met.phase = 1 → ∃ t,
        exec (.spareCalibrationDone offset gain) s = .next t ∧
        (offset.toInt.natAbs ≤ 41943 → gain.toInt.natAbs ≤ 20000 → t.met.phase = 2 ∧ NMap.get t.met.corr (s.met.rd fMetRotSpare) = (offset.toInt, gain.toInt)) ∧
        (41943 < offset.toInt.natAbs ∨ 20000 < gain.toInt.natAbs → t.met.corr = s.met.corr ∧ t.met.phase = 0 ∧ t.met.stopped = true ∧ t.met.bad = s.met.bad ||| 2 ^ s.met.rd fMetRotSpare ∧ t.met.is fMetStatusRotStop = true) ∧
        t.met.cells = s.met.cells) ∧
    -- SPARE_CALIBRATION_DONE while no spare calibrates
    (∀ (s : State) (offset gain : BitVec 24),
      s.met.phase ≠ 1 → ∃ t,
        exec (.spareCalibrationDone offset gain) s = .next t ∧ t.met = s.met ∧
        (∀ a, a ≠ 0x30 → t.hub.reg a = s.hub.reg a)) ∧
    -- SEAM_EVALUATION within both limits: the handover
    (∀ (s : State) (pairs : List (BitVec 24 × BitVec 24)),
      s.met.phase = 2 → (seamOf pairs).1.natAbs ≤ s.met.cf (s.met.rd fMetRotChan) 2 0 16 →
      (seamOf pairs).2.all (fun g => decide (g.natAbs ≤ s.met.cf (s.met.rd fMetRotChan) 2 16 11)) = true → ∃ t,
        exec (.seamEvaluation pairs) s = .next t ∧ t.met.phase = 0 ∧
        t.met.rd (fMetChStConv (s.met.rd fMetRotChan)) = s.met.rd fMetRotSpare ∧
        t.met.rd fMetRotSpare = s.met.rd (fMetChStConv (s.met.rd fMetRotChan)) ∧
        (NMap.get t.met.ch (s.met.rd fMetRotChan)).refused = 0 ∧
        t.met.reg (rMetChSeam (s.met.rd fMetRotChan)) = seamEntry (s.met.rd fMetRotChan) false (seamOf pairs).1 (seamOf pairs).2) ∧
    -- SEAM_EVALUATION beyond a limit, the first time: refused
    (∀ (s : State) (pairs : List (BitVec 24 × BitVec 24)),
      s.met.phase = 2 →
      (s.met.cf (s.met.rd fMetRotChan) 2 0 16 < (seamOf pairs).1.natAbs ∨ (seamOf pairs).2.any (fun g => decide (s.met.cf (s.met.rd fMetRotChan) 2 16 11 < g.natAbs)) = true) →
      (NMap.get s.met.ch (s.met.rd fMetRotChan)).refused = 0 → ∃ t,
        exec (.seamEvaluation pairs) s = .next t ∧ t.met.phase = 0 ∧
        t.met.rd (fMetChStConv (s.met.rd fMetRotChan)) = s.met.rd (fMetChStConv (s.met.rd fMetRotChan)) ∧
        t.met.rd fMetRotSpare = s.met.rd fMetRotSpare ∧ (NMap.get t.met.ch (s.met.rd fMetRotChan)).refused = 1 ∧
        t.met.is fMetStatusSeamRef = true ∧ t.met.rd fMetRot2Refused = (s.met.rd fMetRot2Refused + 1) % 256) ∧
    -- SEAM_EVALUATION beyond a limit, the second time: forced
    (∀ (s : State) (pairs : List (BitVec 24 × BitVec 24)),
      s.met.phase = 2 →
      (s.met.cf (s.met.rd fMetRotChan) 2 0 16 < (seamOf pairs).1.natAbs ∨ (seamOf pairs).2.any (fun g => decide (s.met.cf (s.met.rd fMetRotChan) 2 16 11 < g.natAbs)) = true) →
      (NMap.get s.met.ch (s.met.rd fMetRotChan)).refused ≠ 0 → ∃ t,
        exec (.seamEvaluation pairs) s = .next t ∧ t.met.phase = 0 ∧
        t.met.rd (fMetChStConv (s.met.rd fMetRotChan)) = s.met.rd fMetRotSpare ∧
        t.met.rd fMetRotSpare = s.met.rd (fMetChStConv (s.met.rd fMetRotChan)) ∧
        (NMap.get t.met.ch (s.met.rd fMetRotChan)).suspect = 2 ∧
        (NMap.get t.met.ch (s.met.rd fMetRotChan)).refused = 0 ∧ t.met.is fMetStatusSeamRef = true ∧
        t.met.rd fMetRot2Forced = (s.met.rd fMetRot2Forced + 1) % 256) ∧
    -- SEAM_EVALUATION with no parallel run
    (∀ (s : State) (pairs : List (BitVec 24 × BitVec 24)),
      s.met.phase ≠ 2 → ∃ t,
        exec (.seamEvaluation pairs) s = .next t ∧ t.met = s.met ∧ (∀ a, a ≠ 0x30 → t.hub.reg a = s.hub.reg a)) ∧
    -- SEVERITY_SECOND of a channel with a range
    (∀ (s : State) (ch : Fin 8) (v : BitVec 32),
      s.met.sevOn ch = true → ∃ t,
        exec (.severitySecond ch v) s = .next t ∧
        t.met.reg (rMetChV ch) = (if (NMap.get s.met.ch ch).got then v else 0#32) ∧
        t.met.rd (fMetChSecsSecs ch) = (s.met.rd (fMetChSecsSecs ch) + 1) % 2 ^ 32 ∧
        (NMap.get t.met.ch ch).age = (NMap.get s.met.ch ch).age + 1 ∧ (NMap.get t.met.ch ch).tags = 0#8 ∧
        (NMap.get t.met.ch ch).got = false ∧ t.met.rd (fMetChStFlags ch) % 2 = b2n (NMap.get s.met.ch ch).got ∧
        t.met.rd (fMetChStFlags ch) / 2 % 2 = b2n (decide ((NMap.get s.met.ch ch).age < (if s.met.cf ch 0 4 2 = 1 then 2 else 10))) ∧
        t.met.rd (fMetChStFlags ch) / 32 % 2 = b2n (decide ((NMap.get s.met.ch ch).suspect ≠ 0)) ∧
        t.met.log = s.met.log) ∧
    -- SEVERITY_SECOND of a channel without a range
    (∀ (s : State) (ch : Fin 8) (v : BitVec 32),
      s.met.sevOn ch = false → ∃ t,
        exec (.severitySecond ch v) s = .next t ∧ t.met = s.met ∧ (∀ a, a ≠ 0x30 → t.hub.reg a = s.hub.reg a)) ∧
    -- SEVERITY_INTERVAL_END
    (∀ (s : State),
      s.met.measures = true → ∃ t,
        exec .severityIntervalEnd s = .next t ∧
        (∀ c : Fin 8, (NMap.get t.met.ch c).vsum = 0 ∧ (NMap.get t.met.ch c).vcnt = 0 ∧ (NMap.get t.met.ch c).suspect = (NMap.get s.met.ch c).suspect - 1) ∧
        (∀ c : Fin 8, (NMap.get t.met.ch c).age = (NMap.get s.met.ch c).age ∧ (NMap.get t.met.ch c).got = (NMap.get s.met.ch c).got) ∧
        t.met.cells = s.met.cells ∧ t.met.phase = s.met.phase ∧
        (s.met.slots ≤ 8 → t.met.log = s.met.log ∧ t.met.is fMetStatusEvFull = true)) ∧
    -- SEVERITY_INTERVAL_END with room in the log: its record
    (∀ (s : State),
      s.met.measures = true → s.met.lost = 0 → 8 < s.met.slots → ∃ t,
        exec .severityIntervalEnd s = .next t ∧ t.met.rd fMetLidNextNext = (s.met.rd fMetLidNextNext + 1) % 2 ^ 32 ∧
        fieldOf ((NMap.get t.met.log (s.met.rd fMetLidNextNext % 8128)).getD 0 0#32) 24 8 = 9 ∧
        (∀ i : Fin 4, (NMap.get t.met.log (s.met.rd fMetLidNextNext % 8128)).getD (5 + i) 0#32 = w32 (sevV (NMap.get s.met.ch (2 * i)) * 65536 + sevV (NMap.get s.met.ch (2 * i + 1)))) ∧
        t.met.cells = s.met.cells) ∧
    -- SEVERITY_INTERVAL_END of a partition that does not measure
    (∀ (s : State),
      s.met.measures = false → ∃ t,
        exec .severityIntervalEnd s = .next t ∧ t.met = s.met ∧ (∀ a, a ≠ 0x30 → t.hub.reg a = s.hub.reg a))

/-- The partition's timebase, its copy, alignment and reset. The increment takes the offset from tb_net out within ±200
ppm; the hub's copy is steered to meet tb_met within its range and taken anew after a POR; the first alignment pulse
restarts the converters and is recorded, later ones measure; MPOR clears the configuration, tb_met and BAD, counts
itself, and the hub reads the life-cycle state again; a FERAM_SCAN publishes its result. Where the conditions do not
hold nothing changes. (R408, R409, R410, R411, R412, R419, R428, R461, R470) -/
def Obligations.PartitionTime : Prop :=
    -- FOLLOW_NET_ADJUST
    (∀ (s : State),
      s.fixed.variant.hasMet = true → s.met.up = true → s.met.outcome ≠ 0 → s.met.cf 9 0 11 1 = 1 →
      s.met.netStep = true → s.hub.metFollows = true → ∃ t,
        exec .followNetAdjust s = .next t ∧
        (t.met.incr : Int) = max ((metNominal - metNominal * 200 / 1000000 : Nat) : Int) (min ((metNominal + metNominal * 200 / 1000000 : Nat) : Int) ((metNominal : Int) - (2 * ((s.hub.tbMet : Int) - s.hub.tbVal 16) + 20480000 * 65536) / (2 * (20480000 * 65536)))) ∧
        t.met.val = s.met.val ∧ t.met.log = s.met.log ∧ (∀ a, a ≠ 0x30 → t.hub.reg a = s.hub.reg a)) ∧
    -- FOLLOW_NET_ADJUST where R410 does not hold: without follow_net or a NET step, unconfigured, or without the follower
    (∀ (s : State),
      (s.fixed.variant.hasMet = false ∨ s.met.up = false ∨ s.met.outcome = 0 ∨ s.met.cf 9 0 11 1 ≠ 1 ∨ s.met.netStep = false ∨ s.hub.metFollows = false) →
      ∃ t,
        exec .followNetAdjust s = .next t ∧ t.met = s.met ∧ (∀ a, a ≠ 0x30 → t.hub.reg a = s.hub.reg a)) ∧
    -- FOLLOWER_STEER
    (∀ (s : State),
      s.fixed.variant.hasMet = true → s.met.up = true → s.hub.metFollows = true → ∃ t,
        exec .followerSteer s = .next t ∧
        (t.hub.tbIncr 17 : Int) = max 0x013FAE147B (min 0x014051EB85 ((((s.met.val + s.met.incr * 1024 * 65536 : Nat) : Int) - s.hub.tbMet) / (40000 * 65536))) ∧
        t.hub.tbMet = s.hub.tbMet ∧ t.met = s.met ∧
        (∀ a, a ≠ 0x30 ∧ a ≠ rTmTbIncHi 17 ∧ a ≠ rTmTbIncLo 17 → t.hub.reg a = s.hub.reg a)) ∧
    -- FOLLOWER_STEER of a copy that does not follow
    (∀ (s : State),
      (s.fixed.variant.hasMet = false ∨ s.met.up = false ∨ s.hub.metFollows = false) → ∃ t,
        exec .followerSteer s = .next t ∧ t.met = s.met ∧ t.hub.tbMet = s.hub.tbMet ∧
        (∀ a, a ≠ 0x30 → t.hub.reg a = s.hub.reg a)) ∧
    -- FOLLOWER_RELOAD after a hub POR
    (∀ (s : State),
      s.fixed.variant.hasMet = true → s.met.up = true → s.hub.metFollows = false →
      s.hub.is fClkStatusTimeLock = true → ∃ t,
        exec .followerReload s = .next t ∧ t.hub.metFollows = true ∧ t.hub.tbVal 17 = s.met.val ∧
        t.hub.lcState = s.met.rd fMetLidState ∧ t.hub.rd fGlbStatusLc = s.met.rd fMetLidState ∧ t.met = s.met) ∧
    -- FOLLOWER_RELOAD before the time PLL has locked, or of a copy that follows
    (∀ (s : State),
      (s.fixed.variant.hasMet = false ∨ s.met.up = false ∨ s.hub.metFollows = true ∨ s.hub.is fClkStatusTimeLock = false) →
      ∃ t,
        exec .followerReload s = .next t ∧ t.met = s.met ∧ t.hub.tbMet = s.hub.tbMet ∧
        (∀ a, a ≠ 0x30 → t.hub.reg a = s.hub.reg a)) ∧
    -- ALIGN_PULSE
    (∀ (s : State) (phase : BitVec 16),
      s.fixed.variant.hasMet = true → s.met.measures = true → s.met.cf 9 0 10 1 = 1 → ∃ t,
        exec (.alignPulse phase) s = .next t ∧
        (s.met.aligned = false → t.met.aligned = true ∧ t.met.phase = 0 ∧ t.met.phaseErr = 0) ∧
        (∀ c : Fin 8, s.met.aligned = false → s.met.chOn c = true → (NMap.get t.met.ch c).settle = 64 ∧ (NMap.get t.met.ch c).gap = true) ∧
        (s.met.aligned = false → s.met.lost = 0 → 8 < s.met.slots → fieldOf ((NMap.get t.met.log (s.met.rd fMetLidNextNext % 8128)).getD 0 0#32) 24 8 = 7 ∧ (NMap.get t.met.log (s.met.rd fMetLidNextNext % 8128)).getD 5 0#32 = phase.setWidth 32) ∧
        (s.met.aligned = true → t.met = { s.met with phaseErr := phase.toNat })) ∧
    -- ALIGN_PULSE without `align`, or of a partition that does not measure
    (∀ (s : State) (phase : BitVec 16),
      (s.fixed.variant.hasMet = false ∨ s.met.measures = false ∨ s.met.cf 9 0 10 1 ≠ 1) → ∃ t,
        exec (.alignPulse phase) s = .next t ∧ t.met = s.met ∧ (∀ a, a ≠ 0x30 → t.hub.reg a = s.hub.reg a)) ∧
    -- MPOR
    (∀ (s : State) (nmrst torn : Bool),
      s.fixed.variant.hasMet = true → ∃ t,
        exec (.mpor nmrst torn) s = .next t ∧ t.met.up = true ∧ t.met.outcome = 0 ∧ t.met.cells = [] ∧ t.met.val = 0 ∧
        t.met.incr = metNominal ∧ t.met.bad = 0 ∧ t.met.stopped = false ∧ t.met.seams = [] ∧
        t.met.is fMetStatusUnconf = true ∧ t.met.is fMetLidUsed = false ∧ t.met.rd fMetRotSpare = 8 ∧
        (∀ c : Fin 8, t.met.rd (fMetChStConv c) = c) ∧
        t.met.rd fMetLidMporMpor = (s.met.rd fMetLidMporMpor + 1) % 2 ^ 32 ∧ t.hub.tbVal 17 = 0 ∧
        t.hub.lcState = t.met.rd fMetLidState ∧
        (∀ a, a ≠ 0x30 ∧ tbMetReg a = false ∧ a ≠ fHltLcState.addr ∧ a ≠ fGlbStatusLc.addr → t.hub.reg a = s.hub.reg a)) ∧
    -- MPOR of a partition whose log has no record beyond the lid's
    (∀ (s : State) (nmrst torn : Bool),
      s.fixed.variant.hasMet = true →
      s.met.clear.chains (NMap.get s.met.log (s.met.rd fMetLidNextNext % 8128)) = false → s.met.seams = [] → ∃ t,
        exec (.mpor nmrst torn) s = .next t ∧ t.met.up = true ∧ t.met.outcome = 0 ∧ t.met.is fMetStatusUnconf = true ∧
        t.met.rd fMetLidMporMpor = (s.met.rd fMetLidMporMpor + 1) % 2 ^ 32 ∧
        t.met.rd fMetLidState = s.met.rd fMetLidState ∧ t.met.is fMetLidUsed = false ∧ t.hub.tbVal 17 = 0 ∧
        t.hub.lcState = s.met.rd fMetLidState) ∧
    -- MPOR and FERAM_SCAN of a hub without the partition
    (∀ (s : State) (nmrst torn : Bool) (r : StResult),
      s.fixed.variant.hasMet = false → ∃ t,
        exec (.mpor nmrst torn) s = .next t ∧ exec (.feramScan r) s = .next t ∧ t.met = s.met ∧
        (∀ a, a ≠ 0x30 → t.hub.reg a = s.hub.reg a)) ∧
    -- FERAM_SCAN
    (∀ (s : State) (r : StResult),
      s.fixed.variant.hasMet = true → ∃ t,
        exec (.feramScan r) s = .next t ∧
        t.hub.reg (rHltStDone 8) = doneWord (stResult r.fails.toNat r.sigBad 1 1) 4 0 1 r.fails.toNat ∧
        t.hub.is fHltStatusStDone = true ∧ t.hub.rd (fHltStFailFail 8) = r.first.toNat % 2 ^ 32 ∧ t.met = s.met)

/-- The partition's mailbox. A command whose conditions hold has its effect and ends OK with `done`, CALIBRATE at its
end; SEAL needs MLID_OPEN high, a LOADED configuration, room, a counter below its maximum and the digest of the
configuration held. One whose conditions do not hold ends with its code, BUSY, STATE, LID, DIGEST, USED, FULL, ARG,
UNCONF, AUDIT_MAX or OP, and acts on nothing; a running command goes on. While the partition does not answer a command
does nothing. (R405, R409, R418, R422, R423, R424, R425, R426, R427, R436) -/
def Obligations.Mailbox : Prop :=
    -- MB_SET_TIME with a time of the host, or of tb_net
    (∀ (s : State),
      s.hub.answers s.fixed s.met .met 0x800000 = true → s.met.is fMetMbCmdBusy = false →
      (s.met.rd fMetLidState = 1 ∨ s.met.rd fMetLidState = 2) → s.met.is fMetLidUsed = false →
      (s.met.arg 0).toNat ≤ 1 → (s.met.arg 0 = 0#32 → (s.met.arg 3).toNat < 1000000000) → ∃ t,
        exec .mbSetTime s = .next t ∧
        (s.met.arg 0 = 0#32 → t.met.val = ofTimeWords (s.met.arg 1).toNat (s.met.arg 2).toNat (s.met.arg 3).toNat 0 * 2 ^ 32) ∧
        (s.met.arg 0 = 1#32 → t.met.val = s.hub.tbVal 16) ∧ t.met.netStep = decide (s.met.arg 0 = 1#32) ∧
        (s.met.seams = [] → s.met.lost = 0 → 8 < s.met.slots → fieldOf ((NMap.get t.met.log (s.met.rd fMetLidNextNext % 8128)).getD 0 0#32) 24 8 = 6) ∧
        t.met.is fMetLidUsed = true ∧ t.met.rd fMetMbCmdResult = 0 ∧ t.met.is fMetStatusDone = true) ∧
    -- MB_SET_TIME a second time: USED
    (∀ (s : State),
      s.hub.answers s.fixed s.met .met 0x800000 = true → s.met.is fMetMbCmdBusy = false →
      (s.met.rd fMetLidState = 1 ∨ s.met.rd fMetLidState = 2) → s.met.is fMetLidUsed = true →
      (s.met.arg 0).toNat ≤ 1 → (s.met.arg 0 = 0#32 → (s.met.arg 3).toNat < 1000000000) → ∃ t,
        exec .mbSetTime s = .next t ∧ t.met.val = s.met.val ∧ t.met.log = s.met.log ∧ t.met.rd fMetMbCmdResult = 5 ∧
        (∀ a, a ≠ rMetMbCmd ∧ a ≠ rMetStatus → t.met.reg a = s.met.reg a)) ∧
    -- a command while one runs: BUSY; the running one goes on
    (∀ (s : State) (c : Instr) (mlid : Bool),
      s.hub.answers s.fixed s.met .met 0x800000 = true → s.met.is fMetMbCmdBusy = true →
      c ∈ [.mbSetTime, .mbSeal mlid, .mbUnseal mlid, .mbRetire mlid, .mbDiscard, .mbArchive, .mbLogSeek, .mbCalibrate, .mbUnknownOp] →
      ∃ t,
        exec c s = .next t ∧ t.met.rd fMetMbCmdResult = 1 ∧ t.met.is fMetStatusDone = true ∧ t.met.val = s.met.val ∧
        t.met.log = s.met.log ∧ t.met.ch = s.met.ch ∧ t.met.calCh = s.met.calCh ∧
        (∀ a, a ≠ rMetMbCmd ∧ a ≠ rMetStatus ∧ a ≠ rMetLid → t.met.reg a = s.met.reg a) ∧
        t.met.rd fMetLidState = s.met.rd fMetLidState ∧ (∀ a, a ≠ 0x30 → t.hub.reg a = s.hub.reg a)) ∧
    -- a command in a life-cycle state that does not permit it: STATE
    (∀ (s : State) (c : Instr) (mlid : Bool),
      s.hub.answers s.fixed s.met .met 0x800000 = true → s.met.is fMetMbCmdBusy = false →
      ((c ∈ [.mbSetTime, .mbRetire mlid, .mbArchive] ∧ s.met.rd fMetLidState ≠ 1 ∧ s.met.rd fMetLidState ≠ 2) ∨ (c ∈ [.mbSeal mlid, .mbDiscard, .mbCalibrate] ∧ s.met.rd fMetLidState ≠ 1) ∨ (c = .mbUnseal mlid ∧ s.met.rd fMetLidState ≠ 2)) →
      ∃ t,
        exec c s = .next t ∧ t.met.rd fMetMbCmdResult = 2 ∧ t.met.is fMetStatusDone = true ∧ t.met.val = s.met.val ∧
        t.met.log = s.met.log ∧ t.met.ch = s.met.ch ∧ t.met.calCh = s.met.calCh ∧
        (∀ a, a ≠ rMetMbCmd ∧ a ≠ rMetStatus ∧ a ≠ rMetLid → t.met.reg a = s.met.reg a) ∧
        t.met.rd fMetLidState = s.met.rd fMetLidState ∧ (∀ a, a ≠ 0x30 → t.hub.reg a = s.hub.reg a)) ∧
    -- SEAL, UNSEAL or RETIRE, MLID_OPEN low: LID
    (∀ (s : State) (c : Instr) (mlid : Bool),
      s.hub.answers s.fixed s.met .met 0x800000 = true → s.met.is fMetMbCmdBusy = false → mlid = false →
      ((c = .mbSeal mlid ∧ s.met.rd fMetLidState = 1 ∧ s.met.arg 0 = 0x5345414C#32) ∨ (c = .mbUnseal mlid ∧ s.met.rd fMetLidState = 2) ∨ (c = .mbRetire mlid ∧ (s.met.rd fMetLidState = 1 ∨ s.met.rd fMetLidState = 2))) →
      ∃ t,
        exec c s = .next t ∧ t.met.rd fMetMbCmdResult = 3 ∧ t.met.is fMetStatusDone = true ∧ t.met.val = s.met.val ∧
        t.met.log = s.met.log ∧ t.met.ch = s.met.ch ∧ t.met.calCh = s.met.calCh ∧
        (∀ a, a ≠ rMetMbCmd ∧ a ≠ rMetStatus ∧ a ≠ rMetLid → t.met.reg a = s.met.reg a) ∧
        t.met.rd fMetLidState = s.met.rd fMetLidState ∧ (∀ a, a ≠ 0x30 → t.hub.reg a = s.hub.reg a)) ∧
    -- SEAL, UNSEAL or RETIRE with fewer than 8 slots free: FULL
    (∀ (s : State) (c : Instr) (mlid : Bool),
      s.hub.answers s.fixed s.met .met 0x800000 = true → s.met.is fMetMbCmdBusy = false → mlid = true →
      s.met.slots < 8 →
      ((c = .mbSeal mlid ∧ s.met.rd fMetLidState = 1 ∧ s.met.arg 0 = 0x5345414C#32 ∧ s.met.outcome = 1) ∨ (c = .mbUnseal mlid ∧ s.met.rd fMetLidState = 2) ∨ (c = .mbRetire mlid ∧ (s.met.rd fMetLidState = 1 ∨ s.met.rd fMetLidState = 2))) →
      ∃ t,
        exec c s = .next t ∧ t.met.rd fMetMbCmdResult = 6 ∧ t.met.is fMetStatusDone = true ∧ t.met.val = s.met.val ∧
        t.met.log = s.met.log ∧ t.met.ch = s.met.ch ∧ t.met.calCh = s.met.calCh ∧
        (∀ a, a ≠ rMetMbCmd ∧ a ≠ rMetStatus ∧ a ≠ rMetLid → t.met.reg a = s.met.reg a) ∧
        t.met.rd fMetLidState = s.met.rd fMetLidState ∧ (∀ a, a ≠ 0x30 → t.hub.reg a = s.hub.reg a)) ∧
    -- a command that would count at the counter's maximum: AUDIT_MAX
    (∀ (s : State) (c : Instr) (mlid : Bool),
      s.hub.answers s.fixed s.met .met 0x800000 = true → s.met.is fMetMbCmdBusy = false → mlid = true →
      s.met.auditMax = true → 8 ≤ s.met.slots →
      ((c = .mbSeal mlid ∧ s.met.rd fMetLidState = 1 ∧ s.met.arg 0 = 0x5345414C#32 ∧ s.met.outcome = 1) ∨ (c = .mbUnseal mlid ∧ s.met.rd fMetLidState = 2) ∨ (c = .mbRetire mlid ∧ (s.met.rd fMetLidState = 1 ∨ s.met.rd fMetLidState = 2)) ∨ (c = .mbDiscard ∧ s.met.rd fMetLidState = 1 ∧ s.met.outcome ≠ 0)) →
      ∃ t,
        exec c s = .next t ∧ t.met.rd fMetMbCmdResult = 9 ∧ t.met.is fMetStatusDone = true ∧ t.met.val = s.met.val ∧
        t.met.log = s.met.log ∧ t.met.ch = s.met.ch ∧ t.met.calCh = s.met.calCh ∧
        (∀ a, a ≠ rMetMbCmd ∧ a ≠ rMetStatus ∧ a ≠ rMetLid → t.met.reg a = s.met.reg a) ∧
        t.met.rd fMetLidState = s.met.rd fMetLidState ∧ (∀ a, a ≠ 0x30 → t.hub.reg a = s.hub.reg a)) ∧
    -- an argument that is wrong: ARG
    (∀ (s : State) (c : Instr) (mlid : Bool),
      s.hub.answers s.fixed s.met .met 0x800000 = true → s.met.is fMetMbCmdBusy = false →
      ((c = .mbSetTime ∧ (s.met.rd fMetLidState = 1 ∨ s.met.rd fMetLidState = 2) ∧ (1 < (s.met.arg 0).toNat ∨ (s.met.arg 0 = 0#32 ∧ 1000000000 ≤ (s.met.arg 3).toNat))) ∨ (c = .mbSeal mlid ∧ s.met.rd fMetLidState = 1 ∧ s.met.arg 0 ≠ 0x5345414C#32) ∨ (c = .mbArchive ∧ (s.met.rd fMetLidState = 1 ∨ s.met.rd fMetLidState = 2) ∧ ((s.met.arg 0).toNat < s.met.rd fMetLidFirstFirst ∨ s.met.rd fMetLidNextNext ≤ (s.met.arg 0).toNat)) ∨ (c = .mbLogSeek ∧ s.met.recordOf (s.met.arg 0).toNat = none) ∨ (c = .mbCalibrate ∧ s.met.rd fMetLidState = 1 ∧ s.met.outcome ≠ 0 ∧ (8 ≤ (s.met.arg 0).toNat ∨ s.met.chOn (s.met.arg 0).toNat = false ∨ s.met.arg 1 = 0#32 ∨ 600 < (s.met.arg 1).toNat))) →
      ∃ t,
        exec c s = .next t ∧ t.met.rd fMetMbCmdResult = 7 ∧ t.met.is fMetStatusDone = true ∧ t.met.val = s.met.val ∧
        t.met.log = s.met.log ∧ t.met.ch = s.met.ch ∧ t.met.calCh = s.met.calCh ∧
        (∀ a, a ≠ rMetMbCmd ∧ a ≠ rMetStatus ∧ a ≠ rMetLid → t.met.reg a = s.met.reg a) ∧
        t.met.rd fMetLidState = s.met.rd fMetLidState ∧ (∀ a, a ≠ 0x30 → t.hub.reg a = s.hub.reg a)) ∧
    -- SEAL not LOADED, DISCARD or CALIBRATE unconfigured: UNCONF
    (∀ (s : State) (c : Instr) (mlid : Bool),
      s.hub.answers s.fixed s.met .met 0x800000 = true → s.met.is fMetMbCmdBusy = false →
      ((c = .mbSeal mlid ∧ mlid = true ∧ s.met.rd fMetLidState = 1 ∧ s.met.arg 0 = 0x5345414C#32 ∧ s.met.outcome ≠ 1) ∨ (c ∈ [.mbDiscard, .mbCalibrate] ∧ s.met.rd fMetLidState = 1 ∧ s.met.outcome = 0)) →
      ∃ t,
        exec c s = .next t ∧ t.met.rd fMetMbCmdResult = 8 ∧ t.met.is fMetStatusDone = true ∧ t.met.val = s.met.val ∧
        t.met.log = s.met.log ∧ t.met.ch = s.met.ch ∧ t.met.calCh = s.met.calCh ∧
        (∀ a, a ≠ rMetMbCmd ∧ a ≠ rMetStatus ∧ a ≠ rMetLid → t.met.reg a = s.met.reg a) ∧
        t.met.rd fMetLidState = s.met.rd fMetLidState ∧ (∀ a, a ≠ 0x30 → t.hub.reg a = s.hub.reg a)) ∧
    -- ARCHIVE with another digest than the record's: DIGEST
    (∀ (s : State) (c : Instr),
      s.hub.answers s.fixed s.met .met 0x800000 = true → s.met.is fMetMbCmdBusy = false → c = .mbArchive →
      (s.met.rd fMetLidState = 1 ∨ s.met.rd fMetLidState = 2) → s.met.rd fMetLidFirstFirst ≤ (s.met.arg 0).toNat →
      (s.met.arg 0).toNat < s.met.rd fMetLidNextNext →
      s.met.argDigest ≠ sha256 ((s.met.recordOf (s.met.arg 0).toNat).getD []) → ∃ t,
        exec c s = .next t ∧ t.met.rd fMetMbCmdResult = 4 ∧ t.met.is fMetStatusDone = true ∧ t.met.val = s.met.val ∧
        t.met.log = s.met.log ∧ t.met.ch = s.met.ch ∧ t.met.calCh = s.met.calCh ∧
        (∀ a, a ≠ rMetMbCmd ∧ a ≠ rMetStatus ∧ a ≠ rMetLid → t.met.reg a = s.met.reg a) ∧
        t.met.rd fMetLidState = s.met.rd fMetLidState ∧ (∀ a, a ≠ 0x30 → t.hub.reg a = s.hub.reg a)) ∧
    -- a command while the partition is in MPOR, absent, or the hub asleep: nothing but the ball's level
    (∀ (s : State) (c : Instr) (mlid : Bool),
      s.hub.answers s.fixed s.met .met 0x800000 = false →
      c ∈ [.mbSetTime, .mbSeal mlid, .mbUnseal mlid, .mbRetire mlid, .mbDiscard, .mbArchive, .mbLogSeek, .mbCalibrate, .mbUnknownOp] →
      ∃ t,
        exec c s = .next t ∧ (t.met = s.met.pin mlid ∨ t.met = s.met) ∧ t.hub.cyc = s.hub.cyc) ∧
    -- MB_SEAL with the pin open and the digest of the held configuration
    (∀ (s : State),
      s.hub.answers s.fixed s.met .met 0x800000 = true → s.met.is fMetMbCmdBusy = false → s.met.rd fMetLidState = 1 →
      s.met.arg 0 = 0x5345414C#32 → s.met.outcome = 1 → 8 ≤ s.met.slots → s.met.auditMax = false →
      s.met.argDigest = s.met.rd8 (rMetLidHeld 0) → ∃ t,
        exec (.mbSeal true) s = .next t ∧ t.met.rd fMetLidState = 2 ∧
        t.met.rd8 (rMetLidSealed 0) = s.met.rd8 (rMetLidHeld 0) ∧
        t.met.rd fMetLidAuditAudit = s.met.rd fMetLidAuditAudit + 1 ∧ t.met.rd fMetMbCmdResult = 0 ∧
        t.met.is fMetStatusDone = true ∧ t.hub.lcState = 2 ∧ t.hub.rd fGlbStatusLc = 2) ∧
    -- MB_SEAL with another digest: DIGEST, and the partition stays open
    (∀ (s : State),
      s.hub.answers s.fixed s.met .met 0x800000 = true → s.met.is fMetMbCmdBusy = false → s.met.rd fMetLidState = 1 →
      s.met.arg 0 = 0x5345414C#32 → s.met.outcome = 1 → 8 ≤ s.met.slots → s.met.auditMax = false →
      s.met.argDigest ≠ s.met.rd8 (rMetLidHeld 0) → ∃ t,
        exec (.mbSeal true) s = .next t ∧ t.met.rd fMetMbCmdResult = 4 ∧ t.met.rd fMetLidState = 1 ∧
        t.met.log = s.met.log) ∧
    -- MB_UNSEAL with the pin open
    (∀ (s : State),
      s.hub.answers s.fixed s.met .met 0x800000 = true → s.met.is fMetMbCmdBusy = false → s.met.rd fMetLidState = 2 →
      8 ≤ s.met.slots → s.met.auditMax = false → ∃ t,
        exec (.mbUnseal true) s = .next t ∧ t.met.rd fMetLidState = 1 ∧
        t.met.rd fMetLidAuditAudit = s.met.rd fMetLidAuditAudit + 1 ∧ t.met.rd fMetMbCmdResult = 0 ∧
        t.met.is fMetStatusDone = true ∧ t.hub.lcState = 1) ∧
    -- MB_RETIRE with the pin open
    (∀ (s : State),
      s.hub.answers s.fixed s.met .met 0x800000 = true → s.met.is fMetMbCmdBusy = false →
      (s.met.rd fMetLidState = 1 ∨ s.met.rd fMetLidState = 2) → 8 ≤ s.met.slots → s.met.auditMax = false → ∃ t,
        exec (.mbRetire true) s = .next t ∧ t.met.rd fMetLidState = 4 ∧ t.met.phase = 0 ∧ t.met.measures = false ∧
        t.met.rd fMetMbCmdResult = 0 ∧ t.hub.lcState = 4) ∧
    -- MB_DISCARD of an open partition's configuration
    (∀ (s : State),
      s.hub.answers s.fixed s.met .met 0x800000 = true → s.met.is fMetMbCmdBusy = false → s.met.rd fMetLidState = 1 →
      s.met.outcome ≠ 0 → s.met.auditMax = false → ∃ t,
        exec .mbDiscard s = .next t ∧ t.met.outcome = 0 ∧ t.met.cells = [] ∧ t.met.is fMetStatusUnconf = true ∧
        t.met.rd fMetMbCmdResult = 0 ∧ t.met.measures = false) ∧
    -- MB_ARCHIVE up to a record whose digest the host names
    (∀ (s : State),
      s.hub.answers s.fixed s.met .met 0x800000 = true → s.met.is fMetMbCmdBusy = false →
      (s.met.rd fMetLidState = 1 ∨ s.met.rd fMetLidState = 2) → s.met.rd fMetLidFirstFirst ≤ (s.met.arg 0).toNat →
      (s.met.arg 0).toNat < s.met.rd fMetLidNextNext →
      s.met.argDigest = sha256 ((s.met.recordOf (s.met.arg 0).toNat).getD []) → ∃ t,
        exec .mbArchive s = .next t ∧ t.met.rd fMetLidFirstFirst = (s.met.arg 0).toNat + 1 ∧
        t.met.rd fMetMbCmdResult = 0 ∧ t.met.is fMetStatusDone = true) ∧
    -- MB_LOG_SEEK of a stored record
    (∀ (s : State) (r : List Word),
      s.hub.answers s.fixed s.met .met 0x800000 = true → s.met.is fMetMbCmdBusy = false →
      s.met.recordOf (s.met.arg 0).toNat = some r → ∃ t,
        exec .mbLogSeek s = .next t ∧ (∀ i : Fin 16, t.met.reg (rMetEvRec i) = r.getD i 0#32) ∧
        t.met.is fMetEvPosValid = true ∧ t.met.rd8 (rMetEvDig 0) = sha256 r ∧ t.met.rd fMetMbCmdResult = 0 ∧
        t.met.log = s.met.log) ∧
    -- MB_CALIBRATE of an enabled channel: it runs, and shows its result at its end
    (∀ (s : State),
      s.hub.answers s.fixed s.met .met 0x800000 = true → s.met.is fMetMbCmdBusy = false → s.met.rd fMetLidState = 1 →
      s.met.outcome ≠ 0 → (s.met.arg 0).toNat < 8 → s.met.chOn (s.met.arg 0).toNat = true → 1 ≤ (s.met.arg 1).toNat →
      (s.met.arg 1).toNat ≤ 600 → ∃ t,
        exec .mbCalibrate s = .next t ∧ t.met.is fMetMbCmdBusy = true ∧ t.met.calCh = some (s.met.arg 0).toNat ∧
        t.met.calDur = (s.met.arg 1).toNat ∧ t.met.rd fMetMbCmdResult = s.met.rd fMetMbCmdResult ∧
        t.met.reg rMetStatus = s.met.reg rMetStatus) ∧
    -- CALIBRATE_END
    (∀ (s : State) (c : Nat),
      s.met.calCh = some c → ∃ t,
        exec .calibrateEnd s = .next t ∧ t.met.calCh = none ∧ t.met.is fMetMbCmdBusy = false ∧
        t.met.rd fMetMbCmdResult = 0 ∧ t.met.is fMetStatusDone = true ∧ t.met.val = s.met.val ∧
        t.met.rd (fMetMbResRes 0) = (if s.met.calN = 0 then 0 else (isqrt (4 * (s.met.calSq / s.met.calN)) + 1) / 2) % 2 ^ 32) ∧
    -- CALIBRATE_END with no calibration running
    (∀ (s : State),
      s.met.calCh = none → ∃ t,
        exec .calibrateEnd s = .next t ∧ t.met = s.met ∧ (∀ a, a ≠ 0x30 → t.hub.reg a = s.hub.reg a)) ∧
    -- MB_UNKNOWN_OP
    (∀ (s : State),
      s.hub.answers s.fixed s.met .met 0x800000 = true → s.met.is fMetMbCmdBusy = false → ∃ t,
        exec .mbUnknownOp s = .next t ∧ t.met.rd fMetMbCmdResult = 10 ∧ t.met.is fMetStatusDone = true ∧
        t.met.log = s.met.log ∧ (∀ a, a ≠ rMetMbCmd ∧ a ≠ rMetStatus → t.met.reg a = s.met.reg a))

/-- What a reset requested by the host clears. A reset the variant's units allow starts the recovery of its scope and
clears what the scope covers: a queue is empty and its epoch one more, a context's FIFOs and stages, a port's FIFO and
held start, the swaps of a tile and its partner, a link's buffers, the radio but for its stored calibrations, the
fabric's queues, port FIFOs, spectral engines and feature sets, the device; the configuration stays in all but a DEVICE
reset. One for a unit a recovery covers starts nothing, one the variant or HALTED does not allow is refused, and a
sleeping hub takes none. That `glb.status.run` shows RECOVERING in a FABRIC recovery is the model's choice (log entry
87). (R79, R81, R288, R165, R111, R137, R358, R390, R443, R445) -/
def Obligations.ResetScopes : Prop :=
    -- RESET_QUEUE
    (∀ (s : State) (unit : BitVec 9),
      s.hub.asleep = false → s.fixed.variant.hasQueue unit.toNat = true → s.hub.rd fGlbStatusRun ≠ 6 →
      s.hub.recovering 1 unit.toNat = false → ∃ t,
        exec (.resetQueue unit) s = .next t ∧ (NMap.get t.hub.q unit.toNat).level = 0 ∧
        t.hub.rd (fQQEpochEpoch unit.toNat) = (s.hub.rd (fQQEpochEpoch unit.toNat) + 1) % 65536 ∧
        t.hub.flt.recs.any (fun r => r.scope == 1 && r.unit == unit.toNat && r.host) = true ∧
        t.hub.is fGlbResetBusy = true ∧ t.hub.cells = s.hub.cells) ∧
    -- a reset of a unit the variant lacks, or of a scope below DEVICE while HALTED: refused
    (∀ (s : State) (c : Instr) (unit : BitVec 9),
      s.hub.asleep = false →
      ((c = .resetQueue unit ∧ s.fixed.variant.hasQueue unit.toNat = false) ∨ (c = .resetContext unit ∧ s.fixed.variant.ctxCount ≤ unit.toNat) ∨ (c = .resetPort unit ∧ s.fixed.variant.spCount ≤ unit.toNat ∧ (unit.toNat < 24 ∨ 32 ≤ unit.toNat)) ∨ (c = .resetTile unit ∧ s.fixed.variant.tileCount ≤ unit.toNat) ∨ (c = .resetLink unit ∧ s.fixed.variant.linkCount ≤ unit.toNat) ∨ (c = .resetRadio ∧ s.fixed.variant.hasRad = false) ∨ (c ∈ [.resetQueue unit, .resetContext unit, .resetPort unit, .resetTile unit, .resetLink unit, .resetRadio, .resetFabric] ∧ s.hub.rd fGlbStatusRun = 6)) →
      ∃ t,
        exec c s = .next t ∧ t.hub.is fGlbResetRefused = true ∧ t.hub.q = s.hub.q ∧ t.hub.flt = s.hub.flt ∧
        t.hub.cells = s.hub.cells ∧ (∀ a, a ≠ 0x30 ∧ a ≠ 0xC → t.hub.reg a = s.hub.reg a)) ∧
    -- a reset of a unit that a running recovery covers: nothing starts, `busy` shows that recovery
    (∀ (s : State) (c : Instr) (unit : BitVec 9),
      s.hub.asleep = false → s.hub.rd fGlbStatusRun ≠ 6 →
      ((c = .resetQueue unit ∧ s.fixed.variant.hasQueue unit.toNat = true ∧ s.hub.recovering 1 unit.toNat = true) ∨ (c = .resetContext unit ∧ unit.toNat < s.fixed.variant.ctxCount ∧ s.hub.recovering 2 unit.toNat = true) ∨ (c = .resetPort unit ∧ (unit.toNat < s.fixed.variant.spCount ∨ 24 ≤ unit.toNat ∧ unit.toNat < 32) ∧ s.hub.recovering 3 unit.toNat = true) ∨ (c = .resetTile unit ∧ unit.toNat < s.fixed.variant.tileCount ∧ s.hub.recovering 4 unit.toNat = true) ∨ (c = .resetLink unit ∧ unit.toNat < s.fixed.variant.linkCount ∧ s.hub.recovering 5 unit.toNat = true) ∨ (c = .resetRadio ∧ s.fixed.variant.hasRad = true ∧ s.hub.recovering 6 0 = true) ∨ (c = .resetFabric ∧ s.hub.recovering 7 0 = true) ∨ (c = .resetDevice ∧ s.hub.recovering 8 0 = true)) →
      ∃ t,
        exec c s = .next t ∧ t.hub.is fGlbResetBusy = true ∧ t.hub.q = s.hub.q ∧ t.hub.sp = s.hub.sp ∧
        t.hub.ctx = s.hub.ctx ∧
        t.hub.flt.recs.map (fun r => (r.scope, r.unit, r.start)) = s.hub.flt.recs.map (fun r => (r.scope, r.unit, r.start)) ∧
        t.hub.cells = s.hub.cells) ∧
    -- a reset while the hub sleeps: nothing
    (∀ (s : State) (c : Instr) (unit : BitVec 9),
      s.hub.asleep = true →
      c ∈ .resetDevice :: [.resetQueue unit, .resetContext unit, .resetPort unit, .resetTile unit, .resetLink unit, .resetRadio, .resetFabric] →
      ∃ t,
        exec c s = .next t ∧ t.hub.flt = s.hub.flt ∧ t.hub.q = s.hub.q ∧ (∀ a, a ≠ 0x30 → t.hub.reg a = s.hub.reg a)) ∧
    -- RESET_CONTEXT
    (∀ (s : State) (unit : BitVec 9),
      s.hub.asleep = false → unit.toNat < s.fixed.variant.ctxCount → s.hub.rd fGlbStatusRun ≠ 6 →
      s.hub.recovering 2 unit.toNat = false → ∃ t,
        exec (.resetContext unit) s = .next t ∧
        NMap.get t.hub.ctx unit.toNat = { (default : Ctx) with gapIn := true, gapOut := true } ∧
        t.hub.rd (fFabCCtlEnable unit.toNat) = s.hub.cf 5 (32 + unit.toNat) 0 0 1 ∧
        (∀ i : Fin 8, (t.hub.stg' unit.toNat i).inq = [] ∧ (t.hub.stg' unit.toNat i).n = 0 ∧ (t.hub.stg' unit.toNat i).hist = []) ∧
        (NMap.get t.hub.fea unit.toNat).blk = [] ∧
        t.hub.flt.recs.any (fun r => r.scope == 2 && r.unit == unit.toNat && r.host) = true ∧
        t.hub.cells = s.hub.cells) ∧
    -- RESET_PORT of a sample port
    (∀ (s : State) (unit : BitVec 9),
      s.hub.asleep = false → unit.toNat < s.fixed.variant.spCount → s.hub.rd fGlbStatusRun ≠ 6 →
      s.hub.recovering 3 unit.toNat = false → ∃ t,
        exec (.resetPort unit) s = .next t ∧ (t.hub.port unit.toNat).fifo = [] ∧
        (t.hub.port unit.toNat).heldStart = none ∧ (t.hub.port unit.toNat).gaps = s.hub.portCtxs unit.toNat ∧
        t.hub.rd (fSpPCtlRole unit.toNat) = s.hub.cf 3 unit.toNat 0 0 1 ∧
        t.hub.is (fSpPStatusCrcErr unit.toNat) = false ∧ t.hub.cells = s.hub.cells) ∧
    -- RESET_PORT of a two-wire controller
    (∀ (s : State) (unit : BitVec 9),
      s.hub.asleep = false → 24 ≤ unit.toNat → unit.toNat < 32 → s.hub.rd fGlbStatusRun ≠ 6 →
      s.hub.recovering 3 unit.toNat = false → ∃ t,
        exec (.resetPort unit) s = .next t ∧
        NMap.get t.hub.tw (unit.toNat - 24) = { (default : TwoWire) with gaps := s.hub.twCtxs (unit.toNat - 24) } ∧
        t.hub.rd (fTwCCtlEnable (unit.toNat - 24)) = s.hub.cf 4 (unit.toNat - 24) 0 23 1 ∧
        ((NMap.get s.hub.tw (unit.toNat - 24)).kind ≠ 0 → t.hub.rd (fTwCCtlState (unit.toNat - 24)) = 2) ∧
        ((NMap.get s.hub.tw (unit.toNat - 24)).kind = 2 → t.hub.rd (fTwCXferResult (unit.toNat - 24)) = 7) ∧
        t.hub.cells = s.hub.cells) ∧
    -- RESET_TILE: the tile and its partner, whose slots name the stages that stand on them
    (∀ (s : State) (unit : BitVec 9),
      s.hub.asleep = false → unit.toNat < s.fixed.variant.tileCount → s.hub.rd fGlbStatusRun ≠ 6 →
      s.hub.recovering 4 unit.toNat = false →
      (∀ u ∈ s.hub.domain unit.toNat, ∀ k ∈ s.hub.stagesOn u, s.hub.stTile (k / 8) (k % 8) = u) → ∃ t,
        exec (.resetTile unit) s = .next t ∧
        (∀ u : Fin 32, (s.hub.domain unit.toNat).contains u.val = true → (NMap.get t.hub.tile u).swap = none ∧ (NMap.get t.hub.tile u).wait = none ∧ t.hub.rd (fFabTStatusBankAct u) = s.hub.cf 5 u 0x801 0 1 ∧ t.hub.rd (fFabTFirFadeLen u) = s.hub.cf 5 u 0x801 16 16) ∧
        (∀ u : Fin 32, (s.hub.domain unit.toNat).contains u.val = false → NMap.get t.hub.tile u = NMap.get s.hub.tile u) ∧
        (∀ k ∈ s.hub.stagesOn unit.toNat, (NMap.get t.hub.stg k).n = 0 ∧ (NMap.get t.hub.stg k).hist = []) ∧
        t.hub.cells = s.hub.cells) ∧
    -- RESET_LINK
    (∀ (s : State) (unit : BitVec 9),
      s.hub.asleep = false → unit.toNat < s.fixed.variant.linkCount → s.hub.rd fGlbStatusRun ≠ 6 →
      s.hub.recovering 5 unit.toNat = false → ∃ t,
        exec (.resetLink unit) s = .next t ∧
        NMap.get t.hub.link unit.toNat = { (default : Link) with dev := (NMap.get s.hub.link unit.toNat).dev } ∧
        t.hub.flt.recs.any (fun r => r.scope == 5 && r.unit == unit.toNat && r.host) = true ∧
        t.hub.cells = s.hub.cells) ∧
    -- RESET_RADIO
    (∀ (s : State),
      s.hub.asleep = false → s.fixed.variant.hasRad = true → s.hub.rd fGlbStatusRun ≠ 6 →
      s.hub.recovering 6 0 = false → ∃ t,
        exec .resetRadio s = .next t ∧ t.hub.rd fRadStatusState = 0 ∧ t.hub.rad.cmd = none ∧
        t.hub.rad.synth = s.hub.rad.synth ∧ t.hub.rad.image = s.hub.rad.image ∧ t.hub.rad.filt = s.hub.rad.filt ∧
        t.hub.cells = s.hub.cells) ∧
    -- RESET_FABRIC
    (∀ (s : State),
      s.hub.asleep = false → s.hub.rd fGlbStatusRun ≠ 6 → s.hub.recovering 7 0 = false → ∃ t,
        exec .resetFabric s = .next t ∧ t.hub.rd fGlbStatusRun = 4 ∧ t.hub.spc = [] ∧ t.hub.fea = [] ∧
        t.hub.metFifo = [] ∧ t.hub.lim.fifo = [] ∧ (∀ q : Fin 64, (NMap.get t.hub.q q).level = 0) ∧
        (∀ p : Fin 24, (t.hub.port p).fifo = [] ∧ (t.hub.port p).heldStart = none) ∧
        (∀ c : Fin 192, (NMap.get t.hub.ctx c).inq = []) ∧
        t.hub.flt.recs.any (fun r => r.scope == 7 && r.host) = true ∧ t.hub.cells = s.hub.cells) ∧
    -- RESET_DEVICE: taken while HALTED too; the structure is gone and waits to be loaded again
    (∀ (s : State),
      s.hub.asleep = false → (s.hub.rd fGlbStatusRun = 6 ∨ s.hub.recovering 8 0 = false) → ∃ t,
        exec .resetDevice s = .next t ∧ t.hub.rd fGlbStatusRun = 4 ∧ t.hub.cells = [] ∧ t.hub.q = [] ∧ t.hub.sp = [] ∧
        t.hub.ctx = [] ∧ t.hub.host.shadows = [] ∧ t.hub.is fLdrStatusConfigured = false ∧
        t.hub.flt.recs.any (fun r => r.scope == 8 && r.host) = true)

/-- The configuration check, the course of a recovery and the tokens of a bucket. A cell an upset changed is found by
the check of its unit and reported once; a recovery that ends shows its scope, one of FABRIC and above gives the run
state back, and one that overruns escalates to its next scope, out of POR into HALTED; a bucket's timer gives a token
back until the bucket is full. Where no such recovery runs, and in sections the check does not cover, nothing changes.
(R439, R443, R445, R446, R447, R448) -/
def Obligations.RecoveryCourse : Prop :=
    -- CFG_CHECK_UNIT of a unit an upset has changed
    (∀ (s : State) (sect : Fin 16) (unit : Fin 256) (cell : Fin 4096) (flip : Word),
      cfgCovered sect unit cell = true → flip ≠ 0#32 → s.hub.flt.upset.contains (sect.val, unit.val) = false →
      (s.hub.setCell (cellKey sect unit cell) (s.hub.cell sect unit cell ^^^ flip)).unitCrc sect unit ≠ NMap.get s.hub.flt.refs (unitKey sect unit) →
      ∃ t,
        exec (.cfgCheckUnit sect unit cell flip) s = .next t ∧
        t.hub.cell sect unit cell = s.hub.cell sect unit cell ^^^ flip ∧ t.hub.hlt.upsets = s.hub.hlt.upsets + 1 ∧
        (sect.val, unit.val) ∈ t.hub.flt.upset ∧
        (∀ a, a ≠ 0x30 ∧ (a < 0x1F8000 ∨ 0x1F9000 ≤ a) → t.hub.reg a = s.hub.reg a)) ∧
    -- CFG_CHECK_UNIT of a unit that agrees with its reference
    (∀ (s : State) (sect : Fin 16) (unit : Fin 256) (cell : Fin 4096),
      cfgChecked sect = true → s.hub.flt.upset.contains (sect.val, unit.val) = false →
      s.hub.unitCrc sect unit = NMap.get s.hub.flt.refs (unitKey sect unit) → ∃ t,
        exec (.cfgCheckUnit sect unit cell 0#32) s = .next t ∧ t.hub.cells = s.hub.cells ∧ t.hub.flt = s.hub.flt ∧
        t.hub.rd fHltCfgChkPasses = (s.hub.rd fHltCfgChkPasses + (if s.hub.lastChecked sect unit then 1 else 0)) % 2 ^ fHltCfgChkPasses.len) ∧
    -- CFG_CHECK_UNIT of a unit whose upset has been reported: not again until it passes
    (∀ (s : State) (sect : Fin 16) (unit : Fin 256) (cell : Fin 4096) (flip : Word),
      cfgChecked sect = true → s.hub.flt.upset.contains (sect.val, unit.val) = true → ∃ t,
        exec (.cfgCheckUnit sect unit cell flip) s = .next t ∧ t.hub.hlt.upsets = s.hub.hlt.upsets ∧
        t.hub.cell sect unit cell = (if cfgCovered sect unit cell then s.hub.cell sect unit cell ^^^ flip else s.hub.cell sect unit cell) ∧
        (∀ a, a ≠ 0x30 ∧ a ≠ fHltCfgChkPasses.addr → t.hub.reg a = s.hub.reg a)) ∧
    -- CFG_CHECK_UNIT of a section the check does not cover
    (∀ (s : State) (sect : Fin 16) (unit : Fin 256) (cell : Fin 4096) (flip : Word),
      cfgChecked sect = false → ∃ t,
        exec (.cfgCheckUnit sect unit cell flip) s = .next t ∧ t.hub.cells = s.hub.cells ∧ t.hub.flt = s.hub.flt ∧
        (∀ a, a ≠ 0x30 → t.hub.reg a = s.hub.reg a)) ∧
    -- RECOVERY_END, no partial load committing and no self-test waiting to publish
    (∀ (s : State) (scope : Fin 16) (unit : BitVec 9),
      s.hub.flt.recs.any (fun r => r.scope == scope.val && r.unit == unit.toNat) = true → s.hub.ldrState ≠ ldrCommit →
      (List.range 9).all (fun g => (s.hub.test g).waiting.isNone) = true → ∃ t,
        exec (.recoveryEnd scope unit) s = .next t ∧
        (1 ≤ scope.val → scope.val ≤ 9 → t.hub.rd fGlbStatusLastReset = scope.val) ∧
        t.hub.hlt.recs = s.hub.hlt.recs + 1 ∧ t.hub.is fHltFltStatusRecDone = true ∧
        t.hub.is fGlbResetBusy = s.hub.flt.recs.any (fun r => r.host && !(r.scope == scope.val && r.unit == unit.toNat)) ∧
        (7 ≤ scope.val → s.hub.flt.recs.all (fun r => decide (r.scope < 7) || (r.scope == scope.val && r.unit == unit.toNat)) = true → s.hub.rd fGlbStatusRun ≠ 6 → s.hub.clk.gates = true → t.hub.rd fGlbStatusRun = (if s.hub.is fLdrStatusConfigured then 3 else 1)) ∧
        (scope.val = 5 → unit.toNat < 3 → s.hub.linkOn s.fixed unit.toNat = true → s.hub.rd (fCasPStatusState unit.toNat) = 0 → t.hub.rd (fCasPStatusState unit.toNat) = 1) ∧
        t.hub.cells = s.hub.cells) ∧
    -- RECOVERY_END and REC_TIMEOUT of a recovery that does not run
    (∀ (s : State) (scope : Fin 16) (unit : BitVec 9),
      s.hub.flt.recs.any (fun r => r.scope == scope.val && r.unit == unit.toNat) = false → ∃ t,
        exec (.recoveryEnd scope unit) s = .next t ∧ exec (.recTimeout scope unit) s = .next t ∧
        t.hub.flt = s.hub.flt ∧ t.hub.hlt = s.hub.hlt ∧ (∀ a, a ≠ 0x30 → t.hub.reg a = s.hub.reg a)) ∧
    -- REC_TIMEOUT of a QUEUE, PORT or TILE recovery: the fabric recovers
    (∀ (s : State) (scope : Fin 16) (unit : BitVec 9),
      (scope.val = 1 ∨ scope.val = 3 ∨ scope.val = 4) →
      s.hub.flt.recs.any (fun r => r.scope == scope.val && r.unit == unit.toNat) = true → ∃ t,
        exec (.recTimeout scope unit) s = .next t ∧ t.hub.rd fGlbStatusRun = 4 ∧
        t.hub.flt.recs.any (fun r => r.scope == 7) = true ∧ t.hub.spc = [] ∧ t.hub.fea = []) ∧
    -- REC_TIMEOUT of a CONTEXT recovery: a tile of its stages recovers
    (∀ (s : State) (scope : Fin 16) (unit : BitVec 9),
      scope.val = 2 → (s.hub.tilesOf unit.toNat) ≠ [] →
      s.hub.flt.recs.any (fun r => r.scope == scope.val && r.unit == unit.toNat) = true → ∃ t,
        exec (.recTimeout scope unit) s = .next t ∧
        t.hub.flt.recs.any (fun r => r.scope == 4 && some r.unit == (s.hub.tilesOf unit.toNat).head?) = true) ∧
    -- REC_TIMEOUT of a CONTEXT recovery of a context without stages: the fabric recovers
    (∀ (s : State) (scope : Fin 16) (unit : BitVec 9),
      scope.val = 2 → (s.hub.tilesOf unit.toNat) = [] →
      s.hub.flt.recs.any (fun r => r.scope == scope.val && r.unit == unit.toNat) = true → ∃ t,
        exec (.recTimeout scope unit) s = .next t ∧ t.hub.rd fGlbStatusRun = 4 ∧
        t.hub.flt.recs.any (fun r => r.scope == 7) = true) ∧
    -- REC_TIMEOUT of a LINK, RADIO or FABRIC recovery: the device recovers
    (∀ (s : State) (scope : Fin 16) (unit : BitVec 9),
      (scope.val = 5 ∨ scope.val = 6 ∨ scope.val = 7) →
      s.hub.flt.recs.any (fun r => r.scope == scope.val && r.unit == unit.toNat) = true → ∃ t,
        exec (.recTimeout scope unit) s = .next t ∧ t.hub.rd fGlbStatusRun = 4 ∧
        t.hub.flt.recs.any (fun r => r.scope == 8) = true ∧ t.hub.cells = [] ∧ t.hub.q = []) ∧
    -- REC_TIMEOUT of a DEVICE recovery: POR, its cause an escalation
    (∀ (s : State) (scope : Fin 16) (unit : BitVec 9),
      scope.val = 8 → s.hub.flt.recs.any (fun r => r.scope == scope.val && r.unit == unit.toNat) = true → ∃ t,
        exec (.recTimeout scope unit) s = .next t ∧ t.hub.rd fGlbStatusRun = 4 ∧
        t.hub.flt.recs.any (fun r => r.scope == 9) = true ∧ t.hub.rd fClkSupCauseCause = 5 ∧ t.hub.cells = []) ∧
    -- REC_TIMEOUT of a POR recovery: the hub halts
    (∀ (s : State) (scope : Fin 16) (unit : BitVec 9),
      scope.val = 9 → s.hub.flt.recs.any (fun r => r.scope == scope.val && r.unit == unit.toNat) = true → ∃ t,
        exec (.recTimeout scope unit) s = .next t ∧ t.hub.rd fGlbStatusRun = 6 ∧ t.hub.flt.recs = []) ∧
    -- BUCKET_TOKEN_ADD: a token returns, and what waited for it leaves
    (∀ (s : State) (b : Fin 6),
      s.hub.rd (fHltBkTokens b) ≠ 0 → ∃ t,
        exec (.bucketTokenAdd b) s = .next t ∧
        t.hub = latchIrq s.hub s.met ((s.hub.wr (fHltBkTokens b) (s.hub.rd (fHltBkTokens b) - 1)).settle s.fixed) s.met ∧
        t.met = s.met) ∧
    -- BUCKET_TOKEN_ADD while nothing waits for the token: the register holds the tokens spent
    (∀ (s : State) (b : Fin 6),
      s.hub.rd (fHltBkTokens b) ≠ 0 →
      (s.hub.wr (fHltBkTokens b) (s.hub.rd (fHltBkTokens b) - 1)).settle s.fixed = s.hub.wr (fHltBkTokens b) (s.hub.rd (fHltBkTokens b) - 1) →
      ∃ t,
        exec (.bucketTokenAdd b) s = .next t ∧ t.hub.rd (fHltBkTokens b) = s.hub.rd (fHltBkTokens b) - 1 ∧
        t.hub.flt = s.hub.flt) ∧
    -- BUCKET_TOKEN_ADD to a full bucket
    (∀ (s : State) (b : Fin 6),
      s.hub.rd (fHltBkTokens b) = 0 → ∃ t,
        exec (.bucketTokenAdd b) s = .next t ∧ t.hub.flt = s.hub.flt ∧ (∀ a, a ≠ 0x30 → t.hub.reg a = s.hub.reg a))

/-- Self-tests. A test of a group starts when its algorithm is the group's and the life-cycle state permits it, else its
completion word says NOT_PERMITTED, or NOT_PRESENT where the group is absent, and one still running leaves its word and
sets `st_busy`; an abort or starvation marks its cause, a transparent test's also what the restore pass follows; its end
publishes the completion word and its registers, and a destructive one starts the recovery first (log entry 124,
DEDUCED, for what it leaves in the stockpot). Where no such test runs nothing changes. (R462, R464, R465, R466, R467,
R468, R469, R443) -/
def Obligations.SelfTests : Prop :=
    -- ST_GO of a test that may start
    (∀ (s : State) (w : Word),
      s.hub.answers s.fixed s.met .hlt 0x1F0010 = true → algOf (fieldOf w 0 4) (fieldOf w 8 3) = true →
      s.hub.algPermitted (fieldOf w 8 3) = true → (s.hub.test (fieldOf w 0 4)).run = false →
      (s.hub.test (fieldOf w 0 4)).restore = false → (s.hub.test (fieldOf w 0 4)).waiting = none → ∃ t,
        exec (.stGo w) s = .next t ∧
        t.hub.test (fieldOf w 0 4) = { (default : StTest) with run := true, alg := fieldOf w 8 3, start := s.hub.cyc } ∧
        t.hub.reg (rHltStDone (fieldOf w 0 4)) = doneWord 6 (fieldOf w 8 3) 0 0 0 ∧
        t.hub.reg (rHltStSkipped (fieldOf w 0 4)) = 0#32 ∧ t.met = s.met) ∧
    -- ST_GO of a group whose test runs: BUSY
    (∀ (s : State) (w : Word),
      s.hub.answers s.fixed s.met .hlt 0x1F0010 = true → algOf (fieldOf w 0 4) (fieldOf w 8 3) = true →
      s.hub.algPermitted (fieldOf w 8 3) = true →
      ((s.hub.test (fieldOf w 0 4)).run = true ∨ (s.hub.test (fieldOf w 0 4)).restore = true ∨ (s.hub.test (fieldOf w 0 4)).waiting ≠ none) →
      ∃ t,
        exec (.stGo w) s = .next t ∧ t.hub.is fHltStatusStBusy = true ∧
        t.hub.reg (rHltStDone (fieldOf w 0 4)) = s.hub.reg (rHltStDone (fieldOf w 0 4)) ∧ t.hub.hlt = s.hub.hlt) ∧
    -- ST_GO of an algorithm the group or the life-cycle state does not allow: NOT_PERMITTED
    (∀ (s : State) (w : Word),
      s.hub.answers s.fixed s.met .hlt 0x1F0010 = true →
      (fieldOf w 0 4 < 8 ∨ (fieldOf w 0 4 = 8 ∧ s.fixed.variant.hasMet = true)) →
      (algOf (fieldOf w 0 4) (fieldOf w 8 3) = false ∨ s.hub.algPermitted (fieldOf w 8 3) = false) → ∃ t,
        exec (.stGo w) s = .next t ∧
        (fieldOf w 8 3 < 5 → t.hub.reg (rHltStDone (fieldOf w 0 4)) = doneWord 4 (fieldOf w 8 3) 0 0 0) ∧
        fieldOf (t.hub.reg (rHltStDone (fieldOf w 0 4))) 25 7 = 4 * 8 + fieldOf w 8 3 ∧ t.hub.hlt = s.hub.hlt) ∧
    -- ST_GO of group 8 of a hub without the partition: NOT_PRESENT
    (∀ (s : State) (w : Word),
      s.hub.answers s.fixed s.met .hlt 0x1F0010 = true → fieldOf w 0 4 = 8 → s.fixed.variant.hasMet = false → ∃ t,
        exec (.stGo w) s = .next t ∧ fieldOf (t.hub.reg (rHltStDone 8)) 25 7 = 5 * 8 + fieldOf w 8 3 ∧
        t.hub.hlt = s.hub.hlt) ∧
    -- ST_GO and ST_ABORT while the registers do not answer: no test changes
    (∀ (s : State) (w : Word),
      s.hub.answers s.fixed s.met .hlt 0x1F0010 = false → ∃ t,
        exec (.stGo w) s = .next t ∧ exec (.stAbort w) s = .next t ∧ t.hub.hlt = s.hub.hlt ∧ t.hub.flt = s.hub.flt) ∧
    -- ST_GO of a number that is no group (log entry 123: the model's choice)
    (∀ (s : State) (w : Word),
      s.hub.answers s.fixed s.met .hlt 0x1F0010 = true → 8 < fieldOf w 0 4 → ∃ t,
        exec (.stGo w) s = .next t ∧ t.hub.hlt = s.hub.hlt ∧
        (∀ a, a ≠ 0x30 ∧ a ≠ rHltStCtl → t.hub.reg a = s.hub.reg a)) ∧
    -- ST_ABORT of a running test
    (∀ (s : State) (w : Word),
      s.hub.answers s.fixed s.met .hlt 0x1F0010 = true → fieldOf w 0 4 ≤ 8 → (s.hub.test (fieldOf w 0 4)).run = true →
      (s.hub.test (fieldOf w 0 4)).cause = 0 → ∃ t,
        exec (.stAbort w) s = .next t ∧ t.hub.test (fieldOf w 0 4) = { s.hub.test (fieldOf w 0 4) with cause := 1 } ∧
        (∀ a, a ≠ 0x30 ∧ a ≠ rHltStCtl → t.hub.reg a = s.hub.reg a)) ∧
    -- ST_ABORT of a group whose test does not run, or has been ended before
    (∀ (s : State) (w : Word),
      s.hub.answers s.fixed s.met .hlt 0x1F0010 = true →
      ((s.hub.test (fieldOf w 0 4)).run = false ∨ (s.hub.test (fieldOf w 0 4)).cause ≠ 0) → ∃ t,
        exec (.stAbort w) s = .next t ∧ t.hub.hlt = s.hub.hlt ∧
        (∀ a, a ≠ 0x30 ∧ a ≠ rHltStCtl → t.hub.reg a = s.hub.reg a)) ∧
    -- ST_STARVED of a group that runs no transparent test
    (∀ (s : State) (g : Fin 9),
      ((s.hub.test g).run = false ∨ (s.hub.test g).alg ≠ 2 ∨ (s.hub.test g).cause ≠ 0) → ∃ t,
        exec (.stStarved g) s = .next t ∧ t.hub.hlt = s.hub.hlt ∧ (∀ a, a ≠ 0x30 → t.hub.reg a = s.hub.reg a)) ∧
    -- ST_STARVED of a transparent test
    (∀ (s : State) (g : Fin 9),
      (s.hub.test g).run = true → (s.hub.test g).alg = 2 → (s.hub.test g).cause = 0 → ∃ t,
        exec (.stStarved g) s = .next t ∧ t.hub.test g = { s.hub.test g with cause := 4 } ∧
        (∀ a, a ≠ 0x30 → t.hub.reg a = s.hub.reg a)) ∧
    -- ST_COMPLETE of a transparent or ROM test, complete or ended early
    (∀ (s : State) (g : Fin 9) (r : StResult),
      (s.hub.test g).run = true → 2 ≤ (s.hub.test g).alg → ∃ t,
        exec (.stComplete g r) s = .next t ∧
        t.hub.reg (rHltStDone g) = doneWord (stResult (satTo 10 (r.fails.toNat + s.hub.badWords g (s.hub.test g))) r.sigBad (if (s.hub.test g).cause = 0 then algElements (s.hub.test g).alg else min r.elements.toNat (algElements (s.hub.test g).alg)) (algElements (s.hub.test g).alg)) (s.hub.test g).alg (s.hub.test g).cause (if (s.hub.test g).cause = 0 then algElements (s.hub.test g).alg else min r.elements.toNat (algElements (s.hub.test g).alg)) (satTo 10 (r.fails.toNat + s.hub.badWords g (s.hub.test g))) ∧
        t.hub.is fHltStatusStDone = true ∧
        (((satTo 10 (r.fails.toNat + s.hub.badWords g (s.hub.test g))) ≠ 0 ∨ r.sigBad = true) → t.hub.is fHltStatusStFail = true) ∧
        (t.hub.test g).run = false ∧
        (t.hub.test g).restore = decide ((s.hub.test g).alg = 2 ∧ (s.hub.test g).cause ≠ 0) ∧
        t.hub.reg (rHltStDur g) = w32 r.micros.toNat ∧ t.hub.reg (rHltStFail g) = w32 r.first.toNat ∧
        t.hub.reg (rHltStTested g) = w32 r.tested.toNat ∧
        t.hub.reg (rHltStSkipped g) = w32 (satTo 32 ((s.hub.reg (rHltStSkipped g)).toNat + r.skipped.toNat))) ∧
    -- ST_COMPLETE of a destructive test: the recovery that ends it starts
    (∀ (s : State) (g : Fin 9) (r : StResult),
      (s.hub.test g).run = true → (s.hub.test g).alg < 2 →
      s.hub.flt.recs.any (fun x => decide (stScope g ≤ x.scope)) = false → ∃ t,
        exec (.stComplete g r) s = .next t ∧ t.hub.flt.recs.any (fun x => x.scope == stScope g) = true ∧
        (g.val = 0 → (s.hub.test g).cause = 0 → t.hub.stockFill = 0x5555555555555555#64) ∧
        t.hub.rd fGlbStatusRun = 4 ∧ (t.hub.test g).run = false ∧ (t.hub.test g).waiting.isSome = true) ∧
    -- ST_COMPLETE of a destructive test under a recovery at least as wide: its completion waits for that
    (∀ (s : State) (g : Fin 9) (r : StResult),
      (s.hub.test g).run = true → (s.hub.test g).alg < 2 →
      s.hub.flt.recs.any (fun x => decide (stScope g ≤ x.scope)) = true → ∃ t,
        exec (.stComplete g r) s = .next t ∧ t.hub.flt = s.hub.flt ∧ (t.hub.test g).run = false ∧
        (t.hub.test g).waiting.isSome = true ∧ (∀ a, a ≠ 0x30 → t.hub.reg a = s.hub.reg a)) ∧
    -- ST_COMPLETE of a group whose test does not run
    (∀ (s : State) (g : Fin 9) (r : StResult),
      (s.hub.test g).run = false → ∃ t,
        exec (.stComplete g r) s = .next t ∧ t.hub.hlt = s.hub.hlt ∧ (∀ a, a ≠ 0x30 → t.hub.reg a = s.hub.reg a)) ∧
    -- ST_RESTORE_PASS_DONE
    (∀ (s : State) (g : Fin 9),
      (s.hub.test g).restore = true → ∃ t,
        exec (.stRestorePassDone g) s = .next t ∧ t.hub.test g = { s.hub.test g with restore := false } ∧
        (∀ a, a ≠ 0x30 → t.hub.reg a = s.hub.reg a)) ∧
    -- ST_RESTORE_PASS_DONE of a group that restores nothing
    (∀ (s : State) (g : Fin 9),
      (s.hub.test g).restore = false → ∃ t,
        exec (.stRestorePassDone g) s = .next t ∧ t.hub.hlt = s.hub.hlt ∧ (∀ a, a ≠ 0x30 → t.hub.reg a = s.hub.reg a))

/-- The control cycle and what the planner waits for. A control cycle comes at its trigger or 10 ms after the last,
reads every monitor whose clock runs and keeps its least margin; with the planner on, a margin below critical raises the
core voltage once nothing moves; the end of a month writes the LEDGER record and begins the counts anew; a settled
supply lets the next step come, and a trim applies between transactions only. (R471, R472, R473, R474, R475, R476, R478) -/
def Obligations.ControlCycles : Prop :=
    -- CONTROL_CYCLE, whatever the planner does
    (∀ (s : State) (margins : List (BitVec 8)) (drift : BitVec 16) (temp : BitVec 8) (eyes : BitVec 24),
      s.hub.clk.gates = true → ∃ t,
        exec (.controlCycle margins drift temp eyes) s = .next t ∧
        (∀ i : Fin 64, s.hub.domainRuns (i / 8) = true → t.hub.rd (fHltMonNow i) = (margins.getD i 0#8).toNat) ∧
        (∀ i : Fin 64, s.hub.domainRuns (i / 8) = false → t.hub.rd (fHltMonNow i) = s.hub.rd (fHltMonNow i)) ∧
        t.hub.hlt.cycles = s.hub.hlt.cycles + 1 ∧ t.hub.cells = s.hub.cells ∧ t.met = s.met) ∧
    -- CONTROL_CYCLE without a trigger: 10 ms of TCLK after the last one
    (∀ (s : State) (margins : List (BitVec 8)) (drift : BitVec 16) (temp : BitVec 8) (eyes : BitVec 24),
      s.hub.clk.gates = true → s.hub.cycleTrig = false → ∃ t,
        exec (.controlCycle margins drift temp eyes) s = .next t ∧
        t.hub.hlt.lastCyc = max s.hub.cyc (s.hub.hlt.lastCyc + 8000000) ∧
        t.hub.cyc = max s.hub.cyc (s.hub.hlt.lastCyc + 8000000)) ∧
    -- CONTROL_CYCLE that ends a month, the planner off: the LEDGER record, and the month's counts begin anew
    (∀ (s : State) (margins : List (BitVec 8)) (drift : BitVec 16) (temp : BitVec 8) (eyes : BitVec 24),
      s.hub.clk.gates = true → s.hub.cycleTrig = true → s.hub.plannerOn = false →
      2592000000000 ≤ s.hub.hlt.month + (s.hub.cyc - s.hub.hlt.lastCyc) / 800 → ∃ t,
        exec (.controlCycle margins drift temp eyes) s = .next t ∧ t.hub.is fHltStatusLedger = true ∧
        t.hub.rd fHltPlanMonth = (s.hub.rd fHltPlanMonth + 1) % 2 ^ fHltPlanMonth.len ∧
        (∀ i : Fin 64, t.hub.rd (fHltMonMin i) = 255) ∧
        t.hub.hlt.month = s.hub.hlt.month + (s.hub.cyc - s.hub.hlt.lastCyc) / 800 - 2592000000000 ∧
        t.hub.hlt.passed = 0 ∧ t.hub.hlt.notPassed = 0 ∧ t.hub.hlt.upsets = 0 ∧ t.hub.hlt.recs = 0 ∧ t.hub.hlt.eyeMin = [] ∧
        t.hub.rd fHltPlanVddc = s.hub.rd fHltPlanVddc) ∧
    -- CONTROL_CYCLE while no clock runs
    (∀ (s : State) (margins : List (BitVec 8)) (drift : BitVec 16) (temp : BitVec 8) (eyes : BitVec 24),
      s.hub.clk.gates = false → ∃ t,
        exec (.controlCycle margins drift temp eyes) s = .next t ∧ t.hub.hlt = s.hub.hlt ∧
        (∀ a, a ≠ 0x30 → t.hub.reg a = s.hub.reg a)) ∧
    -- CONTROL_CYCLE driven by a trigger, the planner off, inside the month
    (∀ (s : State) (margins : List (BitVec 8)) (drift : BitVec 16) (temp : BitVec 8) (eyes : BitVec 24),
      s.hub.clk.gates = true → s.hub.cycleTrig = true → s.hub.plannerOn = false → s.hub.hlt.cycles ≠ 99 →
      s.hub.hlt.month + (s.hub.cyc - s.hub.hlt.lastCyc) / 800 < 2592000000000 → ∃ t,
        exec (.controlCycle margins drift temp eyes) s = .next t ∧
        (∀ i : Fin 64, s.hub.domainRuns (i / 8) = true → t.hub.rd (fHltMonNow i) = (margins.getD i 0#8).toNat ∧ t.hub.rd (fHltMonMin i) = min (s.hub.rd (fHltMonMin i)) (margins.getD i 0#8).toNat) ∧
        (∀ i : Fin 64, s.hub.domainRuns (i / 8) = false → t.hub.reg (rHltMon i) = s.hub.reg (rHltMon i)) ∧
        t.hub.hlt.cycles = s.hub.hlt.cycles + 1 ∧ t.hub.hlt.lastCyc = s.hub.cyc ∧
        t.hub.hlt.tempHi = max s.hub.hlt.tempHi (temp.toInt + 129).toNat ∧
        t.hub.rd fHltPlanVddc = s.hub.rd fHltPlanVddc ∧ t.met = s.met) ∧
    -- CONTROL_CYCLE with the planner on, FCLK at its plan and every margin below critical: VDDC rises by one code
    (∀ (s : State) (margins : List (BitVec 8)) (drift : BitVec 16) (temp : BitVec 8) (eyes : BitVec 24),
      s.hub.clk.gates = true → s.hub.cycleTrig = true → s.hub.mayStep = true → s.hub.abovePlan = false →
      (∀ m, m ∈ margins → m.toNat < s.hub.mCrit) → 0 < s.hub.mCrit → s.hub.rd fHltPlanVddc < 10 →
      s.hub.hlt.cycles ≠ 99 → s.hub.hlt.month + (s.hub.cyc - s.hub.hlt.lastCyc) / 800 < 2592000000000 → ∃ t,
        exec (.controlCycle margins drift temp eyes) s = .next t ∧ t.hub.rd fHltPlanVddc = s.hub.rd fHltPlanVddc + 1 ∧
        t.hub.hlt.settling = true ∧ t.hub.is fHltStatusMarginLow = true) ∧
    -- VDDC_SETTLED
    (∀ (s : State),
      ∃ t,
        exec .vddcSettled s = .next t ∧ t.hub.hlt = { s.hub.hlt with settling := false } ∧
        (∀ a, a ≠ 0x30 → t.hub.reg a = s.hub.reg a)) ∧
    -- WCLK_RETRIM_APPLY with every two-wire controller between transactions
    (∀ (s : State),
      (List.range 8).all (fun c => (NMap.get s.hub.tw c).kind == 0) = true → ∃ t,
        exec .wclkRetrimApply s = .next t ∧ t.hub.hlt = { s.hub.hlt with retrim := false } ∧
        (∀ a, a ≠ 0x30 → t.hub.reg a = s.hub.reg a)) ∧
    -- WCLK_RETRIM_APPLY with a transaction in progress: the trim waits
    (∀ (s : State),
      (List.range 8).all (fun c => (NMap.get s.hub.tw c).kind == 0) = false → ∃ t,
        exec .wclkRetrimApply s = .next t ∧ t.hub.hlt = s.hub.hlt ∧ (∀ a, a ≠ 0x30 → t.hub.reg a = s.hub.reg a))

/-- Dips of a rail and the reduced monitor plan. A rail that falls below its warning level starts a dip, ends a
transmission with SUPPLY and every running self-test with cause SUPPLY, and has the partition commit its held evidence;
samples lower the dip's voltage; a dip whose window has passed is shown and counted with its class, length and lowest
voltage; a dip of 2 ms on a masked rail puts the reduced plan in force, and the end of the last masked dip ends it. A
rail in no dip, or not watched, changes nothing. (R494, R495, R496, R497, R498, R468, R389) -/
def Obligations.DipsAndReduced : Prop :=
    -- SUPPLY_WARNING of a rail that is in no dip
    (∀ (s : State) (rail : Fin 12) (mv : BitVec 16),
      s.hub.railWatched s.fixed rail = true → (s.hub.dip rail).on = false → ∃ t,
        exec (.supplyWarning rail mv) s = .next t ∧
        t.hub.dip rail = { s.hub.dip rail with on := true, start := s.hub.cyc, low := mv.toNat, win := 0, atReset := false } ∧
        t.hub.rd fClkSupNowWarn = s.hub.rd fClkSupNowWarn ||| 2 ^ rail.val ∧
        (∀ c, s.hub.rad.cmd = some c → c.op = 3 → t.hub.rd fRadAbortReason = 2 ∧ t.hub.is fRadStatusTxAbort = true) ∧
        (∀ g : Fin 9, (s.hub.test g).run = true → (s.hub.test g).cause = 0 → (t.hub.test g).cause = 3) ∧
        t.hub.cells = s.hub.cells ∧ t.hub.q = s.hub.q ∧
        (rail.val ≠ 0 ∧ rail.val ≠ 1 ∧ rail.val < 10 → t.met = s.met) ∧
        (s.fixed.variant.hasMet = true → s.met.up = true → rail.val = 0 ∨ rail.val = 1 ∨ 10 ≤ rail.val → t.met.seams = []) ∧
        (s.fixed.variant.hasMet = true → s.met.up = true → 10 ≤ rail.val → t.met.phase = 0 ∧ t.met.warn.testBit rail = true)) ∧
    -- SUPPLY_WARNING within a dip: it simply continues
    (∀ (s : State) (rail : Fin 12) (mv : BitVec 16),
      s.hub.railWatched s.fixed rail = true → (s.hub.dip rail).on = true → ∃ t,
        exec (.supplyWarning rail mv) s = .next t ∧
        t.hub.dip rail = { s.hub.dip rail with low := min (s.hub.dip rail).low mv.toNat, win := 0 } ∧
        (∀ a, a ≠ 0x30 → t.hub.reg a = s.hub.reg a)) ∧
    -- SUPPLY_WARNING and RAIL_RESET_LEVEL of a rail that is not watched: absent, or away with the sleep (log entry 126, DEDUCED)
    (∀ (s : State) (rail : Fin 12) (mv : BitVec 16),
      s.hub.railWatched s.fixed rail = false → ∃ t,
        exec (.supplyWarning rail mv) s = .next t ∧ exec (.railResetLevel rail) s = .next t ∧ t.hub.sup = s.hub.sup ∧
        t.met = s.met ∧ (∀ a, a ≠ 0x30 → t.hub.reg a = s.hub.reg a)) ∧
    -- DIP_SAMPLE
    (∀ (s : State) (rail : Fin 12) (mv : BitVec 16),
      ∃ t,
        exec (.dipSample rail mv) s = .next t ∧
        ((s.hub.dip rail).on = true → t.hub.dip rail = { s.hub.dip rail with low := min (s.hub.dip rail).low mv.toNat }) ∧
        ((s.hub.dip rail).on = false → t.hub.sup = s.hub.sup) ∧ t.met = s.met ∧
        (∀ a, a ≠ 0x30 → t.hub.reg a = s.hub.reg a)) ∧
    -- RECOVERY_WINDOW_RESTART
    (∀ (s : State) (rail : Fin 12),
      (s.hub.dip rail).on = true → ∃ t,
        exec (.recoveryWindowRestart rail) s = .next t ∧
        t.hub.dip rail = { s.hub.dip rail with win := s.hub.cyc + 1 } ∧ (∀ a, a ≠ 0x30 → t.hub.reg a = s.hub.reg a)) ∧
    -- RECOVERY_WINDOW_RESTART and SUPPLY_RECOVERED of a rail in no dip
    (∀ (s : State) (rail : Fin 12),
      (s.hub.dip rail).on = false → ∃ t,
        exec (.recoveryWindowRestart rail) s = .next t ∧ exec (.supplyRecovered rail) s = .next t ∧
        t.hub.sup = s.hub.sup ∧ t.met = s.met ∧ (∀ a, a ≠ 0x30 → t.hub.reg a = s.hub.reg a)) ∧
    -- SUPPLY_RECOVERED: time reaches the end of its window at the latest
    (∀ (s : State) (rail : Fin 12),
      (s.hub.dip rail).on = true → ∃ t,
        exec (.supplyRecovered rail) s = .next t ∧
        t.hub.dip rail = { s.hub.dip rail with on := false, count := (s.hub.dip rail).count + 1 } ∧
        t.hub.rd fClkSupNowWarn = s.hub.rd fClkSupNowWarn &&& (4095 - 2 ^ rail.val) ∧
        (t.hub.rd fClkSupDipDip).testBit rail = true ∧ t.hub.rd fClkSupLastRail = rail ∧
        t.hub.rd fClkSupLastClass = s.hub.dipClass rail (s.hub.dip rail) ∧
        t.hub.rd fClkSupMinMv = (s.hub.dip rail).low % 65536 ∧
        t.hub.rd fClkSupMinCount = satTo 16 (s.hub.rd fClkSupMinCount + 1) ∧
        (s.hub.clk.gates = true → (if (s.hub.dip rail).win = 0 then (s.hub.dip rail).start else (s.hub.dip rail).win - 1) + 80000 ≤ t.hub.cyc) ∧
        (s.hub.is fClkSupNowReduced = true → (∀ q ∈ List.range 12, q ≠ rail.val → (s.hub.dip q).on = true → (s.hub.cf 13 1 0 0 12).testBit q = false) → t.hub.is fClkSupNowReduced = false ∧ t.hub.is fClkSupDipReducedLeave = true) ∧
        (s.hub.is fClkSupNowReduced = true → (∃ q ∈ List.range 12, q ≠ rail.val ∧ (s.hub.dip q).on = true ∧ (s.hub.cf 13 1 0 0 12).testBit q = true) → t.hub.is fClkSupNowReduced = true)) ∧
    -- SUPPLY_RECOVERED when the restarted window of 100 µs (80,000 TCLK cycles) has passed, no plan in force
    (∀ (s : State) (rail : Fin 12),
      (s.hub.dip rail).on = true → (s.hub.dip rail).win ≠ 0 → (s.hub.dip rail).win - 1 + 80000 ≤ s.hub.cyc →
      s.hub.is fClkSupNowReduced = false → ∃ t,
        exec (.supplyRecovered rail) s = .next t ∧
        t.hub.dip rail = { s.hub.dip rail with on := false, count := (s.hub.dip rail).count + 1 } ∧
        t.hub.rd fClkSupNowWarn = s.hub.rd fClkSupNowWarn &&& (4095 - 2 ^ rail.val) ∧
        (t.hub.rd fClkSupDipDip).testBit rail = true ∧ t.hub.rd fClkSupLastRail = rail ∧
        t.hub.rd fClkSupLastClass = s.hub.dipClass rail (s.hub.dip rail) ∧
        t.hub.rd fClkSupLastDur = satTo 26 (((s.hub.dip rail).win - 1 - (s.hub.dip rail).start) / 800) ∧
        t.hub.rd fClkSupMinMv = (s.hub.dip rail).low % 65536 ∧
        t.hub.rd fClkSupMinCount = satTo 16 (s.hub.rd fClkSupMinCount + 1)) ∧
    -- REDUCED_ENTER with a masked rail in a dip that has not reached its reset level
    (∀ (s : State) (r : Fin 12),
      (s.hub.dip r).on = true → (s.hub.dip r).atReset = false → (s.hub.cf 13 1 0 0 12).testBit r = true →
      s.hub.cf 13 1 0 12 1 = 1 → s.hub.is fClkSupNowReduced = false → ∃ t,
        exec .reducedEnter s = .next t ∧ t.hub.is fClkSupNowReduced = true ∧ t.hub.is fClkSupDipReducedEnter = true ∧
        (s.hub.cf 13 1 0 13 1 = 1 → t.hub.rad.mode = 0) ∧
        (∀ k, s.hub.cf 13 1 0 14 1 = 1 → (NMap.get t.hub.job k).buf = []) ∧
        (∀ c, t.hub.ctxHeld c = true ↔ s.hub.cf 13 1 (2 + c / 32) (c % 32) 1 = 0) ∧ t.hub.cells = s.hub.cells) ∧
    -- REDUCED_ENTER without a plan, in it, or with no masked rail in a dip above its reset level
    (∀ (s : State),
      ((∀ r ∈ List.range 12, (s.hub.dip r).on = true → (s.hub.dip r).atReset = true ∨ (s.hub.cf 13 1 0 0 12).testBit r = false) ∨ s.hub.cf 13 1 0 12 1 = 0 ∨ s.hub.is fClkSupNowReduced = true) →
      ∃ t,
        exec .reducedEnter s = .next t ∧ t.hub.sup = s.hub.sup ∧ t.met = s.met ∧
        (∀ a, a ≠ 0x30 → t.hub.reg a = s.hub.reg a))

/-- Rails at their reset level, release, nRST and the oscillator of the kettle. A core rail at its reset level, or nRST
low, is a POR with its cause; a bank at its reset level holds its ports and controllers in PORT reset until it is
released with its class detected anew (log entry 127, DEDUCED); a partition rail puts the partition into MPOR; ACLK
shows its start; a factory change moves the life-cycle state only along the arcs of the rules, to SERVICE with MLID_OPEN
high. (R492, R494, R501, R430, R428, R460, R461, R17) -/
def Obligations.RailsAndReset : Prop :=
    -- RAIL_RESET_LEVEL of VIN, VDDC, VDDA or VDDK: POR
    (∀ (s : State) (rail : Fin 12),
      s.hub.railWatched s.fixed rail = true → (rail.val = 0 ∨ rail.val = 1 ∨ rail.val = 8 ∨ rail.val = 9) → ∃ t,
        exec (.railResetLevel rail) s = .next t ∧
        (t.hub.rd fClkSupCauseCause = (if rail.val = 0 then 2 else if rail.val = 1 then 3 else if rail.val = 8 then 4 else 0)) ∧
        t.hub.cells = [] ∧ t.hub.q = [] ∧ t.hub.sp = [] ∧ t.hub.clk = default ∧
        t.hub.is fLdrStatusConfigured = false ∧ t.hub.rd fGlbStatusRun = 0 ∧ t.met = s.met ∧ t.pending = s.pending) ∧
    -- RAIL_RESET_LEVEL of a bank or VDDL: its units are held
    (∀ (s : State) (rail : Fin 12),
      s.hub.railWatched s.fixed rail = true → 2 ≤ rail.val → rail.val ≤ 7 → ∃ t,
        exec (.railResetLevel rail) s = .next t ∧ (t.hub.dip rail).atReset = true ∧ t.hub.railHeld rail = true ∧
        (3 ≤ rail.val → rail.val ≤ 5 → ∀ i : Fin 8, (t.hub.port (8 * (rail.val - 3) + i)).fifo = []) ∧
        (rail.val = 6 → ∀ i : Fin 8, (NMap.get t.hub.tw i).kind = 0) ∧
        (rail.val = 7 → ∀ p, p < s.fixed.variant.linkCount → t.hub.rd (fCasPStatusState p) = 0) ∧
        t.hub.cells = s.hub.cells ∧ t.met = s.met) ∧
    -- RAIL_RESET_LEVEL of a rail of the partition: MPOR begins, its FeRAM stays
    (∀ (s : State) (rail : Fin 12),
      s.hub.railWatched s.fixed rail = true → 10 ≤ rail.val → ∃ t,
        exec (.railResetLevel rail) s = .next t ∧ t.met.up = false ∧ t.met.log = s.met.log ∧ t.met.phase = 0 ∧
        t.hub.is fHltLcValid = false ∧ t.hub.cells = s.hub.cells) ∧
    -- RAIL_RELEASE of a rail that was held
    (∀ (s : State) (rail : Fin 12) (hi : Bool),
      s.hub.railHeld rail = true → ∃ t,
        exec (.railRelease rail hi) s = .next t ∧ t.hub.railHeld rail = false ∧
        (2 ≤ rail.val → rail.val ≤ 6 → t.hub.rd fClkSupBankBank / 2 ^ (rail.val - 2) % 2 = b2n hi) ∧
        (∀ a, a ≠ 0x30 ∧ a ≠ rClkSupNow ∧ a ≠ rClkSupBank → t.hub.reg a = s.hub.reg a)) ∧
    -- RAIL_RELEASE of a rail that is not held
    (∀ (s : State) (rail : Fin 12) (hi : Bool),
      s.hub.railHeld rail = false → ∃ t,
        exec (.railRelease rail hi) s = .next t ∧ t.hub.sup = s.hub.sup ∧ t.met = s.met ∧
        (∀ a, a ≠ 0x30 → t.hub.reg a = s.hub.reg a)) ∧
    -- NRST_LOW
    (∀ (s : State),
      ∃ t,
        exec .nrstLow s = .next t ∧ t.hub.rd fClkSupCauseCause = 1 ∧ t.hub.cells = [] ∧ t.hub.q = [] ∧
        t.hub.clk = default ∧ t.hub.is fLdrStatusConfigured = false ∧ t.hub.rd fGlbStatusRun = 0 ∧ t.met = s.met) ∧
    -- ACLK_START
    (∀ (s : State),
      ∃ t,
        exec .aclkStart s = .next t ∧ t.hub.is fClkStatusAclkOk = true ∧
        (∀ a, a ≠ 0x30 ∧ a ≠ rClkStatus → t.hub.reg a = s.hub.reg a)) ∧
    -- LIFE_CYCLE_FACTORY_CHANGE of a part with a partition, but for the arc to SERVICE
    (∀ (s : State) (state : Fin 8),
      s.fixed.variant.hasMet = true → s.met.up = true → lcFactory (s.met.rd fMetLidState) state = true →
      state.val ≠ 3 → ∃ t,
        exec (.lifeCycleFactoryChange state) s = .next t ∧ t.met.rd fMetLidState = state ∧
        t.hub.rd fHltLcState = state ∧ t.hub.rd fGlbStatusLc = state ∧ t.hub.is fHltLcValid = true ∧
        t.met.cells = s.met.cells ∧ t.hub.cells = s.hub.cells) ∧
    -- LIFE_CYCLE_FACTORY_CHANGE from OPEN to SERVICE, MLID_OPEN high: the configuration goes
    (∀ (s : State) (state : Fin 8),
      s.fixed.variant.hasMet = true → s.met.up = true → s.met.rd fMetLidState = 1 → s.met.is fMetLidMlid = true →
      state.val = 3 → ∃ t,
        exec (.lifeCycleFactoryChange state) s = .next t ∧ t.met.rd fMetLidState = 3 ∧ t.met.cells = [] ∧
        t.met.outcome = 0 ∧ t.met.is fMetStatusUnconf = true ∧ t.hub.rd fHltLcState = 3) ∧
    -- LIFE_CYCLE_FACTORY_CHANGE outside the arcs, to SERVICE with MLID_OPEN low, or in MPOR: nothing
    (∀ (s : State) (state : Fin 8),
      ((s.fixed.variant.hasMet = true ∧ (s.met.up = false ∨ lcFactory (s.met.rd fMetLidState) state = false ∨ (state.val = 3 ∧ s.met.is fMetLidMlid = false))) ∨ (s.fixed.variant.hasMet = false ∧ (lcFactory s.hub.hlt.factory state = false ∨ state.val = 4))) →
      ∃ t,
        exec (.lifeCycleFactoryChange state) s = .next t ∧ t.met = s.met ∧ t.hub.hlt = s.hub.hlt ∧
        (∀ a, a ≠ 0x30 → t.hub.reg a = s.hub.reg a)) ∧
    -- LIFE_CYCLE_FACTORY_CHANGE of a DX-192U
    (∀ (s : State) (state : Fin 8),
      s.fixed.variant.hasMet = false → lcFactory s.hub.hlt.factory state = true → state.val ≠ 4 → ∃ t,
        exec (.lifeCycleFactoryChange state) s = .next t ∧ t.hub.hlt.factory = state ∧ t.hub.lcState = state ∧
        t.hub.rd fGlbStatusLc = state ∧ t.met = s.met)

/-- Sleep, the wake receiver and the wake. A sleep with a reason against it is refused with the first reason; else every
clock but ACLK stops and the hub keeps only what the kettle retains; a telegram for this hub is counted and acts by its
command, any other is nothing; the timer and the telegrams ask a sleeping hub to wake; the wake records its source,
advances every timebase by the cycles asleep and starts the clocks. (R502, R503, R504, R323, R387, R388, R77, R71) -/
def Obligations.SleepAndWake : Prop :=
    -- SLEEP_REQUEST that is refused
    (∀ (s : State),
      s.hub.asleep = false → s.hub.sleepReason s.met ≠ 0 → ∃ t,
        exec .sleepRequest s = .next t ∧ t.hub.is fClkSleepRefused = true ∧
        t.hub.rd fClkSleepReason = s.hub.sleepReason s.met ∧ t.hub.asleep = false ∧
        (∀ a, a ≠ 0x30 ∧ a ≠ rClkSleep → t.hub.reg a = s.hub.reg a)) ∧
    -- SLEEP_REQUEST that is granted: the kettle keeps timebases, the timer's actions and their registers
    (∀ (s : State),
      s.hub.asleep = false → s.hub.sleepReason s.met = 0 → NMap.wf s.hub.regs resetWord = true →
      NMap.wf s.hub.tb (fun _ => default) = true → ∃ t,
        exec .sleepRequest s = .next t ∧ t.hub.asleep = true ∧ t.hub.rd fGlbStatusRun = 0 ∧
        (∀ a, sleepReg a = true → t.hub.reg a = s.hub.reg a) ∧
        (∀ k, (NMap.get t.hub.tb k).val = (NMap.get s.hub.tb k).val) ∧ t.hub.kt = s.hub.kt ∧ t.hub.cells = [] ∧
        t.hub.q = [] ∧ t.hub.stock = [] ∧ t.hub.clk = default ∧
        t.hub.is fClkStatusTimeLock = false ∧ t.hub.is fClkStatusFabLock = false ∧ t.hub.is fClkStatusRefclkOk = false ∧
        t.met = s.met) ∧
    -- SLEEP_REQUEST while the hub sleeps
    (∀ (s : State),
      s.hub.asleep = true → ∃ t,
        exec .sleepRequest s = .next t ∧ t.hub.sup = s.hub.sup ∧ t.met = s.met ∧
        (∀ a, a ≠ 0x30 → t.hub.reg a = s.hub.reg a)) ∧
    -- KT_WAKE_TIMER while the hub sleeps and an enabled action wakes
    (∀ (s : State),
      s.hub.asleep = true → s.hub.sup.wake = 0 →
      (List.range 256).any (fun a => s.hub.is (fTmKtCtlEnable a) && s.hub.is (fTmKtCtlWake a)) = true → ∃ t,
        exec .ktWakeTimer s = .next t ∧ t.hub.sup.wake = 4 ∧ (∀ a, a ≠ 0x30 → t.hub.reg a = s.hub.reg a)) ∧
    -- KT_WAKE_TIMER while the hub is awake, when a wake is under way, or with no action that wakes
    (∀ (s : State),
      (s.hub.asleep = false ∨ s.hub.sup.wake ≠ 0 ∨ (List.range 256).any (fun a => s.hub.is (fTmKtCtlEnable a) && s.hub.is (fTmKtCtlWake a)) = false) →
      ∃ t,
        exec .ktWakeTimer s = .next t ∧ t.hub.sup = s.hub.sup ∧ t.met = s.met ∧
        (∀ a, a ≠ 0x30 → t.hub.reg a = s.hub.reg a)) ∧
    -- WAKE_CMD_HUB for this hub
    (∀ (s : State) (addr : BitVec 16),
      s.hub.wakeMine s.fixed addr = true → ∃ t,
        exec (.wakeCmdHub addr) s = .next t ∧ t.hub.is fRadStatusWakeHit = true ∧
        t.hub.rd fRadWakeCntHits = satTo 16 (s.hub.rd fRadWakeCntHits + 1) ∧
        (s.hub.asleep = true → s.hub.sup.wake = 0 → t.hub.sup.wake = 3) ∧
        (s.hub.asleep = false → t.hub.sup = s.hub.sup) ∧ t.hub.asleep = s.hub.asleep) ∧
    -- WAKE_CMD_HOST: bit 2 of the pending wakes
    (∀ (s : State) (addr : BitVec 16),
      s.hub.wakeMine s.fixed addr = true → ∃ t,
        exec (.wakeCmdHost addr) s = .next t ∧ t.hub.is fRadStatusWakeHit = true ∧
        t.hub.rd fRadWakeCntHits = satTo 16 (s.hub.rd fRadWakeCntHits + 1) ∧
        (t.hub.rd fGlbWakePend).testBit 2 = true ∧ t.hub.sup = s.hub.sup) ∧
    -- WAKE_CMD_BOTH
    (∀ (s : State) (addr : BitVec 16),
      s.hub.wakeMine s.fixed addr = true → ∃ t,
        exec (.wakeCmdBoth addr) s = .next t ∧ (t.hub.rd fGlbWakePend).testBit 2 = true ∧
        t.hub.rd fRadWakeCntHits = satTo 16 (s.hub.rd fRadWakeCntHits + 1) ∧
        (s.hub.asleep = true → s.hub.sup.wake = 0 → t.hub.sup.wake = 3)) ∧
    -- WAKE_CMD_OTHER: counted
    (∀ (s : State) (addr : BitVec 16),
      s.hub.wakeMine s.fixed addr = true → ∃ t,
        exec (.wakeCmdOther addr) s = .next t ∧
        t.hub.rd fRadWakeCntCmdBad = satTo 8 (s.hub.rd fRadWakeCntCmdBad + 1) ∧
        t.hub.rd fRadWakeCntHits = satTo 16 (s.hub.rd fRadWakeCntHits + 1) ∧ t.hub.sup = s.hub.sup) ∧
    -- WAKE_CMD_HUB, _HOST, _BOTH and _OTHER to another address, or while the receiver is off: nothing
    (∀ (s : State) (addr : BitVec 16),
      s.hub.wakeMine s.fixed addr = false → ∃ t,
        exec (.wakeCmdHub addr) s = .next t ∧ exec (.wakeCmdHost addr) s = .next t ∧
        exec (.wakeCmdBoth addr) s = .next t ∧ exec (.wakeCmdOther addr) s = .next t ∧ t.hub.sup = s.hub.sup ∧
        t.met = s.met ∧ (∀ a, a ≠ 0x30 → t.hub.reg a = s.hub.reg a)) ∧
    -- WAKE_TELEGRAM_BAD while the receiver is enabled
    (∀ (s : State),
      s.fixed.variant.hasRad = true → s.hub.is fRadWakeEn = true → ∃ t,
        exec .wakeTelegramBad s = .next t ∧ t.hub.rd fRadWakeCntCrcBad = satTo 8 (s.hub.rd fRadWakeCntCrcBad + 1) ∧
        (∀ a, a ≠ 0x30 ∧ a ≠ rRadWakeCnt → t.hub.reg a = s.hub.reg a)) ∧
    -- WAKE_TELEGRAM_BAD while the receiver is off, or absent
    (∀ (s : State),
      (s.fixed.variant.hasRad = false ∨ s.hub.is fRadWakeEn = false) → ∃ t,
        exec .wakeTelegramBad s = .next t ∧ t.hub.sup = s.hub.sup ∧ t.met = s.met ∧
        (∀ a, a ≠ 0x30 → t.hub.reg a = s.hub.reg a)) ∧
    -- KETTLE_WAKE by the source that asked, or by the one named when none did
    (∀ (s : State) (src : Fin 16) (ticks : Nat),
      s.hub.asleep = true → s.hub.sup.wake ≤ 4 → (s.hub.sup.wake ≠ 0 ∨ (1 ≤ src.val ∧ src.val ≤ 4)) → ∃ t,
        exec (.kettleWake src ticks) s = .next t ∧ t.hub.asleep = false ∧
        t.hub.rd fClkSleepSrc = (if s.hub.sup.wake = 0 then src.val else s.hub.sup.wake) ∧
        t.hub.rd fGlbStatusRun = 5 ∧
        (∀ k : Fin 17, t.hub.tbVal k = (s.hub.tbVal k + ticks * 1000000000 * 2 ^ 33 * s.hub.tbIncr k / 0x0140000000) % tbWrap) ∧
        t.hub.kt = s.hub.kt ∧ (s.hub.clk.step = 0 → t.hub.clk.step = 1) ∧ t.met = s.met) ∧
    -- KETTLE_WAKE of a hub that is awake, or by no source
    (∀ (s : State) (src : Fin 16) (ticks : Nat),
      (s.hub.asleep = false ∨ (s.hub.sup.wake = 0 ∧ (src.val = 0 ∨ 4 < src.val)) ∨ 4 < s.hub.sup.wake) → ∃ t,
        exec (.kettleWake src ticks) s = .next t ∧ t.hub.sup = s.hub.sup ∧ t.met = s.met ∧ t.hub.tb = s.hub.tb ∧
        (∀ a, a ≠ 0x30 → t.hub.reg a = s.hub.reg a))

/-- A step runs the command that waits longest. A step with a command at the front of the queue is exec of that command
on the state with the queue's rest (the queue is the model's, log entry 1). (95_what_each_step_holds.md) -/
def Obligations.StepRunsCommand : Prop :=
  ∀ (c : Instr) (s : State) (rest : List Instr), step { s with pending := c :: rest } = exec c { s with pending := rest }

/-- A step without a command is one TCLK cycle. With no command waiting a step lets one TCLK cycle pass, which is the
model's choice (log entry 1): with the gates open and the hub awake the cycle counter and the timebases advance, else
they stand, and nothing else changes. (R307, R311) -/
def Obligations.IdleCycle : Prop :=
  (∀ s : State, s.pending = [] →
      ∃ t, step s = .next t ∧ t.fixed = s.fixed ∧ t.met = s.met ∧ t.pending = [] ∧
        t.hub = { s.hub with regs := t.hub.regs, cyc := t.hub.cyc, tb := t.hub.tb, tbMet := t.hub.tbMet } ∧
        (∀ a, a ≠ 0x30 → t.hub.reg a = s.hub.reg a) ∧
        (s.hub.clk.gates = true → s.hub.asleep = false → t.hub.cyc = s.hub.cyc + 1 ∧ ∀ n, n < 17 → t.hub.tbVal n = s.hub.tbNext n) ∧
        (s.hub.clk.gates = false ∨ s.hub.asleep = true → t.hub.cyc = s.hub.cyc ∧ t.hub.tb = s.hub.tb ∧ t.hub.tbMet = s.hub.tbMet))

/-- Every command goes on. Every command answers a next state from every state, and leaves what manufacture fixed and
the other waiting commands as they are. (R11, R447, 95_what_each_step_holds.md) -/
def Obligations.EveryCommandCompletes : Prop :=
  ∀ (c : Instr) (s : State), ∃ t, exec c s = .next t ∧ t.fixed = s.fixed ∧ t.pending = s.pending

/-- What power-on reset leaves. After power-on reset no command waits, `glb.status.run` reads 0, nothing is loaded, no
clock gate is open, every timebase is zero and counts at the nominal 1.25 ns, no cell is away from its default, and
every register but `glb.status` and `hlt.lc`, which show the life-cycle state the lid keeps (log entry 84), reads its
reset value. (R10, R307, R309, R310) -/
def Obligations.ResetValues : Prop :=
  State.reset.pending = [] ∧ State.reset.hub.rd fGlbStatusRun = 0 ∧ State.reset.hub.is fLdrStatusConfigured = false ∧
      State.reset.hub.clk.gates = false ∧ State.reset.hub.cells = [] ∧ State.reset.hub.cyc = 0 ∧ State.reset.hub.asleep = false ∧
      (∀ n, n < 18 → State.reset.hub.tbVal n = 0 ∧ State.reset.hub.tbIncr n = 0x0140000000) ∧
      State.reset.hub.rd fGlbStatusDevnum = 0 ∧ State.reset.hub.q = [] ∧ State.reset.hub.flt.recs = [] ∧
      (∀ a, a ≠ 0x4 ∧ a ≠ 0x1F0000 → State.reset.hub.reg a = resetWord a)

/-- The partition's invariant holds after reset. After power-on reset the partition's tables are canonical, every stored
record has sixteen words, fewer than five seam entries are held and an unconfigured partition holds no cell. (R413,
R415, R429) -/
def Obligations.ResetInvariant : Prop :=
  Met.inv State.reset.met

/-- Every step keeps the partition's invariant. If the partition's tables are canonical, every stored evidence record
has sixteen words, fewer than five seam entries are held, the rotation phase, the outcome, the calibrated channel and
the next channel are legal and an unconfigured partition holds no cell, then the same is so after any step, whatever
command it runs. (R401, R403, R405, R413, R415, R416, R429) -/
def Obligations.PartitionInvariant : Prop :=
  ∀ s t : State, Met.inv s.met → step s = .next t → Met.inv t.met

/-- What cannot reach the sealed partition, and what it reaches. No command but those that name a crossing of the
boundary (`Instr.reachesPartition`: host and remote accesses, METRO loads, mailbox, samples, enumeration, supplies, the
partition's own events) changes anything in the partition; no reset scope of the hub does. The partition's own events
change nothing in the hub but the pending bits of `glb.wake`. (R396, R397) -/
def Obligations.PartitionIsolation : Prop :=
  (∀ (c : Instr) (s t : State), c.reachesPartition = false → exec c s = .next t → t.met = s.met) ∧
    (∀ (c : Instr) (s t : State), c.ofPartition = true → exec c s = .next t →
      t.hub = { s.hub with regs := t.hub.regs } ∧ ∀ a, a ≠ 0x30 → t.hub.reg a = s.hub.reg a)

/-- A line that becomes active sets its pending bit. Whatever a step does, an interrupt line that was inactive before it
and is active after it has its bit set in `glb.wake.pend`, and WAKE_OUT is driven while an enabled pending bit is set.
(R76, R77) -/
def Obligations.LineRisesToPending : Prop :=
  (∀ (s t : State) (line : Fin 2), step s = .next t → irqActive s.hub s.met line = false → irqActive t.hub t.met line = true →
      (t.hub.rd fGlbWakePend).testBit line = true) ∧
    (∀ (s t : State) (line : Fin 2), step s = .next t → irqActive s.hub s.met line = false → irqActive t.hub t.met line = true →
      (t.hub.rd fGlbWakeEn).testBit line = true → t.hub.wakeOut = true)

/-- What clock and supply events leave unchanged. A REFCLK count, the WCLK trim and FCLK's requests and slew steps
change the clock record and `clk.status` alone; a rail's release changes its two clock registers alone; a dip's samples
and window change that rail's dip record alone; VDDC's settling, the retrim and the wake timer change one record and no
register. (R10, R15, R16, R491, R494, R495, R497, R504) -/
def Obligations.FrameClocksAndSupplies : Prop :=
    -- FCLK_STEP_REQUEST
    (∀ (s : State) (point : Fin 3),
      ∃ t,
        exec (.fclkStepRequest point) s = .next t ∧ t.met = s.met ∧
        t.hub = { s.hub with regs := t.hub.regs, clk := t.hub.clk } ∧
        (∀ a, a ≠ 0x30 ∧ a ≠ rClkStatus → t.hub.reg a = s.hub.reg a)) ∧
    -- FCLK_SLEW_STEP
    (∀ (s : State),
      ∃ t,
        exec .fclkSlewStep s = .next t ∧ t.met = s.met ∧ t.hub = { s.hub with regs := t.hub.regs, clk := t.hub.clk } ∧
        (∀ a, a ≠ 0x30 → t.hub.reg a = s.hub.reg a)) ∧
    -- FCLK_SLEW_DONE
    (∀ (s : State),
      ∃ t,
        exec .fclkSlewDone s = .next t ∧ t.met = s.met ∧ t.hub = { s.hub with regs := t.hub.regs, clk := t.hub.clk } ∧
        (∀ a, a ≠ 0x30 ∧ a ≠ rClkStatus → t.hub.reg a = s.hub.reg a)) ∧
    -- REFCLK_COUNT_WINDOW_END
    (∀ (s : State) (pass : Bool),
      ∃ t,
        exec (.refclkCountWindowEnd pass) s = .next t ∧ t.met = s.met ∧
        t.hub = { s.hub with regs := t.hub.regs, clk := t.hub.clk } ∧
        (∀ a, a ≠ 0x30 ∧ a ≠ rClkStatus → t.hub.reg a = s.hub.reg a)) ∧
    -- REFCLK_RECOUNT
    (∀ (s : State) (pass : Bool),
      ∃ t,
        exec (.refclkRecount pass) s = .next t ∧ t.met = s.met ∧
        t.hub = { s.hub with regs := t.hub.regs, clk := t.hub.clk } ∧
        (∀ a, a ≠ 0x30 ∧ a ≠ rClkStatus → t.hub.reg a = s.hub.reg a)) ∧
    -- WCLK_TRIM_COMPLETE: no field of `clk.status` but `wclk_trim`
    (∀ (s : State),
      ∃ t,
        exec .wclkTrimComplete s = .next t ∧ t.met = s.met ∧ t.hub = { s.hub with regs := t.hub.regs } ∧
        (∀ a, a ≠ 0x30 ∧ a ≠ rClkStatus → t.hub.reg a = s.hub.reg a) ∧
        (∀ b, b ≠ 8 → (t.hub.reg rClkStatus).getLsbD b = (s.hub.reg rClkStatus).getLsbD b)) ∧
    -- RAIL_RELEASE: the other rails' bits and the warning bits stay
    (∀ (s : State) (rail : Fin 12) (hi : Bool),
      ∃ t,
        exec (.railRelease rail hi) s = .next t ∧ t.met = s.met ∧ t.hub = { s.hub with regs := t.hub.regs } ∧
        (∀ a, a ≠ 0x30 ∧ a ≠ rClkSupNow ∧ a ≠ rClkSupBank → t.hub.reg a = s.hub.reg a) ∧
        (∀ b, b ≠ 16 + rail.val → (t.hub.reg rClkSupNow).getLsbD b = (s.hub.reg rClkSupNow).getLsbD b)) ∧
    -- DIP_SAMPLE
    (∀ (s : State) (rail : Fin 12) (mv : BitVec 16),
      ∃ t,
        exec (.dipSample rail mv) s = .next t ∧ t.met = s.met ∧
        t.hub = { s.hub with regs := t.hub.regs, sup := t.hub.sup } ∧
        t.hub.sup = { s.hub.sup with dip := t.hub.sup.dip } ∧ (∀ r, r ≠ rail.val → t.hub.dip r = s.hub.dip r) ∧
        (∀ a, a ≠ 0x30 → t.hub.reg a = s.hub.reg a)) ∧
    -- RECOVERY_WINDOW_RESTART
    (∀ (s : State) (rail : Fin 12),
      ∃ t,
        exec (.recoveryWindowRestart rail) s = .next t ∧ t.met = s.met ∧
        t.hub = { s.hub with regs := t.hub.regs, sup := t.hub.sup } ∧
        t.hub.sup = { s.hub.sup with dip := t.hub.sup.dip } ∧ (∀ r, r ≠ rail.val → t.hub.dip r = s.hub.dip r) ∧
        (∀ a, a ≠ 0x30 → t.hub.reg a = s.hub.reg a)) ∧
    -- VDDC_SETTLED
    (∀ (s : State),
      ∃ t,
        exec .vddcSettled s = .next t ∧ t.met = s.met ∧
        t.hub = { s.hub with regs := t.hub.regs, hlt := { s.hub.hlt with settling := false } } ∧
        (∀ a, a ≠ 0x30 → t.hub.reg a = s.hub.reg a)) ∧
    -- WCLK_RETRIM_APPLY
    (∀ (s : State),
      ∃ t,
        exec .wclkRetrimApply s = .next t ∧ t.met = s.met ∧
        t.hub = { s.hub with regs := t.hub.regs, hlt := { s.hub.hlt with retrim := t.hub.hlt.retrim } } ∧
        (∀ a, a ≠ 0x30 → t.hub.reg a = s.hub.reg a)) ∧
    -- KT_WAKE_TIMER
    (∀ (s : State),
      ∃ t,
        exec .ktWakeTimer s = .next t ∧ t.met = s.met ∧
        t.hub = { s.hub with regs := t.hub.regs, sup := { s.hub.sup with wake := t.hub.sup.wake } } ∧
        (∀ a, a ≠ 0x30 → t.hub.reg a = s.hub.reg a))

/-- What link and radio events leave unchanged. An acknowledgement, a SYNC, a DREQ, the closing of a DATA frame and the
start of a time exchange change the record of the ports they name and nothing else; a node's `ready` changes that node's
register and record, or the host-access status where the radio does not answer; a bad wake telegram counts and changes
nothing else. (R336, R339, R347, R350, R386, R387) -/
def Obligations.FrameLinksAndRadio : Prop :=
    -- ACK
    (∀ (s : State) (p : Fin 3) (cls : Fin 4) (seq : BitVec 12),
      ∃ t,
        exec (.ack p cls seq) s = .next t ∧ t.met = s.met ∧
        t.hub = { s.hub with regs := t.hub.regs, link := t.hub.link } ∧ (∀ k, k ≠ p.val → t.hub.lk k = s.hub.lk k) ∧
        (∀ k, k ≠ cls.val → NMap.get (t.hub.lk p).retry k = NMap.get (s.hub.lk p).retry k) ∧
        (t.hub.lk p).txq = (s.hub.lk p).txq ∧ (∀ a, a ≠ 0x30 → t.hub.reg a = s.hub.reg a)) ∧
    -- SYNC
    (∀ (s : State) (num : BitVec 16),
      ∃ t,
        exec (.sync num) s = .next t ∧ t.met = s.met ∧ t.hub = { s.hub with regs := t.hub.regs, link := t.hub.link } ∧
        (∀ k, k ≠ 0 → t.hub.lk k = s.hub.lk k) ∧ (t.hub.lk 0).txq = (s.hub.lk 0).txq ∧
        (∀ a, a ≠ 0x30 → t.hub.reg a = s.hub.reg a)) ∧
    -- DREQ
    (∀ (s : State) (p : Fin 3) (num : BitVec 16),
      ∃ t,
        exec (.dreq p num) s = .next t ∧ t.met = s.met ∧
        t.hub = { s.hub with regs := t.hub.regs, link := t.hub.link } ∧ (∀ k, k ≠ p.val → t.hub.lk k = s.hub.lk k) ∧
        (t.hub.lk p).retry = (s.hub.lk p).retry ∧ (∀ a, a ≠ 0x30 → t.hub.reg a = s.hub.reg a)) ∧
    -- TIME_EXCHANGE_START
    (∀ (s : State),
      ∃ t,
        exec .timeExchangeStart s = .next t ∧ t.met = s.met ∧
        t.hub = { s.hub with regs := t.hub.regs, link := t.hub.link } ∧
        (∀ k, k ≠ 1 ∧ k ≠ 2 → t.hub.lk k = s.hub.lk k) ∧ (∀ a, a ≠ 0x30 → t.hub.reg a = s.hub.reg a)) ∧
    -- DATA_FRAME_IDLE_CLOSE
    (∀ (s : State),
      ∃ t,
        exec .dataFrameIdleClose s = .next t ∧ t.met = s.met ∧
        t.hub = { s.hub with regs := t.hub.regs, link := t.hub.link } ∧ (∀ k, k ≠ 0 → t.hub.lk k = s.hub.lk k) ∧
        (t.hub.lk 0).gather = none ∧ (∀ a, a ≠ 0x30 → t.hub.reg a = s.hub.reg a)) ∧
    -- DCTL_READY
    (∀ (s : State) (n : Fin 48),
      ∃ t,
        exec (.dctlReady n) s = .next t ∧ t.met = s.met ∧
        t.hub = { s.hub with regs := t.hub.regs, rad := t.hub.rad } ∧
        t.hub.rad = { s.hub.rad with node := t.hub.rad.node } ∧
        (∀ k, k ≠ n.val + 1 → NMap.get t.hub.rad.node k = NMap.get s.hub.rad.node k) ∧
        (∀ a, a ≠ 0x30 ∧ a ≠ rRadNDctl n ∧ a ≠ rHstStatus ∧ a ≠ rHstLast → t.hub.reg a = s.hub.reg a)) ∧
    -- WAKE_TELEGRAM_BAD
    (∀ (s : State),
      ∃ t,
        exec .wakeTelegramBad s = .next t ∧ t.met = s.met ∧ t.hub = { s.hub with regs := t.hub.regs } ∧
        (∀ a, a ≠ 0x30 ∧ a ≠ rRadWakeCnt → t.hub.reg a = s.hub.reg a))

/-- What latching reads and held words leave unchanged. A read that latches (a timebase, a TACH input, a port's, a
channel's or a digest's stamp, a feature set) changes its latch and the word returned; a plan restart changes that
port's request; a held word of an action or a limit entry changes that holder. Where the register answers no register of
the hub changes but an entry write's discard bit and, held by a self-test, its count; where it does not, only the
host-access status and address do. (R126, R246, R269, R298, R312, R317, R319, R98) -/
def Obligations.FrameReadsAndHeldWords : Prop :=
    -- TM_NOW_READ
    (∀ (s : State) (n : Fin 18),
      ∃ t,
        exec (.tmNowRead n) s = .next t ∧ t.met = s.met ∧
        t.hub = { s.hub with regs := t.hub.regs, host := t.hub.host, tb := t.hub.tb } ∧
        (∀ k, k ≠ n.val → NMap.get t.hub.tb k = NMap.get s.hub.tb k) ∧
        (NMap.get t.hub.tb n) = { NMap.get s.hub.tb n with latch := (NMap.get t.hub.tb n).latch } ∧
        (∀ a, a ≠ 0x30 ∧ a ≠ rHstStatus ∧ a ≠ rHstLast → t.hub.reg a = s.hub.reg a) ∧
        (s.hub.answers s.fixed s.met .tm (0x1C0000 + 0x40 * n.val) = true → ∀ a, a ≠ 0x30 → t.hub.reg a = s.hub.reg a)) ∧
    -- TACH_STAMP_READ
    (∀ (s : State) (i : Fin 8),
      ∃ t,
        exec (.tachStampRead i) s = .next t ∧ t.met = s.met ∧
        t.hub = { s.hub with regs := t.hub.regs, host := t.hub.host, tach := t.hub.tach } ∧
        (∀ k, k ≠ i.val → NMap.get t.hub.tach k = NMap.get s.hub.tach k) ∧
        (∀ a, a ≠ 0x30 ∧ a ≠ rHstStatus ∧ a ≠ rHstLast → t.hub.reg a = s.hub.reg a) ∧
        (s.hub.answers s.fixed s.met .tm (0x1C0A00 + 0x20 * i.val) = true → ∀ a, a ≠ 0x30 → t.hub.reg a = s.hub.reg a)) ∧
    -- SP_STAMP_READ
    (∀ (s : State) (p : Fin 24),
      ∃ t,
        exec (.spStampRead p) s = .next t ∧ t.met = s.met ∧
        t.hub = { s.hub with regs := t.hub.regs, host := t.hub.host, sp := t.hub.sp } ∧
        (∀ k, k ≠ p.val → t.hub.port k = s.hub.port k) ∧
        t.hub.port p = { s.hub.port p with latch := (t.hub.port p).latch } ∧
        (∀ a, a ≠ 0x30 ∧ a ≠ rHstStatus ∧ a ≠ rHstLast → t.hub.reg a = s.hub.reg a) ∧
        (s.hub.answers s.fixed s.met .sp (0x040030 + 0x800 * p.val) = true → ∀ a, a ≠ 0x30 → t.hub.reg a = s.hub.reg a)) ∧
    -- SP_PLAN_RESTART
    (∀ (s : State) (p : Fin 24),
      ∃ t,
        exec (.spPlanRestart p) s = .next t ∧ t.met = s.met ∧
        t.hub = { s.hub with regs := t.hub.regs, sp := t.hub.sp } ∧ (∀ k, k ≠ p.val → t.hub.port k = s.hub.port k) ∧
        (s.hub.answers s.fixed s.met .sp (0x040028 + 0x800 * p.val) = true → t.hub.port p = { s.hub.port p with restart := true }) ∧
        (s.hub.answers s.fixed s.met .sp (0x040028 + 0x800 * p.val) = false → t.hub.port p = s.hub.port p) ∧
        (∀ a, a ≠ 0x30 ∧ a ≠ rHstStatus ∧ a ≠ rHstLast → t.hub.reg a = s.hub.reg a) ∧
        (s.hub.answers s.fixed s.met .sp (0x040028 + 0x800 * p.val) = true → ∀ a, a ≠ 0x30 → t.hub.reg a = s.hub.reg a)) ∧
    -- EV_STAMP_READ
    (∀ (s : State) (n : Fin 128),
      ∃ t,
        exec (.evStampRead n) s = .next t ∧ t.met = s.met ∧
        t.hub = { s.hub with regs := t.hub.regs, host := t.hub.host, ev := t.hub.ev } ∧
        (∀ k, k ≠ n.val → NMap.get t.hub.ev k = NMap.get s.hub.ev k) ∧
        NMap.get t.hub.ev n = { NMap.get s.hub.ev n with latch := (NMap.get t.hub.ev n).latch } ∧
        (∀ a, a ≠ 0x30 ∧ a ≠ rHstStatus ∧ a ≠ rHstLast → t.hub.reg a = s.hub.reg a) ∧
        (s.hub.answers s.fixed s.met .ev (0x181010 + 0x20 * n.val) = true → ∀ a, a ≠ 0x30 → t.hub.reg a = s.hub.reg a)) ∧
    -- DIG_SEQ_READ
    (∀ (s : State) (c : Fin 192),
      ∃ t,
        exec (.digSeqRead c) s = .next t ∧ t.met = s.met ∧
        t.hub = { s.hub with regs := t.hub.regs, host := t.hub.host, ctx := t.hub.ctx } ∧
        (∀ k, k ≠ c.val → NMap.get t.hub.ctx k = NMap.get s.hub.ctx k) ∧
        NMap.get t.hub.ctx c = { NMap.get s.hub.ctx c with digLatch := (NMap.get t.hub.ctx c).digLatch } ∧
        (∀ a, a ≠ 0x30 ∧ a ≠ rHstStatus ∧ a ≠ rHstLast → t.hub.reg a = s.hub.reg a) ∧
        (s.hub.answers s.fixed s.met .fab (0x0A0014 + 0x40 * c.val) = true → ∀ a, a ≠ 0x30 → t.hub.reg a = s.hub.reg a)) ∧
    -- FEA_VALUES_READ
    (∀ (s : State) (c : Fin 192),
      ∃ t,
        exec (.feaValuesRead c) s = .next t ∧ t.met = s.met ∧
        t.hub = { s.hub with regs := t.hub.regs, host := t.hub.host, fea := t.hub.fea } ∧
        (∀ k, k ≠ c.val → NMap.get t.hub.fea k = NMap.get s.hub.fea k) ∧
        (NMap.get t.hub.fea c).blk = (NMap.get s.hub.fea c).blk ∧
        (∀ a, a ≠ 0x30 ∧ a ≠ rHstStatus ∧ a ≠ rHstLast → t.hub.reg a = s.hub.reg a) ∧
        (s.hub.answers s.fixed s.met .spc (0x110010 + 0x40 * c.val) = true → ∀ a, a ≠ 0x30 → t.hub.reg a = s.hub.reg a)) ∧
    -- KT_HELD_WORD_WRITE
    (∀ (s : State) (x : Fin 256) (i : Fin 5) (w : Word),
      ∃ t,
        exec (.ktHeldWordWrite x i w) s = .next t ∧ t.met = s.met ∧
        t.hub = { s.hub with regs := t.hub.regs, kt := t.hub.kt } ∧
        (∀ k, k ≠ x.val → NMap.get t.hub.kt k = NMap.get s.hub.kt k) ∧
        (NMap.get t.hub.kt x).frac = (NMap.get s.hub.kt x).frac ∧
        (∀ b, b ≠ 0x30 ∧ b ≠ rHstStatus ∧ b ≠ rHstLast → t.hub.reg b = s.hub.reg b) ∧
        (s.hub.answers s.fixed s.met .tm (0x1C1000 + 0x20 * x.val + 4 * i.val) = true → ∀ b, b ≠ 0x30 → t.hub.reg b = s.hub.reg b)) ∧
    -- LIM_ENTRY_WORD_HOLD
    (∀ (s : State) (e : Fin 8192) (i : Fin 3) (w : Word),
      ∃ t,
        exec (.limEntryWordHold e i w) s = .next t ∧ t.met = s.met ∧
        t.hub = { s.hub with regs := t.hub.regs, lim := { s.hub.lim with entry := t.hub.lim.entry, buf := t.hub.lim.buf } } ∧
        (s.hub.answers s.fixed s.met .lim (0x140000 + 16 * e.val + 4 * i.val) = true → s.hub.stHeld heldLimit = false → t.hub.lim.entry = some e.val ∧ NMap.getD t.hub.lim.buf i 0#32 = w) ∧
        (s.hub.answers s.fixed s.met .lim (0x140000 + 16 * e.val + 4 * i.val) = false → t.hub.lim = s.hub.lim) ∧
        (s.hub.answers s.fixed s.met .lim (0x140000 + 16 * e.val + 4 * i.val) = true → s.hub.stHeld heldLimit = false → ∀ a, a ≠ 0x30 ∧ a ≠ rLimStatus → t.hub.reg a = s.hub.reg a) ∧
        (∀ a, a ≠ 0x30 ∧ a ≠ rHstStatus ∧ a ≠ rHstLast ∧ a ≠ rLimStatus ∧ a ≠ rHltStSkipped 4 ∧ a ≠ rHltStSkipped 6 → t.hub.reg a = s.hub.reg a))

/-- The loader takes BITSTREAM frames at UP alone. A CTRL-class BITSTREAM frame at UP, for this device or broadcast,
enters the loader FIFO where its 66 words have room (no self-test holding the FIFO); on DN or BR or under host_only it
is refused and counted; one for another device never reaches the loader. (R35) -/
def Obligations.BitstreamFromCascade : Prop :=
    -- accepted on UP, with room for its 66 words
    (∀ (s : State) (f : CasFrame),
      s.hub.rxGood 0 1 f → (f.bcast = true ∨ s.hub.route s.fixed f.dst.toNat = some 3) → (framePay f).length = 66 →
      s.hub.ldrRoom 66 = true → s.hub.is fLdrCtlHostOnly = false → ∃ t,
        exec (.bitstream 0 f) s = .next t ∧
        t.hub.ldr.fifo = s.hub.ldr.fifo ++ (framePay f).map (fun w => { src := 3, word := w }) ∧
        t.hub.rd fLdrCountRefused = s.hub.rd fLdrCountRefused) ∧
    -- refused on DN and BR, and everywhere under host_only
    (∀ (s : State) (p : Fin 3) (f : CasFrame),
      s.hub.rxGood p 1 f → (f.bcast = true ∨ s.hub.route s.fixed f.dst.toNat = some 3) →
      (p ≠ 0 ∨ s.hub.is fLdrCtlHostOnly = true) → ∃ t,
        exec (.bitstream p f) s = .next t ∧ t.hub.ldr = s.hub.ldr ∧
        t.hub.rd fLdrCountRefused = satTo 16 (s.hub.rd fLdrCountRefused + 1)) ∧
    -- addressed elsewhere
    (∀ (s : State) (p : Fin 3) (f : CasFrame),
      s.hub.rxGood p 1 f → f.bcast = false → s.hub.route s.fixed f.dst.toNat ≠ some 3 → ∃ t,
        exec (.bitstream p f) s = .next t ∧ t.hub.ldr = s.hub.ldr ∧
        t.hub.rd fLdrCountRefused = s.hub.rd fLdrCountRefused) ∧
    -- a port that is not UP takes no frame
    (∀ (s : State) (p : Fin 3) (f : CasFrame),
      s.hub.linkUp p = false → ∃ t,
        exec (.bitstream p f) s = .next t ∧ t.hub.ldr = s.hub.ldr ∧ (∀ a, a ≠ 0x30 → t.hub.reg a = s.hub.reg a))

/-- A supervisor warning ends transmissions. At a warning the running transmission ends with TX_ABORT and reason SUPPLY
(2); while a rail stands below warning every transmit command the sequencer begins, a beacon or not, ends the same way;
a running command that does not transmit, and an open reception, stay. (R389) -/
def Obligations.TransmitUnderWarning : Prop :=
  (∀ (h : Hub) (c : RadCmd), c.op = 3 → h.supWarned = true →
      (h.radBegin c).1 = true ∧ (h.radBegin c).2.rad.cmd = none ∧ (h.radBegin c).2.rad.rx = h.rad.rx ∧
        (h.radBegin c).2.is fRadStatusTxAbort = true ∧ (h.radBegin c).2.rd fRadAbortReason = 2) ∧
    -- the running transmission
    (∀ (s : State) (rail : Fin 12) (mv : BitVec 16) (c : RadCmd),
      s.hub.railWatched s.fixed rail = true → (s.hub.dip rail).on = false → s.hub.rad.cmd = some c → c.op = 3 →
      s.hub.rad.held = none → ∃ t,
        exec (.supplyWarning rail mv) s = .next t ∧ t.hub.rad.cmd = none ∧ t.hub.is fRadStatusTxAbort = true ∧
        t.hub.rd fRadAbortReason = 2 ∧ t.hub.rd fRadAbortCount = satTo 16 (s.hub.rd fRadAbortCount + 1)) ∧
    -- a transmit command under a warning
    (∀ (s : State) (w : Word),
      s.hub.answers s.fixed s.met .rad 0x1E000C = true → s.hub.radUp s.fixed = true → s.hub.rad.mode = 1 →
      11 ≤ fieldOf w 21 5 → fieldOf w 21 5 ≤ 26 → s.hub.rd fRadTxLenTxLen ≠ 0 →
      (fieldOf w 26 1 = 1 ∨ s.hub.rd fRadTxLenTxLen ≤ 125) → s.hub.rad.path.contains 3 = false →
      s.hub.rad.cmd = none → s.hub.rad.cal = none → s.hub.rad.held = none → s.hub.supWarned = true → ∃ t,
        exec (.radCmdTx w) s = .next t ∧ t.hub.rad.cmd = none ∧ t.hub.is fRadStatusTxAbort = true ∧
        t.hub.rd fRadAbortReason = 2 ∧ t.hub.rd fRadAbortCount = satTo 16 (s.hub.rd fRadAbortCount + 1) ∧
        t.hub.radState = s.hub.radState) ∧
    -- reception, and every command that does not transmit, goes on
    (∀ (s : State) (rail : Fin 12) (mv : BitVec 16),
      (s.hub.dip rail).on = false → (∀ c, s.hub.rad.cmd = some c → c.op ≠ 3) → ∃ t,
        exec (.supplyWarning rail mv) s = .next t ∧ t.hub.rad = s.hub.rad ∧ t.hub.radState = s.hub.radState ∧
        t.hub.is fRadStatusTxAbort = s.hub.is fRadStatusTxAbort)

/-- Reading an empty queue. The idle item is end 1, kind 0 (IDLE), aux 0, payload 0; a read of the window of an empty
queue answers its information or its payload word and leaves the hub as it was, whatever the queue's state is, but for
the notice to a host that reads another consumer's queue and the count of accesses that a destructive self-test refuses.
(R283) -/
def Obligations.EmptyQueueRead : Prop :=
  (idleWord.extractLsb' 39 1 = 1#1 ∧ idleWord.extractLsb' 36 3 = 0#3 ∧ idleWord.extractLsb' 32 4 = 0#4 ∧ idleWord.extractLsb' 0 32 = 0#32) ∧
    (∀ (fx : Fixed) (h : Hub) (q : Nat) (payload : Bool), (NMap.get h.q q).tail = [] → (NMap.get h.q q).mid = [] →
      (NMap.get h.q q).head = [] → (h.windowRead fx q payload).1 = (if payload then idleWord.extractLsb' 0 32 else (idleWord.extractLsb' 32 8).setWidth 32) ∧
        (h.windowRead fx q payload).2.q = h.q ∧ (h.windowRead fx q payload).2.ctx = h.ctx ∧ (h.qPop q) = none ∧
        ∀ a, a ≠ rQQStatus q ∧ (h.stHoldsQueues = true → a ≠ rHltStSkipped 0 ∧ a ≠ rHltStSkipped 5 ∧ a ≠ rHltStSkipped 6) → (h.windowRead fx q payload).2.reg a = h.reg a) ∧
    -- the word given to the host
    (∀ (s : State) (q : Fin 64) (payload : Bool),
      s.hub.answers s.fixed s.met .q (0x1A0200 + 0x400 * q.val + 4 * b2n payload) = true →
      (NMap.get s.hub.q q).tail = [] → (NMap.get s.hub.q q).mid = [] → (NMap.get s.hub.q q).head = [] → ∃ t,
        exec (.queueWindowRead q payload) s = .next t ∧ (t.hub.host.out = [if payload then 0#32 else 0x80#32]))

/-- Reading now0 latches the four words. Where the register answers, reading now0 gives the first word of the value at
that edge and latches all four; reads of now1 to now3 give the latched words whatever time has passed since, and change
nothing. (R312) -/
def Obligations.TimebaseLatch : Prop :=
  (∀ (s : State) (n : Fin 18) (m : Nat), s.hub.answers s.fixed s.met .tm (0x1C0000 + 0x40 * n.val) = true →
      ∃ t, exec (.tmNowRead n) s = .next t ∧
        t.hub.host.out = [(timeWords (Sys2Proof.Machine.report (s.hub.tbVal n))).getD 0 0#32] ∧
        ∀ k, 0 < k ∧ k < 4 → readReg t.fixed (t.hub.tickN m) t.met .tm (0x1C0000 + 0x40 * n.val + 4 * k) =
          ((timeWords (Sys2Proof.Machine.report (s.hub.tbVal n))).getD k 0#32, t.hub.tickN m)) ∧
    (∀ (fx : Fixed) (h : Hub) (m : Met) (n : Fin 18),
      readReg fx h m .tm (0x1C0000 + 0x40 * n.val) =
        ((timeWords (Sys2Proof.Machine.report (h.tbVal n))).getD 0 0#32,
          { h with tb := NMap.modify h.tb n (fun x => { x with latch := Sys2Proof.Machine.report (h.tbVal n) }) }))

/-- What a supply event makes the partition keep. A warning of VIN, VDDC, VDDMA or VDDMD commits the held seam entries
to a record; one of VDDMA or VDDMD also abandons a rotation step, and the recovery writes a DIP record with the rail,
its duration and its class; a dip of VIN or VDDC writes no DIP record. A step abandoned by the supply or by the first
alignment pulse writes no seam entry and counts no refusal, and the next step takes the same channel. That the bit for a
rail of the partition clears at its recovery is the model's bookkeeping. (R404, R416, R430) -/
def Obligations.SupplyEvidence : Prop :=
    -- SUPPLY_WARNING of a rail of R430
    (∀ (s : State) (rail : Fin 12) (mv : BitVec 16),
      s.hub.railWatched s.fixed rail = true → s.fixed.variant.hasMet = true → s.met.up = true →
      [0, 1, 10, 11].contains rail.val = true → ∃ t,
        exec (.supplyWarning rail mv) s = .next t ∧ t.met.seams = [] ∧
        (s.met.seams ≠ [] → s.met.lost = 0 → 8 < s.met.slots → (NMap.get t.met.log (s.met.rd fMetLidNextNext % 8128)).headD 0#32 = 0x08FF0010#32) ∧
        (s.met.seams ≠ [] → s.met.lost = 0 → 8 < s.met.slots → t.met.rd fMetLidNextNext = (s.met.rd fMetLidNextNext + 1) % 2 ^ 32) ∧
        (10 ≤ rail.val → t.met.phase = 0) ∧ (rail.val < 10 → t.met.phase = s.met.phase) ∧
        t.met.nextCh = s.met.nextCh ∧ t.met.rd fMetRot2Refused = s.met.rd fMetRot2Refused ∧ t.met.ch = s.met.ch) ∧
    -- SUPPLY_WARNING of another rail, or with the partition in MPOR: nothing in the partition
    (∀ (s : State) (rail : Fin 12) (mv : BitVec 16),
      (s.met.up = false ∨ [0, 1, 10, 11].contains rail.val = false ∨ s.fixed.variant.hasMet = false ∨ s.hub.railWatched s.fixed rail = false) →
      ∃ t,
        exec (.supplyWarning rail mv) s = .next t ∧ t.met = s.met) ∧
    -- SUPPLY_RECOVERED of a partition rail whose restarted window has passed: the DIP record
    (∀ (s : State) (rail : Fin 12),
      s.fixed.variant.hasMet = true → s.met.up = true → 10 ≤ rail.val → s.met.warn.testBit rail = true →
      s.met.lost = 0 → 8 < s.met.slots → (s.hub.dip rail).on = true → (s.hub.dip rail).win ≠ 0 →
      (s.hub.dip rail).win - 1 + 80000 ≤ s.hub.cyc → ∃ t,
        exec (.supplyRecovered rail) s = .next t ∧
        (NMap.get t.met.log (s.met.rd fMetLidNextNext % 8128)).getD 0 0#32 = 0x0AFF0010#32 ∧
        (NMap.get t.met.log (s.met.rd fMetLidNextNext % 8128)).getD 5 0#32 = w32 rail ∧
        (NMap.get t.met.log (s.met.rd fMetLidNextNext % 8128)).getD 6 0#32 = w32 (((s.hub.dip rail).win - 1 - (s.hub.dip rail).start) / 800) ∧
        (NMap.get t.met.log (s.met.rd fMetLidNextNext % 8128)).getD 7 0#32 = w32 (s.hub.dipClass rail (s.hub.dip rail)) ∧
        t.met.warn.testBit rail = false ∧ t.met.seams = s.met.seams) ∧
    -- SUPPLY_RECOVERED of VIN, VDDC and the banks: no DIP record
    (∀ (s : State) (rail : Fin 12),
      rail.val < 10 → ∃ t,
        exec (.supplyRecovered rail) s = .next t ∧ t.met = s.met) ∧
    -- ALIGN_PULSE, the first: the restart abandons a running step
    (∀ (s : State) (phase : BitVec 16),
      s.fixed.variant.hasMet = true → s.met.measures = true → s.met.cf 9 0 10 1 = 1 → s.met.aligned = false → ∃ t,
        exec (.alignPulse phase) s = .next t ∧ t.met.phase = 0 ∧ t.met.nextCh = s.met.nextCh ∧
        t.met.seams = s.met.seams ∧ t.met.rd fMetRot2Refused = s.met.rd fMetRot2Refused) ∧
    -- ROTATION_STEP_START after an abandoned step: the same channel where it still rotates
    (∀ (s : State),
      s.fixed.variant.hasMet = true → s.met.stopped = false → s.met.phase = 0 → s.met.warn = 0 → s.met.nextCh < 8 →
      s.met.inRot s.met.nextCh = true → ∃ t,
        exec .rotationStepStart s = .next t ∧ t.met.phase = 1 ∧ t.met.nextCh = s.met.nextCh ∧
        t.met.rd fMetRotChan = s.met.nextCh)
end

