-- ==== Sys2Proof/Laws/Bits.lean ====
section
/-! SUPPORT. Laws of bit fields: a field read after it was put, and a field untouched by another. -/

namespace Sys2Proof.Machine
open Sys2Proof

theorem fieldOf_lt (w : Word) (lo len : Nat) : fieldOf w lo len < 2 ^ len := (w.extractLsb' lo len).isLt

/-- Two fields that agree bit for bit are equal. -/
theorem fieldOf_eq_of_bits {w v : Word} {lo len : Nat}
    (h : ∀ i, i < len → w.getLsbD (lo + i) = v.getLsbD (lo + i)) : fieldOf w lo len = fieldOf v lo len := by
  unfold fieldOf
  congr 1
  apply BitVec.eq_of_getLsbD_eq
  intro i hi
  simp [hi, h i hi]

theorem getLsbD_putField (w : Word) {lo len : Nat} (v i : Nat) (hl : lo + len ≤ 32) (hi : i < 32) :
    (putField w lo len v).getLsbD i = if lo ≤ i ∧ i < lo + len then (v % 2 ^ len).testBit (i - lo) else w.getLsbD i := by
  unfold putField
  simp only [BitVec.getLsbD_or, BitVec.getLsbD_and, BitVec.getLsbD_not, BitVec.getLsbD_shiftLeft, BitVec.getLsbD_ushiftRight,
    BitVec.getLsbD_allOnes, BitVec.getLsbD_ofNat, hi, decide_true, Bool.true_and]
  by_cases h1 : lo ≤ i
  · by_cases h2 : i < lo + len
    · have e1 : (decide (i < lo)) = false := by simp; omega
      have e2 : decide (32 - len + (i - lo) < 32) = true := by simp; omega
      have e3 : decide (i - lo < 32) = true := by simp; omega
      simp [h1, h2, e1, e2, e3]
    · have e1 : (decide (i < lo)) = false := by simp; omega
      have e2 : decide (32 - len + (i - lo) < 32) = false := by simp; omega
      have e4 : (v % 2 ^ len).testBit (i - lo) = false := by
        apply Nat.testBit_lt_two_pow
        exact Nat.lt_of_lt_of_le (Nat.mod_lt _ (Nat.two_pow_pos _)) (Nat.pow_le_pow_right (by omega) (by omega))
      simp [h2, e1, e2, e4]
  · have e1 : (decide (i < lo)) = true := by simp; omega
    simp [h1, e1]

/-- A field read after it was put. -/
theorem fieldOf_putField_same (w : Word) {lo len : Nat} (v : Nat) (hl : lo + len ≤ 32) :
    fieldOf (putField w lo len v) lo len = v % 2 ^ len := by
  have hlt : v % 2 ^ len < 2 ^ len := Nat.mod_lt _ (Nat.two_pow_pos _)
  unfold fieldOf
  have : (putField w lo len v).extractLsb' lo len = BitVec.ofNat len (v % 2 ^ len) := by
    apply BitVec.eq_of_getLsbD_eq
    intro i hi
    rw [BitVec.getLsbD_extractLsb', getLsbD_putField w v _ hl (by omega), BitVec.getLsbD_ofNat]
    have h1 : lo ≤ lo + i ∧ lo + i < lo + len := ⟨by omega, by omega⟩
    simp [hi]
  rw [this, BitVec.toNat_ofNat, Nat.mod_eq_of_lt hlt]

/-- A field untouched by a put elsewhere in the word. -/
theorem fieldOf_putField_ne (w : Word) {lo len lo' len' : Nat} (v : Nat) (hl : lo + len ≤ 32) (hl' : lo' + len' ≤ 32)
    (h : lo + len ≤ lo' ∨ lo' + len' ≤ lo) : fieldOf (putField w lo len v) lo' len' = fieldOf w lo' len' := by
  apply fieldOf_eq_of_bits
  intro i hi
  rw [getLsbD_putField w v _ hl (by omega), if_neg (by omega)]

@[simp] theorem b2n_true : b2n true = 1 := rfl
@[simp] theorem b2n_false : b2n false = 0 := rfl

theorem satTo_le (len n : Nat) : satTo len n ≤ 2 ^ len - 1 := by unfold satTo; split <;> omega

theorem satTo_of_lt {len n : Nat} (h : n < 2 ^ len) : satTo len n = n := by simp [satTo, h]

end Sys2Proof.Machine
end

