-- ==== Sys2Proof/Laws/NMap.lean ====
section
/-! SUPPORT. Laws of sparse tables: a read after a write, and every operation keeps the canonical form. -/

namespace Sys2Proof.Machine

variable {α : Type}

@[simp] theorem NMap.getD_nil (k : Nat) (d : α) : NMap.getD ([] : NMap α) k d = d := rfl

theorem NMap.getD_cons (j : Nat) (v : α) (t : NMap α) (k : Nat) (d : α) :
    NMap.getD ((j, v) :: t) k d = if j = k then v else NMap.getD t k d := rfl

@[simp] theorem NMap.getD_erase_same (m : NMap α) (k : Nat) (d : α) : NMap.getD (NMap.erase m k) k d = d := by
  induction m with
  | nil => rfl
  | cons e t ih =>
    obtain ⟨j, v⟩ := e
    by_cases h : j = k <;> simp [NMap.erase, NMap.getD, h, ih]

theorem NMap.getD_erase_ne (m : NMap α) {k a : Nat} (d : α) (h : a ≠ k) :
    NMap.getD (NMap.erase m k) a d = NMap.getD m a d := by
  induction m with
  | nil => rfl
  | cons e t ih =>
    obtain ⟨j, v⟩ := e
    by_cases hj : j = k
    · subst hj; simp [NMap.erase, NMap.getD, ih, Ne.symm h]
    · simp [NMap.erase, NMap.getD, hj, ih]

theorem NMap.getD_insert_erase (m : NMap α) (k a : Nat) (v d : α) :
    NMap.getD (NMap.insert (NMap.erase m k) k v) a d = if a = k then v else NMap.getD m a d := by
  induction m with
  | nil =>
    by_cases h : a = k
    · simp [NMap.erase, NMap.insert, NMap.getD, h]
    · simp [NMap.erase, NMap.insert, NMap.getD, h, Ne.symm h]
  | cons e t ih =>
    obtain ⟨j, w⟩ := e
    by_cases hj : j = k
    · subst hj
      simp only [NMap.erase, if_true, NMap.getD_cons, ih]
      by_cases h : a = j
      · simp [h]
      · simp [h, Ne.symm h]
    · simp only [NMap.erase, if_neg hj, NMap.insert]
      by_cases hk : k < j
      · rw [if_pos hk, NMap.getD_cons, NMap.getD_cons, NMap.getD_cons]
        by_cases h : a = k
        · simp [h]
        · rw [if_neg (Ne.symm h), if_neg h, NMap.getD_erase_ne _ _ h]
      · rw [if_neg hk, NMap.getD_cons, NMap.getD_cons, ih]
        by_cases h : a = k
        · subst h; simp [hj]
        · simp [h]

/-- A read after a write of the same table. -/
theorem NMap.getD_setD [DecidableEq α] (m : NMap α) (k a : Nat) (v d : α) :
    NMap.getD (NMap.setD m k v d) a d = if a = k then v else NMap.getD m a d := by
  unfold NMap.setD
  by_cases hv : v = d
  · by_cases h : a = k
    · subst h; simp [hv]
    · simp [hv, h, NMap.getD_erase_ne _ _ h]
  · rw [if_neg hv, NMap.getD_insert_erase]

/-- A write leaves every other entry as it reads. -/
theorem NMap.getD_setD_ne [DecidableEq α] (m : NMap α) {k a : Nat} (v d e : α) (h : a ≠ k) :
    NMap.getD (NMap.setD m k v d) a e = NMap.getD m a e := by
  unfold NMap.setD
  split
  · exact NMap.getD_erase_ne m e h
  · rw [NMap.getD_insert_erase, if_neg h]

@[simp] theorem NMap.getD_setD_same [DecidableEq α] (m : NMap α) (k : Nat) (v d : α) :
    NMap.getD (NMap.setD m k v d) k d = v := by simp [NMap.getD_setD]

@[simp] theorem NMap.get_set_same [Inhabited α] [DecidableEq α] (m : NMap α) (k : Nat) (v : α) :
    NMap.get (NMap.set m k v) k = v := NMap.getD_setD_same m k v default

theorem NMap.get_set_ne [Inhabited α] [DecidableEq α] (m : NMap α) {k a : Nat} (v : α) (h : a ≠ k) :
    NMap.get (NMap.set m k v) a = NMap.get m a := NMap.getD_setD_ne m v default default h

@[simp] theorem NMap.get_modify_same [Inhabited α] [DecidableEq α] (m : NMap α) (k : Nat) (f : α → α) :
    NMap.get (NMap.modify m k f) k = f (NMap.get m k) := NMap.get_set_same m k _

theorem NMap.get_modify_ne [Inhabited α] [DecidableEq α] (m : NMap α) {k a : Nat} (f : α → α) (h : a ≠ k) :
    NMap.get (NMap.modify m k f) a = NMap.get m a := NMap.get_set_ne m _ h

/-! ### The canonical form -/

/-- The numbers of a table rise strictly, and no entry reads as unlisted. -/
theorem NMap.wf_iff [DecidableEq α] (m : NMap α) (d : Nat → α) :
    NMap.wf m d = true ↔ m.Pairwise (fun x y => x.1 < y.1) ∧ ∀ e ∈ m, e.2 ≠ d e.1 := by
  unfold NMap.wf
  induction m with
  | nil => simp [NMap.wfFrom]
  | cons e t ih =>
    obtain ⟨k, v⟩ := e
    cases t with
    | nil => simp [NMap.wfFrom]
    | cons e' t' =>
      obtain ⟨j, w⟩ := e'
      rw [NMap.wfFrom, Bool.and_eq_true, Bool.and_eq_true, ih]
      simp only [decide_eq_true_eq]
      constructor
      · rintro ⟨⟨h1, h2⟩, h3, h4⟩
        refine ⟨List.pairwise_cons.2 ⟨?_, h3⟩, ?_⟩
        · intro x hx
          rcases List.mem_cons.1 hx with rfl | hx
          · exact h1
          · exact Nat.lt_trans h1 ((List.pairwise_cons.1 h3).1 x hx)
        · intro x hx
          rcases List.mem_cons.1 hx with rfl | hx
          · exact h2
          · exact h4 x hx
      · rintro ⟨h1, h4⟩
        have h3 := List.pairwise_cons.1 h1
        exact ⟨⟨h3.1 _ (List.mem_cons_self ..), h4 _ (List.mem_cons_self ..)⟩, h3.2,
          fun x hx => h4 x (List.mem_cons_of_mem _ hx)⟩

@[simp] theorem NMap.wf_nil [DecidableEq α] (d : Nat → α) : NMap.wf ([] : NMap α) d = true := rfl

theorem NMap.erase_eq_filter (m : NMap α) (k : Nat) : NMap.erase m k = m.filter (fun e => e.1 != k) := by
  induction m with
  | nil => rfl
  | cons e t ih =>
    obtain ⟨j, v⟩ := e
    by_cases h : j = k <;> simp [NMap.erase, h, ih]

/-- Taking entries out keeps the canonical form. -/
theorem NMap.wf_filter [DecidableEq α] {m : NMap α} {d : Nat → α} (h : NMap.wf m d = true) (p : Nat × α → Bool) :
    NMap.wf (m.filter p) d = true := by
  rw [NMap.wf_iff] at *
  exact ⟨h.1.filter _, fun e he => h.2 e (List.mem_filter.1 he).1⟩

theorem NMap.wf_erase [DecidableEq α] {m : NMap α} {d : Nat → α} (h : NMap.wf m d = true) (k : Nat) :
    NMap.wf (NMap.erase m k) d = true := by rw [NMap.erase_eq_filter]; exact NMap.wf_filter h _

theorem NMap.wf_drop [DecidableEq α] {m : NMap α} {d : Nat → α} (h : NMap.wf m d = true) (p : Nat → Bool) :
    NMap.wf (NMap.drop m p) d = true := NMap.wf_filter h _

theorem NMap.mem_insert (m : NMap α) (k : Nat) (v : α) (e : Nat × α) :
    e ∈ NMap.insert m k v ↔ e = (k, v) ∨ e ∈ m := by
  induction m with
  | nil => simp [NMap.insert]
  | cons x t ih =>
    obtain ⟨j, w⟩ := x
    by_cases h : k < j
    · simp [NMap.insert, h]
    · simp only [NMap.insert, h, if_false, List.mem_cons, ih]
      constructor
      · rintro (h1 | h1 | h1) <;> simp [h1]
      · rintro (h1 | h1 | h1) <;> simp [h1]

theorem NMap.pairwise_insert (m : NMap α) (k : Nat) (v : α) (h : m.Pairwise (fun x y => x.1 < y.1))
    (hk : ∀ e ∈ m, e.1 ≠ k) : (NMap.insert m k v).Pairwise (fun x y => x.1 < y.1) := by
  induction m with
  | nil => simp [NMap.insert]
  | cons x t ih =>
    obtain ⟨j, w⟩ := x
    rw [List.pairwise_cons] at h
    by_cases hj : k < j
    · simp only [NMap.insert, hj, if_true, List.pairwise_cons]
      refine ⟨?_, h.1, h.2⟩
      intro a ha
      rcases List.mem_cons.1 ha with rfl | ha
      · exact hj
      · exact Nat.lt_trans hj (h.1 a ha)
    · simp only [NMap.insert, hj, if_false, List.pairwise_cons]
      refine ⟨?_, ih h.2 (fun e he => hk e (List.mem_cons_of_mem _ he))⟩
      intro a ha
      rcases (NMap.mem_insert _ _ _ _).1 ha with rfl | ha
      · have := hk (j, w) (List.mem_cons_self ..)
        simp only [ne_eq] at this ⊢
        omega
      · exact h.1 a ha

/-- A write keeps the canonical form. -/
theorem NMap.wf_setD [DecidableEq α] {m : NMap α} {d : Nat → α} (h : NMap.wf m d = true) (k : Nat) (v : α) :
    NMap.wf (NMap.setD m k v (d k)) d = true := by
  unfold NMap.setD
  split
  · exact NMap.wf_erase h k
  · rename_i hv
    have he := NMap.wf_erase h k
    rw [NMap.wf_iff] at he ⊢
    refine ⟨NMap.pairwise_insert _ _ _ he.1 ?_, ?_⟩
    · intro e hm
      rw [NMap.erase_eq_filter, List.mem_filter] at hm
      simpa using hm.2
    · intro e hm
      rcases (NMap.mem_insert _ _ _ _).1 hm with rfl | hm
      · exact hv
      · exact he.2 e hm

theorem NMap.wf_set [Inhabited α] [DecidableEq α] {m : NMap α} (h : NMap.wf m (fun _ => default) = true) (k : Nat) (v : α) :
    NMap.wf (NMap.set m k v) (fun _ => default) = true := NMap.wf_setD (d := fun _ => default) h k v

theorem NMap.wf_modify [Inhabited α] [DecidableEq α] {m : NMap α} (h : NMap.wf m (fun _ => default) = true) (k : Nat)
    (f : α → α) : NMap.wf (NMap.modify m k f) (fun _ => default) = true := NMap.wf_set h k _

/-- Two tables in canonical form that read alike everywhere are equal data. -/
theorem NMap.ext_of_getD [DecidableEq α] {m n : NMap α} {d : Nat → α} (hm : NMap.wf m d = true) (hn : NMap.wf n d = true)
    (h : ∀ k, NMap.getD m k (d k) = NMap.getD n k (d k)) : m = n := by
  rw [NMap.wf_iff] at hm hn
  induction m generalizing n with
  | nil =>
    cases n with
    | nil => rfl
    | cons e t =>
      have := h e.1
      rw [NMap.getD_nil, NMap.getD_cons, if_pos rfl] at this
      exact absurd this.symm (hn.2 e (List.mem_cons_self ..))
  | cons x t ih =>
    cases n with
    | nil =>
      have := h x.1
      rw [NMap.getD_nil, NMap.getD_cons, if_pos rfl] at this
      exact absurd this (hm.2 x (List.mem_cons_self ..))
    | cons y u =>
      have low : ∀ (l : NMap α) (k : Nat), (∀ e ∈ l, k < e.1) → NMap.getD l k (d k) = d k := by
        intro l k hl
        induction l with
        | nil => rfl
        | cons e l ihl =>
          rw [NMap.getD_cons, if_neg (Nat.ne_of_gt (hl e (List.mem_cons_self ..)))]
          exact ihl (fun e he => hl e (List.mem_cons_of_mem _ he))
      have hm1 := List.pairwise_cons.1 hm.1
      have hn1 := List.pairwise_cons.1 hn.1
      have hxy : x.1 = y.1 := by
        rcases Nat.lt_trichotomy x.1 y.1 with hl | hl | hl
        · have := h x.1
          rw [NMap.getD_cons, if_pos rfl, low (y :: u) x.1 (by
            intro e he
            rcases List.mem_cons.1 he with rfl | he
            · exact hl
            · exact Nat.lt_trans hl (hn1.1 e he))] at this
          exact absurd this (hm.2 x (List.mem_cons_self ..))
        · exact hl
        · have := h y.1
          rw [NMap.getD_cons (j := y.1), if_pos rfl, low (x :: t) y.1 (by
            intro e he
            rcases List.mem_cons.1 he with rfl | he
            · exact hl
            · exact Nat.lt_trans hl (hm1.1 e he))] at this
          exact absurd this.symm (hn.2 y (List.mem_cons_self ..))
      have hv : x = y := by
        have := h x.1
        rw [NMap.getD_cons, if_pos rfl, NMap.getD_cons, if_pos hxy.symm] at this
        exact Prod.ext hxy this
      subst hv
      have hrest : ∀ k, NMap.getD t k (d k) = NMap.getD u k (d k) := by
        intro k
        by_cases hk : x.1 = k
        · subst hk; rw [low t x.1 hm1.1, low u x.1 hn1.1]
        · have := h k
          rwa [NMap.getD_cons, if_neg hk, NMap.getD_cons, if_neg hk] at this
      rw [ih ⟨hm1.2, fun e he => hm.2 e (List.mem_cons_of_mem _ he)⟩
        ⟨hn1.2, fun e he => hn.2 e (List.mem_cons_of_mem _ he)⟩ hrest]

end Sys2Proof.Machine
end

