-- ==== Sys2Proof/Laws/Regs.lean ====
section
/-! SUPPORT. Laws of registers and fields, of the interrupt latch and of the lifts to the whole state. -/

namespace Sys2Proof.Machine
open Sys2Proof

/-! ### Registers of the hub -/

theorem Hub.reg_congr {h g : Hub} (e : h.regs = g.regs) (a : Nat) : h.reg a = g.reg a := by unfold Hub.reg; rw [e]

theorem Hub.rd_congr {h g : Hub} {f : Fld} (e : h.reg f.addr = g.reg f.addr) : h.rd f = g.rd f := by unfold Hub.rd; rw [e]

theorem Hub.is_congr {h g : Hub} {f : Fld} (e : h.rd f = g.rd f) : h.is f = g.is f := by unfold Hub.is; rw [e]

@[simp] theorem Hub.reg_setReg_same (h : Hub) (a : Nat) (w : Word) : (h.setReg a w).reg a = w :=
  NMap.getD_setD_same h.regs a w (resetWord a)

theorem Hub.reg_setReg_ne (h : Hub) {a b : Nat} (w : Word) (hab : b ≠ a) : (h.setReg a w).reg b = h.reg b :=
  NMap.getD_setD_ne h.regs w (resetWord a) (resetWord b) hab

@[simp] theorem Hub.reg_wr_same (h : Hub) (f : Fld) (n : Nat) :
    (h.wr f n).reg f.addr = putField (h.reg f.addr) f.lo f.len n := Hub.reg_setReg_same h f.addr _

theorem Hub.reg_wr_ne (h : Hub) (f : Fld) {a : Nat} (n : Nat) (ha : a ≠ f.addr) : (h.wr f n).reg a = h.reg a :=
  Hub.reg_setReg_ne h _ ha

theorem Hub.reg_on_ne (h : Hub) (f : Fld) {a : Nat} (ha : a ≠ f.addr) : (h.on f).reg a = h.reg a := h.reg_wr_ne f 1 ha

theorem Hub.reg_off_ne (h : Hub) (f : Fld) {a : Nat} (ha : a ≠ f.addr) : (h.off f).reg a = h.reg a := h.reg_wr_ne f 0 ha

theorem Hub.reg_count_ne (h : Hub) (f : Fld) {a : Nat} (n : Nat) (ha : a ≠ f.addr) : (h.count f n).reg a = h.reg a :=
  h.reg_wr_ne f _ ha

theorem Hub.reg_countSat_ne (h : Hub) (f : Fld) {a : Nat} (n : Nat) (ha : a ≠ f.addr) :
    (h.countSat f n).reg a = h.reg a := h.reg_wr_ne f _ ha

theorem Hub.rd_lt (h : Hub) (f : Fld) : h.rd f < 2 ^ f.len := fieldOf_lt _ _ _

/-- A field read after it was stored. -/
theorem Hub.rd_wr_same (h : Hub) {f : Fld} (n : Nat) (hf : f.lo + f.len ≤ 32) : (h.wr f n).rd f = n % 2 ^ f.len := by
  unfold Hub.rd
  rw [Hub.reg_wr_same]
  exact fieldOf_putField_same _ n hf

/-- A field of another register, or of other bits of the same one. -/
theorem Hub.rd_wr_ne (h : Hub) {f g : Fld} (n : Nat) (hf : f.lo + f.len ≤ 32) (hg : g.lo + g.len ≤ 32)
    (hfg : g.addr ≠ f.addr ∨ f.lo + f.len ≤ g.lo ∨ g.lo + g.len ≤ f.lo) : (h.wr f n).rd g = h.rd g := by
  unfold Hub.rd
  by_cases ha : g.addr = f.addr
  · rw [ha, Hub.reg_wr_same, fieldOf_putField_ne _ n hf hg (by omega)]
  · rw [Hub.reg_wr_ne _ _ _ ha]

theorem Hub.rd_wr_addr (h : Hub) {f g : Fld} (n : Nat) (hfg : g.addr ≠ f.addr) : (h.wr f n).rd g = h.rd g :=
  Hub.rd_congr (Hub.reg_wr_ne h f n hfg)

theorem Hub.is_on_same (h : Hub) {f : Fld} (hf : f.lo + f.len ≤ 32) (hl : 0 < f.len) : (h.on f).is f = true := by
  unfold Hub.is Hub.on
  rw [Hub.rd_wr_same h 1 hf, Nat.mod_eq_of_lt (Nat.one_lt_two_pow (by omega))]
  rfl

theorem Hub.is_off_same (h : Hub) {f : Fld} (hf : f.lo + f.len ≤ 32) : (h.off f).is f = false := by
  unfold Hub.is Hub.off
  rw [Hub.rd_wr_same h 0 hf, Nat.zero_mod]
  rfl

theorem Hub.rd_countSat_same (h : Hub) {f : Fld} (n : Nat) (hf : f.lo + f.len ≤ 32) :
    (h.countSat f n).rd f = satTo f.len (h.rd f + n) := by
  unfold Hub.countSat
  rw [Hub.rd_wr_same h _ hf, Nat.mod_eq_of_lt]
  have := satTo_le f.len (h.rd f + n)
  have := Nat.two_pow_pos f.len
  omega

theorem Hub.rd_count_same (h : Hub) {f : Fld} (n : Nat) (hf : f.lo + f.len ≤ 32) :
    (h.count f n).rd f = (h.rd f + n) % 2 ^ f.len := Hub.rd_wr_same h _ hf

/-- A field's bit is its truth. -/
theorem Hub.is_iff (h : Hub) (f : Fld) : h.is f = true ↔ h.rd f ≠ 0 := by simp [Hub.is]

theorem Hub.is_false_iff (h : Hub) (f : Fld) : h.is f = false ↔ h.rd f = 0 := by simp [Hub.is]

/-- Writing a register keeps the register table in its canonical form. -/
theorem Hub.setReg_wf (h : Hub) (a : Nat) (w : Word) (hw : NMap.wf h.regs resetWord = true) :
    NMap.wf (h.setReg a w).regs resetWord = true := NMap.wf_setD hw a w

theorem Hub.wr_wf (h : Hub) (f : Fld) (n : Nat) (hw : NMap.wf h.regs resetWord = true) :
    NMap.wf (h.wr f n).regs resetWord = true := Hub.setReg_wf h _ _ hw

/-! ### Registers of the partition -/

theorem Met.reg_congr {m g : Met} (e : m.regs = g.regs) (a : Nat) : m.reg a = g.reg a := by unfold Met.reg; rw [e]

theorem Met.rd_congr {m g : Met} {f : Fld} (e : m.reg f.addr = g.reg f.addr) : m.rd f = g.rd f := by unfold Met.rd; rw [e]

@[simp] theorem Met.reg_setReg_same (m : Met) (a : Nat) (w : Word) : (m.setReg a w).reg a = w :=
  NMap.getD_setD_same m.regs a w (resetWord a)

theorem Met.reg_setReg_ne (m : Met) {a b : Nat} (w : Word) (hab : b ≠ a) : (m.setReg a w).reg b = m.reg b :=
  NMap.getD_setD_ne m.regs w (resetWord a) (resetWord b) hab

@[simp] theorem Met.reg_wr_same (m : Met) (f : Fld) (n : Nat) :
    (m.wr f n).reg f.addr = putField (m.reg f.addr) f.lo f.len n := Met.reg_setReg_same m f.addr _

theorem Met.reg_wr_ne (m : Met) (f : Fld) {a : Nat} (n : Nat) (ha : a ≠ f.addr) : (m.wr f n).reg a = m.reg a :=
  Met.reg_setReg_ne m _ ha

theorem Met.rd_lt (m : Met) (f : Fld) : m.rd f < 2 ^ f.len := fieldOf_lt _ _ _

theorem Met.rd_wr_same (m : Met) {f : Fld} (n : Nat) (hf : f.lo + f.len ≤ 32) : (m.wr f n).rd f = n % 2 ^ f.len := by
  unfold Met.rd
  rw [Met.reg_wr_same]
  exact fieldOf_putField_same _ n hf

theorem Met.rd_wr_ne (m : Met) {f g : Fld} (n : Nat) (hf : f.lo + f.len ≤ 32) (hg : g.lo + g.len ≤ 32)
    (hfg : g.addr ≠ f.addr ∨ f.lo + f.len ≤ g.lo ∨ g.lo + g.len ≤ f.lo) : (m.wr f n).rd g = m.rd g := by
  unfold Met.rd
  by_cases ha : g.addr = f.addr
  · rw [ha, Met.reg_wr_same, fieldOf_putField_ne _ n hf hg (by omega)]
  · rw [Met.reg_wr_ne _ _ _ ha]

theorem Met.rd_wr_addr (m : Met) {f g : Fld} (n : Nat) (hfg : g.addr ≠ f.addr) : (m.wr f n).rd g = m.rd g :=
  Met.rd_congr (Met.reg_wr_ne m f n hfg)

theorem Met.setReg_wf (m : Met) (a : Nat) (w : Word) (hw : NMap.wf m.regs resetWord = true) :
    NMap.wf (m.setReg a w).regs resetWord = true := NMap.wf_setD hw a w

/-! ### The interrupt latch (R77): of the hub only `glb.wake.pend` may change -/

theorem latchIrq_eq (h0 : Hub) (m0 : Met) (h : Hub) (m : Met) :
    latchIrq h0 m0 h m = { h with regs := (latchIrq h0 m0 h m).regs } := by
  unfold latchIrq
  simp only
  split <;> split <;> rfl

theorem latchIrq_reg (h0 : Hub) (m0 : Met) (h : Hub) (m : Met) {a : Nat} (ha : a ≠ 0x30) :
    (latchIrq h0 m0 h m).reg a = h.reg a := by
  have e : fGlbWakePend.addr = 0x30 := rfl
  unfold latchIrq
  simp only
  split <;> split <;> simp [Hub.reg_wr_ne, e, ha]

theorem latchIrq_rd (h0 : Hub) (m0 : Met) (h : Hub) (m : Met) {f : Fld} (ha : f.addr ≠ 0x30) :
    (latchIrq h0 m0 h m).rd f = h.rd f := Hub.rd_congr (latchIrq_reg h0 m0 h m ha)

theorem latchIrq_is (h0 : Hub) (m0 : Met) (h : Hub) (m : Met) {f : Fld} (ha : f.addr ≠ 0x30) :
    (latchIrq h0 m0 h m).is f = h.is f := Hub.is_congr (latchIrq_rd h0 m0 h m ha)

/-- The latch sets pending bits and clears none. -/
theorem latchIrq_pend (h0 : Hub) (m0 : Met) (h : Hub) (m : Met) (k : Nat) (hk : k < 3)
    (hp : (h.rd fGlbWakePend).testBit k = true) : ((latchIrq h0 m0 h m).rd fGlbWakePend).testBit k = true := by
  have step (g : Hub) (v : Nat) (hv : v < 8) (hg : (g.rd fGlbWakePend).testBit k = true) :
      ((g.wr fGlbWakePend (g.rd fGlbWakePend ||| v)).rd fGlbWakePend).testBit k = true := by
    rw [Hub.rd_wr_same _ _ (by decide)]
    have hl : fGlbWakePend.len = 3 := rfl
    rw [hl, Nat.testBit_mod_two_pow, Nat.testBit_or, hg]
    simp [hk]
  unfold latchIrq
  simp only
  split
  · split
    · exact step _ 2 (by decide) (step h 1 (by decide) hp)
    · exact step h 2 (by decide) hp
  · split
    · exact step h 1 (by decide) hp
    · exact hp

/-! ### Lifts (R396) -/

theorem liftHub_next (s : State) (f : Fixed → Hub → Hub) :
    liftHub s f = .next { s with hub := latchIrq s.hub s.met (f s.fixed s.hub) s.met } := rfl

theorem liftMet_next (s : State) (f : Fixed → Met → Met) :
    liftMet s f = .next { s with hub := latchIrq s.hub s.met s.hub (f s.fixed s.met), met := f s.fixed s.met } := rfl

theorem liftBoth_next (s : State) (f : Fixed → Hub → Met → Hub × Met) :
    liftBoth s f = .next { s with
      hub := latchIrq s.hub s.met (f s.fixed s.hub s.met).1 (f s.fixed s.hub s.met).2, met := (f s.fixed s.hub s.met).2 } := rfl

/-- What a command that acts on the hub alone leaves: the partition, what manufacture fixed, and the waiting commands. -/
theorem liftHub_frame {s t : State} {f : Fixed → Hub → Hub} (h : liftHub s f = .next t) :
    t.met = s.met ∧ t.fixed = s.fixed ∧ t.pending = s.pending := by
  cases h; exact ⟨rfl, rfl, rfl⟩

/-- What a command that acts on the partition alone leaves: the hub but for `glb.wake.pend`. -/
theorem liftMet_frame {s t : State} {f : Fixed → Met → Met} (h : liftMet s f = .next t) :
    (t.hub = { s.hub with regs := t.hub.regs }) ∧ (∀ a, a ≠ 0x30 → t.hub.reg a = s.hub.reg a) ∧
      t.fixed = s.fixed ∧ t.pending = s.pending := by
  cases h
  exact ⟨latchIrq_eq _ _ _ _, fun a ha => latchIrq_reg _ _ _ _ ha, rfl, rfl⟩

end Sys2Proof.Machine
end

