-- ==== Sys2Proof/Laws/State.lean ====
section
/-! SUPPORT. What an update of one part leaves: one lemma for each field and each update, true by definition. -/

namespace Sys2Proof.Machine
open Sys2Proof

/-! ### `Hub.setReg` -/

@[simp] theorem Hub.setReg_cells (h : Hub) (a : Nat) (w : Word) : (h.setReg a w).cells = h.cells := (rfl)
@[simp] theorem Hub.setReg_clk (h : Hub) (a : Nat) (w : Word) : (h.setReg a w).clk = h.clk := (rfl)
@[simp] theorem Hub.setReg_ldr (h : Hub) (a : Nat) (w : Word) : (h.setReg a w).ldr = h.ldr := (rfl)
@[simp] theorem Hub.setReg_host (h : Hub) (a : Nat) (w : Word) : (h.setReg a w).host = h.host := (rfl)
@[simp] theorem Hub.setReg_sp (h : Hub) (a : Nat) (w : Word) : (h.setReg a w).sp = h.sp := (rfl)
@[simp] theorem Hub.setReg_tw (h : Hub) (a : Nat) (w : Word) : (h.setReg a w).tw = h.tw := (rfl)
@[simp] theorem Hub.setReg_ingress (h : Hub) (a : Nat) (w : Word) : (h.setReg a w).ingress = h.ingress := (rfl)
@[simp] theorem Hub.setReg_ctx (h : Hub) (a : Nat) (w : Word) : (h.setReg a w).ctx = h.ctx := (rfl)
@[simp] theorem Hub.setReg_stg (h : Hub) (a : Nat) (w : Word) : (h.setReg a w).stg = h.stg := (rfl)
@[simp] theorem Hub.setReg_tile (h : Hub) (a : Nat) (w : Word) : (h.setReg a w).tile = h.tile := (rfl)
@[simp] theorem Hub.setReg_ev (h : Hub) (a : Nat) (w : Word) : (h.setReg a w).ev = h.ev := (rfl)
@[simp] theorem Hub.setReg_evSeen (h : Hub) (a : Nat) (w : Word) : (h.setReg a w).evSeen = h.evSeen := (rfl)
@[simp] theorem Hub.setReg_q (h : Hub) (a : Nat) (w : Word) : (h.setReg a w).q = h.q := (rfl)
@[simp] theorem Hub.setReg_stock (h : Hub) (a : Nat) (w : Word) : (h.setReg a w).stock = h.stock := (rfl)
@[simp] theorem Hub.setReg_stockFill (h : Hub) (a : Nat) (w : Word) : (h.setReg a w).stockFill = h.stockFill := (rfl)
@[simp] theorem Hub.setReg_dbgHeld (h : Hub) (a : Nat) (w : Word) : (h.setReg a w).dbgHeld = h.dbgHeld := (rfl)
@[simp] theorem Hub.setReg_ring (h : Hub) (a : Nat) (w : Word) : (h.setReg a w).ring = h.ring := (rfl)
@[simp] theorem Hub.setReg_outbox (h : Hub) (a : Nat) (w : Word) : (h.setReg a w).outbox = h.outbox := (rfl)
@[simp] theorem Hub.setReg_tb (h : Hub) (a : Nat) (w : Word) : (h.setReg a w).tb = h.tb := (rfl)
@[simp] theorem Hub.setReg_trig (h : Hub) (a : Nat) (w : Word) : (h.setReg a w).trig = h.trig := (rfl)
@[simp] theorem Hub.setReg_trg (h : Hub) (a : Nat) (w : Word) : (h.setReg a w).trg = h.trg := (rfl)
@[simp] theorem Hub.setReg_tach (h : Hub) (a : Nat) (w : Word) : (h.setReg a w).tach = h.tach := (rfl)
@[simp] theorem Hub.setReg_kt (h : Hub) (a : Nat) (w : Word) : (h.setReg a w).kt = h.kt := (rfl)
@[simp] theorem Hub.setReg_flt (h : Hub) (a : Nat) (w : Word) : (h.setReg a w).flt = h.flt := (rfl)
@[simp] theorem Hub.setReg_job (h : Hub) (a : Nat) (w : Word) : (h.setReg a w).job = h.job := (rfl)
@[simp] theorem Hub.setReg_spc (h : Hub) (a : Nat) (w : Word) : (h.setReg a w).spc = h.spc := (rfl)
@[simp] theorem Hub.setReg_fea (h : Hub) (a : Nat) (w : Word) : (h.setReg a w).fea = h.fea := (rfl)
@[simp] theorem Hub.setReg_lim (h : Hub) (a : Nat) (w : Word) : (h.setReg a w).lim = h.lim := (rfl)
@[simp] theorem Hub.setReg_link (h : Hub) (a : Nat) (w : Word) : (h.setReg a w).link = h.link := (rfl)
@[simp] theorem Hub.setReg_cas (h : Hub) (a : Nat) (w : Word) : (h.setReg a w).cas = h.cas := (rfl)
@[simp] theorem Hub.setReg_rad (h : Hub) (a : Nat) (w : Word) : (h.setReg a w).rad = h.rad := (rfl)
@[simp] theorem Hub.setReg_hlt (h : Hub) (a : Nat) (w : Word) : (h.setReg a w).hlt = h.hlt := (rfl)
@[simp] theorem Hub.setReg_sup (h : Hub) (a : Nat) (w : Word) : (h.setReg a w).sup = h.sup := (rfl)
@[simp] theorem Hub.setReg_tbMet (h : Hub) (a : Nat) (w : Word) : (h.setReg a w).tbMet = h.tbMet := (rfl)
@[simp] theorem Hub.setReg_metFollows (h : Hub) (a : Nat) (w : Word) : (h.setReg a w).metFollows = h.metFollows := (rfl)
@[simp] theorem Hub.setReg_metFifo (h : Hub) (a : Nat) (w : Word) : (h.setReg a w).metFifo = h.metFifo := (rfl)
@[simp] theorem Hub.setReg_metGap (h : Hub) (a : Nat) (w : Word) : (h.setReg a w).metGap = h.metGap := (rfl)
@[simp] theorem Hub.setReg_cyc (h : Hub) (a : Nat) (w : Word) : (h.setReg a w).cyc = h.cyc := (rfl)
@[simp] theorem Hub.setReg_asleep (h : Hub) (a : Nat) (w : Word) : (h.setReg a w).asleep = h.asleep := (rfl)
@[simp] theorem Hub.setReg_free (h : Hub) (a : Nat) (w : Word) : (h.setReg a w).free = h.free := (rfl)
@[simp] theorem Hub.setReg_cell (h : Hub) (a : Nat) (w : Word) (x y z : Nat) : (h.setReg a w).cell x y z = h.cell x y z := (rfl)
@[simp] theorem Hub.setReg_cf (h : Hub) (a : Nat) (w : Word) (x y z lo len : Nat) : (h.setReg a w).cf x y z lo len = h.cf x y z lo len := (rfl)

/-! ### `Hub.wr` -/

@[simp] theorem Hub.wr_cells (h : Hub) (f : Fld) (n : Nat) : (h.wr f n).cells = h.cells := (rfl)
@[simp] theorem Hub.wr_clk (h : Hub) (f : Fld) (n : Nat) : (h.wr f n).clk = h.clk := (rfl)
@[simp] theorem Hub.wr_ldr (h : Hub) (f : Fld) (n : Nat) : (h.wr f n).ldr = h.ldr := (rfl)
@[simp] theorem Hub.wr_host (h : Hub) (f : Fld) (n : Nat) : (h.wr f n).host = h.host := (rfl)
@[simp] theorem Hub.wr_sp (h : Hub) (f : Fld) (n : Nat) : (h.wr f n).sp = h.sp := (rfl)
@[simp] theorem Hub.wr_tw (h : Hub) (f : Fld) (n : Nat) : (h.wr f n).tw = h.tw := (rfl)
@[simp] theorem Hub.wr_ingress (h : Hub) (f : Fld) (n : Nat) : (h.wr f n).ingress = h.ingress := (rfl)
@[simp] theorem Hub.wr_ctx (h : Hub) (f : Fld) (n : Nat) : (h.wr f n).ctx = h.ctx := (rfl)
@[simp] theorem Hub.wr_stg (h : Hub) (f : Fld) (n : Nat) : (h.wr f n).stg = h.stg := (rfl)
@[simp] theorem Hub.wr_tile (h : Hub) (f : Fld) (n : Nat) : (h.wr f n).tile = h.tile := (rfl)
@[simp] theorem Hub.wr_ev (h : Hub) (f : Fld) (n : Nat) : (h.wr f n).ev = h.ev := (rfl)
@[simp] theorem Hub.wr_evSeen (h : Hub) (f : Fld) (n : Nat) : (h.wr f n).evSeen = h.evSeen := (rfl)
@[simp] theorem Hub.wr_q (h : Hub) (f : Fld) (n : Nat) : (h.wr f n).q = h.q := (rfl)
@[simp] theorem Hub.wr_stock (h : Hub) (f : Fld) (n : Nat) : (h.wr f n).stock = h.stock := (rfl)
@[simp] theorem Hub.wr_stockFill (h : Hub) (f : Fld) (n : Nat) : (h.wr f n).stockFill = h.stockFill := (rfl)
@[simp] theorem Hub.wr_dbgHeld (h : Hub) (f : Fld) (n : Nat) : (h.wr f n).dbgHeld = h.dbgHeld := (rfl)
@[simp] theorem Hub.wr_ring (h : Hub) (f : Fld) (n : Nat) : (h.wr f n).ring = h.ring := (rfl)
@[simp] theorem Hub.wr_outbox (h : Hub) (f : Fld) (n : Nat) : (h.wr f n).outbox = h.outbox := (rfl)
@[simp] theorem Hub.wr_tb (h : Hub) (f : Fld) (n : Nat) : (h.wr f n).tb = h.tb := (rfl)
@[simp] theorem Hub.wr_trig (h : Hub) (f : Fld) (n : Nat) : (h.wr f n).trig = h.trig := (rfl)
@[simp] theorem Hub.wr_trg (h : Hub) (f : Fld) (n : Nat) : (h.wr f n).trg = h.trg := (rfl)
@[simp] theorem Hub.wr_tach (h : Hub) (f : Fld) (n : Nat) : (h.wr f n).tach = h.tach := (rfl)
@[simp] theorem Hub.wr_kt (h : Hub) (f : Fld) (n : Nat) : (h.wr f n).kt = h.kt := (rfl)
@[simp] theorem Hub.wr_flt (h : Hub) (f : Fld) (n : Nat) : (h.wr f n).flt = h.flt := (rfl)
@[simp] theorem Hub.wr_job (h : Hub) (f : Fld) (n : Nat) : (h.wr f n).job = h.job := (rfl)
@[simp] theorem Hub.wr_spc (h : Hub) (f : Fld) (n : Nat) : (h.wr f n).spc = h.spc := (rfl)
@[simp] theorem Hub.wr_fea (h : Hub) (f : Fld) (n : Nat) : (h.wr f n).fea = h.fea := (rfl)
@[simp] theorem Hub.wr_lim (h : Hub) (f : Fld) (n : Nat) : (h.wr f n).lim = h.lim := (rfl)
@[simp] theorem Hub.wr_link (h : Hub) (f : Fld) (n : Nat) : (h.wr f n).link = h.link := (rfl)
@[simp] theorem Hub.wr_cas (h : Hub) (f : Fld) (n : Nat) : (h.wr f n).cas = h.cas := (rfl)
@[simp] theorem Hub.wr_rad (h : Hub) (f : Fld) (n : Nat) : (h.wr f n).rad = h.rad := (rfl)
@[simp] theorem Hub.wr_hlt (h : Hub) (f : Fld) (n : Nat) : (h.wr f n).hlt = h.hlt := (rfl)
@[simp] theorem Hub.wr_sup (h : Hub) (f : Fld) (n : Nat) : (h.wr f n).sup = h.sup := (rfl)
@[simp] theorem Hub.wr_tbMet (h : Hub) (f : Fld) (n : Nat) : (h.wr f n).tbMet = h.tbMet := (rfl)
@[simp] theorem Hub.wr_metFollows (h : Hub) (f : Fld) (n : Nat) : (h.wr f n).metFollows = h.metFollows := (rfl)
@[simp] theorem Hub.wr_metFifo (h : Hub) (f : Fld) (n : Nat) : (h.wr f n).metFifo = h.metFifo := (rfl)
@[simp] theorem Hub.wr_metGap (h : Hub) (f : Fld) (n : Nat) : (h.wr f n).metGap = h.metGap := (rfl)
@[simp] theorem Hub.wr_cyc (h : Hub) (f : Fld) (n : Nat) : (h.wr f n).cyc = h.cyc := (rfl)
@[simp] theorem Hub.wr_asleep (h : Hub) (f : Fld) (n : Nat) : (h.wr f n).asleep = h.asleep := (rfl)
@[simp] theorem Hub.wr_free (h : Hub) (f : Fld) (n : Nat) : (h.wr f n).free = h.free := (rfl)
@[simp] theorem Hub.wr_cell (h : Hub) (f : Fld) (n : Nat) (x y z : Nat) : (h.wr f n).cell x y z = h.cell x y z := (rfl)
@[simp] theorem Hub.wr_cf (h : Hub) (f : Fld) (n : Nat) (x y z lo len : Nat) : (h.wr f n).cf x y z lo len = h.cf x y z lo len := (rfl)

/-! ### `Hub.on` -/

@[simp] theorem Hub.on_cells (h : Hub) (f : Fld) : (h.on f).cells = h.cells := (rfl)
@[simp] theorem Hub.on_clk (h : Hub) (f : Fld) : (h.on f).clk = h.clk := (rfl)
@[simp] theorem Hub.on_ldr (h : Hub) (f : Fld) : (h.on f).ldr = h.ldr := (rfl)
@[simp] theorem Hub.on_host (h : Hub) (f : Fld) : (h.on f).host = h.host := (rfl)
@[simp] theorem Hub.on_sp (h : Hub) (f : Fld) : (h.on f).sp = h.sp := (rfl)
@[simp] theorem Hub.on_tw (h : Hub) (f : Fld) : (h.on f).tw = h.tw := (rfl)
@[simp] theorem Hub.on_ingress (h : Hub) (f : Fld) : (h.on f).ingress = h.ingress := (rfl)
@[simp] theorem Hub.on_ctx (h : Hub) (f : Fld) : (h.on f).ctx = h.ctx := (rfl)
@[simp] theorem Hub.on_stg (h : Hub) (f : Fld) : (h.on f).stg = h.stg := (rfl)
@[simp] theorem Hub.on_tile (h : Hub) (f : Fld) : (h.on f).tile = h.tile := (rfl)
@[simp] theorem Hub.on_ev (h : Hub) (f : Fld) : (h.on f).ev = h.ev := (rfl)
@[simp] theorem Hub.on_evSeen (h : Hub) (f : Fld) : (h.on f).evSeen = h.evSeen := (rfl)
@[simp] theorem Hub.on_q (h : Hub) (f : Fld) : (h.on f).q = h.q := (rfl)
@[simp] theorem Hub.on_stock (h : Hub) (f : Fld) : (h.on f).stock = h.stock := (rfl)
@[simp] theorem Hub.on_stockFill (h : Hub) (f : Fld) : (h.on f).stockFill = h.stockFill := (rfl)
@[simp] theorem Hub.on_dbgHeld (h : Hub) (f : Fld) : (h.on f).dbgHeld = h.dbgHeld := (rfl)
@[simp] theorem Hub.on_ring (h : Hub) (f : Fld) : (h.on f).ring = h.ring := (rfl)
@[simp] theorem Hub.on_outbox (h : Hub) (f : Fld) : (h.on f).outbox = h.outbox := (rfl)
@[simp] theorem Hub.on_tb (h : Hub) (f : Fld) : (h.on f).tb = h.tb := (rfl)
@[simp] theorem Hub.on_trig (h : Hub) (f : Fld) : (h.on f).trig = h.trig := (rfl)
@[simp] theorem Hub.on_trg (h : Hub) (f : Fld) : (h.on f).trg = h.trg := (rfl)
@[simp] theorem Hub.on_tach (h : Hub) (f : Fld) : (h.on f).tach = h.tach := (rfl)
@[simp] theorem Hub.on_kt (h : Hub) (f : Fld) : (h.on f).kt = h.kt := (rfl)
@[simp] theorem Hub.on_flt (h : Hub) (f : Fld) : (h.on f).flt = h.flt := (rfl)
@[simp] theorem Hub.on_job (h : Hub) (f : Fld) : (h.on f).job = h.job := (rfl)
@[simp] theorem Hub.on_spc (h : Hub) (f : Fld) : (h.on f).spc = h.spc := (rfl)
@[simp] theorem Hub.on_fea (h : Hub) (f : Fld) : (h.on f).fea = h.fea := (rfl)
@[simp] theorem Hub.on_lim (h : Hub) (f : Fld) : (h.on f).lim = h.lim := (rfl)
@[simp] theorem Hub.on_link (h : Hub) (f : Fld) : (h.on f).link = h.link := (rfl)
@[simp] theorem Hub.on_cas (h : Hub) (f : Fld) : (h.on f).cas = h.cas := (rfl)
@[simp] theorem Hub.on_rad (h : Hub) (f : Fld) : (h.on f).rad = h.rad := (rfl)
@[simp] theorem Hub.on_hlt (h : Hub) (f : Fld) : (h.on f).hlt = h.hlt := (rfl)
@[simp] theorem Hub.on_sup (h : Hub) (f : Fld) : (h.on f).sup = h.sup := (rfl)
@[simp] theorem Hub.on_tbMet (h : Hub) (f : Fld) : (h.on f).tbMet = h.tbMet := (rfl)
@[simp] theorem Hub.on_metFollows (h : Hub) (f : Fld) : (h.on f).metFollows = h.metFollows := (rfl)
@[simp] theorem Hub.on_metFifo (h : Hub) (f : Fld) : (h.on f).metFifo = h.metFifo := (rfl)
@[simp] theorem Hub.on_metGap (h : Hub) (f : Fld) : (h.on f).metGap = h.metGap := (rfl)
@[simp] theorem Hub.on_cyc (h : Hub) (f : Fld) : (h.on f).cyc = h.cyc := (rfl)
@[simp] theorem Hub.on_asleep (h : Hub) (f : Fld) : (h.on f).asleep = h.asleep := (rfl)
@[simp] theorem Hub.on_free (h : Hub) (f : Fld) : (h.on f).free = h.free := (rfl)
@[simp] theorem Hub.on_cell (h : Hub) (f : Fld) (x y z : Nat) : (h.on f).cell x y z = h.cell x y z := (rfl)
@[simp] theorem Hub.on_cf (h : Hub) (f : Fld) (x y z lo len : Nat) : (h.on f).cf x y z lo len = h.cf x y z lo len := (rfl)

/-! ### `Hub.off` -/

@[simp] theorem Hub.off_cells (h : Hub) (f : Fld) : (h.off f).cells = h.cells := (rfl)
@[simp] theorem Hub.off_clk (h : Hub) (f : Fld) : (h.off f).clk = h.clk := (rfl)
@[simp] theorem Hub.off_ldr (h : Hub) (f : Fld) : (h.off f).ldr = h.ldr := (rfl)
@[simp] theorem Hub.off_host (h : Hub) (f : Fld) : (h.off f).host = h.host := (rfl)
@[simp] theorem Hub.off_sp (h : Hub) (f : Fld) : (h.off f).sp = h.sp := (rfl)
@[simp] theorem Hub.off_tw (h : Hub) (f : Fld) : (h.off f).tw = h.tw := (rfl)
@[simp] theorem Hub.off_ingress (h : Hub) (f : Fld) : (h.off f).ingress = h.ingress := (rfl)
@[simp] theorem Hub.off_ctx (h : Hub) (f : Fld) : (h.off f).ctx = h.ctx := (rfl)
@[simp] theorem Hub.off_stg (h : Hub) (f : Fld) : (h.off f).stg = h.stg := (rfl)
@[simp] theorem Hub.off_tile (h : Hub) (f : Fld) : (h.off f).tile = h.tile := (rfl)
@[simp] theorem Hub.off_ev (h : Hub) (f : Fld) : (h.off f).ev = h.ev := (rfl)
@[simp] theorem Hub.off_evSeen (h : Hub) (f : Fld) : (h.off f).evSeen = h.evSeen := (rfl)
@[simp] theorem Hub.off_q (h : Hub) (f : Fld) : (h.off f).q = h.q := (rfl)
@[simp] theorem Hub.off_stock (h : Hub) (f : Fld) : (h.off f).stock = h.stock := (rfl)
@[simp] theorem Hub.off_stockFill (h : Hub) (f : Fld) : (h.off f).stockFill = h.stockFill := (rfl)
@[simp] theorem Hub.off_dbgHeld (h : Hub) (f : Fld) : (h.off f).dbgHeld = h.dbgHeld := (rfl)
@[simp] theorem Hub.off_ring (h : Hub) (f : Fld) : (h.off f).ring = h.ring := (rfl)
@[simp] theorem Hub.off_outbox (h : Hub) (f : Fld) : (h.off f).outbox = h.outbox := (rfl)
@[simp] theorem Hub.off_tb (h : Hub) (f : Fld) : (h.off f).tb = h.tb := (rfl)
@[simp] theorem Hub.off_trig (h : Hub) (f : Fld) : (h.off f).trig = h.trig := (rfl)
@[simp] theorem Hub.off_trg (h : Hub) (f : Fld) : (h.off f).trg = h.trg := (rfl)
@[simp] theorem Hub.off_tach (h : Hub) (f : Fld) : (h.off f).tach = h.tach := (rfl)
@[simp] theorem Hub.off_kt (h : Hub) (f : Fld) : (h.off f).kt = h.kt := (rfl)
@[simp] theorem Hub.off_flt (h : Hub) (f : Fld) : (h.off f).flt = h.flt := (rfl)
@[simp] theorem Hub.off_job (h : Hub) (f : Fld) : (h.off f).job = h.job := (rfl)
@[simp] theorem Hub.off_spc (h : Hub) (f : Fld) : (h.off f).spc = h.spc := (rfl)
@[simp] theorem Hub.off_fea (h : Hub) (f : Fld) : (h.off f).fea = h.fea := (rfl)
@[simp] theorem Hub.off_lim (h : Hub) (f : Fld) : (h.off f).lim = h.lim := (rfl)
@[simp] theorem Hub.off_link (h : Hub) (f : Fld) : (h.off f).link = h.link := (rfl)
@[simp] theorem Hub.off_cas (h : Hub) (f : Fld) : (h.off f).cas = h.cas := (rfl)
@[simp] theorem Hub.off_rad (h : Hub) (f : Fld) : (h.off f).rad = h.rad := (rfl)
@[simp] theorem Hub.off_hlt (h : Hub) (f : Fld) : (h.off f).hlt = h.hlt := (rfl)
@[simp] theorem Hub.off_sup (h : Hub) (f : Fld) : (h.off f).sup = h.sup := (rfl)
@[simp] theorem Hub.off_tbMet (h : Hub) (f : Fld) : (h.off f).tbMet = h.tbMet := (rfl)
@[simp] theorem Hub.off_metFollows (h : Hub) (f : Fld) : (h.off f).metFollows = h.metFollows := (rfl)
@[simp] theorem Hub.off_metFifo (h : Hub) (f : Fld) : (h.off f).metFifo = h.metFifo := (rfl)
@[simp] theorem Hub.off_metGap (h : Hub) (f : Fld) : (h.off f).metGap = h.metGap := (rfl)
@[simp] theorem Hub.off_cyc (h : Hub) (f : Fld) : (h.off f).cyc = h.cyc := (rfl)
@[simp] theorem Hub.off_asleep (h : Hub) (f : Fld) : (h.off f).asleep = h.asleep := (rfl)
@[simp] theorem Hub.off_free (h : Hub) (f : Fld) : (h.off f).free = h.free := (rfl)
@[simp] theorem Hub.off_cell (h : Hub) (f : Fld) (x y z : Nat) : (h.off f).cell x y z = h.cell x y z := (rfl)
@[simp] theorem Hub.off_cf (h : Hub) (f : Fld) (x y z lo len : Nat) : (h.off f).cf x y z lo len = h.cf x y z lo len := (rfl)

/-! ### `Hub.count` -/

@[simp] theorem Hub.count_cells (h : Hub) (f : Fld) (n : Nat) : (h.count f n).cells = h.cells := (rfl)
@[simp] theorem Hub.count_clk (h : Hub) (f : Fld) (n : Nat) : (h.count f n).clk = h.clk := (rfl)
@[simp] theorem Hub.count_ldr (h : Hub) (f : Fld) (n : Nat) : (h.count f n).ldr = h.ldr := (rfl)
@[simp] theorem Hub.count_host (h : Hub) (f : Fld) (n : Nat) : (h.count f n).host = h.host := (rfl)
@[simp] theorem Hub.count_sp (h : Hub) (f : Fld) (n : Nat) : (h.count f n).sp = h.sp := (rfl)
@[simp] theorem Hub.count_tw (h : Hub) (f : Fld) (n : Nat) : (h.count f n).tw = h.tw := (rfl)
@[simp] theorem Hub.count_ingress (h : Hub) (f : Fld) (n : Nat) : (h.count f n).ingress = h.ingress := (rfl)
@[simp] theorem Hub.count_ctx (h : Hub) (f : Fld) (n : Nat) : (h.count f n).ctx = h.ctx := (rfl)
@[simp] theorem Hub.count_stg (h : Hub) (f : Fld) (n : Nat) : (h.count f n).stg = h.stg := (rfl)
@[simp] theorem Hub.count_tile (h : Hub) (f : Fld) (n : Nat) : (h.count f n).tile = h.tile := (rfl)
@[simp] theorem Hub.count_ev (h : Hub) (f : Fld) (n : Nat) : (h.count f n).ev = h.ev := (rfl)
@[simp] theorem Hub.count_evSeen (h : Hub) (f : Fld) (n : Nat) : (h.count f n).evSeen = h.evSeen := (rfl)
@[simp] theorem Hub.count_q (h : Hub) (f : Fld) (n : Nat) : (h.count f n).q = h.q := (rfl)
@[simp] theorem Hub.count_stock (h : Hub) (f : Fld) (n : Nat) : (h.count f n).stock = h.stock := (rfl)
@[simp] theorem Hub.count_stockFill (h : Hub) (f : Fld) (n : Nat) : (h.count f n).stockFill = h.stockFill := (rfl)
@[simp] theorem Hub.count_dbgHeld (h : Hub) (f : Fld) (n : Nat) : (h.count f n).dbgHeld = h.dbgHeld := (rfl)
@[simp] theorem Hub.count_ring (h : Hub) (f : Fld) (n : Nat) : (h.count f n).ring = h.ring := (rfl)
@[simp] theorem Hub.count_outbox (h : Hub) (f : Fld) (n : Nat) : (h.count f n).outbox = h.outbox := (rfl)
@[simp] theorem Hub.count_tb (h : Hub) (f : Fld) (n : Nat) : (h.count f n).tb = h.tb := (rfl)
@[simp] theorem Hub.count_trig (h : Hub) (f : Fld) (n : Nat) : (h.count f n).trig = h.trig := (rfl)
@[simp] theorem Hub.count_trg (h : Hub) (f : Fld) (n : Nat) : (h.count f n).trg = h.trg := (rfl)
@[simp] theorem Hub.count_tach (h : Hub) (f : Fld) (n : Nat) : (h.count f n).tach = h.tach := (rfl)
@[simp] theorem Hub.count_kt (h : Hub) (f : Fld) (n : Nat) : (h.count f n).kt = h.kt := (rfl)
@[simp] theorem Hub.count_flt (h : Hub) (f : Fld) (n : Nat) : (h.count f n).flt = h.flt := (rfl)
@[simp] theorem Hub.count_job (h : Hub) (f : Fld) (n : Nat) : (h.count f n).job = h.job := (rfl)
@[simp] theorem Hub.count_spc (h : Hub) (f : Fld) (n : Nat) : (h.count f n).spc = h.spc := (rfl)
@[simp] theorem Hub.count_fea (h : Hub) (f : Fld) (n : Nat) : (h.count f n).fea = h.fea := (rfl)
@[simp] theorem Hub.count_lim (h : Hub) (f : Fld) (n : Nat) : (h.count f n).lim = h.lim := (rfl)
@[simp] theorem Hub.count_link (h : Hub) (f : Fld) (n : Nat) : (h.count f n).link = h.link := (rfl)
@[simp] theorem Hub.count_cas (h : Hub) (f : Fld) (n : Nat) : (h.count f n).cas = h.cas := (rfl)
@[simp] theorem Hub.count_rad (h : Hub) (f : Fld) (n : Nat) : (h.count f n).rad = h.rad := (rfl)
@[simp] theorem Hub.count_hlt (h : Hub) (f : Fld) (n : Nat) : (h.count f n).hlt = h.hlt := (rfl)
@[simp] theorem Hub.count_sup (h : Hub) (f : Fld) (n : Nat) : (h.count f n).sup = h.sup := (rfl)
@[simp] theorem Hub.count_tbMet (h : Hub) (f : Fld) (n : Nat) : (h.count f n).tbMet = h.tbMet := (rfl)
@[simp] theorem Hub.count_metFollows (h : Hub) (f : Fld) (n : Nat) : (h.count f n).metFollows = h.metFollows := (rfl)
@[simp] theorem Hub.count_metFifo (h : Hub) (f : Fld) (n : Nat) : (h.count f n).metFifo = h.metFifo := (rfl)
@[simp] theorem Hub.count_metGap (h : Hub) (f : Fld) (n : Nat) : (h.count f n).metGap = h.metGap := (rfl)
@[simp] theorem Hub.count_cyc (h : Hub) (f : Fld) (n : Nat) : (h.count f n).cyc = h.cyc := (rfl)
@[simp] theorem Hub.count_asleep (h : Hub) (f : Fld) (n : Nat) : (h.count f n).asleep = h.asleep := (rfl)
@[simp] theorem Hub.count_free (h : Hub) (f : Fld) (n : Nat) : (h.count f n).free = h.free := (rfl)
@[simp] theorem Hub.count_cell (h : Hub) (f : Fld) (n : Nat) (x y z : Nat) : (h.count f n).cell x y z = h.cell x y z := (rfl)
@[simp] theorem Hub.count_cf (h : Hub) (f : Fld) (n : Nat) (x y z lo len : Nat) : (h.count f n).cf x y z lo len = h.cf x y z lo len := (rfl)

/-! ### `Hub.countSat` -/

@[simp] theorem Hub.countSat_cells (h : Hub) (f : Fld) (n : Nat) : (h.countSat f n).cells = h.cells := (rfl)
@[simp] theorem Hub.countSat_clk (h : Hub) (f : Fld) (n : Nat) : (h.countSat f n).clk = h.clk := (rfl)
@[simp] theorem Hub.countSat_ldr (h : Hub) (f : Fld) (n : Nat) : (h.countSat f n).ldr = h.ldr := (rfl)
@[simp] theorem Hub.countSat_host (h : Hub) (f : Fld) (n : Nat) : (h.countSat f n).host = h.host := (rfl)
@[simp] theorem Hub.countSat_sp (h : Hub) (f : Fld) (n : Nat) : (h.countSat f n).sp = h.sp := (rfl)
@[simp] theorem Hub.countSat_tw (h : Hub) (f : Fld) (n : Nat) : (h.countSat f n).tw = h.tw := (rfl)
@[simp] theorem Hub.countSat_ingress (h : Hub) (f : Fld) (n : Nat) : (h.countSat f n).ingress = h.ingress := (rfl)
@[simp] theorem Hub.countSat_ctx (h : Hub) (f : Fld) (n : Nat) : (h.countSat f n).ctx = h.ctx := (rfl)
@[simp] theorem Hub.countSat_stg (h : Hub) (f : Fld) (n : Nat) : (h.countSat f n).stg = h.stg := (rfl)
@[simp] theorem Hub.countSat_tile (h : Hub) (f : Fld) (n : Nat) : (h.countSat f n).tile = h.tile := (rfl)
@[simp] theorem Hub.countSat_ev (h : Hub) (f : Fld) (n : Nat) : (h.countSat f n).ev = h.ev := (rfl)
@[simp] theorem Hub.countSat_evSeen (h : Hub) (f : Fld) (n : Nat) : (h.countSat f n).evSeen = h.evSeen := (rfl)
@[simp] theorem Hub.countSat_q (h : Hub) (f : Fld) (n : Nat) : (h.countSat f n).q = h.q := (rfl)
@[simp] theorem Hub.countSat_stock (h : Hub) (f : Fld) (n : Nat) : (h.countSat f n).stock = h.stock := (rfl)
@[simp] theorem Hub.countSat_stockFill (h : Hub) (f : Fld) (n : Nat) : (h.countSat f n).stockFill = h.stockFill := (rfl)
@[simp] theorem Hub.countSat_dbgHeld (h : Hub) (f : Fld) (n : Nat) : (h.countSat f n).dbgHeld = h.dbgHeld := (rfl)
@[simp] theorem Hub.countSat_ring (h : Hub) (f : Fld) (n : Nat) : (h.countSat f n).ring = h.ring := (rfl)
@[simp] theorem Hub.countSat_outbox (h : Hub) (f : Fld) (n : Nat) : (h.countSat f n).outbox = h.outbox := (rfl)
@[simp] theorem Hub.countSat_tb (h : Hub) (f : Fld) (n : Nat) : (h.countSat f n).tb = h.tb := (rfl)
@[simp] theorem Hub.countSat_trig (h : Hub) (f : Fld) (n : Nat) : (h.countSat f n).trig = h.trig := (rfl)
@[simp] theorem Hub.countSat_trg (h : Hub) (f : Fld) (n : Nat) : (h.countSat f n).trg = h.trg := (rfl)
@[simp] theorem Hub.countSat_tach (h : Hub) (f : Fld) (n : Nat) : (h.countSat f n).tach = h.tach := (rfl)
@[simp] theorem Hub.countSat_kt (h : Hub) (f : Fld) (n : Nat) : (h.countSat f n).kt = h.kt := (rfl)
@[simp] theorem Hub.countSat_flt (h : Hub) (f : Fld) (n : Nat) : (h.countSat f n).flt = h.flt := (rfl)
@[simp] theorem Hub.countSat_job (h : Hub) (f : Fld) (n : Nat) : (h.countSat f n).job = h.job := (rfl)
@[simp] theorem Hub.countSat_spc (h : Hub) (f : Fld) (n : Nat) : (h.countSat f n).spc = h.spc := (rfl)
@[simp] theorem Hub.countSat_fea (h : Hub) (f : Fld) (n : Nat) : (h.countSat f n).fea = h.fea := (rfl)
@[simp] theorem Hub.countSat_lim (h : Hub) (f : Fld) (n : Nat) : (h.countSat f n).lim = h.lim := (rfl)
@[simp] theorem Hub.countSat_link (h : Hub) (f : Fld) (n : Nat) : (h.countSat f n).link = h.link := (rfl)
@[simp] theorem Hub.countSat_cas (h : Hub) (f : Fld) (n : Nat) : (h.countSat f n).cas = h.cas := (rfl)
@[simp] theorem Hub.countSat_rad (h : Hub) (f : Fld) (n : Nat) : (h.countSat f n).rad = h.rad := (rfl)
@[simp] theorem Hub.countSat_hlt (h : Hub) (f : Fld) (n : Nat) : (h.countSat f n).hlt = h.hlt := (rfl)
@[simp] theorem Hub.countSat_sup (h : Hub) (f : Fld) (n : Nat) : (h.countSat f n).sup = h.sup := (rfl)
@[simp] theorem Hub.countSat_tbMet (h : Hub) (f : Fld) (n : Nat) : (h.countSat f n).tbMet = h.tbMet := (rfl)
@[simp] theorem Hub.countSat_metFollows (h : Hub) (f : Fld) (n : Nat) : (h.countSat f n).metFollows = h.metFollows := (rfl)
@[simp] theorem Hub.countSat_metFifo (h : Hub) (f : Fld) (n : Nat) : (h.countSat f n).metFifo = h.metFifo := (rfl)
@[simp] theorem Hub.countSat_metGap (h : Hub) (f : Fld) (n : Nat) : (h.countSat f n).metGap = h.metGap := (rfl)
@[simp] theorem Hub.countSat_cyc (h : Hub) (f : Fld) (n : Nat) : (h.countSat f n).cyc = h.cyc := (rfl)
@[simp] theorem Hub.countSat_asleep (h : Hub) (f : Fld) (n : Nat) : (h.countSat f n).asleep = h.asleep := (rfl)
@[simp] theorem Hub.countSat_free (h : Hub) (f : Fld) (n : Nat) : (h.countSat f n).free = h.free := (rfl)
@[simp] theorem Hub.countSat_cell (h : Hub) (f : Fld) (n : Nat) (x y z : Nat) : (h.countSat f n).cell x y z = h.cell x y z := (rfl)
@[simp] theorem Hub.countSat_cf (h : Hub) (f : Fld) (n : Nat) (x y z lo len : Nat) : (h.countSat f n).cf x y z lo len = h.cf x y z lo len := (rfl)

/-! ### `Hub.setCell` -/

@[simp] theorem Hub.setCell_regs (h : Hub) (k : Nat) (w : Word) : (h.setCell k w).regs = h.regs := (rfl)
@[simp] theorem Hub.setCell_clk (h : Hub) (k : Nat) (w : Word) : (h.setCell k w).clk = h.clk := (rfl)
@[simp] theorem Hub.setCell_ldr (h : Hub) (k : Nat) (w : Word) : (h.setCell k w).ldr = h.ldr := (rfl)
@[simp] theorem Hub.setCell_host (h : Hub) (k : Nat) (w : Word) : (h.setCell k w).host = h.host := (rfl)
@[simp] theorem Hub.setCell_sp (h : Hub) (k : Nat) (w : Word) : (h.setCell k w).sp = h.sp := (rfl)
@[simp] theorem Hub.setCell_tw (h : Hub) (k : Nat) (w : Word) : (h.setCell k w).tw = h.tw := (rfl)
@[simp] theorem Hub.setCell_ingress (h : Hub) (k : Nat) (w : Word) : (h.setCell k w).ingress = h.ingress := (rfl)
@[simp] theorem Hub.setCell_ctx (h : Hub) (k : Nat) (w : Word) : (h.setCell k w).ctx = h.ctx := (rfl)
@[simp] theorem Hub.setCell_stg (h : Hub) (k : Nat) (w : Word) : (h.setCell k w).stg = h.stg := (rfl)
@[simp] theorem Hub.setCell_tile (h : Hub) (k : Nat) (w : Word) : (h.setCell k w).tile = h.tile := (rfl)
@[simp] theorem Hub.setCell_ev (h : Hub) (k : Nat) (w : Word) : (h.setCell k w).ev = h.ev := (rfl)
@[simp] theorem Hub.setCell_evSeen (h : Hub) (k : Nat) (w : Word) : (h.setCell k w).evSeen = h.evSeen := (rfl)
@[simp] theorem Hub.setCell_q (h : Hub) (k : Nat) (w : Word) : (h.setCell k w).q = h.q := (rfl)
@[simp] theorem Hub.setCell_stock (h : Hub) (k : Nat) (w : Word) : (h.setCell k w).stock = h.stock := (rfl)
@[simp] theorem Hub.setCell_stockFill (h : Hub) (k : Nat) (w : Word) : (h.setCell k w).stockFill = h.stockFill := (rfl)
@[simp] theorem Hub.setCell_dbgHeld (h : Hub) (k : Nat) (w : Word) : (h.setCell k w).dbgHeld = h.dbgHeld := (rfl)
@[simp] theorem Hub.setCell_ring (h : Hub) (k : Nat) (w : Word) : (h.setCell k w).ring = h.ring := (rfl)
@[simp] theorem Hub.setCell_outbox (h : Hub) (k : Nat) (w : Word) : (h.setCell k w).outbox = h.outbox := (rfl)
@[simp] theorem Hub.setCell_tb (h : Hub) (k : Nat) (w : Word) : (h.setCell k w).tb = h.tb := (rfl)
@[simp] theorem Hub.setCell_trig (h : Hub) (k : Nat) (w : Word) : (h.setCell k w).trig = h.trig := (rfl)
@[simp] theorem Hub.setCell_trg (h : Hub) (k : Nat) (w : Word) : (h.setCell k w).trg = h.trg := (rfl)
@[simp] theorem Hub.setCell_tach (h : Hub) (k : Nat) (w : Word) : (h.setCell k w).tach = h.tach := (rfl)
@[simp] theorem Hub.setCell_kt (h : Hub) (k : Nat) (w : Word) : (h.setCell k w).kt = h.kt := (rfl)
@[simp] theorem Hub.setCell_flt (h : Hub) (k : Nat) (w : Word) : (h.setCell k w).flt = h.flt := (rfl)
@[simp] theorem Hub.setCell_job (h : Hub) (k : Nat) (w : Word) : (h.setCell k w).job = h.job := (rfl)
@[simp] theorem Hub.setCell_spc (h : Hub) (k : Nat) (w : Word) : (h.setCell k w).spc = h.spc := (rfl)
@[simp] theorem Hub.setCell_fea (h : Hub) (k : Nat) (w : Word) : (h.setCell k w).fea = h.fea := (rfl)
@[simp] theorem Hub.setCell_lim (h : Hub) (k : Nat) (w : Word) : (h.setCell k w).lim = h.lim := (rfl)
@[simp] theorem Hub.setCell_link (h : Hub) (k : Nat) (w : Word) : (h.setCell k w).link = h.link := (rfl)
@[simp] theorem Hub.setCell_cas (h : Hub) (k : Nat) (w : Word) : (h.setCell k w).cas = h.cas := (rfl)
@[simp] theorem Hub.setCell_rad (h : Hub) (k : Nat) (w : Word) : (h.setCell k w).rad = h.rad := (rfl)
@[simp] theorem Hub.setCell_hlt (h : Hub) (k : Nat) (w : Word) : (h.setCell k w).hlt = h.hlt := (rfl)
@[simp] theorem Hub.setCell_sup (h : Hub) (k : Nat) (w : Word) : (h.setCell k w).sup = h.sup := (rfl)
@[simp] theorem Hub.setCell_tbMet (h : Hub) (k : Nat) (w : Word) : (h.setCell k w).tbMet = h.tbMet := (rfl)
@[simp] theorem Hub.setCell_metFollows (h : Hub) (k : Nat) (w : Word) : (h.setCell k w).metFollows = h.metFollows := (rfl)
@[simp] theorem Hub.setCell_metFifo (h : Hub) (k : Nat) (w : Word) : (h.setCell k w).metFifo = h.metFifo := (rfl)
@[simp] theorem Hub.setCell_metGap (h : Hub) (k : Nat) (w : Word) : (h.setCell k w).metGap = h.metGap := (rfl)
@[simp] theorem Hub.setCell_cyc (h : Hub) (k : Nat) (w : Word) : (h.setCell k w).cyc = h.cyc := (rfl)
@[simp] theorem Hub.setCell_asleep (h : Hub) (k : Nat) (w : Word) : (h.setCell k w).asleep = h.asleep := (rfl)
@[simp] theorem Hub.setCell_free (h : Hub) (k : Nat) (w : Word) : (h.setCell k w).free = h.free := (rfl)
@[simp] theorem Hub.setCell_reg (h : Hub) (k : Nat) (w : Word) (x : Nat) : (h.setCell k w).reg x = h.reg x := (rfl)
@[simp] theorem Hub.setCell_rd (h : Hub) (k : Nat) (w : Word) (x : Fld) : (h.setCell k w).rd x = h.rd x := (rfl)
@[simp] theorem Hub.setCell_is (h : Hub) (k : Nat) (w : Word) (x : Fld) : (h.setCell k w).is x = h.is x := (rfl)

/-! ### `Hub.pushOut` -/

@[simp] theorem Hub.pushOut_regs (h : Hub) (p q : Nat) (l : List QWord) : (h.pushOut p q l).regs = h.regs := (rfl)
@[simp] theorem Hub.pushOut_cells (h : Hub) (p q : Nat) (l : List QWord) : (h.pushOut p q l).cells = h.cells := (rfl)
@[simp] theorem Hub.pushOut_clk (h : Hub) (p q : Nat) (l : List QWord) : (h.pushOut p q l).clk = h.clk := (rfl)
@[simp] theorem Hub.pushOut_ldr (h : Hub) (p q : Nat) (l : List QWord) : (h.pushOut p q l).ldr = h.ldr := (rfl)
@[simp] theorem Hub.pushOut_host (h : Hub) (p q : Nat) (l : List QWord) : (h.pushOut p q l).host = h.host := (rfl)
@[simp] theorem Hub.pushOut_sp (h : Hub) (p q : Nat) (l : List QWord) : (h.pushOut p q l).sp = h.sp := (rfl)
@[simp] theorem Hub.pushOut_tw (h : Hub) (p q : Nat) (l : List QWord) : (h.pushOut p q l).tw = h.tw := (rfl)
@[simp] theorem Hub.pushOut_ingress (h : Hub) (p q : Nat) (l : List QWord) : (h.pushOut p q l).ingress = h.ingress := (rfl)
@[simp] theorem Hub.pushOut_ctx (h : Hub) (p q : Nat) (l : List QWord) : (h.pushOut p q l).ctx = h.ctx := (rfl)
@[simp] theorem Hub.pushOut_stg (h : Hub) (p q : Nat) (l : List QWord) : (h.pushOut p q l).stg = h.stg := (rfl)
@[simp] theorem Hub.pushOut_tile (h : Hub) (p q : Nat) (l : List QWord) : (h.pushOut p q l).tile = h.tile := (rfl)
@[simp] theorem Hub.pushOut_ev (h : Hub) (p q : Nat) (l : List QWord) : (h.pushOut p q l).ev = h.ev := (rfl)
@[simp] theorem Hub.pushOut_evSeen (h : Hub) (p q : Nat) (l : List QWord) : (h.pushOut p q l).evSeen = h.evSeen := (rfl)
@[simp] theorem Hub.pushOut_q (h : Hub) (p q : Nat) (l : List QWord) : (h.pushOut p q l).q = h.q := (rfl)
@[simp] theorem Hub.pushOut_stock (h : Hub) (p q : Nat) (l : List QWord) : (h.pushOut p q l).stock = h.stock := (rfl)
@[simp] theorem Hub.pushOut_stockFill (h : Hub) (p q : Nat) (l : List QWord) : (h.pushOut p q l).stockFill = h.stockFill := (rfl)
@[simp] theorem Hub.pushOut_dbgHeld (h : Hub) (p q : Nat) (l : List QWord) : (h.pushOut p q l).dbgHeld = h.dbgHeld := (rfl)
@[simp] theorem Hub.pushOut_ring (h : Hub) (p q : Nat) (l : List QWord) : (h.pushOut p q l).ring = h.ring := (rfl)
@[simp] theorem Hub.pushOut_tb (h : Hub) (p q : Nat) (l : List QWord) : (h.pushOut p q l).tb = h.tb := (rfl)
@[simp] theorem Hub.pushOut_trig (h : Hub) (p q : Nat) (l : List QWord) : (h.pushOut p q l).trig = h.trig := (rfl)
@[simp] theorem Hub.pushOut_trg (h : Hub) (p q : Nat) (l : List QWord) : (h.pushOut p q l).trg = h.trg := (rfl)
@[simp] theorem Hub.pushOut_tach (h : Hub) (p q : Nat) (l : List QWord) : (h.pushOut p q l).tach = h.tach := (rfl)
@[simp] theorem Hub.pushOut_kt (h : Hub) (p q : Nat) (l : List QWord) : (h.pushOut p q l).kt = h.kt := (rfl)
@[simp] theorem Hub.pushOut_flt (h : Hub) (p q : Nat) (l : List QWord) : (h.pushOut p q l).flt = h.flt := (rfl)
@[simp] theorem Hub.pushOut_job (h : Hub) (p q : Nat) (l : List QWord) : (h.pushOut p q l).job = h.job := (rfl)
@[simp] theorem Hub.pushOut_spc (h : Hub) (p q : Nat) (l : List QWord) : (h.pushOut p q l).spc = h.spc := (rfl)
@[simp] theorem Hub.pushOut_fea (h : Hub) (p q : Nat) (l : List QWord) : (h.pushOut p q l).fea = h.fea := (rfl)
@[simp] theorem Hub.pushOut_lim (h : Hub) (p q : Nat) (l : List QWord) : (h.pushOut p q l).lim = h.lim := (rfl)
@[simp] theorem Hub.pushOut_link (h : Hub) (p q : Nat) (l : List QWord) : (h.pushOut p q l).link = h.link := (rfl)
@[simp] theorem Hub.pushOut_cas (h : Hub) (p q : Nat) (l : List QWord) : (h.pushOut p q l).cas = h.cas := (rfl)
@[simp] theorem Hub.pushOut_rad (h : Hub) (p q : Nat) (l : List QWord) : (h.pushOut p q l).rad = h.rad := (rfl)
@[simp] theorem Hub.pushOut_hlt (h : Hub) (p q : Nat) (l : List QWord) : (h.pushOut p q l).hlt = h.hlt := (rfl)
@[simp] theorem Hub.pushOut_sup (h : Hub) (p q : Nat) (l : List QWord) : (h.pushOut p q l).sup = h.sup := (rfl)
@[simp] theorem Hub.pushOut_tbMet (h : Hub) (p q : Nat) (l : List QWord) : (h.pushOut p q l).tbMet = h.tbMet := (rfl)
@[simp] theorem Hub.pushOut_metFollows (h : Hub) (p q : Nat) (l : List QWord) : (h.pushOut p q l).metFollows = h.metFollows := (rfl)
@[simp] theorem Hub.pushOut_metFifo (h : Hub) (p q : Nat) (l : List QWord) : (h.pushOut p q l).metFifo = h.metFifo := (rfl)
@[simp] theorem Hub.pushOut_metGap (h : Hub) (p q : Nat) (l : List QWord) : (h.pushOut p q l).metGap = h.metGap := (rfl)
@[simp] theorem Hub.pushOut_cyc (h : Hub) (p q : Nat) (l : List QWord) : (h.pushOut p q l).cyc = h.cyc := (rfl)
@[simp] theorem Hub.pushOut_asleep (h : Hub) (p q : Nat) (l : List QWord) : (h.pushOut p q l).asleep = h.asleep := (rfl)
@[simp] theorem Hub.pushOut_free (h : Hub) (p q : Nat) (l : List QWord) : (h.pushOut p q l).free = h.free := (rfl)
@[simp] theorem Hub.pushOut_reg (h : Hub) (p q : Nat) (l : List QWord) (x : Nat) : (h.pushOut p q l).reg x = h.reg x := (rfl)
@[simp] theorem Hub.pushOut_rd (h : Hub) (p q : Nat) (l : List QWord) (x : Fld) : (h.pushOut p q l).rd x = h.rd x := (rfl)
@[simp] theorem Hub.pushOut_is (h : Hub) (p q : Nat) (l : List QWord) (x : Fld) : (h.pushOut p q l).is x = h.is x := (rfl)
@[simp] theorem Hub.pushOut_cell (h : Hub) (p q : Nat) (l : List QWord) (x y z : Nat) : (h.pushOut p q l).cell x y z = h.cell x y z := (rfl)
@[simp] theorem Hub.pushOut_cf (h : Hub) (p q : Nat) (l : List QWord) (x y z lo len : Nat) : (h.pushOut p q l).cf x y z lo len = h.cf x y z lo len := (rfl)

/-! ### `Hub.cutOutbox` -/

@[simp] theorem Hub.cutOutbox_regs (h : Hub) (p : Nat) : (h.cutOutbox p).regs = h.regs := (rfl)
@[simp] theorem Hub.cutOutbox_cells (h : Hub) (p : Nat) : (h.cutOutbox p).cells = h.cells := (rfl)
@[simp] theorem Hub.cutOutbox_clk (h : Hub) (p : Nat) : (h.cutOutbox p).clk = h.clk := (rfl)
@[simp] theorem Hub.cutOutbox_ldr (h : Hub) (p : Nat) : (h.cutOutbox p).ldr = h.ldr := (rfl)
@[simp] theorem Hub.cutOutbox_host (h : Hub) (p : Nat) : (h.cutOutbox p).host = h.host := (rfl)
@[simp] theorem Hub.cutOutbox_sp (h : Hub) (p : Nat) : (h.cutOutbox p).sp = h.sp := (rfl)
@[simp] theorem Hub.cutOutbox_tw (h : Hub) (p : Nat) : (h.cutOutbox p).tw = h.tw := (rfl)
@[simp] theorem Hub.cutOutbox_ingress (h : Hub) (p : Nat) : (h.cutOutbox p).ingress = h.ingress := (rfl)
@[simp] theorem Hub.cutOutbox_ctx (h : Hub) (p : Nat) : (h.cutOutbox p).ctx = h.ctx := (rfl)
@[simp] theorem Hub.cutOutbox_stg (h : Hub) (p : Nat) : (h.cutOutbox p).stg = h.stg := (rfl)
@[simp] theorem Hub.cutOutbox_tile (h : Hub) (p : Nat) : (h.cutOutbox p).tile = h.tile := (rfl)
@[simp] theorem Hub.cutOutbox_ev (h : Hub) (p : Nat) : (h.cutOutbox p).ev = h.ev := (rfl)
@[simp] theorem Hub.cutOutbox_evSeen (h : Hub) (p : Nat) : (h.cutOutbox p).evSeen = h.evSeen := (rfl)
@[simp] theorem Hub.cutOutbox_q (h : Hub) (p : Nat) : (h.cutOutbox p).q = h.q := (rfl)
@[simp] theorem Hub.cutOutbox_stock (h : Hub) (p : Nat) : (h.cutOutbox p).stock = h.stock := (rfl)
@[simp] theorem Hub.cutOutbox_stockFill (h : Hub) (p : Nat) : (h.cutOutbox p).stockFill = h.stockFill := (rfl)
@[simp] theorem Hub.cutOutbox_dbgHeld (h : Hub) (p : Nat) : (h.cutOutbox p).dbgHeld = h.dbgHeld := (rfl)
@[simp] theorem Hub.cutOutbox_ring (h : Hub) (p : Nat) : (h.cutOutbox p).ring = h.ring := (rfl)
@[simp] theorem Hub.cutOutbox_tb (h : Hub) (p : Nat) : (h.cutOutbox p).tb = h.tb := (rfl)
@[simp] theorem Hub.cutOutbox_trig (h : Hub) (p : Nat) : (h.cutOutbox p).trig = h.trig := (rfl)
@[simp] theorem Hub.cutOutbox_trg (h : Hub) (p : Nat) : (h.cutOutbox p).trg = h.trg := (rfl)
@[simp] theorem Hub.cutOutbox_tach (h : Hub) (p : Nat) : (h.cutOutbox p).tach = h.tach := (rfl)
@[simp] theorem Hub.cutOutbox_kt (h : Hub) (p : Nat) : (h.cutOutbox p).kt = h.kt := (rfl)
@[simp] theorem Hub.cutOutbox_flt (h : Hub) (p : Nat) : (h.cutOutbox p).flt = h.flt := (rfl)
@[simp] theorem Hub.cutOutbox_job (h : Hub) (p : Nat) : (h.cutOutbox p).job = h.job := (rfl)
@[simp] theorem Hub.cutOutbox_spc (h : Hub) (p : Nat) : (h.cutOutbox p).spc = h.spc := (rfl)
@[simp] theorem Hub.cutOutbox_fea (h : Hub) (p : Nat) : (h.cutOutbox p).fea = h.fea := (rfl)
@[simp] theorem Hub.cutOutbox_lim (h : Hub) (p : Nat) : (h.cutOutbox p).lim = h.lim := (rfl)
@[simp] theorem Hub.cutOutbox_link (h : Hub) (p : Nat) : (h.cutOutbox p).link = h.link := (rfl)
@[simp] theorem Hub.cutOutbox_cas (h : Hub) (p : Nat) : (h.cutOutbox p).cas = h.cas := (rfl)
@[simp] theorem Hub.cutOutbox_rad (h : Hub) (p : Nat) : (h.cutOutbox p).rad = h.rad := (rfl)
@[simp] theorem Hub.cutOutbox_hlt (h : Hub) (p : Nat) : (h.cutOutbox p).hlt = h.hlt := (rfl)
@[simp] theorem Hub.cutOutbox_sup (h : Hub) (p : Nat) : (h.cutOutbox p).sup = h.sup := (rfl)
@[simp] theorem Hub.cutOutbox_tbMet (h : Hub) (p : Nat) : (h.cutOutbox p).tbMet = h.tbMet := (rfl)
@[simp] theorem Hub.cutOutbox_metFollows (h : Hub) (p : Nat) : (h.cutOutbox p).metFollows = h.metFollows := (rfl)
@[simp] theorem Hub.cutOutbox_metFifo (h : Hub) (p : Nat) : (h.cutOutbox p).metFifo = h.metFifo := (rfl)
@[simp] theorem Hub.cutOutbox_metGap (h : Hub) (p : Nat) : (h.cutOutbox p).metGap = h.metGap := (rfl)
@[simp] theorem Hub.cutOutbox_cyc (h : Hub) (p : Nat) : (h.cutOutbox p).cyc = h.cyc := (rfl)
@[simp] theorem Hub.cutOutbox_asleep (h : Hub) (p : Nat) : (h.cutOutbox p).asleep = h.asleep := (rfl)
@[simp] theorem Hub.cutOutbox_free (h : Hub) (p : Nat) : (h.cutOutbox p).free = h.free := (rfl)
@[simp] theorem Hub.cutOutbox_reg (h : Hub) (p : Nat) (x : Nat) : (h.cutOutbox p).reg x = h.reg x := (rfl)
@[simp] theorem Hub.cutOutbox_rd (h : Hub) (p : Nat) (x : Fld) : (h.cutOutbox p).rd x = h.rd x := (rfl)
@[simp] theorem Hub.cutOutbox_is (h : Hub) (p : Nat) (x : Fld) : (h.cutOutbox p).is x = h.is x := (rfl)
@[simp] theorem Hub.cutOutbox_cell (h : Hub) (p : Nat) (x y z : Nat) : (h.cutOutbox p).cell x y z = h.cell x y z := (rfl)
@[simp] theorem Hub.cutOutbox_cf (h : Hub) (p : Nat) (x y z lo len : Nat) : (h.cutOutbox p).cf x y z lo len = h.cf x y z lo len := (rfl)

/-! ### `Hub.toHost` -/

@[simp] theorem Hub.toHost_regs (h : Hub) (w : Word) : (h.toHost w).regs = h.regs := (rfl)
@[simp] theorem Hub.toHost_cells (h : Hub) (w : Word) : (h.toHost w).cells = h.cells := (rfl)
@[simp] theorem Hub.toHost_clk (h : Hub) (w : Word) : (h.toHost w).clk = h.clk := (rfl)
@[simp] theorem Hub.toHost_ldr (h : Hub) (w : Word) : (h.toHost w).ldr = h.ldr := (rfl)
@[simp] theorem Hub.toHost_sp (h : Hub) (w : Word) : (h.toHost w).sp = h.sp := (rfl)
@[simp] theorem Hub.toHost_tw (h : Hub) (w : Word) : (h.toHost w).tw = h.tw := (rfl)
@[simp] theorem Hub.toHost_ingress (h : Hub) (w : Word) : (h.toHost w).ingress = h.ingress := (rfl)
@[simp] theorem Hub.toHost_ctx (h : Hub) (w : Word) : (h.toHost w).ctx = h.ctx := (rfl)
@[simp] theorem Hub.toHost_stg (h : Hub) (w : Word) : (h.toHost w).stg = h.stg := (rfl)
@[simp] theorem Hub.toHost_tile (h : Hub) (w : Word) : (h.toHost w).tile = h.tile := (rfl)
@[simp] theorem Hub.toHost_ev (h : Hub) (w : Word) : (h.toHost w).ev = h.ev := (rfl)
@[simp] theorem Hub.toHost_evSeen (h : Hub) (w : Word) : (h.toHost w).evSeen = h.evSeen := (rfl)
@[simp] theorem Hub.toHost_q (h : Hub) (w : Word) : (h.toHost w).q = h.q := (rfl)
@[simp] theorem Hub.toHost_stock (h : Hub) (w : Word) : (h.toHost w).stock = h.stock := (rfl)
@[simp] theorem Hub.toHost_stockFill (h : Hub) (w : Word) : (h.toHost w).stockFill = h.stockFill := (rfl)
@[simp] theorem Hub.toHost_dbgHeld (h : Hub) (w : Word) : (h.toHost w).dbgHeld = h.dbgHeld := (rfl)
@[simp] theorem Hub.toHost_ring (h : Hub) (w : Word) : (h.toHost w).ring = h.ring := (rfl)
@[simp] theorem Hub.toHost_outbox (h : Hub) (w : Word) : (h.toHost w).outbox = h.outbox := (rfl)
@[simp] theorem Hub.toHost_tb (h : Hub) (w : Word) : (h.toHost w).tb = h.tb := (rfl)
@[simp] theorem Hub.toHost_trig (h : Hub) (w : Word) : (h.toHost w).trig = h.trig := (rfl)
@[simp] theorem Hub.toHost_trg (h : Hub) (w : Word) : (h.toHost w).trg = h.trg := (rfl)
@[simp] theorem Hub.toHost_tach (h : Hub) (w : Word) : (h.toHost w).tach = h.tach := (rfl)
@[simp] theorem Hub.toHost_kt (h : Hub) (w : Word) : (h.toHost w).kt = h.kt := (rfl)
@[simp] theorem Hub.toHost_flt (h : Hub) (w : Word) : (h.toHost w).flt = h.flt := (rfl)
@[simp] theorem Hub.toHost_job (h : Hub) (w : Word) : (h.toHost w).job = h.job := (rfl)
@[simp] theorem Hub.toHost_spc (h : Hub) (w : Word) : (h.toHost w).spc = h.spc := (rfl)
@[simp] theorem Hub.toHost_fea (h : Hub) (w : Word) : (h.toHost w).fea = h.fea := (rfl)
@[simp] theorem Hub.toHost_lim (h : Hub) (w : Word) : (h.toHost w).lim = h.lim := (rfl)
@[simp] theorem Hub.toHost_link (h : Hub) (w : Word) : (h.toHost w).link = h.link := (rfl)
@[simp] theorem Hub.toHost_cas (h : Hub) (w : Word) : (h.toHost w).cas = h.cas := (rfl)
@[simp] theorem Hub.toHost_rad (h : Hub) (w : Word) : (h.toHost w).rad = h.rad := (rfl)
@[simp] theorem Hub.toHost_hlt (h : Hub) (w : Word) : (h.toHost w).hlt = h.hlt := (rfl)
@[simp] theorem Hub.toHost_sup (h : Hub) (w : Word) : (h.toHost w).sup = h.sup := (rfl)
@[simp] theorem Hub.toHost_tbMet (h : Hub) (w : Word) : (h.toHost w).tbMet = h.tbMet := (rfl)
@[simp] theorem Hub.toHost_metFollows (h : Hub) (w : Word) : (h.toHost w).metFollows = h.metFollows := (rfl)
@[simp] theorem Hub.toHost_metFifo (h : Hub) (w : Word) : (h.toHost w).metFifo = h.metFifo := (rfl)
@[simp] theorem Hub.toHost_metGap (h : Hub) (w : Word) : (h.toHost w).metGap = h.metGap := (rfl)
@[simp] theorem Hub.toHost_cyc (h : Hub) (w : Word) : (h.toHost w).cyc = h.cyc := (rfl)
@[simp] theorem Hub.toHost_asleep (h : Hub) (w : Word) : (h.toHost w).asleep = h.asleep := (rfl)
@[simp] theorem Hub.toHost_free (h : Hub) (w : Word) : (h.toHost w).free = h.free := (rfl)
@[simp] theorem Hub.toHost_reg (h : Hub) (w : Word) (x : Nat) : (h.toHost w).reg x = h.reg x := (rfl)
@[simp] theorem Hub.toHost_rd (h : Hub) (w : Word) (x : Fld) : (h.toHost w).rd x = h.rd x := (rfl)
@[simp] theorem Hub.toHost_is (h : Hub) (w : Word) (x : Fld) : (h.toHost w).is x = h.is x := (rfl)
@[simp] theorem Hub.toHost_cell (h : Hub) (w : Word) (x y z : Nat) : (h.toHost w).cell x y z = h.cell x y z := (rfl)
@[simp] theorem Hub.toHost_cf (h : Hub) (w : Word) (x y z lo len : Nat) : (h.toHost w).cf x y z lo len = h.cf x y z lo len := (rfl)

/-! ### `Hub.modClk` -/

@[simp] theorem Hub.modClk_regs (h : Hub) (f : Clk → Clk) : (h.modClk f).regs = h.regs := (rfl)
@[simp] theorem Hub.modClk_cells (h : Hub) (f : Clk → Clk) : (h.modClk f).cells = h.cells := (rfl)
@[simp] theorem Hub.modClk_ldr (h : Hub) (f : Clk → Clk) : (h.modClk f).ldr = h.ldr := (rfl)
@[simp] theorem Hub.modClk_host (h : Hub) (f : Clk → Clk) : (h.modClk f).host = h.host := (rfl)
@[simp] theorem Hub.modClk_sp (h : Hub) (f : Clk → Clk) : (h.modClk f).sp = h.sp := (rfl)
@[simp] theorem Hub.modClk_tw (h : Hub) (f : Clk → Clk) : (h.modClk f).tw = h.tw := (rfl)
@[simp] theorem Hub.modClk_ingress (h : Hub) (f : Clk → Clk) : (h.modClk f).ingress = h.ingress := (rfl)
@[simp] theorem Hub.modClk_ctx (h : Hub) (f : Clk → Clk) : (h.modClk f).ctx = h.ctx := (rfl)
@[simp] theorem Hub.modClk_stg (h : Hub) (f : Clk → Clk) : (h.modClk f).stg = h.stg := (rfl)
@[simp] theorem Hub.modClk_tile (h : Hub) (f : Clk → Clk) : (h.modClk f).tile = h.tile := (rfl)
@[simp] theorem Hub.modClk_ev (h : Hub) (f : Clk → Clk) : (h.modClk f).ev = h.ev := (rfl)
@[simp] theorem Hub.modClk_evSeen (h : Hub) (f : Clk → Clk) : (h.modClk f).evSeen = h.evSeen := (rfl)
@[simp] theorem Hub.modClk_q (h : Hub) (f : Clk → Clk) : (h.modClk f).q = h.q := (rfl)
@[simp] theorem Hub.modClk_stock (h : Hub) (f : Clk → Clk) : (h.modClk f).stock = h.stock := (rfl)
@[simp] theorem Hub.modClk_stockFill (h : Hub) (f : Clk → Clk) : (h.modClk f).stockFill = h.stockFill := (rfl)
@[simp] theorem Hub.modClk_dbgHeld (h : Hub) (f : Clk → Clk) : (h.modClk f).dbgHeld = h.dbgHeld := (rfl)
@[simp] theorem Hub.modClk_ring (h : Hub) (f : Clk → Clk) : (h.modClk f).ring = h.ring := (rfl)
@[simp] theorem Hub.modClk_outbox (h : Hub) (f : Clk → Clk) : (h.modClk f).outbox = h.outbox := (rfl)
@[simp] theorem Hub.modClk_tb (h : Hub) (f : Clk → Clk) : (h.modClk f).tb = h.tb := (rfl)
@[simp] theorem Hub.modClk_trig (h : Hub) (f : Clk → Clk) : (h.modClk f).trig = h.trig := (rfl)
@[simp] theorem Hub.modClk_trg (h : Hub) (f : Clk → Clk) : (h.modClk f).trg = h.trg := (rfl)
@[simp] theorem Hub.modClk_tach (h : Hub) (f : Clk → Clk) : (h.modClk f).tach = h.tach := (rfl)
@[simp] theorem Hub.modClk_kt (h : Hub) (f : Clk → Clk) : (h.modClk f).kt = h.kt := (rfl)
@[simp] theorem Hub.modClk_flt (h : Hub) (f : Clk → Clk) : (h.modClk f).flt = h.flt := (rfl)
@[simp] theorem Hub.modClk_job (h : Hub) (f : Clk → Clk) : (h.modClk f).job = h.job := (rfl)
@[simp] theorem Hub.modClk_spc (h : Hub) (f : Clk → Clk) : (h.modClk f).spc = h.spc := (rfl)
@[simp] theorem Hub.modClk_fea (h : Hub) (f : Clk → Clk) : (h.modClk f).fea = h.fea := (rfl)
@[simp] theorem Hub.modClk_lim (h : Hub) (f : Clk → Clk) : (h.modClk f).lim = h.lim := (rfl)
@[simp] theorem Hub.modClk_link (h : Hub) (f : Clk → Clk) : (h.modClk f).link = h.link := (rfl)
@[simp] theorem Hub.modClk_cas (h : Hub) (f : Clk → Clk) : (h.modClk f).cas = h.cas := (rfl)
@[simp] theorem Hub.modClk_rad (h : Hub) (f : Clk → Clk) : (h.modClk f).rad = h.rad := (rfl)
@[simp] theorem Hub.modClk_hlt (h : Hub) (f : Clk → Clk) : (h.modClk f).hlt = h.hlt := (rfl)
@[simp] theorem Hub.modClk_sup (h : Hub) (f : Clk → Clk) : (h.modClk f).sup = h.sup := (rfl)
@[simp] theorem Hub.modClk_tbMet (h : Hub) (f : Clk → Clk) : (h.modClk f).tbMet = h.tbMet := (rfl)
@[simp] theorem Hub.modClk_metFollows (h : Hub) (f : Clk → Clk) : (h.modClk f).metFollows = h.metFollows := (rfl)
@[simp] theorem Hub.modClk_metFifo (h : Hub) (f : Clk → Clk) : (h.modClk f).metFifo = h.metFifo := (rfl)
@[simp] theorem Hub.modClk_metGap (h : Hub) (f : Clk → Clk) : (h.modClk f).metGap = h.metGap := (rfl)
@[simp] theorem Hub.modClk_cyc (h : Hub) (f : Clk → Clk) : (h.modClk f).cyc = h.cyc := (rfl)
@[simp] theorem Hub.modClk_asleep (h : Hub) (f : Clk → Clk) : (h.modClk f).asleep = h.asleep := (rfl)
@[simp] theorem Hub.modClk_free (h : Hub) (f : Clk → Clk) : (h.modClk f).free = h.free := (rfl)
@[simp] theorem Hub.modClk_reg (h : Hub) (f : Clk → Clk) (x : Nat) : (h.modClk f).reg x = h.reg x := (rfl)
@[simp] theorem Hub.modClk_rd (h : Hub) (f : Clk → Clk) (x : Fld) : (h.modClk f).rd x = h.rd x := (rfl)
@[simp] theorem Hub.modClk_is (h : Hub) (f : Clk → Clk) (x : Fld) : (h.modClk f).is x = h.is x := (rfl)
@[simp] theorem Hub.modClk_cell (h : Hub) (f : Clk → Clk) (x y z : Nat) : (h.modClk f).cell x y z = h.cell x y z := (rfl)
@[simp] theorem Hub.modClk_cf (h : Hub) (f : Clk → Clk) (x y z lo len : Nat) : (h.modClk f).cf x y z lo len = h.cf x y z lo len := (rfl)

/-! ### `Hub.modLdr` -/

@[simp] theorem Hub.modLdr_regs (h : Hub) (f : Ldr → Ldr) : (h.modLdr f).regs = h.regs := (rfl)
@[simp] theorem Hub.modLdr_cells (h : Hub) (f : Ldr → Ldr) : (h.modLdr f).cells = h.cells := (rfl)
@[simp] theorem Hub.modLdr_clk (h : Hub) (f : Ldr → Ldr) : (h.modLdr f).clk = h.clk := (rfl)
@[simp] theorem Hub.modLdr_host (h : Hub) (f : Ldr → Ldr) : (h.modLdr f).host = h.host := (rfl)
@[simp] theorem Hub.modLdr_sp (h : Hub) (f : Ldr → Ldr) : (h.modLdr f).sp = h.sp := (rfl)
@[simp] theorem Hub.modLdr_tw (h : Hub) (f : Ldr → Ldr) : (h.modLdr f).tw = h.tw := (rfl)
@[simp] theorem Hub.modLdr_ingress (h : Hub) (f : Ldr → Ldr) : (h.modLdr f).ingress = h.ingress := (rfl)
@[simp] theorem Hub.modLdr_ctx (h : Hub) (f : Ldr → Ldr) : (h.modLdr f).ctx = h.ctx := (rfl)
@[simp] theorem Hub.modLdr_stg (h : Hub) (f : Ldr → Ldr) : (h.modLdr f).stg = h.stg := (rfl)
@[simp] theorem Hub.modLdr_tile (h : Hub) (f : Ldr → Ldr) : (h.modLdr f).tile = h.tile := (rfl)
@[simp] theorem Hub.modLdr_ev (h : Hub) (f : Ldr → Ldr) : (h.modLdr f).ev = h.ev := (rfl)
@[simp] theorem Hub.modLdr_evSeen (h : Hub) (f : Ldr → Ldr) : (h.modLdr f).evSeen = h.evSeen := (rfl)
@[simp] theorem Hub.modLdr_q (h : Hub) (f : Ldr → Ldr) : (h.modLdr f).q = h.q := (rfl)
@[simp] theorem Hub.modLdr_stock (h : Hub) (f : Ldr → Ldr) : (h.modLdr f).stock = h.stock := (rfl)
@[simp] theorem Hub.modLdr_stockFill (h : Hub) (f : Ldr → Ldr) : (h.modLdr f).stockFill = h.stockFill := (rfl)
@[simp] theorem Hub.modLdr_dbgHeld (h : Hub) (f : Ldr → Ldr) : (h.modLdr f).dbgHeld = h.dbgHeld := (rfl)
@[simp] theorem Hub.modLdr_ring (h : Hub) (f : Ldr → Ldr) : (h.modLdr f).ring = h.ring := (rfl)
@[simp] theorem Hub.modLdr_outbox (h : Hub) (f : Ldr → Ldr) : (h.modLdr f).outbox = h.outbox := (rfl)
@[simp] theorem Hub.modLdr_tb (h : Hub) (f : Ldr → Ldr) : (h.modLdr f).tb = h.tb := (rfl)
@[simp] theorem Hub.modLdr_trig (h : Hub) (f : Ldr → Ldr) : (h.modLdr f).trig = h.trig := (rfl)
@[simp] theorem Hub.modLdr_trg (h : Hub) (f : Ldr → Ldr) : (h.modLdr f).trg = h.trg := (rfl)
@[simp] theorem Hub.modLdr_tach (h : Hub) (f : Ldr → Ldr) : (h.modLdr f).tach = h.tach := (rfl)
@[simp] theorem Hub.modLdr_kt (h : Hub) (f : Ldr → Ldr) : (h.modLdr f).kt = h.kt := (rfl)
@[simp] theorem Hub.modLdr_flt (h : Hub) (f : Ldr → Ldr) : (h.modLdr f).flt = h.flt := (rfl)
@[simp] theorem Hub.modLdr_job (h : Hub) (f : Ldr → Ldr) : (h.modLdr f).job = h.job := (rfl)
@[simp] theorem Hub.modLdr_spc (h : Hub) (f : Ldr → Ldr) : (h.modLdr f).spc = h.spc := (rfl)
@[simp] theorem Hub.modLdr_fea (h : Hub) (f : Ldr → Ldr) : (h.modLdr f).fea = h.fea := (rfl)
@[simp] theorem Hub.modLdr_lim (h : Hub) (f : Ldr → Ldr) : (h.modLdr f).lim = h.lim := (rfl)
@[simp] theorem Hub.modLdr_link (h : Hub) (f : Ldr → Ldr) : (h.modLdr f).link = h.link := (rfl)
@[simp] theorem Hub.modLdr_cas (h : Hub) (f : Ldr → Ldr) : (h.modLdr f).cas = h.cas := (rfl)
@[simp] theorem Hub.modLdr_rad (h : Hub) (f : Ldr → Ldr) : (h.modLdr f).rad = h.rad := (rfl)
@[simp] theorem Hub.modLdr_hlt (h : Hub) (f : Ldr → Ldr) : (h.modLdr f).hlt = h.hlt := (rfl)
@[simp] theorem Hub.modLdr_sup (h : Hub) (f : Ldr → Ldr) : (h.modLdr f).sup = h.sup := (rfl)
@[simp] theorem Hub.modLdr_tbMet (h : Hub) (f : Ldr → Ldr) : (h.modLdr f).tbMet = h.tbMet := (rfl)
@[simp] theorem Hub.modLdr_metFollows (h : Hub) (f : Ldr → Ldr) : (h.modLdr f).metFollows = h.metFollows := (rfl)
@[simp] theorem Hub.modLdr_metFifo (h : Hub) (f : Ldr → Ldr) : (h.modLdr f).metFifo = h.metFifo := (rfl)
@[simp] theorem Hub.modLdr_metGap (h : Hub) (f : Ldr → Ldr) : (h.modLdr f).metGap = h.metGap := (rfl)
@[simp] theorem Hub.modLdr_cyc (h : Hub) (f : Ldr → Ldr) : (h.modLdr f).cyc = h.cyc := (rfl)
@[simp] theorem Hub.modLdr_asleep (h : Hub) (f : Ldr → Ldr) : (h.modLdr f).asleep = h.asleep := (rfl)
@[simp] theorem Hub.modLdr_free (h : Hub) (f : Ldr → Ldr) : (h.modLdr f).free = h.free := (rfl)
@[simp] theorem Hub.modLdr_reg (h : Hub) (f : Ldr → Ldr) (x : Nat) : (h.modLdr f).reg x = h.reg x := (rfl)
@[simp] theorem Hub.modLdr_rd (h : Hub) (f : Ldr → Ldr) (x : Fld) : (h.modLdr f).rd x = h.rd x := (rfl)
@[simp] theorem Hub.modLdr_is (h : Hub) (f : Ldr → Ldr) (x : Fld) : (h.modLdr f).is x = h.is x := (rfl)
@[simp] theorem Hub.modLdr_cell (h : Hub) (f : Ldr → Ldr) (x y z : Nat) : (h.modLdr f).cell x y z = h.cell x y z := (rfl)
@[simp] theorem Hub.modLdr_cf (h : Hub) (f : Ldr → Ldr) (x y z lo len : Nat) : (h.modLdr f).cf x y z lo len = h.cf x y z lo len := (rfl)

/-! ### `Hub.modChan` -/

@[simp] theorem Hub.modChan_regs (h : Hub) (n : Nat) (f : EvChan → EvChan) : (h.modChan n f).regs = h.regs := (rfl)
@[simp] theorem Hub.modChan_cells (h : Hub) (n : Nat) (f : EvChan → EvChan) : (h.modChan n f).cells = h.cells := (rfl)
@[simp] theorem Hub.modChan_clk (h : Hub) (n : Nat) (f : EvChan → EvChan) : (h.modChan n f).clk = h.clk := (rfl)
@[simp] theorem Hub.modChan_ldr (h : Hub) (n : Nat) (f : EvChan → EvChan) : (h.modChan n f).ldr = h.ldr := (rfl)
@[simp] theorem Hub.modChan_host (h : Hub) (n : Nat) (f : EvChan → EvChan) : (h.modChan n f).host = h.host := (rfl)
@[simp] theorem Hub.modChan_sp (h : Hub) (n : Nat) (f : EvChan → EvChan) : (h.modChan n f).sp = h.sp := (rfl)
@[simp] theorem Hub.modChan_tw (h : Hub) (n : Nat) (f : EvChan → EvChan) : (h.modChan n f).tw = h.tw := (rfl)
@[simp] theorem Hub.modChan_ingress (h : Hub) (n : Nat) (f : EvChan → EvChan) : (h.modChan n f).ingress = h.ingress := (rfl)
@[simp] theorem Hub.modChan_ctx (h : Hub) (n : Nat) (f : EvChan → EvChan) : (h.modChan n f).ctx = h.ctx := (rfl)
@[simp] theorem Hub.modChan_stg (h : Hub) (n : Nat) (f : EvChan → EvChan) : (h.modChan n f).stg = h.stg := (rfl)
@[simp] theorem Hub.modChan_tile (h : Hub) (n : Nat) (f : EvChan → EvChan) : (h.modChan n f).tile = h.tile := (rfl)
@[simp] theorem Hub.modChan_evSeen (h : Hub) (n : Nat) (f : EvChan → EvChan) : (h.modChan n f).evSeen = h.evSeen := (rfl)
@[simp] theorem Hub.modChan_q (h : Hub) (n : Nat) (f : EvChan → EvChan) : (h.modChan n f).q = h.q := (rfl)
@[simp] theorem Hub.modChan_stock (h : Hub) (n : Nat) (f : EvChan → EvChan) : (h.modChan n f).stock = h.stock := (rfl)
@[simp] theorem Hub.modChan_stockFill (h : Hub) (n : Nat) (f : EvChan → EvChan) : (h.modChan n f).stockFill = h.stockFill := (rfl)
@[simp] theorem Hub.modChan_dbgHeld (h : Hub) (n : Nat) (f : EvChan → EvChan) : (h.modChan n f).dbgHeld = h.dbgHeld := (rfl)
@[simp] theorem Hub.modChan_ring (h : Hub) (n : Nat) (f : EvChan → EvChan) : (h.modChan n f).ring = h.ring := (rfl)
@[simp] theorem Hub.modChan_outbox (h : Hub) (n : Nat) (f : EvChan → EvChan) : (h.modChan n f).outbox = h.outbox := (rfl)
@[simp] theorem Hub.modChan_tb (h : Hub) (n : Nat) (f : EvChan → EvChan) : (h.modChan n f).tb = h.tb := (rfl)
@[simp] theorem Hub.modChan_trig (h : Hub) (n : Nat) (f : EvChan → EvChan) : (h.modChan n f).trig = h.trig := (rfl)
@[simp] theorem Hub.modChan_trg (h : Hub) (n : Nat) (f : EvChan → EvChan) : (h.modChan n f).trg = h.trg := (rfl)
@[simp] theorem Hub.modChan_tach (h : Hub) (n : Nat) (f : EvChan → EvChan) : (h.modChan n f).tach = h.tach := (rfl)
@[simp] theorem Hub.modChan_kt (h : Hub) (n : Nat) (f : EvChan → EvChan) : (h.modChan n f).kt = h.kt := (rfl)
@[simp] theorem Hub.modChan_flt (h : Hub) (n : Nat) (f : EvChan → EvChan) : (h.modChan n f).flt = h.flt := (rfl)
@[simp] theorem Hub.modChan_job (h : Hub) (n : Nat) (f : EvChan → EvChan) : (h.modChan n f).job = h.job := (rfl)
@[simp] theorem Hub.modChan_spc (h : Hub) (n : Nat) (f : EvChan → EvChan) : (h.modChan n f).spc = h.spc := (rfl)
@[simp] theorem Hub.modChan_fea (h : Hub) (n : Nat) (f : EvChan → EvChan) : (h.modChan n f).fea = h.fea := (rfl)
@[simp] theorem Hub.modChan_lim (h : Hub) (n : Nat) (f : EvChan → EvChan) : (h.modChan n f).lim = h.lim := (rfl)
@[simp] theorem Hub.modChan_link (h : Hub) (n : Nat) (f : EvChan → EvChan) : (h.modChan n f).link = h.link := (rfl)
@[simp] theorem Hub.modChan_cas (h : Hub) (n : Nat) (f : EvChan → EvChan) : (h.modChan n f).cas = h.cas := (rfl)
@[simp] theorem Hub.modChan_rad (h : Hub) (n : Nat) (f : EvChan → EvChan) : (h.modChan n f).rad = h.rad := (rfl)
@[simp] theorem Hub.modChan_hlt (h : Hub) (n : Nat) (f : EvChan → EvChan) : (h.modChan n f).hlt = h.hlt := (rfl)
@[simp] theorem Hub.modChan_sup (h : Hub) (n : Nat) (f : EvChan → EvChan) : (h.modChan n f).sup = h.sup := (rfl)
@[simp] theorem Hub.modChan_tbMet (h : Hub) (n : Nat) (f : EvChan → EvChan) : (h.modChan n f).tbMet = h.tbMet := (rfl)
@[simp] theorem Hub.modChan_metFollows (h : Hub) (n : Nat) (f : EvChan → EvChan) : (h.modChan n f).metFollows = h.metFollows := (rfl)
@[simp] theorem Hub.modChan_metFifo (h : Hub) (n : Nat) (f : EvChan → EvChan) : (h.modChan n f).metFifo = h.metFifo := (rfl)
@[simp] theorem Hub.modChan_metGap (h : Hub) (n : Nat) (f : EvChan → EvChan) : (h.modChan n f).metGap = h.metGap := (rfl)
@[simp] theorem Hub.modChan_cyc (h : Hub) (n : Nat) (f : EvChan → EvChan) : (h.modChan n f).cyc = h.cyc := (rfl)
@[simp] theorem Hub.modChan_asleep (h : Hub) (n : Nat) (f : EvChan → EvChan) : (h.modChan n f).asleep = h.asleep := (rfl)
@[simp] theorem Hub.modChan_free (h : Hub) (n : Nat) (f : EvChan → EvChan) : (h.modChan n f).free = h.free := (rfl)
@[simp] theorem Hub.modChan_reg (h : Hub) (n : Nat) (f : EvChan → EvChan) (x : Nat) : (h.modChan n f).reg x = h.reg x := (rfl)
@[simp] theorem Hub.modChan_rd (h : Hub) (n : Nat) (f : EvChan → EvChan) (x : Fld) : (h.modChan n f).rd x = h.rd x := (rfl)
@[simp] theorem Hub.modChan_is (h : Hub) (n : Nat) (f : EvChan → EvChan) (x : Fld) : (h.modChan n f).is x = h.is x := (rfl)
@[simp] theorem Hub.modChan_cell (h : Hub) (n : Nat) (f : EvChan → EvChan) (x y z : Nat) : (h.modChan n f).cell x y z = h.cell x y z := (rfl)
@[simp] theorem Hub.modChan_cf (h : Hub) (n : Nat) (f : EvChan → EvChan) (x y z lo len : Nat) : (h.modChan n f).cf x y z lo len = h.cf x y z lo len := (rfl)

/-! ### `Hub.modLk` -/

@[simp] theorem Hub.modLk_regs (h : Hub) (p : Nat) (f : Link → Link) : (h.modLk p f).regs = h.regs := (rfl)
@[simp] theorem Hub.modLk_cells (h : Hub) (p : Nat) (f : Link → Link) : (h.modLk p f).cells = h.cells := (rfl)
@[simp] theorem Hub.modLk_clk (h : Hub) (p : Nat) (f : Link → Link) : (h.modLk p f).clk = h.clk := (rfl)
@[simp] theorem Hub.modLk_ldr (h : Hub) (p : Nat) (f : Link → Link) : (h.modLk p f).ldr = h.ldr := (rfl)
@[simp] theorem Hub.modLk_host (h : Hub) (p : Nat) (f : Link → Link) : (h.modLk p f).host = h.host := (rfl)
@[simp] theorem Hub.modLk_sp (h : Hub) (p : Nat) (f : Link → Link) : (h.modLk p f).sp = h.sp := (rfl)
@[simp] theorem Hub.modLk_tw (h : Hub) (p : Nat) (f : Link → Link) : (h.modLk p f).tw = h.tw := (rfl)
@[simp] theorem Hub.modLk_ingress (h : Hub) (p : Nat) (f : Link → Link) : (h.modLk p f).ingress = h.ingress := (rfl)
@[simp] theorem Hub.modLk_ctx (h : Hub) (p : Nat) (f : Link → Link) : (h.modLk p f).ctx = h.ctx := (rfl)
@[simp] theorem Hub.modLk_stg (h : Hub) (p : Nat) (f : Link → Link) : (h.modLk p f).stg = h.stg := (rfl)
@[simp] theorem Hub.modLk_tile (h : Hub) (p : Nat) (f : Link → Link) : (h.modLk p f).tile = h.tile := (rfl)
@[simp] theorem Hub.modLk_ev (h : Hub) (p : Nat) (f : Link → Link) : (h.modLk p f).ev = h.ev := (rfl)
@[simp] theorem Hub.modLk_evSeen (h : Hub) (p : Nat) (f : Link → Link) : (h.modLk p f).evSeen = h.evSeen := (rfl)
@[simp] theorem Hub.modLk_q (h : Hub) (p : Nat) (f : Link → Link) : (h.modLk p f).q = h.q := (rfl)
@[simp] theorem Hub.modLk_stock (h : Hub) (p : Nat) (f : Link → Link) : (h.modLk p f).stock = h.stock := (rfl)
@[simp] theorem Hub.modLk_stockFill (h : Hub) (p : Nat) (f : Link → Link) : (h.modLk p f).stockFill = h.stockFill := (rfl)
@[simp] theorem Hub.modLk_dbgHeld (h : Hub) (p : Nat) (f : Link → Link) : (h.modLk p f).dbgHeld = h.dbgHeld := (rfl)
@[simp] theorem Hub.modLk_ring (h : Hub) (p : Nat) (f : Link → Link) : (h.modLk p f).ring = h.ring := (rfl)
@[simp] theorem Hub.modLk_outbox (h : Hub) (p : Nat) (f : Link → Link) : (h.modLk p f).outbox = h.outbox := (rfl)
@[simp] theorem Hub.modLk_tb (h : Hub) (p : Nat) (f : Link → Link) : (h.modLk p f).tb = h.tb := (rfl)
@[simp] theorem Hub.modLk_trig (h : Hub) (p : Nat) (f : Link → Link) : (h.modLk p f).trig = h.trig := (rfl)
@[simp] theorem Hub.modLk_trg (h : Hub) (p : Nat) (f : Link → Link) : (h.modLk p f).trg = h.trg := (rfl)
@[simp] theorem Hub.modLk_tach (h : Hub) (p : Nat) (f : Link → Link) : (h.modLk p f).tach = h.tach := (rfl)
@[simp] theorem Hub.modLk_kt (h : Hub) (p : Nat) (f : Link → Link) : (h.modLk p f).kt = h.kt := (rfl)
@[simp] theorem Hub.modLk_flt (h : Hub) (p : Nat) (f : Link → Link) : (h.modLk p f).flt = h.flt := (rfl)
@[simp] theorem Hub.modLk_job (h : Hub) (p : Nat) (f : Link → Link) : (h.modLk p f).job = h.job := (rfl)
@[simp] theorem Hub.modLk_spc (h : Hub) (p : Nat) (f : Link → Link) : (h.modLk p f).spc = h.spc := (rfl)
@[simp] theorem Hub.modLk_fea (h : Hub) (p : Nat) (f : Link → Link) : (h.modLk p f).fea = h.fea := (rfl)
@[simp] theorem Hub.modLk_lim (h : Hub) (p : Nat) (f : Link → Link) : (h.modLk p f).lim = h.lim := (rfl)
@[simp] theorem Hub.modLk_cas (h : Hub) (p : Nat) (f : Link → Link) : (h.modLk p f).cas = h.cas := (rfl)
@[simp] theorem Hub.modLk_rad (h : Hub) (p : Nat) (f : Link → Link) : (h.modLk p f).rad = h.rad := (rfl)
@[simp] theorem Hub.modLk_hlt (h : Hub) (p : Nat) (f : Link → Link) : (h.modLk p f).hlt = h.hlt := (rfl)
@[simp] theorem Hub.modLk_sup (h : Hub) (p : Nat) (f : Link → Link) : (h.modLk p f).sup = h.sup := (rfl)
@[simp] theorem Hub.modLk_tbMet (h : Hub) (p : Nat) (f : Link → Link) : (h.modLk p f).tbMet = h.tbMet := (rfl)
@[simp] theorem Hub.modLk_metFollows (h : Hub) (p : Nat) (f : Link → Link) : (h.modLk p f).metFollows = h.metFollows := (rfl)
@[simp] theorem Hub.modLk_metFifo (h : Hub) (p : Nat) (f : Link → Link) : (h.modLk p f).metFifo = h.metFifo := (rfl)
@[simp] theorem Hub.modLk_metGap (h : Hub) (p : Nat) (f : Link → Link) : (h.modLk p f).metGap = h.metGap := (rfl)
@[simp] theorem Hub.modLk_cyc (h : Hub) (p : Nat) (f : Link → Link) : (h.modLk p f).cyc = h.cyc := (rfl)
@[simp] theorem Hub.modLk_asleep (h : Hub) (p : Nat) (f : Link → Link) : (h.modLk p f).asleep = h.asleep := (rfl)
@[simp] theorem Hub.modLk_free (h : Hub) (p : Nat) (f : Link → Link) : (h.modLk p f).free = h.free := (rfl)
@[simp] theorem Hub.modLk_reg (h : Hub) (p : Nat) (f : Link → Link) (x : Nat) : (h.modLk p f).reg x = h.reg x := (rfl)
@[simp] theorem Hub.modLk_rd (h : Hub) (p : Nat) (f : Link → Link) (x : Fld) : (h.modLk p f).rd x = h.rd x := (rfl)
@[simp] theorem Hub.modLk_is (h : Hub) (p : Nat) (f : Link → Link) (x : Fld) : (h.modLk p f).is x = h.is x := (rfl)
@[simp] theorem Hub.modLk_cell (h : Hub) (p : Nat) (f : Link → Link) (x y z : Nat) : (h.modLk p f).cell x y z = h.cell x y z := (rfl)
@[simp] theorem Hub.modLk_cf (h : Hub) (p : Nat) (f : Link → Link) (x y z lo len : Nat) : (h.modLk p f).cf x y z lo len = h.cf x y z lo len := (rfl)

/-! ### `Hub.modCas` -/

@[simp] theorem Hub.modCas_regs (h : Hub) (f : Cas → Cas) : (h.modCas f).regs = h.regs := (rfl)
@[simp] theorem Hub.modCas_cells (h : Hub) (f : Cas → Cas) : (h.modCas f).cells = h.cells := (rfl)
@[simp] theorem Hub.modCas_clk (h : Hub) (f : Cas → Cas) : (h.modCas f).clk = h.clk := (rfl)
@[simp] theorem Hub.modCas_ldr (h : Hub) (f : Cas → Cas) : (h.modCas f).ldr = h.ldr := (rfl)
@[simp] theorem Hub.modCas_host (h : Hub) (f : Cas → Cas) : (h.modCas f).host = h.host := (rfl)
@[simp] theorem Hub.modCas_sp (h : Hub) (f : Cas → Cas) : (h.modCas f).sp = h.sp := (rfl)
@[simp] theorem Hub.modCas_tw (h : Hub) (f : Cas → Cas) : (h.modCas f).tw = h.tw := (rfl)
@[simp] theorem Hub.modCas_ingress (h : Hub) (f : Cas → Cas) : (h.modCas f).ingress = h.ingress := (rfl)
@[simp] theorem Hub.modCas_ctx (h : Hub) (f : Cas → Cas) : (h.modCas f).ctx = h.ctx := (rfl)
@[simp] theorem Hub.modCas_stg (h : Hub) (f : Cas → Cas) : (h.modCas f).stg = h.stg := (rfl)
@[simp] theorem Hub.modCas_tile (h : Hub) (f : Cas → Cas) : (h.modCas f).tile = h.tile := (rfl)
@[simp] theorem Hub.modCas_ev (h : Hub) (f : Cas → Cas) : (h.modCas f).ev = h.ev := (rfl)
@[simp] theorem Hub.modCas_evSeen (h : Hub) (f : Cas → Cas) : (h.modCas f).evSeen = h.evSeen := (rfl)
@[simp] theorem Hub.modCas_q (h : Hub) (f : Cas → Cas) : (h.modCas f).q = h.q := (rfl)
@[simp] theorem Hub.modCas_stock (h : Hub) (f : Cas → Cas) : (h.modCas f).stock = h.stock := (rfl)
@[simp] theorem Hub.modCas_stockFill (h : Hub) (f : Cas → Cas) : (h.modCas f).stockFill = h.stockFill := (rfl)
@[simp] theorem Hub.modCas_dbgHeld (h : Hub) (f : Cas → Cas) : (h.modCas f).dbgHeld = h.dbgHeld := (rfl)
@[simp] theorem Hub.modCas_ring (h : Hub) (f : Cas → Cas) : (h.modCas f).ring = h.ring := (rfl)
@[simp] theorem Hub.modCas_outbox (h : Hub) (f : Cas → Cas) : (h.modCas f).outbox = h.outbox := (rfl)
@[simp] theorem Hub.modCas_tb (h : Hub) (f : Cas → Cas) : (h.modCas f).tb = h.tb := (rfl)
@[simp] theorem Hub.modCas_trig (h : Hub) (f : Cas → Cas) : (h.modCas f).trig = h.trig := (rfl)
@[simp] theorem Hub.modCas_trg (h : Hub) (f : Cas → Cas) : (h.modCas f).trg = h.trg := (rfl)
@[simp] theorem Hub.modCas_tach (h : Hub) (f : Cas → Cas) : (h.modCas f).tach = h.tach := (rfl)
@[simp] theorem Hub.modCas_kt (h : Hub) (f : Cas → Cas) : (h.modCas f).kt = h.kt := (rfl)
@[simp] theorem Hub.modCas_flt (h : Hub) (f : Cas → Cas) : (h.modCas f).flt = h.flt := (rfl)
@[simp] theorem Hub.modCas_job (h : Hub) (f : Cas → Cas) : (h.modCas f).job = h.job := (rfl)
@[simp] theorem Hub.modCas_spc (h : Hub) (f : Cas → Cas) : (h.modCas f).spc = h.spc := (rfl)
@[simp] theorem Hub.modCas_fea (h : Hub) (f : Cas → Cas) : (h.modCas f).fea = h.fea := (rfl)
@[simp] theorem Hub.modCas_lim (h : Hub) (f : Cas → Cas) : (h.modCas f).lim = h.lim := (rfl)
@[simp] theorem Hub.modCas_link (h : Hub) (f : Cas → Cas) : (h.modCas f).link = h.link := (rfl)
@[simp] theorem Hub.modCas_rad (h : Hub) (f : Cas → Cas) : (h.modCas f).rad = h.rad := (rfl)
@[simp] theorem Hub.modCas_hlt (h : Hub) (f : Cas → Cas) : (h.modCas f).hlt = h.hlt := (rfl)
@[simp] theorem Hub.modCas_sup (h : Hub) (f : Cas → Cas) : (h.modCas f).sup = h.sup := (rfl)
@[simp] theorem Hub.modCas_tbMet (h : Hub) (f : Cas → Cas) : (h.modCas f).tbMet = h.tbMet := (rfl)
@[simp] theorem Hub.modCas_metFollows (h : Hub) (f : Cas → Cas) : (h.modCas f).metFollows = h.metFollows := (rfl)
@[simp] theorem Hub.modCas_metFifo (h : Hub) (f : Cas → Cas) : (h.modCas f).metFifo = h.metFifo := (rfl)
@[simp] theorem Hub.modCas_metGap (h : Hub) (f : Cas → Cas) : (h.modCas f).metGap = h.metGap := (rfl)
@[simp] theorem Hub.modCas_cyc (h : Hub) (f : Cas → Cas) : (h.modCas f).cyc = h.cyc := (rfl)
@[simp] theorem Hub.modCas_asleep (h : Hub) (f : Cas → Cas) : (h.modCas f).asleep = h.asleep := (rfl)
@[simp] theorem Hub.modCas_free (h : Hub) (f : Cas → Cas) : (h.modCas f).free = h.free := (rfl)
@[simp] theorem Hub.modCas_reg (h : Hub) (f : Cas → Cas) (x : Nat) : (h.modCas f).reg x = h.reg x := (rfl)
@[simp] theorem Hub.modCas_rd (h : Hub) (f : Cas → Cas) (x : Fld) : (h.modCas f).rd x = h.rd x := (rfl)
@[simp] theorem Hub.modCas_is (h : Hub) (f : Cas → Cas) (x : Fld) : (h.modCas f).is x = h.is x := (rfl)
@[simp] theorem Hub.modCas_cell (h : Hub) (f : Cas → Cas) (x y z : Nat) : (h.modCas f).cell x y z = h.cell x y z := (rfl)
@[simp] theorem Hub.modCas_cf (h : Hub) (f : Cas → Cas) (x y z lo len : Nat) : (h.modCas f).cf x y z lo len = h.cf x y z lo len := (rfl)

/-! ### `Hub.setBg` -/

@[simp] theorem Hub.setBg_regs (h : Hub) (b : Nat) (st : Bridge) : (h.setBg b st).regs = h.regs := (rfl)
@[simp] theorem Hub.setBg_cells (h : Hub) (b : Nat) (st : Bridge) : (h.setBg b st).cells = h.cells := (rfl)
@[simp] theorem Hub.setBg_clk (h : Hub) (b : Nat) (st : Bridge) : (h.setBg b st).clk = h.clk := (rfl)
@[simp] theorem Hub.setBg_ldr (h : Hub) (b : Nat) (st : Bridge) : (h.setBg b st).ldr = h.ldr := (rfl)
@[simp] theorem Hub.setBg_host (h : Hub) (b : Nat) (st : Bridge) : (h.setBg b st).host = h.host := (rfl)
@[simp] theorem Hub.setBg_sp (h : Hub) (b : Nat) (st : Bridge) : (h.setBg b st).sp = h.sp := (rfl)
@[simp] theorem Hub.setBg_tw (h : Hub) (b : Nat) (st : Bridge) : (h.setBg b st).tw = h.tw := (rfl)
@[simp] theorem Hub.setBg_ingress (h : Hub) (b : Nat) (st : Bridge) : (h.setBg b st).ingress = h.ingress := (rfl)
@[simp] theorem Hub.setBg_ctx (h : Hub) (b : Nat) (st : Bridge) : (h.setBg b st).ctx = h.ctx := (rfl)
@[simp] theorem Hub.setBg_stg (h : Hub) (b : Nat) (st : Bridge) : (h.setBg b st).stg = h.stg := (rfl)
@[simp] theorem Hub.setBg_tile (h : Hub) (b : Nat) (st : Bridge) : (h.setBg b st).tile = h.tile := (rfl)
@[simp] theorem Hub.setBg_ev (h : Hub) (b : Nat) (st : Bridge) : (h.setBg b st).ev = h.ev := (rfl)
@[simp] theorem Hub.setBg_evSeen (h : Hub) (b : Nat) (st : Bridge) : (h.setBg b st).evSeen = h.evSeen := (rfl)
@[simp] theorem Hub.setBg_q (h : Hub) (b : Nat) (st : Bridge) : (h.setBg b st).q = h.q := (rfl)
@[simp] theorem Hub.setBg_stock (h : Hub) (b : Nat) (st : Bridge) : (h.setBg b st).stock = h.stock := (rfl)
@[simp] theorem Hub.setBg_stockFill (h : Hub) (b : Nat) (st : Bridge) : (h.setBg b st).stockFill = h.stockFill := (rfl)
@[simp] theorem Hub.setBg_dbgHeld (h : Hub) (b : Nat) (st : Bridge) : (h.setBg b st).dbgHeld = h.dbgHeld := (rfl)
@[simp] theorem Hub.setBg_ring (h : Hub) (b : Nat) (st : Bridge) : (h.setBg b st).ring = h.ring := (rfl)
@[simp] theorem Hub.setBg_outbox (h : Hub) (b : Nat) (st : Bridge) : (h.setBg b st).outbox = h.outbox := (rfl)
@[simp] theorem Hub.setBg_tb (h : Hub) (b : Nat) (st : Bridge) : (h.setBg b st).tb = h.tb := (rfl)
@[simp] theorem Hub.setBg_trig (h : Hub) (b : Nat) (st : Bridge) : (h.setBg b st).trig = h.trig := (rfl)
@[simp] theorem Hub.setBg_trg (h : Hub) (b : Nat) (st : Bridge) : (h.setBg b st).trg = h.trg := (rfl)
@[simp] theorem Hub.setBg_tach (h : Hub) (b : Nat) (st : Bridge) : (h.setBg b st).tach = h.tach := (rfl)
@[simp] theorem Hub.setBg_kt (h : Hub) (b : Nat) (st : Bridge) : (h.setBg b st).kt = h.kt := (rfl)
@[simp] theorem Hub.setBg_flt (h : Hub) (b : Nat) (st : Bridge) : (h.setBg b st).flt = h.flt := (rfl)
@[simp] theorem Hub.setBg_job (h : Hub) (b : Nat) (st : Bridge) : (h.setBg b st).job = h.job := (rfl)
@[simp] theorem Hub.setBg_spc (h : Hub) (b : Nat) (st : Bridge) : (h.setBg b st).spc = h.spc := (rfl)
@[simp] theorem Hub.setBg_fea (h : Hub) (b : Nat) (st : Bridge) : (h.setBg b st).fea = h.fea := (rfl)
@[simp] theorem Hub.setBg_lim (h : Hub) (b : Nat) (st : Bridge) : (h.setBg b st).lim = h.lim := (rfl)
@[simp] theorem Hub.setBg_link (h : Hub) (b : Nat) (st : Bridge) : (h.setBg b st).link = h.link := (rfl)
@[simp] theorem Hub.setBg_rad (h : Hub) (b : Nat) (st : Bridge) : (h.setBg b st).rad = h.rad := (rfl)
@[simp] theorem Hub.setBg_hlt (h : Hub) (b : Nat) (st : Bridge) : (h.setBg b st).hlt = h.hlt := (rfl)
@[simp] theorem Hub.setBg_sup (h : Hub) (b : Nat) (st : Bridge) : (h.setBg b st).sup = h.sup := (rfl)
@[simp] theorem Hub.setBg_tbMet (h : Hub) (b : Nat) (st : Bridge) : (h.setBg b st).tbMet = h.tbMet := (rfl)
@[simp] theorem Hub.setBg_metFollows (h : Hub) (b : Nat) (st : Bridge) : (h.setBg b st).metFollows = h.metFollows := (rfl)
@[simp] theorem Hub.setBg_metFifo (h : Hub) (b : Nat) (st : Bridge) : (h.setBg b st).metFifo = h.metFifo := (rfl)
@[simp] theorem Hub.setBg_metGap (h : Hub) (b : Nat) (st : Bridge) : (h.setBg b st).metGap = h.metGap := (rfl)
@[simp] theorem Hub.setBg_cyc (h : Hub) (b : Nat) (st : Bridge) : (h.setBg b st).cyc = h.cyc := (rfl)
@[simp] theorem Hub.setBg_asleep (h : Hub) (b : Nat) (st : Bridge) : (h.setBg b st).asleep = h.asleep := (rfl)
@[simp] theorem Hub.setBg_free (h : Hub) (b : Nat) (st : Bridge) : (h.setBg b st).free = h.free := (rfl)
@[simp] theorem Hub.setBg_reg (h : Hub) (b : Nat) (st : Bridge) (x : Nat) : (h.setBg b st).reg x = h.reg x := (rfl)
@[simp] theorem Hub.setBg_rd (h : Hub) (b : Nat) (st : Bridge) (x : Fld) : (h.setBg b st).rd x = h.rd x := (rfl)
@[simp] theorem Hub.setBg_is (h : Hub) (b : Nat) (st : Bridge) (x : Fld) : (h.setBg b st).is x = h.is x := (rfl)
@[simp] theorem Hub.setBg_cell (h : Hub) (b : Nat) (st : Bridge) (x y z : Nat) : (h.setBg b st).cell x y z = h.cell x y z := (rfl)
@[simp] theorem Hub.setBg_cf (h : Hub) (b : Nat) (st : Bridge) (x y z lo len : Nat) : (h.setBg b st).cf x y z lo len = h.cf x y z lo len := (rfl)

/-! ### `Hub.modRad` -/

@[simp] theorem Hub.modRad_regs (h : Hub) (f : Radio → Radio) : (h.modRad f).regs = h.regs := (rfl)
@[simp] theorem Hub.modRad_cells (h : Hub) (f : Radio → Radio) : (h.modRad f).cells = h.cells := (rfl)
@[simp] theorem Hub.modRad_clk (h : Hub) (f : Radio → Radio) : (h.modRad f).clk = h.clk := (rfl)
@[simp] theorem Hub.modRad_ldr (h : Hub) (f : Radio → Radio) : (h.modRad f).ldr = h.ldr := (rfl)
@[simp] theorem Hub.modRad_host (h : Hub) (f : Radio → Radio) : (h.modRad f).host = h.host := (rfl)
@[simp] theorem Hub.modRad_sp (h : Hub) (f : Radio → Radio) : (h.modRad f).sp = h.sp := (rfl)
@[simp] theorem Hub.modRad_tw (h : Hub) (f : Radio → Radio) : (h.modRad f).tw = h.tw := (rfl)
@[simp] theorem Hub.modRad_ingress (h : Hub) (f : Radio → Radio) : (h.modRad f).ingress = h.ingress := (rfl)
@[simp] theorem Hub.modRad_ctx (h : Hub) (f : Radio → Radio) : (h.modRad f).ctx = h.ctx := (rfl)
@[simp] theorem Hub.modRad_stg (h : Hub) (f : Radio → Radio) : (h.modRad f).stg = h.stg := (rfl)
@[simp] theorem Hub.modRad_tile (h : Hub) (f : Radio → Radio) : (h.modRad f).tile = h.tile := (rfl)
@[simp] theorem Hub.modRad_ev (h : Hub) (f : Radio → Radio) : (h.modRad f).ev = h.ev := (rfl)
@[simp] theorem Hub.modRad_evSeen (h : Hub) (f : Radio → Radio) : (h.modRad f).evSeen = h.evSeen := (rfl)
@[simp] theorem Hub.modRad_q (h : Hub) (f : Radio → Radio) : (h.modRad f).q = h.q := (rfl)
@[simp] theorem Hub.modRad_stock (h : Hub) (f : Radio → Radio) : (h.modRad f).stock = h.stock := (rfl)
@[simp] theorem Hub.modRad_stockFill (h : Hub) (f : Radio → Radio) : (h.modRad f).stockFill = h.stockFill := (rfl)
@[simp] theorem Hub.modRad_dbgHeld (h : Hub) (f : Radio → Radio) : (h.modRad f).dbgHeld = h.dbgHeld := (rfl)
@[simp] theorem Hub.modRad_ring (h : Hub) (f : Radio → Radio) : (h.modRad f).ring = h.ring := (rfl)
@[simp] theorem Hub.modRad_outbox (h : Hub) (f : Radio → Radio) : (h.modRad f).outbox = h.outbox := (rfl)
@[simp] theorem Hub.modRad_tb (h : Hub) (f : Radio → Radio) : (h.modRad f).tb = h.tb := (rfl)
@[simp] theorem Hub.modRad_trig (h : Hub) (f : Radio → Radio) : (h.modRad f).trig = h.trig := (rfl)
@[simp] theorem Hub.modRad_trg (h : Hub) (f : Radio → Radio) : (h.modRad f).trg = h.trg := (rfl)
@[simp] theorem Hub.modRad_tach (h : Hub) (f : Radio → Radio) : (h.modRad f).tach = h.tach := (rfl)
@[simp] theorem Hub.modRad_kt (h : Hub) (f : Radio → Radio) : (h.modRad f).kt = h.kt := (rfl)
@[simp] theorem Hub.modRad_flt (h : Hub) (f : Radio → Radio) : (h.modRad f).flt = h.flt := (rfl)
@[simp] theorem Hub.modRad_job (h : Hub) (f : Radio → Radio) : (h.modRad f).job = h.job := (rfl)
@[simp] theorem Hub.modRad_spc (h : Hub) (f : Radio → Radio) : (h.modRad f).spc = h.spc := (rfl)
@[simp] theorem Hub.modRad_fea (h : Hub) (f : Radio → Radio) : (h.modRad f).fea = h.fea := (rfl)
@[simp] theorem Hub.modRad_lim (h : Hub) (f : Radio → Radio) : (h.modRad f).lim = h.lim := (rfl)
@[simp] theorem Hub.modRad_link (h : Hub) (f : Radio → Radio) : (h.modRad f).link = h.link := (rfl)
@[simp] theorem Hub.modRad_cas (h : Hub) (f : Radio → Radio) : (h.modRad f).cas = h.cas := (rfl)
@[simp] theorem Hub.modRad_hlt (h : Hub) (f : Radio → Radio) : (h.modRad f).hlt = h.hlt := (rfl)
@[simp] theorem Hub.modRad_sup (h : Hub) (f : Radio → Radio) : (h.modRad f).sup = h.sup := (rfl)
@[simp] theorem Hub.modRad_tbMet (h : Hub) (f : Radio → Radio) : (h.modRad f).tbMet = h.tbMet := (rfl)
@[simp] theorem Hub.modRad_metFollows (h : Hub) (f : Radio → Radio) : (h.modRad f).metFollows = h.metFollows := (rfl)
@[simp] theorem Hub.modRad_metFifo (h : Hub) (f : Radio → Radio) : (h.modRad f).metFifo = h.metFifo := (rfl)
@[simp] theorem Hub.modRad_metGap (h : Hub) (f : Radio → Radio) : (h.modRad f).metGap = h.metGap := (rfl)
@[simp] theorem Hub.modRad_cyc (h : Hub) (f : Radio → Radio) : (h.modRad f).cyc = h.cyc := (rfl)
@[simp] theorem Hub.modRad_asleep (h : Hub) (f : Radio → Radio) : (h.modRad f).asleep = h.asleep := (rfl)
@[simp] theorem Hub.modRad_free (h : Hub) (f : Radio → Radio) : (h.modRad f).free = h.free := (rfl)
@[simp] theorem Hub.modRad_reg (h : Hub) (f : Radio → Radio) (x : Nat) : (h.modRad f).reg x = h.reg x := (rfl)
@[simp] theorem Hub.modRad_rd (h : Hub) (f : Radio → Radio) (x : Fld) : (h.modRad f).rd x = h.rd x := (rfl)
@[simp] theorem Hub.modRad_is (h : Hub) (f : Radio → Radio) (x : Fld) : (h.modRad f).is x = h.is x := (rfl)
@[simp] theorem Hub.modRad_cell (h : Hub) (f : Radio → Radio) (x y z : Nat) : (h.modRad f).cell x y z = h.cell x y z := (rfl)
@[simp] theorem Hub.modRad_cf (h : Hub) (f : Radio → Radio) (x y z lo len : Nat) : (h.modRad f).cf x y z lo len = h.cf x y z lo len := (rfl)

/-! ### `Hub.modNode` -/

@[simp] theorem Hub.modNode_regs (h : Hub) (n : Nat) (f : RadNode → RadNode) : (h.modNode n f).regs = h.regs := (rfl)
@[simp] theorem Hub.modNode_cells (h : Hub) (n : Nat) (f : RadNode → RadNode) : (h.modNode n f).cells = h.cells := (rfl)
@[simp] theorem Hub.modNode_clk (h : Hub) (n : Nat) (f : RadNode → RadNode) : (h.modNode n f).clk = h.clk := (rfl)
@[simp] theorem Hub.modNode_ldr (h : Hub) (n : Nat) (f : RadNode → RadNode) : (h.modNode n f).ldr = h.ldr := (rfl)
@[simp] theorem Hub.modNode_host (h : Hub) (n : Nat) (f : RadNode → RadNode) : (h.modNode n f).host = h.host := (rfl)
@[simp] theorem Hub.modNode_sp (h : Hub) (n : Nat) (f : RadNode → RadNode) : (h.modNode n f).sp = h.sp := (rfl)
@[simp] theorem Hub.modNode_tw (h : Hub) (n : Nat) (f : RadNode → RadNode) : (h.modNode n f).tw = h.tw := (rfl)
@[simp] theorem Hub.modNode_ingress (h : Hub) (n : Nat) (f : RadNode → RadNode) : (h.modNode n f).ingress = h.ingress := (rfl)
@[simp] theorem Hub.modNode_ctx (h : Hub) (n : Nat) (f : RadNode → RadNode) : (h.modNode n f).ctx = h.ctx := (rfl)
@[simp] theorem Hub.modNode_stg (h : Hub) (n : Nat) (f : RadNode → RadNode) : (h.modNode n f).stg = h.stg := (rfl)
@[simp] theorem Hub.modNode_tile (h : Hub) (n : Nat) (f : RadNode → RadNode) : (h.modNode n f).tile = h.tile := (rfl)
@[simp] theorem Hub.modNode_ev (h : Hub) (n : Nat) (f : RadNode → RadNode) : (h.modNode n f).ev = h.ev := (rfl)
@[simp] theorem Hub.modNode_evSeen (h : Hub) (n : Nat) (f : RadNode → RadNode) : (h.modNode n f).evSeen = h.evSeen := (rfl)
@[simp] theorem Hub.modNode_q (h : Hub) (n : Nat) (f : RadNode → RadNode) : (h.modNode n f).q = h.q := (rfl)
@[simp] theorem Hub.modNode_stock (h : Hub) (n : Nat) (f : RadNode → RadNode) : (h.modNode n f).stock = h.stock := (rfl)
@[simp] theorem Hub.modNode_stockFill (h : Hub) (n : Nat) (f : RadNode → RadNode) : (h.modNode n f).stockFill = h.stockFill := (rfl)
@[simp] theorem Hub.modNode_dbgHeld (h : Hub) (n : Nat) (f : RadNode → RadNode) : (h.modNode n f).dbgHeld = h.dbgHeld := (rfl)
@[simp] theorem Hub.modNode_ring (h : Hub) (n : Nat) (f : RadNode → RadNode) : (h.modNode n f).ring = h.ring := (rfl)
@[simp] theorem Hub.modNode_outbox (h : Hub) (n : Nat) (f : RadNode → RadNode) : (h.modNode n f).outbox = h.outbox := (rfl)
@[simp] theorem Hub.modNode_tb (h : Hub) (n : Nat) (f : RadNode → RadNode) : (h.modNode n f).tb = h.tb := (rfl)
@[simp] theorem Hub.modNode_trig (h : Hub) (n : Nat) (f : RadNode → RadNode) : (h.modNode n f).trig = h.trig := (rfl)
@[simp] theorem Hub.modNode_trg (h : Hub) (n : Nat) (f : RadNode → RadNode) : (h.modNode n f).trg = h.trg := (rfl)
@[simp] theorem Hub.modNode_tach (h : Hub) (n : Nat) (f : RadNode → RadNode) : (h.modNode n f).tach = h.tach := (rfl)
@[simp] theorem Hub.modNode_kt (h : Hub) (n : Nat) (f : RadNode → RadNode) : (h.modNode n f).kt = h.kt := (rfl)
@[simp] theorem Hub.modNode_flt (h : Hub) (n : Nat) (f : RadNode → RadNode) : (h.modNode n f).flt = h.flt := (rfl)
@[simp] theorem Hub.modNode_job (h : Hub) (n : Nat) (f : RadNode → RadNode) : (h.modNode n f).job = h.job := (rfl)
@[simp] theorem Hub.modNode_spc (h : Hub) (n : Nat) (f : RadNode → RadNode) : (h.modNode n f).spc = h.spc := (rfl)
@[simp] theorem Hub.modNode_fea (h : Hub) (n : Nat) (f : RadNode → RadNode) : (h.modNode n f).fea = h.fea := (rfl)
@[simp] theorem Hub.modNode_lim (h : Hub) (n : Nat) (f : RadNode → RadNode) : (h.modNode n f).lim = h.lim := (rfl)
@[simp] theorem Hub.modNode_link (h : Hub) (n : Nat) (f : RadNode → RadNode) : (h.modNode n f).link = h.link := (rfl)
@[simp] theorem Hub.modNode_cas (h : Hub) (n : Nat) (f : RadNode → RadNode) : (h.modNode n f).cas = h.cas := (rfl)
@[simp] theorem Hub.modNode_hlt (h : Hub) (n : Nat) (f : RadNode → RadNode) : (h.modNode n f).hlt = h.hlt := (rfl)
@[simp] theorem Hub.modNode_sup (h : Hub) (n : Nat) (f : RadNode → RadNode) : (h.modNode n f).sup = h.sup := (rfl)
@[simp] theorem Hub.modNode_tbMet (h : Hub) (n : Nat) (f : RadNode → RadNode) : (h.modNode n f).tbMet = h.tbMet := (rfl)
@[simp] theorem Hub.modNode_metFollows (h : Hub) (n : Nat) (f : RadNode → RadNode) : (h.modNode n f).metFollows = h.metFollows := (rfl)
@[simp] theorem Hub.modNode_metFifo (h : Hub) (n : Nat) (f : RadNode → RadNode) : (h.modNode n f).metFifo = h.metFifo := (rfl)
@[simp] theorem Hub.modNode_metGap (h : Hub) (n : Nat) (f : RadNode → RadNode) : (h.modNode n f).metGap = h.metGap := (rfl)
@[simp] theorem Hub.modNode_cyc (h : Hub) (n : Nat) (f : RadNode → RadNode) : (h.modNode n f).cyc = h.cyc := (rfl)
@[simp] theorem Hub.modNode_asleep (h : Hub) (n : Nat) (f : RadNode → RadNode) : (h.modNode n f).asleep = h.asleep := (rfl)
@[simp] theorem Hub.modNode_free (h : Hub) (n : Nat) (f : RadNode → RadNode) : (h.modNode n f).free = h.free := (rfl)
@[simp] theorem Hub.modNode_reg (h : Hub) (n : Nat) (f : RadNode → RadNode) (x : Nat) : (h.modNode n f).reg x = h.reg x := (rfl)
@[simp] theorem Hub.modNode_rd (h : Hub) (n : Nat) (f : RadNode → RadNode) (x : Fld) : (h.modNode n f).rd x = h.rd x := (rfl)
@[simp] theorem Hub.modNode_is (h : Hub) (n : Nat) (f : RadNode → RadNode) (x : Fld) : (h.modNode n f).is x = h.is x := (rfl)
@[simp] theorem Hub.modNode_cell (h : Hub) (n : Nat) (f : RadNode → RadNode) (x y z : Nat) : (h.modNode n f).cell x y z = h.cell x y z := (rfl)
@[simp] theorem Hub.modNode_cf (h : Hub) (n : Nat) (f : RadNode → RadNode) (x y z lo len : Nat) : (h.modNode n f).cf x y z lo len = h.cf x y z lo len := (rfl)

/-! ### `Hub.modHlt` -/

@[simp] theorem Hub.modHlt_regs (h : Hub) (f : Hlt → Hlt) : (h.modHlt f).regs = h.regs := (rfl)
@[simp] theorem Hub.modHlt_cells (h : Hub) (f : Hlt → Hlt) : (h.modHlt f).cells = h.cells := (rfl)
@[simp] theorem Hub.modHlt_clk (h : Hub) (f : Hlt → Hlt) : (h.modHlt f).clk = h.clk := (rfl)
@[simp] theorem Hub.modHlt_ldr (h : Hub) (f : Hlt → Hlt) : (h.modHlt f).ldr = h.ldr := (rfl)
@[simp] theorem Hub.modHlt_host (h : Hub) (f : Hlt → Hlt) : (h.modHlt f).host = h.host := (rfl)
@[simp] theorem Hub.modHlt_sp (h : Hub) (f : Hlt → Hlt) : (h.modHlt f).sp = h.sp := (rfl)
@[simp] theorem Hub.modHlt_tw (h : Hub) (f : Hlt → Hlt) : (h.modHlt f).tw = h.tw := (rfl)
@[simp] theorem Hub.modHlt_ingress (h : Hub) (f : Hlt → Hlt) : (h.modHlt f).ingress = h.ingress := (rfl)
@[simp] theorem Hub.modHlt_ctx (h : Hub) (f : Hlt → Hlt) : (h.modHlt f).ctx = h.ctx := (rfl)
@[simp] theorem Hub.modHlt_stg (h : Hub) (f : Hlt → Hlt) : (h.modHlt f).stg = h.stg := (rfl)
@[simp] theorem Hub.modHlt_tile (h : Hub) (f : Hlt → Hlt) : (h.modHlt f).tile = h.tile := (rfl)
@[simp] theorem Hub.modHlt_ev (h : Hub) (f : Hlt → Hlt) : (h.modHlt f).ev = h.ev := (rfl)
@[simp] theorem Hub.modHlt_evSeen (h : Hub) (f : Hlt → Hlt) : (h.modHlt f).evSeen = h.evSeen := (rfl)
@[simp] theorem Hub.modHlt_q (h : Hub) (f : Hlt → Hlt) : (h.modHlt f).q = h.q := (rfl)
@[simp] theorem Hub.modHlt_stock (h : Hub) (f : Hlt → Hlt) : (h.modHlt f).stock = h.stock := (rfl)
@[simp] theorem Hub.modHlt_stockFill (h : Hub) (f : Hlt → Hlt) : (h.modHlt f).stockFill = h.stockFill := (rfl)
@[simp] theorem Hub.modHlt_dbgHeld (h : Hub) (f : Hlt → Hlt) : (h.modHlt f).dbgHeld = h.dbgHeld := (rfl)
@[simp] theorem Hub.modHlt_ring (h : Hub) (f : Hlt → Hlt) : (h.modHlt f).ring = h.ring := (rfl)
@[simp] theorem Hub.modHlt_outbox (h : Hub) (f : Hlt → Hlt) : (h.modHlt f).outbox = h.outbox := (rfl)
@[simp] theorem Hub.modHlt_tb (h : Hub) (f : Hlt → Hlt) : (h.modHlt f).tb = h.tb := (rfl)
@[simp] theorem Hub.modHlt_trig (h : Hub) (f : Hlt → Hlt) : (h.modHlt f).trig = h.trig := (rfl)
@[simp] theorem Hub.modHlt_trg (h : Hub) (f : Hlt → Hlt) : (h.modHlt f).trg = h.trg := (rfl)
@[simp] theorem Hub.modHlt_tach (h : Hub) (f : Hlt → Hlt) : (h.modHlt f).tach = h.tach := (rfl)
@[simp] theorem Hub.modHlt_kt (h : Hub) (f : Hlt → Hlt) : (h.modHlt f).kt = h.kt := (rfl)
@[simp] theorem Hub.modHlt_flt (h : Hub) (f : Hlt → Hlt) : (h.modHlt f).flt = h.flt := (rfl)
@[simp] theorem Hub.modHlt_job (h : Hub) (f : Hlt → Hlt) : (h.modHlt f).job = h.job := (rfl)
@[simp] theorem Hub.modHlt_spc (h : Hub) (f : Hlt → Hlt) : (h.modHlt f).spc = h.spc := (rfl)
@[simp] theorem Hub.modHlt_fea (h : Hub) (f : Hlt → Hlt) : (h.modHlt f).fea = h.fea := (rfl)
@[simp] theorem Hub.modHlt_lim (h : Hub) (f : Hlt → Hlt) : (h.modHlt f).lim = h.lim := (rfl)
@[simp] theorem Hub.modHlt_link (h : Hub) (f : Hlt → Hlt) : (h.modHlt f).link = h.link := (rfl)
@[simp] theorem Hub.modHlt_cas (h : Hub) (f : Hlt → Hlt) : (h.modHlt f).cas = h.cas := (rfl)
@[simp] theorem Hub.modHlt_rad (h : Hub) (f : Hlt → Hlt) : (h.modHlt f).rad = h.rad := (rfl)
@[simp] theorem Hub.modHlt_sup (h : Hub) (f : Hlt → Hlt) : (h.modHlt f).sup = h.sup := (rfl)
@[simp] theorem Hub.modHlt_tbMet (h : Hub) (f : Hlt → Hlt) : (h.modHlt f).tbMet = h.tbMet := (rfl)
@[simp] theorem Hub.modHlt_metFollows (h : Hub) (f : Hlt → Hlt) : (h.modHlt f).metFollows = h.metFollows := (rfl)
@[simp] theorem Hub.modHlt_metFifo (h : Hub) (f : Hlt → Hlt) : (h.modHlt f).metFifo = h.metFifo := (rfl)
@[simp] theorem Hub.modHlt_metGap (h : Hub) (f : Hlt → Hlt) : (h.modHlt f).metGap = h.metGap := (rfl)
@[simp] theorem Hub.modHlt_cyc (h : Hub) (f : Hlt → Hlt) : (h.modHlt f).cyc = h.cyc := (rfl)
@[simp] theorem Hub.modHlt_asleep (h : Hub) (f : Hlt → Hlt) : (h.modHlt f).asleep = h.asleep := (rfl)
@[simp] theorem Hub.modHlt_free (h : Hub) (f : Hlt → Hlt) : (h.modHlt f).free = h.free := (rfl)
@[simp] theorem Hub.modHlt_reg (h : Hub) (f : Hlt → Hlt) (x : Nat) : (h.modHlt f).reg x = h.reg x := (rfl)
@[simp] theorem Hub.modHlt_rd (h : Hub) (f : Hlt → Hlt) (x : Fld) : (h.modHlt f).rd x = h.rd x := (rfl)
@[simp] theorem Hub.modHlt_is (h : Hub) (f : Hlt → Hlt) (x : Fld) : (h.modHlt f).is x = h.is x := (rfl)
@[simp] theorem Hub.modHlt_cell (h : Hub) (f : Hlt → Hlt) (x y z : Nat) : (h.modHlt f).cell x y z = h.cell x y z := (rfl)
@[simp] theorem Hub.modHlt_cf (h : Hub) (f : Hlt → Hlt) (x y z lo len : Nat) : (h.modHlt f).cf x y z lo len = h.cf x y z lo len := (rfl)

/-! ### `Hub.setTest` -/

@[simp] theorem Hub.setTest_regs (h : Hub) (g : Nat) (st : StTest) : (h.setTest g st).regs = h.regs := (rfl)
@[simp] theorem Hub.setTest_cells (h : Hub) (g : Nat) (st : StTest) : (h.setTest g st).cells = h.cells := (rfl)
@[simp] theorem Hub.setTest_clk (h : Hub) (g : Nat) (st : StTest) : (h.setTest g st).clk = h.clk := (rfl)
@[simp] theorem Hub.setTest_ldr (h : Hub) (g : Nat) (st : StTest) : (h.setTest g st).ldr = h.ldr := (rfl)
@[simp] theorem Hub.setTest_host (h : Hub) (g : Nat) (st : StTest) : (h.setTest g st).host = h.host := (rfl)
@[simp] theorem Hub.setTest_sp (h : Hub) (g : Nat) (st : StTest) : (h.setTest g st).sp = h.sp := (rfl)
@[simp] theorem Hub.setTest_tw (h : Hub) (g : Nat) (st : StTest) : (h.setTest g st).tw = h.tw := (rfl)
@[simp] theorem Hub.setTest_ingress (h : Hub) (g : Nat) (st : StTest) : (h.setTest g st).ingress = h.ingress := (rfl)
@[simp] theorem Hub.setTest_ctx (h : Hub) (g : Nat) (st : StTest) : (h.setTest g st).ctx = h.ctx := (rfl)
@[simp] theorem Hub.setTest_stg (h : Hub) (g : Nat) (st : StTest) : (h.setTest g st).stg = h.stg := (rfl)
@[simp] theorem Hub.setTest_tile (h : Hub) (g : Nat) (st : StTest) : (h.setTest g st).tile = h.tile := (rfl)
@[simp] theorem Hub.setTest_ev (h : Hub) (g : Nat) (st : StTest) : (h.setTest g st).ev = h.ev := (rfl)
@[simp] theorem Hub.setTest_evSeen (h : Hub) (g : Nat) (st : StTest) : (h.setTest g st).evSeen = h.evSeen := (rfl)
@[simp] theorem Hub.setTest_q (h : Hub) (g : Nat) (st : StTest) : (h.setTest g st).q = h.q := (rfl)
@[simp] theorem Hub.setTest_stock (h : Hub) (g : Nat) (st : StTest) : (h.setTest g st).stock = h.stock := (rfl)
@[simp] theorem Hub.setTest_stockFill (h : Hub) (g : Nat) (st : StTest) : (h.setTest g st).stockFill = h.stockFill := (rfl)
@[simp] theorem Hub.setTest_dbgHeld (h : Hub) (g : Nat) (st : StTest) : (h.setTest g st).dbgHeld = h.dbgHeld := (rfl)
@[simp] theorem Hub.setTest_ring (h : Hub) (g : Nat) (st : StTest) : (h.setTest g st).ring = h.ring := (rfl)
@[simp] theorem Hub.setTest_outbox (h : Hub) (g : Nat) (st : StTest) : (h.setTest g st).outbox = h.outbox := (rfl)
@[simp] theorem Hub.setTest_tb (h : Hub) (g : Nat) (st : StTest) : (h.setTest g st).tb = h.tb := (rfl)
@[simp] theorem Hub.setTest_trig (h : Hub) (g : Nat) (st : StTest) : (h.setTest g st).trig = h.trig := (rfl)
@[simp] theorem Hub.setTest_trg (h : Hub) (g : Nat) (st : StTest) : (h.setTest g st).trg = h.trg := (rfl)
@[simp] theorem Hub.setTest_tach (h : Hub) (g : Nat) (st : StTest) : (h.setTest g st).tach = h.tach := (rfl)
@[simp] theorem Hub.setTest_kt (h : Hub) (g : Nat) (st : StTest) : (h.setTest g st).kt = h.kt := (rfl)
@[simp] theorem Hub.setTest_flt (h : Hub) (g : Nat) (st : StTest) : (h.setTest g st).flt = h.flt := (rfl)
@[simp] theorem Hub.setTest_job (h : Hub) (g : Nat) (st : StTest) : (h.setTest g st).job = h.job := (rfl)
@[simp] theorem Hub.setTest_spc (h : Hub) (g : Nat) (st : StTest) : (h.setTest g st).spc = h.spc := (rfl)
@[simp] theorem Hub.setTest_fea (h : Hub) (g : Nat) (st : StTest) : (h.setTest g st).fea = h.fea := (rfl)
@[simp] theorem Hub.setTest_lim (h : Hub) (g : Nat) (st : StTest) : (h.setTest g st).lim = h.lim := (rfl)
@[simp] theorem Hub.setTest_link (h : Hub) (g : Nat) (st : StTest) : (h.setTest g st).link = h.link := (rfl)
@[simp] theorem Hub.setTest_cas (h : Hub) (g : Nat) (st : StTest) : (h.setTest g st).cas = h.cas := (rfl)
@[simp] theorem Hub.setTest_rad (h : Hub) (g : Nat) (st : StTest) : (h.setTest g st).rad = h.rad := (rfl)
@[simp] theorem Hub.setTest_sup (h : Hub) (g : Nat) (st : StTest) : (h.setTest g st).sup = h.sup := (rfl)
@[simp] theorem Hub.setTest_tbMet (h : Hub) (g : Nat) (st : StTest) : (h.setTest g st).tbMet = h.tbMet := (rfl)
@[simp] theorem Hub.setTest_metFollows (h : Hub) (g : Nat) (st : StTest) : (h.setTest g st).metFollows = h.metFollows := (rfl)
@[simp] theorem Hub.setTest_metFifo (h : Hub) (g : Nat) (st : StTest) : (h.setTest g st).metFifo = h.metFifo := (rfl)
@[simp] theorem Hub.setTest_metGap (h : Hub) (g : Nat) (st : StTest) : (h.setTest g st).metGap = h.metGap := (rfl)
@[simp] theorem Hub.setTest_cyc (h : Hub) (g : Nat) (st : StTest) : (h.setTest g st).cyc = h.cyc := (rfl)
@[simp] theorem Hub.setTest_asleep (h : Hub) (g : Nat) (st : StTest) : (h.setTest g st).asleep = h.asleep := (rfl)
@[simp] theorem Hub.setTest_free (h : Hub) (g : Nat) (st : StTest) : (h.setTest g st).free = h.free := (rfl)
@[simp] theorem Hub.setTest_reg (h : Hub) (g : Nat) (st : StTest) (x : Nat) : (h.setTest g st).reg x = h.reg x := (rfl)
@[simp] theorem Hub.setTest_rd (h : Hub) (g : Nat) (st : StTest) (x : Fld) : (h.setTest g st).rd x = h.rd x := (rfl)
@[simp] theorem Hub.setTest_is (h : Hub) (g : Nat) (st : StTest) (x : Fld) : (h.setTest g st).is x = h.is x := (rfl)
@[simp] theorem Hub.setTest_cell (h : Hub) (g : Nat) (st : StTest) (x y z : Nat) : (h.setTest g st).cell x y z = h.cell x y z := (rfl)
@[simp] theorem Hub.setTest_cf (h : Hub) (g : Nat) (st : StTest) (x y z lo len : Nat) : (h.setTest g st).cf x y z lo len = h.cf x y z lo len := (rfl)

/-! ### `Hub.setDip` -/

@[simp] theorem Hub.setDip_regs (h : Hub) (r : Nat) (d : Dip) : (h.setDip r d).regs = h.regs := (rfl)
@[simp] theorem Hub.setDip_cells (h : Hub) (r : Nat) (d : Dip) : (h.setDip r d).cells = h.cells := (rfl)
@[simp] theorem Hub.setDip_clk (h : Hub) (r : Nat) (d : Dip) : (h.setDip r d).clk = h.clk := (rfl)
@[simp] theorem Hub.setDip_ldr (h : Hub) (r : Nat) (d : Dip) : (h.setDip r d).ldr = h.ldr := (rfl)
@[simp] theorem Hub.setDip_host (h : Hub) (r : Nat) (d : Dip) : (h.setDip r d).host = h.host := (rfl)
@[simp] theorem Hub.setDip_sp (h : Hub) (r : Nat) (d : Dip) : (h.setDip r d).sp = h.sp := (rfl)
@[simp] theorem Hub.setDip_tw (h : Hub) (r : Nat) (d : Dip) : (h.setDip r d).tw = h.tw := (rfl)
@[simp] theorem Hub.setDip_ingress (h : Hub) (r : Nat) (d : Dip) : (h.setDip r d).ingress = h.ingress := (rfl)
@[simp] theorem Hub.setDip_ctx (h : Hub) (r : Nat) (d : Dip) : (h.setDip r d).ctx = h.ctx := (rfl)
@[simp] theorem Hub.setDip_stg (h : Hub) (r : Nat) (d : Dip) : (h.setDip r d).stg = h.stg := (rfl)
@[simp] theorem Hub.setDip_tile (h : Hub) (r : Nat) (d : Dip) : (h.setDip r d).tile = h.tile := (rfl)
@[simp] theorem Hub.setDip_ev (h : Hub) (r : Nat) (d : Dip) : (h.setDip r d).ev = h.ev := (rfl)
@[simp] theorem Hub.setDip_evSeen (h : Hub) (r : Nat) (d : Dip) : (h.setDip r d).evSeen = h.evSeen := (rfl)
@[simp] theorem Hub.setDip_q (h : Hub) (r : Nat) (d : Dip) : (h.setDip r d).q = h.q := (rfl)
@[simp] theorem Hub.setDip_stock (h : Hub) (r : Nat) (d : Dip) : (h.setDip r d).stock = h.stock := (rfl)
@[simp] theorem Hub.setDip_stockFill (h : Hub) (r : Nat) (d : Dip) : (h.setDip r d).stockFill = h.stockFill := (rfl)
@[simp] theorem Hub.setDip_dbgHeld (h : Hub) (r : Nat) (d : Dip) : (h.setDip r d).dbgHeld = h.dbgHeld := (rfl)
@[simp] theorem Hub.setDip_ring (h : Hub) (r : Nat) (d : Dip) : (h.setDip r d).ring = h.ring := (rfl)
@[simp] theorem Hub.setDip_outbox (h : Hub) (r : Nat) (d : Dip) : (h.setDip r d).outbox = h.outbox := (rfl)
@[simp] theorem Hub.setDip_tb (h : Hub) (r : Nat) (d : Dip) : (h.setDip r d).tb = h.tb := (rfl)
@[simp] theorem Hub.setDip_trig (h : Hub) (r : Nat) (d : Dip) : (h.setDip r d).trig = h.trig := (rfl)
@[simp] theorem Hub.setDip_trg (h : Hub) (r : Nat) (d : Dip) : (h.setDip r d).trg = h.trg := (rfl)
@[simp] theorem Hub.setDip_tach (h : Hub) (r : Nat) (d : Dip) : (h.setDip r d).tach = h.tach := (rfl)
@[simp] theorem Hub.setDip_kt (h : Hub) (r : Nat) (d : Dip) : (h.setDip r d).kt = h.kt := (rfl)
@[simp] theorem Hub.setDip_flt (h : Hub) (r : Nat) (d : Dip) : (h.setDip r d).flt = h.flt := (rfl)
@[simp] theorem Hub.setDip_job (h : Hub) (r : Nat) (d : Dip) : (h.setDip r d).job = h.job := (rfl)
@[simp] theorem Hub.setDip_spc (h : Hub) (r : Nat) (d : Dip) : (h.setDip r d).spc = h.spc := (rfl)
@[simp] theorem Hub.setDip_fea (h : Hub) (r : Nat) (d : Dip) : (h.setDip r d).fea = h.fea := (rfl)
@[simp] theorem Hub.setDip_lim (h : Hub) (r : Nat) (d : Dip) : (h.setDip r d).lim = h.lim := (rfl)
@[simp] theorem Hub.setDip_link (h : Hub) (r : Nat) (d : Dip) : (h.setDip r d).link = h.link := (rfl)
@[simp] theorem Hub.setDip_cas (h : Hub) (r : Nat) (d : Dip) : (h.setDip r d).cas = h.cas := (rfl)
@[simp] theorem Hub.setDip_rad (h : Hub) (r : Nat) (d : Dip) : (h.setDip r d).rad = h.rad := (rfl)
@[simp] theorem Hub.setDip_hlt (h : Hub) (r : Nat) (d : Dip) : (h.setDip r d).hlt = h.hlt := (rfl)
@[simp] theorem Hub.setDip_tbMet (h : Hub) (r : Nat) (d : Dip) : (h.setDip r d).tbMet = h.tbMet := (rfl)
@[simp] theorem Hub.setDip_metFollows (h : Hub) (r : Nat) (d : Dip) : (h.setDip r d).metFollows = h.metFollows := (rfl)
@[simp] theorem Hub.setDip_metFifo (h : Hub) (r : Nat) (d : Dip) : (h.setDip r d).metFifo = h.metFifo := (rfl)
@[simp] theorem Hub.setDip_metGap (h : Hub) (r : Nat) (d : Dip) : (h.setDip r d).metGap = h.metGap := (rfl)
@[simp] theorem Hub.setDip_cyc (h : Hub) (r : Nat) (d : Dip) : (h.setDip r d).cyc = h.cyc := (rfl)
@[simp] theorem Hub.setDip_asleep (h : Hub) (r : Nat) (d : Dip) : (h.setDip r d).asleep = h.asleep := (rfl)
@[simp] theorem Hub.setDip_free (h : Hub) (r : Nat) (d : Dip) : (h.setDip r d).free = h.free := (rfl)
@[simp] theorem Hub.setDip_reg (h : Hub) (r : Nat) (d : Dip) (x : Nat) : (h.setDip r d).reg x = h.reg x := (rfl)
@[simp] theorem Hub.setDip_rd (h : Hub) (r : Nat) (d : Dip) (x : Fld) : (h.setDip r d).rd x = h.rd x := (rfl)
@[simp] theorem Hub.setDip_is (h : Hub) (r : Nat) (d : Dip) (x : Fld) : (h.setDip r d).is x = h.is x := (rfl)
@[simp] theorem Hub.setDip_cell (h : Hub) (r : Nat) (d : Dip) (x y z : Nat) : (h.setDip r d).cell x y z = h.cell x y z := (rfl)
@[simp] theorem Hub.setDip_cf (h : Hub) (r : Nat) (d : Dip) (x y z lo len : Nat) : (h.setDip r d).cf x y z lo len = h.cf x y z lo len := (rfl)

/-! ### `Hub.setPort` -/

@[simp] theorem Hub.setPort_regs (h : Hub) (p : Nat) (st : Port) : (h.setPort p st).regs = h.regs := (rfl)
@[simp] theorem Hub.setPort_cells (h : Hub) (p : Nat) (st : Port) : (h.setPort p st).cells = h.cells := (rfl)
@[simp] theorem Hub.setPort_clk (h : Hub) (p : Nat) (st : Port) : (h.setPort p st).clk = h.clk := (rfl)
@[simp] theorem Hub.setPort_ldr (h : Hub) (p : Nat) (st : Port) : (h.setPort p st).ldr = h.ldr := (rfl)
@[simp] theorem Hub.setPort_host (h : Hub) (p : Nat) (st : Port) : (h.setPort p st).host = h.host := (rfl)
@[simp] theorem Hub.setPort_tw (h : Hub) (p : Nat) (st : Port) : (h.setPort p st).tw = h.tw := (rfl)
@[simp] theorem Hub.setPort_ingress (h : Hub) (p : Nat) (st : Port) : (h.setPort p st).ingress = h.ingress := (rfl)
@[simp] theorem Hub.setPort_ctx (h : Hub) (p : Nat) (st : Port) : (h.setPort p st).ctx = h.ctx := (rfl)
@[simp] theorem Hub.setPort_stg (h : Hub) (p : Nat) (st : Port) : (h.setPort p st).stg = h.stg := (rfl)
@[simp] theorem Hub.setPort_tile (h : Hub) (p : Nat) (st : Port) : (h.setPort p st).tile = h.tile := (rfl)
@[simp] theorem Hub.setPort_ev (h : Hub) (p : Nat) (st : Port) : (h.setPort p st).ev = h.ev := (rfl)
@[simp] theorem Hub.setPort_evSeen (h : Hub) (p : Nat) (st : Port) : (h.setPort p st).evSeen = h.evSeen := (rfl)
@[simp] theorem Hub.setPort_q (h : Hub) (p : Nat) (st : Port) : (h.setPort p st).q = h.q := (rfl)
@[simp] theorem Hub.setPort_stock (h : Hub) (p : Nat) (st : Port) : (h.setPort p st).stock = h.stock := (rfl)
@[simp] theorem Hub.setPort_stockFill (h : Hub) (p : Nat) (st : Port) : (h.setPort p st).stockFill = h.stockFill := (rfl)
@[simp] theorem Hub.setPort_dbgHeld (h : Hub) (p : Nat) (st : Port) : (h.setPort p st).dbgHeld = h.dbgHeld := (rfl)
@[simp] theorem Hub.setPort_ring (h : Hub) (p : Nat) (st : Port) : (h.setPort p st).ring = h.ring := (rfl)
@[simp] theorem Hub.setPort_outbox (h : Hub) (p : Nat) (st : Port) : (h.setPort p st).outbox = h.outbox := (rfl)
@[simp] theorem Hub.setPort_tb (h : Hub) (p : Nat) (st : Port) : (h.setPort p st).tb = h.tb := (rfl)
@[simp] theorem Hub.setPort_trig (h : Hub) (p : Nat) (st : Port) : (h.setPort p st).trig = h.trig := (rfl)
@[simp] theorem Hub.setPort_trg (h : Hub) (p : Nat) (st : Port) : (h.setPort p st).trg = h.trg := (rfl)
@[simp] theorem Hub.setPort_tach (h : Hub) (p : Nat) (st : Port) : (h.setPort p st).tach = h.tach := (rfl)
@[simp] theorem Hub.setPort_kt (h : Hub) (p : Nat) (st : Port) : (h.setPort p st).kt = h.kt := (rfl)
@[simp] theorem Hub.setPort_flt (h : Hub) (p : Nat) (st : Port) : (h.setPort p st).flt = h.flt := (rfl)
@[simp] theorem Hub.setPort_job (h : Hub) (p : Nat) (st : Port) : (h.setPort p st).job = h.job := (rfl)
@[simp] theorem Hub.setPort_spc (h : Hub) (p : Nat) (st : Port) : (h.setPort p st).spc = h.spc := (rfl)
@[simp] theorem Hub.setPort_fea (h : Hub) (p : Nat) (st : Port) : (h.setPort p st).fea = h.fea := (rfl)
@[simp] theorem Hub.setPort_lim (h : Hub) (p : Nat) (st : Port) : (h.setPort p st).lim = h.lim := (rfl)
@[simp] theorem Hub.setPort_link (h : Hub) (p : Nat) (st : Port) : (h.setPort p st).link = h.link := (rfl)
@[simp] theorem Hub.setPort_cas (h : Hub) (p : Nat) (st : Port) : (h.setPort p st).cas = h.cas := (rfl)
@[simp] theorem Hub.setPort_rad (h : Hub) (p : Nat) (st : Port) : (h.setPort p st).rad = h.rad := (rfl)
@[simp] theorem Hub.setPort_hlt (h : Hub) (p : Nat) (st : Port) : (h.setPort p st).hlt = h.hlt := (rfl)
@[simp] theorem Hub.setPort_sup (h : Hub) (p : Nat) (st : Port) : (h.setPort p st).sup = h.sup := (rfl)
@[simp] theorem Hub.setPort_tbMet (h : Hub) (p : Nat) (st : Port) : (h.setPort p st).tbMet = h.tbMet := (rfl)
@[simp] theorem Hub.setPort_metFollows (h : Hub) (p : Nat) (st : Port) : (h.setPort p st).metFollows = h.metFollows := (rfl)
@[simp] theorem Hub.setPort_metFifo (h : Hub) (p : Nat) (st : Port) : (h.setPort p st).metFifo = h.metFifo := (rfl)
@[simp] theorem Hub.setPort_metGap (h : Hub) (p : Nat) (st : Port) : (h.setPort p st).metGap = h.metGap := (rfl)
@[simp] theorem Hub.setPort_cyc (h : Hub) (p : Nat) (st : Port) : (h.setPort p st).cyc = h.cyc := (rfl)
@[simp] theorem Hub.setPort_asleep (h : Hub) (p : Nat) (st : Port) : (h.setPort p st).asleep = h.asleep := (rfl)
@[simp] theorem Hub.setPort_free (h : Hub) (p : Nat) (st : Port) : (h.setPort p st).free = h.free := (rfl)
@[simp] theorem Hub.setPort_reg (h : Hub) (p : Nat) (st : Port) (x : Nat) : (h.setPort p st).reg x = h.reg x := (rfl)
@[simp] theorem Hub.setPort_rd (h : Hub) (p : Nat) (st : Port) (x : Fld) : (h.setPort p st).rd x = h.rd x := (rfl)
@[simp] theorem Hub.setPort_is (h : Hub) (p : Nat) (st : Port) (x : Fld) : (h.setPort p st).is x = h.is x := (rfl)
@[simp] theorem Hub.setPort_cell (h : Hub) (p : Nat) (st : Port) (x y z : Nat) : (h.setPort p st).cell x y z = h.cell x y z := (rfl)
@[simp] theorem Hub.setPort_cf (h : Hub) (p : Nat) (st : Port) (x y z lo len : Nat) : (h.setPort p st).cf x y z lo len = h.cf x y z lo len := (rfl)

/-! ### `Hub.modPort` -/

@[simp] theorem Hub.modPort_regs (h : Hub) (p : Nat) (f : Port → Port) : (h.modPort p f).regs = h.regs := (rfl)
@[simp] theorem Hub.modPort_cells (h : Hub) (p : Nat) (f : Port → Port) : (h.modPort p f).cells = h.cells := (rfl)
@[simp] theorem Hub.modPort_clk (h : Hub) (p : Nat) (f : Port → Port) : (h.modPort p f).clk = h.clk := (rfl)
@[simp] theorem Hub.modPort_ldr (h : Hub) (p : Nat) (f : Port → Port) : (h.modPort p f).ldr = h.ldr := (rfl)
@[simp] theorem Hub.modPort_host (h : Hub) (p : Nat) (f : Port → Port) : (h.modPort p f).host = h.host := (rfl)
@[simp] theorem Hub.modPort_tw (h : Hub) (p : Nat) (f : Port → Port) : (h.modPort p f).tw = h.tw := (rfl)
@[simp] theorem Hub.modPort_ingress (h : Hub) (p : Nat) (f : Port → Port) : (h.modPort p f).ingress = h.ingress := (rfl)
@[simp] theorem Hub.modPort_ctx (h : Hub) (p : Nat) (f : Port → Port) : (h.modPort p f).ctx = h.ctx := (rfl)
@[simp] theorem Hub.modPort_stg (h : Hub) (p : Nat) (f : Port → Port) : (h.modPort p f).stg = h.stg := (rfl)
@[simp] theorem Hub.modPort_tile (h : Hub) (p : Nat) (f : Port → Port) : (h.modPort p f).tile = h.tile := (rfl)
@[simp] theorem Hub.modPort_ev (h : Hub) (p : Nat) (f : Port → Port) : (h.modPort p f).ev = h.ev := (rfl)
@[simp] theorem Hub.modPort_evSeen (h : Hub) (p : Nat) (f : Port → Port) : (h.modPort p f).evSeen = h.evSeen := (rfl)
@[simp] theorem Hub.modPort_q (h : Hub) (p : Nat) (f : Port → Port) : (h.modPort p f).q = h.q := (rfl)
@[simp] theorem Hub.modPort_stock (h : Hub) (p : Nat) (f : Port → Port) : (h.modPort p f).stock = h.stock := (rfl)
@[simp] theorem Hub.modPort_stockFill (h : Hub) (p : Nat) (f : Port → Port) : (h.modPort p f).stockFill = h.stockFill := (rfl)
@[simp] theorem Hub.modPort_dbgHeld (h : Hub) (p : Nat) (f : Port → Port) : (h.modPort p f).dbgHeld = h.dbgHeld := (rfl)
@[simp] theorem Hub.modPort_ring (h : Hub) (p : Nat) (f : Port → Port) : (h.modPort p f).ring = h.ring := (rfl)
@[simp] theorem Hub.modPort_outbox (h : Hub) (p : Nat) (f : Port → Port) : (h.modPort p f).outbox = h.outbox := (rfl)
@[simp] theorem Hub.modPort_tb (h : Hub) (p : Nat) (f : Port → Port) : (h.modPort p f).tb = h.tb := (rfl)
@[simp] theorem Hub.modPort_trig (h : Hub) (p : Nat) (f : Port → Port) : (h.modPort p f).trig = h.trig := (rfl)
@[simp] theorem Hub.modPort_trg (h : Hub) (p : Nat) (f : Port → Port) : (h.modPort p f).trg = h.trg := (rfl)
@[simp] theorem Hub.modPort_tach (h : Hub) (p : Nat) (f : Port → Port) : (h.modPort p f).tach = h.tach := (rfl)
@[simp] theorem Hub.modPort_kt (h : Hub) (p : Nat) (f : Port → Port) : (h.modPort p f).kt = h.kt := (rfl)
@[simp] theorem Hub.modPort_flt (h : Hub) (p : Nat) (f : Port → Port) : (h.modPort p f).flt = h.flt := (rfl)
@[simp] theorem Hub.modPort_job (h : Hub) (p : Nat) (f : Port → Port) : (h.modPort p f).job = h.job := (rfl)
@[simp] theorem Hub.modPort_spc (h : Hub) (p : Nat) (f : Port → Port) : (h.modPort p f).spc = h.spc := (rfl)
@[simp] theorem Hub.modPort_fea (h : Hub) (p : Nat) (f : Port → Port) : (h.modPort p f).fea = h.fea := (rfl)
@[simp] theorem Hub.modPort_lim (h : Hub) (p : Nat) (f : Port → Port) : (h.modPort p f).lim = h.lim := (rfl)
@[simp] theorem Hub.modPort_link (h : Hub) (p : Nat) (f : Port → Port) : (h.modPort p f).link = h.link := (rfl)
@[simp] theorem Hub.modPort_cas (h : Hub) (p : Nat) (f : Port → Port) : (h.modPort p f).cas = h.cas := (rfl)
@[simp] theorem Hub.modPort_rad (h : Hub) (p : Nat) (f : Port → Port) : (h.modPort p f).rad = h.rad := (rfl)
@[simp] theorem Hub.modPort_hlt (h : Hub) (p : Nat) (f : Port → Port) : (h.modPort p f).hlt = h.hlt := (rfl)
@[simp] theorem Hub.modPort_sup (h : Hub) (p : Nat) (f : Port → Port) : (h.modPort p f).sup = h.sup := (rfl)
@[simp] theorem Hub.modPort_tbMet (h : Hub) (p : Nat) (f : Port → Port) : (h.modPort p f).tbMet = h.tbMet := (rfl)
@[simp] theorem Hub.modPort_metFollows (h : Hub) (p : Nat) (f : Port → Port) : (h.modPort p f).metFollows = h.metFollows := (rfl)
@[simp] theorem Hub.modPort_metFifo (h : Hub) (p : Nat) (f : Port → Port) : (h.modPort p f).metFifo = h.metFifo := (rfl)
@[simp] theorem Hub.modPort_metGap (h : Hub) (p : Nat) (f : Port → Port) : (h.modPort p f).metGap = h.metGap := (rfl)
@[simp] theorem Hub.modPort_cyc (h : Hub) (p : Nat) (f : Port → Port) : (h.modPort p f).cyc = h.cyc := (rfl)
@[simp] theorem Hub.modPort_asleep (h : Hub) (p : Nat) (f : Port → Port) : (h.modPort p f).asleep = h.asleep := (rfl)
@[simp] theorem Hub.modPort_free (h : Hub) (p : Nat) (f : Port → Port) : (h.modPort p f).free = h.free := (rfl)
@[simp] theorem Hub.modPort_reg (h : Hub) (p : Nat) (f : Port → Port) (x : Nat) : (h.modPort p f).reg x = h.reg x := (rfl)
@[simp] theorem Hub.modPort_rd (h : Hub) (p : Nat) (f : Port → Port) (x : Fld) : (h.modPort p f).rd x = h.rd x := (rfl)
@[simp] theorem Hub.modPort_is (h : Hub) (p : Nat) (f : Port → Port) (x : Fld) : (h.modPort p f).is x = h.is x := (rfl)
@[simp] theorem Hub.modPort_cell (h : Hub) (p : Nat) (f : Port → Port) (x y z : Nat) : (h.modPort p f).cell x y z = h.cell x y z := (rfl)
@[simp] theorem Hub.modPort_cf (h : Hub) (p : Nat) (f : Port → Port) (x y z lo len : Nat) : (h.modPort p f).cf x y z lo len = h.cf x y z lo len := (rfl)

/-! ### `Hub.setTw` -/

@[simp] theorem Hub.setTw_regs (h : Hub) (c : Nat) (st : TwoWire) : (h.setTw c st).regs = h.regs := (rfl)
@[simp] theorem Hub.setTw_cells (h : Hub) (c : Nat) (st : TwoWire) : (h.setTw c st).cells = h.cells := (rfl)
@[simp] theorem Hub.setTw_clk (h : Hub) (c : Nat) (st : TwoWire) : (h.setTw c st).clk = h.clk := (rfl)
@[simp] theorem Hub.setTw_ldr (h : Hub) (c : Nat) (st : TwoWire) : (h.setTw c st).ldr = h.ldr := (rfl)
@[simp] theorem Hub.setTw_host (h : Hub) (c : Nat) (st : TwoWire) : (h.setTw c st).host = h.host := (rfl)
@[simp] theorem Hub.setTw_sp (h : Hub) (c : Nat) (st : TwoWire) : (h.setTw c st).sp = h.sp := (rfl)
@[simp] theorem Hub.setTw_ingress (h : Hub) (c : Nat) (st : TwoWire) : (h.setTw c st).ingress = h.ingress := (rfl)
@[simp] theorem Hub.setTw_ctx (h : Hub) (c : Nat) (st : TwoWire) : (h.setTw c st).ctx = h.ctx := (rfl)
@[simp] theorem Hub.setTw_stg (h : Hub) (c : Nat) (st : TwoWire) : (h.setTw c st).stg = h.stg := (rfl)
@[simp] theorem Hub.setTw_tile (h : Hub) (c : Nat) (st : TwoWire) : (h.setTw c st).tile = h.tile := (rfl)
@[simp] theorem Hub.setTw_ev (h : Hub) (c : Nat) (st : TwoWire) : (h.setTw c st).ev = h.ev := (rfl)
@[simp] theorem Hub.setTw_evSeen (h : Hub) (c : Nat) (st : TwoWire) : (h.setTw c st).evSeen = h.evSeen := (rfl)
@[simp] theorem Hub.setTw_q (h : Hub) (c : Nat) (st : TwoWire) : (h.setTw c st).q = h.q := (rfl)
@[simp] theorem Hub.setTw_stock (h : Hub) (c : Nat) (st : TwoWire) : (h.setTw c st).stock = h.stock := (rfl)
@[simp] theorem Hub.setTw_stockFill (h : Hub) (c : Nat) (st : TwoWire) : (h.setTw c st).stockFill = h.stockFill := (rfl)
@[simp] theorem Hub.setTw_dbgHeld (h : Hub) (c : Nat) (st : TwoWire) : (h.setTw c st).dbgHeld = h.dbgHeld := (rfl)
@[simp] theorem Hub.setTw_ring (h : Hub) (c : Nat) (st : TwoWire) : (h.setTw c st).ring = h.ring := (rfl)
@[simp] theorem Hub.setTw_outbox (h : Hub) (c : Nat) (st : TwoWire) : (h.setTw c st).outbox = h.outbox := (rfl)
@[simp] theorem Hub.setTw_tb (h : Hub) (c : Nat) (st : TwoWire) : (h.setTw c st).tb = h.tb := (rfl)
@[simp] theorem Hub.setTw_trig (h : Hub) (c : Nat) (st : TwoWire) : (h.setTw c st).trig = h.trig := (rfl)
@[simp] theorem Hub.setTw_trg (h : Hub) (c : Nat) (st : TwoWire) : (h.setTw c st).trg = h.trg := (rfl)
@[simp] theorem Hub.setTw_tach (h : Hub) (c : Nat) (st : TwoWire) : (h.setTw c st).tach = h.tach := (rfl)
@[simp] theorem Hub.setTw_kt (h : Hub) (c : Nat) (st : TwoWire) : (h.setTw c st).kt = h.kt := (rfl)
@[simp] theorem Hub.setTw_flt (h : Hub) (c : Nat) (st : TwoWire) : (h.setTw c st).flt = h.flt := (rfl)
@[simp] theorem Hub.setTw_job (h : Hub) (c : Nat) (st : TwoWire) : (h.setTw c st).job = h.job := (rfl)
@[simp] theorem Hub.setTw_spc (h : Hub) (c : Nat) (st : TwoWire) : (h.setTw c st).spc = h.spc := (rfl)
@[simp] theorem Hub.setTw_fea (h : Hub) (c : Nat) (st : TwoWire) : (h.setTw c st).fea = h.fea := (rfl)
@[simp] theorem Hub.setTw_lim (h : Hub) (c : Nat) (st : TwoWire) : (h.setTw c st).lim = h.lim := (rfl)
@[simp] theorem Hub.setTw_link (h : Hub) (c : Nat) (st : TwoWire) : (h.setTw c st).link = h.link := (rfl)
@[simp] theorem Hub.setTw_cas (h : Hub) (c : Nat) (st : TwoWire) : (h.setTw c st).cas = h.cas := (rfl)
@[simp] theorem Hub.setTw_rad (h : Hub) (c : Nat) (st : TwoWire) : (h.setTw c st).rad = h.rad := (rfl)
@[simp] theorem Hub.setTw_hlt (h : Hub) (c : Nat) (st : TwoWire) : (h.setTw c st).hlt = h.hlt := (rfl)
@[simp] theorem Hub.setTw_sup (h : Hub) (c : Nat) (st : TwoWire) : (h.setTw c st).sup = h.sup := (rfl)
@[simp] theorem Hub.setTw_tbMet (h : Hub) (c : Nat) (st : TwoWire) : (h.setTw c st).tbMet = h.tbMet := (rfl)
@[simp] theorem Hub.setTw_metFollows (h : Hub) (c : Nat) (st : TwoWire) : (h.setTw c st).metFollows = h.metFollows := (rfl)
@[simp] theorem Hub.setTw_metFifo (h : Hub) (c : Nat) (st : TwoWire) : (h.setTw c st).metFifo = h.metFifo := (rfl)
@[simp] theorem Hub.setTw_metGap (h : Hub) (c : Nat) (st : TwoWire) : (h.setTw c st).metGap = h.metGap := (rfl)
@[simp] theorem Hub.setTw_cyc (h : Hub) (c : Nat) (st : TwoWire) : (h.setTw c st).cyc = h.cyc := (rfl)
@[simp] theorem Hub.setTw_asleep (h : Hub) (c : Nat) (st : TwoWire) : (h.setTw c st).asleep = h.asleep := (rfl)
@[simp] theorem Hub.setTw_free (h : Hub) (c : Nat) (st : TwoWire) : (h.setTw c st).free = h.free := (rfl)
@[simp] theorem Hub.setTw_reg (h : Hub) (c : Nat) (st : TwoWire) (x : Nat) : (h.setTw c st).reg x = h.reg x := (rfl)
@[simp] theorem Hub.setTw_rd (h : Hub) (c : Nat) (st : TwoWire) (x : Fld) : (h.setTw c st).rd x = h.rd x := (rfl)
@[simp] theorem Hub.setTw_is (h : Hub) (c : Nat) (st : TwoWire) (x : Fld) : (h.setTw c st).is x = h.is x := (rfl)
@[simp] theorem Hub.setTw_cell (h : Hub) (c : Nat) (st : TwoWire) (x y z : Nat) : (h.setTw c st).cell x y z = h.cell x y z := (rfl)
@[simp] theorem Hub.setTw_cf (h : Hub) (c : Nat) (st : TwoWire) (x y z lo len : Nat) : (h.setTw c st).cf x y z lo len = h.cf x y z lo len := (rfl)

/-! ### `Hub.modTw` -/

@[simp] theorem Hub.modTw_regs (h : Hub) (c : Nat) (f : TwoWire → TwoWire) : (h.modTw c f).regs = h.regs := (rfl)
@[simp] theorem Hub.modTw_cells (h : Hub) (c : Nat) (f : TwoWire → TwoWire) : (h.modTw c f).cells = h.cells := (rfl)
@[simp] theorem Hub.modTw_clk (h : Hub) (c : Nat) (f : TwoWire → TwoWire) : (h.modTw c f).clk = h.clk := (rfl)
@[simp] theorem Hub.modTw_ldr (h : Hub) (c : Nat) (f : TwoWire → TwoWire) : (h.modTw c f).ldr = h.ldr := (rfl)
@[simp] theorem Hub.modTw_host (h : Hub) (c : Nat) (f : TwoWire → TwoWire) : (h.modTw c f).host = h.host := (rfl)
@[simp] theorem Hub.modTw_sp (h : Hub) (c : Nat) (f : TwoWire → TwoWire) : (h.modTw c f).sp = h.sp := (rfl)
@[simp] theorem Hub.modTw_ingress (h : Hub) (c : Nat) (f : TwoWire → TwoWire) : (h.modTw c f).ingress = h.ingress := (rfl)
@[simp] theorem Hub.modTw_ctx (h : Hub) (c : Nat) (f : TwoWire → TwoWire) : (h.modTw c f).ctx = h.ctx := (rfl)
@[simp] theorem Hub.modTw_stg (h : Hub) (c : Nat) (f : TwoWire → TwoWire) : (h.modTw c f).stg = h.stg := (rfl)
@[simp] theorem Hub.modTw_tile (h : Hub) (c : Nat) (f : TwoWire → TwoWire) : (h.modTw c f).tile = h.tile := (rfl)
@[simp] theorem Hub.modTw_ev (h : Hub) (c : Nat) (f : TwoWire → TwoWire) : (h.modTw c f).ev = h.ev := (rfl)
@[simp] theorem Hub.modTw_evSeen (h : Hub) (c : Nat) (f : TwoWire → TwoWire) : (h.modTw c f).evSeen = h.evSeen := (rfl)
@[simp] theorem Hub.modTw_q (h : Hub) (c : Nat) (f : TwoWire → TwoWire) : (h.modTw c f).q = h.q := (rfl)
@[simp] theorem Hub.modTw_stock (h : Hub) (c : Nat) (f : TwoWire → TwoWire) : (h.modTw c f).stock = h.stock := (rfl)
@[simp] theorem Hub.modTw_stockFill (h : Hub) (c : Nat) (f : TwoWire → TwoWire) : (h.modTw c f).stockFill = h.stockFill := (rfl)
@[simp] theorem Hub.modTw_dbgHeld (h : Hub) (c : Nat) (f : TwoWire → TwoWire) : (h.modTw c f).dbgHeld = h.dbgHeld := (rfl)
@[simp] theorem Hub.modTw_ring (h : Hub) (c : Nat) (f : TwoWire → TwoWire) : (h.modTw c f).ring = h.ring := (rfl)
@[simp] theorem Hub.modTw_outbox (h : Hub) (c : Nat) (f : TwoWire → TwoWire) : (h.modTw c f).outbox = h.outbox := (rfl)
@[simp] theorem Hub.modTw_tb (h : Hub) (c : Nat) (f : TwoWire → TwoWire) : (h.modTw c f).tb = h.tb := (rfl)
@[simp] theorem Hub.modTw_trig (h : Hub) (c : Nat) (f : TwoWire → TwoWire) : (h.modTw c f).trig = h.trig := (rfl)
@[simp] theorem Hub.modTw_trg (h : Hub) (c : Nat) (f : TwoWire → TwoWire) : (h.modTw c f).trg = h.trg := (rfl)
@[simp] theorem Hub.modTw_tach (h : Hub) (c : Nat) (f : TwoWire → TwoWire) : (h.modTw c f).tach = h.tach := (rfl)
@[simp] theorem Hub.modTw_kt (h : Hub) (c : Nat) (f : TwoWire → TwoWire) : (h.modTw c f).kt = h.kt := (rfl)
@[simp] theorem Hub.modTw_flt (h : Hub) (c : Nat) (f : TwoWire → TwoWire) : (h.modTw c f).flt = h.flt := (rfl)
@[simp] theorem Hub.modTw_job (h : Hub) (c : Nat) (f : TwoWire → TwoWire) : (h.modTw c f).job = h.job := (rfl)
@[simp] theorem Hub.modTw_spc (h : Hub) (c : Nat) (f : TwoWire → TwoWire) : (h.modTw c f).spc = h.spc := (rfl)
@[simp] theorem Hub.modTw_fea (h : Hub) (c : Nat) (f : TwoWire → TwoWire) : (h.modTw c f).fea = h.fea := (rfl)
@[simp] theorem Hub.modTw_lim (h : Hub) (c : Nat) (f : TwoWire → TwoWire) : (h.modTw c f).lim = h.lim := (rfl)
@[simp] theorem Hub.modTw_link (h : Hub) (c : Nat) (f : TwoWire → TwoWire) : (h.modTw c f).link = h.link := (rfl)
@[simp] theorem Hub.modTw_cas (h : Hub) (c : Nat) (f : TwoWire → TwoWire) : (h.modTw c f).cas = h.cas := (rfl)
@[simp] theorem Hub.modTw_rad (h : Hub) (c : Nat) (f : TwoWire → TwoWire) : (h.modTw c f).rad = h.rad := (rfl)
@[simp] theorem Hub.modTw_hlt (h : Hub) (c : Nat) (f : TwoWire → TwoWire) : (h.modTw c f).hlt = h.hlt := (rfl)
@[simp] theorem Hub.modTw_sup (h : Hub) (c : Nat) (f : TwoWire → TwoWire) : (h.modTw c f).sup = h.sup := (rfl)
@[simp] theorem Hub.modTw_tbMet (h : Hub) (c : Nat) (f : TwoWire → TwoWire) : (h.modTw c f).tbMet = h.tbMet := (rfl)
@[simp] theorem Hub.modTw_metFollows (h : Hub) (c : Nat) (f : TwoWire → TwoWire) : (h.modTw c f).metFollows = h.metFollows := (rfl)
@[simp] theorem Hub.modTw_metFifo (h : Hub) (c : Nat) (f : TwoWire → TwoWire) : (h.modTw c f).metFifo = h.metFifo := (rfl)
@[simp] theorem Hub.modTw_metGap (h : Hub) (c : Nat) (f : TwoWire → TwoWire) : (h.modTw c f).metGap = h.metGap := (rfl)
@[simp] theorem Hub.modTw_cyc (h : Hub) (c : Nat) (f : TwoWire → TwoWire) : (h.modTw c f).cyc = h.cyc := (rfl)
@[simp] theorem Hub.modTw_asleep (h : Hub) (c : Nat) (f : TwoWire → TwoWire) : (h.modTw c f).asleep = h.asleep := (rfl)
@[simp] theorem Hub.modTw_free (h : Hub) (c : Nat) (f : TwoWire → TwoWire) : (h.modTw c f).free = h.free := (rfl)
@[simp] theorem Hub.modTw_reg (h : Hub) (c : Nat) (f : TwoWire → TwoWire) (x : Nat) : (h.modTw c f).reg x = h.reg x := (rfl)
@[simp] theorem Hub.modTw_rd (h : Hub) (c : Nat) (f : TwoWire → TwoWire) (x : Fld) : (h.modTw c f).rd x = h.rd x := (rfl)
@[simp] theorem Hub.modTw_is (h : Hub) (c : Nat) (f : TwoWire → TwoWire) (x : Fld) : (h.modTw c f).is x = h.is x := (rfl)
@[simp] theorem Hub.modTw_cell (h : Hub) (c : Nat) (f : TwoWire → TwoWire) (x y z : Nat) : (h.modTw c f).cell x y z = h.cell x y z := (rfl)
@[simp] theorem Hub.modTw_cf (h : Hub) (c : Nat) (f : TwoWire → TwoWire) (x y z lo len : Nat) : (h.modTw c f).cf x y z lo len = h.cf x y z lo len := (rfl)

/-! ### `Hub.setStg` -/

@[simp] theorem Hub.setStg_regs (h : Hub) (c i : Nat) (st : Stage) : (h.setStg c i st).regs = h.regs := (rfl)
@[simp] theorem Hub.setStg_cells (h : Hub) (c i : Nat) (st : Stage) : (h.setStg c i st).cells = h.cells := (rfl)
@[simp] theorem Hub.setStg_clk (h : Hub) (c i : Nat) (st : Stage) : (h.setStg c i st).clk = h.clk := (rfl)
@[simp] theorem Hub.setStg_ldr (h : Hub) (c i : Nat) (st : Stage) : (h.setStg c i st).ldr = h.ldr := (rfl)
@[simp] theorem Hub.setStg_host (h : Hub) (c i : Nat) (st : Stage) : (h.setStg c i st).host = h.host := (rfl)
@[simp] theorem Hub.setStg_sp (h : Hub) (c i : Nat) (st : Stage) : (h.setStg c i st).sp = h.sp := (rfl)
@[simp] theorem Hub.setStg_tw (h : Hub) (c i : Nat) (st : Stage) : (h.setStg c i st).tw = h.tw := (rfl)
@[simp] theorem Hub.setStg_ingress (h : Hub) (c i : Nat) (st : Stage) : (h.setStg c i st).ingress = h.ingress := (rfl)
@[simp] theorem Hub.setStg_ctx (h : Hub) (c i : Nat) (st : Stage) : (h.setStg c i st).ctx = h.ctx := (rfl)
@[simp] theorem Hub.setStg_tile (h : Hub) (c i : Nat) (st : Stage) : (h.setStg c i st).tile = h.tile := (rfl)
@[simp] theorem Hub.setStg_ev (h : Hub) (c i : Nat) (st : Stage) : (h.setStg c i st).ev = h.ev := (rfl)
@[simp] theorem Hub.setStg_evSeen (h : Hub) (c i : Nat) (st : Stage) : (h.setStg c i st).evSeen = h.evSeen := (rfl)
@[simp] theorem Hub.setStg_q (h : Hub) (c i : Nat) (st : Stage) : (h.setStg c i st).q = h.q := (rfl)
@[simp] theorem Hub.setStg_stock (h : Hub) (c i : Nat) (st : Stage) : (h.setStg c i st).stock = h.stock := (rfl)
@[simp] theorem Hub.setStg_stockFill (h : Hub) (c i : Nat) (st : Stage) : (h.setStg c i st).stockFill = h.stockFill := (rfl)
@[simp] theorem Hub.setStg_dbgHeld (h : Hub) (c i : Nat) (st : Stage) : (h.setStg c i st).dbgHeld = h.dbgHeld := (rfl)
@[simp] theorem Hub.setStg_ring (h : Hub) (c i : Nat) (st : Stage) : (h.setStg c i st).ring = h.ring := (rfl)
@[simp] theorem Hub.setStg_outbox (h : Hub) (c i : Nat) (st : Stage) : (h.setStg c i st).outbox = h.outbox := (rfl)
@[simp] theorem Hub.setStg_tb (h : Hub) (c i : Nat) (st : Stage) : (h.setStg c i st).tb = h.tb := (rfl)
@[simp] theorem Hub.setStg_trig (h : Hub) (c i : Nat) (st : Stage) : (h.setStg c i st).trig = h.trig := (rfl)
@[simp] theorem Hub.setStg_trg (h : Hub) (c i : Nat) (st : Stage) : (h.setStg c i st).trg = h.trg := (rfl)
@[simp] theorem Hub.setStg_tach (h : Hub) (c i : Nat) (st : Stage) : (h.setStg c i st).tach = h.tach := (rfl)
@[simp] theorem Hub.setStg_kt (h : Hub) (c i : Nat) (st : Stage) : (h.setStg c i st).kt = h.kt := (rfl)
@[simp] theorem Hub.setStg_flt (h : Hub) (c i : Nat) (st : Stage) : (h.setStg c i st).flt = h.flt := (rfl)
@[simp] theorem Hub.setStg_job (h : Hub) (c i : Nat) (st : Stage) : (h.setStg c i st).job = h.job := (rfl)
@[simp] theorem Hub.setStg_spc (h : Hub) (c i : Nat) (st : Stage) : (h.setStg c i st).spc = h.spc := (rfl)
@[simp] theorem Hub.setStg_fea (h : Hub) (c i : Nat) (st : Stage) : (h.setStg c i st).fea = h.fea := (rfl)
@[simp] theorem Hub.setStg_lim (h : Hub) (c i : Nat) (st : Stage) : (h.setStg c i st).lim = h.lim := (rfl)
@[simp] theorem Hub.setStg_link (h : Hub) (c i : Nat) (st : Stage) : (h.setStg c i st).link = h.link := (rfl)
@[simp] theorem Hub.setStg_cas (h : Hub) (c i : Nat) (st : Stage) : (h.setStg c i st).cas = h.cas := (rfl)
@[simp] theorem Hub.setStg_rad (h : Hub) (c i : Nat) (st : Stage) : (h.setStg c i st).rad = h.rad := (rfl)
@[simp] theorem Hub.setStg_hlt (h : Hub) (c i : Nat) (st : Stage) : (h.setStg c i st).hlt = h.hlt := (rfl)
@[simp] theorem Hub.setStg_sup (h : Hub) (c i : Nat) (st : Stage) : (h.setStg c i st).sup = h.sup := (rfl)
@[simp] theorem Hub.setStg_tbMet (h : Hub) (c i : Nat) (st : Stage) : (h.setStg c i st).tbMet = h.tbMet := (rfl)
@[simp] theorem Hub.setStg_metFollows (h : Hub) (c i : Nat) (st : Stage) : (h.setStg c i st).metFollows = h.metFollows := (rfl)
@[simp] theorem Hub.setStg_metFifo (h : Hub) (c i : Nat) (st : Stage) : (h.setStg c i st).metFifo = h.metFifo := (rfl)
@[simp] theorem Hub.setStg_metGap (h : Hub) (c i : Nat) (st : Stage) : (h.setStg c i st).metGap = h.metGap := (rfl)
@[simp] theorem Hub.setStg_cyc (h : Hub) (c i : Nat) (st : Stage) : (h.setStg c i st).cyc = h.cyc := (rfl)
@[simp] theorem Hub.setStg_asleep (h : Hub) (c i : Nat) (st : Stage) : (h.setStg c i st).asleep = h.asleep := (rfl)
@[simp] theorem Hub.setStg_free (h : Hub) (c i : Nat) (st : Stage) : (h.setStg c i st).free = h.free := (rfl)
@[simp] theorem Hub.setStg_reg (h : Hub) (c i : Nat) (st : Stage) (x : Nat) : (h.setStg c i st).reg x = h.reg x := (rfl)
@[simp] theorem Hub.setStg_rd (h : Hub) (c i : Nat) (st : Stage) (x : Fld) : (h.setStg c i st).rd x = h.rd x := (rfl)
@[simp] theorem Hub.setStg_is (h : Hub) (c i : Nat) (st : Stage) (x : Fld) : (h.setStg c i st).is x = h.is x := (rfl)
@[simp] theorem Hub.setStg_cell (h : Hub) (c i : Nat) (st : Stage) (x y z : Nat) : (h.setStg c i st).cell x y z = h.cell x y z := (rfl)
@[simp] theorem Hub.setStg_cf (h : Hub) (c i : Nat) (st : Stage) (x y z lo len : Nat) : (h.setStg c i st).cf x y z lo len = h.cf x y z lo len := (rfl)

/-! ### `Hub.modStg` -/

@[simp] theorem Hub.modStg_regs (h : Hub) (c i : Nat) (f : Stage → Stage) : (h.modStg c i f).regs = h.regs := (rfl)
@[simp] theorem Hub.modStg_cells (h : Hub) (c i : Nat) (f : Stage → Stage) : (h.modStg c i f).cells = h.cells := (rfl)
@[simp] theorem Hub.modStg_clk (h : Hub) (c i : Nat) (f : Stage → Stage) : (h.modStg c i f).clk = h.clk := (rfl)
@[simp] theorem Hub.modStg_ldr (h : Hub) (c i : Nat) (f : Stage → Stage) : (h.modStg c i f).ldr = h.ldr := (rfl)
@[simp] theorem Hub.modStg_host (h : Hub) (c i : Nat) (f : Stage → Stage) : (h.modStg c i f).host = h.host := (rfl)
@[simp] theorem Hub.modStg_sp (h : Hub) (c i : Nat) (f : Stage → Stage) : (h.modStg c i f).sp = h.sp := (rfl)
@[simp] theorem Hub.modStg_tw (h : Hub) (c i : Nat) (f : Stage → Stage) : (h.modStg c i f).tw = h.tw := (rfl)
@[simp] theorem Hub.modStg_ingress (h : Hub) (c i : Nat) (f : Stage → Stage) : (h.modStg c i f).ingress = h.ingress := (rfl)
@[simp] theorem Hub.modStg_ctx (h : Hub) (c i : Nat) (f : Stage → Stage) : (h.modStg c i f).ctx = h.ctx := (rfl)
@[simp] theorem Hub.modStg_tile (h : Hub) (c i : Nat) (f : Stage → Stage) : (h.modStg c i f).tile = h.tile := (rfl)
@[simp] theorem Hub.modStg_ev (h : Hub) (c i : Nat) (f : Stage → Stage) : (h.modStg c i f).ev = h.ev := (rfl)
@[simp] theorem Hub.modStg_evSeen (h : Hub) (c i : Nat) (f : Stage → Stage) : (h.modStg c i f).evSeen = h.evSeen := (rfl)
@[simp] theorem Hub.modStg_q (h : Hub) (c i : Nat) (f : Stage → Stage) : (h.modStg c i f).q = h.q := (rfl)
@[simp] theorem Hub.modStg_stock (h : Hub) (c i : Nat) (f : Stage → Stage) : (h.modStg c i f).stock = h.stock := (rfl)
@[simp] theorem Hub.modStg_stockFill (h : Hub) (c i : Nat) (f : Stage → Stage) : (h.modStg c i f).stockFill = h.stockFill := (rfl)
@[simp] theorem Hub.modStg_dbgHeld (h : Hub) (c i : Nat) (f : Stage → Stage) : (h.modStg c i f).dbgHeld = h.dbgHeld := (rfl)
@[simp] theorem Hub.modStg_ring (h : Hub) (c i : Nat) (f : Stage → Stage) : (h.modStg c i f).ring = h.ring := (rfl)
@[simp] theorem Hub.modStg_outbox (h : Hub) (c i : Nat) (f : Stage → Stage) : (h.modStg c i f).outbox = h.outbox := (rfl)
@[simp] theorem Hub.modStg_tb (h : Hub) (c i : Nat) (f : Stage → Stage) : (h.modStg c i f).tb = h.tb := (rfl)
@[simp] theorem Hub.modStg_trig (h : Hub) (c i : Nat) (f : Stage → Stage) : (h.modStg c i f).trig = h.trig := (rfl)
@[simp] theorem Hub.modStg_trg (h : Hub) (c i : Nat) (f : Stage → Stage) : (h.modStg c i f).trg = h.trg := (rfl)
@[simp] theorem Hub.modStg_tach (h : Hub) (c i : Nat) (f : Stage → Stage) : (h.modStg c i f).tach = h.tach := (rfl)
@[simp] theorem Hub.modStg_kt (h : Hub) (c i : Nat) (f : Stage → Stage) : (h.modStg c i f).kt = h.kt := (rfl)
@[simp] theorem Hub.modStg_flt (h : Hub) (c i : Nat) (f : Stage → Stage) : (h.modStg c i f).flt = h.flt := (rfl)
@[simp] theorem Hub.modStg_job (h : Hub) (c i : Nat) (f : Stage → Stage) : (h.modStg c i f).job = h.job := (rfl)
@[simp] theorem Hub.modStg_spc (h : Hub) (c i : Nat) (f : Stage → Stage) : (h.modStg c i f).spc = h.spc := (rfl)
@[simp] theorem Hub.modStg_fea (h : Hub) (c i : Nat) (f : Stage → Stage) : (h.modStg c i f).fea = h.fea := (rfl)
@[simp] theorem Hub.modStg_lim (h : Hub) (c i : Nat) (f : Stage → Stage) : (h.modStg c i f).lim = h.lim := (rfl)
@[simp] theorem Hub.modStg_link (h : Hub) (c i : Nat) (f : Stage → Stage) : (h.modStg c i f).link = h.link := (rfl)
@[simp] theorem Hub.modStg_cas (h : Hub) (c i : Nat) (f : Stage → Stage) : (h.modStg c i f).cas = h.cas := (rfl)
@[simp] theorem Hub.modStg_rad (h : Hub) (c i : Nat) (f : Stage → Stage) : (h.modStg c i f).rad = h.rad := (rfl)
@[simp] theorem Hub.modStg_hlt (h : Hub) (c i : Nat) (f : Stage → Stage) : (h.modStg c i f).hlt = h.hlt := (rfl)
@[simp] theorem Hub.modStg_sup (h : Hub) (c i : Nat) (f : Stage → Stage) : (h.modStg c i f).sup = h.sup := (rfl)
@[simp] theorem Hub.modStg_tbMet (h : Hub) (c i : Nat) (f : Stage → Stage) : (h.modStg c i f).tbMet = h.tbMet := (rfl)
@[simp] theorem Hub.modStg_metFollows (h : Hub) (c i : Nat) (f : Stage → Stage) : (h.modStg c i f).metFollows = h.metFollows := (rfl)
@[simp] theorem Hub.modStg_metFifo (h : Hub) (c i : Nat) (f : Stage → Stage) : (h.modStg c i f).metFifo = h.metFifo := (rfl)
@[simp] theorem Hub.modStg_metGap (h : Hub) (c i : Nat) (f : Stage → Stage) : (h.modStg c i f).metGap = h.metGap := (rfl)
@[simp] theorem Hub.modStg_cyc (h : Hub) (c i : Nat) (f : Stage → Stage) : (h.modStg c i f).cyc = h.cyc := (rfl)
@[simp] theorem Hub.modStg_asleep (h : Hub) (c i : Nat) (f : Stage → Stage) : (h.modStg c i f).asleep = h.asleep := (rfl)
@[simp] theorem Hub.modStg_free (h : Hub) (c i : Nat) (f : Stage → Stage) : (h.modStg c i f).free = h.free := (rfl)
@[simp] theorem Hub.modStg_reg (h : Hub) (c i : Nat) (f : Stage → Stage) (x : Nat) : (h.modStg c i f).reg x = h.reg x := (rfl)
@[simp] theorem Hub.modStg_rd (h : Hub) (c i : Nat) (f : Stage → Stage) (x : Fld) : (h.modStg c i f).rd x = h.rd x := (rfl)
@[simp] theorem Hub.modStg_is (h : Hub) (c i : Nat) (f : Stage → Stage) (x : Fld) : (h.modStg c i f).is x = h.is x := (rfl)
@[simp] theorem Hub.modStg_cell (h : Hub) (c i : Nat) (f : Stage → Stage) (x y z : Nat) : (h.modStg c i f).cell x y z = h.cell x y z := (rfl)
@[simp] theorem Hub.modStg_cf (h : Hub) (c i : Nat) (f : Stage → Stage) (x y z lo len : Nat) : (h.modStg c i f).cf x y z lo len = h.cf x y z lo len := (rfl)

/-! ### `Hub.setJob` -/

@[simp] theorem Hub.setJob_regs (h : Hub) (e j : Nat) (st : Job) : (h.setJob e j st).regs = h.regs := (rfl)
@[simp] theorem Hub.setJob_cells (h : Hub) (e j : Nat) (st : Job) : (h.setJob e j st).cells = h.cells := (rfl)
@[simp] theorem Hub.setJob_clk (h : Hub) (e j : Nat) (st : Job) : (h.setJob e j st).clk = h.clk := (rfl)
@[simp] theorem Hub.setJob_ldr (h : Hub) (e j : Nat) (st : Job) : (h.setJob e j st).ldr = h.ldr := (rfl)
@[simp] theorem Hub.setJob_host (h : Hub) (e j : Nat) (st : Job) : (h.setJob e j st).host = h.host := (rfl)
@[simp] theorem Hub.setJob_sp (h : Hub) (e j : Nat) (st : Job) : (h.setJob e j st).sp = h.sp := (rfl)
@[simp] theorem Hub.setJob_tw (h : Hub) (e j : Nat) (st : Job) : (h.setJob e j st).tw = h.tw := (rfl)
@[simp] theorem Hub.setJob_ingress (h : Hub) (e j : Nat) (st : Job) : (h.setJob e j st).ingress = h.ingress := (rfl)
@[simp] theorem Hub.setJob_ctx (h : Hub) (e j : Nat) (st : Job) : (h.setJob e j st).ctx = h.ctx := (rfl)
@[simp] theorem Hub.setJob_stg (h : Hub) (e j : Nat) (st : Job) : (h.setJob e j st).stg = h.stg := (rfl)
@[simp] theorem Hub.setJob_tile (h : Hub) (e j : Nat) (st : Job) : (h.setJob e j st).tile = h.tile := (rfl)
@[simp] theorem Hub.setJob_ev (h : Hub) (e j : Nat) (st : Job) : (h.setJob e j st).ev = h.ev := (rfl)
@[simp] theorem Hub.setJob_evSeen (h : Hub) (e j : Nat) (st : Job) : (h.setJob e j st).evSeen = h.evSeen := (rfl)
@[simp] theorem Hub.setJob_q (h : Hub) (e j : Nat) (st : Job) : (h.setJob e j st).q = h.q := (rfl)
@[simp] theorem Hub.setJob_stock (h : Hub) (e j : Nat) (st : Job) : (h.setJob e j st).stock = h.stock := (rfl)
@[simp] theorem Hub.setJob_stockFill (h : Hub) (e j : Nat) (st : Job) : (h.setJob e j st).stockFill = h.stockFill := (rfl)
@[simp] theorem Hub.setJob_dbgHeld (h : Hub) (e j : Nat) (st : Job) : (h.setJob e j st).dbgHeld = h.dbgHeld := (rfl)
@[simp] theorem Hub.setJob_ring (h : Hub) (e j : Nat) (st : Job) : (h.setJob e j st).ring = h.ring := (rfl)
@[simp] theorem Hub.setJob_outbox (h : Hub) (e j : Nat) (st : Job) : (h.setJob e j st).outbox = h.outbox := (rfl)
@[simp] theorem Hub.setJob_tb (h : Hub) (e j : Nat) (st : Job) : (h.setJob e j st).tb = h.tb := (rfl)
@[simp] theorem Hub.setJob_trig (h : Hub) (e j : Nat) (st : Job) : (h.setJob e j st).trig = h.trig := (rfl)
@[simp] theorem Hub.setJob_trg (h : Hub) (e j : Nat) (st : Job) : (h.setJob e j st).trg = h.trg := (rfl)
@[simp] theorem Hub.setJob_tach (h : Hub) (e j : Nat) (st : Job) : (h.setJob e j st).tach = h.tach := (rfl)
@[simp] theorem Hub.setJob_kt (h : Hub) (e j : Nat) (st : Job) : (h.setJob e j st).kt = h.kt := (rfl)
@[simp] theorem Hub.setJob_flt (h : Hub) (e j : Nat) (st : Job) : (h.setJob e j st).flt = h.flt := (rfl)
@[simp] theorem Hub.setJob_spc (h : Hub) (e j : Nat) (st : Job) : (h.setJob e j st).spc = h.spc := (rfl)
@[simp] theorem Hub.setJob_fea (h : Hub) (e j : Nat) (st : Job) : (h.setJob e j st).fea = h.fea := (rfl)
@[simp] theorem Hub.setJob_lim (h : Hub) (e j : Nat) (st : Job) : (h.setJob e j st).lim = h.lim := (rfl)
@[simp] theorem Hub.setJob_link (h : Hub) (e j : Nat) (st : Job) : (h.setJob e j st).link = h.link := (rfl)
@[simp] theorem Hub.setJob_cas (h : Hub) (e j : Nat) (st : Job) : (h.setJob e j st).cas = h.cas := (rfl)
@[simp] theorem Hub.setJob_rad (h : Hub) (e j : Nat) (st : Job) : (h.setJob e j st).rad = h.rad := (rfl)
@[simp] theorem Hub.setJob_hlt (h : Hub) (e j : Nat) (st : Job) : (h.setJob e j st).hlt = h.hlt := (rfl)
@[simp] theorem Hub.setJob_sup (h : Hub) (e j : Nat) (st : Job) : (h.setJob e j st).sup = h.sup := (rfl)
@[simp] theorem Hub.setJob_tbMet (h : Hub) (e j : Nat) (st : Job) : (h.setJob e j st).tbMet = h.tbMet := (rfl)
@[simp] theorem Hub.setJob_metFollows (h : Hub) (e j : Nat) (st : Job) : (h.setJob e j st).metFollows = h.metFollows := (rfl)
@[simp] theorem Hub.setJob_metFifo (h : Hub) (e j : Nat) (st : Job) : (h.setJob e j st).metFifo = h.metFifo := (rfl)
@[simp] theorem Hub.setJob_metGap (h : Hub) (e j : Nat) (st : Job) : (h.setJob e j st).metGap = h.metGap := (rfl)
@[simp] theorem Hub.setJob_cyc (h : Hub) (e j : Nat) (st : Job) : (h.setJob e j st).cyc = h.cyc := (rfl)
@[simp] theorem Hub.setJob_asleep (h : Hub) (e j : Nat) (st : Job) : (h.setJob e j st).asleep = h.asleep := (rfl)
@[simp] theorem Hub.setJob_free (h : Hub) (e j : Nat) (st : Job) : (h.setJob e j st).free = h.free := (rfl)
@[simp] theorem Hub.setJob_reg (h : Hub) (e j : Nat) (st : Job) (x : Nat) : (h.setJob e j st).reg x = h.reg x := (rfl)
@[simp] theorem Hub.setJob_rd (h : Hub) (e j : Nat) (st : Job) (x : Fld) : (h.setJob e j st).rd x = h.rd x := (rfl)
@[simp] theorem Hub.setJob_is (h : Hub) (e j : Nat) (st : Job) (x : Fld) : (h.setJob e j st).is x = h.is x := (rfl)
@[simp] theorem Hub.setJob_cell (h : Hub) (e j : Nat) (st : Job) (x y z : Nat) : (h.setJob e j st).cell x y z = h.cell x y z := (rfl)
@[simp] theorem Hub.setJob_cf (h : Hub) (e j : Nat) (st : Job) (x y z lo len : Nat) : (h.setJob e j st).cf x y z lo len = h.cf x y z lo len := (rfl)

/-! ### `Hub.setStock` -/

@[simp] theorem Hub.setStock_regs (h : Hub) (a : Nat) (w : BitVec 64) : (h.setStock a w).regs = h.regs := (rfl)
@[simp] theorem Hub.setStock_cells (h : Hub) (a : Nat) (w : BitVec 64) : (h.setStock a w).cells = h.cells := (rfl)
@[simp] theorem Hub.setStock_clk (h : Hub) (a : Nat) (w : BitVec 64) : (h.setStock a w).clk = h.clk := (rfl)
@[simp] theorem Hub.setStock_ldr (h : Hub) (a : Nat) (w : BitVec 64) : (h.setStock a w).ldr = h.ldr := (rfl)
@[simp] theorem Hub.setStock_host (h : Hub) (a : Nat) (w : BitVec 64) : (h.setStock a w).host = h.host := (rfl)
@[simp] theorem Hub.setStock_sp (h : Hub) (a : Nat) (w : BitVec 64) : (h.setStock a w).sp = h.sp := (rfl)
@[simp] theorem Hub.setStock_tw (h : Hub) (a : Nat) (w : BitVec 64) : (h.setStock a w).tw = h.tw := (rfl)
@[simp] theorem Hub.setStock_ingress (h : Hub) (a : Nat) (w : BitVec 64) : (h.setStock a w).ingress = h.ingress := (rfl)
@[simp] theorem Hub.setStock_ctx (h : Hub) (a : Nat) (w : BitVec 64) : (h.setStock a w).ctx = h.ctx := (rfl)
@[simp] theorem Hub.setStock_stg (h : Hub) (a : Nat) (w : BitVec 64) : (h.setStock a w).stg = h.stg := (rfl)
@[simp] theorem Hub.setStock_tile (h : Hub) (a : Nat) (w : BitVec 64) : (h.setStock a w).tile = h.tile := (rfl)
@[simp] theorem Hub.setStock_ev (h : Hub) (a : Nat) (w : BitVec 64) : (h.setStock a w).ev = h.ev := (rfl)
@[simp] theorem Hub.setStock_evSeen (h : Hub) (a : Nat) (w : BitVec 64) : (h.setStock a w).evSeen = h.evSeen := (rfl)
@[simp] theorem Hub.setStock_q (h : Hub) (a : Nat) (w : BitVec 64) : (h.setStock a w).q = h.q := (rfl)
@[simp] theorem Hub.setStock_stockFill (h : Hub) (a : Nat) (w : BitVec 64) : (h.setStock a w).stockFill = h.stockFill := (rfl)
@[simp] theorem Hub.setStock_dbgHeld (h : Hub) (a : Nat) (w : BitVec 64) : (h.setStock a w).dbgHeld = h.dbgHeld := (rfl)
@[simp] theorem Hub.setStock_ring (h : Hub) (a : Nat) (w : BitVec 64) : (h.setStock a w).ring = h.ring := (rfl)
@[simp] theorem Hub.setStock_outbox (h : Hub) (a : Nat) (w : BitVec 64) : (h.setStock a w).outbox = h.outbox := (rfl)
@[simp] theorem Hub.setStock_tb (h : Hub) (a : Nat) (w : BitVec 64) : (h.setStock a w).tb = h.tb := (rfl)
@[simp] theorem Hub.setStock_trig (h : Hub) (a : Nat) (w : BitVec 64) : (h.setStock a w).trig = h.trig := (rfl)
@[simp] theorem Hub.setStock_trg (h : Hub) (a : Nat) (w : BitVec 64) : (h.setStock a w).trg = h.trg := (rfl)
@[simp] theorem Hub.setStock_tach (h : Hub) (a : Nat) (w : BitVec 64) : (h.setStock a w).tach = h.tach := (rfl)
@[simp] theorem Hub.setStock_kt (h : Hub) (a : Nat) (w : BitVec 64) : (h.setStock a w).kt = h.kt := (rfl)
@[simp] theorem Hub.setStock_flt (h : Hub) (a : Nat) (w : BitVec 64) : (h.setStock a w).flt = h.flt := (rfl)
@[simp] theorem Hub.setStock_job (h : Hub) (a : Nat) (w : BitVec 64) : (h.setStock a w).job = h.job := (rfl)
@[simp] theorem Hub.setStock_spc (h : Hub) (a : Nat) (w : BitVec 64) : (h.setStock a w).spc = h.spc := (rfl)
@[simp] theorem Hub.setStock_fea (h : Hub) (a : Nat) (w : BitVec 64) : (h.setStock a w).fea = h.fea := (rfl)
@[simp] theorem Hub.setStock_lim (h : Hub) (a : Nat) (w : BitVec 64) : (h.setStock a w).lim = h.lim := (rfl)
@[simp] theorem Hub.setStock_link (h : Hub) (a : Nat) (w : BitVec 64) : (h.setStock a w).link = h.link := (rfl)
@[simp] theorem Hub.setStock_cas (h : Hub) (a : Nat) (w : BitVec 64) : (h.setStock a w).cas = h.cas := (rfl)
@[simp] theorem Hub.setStock_rad (h : Hub) (a : Nat) (w : BitVec 64) : (h.setStock a w).rad = h.rad := (rfl)
@[simp] theorem Hub.setStock_hlt (h : Hub) (a : Nat) (w : BitVec 64) : (h.setStock a w).hlt = h.hlt := (rfl)
@[simp] theorem Hub.setStock_sup (h : Hub) (a : Nat) (w : BitVec 64) : (h.setStock a w).sup = h.sup := (rfl)
@[simp] theorem Hub.setStock_tbMet (h : Hub) (a : Nat) (w : BitVec 64) : (h.setStock a w).tbMet = h.tbMet := (rfl)
@[simp] theorem Hub.setStock_metFollows (h : Hub) (a : Nat) (w : BitVec 64) : (h.setStock a w).metFollows = h.metFollows := (rfl)
@[simp] theorem Hub.setStock_metFifo (h : Hub) (a : Nat) (w : BitVec 64) : (h.setStock a w).metFifo = h.metFifo := (rfl)
@[simp] theorem Hub.setStock_metGap (h : Hub) (a : Nat) (w : BitVec 64) : (h.setStock a w).metGap = h.metGap := (rfl)
@[simp] theorem Hub.setStock_cyc (h : Hub) (a : Nat) (w : BitVec 64) : (h.setStock a w).cyc = h.cyc := (rfl)
@[simp] theorem Hub.setStock_asleep (h : Hub) (a : Nat) (w : BitVec 64) : (h.setStock a w).asleep = h.asleep := (rfl)
@[simp] theorem Hub.setStock_free (h : Hub) (a : Nat) (w : BitVec 64) : (h.setStock a w).free = h.free := (rfl)
@[simp] theorem Hub.setStock_reg (h : Hub) (a : Nat) (w : BitVec 64) (x : Nat) : (h.setStock a w).reg x = h.reg x := (rfl)
@[simp] theorem Hub.setStock_rd (h : Hub) (a : Nat) (w : BitVec 64) (x : Fld) : (h.setStock a w).rd x = h.rd x := (rfl)
@[simp] theorem Hub.setStock_is (h : Hub) (a : Nat) (w : BitVec 64) (x : Fld) : (h.setStock a w).is x = h.is x := (rfl)
@[simp] theorem Hub.setStock_cell (h : Hub) (a : Nat) (w : BitVec 64) (x y z : Nat) : (h.setStock a w).cell x y z = h.cell x y z := (rfl)
@[simp] theorem Hub.setStock_cf (h : Hub) (a : Nat) (w : BitVec 64) (x y z lo len : Nat) : (h.setStock a w).cf x y z lo len = h.cf x y z lo len := (rfl)

@[simp] theorem Hub.modClk_clk (h : Hub) (f : Clk → Clk) : (h.modClk f).clk = f h.clk := (rfl)
@[simp] theorem Hub.modLdr_ldr (h : Hub) (f : Ldr → Ldr) : (h.modLdr f).ldr = f h.ldr := (rfl)
@[simp] theorem Hub.modCas_cas (h : Hub) (f : Cas → Cas) : (h.modCas f).cas = f h.cas := (rfl)
@[simp] theorem Hub.modRad_rad (h : Hub) (f : Radio → Radio) : (h.modRad f).rad = f h.rad := (rfl)
@[simp] theorem Hub.modHlt_hlt (h : Hub) (f : Hlt → Hlt) : (h.modHlt f).hlt = f h.hlt := (rfl)

/-! ### `Met.setReg` -/

@[simp] theorem Met.setReg_up (m : Met) (a : Nat) (w : Word) : (m.setReg a w).up = m.up := (rfl)
@[simp] theorem Met.setReg_cells (m : Met) (a : Nat) (w : Word) : (m.setReg a w).cells = m.cells := (rfl)
@[simp] theorem Met.setReg_outcome (m : Met) (a : Nat) (w : Word) : (m.setReg a w).outcome = m.outcome := (rfl)
@[simp] theorem Met.setReg_val (m : Met) (a : Nat) (w : Word) : (m.setReg a w).val = m.val := (rfl)
@[simp] theorem Met.setReg_incr (m : Met) (a : Nat) (w : Word) : (m.setReg a w).incr = m.incr := (rfl)
@[simp] theorem Met.setReg_netStep (m : Met) (a : Nat) (w : Word) : (m.setReg a w).netStep = m.netStep := (rfl)
@[simp] theorem Met.setReg_ch (m : Met) (a : Nat) (w : Word) : (m.setReg a w).ch = m.ch := (rfl)
@[simp] theorem Met.setReg_phase (m : Met) (a : Nat) (w : Word) : (m.setReg a w).phase = m.phase := (rfl)
@[simp] theorem Met.setReg_stopped (m : Met) (a : Nat) (w : Word) : (m.setReg a w).stopped = m.stopped := (rfl)
@[simp] theorem Met.setReg_bad (m : Met) (a : Nat) (w : Word) : (m.setReg a w).bad = m.bad := (rfl)
@[simp] theorem Met.setReg_nextCh (m : Met) (a : Nat) (w : Word) : (m.setReg a w).nextCh = m.nextCh := (rfl)
@[simp] theorem Met.setReg_corr (m : Met) (a : Nat) (w : Word) : (m.setReg a w).corr = m.corr := (rfl)
@[simp] theorem Met.setReg_seams (m : Met) (a : Nat) (w : Word) : (m.setReg a w).seams = m.seams := (rfl)
@[simp] theorem Met.setReg_forced (m : Met) (a : Nat) (w : Word) : (m.setReg a w).forced = m.forced := (rfl)
@[simp] theorem Met.setReg_log (m : Met) (a : Nat) (w : Word) : (m.setReg a w).log = m.log := (rfl)
@[simp] theorem Met.setReg_lost (m : Met) (a : Nat) (w : Word) : (m.setReg a w).lost = m.lost := (rfl)
@[simp] theorem Met.setReg_lostMask (m : Met) (a : Nat) (w : Word) : (m.setReg a w).lostMask = m.lostMask := (rfl)
@[simp] theorem Met.setReg_pos (m : Met) (a : Nat) (w : Word) : (m.setReg a w).pos = m.pos := (rfl)
@[simp] theorem Met.setReg_calCh (m : Met) (a : Nat) (w : Word) : (m.setReg a w).calCh = m.calCh := (rfl)
@[simp] theorem Met.setReg_calDur (m : Met) (a : Nat) (w : Word) : (m.setReg a w).calDur = m.calDur := (rfl)
@[simp] theorem Met.setReg_calN (m : Met) (a : Nat) (w : Word) : (m.setReg a w).calN = m.calN := (rfl)
@[simp] theorem Met.setReg_calSum (m : Met) (a : Nat) (w : Word) : (m.setReg a w).calSum = m.calSum := (rfl)
@[simp] theorem Met.setReg_calSq (m : Met) (a : Nat) (w : Word) : (m.setReg a w).calSq = m.calSq := (rfl)
@[simp] theorem Met.setReg_aligned (m : Met) (a : Nat) (w : Word) : (m.setReg a w).aligned = m.aligned := (rfl)
@[simp] theorem Met.setReg_phaseErr (m : Met) (a : Nat) (w : Word) : (m.setReg a w).phaseErr = m.phaseErr := (rfl)
@[simp] theorem Met.setReg_convs (m : Met) (a : Nat) (w : Word) : (m.setReg a w).convs = m.convs := (rfl)
@[simp] theorem Met.setReg_warn (m : Met) (a : Nat) (w : Word) : (m.setReg a w).warn = m.warn := (rfl)
@[simp] theorem Met.setReg_gen (m : Met) (a : Nat) (w : Word) : (m.setReg a w).gen = m.gen := (rfl)

/-! ### `Met.wr` -/

@[simp] theorem Met.wr_up (m : Met) (f : Fld) (n : Nat) : (m.wr f n).up = m.up := (rfl)
@[simp] theorem Met.wr_cells (m : Met) (f : Fld) (n : Nat) : (m.wr f n).cells = m.cells := (rfl)
@[simp] theorem Met.wr_outcome (m : Met) (f : Fld) (n : Nat) : (m.wr f n).outcome = m.outcome := (rfl)
@[simp] theorem Met.wr_val (m : Met) (f : Fld) (n : Nat) : (m.wr f n).val = m.val := (rfl)
@[simp] theorem Met.wr_incr (m : Met) (f : Fld) (n : Nat) : (m.wr f n).incr = m.incr := (rfl)
@[simp] theorem Met.wr_netStep (m : Met) (f : Fld) (n : Nat) : (m.wr f n).netStep = m.netStep := (rfl)
@[simp] theorem Met.wr_ch (m : Met) (f : Fld) (n : Nat) : (m.wr f n).ch = m.ch := (rfl)
@[simp] theorem Met.wr_phase (m : Met) (f : Fld) (n : Nat) : (m.wr f n).phase = m.phase := (rfl)
@[simp] theorem Met.wr_stopped (m : Met) (f : Fld) (n : Nat) : (m.wr f n).stopped = m.stopped := (rfl)
@[simp] theorem Met.wr_bad (m : Met) (f : Fld) (n : Nat) : (m.wr f n).bad = m.bad := (rfl)
@[simp] theorem Met.wr_nextCh (m : Met) (f : Fld) (n : Nat) : (m.wr f n).nextCh = m.nextCh := (rfl)
@[simp] theorem Met.wr_corr (m : Met) (f : Fld) (n : Nat) : (m.wr f n).corr = m.corr := (rfl)
@[simp] theorem Met.wr_seams (m : Met) (f : Fld) (n : Nat) : (m.wr f n).seams = m.seams := (rfl)
@[simp] theorem Met.wr_forced (m : Met) (f : Fld) (n : Nat) : (m.wr f n).forced = m.forced := (rfl)
@[simp] theorem Met.wr_log (m : Met) (f : Fld) (n : Nat) : (m.wr f n).log = m.log := (rfl)
@[simp] theorem Met.wr_lost (m : Met) (f : Fld) (n : Nat) : (m.wr f n).lost = m.lost := (rfl)
@[simp] theorem Met.wr_lostMask (m : Met) (f : Fld) (n : Nat) : (m.wr f n).lostMask = m.lostMask := (rfl)
@[simp] theorem Met.wr_pos (m : Met) (f : Fld) (n : Nat) : (m.wr f n).pos = m.pos := (rfl)
@[simp] theorem Met.wr_calCh (m : Met) (f : Fld) (n : Nat) : (m.wr f n).calCh = m.calCh := (rfl)
@[simp] theorem Met.wr_calDur (m : Met) (f : Fld) (n : Nat) : (m.wr f n).calDur = m.calDur := (rfl)
@[simp] theorem Met.wr_calN (m : Met) (f : Fld) (n : Nat) : (m.wr f n).calN = m.calN := (rfl)
@[simp] theorem Met.wr_calSum (m : Met) (f : Fld) (n : Nat) : (m.wr f n).calSum = m.calSum := (rfl)
@[simp] theorem Met.wr_calSq (m : Met) (f : Fld) (n : Nat) : (m.wr f n).calSq = m.calSq := (rfl)
@[simp] theorem Met.wr_aligned (m : Met) (f : Fld) (n : Nat) : (m.wr f n).aligned = m.aligned := (rfl)
@[simp] theorem Met.wr_phaseErr (m : Met) (f : Fld) (n : Nat) : (m.wr f n).phaseErr = m.phaseErr := (rfl)
@[simp] theorem Met.wr_convs (m : Met) (f : Fld) (n : Nat) : (m.wr f n).convs = m.convs := (rfl)
@[simp] theorem Met.wr_warn (m : Met) (f : Fld) (n : Nat) : (m.wr f n).warn = m.warn := (rfl)
@[simp] theorem Met.wr_gen (m : Met) (f : Fld) (n : Nat) : (m.wr f n).gen = m.gen := (rfl)

/-! ### `Met.on` -/

@[simp] theorem Met.on_up (m : Met) (f : Fld) : (m.on f).up = m.up := (rfl)
@[simp] theorem Met.on_cells (m : Met) (f : Fld) : (m.on f).cells = m.cells := (rfl)
@[simp] theorem Met.on_outcome (m : Met) (f : Fld) : (m.on f).outcome = m.outcome := (rfl)
@[simp] theorem Met.on_val (m : Met) (f : Fld) : (m.on f).val = m.val := (rfl)
@[simp] theorem Met.on_incr (m : Met) (f : Fld) : (m.on f).incr = m.incr := (rfl)
@[simp] theorem Met.on_netStep (m : Met) (f : Fld) : (m.on f).netStep = m.netStep := (rfl)
@[simp] theorem Met.on_ch (m : Met) (f : Fld) : (m.on f).ch = m.ch := (rfl)
@[simp] theorem Met.on_phase (m : Met) (f : Fld) : (m.on f).phase = m.phase := (rfl)
@[simp] theorem Met.on_stopped (m : Met) (f : Fld) : (m.on f).stopped = m.stopped := (rfl)
@[simp] theorem Met.on_bad (m : Met) (f : Fld) : (m.on f).bad = m.bad := (rfl)
@[simp] theorem Met.on_nextCh (m : Met) (f : Fld) : (m.on f).nextCh = m.nextCh := (rfl)
@[simp] theorem Met.on_corr (m : Met) (f : Fld) : (m.on f).corr = m.corr := (rfl)
@[simp] theorem Met.on_seams (m : Met) (f : Fld) : (m.on f).seams = m.seams := (rfl)
@[simp] theorem Met.on_forced (m : Met) (f : Fld) : (m.on f).forced = m.forced := (rfl)
@[simp] theorem Met.on_log (m : Met) (f : Fld) : (m.on f).log = m.log := (rfl)
@[simp] theorem Met.on_lost (m : Met) (f : Fld) : (m.on f).lost = m.lost := (rfl)
@[simp] theorem Met.on_lostMask (m : Met) (f : Fld) : (m.on f).lostMask = m.lostMask := (rfl)
@[simp] theorem Met.on_pos (m : Met) (f : Fld) : (m.on f).pos = m.pos := (rfl)
@[simp] theorem Met.on_calCh (m : Met) (f : Fld) : (m.on f).calCh = m.calCh := (rfl)
@[simp] theorem Met.on_calDur (m : Met) (f : Fld) : (m.on f).calDur = m.calDur := (rfl)
@[simp] theorem Met.on_calN (m : Met) (f : Fld) : (m.on f).calN = m.calN := (rfl)
@[simp] theorem Met.on_calSum (m : Met) (f : Fld) : (m.on f).calSum = m.calSum := (rfl)
@[simp] theorem Met.on_calSq (m : Met) (f : Fld) : (m.on f).calSq = m.calSq := (rfl)
@[simp] theorem Met.on_aligned (m : Met) (f : Fld) : (m.on f).aligned = m.aligned := (rfl)
@[simp] theorem Met.on_phaseErr (m : Met) (f : Fld) : (m.on f).phaseErr = m.phaseErr := (rfl)
@[simp] theorem Met.on_convs (m : Met) (f : Fld) : (m.on f).convs = m.convs := (rfl)
@[simp] theorem Met.on_warn (m : Met) (f : Fld) : (m.on f).warn = m.warn := (rfl)
@[simp] theorem Met.on_gen (m : Met) (f : Fld) : (m.on f).gen = m.gen := (rfl)

/-! ### `Met.off` -/

@[simp] theorem Met.off_up (m : Met) (f : Fld) : (m.off f).up = m.up := (rfl)
@[simp] theorem Met.off_cells (m : Met) (f : Fld) : (m.off f).cells = m.cells := (rfl)
@[simp] theorem Met.off_outcome (m : Met) (f : Fld) : (m.off f).outcome = m.outcome := (rfl)
@[simp] theorem Met.off_val (m : Met) (f : Fld) : (m.off f).val = m.val := (rfl)
@[simp] theorem Met.off_incr (m : Met) (f : Fld) : (m.off f).incr = m.incr := (rfl)
@[simp] theorem Met.off_netStep (m : Met) (f : Fld) : (m.off f).netStep = m.netStep := (rfl)
@[simp] theorem Met.off_ch (m : Met) (f : Fld) : (m.off f).ch = m.ch := (rfl)
@[simp] theorem Met.off_phase (m : Met) (f : Fld) : (m.off f).phase = m.phase := (rfl)
@[simp] theorem Met.off_stopped (m : Met) (f : Fld) : (m.off f).stopped = m.stopped := (rfl)
@[simp] theorem Met.off_bad (m : Met) (f : Fld) : (m.off f).bad = m.bad := (rfl)
@[simp] theorem Met.off_nextCh (m : Met) (f : Fld) : (m.off f).nextCh = m.nextCh := (rfl)
@[simp] theorem Met.off_corr (m : Met) (f : Fld) : (m.off f).corr = m.corr := (rfl)
@[simp] theorem Met.off_seams (m : Met) (f : Fld) : (m.off f).seams = m.seams := (rfl)
@[simp] theorem Met.off_forced (m : Met) (f : Fld) : (m.off f).forced = m.forced := (rfl)
@[simp] theorem Met.off_log (m : Met) (f : Fld) : (m.off f).log = m.log := (rfl)
@[simp] theorem Met.off_lost (m : Met) (f : Fld) : (m.off f).lost = m.lost := (rfl)
@[simp] theorem Met.off_lostMask (m : Met) (f : Fld) : (m.off f).lostMask = m.lostMask := (rfl)
@[simp] theorem Met.off_pos (m : Met) (f : Fld) : (m.off f).pos = m.pos := (rfl)
@[simp] theorem Met.off_calCh (m : Met) (f : Fld) : (m.off f).calCh = m.calCh := (rfl)
@[simp] theorem Met.off_calDur (m : Met) (f : Fld) : (m.off f).calDur = m.calDur := (rfl)
@[simp] theorem Met.off_calN (m : Met) (f : Fld) : (m.off f).calN = m.calN := (rfl)
@[simp] theorem Met.off_calSum (m : Met) (f : Fld) : (m.off f).calSum = m.calSum := (rfl)
@[simp] theorem Met.off_calSq (m : Met) (f : Fld) : (m.off f).calSq = m.calSq := (rfl)
@[simp] theorem Met.off_aligned (m : Met) (f : Fld) : (m.off f).aligned = m.aligned := (rfl)
@[simp] theorem Met.off_phaseErr (m : Met) (f : Fld) : (m.off f).phaseErr = m.phaseErr := (rfl)
@[simp] theorem Met.off_convs (m : Met) (f : Fld) : (m.off f).convs = m.convs := (rfl)
@[simp] theorem Met.off_warn (m : Met) (f : Fld) : (m.off f).warn = m.warn := (rfl)
@[simp] theorem Met.off_gen (m : Met) (f : Fld) : (m.off f).gen = m.gen := (rfl)

/-! ### `Met.count` -/

@[simp] theorem Met.count_up (m : Met) (f : Fld) (n : Nat) : (m.count f n).up = m.up := (rfl)
@[simp] theorem Met.count_cells (m : Met) (f : Fld) (n : Nat) : (m.count f n).cells = m.cells := (rfl)
@[simp] theorem Met.count_outcome (m : Met) (f : Fld) (n : Nat) : (m.count f n).outcome = m.outcome := (rfl)
@[simp] theorem Met.count_val (m : Met) (f : Fld) (n : Nat) : (m.count f n).val = m.val := (rfl)
@[simp] theorem Met.count_incr (m : Met) (f : Fld) (n : Nat) : (m.count f n).incr = m.incr := (rfl)
@[simp] theorem Met.count_netStep (m : Met) (f : Fld) (n : Nat) : (m.count f n).netStep = m.netStep := (rfl)
@[simp] theorem Met.count_ch (m : Met) (f : Fld) (n : Nat) : (m.count f n).ch = m.ch := (rfl)
@[simp] theorem Met.count_phase (m : Met) (f : Fld) (n : Nat) : (m.count f n).phase = m.phase := (rfl)
@[simp] theorem Met.count_stopped (m : Met) (f : Fld) (n : Nat) : (m.count f n).stopped = m.stopped := (rfl)
@[simp] theorem Met.count_bad (m : Met) (f : Fld) (n : Nat) : (m.count f n).bad = m.bad := (rfl)
@[simp] theorem Met.count_nextCh (m : Met) (f : Fld) (n : Nat) : (m.count f n).nextCh = m.nextCh := (rfl)
@[simp] theorem Met.count_corr (m : Met) (f : Fld) (n : Nat) : (m.count f n).corr = m.corr := (rfl)
@[simp] theorem Met.count_seams (m : Met) (f : Fld) (n : Nat) : (m.count f n).seams = m.seams := (rfl)
@[simp] theorem Met.count_forced (m : Met) (f : Fld) (n : Nat) : (m.count f n).forced = m.forced := (rfl)
@[simp] theorem Met.count_log (m : Met) (f : Fld) (n : Nat) : (m.count f n).log = m.log := (rfl)
@[simp] theorem Met.count_lost (m : Met) (f : Fld) (n : Nat) : (m.count f n).lost = m.lost := (rfl)
@[simp] theorem Met.count_lostMask (m : Met) (f : Fld) (n : Nat) : (m.count f n).lostMask = m.lostMask := (rfl)
@[simp] theorem Met.count_pos (m : Met) (f : Fld) (n : Nat) : (m.count f n).pos = m.pos := (rfl)
@[simp] theorem Met.count_calCh (m : Met) (f : Fld) (n : Nat) : (m.count f n).calCh = m.calCh := (rfl)
@[simp] theorem Met.count_calDur (m : Met) (f : Fld) (n : Nat) : (m.count f n).calDur = m.calDur := (rfl)
@[simp] theorem Met.count_calN (m : Met) (f : Fld) (n : Nat) : (m.count f n).calN = m.calN := (rfl)
@[simp] theorem Met.count_calSum (m : Met) (f : Fld) (n : Nat) : (m.count f n).calSum = m.calSum := (rfl)
@[simp] theorem Met.count_calSq (m : Met) (f : Fld) (n : Nat) : (m.count f n).calSq = m.calSq := (rfl)
@[simp] theorem Met.count_aligned (m : Met) (f : Fld) (n : Nat) : (m.count f n).aligned = m.aligned := (rfl)
@[simp] theorem Met.count_phaseErr (m : Met) (f : Fld) (n : Nat) : (m.count f n).phaseErr = m.phaseErr := (rfl)
@[simp] theorem Met.count_convs (m : Met) (f : Fld) (n : Nat) : (m.count f n).convs = m.convs := (rfl)
@[simp] theorem Met.count_warn (m : Met) (f : Fld) (n : Nat) : (m.count f n).warn = m.warn := (rfl)
@[simp] theorem Met.count_gen (m : Met) (f : Fld) (n : Nat) : (m.count f n).gen = m.gen := (rfl)

/-! ### `Met.modCh` -/

@[simp] theorem Met.modCh_regs (m : Met) (c : Nat) (f : MetCh → MetCh) : (m.modCh c f).regs = m.regs := (rfl)
@[simp] theorem Met.modCh_up (m : Met) (c : Nat) (f : MetCh → MetCh) : (m.modCh c f).up = m.up := (rfl)
@[simp] theorem Met.modCh_cells (m : Met) (c : Nat) (f : MetCh → MetCh) : (m.modCh c f).cells = m.cells := (rfl)
@[simp] theorem Met.modCh_outcome (m : Met) (c : Nat) (f : MetCh → MetCh) : (m.modCh c f).outcome = m.outcome := (rfl)
@[simp] theorem Met.modCh_val (m : Met) (c : Nat) (f : MetCh → MetCh) : (m.modCh c f).val = m.val := (rfl)
@[simp] theorem Met.modCh_incr (m : Met) (c : Nat) (f : MetCh → MetCh) : (m.modCh c f).incr = m.incr := (rfl)
@[simp] theorem Met.modCh_netStep (m : Met) (c : Nat) (f : MetCh → MetCh) : (m.modCh c f).netStep = m.netStep := (rfl)
@[simp] theorem Met.modCh_phase (m : Met) (c : Nat) (f : MetCh → MetCh) : (m.modCh c f).phase = m.phase := (rfl)
@[simp] theorem Met.modCh_stopped (m : Met) (c : Nat) (f : MetCh → MetCh) : (m.modCh c f).stopped = m.stopped := (rfl)
@[simp] theorem Met.modCh_bad (m : Met) (c : Nat) (f : MetCh → MetCh) : (m.modCh c f).bad = m.bad := (rfl)
@[simp] theorem Met.modCh_nextCh (m : Met) (c : Nat) (f : MetCh → MetCh) : (m.modCh c f).nextCh = m.nextCh := (rfl)
@[simp] theorem Met.modCh_corr (m : Met) (c : Nat) (f : MetCh → MetCh) : (m.modCh c f).corr = m.corr := (rfl)
@[simp] theorem Met.modCh_seams (m : Met) (c : Nat) (f : MetCh → MetCh) : (m.modCh c f).seams = m.seams := (rfl)
@[simp] theorem Met.modCh_forced (m : Met) (c : Nat) (f : MetCh → MetCh) : (m.modCh c f).forced = m.forced := (rfl)
@[simp] theorem Met.modCh_log (m : Met) (c : Nat) (f : MetCh → MetCh) : (m.modCh c f).log = m.log := (rfl)
@[simp] theorem Met.modCh_lost (m : Met) (c : Nat) (f : MetCh → MetCh) : (m.modCh c f).lost = m.lost := (rfl)
@[simp] theorem Met.modCh_lostMask (m : Met) (c : Nat) (f : MetCh → MetCh) : (m.modCh c f).lostMask = m.lostMask := (rfl)
@[simp] theorem Met.modCh_pos (m : Met) (c : Nat) (f : MetCh → MetCh) : (m.modCh c f).pos = m.pos := (rfl)
@[simp] theorem Met.modCh_calCh (m : Met) (c : Nat) (f : MetCh → MetCh) : (m.modCh c f).calCh = m.calCh := (rfl)
@[simp] theorem Met.modCh_calDur (m : Met) (c : Nat) (f : MetCh → MetCh) : (m.modCh c f).calDur = m.calDur := (rfl)
@[simp] theorem Met.modCh_calN (m : Met) (c : Nat) (f : MetCh → MetCh) : (m.modCh c f).calN = m.calN := (rfl)
@[simp] theorem Met.modCh_calSum (m : Met) (c : Nat) (f : MetCh → MetCh) : (m.modCh c f).calSum = m.calSum := (rfl)
@[simp] theorem Met.modCh_calSq (m : Met) (c : Nat) (f : MetCh → MetCh) : (m.modCh c f).calSq = m.calSq := (rfl)
@[simp] theorem Met.modCh_aligned (m : Met) (c : Nat) (f : MetCh → MetCh) : (m.modCh c f).aligned = m.aligned := (rfl)
@[simp] theorem Met.modCh_phaseErr (m : Met) (c : Nat) (f : MetCh → MetCh) : (m.modCh c f).phaseErr = m.phaseErr := (rfl)
@[simp] theorem Met.modCh_convs (m : Met) (c : Nat) (f : MetCh → MetCh) : (m.modCh c f).convs = m.convs := (rfl)
@[simp] theorem Met.modCh_warn (m : Met) (c : Nat) (f : MetCh → MetCh) : (m.modCh c f).warn = m.warn := (rfl)
@[simp] theorem Met.modCh_gen (m : Met) (c : Nat) (f : MetCh → MetCh) : (m.modCh c f).gen = m.gen := (rfl)
@[simp] theorem Met.modCh_reg (m : Met) (c : Nat) (f : MetCh → MetCh) (x : Nat) : (m.modCh c f).reg x = m.reg x := (rfl)
@[simp] theorem Met.modCh_rd (m : Met) (c : Nat) (f : MetCh → MetCh) (x : Fld) : (m.modCh c f).rd x = m.rd x := (rfl)

/-! ### The interrupt latch -/

@[simp] theorem latchIrq_cells (h0 : Hub) (m0 : Met) (h : Hub) (m : Met) : (latchIrq h0 m0 h m).cells = h.cells := by
  rw [latchIrq_eq]
@[simp] theorem latchIrq_clk (h0 : Hub) (m0 : Met) (h : Hub) (m : Met) : (latchIrq h0 m0 h m).clk = h.clk := by
  rw [latchIrq_eq]
@[simp] theorem latchIrq_ldr (h0 : Hub) (m0 : Met) (h : Hub) (m : Met) : (latchIrq h0 m0 h m).ldr = h.ldr := by
  rw [latchIrq_eq]
@[simp] theorem latchIrq_host (h0 : Hub) (m0 : Met) (h : Hub) (m : Met) : (latchIrq h0 m0 h m).host = h.host := by
  rw [latchIrq_eq]
@[simp] theorem latchIrq_sp (h0 : Hub) (m0 : Met) (h : Hub) (m : Met) : (latchIrq h0 m0 h m).sp = h.sp := by
  rw [latchIrq_eq]
@[simp] theorem latchIrq_tw (h0 : Hub) (m0 : Met) (h : Hub) (m : Met) : (latchIrq h0 m0 h m).tw = h.tw := by
  rw [latchIrq_eq]
@[simp] theorem latchIrq_ingress (h0 : Hub) (m0 : Met) (h : Hub) (m : Met) : (latchIrq h0 m0 h m).ingress = h.ingress := by
  rw [latchIrq_eq]
@[simp] theorem latchIrq_ctx (h0 : Hub) (m0 : Met) (h : Hub) (m : Met) : (latchIrq h0 m0 h m).ctx = h.ctx := by
  rw [latchIrq_eq]
@[simp] theorem latchIrq_stg (h0 : Hub) (m0 : Met) (h : Hub) (m : Met) : (latchIrq h0 m0 h m).stg = h.stg := by
  rw [latchIrq_eq]
@[simp] theorem latchIrq_tile (h0 : Hub) (m0 : Met) (h : Hub) (m : Met) : (latchIrq h0 m0 h m).tile = h.tile := by
  rw [latchIrq_eq]
@[simp] theorem latchIrq_ev (h0 : Hub) (m0 : Met) (h : Hub) (m : Met) : (latchIrq h0 m0 h m).ev = h.ev := by
  rw [latchIrq_eq]
@[simp] theorem latchIrq_evSeen (h0 : Hub) (m0 : Met) (h : Hub) (m : Met) : (latchIrq h0 m0 h m).evSeen = h.evSeen := by
  rw [latchIrq_eq]
@[simp] theorem latchIrq_q (h0 : Hub) (m0 : Met) (h : Hub) (m : Met) : (latchIrq h0 m0 h m).q = h.q := by
  rw [latchIrq_eq]
@[simp] theorem latchIrq_stock (h0 : Hub) (m0 : Met) (h : Hub) (m : Met) : (latchIrq h0 m0 h m).stock = h.stock := by
  rw [latchIrq_eq]
@[simp] theorem latchIrq_stockFill (h0 : Hub) (m0 : Met) (h : Hub) (m : Met) : (latchIrq h0 m0 h m).stockFill = h.stockFill := by
  rw [latchIrq_eq]
@[simp] theorem latchIrq_dbgHeld (h0 : Hub) (m0 : Met) (h : Hub) (m : Met) : (latchIrq h0 m0 h m).dbgHeld = h.dbgHeld := by
  rw [latchIrq_eq]
@[simp] theorem latchIrq_ring (h0 : Hub) (m0 : Met) (h : Hub) (m : Met) : (latchIrq h0 m0 h m).ring = h.ring := by
  rw [latchIrq_eq]
@[simp] theorem latchIrq_outbox (h0 : Hub) (m0 : Met) (h : Hub) (m : Met) : (latchIrq h0 m0 h m).outbox = h.outbox := by
  rw [latchIrq_eq]
@[simp] theorem latchIrq_tb (h0 : Hub) (m0 : Met) (h : Hub) (m : Met) : (latchIrq h0 m0 h m).tb = h.tb := by
  rw [latchIrq_eq]
@[simp] theorem latchIrq_trig (h0 : Hub) (m0 : Met) (h : Hub) (m : Met) : (latchIrq h0 m0 h m).trig = h.trig := by
  rw [latchIrq_eq]
@[simp] theorem latchIrq_trg (h0 : Hub) (m0 : Met) (h : Hub) (m : Met) : (latchIrq h0 m0 h m).trg = h.trg := by
  rw [latchIrq_eq]
@[simp] theorem latchIrq_tach (h0 : Hub) (m0 : Met) (h : Hub) (m : Met) : (latchIrq h0 m0 h m).tach = h.tach := by
  rw [latchIrq_eq]
@[simp] theorem latchIrq_kt (h0 : Hub) (m0 : Met) (h : Hub) (m : Met) : (latchIrq h0 m0 h m).kt = h.kt := by
  rw [latchIrq_eq]
@[simp] theorem latchIrq_flt (h0 : Hub) (m0 : Met) (h : Hub) (m : Met) : (latchIrq h0 m0 h m).flt = h.flt := by
  rw [latchIrq_eq]
@[simp] theorem latchIrq_job (h0 : Hub) (m0 : Met) (h : Hub) (m : Met) : (latchIrq h0 m0 h m).job = h.job := by
  rw [latchIrq_eq]
@[simp] theorem latchIrq_spc (h0 : Hub) (m0 : Met) (h : Hub) (m : Met) : (latchIrq h0 m0 h m).spc = h.spc := by
  rw [latchIrq_eq]
@[simp] theorem latchIrq_fea (h0 : Hub) (m0 : Met) (h : Hub) (m : Met) : (latchIrq h0 m0 h m).fea = h.fea := by
  rw [latchIrq_eq]
@[simp] theorem latchIrq_lim (h0 : Hub) (m0 : Met) (h : Hub) (m : Met) : (latchIrq h0 m0 h m).lim = h.lim := by
  rw [latchIrq_eq]
@[simp] theorem latchIrq_link (h0 : Hub) (m0 : Met) (h : Hub) (m : Met) : (latchIrq h0 m0 h m).link = h.link := by
  rw [latchIrq_eq]
@[simp] theorem latchIrq_cas (h0 : Hub) (m0 : Met) (h : Hub) (m : Met) : (latchIrq h0 m0 h m).cas = h.cas := by
  rw [latchIrq_eq]
@[simp] theorem latchIrq_rad (h0 : Hub) (m0 : Met) (h : Hub) (m : Met) : (latchIrq h0 m0 h m).rad = h.rad := by
  rw [latchIrq_eq]
@[simp] theorem latchIrq_hlt (h0 : Hub) (m0 : Met) (h : Hub) (m : Met) : (latchIrq h0 m0 h m).hlt = h.hlt := by
  rw [latchIrq_eq]
@[simp] theorem latchIrq_sup (h0 : Hub) (m0 : Met) (h : Hub) (m : Met) : (latchIrq h0 m0 h m).sup = h.sup := by
  rw [latchIrq_eq]
@[simp] theorem latchIrq_tbMet (h0 : Hub) (m0 : Met) (h : Hub) (m : Met) : (latchIrq h0 m0 h m).tbMet = h.tbMet := by
  rw [latchIrq_eq]
@[simp] theorem latchIrq_metFollows (h0 : Hub) (m0 : Met) (h : Hub) (m : Met) : (latchIrq h0 m0 h m).metFollows = h.metFollows := by
  rw [latchIrq_eq]
@[simp] theorem latchIrq_metFifo (h0 : Hub) (m0 : Met) (h : Hub) (m : Met) : (latchIrq h0 m0 h m).metFifo = h.metFifo := by
  rw [latchIrq_eq]
@[simp] theorem latchIrq_metGap (h0 : Hub) (m0 : Met) (h : Hub) (m : Met) : (latchIrq h0 m0 h m).metGap = h.metGap := by
  rw [latchIrq_eq]
@[simp] theorem latchIrq_cyc (h0 : Hub) (m0 : Met) (h : Hub) (m : Met) : (latchIrq h0 m0 h m).cyc = h.cyc := by
  rw [latchIrq_eq]
@[simp] theorem latchIrq_asleep (h0 : Hub) (m0 : Met) (h : Hub) (m : Met) : (latchIrq h0 m0 h m).asleep = h.asleep := by
  rw [latchIrq_eq]
@[simp] theorem latchIrq_free (h0 : Hub) (m0 : Met) (h : Hub) (m : Met) : (latchIrq h0 m0 h m).free = h.free := by
  rw [latchIrq_eq]
@[simp] theorem latchIrq_cell (h0 : Hub) (m0 : Met) (h : Hub) (m : Met) (x y z : Nat) : (latchIrq h0 m0 h m).cell x y z = h.cell x y z := by
  unfold Hub.cell; simp
@[simp] theorem latchIrq_cf (h0 : Hub) (m0 : Met) (h : Hub) (m : Met) (x y z lo len : Nat) : (latchIrq h0 m0 h m).cf x y z lo len = h.cf x y z lo len := by
  unfold Hub.cf; simp

end Sys2Proof.Machine
end

