-- ==== Sys2Proof/Laws/Met.lean ====
section
/-! SUPPORT. What the partition's shared operations can do: one lemma for each field an operation leaves as it is, the canonical
form of its tables, and the sixteen words of every record it stores (spec/15 R413 to R417). -/

namespace Sys2Proof.Machine
open Sys2Proof

theorem Met.foldl_keep {α β : Type} (g : Met → β) (f : Met → α → Met) (hf : ∀ a x, g (f a x) = g a) (l : List α) (m : Met) :
    g (l.foldl f m) = g m := by
  induction l generalizing m with
  | nil => rfl
  | cons x t ih => rw [List.foldl_cons, ih, hf]

theorem Met.foldl_inv {α : Type} (P : Met → Prop) (f : Met → α → Met) (hf : ∀ a x, P a → P (f a x)) (l : List α) (m : Met) (h : P m) :
    P (l.foldl f m) := by
  induction l generalizing m with
  | nil => exact h
  | cons x t ih => exact ih _ (hf m x h)

/-! ### `Met.clearLost` -/

@[simp] theorem Met.clearLost_regs (m : Met) : (m.clearLost).regs = m.regs := (rfl)
@[simp] theorem Met.clearLost_up (m : Met) : (m.clearLost).up = m.up := (rfl)
@[simp] theorem Met.clearLost_cells (m : Met) : (m.clearLost).cells = m.cells := (rfl)
@[simp] theorem Met.clearLost_outcome (m : Met) : (m.clearLost).outcome = m.outcome := (rfl)
@[simp] theorem Met.clearLost_val (m : Met) : (m.clearLost).val = m.val := (rfl)
@[simp] theorem Met.clearLost_incr (m : Met) : (m.clearLost).incr = m.incr := (rfl)
@[simp] theorem Met.clearLost_netStep (m : Met) : (m.clearLost).netStep = m.netStep := (rfl)
@[simp] theorem Met.clearLost_ch (m : Met) : (m.clearLost).ch = m.ch := (rfl)
@[simp] theorem Met.clearLost_phase (m : Met) : (m.clearLost).phase = m.phase := (rfl)
@[simp] theorem Met.clearLost_stopped (m : Met) : (m.clearLost).stopped = m.stopped := (rfl)
@[simp] theorem Met.clearLost_bad (m : Met) : (m.clearLost).bad = m.bad := (rfl)
@[simp] theorem Met.clearLost_nextCh (m : Met) : (m.clearLost).nextCh = m.nextCh := (rfl)
@[simp] theorem Met.clearLost_corr (m : Met) : (m.clearLost).corr = m.corr := (rfl)
@[simp] theorem Met.clearLost_seams (m : Met) : (m.clearLost).seams = m.seams := (rfl)
@[simp] theorem Met.clearLost_forced (m : Met) : (m.clearLost).forced = m.forced := (rfl)
@[simp] theorem Met.clearLost_log (m : Met) : (m.clearLost).log = m.log := (rfl)
@[simp] theorem Met.clearLost_pos (m : Met) : (m.clearLost).pos = m.pos := (rfl)
@[simp] theorem Met.clearLost_calCh (m : Met) : (m.clearLost).calCh = m.calCh := (rfl)
@[simp] theorem Met.clearLost_calDur (m : Met) : (m.clearLost).calDur = m.calDur := (rfl)
@[simp] theorem Met.clearLost_calN (m : Met) : (m.clearLost).calN = m.calN := (rfl)
@[simp] theorem Met.clearLost_calSum (m : Met) : (m.clearLost).calSum = m.calSum := (rfl)
@[simp] theorem Met.clearLost_calSq (m : Met) : (m.clearLost).calSq = m.calSq := (rfl)
@[simp] theorem Met.clearLost_aligned (m : Met) : (m.clearLost).aligned = m.aligned := (rfl)
@[simp] theorem Met.clearLost_phaseErr (m : Met) : (m.clearLost).phaseErr = m.phaseErr := (rfl)
@[simp] theorem Met.clearLost_convs (m : Met) : (m.clearLost).convs = m.convs := (rfl)
@[simp] theorem Met.clearLost_warn (m : Met) : (m.clearLost).warn = m.warn := (rfl)
@[simp] theorem Met.clearLost_gen (m : Met) : (m.clearLost).gen = m.gen := (rfl)

/-! ### `Met.clearSeams` -/

@[simp] theorem Met.clearSeams_regs (m : Met) : (m.clearSeams).regs = m.regs := (rfl)
@[simp] theorem Met.clearSeams_up (m : Met) : (m.clearSeams).up = m.up := (rfl)
@[simp] theorem Met.clearSeams_cells (m : Met) : (m.clearSeams).cells = m.cells := (rfl)
@[simp] theorem Met.clearSeams_outcome (m : Met) : (m.clearSeams).outcome = m.outcome := (rfl)
@[simp] theorem Met.clearSeams_val (m : Met) : (m.clearSeams).val = m.val := (rfl)
@[simp] theorem Met.clearSeams_incr (m : Met) : (m.clearSeams).incr = m.incr := (rfl)
@[simp] theorem Met.clearSeams_netStep (m : Met) : (m.clearSeams).netStep = m.netStep := (rfl)
@[simp] theorem Met.clearSeams_ch (m : Met) : (m.clearSeams).ch = m.ch := (rfl)
@[simp] theorem Met.clearSeams_phase (m : Met) : (m.clearSeams).phase = m.phase := (rfl)
@[simp] theorem Met.clearSeams_stopped (m : Met) : (m.clearSeams).stopped = m.stopped := (rfl)
@[simp] theorem Met.clearSeams_bad (m : Met) : (m.clearSeams).bad = m.bad := (rfl)
@[simp] theorem Met.clearSeams_nextCh (m : Met) : (m.clearSeams).nextCh = m.nextCh := (rfl)
@[simp] theorem Met.clearSeams_corr (m : Met) : (m.clearSeams).corr = m.corr := (rfl)
@[simp] theorem Met.clearSeams_log (m : Met) : (m.clearSeams).log = m.log := (rfl)
@[simp] theorem Met.clearSeams_lost (m : Met) : (m.clearSeams).lost = m.lost := (rfl)
@[simp] theorem Met.clearSeams_lostMask (m : Met) : (m.clearSeams).lostMask = m.lostMask := (rfl)
@[simp] theorem Met.clearSeams_pos (m : Met) : (m.clearSeams).pos = m.pos := (rfl)
@[simp] theorem Met.clearSeams_calCh (m : Met) : (m.clearSeams).calCh = m.calCh := (rfl)
@[simp] theorem Met.clearSeams_calDur (m : Met) : (m.clearSeams).calDur = m.calDur := (rfl)
@[simp] theorem Met.clearSeams_calN (m : Met) : (m.clearSeams).calN = m.calN := (rfl)
@[simp] theorem Met.clearSeams_calSum (m : Met) : (m.clearSeams).calSum = m.calSum := (rfl)
@[simp] theorem Met.clearSeams_calSq (m : Met) : (m.clearSeams).calSq = m.calSq := (rfl)
@[simp] theorem Met.clearSeams_aligned (m : Met) : (m.clearSeams).aligned = m.aligned := (rfl)
@[simp] theorem Met.clearSeams_phaseErr (m : Met) : (m.clearSeams).phaseErr = m.phaseErr := (rfl)
@[simp] theorem Met.clearSeams_convs (m : Met) : (m.clearSeams).convs = m.convs := (rfl)
@[simp] theorem Met.clearSeams_warn (m : Met) : (m.clearSeams).warn = m.warn := (rfl)
@[simp] theorem Met.clearSeams_gen (m : Met) : (m.clearSeams).gen = m.gen := (rfl)

/-! ### `Met.abandon` -/

@[simp] theorem Met.abandon_regs (m : Met) : (m.abandon).regs = m.regs := (rfl)
@[simp] theorem Met.abandon_up (m : Met) : (m.abandon).up = m.up := (rfl)
@[simp] theorem Met.abandon_cells (m : Met) : (m.abandon).cells = m.cells := (rfl)
@[simp] theorem Met.abandon_outcome (m : Met) : (m.abandon).outcome = m.outcome := (rfl)
@[simp] theorem Met.abandon_val (m : Met) : (m.abandon).val = m.val := (rfl)
@[simp] theorem Met.abandon_incr (m : Met) : (m.abandon).incr = m.incr := (rfl)
@[simp] theorem Met.abandon_netStep (m : Met) : (m.abandon).netStep = m.netStep := (rfl)
@[simp] theorem Met.abandon_ch (m : Met) : (m.abandon).ch = m.ch := (rfl)
@[simp] theorem Met.abandon_stopped (m : Met) : (m.abandon).stopped = m.stopped := (rfl)
@[simp] theorem Met.abandon_bad (m : Met) : (m.abandon).bad = m.bad := (rfl)
@[simp] theorem Met.abandon_nextCh (m : Met) : (m.abandon).nextCh = m.nextCh := (rfl)
@[simp] theorem Met.abandon_corr (m : Met) : (m.abandon).corr = m.corr := (rfl)
@[simp] theorem Met.abandon_seams (m : Met) : (m.abandon).seams = m.seams := (rfl)
@[simp] theorem Met.abandon_forced (m : Met) : (m.abandon).forced = m.forced := (rfl)
@[simp] theorem Met.abandon_log (m : Met) : (m.abandon).log = m.log := (rfl)
@[simp] theorem Met.abandon_lost (m : Met) : (m.abandon).lost = m.lost := (rfl)
@[simp] theorem Met.abandon_lostMask (m : Met) : (m.abandon).lostMask = m.lostMask := (rfl)
@[simp] theorem Met.abandon_pos (m : Met) : (m.abandon).pos = m.pos := (rfl)
@[simp] theorem Met.abandon_calCh (m : Met) : (m.abandon).calCh = m.calCh := (rfl)
@[simp] theorem Met.abandon_calDur (m : Met) : (m.abandon).calDur = m.calDur := (rfl)
@[simp] theorem Met.abandon_calN (m : Met) : (m.abandon).calN = m.calN := (rfl)
@[simp] theorem Met.abandon_calSum (m : Met) : (m.abandon).calSum = m.calSum := (rfl)
@[simp] theorem Met.abandon_calSq (m : Met) : (m.abandon).calSq = m.calSq := (rfl)
@[simp] theorem Met.abandon_aligned (m : Met) : (m.abandon).aligned = m.aligned := (rfl)
@[simp] theorem Met.abandon_phaseErr (m : Met) : (m.abandon).phaseErr = m.phaseErr := (rfl)
@[simp] theorem Met.abandon_convs (m : Met) : (m.abandon).convs = m.convs := (rfl)
@[simp] theorem Met.abandon_warn (m : Met) : (m.abandon).warn = m.warn := (rfl)
@[simp] theorem Met.abandon_gen (m : Met) : (m.abandon).gen = m.gen := (rfl)

/-! ### `Met.railLow` -/

@[simp] theorem Met.railLow_regs (m : Met) (rail : Nat) : (m.railLow rail).regs = m.regs := (rfl)
@[simp] theorem Met.railLow_up (m : Met) (rail : Nat) : (m.railLow rail).up = m.up := (rfl)
@[simp] theorem Met.railLow_cells (m : Met) (rail : Nat) : (m.railLow rail).cells = m.cells := (rfl)
@[simp] theorem Met.railLow_outcome (m : Met) (rail : Nat) : (m.railLow rail).outcome = m.outcome := (rfl)
@[simp] theorem Met.railLow_val (m : Met) (rail : Nat) : (m.railLow rail).val = m.val := (rfl)
@[simp] theorem Met.railLow_incr (m : Met) (rail : Nat) : (m.railLow rail).incr = m.incr := (rfl)
@[simp] theorem Met.railLow_netStep (m : Met) (rail : Nat) : (m.railLow rail).netStep = m.netStep := (rfl)
@[simp] theorem Met.railLow_ch (m : Met) (rail : Nat) : (m.railLow rail).ch = m.ch := (rfl)
@[simp] theorem Met.railLow_phase (m : Met) (rail : Nat) : (m.railLow rail).phase = m.phase := (rfl)
@[simp] theorem Met.railLow_stopped (m : Met) (rail : Nat) : (m.railLow rail).stopped = m.stopped := (rfl)
@[simp] theorem Met.railLow_bad (m : Met) (rail : Nat) : (m.railLow rail).bad = m.bad := (rfl)
@[simp] theorem Met.railLow_nextCh (m : Met) (rail : Nat) : (m.railLow rail).nextCh = m.nextCh := (rfl)
@[simp] theorem Met.railLow_corr (m : Met) (rail : Nat) : (m.railLow rail).corr = m.corr := (rfl)
@[simp] theorem Met.railLow_seams (m : Met) (rail : Nat) : (m.railLow rail).seams = m.seams := (rfl)
@[simp] theorem Met.railLow_forced (m : Met) (rail : Nat) : (m.railLow rail).forced = m.forced := (rfl)
@[simp] theorem Met.railLow_log (m : Met) (rail : Nat) : (m.railLow rail).log = m.log := (rfl)
@[simp] theorem Met.railLow_lost (m : Met) (rail : Nat) : (m.railLow rail).lost = m.lost := (rfl)
@[simp] theorem Met.railLow_lostMask (m : Met) (rail : Nat) : (m.railLow rail).lostMask = m.lostMask := (rfl)
@[simp] theorem Met.railLow_pos (m : Met) (rail : Nat) : (m.railLow rail).pos = m.pos := (rfl)
@[simp] theorem Met.railLow_calCh (m : Met) (rail : Nat) : (m.railLow rail).calCh = m.calCh := (rfl)
@[simp] theorem Met.railLow_calDur (m : Met) (rail : Nat) : (m.railLow rail).calDur = m.calDur := (rfl)
@[simp] theorem Met.railLow_calN (m : Met) (rail : Nat) : (m.railLow rail).calN = m.calN := (rfl)
@[simp] theorem Met.railLow_calSum (m : Met) (rail : Nat) : (m.railLow rail).calSum = m.calSum := (rfl)
@[simp] theorem Met.railLow_calSq (m : Met) (rail : Nat) : (m.railLow rail).calSq = m.calSq := (rfl)
@[simp] theorem Met.railLow_aligned (m : Met) (rail : Nat) : (m.railLow rail).aligned = m.aligned := (rfl)
@[simp] theorem Met.railLow_phaseErr (m : Met) (rail : Nat) : (m.railLow rail).phaseErr = m.phaseErr := (rfl)
@[simp] theorem Met.railLow_convs (m : Met) (rail : Nat) : (m.railLow rail).convs = m.convs := (rfl)
@[simp] theorem Met.railLow_gen (m : Met) (rail : Nat) : (m.railLow rail).gen = m.gen := (rfl)

/-! ### `Met.setTime` -/

@[simp] theorem Met.setTime_regs (m : Met) (v : Nat) (net : Bool) : (m.setTime v net).regs = m.regs := (rfl)
@[simp] theorem Met.setTime_up (m : Met) (v : Nat) (net : Bool) : (m.setTime v net).up = m.up := (rfl)
@[simp] theorem Met.setTime_cells (m : Met) (v : Nat) (net : Bool) : (m.setTime v net).cells = m.cells := (rfl)
@[simp] theorem Met.setTime_outcome (m : Met) (v : Nat) (net : Bool) : (m.setTime v net).outcome = m.outcome := (rfl)
@[simp] theorem Met.setTime_incr (m : Met) (v : Nat) (net : Bool) : (m.setTime v net).incr = m.incr := (rfl)
@[simp] theorem Met.setTime_ch (m : Met) (v : Nat) (net : Bool) : (m.setTime v net).ch = m.ch := (rfl)
@[simp] theorem Met.setTime_phase (m : Met) (v : Nat) (net : Bool) : (m.setTime v net).phase = m.phase := (rfl)
@[simp] theorem Met.setTime_stopped (m : Met) (v : Nat) (net : Bool) : (m.setTime v net).stopped = m.stopped := (rfl)
@[simp] theorem Met.setTime_bad (m : Met) (v : Nat) (net : Bool) : (m.setTime v net).bad = m.bad := (rfl)
@[simp] theorem Met.setTime_nextCh (m : Met) (v : Nat) (net : Bool) : (m.setTime v net).nextCh = m.nextCh := (rfl)
@[simp] theorem Met.setTime_corr (m : Met) (v : Nat) (net : Bool) : (m.setTime v net).corr = m.corr := (rfl)
@[simp] theorem Met.setTime_seams (m : Met) (v : Nat) (net : Bool) : (m.setTime v net).seams = m.seams := (rfl)
@[simp] theorem Met.setTime_forced (m : Met) (v : Nat) (net : Bool) : (m.setTime v net).forced = m.forced := (rfl)
@[simp] theorem Met.setTime_log (m : Met) (v : Nat) (net : Bool) : (m.setTime v net).log = m.log := (rfl)
@[simp] theorem Met.setTime_lost (m : Met) (v : Nat) (net : Bool) : (m.setTime v net).lost = m.lost := (rfl)
@[simp] theorem Met.setTime_lostMask (m : Met) (v : Nat) (net : Bool) : (m.setTime v net).lostMask = m.lostMask := (rfl)
@[simp] theorem Met.setTime_pos (m : Met) (v : Nat) (net : Bool) : (m.setTime v net).pos = m.pos := (rfl)
@[simp] theorem Met.setTime_calCh (m : Met) (v : Nat) (net : Bool) : (m.setTime v net).calCh = m.calCh := (rfl)
@[simp] theorem Met.setTime_calDur (m : Met) (v : Nat) (net : Bool) : (m.setTime v net).calDur = m.calDur := (rfl)
@[simp] theorem Met.setTime_calN (m : Met) (v : Nat) (net : Bool) : (m.setTime v net).calN = m.calN := (rfl)
@[simp] theorem Met.setTime_calSum (m : Met) (v : Nat) (net : Bool) : (m.setTime v net).calSum = m.calSum := (rfl)
@[simp] theorem Met.setTime_calSq (m : Met) (v : Nat) (net : Bool) : (m.setTime v net).calSq = m.calSq := (rfl)
@[simp] theorem Met.setTime_aligned (m : Met) (v : Nat) (net : Bool) : (m.setTime v net).aligned = m.aligned := (rfl)
@[simp] theorem Met.setTime_phaseErr (m : Met) (v : Nat) (net : Bool) : (m.setTime v net).phaseErr = m.phaseErr := (rfl)
@[simp] theorem Met.setTime_convs (m : Met) (v : Nat) (net : Bool) : (m.setTime v net).convs = m.convs := (rfl)
@[simp] theorem Met.setTime_warn (m : Met) (v : Nat) (net : Bool) : (m.setTime v net).warn = m.warn := (rfl)
@[simp] theorem Met.setTime_gen (m : Met) (v : Nat) (net : Bool) : (m.setTime v net).gen = m.gen := (rfl)

/-! ### `Met.setPos` -/

@[simp] theorem Met.setPos_regs (m : Met) (p : Nat × Nat × Nat) : (m.setPos p).regs = m.regs := (rfl)
@[simp] theorem Met.setPos_up (m : Met) (p : Nat × Nat × Nat) : (m.setPos p).up = m.up := (rfl)
@[simp] theorem Met.setPos_cells (m : Met) (p : Nat × Nat × Nat) : (m.setPos p).cells = m.cells := (rfl)
@[simp] theorem Met.setPos_outcome (m : Met) (p : Nat × Nat × Nat) : (m.setPos p).outcome = m.outcome := (rfl)
@[simp] theorem Met.setPos_val (m : Met) (p : Nat × Nat × Nat) : (m.setPos p).val = m.val := (rfl)
@[simp] theorem Met.setPos_incr (m : Met) (p : Nat × Nat × Nat) : (m.setPos p).incr = m.incr := (rfl)
@[simp] theorem Met.setPos_netStep (m : Met) (p : Nat × Nat × Nat) : (m.setPos p).netStep = m.netStep := (rfl)
@[simp] theorem Met.setPos_ch (m : Met) (p : Nat × Nat × Nat) : (m.setPos p).ch = m.ch := (rfl)
@[simp] theorem Met.setPos_phase (m : Met) (p : Nat × Nat × Nat) : (m.setPos p).phase = m.phase := (rfl)
@[simp] theorem Met.setPos_stopped (m : Met) (p : Nat × Nat × Nat) : (m.setPos p).stopped = m.stopped := (rfl)
@[simp] theorem Met.setPos_bad (m : Met) (p : Nat × Nat × Nat) : (m.setPos p).bad = m.bad := (rfl)
@[simp] theorem Met.setPos_nextCh (m : Met) (p : Nat × Nat × Nat) : (m.setPos p).nextCh = m.nextCh := (rfl)
@[simp] theorem Met.setPos_corr (m : Met) (p : Nat × Nat × Nat) : (m.setPos p).corr = m.corr := (rfl)
@[simp] theorem Met.setPos_seams (m : Met) (p : Nat × Nat × Nat) : (m.setPos p).seams = m.seams := (rfl)
@[simp] theorem Met.setPos_forced (m : Met) (p : Nat × Nat × Nat) : (m.setPos p).forced = m.forced := (rfl)
@[simp] theorem Met.setPos_log (m : Met) (p : Nat × Nat × Nat) : (m.setPos p).log = m.log := (rfl)
@[simp] theorem Met.setPos_lost (m : Met) (p : Nat × Nat × Nat) : (m.setPos p).lost = m.lost := (rfl)
@[simp] theorem Met.setPos_lostMask (m : Met) (p : Nat × Nat × Nat) : (m.setPos p).lostMask = m.lostMask := (rfl)
@[simp] theorem Met.setPos_calCh (m : Met) (p : Nat × Nat × Nat) : (m.setPos p).calCh = m.calCh := (rfl)
@[simp] theorem Met.setPos_calDur (m : Met) (p : Nat × Nat × Nat) : (m.setPos p).calDur = m.calDur := (rfl)
@[simp] theorem Met.setPos_calN (m : Met) (p : Nat × Nat × Nat) : (m.setPos p).calN = m.calN := (rfl)
@[simp] theorem Met.setPos_calSum (m : Met) (p : Nat × Nat × Nat) : (m.setPos p).calSum = m.calSum := (rfl)
@[simp] theorem Met.setPos_calSq (m : Met) (p : Nat × Nat × Nat) : (m.setPos p).calSq = m.calSq := (rfl)
@[simp] theorem Met.setPos_aligned (m : Met) (p : Nat × Nat × Nat) : (m.setPos p).aligned = m.aligned := (rfl)
@[simp] theorem Met.setPos_phaseErr (m : Met) (p : Nat × Nat × Nat) : (m.setPos p).phaseErr = m.phaseErr := (rfl)
@[simp] theorem Met.setPos_convs (m : Met) (p : Nat × Nat × Nat) : (m.setPos p).convs = m.convs := (rfl)
@[simp] theorem Met.setPos_warn (m : Met) (p : Nat × Nat × Nat) : (m.setPos p).warn = m.warn := (rfl)
@[simp] theorem Met.setPos_gen (m : Met) (p : Nat × Nat × Nat) : (m.setPos p).gen = m.gen := (rfl)

/-! ### `Met.setCells` -/

@[simp] theorem Met.setCells_regs (m : Met) (l : NMap Word) (k : Nat) : (m.setCells l k).regs = m.regs := (rfl)
@[simp] theorem Met.setCells_up (m : Met) (l : NMap Word) (k : Nat) : (m.setCells l k).up = m.up := (rfl)
@[simp] theorem Met.setCells_val (m : Met) (l : NMap Word) (k : Nat) : (m.setCells l k).val = m.val := (rfl)
@[simp] theorem Met.setCells_incr (m : Met) (l : NMap Word) (k : Nat) : (m.setCells l k).incr = m.incr := (rfl)
@[simp] theorem Met.setCells_netStep (m : Met) (l : NMap Word) (k : Nat) : (m.setCells l k).netStep = m.netStep := (rfl)
@[simp] theorem Met.setCells_ch (m : Met) (l : NMap Word) (k : Nat) : (m.setCells l k).ch = m.ch := (rfl)
@[simp] theorem Met.setCells_phase (m : Met) (l : NMap Word) (k : Nat) : (m.setCells l k).phase = m.phase := (rfl)
@[simp] theorem Met.setCells_stopped (m : Met) (l : NMap Word) (k : Nat) : (m.setCells l k).stopped = m.stopped := (rfl)
@[simp] theorem Met.setCells_bad (m : Met) (l : NMap Word) (k : Nat) : (m.setCells l k).bad = m.bad := (rfl)
@[simp] theorem Met.setCells_nextCh (m : Met) (l : NMap Word) (k : Nat) : (m.setCells l k).nextCh = m.nextCh := (rfl)
@[simp] theorem Met.setCells_corr (m : Met) (l : NMap Word) (k : Nat) : (m.setCells l k).corr = m.corr := (rfl)
@[simp] theorem Met.setCells_seams (m : Met) (l : NMap Word) (k : Nat) : (m.setCells l k).seams = m.seams := (rfl)
@[simp] theorem Met.setCells_forced (m : Met) (l : NMap Word) (k : Nat) : (m.setCells l k).forced = m.forced := (rfl)
@[simp] theorem Met.setCells_log (m : Met) (l : NMap Word) (k : Nat) : (m.setCells l k).log = m.log := (rfl)
@[simp] theorem Met.setCells_lost (m : Met) (l : NMap Word) (k : Nat) : (m.setCells l k).lost = m.lost := (rfl)
@[simp] theorem Met.setCells_lostMask (m : Met) (l : NMap Word) (k : Nat) : (m.setCells l k).lostMask = m.lostMask := (rfl)
@[simp] theorem Met.setCells_pos (m : Met) (l : NMap Word) (k : Nat) : (m.setCells l k).pos = m.pos := (rfl)
@[simp] theorem Met.setCells_calCh (m : Met) (l : NMap Word) (k : Nat) : (m.setCells l k).calCh = m.calCh := (rfl)
@[simp] theorem Met.setCells_calDur (m : Met) (l : NMap Word) (k : Nat) : (m.setCells l k).calDur = m.calDur := (rfl)
@[simp] theorem Met.setCells_calN (m : Met) (l : NMap Word) (k : Nat) : (m.setCells l k).calN = m.calN := (rfl)
@[simp] theorem Met.setCells_calSum (m : Met) (l : NMap Word) (k : Nat) : (m.setCells l k).calSum = m.calSum := (rfl)
@[simp] theorem Met.setCells_calSq (m : Met) (l : NMap Word) (k : Nat) : (m.setCells l k).calSq = m.calSq := (rfl)
@[simp] theorem Met.setCells_aligned (m : Met) (l : NMap Word) (k : Nat) : (m.setCells l k).aligned = m.aligned := (rfl)
@[simp] theorem Met.setCells_phaseErr (m : Met) (l : NMap Word) (k : Nat) : (m.setCells l k).phaseErr = m.phaseErr := (rfl)
@[simp] theorem Met.setCells_convs (m : Met) (l : NMap Word) (k : Nat) : (m.setCells l k).convs = m.convs := (rfl)
@[simp] theorem Met.setCells_warn (m : Met) (l : NMap Word) (k : Nat) : (m.setCells l k).warn = m.warn := (rfl)
@[simp] theorem Met.setCells_gen (m : Met) (l : NMap Word) (k : Nat) : (m.setCells l k).gen = m.gen := (rfl)

/-! ### `Met.wr8` -/

@[simp] theorem Met.wr8_up (m : Met) (a : Nat) (ws : List Word) : (m.wr8 a ws).up = m.up := by
  unfold Met.wr8; exact Met.foldl_keep (fun x : Met => x.up) _ (fun _ _ => by simp) _ _
@[simp] theorem Met.wr8_cells (m : Met) (a : Nat) (ws : List Word) : (m.wr8 a ws).cells = m.cells := by
  unfold Met.wr8; exact Met.foldl_keep (fun x : Met => x.cells) _ (fun _ _ => by simp) _ _
@[simp] theorem Met.wr8_outcome (m : Met) (a : Nat) (ws : List Word) : (m.wr8 a ws).outcome = m.outcome := by
  unfold Met.wr8; exact Met.foldl_keep (fun x : Met => x.outcome) _ (fun _ _ => by simp) _ _
@[simp] theorem Met.wr8_val (m : Met) (a : Nat) (ws : List Word) : (m.wr8 a ws).val = m.val := by
  unfold Met.wr8; exact Met.foldl_keep (fun x : Met => x.val) _ (fun _ _ => by simp) _ _
@[simp] theorem Met.wr8_incr (m : Met) (a : Nat) (ws : List Word) : (m.wr8 a ws).incr = m.incr := by
  unfold Met.wr8; exact Met.foldl_keep (fun x : Met => x.incr) _ (fun _ _ => by simp) _ _
@[simp] theorem Met.wr8_netStep (m : Met) (a : Nat) (ws : List Word) : (m.wr8 a ws).netStep = m.netStep := by
  unfold Met.wr8; exact Met.foldl_keep (fun x : Met => x.netStep) _ (fun _ _ => by simp) _ _
@[simp] theorem Met.wr8_ch (m : Met) (a : Nat) (ws : List Word) : (m.wr8 a ws).ch = m.ch := by
  unfold Met.wr8; exact Met.foldl_keep (fun x : Met => x.ch) _ (fun _ _ => by simp) _ _
@[simp] theorem Met.wr8_phase (m : Met) (a : Nat) (ws : List Word) : (m.wr8 a ws).phase = m.phase := by
  unfold Met.wr8; exact Met.foldl_keep (fun x : Met => x.phase) _ (fun _ _ => by simp) _ _
@[simp] theorem Met.wr8_stopped (m : Met) (a : Nat) (ws : List Word) : (m.wr8 a ws).stopped = m.stopped := by
  unfold Met.wr8; exact Met.foldl_keep (fun x : Met => x.stopped) _ (fun _ _ => by simp) _ _
@[simp] theorem Met.wr8_bad (m : Met) (a : Nat) (ws : List Word) : (m.wr8 a ws).bad = m.bad := by
  unfold Met.wr8; exact Met.foldl_keep (fun x : Met => x.bad) _ (fun _ _ => by simp) _ _
@[simp] theorem Met.wr8_nextCh (m : Met) (a : Nat) (ws : List Word) : (m.wr8 a ws).nextCh = m.nextCh := by
  unfold Met.wr8; exact Met.foldl_keep (fun x : Met => x.nextCh) _ (fun _ _ => by simp) _ _
@[simp] theorem Met.wr8_corr (m : Met) (a : Nat) (ws : List Word) : (m.wr8 a ws).corr = m.corr := by
  unfold Met.wr8; exact Met.foldl_keep (fun x : Met => x.corr) _ (fun _ _ => by simp) _ _
@[simp] theorem Met.wr8_seams (m : Met) (a : Nat) (ws : List Word) : (m.wr8 a ws).seams = m.seams := by
  unfold Met.wr8; exact Met.foldl_keep (fun x : Met => x.seams) _ (fun _ _ => by simp) _ _
@[simp] theorem Met.wr8_forced (m : Met) (a : Nat) (ws : List Word) : (m.wr8 a ws).forced = m.forced := by
  unfold Met.wr8; exact Met.foldl_keep (fun x : Met => x.forced) _ (fun _ _ => by simp) _ _
@[simp] theorem Met.wr8_log (m : Met) (a : Nat) (ws : List Word) : (m.wr8 a ws).log = m.log := by
  unfold Met.wr8; exact Met.foldl_keep (fun x : Met => x.log) _ (fun _ _ => by simp) _ _
@[simp] theorem Met.wr8_lost (m : Met) (a : Nat) (ws : List Word) : (m.wr8 a ws).lost = m.lost := by
  unfold Met.wr8; exact Met.foldl_keep (fun x : Met => x.lost) _ (fun _ _ => by simp) _ _
@[simp] theorem Met.wr8_lostMask (m : Met) (a : Nat) (ws : List Word) : (m.wr8 a ws).lostMask = m.lostMask := by
  unfold Met.wr8; exact Met.foldl_keep (fun x : Met => x.lostMask) _ (fun _ _ => by simp) _ _
@[simp] theorem Met.wr8_pos (m : Met) (a : Nat) (ws : List Word) : (m.wr8 a ws).pos = m.pos := by
  unfold Met.wr8; exact Met.foldl_keep (fun x : Met => x.pos) _ (fun _ _ => by simp) _ _
@[simp] theorem Met.wr8_calCh (m : Met) (a : Nat) (ws : List Word) : (m.wr8 a ws).calCh = m.calCh := by
  unfold Met.wr8; exact Met.foldl_keep (fun x : Met => x.calCh) _ (fun _ _ => by simp) _ _
@[simp] theorem Met.wr8_calDur (m : Met) (a : Nat) (ws : List Word) : (m.wr8 a ws).calDur = m.calDur := by
  unfold Met.wr8; exact Met.foldl_keep (fun x : Met => x.calDur) _ (fun _ _ => by simp) _ _
@[simp] theorem Met.wr8_calN (m : Met) (a : Nat) (ws : List Word) : (m.wr8 a ws).calN = m.calN := by
  unfold Met.wr8; exact Met.foldl_keep (fun x : Met => x.calN) _ (fun _ _ => by simp) _ _
@[simp] theorem Met.wr8_calSum (m : Met) (a : Nat) (ws : List Word) : (m.wr8 a ws).calSum = m.calSum := by
  unfold Met.wr8; exact Met.foldl_keep (fun x : Met => x.calSum) _ (fun _ _ => by simp) _ _
@[simp] theorem Met.wr8_calSq (m : Met) (a : Nat) (ws : List Word) : (m.wr8 a ws).calSq = m.calSq := by
  unfold Met.wr8; exact Met.foldl_keep (fun x : Met => x.calSq) _ (fun _ _ => by simp) _ _
@[simp] theorem Met.wr8_aligned (m : Met) (a : Nat) (ws : List Word) : (m.wr8 a ws).aligned = m.aligned := by
  unfold Met.wr8; exact Met.foldl_keep (fun x : Met => x.aligned) _ (fun _ _ => by simp) _ _
@[simp] theorem Met.wr8_phaseErr (m : Met) (a : Nat) (ws : List Word) : (m.wr8 a ws).phaseErr = m.phaseErr := by
  unfold Met.wr8; exact Met.foldl_keep (fun x : Met => x.phaseErr) _ (fun _ _ => by simp) _ _
@[simp] theorem Met.wr8_convs (m : Met) (a : Nat) (ws : List Word) : (m.wr8 a ws).convs = m.convs := by
  unfold Met.wr8; exact Met.foldl_keep (fun x : Met => x.convs) _ (fun _ _ => by simp) _ _
@[simp] theorem Met.wr8_warn (m : Met) (a : Nat) (ws : List Word) : (m.wr8 a ws).warn = m.warn := by
  unfold Met.wr8; exact Met.foldl_keep (fun x : Met => x.warn) _ (fun _ _ => by simp) _ _
@[simp] theorem Met.wr8_gen (m : Met) (a : Nat) (ws : List Word) : (m.wr8 a ws).gen = m.gen := by
  unfold Met.wr8; exact Met.foldl_keep (fun x : Met => x.gen) _ (fun _ _ => by simp) _ _

/-! ### `Met.showFree` -/

@[simp] theorem Met.showFree_up (m : Met) : (m.showFree).up = m.up := by
  unfold Met.showFree; dsimp only; split <;> rfl
@[simp] theorem Met.showFree_cells (m : Met) : (m.showFree).cells = m.cells := by
  unfold Met.showFree; dsimp only; split <;> rfl
@[simp] theorem Met.showFree_outcome (m : Met) : (m.showFree).outcome = m.outcome := by
  unfold Met.showFree; dsimp only; split <;> rfl
@[simp] theorem Met.showFree_val (m : Met) : (m.showFree).val = m.val := by
  unfold Met.showFree; dsimp only; split <;> rfl
@[simp] theorem Met.showFree_incr (m : Met) : (m.showFree).incr = m.incr := by
  unfold Met.showFree; dsimp only; split <;> rfl
@[simp] theorem Met.showFree_netStep (m : Met) : (m.showFree).netStep = m.netStep := by
  unfold Met.showFree; dsimp only; split <;> rfl
@[simp] theorem Met.showFree_ch (m : Met) : (m.showFree).ch = m.ch := by
  unfold Met.showFree; dsimp only; split <;> rfl
@[simp] theorem Met.showFree_phase (m : Met) : (m.showFree).phase = m.phase := by
  unfold Met.showFree; dsimp only; split <;> rfl
@[simp] theorem Met.showFree_stopped (m : Met) : (m.showFree).stopped = m.stopped := by
  unfold Met.showFree; dsimp only; split <;> rfl
@[simp] theorem Met.showFree_bad (m : Met) : (m.showFree).bad = m.bad := by
  unfold Met.showFree; dsimp only; split <;> rfl
@[simp] theorem Met.showFree_nextCh (m : Met) : (m.showFree).nextCh = m.nextCh := by
  unfold Met.showFree; dsimp only; split <;> rfl
@[simp] theorem Met.showFree_corr (m : Met) : (m.showFree).corr = m.corr := by
  unfold Met.showFree; dsimp only; split <;> rfl
@[simp] theorem Met.showFree_seams (m : Met) : (m.showFree).seams = m.seams := by
  unfold Met.showFree; dsimp only; split <;> rfl
@[simp] theorem Met.showFree_forced (m : Met) : (m.showFree).forced = m.forced := by
  unfold Met.showFree; dsimp only; split <;> rfl
@[simp] theorem Met.showFree_log (m : Met) : (m.showFree).log = m.log := by
  unfold Met.showFree; dsimp only; split <;> rfl
@[simp] theorem Met.showFree_lost (m : Met) : (m.showFree).lost = m.lost := by
  unfold Met.showFree; dsimp only; split <;> rfl
@[simp] theorem Met.showFree_lostMask (m : Met) : (m.showFree).lostMask = m.lostMask := by
  unfold Met.showFree; dsimp only; split <;> rfl
@[simp] theorem Met.showFree_pos (m : Met) : (m.showFree).pos = m.pos := by
  unfold Met.showFree; dsimp only; split <;> rfl
@[simp] theorem Met.showFree_calCh (m : Met) : (m.showFree).calCh = m.calCh := by
  unfold Met.showFree; dsimp only; split <;> rfl
@[simp] theorem Met.showFree_calDur (m : Met) : (m.showFree).calDur = m.calDur := by
  unfold Met.showFree; dsimp only; split <;> rfl
@[simp] theorem Met.showFree_calN (m : Met) : (m.showFree).calN = m.calN := by
  unfold Met.showFree; dsimp only; split <;> rfl
@[simp] theorem Met.showFree_calSum (m : Met) : (m.showFree).calSum = m.calSum := by
  unfold Met.showFree; dsimp only; split <;> rfl
@[simp] theorem Met.showFree_calSq (m : Met) : (m.showFree).calSq = m.calSq := by
  unfold Met.showFree; dsimp only; split <;> rfl
@[simp] theorem Met.showFree_aligned (m : Met) : (m.showFree).aligned = m.aligned := by
  unfold Met.showFree; dsimp only; split <;> rfl
@[simp] theorem Met.showFree_phaseErr (m : Met) : (m.showFree).phaseErr = m.phaseErr := by
  unfold Met.showFree; dsimp only; split <;> rfl
@[simp] theorem Met.showFree_convs (m : Met) : (m.showFree).convs = m.convs := by
  unfold Met.showFree; dsimp only; split <;> rfl
@[simp] theorem Met.showFree_warn (m : Met) : (m.showFree).warn = m.warn := by
  unfold Met.showFree; dsimp only; split <;> rfl
@[simp] theorem Met.showFree_gen (m : Met) : (m.showFree).gen = m.gen := by
  unfold Met.showFree; dsimp only; split <;> rfl

/-! ### `Met.loseEntry` -/

@[simp] theorem Met.loseEntry_up (m : Met) (typ : Nat) : (m.loseEntry typ).up = m.up := (rfl)
@[simp] theorem Met.loseEntry_cells (m : Met) (typ : Nat) : (m.loseEntry typ).cells = m.cells := (rfl)
@[simp] theorem Met.loseEntry_outcome (m : Met) (typ : Nat) : (m.loseEntry typ).outcome = m.outcome := (rfl)
@[simp] theorem Met.loseEntry_val (m : Met) (typ : Nat) : (m.loseEntry typ).val = m.val := (rfl)
@[simp] theorem Met.loseEntry_incr (m : Met) (typ : Nat) : (m.loseEntry typ).incr = m.incr := (rfl)
@[simp] theorem Met.loseEntry_netStep (m : Met) (typ : Nat) : (m.loseEntry typ).netStep = m.netStep := (rfl)
@[simp] theorem Met.loseEntry_ch (m : Met) (typ : Nat) : (m.loseEntry typ).ch = m.ch := (rfl)
@[simp] theorem Met.loseEntry_phase (m : Met) (typ : Nat) : (m.loseEntry typ).phase = m.phase := (rfl)
@[simp] theorem Met.loseEntry_stopped (m : Met) (typ : Nat) : (m.loseEntry typ).stopped = m.stopped := (rfl)
@[simp] theorem Met.loseEntry_bad (m : Met) (typ : Nat) : (m.loseEntry typ).bad = m.bad := (rfl)
@[simp] theorem Met.loseEntry_nextCh (m : Met) (typ : Nat) : (m.loseEntry typ).nextCh = m.nextCh := (rfl)
@[simp] theorem Met.loseEntry_corr (m : Met) (typ : Nat) : (m.loseEntry typ).corr = m.corr := (rfl)
@[simp] theorem Met.loseEntry_seams (m : Met) (typ : Nat) : (m.loseEntry typ).seams = m.seams := (rfl)
@[simp] theorem Met.loseEntry_forced (m : Met) (typ : Nat) : (m.loseEntry typ).forced = m.forced := (rfl)
@[simp] theorem Met.loseEntry_log (m : Met) (typ : Nat) : (m.loseEntry typ).log = m.log := (rfl)
@[simp] theorem Met.loseEntry_pos (m : Met) (typ : Nat) : (m.loseEntry typ).pos = m.pos := (rfl)
@[simp] theorem Met.loseEntry_calCh (m : Met) (typ : Nat) : (m.loseEntry typ).calCh = m.calCh := (rfl)
@[simp] theorem Met.loseEntry_calDur (m : Met) (typ : Nat) : (m.loseEntry typ).calDur = m.calDur := (rfl)
@[simp] theorem Met.loseEntry_calN (m : Met) (typ : Nat) : (m.loseEntry typ).calN = m.calN := (rfl)
@[simp] theorem Met.loseEntry_calSum (m : Met) (typ : Nat) : (m.loseEntry typ).calSum = m.calSum := (rfl)
@[simp] theorem Met.loseEntry_calSq (m : Met) (typ : Nat) : (m.loseEntry typ).calSq = m.calSq := (rfl)
@[simp] theorem Met.loseEntry_aligned (m : Met) (typ : Nat) : (m.loseEntry typ).aligned = m.aligned := (rfl)
@[simp] theorem Met.loseEntry_phaseErr (m : Met) (typ : Nat) : (m.loseEntry typ).phaseErr = m.phaseErr := (rfl)
@[simp] theorem Met.loseEntry_convs (m : Met) (typ : Nat) : (m.loseEntry typ).convs = m.convs := (rfl)
@[simp] theorem Met.loseEntry_warn (m : Met) (typ : Nat) : (m.loseEntry typ).warn = m.warn := (rfl)
@[simp] theorem Met.loseEntry_gen (m : Met) (typ : Nat) : (m.loseEntry typ).gen = m.gen := (rfl)

/-! ### `Met.store` -/

@[simp] theorem Met.store_up (m : Met) (r : List Word) : (m.store r).up = m.up := by
  unfold Met.store; simp
@[simp] theorem Met.store_cells (m : Met) (r : List Word) : (m.store r).cells = m.cells := by
  unfold Met.store; simp
@[simp] theorem Met.store_outcome (m : Met) (r : List Word) : (m.store r).outcome = m.outcome := by
  unfold Met.store; simp
@[simp] theorem Met.store_val (m : Met) (r : List Word) : (m.store r).val = m.val := by
  unfold Met.store; simp
@[simp] theorem Met.store_incr (m : Met) (r : List Word) : (m.store r).incr = m.incr := by
  unfold Met.store; simp
@[simp] theorem Met.store_netStep (m : Met) (r : List Word) : (m.store r).netStep = m.netStep := by
  unfold Met.store; simp
@[simp] theorem Met.store_ch (m : Met) (r : List Word) : (m.store r).ch = m.ch := by
  unfold Met.store; simp
@[simp] theorem Met.store_phase (m : Met) (r : List Word) : (m.store r).phase = m.phase := by
  unfold Met.store; simp
@[simp] theorem Met.store_stopped (m : Met) (r : List Word) : (m.store r).stopped = m.stopped := by
  unfold Met.store; simp
@[simp] theorem Met.store_bad (m : Met) (r : List Word) : (m.store r).bad = m.bad := by
  unfold Met.store; simp
@[simp] theorem Met.store_nextCh (m : Met) (r : List Word) : (m.store r).nextCh = m.nextCh := by
  unfold Met.store; simp
@[simp] theorem Met.store_corr (m : Met) (r : List Word) : (m.store r).corr = m.corr := by
  unfold Met.store; simp
@[simp] theorem Met.store_seams (m : Met) (r : List Word) : (m.store r).seams = m.seams := by
  unfold Met.store; simp
@[simp] theorem Met.store_forced (m : Met) (r : List Word) : (m.store r).forced = m.forced := by
  unfold Met.store; simp
@[simp] theorem Met.store_lost (m : Met) (r : List Word) : (m.store r).lost = m.lost := by
  unfold Met.store; simp
@[simp] theorem Met.store_lostMask (m : Met) (r : List Word) : (m.store r).lostMask = m.lostMask := by
  unfold Met.store; simp
@[simp] theorem Met.store_pos (m : Met) (r : List Word) : (m.store r).pos = m.pos := by
  unfold Met.store; simp
@[simp] theorem Met.store_calCh (m : Met) (r : List Word) : (m.store r).calCh = m.calCh := by
  unfold Met.store; simp
@[simp] theorem Met.store_calDur (m : Met) (r : List Word) : (m.store r).calDur = m.calDur := by
  unfold Met.store; simp
@[simp] theorem Met.store_calN (m : Met) (r : List Word) : (m.store r).calN = m.calN := by
  unfold Met.store; simp
@[simp] theorem Met.store_calSum (m : Met) (r : List Word) : (m.store r).calSum = m.calSum := by
  unfold Met.store; simp
@[simp] theorem Met.store_calSq (m : Met) (r : List Word) : (m.store r).calSq = m.calSq := by
  unfold Met.store; simp
@[simp] theorem Met.store_aligned (m : Met) (r : List Word) : (m.store r).aligned = m.aligned := by
  unfold Met.store; simp
@[simp] theorem Met.store_phaseErr (m : Met) (r : List Word) : (m.store r).phaseErr = m.phaseErr := by
  unfold Met.store; simp
@[simp] theorem Met.store_convs (m : Met) (r : List Word) : (m.store r).convs = m.convs := by
  unfold Met.store; simp
@[simp] theorem Met.store_warn (m : Met) (r : List Word) : (m.store r).warn = m.warn := by
  unfold Met.store; simp

/-! ### `Met.flushLoss` -/

@[simp] theorem Met.flushLoss_up (m : Met) : (m.flushLoss).up = m.up := by
  unfold Met.flushLoss; split <;> simp
@[simp] theorem Met.flushLoss_cells (m : Met) : (m.flushLoss).cells = m.cells := by
  unfold Met.flushLoss; split <;> simp
@[simp] theorem Met.flushLoss_outcome (m : Met) : (m.flushLoss).outcome = m.outcome := by
  unfold Met.flushLoss; split <;> simp
@[simp] theorem Met.flushLoss_val (m : Met) : (m.flushLoss).val = m.val := by
  unfold Met.flushLoss; split <;> simp
@[simp] theorem Met.flushLoss_incr (m : Met) : (m.flushLoss).incr = m.incr := by
  unfold Met.flushLoss; split <;> simp
@[simp] theorem Met.flushLoss_netStep (m : Met) : (m.flushLoss).netStep = m.netStep := by
  unfold Met.flushLoss; split <;> simp
@[simp] theorem Met.flushLoss_ch (m : Met) : (m.flushLoss).ch = m.ch := by
  unfold Met.flushLoss; split <;> simp
@[simp] theorem Met.flushLoss_phase (m : Met) : (m.flushLoss).phase = m.phase := by
  unfold Met.flushLoss; split <;> simp
@[simp] theorem Met.flushLoss_stopped (m : Met) : (m.flushLoss).stopped = m.stopped := by
  unfold Met.flushLoss; split <;> simp
@[simp] theorem Met.flushLoss_bad (m : Met) : (m.flushLoss).bad = m.bad := by
  unfold Met.flushLoss; split <;> simp
@[simp] theorem Met.flushLoss_nextCh (m : Met) : (m.flushLoss).nextCh = m.nextCh := by
  unfold Met.flushLoss; split <;> simp
@[simp] theorem Met.flushLoss_corr (m : Met) : (m.flushLoss).corr = m.corr := by
  unfold Met.flushLoss; split <;> simp
@[simp] theorem Met.flushLoss_seams (m : Met) : (m.flushLoss).seams = m.seams := by
  unfold Met.flushLoss; split <;> simp
@[simp] theorem Met.flushLoss_forced (m : Met) : (m.flushLoss).forced = m.forced := by
  unfold Met.flushLoss; split <;> simp
@[simp] theorem Met.flushLoss_pos (m : Met) : (m.flushLoss).pos = m.pos := by
  unfold Met.flushLoss; split <;> simp
@[simp] theorem Met.flushLoss_calCh (m : Met) : (m.flushLoss).calCh = m.calCh := by
  unfold Met.flushLoss; split <;> simp
@[simp] theorem Met.flushLoss_calDur (m : Met) : (m.flushLoss).calDur = m.calDur := by
  unfold Met.flushLoss; split <;> simp
@[simp] theorem Met.flushLoss_calN (m : Met) : (m.flushLoss).calN = m.calN := by
  unfold Met.flushLoss; split <;> simp
@[simp] theorem Met.flushLoss_calSum (m : Met) : (m.flushLoss).calSum = m.calSum := by
  unfold Met.flushLoss; split <;> simp
@[simp] theorem Met.flushLoss_calSq (m : Met) : (m.flushLoss).calSq = m.calSq := by
  unfold Met.flushLoss; split <;> simp
@[simp] theorem Met.flushLoss_aligned (m : Met) : (m.flushLoss).aligned = m.aligned := by
  unfold Met.flushLoss; split <;> simp
@[simp] theorem Met.flushLoss_phaseErr (m : Met) : (m.flushLoss).phaseErr = m.phaseErr := by
  unfold Met.flushLoss; split <;> simp
@[simp] theorem Met.flushLoss_convs (m : Met) : (m.flushLoss).convs = m.convs := by
  unfold Met.flushLoss; split <;> simp
@[simp] theorem Met.flushLoss_warn (m : Met) : (m.flushLoss).warn = m.warn := by
  unfold Met.flushLoss; split <;> simp

/-! ### `Met.write` -/

@[simp] theorem Met.write_up (m : Met) (typ subj flags : Nat) (pay : List Word) : (m.write typ subj flags pay).up = m.up := by
  unfold Met.write; dsimp only; split <;> simp
@[simp] theorem Met.write_cells (m : Met) (typ subj flags : Nat) (pay : List Word) : (m.write typ subj flags pay).cells = m.cells := by
  unfold Met.write; dsimp only; split <;> simp
@[simp] theorem Met.write_outcome (m : Met) (typ subj flags : Nat) (pay : List Word) : (m.write typ subj flags pay).outcome = m.outcome := by
  unfold Met.write; dsimp only; split <;> simp
@[simp] theorem Met.write_val (m : Met) (typ subj flags : Nat) (pay : List Word) : (m.write typ subj flags pay).val = m.val := by
  unfold Met.write; dsimp only; split <;> simp
@[simp] theorem Met.write_incr (m : Met) (typ subj flags : Nat) (pay : List Word) : (m.write typ subj flags pay).incr = m.incr := by
  unfold Met.write; dsimp only; split <;> simp
@[simp] theorem Met.write_netStep (m : Met) (typ subj flags : Nat) (pay : List Word) : (m.write typ subj flags pay).netStep = m.netStep := by
  unfold Met.write; dsimp only; split <;> simp
@[simp] theorem Met.write_ch (m : Met) (typ subj flags : Nat) (pay : List Word) : (m.write typ subj flags pay).ch = m.ch := by
  unfold Met.write; dsimp only; split <;> simp
@[simp] theorem Met.write_phase (m : Met) (typ subj flags : Nat) (pay : List Word) : (m.write typ subj flags pay).phase = m.phase := by
  unfold Met.write; dsimp only; split <;> simp
@[simp] theorem Met.write_stopped (m : Met) (typ subj flags : Nat) (pay : List Word) : (m.write typ subj flags pay).stopped = m.stopped := by
  unfold Met.write; dsimp only; split <;> simp
@[simp] theorem Met.write_bad (m : Met) (typ subj flags : Nat) (pay : List Word) : (m.write typ subj flags pay).bad = m.bad := by
  unfold Met.write; dsimp only; split <;> simp
@[simp] theorem Met.write_nextCh (m : Met) (typ subj flags : Nat) (pay : List Word) : (m.write typ subj flags pay).nextCh = m.nextCh := by
  unfold Met.write; dsimp only; split <;> simp
@[simp] theorem Met.write_corr (m : Met) (typ subj flags : Nat) (pay : List Word) : (m.write typ subj flags pay).corr = m.corr := by
  unfold Met.write; dsimp only; split <;> simp
@[simp] theorem Met.write_seams (m : Met) (typ subj flags : Nat) (pay : List Word) : (m.write typ subj flags pay).seams = m.seams := by
  unfold Met.write; dsimp only; split <;> simp
@[simp] theorem Met.write_forced (m : Met) (typ subj flags : Nat) (pay : List Word) : (m.write typ subj flags pay).forced = m.forced := by
  unfold Met.write; dsimp only; split <;> simp
@[simp] theorem Met.write_pos (m : Met) (typ subj flags : Nat) (pay : List Word) : (m.write typ subj flags pay).pos = m.pos := by
  unfold Met.write; dsimp only; split <;> simp
@[simp] theorem Met.write_calCh (m : Met) (typ subj flags : Nat) (pay : List Word) : (m.write typ subj flags pay).calCh = m.calCh := by
  unfold Met.write; dsimp only; split <;> simp
@[simp] theorem Met.write_calDur (m : Met) (typ subj flags : Nat) (pay : List Word) : (m.write typ subj flags pay).calDur = m.calDur := by
  unfold Met.write; dsimp only; split <;> simp
@[simp] theorem Met.write_calN (m : Met) (typ subj flags : Nat) (pay : List Word) : (m.write typ subj flags pay).calN = m.calN := by
  unfold Met.write; dsimp only; split <;> simp
@[simp] theorem Met.write_calSum (m : Met) (typ subj flags : Nat) (pay : List Word) : (m.write typ subj flags pay).calSum = m.calSum := by
  unfold Met.write; dsimp only; split <;> simp
@[simp] theorem Met.write_calSq (m : Met) (typ subj flags : Nat) (pay : List Word) : (m.write typ subj flags pay).calSq = m.calSq := by
  unfold Met.write; dsimp only; split <;> simp
@[simp] theorem Met.write_aligned (m : Met) (typ subj flags : Nat) (pay : List Word) : (m.write typ subj flags pay).aligned = m.aligned := by
  unfold Met.write; dsimp only; split <;> simp
@[simp] theorem Met.write_phaseErr (m : Met) (typ subj flags : Nat) (pay : List Word) : (m.write typ subj flags pay).phaseErr = m.phaseErr := by
  unfold Met.write; dsimp only; split <;> simp
@[simp] theorem Met.write_convs (m : Met) (typ subj flags : Nat) (pay : List Word) : (m.write typ subj flags pay).convs = m.convs := by
  unfold Met.write; dsimp only; split <;> simp
@[simp] theorem Met.write_warn (m : Met) (typ subj flags : Nat) (pay : List Word) : (m.write typ subj flags pay).warn = m.warn := by
  unfold Met.write; dsimp only; split <;> simp

/-! ### `Met.writeAudit` -/

@[simp] theorem Met.writeAudit_up (m : Met) (typ : Nat) (pay : List Word) : (m.writeAudit typ pay).up = m.up := by
  unfold Met.writeAudit; dsimp only; split <;> simp
@[simp] theorem Met.writeAudit_cells (m : Met) (typ : Nat) (pay : List Word) : (m.writeAudit typ pay).cells = m.cells := by
  unfold Met.writeAudit; dsimp only; split <;> simp
@[simp] theorem Met.writeAudit_outcome (m : Met) (typ : Nat) (pay : List Word) : (m.writeAudit typ pay).outcome = m.outcome := by
  unfold Met.writeAudit; dsimp only; split <;> simp
@[simp] theorem Met.writeAudit_val (m : Met) (typ : Nat) (pay : List Word) : (m.writeAudit typ pay).val = m.val := by
  unfold Met.writeAudit; dsimp only; split <;> simp
@[simp] theorem Met.writeAudit_incr (m : Met) (typ : Nat) (pay : List Word) : (m.writeAudit typ pay).incr = m.incr := by
  unfold Met.writeAudit; dsimp only; split <;> simp
@[simp] theorem Met.writeAudit_netStep (m : Met) (typ : Nat) (pay : List Word) : (m.writeAudit typ pay).netStep = m.netStep := by
  unfold Met.writeAudit; dsimp only; split <;> simp
@[simp] theorem Met.writeAudit_ch (m : Met) (typ : Nat) (pay : List Word) : (m.writeAudit typ pay).ch = m.ch := by
  unfold Met.writeAudit; dsimp only; split <;> simp
@[simp] theorem Met.writeAudit_phase (m : Met) (typ : Nat) (pay : List Word) : (m.writeAudit typ pay).phase = m.phase := by
  unfold Met.writeAudit; dsimp only; split <;> simp
@[simp] theorem Met.writeAudit_stopped (m : Met) (typ : Nat) (pay : List Word) : (m.writeAudit typ pay).stopped = m.stopped := by
  unfold Met.writeAudit; dsimp only; split <;> simp
@[simp] theorem Met.writeAudit_bad (m : Met) (typ : Nat) (pay : List Word) : (m.writeAudit typ pay).bad = m.bad := by
  unfold Met.writeAudit; dsimp only; split <;> simp
@[simp] theorem Met.writeAudit_nextCh (m : Met) (typ : Nat) (pay : List Word) : (m.writeAudit typ pay).nextCh = m.nextCh := by
  unfold Met.writeAudit; dsimp only; split <;> simp
@[simp] theorem Met.writeAudit_corr (m : Met) (typ : Nat) (pay : List Word) : (m.writeAudit typ pay).corr = m.corr := by
  unfold Met.writeAudit; dsimp only; split <;> simp
@[simp] theorem Met.writeAudit_seams (m : Met) (typ : Nat) (pay : List Word) : (m.writeAudit typ pay).seams = m.seams := by
  unfold Met.writeAudit; dsimp only; split <;> simp
@[simp] theorem Met.writeAudit_forced (m : Met) (typ : Nat) (pay : List Word) : (m.writeAudit typ pay).forced = m.forced := by
  unfold Met.writeAudit; dsimp only; split <;> simp
@[simp] theorem Met.writeAudit_pos (m : Met) (typ : Nat) (pay : List Word) : (m.writeAudit typ pay).pos = m.pos := by
  unfold Met.writeAudit; dsimp only; split <;> simp
@[simp] theorem Met.writeAudit_calCh (m : Met) (typ : Nat) (pay : List Word) : (m.writeAudit typ pay).calCh = m.calCh := by
  unfold Met.writeAudit; dsimp only; split <;> simp
@[simp] theorem Met.writeAudit_calDur (m : Met) (typ : Nat) (pay : List Word) : (m.writeAudit typ pay).calDur = m.calDur := by
  unfold Met.writeAudit; dsimp only; split <;> simp
@[simp] theorem Met.writeAudit_calN (m : Met) (typ : Nat) (pay : List Word) : (m.writeAudit typ pay).calN = m.calN := by
  unfold Met.writeAudit; dsimp only; split <;> simp
@[simp] theorem Met.writeAudit_calSum (m : Met) (typ : Nat) (pay : List Word) : (m.writeAudit typ pay).calSum = m.calSum := by
  unfold Met.writeAudit; dsimp only; split <;> simp
@[simp] theorem Met.writeAudit_calSq (m : Met) (typ : Nat) (pay : List Word) : (m.writeAudit typ pay).calSq = m.calSq := by
  unfold Met.writeAudit; dsimp only; split <;> simp
@[simp] theorem Met.writeAudit_aligned (m : Met) (typ : Nat) (pay : List Word) : (m.writeAudit typ pay).aligned = m.aligned := by
  unfold Met.writeAudit; dsimp only; split <;> simp
@[simp] theorem Met.writeAudit_phaseErr (m : Met) (typ : Nat) (pay : List Word) : (m.writeAudit typ pay).phaseErr = m.phaseErr := by
  unfold Met.writeAudit; dsimp only; split <;> simp
@[simp] theorem Met.writeAudit_convs (m : Met) (typ : Nat) (pay : List Word) : (m.writeAudit typ pay).convs = m.convs := by
  unfold Met.writeAudit; dsimp only; split <;> simp
@[simp] theorem Met.writeAudit_warn (m : Met) (typ : Nat) (pay : List Word) : (m.writeAudit typ pay).warn = m.warn := by
  unfold Met.writeAudit; dsimp only; split <;> simp

/-! ### `Met.commitSeams` -/

@[simp] theorem Met.commitSeams_up (m : Met) : (m.commitSeams).up = m.up := by
  unfold Met.commitSeams; split <;> simp
@[simp] theorem Met.commitSeams_cells (m : Met) : (m.commitSeams).cells = m.cells := by
  unfold Met.commitSeams; split <;> simp
@[simp] theorem Met.commitSeams_outcome (m : Met) : (m.commitSeams).outcome = m.outcome := by
  unfold Met.commitSeams; split <;> simp
@[simp] theorem Met.commitSeams_val (m : Met) : (m.commitSeams).val = m.val := by
  unfold Met.commitSeams; split <;> simp
@[simp] theorem Met.commitSeams_incr (m : Met) : (m.commitSeams).incr = m.incr := by
  unfold Met.commitSeams; split <;> simp
@[simp] theorem Met.commitSeams_netStep (m : Met) : (m.commitSeams).netStep = m.netStep := by
  unfold Met.commitSeams; split <;> simp
@[simp] theorem Met.commitSeams_ch (m : Met) : (m.commitSeams).ch = m.ch := by
  unfold Met.commitSeams; split <;> simp
@[simp] theorem Met.commitSeams_phase (m : Met) : (m.commitSeams).phase = m.phase := by
  unfold Met.commitSeams; split <;> simp
@[simp] theorem Met.commitSeams_stopped (m : Met) : (m.commitSeams).stopped = m.stopped := by
  unfold Met.commitSeams; split <;> simp
@[simp] theorem Met.commitSeams_bad (m : Met) : (m.commitSeams).bad = m.bad := by
  unfold Met.commitSeams; split <;> simp
@[simp] theorem Met.commitSeams_nextCh (m : Met) : (m.commitSeams).nextCh = m.nextCh := by
  unfold Met.commitSeams; split <;> simp
@[simp] theorem Met.commitSeams_corr (m : Met) : (m.commitSeams).corr = m.corr := by
  unfold Met.commitSeams; split <;> simp
@[simp] theorem Met.commitSeams_pos (m : Met) : (m.commitSeams).pos = m.pos := by
  unfold Met.commitSeams; split <;> simp
@[simp] theorem Met.commitSeams_calCh (m : Met) : (m.commitSeams).calCh = m.calCh := by
  unfold Met.commitSeams; split <;> simp
@[simp] theorem Met.commitSeams_calDur (m : Met) : (m.commitSeams).calDur = m.calDur := by
  unfold Met.commitSeams; split <;> simp
@[simp] theorem Met.commitSeams_calN (m : Met) : (m.commitSeams).calN = m.calN := by
  unfold Met.commitSeams; split <;> simp
@[simp] theorem Met.commitSeams_calSum (m : Met) : (m.commitSeams).calSum = m.calSum := by
  unfold Met.commitSeams; split <;> simp
@[simp] theorem Met.commitSeams_calSq (m : Met) : (m.commitSeams).calSq = m.calSq := by
  unfold Met.commitSeams; split <;> simp
@[simp] theorem Met.commitSeams_aligned (m : Met) : (m.commitSeams).aligned = m.aligned := by
  unfold Met.commitSeams; split <;> simp
@[simp] theorem Met.commitSeams_phaseErr (m : Met) : (m.commitSeams).phaseErr = m.phaseErr := by
  unfold Met.commitSeams; split <;> simp
@[simp] theorem Met.commitSeams_convs (m : Met) : (m.commitSeams).convs = m.convs := by
  unfold Met.commitSeams; split <;> simp
@[simp] theorem Met.commitSeams_warn (m : Met) : (m.commitSeams).warn = m.warn := by
  unfold Met.commitSeams; split <;> simp

/-! ### `Met.restart` -/

@[simp] theorem Met.restart_regs (m : Met) : (m.restart).regs = m.regs := by
  unfold Met.restart; exact Met.foldl_keep (fun x : Met => x.regs) _ (fun _ _ => by split <;> simp) _ _
@[simp] theorem Met.restart_up (m : Met) : (m.restart).up = m.up := by
  unfold Met.restart; exact Met.foldl_keep (fun x : Met => x.up) _ (fun _ _ => by split <;> simp) _ _
@[simp] theorem Met.restart_cells (m : Met) : (m.restart).cells = m.cells := by
  unfold Met.restart; exact Met.foldl_keep (fun x : Met => x.cells) _ (fun _ _ => by split <;> simp) _ _
@[simp] theorem Met.restart_outcome (m : Met) : (m.restart).outcome = m.outcome := by
  unfold Met.restart; exact Met.foldl_keep (fun x : Met => x.outcome) _ (fun _ _ => by split <;> simp) _ _
@[simp] theorem Met.restart_val (m : Met) : (m.restart).val = m.val := by
  unfold Met.restart; exact Met.foldl_keep (fun x : Met => x.val) _ (fun _ _ => by split <;> simp) _ _
@[simp] theorem Met.restart_incr (m : Met) : (m.restart).incr = m.incr := by
  unfold Met.restart; exact Met.foldl_keep (fun x : Met => x.incr) _ (fun _ _ => by split <;> simp) _ _
@[simp] theorem Met.restart_netStep (m : Met) : (m.restart).netStep = m.netStep := by
  unfold Met.restart; exact Met.foldl_keep (fun x : Met => x.netStep) _ (fun _ _ => by split <;> simp) _ _
@[simp] theorem Met.restart_phase (m : Met) : (m.restart).phase = m.phase := by
  unfold Met.restart; exact Met.foldl_keep (fun x : Met => x.phase) _ (fun _ _ => by split <;> simp) _ _
@[simp] theorem Met.restart_stopped (m : Met) : (m.restart).stopped = m.stopped := by
  unfold Met.restart; exact Met.foldl_keep (fun x : Met => x.stopped) _ (fun _ _ => by split <;> simp) _ _
@[simp] theorem Met.restart_bad (m : Met) : (m.restart).bad = m.bad := by
  unfold Met.restart; exact Met.foldl_keep (fun x : Met => x.bad) _ (fun _ _ => by split <;> simp) _ _
@[simp] theorem Met.restart_nextCh (m : Met) : (m.restart).nextCh = m.nextCh := by
  unfold Met.restart; exact Met.foldl_keep (fun x : Met => x.nextCh) _ (fun _ _ => by split <;> simp) _ _
@[simp] theorem Met.restart_corr (m : Met) : (m.restart).corr = m.corr := by
  unfold Met.restart; exact Met.foldl_keep (fun x : Met => x.corr) _ (fun _ _ => by split <;> simp) _ _
@[simp] theorem Met.restart_seams (m : Met) : (m.restart).seams = m.seams := by
  unfold Met.restart; exact Met.foldl_keep (fun x : Met => x.seams) _ (fun _ _ => by split <;> simp) _ _
@[simp] theorem Met.restart_forced (m : Met) : (m.restart).forced = m.forced := by
  unfold Met.restart; exact Met.foldl_keep (fun x : Met => x.forced) _ (fun _ _ => by split <;> simp) _ _
@[simp] theorem Met.restart_log (m : Met) : (m.restart).log = m.log := by
  unfold Met.restart; exact Met.foldl_keep (fun x : Met => x.log) _ (fun _ _ => by split <;> simp) _ _
@[simp] theorem Met.restart_lost (m : Met) : (m.restart).lost = m.lost := by
  unfold Met.restart; exact Met.foldl_keep (fun x : Met => x.lost) _ (fun _ _ => by split <;> simp) _ _
@[simp] theorem Met.restart_lostMask (m : Met) : (m.restart).lostMask = m.lostMask := by
  unfold Met.restart; exact Met.foldl_keep (fun x : Met => x.lostMask) _ (fun _ _ => by split <;> simp) _ _
@[simp] theorem Met.restart_pos (m : Met) : (m.restart).pos = m.pos := by
  unfold Met.restart; exact Met.foldl_keep (fun x : Met => x.pos) _ (fun _ _ => by split <;> simp) _ _
@[simp] theorem Met.restart_calCh (m : Met) : (m.restart).calCh = m.calCh := by
  unfold Met.restart; exact Met.foldl_keep (fun x : Met => x.calCh) _ (fun _ _ => by split <;> simp) _ _
@[simp] theorem Met.restart_calDur (m : Met) : (m.restart).calDur = m.calDur := by
  unfold Met.restart; exact Met.foldl_keep (fun x : Met => x.calDur) _ (fun _ _ => by split <;> simp) _ _
@[simp] theorem Met.restart_calN (m : Met) : (m.restart).calN = m.calN := by
  unfold Met.restart; exact Met.foldl_keep (fun x : Met => x.calN) _ (fun _ _ => by split <;> simp) _ _
@[simp] theorem Met.restart_calSum (m : Met) : (m.restart).calSum = m.calSum := by
  unfold Met.restart; exact Met.foldl_keep (fun x : Met => x.calSum) _ (fun _ _ => by split <;> simp) _ _
@[simp] theorem Met.restart_calSq (m : Met) : (m.restart).calSq = m.calSq := by
  unfold Met.restart; exact Met.foldl_keep (fun x : Met => x.calSq) _ (fun _ _ => by split <;> simp) _ _
@[simp] theorem Met.restart_aligned (m : Met) : (m.restart).aligned = m.aligned := by
  unfold Met.restart; exact Met.foldl_keep (fun x : Met => x.aligned) _ (fun _ _ => by split <;> simp) _ _
@[simp] theorem Met.restart_phaseErr (m : Met) : (m.restart).phaseErr = m.phaseErr := by
  unfold Met.restart; exact Met.foldl_keep (fun x : Met => x.phaseErr) _ (fun _ _ => by split <;> simp) _ _
@[simp] theorem Met.restart_convs (m : Met) : (m.restart).convs = m.convs := by
  unfold Met.restart; exact Met.foldl_keep (fun x : Met => x.convs) _ (fun _ _ => by split <;> simp) _ _
@[simp] theorem Met.restart_warn (m : Met) : (m.restart).warn = m.warn := by
  unfold Met.restart; exact Met.foldl_keep (fun x : Met => x.warn) _ (fun _ _ => by split <;> simp) _ _
@[simp] theorem Met.restart_gen (m : Met) : (m.restart).gen = m.gen := by
  unfold Met.restart; exact Met.foldl_keep (fun x : Met => x.gen) _ (fun _ _ => by split <;> simp) _ _

@[simp] theorem Met.clearLost_lost (m : Met) : m.clearLost.lost = 0 := (rfl)
@[simp] theorem Met.clearLost_lostMask (m : Met) : m.clearLost.lostMask = 0 := (rfl)
@[simp] theorem Met.clearSeams_seams (m : Met) : m.clearSeams.seams = [] := (rfl)
@[simp] theorem Met.clearSeams_forced (m : Met) : m.clearSeams.forced = false := (rfl)
@[simp] theorem Met.abandon_phase (m : Met) : m.abandon.phase = 0 := (rfl)
@[simp] theorem Met.railLow_warn (m : Met) (rail : Nat) : (m.railLow rail).warn = m.warn ||| 2 ^ rail := (rfl)
@[simp] theorem Met.setTime_val (m : Met) (v : Nat) (net : Bool) : (m.setTime v net).val = v := (rfl)
@[simp] theorem Met.setTime_netStep (m : Met) (v : Nat) (net : Bool) : (m.setTime v net).netStep = net := (rfl)
@[simp] theorem Met.setPos_pos (m : Met) (p : Nat × Nat × Nat) : (m.setPos p).pos = some p := (rfl)
@[simp] theorem Met.setCells_cells (m : Met) (l : NMap Word) (k : Nat) : (m.setCells l k).cells = l := (rfl)
@[simp] theorem Met.setCells_outcome (m : Met) (l : NMap Word) (k : Nat) : (m.setCells l k).outcome = k := (rfl)

/-! ### Held seam entries -/

theorem Met.commitSeams_seams (m : Met) : m.commitSeams.seams = [] := by
  unfold Met.commitSeams; split
  · assumption
  · exact Met.clearSeams_seams _

/-! ### Canonical registers -/

theorem Met.wr_regs_wf (m : Met) (f : Fld) (n : Nat) (h : NMap.wf m.regs resetWord = true) :
    NMap.wf (m.wr f n).regs resetWord = true := Met.setReg_wf m _ _ h

theorem Met.on_regs_wf (m : Met) (f : Fld) (h : NMap.wf m.regs resetWord = true) :
    NMap.wf (m.on f).regs resetWord = true := Met.setReg_wf m _ _ h

theorem Met.off_regs_wf (m : Met) (f : Fld) (h : NMap.wf m.regs resetWord = true) :
    NMap.wf (m.off f).regs resetWord = true := Met.setReg_wf m _ _ h

theorem Met.count_regs_wf (m : Met) (f : Fld) (n : Nat) (h : NMap.wf m.regs resetWord = true) :
    NMap.wf (m.count f n).regs resetWord = true := Met.setReg_wf m _ _ h

theorem Met.wr8_regs_wf (m : Met) (a : Nat) (ws : List Word) (h : NMap.wf m.regs resetWord = true) :
    NMap.wf (m.wr8 a ws).regs resetWord = true := by
  unfold Met.wr8
  exact Met.foldl_inv (fun x => NMap.wf x.regs resetWord = true) _ (fun x _ hx => Met.setReg_wf x _ _ hx) _ _ h

theorem Met.showFree_regs_wf (m : Met) (h : NMap.wf m.regs resetWord = true) :
    NMap.wf (m.showFree).regs resetWord = true := by
  unfold Met.showFree; dsimp only; split
  · exact Met.on_regs_wf _ _ (Met.wr_regs_wf _ _ _ h)
  · exact Met.wr_regs_wf _ _ _ h

theorem Met.loseEntry_regs_wf (m : Met) (typ : Nat) (h : NMap.wf m.regs resetWord = true) :
    NMap.wf (m.loseEntry typ).regs resetWord = true := Met.on_regs_wf _ _ (Met.wr_regs_wf _ _ _ h)

theorem Met.store_regs_wf (m : Met) (r : List Word) (h : NMap.wf m.regs resetWord = true) :
    NMap.wf (m.store r).regs resetWord = true := Met.showFree_regs_wf _ (Met.wr8_regs_wf _ _ _ (Met.wr_regs_wf _ _ _ h))

theorem Met.flushLoss_regs_wf (m : Met) (h : NMap.wf m.regs resetWord = true) :
    NMap.wf (m.flushLoss).regs resetWord = true := by
  unfold Met.flushLoss; split
  · rw [Met.clearLost_regs]; exact Met.store_regs_wf _ _ h
  · exact h

theorem Met.write_regs_wf (m : Met) (typ subj flags : Nat) (pay : List Word) (h : NMap.wf m.regs resetWord = true) :
    NMap.wf (m.write typ subj flags pay).regs resetWord = true := by
  have h1 := Met.flushLoss_regs_wf m h
  unfold Met.write; dsimp only; split
  · exact Met.store_regs_wf _ _ h1
  · exact Met.loseEntry_regs_wf _ _ h1

theorem Met.writeAudit_regs_wf (m : Met) (typ : Nat) (pay : List Word) (h : NMap.wf m.regs resetWord = true) :
    NMap.wf (m.writeAudit typ pay).regs resetWord = true := by
  have h1 := Met.flushLoss_regs_wf m h
  unfold Met.writeAudit; dsimp only; split
  · exact Met.write_regs_wf _ _ _ _ _ (Met.count_regs_wf _ _ _ h1)
  · exact Met.loseEntry_regs_wf _ _ h1

theorem Met.commitSeams_regs_wf (m : Met) (h : NMap.wf m.regs resetWord = true) :
    NMap.wf (m.commitSeams).regs resetWord = true := by
  unfold Met.commitSeams; split
  · exact h
  · rw [Met.clearSeams_regs]; exact Met.write_regs_wf _ _ _ _ _ h

/-! ### Records -/

/-- A record has sixteen words. -/
theorem Met.record_length (m : Met) (typ subj flags : Nat) (pay : List Word) : (m.record typ subj flags pay).length = 16 := by
  unfold Met.record Met.rd8
  simp only [List.length_append, List.length_cons, List.length_nil, List.length_take, List.length_replicate, List.length_map,
    List.length_range]
  omega

/-- What a log holds is canonical records of sixteen words. -/
def Met.logOk (m : Met) : Prop := NMap.wf m.log (fun _ => []) = true ∧ ∀ e ∈ m.log, e.2.length = 16

theorem Met.logOk_of_log {m n : Met} (e : n.log = m.log) (h : m.logOk) : n.logOk := by
  unfold Met.logOk; rw [e]; exact h

theorem Met.store_log (m : Met) (r : List Word) : (m.store r).log = NMap.set m.log (m.rd fMetLidNextNext % 8128) r := by
  unfold Met.store; simp

theorem Met.store_logOk (m : Met) (r : List Word) (hr : r.length = 16) (h : m.logOk) : (m.store r).logOk := by
  unfold Met.logOk
  rw [Met.store_log]
  refine ⟨NMap.wf_set h.1 _ _, fun e he => ?_⟩
  unfold NMap.set NMap.setD at he
  split at he
  · rw [NMap.erase_eq_filter] at he
    exact h.2 e (List.mem_filter.1 he).1
  · rcases (NMap.mem_insert _ _ _ _).1 he with rfl | h2
    · exact hr
    · rw [NMap.erase_eq_filter] at h2
      exact h.2 e (List.mem_filter.1 h2).1

theorem Met.flushLoss_logOk (m : Met) (h : m.logOk) : m.flushLoss.logOk := by
  unfold Met.flushLoss; split
  · exact Met.logOk_of_log (Met.clearLost_log _) (Met.store_logOk m _ (Met.record_length _ _ _ _ _) h)
  · exact h

theorem Met.write_logOk (m : Met) (typ subj flags : Nat) (pay : List Word) (h : m.logOk) : (m.write typ subj flags pay).logOk := by
  have h1 := Met.flushLoss_logOk m h
  unfold Met.write; dsimp only; split
  · exact Met.store_logOk _ _ (Met.record_length _ _ _ _ _) h1
  · exact Met.logOk_of_log (by simp) h1

theorem Met.writeAudit_logOk (m : Met) (typ : Nat) (pay : List Word) (h : m.logOk) : (m.writeAudit typ pay).logOk := by
  have h1 := Met.flushLoss_logOk m h
  unfold Met.writeAudit; dsimp only; split
  · exact Met.write_logOk _ _ _ _ _ (Met.logOk_of_log (by simp) h1)
  · exact Met.logOk_of_log (by simp) h1

theorem Met.commitSeams_logOk (m : Met) (h : m.logOk) : m.commitSeams.logOk := by
  unfold Met.commitSeams; split
  · exact h
  · exact Met.logOk_of_log (Met.clearSeams_log _) (Met.write_logOk m _ _ _ _ h)

end Sys2Proof.Machine
end

