-- ==== Sys2Proof/Laws/Ops.lean ====
section
/-! SUPPORT. What each shared operation may change: for every part it never touches, and for the registers outside its block,
one lemma that says it stays. -/

namespace Sys2Proof.Machine
open Sys2Proof

/-- What every round of a fold keeps, the fold keeps. -/
theorem foldl_keep {α β : Type} (g : Hub → β) (f : Hub → α → Hub) (hf : ∀ a x, g (f a x) = g a) (l : List α) (h : Hub) :
    g (l.foldl f h) = g h := by
  induction l generalizing h with
  | nil => rfl
  | cons x t ih => rw [List.foldl_cons, ih, hf]

/-- What every round over a list's own members keeps, the fold keeps. -/
theorem foldl_keep_mem {α β : Type} (g : Hub → β) (f : Hub → α → Hub) (l : List α) (hf : ∀ a, ∀ x ∈ l, g (f a x) = g a)
    (h : Hub) : g (l.foldl f h) = g h := by
  induction l generalizing h with
  | nil => rfl
  | cons x t ih =>
    rw [List.foldl_cons, ih (fun a y hy => hf a y (List.mem_cons_of_mem _ hy)), hf h x (List.mem_cons_self ..)]

theorem mem_dedup_of {l : List Nat} {x : Nat} (h : x ∈ dedup l) : x ∈ l := by
  have gen : ∀ (l a : List Nat), x ∈ l.foldl (fun a x => if a.contains x then a else a ++ [x]) a → x ∈ a ∨ x ∈ l := by
    intro l
    induction l with
    | nil => intro a ha; exact Or.inl ha
    | cons y t ih =>
      intro a ha
      rw [List.foldl_cons] at ha
      rcases ih _ ha with hm | hm
      · split at hm
        · exact Or.inl hm
        · rcases List.mem_append.1 hm with hm | hm
          · exact Or.inl hm
          · exact Or.inr (List.mem_cons.2 (Or.inl (List.mem_singleton.1 hm)))
      · exact Or.inr (List.mem_cons_of_mem _ hm)
  rcases gen l [] h with hm | hm
  · cases hm
  · exact hm

/-- A channel found by its producer list has a unit number. -/
theorem Hub.chansOf_lt (h : Hub) (code n : Nat) (hn : n ∈ h.chansOf code) : n < 256 := by
  obtain ⟨e, _, rfl⟩ := List.mem_map.1 (mem_dedup_of hn)
  exact Nat.mod_lt _ (by omega)

/-! ### `Hub.presentAt` -/

@[simp] theorem Hub.presentAt_cells (h : Hub) (n c : Nat) : (h.presentAt n c).cells = h.cells := by
  unfold Hub.presentAt; (repeat' split) <;> simp
@[simp] theorem Hub.presentAt_clk (h : Hub) (n c : Nat) : (h.presentAt n c).clk = h.clk := by
  unfold Hub.presentAt; (repeat' split) <;> simp
@[simp] theorem Hub.presentAt_ldr (h : Hub) (n c : Nat) : (h.presentAt n c).ldr = h.ldr := by
  unfold Hub.presentAt; (repeat' split) <;> simp
@[simp] theorem Hub.presentAt_host (h : Hub) (n c : Nat) : (h.presentAt n c).host = h.host := by
  unfold Hub.presentAt; (repeat' split) <;> simp
@[simp] theorem Hub.presentAt_sp (h : Hub) (n c : Nat) : (h.presentAt n c).sp = h.sp := by
  unfold Hub.presentAt; (repeat' split) <;> simp
@[simp] theorem Hub.presentAt_tw (h : Hub) (n c : Nat) : (h.presentAt n c).tw = h.tw := by
  unfold Hub.presentAt; (repeat' split) <;> simp
@[simp] theorem Hub.presentAt_ingress (h : Hub) (n c : Nat) : (h.presentAt n c).ingress = h.ingress := by
  unfold Hub.presentAt; (repeat' split) <;> simp
@[simp] theorem Hub.presentAt_ctx (h : Hub) (n c : Nat) : (h.presentAt n c).ctx = h.ctx := by
  unfold Hub.presentAt; (repeat' split) <;> simp
@[simp] theorem Hub.presentAt_stg (h : Hub) (n c : Nat) : (h.presentAt n c).stg = h.stg := by
  unfold Hub.presentAt; (repeat' split) <;> simp
@[simp] theorem Hub.presentAt_tile (h : Hub) (n c : Nat) : (h.presentAt n c).tile = h.tile := by
  unfold Hub.presentAt; (repeat' split) <;> simp
@[simp] theorem Hub.presentAt_evSeen (h : Hub) (n c : Nat) : (h.presentAt n c).evSeen = h.evSeen := by
  unfold Hub.presentAt; (repeat' split) <;> simp
@[simp] theorem Hub.presentAt_q (h : Hub) (n c : Nat) : (h.presentAt n c).q = h.q := by
  unfold Hub.presentAt; (repeat' split) <;> simp
@[simp] theorem Hub.presentAt_stock (h : Hub) (n c : Nat) : (h.presentAt n c).stock = h.stock := by
  unfold Hub.presentAt; (repeat' split) <;> simp
@[simp] theorem Hub.presentAt_stockFill (h : Hub) (n c : Nat) : (h.presentAt n c).stockFill = h.stockFill := by
  unfold Hub.presentAt; (repeat' split) <;> simp
@[simp] theorem Hub.presentAt_dbgHeld (h : Hub) (n c : Nat) : (h.presentAt n c).dbgHeld = h.dbgHeld := by
  unfold Hub.presentAt; (repeat' split) <;> simp
@[simp] theorem Hub.presentAt_ring (h : Hub) (n c : Nat) : (h.presentAt n c).ring = h.ring := by
  unfold Hub.presentAt; (repeat' split) <;> simp
@[simp] theorem Hub.presentAt_outbox (h : Hub) (n c : Nat) : (h.presentAt n c).outbox = h.outbox := by
  unfold Hub.presentAt; (repeat' split) <;> simp
@[simp] theorem Hub.presentAt_tb (h : Hub) (n c : Nat) : (h.presentAt n c).tb = h.tb := by
  unfold Hub.presentAt; (repeat' split) <;> simp
@[simp] theorem Hub.presentAt_trig (h : Hub) (n c : Nat) : (h.presentAt n c).trig = h.trig := by
  unfold Hub.presentAt; (repeat' split) <;> simp
@[simp] theorem Hub.presentAt_trg (h : Hub) (n c : Nat) : (h.presentAt n c).trg = h.trg := by
  unfold Hub.presentAt; (repeat' split) <;> simp
@[simp] theorem Hub.presentAt_tach (h : Hub) (n c : Nat) : (h.presentAt n c).tach = h.tach := by
  unfold Hub.presentAt; (repeat' split) <;> simp
@[simp] theorem Hub.presentAt_kt (h : Hub) (n c : Nat) : (h.presentAt n c).kt = h.kt := by
  unfold Hub.presentAt; (repeat' split) <;> simp
@[simp] theorem Hub.presentAt_flt (h : Hub) (n c : Nat) : (h.presentAt n c).flt = h.flt := by
  unfold Hub.presentAt; (repeat' split) <;> simp
@[simp] theorem Hub.presentAt_job (h : Hub) (n c : Nat) : (h.presentAt n c).job = h.job := by
  unfold Hub.presentAt; (repeat' split) <;> simp
@[simp] theorem Hub.presentAt_spc (h : Hub) (n c : Nat) : (h.presentAt n c).spc = h.spc := by
  unfold Hub.presentAt; (repeat' split) <;> simp
@[simp] theorem Hub.presentAt_fea (h : Hub) (n c : Nat) : (h.presentAt n c).fea = h.fea := by
  unfold Hub.presentAt; (repeat' split) <;> simp
@[simp] theorem Hub.presentAt_lim (h : Hub) (n c : Nat) : (h.presentAt n c).lim = h.lim := by
  unfold Hub.presentAt; (repeat' split) <;> simp
@[simp] theorem Hub.presentAt_link (h : Hub) (n c : Nat) : (h.presentAt n c).link = h.link := by
  unfold Hub.presentAt; (repeat' split) <;> simp
@[simp] theorem Hub.presentAt_cas (h : Hub) (n c : Nat) : (h.presentAt n c).cas = h.cas := by
  unfold Hub.presentAt; (repeat' split) <;> simp
@[simp] theorem Hub.presentAt_rad (h : Hub) (n c : Nat) : (h.presentAt n c).rad = h.rad := by
  unfold Hub.presentAt; (repeat' split) <;> simp
@[simp] theorem Hub.presentAt_hlt (h : Hub) (n c : Nat) : (h.presentAt n c).hlt = h.hlt := by
  unfold Hub.presentAt; (repeat' split) <;> simp
@[simp] theorem Hub.presentAt_sup (h : Hub) (n c : Nat) : (h.presentAt n c).sup = h.sup := by
  unfold Hub.presentAt; (repeat' split) <;> simp
@[simp] theorem Hub.presentAt_tbMet (h : Hub) (n c : Nat) : (h.presentAt n c).tbMet = h.tbMet := by
  unfold Hub.presentAt; (repeat' split) <;> simp
@[simp] theorem Hub.presentAt_metFollows (h : Hub) (n c : Nat) : (h.presentAt n c).metFollows = h.metFollows := by
  unfold Hub.presentAt; (repeat' split) <;> simp
@[simp] theorem Hub.presentAt_metFifo (h : Hub) (n c : Nat) : (h.presentAt n c).metFifo = h.metFifo := by
  unfold Hub.presentAt; (repeat' split) <;> simp
@[simp] theorem Hub.presentAt_metGap (h : Hub) (n c : Nat) : (h.presentAt n c).metGap = h.metGap := by
  unfold Hub.presentAt; (repeat' split) <;> simp
@[simp] theorem Hub.presentAt_cyc (h : Hub) (n c : Nat) : (h.presentAt n c).cyc = h.cyc := by
  unfold Hub.presentAt; (repeat' split) <;> simp
@[simp] theorem Hub.presentAt_asleep (h : Hub) (n c : Nat) : (h.presentAt n c).asleep = h.asleep := by
  unfold Hub.presentAt; (repeat' split) <;> simp
@[simp] theorem Hub.presentAt_free (h : Hub) (n c : Nat) : (h.presentAt n c).free = h.free := by
  unfold Hub.presentAt; (repeat' split) <;> simp
@[simp] theorem Hub.presentAt_cell (h : Hub) (n c : Nat) (i j k : Nat) : (h.presentAt n c).cell i j k = h.cell i j k := by
  unfold Hub.cell; rw [Hub.presentAt_cells]
@[simp] theorem Hub.presentAt_cf (h : Hub) (n c : Nat) (i j k lo len : Nat) : (h.presentAt n c).cf i j k lo len = h.cf i j k lo len := by
  unfold Hub.cf; rw [Hub.presentAt_cell]

theorem Hub.presentAt_reg (h : Hub) (n c : Nat) {a : Nat} (hn : n < 256) (ha : a < 0x180000 ∨ 0x1A0000 ≤ a) :
    (h.presentAt n c).reg a = h.reg a := by
  unfold Hub.presentAt
  split
  · split
    · exact Hub.reg_countSat_ne _ _ _ (by simp only [fEvCDropMuted, rEvCDrop]; omega)
    · rfl
  · rfl

/-! ### `Hub.presentChan` -/

@[simp] theorem Hub.presentChan_cells (h : Hub) (n : Nat) : (h.presentChan n).cells = h.cells := by
  unfold Hub.presentChan; simp
@[simp] theorem Hub.presentChan_clk (h : Hub) (n : Nat) : (h.presentChan n).clk = h.clk := by
  unfold Hub.presentChan; simp
@[simp] theorem Hub.presentChan_ldr (h : Hub) (n : Nat) : (h.presentChan n).ldr = h.ldr := by
  unfold Hub.presentChan; simp
@[simp] theorem Hub.presentChan_host (h : Hub) (n : Nat) : (h.presentChan n).host = h.host := by
  unfold Hub.presentChan; simp
@[simp] theorem Hub.presentChan_sp (h : Hub) (n : Nat) : (h.presentChan n).sp = h.sp := by
  unfold Hub.presentChan; simp
@[simp] theorem Hub.presentChan_tw (h : Hub) (n : Nat) : (h.presentChan n).tw = h.tw := by
  unfold Hub.presentChan; simp
@[simp] theorem Hub.presentChan_ingress (h : Hub) (n : Nat) : (h.presentChan n).ingress = h.ingress := by
  unfold Hub.presentChan; simp
@[simp] theorem Hub.presentChan_ctx (h : Hub) (n : Nat) : (h.presentChan n).ctx = h.ctx := by
  unfold Hub.presentChan; simp
@[simp] theorem Hub.presentChan_stg (h : Hub) (n : Nat) : (h.presentChan n).stg = h.stg := by
  unfold Hub.presentChan; simp
@[simp] theorem Hub.presentChan_tile (h : Hub) (n : Nat) : (h.presentChan n).tile = h.tile := by
  unfold Hub.presentChan; simp
@[simp] theorem Hub.presentChan_evSeen (h : Hub) (n : Nat) : (h.presentChan n).evSeen = h.evSeen := by
  unfold Hub.presentChan; simp
@[simp] theorem Hub.presentChan_q (h : Hub) (n : Nat) : (h.presentChan n).q = h.q := by
  unfold Hub.presentChan; simp
@[simp] theorem Hub.presentChan_stock (h : Hub) (n : Nat) : (h.presentChan n).stock = h.stock := by
  unfold Hub.presentChan; simp
@[simp] theorem Hub.presentChan_stockFill (h : Hub) (n : Nat) : (h.presentChan n).stockFill = h.stockFill := by
  unfold Hub.presentChan; simp
@[simp] theorem Hub.presentChan_dbgHeld (h : Hub) (n : Nat) : (h.presentChan n).dbgHeld = h.dbgHeld := by
  unfold Hub.presentChan; simp
@[simp] theorem Hub.presentChan_ring (h : Hub) (n : Nat) : (h.presentChan n).ring = h.ring := by
  unfold Hub.presentChan; simp
@[simp] theorem Hub.presentChan_outbox (h : Hub) (n : Nat) : (h.presentChan n).outbox = h.outbox := by
  unfold Hub.presentChan; simp
@[simp] theorem Hub.presentChan_tb (h : Hub) (n : Nat) : (h.presentChan n).tb = h.tb := by
  unfold Hub.presentChan; simp
@[simp] theorem Hub.presentChan_trig (h : Hub) (n : Nat) : (h.presentChan n).trig = h.trig := by
  unfold Hub.presentChan; simp
@[simp] theorem Hub.presentChan_trg (h : Hub) (n : Nat) : (h.presentChan n).trg = h.trg := by
  unfold Hub.presentChan; simp
@[simp] theorem Hub.presentChan_tach (h : Hub) (n : Nat) : (h.presentChan n).tach = h.tach := by
  unfold Hub.presentChan; simp
@[simp] theorem Hub.presentChan_kt (h : Hub) (n : Nat) : (h.presentChan n).kt = h.kt := by
  unfold Hub.presentChan; simp
@[simp] theorem Hub.presentChan_flt (h : Hub) (n : Nat) : (h.presentChan n).flt = h.flt := by
  unfold Hub.presentChan; simp
@[simp] theorem Hub.presentChan_job (h : Hub) (n : Nat) : (h.presentChan n).job = h.job := by
  unfold Hub.presentChan; simp
@[simp] theorem Hub.presentChan_spc (h : Hub) (n : Nat) : (h.presentChan n).spc = h.spc := by
  unfold Hub.presentChan; simp
@[simp] theorem Hub.presentChan_fea (h : Hub) (n : Nat) : (h.presentChan n).fea = h.fea := by
  unfold Hub.presentChan; simp
@[simp] theorem Hub.presentChan_lim (h : Hub) (n : Nat) : (h.presentChan n).lim = h.lim := by
  unfold Hub.presentChan; simp
@[simp] theorem Hub.presentChan_link (h : Hub) (n : Nat) : (h.presentChan n).link = h.link := by
  unfold Hub.presentChan; simp
@[simp] theorem Hub.presentChan_cas (h : Hub) (n : Nat) : (h.presentChan n).cas = h.cas := by
  unfold Hub.presentChan; simp
@[simp] theorem Hub.presentChan_rad (h : Hub) (n : Nat) : (h.presentChan n).rad = h.rad := by
  unfold Hub.presentChan; simp
@[simp] theorem Hub.presentChan_hlt (h : Hub) (n : Nat) : (h.presentChan n).hlt = h.hlt := by
  unfold Hub.presentChan; simp
@[simp] theorem Hub.presentChan_sup (h : Hub) (n : Nat) : (h.presentChan n).sup = h.sup := by
  unfold Hub.presentChan; simp
@[simp] theorem Hub.presentChan_tbMet (h : Hub) (n : Nat) : (h.presentChan n).tbMet = h.tbMet := by
  unfold Hub.presentChan; simp
@[simp] theorem Hub.presentChan_metFollows (h : Hub) (n : Nat) : (h.presentChan n).metFollows = h.metFollows := by
  unfold Hub.presentChan; simp
@[simp] theorem Hub.presentChan_metFifo (h : Hub) (n : Nat) : (h.presentChan n).metFifo = h.metFifo := by
  unfold Hub.presentChan; simp
@[simp] theorem Hub.presentChan_metGap (h : Hub) (n : Nat) : (h.presentChan n).metGap = h.metGap := by
  unfold Hub.presentChan; simp
@[simp] theorem Hub.presentChan_cyc (h : Hub) (n : Nat) : (h.presentChan n).cyc = h.cyc := by
  unfold Hub.presentChan; simp
@[simp] theorem Hub.presentChan_asleep (h : Hub) (n : Nat) : (h.presentChan n).asleep = h.asleep := by
  unfold Hub.presentChan; simp
@[simp] theorem Hub.presentChan_free (h : Hub) (n : Nat) : (h.presentChan n).free = h.free := by
  unfold Hub.presentChan; simp
@[simp] theorem Hub.presentChan_cell (h : Hub) (n : Nat) (i j k : Nat) : (h.presentChan n).cell i j k = h.cell i j k := by
  unfold Hub.cell; rw [Hub.presentChan_cells]
@[simp] theorem Hub.presentChan_cf (h : Hub) (n : Nat) (i j k lo len : Nat) : (h.presentChan n).cf i j k lo len = h.cf i j k lo len := by
  unfold Hub.cf; rw [Hub.presentChan_cell]

/-! ### `Hub.presentCode` -/

@[simp] theorem Hub.presentCode_cells (h : Hub) (code c : Nat) : (h.presentCode code c).cells = h.cells := by
  unfold Hub.presentCode; exact foldl_keep _ _ (fun _ _ => by simp) _ _
@[simp] theorem Hub.presentCode_clk (h : Hub) (code c : Nat) : (h.presentCode code c).clk = h.clk := by
  unfold Hub.presentCode; exact foldl_keep _ _ (fun _ _ => by simp) _ _
@[simp] theorem Hub.presentCode_ldr (h : Hub) (code c : Nat) : (h.presentCode code c).ldr = h.ldr := by
  unfold Hub.presentCode; exact foldl_keep _ _ (fun _ _ => by simp) _ _
@[simp] theorem Hub.presentCode_host (h : Hub) (code c : Nat) : (h.presentCode code c).host = h.host := by
  unfold Hub.presentCode; exact foldl_keep _ _ (fun _ _ => by simp) _ _
@[simp] theorem Hub.presentCode_sp (h : Hub) (code c : Nat) : (h.presentCode code c).sp = h.sp := by
  unfold Hub.presentCode; exact foldl_keep _ _ (fun _ _ => by simp) _ _
@[simp] theorem Hub.presentCode_tw (h : Hub) (code c : Nat) : (h.presentCode code c).tw = h.tw := by
  unfold Hub.presentCode; exact foldl_keep _ _ (fun _ _ => by simp) _ _
@[simp] theorem Hub.presentCode_ingress (h : Hub) (code c : Nat) : (h.presentCode code c).ingress = h.ingress := by
  unfold Hub.presentCode; exact foldl_keep _ _ (fun _ _ => by simp) _ _
@[simp] theorem Hub.presentCode_ctx (h : Hub) (code c : Nat) : (h.presentCode code c).ctx = h.ctx := by
  unfold Hub.presentCode; exact foldl_keep _ _ (fun _ _ => by simp) _ _
@[simp] theorem Hub.presentCode_stg (h : Hub) (code c : Nat) : (h.presentCode code c).stg = h.stg := by
  unfold Hub.presentCode; exact foldl_keep _ _ (fun _ _ => by simp) _ _
@[simp] theorem Hub.presentCode_tile (h : Hub) (code c : Nat) : (h.presentCode code c).tile = h.tile := by
  unfold Hub.presentCode; exact foldl_keep _ _ (fun _ _ => by simp) _ _
@[simp] theorem Hub.presentCode_evSeen (h : Hub) (code c : Nat) : (h.presentCode code c).evSeen = h.evSeen := by
  unfold Hub.presentCode; exact foldl_keep _ _ (fun _ _ => by simp) _ _
@[simp] theorem Hub.presentCode_q (h : Hub) (code c : Nat) : (h.presentCode code c).q = h.q := by
  unfold Hub.presentCode; exact foldl_keep _ _ (fun _ _ => by simp) _ _
@[simp] theorem Hub.presentCode_stock (h : Hub) (code c : Nat) : (h.presentCode code c).stock = h.stock := by
  unfold Hub.presentCode; exact foldl_keep _ _ (fun _ _ => by simp) _ _
@[simp] theorem Hub.presentCode_stockFill (h : Hub) (code c : Nat) : (h.presentCode code c).stockFill = h.stockFill := by
  unfold Hub.presentCode; exact foldl_keep _ _ (fun _ _ => by simp) _ _
@[simp] theorem Hub.presentCode_dbgHeld (h : Hub) (code c : Nat) : (h.presentCode code c).dbgHeld = h.dbgHeld := by
  unfold Hub.presentCode; exact foldl_keep _ _ (fun _ _ => by simp) _ _
@[simp] theorem Hub.presentCode_ring (h : Hub) (code c : Nat) : (h.presentCode code c).ring = h.ring := by
  unfold Hub.presentCode; exact foldl_keep _ _ (fun _ _ => by simp) _ _
@[simp] theorem Hub.presentCode_outbox (h : Hub) (code c : Nat) : (h.presentCode code c).outbox = h.outbox := by
  unfold Hub.presentCode; exact foldl_keep _ _ (fun _ _ => by simp) _ _
@[simp] theorem Hub.presentCode_tb (h : Hub) (code c : Nat) : (h.presentCode code c).tb = h.tb := by
  unfold Hub.presentCode; exact foldl_keep _ _ (fun _ _ => by simp) _ _
@[simp] theorem Hub.presentCode_trig (h : Hub) (code c : Nat) : (h.presentCode code c).trig = h.trig := by
  unfold Hub.presentCode; exact foldl_keep _ _ (fun _ _ => by simp) _ _
@[simp] theorem Hub.presentCode_trg (h : Hub) (code c : Nat) : (h.presentCode code c).trg = h.trg := by
  unfold Hub.presentCode; exact foldl_keep _ _ (fun _ _ => by simp) _ _
@[simp] theorem Hub.presentCode_tach (h : Hub) (code c : Nat) : (h.presentCode code c).tach = h.tach := by
  unfold Hub.presentCode; exact foldl_keep _ _ (fun _ _ => by simp) _ _
@[simp] theorem Hub.presentCode_kt (h : Hub) (code c : Nat) : (h.presentCode code c).kt = h.kt := by
  unfold Hub.presentCode; exact foldl_keep _ _ (fun _ _ => by simp) _ _
@[simp] theorem Hub.presentCode_flt (h : Hub) (code c : Nat) : (h.presentCode code c).flt = h.flt := by
  unfold Hub.presentCode; exact foldl_keep _ _ (fun _ _ => by simp) _ _
@[simp] theorem Hub.presentCode_job (h : Hub) (code c : Nat) : (h.presentCode code c).job = h.job := by
  unfold Hub.presentCode; exact foldl_keep _ _ (fun _ _ => by simp) _ _
@[simp] theorem Hub.presentCode_spc (h : Hub) (code c : Nat) : (h.presentCode code c).spc = h.spc := by
  unfold Hub.presentCode; exact foldl_keep _ _ (fun _ _ => by simp) _ _
@[simp] theorem Hub.presentCode_fea (h : Hub) (code c : Nat) : (h.presentCode code c).fea = h.fea := by
  unfold Hub.presentCode; exact foldl_keep _ _ (fun _ _ => by simp) _ _
@[simp] theorem Hub.presentCode_lim (h : Hub) (code c : Nat) : (h.presentCode code c).lim = h.lim := by
  unfold Hub.presentCode; exact foldl_keep _ _ (fun _ _ => by simp) _ _
@[simp] theorem Hub.presentCode_link (h : Hub) (code c : Nat) : (h.presentCode code c).link = h.link := by
  unfold Hub.presentCode; exact foldl_keep _ _ (fun _ _ => by simp) _ _
@[simp] theorem Hub.presentCode_cas (h : Hub) (code c : Nat) : (h.presentCode code c).cas = h.cas := by
  unfold Hub.presentCode; exact foldl_keep _ _ (fun _ _ => by simp) _ _
@[simp] theorem Hub.presentCode_rad (h : Hub) (code c : Nat) : (h.presentCode code c).rad = h.rad := by
  unfold Hub.presentCode; exact foldl_keep _ _ (fun _ _ => by simp) _ _
@[simp] theorem Hub.presentCode_hlt (h : Hub) (code c : Nat) : (h.presentCode code c).hlt = h.hlt := by
  unfold Hub.presentCode; exact foldl_keep _ _ (fun _ _ => by simp) _ _
@[simp] theorem Hub.presentCode_sup (h : Hub) (code c : Nat) : (h.presentCode code c).sup = h.sup := by
  unfold Hub.presentCode; exact foldl_keep _ _ (fun _ _ => by simp) _ _
@[simp] theorem Hub.presentCode_tbMet (h : Hub) (code c : Nat) : (h.presentCode code c).tbMet = h.tbMet := by
  unfold Hub.presentCode; exact foldl_keep _ _ (fun _ _ => by simp) _ _
@[simp] theorem Hub.presentCode_metFollows (h : Hub) (code c : Nat) : (h.presentCode code c).metFollows = h.metFollows := by
  unfold Hub.presentCode; exact foldl_keep _ _ (fun _ _ => by simp) _ _
@[simp] theorem Hub.presentCode_metFifo (h : Hub) (code c : Nat) : (h.presentCode code c).metFifo = h.metFifo := by
  unfold Hub.presentCode; exact foldl_keep _ _ (fun _ _ => by simp) _ _
@[simp] theorem Hub.presentCode_metGap (h : Hub) (code c : Nat) : (h.presentCode code c).metGap = h.metGap := by
  unfold Hub.presentCode; exact foldl_keep _ _ (fun _ _ => by simp) _ _
@[simp] theorem Hub.presentCode_cyc (h : Hub) (code c : Nat) : (h.presentCode code c).cyc = h.cyc := by
  unfold Hub.presentCode; exact foldl_keep _ _ (fun _ _ => by simp) _ _
@[simp] theorem Hub.presentCode_asleep (h : Hub) (code c : Nat) : (h.presentCode code c).asleep = h.asleep := by
  unfold Hub.presentCode; exact foldl_keep _ _ (fun _ _ => by simp) _ _
@[simp] theorem Hub.presentCode_free (h : Hub) (code c : Nat) : (h.presentCode code c).free = h.free := by
  unfold Hub.presentCode; exact foldl_keep _ _ (fun _ _ => by simp) _ _
@[simp] theorem Hub.presentCode_cell (h : Hub) (code c : Nat) (i j k : Nat) : (h.presentCode code c).cell i j k = h.cell i j k := by
  unfold Hub.cell; rw [Hub.presentCode_cells]
@[simp] theorem Hub.presentCode_cf (h : Hub) (code c : Nat) (i j k lo len : Nat) : (h.presentCode code c).cf i j k lo len = h.cf i j k lo len := by
  unfold Hub.cf; rw [Hub.presentCode_cell]
theorem Hub.presentCode_reg (h : Hub) (code c : Nat) {a : Nat} (ha : a < 0x180000 ∨ 0x1A0000 ≤ a) : (h.presentCode code c).reg a = h.reg a := by
  unfold Hub.presentCode; exact foldl_keep_mem (fun g : Hub => g.reg a) _ _ (fun g n hn => Hub.presentAt_reg g n _ (h.chansOf_lt code n hn) ha) _
theorem Hub.presentCode_rd (h : Hub) (code c : Nat) {f : Fld} (ha : f.addr < 0x180000 ∨ 0x1A0000 ≤ f.addr) : (h.presentCode code c).rd f = h.rd f :=
  Hub.rd_congr (Hub.presentCode_reg h code c ha)
theorem Hub.presentCode_is (h : Hub) (code c : Nat) {f : Fld} (ha : f.addr < 0x180000 ∨ 0x1A0000 ≤ f.addr) : (h.presentCode code c).is f = h.is f :=
  Hub.is_congr (Hub.presentCode_rd h code c ha)

/-! ### `Hub.present` -/

@[simp] theorem Hub.present_cells (h : Hub) (code : Nat) : (h.present code).cells = h.cells := by
  unfold Hub.present; simp
@[simp] theorem Hub.present_clk (h : Hub) (code : Nat) : (h.present code).clk = h.clk := by
  unfold Hub.present; simp
@[simp] theorem Hub.present_ldr (h : Hub) (code : Nat) : (h.present code).ldr = h.ldr := by
  unfold Hub.present; simp
@[simp] theorem Hub.present_host (h : Hub) (code : Nat) : (h.present code).host = h.host := by
  unfold Hub.present; simp
@[simp] theorem Hub.present_sp (h : Hub) (code : Nat) : (h.present code).sp = h.sp := by
  unfold Hub.present; simp
@[simp] theorem Hub.present_tw (h : Hub) (code : Nat) : (h.present code).tw = h.tw := by
  unfold Hub.present; simp
@[simp] theorem Hub.present_ingress (h : Hub) (code : Nat) : (h.present code).ingress = h.ingress := by
  unfold Hub.present; simp
@[simp] theorem Hub.present_ctx (h : Hub) (code : Nat) : (h.present code).ctx = h.ctx := by
  unfold Hub.present; simp
@[simp] theorem Hub.present_stg (h : Hub) (code : Nat) : (h.present code).stg = h.stg := by
  unfold Hub.present; simp
@[simp] theorem Hub.present_tile (h : Hub) (code : Nat) : (h.present code).tile = h.tile := by
  unfold Hub.present; simp
@[simp] theorem Hub.present_evSeen (h : Hub) (code : Nat) : (h.present code).evSeen = h.evSeen := by
  unfold Hub.present; simp
@[simp] theorem Hub.present_q (h : Hub) (code : Nat) : (h.present code).q = h.q := by
  unfold Hub.present; simp
@[simp] theorem Hub.present_stock (h : Hub) (code : Nat) : (h.present code).stock = h.stock := by
  unfold Hub.present; simp
@[simp] theorem Hub.present_stockFill (h : Hub) (code : Nat) : (h.present code).stockFill = h.stockFill := by
  unfold Hub.present; simp
@[simp] theorem Hub.present_dbgHeld (h : Hub) (code : Nat) : (h.present code).dbgHeld = h.dbgHeld := by
  unfold Hub.present; simp
@[simp] theorem Hub.present_ring (h : Hub) (code : Nat) : (h.present code).ring = h.ring := by
  unfold Hub.present; simp
@[simp] theorem Hub.present_outbox (h : Hub) (code : Nat) : (h.present code).outbox = h.outbox := by
  unfold Hub.present; simp
@[simp] theorem Hub.present_tb (h : Hub) (code : Nat) : (h.present code).tb = h.tb := by
  unfold Hub.present; simp
@[simp] theorem Hub.present_trig (h : Hub) (code : Nat) : (h.present code).trig = h.trig := by
  unfold Hub.present; simp
@[simp] theorem Hub.present_trg (h : Hub) (code : Nat) : (h.present code).trg = h.trg := by
  unfold Hub.present; simp
@[simp] theorem Hub.present_tach (h : Hub) (code : Nat) : (h.present code).tach = h.tach := by
  unfold Hub.present; simp
@[simp] theorem Hub.present_kt (h : Hub) (code : Nat) : (h.present code).kt = h.kt := by
  unfold Hub.present; simp
@[simp] theorem Hub.present_flt (h : Hub) (code : Nat) : (h.present code).flt = h.flt := by
  unfold Hub.present; simp
@[simp] theorem Hub.present_job (h : Hub) (code : Nat) : (h.present code).job = h.job := by
  unfold Hub.present; simp
@[simp] theorem Hub.present_spc (h : Hub) (code : Nat) : (h.present code).spc = h.spc := by
  unfold Hub.present; simp
@[simp] theorem Hub.present_fea (h : Hub) (code : Nat) : (h.present code).fea = h.fea := by
  unfold Hub.present; simp
@[simp] theorem Hub.present_lim (h : Hub) (code : Nat) : (h.present code).lim = h.lim := by
  unfold Hub.present; simp
@[simp] theorem Hub.present_link (h : Hub) (code : Nat) : (h.present code).link = h.link := by
  unfold Hub.present; simp
@[simp] theorem Hub.present_cas (h : Hub) (code : Nat) : (h.present code).cas = h.cas := by
  unfold Hub.present; simp
@[simp] theorem Hub.present_rad (h : Hub) (code : Nat) : (h.present code).rad = h.rad := by
  unfold Hub.present; simp
@[simp] theorem Hub.present_hlt (h : Hub) (code : Nat) : (h.present code).hlt = h.hlt := by
  unfold Hub.present; simp
@[simp] theorem Hub.present_sup (h : Hub) (code : Nat) : (h.present code).sup = h.sup := by
  unfold Hub.present; simp
@[simp] theorem Hub.present_tbMet (h : Hub) (code : Nat) : (h.present code).tbMet = h.tbMet := by
  unfold Hub.present; simp
@[simp] theorem Hub.present_metFollows (h : Hub) (code : Nat) : (h.present code).metFollows = h.metFollows := by
  unfold Hub.present; simp
@[simp] theorem Hub.present_metFifo (h : Hub) (code : Nat) : (h.present code).metFifo = h.metFifo := by
  unfold Hub.present; simp
@[simp] theorem Hub.present_metGap (h : Hub) (code : Nat) : (h.present code).metGap = h.metGap := by
  unfold Hub.present; simp
@[simp] theorem Hub.present_cyc (h : Hub) (code : Nat) : (h.present code).cyc = h.cyc := by
  unfold Hub.present; simp
@[simp] theorem Hub.present_asleep (h : Hub) (code : Nat) : (h.present code).asleep = h.asleep := by
  unfold Hub.present; simp
@[simp] theorem Hub.present_free (h : Hub) (code : Nat) : (h.present code).free = h.free := by
  unfold Hub.present; simp
@[simp] theorem Hub.present_cell (h : Hub) (code : Nat) (i j k : Nat) : (h.present code).cell i j k = h.cell i j k := by
  unfold Hub.cell; rw [Hub.present_cells]
@[simp] theorem Hub.present_cf (h : Hub) (code : Nat) (i j k lo len : Nat) : (h.present code).cf i j k lo len = h.cf i j k lo len := by
  unfold Hub.cf; rw [Hub.present_cell]
theorem Hub.present_reg (h : Hub) (code : Nat) {a : Nat} (ha : a < 0x180000 ∨ 0x1A0000 ≤ a) : (h.present code).reg a = h.reg a := by
  exact Hub.presentCode_reg _ _ _ ha
theorem Hub.present_rd (h : Hub) (code : Nat) {f : Fld} (ha : f.addr < 0x180000 ∨ 0x1A0000 ≤ f.addr) : (h.present code).rd f = h.rd f :=
  Hub.rd_congr (Hub.present_reg h code ha)
theorem Hub.present_is (h : Hub) (code : Nat) {f : Fld} (ha : f.addr < 0x180000 ∨ 0x1A0000 ≤ f.addr) : (h.present code).is f = h.is f :=
  Hub.is_congr (Hub.present_rd h code ha)

/-! ### `Hub.takeFree` -/

@[simp] theorem Hub.takeFree_regs (h : Hub) : (h.takeFree.2).regs = h.regs := by
  rfl
@[simp] theorem Hub.takeFree_cells (h : Hub) : (h.takeFree.2).cells = h.cells := by
  rfl
@[simp] theorem Hub.takeFree_clk (h : Hub) : (h.takeFree.2).clk = h.clk := by
  rfl
@[simp] theorem Hub.takeFree_ldr (h : Hub) : (h.takeFree.2).ldr = h.ldr := by
  rfl
@[simp] theorem Hub.takeFree_host (h : Hub) : (h.takeFree.2).host = h.host := by
  rfl
@[simp] theorem Hub.takeFree_sp (h : Hub) : (h.takeFree.2).sp = h.sp := by
  rfl
@[simp] theorem Hub.takeFree_tw (h : Hub) : (h.takeFree.2).tw = h.tw := by
  rfl
@[simp] theorem Hub.takeFree_ingress (h : Hub) : (h.takeFree.2).ingress = h.ingress := by
  rfl
@[simp] theorem Hub.takeFree_ctx (h : Hub) : (h.takeFree.2).ctx = h.ctx := by
  rfl
@[simp] theorem Hub.takeFree_stg (h : Hub) : (h.takeFree.2).stg = h.stg := by
  rfl
@[simp] theorem Hub.takeFree_tile (h : Hub) : (h.takeFree.2).tile = h.tile := by
  rfl
@[simp] theorem Hub.takeFree_ev (h : Hub) : (h.takeFree.2).ev = h.ev := by
  rfl
@[simp] theorem Hub.takeFree_evSeen (h : Hub) : (h.takeFree.2).evSeen = h.evSeen := by
  rfl
@[simp] theorem Hub.takeFree_q (h : Hub) : (h.takeFree.2).q = h.q := by
  rfl
@[simp] theorem Hub.takeFree_stock (h : Hub) : (h.takeFree.2).stock = h.stock := by
  rfl
@[simp] theorem Hub.takeFree_stockFill (h : Hub) : (h.takeFree.2).stockFill = h.stockFill := by
  rfl
@[simp] theorem Hub.takeFree_dbgHeld (h : Hub) : (h.takeFree.2).dbgHeld = h.dbgHeld := by
  rfl
@[simp] theorem Hub.takeFree_ring (h : Hub) : (h.takeFree.2).ring = h.ring := by
  rfl
@[simp] theorem Hub.takeFree_outbox (h : Hub) : (h.takeFree.2).outbox = h.outbox := by
  rfl
@[simp] theorem Hub.takeFree_tb (h : Hub) : (h.takeFree.2).tb = h.tb := by
  rfl
@[simp] theorem Hub.takeFree_trig (h : Hub) : (h.takeFree.2).trig = h.trig := by
  rfl
@[simp] theorem Hub.takeFree_trg (h : Hub) : (h.takeFree.2).trg = h.trg := by
  rfl
@[simp] theorem Hub.takeFree_tach (h : Hub) : (h.takeFree.2).tach = h.tach := by
  rfl
@[simp] theorem Hub.takeFree_kt (h : Hub) : (h.takeFree.2).kt = h.kt := by
  rfl
@[simp] theorem Hub.takeFree_flt (h : Hub) : (h.takeFree.2).flt = h.flt := by
  rfl
@[simp] theorem Hub.takeFree_job (h : Hub) : (h.takeFree.2).job = h.job := by
  rfl
@[simp] theorem Hub.takeFree_spc (h : Hub) : (h.takeFree.2).spc = h.spc := by
  rfl
@[simp] theorem Hub.takeFree_fea (h : Hub) : (h.takeFree.2).fea = h.fea := by
  rfl
@[simp] theorem Hub.takeFree_lim (h : Hub) : (h.takeFree.2).lim = h.lim := by
  rfl
@[simp] theorem Hub.takeFree_link (h : Hub) : (h.takeFree.2).link = h.link := by
  rfl
@[simp] theorem Hub.takeFree_cas (h : Hub) : (h.takeFree.2).cas = h.cas := by
  rfl
@[simp] theorem Hub.takeFree_rad (h : Hub) : (h.takeFree.2).rad = h.rad := by
  rfl
@[simp] theorem Hub.takeFree_hlt (h : Hub) : (h.takeFree.2).hlt = h.hlt := by
  rfl
@[simp] theorem Hub.takeFree_sup (h : Hub) : (h.takeFree.2).sup = h.sup := by
  rfl
@[simp] theorem Hub.takeFree_tbMet (h : Hub) : (h.takeFree.2).tbMet = h.tbMet := by
  rfl
@[simp] theorem Hub.takeFree_metFollows (h : Hub) : (h.takeFree.2).metFollows = h.metFollows := by
  rfl
@[simp] theorem Hub.takeFree_metFifo (h : Hub) : (h.takeFree.2).metFifo = h.metFifo := by
  rfl
@[simp] theorem Hub.takeFree_metGap (h : Hub) : (h.takeFree.2).metGap = h.metGap := by
  rfl
@[simp] theorem Hub.takeFree_cyc (h : Hub) : (h.takeFree.2).cyc = h.cyc := by
  rfl
@[simp] theorem Hub.takeFree_asleep (h : Hub) : (h.takeFree.2).asleep = h.asleep := by
  rfl
@[simp] theorem Hub.takeFree_cell (h : Hub) (i j k : Nat) : (h.takeFree.2).cell i j k = h.cell i j k := by
  unfold Hub.cell; rw [Hub.takeFree_cells]
@[simp] theorem Hub.takeFree_cf (h : Hub) (i j k lo len : Nat) : (h.takeFree.2).cf i j k lo len = h.cf i j k lo len := by
  unfold Hub.cf; rw [Hub.takeFree_cell]
@[simp] theorem Hub.takeFree_reg (h : Hub) (a : Nat) : (h.takeFree.2).reg a = h.reg a := by
  unfold Hub.reg; rw [Hub.takeFree_regs]
@[simp] theorem Hub.takeFree_rd (h : Hub) (f : Fld) : (h.takeFree.2).rd f = h.rd f := by
  unfold Hub.rd; rw [Hub.takeFree_reg]
@[simp] theorem Hub.takeFree_is (h : Hub) (f : Fld) : (h.takeFree.2).is f = h.is f := by
  unfold Hub.is; rw [Hub.takeFree_rd]

/-! ### `Hub.coincide` -/

@[simp] theorem Hub.coincide_cells (h : Hub) (code : Nat) : (h.coincide code).cells = h.cells := by
  unfold Hub.coincide; simp
@[simp] theorem Hub.coincide_clk (h : Hub) (code : Nat) : (h.coincide code).clk = h.clk := by
  unfold Hub.coincide; simp
@[simp] theorem Hub.coincide_ldr (h : Hub) (code : Nat) : (h.coincide code).ldr = h.ldr := by
  unfold Hub.coincide; simp
@[simp] theorem Hub.coincide_host (h : Hub) (code : Nat) : (h.coincide code).host = h.host := by
  unfold Hub.coincide; simp
@[simp] theorem Hub.coincide_sp (h : Hub) (code : Nat) : (h.coincide code).sp = h.sp := by
  unfold Hub.coincide; simp
@[simp] theorem Hub.coincide_tw (h : Hub) (code : Nat) : (h.coincide code).tw = h.tw := by
  unfold Hub.coincide; simp
@[simp] theorem Hub.coincide_ingress (h : Hub) (code : Nat) : (h.coincide code).ingress = h.ingress := by
  unfold Hub.coincide; simp
@[simp] theorem Hub.coincide_ctx (h : Hub) (code : Nat) : (h.coincide code).ctx = h.ctx := by
  unfold Hub.coincide; simp
@[simp] theorem Hub.coincide_stg (h : Hub) (code : Nat) : (h.coincide code).stg = h.stg := by
  unfold Hub.coincide; simp
@[simp] theorem Hub.coincide_tile (h : Hub) (code : Nat) : (h.coincide code).tile = h.tile := by
  unfold Hub.coincide; simp
@[simp] theorem Hub.coincide_ev (h : Hub) (code : Nat) : (h.coincide code).ev = h.ev := by
  unfold Hub.coincide; simp
@[simp] theorem Hub.coincide_evSeen (h : Hub) (code : Nat) : (h.coincide code).evSeen = h.evSeen := by
  unfold Hub.coincide; simp
@[simp] theorem Hub.coincide_q (h : Hub) (code : Nat) : (h.coincide code).q = h.q := by
  unfold Hub.coincide; simp
@[simp] theorem Hub.coincide_stock (h : Hub) (code : Nat) : (h.coincide code).stock = h.stock := by
  unfold Hub.coincide; simp
@[simp] theorem Hub.coincide_stockFill (h : Hub) (code : Nat) : (h.coincide code).stockFill = h.stockFill := by
  unfold Hub.coincide; simp
@[simp] theorem Hub.coincide_dbgHeld (h : Hub) (code : Nat) : (h.coincide code).dbgHeld = h.dbgHeld := by
  unfold Hub.coincide; simp
@[simp] theorem Hub.coincide_ring (h : Hub) (code : Nat) : (h.coincide code).ring = h.ring := by
  unfold Hub.coincide; simp
@[simp] theorem Hub.coincide_outbox (h : Hub) (code : Nat) : (h.coincide code).outbox = h.outbox := by
  unfold Hub.coincide; simp
@[simp] theorem Hub.coincide_tb (h : Hub) (code : Nat) : (h.coincide code).tb = h.tb := by
  unfold Hub.coincide; simp
@[simp] theorem Hub.coincide_trig (h : Hub) (code : Nat) : (h.coincide code).trig = h.trig := by
  unfold Hub.coincide; simp
@[simp] theorem Hub.coincide_trg (h : Hub) (code : Nat) : (h.coincide code).trg = h.trg := by
  unfold Hub.coincide; simp
@[simp] theorem Hub.coincide_tach (h : Hub) (code : Nat) : (h.coincide code).tach = h.tach := by
  unfold Hub.coincide; simp
@[simp] theorem Hub.coincide_kt (h : Hub) (code : Nat) : (h.coincide code).kt = h.kt := by
  unfold Hub.coincide; simp
@[simp] theorem Hub.coincide_flt (h : Hub) (code : Nat) : (h.coincide code).flt = h.flt := by
  unfold Hub.coincide; simp
@[simp] theorem Hub.coincide_job (h : Hub) (code : Nat) : (h.coincide code).job = h.job := by
  unfold Hub.coincide; simp
@[simp] theorem Hub.coincide_spc (h : Hub) (code : Nat) : (h.coincide code).spc = h.spc := by
  unfold Hub.coincide; simp
@[simp] theorem Hub.coincide_fea (h : Hub) (code : Nat) : (h.coincide code).fea = h.fea := by
  unfold Hub.coincide; simp
@[simp] theorem Hub.coincide_lim (h : Hub) (code : Nat) : (h.coincide code).lim = h.lim := by
  unfold Hub.coincide; simp
@[simp] theorem Hub.coincide_link (h : Hub) (code : Nat) : (h.coincide code).link = h.link := by
  unfold Hub.coincide; simp
@[simp] theorem Hub.coincide_cas (h : Hub) (code : Nat) : (h.coincide code).cas = h.cas := by
  unfold Hub.coincide; simp
@[simp] theorem Hub.coincide_rad (h : Hub) (code : Nat) : (h.coincide code).rad = h.rad := by
  unfold Hub.coincide; simp
@[simp] theorem Hub.coincide_hlt (h : Hub) (code : Nat) : (h.coincide code).hlt = h.hlt := by
  unfold Hub.coincide; simp
@[simp] theorem Hub.coincide_sup (h : Hub) (code : Nat) : (h.coincide code).sup = h.sup := by
  unfold Hub.coincide; simp
@[simp] theorem Hub.coincide_tbMet (h : Hub) (code : Nat) : (h.coincide code).tbMet = h.tbMet := by
  unfold Hub.coincide; simp
@[simp] theorem Hub.coincide_metFollows (h : Hub) (code : Nat) : (h.coincide code).metFollows = h.metFollows := by
  unfold Hub.coincide; simp
@[simp] theorem Hub.coincide_metFifo (h : Hub) (code : Nat) : (h.coincide code).metFifo = h.metFifo := by
  unfold Hub.coincide; simp
@[simp] theorem Hub.coincide_metGap (h : Hub) (code : Nat) : (h.coincide code).metGap = h.metGap := by
  unfold Hub.coincide; simp
@[simp] theorem Hub.coincide_cyc (h : Hub) (code : Nat) : (h.coincide code).cyc = h.cyc := by
  unfold Hub.coincide; simp
@[simp] theorem Hub.coincide_asleep (h : Hub) (code : Nat) : (h.coincide code).asleep = h.asleep := by
  unfold Hub.coincide; simp
@[simp] theorem Hub.coincide_free (h : Hub) (code : Nat) : (h.coincide code).free = h.free := by
  unfold Hub.coincide; simp
@[simp] theorem Hub.coincide_cell (h : Hub) (code : Nat) (i j k : Nat) : (h.coincide code).cell i j k = h.cell i j k := by
  unfold Hub.cell; rw [Hub.coincide_cells]
@[simp] theorem Hub.coincide_cf (h : Hub) (code : Nat) (i j k lo len : Nat) : (h.coincide code).cf i j k lo len = h.cf i j k lo len := by
  unfold Hub.cf; rw [Hub.coincide_cell]
theorem Hub.coincide_reg (h : Hub) (code : Nat) {a : Nat} (ha : a < 0x180000 ∨ 0x1A0000 ≤ a) : (h.coincide code).reg a = h.reg a := by
  unfold Hub.coincide
  rw [Hub.reg_wr_ne _ _ _ (by simp only [fEvCoincLast, rEvCoinc]; omega), Hub.reg_countSat_ne _ _ _ (by simp only [fEvCoincCount, rEvCoinc]; omega)]
theorem Hub.coincide_rd (h : Hub) (code : Nat) {f : Fld} (ha : f.addr < 0x180000 ∨ 0x1A0000 ≤ f.addr) : (h.coincide code).rd f = h.rd f :=
  Hub.rd_congr (Hub.coincide_reg h code ha)
theorem Hub.coincide_is (h : Hub) (code : Nat) {f : Fld} (ha : f.addr < 0x180000 ∨ 0x1A0000 ≤ f.addr) : (h.coincide code).is f = h.is f :=
  Hub.is_congr (Hub.coincide_rd h code ha)

/-! ### `Hub.taskHit` -/

@[simp] theorem Hub.taskHit_cells (h : Hub) (code : Nat) : ((h.taskHit code).2).cells = h.cells := by
  unfold Hub.taskHit; generalize (if h.evSeen.cyc = h.cyc + 1 then h.evSeen else _) = x; (try dsimp only); (repeat' split) <;> simp
@[simp] theorem Hub.taskHit_clk (h : Hub) (code : Nat) : ((h.taskHit code).2).clk = h.clk := by
  unfold Hub.taskHit; generalize (if h.evSeen.cyc = h.cyc + 1 then h.evSeen else _) = x; (try dsimp only); (repeat' split) <;> simp
@[simp] theorem Hub.taskHit_ldr (h : Hub) (code : Nat) : ((h.taskHit code).2).ldr = h.ldr := by
  unfold Hub.taskHit; generalize (if h.evSeen.cyc = h.cyc + 1 then h.evSeen else _) = x; (try dsimp only); (repeat' split) <;> simp
@[simp] theorem Hub.taskHit_host (h : Hub) (code : Nat) : ((h.taskHit code).2).host = h.host := by
  unfold Hub.taskHit; generalize (if h.evSeen.cyc = h.cyc + 1 then h.evSeen else _) = x; (try dsimp only); (repeat' split) <;> simp
@[simp] theorem Hub.taskHit_sp (h : Hub) (code : Nat) : ((h.taskHit code).2).sp = h.sp := by
  unfold Hub.taskHit; generalize (if h.evSeen.cyc = h.cyc + 1 then h.evSeen else _) = x; (try dsimp only); (repeat' split) <;> simp
@[simp] theorem Hub.taskHit_tw (h : Hub) (code : Nat) : ((h.taskHit code).2).tw = h.tw := by
  unfold Hub.taskHit; generalize (if h.evSeen.cyc = h.cyc + 1 then h.evSeen else _) = x; (try dsimp only); (repeat' split) <;> simp
@[simp] theorem Hub.taskHit_ingress (h : Hub) (code : Nat) : ((h.taskHit code).2).ingress = h.ingress := by
  unfold Hub.taskHit; generalize (if h.evSeen.cyc = h.cyc + 1 then h.evSeen else _) = x; (try dsimp only); (repeat' split) <;> simp
@[simp] theorem Hub.taskHit_ctx (h : Hub) (code : Nat) : ((h.taskHit code).2).ctx = h.ctx := by
  unfold Hub.taskHit; generalize (if h.evSeen.cyc = h.cyc + 1 then h.evSeen else _) = x; (try dsimp only); (repeat' split) <;> simp
@[simp] theorem Hub.taskHit_stg (h : Hub) (code : Nat) : ((h.taskHit code).2).stg = h.stg := by
  unfold Hub.taskHit; generalize (if h.evSeen.cyc = h.cyc + 1 then h.evSeen else _) = x; (try dsimp only); (repeat' split) <;> simp
@[simp] theorem Hub.taskHit_tile (h : Hub) (code : Nat) : ((h.taskHit code).2).tile = h.tile := by
  unfold Hub.taskHit; generalize (if h.evSeen.cyc = h.cyc + 1 then h.evSeen else _) = x; (try dsimp only); (repeat' split) <;> simp
@[simp] theorem Hub.taskHit_ev (h : Hub) (code : Nat) : ((h.taskHit code).2).ev = h.ev := by
  unfold Hub.taskHit; generalize (if h.evSeen.cyc = h.cyc + 1 then h.evSeen else _) = x; (try dsimp only); (repeat' split) <;> simp
@[simp] theorem Hub.taskHit_q (h : Hub) (code : Nat) : ((h.taskHit code).2).q = h.q := by
  unfold Hub.taskHit; generalize (if h.evSeen.cyc = h.cyc + 1 then h.evSeen else _) = x; (try dsimp only); (repeat' split) <;> simp
@[simp] theorem Hub.taskHit_stock (h : Hub) (code : Nat) : ((h.taskHit code).2).stock = h.stock := by
  unfold Hub.taskHit; generalize (if h.evSeen.cyc = h.cyc + 1 then h.evSeen else _) = x; (try dsimp only); (repeat' split) <;> simp
@[simp] theorem Hub.taskHit_stockFill (h : Hub) (code : Nat) : ((h.taskHit code).2).stockFill = h.stockFill := by
  unfold Hub.taskHit; generalize (if h.evSeen.cyc = h.cyc + 1 then h.evSeen else _) = x; (try dsimp only); (repeat' split) <;> simp
@[simp] theorem Hub.taskHit_dbgHeld (h : Hub) (code : Nat) : ((h.taskHit code).2).dbgHeld = h.dbgHeld := by
  unfold Hub.taskHit; generalize (if h.evSeen.cyc = h.cyc + 1 then h.evSeen else _) = x; (try dsimp only); (repeat' split) <;> simp
@[simp] theorem Hub.taskHit_ring (h : Hub) (code : Nat) : ((h.taskHit code).2).ring = h.ring := by
  unfold Hub.taskHit; generalize (if h.evSeen.cyc = h.cyc + 1 then h.evSeen else _) = x; (try dsimp only); (repeat' split) <;> simp
@[simp] theorem Hub.taskHit_outbox (h : Hub) (code : Nat) : ((h.taskHit code).2).outbox = h.outbox := by
  unfold Hub.taskHit; generalize (if h.evSeen.cyc = h.cyc + 1 then h.evSeen else _) = x; (try dsimp only); (repeat' split) <;> simp
@[simp] theorem Hub.taskHit_tb (h : Hub) (code : Nat) : ((h.taskHit code).2).tb = h.tb := by
  unfold Hub.taskHit; generalize (if h.evSeen.cyc = h.cyc + 1 then h.evSeen else _) = x; (try dsimp only); (repeat' split) <;> simp
@[simp] theorem Hub.taskHit_trig (h : Hub) (code : Nat) : ((h.taskHit code).2).trig = h.trig := by
  unfold Hub.taskHit; generalize (if h.evSeen.cyc = h.cyc + 1 then h.evSeen else _) = x; (try dsimp only); (repeat' split) <;> simp
@[simp] theorem Hub.taskHit_trg (h : Hub) (code : Nat) : ((h.taskHit code).2).trg = h.trg := by
  unfold Hub.taskHit; generalize (if h.evSeen.cyc = h.cyc + 1 then h.evSeen else _) = x; (try dsimp only); (repeat' split) <;> simp
@[simp] theorem Hub.taskHit_tach (h : Hub) (code : Nat) : ((h.taskHit code).2).tach = h.tach := by
  unfold Hub.taskHit; generalize (if h.evSeen.cyc = h.cyc + 1 then h.evSeen else _) = x; (try dsimp only); (repeat' split) <;> simp
@[simp] theorem Hub.taskHit_kt (h : Hub) (code : Nat) : ((h.taskHit code).2).kt = h.kt := by
  unfold Hub.taskHit; generalize (if h.evSeen.cyc = h.cyc + 1 then h.evSeen else _) = x; (try dsimp only); (repeat' split) <;> simp
@[simp] theorem Hub.taskHit_flt (h : Hub) (code : Nat) : ((h.taskHit code).2).flt = h.flt := by
  unfold Hub.taskHit; generalize (if h.evSeen.cyc = h.cyc + 1 then h.evSeen else _) = x; (try dsimp only); (repeat' split) <;> simp
@[simp] theorem Hub.taskHit_job (h : Hub) (code : Nat) : ((h.taskHit code).2).job = h.job := by
  unfold Hub.taskHit; generalize (if h.evSeen.cyc = h.cyc + 1 then h.evSeen else _) = x; (try dsimp only); (repeat' split) <;> simp
@[simp] theorem Hub.taskHit_spc (h : Hub) (code : Nat) : ((h.taskHit code).2).spc = h.spc := by
  unfold Hub.taskHit; generalize (if h.evSeen.cyc = h.cyc + 1 then h.evSeen else _) = x; (try dsimp only); (repeat' split) <;> simp
@[simp] theorem Hub.taskHit_fea (h : Hub) (code : Nat) : ((h.taskHit code).2).fea = h.fea := by
  unfold Hub.taskHit; generalize (if h.evSeen.cyc = h.cyc + 1 then h.evSeen else _) = x; (try dsimp only); (repeat' split) <;> simp
@[simp] theorem Hub.taskHit_lim (h : Hub) (code : Nat) : ((h.taskHit code).2).lim = h.lim := by
  unfold Hub.taskHit; generalize (if h.evSeen.cyc = h.cyc + 1 then h.evSeen else _) = x; (try dsimp only); (repeat' split) <;> simp
@[simp] theorem Hub.taskHit_link (h : Hub) (code : Nat) : ((h.taskHit code).2).link = h.link := by
  unfold Hub.taskHit; generalize (if h.evSeen.cyc = h.cyc + 1 then h.evSeen else _) = x; (try dsimp only); (repeat' split) <;> simp
@[simp] theorem Hub.taskHit_cas (h : Hub) (code : Nat) : ((h.taskHit code).2).cas = h.cas := by
  unfold Hub.taskHit; generalize (if h.evSeen.cyc = h.cyc + 1 then h.evSeen else _) = x; (try dsimp only); (repeat' split) <;> simp
@[simp] theorem Hub.taskHit_rad (h : Hub) (code : Nat) : ((h.taskHit code).2).rad = h.rad := by
  unfold Hub.taskHit; generalize (if h.evSeen.cyc = h.cyc + 1 then h.evSeen else _) = x; (try dsimp only); (repeat' split) <;> simp
@[simp] theorem Hub.taskHit_hlt (h : Hub) (code : Nat) : ((h.taskHit code).2).hlt = h.hlt := by
  unfold Hub.taskHit; generalize (if h.evSeen.cyc = h.cyc + 1 then h.evSeen else _) = x; (try dsimp only); (repeat' split) <;> simp
@[simp] theorem Hub.taskHit_sup (h : Hub) (code : Nat) : ((h.taskHit code).2).sup = h.sup := by
  unfold Hub.taskHit; generalize (if h.evSeen.cyc = h.cyc + 1 then h.evSeen else _) = x; (try dsimp only); (repeat' split) <;> simp
@[simp] theorem Hub.taskHit_tbMet (h : Hub) (code : Nat) : ((h.taskHit code).2).tbMet = h.tbMet := by
  unfold Hub.taskHit; generalize (if h.evSeen.cyc = h.cyc + 1 then h.evSeen else _) = x; (try dsimp only); (repeat' split) <;> simp
@[simp] theorem Hub.taskHit_metFollows (h : Hub) (code : Nat) : ((h.taskHit code).2).metFollows = h.metFollows := by
  unfold Hub.taskHit; generalize (if h.evSeen.cyc = h.cyc + 1 then h.evSeen else _) = x; (try dsimp only); (repeat' split) <;> simp
@[simp] theorem Hub.taskHit_metFifo (h : Hub) (code : Nat) : ((h.taskHit code).2).metFifo = h.metFifo := by
  unfold Hub.taskHit; generalize (if h.evSeen.cyc = h.cyc + 1 then h.evSeen else _) = x; (try dsimp only); (repeat' split) <;> simp
@[simp] theorem Hub.taskHit_metGap (h : Hub) (code : Nat) : ((h.taskHit code).2).metGap = h.metGap := by
  unfold Hub.taskHit; generalize (if h.evSeen.cyc = h.cyc + 1 then h.evSeen else _) = x; (try dsimp only); (repeat' split) <;> simp
@[simp] theorem Hub.taskHit_cyc (h : Hub) (code : Nat) : ((h.taskHit code).2).cyc = h.cyc := by
  unfold Hub.taskHit; generalize (if h.evSeen.cyc = h.cyc + 1 then h.evSeen else _) = x; (try dsimp only); (repeat' split) <;> simp
@[simp] theorem Hub.taskHit_asleep (h : Hub) (code : Nat) : ((h.taskHit code).2).asleep = h.asleep := by
  unfold Hub.taskHit; generalize (if h.evSeen.cyc = h.cyc + 1 then h.evSeen else _) = x; (try dsimp only); (repeat' split) <;> simp
@[simp] theorem Hub.taskHit_cell (h : Hub) (code : Nat) (i j k : Nat) : ((h.taskHit code).2).cell i j k = h.cell i j k := by
  unfold Hub.cell; rw [Hub.taskHit_cells]
@[simp] theorem Hub.taskHit_cf (h : Hub) (code : Nat) (i j k lo len : Nat) : ((h.taskHit code).2).cf i j k lo len = h.cf i j k lo len := by
  unfold Hub.cf; rw [Hub.taskHit_cell]
theorem Hub.taskHit_reg (h : Hub) (code : Nat) {a : Nat} (ha : a < 0x180000 ∨ 0x1A0000 ≤ a) : ((h.taskHit code).2).reg a = h.reg a := by
  unfold Hub.taskHit; generalize (if h.evSeen.cyc = h.cyc + 1 then h.evSeen else _) = x; (try dsimp only); (repeat' split) <;> first | rfl | exact Hub.coincide_reg _ _ ha
theorem Hub.taskHit_rd (h : Hub) (code : Nat) {f : Fld} (ha : f.addr < 0x180000 ∨ 0x1A0000 ≤ f.addr) : ((h.taskHit code).2).rd f = h.rd f :=
  Hub.rd_congr (Hub.taskHit_reg h code ha)
theorem Hub.taskHit_is (h : Hub) (code : Nat) {f : Fld} (ha : f.addr < 0x180000 ∨ 0x1A0000 ≤ f.addr) : ((h.taskHit code).2).is f = h.is f :=
  Hub.is_congr (Hub.taskHit_rd h code ha)

/-! ### `Hub.bkTake` -/

@[simp] theorem Hub.bkTake_cells (h : Hub) (b : Nat) : (h.bkTake b).cells = h.cells := by
  unfold Hub.bkTake; simp
@[simp] theorem Hub.bkTake_clk (h : Hub) (b : Nat) : (h.bkTake b).clk = h.clk := by
  unfold Hub.bkTake; simp
@[simp] theorem Hub.bkTake_ldr (h : Hub) (b : Nat) : (h.bkTake b).ldr = h.ldr := by
  unfold Hub.bkTake; simp
@[simp] theorem Hub.bkTake_host (h : Hub) (b : Nat) : (h.bkTake b).host = h.host := by
  unfold Hub.bkTake; simp
@[simp] theorem Hub.bkTake_sp (h : Hub) (b : Nat) : (h.bkTake b).sp = h.sp := by
  unfold Hub.bkTake; simp
@[simp] theorem Hub.bkTake_tw (h : Hub) (b : Nat) : (h.bkTake b).tw = h.tw := by
  unfold Hub.bkTake; simp
@[simp] theorem Hub.bkTake_ingress (h : Hub) (b : Nat) : (h.bkTake b).ingress = h.ingress := by
  unfold Hub.bkTake; simp
@[simp] theorem Hub.bkTake_ctx (h : Hub) (b : Nat) : (h.bkTake b).ctx = h.ctx := by
  unfold Hub.bkTake; simp
@[simp] theorem Hub.bkTake_stg (h : Hub) (b : Nat) : (h.bkTake b).stg = h.stg := by
  unfold Hub.bkTake; simp
@[simp] theorem Hub.bkTake_tile (h : Hub) (b : Nat) : (h.bkTake b).tile = h.tile := by
  unfold Hub.bkTake; simp
@[simp] theorem Hub.bkTake_ev (h : Hub) (b : Nat) : (h.bkTake b).ev = h.ev := by
  unfold Hub.bkTake; simp
@[simp] theorem Hub.bkTake_evSeen (h : Hub) (b : Nat) : (h.bkTake b).evSeen = h.evSeen := by
  unfold Hub.bkTake; simp
@[simp] theorem Hub.bkTake_q (h : Hub) (b : Nat) : (h.bkTake b).q = h.q := by
  unfold Hub.bkTake; simp
@[simp] theorem Hub.bkTake_stock (h : Hub) (b : Nat) : (h.bkTake b).stock = h.stock := by
  unfold Hub.bkTake; simp
@[simp] theorem Hub.bkTake_stockFill (h : Hub) (b : Nat) : (h.bkTake b).stockFill = h.stockFill := by
  unfold Hub.bkTake; simp
@[simp] theorem Hub.bkTake_dbgHeld (h : Hub) (b : Nat) : (h.bkTake b).dbgHeld = h.dbgHeld := by
  unfold Hub.bkTake; simp
@[simp] theorem Hub.bkTake_ring (h : Hub) (b : Nat) : (h.bkTake b).ring = h.ring := by
  unfold Hub.bkTake; simp
@[simp] theorem Hub.bkTake_outbox (h : Hub) (b : Nat) : (h.bkTake b).outbox = h.outbox := by
  unfold Hub.bkTake; simp
@[simp] theorem Hub.bkTake_tb (h : Hub) (b : Nat) : (h.bkTake b).tb = h.tb := by
  unfold Hub.bkTake; simp
@[simp] theorem Hub.bkTake_trig (h : Hub) (b : Nat) : (h.bkTake b).trig = h.trig := by
  unfold Hub.bkTake; simp
@[simp] theorem Hub.bkTake_trg (h : Hub) (b : Nat) : (h.bkTake b).trg = h.trg := by
  unfold Hub.bkTake; simp
@[simp] theorem Hub.bkTake_tach (h : Hub) (b : Nat) : (h.bkTake b).tach = h.tach := by
  unfold Hub.bkTake; simp
@[simp] theorem Hub.bkTake_kt (h : Hub) (b : Nat) : (h.bkTake b).kt = h.kt := by
  unfold Hub.bkTake; simp
@[simp] theorem Hub.bkTake_flt (h : Hub) (b : Nat) : (h.bkTake b).flt = h.flt := by
  unfold Hub.bkTake; simp
@[simp] theorem Hub.bkTake_job (h : Hub) (b : Nat) : (h.bkTake b).job = h.job := by
  unfold Hub.bkTake; simp
@[simp] theorem Hub.bkTake_spc (h : Hub) (b : Nat) : (h.bkTake b).spc = h.spc := by
  unfold Hub.bkTake; simp
@[simp] theorem Hub.bkTake_fea (h : Hub) (b : Nat) : (h.bkTake b).fea = h.fea := by
  unfold Hub.bkTake; simp
@[simp] theorem Hub.bkTake_lim (h : Hub) (b : Nat) : (h.bkTake b).lim = h.lim := by
  unfold Hub.bkTake; simp
@[simp] theorem Hub.bkTake_link (h : Hub) (b : Nat) : (h.bkTake b).link = h.link := by
  unfold Hub.bkTake; simp
@[simp] theorem Hub.bkTake_cas (h : Hub) (b : Nat) : (h.bkTake b).cas = h.cas := by
  unfold Hub.bkTake; simp
@[simp] theorem Hub.bkTake_rad (h : Hub) (b : Nat) : (h.bkTake b).rad = h.rad := by
  unfold Hub.bkTake; simp
@[simp] theorem Hub.bkTake_hlt (h : Hub) (b : Nat) : (h.bkTake b).hlt = h.hlt := by
  unfold Hub.bkTake; simp
@[simp] theorem Hub.bkTake_sup (h : Hub) (b : Nat) : (h.bkTake b).sup = h.sup := by
  unfold Hub.bkTake; simp
@[simp] theorem Hub.bkTake_tbMet (h : Hub) (b : Nat) : (h.bkTake b).tbMet = h.tbMet := by
  unfold Hub.bkTake; simp
@[simp] theorem Hub.bkTake_metFollows (h : Hub) (b : Nat) : (h.bkTake b).metFollows = h.metFollows := by
  unfold Hub.bkTake; simp
@[simp] theorem Hub.bkTake_metFifo (h : Hub) (b : Nat) : (h.bkTake b).metFifo = h.metFifo := by
  unfold Hub.bkTake; simp
@[simp] theorem Hub.bkTake_metGap (h : Hub) (b : Nat) : (h.bkTake b).metGap = h.metGap := by
  unfold Hub.bkTake; simp
@[simp] theorem Hub.bkTake_cyc (h : Hub) (b : Nat) : (h.bkTake b).cyc = h.cyc := by
  unfold Hub.bkTake; simp
@[simp] theorem Hub.bkTake_asleep (h : Hub) (b : Nat) : (h.bkTake b).asleep = h.asleep := by
  unfold Hub.bkTake; simp
@[simp] theorem Hub.bkTake_free (h : Hub) (b : Nat) : (h.bkTake b).free = h.free := by
  unfold Hub.bkTake; simp
@[simp] theorem Hub.bkTake_cell (h : Hub) (b : Nat) (i j k : Nat) : (h.bkTake b).cell i j k = h.cell i j k := by
  unfold Hub.cell; rw [Hub.bkTake_cells]
@[simp] theorem Hub.bkTake_cf (h : Hub) (b : Nat) (i j k lo len : Nat) : (h.bkTake b).cf i j k lo len = h.cf i j k lo len := by
  unfold Hub.cf; rw [Hub.bkTake_cell]

theorem Hub.bkTake_reg (h : Hub) (b : Nat) {a : Nat} (hb : b < 6) (ha : a < 0x1F8000 ∨ 0x1F9000 ≤ a) :
    (h.bkTake b).reg a = h.reg a := Hub.reg_count_ne _ _ _ (by simp only [fHltBkTokens, rHltBk]; omega)

/-! ### `Hub.sendSuppressed` -/

@[simp] theorem Hub.sendSuppressed_cells (h : Hub) : (h.sendSuppressed).cells = h.cells := by
  unfold Hub.sendSuppressed; (try dsimp only); (repeat' split) <;> simp
@[simp] theorem Hub.sendSuppressed_clk (h : Hub) : (h.sendSuppressed).clk = h.clk := by
  unfold Hub.sendSuppressed; (try dsimp only); (repeat' split) <;> simp
@[simp] theorem Hub.sendSuppressed_ldr (h : Hub) : (h.sendSuppressed).ldr = h.ldr := by
  unfold Hub.sendSuppressed; (try dsimp only); (repeat' split) <;> simp
@[simp] theorem Hub.sendSuppressed_host (h : Hub) : (h.sendSuppressed).host = h.host := by
  unfold Hub.sendSuppressed; (try dsimp only); (repeat' split) <;> simp
@[simp] theorem Hub.sendSuppressed_sp (h : Hub) : (h.sendSuppressed).sp = h.sp := by
  unfold Hub.sendSuppressed; (try dsimp only); (repeat' split) <;> simp
@[simp] theorem Hub.sendSuppressed_tw (h : Hub) : (h.sendSuppressed).tw = h.tw := by
  unfold Hub.sendSuppressed; (try dsimp only); (repeat' split) <;> simp
@[simp] theorem Hub.sendSuppressed_ingress (h : Hub) : (h.sendSuppressed).ingress = h.ingress := by
  unfold Hub.sendSuppressed; (try dsimp only); (repeat' split) <;> simp
@[simp] theorem Hub.sendSuppressed_ctx (h : Hub) : (h.sendSuppressed).ctx = h.ctx := by
  unfold Hub.sendSuppressed; (try dsimp only); (repeat' split) <;> simp
@[simp] theorem Hub.sendSuppressed_stg (h : Hub) : (h.sendSuppressed).stg = h.stg := by
  unfold Hub.sendSuppressed; (try dsimp only); (repeat' split) <;> simp
@[simp] theorem Hub.sendSuppressed_tile (h : Hub) : (h.sendSuppressed).tile = h.tile := by
  unfold Hub.sendSuppressed; (try dsimp only); (repeat' split) <;> simp
@[simp] theorem Hub.sendSuppressed_ev (h : Hub) : (h.sendSuppressed).ev = h.ev := by
  unfold Hub.sendSuppressed; (try dsimp only); (repeat' split) <;> simp
@[simp] theorem Hub.sendSuppressed_evSeen (h : Hub) : (h.sendSuppressed).evSeen = h.evSeen := by
  unfold Hub.sendSuppressed; (try dsimp only); (repeat' split) <;> simp
@[simp] theorem Hub.sendSuppressed_q (h : Hub) : (h.sendSuppressed).q = h.q := by
  unfold Hub.sendSuppressed; (try dsimp only); (repeat' split) <;> simp
@[simp] theorem Hub.sendSuppressed_stock (h : Hub) : (h.sendSuppressed).stock = h.stock := by
  unfold Hub.sendSuppressed; (try dsimp only); (repeat' split) <;> simp
@[simp] theorem Hub.sendSuppressed_stockFill (h : Hub) : (h.sendSuppressed).stockFill = h.stockFill := by
  unfold Hub.sendSuppressed; (try dsimp only); (repeat' split) <;> simp
@[simp] theorem Hub.sendSuppressed_dbgHeld (h : Hub) : (h.sendSuppressed).dbgHeld = h.dbgHeld := by
  unfold Hub.sendSuppressed; (try dsimp only); (repeat' split) <;> simp
@[simp] theorem Hub.sendSuppressed_ring (h : Hub) : (h.sendSuppressed).ring = h.ring := by
  unfold Hub.sendSuppressed; (try dsimp only); (repeat' split) <;> simp
@[simp] theorem Hub.sendSuppressed_tb (h : Hub) : (h.sendSuppressed).tb = h.tb := by
  unfold Hub.sendSuppressed; (try dsimp only); (repeat' split) <;> simp
@[simp] theorem Hub.sendSuppressed_trig (h : Hub) : (h.sendSuppressed).trig = h.trig := by
  unfold Hub.sendSuppressed; (try dsimp only); (repeat' split) <;> simp
@[simp] theorem Hub.sendSuppressed_trg (h : Hub) : (h.sendSuppressed).trg = h.trg := by
  unfold Hub.sendSuppressed; (try dsimp only); (repeat' split) <;> simp
@[simp] theorem Hub.sendSuppressed_tach (h : Hub) : (h.sendSuppressed).tach = h.tach := by
  unfold Hub.sendSuppressed; (try dsimp only); (repeat' split) <;> simp
@[simp] theorem Hub.sendSuppressed_kt (h : Hub) : (h.sendSuppressed).kt = h.kt := by
  unfold Hub.sendSuppressed; (try dsimp only); (repeat' split) <;> simp
@[simp] theorem Hub.sendSuppressed_job (h : Hub) : (h.sendSuppressed).job = h.job := by
  unfold Hub.sendSuppressed; (try dsimp only); (repeat' split) <;> simp
@[simp] theorem Hub.sendSuppressed_spc (h : Hub) : (h.sendSuppressed).spc = h.spc := by
  unfold Hub.sendSuppressed; (try dsimp only); (repeat' split) <;> simp
@[simp] theorem Hub.sendSuppressed_fea (h : Hub) : (h.sendSuppressed).fea = h.fea := by
  unfold Hub.sendSuppressed; (try dsimp only); (repeat' split) <;> simp
@[simp] theorem Hub.sendSuppressed_lim (h : Hub) : (h.sendSuppressed).lim = h.lim := by
  unfold Hub.sendSuppressed; (try dsimp only); (repeat' split) <;> simp
@[simp] theorem Hub.sendSuppressed_link (h : Hub) : (h.sendSuppressed).link = h.link := by
  unfold Hub.sendSuppressed; (try dsimp only); (repeat' split) <;> simp
@[simp] theorem Hub.sendSuppressed_cas (h : Hub) : (h.sendSuppressed).cas = h.cas := by
  unfold Hub.sendSuppressed; (try dsimp only); (repeat' split) <;> simp
@[simp] theorem Hub.sendSuppressed_rad (h : Hub) : (h.sendSuppressed).rad = h.rad := by
  unfold Hub.sendSuppressed; (try dsimp only); (repeat' split) <;> simp
@[simp] theorem Hub.sendSuppressed_hlt (h : Hub) : (h.sendSuppressed).hlt = h.hlt := by
  unfold Hub.sendSuppressed; (try dsimp only); (repeat' split) <;> simp
@[simp] theorem Hub.sendSuppressed_sup (h : Hub) : (h.sendSuppressed).sup = h.sup := by
  unfold Hub.sendSuppressed; (try dsimp only); (repeat' split) <;> simp
@[simp] theorem Hub.sendSuppressed_tbMet (h : Hub) : (h.sendSuppressed).tbMet = h.tbMet := by
  unfold Hub.sendSuppressed; (try dsimp only); (repeat' split) <;> simp
@[simp] theorem Hub.sendSuppressed_metFollows (h : Hub) : (h.sendSuppressed).metFollows = h.metFollows := by
  unfold Hub.sendSuppressed; (try dsimp only); (repeat' split) <;> simp
@[simp] theorem Hub.sendSuppressed_metFifo (h : Hub) : (h.sendSuppressed).metFifo = h.metFifo := by
  unfold Hub.sendSuppressed; (try dsimp only); (repeat' split) <;> simp
@[simp] theorem Hub.sendSuppressed_metGap (h : Hub) : (h.sendSuppressed).metGap = h.metGap := by
  unfold Hub.sendSuppressed; (try dsimp only); (repeat' split) <;> simp
@[simp] theorem Hub.sendSuppressed_cyc (h : Hub) : (h.sendSuppressed).cyc = h.cyc := by
  unfold Hub.sendSuppressed; (try dsimp only); (repeat' split) <;> simp
@[simp] theorem Hub.sendSuppressed_asleep (h : Hub) : (h.sendSuppressed).asleep = h.asleep := by
  unfold Hub.sendSuppressed; (try dsimp only); (repeat' split) <;> simp
@[simp] theorem Hub.sendSuppressed_free (h : Hub) : (h.sendSuppressed).free = h.free := by
  unfold Hub.sendSuppressed; (try dsimp only); (repeat' split) <;> simp
@[simp] theorem Hub.sendSuppressed_cell (h : Hub) (i j k : Nat) : (h.sendSuppressed).cell i j k = h.cell i j k := by
  unfold Hub.cell; rw [Hub.sendSuppressed_cells]
@[simp] theorem Hub.sendSuppressed_cf (h : Hub) (i j k lo len : Nat) : (h.sendSuppressed).cf i j k lo len = h.cf i j k lo len := by
  unfold Hub.cf; rw [Hub.sendSuppressed_cell]
theorem Hub.sendSuppressed_reg (h : Hub) {a : Nat} (ha : a < 0x1F8000 ∨ 0x1F9000 ≤ a) : (h.sendSuppressed).reg a = h.reg a := by
  unfold Hub.sendSuppressed
  split
  · exact (Hub.bkTake_reg h 1 (by omega) ha)
  · rfl
theorem Hub.sendSuppressed_rd (h : Hub) {f : Fld} (ha : f.addr < 0x1F8000 ∨ 0x1F9000 ≤ f.addr) : (h.sendSuppressed).rd f = h.rd f :=
  Hub.rd_congr (Hub.sendSuppressed_reg h  ha)
theorem Hub.sendSuppressed_is (h : Hub) {f : Fld} (ha : f.addr < 0x1F8000 ∨ 0x1F9000 ≤ f.addr) : (h.sendSuppressed).is f = h.is f :=
  Hub.is_congr (Hub.sendSuppressed_rd h  ha)

/-! ### `Hub.suppress` -/

@[simp] theorem Hub.suppress_cells (h : Hub) (typ : Nat) : (h.suppress typ).cells = h.cells := by
  unfold Hub.suppress; (try dsimp only); simp
@[simp] theorem Hub.suppress_clk (h : Hub) (typ : Nat) : (h.suppress typ).clk = h.clk := by
  unfold Hub.suppress; (try dsimp only); simp
@[simp] theorem Hub.suppress_ldr (h : Hub) (typ : Nat) : (h.suppress typ).ldr = h.ldr := by
  unfold Hub.suppress; (try dsimp only); simp
@[simp] theorem Hub.suppress_host (h : Hub) (typ : Nat) : (h.suppress typ).host = h.host := by
  unfold Hub.suppress; (try dsimp only); simp
@[simp] theorem Hub.suppress_sp (h : Hub) (typ : Nat) : (h.suppress typ).sp = h.sp := by
  unfold Hub.suppress; (try dsimp only); simp
@[simp] theorem Hub.suppress_tw (h : Hub) (typ : Nat) : (h.suppress typ).tw = h.tw := by
  unfold Hub.suppress; (try dsimp only); simp
@[simp] theorem Hub.suppress_ingress (h : Hub) (typ : Nat) : (h.suppress typ).ingress = h.ingress := by
  unfold Hub.suppress; (try dsimp only); simp
@[simp] theorem Hub.suppress_ctx (h : Hub) (typ : Nat) : (h.suppress typ).ctx = h.ctx := by
  unfold Hub.suppress; (try dsimp only); simp
@[simp] theorem Hub.suppress_stg (h : Hub) (typ : Nat) : (h.suppress typ).stg = h.stg := by
  unfold Hub.suppress; (try dsimp only); simp
@[simp] theorem Hub.suppress_tile (h : Hub) (typ : Nat) : (h.suppress typ).tile = h.tile := by
  unfold Hub.suppress; (try dsimp only); simp
@[simp] theorem Hub.suppress_ev (h : Hub) (typ : Nat) : (h.suppress typ).ev = h.ev := by
  unfold Hub.suppress; (try dsimp only); simp
@[simp] theorem Hub.suppress_evSeen (h : Hub) (typ : Nat) : (h.suppress typ).evSeen = h.evSeen := by
  unfold Hub.suppress; (try dsimp only); simp
@[simp] theorem Hub.suppress_q (h : Hub) (typ : Nat) : (h.suppress typ).q = h.q := by
  unfold Hub.suppress; (try dsimp only); simp
@[simp] theorem Hub.suppress_stock (h : Hub) (typ : Nat) : (h.suppress typ).stock = h.stock := by
  unfold Hub.suppress; (try dsimp only); simp
@[simp] theorem Hub.suppress_stockFill (h : Hub) (typ : Nat) : (h.suppress typ).stockFill = h.stockFill := by
  unfold Hub.suppress; (try dsimp only); simp
@[simp] theorem Hub.suppress_dbgHeld (h : Hub) (typ : Nat) : (h.suppress typ).dbgHeld = h.dbgHeld := by
  unfold Hub.suppress; (try dsimp only); simp
@[simp] theorem Hub.suppress_ring (h : Hub) (typ : Nat) : (h.suppress typ).ring = h.ring := by
  unfold Hub.suppress; (try dsimp only); simp
@[simp] theorem Hub.suppress_outbox (h : Hub) (typ : Nat) : (h.suppress typ).outbox = h.outbox := by
  unfold Hub.suppress; (try dsimp only); simp
@[simp] theorem Hub.suppress_tb (h : Hub) (typ : Nat) : (h.suppress typ).tb = h.tb := by
  unfold Hub.suppress; (try dsimp only); simp
@[simp] theorem Hub.suppress_trig (h : Hub) (typ : Nat) : (h.suppress typ).trig = h.trig := by
  unfold Hub.suppress; (try dsimp only); simp
@[simp] theorem Hub.suppress_trg (h : Hub) (typ : Nat) : (h.suppress typ).trg = h.trg := by
  unfold Hub.suppress; (try dsimp only); simp
@[simp] theorem Hub.suppress_tach (h : Hub) (typ : Nat) : (h.suppress typ).tach = h.tach := by
  unfold Hub.suppress; (try dsimp only); simp
@[simp] theorem Hub.suppress_kt (h : Hub) (typ : Nat) : (h.suppress typ).kt = h.kt := by
  unfold Hub.suppress; (try dsimp only); simp
@[simp] theorem Hub.suppress_job (h : Hub) (typ : Nat) : (h.suppress typ).job = h.job := by
  unfold Hub.suppress; (try dsimp only); simp
@[simp] theorem Hub.suppress_spc (h : Hub) (typ : Nat) : (h.suppress typ).spc = h.spc := by
  unfold Hub.suppress; (try dsimp only); simp
@[simp] theorem Hub.suppress_fea (h : Hub) (typ : Nat) : (h.suppress typ).fea = h.fea := by
  unfold Hub.suppress; (try dsimp only); simp
@[simp] theorem Hub.suppress_lim (h : Hub) (typ : Nat) : (h.suppress typ).lim = h.lim := by
  unfold Hub.suppress; (try dsimp only); simp
@[simp] theorem Hub.suppress_link (h : Hub) (typ : Nat) : (h.suppress typ).link = h.link := by
  unfold Hub.suppress; (try dsimp only); simp
@[simp] theorem Hub.suppress_cas (h : Hub) (typ : Nat) : (h.suppress typ).cas = h.cas := by
  unfold Hub.suppress; (try dsimp only); simp
@[simp] theorem Hub.suppress_rad (h : Hub) (typ : Nat) : (h.suppress typ).rad = h.rad := by
  unfold Hub.suppress; (try dsimp only); simp
@[simp] theorem Hub.suppress_hlt (h : Hub) (typ : Nat) : (h.suppress typ).hlt = h.hlt := by
  unfold Hub.suppress; (try dsimp only); simp
@[simp] theorem Hub.suppress_sup (h : Hub) (typ : Nat) : (h.suppress typ).sup = h.sup := by
  unfold Hub.suppress; (try dsimp only); simp
@[simp] theorem Hub.suppress_tbMet (h : Hub) (typ : Nat) : (h.suppress typ).tbMet = h.tbMet := by
  unfold Hub.suppress; (try dsimp only); simp
@[simp] theorem Hub.suppress_metFollows (h : Hub) (typ : Nat) : (h.suppress typ).metFollows = h.metFollows := by
  unfold Hub.suppress; (try dsimp only); simp
@[simp] theorem Hub.suppress_metFifo (h : Hub) (typ : Nat) : (h.suppress typ).metFifo = h.metFifo := by
  unfold Hub.suppress; (try dsimp only); simp
@[simp] theorem Hub.suppress_metGap (h : Hub) (typ : Nat) : (h.suppress typ).metGap = h.metGap := by
  unfold Hub.suppress; (try dsimp only); simp
@[simp] theorem Hub.suppress_cyc (h : Hub) (typ : Nat) : (h.suppress typ).cyc = h.cyc := by
  unfold Hub.suppress; (try dsimp only); simp
@[simp] theorem Hub.suppress_asleep (h : Hub) (typ : Nat) : (h.suppress typ).asleep = h.asleep := by
  unfold Hub.suppress; (try dsimp only); simp
@[simp] theorem Hub.suppress_free (h : Hub) (typ : Nat) : (h.suppress typ).free = h.free := by
  unfold Hub.suppress; (try dsimp only); simp
@[simp] theorem Hub.suppress_cell (h : Hub) (typ : Nat) (i j k : Nat) : (h.suppress typ).cell i j k = h.cell i j k := by
  unfold Hub.cell; rw [Hub.suppress_cells]
@[simp] theorem Hub.suppress_cf (h : Hub) (typ : Nat) (i j k lo len : Nat) : (h.suppress typ).cf i j k lo len = h.cf i j k lo len := by
  unfold Hub.cf; rw [Hub.suppress_cell]
theorem Hub.suppress_reg (h : Hub) (typ : Nat) {a : Nat} (ha : a < 0x1F8000 ∨ 0x1F9000 ≤ a) : (h.suppress typ).reg a = h.reg a := by
  show (((h.on fHltFltStatusSuppressed).countSat (fHltBkCount 1) 1)).reg a = _
  rw [Hub.reg_countSat_ne _ _ _ (by simp only [fHltBkCount, rHltBk]; omega), Hub.reg_on_ne _ _ (by simp only [fHltFltStatusSuppressed, rHltFltStatus]; omega)]
theorem Hub.suppress_rd (h : Hub) (typ : Nat) {f : Fld} (ha : f.addr < 0x1F8000 ∨ 0x1F9000 ≤ f.addr) : (h.suppress typ).rd f = h.rd f :=
  Hub.rd_congr (Hub.suppress_reg h typ ha)
theorem Hub.suppress_is (h : Hub) (typ : Nat) {f : Fld} (ha : f.addr < 0x1F8000 ∨ 0x1F9000 ≤ f.addr) : (h.suppress typ).is f = h.is f :=
  Hub.is_congr (Hub.suppress_rd h typ ha)

/-! ### `Hub.sendLogUp` -/

@[simp] theorem Hub.sendLogUp_cells (h : Hub) (ws : List Word) : (h.sendLogUp ws).cells = h.cells := by
  unfold Hub.sendLogUp Hub.sendLogUp.addLink0; (try dsimp only); simp
@[simp] theorem Hub.sendLogUp_clk (h : Hub) (ws : List Word) : (h.sendLogUp ws).clk = h.clk := by
  unfold Hub.sendLogUp Hub.sendLogUp.addLink0; (try dsimp only); simp
@[simp] theorem Hub.sendLogUp_ldr (h : Hub) (ws : List Word) : (h.sendLogUp ws).ldr = h.ldr := by
  unfold Hub.sendLogUp Hub.sendLogUp.addLink0; (try dsimp only); simp
@[simp] theorem Hub.sendLogUp_host (h : Hub) (ws : List Word) : (h.sendLogUp ws).host = h.host := by
  unfold Hub.sendLogUp Hub.sendLogUp.addLink0; (try dsimp only); simp
@[simp] theorem Hub.sendLogUp_sp (h : Hub) (ws : List Word) : (h.sendLogUp ws).sp = h.sp := by
  unfold Hub.sendLogUp Hub.sendLogUp.addLink0; (try dsimp only); simp
@[simp] theorem Hub.sendLogUp_tw (h : Hub) (ws : List Word) : (h.sendLogUp ws).tw = h.tw := by
  unfold Hub.sendLogUp Hub.sendLogUp.addLink0; (try dsimp only); simp
@[simp] theorem Hub.sendLogUp_ingress (h : Hub) (ws : List Word) : (h.sendLogUp ws).ingress = h.ingress := by
  unfold Hub.sendLogUp Hub.sendLogUp.addLink0; (try dsimp only); simp
@[simp] theorem Hub.sendLogUp_ctx (h : Hub) (ws : List Word) : (h.sendLogUp ws).ctx = h.ctx := by
  unfold Hub.sendLogUp Hub.sendLogUp.addLink0; (try dsimp only); simp
@[simp] theorem Hub.sendLogUp_stg (h : Hub) (ws : List Word) : (h.sendLogUp ws).stg = h.stg := by
  unfold Hub.sendLogUp Hub.sendLogUp.addLink0; (try dsimp only); simp
@[simp] theorem Hub.sendLogUp_tile (h : Hub) (ws : List Word) : (h.sendLogUp ws).tile = h.tile := by
  unfold Hub.sendLogUp Hub.sendLogUp.addLink0; (try dsimp only); simp
@[simp] theorem Hub.sendLogUp_ev (h : Hub) (ws : List Word) : (h.sendLogUp ws).ev = h.ev := by
  unfold Hub.sendLogUp Hub.sendLogUp.addLink0; (try dsimp only); simp
@[simp] theorem Hub.sendLogUp_evSeen (h : Hub) (ws : List Word) : (h.sendLogUp ws).evSeen = h.evSeen := by
  unfold Hub.sendLogUp Hub.sendLogUp.addLink0; (try dsimp only); simp
@[simp] theorem Hub.sendLogUp_q (h : Hub) (ws : List Word) : (h.sendLogUp ws).q = h.q := by
  unfold Hub.sendLogUp Hub.sendLogUp.addLink0; (try dsimp only); simp
@[simp] theorem Hub.sendLogUp_stock (h : Hub) (ws : List Word) : (h.sendLogUp ws).stock = h.stock := by
  unfold Hub.sendLogUp Hub.sendLogUp.addLink0; (try dsimp only); simp
@[simp] theorem Hub.sendLogUp_stockFill (h : Hub) (ws : List Word) : (h.sendLogUp ws).stockFill = h.stockFill := by
  unfold Hub.sendLogUp Hub.sendLogUp.addLink0; (try dsimp only); simp
@[simp] theorem Hub.sendLogUp_dbgHeld (h : Hub) (ws : List Word) : (h.sendLogUp ws).dbgHeld = h.dbgHeld := by
  unfold Hub.sendLogUp Hub.sendLogUp.addLink0; (try dsimp only); simp
@[simp] theorem Hub.sendLogUp_ring (h : Hub) (ws : List Word) : (h.sendLogUp ws).ring = h.ring := by
  unfold Hub.sendLogUp Hub.sendLogUp.addLink0; (try dsimp only); simp
@[simp] theorem Hub.sendLogUp_outbox (h : Hub) (ws : List Word) : (h.sendLogUp ws).outbox = h.outbox := by
  unfold Hub.sendLogUp Hub.sendLogUp.addLink0; (try dsimp only); simp
@[simp] theorem Hub.sendLogUp_tb (h : Hub) (ws : List Word) : (h.sendLogUp ws).tb = h.tb := by
  unfold Hub.sendLogUp Hub.sendLogUp.addLink0; (try dsimp only); simp
@[simp] theorem Hub.sendLogUp_trig (h : Hub) (ws : List Word) : (h.sendLogUp ws).trig = h.trig := by
  unfold Hub.sendLogUp Hub.sendLogUp.addLink0; (try dsimp only); simp
@[simp] theorem Hub.sendLogUp_trg (h : Hub) (ws : List Word) : (h.sendLogUp ws).trg = h.trg := by
  unfold Hub.sendLogUp Hub.sendLogUp.addLink0; (try dsimp only); simp
@[simp] theorem Hub.sendLogUp_tach (h : Hub) (ws : List Word) : (h.sendLogUp ws).tach = h.tach := by
  unfold Hub.sendLogUp Hub.sendLogUp.addLink0; (try dsimp only); simp
@[simp] theorem Hub.sendLogUp_kt (h : Hub) (ws : List Word) : (h.sendLogUp ws).kt = h.kt := by
  unfold Hub.sendLogUp Hub.sendLogUp.addLink0; (try dsimp only); simp
@[simp] theorem Hub.sendLogUp_flt (h : Hub) (ws : List Word) : (h.sendLogUp ws).flt = h.flt := by
  unfold Hub.sendLogUp Hub.sendLogUp.addLink0; (try dsimp only); simp
@[simp] theorem Hub.sendLogUp_job (h : Hub) (ws : List Word) : (h.sendLogUp ws).job = h.job := by
  unfold Hub.sendLogUp Hub.sendLogUp.addLink0; (try dsimp only); simp
@[simp] theorem Hub.sendLogUp_spc (h : Hub) (ws : List Word) : (h.sendLogUp ws).spc = h.spc := by
  unfold Hub.sendLogUp Hub.sendLogUp.addLink0; (try dsimp only); simp
@[simp] theorem Hub.sendLogUp_fea (h : Hub) (ws : List Word) : (h.sendLogUp ws).fea = h.fea := by
  unfold Hub.sendLogUp Hub.sendLogUp.addLink0; (try dsimp only); simp
@[simp] theorem Hub.sendLogUp_lim (h : Hub) (ws : List Word) : (h.sendLogUp ws).lim = h.lim := by
  unfold Hub.sendLogUp Hub.sendLogUp.addLink0; (try dsimp only); simp
@[simp] theorem Hub.sendLogUp_cas (h : Hub) (ws : List Word) : (h.sendLogUp ws).cas = h.cas := by
  unfold Hub.sendLogUp Hub.sendLogUp.addLink0; (try dsimp only); simp
@[simp] theorem Hub.sendLogUp_rad (h : Hub) (ws : List Word) : (h.sendLogUp ws).rad = h.rad := by
  unfold Hub.sendLogUp Hub.sendLogUp.addLink0; (try dsimp only); simp
@[simp] theorem Hub.sendLogUp_hlt (h : Hub) (ws : List Word) : (h.sendLogUp ws).hlt = h.hlt := by
  unfold Hub.sendLogUp Hub.sendLogUp.addLink0; (try dsimp only); simp
@[simp] theorem Hub.sendLogUp_sup (h : Hub) (ws : List Word) : (h.sendLogUp ws).sup = h.sup := by
  unfold Hub.sendLogUp Hub.sendLogUp.addLink0; (try dsimp only); simp
@[simp] theorem Hub.sendLogUp_tbMet (h : Hub) (ws : List Word) : (h.sendLogUp ws).tbMet = h.tbMet := by
  unfold Hub.sendLogUp Hub.sendLogUp.addLink0; (try dsimp only); simp
@[simp] theorem Hub.sendLogUp_metFollows (h : Hub) (ws : List Word) : (h.sendLogUp ws).metFollows = h.metFollows := by
  unfold Hub.sendLogUp Hub.sendLogUp.addLink0; (try dsimp only); simp
@[simp] theorem Hub.sendLogUp_metFifo (h : Hub) (ws : List Word) : (h.sendLogUp ws).metFifo = h.metFifo := by
  unfold Hub.sendLogUp Hub.sendLogUp.addLink0; (try dsimp only); simp
@[simp] theorem Hub.sendLogUp_metGap (h : Hub) (ws : List Word) : (h.sendLogUp ws).metGap = h.metGap := by
  unfold Hub.sendLogUp Hub.sendLogUp.addLink0; (try dsimp only); simp
@[simp] theorem Hub.sendLogUp_cyc (h : Hub) (ws : List Word) : (h.sendLogUp ws).cyc = h.cyc := by
  unfold Hub.sendLogUp Hub.sendLogUp.addLink0; (try dsimp only); simp
@[simp] theorem Hub.sendLogUp_asleep (h : Hub) (ws : List Word) : (h.sendLogUp ws).asleep = h.asleep := by
  unfold Hub.sendLogUp Hub.sendLogUp.addLink0; (try dsimp only); simp
@[simp] theorem Hub.sendLogUp_free (h : Hub) (ws : List Word) : (h.sendLogUp ws).free = h.free := by
  unfold Hub.sendLogUp Hub.sendLogUp.addLink0; (try dsimp only); simp
@[simp] theorem Hub.sendLogUp_cell (h : Hub) (ws : List Word) (i j k : Nat) : (h.sendLogUp ws).cell i j k = h.cell i j k := by
  unfold Hub.cell; rw [Hub.sendLogUp_cells]
@[simp] theorem Hub.sendLogUp_cf (h : Hub) (ws : List Word) (i j k lo len : Nat) : (h.sendLogUp ws).cf i j k lo len = h.cf i j k lo len := by
  unfold Hub.cf; rw [Hub.sendLogUp_cell]
theorem Hub.sendLogUp_reg (h : Hub) (ws : List Word) {a : Nat} (ha : a < 0x1F8000 ∨ 0x1F9000 ≤ a) : (h.sendLogUp ws).reg a = h.reg a := by
  exact Hub.bkTake_reg h 4 (by omega) ha
theorem Hub.sendLogUp_rd (h : Hub) (ws : List Word) {f : Fld} (ha : f.addr < 0x1F8000 ∨ 0x1F9000 ≤ f.addr) : (h.sendLogUp ws).rd f = h.rd f :=
  Hub.rd_congr (Hub.sendLogUp_reg h ws ha)
theorem Hub.sendLogUp_is (h : Hub) (ws : List Word) {f : Fld} (ha : f.addr < 0x1F8000 ∨ 0x1F9000 ≤ f.addr) : (h.sendLogUp ws).is f = h.is f :=
  Hub.is_congr (Hub.sendLogUp_rd h ws ha)

/-! ### `Hub.sendUpSuppressed` -/

@[simp] theorem Hub.sendUpSuppressed_cells (h : Hub) : (h.sendUpSuppressed).cells = h.cells := by
  unfold Hub.sendUpSuppressed; (try dsimp only); (repeat' split) <;> simp
@[simp] theorem Hub.sendUpSuppressed_clk (h : Hub) : (h.sendUpSuppressed).clk = h.clk := by
  unfold Hub.sendUpSuppressed; (try dsimp only); (repeat' split) <;> simp
@[simp] theorem Hub.sendUpSuppressed_ldr (h : Hub) : (h.sendUpSuppressed).ldr = h.ldr := by
  unfold Hub.sendUpSuppressed; (try dsimp only); (repeat' split) <;> simp
@[simp] theorem Hub.sendUpSuppressed_host (h : Hub) : (h.sendUpSuppressed).host = h.host := by
  unfold Hub.sendUpSuppressed; (try dsimp only); (repeat' split) <;> simp
@[simp] theorem Hub.sendUpSuppressed_sp (h : Hub) : (h.sendUpSuppressed).sp = h.sp := by
  unfold Hub.sendUpSuppressed; (try dsimp only); (repeat' split) <;> simp
@[simp] theorem Hub.sendUpSuppressed_tw (h : Hub) : (h.sendUpSuppressed).tw = h.tw := by
  unfold Hub.sendUpSuppressed; (try dsimp only); (repeat' split) <;> simp
@[simp] theorem Hub.sendUpSuppressed_ingress (h : Hub) : (h.sendUpSuppressed).ingress = h.ingress := by
  unfold Hub.sendUpSuppressed; (try dsimp only); (repeat' split) <;> simp
@[simp] theorem Hub.sendUpSuppressed_ctx (h : Hub) : (h.sendUpSuppressed).ctx = h.ctx := by
  unfold Hub.sendUpSuppressed; (try dsimp only); (repeat' split) <;> simp
@[simp] theorem Hub.sendUpSuppressed_stg (h : Hub) : (h.sendUpSuppressed).stg = h.stg := by
  unfold Hub.sendUpSuppressed; (try dsimp only); (repeat' split) <;> simp
@[simp] theorem Hub.sendUpSuppressed_tile (h : Hub) : (h.sendUpSuppressed).tile = h.tile := by
  unfold Hub.sendUpSuppressed; (try dsimp only); (repeat' split) <;> simp
@[simp] theorem Hub.sendUpSuppressed_ev (h : Hub) : (h.sendUpSuppressed).ev = h.ev := by
  unfold Hub.sendUpSuppressed; (try dsimp only); (repeat' split) <;> simp
@[simp] theorem Hub.sendUpSuppressed_evSeen (h : Hub) : (h.sendUpSuppressed).evSeen = h.evSeen := by
  unfold Hub.sendUpSuppressed; (try dsimp only); (repeat' split) <;> simp
@[simp] theorem Hub.sendUpSuppressed_q (h : Hub) : (h.sendUpSuppressed).q = h.q := by
  unfold Hub.sendUpSuppressed; (try dsimp only); (repeat' split) <;> simp
@[simp] theorem Hub.sendUpSuppressed_stock (h : Hub) : (h.sendUpSuppressed).stock = h.stock := by
  unfold Hub.sendUpSuppressed; (try dsimp only); (repeat' split) <;> simp
@[simp] theorem Hub.sendUpSuppressed_stockFill (h : Hub) : (h.sendUpSuppressed).stockFill = h.stockFill := by
  unfold Hub.sendUpSuppressed; (try dsimp only); (repeat' split) <;> simp
@[simp] theorem Hub.sendUpSuppressed_dbgHeld (h : Hub) : (h.sendUpSuppressed).dbgHeld = h.dbgHeld := by
  unfold Hub.sendUpSuppressed; (try dsimp only); (repeat' split) <;> simp
@[simp] theorem Hub.sendUpSuppressed_ring (h : Hub) : (h.sendUpSuppressed).ring = h.ring := by
  unfold Hub.sendUpSuppressed; (try dsimp only); (repeat' split) <;> simp
@[simp] theorem Hub.sendUpSuppressed_outbox (h : Hub) : (h.sendUpSuppressed).outbox = h.outbox := by
  unfold Hub.sendUpSuppressed; (try dsimp only); (repeat' split) <;> simp
@[simp] theorem Hub.sendUpSuppressed_tb (h : Hub) : (h.sendUpSuppressed).tb = h.tb := by
  unfold Hub.sendUpSuppressed; (try dsimp only); (repeat' split) <;> simp
@[simp] theorem Hub.sendUpSuppressed_trig (h : Hub) : (h.sendUpSuppressed).trig = h.trig := by
  unfold Hub.sendUpSuppressed; (try dsimp only); (repeat' split) <;> simp
@[simp] theorem Hub.sendUpSuppressed_trg (h : Hub) : (h.sendUpSuppressed).trg = h.trg := by
  unfold Hub.sendUpSuppressed; (try dsimp only); (repeat' split) <;> simp
@[simp] theorem Hub.sendUpSuppressed_tach (h : Hub) : (h.sendUpSuppressed).tach = h.tach := by
  unfold Hub.sendUpSuppressed; (try dsimp only); (repeat' split) <;> simp
@[simp] theorem Hub.sendUpSuppressed_kt (h : Hub) : (h.sendUpSuppressed).kt = h.kt := by
  unfold Hub.sendUpSuppressed; (try dsimp only); (repeat' split) <;> simp
@[simp] theorem Hub.sendUpSuppressed_job (h : Hub) : (h.sendUpSuppressed).job = h.job := by
  unfold Hub.sendUpSuppressed; (try dsimp only); (repeat' split) <;> simp
@[simp] theorem Hub.sendUpSuppressed_spc (h : Hub) : (h.sendUpSuppressed).spc = h.spc := by
  unfold Hub.sendUpSuppressed; (try dsimp only); (repeat' split) <;> simp
@[simp] theorem Hub.sendUpSuppressed_fea (h : Hub) : (h.sendUpSuppressed).fea = h.fea := by
  unfold Hub.sendUpSuppressed; (try dsimp only); (repeat' split) <;> simp
@[simp] theorem Hub.sendUpSuppressed_lim (h : Hub) : (h.sendUpSuppressed).lim = h.lim := by
  unfold Hub.sendUpSuppressed; (try dsimp only); (repeat' split) <;> simp
@[simp] theorem Hub.sendUpSuppressed_cas (h : Hub) : (h.sendUpSuppressed).cas = h.cas := by
  unfold Hub.sendUpSuppressed; (try dsimp only); (repeat' split) <;> simp
@[simp] theorem Hub.sendUpSuppressed_rad (h : Hub) : (h.sendUpSuppressed).rad = h.rad := by
  unfold Hub.sendUpSuppressed; (try dsimp only); (repeat' split) <;> simp
@[simp] theorem Hub.sendUpSuppressed_hlt (h : Hub) : (h.sendUpSuppressed).hlt = h.hlt := by
  unfold Hub.sendUpSuppressed; (try dsimp only); (repeat' split) <;> simp
@[simp] theorem Hub.sendUpSuppressed_sup (h : Hub) : (h.sendUpSuppressed).sup = h.sup := by
  unfold Hub.sendUpSuppressed; (try dsimp only); (repeat' split) <;> simp
@[simp] theorem Hub.sendUpSuppressed_tbMet (h : Hub) : (h.sendUpSuppressed).tbMet = h.tbMet := by
  unfold Hub.sendUpSuppressed; (try dsimp only); (repeat' split) <;> simp
@[simp] theorem Hub.sendUpSuppressed_metFollows (h : Hub) : (h.sendUpSuppressed).metFollows = h.metFollows := by
  unfold Hub.sendUpSuppressed; (try dsimp only); (repeat' split) <;> simp
@[simp] theorem Hub.sendUpSuppressed_metFifo (h : Hub) : (h.sendUpSuppressed).metFifo = h.metFifo := by
  unfold Hub.sendUpSuppressed; (try dsimp only); (repeat' split) <;> simp
@[simp] theorem Hub.sendUpSuppressed_metGap (h : Hub) : (h.sendUpSuppressed).metGap = h.metGap := by
  unfold Hub.sendUpSuppressed; (try dsimp only); (repeat' split) <;> simp
@[simp] theorem Hub.sendUpSuppressed_cyc (h : Hub) : (h.sendUpSuppressed).cyc = h.cyc := by
  unfold Hub.sendUpSuppressed; (try dsimp only); (repeat' split) <;> simp
@[simp] theorem Hub.sendUpSuppressed_asleep (h : Hub) : (h.sendUpSuppressed).asleep = h.asleep := by
  unfold Hub.sendUpSuppressed; (try dsimp only); (repeat' split) <;> simp
@[simp] theorem Hub.sendUpSuppressed_free (h : Hub) : (h.sendUpSuppressed).free = h.free := by
  unfold Hub.sendUpSuppressed; (try dsimp only); (repeat' split) <;> simp
@[simp] theorem Hub.sendUpSuppressed_cell (h : Hub) (i j k : Nat) : (h.sendUpSuppressed).cell i j k = h.cell i j k := by
  unfold Hub.cell; rw [Hub.sendUpSuppressed_cells]
@[simp] theorem Hub.sendUpSuppressed_cf (h : Hub) (i j k lo len : Nat) : (h.sendUpSuppressed).cf i j k lo len = h.cf i j k lo len := by
  unfold Hub.cf; rw [Hub.sendUpSuppressed_cell]
theorem Hub.sendUpSuppressed_reg (h : Hub) {a : Nat} (ha : a < 0x1F8000 ∨ 0x1F9000 ≤ a) : (h.sendUpSuppressed).reg a = h.reg a := by
  unfold Hub.sendUpSuppressed
  split
  · exact Hub.sendLogUp_reg h (recHeader 0x2F 0xCA 9 :: timeWords h.netNow ++
      [w32 (h.devnum * 2 ^ 23), w32 h.flt.upSupp, w32 h.flt.upMask, 0#32]) ha
  · rfl
theorem Hub.sendUpSuppressed_rd (h : Hub) {f : Fld} (ha : f.addr < 0x1F8000 ∨ 0x1F9000 ≤ f.addr) : (h.sendUpSuppressed).rd f = h.rd f :=
  Hub.rd_congr (Hub.sendUpSuppressed_reg h  ha)
theorem Hub.sendUpSuppressed_is (h : Hub) {f : Fld} (ha : f.addr < 0x1F8000 ∨ 0x1F9000 ≤ f.addr) : (h.sendUpSuppressed).is f = h.is f :=
  Hub.is_congr (Hub.sendUpSuppressed_rd h  ha)

/-! ### `Hub.logUp` -/

@[simp] theorem Hub.logUp_cells (h : Hub) (typ : Nat) (ws : List Word) : (h.logUp typ ws).cells = h.cells := by
  unfold Hub.logUp; (try dsimp only); (repeat' split) <;> simp
@[simp] theorem Hub.logUp_clk (h : Hub) (typ : Nat) (ws : List Word) : (h.logUp typ ws).clk = h.clk := by
  unfold Hub.logUp; (try dsimp only); (repeat' split) <;> simp
@[simp] theorem Hub.logUp_ldr (h : Hub) (typ : Nat) (ws : List Word) : (h.logUp typ ws).ldr = h.ldr := by
  unfold Hub.logUp; (try dsimp only); (repeat' split) <;> simp
@[simp] theorem Hub.logUp_host (h : Hub) (typ : Nat) (ws : List Word) : (h.logUp typ ws).host = h.host := by
  unfold Hub.logUp; (try dsimp only); (repeat' split) <;> simp
@[simp] theorem Hub.logUp_sp (h : Hub) (typ : Nat) (ws : List Word) : (h.logUp typ ws).sp = h.sp := by
  unfold Hub.logUp; (try dsimp only); (repeat' split) <;> simp
@[simp] theorem Hub.logUp_tw (h : Hub) (typ : Nat) (ws : List Word) : (h.logUp typ ws).tw = h.tw := by
  unfold Hub.logUp; (try dsimp only); (repeat' split) <;> simp
@[simp] theorem Hub.logUp_ingress (h : Hub) (typ : Nat) (ws : List Word) : (h.logUp typ ws).ingress = h.ingress := by
  unfold Hub.logUp; (try dsimp only); (repeat' split) <;> simp
@[simp] theorem Hub.logUp_ctx (h : Hub) (typ : Nat) (ws : List Word) : (h.logUp typ ws).ctx = h.ctx := by
  unfold Hub.logUp; (try dsimp only); (repeat' split) <;> simp
@[simp] theorem Hub.logUp_stg (h : Hub) (typ : Nat) (ws : List Word) : (h.logUp typ ws).stg = h.stg := by
  unfold Hub.logUp; (try dsimp only); (repeat' split) <;> simp
@[simp] theorem Hub.logUp_tile (h : Hub) (typ : Nat) (ws : List Word) : (h.logUp typ ws).tile = h.tile := by
  unfold Hub.logUp; (try dsimp only); (repeat' split) <;> simp
@[simp] theorem Hub.logUp_ev (h : Hub) (typ : Nat) (ws : List Word) : (h.logUp typ ws).ev = h.ev := by
  unfold Hub.logUp; (try dsimp only); (repeat' split) <;> simp
@[simp] theorem Hub.logUp_evSeen (h : Hub) (typ : Nat) (ws : List Word) : (h.logUp typ ws).evSeen = h.evSeen := by
  unfold Hub.logUp; (try dsimp only); (repeat' split) <;> simp
@[simp] theorem Hub.logUp_q (h : Hub) (typ : Nat) (ws : List Word) : (h.logUp typ ws).q = h.q := by
  unfold Hub.logUp; (try dsimp only); (repeat' split) <;> simp
@[simp] theorem Hub.logUp_stock (h : Hub) (typ : Nat) (ws : List Word) : (h.logUp typ ws).stock = h.stock := by
  unfold Hub.logUp; (try dsimp only); (repeat' split) <;> simp
@[simp] theorem Hub.logUp_stockFill (h : Hub) (typ : Nat) (ws : List Word) : (h.logUp typ ws).stockFill = h.stockFill := by
  unfold Hub.logUp; (try dsimp only); (repeat' split) <;> simp
@[simp] theorem Hub.logUp_dbgHeld (h : Hub) (typ : Nat) (ws : List Word) : (h.logUp typ ws).dbgHeld = h.dbgHeld := by
  unfold Hub.logUp; (try dsimp only); (repeat' split) <;> simp
@[simp] theorem Hub.logUp_ring (h : Hub) (typ : Nat) (ws : List Word) : (h.logUp typ ws).ring = h.ring := by
  unfold Hub.logUp; (try dsimp only); (repeat' split) <;> simp
@[simp] theorem Hub.logUp_outbox (h : Hub) (typ : Nat) (ws : List Word) : (h.logUp typ ws).outbox = h.outbox := by
  unfold Hub.logUp; (try dsimp only); (repeat' split) <;> simp
@[simp] theorem Hub.logUp_tb (h : Hub) (typ : Nat) (ws : List Word) : (h.logUp typ ws).tb = h.tb := by
  unfold Hub.logUp; (try dsimp only); (repeat' split) <;> simp
@[simp] theorem Hub.logUp_trig (h : Hub) (typ : Nat) (ws : List Word) : (h.logUp typ ws).trig = h.trig := by
  unfold Hub.logUp; (try dsimp only); (repeat' split) <;> simp
@[simp] theorem Hub.logUp_trg (h : Hub) (typ : Nat) (ws : List Word) : (h.logUp typ ws).trg = h.trg := by
  unfold Hub.logUp; (try dsimp only); (repeat' split) <;> simp
@[simp] theorem Hub.logUp_tach (h : Hub) (typ : Nat) (ws : List Word) : (h.logUp typ ws).tach = h.tach := by
  unfold Hub.logUp; (try dsimp only); (repeat' split) <;> simp
@[simp] theorem Hub.logUp_kt (h : Hub) (typ : Nat) (ws : List Word) : (h.logUp typ ws).kt = h.kt := by
  unfold Hub.logUp; (try dsimp only); (repeat' split) <;> simp
@[simp] theorem Hub.logUp_job (h : Hub) (typ : Nat) (ws : List Word) : (h.logUp typ ws).job = h.job := by
  unfold Hub.logUp; (try dsimp only); (repeat' split) <;> simp
@[simp] theorem Hub.logUp_spc (h : Hub) (typ : Nat) (ws : List Word) : (h.logUp typ ws).spc = h.spc := by
  unfold Hub.logUp; (try dsimp only); (repeat' split) <;> simp
@[simp] theorem Hub.logUp_fea (h : Hub) (typ : Nat) (ws : List Word) : (h.logUp typ ws).fea = h.fea := by
  unfold Hub.logUp; (try dsimp only); (repeat' split) <;> simp
@[simp] theorem Hub.logUp_lim (h : Hub) (typ : Nat) (ws : List Word) : (h.logUp typ ws).lim = h.lim := by
  unfold Hub.logUp; (try dsimp only); (repeat' split) <;> simp
@[simp] theorem Hub.logUp_cas (h : Hub) (typ : Nat) (ws : List Word) : (h.logUp typ ws).cas = h.cas := by
  unfold Hub.logUp; (try dsimp only); (repeat' split) <;> simp
@[simp] theorem Hub.logUp_rad (h : Hub) (typ : Nat) (ws : List Word) : (h.logUp typ ws).rad = h.rad := by
  unfold Hub.logUp; (try dsimp only); (repeat' split) <;> simp
@[simp] theorem Hub.logUp_hlt (h : Hub) (typ : Nat) (ws : List Word) : (h.logUp typ ws).hlt = h.hlt := by
  unfold Hub.logUp; (try dsimp only); (repeat' split) <;> simp
@[simp] theorem Hub.logUp_sup (h : Hub) (typ : Nat) (ws : List Word) : (h.logUp typ ws).sup = h.sup := by
  unfold Hub.logUp; (try dsimp only); (repeat' split) <;> simp
@[simp] theorem Hub.logUp_tbMet (h : Hub) (typ : Nat) (ws : List Word) : (h.logUp typ ws).tbMet = h.tbMet := by
  unfold Hub.logUp; (try dsimp only); (repeat' split) <;> simp
@[simp] theorem Hub.logUp_metFollows (h : Hub) (typ : Nat) (ws : List Word) : (h.logUp typ ws).metFollows = h.metFollows := by
  unfold Hub.logUp; (try dsimp only); (repeat' split) <;> simp
@[simp] theorem Hub.logUp_metFifo (h : Hub) (typ : Nat) (ws : List Word) : (h.logUp typ ws).metFifo = h.metFifo := by
  unfold Hub.logUp; (try dsimp only); (repeat' split) <;> simp
@[simp] theorem Hub.logUp_metGap (h : Hub) (typ : Nat) (ws : List Word) : (h.logUp typ ws).metGap = h.metGap := by
  unfold Hub.logUp; (try dsimp only); (repeat' split) <;> simp
@[simp] theorem Hub.logUp_cyc (h : Hub) (typ : Nat) (ws : List Word) : (h.logUp typ ws).cyc = h.cyc := by
  unfold Hub.logUp; (try dsimp only); (repeat' split) <;> simp
@[simp] theorem Hub.logUp_asleep (h : Hub) (typ : Nat) (ws : List Word) : (h.logUp typ ws).asleep = h.asleep := by
  unfold Hub.logUp; (try dsimp only); (repeat' split) <;> simp
@[simp] theorem Hub.logUp_free (h : Hub) (typ : Nat) (ws : List Word) : (h.logUp typ ws).free = h.free := by
  unfold Hub.logUp; (try dsimp only); (repeat' split) <;> simp
@[simp] theorem Hub.logUp_cell (h : Hub) (typ : Nat) (ws : List Word) (i j k : Nat) : (h.logUp typ ws).cell i j k = h.cell i j k := by
  unfold Hub.cell; rw [Hub.logUp_cells]
@[simp] theorem Hub.logUp_cf (h : Hub) (typ : Nat) (ws : List Word) (i j k lo len : Nat) : (h.logUp typ ws).cf i j k lo len = h.cf i j k lo len := by
  unfold Hub.cf; rw [Hub.logUp_cell]
theorem Hub.logUp_reg (h : Hub) (typ : Nat) (ws : List Word) {a : Nat} (ha : a < 0x1F8000 ∨ 0x1F9000 ≤ a) : (h.logUp typ ws).reg a = h.reg a := by
  unfold Hub.logUp
  split
  · rfl
  · split
    · exact (Hub.sendLogUp_reg _ _ ha).trans (Hub.sendUpSuppressed_reg h ha)
    · show ((h.sendUpSuppressed.on fHltFltStatusSuppressed).countSat (fHltBkCount 4) 1).reg a = _
      rw [Hub.reg_countSat_ne _ _ _ (by simp only [fHltBkCount, rHltBk]; omega), Hub.reg_on_ne _ _ (by simp only [fHltFltStatusSuppressed, rHltFltStatus]; omega),
        Hub.sendUpSuppressed_reg h ha]
theorem Hub.logUp_rd (h : Hub) (typ : Nat) (ws : List Word) {f : Fld} (ha : f.addr < 0x1F8000 ∨ 0x1F9000 ≤ f.addr) : (h.logUp typ ws).rd f = h.rd f :=
  Hub.rd_congr (Hub.logUp_reg h typ ws ha)
theorem Hub.logUp_is (h : Hub) (typ : Nat) (ws : List Word) {f : Fld} (ha : f.addr < 0x1F8000 ∨ 0x1F9000 ≤ f.addr) : (h.logUp typ ws).is f = h.is f :=
  Hub.is_congr (Hub.logUp_rd h typ ws ha)

/-! ### `Hub.logWords` -/

@[simp] theorem Hub.logWords_cells (h : Hub) (typ : Nat) (ws : List Word) : (h.logWords typ ws).cells = h.cells := by
  unfold Hub.logWords; (try dsimp only); (repeat' split) <;> simp
@[simp] theorem Hub.logWords_clk (h : Hub) (typ : Nat) (ws : List Word) : (h.logWords typ ws).clk = h.clk := by
  unfold Hub.logWords; (try dsimp only); (repeat' split) <;> simp
@[simp] theorem Hub.logWords_ldr (h : Hub) (typ : Nat) (ws : List Word) : (h.logWords typ ws).ldr = h.ldr := by
  unfold Hub.logWords; (try dsimp only); (repeat' split) <;> simp
@[simp] theorem Hub.logWords_host (h : Hub) (typ : Nat) (ws : List Word) : (h.logWords typ ws).host = h.host := by
  unfold Hub.logWords; (try dsimp only); (repeat' split) <;> simp
@[simp] theorem Hub.logWords_sp (h : Hub) (typ : Nat) (ws : List Word) : (h.logWords typ ws).sp = h.sp := by
  unfold Hub.logWords; (try dsimp only); (repeat' split) <;> simp
@[simp] theorem Hub.logWords_tw (h : Hub) (typ : Nat) (ws : List Word) : (h.logWords typ ws).tw = h.tw := by
  unfold Hub.logWords; (try dsimp only); (repeat' split) <;> simp
@[simp] theorem Hub.logWords_ingress (h : Hub) (typ : Nat) (ws : List Word) : (h.logWords typ ws).ingress = h.ingress := by
  unfold Hub.logWords; (try dsimp only); (repeat' split) <;> simp
@[simp] theorem Hub.logWords_ctx (h : Hub) (typ : Nat) (ws : List Word) : (h.logWords typ ws).ctx = h.ctx := by
  unfold Hub.logWords; (try dsimp only); (repeat' split) <;> simp
@[simp] theorem Hub.logWords_stg (h : Hub) (typ : Nat) (ws : List Word) : (h.logWords typ ws).stg = h.stg := by
  unfold Hub.logWords; (try dsimp only); (repeat' split) <;> simp
@[simp] theorem Hub.logWords_tile (h : Hub) (typ : Nat) (ws : List Word) : (h.logWords typ ws).tile = h.tile := by
  unfold Hub.logWords; (try dsimp only); (repeat' split) <;> simp
@[simp] theorem Hub.logWords_ev (h : Hub) (typ : Nat) (ws : List Word) : (h.logWords typ ws).ev = h.ev := by
  unfold Hub.logWords; (try dsimp only); (repeat' split) <;> simp
@[simp] theorem Hub.logWords_evSeen (h : Hub) (typ : Nat) (ws : List Word) : (h.logWords typ ws).evSeen = h.evSeen := by
  unfold Hub.logWords; (try dsimp only); (repeat' split) <;> simp
@[simp] theorem Hub.logWords_q (h : Hub) (typ : Nat) (ws : List Word) : (h.logWords typ ws).q = h.q := by
  unfold Hub.logWords; (try dsimp only); (repeat' split) <;> simp
@[simp] theorem Hub.logWords_stock (h : Hub) (typ : Nat) (ws : List Word) : (h.logWords typ ws).stock = h.stock := by
  unfold Hub.logWords; (try dsimp only); (repeat' split) <;> simp
@[simp] theorem Hub.logWords_stockFill (h : Hub) (typ : Nat) (ws : List Word) : (h.logWords typ ws).stockFill = h.stockFill := by
  unfold Hub.logWords; (try dsimp only); (repeat' split) <;> simp
@[simp] theorem Hub.logWords_dbgHeld (h : Hub) (typ : Nat) (ws : List Word) : (h.logWords typ ws).dbgHeld = h.dbgHeld := by
  unfold Hub.logWords; (try dsimp only); (repeat' split) <;> simp
@[simp] theorem Hub.logWords_ring (h : Hub) (typ : Nat) (ws : List Word) : (h.logWords typ ws).ring = h.ring := by
  unfold Hub.logWords; (try dsimp only); (repeat' split) <;> simp
@[simp] theorem Hub.logWords_tb (h : Hub) (typ : Nat) (ws : List Word) : (h.logWords typ ws).tb = h.tb := by
  unfold Hub.logWords; (try dsimp only); (repeat' split) <;> simp
@[simp] theorem Hub.logWords_trig (h : Hub) (typ : Nat) (ws : List Word) : (h.logWords typ ws).trig = h.trig := by
  unfold Hub.logWords; (try dsimp only); (repeat' split) <;> simp
@[simp] theorem Hub.logWords_trg (h : Hub) (typ : Nat) (ws : List Word) : (h.logWords typ ws).trg = h.trg := by
  unfold Hub.logWords; (try dsimp only); (repeat' split) <;> simp
@[simp] theorem Hub.logWords_tach (h : Hub) (typ : Nat) (ws : List Word) : (h.logWords typ ws).tach = h.tach := by
  unfold Hub.logWords; (try dsimp only); (repeat' split) <;> simp
@[simp] theorem Hub.logWords_kt (h : Hub) (typ : Nat) (ws : List Word) : (h.logWords typ ws).kt = h.kt := by
  unfold Hub.logWords; (try dsimp only); (repeat' split) <;> simp
@[simp] theorem Hub.logWords_job (h : Hub) (typ : Nat) (ws : List Word) : (h.logWords typ ws).job = h.job := by
  unfold Hub.logWords; (try dsimp only); (repeat' split) <;> simp
@[simp] theorem Hub.logWords_spc (h : Hub) (typ : Nat) (ws : List Word) : (h.logWords typ ws).spc = h.spc := by
  unfold Hub.logWords; (try dsimp only); (repeat' split) <;> simp
@[simp] theorem Hub.logWords_fea (h : Hub) (typ : Nat) (ws : List Word) : (h.logWords typ ws).fea = h.fea := by
  unfold Hub.logWords; (try dsimp only); (repeat' split) <;> simp
@[simp] theorem Hub.logWords_lim (h : Hub) (typ : Nat) (ws : List Word) : (h.logWords typ ws).lim = h.lim := by
  unfold Hub.logWords; (try dsimp only); (repeat' split) <;> simp
@[simp] theorem Hub.logWords_cas (h : Hub) (typ : Nat) (ws : List Word) : (h.logWords typ ws).cas = h.cas := by
  unfold Hub.logWords; (try dsimp only); (repeat' split) <;> simp
@[simp] theorem Hub.logWords_rad (h : Hub) (typ : Nat) (ws : List Word) : (h.logWords typ ws).rad = h.rad := by
  unfold Hub.logWords; (try dsimp only); (repeat' split) <;> simp
@[simp] theorem Hub.logWords_hlt (h : Hub) (typ : Nat) (ws : List Word) : (h.logWords typ ws).hlt = h.hlt := by
  unfold Hub.logWords; (try dsimp only); (repeat' split) <;> simp
@[simp] theorem Hub.logWords_sup (h : Hub) (typ : Nat) (ws : List Word) : (h.logWords typ ws).sup = h.sup := by
  unfold Hub.logWords; (try dsimp only); (repeat' split) <;> simp
@[simp] theorem Hub.logWords_tbMet (h : Hub) (typ : Nat) (ws : List Word) : (h.logWords typ ws).tbMet = h.tbMet := by
  unfold Hub.logWords; (try dsimp only); (repeat' split) <;> simp
@[simp] theorem Hub.logWords_metFollows (h : Hub) (typ : Nat) (ws : List Word) : (h.logWords typ ws).metFollows = h.metFollows := by
  unfold Hub.logWords; (try dsimp only); (repeat' split) <;> simp
@[simp] theorem Hub.logWords_metFifo (h : Hub) (typ : Nat) (ws : List Word) : (h.logWords typ ws).metFifo = h.metFifo := by
  unfold Hub.logWords; (try dsimp only); (repeat' split) <;> simp
@[simp] theorem Hub.logWords_metGap (h : Hub) (typ : Nat) (ws : List Word) : (h.logWords typ ws).metGap = h.metGap := by
  unfold Hub.logWords; (try dsimp only); (repeat' split) <;> simp
@[simp] theorem Hub.logWords_cyc (h : Hub) (typ : Nat) (ws : List Word) : (h.logWords typ ws).cyc = h.cyc := by
  unfold Hub.logWords; (try dsimp only); (repeat' split) <;> simp
@[simp] theorem Hub.logWords_asleep (h : Hub) (typ : Nat) (ws : List Word) : (h.logWords typ ws).asleep = h.asleep := by
  unfold Hub.logWords; (try dsimp only); (repeat' split) <;> simp
@[simp] theorem Hub.logWords_free (h : Hub) (typ : Nat) (ws : List Word) : (h.logWords typ ws).free = h.free := by
  unfold Hub.logWords; (try dsimp only); (repeat' split) <;> simp
@[simp] theorem Hub.logWords_cell (h : Hub) (typ : Nat) (ws : List Word) (i j k : Nat) : (h.logWords typ ws).cell i j k = h.cell i j k := by
  unfold Hub.cell; rw [Hub.logWords_cells]
@[simp] theorem Hub.logWords_cf (h : Hub) (typ : Nat) (ws : List Word) (i j k lo len : Nat) : (h.logWords typ ws).cf i j k lo len = h.cf i j k lo len := by
  unfold Hub.cf; rw [Hub.logWords_cell]
theorem Hub.logWords_reg (h : Hub) (typ : Nat) (ws : List Word) {a : Nat} (ha : a < 0x1F8000 ∨ 0x1F9000 ≤ a) : (h.logWords typ ws).reg a = h.reg a := by
  unfold Hub.logWords
  simp only []
  split
  · rw [Hub.pushOut_reg, Hub.bkTake_reg _ 1 (by omega) ha, Hub.sendSuppressed_reg _ ha, Hub.logUp_reg _ _ _ ha]
  · rw [Hub.suppress_reg _ _ ha, Hub.sendSuppressed_reg _ ha, Hub.logUp_reg _ _ _ ha]
theorem Hub.logWords_rd (h : Hub) (typ : Nat) (ws : List Word) {f : Fld} (ha : f.addr < 0x1F8000 ∨ 0x1F9000 ≤ f.addr) : (h.logWords typ ws).rd f = h.rd f :=
  Hub.rd_congr (Hub.logWords_reg h typ ws ha)
theorem Hub.logWords_is (h : Hub) (typ : Nat) (ws : List Word) {f : Fld} (ha : f.addr < 0x1F8000 ∨ 0x1F9000 ≤ f.addr) : (h.logWords typ ws).is f = h.is f :=
  Hub.is_congr (Hub.logWords_rd h typ ws ha)

/-! ### `Hub.log` -/

@[simp] theorem Hub.log_cells (h : Hub) (typ src code scope unit : Nat) (d7 d8 : Word) : (h.log typ src code scope unit d7 d8).cells = h.cells := by
  unfold Hub.log; simp
@[simp] theorem Hub.log_clk (h : Hub) (typ src code scope unit : Nat) (d7 d8 : Word) : (h.log typ src code scope unit d7 d8).clk = h.clk := by
  unfold Hub.log; simp
@[simp] theorem Hub.log_ldr (h : Hub) (typ src code scope unit : Nat) (d7 d8 : Word) : (h.log typ src code scope unit d7 d8).ldr = h.ldr := by
  unfold Hub.log; simp
@[simp] theorem Hub.log_host (h : Hub) (typ src code scope unit : Nat) (d7 d8 : Word) : (h.log typ src code scope unit d7 d8).host = h.host := by
  unfold Hub.log; simp
@[simp] theorem Hub.log_sp (h : Hub) (typ src code scope unit : Nat) (d7 d8 : Word) : (h.log typ src code scope unit d7 d8).sp = h.sp := by
  unfold Hub.log; simp
@[simp] theorem Hub.log_tw (h : Hub) (typ src code scope unit : Nat) (d7 d8 : Word) : (h.log typ src code scope unit d7 d8).tw = h.tw := by
  unfold Hub.log; simp
@[simp] theorem Hub.log_ingress (h : Hub) (typ src code scope unit : Nat) (d7 d8 : Word) : (h.log typ src code scope unit d7 d8).ingress = h.ingress := by
  unfold Hub.log; simp
@[simp] theorem Hub.log_ctx (h : Hub) (typ src code scope unit : Nat) (d7 d8 : Word) : (h.log typ src code scope unit d7 d8).ctx = h.ctx := by
  unfold Hub.log; simp
@[simp] theorem Hub.log_stg (h : Hub) (typ src code scope unit : Nat) (d7 d8 : Word) : (h.log typ src code scope unit d7 d8).stg = h.stg := by
  unfold Hub.log; simp
@[simp] theorem Hub.log_tile (h : Hub) (typ src code scope unit : Nat) (d7 d8 : Word) : (h.log typ src code scope unit d7 d8).tile = h.tile := by
  unfold Hub.log; simp
@[simp] theorem Hub.log_ev (h : Hub) (typ src code scope unit : Nat) (d7 d8 : Word) : (h.log typ src code scope unit d7 d8).ev = h.ev := by
  unfold Hub.log; simp
@[simp] theorem Hub.log_evSeen (h : Hub) (typ src code scope unit : Nat) (d7 d8 : Word) : (h.log typ src code scope unit d7 d8).evSeen = h.evSeen := by
  unfold Hub.log; simp
@[simp] theorem Hub.log_q (h : Hub) (typ src code scope unit : Nat) (d7 d8 : Word) : (h.log typ src code scope unit d7 d8).q = h.q := by
  unfold Hub.log; simp
@[simp] theorem Hub.log_stock (h : Hub) (typ src code scope unit : Nat) (d7 d8 : Word) : (h.log typ src code scope unit d7 d8).stock = h.stock := by
  unfold Hub.log; simp
@[simp] theorem Hub.log_stockFill (h : Hub) (typ src code scope unit : Nat) (d7 d8 : Word) : (h.log typ src code scope unit d7 d8).stockFill = h.stockFill := by
  unfold Hub.log; simp
@[simp] theorem Hub.log_dbgHeld (h : Hub) (typ src code scope unit : Nat) (d7 d8 : Word) : (h.log typ src code scope unit d7 d8).dbgHeld = h.dbgHeld := by
  unfold Hub.log; simp
@[simp] theorem Hub.log_ring (h : Hub) (typ src code scope unit : Nat) (d7 d8 : Word) : (h.log typ src code scope unit d7 d8).ring = h.ring := by
  unfold Hub.log; simp
@[simp] theorem Hub.log_tb (h : Hub) (typ src code scope unit : Nat) (d7 d8 : Word) : (h.log typ src code scope unit d7 d8).tb = h.tb := by
  unfold Hub.log; simp
@[simp] theorem Hub.log_trig (h : Hub) (typ src code scope unit : Nat) (d7 d8 : Word) : (h.log typ src code scope unit d7 d8).trig = h.trig := by
  unfold Hub.log; simp
@[simp] theorem Hub.log_trg (h : Hub) (typ src code scope unit : Nat) (d7 d8 : Word) : (h.log typ src code scope unit d7 d8).trg = h.trg := by
  unfold Hub.log; simp
@[simp] theorem Hub.log_tach (h : Hub) (typ src code scope unit : Nat) (d7 d8 : Word) : (h.log typ src code scope unit d7 d8).tach = h.tach := by
  unfold Hub.log; simp
@[simp] theorem Hub.log_kt (h : Hub) (typ src code scope unit : Nat) (d7 d8 : Word) : (h.log typ src code scope unit d7 d8).kt = h.kt := by
  unfold Hub.log; simp
@[simp] theorem Hub.log_job (h : Hub) (typ src code scope unit : Nat) (d7 d8 : Word) : (h.log typ src code scope unit d7 d8).job = h.job := by
  unfold Hub.log; simp
@[simp] theorem Hub.log_spc (h : Hub) (typ src code scope unit : Nat) (d7 d8 : Word) : (h.log typ src code scope unit d7 d8).spc = h.spc := by
  unfold Hub.log; simp
@[simp] theorem Hub.log_fea (h : Hub) (typ src code scope unit : Nat) (d7 d8 : Word) : (h.log typ src code scope unit d7 d8).fea = h.fea := by
  unfold Hub.log; simp
@[simp] theorem Hub.log_lim (h : Hub) (typ src code scope unit : Nat) (d7 d8 : Word) : (h.log typ src code scope unit d7 d8).lim = h.lim := by
  unfold Hub.log; simp
@[simp] theorem Hub.log_cas (h : Hub) (typ src code scope unit : Nat) (d7 d8 : Word) : (h.log typ src code scope unit d7 d8).cas = h.cas := by
  unfold Hub.log; simp
@[simp] theorem Hub.log_rad (h : Hub) (typ src code scope unit : Nat) (d7 d8 : Word) : (h.log typ src code scope unit d7 d8).rad = h.rad := by
  unfold Hub.log; simp
@[simp] theorem Hub.log_hlt (h : Hub) (typ src code scope unit : Nat) (d7 d8 : Word) : (h.log typ src code scope unit d7 d8).hlt = h.hlt := by
  unfold Hub.log; simp
@[simp] theorem Hub.log_sup (h : Hub) (typ src code scope unit : Nat) (d7 d8 : Word) : (h.log typ src code scope unit d7 d8).sup = h.sup := by
  unfold Hub.log; simp
@[simp] theorem Hub.log_tbMet (h : Hub) (typ src code scope unit : Nat) (d7 d8 : Word) : (h.log typ src code scope unit d7 d8).tbMet = h.tbMet := by
  unfold Hub.log; simp
@[simp] theorem Hub.log_metFollows (h : Hub) (typ src code scope unit : Nat) (d7 d8 : Word) : (h.log typ src code scope unit d7 d8).metFollows = h.metFollows := by
  unfold Hub.log; simp
@[simp] theorem Hub.log_metFifo (h : Hub) (typ src code scope unit : Nat) (d7 d8 : Word) : (h.log typ src code scope unit d7 d8).metFifo = h.metFifo := by
  unfold Hub.log; simp
@[simp] theorem Hub.log_metGap (h : Hub) (typ src code scope unit : Nat) (d7 d8 : Word) : (h.log typ src code scope unit d7 d8).metGap = h.metGap := by
  unfold Hub.log; simp
@[simp] theorem Hub.log_cyc (h : Hub) (typ src code scope unit : Nat) (d7 d8 : Word) : (h.log typ src code scope unit d7 d8).cyc = h.cyc := by
  unfold Hub.log; simp
@[simp] theorem Hub.log_asleep (h : Hub) (typ src code scope unit : Nat) (d7 d8 : Word) : (h.log typ src code scope unit d7 d8).asleep = h.asleep := by
  unfold Hub.log; simp
@[simp] theorem Hub.log_free (h : Hub) (typ src code scope unit : Nat) (d7 d8 : Word) : (h.log typ src code scope unit d7 d8).free = h.free := by
  unfold Hub.log; simp
@[simp] theorem Hub.log_cell (h : Hub) (typ src code scope unit : Nat) (d7 d8 : Word) (i j k : Nat) : (h.log typ src code scope unit d7 d8).cell i j k = h.cell i j k := by
  unfold Hub.cell; rw [Hub.log_cells]
@[simp] theorem Hub.log_cf (h : Hub) (typ src code scope unit : Nat) (d7 d8 : Word) (i j k lo len : Nat) : (h.log typ src code scope unit d7 d8).cf i j k lo len = h.cf i j k lo len := by
  unfold Hub.cf; rw [Hub.log_cell]
theorem Hub.log_reg (h : Hub) (typ src code scope unit : Nat) (d7 d8 : Word) {a : Nat} (ha : a < 0x1F8000 ∨ 0x1F9000 ≤ a) : (h.log typ src code scope unit d7 d8).reg a = h.reg a := by
  exact Hub.logWords_reg _ _ _ ha
theorem Hub.log_rd (h : Hub) (typ src code scope unit : Nat) (d7 d8 : Word) {f : Fld} (ha : f.addr < 0x1F8000 ∨ 0x1F9000 ≤ f.addr) : (h.log typ src code scope unit d7 d8).rd f = h.rd f :=
  Hub.rd_congr (Hub.log_reg h typ src code scope unit d7 d8 ha)
theorem Hub.log_is (h : Hub) (typ src code scope unit : Nat) (d7 d8 : Word) {f : Fld} (ha : f.addr < 0x1F8000 ∨ 0x1F9000 ≤ f.addr) : (h.log typ src code scope unit d7 d8).is f = h.is f :=
  Hub.is_congr (Hub.log_rd h typ src code scope unit d7 d8 ha)

/-! ### `Hub.trace` -/

@[simp] theorem Hub.trace_cells (h : Hub) (typ src time : Nat) (w5 w6 : Word) : (h.trace typ src time w5 w6).cells = h.cells := by
  unfold Hub.trace; (try dsimp only); (repeat' split) <;> simp
@[simp] theorem Hub.trace_clk (h : Hub) (typ src time : Nat) (w5 w6 : Word) : (h.trace typ src time w5 w6).clk = h.clk := by
  unfold Hub.trace; (try dsimp only); (repeat' split) <;> simp
@[simp] theorem Hub.trace_ldr (h : Hub) (typ src time : Nat) (w5 w6 : Word) : (h.trace typ src time w5 w6).ldr = h.ldr := by
  unfold Hub.trace; (try dsimp only); (repeat' split) <;> simp
@[simp] theorem Hub.trace_host (h : Hub) (typ src time : Nat) (w5 w6 : Word) : (h.trace typ src time w5 w6).host = h.host := by
  unfold Hub.trace; (try dsimp only); (repeat' split) <;> simp
@[simp] theorem Hub.trace_sp (h : Hub) (typ src time : Nat) (w5 w6 : Word) : (h.trace typ src time w5 w6).sp = h.sp := by
  unfold Hub.trace; (try dsimp only); (repeat' split) <;> simp
@[simp] theorem Hub.trace_tw (h : Hub) (typ src time : Nat) (w5 w6 : Word) : (h.trace typ src time w5 w6).tw = h.tw := by
  unfold Hub.trace; (try dsimp only); (repeat' split) <;> simp
@[simp] theorem Hub.trace_ingress (h : Hub) (typ src time : Nat) (w5 w6 : Word) : (h.trace typ src time w5 w6).ingress = h.ingress := by
  unfold Hub.trace; (try dsimp only); (repeat' split) <;> simp
@[simp] theorem Hub.trace_ctx (h : Hub) (typ src time : Nat) (w5 w6 : Word) : (h.trace typ src time w5 w6).ctx = h.ctx := by
  unfold Hub.trace; (try dsimp only); (repeat' split) <;> simp
@[simp] theorem Hub.trace_stg (h : Hub) (typ src time : Nat) (w5 w6 : Word) : (h.trace typ src time w5 w6).stg = h.stg := by
  unfold Hub.trace; (try dsimp only); (repeat' split) <;> simp
@[simp] theorem Hub.trace_tile (h : Hub) (typ src time : Nat) (w5 w6 : Word) : (h.trace typ src time w5 w6).tile = h.tile := by
  unfold Hub.trace; (try dsimp only); (repeat' split) <;> simp
@[simp] theorem Hub.trace_ev (h : Hub) (typ src time : Nat) (w5 w6 : Word) : (h.trace typ src time w5 w6).ev = h.ev := by
  unfold Hub.trace; (try dsimp only); (repeat' split) <;> simp
@[simp] theorem Hub.trace_evSeen (h : Hub) (typ src time : Nat) (w5 w6 : Word) : (h.trace typ src time w5 w6).evSeen = h.evSeen := by
  unfold Hub.trace; (try dsimp only); (repeat' split) <;> simp
@[simp] theorem Hub.trace_q (h : Hub) (typ src time : Nat) (w5 w6 : Word) : (h.trace typ src time w5 w6).q = h.q := by
  unfold Hub.trace; (try dsimp only); (repeat' split) <;> simp
@[simp] theorem Hub.trace_stock (h : Hub) (typ src time : Nat) (w5 w6 : Word) : (h.trace typ src time w5 w6).stock = h.stock := by
  unfold Hub.trace; (try dsimp only); (repeat' split) <;> simp
@[simp] theorem Hub.trace_stockFill (h : Hub) (typ src time : Nat) (w5 w6 : Word) : (h.trace typ src time w5 w6).stockFill = h.stockFill := by
  unfold Hub.trace; (try dsimp only); (repeat' split) <;> simp
@[simp] theorem Hub.trace_dbgHeld (h : Hub) (typ src time : Nat) (w5 w6 : Word) : (h.trace typ src time w5 w6).dbgHeld = h.dbgHeld := by
  unfold Hub.trace; (try dsimp only); (repeat' split) <;> simp
@[simp] theorem Hub.trace_ring (h : Hub) (typ src time : Nat) (w5 w6 : Word) : (h.trace typ src time w5 w6).ring = h.ring := by
  unfold Hub.trace; (try dsimp only); (repeat' split) <;> simp
@[simp] theorem Hub.trace_tb (h : Hub) (typ src time : Nat) (w5 w6 : Word) : (h.trace typ src time w5 w6).tb = h.tb := by
  unfold Hub.trace; (try dsimp only); (repeat' split) <;> simp
@[simp] theorem Hub.trace_trig (h : Hub) (typ src time : Nat) (w5 w6 : Word) : (h.trace typ src time w5 w6).trig = h.trig := by
  unfold Hub.trace; (try dsimp only); (repeat' split) <;> simp
@[simp] theorem Hub.trace_trg (h : Hub) (typ src time : Nat) (w5 w6 : Word) : (h.trace typ src time w5 w6).trg = h.trg := by
  unfold Hub.trace; (try dsimp only); (repeat' split) <;> simp
@[simp] theorem Hub.trace_tach (h : Hub) (typ src time : Nat) (w5 w6 : Word) : (h.trace typ src time w5 w6).tach = h.tach := by
  unfold Hub.trace; (try dsimp only); (repeat' split) <;> simp
@[simp] theorem Hub.trace_kt (h : Hub) (typ src time : Nat) (w5 w6 : Word) : (h.trace typ src time w5 w6).kt = h.kt := by
  unfold Hub.trace; (try dsimp only); (repeat' split) <;> simp
@[simp] theorem Hub.trace_job (h : Hub) (typ src time : Nat) (w5 w6 : Word) : (h.trace typ src time w5 w6).job = h.job := by
  unfold Hub.trace; (try dsimp only); (repeat' split) <;> simp
@[simp] theorem Hub.trace_spc (h : Hub) (typ src time : Nat) (w5 w6 : Word) : (h.trace typ src time w5 w6).spc = h.spc := by
  unfold Hub.trace; (try dsimp only); (repeat' split) <;> simp
@[simp] theorem Hub.trace_fea (h : Hub) (typ src time : Nat) (w5 w6 : Word) : (h.trace typ src time w5 w6).fea = h.fea := by
  unfold Hub.trace; (try dsimp only); (repeat' split) <;> simp
@[simp] theorem Hub.trace_lim (h : Hub) (typ src time : Nat) (w5 w6 : Word) : (h.trace typ src time w5 w6).lim = h.lim := by
  unfold Hub.trace; (try dsimp only); (repeat' split) <;> simp
@[simp] theorem Hub.trace_link (h : Hub) (typ src time : Nat) (w5 w6 : Word) : (h.trace typ src time w5 w6).link = h.link := by
  unfold Hub.trace; (try dsimp only); (repeat' split) <;> simp
@[simp] theorem Hub.trace_cas (h : Hub) (typ src time : Nat) (w5 w6 : Word) : (h.trace typ src time w5 w6).cas = h.cas := by
  unfold Hub.trace; (try dsimp only); (repeat' split) <;> simp
@[simp] theorem Hub.trace_rad (h : Hub) (typ src time : Nat) (w5 w6 : Word) : (h.trace typ src time w5 w6).rad = h.rad := by
  unfold Hub.trace; (try dsimp only); (repeat' split) <;> simp
@[simp] theorem Hub.trace_hlt (h : Hub) (typ src time : Nat) (w5 w6 : Word) : (h.trace typ src time w5 w6).hlt = h.hlt := by
  unfold Hub.trace; (try dsimp only); (repeat' split) <;> simp
@[simp] theorem Hub.trace_sup (h : Hub) (typ src time : Nat) (w5 w6 : Word) : (h.trace typ src time w5 w6).sup = h.sup := by
  unfold Hub.trace; (try dsimp only); (repeat' split) <;> simp
@[simp] theorem Hub.trace_tbMet (h : Hub) (typ src time : Nat) (w5 w6 : Word) : (h.trace typ src time w5 w6).tbMet = h.tbMet := by
  unfold Hub.trace; (try dsimp only); (repeat' split) <;> simp
@[simp] theorem Hub.trace_metFollows (h : Hub) (typ src time : Nat) (w5 w6 : Word) : (h.trace typ src time w5 w6).metFollows = h.metFollows := by
  unfold Hub.trace; (try dsimp only); (repeat' split) <;> simp
@[simp] theorem Hub.trace_metFifo (h : Hub) (typ src time : Nat) (w5 w6 : Word) : (h.trace typ src time w5 w6).metFifo = h.metFifo := by
  unfold Hub.trace; (try dsimp only); (repeat' split) <;> simp
@[simp] theorem Hub.trace_metGap (h : Hub) (typ src time : Nat) (w5 w6 : Word) : (h.trace typ src time w5 w6).metGap = h.metGap := by
  unfold Hub.trace; (try dsimp only); (repeat' split) <;> simp
@[simp] theorem Hub.trace_cyc (h : Hub) (typ src time : Nat) (w5 w6 : Word) : (h.trace typ src time w5 w6).cyc = h.cyc := by
  unfold Hub.trace; (try dsimp only); (repeat' split) <;> simp
@[simp] theorem Hub.trace_asleep (h : Hub) (typ src time : Nat) (w5 w6 : Word) : (h.trace typ src time w5 w6).asleep = h.asleep := by
  unfold Hub.trace; (try dsimp only); (repeat' split) <;> simp
@[simp] theorem Hub.trace_free (h : Hub) (typ src time : Nat) (w5 w6 : Word) : (h.trace typ src time w5 w6).free = h.free := by
  unfold Hub.trace; (try dsimp only); (repeat' split) <;> simp
@[simp] theorem Hub.trace_cell (h : Hub) (typ src time : Nat) (w5 w6 : Word) (i j k : Nat) : (h.trace typ src time w5 w6).cell i j k = h.cell i j k := by
  unfold Hub.cell; rw [Hub.trace_cells]
@[simp] theorem Hub.trace_cf (h : Hub) (typ src time : Nat) (w5 w6 : Word) (i j k lo len : Nat) : (h.trace typ src time w5 w6).cf i j k lo len = h.cf i j k lo len := by
  unfold Hub.cf; rw [Hub.trace_cell]
theorem Hub.trace_reg (h : Hub) (typ src time : Nat) (w5 w6 : Word) {a : Nat} (ha : a < 0x1F8000 ∨ 0x1F9000 ≤ a) : (h.trace typ src time w5 w6).reg a = h.reg a := by
  unfold Hub.trace
  split
  · simp only []
    split
    · rw [Hub.pushOut_reg, Hub.bkTake_reg _ 2 (by omega) ha]
    · show (((h.on fHltFltStatusSuppressed).countSat (fHltBkCount 2) 1)).reg a = _
      rw [Hub.reg_countSat_ne _ _ _ (by simp only [fHltBkCount, rHltBk]; omega), Hub.reg_on_ne _ _ (by simp only [fHltFltStatusSuppressed, rHltFltStatus]; omega)]
  · rfl
theorem Hub.trace_rd (h : Hub) (typ src time : Nat) (w5 w6 : Word) {f : Fld} (ha : f.addr < 0x1F8000 ∨ 0x1F9000 ≤ f.addr) : (h.trace typ src time w5 w6).rd f = h.rd f :=
  Hub.rd_congr (Hub.trace_reg h typ src time w5 w6 ha)
theorem Hub.trace_is (h : Hub) (typ src time : Nat) (w5 w6 : Word) {f : Fld} (ha : f.addr < 0x1F8000 ∨ 0x1F9000 ≤ f.addr) : (h.trace typ src time w5 w6).is f = h.is f :=
  Hub.is_congr (Hub.trace_rd h typ src time w5 w6 ha)

/-! ### `Hub.traceState` -/

@[simp] theorem Hub.traceState_cells (h : Hub) (cls src unit code : Nat) : (h.traceState cls src unit code).cells = h.cells := by
  unfold Hub.traceState; (repeat' split) <;> simp
@[simp] theorem Hub.traceState_clk (h : Hub) (cls src unit code : Nat) : (h.traceState cls src unit code).clk = h.clk := by
  unfold Hub.traceState; (repeat' split) <;> simp
@[simp] theorem Hub.traceState_ldr (h : Hub) (cls src unit code : Nat) : (h.traceState cls src unit code).ldr = h.ldr := by
  unfold Hub.traceState; (repeat' split) <;> simp
@[simp] theorem Hub.traceState_host (h : Hub) (cls src unit code : Nat) : (h.traceState cls src unit code).host = h.host := by
  unfold Hub.traceState; (repeat' split) <;> simp
@[simp] theorem Hub.traceState_sp (h : Hub) (cls src unit code : Nat) : (h.traceState cls src unit code).sp = h.sp := by
  unfold Hub.traceState; (repeat' split) <;> simp
@[simp] theorem Hub.traceState_tw (h : Hub) (cls src unit code : Nat) : (h.traceState cls src unit code).tw = h.tw := by
  unfold Hub.traceState; (repeat' split) <;> simp
@[simp] theorem Hub.traceState_ingress (h : Hub) (cls src unit code : Nat) : (h.traceState cls src unit code).ingress = h.ingress := by
  unfold Hub.traceState; (repeat' split) <;> simp
@[simp] theorem Hub.traceState_ctx (h : Hub) (cls src unit code : Nat) : (h.traceState cls src unit code).ctx = h.ctx := by
  unfold Hub.traceState; (repeat' split) <;> simp
@[simp] theorem Hub.traceState_stg (h : Hub) (cls src unit code : Nat) : (h.traceState cls src unit code).stg = h.stg := by
  unfold Hub.traceState; (repeat' split) <;> simp
@[simp] theorem Hub.traceState_tile (h : Hub) (cls src unit code : Nat) : (h.traceState cls src unit code).tile = h.tile := by
  unfold Hub.traceState; (repeat' split) <;> simp
@[simp] theorem Hub.traceState_ev (h : Hub) (cls src unit code : Nat) : (h.traceState cls src unit code).ev = h.ev := by
  unfold Hub.traceState; (repeat' split) <;> simp
@[simp] theorem Hub.traceState_evSeen (h : Hub) (cls src unit code : Nat) : (h.traceState cls src unit code).evSeen = h.evSeen := by
  unfold Hub.traceState; (repeat' split) <;> simp
@[simp] theorem Hub.traceState_q (h : Hub) (cls src unit code : Nat) : (h.traceState cls src unit code).q = h.q := by
  unfold Hub.traceState; (repeat' split) <;> simp
@[simp] theorem Hub.traceState_stock (h : Hub) (cls src unit code : Nat) : (h.traceState cls src unit code).stock = h.stock := by
  unfold Hub.traceState; (repeat' split) <;> simp
@[simp] theorem Hub.traceState_stockFill (h : Hub) (cls src unit code : Nat) : (h.traceState cls src unit code).stockFill = h.stockFill := by
  unfold Hub.traceState; (repeat' split) <;> simp
@[simp] theorem Hub.traceState_dbgHeld (h : Hub) (cls src unit code : Nat) : (h.traceState cls src unit code).dbgHeld = h.dbgHeld := by
  unfold Hub.traceState; (repeat' split) <;> simp
@[simp] theorem Hub.traceState_ring (h : Hub) (cls src unit code : Nat) : (h.traceState cls src unit code).ring = h.ring := by
  unfold Hub.traceState; (repeat' split) <;> simp
@[simp] theorem Hub.traceState_tb (h : Hub) (cls src unit code : Nat) : (h.traceState cls src unit code).tb = h.tb := by
  unfold Hub.traceState; (repeat' split) <;> simp
@[simp] theorem Hub.traceState_trig (h : Hub) (cls src unit code : Nat) : (h.traceState cls src unit code).trig = h.trig := by
  unfold Hub.traceState; (repeat' split) <;> simp
@[simp] theorem Hub.traceState_trg (h : Hub) (cls src unit code : Nat) : (h.traceState cls src unit code).trg = h.trg := by
  unfold Hub.traceState; (repeat' split) <;> simp
@[simp] theorem Hub.traceState_tach (h : Hub) (cls src unit code : Nat) : (h.traceState cls src unit code).tach = h.tach := by
  unfold Hub.traceState; (repeat' split) <;> simp
@[simp] theorem Hub.traceState_kt (h : Hub) (cls src unit code : Nat) : (h.traceState cls src unit code).kt = h.kt := by
  unfold Hub.traceState; (repeat' split) <;> simp
@[simp] theorem Hub.traceState_job (h : Hub) (cls src unit code : Nat) : (h.traceState cls src unit code).job = h.job := by
  unfold Hub.traceState; (repeat' split) <;> simp
@[simp] theorem Hub.traceState_spc (h : Hub) (cls src unit code : Nat) : (h.traceState cls src unit code).spc = h.spc := by
  unfold Hub.traceState; (repeat' split) <;> simp
@[simp] theorem Hub.traceState_fea (h : Hub) (cls src unit code : Nat) : (h.traceState cls src unit code).fea = h.fea := by
  unfold Hub.traceState; (repeat' split) <;> simp
@[simp] theorem Hub.traceState_lim (h : Hub) (cls src unit code : Nat) : (h.traceState cls src unit code).lim = h.lim := by
  unfold Hub.traceState; (repeat' split) <;> simp
@[simp] theorem Hub.traceState_link (h : Hub) (cls src unit code : Nat) : (h.traceState cls src unit code).link = h.link := by
  unfold Hub.traceState; (repeat' split) <;> simp
@[simp] theorem Hub.traceState_cas (h : Hub) (cls src unit code : Nat) : (h.traceState cls src unit code).cas = h.cas := by
  unfold Hub.traceState; (repeat' split) <;> simp
@[simp] theorem Hub.traceState_rad (h : Hub) (cls src unit code : Nat) : (h.traceState cls src unit code).rad = h.rad := by
  unfold Hub.traceState; (repeat' split) <;> simp
@[simp] theorem Hub.traceState_hlt (h : Hub) (cls src unit code : Nat) : (h.traceState cls src unit code).hlt = h.hlt := by
  unfold Hub.traceState; (repeat' split) <;> simp
@[simp] theorem Hub.traceState_sup (h : Hub) (cls src unit code : Nat) : (h.traceState cls src unit code).sup = h.sup := by
  unfold Hub.traceState; (repeat' split) <;> simp
@[simp] theorem Hub.traceState_tbMet (h : Hub) (cls src unit code : Nat) : (h.traceState cls src unit code).tbMet = h.tbMet := by
  unfold Hub.traceState; (repeat' split) <;> simp
@[simp] theorem Hub.traceState_metFollows (h : Hub) (cls src unit code : Nat) : (h.traceState cls src unit code).metFollows = h.metFollows := by
  unfold Hub.traceState; (repeat' split) <;> simp
@[simp] theorem Hub.traceState_metFifo (h : Hub) (cls src unit code : Nat) : (h.traceState cls src unit code).metFifo = h.metFifo := by
  unfold Hub.traceState; (repeat' split) <;> simp
@[simp] theorem Hub.traceState_metGap (h : Hub) (cls src unit code : Nat) : (h.traceState cls src unit code).metGap = h.metGap := by
  unfold Hub.traceState; (repeat' split) <;> simp
@[simp] theorem Hub.traceState_cyc (h : Hub) (cls src unit code : Nat) : (h.traceState cls src unit code).cyc = h.cyc := by
  unfold Hub.traceState; (repeat' split) <;> simp
@[simp] theorem Hub.traceState_asleep (h : Hub) (cls src unit code : Nat) : (h.traceState cls src unit code).asleep = h.asleep := by
  unfold Hub.traceState; (repeat' split) <;> simp
@[simp] theorem Hub.traceState_free (h : Hub) (cls src unit code : Nat) : (h.traceState cls src unit code).free = h.free := by
  unfold Hub.traceState; (repeat' split) <;> simp
@[simp] theorem Hub.traceState_cell (h : Hub) (cls src unit code : Nat) (i j k : Nat) : (h.traceState cls src unit code).cell i j k = h.cell i j k := by
  unfold Hub.cell; rw [Hub.traceState_cells]
@[simp] theorem Hub.traceState_cf (h : Hub) (cls src unit code : Nat) (i j k lo len : Nat) : (h.traceState cls src unit code).cf i j k lo len = h.cf i j k lo len := by
  unfold Hub.cf; rw [Hub.traceState_cell]
theorem Hub.traceState_reg (h : Hub) (cls src unit code : Nat) {a : Nat} (ha : a < 0x1F8000 ∨ 0x1F9000 ≤ a) : (h.traceState cls src unit code).reg a = h.reg a := by
  unfold Hub.traceState
  split
  · exact Hub.trace_reg _ _ _ _ _ _ ha
  · rfl
theorem Hub.traceState_rd (h : Hub) (cls src unit code : Nat) {f : Fld} (ha : f.addr < 0x1F8000 ∨ 0x1F9000 ≤ f.addr) : (h.traceState cls src unit code).rd f = h.rd f :=
  Hub.rd_congr (Hub.traceState_reg h cls src unit code ha)
theorem Hub.traceState_is (h : Hub) (cls src unit code : Nat) {f : Fld} (ha : f.addr < 0x1F8000 ∨ 0x1F9000 ≤ f.addr) : (h.traceState cls src unit code).is f = h.is f :=
  Hub.is_congr (Hub.traceState_rd h cls src unit code ha)

/-! ### `Hub.reportFault` -/

@[simp] theorem Hub.reportFault_cells (h : Hub) (code scope unit src : Nat) (d7 d8 : Word) : (h.reportFault code scope unit src d7 d8).cells = h.cells := by
  unfold Hub.reportFault; simp
@[simp] theorem Hub.reportFault_clk (h : Hub) (code scope unit src : Nat) (d7 d8 : Word) : (h.reportFault code scope unit src d7 d8).clk = h.clk := by
  unfold Hub.reportFault; simp
@[simp] theorem Hub.reportFault_ldr (h : Hub) (code scope unit src : Nat) (d7 d8 : Word) : (h.reportFault code scope unit src d7 d8).ldr = h.ldr := by
  unfold Hub.reportFault; simp
@[simp] theorem Hub.reportFault_host (h : Hub) (code scope unit src : Nat) (d7 d8 : Word) : (h.reportFault code scope unit src d7 d8).host = h.host := by
  unfold Hub.reportFault; simp
@[simp] theorem Hub.reportFault_sp (h : Hub) (code scope unit src : Nat) (d7 d8 : Word) : (h.reportFault code scope unit src d7 d8).sp = h.sp := by
  unfold Hub.reportFault; simp
@[simp] theorem Hub.reportFault_tw (h : Hub) (code scope unit src : Nat) (d7 d8 : Word) : (h.reportFault code scope unit src d7 d8).tw = h.tw := by
  unfold Hub.reportFault; simp
@[simp] theorem Hub.reportFault_ingress (h : Hub) (code scope unit src : Nat) (d7 d8 : Word) : (h.reportFault code scope unit src d7 d8).ingress = h.ingress := by
  unfold Hub.reportFault; simp
@[simp] theorem Hub.reportFault_ctx (h : Hub) (code scope unit src : Nat) (d7 d8 : Word) : (h.reportFault code scope unit src d7 d8).ctx = h.ctx := by
  unfold Hub.reportFault; simp
@[simp] theorem Hub.reportFault_stg (h : Hub) (code scope unit src : Nat) (d7 d8 : Word) : (h.reportFault code scope unit src d7 d8).stg = h.stg := by
  unfold Hub.reportFault; simp
@[simp] theorem Hub.reportFault_tile (h : Hub) (code scope unit src : Nat) (d7 d8 : Word) : (h.reportFault code scope unit src d7 d8).tile = h.tile := by
  unfold Hub.reportFault; simp
@[simp] theorem Hub.reportFault_ev (h : Hub) (code scope unit src : Nat) (d7 d8 : Word) : (h.reportFault code scope unit src d7 d8).ev = h.ev := by
  unfold Hub.reportFault; simp
@[simp] theorem Hub.reportFault_evSeen (h : Hub) (code scope unit src : Nat) (d7 d8 : Word) : (h.reportFault code scope unit src d7 d8).evSeen = h.evSeen := by
  unfold Hub.reportFault; simp
@[simp] theorem Hub.reportFault_q (h : Hub) (code scope unit src : Nat) (d7 d8 : Word) : (h.reportFault code scope unit src d7 d8).q = h.q := by
  unfold Hub.reportFault; simp
@[simp] theorem Hub.reportFault_stock (h : Hub) (code scope unit src : Nat) (d7 d8 : Word) : (h.reportFault code scope unit src d7 d8).stock = h.stock := by
  unfold Hub.reportFault; simp
@[simp] theorem Hub.reportFault_stockFill (h : Hub) (code scope unit src : Nat) (d7 d8 : Word) : (h.reportFault code scope unit src d7 d8).stockFill = h.stockFill := by
  unfold Hub.reportFault; simp
@[simp] theorem Hub.reportFault_dbgHeld (h : Hub) (code scope unit src : Nat) (d7 d8 : Word) : (h.reportFault code scope unit src d7 d8).dbgHeld = h.dbgHeld := by
  unfold Hub.reportFault; simp
@[simp] theorem Hub.reportFault_ring (h : Hub) (code scope unit src : Nat) (d7 d8 : Word) : (h.reportFault code scope unit src d7 d8).ring = h.ring := by
  unfold Hub.reportFault; simp
@[simp] theorem Hub.reportFault_tb (h : Hub) (code scope unit src : Nat) (d7 d8 : Word) : (h.reportFault code scope unit src d7 d8).tb = h.tb := by
  unfold Hub.reportFault; simp
@[simp] theorem Hub.reportFault_trig (h : Hub) (code scope unit src : Nat) (d7 d8 : Word) : (h.reportFault code scope unit src d7 d8).trig = h.trig := by
  unfold Hub.reportFault; simp
@[simp] theorem Hub.reportFault_trg (h : Hub) (code scope unit src : Nat) (d7 d8 : Word) : (h.reportFault code scope unit src d7 d8).trg = h.trg := by
  unfold Hub.reportFault; simp
@[simp] theorem Hub.reportFault_tach (h : Hub) (code scope unit src : Nat) (d7 d8 : Word) : (h.reportFault code scope unit src d7 d8).tach = h.tach := by
  unfold Hub.reportFault; simp
@[simp] theorem Hub.reportFault_kt (h : Hub) (code scope unit src : Nat) (d7 d8 : Word) : (h.reportFault code scope unit src d7 d8).kt = h.kt := by
  unfold Hub.reportFault; simp
@[simp] theorem Hub.reportFault_job (h : Hub) (code scope unit src : Nat) (d7 d8 : Word) : (h.reportFault code scope unit src d7 d8).job = h.job := by
  unfold Hub.reportFault; simp
@[simp] theorem Hub.reportFault_spc (h : Hub) (code scope unit src : Nat) (d7 d8 : Word) : (h.reportFault code scope unit src d7 d8).spc = h.spc := by
  unfold Hub.reportFault; simp
@[simp] theorem Hub.reportFault_fea (h : Hub) (code scope unit src : Nat) (d7 d8 : Word) : (h.reportFault code scope unit src d7 d8).fea = h.fea := by
  unfold Hub.reportFault; simp
@[simp] theorem Hub.reportFault_lim (h : Hub) (code scope unit src : Nat) (d7 d8 : Word) : (h.reportFault code scope unit src d7 d8).lim = h.lim := by
  unfold Hub.reportFault; simp
@[simp] theorem Hub.reportFault_cas (h : Hub) (code scope unit src : Nat) (d7 d8 : Word) : (h.reportFault code scope unit src d7 d8).cas = h.cas := by
  unfold Hub.reportFault; simp
@[simp] theorem Hub.reportFault_rad (h : Hub) (code scope unit src : Nat) (d7 d8 : Word) : (h.reportFault code scope unit src d7 d8).rad = h.rad := by
  unfold Hub.reportFault; simp
@[simp] theorem Hub.reportFault_hlt (h : Hub) (code scope unit src : Nat) (d7 d8 : Word) : (h.reportFault code scope unit src d7 d8).hlt = h.hlt := by
  unfold Hub.reportFault; simp
@[simp] theorem Hub.reportFault_sup (h : Hub) (code scope unit src : Nat) (d7 d8 : Word) : (h.reportFault code scope unit src d7 d8).sup = h.sup := by
  unfold Hub.reportFault; simp
@[simp] theorem Hub.reportFault_tbMet (h : Hub) (code scope unit src : Nat) (d7 d8 : Word) : (h.reportFault code scope unit src d7 d8).tbMet = h.tbMet := by
  unfold Hub.reportFault; simp
@[simp] theorem Hub.reportFault_metFollows (h : Hub) (code scope unit src : Nat) (d7 d8 : Word) : (h.reportFault code scope unit src d7 d8).metFollows = h.metFollows := by
  unfold Hub.reportFault; simp
@[simp] theorem Hub.reportFault_metFifo (h : Hub) (code scope unit src : Nat) (d7 d8 : Word) : (h.reportFault code scope unit src d7 d8).metFifo = h.metFifo := by
  unfold Hub.reportFault; simp
@[simp] theorem Hub.reportFault_metGap (h : Hub) (code scope unit src : Nat) (d7 d8 : Word) : (h.reportFault code scope unit src d7 d8).metGap = h.metGap := by
  unfold Hub.reportFault; simp
@[simp] theorem Hub.reportFault_cyc (h : Hub) (code scope unit src : Nat) (d7 d8 : Word) : (h.reportFault code scope unit src d7 d8).cyc = h.cyc := by
  unfold Hub.reportFault; simp
@[simp] theorem Hub.reportFault_asleep (h : Hub) (code scope unit src : Nat) (d7 d8 : Word) : (h.reportFault code scope unit src d7 d8).asleep = h.asleep := by
  unfold Hub.reportFault; simp
@[simp] theorem Hub.reportFault_free (h : Hub) (code scope unit src : Nat) (d7 d8 : Word) : (h.reportFault code scope unit src d7 d8).free = h.free := by
  unfold Hub.reportFault; simp
@[simp] theorem Hub.reportFault_cell (h : Hub) (code scope unit src : Nat) (d7 d8 : Word) (i j k : Nat) : (h.reportFault code scope unit src d7 d8).cell i j k = h.cell i j k := by
  unfold Hub.cell; rw [Hub.reportFault_cells]
@[simp] theorem Hub.reportFault_cf (h : Hub) (code scope unit src : Nat) (d7 d8 : Word) (i j k lo len : Nat) : (h.reportFault code scope unit src d7 d8).cf i j k lo len = h.cf i j k lo len := by
  unfold Hub.cf; rw [Hub.reportFault_cell]
theorem Hub.reportFault_reg (h : Hub) (code scope unit src : Nat) (d7 d8 : Word) {a : Nat} (ha : a < 0x1F8000 ∨ 0x1F9000 ≤ a) : (h.reportFault code scope unit src d7 d8).reg a = h.reg a := by
  unfold Hub.reportFault
  simp only []
  rw [Hub.log_reg _ _ _ _ _ _ _ _ ha, Hub.reg_countSat_ne _ _ _ (by simp only [fHltFltCountFaults, rHltFltCount]; omega),
    Hub.reg_wr_ne _ _ _ (by simp only [fHltFltLastUnit, rHltFltLast]; omega), Hub.reg_wr_ne _ _ _ (by simp only [fHltFltLastScope, rHltFltLast]; omega),
    Hub.reg_wr_ne _ _ _ (by simp only [fHltFltLastCode, rHltFltLast]; omega)]
theorem Hub.reportFault_rd (h : Hub) (code scope unit src : Nat) (d7 d8 : Word) {f : Fld} (ha : f.addr < 0x1F8000 ∨ 0x1F9000 ≤ f.addr) : (h.reportFault code scope unit src d7 d8).rd f = h.rd f :=
  Hub.rd_congr (Hub.reportFault_reg h code scope unit src d7 d8 ha)
theorem Hub.reportFault_is (h : Hub) (code scope unit src : Nat) (d7 d8 : Word) {f : Fld} (ha : f.addr < 0x1F8000 ∨ 0x1F9000 ≤ f.addr) : (h.reportFault code scope unit src d7 d8).is f = h.is f :=
  Hub.is_congr (Hub.reportFault_rd h code scope unit src d7 d8 ha)

/-! ### `Hub.fault` -/

@[simp] theorem Hub.fault_cells (h : Hub) (code unit src : Nat) (d7 d8 : Word) : (h.fault code unit src d7 d8).cells = h.cells := by
  unfold Hub.fault; simp
@[simp] theorem Hub.fault_clk (h : Hub) (code unit src : Nat) (d7 d8 : Word) : (h.fault code unit src d7 d8).clk = h.clk := by
  unfold Hub.fault; simp
@[simp] theorem Hub.fault_ldr (h : Hub) (code unit src : Nat) (d7 d8 : Word) : (h.fault code unit src d7 d8).ldr = h.ldr := by
  unfold Hub.fault; simp
@[simp] theorem Hub.fault_host (h : Hub) (code unit src : Nat) (d7 d8 : Word) : (h.fault code unit src d7 d8).host = h.host := by
  unfold Hub.fault; simp
@[simp] theorem Hub.fault_sp (h : Hub) (code unit src : Nat) (d7 d8 : Word) : (h.fault code unit src d7 d8).sp = h.sp := by
  unfold Hub.fault; simp
@[simp] theorem Hub.fault_tw (h : Hub) (code unit src : Nat) (d7 d8 : Word) : (h.fault code unit src d7 d8).tw = h.tw := by
  unfold Hub.fault; simp
@[simp] theorem Hub.fault_ingress (h : Hub) (code unit src : Nat) (d7 d8 : Word) : (h.fault code unit src d7 d8).ingress = h.ingress := by
  unfold Hub.fault; simp
@[simp] theorem Hub.fault_ctx (h : Hub) (code unit src : Nat) (d7 d8 : Word) : (h.fault code unit src d7 d8).ctx = h.ctx := by
  unfold Hub.fault; simp
@[simp] theorem Hub.fault_stg (h : Hub) (code unit src : Nat) (d7 d8 : Word) : (h.fault code unit src d7 d8).stg = h.stg := by
  unfold Hub.fault; simp
@[simp] theorem Hub.fault_tile (h : Hub) (code unit src : Nat) (d7 d8 : Word) : (h.fault code unit src d7 d8).tile = h.tile := by
  unfold Hub.fault; simp
@[simp] theorem Hub.fault_ev (h : Hub) (code unit src : Nat) (d7 d8 : Word) : (h.fault code unit src d7 d8).ev = h.ev := by
  unfold Hub.fault; simp
@[simp] theorem Hub.fault_evSeen (h : Hub) (code unit src : Nat) (d7 d8 : Word) : (h.fault code unit src d7 d8).evSeen = h.evSeen := by
  unfold Hub.fault; simp
@[simp] theorem Hub.fault_q (h : Hub) (code unit src : Nat) (d7 d8 : Word) : (h.fault code unit src d7 d8).q = h.q := by
  unfold Hub.fault; simp
@[simp] theorem Hub.fault_stock (h : Hub) (code unit src : Nat) (d7 d8 : Word) : (h.fault code unit src d7 d8).stock = h.stock := by
  unfold Hub.fault; simp
@[simp] theorem Hub.fault_stockFill (h : Hub) (code unit src : Nat) (d7 d8 : Word) : (h.fault code unit src d7 d8).stockFill = h.stockFill := by
  unfold Hub.fault; simp
@[simp] theorem Hub.fault_dbgHeld (h : Hub) (code unit src : Nat) (d7 d8 : Word) : (h.fault code unit src d7 d8).dbgHeld = h.dbgHeld := by
  unfold Hub.fault; simp
@[simp] theorem Hub.fault_ring (h : Hub) (code unit src : Nat) (d7 d8 : Word) : (h.fault code unit src d7 d8).ring = h.ring := by
  unfold Hub.fault; simp
@[simp] theorem Hub.fault_tb (h : Hub) (code unit src : Nat) (d7 d8 : Word) : (h.fault code unit src d7 d8).tb = h.tb := by
  unfold Hub.fault; simp
@[simp] theorem Hub.fault_trig (h : Hub) (code unit src : Nat) (d7 d8 : Word) : (h.fault code unit src d7 d8).trig = h.trig := by
  unfold Hub.fault; simp
@[simp] theorem Hub.fault_trg (h : Hub) (code unit src : Nat) (d7 d8 : Word) : (h.fault code unit src d7 d8).trg = h.trg := by
  unfold Hub.fault; simp
@[simp] theorem Hub.fault_tach (h : Hub) (code unit src : Nat) (d7 d8 : Word) : (h.fault code unit src d7 d8).tach = h.tach := by
  unfold Hub.fault; simp
@[simp] theorem Hub.fault_kt (h : Hub) (code unit src : Nat) (d7 d8 : Word) : (h.fault code unit src d7 d8).kt = h.kt := by
  unfold Hub.fault; simp
@[simp] theorem Hub.fault_job (h : Hub) (code unit src : Nat) (d7 d8 : Word) : (h.fault code unit src d7 d8).job = h.job := by
  unfold Hub.fault; simp
@[simp] theorem Hub.fault_spc (h : Hub) (code unit src : Nat) (d7 d8 : Word) : (h.fault code unit src d7 d8).spc = h.spc := by
  unfold Hub.fault; simp
@[simp] theorem Hub.fault_fea (h : Hub) (code unit src : Nat) (d7 d8 : Word) : (h.fault code unit src d7 d8).fea = h.fea := by
  unfold Hub.fault; simp
@[simp] theorem Hub.fault_lim (h : Hub) (code unit src : Nat) (d7 d8 : Word) : (h.fault code unit src d7 d8).lim = h.lim := by
  unfold Hub.fault; simp
@[simp] theorem Hub.fault_cas (h : Hub) (code unit src : Nat) (d7 d8 : Word) : (h.fault code unit src d7 d8).cas = h.cas := by
  unfold Hub.fault; simp
@[simp] theorem Hub.fault_rad (h : Hub) (code unit src : Nat) (d7 d8 : Word) : (h.fault code unit src d7 d8).rad = h.rad := by
  unfold Hub.fault; simp
@[simp] theorem Hub.fault_hlt (h : Hub) (code unit src : Nat) (d7 d8 : Word) : (h.fault code unit src d7 d8).hlt = h.hlt := by
  unfold Hub.fault; simp
@[simp] theorem Hub.fault_sup (h : Hub) (code unit src : Nat) (d7 d8 : Word) : (h.fault code unit src d7 d8).sup = h.sup := by
  unfold Hub.fault; simp
@[simp] theorem Hub.fault_tbMet (h : Hub) (code unit src : Nat) (d7 d8 : Word) : (h.fault code unit src d7 d8).tbMet = h.tbMet := by
  unfold Hub.fault; simp
@[simp] theorem Hub.fault_metFollows (h : Hub) (code unit src : Nat) (d7 d8 : Word) : (h.fault code unit src d7 d8).metFollows = h.metFollows := by
  unfold Hub.fault; simp
@[simp] theorem Hub.fault_metFifo (h : Hub) (code unit src : Nat) (d7 d8 : Word) : (h.fault code unit src d7 d8).metFifo = h.metFifo := by
  unfold Hub.fault; simp
@[simp] theorem Hub.fault_metGap (h : Hub) (code unit src : Nat) (d7 d8 : Word) : (h.fault code unit src d7 d8).metGap = h.metGap := by
  unfold Hub.fault; simp
@[simp] theorem Hub.fault_cyc (h : Hub) (code unit src : Nat) (d7 d8 : Word) : (h.fault code unit src d7 d8).cyc = h.cyc := by
  unfold Hub.fault; simp
@[simp] theorem Hub.fault_asleep (h : Hub) (code unit src : Nat) (d7 d8 : Word) : (h.fault code unit src d7 d8).asleep = h.asleep := by
  unfold Hub.fault; simp
@[simp] theorem Hub.fault_free (h : Hub) (code unit src : Nat) (d7 d8 : Word) : (h.fault code unit src d7 d8).free = h.free := by
  unfold Hub.fault; simp
@[simp] theorem Hub.fault_cell (h : Hub) (code unit src : Nat) (d7 d8 : Word) (i j k : Nat) : (h.fault code unit src d7 d8).cell i j k = h.cell i j k := by
  unfold Hub.cell; rw [Hub.fault_cells]
@[simp] theorem Hub.fault_cf (h : Hub) (code unit src : Nat) (d7 d8 : Word) (i j k lo len : Nat) : (h.fault code unit src d7 d8).cf i j k lo len = h.cf i j k lo len := by
  unfold Hub.cf; rw [Hub.fault_cell]
theorem Hub.fault_reg (h : Hub) (code unit src : Nat) (d7 d8 : Word) {a : Nat} (ha : a < 0x1F8000 ∨ 0x1F9000 ≤ a) : (h.fault code unit src d7 d8).reg a = h.reg a := by
  exact Hub.reportFault_reg _ _ _ _ _ _ _ ha
theorem Hub.fault_rd (h : Hub) (code unit src : Nat) (d7 d8 : Word) {f : Fld} (ha : f.addr < 0x1F8000 ∨ 0x1F9000 ≤ f.addr) : (h.fault code unit src d7 d8).rd f = h.rd f :=
  Hub.rd_congr (Hub.fault_reg h code unit src d7 d8 ha)
theorem Hub.fault_is (h : Hub) (code unit src : Nat) (d7 d8 : Word) {f : Fld} (ha : f.addr < 0x1F8000 ∨ 0x1F9000 ≤ f.addr) : (h.fault code unit src d7 d8).is f = h.is f :=
  Hub.is_congr (Hub.fault_rd h code unit src d7 d8 ha)

/-! ### `Hub.showRecs` -/

@[simp] theorem Hub.showRecs_cells (h : Hub) : (h.showRecs).cells = h.cells := by
  unfold Hub.showRecs; simp
@[simp] theorem Hub.showRecs_clk (h : Hub) : (h.showRecs).clk = h.clk := by
  unfold Hub.showRecs; simp
@[simp] theorem Hub.showRecs_ldr (h : Hub) : (h.showRecs).ldr = h.ldr := by
  unfold Hub.showRecs; simp
@[simp] theorem Hub.showRecs_host (h : Hub) : (h.showRecs).host = h.host := by
  unfold Hub.showRecs; simp
@[simp] theorem Hub.showRecs_sp (h : Hub) : (h.showRecs).sp = h.sp := by
  unfold Hub.showRecs; simp
@[simp] theorem Hub.showRecs_tw (h : Hub) : (h.showRecs).tw = h.tw := by
  unfold Hub.showRecs; simp
@[simp] theorem Hub.showRecs_ingress (h : Hub) : (h.showRecs).ingress = h.ingress := by
  unfold Hub.showRecs; simp
@[simp] theorem Hub.showRecs_ctx (h : Hub) : (h.showRecs).ctx = h.ctx := by
  unfold Hub.showRecs; simp
@[simp] theorem Hub.showRecs_stg (h : Hub) : (h.showRecs).stg = h.stg := by
  unfold Hub.showRecs; simp
@[simp] theorem Hub.showRecs_tile (h : Hub) : (h.showRecs).tile = h.tile := by
  unfold Hub.showRecs; simp
@[simp] theorem Hub.showRecs_ev (h : Hub) : (h.showRecs).ev = h.ev := by
  unfold Hub.showRecs; simp
@[simp] theorem Hub.showRecs_evSeen (h : Hub) : (h.showRecs).evSeen = h.evSeen := by
  unfold Hub.showRecs; simp
@[simp] theorem Hub.showRecs_q (h : Hub) : (h.showRecs).q = h.q := by
  unfold Hub.showRecs; simp
@[simp] theorem Hub.showRecs_stock (h : Hub) : (h.showRecs).stock = h.stock := by
  unfold Hub.showRecs; simp
@[simp] theorem Hub.showRecs_stockFill (h : Hub) : (h.showRecs).stockFill = h.stockFill := by
  unfold Hub.showRecs; simp
@[simp] theorem Hub.showRecs_dbgHeld (h : Hub) : (h.showRecs).dbgHeld = h.dbgHeld := by
  unfold Hub.showRecs; simp
@[simp] theorem Hub.showRecs_ring (h : Hub) : (h.showRecs).ring = h.ring := by
  unfold Hub.showRecs; simp
@[simp] theorem Hub.showRecs_outbox (h : Hub) : (h.showRecs).outbox = h.outbox := by
  unfold Hub.showRecs; simp
@[simp] theorem Hub.showRecs_tb (h : Hub) : (h.showRecs).tb = h.tb := by
  unfold Hub.showRecs; simp
@[simp] theorem Hub.showRecs_trig (h : Hub) : (h.showRecs).trig = h.trig := by
  unfold Hub.showRecs; simp
@[simp] theorem Hub.showRecs_trg (h : Hub) : (h.showRecs).trg = h.trg := by
  unfold Hub.showRecs; simp
@[simp] theorem Hub.showRecs_tach (h : Hub) : (h.showRecs).tach = h.tach := by
  unfold Hub.showRecs; simp
@[simp] theorem Hub.showRecs_kt (h : Hub) : (h.showRecs).kt = h.kt := by
  unfold Hub.showRecs; simp
@[simp] theorem Hub.showRecs_flt (h : Hub) : (h.showRecs).flt = h.flt := by
  unfold Hub.showRecs; simp
@[simp] theorem Hub.showRecs_job (h : Hub) : (h.showRecs).job = h.job := by
  unfold Hub.showRecs; simp
@[simp] theorem Hub.showRecs_spc (h : Hub) : (h.showRecs).spc = h.spc := by
  unfold Hub.showRecs; simp
@[simp] theorem Hub.showRecs_fea (h : Hub) : (h.showRecs).fea = h.fea := by
  unfold Hub.showRecs; simp
@[simp] theorem Hub.showRecs_lim (h : Hub) : (h.showRecs).lim = h.lim := by
  unfold Hub.showRecs; simp
@[simp] theorem Hub.showRecs_link (h : Hub) : (h.showRecs).link = h.link := by
  unfold Hub.showRecs; simp
@[simp] theorem Hub.showRecs_cas (h : Hub) : (h.showRecs).cas = h.cas := by
  unfold Hub.showRecs; simp
@[simp] theorem Hub.showRecs_rad (h : Hub) : (h.showRecs).rad = h.rad := by
  unfold Hub.showRecs; simp
@[simp] theorem Hub.showRecs_hlt (h : Hub) : (h.showRecs).hlt = h.hlt := by
  unfold Hub.showRecs; simp
@[simp] theorem Hub.showRecs_sup (h : Hub) : (h.showRecs).sup = h.sup := by
  unfold Hub.showRecs; simp
@[simp] theorem Hub.showRecs_tbMet (h : Hub) : (h.showRecs).tbMet = h.tbMet := by
  unfold Hub.showRecs; simp
@[simp] theorem Hub.showRecs_metFollows (h : Hub) : (h.showRecs).metFollows = h.metFollows := by
  unfold Hub.showRecs; simp
@[simp] theorem Hub.showRecs_metFifo (h : Hub) : (h.showRecs).metFifo = h.metFifo := by
  unfold Hub.showRecs; simp
@[simp] theorem Hub.showRecs_metGap (h : Hub) : (h.showRecs).metGap = h.metGap := by
  unfold Hub.showRecs; simp
@[simp] theorem Hub.showRecs_cyc (h : Hub) : (h.showRecs).cyc = h.cyc := by
  unfold Hub.showRecs; simp
@[simp] theorem Hub.showRecs_asleep (h : Hub) : (h.showRecs).asleep = h.asleep := by
  unfold Hub.showRecs; simp
@[simp] theorem Hub.showRecs_free (h : Hub) : (h.showRecs).free = h.free := by
  unfold Hub.showRecs; simp
@[simp] theorem Hub.showRecs_cell (h : Hub) (i j k : Nat) : (h.showRecs).cell i j k = h.cell i j k := by
  unfold Hub.cell; rw [Hub.showRecs_cells]
@[simp] theorem Hub.showRecs_cf (h : Hub) (i j k lo len : Nat) : (h.showRecs).cf i j k lo len = h.cf i j k lo len := by
  unfold Hub.cf; rw [Hub.showRecs_cell]
theorem Hub.showRecs_reg (h : Hub) {a : Nat} (ha : a ≠ 0xC ∧ (a < 0x1F8000 ∨ 0x1F9000 ≤ a)) : (h.showRecs).reg a = h.reg a := by
  unfold Hub.showRecs
  simp only []
  rw [Hub.reg_wr_ne _ _ _ (by simp only [fGlbResetBusy, rGlbReset]; omega), Hub.reg_wr_ne _ _ _ (by simp only [fHltFltStatusBusy, rHltFltStatus]; omega),
    Hub.reg_wr_ne _ _ _ (by simp only [fHltRecActiveActive, rHltRecActive]; omega)]
theorem Hub.showRecs_rd (h : Hub) {f : Fld} (ha : f.addr ≠ 0xC ∧ (f.addr < 0x1F8000 ∨ 0x1F9000 ≤ f.addr)) : (h.showRecs).rd f = h.rd f :=
  Hub.rd_congr (Hub.showRecs_reg h  ha)
theorem Hub.showRecs_is (h : Hub) {f : Fld} (ha : f.addr ≠ 0xC ∧ (f.addr < 0x1F8000 ∨ 0x1F9000 ≤ f.addr)) : (h.showRecs).is f = h.is f :=
  Hub.is_congr (Hub.showRecs_rd h  ha)

@[simp] theorem Hub.sendSuppressed_flt_recs (h : Hub)  : (h.sendSuppressed).flt.recs = h.flt.recs := by
  unfold Hub.sendSuppressed; (repeat' split) <;> simp
@[simp] theorem Hub.sendSuppressed_flt_pend (h : Hub)  : (h.sendSuppressed).flt.pend = h.flt.pend := by
  unfold Hub.sendSuppressed; (repeat' split) <;> simp
@[simp] theorem Hub.sendSuppressed_flt_refs (h : Hub)  : (h.sendSuppressed).flt.refs = h.flt.refs := by
  unfold Hub.sendSuppressed; (repeat' split) <;> simp
@[simp] theorem Hub.sendSuppressed_flt_upset (h : Hub)  : (h.sendSuppressed).flt.upset = h.flt.upset := by
  unfold Hub.sendSuppressed; (repeat' split) <;> simp
@[simp] theorem Hub.sendSuppressed_flt_parity (h : Hub)  : (h.sendSuppressed).flt.parity = h.flt.parity := by
  unfold Hub.sendSuppressed; (repeat' split) <;> simp
@[simp] theorem Hub.sendSuppressed_flt_heldRec (h : Hub)  : (h.sendSuppressed).flt.heldRec = h.flt.heldRec := by
  unfold Hub.sendSuppressed; (repeat' split) <;> simp
@[simp] theorem Hub.suppress_flt_recs (h : Hub) (typ : Nat) : (h.suppress typ).flt.recs = h.flt.recs := by
  unfold Hub.suppress; simp
@[simp] theorem Hub.suppress_flt_pend (h : Hub) (typ : Nat) : (h.suppress typ).flt.pend = h.flt.pend := by
  unfold Hub.suppress; simp
@[simp] theorem Hub.suppress_flt_refs (h : Hub) (typ : Nat) : (h.suppress typ).flt.refs = h.flt.refs := by
  unfold Hub.suppress; simp
@[simp] theorem Hub.suppress_flt_upset (h : Hub) (typ : Nat) : (h.suppress typ).flt.upset = h.flt.upset := by
  unfold Hub.suppress; simp
@[simp] theorem Hub.suppress_flt_parity (h : Hub) (typ : Nat) : (h.suppress typ).flt.parity = h.flt.parity := by
  unfold Hub.suppress; simp
@[simp] theorem Hub.suppress_flt_heldRec (h : Hub) (typ : Nat) : (h.suppress typ).flt.heldRec = h.flt.heldRec := by
  unfold Hub.suppress; simp
@[simp] theorem Hub.sendUpSuppressed_flt_recs (h : Hub)  : (h.sendUpSuppressed).flt.recs = h.flt.recs := by
  unfold Hub.sendUpSuppressed; (repeat' split) <;> simp
@[simp] theorem Hub.sendUpSuppressed_flt_pend (h : Hub)  : (h.sendUpSuppressed).flt.pend = h.flt.pend := by
  unfold Hub.sendUpSuppressed; (repeat' split) <;> simp
@[simp] theorem Hub.sendUpSuppressed_flt_refs (h : Hub)  : (h.sendUpSuppressed).flt.refs = h.flt.refs := by
  unfold Hub.sendUpSuppressed; (repeat' split) <;> simp
@[simp] theorem Hub.sendUpSuppressed_flt_upset (h : Hub)  : (h.sendUpSuppressed).flt.upset = h.flt.upset := by
  unfold Hub.sendUpSuppressed; (repeat' split) <;> simp
@[simp] theorem Hub.sendUpSuppressed_flt_parity (h : Hub)  : (h.sendUpSuppressed).flt.parity = h.flt.parity := by
  unfold Hub.sendUpSuppressed; (repeat' split) <;> simp
@[simp] theorem Hub.sendUpSuppressed_flt_heldRec (h : Hub)  : (h.sendUpSuppressed).flt.heldRec = h.flt.heldRec := by
  unfold Hub.sendUpSuppressed; (repeat' split) <;> simp
@[simp] theorem Hub.logUp_flt_recs (h : Hub) (typ : Nat) (ws : List Word) : (h.logUp typ ws).flt.recs = h.flt.recs := by
  unfold Hub.logUp; (try dsimp only); (repeat' split) <;> simp
@[simp] theorem Hub.logUp_flt_pend (h : Hub) (typ : Nat) (ws : List Word) : (h.logUp typ ws).flt.pend = h.flt.pend := by
  unfold Hub.logUp; (try dsimp only); (repeat' split) <;> simp
@[simp] theorem Hub.logUp_flt_refs (h : Hub) (typ : Nat) (ws : List Word) : (h.logUp typ ws).flt.refs = h.flt.refs := by
  unfold Hub.logUp; (try dsimp only); (repeat' split) <;> simp
@[simp] theorem Hub.logUp_flt_upset (h : Hub) (typ : Nat) (ws : List Word) : (h.logUp typ ws).flt.upset = h.flt.upset := by
  unfold Hub.logUp; (try dsimp only); (repeat' split) <;> simp
@[simp] theorem Hub.logUp_flt_parity (h : Hub) (typ : Nat) (ws : List Word) : (h.logUp typ ws).flt.parity = h.flt.parity := by
  unfold Hub.logUp; (try dsimp only); (repeat' split) <;> simp
@[simp] theorem Hub.logUp_flt_heldRec (h : Hub) (typ : Nat) (ws : List Word) : (h.logUp typ ws).flt.heldRec = h.flt.heldRec := by
  unfold Hub.logUp; (try dsimp only); (repeat' split) <;> simp
@[simp] theorem Hub.logWords_flt_recs (h : Hub) (typ : Nat) (ws : List Word) : (h.logWords typ ws).flt.recs = h.flt.recs := by
  unfold Hub.logWords; dsimp only; (repeat' split) <;> simp
@[simp] theorem Hub.logWords_flt_pend (h : Hub) (typ : Nat) (ws : List Word) : (h.logWords typ ws).flt.pend = h.flt.pend := by
  unfold Hub.logWords; dsimp only; (repeat' split) <;> simp
@[simp] theorem Hub.logWords_flt_refs (h : Hub) (typ : Nat) (ws : List Word) : (h.logWords typ ws).flt.refs = h.flt.refs := by
  unfold Hub.logWords; dsimp only; (repeat' split) <;> simp
@[simp] theorem Hub.logWords_flt_upset (h : Hub) (typ : Nat) (ws : List Word) : (h.logWords typ ws).flt.upset = h.flt.upset := by
  unfold Hub.logWords; dsimp only; (repeat' split) <;> simp
@[simp] theorem Hub.logWords_flt_parity (h : Hub) (typ : Nat) (ws : List Word) : (h.logWords typ ws).flt.parity = h.flt.parity := by
  unfold Hub.logWords; dsimp only; (repeat' split) <;> simp
@[simp] theorem Hub.logWords_flt_heldRec (h : Hub) (typ : Nat) (ws : List Word) : (h.logWords typ ws).flt.heldRec = h.flt.heldRec := by
  unfold Hub.logWords; dsimp only; (repeat' split) <;> simp
@[simp] theorem Hub.log_flt_recs (h : Hub) (typ src code scope unit : Nat) (d7 d8 : Word) : (h.log typ src code scope unit d7 d8).flt.recs = h.flt.recs := by
  unfold Hub.log; simp
@[simp] theorem Hub.log_flt_pend (h : Hub) (typ src code scope unit : Nat) (d7 d8 : Word) : (h.log typ src code scope unit d7 d8).flt.pend = h.flt.pend := by
  unfold Hub.log; simp
@[simp] theorem Hub.log_flt_refs (h : Hub) (typ src code scope unit : Nat) (d7 d8 : Word) : (h.log typ src code scope unit d7 d8).flt.refs = h.flt.refs := by
  unfold Hub.log; simp
@[simp] theorem Hub.log_flt_upset (h : Hub) (typ src code scope unit : Nat) (d7 d8 : Word) : (h.log typ src code scope unit d7 d8).flt.upset = h.flt.upset := by
  unfold Hub.log; simp
@[simp] theorem Hub.log_flt_parity (h : Hub) (typ src code scope unit : Nat) (d7 d8 : Word) : (h.log typ src code scope unit d7 d8).flt.parity = h.flt.parity := by
  unfold Hub.log; simp
@[simp] theorem Hub.log_flt_heldRec (h : Hub) (typ src code scope unit : Nat) (d7 d8 : Word) : (h.log typ src code scope unit d7 d8).flt.heldRec = h.flt.heldRec := by
  unfold Hub.log; simp
@[simp] theorem Hub.trace_flt_recs (h : Hub) (typ src time : Nat) (w5 w6 : Word) : (h.trace typ src time w5 w6).flt.recs = h.flt.recs := by
  unfold Hub.trace; dsimp only; (repeat' split) <;> simp
@[simp] theorem Hub.trace_flt_pend (h : Hub) (typ src time : Nat) (w5 w6 : Word) : (h.trace typ src time w5 w6).flt.pend = h.flt.pend := by
  unfold Hub.trace; dsimp only; (repeat' split) <;> simp
@[simp] theorem Hub.trace_flt_refs (h : Hub) (typ src time : Nat) (w5 w6 : Word) : (h.trace typ src time w5 w6).flt.refs = h.flt.refs := by
  unfold Hub.trace; dsimp only; (repeat' split) <;> simp
@[simp] theorem Hub.trace_flt_upset (h : Hub) (typ src time : Nat) (w5 w6 : Word) : (h.trace typ src time w5 w6).flt.upset = h.flt.upset := by
  unfold Hub.trace; dsimp only; (repeat' split) <;> simp
@[simp] theorem Hub.trace_flt_parity (h : Hub) (typ src time : Nat) (w5 w6 : Word) : (h.trace typ src time w5 w6).flt.parity = h.flt.parity := by
  unfold Hub.trace; dsimp only; (repeat' split) <;> simp
@[simp] theorem Hub.trace_flt_heldRec (h : Hub) (typ src time : Nat) (w5 w6 : Word) : (h.trace typ src time w5 w6).flt.heldRec = h.flt.heldRec := by
  unfold Hub.trace; dsimp only; (repeat' split) <;> simp
@[simp] theorem Hub.traceState_flt_recs (h : Hub) (cls src unit code : Nat) : (h.traceState cls src unit code).flt.recs = h.flt.recs := by
  unfold Hub.traceState; (repeat' split) <;> simp
@[simp] theorem Hub.traceState_flt_pend (h : Hub) (cls src unit code : Nat) : (h.traceState cls src unit code).flt.pend = h.flt.pend := by
  unfold Hub.traceState; (repeat' split) <;> simp
@[simp] theorem Hub.traceState_flt_refs (h : Hub) (cls src unit code : Nat) : (h.traceState cls src unit code).flt.refs = h.flt.refs := by
  unfold Hub.traceState; (repeat' split) <;> simp
@[simp] theorem Hub.traceState_flt_upset (h : Hub) (cls src unit code : Nat) : (h.traceState cls src unit code).flt.upset = h.flt.upset := by
  unfold Hub.traceState; (repeat' split) <;> simp
@[simp] theorem Hub.traceState_flt_parity (h : Hub) (cls src unit code : Nat) : (h.traceState cls src unit code).flt.parity = h.flt.parity := by
  unfold Hub.traceState; (repeat' split) <;> simp
@[simp] theorem Hub.traceState_flt_heldRec (h : Hub) (cls src unit code : Nat) : (h.traceState cls src unit code).flt.heldRec = h.flt.heldRec := by
  unfold Hub.traceState; (repeat' split) <;> simp
@[simp] theorem Hub.reportFault_flt_recs (h : Hub) (code scope unit src : Nat) (d7 d8 : Word) : (h.reportFault code scope unit src d7 d8).flt.recs = h.flt.recs := by
  unfold Hub.reportFault; simp
@[simp] theorem Hub.reportFault_flt_pend (h : Hub) (code scope unit src : Nat) (d7 d8 : Word) : (h.reportFault code scope unit src d7 d8).flt.pend = h.flt.pend := by
  unfold Hub.reportFault; simp
@[simp] theorem Hub.reportFault_flt_refs (h : Hub) (code scope unit src : Nat) (d7 d8 : Word) : (h.reportFault code scope unit src d7 d8).flt.refs = h.flt.refs := by
  unfold Hub.reportFault; simp
@[simp] theorem Hub.reportFault_flt_upset (h : Hub) (code scope unit src : Nat) (d7 d8 : Word) : (h.reportFault code scope unit src d7 d8).flt.upset = h.flt.upset := by
  unfold Hub.reportFault; simp
@[simp] theorem Hub.reportFault_flt_parity (h : Hub) (code scope unit src : Nat) (d7 d8 : Word) : (h.reportFault code scope unit src d7 d8).flt.parity = h.flt.parity := by
  unfold Hub.reportFault; simp
@[simp] theorem Hub.reportFault_flt_heldRec (h : Hub) (code scope unit src : Nat) (d7 d8 : Word) : (h.reportFault code scope unit src d7 d8).flt.heldRec = h.flt.heldRec := by
  unfold Hub.reportFault; simp
@[simp] theorem Hub.fault_flt_recs (h : Hub) (code unit src : Nat) (d7 d8 : Word) : (h.fault code unit src d7 d8).flt.recs = h.flt.recs := by
  unfold Hub.fault; simp
@[simp] theorem Hub.fault_flt_pend (h : Hub) (code unit src : Nat) (d7 d8 : Word) : (h.fault code unit src d7 d8).flt.pend = h.flt.pend := by
  unfold Hub.fault; simp
@[simp] theorem Hub.fault_flt_refs (h : Hub) (code unit src : Nat) (d7 d8 : Word) : (h.fault code unit src d7 d8).flt.refs = h.flt.refs := by
  unfold Hub.fault; simp
@[simp] theorem Hub.fault_flt_upset (h : Hub) (code unit src : Nat) (d7 d8 : Word) : (h.fault code unit src d7 d8).flt.upset = h.flt.upset := by
  unfold Hub.fault; simp
@[simp] theorem Hub.fault_flt_parity (h : Hub) (code unit src : Nat) (d7 d8 : Word) : (h.fault code unit src d7 d8).flt.parity = h.flt.parity := by
  unfold Hub.fault; simp
@[simp] theorem Hub.fault_flt_heldRec (h : Hub) (code unit src : Nat) (d7 d8 : Word) : (h.fault code unit src d7 d8).flt.heldRec = h.flt.heldRec := by
  unfold Hub.fault; simp

/-! ### `Hub.setLinkState` -/

@[simp] theorem Hub.setLinkState_cells (h : Hub) (p st : Nat) : (h.setLinkState p st).cells = h.cells := by
  unfold Hub.setLinkState; simp
@[simp] theorem Hub.setLinkState_clk (h : Hub) (p st : Nat) : (h.setLinkState p st).clk = h.clk := by
  unfold Hub.setLinkState; simp
@[simp] theorem Hub.setLinkState_ldr (h : Hub) (p st : Nat) : (h.setLinkState p st).ldr = h.ldr := by
  unfold Hub.setLinkState; simp
@[simp] theorem Hub.setLinkState_host (h : Hub) (p st : Nat) : (h.setLinkState p st).host = h.host := by
  unfold Hub.setLinkState; simp
@[simp] theorem Hub.setLinkState_sp (h : Hub) (p st : Nat) : (h.setLinkState p st).sp = h.sp := by
  unfold Hub.setLinkState; simp
@[simp] theorem Hub.setLinkState_tw (h : Hub) (p st : Nat) : (h.setLinkState p st).tw = h.tw := by
  unfold Hub.setLinkState; simp
@[simp] theorem Hub.setLinkState_ingress (h : Hub) (p st : Nat) : (h.setLinkState p st).ingress = h.ingress := by
  unfold Hub.setLinkState; simp
@[simp] theorem Hub.setLinkState_ctx (h : Hub) (p st : Nat) : (h.setLinkState p st).ctx = h.ctx := by
  unfold Hub.setLinkState; simp
@[simp] theorem Hub.setLinkState_stg (h : Hub) (p st : Nat) : (h.setLinkState p st).stg = h.stg := by
  unfold Hub.setLinkState; simp
@[simp] theorem Hub.setLinkState_tile (h : Hub) (p st : Nat) : (h.setLinkState p st).tile = h.tile := by
  unfold Hub.setLinkState; simp
@[simp] theorem Hub.setLinkState_ev (h : Hub) (p st : Nat) : (h.setLinkState p st).ev = h.ev := by
  unfold Hub.setLinkState; simp
@[simp] theorem Hub.setLinkState_evSeen (h : Hub) (p st : Nat) : (h.setLinkState p st).evSeen = h.evSeen := by
  unfold Hub.setLinkState; simp
@[simp] theorem Hub.setLinkState_q (h : Hub) (p st : Nat) : (h.setLinkState p st).q = h.q := by
  unfold Hub.setLinkState; simp
@[simp] theorem Hub.setLinkState_stock (h : Hub) (p st : Nat) : (h.setLinkState p st).stock = h.stock := by
  unfold Hub.setLinkState; simp
@[simp] theorem Hub.setLinkState_stockFill (h : Hub) (p st : Nat) : (h.setLinkState p st).stockFill = h.stockFill := by
  unfold Hub.setLinkState; simp
@[simp] theorem Hub.setLinkState_dbgHeld (h : Hub) (p st : Nat) : (h.setLinkState p st).dbgHeld = h.dbgHeld := by
  unfold Hub.setLinkState; simp
@[simp] theorem Hub.setLinkState_ring (h : Hub) (p st : Nat) : (h.setLinkState p st).ring = h.ring := by
  unfold Hub.setLinkState; simp
@[simp] theorem Hub.setLinkState_tb (h : Hub) (p st : Nat) : (h.setLinkState p st).tb = h.tb := by
  unfold Hub.setLinkState; simp
@[simp] theorem Hub.setLinkState_trig (h : Hub) (p st : Nat) : (h.setLinkState p st).trig = h.trig := by
  unfold Hub.setLinkState; simp
@[simp] theorem Hub.setLinkState_trg (h : Hub) (p st : Nat) : (h.setLinkState p st).trg = h.trg := by
  unfold Hub.setLinkState; simp
@[simp] theorem Hub.setLinkState_tach (h : Hub) (p st : Nat) : (h.setLinkState p st).tach = h.tach := by
  unfold Hub.setLinkState; simp
@[simp] theorem Hub.setLinkState_kt (h : Hub) (p st : Nat) : (h.setLinkState p st).kt = h.kt := by
  unfold Hub.setLinkState; simp
@[simp] theorem Hub.setLinkState_job (h : Hub) (p st : Nat) : (h.setLinkState p st).job = h.job := by
  unfold Hub.setLinkState; simp
@[simp] theorem Hub.setLinkState_spc (h : Hub) (p st : Nat) : (h.setLinkState p st).spc = h.spc := by
  unfold Hub.setLinkState; simp
@[simp] theorem Hub.setLinkState_fea (h : Hub) (p st : Nat) : (h.setLinkState p st).fea = h.fea := by
  unfold Hub.setLinkState; simp
@[simp] theorem Hub.setLinkState_lim (h : Hub) (p st : Nat) : (h.setLinkState p st).lim = h.lim := by
  unfold Hub.setLinkState; simp
@[simp] theorem Hub.setLinkState_link (h : Hub) (p st : Nat) : (h.setLinkState p st).link = h.link := by
  unfold Hub.setLinkState; simp
@[simp] theorem Hub.setLinkState_cas (h : Hub) (p st : Nat) : (h.setLinkState p st).cas = h.cas := by
  unfold Hub.setLinkState; simp
@[simp] theorem Hub.setLinkState_rad (h : Hub) (p st : Nat) : (h.setLinkState p st).rad = h.rad := by
  unfold Hub.setLinkState; simp
@[simp] theorem Hub.setLinkState_hlt (h : Hub) (p st : Nat) : (h.setLinkState p st).hlt = h.hlt := by
  unfold Hub.setLinkState; simp
@[simp] theorem Hub.setLinkState_sup (h : Hub) (p st : Nat) : (h.setLinkState p st).sup = h.sup := by
  unfold Hub.setLinkState; simp
@[simp] theorem Hub.setLinkState_tbMet (h : Hub) (p st : Nat) : (h.setLinkState p st).tbMet = h.tbMet := by
  unfold Hub.setLinkState; simp
@[simp] theorem Hub.setLinkState_metFollows (h : Hub) (p st : Nat) : (h.setLinkState p st).metFollows = h.metFollows := by
  unfold Hub.setLinkState; simp
@[simp] theorem Hub.setLinkState_metFifo (h : Hub) (p st : Nat) : (h.setLinkState p st).metFifo = h.metFifo := by
  unfold Hub.setLinkState; simp
@[simp] theorem Hub.setLinkState_metGap (h : Hub) (p st : Nat) : (h.setLinkState p st).metGap = h.metGap := by
  unfold Hub.setLinkState; simp
@[simp] theorem Hub.setLinkState_cyc (h : Hub) (p st : Nat) : (h.setLinkState p st).cyc = h.cyc := by
  unfold Hub.setLinkState; simp
@[simp] theorem Hub.setLinkState_asleep (h : Hub) (p st : Nat) : (h.setLinkState p st).asleep = h.asleep := by
  unfold Hub.setLinkState; simp
@[simp] theorem Hub.setLinkState_free (h : Hub) (p st : Nat) : (h.setLinkState p st).free = h.free := by
  unfold Hub.setLinkState; simp
@[simp] theorem Hub.setLinkState_cell (h : Hub) (p st : Nat) (i j k : Nat) : (h.setLinkState p st).cell i j k = h.cell i j k := by
  unfold Hub.cell; rw [Hub.setLinkState_cells]
@[simp] theorem Hub.setLinkState_cf (h : Hub) (p st : Nat) (i j k lo len : Nat) : (h.setLinkState p st).cf i j k lo len = h.cf i j k lo len := by
  unfold Hub.cf; rw [Hub.setLinkState_cell]

/-! ### `Hub.release` -/

@[simp] theorem Hub.release_regs (h : Hub) (p cls n : Nat) : (h.release p cls n).regs = h.regs := by
  unfold Hub.release; simp
@[simp] theorem Hub.release_cells (h : Hub) (p cls n : Nat) : (h.release p cls n).cells = h.cells := by
  unfold Hub.release; simp
@[simp] theorem Hub.release_clk (h : Hub) (p cls n : Nat) : (h.release p cls n).clk = h.clk := by
  unfold Hub.release; simp
@[simp] theorem Hub.release_ldr (h : Hub) (p cls n : Nat) : (h.release p cls n).ldr = h.ldr := by
  unfold Hub.release; simp
@[simp] theorem Hub.release_host (h : Hub) (p cls n : Nat) : (h.release p cls n).host = h.host := by
  unfold Hub.release; simp
@[simp] theorem Hub.release_sp (h : Hub) (p cls n : Nat) : (h.release p cls n).sp = h.sp := by
  unfold Hub.release; simp
@[simp] theorem Hub.release_tw (h : Hub) (p cls n : Nat) : (h.release p cls n).tw = h.tw := by
  unfold Hub.release; simp
@[simp] theorem Hub.release_ingress (h : Hub) (p cls n : Nat) : (h.release p cls n).ingress = h.ingress := by
  unfold Hub.release; simp
@[simp] theorem Hub.release_ctx (h : Hub) (p cls n : Nat) : (h.release p cls n).ctx = h.ctx := by
  unfold Hub.release; simp
@[simp] theorem Hub.release_stg (h : Hub) (p cls n : Nat) : (h.release p cls n).stg = h.stg := by
  unfold Hub.release; simp
@[simp] theorem Hub.release_tile (h : Hub) (p cls n : Nat) : (h.release p cls n).tile = h.tile := by
  unfold Hub.release; simp
@[simp] theorem Hub.release_ev (h : Hub) (p cls n : Nat) : (h.release p cls n).ev = h.ev := by
  unfold Hub.release; simp
@[simp] theorem Hub.release_evSeen (h : Hub) (p cls n : Nat) : (h.release p cls n).evSeen = h.evSeen := by
  unfold Hub.release; simp
@[simp] theorem Hub.release_q (h : Hub) (p cls n : Nat) : (h.release p cls n).q = h.q := by
  unfold Hub.release; simp
@[simp] theorem Hub.release_stock (h : Hub) (p cls n : Nat) : (h.release p cls n).stock = h.stock := by
  unfold Hub.release; simp
@[simp] theorem Hub.release_stockFill (h : Hub) (p cls n : Nat) : (h.release p cls n).stockFill = h.stockFill := by
  unfold Hub.release; simp
@[simp] theorem Hub.release_dbgHeld (h : Hub) (p cls n : Nat) : (h.release p cls n).dbgHeld = h.dbgHeld := by
  unfold Hub.release; simp
@[simp] theorem Hub.release_ring (h : Hub) (p cls n : Nat) : (h.release p cls n).ring = h.ring := by
  unfold Hub.release; simp
@[simp] theorem Hub.release_outbox (h : Hub) (p cls n : Nat) : (h.release p cls n).outbox = h.outbox := by
  unfold Hub.release; simp
@[simp] theorem Hub.release_tb (h : Hub) (p cls n : Nat) : (h.release p cls n).tb = h.tb := by
  unfold Hub.release; simp
@[simp] theorem Hub.release_trig (h : Hub) (p cls n : Nat) : (h.release p cls n).trig = h.trig := by
  unfold Hub.release; simp
@[simp] theorem Hub.release_trg (h : Hub) (p cls n : Nat) : (h.release p cls n).trg = h.trg := by
  unfold Hub.release; simp
@[simp] theorem Hub.release_tach (h : Hub) (p cls n : Nat) : (h.release p cls n).tach = h.tach := by
  unfold Hub.release; simp
@[simp] theorem Hub.release_kt (h : Hub) (p cls n : Nat) : (h.release p cls n).kt = h.kt := by
  unfold Hub.release; simp
@[simp] theorem Hub.release_flt (h : Hub) (p cls n : Nat) : (h.release p cls n).flt = h.flt := by
  unfold Hub.release; simp
@[simp] theorem Hub.release_job (h : Hub) (p cls n : Nat) : (h.release p cls n).job = h.job := by
  unfold Hub.release; simp
@[simp] theorem Hub.release_spc (h : Hub) (p cls n : Nat) : (h.release p cls n).spc = h.spc := by
  unfold Hub.release; simp
@[simp] theorem Hub.release_fea (h : Hub) (p cls n : Nat) : (h.release p cls n).fea = h.fea := by
  unfold Hub.release; simp
@[simp] theorem Hub.release_lim (h : Hub) (p cls n : Nat) : (h.release p cls n).lim = h.lim := by
  unfold Hub.release; simp
@[simp] theorem Hub.release_cas (h : Hub) (p cls n : Nat) : (h.release p cls n).cas = h.cas := by
  unfold Hub.release; simp
@[simp] theorem Hub.release_rad (h : Hub) (p cls n : Nat) : (h.release p cls n).rad = h.rad := by
  unfold Hub.release; simp
@[simp] theorem Hub.release_hlt (h : Hub) (p cls n : Nat) : (h.release p cls n).hlt = h.hlt := by
  unfold Hub.release; simp
@[simp] theorem Hub.release_sup (h : Hub) (p cls n : Nat) : (h.release p cls n).sup = h.sup := by
  unfold Hub.release; simp
@[simp] theorem Hub.release_tbMet (h : Hub) (p cls n : Nat) : (h.release p cls n).tbMet = h.tbMet := by
  unfold Hub.release; simp
@[simp] theorem Hub.release_metFollows (h : Hub) (p cls n : Nat) : (h.release p cls n).metFollows = h.metFollows := by
  unfold Hub.release; simp
@[simp] theorem Hub.release_metFifo (h : Hub) (p cls n : Nat) : (h.release p cls n).metFifo = h.metFifo := by
  unfold Hub.release; simp
@[simp] theorem Hub.release_metGap (h : Hub) (p cls n : Nat) : (h.release p cls n).metGap = h.metGap := by
  unfold Hub.release; simp
@[simp] theorem Hub.release_cyc (h : Hub) (p cls n : Nat) : (h.release p cls n).cyc = h.cyc := by
  unfold Hub.release; simp
@[simp] theorem Hub.release_asleep (h : Hub) (p cls n : Nat) : (h.release p cls n).asleep = h.asleep := by
  unfold Hub.release; simp
@[simp] theorem Hub.release_free (h : Hub) (p cls n : Nat) : (h.release p cls n).free = h.free := by
  unfold Hub.release; simp
@[simp] theorem Hub.release_cell (h : Hub) (p cls n : Nat) (i j k : Nat) : (h.release p cls n).cell i j k = h.cell i j k := by
  unfold Hub.cell; rw [Hub.release_cells]
@[simp] theorem Hub.release_cf (h : Hub) (p cls n : Nat) (i j k lo len : Nat) : (h.release p cls n).cf i j k lo len = h.cf i j k lo len := by
  unfold Hub.cf; rw [Hub.release_cell]
@[simp] theorem Hub.release_reg (h : Hub) (p cls n : Nat) (a : Nat) : (h.release p cls n).reg a = h.reg a := by
  unfold Hub.reg; rw [Hub.release_regs]
@[simp] theorem Hub.release_rd (h : Hub) (p cls n : Nat) (f : Fld) : (h.release p cls n).rd f = h.rd f := by
  unfold Hub.rd; rw [Hub.release_reg]
@[simp] theorem Hub.release_is (h : Hub) (p cls n : Nat) (f : Fld) : (h.release p cls n).is f = h.is f := by
  unfold Hub.is; rw [Hub.release_rd]

/-! ### `Hub.queueTx` -/

@[simp] theorem Hub.queueTx_regs (h : Hub) (p : Nat) (t : TxItem) : (h.queueTx p t).regs = h.regs := by
  unfold Hub.queueTx; simp
@[simp] theorem Hub.queueTx_cells (h : Hub) (p : Nat) (t : TxItem) : (h.queueTx p t).cells = h.cells := by
  unfold Hub.queueTx; simp
@[simp] theorem Hub.queueTx_clk (h : Hub) (p : Nat) (t : TxItem) : (h.queueTx p t).clk = h.clk := by
  unfold Hub.queueTx; simp
@[simp] theorem Hub.queueTx_ldr (h : Hub) (p : Nat) (t : TxItem) : (h.queueTx p t).ldr = h.ldr := by
  unfold Hub.queueTx; simp
@[simp] theorem Hub.queueTx_host (h : Hub) (p : Nat) (t : TxItem) : (h.queueTx p t).host = h.host := by
  unfold Hub.queueTx; simp
@[simp] theorem Hub.queueTx_sp (h : Hub) (p : Nat) (t : TxItem) : (h.queueTx p t).sp = h.sp := by
  unfold Hub.queueTx; simp
@[simp] theorem Hub.queueTx_tw (h : Hub) (p : Nat) (t : TxItem) : (h.queueTx p t).tw = h.tw := by
  unfold Hub.queueTx; simp
@[simp] theorem Hub.queueTx_ingress (h : Hub) (p : Nat) (t : TxItem) : (h.queueTx p t).ingress = h.ingress := by
  unfold Hub.queueTx; simp
@[simp] theorem Hub.queueTx_ctx (h : Hub) (p : Nat) (t : TxItem) : (h.queueTx p t).ctx = h.ctx := by
  unfold Hub.queueTx; simp
@[simp] theorem Hub.queueTx_stg (h : Hub) (p : Nat) (t : TxItem) : (h.queueTx p t).stg = h.stg := by
  unfold Hub.queueTx; simp
@[simp] theorem Hub.queueTx_tile (h : Hub) (p : Nat) (t : TxItem) : (h.queueTx p t).tile = h.tile := by
  unfold Hub.queueTx; simp
@[simp] theorem Hub.queueTx_ev (h : Hub) (p : Nat) (t : TxItem) : (h.queueTx p t).ev = h.ev := by
  unfold Hub.queueTx; simp
@[simp] theorem Hub.queueTx_evSeen (h : Hub) (p : Nat) (t : TxItem) : (h.queueTx p t).evSeen = h.evSeen := by
  unfold Hub.queueTx; simp
@[simp] theorem Hub.queueTx_q (h : Hub) (p : Nat) (t : TxItem) : (h.queueTx p t).q = h.q := by
  unfold Hub.queueTx; simp
@[simp] theorem Hub.queueTx_stock (h : Hub) (p : Nat) (t : TxItem) : (h.queueTx p t).stock = h.stock := by
  unfold Hub.queueTx; simp
@[simp] theorem Hub.queueTx_stockFill (h : Hub) (p : Nat) (t : TxItem) : (h.queueTx p t).stockFill = h.stockFill := by
  unfold Hub.queueTx; simp
@[simp] theorem Hub.queueTx_dbgHeld (h : Hub) (p : Nat) (t : TxItem) : (h.queueTx p t).dbgHeld = h.dbgHeld := by
  unfold Hub.queueTx; simp
@[simp] theorem Hub.queueTx_ring (h : Hub) (p : Nat) (t : TxItem) : (h.queueTx p t).ring = h.ring := by
  unfold Hub.queueTx; simp
@[simp] theorem Hub.queueTx_outbox (h : Hub) (p : Nat) (t : TxItem) : (h.queueTx p t).outbox = h.outbox := by
  unfold Hub.queueTx; simp
@[simp] theorem Hub.queueTx_tb (h : Hub) (p : Nat) (t : TxItem) : (h.queueTx p t).tb = h.tb := by
  unfold Hub.queueTx; simp
@[simp] theorem Hub.queueTx_trig (h : Hub) (p : Nat) (t : TxItem) : (h.queueTx p t).trig = h.trig := by
  unfold Hub.queueTx; simp
@[simp] theorem Hub.queueTx_trg (h : Hub) (p : Nat) (t : TxItem) : (h.queueTx p t).trg = h.trg := by
  unfold Hub.queueTx; simp
@[simp] theorem Hub.queueTx_tach (h : Hub) (p : Nat) (t : TxItem) : (h.queueTx p t).tach = h.tach := by
  unfold Hub.queueTx; simp
@[simp] theorem Hub.queueTx_kt (h : Hub) (p : Nat) (t : TxItem) : (h.queueTx p t).kt = h.kt := by
  unfold Hub.queueTx; simp
@[simp] theorem Hub.queueTx_flt (h : Hub) (p : Nat) (t : TxItem) : (h.queueTx p t).flt = h.flt := by
  unfold Hub.queueTx; simp
@[simp] theorem Hub.queueTx_job (h : Hub) (p : Nat) (t : TxItem) : (h.queueTx p t).job = h.job := by
  unfold Hub.queueTx; simp
@[simp] theorem Hub.queueTx_spc (h : Hub) (p : Nat) (t : TxItem) : (h.queueTx p t).spc = h.spc := by
  unfold Hub.queueTx; simp
@[simp] theorem Hub.queueTx_fea (h : Hub) (p : Nat) (t : TxItem) : (h.queueTx p t).fea = h.fea := by
  unfold Hub.queueTx; simp
@[simp] theorem Hub.queueTx_lim (h : Hub) (p : Nat) (t : TxItem) : (h.queueTx p t).lim = h.lim := by
  unfold Hub.queueTx; simp
@[simp] theorem Hub.queueTx_cas (h : Hub) (p : Nat) (t : TxItem) : (h.queueTx p t).cas = h.cas := by
  unfold Hub.queueTx; simp
@[simp] theorem Hub.queueTx_rad (h : Hub) (p : Nat) (t : TxItem) : (h.queueTx p t).rad = h.rad := by
  unfold Hub.queueTx; simp
@[simp] theorem Hub.queueTx_hlt (h : Hub) (p : Nat) (t : TxItem) : (h.queueTx p t).hlt = h.hlt := by
  unfold Hub.queueTx; simp
@[simp] theorem Hub.queueTx_sup (h : Hub) (p : Nat) (t : TxItem) : (h.queueTx p t).sup = h.sup := by
  unfold Hub.queueTx; simp
@[simp] theorem Hub.queueTx_tbMet (h : Hub) (p : Nat) (t : TxItem) : (h.queueTx p t).tbMet = h.tbMet := by
  unfold Hub.queueTx; simp
@[simp] theorem Hub.queueTx_metFollows (h : Hub) (p : Nat) (t : TxItem) : (h.queueTx p t).metFollows = h.metFollows := by
  unfold Hub.queueTx; simp
@[simp] theorem Hub.queueTx_metFifo (h : Hub) (p : Nat) (t : TxItem) : (h.queueTx p t).metFifo = h.metFifo := by
  unfold Hub.queueTx; simp
@[simp] theorem Hub.queueTx_metGap (h : Hub) (p : Nat) (t : TxItem) : (h.queueTx p t).metGap = h.metGap := by
  unfold Hub.queueTx; simp
@[simp] theorem Hub.queueTx_cyc (h : Hub) (p : Nat) (t : TxItem) : (h.queueTx p t).cyc = h.cyc := by
  unfold Hub.queueTx; simp
@[simp] theorem Hub.queueTx_asleep (h : Hub) (p : Nat) (t : TxItem) : (h.queueTx p t).asleep = h.asleep := by
  unfold Hub.queueTx; simp
@[simp] theorem Hub.queueTx_free (h : Hub) (p : Nat) (t : TxItem) : (h.queueTx p t).free = h.free := by
  unfold Hub.queueTx; simp
@[simp] theorem Hub.queueTx_cell (h : Hub) (p : Nat) (t : TxItem) (i j k : Nat) : (h.queueTx p t).cell i j k = h.cell i j k := by
  unfold Hub.cell; rw [Hub.queueTx_cells]
@[simp] theorem Hub.queueTx_cf (h : Hub) (p : Nat) (t : TxItem) (i j k lo len : Nat) : (h.queueTx p t).cf i j k lo len = h.cf i j k lo len := by
  unfold Hub.cf; rw [Hub.queueTx_cell]
@[simp] theorem Hub.queueTx_reg (h : Hub) (p : Nat) (t : TxItem) (a : Nat) : (h.queueTx p t).reg a = h.reg a := by
  unfold Hub.reg; rw [Hub.queueTx_regs]
@[simp] theorem Hub.queueTx_rd (h : Hub) (p : Nat) (t : TxItem) (f : Fld) : (h.queueTx p t).rd f = h.rd f := by
  unfold Hub.rd; rw [Hub.queueTx_reg]
@[simp] theorem Hub.queueTx_is (h : Hub) (p : Nat) (t : TxItem) (f : Fld) : (h.queueTx p t).is f = h.is f := by
  unfold Hub.is; rw [Hub.queueTx_rd]

/-! ### `Hub.sendCtrl` -/

@[simp] theorem Hub.sendCtrl_regs (h : Hub) (p sub dst : Nat) (ws : List Word) : (h.sendCtrl p sub dst ws).regs = h.regs := by
  unfold Hub.sendCtrl; simp
@[simp] theorem Hub.sendCtrl_cells (h : Hub) (p sub dst : Nat) (ws : List Word) : (h.sendCtrl p sub dst ws).cells = h.cells := by
  unfold Hub.sendCtrl; simp
@[simp] theorem Hub.sendCtrl_clk (h : Hub) (p sub dst : Nat) (ws : List Word) : (h.sendCtrl p sub dst ws).clk = h.clk := by
  unfold Hub.sendCtrl; simp
@[simp] theorem Hub.sendCtrl_ldr (h : Hub) (p sub dst : Nat) (ws : List Word) : (h.sendCtrl p sub dst ws).ldr = h.ldr := by
  unfold Hub.sendCtrl; simp
@[simp] theorem Hub.sendCtrl_host (h : Hub) (p sub dst : Nat) (ws : List Word) : (h.sendCtrl p sub dst ws).host = h.host := by
  unfold Hub.sendCtrl; simp
@[simp] theorem Hub.sendCtrl_sp (h : Hub) (p sub dst : Nat) (ws : List Word) : (h.sendCtrl p sub dst ws).sp = h.sp := by
  unfold Hub.sendCtrl; simp
@[simp] theorem Hub.sendCtrl_tw (h : Hub) (p sub dst : Nat) (ws : List Word) : (h.sendCtrl p sub dst ws).tw = h.tw := by
  unfold Hub.sendCtrl; simp
@[simp] theorem Hub.sendCtrl_ingress (h : Hub) (p sub dst : Nat) (ws : List Word) : (h.sendCtrl p sub dst ws).ingress = h.ingress := by
  unfold Hub.sendCtrl; simp
@[simp] theorem Hub.sendCtrl_ctx (h : Hub) (p sub dst : Nat) (ws : List Word) : (h.sendCtrl p sub dst ws).ctx = h.ctx := by
  unfold Hub.sendCtrl; simp
@[simp] theorem Hub.sendCtrl_stg (h : Hub) (p sub dst : Nat) (ws : List Word) : (h.sendCtrl p sub dst ws).stg = h.stg := by
  unfold Hub.sendCtrl; simp
@[simp] theorem Hub.sendCtrl_tile (h : Hub) (p sub dst : Nat) (ws : List Word) : (h.sendCtrl p sub dst ws).tile = h.tile := by
  unfold Hub.sendCtrl; simp
@[simp] theorem Hub.sendCtrl_ev (h : Hub) (p sub dst : Nat) (ws : List Word) : (h.sendCtrl p sub dst ws).ev = h.ev := by
  unfold Hub.sendCtrl; simp
@[simp] theorem Hub.sendCtrl_evSeen (h : Hub) (p sub dst : Nat) (ws : List Word) : (h.sendCtrl p sub dst ws).evSeen = h.evSeen := by
  unfold Hub.sendCtrl; simp
@[simp] theorem Hub.sendCtrl_q (h : Hub) (p sub dst : Nat) (ws : List Word) : (h.sendCtrl p sub dst ws).q = h.q := by
  unfold Hub.sendCtrl; simp
@[simp] theorem Hub.sendCtrl_stock (h : Hub) (p sub dst : Nat) (ws : List Word) : (h.sendCtrl p sub dst ws).stock = h.stock := by
  unfold Hub.sendCtrl; simp
@[simp] theorem Hub.sendCtrl_stockFill (h : Hub) (p sub dst : Nat) (ws : List Word) : (h.sendCtrl p sub dst ws).stockFill = h.stockFill := by
  unfold Hub.sendCtrl; simp
@[simp] theorem Hub.sendCtrl_dbgHeld (h : Hub) (p sub dst : Nat) (ws : List Word) : (h.sendCtrl p sub dst ws).dbgHeld = h.dbgHeld := by
  unfold Hub.sendCtrl; simp
@[simp] theorem Hub.sendCtrl_ring (h : Hub) (p sub dst : Nat) (ws : List Word) : (h.sendCtrl p sub dst ws).ring = h.ring := by
  unfold Hub.sendCtrl; simp
@[simp] theorem Hub.sendCtrl_outbox (h : Hub) (p sub dst : Nat) (ws : List Word) : (h.sendCtrl p sub dst ws).outbox = h.outbox := by
  unfold Hub.sendCtrl; simp
@[simp] theorem Hub.sendCtrl_tb (h : Hub) (p sub dst : Nat) (ws : List Word) : (h.sendCtrl p sub dst ws).tb = h.tb := by
  unfold Hub.sendCtrl; simp
@[simp] theorem Hub.sendCtrl_trig (h : Hub) (p sub dst : Nat) (ws : List Word) : (h.sendCtrl p sub dst ws).trig = h.trig := by
  unfold Hub.sendCtrl; simp
@[simp] theorem Hub.sendCtrl_trg (h : Hub) (p sub dst : Nat) (ws : List Word) : (h.sendCtrl p sub dst ws).trg = h.trg := by
  unfold Hub.sendCtrl; simp
@[simp] theorem Hub.sendCtrl_tach (h : Hub) (p sub dst : Nat) (ws : List Word) : (h.sendCtrl p sub dst ws).tach = h.tach := by
  unfold Hub.sendCtrl; simp
@[simp] theorem Hub.sendCtrl_kt (h : Hub) (p sub dst : Nat) (ws : List Word) : (h.sendCtrl p sub dst ws).kt = h.kt := by
  unfold Hub.sendCtrl; simp
@[simp] theorem Hub.sendCtrl_flt (h : Hub) (p sub dst : Nat) (ws : List Word) : (h.sendCtrl p sub dst ws).flt = h.flt := by
  unfold Hub.sendCtrl; simp
@[simp] theorem Hub.sendCtrl_job (h : Hub) (p sub dst : Nat) (ws : List Word) : (h.sendCtrl p sub dst ws).job = h.job := by
  unfold Hub.sendCtrl; simp
@[simp] theorem Hub.sendCtrl_spc (h : Hub) (p sub dst : Nat) (ws : List Word) : (h.sendCtrl p sub dst ws).spc = h.spc := by
  unfold Hub.sendCtrl; simp
@[simp] theorem Hub.sendCtrl_fea (h : Hub) (p sub dst : Nat) (ws : List Word) : (h.sendCtrl p sub dst ws).fea = h.fea := by
  unfold Hub.sendCtrl; simp
@[simp] theorem Hub.sendCtrl_lim (h : Hub) (p sub dst : Nat) (ws : List Word) : (h.sendCtrl p sub dst ws).lim = h.lim := by
  unfold Hub.sendCtrl; simp
@[simp] theorem Hub.sendCtrl_cas (h : Hub) (p sub dst : Nat) (ws : List Word) : (h.sendCtrl p sub dst ws).cas = h.cas := by
  unfold Hub.sendCtrl; simp
@[simp] theorem Hub.sendCtrl_rad (h : Hub) (p sub dst : Nat) (ws : List Word) : (h.sendCtrl p sub dst ws).rad = h.rad := by
  unfold Hub.sendCtrl; simp
@[simp] theorem Hub.sendCtrl_hlt (h : Hub) (p sub dst : Nat) (ws : List Word) : (h.sendCtrl p sub dst ws).hlt = h.hlt := by
  unfold Hub.sendCtrl; simp
@[simp] theorem Hub.sendCtrl_sup (h : Hub) (p sub dst : Nat) (ws : List Word) : (h.sendCtrl p sub dst ws).sup = h.sup := by
  unfold Hub.sendCtrl; simp
@[simp] theorem Hub.sendCtrl_tbMet (h : Hub) (p sub dst : Nat) (ws : List Word) : (h.sendCtrl p sub dst ws).tbMet = h.tbMet := by
  unfold Hub.sendCtrl; simp
@[simp] theorem Hub.sendCtrl_metFollows (h : Hub) (p sub dst : Nat) (ws : List Word) : (h.sendCtrl p sub dst ws).metFollows = h.metFollows := by
  unfold Hub.sendCtrl; simp
@[simp] theorem Hub.sendCtrl_metFifo (h : Hub) (p sub dst : Nat) (ws : List Word) : (h.sendCtrl p sub dst ws).metFifo = h.metFifo := by
  unfold Hub.sendCtrl; simp
@[simp] theorem Hub.sendCtrl_metGap (h : Hub) (p sub dst : Nat) (ws : List Word) : (h.sendCtrl p sub dst ws).metGap = h.metGap := by
  unfold Hub.sendCtrl; simp
@[simp] theorem Hub.sendCtrl_cyc (h : Hub) (p sub dst : Nat) (ws : List Word) : (h.sendCtrl p sub dst ws).cyc = h.cyc := by
  unfold Hub.sendCtrl; simp
@[simp] theorem Hub.sendCtrl_asleep (h : Hub) (p sub dst : Nat) (ws : List Word) : (h.sendCtrl p sub dst ws).asleep = h.asleep := by
  unfold Hub.sendCtrl; simp
@[simp] theorem Hub.sendCtrl_free (h : Hub) (p sub dst : Nat) (ws : List Word) : (h.sendCtrl p sub dst ws).free = h.free := by
  unfold Hub.sendCtrl; simp
@[simp] theorem Hub.sendCtrl_cell (h : Hub) (p sub dst : Nat) (ws : List Word) (i j k : Nat) : (h.sendCtrl p sub dst ws).cell i j k = h.cell i j k := by
  unfold Hub.cell; rw [Hub.sendCtrl_cells]
@[simp] theorem Hub.sendCtrl_cf (h : Hub) (p sub dst : Nat) (ws : List Word) (i j k lo len : Nat) : (h.sendCtrl p sub dst ws).cf i j k lo len = h.cf i j k lo len := by
  unfold Hub.cf; rw [Hub.sendCtrl_cell]
@[simp] theorem Hub.sendCtrl_reg (h : Hub) (p sub dst : Nat) (ws : List Word) (a : Nat) : (h.sendCtrl p sub dst ws).reg a = h.reg a := by
  unfold Hub.reg; rw [Hub.sendCtrl_regs]
@[simp] theorem Hub.sendCtrl_rd (h : Hub) (p sub dst : Nat) (ws : List Word) (f : Fld) : (h.sendCtrl p sub dst ws).rd f = h.rd f := by
  unfold Hub.rd; rw [Hub.sendCtrl_reg]
@[simp] theorem Hub.sendCtrl_is (h : Hub) (p sub dst : Nat) (ws : List Word) (f : Fld) : (h.sendCtrl p sub dst ws).is f = h.is f := by
  unfold Hub.is; rw [Hub.sendCtrl_rd]

/-! ### `Hub.bcastCtrl` -/

@[simp] theorem Hub.bcastCtrl_regs (h : Hub) (sub : Nat) (ws : List Word) : (h.bcastCtrl sub ws).regs = h.regs := by
  unfold Hub.bcastCtrl; exact foldl_keep _ _ (fun _ _ => by split <;> simp) _ _
@[simp] theorem Hub.bcastCtrl_cells (h : Hub) (sub : Nat) (ws : List Word) : (h.bcastCtrl sub ws).cells = h.cells := by
  unfold Hub.bcastCtrl; exact foldl_keep _ _ (fun _ _ => by split <;> simp) _ _
@[simp] theorem Hub.bcastCtrl_clk (h : Hub) (sub : Nat) (ws : List Word) : (h.bcastCtrl sub ws).clk = h.clk := by
  unfold Hub.bcastCtrl; exact foldl_keep _ _ (fun _ _ => by split <;> simp) _ _
@[simp] theorem Hub.bcastCtrl_ldr (h : Hub) (sub : Nat) (ws : List Word) : (h.bcastCtrl sub ws).ldr = h.ldr := by
  unfold Hub.bcastCtrl; exact foldl_keep _ _ (fun _ _ => by split <;> simp) _ _
@[simp] theorem Hub.bcastCtrl_host (h : Hub) (sub : Nat) (ws : List Word) : (h.bcastCtrl sub ws).host = h.host := by
  unfold Hub.bcastCtrl; exact foldl_keep _ _ (fun _ _ => by split <;> simp) _ _
@[simp] theorem Hub.bcastCtrl_sp (h : Hub) (sub : Nat) (ws : List Word) : (h.bcastCtrl sub ws).sp = h.sp := by
  unfold Hub.bcastCtrl; exact foldl_keep _ _ (fun _ _ => by split <;> simp) _ _
@[simp] theorem Hub.bcastCtrl_tw (h : Hub) (sub : Nat) (ws : List Word) : (h.bcastCtrl sub ws).tw = h.tw := by
  unfold Hub.bcastCtrl; exact foldl_keep _ _ (fun _ _ => by split <;> simp) _ _
@[simp] theorem Hub.bcastCtrl_ingress (h : Hub) (sub : Nat) (ws : List Word) : (h.bcastCtrl sub ws).ingress = h.ingress := by
  unfold Hub.bcastCtrl; exact foldl_keep _ _ (fun _ _ => by split <;> simp) _ _
@[simp] theorem Hub.bcastCtrl_ctx (h : Hub) (sub : Nat) (ws : List Word) : (h.bcastCtrl sub ws).ctx = h.ctx := by
  unfold Hub.bcastCtrl; exact foldl_keep _ _ (fun _ _ => by split <;> simp) _ _
@[simp] theorem Hub.bcastCtrl_stg (h : Hub) (sub : Nat) (ws : List Word) : (h.bcastCtrl sub ws).stg = h.stg := by
  unfold Hub.bcastCtrl; exact foldl_keep _ _ (fun _ _ => by split <;> simp) _ _
@[simp] theorem Hub.bcastCtrl_tile (h : Hub) (sub : Nat) (ws : List Word) : (h.bcastCtrl sub ws).tile = h.tile := by
  unfold Hub.bcastCtrl; exact foldl_keep _ _ (fun _ _ => by split <;> simp) _ _
@[simp] theorem Hub.bcastCtrl_ev (h : Hub) (sub : Nat) (ws : List Word) : (h.bcastCtrl sub ws).ev = h.ev := by
  unfold Hub.bcastCtrl; exact foldl_keep _ _ (fun _ _ => by split <;> simp) _ _
@[simp] theorem Hub.bcastCtrl_evSeen (h : Hub) (sub : Nat) (ws : List Word) : (h.bcastCtrl sub ws).evSeen = h.evSeen := by
  unfold Hub.bcastCtrl; exact foldl_keep _ _ (fun _ _ => by split <;> simp) _ _
@[simp] theorem Hub.bcastCtrl_q (h : Hub) (sub : Nat) (ws : List Word) : (h.bcastCtrl sub ws).q = h.q := by
  unfold Hub.bcastCtrl; exact foldl_keep _ _ (fun _ _ => by split <;> simp) _ _
@[simp] theorem Hub.bcastCtrl_stock (h : Hub) (sub : Nat) (ws : List Word) : (h.bcastCtrl sub ws).stock = h.stock := by
  unfold Hub.bcastCtrl; exact foldl_keep _ _ (fun _ _ => by split <;> simp) _ _
@[simp] theorem Hub.bcastCtrl_stockFill (h : Hub) (sub : Nat) (ws : List Word) : (h.bcastCtrl sub ws).stockFill = h.stockFill := by
  unfold Hub.bcastCtrl; exact foldl_keep _ _ (fun _ _ => by split <;> simp) _ _
@[simp] theorem Hub.bcastCtrl_dbgHeld (h : Hub) (sub : Nat) (ws : List Word) : (h.bcastCtrl sub ws).dbgHeld = h.dbgHeld := by
  unfold Hub.bcastCtrl; exact foldl_keep _ _ (fun _ _ => by split <;> simp) _ _
@[simp] theorem Hub.bcastCtrl_ring (h : Hub) (sub : Nat) (ws : List Word) : (h.bcastCtrl sub ws).ring = h.ring := by
  unfold Hub.bcastCtrl; exact foldl_keep _ _ (fun _ _ => by split <;> simp) _ _
@[simp] theorem Hub.bcastCtrl_outbox (h : Hub) (sub : Nat) (ws : List Word) : (h.bcastCtrl sub ws).outbox = h.outbox := by
  unfold Hub.bcastCtrl; exact foldl_keep _ _ (fun _ _ => by split <;> simp) _ _
@[simp] theorem Hub.bcastCtrl_tb (h : Hub) (sub : Nat) (ws : List Word) : (h.bcastCtrl sub ws).tb = h.tb := by
  unfold Hub.bcastCtrl; exact foldl_keep _ _ (fun _ _ => by split <;> simp) _ _
@[simp] theorem Hub.bcastCtrl_trig (h : Hub) (sub : Nat) (ws : List Word) : (h.bcastCtrl sub ws).trig = h.trig := by
  unfold Hub.bcastCtrl; exact foldl_keep _ _ (fun _ _ => by split <;> simp) _ _
@[simp] theorem Hub.bcastCtrl_trg (h : Hub) (sub : Nat) (ws : List Word) : (h.bcastCtrl sub ws).trg = h.trg := by
  unfold Hub.bcastCtrl; exact foldl_keep _ _ (fun _ _ => by split <;> simp) _ _
@[simp] theorem Hub.bcastCtrl_tach (h : Hub) (sub : Nat) (ws : List Word) : (h.bcastCtrl sub ws).tach = h.tach := by
  unfold Hub.bcastCtrl; exact foldl_keep _ _ (fun _ _ => by split <;> simp) _ _
@[simp] theorem Hub.bcastCtrl_kt (h : Hub) (sub : Nat) (ws : List Word) : (h.bcastCtrl sub ws).kt = h.kt := by
  unfold Hub.bcastCtrl; exact foldl_keep _ _ (fun _ _ => by split <;> simp) _ _
@[simp] theorem Hub.bcastCtrl_flt (h : Hub) (sub : Nat) (ws : List Word) : (h.bcastCtrl sub ws).flt = h.flt := by
  unfold Hub.bcastCtrl; exact foldl_keep _ _ (fun _ _ => by split <;> simp) _ _
@[simp] theorem Hub.bcastCtrl_job (h : Hub) (sub : Nat) (ws : List Word) : (h.bcastCtrl sub ws).job = h.job := by
  unfold Hub.bcastCtrl; exact foldl_keep _ _ (fun _ _ => by split <;> simp) _ _
@[simp] theorem Hub.bcastCtrl_spc (h : Hub) (sub : Nat) (ws : List Word) : (h.bcastCtrl sub ws).spc = h.spc := by
  unfold Hub.bcastCtrl; exact foldl_keep _ _ (fun _ _ => by split <;> simp) _ _
@[simp] theorem Hub.bcastCtrl_fea (h : Hub) (sub : Nat) (ws : List Word) : (h.bcastCtrl sub ws).fea = h.fea := by
  unfold Hub.bcastCtrl; exact foldl_keep _ _ (fun _ _ => by split <;> simp) _ _
@[simp] theorem Hub.bcastCtrl_lim (h : Hub) (sub : Nat) (ws : List Word) : (h.bcastCtrl sub ws).lim = h.lim := by
  unfold Hub.bcastCtrl; exact foldl_keep _ _ (fun _ _ => by split <;> simp) _ _
@[simp] theorem Hub.bcastCtrl_cas (h : Hub) (sub : Nat) (ws : List Word) : (h.bcastCtrl sub ws).cas = h.cas := by
  unfold Hub.bcastCtrl; exact foldl_keep _ _ (fun _ _ => by split <;> simp) _ _
@[simp] theorem Hub.bcastCtrl_rad (h : Hub) (sub : Nat) (ws : List Word) : (h.bcastCtrl sub ws).rad = h.rad := by
  unfold Hub.bcastCtrl; exact foldl_keep _ _ (fun _ _ => by split <;> simp) _ _
@[simp] theorem Hub.bcastCtrl_hlt (h : Hub) (sub : Nat) (ws : List Word) : (h.bcastCtrl sub ws).hlt = h.hlt := by
  unfold Hub.bcastCtrl; exact foldl_keep _ _ (fun _ _ => by split <;> simp) _ _
@[simp] theorem Hub.bcastCtrl_sup (h : Hub) (sub : Nat) (ws : List Word) : (h.bcastCtrl sub ws).sup = h.sup := by
  unfold Hub.bcastCtrl; exact foldl_keep _ _ (fun _ _ => by split <;> simp) _ _
@[simp] theorem Hub.bcastCtrl_tbMet (h : Hub) (sub : Nat) (ws : List Word) : (h.bcastCtrl sub ws).tbMet = h.tbMet := by
  unfold Hub.bcastCtrl; exact foldl_keep _ _ (fun _ _ => by split <;> simp) _ _
@[simp] theorem Hub.bcastCtrl_metFollows (h : Hub) (sub : Nat) (ws : List Word) : (h.bcastCtrl sub ws).metFollows = h.metFollows := by
  unfold Hub.bcastCtrl; exact foldl_keep _ _ (fun _ _ => by split <;> simp) _ _
@[simp] theorem Hub.bcastCtrl_metFifo (h : Hub) (sub : Nat) (ws : List Word) : (h.bcastCtrl sub ws).metFifo = h.metFifo := by
  unfold Hub.bcastCtrl; exact foldl_keep _ _ (fun _ _ => by split <;> simp) _ _
@[simp] theorem Hub.bcastCtrl_metGap (h : Hub) (sub : Nat) (ws : List Word) : (h.bcastCtrl sub ws).metGap = h.metGap := by
  unfold Hub.bcastCtrl; exact foldl_keep _ _ (fun _ _ => by split <;> simp) _ _
@[simp] theorem Hub.bcastCtrl_cyc (h : Hub) (sub : Nat) (ws : List Word) : (h.bcastCtrl sub ws).cyc = h.cyc := by
  unfold Hub.bcastCtrl; exact foldl_keep _ _ (fun _ _ => by split <;> simp) _ _
@[simp] theorem Hub.bcastCtrl_asleep (h : Hub) (sub : Nat) (ws : List Word) : (h.bcastCtrl sub ws).asleep = h.asleep := by
  unfold Hub.bcastCtrl; exact foldl_keep _ _ (fun _ _ => by split <;> simp) _ _
@[simp] theorem Hub.bcastCtrl_free (h : Hub) (sub : Nat) (ws : List Word) : (h.bcastCtrl sub ws).free = h.free := by
  unfold Hub.bcastCtrl; exact foldl_keep _ _ (fun _ _ => by split <;> simp) _ _
@[simp] theorem Hub.bcastCtrl_cell (h : Hub) (sub : Nat) (ws : List Word) (i j k : Nat) : (h.bcastCtrl sub ws).cell i j k = h.cell i j k := by
  unfold Hub.cell; rw [Hub.bcastCtrl_cells]
@[simp] theorem Hub.bcastCtrl_cf (h : Hub) (sub : Nat) (ws : List Word) (i j k lo len : Nat) : (h.bcastCtrl sub ws).cf i j k lo len = h.cf i j k lo len := by
  unfold Hub.cf; rw [Hub.bcastCtrl_cell]
@[simp] theorem Hub.bcastCtrl_reg (h : Hub) (sub : Nat) (ws : List Word) (a : Nat) : (h.bcastCtrl sub ws).reg a = h.reg a := by
  unfold Hub.reg; rw [Hub.bcastCtrl_regs]
@[simp] theorem Hub.bcastCtrl_rd (h : Hub) (sub : Nat) (ws : List Word) (f : Fld) : (h.bcastCtrl sub ws).rd f = h.rd f := by
  unfold Hub.rd; rw [Hub.bcastCtrl_reg]
@[simp] theorem Hub.bcastCtrl_is (h : Hub) (sub : Nat) (ws : List Word) (f : Fld) : (h.bcastCtrl sub ws).is f = h.is f := by
  unfold Hub.is; rw [Hub.bcastCtrl_rd]

/-! ### `Hub.notifyUp` -/

@[simp] theorem Hub.notifyUp_regs (h : Hub) (code sect idx : Nat) : (h.notifyUp code sect idx).regs = h.regs := by
  unfold Hub.notifyUp; (repeat' split) <;> simp
@[simp] theorem Hub.notifyUp_cells (h : Hub) (code sect idx : Nat) : (h.notifyUp code sect idx).cells = h.cells := by
  unfold Hub.notifyUp; (repeat' split) <;> simp
@[simp] theorem Hub.notifyUp_clk (h : Hub) (code sect idx : Nat) : (h.notifyUp code sect idx).clk = h.clk := by
  unfold Hub.notifyUp; (repeat' split) <;> simp
@[simp] theorem Hub.notifyUp_ldr (h : Hub) (code sect idx : Nat) : (h.notifyUp code sect idx).ldr = h.ldr := by
  unfold Hub.notifyUp; (repeat' split) <;> simp
@[simp] theorem Hub.notifyUp_host (h : Hub) (code sect idx : Nat) : (h.notifyUp code sect idx).host = h.host := by
  unfold Hub.notifyUp; (repeat' split) <;> simp
@[simp] theorem Hub.notifyUp_sp (h : Hub) (code sect idx : Nat) : (h.notifyUp code sect idx).sp = h.sp := by
  unfold Hub.notifyUp; (repeat' split) <;> simp
@[simp] theorem Hub.notifyUp_tw (h : Hub) (code sect idx : Nat) : (h.notifyUp code sect idx).tw = h.tw := by
  unfold Hub.notifyUp; (repeat' split) <;> simp
@[simp] theorem Hub.notifyUp_ingress (h : Hub) (code sect idx : Nat) : (h.notifyUp code sect idx).ingress = h.ingress := by
  unfold Hub.notifyUp; (repeat' split) <;> simp
@[simp] theorem Hub.notifyUp_ctx (h : Hub) (code sect idx : Nat) : (h.notifyUp code sect idx).ctx = h.ctx := by
  unfold Hub.notifyUp; (repeat' split) <;> simp
@[simp] theorem Hub.notifyUp_stg (h : Hub) (code sect idx : Nat) : (h.notifyUp code sect idx).stg = h.stg := by
  unfold Hub.notifyUp; (repeat' split) <;> simp
@[simp] theorem Hub.notifyUp_tile (h : Hub) (code sect idx : Nat) : (h.notifyUp code sect idx).tile = h.tile := by
  unfold Hub.notifyUp; (repeat' split) <;> simp
@[simp] theorem Hub.notifyUp_ev (h : Hub) (code sect idx : Nat) : (h.notifyUp code sect idx).ev = h.ev := by
  unfold Hub.notifyUp; (repeat' split) <;> simp
@[simp] theorem Hub.notifyUp_evSeen (h : Hub) (code sect idx : Nat) : (h.notifyUp code sect idx).evSeen = h.evSeen := by
  unfold Hub.notifyUp; (repeat' split) <;> simp
@[simp] theorem Hub.notifyUp_q (h : Hub) (code sect idx : Nat) : (h.notifyUp code sect idx).q = h.q := by
  unfold Hub.notifyUp; (repeat' split) <;> simp
@[simp] theorem Hub.notifyUp_stock (h : Hub) (code sect idx : Nat) : (h.notifyUp code sect idx).stock = h.stock := by
  unfold Hub.notifyUp; (repeat' split) <;> simp
@[simp] theorem Hub.notifyUp_stockFill (h : Hub) (code sect idx : Nat) : (h.notifyUp code sect idx).stockFill = h.stockFill := by
  unfold Hub.notifyUp; (repeat' split) <;> simp
@[simp] theorem Hub.notifyUp_dbgHeld (h : Hub) (code sect idx : Nat) : (h.notifyUp code sect idx).dbgHeld = h.dbgHeld := by
  unfold Hub.notifyUp; (repeat' split) <;> simp
@[simp] theorem Hub.notifyUp_ring (h : Hub) (code sect idx : Nat) : (h.notifyUp code sect idx).ring = h.ring := by
  unfold Hub.notifyUp; (repeat' split) <;> simp
@[simp] theorem Hub.notifyUp_outbox (h : Hub) (code sect idx : Nat) : (h.notifyUp code sect idx).outbox = h.outbox := by
  unfold Hub.notifyUp; (repeat' split) <;> simp
@[simp] theorem Hub.notifyUp_tb (h : Hub) (code sect idx : Nat) : (h.notifyUp code sect idx).tb = h.tb := by
  unfold Hub.notifyUp; (repeat' split) <;> simp
@[simp] theorem Hub.notifyUp_trig (h : Hub) (code sect idx : Nat) : (h.notifyUp code sect idx).trig = h.trig := by
  unfold Hub.notifyUp; (repeat' split) <;> simp
@[simp] theorem Hub.notifyUp_trg (h : Hub) (code sect idx : Nat) : (h.notifyUp code sect idx).trg = h.trg := by
  unfold Hub.notifyUp; (repeat' split) <;> simp
@[simp] theorem Hub.notifyUp_tach (h : Hub) (code sect idx : Nat) : (h.notifyUp code sect idx).tach = h.tach := by
  unfold Hub.notifyUp; (repeat' split) <;> simp
@[simp] theorem Hub.notifyUp_kt (h : Hub) (code sect idx : Nat) : (h.notifyUp code sect idx).kt = h.kt := by
  unfold Hub.notifyUp; (repeat' split) <;> simp
@[simp] theorem Hub.notifyUp_flt (h : Hub) (code sect idx : Nat) : (h.notifyUp code sect idx).flt = h.flt := by
  unfold Hub.notifyUp; (repeat' split) <;> simp
@[simp] theorem Hub.notifyUp_job (h : Hub) (code sect idx : Nat) : (h.notifyUp code sect idx).job = h.job := by
  unfold Hub.notifyUp; (repeat' split) <;> simp
@[simp] theorem Hub.notifyUp_spc (h : Hub) (code sect idx : Nat) : (h.notifyUp code sect idx).spc = h.spc := by
  unfold Hub.notifyUp; (repeat' split) <;> simp
@[simp] theorem Hub.notifyUp_fea (h : Hub) (code sect idx : Nat) : (h.notifyUp code sect idx).fea = h.fea := by
  unfold Hub.notifyUp; (repeat' split) <;> simp
@[simp] theorem Hub.notifyUp_lim (h : Hub) (code sect idx : Nat) : (h.notifyUp code sect idx).lim = h.lim := by
  unfold Hub.notifyUp; (repeat' split) <;> simp
@[simp] theorem Hub.notifyUp_cas (h : Hub) (code sect idx : Nat) : (h.notifyUp code sect idx).cas = h.cas := by
  unfold Hub.notifyUp; (repeat' split) <;> simp
@[simp] theorem Hub.notifyUp_rad (h : Hub) (code sect idx : Nat) : (h.notifyUp code sect idx).rad = h.rad := by
  unfold Hub.notifyUp; (repeat' split) <;> simp
@[simp] theorem Hub.notifyUp_hlt (h : Hub) (code sect idx : Nat) : (h.notifyUp code sect idx).hlt = h.hlt := by
  unfold Hub.notifyUp; (repeat' split) <;> simp
@[simp] theorem Hub.notifyUp_sup (h : Hub) (code sect idx : Nat) : (h.notifyUp code sect idx).sup = h.sup := by
  unfold Hub.notifyUp; (repeat' split) <;> simp
@[simp] theorem Hub.notifyUp_tbMet (h : Hub) (code sect idx : Nat) : (h.notifyUp code sect idx).tbMet = h.tbMet := by
  unfold Hub.notifyUp; (repeat' split) <;> simp
@[simp] theorem Hub.notifyUp_metFollows (h : Hub) (code sect idx : Nat) : (h.notifyUp code sect idx).metFollows = h.metFollows := by
  unfold Hub.notifyUp; (repeat' split) <;> simp
@[simp] theorem Hub.notifyUp_metFifo (h : Hub) (code sect idx : Nat) : (h.notifyUp code sect idx).metFifo = h.metFifo := by
  unfold Hub.notifyUp; (repeat' split) <;> simp
@[simp] theorem Hub.notifyUp_metGap (h : Hub) (code sect idx : Nat) : (h.notifyUp code sect idx).metGap = h.metGap := by
  unfold Hub.notifyUp; (repeat' split) <;> simp
@[simp] theorem Hub.notifyUp_cyc (h : Hub) (code sect idx : Nat) : (h.notifyUp code sect idx).cyc = h.cyc := by
  unfold Hub.notifyUp; (repeat' split) <;> simp
@[simp] theorem Hub.notifyUp_asleep (h : Hub) (code sect idx : Nat) : (h.notifyUp code sect idx).asleep = h.asleep := by
  unfold Hub.notifyUp; (repeat' split) <;> simp
@[simp] theorem Hub.notifyUp_free (h : Hub) (code sect idx : Nat) : (h.notifyUp code sect idx).free = h.free := by
  unfold Hub.notifyUp; (repeat' split) <;> simp
@[simp] theorem Hub.notifyUp_cell (h : Hub) (code sect idx : Nat) (i j k : Nat) : (h.notifyUp code sect idx).cell i j k = h.cell i j k := by
  unfold Hub.cell; rw [Hub.notifyUp_cells]
@[simp] theorem Hub.notifyUp_cf (h : Hub) (code sect idx : Nat) (i j k lo len : Nat) : (h.notifyUp code sect idx).cf i j k lo len = h.cf i j k lo len := by
  unfold Hub.cf; rw [Hub.notifyUp_cell]
@[simp] theorem Hub.notifyUp_reg (h : Hub) (code sect idx : Nat) (a : Nat) : (h.notifyUp code sect idx).reg a = h.reg a := by
  unfold Hub.reg; rw [Hub.notifyUp_regs]
@[simp] theorem Hub.notifyUp_rd (h : Hub) (code sect idx : Nat) (f : Fld) : (h.notifyUp code sect idx).rd f = h.rd f := by
  unfold Hub.rd; rw [Hub.notifyUp_reg]
@[simp] theorem Hub.notifyUp_is (h : Hub) (code sect idx : Nat) (f : Fld) : (h.notifyUp code sect idx).is f = h.is f := by
  unfold Hub.is; rw [Hub.notifyUp_rd]

/-! ### `Hub.pathSend` -/

@[simp] theorem Hub.pathSend_cells (h : Hub) (p : Nat) (ws : List Word) : (h.pathSend p ws).cells = h.cells := by
  unfold Hub.pathSend; (try dsimp only); (repeat' split) <;> simp
@[simp] theorem Hub.pathSend_clk (h : Hub) (p : Nat) (ws : List Word) : (h.pathSend p ws).clk = h.clk := by
  unfold Hub.pathSend; (try dsimp only); (repeat' split) <;> simp
@[simp] theorem Hub.pathSend_ldr (h : Hub) (p : Nat) (ws : List Word) : (h.pathSend p ws).ldr = h.ldr := by
  unfold Hub.pathSend; (try dsimp only); (repeat' split) <;> simp
@[simp] theorem Hub.pathSend_host (h : Hub) (p : Nat) (ws : List Word) : (h.pathSend p ws).host = h.host := by
  unfold Hub.pathSend; (try dsimp only); (repeat' split) <;> simp
@[simp] theorem Hub.pathSend_sp (h : Hub) (p : Nat) (ws : List Word) : (h.pathSend p ws).sp = h.sp := by
  unfold Hub.pathSend; (try dsimp only); (repeat' split) <;> simp
@[simp] theorem Hub.pathSend_tw (h : Hub) (p : Nat) (ws : List Word) : (h.pathSend p ws).tw = h.tw := by
  unfold Hub.pathSend; (try dsimp only); (repeat' split) <;> simp
@[simp] theorem Hub.pathSend_ingress (h : Hub) (p : Nat) (ws : List Word) : (h.pathSend p ws).ingress = h.ingress := by
  unfold Hub.pathSend; (try dsimp only); (repeat' split) <;> simp
@[simp] theorem Hub.pathSend_ctx (h : Hub) (p : Nat) (ws : List Word) : (h.pathSend p ws).ctx = h.ctx := by
  unfold Hub.pathSend; (try dsimp only); (repeat' split) <;> simp
@[simp] theorem Hub.pathSend_stg (h : Hub) (p : Nat) (ws : List Word) : (h.pathSend p ws).stg = h.stg := by
  unfold Hub.pathSend; (try dsimp only); (repeat' split) <;> simp
@[simp] theorem Hub.pathSend_tile (h : Hub) (p : Nat) (ws : List Word) : (h.pathSend p ws).tile = h.tile := by
  unfold Hub.pathSend; (try dsimp only); (repeat' split) <;> simp
@[simp] theorem Hub.pathSend_ev (h : Hub) (p : Nat) (ws : List Word) : (h.pathSend p ws).ev = h.ev := by
  unfold Hub.pathSend; (try dsimp only); (repeat' split) <;> simp
@[simp] theorem Hub.pathSend_evSeen (h : Hub) (p : Nat) (ws : List Word) : (h.pathSend p ws).evSeen = h.evSeen := by
  unfold Hub.pathSend; (try dsimp only); (repeat' split) <;> simp
@[simp] theorem Hub.pathSend_q (h : Hub) (p : Nat) (ws : List Word) : (h.pathSend p ws).q = h.q := by
  unfold Hub.pathSend; (try dsimp only); (repeat' split) <;> simp
@[simp] theorem Hub.pathSend_stock (h : Hub) (p : Nat) (ws : List Word) : (h.pathSend p ws).stock = h.stock := by
  unfold Hub.pathSend; (try dsimp only); (repeat' split) <;> simp
@[simp] theorem Hub.pathSend_stockFill (h : Hub) (p : Nat) (ws : List Word) : (h.pathSend p ws).stockFill = h.stockFill := by
  unfold Hub.pathSend; (try dsimp only); (repeat' split) <;> simp
@[simp] theorem Hub.pathSend_dbgHeld (h : Hub) (p : Nat) (ws : List Word) : (h.pathSend p ws).dbgHeld = h.dbgHeld := by
  unfold Hub.pathSend; (try dsimp only); (repeat' split) <;> simp
@[simp] theorem Hub.pathSend_ring (h : Hub) (p : Nat) (ws : List Word) : (h.pathSend p ws).ring = h.ring := by
  unfold Hub.pathSend; (try dsimp only); (repeat' split) <;> simp
@[simp] theorem Hub.pathSend_tb (h : Hub) (p : Nat) (ws : List Word) : (h.pathSend p ws).tb = h.tb := by
  unfold Hub.pathSend; (try dsimp only); (repeat' split) <;> simp
@[simp] theorem Hub.pathSend_trig (h : Hub) (p : Nat) (ws : List Word) : (h.pathSend p ws).trig = h.trig := by
  unfold Hub.pathSend; (try dsimp only); (repeat' split) <;> simp
@[simp] theorem Hub.pathSend_trg (h : Hub) (p : Nat) (ws : List Word) : (h.pathSend p ws).trg = h.trg := by
  unfold Hub.pathSend; (try dsimp only); (repeat' split) <;> simp
@[simp] theorem Hub.pathSend_tach (h : Hub) (p : Nat) (ws : List Word) : (h.pathSend p ws).tach = h.tach := by
  unfold Hub.pathSend; (try dsimp only); (repeat' split) <;> simp
@[simp] theorem Hub.pathSend_kt (h : Hub) (p : Nat) (ws : List Word) : (h.pathSend p ws).kt = h.kt := by
  unfold Hub.pathSend; (try dsimp only); (repeat' split) <;> simp
@[simp] theorem Hub.pathSend_flt (h : Hub) (p : Nat) (ws : List Word) : (h.pathSend p ws).flt = h.flt := by
  unfold Hub.pathSend; (try dsimp only); (repeat' split) <;> simp
@[simp] theorem Hub.pathSend_job (h : Hub) (p : Nat) (ws : List Word) : (h.pathSend p ws).job = h.job := by
  unfold Hub.pathSend; (try dsimp only); (repeat' split) <;> simp
@[simp] theorem Hub.pathSend_spc (h : Hub) (p : Nat) (ws : List Word) : (h.pathSend p ws).spc = h.spc := by
  unfold Hub.pathSend; (try dsimp only); (repeat' split) <;> simp
@[simp] theorem Hub.pathSend_fea (h : Hub) (p : Nat) (ws : List Word) : (h.pathSend p ws).fea = h.fea := by
  unfold Hub.pathSend; (try dsimp only); (repeat' split) <;> simp
@[simp] theorem Hub.pathSend_lim (h : Hub) (p : Nat) (ws : List Word) : (h.pathSend p ws).lim = h.lim := by
  unfold Hub.pathSend; (try dsimp only); (repeat' split) <;> simp
@[simp] theorem Hub.pathSend_cas (h : Hub) (p : Nat) (ws : List Word) : (h.pathSend p ws).cas = h.cas := by
  unfold Hub.pathSend; (try dsimp only); (repeat' split) <;> simp
@[simp] theorem Hub.pathSend_rad (h : Hub) (p : Nat) (ws : List Word) : (h.pathSend p ws).rad = h.rad := by
  unfold Hub.pathSend; (try dsimp only); (repeat' split) <;> simp
@[simp] theorem Hub.pathSend_hlt (h : Hub) (p : Nat) (ws : List Word) : (h.pathSend p ws).hlt = h.hlt := by
  unfold Hub.pathSend; (try dsimp only); (repeat' split) <;> simp
@[simp] theorem Hub.pathSend_sup (h : Hub) (p : Nat) (ws : List Word) : (h.pathSend p ws).sup = h.sup := by
  unfold Hub.pathSend; (try dsimp only); (repeat' split) <;> simp
@[simp] theorem Hub.pathSend_tbMet (h : Hub) (p : Nat) (ws : List Word) : (h.pathSend p ws).tbMet = h.tbMet := by
  unfold Hub.pathSend; (try dsimp only); (repeat' split) <;> simp
@[simp] theorem Hub.pathSend_metFollows (h : Hub) (p : Nat) (ws : List Word) : (h.pathSend p ws).metFollows = h.metFollows := by
  unfold Hub.pathSend; (try dsimp only); (repeat' split) <;> simp
@[simp] theorem Hub.pathSend_metFifo (h : Hub) (p : Nat) (ws : List Word) : (h.pathSend p ws).metFifo = h.metFifo := by
  unfold Hub.pathSend; (try dsimp only); (repeat' split) <;> simp
@[simp] theorem Hub.pathSend_metGap (h : Hub) (p : Nat) (ws : List Word) : (h.pathSend p ws).metGap = h.metGap := by
  unfold Hub.pathSend; (try dsimp only); (repeat' split) <;> simp
@[simp] theorem Hub.pathSend_cyc (h : Hub) (p : Nat) (ws : List Word) : (h.pathSend p ws).cyc = h.cyc := by
  unfold Hub.pathSend; (try dsimp only); (repeat' split) <;> simp
@[simp] theorem Hub.pathSend_asleep (h : Hub) (p : Nat) (ws : List Word) : (h.pathSend p ws).asleep = h.asleep := by
  unfold Hub.pathSend; (try dsimp only); (repeat' split) <;> simp
@[simp] theorem Hub.pathSend_free (h : Hub) (p : Nat) (ws : List Word) : (h.pathSend p ws).free = h.free := by
  unfold Hub.pathSend; (try dsimp only); (repeat' split) <;> simp
@[simp] theorem Hub.pathSend_cell (h : Hub) (p : Nat) (ws : List Word) (i j k : Nat) : (h.pathSend p ws).cell i j k = h.cell i j k := by
  unfold Hub.cell; rw [Hub.pathSend_cells]
@[simp] theorem Hub.pathSend_cf (h : Hub) (p : Nat) (ws : List Word) (i j k lo len : Nat) : (h.pathSend p ws).cf i j k lo len = h.cf i j k lo len := by
  unfold Hub.cf; rw [Hub.pathSend_cell]

theorem pathBucket_lt (p : Nat) : pathBucket p < 6 := by unfold pathBucket; split <;> (try split) <;> omega

theorem Hub.pathSend_reg (h : Hub) (p : Nat) (ws : List Word) {a : Nat} (ha : a < 0x1F8000 ∨ 0x1F9000 ≤ a) :
    (h.pathSend p ws).reg a = h.reg a := by
  unfold Hub.pathSend
  simp only []
  split <;> exact Hub.bkTake_reg h _ (pathBucket_lt p) ha

/-! ### `Hub.setPend` -/

@[simp] theorem Hub.setPend_cells (h : Hub) (p : Nat) (l : List AlarmSlot) : (h.setPend p l).cells = h.cells := by
  unfold Hub.setPend; simp
@[simp] theorem Hub.setPend_clk (h : Hub) (p : Nat) (l : List AlarmSlot) : (h.setPend p l).clk = h.clk := by
  unfold Hub.setPend; simp
@[simp] theorem Hub.setPend_ldr (h : Hub) (p : Nat) (l : List AlarmSlot) : (h.setPend p l).ldr = h.ldr := by
  unfold Hub.setPend; simp
@[simp] theorem Hub.setPend_host (h : Hub) (p : Nat) (l : List AlarmSlot) : (h.setPend p l).host = h.host := by
  unfold Hub.setPend; simp
@[simp] theorem Hub.setPend_sp (h : Hub) (p : Nat) (l : List AlarmSlot) : (h.setPend p l).sp = h.sp := by
  unfold Hub.setPend; simp
@[simp] theorem Hub.setPend_tw (h : Hub) (p : Nat) (l : List AlarmSlot) : (h.setPend p l).tw = h.tw := by
  unfold Hub.setPend; simp
@[simp] theorem Hub.setPend_ingress (h : Hub) (p : Nat) (l : List AlarmSlot) : (h.setPend p l).ingress = h.ingress := by
  unfold Hub.setPend; simp
@[simp] theorem Hub.setPend_ctx (h : Hub) (p : Nat) (l : List AlarmSlot) : (h.setPend p l).ctx = h.ctx := by
  unfold Hub.setPend; simp
@[simp] theorem Hub.setPend_stg (h : Hub) (p : Nat) (l : List AlarmSlot) : (h.setPend p l).stg = h.stg := by
  unfold Hub.setPend; simp
@[simp] theorem Hub.setPend_tile (h : Hub) (p : Nat) (l : List AlarmSlot) : (h.setPend p l).tile = h.tile := by
  unfold Hub.setPend; simp
@[simp] theorem Hub.setPend_ev (h : Hub) (p : Nat) (l : List AlarmSlot) : (h.setPend p l).ev = h.ev := by
  unfold Hub.setPend; simp
@[simp] theorem Hub.setPend_evSeen (h : Hub) (p : Nat) (l : List AlarmSlot) : (h.setPend p l).evSeen = h.evSeen := by
  unfold Hub.setPend; simp
@[simp] theorem Hub.setPend_q (h : Hub) (p : Nat) (l : List AlarmSlot) : (h.setPend p l).q = h.q := by
  unfold Hub.setPend; simp
@[simp] theorem Hub.setPend_stock (h : Hub) (p : Nat) (l : List AlarmSlot) : (h.setPend p l).stock = h.stock := by
  unfold Hub.setPend; simp
@[simp] theorem Hub.setPend_stockFill (h : Hub) (p : Nat) (l : List AlarmSlot) : (h.setPend p l).stockFill = h.stockFill := by
  unfold Hub.setPend; simp
@[simp] theorem Hub.setPend_dbgHeld (h : Hub) (p : Nat) (l : List AlarmSlot) : (h.setPend p l).dbgHeld = h.dbgHeld := by
  unfold Hub.setPend; simp
@[simp] theorem Hub.setPend_ring (h : Hub) (p : Nat) (l : List AlarmSlot) : (h.setPend p l).ring = h.ring := by
  unfold Hub.setPend; simp
@[simp] theorem Hub.setPend_outbox (h : Hub) (p : Nat) (l : List AlarmSlot) : (h.setPend p l).outbox = h.outbox := by
  unfold Hub.setPend; simp
@[simp] theorem Hub.setPend_tb (h : Hub) (p : Nat) (l : List AlarmSlot) : (h.setPend p l).tb = h.tb := by
  unfold Hub.setPend; simp
@[simp] theorem Hub.setPend_trig (h : Hub) (p : Nat) (l : List AlarmSlot) : (h.setPend p l).trig = h.trig := by
  unfold Hub.setPend; simp
@[simp] theorem Hub.setPend_trg (h : Hub) (p : Nat) (l : List AlarmSlot) : (h.setPend p l).trg = h.trg := by
  unfold Hub.setPend; simp
@[simp] theorem Hub.setPend_tach (h : Hub) (p : Nat) (l : List AlarmSlot) : (h.setPend p l).tach = h.tach := by
  unfold Hub.setPend; simp
@[simp] theorem Hub.setPend_kt (h : Hub) (p : Nat) (l : List AlarmSlot) : (h.setPend p l).kt = h.kt := by
  unfold Hub.setPend; simp
@[simp] theorem Hub.setPend_job (h : Hub) (p : Nat) (l : List AlarmSlot) : (h.setPend p l).job = h.job := by
  unfold Hub.setPend; simp
@[simp] theorem Hub.setPend_spc (h : Hub) (p : Nat) (l : List AlarmSlot) : (h.setPend p l).spc = h.spc := by
  unfold Hub.setPend; simp
@[simp] theorem Hub.setPend_fea (h : Hub) (p : Nat) (l : List AlarmSlot) : (h.setPend p l).fea = h.fea := by
  unfold Hub.setPend; simp
@[simp] theorem Hub.setPend_lim (h : Hub) (p : Nat) (l : List AlarmSlot) : (h.setPend p l).lim = h.lim := by
  unfold Hub.setPend; simp
@[simp] theorem Hub.setPend_link (h : Hub) (p : Nat) (l : List AlarmSlot) : (h.setPend p l).link = h.link := by
  unfold Hub.setPend; simp
@[simp] theorem Hub.setPend_cas (h : Hub) (p : Nat) (l : List AlarmSlot) : (h.setPend p l).cas = h.cas := by
  unfold Hub.setPend; simp
@[simp] theorem Hub.setPend_rad (h : Hub) (p : Nat) (l : List AlarmSlot) : (h.setPend p l).rad = h.rad := by
  unfold Hub.setPend; simp
@[simp] theorem Hub.setPend_hlt (h : Hub) (p : Nat) (l : List AlarmSlot) : (h.setPend p l).hlt = h.hlt := by
  unfold Hub.setPend; simp
@[simp] theorem Hub.setPend_sup (h : Hub) (p : Nat) (l : List AlarmSlot) : (h.setPend p l).sup = h.sup := by
  unfold Hub.setPend; simp
@[simp] theorem Hub.setPend_tbMet (h : Hub) (p : Nat) (l : List AlarmSlot) : (h.setPend p l).tbMet = h.tbMet := by
  unfold Hub.setPend; simp
@[simp] theorem Hub.setPend_metFollows (h : Hub) (p : Nat) (l : List AlarmSlot) : (h.setPend p l).metFollows = h.metFollows := by
  unfold Hub.setPend; simp
@[simp] theorem Hub.setPend_metFifo (h : Hub) (p : Nat) (l : List AlarmSlot) : (h.setPend p l).metFifo = h.metFifo := by
  unfold Hub.setPend; simp
@[simp] theorem Hub.setPend_metGap (h : Hub) (p : Nat) (l : List AlarmSlot) : (h.setPend p l).metGap = h.metGap := by
  unfold Hub.setPend; simp
@[simp] theorem Hub.setPend_cyc (h : Hub) (p : Nat) (l : List AlarmSlot) : (h.setPend p l).cyc = h.cyc := by
  unfold Hub.setPend; simp
@[simp] theorem Hub.setPend_asleep (h : Hub) (p : Nat) (l : List AlarmSlot) : (h.setPend p l).asleep = h.asleep := by
  unfold Hub.setPend; simp
@[simp] theorem Hub.setPend_free (h : Hub) (p : Nat) (l : List AlarmSlot) : (h.setPend p l).free = h.free := by
  unfold Hub.setPend; simp
@[simp] theorem Hub.setPend_cell (h : Hub) (p : Nat) (l : List AlarmSlot) (i j k : Nat) : (h.setPend p l).cell i j k = h.cell i j k := by
  unfold Hub.cell; rw [Hub.setPend_cells]
@[simp] theorem Hub.setPend_cf (h : Hub) (p : Nat) (l : List AlarmSlot) (i j k lo len : Nat) : (h.setPend p l).cf i j k lo len = h.cf i j k lo len := by
  unfold Hub.cf; rw [Hub.setPend_cell]

theorem Hub.setPend_reg (h : Hub) (p : Nat) (l : List AlarmSlot) {a : Nat} (hp : p < 3)
    (ha : a < 0x1F8000 ∨ 0x1F9000 ≤ a) : (h.setPend p l).reg a = h.reg a := by
  unfold Hub.setPend
  simp only []
  rw [Hub.reg_wr_ne _ _ _ (by simp only [fHltPendKeys, rHltPend]; omega), Hub.reg_wr_ne _ _ _ (by simp only [fHltPendSlots, rHltPend]; omega)]
  rfl

/-! ### `Hub.alarmTo` -/

@[simp] theorem Hub.alarmTo_cells (h : Hub) (p : Nat) (s : AlarmSlot) : (h.alarmTo p s).cells = h.cells := by
  unfold Hub.alarmTo; (try dsimp only); (repeat' split) <;> simp
@[simp] theorem Hub.alarmTo_clk (h : Hub) (p : Nat) (s : AlarmSlot) : (h.alarmTo p s).clk = h.clk := by
  unfold Hub.alarmTo; (try dsimp only); (repeat' split) <;> simp
@[simp] theorem Hub.alarmTo_ldr (h : Hub) (p : Nat) (s : AlarmSlot) : (h.alarmTo p s).ldr = h.ldr := by
  unfold Hub.alarmTo; (try dsimp only); (repeat' split) <;> simp
@[simp] theorem Hub.alarmTo_host (h : Hub) (p : Nat) (s : AlarmSlot) : (h.alarmTo p s).host = h.host := by
  unfold Hub.alarmTo; (try dsimp only); (repeat' split) <;> simp
@[simp] theorem Hub.alarmTo_sp (h : Hub) (p : Nat) (s : AlarmSlot) : (h.alarmTo p s).sp = h.sp := by
  unfold Hub.alarmTo; (try dsimp only); (repeat' split) <;> simp
@[simp] theorem Hub.alarmTo_tw (h : Hub) (p : Nat) (s : AlarmSlot) : (h.alarmTo p s).tw = h.tw := by
  unfold Hub.alarmTo; (try dsimp only); (repeat' split) <;> simp
@[simp] theorem Hub.alarmTo_ingress (h : Hub) (p : Nat) (s : AlarmSlot) : (h.alarmTo p s).ingress = h.ingress := by
  unfold Hub.alarmTo; (try dsimp only); (repeat' split) <;> simp
@[simp] theorem Hub.alarmTo_ctx (h : Hub) (p : Nat) (s : AlarmSlot) : (h.alarmTo p s).ctx = h.ctx := by
  unfold Hub.alarmTo; (try dsimp only); (repeat' split) <;> simp
@[simp] theorem Hub.alarmTo_stg (h : Hub) (p : Nat) (s : AlarmSlot) : (h.alarmTo p s).stg = h.stg := by
  unfold Hub.alarmTo; (try dsimp only); (repeat' split) <;> simp
@[simp] theorem Hub.alarmTo_tile (h : Hub) (p : Nat) (s : AlarmSlot) : (h.alarmTo p s).tile = h.tile := by
  unfold Hub.alarmTo; (try dsimp only); (repeat' split) <;> simp
@[simp] theorem Hub.alarmTo_ev (h : Hub) (p : Nat) (s : AlarmSlot) : (h.alarmTo p s).ev = h.ev := by
  unfold Hub.alarmTo; (try dsimp only); (repeat' split) <;> simp
@[simp] theorem Hub.alarmTo_evSeen (h : Hub) (p : Nat) (s : AlarmSlot) : (h.alarmTo p s).evSeen = h.evSeen := by
  unfold Hub.alarmTo; (try dsimp only); (repeat' split) <;> simp
@[simp] theorem Hub.alarmTo_q (h : Hub) (p : Nat) (s : AlarmSlot) : (h.alarmTo p s).q = h.q := by
  unfold Hub.alarmTo; (try dsimp only); (repeat' split) <;> simp
@[simp] theorem Hub.alarmTo_stock (h : Hub) (p : Nat) (s : AlarmSlot) : (h.alarmTo p s).stock = h.stock := by
  unfold Hub.alarmTo; (try dsimp only); (repeat' split) <;> simp
@[simp] theorem Hub.alarmTo_stockFill (h : Hub) (p : Nat) (s : AlarmSlot) : (h.alarmTo p s).stockFill = h.stockFill := by
  unfold Hub.alarmTo; (try dsimp only); (repeat' split) <;> simp
@[simp] theorem Hub.alarmTo_dbgHeld (h : Hub) (p : Nat) (s : AlarmSlot) : (h.alarmTo p s).dbgHeld = h.dbgHeld := by
  unfold Hub.alarmTo; (try dsimp only); (repeat' split) <;> simp
@[simp] theorem Hub.alarmTo_ring (h : Hub) (p : Nat) (s : AlarmSlot) : (h.alarmTo p s).ring = h.ring := by
  unfold Hub.alarmTo; (try dsimp only); (repeat' split) <;> simp
@[simp] theorem Hub.alarmTo_tb (h : Hub) (p : Nat) (s : AlarmSlot) : (h.alarmTo p s).tb = h.tb := by
  unfold Hub.alarmTo; (try dsimp only); (repeat' split) <;> simp
@[simp] theorem Hub.alarmTo_trig (h : Hub) (p : Nat) (s : AlarmSlot) : (h.alarmTo p s).trig = h.trig := by
  unfold Hub.alarmTo; (try dsimp only); (repeat' split) <;> simp
@[simp] theorem Hub.alarmTo_trg (h : Hub) (p : Nat) (s : AlarmSlot) : (h.alarmTo p s).trg = h.trg := by
  unfold Hub.alarmTo; (try dsimp only); (repeat' split) <;> simp
@[simp] theorem Hub.alarmTo_tach (h : Hub) (p : Nat) (s : AlarmSlot) : (h.alarmTo p s).tach = h.tach := by
  unfold Hub.alarmTo; (try dsimp only); (repeat' split) <;> simp
@[simp] theorem Hub.alarmTo_kt (h : Hub) (p : Nat) (s : AlarmSlot) : (h.alarmTo p s).kt = h.kt := by
  unfold Hub.alarmTo; (try dsimp only); (repeat' split) <;> simp
@[simp] theorem Hub.alarmTo_job (h : Hub) (p : Nat) (s : AlarmSlot) : (h.alarmTo p s).job = h.job := by
  unfold Hub.alarmTo; (try dsimp only); (repeat' split) <;> simp
@[simp] theorem Hub.alarmTo_spc (h : Hub) (p : Nat) (s : AlarmSlot) : (h.alarmTo p s).spc = h.spc := by
  unfold Hub.alarmTo; (try dsimp only); (repeat' split) <;> simp
@[simp] theorem Hub.alarmTo_fea (h : Hub) (p : Nat) (s : AlarmSlot) : (h.alarmTo p s).fea = h.fea := by
  unfold Hub.alarmTo; (try dsimp only); (repeat' split) <;> simp
@[simp] theorem Hub.alarmTo_lim (h : Hub) (p : Nat) (s : AlarmSlot) : (h.alarmTo p s).lim = h.lim := by
  unfold Hub.alarmTo; (try dsimp only); (repeat' split) <;> simp
@[simp] theorem Hub.alarmTo_cas (h : Hub) (p : Nat) (s : AlarmSlot) : (h.alarmTo p s).cas = h.cas := by
  unfold Hub.alarmTo; (try dsimp only); (repeat' split) <;> simp
@[simp] theorem Hub.alarmTo_rad (h : Hub) (p : Nat) (s : AlarmSlot) : (h.alarmTo p s).rad = h.rad := by
  unfold Hub.alarmTo; (try dsimp only); (repeat' split) <;> simp
@[simp] theorem Hub.alarmTo_hlt (h : Hub) (p : Nat) (s : AlarmSlot) : (h.alarmTo p s).hlt = h.hlt := by
  unfold Hub.alarmTo; (try dsimp only); (repeat' split) <;> simp
@[simp] theorem Hub.alarmTo_sup (h : Hub) (p : Nat) (s : AlarmSlot) : (h.alarmTo p s).sup = h.sup := by
  unfold Hub.alarmTo; (try dsimp only); (repeat' split) <;> simp
@[simp] theorem Hub.alarmTo_tbMet (h : Hub) (p : Nat) (s : AlarmSlot) : (h.alarmTo p s).tbMet = h.tbMet := by
  unfold Hub.alarmTo; (try dsimp only); (repeat' split) <;> simp
@[simp] theorem Hub.alarmTo_metFollows (h : Hub) (p : Nat) (s : AlarmSlot) : (h.alarmTo p s).metFollows = h.metFollows := by
  unfold Hub.alarmTo; (try dsimp only); (repeat' split) <;> simp
@[simp] theorem Hub.alarmTo_metFifo (h : Hub) (p : Nat) (s : AlarmSlot) : (h.alarmTo p s).metFifo = h.metFifo := by
  unfold Hub.alarmTo; (try dsimp only); (repeat' split) <;> simp
@[simp] theorem Hub.alarmTo_metGap (h : Hub) (p : Nat) (s : AlarmSlot) : (h.alarmTo p s).metGap = h.metGap := by
  unfold Hub.alarmTo; (try dsimp only); (repeat' split) <;> simp
@[simp] theorem Hub.alarmTo_cyc (h : Hub) (p : Nat) (s : AlarmSlot) : (h.alarmTo p s).cyc = h.cyc := by
  unfold Hub.alarmTo; (try dsimp only); (repeat' split) <;> simp
@[simp] theorem Hub.alarmTo_asleep (h : Hub) (p : Nat) (s : AlarmSlot) : (h.alarmTo p s).asleep = h.asleep := by
  unfold Hub.alarmTo; (try dsimp only); (repeat' split) <;> simp
@[simp] theorem Hub.alarmTo_free (h : Hub) (p : Nat) (s : AlarmSlot) : (h.alarmTo p s).free = h.free := by
  unfold Hub.alarmTo; (try dsimp only); (repeat' split) <;> simp
@[simp] theorem Hub.alarmTo_cell (h : Hub) (p : Nat) (s : AlarmSlot) (i j k : Nat) : (h.alarmTo p s).cell i j k = h.cell i j k := by
  unfold Hub.cell; rw [Hub.alarmTo_cells]
@[simp] theorem Hub.alarmTo_cf (h : Hub) (p : Nat) (s : AlarmSlot) (i j k lo len : Nat) : (h.alarmTo p s).cf i j k lo len = h.cf i j k lo len := by
  unfold Hub.cf; rw [Hub.alarmTo_cell]

theorem Hub.alarmTo_reg (h : Hub) (p : Nat) (s : AlarmSlot) {a : Nat} (hp : p < 3)
    (ha : a < 0x1F8000 ∨ 0x1F9000 ≤ a) : (h.alarmTo p s).reg a = h.reg a := by
  unfold Hub.alarmTo
  simp only []
  split
  · rw [Hub.reg_countSat_ne _ _ _ (by have := pathBucket_lt p; simp only [fHltBkCount, rHltBk]; omega), Hub.setPend_reg _ _ _ hp ha]
  · split
    · exact Hub.pathSend_reg h p _ ha
    · rw [Hub.reg_on_ne _ _ (by simp only [fHltFltStatusAlarmPend, rHltFltStatus]; omega), Hub.setPend_reg _ _ _ hp ha]

@[simp] theorem Hub.drainSlots_cells (p : Nat) (h : Hub) (l : List AlarmSlot) : (Hub.drainSlots p h l).cells = h.cells := by
  induction l generalizing h with
  | nil => simp [Hub.drainSlots]
  | cons s t ih => unfold Hub.drainSlots; split <;> simp [ih]
@[simp] theorem Hub.drainSlots_clk (p : Nat) (h : Hub) (l : List AlarmSlot) : (Hub.drainSlots p h l).clk = h.clk := by
  induction l generalizing h with
  | nil => simp [Hub.drainSlots]
  | cons s t ih => unfold Hub.drainSlots; split <;> simp [ih]
@[simp] theorem Hub.drainSlots_ldr (p : Nat) (h : Hub) (l : List AlarmSlot) : (Hub.drainSlots p h l).ldr = h.ldr := by
  induction l generalizing h with
  | nil => simp [Hub.drainSlots]
  | cons s t ih => unfold Hub.drainSlots; split <;> simp [ih]
@[simp] theorem Hub.drainSlots_host (p : Nat) (h : Hub) (l : List AlarmSlot) : (Hub.drainSlots p h l).host = h.host := by
  induction l generalizing h with
  | nil => simp [Hub.drainSlots]
  | cons s t ih => unfold Hub.drainSlots; split <;> simp [ih]
@[simp] theorem Hub.drainSlots_sp (p : Nat) (h : Hub) (l : List AlarmSlot) : (Hub.drainSlots p h l).sp = h.sp := by
  induction l generalizing h with
  | nil => simp [Hub.drainSlots]
  | cons s t ih => unfold Hub.drainSlots; split <;> simp [ih]
@[simp] theorem Hub.drainSlots_tw (p : Nat) (h : Hub) (l : List AlarmSlot) : (Hub.drainSlots p h l).tw = h.tw := by
  induction l generalizing h with
  | nil => simp [Hub.drainSlots]
  | cons s t ih => unfold Hub.drainSlots; split <;> simp [ih]
@[simp] theorem Hub.drainSlots_ingress (p : Nat) (h : Hub) (l : List AlarmSlot) : (Hub.drainSlots p h l).ingress = h.ingress := by
  induction l generalizing h with
  | nil => simp [Hub.drainSlots]
  | cons s t ih => unfold Hub.drainSlots; split <;> simp [ih]
@[simp] theorem Hub.drainSlots_ctx (p : Nat) (h : Hub) (l : List AlarmSlot) : (Hub.drainSlots p h l).ctx = h.ctx := by
  induction l generalizing h with
  | nil => simp [Hub.drainSlots]
  | cons s t ih => unfold Hub.drainSlots; split <;> simp [ih]
@[simp] theorem Hub.drainSlots_stg (p : Nat) (h : Hub) (l : List AlarmSlot) : (Hub.drainSlots p h l).stg = h.stg := by
  induction l generalizing h with
  | nil => simp [Hub.drainSlots]
  | cons s t ih => unfold Hub.drainSlots; split <;> simp [ih]
@[simp] theorem Hub.drainSlots_tile (p : Nat) (h : Hub) (l : List AlarmSlot) : (Hub.drainSlots p h l).tile = h.tile := by
  induction l generalizing h with
  | nil => simp [Hub.drainSlots]
  | cons s t ih => unfold Hub.drainSlots; split <;> simp [ih]
@[simp] theorem Hub.drainSlots_ev (p : Nat) (h : Hub) (l : List AlarmSlot) : (Hub.drainSlots p h l).ev = h.ev := by
  induction l generalizing h with
  | nil => simp [Hub.drainSlots]
  | cons s t ih => unfold Hub.drainSlots; split <;> simp [ih]
@[simp] theorem Hub.drainSlots_evSeen (p : Nat) (h : Hub) (l : List AlarmSlot) : (Hub.drainSlots p h l).evSeen = h.evSeen := by
  induction l generalizing h with
  | nil => simp [Hub.drainSlots]
  | cons s t ih => unfold Hub.drainSlots; split <;> simp [ih]
@[simp] theorem Hub.drainSlots_q (p : Nat) (h : Hub) (l : List AlarmSlot) : (Hub.drainSlots p h l).q = h.q := by
  induction l generalizing h with
  | nil => simp [Hub.drainSlots]
  | cons s t ih => unfold Hub.drainSlots; split <;> simp [ih]
@[simp] theorem Hub.drainSlots_stock (p : Nat) (h : Hub) (l : List AlarmSlot) : (Hub.drainSlots p h l).stock = h.stock := by
  induction l generalizing h with
  | nil => simp [Hub.drainSlots]
  | cons s t ih => unfold Hub.drainSlots; split <;> simp [ih]
@[simp] theorem Hub.drainSlots_stockFill (p : Nat) (h : Hub) (l : List AlarmSlot) : (Hub.drainSlots p h l).stockFill = h.stockFill := by
  induction l generalizing h with
  | nil => simp [Hub.drainSlots]
  | cons s t ih => unfold Hub.drainSlots; split <;> simp [ih]
@[simp] theorem Hub.drainSlots_dbgHeld (p : Nat) (h : Hub) (l : List AlarmSlot) : (Hub.drainSlots p h l).dbgHeld = h.dbgHeld := by
  induction l generalizing h with
  | nil => simp [Hub.drainSlots]
  | cons s t ih => unfold Hub.drainSlots; split <;> simp [ih]
@[simp] theorem Hub.drainSlots_ring (p : Nat) (h : Hub) (l : List AlarmSlot) : (Hub.drainSlots p h l).ring = h.ring := by
  induction l generalizing h with
  | nil => simp [Hub.drainSlots]
  | cons s t ih => unfold Hub.drainSlots; split <;> simp [ih]
@[simp] theorem Hub.drainSlots_tb (p : Nat) (h : Hub) (l : List AlarmSlot) : (Hub.drainSlots p h l).tb = h.tb := by
  induction l generalizing h with
  | nil => simp [Hub.drainSlots]
  | cons s t ih => unfold Hub.drainSlots; split <;> simp [ih]
@[simp] theorem Hub.drainSlots_trig (p : Nat) (h : Hub) (l : List AlarmSlot) : (Hub.drainSlots p h l).trig = h.trig := by
  induction l generalizing h with
  | nil => simp [Hub.drainSlots]
  | cons s t ih => unfold Hub.drainSlots; split <;> simp [ih]
@[simp] theorem Hub.drainSlots_trg (p : Nat) (h : Hub) (l : List AlarmSlot) : (Hub.drainSlots p h l).trg = h.trg := by
  induction l generalizing h with
  | nil => simp [Hub.drainSlots]
  | cons s t ih => unfold Hub.drainSlots; split <;> simp [ih]
@[simp] theorem Hub.drainSlots_tach (p : Nat) (h : Hub) (l : List AlarmSlot) : (Hub.drainSlots p h l).tach = h.tach := by
  induction l generalizing h with
  | nil => simp [Hub.drainSlots]
  | cons s t ih => unfold Hub.drainSlots; split <;> simp [ih]
@[simp] theorem Hub.drainSlots_kt (p : Nat) (h : Hub) (l : List AlarmSlot) : (Hub.drainSlots p h l).kt = h.kt := by
  induction l generalizing h with
  | nil => simp [Hub.drainSlots]
  | cons s t ih => unfold Hub.drainSlots; split <;> simp [ih]
@[simp] theorem Hub.drainSlots_job (p : Nat) (h : Hub) (l : List AlarmSlot) : (Hub.drainSlots p h l).job = h.job := by
  induction l generalizing h with
  | nil => simp [Hub.drainSlots]
  | cons s t ih => unfold Hub.drainSlots; split <;> simp [ih]
@[simp] theorem Hub.drainSlots_spc (p : Nat) (h : Hub) (l : List AlarmSlot) : (Hub.drainSlots p h l).spc = h.spc := by
  induction l generalizing h with
  | nil => simp [Hub.drainSlots]
  | cons s t ih => unfold Hub.drainSlots; split <;> simp [ih]
@[simp] theorem Hub.drainSlots_fea (p : Nat) (h : Hub) (l : List AlarmSlot) : (Hub.drainSlots p h l).fea = h.fea := by
  induction l generalizing h with
  | nil => simp [Hub.drainSlots]
  | cons s t ih => unfold Hub.drainSlots; split <;> simp [ih]
@[simp] theorem Hub.drainSlots_lim (p : Nat) (h : Hub) (l : List AlarmSlot) : (Hub.drainSlots p h l).lim = h.lim := by
  induction l generalizing h with
  | nil => simp [Hub.drainSlots]
  | cons s t ih => unfold Hub.drainSlots; split <;> simp [ih]
@[simp] theorem Hub.drainSlots_cas (p : Nat) (h : Hub) (l : List AlarmSlot) : (Hub.drainSlots p h l).cas = h.cas := by
  induction l generalizing h with
  | nil => simp [Hub.drainSlots]
  | cons s t ih => unfold Hub.drainSlots; split <;> simp [ih]
@[simp] theorem Hub.drainSlots_rad (p : Nat) (h : Hub) (l : List AlarmSlot) : (Hub.drainSlots p h l).rad = h.rad := by
  induction l generalizing h with
  | nil => simp [Hub.drainSlots]
  | cons s t ih => unfold Hub.drainSlots; split <;> simp [ih]
@[simp] theorem Hub.drainSlots_hlt (p : Nat) (h : Hub) (l : List AlarmSlot) : (Hub.drainSlots p h l).hlt = h.hlt := by
  induction l generalizing h with
  | nil => simp [Hub.drainSlots]
  | cons s t ih => unfold Hub.drainSlots; split <;> simp [ih]
@[simp] theorem Hub.drainSlots_sup (p : Nat) (h : Hub) (l : List AlarmSlot) : (Hub.drainSlots p h l).sup = h.sup := by
  induction l generalizing h with
  | nil => simp [Hub.drainSlots]
  | cons s t ih => unfold Hub.drainSlots; split <;> simp [ih]
@[simp] theorem Hub.drainSlots_tbMet (p : Nat) (h : Hub) (l : List AlarmSlot) : (Hub.drainSlots p h l).tbMet = h.tbMet := by
  induction l generalizing h with
  | nil => simp [Hub.drainSlots]
  | cons s t ih => unfold Hub.drainSlots; split <;> simp [ih]
@[simp] theorem Hub.drainSlots_metFollows (p : Nat) (h : Hub) (l : List AlarmSlot) : (Hub.drainSlots p h l).metFollows = h.metFollows := by
  induction l generalizing h with
  | nil => simp [Hub.drainSlots]
  | cons s t ih => unfold Hub.drainSlots; split <;> simp [ih]
@[simp] theorem Hub.drainSlots_metFifo (p : Nat) (h : Hub) (l : List AlarmSlot) : (Hub.drainSlots p h l).metFifo = h.metFifo := by
  induction l generalizing h with
  | nil => simp [Hub.drainSlots]
  | cons s t ih => unfold Hub.drainSlots; split <;> simp [ih]
@[simp] theorem Hub.drainSlots_metGap (p : Nat) (h : Hub) (l : List AlarmSlot) : (Hub.drainSlots p h l).metGap = h.metGap := by
  induction l generalizing h with
  | nil => simp [Hub.drainSlots]
  | cons s t ih => unfold Hub.drainSlots; split <;> simp [ih]
@[simp] theorem Hub.drainSlots_cyc (p : Nat) (h : Hub) (l : List AlarmSlot) : (Hub.drainSlots p h l).cyc = h.cyc := by
  induction l generalizing h with
  | nil => simp [Hub.drainSlots]
  | cons s t ih => unfold Hub.drainSlots; split <;> simp [ih]
@[simp] theorem Hub.drainSlots_asleep (p : Nat) (h : Hub) (l : List AlarmSlot) : (Hub.drainSlots p h l).asleep = h.asleep := by
  induction l generalizing h with
  | nil => simp [Hub.drainSlots]
  | cons s t ih => unfold Hub.drainSlots; split <;> simp [ih]
@[simp] theorem Hub.drainSlots_free (p : Nat) (h : Hub) (l : List AlarmSlot) : (Hub.drainSlots p h l).free = h.free := by
  induction l generalizing h with
  | nil => simp [Hub.drainSlots]
  | cons s t ih => unfold Hub.drainSlots; split <;> simp [ih]
theorem Hub.drainSlots_reg (p : Nat) (h : Hub) (l : List AlarmSlot) {a : Nat} (hp : p < 3)
    (ha : a < 0x1F8000 ∨ 0x1F9000 ≤ a) : (Hub.drainSlots p h l).reg a = h.reg a := by
  induction l generalizing h with
  | nil => exact Hub.setPend_reg _ _ _ hp ha
  | cons s t ih =>
    unfold Hub.drainSlots
    split
    · rw [ih, Hub.pathSend_reg _ _ _ ha]
    · exact Hub.setPend_reg _ _ _ hp ha

/-! ### `Hub.drainPaths` -/

@[simp] theorem Hub.drainPaths_cells (h : Hub) : (h.drainPaths).cells = h.cells := by
  unfold Hub.drainPaths; (try dsimp only); (repeat' split) <;> simp
@[simp] theorem Hub.drainPaths_clk (h : Hub) : (h.drainPaths).clk = h.clk := by
  unfold Hub.drainPaths; (try dsimp only); (repeat' split) <;> simp
@[simp] theorem Hub.drainPaths_ldr (h : Hub) : (h.drainPaths).ldr = h.ldr := by
  unfold Hub.drainPaths; (try dsimp only); (repeat' split) <;> simp
@[simp] theorem Hub.drainPaths_host (h : Hub) : (h.drainPaths).host = h.host := by
  unfold Hub.drainPaths; (try dsimp only); (repeat' split) <;> simp
@[simp] theorem Hub.drainPaths_sp (h : Hub) : (h.drainPaths).sp = h.sp := by
  unfold Hub.drainPaths; (try dsimp only); (repeat' split) <;> simp
@[simp] theorem Hub.drainPaths_tw (h : Hub) : (h.drainPaths).tw = h.tw := by
  unfold Hub.drainPaths; (try dsimp only); (repeat' split) <;> simp
@[simp] theorem Hub.drainPaths_ingress (h : Hub) : (h.drainPaths).ingress = h.ingress := by
  unfold Hub.drainPaths; (try dsimp only); (repeat' split) <;> simp
@[simp] theorem Hub.drainPaths_ctx (h : Hub) : (h.drainPaths).ctx = h.ctx := by
  unfold Hub.drainPaths; (try dsimp only); (repeat' split) <;> simp
@[simp] theorem Hub.drainPaths_stg (h : Hub) : (h.drainPaths).stg = h.stg := by
  unfold Hub.drainPaths; (try dsimp only); (repeat' split) <;> simp
@[simp] theorem Hub.drainPaths_tile (h : Hub) : (h.drainPaths).tile = h.tile := by
  unfold Hub.drainPaths; (try dsimp only); (repeat' split) <;> simp
@[simp] theorem Hub.drainPaths_ev (h : Hub) : (h.drainPaths).ev = h.ev := by
  unfold Hub.drainPaths; (try dsimp only); (repeat' split) <;> simp
@[simp] theorem Hub.drainPaths_evSeen (h : Hub) : (h.drainPaths).evSeen = h.evSeen := by
  unfold Hub.drainPaths; (try dsimp only); (repeat' split) <;> simp
@[simp] theorem Hub.drainPaths_q (h : Hub) : (h.drainPaths).q = h.q := by
  unfold Hub.drainPaths; (try dsimp only); (repeat' split) <;> simp
@[simp] theorem Hub.drainPaths_stock (h : Hub) : (h.drainPaths).stock = h.stock := by
  unfold Hub.drainPaths; (try dsimp only); (repeat' split) <;> simp
@[simp] theorem Hub.drainPaths_stockFill (h : Hub) : (h.drainPaths).stockFill = h.stockFill := by
  unfold Hub.drainPaths; (try dsimp only); (repeat' split) <;> simp
@[simp] theorem Hub.drainPaths_dbgHeld (h : Hub) : (h.drainPaths).dbgHeld = h.dbgHeld := by
  unfold Hub.drainPaths; (try dsimp only); (repeat' split) <;> simp
@[simp] theorem Hub.drainPaths_ring (h : Hub) : (h.drainPaths).ring = h.ring := by
  unfold Hub.drainPaths; (try dsimp only); (repeat' split) <;> simp
@[simp] theorem Hub.drainPaths_tb (h : Hub) : (h.drainPaths).tb = h.tb := by
  unfold Hub.drainPaths; (try dsimp only); (repeat' split) <;> simp
@[simp] theorem Hub.drainPaths_trig (h : Hub) : (h.drainPaths).trig = h.trig := by
  unfold Hub.drainPaths; (try dsimp only); (repeat' split) <;> simp
@[simp] theorem Hub.drainPaths_trg (h : Hub) : (h.drainPaths).trg = h.trg := by
  unfold Hub.drainPaths; (try dsimp only); (repeat' split) <;> simp
@[simp] theorem Hub.drainPaths_tach (h : Hub) : (h.drainPaths).tach = h.tach := by
  unfold Hub.drainPaths; (try dsimp only); (repeat' split) <;> simp
@[simp] theorem Hub.drainPaths_kt (h : Hub) : (h.drainPaths).kt = h.kt := by
  unfold Hub.drainPaths; (try dsimp only); (repeat' split) <;> simp
@[simp] theorem Hub.drainPaths_job (h : Hub) : (h.drainPaths).job = h.job := by
  unfold Hub.drainPaths; (try dsimp only); (repeat' split) <;> simp
@[simp] theorem Hub.drainPaths_spc (h : Hub) : (h.drainPaths).spc = h.spc := by
  unfold Hub.drainPaths; (try dsimp only); (repeat' split) <;> simp
@[simp] theorem Hub.drainPaths_fea (h : Hub) : (h.drainPaths).fea = h.fea := by
  unfold Hub.drainPaths; (try dsimp only); (repeat' split) <;> simp
@[simp] theorem Hub.drainPaths_lim (h : Hub) : (h.drainPaths).lim = h.lim := by
  unfold Hub.drainPaths; (try dsimp only); (repeat' split) <;> simp
@[simp] theorem Hub.drainPaths_cas (h : Hub) : (h.drainPaths).cas = h.cas := by
  unfold Hub.drainPaths; (try dsimp only); (repeat' split) <;> simp
@[simp] theorem Hub.drainPaths_rad (h : Hub) : (h.drainPaths).rad = h.rad := by
  unfold Hub.drainPaths; (try dsimp only); (repeat' split) <;> simp
@[simp] theorem Hub.drainPaths_hlt (h : Hub) : (h.drainPaths).hlt = h.hlt := by
  unfold Hub.drainPaths; (try dsimp only); (repeat' split) <;> simp
@[simp] theorem Hub.drainPaths_sup (h : Hub) : (h.drainPaths).sup = h.sup := by
  unfold Hub.drainPaths; (try dsimp only); (repeat' split) <;> simp
@[simp] theorem Hub.drainPaths_tbMet (h : Hub) : (h.drainPaths).tbMet = h.tbMet := by
  unfold Hub.drainPaths; (try dsimp only); (repeat' split) <;> simp
@[simp] theorem Hub.drainPaths_metFollows (h : Hub) : (h.drainPaths).metFollows = h.metFollows := by
  unfold Hub.drainPaths; (try dsimp only); (repeat' split) <;> simp
@[simp] theorem Hub.drainPaths_metFifo (h : Hub) : (h.drainPaths).metFifo = h.metFifo := by
  unfold Hub.drainPaths; (try dsimp only); (repeat' split) <;> simp
@[simp] theorem Hub.drainPaths_metGap (h : Hub) : (h.drainPaths).metGap = h.metGap := by
  unfold Hub.drainPaths; (try dsimp only); (repeat' split) <;> simp
@[simp] theorem Hub.drainPaths_cyc (h : Hub) : (h.drainPaths).cyc = h.cyc := by
  unfold Hub.drainPaths; (try dsimp only); (repeat' split) <;> simp
@[simp] theorem Hub.drainPaths_asleep (h : Hub) : (h.drainPaths).asleep = h.asleep := by
  unfold Hub.drainPaths; (try dsimp only); (repeat' split) <;> simp
@[simp] theorem Hub.drainPaths_free (h : Hub) : (h.drainPaths).free = h.free := by
  unfold Hub.drainPaths; (try dsimp only); (repeat' split) <;> simp
@[simp] theorem Hub.drainPaths_cell (h : Hub) (i j k : Nat) : (h.drainPaths).cell i j k = h.cell i j k := by
  unfold Hub.cell; rw [Hub.drainPaths_cells]
@[simp] theorem Hub.drainPaths_cf (h : Hub) (i j k lo len : Nat) : (h.drainPaths).cf i j k lo len = h.cf i j k lo len := by
  unfold Hub.cf; rw [Hub.drainPaths_cell]
theorem Hub.drainPaths_reg (h : Hub) {a : Nat} (ha : a < 0x1F8000 ∨ 0x1F9000 ≤ a) : (h.drainPaths).reg a = h.reg a := by
  unfold Hub.drainPaths
  simp only []
  rw [Hub.sendUpSuppressed_reg _ ha, Hub.sendSuppressed_reg _ ha]
  split
  · split
    · rfl
    · exact Hub.drainSlots_reg _ _ _ (by omega) ha
  · split
    · exact Hub.drainSlots_reg _ _ _ (by omega) ha
    · rw [Hub.drainSlots_reg _ _ _ (by omega) ha, Hub.drainSlots_reg _ _ _ (by omega) ha]
theorem Hub.drainPaths_rd (h : Hub) {f : Fld} (ha : f.addr < 0x1F8000 ∨ 0x1F9000 ≤ f.addr) : (h.drainPaths).rd f = h.rd f :=
  Hub.rd_congr (Hub.drainPaths_reg h  ha)
theorem Hub.drainPaths_is (h : Hub) {f : Fld} (ha : f.addr < 0x1F8000 ∨ 0x1F9000 ≤ f.addr) : (h.drainPaths).is f = h.is f :=
  Hub.is_congr (Hub.drainPaths_rd h  ha)

/-! ### `Hub.rearmThr` -/

@[simp] theorem Hub.rearmThr_regs (h : Hub) (q : Nat) : (h.rearmThr q).regs = h.regs := by
  unfold Hub.rearmThr; (try dsimp only); (repeat' split) <;> simp
@[simp] theorem Hub.rearmThr_cells (h : Hub) (q : Nat) : (h.rearmThr q).cells = h.cells := by
  unfold Hub.rearmThr; (try dsimp only); (repeat' split) <;> simp
@[simp] theorem Hub.rearmThr_clk (h : Hub) (q : Nat) : (h.rearmThr q).clk = h.clk := by
  unfold Hub.rearmThr; (try dsimp only); (repeat' split) <;> simp
@[simp] theorem Hub.rearmThr_ldr (h : Hub) (q : Nat) : (h.rearmThr q).ldr = h.ldr := by
  unfold Hub.rearmThr; (try dsimp only); (repeat' split) <;> simp
@[simp] theorem Hub.rearmThr_host (h : Hub) (q : Nat) : (h.rearmThr q).host = h.host := by
  unfold Hub.rearmThr; (try dsimp only); (repeat' split) <;> simp
@[simp] theorem Hub.rearmThr_sp (h : Hub) (q : Nat) : (h.rearmThr q).sp = h.sp := by
  unfold Hub.rearmThr; (try dsimp only); (repeat' split) <;> simp
@[simp] theorem Hub.rearmThr_tw (h : Hub) (q : Nat) : (h.rearmThr q).tw = h.tw := by
  unfold Hub.rearmThr; (try dsimp only); (repeat' split) <;> simp
@[simp] theorem Hub.rearmThr_ingress (h : Hub) (q : Nat) : (h.rearmThr q).ingress = h.ingress := by
  unfold Hub.rearmThr; (try dsimp only); (repeat' split) <;> simp
@[simp] theorem Hub.rearmThr_ctx (h : Hub) (q : Nat) : (h.rearmThr q).ctx = h.ctx := by
  unfold Hub.rearmThr; (try dsimp only); (repeat' split) <;> simp
@[simp] theorem Hub.rearmThr_stg (h : Hub) (q : Nat) : (h.rearmThr q).stg = h.stg := by
  unfold Hub.rearmThr; (try dsimp only); (repeat' split) <;> simp
@[simp] theorem Hub.rearmThr_tile (h : Hub) (q : Nat) : (h.rearmThr q).tile = h.tile := by
  unfold Hub.rearmThr; (try dsimp only); (repeat' split) <;> simp
@[simp] theorem Hub.rearmThr_ev (h : Hub) (q : Nat) : (h.rearmThr q).ev = h.ev := by
  unfold Hub.rearmThr; (try dsimp only); (repeat' split) <;> simp
@[simp] theorem Hub.rearmThr_evSeen (h : Hub) (q : Nat) : (h.rearmThr q).evSeen = h.evSeen := by
  unfold Hub.rearmThr; (try dsimp only); (repeat' split) <;> simp
@[simp] theorem Hub.rearmThr_stock (h : Hub) (q : Nat) : (h.rearmThr q).stock = h.stock := by
  unfold Hub.rearmThr; (try dsimp only); (repeat' split) <;> simp
@[simp] theorem Hub.rearmThr_stockFill (h : Hub) (q : Nat) : (h.rearmThr q).stockFill = h.stockFill := by
  unfold Hub.rearmThr; (try dsimp only); (repeat' split) <;> simp
@[simp] theorem Hub.rearmThr_dbgHeld (h : Hub) (q : Nat) : (h.rearmThr q).dbgHeld = h.dbgHeld := by
  unfold Hub.rearmThr; (try dsimp only); (repeat' split) <;> simp
@[simp] theorem Hub.rearmThr_ring (h : Hub) (q : Nat) : (h.rearmThr q).ring = h.ring := by
  unfold Hub.rearmThr; (try dsimp only); (repeat' split) <;> simp
@[simp] theorem Hub.rearmThr_outbox (h : Hub) (q : Nat) : (h.rearmThr q).outbox = h.outbox := by
  unfold Hub.rearmThr; (try dsimp only); (repeat' split) <;> simp
@[simp] theorem Hub.rearmThr_tb (h : Hub) (q : Nat) : (h.rearmThr q).tb = h.tb := by
  unfold Hub.rearmThr; (try dsimp only); (repeat' split) <;> simp
@[simp] theorem Hub.rearmThr_trig (h : Hub) (q : Nat) : (h.rearmThr q).trig = h.trig := by
  unfold Hub.rearmThr; (try dsimp only); (repeat' split) <;> simp
@[simp] theorem Hub.rearmThr_trg (h : Hub) (q : Nat) : (h.rearmThr q).trg = h.trg := by
  unfold Hub.rearmThr; (try dsimp only); (repeat' split) <;> simp
@[simp] theorem Hub.rearmThr_tach (h : Hub) (q : Nat) : (h.rearmThr q).tach = h.tach := by
  unfold Hub.rearmThr; (try dsimp only); (repeat' split) <;> simp
@[simp] theorem Hub.rearmThr_kt (h : Hub) (q : Nat) : (h.rearmThr q).kt = h.kt := by
  unfold Hub.rearmThr; (try dsimp only); (repeat' split) <;> simp
@[simp] theorem Hub.rearmThr_flt (h : Hub) (q : Nat) : (h.rearmThr q).flt = h.flt := by
  unfold Hub.rearmThr; (try dsimp only); (repeat' split) <;> simp
@[simp] theorem Hub.rearmThr_job (h : Hub) (q : Nat) : (h.rearmThr q).job = h.job := by
  unfold Hub.rearmThr; (try dsimp only); (repeat' split) <;> simp
@[simp] theorem Hub.rearmThr_spc (h : Hub) (q : Nat) : (h.rearmThr q).spc = h.spc := by
  unfold Hub.rearmThr; (try dsimp only); (repeat' split) <;> simp
@[simp] theorem Hub.rearmThr_fea (h : Hub) (q : Nat) : (h.rearmThr q).fea = h.fea := by
  unfold Hub.rearmThr; (try dsimp only); (repeat' split) <;> simp
@[simp] theorem Hub.rearmThr_lim (h : Hub) (q : Nat) : (h.rearmThr q).lim = h.lim := by
  unfold Hub.rearmThr; (try dsimp only); (repeat' split) <;> simp
@[simp] theorem Hub.rearmThr_link (h : Hub) (q : Nat) : (h.rearmThr q).link = h.link := by
  unfold Hub.rearmThr; (try dsimp only); (repeat' split) <;> simp
@[simp] theorem Hub.rearmThr_cas (h : Hub) (q : Nat) : (h.rearmThr q).cas = h.cas := by
  unfold Hub.rearmThr; (try dsimp only); (repeat' split) <;> simp
@[simp] theorem Hub.rearmThr_rad (h : Hub) (q : Nat) : (h.rearmThr q).rad = h.rad := by
  unfold Hub.rearmThr; (try dsimp only); (repeat' split) <;> simp
@[simp] theorem Hub.rearmThr_hlt (h : Hub) (q : Nat) : (h.rearmThr q).hlt = h.hlt := by
  unfold Hub.rearmThr; (try dsimp only); (repeat' split) <;> simp
@[simp] theorem Hub.rearmThr_sup (h : Hub) (q : Nat) : (h.rearmThr q).sup = h.sup := by
  unfold Hub.rearmThr; (try dsimp only); (repeat' split) <;> simp
@[simp] theorem Hub.rearmThr_tbMet (h : Hub) (q : Nat) : (h.rearmThr q).tbMet = h.tbMet := by
  unfold Hub.rearmThr; (try dsimp only); (repeat' split) <;> simp
@[simp] theorem Hub.rearmThr_metFollows (h : Hub) (q : Nat) : (h.rearmThr q).metFollows = h.metFollows := by
  unfold Hub.rearmThr; (try dsimp only); (repeat' split) <;> simp
@[simp] theorem Hub.rearmThr_metFifo (h : Hub) (q : Nat) : (h.rearmThr q).metFifo = h.metFifo := by
  unfold Hub.rearmThr; (try dsimp only); (repeat' split) <;> simp
@[simp] theorem Hub.rearmThr_metGap (h : Hub) (q : Nat) : (h.rearmThr q).metGap = h.metGap := by
  unfold Hub.rearmThr; (try dsimp only); (repeat' split) <;> simp
@[simp] theorem Hub.rearmThr_cyc (h : Hub) (q : Nat) : (h.rearmThr q).cyc = h.cyc := by
  unfold Hub.rearmThr; (try dsimp only); (repeat' split) <;> simp
@[simp] theorem Hub.rearmThr_asleep (h : Hub) (q : Nat) : (h.rearmThr q).asleep = h.asleep := by
  unfold Hub.rearmThr; (try dsimp only); (repeat' split) <;> simp
@[simp] theorem Hub.rearmThr_free (h : Hub) (q : Nat) : (h.rearmThr q).free = h.free := by
  unfold Hub.rearmThr; (try dsimp only); (repeat' split) <;> simp
@[simp] theorem Hub.rearmThr_cell (h : Hub) (q : Nat) (i j k : Nat) : (h.rearmThr q).cell i j k = h.cell i j k := by
  unfold Hub.cell; rw [Hub.rearmThr_cells]
@[simp] theorem Hub.rearmThr_cf (h : Hub) (q : Nat) (i j k lo len : Nat) : (h.rearmThr q).cf i j k lo len = h.cf i j k lo len := by
  unfold Hub.cf; rw [Hub.rearmThr_cell]
@[simp] theorem Hub.rearmThr_reg (h : Hub) (q : Nat) (a : Nat) : (h.rearmThr q).reg a = h.reg a := by
  unfold Hub.reg; rw [Hub.rearmThr_regs]
@[simp] theorem Hub.rearmThr_rd (h : Hub) (q : Nat) (f : Fld) : (h.rearmThr q).rd f = h.rd f := by
  unfold Hub.rd; rw [Hub.rearmThr_reg]
@[simp] theorem Hub.rearmThr_is (h : Hub) (q : Nat) (f : Fld) : (h.rearmThr q).is f = h.is f := by
  unfold Hub.is; rw [Hub.rearmThr_rd]

/-! ### `Hub.headLeave` -/

@[simp] theorem Hub.headLeave_regs (h : Hub) (q : Nat) (w : QWord) : (h.headLeave q w).regs = h.regs := by
  unfold Hub.headLeave; (try dsimp only); (repeat' split) <;> simp
@[simp] theorem Hub.headLeave_cells (h : Hub) (q : Nat) (w : QWord) : (h.headLeave q w).cells = h.cells := by
  unfold Hub.headLeave; (try dsimp only); (repeat' split) <;> simp
@[simp] theorem Hub.headLeave_clk (h : Hub) (q : Nat) (w : QWord) : (h.headLeave q w).clk = h.clk := by
  unfold Hub.headLeave; (try dsimp only); (repeat' split) <;> simp
@[simp] theorem Hub.headLeave_ldr (h : Hub) (q : Nat) (w : QWord) : (h.headLeave q w).ldr = h.ldr := by
  unfold Hub.headLeave; (try dsimp only); (repeat' split) <;> simp
@[simp] theorem Hub.headLeave_host (h : Hub) (q : Nat) (w : QWord) : (h.headLeave q w).host = h.host := by
  unfold Hub.headLeave; (try dsimp only); (repeat' split) <;> simp
@[simp] theorem Hub.headLeave_sp (h : Hub) (q : Nat) (w : QWord) : (h.headLeave q w).sp = h.sp := by
  unfold Hub.headLeave; (try dsimp only); (repeat' split) <;> simp
@[simp] theorem Hub.headLeave_tw (h : Hub) (q : Nat) (w : QWord) : (h.headLeave q w).tw = h.tw := by
  unfold Hub.headLeave; (try dsimp only); (repeat' split) <;> simp
@[simp] theorem Hub.headLeave_ingress (h : Hub) (q : Nat) (w : QWord) : (h.headLeave q w).ingress = h.ingress := by
  unfold Hub.headLeave; (try dsimp only); (repeat' split) <;> simp
@[simp] theorem Hub.headLeave_stg (h : Hub) (q : Nat) (w : QWord) : (h.headLeave q w).stg = h.stg := by
  unfold Hub.headLeave; (try dsimp only); (repeat' split) <;> simp
@[simp] theorem Hub.headLeave_tile (h : Hub) (q : Nat) (w : QWord) : (h.headLeave q w).tile = h.tile := by
  unfold Hub.headLeave; (try dsimp only); (repeat' split) <;> simp
@[simp] theorem Hub.headLeave_ev (h : Hub) (q : Nat) (w : QWord) : (h.headLeave q w).ev = h.ev := by
  unfold Hub.headLeave; (try dsimp only); (repeat' split) <;> simp
@[simp] theorem Hub.headLeave_evSeen (h : Hub) (q : Nat) (w : QWord) : (h.headLeave q w).evSeen = h.evSeen := by
  unfold Hub.headLeave; (try dsimp only); (repeat' split) <;> simp
@[simp] theorem Hub.headLeave_q (h : Hub) (q : Nat) (w : QWord) : (h.headLeave q w).q = h.q := by
  unfold Hub.headLeave; (try dsimp only); (repeat' split) <;> simp
@[simp] theorem Hub.headLeave_stock (h : Hub) (q : Nat) (w : QWord) : (h.headLeave q w).stock = h.stock := by
  unfold Hub.headLeave; (try dsimp only); (repeat' split) <;> simp
@[simp] theorem Hub.headLeave_stockFill (h : Hub) (q : Nat) (w : QWord) : (h.headLeave q w).stockFill = h.stockFill := by
  unfold Hub.headLeave; (try dsimp only); (repeat' split) <;> simp
@[simp] theorem Hub.headLeave_dbgHeld (h : Hub) (q : Nat) (w : QWord) : (h.headLeave q w).dbgHeld = h.dbgHeld := by
  unfold Hub.headLeave; (try dsimp only); (repeat' split) <;> simp
@[simp] theorem Hub.headLeave_ring (h : Hub) (q : Nat) (w : QWord) : (h.headLeave q w).ring = h.ring := by
  unfold Hub.headLeave; (try dsimp only); (repeat' split) <;> simp
@[simp] theorem Hub.headLeave_outbox (h : Hub) (q : Nat) (w : QWord) : (h.headLeave q w).outbox = h.outbox := by
  unfold Hub.headLeave; (try dsimp only); (repeat' split) <;> simp
@[simp] theorem Hub.headLeave_tb (h : Hub) (q : Nat) (w : QWord) : (h.headLeave q w).tb = h.tb := by
  unfold Hub.headLeave; (try dsimp only); (repeat' split) <;> simp
@[simp] theorem Hub.headLeave_trig (h : Hub) (q : Nat) (w : QWord) : (h.headLeave q w).trig = h.trig := by
  unfold Hub.headLeave; (try dsimp only); (repeat' split) <;> simp
@[simp] theorem Hub.headLeave_trg (h : Hub) (q : Nat) (w : QWord) : (h.headLeave q w).trg = h.trg := by
  unfold Hub.headLeave; (try dsimp only); (repeat' split) <;> simp
@[simp] theorem Hub.headLeave_tach (h : Hub) (q : Nat) (w : QWord) : (h.headLeave q w).tach = h.tach := by
  unfold Hub.headLeave; (try dsimp only); (repeat' split) <;> simp
@[simp] theorem Hub.headLeave_kt (h : Hub) (q : Nat) (w : QWord) : (h.headLeave q w).kt = h.kt := by
  unfold Hub.headLeave; (try dsimp only); (repeat' split) <;> simp
@[simp] theorem Hub.headLeave_flt (h : Hub) (q : Nat) (w : QWord) : (h.headLeave q w).flt = h.flt := by
  unfold Hub.headLeave; (try dsimp only); (repeat' split) <;> simp
@[simp] theorem Hub.headLeave_job (h : Hub) (q : Nat) (w : QWord) : (h.headLeave q w).job = h.job := by
  unfold Hub.headLeave; (try dsimp only); (repeat' split) <;> simp
@[simp] theorem Hub.headLeave_spc (h : Hub) (q : Nat) (w : QWord) : (h.headLeave q w).spc = h.spc := by
  unfold Hub.headLeave; (try dsimp only); (repeat' split) <;> simp
@[simp] theorem Hub.headLeave_fea (h : Hub) (q : Nat) (w : QWord) : (h.headLeave q w).fea = h.fea := by
  unfold Hub.headLeave; (try dsimp only); (repeat' split) <;> simp
@[simp] theorem Hub.headLeave_lim (h : Hub) (q : Nat) (w : QWord) : (h.headLeave q w).lim = h.lim := by
  unfold Hub.headLeave; (try dsimp only); (repeat' split) <;> simp
@[simp] theorem Hub.headLeave_link (h : Hub) (q : Nat) (w : QWord) : (h.headLeave q w).link = h.link := by
  unfold Hub.headLeave; (try dsimp only); (repeat' split) <;> simp
@[simp] theorem Hub.headLeave_cas (h : Hub) (q : Nat) (w : QWord) : (h.headLeave q w).cas = h.cas := by
  unfold Hub.headLeave; (try dsimp only); (repeat' split) <;> simp
@[simp] theorem Hub.headLeave_rad (h : Hub) (q : Nat) (w : QWord) : (h.headLeave q w).rad = h.rad := by
  unfold Hub.headLeave; (try dsimp only); (repeat' split) <;> simp
@[simp] theorem Hub.headLeave_hlt (h : Hub) (q : Nat) (w : QWord) : (h.headLeave q w).hlt = h.hlt := by
  unfold Hub.headLeave; (try dsimp only); (repeat' split) <;> simp
@[simp] theorem Hub.headLeave_sup (h : Hub) (q : Nat) (w : QWord) : (h.headLeave q w).sup = h.sup := by
  unfold Hub.headLeave; (try dsimp only); (repeat' split) <;> simp
@[simp] theorem Hub.headLeave_tbMet (h : Hub) (q : Nat) (w : QWord) : (h.headLeave q w).tbMet = h.tbMet := by
  unfold Hub.headLeave; (try dsimp only); (repeat' split) <;> simp
@[simp] theorem Hub.headLeave_metFollows (h : Hub) (q : Nat) (w : QWord) : (h.headLeave q w).metFollows = h.metFollows := by
  unfold Hub.headLeave; (try dsimp only); (repeat' split) <;> simp
@[simp] theorem Hub.headLeave_metFifo (h : Hub) (q : Nat) (w : QWord) : (h.headLeave q w).metFifo = h.metFifo := by
  unfold Hub.headLeave; (try dsimp only); (repeat' split) <;> simp
@[simp] theorem Hub.headLeave_metGap (h : Hub) (q : Nat) (w : QWord) : (h.headLeave q w).metGap = h.metGap := by
  unfold Hub.headLeave; (try dsimp only); (repeat' split) <;> simp
@[simp] theorem Hub.headLeave_cyc (h : Hub) (q : Nat) (w : QWord) : (h.headLeave q w).cyc = h.cyc := by
  unfold Hub.headLeave; (try dsimp only); (repeat' split) <;> simp
@[simp] theorem Hub.headLeave_asleep (h : Hub) (q : Nat) (w : QWord) : (h.headLeave q w).asleep = h.asleep := by
  unfold Hub.headLeave; (try dsimp only); (repeat' split) <;> simp
@[simp] theorem Hub.headLeave_free (h : Hub) (q : Nat) (w : QWord) : (h.headLeave q w).free = h.free := by
  unfold Hub.headLeave; (try dsimp only); (repeat' split) <;> simp
@[simp] theorem Hub.headLeave_cell (h : Hub) (q : Nat) (w : QWord) (i j k : Nat) : (h.headLeave q w).cell i j k = h.cell i j k := by
  unfold Hub.cell; rw [Hub.headLeave_cells]
@[simp] theorem Hub.headLeave_cf (h : Hub) (q : Nat) (w : QWord) (i j k lo len : Nat) : (h.headLeave q w).cf i j k lo len = h.cf i j k lo len := by
  unfold Hub.cf; rw [Hub.headLeave_cell]
@[simp] theorem Hub.headLeave_reg (h : Hub) (q : Nat) (w : QWord) (a : Nat) : (h.headLeave q w).reg a = h.reg a := by
  unfold Hub.reg; rw [Hub.headLeave_regs]
@[simp] theorem Hub.headLeave_rd (h : Hub) (q : Nat) (w : QWord) (f : Fld) : (h.headLeave q w).rd f = h.rd f := by
  unfold Hub.rd; rw [Hub.headLeave_reg]
@[simp] theorem Hub.headLeave_is (h : Hub) (q : Nat) (w : QWord) (f : Fld) : (h.headLeave q w).is f = h.is f := by
  unfold Hub.is; rw [Hub.headLeave_rd]

/-! ### `Hub.qPop` -/

theorem Hub.qPop_some {h h1 : Hub} {q : Nat} {w : QWord} (e : h.qPop q = some (w, h1)) :
    ∃ x : Queue, h1 = ((({ h with q := NMap.set h.q q x } : Hub).headLeave q w).rearmThr q) := by
  unfold Hub.qPop at e
  dsimp only at e
  split at e
  · obtain ⟨rfl, rfl⟩ := Prod.mk.inj (Option.some.inj e); exact ⟨_, rfl⟩
  · cases e

theorem Hub.qPop_regs {h h1 : Hub} {q : Nat} {w : QWord} (e : h.qPop q = some (w, h1)) : h1.regs = h.regs := by
  obtain ⟨x, rfl⟩ := Hub.qPop_some e; simp

/-! ### What moves on behind queues, buckets and links (R350, R450 to R452) -/

/-- `g` is `h` but for registers, producers' words, pending alarms and logs, links, landing, queues and contexts' digests. -/
def Hub.onlyPaths (h g : Hub) : Prop :=
  g = { h with
    regs := g.regs, outbox := g.outbox, flt := g.flt, link := g.link, cas := g.cas, q := g.q, ctx := g.ctx }

theorem Hub.onlyPaths_refl (h : Hub) : h.onlyPaths h := rfl

theorem Hub.onlyPaths_intro {h g : Hub}
    (e_cells : g.cells = h.cells)
    (e_clk : g.clk = h.clk)
    (e_ldr : g.ldr = h.ldr)
    (e_host : g.host = h.host)
    (e_sp : g.sp = h.sp)
    (e_tw : g.tw = h.tw)
    (e_ingress : g.ingress = h.ingress)
    (e_stg : g.stg = h.stg)
    (e_tile : g.tile = h.tile)
    (e_ev : g.ev = h.ev)
    (e_evSeen : g.evSeen = h.evSeen)
    (e_stock : g.stock = h.stock)
    (e_stockFill : g.stockFill = h.stockFill)
    (e_dbgHeld : g.dbgHeld = h.dbgHeld)
    (e_ring : g.ring = h.ring)
    (e_tb : g.tb = h.tb)
    (e_trig : g.trig = h.trig)
    (e_trg : g.trg = h.trg)
    (e_tach : g.tach = h.tach)
    (e_kt : g.kt = h.kt)
    (e_job : g.job = h.job)
    (e_spc : g.spc = h.spc)
    (e_fea : g.fea = h.fea)
    (e_lim : g.lim = h.lim)
    (e_rad : g.rad = h.rad)
    (e_hlt : g.hlt = h.hlt)
    (e_sup : g.sup = h.sup)
    (e_tbMet : g.tbMet = h.tbMet)
    (e_metFollows : g.metFollows = h.metFollows)
    (e_metFifo : g.metFifo = h.metFifo)
    (e_metGap : g.metGap = h.metGap)
    (e_cyc : g.cyc = h.cyc)
    (e_asleep : g.asleep = h.asleep)
    (e_free : g.free = h.free) : h.onlyPaths g := by
  cases h; cases g
  simp only at e_cells e_clk e_ldr e_host e_sp e_tw e_ingress e_stg e_tile e_ev e_evSeen e_stock e_stockFill e_dbgHeld e_ring e_tb e_trig e_trg e_tach e_kt e_job e_spc e_fea e_lim e_rad e_hlt e_sup e_tbMet e_metFollows e_metFifo e_metGap e_cyc e_asleep e_free
  subst e_cells e_clk e_ldr e_host e_sp e_tw e_ingress e_stg e_tile e_ev e_evSeen e_stock e_stockFill e_dbgHeld e_ring e_tb e_trig e_trg e_tach e_kt e_job e_spc e_fea e_lim e_rad e_hlt e_sup e_tbMet e_metFollows e_metFifo e_metGap e_cyc e_asleep e_free
  rfl

theorem Hub.onlyPaths_trans {h g k : Hub} (a : h.onlyPaths g) (b : g.onlyPaths k) : h.onlyPaths k := by
  apply Hub.onlyPaths_intro <;> (rw [b]; dsimp only; rw [a])

theorem Hub.log_onlyPaths (h : Hub) (typ src code scope unit : Nat) (d7 d8 : Word) : h.onlyPaths (h.log typ src code scope unit d7 d8) := by
  apply Hub.onlyPaths_intro <;> simp

theorem Hub.pushOut_onlyPaths (h : Hub) (p q : Nat) (l : List QWord) : h.onlyPaths (h.pushOut p q l) := by
  apply Hub.onlyPaths_intro <;> simp

theorem Hub.modCas_onlyPaths (h : Hub) (f : Cas → Cas) : h.onlyPaths (h.modCas f) := by
  apply Hub.onlyPaths_intro <;> simp

theorem Hub.modLk_onlyPaths (h : Hub) (p : Nat) (f : Link → Link) : h.onlyPaths (h.modLk p f) := by
  apply Hub.onlyPaths_intro <;> simp

theorem Hub.release_onlyPaths (h : Hub) (p cls n : Nat) : h.onlyPaths (h.release p cls n) := by
  apply Hub.onlyPaths_intro <;> simp

theorem Hub.on_onlyPaths (h : Hub) (f : Fld) : h.onlyPaths (h.on f) := by
  apply Hub.onlyPaths_intro <;> simp

theorem Hub.alarmTo_onlyPaths (h : Hub) (p : Nat) (s : AlarmSlot) : h.onlyPaths (h.alarmTo p s) := by
  apply Hub.onlyPaths_intro <;> simp

theorem Hub.drainPaths_onlyPaths (h : Hub)  : h.onlyPaths (h.drainPaths) := by
  apply Hub.onlyPaths_intro <;> simp

theorem Hub.qPop_onlyPaths {h h1 : Hub} {q : Nat} {w : QWord} (e : h.qPop q = some (w, h1)) : h.onlyPaths h1 := by
  obtain ⟨x, rfl⟩ := Hub.qPop_some e
  apply Hub.onlyPaths_intro <;> simp

theorem Hub.landWords_onlyPaths (i dev q : Nat) (h : Hub) (l : List QWord) : h.onlyPaths (Hub.landWords i dev q h l) := by
  induction l generalizing h with
  | nil => exact Hub.onlyPaths_refl h
  | cons w t ih =>
    unfold Hub.landWords
    dsimp only
    split
    · split
      · exact Hub.onlyPaths_trans (h.modCas_onlyPaths _) (ih _)
      · exact Hub.onlyPaths_trans (Hub.onlyPaths_trans (h.pushOut_onlyPaths _ _ _) (Hub.modCas_onlyPaths _ _)) (ih _)
    · split
      · exact Hub.onlyPaths_trans (Hub.onlyPaths_trans (Hub.onlyPaths_trans (h.on_onlyPaths _) (Hub.log_onlyPaths _ _ _ _ _ _ _ _))
          (Hub.modCas_onlyPaths _ _)) (ih _)
      · refine Hub.onlyPaths_trans (Hub.onlyPaths_trans ?_ (Hub.onlyPaths_trans (Hub.modCas_onlyPaths _ _)
          (Hub.onlyPaths_trans (Hub.pushOut_onlyPaths _ _ _ _) (Hub.modCas_onlyPaths _ _)))) (ih _)
        split
        · exact h.pushOut_onlyPaths _ _ _
        · exact Hub.onlyPaths_refl h

theorem Hub.landWords_reg (i dev q : Nat) (h : Hub) (l : List QWord) {a : Nat}
    (ha : a ≠ 0x1D0310 ∧ (a < 0x1F8000 ∨ 0x1F9000 ≤ a)) : (Hub.landWords i dev q h l).reg a = h.reg a := by
  induction l generalizing h with
  | nil => rfl
  | cons w t ih =>
    unfold Hub.landWords
    dsimp only
    split
    · split <;> rw [ih] <;> simp
    · split
      · rw [ih, Hub.modCas_reg, Hub.log_reg _ _ _ _ _ _ _ _ ha.2,
          Hub.reg_on_ne _ _ (by simp only [fCasStatusLandingMiss, rCasStatus]; omega)]
      · rw [ih]
        simp only [Hub.modCas_reg, Hub.pushOut_reg]
        split <;> simp

theorem Hub.landRx_onlyPaths (p n : Nat) (h : Hub) : h.onlyPaths (Hub.landRx p n h) := by
  induction n generalizing h with
  | zero => exact Hub.onlyPaths_refl h
  | succ n ih =>
    unfold Hub.landRx
    split
    · exact Hub.onlyPaths_refl h
    · split
      · exact Hub.onlyPaths_trans (Hub.onlyPaths_trans (Hub.landWords_onlyPaths _ _ _ h _)
          (Hub.onlyPaths_trans (Hub.release_onlyPaths _ _ _ _) (Hub.modLk_onlyPaths _ _ _))) (ih _)
      · exact Hub.onlyPaths_refl h

theorem Hub.landRx_reg (p n : Nat) (h : Hub) {a : Nat} (ha : a ≠ 0x1D0310 ∧ (a < 0x1F8000 ∨ 0x1F9000 ≤ a)) :
    (Hub.landRx p n h).reg a = h.reg a := by
  induction n generalizing h with
  | zero => rfl
  | succ n ih =>
    unfold Hub.landRx
    split
    · rfl
    · split
      · rw [ih]; simp [Hub.landWords_reg _ _ _ _ _ ha]
      · rfl

theorem Hub.landLocal_onlyPaths (q n : Nat) (h : Hub) : h.onlyPaths (Hub.landLocal q n h) := by
  induction n generalizing h with
  | zero => exact Hub.onlyPaths_refl h
  | succ n ih =>
    unfold Hub.landLocal
    split
    · split
      · rename_i e
        exact Hub.onlyPaths_trans (Hub.onlyPaths_trans (Hub.qPop_onlyPaths e) (Hub.landWords_onlyPaths _ _ _ _ _)) (ih _)
      · exact Hub.onlyPaths_refl h
    · exact Hub.onlyPaths_refl h

theorem Hub.landLocal_reg (q n : Nat) (h : Hub) {a : Nat} (ha : a ≠ 0x1D0310 ∧ (a < 0x1F8000 ∨ 0x1F9000 ≤ a)) :
    (Hub.landLocal q n h).reg a = h.reg a := by
  induction n generalizing h with
  | zero => rfl
  | succ n ih =>
    unfold Hub.landLocal
    split
    · split
      · rename_i e; rw [ih, Hub.landWords_reg _ _ _ _ _ ha, Hub.reg_congr (Hub.qPop_regs e)]
      · rfl
    · rfl

theorem Hub.alarmRx_onlyPaths (p n : Nat) (h : Hub) : h.onlyPaths (Hub.alarmRx p n h) := by
  induction n generalizing h with
  | zero => exact Hub.onlyPaths_refl h
  | succ n ih =>
    unfold Hub.alarmRx
    split
    · exact Hub.onlyPaths_refl h
    · split
      · exact Hub.onlyPaths_trans (Hub.onlyPaths_trans (h.alarmTo_onlyPaths _ _)
          (Hub.onlyPaths_trans (Hub.release_onlyPaths _ _ _ _) (Hub.modLk_onlyPaths _ _ _))) (ih _)
      · exact Hub.onlyPaths_refl h

theorem Hub.alarmRx_reg (p n : Nat) (h : Hub) {a : Nat} (ha : a < 0x1F8000 ∨ 0x1F9000 ≤ a) :
    (Hub.alarmRx p n h).reg a = h.reg a := by
  induction n generalizing h with
  | zero => rfl
  | succ n ih =>
    unfold Hub.alarmRx
    split
    · rfl
    · split
      · rw [ih]; simp [Hub.alarmTo_reg _ _ _ (by omega : 0 < 3) ha]
      · rfl

theorem foldl_onlyPaths {α : Type} (f : Hub → α → Hub) (hf : ∀ a x, Hub.onlyPaths a (f a x)) (l : List α) (h : Hub) :
    h.onlyPaths (l.foldl f h) := by
  induction l generalizing h with
  | nil => exact Hub.onlyPaths_refl h
  | cons x t ih => exact Hub.onlyPaths_trans (hf h x) (ih _)

theorem Hub.settle_eq (fx : Fixed) (h : Hub) : h.settle fx =
    (let h2 := [0, 1, 2].foldl (fun a p => if (a.lk p).rx.isEmpty then a else
        Hub.landRx p (((Hub.alarmRx p (a.lk p).rx.length a).lk p).rx.length) (Hub.alarmRx p (a.lk p).rx.length a)) h.drainPaths
      if h2.isMaster fx then ((h2.usedUnits 9).filter h2.qCascade).foldl (fun a q => Hub.landLocal q 16 a) h2 else h2) := rfl

/-- All that moving on may touch. -/
theorem Hub.settle_onlyPaths (fx : Fixed) (h : Hub) : h.onlyPaths (h.settle fx) := by
  rw [Hub.settle_eq]
  dsimp only
  have e : ∀ l : List Nat, ∀ g : Hub, g.onlyPaths (l.foldl (fun a p => if (a.lk p).rx.isEmpty then a else
      Hub.landRx p (((Hub.alarmRx p (a.lk p).rx.length a).lk p).rx.length) (Hub.alarmRx p (a.lk p).rx.length a)) g) :=
    fun l g => foldl_onlyPaths _ (fun a p => by
      split
      · exact Hub.onlyPaths_refl a
      · exact Hub.onlyPaths_trans (Hub.alarmRx_onlyPaths _ _ _) (Hub.landRx_onlyPaths _ _ _)) l g
  have d := Hub.onlyPaths_trans h.drainPaths_onlyPaths (e [0, 1, 2] _)
  split
  · exact Hub.onlyPaths_trans d (foldl_onlyPaths _ (fun a q => Hub.landLocal_onlyPaths q 16 a) _ _)
  · exact d

/-! ### `Hub.settle` -/

@[simp] theorem Hub.settle_cells (fx : Fixed) (h : Hub) : (h.settle fx).cells = h.cells := by
  rw [Hub.settle_onlyPaths fx h]
@[simp] theorem Hub.settle_clk (fx : Fixed) (h : Hub) : (h.settle fx).clk = h.clk := by
  rw [Hub.settle_onlyPaths fx h]
@[simp] theorem Hub.settle_ldr (fx : Fixed) (h : Hub) : (h.settle fx).ldr = h.ldr := by
  rw [Hub.settle_onlyPaths fx h]
@[simp] theorem Hub.settle_host (fx : Fixed) (h : Hub) : (h.settle fx).host = h.host := by
  rw [Hub.settle_onlyPaths fx h]
@[simp] theorem Hub.settle_sp (fx : Fixed) (h : Hub) : (h.settle fx).sp = h.sp := by
  rw [Hub.settle_onlyPaths fx h]
@[simp] theorem Hub.settle_tw (fx : Fixed) (h : Hub) : (h.settle fx).tw = h.tw := by
  rw [Hub.settle_onlyPaths fx h]
@[simp] theorem Hub.settle_ingress (fx : Fixed) (h : Hub) : (h.settle fx).ingress = h.ingress := by
  rw [Hub.settle_onlyPaths fx h]
@[simp] theorem Hub.settle_stg (fx : Fixed) (h : Hub) : (h.settle fx).stg = h.stg := by
  rw [Hub.settle_onlyPaths fx h]
@[simp] theorem Hub.settle_tile (fx : Fixed) (h : Hub) : (h.settle fx).tile = h.tile := by
  rw [Hub.settle_onlyPaths fx h]
@[simp] theorem Hub.settle_ev (fx : Fixed) (h : Hub) : (h.settle fx).ev = h.ev := by
  rw [Hub.settle_onlyPaths fx h]
@[simp] theorem Hub.settle_evSeen (fx : Fixed) (h : Hub) : (h.settle fx).evSeen = h.evSeen := by
  rw [Hub.settle_onlyPaths fx h]
@[simp] theorem Hub.settle_stock (fx : Fixed) (h : Hub) : (h.settle fx).stock = h.stock := by
  rw [Hub.settle_onlyPaths fx h]
@[simp] theorem Hub.settle_stockFill (fx : Fixed) (h : Hub) : (h.settle fx).stockFill = h.stockFill := by
  rw [Hub.settle_onlyPaths fx h]
@[simp] theorem Hub.settle_dbgHeld (fx : Fixed) (h : Hub) : (h.settle fx).dbgHeld = h.dbgHeld := by
  rw [Hub.settle_onlyPaths fx h]
@[simp] theorem Hub.settle_ring (fx : Fixed) (h : Hub) : (h.settle fx).ring = h.ring := by
  rw [Hub.settle_onlyPaths fx h]
@[simp] theorem Hub.settle_tb (fx : Fixed) (h : Hub) : (h.settle fx).tb = h.tb := by
  rw [Hub.settle_onlyPaths fx h]
@[simp] theorem Hub.settle_trig (fx : Fixed) (h : Hub) : (h.settle fx).trig = h.trig := by
  rw [Hub.settle_onlyPaths fx h]
@[simp] theorem Hub.settle_trg (fx : Fixed) (h : Hub) : (h.settle fx).trg = h.trg := by
  rw [Hub.settle_onlyPaths fx h]
@[simp] theorem Hub.settle_tach (fx : Fixed) (h : Hub) : (h.settle fx).tach = h.tach := by
  rw [Hub.settle_onlyPaths fx h]
@[simp] theorem Hub.settle_kt (fx : Fixed) (h : Hub) : (h.settle fx).kt = h.kt := by
  rw [Hub.settle_onlyPaths fx h]
@[simp] theorem Hub.settle_job (fx : Fixed) (h : Hub) : (h.settle fx).job = h.job := by
  rw [Hub.settle_onlyPaths fx h]
@[simp] theorem Hub.settle_spc (fx : Fixed) (h : Hub) : (h.settle fx).spc = h.spc := by
  rw [Hub.settle_onlyPaths fx h]
@[simp] theorem Hub.settle_fea (fx : Fixed) (h : Hub) : (h.settle fx).fea = h.fea := by
  rw [Hub.settle_onlyPaths fx h]
@[simp] theorem Hub.settle_lim (fx : Fixed) (h : Hub) : (h.settle fx).lim = h.lim := by
  rw [Hub.settle_onlyPaths fx h]
@[simp] theorem Hub.settle_rad (fx : Fixed) (h : Hub) : (h.settle fx).rad = h.rad := by
  rw [Hub.settle_onlyPaths fx h]
@[simp] theorem Hub.settle_hlt (fx : Fixed) (h : Hub) : (h.settle fx).hlt = h.hlt := by
  rw [Hub.settle_onlyPaths fx h]
@[simp] theorem Hub.settle_sup (fx : Fixed) (h : Hub) : (h.settle fx).sup = h.sup := by
  rw [Hub.settle_onlyPaths fx h]
@[simp] theorem Hub.settle_tbMet (fx : Fixed) (h : Hub) : (h.settle fx).tbMet = h.tbMet := by
  rw [Hub.settle_onlyPaths fx h]
@[simp] theorem Hub.settle_metFollows (fx : Fixed) (h : Hub) : (h.settle fx).metFollows = h.metFollows := by
  rw [Hub.settle_onlyPaths fx h]
@[simp] theorem Hub.settle_metFifo (fx : Fixed) (h : Hub) : (h.settle fx).metFifo = h.metFifo := by
  rw [Hub.settle_onlyPaths fx h]
@[simp] theorem Hub.settle_metGap (fx : Fixed) (h : Hub) : (h.settle fx).metGap = h.metGap := by
  rw [Hub.settle_onlyPaths fx h]
@[simp] theorem Hub.settle_cyc (fx : Fixed) (h : Hub) : (h.settle fx).cyc = h.cyc := by
  rw [Hub.settle_onlyPaths fx h]
@[simp] theorem Hub.settle_asleep (fx : Fixed) (h : Hub) : (h.settle fx).asleep = h.asleep := by
  rw [Hub.settle_onlyPaths fx h]
@[simp] theorem Hub.settle_free (fx : Fixed) (h : Hub) : (h.settle fx).free = h.free := by
  rw [Hub.settle_onlyPaths fx h]
@[simp] theorem Hub.settle_cell (fx : Fixed) (h : Hub) (i j k : Nat) : (h.settle fx).cell i j k = h.cell i j k := by
  unfold Hub.cell; rw [Hub.settle_cells]
@[simp] theorem Hub.settle_cf (fx : Fixed) (h : Hub) (i j k lo len : Nat) : (h.settle fx).cf i j k lo len = h.cf i j k lo len := by
  unfold Hub.cf; rw [Hub.settle_cell]
theorem Hub.settle_reg (fx : Fixed) (h : Hub) {a : Nat} (ha : a ≠ 0x1D0310 ∧ (a < 0x1F8000 ∨ 0x1F9000 ≤ a)) : (h.settle fx).reg a = h.reg a := by
  rw [Hub.settle_eq]; dsimp only
  have e : ∀ l : List Nat, ∀ g : Hub, (l.foldl (fun a p => if (a.lk p).rx.isEmpty then a else
      Hub.landRx p (((Hub.alarmRx p (a.lk p).rx.length a).lk p).rx.length) (Hub.alarmRx p (a.lk p).rx.length a)) g).reg a = g.reg a :=
    fun l g => foldl_keep (fun x : Hub => x.reg a) _ (fun b p => by
      split
      · rfl
      · rw [Hub.landRx_reg _ _ _ ha, Hub.alarmRx_reg _ _ _ ha.2]) l g
  split
  · exact (foldl_keep (fun x : Hub => x.reg a) _ (fun b q => Hub.landLocal_reg q 16 b ha) _ _).trans
      ((e _ _).trans (Hub.drainPaths_reg h ha.2))
  · exact (e _ _).trans (Hub.drainPaths_reg h ha.2)
theorem Hub.settle_rd (fx : Fixed) (h : Hub) {f : Fld} (ha : f.addr ≠ 0x1D0310 ∧ (f.addr < 0x1F8000 ∨ 0x1F9000 ≤ f.addr)) : (h.settle fx).rd f = h.rd f :=
  Hub.rd_congr (Hub.settle_reg fx h ha)
theorem Hub.settle_is (fx : Fixed) (h : Hub) {f : Fld} (ha : f.addr ≠ 0x1D0310 ∧ (f.addr < 0x1F8000 ∨ 0x1F9000 ≤ f.addr)) : (h.settle fx).is f = h.is f :=
  Hub.is_congr (Hub.settle_rd fx h ha)


end Sys2Proof.Machine
end

