-- ==== Sys2Proof/Laws/Time.lean ====
section
/-! SUPPORT. What the passing of TCLK cycles can do: it changes the cycle counter, the timebases and the copy of tb_met, and nothing
else (spec/12 R307, R311). -/

namespace Sys2Proof.Machine
open Sys2Proof

/-! ### `Hub.tickTb` -/

@[simp] theorem Hub.tickTb_regs (h : Hub) (b n : Nat) : (h.tickTb b n).regs = h.regs := by
  unfold Hub.tickTb; dsimp only; (repeat' split) <;> rfl
@[simp] theorem Hub.tickTb_cells (h : Hub) (b n : Nat) : (h.tickTb b n).cells = h.cells := by
  unfold Hub.tickTb; dsimp only; (repeat' split) <;> rfl
@[simp] theorem Hub.tickTb_clk (h : Hub) (b n : Nat) : (h.tickTb b n).clk = h.clk := by
  unfold Hub.tickTb; dsimp only; (repeat' split) <;> rfl
@[simp] theorem Hub.tickTb_ldr (h : Hub) (b n : Nat) : (h.tickTb b n).ldr = h.ldr := by
  unfold Hub.tickTb; dsimp only; (repeat' split) <;> rfl
@[simp] theorem Hub.tickTb_host (h : Hub) (b n : Nat) : (h.tickTb b n).host = h.host := by
  unfold Hub.tickTb; dsimp only; (repeat' split) <;> rfl
@[simp] theorem Hub.tickTb_sp (h : Hub) (b n : Nat) : (h.tickTb b n).sp = h.sp := by
  unfold Hub.tickTb; dsimp only; (repeat' split) <;> rfl
@[simp] theorem Hub.tickTb_tw (h : Hub) (b n : Nat) : (h.tickTb b n).tw = h.tw := by
  unfold Hub.tickTb; dsimp only; (repeat' split) <;> rfl
@[simp] theorem Hub.tickTb_ingress (h : Hub) (b n : Nat) : (h.tickTb b n).ingress = h.ingress := by
  unfold Hub.tickTb; dsimp only; (repeat' split) <;> rfl
@[simp] theorem Hub.tickTb_ctx (h : Hub) (b n : Nat) : (h.tickTb b n).ctx = h.ctx := by
  unfold Hub.tickTb; dsimp only; (repeat' split) <;> rfl
@[simp] theorem Hub.tickTb_stg (h : Hub) (b n : Nat) : (h.tickTb b n).stg = h.stg := by
  unfold Hub.tickTb; dsimp only; (repeat' split) <;> rfl
@[simp] theorem Hub.tickTb_tile (h : Hub) (b n : Nat) : (h.tickTb b n).tile = h.tile := by
  unfold Hub.tickTb; dsimp only; (repeat' split) <;> rfl
@[simp] theorem Hub.tickTb_ev (h : Hub) (b n : Nat) : (h.tickTb b n).ev = h.ev := by
  unfold Hub.tickTb; dsimp only; (repeat' split) <;> rfl
@[simp] theorem Hub.tickTb_evSeen (h : Hub) (b n : Nat) : (h.tickTb b n).evSeen = h.evSeen := by
  unfold Hub.tickTb; dsimp only; (repeat' split) <;> rfl
@[simp] theorem Hub.tickTb_q (h : Hub) (b n : Nat) : (h.tickTb b n).q = h.q := by
  unfold Hub.tickTb; dsimp only; (repeat' split) <;> rfl
@[simp] theorem Hub.tickTb_stock (h : Hub) (b n : Nat) : (h.tickTb b n).stock = h.stock := by
  unfold Hub.tickTb; dsimp only; (repeat' split) <;> rfl
@[simp] theorem Hub.tickTb_stockFill (h : Hub) (b n : Nat) : (h.tickTb b n).stockFill = h.stockFill := by
  unfold Hub.tickTb; dsimp only; (repeat' split) <;> rfl
@[simp] theorem Hub.tickTb_dbgHeld (h : Hub) (b n : Nat) : (h.tickTb b n).dbgHeld = h.dbgHeld := by
  unfold Hub.tickTb; dsimp only; (repeat' split) <;> rfl
@[simp] theorem Hub.tickTb_ring (h : Hub) (b n : Nat) : (h.tickTb b n).ring = h.ring := by
  unfold Hub.tickTb; dsimp only; (repeat' split) <;> rfl
@[simp] theorem Hub.tickTb_outbox (h : Hub) (b n : Nat) : (h.tickTb b n).outbox = h.outbox := by
  unfold Hub.tickTb; dsimp only; (repeat' split) <;> rfl
@[simp] theorem Hub.tickTb_trig (h : Hub) (b n : Nat) : (h.tickTb b n).trig = h.trig := by
  unfold Hub.tickTb; dsimp only; (repeat' split) <;> rfl
@[simp] theorem Hub.tickTb_trg (h : Hub) (b n : Nat) : (h.tickTb b n).trg = h.trg := by
  unfold Hub.tickTb; dsimp only; (repeat' split) <;> rfl
@[simp] theorem Hub.tickTb_tach (h : Hub) (b n : Nat) : (h.tickTb b n).tach = h.tach := by
  unfold Hub.tickTb; dsimp only; (repeat' split) <;> rfl
@[simp] theorem Hub.tickTb_kt (h : Hub) (b n : Nat) : (h.tickTb b n).kt = h.kt := by
  unfold Hub.tickTb; dsimp only; (repeat' split) <;> rfl
@[simp] theorem Hub.tickTb_flt (h : Hub) (b n : Nat) : (h.tickTb b n).flt = h.flt := by
  unfold Hub.tickTb; dsimp only; (repeat' split) <;> rfl
@[simp] theorem Hub.tickTb_job (h : Hub) (b n : Nat) : (h.tickTb b n).job = h.job := by
  unfold Hub.tickTb; dsimp only; (repeat' split) <;> rfl
@[simp] theorem Hub.tickTb_spc (h : Hub) (b n : Nat) : (h.tickTb b n).spc = h.spc := by
  unfold Hub.tickTb; dsimp only; (repeat' split) <;> rfl
@[simp] theorem Hub.tickTb_fea (h : Hub) (b n : Nat) : (h.tickTb b n).fea = h.fea := by
  unfold Hub.tickTb; dsimp only; (repeat' split) <;> rfl
@[simp] theorem Hub.tickTb_lim (h : Hub) (b n : Nat) : (h.tickTb b n).lim = h.lim := by
  unfold Hub.tickTb; dsimp only; (repeat' split) <;> rfl
@[simp] theorem Hub.tickTb_link (h : Hub) (b n : Nat) : (h.tickTb b n).link = h.link := by
  unfold Hub.tickTb; dsimp only; (repeat' split) <;> rfl
@[simp] theorem Hub.tickTb_cas (h : Hub) (b n : Nat) : (h.tickTb b n).cas = h.cas := by
  unfold Hub.tickTb; dsimp only; (repeat' split) <;> rfl
@[simp] theorem Hub.tickTb_rad (h : Hub) (b n : Nat) : (h.tickTb b n).rad = h.rad := by
  unfold Hub.tickTb; dsimp only; (repeat' split) <;> rfl
@[simp] theorem Hub.tickTb_hlt (h : Hub) (b n : Nat) : (h.tickTb b n).hlt = h.hlt := by
  unfold Hub.tickTb; dsimp only; (repeat' split) <;> rfl
@[simp] theorem Hub.tickTb_sup (h : Hub) (b n : Nat) : (h.tickTb b n).sup = h.sup := by
  unfold Hub.tickTb; dsimp only; (repeat' split) <;> rfl
@[simp] theorem Hub.tickTb_metFollows (h : Hub) (b n : Nat) : (h.tickTb b n).metFollows = h.metFollows := by
  unfold Hub.tickTb; dsimp only; (repeat' split) <;> rfl
@[simp] theorem Hub.tickTb_metFifo (h : Hub) (b n : Nat) : (h.tickTb b n).metFifo = h.metFifo := by
  unfold Hub.tickTb; dsimp only; (repeat' split) <;> rfl
@[simp] theorem Hub.tickTb_metGap (h : Hub) (b n : Nat) : (h.tickTb b n).metGap = h.metGap := by
  unfold Hub.tickTb; dsimp only; (repeat' split) <;> rfl
@[simp] theorem Hub.tickTb_cyc (h : Hub) (b n : Nat) : (h.tickTb b n).cyc = h.cyc := by
  unfold Hub.tickTb; dsimp only; (repeat' split) <;> rfl
@[simp] theorem Hub.tickTb_asleep (h : Hub) (b n : Nat) : (h.tickTb b n).asleep = h.asleep := by
  unfold Hub.tickTb; dsimp only; (repeat' split) <;> rfl
@[simp] theorem Hub.tickTb_free (h : Hub) (b n : Nat) : (h.tickTb b n).free = h.free := by
  unfold Hub.tickTb; dsimp only; (repeat' split) <;> rfl
@[simp] theorem Hub.tickTb_cell (h : Hub) (b n : Nat) (i j k : Nat) : (h.tickTb b n).cell i j k = h.cell i j k := by
  unfold Hub.cell; rw [Hub.tickTb_cells]
@[simp] theorem Hub.tickTb_cf (h : Hub) (b n : Nat) (i j k lo len : Nat) : (h.tickTb b n).cf i j k lo len = h.cf i j k lo len := by
  unfold Hub.cf; rw [Hub.tickTb_cell]
@[simp] theorem Hub.tickTb_reg (h : Hub) (b n : Nat) (a : Nat) : (h.tickTb b n).reg a = h.reg a := by
  unfold Hub.reg; rw [Hub.tickTb_regs]
@[simp] theorem Hub.tickTb_rd (h : Hub) (b n : Nat) (f : Fld) : (h.tickTb b n).rd f = h.rd f := by
  unfold Hub.rd; rw [Hub.tickTb_reg]
@[simp] theorem Hub.tickTb_is (h : Hub) (b n : Nat) (f : Fld) : (h.tickTb b n).is f = h.is f := by
  unfold Hub.is; rw [Hub.tickTb_rd]

/-! ### `Hub.tickN` -/

@[simp] theorem Hub.tickN_regs (h : Hub) (n : Nat) : (h.tickN n).regs = h.regs := by
  unfold Hub.tickN; split
  · rfl
  · exact foldl_keep (fun x : Hub => x.regs) _ (fun _ _ => by simp) _ _
@[simp] theorem Hub.tickN_cells (h : Hub) (n : Nat) : (h.tickN n).cells = h.cells := by
  unfold Hub.tickN; split
  · rfl
  · exact foldl_keep (fun x : Hub => x.cells) _ (fun _ _ => by simp) _ _
@[simp] theorem Hub.tickN_clk (h : Hub) (n : Nat) : (h.tickN n).clk = h.clk := by
  unfold Hub.tickN; split
  · rfl
  · exact foldl_keep (fun x : Hub => x.clk) _ (fun _ _ => by simp) _ _
@[simp] theorem Hub.tickN_ldr (h : Hub) (n : Nat) : (h.tickN n).ldr = h.ldr := by
  unfold Hub.tickN; split
  · rfl
  · exact foldl_keep (fun x : Hub => x.ldr) _ (fun _ _ => by simp) _ _
@[simp] theorem Hub.tickN_host (h : Hub) (n : Nat) : (h.tickN n).host = h.host := by
  unfold Hub.tickN; split
  · rfl
  · exact foldl_keep (fun x : Hub => x.host) _ (fun _ _ => by simp) _ _
@[simp] theorem Hub.tickN_sp (h : Hub) (n : Nat) : (h.tickN n).sp = h.sp := by
  unfold Hub.tickN; split
  · rfl
  · exact foldl_keep (fun x : Hub => x.sp) _ (fun _ _ => by simp) _ _
@[simp] theorem Hub.tickN_tw (h : Hub) (n : Nat) : (h.tickN n).tw = h.tw := by
  unfold Hub.tickN; split
  · rfl
  · exact foldl_keep (fun x : Hub => x.tw) _ (fun _ _ => by simp) _ _
@[simp] theorem Hub.tickN_ingress (h : Hub) (n : Nat) : (h.tickN n).ingress = h.ingress := by
  unfold Hub.tickN; split
  · rfl
  · exact foldl_keep (fun x : Hub => x.ingress) _ (fun _ _ => by simp) _ _
@[simp] theorem Hub.tickN_ctx (h : Hub) (n : Nat) : (h.tickN n).ctx = h.ctx := by
  unfold Hub.tickN; split
  · rfl
  · exact foldl_keep (fun x : Hub => x.ctx) _ (fun _ _ => by simp) _ _
@[simp] theorem Hub.tickN_stg (h : Hub) (n : Nat) : (h.tickN n).stg = h.stg := by
  unfold Hub.tickN; split
  · rfl
  · exact foldl_keep (fun x : Hub => x.stg) _ (fun _ _ => by simp) _ _
@[simp] theorem Hub.tickN_tile (h : Hub) (n : Nat) : (h.tickN n).tile = h.tile := by
  unfold Hub.tickN; split
  · rfl
  · exact foldl_keep (fun x : Hub => x.tile) _ (fun _ _ => by simp) _ _
@[simp] theorem Hub.tickN_ev (h : Hub) (n : Nat) : (h.tickN n).ev = h.ev := by
  unfold Hub.tickN; split
  · rfl
  · exact foldl_keep (fun x : Hub => x.ev) _ (fun _ _ => by simp) _ _
@[simp] theorem Hub.tickN_evSeen (h : Hub) (n : Nat) : (h.tickN n).evSeen = h.evSeen := by
  unfold Hub.tickN; split
  · rfl
  · exact foldl_keep (fun x : Hub => x.evSeen) _ (fun _ _ => by simp) _ _
@[simp] theorem Hub.tickN_q (h : Hub) (n : Nat) : (h.tickN n).q = h.q := by
  unfold Hub.tickN; split
  · rfl
  · exact foldl_keep (fun x : Hub => x.q) _ (fun _ _ => by simp) _ _
@[simp] theorem Hub.tickN_stock (h : Hub) (n : Nat) : (h.tickN n).stock = h.stock := by
  unfold Hub.tickN; split
  · rfl
  · exact foldl_keep (fun x : Hub => x.stock) _ (fun _ _ => by simp) _ _
@[simp] theorem Hub.tickN_stockFill (h : Hub) (n : Nat) : (h.tickN n).stockFill = h.stockFill := by
  unfold Hub.tickN; split
  · rfl
  · exact foldl_keep (fun x : Hub => x.stockFill) _ (fun _ _ => by simp) _ _
@[simp] theorem Hub.tickN_dbgHeld (h : Hub) (n : Nat) : (h.tickN n).dbgHeld = h.dbgHeld := by
  unfold Hub.tickN; split
  · rfl
  · exact foldl_keep (fun x : Hub => x.dbgHeld) _ (fun _ _ => by simp) _ _
@[simp] theorem Hub.tickN_ring (h : Hub) (n : Nat) : (h.tickN n).ring = h.ring := by
  unfold Hub.tickN; split
  · rfl
  · exact foldl_keep (fun x : Hub => x.ring) _ (fun _ _ => by simp) _ _
@[simp] theorem Hub.tickN_outbox (h : Hub) (n : Nat) : (h.tickN n).outbox = h.outbox := by
  unfold Hub.tickN; split
  · rfl
  · exact foldl_keep (fun x : Hub => x.outbox) _ (fun _ _ => by simp) _ _
@[simp] theorem Hub.tickN_trig (h : Hub) (n : Nat) : (h.tickN n).trig = h.trig := by
  unfold Hub.tickN; split
  · rfl
  · exact foldl_keep (fun x : Hub => x.trig) _ (fun _ _ => by simp) _ _
@[simp] theorem Hub.tickN_trg (h : Hub) (n : Nat) : (h.tickN n).trg = h.trg := by
  unfold Hub.tickN; split
  · rfl
  · exact foldl_keep (fun x : Hub => x.trg) _ (fun _ _ => by simp) _ _
@[simp] theorem Hub.tickN_tach (h : Hub) (n : Nat) : (h.tickN n).tach = h.tach := by
  unfold Hub.tickN; split
  · rfl
  · exact foldl_keep (fun x : Hub => x.tach) _ (fun _ _ => by simp) _ _
@[simp] theorem Hub.tickN_kt (h : Hub) (n : Nat) : (h.tickN n).kt = h.kt := by
  unfold Hub.tickN; split
  · rfl
  · exact foldl_keep (fun x : Hub => x.kt) _ (fun _ _ => by simp) _ _
@[simp] theorem Hub.tickN_flt (h : Hub) (n : Nat) : (h.tickN n).flt = h.flt := by
  unfold Hub.tickN; split
  · rfl
  · exact foldl_keep (fun x : Hub => x.flt) _ (fun _ _ => by simp) _ _
@[simp] theorem Hub.tickN_job (h : Hub) (n : Nat) : (h.tickN n).job = h.job := by
  unfold Hub.tickN; split
  · rfl
  · exact foldl_keep (fun x : Hub => x.job) _ (fun _ _ => by simp) _ _
@[simp] theorem Hub.tickN_spc (h : Hub) (n : Nat) : (h.tickN n).spc = h.spc := by
  unfold Hub.tickN; split
  · rfl
  · exact foldl_keep (fun x : Hub => x.spc) _ (fun _ _ => by simp) _ _
@[simp] theorem Hub.tickN_fea (h : Hub) (n : Nat) : (h.tickN n).fea = h.fea := by
  unfold Hub.tickN; split
  · rfl
  · exact foldl_keep (fun x : Hub => x.fea) _ (fun _ _ => by simp) _ _
@[simp] theorem Hub.tickN_lim (h : Hub) (n : Nat) : (h.tickN n).lim = h.lim := by
  unfold Hub.tickN; split
  · rfl
  · exact foldl_keep (fun x : Hub => x.lim) _ (fun _ _ => by simp) _ _
@[simp] theorem Hub.tickN_link (h : Hub) (n : Nat) : (h.tickN n).link = h.link := by
  unfold Hub.tickN; split
  · rfl
  · exact foldl_keep (fun x : Hub => x.link) _ (fun _ _ => by simp) _ _
@[simp] theorem Hub.tickN_cas (h : Hub) (n : Nat) : (h.tickN n).cas = h.cas := by
  unfold Hub.tickN; split
  · rfl
  · exact foldl_keep (fun x : Hub => x.cas) _ (fun _ _ => by simp) _ _
@[simp] theorem Hub.tickN_rad (h : Hub) (n : Nat) : (h.tickN n).rad = h.rad := by
  unfold Hub.tickN; split
  · rfl
  · exact foldl_keep (fun x : Hub => x.rad) _ (fun _ _ => by simp) _ _
@[simp] theorem Hub.tickN_hlt (h : Hub) (n : Nat) : (h.tickN n).hlt = h.hlt := by
  unfold Hub.tickN; split
  · rfl
  · exact foldl_keep (fun x : Hub => x.hlt) _ (fun _ _ => by simp) _ _
@[simp] theorem Hub.tickN_sup (h : Hub) (n : Nat) : (h.tickN n).sup = h.sup := by
  unfold Hub.tickN; split
  · rfl
  · exact foldl_keep (fun x : Hub => x.sup) _ (fun _ _ => by simp) _ _
@[simp] theorem Hub.tickN_metFollows (h : Hub) (n : Nat) : (h.tickN n).metFollows = h.metFollows := by
  unfold Hub.tickN; split
  · rfl
  · exact foldl_keep (fun x : Hub => x.metFollows) _ (fun _ _ => by simp) _ _
@[simp] theorem Hub.tickN_metFifo (h : Hub) (n : Nat) : (h.tickN n).metFifo = h.metFifo := by
  unfold Hub.tickN; split
  · rfl
  · exact foldl_keep (fun x : Hub => x.metFifo) _ (fun _ _ => by simp) _ _
@[simp] theorem Hub.tickN_metGap (h : Hub) (n : Nat) : (h.tickN n).metGap = h.metGap := by
  unfold Hub.tickN; split
  · rfl
  · exact foldl_keep (fun x : Hub => x.metGap) _ (fun _ _ => by simp) _ _
@[simp] theorem Hub.tickN_asleep (h : Hub) (n : Nat) : (h.tickN n).asleep = h.asleep := by
  unfold Hub.tickN; split
  · rfl
  · exact foldl_keep (fun x : Hub => x.asleep) _ (fun _ _ => by simp) _ _
@[simp] theorem Hub.tickN_free (h : Hub) (n : Nat) : (h.tickN n).free = h.free := by
  unfold Hub.tickN; split
  · rfl
  · exact foldl_keep (fun x : Hub => x.free) _ (fun _ _ => by simp) _ _
@[simp] theorem Hub.tickN_cell (h : Hub) (n : Nat) (i j k : Nat) : (h.tickN n).cell i j k = h.cell i j k := by
  unfold Hub.cell; rw [Hub.tickN_cells]
@[simp] theorem Hub.tickN_cf (h : Hub) (n : Nat) (i j k lo len : Nat) : (h.tickN n).cf i j k lo len = h.cf i j k lo len := by
  unfold Hub.cf; rw [Hub.tickN_cell]
@[simp] theorem Hub.tickN_reg (h : Hub) (n : Nat) (a : Nat) : (h.tickN n).reg a = h.reg a := by
  unfold Hub.reg; rw [Hub.tickN_regs]
@[simp] theorem Hub.tickN_rd (h : Hub) (n : Nat) (f : Fld) : (h.tickN n).rd f = h.rd f := by
  unfold Hub.rd; rw [Hub.tickN_reg]
@[simp] theorem Hub.tickN_is (h : Hub) (n : Nat) (f : Fld) : (h.tickN n).is f = h.is f := by
  unfold Hub.is; rw [Hub.tickN_rd]

/-! ### `Hub.reach` -/

@[simp] theorem Hub.reach_regs (h : Hub) (c : Nat) : (h.reach c).regs = h.regs := by
  unfold Hub.reach; simp
@[simp] theorem Hub.reach_cells (h : Hub) (c : Nat) : (h.reach c).cells = h.cells := by
  unfold Hub.reach; simp
@[simp] theorem Hub.reach_clk (h : Hub) (c : Nat) : (h.reach c).clk = h.clk := by
  unfold Hub.reach; simp
@[simp] theorem Hub.reach_ldr (h : Hub) (c : Nat) : (h.reach c).ldr = h.ldr := by
  unfold Hub.reach; simp
@[simp] theorem Hub.reach_host (h : Hub) (c : Nat) : (h.reach c).host = h.host := by
  unfold Hub.reach; simp
@[simp] theorem Hub.reach_sp (h : Hub) (c : Nat) : (h.reach c).sp = h.sp := by
  unfold Hub.reach; simp
@[simp] theorem Hub.reach_tw (h : Hub) (c : Nat) : (h.reach c).tw = h.tw := by
  unfold Hub.reach; simp
@[simp] theorem Hub.reach_ingress (h : Hub) (c : Nat) : (h.reach c).ingress = h.ingress := by
  unfold Hub.reach; simp
@[simp] theorem Hub.reach_ctx (h : Hub) (c : Nat) : (h.reach c).ctx = h.ctx := by
  unfold Hub.reach; simp
@[simp] theorem Hub.reach_stg (h : Hub) (c : Nat) : (h.reach c).stg = h.stg := by
  unfold Hub.reach; simp
@[simp] theorem Hub.reach_tile (h : Hub) (c : Nat) : (h.reach c).tile = h.tile := by
  unfold Hub.reach; simp
@[simp] theorem Hub.reach_ev (h : Hub) (c : Nat) : (h.reach c).ev = h.ev := by
  unfold Hub.reach; simp
@[simp] theorem Hub.reach_evSeen (h : Hub) (c : Nat) : (h.reach c).evSeen = h.evSeen := by
  unfold Hub.reach; simp
@[simp] theorem Hub.reach_q (h : Hub) (c : Nat) : (h.reach c).q = h.q := by
  unfold Hub.reach; simp
@[simp] theorem Hub.reach_stock (h : Hub) (c : Nat) : (h.reach c).stock = h.stock := by
  unfold Hub.reach; simp
@[simp] theorem Hub.reach_stockFill (h : Hub) (c : Nat) : (h.reach c).stockFill = h.stockFill := by
  unfold Hub.reach; simp
@[simp] theorem Hub.reach_dbgHeld (h : Hub) (c : Nat) : (h.reach c).dbgHeld = h.dbgHeld := by
  unfold Hub.reach; simp
@[simp] theorem Hub.reach_ring (h : Hub) (c : Nat) : (h.reach c).ring = h.ring := by
  unfold Hub.reach; simp
@[simp] theorem Hub.reach_outbox (h : Hub) (c : Nat) : (h.reach c).outbox = h.outbox := by
  unfold Hub.reach; simp
@[simp] theorem Hub.reach_trig (h : Hub) (c : Nat) : (h.reach c).trig = h.trig := by
  unfold Hub.reach; simp
@[simp] theorem Hub.reach_trg (h : Hub) (c : Nat) : (h.reach c).trg = h.trg := by
  unfold Hub.reach; simp
@[simp] theorem Hub.reach_tach (h : Hub) (c : Nat) : (h.reach c).tach = h.tach := by
  unfold Hub.reach; simp
@[simp] theorem Hub.reach_kt (h : Hub) (c : Nat) : (h.reach c).kt = h.kt := by
  unfold Hub.reach; simp
@[simp] theorem Hub.reach_flt (h : Hub) (c : Nat) : (h.reach c).flt = h.flt := by
  unfold Hub.reach; simp
@[simp] theorem Hub.reach_job (h : Hub) (c : Nat) : (h.reach c).job = h.job := by
  unfold Hub.reach; simp
@[simp] theorem Hub.reach_spc (h : Hub) (c : Nat) : (h.reach c).spc = h.spc := by
  unfold Hub.reach; simp
@[simp] theorem Hub.reach_fea (h : Hub) (c : Nat) : (h.reach c).fea = h.fea := by
  unfold Hub.reach; simp
@[simp] theorem Hub.reach_lim (h : Hub) (c : Nat) : (h.reach c).lim = h.lim := by
  unfold Hub.reach; simp
@[simp] theorem Hub.reach_link (h : Hub) (c : Nat) : (h.reach c).link = h.link := by
  unfold Hub.reach; simp
@[simp] theorem Hub.reach_cas (h : Hub) (c : Nat) : (h.reach c).cas = h.cas := by
  unfold Hub.reach; simp
@[simp] theorem Hub.reach_rad (h : Hub) (c : Nat) : (h.reach c).rad = h.rad := by
  unfold Hub.reach; simp
@[simp] theorem Hub.reach_hlt (h : Hub) (c : Nat) : (h.reach c).hlt = h.hlt := by
  unfold Hub.reach; simp
@[simp] theorem Hub.reach_sup (h : Hub) (c : Nat) : (h.reach c).sup = h.sup := by
  unfold Hub.reach; simp
@[simp] theorem Hub.reach_metFollows (h : Hub) (c : Nat) : (h.reach c).metFollows = h.metFollows := by
  unfold Hub.reach; simp
@[simp] theorem Hub.reach_metFifo (h : Hub) (c : Nat) : (h.reach c).metFifo = h.metFifo := by
  unfold Hub.reach; simp
@[simp] theorem Hub.reach_metGap (h : Hub) (c : Nat) : (h.reach c).metGap = h.metGap := by
  unfold Hub.reach; simp
@[simp] theorem Hub.reach_asleep (h : Hub) (c : Nat) : (h.reach c).asleep = h.asleep := by
  unfold Hub.reach; simp
@[simp] theorem Hub.reach_free (h : Hub) (c : Nat) : (h.reach c).free = h.free := by
  unfold Hub.reach; simp
@[simp] theorem Hub.reach_cell (h : Hub) (c : Nat) (i j k : Nat) : (h.reach c).cell i j k = h.cell i j k := by
  unfold Hub.cell; rw [Hub.reach_cells]
@[simp] theorem Hub.reach_cf (h : Hub) (c : Nat) (i j k lo len : Nat) : (h.reach c).cf i j k lo len = h.cf i j k lo len := by
  unfold Hub.cf; rw [Hub.reach_cell]
@[simp] theorem Hub.reach_reg (h : Hub) (c : Nat) (a : Nat) : (h.reach c).reg a = h.reg a := by
  unfold Hub.reg; rw [Hub.reach_regs]
@[simp] theorem Hub.reach_rd (h : Hub) (c : Nat) (f : Fld) : (h.reach c).rd f = h.rd f := by
  unfold Hub.rd; rw [Hub.reach_reg]
@[simp] theorem Hub.reach_is (h : Hub) (c : Nat) (f : Fld) : (h.reach c).is f = h.is f := by
  unfold Hub.is; rw [Hub.reach_rd]

theorem Hub.tickN_zero (h : Hub) : h.tickN 0 = h := by
  unfold Hub.tickN; simp only [decide_true, Bool.true_or, if_true]

/-- Reaching a due time is a number of cycles passing. -/
theorem Hub.reachDue_eq (h : Hub) (b due : Nat) : ∃ n, h.reachDue b due = h.tickN n := by
  unfold Hub.reachDue
  extract_lets v d
  split
  · exact ⟨0, (Hub.tickN_zero h).symm⟩
  · split
    · exact ⟨_, rfl⟩
    · exact ⟨_, rfl⟩

/-! ### `Hub.reachDue` -/

@[simp] theorem Hub.reachDue_regs (h : Hub) (b due : Nat) : (h.reachDue b due).regs = h.regs := by
  obtain ⟨_, e⟩ := h.reachDue_eq b due; rw [e, Hub.tickN_regs]
@[simp] theorem Hub.reachDue_cells (h : Hub) (b due : Nat) : (h.reachDue b due).cells = h.cells := by
  obtain ⟨_, e⟩ := h.reachDue_eq b due; rw [e, Hub.tickN_cells]
@[simp] theorem Hub.reachDue_clk (h : Hub) (b due : Nat) : (h.reachDue b due).clk = h.clk := by
  obtain ⟨_, e⟩ := h.reachDue_eq b due; rw [e, Hub.tickN_clk]
@[simp] theorem Hub.reachDue_ldr (h : Hub) (b due : Nat) : (h.reachDue b due).ldr = h.ldr := by
  obtain ⟨_, e⟩ := h.reachDue_eq b due; rw [e, Hub.tickN_ldr]
@[simp] theorem Hub.reachDue_host (h : Hub) (b due : Nat) : (h.reachDue b due).host = h.host := by
  obtain ⟨_, e⟩ := h.reachDue_eq b due; rw [e, Hub.tickN_host]
@[simp] theorem Hub.reachDue_sp (h : Hub) (b due : Nat) : (h.reachDue b due).sp = h.sp := by
  obtain ⟨_, e⟩ := h.reachDue_eq b due; rw [e, Hub.tickN_sp]
@[simp] theorem Hub.reachDue_tw (h : Hub) (b due : Nat) : (h.reachDue b due).tw = h.tw := by
  obtain ⟨_, e⟩ := h.reachDue_eq b due; rw [e, Hub.tickN_tw]
@[simp] theorem Hub.reachDue_ingress (h : Hub) (b due : Nat) : (h.reachDue b due).ingress = h.ingress := by
  obtain ⟨_, e⟩ := h.reachDue_eq b due; rw [e, Hub.tickN_ingress]
@[simp] theorem Hub.reachDue_ctx (h : Hub) (b due : Nat) : (h.reachDue b due).ctx = h.ctx := by
  obtain ⟨_, e⟩ := h.reachDue_eq b due; rw [e, Hub.tickN_ctx]
@[simp] theorem Hub.reachDue_stg (h : Hub) (b due : Nat) : (h.reachDue b due).stg = h.stg := by
  obtain ⟨_, e⟩ := h.reachDue_eq b due; rw [e, Hub.tickN_stg]
@[simp] theorem Hub.reachDue_tile (h : Hub) (b due : Nat) : (h.reachDue b due).tile = h.tile := by
  obtain ⟨_, e⟩ := h.reachDue_eq b due; rw [e, Hub.tickN_tile]
@[simp] theorem Hub.reachDue_ev (h : Hub) (b due : Nat) : (h.reachDue b due).ev = h.ev := by
  obtain ⟨_, e⟩ := h.reachDue_eq b due; rw [e, Hub.tickN_ev]
@[simp] theorem Hub.reachDue_evSeen (h : Hub) (b due : Nat) : (h.reachDue b due).evSeen = h.evSeen := by
  obtain ⟨_, e⟩ := h.reachDue_eq b due; rw [e, Hub.tickN_evSeen]
@[simp] theorem Hub.reachDue_q (h : Hub) (b due : Nat) : (h.reachDue b due).q = h.q := by
  obtain ⟨_, e⟩ := h.reachDue_eq b due; rw [e, Hub.tickN_q]
@[simp] theorem Hub.reachDue_stock (h : Hub) (b due : Nat) : (h.reachDue b due).stock = h.stock := by
  obtain ⟨_, e⟩ := h.reachDue_eq b due; rw [e, Hub.tickN_stock]
@[simp] theorem Hub.reachDue_stockFill (h : Hub) (b due : Nat) : (h.reachDue b due).stockFill = h.stockFill := by
  obtain ⟨_, e⟩ := h.reachDue_eq b due; rw [e, Hub.tickN_stockFill]
@[simp] theorem Hub.reachDue_dbgHeld (h : Hub) (b due : Nat) : (h.reachDue b due).dbgHeld = h.dbgHeld := by
  obtain ⟨_, e⟩ := h.reachDue_eq b due; rw [e, Hub.tickN_dbgHeld]
@[simp] theorem Hub.reachDue_ring (h : Hub) (b due : Nat) : (h.reachDue b due).ring = h.ring := by
  obtain ⟨_, e⟩ := h.reachDue_eq b due; rw [e, Hub.tickN_ring]
@[simp] theorem Hub.reachDue_outbox (h : Hub) (b due : Nat) : (h.reachDue b due).outbox = h.outbox := by
  obtain ⟨_, e⟩ := h.reachDue_eq b due; rw [e, Hub.tickN_outbox]
@[simp] theorem Hub.reachDue_trig (h : Hub) (b due : Nat) : (h.reachDue b due).trig = h.trig := by
  obtain ⟨_, e⟩ := h.reachDue_eq b due; rw [e, Hub.tickN_trig]
@[simp] theorem Hub.reachDue_trg (h : Hub) (b due : Nat) : (h.reachDue b due).trg = h.trg := by
  obtain ⟨_, e⟩ := h.reachDue_eq b due; rw [e, Hub.tickN_trg]
@[simp] theorem Hub.reachDue_tach (h : Hub) (b due : Nat) : (h.reachDue b due).tach = h.tach := by
  obtain ⟨_, e⟩ := h.reachDue_eq b due; rw [e, Hub.tickN_tach]
@[simp] theorem Hub.reachDue_kt (h : Hub) (b due : Nat) : (h.reachDue b due).kt = h.kt := by
  obtain ⟨_, e⟩ := h.reachDue_eq b due; rw [e, Hub.tickN_kt]
@[simp] theorem Hub.reachDue_flt (h : Hub) (b due : Nat) : (h.reachDue b due).flt = h.flt := by
  obtain ⟨_, e⟩ := h.reachDue_eq b due; rw [e, Hub.tickN_flt]
@[simp] theorem Hub.reachDue_job (h : Hub) (b due : Nat) : (h.reachDue b due).job = h.job := by
  obtain ⟨_, e⟩ := h.reachDue_eq b due; rw [e, Hub.tickN_job]
@[simp] theorem Hub.reachDue_spc (h : Hub) (b due : Nat) : (h.reachDue b due).spc = h.spc := by
  obtain ⟨_, e⟩ := h.reachDue_eq b due; rw [e, Hub.tickN_spc]
@[simp] theorem Hub.reachDue_fea (h : Hub) (b due : Nat) : (h.reachDue b due).fea = h.fea := by
  obtain ⟨_, e⟩ := h.reachDue_eq b due; rw [e, Hub.tickN_fea]
@[simp] theorem Hub.reachDue_lim (h : Hub) (b due : Nat) : (h.reachDue b due).lim = h.lim := by
  obtain ⟨_, e⟩ := h.reachDue_eq b due; rw [e, Hub.tickN_lim]
@[simp] theorem Hub.reachDue_link (h : Hub) (b due : Nat) : (h.reachDue b due).link = h.link := by
  obtain ⟨_, e⟩ := h.reachDue_eq b due; rw [e, Hub.tickN_link]
@[simp] theorem Hub.reachDue_cas (h : Hub) (b due : Nat) : (h.reachDue b due).cas = h.cas := by
  obtain ⟨_, e⟩ := h.reachDue_eq b due; rw [e, Hub.tickN_cas]
@[simp] theorem Hub.reachDue_rad (h : Hub) (b due : Nat) : (h.reachDue b due).rad = h.rad := by
  obtain ⟨_, e⟩ := h.reachDue_eq b due; rw [e, Hub.tickN_rad]
@[simp] theorem Hub.reachDue_hlt (h : Hub) (b due : Nat) : (h.reachDue b due).hlt = h.hlt := by
  obtain ⟨_, e⟩ := h.reachDue_eq b due; rw [e, Hub.tickN_hlt]
@[simp] theorem Hub.reachDue_sup (h : Hub) (b due : Nat) : (h.reachDue b due).sup = h.sup := by
  obtain ⟨_, e⟩ := h.reachDue_eq b due; rw [e, Hub.tickN_sup]
@[simp] theorem Hub.reachDue_metFollows (h : Hub) (b due : Nat) : (h.reachDue b due).metFollows = h.metFollows := by
  obtain ⟨_, e⟩ := h.reachDue_eq b due; rw [e, Hub.tickN_metFollows]
@[simp] theorem Hub.reachDue_metFifo (h : Hub) (b due : Nat) : (h.reachDue b due).metFifo = h.metFifo := by
  obtain ⟨_, e⟩ := h.reachDue_eq b due; rw [e, Hub.tickN_metFifo]
@[simp] theorem Hub.reachDue_metGap (h : Hub) (b due : Nat) : (h.reachDue b due).metGap = h.metGap := by
  obtain ⟨_, e⟩ := h.reachDue_eq b due; rw [e, Hub.tickN_metGap]
@[simp] theorem Hub.reachDue_asleep (h : Hub) (b due : Nat) : (h.reachDue b due).asleep = h.asleep := by
  obtain ⟨_, e⟩ := h.reachDue_eq b due; rw [e, Hub.tickN_asleep]
@[simp] theorem Hub.reachDue_free (h : Hub) (b due : Nat) : (h.reachDue b due).free = h.free := by
  obtain ⟨_, e⟩ := h.reachDue_eq b due; rw [e, Hub.tickN_free]
@[simp] theorem Hub.reachDue_cell (h : Hub) (b due : Nat) (i j k : Nat) : (h.reachDue b due).cell i j k = h.cell i j k := by
  unfold Hub.cell; rw [Hub.reachDue_cells]
@[simp] theorem Hub.reachDue_cf (h : Hub) (b due : Nat) (i j k lo len : Nat) : (h.reachDue b due).cf i j k lo len = h.cf i j k lo len := by
  unfold Hub.cf; rw [Hub.reachDue_cell]
@[simp] theorem Hub.reachDue_reg (h : Hub) (b due : Nat) (a : Nat) : (h.reachDue b due).reg a = h.reg a := by
  unfold Hub.reg; rw [Hub.reachDue_regs]
@[simp] theorem Hub.reachDue_rd (h : Hub) (b due : Nat) (f : Fld) : (h.reachDue b due).rd f = h.rd f := by
  unfold Hub.rd; rw [Hub.reachDue_reg]
@[simp] theorem Hub.reachDue_is (h : Hub) (b due : Nat) (f : Fld) : (h.reachDue b due).is f = h.is f := by
  unfold Hub.is; rw [Hub.reachDue_rd]

/-- The cycle counter after `n` cycles with the gates open. -/
theorem Hub.tickN_cyc (h : Hub) (n : Nat) (hg : h.clk.gates = true) : (h.tickN n).cyc = h.cyc + n := by
  unfold Hub.tickN
  split
  · next hc =>
    simp only [hg, Bool.not_true, Bool.or_false, decide_eq_true_eq] at hc
    omega
  · rw [foldl_keep (fun x : Hub => x.cyc) _ (fun _ _ => by simp)]

theorem Hub.reach_cyc (h : Hub) (c : Nat) (hg : h.clk.gates = true) : (h.reach c).cyc = max h.cyc c := by
  unfold Hub.reach
  rw [Hub.tickN_cyc h _ hg]
  omega

end Sys2Proof.Machine
end

