-- ==== Sys2Proof/Tests/Slice0.lean ====
section
/-! SUPPORT. Small tests of the model: ill-formed terms, steps on small states with results worked out from the spec, and for each
statement with hypotheses a state and operands that meet them together (`witness_<statement>_<clause>`). -/

namespace Sys2Proof.Tests
open Sys2Proof Sys2Proof.Machine

set_option maxRecDepth 100000

/-! ### Small states -/

/-- A hub that runs a loaded structure, with register words and configuration cells of the test's choice. -/
def wLive (regs cells : List (Nat × Word)) : Hub :=
  let h0 : Hub := { Hub.reset with clk := { (default : Clk) with step := 6, gates := true } }
  let h1 := regs.foldl (fun h e => h.setReg e.1 e.2) ((h0.wr fGlbStatusRun 3).on fLdrStatusConfigured)
  cells.foldl (fun h e => h.setCell e.1 e.2) h1

/-- The state around a hub. -/
def wSt (h : Hub) : State := { State.reset with hub := h }

/-- A context 0 with one stage of a kind on tile 0, slot 0, whose parameter cell 4 is given, after `n` inputs, an input waiting. -/
def wStageF (kind n par : Nat) (cells : List (Nat × Word)) (f : Stage → Stage) (x : Samp) : State :=
  let h := wLive [(0xA0008, 1#32)] ([(0x520000, 0x12#32), (0x500400, BitVec.ofNat 32 kind), (0x500404, BitVec.ofNat 32 par)] ++ cells)
  wSt { h with
    ctx := [(0, { (default : Ctx) with inq := [x] })]
    stg := NMap.set [] 0 (f { (default : Stage) with n := n }) }

/-- The same with an untouched stage and the sample 7. -/
def wStage (kind n par : Nat) (cells : List (Nat × Word)) : State :=
  wStageF kind n par cells id { val := 7#24, tag := 0#8, time := 0 }

/-- A TIME record of context 0 with a MEAN. -/
def wRec (v : Word) : FeaRec := { ctx := 0, set := 0, tag := 0#8, time := 5, vals := [v], cyc := 0 }

/-- Entry 0 watches the MEAN of context 0, warning at 1.0 and alarm at 2.0 with on and off counts of 1; one record waits. -/
def wLim (f : Hub → Hub) : State :=
  let h := wLive [] [(0x604000, 1#32), (0x604002, 0x2000#32), (0x700000, 0x80000000#32), (0x700001, 0x3F800000#32), (0x700002, 0x40000000#32)]
  wSt (f { h with lim := { (default : Lim) with fifo := [wRec 0x3E000000#32] } })

/-- A cascade frame with a payload of plain words. -/
def wFrame (bcast : Bool) (dst : BitVec 9) (sub : BitVec 6) (ws : List Word) : CasFrame :=
  { bcast := bcast, dst := dst, src := 7#9, sub := sub, seq := 0#12, cont := false, words := ws.map (fun w => qword false 7 0 w), crcOk := true }

/-- The status word of a cascade port in a state, with a partner of a role (plus one). -/
def wPort (st partner : Nat) : Word := BitVec.ofNat 32 (st * 536870912 + partner * 134217728)

/-- A hub with its UP, DN and BR ports in the given states. -/
def wTree (up dn br : Nat) (f : Hub → Hub) (cells : List (Nat × Word)) : State :=
  let w (st role : Nat) : Word := if st = 0 then 0#32 else wPort st role
  wSt (f (wLive [(0x1D0000, w up 2), (0x1D0100, w dn 1), (0x1D0200, w br 1)] ([(cellKey 11 0 0, 1#32), (cellKey 11 1 0, 1#32), (cellKey 11 2 0, 1#32)] ++ cells)))

/-- The same as the master's. -/
def wMaster (dn br : Nat) (f : Hub → Hub) (cells : List (Nat × Word)) : State :=
  let s := wTree 0 dn br f cells
  { s with fixed := { s.fixed with cmstr := true } }

/-- A hub with its radio in a state, mode MANUAL, changed by `f`. -/
def wRad (st : Nat) (cells : List (Nat × Word)) (f : Radio → Radio) (g : Hub → Hub) : State :=
  let h := wLive [(rRadStatus, BitVec.ofNat 32 (st * 268435456))] cells
  wSt (g { h with rad := f { (default : Radio) with mode := 1 } })

/-- A command of the radio. -/
def wCmd (op node : Nat) : RadCmd := { (default : RadCmd) with op := op, node := node, chan := 15 }

/-- A received radio frame. -/
def wRx (bytes : List Byte) (ok : Bool) : RadFrame := { bytes := bytes, fcsOk := ok, rssi := 9#8, lqi := 200#8 }

/-- A partition out of MPOR, OPEN and configured, changed by `f`. -/
def wMet (regs cells : List (Nat × Word)) (f : Met → Met) (g : Hub → Hub) : State :=
  let m0 : Met := { State.reset.met with up := true, outcome := 1, cells := cells.foldl (fun a e => NMap.setD a e.1 e.2 (metDefault (e.1 / 4096 % 256) (e.1 % 4096))) [] }
  let m1 := regs.foldl (fun (a : Met) e => a.setReg e.1 e.2) (m0.wr fMetLidState 1)
  { State.reset with hub := g (wLive [] []), met := f m1 }
/-- A hub that stages part of a CONTEXTS section read from flash image A. -/
def witnessStage : State :=
  let h : Hub := { Hub.reset with
    clk := { (default : Clk) with gates := true }
    ldr := { (default : Ldr) with
      flash := 1, inPart := true, sect := 5, total := 9, mask := 32, seen := 32, lastSect := 5, sel := true
      item := { (default : LdrItem) with kind := 1, left := 100 } } }
  { State.reset with hub := ((h.wr fLdrStatusState 2).wr fLdrStatusSrc 1).wr fLdrStatusFrames 3 }

/-- Its next frame, index 3 of section 5, all payload words zero. -/
def witnessFrame : List Word :=
  let b := 0x05000003#32 :: List.replicate 64 0#32
  b ++ [crc32Words b]


/-- A hub that skips the last part of a partial stream of the host, whose last frame waits in the FIFO; q62 is enabled. -/
def witnessLastFrame : List Word :=
  let b := 0x05200003#32 :: List.replicate 64 0#32
  b ++ [crc32Words b]
def witnessLast : State :=
  let h : Hub := { Hub.reset with
    clk := { (default : Clk) with gates := true }
    ldr := { (default : Ldr) with
      partialLoad := true, inPart := true, sect := 5, total := 4, mask := 32, seen := 32, lastSect := 5, builds := [1#32, 2#32]
      fifo := witnessLastFrame.map (fun w => { src := 2, word := w }) } }
  { State.reset with hub := (((h.wr fLdrStatusState 3).wr fLdrStatusSrc 2).wr fLdrStatusFrames 3).setCell (cellKey 9 62 0) 1#32 }

/-! ### Ill-formed terms and single steps -/

/-- A frame of the host port with a number of words. -/
def tFrame (n : Nat) : HspFrame :=
  { cmd := 0x58#8, count := 1#8, addr := 0x10000#24, words := List.replicate n 0#32, crc := 0#16, edges := 48, hz := 50000000, contend := false }

theorem test_wf_accepts : (Instr.hspWrite (tFrame 256)).wf = true ∧ (Instr.enum 0 (wFrame false 0#9 0#6 [])).wf = true := by decide
theorem test_wf_hsp_write_too_long : (Instr.hspWrite (tFrame 257)).wf = false := by decide
theorem test_wf_hsp_read_with_words : (Instr.hspRead (tFrame 1)).wf = false := by decide
theorem test_wf_five_lanes : (Instr.portFrameComplete 0 [1, 2, 3, 4, 5] [] 0 false true).wf = false := by decide
theorem test_wf_five_shadow_lanes : (Instr.portFrameComplete 0 [] [1, 2, 3, 4, 5] 0 false true).wf = false := by decide
theorem test_wf_cascade_frame_too_long : (Instr.dataFrameReceive 1 (wFrame false 0#9 0#6 (List.replicate 513 0#32))).wf = false := by
  decide +kernel
theorem test_wf_time_frame_of_seven_words : (Instr.timeFrameReceive (wFrame false 0#9 0#6 (List.replicate 7 0#32))).wf = false := by decide
theorem test_wf_radio_frame_too_long : (Instr.radioFrameReceived (wRx (List.replicate 128 0#8) true)).wf = false := by decide

/-- spec/03: the quad read of two words with CRC takes 48 edges. -/
theorem test_quad_read_edges : (tFrame 0).total = 48 := by decide

/-- spec/02: the REL descriptor 0x04C0_0050 has its field at bit 0, 20 bits wide, and the factor 80. -/
theorem test_rel_descriptor : relLo 0x04C00050#32 = 0 ∧ relWidth 0x04C00050#32 = 20 ∧ relMul 0x04C00050#32 = 80 := by decide

/-- spec/07, first outputs: at input 3 the sieve replaces 900 by the median 108; at input 4 it keeps 108. -/
theorem test_sieve_replaces_spike : sieveTest 48 4 900 [108, 900, 104] = (108, true) ∧ (sieveTest 48 4 108 [112, 108, 900]).2 = false := by
  decide

/-- spec/12, actions written into the past: kt017 fires late by 3,400,002 ns, misses 3 and is next due at 100.004 s. -/
def tKt : State :=
  wSt { wLive [(rTmKtDue 17 1, 100#32), (rTmKtPer0 17, 1000000#32)] [] with tb := [(16, { (default : TimeBase) with val := 100003400000 * 2 ^ 48 })] }
/-- What a step leaves of the hub. -/
def tHub (o : Host.Outcome State Fault Refusal) : Hub :=
  match o with
  | .next t => t.hub
  | _ => Hub.reset
theorem test_kitchen_timer_past :
    let h := tHub (exec (.ktCtlWrite 17 0xD0000014#32) tKt)
    h.rd (fTmKtLatenessLateness 17) = 3400002 ∧ h.rd (fTmKtStMissed 17) = 3 ∧ h.rd (fTmKtDueDue 17 1) = 100 ∧
      h.rd (fTmKtDueDue 17 2) = 4000000 := by
  decide +kernel

/-- spec/13, the step of a child at hop 4: θ is 37.325 ns, and the edge of the step brings the increment of 1.25 ns (81,920 units of
2^-16 ns) less 37 ns and 21,299 units (R310). -/
def tChild : State :=
  wTree 2 2 0 (fun h => { (h.wr (fCasPAsymAsym 0) 350) with
    link := [(0, { (default : Link) with exNum := 7, t2 := some (500 * 65536000000000 + 652574720), t3 := some (500 * 65536000000000 + 783646720) })]
    tb := [(16, { (default : TimeBase) with val := 501 * 10 ^ 9 * 2 ^ 48 })] }) []
theorem test_child_steps_back :
    let h := tHub (exec (.timeFrameReceive (wFrame false 0#9 0#6
      [0x00070100#32, 0#32, 500#32, 0#32, 0#32, 0#32, 500#32, 21840#32])) tChild)
    h.is fCasStatusStepped = true ∧ 501 * 65536000000000 + 81920 - Sys2Proof.Machine.report (h.tbVal 16) = 37 * 65536 + 21299 := by
  decide +kernel

/-- spec/15, the handover on met3: channel 3, gain 120 ppm, offset −23 LSB. -/
theorem test_seam_entry : seamEntry 3 false (-23) (some 120) = 0x6078FFE9#32 := by decide

/-- spec/18, the VIN dip: recovered 100 µs after 2,680 µs, class 2, lowest 2,820 mV. -/
theorem test_vin_dip :
    let h := tHub (exec (.supplyRecovered 0) (wSt { wLive [] [] with
      cyc := 2224001, sup := { (default : Sup) with dip := [(0, { (default : Dip) with on := true, start := 1, low := 2820, win := 2144002 })] } }))
    h.rd fClkSupLastClass = 2 ∧ h.rd fClkSupLastDur = 2680 ∧ h.rd fClkSupMinMv = 2820 := by
  decide +kernel

/-- The command at the front runs first. -/
theorem test_first_in_first_out :
    tHub (step { State.reset with pending := [.ldrCommitArm 5#7, .porRelease] }) = tHub (exec (.ldrCommitArm 5#7) State.reset) := by decide

/-- Reset leaves the hub unconfigured with no record in the log. -/
theorem test_reset_runs : tHub (exec .porRelease State.reset) ≠ Hub.reset := by decide

/-- spec/07, the envelope chain just after a CONTEXT reset: the sieve settles for 2 outputs, the band-pass stage for 192, and
`fill` of the low-pass slot reads 19. -/
def tChain : Hub :=
  wLive [] [(cellKey 5 44 0, 0x31#32), (cellKey 5 44 0x10, 0x0B#32), (cellKey 5 44 0x11, 0x2B#32), (cellKey 5 44 0x12, 0x4B#32),
    (cellKey 5 11 0x400, 0x00C2#32), (cellKey 5 11 0x404, 5#32), (cellKey 5 11 0x410, 0x10C1#32), (cellKey 5 11 0x411, 0x17E00#32),
    (cellKey 5 11 0x420, 0x20C1#32), (cellKey 5 11 0x421, 0x10000#32), (cellKey 5 11 0x424, 0x3C0F#32)]
theorem test_settle_fill :
    tChain.slotFill 11 0 = some 2 ∧ tChain.slotFill 11 1 = some 192 ∧ tChain.slotFill 11 2 = some 19 ∧
      tChain.slotFill 11 3 = some 0 := by
  decide +kernel

/-! ### Hypotheses that can be met -/

theorem witness_ClockStart_1 : ∃ (s : State),
    s.hub.clk.step = 0 ∧ s.hub.asleep = false :=
  ⟨State.reset, by decide⟩

theorem witness_ClockStart_2 : ∃ (s : State),
    s.hub.clk.step = 1 ∧ s.hub.clk.recount = false :=
  ⟨{ State.reset with hub := { Hub.reset with clk := { (default : Clk) with step := 1 } } }, by decide⟩

theorem witness_ClockStart_3 : ∃ (s : State),
    s.hub.clk.step = 1 ∧ s.hub.clk.recount = true :=
  ⟨{ State.reset with hub := { Hub.reset with clk := { (default : Clk) with step := 1, recount := true } } }, by decide⟩

theorem witness_ClockStart_4 : ∃ (s : State),
    s.hub.is fClkStatusRefclkOk = true ∧ s.hub.clk.step ≠ 0 :=
  ⟨{ State.reset with hub := { Hub.reset with clk := { (default : Clk) with step := 2 }, regs := [(0x10000, 0x10#32)] } }, by decide⟩

theorem witness_ClockStart_5 : ∃ (s : State) (p : Pll),
    s.hub.is fClkStatusRefclkOk = true ∧ s.hub.clk.held = false ∧ (p = .time → s.hub.clk.holdover = false) ∧
    (p = .fabric → s.hub.is fClkStatusTimeLock = true) ∧ (p = .link → s.hub.linkPllOff = false) :=
  ⟨{ State.reset with hub := { Hub.reset with regs := [(0x10000, 0x30#32)] } }, .fabric, by decide⟩

theorem witness_ClockLoss_1 : ∃ (s : State) (p : Pll),
    s.hub.mayLock p = true ∧ s.hub.is (lockBit p) = false ∧ NMap.get s.hub.clk.fails (pllNo p) = 0 :=
  ⟨{ State.reset with hub := { Hub.reset with clk := { (default : Clk) with step := 2 }, regs := [(0x10000, 0x10#32)] } }, .time, by decide⟩

theorem witness_ClockLoss_2 : ∃ (s : State) (p : Pll),
    s.hub.mayLock p = true ∧ s.hub.is (lockBit p) = false ∧ NMap.get s.hub.clk.fails (pllNo p) ≠ 0 :=
  ⟨{ State.reset with hub := { Hub.reset with clk := { (default : Clk) with step := 2, fails := [(2, 1)] }, regs := [(0x10000, 0x10#32)] } }, .link, by decide⟩

theorem witness_ClockLoss_3 : ∃ (s : State),
    s.hub.clk.gates = true ∧ s.hub.is fClkStatusRefclkOk = true :=
  ⟨{ State.reset with hub := { Hub.reset with clk := { (default : Clk) with gates := true }, regs := [(0x10000, 0x70#32)] } }, by decide⟩

theorem witness_ClockLoss_4 : ∃ (s : State),
    s.hub.clk.holdover = true ∧ s.hub.clk.step ≠ 1 ∧ s.hub.clk.recount = false :=
  ⟨{ State.reset with hub := { Hub.reset with clk := { (default : Clk) with step := 2, gates := true, holdover := true } } }, by decide⟩

theorem witness_ClockLoss_5 : ∃ (s : State),
    s.hub.clk.holdover = true ∧ s.hub.clk.step ≠ 1 :=
  ⟨{ State.reset with hub := { Hub.reset with clk := { (default : Clk) with step := 2, gates := true, holdover := true } } }, by decide⟩

theorem witness_ClockLoss_6 : ∃ (s : State) (p : Pll),
    s.hub.is (lockBit p) = true ∧ (∀ r ∈ s.hub.flt.recs, runsOn r.scope p = false) :=
  ⟨{ State.reset with hub := { Hub.reset with clk := { (default : Clk) with gates := true }, regs := [(0x10000, 0xF0#32)] } }, .fabric, by decide⟩

theorem witness_FclkSteps_1 : ∃ (s : State) (point : Fin 3),
    s.hub.planFloor < point.val :=
  ⟨State.reset, 2, by decide⟩

theorem witness_FclkSteps_2 : ∃ (s : State) (point : Fin 3),
    point.val ≤ s.hub.planFloor ∧ s.hub.is fClkStatusSlewing = true :=
  ⟨{ State.reset with hub := { Hub.reset with regs := [(0x10000, 0x2000#32)] } }, 0, by decide⟩

theorem witness_FclkSteps_3 : ∃ (s : State) (point : Fin 3),
    point.val ≤ s.hub.planFloor ∧ s.hub.is fClkStatusSlewing = false ∧
    (s.hub.clk.holdover = true ∨ s.hub.is fClkStatusTimeLock = false ∨ s.hub.is fClkStatusFabLock = false) :=
  ⟨State.reset, 0, by decide⟩

theorem witness_FclkSteps_4 : ∃ (s : State) (point : Fin 3),
    point.val ≤ s.hub.planFloor ∧ s.hub.is fClkStatusSlewing = false ∧ s.hub.clk.holdover = false ∧
    s.hub.is fClkStatusTimeLock = true ∧ s.hub.is fClkStatusFabLock = true ∧ point.val ≠ s.hub.rd fClkStatusFclkPoint :=
  ⟨{ State.reset with hub := { Hub.reset with regs := [(0x10000, 0x1060#32)] } }, 1, by decide⟩

theorem witness_FclkSteps_5 : ∃ (s : State),
    s.hub.is fClkStatusSlewing = true ∧ s.hub.clk.slewStep < 64 :=
  ⟨{ State.reset with hub := { Hub.reset with regs := [(0x10000, 0x2060#32)] } }, by decide⟩

theorem witness_FclkSteps_6 : ∃ (s : State),
    s.hub.is fClkStatusSlewing = true ∧ s.hub.clk.slewStep = 64 :=
  ⟨{ State.reset with hub := { Hub.reset with clk := { (default : Clk) with slewTo := 1, slewStep := 64 }, regs := [(0x10000, 0x2060#32)] } }, by decide⟩

theorem witness_LoaderStream_1 : ∃ (s : State),
    s.hub.clk.gates = true ∧ s.hub.is fLdrStatusConfigured = false ∧ s.hub.ldrState = ldrIdle ∧ s.hub.ldr.flash = 0 ∧
    s.hub.rd fLdrBootImage = 0 ∧ s.hub.is fLdrCtlHoldBoot = false ∧ s.fixed.bootsrc.val < 2 :=
  ⟨{ State.reset with hub := { Hub.reset with clk := { (default : Clk) with gates := true } } }, by decide⟩

theorem witness_LoaderStream_2 : ∃ (s : State),
    s.hub.clk.gates = true ∧ s.hub.is fLdrStatusConfigured = false ∧ s.hub.ldrState = ldrIdle ∧ s.hub.ldr.flash = 0 ∧
    s.hub.rd fLdrBootImage = 0 ∧ (s.hub.is fLdrCtlHoldBoot = true ∨ 2 ≤ s.fixed.bootsrc.val) :=
  ⟨{ State.reset with fixed := { State.reset.fixed with bootsrc := 2 }, hub := { Hub.reset with clk := { (default : Clk) with gates := true } } }, by decide⟩

theorem witness_LoaderStream_3 : ∃ (s : State),
    s.hub.answers s.fixed s.met .ldr 0x020400 = true ∧ s.hub.stHeld heldFifo = false :=
  ⟨{ State.reset with hub := { Hub.reset with clk := { (default : Clk) with gates := true } } }, by decide⟩

theorem witness_LoaderStream_4 : ∃ (s : State) (flash : List Word) (ws : List Word) (src : Nat) (h1 : Hub),
    s.hub.nextFrame flash = some (src, ws, h1) ∧ h1.ldrState = ldrStage ∧ src = h1.rd fLdrStatusSrc ∧
    crc32Words (ws.take 65) = recWord ws 65 ∧ hdIndex (recWord ws 0) = h1.rd fLdrStatusFrames ∧
    h1.rd fLdrStatusFrames + 1 < h1.ldr.total ∧ h1.ldr.total ≤ 2048 ∧ sectionKnown (hdSect (recWord ws 0)) = true ∧
    hdSect (recWord ws 0) ≠ 15 ∧ fieldOf (recWord ws 0) 16 5 = 0 ∧ h1.ldr.inPart = true ∧
    hdFirst (recWord ws 0) = false ∧ hdLast (recWord ws 0) = false ∧ hdSect (recWord ws 0) = h1.ldr.sect ∧
    hdOpt (recWord ws 0) = h1.ldr.opt ∧ (h1.ldr.words s.fixed.variant h1.devnum ((ws.drop 1).take 64)).code = 0 ∧
    (h1.ldr.words s.fixed.variant h1.devnum ((ws.drop 1).take 64)).absent = none :=
  ⟨witnessStage, witnessFrame, witnessFrame, 1, witnessStage.hub, by decide +kernel⟩

theorem witness_LoaderStream_5 : ∃ (s : State) (flash : List Word) (ws : List Word) (src : Nat) (h1 : Hub),
    s.hub.nextFrame flash = some (src, ws, h1) ∧ (h1.ldrTake s.fixed src ws).ldrState = 4 ∧
    (h1.ldrTake s.fixed src ws).ldr.partialLoad = true ∧ (h1.ldrTake s.fixed src ws).checkCode s.fixed = 0 :=
  ⟨witnessLast, [], witnessLastFrame, 2, ((witnessLast.hub.modLdr (fun l => { l with fifo := dropWords 2 66 l.fifo })).showLevel), by decide +kernel⟩

theorem witness_LoaderStream_6 : ∃ (s : State) (flash : List Word) (ws : List Word) (src : Nat) (h1 : Hub),
    s.hub.nextFrame flash = some (src, ws, h1) ∧ (h1.ldrState = ldrStage ∨ h1.ldrState = ldrSkip) ∧
    src = h1.rd fLdrStatusSrc ∧ src ≠ 1 ∧ crc32Words (ws.take 65) ≠ recWord ws 65 :=
  ⟨{ witnessStage with hub := { witnessStage.hub with regs := [(0x20004, 0x28000001#32)], ldr := { witnessStage.hub.ldr with fifo := List.replicate 66 { src := 2, word := 0#32 } } } }, [], List.replicate 66 0#32, 2, ((({ witnessStage.hub with regs := [(0x20004, 0x28000001#32)], ldr := { witnessStage.hub.ldr with fifo := List.replicate 66 { src := 2, word := 0#32 } } } : Hub).modLdr (fun l => { l with fifo := dropWords 2 66 l.fifo })).showLevel), by decide +kernel⟩

theorem witness_LoaderStream_7 : ∃ (s : State),
    (s.hub.ldrState = ldrStage ∨ s.hub.ldrState = ldrSkip) ∧ s.hub.rd fLdrStatusSrc ≠ 1 :=
  ⟨{ State.reset with hub := { Hub.reset with regs := [(0x20004, 0x28000001#32)] } }, by decide⟩

theorem witness_LoaderStream_8 : ∃ (s : State),
    s.hub.answers s.fixed s.met .ldr 0x020000 = true ∧
    (s.hub.ldrState = ldrStage ∨ s.hub.ldrState = ldrSkip ∨ s.hub.ldrState = ldrReady) ∧ s.hub.rd fLdrStatusSrc ≠ 1 :=
  ⟨{ State.reset with hub := { Hub.reset with clk := { (default : Clk) with gates := true }, regs := [(0x20004, 0x58000001#32)] } }, by decide⟩

theorem witness_LoaderStream_9 : ∃ (s : State),
    s.hub.ldrState = ldrReject :=
  ⟨{ State.reset with hub := { Hub.reset with regs := [(0x20004, 0x78000001#32)] } }, by decide⟩

theorem witness_LoaderCommit_1 : ∃ (s : State),
    s.hub.answers s.fixed s.met .ldr 0x020010 = true ∧ s.hub.ldrState = ldrReady :=
  ⟨{ State.reset with hub := { Hub.reset with clk := { (default : Clk) with gates := true }, regs := [(0x20004, 0x58000001#32)], ldr := { (default : Ldr) with partialLoad := true, plan := some 1, staged := [{ key := 0xD00005, word := 9#32 }] } } }, by decide⟩

theorem witness_LoaderCommit_2 : ∃ (s : State),
    s.hub.answers s.fixed s.met .ldr 0x020010 = true ∧ s.hub.ldrState ≠ ldrReady :=
  ⟨{ State.reset with hub := { Hub.reset with clk := { (default : Clk) with gates := true } } }, by decide⟩

theorem witness_LoaderCommit_3 : ∃ (s : State),
    s.hub.answers s.fixed s.met .ldr 0x020010 = true :=
  ⟨{ State.reset with hub := { Hub.reset with clk := { (default : Clk) with gates := true } } }, by decide⟩

theorem witness_LoaderCommit_4 : ∃ (s : State) (sect : Fin 16) (unit : Fin 256),
    s.hub.ldrState = ldrCommit ∧ sect.val ≠ 5 ∧ sect.val ≠ 15 ∧ (sect.val ≠ 6 ∨ 4 ≤ unit.val) ∧
    s.hub.ldr.todo.contains (sect.val, effectUnit sect unit) = true ∧
    s.hub.effectReady sect (effectUnit sect unit) = true :=
  ⟨{ State.reset with hub := { Hub.reset with regs := [(0x20004, 0x68000001#32)], ldr := { (default : Ldr) with todo := [(13, 0)] } } }, 13, 0, by decide⟩

theorem witness_LoaderCommit_5 : ∃ (s : State) (sect : Fin 16) (unit : Fin 256),
    s.hub.ldrState = ldrCommit ∧ (sect.val = 1 ∨ sect.val = 2 ∨ sect.val = 3 ∨ sect.val = 4) ∧
    s.hub.ldr.todo.contains (sect.val, effectUnit sect unit) = true ∧
    s.hub.effectReady sect (effectUnit sect unit) = true :=
  ⟨{ State.reset with hub := { Hub.reset with regs := [(0x20004, 0x68000001#32)], ldr := { (default : Ldr) with todo := [(4, 2)], commit := [{ key := cellKey 4 2 0, word := 9#32 }] } } }, 4, 2, by decide⟩

theorem witness_LoaderCommit_6 : ∃ (s : State),
    s.hub.ldrState = ldrCommit ∧ s.hub.ldr.todo.contains (13, 0) = true :=
  ⟨{ State.reset with hub := { Hub.reset with regs := [(0x20004, 0x68000001#32)], ldr := { (default : Ldr) with todo := [(13, 0)], commit := [{ key := cellKey 13 0 5, word := 9#32 }] } } }, by decide⟩

theorem witness_LoaderCommit_7 : ∃ (s : State) (e : Fin 4),
    s.hub.ldrState = ldrCommit ∧ s.hub.ldr.todo.contains (6, e.val) = true ∧
    (∀ x ∈ s.hub.writesOf 6 e, x.key % 4096 < 1024 ∧ s.hub.jobAtEdge e (x.key % 4096 / 16) = true) :=
  ⟨{ State.reset with hub := { Hub.reset with regs := [(0x20004, 0x68000001#32)], ldr := { (default : Ldr) with todo := [(6, 1)], commit := [{ key := cellKey 6 1 16, word := 1#32 }] } } }, 1, by decide⟩

theorem witness_LoaderCommit_8 : ∃ (s : State) (unit : Fin 256),
    s.hub.ldrState = ldrCommit ∧ s.hub.ldr.todo.contains (5, unit.val) = true :=
  ⟨{ State.reset with hub := { Hub.reset with regs := [(0x20004, 0x68000001#32)], ldr := { (default : Ldr) with todo := [(5, 32)], commit := [{ key := cellKey 5 32 0, word := 1#32 }] } } }, 32, by decide⟩

theorem witness_LoaderCommit_9 : ∃ (s : State) (unit : Fin 256),
    s.hub.ldrState = ldrCommit ∧ s.hub.ldr.todo.contains (5, unit.val) = true ∧
    (∀ c ∈ List.range 224, s.hub.ctxRuns c = false) ∧ (∀ u ∈ List.range 32, s.hub.fadeHolds u = false) :=
  ⟨{ State.reset with hub := { Hub.reset with regs := [(0x20004, 0x68000001#32)], ldr := { (default : Ldr) with todo := [(5, 32)], commit := [{ key := cellKey 5 32 0, word := 1#32 }] } } }, 32, by decide⟩

theorem witness_LoaderCommit_10 : ∃ (s : State),
    s.hub.ldrState = ldrCommit ∧ s.hub.ldr.todo.contains (15, 0) = true ∧ s.fixed.variant.hasMet = true ∧
    s.met.up = true :=
  ⟨{ State.reset with hub := { Hub.reset with regs := [(0x20004, 0x68000001#32)], ldr := { (default : Ldr) with todo := [(15, 0)] } }, met := { Met.reset with up := true } }, by decide⟩

theorem witness_LoaderCommit_11 : ∃ (s : State),
    s.hub.ldr.booted ≠ 0 ∧ s.fixed.bootsrc.val < 2 ∧ s.fixed.variant.hasMet = true ∧ s.met.up = true ∧
    s.met.outcome = 0 :=
  ⟨{ State.reset with hub := { Hub.reset with ldr := { (default : Ldr) with booted := 1 } }, met := { Met.reset with up := true } }, by decide⟩

theorem witness_LoaderCommit_12 : ∃ (s : State) (words : List Word),
    s.hub.ldr.booted ≠ 0 ∧ s.fixed.bootsrc.val < 2 ∧ s.fixed.variant.hasMet = true ∧ s.met.up = true ∧
    s.met.outcome = 0 ∧ s.met.rd fMetLidState = 2 ∧ s.met.rd8 (rMetLidSealed 0) ≠ sha256 words :=
  ⟨{ State.reset with hub := { Hub.reset with ldr := { (default : Ldr) with booted := 1 } }, met := { Met.reset with up := true, regs := [(0x800100, 0x40000000#32)] } }, [], by decide⟩

theorem witness_LoaderCommit_13 : ∃ (s : State) (words : List Word),
    s.hub.ldr.booted ≠ 0 ∧ s.fixed.bootsrc.val < 2 ∧ s.fixed.variant.hasMet = true ∧ s.met.up = true ∧
    s.met.outcome = 0 ∧ s.met.rd fMetLidState = 1 ∧ s.met.auditMax = false ∧
    (metroTable (metroAgain s.fixed s.hub words)).all (fun e => metCellOk (e.1 / 4096 % 256) (e.1 % 4096) e.2) = true :=
  ⟨{ State.reset with hub := { Hub.reset with ldr := { (default : Ldr) with booted := 1 } }, met := { Met.reset with up := true } }, [0xF0000000#32], by decide⟩

theorem witness_HostPorts_1 : ∃ (s : State) (f : HspFrame) (w : Word),
    s.hub.railHeld 2 = false ∧ s.hub.asleep = false ∧ f.op = 1 ∧ (f.crcOn = true ∨ s.hub.is fHstCfgCrcReq = false) ∧
    8 ≤ f.edges ∧ f.errors = [] ∧ f.data = [w] ∧ f.addr.toNat % 4 = 0 :=
  ⟨State.reset, { cmd := 0x20#8, count := 0#8, addr := 0x10#24, words := [5#32], crc := 0#16, edges := 72, hz := 50000000, contend := false }, 5#32, by decide⟩

theorem witness_HostPorts_2 : ∃ (s : State) (f : HspFrame),
    s.hub.railHeld 2 = false ∧ s.hub.asleep = false ∧ f.op = 1 ∧ (f.crcOn = true ∨ s.hub.is fHstCfgCrcReq = false) ∧
    8 ≤ f.edges ∧ f.errors ≠ [] :=
  ⟨State.reset, { cmd := 0x20#8, count := 0#8, addr := 0x10#24, words := [5#32], crc := 0#16, edges := 73, hz := 50000000, contend := false }, by decide⟩

theorem witness_HostPorts_3 : ∃ (s : State) (f : HspFrame),
    s.hub.railHeld 2 = false ∧ s.hub.asleep = false ∧ f.op = 2 ∧ (f.crcOn = true ∨ s.hub.is fHstCfgCrcReq = false) ∧
    f.addr.toNat % 4 = 0 ∧ f.n = 1 ∧ f.edges = f.total ∧ f.crcBad = false ∧ f.early = false ∧
    (f.quad && f.contend) = false :=
  ⟨State.reset, { cmd := 0x40#8, count := 0#8, addr := 0x10#24, words := [], crc := 0#16, edges := 80, hz := 50000000, contend := false }, by decide⟩

theorem witness_HostPorts_4 : ∃ (s : State) (f : HspFrame),
    s.hub.railHeld 2 = false ∧ s.hub.asleep = false ∧ f.op = 2 ∧ (f.crcOn = true ∨ s.hub.is fHstCfgCrcReq = false) ∧
    f.addr = 0x10#24 ∧ f.n = 1 ∧ f.edges = f.total ∧ f.crcBad = false ∧ f.early = false ∧
    (f.quad && f.contend) = false :=
  ⟨State.reset, { cmd := 0x40#8, count := 0#8, addr := 0x10#24, words := [], crc := 0#16, edges := 80, hz := 50000000, contend := false }, by decide⟩

theorem witness_HostPorts_5 : ∃ (s : State) (f : HspFrame),
    s.hub.railHeld 2 = false ∧ s.hub.asleep = false ∧ f.op = 2 ∧ (f.crcOn = true ∨ s.hub.is fHstCfgCrcReq = false) ∧
    f.errors = [] ∧ f.addr.toNat % 4 = 0 ∧ f.early = true ∧ (f.quad && f.contend) = false :=
  ⟨State.reset, { cmd := 0x40#8, count := 0#8, addr := 0x10#24, words := [], crc := 0#16, edges := 80, hz := 400000000, contend := false }, by decide⟩

theorem witness_HostPorts_6 : ∃ (s : State) (f : HspFrame),
    s.hub.railHeld 2 = false ∧ s.hub.asleep = false ∧ f.op = 2 ∧ (f.crcOn = true ∨ s.hub.is fHstCfgCrcReq = false) ∧
    f.edges = f.total ∧ (f.crcBad = true ∨ f.misaligned = true) ∧ (f.quad && f.contend) = false :=
  ⟨State.reset, { cmd := 0x40#8, count := 0#8, addr := 0x11#24, words := [], crc := 0#16, edges := 80, hz := 50000000, contend := false }, by decide⟩

theorem witness_HostPorts_7 : ∃ (s : State) (cmd : BitVec 8),
    s.hub.railHeld 2 = false ∧ s.hub.asleep = false ∧ cmd.toNat / 32 ≠ 1 ∧ cmd.toNat / 32 ≠ 2 :=
  ⟨State.reset, 0xE0#8, by decide⟩

theorem witness_HostPorts_8 : ∃ (s : State) (addr : BitVec 24) (i : Nat),
    s.hub.railHeld 2 = false ∧ s.hub.asleep = false ∧ addr.toNat % 4 = 0 ∧ addr.toNat + 4 * i < 16777216 ∧
    blkOf (addr.toNat + 4 * i) = blkOf addr.toNat ∧ s.hub.host.htwIdle = false :=
  ⟨State.reset, 0x10#24, 4, by decide⟩

theorem witness_HostPorts_9 : ∃ (s : State) (addr : BitVec 24) (i : Nat),
    s.hub.railHeld 2 = false ∧ s.hub.asleep = false ∧ addr.toNat % 4 = 0 ∧ (blkOf addr.toNat).2 ≤ addr.toNat + 4 * i ∧
    addr.toNat + 4 * i < 16777216 ∧ (blkOf addr.toNat).1 ≠ .dbg ∧ (blkOf addr.toNat).1 ≠ .ldr ∧
    (blkOf addr.toNat).1 ≠ .cas ∧ blkReady s.fixed.variant s.hub s.met (blkOf addr.toNat).1 = true :=
  ⟨State.reset, 0x104#24, 3, by decide⟩

theorem witness_HostPorts_10 : ∃ (s : State) (addr : BitVec 24) (i : Nat),
    s.hub.railHeld 2 = false ∧ s.hub.asleep = false ∧ addr.toNat % 4 = 0 ∧ addr.toNat + 4 * i < 16777216 ∧
    blkOf (addr.toNat + 4 * i) = blkOf addr.toNat ∧ s.hub.host.htwIdle = false :=
  ⟨State.reset, 0x10#24, 4, by decide⟩

theorem witness_HostPorts_11 : ∃ (s : State),
    s.hub.railHeld 2 = false ∧ s.hub.asleep = false :=
  ⟨State.reset, by decide⟩

theorem witness_HostPorts_12 : ∃ (s : State) (addr : BitVec 24),
    s.hub.asleep = false ∧ (addr = 0x10#24 ∨ addr = 0x20#24 ∨ addr = 0x28#24 ∨ addr = 0x100#24) :=
  ⟨State.reset, 0x20#24, by decide⟩

theorem witness_HostPorts_13 : ∃ (s : State),
    s.hub.asleep = false :=
  ⟨{ State.reset with hub := { Hub.reset with regs := [(0x104, 0x4002#32)] } }, by decide⟩

theorem witness_HostPorts_14 : ∃ (s : State),
    s.hub.asleep = false :=
  ⟨{ State.reset with hub := { Hub.reset with regs := [(0x10C, 0x30002#32)] } }, by decide⟩

theorem witness_HostTwoWireErrors_1 : ∃ (s : State),
    s.hub.railHeld 2 = false ∧ s.hub.asleep = false :=
  ⟨State.reset, by decide⟩

theorem witness_HostTwoWireErrors_2 : ∃ (s : State),
    s.hub.railHeld 2 = false ∧ s.hub.asleep = false :=
  ⟨State.reset, by decide⟩

theorem witness_HostTwoWireErrors_3 : ∃ (s : State) (n : Fin 4) (k : Fin 4),
    s.hub.railHeld 2 = false ∧ s.hub.asleep = false ∧ (n = 1 ∨ n = 2 ∨ n = 3 ∧ k ≠ 0) :=
  ⟨State.reset, 3, 3, by decide⟩

theorem witness_HostTwoWireErrors_4 : ∃ (s : State) (n : Fin 4) (k : Fin 4),
    s.hub.railHeld 2 = false ∧ s.hub.asleep = false ∧ (n = 0 ∨ n = 3 ∧ k = 0) :=
  ⟨State.reset, 3, 0, by decide⟩

theorem witness_HostTwoWireErrors_5 : ∃ (s : State),
    s.hub.asleep = true ∧ s.hub.sup.wake = 0 :=
  ⟨{ State.reset with hub := { Hub.reset with asleep := true } }, by decide⟩

theorem witness_GlobalCommit_1 : ∃ (s : State),
    s.hub.answers s.fixed s.met .glb 0x8 = true :=
  ⟨State.reset, by decide⟩

theorem witness_GlobalCommit_2 : ∃ (s : State),
    s.hub.answers s.fixed s.met .glb 0x8 = true ∧ s.hub.ldr.taken ≠ s.hub.cyc + 1 :=
  ⟨wSt { wLive [] [] with host := { (default : HostIf) with shadows := [{ addr := 0x80200, lo := 0, len := 32, val := 77 }] } }, by decide⟩

theorem witness_GlobalCommit_3 : ∃ (s : State) (x : Shadow),
    s.hub.answers s.fixed s.met .glb 0x8 = true ∧ s.hub.ldr.taken ≠ s.hub.cyc + 1 ∧ x ∈ s.hub.host.shadows ∧
    (∀ y ∈ s.hub.host.shadows, y.addr = x.addr → y = x) ∧
    (List.range 17).all (fun k => s.hub.host.shadows.all (fun y => y.addr != rTmTbCtl k)) = true ∧ x.lo + x.len ≤ 32 :=
  ⟨wSt { wLive [] [] with host := { (default : HostIf) with shadows := [{ addr := 0x80200, lo := 0, len := 32, val := 77 }, { addr := 0x40004, lo := 0, len := 16, val := 9 }, { addr := 0x1C0014, lo := 0, len := 32, val := 3 }] } }, { addr := 0x40004, lo := 0, len := 16, val := 9 }, by decide⟩

theorem witness_GlobalCommit_4 : ∃ (s : State),
    s.hub.answers s.fixed s.met .glb 0x8 = true ∧ s.hub.host.shadows = [] ∧
    (List.range 24).all (fun p => (s.hub.port p).newRole.isNone && (s.hub.port p).newDiv.isNone) = true :=
  ⟨wSt (wLive [] []), by decide⟩

theorem witness_GlobalCommit_5 : ∃ (s : State) (x : Shadow),
    s.hub.answers s.fixed s.met .glb 0x8 = true ∧ s.hub.ldr.taken ≠ s.hub.cyc + 1 ∧ s.hub.host.shadows = [x] ∧
    0x80000 ≤ x.addr ∧ x.addr < 0xA0000 ∧ x.lo + x.len ≤ 32 ∧
    (List.range 24).all (fun p => (s.hub.port p).newRole.isNone && (s.hub.port p).newDiv.isNone) = true :=
  ⟨wSt { wLive [] [] with host := { (default : HostIf) with shadows := [{ addr := 0x80200, lo := 0, len := 32, val := 77 }] } }, { addr := 0x80200, lo := 0, len := 32, val := 77 }, by decide⟩

theorem witness_PortFrames_1 : ∃ (s : State) (p : Fin 24),
    s.hub.spUp p = true ∧ s.hub.spOn p = true ∧ s.hub.spTarget p = false ∧ (s.hub.port p).phase = 0 ∧
    (s.hub.port p).heldStart = none :=
  ⟨wSt (wLive [] [(0x302001, 4#32)]), 2, by decide⟩

theorem witness_PortFrames_2 : ∃ (s : State) (p : Fin 24),
    s.hub.spUp p = true ∧ s.hub.spOn p = true ∧ s.hub.spTarget p = false ∧ (s.hub.port p).phase ≠ 0 ∧
    (s.hub.port p).heldStart = none :=
  ⟨wSt { wLive [] [(0x302001, 4#32)] with sp := [(2, { (default : Port) with phase := 1 })] }, 2, by decide⟩

theorem witness_PortFrames_3 : ∃ (s : State) (p : Fin 24),
    s.hub.spUp p = true ∧ s.hub.spOn p = true ∧ s.hub.spTarget p = false ∧ (s.hub.port p).heldStart ≠ none :=
  ⟨wSt { wLive [] [(0x302001, 4#32)] with sp := [(2, { (default : Port) with phase := 1, heldStart := some 4 })] }, 2, by decide⟩

theorem witness_PortFrames_4 : ∃ (s : State) (p : Fin 24) (c : Nat),
    (s.hub.port p).heldStart = some c ∧ (s.hub.port p).phase = 0 ∧ s.hub.spUp p = true ∧ s.hub.spOn p = true :=
  ⟨wSt { wLive [] [(0x302001, 4#32)] with cyc := 50, sp := [(2, { (default : Port) with heldStart := some 4 })] }, 2, 4, by decide⟩

theorem witness_PortFrames_5 : ∃ (s : State) (p : Fin 24),
    (s.hub.port p).phase = 1 ∧ s.hub.spTarget p = false :=
  ⟨wSt { wLive [] [(0x302001, 4#32)] with sp := [(2, { (default : Port) with phase := 1, stamp := 9 })] }, 2, by decide⟩

theorem witness_PortFrames_6 : ∃ (s : State) (p : Fin 24),
    (s.hub.port p).phase = 1 ∧ s.hub.spTarget p = false :=
  ⟨wSt { wLive [] [(0x302001, 4#32)] with sp := [(2, { (default : Port) with phase := 1, stamp := 9 })] }, 2, by decide⟩

theorem witness_PortFrames_7 : ∃ (s : State) (p : Fin 24) (c : Nat),
    (s.hub.port p).phase = 1 ∧ s.hub.spTarget p = false ∧ s.hub.spLanes p = 1 ∧ s.hub.spS p = 1 ∧ s.hub.spCrc p = 0 ∧
    s.hub.spSyncOn p = false ∧ s.hub.slotCtx p (s.hub.spMap p (s.hub.spEntry p)) 0 0 = some c ∧
    (s.hub.port p).fifo.length < 8 ∧ (s.hub.port p).gaps = [] ∧ s.hub.stHeld heldFifo = false :=
  ⟨wSt { wLive [] [(0x302000, 0x3C0#32), (0x302100, 0x803C0003#32)] with sp := [(2, { (default : Port) with phase := 1, stamp := 9, late := true })] }, 2, 3, by decide⟩

theorem witness_PortFrames_8 : ∃ (s : State) (p : Fin 24),
    (s.hub.port p).phase = 2 :=
  ⟨wSt { wLive [(0x41008, 1#32)] [(0x302001, 4#32)] with sp := [(2, { (default : Port) with phase := 2, newTap := some 0x04030201#32 })] }, 2, by decide⟩

theorem witness_PortFrames_9 : ∃ (s : State) (p : Fin 24),
    s.hub.answers s.fixed s.met .sp (0x040028 + 0x800 * p) = true :=
  ⟨wSt (wLive [] []), 23, by decide⟩

theorem witness_PortFrames_10 : ∃ (s : State) (p : Fin 24),
    (s.hub.port p).phase = 0 :=
  ⟨wSt { wLive [] [] with sp := [(2, { (default : Port) with newRole := some 1, newDiv := some 40, heldStart := some 3 })] }, 2, by decide⟩

theorem witness_PortFrames_11 : ∃ (s : State) (p : Fin 24),
    s.hub.answers s.fixed s.met .sp (0x040030 + 0x800 * p) = true :=
  ⟨wSt { wLive [] [] with sp := [(2, { (default : Port) with lastStamp := 2 ^ 80, flags := 5 })] }, 2, by decide⟩

theorem witness_PortTargets_1 : ∃ (s : State) (p : Fin 24),
    s.hub.spTarget p = true ∧ (s.hub.port p).phase = 0 ∧ s.hub.spUp p = true ∧ s.hub.spOn p = true :=
  ⟨wSt (wLive [(0x41000, 3#32)] [(0x302001, 4#32)]), 2, by decide⟩

theorem witness_PortTargets_2 : ∃ (s : State) (p : Fin 24),
    (s.hub.port p).phase = 1 ∧ s.hub.spTarget p = true ∧ (s.hub.port p).edges < s.hub.spE p :=
  ⟨wSt { wLive [(0x41000, 3#32)] [(0x302000, 0x3C0#32)] with sp := [(2, { (default : Port) with phase := 1 })] }, 2, by decide⟩

theorem witness_PortTargets_3 : ∃ (s : State) (p : Fin 24),
    (s.hub.port p).phase = 1 ∧ s.hub.spTarget p = true ∧ (s.hub.port p).edges + 1 = s.hub.spE p :=
  ⟨wSt { wLive [(0x41000, 3#32)] [(0x302000, 0x3C0#32)] with sp := [(2, { (default : Port) with phase := 1, edges := 15 })] }, 2, by decide⟩

theorem witness_PortTargets_4 : ∃ (s : State) (p : Fin 24) (k : Nat) (c : Nat),
    (s.hub.port p).phase = 1 ∧ s.hub.spTarget p = true ∧ (s.hub.port p).edges < s.hub.spE p ∧
    (s.hub.port p).whole = true ∧ s.hub.spLanes p = 1 ∧ k < s.hub.spS p ∧
    (s.hub.port p).edges + 1 = s.hub.slotLast p k ∧ s.hub.spCrc p = 0 ∧ s.hub.spSyncOn p = false ∧
    s.hub.slotCtx p (s.hub.spMap p 0) 0 k = some c ∧ (s.hub.port p).fifo.length < 8 ∧ (s.hub.port p).gaps = [] ∧
    s.hub.stHeld heldFifo = false :=
  ⟨wSt { wLive [(0x41000, 3#32)] [(0x302000, 0x3C0#32), (0x302100, 0x803C0003#32)] with sp := [(2, { (default : Port) with phase := 1, edges := 15, whole := true, lanes := [(0, 0x4091)] })] }, 2, 0, 3, by decide⟩

theorem witness_PortTargets_5 : ∃ (s : State) (p : Fin 24),
    s.hub.spTarget p = true ∧ s.hub.spUp p = true ∧ s.hub.spOn p = true ∧
    ((s.hub.port p).phase = 0 ∨ (s.hub.port p).phase = 1 ∧ s.hub.spE p ≤ (s.hub.port p).edges) :=
  ⟨wSt (wLive [(0x41000, 3#32)] [(0x302001, 4#32)]), 2, by decide⟩

theorem witness_PortTargets_6 : ∃ (s : State) (p : Fin 24),
    s.hub.spTarget p = true ∧ (s.hub.port p).phase = 1 ∧ s.hub.spE p ≤ (s.hub.port p).edges :=
  ⟨wSt { wLive [(0x41000, 3#32)] [(0x302000, 0x3C0#32)] with sp := [(2, { (default : Port) with phase := 1, edges := 16 })] }, 2, by decide⟩

theorem witness_PortTargets_7 : ∃ (s : State) (p : Fin 24),
    s.hub.spTarget p = true ∧ (s.hub.port p).phase = 1 ∧ (s.hub.port p).edges < s.hub.spE p :=
  ⟨wSt { wLive [(0x41000, 3#32)] [(0x302000, 0x3C0#32)] with sp := [(2, { (default : Port) with phase := 1, edges := 7 })] }, 2, by decide⟩

theorem witness_PortTargets_8 : ∃ (s : State) (p : Fin 24) (w : FifoWord) (rest : List FifoWord) (u : Fin 32),
    s.hub.ingressTurn = some u.val ∧ u.val = p.val ∧ s.hub.stHeld heldFifo = false ∧ (s.hub.port p).fifo = w :: rest ∧
    w.real = true ∧ w.samp.has tAborted = false ∧ s.hub.ctxRuns w.ctx = true ∧ s.hub.ctxStages w.ctx ≠ 0 ∧
    (NMap.get s.hub.ctx w.ctx).inq.length < 16 ∧
    (s.hub.ctxShadow w.ctx = true → (s.hub.stg' (192 + w.ctx) 0).inq.length < 16) :=
  ⟨wSt { wLive [(0xA00C8, 1#32)] [(0x523000, 0x12#32)] with sp := [(2, { (default : Port) with fifo := [{ ctx := 3, real := true, samp := { val := 5#24, tag := 0#8, time := 7 } }] })] }, 2, { ctx := 3, real := true, samp := { val := 5#24, tag := 0#8, time := 7 } }, [], 2, by decide⟩

theorem witness_PortTargets_9 : ∃ (s : State) (p : Fin 24) (w : FifoWord) (rest : List FifoWord) (u : Fin 32),
    s.hub.ingressTurn = some u.val ∧ u.val = p.val ∧ s.hub.stHeld heldFifo = false ∧ (s.hub.port p).fifo = w :: rest ∧
    s.hub.ctxRuns w.ctx = true ∧ s.hub.ctxStages w.ctx ≠ 0 ∧ (NMap.get s.hub.ctx w.ctx).inq.length < 16 ∧
    (NMap.get s.hub.ctx w.ctx).gapIn = false ∧ s.hub.ctxShadow w.ctx = false ∧ NMap.get s.hub.flt.parity p ≠ 0 :=
  ⟨wSt { wLive [(0xA00C8, 1#32)] [(0x523000, 0x12#32)] with flt := { Hub.reset.flt with parity := [(2, 1)] }, sp := [(2, { (default : Port) with fifo := [{ ctx := 3, real := true, samp := { val := 5#24, tag := 0#8, time := 7 } }] })] }, 2, { ctx := 3, real := true, samp := { val := 5#24, tag := 0#8, time := 7 } }, [], 2, by decide⟩

theorem witness_PortTargets_10 : ∃ (s : State) (c : Fin 8) (w : FifoWord) (rest : List FifoWord) (u : Fin 32),
    s.hub.ingressTurn = some u.val ∧ u.val = 24 + c.val ∧ s.hub.stHeld heldFifo = false ∧
    (s.hub.twc c).fifo = w :: rest ∧ w.real = true ∧ w.samp.has tAborted = false ∧ s.hub.ctxRuns w.ctx = true ∧
    s.hub.ctxStages w.ctx ≠ 0 ∧ (NMap.get s.hub.ctx w.ctx).inq.length < 16 ∧
    (s.hub.ctxShadow w.ctx = true → (s.hub.stg' (192 + w.ctx) 0).inq.length < 16) :=
  ⟨wSt { wLive [(0xA00C8, 1#32)] [(0x523000, 0x12#32)] with tw := [(2, { (default : TwoWire) with fifo := [{ ctx := 3, real := true, samp := { val := 5#24, tag := 0#8, time := 7 } }] })] }, 2, { ctx := 3, real := true, samp := { val := 5#24, tag := 0#8, time := 7 } }, [], 26, by decide⟩

theorem witness_PortTargets_11 : ∃ (s : State),
    (List.range 32).all (fun v => s.hub.ingressLen v == 0) = true :=
  ⟨State.reset, by decide⟩

theorem witness_PortTargets_12 : ∃ (s : State) (u : Fin 32),
    s.hub.ingressTurn ≠ some u.val :=
  ⟨State.reset, 3, by decide⟩

theorem witness_TwoWirePolls_1 : ∃ (s : State) (c : Fin 8) (e : Fin 16),
    s.hub.twUp c = true ∧ s.hub.is (fTwCCtlEnable c) = true ∧ s.hub.pollsHeld = false ∧ e.val < s.hub.twEntries c ∧
    s.hub.is fClkStatusWclkTrim = true ∧ (s.hub.twc c).kind = 0 ∧ (s.hub.twc c).held = [] ∧
    (s.hub.twState c = twIdle ∨ s.hub.twState c = twStuck) :=
  ⟨wSt (wLive [(0x60400, 1#32), (0x10000, 0x100#32)] [(0x401001, 2#32)]), 1, 1, by decide⟩

theorem witness_TwoWirePolls_2 : ∃ (s : State) (c : Fin 8) (e : Fin 16),
    s.hub.twUp c = true ∧ s.hub.is (fTwCCtlEnable c) = true ∧ s.hub.pollsHeld = false ∧ e.val < s.hub.twEntries c ∧
    ((s.hub.twc c).kind ≠ 0 ∨ (s.hub.twc c).held ≠ [] ∨ s.hub.is fClkStatusWclkTrim = false) ∧
    NMap.get (s.hub.twc c).held e = 0 :=
  ⟨wSt { wLive [(0x60400, 1#32), (0x10000, 0x100#32)] [(0x401001, 2#32)] with tw := [(1, { (default : TwoWire) with kind := 1 })] }, 1, 1, by decide⟩

theorem witness_TwoWirePolls_3 : ∃ (s : State) (c : Fin 8) (e : Fin 16),
    s.hub.twUp c = true ∧ s.hub.is (fTwCCtlEnable c) = true ∧ s.hub.pollsHeld = false ∧ e.val < s.hub.twEntries c ∧
    NMap.get (s.hub.twc c).held e ≠ 0 :=
  ⟨wSt { wLive [(0x60400, 1#32), (0x10000, 0x100#32)] [(0x401001, 2#32)] with tw := [(1, { (default : TwoWire) with kind := 1, held := [(1, 5)] })] }, 1, 1, by decide⟩

theorem witness_TwoWirePolls_4 : ∃ (s : State) (c : Fin 8) (e : Fin 16) (a0 : Nat) (r0 : List (Nat × Nat)),
    s.hub.twBoundary c = true ∧ (s.hub.twc c).held = (e.val, a0) :: r0 :=
  ⟨wSt { wLive [(0x60400, 1#32), (0x10000, 0x100#32)] [(0x401001, 2#32)] with tw := [(1, { (default : TwoWire) with held := [(1, 5)] })] }, 1, 1, 5, [], by decide⟩

theorem witness_TwoWirePolls_5 : ∃ (s : State) (c : Fin 8),
    s.hub.twRunning c = true ∧ (s.hub.twc c).kind = 1 :=
  ⟨wSt { wLive [(0x60400, 3#32), (0x10000, 0x100#32)] [(0x401001, 2#32)] with tw := [(1, { (default : TwoWire) with kind := 1 })] }, 1, by decide⟩

theorem witness_TwoWirePolls_6 : ∃ (s : State) (c : Fin 8),
    s.hub.twRunning c = true ∧ (s.hub.twc c).kind = 1 ∧ s.hub.twReads c (s.hub.twc c).entry ≠ 0 ∧
    (s.hub.twc c).fifo.length + (s.hub.twFields c (s.hub.twc c).entry).length ≤ 8 ∧ (s.hub.twc c).gaps = [] ∧
    s.hub.stHeld heldFifo = false :=
  ⟨wSt { wLive [(0x60400, 3#32), (0x10000, 0x100#32)] [(0x401001, 2#32), (0x401010, 0x800#32), (0x401013, 0x801E0003#32)] with tw := [(1, { (default : TwoWire) with kind := 1, stamp := 6 })] }, 1, by decide⟩

theorem witness_TwoWirePolls_7 : ∃ (s : State) (c : Fin 8),
    s.hub.twRunning c = true ∧ (s.hub.twc c).kind = 1 ∧ (s.hub.twc c).attempt < s.hub.twRetries c (s.hub.twc c).entry :=
  ⟨wSt { wLive [(0x60400, 3#32), (0x10000, 0x100#32)] [(0x401001, 2#32), (0x401010, 0x8000#32)] with tw := [(1, { (default : TwoWire) with kind := 1 })] }, 1, by decide⟩

theorem witness_TwoWirePolls_8 : ∃ (s : State) (c : Fin 8),
    s.hub.twRunning c = true ∧
    ((s.hub.twc c).kind ≠ 1 ∨ s.hub.twRetries c (s.hub.twc c).entry ≤ (s.hub.twc c).attempt) :=
  ⟨wSt { wLive [(0x60400, 3#32), (0x10000, 0x100#32)] [(0x401001, 2#32)] with tw := [(1, { (default : TwoWire) with kind := 1 })] }, 1, by decide⟩

theorem witness_TwoWirePolls_9 : ∃ (s : State) (c : Fin 8),
    (s.hub.twc c).retry = true :=
  ⟨wSt { wLive [(0x60400, 3#32), (0x10000, 0x100#32)] [(0x401001, 2#32)] with tw := [(1, { (default : TwoWire) with kind := 1, retry := true })] }, 1, by decide⟩

theorem witness_TwoWireErrors_1 : ∃ (s : State) (c : Fin 8),
    s.hub.twRunning c = true ∧ (s.hub.twc c).kind = 1 ∧ (s.hub.twc c).attempt < s.hub.twRetries c (s.hub.twc c).entry :=
  ⟨wSt { wLive [(0x60400, 3#32), (0x10000, 0x100#32)] [(0x401001, 2#32), (0x401010, 0x8000#32)] with tw := [(1, { (default : TwoWire) with kind := 1 })] }, 1, by decide⟩

theorem witness_TwoWireErrors_2 : ∃ (s : State) (c : Fin 8),
    s.hub.twRunning c = true ∧
    ((s.hub.twc c).kind ≠ 1 ∨ s.hub.twRetries c (s.hub.twc c).entry ≤ (s.hub.twc c).attempt) :=
  ⟨wSt { wLive [(0x60400, 3#32), (0x10000, 0x100#32)] [(0x401001, 2#32)] with tw := [(1, { (default : TwoWire) with kind := 2 })] }, 1, by decide⟩

theorem witness_TwoWireErrors_3 : ∃ (s : State) (c : Fin 8),
    s.hub.twRunning c = true ∧ (s.hub.twc c).kind = 1 ∧ (s.hub.twc c).attempt < s.hub.twRetries c (s.hub.twc c).entry :=
  ⟨wSt { wLive [(0x60400, 3#32), (0x10000, 0x100#32)] [(0x401001, 2#32), (0x401010, 0x8000#32)] with tw := [(1, { (default : TwoWire) with kind := 1 })] }, 1, by decide⟩

theorem witness_TwoWireErrors_4 : ∃ (s : State) (c : Fin 8),
    s.hub.twRunning c = true ∧
    ((s.hub.twc c).kind ≠ 1 ∨ s.hub.twRetries c (s.hub.twc c).entry ≤ (s.hub.twc c).attempt) :=
  ⟨wSt { wLive [(0x60400, 3#32), (0x10000, 0x100#32)] [(0x401001, 2#32)] with tw := [(1, { (default : TwoWire) with kind := 2 })] }, 1, by decide⟩

theorem witness_TwoWireErrors_5 : ∃ (s : State) (c : Fin 8),
    s.hub.twUp c = true ∧ (s.hub.twState c = twBusy ∨ s.hub.twState c = twClear) :=
  ⟨wSt { wLive [(0x60400, 3#32), (0x10000, 0x100#32)] [(0x401001, 2#32)] with tw := [(1, { (default : TwoWire) with kind := 2 })] }, 1, by decide⟩

theorem witness_TwoWireErrors_6 : ∃ (s : State) (c : Fin 8),
    s.hub.twUp c = true ∧ s.hub.twState c = twIdle :=
  ⟨wSt (wLive [(0x60400, 1#32), (0x10000, 0x100#32)] [(0x401001, 2#32)]), 1, by decide⟩

theorem witness_TwoWireErrors_7 : ∃ (s : State) (c : Fin 8),
    s.hub.twState c = twClear :=
  ⟨wSt (wLive [(0x60400, 5#32)] []), 1, by decide⟩

theorem witness_TwoWireErrors_8 : ∃ (s : State) (c : Fin 8),
    s.hub.twState c = twClear :=
  ⟨wSt { wLive [(0x60400, 5#32)] [] with tw := [(1, { (default : TwoWire) with kind := 2 })] }, 1, by decide⟩

theorem witness_TwoWireTransfers_1 : ∃ (s : State) (c : Fin 8) (w : Word),
    s.hub.answers s.fixed s.met .tw (0x060018 + 0x400 * c) = true ∧ s.hub.is (fTwCXferBusy c) = false ∧
    bitOf w 31 = true ∧ fieldOf w 22 4 ≤ 12 ∧ s.hub.twState c ≠ twStuck :=
  ⟨wSt (wLive [] []), 3, 0x80480050#32, by decide⟩

theorem witness_TwoWireTransfers_2 : ∃ (s : State) (c : Fin 8) (w : Word),
    s.hub.answers s.fixed s.met .tw (0x060018 + 0x400 * c) = true ∧ s.hub.is (fTwCXferBusy c) = false ∧
    bitOf w 31 = true ∧ fieldOf w 22 4 ≤ 12 ∧ s.hub.twState c = twStuck :=
  ⟨wSt (wLive [(0x60400, 7#32)] []), 1, 0x80480050#32, by decide⟩

theorem witness_TwoWireTransfers_3 : ∃ (s : State) (c : Fin 8) (w : Word),
    s.hub.answers s.fixed s.met .tw (0x060018 + 0x400 * c) = true ∧ s.hub.is (fTwCXferBusy c) = false ∧
    bitOf w 31 = true ∧ 12 < fieldOf w 22 4 :=
  ⟨wSt (wLive [] []), 1, 0x83480050#32, by decide⟩

theorem witness_TwoWireTransfers_4 : ∃ (s : State) (c : Fin 8),
    s.hub.answers s.fixed s.met .tw (0x060018 + 0x400 * c) = true ∧ s.hub.is (fTwCXferBusy c) = true :=
  ⟨wSt (wLive [(0x60418, 0x40000000#32)] []), 1, by decide⟩

theorem witness_TwoWireTransfers_5 : ∃ (s : State) (c : Fin 8),
    s.hub.twBoundary c = true ∧ (s.hub.twc c).held = [] ∧ (s.hub.twc c).xferWait = true ∧ s.hub.twState c = twIdle :=
  ⟨wSt { wLive [(0x60400, 1#32), (0x10000, 0x100#32)] [(0x401001, 2#32)] with tw := [(1, { (default : TwoWire) with xferWait := true })] }, 1, by decide⟩

theorem witness_TwoWireTransfers_6 : ∃ (s : State) (c : Fin 8),
    s.hub.twBoundary c = true ∧ (s.hub.twc c).held = [] ∧ (s.hub.twc c).xferWait = true ∧ s.hub.twState c = twStuck :=
  ⟨wSt { wLive [(0x60400, 7#32), (0x10000, 0x100#32)] [(0x401001, 2#32)] with tw := [(1, { (default : TwoWire) with xferWait := true })] }, 1, by decide⟩

theorem witness_TwoWireTransfers_7 : ∃ (s : State) (c : Fin 8),
    s.hub.twRunning c = true ∧ (s.hub.twc c).kind ≠ 1 :=
  ⟨wSt { wLive [(0x60400, 3#32), (0x10000, 0x100#32)] [(0x401001, 2#32)] with tw := [(1, { (default : TwoWire) with kind := 2 })] }, 1, by decide⟩

theorem witness_TwoWireTransfers_8 : ∃ (s : State) (c : Fin 8),
    s.hub.answers s.fixed s.met .tw (0x060000 + 0x400 * c) = true ∧ (s.hub.twc c).kind = 1 :=
  ⟨wSt { wLive [(0x60400, 3#32), (0x10000, 0x100#32)] [(0x401001, 2#32)] with tw := [(1, { (default : TwoWire) with kind := 1 })] }, 1, by decide⟩

theorem witness_TwoWireTransfers_9 : ∃ (s : State) (c : Fin 8),
    s.hub.answers s.fixed s.met .tw (0x060000 + 0x400 * c) = true ∧ (s.hub.twc c).kind = 2 :=
  ⟨wSt { wLive [(0x60400, 3#32), (0x10000, 0x100#32)] [(0x401001, 2#32)] with tw := [(1, { (default : TwoWire) with kind := 2 })] }, 1, by decide⟩

theorem witness_StageOutputs_1 : ∃ (s : State) (c : Fin 192) (sh : Bool) (i : Fin 8) (x : Samp) (rest : List Samp),
    s.hub.takesNext (chainOf c sh) i 1 x rest ∧ s.hub.sc (chainOf c sh) i 4 10 10 ≤ (s.hub.stg' (chainOf c sh) i).n ∧
    ((s.hub.stg' (chainOf c sh) i).n - s.hub.sc (chainOf c sh) i 4 10 10) % (s.hub.sc (chainOf c sh) i 4 0 10 + 1) = 0 :=
  ⟨wStage 1 0 0 [(0x500401, 0x600#32), (0x500000, 3#32), (0x500001, 5#32)], 0, false, 0, { val := 7#24, tag := 0#8, time := 0 }, [], by decide⟩

theorem witness_StageOutputs_2 : ∃ (s : State) (c : Fin 192) (sh : Bool) (i : Fin 8) (x : Samp) (rest : List Samp),
    s.hub.takesNext (chainOf c sh) i 1 x rest ∧
    ((s.hub.stg' (chainOf c sh) i).n < s.hub.sc (chainOf c sh) i 4 10 10 ∨ ((s.hub.stg' (chainOf c sh) i).n - s.hub.sc (chainOf c sh) i 4 10 10) % (s.hub.sc (chainOf c sh) i 4 0 10 + 1) ≠ 0) :=
  ⟨wStage 1 0 0x400 [(0x500401, 0x600#32)], 0, false, 0, { val := 7#24, tag := 0#8, time := 0 }, [], by decide⟩

theorem witness_StageOutputs_3 : ∃ (s : State) (c : Fin 192) (sh : Bool) (i : Fin 8) (x : Samp) (rest : List Samp) (k : Nat),
    s.hub.takes (chainOf c sh) i 1 x rest ∧ s.hub.noCtxReset c i ∧
    ((s.hub.stg' (chainOf c sh) i).hist.all (fun w => !w.bad)) = true ∧
    s.hub.badCoefOf (chainOf c sh) i (s.hub.bankUse (chainOf c sh) i true) = some k ∧
    s.hub.sc (chainOf c sh) i 4 10 10 ≤ (s.hub.stg' (chainOf c sh) i).n ∧
    ((s.hub.stg' (chainOf c sh) i).n - s.hub.sc (chainOf c sh) i 4 10 10) % (s.hub.sc (chainOf c sh) i 4 0 10 + 1) = 0 :=
  ⟨(let s := wStage 1 0 0 [(0x500401, 0x600#32)]; { s with hub := { s.hub with tile := [(0, { (default : Tile) with badCoef := [1] })], flt := { s.hub.flt with coefSeen := [1] } } }), 0, false, 0, { val := 7#24, tag := 0#8, time := 0 }, [], 1, by decide⟩

theorem witness_StageOutputs_4 : ∃ (s : State) (c : Fin 192) (sh : Bool) (i : Fin 8) (x : Samp) (rest : List Samp),
    s.hub.takesNext (chainOf c sh) i 2 x rest ∧
    2 * ((s.hub.sc (chainOf c sh) i 4 0 5 - 1) / 2) ≤ (s.hub.stg' (chainOf c sh) i).n :=
  ⟨wStage 2 5 0x103 [], 0, false, 0, { val := 7#24, tag := 0#8, time := 0 }, [], by decide⟩

theorem witness_StageOutputs_5 : ∃ (s : State) (c : Fin 192) (sh : Bool) (i : Fin 8) (x : Samp) (rest : List Samp),
    s.hub.takesNext (chainOf c sh) i 2 x rest ∧
    (s.hub.stg' (chainOf c sh) i).n < 2 * ((s.hub.sc (chainOf c sh) i 4 0 5 - 1) / 2) :=
  ⟨wStage 2 1 0x103 [], 0, false, 0, { val := 7#24, tag := 0#8, time := 0 }, [], by decide⟩

theorem witness_StageOutputs_6 : ∃ (s : State) (c : Fin 192) (sh : Bool) (i : Fin 8) (x : Samp) (rest : List Samp),
    s.hub.takesNext (chainOf c sh) i 3 x rest ∧
    (s.hub.sc (chainOf c sh) i 4 16 1 = 0 ∨ x.has tSettle = false ∨ (s.hub.stg' (chainOf c sh) i).wasSettle = true) ∧
    (s.hub.stg' (chainOf c sh) i).blkBad = false ∧
    (s.hub.stg' (chainOf c sh) i).inBlk = s.hub.sc (chainOf c sh) i 4 0 16 :=
  ⟨wStage 3 1 0 [], 0, false, 0, { val := 7#24, tag := 0#8, time := 0 }, [], by decide⟩

theorem witness_StageOutputs_7 : ∃ (s : State) (c : Fin 192) (sh : Bool) (i : Fin 8) (x : Samp) (rest : List Samp),
    s.hub.takesNext (chainOf c sh) i 3 x rest ∧
    (s.hub.sc (chainOf c sh) i 4 16 1 = 0 ∨ x.has tSettle = false ∨ (s.hub.stg' (chainOf c sh) i).wasSettle = true) ∧
    (s.hub.stg' (chainOf c sh) i).inBlk < s.hub.sc (chainOf c sh) i 4 0 16 :=
  ⟨wStage 3 1 3 [], 0, false, 0, { val := 7#24, tag := 0#8, time := 0 }, [], by decide⟩

theorem witness_StageOutputs_8 : ∃ (s : State) (c : Fin 192) (sh : Bool) (i : Fin 8) (x : Samp) (rest : List Samp),
    s.hub.takesNext (chainOf c sh) i 3 x rest ∧ s.hub.sc (chainOf c sh) i 4 16 1 = 1 ∧ x.has tSettle = true ∧
    (s.hub.stg' (chainOf c sh) i).wasSettle = false ∧ (s.hub.stg' (chainOf c sh) i).inBlk ≠ 0 ∧
    0 < s.hub.sc (chainOf c sh) i 4 0 16 :=
  ⟨wStageF 3 2 0x10003 [] (fun g => { g with inBlk := 2, sum := 9, cnt := 2 }) { val := 7#24, tag := tSettle, time := 0 }, 0, false, 0, { val := 7#24, tag := tSettle, time := 0 }, [], by decide⟩

theorem witness_StageOutputs_9 : ∃ (s : State) (c : Fin 192) (sh : Bool) (i : Fin 8) (x : Samp) (rest : List Samp) (r : Nat),
    s.hub.takesNext (chainOf c sh) i 4 x rest ∧ s.hub.sc (chainOf c sh) i 4 0 1 = 0 ∧
    s.hub.rd (fFabTSlSetSet (s.hub.stTile (chainOf c sh) i) (s.hub.stSlot (chainOf c sh) i)) = r ∧
    (s.hub.stg' (chainOf c sh) i).pos / 16777216 + 16 < (s.hub.stg' (chainOf c sh) i).n + 1 ∧
    (s.hub.stg' (chainOf c sh) i).n + 1 ≤ ((s.hub.stg' (chainOf c sh) i).pos + r) / 16777216 + 16 :=
  ⟨(let s := wStage 4 20 0 []; { s with hub := s.hub.setReg 0x80200 0x10000000#32 }), 0, false, 0, { val := 7#24, tag := 0#8, time := 0 }, [], 0x10000000, by decide⟩

theorem witness_StageOutputs_10 : ∃ (s : State) (c : Fin 192) (sh : Bool) (i : Fin 8) (x : Samp) (rest : List Samp),
    s.hub.takesNext (chainOf c sh) i 4 x rest ∧
    (s.hub.sc (chainOf c sh) i 4 0 1 = 0 ∧ (s.hub.stg' (chainOf c sh) i).n ≤ (s.hub.stg' (chainOf c sh) i).pos / 16777216 + 15 ∨ s.hub.sc (chainOf c sh) i 4 0 1 ≠ 0 ∧ (s.hub.stg' (chainOf c sh) i).n < 16) :=
  ⟨wStage 4 3 0 [], 0, false, 0, { val := 7#24, tag := 0#8, time := 0 }, [], by decide⟩

theorem witness_StageOutputs_11 : ∃ (s : State) (c : Fin 192) (sh : Bool) (i : Fin 8) (x : Samp) (rest : List Samp) (t0 : Nat) (t1 : Nat) (tg : Nat) (tau : Nat),
    s.hub.takesNext (chainOf c sh) i 4 x rest ∧ s.hub.sc (chainOf c sh) i 4 0 1 ≠ 0 ∧
    16 ≤ (s.hub.stg' (chainOf c sh) i).n ∧
    t0 = ((s.hub.stg' (chainOf c sh) i).shift 64 x).timeAt ((s.hub.stg' (chainOf c sh) i).n - 16 : Nat) ∧
    t1 = ((s.hub.stg' (chainOf c sh) i).shift 64 x).timeAt ((s.hub.stg' (chainOf c sh) i).n - 15 : Nat) ∧
    ((((s.hub.stg' (chainOf c sh) i).shift 64 x).at? ((s.hub.stg' (chainOf c sh) i).n - 15 : Nat)).map (fun y => y.has tGap)).getD false = false ∧
    t0 < t1 ∧
    ((s.hub.inRate (chainOf c sh) i).1 = 0 ∨ (t1 - t0) * (s.hub.inRate (chainOf c sh) i).1 ≤ 2 * 65536000000000 * (s.hub.inRate (chainOf c sh) i).2) ∧
    tg = s.hub.sc (chainOf c sh) i 8 0 32 * 65536 + s.hub.sc (chainOf c sh) i 9 0 16 ∧ 0 < tg ∧
    tau = gridFirst (s.hub.sc (chainOf c sh) i 10 0 32 * 65536) tg t0 ∧ tau < t1 ∧ t1 ≤ tau + tg :=
  ⟨wStageF 4 16 1 [(0x500409, 10#32)] (fun g => { g with hist := (List.range 16).map (fun k => { samp := { val := BitVec.ofNat 24 (100 * k), tag := 0#8, time := 150 - 10 * k }, bad := false }) }) { val := 7#24, tag := 0#8, time := 160 }, 0, false, 0, { val := 7#24, tag := 0#8, time := 160 }, [], 0, 10, 10, 0, by decide⟩

theorem witness_StageOutputs_12 : ∃ (s : State) (c : Fin 192) (sh : Bool) (i : Fin 8) (x : Samp) (rest : List Samp),
    s.hub.takesNext (chainOf c sh) i 6 x rest :=
  ⟨wStage 6 20 0 [(0x500402, 0x30000#32)], 0, false, 0, { val := 7#24, tag := 0#8, time := 0 }, [], by decide⟩

theorem witness_OrderAndDetect_1 : ∃ (s : State) (c : Fin 192) (sh : Bool) (i : Fin 8) (x : Samp) (rest : List Samp),
    s.hub.takesNext (chainOf c sh) i 5 x rest ∧ (s.hub.stg' (chainOf c sh) i).acquired = false ∧
    (s.hub.stg' (chainOf c sh) i).stamps.all (fun e => decide (x.time < e)) = true :=
  ⟨wStage 5 0 0 [], 0, false, 0, { val := 7#24, tag := 0#8, time := 0 }, [], by decide⟩

theorem witness_OrderAndDetect_2 : ∃ (s : State) (c : Fin 192) (sh : Bool) (i : Fin 8) (x : Samp) (rest : List Samp) (e : Nat),
    s.hub.takesNext (chainOf c sh) i 5 x rest ∧ (s.hub.stg' (chainOf c sh) i).acquired = false ∧
    (s.hub.stg' (chainOf c sh) i).edges = [] ∧ 0 < (s.hub.stg' (chainOf c sh) i).n ∧
    (s.hub.stg' (chainOf c sh) i).stamps = [e] ∧
    ((s.hub.stg' (chainOf c sh) i).shift 64 x).timeAt ((s.hub.stg' (chainOf c sh) i).n - 1 : Nat) < e ∧ e ≤ x.time :=
  ⟨wStageF 5 2 0 [] (fun g => { g with stamps := [105], hist := [{ samp := { val := 1#24, tag := 0#8, time := 100 }, bad := false }] }) { val := 7#24, tag := 0#8, time := 110 }, 0, false, 0, { val := 7#24, tag := 0#8, time := 110 }, [], 105, by decide⟩

theorem witness_OrderAndDetect_3 : ∃ (s : State) (c : Fin 192) (sh : Bool) (i : Fin 8) (x : Samp) (rest : List Samp) (r : Nat),
    s.hub.takesNext (chainOf c sh) i 5 x rest ∧ (s.hub.stg' (chainOf c sh) i).acquired = true ∧ x.has tGap = false ∧
    (s.hub.stg' (chainOf c sh) i).stamps.all (fun e => decide (x.time < e)) = true ∧
    (s.hub.stg' (chainOf c sh) i).n * 16777216 < (s.hub.stg' (chainOf c sh) i).winHi ∧
    (s.hub.rd (fFabTSlStState (s.hub.stTile (chainOf c sh) i) (s.hub.stSlot (chainOf c sh) i)) = 1 ∨ s.hub.rd (fFabTSlStState (s.hub.stTile (chainOf c sh) i) (s.hub.stSlot (chainOf c sh) i)) = 2) ∧
    s.hub.rd (fFabTSlSetSet (s.hub.stTile (chainOf c sh) i) (s.hub.stSlot (chainOf c sh) i)) = r ∧
    (s.hub.stg' (chainOf c sh) i).pos / 16777216 + 16 < (s.hub.stg' (chainOf c sh) i).n + 1 ∧
    (s.hub.stg' (chainOf c sh) i).n + 1 ≤ ((s.hub.stg' (chainOf c sh) i).pos + r) / 16777216 + 16 :=
  ⟨(let s := wStageF 5 20 0 [] (fun g => { g with acquired := true, winHi := 0x20000000 }) { val := 7#24, tag := 0#8, time := 0 }; { s with hub := (s.hub.setReg 0x80200 0x10000000#32).wr (fFabTSlStState 0 0) 1 }), 0, false, 0, { val := 7#24, tag := 0#8, time := 0 }, [], 0x10000000, by decide⟩

theorem witness_OrderAndDetect_4 : ∃ (s : State) (c : Fin 192) (sh : Bool) (i : Fin 8) (x : Samp) (rest : List Samp),
    s.hub.takesNext (chainOf c sh) i 7 x rest ∧ x.has tGap = false ∧
    (s.hub.stg' (chainOf c sh) i).inBlk < s.hub.sc (chainOf c sh) i 4 5 16 :=
  ⟨wStage 7 0 0x61 [], 0, false, 0, { val := 7#24, tag := 0#8, time := 0 }, [], by decide⟩

theorem witness_OrderAndDetect_5 : ∃ (s : State) (c : Fin 192) (sh : Bool) (i : Fin 8) (x : Samp) (rest : List Samp),
    s.hub.takesNext (chainOf c sh) i 7 x rest ∧ x.has tGap = false ∧
    s.hub.sc (chainOf c sh) i 4 5 16 ≤ (s.hub.stg' (chainOf c sh) i).inBlk ∧ sh = false :=
  ⟨wStage 7 0 0x1 [], 0, false, 0, { val := 7#24, tag := 0#8, time := 0 }, [], by decide⟩

theorem witness_OrderAndDetect_6 : ∃ (s : State) (c : Fin 192) (sh : Bool) (i : Fin 8) (x : Samp) (rest : List Samp),
    s.hub.takesNext (chainOf c sh) i 7 x rest ∧ x.has tGap = true ∧ 0 < s.hub.sc (chainOf c sh) i 4 5 16 :=
  ⟨wStageF 7 0 0x61 [] id { val := 7#24, tag := tGap, time := 0 }, 0, false, 0, { val := 7#24, tag := tGap, time := 0 }, [], by decide⟩

theorem witness_OrderAndDetect_7 : ∃ (s : State) (c : Fin 192) (i : Fin 8) (d : DetBlock),
    s.hub.stKind c i = 7 ∧ (s.hub.stg' c i).done = some d :=
  ⟨wStageF 7 0 0x61 [] (fun g => { g with done := some { i := [1], q := [2], flags := 0#8, time := 5 } }) { val := 7#24, tag := 0#8, time := 0 }, 0, 0, { i := [1], q := [2], flags := 0#8, time := 5 }, by decide⟩

theorem witness_ContextIntegrity_1 : ∃ (s : State) (c : Fin 192) (x : Samp) (y : Samp) (rest : List Samp) (resty : List Samp) (ft : BitVec 8) (fv : BitVec 24),
    s.hub.ctxShadow c = true ∧ s.hub.recovering 2 c = false ∧ (NMap.get s.hub.ctx c).cmp = x :: rest ∧
    (NMap.get s.hub.ctx c).cmpS = y :: resty ∧ (NMap.get s.hub.ctx c).slipped = false ∧
    sampWord x = sampWord y ^^^ (ft ++ fv) :=
  ⟨wSt { wLive [] [(0x523000, 0x200012#32)] with ctx := [(3, { (default : Ctx) with cmp := [{ val := 5#24, tag := 0#8, time := 7 }], cmpS := [{ val := 5#24, tag := 0#8, time := 7 }] })] }, 3, { val := 5#24, tag := 0#8, time := 7 }, { val := 5#24, tag := 0#8, time := 7 }, [], [], 0#8, 0#24, by decide⟩

theorem witness_ContextIntegrity_2 : ∃ (s : State) (c : Fin 192) (x : Samp) (y : Samp) (rest : List Samp) (resty : List Samp) (ft : BitVec 8) (fv : BitVec 24),
    s.hub.ctxShadow c = true ∧ s.hub.recovering 2 c = false ∧ (NMap.get s.hub.ctx c).cmp = x :: rest ∧
    (NMap.get s.hub.ctx c).cmpS = y :: resty ∧ sampWord x ≠ sampWord y ^^^ (ft ++ fv) ∧ s.hub.cf 5 (32 + c) 0 22 2 ≠ 2 :=
  ⟨wSt { wLive [] [(0x523000, 0x200012#32)] with ctx := [(3, { (default : Ctx) with cmp := [{ val := 5#24, tag := 0#8, time := 7 }], cmpS := [{ val := 5#24, tag := 0#8, time := 7 }] })] }, 3, { val := 5#24, tag := 0#8, time := 7 }, { val := 5#24, tag := 0#8, time := 7 }, [], [], 0#8, 4#24, by decide⟩

theorem witness_ContextIntegrity_3 : ∃ (s : State) (c : Fin 192) (x : Samp) (y : Samp) (rest : List Samp) (resty : List Samp) (ft : BitVec 8) (fv : BitVec 24),
    s.hub.ctxShadow c = true ∧ s.hub.flt.recs = [] ∧ (NMap.get s.hub.ctx c).cmp = x :: rest ∧
    (NMap.get s.hub.ctx c).cmpS = y :: resty ∧ sampWord x ≠ sampWord y ^^^ (ft ++ fv) ∧ s.hub.cf 5 (32 + c) 0 22 2 = 2 :=
  ⟨wSt { wLive [] [(0x523000, 0xA00012#32)] with ctx := [(3, { (default : Ctx) with cmp := [{ val := 5#24, tag := 0#8, time := 7 }], cmpS := [{ val := 5#24, tag := 0#8, time := 7 }] })] }, 3, { val := 5#24, tag := 0#8, time := 7 }, { val := 5#24, tag := 0#8, time := 7 }, [], [], 0#8, 4#24, by decide⟩

theorem witness_ContextIntegrity_4 : ∃ (s : State) (c : Fin 192),
    ((NMap.get s.hub.ctx c).cmp = [] ∨ (NMap.get s.hub.ctx c).cmpS = [] ∧ (NMap.get s.hub.ctx c).slipped = false) :=
  ⟨wSt { wLive [] [(0x523000, 0x200012#32)] with ctx := [(3, { (default : Ctx) with cmp := [{ val := 5#24, tag := 0#8, time := 7 }] })] }, 3, by decide⟩

theorem witness_ContextIntegrity_5 : ∃ (s : State) (c : Fin 192) (v : BitVec 32) (b : Bool) (rest : List (BitVec 32 × Bool)),
    (NMap.get s.hub.ctx c).digIn.done = (v, b) :: rest :=
  ⟨wSt { wLive [] [(0x523000, 0x12#32)] with ctx := [(3, { (default : Ctx) with digIn := { (default : Digest) with done := [(9#32, false)], num := 4 } })] }, 3, 9#32, false, [], by decide⟩

theorem witness_ContextIntegrity_6 : ∃ (s : State) (c : Fin 192) (v : BitVec 32) (b : Bool) (rest : List (BitVec 32 × Bool)),
    (NMap.get s.hub.ctx c).digHead.done = (v, b) :: rest :=
  ⟨wSt { wLive [] [(0x523000, 0x12#32)] with ctx := [(3, { (default : Ctx) with digHead := { (default : Digest) with done := [(9#32, false)], num := 4 } })] }, 3, 9#32, false, [], by decide⟩

theorem witness_ContextIntegrity_7 : ∃ (s : State) (c : Fin 192) (v : BitVec 32) (w : BitVec 32) (n : Nat) (rest : List (BitVec 32 × Bool)),
    s.hub.passThrough c = true ∧ (NMap.get s.hub.ctx c).digStop = false ∧
    (NMap.get s.hub.ctx c).digIn.done = (v, false) :: rest ∧ (NMap.get s.hub.ctx c).digIn.num % 65536 = n ∧
    (NMap.get s.hub.ctx c).blkIn = [] ∧ (NMap.get s.hub.ctx c).spoiltBlk = [] ∧
    (NMap.get s.hub.ctx c).blkHead = [(n, w)] :=
  ⟨wSt { wLive [] [(0x523000, 0x3000002#32)] with ctx := [(3, { (default : Ctx) with blkHead := [(4, 8#32)], digIn := { (default : Digest) with done := [(9#32, false)], num := 4 } })] }, 3, 9#32, 8#32, 4, [], by decide⟩

theorem witness_ContextIntegrity_8 : ∃ (s : State) (c : Fin 192),
    s.hub.answers s.fixed s.met .fab (0x0A0008 + 0x40 * c) = true :=
  ⟨wSt { wLive [] [(0x523000, 0x12#32)] with ctx := [(3, { (default : Ctx) with digHead := { (default : Digest) with done := [(9#32, false)], num := 4 } })] }, 3, by decide⟩

theorem witness_ContextIntegrity_9 : ∃ (s : State) (c : Fin 192),
    s.hub.answers s.fixed s.met .fab (0x0A0014 + 0x40 * c) = true :=
  ⟨wSt (wLive [(0xA00D4, 0x10002#32)] []), 3, by decide⟩

theorem witness_ContextIntegrity_10 : ∃ (s : State) (c : Fin 192),
    s.hub.answers s.fixed s.met .fab (0x0A0008 + 0x40 * c) = true :=
  ⟨wSt { wLive [] [(0x523000, 0x12#32)] with ctx := [(3, { (default : Ctx) with begun := true })] }, 3, by decide⟩

theorem witness_ContextIntegrity_11 : ∃ (s : State) (c : Fin 192),
    s.hub.answers s.fixed s.met .fab (0x0A0008 + 0x40 * c) = true :=
  ⟨wSt (wLive [(0xA00C8, 1#32)] [(0x523000, 0x12#32)]), 3, by decide⟩

theorem witness_CoefficientBanks_1 : ∃ (s : State) (u : Fin 32),
    s.hub.answers s.fixed s.met .fab (0x080008 + 0x1000 * u) = true ∧ s.hub.recovering 4 u = false ∧
    (NMap.get s.hub.tile u).swap = none ∧ (NMap.get s.hub.tile u).wait = none ∧ s.hub.coefPending u = false ∧
    s.hub.rd (fFabTFirBankNext u) ≠ s.hub.rd (fFabTStatusBankAct u) ∧ s.hub.bankStages u = [] :=
  ⟨wSt (wLive [(0x82008, 0x10000#32)] []), 2, by decide⟩

theorem witness_CoefficientBanks_2 : ∃ (s : State) (u : Fin 32),
    s.hub.answers s.fixed s.met .fab (0x080008 + 0x1000 * u) = true ∧ s.hub.recovering 4 u = false ∧
    (NMap.get s.hub.tile u).swap = none ∧ (NMap.get s.hub.tile u).wait = none ∧ s.hub.coefPending u = false ∧
    s.hub.rd (fFabTFirBankNext u) ≠ s.hub.rd (fFabTStatusBankAct u) ∧
    (s.hub.bankStages u).any (fun k => s.hub.is (fFabCCtlEnable (ctxOf (k / 8)))) = true :=
  ⟨wSt (wLive [(0x82008, 0x10000#32), (0xA00C8, 1#32)] [(0x523000, 0x12#32), (0x523010, 2#32), (0x502400, 0x31#32)]), 2, by decide⟩

theorem witness_CoefficientBanks_3 : ∃ (s : State) (u : Fin 32),
    s.hub.answers s.fixed s.met .fab (0x080008 + 0x1000 * u) = true ∧ s.hub.recovering 4 u = false ∧
    (NMap.get s.hub.tile u).swap = none ∧ (NMap.get s.hub.tile u).wait = none ∧
    s.hub.rd (fFabTFirBankNext u) = s.hub.rd (fFabTStatusBankAct u) :=
  ⟨wSt (wLive [] []), 2, by decide⟩

theorem witness_CoefficientBanks_4 : ∃ (s : State) (u : Fin 32),
    s.hub.answers s.fixed s.met .fab (0x080008 + 0x1000 * u) = true ∧ s.hub.recovering 4 u = false ∧
    (NMap.get s.hub.tile u).swap.isSome = true :=
  ⟨wSt { wLive [(0x82008, 1#32)] [] with tile := [(2, { (default : Tile) with swap := some (1, 8), wait := some (0, 9) })] }, 2, by decide⟩

theorem witness_CoefficientBanks_5 : ∃ (s : State) (u : Fin 32) (j : Fin 64) (k : Nat),
    s.hub.slotStage u j = some k ∧ s.hub.stTile (k / 8) (k % 8) = u.val ∧ s.hub.bankKind k = true ∧
    (NMap.get s.hub.tile u).swap.isSome = true ∧ (NMap.get s.hub.tile u).wait = none ∧
    (NMap.get s.hub.stg k).switched = false :=
  ⟨wSt { wLive [] [(0x523000, 0x12#32), (0x523010, 2#32), (0x502400, 0x31#32)] with tile := [(2, { (default : Tile) with swap := some (1, 8) })] }, 2, 0, 24, by decide⟩

theorem witness_CoefficientBanks_6 : ∃ (s : State) (u : Fin 32) (j : Fin 64) (k : Nat) (b : Nat) (len : Nat) (wb : Nat) (wl : Nat),
    s.hub.slotStage u j = some k ∧ s.hub.stTile (k / 8) (k % 8) = u.val ∧ s.hub.bankKind k = true ∧
    s.hub.cf 5 u 0x800 5 1 = 0 ∧ s.hub.bankStages u = [k] ∧ (NMap.get s.hub.tile u).swap = some (b, len) ∧
    (NMap.get s.hub.tile u).wait = some (wb, wl) ∧ wb ≠ b ∧ s.hub.coefPending u = false ∧
    s.hub.is (fFabCCtlEnable (ctxOf (k / 8))) = true ∧ (NMap.get s.hub.stg k).switched = false :=
  ⟨wSt { wLive [(0xA00C8, 1#32)] [(0x523000, 0x12#32), (0x523010, 2#32), (0x502400, 0x31#32)] with tile := [(2, { (default : Tile) with swap := some (1, 8), wait := some (0, 4) })] }, 2, 0, 24, 1, 8, 0, 4, by decide⟩

theorem witness_CoefficientBanks_7 : ∃ (s : State) (u : Fin 32) (i : Fin 512),
    s.hub.answers s.fixed s.met .fab (0x080800 + 0x1000 * u + 4 * i) = true ∧ s.hub.stHeld heldCoef = false ∧
    (NMap.get s.hub.tile u).swap = none ∧ (NMap.get s.hub.tile u).wait = none ∧ s.hub.slotsAt u i true = [] :=
  ⟨wSt (wLive [] [(0x502400, 1#32)]), 2, 7, by decide⟩

theorem witness_CoefficientBanks_8 : ∃ (s : State) (u : Fin 32) (i : Fin 512) (j : Nat) (c : Nat) (k : Nat) (v : Nat) (y : Nat),
    s.hub.answers s.fixed s.met .fab (0x080800 + 0x1000 * u + 4 * i) = true ∧ s.hub.stHeld heldCoef = false ∧
    (NMap.get s.hub.tile u).swap = none ∧ (NMap.get s.hub.tile u).wait = none ∧ s.hub.slotsAt u i true = [] ∧
    s.hub.slotsAt u i false = [j] ∧ c = s.hub.cf 5 u (0x400 + 16 * j) 4 8 ∧ k = s.hub.cf 5 u (0x400 + 16 * j) 12 3 ∧
    s.hub.ctxShadow c = true ∧ v = s.hub.stTile (192 + c) k ∧ y = s.hub.stSlot (192 + c) k :=
  ⟨wSt (wLive [] [(0x523000, 0x200012#32), (0x523010, 0x1802#32), (0x502400, 0x31#32), (0x502401, 0x2000#32), (0x503400, 0x10031#32), (0x503401, 0x2020#32)]), 2, 7, 0, 3, 0, 3, 0, by decide⟩

theorem witness_CoefficientBanks_9 : ∃ (s : State) (u : Fin 32) (i : Fin 512),
    s.hub.answers s.fixed s.met .fab (0x080800 + 0x1000 * u + 4 * i) = true ∧ s.hub.stHeld heldCoef = false ∧
    ((NMap.get s.hub.tile u).swap.isSome = true ∨ (NMap.get s.hub.tile u).wait.isSome = true ∨ s.hub.slotsAt u i true ≠ []) :=
  ⟨wSt { wLive [] [] with tile := [(2, { (default : Tile) with swap := some (1, 8) })] }, 2, 7, by decide⟩

theorem witness_SpectralJobs_1 : ∃ (s : State) (e : Fin 4) (j : Fin 64),
    s.hub.jobOn e j = true ∧ s.hub.jobN e j ≤ (s.hub.job' e j).buf.length ∧ (s.hub.job' e j).ready = none :=
  ⟨wSt { wLive [] [(0x602030, 1#32)] with job := [(131, { (default : Job) with buf := List.replicate 256 default })] }, 2, 3, by decide⟩

theorem witness_SpectralJobs_2 : ∃ (s : State) (e : Fin 4) (j : Fin 64),
    s.hub.jobOn e j = true ∧ s.hub.jobN e j ≤ (s.hub.job' e j).buf.length ∧ (s.hub.job' e j).ready ≠ none :=
  ⟨wSt { wLive [] [(0x602030, 1#32)] with job := [(131, { (default : Job) with buf := List.replicate 256 default, ready := some [] })] }, 2, 3, by decide⟩

theorem witness_SpectralJobs_3 : ∃ (s : State) (e : Fin 4) (j : Fin 64),
    (s.hub.jobOn e j = false ∨ (s.hub.job' e j).buf.length < s.hub.jobN e j) :=
  ⟨wSt (wLive [] [(0x602030, 1#32)]), 2, 3, by decide⟩

theorem witness_SpectralJobs_4 : ∃ (s : State) (e : Fin 4),
    (NMap.get s.hub.spc e).order = [] ∧ s.hub.stHeld heldGather = false :=
  ⟨wSt (wLive [] [(0x602030, 1#32)]), 2, by decide⟩

theorem witness_SpectralJobs_5 : ∃ (s : State) (e : Fin 4) (p : List (Fin 16384)) (c : Nat) (j : Nat) (rest : List (Nat × Nat)) (blk : List HistWord),
    s.hub.stHeld heldGather = false ∧ (NMap.get s.hub.spc e).order = (c, j) :: rest ∧
    ((s.hub.job' e j).spoil (p.map Fin.val)).ready = some blk ∧ (blk.any (fun w => w.bad)) = false ∧
    (orTags (blk.map (fun w => w.samp))).toNat &&& s.hub.jc e j 3 8 8 = 0 ∧
    s.hub.outDue e j ((s.hub.job' e j).cnt + 1) = false :=
  ⟨wSt { wLive [] [(0x602030, 0x20001#32), (0x602031, 5#32)] with spc := [(2, { (default : Spc) with order := [(0, 3)] })], job := [(131, { (default : Job) with ready := some [] })] }, 2, [], 0, 3, [], [], by decide⟩

theorem witness_SpectralJobs_6 : ∃ (s : State) (e : Fin 4) (p : List (Fin 16384)) (c : Nat) (j : Nat) (rest : List (Nat × Nat)) (blk : List HistWord),
    s.hub.stHeld heldGather = false ∧ (NMap.get s.hub.spc e).order = (c, j) :: rest ∧
    ((s.hub.job' e j).spoil (p.map Fin.val)).ready = some blk ∧ (blk.any (fun w => w.bad)) = false ∧
    (orTags (blk.map (fun w => w.samp))).toNat &&& s.hub.jc e j 3 8 8 = 0 ∧
    s.hub.outDue e j ((s.hub.job' e j).cnt + 1) = true ∧ s.hub.jc e j 3 6 1 = 1 ∧
    s.hub.feaBands (s.hub.jobCtx e j) = 0 :=
  ⟨wSt { wLive [] [(0x602030, 1#32), (0x602033, 0x45#32)] with spc := [(2, { (default : Spc) with order := [(0, 3)] })], job := [(131, { (default : Job) with ready := some [] })] }, 2, [], 0, 3, [], [], by decide⟩

theorem witness_SpectralJobs_7 : ∃ (s : State) (e : Fin 4) (p : List (Fin 16384)) (c : Nat) (j : Nat) (rest : List (Nat × Nat)) (blk : List HistWord),
    s.hub.stHeld heldGather = false ∧ (NMap.get s.hub.spc e).order = (c, j) :: rest ∧
    ((s.hub.job' e j).spoil (p.map Fin.val)).ready = some blk ∧ (blk.any (fun w => w.bad)) = true ∧
    (orTags (blk.map (fun w => w.samp)) ||| tAborted).toNat &&& s.hub.jc e j 3 8 8 = 0 ∧
    s.hub.outDue e j ((s.hub.job' e j).cnt + 1) = false :=
  ⟨wSt { wLive [] [(0x602030, 0x20001#32), (0x602031, 5#32)] with spc := [(2, { (default : Spc) with order := [(0, 3)] })], job := [(131, { (default : Job) with ready := some [default] })] }, 2, [0], 0, 3, [], [{ samp := default, bad := true }], by decide⟩

theorem witness_SpectralJobs_8 : ∃ (s : State) (e : Fin 4) (p : List (Fin 16384)) (c : Nat) (j : Nat) (rest : List (Nat × Nat)) (blk : List HistWord),
    s.hub.stHeld heldGather = false ∧ (NMap.get s.hub.spc e).order = (c, j) :: rest ∧
    ((s.hub.job' e j).spoil (p.map Fin.val)).ready = some blk ∧ (blk.any (fun w => w.bad)) = false ∧
    (orTags (blk.map (fun w => w.samp))).toNat &&& s.hub.jc e j 3 8 8 ≠ 0 :=
  ⟨wSt { wLive [] [(0x602030, 1#32), (0x602033, 0x400#32)] with spc := [(2, { (default : Spc) with order := [(0, 3)] })], job := [(131, { (default : Job) with ready := some [{ samp := { val := 0#24, tag := 4#8, time := 0 }, bad := false }] })] }, 2, [], 0, 3, [], [{ samp := { val := 0#24, tag := 4#8, time := 0 }, bad := false }], by decide⟩

theorem witness_SpectralJobs_9 : ∃ (s : State) (e : Fin 4) (j : Fin 64),
    s.hub.answers s.fixed s.met .spc (0x100008 + 0x1000 * e) = true ∧ s.hub.jobOn e j = true ∧
    s.hub.jobTrig e j = true ∧ (s.hub.job' e j).started ≠ s.hub.cyc + 1 ∧
    ((s.hub.job' e j).buf = [] ∨ s.hub.jobN e j ≤ (s.hub.job' e j).buf.length) :=
  ⟨wSt (wLive [] [(0x602030, 0x10001#32)]), 2, 3, by decide⟩

theorem witness_SpectralJobs_10 : ∃ (s : State) (e : Fin 4) (j : Fin 64),
    s.hub.answers s.fixed s.met .spc (0x100008 + 0x1000 * e) = true ∧ s.hub.jobOn e j = true ∧
    s.hub.jobTrig e j = true ∧ (s.hub.job' e j).started ≠ s.hub.cyc + 1 ∧ (s.hub.job' e j).buf ≠ [] ∧
    (s.hub.job' e j).buf.length < s.hub.jobN e j :=
  ⟨wSt { wLive [] [(0x602030, 0x10001#32)] with job := [(131, { (default : Job) with buf := List.replicate 6 default })] }, 2, 3, by decide⟩

theorem witness_SpectralJobs_11 : ∃ (s : State) (e : Fin 4) (j : Fin 64),
    s.hub.answers s.fixed s.met .spc (0x100008 + 0x1000 * e) = true ∧
    (s.hub.jobOn e j = false ∨ s.hub.jobTrig e j = false ∨ (s.hub.job' e j).started = s.hub.cyc + 1) :=
  ⟨wSt (wLive [] [(0x602030, 1#32)]), 2, 3, by decide⟩

theorem witness_FeatureSets_1 : ∃ (s : State) (c : Fin 192),
    s.hub.feaOn c = true ∧ s.hub.feaN c ≤ (NMap.get s.hub.fea c).blk.length :=
  ⟨wSt { wLive [] [(0x607000, 1#32)] with fea := [(3, { (default : Fea) with blk := [{ val := 4#24, tag := 0#8, time := 9 }] })] }, 3, by decide⟩

theorem witness_FeatureSets_2 : ∃ (s : State) (c : Fin 192),
    s.hub.feaOn c = true ∧ s.hub.feaN c ≤ (NMap.get s.hub.fea c).blk.length ∧ s.hub.cf 6 (4 + c) 0 13 1 = 1 ∧
    NMap.get s.hub.outbox (prodFea c) = [] :=
  ⟨wSt { wLive [] [(0x607000, 0x2001#32)] with fea := [(3, { (default : Fea) with blk := [{ val := 4#24, tag := 0#8, time := 9 }] })] }, 3, by decide⟩

theorem witness_FeatureSets_3 : ∃ (s : State) (c : Fin 192),
    (s.hub.feaOn c = false ∨ (NMap.get s.hub.fea c).blk.length < s.hub.feaN c) :=
  ⟨wSt (wLive [] [(0x607000, 1#32)]), 3, by decide⟩

theorem witness_FeatureSets_4 : ∃ (s : State) (c : Fin 192),
    s.hub.answers s.fixed s.met .spc (0x110008 + 0x40 * c) = true ∧ s.hub.feaOn c = true ∧
    s.hub.recovering 2 c = false ∧ 2 ≤ (NMap.get s.hub.fea c).blk.length ∧
    (NMap.get s.hub.fea c).blk.length < s.hub.feaN c :=
  ⟨wSt { wLive [] [(0x607000, 7#32)] with fea := [(3, { (default : Fea) with blk := [{ val := 4#24, tag := 0#8, time := 9 }, default] })] }, 3, by decide⟩

theorem witness_FeatureSets_5 : ∃ (s : State) (c : Fin 192),
    s.hub.answers s.fixed s.met .spc (0x110008 + 0x40 * c) = true ∧ s.hub.feaOn c = true ∧
    s.hub.recovering 2 c = false ∧ s.hub.feaN c ≤ (NMap.get s.hub.fea c).blk.length :=
  ⟨wSt { wLive [] [(0x607000, 1#32)] with fea := [(3, { (default : Fea) with blk := [{ val := 4#24, tag := 0#8, time := 9 }] })] }, 3, by decide⟩

theorem witness_FeatureSets_6 : ∃ (s : State) (c : Fin 192),
    s.hub.answers s.fixed s.met .spc (0x110008 + 0x40 * c) = true ∧ s.hub.feaOn c = true ∧
    s.hub.recovering 2 c = false ∧ (NMap.get s.hub.fea c).blk.length < 2 ∧
    (NMap.get s.hub.fea c).blk.length < s.hub.feaN c :=
  ⟨wSt (wLive [] [(0x607000, 7#32)]), 3, by decide⟩

theorem witness_FeatureSets_7 : ∃ (s : State) (c : Fin 192),
    s.hub.answers s.fixed s.met .spc (0x110010 + 0x40 * c) = true :=
  ⟨wSt (wLive [(0x1100D0, 7#32)] []), 3, by decide⟩

theorem witness_LimitTable_1 : ∃ (s : State),
    s.hub.stHeld heldLimit = false ∧ s.hub.lim.fifo = [] :=
  ⟨wLim (fun g => { g with lim := default }), by decide⟩

theorem witness_LimitTable_2 : ∃ (s : State) (r : FeaRec) (rest : List FeaRec),
    s.hub.stHeld heldLimit = false ∧ s.hub.lim.fifo = r :: rest :=
  ⟨wLim (fun g => g), wRec 0x3E000000#32, [], by decide⟩

theorem witness_LimitTable_3 : ∃ (s : State) (e : Nat) (r : FeaRec) (rest : List FeaRec) (v : Word),
    s.hub.stHeld heldLimit = false ∧ s.hub.lim.fifo = r :: rest ∧ s.hub.limRun r.ctx = (e, 1) ∧
    s.hub.limBad e = false ∧ (List.range 4).all (fun i => NMap.get s.hub.lim.ups (4 * e + i) == 0#39) = true ∧
    leValid (s.hub.limWords e) = true ∧ leCtx (s.hub.limWords e) = r.ctx ∧
    r.value (leSel (s.hub.limWords e)) = some v ∧ (leAct (s.hub.limWords e) 3 && r.tag &&& 0xC4#8 != 0#8) = false ∧
    propLevel (s.hub.limWords e) v (s.hub.rd (fLimStLevel e)) = s.hub.rd (fLimStLevel e) :=
  ⟨wLim (fun g => g), 0, wRec 0x3E000000#32, [], 0x3E000000#32, by decide⟩

theorem witness_LimitTable_4 : ∃ (s : State) (e : Nat) (r : FeaRec) (rest : List FeaRec) (v : Word),
    s.hub.stHeld heldLimit = false ∧ s.hub.lim.fifo = r :: rest ∧ s.hub.limRun r.ctx = (e, 1) ∧
    s.hub.limBad e = false ∧ (List.range 4).all (fun i => NMap.get s.hub.lim.ups (4 * e + i) == 0#39) = true ∧
    leValid (s.hub.limWords e) = true ∧ leCtx (s.hub.limWords e) = r.ctx ∧
    r.value (leSel (s.hub.limWords e)) = some v ∧ (leAct (s.hub.limWords e) 3 && r.tag &&& 0xC4#8 != 0#8) = false ∧
    s.hub.rd (fLimStLevel e) < propLevel (s.hub.limWords e) v (s.hub.rd (fLimStLevel e)) ∧
    s.hub.rd (fLimStOnCnt e) + 1 < leOn (s.hub.limWords e) :=
  ⟨wLim (fun g => { (g.setCell 0x700000 0x80000400#32) with lim := { g.lim with fifo := [wRec 0x3FC00000#32] } }), 0, wRec 0x3FC00000#32, [], 0x3FC00000#32, by decide⟩

theorem witness_LimitTable_5 : ∃ (s : State) (e : Nat) (r : FeaRec) (rest : List FeaRec) (v : Word),
    s.hub.stHeld heldLimit = false ∧ s.hub.lim.fifo = r :: rest ∧ s.hub.limRun r.ctx = (e, 1) ∧
    s.hub.limBad e = false ∧ (List.range 4).all (fun i => NMap.get s.hub.lim.ups (4 * e + i) == 0#39) = true ∧
    leValid (s.hub.limWords e) = true ∧ leCtx (s.hub.limWords e) = r.ctx ∧
    r.value (leSel (s.hub.limWords e)) = some v ∧ (leAct (s.hub.limWords e) 3 && r.tag &&& 0xC4#8 != 0#8) = false ∧
    propLevel (s.hub.limWords e) v (s.hub.rd (fLimStLevel e)) < s.hub.rd (fLimStLevel e) ∧
    s.hub.rd (fLimStOffCnt e) + 1 < leOff (s.hub.limWords e) :=
  ⟨wLim (fun g => (g.setCell 0x700000 0x80000040#32).wr (fLimStLevel 0) 1), 0, wRec 0x3E000000#32, [], 0x3E000000#32, by decide⟩

theorem witness_LimitTable_6 : ∃ (s : State) (e : Nat) (r : FeaRec) (rest : List FeaRec) (v : Word),
    s.hub.stHeld heldLimit = false ∧ s.hub.lim.fifo = r :: rest ∧ s.hub.limRun r.ctx = (e, 1) ∧
    s.hub.limBad e = false ∧ (List.range 4).all (fun i => NMap.get s.hub.lim.ups (4 * e + i) == 0#39) = true ∧
    leValid (s.hub.limWords e) = true ∧ leCtx (s.hub.limWords e) = r.ctx ∧
    r.value (leSel (s.hub.limWords e)) = some v ∧ (leAct (s.hub.limWords e) 3 && r.tag &&& 0xC4#8 != 0#8) = false ∧
    s.hub.rd (fLimStLevel e) = 0 ∧ propLevel (s.hub.limWords e) v 0 = 1 ∧
    leOn (s.hub.limWords e) ≤ s.hub.rd (fLimStOnCnt e) + 1 ∧ leAct (s.hub.limWords e) 4 = false :=
  ⟨wLim (fun g => { g with lim := { g.lim with fifo := [wRec 0x3FC00000#32] } }), 0, wRec 0x3FC00000#32, [], 0x3FC00000#32, by decide⟩

theorem witness_LimitTable_7 : ∃ (s : State) (e : Nat) (r : FeaRec) (rest : List FeaRec) (v : Word),
    s.hub.stHeld heldLimit = false ∧ s.hub.lim.fifo = r :: rest ∧ s.hub.limRun r.ctx = (e, 1) ∧
    s.hub.limBad e = false ∧ (List.range 4).all (fun i => NMap.get s.hub.lim.ups (4 * e + i) == 0#39) = true ∧
    leValid (s.hub.limWords e) = true ∧ leCtx (s.hub.limWords e) = r.ctx ∧
    r.value (leSel (s.hub.limWords e)) = some v ∧ (leAct (s.hub.limWords e) 3 && r.tag &&& 0xC4#8 != 0#8) = false ∧
    s.hub.rd (fLimStLevel e) = 1 ∧ propLevel (s.hub.limWords e) v 1 = 0 ∧
    leOff (s.hub.limWords e) ≤ s.hub.rd (fLimStOffCnt e) + 1 ∧ leAct (s.hub.limWords e) 4 = false ∧
    s.hub.rd fLimActiveWarning ≠ 0 :=
  ⟨wLim (fun g => (g.wr (fLimStLevel 0) 1).wr fLimActiveWarning 3), 0, wRec 0x3E000000#32, [], 0x3E000000#32, by decide⟩

theorem witness_LimitTable_8 : ∃ (s : State) (r : FeaRec) (rest : List FeaRec),
    s.hub.stHeld heldLimit = false ∧ s.hub.lim.fifo = r :: rest ∧
    (∀ i ∈ List.range (s.hub.limRun r.ctx).2, s.hub.limBad ((s.hub.limRun r.ctx).1 + i) = true) :=
  ⟨wLim (fun g => g.on (fLimStBad 0)), wRec 0x3E000000#32, [], by decide⟩

theorem witness_LimitTable_9 : ∃ (s : State) (e : Fin 8192) (i : Fin 3),
    s.hub.answers s.fixed s.met .lim (0x140000 + 16 * e + 4 * i) = true ∧ s.hub.stHeld heldLimit = false ∧
    s.hub.lim.entry = none :=
  ⟨wSt (wLive [] []), 9, 2, by decide⟩

theorem witness_LimitTable_10 : ∃ (s : State) (e : Fin 8192) (i : Fin 3),
    s.hub.answers s.fixed s.met .lim (0x140000 + 16 * e + 4 * i) = true ∧ s.hub.stHeld heldLimit = false ∧
    s.hub.lim.entry = some e.val :=
  ⟨wSt { wLive [] [] with lim := { (default : Lim) with entry := some 9, buf := [(1, 3#32)] } }, 9, 2, by decide⟩

theorem witness_LimitTable_11 : ∃ (s : State) (e : Fin 8192) (i : Fin 3) (e0 : Nat),
    s.hub.answers s.fixed s.met .lim (0x140000 + 16 * e + 4 * i) = true ∧ s.hub.stHeld heldLimit = false ∧
    s.hub.lim.entry = some e0 ∧ e0 ≠ e.val :=
  ⟨wSt { wLive [] [] with lim := { (default : Lim) with entry := some 4, buf := [(1, 3#32)] } }, 9, 2, 4, by decide⟩

theorem witness_LimitTable_12 : ∃ (s : State) (e : Fin 8192) (w0 : Word) (w1 : Word) (w2 : Word) (w : Word),
    s.hub.answers s.fixed s.met .lim (0x14000C + 16 * e) = true ∧ s.hub.stHeld heldLimit = false ∧
    s.hub.lim.entry = some e.val ∧ s.hub.lim.buf = [(0, w0), (1, w1), (2, w2)] ∧
    (s.hub.limStored e).2.limRefused e [w0, w1, w2, w] = false :=
  ⟨wSt { wLive [] [] with lim := { (default : Lim) with entry := some 9, buf := [(0, 1#32), (1, 2#32), (2, 3#32)] } }, 9, 1#32, 2#32, 3#32, 4#32, by decide⟩

theorem witness_LimitTable_13 : ∃ (s : State) (e : Fin 8192) (w : Word),
    s.hub.answers s.fixed s.met .lim (0x14000C + 16 * e) = true ∧ s.hub.stHeld heldLimit = false ∧
    s.hub.lim.entry = none ∧ (List.range 4).all (fun i => NMap.get s.hub.lim.ups (4 * e + i) == 0#39) = true ∧
    s.hub.limRefused e [s.hub.limRaw e 0, s.hub.limRaw e 1, s.hub.limRaw e 2, w] = false :=
  ⟨wSt (wLive [] []), 9, 4#32, by decide⟩

theorem witness_LimitTable_14 : ∃ (s : State) (e : Fin 8192) (w0 : Word) (w1 : Word) (w2 : Word) (w : Word),
    s.hub.answers s.fixed s.met .lim (0x14000C + 16 * e) = true ∧ s.hub.stHeld heldLimit = false ∧
    s.hub.lim.entry = some e.val ∧ s.hub.lim.buf = [(0, w0), (1, w1), (2, w2)] ∧
    (List.range 4).all (fun i => NMap.get s.hub.lim.ups (4 * e + i) == 0#39) = true ∧
    s.hub.limRefused e [w0, w1, w2, w] = true :=
  ⟨wSt { wLive [] [] with lim := { (default : Lim) with entry := some 9, buf := [(0, 0x80000000#32), (1, 2#32), (2, 3#32)] } }, 9, 0x80000000#32, 2#32, 3#32, 4#32, by decide⟩

theorem witness_LimitTable_15 : ∃ (s : State),
    s.hub.stHeld heldLimit = false ∧ s.hub.is fLimCfgScrub = true ∧ s.hub.lim.fifo = [] ∧
    (List.range 4).all (fun i => NMap.get s.hub.lim.ups (4 * s.hub.rd fLimScrubPos + i) == 0#39) = true :=
  ⟨wSt (wLive [(fLimCfgScrub.addr, 0xFFFFFFFF#32)] []), by decide⟩

theorem witness_LimitTable_16 : ∃ (s : State) (x : LimUpset),
    s.hub.stHeld heldLimit = false ∧ s.hub.is fLimCfgScrub = true ∧ s.hub.lim.fifo = [] ∧
    x.entry.val = s.hub.rd fLimScrubPos ∧
    (List.range 4).all (fun i => NMap.get s.hub.lim.ups (4 * s.hub.rd fLimScrubPos + i) == 0#39) = true ∧
    ((List.range 39).filter (fun k => x.bits.getLsbD k)).length = 1 :=
  ⟨wSt (wLive [(fLimCfgScrub.addr, 0xFFFFFFFF#32)] []), { entry := 0, word := 2, bits := 8#39 }, by decide⟩

theorem witness_LimitTable_17 : ∃ (s : State) (x : LimUpset),
    s.hub.stHeld heldLimit = false ∧ s.hub.is fLimCfgScrub = true ∧ s.hub.lim.fifo = [] ∧
    x.entry.val = s.hub.rd fLimScrubPos ∧
    (List.range 4).all (fun i => NMap.get s.hub.lim.ups (4 * s.hub.rd fLimScrubPos + i) == 0#39) = true ∧
    ((List.range 39).filter (fun k => x.bits.getLsbD k)).length = 2 :=
  ⟨wSt (wLive [(fLimCfgScrub.addr, 0xFFFFFFFF#32)] []), { entry := 0, word := 2, bits := 9#39 }, by decide⟩

theorem witness_LimitTable_18 : ∃ (s : State),
    (s.hub.is fLimCfgScrub = false ∨ s.hub.lim.fifo ≠ []) :=
  ⟨wLim (fun g => g), by decide⟩

theorem witness_ChannelFirings_1 : ∃ (s : State) (n : Fin 128),
    (s.hub.chan n).presented = [] :=
  ⟨wSt (wLive [] [(0x802082, 1#32)]), 2, by decide⟩

theorem witness_ChannelFirings_2 : ∃ (s : State) (n : Fin 128) (p : Nat),
    (s.hub.chan n).presented = [p] ∧ (s.hub.chan n).heldFire = false ∧ s.hub.is (fEvCStMuted n) = false ∧
    (s.hub.chan n).live ≤ p ∧ ((s.hub.chan n).lastFire.all (fun l => decide (l + s.hub.evSpacing n ≤ p + 1))) = true ∧
    ((p + 1 < (s.hub.chan n).winStart + s.hub.evWindow n ∧ s.hub.rd (fEvCStWindow n) < s.hub.evLimit n) ∨ ((s.hub.chan n).winStart + s.hub.evWindow n ≤ p + 1 ∧ 0 < s.hub.evLimit n)) :=
  ⟨wSt { wLive [] [(0x802081, 0x40005#32), (0x802082, 1#32)] with ev := [(2, { (default : EvChan) with presented := [0] })] }, 2, 0, by decide⟩

theorem witness_ChannelFirings_3 : ∃ (s : State) (n : Fin 128) (p : Nat),
    (s.hub.chan n).presented = [p] ∧ (s.hub.chan n).heldFire = false ∧ s.hub.is (fEvCStMuted n) = false ∧
    (s.hub.chan n).live ≤ p ∧ ((s.hub.chan n).lastFire.all (fun l => decide (l + s.hub.evSpacing n ≤ p + 1))) = true ∧
    ((p + 1 < (s.hub.chan n).winStart + s.hub.evWindow n ∧ s.hub.rd (fEvCStWindow n) < s.hub.evLimit n) ∨ ((s.hub.chan n).winStart + s.hub.evWindow n ≤ p + 1 ∧ 0 < s.hub.evLimit n)) ∧
    s.hub.evTasks n = [] ∧ s.hub.chansOf (0x7000 + n) = [] ∧ s.hub.is fLdrCommitArm = false ∧
    s.hub.is fGlbCommitArm = false :=
  ⟨wSt { wLive [] [(0x802081, 0x40005#32), (0x802082, 1#32)] with ev := [(2, { (default : EvChan) with presented := [0] })] }, 2, 0, by decide⟩

theorem witness_ChannelFirings_4 : ∃ (s : State) (n : Fin 128) (p : Nat),
    (s.hub.chan n).presented = [p] ∧ (s.hub.chan n).heldFire = false ∧ s.hub.is (fEvCStMuted n) = false ∧
    (s.hub.chan n).live ≤ p ∧ ((s.hub.chan n).lastFire.all (fun l => decide (l + s.hub.evSpacing n ≤ p + 1))) = true ∧
    ((p + 1 < (s.hub.chan n).winStart + s.hub.evWindow n ∧ s.hub.rd (fEvCStWindow n) < s.hub.evLimit n) ∨ ((s.hub.chan n).winStart + s.hub.evWindow n ≤ p + 1 ∧ 0 < s.hub.evLimit n)) ∧
    s.hub.evTasks n = [0x8000] ∧ s.hub.chansOf (0x7000 + n) = [] ∧ s.hub.is fLdrCommitArm = false ∧
    s.hub.is fGlbCommitArm = false ∧ s.hub.flt.recs = [] :=
  ⟨wSt { wLive [] [(0x802040, 0x8000#32), (0x802081, 0x40005#32), (0x802082, 1#32)] with ev := [(2, { (default : EvChan) with presented := [0] })] }, 2, 0, by decide⟩

theorem witness_ChannelFirings_5 : ∃ (s : State) (n : Fin 128) (p : Nat) (l : Nat),
    (s.hub.chan n).presented = [p] ∧ (s.hub.chan n).heldFire = false ∧ s.hub.is (fEvCStMuted n) = false ∧
    (s.hub.chan n).live ≤ p ∧ (s.hub.chan n).lastFire = some l ∧ p + 1 < l + s.hub.evSpacing n :=
  ⟨wSt { wLive [] [(0x802080, 9#32), (0x802082, 1#32)] with ev := [(2, { (default : EvChan) with presented := [4], lastFire := some 1 })] }, 2, 4, 1, by decide⟩

theorem witness_ChannelFirings_6 : ∃ (s : State) (n : Fin 128) (p : Nat),
    (s.hub.chan n).presented = [p] ∧ (s.hub.chan n).heldFire = false ∧ s.hub.is (fEvCStMuted n) = true :=
  ⟨wSt { wLive [((fEvCStMuted 2).addr, 0xFFFFFFFF#32)] [(0x802082, 1#32)] with ev := [(2, { (default : EvChan) with presented := [0] })] }, 2, 0, by decide⟩

theorem witness_ChannelFirings_7 : ∃ (s : State) (n : Fin 128) (p : Nat),
    (s.hub.chan n).presented = [p] ∧ (s.hub.chan n).heldFire = true ∧ s.hub.is (fEvCStMuted n) = false ∧
    (s.hub.chan n).live ≤ p ∧ p < s.hub.heldCycle n :=
  ⟨wSt { wLive [] [(0x802080, 9#32), (0x802082, 1#32)] with ev := [(2, { (default : EvChan) with presented := [0], heldFire := true, lastFire := some 1 })] }, 2, 0, by decide⟩

theorem witness_ChannelFirings_8 : ∃ (s : State) (n : Fin 128) (p : Nat),
    (s.hub.chan n).presented = [p] ∧ (s.hub.chan n).heldFire = false ∧ s.hub.is (fEvCStMuted n) = false ∧
    (s.hub.chan n).live ≤ p ∧ ((s.hub.chan n).lastFire.all (fun l => decide (l + s.hub.evSpacing n ≤ p + 1))) = true ∧
    p + 1 < (s.hub.chan n).winStart + s.hub.evWindow n ∧ s.hub.evLimit n ≤ s.hub.rd (fEvCStWindow n) :=
  ⟨wSt { wLive [] [(0x802081, 5#32), (0x802082, 1#32)] with ev := [(2, { (default : EvChan) with presented := [0] })] }, 2, 0, by decide⟩

theorem witness_ChannelFirings_9 : ∃ (s : State) (n : Fin 128),
    (s.hub.chan n).heldFire = true ∧ s.hub.is (fEvCStMuted n) = false ∧
    ((s.hub.heldCycle n < (s.hub.chan n).winStart + s.hub.evWindow n ∧ s.hub.rd (fEvCStWindow n) < s.hub.evLimit n) ∨ ((s.hub.chan n).winStart + s.hub.evWindow n ≤ s.hub.heldCycle n ∧ 0 < s.hub.evLimit n)) :=
  ⟨wSt { wLive [] [(0x802080, 9#32), (0x802081, 0x40005#32), (0x802082, 1#32)] with ev := [(2, { (default : EvChan) with heldFire := true, lastFire := some 1 })] }, 2, by decide⟩

theorem witness_ChannelFirings_10 : ∃ (s : State) (n : Fin 128) (l : Nat),
    (s.hub.chan n).heldFire = true ∧ (s.hub.chan n).lastFire = some l ∧
    (s.hub.chan n).notBefore ≤ l + s.hub.evSpacing n ∧ s.hub.is (fEvCStMuted n) = false ∧
    ((l + s.hub.evSpacing n < (s.hub.chan n).winStart + s.hub.evWindow n ∧ s.hub.rd (fEvCStWindow n) < s.hub.evLimit n) ∨ ((s.hub.chan n).winStart + s.hub.evWindow n ≤ l + s.hub.evSpacing n ∧ 0 < s.hub.evLimit n)) ∧
    s.hub.evTasks n = [] ∧ s.hub.chansOf (0x7000 + n) = [] ∧ s.hub.is fLdrCommitArm = false ∧
    s.hub.is fGlbCommitArm = false :=
  ⟨wSt { wLive [] [(0x802080, 9#32), (0x802081, 0x40005#32), (0x802082, 1#32)] with ev := [(2, { (default : EvChan) with heldFire := true, lastFire := some 1 })] }, 2, 1, by decide⟩

theorem witness_ChannelFirings_11 : ∃ (s : State) (n : Fin 128),
    ((s.hub.chan n).heldFire = false ∨ s.hub.is (fEvCStMuted n) = true) :=
  ⟨wSt (wLive [] [(0x802082, 1#32)]), 2, by decide⟩

theorem witness_ChannelFirings_12 : ∃ (s : State) (n : Fin 128),
    s.hub.chanEnabled n = true :=
  ⟨wSt (wLive [((fEvCStWindow 2).addr, 3#32)] [(0x802081, 5#32), (0x802082, 1#32)]), 2, by decide⟩

theorem witness_ChannelFirings_13 : ∃ (s : State) (k : Fin 4),
    s.hub.answers s.fixed s.met .ev (0x180020 + 4 * k) = true :=
  ⟨wSt (wLive [((fEvCStMuted 34).addr, 0xFFFFFFFF#32), (rEvStorm 1, 7#32)] []), 1, by decide⟩

theorem witness_ChannelFirings_14 : ∃ (s : State) (w : Word) (i : Fin 32),
    s.hub.answers s.fixed s.met .ev 0x180000 = true ∧ w.getLsbD i = true ∧
    s.hub.chanEnabled (32 * s.hub.rd fEvFireBankFireBank + i) = true ∧
    s.hub.is (fEvCStMuted (32 * s.hub.rd fEvFireBankFireBank + i)) = false ∧
    (s.hub.chan (32 * s.hub.rd fEvFireBankFireBank + i)).live ≤ s.hub.cyc :=
  ⟨wSt (wLive [] [(0x802082, 1#32)]), 5#32, 2, by decide⟩

theorem witness_ChannelFirings_15 : ∃ (w : Word) (i : Fin 32),
    w.getLsbD i = false :=
  ⟨1#32, 2, by decide⟩

theorem witness_ChannelFirings_16 : ∃ (s : State) (n : Fin 128),
    s.hub.answers s.fixed s.met .ev (0x181010 + 0x20 * n) = true :=
  ⟨wSt { wLive [] [] with ev := [(2, { (default : EvChan) with stamp := 2 ^ 90 })] }, 2, by decide⟩

theorem witness_QueueOrder_1 : ∃ (s : State) (p : Fin 2048) (q : Nat) (w : QWord) (rest : List (Nat × QWord)),
    NMap.get s.hub.outbox p = (q, w) :: rest ∧ s.hub.qEnabled q = true ∧ s.hub.recovering 1 q = false ∧
    s.hub.stHoldsQueues = false ∧ (NMap.get s.hub.q q).discard = false ∧
    ((NMap.get s.hub.q q).holder = some p.val ∨ (NMap.get s.hub.q q).holder = none ∧ s.hub.qTurn q = some p.val) ∧
    (NMap.get s.hub.q q).tail.length < 16 ∧ (NMap.get s.hub.q q).level < s.hub.qCap q :=
  ⟨wSt { wLive [] [(0x905000, 1#32)] with outbox := [(3, [(5, 0x8000000007#40)])], q := [(5, { (default : Queue) with head := [3#40] })] }, 3, 5, 0x8000000007#40, [], by decide⟩

theorem witness_QueueOrder_2 : ∃ (s : State) (p : Fin 2048) (q : Nat) (w : QWord) (rest : List (Nat × QWord)),
    NMap.get s.hub.outbox p = (q, w) :: rest ∧
    (s.hub.qCap q ≤ (NMap.get s.hub.q q).level ∨ ((NMap.get s.hub.q q).holder.any (fun o => o != p.val)) = true) ∧
    ((NMap.get s.hub.q q).holder == some p.val && (NMap.get s.hub.q q).discard) = false ∧
    s.hub.stHeld heldQueue = false :=
  ⟨wSt { wLive [] [(0x905000, 1#32)] with outbox := [(3, [(5, 0x8000000007#40)])], q := [(5, { (default : Queue) with head := [3#40], holder := some 9 })] }, 3, 5, 0x8000000007#40, [], by decide⟩

theorem witness_QueueOrder_3 : ∃ (s : State) (p : Fin 2048),
    NMap.get s.hub.outbox p = [] :=
  ⟨wSt (wLive [] [(0x905000, 1#32)]), 3, by decide⟩

theorem witness_QueueOrder_4 : ∃ (s : State) (q : Fin 64),
    8 ≤ (NMap.get s.hub.q q).tail.length ∧ ((NMap.get s.hub.q q).mid ≠ [] ∨ 16 ≤ (NMap.get s.hub.q q).head.length) ∧
    (NMap.get s.hub.q q).mid.length < s.hub.qLines q ∧ s.hub.recovering 1 q = false ∧ s.hub.stHoldsQueues = false ∧
    (NMap.get s.hub.q q).rd = (NMap.get s.hub.q q).rdN :=
  ⟨wSt { wLive [] [(0x905000, 9#32)] with q := [(5, { (default : Queue) with head := List.replicate 16 3#40, tail := List.replicate 9 4#40 })] }, 5, by decide⟩

theorem witness_QueueOrder_5 : ∃ (s : State) (q : Fin 64) (ptr : BitVec 38),
    8 ≤ (NMap.get s.hub.q q).tail.length ∧ ((NMap.get s.hub.q q).mid ≠ [] ∨ 16 ≤ (NMap.get s.hub.q q).head.length) ∧
    (NMap.get s.hub.q q).mid.length < s.hub.qLines q ∧ s.hub.flt.recs = [] ∧ s.hub.stHoldsQueues = false ∧
    ptr ≠ 0#38 ∧ q ≠ 62 :=
  ⟨wSt { wLive [] [(0x905000, 9#32)] with q := [(5, { (default : Queue) with head := List.replicate 16 3#40, tail := List.replicate 9 4#40 })] }, 5, 1#38, by decide⟩

theorem witness_QueueOrder_6 : ∃ (s : State) (q : Fin 64),
    ((NMap.get s.hub.q q).tail.length < 8 ∨ s.hub.qLines q ≤ (NMap.get s.hub.q q).mid.length ∨ (NMap.get s.hub.q q).mid = [] ∧ (NMap.get s.hub.q q).head.length < 16) :=
  ⟨wSt (wLive [] [(0x905000, 9#32)]), 5, by decide⟩

theorem witness_QueueOrder_7 : ∃ (s : State) (q : Fin 64) (m : MidLine) (rest : List MidLine) (us : List Upset),
    s.hub.recovering 1 q = false ∧ s.hub.testsLine q = false ∧ s.hub.stHoldsQueues = false ∧
    (NMap.get s.hub.q q).mid = m :: rest ∧ (NMap.get s.hub.q q).head.length ≤ 8 ∧
    (NMap.get s.hub.q q).wr = (NMap.get s.hub.q q).wrN ∧ us.all (fun u => u == { data := 0#72, addr := 0#21 }) = true :=
  ⟨wSt { wLive [] [(0x905000, 9#32)] with stock := [(0, 5#64)], q := [(5, { (default : Queue) with mid := [{ slot := 0, n := 8 }], tail := [4#40] })] }, 5, { slot := 0, n := 8 }, [], [], by decide⟩

theorem witness_QueueOrder_8 : ∃ (s : State) (q : Fin 64) (m : MidLine) (rest : List MidLine) (u : Upset),
    s.hub.recovering 1 q = false ∧ s.hub.testsLine q = false ∧ s.hub.stHoldsQueues = false ∧
    (NMap.get s.hub.q q).mid = m :: rest ∧ (NMap.get s.hub.q q).head.length ≤ 8 ∧
    (NMap.get s.hub.q q).wr = (NMap.get s.hub.q q).wrN ∧ popcount u.data.toNat 72 = 1 ∧ u.addr = 0#21 :=
  ⟨wSt { wLive [] [(0x905000, 9#32)] with stock := [(0, 5#64)], q := [(5, { (default : Queue) with mid := [{ slot := 0, n := 8 }], tail := [4#40] })] }, 5, { slot := 0, n := 8 }, [], { data := 16#72, addr := 0#21 }, by decide⟩

theorem witness_QueueOrder_9 : ∃ (s : State) (q : Fin 64),
    s.hub.testsLine q = false ∧ ((NMap.get s.hub.q q).mid = [] ∨ 8 < (NMap.get s.hub.q q).head.length) :=
  ⟨wSt (wLive [] [(0x905000, 9#32)]), 5, by decide⟩

theorem witness_QueueOrder_10 : ∃ (s : State) (q : Fin 64) (us : List Upset),
    s.hub.testsLine q = true ∧ us.all (fun u => u == { data := 0#72, addr := 0#21 }) = true :=
  ⟨wSt { wLive [] [(0x905000, 9#32)] with flt := { (default : Flt) with recs := [{ (default : Rec) with scope := 1, unit := 5 }] } }, 5, [], by decide⟩

theorem witness_QueueOrder_11 : ∃ (s : State) (q : Fin 64) (w : QWord) (rest : List QWord),
    s.hub.answers s.fixed s.met .q (0x1A0204 + 0x400 * q) = true ∧ s.hub.qEnabled q = true ∧
    s.hub.recovering 1 q = false ∧ s.hub.stHoldsQueues = false ∧ s.hub.cf 9 q 0 1 1 = 0 ∧
    (NMap.get s.hub.q q).head = w :: rest :=
  ⟨wSt { wLive [] [(0x905000, 9#32)] with q := [(5, { (default : Queue) with head := [7#40, 8#40] })] }, 5, 7#40, [8#40], by decide⟩

theorem witness_QueueOrder_12 : ∃ (s : State) (q : Fin 64) (w : QWord) (rest : List QWord),
    s.hub.answers s.fixed s.met .q (0x1A0200 + 0x400 * q) = true ∧ s.hub.qEnabled q = true ∧
    s.hub.recovering 1 q = false ∧ s.hub.stHoldsQueues = false ∧ s.hub.cf 9 q 0 1 1 = 0 ∧
    (NMap.get s.hub.q q).head = w :: rest :=
  ⟨wSt { wLive [] [(0x905000, 9#32)] with q := [(5, { (default : Queue) with head := [7#40, 8#40] })] }, 5, 7#40, [8#40], by decide⟩

theorem witness_QueueOrder_13 : ∃ (s : State) (q : Fin 64) (payload : Bool),
    s.hub.answers s.fixed s.met .q (0x1A0200 + 0x400 * q + 4 * b2n payload) = true ∧ s.hub.qEnabled q = true ∧
    s.hub.recovering 1 q = false ∧ s.hub.stHoldsQueues = false ∧ s.hub.testsLine q = false ∧ s.hub.cf 9 q 0 1 1 = 0 ∧
    (NMap.get s.hub.q q).head = [] ∧ (NMap.get s.hub.q q).mid = [] :=
  ⟨wSt (wLive [] [(0x905000, 9#32)]), 5, false, by decide⟩

theorem witness_QueueOrder_14 : ∃ (s : State) (q : Fin 64) (payload : Bool),
    s.hub.answers s.fixed s.met .q (0x1A0200 + 0x400 * q + 4 * b2n payload) = true ∧ s.hub.qEnabled q = true ∧
    s.hub.cf 9 q 0 1 1 = 1 :=
  ⟨wSt (wLive [] [(0x905000, 11#32)]), 5, false, by decide⟩

theorem witness_QueueOrder_15 : ∃ (s : State) (q : Fin 64) (ptr : BitVec 38),
    s.hub.answers s.fixed s.met .q (0x1A0000 + 0x400 * q) = true ∧ s.hub.qEnabled q = true ∧
    (NMap.get s.hub.q q).holder = none ∧ ptr = 0#38 ∧ (NMap.get s.hub.q q).rd = (NMap.get s.hub.q q).rdN :=
  ⟨wSt { wLive [] [(0x905000, 9#32)] with q := [(5, { (default : Queue) with head := [7#40, 0x8000000008#40, 9#40], begun := true })] }, 5, 0#38, by decide⟩

theorem witness_QueueOrder_16 : ∃ (s : State) (q : Fin 64) (p : Nat),
    s.hub.answers s.fixed s.met .q (0x1A0000 + 0x400 * q) = true ∧ s.hub.qEnabled q = true ∧
    (NMap.get s.hub.q q).holder = some p ∧ (NMap.get s.hub.q q).discard = false ∧ (NMap.get s.hub.q q).begun = false ∧
    (NMap.get s.hub.q q).rd = (NMap.get s.hub.q q).rdN :=
  ⟨wSt { wLive [] [(0x905000, 9#32)] with q := [(5, { (default : Queue) with head := [7#40, 8#40], holder := some 3, inItem := 2 })] }, 5, 3, by decide⟩

theorem witness_QueueOrder_17 : ∃ (s : State) (q : Fin 64),
    s.hub.answers s.fixed s.met .q (0x1A0000 + 0x400 * q) = true ∧ s.hub.qEnabled q = false :=
  ⟨wSt (wLive [] []), 5, by decide⟩

theorem witness_RewindRings_1 : ∃ (s : State) (c : Fin 192) (k : RingCfg) (l : List Samp) (x : Samp),
    s.hub.ringCfg c = some k ∧ (NMap.get s.hub.ring c).line = x :: l ∧ 7 ≤ l.length ∧ s.hub.stHoldsQueues = false :=
  ⟨wSt { wLive [] [(0x905010, 7#32), (0x905012, 4#32)] with ring := [(3, { (default : Ring) with next := 16, line := List.replicate 8 { val := 5#24, tag := 1#8, time := 70 } })] }, 3, { q := 5, num := 0, point := 0, base := 0, lines := 4, pre := 0, post := 0, rearm := false }, List.replicate 7 { val := 5#24, tag := 1#8, time := 70 }, { val := 5#24, tag := 1#8, time := 70 }, by decide⟩

theorem witness_RewindRings_2 : ∃ (s : State) (c : Fin 192),
    (s.hub.ringCfg c = none ∨ (NMap.get s.hub.ring c).line.length < 8) :=
  ⟨wSt (wLive [] [(0x905010, 7#32)]), 3, by decide⟩

theorem witness_RewindRings_3 : ∃ (s : State) (c : Fin 192),
    s.hub.answers s.fixed s.met .q (0x1B0000 + 0x20 * c) = true ∧ (s.hub.ringCfg c).isSome = true ∧
    s.hub.ringState c = 0 ∧ ((NMap.get s.hub.ring c).ign.all (fun x => x.1 != s.hub.cyc)) = true :=
  ⟨wSt (wLive [] [(0x905010, 7#32)]), 3, by decide⟩

theorem witness_RewindRings_4 : ∃ (s : State) (c : Fin 192),
    s.hub.answers s.fixed s.met .q (0x1B0000 + 0x20 * c) = true ∧ (s.hub.ringCfg c).isSome = true ∧
    s.hub.ringState c = 1 :=
  ⟨wSt ((wLive [] [(0x905010, 7#32)]).wr (fQRStatusState 3) 1), 3, by decide⟩

theorem witness_RewindRings_5 : ∃ (s : State) (c : Fin 192),
    s.hub.answers s.fixed s.met .q (0x1B0000 + 0x20 * c) = true ∧ (s.hub.ringCfg c).isSome = true ∧
    2 ≤ s.hub.ringState c :=
  ⟨wSt (wLive [((fQRStatusState 3).addr, 0xFFFFFFFF#32)] [(0x905010, 7#32)]), 3, by decide⟩

theorem witness_RewindRings_6 : ∃ (s : State) (c : Fin 192) (k : RingCfg),
    s.hub.answers s.fixed s.met .q (0x1B0000 + 0x20 * c) = true ∧ s.hub.ringCfg c = some k ∧ s.hub.ringState c = 1 :=
  ⟨wSt { (wLive [] [(0x905010, 7#32), (0x905012, 4#32), (0x905013, 0x50003#32)]).wr (fQRStatusState 3) 1 with ring := [(3, { (default : Ring) with next := 16 })] }, 3, { q := 5, num := 0, point := 0, base := 0, lines := 4, pre := 3, post := 5, rearm := false }, by decide⟩

theorem witness_RewindRings_7 : ∃ (s : State) (c : Fin 192),
    s.hub.answers s.fixed s.met .q (0x1B0000 + 0x20 * c) = true ∧ (s.hub.ringCfg c).isSome = true ∧
    s.hub.ringState c ≠ 1 :=
  ⟨wSt (wLive [] [(0x905010, 7#32)]), 3, by decide⟩

theorem witness_RewindRings_8 : ∃ (s : State) (c : Fin 192),
    s.hub.answers s.fixed s.met .q (0x1B0000 + 0x20 * c) = true ∧ s.hub.ringCfg c = none :=
  ⟨wSt (wLive [] []), 3, by decide⟩

theorem witness_RewindRings_9 : ∃ (s : State) (c : Fin 192) (k : RingCfg) (us : List Upset),
    s.hub.ringCfg c = some k ∧ s.hub.ringState c = 3 ∧ s.hub.recovering 1 k.q = false ∧ s.hub.stHoldsQueues = false ∧
    NMap.get s.hub.outbox (prodRing c) = [] ∧ (NMap.get s.hub.ring c).hdrDone = false ∧
    (NMap.get s.hub.ring c).gone.contains ((NMap.get s.hub.ring c).pos / 8) = false ∧
    (NMap.get s.hub.ring c).held ((NMap.get s.hub.ring c).pos / 8) = none ∧
    (NMap.get s.hub.ring c).pos < (NMap.get s.hub.ring c).stop ∧
    us.all (fun u => u == { data := 0#72, addr := 0#21 }) = true :=
  ⟨wSt { (wLive [] [(0x905010, 7#32), (0x905012, 4#32), (0x905013, 0x50003#32)]).wr (fQRStatusState 3) 3 with ring := [(3, { (default : Ring) with next := 16, stop := 12, keep := 3, post := 9, restarted := true })] }, 3, { q := 5, num := 0, point := 0, base := 0, lines := 4, pre := 3, post := 5, rearm := false }, [], by decide⟩

theorem witness_RewindRings_10 : ∃ (s : State) (c : Fin 192) (k : RingCfg) (us : List Upset),
    s.hub.ringCfg c = some k ∧ s.hub.ringState c = 3 ∧ s.hub.recovering 1 k.q = false ∧ s.hub.stHoldsQueues = false ∧
    NMap.get s.hub.outbox (prodRing c) = [] ∧ (NMap.get s.hub.ring c).hdrDone = true ∧
    (NMap.get s.hub.ring c).gone.contains ((NMap.get s.hub.ring c).pos / 8) = false ∧
    (NMap.get s.hub.ring c).held ((NMap.get s.hub.ring c).pos / 8) = none ∧
    (NMap.get s.hub.ring c).pos < (NMap.get s.hub.ring c).stop ∧
    us.all (fun u => u == { data := 0#72, addr := 0#21 }) = true :=
  ⟨wSt { (wLive [] [(0x905010, 7#32), (0x905012, 4#32), (0x905013, 0x50003#32)]).wr (fQRStatusState 3) 3 with ring := [(3, { (default : Ring) with next := 16, hdrDone := true, pos := 8, stop := 12, restarted := true })] }, 3, { q := 5, num := 0, point := 0, base := 0, lines := 4, pre := 3, post := 5, rearm := false }, [], by decide⟩

theorem witness_RewindRings_11 : ∃ (s : State) (c : Fin 192) (k : RingCfg),
    s.hub.ringCfg c = some k ∧ s.hub.ringState c = 3 ∧ s.hub.recovering 1 k.q = false ∧ s.hub.stHoldsQueues = false ∧
    NMap.get s.hub.outbox (prodRing c) = [] ∧ (NMap.get s.hub.ring c).hdrDone = true ∧
    (NMap.get s.hub.ring c).stop ≤ (NMap.get s.hub.ring c).pos :=
  ⟨wSt { (wLive [] [(0x905010, 7#32), (0x905012, 4#32), (0x905013, 0x50003#32)]).wr (fQRStatusState 3) 3 with ring := [(3, { (default : Ring) with next := 16, hdrDone := true })] }, 3, { q := 5, num := 0, point := 0, base := 0, lines := 4, pre := 3, post := 5, rearm := false }, by decide⟩

theorem witness_RewindRings_12 : ∃ (s : State) (c : Fin 192),
    (s.hub.ringState c ≠ 3 ∨ NMap.get s.hub.outbox (prodRing c) ≠ []) :=
  ⟨wSt (wLive [] [(0x905010, 7#32)]), 3, by decide⟩

theorem witness_DebugWindow_1 : ∃ (s : State) (i : BitVec 20),
    s.hub.answers s.fixed s.met .dbg (0xC00000 + 4 * i.toNat) = true ∧ s.hub.stHolds 0 = false :=
  ⟨wSt { (wLive [] []).wr fHltLcState 1 with hlt := { Hub.reset.hlt with lcKnown := true }, stock := [(2, 0x500000007#64)] }, 5#20, by decide⟩

theorem witness_DebugWindow_2 : ∃ (s : State) (i : BitVec 20) (u : Upset),
    s.hub.answers s.fixed s.met .dbg (0xC00000 + 4 * i.toNat) = true ∧ s.hub.stHolds 0 = false ∧
    popcount u.data.toNat 72 = 1 ∧ u.addr = 0#21 :=
  ⟨wSt { (wLive [] []).wr fHltLcState 1 with hlt := { Hub.reset.hlt with lcKnown := true }, stock := [(2, 0x500000007#64)] }, 5#20, { data := 4#72, addr := 0#21 }, by decide⟩

theorem witness_DebugWindow_3 : ∃ (s : State),
    s.hub.asleep = false ∧ s.hub.dbgOpen = false :=
  ⟨State.reset, by decide⟩

theorem witness_DebugWindow_4 : ∃ (s : State) (i : BitVec 19),
    s.hub.answers s.fixed s.met .dbg (0xC00000 + 8 * i.toNat) = true :=
  ⟨wSt { (wLive [] []).wr fHltLcState 1 with hlt := { Hub.reset.hlt with lcKnown := true } }, 16#19, by decide⟩

theorem witness_DebugWindow_5 : ∃ (s : State) (i : BitVec 19) (lo : Word),
    s.hub.answers s.fixed s.met .dbg (0xC00004 + 8 * i.toNat) = true ∧ s.hub.stHolds 0 = false ∧
    s.hub.dbgHeld = [((s.hub.dbgWord (8 * i.toNat)), lo)] :=
  ⟨wSt { (wLive [] []).wr fHltLcState 1 with hlt := { Hub.reset.hlt with lcKnown := true }, dbgHeld := [(2, 9#32)] }, 2#19, 9#32, by decide⟩

theorem witness_DebugWindow_6 : ∃ (s : State) (i : BitVec 19),
    s.hub.answers s.fixed s.met .dbg (0xC00004 + 8 * i.toNat) = true ∧ s.hub.stHolds 0 = false ∧ s.hub.dbgHeld = [] :=
  ⟨wSt { (wLive [] []).wr fHltLcState 1 with hlt := { Hub.reset.hlt with lcKnown := true }, stock := [(2, 9#64)] }, 2#19, by decide⟩

theorem witness_DebugWindow_7 : ∃ (s : State),
    s.hub.asleep = false ∧ s.hub.dbgOpen = false :=
  ⟨State.reset, by decide⟩

theorem witness_DebugWindow_8 : ∃ (s : State),
    s.hub.asleep = false ∧ s.hub.dbgOpen = false :=
  ⟨State.reset, by decide⟩

theorem witness_Timebases_1 : ∃ (s : State) (n : Fin 18),
    s.hub.answers s.fixed s.met .tm (0x1C0000 + 0x40 * n) = true :=
  ⟨wSt { wLive [] [] with tb := [(3, { (default : TimeBase) with val := 2 ^ 100 })] }, 3, by decide⟩

theorem witness_Timebases_2 : ∃ (s : State) (n : Fin 17),
    s.hub.clk.gates = true ∧ (NMap.get s.hub.tb n).slewTicks ≠ 0 :=
  ⟨wSt { wLive [] [] with tb := [(3, { (default : TimeBase) with val := 2 ^ 100, slewTicks := 1024 })] }, 3, by decide⟩

theorem witness_Timebases_3 : ∃ (s : State) (n : Fin 18),
    (n.val = 17 ∨ (NMap.get s.hub.tb n).slewTicks = 0) :=
  ⟨wSt (wLive [] []), 3, by decide⟩

theorem witness_Timebases_4 : ∃ (s : State) (k : Fin 16),
    NMap.get s.hub.trg k ≠ 0 :=
  ⟨wSt { wLive [] [] with trg := [(3, 40)] }, 3, by decide⟩

theorem witness_Timebases_5 : ∃ (s : State) (k : Fin 16),
    NMap.get s.hub.trg k = 0 :=
  ⟨wSt (wLive [] []), 3, by decide⟩

theorem witness_Timebases_6 : ∃ (s : State) (i : Fin 8) (rising : Bool),
    s.hub.is fLdrStatusConfigured = true ∧
    (s.hub.cf 10 16 (2 * i) 0 2 = 3 ∨ s.hub.cf 10 16 (2 * i) 0 2 = 1 ∧ rising = true ∨ s.hub.cf 10 16 (2 * i) 0 2 = 2 ∧ rising = false) ∧
    ((NMap.get s.hub.tach i).any = false ∨ 16 * s.hub.cf 10 16 (2 * i) 2 16 ≤ s.hub.cyc - (NMap.get s.hub.tach i).lastCyc) :=
  ⟨wSt { wLive [] [(0xA10004, 3#32)] with cyc := 100, tach := [(2, { (default : Tach) with any := true, lastCyc := 20 })] }, 2, true, by decide⟩

theorem witness_Timebases_7 : ∃ (s : State) (i : Fin 8) (rising : Bool),
    s.hub.is fLdrStatusConfigured = true ∧
    (s.hub.cf 10 16 (2 * i) 0 2 = 3 ∨ s.hub.cf 10 16 (2 * i) 0 2 = 1 ∧ rising = true ∨ s.hub.cf 10 16 (2 * i) 0 2 = 2 ∧ rising = false) ∧
    (NMap.get s.hub.tach i).any = true ∧
    s.hub.cyc - (NMap.get s.hub.tach i).lastCyc < 16 * s.hub.cf 10 16 (2 * i) 2 16 :=
  ⟨wSt { wLive [] [(0xA10004, 0x43#32)] with cyc := 100, tach := [(2, { (default : Tach) with any := true, lastCyc := 20 })] }, 2, true, by decide⟩

theorem witness_Timebases_8 : ∃ (s : State) (i : Fin 8) (rising : Bool),
    (s.hub.is fLdrStatusConfigured = false ∨ s.hub.cf 10 16 (2 * i) 0 2 = 0 ∨ s.hub.cf 10 16 (2 * i) 0 2 = 1 ∧ rising = false ∨ s.hub.cf 10 16 (2 * i) 0 2 = 2 ∧ rising = true) :=
  ⟨wSt (wLive [] [(0xA10004, 1#32)]), 2, false, by decide⟩

theorem witness_Timebases_9 : ∃ (s : State) (i : Fin 8),
    s.hub.answers s.fixed s.met .tm (0x1C0A00 + 0x20 * i) = true :=
  ⟨wSt { wLive [] [] with tach := [(2, { (default : Tach) with stamps := [(0, 2 ^ 80)] })] }, 2, by decide⟩

theorem witness_TriggersAndTimer_1 : ∃ (s : State) (g : Fin 32) (w : Word),
    s.hub.answers s.fixed s.met .tm (0x1C0800 + 0x10 * g) = true ∧ bitOf w 0 = true ∧ s.hub.tgPeriod g ≠ 0 ∧
    s.hub.is (fTmTgCtlEnable g) = false :=
  ⟨wSt (wLive [] [(0xA1002D, 1000#32)]), 2, 1#32, by decide⟩

theorem witness_TriggersAndTimer_2 : ∃ (s : State) (g : Fin 32) (w : Word),
    s.hub.answers s.fixed s.met .tm (0x1C0800 + 0x10 * g) = true ∧ bitOf w 0 = true ∧ s.hub.tgPeriod g ≠ 0 ∧
    s.hub.is (fTmTgCtlEnable g) = true :=
  ⟨wSt (wLive [(rTmTgCtl 2, 1#32)] [(0xA1002D, 1000#32)]), 2, 1#32, by decide⟩

theorem witness_TriggersAndTimer_3 : ∃ (s : State) (g : Fin 32) (w : Word),
    s.hub.answers s.fixed s.met .tm (0x1C0800 + 0x10 * g) = true ∧ (bitOf w 0 = false ∨ s.hub.tgPeriod g = 0) :=
  ⟨wSt (wLive [(rTmTgCtl 2, 1#32)] []), 2, 1#32, by decide⟩

theorem witness_TriggersAndTimer_4 : ∃ (s : State) (g : Fin 32),
    s.hub.tgOn g = true ∧ (NMap.get s.hub.trig g).due * 2 ^ 32 ≤ s.hub.tbVal (s.hub.tgTb g) :=
  ⟨wSt { wLive [(rTmTgCtl 2, 1#32)] [(0xA1002D, 1000#32)] with tb := [(0, { (default : TimeBase) with val := 2 ^ 60 })] }, 2, by decide⟩

theorem witness_TriggersAndTimer_5 : ∃ (s : State) (g : Fin 32),
    s.hub.tgOn g = true ∧ (NMap.get s.hub.trig g).due * 2 ^ 32 ≤ s.hub.tbVal (s.hub.tgTb g) ∧
    s.hub.cell 10 16 (0x25 + 6 * g) = 0#32 :=
  ⟨wSt { wLive [(rTmTgCtl 2, 1#32)] [(0xA1002D, 1000#32)] with tb := [(0, { (default : TimeBase) with val := 2 ^ 60 })] }, 2, by decide⟩

theorem witness_TriggersAndTimer_6 : ∃ (s : State) (g : Fin 32) (k : Fin 16),
    s.hub.tgOn g = true ∧ (NMap.get s.hub.trig g).due * 2 ^ 32 ≤ s.hub.tbVal (s.hub.tgTb g) ∧
    s.hub.cell 10 16 (0x25 + 6 * g) = w32 (0x20 + k) ∧ s.hub.cf 10 16 (0x010 + k) 17 1 = 1 :=
  ⟨wSt { wLive [(rTmTgCtl 2, 1#32)] [(0xA1002D, 1000#32), (0xA10031, 0x23#32), (0xA10013, 0x20007#32)] with tb := [(0, { (default : TimeBase) with val := 2 ^ 60 })] }, 2, 3, by decide⟩

theorem witness_TriggersAndTimer_7 : ∃ (s : State) (g : Fin 32),
    s.hub.tgOn g = false :=
  ⟨wSt (wLive [] [(0xA1002D, 1000#32)]), 2, by decide⟩

theorem witness_TriggersAndTimer_8 : ∃ (s : State) (a : Fin 256) (i : Fin 5),
    s.hub.answers s.fixed s.met .tm (0x1C1000 + 0x20 * a + 4 * i) = true :=
  ⟨wSt (wLive [] []), 200, 3, by decide⟩

theorem witness_TriggersAndTimer_9 : ∃ (s : State) (a : Fin 256) (w : Word),
    s.hub.answers s.fixed s.met .tm (0x1C1014 + 0x20 * a) = true ∧ bitOf w 31 = false ∧
    (bitOf w 30 = false ∨ 20 * 65536 ≤ ((NMap.getD (NMap.get s.hub.kt a).held 3 (s.hub.reg (rTmKtPer0 a))).toNat * 65536 + fieldOf (NMap.getD (NMap.get s.hub.kt a).held 4 (s.hub.reg (0x1C1010 + 0x20 * a))) 16 16)) ∧
    (fieldOf w 24 5 < 17 ∨ fieldOf w 24 5 = 17 ∧ s.fixed.variant.hasMet = true) :=
  ⟨wSt { wLive [] [] with kt := [(5, { (default : KtAct) with held := [(1, 7#32)] })] }, 5, 3#32, by decide⟩

theorem witness_TriggersAndTimer_10 : ∃ (s : State) (a : Fin 256) (w : Word),
    s.hub.answers s.fixed s.met .tm (0x1C1014 + 0x20 * a) = true ∧
    (bitOf w 30 = false ∨ 20 * 65536 ≤ ((NMap.getD (NMap.get s.hub.kt a).held 3 (s.hub.reg (rTmKtPer0 a))).toNat * 65536 + fieldOf (NMap.getD (NMap.get s.hub.kt a).held 4 (s.hub.reg (0x1C1010 + 0x20 * a))) 16 16)) ∧
    (fieldOf w 24 5 < 17 ∨ fieldOf w 24 5 = 17 ∧ s.fixed.variant.hasMet = true) ∧ (NMap.get s.hub.kt a).held = [] ∧
    (s.hub.tickN 1).tbVal (fieldOf w 24 5) < s.hub.ktDue a * 2 ^ 32 ∧
    (s.hub.tickN 2).tbVal (fieldOf w 24 5) < s.hub.ktDue a * 2 ^ 32 :=
  ⟨wSt (wLive [(0x1C10A4, 9#32)] []), 5, 0x80000003#32, by decide⟩

theorem witness_TriggersAndTimer_11 : ∃ (s : State) (a : Fin 256) (w : Word),
    s.hub.answers s.fixed s.met .tm (0x1C1014 + 0x20 * a) = true ∧ s.hub.is fLdrStatusConfigured = true ∧
    bitOf w 31 = true ∧ bitOf w 30 = false ∧
    (fieldOf w 24 5 < 17 ∨ fieldOf w 24 5 = 17 ∧ s.fixed.variant.hasMet = true) ∧ (NMap.get s.hub.kt a).held = [] ∧
    s.hub.ktDue a * 2 ^ 32 ≤ (s.hub.tickN 1).tbVal (fieldOf w 24 5) :=
  ⟨wSt (wLive [] []), 5, 0x80000003#32, by decide⟩

theorem witness_TriggersAndTimer_12 : ∃ (s : State) (a : Fin 256) (w : Word),
    s.hub.answers s.fixed s.met .tm (0x1C1014 + 0x20 * a) = true ∧
    ((bitOf w 30 = true ∧ ((NMap.getD (NMap.get s.hub.kt a).held 3 (s.hub.reg (rTmKtPer0 a))).toNat * 65536 + fieldOf (NMap.getD (NMap.get s.hub.kt a).held 4 (s.hub.reg (0x1C1010 + 0x20 * a))) 16 16) < 20 * 65536) ∨ 18 ≤ fieldOf w 24 5 ∨ (fieldOf w 24 5 = 17 ∧ s.fixed.variant.hasMet = false)) :=
  ⟨wSt (wLive [] []), 5, 0xC0000000#32, by decide⟩

theorem witness_TriggersAndTimer_13 : ∃ (s : State) (a : Fin 256),
    s.hub.ktOn a = true ∧ s.hub.ktDue a * 2 ^ 32 ≤ s.hub.tbVal (s.hub.ktTb a) :=
  ⟨wSt (wLive [(rTmKtCtl 5, 0x80000002#32)] [(0x802082, 1#32)]), 5, by decide⟩

theorem witness_TriggersAndTimer_14 : ∃ (s : State) (a : Fin 256),
    s.hub.ktOn a = false :=
  ⟨wSt (wLive [] [(0x802082, 1#32)]), 5, by decide⟩

theorem witness_LinkStates_1 : ∃ (s : State) (p : Fin 3),
    s.hub.rd (fCasPStatusState p) = 0 ∧ s.hub.linkOn s.fixed p = true ∧
    s.hub.flt.recs.find? (fun r => r.scope == 5 && r.unit == p.val) = none :=
  ⟨wTree 0 0 0 id [], 1, by decide⟩

theorem witness_LinkStates_2 : ∃ (s : State) (p : Fin 3),
    (s.hub.rd (fCasPStatusState p) ≠ 0 ∨ s.hub.linkOn s.fixed p = false) :=
  ⟨wTree 0 2 0 id [], 1, by decide⟩

theorem witness_LinkStates_3 : ∃ (s : State) (p : Fin 3) (role : Fin 3) (delay : BitVec 32),
    s.hub.rd (fCasPStatusState p) = 1 ∧ s.hub.linkOn s.fixed p = true ∧ ¬((p.val = 0) = (role.val = 0)) ∧
    delay.toNat ≤ 15360000 :=
  ⟨wTree 1 0 0 id [], 0, 1, 256#32, by decide⟩

theorem witness_LinkStates_4 : ∃ (s : State) (p : Fin 3) (role : Fin 3) (delay : BitVec 32),
    s.hub.rd (fCasPStatusState p) = 1 ∧ s.hub.linkOn s.fixed p = true ∧
    (((p.val = 0) = (role.val = 0)) ∨ 15360000 < delay.toNat) :=
  ⟨wTree 0 1 0 id [], 1, 2, 256#32, by decide⟩

theorem witness_LinkStates_5 : ∃ (s : State) (p : Fin 3),
    (s.hub.rd (fCasPStatusState p) ≠ 1 ∨ s.hub.linkOn s.fixed p = false) :=
  ⟨wTree 0 2 0 id [], 1, by decide⟩

theorem witness_LinkStates_6 : ∃ (s : State) (p : Fin 3),
    s.hub.linkUp p = true :=
  ⟨wTree 2 0 0 id [], 0, by decide⟩

theorem witness_LinkStates_7 : ∃ (s : State) (p : Fin 3),
    s.hub.linkUp p = false :=
  ⟨wTree 0 0 0 id [], 1, by decide⟩

theorem witness_LinkStates_8 : ∃ (s : State) (p : Fin 3) (role : Fin 3) (device : BitVec 9),
    s.hub.rd (fCasPStatusState p) = 3 ∧ s.hub.rd (fCasPStatusPartner p) = role.val + 1 ∧
    (p.val = 0 ∨ (s.hub.lk p).dev = device.toNat) :=
  ⟨wTree 0 3 0 (fun h => { h with link := [(1, { (default : Link) with dev := 3, retry := [(3, [default, default])] })] }) [], 1, 0, 3#9, by decide⟩

theorem witness_LinkStates_9 : ∃ (s : State) (p : Fin 3) (role : Fin 3) (device : BitVec 9),
    (s.hub.rd (fCasPStatusState p) ≠ 3 ∨ s.hub.rd (fCasPStatusPartner p) ≠ role.val + 1 ∨ p.val ≠ 0 ∧ (s.hub.lk p).dev ≠ device.toNat) :=
  ⟨wTree 0 3 0 id [], 1, 2, 3#9, by decide⟩

theorem witness_LinkStates_10 : ∃ (s : State) (p : Fin 3),
    s.hub.rd (fCasPStatusState p) = 3 :=
  ⟨wTree 0 3 0 (fun h => { h with link := [(1, { (default : Link) with dev := 3, retry := [(3, [default, default])] })] }) [], 1, by decide⟩

theorem witness_LinkStates_11 : ∃ (s : State) (p : Fin 3),
    (s.hub.rd (fCasPStatusState p) = 1 ∨ s.hub.rd (fCasPStatusState p) = 4) :=
  ⟨wTree 0 4 0 id [], 1, by decide⟩

theorem witness_LinkStates_12 : ∃ (s : State) (p : Fin 3),
    s.hub.rd (fCasPStatusState p) ≠ 3 :=
  ⟨wTree 0 2 0 id [], 1, by decide⟩

theorem witness_LinkStates_13 : ∃ (s : State) (p : Fin 3),
    s.hub.rd (fCasPStatusState p) ≠ 1 ∧ s.hub.rd (fCasPStatusState p) ≠ 4 :=
  ⟨wTree 0 2 0 id [], 1, by decide⟩

theorem witness_LinkTraffic_1 : ∃ (s : State) (p : Fin 3),
    s.hub.linkUp p = true :=
  ⟨wTree 2 0 0 id [], 0, by decide⟩

theorem witness_LinkTraffic_2 : ∃ (s : State) (p : Fin 3),
    s.hub.linkUp p = false :=
  ⟨wTree 0 0 0 id [], 0, by decide⟩

theorem witness_LinkTraffic_3 : ∃ (s : State) (p : Fin 3),
    s.hub.linkUp p = true :=
  ⟨wTree 2 0 0 (fun h => { h with link := [(0, { (default : Link) with retry := [(3, [default, default])] })] }) [], 0, by decide⟩

theorem witness_LinkTraffic_4 : ∃ (s : State) (p : Fin 3) (cls : Fin 4) (seq : BitVec 12) (k : Nat),
    s.hub.linkUp p = true ∧ (NMap.get (s.hub.lk p).retry cls).findIdx? (fun x => x.f.seq == seq) = some k ∧
    (k ≠ 0 ∨ NMap.get (s.hub.lk p).resent cls + 1 < 8) :=
  ⟨wTree 2 0 0 (fun h => { h with link := [(0, { (default : Link) with retry := [(3, [{ (default : TxItem) with f := { (default : CasFrame) with seq := 4#12 } }, { (default : TxItem) with f := { (default : CasFrame) with seq := 5#12 } }])] })] }) [], 0, 3, 5#12, 1, by decide⟩

theorem witness_LinkTraffic_5 : ∃ (s : State) (p : Fin 3) (cls : Fin 4),
    s.hub.linkUp p = true ∧ NMap.get (s.hub.lk p).retry cls ≠ [] ∧ NMap.get (s.hub.lk p).resent cls + 1 < 8 :=
  ⟨wTree 2 0 0 (fun h => { h with link := [(0, { (default : Link) with retry := [(3, [default])], resent := [(3, 6)] })] }) [], 0, 3, by decide⟩

theorem witness_LinkTraffic_6 : ∃ (s : State) (p : Fin 3) (cls : Fin 4),
    s.hub.linkUp p = true ∧ NMap.get (s.hub.lk p).retry cls ≠ [] ∧ 7 ≤ NMap.get (s.hub.lk p).resent cls :=
  ⟨wTree 2 0 0 (fun h => { h with link := [(0, { (default : Link) with retry := [(3, [default])], resent := [(3, 7)] })] }) [], 0, 3, by decide⟩

theorem witness_LinkTraffic_7 : ∃ (s : State) (p : Fin 3) (cls : Fin 4),
    NMap.get (s.hub.lk p).retry cls = [] :=
  ⟨wTree 2 0 0 id [], 0, 3, by decide⟩

theorem witness_LinkTraffic_8 : ∃ (s : State) (p : Fin 3) (x : TxItem),
    s.hub.linkUp p = true ∧ NMap.get (s.hub.lk p).again 0 = 0 ∧ (NMap.get (s.hub.lk p).retry 0).length < 2047 ∧
    (s.hub.lk p).txq.find? (fun i => i.cls == 0) = some x ∧ frameCost x.f.words.length ≤ (s.hub.lk p).avail 0 :=
  ⟨wTree 2 0 0 (fun h => { h with link := [(0, { (default : Link) with txq := [{ (default : TxItem) with cls := 2 }, { (default : TxItem) with src := 3 }] })] }) [], 0, { (default : TxItem) with src := 3 }, by decide⟩

theorem witness_LinkTraffic_9 : ∃ (s : State) (p : Fin 3) (x : TxItem),
    s.hub.linkUp p = true ∧ NMap.get (s.hub.lk p).again 0 = 0 ∧ (s.hub.lk p).txq.all (fun i => i.cls != 0) = true ∧
    NMap.get (s.hub.lk p).again 2 = 0 ∧ (NMap.get (s.hub.lk p).retry 2).length < 2047 ∧
    (s.hub.lk p).txq.find? (fun i => i.cls == 2) = some x ∧ frameCost x.f.words.length ≤ (s.hub.lk p).avail 2 :=
  ⟨wTree 2 0 0 (fun h => { h with link := [(0, { (default : Link) with txq := [{ (default : TxItem) with cls := 1 }, { (default : TxItem) with src := 3, cls := 2 }] })] }) [], 0, { (default : TxItem) with src := 3, cls := 2 }, by decide⟩

theorem witness_LinkTraffic_10 : ∃ (s : State) (p : Fin 3) (k : Nat) (x : TxItem),
    s.hub.linkUp p = true ∧ NMap.get (s.hub.lk p).again 0 = 0 ∧ (s.hub.lk p).txq.all (fun i => i.cls != 0) = true ∧
    NMap.get (s.hub.lk p).again 2 = k + 1 ∧
    (NMap.get (s.hub.lk p).retry 2)[(NMap.get (s.hub.lk p).retry 2).length - (k + 1)]? = some x ∧
    frameCost x.f.words.length ≤ (s.hub.lk p).avail 2 :=
  ⟨wTree 2 0 0 (fun h => { h with link := [(0, { (default : Link) with retry := [(2, [default, { (default : TxItem) with src := 3, cls := 2 }])], again := [(2, 1)] })] }) [], 0, 0, { (default : TxItem) with src := 3, cls := 2 }, by decide⟩

theorem witness_LinkTraffic_11 : ∃ (s : State) (p : Fin 3) (x : TxItem),
    p.val ≠ 0 ∧ s.hub.linkUp p = true ∧ s.hub.cas.bs.length < 66 ∧ (∀ b ∈ List.range 32, s.hub.bgSends b = false) ∧
    (∀ c ∈ List.range 4, NMap.get (s.hub.lk p).again c = 0) ∧ (s.hub.lk p).txq.all (fun i => i.cls == 3) = true ∧
    (NMap.get (s.hub.lk p).retry 3).length < 2047 ∧ (s.hub.lk p).pick 3 = some x ∧
    frameCost x.f.words.length ≤ (s.hub.lk p).avail 3 :=
  ⟨wTree 0 2 0 (fun h => { h with link := [(1, { (default : Link) with txq := [{ (default : TxItem) with src := 2, cls := 3 }] })] }) [], 1, { (default : TxItem) with src := 2, cls := 3 }, by decide⟩

theorem witness_LinkTraffic_12 : ∃ (s : State) (q : Nat) (w : QWord) (ws : List QWord),
    (s.hub.lk 0).gather = some (q, w :: ws) :=
  ⟨wTree 2 0 0 (fun h => { h with link := [(0, { (default : Link) with gather := some (5, [3#40]) })] }) [], 5, 3#40, [], by decide⟩

theorem witness_LinkTraffic_13 : ∃ (s : State),
    (s.hub.lk 0).gather = none :=
  ⟨wTree 2 0 0 id [], by decide⟩

theorem witness_LinkTraffic_14 : ∃ (s : State) (b : Fin 32) (d : Nat) (ds : List Nat) (x : Samp) (xs : List Samp),
    s.hub.bgCell b 0 1 1 = 1 ∧ (s.hub.bg b).fifo = x :: xs ∧ (s.hub.bg b).due = d :: ds ∧ d * 2 ^ 32 ≤ s.hub.tbVal 16 :=
  ⟨wTree 2 0 0 (fun h => { h with cas := { (default : Cas) with bridge := [(2, { (default : Bridge) with fifo := [default, default], due := [0, 5] })] } }) [(cellKey 11 3 0x18, 3#32)], 2, 0, [5], default, [default], by decide⟩

theorem witness_LinkTraffic_15 : ∃ (s : State) (b : Fin 32),
    (s.hub.bgCell b 0 1 1 = 0 ∨ (s.hub.bg b).due = []) :=
  ⟨wTree 2 0 0 id [(cellKey 11 3 0x18, 3#32)], 2, by decide⟩

theorem witness_FramesReceived_1 : ∃ (s : State) (p : Fin 3) (f : CasFrame) (q : Fin 3),
    s.hub.rxGood p 3 f ∧ s.hub.route s.fixed f.dst.toNat = some q.val ∧ s.hub.linkUp q = true :=
  ⟨wTree 2 2 0 (fun h => h.wr fGlbStatusDevnum 3) [], 1, wFrame false 0#9 4#6 [9#32], 0, by decide⟩

theorem witness_FramesReceived_2 : ∃ (s : State) (p : Fin 3) (f : CasFrame),
    s.hub.rxGood p 3 f ∧ s.hub.route s.fixed f.dst.toNat = some 3 :=
  ⟨wMaster 2 0 id [], 1, wFrame false 0#9 4#6 [9#32], by decide⟩

theorem witness_FramesReceived_3 : ∃ (s : State) (p : Fin 3) (f : CasFrame),
    s.hub.rxGood p 3 f ∧ s.hub.route s.fixed f.dst.toNat = none :=
  ⟨wMaster 2 0 id [], 1, wFrame false 9#9 4#6 [9#32], by decide⟩

theorem witness_FramesReceived_4 : ∃ (s : State) (p : Fin 3) (f : CasFrame),
    s.hub.linkUp p = true ∧ f.crcOk = false :=
  ⟨wMaster 2 0 id [], 1, { wFrame false 9#9 4#6 [9#32] with crcOk := false }, by decide⟩

theorem witness_FramesReceived_5 : ∃ (s : State) (p : Fin 3) (f : CasFrame) (q : Fin 3),
    s.hub.rxGood p 2 f ∧ s.hub.isMaster s.fixed = false ∧ s.hub.route s.fixed f.dst.toNat = some q.val :=
  ⟨wTree 3 2 0 (fun h => h.wr fGlbStatusDevnum 3) [], 1, wFrame false 0#9 4#6 [9#32], 0, by decide⟩

theorem witness_FramesReceived_6 : ∃ (s : State) (p : Fin 3) (f : CasFrame),
    s.hub.rxGood p 2 f ∧ s.hub.isMaster s.fixed = true :=
  ⟨wMaster 2 0 id [], 1, wFrame false 0#9 4#6 [9#32], by decide⟩

theorem witness_FramesReceived_7 : ∃ (s : State) (p : Fin 3) (f : CasFrame) (q : Fin 3),
    s.hub.rxGood p 3 f ∧ s.hub.route s.fixed f.dst.toNat = some q.val ∧ s.hub.linkUp q = true :=
  ⟨wTree 2 2 0 (fun h => h.wr fGlbStatusDevnum 3) [], 1, wFrame false 0#9 4#6 [9#32], 0, by decide⟩

theorem witness_FramesReceived_8 : ∃ (s : State) (p : Fin 3) (f : CasFrame),
    s.hub.rxGood p 3 f ∧ s.hub.route s.fixed f.dst.toNat = some 3 ∧ f.sub.toNat < 32 :=
  ⟨wMaster 2 0 id [(cellKey 11 3 0x18, 3#32)], 1, wFrame false 0#9 2#6 (List.replicate 15 0#32), by decide⟩

theorem witness_FramesReceived_9 : ∃ (s : State) (p : Fin 3) (f : CasFrame),
    s.hub.rxGood p 1 f :=
  ⟨wTree 2 0 0 id [], 0, wFrame false 0#9 9#6 [9#32], by decide⟩

theorem witness_FramesReceived_10 : ∃ (s : State) (p : Fin 3) (f : CasFrame),
    s.hub.rxGood p 3 f ∧ s.hub.route s.fixed f.dst.toNat = some 3 ∧ f.words.length = 15 ∧ f.sub.toNat < 32 ∧
    s.hub.bgTakes f.sub.toNat = true ∧ (s.hub.bg f.sub.toNat).fifo.length < 512 ∧
    s.hub.tbVal 16 - s.hub.tbAdd 16 * 65536 < ((markTime ((framePay f).take 7) + s.hub.bgCell f.sub.toNat 2 0 32 * 65536 : Nat) : Int) * 2 ^ 32 :=
  ⟨wMaster 2 0 id [(cellKey 11 3 0x18, 3#32)], 1, wFrame false 0#9 2#6 ([0#32, 0#32, 0#32, 5#32] ++ List.replicate 11 0x100007#32), by decide⟩

theorem witness_FramesReceived_11 : ∃ (s : State) (p : Fin 3) (f : CasFrame),
    s.hub.linkUp p = true ∧ f.crcOk = false :=
  ⟨wMaster 2 0 id [], 1, { wFrame false 9#9 4#6 [9#32] with crcOk := false }, by decide⟩

theorem witness_FramesReceived_12 : ∃ (s : State) (p : Fin 3) (f : CasFrame),
    s.hub.linkUp p = true ∧ f.crcOk = true ∧ f.words ≠ [] ∧ f.words.length ≤ 512 ∧
    f.seq.toNat ≠ NMap.get (s.hub.lk p).seqRx 3 :=
  ⟨wMaster 2 0 id [], 1, { wFrame false 0#9 4#6 [9#32] with seq := 5#12 }, by decide⟩

theorem witness_FramesReceived_13 : ∃ (s : State) (p : Fin 3),
    s.hub.linkUp p = false :=
  ⟨wMaster 0 0 id [], 1, by decide⟩

theorem witness_EnumerationWalk_1 : ∃ (s : State),
    s.hub.answers s.fixed s.met .cas 0x1D0300 = true ∧ s.hub.isMaster s.fixed = true ∧ s.hub.linkUp 1 = true :=
  ⟨wMaster 2 0 id [], by decide⟩

theorem witness_EnumerationWalk_2 : ∃ (s : State),
    s.hub.answers s.fixed s.met .cas 0x1D0300 = true ∧ s.hub.isMaster s.fixed = true ∧ s.hub.linkUp 1 = false ∧
    s.hub.linkUp 2 = true :=
  ⟨wMaster 0 2 id [], by decide⟩

theorem witness_EnumerationWalk_3 : ∃ (s : State),
    s.hub.answers s.fixed s.met .cas 0x1D0300 = true ∧ s.hub.isMaster s.fixed = true ∧ s.hub.linkUp 1 = false ∧
    s.hub.linkUp 2 = false :=
  ⟨wMaster 0 0 id [], by decide⟩

theorem witness_EnumerationWalk_4 : ∃ (s : State),
    s.hub.answers s.fixed s.met .cas 0x1D0300 = true ∧ s.hub.isMaster s.fixed = false :=
  ⟨wTree 2 0 0 id [], by decide⟩

theorem witness_EnumerationWalk_5 : ∃ (s : State),
    s.hub.clk.gates = true ∧ s.fixed.cmstr = true ∧ s.hub.cas.begun = false ∧
    (List.range 3).all (fun p => s.hub.rd (fCasPStatusPartner p) == 0) = true ∧ s.hub.linkUp 1 = false ∧
    s.hub.linkUp 2 = false :=
  ⟨wMaster 0 0 id [], by decide⟩

theorem witness_EnumerationWalk_6 : ∃ (s : State),
    (s.hub.clk.gates = false ∨ s.fixed.cmstr = false ∨ s.hub.cas.begun = true ∨ s.hub.rd (fCasPStatusPartner 0) ≠ 0) :=
  ⟨wTree 0 0 0 id [], by decide⟩

theorem witness_EnumerationWalk_7 : ∃ (s : State),
    ((s.fixed.cmstr = false ∧ s.hub.rd (fCasPStatusPartner 0) = 0 ∧ (s.hub.rd (fCasPStatusPartner 1) ≠ 0 ∨ s.hub.rd (fCasPStatusPartner 2) ≠ 0)) ∨ (s.hub.rd (fCasPStatusPartner 0) ≠ 0 ∧ s.hub.linkUp 0 = true ∧ s.hub.rd fCasEnumState = 0)) :=
  ⟨wTree 2 0 0 id [], by decide⟩

theorem witness_EnumerationWalk_8 : ∃ (s : State),
    (s.hub.rd (fCasPStatusPartner 0) ≠ 0 ∨ s.fixed.cmstr = true ∨ s.hub.rd (fCasPStatusPartner 1) = 0 ∧ s.hub.rd (fCasPStatusPartner 2) = 0) ∧
    (s.hub.rd (fCasPStatusPartner 0) = 0 ∨ s.hub.linkUp 0 = false ∨ s.hub.rd fCasEnumState ≠ 0) :=
  ⟨wTree 0 0 0 id [], by decide⟩

theorem witness_EnumerationWalk_9 : ∃ (s : State) (f : CasFrame),
    s.hub.rxGood 0 1 f ∧ s.fixed.cmstr = false ∧ fieldOf (recWord (framePay f) 0) 17 6 < 32 ∧
    fieldOf (recWord (framePay f) 0) 23 9 < 511 ∧ s.hub.linkUp 1 = true :=
  ⟨wTree 2 2 0 id [], wFrame false 0#9 1#6 [w32 (5 * 2 ^ 23 + 1 * 2 ^ 17), 0#32], by decide⟩

theorem witness_EnumerationWalk_10 : ∃ (s : State) (f : CasFrame),
    s.hub.rxGood 0 1 f ∧ s.fixed.cmstr = false ∧ fieldOf (recWord (framePay f) 0) 17 6 < 32 ∧ s.hub.linkUp 1 = false ∧
    s.hub.linkUp 2 = false :=
  ⟨wTree 2 0 0 id [], wFrame false 0#9 1#6 [w32 (5 * 2 ^ 23 + 1 * 2 ^ 17), 0#32], by decide⟩

theorem witness_EnumerationWalk_11 : ∃ (s : State) (f : CasFrame),
    s.hub.rxGood 0 1 f ∧ (s.fixed.cmstr = true ∨ 32 ≤ fieldOf (recWord (framePay f) 0) 17 6) :=
  ⟨{ wTree 2 0 0 id [] with fixed := { (wTree 2 0 0 id []).fixed with cmstr := true } }, wFrame false 0#9 1#6 [w32 (5 * 2 ^ 23 + 1 * 2 ^ 17), 0#32], by decide⟩

theorem witness_EnumerationWalk_12 : ∃ (s : State) (f : CasFrame),
    s.hub.rxGood 1 1 f ∧ s.hub.isMaster s.fixed = true ∧ s.hub.enumRuns = true ∧ s.hub.cas.phase = 1 ∧
    s.hub.linkUp 2 = false :=
  ⟨wMaster 2 0 (fun h => { (h.wr fCasEnumState 1) with cas := { (default : Cas) with phase := 1, next := 1 } }) [], wFrame false 0#9 2#6 [w32 (3 * 2 ^ 23 + 2 * 2 ^ 13)], by decide⟩

theorem witness_EnumerationWalk_13 : ∃ (s : State) (f : CasFrame),
    s.hub.rxGood 1 1 f ∧ s.hub.enumRuns = true ∧ s.hub.cas.phase = 1 ∧ s.hub.linkUp 2 = true ∧
    s.hub.cas.next + fieldOf (recWord (framePay f) 0) 13 10 ≤ 511 :=
  ⟨wMaster 2 2 (fun h => { (h.wr fCasEnumState 1) with cas := { (default : Cas) with phase := 1, next := 1 } }) [], wFrame false 0#9 2#6 [w32 (3 * 2 ^ 23 + 2 * 2 ^ 13)], by decide⟩

theorem witness_EnumerationWalk_14 : ∃ (s : State) (f : CasFrame),
    s.hub.rxGood 2 1 f ∧ s.hub.isMaster s.fixed = false ∧ s.hub.enumRuns = true ∧ s.hub.cas.phase = 2 :=
  ⟨wTree 2 0 2 (fun h => { (h.wr fCasEnumState 1) with cas := { (default : Cas) with phase := 2, num := 4, next := 5 } }) [], wFrame false 0#9 2#6 [w32 (3 * 2 ^ 23 + 2 * 2 ^ 13)], by decide⟩

theorem witness_EnumerationWalk_15 : ∃ (s : State) (f : CasFrame),
    s.hub.rxGood 0 1 f ∧ f.bcast = true ∧ s.hub.enumRuns = true ∧ s.hub.cas.phase = 3 :=
  ⟨wTree 2 0 0 (fun h => { (h.wr fCasEnumState 1) with cas := { (default : Cas) with phase := 3, num := 4 } }) [], wFrame true 0#9 3#6 [0#32], by decide⟩

theorem witness_EnumerationWalk_16 : ∃ (s : State) (p : Fin 3) (f : CasFrame),
    p.val ≠ 0 ∧ s.hub.rxGood p 1 f ∧ s.hub.isMaster s.fixed = false ∧ s.hub.linkUp 0 = true :=
  ⟨wTree 2 2 0 id [], 1, wFrame false 0#9 4#6 [w32 (3 * 2 ^ 28)], by decide⟩

theorem witness_EnumerationWalk_17 : ∃ (s : State) (p : Fin 3) (f : CasFrame),
    s.hub.rxGood p 1 f ∧ (p.val = 0 ∨ s.hub.isMaster s.fixed = true) :=
  ⟨wTree 2 2 0 id [], 0, wFrame false 0#9 4#6 [w32 (3 * 2 ^ 28)], by decide⟩

theorem witness_EnumerationWalk_18 : ∃ (s : State) (p : Fin 3) (f : CasFrame),
    s.hub.rxGood p 1 f ∧ f.bcast = true :=
  ⟨wTree 2 2 0 (fun h => h.on fGlbStatusEnumOk) [], 0, wFrame true 0#9 5#6 [0#32], by decide⟩

theorem witness_EnumerationWalk_19 : ∃ (s : State) (f : CasFrame),
    s.hub.rxGood 0 1 f ∧ fieldOf (recWord (framePay f) 0) 23 9 < 511 :=
  ⟨wTree 2 2 0 id [], wFrame false 0#9 6#6 [w32 (5 * 2 ^ 23 + 2 * 2 ^ 13)], by decide⟩

theorem witness_EnumerationWalk_20 : ∃ (s : State) (p : Fin 3),
    s.hub.linkUp p = false :=
  ⟨wTree 0 0 0 id [], 1, by decide⟩

theorem witness_EnumerationWalk_21 : ∃ (s : State),
    s.hub.linkUp 0 = false ∧ s.hub.enumRuns = false :=
  ⟨wTree 0 0 0 id [], by decide⟩

theorem witness_RemoteAccess_1 : ∃ (s : State) (p : Fin 3),
    s.hub.answers s.fixed s.met .cas 0x1D0320 = true ∧ s.hub.is fCasRqCtlBusy = false ∧
    s.hub.isMaster s.fixed = true ∧ s.hub.is fCasRqCtlBcast = false ∧
    s.hub.route s.fixed (s.hub.rd fCasRqCtlDev) = some p.val ∧ s.hub.linkUp p = true :=
  ⟨wMaster 2 0 (fun h => (h.wr fCasRangeDn 3).wr fCasRqCtlDev 2) [], 1, by decide⟩

theorem witness_RemoteAccess_2 : ∃ (s : State),
    s.hub.answers s.fixed s.met .cas 0x1D0320 = true ∧ s.hub.is fCasRqCtlBusy = false ∧
    (s.hub.isMaster s.fixed = false ∨ (s.hub.is fCasRqCtlBcast = false ∧ s.hub.route s.fixed (s.hub.rd fCasRqCtlDev) = none)) :=
  ⟨wMaster 2 0 (fun h => h.wr fCasRqCtlDev 2) [], by decide⟩

theorem witness_RemoteAccess_3 : ∃ (s : State),
    s.hub.is fCasRqCtlBusy = false :=
  ⟨wMaster 2 0 id [], by decide⟩

theorem witness_RemoteAccess_4 : ∃ (s : State),
    s.hub.answers s.fixed s.met .cas 0x1D0320 = true ∧ s.hub.is fCasRqCtlBusy = false ∧
    s.hub.isMaster s.fixed = true ∧ s.hub.is fCasRqCtlBcast = true :=
  ⟨wMaster 2 0 (fun h => (h.on fCasRqCtlBcast).on fCasRqCtlWrite) [], by decide⟩

theorem witness_RemoteAccess_5 : ∃ (s : State),
    s.hub.answers s.fixed s.met .cas 0x1D0320 = true ∧ s.hub.is fCasRqCtlBusy = true :=
  ⟨wMaster 2 0 (fun h => h.on fCasRqCtlBusy) [], by decide⟩

theorem witness_RemoteAccess_6 : ∃ (s : State),
    s.hub.is fCasRqCtlBusy = true :=
  ⟨wMaster 2 0 (fun h => h.on fCasRqCtlBusy) [], by decide⟩

theorem witness_RemoteAccess_7 : ∃ (s : State) (f : CasFrame) (q : Fin 3),
    s.hub.rxGood 0 1 f ∧ f.bcast = false ∧ s.hub.route s.fixed f.dst.toNat = some q.val ∧ s.hub.linkUp q = true :=
  ⟨wTree 2 2 0 (fun h => (h.wr fGlbStatusDevnum 3).wr fCasRangeDn 4) [], wFrame false 5#9 10#6 [0#32, 0#32], 1, by decide⟩

theorem witness_RemoteAccess_8 : ∃ (s : State) (f : CasFrame),
    s.hub.rxGood 0 1 f ∧ f.bcast = false ∧ s.hub.route s.fixed f.dst.toNat = some 3 ∧
    bitOf (recWord (framePay f) 0) 30 = false :=
  ⟨wTree 2 2 0 (fun h => h.wr fGlbStatusDevnum 3) [], wFrame false 3#9 10#6 [0#32, 0#32], by decide⟩

theorem witness_RemoteAccess_9 : ∃ (s : State) (p : Fin 3) (f : CasFrame),
    s.hub.rxGood p 1 f ∧ (f.bcast = true ∨ s.hub.route s.fixed f.dst.toNat = some 3) ∧ s.hub.is fCasRqCtlBusy = true ∧
    fieldOf (recWord (framePay f) 0) 0 16 = s.hub.cas.tag % 65536 :=
  ⟨wMaster 2 0 (fun h => h.on fCasRqCtlBusy) [], 1, wFrame false 0#9 11#6 [0x60000000#32, 8#32], by decide⟩

theorem witness_RemoteAccess_10 : ∃ (s : State) (p : Fin 3) (f : CasFrame),
    s.hub.rxGood p 1 f ∧ f.bcast = false ∧ s.hub.route s.fixed f.dst.toNat = some 3 ∧
    (s.hub.is fCasRqCtlBusy = false ∨ fieldOf (recWord (framePay f) 0) 0 16 ≠ s.hub.cas.tag % 65536) :=
  ⟨wMaster 2 0 (fun h => h.on fCasRqCtlBusy) [], 1, wFrame false 0#9 11#6 [0x60000005#32, 8#32], by decide⟩

theorem witness_RemoteAccess_11 : ∃ (s : State) (p : Fin 3) (f : CasFrame),
    s.hub.rxGood p 1 f ∧ f.bcast = false ∧ s.hub.route s.fixed f.dst.toNat = some 3 :=
  ⟨wTree 2 2 0 (fun h => h.wr fGlbStatusDevnum 3) [], 0, wFrame false 3#9 8#6 (List.replicate 66 0#32), by decide⟩

theorem witness_RemoteAccess_12 : ∃ (s : State),
    s.hub.answers s.fixed s.met .cas 0x1D0400 = true ∧ s.hub.isMaster s.fixed = true :=
  ⟨wMaster 2 0 id [], by decide⟩

theorem witness_RemoteAccess_13 : ∃ (s : State),
    s.hub.answers s.fixed s.met .cas 0x1D0400 = true ∧ s.hub.isMaster s.fixed = false :=
  ⟨wTree 2 0 0 id [], by decide⟩

theorem witness_RemoteAccess_14 : ∃ (s : State) (p : Fin 3) (f : CasFrame),
    s.hub.rxGood p 1 f ∧ s.hub.isMaster s.fixed = true ∧ f.bcast = false ∧ s.hub.route s.fixed f.dst.toNat = some 3 ∧
    s.hub.hasSuppressed = false ∧ 0 < s.hub.bkTokens 1 ∧ s.hub.logRoom = true :=
  ⟨wMaster 2 0 id [(cellKey 9 62 0, 1#32)], 1, wFrame false 0#9 9#6 [1#32, w32 (5 * 2 ^ 23)], by decide⟩

theorem witness_RemoteAccess_15 : ∃ (s : State) (p : Fin 3) (f : CasFrame),
    s.hub.rxGood p 1 f ∧ s.hub.isMaster s.fixed = true ∧ f.bcast = false ∧ s.hub.route s.fixed f.dst.toNat = some 3 ∧
    s.hub.hasSuppressed = false ∧ 0 < s.hub.bkTokens 1 ∧ s.hub.logRoom = true :=
  ⟨wMaster 2 0 id [(cellKey 9 62 0, 1#32)], 1, wFrame false 0#9 12#6 [1#32, w32 (5 * 2 ^ 23)], by decide⟩

theorem witness_RemoteAccess_16 : ∃ (s : State) (p : Fin 3) (f : CasFrame),
    s.hub.rxGood p 1 f ∧ s.hub.isMaster s.fixed = false ∧ f.bcast = false ∧ s.hub.route s.fixed f.dst.toNat = some 0 ∧
    s.hub.linkUp 0 = true :=
  ⟨wTree 2 2 0 (fun h => h.wr fGlbStatusDevnum 3) [], 1, wFrame false 0#9 9#6 [1#32, w32 (5 * 2 ^ 23)], by decide⟩

theorem witness_RemoteAccess_17 : ∃ (s : State) (p : Fin 3),
    s.hub.linkUp p = false :=
  ⟨wTree 0 0 0 id [], 1, by decide⟩

theorem witness_TimeTransfer_2 : ∃ (s : State),
    s.hub.linkUp 0 = true :=
  ⟨wTree 2 2 0 id [], by decide⟩

theorem witness_TimeTransfer_3 : ∃ (s : State),
    s.hub.linkUp 0 = false :=
  ⟨wTree 0 2 0 id [], by decide⟩

theorem witness_TimeTransfer_4 : ∃ (s : State),
    s.hub.linkUp 0 = true ∧ (s.hub.lk 0).t2.isSome = true ∧ (s.hub.lk 0).t3 = none ∧
    (s.hub.lk 0).syncCyc + 800 ≤ s.hub.cyc :=
  ⟨wTree 2 2 0 (fun h => { h with cyc := 900, link := [(0, { (default : Link) with t2 := some 5 })] }) [], by decide⟩

theorem witness_TimeTransfer_5 : ∃ (s : State),
    s.hub.clk.gates = true ∧ s.hub.linkUp 0 = true ∧ (s.hub.lk 0).t2.isSome = true ∧ (s.hub.lk 0).t3 = none ∧
    s.hub.cyc < (s.hub.lk 0).syncCyc + 800 :=
  ⟨wTree 2 2 0 (fun h => { h with link := [(0, { (default : Link) with t2 := some 5 })] }) [], by decide⟩

theorem witness_TimeTransfer_6 : ∃ (s : State) (p : Fin 3) (num : BitVec 16) (t1 : Nat),
    p.val ≠ 0 ∧ s.hub.linkUp p = true ∧ (s.hub.lk p).t1 = some t1 ∧ (s.hub.lk p).exNum = num.toNat :=
  ⟨wTree 2 2 0 (fun h => { h with link := [(1, { (default : Link) with exNum := 7, t1 := some 5 })] }) [], 1, 7#16, 5, by decide⟩

theorem witness_TimeTransfer_7 : ∃ (s : State) (p : Fin 3) (num : BitVec 16),
    (p.val = 0 ∨ s.hub.linkUp p = false ∨ (s.hub.lk p).t1 = none ∨ (s.hub.lk p).exNum ≠ num.toNat) :=
  ⟨wTree 2 2 0 id [], 1, 7#16, by decide⟩

theorem witness_TimeTransfer_8 : ∃ (s : State) (f : CasFrame) (t1 : Nat) (t2 : Nat) (t3 : Nat) (t4 : Nat),
    s.hub.rxGood 0 0 f ∧ (s.hub.lk 0).t2 = some t2 ∧ (s.hub.lk 0).t3 = some t3 ∧
    fieldOf (recWord (framePay f) 0) 16 16 = (s.hub.lk 0).exNum ∧
    t1 = ofTimeWords (recWord (framePay f) 1).toNat (recWord (framePay f) 2).toNat (recWord (framePay f) 3).toNat (fieldOf (recWord (framePay f) 4) 16 16) ∧
    t4 = ofTimeWords (recWord (framePay f) 5).toNat (recWord (framePay f) 6).toNat (recWord (framePay f) 7).toNat (fieldOf (recWord (framePay f) 4) 0 16) ∧
    s.hub.is (fTmTbStepsUsed 16) = false ∧ bitOf (recWord (framePay f) 0) 8 = false ∧ s.hub.cf 11 3 0 1 1 = 1 :=
  ⟨wTree 2 2 0 (fun h => { h with link := [(0, { (default : Link) with exNum := 7, t2 := some 5000, t3 := some 70000 })] }) [(cellKey 11 3 0, 2#32)], wFrame false 0#9 0#6 [0x00070000#32, 0#32, 0#32, 1#32, 0#32, 0#32, 0#32, 2#32], 65536, 5000, 70000, 131072, by decide⟩

theorem witness_TimeTransfer_9 : ∃ (s : State) (f : CasFrame) (t2 : Nat) (t3 : Nat),
    s.hub.rxGood 0 0 f ∧ (s.hub.lk 0).t2 = some t2 ∧ (s.hub.lk 0).t3 = some t3 ∧
    fieldOf (recWord (framePay f) 0) 16 16 = (s.hub.lk 0).exNum ∧ s.hub.is (fTmTbStepsUsed 16) = false ∧
    bitOf (recWord (framePay f) 0) 8 = true :=
  ⟨wTree 2 2 0 (fun h => { h with link := [(0, { (default : Link) with exNum := 7, t2 := some 5000, t3 := some 70000 })] }) [], wFrame false 0#9 0#6 [0x00070100#32, 0#32, 0#32, 1#32, 0#32, 0#32, 0#32, 2#32], 5000, 70000, by decide⟩

theorem witness_TimeTransfer_10 : ∃ (s : State) (f : CasFrame),
    s.hub.linkUp 0 = true ∧ f.crcOk = false :=
  ⟨wTree 2 2 0 (fun h => { h with link := [(0, { (default : Link) with exNum := 7, t2 := some 5000, t3 := some 70000 })] }) [], { wFrame false 0#9 0#6 [0#32] with crcOk := false }, by decide⟩

theorem witness_TimeTransfer_11 : ∃ (s : State) (f : CasFrame) (t2 : Nat) (t3 : Nat),
    s.hub.rxGood 0 0 f ∧ (s.hub.lk 0).t2 = some t2 ∧ (s.hub.lk 0).t3 = some t3 ∧
    fieldOf (recWord (framePay f) 0) 16 16 = (s.hub.lk 0).exNum ∧ s.hub.is (fTmTbStepsUsed 16) = true :=
  ⟨wTree 2 2 0 (fun h => { (h.on (fTmTbStepsUsed 16)) with link := [(0, { (default : Link) with exNum := 7, t2 := some 5000, t3 := some 70000 })] }) [], wFrame false 0#9 0#6 [0x00070100#32, 0#32, 0#32, 1#32, 0#32, 0#32, 0#32, 2#32], 5000, 70000, by decide⟩

theorem witness_TimeTransfer_12 : ∃ (s : State) (f : CasFrame),
    s.hub.rxGood 0 0 f ∧
    ((s.hub.lk 0).t2 = none ∨ (s.hub.lk 0).t3 = none ∨ fieldOf (recWord (framePay f) 0) 16 16 ≠ (s.hub.lk 0).exNum) :=
  ⟨wTree 2 2 0 id [], wFrame false 0#9 0#6 [0x00070100#32], by decide⟩

theorem witness_RadioCommands_1 : ∃ (s : State),
    s.hub.answers s.fixed s.met .rad 0x1E000C = true ∧ s.hub.radUp s.fixed = true ∧ s.hub.rad.mode = 1 ∧
    s.hub.rad.cmd = none ∧ s.hub.rad.cal = none ∧ s.hub.rad.path.contains 3 = false ∧ s.hub.radState ≠ 0 :=
  ⟨wRad 3 [] id id, by decide⟩

theorem witness_RadioCommands_2 : ∃ (s : State),
    s.hub.answers s.fixed s.met .rad 0x1E000C = true ∧ s.hub.radUp s.fixed = true ∧ s.hub.rad.mode = 1 ∧
    s.hub.rad.cmd = none ∧ s.hub.rad.cal = none ∧ s.hub.rad.path.contains 3 = false ∧ s.hub.radState ≠ 1 :=
  ⟨wRad 0 [] id id, by decide⟩

theorem witness_RadioCommands_3 : ∃ (s : State),
    s.hub.answers s.fixed s.met .rad 0x1E000C = true ∧ s.hub.radUp s.fixed = true ∧ s.hub.rad.mode = 1 ∧
    s.hub.rad.cmd = none ∧ s.hub.rad.cal = none ∧ s.hub.rad.path.contains 3 = false ∧ s.hub.rad.held = none ∧
    s.hub.radState = 0 :=
  ⟨wRad 0 [] id id, by decide⟩

theorem witness_RadioCommands_4 : ∃ (s : State),
    s.hub.answers s.fixed s.met .rad 0x1E000C = true ∧ s.hub.radUp s.fixed = true ∧ s.hub.rad.mode = 1 ∧
    s.hub.rad.cmd = none ∧ s.hub.rad.cal = none ∧ s.hub.rad.path.contains 3 = false ∧ s.hub.rad.held = none ∧
    s.hub.radState = 1 :=
  ⟨wRad 1 [] id id, by decide⟩

theorem witness_RadioCommands_5 : ∃ (s : State) (w : Word),
    s.hub.answers s.fixed s.met .rad 0x1E000C = true ∧ s.hub.radUp s.fixed = true ∧ s.hub.rad.mode = 1 ∧
    s.hub.rad.cmd = none ∧ s.hub.rad.cal = none ∧ s.hub.rad.path.contains 3 = false ∧ 11 ≤ fieldOf w 21 5 ∧
    fieldOf w 21 5 ≤ 26 :=
  ⟨wRad 1 [] id id, w32 (2 * 2 ^ 28 + 15 * 2 ^ 21), by decide⟩

theorem witness_RadioCommands_6 : ∃ (s : State) (w : Word),
    s.hub.answers s.fixed s.met .rad 0x1E000C = true ∧ s.hub.radUp s.fixed = true ∧ s.hub.rad.mode = 1 ∧
    s.hub.rad.cmd = none ∧ s.hub.rad.cal = none ∧ s.hub.rad.path.contains 3 = false ∧ 11 ≤ fieldOf w 21 5 ∧
    fieldOf w 21 5 ≤ 26 ∧ s.hub.rd fRadTxLenTxLen ≠ 0 ∧ (fieldOf w 26 1 = 1 ∨ s.hub.rd fRadTxLenTxLen ≤ 125) ∧
    s.hub.supWarned = false :=
  ⟨wRad 1 [] id (fun h => h.wr fRadTxLenTxLen 9), w32 (3 * 2 ^ 28 + 15 * 2 ^ 21), by decide⟩

theorem witness_RadioCommands_7 : ∃ (s : State) (w : Word),
    s.hub.answers s.fixed s.met .rad 0x1E000C = true ∧ s.hub.radUp s.fixed = true ∧ s.hub.rad.mode = 1 ∧
    s.hub.rad.cmd = none ∧ s.hub.rad.cal = none ∧ s.hub.rad.path.contains 3 = false ∧ 11 ≤ fieldOf w 21 5 ∧
    fieldOf w 21 5 ≤ 26 ∧ s.hub.rd fRadTxLenTxLen ≠ 0 ∧ (fieldOf w 26 1 = 1 ∨ s.hub.rd fRadTxLenTxLen ≤ 125) ∧
    s.hub.rad.held = none ∧ s.hub.supWarned = true :=
  ⟨wRad 1 [] id (fun h => (h.wr fClkSupNowWarn 1).wr fRadTxLenTxLen 9), w32 (3 * 2 ^ 28 + 15 * 2 ^ 21), by decide⟩

theorem witness_RadioCommands_8 : ∃ (s : State) (w : Word),
    s.hub.answers s.fixed s.met .rad 0x1E000C = true ∧ s.hub.radUp s.fixed = true ∧ s.hub.rad.mode = 1 ∧
    s.hub.rad.cmd = none ∧ s.hub.rad.cal = none ∧ s.hub.rad.path.contains 3 = false ∧ fieldOf w 12 4 ≤ 2 ∧
    (fieldOf w 12 4 ≠ 0 ∨ 11 ≤ fieldOf w 21 5 ∧ fieldOf w 21 5 ≤ 26) :=
  ⟨wRad 1 [] id id, w32 (4 * 2 ^ 28 + 15 * 2 ^ 21), by decide⟩

theorem witness_RadioCommands_9 : ∃ (s : State) (w : Word),
    s.hub.answers s.fixed s.met .rad 0x1E000C = true ∧ s.hub.radUp s.fixed = true ∧ s.hub.rad.mode = 1 ∧
    11 ≤ fieldOf w 21 5 ∧ fieldOf w 21 5 ≤ 26 ∧ s.hub.rad.cmd ≠ none ∧ s.hub.rad.held = none :=
  ⟨wRad 3 [] (fun r => { r with cmd := some (wCmd 4 0) }) id, w32 (2 * 2 ^ 28 + 15 * 2 ^ 21), by decide⟩

theorem witness_RadioCommands_10 : ∃ (s : State),
    s.hub.answers s.fixed s.met .rad 0x1E000C = true ∧
    (s.hub.rad.mode ≠ 1 ∨ s.hub.rad.cmd ≠ none ∧ s.hub.rad.held ≠ none) :=
  ⟨wRad 3 [] (fun r => { r with cmd := some (wCmd 4 0), held := some (wCmd 2 0) }) id, by decide⟩

theorem witness_RadioCommands_11 : ∃ (s : State) (w : Word),
    s.hub.answers s.fixed s.met .rad 0x1E000C = true ∧ (fieldOf w 21 5 < 11 ∨ 26 < fieldOf w 21 5) :=
  ⟨wRad 1 [] id id, w32 (3 * 2 ^ 28 + 27 * 2 ^ 21), by decide⟩

theorem witness_RadioCommands_12 : ∃ (s : State) (w : Word),
    s.hub.answers s.fixed s.met .rad 0x1E000C = true ∧
    (s.hub.rd fRadTxLenTxLen = 0 ∨ fieldOf w 26 1 = 0 ∧ 125 < s.hub.rd fRadTxLenTxLen) :=
  ⟨wRad 1 [] id id, w32 (3 * 2 ^ 28 + 15 * 2 ^ 21), by decide⟩

theorem witness_RadioCommands_13 : ∃ (s : State) (w : Word),
    s.hub.answers s.fixed s.met .rad 0x1E000C = true ∧ 2 < fieldOf w 12 4 :=
  ⟨wRad 1 [] id id, w32 (4 * 2 ^ 28 + 15 * 2 ^ 21 + 3 * 2 ^ 12), by decide⟩

theorem witness_RadioCommands_14 : ∃ (s : State),
    s.hub.answers s.fixed s.met .rad 0x1E000C = true ∧ s.hub.radUp s.fixed = true ∧ s.hub.rad.mode = 1 :=
  ⟨wRad 5 [] (fun r => { r with cmd := some (wCmd 3 0), held := some (wCmd 2 0) }) id, by decide⟩

theorem witness_RadioCommands_15 : ∃ (s : State) (st : Nat) (x : Nat) (rest : List Nat),
    s.hub.radUp s.fixed = true ∧ s.hub.xclkOn = true ∧ s.hub.rad.path = st :: x :: rest ∧ st < 16 :=
  ⟨wRad 0 [] (fun r => { r with path := [1, 3, 5], cmd := some (wCmd 3 0) }) id, 1, 3, [5], by decide⟩

theorem witness_RadioCommands_16 : ∃ (s : State) (c : RadCmd),
    s.hub.radUp s.fixed = true ∧ s.hub.xclkOn = true ∧ s.hub.rad.path = [4] ∧ s.hub.rad.cmd = some c ∧ c.op = 2 ∧
    c.tdma = false :=
  ⟨wRad 3 [] (fun r => { r with path := [4], cmd := some (wCmd 2 0) }) id, wCmd 2 0, by decide⟩

theorem witness_RadioCommands_17 : ∃ (s : State) (c : RadCmd),
    s.hub.radUp s.fixed = true ∧ s.hub.xclkOn = true ∧ s.hub.rad.path = [5] ∧ s.hub.rad.cmd = some c ∧ c.op = 3 ∧
    c.start = none :=
  ⟨wRad 3 [] (fun r => { r with path := [5], cmd := some { wCmd 3 0 with bytes := [1#8, 2#8] } }) id, { wCmd 3 0 with bytes := [1#8, 2#8] }, by decide⟩

theorem witness_RadioCommands_18 : ∃ (s : State),
    (s.hub.radUp s.fixed = false ∨ s.hub.xclkOn = false ∨ s.hub.rad.path = []) :=
  ⟨wRad 3 [] id id, by decide⟩

theorem witness_RadioCommands_19 : ∃ (s : State) (c : RadCmd),
    s.hub.radUp s.fixed = true ∧ s.hub.rad.cmd = some c ∧ s.hub.rad.held = none ∧ c.op = 3 ∧ s.hub.radState ≠ 5 ∧
    s.hub.rad.path.contains 3 = true :=
  ⟨wRad 2 [] (fun r => { r with path := [3, 5], cmd := some (wCmd 3 0) }) id, wCmd 3 0, by decide⟩

theorem witness_RadioCommands_20 : ∃ (s : State) (c : RadCmd),
    s.hub.radUp s.fixed = true ∧ s.hub.rad.cmd.all (fun x => x.op != 3) = true ∧ s.hub.rad.held = some c ∧ c.op = 3 ∧
    (s.hub.radState < 3 ∨ s.hub.rad.chan ≠ c.chan) :=
  ⟨wRad 2 [] (fun r => { r with cmd := some (wCmd 4 0), held := some (wCmd 3 0) }) id, wCmd 3 0, by decide⟩

theorem witness_RadioCommands_21 : ∃ (s : State) (c : RadCmd),
    s.hub.radUp s.fixed = true ∧ s.hub.radState = 5 ∧ s.hub.rad.cmd = some c ∧ s.hub.rad.held = none ∧ c.op = 3 :=
  ⟨wRad 5 [] (fun r => { r with cmd := some (wCmd 3 0) }) id, wCmd 3 0, by decide⟩

theorem witness_RadioCommands_22 : ∃ (s : State) (c : RadCmd),
    s.hub.radUp s.fixed = true ∧ s.hub.radState = 5 ∧ s.hub.rad.cmd = some c ∧ s.hub.rad.held = none ∧ c.op = 3 ∧
    c.node ≤ 48 :=
  ⟨wRad 5 [] (fun r => { r with cmd := some (wCmd 3 4) }) id, wCmd 3 4, by decide⟩

theorem witness_RadioCommands_23 : ∃ (s : State),
    s.hub.radState ≠ 5 :=
  ⟨wRad 3 [] (fun r => { r with cmd := some (wCmd 3 4) }) id, by decide⟩

theorem witness_RadioCommands_24 : ∃ (s : State) (c : RadCmd) (step : Fin 16),
    s.hub.radUp s.fixed = true ∧ s.hub.xclkOn = true ∧ s.hub.rad.cal = none ∧ s.hub.rad.path = [] ∧
    s.hub.rad.cmd = some c ∧ c.op = 4 ∧ c.step = step.val ∧ step.val ≤ 2 :=
  ⟨wRad 1 [] (fun r => { r with cmd := some (wCmd 4 0) }) id, wCmd 4 0, 0, by decide⟩

theorem witness_RadioCommands_25 : ∃ (s : State) (k : Nat) (i : Nat) (step : Fin 16),
    s.hub.radUp s.fixed = true ∧ s.hub.xclkOn = true ∧ s.hub.rad.cal = none ∧ s.hub.rad.cmd = none ∧
    s.hub.rad.mode = 1 ∧ s.hub.radState = 1 ∧ s.hub.is fRadCtlAutoCal = true ∧ s.hub.nextStep = some (k, i) ∧
    k = step.val ∧ step.val ≤ 2 :=
  ⟨wRad 1 [] (fun r => { r with synth := [(15, 200)] }) (fun h => h.on fRadCtlAutoCal), 0, 15, 0, by decide⟩

theorem witness_RadioCommands_26 : ∃ (s : State) (step : Fin 16),
    (s.hub.rad.cal ≠ none ∨ 2 < step.val ∨ s.hub.rad.cmd.any (fun c => c.op != 4) = true) :=
  ⟨wRad 1 [] id id, 5, by decide⟩

theorem witness_RadioCommands_27 : ∃ (s : State) (kind : Nat) (i : Nat),
    s.hub.radUp s.fixed = true ∧ s.hub.rad.cal = some (kind, i) ∧ s.hub.rad.held = none :=
  ⟨wRad 2 [] (fun r => { r with cal := some (0, 15) }) id, 0, 15, by decide⟩

theorem witness_RadioCommands_28 : ∃ (s : State),
    s.hub.radUp s.fixed = true ∧ s.hub.rad.cal = none :=
  ⟨wRad 2 [] id id, by decide⟩

theorem witness_RadioCommands_29 : ∃ (s : State),
    s.hub.radUp s.fixed = true ∧ s.hub.radState ≠ 0 ∧ s.hub.radState < 4 :=
  ⟨wRad 3 [] id id, by decide⟩

theorem witness_RadioCommands_30 : ∃ (s : State),
    (s.hub.radState = 0 ∨ 4 ≤ s.hub.radState) :=
  ⟨wRad 5 [] id id, by decide⟩

theorem witness_RadioCommands_31 : ∃ (s : State) (c : RadCmd),
    s.hub.radUp s.fixed = true ∧ s.hub.rad.cmd = some c ∧ s.hub.flt.recs = [] :=
  ⟨wRad 5 [] (fun r => { r with cmd := some (wCmd 3 0) }) id, wCmd 3 0, by decide⟩

theorem witness_RadioCommands_32 : ∃ (s : State),
    s.hub.rad.cmd = none :=
  ⟨wRad 5 [] id id, by decide⟩

theorem witness_RadioSlots_1 : ∃ (s : State),
    s.hub.radUp s.fixed = true ∧ s.hub.rad.sfOn = true ∧ s.hub.rad.slot < s.hub.slotCount ∧
    s.hub.slotKind s.hub.rad.slot = 0 ∧ s.hub.rad.cmd = none ∧ s.hub.rad.cal = none ∧ s.hub.supWarned = false ∧
    3 ≤ s.hub.radState ∧ s.hub.lockNeedsCal (s.hub.slotChan s.hub.rad.slot) = false :=
  ⟨wRad 3 [(cellKey 12 0 0x10, 15#32)] (fun r => { r with mode := 2, sfOn := true, synth := [(15, 129)] }) id, by decide⟩

theorem witness_RadioSlots_2 : ∃ (s : State),
    s.hub.radUp s.fixed = true ∧ s.hub.rad.sfOn = true ∧ s.hub.rad.slot < s.hub.slotCount ∧
    s.hub.slotKind s.hub.rad.slot = 1 ∧ s.hub.nodeState (s.hub.slotNode s.hub.rad.slot) = 1 ∧ s.hub.rad.cmd = none ∧
    s.hub.rad.cal = none ∧ s.hub.slotLocked (s.hub.slotChan s.hub.rad.slot) = true :=
  ⟨wRad 3 [(cellKey 12 0 0x21, w32 (1 + 4 * 2 + 15 * 256))] (fun r => { r with mode := 2, sfOn := true, chan := 15 }) (fun h => h.wr (fRadNStState 1) 1), by decide⟩

theorem witness_RadioSlots_3 : ∃ (s : State),
    s.hub.radUp s.fixed = true ∧ s.hub.rad.sfOn = true ∧ s.hub.rad.slot < s.hub.slotCount ∧
    (s.hub.slotKind s.hub.rad.slot = 1 ∨ s.hub.slotKind s.hub.rad.slot = 2) ∧
    s.hub.nodeState (s.hub.slotNode s.hub.rad.slot) ≠ 1 :=
  ⟨wRad 3 [(cellKey 12 0 0x21, w32 (1 + 4 * 2 + 15 * 256))] (fun r => { r with mode := 2, sfOn := true, chan := 15 }) id, by decide⟩

theorem witness_RadioSlots_4 : ∃ (s : State),
    s.hub.radUp s.fixed = true ∧ s.hub.rad.sfOn = true ∧ s.hub.rad.slot < s.hub.slotCount ∧
    s.hub.slotKind s.hub.rad.slot = 3 ∧ s.hub.rad.cmd = none ∧ s.hub.rad.cal = none ∧
    s.hub.slotLocked (s.hub.slotChan s.hub.rad.slot) = true :=
  ⟨wRad 3 [(cellKey 12 0 0x21, w32 (3 + 15 * 256))] (fun r => { r with mode := 2, sfOn := true, chan := 15 }) id, by decide⟩

theorem witness_RadioSlots_5 : ∃ (s : State),
    (s.hub.rad.sfOn = false ∨ s.hub.slotCount ≤ s.hub.rad.slot) :=
  ⟨wRad 3 [] id id, by decide⟩

theorem witness_RadioSlots_6 : ∃ (s : State),
    s.hub.radUp s.fixed = true ∧ s.hub.rad.sfOn = true ∧ s.hub.rad.slot < s.hub.slotCount ∧
    s.hub.slotKind s.hub.rad.slot = 2 ∧ s.hub.nodeState (s.hub.slotNode s.hub.rad.slot) = 1 ∧
    (s.hub.node (s.hub.slotNode s.hub.rad.slot)).want = true ∧ s.hub.rad.cmd = none ∧ s.hub.rad.cal = none ∧
    s.hub.supWarned = false ∧ 3 ≤ s.hub.radState ∧ s.hub.lockNeedsCal (s.hub.slotChan s.hub.rad.slot) = false :=
  ⟨wRad 3 [(cellKey 12 0 0x21, w32 (2 + 4 * 2 + 15 * 256))] (fun r => { r with mode := 2, sfOn := true, synth := [(15, 129)], node := [(2, { (default : RadNode) with want := true })] }) (fun h => h.wr (fRadNStState 1) 1), by decide⟩

theorem witness_RadioSlots_7 : ∃ (s : State),
    s.hub.radUp s.fixed = true ∧ s.hub.rad.rx ≠ 0 ∧ s.hub.rad.rx ≠ 50 :=
  ⟨wRad 4 [] (fun r => { r with rx := 2 }) id, by decide⟩

theorem witness_RadioSlots_8 : ∃ (s : State),
    (s.hub.rad.rx = 0 ∨ s.hub.rad.rx = 50) :=
  ⟨wRad 4 [] (fun r => { r with rx := 50 }) id, by decide⟩

theorem witness_RadioSlots_9 : ∃ (s : State),
    s.hub.radUp s.fixed = true ∧ s.hub.rad.sfOn = true ∧ s.hub.rad.cmd = none ∧ 1 ≤ s.hub.rad.rx ∧ s.hub.rad.rx ≤ 48 ∧
    s.hub.rad.slot ≠ 0 ∧ s.hub.rad.slot < s.hub.slotCount :=
  ⟨wRad 4 [(cellKey 12 0 1, 5#32)] (fun r => { r with rx := 2, sfOn := true, slot := 1 }) id, by decide⟩

theorem witness_RadioSlots_10 : ∃ (s : State) (c : RadCmd),
    s.hub.radUp s.fixed = true ∧ s.hub.rad.sfOn = true ∧ s.hub.rad.slot ≠ 0 ∧ s.hub.rad.slot < s.hub.slotCount ∧
    s.hub.rad.cmd = some c ∧ c.op = 3 ∧ c.tdma = true ∧ s.hub.rad.held = none ∧ s.hub.rad.rx = 0 :=
  ⟨wRad 5 [(cellKey 12 0 1, 5#32)] (fun r => { r with mode := 2, sfOn := true, slot := 1, cmd := some { wCmd 3 0 with tdma := true } }) id, { wCmd 3 0 with tdma := true }, by decide⟩

theorem witness_RadioSlots_11 : ∃ (s : State),
    s.hub.radUp s.fixed = true ∧ s.hub.rad.sfOn = true ∧ s.hub.rad.slot ≠ 0 ∧ s.hub.slotCount ≤ s.hub.rad.slot ∧
    s.hub.rad.cmd = none :=
  ⟨wRad 4 [] (fun r => { r with rx := 2, sfOn := true, slot := 1 }) id, by decide⟩

theorem witness_RadioSlots_12 : ∃ (s : State),
    (s.hub.rad.sfOn = false ∨ s.hub.rad.slot = 0) :=
  ⟨wRad 4 [] id id, by decide⟩

theorem witness_RadioSlots_13 : ∃ (s : State),
    s.hub.radUp s.fixed = true ∧ s.hub.radState = 4 ∧ s.hub.rad.rx = 50 ∧ s.hub.rad.held = none ∧
    s.hub.is fRadStatusRxDone = false :=
  ⟨wRad 4 [] (fun r => { r with rx := 50 }) id, by decide⟩

theorem witness_RadioSlots_14 : ∃ (s : State),
    s.hub.radUp s.fixed = true ∧ s.hub.radState = 4 ∧ s.hub.rad.rx = 50 ∧ s.hub.rad.held = none ∧
    s.hub.is fRadStatusRxDone = true :=
  ⟨wRad 4 [] (fun r => { r with rx := 50 }) (fun h => h.on fRadStatusRxDone), by decide⟩

theorem witness_RadioSlots_15 : ∃ (s : State) (f : RadFrame) (n : Fin 48),
    s.hub.radUp s.fixed = true ∧ s.hub.radState = 4 ∧ s.hub.rad.rx = n.val + 1 ∧ f.fcsOk = true ∧
    isDataOf (n.val + 1) s.hub.rad.phy f.bytes = true ∧ (s.hub.node (n.val + 1)).heard = false :=
  ⟨wRad 4 [] (fun r => { r with rx := 2, mode := 2 }) id, wRx ([2#8, 2#8, 7#8, 0#8, 1#8, 1#8, 0#8, 0#8] ++ List.replicate 11 0#8) true, 1, by decide⟩

theorem witness_RadioSlots_16 : ∃ (s : State) (f : RadFrame) (n : Fin 48),
    s.hub.radUp s.fixed = true ∧ s.hub.radState = 4 ∧ s.hub.rad.rx = n.val + 1 ∧ f.fcsOk = true ∧
    isDataOf (n.val + 1) s.hub.rad.phy f.bytes = true ∧ (s.hub.node (n.val + 1)).heard = true ∧
    octetsAt f.bytes 2 1 = s.hub.rd (fRadNStSeq n) :=
  ⟨wRad 4 [] (fun r => { r with rx := 2, mode := 2, node := [(2, { (default : RadNode) with heard := true })] }) (fun h => h.wr (fRadNStSeq 1) 7), wRx ([2#8, 2#8, 7#8, 0#8, 1#8, 1#8, 0#8, 0#8] ++ List.replicate 11 0#8) true, 1, by decide⟩

theorem witness_RadioSlots_17 : ∃ (s : State) (f : RadFrame) (n : Fin 48),
    s.hub.radUp s.fixed = true ∧ s.hub.radState = 4 ∧ s.hub.rad.rx = n.val + 1 ∧ f.fcsOk = true ∧
    isDataOf (n.val + 1) s.hub.rad.phy f.bytes = false :=
  ⟨wRad 4 [] (fun r => { r with rx := 2, mode := 2 }) id, wRx [3#8] true, 1, by decide⟩

theorem witness_RadioSlots_18 : ∃ (s : State),
    s.hub.radState ≠ 4 :=
  ⟨wRad 3 [] id id, by decide⟩

theorem witness_RadioSlots_19 : ∃ (s : State) (f : RadFrame) (n : Fin 48),
    s.hub.radUp s.fixed = true ∧ s.hub.radState = 4 ∧ s.hub.rad.rx = n.val + 1 ∧ f.fcsOk = false :=
  ⟨wRad 4 [] (fun r => { r with rx := 2, mode := 2 }) id, wRx [2#8, 2#8, 7#8] false, 1, by decide⟩

theorem witness_RadioSlots_20 : ∃ (s : State) (f : RadFrame) (n : Nat),
    s.hub.radUp s.fixed = true ∧ s.hub.radState = 4 ∧ s.hub.rad.rx = 49 ∧ f.fcsOk = true ∧ octetsAt f.bytes 0 1 = 4 ∧
    (List.range 49).find? (fun n => decide (0 < n) && w32 (octetsAt f.bytes 1 4) != 0#32 && s.hub.cell 12 n 0 == w32 (octetsAt f.bytes 1 4)) = some n ∧
    s.hub.rad.answer = none :=
  ⟨wRad 4 [(cellKey 12 2 0, 7#32)] (fun r => { r with rx := 49, mode := 2 }) id, wRx [4#8, 0#8, 0#8, 0#8, 7#8] true, 2, by decide⟩

theorem witness_RadioSlots_21 : ∃ (s : State) (f : RadFrame),
    s.hub.radUp s.fixed = true ∧ s.hub.radState = 4 ∧ s.hub.rad.rx = 49 ∧ f.fcsOk = true ∧ octetsAt f.bytes 0 1 = 4 ∧
    (List.range 49).find? (fun n => decide (0 < n) && w32 (octetsAt f.bytes 1 4) != 0#32 && s.hub.cell 12 n 0 == w32 (octetsAt f.bytes 1 4)) = none :=
  ⟨wRad 4 [(cellKey 12 2 0, 7#32)] (fun r => { r with rx := 49, mode := 2 }) id, wRx [4#8, 0#8, 0#8, 0#8, 9#8] true, by decide⟩

theorem witness_RadioSlots_22 : ∃ (s : State) (n : Fin 48),
    s.hub.radUp s.fixed = true ∧ s.hub.radUp s.fixed = true ∧ s.hub.nodeState (n.val + 1) = 1 ∧
    s.hub.cf 12 (n.val + 1) 1 0 8 ≤ (s.hub.node (n.val + 1)).miss :=
  ⟨wRad 4 [] id (fun h => h.wr (fRadNStState 1) 1), 1, by decide⟩

theorem witness_RadioSlots_23 : ∃ (s : State) (n : Fin 48),
    (s.hub.nodeState (n.val + 1) ≠ 1 ∨ (s.hub.node (n.val + 1)).miss < s.hub.cf 12 (n.val + 1) 1 0 8) :=
  ⟨wRad 4 [] id id, 1, by decide⟩

theorem witness_RadioSlots_24 : ∃ (s : State) (n : Fin 48) (i : Nat) (x : NodeSamp),
    firstDue (s.hub.node (n.val + 1)).buf = some i ∧ (s.hub.node (n.val + 1)).buf[i]? = some x ∧
    x.due * 2 ^ 32 ≤ s.hub.tbVal s.hub.radTb :=
  ⟨wRad 4 [] (fun r => { r with node := [(2, { (default : RadNode) with buf := [default] })] }) id, 1, 0, default, by decide⟩

theorem witness_RadioSlots_25 : ∃ (s : State) (n : Fin 48),
    (s.hub.node (n.val + 1)).buf = [] :=
  ⟨wRad 4 [] id id, 1, by decide⟩

theorem witness_RadioSlots_26 : ∃ (s : State) (n : Fin 48),
    s.hub.answers s.fixed s.met .rad (0x1E108C + 0x80 * n) = true ∧ s.hub.radUp s.fixed = true :=
  ⟨wRad 4 [] id id, 1, by decide⟩

theorem witness_Measurement_1 : ∃ (s : State) (ch : Fin 8),
    s.fixed.variant.hasMet = true ∧ s.met.chOn ch = true ∧ s.hub.clk.gates = true ∧ s.hub.recovering 7 0 = false ∧
    s.hub.metFifo.length < 16 :=
  ⟨wMet [] [(cellKey 15 2 0, 1#32)] id id, 2, by decide⟩

theorem witness_Measurement_2 : ∃ (s : State) (ch : Fin 8),
    s.fixed.variant.hasMet = true ∧ s.met.chOn ch = true ∧
    (16 ≤ s.hub.metFifo.length ∨ s.hub.recovering 7 0 = true ∨ s.hub.clk.gates = false) :=
  ⟨wMet [] [(cellKey 15 2 0, 1#32)] id (fun h => { h with metFifo := List.replicate 16 default }), 2, by decide⟩

theorem witness_Measurement_3 : ∃ (s : State) (ch : Fin 8),
    (s.fixed.variant.hasMet = false ∨ s.met.chOn ch = false) :=
  ⟨wMet [] [] id id, 2, by decide⟩

theorem witness_Measurement_4 : ∃ (s : State) (ch : Fin 8) (w : MetWord) (rest : List MetWord),
    s.hub.metFifo = w :: rest ∧ w.ch = ch.val ∧ w.cyc + 118 ≤ s.hub.cyc :=
  ⟨wMet [] [] id (fun h => { h with cyc := 200, metFifo := [{ ch := 2, cyc := 7, diff := 0, samp := default }] }), 2, { ch := 2, cyc := 7, diff := 0, samp := default }, [], by decide⟩

theorem witness_Measurement_5 : ∃ (s : State) (ch : Fin 8) (w : MetWord) (rest : List MetWord),
    s.hub.metFifo = w :: rest ∧ w.ch = ch.val ∧ (∀ u ∈ s.hub.usedUnits 5, ¬(32 ≤ u ∧ s.hub.cf 5 u 0 1 3 = 4)) :=
  ⟨wMet [] [] id (fun h => { h with cyc := 10, metFifo := [{ ch := 2, cyc := 7, diff := 0, samp := default }] }), 2, { ch := 2, cyc := 7, diff := 0, samp := default }, [], by decide⟩

theorem witness_Measurement_6 : ∃ (s : State) (ch : Fin 8),
    (s.hub.metFifo.head?).map (fun w => w.ch) ≠ some ch.val :=
  ⟨wMet [] [] id id, 2, by decide⟩

theorem witness_Measurement_7 : ∃ (s : State) (c : Fin 8),
    s.fixed.variant.hasMet = true ∧ s.met.stopped = false ∧ s.met.phase = 0 ∧ s.met.warn = 0 ∧
    s.met.rotFrom s.met.nextCh = some c.val :=
  ⟨wMet [] [(cellKey 15 2 0, 1#32)] id id, 2, by decide⟩

theorem witness_Measurement_8 : ∃ (s : State),
    (s.fixed.variant.hasMet = false ∨ s.met.stopped = true ∨ s.met.phase ≠ 0 ∨ s.met.warn ≠ 0 ∨ s.met.rotFrom s.met.nextCh = none) :=
  ⟨wMet [] [] id id, by decide⟩

theorem witness_Measurement_9 : ∃ (s : State),
    s.met.phase = 1 :=
  ⟨wMet [] [] (fun m => { m with phase := 1 }) id, by decide⟩

theorem witness_Measurement_10 : ∃ (s : State),
    s.met.phase ≠ 1 :=
  ⟨wMet [] [] id id, by decide⟩

theorem witness_Measurement_11 : ∃ (s : State) (pairs : List (BitVec 24 × BitVec 24)),
    s.met.phase = 2 ∧ (seamOf pairs).1.natAbs ≤ s.met.cf (s.met.rd fMetRotChan) 2 0 16 ∧
    (seamOf pairs).2.all (fun g => decide (g.natAbs ≤ s.met.cf (s.met.rd fMetRotChan) 2 16 11)) = true :=
  ⟨wMet [] [] (fun m => { m with phase := 2 }) id, [(5#24, 6#24)], by decide⟩

theorem witness_Measurement_12 : ∃ (s : State) (pairs : List (BitVec 24 × BitVec 24)),
    s.met.phase = 2 ∧
    (s.met.cf (s.met.rd fMetRotChan) 2 0 16 < (seamOf pairs).1.natAbs ∨ (seamOf pairs).2.any (fun g => decide (s.met.cf (s.met.rd fMetRotChan) 2 16 11 < g.natAbs)) = true) ∧
    (NMap.get s.met.ch (s.met.rd fMetRotChan)).refused = 0 :=
  ⟨wMet [] [] (fun m => { m with phase := 2 }) id, [(5#24, 600#24)], by decide⟩

theorem witness_Measurement_13 : ∃ (s : State) (pairs : List (BitVec 24 × BitVec 24)),
    s.met.phase = 2 ∧
    (s.met.cf (s.met.rd fMetRotChan) 2 0 16 < (seamOf pairs).1.natAbs ∨ (seamOf pairs).2.any (fun g => decide (s.met.cf (s.met.rd fMetRotChan) 2 16 11 < g.natAbs)) = true) ∧
    (NMap.get s.met.ch (s.met.rd fMetRotChan)).refused ≠ 0 :=
  ⟨wMet [] [] (fun m => { m with phase := 2, ch := [(0, { (default : MetCh) with refused := 1 })] }) id, [(5#24, 600#24)], by decide⟩

theorem witness_Measurement_14 : ∃ (s : State),
    s.met.phase ≠ 2 :=
  ⟨wMet [] [] id id, by decide⟩

theorem witness_Measurement_15 : ∃ (s : State) (ch : Fin 8),
    s.met.sevOn ch = true :=
  ⟨wMet [] [(cellKey 15 2 0, 0x11#32)] id id, 2, by decide⟩

theorem witness_Measurement_16 : ∃ (s : State) (ch : Fin 8),
    s.met.sevOn ch = false :=
  ⟨wMet [] [] id id, 2, by decide⟩

theorem witness_Measurement_17 : ∃ (s : State),
    s.met.measures = true :=
  ⟨wMet [] [] id id, by decide⟩

theorem witness_Measurement_18 : ∃ (s : State),
    s.met.measures = true ∧ s.met.lost = 0 ∧ 8 < s.met.slots :=
  ⟨wMet [] [] id id, by decide⟩

theorem witness_Measurement_19 : ∃ (s : State),
    s.met.measures = false :=
  ⟨State.reset, by decide⟩

theorem witness_PartitionTime_1 : ∃ (s : State),
    s.fixed.variant.hasMet = true ∧ s.met.up = true ∧ s.met.outcome ≠ 0 ∧ s.met.cf 9 0 11 1 = 1 ∧
    s.met.netStep = true ∧ s.hub.metFollows = true :=
  ⟨wMet [] [(cellKey 15 9 0, 0x80A#32)] (fun m => { m with netStep := true }) (fun h => { h with metFollows := true, tbMet := 2 ^ 60 }), by decide⟩

theorem witness_PartitionTime_2 : ∃ (s : State),
    (s.fixed.variant.hasMet = false ∨ s.met.up = false ∨ s.met.outcome = 0 ∨ s.met.cf 9 0 11 1 ≠ 1 ∨ s.met.netStep = false ∨ s.hub.metFollows = false) :=
  ⟨wMet [] [] id id, by decide⟩

theorem witness_PartitionTime_3 : ∃ (s : State),
    s.fixed.variant.hasMet = true ∧ s.met.up = true ∧ s.hub.metFollows = true :=
  ⟨wMet [] [] id (fun h => { h with metFollows := true }), by decide⟩

theorem witness_PartitionTime_4 : ∃ (s : State),
    (s.fixed.variant.hasMet = false ∨ s.met.up = false ∨ s.hub.metFollows = false) :=
  ⟨wMet [] [] id id, by decide⟩

theorem witness_PartitionTime_5 : ∃ (s : State),
    s.fixed.variant.hasMet = true ∧ s.met.up = true ∧ s.hub.metFollows = false ∧ s.hub.is fClkStatusTimeLock = true :=
  ⟨wMet [] [] (fun m => { m with val := 77 }) (fun h => h.on fClkStatusTimeLock), by decide⟩

theorem witness_PartitionTime_6 : ∃ (s : State),
    (s.fixed.variant.hasMet = false ∨ s.met.up = false ∨ s.hub.metFollows = true ∨ s.hub.is fClkStatusTimeLock = false) :=
  ⟨wMet [] [] id id, by decide⟩

theorem witness_PartitionTime_7 : ∃ (s : State),
    s.fixed.variant.hasMet = true ∧ s.met.measures = true ∧ s.met.cf 9 0 10 1 = 1 :=
  ⟨wMet [] [(cellKey 15 9 0, 0x40A#32)] id id, by decide⟩

theorem witness_PartitionTime_8 : ∃ (s : State),
    (s.fixed.variant.hasMet = false ∨ s.met.measures = false ∨ s.met.cf 9 0 10 1 ≠ 1) :=
  ⟨wMet [] [] id id, by decide⟩

theorem witness_PartitionTime_9 : ∃ (s : State),
    s.fixed.variant.hasMet = true :=
  ⟨State.reset, by decide⟩

theorem witness_PartitionTime_10 : ∃ (s : State),
    s.fixed.variant.hasMet = true ∧
    s.met.clear.chains (NMap.get s.met.log (s.met.rd fMetLidNextNext % 8128)) = false ∧ s.met.seams = [] :=
  ⟨State.reset, by decide⟩

theorem witness_PartitionTime_11 : ∃ (s : State),
    s.fixed.variant.hasMet = false :=
  ⟨{ State.reset with fixed := { State.reset.fixed with variant := .dx192u } }, by decide⟩

theorem witness_PartitionTime_12 : ∃ (s : State),
    s.fixed.variant.hasMet = true :=
  ⟨State.reset, by decide⟩

theorem witness_Mailbox_1 : ∃ (s : State),
    s.hub.answers s.fixed s.met .met 0x800000 = true ∧ s.met.is fMetMbCmdBusy = false ∧
    (s.met.rd fMetLidState = 1 ∨ s.met.rd fMetLidState = 2) ∧ s.met.is fMetLidUsed = false ∧ (s.met.arg 0).toNat ≤ 1 ∧
    (s.met.arg 0 = 0#32 → (s.met.arg 3).toNat < 1000000000) :=
  ⟨wMet [(rMetMbArg 2, 99#32)] [] id id, by decide⟩

theorem witness_Mailbox_2 : ∃ (s : State),
    s.hub.answers s.fixed s.met .met 0x800000 = true ∧ s.met.is fMetMbCmdBusy = false ∧
    (s.met.rd fMetLidState = 1 ∨ s.met.rd fMetLidState = 2) ∧ s.met.is fMetLidUsed = true ∧ (s.met.arg 0).toNat ≤ 1 ∧
    (s.met.arg 0 = 0#32 → (s.met.arg 3).toNat < 1000000000) :=
  ⟨wMet [(rMetLid, 0x24000000#32)] [] id id, by decide⟩

theorem witness_Mailbox_3 : ∃ (s : State) (c : Instr) (mlid : Bool),
    s.hub.answers s.fixed s.met .met 0x800000 = true ∧ s.met.is fMetMbCmdBusy = true ∧
    c ∈ [.mbSetTime, .mbSeal mlid, .mbUnseal mlid, .mbRetire mlid, .mbDiscard, .mbArchive, .mbLogSeek, .mbCalibrate, .mbUnknownOp] :=
  ⟨wMet [(rMetMbCmd, 0x40000000#32)] [] id id, .mbDiscard, true, by decide⟩

theorem witness_Mailbox_4 : ∃ (s : State) (c : Instr) (mlid : Bool),
    s.hub.answers s.fixed s.met .met 0x800000 = true ∧ s.met.is fMetMbCmdBusy = false ∧
    ((c ∈ [.mbSetTime, .mbRetire mlid, .mbArchive] ∧ s.met.rd fMetLidState ≠ 1 ∧ s.met.rd fMetLidState ≠ 2) ∨ (c ∈ [.mbSeal mlid, .mbDiscard, .mbCalibrate] ∧ s.met.rd fMetLidState ≠ 1) ∨ (c = .mbUnseal mlid ∧ s.met.rd fMetLidState ≠ 2)) :=
  ⟨wMet [] [] id id, .mbUnseal true, true, by decide⟩

theorem witness_Mailbox_5 : ∃ (s : State) (c : Instr) (mlid : Bool),
    s.hub.answers s.fixed s.met .met 0x800000 = true ∧ s.met.is fMetMbCmdBusy = false ∧ mlid = false ∧
    ((c = .mbSeal mlid ∧ s.met.rd fMetLidState = 1 ∧ s.met.arg 0 = 0x5345414C#32) ∨ (c = .mbUnseal mlid ∧ s.met.rd fMetLidState = 2) ∨ (c = .mbRetire mlid ∧ (s.met.rd fMetLidState = 1 ∨ s.met.rd fMetLidState = 2))) :=
  ⟨wMet [] [] id id, .mbRetire false, false, by decide⟩

theorem witness_Mailbox_6 : ∃ (s : State) (c : Instr) (mlid : Bool),
    s.hub.answers s.fixed s.met .met 0x800000 = true ∧ s.met.is fMetMbCmdBusy = false ∧ mlid = true ∧
    s.met.slots < 8 ∧
    ((c = .mbSeal mlid ∧ s.met.rd fMetLidState = 1 ∧ s.met.arg 0 = 0x5345414C#32 ∧ s.met.outcome = 1) ∨ (c = .mbUnseal mlid ∧ s.met.rd fMetLidState = 2) ∨ (c = .mbRetire mlid ∧ (s.met.rd fMetLidState = 1 ∨ s.met.rd fMetLidState = 2))) :=
  ⟨wMet [(rMetLidNext, 8124#32)] [] id id, .mbRetire true, true, by decide⟩

theorem witness_Mailbox_7 : ∃ (s : State) (c : Instr) (mlid : Bool),
    s.hub.answers s.fixed s.met .met 0x800000 = true ∧ s.met.is fMetMbCmdBusy = false ∧ mlid = true ∧
    s.met.auditMax = true ∧ 8 ≤ s.met.slots ∧
    ((c = .mbSeal mlid ∧ s.met.rd fMetLidState = 1 ∧ s.met.arg 0 = 0x5345414C#32 ∧ s.met.outcome = 1) ∨ (c = .mbUnseal mlid ∧ s.met.rd fMetLidState = 2) ∨ (c = .mbRetire mlid ∧ (s.met.rd fMetLidState = 1 ∨ s.met.rd fMetLidState = 2)) ∨ (c = .mbDiscard ∧ s.met.rd fMetLidState = 1 ∧ s.met.outcome ≠ 0)) :=
  ⟨wMet [(rMetLidAudit, 0xFFFFFF#32)] [] id id, .mbDiscard, true, by decide⟩

theorem witness_Mailbox_8 : ∃ (s : State) (c : Instr) (mlid : Bool),
    s.hub.answers s.fixed s.met .met 0x800000 = true ∧ s.met.is fMetMbCmdBusy = false ∧
    ((c = .mbSetTime ∧ (s.met.rd fMetLidState = 1 ∨ s.met.rd fMetLidState = 2) ∧ (1 < (s.met.arg 0).toNat ∨ (s.met.arg 0 = 0#32 ∧ 1000000000 ≤ (s.met.arg 3).toNat))) ∨ (c = .mbSeal mlid ∧ s.met.rd fMetLidState = 1 ∧ s.met.arg 0 ≠ 0x5345414C#32) ∨ (c = .mbArchive ∧ (s.met.rd fMetLidState = 1 ∨ s.met.rd fMetLidState = 2) ∧ ((s.met.arg 0).toNat < s.met.rd fMetLidFirstFirst ∨ s.met.rd fMetLidNextNext ≤ (s.met.arg 0).toNat)) ∨ (c = .mbLogSeek ∧ s.met.recordOf (s.met.arg 0).toNat = none) ∨ (c = .mbCalibrate ∧ s.met.rd fMetLidState = 1 ∧ s.met.outcome ≠ 0 ∧ (8 ≤ (s.met.arg 0).toNat ∨ s.met.chOn (s.met.arg 0).toNat = false ∨ s.met.arg 1 = 0#32 ∨ 600 < (s.met.arg 1).toNat))) :=
  ⟨wMet [] [] id id, .mbLogSeek, true, by decide⟩

theorem witness_Mailbox_9 : ∃ (s : State) (c : Instr) (mlid : Bool),
    s.hub.answers s.fixed s.met .met 0x800000 = true ∧ s.met.is fMetMbCmdBusy = false ∧
    ((c = .mbSeal mlid ∧ mlid = true ∧ s.met.rd fMetLidState = 1 ∧ s.met.arg 0 = 0x5345414C#32 ∧ s.met.outcome ≠ 1) ∨ (c ∈ [.mbDiscard, .mbCalibrate] ∧ s.met.rd fMetLidState = 1 ∧ s.met.outcome = 0)) :=
  ⟨wMet [] [] (fun m => { m with outcome := 0 }) id, .mbDiscard, true, by decide⟩

theorem witness_Mailbox_10 : ∃ (s : State) (c : Instr),
    s.hub.answers s.fixed s.met .met 0x800000 = true ∧ s.met.is fMetMbCmdBusy = false ∧ c = .mbArchive ∧
    (s.met.rd fMetLidState = 1 ∨ s.met.rd fMetLidState = 2) ∧ s.met.rd fMetLidFirstFirst ≤ (s.met.arg 0).toNat ∧
    (s.met.arg 0).toNat < s.met.rd fMetLidNextNext ∧
    s.met.argDigest ≠ sha256 ((s.met.recordOf (s.met.arg 0).toNat).getD []) :=
  ⟨wMet [(rMetLidNext, 3#32)] [] id id, .mbArchive, by decide +kernel⟩

theorem witness_Mailbox_11 : ∃ (s : State) (c : Instr) (mlid : Bool),
    s.hub.answers s.fixed s.met .met 0x800000 = false ∧
    c ∈ [.mbSetTime, .mbSeal mlid, .mbUnseal mlid, .mbRetire mlid, .mbDiscard, .mbArchive, .mbLogSeek, .mbCalibrate, .mbUnknownOp] :=
  ⟨State.reset, .mbDiscard, true, by decide⟩

theorem witness_Mailbox_12 : ∃ (s : State),
    s.hub.answers s.fixed s.met .met 0x800000 = true ∧ s.met.is fMetMbCmdBusy = false ∧ s.met.rd fMetLidState = 1 ∧
    s.met.arg 0 = 0x5345414C#32 ∧ s.met.outcome = 1 ∧ 8 ≤ s.met.slots ∧ s.met.auditMax = false ∧
    s.met.argDigest = s.met.rd8 (rMetLidHeld 0) :=
  ⟨wMet [(rMetMbArg 0, 0x5345414C#32), (rMetMbArg 2, 9#32), (rMetLidHeld 1, 9#32)] [] id id, by decide⟩

theorem witness_Mailbox_13 : ∃ (s : State),
    s.hub.answers s.fixed s.met .met 0x800000 = true ∧ s.met.is fMetMbCmdBusy = false ∧ s.met.rd fMetLidState = 1 ∧
    s.met.arg 0 = 0x5345414C#32 ∧ s.met.outcome = 1 ∧ 8 ≤ s.met.slots ∧ s.met.auditMax = false ∧
    s.met.argDigest ≠ s.met.rd8 (rMetLidHeld 0) :=
  ⟨wMet [(rMetMbArg 0, 0x5345414C#32), (rMetMbArg 2, 8#32), (rMetLidHeld 1, 9#32)] [] id id, by decide⟩

theorem witness_Mailbox_14 : ∃ (s : State),
    s.hub.answers s.fixed s.met .met 0x800000 = true ∧ s.met.is fMetMbCmdBusy = false ∧ s.met.rd fMetLidState = 2 ∧
    8 ≤ s.met.slots ∧ s.met.auditMax = false :=
  ⟨wMet [(rMetLid, 0x40000000#32)] [] id id, by decide⟩

theorem witness_Mailbox_15 : ∃ (s : State),
    s.hub.answers s.fixed s.met .met 0x800000 = true ∧ s.met.is fMetMbCmdBusy = false ∧
    (s.met.rd fMetLidState = 1 ∨ s.met.rd fMetLidState = 2) ∧ 8 ≤ s.met.slots ∧ s.met.auditMax = false :=
  ⟨wMet [] [] id id, by decide⟩

theorem witness_Mailbox_16 : ∃ (s : State),
    s.hub.answers s.fixed s.met .met 0x800000 = true ∧ s.met.is fMetMbCmdBusy = false ∧ s.met.rd fMetLidState = 1 ∧
    s.met.outcome ≠ 0 ∧ s.met.auditMax = false :=
  ⟨wMet [] [(cellKey 15 2 0, 1#32)] id id, by decide⟩

theorem witness_Mailbox_17 : ∃ (s : State),
    s.hub.answers s.fixed s.met .met 0x800000 = true ∧ s.met.is fMetMbCmdBusy = false ∧
    (s.met.rd fMetLidState = 1 ∨ s.met.rd fMetLidState = 2) ∧ s.met.rd fMetLidFirstFirst ≤ (s.met.arg 0).toNat ∧
    (s.met.arg 0).toNat < s.met.rd fMetLidNextNext ∧
    s.met.argDigest = sha256 ((s.met.recordOf (s.met.arg 0).toNat).getD []) :=
  ⟨wMet [(rMetLidNext, 3#32), (rMetMbArg 0, 1#32), (rMetMbArg 1, 0x42C4B0E3#32), (rMetMbArg 2, 0x141CFC98#32), (rMetMbArg 3, 0xC8F4FB9A#32), (rMetMbArg 4, 0x24B96F99#32), (rMetMbArg 5, 0xE441AE27#32), (rMetMbArg 6, 0x4C939B64#32), (rMetMbArg 7, 0x1B9995A4#32), (rMetMbArg 8, 0x55B85278#32)] [] id id, by decide +kernel⟩

theorem witness_Mailbox_18 : ∃ (s : State) (r : List Word),
    s.hub.answers s.fixed s.met .met 0x800000 = true ∧ s.met.is fMetMbCmdBusy = false ∧
    s.met.recordOf (s.met.arg 0).toNat = some r :=
  ⟨wMet [] [] (fun m => { m with log := [(0, 1#32 :: List.replicate 15 0#32)] }) id, 1#32 :: List.replicate 15 0#32, by decide +kernel⟩

theorem witness_Mailbox_19 : ∃ (s : State),
    s.hub.answers s.fixed s.met .met 0x800000 = true ∧ s.met.is fMetMbCmdBusy = false ∧ s.met.rd fMetLidState = 1 ∧
    s.met.outcome ≠ 0 ∧ (s.met.arg 0).toNat < 8 ∧ s.met.chOn (s.met.arg 0).toNat = true ∧ 1 ≤ (s.met.arg 1).toNat ∧
    (s.met.arg 1).toNat ≤ 600 :=
  ⟨wMet [(rMetMbArg 0, 2#32), (rMetMbArg 1, 10#32)] [(cellKey 15 2 0, 1#32)] id id, by decide⟩

theorem witness_Mailbox_20 : ∃ (s : State) (c : Nat),
    s.met.calCh = some c :=
  ⟨wMet [(rMetMbCmd, 0x40000000#32)] [] (fun m => { m with calCh := some 2, calN := 2, calSq := 50 }) id, 2, by decide⟩

theorem witness_Mailbox_21 : ∃ (s : State),
    s.met.calCh = none :=
  ⟨wMet [] [] id id, by decide⟩

theorem witness_Mailbox_22 : ∃ (s : State),
    s.hub.answers s.fixed s.met .met 0x800000 = true ∧ s.met.is fMetMbCmdBusy = false :=
  ⟨wMet [] [] id id, by decide⟩

theorem witness_ResetScopes_1 : ∃ (s : State) (unit : BitVec 9),
    s.hub.asleep = false ∧ s.fixed.variant.hasQueue unit.toNat = true ∧ s.hub.rd fGlbStatusRun ≠ 6 ∧
    s.hub.recovering 1 unit.toNat = false :=
  ⟨wSt { wLive [(0x1A1424, 7#32)] [(0x905000, 1#32)] with q := [(5, { (default : Queue) with head := [3#40] })] }, 5#9, by decide⟩

theorem witness_ResetScopes_2 : ∃ (s : State) (c : Instr) (unit : BitVec 9),
    s.hub.asleep = false ∧
    ((c = .resetQueue unit ∧ s.fixed.variant.hasQueue unit.toNat = false) ∨ (c = .resetContext unit ∧ s.fixed.variant.ctxCount ≤ unit.toNat) ∨ (c = .resetPort unit ∧ s.fixed.variant.spCount ≤ unit.toNat ∧ (unit.toNat < 24 ∨ 32 ≤ unit.toNat)) ∨ (c = .resetTile unit ∧ s.fixed.variant.tileCount ≤ unit.toNat) ∨ (c = .resetLink unit ∧ s.fixed.variant.linkCount ≤ unit.toNat) ∨ (c = .resetRadio ∧ s.fixed.variant.hasRad = false) ∨ (c ∈ [.resetQueue unit, .resetContext unit, .resetPort unit, .resetTile unit, .resetLink unit, .resetRadio, .resetFabric] ∧ s.hub.rd fGlbStatusRun = 6)) :=
  ⟨State.reset, .resetQueue 100#9, 100#9, by decide⟩

theorem witness_ResetScopes_3 : ∃ (s : State) (c : Instr) (unit : BitVec 9),
    s.hub.asleep = false ∧ s.hub.rd fGlbStatusRun ≠ 6 ∧
    ((c = .resetQueue unit ∧ s.fixed.variant.hasQueue unit.toNat = true ∧ s.hub.recovering 1 unit.toNat = true) ∨ (c = .resetContext unit ∧ unit.toNat < s.fixed.variant.ctxCount ∧ s.hub.recovering 2 unit.toNat = true) ∨ (c = .resetPort unit ∧ (unit.toNat < s.fixed.variant.spCount ∨ 24 ≤ unit.toNat ∧ unit.toNat < 32) ∧ s.hub.recovering 3 unit.toNat = true) ∨ (c = .resetTile unit ∧ unit.toNat < s.fixed.variant.tileCount ∧ s.hub.recovering 4 unit.toNat = true) ∨ (c = .resetLink unit ∧ unit.toNat < s.fixed.variant.linkCount ∧ s.hub.recovering 5 unit.toNat = true) ∨ (c = .resetRadio ∧ s.fixed.variant.hasRad = true ∧ s.hub.recovering 6 0 = true) ∨ (c = .resetFabric ∧ s.hub.recovering 7 0 = true) ∨ (c = .resetDevice ∧ s.hub.recovering 8 0 = true)) :=
  ⟨wSt { wLive [] [] with flt := { (default : Flt) with recs := [{ (default : Rec) with scope := 7 }] } }, .resetQueue 5#9, 5#9, by decide⟩

theorem witness_ResetScopes_4 : ∃ (s : State) (c : Instr) (unit : BitVec 9),
    s.hub.asleep = true ∧
    c ∈ .resetDevice :: [.resetQueue unit, .resetContext unit, .resetPort unit, .resetTile unit, .resetLink unit, .resetRadio, .resetFabric] :=
  ⟨wSt { Hub.reset with asleep := true }, .resetRadio, 0#9, by decide⟩

theorem witness_ResetScopes_5 : ∃ (s : State) (unit : BitVec 9),
    s.hub.asleep = false ∧ unit.toNat < s.fixed.variant.ctxCount ∧ s.hub.rd fGlbStatusRun ≠ 6 ∧
    s.hub.recovering 2 unit.toNat = false :=
  ⟨wSt { wLive [] [] with ctx := [(7, { (default : Ctx) with gapIn := false, gapOut := false })] }, 7#9, by decide⟩

theorem witness_ResetScopes_6 : ∃ (s : State) (unit : BitVec 9),
    s.hub.asleep = false ∧ unit.toNat < s.fixed.variant.spCount ∧ s.hub.rd fGlbStatusRun ≠ 6 ∧
    s.hub.recovering 3 unit.toNat = false :=
  ⟨wSt (wLive [(0x41008, 0x80#32)] []), 2#9, by decide⟩

theorem witness_ResetScopes_7 : ∃ (s : State) (unit : BitVec 9),
    s.hub.asleep = false ∧ 24 ≤ unit.toNat ∧ unit.toNat < 32 ∧ s.hub.rd fGlbStatusRun ≠ 6 ∧
    s.hub.recovering 3 unit.toNat = false :=
  ⟨wSt { wLive [] [] with tw := [(1, { (default : TwoWire) with kind := 2 })] }, 25#9, by decide⟩

theorem witness_ResetScopes_8 : ∃ (s : State) (unit : BitVec 9),
    s.hub.asleep = false ∧ unit.toNat < s.fixed.variant.tileCount ∧ s.hub.rd fGlbStatusRun ≠ 6 ∧
    s.hub.recovering 4 unit.toNat = false ∧
    (∀ u ∈ s.hub.domain unit.toNat, ∀ k ∈ s.hub.stagesOn u, s.hub.stTile (k / 8) (k % 8) = u) :=
  ⟨wSt { wLive [] [] with tile := [(3, { (default : Tile) with swap := some (1, 4) })] }, 3#9, by decide⟩

theorem witness_ResetScopes_9 : ∃ (s : State) (unit : BitVec 9),
    s.hub.asleep = false ∧ unit.toNat < s.fixed.variant.linkCount ∧ s.hub.rd fGlbStatusRun ≠ 6 ∧
    s.hub.recovering 5 unit.toNat = false :=
  ⟨wSt { wLive [] [] with link := [(1, { (default : Link) with dev := 3 })] }, 1#9, by decide⟩

theorem witness_ResetScopes_10 : ∃ (s : State),
    s.hub.asleep = false ∧ s.fixed.variant.hasRad = true ∧ s.hub.rd fGlbStatusRun ≠ 6 ∧ s.hub.recovering 6 0 = false :=
  ⟨wSt (wLive [(0x1E0004, 0x50000000#32)] []), by decide⟩

theorem witness_ResetScopes_11 : ∃ (s : State),
    s.hub.asleep = false ∧ s.hub.rd fGlbStatusRun ≠ 6 ∧ s.hub.recovering 7 0 = false :=
  ⟨wSt { wLive [] [] with fea := [(3, { (default : Fea) with blk := [] })] }, by decide⟩

theorem witness_ResetScopes_12 : ∃ (s : State),
    s.hub.asleep = false ∧ (s.hub.rd fGlbStatusRun = 6 ∨ s.hub.recovering 8 0 = false) :=
  ⟨wSt (wLive [(0x30, 0x600#32)] [(0x905000, 1#32)]), by decide⟩

theorem witness_RecoveryCourse_1 : ∃ (s : State) (sect : Fin 16) (unit : Fin 256) (cell : Fin 4096) (flip : Word),
    cfgCovered sect unit cell = true ∧ flip ≠ 0#32 ∧ s.hub.flt.upset.contains (sect.val, unit.val) = false ∧
    (s.hub.setCell (cellKey sect unit cell) (s.hub.cell sect unit cell ^^^ flip)).unitCrc sect unit ≠ NMap.get s.hub.flt.refs (unitKey sect unit) :=
  ⟨wSt (wLive [] []), 13, 0, 4, 1#32, by decide⟩

theorem witness_RecoveryCourse_2 : ∃ (s : State) (sect : Fin 16) (unit : Fin 256),
    cfgChecked sect = true ∧ s.hub.flt.upset.contains (sect.val, unit.val) = false ∧
    s.hub.unitCrc sect unit = NMap.get s.hub.flt.refs (unitKey sect unit) :=
  ⟨wSt { wLive [] [] with flt := { (default : Flt) with refs := [] } }, 13, 0, by decide⟩

theorem witness_RecoveryCourse_3 : ∃ (s : State) (sect : Fin 16) (unit : Fin 256),
    cfgChecked sect = true ∧ s.hub.flt.upset.contains (sect.val, unit.val) = true :=
  ⟨wSt { wLive [] [] with flt := { (default : Flt) with upset := [(13, 0)] } }, 13, 0, by decide⟩

theorem witness_RecoveryCourse_4 : ∃ (sect : Fin 16),
    cfgChecked sect = false :=
  ⟨7, by decide⟩

theorem witness_RecoveryCourse_5 : ∃ (s : State) (scope : Fin 16) (unit : BitVec 9),
    s.hub.flt.recs.any (fun r => r.scope == scope.val && r.unit == unit.toNat) = true ∧ s.hub.ldrState ≠ ldrCommit ∧
    (List.range 9).all (fun g => (s.hub.test g).waiting.isNone) = true :=
  ⟨wSt { wLive [] [] with flt := { (default : Flt) with recs := [{ (default : Rec) with scope := 7, unit := 0, host := true }] } }, 7, 0#9, by decide⟩

theorem witness_RecoveryCourse_6 : ∃ (s : State) (scope : Fin 16) (unit : BitVec 9),
    s.hub.flt.recs.any (fun r => r.scope == scope.val && r.unit == unit.toNat) = false :=
  ⟨wSt (wLive [] []), 7, 0#9, by decide⟩

theorem witness_RecoveryCourse_7 : ∃ (s : State) (scope : Fin 16) (unit : BitVec 9),
    (scope.val = 1 ∨ scope.val = 3 ∨ scope.val = 4) ∧
    s.hub.flt.recs.any (fun r => r.scope == scope.val && r.unit == unit.toNat) = true :=
  ⟨wSt { wLive [] [] with flt := { (default : Flt) with recs := [{ (default : Rec) with scope := 3, unit := 2, host := true }] } }, 3, 2#9, by decide⟩

theorem witness_RecoveryCourse_8 : ∃ (s : State) (scope : Fin 16) (unit : BitVec 9),
    scope.val = 2 ∧ (s.hub.tilesOf unit.toNat) ≠ [] ∧
    s.hub.flt.recs.any (fun r => r.scope == scope.val && r.unit == unit.toNat) = true :=
  ⟨wSt { wLive [] [(0x520000, 0x12#32), (0x500400, 1#32)] with flt := { (default : Flt) with recs := [{ (default : Rec) with scope := 2, unit := 0 }] } }, 2, 0#9, by decide⟩

theorem witness_RecoveryCourse_9 : ∃ (s : State) (scope : Fin 16) (unit : BitVec 9),
    scope.val = 2 ∧ (s.hub.tilesOf unit.toNat) = [] ∧
    s.hub.flt.recs.any (fun r => r.scope == scope.val && r.unit == unit.toNat) = true :=
  ⟨wSt { wLive [] [] with flt := { (default : Flt) with recs := [{ (default : Rec) with scope := 2, unit := 9 }] } }, 2, 9#9, by decide⟩

theorem witness_RecoveryCourse_10 : ∃ (s : State) (scope : Fin 16) (unit : BitVec 9),
    (scope.val = 5 ∨ scope.val = 6 ∨ scope.val = 7) ∧
    s.hub.flt.recs.any (fun r => r.scope == scope.val && r.unit == unit.toNat) = true :=
  ⟨wSt { wLive [] [] with flt := { (default : Flt) with recs := [{ (default : Rec) with scope := 5, unit := 1 }] } }, 5, 1#9, by decide⟩

theorem witness_RecoveryCourse_11 : ∃ (s : State) (scope : Fin 16) (unit : BitVec 9),
    scope.val = 8 ∧ s.hub.flt.recs.any (fun r => r.scope == scope.val && r.unit == unit.toNat) = true :=
  ⟨wSt { wLive [] [] with flt := { (default : Flt) with recs := [{ (default : Rec) with scope := 8, unit := 0 }] } }, 8, 0#9, by decide⟩

theorem witness_RecoveryCourse_12 : ∃ (s : State) (scope : Fin 16) (unit : BitVec 9),
    scope.val = 9 ∧ s.hub.flt.recs.any (fun r => r.scope == scope.val && r.unit == unit.toNat) = true :=
  ⟨wSt { wLive [] [] with flt := { (default : Flt) with recs := [{ (default : Rec) with scope := 9, unit := 0 }] } }, 9, 0#9, by decide⟩

theorem witness_RecoveryCourse_13 : ∃ (s : State) (b : Fin 6),
    s.hub.rd (fHltBkTokens b) ≠ 0 :=
  ⟨wSt (wLive [(0x1F8020, 0x20000#32)] []), 0, by decide⟩

theorem witness_RecoveryCourse_14 : ∃ (s : State) (b : Fin 6),
    s.hub.rd (fHltBkTokens b) ≠ 0 ∧
    (s.hub.wr (fHltBkTokens b) (s.hub.rd (fHltBkTokens b) - 1)).settle s.fixed = s.hub.wr (fHltBkTokens b) (s.hub.rd (fHltBkTokens b) - 1) :=
  ⟨wSt (wLive [(0x1F8020, 0x20000#32)] []), 0, by decide⟩

theorem witness_RecoveryCourse_15 : ∃ (s : State) (b : Fin 6),
    s.hub.rd (fHltBkTokens b) = 0 :=
  ⟨State.reset, 2, by decide⟩

theorem witness_SelfTests_1 : ∃ (s : State) (w : Word),
    s.hub.answers s.fixed s.met .hlt 0x1F0010 = true ∧ algOf (fieldOf w 0 4) (fieldOf w 8 3) = true ∧
    s.hub.algPermitted (fieldOf w 8 3) = true ∧ (s.hub.test (fieldOf w 0 4)).run = false ∧
    (s.hub.test (fieldOf w 0 4)).restore = false ∧ (s.hub.test (fieldOf w 0 4)).waiting = none :=
  ⟨wSt (wLive [] []), w32 (0x80000000 + 2 * 256 + 3), by decide⟩

theorem witness_SelfTests_2 : ∃ (s : State) (w : Word),
    s.hub.answers s.fixed s.met .hlt 0x1F0010 = true ∧ algOf (fieldOf w 0 4) (fieldOf w 8 3) = true ∧
    s.hub.algPermitted (fieldOf w 8 3) = true ∧
    ((s.hub.test (fieldOf w 0 4)).run = true ∨ (s.hub.test (fieldOf w 0 4)).restore = true ∨ (s.hub.test (fieldOf w 0 4)).waiting ≠ none) :=
  ⟨wSt { wLive [] [] with hlt := { (default : Hlt) with test := [(3, { (default : StTest) with run := true })] } }, w32 (0x80000000 + 2 * 256 + 3), by decide⟩

theorem witness_SelfTests_3 : ∃ (s : State) (w : Word),
    s.hub.answers s.fixed s.met .hlt 0x1F0010 = true ∧
    (fieldOf w 0 4 < 8 ∨ (fieldOf w 0 4 = 8 ∧ s.fixed.variant.hasMet = true)) ∧
    (algOf (fieldOf w 0 4) (fieldOf w 8 3) = false ∨ s.hub.algPermitted (fieldOf w 8 3) = false) :=
  ⟨wSt (wLive [] []), w32 (0x80000000 + 3), by decide⟩

theorem witness_SelfTests_4 : ∃ (s : State) (w : Word),
    s.hub.answers s.fixed s.met .hlt 0x1F0010 = true ∧ fieldOf w 0 4 = 8 ∧ s.fixed.variant.hasMet = false :=
  ⟨{ wSt (wLive [] []) with fixed := { State.reset.fixed with variant := .dx192u } }, w32 (0x80000000 + 8), by decide⟩

theorem witness_SelfTests_5 : ∃ (s : State),
    s.hub.answers s.fixed s.met .hlt 0x1F0010 = false :=
  ⟨State.reset, by decide⟩

theorem witness_SelfTests_6 : ∃ (s : State) (w : Word),
    s.hub.answers s.fixed s.met .hlt 0x1F0010 = true ∧ 8 < fieldOf w 0 4 :=
  ⟨wSt (wLive [] []), w32 0x8000000F, by decide⟩

theorem witness_SelfTests_7 : ∃ (s : State) (w : Word),
    s.hub.answers s.fixed s.met .hlt 0x1F0010 = true ∧ fieldOf w 0 4 ≤ 8 ∧ (s.hub.test (fieldOf w 0 4)).run = true ∧
    (s.hub.test (fieldOf w 0 4)).cause = 0 :=
  ⟨wSt { wLive [] [] with hlt := { (default : Hlt) with test := [(3, { (default : StTest) with run := true })] } }, w32 (0x40000000 + 3), by decide⟩

theorem witness_SelfTests_8 : ∃ (s : State) (w : Word),
    s.hub.answers s.fixed s.met .hlt 0x1F0010 = true ∧
    ((s.hub.test (fieldOf w 0 4)).run = false ∨ (s.hub.test (fieldOf w 0 4)).cause ≠ 0) :=
  ⟨wSt (wLive [] []), w32 (0x40000000 + 3), by decide⟩

theorem witness_SelfTests_9 : ∃ (s : State) (g : Fin 9),
    ((s.hub.test g).run = false ∨ (s.hub.test g).alg ≠ 2 ∨ (s.hub.test g).cause ≠ 0) :=
  ⟨wSt (wLive [] []), 3, by decide⟩

theorem witness_SelfTests_10 : ∃ (s : State) (g : Fin 9),
    (s.hub.test g).run = true ∧ (s.hub.test g).alg = 2 ∧ (s.hub.test g).cause = 0 :=
  ⟨wSt { wLive [] [] with hlt := { (default : Hlt) with test := [(3, { (default : StTest) with run := true, alg := 2 })] } }, 3, by decide⟩

theorem witness_SelfTests_11 : ∃ (s : State) (g : Fin 9),
    (s.hub.test g).run = true ∧ 2 ≤ (s.hub.test g).alg :=
  ⟨wSt { wLive [] [] with hlt := { (default : Hlt) with test := [(3, { (default : StTest) with run := true, alg := 2 })] } }, 3, by decide⟩

theorem witness_SelfTests_12 : ∃ (s : State) (g : Fin 9),
    (s.hub.test g).run = true ∧ (s.hub.test g).alg < 2 ∧
    s.hub.flt.recs.any (fun x => decide (stScope g ≤ x.scope)) = false :=
  ⟨wSt { wLive [] [] with hlt := { (default : Hlt) with test := [(3, { (default : StTest) with run := true, alg := 1 })] } }, 3, by decide⟩

theorem witness_SelfTests_13 : ∃ (s : State) (g : Fin 9),
    (s.hub.test g).run = true ∧ (s.hub.test g).alg < 2 ∧
    s.hub.flt.recs.any (fun x => decide (stScope g ≤ x.scope)) = true :=
  ⟨wSt { wLive [] [] with flt := { (default : Flt) with recs := [{ (default : Rec) with scope := 8 }] }, hlt := { (default : Hlt) with test := [(3, { (default : StTest) with run := true, alg := 1 })] } }, 3, by decide⟩

theorem witness_SelfTests_14 : ∃ (s : State) (g : Fin 9),
    (s.hub.test g).run = false :=
  ⟨wSt (wLive [] []), 3, by decide⟩

theorem witness_SelfTests_15 : ∃ (s : State) (g : Fin 9),
    (s.hub.test g).restore = true :=
  ⟨wSt { wLive [] [] with hlt := { (default : Hlt) with test := [(3, { (default : StTest) with restore := true, alg := 2 })] } }, 3, by decide⟩

theorem witness_SelfTests_16 : ∃ (s : State) (g : Fin 9),
    (s.hub.test g).restore = false :=
  ⟨wSt (wLive [] []), 3, by decide⟩

theorem witness_ControlCycles_1 : ∃ (s : State),
    s.hub.clk.gates = true :=
  ⟨wSt (wLive [] [(0xA1002D, 1000#32), (cellKey 10 16 0x31, 0x32#32)]), by decide⟩

theorem witness_ControlCycles_2 : ∃ (s : State),
    s.hub.clk.gates = true ∧ s.hub.cycleTrig = false :=
  ⟨wSt (wLive [] []), by decide⟩

theorem witness_ControlCycles_3 : ∃ (s : State),
    s.hub.clk.gates = true ∧ s.hub.cycleTrig = true ∧ s.hub.plannerOn = false ∧
    2592000000000 ≤ s.hub.hlt.month + (s.hub.cyc - s.hub.hlt.lastCyc) / 800 :=
  ⟨wSt { wLive [(rTmTgCtl 2, 1#32)] [(0xA1002D, 1000#32), (cellKey 10 16 0x31, 0x32#32)] with hlt := { (default : Hlt) with month := 2592000000000 } }, by decide⟩

theorem witness_ControlCycles_4 : ∃ (s : State),
    s.hub.clk.gates = false :=
  ⟨State.reset, by decide⟩

theorem witness_ControlCycles_5 : ∃ (s : State),
    s.hub.clk.gates = true ∧ s.hub.cycleTrig = true ∧ s.hub.plannerOn = false ∧ s.hub.hlt.cycles ≠ 99 ∧
    s.hub.hlt.month + (s.hub.cyc - s.hub.hlt.lastCyc) / 800 < 2592000000000 :=
  ⟨wSt (wLive [(rTmTgCtl 2, 1#32)] [(0xA1002D, 1000#32), (cellKey 10 16 0x31, 0x32#32)]), by decide⟩

theorem witness_ControlCycles_6 : ∃ (s : State) (margins : List (BitVec 8)),
    s.hub.clk.gates = true ∧ s.hub.cycleTrig = true ∧ s.hub.mayStep = true ∧ s.hub.abovePlan = false ∧
    (∀ m, m ∈ margins → m.toNat < s.hub.mCrit) ∧ 0 < s.hub.mCrit ∧ s.hub.rd fHltPlanVddc < 10 ∧
    s.hub.hlt.cycles ≠ 99 ∧ s.hub.hlt.month + (s.hub.cyc - s.hub.hlt.lastCyc) / 800 < 2592000000000 :=
  ⟨wSt ((wLive [(rTmTgCtl 2, 1#32)] [(0xA1002D, 1000#32), (cellKey 10 16 0x31, 0x32#32), (cellKey 13 2 0, 0x100#32), (cellKey 13 0 0, 100#32)])), [20#8], by decide⟩

theorem witness_ControlCycles_8 : ∃ (s : State),
    (List.range 8).all (fun c => (NMap.get s.hub.tw c).kind == 0) = true :=
  ⟨wSt { wLive [] [] with hlt := { (default : Hlt) with retrim := true } }, by decide⟩

theorem witness_ControlCycles_9 : ∃ (s : State),
    (List.range 8).all (fun c => (NMap.get s.hub.tw c).kind == 0) = false :=
  ⟨wSt { wLive [] [] with tw := [(1, { (default : TwoWire) with kind := 2 })], hlt := { (default : Hlt) with retrim := true } }, by decide⟩

theorem witness_DipsAndReduced_1 : ∃ (s : State) (rail : Fin 12),
    s.hub.railWatched s.fixed rail = true ∧ (s.hub.dip rail).on = false :=
  ⟨wSt { wLive [] [] with hlt := { (default : Hlt) with test := [(2, { (default : StTest) with run := true })] } }, 4, by decide⟩

theorem witness_DipsAndReduced_2 : ∃ (s : State) (rail : Fin 12),
    s.hub.railWatched s.fixed rail = true ∧ (s.hub.dip rail).on = true :=
  ⟨wSt { wLive [] [] with sup := { (default : Sup) with dip := [(4, { (default : Dip) with on := true, low := 2900, win := 7 })] } }, 4, by decide⟩

theorem witness_DipsAndReduced_3 : ∃ (s : State) (rail : Fin 12),
    s.hub.railWatched s.fixed rail = false :=
  ⟨{ State.reset with fixed := { State.reset.fixed with variant := .dx192u } }, 10, by decide⟩

theorem witness_DipsAndReduced_5 : ∃ (s : State) (rail : Fin 12),
    (s.hub.dip rail).on = true :=
  ⟨wSt { wLive [] [] with sup := { (default : Sup) with dip := [(4, { (default : Dip) with on := true })] } }, 4, by decide⟩

theorem witness_DipsAndReduced_6 : ∃ (s : State) (rail : Fin 12),
    (s.hub.dip rail).on = false :=
  ⟨wSt (wLive [] []), 4, by decide⟩

theorem witness_DipsAndReduced_7 : ∃ (s : State) (rail : Fin 12),
    (s.hub.dip rail).on = true :=
  ⟨wSt { wLive [(rClkSupNow, 0x10#32)] [] with cyc := 90000, sup := { (default : Sup) with dip := [(4, { (default : Dip) with on := true, low := 2900, win := 5000, start := 1000 })] } }, 4, by decide⟩

theorem witness_DipsAndReduced_8 : ∃ (s : State) (rail : Fin 12),
    (s.hub.dip rail).on = true ∧ (s.hub.dip rail).win ≠ 0 ∧ (s.hub.dip rail).win - 1 + 80000 ≤ s.hub.cyc ∧
    s.hub.is fClkSupNowReduced = false :=
  ⟨wSt { wLive [(rClkSupNow, 0x10#32)] [] with cyc := 90000, sup := { (default : Sup) with dip := [(4, { (default : Dip) with on := true, low := 2900, win := 5000, start := 1000 })] } }, 4, by decide⟩

theorem witness_DipsAndReduced_9 : ∃ (s : State) (r : Fin 12),
    (s.hub.dip r).on = true ∧ (s.hub.dip r).atReset = false ∧ (s.hub.cf 13 1 0 0 12).testBit r = true ∧
    s.hub.cf 13 1 0 12 1 = 1 ∧ s.hub.is fClkSupNowReduced = false :=
  ⟨wSt { wLive [] [(cellKey 13 1 0, 0x7003#32)] with cyc := 2000000, sup := { (default : Sup) with dip := [(0, { (default : Dip) with on := true, low := 2900 })] } }, 0, by decide⟩

theorem witness_DipsAndReduced_10 : ∃ (s : State),
    ((∀ r ∈ List.range 12, (s.hub.dip r).on = true → (s.hub.dip r).atReset = true ∨ (s.hub.cf 13 1 0 0 12).testBit r = false) ∨ s.hub.cf 13 1 0 12 1 = 0 ∨ s.hub.is fClkSupNowReduced = true) :=
  ⟨wSt (wLive [] []), by decide⟩

theorem witness_RailsAndReset_1 : ∃ (s : State) (rail : Fin 12),
    s.hub.railWatched s.fixed rail = true ∧ (rail.val = 0 ∨ rail.val = 1 ∨ rail.val = 8 ∨ rail.val = 9) :=
  ⟨wSt (wLive [(0x30, 0x600#32)] [(0x905000, 1#32)]), 1, by decide⟩

theorem witness_RailsAndReset_2 : ∃ (s : State) (rail : Fin 12),
    s.hub.railWatched s.fixed rail = true ∧ 2 ≤ rail.val ∧ rail.val ≤ 7 :=
  ⟨wSt (wLive [(rClkSupNow, 0x10#32)] []), 4, by decide⟩

theorem witness_RailsAndReset_3 : ∃ (s : State) (rail : Fin 12),
    s.hub.railWatched s.fixed rail = true ∧ 10 ≤ rail.val :=
  ⟨State.reset, 11, by decide⟩

theorem witness_RailsAndReset_4 : ∃ (s : State) (rail : Fin 12),
    s.hub.railHeld rail = true :=
  ⟨wSt (wLive [(rClkSupNow, 0x100000#32)] []), 4, by decide⟩

theorem witness_RailsAndReset_5 : ∃ (s : State) (rail : Fin 12),
    s.hub.railHeld rail = false :=
  ⟨wSt (wLive [] []), 4, by decide⟩

theorem witness_RailsAndReset_8 : ∃ (s : State) (state : Fin 8),
    s.fixed.variant.hasMet = true ∧ s.met.up = true ∧ lcFactory (s.met.rd fMetLidState) state = true ∧ state.val ≠ 3 :=
  ⟨{ State.reset with met := { State.reset.met with up := true, regs := [] } }, 1, by decide⟩

theorem witness_RailsAndReset_9 : ∃ (s : State) (state : Fin 8),
    s.fixed.variant.hasMet = true ∧ s.met.up = true ∧ s.met.rd fMetLidState = 1 ∧ s.met.is fMetLidMlid = true ∧
    state.val = 3 :=
  ⟨wMet [(rMetLid, 0x28000000#32)] [] id id, 3, by decide⟩

theorem witness_RailsAndReset_10 : ∃ (s : State) (state : Fin 8),
    ((s.fixed.variant.hasMet = true ∧ (s.met.up = false ∨ lcFactory (s.met.rd fMetLidState) state = false ∨ (state.val = 3 ∧ s.met.is fMetLidMlid = false))) ∨ (s.fixed.variant.hasMet = false ∧ (lcFactory s.hub.hlt.factory state = false ∨ state.val = 4))) :=
  ⟨State.reset, 7, by decide⟩

theorem witness_RailsAndReset_11 : ∃ (s : State) (state : Fin 8),
    s.fixed.variant.hasMet = false ∧ lcFactory s.hub.hlt.factory state = true ∧ state.val ≠ 4 :=
  ⟨{ State.reset with fixed := { State.reset.fixed with variant := .dx192u }, hub := { State.reset.hub with hlt := { State.reset.hub.hlt with factory := 1 } } }, 3, by decide⟩

theorem witness_SleepAndWake_1 : ∃ (s : State),
    s.hub.asleep = false ∧ s.hub.sleepReason s.met ≠ 0 :=
  ⟨wSt (wLive [(rClkSupNow, 0x10#32)] []), by decide⟩

theorem witness_SleepAndWake_2 : ∃ (s : State),
    s.hub.asleep = false ∧ s.hub.sleepReason s.met = 0 ∧ NMap.wf s.hub.regs resetWord = true ∧
    NMap.wf s.hub.tb (fun _ => default) = true :=
  ⟨wSt { wLive [(rTmKtCtl 5, 0x80000002#32)] [(0x802082, 1#32)] with tb := [(3, { (default : TimeBase) with val := 77 })] }, by decide⟩

theorem witness_SleepAndWake_3 : ∃ (s : State),
    s.hub.asleep = true :=
  ⟨wSt { Hub.reset with asleep := true }, by decide⟩

theorem witness_SleepAndWake_4 : ∃ (s : State),
    s.hub.asleep = true ∧ s.hub.sup.wake = 0 ∧
    (List.range 256).any (fun a => s.hub.is (fTmKtCtlEnable a) && s.hub.is (fTmKtCtlWake a)) = true :=
  ⟨wSt { (wLive [(rTmKtCtl 5, 0xA0000002#32)] []) with asleep := true }, by decide⟩

theorem witness_SleepAndWake_5 : ∃ (s : State),
    (s.hub.asleep = false ∨ s.hub.sup.wake ≠ 0 ∨ (List.range 256).any (fun a => s.hub.is (fTmKtCtlEnable a) && s.hub.is (fTmKtCtlWake a)) = false) :=
  ⟨wSt (wLive [] []), by decide⟩

theorem witness_SleepAndWake_6 : ∃ (s : State) (addr : BitVec 16),
    s.hub.wakeMine s.fixed addr = true :=
  ⟨wSt { (wLive [(rRadWake, 0x80001234#32)] []) with asleep := true }, 0x1234#16, by decide⟩

theorem witness_SleepAndWake_7 : ∃ (s : State) (addr : BitVec 16),
    s.hub.wakeMine s.fixed addr = true :=
  ⟨wSt (wLive [(rRadWake, 0xC0001234#32)] []), 0xFFFF#16, by decide⟩

theorem witness_SleepAndWake_8 : ∃ (s : State) (addr : BitVec 16),
    s.hub.wakeMine s.fixed addr = true :=
  ⟨wSt { (wLive [(rRadWake, 0x80001234#32)] []) with asleep := true }, 0x1234#16, by decide⟩

theorem witness_SleepAndWake_9 : ∃ (s : State) (addr : BitVec 16),
    s.hub.wakeMine s.fixed addr = true :=
  ⟨wSt (wLive [(rRadWake, 0x80001234#32)] []), 0x1234#16, by decide⟩

theorem witness_SleepAndWake_10 : ∃ (s : State) (addr : BitVec 16),
    s.hub.wakeMine s.fixed addr = false :=
  ⟨wSt (wLive [] []), 0x1234#16, by decide⟩

theorem witness_SleepAndWake_11 : ∃ (s : State),
    s.fixed.variant.hasRad = true ∧ s.hub.is fRadWakeEn = true :=
  ⟨wSt (wLive [(rRadWake, 0x80001234#32)] []), by decide⟩

theorem witness_SleepAndWake_12 : ∃ (s : State),
    (s.fixed.variant.hasRad = false ∨ s.hub.is fRadWakeEn = false) :=
  ⟨wSt (wLive [] []), by decide⟩

theorem witness_SleepAndWake_13 : ∃ (s : State) (src : Fin 16),
    s.hub.asleep = true ∧ s.hub.sup.wake ≤ 4 ∧ (s.hub.sup.wake ≠ 0 ∨ (1 ≤ src.val ∧ src.val ≤ 4)) :=
  ⟨wSt { State.reset.hub with asleep := true }, 4, by decide⟩

theorem witness_SleepAndWake_14 : ∃ (s : State) (src : Fin 16),
    (s.hub.asleep = false ∨ (s.hub.sup.wake = 0 ∧ (src.val = 0 ∨ 4 < src.val)) ∨ 4 < s.hub.sup.wake) :=
  ⟨wSt (wLive [] []), 4, by decide⟩

theorem witness_IdleCycle_1 : ∃ s : State, s.pending = [] ∧ s.hub.clk.gates = true ∧ s.hub.asleep = false := ⟨wSt (wLive [] []), by decide⟩

theorem witness_IdleCycle_2 : ∃ s : State, s.pending = [] ∧ s.hub.clk.gates = false := ⟨State.reset, by decide⟩

theorem witness_PartitionInvariant : Met.inv State.reset.met ∧ ∃ t, step State.reset = .next t := ⟨by decide, _, rfl⟩

theorem witness_PartitionIsolation_1 : (Instr.resetFabric).reachesPartition = false ∧ ∃ t, exec .resetFabric State.reset = .next t := ⟨by decide, _, rfl⟩

theorem witness_PartitionIsolation_2 : (Instr.severityIntervalEnd).ofPartition = true ∧ ∃ t, exec .severityIntervalEnd State.reset = .next t := ⟨by decide, _, rfl⟩

theorem witness_LineRisesToPending : ∃ s t : State, step s = .next t ∧ irqActive s.hub s.met 1 = false ∧ irqActive t.hub t.met 1 = true ∧ (t.hub.rd fGlbWakeEn).testBit 1 = true :=
    ⟨{ wSt (wLive [(0x28, 1#32), (0x30, 0x200#32), (rClkStatus, 0x10#32)] []) with pending := [.refclkLost] }, _, rfl, by decide⟩

theorem witness_BitstreamFromCascade_1 : ∃ (s : State) (f : CasFrame),
    s.hub.rxGood 0 1 f ∧ (f.bcast = true ∨ s.hub.route s.fixed f.dst.toNat = some 3) ∧ (framePay f).length = 66 ∧
    s.hub.ldrRoom 66 = true ∧ s.hub.is fLdrCtlHostOnly = false :=
  ⟨wTree 2 2 0 (fun h => h.wr fGlbStatusDevnum 3) [], wFrame false 3#9 8#6 (List.replicate 66 0#32), by decide⟩

theorem witness_BitstreamFromCascade_2 : ∃ (s : State) (p : Fin 3) (f : CasFrame),
    s.hub.rxGood p 1 f ∧ (f.bcast = true ∨ s.hub.route s.fixed f.dst.toNat = some 3) ∧
    (p ≠ 0 ∨ s.hub.is fLdrCtlHostOnly = true) :=
  ⟨wTree 2 2 0 (fun h => h.wr fGlbStatusDevnum 3) [], 1, wFrame true 0#9 8#6 (List.replicate 66 0#32), by decide⟩

theorem witness_BitstreamFromCascade_3 : ∃ (s : State) (p : Fin 3) (f : CasFrame),
    s.hub.rxGood p 1 f ∧ f.bcast = false ∧ s.hub.route s.fixed f.dst.toNat ≠ some 3 :=
  ⟨wTree 2 2 0 (fun h => h.wr fGlbStatusDevnum 3) [], 0, wFrame false 9#9 8#6 (List.replicate 66 0#32), by decide⟩

theorem witness_BitstreamFromCascade_4 : ∃ (s : State) (p : Fin 3),
    s.hub.linkUp p = false :=
  ⟨wTree 0 0 0 id [], 1, by decide⟩

theorem witness_BitstreamFromCascade_2b : ∃ (s : State) (f : CasFrame), s.hub.rxGood 0 1 f ∧ f.bcast = true ∧ s.hub.is fLdrCtlHostOnly = true :=
    ⟨wTree 2 2 0 (fun h => h.on fLdrCtlHostOnly) [], wFrame true 0#9 8#6 (List.replicate 66 0#32), by decide⟩

theorem witness_TransmitUnderWarning_1 : ∃ (s : State) (rail : Fin 12) (c : RadCmd),
    s.hub.railWatched s.fixed rail = true ∧ (s.hub.dip rail).on = false ∧ s.hub.rad.cmd = some c ∧ c.op = 3 ∧
    s.hub.rad.held = none :=
  ⟨wRad 5 [] (fun r => { r with cmd := some (wCmd 3 0) }) id, 5, wCmd 3 0, by decide⟩

theorem witness_TransmitUnderWarning_2 : ∃ (s : State) (w : Word),
    s.hub.answers s.fixed s.met .rad 0x1E000C = true ∧ s.hub.radUp s.fixed = true ∧ s.hub.rad.mode = 1 ∧
    11 ≤ fieldOf w 21 5 ∧ fieldOf w 21 5 ≤ 26 ∧ s.hub.rd fRadTxLenTxLen ≠ 0 ∧
    (fieldOf w 26 1 = 1 ∨ s.hub.rd fRadTxLenTxLen ≤ 125) ∧ s.hub.rad.path.contains 3 = false ∧ s.hub.rad.cmd = none ∧
    s.hub.rad.cal = none ∧ s.hub.rad.held = none ∧ s.hub.supWarned = true :=
  ⟨wRad 3 [] id (fun h => (h.wr fClkSupNowWarn 1).wr fRadTxLenTxLen 20), 0xB1E00000#32, by decide⟩

theorem witness_TransmitUnderWarning_3 : ∃ (s : State) (rail : Fin 12),
    (s.hub.dip rail).on = false ∧ (∀ c, s.hub.rad.cmd = some c → c.op ≠ 3) :=
  ⟨wRad 4 [] (fun r => { r with cmd := some (wCmd 2 0), rx := 50 }) id, 5, ⟨by decide, by intro c hc; cases hc; decide⟩⟩

theorem witness_TransmitUnderWarning_0 : ∃ (h : Hub) (c : RadCmd), c.op = 3 ∧ c.beacon = true ∧ h.supWarned = true :=
    ⟨Hub.reset.wr fClkSupNowWarn 1, { wCmd 3 0 with beacon := true }, by decide⟩

theorem witness_EmptyQueueRead_1 : ∃ (s : State) (q : Fin 64) (payload : Bool),
    s.hub.answers s.fixed s.met .q (0x1A0200 + 0x400 * q.val + 4 * b2n payload) = true ∧
    (NMap.get s.hub.q q).tail = [] ∧ (NMap.get s.hub.q q).mid = [] ∧ (NMap.get s.hub.q q).head = [] :=
  ⟨wSt (wLive [] []), 3, true, by decide⟩

theorem witness_TimebaseLatch : (wSt (wLive [] [])).hub.answers (wSt (wLive [] [])).fixed (wSt (wLive [] [])).met .tm (0x1C0000 + 0x40 * (17 : Fin 18).val) = true := by decide

theorem witness_SupplyEvidence_1 : ∃ (s : State) (rail : Fin 12),
    s.hub.railWatched s.fixed rail = true ∧ s.fixed.variant.hasMet = true ∧ s.met.up = true ∧
    [0, 1, 10, 11].contains rail.val = true :=
  ⟨wMet [] [] (fun m => { m with phase := 2, nextCh := 3, seams := [5#32, 6#32] }) id, 10, by decide⟩

theorem witness_SupplyEvidence_2 : ∃ (s : State) (rail : Fin 12),
    (s.met.up = false ∨ [0, 1, 10, 11].contains rail.val = false ∨ s.fixed.variant.hasMet = false ∨ s.hub.railWatched s.fixed rail = false) :=
  ⟨wMet [] [] id id, 4, by decide⟩

theorem witness_SupplyEvidence_3 : ∃ (s : State) (rail : Fin 12),
    s.fixed.variant.hasMet = true ∧ s.met.up = true ∧ 10 ≤ rail.val ∧ s.met.warn.testBit rail = true ∧
    s.met.lost = 0 ∧ 8 < s.met.slots ∧ (s.hub.dip rail).on = true ∧ (s.hub.dip rail).win ≠ 0 ∧
    (s.hub.dip rail).win - 1 + 80000 ≤ s.hub.cyc :=
  ⟨wMet [] [] (fun m => { m with warn := 0x400 }) (fun h => { h with cyc := 90000, sup := { (default : Sup) with dip := [(10, { (default : Dip) with on := true, low := 2900, win := 5000, start := 1000 })] } }), 10, by decide⟩

theorem witness_SupplyEvidence_4 : ∃ (rail : Fin 12),
    rail.val < 10 :=
  ⟨1, by decide⟩

theorem witness_SupplyEvidence_5 : ∃ (s : State),
    s.fixed.variant.hasMet = true ∧ s.met.measures = true ∧ s.met.cf 9 0 10 1 = 1 ∧ s.met.aligned = false :=
  ⟨wMet [] [(cellKey 15 9 0, 0x400#32)] (fun m => { m with phase := 1, nextCh := 2 }) id, by decide⟩

theorem witness_SupplyEvidence_6 : ∃ (s : State),
    s.fixed.variant.hasMet = true ∧ s.met.stopped = false ∧ s.met.phase = 0 ∧ s.met.warn = 0 ∧ s.met.nextCh < 8 ∧
    s.met.inRot s.met.nextCh = true :=
  ⟨wMet [] [(cellKey 15 3 0, 1#32)] (fun m => { m with nextCh := 3 }) id, by decide⟩

end Sys2Proof.Tests
end

section
/-! SUPPORT. Every command ends in one of the lifts; what the state holds at reset. -/

namespace Sys2Proof.Machine
open Sys2Proof

/-- A command gives the hub and the partition new values, lets the interrupt lines follow (R77), and leaves the rest of the state:
every arm of `exec` is by definition such a lift. -/
theorem exec_latches (c : Instr) (s : State) :
    ∃ h m, exec c s = .next { s with hub := latchIrq s.hub s.met h m, met := m } := by
  cases c <;> exact ⟨_, _, rfl⟩

/-- Settles O47: a lift answers a next state and touches the hub and the partition alone. -/
theorem everyCommandCompletes : Obligations.EveryCommandCompletes := by
  intro c s
  obtain ⟨h, m, e⟩ := exec_latches c s
  exact ⟨_, e, rfl, rfl⟩

/-- At reset every timebase is zero and counts 1.25 ns (R307, R309). -/
theorem State.reset_timebases :
    ∀ n, n < 18 → State.reset.hub.tbVal n = 0 ∧ State.reset.hub.tbIncr n = 0x0140000000 := by decide

/-- At reset the two registers that show the lid's state are the only ones listed. -/
theorem State.reset_reg {a : Nat} (h1 : a ≠ 0x4) (h2 : a ≠ 0x1F0000) : State.reset.hub.reg a = resetWord a := by
  unfold Hub.reg
  change NMap.getD [(0x4, _), (0x1F0000, _)] a _ = _
  rw [NMap.getD_cons, if_neg h1.symm, NMap.getD_cons, if_neg h2.symm, NMap.getD_nil]

/-- Settles O48: the reset state is a literal, and its registers are read through `State.reset_reg`. -/
theorem resetValues : Obligations.ResetValues :=
  ⟨rfl, by decide, by decide, rfl, rfl, rfl, rfl, State.reset_timebases, by decide, rfl, rfl,
    fun _ ha => State.reset_reg ha.1 ha.2⟩

end Sys2Proof.Machine
end

section
/-! SUPPORT. Fields beside the one that is written, of the same register or of another. -/

namespace Sys2Proof.Machine
open Sys2Proof

/-- Two fields, each within a word, share no bit. -/
abbrev Fld.apart (f g : Fld) : Prop :=
  f.lo + f.len ≤ 32 ∧ g.lo + g.len ≤ 32 ∧ (g.addr ≠ f.addr ∨ f.lo + f.len ≤ g.lo ∨ g.lo + g.len ≤ f.lo)

theorem Hub.rd_wr_apart (h : Hub) {f g : Fld} (n : Nat) (hfg : f.apart g) : (h.wr f n).rd g = h.rd g :=
  h.rd_wr_ne n hfg.1 hfg.2.1 hfg.2.2

theorem Hub.is_wr_apart (h : Hub) {f g : Fld} (n : Nat) (hfg : f.apart g) : (h.wr f n).is g = h.is g :=
  Hub.is_congr (h.rd_wr_apart n hfg)

theorem Hub.rd_on_apart (h : Hub) {f g : Fld} (hfg : f.apart g) : (h.on f).rd g = h.rd g := h.rd_wr_apart 1 hfg

theorem Hub.is_on_apart (h : Hub) {f g : Fld} (hfg : f.apart g) : (h.on f).is g = h.is g := h.is_wr_apart 1 hfg

theorem Hub.rd_off_apart (h : Hub) {f g : Fld} (hfg : f.apart g) : (h.off f).rd g = h.rd g := h.rd_wr_apart 0 hfg

theorem Hub.is_off_apart (h : Hub) {f g : Fld} (hfg : f.apart g) : (h.off f).is g = h.is g := h.is_wr_apart 0 hfg

end Sys2Proof.Machine
end

section
/-! SUPPORT. The FCLK steps, the start and the loss of clocks (R10, R11, R15, R16): what each shared operation leaves, and what it
does in each of its cases. -/

namespace Sys2Proof.Machine
open Sys2Proof

/-! ### FCLK steps: fields of `clk.status` and of the clock record they leave -/

/-- A field that no FCLK request writes: neither `slewing` nor `step_deferred`. -/
abbrev Fld.offSteps (f : Fld) : Prop := fClkStatusSlewing.apart f ∧ fClkStatusStepDeferred.apart f

theorem Hub.startSlew_rd (h : Hub) (p : Nat) {f : Fld} (hf : fClkStatusSlewing.apart f) :
    (h.startSlew p).rd f = h.rd f := by
  unfold Hub.startSlew
  dsimp only
  split
  · rfl
  · simp [Hub.rd_on_apart _ hf]

theorem Hub.stepRequest_rd (h : Hub) (p : Nat) {f : Fld} (hf : f.offSteps) : (h.stepRequest p).rd f = h.rd f := by
  obtain ⟨hs, hd⟩ := hf
  unfold Hub.stepRequest
  split
  · exact h.rd_on_apart hd
  split
  · simp [Hub.rd_on_apart _ hd]
  split
  · simp [Hub.rd_on_apart _ hd]
  · exact h.startSlew_rd p hs

theorem Hub.setPlan_rd (h : Hub) (c : Nat) {f : Fld} (hf : f.offSteps) (hp : fClkStatusFclkPlan.apart f) :
    (h.setPlan c).rd f = h.rd f := by
  obtain ⟨hs, hd⟩ := hf
  unfold Hub.setPlan
  dsimp only
  split
  · simp [Hub.rd_wr_apart _ _ hp]
  split
  · rfl
  split
  · simp [Hub.startSlew_rd _ _ hs]
  · simp [Hub.rd_on_apart _ hd]

theorem Hub.resumeDeferred_rd (h : Hub) {f : Fld} (hf : f.offSteps) : h.resumeDeferred.rd f = h.rd f := by
  unfold Hub.resumeDeferred
  split
  · split
    · simp [Hub.stepRequest_rd _ _ hf]
    · rfl
  · rfl

/-- The part of the clock record that no FCLK step changes. -/
abbrev Clk.steady (c : Clk) : Nat × NMap Nat × Bool × Bool × Bool × Bool :=
  (c.step, c.fails, c.gates, c.holdover, c.held, c.recount)

theorem Hub.startSlew_steady (h : Hub) (p : Nat) : (h.startSlew p).clk.steady = h.clk.steady := by
  unfold Hub.startSlew
  dsimp only
  split <;> rfl

theorem Hub.stepRequest_steady (h : Hub) (p : Nat) : (h.stepRequest p).clk.steady = h.clk.steady := by
  unfold Hub.stepRequest
  split
  · rfl
  split
  · rfl
  split
  · rfl
  · exact h.startSlew_steady p

theorem Hub.resumeDeferred_steady (h : Hub) : h.resumeDeferred.clk.steady = h.clk.steady := by
  unfold Hub.resumeDeferred
  split
  · split
    · exact Hub.stepRequest_steady _ _
    · rfl
  · rfl

theorem Hub.resumeDeferred_fails (h : Hub) : h.resumeDeferred.clk.fails = h.clk.fails :=
  congrArg (fun x => x.2.1) h.resumeDeferred_steady

theorem Hub.resumeDeferred_gates (h : Hub) : h.resumeDeferred.clk.gates = h.clk.gates :=
  congrArg (fun x => x.2.2.1) h.resumeDeferred_steady

/-! ### A slew at rest stays at step 0 -/

theorem Hub.startSlew_slewStep (h : Hub) (p : Nat) (h0 : h.clk.slewStep = 0) : (h.startSlew p).clk.slewStep = 0 := by
  unfold Hub.startSlew
  dsimp only
  split
  · exact h0
  · rfl

theorem Hub.stepRequest_slewStep (h : Hub) (p : Nat) (h0 : h.clk.slewStep = 0) : (h.stepRequest p).clk.slewStep = 0 := by
  unfold Hub.stepRequest
  split
  · exact h0
  split
  · exact h0
  split
  · exact h0
  · exact h.startSlew_slewStep p h0

theorem Hub.setPlan_slewStep (h : Hub) (c : Nat) (h0 : h.clk.slewStep = 0) : (h.setPlan c).clk.slewStep = 0 := by
  unfold Hub.setPlan
  dsimp only
  split
  · exact h0
  split
  · exact h0
  split
  · exact Hub.startSlew_slewStep _ _ h0
  · exact h0

/-! ### A request, case by case (R15, R16) -/

theorem Hub.stepRequest_refused {h : Hub} {p : Nat} (hp : h.planFloor < p) :
    h.stepRequest p = h.on fClkStatusStepDeferred := if_pos hp

theorem Hub.stepRequest_held {h : Hub} {p : Nat} (hp : p ≤ h.planFloor) (hs : h.is fClkStatusSlewing = true) :
    h.stepRequest p = (h.modClk (fun c => { c with next := some p })).on fClkStatusStepDeferred := by
  unfold Hub.stepRequest
  rw [if_neg (Nat.not_lt.2 hp), if_pos hs]

theorem Hub.stepRequest_deferred {h : Hub} {p : Nat} (hp : p ≤ h.planFloor) (hs : h.is fClkStatusSlewing = false)
    (hr : h.stepReady = false) :
    h.stepRequest p = (h.modClk (fun c => { c with deferred := some p })).on fClkStatusStepDeferred := by
  unfold Hub.stepRequest
  rw [if_neg (Nat.not_lt.2 hp), if_neg (by simp [hs]), if_pos (by simp [hr])]

theorem Hub.stepRequest_starts {h : Hub} {p : Nat} (hp : p ≤ h.planFloor) (hs : h.is fClkStatusSlewing = false)
    (hr : h.stepReady = true) : h.stepRequest p = h.startSlew p := by
  unfold Hub.stepRequest
  rw [if_neg (Nat.not_lt.2 hp), if_neg (by simp [hs]), if_neg (by simp [hr])]

/-- A slew starts unless FCLK already rests at the point asked for. -/
theorem Hub.startSlew_slewing (h : Hub) (p : Nat) (hs : h.is fClkStatusSlewing = false) :
    (h.startSlew p).is fClkStatusSlewing = decide (p ≠ h.rd fClkStatusFclkPoint) := by
  unfold Hub.startSlew
  dsimp only
  split
  · next e => simp [hs, e]
  · next e => simp [Hub.is_on_same, e, fClkStatusSlewing]

theorem Hub.stepRequest_slewing {h : Hub} {p : Nat} (hp : p ≤ h.planFloor) (hs : h.is fClkStatusSlewing = false)
    (hr : h.stepReady = true) : (h.stepRequest p).is fClkStatusSlewing = decide (p ≠ h.rd fClkStatusFclkPoint) := by
  rw [Hub.stepRequest_starts hp hs hr, Hub.startSlew_slewing _ _ hs]

theorem Hub.startSlew_clk {h : Hub} {p : Nat} (hp : p ≠ h.rd fClkStatusFclkPoint) :
    (h.startSlew p).clk.slewStep = 0 ∧
      (h.startSlew p).clk.slewTo =
        if p < h.rd fClkStatusFclkPoint then h.rd fClkStatusFclkPoint - 1 else h.rd fClkStatusFclkPoint + 1 := by
  unfold Hub.startSlew
  dsimp only
  rw [if_neg hp]
  exact ⟨rfl, rfl⟩

/-! ### The end of a slew -/

/-- The hub with FCLK at rest at the point it slewed to, before a waiting plan or step is looked at. -/
def Hub.rested (h : Hub) : Hub :=
  ((h.wr fClkStatusFclkPoint h.clk.slewTo).off fClkStatusSlewing).modClk (fun c => { c with slewStep := 0 })

/-- The hub after a waiting plan took effect. -/
def Hub.restedPlan (h : Hub) : Hub :=
  match h.rested.clk.plan with
  | some code => h.rested.setPlan code
  | none => h.rested

theorem Hub.slewDone_eq {h : Hub} (hs : h.is fClkStatusSlewing = true) (h64 : h.clk.slewStep = 64) :
    h.slewDone = match h.restedPlan.clk.next with
      | some p => if h.restedPlan.is fClkStatusSlewing then h.restedPlan
          else (h.restedPlan.modClk (fun c => { c with next := none })).stepRequest p
      | none => h.restedPlan := by
  unfold Hub.slewDone
  rw [if_pos (by simp [hs, h64])]
  rfl

/-- At rest FCLK is at the point it slewed to. -/
theorem Hub.rested_point (h : Hub) : h.rested.rd fClkStatusFclkPoint = h.clk.slewTo % 4 := by
  unfold Hub.rested
  simp only [Hub.modClk_rd]
  rw [Hub.rd_off_apart _ (by decide), Hub.rd_wr_same _ _ (by decide)]
  rfl

theorem Hub.rested_slewing (h : Hub) : h.rested.is fClkStatusSlewing = false := by
  unfold Hub.rested
  simp only [Hub.modClk_is]
  exact Hub.is_off_same _ (by decide)

/-- Coming to rest writes `fclk_point` and `slewing` alone. -/
theorem Hub.rested_rd (h : Hub) {f : Fld} (hp : fClkStatusFclkPoint.apart f) (hs : fClkStatusSlewing.apart f) :
    h.rested.rd f = h.rd f := by
  unfold Hub.rested
  simp only [Hub.modClk_rd]
  rw [Hub.rd_off_apart _ hs, Hub.rd_wr_apart _ _ hp]

theorem Hub.rested_stepReady (h : Hub) : h.rested.stepReady = h.stepReady := by
  have ht : h.rested.is fClkStatusTimeLock = h.is fClkStatusTimeLock := Hub.is_congr (h.rested_rd (by decide) (by decide))
  have hf : h.rested.is fClkStatusFabLock = h.is fClkStatusFabLock := Hub.is_congr (h.rested_rd (by decide) (by decide))
  unfold Hub.stepReady
  rw [ht, hf]
  rfl

theorem Hub.restedPlan_none {h : Hub} (hp : h.clk.plan = none) : h.restedPlan = h.rested := by
  unfold Hub.restedPlan
  rw [show h.rested.clk.plan = none from hp]

theorem Hub.restedPlan_rests (h : Hub) :
    h.restedPlan.rd fClkStatusFclkPoint = h.clk.slewTo % 4 ∧ h.restedPlan.clk.slewStep = 0 := by
  unfold Hub.restedPlan
  split
  · rw [Hub.setPlan_rd _ _ (by decide) (by decide)]
    exact ⟨h.rested_point, Hub.setPlan_slewStep _ _ rfl⟩
  · exact ⟨h.rested_point, rfl⟩

theorem Hub.slewDone_rests {h : Hub} (hs : h.is fClkStatusSlewing = true) (h64 : h.clk.slewStep = 64) :
    h.slewDone.rd fClkStatusFclkPoint = h.clk.slewTo % 4 ∧ h.slewDone.clk.slewStep = 0 := by
  rw [Hub.slewDone_eq hs h64]
  obtain ⟨hpt, hst⟩ := h.restedPlan_rests
  split
  · split
    · exact ⟨hpt, hst⟩
    · rw [Hub.stepRequest_rd _ _ (by decide)]
      exact ⟨hpt, Hub.stepRequest_slewStep _ _ hst⟩
  · exact ⟨hpt, hst⟩

/-- With nothing waiting FCLK rests. -/
theorem Hub.slewDone_idle {h : Hub} (hs : h.is fClkStatusSlewing = true) (h64 : h.clk.slewStep = 64)
    (hp : h.clk.plan = none) (hn : h.clk.next = none) : h.slewDone.is fClkStatusSlewing = false := by
  rw [Hub.slewDone_eq hs h64, Hub.restedPlan_none hp, show h.rested.clk.next = none from hn]
  exact h.rested_slewing

/-- A held request that no plan refuses starts its own slew, unless FCLK already rests there. -/
theorem Hub.slewDone_next {h : Hub} {n : Nat} (hs : h.is fClkStatusSlewing = true) (h64 : h.clk.slewStep = 64)
    (hp : h.clk.plan = none) (hn : h.clk.next = some n) (hle : n ≤ h.rd fClkStatusFclkPlan) (hr : h.stepReady = true) :
    h.slewDone.is fClkStatusSlewing = decide (n ≠ h.clk.slewTo % 4) := by
  rw [Hub.slewDone_eq hs h64, Hub.restedPlan_none hp, show h.rested.clk.next = some n from hn]
  dsimp only
  rw [if_neg (by simp [h.rested_slewing])]
  have floor : (h.rested.modClk (fun c => { c with next := none })).planFloor = h.rd fClkStatusFclkPlan := by
    unfold Hub.planFloor
    rw [show (h.rested.modClk (fun c => { c with next := none })).clk.plan = none from hp]
    exact h.rested_rd (by decide) (by decide)
  rw [Hub.stepRequest_slewing (hle.trans_eq floor.symm) h.rested_slewing (h.rested_stepReady.trans hr), Hub.modClk_rd,
    h.rested_point]

/-! ### The statement -/

theorem Hub.stepReady_iff (h : Hub) : h.stepReady = true ↔
    h.clk.holdover = false ∧ h.is fClkStatusTimeLock = true ∧ h.is fClkStatusFabLock = true := by
  simp [Hub.stepReady, and_assoc]

/-- Settles O3: each clause is one case of `Hub.stepRequest` or a fact about the end of a slew, read behind the interrupt latch. -/
theorem fclkSteps : Obligations.FclkSteps := by
  refine ⟨fun s p hp => ⟨_, rfl, ?_⟩, fun s p hp hs => ⟨_, rfl, ?_⟩, fun s p hp hs hl => ⟨_, rfl, ?_⟩,
    fun s p hp hs hh ht hf hne => ⟨_, rfl, ?_⟩, fun s hs hlt => ⟨_, rfl, ?_⟩, fun s hs h64 => ⟨_, rfl, ?_⟩⟩ <;>
    simp (disch := decide) only [latchIrq_is, latchIrq_rd, latchIrq_clk]
  · -- FCLK_STEP_REQUEST, refused
    rw [Hub.stepRequest_refused hp]
    exact ⟨Hub.is_on_same _ (by decide) (by decide), rfl, Hub.rd_on_apart _ (by decide), Hub.is_on_apart _ (by decide)⟩
  · -- FCLK_STEP_REQUEST, held
    rw [Hub.stepRequest_held hp hs]
    rfl
  · -- FCLK_STEP_REQUEST, deferred
    have hr : s.hub.stepReady = false := by
      rcases hl with hl | hl | hl <;> simp [Hub.stepReady, hl]
    rw [Hub.stepRequest_deferred hp hs hr]
    exact ⟨rfl, Hub.is_on_same _ (by decide) (by decide)⟩
  · -- FCLK_STEP_REQUEST, started
    have hr := s.hub.stepReady_iff.2 ⟨hh, ht, hf⟩
    obtain ⟨hstep, hto⟩ := Hub.startSlew_clk hne
    rw [Hub.stepRequest_slewing hp hs hr, Hub.stepRequest_starts hp hs hr]
    exact ⟨by simpa using hne, hstep, Hub.startSlew_rd _ _ (by decide), hto⟩
  · -- FCLK_SLEW_STEP
    rw [if_pos (by simp [hs, hlt])]
    exact ⟨rfl, hs⟩
  · -- FCLK_SLEW_DONE
    obtain ⟨hpoint, hstep⟩ := Hub.slewDone_rests hs h64
    exact ⟨hpoint, hstep, Hub.slewDone_idle hs h64, fun n => Hub.slewDone_next hs h64⟩

end Sys2Proof.Machine
end

section
/-! SUPPORT. The start of the clocks (R10, R11). -/

namespace Sys2Proof.Machine
open Sys2Proof

/-! ### POR release -/

@[simp] theorem Hub.showRole_clk (h : Hub) (fx : Fixed) : (h.showRole fx).clk = h.clk := by
  unfold Hub.showRole
  dsimp only
  (repeat' split) <;> rfl

theorem Hub.showRole_reg (h : Hub) (fx : Fixed) {a : Nat} (hg : a ≠ rGlbStatus) (he : a ≠ rCasEnum) :
    (h.showRole fx).reg a = h.reg a := by
  have master (n : Nat) : (h.wr fGlbStatusMaster n).reg a = h.reg a := h.reg_wr_ne _ n hg
  have enum (g : Hub) (n : Nat) : (g.wr fCasEnumState n).reg a = g.reg a := g.reg_wr_ne _ n he
  unfold Hub.showRole
  dsimp only
  split
  · rw [enum, master]
  split
  · rw [enum, master]
  · exact master _

theorem Hub.showRole_rd (h : Hub) (fx : Fixed) {f : Fld} (hg : f.addr ≠ rGlbStatus) (he : f.addr ≠ rCasEnum) :
    (h.showRole fx).rd f = h.rd f := Hub.rd_congr (h.showRole_reg fx hg he)

/-- POR release starts WCLK and takes the straps and the banks' classes. -/
theorem Hub.porRelease_starts {h : Hub} (fx : Fixed) (h0 : h.clk.step = 0) (ha : h.asleep = false) :
    (h.porRelease fx).clk = { h.clk with step := 1 } ∧ (h.porRelease fx).rd fClkSupBankBank = fx.banks.toNat ∧
      (h.porRelease fx).rd fLdrBootStraps = fx.bootsrc.val := by
  have bank (g : Hub) : (g.wr fClkSupBankBank fx.banks.toNat).rd fClkSupBankBank = fx.banks.toNat := by
    rw [Hub.rd_wr_same _ _ (by decide)]
    exact Nat.mod_eq_of_lt fx.banks.isLt
  have straps (g : Hub) : (g.wr fLdrBootStraps fx.bootsrc.val).rd fLdrBootStraps = fx.bootsrc.val := by
    rw [Hub.rd_wr_same _ _ (by decide)]
    exact Nat.mod_eq_of_lt fx.bootsrc.isLt
  unfold Hub.porRelease
  dsimp only
  rw [if_neg (by simp [h0, ha])]
  split
  · refine ⟨by simp, ?_, ?_⟩ <;> simp (disch := decide) only [Hub.showRole_rd, Hub.rd_wr_apart, bank, straps]
  · refine ⟨by simp, ?_, ?_⟩
    · change Hub.rd (Hub.wr _ _ _) _ = _
      simp (disch := decide) only [Hub.showRole_rd, Hub.rd_wr_apart, Hub.rd_on_apart, bank]
    · change Hub.rd (Hub.wr _ _ _) _ = _
      simp (disch := decide) only [Hub.showRole_rd, Hub.rd_wr_apart, Hub.rd_on_apart, straps]

/-! ### Counts of REFCLK -/

/-- A count before the start: a passing one enables the PLLs, a failing one is repeated. -/
theorem Hub.countEnd_start {h : Hub} (pass : Bool) (h1 : h.clk.step = 1) :
    (h.countEnd pass).clk.step = (if pass then 2 else 1) ∧
      (h.countEnd pass).is fClkStatusRefclkOk = (pass || h.is fClkStatusRefclkOk) ∧
      (h.countEnd pass).clk.recount = !pass ∧ (h.countEnd pass).clk.gates = h.clk.gates := by
  unfold Hub.countEnd
  rw [if_pos h1]
  cases pass with
  | false => exact ⟨h1, rfl, rfl, rfl⟩
  | true => exact ⟨rfl, Hub.is_on_same _ (by decide) (by decide), rfl, rfl⟩

/-- In holdover a passing count ends the holdover. -/
theorem Hub.countEnd_holdover {h : Hub} (hh : h.clk.holdover = true) (h1 : h.clk.step ≠ 1) :
    h.countEnd true = (h.on fClkStatusRefclkOk).modClk (fun c => { c with holdover := false }) := by
  unfold Hub.countEnd
  rw [if_neg h1, if_pos (by simp [hh])]

/-! ### A PLL locks -/

theorem Hub.mayLock_iff (h : Hub) {p : Pll} : h.mayLock p = true ↔
    h.is fClkStatusRefclkOk = true ∧ h.clk.held = false ∧ (p = .time → h.clk.holdover = false) ∧
      (p = .fabric → h.is fClkStatusTimeLock = true) ∧ (p = .link → h.linkPllOff = false) := by
  cases p <;> simp [Hub.mayLock, and_assoc]

/-- The three lock bits are bits 5 to 7 of `clk.status`. -/
theorem lockBit_place (p : Pll) :
    (lockBit p).addr = rClkStatus ∧ (lockBit p).len = 1 ∧ 5 ≤ (lockBit p).lo ∧ (lockBit p).lo ≤ 7 := by
  cases p <;> decide

theorem lockBit_offSteps (p : Pll) : (lockBit p).offSteps := by cases p <;> decide

@[simp] theorem lockBit_addr_ne_wake (p : Pll) : (lockBit p).addr ≠ 0x30 := by cases p <;> decide

theorem Hub.gatesOpen_reg (h : Hub) {a : Nat} (ha : a ≠ rGlbStatus) : h.gatesOpen.reg a = h.reg a := by
  unfold Hub.gatesOpen
  split
  · dsimp only
    split
    · rw [Hub.reg_wr_ne _ _ _ ha]
      rfl
    · rfl
  · rfl

theorem Hub.gatesOpen_fails (h : Hub) : h.gatesOpen.clk.fails = h.clk.fails := by
  unfold Hub.gatesOpen
  split
  · dsimp only
    split <;> rfl
  · rfl

/-- With the reference and both PLLs the gates are open. -/
theorem Hub.gatesOpen_gates {h : Hub} (hr : h.is fClkStatusRefclkOk = true) (ht : h.is fClkStatusTimeLock = true)
    (hf : h.is fClkStatusFabLock = true) (hh : h.clk.held = false) : h.gatesOpen.clk.gates = true := by
  unfold Hub.gatesOpen
  split
  · dsimp only
    split <;> rfl
  · next hc => simpa [hr, ht, hf, hh] using hc

/-- The hub with a PLL's lock bit set and its failed attempts forgotten. -/
def Hub.lockShown (h : Hub) (p : Pll) : Hub :=
  (h.on (lockBit p)).modClk (fun c => { c with fails := NMap.set c.fails (pllNo p) 0 })

theorem Hub.pllLocked_eq {h : Hub} {p : Pll} (hm : h.mayLock p = true) :
    h.pllLocked p = (h.lockShown p).gatesOpen.resumeDeferred := if_pos hm

theorem Hub.pllLocked_rd {h : Hub} {p : Pll} {f : Fld} (hm : h.mayLock p = true) (hf : f.offSteps)
    (ha : f.addr ≠ rGlbStatus) : (h.pllLocked p).rd f = (h.lockShown p).rd f := by
  rw [Hub.pllLocked_eq hm, Hub.resumeDeferred_rd _ hf]
  exact Hub.rd_congr (Hub.gatesOpen_reg _ ha)

theorem Hub.lockShown_is (h : Hub) (p : Pll) : (h.lockShown p).is (lockBit p) = true := by
  obtain ⟨-, hlen, -, hlo⟩ := lockBit_place p
  exact Hub.is_on_same _ (by omega) (by omega)

theorem Hub.lockShown_refclkOk (h : Hub) (p : Pll) : (h.lockShown p).is fClkStatusRefclkOk = h.is fClkStatusRefclkOk := by
  cases p <;> exact Hub.is_on_apart _ (by decide)

/-- A PLL that locks shows its lock bit, and its failed attempts are forgotten. -/
theorem Hub.pllLocked_shows {h : Hub} {p : Pll} (hm : h.mayLock p = true) :
    (h.pllLocked p).is (lockBit p) = true ∧ NMap.get (h.pllLocked p).clk.fails (pllNo p) = 0 := by
  have hfails : (h.pllLocked p).clk.fails = NMap.set h.clk.fails (pllNo p) 0 := by
    rw [Hub.pllLocked_eq hm, Hub.resumeDeferred_fails, Hub.gatesOpen_fails]
    rfl
  have ha : (lockBit p).addr ≠ rGlbStatus := by rw [(lockBit_place p).1]; decide
  exact ⟨(Hub.is_congr (Hub.pllLocked_rd hm (lockBit_offSteps p) ha)).trans (h.lockShown_is p), by
    rw [hfails, NMap.get_set_same]⟩

/-- After a PLL locked, the gates are open if the time and the fabric PLL both show their locks. -/
theorem Hub.pllLocked_gates {h : Hub} {p : Pll} (hm : h.mayLock p = true)
    (ht : (h.pllLocked p).is fClkStatusTimeLock = true) (hf : (h.pllLocked p).is fClkStatusFabLock = true) :
    (h.pllLocked p).clk.gates = true := by
  obtain ⟨hr, hh, -⟩ := h.mayLock_iff.1 hm
  rw [Hub.is_congr (Hub.pllLocked_rd hm (by decide) (by decide))] at ht hf
  rw [Hub.pllLocked_eq hm, Hub.resumeDeferred_gates]
  exact Hub.gatesOpen_gates ((h.lockShown_refclkOk p).trans hr) ht hf hh

/-! ### The statement -/

/-- Settles O1: POR release, a count, the trim and a lock by their own lemmas, read behind the interrupt latch. -/
theorem clockStart : Obligations.ClockStart := by
  refine ⟨fun s h0 ha => ⟨_, rfl, ?_⟩, fun s pass h1 hr => ⟨_, rfl, ?_⟩, fun s pass h1 hr => ⟨_, rfl, ?_⟩,
    fun s hr h0 => ⟨_, rfl, ?_⟩, fun s p hr hh ht hf hl => ⟨_, rfl, ?_⟩⟩ <;>
    simp (disch := decide) only [latchIrq_rd, latchIrq_is, latchIrq_clk]
  · -- POR_RELEASE
    obtain ⟨hclk, hbank, hstraps⟩ := Hub.porRelease_starts s.fixed h0 ha
    rw [hclk]
    exact ⟨rfl, hbank, hstraps, rfl⟩
  · -- REFCLK_COUNT_WINDOW_END
    rw [if_neg (by simp [hr])]
    exact Hub.countEnd_start pass h1
  · -- REFCLK_RECOUNT
    rw [if_pos hr]
    exact Hub.countEnd_start pass h1
  · -- WCLK_TRIM_COMPLETE
    rw [if_pos (by simp [hr, h0])]
    exact ⟨Hub.is_on_same _ (by decide) (by decide), (Hub.is_on_apart _ (by decide)).trans hr⟩
  · -- PLL_LOCKED
    have hm := s.hub.mayLock_iff.2 ⟨hr, hh, ht, hf, hl⟩
    obtain ⟨hlock, hfails⟩ := Hub.pllLocked_shows hm
    rw [latchIrq_is _ _ _ _ (lockBit_addr_ne_wake p)]
    exact ⟨hlock, hfails, Hub.pllLocked_gates hm⟩

end Sys2Proof.Machine
end

section
/-! SUPPORT. The loss and the return of clocks (R11, R446). -/

namespace Sys2Proof.Machine
open Sys2Proof

/-! ### A PLL misses its lock time -/

/-- The first miss restarts the PLL. -/
theorem Hub.pllTimeout_restart {fx : Fixed} {h : Hub} {p : Pll} (hm : h.mayLock p = true)
    (hl : h.is (lockBit p) = false) (h0 : NMap.get h.clk.fails (pllNo p) = 0) :
    h.pllTimeout fx p = h.modClk (fun c => { c with fails := NMap.set c.fails (pllNo p) 1 }) := by
  unfold Hub.pllTimeout
  rw [if_neg (by simp [hm, hl]), if_pos h0]

/-- The second miss fails it. -/
theorem Hub.pllTimeout_fail {fx : Fixed} {h : Hub} {p : Pll} (hm : h.mayLock p = true)
    (hl : h.is (lockBit p) = false) (h0 : NMap.get h.clk.fails (pllNo p) ≠ 0) : h.pllTimeout fx p = h.pllFail fx p := by
  unfold Hub.pllTimeout
  rw [if_neg (by simp [hm, hl]), if_neg h0]

/-- A failed PLL holds the domains, halts the hub and ends every recovery. -/
theorem Hub.pllFail_halts (fx : Fixed) (h : Hub) (p : Pll) :
    (h.pllFail fx p).clk.held = true ∧ (h.pllFail fx p).rd fGlbStatusRun = 6 ∧ (h.pllFail fx p).flt.recs = [] := by
  unfold Hub.pllFail
  exact ⟨by simp, Hub.rd_wr_same _ _ (by decide), by simp⟩

/-- A failed PLL drives IRQ1 active (R11). -/
theorem irqActive_of_held {h : Hub} (m : Met) (hh : h.clk.held = true) : irqActive h m 1 = true := by
  simp [irqActive, hh]

/-! ### REFCLK stops -/

/-- A lost reference: what `clk.status` shows, the holdover, the gates and the timebases. -/
theorem Hub.refclkLost_shows {h : Hub} (hr : h.is fClkStatusRefclkOk = true) :
    h.refclkLost.is fClkStatusRefclkOk = false ∧ h.refclkLost.is fClkStatusTimeLock = false ∧
      h.refclkLost.is fClkStatusRefclkLost = true ∧ h.refclkLost.is fClkStatusLockLost = true ∧
      h.refclkLost.clk = { h.clk with holdover := true } ∧ h.refclkLost.tb = h.tb := by
  unfold Hub.refclkLost
  rw [if_pos hr]
  refine ⟨?_, ?_, ?_, ?_, by simp, by simp⟩ <;>
    simp (disch := decide) only [Hub.fault_is, Hub.modClk_is, Hub.is_on_apart, Hub.is_off_apart, Hub.is_on_same, Hub.is_off_same]

/-! ### A PLL loses its lock -/

/-- With no recovery that meets the condition nothing escalates. -/
theorem Hub.escalateAll_none {fx : Fixed} {h : Hub} {c : Rec → Bool} (hc : ∀ r ∈ h.flt.recs, c r = false) :
    h.escalateAll fx c = h := by
  unfold Hub.escalateAll
  rw [List.filter_eq_nil_iff.2 (by simpa using hc), List.foldl_nil]

/-- Where no running recovery needs the PLL its loss is shown and reported, and nothing else happens. -/
theorem Hub.pllLost_eq {fx : Fixed} {h : Hub} {p : Pll} (hl : h.is (lockBit p) = true)
    (hc : ∀ r ∈ h.flt.recs, runsOn r.scope p = false) :
    h.pllLost fx p = ((h.off (lockBit p)).on fClkStatusLockLost).fault 0x02 0 0xCD 0#32 0#32 := by
  unfold Hub.pllLost
  rw [if_pos hl, Hub.escalateAll_none (by simpa using hc)]

theorem Hub.pllLost_lockBit (h : Hub) (p : Pll) : ((h.off (lockBit p)).on fClkStatusLockLost).is (lockBit p) = false := by
  cases p <;> simp (disch := decide) only [lockBit, Hub.is_on_apart, Hub.is_off_same]

/-- Settles O2: each clause is a case of the PLLs' and REFCLK's events, read behind the interrupt latch. -/
theorem clockLoss : Obligations.ClockLoss := by
  refine ⟨fun s p hm hl h0 => ⟨_, rfl, ?_⟩, fun s p hm hl h0 => ⟨_, rfl, ?_⟩, fun s hg hr => ⟨_, rfl, ?_⟩,
    fun s hh h1 hc => ⟨_, rfl, ?_⟩, fun s hh h1 => ⟨_, rfl, ?_⟩, fun s p hl hc => ⟨_, rfl, ?_⟩⟩ <;>
    simp (disch := decide) only [latchIrq_rd, latchIrq_is, latchIrq_clk, latchIrq_flt, latchIrq_tb]
  · -- PLL_LOCK_TIMEOUT, the first
    rw [Hub.pllTimeout_restart hm hl h0]
    exact ⟨by simp [Hub.modClk], (s.hub.mayLock_iff.1 hm).2.1, fun a ha => latchIrq_reg _ _ _ _ ha⟩
  · -- PLL_LOCK_TIMEOUT, the second
    rw [Hub.pllTimeout_fail hm hl h0]
    obtain ⟨hheld, hrun, hrecs⟩ := s.hub.pllFail_halts s.fixed p
    exact ⟨hheld, hrun, hrecs, irqActive_of_held _ (by rw [latchIrq_clk, hheld])⟩
  · -- REFCLK_LOST
    rw [if_pos hg]
    obtain ⟨hok, htime, hlost, hlock, hclk, htb⟩ := Hub.refclkLost_shows hr
    rw [hclk]
    exact ⟨hok, htime, hlost, hlock, rfl, hg, htb⟩
  · -- REFCLK_COUNT_WINDOW_END
    rw [if_neg (by simp [hc]), Hub.countEnd_holdover hh h1]
    exact ⟨rfl, Hub.is_on_same _ (by decide) (by decide), rfl⟩
  · -- REFCLK_RETURN
    rw [if_pos hh, Hub.countEnd_holdover hh h1]
    exact ⟨rfl, Hub.is_on_same _ (by decide) (by decide), Hub.is_on_apart _ (by decide), rfl⟩
  · -- PLL_LOST
    have ha : (lockBit p).addr < 0x1F8000 := by rw [(lockBit_place p).1]; decide
    rw [latchIrq_is _ _ _ _ (lockBit_addr_ne_wake p), Hub.pllLost_eq hl hc, Hub.fault_is _ _ _ _ _ _ (.inl ha)]
    simp (disch := decide) [Hub.pllLost_lockBit, Hub.fault_is, Hub.is_on_same]

end Sys2Proof.Machine
end

section
/-! SUPPORT. What the clock and supply commands leave unchanged. -/

namespace Sys2Proof.Machine
open Sys2Proof

/-! ### Bits of a register beside the field that is written -/

/-- A write of a field leaves every other bit of its register. -/
theorem Hub.getLsbD_reg_wr (h : Hub) {f : Fld} (n : Nat) {b : Nat} (hf : f.lo + f.len ≤ 32)
    (hb : b < f.lo ∨ f.lo + f.len ≤ b) : ((h.wr f n).reg f.addr).getLsbD b = (h.reg f.addr).getLsbD b := by
  rw [Hub.reg_wr_same]
  by_cases h32 : b < 32
  · rw [getLsbD_putField _ _ _ hf h32, if_neg (by omega)]
  · rw [BitVec.getLsbD_of_ge _ _ (by omega), BitVec.getLsbD_of_ge _ _ (by omega)]

/-- Clearing bit `r` of a field leaves every other bit of its register. -/
theorem Hub.getLsbD_reg_wr_clear (h : Hub) {f : Fld} {r b : Nat} (hf : f.lo + f.len ≤ 32) (hr : r < f.len)
    (hb : b ≠ f.lo + r) :
    ((h.wr f (h.rd f &&& (2 ^ f.len - 1 - 2 ^ r))).reg f.addr).getLsbD b = (h.reg f.addr).getLsbD b := by
  by_cases hin : f.lo ≤ b ∧ b < f.lo + f.len
  · obtain ⟨i, rfl⟩ := Nat.exists_eq_add_of_le hin.1
    have hi : i < f.len := by omega
    have hir : r ≠ i := by omega
    rw [Hub.reg_wr_same, getLsbD_putField _ _ _ hf (by omega), if_pos hin, Nat.add_sub_cancel_left, Nat.testBit_mod_two_pow,
      Nat.testBit_and, Nat.sub_sub, Nat.add_comm 1, Nat.testBit_two_pow_sub_succ (Nat.pow_lt_pow_right (by omega) hr),
      Nat.testBit_two_pow_of_ne hir]
    simp [Hub.rd, fieldOf, hi, BitVec.testBit_toNat]
  · exact h.getLsbD_reg_wr _ hf (by omega)

/-- Behind the interrupt latch a hub is the same but for its registers. -/
theorem latchIrq_eq_of {h0 g k : Hub} {m0 m : Met} (hg : g = k) :
    latchIrq h0 m0 g m = { k with regs := (latchIrq h0 m0 g m).regs } := by
  subst hg
  exact latchIrq_eq h0 m0 g m

/-! ### Commands that change the clock record and `clk.status` alone -/

/-- A hub that differs from another in its clock record and in `clk.status` alone. -/
structure Hub.ClkFrame (h g : Hub) : Prop where
  records : g = { h with regs := g.regs, clk := g.clk }
  regs : ∀ a, a ≠ rClkStatus → g.reg a = h.reg a

theorem Hub.ClkFrame.refl (h : Hub) : h.ClkFrame h := ⟨rfl, fun _ _ => rfl⟩

theorem Hub.ClkFrame.trans {h g k : Hub} (hg : h.ClkFrame g) (gk : g.ClkFrame k) : h.ClkFrame k where
  records := by rw [gk.records, hg.records]
  regs a ha := (gk.regs a ha).trans (hg.regs a ha)

theorem Hub.ClkFrame.modClk {h g : Hub} (hg : h.ClkFrame g) (f : Clk → Clk) : h.ClkFrame (g.modClk f) :=
  hg.trans ⟨rfl, fun _ _ => rfl⟩

theorem Hub.ClkFrame.wr {h g : Hub} (hg : h.ClkFrame g) {f : Fld} (hf : f.addr = rClkStatus) (n : Nat) :
    h.ClkFrame (g.wr f n) := hg.trans ⟨rfl, fun _ ha => Hub.reg_wr_ne _ _ _ (hf ▸ ha)⟩

theorem Hub.ClkFrame.on {h g : Hub} (hg : h.ClkFrame g) {f : Fld} (hf : f.addr = rClkStatus) : h.ClkFrame (g.on f) :=
  hg.wr hf 1

theorem Hub.ClkFrame.off {h g : Hub} (hg : h.ClkFrame g) {f : Fld} (hf : f.addr = rClkStatus) : h.ClkFrame (g.off f) :=
  hg.wr hf 0

theorem Hub.startSlew_clkFrame (h : Hub) (p : Nat) : h.ClkFrame (h.startSlew p) := by
  unfold Hub.startSlew
  dsimp only
  split
  · exact .refl h
  · exact ((Hub.ClkFrame.refl h).modClk _).on rfl

theorem Hub.stepRequest_clkFrame (h : Hub) (p : Nat) : h.ClkFrame (h.stepRequest p) := by
  unfold Hub.stepRequest
  split
  · exact (Hub.ClkFrame.refl h).on rfl
  split
  · exact ((Hub.ClkFrame.refl h).modClk _).on rfl
  split
  · exact ((Hub.ClkFrame.refl h).modClk _).on rfl
  · exact h.startSlew_clkFrame p

theorem Hub.setPlan_clkFrame (h : Hub) (c : Nat) : h.ClkFrame (h.setPlan c) := by
  unfold Hub.setPlan
  dsimp only
  split
  · exact ((Hub.ClkFrame.refl h).modClk _).wr rfl c
  split
  · exact (Hub.ClkFrame.refl h).modClk _
  split
  · exact ((Hub.ClkFrame.refl h).modClk _).trans (Hub.startSlew_clkFrame _ c)
  · exact (((Hub.ClkFrame.refl h).modClk _).modClk _).on rfl

theorem Hub.restedPlan_clkFrame (h : Hub) : h.ClkFrame h.restedPlan := by
  have rest : h.ClkFrame h.rested := (((Hub.ClkFrame.refl h).wr rfl _).off rfl).modClk _
  unfold Hub.restedPlan
  split
  · exact rest.trans (Hub.setPlan_clkFrame _ _)
  · exact rest

theorem Hub.slewDone_clkFrame (h : Hub) : h.ClkFrame h.slewDone := by
  by_cases hs : h.is fClkStatusSlewing = true ∧ h.clk.slewStep = 64
  · rw [Hub.slewDone_eq hs.1 hs.2]
    split
    · split
      · exact h.restedPlan_clkFrame
      · exact (h.restedPlan_clkFrame.modClk _).trans (Hub.stepRequest_clkFrame _ _)
    · exact h.restedPlan_clkFrame
  · unfold Hub.slewDone
    rw [if_neg (by simpa using hs)]
    exact .refl h

theorem Hub.countEnd_clkFrame (h : Hub) (pass : Bool) : h.ClkFrame (h.countEnd pass) := by
  unfold Hub.countEnd
  split
  · split
    · exact ((Hub.ClkFrame.refl h).on rfl).modClk _
    · exact (Hub.ClkFrame.refl h).modClk _
  split
  · exact ((Hub.ClkFrame.refl h).on rfl).modClk _
  · exact .refl h

theorem Hub.ClkFrame.latch {h g : Hub} (hg : h.ClkFrame g) (h0 : Hub) (m0 m : Met) :
    latchIrq h0 m0 g m = { h with regs := (latchIrq h0 m0 g m).regs, clk := (latchIrq h0 m0 g m).clk } ∧
      ∀ a, a ≠ 0x30 ∧ a ≠ rClkStatus → (latchIrq h0 m0 g m).reg a = h.reg a := by
  refine ⟨?_, fun a ha => (latchIrq_reg _ _ _ _ ha.1).trans (hg.regs a ha.2)⟩
  rw [latchIrq_clk]
  exact latchIrq_eq_of hg.records

/-! ### Commands that change one dip record alone -/

/-- A hub that differs from another in one rail's dip record alone. -/
structure Hub.DipFrame (r : Nat) (h g : Hub) : Prop where
  records : g = { h with sup := { h.sup with dip := g.sup.dip } }
  dips : ∀ k, k ≠ r → g.dip k = h.dip k

theorem Hub.DipFrame.refl (r : Nat) (h : Hub) : h.DipFrame r h := ⟨rfl, fun _ _ => rfl⟩

theorem Hub.setDip_dipFrame (h : Hub) (r : Nat) (d : Dip) : h.DipFrame r (h.setDip r d) :=
  ⟨rfl, fun _ hk => NMap.get_set_ne _ _ hk⟩

theorem latchIrq_dip (h0 : Hub) (m0 : Met) (h : Hub) (m : Met) (k : Nat) : (latchIrq h0 m0 h m).dip k = h.dip k := by
  unfold Hub.dip
  rw [latchIrq_sup]

theorem Hub.DipFrame.latch {r : Nat} {h g : Hub} (hg : h.DipFrame r g) (h0 : Hub) (m0 m : Met) :
    latchIrq h0 m0 g m = { h with regs := (latchIrq h0 m0 g m).regs, sup := (latchIrq h0 m0 g m).sup } ∧
      (latchIrq h0 m0 g m).sup = { h.sup with dip := (latchIrq h0 m0 g m).sup.dip } ∧
      (∀ k, k ≠ r → (latchIrq h0 m0 g m).dip k = h.dip k) ∧
      ∀ a, a ≠ 0x30 → (latchIrq h0 m0 g m).reg a = h.reg a := by
  have hsup : g.sup = { h.sup with dip := g.sup.dip } := congrArg Hub.sup hg.records
  refine ⟨?_, ?_, fun k hk => (latchIrq_dip _ _ _ _ k).trans (hg.dips k hk), fun a ha =>
    (latchIrq_reg _ _ _ _ ha).trans (Hub.reg_congr (congrArg Hub.regs hg.records) a)⟩ <;> rw [latchIrq_sup]
  · rw [hsup]
    exact latchIrq_eq_of hg.records
  · exact hsup

/-! ### Release of a rail (R494) -/

/-- The hub with a rail no longer held. -/
def Hub.railFreed (h : Hub) (r : Nat) : Hub := h.wr fClkSupNowHeld (h.rd fClkSupNowHeld &&& (4095 - 2 ^ r))

theorem Hub.railFreed_bit (h : Hub) {r b : Nat} (hr : r < 12) (hb : b ≠ 16 + r) :
    ((h.railFreed r).reg rClkSupNow).getLsbD b = (h.reg rClkSupNow).getLsbD b :=
  h.getLsbD_reg_wr_clear (f := fClkSupNowHeld) (by decide) hr hb

theorem Hub.railFreed_reg (h : Hub) (r : Nat) {a : Nat} (ha : a ≠ rClkSupNow) : (h.railFreed r).reg a = h.reg a :=
  h.reg_wr_ne _ _ ha

/-! ### A wake asked for (R504) -/

/-- Asking for a wake records its source alone. -/
theorem Hub.askWake_frame (h : Hub) (src : Nat) :
    h.askWake src = { h with sup := { h.sup with wake := (h.askWake src).sup.wake } } ∧ (h.askWake src).regs = h.regs := by
  unfold Hub.askWake
  split <;> exact ⟨rfl, rfl⟩

/-! ### The statement -/

/-- Settles O53: each command's frame is proved of its function and read behind the interrupt latch. -/
theorem frameClocksAndSupplies : Obligations.FrameClocksAndSupplies := by
  refine ⟨fun s p => ⟨_, rfl, rfl, (s.hub.stepRequest_clkFrame p).latch _ _ _⟩, fun s => ⟨_, rfl, rfl, ?_⟩,
    fun s => ⟨_, rfl, rfl, s.hub.slewDone_clkFrame.latch _ _ _⟩,
    fun s pass => ⟨_, rfl, rfl, Hub.ClkFrame.latch ?_ _ _ _⟩, fun s pass => ⟨_, rfl, rfl, Hub.ClkFrame.latch ?_ _ _ _⟩,
    fun s => ⟨_, rfl, rfl, ?_⟩, fun s rail hi => ⟨_, rfl, rfl, ?_⟩,
    fun s rail mv => ⟨_, rfl, rfl, Hub.DipFrame.latch ?_ _ _ _⟩, fun s rail => ⟨_, rfl, rfl, Hub.DipFrame.latch ?_ _ _ _⟩,
    fun s => ⟨_, rfl, rfl, latchIrq_eq _ _ _ _, fun a ha => latchIrq_reg _ _ _ _ ha⟩,
    fun s => ⟨_, rfl, rfl, ?_⟩, fun s => ⟨_, rfl, rfl, ?_⟩⟩ <;>
    simp only [latchIrq_clk, latchIrq_hlt, latchIrq_sup]
  · -- FCLK_SLEW_STEP
    split <;> exact ⟨latchIrq_eq _ _ _ _, fun a ha => latchIrq_reg _ _ _ _ ha⟩
  · -- REFCLK_COUNT_WINDOW_END
    split
    · exact .refl _
    · exact s.hub.countEnd_clkFrame pass
  · -- REFCLK_RECOUNT
    split
    · exact s.hub.countEnd_clkFrame pass
    · exact .refl _
  · -- WCLK_TRIM_COMPLETE
    refine ⟨?_, fun a ha => ?_, fun b hb => ?_⟩
    · split <;> exact latchIrq_eq _ _ _ _
    · rw [latchIrq_reg _ _ _ _ ha.1]
      split
      · exact Hub.reg_on_ne _ _ ha.2
      · rfl
    · rw [latchIrq_reg _ _ _ _ (by decide)]
      split
      · exact Hub.getLsbD_reg_wr _ (f := fClkStatusWclkTrim) _ (by decide) (by simp [fClkStatusWclkTrim]; omega)
      · rfl
  · -- RAIL_RELEASE
    refine ⟨?_, fun a ha => ?_, fun b hb => ?_⟩
    · (repeat' split) <;> exact latchIrq_eq _ _ _ _
    · rw [latchIrq_reg _ _ _ _ ha.1]
      split
      · split
        · exact (Hub.reg_wr_ne _ _ _ ha.2.2).trans (s.hub.railFreed_reg rail ha.2.1)
        · exact s.hub.railFreed_reg rail ha.2.1
      · rfl
    · rw [latchIrq_reg _ _ _ _ (by decide)]
      split
      · split
        · rw [Hub.reg_wr_ne _ _ _ (by decide)]
          exact s.hub.railFreed_bit rail.isLt hb
        · exact s.hub.railFreed_bit rail.isLt hb
      · rfl
  · -- DIP_SAMPLE
    split
    · exact Hub.setDip_dipFrame _ _ _
    · exact .refl _ _
  · -- RECOVERY_WINDOW_RESTART
    split
    · exact Hub.setDip_dipFrame _ _ _
    · exact .refl _ _
  · -- WCLK_RETRIM_APPLY
    split <;> exact ⟨latchIrq_eq _ _ _ _, fun a ha => latchIrq_reg _ _ _ _ ha⟩
  · -- KT_WAKE_TIMER
    split
    · obtain ⟨hrec, hregs⟩ := s.hub.askWake_frame 4
      exact ⟨latchIrq_eq_of hrec, fun a ha => (latchIrq_reg _ _ _ _ ha).trans (Hub.reg_congr hregs a)⟩
    · exact ⟨latchIrq_eq _ _ _ _, fun a ha => latchIrq_reg _ _ _ _ ha⟩

end Sys2Proof.Machine
end

section
/-! SUPPORT. CTRL frames that a port accepts (R340, R345), and the BITSTREAM frames among them (R35). -/

namespace Sys2Proof.Machine
open Sys2Proof

/-! ### A hub that differs in its links alone -/

/-- A hub that differs from another in its cascade links alone. -/
abbrev Hub.sameButLinks (h g : Hub) : Prop := g = { h with link := g.link }

theorem Hub.queueTx_sameButLinks (h : Hub) (q : Nat) (t : TxItem) : h.sameButLinks (h.queueTx q t) := rfl

theorem Hub.sameButLinks.trans {h g k : Hub} (hg : h.sameButLinks g) (gk : g.sameButLinks k) : h.sameButLinks k := by
  rw [Hub.sameButLinks, gk, hg]

theorem Hub.sameButLinks.foldl {α : Type} {f : Hub → α → Hub} (hf : ∀ a x, Hub.sameButLinks a (f a x)) (l : List α) (h : Hub) :
    h.sameButLinks (l.foldl f h) := by
  induction l generalizing h with
  | nil => rfl
  | cons x t ih => exact (hf h x).trans (ih _)

/-- Such a hub has the same loader and registers. -/
theorem Hub.sameButLinks.ldr {h g : Hub} (hg : h.sameButLinks g) : g.ldr = h.ldr := by rw [hg]
theorem Hub.sameButLinks.regs {h g : Hub} (hg : h.sameButLinks g) : g.regs = h.regs := by rw [hg]
theorem Hub.sameButLinks.hlt {h g : Hub} (hg : h.sameButLinks g) : g.hlt = h.hlt := by rw [hg]
theorem Hub.sameButLinks.rd {h g : Hub} (hg : h.sameButLinks g) (f : Fld) : g.rd f = h.rd f :=
  Hub.rd_congr (Hub.reg_congr hg.regs _)

/-! ### Accepting a CTRL frame -/

/-- A port accepts a good CTRL frame; of the hub its links alone change. -/
theorem Hub.rxCheck_good {h : Hub} {p : Nat} {f : CasFrame} (hg : h.rxGood p 1 f) :
    (h.rxCheck p 1 f).1 = true ∧ h.sameButLinks (h.rxCheck p 1 f).2 := by
  obtain ⟨hup, hcrc, hne, hlen, hseq⟩ := hg
  have hbad : (!f.crcOk || decide (classMax 1 < f.words.length) || f.words.isEmpty) = false := by
    simp [hcrc, hne, Nat.not_lt.2 hlen]
  unfold Hub.rxCheck
  rw [if_neg (by simp [hup]), hbad, if_neg (by decide), if_neg (by decide), if_pos (hseq (by decide))]
  exact ⟨rfl, rfl⟩

/-- A port that is not UP takes no frame. -/
theorem Hub.takeCtrl_down {fx : Fixed} {h : Hub} {p sub : Nat} {f : CasFrame} {act : Hub → Hub} (hd : h.linkUp p = false) :
    h.takeCtrl fx p sub f act = h := by
  unfold Hub.takeCtrl Hub.rxCheck
  simp [hd]

/-- A good CTRL frame for this hub, or broadcast, acts here; beside its act the links alone change. -/
theorem Hub.takeCtrl_here {fx : Fixed} {h : Hub} {p sub : Nat} {f : CasFrame} (act : Hub → Hub) (hg : h.rxGood p 1 f)
    (hto : f.bcast = true ∨ h.route fx f.dst.toNat = some 3) :
    ∃ g, h.sameButLinks g ∧ (act g).sameButLinks (h.takeCtrl fx p sub f act) := by
  obtain ⟨hok, hsame⟩ := Hub.rxCheck_good hg
  refine ⟨(h.rxCheck p 1 f).2.release p 1 f.words.length, hsame.trans rfl, ?_⟩
  unfold Hub.takeCtrl
  dsimp only
  rw [hok, if_neg (by decide)]
  split
  · refine Hub.sameButLinks.foldl (fun a q => ?_) _ _
    split
    · exact a.queueTx_sameButLinks _ _
    · rfl
  · next hb =>
    have hr : (h.rxCheck p 1 f).2.route fx f.dst.toNat = some 3 := by
      rw [hsame]
      exact hto.resolve_left hb
    rw [if_pos hr]

/-- A good CTRL frame for another hub is forwarded, from a hub that differs in its links alone. -/
theorem Hub.takeCtrl_elsewhere {fx : Fixed} {h : Hub} {p sub : Nat} {f : CasFrame} (act : Hub → Hub) (hg : h.rxGood p 1 f)
    (hb : f.bcast = false) (hr : h.route fx f.dst.toNat ≠ some 3) :
    ∃ g t, h.sameButLinks g ∧ h.takeCtrl fx p sub f act = g.forward fx p t := by
  obtain ⟨hok, hsame⟩ := Hub.rxCheck_good hg
  refine ⟨(h.rxCheck p 1 f).2, { src := p, cls := 1, bridge := false, f := { f with sub := BitVec.ofNat 6 sub } }, hsame, ?_⟩
  have hr' : (h.rxCheck p 1 f).2.route fx f.dst.toNat ≠ some 3 := by
    rw [hsame]
    exact hr
  unfold Hub.takeCtrl
  dsimp only
  rw [hok, if_neg (by decide), if_neg (by simp [hb]), if_neg hr']

/-- Forwarding a frame leaves the loader. -/
theorem Hub.forward_ldr (fx : Fixed) (h : Hub) (p : Nat) (t : TxItem) : (h.forward fx p t).ldr = h.ldr := by
  unfold Hub.forward Hub.unroutable
  split
  · split <;> simp
  · simp

/-- Forwarding a frame writes no register below the cascade's. -/
theorem Hub.forward_reg (fx : Fixed) (h : Hub) (p : Nat) (t : TxItem) {a : Nat} (ha : a < 0x1D0000) :
    (h.forward fx p t).reg a = h.reg a := by
  have drop (n : Nat) : ((h.unroutable p).release p t.cls n).reg a = h.reg a := by
    unfold Hub.unroutable
    rw [Hub.release_reg, Hub.reg_countSat_ne _ _ _ (by simp only [fCasPCount2Unroutable, rCasPCount2]; omega),
      Hub.reg_on_ne _ _ (by simp only [fCasPStatusUnroutable, rCasPStatus]; omega)]
  unfold Hub.forward
  split
  · split
    · exact Hub.queueTx_reg _ _ _ _
    · exact drop _
  · exact drop _

/-! ### BITSTREAM frames -/

/-- On UP, with room and without `host_only`, the words of a BITSTREAM frame enter the FIFO. -/
theorem Hub.bitstreamIn_accepted {h : Hub} {ws : List Word} (hw : ws.length = 66) (ho : h.is fLdrCtlHostOnly = false)
    (hr : h.ldrRoom 66 = true) :
    h.bitstreamIn 0 ws = (h.modLdr (fun l => { l with fifo := l.fifo ++ ws.map (fun w => { src := srcCascade, word := w }) })).showLevel :=
  if_pos ⟨rfl, hw, ho, hr⟩

/-- On another port, or under `host_only`, it is refused. -/
theorem Hub.bitstreamIn_refused {h : Hub} {p : Nat} (ws : List Word) (hp : p ≠ 0 ∨ h.is fLdrCtlHostOnly = true) :
    h.bitstreamIn p ws = h.ldrRefuse srcCascade (recWord ws 0) := by
  refine if_neg fun ⟨hp0, _, ho, _⟩ => ?_
  rcases hp with hp | hp
  · exact hp hp0
  · simp [ho] at hp

@[simp] theorem Hub.showLevel_ldr (h : Hub) : h.showLevel.ldr = h.ldr := rfl

theorem Hub.showLevel_rd (h : Hub) {f : Fld} (hf : f.addr ≠ rLdrLevel) : h.showLevel.rd f = h.rd f := by
  unfold Hub.showLevel
  rw [Hub.rd_wr_addr _ _ hf, Hub.rd_wr_addr _ _ hf]

@[simp] theorem Hub.ldrRefuse_ldr (h : Hub) (src : Nat) (w : Word) : (h.ldrRefuse src w).ldr = h.ldr := by
  unfold Hub.ldrRefuse
  dsimp only
  split <;> simp

/-- A refused frame is counted. -/
theorem Hub.ldrRefuse_counts (h : Hub) (src : Nat) (w : Word) :
    (h.ldrRefuse src w).rd fLdrCountRefused = satTo 16 (h.rd fLdrCountRefused + 1) := by
  have counted : (h.countSat fLdrCountRefused 1).rd fLdrCountRefused = satTo 16 (h.rd fLdrCountRefused + 1) :=
    h.rd_countSat_same 1 (by decide)
  unfold Hub.ldrRefuse
  dsimp only
  split
  · rw [Hub.notifyUp_rd, counted]
  · exact counted

theorem exec_bitstream (p : Fin 3) (f : CasFrame) (s : State) :
    exec (.bitstream p f) s = .next { s with
      hub := latchIrq s.hub s.met (s.hub.takeCtrl s.fixed p 0x08 f (fun a => a.bitstreamIn p (framePay f))) s.met } := rfl

/-- Settles O56: a frame accepted for this hub meets `Hub.bitstreamIn` on a hub that differs in its links alone, one for another hub
is forwarded. -/
theorem bitstreamFromCascade : Obligations.BitstreamFromCascade := by
  refine ⟨fun s f hg hto hw hr ho => ⟨_, exec_bitstream 0 f s, ?_⟩, fun s p f hg hto hp => ⟨_, exec_bitstream p f s, ?_⟩,
    fun s p f hg hb hr => ⟨_, exec_bitstream p f s, ?_⟩, fun s p f hd => ⟨_, exec_bitstream p f s, ?_⟩⟩ <;> dsimp only
  · -- accepted on UP
    obtain ⟨g, hg1, hg2⟩ := Hub.takeCtrl_here (fx := s.fixed) (sub := 0x08) (fun a => a.bitstreamIn 0 (framePay f)) hg hto
    have ho' : g.is fLdrCtlHostOnly = false := (Hub.is_congr (hg1.rd _)).trans ho
    have hr' : g.ldrRoom 66 = true := by
      rw [hg1]
      exact hr
    rw [latchIrq_ldr, latchIrq_rd _ _ _ _ (by decide)]
    have hin := Hub.bitstreamIn_accepted hw ho' hr'
    refine ⟨(congrArg Ldr.fifo hg2.ldr).trans ?_, (hg2.rd _).trans ?_⟩
    · rw [hin, Hub.showLevel_ldr, Hub.modLdr_ldr, hg1.ldr]
      rfl
    · rw [hin, Hub.showLevel_rd _ (by decide), Hub.modLdr_rd, hg1.rd]
  · -- refused
    obtain ⟨g, hg1, hg2⟩ := Hub.takeCtrl_here (fx := s.fixed) (sub := 0x08) (fun a => a.bitstreamIn p (framePay f)) hg hto
    have hp' : p.val ≠ 0 ∨ g.is fLdrCtlHostOnly = true :=
      hp.imp (fun h e => h (Fin.ext e)) (fun h => (Hub.is_congr (hg1.rd _)).trans h)
    rw [latchIrq_ldr, latchIrq_rd _ _ _ _ (by decide)]
    have hin := Hub.bitstreamIn_refused (framePay f) hp'
    refine ⟨hg2.ldr.trans ?_, (hg2.rd _).trans ?_⟩
    · rw [hin, Hub.ldrRefuse_ldr, hg1.ldr]
    · rw [hin, Hub.ldrRefuse_counts, hg1.rd]
  · -- addressed elsewhere
    obtain ⟨g, t, hg1, hg2⟩ :=
      Hub.takeCtrl_elsewhere (fx := s.fixed) (sub := 0x08) (fun a => a.bitstreamIn p (framePay f)) hg hb hr
    rw [latchIrq_ldr, latchIrq_rd _ _ _ _ (by decide), hg2, Hub.forward_ldr]
    exact ⟨hg1.ldr, (Hub.rd_congr (g.forward_reg s.fixed p t (by decide))).trans (hg1.rd _)⟩
  · -- a port that is not UP
    rw [Hub.takeCtrl_down hd]
    exact ⟨latchIrq_ldr _ _ _ _, fun a ha => latchIrq_reg _ _ _ _ ha⟩

end Sys2Proof.Machine
end

section
/-! SUPPORT. The loader's stream (R31 to R42): each operation of the loader in each of the cases it is used in. -/

namespace Sys2Proof.Machine
open Sys2Proof

/-! ### Commands that are one write of a register -/

/-- A write of a register that answers acts. -/
theorem Hub.atReg_answers {fx : Fixed} {m : Met} {b : Blk} {a : Nat} {h : Hub} (act : Hub → Hub)
    (ha : h.answers fx m b a = true) : h.atReg fx m b a act = act h := by
  simp only [Hub.answers, Bool.and_eq_true, Bool.not_eq_true', beq_iff_eq] at ha
  obtain ⟨hawake, hok⟩ := ha
  unfold Hub.atReg
  rw [if_neg (by simp [hawake]), hok]

/-! ### Boot (R31) -/

/-- A boot starts while the gates are open, nothing is configured and the loader is idle with no image read or shown. -/
abbrev Hub.bootDue (h : Hub) : Prop :=
  h.clk.gates = true ∧ h.is fLdrStatusConfigured = false ∧ h.ldrState = ldrIdle ∧ h.ldr.flash = 0 ∧ h.rd fLdrBootImage = 0

theorem Hub.bootStart_due {fx : Fixed} {h : Hub} (hd : h.bootDue) :
    h.bootStart fx =
      if h.is fLdrCtlHoldBoot || decide (2 ≤ fx.bootsrc.val) then h.modLdr (fun l => { l with waiting := true })
      else (h.modLdr (fun l => { l with flash := 1, waiting := false })).wr fLdrStatusSrc srcFlash := by
  obtain ⟨hg, hc, hi, hf, hb⟩ := hd
  exact if_neg (by simp [hg, hc, hi, hf, hb])

/-! ### Words of the host (R34) -/

/-- No self-test holds the FIFO: a refused access counts in no test's register. -/
theorem Hub.refusedBy_free {h : Hub} {gs : List Nat} (hs : h.stHeld gs = false) : h.refusedBy gs = h := by
  have hfree : ∀ g ∈ gs, h.stHolds g = false := by simpa [Hub.stHeld] using hs
  unfold Hub.refusedBy
  clear hs
  induction gs with
  | nil => rfl
  | cons g gs ih =>
    rw [List.forall_mem_cons] at hfree
    rw [List.foldl_cons, if_neg (by simp [hfree.1])]
    exact ih hfree.2

/-- While no self-test holds the FIFO its room is its free words. -/
theorem Hub.ldrRoom_free {h : Hub} (hs : h.stHeld heldFifo = false) (n : Nat) :
    h.ldrRoom n = decide (h.ldr.fifo.length + n ≤ 528) := by
  rw [Hub.ldrRoom, hs]
  rfl

/-- The free words as `ldr.level` shows them. -/
theorem Hub.showLevel_free (h : Hub) : h.showLevel.rd fLdrLevelFree = 528 - h.ldr.fifo.length := by
  unfold Hub.showLevel
  rw [Hub.rd_wr_apart _ _ (by decide), Hub.rd_wr_same _ _ (by decide)]
  exact Nat.mod_eq_of_lt (by simp only [fifoWords, fLdrLevelFree]; omega)

/-- Words with room enter the FIFO together. -/
theorem Hub.ldrWrite_room {h : Hub} {ws : List Word} (hr : h.ldrRoom ws.length = true) :
    h.ldrWrite ws = (h.modLdr (fun l => { l with fifo := l.fifo ++ ws.map (fun w => { src := srcHost, word := w }) })).showLevel :=
  if_pos hr

/-- A frame refused whole leaves the loader, sets its flag and is counted. -/
theorem Hub.fifoOver_counts (h : Hub) :
    (h.hspBad [fLdrStatusFifoOver]).ldr = h.ldr ∧ (h.hspBad [fLdrStatusFifoOver]).is fLdrStatusFifoOver = true ∧
      (h.hspBad [fLdrStatusFifoOver]).rd fHstCountHspBad = satTo 16 (h.rd fHstCountHspBad + 1) := by
  refine ⟨rfl, Hub.is_on_same _ (by decide) (by decide), ?_⟩
  change ((h.countSat fHstCountHspBad 1).on fLdrStatusFifoOver).rd fHstCountHspBad = _
  rw [Hub.rd_on_apart _ (by decide)]
  exact h.rd_countSat_same 1 (by decide)

/-! ### Rejection (R41) -/

@[simp] theorem Hub.setLdrState_ldrState (h : Hub) {n : Nat} (hn : n < 16) : (h.setLdrState n).ldrState = n := by
  unfold Hub.setLdrState Hub.ldrState
  rw [Hub.rd_wr_same _ _ (by decide)]
  exact Nat.mod_eq_of_lt hn

/-- The fields of a rejected stream: the loader in REJECT, `rejected` set, and for a stream that is not of the flash its code. -/
abbrev Hub.rejectedWith (h : Hub) (code : Nat) : Prop :=
  h.ldrState = ldrReject ∧ h.is fLdrStatusRejected = true ∧ h.rd fLdrRejectCode = code

/-- A stream that is not of the flash is rejected with its code, and no cell changes. -/
theorem Hub.ldrFail_rejects {h : Hub} {code : Nat} (sect idx : Nat) (hs : h.rd fLdrStatusSrc ≠ srcFlash) (hc : code < 256) :
    (h.ldrFail code sect idx).rejectedWith code ∧ (h.ldrFail code sect idx).cells = h.cells := by
  have key (g : Hub) (hg : g.regs = ((((h.setLdrState ldrReject).on fLdrStatusRejected).wr fLdrRejectCode code).wr
      fLdrRejectSection sect |>.wr fLdrRejectFrame idx).regs) : g.rejectedWith code := by
    have hrd (f : Fld) := Hub.rd_congr (f := f) (Hub.reg_congr hg f.addr)
    refine ⟨(hrd _).trans ?_, (Hub.is_congr (hrd _)).trans ?_, (hrd _).trans ?_⟩
    · simp (disch := decide) only [Hub.rd_wr_apart, Hub.rd_on_apart]
      exact h.setLdrState_ldrState (by decide)
    · simp (disch := decide) only [Hub.is_wr_apart, Hub.is_on_same]
    · simp (disch := decide) only [Hub.rd_wr_apart, Hub.rd_wr_same]
      exact Nat.mod_eq_of_lt hc
  unfold Hub.ldrFail
  dsimp only
  rw [if_neg hs]
  split
  · exact ⟨key _ (by simp), by simp [Hub.setLdrState]⟩
  · exact ⟨key _ rfl, rfl⟩

/-- The same, read behind the interrupt latch. -/
theorem latchIrq_ldrFail {h : Hub} {code : Nat} (sect idx : Nat) (hs : h.rd fLdrStatusSrc ≠ srcFlash) (hc : code < 256)
    (h0 : Hub) (m0 m : Met) :
    (latchIrq h0 m0 (h.ldrFail code sect idx) m).ldrState = ldrReject ∧
      (latchIrq h0 m0 (h.ldrFail code sect idx) m).is fLdrStatusRejected = true ∧
      (latchIrq h0 m0 (h.ldrFail code sect idx) m).rd fLdrRejectCode = code ∧
      (latchIrq h0 m0 (h.ldrFail code sect idx) m).cells = h.cells := by
  obtain ⟨⟨hstate, hflag, hcode⟩, hcells⟩ := Hub.ldrFail_rejects sect idx hs hc
  exact ⟨(latchIrq_rd _ _ _ _ (by decide)).trans hstate, (latchIrq_is _ _ _ _ (by decide)).trans hflag,
    (latchIrq_rd _ _ _ _ (by decide)).trans hcode, (latchIrq_cells _ _ _ _).trans hcells⟩

/-- A stream in STAGE or SKIP breaks off with a code. -/
theorem Hub.ldrBreak_fails {h : Hub} (code : Nat) (hst : h.ldrState = ldrStage ∨ h.ldrState = ldrSkip) :
    h.ldrBreak code = h.ldrFail code h.ldr.lastSect (h.rd fLdrStatusFrames) := if_pos hst

/-- An abort rejects a stream in STAGE, SKIP or READY. -/
theorem Hub.ldrAbort_fails {h : Hub} (hst : h.ldrState = ldrStage ∨ h.ldrState = ldrSkip ∨ h.ldrState = ldrReady) :
    h.ldrAbort = h.ldrFail rejAbort h.ldr.lastSect (h.rd fLdrStatusFrames) := by
  unfold Hub.ldrAbort
  split
  · rfl
  · next hr => exact Hub.ldrBreak_fails _ (hst.imp_right (Or.resolve_right · hr))

/-! ### The stores after a rejection (R32, R40) -/

/-- A field apart from one that is written or not. -/
theorem Hub.rd_ite_wr (h : Hub) {f g : Fld} (c : Prop) [Decidable c] (n : Nat) (hfg : f.apart g) :
    (if c then h.wr f n else h).rd g = h.rd g := by
  split
  · exact h.rd_wr_apart n hfg
  · rfl

/-- With the stores empty the loader is idle, image B following image A, and no cell changes. -/
theorem Hub.ldrDiscard_empties (h : Hub) :
    h.ldrDiscard.ldrState = ldrIdle ∧ h.ldrDiscard.ldr.staged = [] ∧ h.ldrDiscard.ldr.fifo = [] ∧
      h.ldrDiscard.ldr.flash = (if h.ldr.flash = 1 then 2 else 0) ∧ h.ldrDiscard.cells = h.cells := by
  unfold Hub.ldrDiscard
  dsimp only
  simp only [apply_ite Hub.ldr, apply_ite Hub.cells, Hub.wr_ldr, Hub.wr_cells, ite_self]
  refine ⟨?_, rfl, rfl, rfl, rfl⟩
  unfold Hub.ldrState
  rw [Hub.rd_ite_wr _ _ _ (by decide), Hub.rd_ite_wr _ _ _ (by decide), Hub.showLevel_rd _ (by decide)]
  exact Hub.setLdrState_ldrState _ (by decide)

/-! ### The payload words of a frame keep the stream's count of frames -/

theorem Ldr.put_total (l : Ldr) (key : Nat) (w : Word) : (l.put key w).ldr.total = l.total := by
  unfold Ldr.put
  dsimp only
  split <;> rfl

theorem Ldr.writeCell_total (v : Variant) (l : Ldr) (unit cell : Nat) (w : Word) :
    (l.writeCell v unit cell w).ldr.total = l.total := by
  unfold Ldr.writeCell
  split
  · rfl
  split
  · rfl
  split
  · exact l.put_total _ _
  · rfl

theorem Ldr.fill_total (v : Variant) (unit : Nat) (w : Word) (n cell : Nat) (l : Ldr) :
    (Ldr.fill v unit w n cell l).ldr.total = l.total := by
  induction n generalizing cell l with
  | zero => rfl
  | succ n ih =>
    unfold Ldr.fill
    dsimp only
    split
    · exact l.writeCell_total v unit cell w
    · rw [ih, Ldr.writeCell_total]

theorem Ldr.openItem_total (v : Variant) (l : Ldr) (kind : Nat) (w : Word) : (l.openItem v kind w).ldr.total = l.total := by
  unfold Ldr.openItem
  dsimp only
  (repeat' split) <;> rfl

theorem Ldr.header_total (v : Variant) (dev : Nat) (l : Ldr) (w : Word) : (l.header v dev w).ldr.total = l.total := by
  unfold Ldr.header
  dsimp only
  split
  · split <;> rfl
  split
  · exact l.openItem_total v _ w
  (repeat' split) <;> rfl

theorem Ldr.dataWord_total (v : Variant) (l : Ldr) (w : Word) : (l.dataWord v w).ldr.total = l.total :=
  Ldr.writeCell_total v _ _ _ w

theorem Ldr.word_total (v : Variant) (dev : Nat) (l : Ldr) (w : Word) : (l.word v dev w).ldr.total = l.total := by
  unfold Ldr.word
  split
  · split <;> rfl
  split
  · exact l.header_total v dev w
  split
  · exact l.dataWord_total v w
  split
  · exact Ldr.fill_total v _ w _ _ _
  split
  · split <;> rfl
  · dsimp only
    split
    · rfl
    · exact l.dataWord_total v _

theorem Ldr.words_total (v : Variant) (dev : Nat) (l : Ldr) (ws : List Word) : (l.words v dev ws).ldr.total = l.total := by
  induction ws generalizing l with
  | nil => rfl
  | cons w ws ih =>
    unfold Ldr.words
    dsimp only
    split
    · exact l.word_total v dev w
    · rw [ih, Ldr.word_total]

/-! ### A frame of the part in progress (R24, R40) -/

/-- A frame of a stream's owner, in STAGE or SKIP. -/
theorem Hub.ldrTake_owner {fx : Fixed} {h : Hub} {src : Nat} {ws : List Word}
    (hst : h.ldrState = ldrStage ∨ h.ldrState = ldrSkip) (hsrc : src = h.rd fLdrStatusSrc) :
    h.ldrTake fx src ws = h.ldrStageFrame fx ws := by
  unfold Hub.ldrTake
  dsimp only
  rw [if_neg (by rcases hst with e | e <;> rw [e] <;> decide), if_neg (not_not.2 hsrc),
    if_neg (by rcases hst with e | e <;> rw [e] <;> decide)]

/-- The payload of a frame that continues its part, is not its last one and passes its checks. -/
theorem Hub.ldrPart_continues {fx : Fixed} {h : Hub} {hd : Word} {idx : Nat} {payload whole : List Word}
    (hin : h.ldr.inPart = true) (hfirst : hdFirst hd = false) (hlast : hdLast hd = false) (hsect : hdSect hd = h.ldr.sect)
    (hopt : hdOpt hd = h.ldr.opt) (h15 : hdSect hd ≠ 15) (hcode : (h.ldr.words fx.variant h.devnum payload).code = 0)
    (habs : (h.ldr.words fx.variant h.devnum payload).absent = none) :
    h.ldrPart fx hd idx payload whole =
      { h with ldr := (h.ldr.words fx.variant h.devnum payload).ldr }.ldrAdvance (hdSect hd) idx := by
  unfold Hub.ldrPart
  dsimp only
  simp only [hin, if_true, hfirst, hsect, hopt, Bool.not_false, beq_self_eq_true, Bool.and_self, Bool.not_true,
    if_false, Bool.false_eq_true, if_neg (hsect ▸ h15), habs, hcode, ne_eq, not_true_eq_false, hlast]

/-- A frame that is not the stream's last one leads to the next. -/
theorem Hub.ldrAdvance_more {h : Hub} {idx : Nat} (sect : Nat) (hi : idx + 1 < h.ldr.total) : h.ldrAdvance sect idx = h.showLevel :=
  if_pos hi

/-- The owner's next frame with a good CRC, which its part takes. -/
theorem Hub.ldrStageFrame_part {fx : Fixed} {h : Hub} {ws : List Word} (hst : h.ldrState = ldrStage)
    (hcrc : crc32Words (ws.take 65) = recWord ws 65) (hidx : hdIndex (recWord ws 0) = h.rd fLdrStatusFrames)
    (hknown : sectionKnown (hdSect (recWord ws 0)) = true) (hzero : fieldOf (recWord ws 0) 16 5 = 0) :
    h.ldrStageFrame fx ws = (h.countSat fLdrStatusFrames 1).ldrPart fx (recWord ws 0) (h.rd fLdrStatusFrames)
      ((ws.drop 1).take 64) ((ws.drop 1).take 64) := by
  have hst' : (h.countSat fLdrStatusFrames 1).ldrState ≠ ldrSkip := by
    unfold Hub.ldrState Hub.countSat
    rw [Hub.rd_wr_apart _ _ (by decide), show h.rd fLdrStatusState = ldrStage from hst]
    decide
  unfold Hub.ldrStageFrame
  dsimp only
  rw [if_neg (not_not.2 hcrc), if_neg hst', if_neg (not_not.2 hidx), if_neg (by simp [hknown]), if_neg (not_not.2 hzero)]

/-! ### LDR_FRAME -/

/-- A frame that does not end its stream. -/
theorem exec_ldrFrame_take {s : State} {flash ws : List Word} {src : Nat} {h1 : Hub}
    (hn : s.hub.nextFrame flash = some (src, ws, h1)) (h4 : (h1.ldrTake s.fixed src ws).ldrState ≠ 4) :
    exec (.ldrFrame flash) s = .next { s with hub := latchIrq s.hub s.met (h1.ldrTake s.fixed src ws) s.met } := by
  change execLdrFrame flash s = _
  unfold execLdrFrame
  rw [liftBoth_next, hn]
  dsimp only
  rw [if_neg h4]

/-- A frame that ends its stream leads to CHECK. -/
theorem exec_ldrFrame_check {s : State} {flash ws : List Word} {src : Nat} {h1 : Hub}
    (hn : s.hub.nextFrame flash = some (src, ws, h1)) (h4 : (h1.ldrTake s.fixed src ws).ldrState = 4) :
    exec (.ldrFrame flash) s = .next { s with
      hub := latchIrq s.hub s.met (ldrCheck s.fixed (h1.ldrTake s.fixed src ws) s.met).1
        (ldrCheck s.fixed (h1.ldrTake s.fixed src ws) s.met).2
      met := (ldrCheck s.fixed (h1.ldrTake s.fixed src ws) s.met).2 } := by
  change execLdrFrame flash s = _
  unfold execLdrFrame
  rw [liftBoth_next, hn]
  dsimp only
  rw [if_pos h4]

/-- A partial stream that passes CHECK waits for its commit. -/
theorem ldrCheck_partial {fx : Fixed} {h : Hub} (m : Met) (hp : h.ldr.partialLoad = true) (hc : h.checkCode fx = 0) :
    ldrCheck fx h m = (h.showBuild.setLdrState ldrReady, m) := by
  unfold ldrCheck
  dsimp only
  rw [if_neg (not_not.2 hc), if_pos hp]

/-- `ldr.build` shows the stream's identifier. -/
theorem Hub.showBuild_reg (h : Hub) (i : Fin 2) : h.showBuild.reg (rLdrBuild i) = recWord h.ldr.builds i := by
  unfold Hub.showBuild
  fin_cases i
  · rw [Hub.reg_setReg_ne _ _ (by decide)]
    exact Hub.reg_setReg_same _ _ _
  · exact Hub.reg_setReg_same _ _ _

/-! ### The statement -/

/-- Settles O4: each command is read behind the interrupt latch, its loader operation in the case its clause names. -/
theorem loaderStream : Obligations.LoaderStream := by
  refine ⟨fun s hg hc hi hf hb hh hs => ⟨_, rfl, ?_⟩, fun s hg hc hi hf hb hw => ⟨_, rfl, ?_⟩,
    fun s words ha hs => ⟨_, rfl, ?_⟩,
    fun s flash ws src h1 hn hst hsrc hcrc hidx hmore htot hknown h15 hzero hin hfirst hlast hsect hopt hcode habs => ?_,
    fun s flash ws src h1 hn h4 hp hc => ⟨_, exec_ldrFrame_check hn h4, ?_⟩,
    fun s flash ws src h1 hn hst hsrc hne hcrc => ?_, fun s hst hne => ⟨_, rfl, ?_⟩, fun s ha hst hne => ⟨_, rfl, ?_⟩,
    fun s hr => ⟨_, rfl, ?_⟩⟩
  · -- BOOT_LOAD_START with flash straps
    dsimp only
    rw [Hub.bootStart_due ⟨hg, hc, hi, hf, hb⟩, if_neg (by simp [hh, hs]), latchIrq_rd _ _ _ _ (by decide)]
    simp only [latchIrq_ldr, latchIrq_cells]
    exact ⟨rfl, Hub.rd_wr_same _ _ (by decide), rfl, rfl⟩
  · -- BOOT_LOAD_START, waiting
    dsimp only
    rw [Hub.bootStart_due ⟨hg, hc, hi, hf, hb⟩, if_pos (by simpa using hw)]
    exact ⟨latchIrq_ldr _ _ _ _, (latchIrq_rd _ _ _ _ (by decide)).trans hi⟩
  · -- LDR_DATA_WRITE
    dsimp only
    rw [Hub.atReg_answers _ ha, Hub.refusedBy_free hs]
    simp (disch := decide) only [latchIrq_rd, latchIrq_is, latchIrq_ldr]
    by_cases hroom : s.hub.ldr.fifo.length + words.length ≤ 528
    · have hr : s.hub.ldrRoom words.length = true := by simpa [Hub.ldrRoom_free hs] using hroom
      rw [if_pos hr, if_pos hroom, Hub.ldrWrite_room hr]
      refine ⟨rfl, fun h => absurd hroom (Nat.not_le.2 h), fun _ => ?_⟩
      rw [Hub.showLevel_free]
      simp
    · have hr : s.hub.ldrRoom words.length = false := by simpa [Hub.ldrRoom_free hs] using hroom
      obtain ⟨hldr, hover, hcount⟩ := s.hub.fifoOver_counts
      rw [if_neg (by simp [hr]), if_neg hroom, hldr]
      exact ⟨rfl, fun _ => ⟨hover, hcount⟩, fun h => absurd h hroom⟩
  · -- LDR_FRAME, staged
    have hdev : (h1.countSat fLdrStatusFrames 1).devnum = h1.devnum := Hub.rd_wr_apart _ _ (by decide)
    have htake : h1.ldrTake s.fixed src ws = { h1.countSat fLdrStatusFrames 1 with
        ldr := (h1.ldr.words s.fixed.variant h1.devnum ((ws.drop 1).take 64)).ldr }.showLevel := by
      rw [Hub.ldrTake_owner (.inl hst) hsrc, Hub.ldrStageFrame_part hst hcrc hidx hknown hzero,
        Hub.ldrPart_continues (h := h1.countSat fLdrStatusFrames 1) hin hfirst hlast hsect hopt h15
          (by rwa [hdev]) (by rwa [hdev]), hdev]
      exact Hub.ldrAdvance_more _ (by rwa [Ldr.words_total])
    have hstate : (h1.ldrTake s.fixed src ws).ldrState = ldrStage := by
      rw [htake]
      exact (Hub.showLevel_rd _ (by decide)).trans ((Hub.rd_wr_apart _ _ (by decide)).trans hst)
    refine ⟨_, exec_ldrFrame_take hn (by rw [hstate]; decide), ?_⟩
    dsimp only
    rw [latchIrq_ldr, latchIrq_cells, latchIrq_rd _ _ _ _ (by decide), htake]
    refine ⟨rfl, (latchIrq_rd _ _ _ _ (by decide)).trans (htake ▸ hstate), ?_, rfl⟩
    rw [Hub.showLevel_rd _ (by decide)]
    have hlt : h1.rd fLdrStatusFrames + 1 < 2 ^ 16 := by omega
    exact (h1.rd_countSat_same 1 (by decide)).trans (satTo_of_lt hlt)
  · -- LDR_FRAME, READY
    rw [ldrCheck_partial _ hp hc]
    dsimp only
    rw [latchIrq_ldr, latchIrq_cells]
    refine ⟨(latchIrq_rd _ _ _ _ (by decide)).trans (Hub.setLdrState_ldrState _ (by decide)), rfl, fun i => ?_, rfl, rfl⟩
    rw [latchIrq_reg _ _ _ _ (by simp only [rLdrBuild]; omega)]
    exact (Hub.reg_wr_ne _ _ _ (by simp only [rLdrBuild, fLdrStatusState, rLdrStatus]; omega)).trans (Hub.showBuild_reg _ i)
  · -- LDR_FRAME, a wrong CRC
    have hsrc' : (h1.countSat fLdrStatusFrames 1).rd fLdrStatusSrc ≠ srcFlash := by
      rw [Hub.countSat, Hub.rd_wr_apart _ _ (by decide), ← hsrc]
      exact hne
    have htake : h1.ldrTake s.fixed src ws = (h1.countSat fLdrStatusFrames 1).ldrFail rejCrc (hdSect (recWord ws 0))
        (h1.rd fLdrStatusFrames) := (Hub.ldrTake_owner hst hsrc).trans (if_pos hcrc)
    have hstate : (h1.ldrTake s.fixed src ws).ldrState = ldrReject := by
      rw [htake]
      exact (Hub.ldrFail_rejects _ _ hsrc' (by decide)).1.1
    refine ⟨_, exec_ldrFrame_take hn (by rw [hstate]; decide), ?_⟩
    dsimp only
    rw [htake]
    exact latchIrq_ldrFail _ _ hsrc' (by decide) _ _ _
  · -- LDR_TIMEOUT
    have hsrc : s.hub.rd fLdrStatusSrc ≠ srcFlash := hne
    dsimp only
    rw [if_neg hsrc, Hub.ldrBreak_fails _ hst]
    exact latchIrq_ldrFail _ _ hsrc (by decide) _ _ _
  · -- LDR_ABORT
    dsimp only
    rw [Hub.atReg_answers _ ha, Hub.ldrAbort_fails hst]
    exact latchIrq_ldrFail _ _ hne (by decide) _ _ _
  · -- STAGING_DISCARDED
    dsimp only
    rw [if_pos hr]
    obtain ⟨hidle, hstaged, hfifo, hflash, hcells⟩ := s.hub.ldrDiscard_empties
    simp only [latchIrq_ldr, latchIrq_cells]
    exact ⟨(latchIrq_rd _ _ _ _ (by decide)).trans hidle, hstaged, hfifo, hflash, hcells⟩

end Sys2Proof.Machine
end

section
/-! SUPPORT. A FABRIC write that no stage of a listed context owns stays pending at its effect point (R45, R46). -/

namespace Sys2Proof.Machine
open Sys2Proof

/-- A hub in COMMIT whose one write left goes to cell 0x710 of context 0. By `fabricOwners` the cells of a context from 0x010 on belong
to its stages, without an upper bound, so this one belongs to stage 1792, stage 0 of a context 224. That number lies past the 224
contexts the statement holds still. Its cell is the one that section 6 calls cell 0 of unit 0, which here spells a source, a stage and a
shadow; its enable is set, and stage and copy stand at different output indices, so the stage is not ready. The loader itself stages no
such write, for no field is listed there (R27); the statement is about every state. -/
def strayWriteState : State :=
  { State.reset with hub := { Hub.reset with
    regs := [(rLdrStatus, 0x6A000000#32), (rFabCCtl 224, 1#32)]
    cells := [(cellKey 6 0 0, 0x200012#32)]
    stg := [(8 * 224, { (default : Stage) with outs := 1 })]
    ldr := { (default : Ldr) with
      todo := [(5, 32)], commit := [{ key := cellKey 5 32 0x710, word := 1#32 }] } } }

/-- Every listed context is without a source: the one cell that is set lies past theirs. -/
theorem strayWriteState_ctxKind {c : Nat} (hc : c < 224) : strayWriteState.hub.ctxKind c = 0 := by
  have hkey : cellKey 6 0 0 ≠ cellKey 5 (32 + c) 0 := by unfold cellKey; omega
  have hsect : cellKey 5 (32 + c) 0 / 1048576 = 5 := by unfold cellKey; omega
  have hcell : strayWriteState.hub.cell 5 (32 + c) 0 = 0#32 := by
    change NMap.getD [(cellKey 6 0 0, _)] _ _ = _
    rw [NMap.getD_cons, if_neg hkey, NMap.getD_nil]
    simp [cellDefault, hsect]
  unfold Hub.ctxKind Hub.cf
  rw [hcell]
  rfl

/-- No listed context gives outputs, and no cross-fade runs. -/
theorem strayWriteState_rests : (∀ c ∈ List.range 224, strayWriteState.hub.ctxRuns c = false) ∧
    (∀ u ∈ List.range 32, strayWriteState.hub.fadeHolds u = false) := by
  refine ⟨fun c hc => ?_, by decide⟩
  simp [Hub.ctxRuns, strayWriteState_ctxKind (List.mem_range.1 hc)]

/-- The effect point leaves the unit pending. -/
theorem strayWriteState_stays :
    (5, 32) ∈ (sectionEffect strayWriteState.fixed strayWriteState.hub strayWriteState.met 5 32).1.ldr.todo := by
  decide

/-- Refutes O5: the clause of a FABRIC unit where no context gives outputs speaks of contexts below 224, and a write to a context's
cell past 0x70F belongs to a stage of none of them (`strayWriteState`), so its unit stays pending. -/
theorem not_loaderCommit : ¬ Obligations.LoaderCommit := by
  rintro ⟨-, -, -, -, -, -, -, -, hfabric, -⟩
  obtain ⟨hctx, hfade⟩ := strayWriteState_rests
  obtain ⟨t, ht, hgone, -⟩ := hfabric strayWriteState 32 (by decide) (by decide) hctx hfade
  cases ht
  rw [latchIrq_ldr] at hgone
  exact hgone strayWriteState_stays

end Sys2Proof.Machine
end

section
/-! SUPPORT. The interrupt lines hang on no pending bit, and a line that rises sets its own (R76, R77). -/

namespace Sys2Proof.Machine
open Sys2Proof

/-! ### A write of the pending bits -/

theorem Hub.reg_wr_pend (h : Hub) (n : Nat) {a : Nat} (ha : a ≠ 0x30) : (h.wr fGlbWakePend n).reg a = h.reg a :=
  h.reg_wr_ne fGlbWakePend n ha

theorem Hub.is_wr_pend (h : Hub) (n : Nat) {f : Fld} (ha : f.addr ≠ 0x30) : (h.wr fGlbWakePend n).is f = h.is f :=
  Hub.is_congr (Hub.rd_congr (h.reg_wr_pend n ha))

/-- A search of a table that takes no entry at `k` finds the same after a write at `k`. -/
theorem NMap.any_setD {α : Type} [DecidableEq α] (m : NMap α) (k : Nat) (v d : α) {p : Nat × α → Bool}
    (hp : ∀ w, p (k, w) = false) : (NMap.setD m k v d).any p = m.any p := by
  have hne : ∀ e : Nat × α, p e = true → e.1 ≠ k := by
    rintro ⟨j, w⟩ he rfl
    simp [hp] at he
  have herase : (NMap.erase m k).any p = m.any p := by
    rw [NMap.erase_eq_filter, Bool.eq_iff_iff, List.any_eq_true, List.any_eq_true]
    constructor
    · rintro ⟨e, he, hpe⟩
      exact ⟨e, (List.mem_filter.1 he).1, hpe⟩
    · rintro ⟨e, he, hpe⟩
      exact ⟨e, List.mem_filter.2 ⟨he, by simpa using hne e hpe⟩, hpe⟩
  unfold NMap.setD
  split
  · exact herase
  · rw [← herase, Bool.eq_iff_iff, List.any_eq_true, List.any_eq_true]
    simp [NMap.mem_insert, hp]

/-- A group of status registers behind `glb.wake` reads no pending bit. -/
theorem Hub.irqGroup_wr_pend (h : Hub) (n line : Nat) {x : IrqSrc} (hx : 0x30 < x.first) :
    (h.wr fGlbWakePend n).irqGroup x line = h.irqGroup x line := by
  have hunit : ∀ k, (h.wr fGlbWakePend n).irqUnit x line k = h.irqUnit x line k := by
    intro k
    unfold Hub.irqUnit
    rw [h.reg_wr_pend n (by omega), h.reg_wr_pend n (by omega)]
  unfold Hub.irqGroup
  simp only [hunit]
  exact NMap.any_setD h.regs 0x30 _ _ (fun w => by simp [hx])

theorem irqBlock_wr_pend (h : Hub) (m : Met) (n line b : Nat) :
    irqBlock (h.wr fGlbWakePend n) m line b = irqBlock h m line b := by
  have hgroups : irqSrcs.any (fun x => x.block == b && (h.wr fGlbWakePend n).irqGroup x line) =
      irqSrcs.any (fun x => x.block == b && h.irqGroup x line) := by
    rw [Bool.eq_iff_iff, List.any_eq_true, List.any_eq_true]
    have hfirst : ∀ x ∈ irqSrcs, 0x30 < x.first := by decide
    exact exists_congr fun x => and_congr_right fun hx => by rw [h.irqGroup_wr_pend n line (hfirst x hx)]
  unfold irqBlock
  rw [hgroups]
  simp (disch := decide) only [Hub.is_wr_pend]
  simp (disch := omega) only [Hub.reg_wr_pend]

/-- No line hangs on the pending bits. -/
theorem irqActive_wr_pend (h : Hub) (m : Met) (n line : Nat) :
    irqActive (h.wr fGlbWakePend n) m line = irqActive h m line := by
  have henable : (if line = 0 then 0x20 else 0x28) ≠ 0x30 := by split <;> decide
  unfold irqActive
  simp only [irqBlock_wr_pend, h.reg_wr_pend n henable, Hub.wr_clk]

/-! ### The latch -/

/-- The bit of `glb.wake.pend` a rise of line `line` sets. -/
def riseBit (h0 : Hub) (m0 : Met) (h : Hub) (m : Met) (line : Nat) : Nat :=
  if !irqActive h0 m0 line && irqActive h m line then 2 ^ line else 0

theorem riseBit_of_rise {h0 : Hub} {m0 : Met} {h : Hub} {m : Met} {line : Nat} (hoff : irqActive h0 m0 line = false)
    (hon : irqActive h m line = true) : riseBit h0 m0 h m line = 2 ^ line := by simp [riseBit, hoff, hon]

/-- A set of pending bits reads as the bits that stood and those set. -/
theorem Hub.rd_wr_pend_or (h : Hub) {v : Nat} (hv : v < 8) :
    (h.wr fGlbWakePend (h.rd fGlbWakePend ||| v)).rd fGlbWakePend = h.rd fGlbWakePend ||| v := by
  rw [Hub.rd_wr_same _ _ (by decide)]
  exact Nat.mod_eq_of_lt (Nat.or_lt_two_pow (n := 3) (h.rd_lt fGlbWakePend) hv)

/-- The latch adds the bits of the lines that rise to the pending ones. -/
theorem latchIrq_rd_pend (h0 : Hub) (m0 : Met) (h : Hub) (m : Met) :
    (latchIrq h0 m0 h m).rd fGlbWakePend = h.rd fGlbWakePend ||| riseBit h0 m0 h m 0 ||| riseBit h0 m0 h m 1 := by
  have hone := h.rd_wr_pend_or (v := 1) (by decide)
  have htwo := h.rd_wr_pend_or (v := 2) (by decide)
  have hboth := (h.wr fGlbWakePend (h.rd fGlbWakePend ||| 1)).rd_wr_pend_or (v := 2) (by decide)
  rw [hone] at hboth
  unfold latchIrq riseBit
  dsimp only
  split <;> split <;> simp [hone, htwo, hboth]

/-- The lines behind the latch are those before it. -/
theorem irqActive_latchIrq (h0 : Hub) (m0 : Met) (h : Hub) (m m' : Met) (line : Nat) :
    irqActive (latchIrq h0 m0 h m) m' line = irqActive h m' line := by
  unfold latchIrq
  dsimp only
  split <;> split <;> simp only [irqActive_wr_pend]

/-- A line that rises is pending behind the latch. -/
theorem latchIrq_pend_of_rise {h0 : Hub} {m0 : Met} {h : Hub} {m : Met} {line : Nat} (hl : line < 2)
    (hoff : irqActive h0 m0 line = false) (hon : irqActive (latchIrq h0 m0 h m) m line = true) :
    ((latchIrq h0 m0 h m).rd fGlbWakePend).testBit line = true := by
  rw [irqActive_latchIrq] at hon
  have hbit := riseBit_of_rise hoff hon
  rw [latchIrq_rd_pend, Nat.testBit_or, Nat.testBit_or]
  obtain rfl | rfl : line = 0 ∨ line = 1 := by omega
  · rw [hbit, Nat.testBit_two_pow_self, Bool.or_true, Bool.true_or]
  · rw [hbit, Nat.testBit_two_pow_self, Bool.or_true]

/-! ### The statement -/

/-- A step, whatever it runs, ends in the latch: a command's lift, or that of a TCLK cycle. -/
theorem step_latches {s t : State} (ht : step s = .next t) :
    ∃ h, t.hub = latchIrq s.hub s.met h t.met := by
  unfold step at ht
  split at ht
  · cases ht
    exact ⟨_, rfl⟩
  · rename_i c rest _
    obtain ⟨h, m, e⟩ := exec_latches c { s with pending := rest }
    rw [e] at ht
    cases ht
    exact ⟨h, rfl⟩

theorem step_pend_of_rise {s t : State} {line : Fin 2} (ht : step s = .next t) (hoff : irqActive s.hub s.met line = false)
    (hon : irqActive t.hub t.met line = true) : (t.hub.rd fGlbWakePend).testBit line = true := by
  obtain ⟨h, e⟩ := step_latches ht
  rw [e] at hon ⊢
  exact latchIrq_pend_of_rise line.isLt hoff hon

/-- An enabled pending bit drives WAKE_OUT. -/
theorem Hub.wakeOut_of_testBit {h : Hub} {k : Nat} (hp : (h.rd fGlbWakePend).testBit k = true)
    (he : (h.rd fGlbWakeEn).testBit k = true) : h.wakeOut = true := by
  have hboth : (h.rd fGlbWakePend &&& h.rd fGlbWakeEn).testBit k = true := by rw [Nat.testBit_and, hp, he, Bool.and_self]
  unfold Hub.wakeOut
  rw [bne_iff_ne]
  intro hzero
  simp [hzero] at hboth

/-- Settles O52: every step ends in the latch, which sets the bit of each line that rises and changes no line. -/
theorem lineRisesToPending : Obligations.LineRisesToPending :=
  ⟨fun _ _ _ ht hoff hon => step_pend_of_rise ht hoff hon,
    fun _ _ _ ht hoff hon he => Hub.wakeOut_of_testBit (step_pend_of_rise ht hoff hon) he⟩

end Sys2Proof.Machine
end

section
/-! SUPPORT. What the two-wire target reports, and the wake an access asks for (R69 to R71). -/

namespace Sys2Proof.Machine
open Sys2Proof

/-- The count of bad transactions goes up by one. -/
theorem Hub.htwCount_rd (h : Hub) : h.htwCount.rd fHstCountHtwBad = satTo 16 (h.rd fHstCountHtwBad + 1) :=
  h.rd_countSat_same 1 (by decide)

theorem Hub.htwCount_reg (h : Hub) {a : Nat} (ha : a ≠ 0x10C) : h.htwCount.reg a = h.reg a :=
  h.reg_countSat_ne fHstCountHtwBad 1 ha

/-- A flag of `hst.status` set and the transaction counted. -/
theorem Hub.htwCount_on (h : Hub) {f : Fld} (hf : f.addr = 0x104) (hw : f.lo + f.len ≤ 32) (hl : 0 < f.len) :
    (h.on f).htwCount.is f = true ∧ (h.on f).htwCount.rd fHstCountHtwBad = satTo 16 (h.rd fHstCountHtwBad + 1) ∧
      ∀ a, a ≠ 0x104 → a ≠ 0x10C → (h.on f).htwCount.reg a = h.reg a := by
  refine ⟨?_, ?_, fun a hs hc => ?_⟩
  · have hreg : (h.on f).htwCount.reg f.addr = (h.on f).reg f.addr := Hub.htwCount_reg _ (by rw [hf]; decide)
    exact (Hub.is_congr (Hub.rd_congr hreg)).trans (h.is_on_same hw hl)
  · have hcount : (h.on f).rd fHstCountHtwBad = h.rd fHstCountHtwBad := h.rd_wr_addr 1 (by rw [hf]; decide)
    rw [Hub.htwCount_rd, hcount]
  · rw [Hub.htwCount_reg _ hc, h.reg_on_ne f (by rwa [hf])]

/-- An error of the target awake: flagged, counted, and the target waits for a START. -/
theorem Hub.htwAbandon_awake {h : Hub} {f : Fld} (hr : h.railHeld 2 = false) (ha : h.asleep = false) :
    h.htwAbandon f = (h.on f).htwCount.htwIdle true := if_neg (by simp [hr, ha])

/-- What an error leaves behind the latch. -/
theorem latchIrq_htwAbandon {h : Hub} (hr : h.railHeld 2 = false) (ha : h.asleep = false) (h0 : Hub) (m0 m : Met) {f : Fld}
    (hf : f.addr = 0x104) (hw : f.lo + f.len ≤ 32) (hl : 0 < f.len) :
    (latchIrq h0 m0 (h.htwAbandon f) m).is f = true ∧
      (latchIrq h0 m0 (h.htwAbandon f) m).rd fHstCountHtwBad = satTo 16 (h.rd fHstCountHtwBad + 1) ∧
      (latchIrq h0 m0 (h.htwAbandon f) m).host.htwIdle = true ∧
      ∀ a, a ≠ 0x30 ∧ a ≠ 0x104 ∧ a ≠ 0x10C → (latchIrq h0 m0 (h.htwAbandon f) m).reg a = h.reg a := by
  obtain ⟨hflag, hcount, hregs⟩ := h.htwCount_on hf hw hl
  rw [Hub.htwAbandon_awake hr ha]
  refine ⟨(latchIrq_is _ _ _ _ (by rw [hf]; decide)).trans hflag, (latchIrq_rd _ _ _ _ (by decide)).trans hcount,
    by rw [latchIrq_host]; rfl, fun a ⟨hp, hs, hc⟩ => (latchIrq_reg _ _ _ _ hp).trans (hregs a hs hc)⟩

/-- A sleeping hub without a source notes the first one that asks. -/
theorem Hub.askWake_first {h : Hub} (ha : h.asleep = true) (hw : h.sup.wake = 0) (src : Nat) :
    h.askWake src = { h with sup := { h.sup with wake := src } } := if_pos (by simp [ha, hw])

/-- The same for an addressing of the target, which is counted. -/
theorem Hub.htwAsleep_first {h : Hub} (ha : h.asleep = true) (hw : h.sup.wake = 0) :
    h.htwAsleep = { h.htwCount with sup := { h.sup with wake := 2 } } := Hub.askWake_first (h := h.htwCount) ha hw 2

/-- Settles O7: each command is a flag and a count, or a note of the wake's source, read behind the interrupt latch. -/
theorem hostTwoWireErrors : Obligations.HostTwoWireErrors := by
  refine ⟨fun s hr ha => ⟨_, rfl, latchIrq_htwAbandon hr ha _ _ _ rfl (by decide) (by decide)⟩,
    fun s hr ha => ⟨_, rfl, latchIrq_htwAbandon hr ha _ _ _ rfl (by decide) (by decide)⟩,
    fun s n k hr ha hpart => ⟨_, rfl, ?_⟩, fun s n k hr ha hend => ⟨_, rfl, ?_⟩, fun s htw ha hw => ⟨_, rfl, ?_⟩⟩
  · -- HTW_TRANSACTION_END part-way
    have hcond : (n.val = 1 ∨ n.val = 2) ∨ (n.val = 3 ∧ k.val ≠ 0) := by omega
    obtain ⟨hflag, hcount, hregs⟩ :=
      (s.hub.htwIdle false).htwCount_on (f := fHstStatusHtwPartial) rfl (by decide) (by decide)
    dsimp only
    rw [if_neg (by simp [hr, ha]), if_pos hcond]
    exact ⟨(latchIrq_is _ _ _ _ (by decide)).trans hflag, (latchIrq_rd _ _ _ _ (by decide)).trans hcount,
      fun a ⟨hp, hs, hc⟩ => (latchIrq_reg _ _ _ _ hp).trans (hregs a hs hc)⟩
  · -- HTW_TRANSACTION_END on a boundary
    have hcond : ¬((n.val = 1 ∨ n.val = 2) ∨ (n.val = 3 ∧ k.val ≠ 0)) := by omega
    dsimp only
    rw [if_neg (by simp [hr, ha]), if_neg hcond]
    exact fun a hp => latchIrq_reg _ _ _ _ hp
  · -- HOST_ACCESS_WAKE
    dsimp only
    rw [if_pos ha]
    cases htw with
    | false =>
      rw [if_neg (by decide), Hub.askWake_first ha hw]
      exact ⟨by rw [latchIrq_sup]; rfl, (latchIrq_asleep _ _ _ _).trans ha, fun h => absurd h (by decide),
        fun a ⟨hp, _⟩ => latchIrq_reg _ _ _ _ hp⟩
    | true =>
      rw [if_pos rfl, Hub.htwAsleep_first ha hw]
      exact ⟨by rw [latchIrq_sup]; rfl, (latchIrq_asleep _ _ _ _).trans ha,
        fun _ => (latchIrq_rd _ _ _ _ (by decide)).trans s.hub.htwCount_rd,
        fun a ⟨hp, hc⟩ => (latchIrq_reg _ _ _ _ hp).trans (s.hub.htwCount_reg hc)⟩

end Sys2Proof.Machine
end

section
/-! SUPPORT. The debug window over the stockpot (R75, R290, R300, R305). -/

namespace Sys2Proof.Machine
open Sys2Proof

/-! ### Accesses that answer, and those the life-cycle state denies -/

/-- A read of a register that answers gives the host its word. -/
theorem Hub.readOf_answers {fx : Fixed} {m : Met} {b : Blk} {a : Nat} {h : Hub} (act : Hub → Word × Hub)
    (ha : h.answers fx m b a = true) : h.readOf fx m b a act = (act h).2.toHost (act h).1 := by
  simp only [Hub.answers, Bool.and_eq_true, Bool.not_eq_true', beq_iff_eq] at ha
  obtain ⟨hawake, hok⟩ := ha
  unfold Hub.readOf
  rw [if_neg (by simp [hawake]), hok]

/-- Outside OPEN and SERVICE the window is denied (R75). -/
theorem regMeets_dbg_denied {h : Hub} (hc : h.dbgOpen = false) (fx : Fixed) (m : Met) (a : Nat) :
    regMeets fx m .dbg a h = .denied := if_pos (by simp [hc])

theorem Hub.atReg_denied {h : Hub} (hs : h.asleep = false) (hc : h.dbgOpen = false) (fx : Fixed) (m : Met) (a : Nat)
    (act : Hub → Hub) : h.atReg fx m .dbg a act = h.noteAccess .denied a := by
  unfold Hub.atReg
  rw [if_neg (by simp [hs]), regMeets_dbg_denied hc]

theorem Hub.readOf_denied {h : Hub} (hs : h.asleep = false) (hc : h.dbgOpen = false) (fx : Fixed) (m : Met) (a : Nat)
    (act : Hub → Word × Hub) : h.readOf fx m .dbg a act = (h.noteAccess .denied a).toHost 0#32 := by
  unfold Hub.readOf
  rw [if_neg (by simp [hs]), regMeets_dbg_denied hc]

/-- A denied access is flagged, with its address. -/
theorem Hub.noteAccess_denied (h : Hub) {a : Nat} (ha : a < 2 ^ 24) :
    (h.noteAccess .denied a).is fHstStatusDenied = true ∧ (h.noteAccess .denied a).rd fHstLastAddr = a :=
  ⟨(Hub.is_wr_apart _ _ (by decide)).trans (h.is_on_same (by decide) (by decide)),
    (Hub.rd_wr_same _ _ (by decide)).trans (Nat.mod_eq_of_lt ha)⟩

/-! ### Stockpot words -/

/-- A stockpot word read after a write. -/
theorem Hub.stockAt_setStock (h : Hub) (a k : Nat) (w : BitVec 64) :
    (h.setStock a w).stockAt k = if k = a then w else h.stockAt k := by
  unfold Hub.stockAt Hub.setStock
  rw [NMap.getD_setD]
  split
  · rw [BitVec.xor_assoc, BitVec.xor_self, BitVec.xor_zero]
  · rfl

/-- The upset of a word nothing has changed. -/
abbrev noUpset : Upset := { data := 0#72, addr := 0#21 }

theorem Hub.readStock_clean (h : Hub) (a : Nat) : h.readStock a noUpset = (.good, h.stockAt a, h) := by
  unfold Hub.readStock
  exact if_pos (by decide)

/-- One flipped bit of the data is corrected (R290). -/
theorem Hub.readStock_corrected (h : Hub) (a : Nat) {u : Upset} (hd : popcount u.data.toNat 72 = 1) (ha : u.addr = 0#21) :
    h.readStock a u = (.corrected, h.stockAt a, h) := by
  have hw : popcount u.addr.toNat 21 = 0 := by rw [ha]; decide
  unfold Hub.readStock
  dsimp only
  rw [hd, hw]
  rfl

/-! ### The window -/

/-- The half of a stockpot word that word `i` of the window shows. -/
def dbgHalf (i : Nat) (d : BitVec 64) : Word := if i % 2 = 0 then d.extractLsb' 0 32 else d.extractLsb' 32 32

/-- Word `i` of the window through an upset that leaves the data readable: the half, a check byte, and the syndrome. -/
theorem Hub.dbgGet_clean {h : Hub} (hs : h.stHolds 0 = false) (i : Nat) :
    ∃ chk, h.dbgGet (4 * i) noUpset =
      (dbgHalf i (h.stockAt (h.dbgWord (4 * i))), (h.wr fQDbgChkStored chk).wr fQDbgChkSyndrome 0) := by
  unfold Hub.dbgGet dbgHalf
  rw [if_neg (by simp [hs])]
  dsimp only
  rw [Hub.readStock_clean, Nat.mul_div_cancel_left _ (by decide)]
  exact ⟨_, rfl⟩

theorem Hub.dbgGet_corrected {h : Hub} (hs : h.stHolds 0 = false) (i : Nat) {u : Upset}
    (hd : popcount u.data.toNat 72 = 1) (ha : u.addr = 0#21) :
    ∃ chk n, h.dbgGet (4 * i) u = (dbgHalf i (h.stockAt (h.dbgWord (4 * i))),
      (h.takeFree.2.wr fQDbgChkStored chk).wr fQDbgChkSyndrome (1 + n % 255)) := by
  unfold Hub.dbgGet dbgHalf
  rw [if_neg (by simp [hs])]
  dsimp only
  rw [Hub.readStock_corrected _ _ hd ha, Nat.mul_div_cancel_left _ (by decide)]
  exact ⟨_, _, rfl⟩

/-- The syndrome as last stored. -/
theorem Hub.dbgChk_syndrome (h : Hub) (chk : Nat) {n : Nat} (hn : n < 256) :
    ((h.wr fQDbgChkStored chk).wr fQDbgChkSyndrome n).rd fQDbgChkSyndrome = n :=
  (Hub.rd_wr_same _ _ (by decide)).trans (Nat.mod_eq_of_lt hn)

/-- A write of the upper half stores it with the lower half held, or with the stored one. -/
theorem Hub.dbgHigh_stores {h : Hub} (hs : h.stHolds 0 = false) (a : Nat) (w : Word) :
    h.dbgHigh a w = { (h.setStock (h.dbgWord a)
      (w ++ NMap.getD h.dbgHeld (h.dbgWord a) ((h.stockAt (h.dbgWord a)).extractLsb' 0 32))) with dbgHeld := [] } :=
  if_neg (by simp [hs])

theorem latchIrq_stockAt (h0 : Hub) (m0 : Met) (h : Hub) (m : Met) (k : Nat) :
    (latchIrq h0 m0 h m).stockAt k = h.stockAt k := by
  unfold Hub.stockAt
  rw [latchIrq_stock, latchIrq_stockFill]

/-- Behind the latch a write of the upper half shows in its word alone. -/
theorem latchIrq_dbgHigh {h : Hub} (hs : h.stHolds 0 = false) (h0 : Hub) (m0 m : Met) (a : Nat) (w : Word) {lo : Word}
    (hlo : NMap.getD h.dbgHeld (h.dbgWord a) ((h.stockAt (h.dbgWord a)).extractLsb' 0 32) = lo) :
    (latchIrq h0 m0 (h.dbgHigh a w) m).stockAt (h.dbgWord a) = w ++ lo ∧
      (∀ k, k ≠ h.dbgWord a → (latchIrq h0 m0 (h.dbgHigh a w) m).stockAt k = h.stockAt k) ∧
      (latchIrq h0 m0 (h.dbgHigh a w) m).dbgHeld = [] ∧
      ∀ x, x ≠ 0x30 → (latchIrq h0 m0 (h.dbgHigh a w) m).reg x = h.reg x := by
  rw [Hub.dbgHigh_stores hs, hlo]
  refine ⟨?_, fun k hk => ?_, latchIrq_dbgHeld _ _ _ _, fun x hx => latchIrq_reg _ _ _ _ hx⟩
  · exact (latchIrq_stockAt _ _ _ _ _).trans ((h.stockAt_setStock _ _ _).trans (if_pos rfl))
  · exact (latchIrq_stockAt _ _ _ _ _).trans ((h.stockAt_setStock _ _ _).trans (if_neg hk))

/-- What a denied write leaves behind the latch. -/
theorem latchIrq_denied (h0 : Hub) (m0 : Met) (h : Hub) (m : Met) {a : Nat} (ha : a < 2 ^ 24) :
    (latchIrq h0 m0 (h.noteAccess .denied a) m).is fHstStatusDenied = true ∧
      (latchIrq h0 m0 (h.noteAccess .denied a) m).stock = h.stock ∧
      (latchIrq h0 m0 (h.noteAccess .denied a) m).dbgHeld = h.dbgHeld :=
  ⟨(latchIrq_is _ _ _ _ (by decide)).trans (h.noteAccess_denied ha).1, latchIrq_stock _ _ _ _, latchIrq_dbgHeld _ _ _ _⟩

/-- Settles O24: each access is read where it answers, or where it is denied, behind the interrupt latch. -/
theorem debugWindow : Obligations.DebugWindow := by
  refine ⟨fun s i ha hs => ⟨_, rfl, ?_⟩, fun s i u ha hs hd hu => ⟨_, rfl, ?_⟩, fun s i u hw hc => ⟨_, rfl, ?_⟩,
    fun s i w ha => ⟨_, rfl, ?_⟩, fun s i w lo ha hs hheld => ⟨_, rfl, ?_⟩, fun s i w ha hs hheld => ⟨_, rfl, ?_⟩,
    fun s i w hw hc => ⟨_, rfl, ?_⟩, fun s i w hw hc => ⟨_, rfl, ?_⟩⟩
  · -- DBG_READ, clean
    obtain ⟨chk, hget⟩ := Hub.dbgGet_clean hs i.toNat
    dsimp only
    rw [Hub.readOf_answers _ ha, hget, latchIrq_host, latchIrq_stock, latchIrq_rd _ _ _ _ (by decide)]
    exact ⟨rfl, rfl, Hub.dbgChk_syndrome _ chk (by decide)⟩
  · -- DBG_READ, corrected
    obtain ⟨chk, n, hget⟩ := Hub.dbgGet_corrected hs i.toNat hd hu
    have hsyn : 1 + n % 255 < 256 := by omega
    dsimp only
    rw [Hub.readOf_answers _ ha, hget, latchIrq_host, latchIrq_stock, latchIrq_rd _ _ _ _ (by decide)]
    exact ⟨rfl, rfl, ne_of_eq_of_ne (Hub.dbgChk_syndrome _ chk hsyn) (by omega)⟩
  · -- DBG_READ, denied
    have haddr : 0xC00000 + 4 * i.toNat < 2 ^ 24 := by omega
    dsimp only
    rw [Hub.readOf_denied hw hc, latchIrq_host, latchIrq_stock, latchIrq_is _ _ _ _ (by decide),
      latchIrq_rd _ _ _ _ (by decide)]
    exact ⟨rfl, (s.hub.noteAccess_denied haddr).1, (s.hub.noteAccess_denied haddr).2, rfl⟩
  · -- DBG_WRITE_LOW
    dsimp only
    rw [Hub.atReg_answers _ ha]
    exact ⟨latchIrq_dbgHeld _ _ _ _, latchIrq_stock _ _ _ _, fun a hp => latchIrq_reg _ _ _ _ hp⟩
  · -- DBG_WRITE_HIGH, a lower half held
    dsimp only
    rw [Hub.atReg_answers _ ha]
    exact latchIrq_dbgHigh hs _ _ _ _ w (by rw [hheld, NMap.getD_cons, if_pos rfl])
  · -- DBG_WRITE_HIGH, none held
    obtain ⟨hword, hrest, -⟩ := latchIrq_dbgHigh hs s.hub s.met s.met (8 * i.toNat) w (by rw [hheld, NMap.getD_nil])
    dsimp only
    rw [Hub.atReg_answers _ ha]
    exact ⟨hword, hrest⟩
  · -- DBG_WRITE_LOW, denied
    dsimp only
    rw [Hub.atReg_denied hw hc]
    exact latchIrq_denied _ _ _ _ (by omega)
  · -- DBG_WRITE_HIGH, denied
    dsimp only
    rw [Hub.atReg_denied hw hc]
    exact latchIrq_denied _ _ _ _ (by omega)

end Sys2Proof.Machine
end

section
/-! SUPPORT. A WRITE frame the loader's FIFO has no room for: the host serial port counts it, a plain write does not (R34, R85). -/

namespace Sys2Proof.Machine
open Sys2Proof

/-- A well-formed WRITE frame stores its words (R61 to R63). -/
theorem hspFrame_write {fx : Fixed} {h : Hub} {m : Met} {f : HspFrame} (hr : h.railHeld 2 = false) (ha : h.asleep = false)
    (hop : f.op = 1) (hcrc : f.crcOn = true ∨ h.is fHstCfgCrcReq = false) (hedges : 8 ≤ f.edges) (herr : f.errors = []) :
    hspFrame fx h m f = hspStore fx h m f.addr.toNat f.data := by
  have hread : f.isRead = false := by simp [HspFrame.isRead, hop]
  have hguarded : (!f.crcOn && h.is fHstCfgCrcReq) = false := by
    rcases hcrc with hc | hc <;> simp [hc]
  unfold hspFrame
  rw [if_neg (by simp [hr]), if_neg (by simp [ha]), if_neg (by omega), if_neg (by omega), if_neg (by omega),
    if_neg (by simp [hguarded])]
  simp [hread, herr]

/-- A frame a FIFO refuses whole is counted as a bad one (R85). -/
theorem hspStore_refused {fx : Fixed} {h : Hub} {m : Met} {a : Nat} {ws : List Word} {f : Fld}
    (hover : h.frameOver fx m (blkOf a).1 a ws.length = some f) : hspStore fx h m a ws = ((h.frameFull f).hspBad [f], m) := by
  unfold hspStore
  rw [hover]

/-- A register's write a FIFO refuses only sets the FIFO's flag. -/
theorem hostWrite_refused {fx : Fixed} {h : Hub} {m : Met} {a : Nat} {w : Word} {f : Fld} (ha : h.asleep = false)
    (halign : a % 4 = 0) (hover : h.frameOver fx m (blkOf a).1 a 1 = some f) :
    hostWrite fx h m a w = ((h.frameFull f).on f, m) := by
  unfold hostWrite writeFrame writeFrameIn writeInWith
  rw [if_neg (by simp [ha]), if_neg (by omega), List.length_singleton, hover]

/-- A hub whose loader FIFO holds its 528 words. -/
def fullFifoState : State :=
  { State.reset with hub := { Hub.reset with
    clk := { (default : Clk) with gates := true }
    ldr := { (default : Ldr) with fifo := List.replicate fifoWords { src := srcHost, word := 0#32 } } } }

/-- A well-formed WRITE frame of one word for `ldr.data`. -/
def dataFrame : HspFrame :=
  { cmd := 0x20#8, count := 0#8, addr := 0x020400#24, words := [5#32], crc := 0#16, edges := 72, hz := 50000000, contend := false }

/-- The FIFO has no room for a word. -/
theorem fullFifoState_refuses : fullFifoState.hub.frameOver fullFifoState.fixed fullFifoState.met
    (blkOf dataFrame.addr.toNat).1 dataFrame.addr.toNat 1 = some fLdrStatusFifoOver := by
  have hready : blkReady fullFifoState.fixed.variant fullFifoState.hub fullFifoState.met (blkOf dataFrame.addr.toNat).1 = true := by
    decide
  have hroom : fullFifoState.hub.ldrRoom (burstIn 0x020400 0x020800 dataFrame.addr.toNat 1) = false := by
    have hword : burstIn 0x020400 0x020800 dataFrame.addr.toNat 1 = 1 := by decide
    rw [hword, Hub.ldrRoom, fullFifoState, List.length_replicate]
    decide
  unfold Hub.frameOver
  rw [hready, hroom]
  decide

/-- Refutes O6: a well-formed WRITE frame of one word for the full loader FIFO is refused whole and counted in `hst.count.hsp_bad`, where
REGISTER_WRITE of the word sets `fifo_over` and counts nothing (`fullFifoState`, `dataFrame`). -/
theorem not_hostPorts : ¬ Obligations.HostPorts := by
  rintro ⟨hwrite, -⟩
  have hr : fullFifoState.hub.railHeld 2 = false := by decide
  have hcrc : dataFrame.crcOn = true ∨ fullFifoState.hub.is fHstCfgCrcReq = false := .inr (by decide)
  have hdata : dataFrame.data = [5#32] := by decide
  obtain ⟨t, hframe, hreg⟩ := hwrite fullFifoState dataFrame 5#32 hr rfl (by decide) hcrc (by decide) (by decide) hdata
    (by decide)
  have hcounted : t.hub.rd fHstCountHspBad =
      satTo 16 ((fullFifoState.hub.frameFull fLdrStatusFifoOver).rd fHstCountHspBad + 1) := by
    cases hframe
    dsimp only
    rw [latchIrq_rd _ _ _ _ (by decide), hspFrame_write hr rfl (by decide) hcrc (by decide) (by decide),
      hdata, hspStore_refused (ws := [5#32]) fullFifoState_refuses]
    exact (Hub.fifoOver_counts _).2.2
  have hplain : t.hub.rd fHstCountHspBad = (fullFifoState.hub.frameFull fLdrStatusFifoOver).rd fHstCountHspBad := by
    cases hreg
    dsimp only
    rw [latchIrq_rd _ _ _ _ (by decide), hostWrite_refused rfl (by decide) fullFifoState_refuses]
    exact Hub.rd_on_apart _ (by decide)
  have hzero : (fullFifoState.hub.frameFull fLdrStatusFifoOver).rd fHstCountHspBad = 0 := by decide
  rw [hplain, hzero] at hcounted
  exact absurd hcounted (by decide)

end Sys2Proof.Machine
end

section
/-! SUPPORT. A staged value beside a port's divider is taken for its divider (R78, R109). -/

namespace Sys2Proof.Machine
open Sys2Proof

/-- The staged divider of port 0. -/
def stagedDiv : Shadow := { addr := rSpPDiv 0, lo := 0, len := 16, val := 9 }

/-- A hub with the divider of port 0 staged and behind it a value for the port's tap word. `Hub.applyShadow` tells a port's staged role
from its staged divider by the role's offset alone, so the second value becomes the port's waiting divider too. No write stages a tap
word, whose fields are not staged ones (R117); the statement is about every state. -/
def strayShadowState : State :=
  { State.reset with hub := { Hub.reset with
    host := { (default : HostIf) with shadows := [stagedDiv, { addr := rSpPTap 0, lo := 0, len := 6, val := 5 }] } } }

/-- The commit puts the second value into the divider. -/
theorem strayShadowState_divider :
    (strayShadowState.hub.globalCommit strayShadowState.fixed).rd (fSpPDivDiv 0) = 5 := by
  decide +kernel

/-- Refutes O8: a staged value of another register of the port, behind the staged divider, is in force as the port's divider
(`strayShadowState`). -/
theorem not_globalCommit : ¬ Obligations.GlobalCommit := by
  rintro ⟨-, -, hforce, -⟩
  have hanswers : strayShadowState.hub.answers strayShadowState.fixed strayShadowState.met .glb 0x8 = true := by decide
  obtain ⟨t, ht, -, hdiv, -⟩ := hforce strayShadowState stagedDiv hanswers (by decide) (by decide) (by decide) (by decide)
    (by decide)
  have hstaged : t.hub.rd (fSpPDivDiv 0) = 9 := hdiv 0 rfl (by decide)
  have hstray : t.hub.rd (fSpPDivDiv 0) = 5 := by
    cases ht
    dsimp only
    rw [latchIrq_rd _ _ _ _ (by decide), Hub.atReg_answers _ hanswers]
    exact strayShadowState_divider
  omega

end Sys2Proof.Machine
end

section
/-! SUPPORT. A CONTEXT reset restarts the HEAD digest behind the samples its queue still holds (R163, R165). -/

namespace Sys2Proof.Machine
open Sys2Proof

/-- A reset requested by the host of a hub that is awake is a write of `glb.reset` (R79). -/
theorem exec_resetContext_awake {s : State} (ha : s.hub.asleep = false) (unit : BitVec 9) :
    exec (.resetContext unit) s = .next { s with
      hub := latchIrq s.hub s.met (writeGlb s.fixed s.hub 0xC (w32 (2 ^ 31 + 2 * 65536 + unit.toNat))) s.met } := by
  have hcommand : exec (.resetContext unit) s = resetCommand 2 unit.toNat s := rfl
  rw [hcommand, resetCommand, liftHub_next, if_neg (by simp [ha])]

/-- A hub whose queue 0, into which context 0 writes by its cells' defaults, holds one SAMPLE word. -/
def queuedSampleState : State :=
  { State.reset with hub := { Hub.reset with q := [(0, { (default : Queue) with head := [qword true 1 0 0#32] })] } }

/-- The reset of context 0 leaves its HEAD digest one word to pass over. -/
theorem queuedSampleState_skip : (NMap.get (writeGlb queuedSampleState.fixed queuedSampleState.hub 0xC
    (w32 (2 ^ 31 + 2 * 65536 + (0#9).toNat))).ctx (0#9).toNat).digHead.skip = 1 := by
  decide +kernel

/-- Refutes O38: a CONTEXT reset does not leave the context in its default state while its queue holds SAMPLE words, for the digest
restarted passes over them (`queuedSampleState`). -/
theorem not_resetScopes : ¬ Obligations.ResetScopes := by
  rintro ⟨-, -, -, -, hcontext, -⟩
  obtain ⟨t, ht, hctx, -⟩ := hcontext queuedSampleState 0#9 rfl (by decide) (by decide) (by decide)
  have hskip : (NMap.get t.hub.ctx (0#9).toNat).digHead.skip = 1 := by
    rw [exec_resetContext_awake rfl] at ht
    cases ht
    rw [latchIrq_ctx]
    exact queuedSampleState_skip
  have hnone : (NMap.get t.hub.ctx (0#9).toNat).digHead.skip = 0 := congrArg (fun x => x.digHead.skip) hctx
  omega

end Sys2Proof.Machine
end

section
/-! SUPPORT. What the way of a sample through a context leaves of the sample ports (R104, R147 to R150): all of them. -/

namespace Sys2Proof.Machine
open Sys2Proof

@[simp] theorem Hub.refusedBy_sp (h : Hub) (gs : List Nat) : (h.refusedBy gs).sp = h.sp := by
  refine foldl_keep Hub.sp _ (fun a g => ?_) _ _
  split <;> rfl

theorem Hub.refusedBy_rd (h : Hub) (gs : List Nat) {f : Fld} (hf : f.addr < 0x1F0000) : (h.refusedBy gs).rd f = h.rd f := by
  refine foldl_keep (fun a => a.rd f) _ (fun a g => ?_) _ _
  split
  · exact Hub.rd_congr (Hub.reg_setReg_ne a _ (by simp only [rHltStSkipped]; omega))
  · rfl

/-! ### Listeners at a stage point -/

@[simp] theorem Hub.ringOverrun_sp (h : Hub) (c : Nat) : (h.ringOverrun c).sp = h.sp := by simp [Hub.ringOverrun]

@[simp] theorem Hub.ringStart_sp (h : Hub) (c : Nat) (k : RingCfg) : (h.ringStart c k).sp = h.sp := by
  unfold Hub.ringStart
  dsimp only
  (repeat' split) <;> simp

@[simp] theorem Hub.ringDone_sp (h : Hub) (c : Nat) : (h.ringDone c).sp = h.sp := rfl

@[simp] theorem Hub.ringSample_sp (h : Hub) (c point : Nat) (x : Samp) : (h.ringSample c point x).sp = h.sp := by
  unfold Hub.ringSample
  split
  · split
    · extract_lets h0 h1 g h2
      have hstart : h0.sp = h.sp := by
        unfold h0
        split <;> simp
      have hwrite : h2.sp = h.sp := hstart
      split
      · rw [Hub.ringDone_sp, hwrite]
      · exact hwrite
    · rfl
  · rfl

@[simp] theorem Hub.limPush_sp (h : Hub) (r : FeaRec) : (h.limPush r).sp = h.sp := by
  unfold Hub.limPush
  split <;> rfl

@[simp] theorem Hub.featDone_sp (h : Hub) (r : FeaRec) (snap : Bool) (n : Nat) : (h.featDone r snap n).sp = h.sp := by
  unfold Hub.featDone
  dsimp only
  (repeat' split) <;> simp

@[simp] theorem Hub.timeBlock_sp (h : Hub) (c : Nat) : (h.timeBlock c).sp = h.sp := by
  unfold Hub.timeBlock
  dsimp only
  split
  · rw [Hub.featDone_sp]
    exact foldl_keep Hub.sp _ (fun a _ => a.setReg_sp _ _) _ _
  · rfl

@[simp] theorem Hub.feaSample_sp (h : Hub) (c : Nat) (x : Samp) : (h.feaSample c x).sp = h.sp := by
  unfold Hub.feaSample
  split <;> simp

@[simp] theorem Hub.blockDone_sp (h : Hub) (e j : Nat) : (h.blockDone e j).sp = h.sp := by
  unfold Hub.blockDone
  dsimp only
  (repeat' split) <;> simp

@[simp] theorem Hub.gather_sp (h : Hub) (e j : Nat) (x : Samp) : (h.gather e j x).sp = h.sp := by
  unfold Hub.gather
  split
  · simp
  · extract_lets h1 y y1 w
    have hdone : h1.sp = h.sp := h.blockDone_sp e j
    (repeat' split) <;> exact hdone

@[simp] theorem Hub.tapSample_sp (h : Hub) (c : Nat) (x : Samp) : (h.tapSample c x).sp = h.sp := by
  unfold Hub.tapSample
  rw [Hub.feaSample_sp]
  exact foldl_keep Hub.sp _ (fun _ _ => Hub.gather_sp ..) _ _

@[simp] theorem Hub.bgPush_sp (h : Hub) (b : Nat) (x : Samp) (due : Nat) : (h.bgPush b x due).sp = h.sp := by
  unfold Hub.bgPush
  dsimp only
  split <;> rfl

@[simp] theorem Hub.bridgeSample_sp (h : Hub) (c s : Nat) (x : Samp) : (h.bridgeSample c s x).sp = h.sp :=
  foldl_keep Hub.sp _ (fun _ _ => Hub.bgPush_sp ..) _ _

@[simp] theorem Hub.listen_sp (h : Hub) (c s : Nat) (x : Samp) : (h.listen c s x).sp = h.sp := by
  unfold Hub.listen
  dsimp only
  split <;> simp

/-! ### Outputs and the ingress of a context -/

@[simp] theorem Hub.deliver_sp (h : Hub) (c n : Nat) (x : Samp) : (h.deliver c n x).sp = h.sp := by
  unfold Hub.deliver
  extract_lets y x periodic mk h1 h2
  split
  · simp [h1]
  · simp [h2]

@[simp] theorem Hub.releaseOut_sp (h : Hub) (c n : Nat) (x : Samp) : (h.releaseOut c n x).sp = h.sp := by
  unfold Hub.releaseOut
  (repeat' split) <;> simp

@[simp] theorem Hub.ctxOutput_sp (h : Hub) (c : Nat) (x : Samp) : (h.ctxOutput c x).sp = h.sp := by
  simp [Hub.ctxOutput, Hub.countOutput]

@[simp] theorem Hub.ctxIngress_sp (fuel : Nat) (h : Hub) (c : Nat) (x : Samp) : (Hub.ctxIngress fuel h c x).sp = h.sp := by
  induction fuel generalizing h c x with
  | zero => rfl
  | succ fuel ih =>
    unfold Hub.ctxIngress
    dsimp only
    split
    · rfl
    split
    · rw [Hub.ctxOutput_sp, foldl_keep Hub.sp _ (fun a b => ih a b _), Hub.listen_sp]
    split
    · simp
    · split <;> rfl

@[simp] theorem Hub.parityFault_sp (h : Hub) (u : Nat) : (h.parityFault u).sp = h.sp := by
  unfold Hub.parityFault
  dsimp only
  split <;> simp

/-- A context runs, has stages, and has room for a sample at its ingress and that of its shadow copy (R148, R159). -/
abbrev Hub.ingressRoom (h : Hub) (c : Nat) : Prop :=
  h.ctxRuns c = true ∧ h.ctxStages c ≠ 0 ∧ (NMap.get h.ctx c).inq.length < 16 ∧
    (h.ctxShadow c = true → (h.stg' (192 + c) 0).inq.length < 16) ∧ h.stHeld heldFifo = false

/-- A sample waits at the ingress of a context, and at that of its shadow copy. -/
def Hub.inqAdd (h : Hub) (c : Nat) (x : Samp) : Hub :=
  let h1 := { h with ctx := NMap.modify h.ctx c (fun y => { y with gapIn := false, inq := y.inq ++ [x] }) }
  if h.ctxShadow c then h1.modStg (192 + c) 0 (fun s => { s with inq := s.inq ++ [x] }) else h1

theorem Hub.ctxIngress_room {h : Hub} {c : Nat} (hr : h.ingressRoom c) (fuel : Nat) (x : Samp) :
    Hub.ctxIngress (fuel + 1) h c x = h.inqAdd c (x.addIf (NMap.get h.ctx c).gapIn tGap) := by
  obtain ⟨hruns, hstages, hlen, hshadow, hheld⟩ := hr
  have hfull : ¬ ((NMap.get h.ctx c).inq.length ≥ 16 ∨ (h.ctxShadow c = true ∧ (h.stg' (192 + c) 0).inq.length ≥ 16) ∨
      h.stHeld heldFifo = true) := by
    rintro (hn | ⟨hs, hn⟩ | hn)
    · omega
    · have := hshadow hs
      omega
    · simp [hheld] at hn
  rw [Hub.ctxIngress]
  dsimp only
  rw [if_neg (by simp [hruns]), if_neg hstages, if_neg hfull]
  rfl

theorem Hub.inqAdd_inq (h : Hub) (c : Nat) (x : Samp) :
    (NMap.get (h.inqAdd c x).ctx c).inq = (NMap.get h.ctx c).inq ++ [x] := by
  unfold Hub.inqAdd
  dsimp only
  split <;> simp

@[simp] theorem Hub.inqAdd_sp (h : Hub) (c : Nat) (x : Samp) : (h.inqAdd c x).sp = h.sp := by
  unfold Hub.inqAdd
  dsimp only
  split <;> rfl

@[simp] theorem Hub.inqAdd_tw (h : Hub) (c : Nat) (x : Samp) : (h.inqAdd c x).tw = h.tw := by
  unfold Hub.inqAdd
  dsimp only
  split <;> rfl

@[simp] theorem Hub.inqAdd_ingress (h : Hub) (c : Nat) (x : Samp) : (h.inqAdd c x).ingress = h.ingress := by
  unfold Hub.inqAdd
  dsimp only
  split <;> rfl

@[simp] theorem Hub.inqAdd_regs (h : Hub) (c : Nat) (x : Samp) : (h.inqAdd c x).regs = h.regs := by
  unfold Hub.inqAdd
  dsimp only
  split <;> rfl

end Sys2Proof.Machine
end

section
/-! SUPPORT. What the words of a frame, its checks and the ingress path leave of a sample port (R99 to R104). -/

namespace Sys2Proof.Machine
open Sys2Proof

/-! ### Reading a port behind an update -/

theorem Hub.port_congr {h g : Hub} (e : g.sp = h.sp) (p : Nat) : g.port p = h.port p := by
  unfold Hub.port
  rw [e]

@[simp] theorem Hub.setPort_port_same (h : Hub) (p : Nat) (x : Port) : (h.setPort p x).port p = x := NMap.get_set_same h.sp p x

theorem Hub.setPort_port_ne (h : Hub) {p q : Nat} (x : Port) (hq : q ≠ p) : (h.setPort p x).port q = h.port q :=
  NMap.get_set_ne h.sp x hq

@[simp] theorem Hub.modPort_port_same (h : Hub) (p : Nat) (f : Port → Port) : (h.modPort p f).port p = f (h.port p) :=
  h.setPort_port_same p _

@[simp] theorem Hub.wr_port (h : Hub) (f : Fld) (n p : Nat) : (h.wr f n).port p = h.port p := rfl
@[simp] theorem Hub.on_port (h : Hub) (f : Fld) (p : Nat) : (h.on f).port p = h.port p := rfl
@[simp] theorem Hub.count_port (h : Hub) (f : Fld) (n p : Nat) : (h.count f n).port p = h.port p := rfl
@[simp] theorem Hub.countSat_port (h : Hub) (f : Fld) (n p : Nat) : (h.countSat f n).port p = h.port p := rfl
@[simp] theorem Hub.present_port (h : Hub) (code p : Nat) : (h.present code).port p = h.port p :=
  Hub.port_congr (h.present_sp code) p

/-! ### The frame in progress -/

/-- A port without what arriving words and failing checks change of it: its FIFO, the losses and last good samples behind it, and the
mark of a failed check. -/
def Port.inFrame (x : Port) : Port := { x with fifo := [], gaps := [], last := [], bad := false }

/-- Two ports in one frame agree in whatever does not look at those parts. -/
theorem Port.eq_of_inFrame {α : Type} {x y : Port} (e : x.inFrame = y.inFrame) (g : Port → α)
    (hg : ∀ z : Port, g z.inFrame = g z := by exact fun _ => rfl) : g x = g y := by
  rw [← hg x, e, hg y]

/-- Storing a port in which only those parts differ leaves the frame of every port. -/
theorem Hub.setPort_inFrame {h : Hub} {p : Nat} {x : Port} (hx : x.inFrame = (h.port p).inFrame) (q : Nat) :
    ((h.setPort p x).port q).inFrame = (h.port q).inFrame := by
  by_cases hq : q = p
  · subst hq
    rw [Hub.setPort_port_same, hx]
  · rw [Hub.setPort_port_ne h x hq]

theorem Hub.spIngress_empty {h : Hub} {p : Nat} (hf : (h.port p).fifo = []) (bad : Bool) : h.spIngress p bad = h := by
  unfold Hub.spIngress
  dsimp only
  rw [hf]

/-- The port whose oldest word has left: the next words wait, and the last good samples stand as the word leaves them (R99). -/
def Hub.wordTaken (h : Hub) (p : Nat) (w : FifoWord) (rest : List FifoWord) (bad : Bool) : Hub :=
  h.setPort p { h.port p with fifo := rest, last := (resolveWord (h.port p).last w bad).2 }

theorem Hub.spIngress_word {h : Hub} {p : Nat} {w : FifoWord} {rest : List FifoWord} (hf : (h.port p).fifo = w :: rest)
    (bad : Bool) : h.spIngress p bad = Hub.ctxIngress 6
      (if bad then (((h.wordTaken p w rest bad).on (fSpPStatusParity p)).countSat (fSpPErrParity p) 1).parityFault p
        else h.wordTaken p w rest bad) w.ctx (resolveWord (h.port p).last w bad).1 := by
  unfold Hub.spIngress
  dsimp only
  rw [hf]
  rfl

theorem Hub.wordTaken_inFrame (h : Hub) (p : Nat) (w : FifoWord) (rest : List FifoWord) (bad : Bool) (q : Nat) :
    ((h.wordTaken p w rest bad).port q).inFrame = (h.port q).inFrame := Hub.setPort_inFrame (by rfl) q

theorem Hub.spIngress_inFrame (h : Hub) (p : Nat) (bad : Bool) (q : Nat) :
    ((h.spIngress p bad).port q).inFrame = (h.port q).inFrame := by
  cases hf : (h.port p).fifo with
  | nil => rw [Hub.spIngress_empty hf]
  | cons w rest =>
    rw [Hub.spIngress_word hf, Hub.port_congr (Hub.ctxIngress_sp ..)]
    split
    · rw [Hub.port_congr (Hub.parityFault_sp ..), Hub.countSat_port, Hub.on_port, Hub.wordTaken_inFrame]
    · rw [Hub.wordTaken_inFrame]

theorem Hub.twIngress_empty {h : Hub} {c : Nat} (hf : (h.twc c).fifo = []) (bad : Bool) : h.twIngress c bad = h := by
  unfold Hub.twIngress
  dsimp only
  rw [hf]

/-- The controller whose oldest sample has left (R129). -/
def Hub.sampTaken (h : Hub) (c : Nat) (w : FifoWord) (rest : List FifoWord) (bad : Bool) : Hub :=
  h.setTw c { h.twc c with fifo := rest, last := (resolveWord (h.twc c).last w bad).2 }

theorem Hub.twIngress_word {h : Hub} {c : Nat} {w : FifoWord} {rest : List FifoWord} (hf : (h.twc c).fifo = w :: rest)
    (bad : Bool) : h.twIngress c bad = Hub.ctxIngress 6
      (if bad then ((h.sampTaken c w rest bad).on (fTwCStatusParity c)).parityFault (24 + c) else h.sampTaken c w rest bad) w.ctx
      (resolveWord (h.twc c).last w bad).1 := by
  unfold Hub.twIngress
  dsimp only
  rw [hf]
  rfl

@[simp] theorem Hub.twIngress_sp (h : Hub) (c : Nat) (bad : Bool) : (h.twIngress c bad).sp = h.sp := by
  cases hf : (h.twc c).fifo with
  | nil => rw [Hub.twIngress_empty hf]
  | cons w rest =>
    rw [Hub.twIngress_word hf, Hub.ctxIngress_sp]
    split
    · rw [Hub.parityFault_sp, Hub.on_sp, Hub.sampTaken, Hub.setTw_sp]
    · rw [Hub.sampTaken, Hub.setTw_sp]

theorem Hub.ingressServe_inFrame (h : Hub) (bad : Nat → Bool) (q : Nat) :
    ((h.ingressServe bad).port q).inFrame = (h.port q).inFrame := by
  unfold Hub.ingressServe
  split
  · rfl
  split
  · rw [Hub.port_congr (h.refusedBy_sp heldFifo)]
  · extract_lets h1
    split
    · exact h1.spIngress_inFrame _ _ q
    · rw [Hub.port_congr (h1.twIngress_sp _ _)]
      rfl

theorem Hub.ingressUntil_inFrame (u : Nat) (bad : Bool) (n : Nat) (h : Hub) (q : Nat) :
    ((Hub.ingressUntil u bad n h).port q).inFrame = (h.port q).inFrame := by
  induction n generalizing h with
  | zero => rfl
  | succ n ih =>
    rw [Hub.ingressUntil]
    split
    · rfl
    · rw [ih, Hub.ingressServe_inFrame]

theorem Hub.spPush_inFrame (h : Hub) (p : Nat) (keepUp bad : Bool) (w : FifoWord) (q : Nat) :
    ((h.spPush p keepUp bad w).port q).inFrame = (h.port q).inFrame := by
  unfold Hub.spPush
  extract_lets h1 h2 x s
  have hdip : h1.port q = h.port q := by
    unfold h1
    split <;> rfl
  have hserved : (h2.port q).inFrame = (h.port q).inFrame := by
    unfold h2
    split
    · rw [Hub.ingressUntil_inFrame, hdip]
    · rw [hdip]
  rw [← hserved]
  split
  · rw [Hub.countSat_port, Hub.on_port,
      Hub.setPort_inFrame (by rw [Hub.port_congr (h2.refusedBy_sp heldFifo)]; rfl), Hub.port_congr (h2.refusedBy_sp heldFifo)]
  · exact Hub.setPort_inFrame (by rfl) q

theorem Hub.pushSlots_inFrame (h : Hub) (p : Nat) (lanes : List Nat) (n : Nat) (cut : Bool) (dips : Nat) (keepUp bad : Bool)
    (which : Nat → Bool) (q : Nat) :
    ((h.pushSlots p lanes n cut dips keepUp bad which).port q).inFrame = (h.port q).inFrame :=
  foldl_keep (fun a => (a.port q).inFrame) _ (fun a w => a.spPush_inFrame p keepUp bad w q) _ _

theorem Hub.edgeChecks_inFrame (h : Hub) (p : Nat) (lanes : List Nat) (n q : Nat) :
    ((h.edgeChecks p lanes n).port q).inFrame = (h.port q).inFrame := by
  unfold Hub.edgeChecks
  extract_lets ls chk nSync nFrame nWord h1 h2
  have hsync : h1.port q = h.port q := by
    unfold h1
    split <;> rfl
  have hcrc : h2.port q = h.port q := by
    unfold h2
    split
    · exact hsync
    · exact hsync
  split
  · rw [Hub.modPort, Hub.setPort_inFrame (by rfl), hcrc]
  · rw [hcrc]

/-! ### The end of a frame -/

/-- One frame of the sweep changes of a port its sweep alone (R106). -/
theorem Hub.sweepFrame_port (h : Hub) (p : Nat) (shadow : List Word) : ∃ sweep pass target swept,
    (h.sweepFrame p shadow).port p =
      { h.port p with sweep := sweep, pass := pass, target := target, swept := swept } := by
  unfold Hub.sweepFrame
  extract_lets x lanes pass runs target h1 h2
  split
  · split
    · exact ⟨_, _, _, _, Hub.setPort_port_same h p _⟩
    · have heyes : h2.port p = h1.port p := foldl_keep (fun a => a.port p) _ (fun a r => a.wr_port _ _ p) _ _
      have hport : ∀ g : Hub, g.port p = h1.port p → ∃ sweep pass target swept,
          g.port p = { h.port p with sweep := sweep, pass := pass, target := target, swept := swept } :=
        fun g hg => ⟨_, _, _, _, hg.trans (Hub.setPort_port_same h p _)⟩
      split
      · exact hport _ heyes
      · exact hport _ heyes
  · exact ⟨_, _, _, _, rfl⟩

@[simp] theorem Hub.planNext_port (h : Hub) (p q : Nat) : (h.planNext p).port q = h.port q := by
  unfold Hub.planNext
  dsimp only
  split <;> rfl

/-- A finished frame leaves its stamp and flags in the port (R98, R118). -/
theorem Hub.frameDone_port (h : Hub) (p : Nat) (cut inWord : Bool) (shadow : List Word) :
    ∃ flags sweep pass target swept, (h.frameDone p cut inWord shadow).port p =
      { h.port p with lastStamp := (h.port p).stamp, flags := flags, sweep := sweep, pass := pass, target := target,
                      swept := swept } := by
  unfold Hub.frameDone
  extract_lets x h1 h2 h3
  have hcut : h1.port p = h.port p := by
    unfold h1
    split <;> rfl
  have hdone : h3.port p = { h.port p with
      lastStamp := (h.port p).stamp, flags := b2n x.late * 4 + b2n (h.spTarget p) * 2 + b2n cut } := by
    rw [Hub.present_port, Hub.planNext_port, Hub.modPort_port_same, Hub.count_port, hcut]
  split
  · obtain ⟨sweep, pass, target, swept, e⟩ := (h3.present (0x1100 + p)).sweepFrame_port p shadow
    exact ⟨_, sweep, pass, target, swept, by rw [e, Hub.present_port, hdone]⟩
  · obtain ⟨sweep, pass, target, swept, e⟩ := h3.sweepFrame_port p shadow
    exact ⟨_, sweep, pass, target, swept, by rw [e, hdone]⟩

end Sys2Proof.Machine
end

section
/-! SUPPORT. The registers of a sample port that words, checks, the plan and the training leave (R97, R102, R107). -/

namespace Sys2Proof.Machine
open Sys2Proof

/-- The fields of a port that arriving words, failing checks, the plan's advance and the training write. -/
def frameFlds (p : Nat) : List Fld :=
  [fSpPStatusSupplyDip p, fSpPStatusFifoOver p, fSpPLostWords p, fSpPStatusSyncErr p, fSpPErrSync p, fSpPStatusCrcErr p,
    fSpPErrCrc p, fSpPPlanFrame p, fSpPPlanEntry p, fSpPStatusTrained p, fSpPStatusNoEye p, fSpPEyeLane0 p, fSpPEyeLane1 p,
    fSpPEyeLane2 p, fSpPEyeLane3 p, fSpPTapLane0 p, fSpPTapLane1 p, fSpPTapLane2 p, fSpPTapLane3 p]

/-- A field of the ports' block beside all of them. -/
abbrev Fld.offFrame (p : Nat) (f : Fld) : Prop := (∀ g ∈ frameFlds p, g.apart f) ∧ f.addr < 0x180000

theorem Fld.offFrame.apart {p : Nat} {f g : Fld} (hf : f.offFrame p) (hg : g ∈ frameFlds p) : g.apart f := hf.1 g hg

theorem eyeFld_mem (p l : Nat) : eyeFld p l ∈ frameFlds p := by
  unfold eyeFld
  (repeat' split) <;> simp [frameFlds]

theorem tapFld_mem (p l : Nat) : tapFld p l ∈ frameFlds p := by
  unfold tapFld
  (repeat' split) <;> simp [frameFlds]

/-- A row of field writes leaves a field apart from each of them. -/
theorem Hub.foldl_wr_rd {α : Type} (g : α → Fld) (v : Hub → α → Nat) {f : Fld} (hg : ∀ x, (g x).apart f) (l : List α) (h : Hub) :
    (l.foldl (fun a x => a.wr (g x) (v a x)) h).rd f = h.rd f :=
  foldl_keep (fun a => a.rd f) _ (fun a x => a.rd_wr_apart (v a x) (hg x)) l h

/-! ### Fields beside what a frame writes -/

section
variable {p : Nat} {f : Fld} (hf : f.offFrame p)
include hf

theorem Hub.present_rd_offFrame (h : Hub) (code : Nat) : (h.present code).rd f = h.rd f := h.present_rd code (Or.inl hf.2)

/-- A word that arrives where the ingress path has taken none. -/
theorem Hub.spPush_rd (h : Hub) (bad : Bool) (w : FifoWord) : (h.spPush p false bad w).rd f = h.rd f := by
  have hblock : f.addr < 0x1F0000 := Nat.lt_of_lt_of_le hf.2 (by decide)
  unfold Hub.spPush
  extract_lets h1 h2 x s
  have hdip : h1.rd f = h.rd f := by
    unfold h1
    split
    · exact h.rd_on_apart (hf.apart (by simp [frameFlds]))
    · rfl
  rw [← hdip]
  split
  · calc ((((h2.refusedBy heldFifo).setPort p _).on (fSpPStatusFifoOver p)).countSat (fSpPLostWords p) 1).rd f
        = (((h2.refusedBy heldFifo).setPort p _).on (fSpPStatusFifoOver p)).rd f :=
          Hub.rd_wr_apart _ _ (hf.apart (by simp [frameFlds]))
      _ = ((h2.refusedBy heldFifo).setPort p _).rd f := Hub.rd_on_apart _ (hf.apart (by simp [frameFlds]))
      _ = h1.rd f := h1.refusedBy_rd heldFifo hblock
  · rfl

theorem Hub.pushSlots_rd (h : Hub) (lanes : List Nat) (n : Nat) (cut : Bool) (dips : Nat) (bad : Bool) (which : Nat → Bool) :
    (h.pushSlots p lanes n cut dips false bad which).rd f = h.rd f :=
  foldl_keep (fun a => a.rd f) _ (fun a w => a.spPush_rd hf bad w) _ _

theorem Hub.edgeChecks_rd (h : Hub) (lanes : List Nat) (n : Nat) : (h.edgeChecks p lanes n).rd f = h.rd f := by
  have hflag : ∀ (g : Hub) (k : Nat) (fs fc : Fld), fs ∈ frameFlds p → fc ∈ frameFlds p →
      (if 0 < k then (g.on fs).countSat fc k else g).rd f = g.rd f := by
    intro g k fs fc hs hc
    split
    · exact (Hub.rd_wr_apart _ _ (hf.apart hc)).trans (g.rd_on_apart (hf.apart hs))
    · rfl
  unfold Hub.edgeChecks
  extract_lets ls chk nSync nFrame nWord h1 h2
  have hcrc : h2.rd f = h.rd f :=
    (hflag h1 _ _ _ (by simp [frameFlds]) (by simp [frameFlds])).trans
      (hflag h _ _ _ (by simp [frameFlds]) (by simp [frameFlds]))
  split
  · exact hcrc
  · exact hcrc

theorem Hub.planNext_rd (h : Hub) : (h.planNext p).rd f = h.rd f := by
  unfold Hub.planNext
  dsimp only
  split
  · exact h.rd_wr_apart _ (hf.apart (by simp [frameFlds]))
  · exact (Hub.rd_wr_apart _ _ (hf.apart (by simp [frameFlds]))).trans (h.rd_wr_apart _ (hf.apart (by simp [frameFlds])))

theorem Hub.sweepFrame_rd (h : Hub) (shadow : List Word) : (h.sweepFrame p shadow).rd f = h.rd f := by
  unfold Hub.sweepFrame
  extract_lets x lanes pass runs target h1 h2
  have hset : h1.rd f = h.rd f := h.setPort_rd p _ f
  have heyes : h2.rd f = h.rd f := by
    unfold h2
    rw [Hub.foldl_wr_rd (fun r : Nat × Nat × Nat => eyeFld p r.1) _ (fun r => hf.apart (eyeFld_mem p r.1)),
      h1.rd_on_apart (hf.apart (by simp [frameFlds])), hset]
  split
  · split
    · exact h.setPort_rd p _ f
    split
    · exact (h2.rd_on_apart (hf.apart (by simp [frameFlds]))).trans heyes
    · exact heyes
  · rfl

theorem Hub.applyTap_rd (h : Hub) : (h.applyTap p).rd f = h.rd f := by
  unfold Hub.applyTap
  split
  · split
    · rfl
    · rw [Hub.modPort_rd]
      exact Hub.foldl_wr_rd (tapFld p) _ (fun l => hf.apart (tapFld_mem p l)) _ h
  · rfl

theorem Hub.moveTaps_rd (h : Hub) : (h.moveTaps p).rd f = h.rd f := by
  unfold Hub.moveTaps
  split
  · refine foldl_keep (fun a => a.rd f) _ (fun a l => ?_) _ _
    dsimp only
    split
    · rfl
    · exact a.rd_wr_apart _ (hf.apart (tapFld_mem p l))
  · exact h.applyTap_rd hf

/-- The end of a frame writes the frame count and, of a frame cut short, its flag and count beside those fields. -/
theorem Hub.frameDone_rd (h : Hub) (cut inWord : Bool) (shadow : List Word) :
    (h.frameDone p cut inWord shadow).rd f =
      ((if cut then (h.on (if inWord then fSpPStatusAborted p else fSpPStatusShort p)).countSat (fSpPErrBad p) 1
        else h).count (fSpPFramesFrames p) 1).rd f := by
  unfold Hub.frameDone
  extract_lets x h1 h2 h3
  have hdone : h3.rd f = (h1.count (fSpPFramesFrames p) 1).rd f :=
    (Hub.present_rd_offFrame hf _ _).trans (h2.planNext_rd hf)
  rw [Hub.sweepFrame_rd hf]
  split
  · rw [Hub.present_rd_offFrame hf, hdone]
  · exact hdone

end

/-! ### The fields that count and mark frames and starts -/

theorem offFrame_frames (p : Fin 24) : (fSpPFramesFrames p).offFrame p := by revert p; decide
theorem offFrame_bad (p : Fin 24) : (fSpPErrBad p).offFrame p := by revert p; decide
theorem offFrame_aborted (p : Fin 24) : (fSpPStatusAborted p).offFrame p := by revert p; decide
theorem offFrame_short (p : Fin 24) : (fSpPStatusShort p).offFrame p := by revert p; decide
theorem offFrame_busy (p : Fin 24) : (fSpPStatusBusy p).offFrame p := by revert p; decide
theorem offFrame_startDrop (p : Fin 24) : (fSpPStatusStartDrop p).offFrame p := by revert p; decide
theorem offFrame_lostStarts (p : Fin 24) : (fSpPLostStarts p).offFrame p := by revert p; decide

end Sys2Proof.Machine
end

section
/-! SUPPORT. Controller frames of a sample port: how one begins, how its words enter the FIFO, how it ends (R91 to R93, R97, R102). -/

namespace Sys2Proof.Machine
open Sys2Proof

@[simp] theorem latchIrq_port (h0 : Hub) (m0 : Met) (h : Hub) (m : Met) (p : Nat) :
    (latchIrq h0 m0 h m).port p = h.port p := Hub.port_congr (latchIrq_sp h0 m0 h m) p

/-- A register of a port is not the one the interrupt latch writes. -/
theorem portReg_ne_wake {k p : Nat} (hk : 0x40000 ≤ k) : k + 0x800 * p ≠ 0x30 := by omega

/-! ### TRG pulses (R316) -/

@[simp] theorem Hub.trgPulse_sp (h : Hub) (k : Nat) : (h.trgPulse k).sp = h.sp := by
  unfold Hub.trgPulse
  dsimp only
  (repeat' split) <;> simp

theorem Hub.trgPulse_reg (h : Hub) (k : Nat) {a : Nat} (ha : a < 0x180000) : (h.trgPulse k).reg a = h.reg a := by
  have hts : a ≠ fTmStatusTrgExt.addr := by
    have : fTmStatusTrgExt.addr = 0x1C3000 := rfl
    omega
  unfold Hub.trgPulse
  split
  · extract_lets stop on h1
    split
    · exact h1.reg_on_ne _ hts
    · exact h1.present_reg _ (Or.inl ha)
  · rfl

theorem Hub.trgPulse_stop {h : Hub} {k : Nat} (hk : h.cf 10 16 (0x010 + k) 17 1 = 1) :
    NMap.get (h.trgPulse k).trg k = h.cyc + h.cf 10 16 (0x010 + k) 0 16 := by
  unfold Hub.trgPulse
  rw [if_pos hk]
  extract_lets stop on h1
  have hset : NMap.get h1.trg k = stop := NMap.get_set_same h.trg k stop
  split
  · rwa [Hub.on_trg]
  · rwa [Hub.present_trg]

/-! ### The beginning of a frame -/

/-- A waiting restart puts the plan back to its first frame (R98). -/
def Hub.planRestarted (h : Hub) (p : Nat) : Hub :=
  if (h.port p).restart then (h.wr (fSpPPlanEntry p) 0).wr (fSpPPlanFrame p) 0 else h

theorem Hub.planRestarted_reg (h : Hub) (p : Nat) {a : Nat} (ha : a ≠ rSpPPlan p) : (h.planRestarted p).reg a = h.reg a := by
  unfold Hub.planRestarted
  split
  · rw [Hub.reg_wr_ne _ _ _ ha, Hub.reg_wr_ne _ _ _ ha]
  · rfl

theorem Hub.planRestarted_zero {h : Hub} {p : Nat} (hr : (h.port p).restart = true) :
    (h.planRestarted p).rd (fSpPPlanEntry p) = 0 ∧ (h.planRestarted p).rd (fSpPPlanFrame p) = 0 := by
  have hapart : (fSpPPlanFrame p).apart (fSpPPlanEntry p) := by simp [Fld.apart, fSpPPlanFrame, fSpPPlanEntry]
  unfold Hub.planRestarted
  rw [if_pos hr]
  exact ⟨(Hub.rd_wr_apart _ 0 hapart).trans (h.rd_wr_same 0 (by simp [fSpPPlanEntry])),
    Hub.rd_wr_same _ 0 (by simp [fSpPPlanFrame])⟩

theorem Hub.planRestarted_rests {h : Hub} {p : Nat} (hr : (h.port p).restart = false) : h.planRestarted p = h := by
  unfold Hub.planRestarted
  rw [if_neg (by simp [hr])]

/-- A frame that began late shows it and its delay (R93). -/
def Hub.lateShown (h : Hub) (p : Nat) : Option Nat → Hub
  | some n => ((h.on (fSpPStatusLate p)).countSat (fSpPLateCount p) 1).wr (fSpPLateLast p) (satTo 16 n)
  | none => h

/-- The port at the start edge of a controller frame. -/
def Hub.framePort (h : Hub) (p : Nat) (late : Option Nat) : Port :=
  { h.port p with
    phase := 1, start := h.cyc, stamp := Machine.report (h.tbNext (h.spTb p)), late := late.isSome, heldStart := none
    restart := false, entry := some ((h.planRestarted p).spEntry p), edges := 0, lanes := [], dips := 0, whole := true
    bad := false }

/-- The hub at the start edge of a controller frame, before its TRG pulse. -/
def Hub.frameBegun (h : Hub) (p : Nat) (late : Option Nat) : Hub :=
  (((h.planRestarted p).setPort p (h.framePort p late)).on (fSpPStatusBusy p)).lateShown p late

theorem Hub.frameBegun_cf (h : Hub) (p : Nat) (late : Option Nat) (i j k lo len : Nat) :
    (h.frameBegun p late).cf i j k lo len = h.cf i j k lo len := by
  unfold Hub.frameBegun Hub.planRestarted
  cases late <;> split <;> rfl

theorem Hub.frameBegun_cyc (h : Hub) (p : Nat) (late : Option Nat) : (h.frameBegun p late).cyc = h.cyc := by
  unfold Hub.frameBegun Hub.planRestarted
  cases late <;> split <;> rfl

theorem Hub.spBegin_eq (h : Hub) (p : Nat) (late : Option Nat) : h.spBegin p late =
    if h.spTrg p then (h.frameBegun p late).trgPulse (h.cf 3 p 3 16 4) else h.frameBegun p late := by
  have hbegin : h.spBegin p late = if (h.frameBegun p late).spTrg p then
      (h.frameBegun p late).trgPulse ((h.frameBegun p late).cf 3 p 3 16 4) else h.frameBegun p late := by
    cases late <;> rfl
  rw [hbegin, Hub.spTrg, Hub.frameBegun_cf, Hub.frameBegun_cf]
  rfl

theorem Hub.spBegin_port (h : Hub) (p : Nat) (late : Option Nat) : (h.spBegin p late).port p = h.framePort p late := by
  have hbegun : (h.frameBegun p late).port p = h.framePort p late := by
    cases late <;> exact Hub.setPort_port_same (h.planRestarted p) p (h.framePort p _)
  rw [Hub.spBegin_eq]
  split
  · rw [Hub.port_congr (Hub.trgPulse_sp ..), hbegun]
  · exact hbegun

theorem Hub.spBegin_reg (h : Hub) (p : Nat) (late : Option Nat) {a : Nat} (ha : a < 0x180000) :
    (h.spBegin p late).reg a = (((h.planRestarted p).on (fSpPStatusBusy p)).lateShown p late).reg a := by
  have hbegun : (h.frameBegun p late).reg a = (((h.planRestarted p).on (fSpPStatusBusy p)).lateShown p late).reg a := by
    cases late <;> rfl
  rw [Hub.spBegin_eq]
  split
  · rw [Hub.trgPulse_reg _ _ ha, hbegun]
  · exact hbegun

theorem Hub.spBegin_rd (h : Hub) (p : Nat) (late : Option Nat) {f : Fld} (hf : f.addr < 0x180000) :
    (h.spBegin p late).rd f = (((h.planRestarted p).on (fSpPStatusBusy p)).lateShown p late).rd f :=
  Hub.rd_congr (h.spBegin_reg p late hf)

/-- A frame shows `busy` from its start edge (R91). -/
theorem Hub.spBegin_busy (h : Hub) (p : Fin 24) (late : Option Nat) :
    (h.spBegin p late).is (fSpPStatusBusy p) = true := by
  have hstatus : (fSpPStatusBusy p).addr < 0x180000 := by
    simp only [fSpPStatusBusy, rSpPStatus]
    omega
  have hbusy : (h.spBegin p late).rd (fSpPStatusBusy p) = ((h.planRestarted p).on (fSpPStatusBusy p)).rd (fSpPStatusBusy p) := by
    rw [Hub.spBegin_rd _ _ _ hstatus]
    cases late with
    | none => rfl
    | some n =>
      rw [Hub.lateShown, Hub.rd_wr_apart _ _ (by simp [Fld.apart, fSpPLateLast, fSpPStatusBusy]), Hub.countSat,
        Hub.rd_wr_apart _ _ (by simp [Fld.apart, fSpPLateCount, fSpPStatusBusy]),
        Hub.rd_on_apart _ (by simp [Fld.apart, fSpPStatusLate, fSpPStatusBusy])]
  rw [Hub.is_congr hbusy, Hub.is_on_same _ (by simp [fSpPStatusBusy]) (by simp [fSpPStatusBusy])]

theorem Hub.spBegin_restart {h : Hub} {p : Fin 24} (hr : (h.port p).restart = true) :
    (h.spBegin p none).rd (fSpPPlanEntry p) = 0 ∧ (h.spBegin p none).rd (fSpPPlanFrame p) = 0 := by
  obtain ⟨hentry, hframe⟩ := Hub.planRestarted_zero hr
  have hplan : rSpPPlan p < 0x180000 := by
    simp only [rSpPPlan]
    omega
  rw [Hub.spBegin_rd _ _ _ hplan, Hub.spBegin_rd _ _ _ hplan]
  exact ⟨(Hub.rd_on_apart _ (by simp [Fld.apart, fSpPStatusBusy, fSpPPlanEntry])).trans hentry,
    (Hub.rd_on_apart _ (by simp [Fld.apart, fSpPStatusBusy, fSpPPlanFrame])).trans hframe⟩

theorem Hub.spBegin_reg_ne (h : Hub) (p : Nat) {a : Nat} (ha : a < 0x180000) (hs : a ≠ rSpPStatus p) :
    (h.spBegin p none).reg a = (h.planRestarted p).reg a :=
  (h.spBegin_reg p none ha).trans (Hub.reg_on_ne _ _ hs)

theorem Hub.spBegin_trg {h : Hub} {p : Nat} (late : Option Nat) (ht : h.spTrg p = true)
    (hk : h.cf 10 16 (0x010 + h.cf 3 p 3 16 4) 17 1 = 1) :
    NMap.get (h.spBegin p late).trg (h.cf 3 p 3 16 4) = h.cyc + h.cf 10 16 (0x010 + h.cf 3 p 3 16 4) 0 16 := by
  rw [Hub.spBegin_eq, if_pos ht, Hub.trgPulse_stop (by rw [Hub.frameBegun_cf]; exact hk), Hub.frameBegun_cyc,
    Hub.frameBegun_cf]

/-- A late beginning is flagged, counted and shown with its delay (R93). -/
theorem Hub.spBegin_late (h : Hub) (p : Fin 24) (n : Nat) :
    (h.spBegin p (some n)).is (fSpPStatusLate p) = true ∧
    (h.spBegin p (some n)).rd (fSpPLateCount p) = satTo 16 (h.rd (fSpPLateCount p) + 1) ∧
    (h.spBegin p (some n)).rd (fSpPLateLast p) = satTo 16 n := by
  have hstatus : rSpPStatus p < 0x180000 := by
    simp only [rSpPStatus]
    omega
  have hlate : rSpPLate p < 0x180000 := by
    simp only [rSpPLate]
    omega
  refine ⟨?_, ?_, ?_⟩
  · rw [Hub.is_congr (h.spBegin_rd p (some n) hstatus), Hub.lateShown,
      Hub.is_wr_apart _ _ (by simp [Fld.apart, fSpPLateLast, fSpPStatusLate]), Hub.countSat,
      Hub.is_wr_apart _ _ (by simp [Fld.apart, fSpPLateCount, fSpPStatusLate]),
      Hub.is_on_same _ (by simp [fSpPStatusLate]) (by simp [fSpPStatusLate])]
  · have hbefore : (((h.planRestarted p).on (fSpPStatusBusy p)).on (fSpPStatusLate p)).rd (fSpPLateCount p) =
        h.rd (fSpPLateCount p) := by
      rw [Hub.rd_on_apart _ (by simp [Fld.apart, fSpPLateCount, fSpPStatusLate]),
        Hub.rd_on_apart _ (by simp [Fld.apart, fSpPLateCount, fSpPStatusBusy])]
      exact Hub.rd_congr (h.planRestarted_reg p (by simp [fSpPLateCount]))
    rw [h.spBegin_rd p (some n) hlate, Hub.lateShown,
      Hub.rd_wr_apart _ _ (by simp [Fld.apart, fSpPLateLast, fSpPLateCount]),
      Hub.rd_countSat_same _ _ (by simp [fSpPLateCount]), hbefore]
    rfl
  · have hle := satTo_le 16 n
    rw [h.spBegin_rd p (some n) hlate, Hub.lateShown, Hub.rd_wr_same _ _ (by simp [fSpPLateLast]),
      Nat.mod_eq_of_lt (by simp only [fSpPLateLast]; omega)]

/-! ### Starts -/

theorem Hub.portStart_begins {h : Hub} {p : Nat} (hup : h.spUp p = true) (hon : h.spOn p = true) (ht : h.spTarget p = false)
    (hphase : (h.port p).phase = 0) (hheld : (h.port p).heldStart = none) : h.portStart p = h.spBegin p none := by
  unfold Hub.portStart
  dsimp only
  rw [if_neg (by simp [hup, hon, ht]), if_pos ⟨hphase, hheld⟩]

theorem Hub.portStart_holds {h : Hub} {p : Nat} (hup : h.spUp p = true) (hon : h.spOn p = true) (ht : h.spTarget p = false)
    (hphase : (h.port p).phase ≠ 0) (hheld : (h.port p).heldStart = none) :
    h.portStart p = h.setPort p { h.port p with heldStart := some h.cyc } := by
  unfold Hub.portStart
  dsimp only
  rw [if_neg (by simp [hup, hon, ht]), if_neg (fun hc => hphase hc.1), if_pos (by simp [hheld])]

theorem Hub.portStart_drops {h : Hub} {p : Nat} (hup : h.spUp p = true) (hon : h.spOn p = true) (ht : h.spTarget p = false)
    (hheld : (h.port p).heldStart ≠ none) : h.portStart p = h.spDrop p := by
  have hsome : ¬ ((h.port p).heldStart.isNone = true) := by simpa using hheld
  unfold Hub.portStart
  dsimp only
  rw [if_neg (by simp [hup, hon, ht]), if_neg (fun hc => hheld hc.2), if_neg hsome]

theorem Hub.spDrop_inFrame (h : Hub) (p q : Nat) : ((h.spDrop p).port q).inFrame = (h.port q).inFrame := by
  unfold Hub.spDrop
  extract_lets m t h1
  rw [foldl_keep (fun a => (a.port q).inFrame) _ (fun a c => a.spPush_inFrame p false false _ q)]
  unfold h1
  rw [Hub.present_port, Hub.countSat_port, Hub.on_port]

theorem Hub.spDrop_rd {h : Hub} {p : Nat} {f : Fld} (hf : f.offFrame p) :
    (h.spDrop p).rd f = ((h.on (fSpPStatusStartDrop p)).countSat (fSpPLostStarts p) 1).rd f := by
  unfold Hub.spDrop
  extract_lets m t h1
  rw [foldl_keep (fun a => a.rd f) _ (fun a c => a.spPush_rd hf false _)]
  exact Hub.present_rd_offFrame hf _ _

theorem Hub.takeHeld_begins {h : Hub} {p c : Nat} (hheld : (h.port p).heldStart = some c) (hphase : (h.port p).phase = 0)
    (hup : h.spUp p = true) (hon : h.spOn p = true) : h.takeHeld p = h.spBegin p (some (h.cyc - c)) := by
  unfold Hub.takeHeld
  dsimp only
  rw [hheld]
  dsimp only
  rw [if_pos (by simp [hphase, hup, hon])]

end Sys2Proof.Machine
end

section
/-! SUPPORT. The words of a frame in a port of one lane without checks, and the taps between frames (R97, R102, R107, R117). -/

namespace Sys2Proof.Machine
open Sys2Proof

/-! ### A port without checks -/

/-- No CRC and no sync word guard the port's frames. -/
abbrev Hub.unchecked (h : Hub) (p : Nat) : Prop := h.spCrc p = 0 ∧ h.spSyncOn p = false

theorem Hub.checkLane_unchecked {h : Hub} {p : Nat} (hu : h.unchecked p) (l v n : Nat) :
    h.checkLane p l v n = ⟨false, false⟩ := by
  unfold Hub.checkLane
  simp [hu.1, hu.2]

theorem Hub.edgeChecks_unchecked {h : Hub} {p : Nat} (hu : h.unchecked p) (lanes : List Nat) (n : Nat) :
    h.edgeChecks p lanes n = h := by
  unfold Hub.edgeChecks
  simp [hu.1, Hub.checkLane_unchecked hu]

theorem Hub.wordDue_unchecked {h : Hub} {p : Nat} (hu : h.unchecked p) (t : Nat) : h.wordDue p t = h.slotLast p t := by
  unfold Hub.wordDue
  simp [hu.1, hu.2]

theorem Hub.spE_unchecked {h : Hub} {p : Nat} (hu : h.unchecked p) : h.spE p = h.spC p + h.spS p * h.spW p := by
  unfold Hub.spE
  simp [hu.1]

theorem Hub.slotLast_inj {h : Hub} {p t k : Nat} (he : h.slotLast p t = h.slotLast p k) : t = k := by
  have hw : 0 < h.spW p := Nat.succ_pos _
  have hmul : (t + 1) * h.spW p = (k + 1) * h.spW p := Nat.add_left_cancel he
  have := Nat.eq_of_mul_eq_mul_right hw hmul
  omega

theorem Hub.slotCtx_some {h : Hub} {p m l t c : Nat} (hc : h.slotCtx p m l t = some c) :
    fieldOf (h.slotCell p m l t) 0 8 = c := by
  unfold Hub.slotCtx at hc
  dsimp only at hc
  split at hc
  · exact Option.some.inj hc
  · exact absurd hc (by simp)

/-- A whole slot's word is the sample its cell reads from the lane's bits. -/
theorem Hub.slotWord_unchecked {h : Hub} {p k n : Nat} (hu : h.unchecked p) (hn : h.slotLast p k ≤ n) (m l v : Nat)
    (tag : BitVec 8) (stamp : Nat) :
    h.slotWord p m l k v n ⟨false, false⟩ false tag stamp =
      { ctx := fieldOf (h.slotCell p m l k) 0 8, real := true
        samp := { val := sampleOf (h.slotCell p m l k) (wordOfBits (h.spLsb p) (h.slotBits p k (laneBits v n))), tag := tag
                  time := stamp } } := by
  have hwhole : h.spC p + (k + 1) * h.spW p ≤ n := hn
  unfold Hub.slotWord
  simp [hu.1, hwhole]

/-! ### One word of a frame -/

theorem filter_range_eq_singleton {n k : Nat} {which : Nat → Bool} (hk : k < n) (hw : ∀ t, which t = true ↔ t = k) :
    (List.range n).filter which = [k] := by
  have hbeq : which = fun t => t == k := by
    funext t
    rw [Bool.eq_iff_iff, hw t, beq_iff_eq]
  rw [hbeq, List.filter_beq, List.count_eq_one_of_mem List.nodup_range (List.mem_range.2 hk)]
  rfl

/-- The tag bits a frame gives every word of it. -/
def Hub.frameTag (h : Hub) (p : Nat) : BitVec 8 :=
  (if h.rd (fSpPPlanFrame p) < h.cf 3 p (0x10 + 4 * h.spEntry p) 12 8 then tSettle else 0#8) |||
    (if (h.port p).late then tLate else 0#8)

/-- A port of one lane gives the FIFO the word of the one slot picked, when it is mapped (R99, R102). -/
theorem Hub.pushSlots_one {h : Hub} {p k c : Nat} {which : Nat → Bool} (hu : h.unchecked p) (hl : h.spLanes p = 1)
    (hk : k < h.spS p) (hw : ∀ t, which t = true ↔ t = k) (hc : h.slotCtx p (h.spMap p (h.spEntry p)) 0 k = some c)
    (lanes : List Nat) (n dips : Nat) (cut keepUp bad : Bool) :
    h.pushSlots p lanes n cut dips keepUp bad which =
      h.spPush p keepUp bad (h.slotWord p (h.spMap p (h.spEntry p)) 0 k (lanes.getD 0 0) n ⟨false, false⟩ cut
        (h.frameTag p ||| (if dips.testBit 16 || dips.testBit k then tDip else 0#8)) (h.port p).stamp) := by
  have hslots : (h.slotOrder p).filter (fun q => which q.2) = [(0, k)] := by
    unfold Hub.slotOrder
    rw [hl]
    have hpairs : ((List.range (h.spS p)).flatMap fun t => (List.range 1).map fun l => (l, t)) =
        (List.range (h.spS p)).map (fun t => (0, t)) := by
      rw [List.map_eq_flatMap]
      rfl
    rw [hpairs, List.filter_map]
    exact congrArg (List.map _) (filter_range_eq_singleton hk hw)
  unfold Hub.pushSlots
  dsimp only
  rw [hslots]
  simp [hc, hl, List.range_one, Hub.checkLane_unchecked hu, Hub.frameTag]

/-- A word joins a FIFO with room behind which nothing was lost. -/
theorem Hub.spPush_room {h : Hub} {p : Nat} (hlen : (h.port p).fifo.length < 8) (hgaps : (h.port p).gaps = [])
    (hheld : h.stHeld heldFifo = false) (bad : Bool) (w : FifoWord) :
    (h.spPush p false bad w).port p = { h.port p with fifo := (h.port p).fifo ++ [w] } := by
  unfold Hub.spPush
  extract_lets h1 h2 x s
  have hserved : h2 = h1 := if_neg Bool.false_ne_true
  have hport : h2.port p = h.port p := by
    rw [hserved]
    unfold h1
    split <;> rfl
  have hst : h2.stHeld heldFifo = false := by
    rw [← hheld, hserved]
    unfold h1
    split <;> rfl
  have hx : x = h.port p := hport
  have hs : s = w.samp := by
    unfold s
    simp [hx, hgaps, Samp.addIf]
  have hfilter : (h.port p).gaps.filter (fun c => c != w.ctx) = (h.port p).gaps := by
    rw [hgaps]
    rfl
  rw [if_neg (by rw [hx, hst]; simp; omega), Hub.setPort_port_same, hs, hx, hfilter]

/-! ### The completion of a controller frame -/

/-- Every edge of a frame has come: its checks are made and its words given to the FIFO in the order of their edges (R102). -/
def Hub.frameWords (h : Hub) (p : Nat) (lanes : List Nat) (dip : Nat) (keepUp bad : Bool) : Hub :=
  (dedup ((List.range (h.spS p)).map (fun t => h.slotLast p t) ++ [h.spE p])).foldl (fun a n =>
    (a.edgeChecks p lanes n).pushSlots p lanes n false dip keepUp bad (fun t => h.wordDue p t == n)) h

theorem Hub.frameComplete_eq {h : Hub} {p : Nat} (hphase : (h.port p).phase = 1) (ht : h.spTarget p = false)
    (lanes : List Nat) (shadow : List Word) (dip : Nat) (keepUp bad : Bool) :
    h.frameComplete p lanes shadow dip keepUp bad =
      ((h.frameWords p lanes dip keepUp bad).frameDone p false false shadow).modPort p (fun y => { y with phase := 2 }) := by
  unfold Hub.frameComplete
  rw [if_pos ⟨hphase, by simp [ht]⟩]
  rfl

theorem Hub.frameWords_inFrame (h : Hub) (p : Nat) (lanes : List Nat) (dip : Nat) (keepUp bad : Bool) (q : Nat) :
    ((h.frameWords p lanes dip keepUp bad).port q).inFrame = (h.port q).inFrame :=
  foldl_keep (fun a => (a.port q).inFrame) _
    (fun a n => (Hub.pushSlots_inFrame ..).trans (a.edgeChecks_inFrame p lanes n q)) _ _

theorem Hub.frameWords_rd {p : Nat} {f : Fld} (hf : f.offFrame p) (h : Hub) (lanes : List Nat) (dip : Nat) (bad : Bool) :
    (h.frameWords p lanes dip false bad).rd f = h.rd f :=
  foldl_keep (fun a => a.rd f) _ (fun a n => (Hub.pushSlots_rd hf ..).trans (a.edgeChecks_rd hf lanes n)) _ _

theorem Hub.frameComplete_rd {h : Hub} {p : Nat} {f : Fld} (hf : f.offFrame p) (hphase : (h.port p).phase = 1)
    (ht : h.spTarget p = false) (lanes : List Nat) (shadow : List Word) (dip : Nat) (bad : Bool) :
    (h.frameComplete p lanes shadow dip false bad).rd f =
      ((h.frameWords p lanes dip false bad).count (fSpPFramesFrames p) 1).rd f := by
  rw [Hub.frameComplete_eq hphase ht, Hub.modPort_rd, Hub.frameDone_rd hf]
  rfl

/-- In an unchecked port of one slot the last edge brings the one word. -/
theorem Hub.frameWords_single {h : Hub} {p : Nat} (hu : h.unchecked p) (hs : h.spS p = 1) (lanes : List Nat) (dip : Nat)
    (keepUp bad : Bool) : h.frameWords p lanes dip keepUp bad =
      h.pushSlots p lanes (h.spE p) false dip keepUp bad (fun t => h.slotLast p t == h.slotLast p 0) := by
  have hlast : h.slotLast p 0 = h.spE p := by
    rw [Hub.spE_unchecked hu, Hub.slotLast, hs]
  have hedges : dedup ((List.range (h.spS p)).map (fun t => h.slotLast p t) ++ [h.spE p]) = [h.spE p] := by
    simp [hs, List.range_one, hlast, dedup]
  unfold Hub.frameWords
  rw [hedges, List.foldl_cons, List.foldl_nil, Hub.edgeChecks_unchecked hu, hlast]
  simp only [Hub.wordDue_unchecked hu]

/-! ### The boundary between frames -/

/-- No frame is in progress any more (R91). -/
def Hub.frameClosed (h : Hub) (p : Nat) : Hub :=
  (h.modPort p (fun y => { y with phase := 0, entry := none })).off (fSpPStatusBusy p)

theorem Hub.frameClosed_port (h : Hub) (p : Nat) : (h.frameClosed p).port p = { h.port p with phase := 0, entry := none } :=
  h.modPort_port_same p (fun y => { y with phase := 0, entry := none })

theorem Hub.frameClosed_reg (h : Hub) (p : Nat) {a : Nat} (ha : a ≠ rSpPStatus p) : (h.frameClosed p).reg a = h.reg a :=
  (Hub.reg_off_ne _ _ ha).trans (h.modPort_reg p _ a)

theorem Hub.frameClosed_training (h : Hub) (p : Nat) : (h.frameClosed p).training p = h.training p := by
  have htrain : (h.frameClosed p).rd (fSpPCtlTrain p) = h.rd (fSpPCtlTrain p) :=
    Hub.rd_congr (h.frameClosed_reg p (by simp [fSpPCtlTrain]))
  unfold Hub.training
  rw [htrain]
  rfl

theorem Hub.frameClosed_idle (h : Hub) (p : Nat) : (h.frameClosed p).is (fSpPStatusBusy p) = false :=
  Hub.is_off_same _ (by simp [fSpPStatusBusy])

theorem Hub.holdDone_eq {h : Hub} {p : Nat} (hphase : (h.port p).phase = 2) : h.holdDone p = (h.frameClosed p).moveTaps p := by
  unfold Hub.holdDone
  rw [if_pos hphase]
  rfl

/-! ### Taps -/

theorem tapFld_eq {l : Nat} (hl : l < 4) (p : Nat) : tapFld p l = ⟨rSpPTap p, 8 * l, 6⟩ := by
  interval_cases l <;> rfl

theorem tapFld_ne_wake {l : Nat} (hl : l < 4) (p : Nat) : (tapFld p l).addr ≠ 0x30 := by
  rw [tapFld_eq hl]
  exact portReg_ne_wake (by decide)

theorem tapFld_apart {l k : Nat} (hl : l < 4) (hk : k < 4) (hlk : k ≠ l) (p : Nat) : (tapFld p k).apart (tapFld p l) := by
  rw [tapFld_eq hl, tapFld_eq hk]
  refine ⟨?_, ?_, ?_⟩ <;> dsimp only <;> omega

theorem Hub.spLanes_le (h : Hub) (p : Nat) : h.spLanes p ≤ 4 := by
  unfold Hub.spLanes
  dsimp only
  (repeat' split) <;> omega

/-- Of a row of steps over numbered units, a field that only unit `l`'s step touches changes by that step alone. -/
theorem Hub.foldl_range_once {f : Fld} {step : Hub → Nat → Hub} {v : Nat → Nat} {l n : Nat} (hl : l < n)
    (hown : ∀ a, (step a l).rd f = v (a.rd f)) (hother : ∀ a k, k < n → k ≠ l → (step a k).rd f = a.rd f) (h : Hub) :
    ((List.range n).foldl step h).rd f = v (h.rd f) := by
  induction n with
  | zero => omega
  | succ n ih =>
    rw [List.range_succ, List.foldl_append, List.foldl_cons, List.foldl_nil]
    rcases Nat.lt_succ_iff_lt_or_eq.1 hl with hlt | rfl
    · rw [hother _ n (Nat.lt_succ_self n) (by omega)]
      exact ih hlt (fun a k hk hkl => hother a k (Nat.lt_succ_of_lt hk) hkl)
    · rw [hown]
      refine congrArg v ?_
      refine foldl_keep_mem (fun a => a.rd f) step _ (fun a k hk => ?_) h
      have hkl := List.mem_range.1 hk
      exact hother a k (by omega) (by omega)

/-- The taps' moves change of a port a waiting tap word alone. -/
theorem Hub.moveTaps_port (h : Hub) (p : Nat) : ∃ w, (h.moveTaps p).port p = { h.port p with newTap := w } := by
  unfold Hub.moveTaps
  dsimp only
  split
  · refine ⟨(h.port p).newTap, foldl_keep (fun a => a.port p) _ (fun a l => ?_) _ _⟩
    split <;> rfl
  · unfold Hub.applyTap
    split
    · split
      · exact ⟨_, rfl⟩
      · refine ⟨none, ?_⟩
        rw [Hub.modPort_port_same, foldl_keep (fun a => a.port p) _ (fun a l => a.wr_port _ _ p)]
    · exact ⟨_, rfl⟩

theorem Hub.moveTaps_rests {h : Hub} {p : Nat} (ht : h.training p = false) (hn : (h.port p).newTap = none) :
    h.moveTaps p = h := by
  unfold Hub.moveTaps
  dsimp only
  rw [if_neg (by simp [ht]), Hub.applyTap, hn]

/-- A tap word written with training off is in force from the boundary on (R117). -/
theorem Hub.moveTaps_applies {h : Hub} {p : Nat} {w : Word} (ht : h.training p = false) (hn : (h.port p).newTap = some w)
    (l : Fin 4) : (h.moveTaps p).rd (tapFld p l) = fieldOf w (8 * l) 6 := by
  unfold Hub.moveTaps
  dsimp only
  rw [if_neg (by simp [ht]), Hub.applyTap, hn]
  dsimp only
  rw [if_neg (by simp [ht]), Hub.modPort_rd]
  refine Hub.foldl_range_once (v := fun _ => fieldOf w (8 * l) 6) l.isLt (fun a => ?_) (fun a k hk hkl => ?_) h
  · rw [Hub.rd_wr_same _ _ (by rw [tapFld_eq l.isLt]; dsimp only; omega), tapFld_eq l.isLt]
    exact Nat.mod_eq_of_lt (fieldOf_lt _ _ _)
  · exact a.rd_wr_apart _ (tapFld_apart l.isLt hk hkl p)

/-- Where a tap goes from `cur` when its target, one higher than the tap it names, is `t`; 0 names none (R107). -/
def tapMove (t cur : Nat) : Nat := if t = 0 ∨ cur + 1 = t then cur else if cur + 1 < t then (cur + 1) % 64 else cur - 1

theorem Hub.moveTaps_steps {h : Hub} {p l : Nat} (ht : h.training p = true) (hl : l < h.spLanes p) :
    (h.moveTaps p).rd (tapFld p l) = tapMove (NMap.get (h.port p).target l) (h.rd (tapFld p l)) := by
  have hl4 : l < 4 := Nat.lt_of_lt_of_le hl (h.spLanes_le p)
  unfold Hub.moveTaps
  dsimp only
  rw [if_pos ht]
  refine Hub.foldl_range_once (v := tapMove (NMap.get (h.port p).target l)) hl (fun a => ?_) (fun a k hk hkl => ?_) h
  · have hlt : a.rd (tapFld p l) < 64 := by
      have := a.rd_lt (tapFld p l)
      rwa [show (tapFld p l).len = 6 by rw [tapFld_eq hl4]] at this
    unfold tapMove
    by_cases hrest : NMap.get (h.port p).target l = 0 ∨ a.rd (tapFld p l) + 1 = NMap.get (h.port p).target l
    · rw [if_pos (by simpa using hrest), if_pos hrest]
    · rw [if_neg (by simpa using hrest), if_neg hrest, Hub.rd_wr_same _ _ (by rw [tapFld_eq hl4]; dsimp only; omega),
        show (tapFld p l).len = 6 by rw [tapFld_eq hl4]]
      split
      · rfl
      · exact Nat.mod_eq_of_lt (by omega)
  · have hk4 : k < 4 := Nat.lt_of_lt_of_le hk (h.spLanes_le p)
    split
    · rfl
    · exact a.rd_wr_apart _ (tapFld_apart hl4 hk4 hkl p)

end Sys2Proof.Machine
end

section
/-! SUPPORT. The staged role and divider of a sample port (R109), and the frames of a controller as a whole (R91 to R118). -/

namespace Sys2Proof.Machine
open Sys2Proof

/-- A committed role takes effect; a target drops a held start (R109). -/
def Hub.roleSwitched (h : Hub) (p : Nat) : Option Nat → Hub
  | some r => (h.wr (fSpPCtlRole p) r).modPort p (fun y => { y with heldStart := if r = 1 then none else y.heldStart })
  | none => h

/-- A committed divider takes effect (R109). -/
def Hub.divSwitched (h : Hub) (p : Nat) : Option Nat → Hub
  | some d => h.wr (fSpPDivDiv p) d
  | none => h

theorem Hub.stagedApply_eq {h : Hub} {p : Nat} (hphase : (h.port p).phase = 0) : h.stagedApply p =
    ((h.roleSwitched p (h.port p).newRole).divSwitched p (h.port p).newDiv).modPort p
      (fun y => { y with newRole := none, newDiv := none }) := by
  unfold Hub.stagedApply
  dsimp only
  rw [if_pos hphase]
  cases (h.port p).newRole <;> cases (h.port p).newDiv <;> rfl

theorem Hub.roleSwitched_reg (h : Hub) (p : Nat) (r : Option Nat) {a : Nat} (ha : a ≠ rSpPCtl p) :
    (h.roleSwitched p r).reg a = h.reg a := by
  cases r with
  | none => rfl
  | some r => exact (Hub.modPort_reg _ _ _ a).trans (h.reg_wr_ne _ r ha)

theorem Hub.divSwitched_reg (h : Hub) (p : Nat) (d : Option Nat) {a : Nat} (ha : a ≠ rSpPDiv p) :
    (h.divSwitched p d).reg a = h.reg a := by
  cases d with
  | none => rfl
  | some d => exact h.reg_wr_ne _ d ha

theorem Hub.divSwitched_port (h : Hub) (p : Nat) (d : Option Nat) (q : Nat) : (h.divSwitched p d).port q = h.port q := by
  cases d <;> rfl

theorem Hub.stagedApply_ctl {h : Hub} {p : Nat} (hphase : (h.port p).phase = 0) :
    (h.stagedApply p).reg (rSpPCtl p) = (h.roleSwitched p (h.port p).newRole).reg (rSpPCtl p) := by
  rw [Hub.stagedApply_eq hphase, Hub.modPort_reg, Hub.divSwitched_reg _ _ _ (by simp)]

theorem Hub.stagedApply_div {h : Hub} {p : Nat} (hphase : (h.port p).phase = 0) :
    (h.stagedApply p).reg (rSpPDiv p) = (h.divSwitched p (h.port p).newDiv).reg (rSpPDiv p) := by
  rw [Hub.stagedApply_eq hphase, Hub.modPort_reg]
  cases (h.port p).newDiv with
  | none => exact h.roleSwitched_reg p _ (by simp)
  | some d =>
    have hsame := h.roleSwitched_reg p (h.port p).newRole (a := rSpPDiv p) (by simp)
    exact (Hub.reg_wr_same _ (fSpPDivDiv p) d).trans
      ((congrArg (fun w => putField w 0 16 d) hsame).trans (h.reg_wr_same (fSpPDivDiv p) d).symm)

theorem Hub.stagedApply_port {h : Hub} {p : Nat} (hphase : (h.port p).phase = 0) : (h.stagedApply p).port p =
    { (h.roleSwitched p (h.port p).newRole).port p with newRole := none, newDiv := none } := by
  rw [Hub.stagedApply_eq hphase, Hub.modPort_port_same, Hub.divSwitched_port]

/-- Settles O9: every clause is one of the port's operations, through what it leaves of registers and of the port. -/
theorem portFrames : Obligations.PortFrames := by
  refine ⟨?_, ?_, ?_, ?_, ?_, ?_, ?_, ?_, ?_, ?_, ?_⟩
  · -- PORT_START, idle port
    intro s p hup hon ht hphase hheld
    refine ⟨_, rfl, ?_⟩
    dsimp only
    rw [Hub.portStart_begins hup hon ht hphase hheld, latchIrq_port, Hub.spBegin_port]
    refine ⟨rfl, rfl, rfl, rfl, rfl, ?_, fun hr => ?_, fun hr => ?_, fun htrg hk => ?_, fun a hlo hhi hstatus hplan => ?_⟩
    · rw [latchIrq_is _ _ _ _ (portReg_ne_wake (by decide)), Hub.spBegin_busy]
    · rw [latchIrq_rd _ _ _ _ (portReg_ne_wake (by decide)), latchIrq_rd _ _ _ _ (portReg_ne_wake (by decide))]
      exact Hub.spBegin_restart hr
    · rw [latchIrq_reg _ _ _ _ (portReg_ne_wake (by decide)),
        Hub.spBegin_reg_ne _ _ (a := rSpPPlan p) (by simp only [rSpPPlan]; omega) (by simp), Hub.planRestarted_rests hr]
    · rw [latchIrq_trg, Hub.spBegin_trg none htrg hk]
    · rw [latchIrq_reg _ _ _ _ (by omega), Hub.spBegin_reg_ne _ _ (by omega) hstatus, Hub.planRestarted_reg _ _ hplan]
  · -- PORT_START during a frame
    intro s p hup hon ht hphase hheld
    refine ⟨_, rfl, ?_⟩
    dsimp only
    rw [Hub.portStart_holds hup hon ht hphase hheld, latchIrq_port, Hub.setPort_port_same]
    exact ⟨rfl, fun a ha => latchIrq_reg _ _ _ _ ha⟩
  · -- PORT_START with one held already
    intro s p hup hon ht hheld
    refine ⟨_, rfl, ?_⟩
    dsimp only
    have hkept := s.hub.spDrop_inFrame p p
    rw [Hub.portStart_drops hup hon ht hheld, latchIrq_port]
    refine ⟨?_, ?_, Port.eq_of_inFrame hkept Port.heldStart, Port.eq_of_inFrame hkept Port.phase⟩
    · rw [latchIrq_is _ _ _ _ (portReg_ne_wake (by decide)), Hub.is_congr (Hub.spDrop_rd (offFrame_startDrop p)), Hub.countSat,
        Hub.is_wr_apart _ _ (by simp [Fld.apart, fSpPLostStarts, fSpPStatusStartDrop]),
        Hub.is_on_same _ (by simp [fSpPStatusStartDrop]) (by simp [fSpPStatusStartDrop])]
    · rw [latchIrq_rd _ _ _ _ (portReg_ne_wake (by decide)), Hub.spDrop_rd (offFrame_lostStarts p),
        Hub.rd_countSat_same _ _ (by simp [fSpPLostStarts]),
        Hub.rd_on_apart _ (by simp [Fld.apart, fSpPLostStarts, fSpPStatusStartDrop])]
      rfl
  · -- HELD_START_TAKEN
    intro s p c hheld hphase hup hon
    refine ⟨_, rfl, ?_⟩
    dsimp only
    obtain ⟨hlate, hcount, hlast⟩ := s.hub.spBegin_late p (s.hub.cyc - c)
    rw [Hub.takeHeld_begins hheld hphase hup hon, latchIrq_port, Hub.spBegin_port]
    refine ⟨rfl, rfl, rfl, rfl, rfl, ?_, ?_, ?_, ?_⟩
    · rw [latchIrq_is _ _ _ _ (portReg_ne_wake (by decide)), hlate]
    · rw [latchIrq_is _ _ _ _ (portReg_ne_wake (by decide)), Hub.spBegin_busy]
    · rw [latchIrq_rd _ _ _ _ (portReg_ne_wake (by decide)), hcount]
    · rw [latchIrq_rd _ _ _ _ (portReg_ne_wake (by decide)), hlast]
  · -- PORT_FRAME_COMPLETE
    intro s p lanes shadow dip keepUp parity hphase ht
    refine ⟨_, rfl, ?_⟩
    dsimp only
    have hkept := s.hub.frameWords_inFrame p lanes dip.toNat keepUp parity p
    obtain ⟨flags, sweep, pass, target, swept, hdone⟩ :=
      (s.hub.frameWords p lanes dip.toNat keepUp parity).frameDone_port p false false shadow
    rw [Hub.frameComplete_eq hphase ht, latchIrq_port, Hub.modPort_port_same, hdone]
    exact ⟨rfl, Port.eq_of_inFrame hkept Port.stamp⟩
  · -- PORT_FRAME_COMPLETE, its count
    intro s p lanes shadow dip parity hphase ht
    refine ⟨_, rfl, ?_, ?_⟩
    · dsimp only
      rw [latchIrq_rd _ _ _ _ (portReg_ne_wake (by decide)), Hub.frameComplete_rd (offFrame_frames p) hphase ht,
        Hub.rd_count_same _ _ (by simp [fSpPFramesFrames]), Hub.frameWords_rd (offFrame_frames p)]
      rfl
    · dsimp only
      rw [latchIrq_rd _ _ _ _ (portReg_ne_wake (by decide)), Hub.frameComplete_rd (offFrame_bad p) hphase ht, Hub.count,
        Hub.rd_wr_apart _ _ (by simp [Fld.apart, fSpPFramesFrames, fSpPErrBad]), Hub.frameWords_rd (offFrame_bad p)]
  · -- PORT_FRAME_COMPLETE, its sample
    intro s p v c dip parity hphase ht hlanes hslots hcrc hsync hctx hlen hgaps hheld
    refine ⟨_, rfl, ?_⟩
    dsimp only
    have hu : s.hub.unchecked p := ⟨hcrc, hsync⟩
    obtain ⟨flags, sweep, pass, target, swept, hdone⟩ :=
      (s.hub.frameWords p [v] dip.toNat false parity).frameDone_port p false false []
    have hlast : s.hub.slotLast p 0 = s.hub.spE p := by
      rw [Hub.spE_unchecked hu, Hub.slotLast, hslots]
    have hword : (s.hub.frameWords p [v] dip.toNat false parity).port p = { s.hub.port p with
        fifo := (s.hub.port p).fifo ++ [s.hub.slotWord p (s.hub.spMap p (s.hub.spEntry p)) 0 0 v (s.hub.spE p) ⟨false, false⟩ false
          (s.hub.frameTag p ||| (if dip.toNat.testBit 16 || dip.toNat.testBit 0 then tDip else 0#8)) (s.hub.port p).stamp] } := by
      rw [Hub.frameWords_single hu hslots, Hub.pushSlots_one hu hlanes (by omega)
        (fun t => ⟨fun he => Hub.slotLast_inj (beq_iff_eq.1 he), fun he => by simp [he]⟩) hctx, Hub.spPush_room hlen hgaps hheld]
      rfl
    rw [Hub.frameComplete_eq hphase ht, latchIrq_port, Hub.modPort_port_same, hdone, hword,
      Hub.slotWord_unchecked hu (Nat.le_of_eq hlast), Hub.slotCtx_some hctx]
    rfl
  · -- HOLD_PERIODS_COMPLETE
    intro s p hphase
    refine ⟨_, rfl, ?_⟩
    dsimp only
    obtain ⟨w, hmoved⟩ := (s.hub.frameClosed p).moveTaps_port p
    rw [Hub.holdDone_eq hphase, latchIrq_port, hmoved, Hub.frameClosed_port]
    refine ⟨rfl, ?_, fun htrain htap a ha => ?_, fun w l htrain htap => ?_, fun l hl htrain => ?_⟩
    · rw [latchIrq_is _ _ _ _ (portReg_ne_wake (by decide)), Hub.is_congr (Hub.moveTaps_rd (offFrame_busy p) _),
        Hub.frameClosed_idle]
    · rw [latchIrq_reg _ _ _ _ ha.1, Hub.moveTaps_rests (by rwa [Hub.frameClosed_training]) (by rwa [Hub.frameClosed_port]),
        Hub.frameClosed_reg _ _ ha.2]
    · rw [latchIrq_rd _ _ _ _ (tapFld_ne_wake l.isLt p),
        Hub.moveTaps_applies (by rwa [Hub.frameClosed_training]) (by rwa [Hub.frameClosed_port])]
    · have hl4 : l < 4 := Nat.lt_of_lt_of_le hl (s.hub.spLanes_le p)
      have htap : (s.hub.frameClosed p).rd (tapFld p l) = s.hub.rd (tapFld p l) :=
        Hub.rd_congr (s.hub.frameClosed_reg p (by rw [tapFld_eq hl4]; simp))
      rw [latchIrq_rd _ _ _ _ (tapFld_ne_wake hl4 p), Hub.moveTaps_steps (h := s.hub.frameClosed p) (by rwa [Hub.frameClosed_training]) hl,
        Hub.frameClosed_port, htap]
      rfl
  · -- SP_PLAN_RESTART
    intro s p hanswers
    refine ⟨_, rfl, ?_⟩
    dsimp only
    rw [Hub.atReg_answers _ hanswers, latchIrq_port, Hub.modPort_port_same]
    exact ⟨rfl, fun a ha => latchIrq_reg _ _ _ _ ha⟩
  · -- PORT_STAGED_APPLY
    intro s p hphase
    refine ⟨_, rfl, ?_⟩
    dsimp only
    rw [latchIrq_port, Hub.stagedApply_port hphase]
    refine ⟨fun r hr => ⟨?_, fun h1 => ?_⟩, fun d hd => ?_, fun hr => ?_, fun hd => ?_, rfl, rfl⟩
    · rw [latchIrq_rd _ _ _ _ (portReg_ne_wake (by decide)), Hub.rd_congr (Hub.stagedApply_ctl hphase), hr]
      exact Hub.rd_wr_same _ _ (by simp [fSpPCtlRole])
    · rw [hr, h1, Hub.roleSwitched, Hub.modPort_port_same]
      rfl
    · rw [latchIrq_rd _ _ _ _ (portReg_ne_wake (by decide)), Hub.rd_congr (Hub.stagedApply_div hphase), hd]
      exact Hub.rd_wr_same _ _ (by simp [fSpPDivDiv])
    · rw [latchIrq_reg _ _ _ _ (portReg_ne_wake (by decide)), Hub.stagedApply_ctl hphase, hr]
      rfl
    · rw [latchIrq_reg _ _ _ _ (portReg_ne_wake (by decide)), Hub.stagedApply_div hphase, hd]
      rfl
  · -- SP_STAMP_READ
    intro s p hanswers
    refine ⟨_, rfl, ?_⟩
    dsimp only
    rw [Hub.readOf_answers _ hanswers, latchIrq_host, latchIrq_port]
    refine ⟨rfl, ?_, fun a ha => latchIrq_reg _ _ _ _ ha⟩
    exact congrArg Port.latch (s.hub.modPort_port_same p (fun y => { y with latch := 8 * (s.hub.port p).lastStamp + y.flags }))

end Sys2Proof.Machine
end

section
/-! SUPPORT. Target frames of a sample port (R94 to R96, R102). -/

namespace Sys2Proof.Machine
open Sys2Proof

/-! ### The select and the edges beyond a frame -/

/-- The port at the start edge of a target frame. -/
def Hub.targetPort (h : Hub) (p tdc : Nat) (whole dip : Bool) : Port :=
  { h.port p with
    phase := 1, start := h.cyc, stamp := Machine.report (if tdc = 0 then h.tbVal (h.spTb p) else h.tbNext (h.spTb p))
    late := false, restart := false, entry := some 0, edges := 0, lanes := [], dips := if dip then 2 ^ 16 else 0
    whole := whole, bad := false }

theorem Hub.selectAssert_begins {h : Hub} {p : Nat} (ht : h.spTarget p = true) (hphase : (h.port p).phase = 0)
    (hup : h.spUp p = true) (hon : h.spOn p = true) (tdc : Nat) (whole dip : Bool) :
    h.selectAssert p tdc whole dip =
      ((h.planRestarted p).setPort p (h.targetPort p tdc whole dip)).on (fSpPStatusBusy p) := by
  unfold Hub.selectAssert
  dsimp only
  rw [if_neg (by simp [ht, hphase]), if_pos (by simp [hup, hon])]
  rfl

theorem Hub.extraEdge_counts {h : Hub} {p : Nat} (ht : h.spTarget p = true) (hup : h.spUp p = true) (hon : h.spOn p = true)
    (hx : (h.port p).phase = 0 ∨ (h.port p).phase = 1 ∧ h.spE p ≤ (h.port p).edges) :
    h.extraEdge p = (h.on (fSpPStatusOverclock p)).countSat (fSpPLostEdges p) 1 := by
  unfold Hub.extraEdge
  dsimp only
  rw [if_pos (by simpa [ht, hup, hon] using hx)]

/-! ### The edges of a frame -/

/-- The port behind one more edge of its frame. -/
def Hub.edgePort (h : Hub) (p : Nat) (bits : BitVec 4) (dip : Bool) : Port :=
  { h.port p with
    edges := (h.port p).edges + 1
    dips := if dip && decide (h.spC p ≤ (h.port p).edges) then
        (h.port p).dips ||| 2 ^ (((h.port p).edges - h.spC p) / h.spW p) else (h.port p).dips
    lanes := (List.range (h.spLanes p)).foldl (fun m l => NMap.set m l (2 * NMap.get m l + b2n (bits.getLsbD l)))
      (h.port p).lanes }

/-- The hub behind the checks an edge completes and the words it lets enter. -/
def Hub.edgeWords (h : Hub) (p : Nat) (bits : BitVec 4) (dip keepUp bad : Bool) : Hub :=
  ((h.setPort p (h.edgePort p bits dip)).edgeChecks p (h.edgePort p bits dip).laneList ((h.port p).edges + 1)).pushSlots p
    (h.edgePort p bits dip).laneList ((h.port p).edges + 1) false (h.edgePort p bits dip).dips keepUp bad
    (fun t => if (h.port p).whole then h.wordDue p t == (h.port p).edges + 1
      else decide ((h.port p).edges + 1 = h.spE p))

theorem Hub.captureEdge_eq {h : Hub} {p : Nat} (hphase : (h.port p).phase = 1) (ht : h.spTarget p = true)
    (he : (h.port p).edges < h.spE p) (bits : BitVec 4) (dip : Bool) (shadow : List Word) (keepUp bad : Bool) :
    h.captureEdge p bits dip shadow keepUp bad =
      if (h.port p).edges + 1 = h.spE p then (h.edgeWords p bits dip keepUp bad).frameDone p false false shadow
      else h.edgeWords p bits dip keepUp bad := by
  unfold Hub.captureEdge
  dsimp only
  rw [if_pos ⟨hphase, ht, he⟩]
  simp only [decide_eq_true_eq]
  rfl

theorem Hub.edgeWords_inFrame (h : Hub) (p : Nat) (bits : BitVec 4) (dip keepUp bad : Bool) :
    ((h.edgeWords p bits dip keepUp bad).port p).inFrame = (h.edgePort p bits dip).inFrame := by
  unfold Hub.edgeWords
  rw [Hub.pushSlots_inFrame, Hub.edgeChecks_inFrame, Hub.setPort_port_same]

theorem Hub.edgeWords_rd {p : Nat} {f : Fld} (hf : f.offFrame p) (h : Hub) (bits : BitVec 4) (dip bad : Bool) :
    (h.edgeWords p bits dip false bad).rd f = h.rd f := by
  unfold Hub.edgeWords
  rw [Hub.pushSlots_rd hf, Hub.edgeChecks_rd hf, Hub.setPort_rd]

/-- A row of shifts over numbered lanes shifts each lane below the number once. -/
theorem foldl_shift_get (bit : Nat → Nat) (m : NMap Nat) {l n : Nat} (hl : l < n) :
    NMap.get ((List.range n).foldl (fun m k => NMap.set m k (2 * NMap.get m k + bit k)) m) l = 2 * NMap.get m l + bit l := by
  have hbeyond : ∀ n ≤ l, NMap.get ((List.range n).foldl (fun m k => NMap.set m k (2 * NMap.get m k + bit k)) m) l =
      NMap.get m l := by
    intro n hn
    induction n with
    | zero => rfl
    | succ n ih =>
      rw [List.range_succ, List.foldl_append, List.foldl_cons, List.foldl_nil, NMap.get_set_ne _ _ (by omega),
        ih (by omega)]
  induction n with
  | zero => omega
  | succ n ih =>
    rw [List.range_succ, List.foldl_append, List.foldl_cons, List.foldl_nil]
    rcases Nat.lt_succ_iff_lt_or_eq.1 hl with hlt | rfl
    · rw [NMap.get_set_ne _ _ (by omega), ih hlt]
    · rw [NMap.get_set_same, hbeyond l (Nat.le_refl l)]

theorem Hub.edgePort_lane (h : Hub) {p l : Nat} (hl : l < h.spLanes p) (bits : BitVec 4) (dip : Bool) :
    NMap.get (h.edgePort p bits dip).lanes l = 2 * NMap.get (h.port p).lanes l + b2n (bits.getLsbD l) :=
  foldl_shift_get (fun k => b2n (bits.getLsbD k)) _ hl

/-- Behind an edge the port is as the edge leaves it, but for its FIFO and, of a completed frame, the sweep and the stamp. -/
theorem Hub.captureEdge_kept {α : Type} {h : Hub} {p : Nat} (hphase : (h.port p).phase = 1) (ht : h.spTarget p = true)
    (he : (h.port p).edges < h.spE p) (bits : BitVec 4) (dip : Bool) (shadow : List Word) (keepUp bad : Bool)
    (g : Port → α) (hframe : ∀ z : Port, g z.inFrame = g z)
    (hdone : ∀ (z : Port) stamp flags sweep pass target swept, g { z with
      lastStamp := stamp, flags := flags, sweep := sweep, pass := pass, target := target, swept := swept } = g z) :
    g ((h.captureEdge p bits dip shadow keepUp bad).port p) = g (h.edgePort p bits dip) := by
  have hwords : g ((h.edgeWords p bits dip keepUp bad).port p) = g (h.edgePort p bits dip) :=
    Port.eq_of_inFrame (h.edgeWords_inFrame p bits dip keepUp bad) g hframe
  rw [Hub.captureEdge_eq hphase ht he]
  split
  · obtain ⟨flags, sweep, pass, target, swept, e⟩ :=
      (h.edgeWords p bits dip keepUp bad).frameDone_port p false false shadow
    rw [e, hdone, hwords]
  · exact hwords

/-- At the last edge of slot `k` of a whole frame an unchecked port of one lane gives the FIFO that slot's word. -/
theorem Hub.edgeWords_slot {h : Hub} {p k c : Nat} (hu : h.unchecked p) (ht : h.spTarget p = true) (hl : h.spLanes p = 1)
    (hk : k < h.spS p) (hlast : (h.port p).edges + 1 = h.slotLast p k) (hwhole : (h.port p).whole = true)
    (hc : h.slotCtx p (h.spMap p 0) 0 k = some c) (hlen : (h.port p).fifo.length < 8) (hgaps : (h.port p).gaps = [])
    (hheld : h.stHeld heldFifo = false) (bits : BitVec 4) (bad : Bool) :
    ((h.edgeWords p bits false false bad).port p).fifo = (h.port p).fifo ++ [{
      ctx := c, real := true
      samp := {
        val := sampleOf (h.slotCell p (h.spMap p 0) 0 k) (wordOfBits (h.spLsb p) (h.slotBits p k
          (laneBits (2 * NMap.get (h.port p).lanes 0 + b2n (bits.getLsbD 0)) ((h.port p).edges + 1))))
        tag := h.frameTag p ||| (if (h.port p).dips.testBit 16 || (h.port p).dips.testBit k then tDip else 0#8)
        time := (h.port p).stamp } }] := by
  let g := h.setPort p (h.edgePort p bits false)
  have hport : g.port p = h.edgePort p bits false := h.setPort_port_same p _
  have hug : g.unchecked p := hu
  have hmap : g.spMap p (g.spEntry p) = h.spMap p 0 := by
    have hentry : g.spEntry p = 0 := if_pos ht
    rw [hentry]
    rfl
  have hwhich : ∀ t, (if (h.port p).whole then h.wordDue p t == (h.port p).edges + 1
      else decide ((h.port p).edges + 1 = h.spE p)) = true ↔ t = k := by
    intro t
    rw [if_pos hwhole, beq_iff_eq, Hub.wordDue_unchecked hu, hlast]
    exact ⟨Hub.slotLast_inj, fun he => he ▸ rfl⟩
  have hlane : (h.edgePort p bits false).laneList.getD 0 0 = 2 * NMap.get (h.port p).lanes 0 + b2n (bits.getLsbD 0) :=
    h.edgePort_lane (l := 0) (by omega) bits false
  have htag : g.frameTag p = h.frameTag p := by
    unfold Hub.frameTag
    rw [hport]
    rfl
  have hctx : g.slotCtx p (g.spMap p (g.spEntry p)) 0 k = some c := by
    rw [hmap]
    exact hc
  unfold Hub.edgeWords
  rw [Hub.edgeChecks_unchecked hug, Hub.pushSlots_one hug hl hk hwhich hctx,
    Hub.spPush_room (h := g) (by rw [hport]; exact hlen) (by rw [hport]; exact hgaps) hheld, hlane,
    Hub.slotWord_unchecked hug (Nat.le_of_eq hlast.symm), Hub.slotCtx_some hctx, hmap, htag, hport]
  rfl

/-! ### The end of a frame -/

/-- The edge a frame stood at lay within a word (R96). -/
def Hub.endsInWord (h : Hub) (p : Nat) : Bool :=
  decide (h.spC p < (h.port p).edges) &&
    (if (h.port p).edges < h.spC p + h.spS p * h.spW p then ((h.port p).edges - h.spC p) % h.spW p != 0
      else decide (h.spC p + h.spS p * h.spW p < (h.port p).edges))

/-- The words of a frame cut short that had not entered the FIFO yet (R96). -/
def Hub.cutWords (h : Hub) (p : Nat) (keepUp bad : Bool) : Hub :=
  h.pushSlots p (h.port p).laneList (h.port p).edges true (h.port p).dips keepUp bad
    (fun t => !(h.port p).whole || decide ((h.port p).edges < h.wordDue p t))

theorem Hub.targetEnd_whole {h : Hub} {p : Nat} (ht : h.spTarget p = true) (hphase : (h.port p).phase = 1)
    (he : h.spE p ≤ (h.port p).edges) (shadow : List Word) (keepUp bad : Bool) :
    h.targetEnd p shadow keepUp bad = (h.frameClosed p).moveTaps p := by
  unfold Hub.targetEnd
  dsimp only
  rw [if_neg (by simp [ht, hphase]), if_pos hphase, if_neg (by omega)]
  rfl

theorem Hub.targetEnd_cut {h : Hub} {p : Nat} (ht : h.spTarget p = true) (hphase : (h.port p).phase = 1)
    (he : (h.port p).edges < h.spE p) (shadow : List Word) (keepUp bad : Bool) :
    h.targetEnd p shadow keepUp bad =
      (((h.cutWords p keepUp bad).frameDone p true (h.endsInWord p) shadow).frameClosed p).moveTaps p := by
  unfold Hub.targetEnd
  dsimp only
  rw [if_neg (by simp [ht, hphase]), if_pos hphase, if_pos ⟨hphase, he⟩]
  rfl

/-- Closing a frame and moving the taps leave every field beside the status bit `busy` and the taps. -/
theorem Hub.closedTaps_rd {p : Nat} {f : Fld} (hf : f.offFrame p) (hb : (fSpPStatusBusy p).apart f) (h : Hub) :
    ((h.frameClosed p).moveTaps p).rd f = h.rd f := by
  rw [Hub.moveTaps_rd hf]
  exact (Hub.rd_off_apart _ hb).trans (h.modPort_rd p _ f)

theorem Hub.closedTaps_busy (h : Hub) (p : Fin 24) : ((h.frameClosed p).moveTaps p).is (fSpPStatusBusy p) = false := by
  rw [Hub.is_congr (Hub.moveTaps_rd (offFrame_busy p) _), Hub.frameClosed_idle]

theorem Hub.closedTaps_port (h : Hub) (p : Nat) : ∃ w, ((h.frameClosed p).moveTaps p).port p =
    { h.port p with phase := 0, entry := none, newTap := w } := by
  obtain ⟨w, e⟩ := (h.frameClosed p).moveTaps_port p
  exact ⟨w, by rw [e, Hub.frameClosed_port]⟩

theorem Hub.closedTaps_reg {h : Hub} {p : Nat} (ht : h.training p = false) (hn : (h.port p).newTap = none) {a : Nat}
    (ha : a ≠ rSpPStatus p) : ((h.frameClosed p).moveTaps p).reg a = h.reg a := by
  rw [Hub.moveTaps_rests (by rwa [Hub.frameClosed_training]) (by rwa [Hub.frameClosed_port]), Hub.frameClosed_reg _ _ ha]

/-- A frame cut short is counted as a frame and as a bad one, and flagged ABORTED or SHORT (R96). -/
theorem Hub.targetEnd_counts {h : Hub} {p : Fin 24} (ht : h.spTarget p = true) (hphase : (h.port p).phase = 1)
    (he : (h.port p).edges < h.spE p) (shadow : List Word) (bad : Bool) :
    (h.targetEnd p shadow false bad).rd (fSpPErrBad p) = satTo 8 (h.rd (fSpPErrBad p) + 1) ∧
    (h.targetEnd p shadow false bad).rd (fSpPFramesFrames p) = (h.rd (fSpPFramesFrames p) + 1) % 2 ^ 32 ∧
    ((h.targetEnd p shadow false bad).is (fSpPStatusAborted p) = true ∨
      (h.targetEnd p shadow false bad).is (fSpPStatusShort p) = true) := by
  have hcut {f : Fld} (hf : f.offFrame p) (hb : (fSpPStatusBusy p).apart f) : (h.targetEnd p shadow false bad).rd f =
      ((((h.cutWords p false bad).on (if h.endsInWord p then fSpPStatusAborted p else fSpPStatusShort p)).countSat
        (fSpPErrBad p) 1).count (fSpPFramesFrames p) 1).rd f := by
    rw [Hub.targetEnd_cut ht hphase he, Hub.closedTaps_rd hf hb, Hub.frameDone_rd hf, if_pos rfl]
  have hwords {f : Fld} (hf : f.offFrame p) : (h.cutWords p false bad).rd f = h.rd f := Hub.pushSlots_rd hf ..
  refine ⟨?_, ?_, ?_⟩
  · have hflag : (if h.endsInWord p then fSpPStatusAborted p else fSpPStatusShort p).apart (fSpPErrBad p) := by
      split <;> simp [Fld.apart, fSpPStatusAborted, fSpPStatusShort, fSpPErrBad]
    rw [hcut (offFrame_bad p) (by simp [Fld.apart, fSpPStatusBusy, fSpPErrBad]), Hub.count,
      Hub.rd_wr_apart _ _ (by simp [Fld.apart, fSpPFramesFrames, fSpPErrBad]), Hub.rd_countSat_same _ _ (by simp [fSpPErrBad]),
      Hub.rd_on_apart _ hflag, hwords (offFrame_bad p)]
    rfl
  · have hflag : (if h.endsInWord p then fSpPStatusAborted p else fSpPStatusShort p).apart (fSpPFramesFrames p) := by
      split <;> simp [Fld.apart, fSpPStatusAborted, fSpPStatusShort, fSpPFramesFrames]
    rw [hcut (offFrame_frames p) (by simp [Fld.apart, fSpPStatusBusy, fSpPFramesFrames]),
      Hub.rd_count_same _ _ (by simp [fSpPFramesFrames]), Hub.countSat,
      Hub.rd_wr_apart _ _ (by simp [Fld.apart, fSpPFramesFrames, fSpPErrBad]), Hub.rd_on_apart _ hflag,
      hwords (offFrame_frames p)]
    rfl
  · have hset {f : Fld} (hf : f.offFrame p) (hb : (fSpPStatusBusy p).apart f) (hfield : f.lo + f.len ≤ 32) (hlen : 0 < f.len)
        (hbad : (fSpPErrBad p).apart f) (hframes : (fSpPFramesFrames p).apart f)
        (hthis : (if h.endsInWord p then fSpPStatusAborted p else fSpPStatusShort p) = f) :
        (h.targetEnd p shadow false bad).is f = true := by
      rw [Hub.is_congr (hcut hf hb), Hub.count, Hub.is_wr_apart _ _ hframes, Hub.countSat, Hub.is_wr_apart _ _ hbad, hthis,
        Hub.is_on_same _ hfield hlen]
    cases hw : h.endsInWord p with
    | true =>
      exact Or.inl (hset (offFrame_aborted p) (by simp [Fld.apart, fSpPStatusBusy, fSpPStatusAborted])
        (by simp [fSpPStatusAborted]) (by simp [fSpPStatusAborted]) (by simp [Fld.apart, fSpPErrBad, fSpPStatusAborted])
        (by simp [Fld.apart, fSpPFramesFrames, fSpPStatusAborted]) (by rw [hw]; rfl))
    | false =>
      exact Or.inr (hset (offFrame_short p) (by simp [Fld.apart, fSpPStatusBusy, fSpPStatusShort])
        (by simp [fSpPStatusShort]) (by simp [fSpPStatusShort]) (by simp [Fld.apart, fSpPErrBad, fSpPStatusShort])
        (by simp [Fld.apart, fSpPFramesFrames, fSpPStatusShort]) (by rw [hw]; rfl))

end Sys2Proof.Machine
end

section
/-! SUPPORT. The ingress path takes the oldest word of the place whose turn it is (R99, R104, R127, R129). -/

namespace Sys2Proof.Machine
open Sys2Proof

/-! ### The turn -/

/-- The round robin has moved past place `u`. -/
def Hub.turnPast (h : Hub) (u : Nat) : Hub := { h with ingress := (u + 1) % 32 }

theorem Hub.ingressServe_port {h : Hub} {u : Nat} (hturn : h.ingressTurn = some u) (hu : u < 24)
    (hheld : h.stHeld heldFifo = false) (bad : Nat → Bool) : h.ingressServe bad = (h.turnPast u).spIngress u (bad u) := by
  unfold Hub.ingressServe
  rw [hturn]
  dsimp only
  rw [if_neg (by simp [hheld]), if_pos hu]
  rfl

theorem Hub.ingressServe_tw {h : Hub} {u : Nat} (hturn : h.ingressTurn = some u) (hu : 24 ≤ u)
    (hheld : h.stHeld heldFifo = false) (bad : Nat → Bool) :
    h.ingressServe bad = (h.turnPast u).twIngress (u - 24) (bad u) := by
  unfold Hub.ingressServe
  rw [hturn]
  dsimp only
  rw [if_neg (by simp [hheld]), if_neg (by omega)]
  rfl

theorem Hub.ingressTurn_empty {h : Hub} (he : (List.range 32).all (fun v => h.ingressLen v == 0) = true) :
    h.ingressTurn = none := by
  refine List.find?_eq_none.2 (fun u hu => ?_)
  obtain ⟨i, -, rfl⟩ := List.mem_map.1 hu
  have hzero := List.all_eq_true.1 he _ (List.mem_range.2 (Nat.mod_lt (h.ingress + i) (by decide)))
  simpa using hzero

theorem exec_ingressWord_waits {s : State} {u : Fin 32} (hturn : s.hub.ingressTurn ≠ some u.val) (parity : Bool) :
    exec (.ingressWord u parity) s = .next { s with hub := latchIrq s.hub s.met s.hub s.met } := by
  have hexec : exec (.ingressWord u parity) s = .next { s with
      hub := latchIrq s.hub s.met
        (if s.hub.ingressTurn = some u.val then s.hub.ingressServe (fun _ => parity) else s.hub) s.met } := rfl
  rw [hexec, if_neg hturn]

theorem exec_ingressWord_serves {s : State} {u : Fin 32} (hturn : s.hub.ingressTurn = some u.val) (parity : Bool) :
    exec (.ingressWord u parity) s = .next { s with
      hub := latchIrq s.hub s.met (s.hub.ingressServe (fun _ => parity)) s.met } := by
  have hexec : exec (.ingressWord u parity) s = .next { s with
      hub := latchIrq s.hub s.met
        (if s.hub.ingressTurn = some u.val then s.hub.ingressServe (fun _ => parity) else s.hub) s.met } := rfl
  rw [hexec, if_pos hturn]

/-! ### The word taken -/

/-- A good sample leaves as it came and is the last good one of its context. -/
theorem resolveWord_good {w : FifoWord} (hreal : w.real = true) (hgood : w.samp.has tAborted = false)
    (last : NMap (BitVec 24)) : resolveWord last w false = (w.samp, NMap.set last w.ctx w.samp.val) := by
  unfold resolveWord
  simp [hreal, hgood]

/-- A word whose parity fails gives its place to the last good sample of its context (R99). -/
theorem resolveWord_bad (last : NMap (BitVec 24)) (w : FifoWord) : resolveWord last w true =
    ({ w.samp with val := NMap.get last w.ctx, tag := w.samp.tag ||| tAborted }, last) := rfl

/-- Whether a context takes samples hangs on its cells, the recoveries, and three register fields. -/
theorem Hub.ctxRuns_congr {h g : Hub} (c : Nat) (hcells : g.cells = h.cells) (hrecs : g.flt.recs = h.flt.recs)
    (hload : g.is fLdrStatusConfigured = h.is fLdrStatusConfigured) (hon : g.is (fFabCCtlEnable c) = h.is (fFabCCtlEnable c))
    (hplan : g.is fClkSupNowReduced = h.is fClkSupNowReduced) : g.ctxRuns c = h.ctxRuns c := by
  have hcf : ∀ i j k lo len, g.cf i j k lo len = h.cf i j k lo len := by
    intro i j k lo len
    unfold Hub.cf Hub.cell
    rw [hcells]
  have hcovers : ∀ r, g.recCovers r 2 c = h.recCovers r 2 c := by
    intro r
    unfold Hub.recCovers Hub.isPartner
    simp only [hcf]
  unfold Hub.ctxRuns Hub.ctxKind Hub.recovering Hub.ctxHeld
  simp only [hcf, hcovers, hrecs, hload, hon, hplan]

/-- A parity error that is not the first of its 1,024 is counted alone (R440). -/
theorem Hub.parityFault_later {h : Hub} {u : Nat} (hn : NMap.get h.flt.parity u ≠ 0) : h.parityFault u =
    { h with flt := { h.flt with parity := NMap.set h.flt.parity u ((NMap.get h.flt.parity u + 1) % 1024) } } := by
  unfold Hub.parityFault
  dsimp only
  rw [if_neg hn]

theorem Hub.wordTaken_reg (h : Hub) (p : Nat) (w : FifoWord) (rest : List FifoWord) (bad : Bool) (a : Nat) :
    (h.wordTaken p w rest bad).reg a = h.reg a := by
  unfold Hub.wordTaken
  exact h.setPort_reg p _ a

/-- The word taken from a port failed its parity, which the port shows and counts (R99). -/
def Hub.wordFlagged (h : Hub) (p : Nat) (w : FifoWord) (rest : List FifoWord) : Hub :=
  ((h.wordTaken p w rest true).on (fSpPStatusParity p)).countSat (fSpPErrParity p) 1

theorem Hub.wordFlagged_reg (h : Hub) (p : Nat) (w : FifoWord) (rest : List FifoWord) {a : Nat} (hs : a ≠ rSpPStatus p)
    (he : a ≠ rSpPErr p) : (h.wordFlagged p w rest).reg a = h.reg a := by
  unfold Hub.wordFlagged
  rw [Hub.reg_countSat_ne _ _ _ he, Hub.reg_on_ne _ _ hs, Hub.wordTaken_reg]

theorem Hub.wordFlagged_shows (h : Hub) (p : Nat) (w : FifoWord) (rest : List FifoWord) :
    (h.wordFlagged p w rest).is (fSpPStatusParity p) = true ∧
    (h.wordFlagged p w rest).rd (fSpPErrParity p) = satTo 8 (h.rd (fSpPErrParity p) + 1) := by
  unfold Hub.wordFlagged
  constructor
  · rw [Hub.countSat, Hub.is_wr_apart _ _ (by simp [Fld.apart, fSpPErrParity, fSpPStatusParity]),
      Hub.is_on_same _ (by simp [fSpPStatusParity]) (by simp [fSpPStatusParity])]
  · have hbefore : ((h.wordTaken p w rest true).on (fSpPStatusParity p)).rd (fSpPErrParity p) = h.rd (fSpPErrParity p) := by
      rw [Hub.rd_on_apart _ (by simp [Fld.apart, fSpPErrParity, fSpPStatusParity])]
      exact Hub.rd_congr (h.wordTaken_reg p w rest true _)
    rw [Hub.rd_countSat_same _ _ (by simp [fSpPErrParity]), hbefore, fSpPErrParity]

/-- The port's word failed its parity: shown, counted and reported (R99, R440). -/
def Hub.wordSpoilt (h : Hub) (p : Nat) (w : FifoWord) (rest : List FifoWord) : Hub := (h.wordFlagged p w rest).parityFault p

theorem Hub.wordSpoilt_eq {h : Hub} {p : Nat} (hn : NMap.get h.flt.parity p ≠ 0) (w : FifoWord) (rest : List FifoWord) :
    h.wordSpoilt p w rest = { h.wordFlagged p w rest with
      flt := { h.flt with parity := NMap.set h.flt.parity p ((NMap.get h.flt.parity p + 1) % 1024) } } :=
  Hub.parityFault_later (h := h.wordFlagged p w rest) hn

theorem Hub.wordSpoilt_regs {h : Hub} {p : Nat} (hn : NMap.get h.flt.parity p ≠ 0) (w : FifoWord) (rest : List FifoWord) :
    (h.wordSpoilt p w rest).regs = (h.wordFlagged p w rest).regs := by
  rw [Hub.wordSpoilt_eq hn]

theorem Hub.wordSpoilt_room {h : Hub} {p c : Nat} (hp : p < 24) (hn : NMap.get h.flt.parity p ≠ 0)
    (hroom : h.ingressRoom c) (w : FifoWord) (rest : List FifoWord) : (h.wordSpoilt p w rest).ingressRoom c := by
  obtain ⟨hruns, hstages, hlen, hshadow, hheld⟩ := hroom
  have hkept {f : Fld} (hs : f.addr ≠ rSpPStatus p) (he : f.addr ≠ rSpPErr p) :
      (h.wordSpoilt p w rest).is f = h.is f :=
    Hub.is_congr (Hub.rd_congr ((Hub.reg_congr (Hub.wordSpoilt_regs hn w rest) _).trans (h.wordFlagged_reg p w rest hs he)))
  have hsame : (h.wordSpoilt p w rest).ctxRuns c = h.ctxRuns c := by
    refine Hub.ctxRuns_congr c (by rw [Hub.wordSpoilt_eq hn]; rfl) (by rw [Hub.wordSpoilt_eq hn])
      (hkept ?_ ?_) (hkept ?_ ?_) (hkept ?_ ?_) <;>
      simp only [fLdrStatusConfigured, rLdrStatus, fFabCCtlEnable, rFabCCtl, fClkSupNowReduced, rClkSupNow, rSpPStatus, rSpPErr] <;>
      omega
  refine ⟨hsame.trans hruns, ?_, ?_, ?_, ?_⟩ <;> rw [Hub.wordSpoilt_eq hn]
  · exact hstages
  · exact hlen
  · exact hshadow
  · exact hheld

end Sys2Proof.Machine
end

section
/-! SUPPORT. Target frames and the ingress path as a whole (R94 to R104, R107, R129). -/

namespace Sys2Proof.Machine
open Sys2Proof

/-- Settles O10: every clause is one of the port's operations on a target's frame, or a turn of the ingress path. -/
theorem portTargets : Obligations.PortTargets := by
  refine ⟨?_, ?_, ?_, ?_, ?_, ?_, ?_, ?_, ?_, ?_, ?_, ?_⟩
  · -- TARGET_SELECT_ASSERT
    intro s p tdc whole dip ht hphase hup hon
    refine ⟨_, rfl, ?_⟩
    dsimp only
    rw [Hub.selectAssert_begins ht hphase hup hon, latchIrq_port, Hub.on_port, Hub.setPort_port_same]
    refine ⟨rfl, rfl, rfl, rfl, rfl, ?_, fun hr => ?_, fun a ⟨hwake, hstatus, hplan⟩ => ?_⟩
    · rw [latchIrq_is _ _ _ _ (portReg_ne_wake (by decide)),
        Hub.is_on_same _ (by simp [fSpPStatusBusy]) (by simp [fSpPStatusBusy])]
    · obtain ⟨hentry, hframe⟩ := Hub.planRestarted_zero hr
      rw [latchIrq_rd _ _ _ _ (portReg_ne_wake (by decide)), latchIrq_rd _ _ _ _ (portReg_ne_wake (by decide)),
        Hub.rd_on_apart _ (by simp [Fld.apart, fSpPStatusBusy, fSpPPlanEntry]),
        Hub.rd_on_apart _ (by simp [Fld.apart, fSpPStatusBusy, fSpPPlanFrame])]
      exact ⟨hentry, hframe⟩
    · rw [latchIrq_reg _ _ _ _ hwake, Hub.reg_on_ne _ _ hstatus, Hub.setPort_reg, Hub.planRestarted_reg _ _ hplan]
  · -- TARGET_CAPTURE_EDGE
    intro s p bits dip shadow keepUp parity hphase ht he
    refine ⟨_, rfl, ?_⟩
    dsimp only
    rw [latchIrq_port]
    refine ⟨?_, ?_, fun l hl => ?_⟩
    · exact Hub.captureEdge_kept hphase ht he bits dip shadow keepUp parity Port.edges (fun _ => rfl) (fun _ _ _ _ _ _ _ => rfl)
    · exact (Hub.captureEdge_kept hphase ht he bits dip shadow keepUp parity Port.phase (fun _ => rfl)
        (fun _ _ _ _ _ _ _ => rfl)).trans hphase
    · exact (congrArg (fun m => NMap.get m l.val) (Hub.captureEdge_kept hphase ht he bits dip shadow keepUp parity Port.lanes
        (fun _ => rfl) (fun _ _ _ _ _ _ _ => rfl))).trans (s.hub.edgePort_lane hl bits dip)
  · -- TARGET_CAPTURE_EDGE, the last of the frame
    intro s p bits dip shadow parity hphase ht he
    refine ⟨_, rfl, ?_⟩
    dsimp only
    have hkept := s.hub.edgeWords_inFrame p bits dip false parity
    obtain ⟨flags, sweep, pass, target, swept, hdone⟩ :=
      (s.hub.edgeWords p bits dip false parity).frameDone_port p false false shadow
    rw [Hub.captureEdge_eq hphase ht (by omega), if_pos he, latchIrq_port, hdone]
    refine ⟨Port.eq_of_inFrame hkept Port.stamp, ?_⟩
    rw [latchIrq_rd _ _ _ _ (portReg_ne_wake (by decide)), Hub.frameDone_rd (offFrame_frames p), if_neg Bool.false_ne_true,
      Hub.rd_count_same _ _ (by simp [fSpPFramesFrames]), Hub.edgeWords_rd (offFrame_frames p)]
    rfl
  · -- TARGET_CAPTURE_EDGE, the last of a slot: its sample
    intro s p bits shadow k c parity hphase ht he hwhole hlanes hk hlast hcrc hsync hctx hlen hgaps hheld
    refine ⟨_, rfl, ?_⟩
    dsimp only
    have hword := Hub.edgeWords_slot ⟨hcrc, hsync⟩ ht hlanes hk hlast hwhole hctx hlen hgaps hheld bits parity
    rw [Hub.captureEdge_eq hphase ht he, latchIrq_port]
    split
    · obtain ⟨flags, sweep, pass, target, swept, hdone⟩ :=
        (s.hub.edgeWords p bits false false parity).frameDone_port p false false shadow
      rw [hdone]
      exact hword
    · exact hword
  · -- TARGET_EXTRA_EDGE
    intro s p ht hup hon hx
    refine ⟨_, rfl, ?_⟩
    dsimp only
    rw [Hub.extraEdge_counts ht hup hon hx, latchIrq_sp]
    refine ⟨?_, ?_, rfl⟩
    · rw [latchIrq_is _ _ _ _ (portReg_ne_wake (by decide)), Hub.countSat,
        Hub.is_wr_apart _ _ (by simp [Fld.apart, fSpPLostEdges, fSpPStatusOverclock]),
        Hub.is_on_same _ (by simp [fSpPStatusOverclock]) (by simp [fSpPStatusOverclock])]
    · rw [latchIrq_rd _ _ _ _ (portReg_ne_wake (by decide)), Hub.rd_countSat_same _ _ (by simp [fSpPLostEdges]),
        Hub.rd_on_apart _ (by simp [Fld.apart, fSpPLostEdges, fSpPStatusOverclock])]
      rfl
  · -- TARGET_FRAME_END of a whole frame
    intro s p shadow keepUp parity ht hphase he
    refine ⟨_, rfl, ?_⟩
    dsimp only
    obtain ⟨w, hclosed⟩ := s.hub.closedTaps_port p
    rw [Hub.targetEnd_whole ht hphase he, latchIrq_port, hclosed]
    refine ⟨rfl, rfl, ?_, fun htrain htap a ⟨hwake, hstatus⟩ => ?_⟩
    · rw [latchIrq_is _ _ _ _ (portReg_ne_wake (by decide)), Hub.closedTaps_busy]
    · rw [latchIrq_reg _ _ _ _ hwake, Hub.closedTaps_reg htrain htap hstatus]
  · -- TARGET_FRAME_END of a frame cut short
    intro s p shadow parity ht hphase he
    refine ⟨_, rfl, ?_⟩
    dsimp only
    obtain ⟨hbad, hframes, hflag⟩ := Hub.targetEnd_counts ht hphase he shadow parity
    have hclosed := Hub.targetEnd_cut ht hphase he shadow false parity
    obtain ⟨w, hport⟩ := ((s.hub.cutWords p false parity).frameDone p true (s.hub.endsInWord p) shadow).closedTaps_port p
    refine ⟨?_, ?_, ?_, ?_, ?_⟩
    · rw [latchIrq_port, hclosed, hport]
    · rw [latchIrq_is _ _ _ _ (portReg_ne_wake (by decide)), hclosed, Hub.closedTaps_busy]
    · rw [latchIrq_rd _ _ _ _ (portReg_ne_wake (by decide)), hbad]
    · rw [latchIrq_rd _ _ _ _ (portReg_ne_wake (by decide)), hframes]
    · rwa [latchIrq_is _ _ _ _ (portReg_ne_wake (by decide)), latchIrq_is _ _ _ _ (portReg_ne_wake (by decide))]
  · -- INGRESS_WORD, a port's good word
    intro s p w rest u hturn hu hheld hfifo hreal hgood hruns hstages hlen hshadow
    refine ⟨_, exec_ingressWord_serves hturn false, ?_⟩
    dsimp only
    let g := s.hub.turnPast p
    have hroom : (g.wordTaken p w rest false).ingressRoom w.ctx := ⟨hruns, hstages, hlen, hshadow, hheld⟩
    have hserved : s.hub.ingressServe (fun _ => false) =
        (g.wordTaken p w rest false).inqAdd w.ctx (w.samp.addIf (NMap.get s.hub.ctx w.ctx).gapIn tGap) := by
      rw [Hub.ingressServe_port hturn (by omega) hheld, hu, Hub.spIngress_word (h := g) hfifo, if_neg Bool.false_ne_true,
        resolveWord_good hreal hgood, Hub.ctxIngress_room hroom]
      rfl
    have hport : (g.wordTaken p w rest false).port p = { s.hub.port p with
        fifo := rest, last := NMap.set (s.hub.port p).last w.ctx w.samp.val } := by
      rw [Hub.wordTaken, Hub.setPort_port_same, resolveWord_good hreal hgood]
      rfl
    rw [hserved, latchIrq_port, Hub.port_congr (Hub.inqAdd_sp ..), hport, latchIrq_ingress, Hub.inqAdd_ingress, latchIrq_ctx,
      Hub.inqAdd_inq]
    refine ⟨rfl, rfl, rfl, NMap.get_set_same .., fun a ha => ?_⟩
    rw [latchIrq_reg _ _ _ _ ha, Hub.reg_congr (Hub.inqAdd_regs ..), Hub.wordTaken_reg]
    rfl
  · -- INGRESS_WORD, a port's word whose parity fails
    intro s p w rest u hturn hu hheld hfifo hruns hstages hlen hgap hshadow hparity
    refine ⟨_, exec_ingressWord_serves hturn true, ?_⟩
    dsimp only
    let g := s.hub.turnPast p
    have hn : NMap.get g.flt.parity p ≠ 0 := hparity
    have hroom : (g.wordSpoilt p w rest).ingressRoom w.ctx := Hub.wordSpoilt_room p.isLt hn
      ⟨hruns, hstages, hlen, fun hs => absurd (hshadow.symm.trans hs) Bool.false_ne_true, hheld⟩ w rest
    have hctx : (g.wordSpoilt p w rest).ctx = s.hub.ctx := by
      rw [Hub.wordSpoilt_eq hn]
      rfl
    have hserved : s.hub.ingressServe (fun _ => true) = (g.wordSpoilt p w rest).inqAdd w.ctx
        { w.samp with val := NMap.get (s.hub.port p).last w.ctx, tag := w.samp.tag ||| tAborted } := by
      rw [Hub.ingressServe_port hturn (by omega) hheld, hu, Hub.spIngress_word (h := g) hfifo, if_pos rfl, resolveWord_bad]
      refine (Hub.ctxIngress_room hroom 5 _).trans ?_
      rw [hctx, hgap]
      rfl
    have hport : (g.wordSpoilt p w rest).port p = { s.hub.port p with fifo := rest } := by
      rw [Hub.wordSpoilt, Hub.port_congr (Hub.parityFault_sp ..), Hub.wordFlagged, Hub.countSat_port, Hub.on_port,
        Hub.wordTaken, Hub.setPort_port_same, resolveWord_bad]
      rfl
    obtain ⟨hflag, hcount⟩ := g.wordFlagged_shows p w rest
    have hregs : ((g.wordSpoilt p w rest).inqAdd w.ctx { w.samp with
        val := NMap.get (s.hub.port p).last w.ctx, tag := w.samp.tag ||| tAborted }).regs = (g.wordFlagged p w rest).regs := by
      rw [Hub.inqAdd_regs, Hub.wordSpoilt_regs hn]
    rw [hserved, latchIrq_port, Hub.port_congr (Hub.inqAdd_sp ..), hport, latchIrq_ctx, Hub.inqAdd_inq, hctx]
    refine ⟨rfl, rfl, ?_, ?_⟩
    · rw [latchIrq_is _ _ _ _ (portReg_ne_wake (by decide)), Hub.is_congr (Hub.rd_congr (Hub.reg_congr hregs _)), hflag]
    · rw [latchIrq_rd _ _ _ _ (portReg_ne_wake (by decide)), Hub.rd_congr (Hub.reg_congr hregs _), hcount]
      rfl
  · -- INGRESS_WORD, a controller's good sample
    intro s c w rest u hturn hu hheld hfifo hreal hgood hruns hstages hlen hshadow
    refine ⟨_, exec_ingressWord_serves hturn false, ?_⟩
    dsimp only
    let g := s.hub.turnPast u
    have hplace : u.val - 24 = c.val := by omega
    have hroom : (g.sampTaken c w rest false).ingressRoom w.ctx := ⟨hruns, hstages, hlen, hshadow, hheld⟩
    have hserved : s.hub.ingressServe (fun _ => false) =
        (g.sampTaken c w rest false).inqAdd w.ctx (w.samp.addIf (NMap.get s.hub.ctx w.ctx).gapIn tGap) := by
      rw [Hub.ingressServe_tw hturn (by omega) hheld, hplace, Hub.twIngress_word (h := g) hfifo, if_neg Bool.false_ne_true,
        resolveWord_good hreal hgood, Hub.ctxIngress_room hroom]
      rfl
    have htaken : ((g.sampTaken c w rest false).twc c).fifo = rest := congrArg TwoWire.fifo (NMap.get_set_same g.tw c _)
    rw [hserved, latchIrq_ingress, Hub.inqAdd_ingress, latchIrq_ctx, Hub.inqAdd_inq]
    refine ⟨?_, ?_, rfl, fun a ha => ?_⟩
    · rw [Hub.twc, latchIrq_tw, Hub.inqAdd_tw]
      exact htaken
    · have hnext : (g.sampTaken c w rest false).ingress = (u.val + 1) % 32 := rfl
      rw [hnext, hu]
      omega
    · rw [latchIrq_reg _ _ _ _ ha, Hub.reg_congr (Hub.inqAdd_regs ..)]
      rfl
  · -- INGRESS_WORD with every FIFO empty
    intro s parity u hempty
    refine ⟨_, exec_ingressWord_waits (by simp [Hub.ingressTurn_empty hempty]) parity, ?_⟩
    exact ⟨fun a ha => latchIrq_reg _ _ _ _ ha, latchIrq_sp .., latchIrq_tw .., latchIrq_ctx ..⟩
  · -- INGRESS_WORD out of turn
    intro s parity u hturn
    refine ⟨_, exec_ingressWord_waits hturn parity, ?_⟩
    exact ⟨fun a ha => latchIrq_reg _ _ _ _ ha, latchIrq_sp .., latchIrq_tw .., latchIrq_ctx ..⟩

end Sys2Proof.Machine
end

section
/-! SUPPORT. Two-wire controllers behind an update, and samples that reach a controller's FIFO (R127, R129). -/

namespace Sys2Proof.Machine
open Sys2Proof

/-! ### Reading a controller behind an update -/

theorem Hub.twc_congr {h g : Hub} (e : g.tw = h.tw) (c : Nat) : g.twc c = h.twc c := by
  unfold Hub.twc
  rw [e]

@[simp] theorem Hub.setTw_twc_same (h : Hub) (c : Nat) (x : TwoWire) : (h.setTw c x).twc c = x := NMap.get_set_same h.tw c x

@[simp] theorem Hub.modTw_twc_same (h : Hub) (c : Nat) (f : TwoWire → TwoWire) : (h.modTw c f).twc c = f (h.twc c) :=
  h.setTw_twc_same c _

@[simp] theorem Hub.on_twc (h : Hub) (f : Fld) (c : Nat) : (h.on f).twc c = h.twc c := rfl
@[simp] theorem Hub.countSat_twc (h : Hub) (f : Fld) (n c : Nat) : (h.countSat f n).twc c = h.twc c := rfl
@[simp] theorem Hub.setTwState_twc (h : Hub) (k n c : Nat) : (h.setTwState k n).twc c = h.twc c := rfl
@[simp] theorem Hub.present_twc (h : Hub) (code c : Nat) : (h.present code).twc c = h.twc c :=
  Hub.twc_congr (h.present_tw code) c
@[simp] theorem Hub.fault_twc (h : Hub) (code unit src : Nat) (d7 d8 : Word) (c : Nat) :
    (h.fault code unit src d7 d8).twc c = h.twc c := Hub.twc_congr (h.fault_tw code unit src d7 d8) c
@[simp] theorem latchIrq_twc (h0 : Hub) (m0 : Met) (h : Hub) (m : Met) (c : Nat) :
    (latchIrq h0 m0 h m).twc c = h.twc c := Hub.twc_congr (latchIrq_tw h0 m0 h m) c

/-! ### Registers of a controller -/

/-- A register of a controller is not the one the interrupt latch writes. -/
theorem twReg_ne_wake {k c : Nat} (hk : 0x60000 ≤ k) : k + 0x400 * c ≠ 0x30 := by omega

@[simp] theorem latchIrq_twState (h0 : Hub) (m0 : Met) (h : Hub) (m : Met) (c : Nat) :
    (latchIrq h0 m0 h m).twState c = h.twState c := latchIrq_rd h0 m0 h m (twReg_ne_wake (by decide))

@[simp] theorem Hub.modTw_twState (h : Hub) (k : Nat) (f : TwoWire → TwoWire) (c : Nat) :
    (h.modTw k f).twState c = h.twState c := rfl

theorem Hub.wr_twState (h : Hub) {f : Fld} (n : Nat) {c : Nat} (hf : rTwCCtl c ≠ f.addr) : (h.wr f n).twState c = h.twState c :=
  h.rd_wr_addr n hf

theorem Hub.on_twState (h : Hub) {f : Fld} {c : Nat} (hf : rTwCCtl c ≠ f.addr) : (h.on f).twState c = h.twState c :=
  h.wr_twState 1 hf

theorem Hub.countSat_twState (h : Hub) {f : Fld} (n : Nat) {c : Nat} (hf : rTwCCtl c ≠ f.addr) :
    (h.countSat f n).twState c = h.twState c := h.wr_twState _ hf

theorem Hub.setTwState_twState (h : Hub) (c : Nat) {n : Nat} (hn : n < 4) : (h.setTwState c n).twState c = n :=
  (h.rd_wr_same (f := fTwCCtlState c) n (by simp [fTwCCtlState])).trans (Nat.mod_eq_of_lt hn)

theorem Hub.setTwState_reg (h : Hub) (c n : Nat) {a : Nat} (ha : a ≠ rTwCCtl c) : (h.setTwState c n).reg a = h.reg a :=
  h.reg_wr_ne _ n ha

/-- A flag and a count of two registers, set and counted together. -/
theorem Hub.flagCount_shows (h : Hub) {f g : Fld} (hfg : f.addr ≠ g.addr) (hl : 0 < f.len := by exact Nat.one_pos)
    (hf : f.lo + f.len ≤ 32 := by exact Nat.le_of_ble_eq_true rfl)
    (hg : g.lo + g.len ≤ 32 := by exact Nat.le_of_ble_eq_true rfl) :
    ((h.on f).countSat g 1).is f = true ∧ ((h.on f).countSat g 1).rd g = satTo g.len (h.rd g + 1) := by
  constructor
  · rw [Hub.countSat, Hub.is_congr (Hub.rd_wr_addr _ _ hfg), Hub.is_on_same _ hf hl]
  · rw [Hub.rd_countSat_same _ _ hg, Hub.on, Hub.rd_wr_addr _ _ hfg.symm]

/-! ### A sample reaches the FIFO (R129) -/

/-- A controller without what arriving samples change of it. -/
def TwoWire.inRun (x : TwoWire) : TwoWire := { x with fifo := [], gaps := [] }

/-- Two controllers in one run agree in whatever does not look at those parts. -/
theorem TwoWire.eq_of_inRun {α : Type} {x y : TwoWire} (e : x.inRun = y.inRun) (g : TwoWire → α)
    (hg : ∀ z : TwoWire, g z.inRun = g z := by exact fun _ => rfl) : g x = g y := by
  rw [← hg x, e, hg y]

/-- The fields that a sample arriving at a controller's FIFO writes. -/
def pushFlds (c : Nat) : List Fld := [fTwCStatusSupplyDip c, fTwCStatusFifoOver c, fTwCLostWords c]

/-- A field of the controllers' block beside them. -/
abbrev Fld.offPush (c : Nat) (f : Fld) : Prop := (∀ g ∈ pushFlds c, g.apart f) ∧ f.addr < 0x180000

theorem Hub.twPush_rd {c : Nat} {f : Fld} (hf : f.offPush c) (h : Hub) (w : FifoWord) : (h.twPush c w).rd f = h.rd f := by
  obtain ⟨hapart, haddr⟩ := hf
  unfold Hub.twPush
  extract_lets x h1 s
  have hdip : h1.rd f = h.rd f := by
    unfold h1
    split
    · exact h.rd_on_apart (hapart _ (by simp [pushFlds]))
    · rfl
  rw [← hdip]
  split
  · rw [Hub.countSat, Hub.rd_wr_apart _ _ (hapart _ (by simp [pushFlds])), Hub.rd_on_apart _ (hapart _ (by simp [pushFlds])),
      Hub.setTw_rd, h1.refusedBy_rd heldFifo (by omega)]
  · rfl

theorem Hub.twPush_inRun (h : Hub) (c : Nat) (w : FifoWord) : ((h.twPush c w).twc c).inRun = (h.twc c).inRun := by
  unfold Hub.twPush
  dsimp only
  split <;> simp [TwoWire.inRun]

theorem Hub.twPush_room {h : Hub} {c : Nat} (hlen : (h.twc c).fifo.length < 8) (hgaps : (h.twc c).gaps = [])
    (hheld : h.stHeld heldFifo = false) (w : FifoWord) :
    (h.twPush c w).twc c = { h.twc c with fifo := (h.twc c).fifo ++ [w] } ∧ (h.twPush c w).hlt = h.hlt := by
  unfold Hub.twPush
  extract_lets x h1 s
  have hs : s = w.samp := by simp [s, x, hgaps, Samp.addIf]
  have hhlt : h1.hlt = h.hlt := by
    unfold h1
    split <;> rfl
  have hx : { x with fifo := x.fifo ++ [{ w with samp := s }], gaps := x.gaps.filter (fun k => k != w.ctx) } =
      { x with fifo := x.fifo ++ [w] } := by
    rw [hs, hgaps]
    rfl
  rw [if_neg (by simp [x, hheld]; omega), Hub.setTw_twc_same, hx]
  exact ⟨rfl, hhlt⟩

theorem Hub.stHeld_congr {h g : Hub} (e : g.hlt = h.hlt) (gs : List Nat) : g.stHeld gs = h.stHeld gs := by
  unfold Hub.stHeld Hub.stHolds
  rw [e]

/-- Samples that find room stand behind one another in the FIFO. -/
theorem Hub.foldl_twPush_fifo {c : Nat} (mk : Word → FifoWord) (l : List Word) {h : Hub} (hgaps : (h.twc c).gaps = [])
    (hlen : (h.twc c).fifo.length + l.length ≤ 8) (hheld : h.stHeld heldFifo = false) :
    ((l.foldl (fun a f => a.twPush c (mk f)) h).twc c).fifo = (h.twc c).fifo ++ l.map mk := by
  induction l generalizing h with
  | nil => simp
  | cons f l ih =>
    rw [List.length_cons] at hlen
    obtain ⟨hpush, hhlt⟩ := Hub.twPush_room (by omega) hgaps hheld (mk f)
    rw [List.foldl_cons, ih (by rw [hpush]; exact hgaps) (by rw [hpush]; simp; omega)
      ((Hub.stHeld_congr hhlt heldFifo).trans hheld), hpush]
    simp

/-! ### Placeholders -/

theorem Hub.twPlaceholders_rd {c : Nat} {f : Fld} (hf : f.offPush c) (h : Hub) (e : Nat) (tag : BitVec 8) (time : Nat) :
    (h.twPlaceholders c e tag time).rd f = h.rd f :=
  foldl_keep (fun a => a.rd f) _ (fun a _ => a.twPush_rd hf _) _ h

theorem Hub.twPlaceholders_inRun (h : Hub) (c e : Nat) (tag : BitVec 8) (time : Nat) :
    ((h.twPlaceholders c e tag time).twc c).inRun = (h.twc c).inRun :=
  foldl_keep (fun a => (a.twc c).inRun) _ (fun a _ => a.twPush_inRun c _) _ h

end Sys2Proof.Machine
end

section
/-! SUPPORT. How a poll of a two-wire controller starts (R125, R126, R134). -/

namespace Sys2Proof.Machine
open Sys2Proof

/-! ### The START of a held entry (R126) -/

theorem Hub.twLateStart_twc (h : Hub) (c : Nat) : (h.twLateStart c).twc c =
    { h.twc c with stamp := Machine.report (h.tbVal (h.twTb c)) } := Hub.modTw_twc_same ..

theorem Hub.twLateStart_state (h : Hub) (c : Nat) : (h.twLateStart c).twState c = h.twState c := by
  unfold Hub.twLateStart
  dsimp only
  rw [Hub.modTw_twState, Hub.wr_twState _ _ (by simp [fTwCLateLast]), Hub.countSat_twState _ _ (by simp [fTwCLateCount]),
    Hub.on_twState _ (by simp [fTwCStatusLate])]

/-- A late START is flagged and counted. -/
theorem Hub.twLateStart_shows (h : Hub) (c : Nat) : (h.twLateStart c).is (fTwCStatusLate c) = true ∧
    (h.twLateStart c).rd (fTwCLateCount c) = satTo 16 (h.rd (fTwCLateCount c) + 1) := by
  obtain ⟨hflag, hcount⟩ := h.flagCount_shows (f := fTwCStatusLate c) (g := fTwCLateCount c)
    (by simp [fTwCStatusLate, fTwCLateCount])
  unfold Hub.twLateStart
  dsimp only
  rw [Hub.modTw_is, Hub.modTw_rd, Hub.is_wr_apart _ _ (by simp [Fld.apart, fTwCLateLast, fTwCStatusLate]),
    Hub.rd_wr_apart _ _ (by simp [Fld.apart, fTwCLateLast, fTwCLateCount])]
  exact ⟨hflag, hcount⟩

/-! ### A transaction begins -/

/-- The controller of an entry whose transaction begins. -/
def Hub.twBegun (h : Hub) (c e since : Nat) (late : Bool) : TwoWire :=
  { h.twc c with
    kind := 1, entry := e, attempt := 0, late := late, since := since, stamp := Machine.report (h.tbNext (h.twTb c)), dip := false
    retry := false, foreign := false, arb := false, held := NMap.set (h.twc c).held e 0 }

/-- The state behind a bus clear where one must come first, or at once on the bus. -/
def behindClear (clear : Bool) : Nat := if clear then twClear else twBusy

theorem behindClear_lt (clear : Bool) : behindClear clear < 4 := by
  cases clear <;> decide

/-- SDA low or the controller STUCK: a bus clear comes first. -/
theorem Hub.twBegin_clear (h : Hub) (c : Nat) (sdaLow : Bool) : behindClear (sdaLow || h.twState c == twStuck) =
    if sdaLow = true ∨ h.twState c = twStuck then twClear else twBusy := by
  unfold behindClear
  simp only [Bool.or_eq_true, beq_iff_eq]

theorem Hub.twBegin_eq (h : Hub) (c e since : Nat) (late sdaLow : Bool) : h.twBegin c e since late sdaLow =
    if late && !(sdaLow || h.twState c == twStuck) then
      ((h.setTw c (h.twBegun c e since late)).setTwState c (behindClear (sdaLow || h.twState c == twStuck))).twLateStart c
    else (h.setTw c (h.twBegun c e since late)).setTwState c (behindClear (sdaLow || h.twState c == twStuck)) := rfl

theorem Hub.twBegin_state (h : Hub) (c e since : Nat) (late sdaLow : Bool) : (h.twBegin c e since late sdaLow).twState c =
    if sdaLow = true ∨ h.twState c = twStuck then twClear else twBusy := by
  rw [Hub.twBegin_eq, ← Hub.twBegin_clear]
  split
  · rw [Hub.twLateStart_state, Hub.setTwState_twState _ _ (behindClear_lt _)]
  · exact Hub.setTwState_twState _ _ (behindClear_lt _)

/-- A START at once takes the stamp of the next edge; one of a held entry its own, later. -/
theorem Hub.twBegin_twc (h : Hub) (c e since : Nat) (late sdaLow : Bool) : ∃ stamp,
    (h.twBegin c e since late sdaLow).twc c = { h.twBegun c e since late with stamp := stamp } := by
  rw [Hub.twBegin_eq]
  split
  · exact ⟨_, by rw [Hub.twLateStart_twc, Hub.setTwState_twc, Hub.setTw_twc_same]⟩
  · exact ⟨(h.twBegun c e since late).stamp, by rw [Hub.setTwState_twc, Hub.setTw_twc_same]⟩

theorem Hub.twBegin_prompt (h : Hub) (c e since : Nat) (sdaLow : Bool) : h.twBegin c e since false sdaLow =
    (h.setTw c (h.twBegun c e since false)).setTwState c (behindClear (sdaLow || h.twState c == twStuck)) := rfl

/-- A held entry that no bus clear holds up is flagged and counted late at once. -/
theorem Hub.twBegin_late {h : Hub} {c : Nat} (hidle : h.twState c = twIdle) (e since : Nat) :
    (h.twBegin c e since true false).is (fTwCStatusLate c) = true ∧
    (h.twBegin c e since true false).rd (fTwCLateCount c) = satTo 16 (h.rd (fTwCLateCount c) + 1) := by
  obtain ⟨hflag, hcount⟩ := ((h.setTw c (h.twBegun c e since true)).setTwState c
    (behindClear (false || h.twState c == twStuck))).twLateStart_shows c
  rw [Hub.twBegin_eq, if_pos (by simp [hidle, twIdle, twStuck])]
  refine ⟨hflag, hcount.trans ?_⟩
  rw [Hub.setTwState, Hub.rd_wr_apart _ _ (by simp [Fld.apart, fTwCCtlState, fTwCLateCount]), Hub.setTw_rd]

/-! ### A start reaches an entry -/

/-- The controller takes starts, and the entry is one of its own. -/
abbrev Hub.twTakes (h : Hub) (c e : Nat) : Prop :=
  h.twUp c = true ∧ h.is (fTwCCtlEnable c) = true ∧ h.pollsHeld = false ∧ e < h.twEntries c

theorem Hub.twStart_takes {h : Hub} {c e : Nat} (ht : h.twTakes c e) (sdaLow : Bool) : h.twStart c e sdaLow =
    if h.is fClkStatusWclkTrim && (h.twc c).kind == 0 && (h.twc c).held.isEmpty &&
        (h.twState c == twIdle || h.twState c == twStuck) then h.twBegin c e 0 false sdaLow
    else if NMap.get (h.twc c).held e = 0 then
      h.setTw c { h.twc c with held := NMap.set (h.twc c).held e (h.cyc + 1) }
    else ((h.on (fTwCStatusStartDrop c)).countSat (fTwCLostStarts c) 1).twPlaceholders c e tGap
      (Machine.report (h.tbNext (h.twTb c))) := by
  obtain ⟨hup, hon, hplan, he⟩ := ht
  exact if_neg (by simp [hup, hon, hplan]; omega)

theorem Hub.twStart_begins {h : Hub} {c e : Nat} (ht : h.twTakes c e) (htrim : h.is fClkStatusWclkTrim = true)
    (hkind : (h.twc c).kind = 0) (hheld : (h.twc c).held = []) (hst : h.twState c = twIdle ∨ h.twState c = twStuck)
    (sdaLow : Bool) : h.twStart c e sdaLow = h.twBegin c e 0 false sdaLow := by
  rw [Hub.twStart_takes ht, if_pos (by simp [htrim, hkind, hheld, hst])]

theorem Hub.twStart_holds {h : Hub} {c e : Nat} (ht : h.twTakes c e)
    (hbusy : (h.twc c).kind ≠ 0 ∨ (h.twc c).held ≠ [] ∨ h.is fClkStatusWclkTrim = false)
    (hfree : NMap.get (h.twc c).held e = 0) (sdaLow : Bool) :
    h.twStart c e sdaLow = h.setTw c { h.twc c with held := NMap.set (h.twc c).held e (h.cyc + 1) } := by
  have hnow : (h.is fClkStatusWclkTrim && (h.twc c).kind == 0 && (h.twc c).held.isEmpty) = false := by
    rcases hbusy with hkind | hheld | htrim
    · simp [hkind]
    · simp [hheld]
    · simp [htrim]
  rw [Hub.twStart_takes ht, hnow, if_neg (by simp), if_pos hfree]

/-- The start that found its entry held already, flagged and counted; its fields get placeholders (R126). -/
def Hub.twDropped (h : Hub) (c : Nat) : Hub := (h.on (fTwCStatusStartDrop c)).countSat (fTwCLostStarts c) 1

theorem Hub.twStart_drops {h : Hub} {c e : Nat} (ht : h.twTakes c e) (hheld : NMap.get (h.twc c).held e ≠ 0)
    (sdaLow : Bool) : h.twStart c e sdaLow =
      (h.twDropped c).twPlaceholders c e tGap (Machine.report (h.tbNext (h.twTb c))) := by
  have hsome : (h.twc c).held.isEmpty = false := by
    cases hlist : (h.twc c).held with
    | nil => exact absurd (by rw [hlist]; rfl) hheld
    | cons => rfl
  rw [Hub.twStart_takes ht, hsome, if_neg (by simp), if_neg hheld]
  rfl

theorem offPush_startDrop (c : Fin 8) : (fTwCStatusStartDrop c).offPush c := by revert c; decide
theorem offPush_lostStarts (c : Fin 8) : (fTwCLostStarts c).offPush c := by revert c; decide

theorem Hub.twServe_begins {h : Hub} {c e a : Nat} {rest : NMap Nat} (hb : h.twBoundary c = true)
    (hheld : (h.twc c).held = (e, a) :: rest) (sdaLow : Bool) : h.twServe c sdaLow = h.twBegin c e a true sdaLow := by
  unfold Hub.twServe
  rw [if_pos hb, hheld]

end Sys2Proof.Machine
end

section
/-! SUPPORT. How a transaction of a two-wire controller ends, and what a failed attempt leads to (R130 to R135, R142). -/

namespace Sys2Proof.Machine
open Sys2Proof

/-! ### The controller rests -/

theorem Hub.twRest_twc (h : Hub) (c n : Nat) : (h.twRest c n).twc c =
    { h.twc c with kind := 0, retry := false, foreign := false, arb := false } := by
  rw [Hub.twRest, Hub.setTwState_twc, Hub.modTw_twc_same]

theorem Hub.twRest_state (h : Hub) (c : Nat) {n : Nat} (hn : n < 4) : (h.twRest c n).twState c = n :=
  Hub.setTwState_twState _ c hn

theorem Hub.twRest_reg (h : Hub) (c n : Nat) {a : Nat} (ha : a ≠ rTwCCtl c) : (h.twRest c n).reg a = h.reg a :=
  Hub.setTwState_reg _ c n ha

theorem Hub.twRest_rd {c : Nat} {f : Fld} (hf : (fTwCCtlState c).apart f) (h : Hub) (n : Nat) : (h.twRest c n).rd f = h.rd f :=
  Hub.rd_wr_apart _ n hf

/-! ### A host transfer ends (R135, R142) -/

/-- The fields the end of a transaction writes beside those of its samples and the data registers. -/
def endFlds (c : Nat) : List Fld := [fTwCXferResult c, fTwCXferBusy c, fTwCStatusXferDone c, fTwCCtlState c]

/-- A field of the controllers' block that the end of a transaction leaves. -/
abbrev Fld.offEnd (c : Nat) (f : Fld) : Prop :=
  f.offPush c ∧ (∀ g ∈ endFlds c, g.apart f) ∧ f.addr ≠ rTwCRdata c 0 ∧ f.addr ≠ rTwCRdata c 1

theorem Fld.offEnd.apart_state {c : Nat} {f : Fld} (hf : f.offEnd c) : (fTwCCtlState c).apart f :=
  hf.2.1 _ (by simp [endFlds])

theorem Hub.twXferEnd_twc (h : Hub) (c result : Nat) (bytes : List Byte) (k : Nat) :
    (h.twXferEnd c result bytes).twc k = h.twc k := Hub.present_twc ..

theorem Hub.twXferEnd_rd {c : Nat} {f : Fld} (hf : f.offEnd c) (h : Hub) (result : Nat) (bytes : List Byte) :
    (h.twXferEnd c result bytes).rd f = h.rd f := by
  obtain ⟨⟨-, haddr⟩, hapart, h0, h1⟩ := hf
  unfold Hub.twXferEnd
  dsimp only
  rw [Hub.present_rd _ _ (Or.inl haddr), Hub.rd_on_apart _ (hapart _ (by simp [endFlds])),
    Hub.rd_off_apart _ (hapart _ (by simp [endFlds])), Hub.rd_wr_apart _ _ (hapart _ (by simp [endFlds]))]
  exact Hub.rd_congr ((Hub.reg_setReg_ne _ _ h1).trans (Hub.reg_setReg_ne _ _ h0))

/-- A host transfer's end shows its result and `xfer_done`, and the transfer is no longer busy. -/
theorem Hub.twXferEnd_shows (h : Hub) (c : Fin 8) {result : Nat} (hr : result < 8) (bytes : List Byte) :
    (h.twXferEnd c result bytes).rd (fTwCXferResult c) = result ∧
    (h.twXferEnd c result bytes).is (fTwCXferBusy c) = false ∧
    (h.twXferEnd c result bytes).is (fTwCStatusXferDone c) = true := by
  have hxfer : rTwCXfer c < 0x180000 := by
    simp only [rTwCXfer]
    omega
  have hstatus : rTwCStatus c < 0x180000 := by
    simp only [rTwCStatus]
    omega
  unfold Hub.twXferEnd
  dsimp only
  refine ⟨?_, ?_, ?_⟩
  · rw [Hub.present_rd _ _ (Or.inl hxfer), Hub.rd_on_apart _ (by simp [Fld.apart, fTwCStatusXferDone, fTwCXferResult]),
      Hub.rd_off_apart _ (by simp [Fld.apart, fTwCXferBusy, fTwCXferResult]), Hub.rd_wr_same _ _ (by simp [fTwCXferResult])]
    exact Nat.mod_eq_of_lt hr
  · rw [Hub.present_is _ _ (Or.inl hxfer), Hub.is_on_apart _ (by simp [Fld.apart, fTwCStatusXferDone, fTwCXferBusy]),
      Hub.is_off_same _ (by simp [fTwCXferBusy])]
  · rw [Hub.present_is _ _ (Or.inl hstatus), Hub.is_on_same _ (by simp [fTwCStatusXferDone]) (by simp [fTwCStatusXferDone])]

/-- Behind its end the controller rests, and the result and the flags stand. -/
theorem Hub.xferRested_shows (h : Hub) (c : Fin 8) {result : Nat} (hr : result < 8) (rest : Nat) (bytes : List Byte) :
    ((h.twXferEnd c result bytes).twRest c rest).rd (fTwCXferResult c) = result ∧
    ((h.twXferEnd c result bytes).twRest c rest).is (fTwCXferBusy c) = false ∧
    ((h.twXferEnd c result bytes).twRest c rest).is (fTwCStatusXferDone c) = true := by
  rw [Hub.twRest_rd (by simp [Fld.apart, fTwCCtlState, fTwCXferResult]),
    Hub.is_congr (Hub.twRest_rd (by simp [Fld.apart, fTwCCtlState, fTwCXferBusy]) _ _),
    Hub.is_congr (Hub.twRest_rd (by simp [Fld.apart, fTwCCtlState, fTwCStatusXferDone]) _ _)]
  exact h.twXferEnd_shows c hr bytes

/-- Of the bytes asked for those read stand in the data registers (R142). -/
theorem Hub.twXferEnd_data (h : Hub) (c : Fin 8) (result : Nat) (bytes : List Byte) (k : Fin 2) :
    (h.twXferEnd c result bytes).reg (rTwCRdata c k) =
      dataReg (bytes.take (min (h.rd (fTwCXferRcount c)) 8)) k := by
  have hdata : rTwCRdata c k < 0x180000 := by
    simp only [rTwCRdata]
    omega
  unfold Hub.twXferEnd
  dsimp only
  rw [Hub.present_reg _ _ (Or.inl hdata), Hub.reg_on_ne _ _ (by simp only [fTwCStatusXferDone, rTwCStatus, rTwCRdata]; omega),
    Hub.reg_off_ne _ _ (by simp only [fTwCXferBusy, rTwCXfer, rTwCRdata]; omega),
    Hub.reg_wr_ne _ _ _ (by simp only [fTwCXferResult, rTwCXfer, rTwCRdata]; omega)]
  match k with
  | 0 => exact (Hub.reg_setReg_ne _ _ (by simp)).trans (Hub.reg_setReg_same ..)
  | 1 => exact Hub.reg_setReg_same ..

/-! ### A transaction fails for good -/

/-- What a failed transaction gives before the controller rests: placeholders, or a transfer's result. -/
def Hub.twGivenUp (h : Hub) (c result : Nat) (bytes : List Byte) : Hub :=
  if (h.twc c).kind = 1 then
    (h.twPlaceholders c (h.twc c).entry (tAborted ||| (h.twc c).tags false) (h.twc c).stamp).present
      (0x2100 + 16 * c + (h.twc c).entry)
  else if (h.twc c).kind = 2 then h.twXferEnd c result bytes else h

theorem Hub.twFail_eq (h : Hub) (c result rest : Nat) (bytes : List Byte) :
    h.twFail c result rest bytes = (h.twGivenUp c result bytes).twRest c rest := rfl

theorem Hub.twGivenUp_rd {c : Nat} {f : Fld} (hf : f.offEnd c) (h : Hub) (result : Nat) (bytes : List Byte) :
    (h.twGivenUp c result bytes).rd f = h.rd f := by
  unfold Hub.twGivenUp
  split
  · rw [Hub.present_rd _ _ (Or.inl hf.1.2), Hub.twPlaceholders_rd hf.1]
  split
  · exact h.twXferEnd_rd hf result bytes
  · rfl

theorem Hub.twFail_rd {c : Nat} {f : Fld} (hf : f.offEnd c) (h : Hub) (result rest : Nat) (bytes : List Byte) :
    (h.twFail c result rest bytes).rd f = h.rd f := by
  rw [Hub.twFail_eq, Hub.twRest_rd hf.apart_state, Hub.twGivenUp_rd hf]

theorem Hub.twFail_is {c : Nat} {f : Fld} (hf : f.offEnd c) (h : Hub) (result rest : Nat) (bytes : List Byte) :
    (h.twFail c result rest bytes).is f = h.is f := Hub.is_congr (h.twFail_rd hf result rest bytes)

theorem Hub.twFail_kind (h : Hub) (c result rest : Nat) (bytes : List Byte) :
    ((h.twFail c result rest bytes).twc c).kind = 0 := by
  rw [Hub.twFail_eq, Hub.twRest_twc]

theorem Hub.twFail_state (h : Hub) (c result : Nat) {rest : Nat} (hr : rest < 4) (bytes : List Byte) :
    (h.twFail c result rest bytes).twState c = rest := Hub.twRest_state _ c hr

/-- A host transfer that fails shows its result (R142). -/
theorem Hub.twFail_xfer {h : Hub} {c : Fin 8} (hk : (h.twc c).kind = 2) {result : Nat} (hr : result < 8) (rest : Nat)
    (bytes : List Byte) : (h.twFail c result rest bytes).rd (fTwCXferResult c) = result ∧
      (h.twFail c result rest bytes).is (fTwCXferBusy c) = false ∧
      (h.twFail c result rest bytes).is (fTwCStatusXferDone c) = true := by
  have hend : h.twGivenUp c result bytes = h.twXferEnd c result bytes := by
    unfold Hub.twGivenUp
    rw [if_neg (by omega), if_pos hk]
  rw [Hub.twFail_eq, hend]
  exact h.xferRested_shows c hr rest bytes

theorem offEnd_errNack (c : Fin 8) : (fTwCErrNack c).offEnd c := by revert c; decide
theorem offEnd_stuck (c : Fin 8) : (fTwCStatusStuck c).offEnd c := by revert c; decide

/-! ### An attempt fails (R130, R135) -/

@[simp] theorem Hub.twDip_reg (h : Hub) (c : Nat) (dip : Bool) (a : Nat) : (h.twDip c dip).reg a = h.reg a := by
  cases dip <;> rfl

@[simp] theorem Hub.twDip_rd (h : Hub) (c : Nat) (dip : Bool) (f : Fld) : (h.twDip c dip).rd f = h.rd f := by
  cases dip <;> rfl

@[simp] theorem Hub.twDip_cells (h : Hub) (c : Nat) (dip : Bool) : (h.twDip c dip).cells = h.cells := by
  cases dip <;> rfl

/-- An edge below warning is noted in the controller alone (R129). -/
theorem Hub.twDip_twc (h : Hub) (c : Nat) (dip : Bool) : (h.twDip c dip).twc c = { h.twc c with dip := dip || (h.twc c).dip } := by
  cases dip
  · rfl
  · rw [Hub.twDip, if_pos rfl, Hub.modTw_twc_same, Bool.true_or]

/-- A poll that still has an attempt. -/
abbrev Hub.twRepeats (h : Hub) (c : Nat) : Prop :=
  (h.twc c).kind = 1 ∧ (h.twc c).attempt < h.twRetries c (h.twc c).entry

/-- Whether a retry is left does not hang on the flags, counts and dips of the attempt that failed. -/
theorem Hub.twRepeats_congr {h g : Hub} {c : Nat} {dip : Bool} (ht : g.twc c = (h.twDip c dip).twc c) (hc : g.cells = h.cells) :
    g.twRepeats c ↔ h.twRepeats c := by
  unfold Hub.twRepeats Hub.twRetries Hub.cf Hub.cell
  rw [ht, Hub.twDip_twc, hc]

theorem Hub.twAttemptFailed_repeats {h : Hub} {c : Nat} (hr : h.twRepeats c) (result : Nat) (foreign arb : Bool)
    (bytes : List Byte) (last : Hub → Hub) : h.twAttemptFailed c result foreign arb bytes last =
      h.setTw c { h.twc c with attempt := (h.twc c).attempt + 1, retry := true, foreign := foreign, arb := arb } := if_pos hr

theorem Hub.twAttemptFailed_last {h : Hub} {c : Nat} (hr : ¬ h.twRepeats c) (result : Nat) (foreign arb : Bool)
    (bytes : List Byte) (last : Hub → Hub) : h.twAttemptFailed c result foreign arb bytes last =
      (last h).twFail c result twIdle bytes := if_neg hr

/-- The last attempt of a poll, or a host transfer, has none left. -/
theorem Hub.not_twRepeats {h : Hub} {c : Nat}
    (hl : (h.twc c).kind ≠ 1 ∨ h.twRetries c (h.twc c).entry ≤ (h.twc c).attempt) : ¬ h.twRepeats c := by
  rintro ⟨hkind, hleft⟩
  omega

end Sys2Proof.Machine
end

section
/-! SUPPORT. Polls of a two-wire controller from the start to the STOP or the last NACK (R125 to R130, R134). -/

namespace Sys2Proof.Machine
open Sys2Proof

/-! ### The STOP of a poll (R127, R129) -/

/-- The sample that a mapped field of the running poll takes out of the bytes read. -/
def Hub.fieldSample (h : Hub) (c : Nat) (bytes : List Byte) (dip : Bool) (f : Word) : FifoWord :=
  { ctx := fieldOf f 0 8
    samp := {
      val := fmtSample (fieldOf f 29 2) (fieldOf f 28 1 == 1) (fieldOf f 17 5 + 1)
        (natField ((List.range (h.twReads c (h.twc c).entry)).foldl (fun a k => 256 * a + (bytes.getD k 0#8).toNat) 0)
          (fieldOf f 22 6) (fieldOf f 17 5 + 1))
      tag := (h.twc c).tags dip
      time := (h.twc c).stamp }
    real := true }

/-- The samples of the running poll in the FIFO: of an entry that reads, one for each mapped field. -/
def Hub.pollSamples (h : Hub) (c : Nat) (bytes : List Byte) (dip : Bool) : Hub :=
  (if h.twReads c (h.twc c).entry = 0 then [] else h.twFields c (h.twc c).entry).foldl
    (fun a f => a.twPush c (h.fieldSample c bytes dip f)) h

theorem Hub.twComplete_poll {h : Hub} {c : Nat} (hrun : h.twRunning c = true) (hk : (h.twc c).kind = 1) (bytes : List Byte)
    (dip : Bool) : h.twComplete c bytes dip =
      ((h.pollSamples c bytes dip).twRest c twIdle).present (0x2000 + 16 * c + (h.twc c).entry) := by
  unfold Hub.twComplete
  dsimp only
  rw [if_neg (by simp [hrun]), if_pos hk]
  rfl

theorem Hub.twComplete_poll_state {h : Hub} {c : Fin 8} (hrun : h.twRunning c = true) (hk : (h.twc c).kind = 1)
    (bytes : List Byte) (dip : Bool) : (h.twComplete c bytes dip).twState c = twIdle := by
  have hctl : rTwCCtl c < 0x180000 := by
    simp only [rTwCCtl]
    omega
  rw [Hub.twComplete_poll hrun hk, Hub.twState, Hub.present_rd _ _ (Or.inl hctl)]
  exact Hub.twRest_state _ c (by decide)

theorem Hub.twComplete_poll_twc {h : Hub} {c : Nat} (hrun : h.twRunning c = true) (hk : (h.twc c).kind = 1)
    (bytes : List Byte) (dip : Bool) : (h.twComplete c bytes dip).twc c =
      { (h.pollSamples c bytes dip).twc c with kind := 0, retry := false, foreign := false, arb := false } := by
  rw [Hub.twComplete_poll hrun hk, Hub.present_twc, Hub.twRest_twc]

theorem Hub.pollSamples_silent {h : Hub} {c : Nat} (hn : h.twReads c (h.twc c).entry = 0) (bytes : List Byte) (dip : Bool) :
    h.pollSamples c bytes dip = h := by
  unfold Hub.pollSamples
  rw [if_pos hn]
  rfl

theorem Hub.pollSamples_fifo {h : Hub} {c : Nat} (hn : h.twReads c (h.twc c).entry ≠ 0)
    (hlen : (h.twc c).fifo.length + (h.twFields c (h.twc c).entry).length ≤ 8) (hgaps : (h.twc c).gaps = [])
    (hheld : h.stHeld heldFifo = false) (bytes : List Byte) (dip : Bool) : ((h.pollSamples c bytes dip).twc c).fifo =
      (h.twc c).fifo ++ (h.twFields c (h.twc c).entry).map (h.fieldSample c bytes dip) := by
  unfold Hub.pollSamples
  rw [if_neg hn]
  exact Hub.foldl_twPush_fifo (h.fieldSample c bytes dip) _ hgaps hlen hheld

/-! ### A NACK (R130) -/

/-- The address or a data byte found no acknowledgement. -/
def nackFlag (c : Nat) (data : Bool) : Fld := if data then fTwCStatusDataNack c else fTwCStatusAddrNack c

theorem nackFlag_eq (c : Nat) (data : Bool) : ∃ lo, nackFlag c data = ⟨rTwCStatus c, lo, 1⟩ ∧ lo < 2 := by
  cases data
  · exact ⟨0, rfl, by decide⟩
  · exact ⟨1, rfl, by decide⟩

theorem offEnd_nackFlag (c : Fin 8) (data : Bool) : (nackFlag c data).offEnd c := by
  revert c data
  decide

/-- The attempt that found no acknowledgement, counted. -/
def Hub.nackCounted (h : Hub) (c : Nat) (dip : Bool) : Hub := (h.twDip c dip).countSat (fTwCErrNack c) 1

theorem Hub.nackCounted_repeats (h : Hub) (c : Nat) (dip : Bool) : (h.nackCounted c dip).twRepeats c ↔ h.twRepeats c :=
  Hub.twRepeats_congr (h := h) rfl (h.twDip_cells c dip)

theorem Hub.nackCounted_twc (h : Hub) (c : Nat) (dip : Bool) :
    (h.nackCounted c dip).twc c = { h.twc c with dip := dip || (h.twc c).dip } := h.twDip_twc c dip

theorem Hub.nackCounted_errNack (h : Hub) (c : Nat) (dip : Bool) :
    (h.nackCounted c dip).rd (fTwCErrNack c) = satTo 8 (h.rd (fTwCErrNack c) + 1) := by
  rw [Hub.nackCounted, Hub.rd_countSat_same _ _ (by simp [fTwCErrNack]), Hub.twDip_rd]
  rfl

theorem Hub.twNack_repeats {h : Hub} {c : Nat} (hrun : h.twRunning c = true) (hr : h.twRepeats c) (data dip : Bool) :
    h.twNack c data dip = (h.nackCounted c dip).setTw c { (h.nackCounted c dip).twc c with
      attempt := ((h.nackCounted c dip).twc c).attempt + 1, retry := true, foreign := false, arb := false } :=
  (if_pos hrun).trans (Hub.twAttemptFailed_repeats ((h.nackCounted_repeats c dip).2 hr) ..)

theorem Hub.twNack_last {h : Hub} {c : Nat} (hrun : h.twRunning c = true) (hr : ¬ h.twRepeats c) (data dip : Bool) :
    h.twNack c data dip =
      ((h.nackCounted c dip).on (nackFlag c data)).twFail c (if data then 2 else 1) twIdle [] :=
  (if_pos hrun).trans (Hub.twAttemptFailed_last (fun hg => hr ((h.nackCounted_repeats c dip).1 hg)) ..)

/-! ### The statement -/

/-- Settles O11: each start, the STOP and each NACK by its own lemma, read behind the interrupt latch. -/
theorem twoWirePolls : Obligations.TwoWirePolls := by
  refine ⟨?_, ?_, ?_, ?_, ?_, ?_, ?_, ?_, ?_⟩
  · -- TW_POLL_START at once
    intro s c e sdaLow hup hon hplan he htrim hkind hheld hst
    refine ⟨_, rfl, ?_⟩
    dsimp only
    rw [Hub.twStart_begins ⟨hup, hon, hplan, he⟩ htrim hkind hheld hst, latchIrq_twState, latchIrq_twc, Hub.twBegin_state,
      Hub.twBegin_prompt, Hub.setTwState_twc, Hub.setTw_twc_same]
    refine ⟨rfl, rfl, rfl, rfl, rfl, rfl, fun a ⟨hwake, hctl⟩ => ?_⟩
    rw [latchIrq_reg _ _ _ _ hwake, Hub.setTwState_reg _ _ _ hctl, Hub.setTw_reg]
  · -- TW_POLL_START held
    intro s c e sdaLow hup hon hplan he hbusy hfree
    refine ⟨_, rfl, ?_⟩
    dsimp only
    rw [Hub.twStart_holds ⟨hup, hon, hplan, he⟩ hbusy hfree, latchIrq_twc, Hub.setTw_twc_same]
    exact ⟨NMap.get_set_same (s.hub.twc c).held e (s.hub.cyc + 1), rfl, fun a ha => latchIrq_reg _ _ _ _ ha⟩
  · -- TW_POLL_START of an entry already held
    intro s c e sdaLow hup hon hplan he hheld
    refine ⟨_, rfl, ?_⟩
    dsimp only
    obtain ⟨hflag, hcount⟩ := s.hub.flagCount_shows (f := fTwCStatusStartDrop c) (g := fTwCLostStarts c)
      (by simp [fTwCStatusStartDrop, fTwCLostStarts])
    have hkept := (s.hub.twDropped c).twPlaceholders_inRun c e tGap (Machine.report (s.hub.tbNext (s.hub.twTb c)))
    rw [Hub.twStart_drops ⟨hup, hon, hplan, he⟩ hheld, latchIrq_twc, latchIrq_is _ _ _ _ (twReg_ne_wake (by decide)),
      latchIrq_rd _ _ _ _ (twReg_ne_wake (by decide)), Hub.is_congr (Hub.twPlaceholders_rd (offPush_startDrop c) ..),
      Hub.twPlaceholders_rd (offPush_lostStarts c)]
    exact ⟨hflag, hcount, TwoWire.eq_of_inRun hkept TwoWire.held, TwoWire.eq_of_inRun hkept TwoWire.kind⟩
  · -- TW_HELD_STARTS_SERVED
    intro s c e a0 r0 sdaLow hb hheld
    refine ⟨_, rfl, ?_⟩
    dsimp only
    obtain ⟨stamp, hbegun⟩ := s.hub.twBegin_twc c e a0 true sdaLow
    rw [Hub.twServe_begins hb hheld, latchIrq_twState, latchIrq_twc, Hub.twBegin_state, hbegun,
      latchIrq_is _ _ _ _ (twReg_ne_wake (by decide)), latchIrq_rd _ _ _ _ (twReg_ne_wake (by decide))]
    refine ⟨rfl, rfl, rfl, rfl, rfl, NMap.get_set_same (s.hub.twc c).held e 0, fun hsda hidle => ?_⟩
    rw [hsda]
    exact Hub.twBegin_late hidle e a0
  · -- TW_TRANSACTION_COMPLETE of a poll
    intro s c bytes dip hrun hk
    refine ⟨_, rfl, ?_⟩
    dsimp only
    rw [latchIrq_twState, latchIrq_twc, Hub.twComplete_poll_state hrun hk, Hub.twComplete_poll_twc hrun hk]
    exact ⟨rfl, rfl, fun hn => by rw [Hub.pollSamples_silent hn]⟩
  · -- TW_TRANSACTION_COMPLETE of a poll that reads, with room
    intro s c bytes dip hrun hk hn hlen hgaps hheld
    refine ⟨_, rfl, ?_⟩
    dsimp only
    rw [latchIrq_twc, Hub.twComplete_poll_twc hrun hk]
    exact Hub.pollSamples_fifo hn hlen hgaps hheld bytes dip
  · -- TW_NACK of a poll with a retry left
    intro s c d dip hrun hk hleft
    refine ⟨_, rfl, ?_⟩
    dsimp only
    rw [Hub.twNack_repeats hrun ⟨hk, hleft⟩, latchIrq_twc, Hub.setTw_twc_same, Hub.nackCounted_twc]
    refine ⟨rfl, rfl, rfl, ?_, fun a ⟨hwake, herr⟩ => ?_⟩
    · rw [latchIrq_rd _ _ _ _ (twReg_ne_wake (by decide)), Hub.setTw_rd, Hub.nackCounted_errNack]
    · rw [latchIrq_reg _ _ _ _ hwake, Hub.setTw_reg, Hub.nackCounted, Hub.reg_countSat_ne _ _ _ herr, Hub.twDip_reg]
  · -- TW_NACK of the last attempt, or of a host transfer
    intro s c d dip hrun hlast
    refine ⟨_, rfl, ?_⟩
    dsimp only
    obtain ⟨lo, hplace, hlo⟩ := nackFlag_eq c d
    have hflag : ((s.hub.nackCounted c dip).on (nackFlag c d)).is (nackFlag c d) = true :=
      Hub.is_on_same _ (by rw [hplace]; simp only; omega) (by rw [hplace]; exact Nat.one_pos)
    rw [Hub.twNack_last hrun (Hub.not_twRepeats hlast), latchIrq_twc, latchIrq_twState, Hub.twFail_kind,
      Hub.twFail_state _ _ _ (by decide)]
    refine ⟨?_, ?_, rfl, rfl, fun hk => ?_⟩
    · change (latchIrq _ _ _ _).is (nackFlag c d) = true
      rw [latchIrq_is _ _ _ _ (by rw [hplace]; exact twReg_ne_wake (by decide)), Hub.twFail_is (offEnd_nackFlag c d), hflag]
    · rw [latchIrq_rd _ _ _ _ (twReg_ne_wake (by decide)), Hub.twFail_rd (offEnd_errNack c),
        Hub.rd_on_apart _ (by rw [hplace]; simp [Fld.apart, fTwCErrNack]; omega), Hub.nackCounted_errNack]
    · have hxfer : (((s.hub.nackCounted c dip).on (nackFlag c d)).twc c).kind = 2 := by
        rw [Hub.on_twc, Hub.nackCounted_twc, hk]
      rw [latchIrq_rd _ _ _ _ (twReg_ne_wake (by decide)), (Hub.twFail_xfer hxfer (by split <;> decide) _ _).1]
  · -- TW_RETRY
    intro s c sdaLow hr
    refine ⟨_, rfl, ?_⟩
    dsimp only
    rw [if_pos hr, latchIrq_twc, latchIrq_twState, Hub.setTwState_twc, Hub.modTw_twc_same,
      Hub.setTwState_twState _ _ (by split <;> decide)]
    refine ⟨rfl, rfl, fun a ⟨hwake, hctl⟩ => ?_⟩
    rw [latchIrq_reg _ _ _ _ hwake, Hub.setTwState_reg _ _ _ hctl, Hub.modTw_reg]

end Sys2Proof.Machine
end

section
/-! SUPPORT. Errors, held lines and bus clears of a two-wire controller (R131 to R134). -/

namespace Sys2Proof.Machine
open Sys2Proof

/-! ### An error, its flag and its count -/

/-- A flag and a count of one kind of error: the end of a transaction leaves them. -/
abbrev errPair (c : Nat) (flag cnt : Fld) : Prop :=
  (flag.addr = rTwCStatus c ∧ flag.lo < 32 ∧ flag.len = 1) ∧ (cnt.addr = rTwCErr c ∧ cnt.lo ≤ 24 ∧ cnt.len = 8) ∧
    flag.offEnd c ∧ cnt.offEnd c

theorem errPair_arb (c : Fin 8) : errPair c (fTwCStatusArbLost c) (fTwCErrArb c) := by revert c; decide
theorem errPair_bus (c : Fin 8) : errPair c (fTwCStatusBusErr c) (fTwCErrBus c) := by revert c; decide

theorem Hub.errPair_shows {c : Nat} {flag cnt : Fld} (hp : errPair c flag cnt) (h : Hub) :
    ((h.on flag).countSat cnt 1).is flag = true ∧ ((h.on flag).countSat cnt 1).rd cnt = satTo 8 (h.rd cnt + 1) := by
  obtain ⟨⟨hf, hflo, hflen⟩, ⟨hc, hclo, hclen⟩, -⟩ := hp
  have hshown := h.flagCount_shows (f := flag) (g := cnt) (by rw [hf, hc]; simp) (by omega) (by omega) (by omega)
  rwa [hclen] at hshown

/-- A transaction that fails for good leaves both, and so does the interrupt latch. -/
theorem Hub.errPair_ends {c : Nat} {flag cnt : Fld} (hp : errPair c flag cnt) (h : Hub) (result rest : Nat) (bytes : List Byte)
    (h0 : Hub) (m0 m : Met) : (latchIrq h0 m0 (h.twFail c result rest bytes) m).is flag = h.is flag ∧
      (latchIrq h0 m0 (h.twFail c result rest bytes) m).rd cnt = h.rd cnt := by
  obtain ⟨⟨hf, -⟩, ⟨hc, -⟩, hfend, hcend⟩ := hp
  rw [latchIrq_is _ _ _ _ (by rw [hf]; exact twReg_ne_wake (by decide)),
    latchIrq_rd _ _ _ _ (by rw [hc]; exact twReg_ne_wake (by decide)), Hub.twFail_is hfend, Hub.twFail_rd hcend]
  exact ⟨rfl, rfl⟩

/-! ### A lost arbitration and a bus error (R131, R132) -/

/-- The attempt of a controller whose error is flagged and counted. -/
def Hub.errShown (h : Hub) (c : Nat) (dip : Bool) (flag cnt : Fld) : Hub := ((h.twDip c dip).on flag).countSat cnt 1

theorem Hub.errShown_twc (h : Hub) (c : Nat) (dip : Bool) (flag cnt : Fld) :
    (h.errShown c dip flag cnt).twc c = { h.twc c with dip := dip || (h.twc c).dip } := h.twDip_twc c dip

theorem Hub.errShown_repeats (h : Hub) (c : Nat) (dip : Bool) (flag cnt : Fld) :
    (h.errShown c dip flag cnt).twRepeats c ↔ h.twRepeats c := Hub.twRepeats_congr (h := h) rfl (h.twDip_cells c dip)

theorem Hub.errShown_shows {c : Nat} {flag cnt : Fld} (hp : errPair c flag cnt) (h : Hub) (dip : Bool) :
    (h.errShown c dip flag cnt).is flag = true ∧ (h.errShown c dip flag cnt).rd cnt = satTo 8 (h.rd cnt + 1) := by
  obtain ⟨hflag, hcount⟩ := Hub.errPair_shows hp (h.twDip c dip)
  exact ⟨hflag, hcount.trans (by rw [Hub.twDip_rd])⟩

/-- A poll with a retry left: the error shows, and another attempt follows. -/
theorem Hub.errAttempt_repeats {h : Hub} {c : Nat} {flag cnt : Fld} (hp : errPair c flag cnt) (hr : h.twRepeats c)
    (dip : Bool) (result : Nat) (arb : Bool) (bytes : List Byte) (h0 : Hub) (m0 m : Met) {t : Hub}
    (ht : t = latchIrq h0 m0 ((h.errShown c dip flag cnt).twAttemptFailed c result true arb bytes id) m) :
    t.is flag = true ∧ t.rd cnt = satTo 8 (h.rd cnt + 1) ∧ (t.twc c).attempt = (h.twc c).attempt + 1 ∧
      (t.twc c).retry = true := by
  obtain ⟨hflag, hcount⟩ := Hub.errShown_shows hp h dip
  obtain ⟨⟨hf, -⟩, ⟨hc, -⟩, -⟩ := hp
  rw [ht, Hub.twAttemptFailed_repeats ((h.errShown_repeats c dip flag cnt).2 hr), latchIrq_twc, Hub.setTw_twc_same,
    latchIrq_is _ _ _ _ (by rw [hf]; exact twReg_ne_wake (by decide)),
    latchIrq_rd _ _ _ _ (by rw [hc]; exact twReg_ne_wake (by decide)), Hub.setTw_is, Hub.setTw_rd, Hub.errShown_twc]
  exact ⟨hflag, hcount, rfl, rfl⟩

/-- The last attempt, or a host transfer: the error shows, the transaction fails and the controller rests. -/
theorem Hub.errAttempt_last {h : Hub} {c : Fin 8} {flag cnt : Fld} (hp : errPair c flag cnt) (hr : ¬ h.twRepeats c)
    (dip : Bool) {result : Nat} (hresult : result < 8) (arb : Bool) (bytes : List Byte) (h0 : Hub) (m0 m : Met) {t : Hub}
    (ht : t = latchIrq h0 m0 ((h.errShown c dip flag cnt).twAttemptFailed c result true arb bytes id) m) :
    t.is flag = true ∧ t.rd cnt = satTo 8 (h.rd cnt + 1) ∧ (t.twc c).kind = 0 ∧ t.twState c = twIdle ∧
      ((h.twc c).kind = 2 → t.rd (fTwCXferResult c) = result ∧ t.is (fTwCXferBusy c) = false ∧
        t.is (fTwCStatusXferDone c) = true) := by
  obtain ⟨hflag, hcount⟩ := Hub.errShown_shows hp h dip
  obtain ⟨hfend, hcend⟩ := Hub.errPair_ends hp (h.errShown c dip flag cnt) result twIdle bytes h0 m0 m
  rw [ht, Hub.twAttemptFailed_last (fun hg => hr ((h.errShown_repeats c dip flag cnt).1 hg)), id_eq, hfend, hcend, latchIrq_twc,
    latchIrq_twState, Hub.twFail_kind, Hub.twFail_state _ _ _ (by decide)]
  refine ⟨hflag, hcount, rfl, rfl, fun hk => ?_⟩
  rw [latchIrq_rd _ _ _ _ (twReg_ne_wake (by decide)), latchIrq_is _ _ _ _ (twReg_ne_wake (by decide)),
    latchIrq_is _ _ _ _ (twReg_ne_wake (by decide))]
  exact Hub.twFail_xfer (by rw [Hub.errShown_twc]; exact hk) hresult twIdle bytes

/-! ### A line held low (R133) -/

/-- The line that is held low. -/
def lineFlag (c : Nat) (sda : Bool) : Fld := if sda then fTwCStatusSdaLow c else fTwCStatusSclLow c

theorem errPair_line (c : Fin 8) (sda : Bool) : errPair c (lineFlag c sda) (fTwCErrTmo c) := by
  revert c sda
  decide

theorem busErr_apart_line (c : Fin 8) (sda : Bool) : (fTwCStatusBusErr c).apart (lineFlag c sda) ∧
    (fTwCErrBus c).apart (lineFlag c sda) ∧ (fTwCStatusBusErr c).apart (fTwCErrTmo c) ∧
    (fTwCErrBus c).apart (fTwCErrTmo c) := by
  revert c sda
  decide

/-- The time-out of a line, flagged and counted. -/
def Hub.lineShown (h : Hub) (c : Nat) (sda : Bool) : Hub := (h.on (lineFlag c sda)).countSat (fTwCErrTmo c) 1

theorem Hub.lineShown_state (h : Hub) (c : Nat) (sda : Bool) : (h.lineShown c sda).twState c = h.twState c := by
  unfold Hub.lineShown lineFlag
  rw [Hub.countSat_twState _ _ (by simp [fTwCErrTmo]),
    Hub.on_twState _ (by split <;> simp [fTwCStatusSdaLow, fTwCStatusSclLow])]

/-- The transaction that the time-out abandons; one that waited for the winner's STOP ends with a bus error as well. -/
def Hub.lineBroken (h : Hub) (c : Nat) (sda dip : Bool) : Hub :=
  (if (h.twc c).retry && (h.twc c).arb then (h.lineShown c sda).twBusErr c else h.lineShown c sda).twDip c dip

theorem Hub.lineBroken_twc (h : Hub) (c : Nat) (sda dip : Bool) :
    (h.lineBroken c sda dip).twc c = { h.twc c with dip := dip || (h.twc c).dip } := by
  unfold Hub.lineBroken
  rw [Hub.twDip_twc]
  split <;> rfl

theorem Hub.lineBroken_shows (h : Hub) (c : Fin 8) (sda dip : Bool) :
    (h.lineBroken c sda dip).is (lineFlag c sda) = true ∧
    (h.lineBroken c sda dip).rd (fTwCErrTmo c) = satTo 8 (h.rd (fTwCErrTmo c) + 1) := by
  obtain ⟨hflag, hcount⟩ := Hub.errPair_shows (errPair_line c sda) h
  obtain ⟨hbf, hcf, hbt, hct⟩ := busErr_apart_line c sda
  unfold Hub.lineBroken
  rw [Hub.is_congr (Hub.twDip_rd ..), Hub.twDip_rd]
  split
  · rw [Hub.twBusErr, Hub.countSat, Hub.is_wr_apart _ _ hcf, Hub.is_on_apart _ hbf, Hub.rd_wr_apart _ _ hct,
      Hub.rd_on_apart _ hbt]
    exact ⟨hflag, hcount⟩
  · exact ⟨hflag, hcount⟩

/-- A bus clear follows while SDA is low and WCLK is trimmed. -/
def Hub.clearFollows (h : Hub) (low : Bool) : Nat := if low && h.is fClkStatusWclkTrim then twClear else twIdle

theorem Hub.clearFollows_lt (h : Hub) (low : Bool) : h.clearFollows low < 4 := by
  unfold Hub.clearFollows
  split <;> decide

theorem Hub.twTimeout_breaks {h : Hub} {c : Nat} (hup : h.twUp c = true)
    (hst : h.twState c = twBusy ∨ h.twState c = twClear) (sda low : Bool) (bytes : List Byte) (dip : Bool) :
    h.twTimeout c sda low bytes dip = (h.lineBroken c sda dip).twFail c 6 (h.clearFollows low) bytes := by
  have hst' : (h.lineShown c sda).twState c = twBusy ∨ (h.lineShown c sda).twState c = twClear := by
    rwa [Hub.lineShown_state]
  exact (if_neg (by simp [hup])).trans (if_pos hst')

theorem Hub.twTimeout_idle {h : Hub} {c : Nat} (hup : h.twUp c = true) (hst : h.twState c = twIdle) (sda low : Bool)
    (bytes : List Byte) (dip : Bool) : h.twTimeout c sda low bytes dip =
      if low && h.is fClkStatusWclkTrim then (h.lineShown c sda).setTwState c twClear else h.lineShown c sda := by
  have hst' : (h.lineShown c sda).twState c = twIdle := (h.lineShown_state c sda).trans hst
  have htimeout : h.twTimeout c sda low bytes dip =
      if (h.lineShown c sda).twState c = twBusy ∨ (h.lineShown c sda).twState c = twClear then
        (h.lineBroken c sda dip).twFail c 6 (h.clearFollows low) bytes
      else if (h.lineShown c sda).twState c = twIdle ∧ (low && h.is fClkStatusWclkTrim) = true then
        (h.lineShown c sda).setTwState c twClear
      else h.lineShown c sda := if_neg (by simp [hup])
  rw [htimeout, hst', if_neg (by decide)]
  simp only [true_and]

/-- A line held low on an idle bus is shown, and changes no more than the state. -/
theorem Hub.twTimeout_idle_shows {h : Hub} {c : Fin 8} (hup : h.twUp c = true) (hst : h.twState c = twIdle) (sda low : Bool)
    (bytes : List Byte) (dip : Bool) : (h.twTimeout c sda low bytes dip).is (lineFlag c sda) = true ∧
      (h.twTimeout c sda low bytes dip).rd (fTwCErrTmo c) = satTo 8 (h.rd (fTwCErrTmo c) + 1) ∧
      (h.twTimeout c sda low bytes dip).twState c = (if low && h.is fClkStatusWclkTrim then twClear else twIdle) ∧
      (h.twTimeout c sda low bytes dip).tw = h.tw := by
  have hpair := errPair_line c sda
  obtain ⟨hflag, hcount⟩ := Hub.errPair_shows hpair h
  obtain ⟨-, -, hfend, hcend⟩ := hpair
  rw [Hub.twTimeout_idle hup hst]
  split
  · refine ⟨?_, ?_, Hub.setTwState_twState _ _ (by decide), rfl⟩
    · exact (Hub.is_wr_apart _ _ hfend.apart_state).trans hflag
    · exact (Hub.rd_wr_apart _ _ hcend.apart_state).trans hcount
  · exact ⟨hflag, hcount, (h.lineShown_state c sda).trans hst, rfl⟩

/-! ### A bus clear (R134) -/

theorem Hub.twBusClear_stuck {h : Hub} {c : Nat} (hst : h.twState c = twClear) : h.twBusClear c false =
    ((h.on (fTwCStatusStuck c)).fault 0x11 (24 + c) 0xC1 0#32 0#32).twFail c 5 twStuck [] :=
  (if_pos hst).trans (if_pos rfl)

/-- What waited behind the clear runs; a held entry has its START only now. -/
theorem Hub.twBusClear_frees {h : Hub} {c : Nat} (hst : h.twState c = twClear) : h.twBusClear c true =
    if (h.twc c).kind = 0 then h.setTwState c twIdle
    else if (h.twc c).kind = 1 ∧ (h.twc c).late = true ∧ (h.twc c).attempt = 0 then (h.setTwState c twBusy).twLateStart c
    else h.setTwState c twBusy := (if_pos hst).trans (if_neg (by decide))

theorem Hub.twBusClear_frees_state {h : Hub} {c : Nat} (hst : h.twState c = twClear) :
    (h.twBusClear c true).twState c = if (h.twc c).kind = 0 then twIdle else twBusy := by
  rw [Hub.twBusClear_frees hst]
  split
  · exact h.setTwState_twState c (by decide)
  split
  · rw [Hub.twLateStart_state]
    exact h.setTwState_twState c (by decide)
  · exact h.setTwState_twState c (by decide)

theorem Hub.twBusClear_frees_kind {h : Hub} {c : Nat} (hst : h.twState c = twClear) :
    ((h.twBusClear c true).twc c).kind = (h.twc c).kind := by
  rw [Hub.twBusClear_frees hst]
  split
  · rfl
  split
  · rw [Hub.twLateStart_twc, Hub.setTwState_twc]
  · rfl

/-- Of a START at once only the state changes. -/
theorem Hub.twBusClear_frees_prompt {h : Hub} {c : Nat} (hst : h.twState c = twClear) (hl : (h.twc c).late = false) :
    h.twBusClear c true = h.setTwState c (if (h.twc c).kind = 0 then twIdle else twBusy) := by
  rw [Hub.twBusClear_frees hst]
  split
  · rfl
  · exact if_neg (by simp [hl])

/-! ### The statement -/

/-- Settles O12: errors through the flag and count that show them, time-outs and bus clears each in the case its clause names. -/
theorem twoWireErrors : Obligations.TwoWireErrors := by
  refine ⟨?_, ?_, ?_, ?_, ?_, ?_, ?_, ?_⟩
  · -- TW_ARBITRATION_LOST of a poll with a retry left
    intro s c dip hrun hk hleft
    refine ⟨_, rfl, ?_⟩
    dsimp only
    rw [if_pos hrun]
    exact Hub.errAttempt_repeats (errPair_arb c) ⟨hk, hleft⟩ dip 3 true [] _ _ _ rfl
  · -- TW_ARBITRATION_LOST of the last attempt, or of a host transfer
    intro s c dip hrun hlast
    refine ⟨_, rfl, ?_⟩
    dsimp only
    rw [if_pos hrun]
    obtain ⟨hflag, hcount, hkind, hst, hxfer⟩ := Hub.errAttempt_last (errPair_arb c) (Hub.not_twRepeats hlast) dip
      (result := 3) (by decide) true [] s.hub s.met s.met rfl
    exact ⟨hflag, hcount, hkind, hst, fun hk => (hxfer hk).1⟩
  · -- TW_BUS_ERROR of a poll with a retry left
    intro s c bytes dip hrun hk hleft
    refine ⟨_, rfl, ?_⟩
    dsimp only
    rw [if_pos hrun]
    exact Hub.errAttempt_repeats (errPair_bus c) ⟨hk, hleft⟩ dip 4 false bytes _ _ _ rfl
  · -- TW_BUS_ERROR of the last attempt, or of a host transfer
    intro s c bytes dip hrun hlast
    refine ⟨_, rfl, ?_⟩
    dsimp only
    rw [if_pos hrun]
    obtain ⟨hflag, hcount, hkind, hst, hxfer⟩ := Hub.errAttempt_last (errPair_bus c) (Hub.not_twRepeats hlast) dip
      (result := 4) (by decide) false bytes s.hub s.met s.met rfl
    exact ⟨hflag, hcount, hst, hkind, hxfer⟩
  · -- TW_LINE_TIMEOUT during a transaction or a bus clear
    intro s c sda low dip bytes hup hst
    refine ⟨_, rfl, ?_⟩
    dsimp only
    obtain ⟨hflag, hcount⟩ := s.hub.lineBroken_shows c sda dip
    obtain ⟨hfend, hcend⟩ := Hub.errPair_ends (errPair_line c sda) (s.hub.lineBroken c sda dip) 6 (s.hub.clearFollows low)
      bytes s.hub s.met s.met
    rw [Hub.twTimeout_breaks hup hst, latchIrq_twState, latchIrq_twc, hcend, Hub.twFail_kind,
      Hub.twFail_state _ _ _ (s.hub.clearFollows_lt low)]
    refine ⟨hfend.trans hflag, hcount, rfl, rfl, fun hk => ?_⟩
    rw [latchIrq_rd _ _ _ _ (twReg_ne_wake (by decide)),
      (Hub.twFail_xfer (by rw [Hub.lineBroken_twc]; exact hk) (by decide) _ _).1]
  · -- TW_LINE_TIMEOUT of an idle bus
    intro s c sda low dip bytes hup hst
    refine ⟨_, rfl, ?_⟩
    dsimp only
    rw [latchIrq_twState, latchIrq_tw, latchIrq_is _ _ _ _ (by split <;> exact twReg_ne_wake (by decide)),
      latchIrq_rd _ _ _ _ (twReg_ne_wake (by decide))]
    exact Hub.twTimeout_idle_shows hup hst sda low bytes dip
  · -- TW_BUS_CLEAR that frees the bus
    intro s c hst
    refine ⟨_, rfl, ?_⟩
    dsimp only
    rw [latchIrq_twState, latchIrq_twc, latchIrq_tw, Hub.twBusClear_frees_state hst, Hub.twBusClear_frees_kind hst]
    refine ⟨rfl, rfl, fun hl => ?_, fun hl a ⟨hwake, hctl⟩ => ?_, fun hk hl ha => ?_⟩
    · rw [Hub.twBusClear_frees_prompt hst hl]
      rfl
    · rw [latchIrq_reg _ _ _ _ hwake, Hub.twBusClear_frees_prompt hst hl, Hub.setTwState_reg _ _ _ hctl]
    · rw [latchIrq_is _ _ _ _ (twReg_ne_wake (by decide)), Hub.twBusClear_frees hst, if_neg (by omega), if_pos ⟨hk, hl, ha⟩,
        (Hub.twLateStart_shows _ _).1]
  · -- TW_BUS_CLEAR that does not
    intro s c hst
    refine ⟨_, rfl, ?_⟩
    dsimp only
    have hstatus : rTwCStatus c < 0x1F8000 := by
      simp only [rTwCStatus]
      omega
    rw [Hub.twBusClear_stuck hst, latchIrq_twState, latchIrq_twc, Hub.twFail_kind, Hub.twFail_state _ _ _ (by decide)]
    refine ⟨rfl, ?_, rfl, fun hk => ?_⟩
    · rw [latchIrq_is _ _ _ _ (twReg_ne_wake (by decide)), Hub.twFail_is (offEnd_stuck c), Hub.fault_is _ _ _ _ _ _ (.inl hstatus),
        Hub.is_on_same _ (by simp [fTwCStatusStuck]) (by simp [fTwCStatusStuck])]
    · rw [latchIrq_rd _ _ _ _ (twReg_ne_wake (by decide)),
        (Hub.twFail_xfer (by rw [Hub.fault_twc, Hub.on_twc]; exact hk) (by decide) _ _).1]

end Sys2Proof.Machine
end

section
/-! SUPPORT. Host transfers of a two-wire controller and aborts (R134, R135, R139, R142). -/

namespace Sys2Proof.Machine
open Sys2Proof

/-! ### A write of the transfer register (R135, R142) -/

/-- The transfer register holds what the host wrote of the transfer (R142). -/
def Hub.xferWritten (h : Hub) (c : Nat) (w : Word) : Hub :=
  (((h.wr (fTwCXferJoin c) (fieldOf w 26 1)).wr (fTwCXferWcount c) (fieldOf w 22 4)).wr (fTwCXferRcount c)
    (fieldOf w 18 4)).wr (fTwCXferAddr c) (fieldOf w 0 7)

theorem Hub.xferWritten_reg (h : Hub) (c : Nat) (w : Word) {a : Nat} (ha : a ≠ rTwCXfer c) :
    (h.xferWritten c w).reg a = h.reg a := by
  unfold Hub.xferWritten
  rw [Hub.reg_wr_ne _ _ _ ha, Hub.reg_wr_ne _ _ _ ha, Hub.reg_wr_ne _ _ _ ha, Hub.reg_wr_ne _ _ _ ha]

theorem Hub.xferWritten_shows (h : Hub) (c : Nat) (w : Word) : (h.xferWritten c w).rd (fTwCXferAddr c) = fieldOf w 0 7 ∧
    (h.xferWritten c w).rd (fTwCXferWcount c) = fieldOf w 22 4 ∧
    (h.xferWritten c w).rd (fTwCXferRcount c) = fieldOf w 18 4 := by
  unfold Hub.xferWritten
  refine ⟨?_, ?_, ?_⟩
  · rw [Hub.rd_wr_same _ _ (by simp [fTwCXferAddr])]
    exact Nat.mod_eq_of_lt (fieldOf_lt _ _ _)
  · rw [Hub.rd_wr_apart _ _ (by simp [Fld.apart, fTwCXferAddr, fTwCXferWcount]),
      Hub.rd_wr_apart _ _ (by simp [Fld.apart, fTwCXferRcount, fTwCXferWcount]), Hub.rd_wr_same _ _ (by simp [fTwCXferWcount])]
    exact Nat.mod_eq_of_lt (fieldOf_lt _ _ _)
  · rw [Hub.rd_wr_apart _ _ (by simp [Fld.apart, fTwCXferAddr, fTwCXferRcount]), Hub.rd_wr_same _ _ (by simp [fTwCXferRcount])]
    exact Nat.mod_eq_of_lt (fieldOf_lt _ _ _)

theorem Hub.xferWritten_busy (h : Hub) (c : Nat) (w : Word) :
    (h.xferWritten c w).is (fTwCXferBusy c) = h.is (fTwCXferBusy c) := by
  unfold Hub.xferWritten
  rw [Hub.is_wr_apart _ _ (by simp [Fld.apart, fTwCXferAddr, fTwCXferBusy]),
    Hub.is_wr_apart _ _ (by simp [Fld.apart, fTwCXferRcount, fTwCXferBusy]),
    Hub.is_wr_apart _ _ (by simp [Fld.apart, fTwCXferWcount, fTwCXferBusy]),
    Hub.is_wr_apart _ _ (by simp [Fld.apart, fTwCXferJoin, fTwCXferBusy])]

theorem Hub.xferWritten_state (h : Hub) (c : Nat) (w : Word) : (h.xferWritten c w).twState c = h.twState c :=
  Hub.rd_congr (h.xferWritten_reg c w (by simp [fTwCCtlState]))

/-- A go of a controller whose transfer is not busy, and what it leads to. -/
theorem Hub.twXferWrite_go {h : Hub} {c : Nat} {w : Word} (hidle : h.is (fTwCXferBusy c) = false) (hgo : bitOf w 31 = true) :
    h.twXferWrite c w =
      if 12 < fieldOf w 22 4 then (h.xferWritten c w).on (fTwCStatusXferRefused c)
      else if h.twState c = twStuck then (h.xferWritten c w).twXferEnd c 5 []
      else ((h.xferWritten c w).on (fTwCXferBusy c)).modTw c (fun x => { x with xferWait := true }) := by
  have hwrite : h.twXferWrite c w =
      if !bitOf w 31 then h.xferWritten c w
      else if 12 < fieldOf w 22 4 then (h.xferWritten c w).on (fTwCStatusXferRefused c)
      else if (h.xferWritten c w).twState c = twStuck then (h.xferWritten c w).twXferEnd c 5 []
      else ((h.xferWritten c w).on (fTwCXferBusy c)).modTw c (fun x => { x with xferWait := true }) :=
    if_neg (by simp [hidle])
  rw [hwrite, if_neg (by simp [hgo]), Hub.xferWritten_state]

theorem Hub.twXferWrite_busy {h : Hub} {c : Nat} (hbusy : h.is (fTwCXferBusy c) = true) (w : Word) :
    h.twXferWrite c w = h.on (fTwCStatusXferRefused c) := if_pos hbusy

/-! ### The waiting transfer runs (R135) -/

/-- The controller whose waiting transfer runs. -/
def Hub.xferRuns (h : Hub) (c : Nat) : Hub :=
  h.setTw c { h.twc c with
    kind := 2, xferWait := false, retry := false, foreign := false, arb := false, dip := false, late := false }

theorem Hub.twXferRun_due {h : Hub} {c : Nat} (hb : h.twBoundary c = true) (hheld : (h.twc c).held = [])
    (hwait : (h.twc c).xferWait = true) (sdaLow : Bool) : h.twXferRun c sdaLow =
      if h.twState c = twStuck then ((h.xferRuns c).twXferEnd c 5 []).twRest c twStuck
      else (h.xferRuns c).setTwState c (behindClear sdaLow) := by
  unfold Hub.twXferRun
  dsimp only
  rw [if_pos (by simp [hb, hheld, hwait])]
  rfl

/-! ### The STOP of a host transfer -/

theorem Hub.twComplete_xfer {h : Hub} {c : Nat} (hrun : h.twRunning c = true) (hk : (h.twc c).kind ≠ 1) (bytes : List Byte)
    (dip : Bool) : h.twComplete c bytes dip = (h.twXferEnd c 0 bytes).twRest c twIdle := by
  unfold Hub.twComplete
  dsimp only
  rw [if_neg (by simp [hrun]), if_neg hk]

/-! ### An abort (R134, R139) -/

theorem Hub.twAbort_poll {h : Hub} {c : Nat} (hk : (h.twc c).kind = 1) : h.twAbort c = h.twRest c twClear := by
  unfold Hub.twAbort
  dsimp only
  rw [if_neg (by omega), if_neg (by omega)]

/-- An aborted transfer ends with a result and bytes that are free (log entry 41). -/
theorem Hub.twAbort_xfer {h : Hub} {c : Nat} (hk : (h.twc c).kind = 2) : ∃ result bytes,
    result < 8 ∧ h.twAbort c = (h.takeFree.2.takeFree.2.twXferEnd c result bytes).twRest c twClear := by
  unfold Hub.twAbort
  dsimp only
  rw [if_neg (by omega), if_pos hk]
  exact ⟨_, _, Nat.mod_lt _ (by decide), rfl⟩

/-! ### The statement -/

/-- Settles O13: each write, run, end and abort by its own lemma, read behind the interrupt latch. -/
theorem twoWireTransfers : Obligations.TwoWireTransfers := by
  refine ⟨?_, ?_, ?_, ?_, ?_, ?_, ?_, ?_, ?_⟩
  · -- TW_XFER_GO taken
    intro s c w hans hidle hgo hcount hst
    refine ⟨_, rfl, ?_⟩
    dsimp only
    obtain ⟨haddr, hwcount, hrcount⟩ := s.hub.xferWritten_shows c w
    rw [Hub.atReg_answers _ hans, Hub.twXferWrite_go hidle hgo, if_neg (by omega), if_neg hst, latchIrq_twc, Hub.modTw_twc_same,
      latchIrq_is _ _ _ _ (twReg_ne_wake (by decide)), latchIrq_rd _ _ _ _ (twReg_ne_wake (by decide)),
      latchIrq_rd _ _ _ _ (twReg_ne_wake (by decide)), latchIrq_rd _ _ _ _ (twReg_ne_wake (by decide)), Hub.modTw_is,
      Hub.modTw_rd, Hub.modTw_rd, Hub.modTw_rd, Hub.is_on_same _ (by simp [fTwCXferBusy]) (by simp [fTwCXferBusy]),
      Hub.rd_on_apart _ (by simp [Fld.apart, fTwCXferBusy, fTwCXferAddr]),
      Hub.rd_on_apart _ (by simp [Fld.apart, fTwCXferBusy, fTwCXferWcount]),
      Hub.rd_on_apart _ (by simp [Fld.apart, fTwCXferBusy, fTwCXferRcount])]
    refine ⟨rfl, rfl, haddr, hwcount, hrcount, fun a ⟨hwake, hxfer⟩ => ?_⟩
    rw [latchIrq_reg _ _ _ _ hwake, Hub.modTw_reg, Hub.reg_on_ne _ _ hxfer, Hub.xferWritten_reg _ _ _ hxfer]
  · -- TW_XFER_GO of a STUCK controller
    intro s c w hans hidle hgo hcount hst
    refine ⟨_, rfl, ?_⟩
    dsimp only
    obtain ⟨hresult, hbusy, hdone⟩ := (s.hub.xferWritten c w).twXferEnd_shows c (result := 5) (by decide) []
    rw [Hub.atReg_answers _ hans, Hub.twXferWrite_go hidle hgo, if_neg (by omega), if_pos hst, latchIrq_tw,
      latchIrq_rd _ _ _ _ (twReg_ne_wake (by decide)), latchIrq_is _ _ _ _ (twReg_ne_wake (by decide)),
      latchIrq_is _ _ _ _ (twReg_ne_wake (by decide))]
    exact ⟨hresult, hbusy, hdone, Hub.present_tw ..⟩
  · -- TW_XFER_GO with more than 12 write bytes
    intro s c w hans hidle hgo hcount
    refine ⟨_, rfl, ?_⟩
    dsimp only
    rw [Hub.atReg_answers _ hans, Hub.twXferWrite_go hidle hgo, if_pos hcount, latchIrq_tw,
      latchIrq_is _ _ _ _ (twReg_ne_wake (by decide)), latchIrq_is _ _ _ _ (twReg_ne_wake (by decide)),
      Hub.is_on_same _ (by simp [fTwCStatusXferRefused]) (by simp [fTwCStatusXferRefused]),
      Hub.is_on_apart _ (by simp [Fld.apart, fTwCStatusXferRefused, fTwCXferBusy]), Hub.xferWritten_busy]
    exact ⟨rfl, rfl, hidle⟩
  · -- TW_XFER_GO refused while busy
    intro s c w hans hbusy
    refine ⟨_, rfl, ?_⟩
    dsimp only
    rw [Hub.atReg_answers _ hans, Hub.twXferWrite_busy hbusy, latchIrq_tw, latchIrq_is _ _ _ _ (twReg_ne_wake (by decide)),
      Hub.is_on_same _ (by simp [fTwCStatusXferRefused]) (by simp [fTwCStatusXferRefused])]
    refine ⟨rfl, rfl, fun a ⟨hwake, hstatus⟩ => ?_⟩
    rw [latchIrq_reg _ _ _ _ hwake, Hub.reg_on_ne _ _ hstatus]
  · -- TW_XFER_RUN
    intro s c sdaLow hb hheld hwait hst
    refine ⟨_, rfl, ?_⟩
    dsimp only
    rw [Hub.twXferRun_due hb hheld hwait, if_neg (by rw [hst]; decide), latchIrq_twc, latchIrq_twState, Hub.setTwState_twc,
      Hub.xferRuns, Hub.setTw_twc_same, Hub.setTwState_twState _ _ (behindClear_lt sdaLow)]
    refine ⟨rfl, rfl, rfl, fun a ⟨hwake, hctl⟩ => ?_⟩
    rw [latchIrq_reg _ _ _ _ hwake, Hub.setTwState_reg _ _ _ hctl, Hub.setTw_reg]
  · -- TW_XFER_RUN of a controller that has become STUCK
    intro s c sdaLow hb hheld hwait hst
    refine ⟨_, rfl, ?_⟩
    dsimp only
    rw [Hub.twXferRun_due hb hheld hwait, if_pos hst, latchIrq_twc, latchIrq_twState, Hub.twRest_twc, Hub.twXferEnd_twc,
      Hub.xferRuns, Hub.setTw_twc_same, Hub.twRest_state _ _ (by decide), latchIrq_rd _ _ _ _ (twReg_ne_wake (by decide)),
      (Hub.xferRested_shows _ c (by decide) _ _).1]
    exact ⟨rfl, rfl, rfl, rfl⟩
  · -- TW_TRANSACTION_COMPLETE of a host transfer
    intro s c bytes dip hrun hk
    refine ⟨_, rfl, ?_⟩
    dsimp only
    obtain ⟨hresult, hbusy, hdone⟩ := s.hub.xferRested_shows c (result := 0) (by decide) twIdle bytes
    rw [Hub.twComplete_xfer hrun hk, latchIrq_twc, latchIrq_twState, Hub.twRest_twc, Hub.twRest_state _ _ (by decide),
      latchIrq_rd _ _ _ _ (twReg_ne_wake (by decide)), latchIrq_is _ _ _ _ (twReg_ne_wake (by decide)),
      latchIrq_is _ _ _ _ (twReg_ne_wake (by decide))]
    refine ⟨rfl, rfl, hresult, hbusy, hdone, fun k => ?_⟩
    rw [latchIrq_reg _ _ _ _ (by simp only [rTwCRdata]; omega), Hub.twRest_reg _ _ _ (by simp only [rTwCRdata, rTwCCtl]; omega),
      Hub.twXferEnd_data]
  · -- TW_ABORT of a poll
    intro s c hans hk
    refine ⟨_, rfl, ?_⟩
    dsimp only
    rw [Hub.atReg_answers _ hans, Hub.twAbort_poll hk, latchIrq_twc, latchIrq_twState, Hub.twRest_twc,
      Hub.twRest_state _ _ (by decide)]
    refine ⟨rfl, rfl, rfl, rfl, fun a ⟨hwake, hctl⟩ => ?_⟩
    rw [latchIrq_reg _ _ _ _ hwake, Hub.twRest_reg _ _ _ hctl]
  · -- TW_ABORT of a host transfer
    intro s c hans hk
    refine ⟨_, rfl, ?_⟩
    dsimp only
    obtain ⟨result, bytes, hr, habort⟩ := Hub.twAbort_xfer hk
    obtain ⟨-, hbusy, hdone⟩ := s.hub.takeFree.2.takeFree.2.xferRested_shows c hr twClear bytes
    rw [Hub.atReg_answers _ hans, habort, latchIrq_twc, latchIrq_twState, Hub.twRest_twc, Hub.twRest_state _ _ (by decide),
      latchIrq_is _ _ _ _ (twReg_ne_wake (by decide)), latchIrq_is _ _ _ _ (twReg_ne_wake (by decide))]
    exact ⟨rfl, rfl, hbusy, hdone⟩

end Sys2Proof.Machine
end

section
/-! SUPPORT. Commands that are one access of a register (R71 to R75): what they leave where the register answers, and where it does
not. -/

namespace Sys2Proof.Machine
open Sys2Proof

/-! ### An access that finds no register -/

theorem Hub.noteAccess_records (h : Hub) (x : Access) (a : Nat) :
    h.noteAccess x a = { h with regs := (h.noteAccess x a).regs } := by
  cases x <;> rfl

theorem Hub.noteAccess_reg (h : Hub) (x : Access) (a : Nat) {k : Nat} (hk : k ≠ rHstStatus ∧ k ≠ rHstLast) :
    (h.noteAccess x a).reg k = h.reg k := by
  obtain ⟨hs, hl⟩ := hk
  cases x with
  | ok => rfl
  | notready => exact h.reg_on_ne _ hs
  | _ => exact (Hub.reg_wr_ne _ _ _ hl).trans (h.reg_on_ne _ hs)

theorem Hub.answers_false {fx : Fixed} {m : Met} {b : Blk} {a : Nat} {h : Hub} (ha : h.answers fx m b a = false) :
    h.asleep = true ∨ h.asleep = false ∧ regMeets fx m b a h ≠ .ok := by
  unfold Hub.answers at ha
  cases hs : h.asleep
  · rw [hs] at ha
    exact .inr ⟨rfl, by simpa using ha⟩
  · exact .inl rfl

/-- A write that no register answers is noted, or nothing at all while the hub sleeps. -/
theorem Hub.atReg_silent {fx : Fixed} {m : Met} {b : Blk} {a : Nat} {h : Hub} (ha : h.answers fx m b a = false)
    (act : Hub → Hub) : ∃ x, h.atReg fx m b a act = h.noteAccess x a := by
  unfold Hub.atReg
  rcases Hub.answers_false ha with hs | ⟨hs, hx⟩
  · exact ⟨.ok, if_pos hs⟩
  · rw [if_neg (by simp [hs])]
    refine ⟨regMeets fx m b a h, ?_⟩
    cases hmeets : regMeets fx m b a h with
    | ok => exact absurd hmeets hx
    | _ => rfl

/-- A read that no register answers is noted and returns zero, or does nothing at all while the hub sleeps. -/
theorem Hub.readOf_silent {fx : Fixed} {m : Met} {b : Blk} {a : Nat} {h : Hub} (ha : h.answers fx m b a = false)
    (act : Hub → Word × Hub) : ∃ x o, h.readOf fx m b a act = { h.noteAccess x a with host := o } := by
  unfold Hub.readOf
  rcases Hub.answers_false ha with hs | ⟨hs, hx⟩
  · exact ⟨.ok, h.host, if_pos hs⟩
  · rw [if_neg (by simp [hs])]
    refine ⟨regMeets fx m b a h, { h.host with out := [0#32], crc := none }, ?_⟩
    cases hmeets : regMeets fx m b a h with
    | ok => exact absurd hmeets hx
    | _ => rfl

/-! ### The outcome of a command that is one access -/

/-- What a command leaves that is one access of a register: `h` is the hub where the register does not answer, `g` where it does. -/
structure Hub.Accessed (h g : Hub) (answers : Bool) (t : Hub) : Prop where
  silent : answers = false → (∃ r, t = { h with regs := r }) ∧
    ∀ a, a ≠ 0x30 ∧ a ≠ rHstStatus ∧ a ≠ rHstLast → t.reg a = h.reg a
  acted : answers = true → (∃ r, t = { g with regs := r }) ∧ ∀ a, a ≠ 0x30 → t.reg a = g.reg a

theorem Hub.Accessed.records {h g t : Hub} {answers : Bool} (ht : h.Accessed g answers t) :
    ∃ r, t = { h with regs := r } ∨ t = { g with regs := r } := by
  cases hans : answers with
  | false =>
    obtain ⟨r, e⟩ := (ht.silent hans).1
    exact ⟨r, .inl e⟩
  | true =>
    obtain ⟨r, e⟩ := (ht.acted hans).1
    exact ⟨r, .inr e⟩

/-- An access that changes one entry of a table. -/
theorem Hub.Accessed.table {β : Type} [Inhabited β] [DecidableEq β] {h g t : Hub} {answers : Bool}
    (ht : h.Accessed g answers t) (tbl : Hub → NMap β) {n : Nat} {f : β → β} (hg : tbl g = NMap.modify (tbl h) n f)
    (hregs : ∀ (k : Hub) (r : NMap Word), tbl { k with regs := r } = tbl k := by exact fun _ _ => rfl) :
    (∀ k, k ≠ n → NMap.get (tbl t) k = NMap.get (tbl h) k) ∧
      (NMap.get (tbl t) n = NMap.get (tbl h) n ∨ NMap.get (tbl t) n = f (NMap.get (tbl h) n)) := by
  obtain ⟨r, e | e⟩ := ht.records
  · rw [e, hregs]
    exact ⟨fun _ _ => rfl, .inl rfl⟩
  · rw [e, hregs, hg]
    exact ⟨fun _ hk => NMap.get_modify_ne _ _ hk, .inr (NMap.get_modify_same ..)⟩

/-- An access that itself writes no register. -/
theorem Hub.Accessed.reg {h g t : Hub} {answers : Bool} (ht : h.Accessed g answers t) (hg : g.regs = h.regs) :
    (∀ a, a ≠ 0x30 ∧ a ≠ rHstStatus ∧ a ≠ rHstLast → t.reg a = h.reg a) ∧
      (answers = true → ∀ a, a ≠ 0x30 → t.reg a = h.reg a) := by
  have hacted : answers = true → ∀ a, a ≠ 0x30 → t.reg a = h.reg a :=
    fun ha a hk => ((ht.acted ha).2 a hk).trans (Hub.reg_congr hg a)
  refine ⟨fun a hk => ?_, hacted⟩
  cases hans : answers with
  | false => exact (ht.silent hans).2 a hk
  | true => exact hacted hans a hk.1

/-- The latch leaves every record of a hub as it is. -/
theorem latchIrq_records {h g : Hub} (hg : g = { h with regs := g.regs }) (h0 : Hub) (m0 m : Met) :
    ∃ r, latchIrq h0 m0 g m = { h with regs := r } :=
  ⟨_, (latchIrq_eq h0 m0 g m).trans (congrArg (fun k : Hub => { k with regs := (latchIrq h0 m0 g m).regs }) hg)⟩

/-- A command that reads a register: the word returned stands with the host. -/
theorem exec_read {s : State} {c : Instr} {b : Blk} {a : Nat} {act : Hub → Word × Hub}
    (hc : exec c s = liftHub s (fun fx h => h.readOf fx s.met b a act)) : ∃ t o o', exec c s = .next t ∧ t.met = s.met ∧
      Hub.Accessed { s.hub with host := o } { (act s.hub).2 with host := o' } (s.hub.answers s.fixed s.met b a) t.hub := by
  cases hans : s.hub.answers s.fixed s.met b a with
  | false =>
    obtain ⟨x, o, e⟩ := Hub.readOf_silent hans act
    refine ⟨_, o, o, hc, rfl, fun _ => ?_, fun hans => absurd hans Bool.false_ne_true⟩
    dsimp only
    rw [e]
    have hsame := congrArg (fun g : Hub => { g with host := o }) (s.hub.noteAccess_records x a)
    refine ⟨latchIrq_records (h := { s.hub with host := o }) hsame _ _ _, fun k ⟨hwake, hk⟩ => ?_⟩
    rw [latchIrq_reg _ _ _ _ hwake]
    exact s.hub.noteAccess_reg x a hk
  | true =>
    refine ⟨_, s.hub.host, { (act s.hub).2.host with out := [(act s.hub).1], crc := none }, hc, rfl,
      fun hans => absurd hans.symm Bool.false_ne_true, fun _ => ?_⟩
    dsimp only
    rw [Hub.readOf_answers act hans]
    exact ⟨latchIrq_records (h := (act s.hub).2.toHost (act s.hub).1) rfl _ _ _, fun k hwake => latchIrq_reg _ _ _ _ hwake⟩

/-- A command that writes a register. -/
theorem exec_write {s : State} {c : Instr} {b : Blk} {a : Nat} {act : Hub → Hub}
    (hc : exec c s = liftHub s (fun fx h => h.atReg fx s.met b a act)) : ∃ t, exec c s = .next t ∧ t.met = s.met ∧
      s.hub.Accessed (act s.hub) (s.hub.answers s.fixed s.met b a) t.hub := by
  refine ⟨_, hc, rfl, fun hans => ?_, fun hans => ?_⟩
  · obtain ⟨x, e⟩ := Hub.atReg_silent hans act
    dsimp only
    rw [e]
    refine ⟨latchIrq_records (s.hub.noteAccess_records x a) _ _ _, fun k ⟨hwake, hk⟩ => ?_⟩
    rw [latchIrq_reg _ _ _ _ hwake, s.hub.noteAccess_reg x a hk]
  · dsimp only
    rw [Hub.atReg_answers act hans]
    exact ⟨latchIrq_records rfl _ _ _, fun k hwake => latchIrq_reg _ _ _ _ hwake⟩

end Sys2Proof.Machine
end

section
/-! SUPPORT. Reads that latch and words that are held (R98, R126, R246, R269, R298, R312, R317, R319). -/

namespace Sys2Proof.Machine
open Sys2Proof

/-! ### A refused access of a memory under test (R465) -/

theorem Hub.refusedBy_records (h : Hub) (gs : List Nat) : h.refusedBy gs = { h with regs := (h.refusedBy gs).regs } := by
  unfold Hub.refusedBy
  induction gs generalizing h with
  | nil => rfl
  | cons g gs ih =>
    rw [List.foldl_cons, ih]
    split <;> rfl

theorem Hub.refusedBy_reg (h : Hub) (gs : List Nat) {a : Nat} (ha : ∀ g ∈ gs, a ≠ rHltStSkipped g) :
    (h.refusedBy gs).reg a = h.reg a := by
  refine foldl_keep_mem (fun k => k.reg a) _ _ (fun k g hg => ?_) h
  split
  · exact k.reg_setReg_ne _ (ha g hg)
  · rfl

/-! ### A held word of a limit entry (R246) -/

theorem Hub.limHold_records (h : Hub) (e i : Nat) (w : Word) : h.limHold e i w =
    { h with regs := (h.limHold e i w).regs,
             lim := { h.lim with entry := (h.limHold e i w).lim.entry, buf := (h.limHold e i w).lim.buf } } := by
  unfold Hub.limHold
  split
  · rw [h.refusedBy_records heldLimit]
  split
  · split <;> rfl
  · rfl

/-- An entry write takes the entry, and of another's words only the new one stays. -/
theorem Hub.limHold_takes {h : Hub} (hheld : h.stHeld heldLimit = false) (e i : Nat) (w : Word) :
    (h.limHold e i w).lim.entry = some e ∧ NMap.getD (h.limHold e i w).lim.buf i 0#32 = w := by
  unfold Hub.limHold
  rw [if_neg (by simp [hheld])]
  split
  next e0 he0 =>
    split
    next heq =>
      refine ⟨he0.trans (congrArg some heq), ?_⟩
      exact (NMap.getD_insert_erase h.lim.buf i i w 0#32).trans (if_pos rfl)
    next => exact ⟨rfl, if_pos rfl⟩
  next => exact ⟨rfl, if_pos rfl⟩

theorem Hub.limHold_reg {h : Hub} {a : Nat} (hs : a ≠ rLimStatus)
    (hheld : h.stHeld heldLimit = false ∨ a ≠ rHltStSkipped 4 ∧ a ≠ rHltStSkipped 6) (e i : Nat) (w : Word) :
    (h.limHold e i w).reg a = h.reg a := by
  unfold Hub.limHold
  split
  next hh =>
    obtain ⟨h4, h6⟩ := hheld.resolve_left (by simp [hh])
    exact h.refusedBy_reg heldLimit (by simpa [heldLimit] using ⟨h4, h6⟩)
  split
  · split
    · rfl
    · exact h.reg_on_ne fLimStatusWrDiscard hs
  · rfl

/-! ### The statement -/

/-- Settles O55: each command is one access, whose effect where the register answers is a change of one entry of one table. -/
theorem frameReadsAndHeldWords : Obligations.FrameReadsAndHeldWords := by
  refine ⟨?_, ?_, ?_, ?_, ?_, ?_, ?_, ?_, ?_⟩
  · -- TM_NOW_READ
    intro s n
    obtain ⟨t, o, o', hexec, hmet, ht⟩ := exec_read (c := .tmNowRead n) (s := s) rfl
    obtain ⟨hothers, hown⟩ := ht.table Hub.tb (n := n) (f := fun x => { x with latch := report (s.hub.tbVal n) }) rfl
    refine ⟨t, hexec, hmet, ?_, hothers, ?_, ht.reg rfl⟩
    · obtain ⟨r, e | e⟩ := ht.records
      · rw [e]
      · rw [e]
        rfl
    · rcases hown with e | e <;> rw [e]
  · -- TACH_STAMP_READ
    intro s i
    obtain ⟨t, o, o', hexec, hmet, ht⟩ := exec_read (c := .tachStampRead i) (s := s) rfl
    obtain ⟨hothers, -⟩ := ht.table Hub.tach (n := i) (f := fun x => { x with latch := s.hub.tachStamp i }) rfl
    refine ⟨t, hexec, hmet, ?_, hothers, ht.reg rfl⟩
    · obtain ⟨r, e | e⟩ := ht.records
      · rw [e]
      · rw [e]
        rfl
  · -- SP_STAMP_READ
    intro s p
    obtain ⟨t, o, o', hexec, hmet, ht⟩ := exec_read (c := .spStampRead p) (s := s) rfl
    obtain ⟨hothers, hown⟩ := ht.table Hub.sp (n := p)
      (f := fun y => { y with latch := 8 * (s.hub.port p).lastStamp + y.flags }) rfl
    refine ⟨t, hexec, hmet, ?_, hothers, ?_, ht.reg rfl⟩
    · obtain ⟨r, e | e⟩ := ht.records
      · rw [e]
      · rw [e]
        rfl
    · rcases hown with e | e <;> rw [Hub.port, e, Hub.port]
  · -- SP_PLAN_RESTART
    intro s p
    obtain ⟨t, hexec, hmet, ht⟩ := exec_write (c := .spPlanRestart p) (s := s) rfl
    obtain ⟨hothers, -⟩ := ht.table Hub.sp (n := p) (f := fun y => { y with restart := true }) rfl
    refine ⟨t, hexec, hmet, ?_, hothers, fun hans => ?_, fun hans => ?_, ht.reg rfl⟩
    · obtain ⟨r, e | e⟩ := ht.records
      · rw [e]
      · rw [e]
        rfl
    · obtain ⟨⟨r, e⟩, -⟩ := ht.acted hans
      rw [e]
      exact s.hub.modPort_port_same p (fun y => { y with restart := true })
    · obtain ⟨⟨r, e⟩, -⟩ := ht.silent hans
      rw [e]
      rfl
  · -- EV_STAMP_READ
    intro s n
    obtain ⟨t, o, o', hexec, hmet, ht⟩ := exec_read (c := .evStampRead n) (s := s) rfl
    obtain ⟨hothers, hown⟩ := ht.table Hub.ev (n := n)
      (f := fun x => { x with latch := 2 * x.stamp + s.hub.rd (fEvCStamp3Held n) }) rfl
    refine ⟨t, hexec, hmet, ?_, hothers, ?_, ht.reg rfl⟩
    · obtain ⟨r, e | e⟩ := ht.records
      · rw [e]
      · rw [e]
        rfl
    · rcases hown with e | e <;> rw [e]
  · -- DIG_SEQ_READ
    intro s c
    obtain ⟨t, o, o', hexec, hmet, ht⟩ := exec_read (c := .digSeqRead c) (s := s) rfl
    obtain ⟨hothers, hown⟩ := ht.table Hub.ctx (n := c)
      (f := fun y => { y with digLatch := some (s.hub.reg (rFabCDigIn c), s.hub.reg (rFabCDigHead c)) }) rfl
    refine ⟨t, hexec, hmet, ?_, hothers, ?_, ht.reg rfl⟩
    · obtain ⟨r, e | e⟩ := ht.records
      · rw [e]
      · rw [e]
        rfl
    · rcases hown with e | e <;> rw [e]
  · -- FEA_VALUES_READ
    intro s c
    obtain ⟨t, o, o', hexec, hmet, ht⟩ := exec_read (c := .feaValuesRead c) (s := s) rfl
    obtain ⟨hothers, hown⟩ := ht.table Hub.fea (n := c) (f := fun x => { x with latch := s.hub.feaValues c, reads := 5 }) rfl
    refine ⟨t, hexec, hmet, ?_, hothers, ?_, ht.reg rfl⟩
    · obtain ⟨r, e | e⟩ := ht.records
      · rw [e]
      · rw [e]
        rfl
    · rcases hown with e | e <;> rw [e]
  · -- KT_HELD_WORD_WRITE
    intro s x i w
    obtain ⟨t, hexec, hmet, ht⟩ := exec_write (c := .ktHeldWordWrite x i w) (s := s) rfl
    obtain ⟨hothers, hown⟩ := ht.table Hub.kt (n := x) (f := fun k => { k with
      held := NMap.insert (NMap.erase k.held i) i (if i.val = 4 then w &&& 0xFFFF0000#32 else w) }) rfl
    refine ⟨t, hexec, hmet, ?_, hothers, ?_, ht.reg rfl⟩
    · obtain ⟨r, e | e⟩ := ht.records
      · rw [e]
      · rw [e]
        rfl
    · rcases hown with e | e <;> rw [e]
  · -- LIM_ENTRY_WORD_HOLD
    intro s e i w
    obtain ⟨t, hexec, hmet, ht⟩ := exec_write (c := .limEntryWordHold e i w) (s := s) rfl
    refine ⟨t, hexec, hmet, ?_, fun hans hheld => ?_, fun hans => ?_, fun hans hheld a ⟨hwake, hstatus⟩ => ?_,
      fun a ⟨hwake, hhst, hlast, hstatus, h4, h6⟩ => ?_⟩
    · obtain ⟨r, he | he⟩ := ht.records <;> rw [he]
      exact congrArg (fun k : Hub => { k with regs := r }) (s.hub.limHold_records e i w)
    · obtain ⟨⟨r, he⟩, -⟩ := ht.acted hans
      rw [he]
      exact Hub.limHold_takes hheld e i w
    · obtain ⟨⟨r, he⟩, -⟩ := ht.silent hans
      rw [he]
    · exact ((ht.acted hans).2 a hwake).trans (Hub.limHold_reg hstatus (.inl hheld) e i w)
    · cases hans : s.hub.answers s.fixed s.met .lim (0x140000 + 16 * e.val + 4 * i.val) with
      | false => exact (ht.silent hans).2 a ⟨hwake, hhst, hlast⟩
      | true => exact ((ht.acted hans).2 a hwake).trans (Hub.limHold_reg hstatus (.inr ⟨h4, h6⟩) e i w)

end Sys2Proof.Machine
end

section
/-! SUPPORT. What an output of a context leaves as it was on its way to the queue, and the fields of the fabric's registers (R149,
R150, R171). -/

namespace Sys2Proof.Machine
open Sys2Proof

@[simp] theorem Hub.refusedBy_ctx (h : Hub) (gs : List Nat) : (h.refusedBy gs).ctx = h.ctx := by
  rw [Hub.refusedBy_records]

@[simp] theorem Hub.refusedBy_flt (h : Hub) (gs : List Nat) : (h.refusedBy gs).flt = h.flt := by
  rw [Hub.refusedBy_records]

/-- What an output changes of its context's record on its way to the queue is left out. -/
def Ctx.apartEgress (y : Ctx) : Ctx :=
  { y with gapOut := false, markDue := false, begun := false, digIn := default }

/-- What two context records share when they differ by outputs that left. -/
theorem Ctx.eq_of_apartEgress {α : Type} {x y : Ctx} (e : x.apartEgress = y.apartEgress) (g : Ctx → α)
    (hg : ∀ z, g z.apartEgress = g z := by intro z; rfl) : g x = g y := by
  rw [← hg x, e, hg]

/-- What a change of one entry keeps, every entry keeps. -/
theorem NMap.get_modify_keep {α β : Type} [Inhabited α] [DecidableEq α] (g : α → β) (m : NMap α) (k : Nat) {f : α → α}
    (j : Nat) (hf : ∀ x, g (f x) = g x) : g (NMap.get (NMap.modify m k f) j) = g (NMap.get m j) := by
  by_cases hj : j = k
  · subst hj
    rw [NMap.get_modify_same, hf]
  · rw [NMap.get_modify_ne m f hj]

theorem Hub.deliver_ctx (h : Hub) (c n : Nat) (x : Samp) (k : Nat) :
    (NMap.get (h.deliver c n x).ctx k).apartEgress = (NMap.get h.ctx k).apartEgress := by
  unfold Hub.deliver
  extract_lets y x periodic mk h1 h2
  split <;> dsimp only
  · have hkeep : h1.ctx = h.ctx := by simp [h1]
    rw [← hkeep]
    exact NMap.get_modify_keep Ctx.apartEgress _ c k fun _ => rfl
  · exact NMap.get_modify_keep Ctx.apartEgress _ c k fun _ => rfl

theorem Hub.releaseOut_ctx (h : Hub) (c n : Nat) (x : Samp) (k : Nat) :
    (NMap.get (h.releaseOut c n x).ctx k).apartEgress = (NMap.get h.ctx k).apartEgress := by
  unfold Hub.releaseOut
  split
  · split <;> dsimp only
    exact NMap.get_modify_keep Ctx.apartEgress _ c k fun _ => rfl
  · exact h.deliver_ctx c n x k

@[simp] theorem Hub.deliver_flt (h : Hub) (c n : Nat) (x : Samp) : (h.deliver c n x).flt = h.flt := by
  unfold Hub.deliver
  extract_lets y x periodic mk h1 h2
  split
  · simp [h1]
  · rfl

@[simp] theorem Hub.releaseOut_flt (h : Hub) (c n : Nat) (x : Samp) : (h.releaseOut c n x).flt = h.flt := by
  unfold Hub.releaseOut
  (repeat' split) <;> simp

/-- The fields in which a context shows that it lost an output. -/
abbrev Fld.offLost (c : Nat) (f : Fld) : Prop :=
  (fFabCStatusOutLost c).apart f ∧ (fFabCCountLostOut c).apart f ∧ f.addr < 0x180000

theorem Hub.deliver_rd {c : Nat} {f : Fld} (hf : f.offLost c) (h : Hub) (n : Nat) (x : Samp) :
    (h.deliver c n x).rd f = h.rd f := by
  obtain ⟨hflag, hcount, hlow⟩ := hf
  unfold Hub.deliver
  extract_lets y x periodic mk h1 h2
  split
  · calc h1.rd f = (((h.refusedBy heldFifo).on (fFabCStatusOutLost c)).countSat (fFabCCountLostOut c) 1).rd f :=
          Hub.present_rd _ _ (.inl hlow)
      _ = ((h.refusedBy heldFifo).on (fFabCStatusOutLost c)).rd f := Hub.rd_wr_apart _ _ hcount
      _ = (h.refusedBy heldFifo).rd f := Hub.rd_on_apart _ hflag
      _ = h.rd f := h.refusedBy_rd _ (by omega)
  · rfl

theorem Hub.releaseOut_rd {c : Nat} {f : Fld} (hf : f.offLost c) (h : Hub) (n : Nat) (x : Samp) :
    (h.releaseOut c n x).rd f = h.rd f := by
  unfold Hub.releaseOut
  split
  · split <;> rfl
  · exact h.deliver_rd hf n x

end Sys2Proof.Machine
end

section
/-! SUPPORT. The comparator and the digests of a context, and its enable bit (R150, R161 to R163, R171). -/

namespace Sys2Proof.Machine
open Sys2Proof

/-! ### The comparator -/

/-- The comparator took the oldest output of each copy. -/
def Hub.cmpTaken (h : Hub) (c : Nat) (rest resty : List Samp) : Hub :=
  { h with ctx := NMap.set h.ctx c { NMap.get h.ctx c with cmp := rest, cmpS := resty, slipped := false } }

/-- The comparator flags and counts a mismatch at the primary's output `n`. -/
def Hub.mismatched (h : Hub) (c n : Nat) : Hub :=
  (((h.on (fFabCStatusShadowMis c)).countSat (fFabCShadowMism c) 1).wr (fFabCShadowIndex c) (n - 1)).present (0x3200 + c)

theorem Hub.cmpStep_agrees {h : Hub} {c : Nat} {x y : Samp} {rest resty : List Samp} {flip : Word}
    (hcmp : (NMap.get h.ctx c).cmp = x :: rest) (hcmpS : (NMap.get h.ctx c).cmpS = y :: resty)
    (hslip : (NMap.get h.ctx c).slipped = false) (heq : sampWord x = sampWord y ^^^ flip) (fx : Fixed) :
    Hub.cmpStep fx h c flip =
      (h.cmpTaken c rest resty).releaseOut c (h.rd (fFabCOutcountOutcount c) - rest.length) x := by
  unfold Hub.cmpStep
  simp only [hcmp, hcmpS, hslip, heq]
  simp [Samp.addIf, Hub.cmpTaken]

/-- The output that differed leaves, with ABORTED where the comparator acts. -/
def Hub.mismatchOut (h : Hub) (c : Nat) (x : Samp) (rest resty : List Samp) : Hub :=
  let n := h.rd (fFabCOutcountOutcount c) - rest.length
  ((h.cmpTaken c rest resty).mismatched c n).releaseOut c n (x.addIf (h.cf 5 (32 + c) 0 22 2 != 0) tAborted)

theorem Hub.cmpStep_differs {h : Hub} {c : Nat} {x y : Samp} {rest resty : List Samp} {flip : Word}
    (hcmp : (NMap.get h.ctx c).cmp = x :: rest) (hcmpS : (NMap.get h.ctx c).cmpS = y :: resty)
    (hne : sampWord x ≠ sampWord y ^^^ flip) (fx : Fixed) :
    Hub.cmpStep fx h c flip =
      if h.cf 5 (32 + c) 0 22 2 = 2 then (h.mismatchOut c x rest resty).faultRec fx 0x22 2 c 0xC2 0#32 0#32
      else (h.mismatchOut c x rest resty).fault 0x22 c 0xC2 0#32 0#32 := by
  have hbad : (sampWord x != sampWord y ^^^ flip) = true := bne_iff_ne.2 hne
  unfold Hub.cmpStep
  simp only [hcmp, hcmpS, hbad, Bool.or_true, List.isEmpty_cons, Bool.false_and, Bool.not_true, if_true, Bool.true_and]
  rfl

theorem Hub.cmpStep_waits {h : Hub} {c : Nat} (hw : (NMap.get h.ctx c).cmp = [] ∨
    (NMap.get h.ctx c).cmpS = [] ∧ (NMap.get h.ctx c).slipped = false) (fx : Fixed) (flip : Word) :
    Hub.cmpStep fx h c flip = h := by
  unfold Hub.cmpStep
  rcases hw with hcmp | ⟨hcmpS, hslip⟩
  · simp only [hcmp]
  · cases hcmp : (NMap.get h.ctx c).cmp with
    | nil => simp only [hcmp]
    | cons x rest => simp [hcmp, hcmpS, hslip]

theorem Hub.cmpTaken_ctx (h : Hub) (c : Nat) (rest resty : List Samp) : NMap.get (h.cmpTaken c rest resty).ctx c =
    { NMap.get h.ctx c with cmp := rest, cmpS := resty, slipped := false } := NMap.get_set_same ..

theorem Hub.mismatchOut_ctx (h : Hub) (c : Nat) (x : Samp) (rest resty : List Samp) :
    (NMap.get (h.mismatchOut c x rest resty).ctx c).cmp = rest ∧ (NMap.get (h.mismatchOut c x rest resty).ctx c).cmpS = resty := by
  have hout := Hub.releaseOut_ctx ((h.cmpTaken c rest resty).mismatched c (h.rd (fFabCOutcountOutcount c) - rest.length)) c
    (h.rd (fFabCOutcountOutcount c) - rest.length) (x.addIf (h.cf 5 (32 + c) 0 22 2 != 0) tAborted) c
  have htaken : NMap.get ((h.cmpTaken c rest resty).mismatched c (h.rd (fFabCOutcountOutcount c) - rest.length)).ctx c =
      { NMap.get h.ctx c with cmp := rest, cmpS := resty, slipped := false } := by
    simp [Hub.mismatched, Hub.cmpTaken_ctx]
  rw [htaken] at hout
  exact ⟨Ctx.eq_of_apartEgress hout Ctx.cmp, Ctx.eq_of_apartEgress hout Ctx.cmpS⟩

theorem Hub.mismatchOut_recs (h : Hub) (c : Nat) (x : Samp) (rest resty : List Samp) :
    (h.mismatchOut c x rest resty).flt.recs = h.flt.recs := by
  simp [Hub.mismatchOut, Hub.mismatched, Hub.cmpTaken]

theorem offLost_shadowMis (c : Fin 192) : (fFabCStatusShadowMis c).offLost c := by
  simp only [Fld.offLost, Fld.apart, fFabCStatusShadowMis, fFabCStatusOutLost, fFabCCountLostOut, rFabCStatus, rFabCCount]
  omega

theorem offLost_shadowMism (c : Fin 192) : (fFabCShadowMism c).offLost c := by
  simp only [Fld.offLost, Fld.apart, fFabCShadowMism, fFabCStatusOutLost, fFabCCountLostOut, rFabCStatus, rFabCCount, rFabCShadow]
  omega

theorem Hub.mismatchOut_shows (h : Hub) (c : Fin 192) (x : Samp) (rest resty : List Samp) :
    (h.mismatchOut c x rest resty).is (fFabCStatusShadowMis c) = true ∧
      (h.mismatchOut c x rest resty).rd (fFabCShadowMism c) = satTo 16 (h.rd (fFabCShadowMism c) + 1) := by
  have hlow : (fFabCStatusShadowMis c).addr < 0x180000 ∧ (fFabCShadowMism c).addr < 0x180000 :=
    ⟨(offLost_shadowMis c).2.2, (offLost_shadowMism c).2.2⟩
  have happ : (fFabCShadowMism c).apart (fFabCStatusShadowMis c) ∧ (fFabCShadowIndex c).apart (fFabCStatusShadowMis c) ∧
      (fFabCStatusShadowMis c).apart (fFabCShadowMism c) ∧ (fFabCShadowIndex c).apart (fFabCShadowMism c) := by
    simp only [Fld.apart, fFabCShadowMism, fFabCStatusShadowMis, fFabCShadowIndex, rFabCStatus, rFabCShadow]
    omega
  obtain ⟨hmf, hif, hfm, him⟩ := happ
  unfold Hub.mismatchOut
  extract_lets n
  rw [Hub.is_congr (Hub.releaseOut_rd (offLost_shadowMis c) _ _ _), Hub.releaseOut_rd (offLost_shadowMism c), Hub.mismatched,
    Hub.present_is _ _ (.inl hlow.1), Hub.present_rd _ _ (.inl hlow.2), Hub.is_wr_apart _ _ hif, Hub.rd_wr_apart _ _ him,
    Hub.countSat, Hub.is_wr_apart _ _ hmf, Hub.rd_wr_same _ _ (by simp [fFabCShadowMism]), Hub.rd_on_apart _ hfm]
  refine ⟨Hub.is_on_same _ (by simp [fFabCStatusShadowMis]) (by simp [fFabCStatusShadowMis]), ?_⟩
  exact Nat.mod_eq_of_lt (Nat.lt_of_le_of_lt (satTo_le 16 _) (by decide : 2 ^ 16 - 1 < 2 ^ 16))

/-! ### A recovery that a fault starts -/

/-- A recovery that starts is among those that run. -/
theorem Hub.startRec_runs (fx : Fixed) (h : Hub) (r : Rec) :
    ∃ q ∈ (h.startRec fx r).flt.recs, q.scope = r.scope ∧ q.unit = r.unit := by
  unfold Hub.startRec
  extract_lets inner r1 flt0 h1 h2 flt2 h3 h4
  refine ⟨r1, ?_, rfl, rfl⟩
  have hflt : h4.showRecs.flt = h3.flt := by
    rw [Hub.showRecs_flt]
    simp only [h4]
    split <;> rfl
  rw [hflt]
  exact List.mem_append_right _ (List.mem_singleton_self r1)

/-- Where no recovery runs, a fault that calls for a CONTEXT recovery starts it: no other recovery depends on a context. -/
theorem Hub.faultRec_context {h : Hub} (hr : h.flt.recs = []) (fx : Fixed) (code c src : Nat) (d7 d8 : Word) :
    (h.faultRec fx code 2 c src d7 d8).recovering 2 c = true := by
  have hcall : (h.reportFault code 2 c src d7 d8).callRec fx 2 c = (h.reportFault code 2 c src d7 d8).startRec fx
      { (default : Rec) with scope := 2, unit := c, start := (h.reportFault code 2 c src d7 d8).cyc, faults := 1 } := by
    unfold Hub.callRec
    simp [hr]
  have hnone : ∀ g : Hub, ∀ r ∈ g.flt.recs, g.dependsOn r 2 c = false := fun g r _ => by simp [Hub.dependsOn]
  have hfault : h.faultRec fx code 2 c src d7 d8 = (h.reportFault code 2 c src d7 d8).callRec fx 2 c := by
    unfold Hub.faultRec
    dsimp only
    rw [if_neg (by simp), Hub.escalateAll_none (hnone _)]
  obtain ⟨q, hmem, hscope, hunit⟩ := Hub.startRec_runs fx (h.reportFault code 2 c src d7 d8)
    { (default : Rec) with scope := 2, unit := c, start := (h.reportFault code 2 c src d7 d8).cyc, faults := 1 }
  rw [hfault, hcall]
  exact List.any_eq_true.2 ⟨q, hmem, by simp [Hub.recCovers, hscope, hunit]⟩

/-! ### The digests -/

/-- A digest point's register, and its field of the block numbers. -/
def digReg (head : Bool) (c : Nat) : Nat := if head then rFabCDigHead c else rFabCDigIn c
def digSeqFld (head : Bool) (c : Nat) : Fld := if head then fFabCDigSeqHead c else fFabCDigSeqIn c

/-- A digest point of a context. -/
def Ctx.digest (y : Ctx) (head : Bool) : Digest := if head then y.digHead else y.digIn

/-- A context's record once a finished block has left a digest point; `cmp` where both points' blocks are compared. -/
def Ctx.blockLatched (y : Ctx) (head cmp : Bool) (v : BitVec 32) (bad : Bool) (rest : List (BitVec 32 × Bool)) : Ctx :=
  let d := y.digest head
  let d1 := { d with done := rest, num := (d.num + 1) % 65536 }
  if head then { y with digHead := d1, blkHead := if cmp then y.blkHead ++ [(d.num % 65536, v)] else y.blkHead }
  else { y with
    digIn := d1, blkIn := if cmp then y.blkIn ++ [(d.num % 65536, v)] else y.blkIn
    spoiltBlk := if cmp && bad then y.spoiltBlk ++ [d.num % 65536] else y.spoiltBlk }

/-- A finished block is latched with its number. -/
def Hub.blockLatched (h : Hub) (c : Nat) (head cmp : Bool) (v : BitVec 32) (bad : Bool) (rest : List (BitVec 32 × Bool)) : Hub :=
  let y := NMap.get h.ctx c
  ({ h with ctx := NMap.set h.ctx c (y.blockLatched head cmp v bad rest) }.wr (digSeqFld head c)
    ((y.digest head).num % 65536)).setReg (digReg head c) v

theorem Hub.digBlockEnd_latches {h : Hub} {c : Nat} {head : Bool} {v : BitVec 32} {bad : Bool} {rest : List (BitVec 32 × Bool)}
    (hdone : ((NMap.get h.ctx c).digest head).done = (v, bad) :: rest) :
    h.digBlockEnd c head =
      if (h.passThrough c && !(NMap.get h.ctx c).digStop) = true then (h.blockLatched c head true v bad rest).digCompare c
      else h.blockLatched c head false v bad rest := by
  unfold Hub.digBlockEnd
  cases head with
  | false =>
    have hin : (NMap.get h.ctx c).digIn.done = (v, bad) :: rest := hdone
    cases hcmp : h.passThrough c && !(NMap.get h.ctx c).digStop <;>
      simp [hin, hcmp, Hub.blockLatched, Ctx.blockLatched, Ctx.digest, digSeqFld, digReg, fFabCDigInDigIn]
  | true =>
    have hhead : (NMap.get h.ctx c).digHead.done = (v, bad) :: rest := hdone
    cases hcmp : h.passThrough c && !(NMap.get h.ctx c).digStop <;>
      simp [hhead, hcmp, Hub.blockLatched, Ctx.blockLatched, Ctx.digest, digSeqFld, digReg, fFabCDigHeadDigHead]

/-- What the comparison of blocks changes of a context's record is left out. -/
def Ctx.apartBlocks (y : Ctx) : Ctx := { y with blkIn := [], blkHead := [], spoiltBlk := [] }

theorem Hub.digCompare_ctx (h : Hub) (c : Nat) :
    (NMap.get (h.digCompare c).ctx c).apartBlocks = (NMap.get h.ctx c).apartBlocks := by
  unfold Hub.digCompare
  dsimp only
  (repeat' split) <;> simp [Ctx.apartBlocks]

theorem Hub.digCompare_reg (h : Hub) (c : Nat) {a : Nat} (hs : a ≠ rFabCStatus c) (ha : a < 0x180000) :
    (h.digCompare c).reg a = h.reg a := by
  unfold Hub.digCompare
  dsimp only
  split
  · rfl
  split
  · rfl
  split
  · exact Hub.reg_on_ne _ _ hs
  split
  · rfl
  · rw [Hub.fault_reg _ _ _ _ _ _ (.inl (by omega)), Hub.present_reg _ _ (.inl ha)]
    exact Hub.reg_on_ne _ _ hs

/-- Blocks of one number leave the comparison; ones that differ are flagged. -/
theorem Hub.digCompare_pair {h : Hub} {c : Fin 192} {n : Nat} {v w : BitVec 32} (hin : (NMap.get h.ctx c).blkIn = [(n, v)])
    (hhead : (NMap.get h.ctx c).blkHead = [(n, w)]) (hspoilt : (NMap.get h.ctx c).spoiltBlk = []) :
    (h.digCompare c).is (fFabCStatusDigMis c) = (decide (v ≠ w) || h.is (fFabCStatusDigMis c)) ∧
      (NMap.get (h.digCompare c).ctx c).blkIn = [] ∧ (NMap.get (h.digCompare c).ctx c).blkHead = [] := by
  have hcmp : h.digCompare c =
      let h1 := { h with ctx := NMap.set h.ctx c { NMap.get h.ctx c with blkIn := [], blkHead := [] } }
      if v = w then h1 else ((h1.on (fFabCStatusDigMis c)).present (0x3300 + c)).fault 0x23 c 0xC2 (w32 c) (w32 n) := by
    unfold Hub.digCompare
    simp [hin, hhead, hspoilt]
  have hlow : (fFabCStatusDigMis c).addr < 0x180000 := by simp only [fFabCStatusDigMis, rFabCStatus]; omega
  rw [hcmp]
  dsimp only
  by_cases hvw : v = w
  · rw [if_pos hvw, NMap.get_set_same, decide_eq_false (fun hne => hne hvw), Bool.false_or]
    exact ⟨rfl, rfl, rfl⟩
  · rw [if_neg hvw, Hub.fault_ctx, Hub.present_ctx, Hub.on_ctx, NMap.get_set_same, decide_eq_true hvw, Bool.true_or]
    refine ⟨?_, rfl, rfl⟩
    rw [Hub.fault_is _ _ _ _ _ _ (.inl (Nat.lt_trans hlow (by decide))), Hub.present_is _ _ (.inl hlow)]
    exact Hub.is_on_same _ (by simp [fFabCStatusDigMis]) (by simp [fFabCStatusDigMis])

theorem Hub.blockLatched_ctx (h : Hub) (c : Nat) (head cmp : Bool) (v : BitVec 32) (bad : Bool) (rest : List (BitVec 32 × Bool)) :
    NMap.get (h.blockLatched c head cmp v bad rest).ctx c = (NMap.get h.ctx c).blockLatched head cmp v bad rest :=
  NMap.get_set_same ..

theorem Hub.blockLatched_reg (h : Hub) (c : Nat) (head cmp : Bool) (v : BitVec 32) (bad : Bool) (rest : List (BitVec 32 × Bool))
    {a : Nat} (hd : a ≠ digReg head c) (hs : a ≠ rFabCDigSeq c) : (h.blockLatched c head cmp v bad rest).reg a = h.reg a := by
  have hseq : (digSeqFld head c).addr = rFabCDigSeq c := by cases head <;> rfl
  unfold Hub.blockLatched
  dsimp only
  rw [Hub.reg_setReg_ne _ _ hd, Hub.reg_wr_ne _ _ _ (by rw [hseq]; exact hs)]
  rfl

/-- The digest and its number show in the registers. -/
theorem Hub.blockLatched_shows (h : Hub) (c : Nat) (head cmp : Bool) (v : BitVec 32) (bad : Bool) (rest : List (BitVec 32 × Bool)) :
    (h.blockLatched c head cmp v bad rest).reg (digReg head c) = v ∧
      (h.blockLatched c head cmp v bad rest).rd (digSeqFld head c) = ((NMap.get h.ctx c).digest head).num % 65536 := by
  unfold Hub.blockLatched
  dsimp only
  refine ⟨Hub.reg_setReg_same .., ?_⟩
  have hreg : (digSeqFld head c).addr ≠ digReg head c := by
    cases head <;> simp only [digSeqFld, digReg, fFabCDigSeqHead, fFabCDigSeqIn] <;> simp
  rw [Hub.rd_congr (Hub.reg_setReg_ne _ _ hreg), Hub.rd_wr_same _ _ (by cases head <;> simp [digSeqFld, fFabCDigSeqHead, fFabCDigSeqIn])]
  cases head <;> exact Nat.mod_mod _ _

/-- A digest point latches its finished block with its number, whatever becomes of the comparison. -/
theorem Hub.digBlockEnd_shows {h : Hub} {c : Fin 192} {head : Bool} {v : BitVec 32} {bad : Bool} {rest : List (BitVec 32 × Bool)}
    (hdone : ((NMap.get h.ctx c).digest head).done = (v, bad) :: rest) :
    (h.digBlockEnd c head).reg (digReg head c) = v ∧
      (h.digBlockEnd c head).rd (digSeqFld head c) = ((NMap.get h.ctx c).digest head).num % 65536 ∧
      (∃ cmp, (NMap.get (h.digBlockEnd c head).ctx c).apartBlocks =
        ((NMap.get h.ctx c).blockLatched head cmp v bad rest).apartBlocks) ∧
      (h.passThrough c = false → ∀ a, a ≠ digReg head c → a ≠ rFabCDigSeq c → (h.digBlockEnd c head).reg a = h.reg a) := by
  have hdig : digReg head c ≠ rFabCStatus c ∧ digReg head c < 0x180000 := by
    cases head <;> simp only [digReg, Bool.false_eq_true, if_true, if_false, rFabCDigHead, rFabCDigIn, rFabCStatus] <;> omega
  have hseq : (digSeqFld head c).addr ≠ rFabCStatus c ∧ (digSeqFld head c).addr < 0x180000 := by
    cases head <;>
      simp only [digSeqFld, Bool.false_eq_true, if_true, if_false, fFabCDigSeqHead, fFabCDigSeqIn, rFabCDigSeq, rFabCStatus] <;> omega
  rw [Hub.digBlockEnd_latches hdone]
  split
  next hcmp =>
    obtain ⟨hreg, hnum⟩ := h.blockLatched_shows c head true v bad rest
    refine ⟨?_, ?_, ⟨true, ?_⟩, fun hpass => ?_⟩
    · rw [Hub.digCompare_reg _ _ hdig.1 hdig.2, hreg]
    · rw [Hub.rd_congr (Hub.digCompare_reg _ _ hseq.1 hseq.2), hnum]
    · rw [Hub.digCompare_ctx, Hub.blockLatched_ctx]
    · simp [hpass] at hcmp
  next hcmp =>
    obtain ⟨hreg, hnum⟩ := h.blockLatched_shows c head false v bad rest
    exact ⟨hreg, hnum, ⟨false, by rw [Hub.blockLatched_ctx]⟩, fun _ a => h.blockLatched_reg c head false v bad rest⟩

end Sys2Proof.Machine
end

section
/-! SUPPORT. What a swap of coefficient banks may change: its tiles' banks, and of stages only whether they have switched (R187, R188,
R190, R191). -/

namespace Sys2Proof.Machine
open Sys2Proof

/-- The fields in which a tile shows the swap that runs and the one that waits (R193). -/
def shownFlds (u : Nat) : List Fld :=
  [fFabTStatusFading u, fFabTStatusSwapPend u, fFabTFadeLeft u, fFabTFadeWaitBank u, fFabTFadeWaitLen u]

/-- Those, its bank and the count of stages that switched for idleness (R190). -/
def swapFlds (u : Nat) : List Fld := fFabTStatusBankAct u :: fFabTFadeIdle u :: shownFlds u

/-- A field of a register that shows no swap of any tile. -/
abbrev Fld.offSwap (f : Fld) : Prop := ∀ u < 32, ∀ g ∈ swapFlds u, g.apart f

/-- A stage without what a swap changes of it. -/
def Stage.apartSwap (s : Stage) : Stage := { s with switched := false, swOuts := 0 }

/-- What two stage records share when they differ by swaps. -/
theorem Stage.eq_of_apartSwap {α : Type} {x y : Stage} (e : x.apartSwap = y.apartSwap) (g : Stage → α)
    (hg : ∀ z, g z.apartSwap = g z := by intro z; rfl) : g x = g y := by
  rw [← hg x, e, hg]

/-- Two hubs differ by swaps of coefficient banks only, as far as contexts and stages go. -/
structure Hub.SwapFrame (h g : Hub) : Prop where
  cells : g.cells = h.cells
  ctx : g.ctx = h.ctx
  stage : ∀ k, (NMap.get g.stg k).apartSwap = (NMap.get h.stg k).apartSwap
  rd : ∀ f, f.offSwap → g.rd f = h.rd f

theorem Hub.SwapFrame.refl (h : Hub) : h.SwapFrame h := ⟨rfl, rfl, fun _ => rfl, fun _ _ => rfl⟩

theorem Hub.SwapFrame.trans {h g k : Hub} (hg : h.SwapFrame g) (gk : g.SwapFrame k) : h.SwapFrame k where
  cells := gk.cells.trans hg.cells
  ctx := gk.ctx.trans hg.ctx
  stage n := (gk.stage n).trans (hg.stage n)
  rd f hf := (gk.rd f hf).trans (hg.rd f hf)

theorem Hub.SwapFrame.wr {h g : Hub} (hg : h.SwapFrame g) {f : Fld} {u : Nat} (hu : u < 32) (hf : f ∈ swapFlds u) (n : Nat) :
    h.SwapFrame (g.wr f n) :=
  hg.trans ⟨rfl, rfl, fun _ => rfl, fun _ hk => g.rd_wr_apart n (hk u hu f hf)⟩

theorem Hub.SwapFrame.tile {h g : Hub} (hg : h.SwapFrame g) (m : NMap Tile) : h.SwapFrame { g with tile := m } :=
  hg.trans ⟨rfl, rfl, fun _ => rfl, fun _ _ => rfl⟩

theorem Hub.SwapFrame.stg {h g : Hub} (hg : h.SwapFrame g) (k : Nat) {f : Stage → Stage}
    (hf : ∀ s, (f s).apartSwap = s.apartSwap) : h.SwapFrame { g with stg := NMap.modify g.stg k f } :=
  hg.trans ⟨rfl, rfl, fun j => NMap.get_modify_keep Stage.apartSwap g.stg k j hf, fun _ _ => rfl⟩

theorem Hub.SwapFrame.foldl {α : Type} {f : Hub → α → Hub} {l : List α} (hf : ∀ a : Hub, ∀ x ∈ l, a.SwapFrame (f a x))
    (h : Hub) : h.SwapFrame (l.foldl f h) := by
  induction l generalizing h with
  | nil => exact Hub.SwapFrame.refl h
  | cons x t ih =>
    exact (hf h x List.mem_cons_self).trans (ih (fun a y hy => hf a y (List.mem_cons_of_mem _ hy)) _)

theorem Hub.stTile_lt (h : Hub) (x i : Nat) : h.stTile x i < 32 := fieldOf_lt _ _ 5

/-- A bank domain is made of tiles. -/
theorem Hub.domain_lt {h : Hub} {t u : Nat} (ht : t < 32) (hu : u ∈ h.domain t) : u < 32 := by
  unfold Hub.domain Hub.partnerOf at hu
  rcases List.mem_cons.1 hu with rfl | hu
  · exact ht
  · split at hu
    · rw [Option.toList_some, List.mem_singleton] at hu
      rw [hu]
      exact fieldOf_lt _ _ 5
    · simp at hu

theorem Hub.showSwap_frame (h : Hub) {u : Nat} (hu : u < 32) : h.SwapFrame (h.showSwap u) := by
  unfold Hub.showSwap
  have hshown : ∀ f ∈ shownFlds u, f ∈ swapFlds u := fun f hf => List.mem_cons_of_mem _ (List.mem_cons_of_mem _ hf)
  exact (((((Hub.SwapFrame.refl h).wr hu (hshown _ (by simp [shownFlds])) _).wr hu (hshown _ (by simp [shownFlds])) _).wr hu
    (hshown _ (by simp [shownFlds])) _).wr hu (hshown _ (by simp [shownFlds])) _).wr hu (hshown _ (by simp [shownFlds])) _

/-- A stage begins a swap: it has yet to switch, or has for idleness where its context is off (R190). -/
def Hub.switchStage (h : Hub) (k : Nat) : Hub :=
  let off := !h.is (fFabCCtlEnable (ctxOf (k / 8)))
  let h1 := { h with stg := NMap.modify h.stg k (fun s => { s with switched := off, swOuts := 0 }) }
  if off then h1.countSat (fFabTFadeIdle (h.stTile (k / 8) (k % 8))) 1 else h1

/-- A tile takes a swap. -/
def Hub.tileTakes (h : Hub) (b len u : Nat) : Hub :=
  { h with tile := NMap.modify h.tile u (fun x => { x with swap := some (b, len), wait := none }) }

/-- The tiles of a domain take a swap. -/
def Hub.swapTaken (h : Hub) (t b len : Nat) : Hub := (h.domain t).foldl (fun a u => a.tileTakes b len u) h

theorem Hub.beginSwap_eq (h : Hub) (t b len : Nat) : h.beginSwap t b len =
    (h.domain t).foldl Hub.showSwap ((h.bankStages t).foldl Hub.switchStage (h.swapTaken t b len)) := rfl

theorem Hub.switchStage_frame (h : Hub) (k : Nat) : h.SwapFrame (h.switchStage k) := by
  have hstage := (Hub.SwapFrame.refl h).stg k
    (f := fun s => { s with switched := !h.is (fFabCCtlEnable (ctxOf (k / 8))), swOuts := 0 }) fun _ => rfl
  unfold Hub.switchStage
  dsimp only
  split
  · exact hstage.wr (h.stTile_lt (k / 8) (k % 8)) (by simp [swapFlds, shownFlds]) _
  · exact hstage

theorem Hub.swapTaken_frame (h : Hub) (t b len : Nat) : h.SwapFrame (h.swapTaken t b len) :=
  Hub.SwapFrame.foldl (fun a _ _ => (Hub.SwapFrame.refl a).tile _) h

theorem Hub.beginSwap_frame (h : Hub) {t : Nat} (ht : t < 32) (b len : Nat) : h.SwapFrame (h.beginSwap t b len) := by
  rw [Hub.beginSwap_eq]
  exact ((h.swapTaken_frame t b len).trans (Hub.SwapFrame.foldl (fun a k _ => a.switchStage_frame k) _)).trans
    (Hub.SwapFrame.foldl (fun a u hu => a.showSwap_frame (Hub.domain_lt ht hu)) _)

/-- The swap of a tile has ended in bank `b`; `w` is what still waits. -/
def Hub.tileEnded (h : Hub) (b : Nat) (w : Option (Nat × Nat)) (u : Nat) : Hub :=
  ({ h with tile := NMap.modify h.tile u (fun x => { x with swap := none, wait := w }) }.wr (fFabTStatusBankAct u) b).showSwap u

/-- The swap of a domain has ended. -/
def Hub.swapEnded (h : Hub) (t b : Nat) (w : Option (Nat × Nat)) : Hub := (h.domain t).foldl (fun a u => a.tileEnded b w u) h

theorem Hub.swapEnded_frame (h : Hub) {t : Nat} (ht : t < 32) (b : Nat) (w : Option (Nat × Nat)) :
    h.SwapFrame (h.swapEnded t b w) :=
  Hub.SwapFrame.foldl (fun a u hu =>
    have hu := Hub.domain_lt ht hu
    (((Hub.SwapFrame.refl a).tile _).wr (f := fFabTStatusBankAct u) hu (by simp [swapFlds]) _).trans (Hub.showSwap_frame _ hu)) h

theorem Hub.endSwap_idle {h : Hub} {t : Nat} (hs : (NMap.get h.tile t).swap = none) (fuel : Nat) : Hub.endSwap fuel h t = h := by
  cases fuel with
  | zero => rfl
  | succ fuel => simp only [Hub.endSwap, hs]

theorem Hub.endSwap_waits {h : Hub} {t b len : Nat} (hs : (NMap.get h.tile t).swap = some (b, len))
    (hu : h.unswitched (h.bankStages t) ≠ 0) (fuel : Nat) :
    Hub.endSwap (fuel + 1) h t = (h.domain t).foldl (fun a u => a.showSwap u) h := by
  simp only [Hub.endSwap, hs, if_neg hu]

theorem Hub.endSwap_last {h : Hub} {t b len : Nat} (hs : (NMap.get h.tile t).swap = some (b, len))
    (hw : (NMap.get h.tile t).wait = none) (hu : h.unswitched (h.bankStages t) = 0) (fuel : Nat) :
    Hub.endSwap (fuel + 1) h t = h.swapEnded t b none := by
  simp only [Hub.endSwap, hs, hw, if_pos hu, ite_self]
  rfl

theorem Hub.endSwap_next {h : Hub} {t b len wb wl : Nat} (hs : (NMap.get h.tile t).swap = some (b, len))
    (hw : (NMap.get h.tile t).wait = some (wb, wl)) (hu : h.unswitched (h.bankStages t) = 0) (fuel : Nat) :
    Hub.endSwap (fuel + 1) h t =
      let h1 := h.swapEnded t b (if h.coefPending t then some (wb, wl) else none)
      if wb = b ∨ h.coefPending t = true then h1 else Hub.endSwap fuel (h1.beginSwap t wb wl) t := by
  simp only [Hub.endSwap, hs, hw, if_pos hu]
  rfl

theorem Hub.endSwap_frame (fuel : Nat) (h : Hub) {t : Nat} (ht : t < 32) : h.SwapFrame (Hub.endSwap fuel h t) := by
  induction fuel generalizing h with
  | zero => exact Hub.SwapFrame.refl h
  | succ fuel ih =>
    obtain hs | ⟨⟨b, len⟩, hs⟩ := Option.eq_none_or_eq_some (NMap.get h.tile t).swap
    · rw [Hub.endSwap_idle hs]
      exact Hub.SwapFrame.refl h
    by_cases hu : h.unswitched (h.bankStages t) = 0
    · obtain hw | ⟨⟨wb, wl⟩, hw⟩ := Option.eq_none_or_eq_some (NMap.get h.tile t).wait
      · rw [Hub.endSwap_last hs hw hu]
        exact h.swapEnded_frame ht b none
      · rw [Hub.endSwap_next hs hw hu]
        dsimp only
        split
        · exact h.swapEnded_frame ht b _
        · exact ((h.swapEnded_frame ht b _).trans (Hub.beginSwap_frame _ ht wb wl)).trans (ih _)
    · rw [Hub.endSwap_waits hs hu]
      exact Hub.SwapFrame.foldl (fun a u hu => a.showSwap_frame (Hub.domain_lt ht hu)) h

theorem Hub.idleSwitch_frame (h : Hub) (k : Nat) : h.SwapFrame (h.idleSwitch k) := by
  have ht := h.stTile_lt (k / 8) (k % 8)
  unfold Hub.idleSwitch
  dsimp only
  split
  · exact (((Hub.SwapFrame.refl h).stg (8 * (k / 8) + k % 8) (f := fun s => { s with switched := true }) fun _ => rfl).wr ht
      (by simp [swapFlds, shownFlds]) _).trans (Hub.endSwap_frame 2 _ ht)
  · exact Hub.SwapFrame.refl h

/-- Without a swap on its tile nothing counts as switched. -/
theorem Hub.idleSwitch_rests {h : Hub} (hs : ∀ u < 32, (NMap.get h.tile u).swap = none) (k : Nat) : h.idleSwitch k = h := by
  unfold Hub.idleSwitch
  simp [hs _ (h.stTile_lt (k / 8) (k % 8))]

theorem Hub.idleSwitchCtx_frame (h : Hub) (c : Nat) : h.SwapFrame (h.idleSwitchCtx c) :=
  Hub.SwapFrame.foldl (fun a x _ => Hub.SwapFrame.foldl (fun b i _ => b.idleSwitch_frame (8 * x + i)) a) h

/-- A fold whose rounds change nothing changes nothing. -/
theorem foldl_rests {α : Type} {f : Hub → α → Hub} {h : Hub} {l : List α} (hf : ∀ x ∈ l, f h x = h) : l.foldl f h = h := by
  induction l with
  | nil => rfl
  | cons x t ih => rw [List.foldl_cons, hf x List.mem_cons_self, ih fun y hy => hf y (List.mem_cons_of_mem _ hy)]

theorem Hub.idleSwitchCtx_rests {h : Hub} (hs : ∀ u < 32, (NMap.get h.tile u).swap = none) (c : Nat) : h.idleSwitchCtx c = h := by
  unfold Hub.idleSwitchCtx
  exact foldl_rests fun x _ => foldl_rests fun i _ => Hub.idleSwitch_rests hs (8 * x + i)

theorem swapFlds_place {u : Nat} {g : Fld} (hg : g ∈ swapFlds u) :
    g.lo + g.len ≤ 32 ∧ (g.addr = rFabTStatus u ∨ g.addr = rFabTFade u) := by
  simp only [swapFlds, shownFlds, List.mem_cons, List.not_mem_nil, or_false] at hg
  rcases hg with rfl | rfl | rfl | rfl | rfl | rfl | rfl <;>
    simp [fFabTStatusBankAct, fFabTStatusFading, fFabTStatusSwapPend, fFabTFadeLeft, fFabTFadeWaitBank, fFabTFadeWaitLen,
      fFabTFadeIdle]

/-- The registers of contexts show no swap. -/
theorem offSwap_of_ctx {f : Fld} (ha : 0xA0000 ≤ f.addr) (hf : f.lo + f.len ≤ 32) : f.offSwap := by
  intro u hu g hg
  obtain ⟨hword, hat⟩ := swapFlds_place hg
  simp only [rFabTStatus, rFabTFade] at hat
  exact ⟨hword, hf, .inl (by omega)⟩

end Sys2Proof.Machine
end

section
/-! SUPPORT. The statement about the integrity of contexts (R150, R161 to R164, R171). -/

namespace Sys2Proof.Machine
open Sys2Proof

/-- All tiles of the hub have no swap. -/
theorem Hub.swapNone_of_all {h : Hub} (hs : (List.range 32).all (fun u => (NMap.get h.tile u).swap.isNone) = true) :
    ∀ u < 32, (NMap.get h.tile u).swap = none :=
  fun u hu => Option.isNone_iff_eq_none.1 (List.all_eq_true.1 hs u (List.mem_range.2 hu))

/-- Settles O16: the comparator, the digests and the enable bit, each case by what it does to the context's record and registers. -/
theorem contextIntegrity : Obligations.ContextIntegrity := by
  refine ⟨?_, ?_, ?_, ?_, ?_, ?_, ?_, ?_, ?_, ?_, ?_⟩
  · -- SHADOW_COMPARE, the copies agree
    intro s c x y rest resty ft fv hsh hrec hcmp hcmpS hslip heq
    refine ⟨_, rfl, ?_⟩
    dsimp only
    have hmis : (fFabCShadowMism c).addr ≠ 0x30 ∧ (fFabCStatusShadowMis c).addr ≠ 0x30 := by
      simp only [fFabCShadowMism, fFabCStatusShadowMis, rFabCShadow, rFabCStatus]
      omega
    rw [if_pos (by simp [hsh, hrec]), Hub.cmpStep_agrees hcmp hcmpS hslip heq, latchIrq_ctx, latchIrq_flt,
      latchIrq_rd _ _ _ _ hmis.1, latchIrq_rd _ _ _ _ hmis.2, Hub.releaseOut_rd (offLost_shadowMism c),
      Hub.releaseOut_rd (offLost_shadowMis c), Hub.releaseOut_flt]
    have hout := Hub.releaseOut_ctx (s.hub.cmpTaken c rest resty) c (s.hub.rd (fFabCOutcountOutcount c) - rest.length) x c
    rw [Hub.cmpTaken_ctx] at hout
    exact ⟨Ctx.eq_of_apartEgress hout Ctx.cmp, Ctx.eq_of_apartEgress hout Ctx.cmpS, rfl, rfl, rfl⟩
  · -- SHADOW_COMPARE, the copies differ and the action is no recovery
    intro s c x y rest resty ft fv hsh hrec hcmp hcmpS hne hact
    refine ⟨_, rfl, ?_⟩
    dsimp only
    have hmis : (fFabCStatusShadowMis c).addr ≠ 0x30 ∧ (fFabCShadowMism c).addr ≠ 0x30 ∧
        (fFabCStatusShadowMis c).addr < 0x1F8000 ∧ (fFabCShadowMism c).addr < 0x1F8000 := by
      simp only [fFabCShadowMism, fFabCStatusShadowMis, rFabCShadow, rFabCStatus]
      omega
    obtain ⟨hflag, hcount⟩ := s.hub.mismatchOut_shows c x rest resty
    obtain ⟨hrest, hrestS⟩ := s.hub.mismatchOut_ctx c x rest resty
    rw [if_pos (by simp [hsh, hrec]), Hub.cmpStep_differs hcmp hcmpS hne, if_neg hact, latchIrq_ctx, latchIrq_flt,
      latchIrq_is _ _ _ _ hmis.1, latchIrq_rd _ _ _ _ hmis.2.1, Hub.fault_ctx, Hub.fault_flt_recs,
      Hub.fault_is _ _ _ _ _ _ (.inl hmis.2.2.1), Hub.fault_rd _ _ _ _ _ _ (.inl hmis.2.2.2)]
    exact ⟨hrest, hrestS, hflag, hcount, s.hub.mismatchOut_recs c x rest resty⟩
  · -- SHADOW_COMPARE, the copies differ and the action is a CONTEXT recovery
    intro s c x y rest resty ft fv hsh hrecs hcmp hcmpS hne hact
    refine ⟨_, rfl, ?_⟩
    dsimp only
    have hfree : s.hub.recovering 2 c = false := by simp [Hub.recovering, hrecs]
    rw [if_pos (by simp [hsh, hfree]), Hub.cmpStep_differs hcmp hcmpS hne, if_pos hact]
    simpa [Hub.recovering, Hub.recCovers, Hub.isPartner] using
      Hub.faultRec_context ((s.hub.mismatchOut_recs c x rest resty).trans hrecs) s.fixed 0x22 c 0xC2 0#32 0#32
  · -- SHADOW_COMPARE with an output of one copy missing
    intro s c ft fv hmissing
    refine ⟨_, rfl, ?_⟩
    dsimp only
    rw [Hub.cmpStep_waits hmissing, ite_self]
    exact ⟨latchIrq_ctx .., fun a ha => latchIrq_reg _ _ _ _ ha⟩
  · -- DIGEST_BLOCK_END of the IN digest
    intro s c v b rest hdone
    refine ⟨_, rfl, ?_⟩
    dsimp only
    obtain ⟨hreg, hnum, ⟨cmp, hctx⟩, hkeep⟩ := Hub.digBlockEnd_shows (head := false) hdone
    rw [latchIrq_reg _ _ _ _ (by simp only [rFabCDigIn]; omega), latchIrq_rd _ _ _ _ (by simp only [fFabCDigSeqIn, rFabCDigSeq]; omega),
      latchIrq_ctx]
    refine ⟨hreg, hnum, ?_, ?_, ?_, fun hpass a ⟨hwake, hin, hseq⟩ => ?_⟩
    · exact congrArg (fun y : Ctx => y.digIn.done) hctx
    · exact congrArg (fun y : Ctx => y.digIn.num) hctx
    · have hother := congrArg Ctx.digHead hctx
      exact hother
    · rw [latchIrq_reg _ _ _ _ hwake, hkeep hpass a hin hseq]
  · -- DIGEST_BLOCK_END of the HEAD digest
    intro s c v b rest hdone
    refine ⟨_, rfl, ?_⟩
    dsimp only
    obtain ⟨hreg, hnum, ⟨cmp, hctx⟩, hkeep⟩ := Hub.digBlockEnd_shows (head := true) hdone
    rw [latchIrq_reg _ _ _ _ (by simp only [rFabCDigHead]; omega), latchIrq_rd _ _ _ _ (by simp only [fFabCDigSeqHead, rFabCDigSeq]; omega),
      latchIrq_ctx]
    refine ⟨hreg, hnum, ?_, ?_, fun hpass a ⟨hwake, hhead, hseq⟩ => ?_⟩
    · exact congrArg (fun y : Ctx => y.digHead.done) hctx
    · have hother := congrArg Ctx.digIn hctx
      exact hother
    · rw [latchIrq_reg _ _ _ _ hwake, hkeep hpass a hhead hseq]
  · -- DIGEST_BLOCK_END of a pass-through whose HEAD block of the same number waits
    intro s c v w n rest hpass hstop hdone hn hblkIn hspoilt hblkHead
    refine ⟨_, rfl, ?_⟩
    dsimp only
    have hat : (fFabCStatusDigMis c).addr ≠ 0x30 ∧ (fFabCStatusDigMis c).addr ≠ rFabCDigIn c ∧
        (fFabCStatusDigMis c).addr ≠ rFabCDigSeq c := by
      simp only [fFabCStatusDigMis, rFabCStatus, rFabCDigIn, rFabCDigSeq]
      omega
    have hlatched := s.hub.blockLatched_ctx c false true v false rest
    obtain ⟨hflag, hin, hhead⟩ := Hub.digCompare_pair (h := s.hub.blockLatched c false true v false rest) (c := c) (n := n) (v := v)
      (w := w) (by rw [hlatched]; simp [Ctx.blockLatched, Ctx.digest, hblkIn, hn]) (by rw [hlatched]; exact hblkHead)
      (by rw [hlatched]; exact hspoilt)
    rw [Hub.digBlockEnd_latches (head := false) hdone, if_pos (by simp [hpass, hstop]), latchIrq_ctx,
      latchIrq_is _ _ _ _ hat.1, hflag, Hub.is_congr (Hub.rd_congr (Hub.blockLatched_reg _ _ _ _ _ _ _ hat.2.1 hat.2.2))]
    exact ⟨rfl, hin, hhead⟩
  · -- DIG_RESTART
    intro s c hans
    refine ⟨_, rfl, ?_⟩
    dsimp only
    rw [Hub.atReg_answers _ hans, latchIrq_ctx]
    unfold Hub.digRestart
    dsimp only
    rw [NMap.get_modify_same]
    exact ⟨rfl, rfl, rfl, rfl, rfl, fun a ha => latchIrq_reg _ _ _ _ ha⟩
  · -- DIG_SEQ_READ
    intro s c hans
    refine ⟨_, rfl, ?_⟩
    dsimp only
    rw [Hub.readOf_answers _ hans, latchIrq_host, latchIrq_ctx]
    unfold Hub.digSeqRead Hub.toHost
    dsimp only
    rw [NMap.get_modify_same]
    exact ⟨rfl, rfl, fun a ha => latchIrq_reg _ _ _ _ ha⟩
  · -- CONTEXT_ENABLE_WRITE of 1
    intro s c hans
    refine ⟨_, rfl, ?_⟩
    dsimp only
    have hone : ((fFabCCtlEnable c).lo + (fFabCCtlEnable c).len ≤ 32 ∧ 0 < (fFabCCtlEnable c).len) := by simp [fFabCCtlEnable]
    have hwake : (fFabCCtlEnable c).addr ≠ 0x30 := by simp only [fFabCCtlEnable, rFabCCtl]; omega
    rw [Hub.atReg_answers _ hans, latchIrq_is _ _ _ _ hwake, latchIrq_ctx]
    unfold Hub.ctxEnable
    dsimp only
    rw [if_pos rfl]
    cases hon : s.hub.is (fFabCCtlEnable c) with
    | true =>
      refine ⟨Hub.is_on_same _ hone.1 hone.2, nofun, fun _ => rfl, fun a ⟨ha, hctl⟩ => ?_⟩
      rw [latchIrq_reg _ _ _ _ ha, if_pos rfl, Hub.reg_wr_ne _ _ _ hctl]
    | false =>
      rw [if_neg Bool.false_ne_true]
      dsimp only
      rw [NMap.get_modify_same]
      refine ⟨Hub.is_on_same _ hone.1 hone.2, fun _ => ⟨rfl, rfl⟩, nofun, fun a ⟨ha, hctl⟩ => ?_⟩
      rw [latchIrq_reg _ _ _ _ ha]
      exact Hub.reg_wr_ne _ _ _ hctl
  · -- CONTEXT_ENABLE_WRITE of 0
    intro s c hans
    refine ⟨_, rfl, ?_⟩
    dsimp only
    have hone : (fFabCCtlEnable c).lo + (fFabCCtlEnable c).len ≤ 32 := by simp [fFabCCtlEnable]
    have hat : 0xA0000 ≤ (fFabCCtlEnable c).addr := by simp only [fFabCCtlEnable, rFabCCtl]; omega
    have hframe := (s.hub.wr (fFabCCtlEnable c) 0).idleSwitchCtx_frame c
    rw [Hub.atReg_answers _ hans, latchIrq_is _ _ _ _ (by omega), latchIrq_ctx, latchIrq_stg]
    unfold Hub.ctxEnable
    dsimp only
    rw [if_neg Bool.false_ne_true, b2n_false]
    refine ⟨?_, hframe.ctx, fun hnone => ?_, fun hnone a ⟨ha, hctl⟩ => ?_⟩
    · rw [Hub.is_congr (hframe.rd _ (offSwap_of_ctx hat hone))]
      exact Hub.is_off_same _ hone
    · rw [Hub.idleSwitchCtx_rests (h := s.hub.wr (fFabCCtlEnable c) 0) (Hub.swapNone_of_all hnone)]
      rfl
    · rw [latchIrq_reg _ _ _ _ ha, Hub.idleSwitchCtx_rests (h := s.hub.wr (fFabCCtlEnable c) 0) (Hub.swapNone_of_all hnone),
        Hub.reg_wr_ne _ _ _ hctl]

end Sys2Proof.Machine
end

section
/-! SUPPORT. Coefficient bank swaps and the coefficient window of a tile: what each operation of a swap leaves in the tile it runs on
(R160, R187, R188, R190 to R193). -/

namespace Sys2Proof.Machine
open Sys2Proof

/-! ### Showing a swap -/

theorem Hub.showSwap_rd {u : Nat} {f : Fld} (hf : ∀ g ∈ shownFlds u, g.apart f) (h : Hub) : (h.showSwap u).rd f = h.rd f := by
  simp only [shownFlds, List.forall_mem_cons, List.not_mem_nil, false_implies, implies_true, and_true] at hf
  obtain ⟨hfading, hpend, hleft, hbank, hlen⟩ := hf
  unfold Hub.showSwap
  dsimp only
  rw [Hub.rd_wr_apart _ _ hlen, Hub.rd_wr_apart _ _ hbank, Hub.rd_wr_apart _ _ hleft, Hub.rd_wr_apart _ _ hpend,
    Hub.rd_wr_apart _ _ hfading]

/-- The bank, the count for idleness and the flag of a replaced request stand beside what any tile shows of its swap. -/
theorem offShown {t : Nat} {f : Fld} (hf : f ∈ [fFabTStatusBankAct t, fFabTFadeIdle t, fFabTStatusSwapRepl t]) (u : Nat) :
    ∀ g ∈ shownFlds u, g.apart f := by
  intro g hg
  simp only [shownFlds, List.mem_cons, List.not_mem_nil, or_false] at hf hg
  rcases hf with rfl | rfl | rfl <;> rcases hg with rfl | rfl | rfl | rfl | rfl <;>
    simp only [Fld.apart, fFabTStatusBankAct, fFabTFadeIdle, fFabTStatusSwapRepl, fFabTStatusFading, fFabTStatusSwapPend,
      fFabTFadeLeft, fFabTFadeWaitBank, fFabTFadeWaitLen, rFabTStatus, rFabTFade] <;> omega

/-- A tile shows whether a swap runs and whether one waits. -/
theorem Hub.showSwap_shows (h : Hub) (u : Nat) : (h.showSwap u).is (fFabTStatusFading u) = (NMap.get h.tile u).swap.isSome ∧
    (h.showSwap u).is (fFabTStatusSwapPend u) = (NMap.get h.tile u).wait.isSome := by
  have hfade : rFabTStatus u ≠ rFabTFade u := by simp
  have hpend : (fFabTStatusSwapPend u).apart (fFabTStatusFading u) := by
    simp [Fld.apart, fFabTStatusSwapPend, fFabTStatusFading]
  have hlast : ∀ (a : Hub) (f : Fld) (l b n : Nat), f.addr = rFabTStatus u →
      (((a.wr (fFabTFadeLeft u) l).wr (fFabTFadeWaitBank u) b).wr (fFabTFadeWaitLen u) n).rd f = a.rd f := by
    intro a f l b n hf
    rw [← hf] at hfade
    rw [Hub.rd_wr_addr (f := fFabTFadeWaitLen u) _ _ hfade, Hub.rd_wr_addr (f := fFabTFadeWaitBank u) _ _ hfade,
      Hub.rd_wr_addr (f := fFabTFadeLeft u) _ _ hfade]
  unfold Hub.showSwap Hub.is
  dsimp only
  constructor
  · rw [hlast _ _ _ _ _ rfl, Hub.rd_wr_apart _ _ hpend, Hub.rd_wr_same _ _ (by simp [fFabTStatusFading])]
    cases (NMap.get h.tile u).swap.isSome <;> rfl
  · rw [hlast _ _ _ _ _ rfl, Hub.rd_wr_same _ _ (by simp [fFabTStatusSwapPend])]
    cases (NMap.get h.tile u).wait.isSome <;> rfl

/-- What a tile shows stays while another shows its own. -/
theorem Hub.showSwap_other (h : Hub) {t u : Nat} (hu : t ≠ u) {f : Fld} (hf : f.addr = rFabTStatus t) :
    (h.showSwap u).rd f = h.rd f := by
  have hat : f.addr ≠ rFabTStatus u ∧ f.addr ≠ rFabTFade u := by
    rw [hf]
    simp only [rFabTStatus, rFabTFade]
    omega
  unfold Hub.showSwap
  dsimp only
  rw [Hub.rd_wr_addr _ _ hat.2, Hub.rd_wr_addr _ _ hat.2, Hub.rd_wr_addr _ _ hat.2, Hub.rd_wr_addr _ _ hat.1,
    Hub.rd_wr_addr _ _ hat.1]

/-! ### Folds over the tiles of a domain -/

/-- What a round leaves in the tile it begins with, and every later round keeps, a fold over the domain leaves. -/
theorem Hub.foldl_domain {P : Hub → Prop} {f : Hub → Nat → Hub} {h a : Hub} {t : Nat} (hfirst : P (f a t))
    (hkeep : ∀ b u, P b → P (f b u)) : P ((h.domain t).foldl f a) := by
  unfold Hub.domain
  rw [List.foldl_cons]
  exact List.foldlRecOn _ _ hfirst fun b hb u _ => hkeep b u hb

/-- The tiles of a domain show their swap. -/
theorem Hub.shown_domain (h a : Hub) (t : Nat) :
    ((h.domain t).foldl Hub.showSwap a).tile = a.tile ∧ ((h.domain t).foldl Hub.showSwap a).stg = a.stg ∧
      ((h.domain t).foldl Hub.showSwap a).is (fFabTStatusFading t) = (NMap.get a.tile t).swap.isSome ∧
      ((h.domain t).foldl Hub.showSwap a).is (fFabTStatusSwapPend t) = (NMap.get a.tile t).wait.isSome := by
  refine Hub.foldl_domain (P := fun b => b.tile = a.tile ∧ b.stg = a.stg ∧
    b.is (fFabTStatusFading t) = (NMap.get a.tile t).swap.isSome ∧ b.is (fFabTStatusSwapPend t) = (NMap.get a.tile t).wait.isSome)
    ⟨rfl, rfl, a.showSwap_shows t⟩ fun b u ⟨htile, hstg, hfading, hpend⟩ => ⟨htile, hstg, ?_⟩
  by_cases hu : t = u
  · subst hu
    rw [← htile]
    exact b.showSwap_shows t
  · exact ⟨(Hub.is_congr (b.showSwap_other hu rfl)).trans hfading, (Hub.is_congr (b.showSwap_other hu rfl)).trans hpend⟩

theorem Hub.shown_domain_rd {t : Nat} {f : Fld} (hf : f ∈ [fFabTStatusBankAct t, fFabTFadeIdle t, fFabTStatusSwapRepl t])
    (l : List Nat) (a : Hub) : (l.foldl Hub.showSwap a).rd f = a.rd f :=
  foldl_keep (fun b => b.rd f) _ (fun b u => b.showSwap_rd (offShown hf u)) l a

/-! ### The end of a swap -/

/-- A tile whose swap has ended: its bank is in force, none runs, and what waits still waits. -/
def Hub.Ended (h : Hub) (t b : Nat) (w : Option (Nat × Nat)) : Prop :=
  (NMap.get h.tile t).swap = none ∧ (NMap.get h.tile t).wait = w ∧ h.rd (fFabTStatusBankAct t) = b % 2 ∧
    h.is (fFabTStatusFading t) = false

theorem Hub.tileEnded_own (h : Hub) (b : Nat) (w : Option (Nat × Nat)) (u : Nat) : (h.tileEnded b w u).Ended u b w := by
  have htile := NMap.get_modify_same h.tile u (fun x => { x with swap := none, wait := w })
  refine ⟨congrArg Tile.swap htile, congrArg Tile.wait htile, ?_, ?_⟩
  · exact (Hub.showSwap_rd (offShown (t := u) (by simp) u) _).trans (Hub.rd_wr_same _ _ (by simp [fFabTStatusBankAct]))
  · refine (Hub.showSwap_shows _ u).1.trans ?_
    rw [Hub.wr_tile, NMap.get_modify_same]
    rfl

theorem Hub.tileEnded_other {h : Hub} {t u b : Nat} {w : Option (Nat × Nat)} (hu : t ≠ u) (ht : h.Ended t b w) (c : Nat)
    (v : Option (Nat × Nat)) : (h.tileEnded c v u).Ended t b w := by
  obtain ⟨hswap, hwait, hbank, hfading⟩ := ht
  have hat : rFabTStatus t ≠ rFabTStatus u := by
    simp only [rFabTStatus]
    omega
  have htile := NMap.get_modify_ne h.tile (f := fun x => { x with swap := none, wait := v }) hu
  have hrd : ∀ f : Fld, f.addr = rFabTStatus t → (h.tileEnded c v u).rd f = h.rd f := fun f hf =>
    (Hub.showSwap_other _ hu hf).trans (Hub.rd_wr_addr _ _ (hf ▸ hat))
  exact ⟨(congrArg Tile.swap htile).trans hswap, (congrArg Tile.wait htile).trans hwait, (hrd _ rfl).trans hbank,
    (Hub.is_congr (hrd _ rfl)).trans hfading⟩

theorem Hub.swapEnded_ended (h : Hub) (t b : Nat) (w : Option (Nat × Nat)) : (h.swapEnded t b w).Ended t b w := by
  refine Hub.foldl_domain (P := fun a => a.Ended t b w) (h.tileEnded_own b w t) fun a u ha => ?_
  by_cases hu : t = u
  · rw [← hu]
    exact a.tileEnded_own b w t
  · exact Hub.tileEnded_other hu ha b w

theorem Hub.swapEnded_stg (h : Hub) (t b : Nat) (w : Option (Nat × Nat)) : (h.swapEnded t b w).stg = h.stg :=
  foldl_keep Hub.stg (fun a u => a.tileEnded b w u) (fun _ _ => rfl) _ _

theorem Hub.swapEnded_idle (h : Hub) (t b : Nat) (w : Option (Nat × Nat)) (v : Nat) :
    (h.swapEnded t b w).rd (fFabTFadeIdle v) = h.rd (fFabTFadeIdle v) := by
  refine foldl_keep (fun a => a.rd (fFabTFadeIdle v)) (fun a u => a.tileEnded b w u) (fun a u => ?_) _ _
  refine (Hub.showSwap_rd (offShown (t := v) (by simp) u) _).trans (Hub.rd_wr_addr _ _ ?_)
  simp only [fFabTFadeIdle, fFabTStatusBankAct, rFabTFade, rFabTStatus]
  omega

/-! ### The start of a swap -/

theorem Hub.cf_congr {h g : Hub} (e : g.cells = h.cells) : g.cf = h.cf := by
  funext i j k lo len
  simp only [Hub.cf, Hub.cell, e]

theorem Hub.bankStages_congr {h g : Hub} (e : g.cells = h.cells) (t : Nat) : g.bankStages t = h.bankStages t := by
  have hdomain : g.domain t = h.domain t := by simp only [Hub.domain, Hub.partnerOf, Hub.cf_congr e]
  have hshadow : g.ctxShadow = h.ctxShadow := by
    funext c
    simp only [Hub.ctxShadow, Hub.ctxStages, Hub.cf_congr e]
  have hkind : g.bankKind = h.bankKind := by
    funext k
    simp only [Hub.bankKind, Hub.stKind, Hub.ctxStages, Hub.sc, Hub.stTile, Hub.stSlot, Hub.cf_congr e, hshadow]
    rfl
  have hon : g.bankOn = h.bankOn := by
    funext u
    have hslot : g.slotStage u = h.slotStage u := by
      funext j
      simp only [Hub.slotStage, Hub.cf_congr e]
    simp only [Hub.bankOn, Hub.stagesOn, hslot, hkind]
  simp only [Hub.bankStages, hdomain, hon]

/-- A tile takes its swap. -/
theorem Hub.swapTaken_tile (h : Hub) (t b len : Nat) : (NMap.get (h.swapTaken t b len).tile t).swap = some (b, len) ∧
    (NMap.get (h.swapTaken t b len).tile t).wait = none := by
  have hown : ∀ a : Hub, (NMap.get (a.tileTakes b len t).tile t).swap = some (b, len) ∧
      (NMap.get (a.tileTakes b len t).tile t).wait = none := by
    intro a
    have htile := NMap.get_modify_same a.tile t (fun x => { x with swap := some (b, len), wait := none })
    exact ⟨congrArg Tile.swap htile, congrArg Tile.wait htile⟩
  refine Hub.foldl_domain (P := fun a => (NMap.get a.tile t).swap = some (b, len) ∧ (NMap.get a.tile t).wait = none) (hown h)
    fun a u ⟨hswap, hwait⟩ => ?_
  by_cases hu : t = u
  · rw [← hu]
    exact hown a
  · have htile := NMap.get_modify_ne a.tile (f := fun x => { x with swap := some (b, len), wait := none }) hu
    exact ⟨(congrArg Tile.swap htile).trans hswap, (congrArg Tile.wait htile).trans hwait⟩

/-- The enable bit that a stage of a chain follows stays while swaps change. -/
theorem Hub.SwapFrame.enable {h g : Hub} (hg : h.SwapFrame g) (k : Nat) :
    g.is (fFabCCtlEnable (ctxOf k)) = h.is (fFabCCtlEnable (ctxOf k)) :=
  Hub.is_congr (hg.rd _ (offSwap_of_ctx (by simp only [fFabCCtlEnable, rFabCCtl]; omega) (by simp [fFabCCtlEnable])))

/-- Every stage of a list begins its swap anew. -/
theorem Hub.switchStages_stg (h : Hub) (l : List Nat) {k : Nat} (hk : k ∈ l) :
    (NMap.get (l.foldl Hub.switchStage h).stg k).switched = !h.is (fFabCCtlEnable (ctxOf (k / 8))) ∧
      (NMap.get (l.foldl Hub.switchStage h).stg k).swOuts = 0 := by
  have hround : ∀ (a : Hub) (j : Nat), (a.switchStage j).stg = NMap.modify a.stg j
      (fun s => { s with switched := !a.is (fFabCCtlEnable (ctxOf (j / 8))), swOuts := 0 }) := by
    intro a j
    unfold Hub.switchStage
    dsimp only
    split <;> rfl
  induction l using List.reverseRecOn with
  | nil => cases hk
  | append_singleton l j ih =>
    rw [List.foldl_append, List.foldl_cons, List.foldl_nil, hround]
    by_cases hj : k = j
    · subst hj
      have hframe : h.SwapFrame (l.foldl Hub.switchStage h) := Hub.SwapFrame.foldl (fun a n _ => a.switchStage_frame n) h
      rw [NMap.get_modify_same, hframe.enable]
      exact ⟨rfl, rfl⟩
    · rw [NMap.get_modify_ne _ _ hj]
      exact ih ((List.mem_append.1 hk).resolve_right (by simpa using hj))

theorem Hub.beginSwap_cells (h : Hub) {t : Nat} (ht : t < 32) (b len : Nat) : (h.beginSwap t b len).cells = h.cells :=
  (h.beginSwap_frame ht b len).cells

theorem Hub.beginSwap_tile (h : Hub) (t b len : Nat) : (NMap.get (h.beginSwap t b len).tile t).swap = some (b, len) ∧
    (NMap.get (h.beginSwap t b len).tile t).wait = none := by
  have hstages : ((h.bankStages t).foldl Hub.switchStage (h.swapTaken t b len)).tile = (h.swapTaken t b len).tile :=
    foldl_keep Hub.tile _ (fun a k => by unfold Hub.switchStage; dsimp only; split <;> rfl) _ _
  rw [Hub.beginSwap_eq, (Hub.shown_domain _ _ _).1, hstages]
  exact h.swapTaken_tile t b len

theorem Hub.switchStage_bank (h : Hub) (k t : Nat) : (h.switchStage k).rd (fFabTStatusBankAct t) = h.rd (fFabTStatusBankAct t) := by
  unfold Hub.switchStage
  dsimp only
  split
  · refine Hub.rd_wr_addr _ _ ?_
    simp only [fFabTFadeIdle, fFabTStatusBankAct, rFabTFade, rFabTStatus]
    omega
  · rfl

theorem Hub.beginSwap_bank (h : Hub) (t b len : Nat) :
    (h.beginSwap t b len).rd (fFabTStatusBankAct t) = h.rd (fFabTStatusBankAct t) := by
  rw [Hub.beginSwap_eq, Hub.shown_domain_rd (t := t) (by simp)]
  refine (foldl_keep (fun a => a.rd (fFabTStatusBankAct t)) Hub.switchStage (fun a k => a.switchStage_bank k t) _ _).trans ?_
  exact Hub.rd_congr (foldl_keep (fun a => a.reg (rFabTStatus t)) (fun a u => a.tileTakes b len u) (fun _ _ => rfl) _ _)

theorem Hub.beginSwap_stg (h : Hub) (t b len : Nat) {k : Nat} (hk : k ∈ h.bankStages t) :
    (NMap.get (h.beginSwap t b len).stg k).switched = !h.is (fFabCCtlEnable (ctxOf (k / 8))) ∧
      (NMap.get (h.beginSwap t b len).stg k).swOuts = 0 := by
  rw [Hub.beginSwap_eq, (Hub.shown_domain _ _ _).2.1, ← (h.swapTaken_frame t b len).enable]
  exact (h.swapTaken t b len).switchStages_stg _ hk

/-- A swap that a stage of an enabled context has yet to switch for runs on. -/
theorem Hub.beginSwap_runs {h : Hub} {t : Nat} (ht : t < 32) (b len fuel : Nat)
    (hon : (h.bankStages t).any (fun k => h.is (fFabCCtlEnable (ctxOf (k / 8)))) = true) :
    let g := Hub.endSwap (fuel + 1) (h.beginSwap t b len) t
    (NMap.get g.tile t).swap = some (b, len) ∧ (NMap.get g.tile t).wait = none ∧ g.is (fFabTStatusFading t) = true ∧
      g.rd (fFabTStatusBankAct t) = h.rd (fFabTStatusBankAct t) ∧
      ∀ k ∈ h.bankStages t, (NMap.get g.stg k).switched = !h.is (fFabCCtlEnable (ctxOf (k / 8))) ∧ (NMap.get g.stg k).swOuts = 0 := by
  obtain ⟨k, hk, henabled⟩ := List.any_eq_true.1 hon
  have hleft : (h.beginSwap t b len).unswitched ((h.beginSwap t b len).bankStages t) ≠ 0 := by
    rw [Hub.bankStages_congr (h.beginSwap_cells ht b len)]
    refine Nat.ne_of_gt (List.length_pos_of_mem (List.mem_filter.2 ⟨hk, ?_⟩))
    rw [(h.beginSwap_stg t b len hk).1, henabled]
    rfl
  obtain ⟨hswap, hwait⟩ := h.beginSwap_tile t b len
  intro g
  have hg : g = ((h.beginSwap t b len).domain t).foldl Hub.showSwap (h.beginSwap t b len) := Hub.endSwap_waits hswap hleft fuel
  obtain ⟨htile, hstg, hfading, -⟩ := Hub.shown_domain (h.beginSwap t b len) (h.beginSwap t b len) t
  rw [hg, htile, hstg, hfading, hswap, hwait, Hub.shown_domain_rd (t := t) (by simp), Hub.beginSwap_bank]
  exact ⟨rfl, rfl, rfl, rfl, fun k hk => h.beginSwap_stg t b len hk⟩

end Sys2Proof.Machine
end

section
/-! SUPPORT. The statement about coefficient banks (R160, R187, R188, R190 to R192). -/

namespace Sys2Proof.Machine
open Sys2Proof

/-! ### A request that waits -/

/-- A tile in a swap takes a request, in the place of one that waits (R191). -/
def Hub.tileWaits (h : Hub) (b len u : Nat) : Hub :=
  let h1 := { h with tile := NMap.modify h.tile u (fun y => { y with wait := some (b, len) }) }
  let h2 := if (NMap.get h.tile u).wait.isSome then (h1.on (fFabTStatusSwapRepl u)).countSat (fFabTCountSwapRepl u) 1 else h1
  h2.showSwap u

@[simp] theorem Hub.tileWaits_tile (h : Hub) (b len u : Nat) :
    (h.tileWaits b len u).tile = NMap.modify h.tile u (fun y => { y with wait := some (b, len) }) := by
  unfold Hub.tileWaits
  dsimp only
  split <;> rfl

@[simp] theorem Hub.tileWaits_stg (h : Hub) (b len u : Nat) : (h.tileWaits b len u).stg = h.stg := by
  unfold Hub.tileWaits
  dsimp only
  split <;> rfl

theorem Hub.tileWaits_pends (h : Hub) (b len u : Nat) : (h.tileWaits b len u).is (fFabTStatusSwapPend u) = true := by
  unfold Hub.tileWaits
  dsimp only
  rw [(Hub.showSwap_shows _ u).2]
  split <;> simp [NMap.get_modify_same]

theorem Hub.tileWaits_replaces {h : Hub} {u : Nat} (hw : (NMap.get h.tile u).wait.isSome = true) (b len : Nat) :
    (h.tileWaits b len u).is (fFabTStatusSwapRepl u) = true := by
  have hcount : (fFabTStatusSwapRepl u).addr ≠ (fFabTCountSwapRepl u).addr := by
    simp only [fFabTStatusSwapRepl, fFabTCountSwapRepl, rFabTStatus, rFabTCount]
    omega
  unfold Hub.tileWaits
  dsimp only
  rw [if_pos hw, Hub.is_congr (Hub.showSwap_rd (offShown (t := u) (by simp) u) _)]
  exact (Hub.is_congr (Hub.rd_wr_addr _ _ hcount)).trans
    (Hub.is_on_same _ (by simp [fFabTStatusSwapRepl]) (by simp [fFabTStatusSwapRepl]))

theorem Hub.tileWaits_other (h : Hub) (b len : Nat) {t u : Nat} (hu : t ≠ u) {f : Fld} (hf : f.addr = rFabTStatus t) :
    (h.tileWaits b len u).rd f = h.rd f := by
  have hat : f.addr ≠ (fFabTStatusSwapRepl u).addr ∧ f.addr ≠ (fFabTCountSwapRepl u).addr := by
    simp only [hf, fFabTStatusSwapRepl, fFabTCountSwapRepl, rFabTStatus, rFabTCount]
    omega
  unfold Hub.tileWaits
  dsimp only
  rw [Hub.showSwap_other _ hu hf]
  split
  · exact (Hub.rd_wr_addr _ _ hat.2).trans (Hub.rd_wr_addr _ _ hat.1)
  · rfl

/-- The tile of a request that waits holds it, shows it, and flags the one it replaced. -/
theorem Hub.waits_domain (h : Hub) (t b len : Nat) :
    let g := (h.domain t).foldl (fun a u => a.tileWaits b len u) h
    NMap.get g.tile t = { NMap.get h.tile t with wait := some (b, len) } ∧ g.is (fFabTStatusSwapPend t) = true ∧
      ((NMap.get h.tile t).wait.isSome = true → g.is (fFabTStatusSwapRepl t) = true) ∧ g.stg = h.stg := by
  refine Hub.foldl_domain (P := fun g => NMap.get g.tile t = { NMap.get h.tile t with wait := some (b, len) } ∧
    g.is (fFabTStatusSwapPend t) = true ∧ ((NMap.get h.tile t).wait.isSome = true → g.is (fFabTStatusSwapRepl t) = true) ∧
    g.stg = h.stg) ⟨?_, h.tileWaits_pends b len t, fun hw => Hub.tileWaits_replaces hw b len, h.tileWaits_stg b len t⟩ ?_
  · rw [Hub.tileWaits_tile, NMap.get_modify_same]
  · intro a u ⟨htile, hpend, hrepl, hstg⟩
    by_cases hu : t = u
    · subst hu
      have hwait : (NMap.get a.tile t).wait.isSome = true := by rw [htile]; rfl
      refine ⟨?_, a.tileWaits_pends b len t, fun _ => Hub.tileWaits_replaces hwait b len, (a.tileWaits_stg b len t).trans hstg⟩
      rw [Hub.tileWaits_tile, NMap.get_modify_same, htile]
    · refine ⟨?_, (Hub.is_congr (a.tileWaits_other b len hu rfl)).trans hpend,
        fun hw => (Hub.is_congr (a.tileWaits_other b len hu rfl)).trans (hrepl hw), (a.tileWaits_stg b len u).trans hstg⟩
      rw [Hub.tileWaits_tile, NMap.get_modify_ne _ _ hu, htile]

/-! ### SWAP_REQUEST by what the tile is doing -/

section
variable {h : Hub} {t : Nat} (hrec : h.recovering 4 t = false)
include hrec

theorem Hub.swapRequest_same (hs : (NMap.get h.tile t).swap = none) (hw : (NMap.get h.tile t).wait = none)
    (hb : h.rd (fFabTFirBankNext t) = h.rd (fFabTStatusBankAct t)) : h.swapRequest t = h := by
  unfold Hub.swapRequest
  simp [hrec, hs, hw, hb]

theorem Hub.swapRequest_begins (hs : (NMap.get h.tile t).swap = none) (hw : (NMap.get h.tile t).wait = none)
    (hp : h.coefPending t = false) (hb : h.rd (fFabTFirBankNext t) ≠ h.rd (fFabTStatusBankAct t)) :
    h.swapRequest t = Hub.endSwap 2 (h.beginSwap t (h.rd (fFabTFirBankNext t)) (h.rd (fFabTFirFadeLen t))) t := by
  unfold Hub.swapRequest
  simp [hrec, hs, hw, hp, hb]

theorem Hub.swapRequest_waits (hs : (NMap.get h.tile t).swap.isSome = true) : h.swapRequest t =
    (h.domain t).foldl (fun a u => a.tileWaits (h.rd (fFabTFirBankNext t)) (h.rd (fFabTFirFadeLen t)) u) h := by
  have hnone : (NMap.get h.tile t).swap.isNone = false := by
    rw [← Option.not_isSome, hs]
    rfl
  unfold Hub.swapRequest
  simp only [hrec, hnone, Bool.false_and, Bool.false_eq_true, if_false]
  rfl

end

/-! ### FADE_IDLE_SWITCH -/

/-- A stage is marked as switched for idleness. -/
def Hub.idleMarked (h : Hub) (k t : Nat) : Hub :=
  { h with stg := NMap.modify h.stg k (fun s => { s with switched := true }) }.countSat (fFabTFadeIdle t) 1

/-- The stage in a slot, in a swap it has yet to switch for. -/
theorem Hub.fadeIdle_marks {h : Hub} {t j k : Nat} (hslot : h.slotStage t j = some k) (htile : h.stTile (k / 8) (k % 8) = t)
    (hkind : h.bankKind k = true) (hs : (NMap.get h.tile t).swap.isSome = true) (hk : (NMap.get h.stg k).switched = false) :
    h.fadeIdle t j = Hub.endSwap 2 (h.idleMarked k t) t := by
  unfold Hub.fadeIdle Hub.idleSwitch
  rw [hslot]
  dsimp only
  rw [if_pos htile, htile, hkind, hs, hk]
  have hmark : h.modStg (k / 8) (k % 8) (fun s => { s with switched := true }) =
      { h with stg := NMap.modify h.stg k (fun s => { s with switched := true }) } := by
    unfold Hub.modStg Hub.setStg Hub.stg'
    rw [Nat.div_add_mod]
    rfl
  rw [hmark]
  rfl

/-- The end of a swap with none waiting leaves the stages and the count of those switched for idleness. -/
theorem Hub.endSwap_keeps {h : Hub} {t : Nat} (hs : (NMap.get h.tile t).swap.isSome = true) (hw : (NMap.get h.tile t).wait = none)
    (fuel : Nat) : (Hub.endSwap (fuel + 1) h t).stg = h.stg ∧
      (Hub.endSwap (fuel + 1) h t).rd (fFabTFadeIdle t) = h.rd (fFabTFadeIdle t) := by
  obtain ⟨⟨b, len⟩, hs⟩ := Option.isSome_iff_exists.1 hs
  by_cases hu : h.unswitched (h.bankStages t) = 0
  · rw [Hub.endSwap_last hs hw hu]
    exact ⟨h.swapEnded_stg t b none, h.swapEnded_idle t b none t⟩
  · rw [Hub.endSwap_waits hs hu]
    exact ⟨(h.shown_domain h t).2.1, Hub.shown_domain_rd (t := t) (by simp) _ _⟩

/-- The last stage to switch ends the swap, and the one that waits starts. -/
theorem Hub.endSwap_starts {h : Hub} {t b len wb wl : Nat} (ht : t < 32) (hs : (NMap.get h.tile t).swap = some (b, len))
    (hw : (NMap.get h.tile t).wait = some (wb, wl)) (hu : h.unswitched (h.bankStages t) = 0) (hb : wb ≠ b)
    (hp : h.coefPending t = false) (hon : (h.bankStages t).any (fun k => h.is (fFabCCtlEnable (ctxOf (k / 8)))) = true) :
    let g := Hub.endSwap 2 h t
    (NMap.get g.tile t).swap = some (wb, wl) ∧ (NMap.get g.tile t).wait = none ∧ g.rd (fFabTStatusBankAct t) = b % 2 ∧
      ∀ k ∈ h.bankStages t, (NMap.get g.stg k).switched = !h.is (fFabCCtlEnable (ctxOf (k / 8))) := by
  have hframe := h.swapEnded_frame ht b none
  have hbank := Hub.bankStages_congr hframe.cells t
  obtain ⟨-, -, hact, -⟩ := h.swapEnded_ended t b none
  have hon' : ((h.swapEnded t b none).bankStages t).any
      (fun k => (h.swapEnded t b none).is (fFabCCtlEnable (ctxOf (k / 8)))) = true := by
    simpa only [hbank, hframe.enable] using hon
  obtain ⟨hswap, hwait, -, hkeep, hstg⟩ := Hub.beginSwap_runs ht wb wl 0 hon'
  dsimp only
  rw [Hub.endSwap_next hs hw hu, hp]
  dsimp only
  rw [if_neg (by simp [hb])]
  refine ⟨hswap, hwait, hkeep.trans hact, fun k hk => ?_⟩
  rw [← hframe.enable]
  exact (hstg k (hbank ▸ hk)).1

/-! ### The coefficient window -/

theorem Hub.putCoef_cells (h : Hub) (t bank i : Nat) (w : Word) : (h.putCoef t bank i w).cells =
    NMap.setD h.cells (cellKey 5 t (512 * bank + i)) (w32 (fieldOf w 0 24)) (cellDefault (cellKey 5 t (512 * bank + i))) := rfl

theorem Hub.putCoef_cell_same (h : Hub) (t bank i : Nat) (w : Word) :
    (h.putCoef t bank i w).cell 5 t (512 * bank + i) = w32 (fieldOf w 0 24) := by
  unfold Hub.cell
  rw [Hub.putCoef_cells, NMap.getD_setD_same]

/-- A word stays where the same is written, there or elsewhere. -/
theorem Hub.putCoef_cell_kept {h : Hub} {u n : Nat} {w : Word} (hc : h.cell 5 u n = w32 (fieldOf w 0 24)) (t bank i : Nat) :
    (h.putCoef t bank i w).cell 5 u n = w32 (fieldOf w 0 24) := by
  by_cases hk : cellKey 5 u n = cellKey 5 t (512 * bank + i)
  · unfold Hub.cell
    rw [hk, Hub.putCoef_cells, NMap.getD_setD_same]
  · rw [← hc]
    unfold Hub.cell
    rw [Hub.putCoef_cells, NMap.getD_setD_ne _ _ _ _ hk]

/-- Slots and contexts have their cells behind the coefficients. -/
theorem Hub.putCoef_cf (h : Hub) {t bank i u n : Nat} (w : Word) (ht : t < 32) (hb : bank < 2) (hi : i < 512)
    (hn : n < 4096 ∧ (32 ≤ u ∨ 1024 ≤ n)) (lo len : Nat) : (h.putCoef t bank i w).cf 5 u n lo len = h.cf 5 u n lo len := by
  have hk : cellKey 5 u n ≠ cellKey 5 t (512 * bank + i) := by
    simp only [cellKey]
    omega
  unfold Hub.cf Hub.cell
  rw [Hub.putCoef_cells, NMap.getD_setD_ne _ _ _ _ hk]

theorem Hub.putCoef_bad_same (h : Hub) (t bank i : Nat) (w : Word) :
    512 * bank + i ∉ (NMap.get (h.putCoef t bank i w).tile t).badCoef := by
  unfold Hub.putCoef
  dsimp only
  rw [NMap.get_modify_same]
  simp

theorem Hub.putCoef_bad_kept {h : Hub} {u n : Nat} (hn : n ∉ (NMap.get h.tile u).badCoef) (t bank i : Nat) (w : Word) :
    n ∉ (NMap.get (h.putCoef t bank i w).tile u).badCoef := by
  unfold Hub.putCoef
  dsimp only
  by_cases hu : u = t
  · subst hu
    rw [NMap.get_modify_same]
    exact fun hmem => hn (List.mem_of_mem_filter hmem)
  · rw [NMap.get_modify_ne _ _ hu]
    exact hn

/-- The shadow copy of the stage in slot `j` takes the word too. -/
def Hub.mirror (h : Hub) (t b i : Nat) (w : Word) (j : Nat) : Hub :=
  let c := h.cf 5 t (0x400 + 16 * j) 4 8
  let k := h.cf 5 t (0x400 + 16 * j) 12 3
  if h.ctxShadow c then
    let u := h.stTile (192 + c) k
    let v := h.stSlot (192 + c) k
    h.putCoef u b (h.cf 5 u (0x401 + 16 * v) 0 9 + (i - h.cf 5 t (0x401 + 16 * j) 0 9)) w
  else h

section
variable {h : Hub} {t i : Nat} (hheld : h.stHeld heldCoef = false)
include hheld

theorem Hub.coefWrite_writes (w : Word) (hs : (NMap.get h.tile t).swap = none) (hw : (NMap.get h.tile t).wait = none)
    (hsh : h.slotsAt t i true = []) : h.coefWrite t i w = (h.slotsAt t i false).foldl
      (fun a j => a.mirror t (h.rd (fFabTCwinBank t)) i w j) (h.putCoef t (h.rd (fFabTCwinBank t)) i w) := by
  unfold Hub.coefWrite
  simp only [hheld, hs, hw, hsh, Option.isSome_none, List.isEmpty_nil, Bool.not_true, Bool.or_false, Bool.false_eq_true, if_false]
  rfl

theorem Hub.coefWrite_refuses (w : Word) (hbusy : (NMap.get h.tile t).swap.isSome = true ∨ (NMap.get h.tile t).wait.isSome = true ∨
    h.slotsAt t i true ≠ []) : h.coefWrite t i w = (h.on (fFabTStatusWrRefused t)).countSat (fFabTCountWrRefused t) 1 := by
  have hguard : ((NMap.get h.tile t).swap.isSome || (NMap.get h.tile t).wait.isSome || !(h.slotsAt t i true).isEmpty) = true := by
    simpa [or_assoc] using hbusy
  unfold Hub.coefWrite
  simp only [hheld, Bool.false_eq_true, if_false, if_pos hguard]

end

/-- The mirrored writes leave a word of the window, its freedom of bad parity and the registers. -/
theorem Hub.mirrors_keep {t b i n : Nat} {w : Word} (l : List Nat) {h : Hub} (hc : h.cell 5 t n = w32 (fieldOf w 0 24))
    (hn : n ∉ (NMap.get h.tile t).badCoef) :
    let g := l.foldl (fun a j => a.mirror t b i w j) h
    g.cell 5 t n = w32 (fieldOf w 0 24) ∧ n ∉ (NMap.get g.tile t).badCoef ∧ g.regs = h.regs := by
  induction l generalizing h with
  | nil => exact ⟨hc, hn, rfl⟩
  | cons j l ih =>
    obtain ⟨hc1, hn1, hr1⟩ : (h.mirror t b i w j).cell 5 t n = w32 (fieldOf w 0 24) ∧
        n ∉ (NMap.get (h.mirror t b i w j).tile t).badCoef ∧ (h.mirror t b i w j).regs = h.regs := by
      unfold Hub.mirror
      dsimp only
      split
      · exact ⟨Hub.putCoef_cell_kept hc .., Hub.putCoef_bad_kept hn _ _ _ _, rfl⟩
      · exact ⟨hc, hn, rfl⟩
    obtain ⟨hc2, hn2, hr2⟩ := ih hc1 hn1
    exact ⟨hc2, hn2, hr2.trans hr1⟩

/-- The copy's word, where the first write left the slots as they were. -/
theorem Hub.putCoef_mirror (h : Hub) {t b i j : Nat} (w : Word) (ht : t < 32) (hb : b < 2) (hi : i < 512) (hj : j < 64)
    (hshadow : h.ctxShadow (h.cf 5 t (0x400 + 16 * j) 4 8) = true) :
    let c := h.cf 5 t (0x400 + 16 * j) 4 8
    let k := h.cf 5 t (0x400 + 16 * j) 12 3
    (h.putCoef t b i w).mirror t b i w j = (h.putCoef t b i w).putCoef (h.stTile (192 + c) k) b
      (h.cf 5 (h.stTile (192 + c) k) (0x401 + 16 * h.stSlot (192 + c) k) 0 9 + (i - h.cf 5 t (0x401 + 16 * j) 0 9)) w := by
  have hcf : ∀ {u n : Nat}, n < 4096 ∧ (32 ≤ u ∨ 1024 ≤ n) → ∀ lo len,
      (h.putCoef t b i w).cf 5 u n lo len = h.cf 5 u n lo len :=
    fun hn lo len => h.putCoef_cf w ht hb hi hn lo len
  have hctx : ∀ c, (h.putCoef t b i w).ctxShadow c = h.ctxShadow c := fun c => by
    simp only [Hub.ctxShadow, Hub.ctxStages, hcf (u := 32 + c) (n := 0) (by omega)]
  have hstage : ∀ x, ∀ k < 8, (h.putCoef t b i w).stTile x k = h.stTile x k ∧ (h.putCoef t b i w).stSlot x k = h.stSlot x k :=
    fun x k hk => by
      simp only [Hub.stTile, Hub.stSlot, hcf (u := 32 + ctxOf x) (n := 0x10 + k) (by omega), and_self]
  have hk : h.cf 5 t (0x400 + 16 * j) 12 3 < 8 := fieldOf_lt _ _ 3
  have hslot : h.stSlot (192 + h.cf 5 t (0x400 + 16 * j) 4 8) (h.cf 5 t (0x400 + 16 * j) 12 3) < 64 := fieldOf_lt _ _ 6
  obtain ⟨htile, hsl⟩ := hstage (192 + h.cf 5 t (0x400 + 16 * j) 4 8) _ hk
  dsimp only
  unfold Hub.mirror
  dsimp only
  rw [hcf (by omega), hcf (by omega), hcf (by omega), hctx, if_pos hshadow, htile, hsl, hcf (by omega)]

/-- Settles O17: requests by what the tile is doing, idle stages by how the swap stands after them, window writes by their cells. -/
theorem coefficientBanks : Obligations.CoefficientBanks := by
  refine ⟨?_, ?_, ?_, ?_, ?_, ?_, ?_, ?_, ?_⟩
  · -- SWAP_REQUEST to the other bank, no stage to switch
    intro s u hans hrec hs hw hp hb hnone
    refine ⟨_, rfl, ?_⟩
    dsimp only
    have hat : (fFabTStatusBankAct u).addr ≠ 0x30 ∧ (fFabTStatusFading u).addr ≠ 0x30 := by
      simp only [fFabTStatusBankAct, fFabTStatusFading, rFabTStatus]
      omega
    obtain ⟨hswap, hwait⟩ := s.hub.beginSwap_tile u (s.hub.rd (fFabTFirBankNext u)) (s.hub.rd (fFabTFirFadeLen u))
    have hleft : ∀ g : Hub, g.unswitched [] = 0 := fun _ => rfl
    rw [Hub.atReg_answers _ hans, Hub.swapRequest_begins hrec hs hw hp hb, Hub.endSwap_last hswap hwait
      (by rw [Hub.bankStages_congr (s.hub.beginSwap_cells u.isLt _ _), hnone, hleft]), latchIrq_tile, latchIrq_rd _ _ _ _ hat.1,
      latchIrq_is _ _ _ _ hat.2]
    obtain ⟨hend, -, hact, hfading⟩ := Hub.swapEnded_ended
      (s.hub.beginSwap u (s.hub.rd (fFabTFirBankNext u)) (s.hub.rd (fFabTFirFadeLen u))) u (s.hub.rd (fFabTFirBankNext u)) none
    exact ⟨hact.trans (Nat.mod_eq_of_lt (s.hub.rd_lt (fFabTFirBankNext u))), hend, hfading⟩
  · -- SWAP_REQUEST to the other bank with a stage of an enabled context to switch
    intro s u hans hrec hs hw hp hb hon
    refine ⟨_, rfl, ?_⟩
    dsimp only
    have hat : (fFabTStatusBankAct u).addr ≠ 0x30 ∧ (fFabTStatusFading u).addr ≠ 0x30 := by
      simp only [fFabTStatusBankAct, fFabTStatusFading, rFabTStatus]
      omega
    obtain ⟨hswap, -, hfading, hact, hstg⟩ :=
      Hub.beginSwap_runs u.isLt (s.hub.rd (fFabTFirBankNext u)) (s.hub.rd (fFabTFirFadeLen u)) 1 hon
    rw [Hub.atReg_answers _ hans, Hub.swapRequest_begins hrec hs hw hp hb, latchIrq_tile, latchIrq_stg, latchIrq_rd _ _ _ _ hat.1,
      latchIrq_is _ _ _ _ hat.2]
    exact ⟨hswap, hfading, hact, hstg⟩
  · -- SWAP_REQUEST to the bank in force
    intro s u hans hrec hs hw hb
    refine ⟨_, rfl, ?_⟩
    dsimp only
    rw [Hub.atReg_answers _ hans, Hub.swapRequest_same hrec hs hw hb, latchIrq_tile, latchIrq_stg]
    exact ⟨rfl, rfl, fun a ha => latchIrq_reg _ _ _ _ ha⟩
  · -- SWAP_REQUEST during a swap
    intro s u hans hrec hs
    refine ⟨_, rfl, ?_⟩
    dsimp only
    have hat : (fFabTStatusSwapPend u).addr ≠ 0x30 ∧ (fFabTStatusSwapRepl u).addr ≠ 0x30 := by
      simp only [fFabTStatusSwapPend, fFabTStatusSwapRepl, rFabTStatus]
      omega
    rw [Hub.atReg_answers _ hans, Hub.swapRequest_waits hrec hs, latchIrq_tile, latchIrq_stg, latchIrq_is _ _ _ _ hat.1,
      latchIrq_is _ _ _ _ hat.2]
    exact s.hub.waits_domain u _ _
  · -- FADE_IDLE_SWITCH, with no swap waiting
    intro s u j k hslot htile hkind hs hw hk
    refine ⟨_, rfl, ?_⟩
    dsimp only
    have hat : (fFabTFadeIdle u).addr ≠ 0x30 := by
      simp only [fFabTFadeIdle, rFabTFade]
      omega
    obtain ⟨hstg, hidle⟩ := Hub.endSwap_keeps (h := s.hub.idleMarked k u) hs hw 1
    rw [Hub.fadeIdle_marks hslot htile hkind hs hk, latchIrq_stg, latchIrq_rd _ _ _ _ hat, hstg, hidle]
    unfold Hub.idleMarked
    rw [Hub.rd_countSat_same _ _ (by simp [fFabTFadeIdle]), Hub.countSat_stg]
    dsimp only
    rw [NMap.get_modify_same]
    exact ⟨rfl, rfl⟩
  · -- FADE_IDLE_SWITCH of the only stage of a tile without a partner, another swap waiting
    intro s u j k b len wb wl hslot htile hkind hpartner hstages hs hw hb hp hon hk
    refine ⟨_, rfl, ?_⟩
    dsimp only
    have hat : (fFabTStatusBankAct u).addr ≠ 0x30 := by
      simp only [fFabTStatusBankAct, rFabTStatus]
      omega
    have hidle : (fFabTFadeIdle u).addr ≠ rFabCCtl (ctxOf (k / 8)) := by
      simp only [fFabTFadeIdle, rFabTFade, rFabCCtl]
      omega
    have hbank : (s.hub.idleMarked k u).bankStages u = [k] := hstages
    have henable : (s.hub.idleMarked k u).is (fFabCCtlEnable (ctxOf (k / 8))) = true :=
      (Hub.is_congr (Hub.rd_wr_addr _ _ (Ne.symm hidle))).trans hon
    have hleft : (s.hub.idleMarked k u).unswitched [k] = 0 := by
      unfold Hub.unswitched Hub.idleMarked
      simp [NMap.get_modify_same]
    obtain ⟨hswap, hwait, hact, hstg⟩ := Hub.endSwap_starts (h := s.hub.idleMarked k u) u.isLt hs hw (by rw [hbank, hleft]) hb hp
      (by simp [hbank, henable])
    rw [Hub.fadeIdle_marks hslot htile hkind (by rw [hs]; rfl) hk, latchIrq_tile, latchIrq_stg, latchIrq_rd _ _ _ _ hat]
    refine ⟨hswap, hwait, hact, ?_⟩
    rw [hstg k (by simp [hbank]), henable]
    rfl
  · -- COEF_WINDOW_WRITE
    intro s u i w hans hheld hs hw hsh
    refine ⟨_, rfl, ?_⟩
    dsimp only
    rw [Hub.atReg_answers _ hans, Hub.coefWrite_writes hheld w hs hw hsh, latchIrq_cell, latchIrq_tile]
    obtain ⟨hcell, hbad, hregs⟩ := Hub.mirrors_keep (s.hub.slotsAt u i false)
      (s.hub.putCoef_cell_same u (s.hub.rd (fFabTCwinBank u)) i w) (s.hub.putCoef_bad_same u (s.hub.rd (fFabTCwinBank u)) i w)
    exact ⟨hcell, hbad, fun a ha => (latchIrq_reg _ _ _ _ ha).trans (Hub.reg_congr (hregs.trans rfl) a)⟩
  · -- COEF_WINDOW_WRITE in the region of one stage with a shadow copy
    intro s u i w j c k v y hans hheld hs hw hsh hslots hc hk hshadow hv hy
    refine ⟨_, rfl, ?_⟩
    dsimp only
    subst hc hk hv hy
    have hj : j < 64 := by
      have hmem : j ∈ s.hub.slotsAt u i false := by simp [hslots]
      exact List.mem_range.1 (List.mem_of_mem_filter hmem)
    rw [Hub.atReg_answers _ hans, Hub.coefWrite_writes hheld w hs hw hsh, latchIrq_cell, latchIrq_cell, hslots, List.foldl_cons,
      List.foldl_nil, Hub.putCoef_mirror s.hub w u.isLt (s.hub.rd_lt (fFabTCwinBank u)) i.isLt hj hshadow]
    exact ⟨Hub.putCoef_cell_same .., Hub.putCoef_cell_kept (Hub.putCoef_cell_same ..) ..⟩
  · -- COEF_WINDOW_WRITE while a swap runs or waits, or in a shadow copy's region: refused
    intro s u i w hans hheld hbusy
    refine ⟨_, rfl, ?_⟩
    dsimp only
    have hat : (fFabTStatusWrRefused u).addr ≠ 0x30 ∧ (fFabTCountWrRefused u).addr ≠ 0x30 ∧
        (fFabTStatusWrRefused u).addr ≠ (fFabTCountWrRefused u).addr := by
      simp only [fFabTStatusWrRefused, fFabTCountWrRefused, rFabTStatus, rFabTCount]
      omega
    rw [Hub.atReg_answers _ hans, Hub.coefWrite_refuses hheld w hbusy, latchIrq_cells, latchIrq_is _ _ _ _ hat.1,
      latchIrq_rd _ _ _ _ hat.2.1, Hub.rd_countSat_same _ _ (by simp [fFabTCountWrRefused])]
    refine ⟨?_, congrArg (fun n => satTo 8 (n + 1)) (Hub.rd_wr_addr _ _ (Ne.symm hat.2.2)), rfl⟩
    exact (Hub.is_congr (Hub.rd_wr_addr _ _ hat.2.2)).trans
      (Hub.is_on_same _ (by simp [fFabTStatusWrRefused]) (by simp [fFabTStatusWrRefused]))

end Sys2Proof.Machine
end

section
/-! SUPPORT. What the way of a sample out of a stage leaves of the stages, the tiles and their registers (R147 to R150, R161, R164). -/

namespace Sys2Proof.Machine
open Sys2Proof

/-! ### A way that reaches no ingress -/

/-- Between two hubs samples went to listeners, comparators and queues, and to no stage. -/
structure Hub.Sends (h g : Hub) : Prop where
  cells : g.cells = h.cells
  stg : g.stg = h.stg
  tile : g.tile = h.tile
  inq : ∀ c, (NMap.get g.ctx c).inq = (NMap.get h.ctx c).inq
  reg : ∀ a < 0xA0000, g.reg a = h.reg a

namespace Hub.Sends

theorem refl (h : Hub) : h.Sends h := ⟨rfl, rfl, rfl, fun _ => rfl, fun _ _ => rfl⟩

theorem trans {h g k : Hub} (hg : h.Sends g) (gk : g.Sends k) : h.Sends k where
  cells := gk.cells.trans hg.cells
  stg := gk.stg.trans hg.stg
  tile := gk.tile.trans hg.tile
  inq c := (gk.inq c).trans (hg.inq c)
  reg a ha := (gk.reg a ha).trans (hg.reg a ha)

section
variable {h g : Hub} (hg : h.Sends g)
include hg

/-- Records other than those of the fabric change. -/
theorem keep {k : Hub} (hcells : k.cells = g.cells := by rfl) (hstg : k.stg = g.stg := by rfl) (htile : k.tile = g.tile := by rfl)
    (hctx : k.ctx = g.ctx := by rfl) (hregs : k.regs = g.regs := by rfl) : h.Sends k :=
  hg.trans ⟨hcells, hstg, htile, fun c => by rw [hctx], fun a _ => Hub.reg_congr hregs a⟩

theorem setReg {a : Nat} (ha : 0xA0000 ≤ a) (w : Word) : h.Sends (g.setReg a w) :=
  hg.trans ⟨rfl, rfl, rfl, fun _ => rfl, fun b hb => g.reg_setReg_ne w (by omega)⟩

theorem wr {f : Fld} (hf : 0xA0000 ≤ f.addr) (n : Nat) : h.Sends (g.wr f n) :=
  hg.trans ⟨rfl, rfl, rfl, fun _ => rfl, fun b hb => g.reg_wr_ne f n (by omega)⟩

theorem present (code : Nat) : h.Sends (g.present code) :=
  hg.trans ⟨by simp, by simp, by simp, fun c => by simp, fun b hb => g.present_reg code (.inl (by omega))⟩

theorem fault (code unit src : Nat) (d7 d8 : Word) : h.Sends (g.fault code unit src d7 d8) :=
  hg.trans ⟨by simp, by simp, by simp, fun c => by simp, fun b hb => g.fault_reg _ _ _ _ _ (.inl (by omega))⟩

theorem refusedBy (gs : List Nat) : h.Sends (g.refusedBy gs) := by
  refine hg.trans ⟨?_, ?_, ?_, fun c => by simp, fun b hb => g.refusedBy_reg gs fun n _ => by simp only [rHltStSkipped]; omega⟩ <;>
    rw [Hub.refusedBy_records]

theorem modCtx (c : Nat) {f : Ctx → Ctx} (hf : ∀ y, (f y).inq = y.inq) : h.Sends { g with ctx := NMap.modify g.ctx c f } :=
  hg.trans ⟨rfl, rfl, rfl, fun b => NMap.get_modify_keep Ctx.inq g.ctx c b hf, fun _ _ => rfl⟩

theorem setCtx (c : Nat) {y : Ctx} (hy : y.inq = (NMap.get g.ctx c).inq) : h.Sends { g with ctx := NMap.set g.ctx c y } :=
  hg.trans ⟨rfl, rfl, rfl, fun b => by
    dsimp only
    by_cases hb : b = c
    · rw [hb, NMap.get_set_same, hy]
    · rw [NMap.get_set_ne _ _ hb], fun _ _ => rfl⟩

end

theorem foldl {α : Type} {f : Hub → α → Hub} (hf : ∀ (a : Hub) (x : α), a.Sends (f a x)) (l : List α) (h : Hub) :
    h.Sends (l.foldl f h) := by
  induction l generalizing h with
  | nil => exact refl h
  | cons x l ih => exact (hf h x).trans (ih _)

end Hub.Sends

/-! ### Listeners at a stage point -/

theorem Hub.ringOverrun_sends (h : Hub) (c : Nat) : h.Sends (h.ringOverrun c) :=
  ((Hub.Sends.refl h).wr (by simp only [fQRStatusOverrun, rQRStatus]; omega) 1).present _

theorem Hub.ringStart_sends (h : Hub) (c : Nat) (k : RingCfg) : h.Sends (h.ringStart c k) := by
  have hover := h.ringOverrun_sends c
  unfold Hub.ringStart
  dsimp only
  split
  · exact hover.keep
  split
  · split
    · exact Hub.Sends.refl h
    · exact (hover.wr (f := fQRStatusRdLost c) (by simp only [fQRStatusRdLost, rQRStatus]; omega) 1).keep
  · exact Hub.Sends.refl h

theorem Hub.ringSample_sends (h : Hub) (c point : Nat) (x : Samp) : h.Sends (h.ringSample c point x) := by
  unfold Hub.ringSample
  split
  · rename_i k _
    split
    · extract_lets h0 h1 g h2
      have hstart : h.Sends h0 := by
        unfold h0
        split
        · exact h.ringStart_sends c k
        · exact Hub.Sends.refl h
      have hwrite : h.Sends h2 := (hstart.keep (k := h1)).wr (by simp only [fQRWposWpos, rQRWpos]; omega) _
      split
      · exact hwrite.keep.wr (f := fQRStatusState c) (by simp only [fQRStatusState, rQRStatus]; omega) 3
      · exact hwrite
    · exact Hub.Sends.refl h
  · exact Hub.Sends.refl h

theorem Hub.limPush_sends (h : Hub) (r : FeaRec) : h.Sends (h.limPush r) := by
  unfold Hub.limPush
  split
  · exact ((Hub.Sends.refl h).wr (f := fLimStatusOver) (by decide) 1).wr (f := fLimCountDropped) (by decide) _
  · exact (Hub.Sends.refl h).keep

theorem Hub.featDone_sends (h : Hub) (r : FeaRec) (snap : Bool) (n : Nat) : h.Sends (h.featDone r snap n) := by
  unfold Hub.featDone
  extract_lets c h1 h2
  have hcount : h.Sends h1 :=
    ((Hub.Sends.refl h).wr (f := fFeaCCountRecords c) (by simp only [fFeaCCountRecords, rFeaCCount]; omega) _).present _
  have hpush : h.Sends h2 := by
    unfold h2
    split
    · split
      · exact hcount.keep
      · exact (hcount.wr (f := fFeaCStatusRecLost c) (by simp only [fFeaCStatusRecLost, rFeaCStatus]; omega) 1).wr
          (f := fFeaCCountLost c) (by simp only [fFeaCCountLost, rFeaCCount]; omega) _
    · exact hcount
  split
  · exact hpush
  · exact hpush.trans (h2.limPush_sends r)

theorem Hub.timeBlock_sends (h : Hub) (c : Nat) : h.Sends (h.timeBlock c) := by
  unfold Hub.timeBlock
  extract_lets n x r h1 h2
  have hvalues : h.Sends h2 := ((Hub.Sends.refl h).keep (k := h1)).trans
    (Hub.Sends.foldl (fun (a : Hub) (p : Word × Nat) => (Hub.Sends.refl a).setReg (a := rFeaCValues c p.2)
      (by simp only [rFeaCValues]; omega) p.1) _ _)
  split
  · exact hvalues.trans (h2.featDone_sends r false n)
  · exact Hub.Sends.refl h

theorem Hub.feaSample_sends (h : Hub) (c : Nat) (x : Samp) : h.Sends (h.feaSample c x) := by
  unfold Hub.feaSample
  split
  · exact (h.timeBlock_sends c).keep
  · exact Hub.Sends.refl h

theorem Hub.blockDone_sends (h : Hub) (e j : Nat) : h.Sends (h.blockDone e j) := by
  unfold Hub.blockDone
  dsimp only
  split
  · split
    · exact (((Hub.Sends.refl h).keep (k := h.setJob e j _)).wr (f := fSpcEStatusOverrun e)
        (by simp only [fSpcEStatusOverrun, rSpcEStatus]; omega) 1).wr (f := fSpcECountDropped e)
        (by simp only [fSpcECountDropped, rSpcECount]; omega) _
    · exact (Hub.Sends.refl h).keep
  · exact Hub.Sends.refl h

theorem Hub.gather_sends (h : Hub) (e j : Nat) (x : Samp) : h.Sends (h.gather e j x) := by
  unfold Hub.gather
  split
  · exact (Hub.Sends.refl h).refusedBy heldGather
  · extract_lets h1 y y1 w
    have hdone : h.Sends h1 := h.blockDone_sends e j
    (repeat' split) <;> exact hdone.keep

theorem Hub.tapSample_sends (h : Hub) (c : Nat) (x : Samp) : h.Sends (h.tapSample c x) :=
  (Hub.Sends.foldl (fun (a : Hub) (p : Nat × Nat) => a.gather_sends p.1 p.2 x) _ h).trans (Hub.feaSample_sends _ c x)

theorem Hub.bgPush_sends (h : Hub) (b : Nat) (x : Samp) (due : Nat) : h.Sends (h.bgPush b x due) := by
  unfold Hub.bgPush
  dsimp only
  split
  · exact ((Hub.Sends.refl h).keep (k := h.setBg b _)).wr (f := fCasBgErrGap b) (by simp only [fCasBgErrGap, rCasBgErr]; omega) _
  · exact (Hub.Sends.refl h).keep

theorem Hub.listen_sends (h : Hub) (c s : Nat) (x : Samp) : h.Sends (h.listen c s x) := by
  unfold Hub.listen
  extract_lets h1 h2
  have hring : h.Sends h1 := h.ringSample_sends c s x
  have htap : h.Sends h2 := by
    unfold h2
    split
    · exact hring.trans (h1.tapSample_sends c x)
    · exact hring
  exact htap.trans (Hub.Sends.foldl (fun (a : Hub) (b : Nat) => a.bgPush_sends b x _) _ h2)

/-! ### Outputs of a context -/

theorem Hub.deliver_sends (h : Hub) (c n : Nat) (x : Samp) : h.Sends (h.deliver c n x) := by
  unfold Hub.deliver
  extract_lets y x periodic mk h1 h2
  split
  · have hlost : h.Sends h1 :=
      ((((Hub.Sends.refl h).refusedBy heldFifo).wr (f := fFabCStatusOutLost c)
        (by simp only [fFabCStatusOutLost, rFabCStatus]; omega) 1).wr (f := fFabCCountLostOut c)
        (by simp only [fFabCCountLostOut, rFabCCount]; omega) _).present _
    exact hlost.modCtx c fun _ => rfl
  · exact ((Hub.Sends.refl h).keep (k := h2)).modCtx c fun _ => rfl

theorem Hub.releaseOut_sends (h : Hub) (c n : Nat) (x : Samp) : h.Sends (h.releaseOut c n x) := by
  unfold Hub.releaseOut
  split
  · split
    · exact (Hub.Sends.refl h).modCtx c fun _ => rfl
    · exact Hub.Sends.refl h
  · exact h.deliver_sends c n x

theorem Hub.countOutput_sends (h : Hub) (c : Nat) (x : Samp) : h.Sends (h.countOutput c x) :=
  (((Hub.Sends.refl h).wr (f := fFabCOutcountOutcount c) (by simp only [fFabCOutcountOutcount, rFabCOutcount]; omega) _).wr
    (f := fFabCStatusSettling c) (by simp only [fFabCStatusSettling, rFabCStatus]; omega) _).present _

theorem Hub.ctxOutput_sends (h : Hub) (c : Nat) (x : Samp) : h.Sends (h.ctxOutput c x) :=
  (h.countOutput_sends c x).trans (Hub.releaseOut_sends _ c _ x)

/-! ### The comparator, where its action is no recovery -/

theorem Hub.Sends.action {h g : Hub} (hg : h.Sends g) {c : Nat} (ha : h.cf 5 (32 + c) 0 22 2 ≠ 2) : g.cf 5 (32 + c) 0 22 2 ≠ 2 := by
  rwa [Hub.cf_congr hg.cells]

theorem Hub.cmpStep_sends {h : Hub} {c : Nat} (ha : h.cf 5 (32 + c) 0 22 2 ≠ 2) (fx : Fixed) (flip : Word) :
    h.Sends (Hub.cmpStep fx h c flip) := by
  unfold Hub.cmpStep
  extract_lets y act
  split
  · exact Hub.Sends.refl h
  split
  · exact Hub.Sends.refl h
  extract_lets n bad h1 h2 h3
  have htaken : h.Sends h1 := (Hub.Sends.refl h).setCtx c (by rfl)
  have hseen : h.Sends h2 := by
    unfold h2
    split
    · exact (((htaken.wr (f := fFabCStatusShadowMis c) (by simp only [fFabCStatusShadowMis, rFabCStatus]; omega) 1).wr
        (f := fFabCShadowMism c) (by simp only [fFabCShadowMism, rFabCShadow]; omega) _).wr (f := fFabCShadowIndex c)
        (by simp only [fFabCShadowIndex, rFabCShadow]; omega) _).present _
    · exact htaken
  have hout : h.Sends h3 := hseen.trans (Hub.releaseOut_sends _ c _ _)
  split
  · exact hout
  · exact hout.fault ..

theorem Hub.cmpSlip_sends {h : Hub} {c : Nat} (ha : h.cf 5 (32 + c) 0 22 2 ≠ 2) (fx : Fixed) : h.Sends (Hub.cmpSlip fx h c) := by
  unfold Hub.cmpSlip
  dsimp only
  split
  · have hslip := ((Hub.Sends.refl h).setCtx c (y := { NMap.get h.ctx c with slipped := true }) rfl).wr (f := fFabCStatusShadowSlip c)
      (by simp only [fFabCStatusShadowSlip, rFabCStatus]; omega) 1
    exact hslip.trans (Hub.cmpStep_sends (hslip.action ha) fx 0#32)
  · exact Hub.Sends.refl h

theorem Hub.cmpTake_sends {h : Hub} {c : Nat} (ha : h.cf 5 (32 + c) 0 22 2 ≠ 2) (fx : Fixed) (shadow : Bool) (x : Samp) :
    h.Sends (Hub.cmpTake fx h c shadow x) := by
  unfold Hub.cmpTake
  extract_lets full h1
  have hroom : h.Sends h1 := by
    unfold h1
    split
    · exact Hub.cmpStep_sends ha fx 0#32
    · exact Hub.Sends.refl h
  split
  · exact hroom
  · have hadded := hroom.modCtx c (f := fun y => if shadow then { y with cmpS := y.cmpS ++ [x] } else { y with cmp := y.cmp ++ [x] })
      fun y => by split <;> rfl
    exact hadded.trans (Hub.cmpSlip_sends (hadded.action ha) fx)

/-- The last stage of a chain gives an output, and no comparison of it calls for a recovery. -/
theorem Hub.lastOutput_sends {h : Hub} {x : Nat} (ha : h.ctxShadow (ctxOf x) = false ∨ h.cf 5 (32 + ctxOf x) 0 22 2 ≠ 2)
    (hx : x < 192 ∨ h.ctxShadow (ctxOf x) = true) (fx : Fixed) (y : Samp) : h.Sends (Hub.lastOutput fx h x y) := by
  unfold Hub.lastOutput
  by_cases hp : x < 192
  · rw [if_pos hp]
    rw [show ctxOf x = x from Nat.mod_eq_of_lt hp] at ha
    split
    · rename_i hs
      have hcount := h.countOutput_sends x y
      exact hcount.trans (Hub.cmpTake_sends (hcount.action (ha.resolve_left (by simp [hs]))) fx false y)
    · exact h.ctxOutput_sends x y
  · rw [if_neg hp]
    exact Hub.cmpTake_sends (ha.resolve_left (by simp [hx.resolve_left hp])) fx true y

/-! ### A way through branches -/

/-- Between two hubs samples also went to contexts that branch from others; chains of contexts get theirs at the ingress alone. -/
structure Hub.Flows (h g : Hub) : Prop where
  cells : g.cells = h.cells
  own : ∀ k < 1536, NMap.get g.stg k = NMap.get h.stg k
  tile : g.tile = h.tile
  inq : ∀ c, h.ctxKind c ≠ 6 → (NMap.get g.ctx c).inq = (NMap.get h.ctx c).inq
  reg : ∀ a < 0xA0000, g.reg a = h.reg a

theorem Hub.Sends.flows {h g : Hub} (hg : h.Sends g) : h.Flows g :=
  ⟨hg.cells, fun _ _ => by rw [hg.stg], hg.tile, fun c _ => hg.inq c, hg.reg⟩

theorem Hub.ctxKind_congr {h g : Hub} (e : g.cells = h.cells) : g.ctxKind = h.ctxKind := by
  funext c
  simp only [Hub.ctxKind, Hub.cf_congr e]

theorem Hub.Flows.trans {h g k : Hub} (hg : h.Flows g) (gk : g.Flows k) : h.Flows k where
  cells := gk.cells.trans hg.cells
  own n hn := (gk.own n hn).trans (hg.own n hn)
  tile := gk.tile.trans hg.tile
  inq c hc := (gk.inq c (by rwa [Hub.ctxKind_congr hg.cells])).trans (hg.inq c hc)
  reg a ha := (gk.reg a ha).trans (hg.reg a ha)

theorem Hub.branchesOf_kind {h : Hub} {c s b : Nat} (hb : b ∈ h.branchesOf c s) : h.ctxKind b = 6 := by
  unfold Hub.branchesOf at hb
  obtain ⟨u, hu, rfl⟩ := List.mem_map.1 hb
  obtain ⟨-, hu⟩ := List.mem_filter.1 hu
  simp only [Bool.and_eq_true, decide_eq_true_eq, beq_iff_eq] at hu
  obtain ⟨⟨⟨h32, hkind⟩, -⟩, -⟩ := hu
  rw [Hub.ctxKind, Nat.add_sub_cancel' h32, hkind]

/-- A fold over branching contexts. -/
theorem Hub.Flows.foldl {f : Hub → Nat → Hub} {h : Hub} {l : List Nat} (hl : ∀ b ∈ l, h.ctxKind b = 6)
    (hf : ∀ (a : Hub) b, a.ctxKind b = 6 → a.Flows (f a b)) : h.Flows (l.foldl f h) := by
  induction l generalizing h with
  | nil => exact (Hub.Sends.refl h).flows
  | cons b l ih =>
    have hb := hf h b (hl b List.mem_cons_self)
    exact hb.trans (ih fun c hc => by rw [Hub.ctxKind_congr hb.cells, hl c (List.mem_cons_of_mem _ hc)])

theorem Hub.ctxIngress_flows (fuel : Nat) (h : Hub) {b : Nat} (hb : h.ctxKind b = 6) (x : Samp) :
    h.Flows (Hub.ctxIngress fuel h b x) := by
  induction fuel generalizing h b x with
  | zero => exact (Hub.Sends.refl h).flows
  | succ fuel ih =>
    unfold Hub.ctxIngress
    split
    · exact (Hub.Sends.refl h).flows
    extract_lets y x1 h1 h2 h3 h4
    split
    · have htaken : h.Sends h1 := (Hub.Sends.refl h).modCtx b fun _ => rfl
      have hheard := htaken.trans (h1.listen_sends b 0 x1)
      have hbranches : h.Flows h2 := hheard.flows.trans (Hub.Flows.foldl
        (fun n hn => by rw [Hub.ctxKind_congr (h1.listen_sends b 0 x1).cells, Hub.branchesOf_kind hn]) fun a n hn => ih a hn x1)
      exact hbranches.trans (h2.ctxOutput_sends b x1).flows
    split
    · have hfull : h.Sends h3 := (((Hub.Sends.refl h).refusedBy heldFifo).wr (f := fFabCStatusInOver b)
        (by simp only [fFabCStatusInOver, rFabCStatus]; omega) 1).wr (f := fFabCCountLostIn b)
        (by simp only [fFabCCountLostIn, rFabCCount]; omega) _ |>.present _
      exact (hfull.modCtx b (by intro _; rfl)).flows
    · have htaken : h.Flows h4 := ⟨rfl, fun _ _ => rfl, rfl, fun c hc => by
        have hcb : c ≠ b := fun e => hc (by rw [e, hb])
        unfold h4
        rw [NMap.get_modify_ne _ _ hcb], fun _ _ => rfl⟩
      split
      · exact htaken.trans ⟨rfl, fun k hk => NMap.get_set_ne _ _ (by omega), rfl, fun _ _ => rfl, fun _ _ => rfl⟩
      · exact htaken

theorem Hub.pointOut_flows (h : Hub) (c s : Nat) (x : Samp) : h.Flows (h.pointOut c s x) := by
  have hheard := h.listen_sends c s x
  exact hheard.flows.trans (Hub.Flows.foldl
    (fun n hn => by rw [Hub.ctxKind_congr hheard.cells, Hub.branchesOf_kind hn]) fun a n hn => Hub.ctxIngress_flows 5 a hn x)

end Sys2Proof.Machine
end

section
/-! SUPPORT. What every stage kind shares: taking an input, the words it reads, and giving an output (R149, R153, R155, R182 to R190). -/

namespace Sys2Proof.Machine
open Sys2Proof

/-! ### Functions of the cells -/

theorem Hub.sc_congr {h g : Hub} (e : g.cells = h.cells) : g.sc = h.sc := by
  funext x i k lo len
  simp only [Hub.sc, Hub.stTile, Hub.stSlot, Hub.cf_congr e]

theorem Hub.stTile_congr {h g : Hub} (e : g.cells = h.cells) : g.stTile = h.stTile := by
  funext x i
  simp only [Hub.stTile, Hub.cf_congr e]

theorem Hub.stSlot_congr {h g : Hub} (e : g.cells = h.cells) : g.stSlot = h.stSlot := by
  funext x i
  simp only [Hub.stSlot, Hub.cf_congr e]

theorem Hub.ctxStages_congr {h g : Hub} (e : g.cells = h.cells) : g.ctxStages = h.ctxStages := by
  funext c
  simp only [Hub.ctxStages, Hub.cf_congr e]

theorem Hub.ctxShadow_congr {h g : Hub} (e : g.cells = h.cells) : g.ctxShadow = h.ctxShadow := by
  funext c
  simp only [Hub.ctxShadow, Hub.ctxStages, Hub.cf_congr e]

/-! ### A stage and what goes on around it -/

@[simp] theorem Hub.stg'_setStg (h : Hub) (x i : Nat) (s : Stage) : (h.setStg x i s).stg' x i = s := NMap.get_set_same _ _ _

@[simp] theorem Hub.stg'_modStg (h : Hub) (x i : Nat) (f : Stage → Stage) : (h.modStg x i f).stg' x i = f (h.stg' x i) :=
  NMap.get_set_same _ _ _

/-- Between two hubs a stage, what waits for it from outside, its tile's swap and registers, and the cells stay. -/
structure Hub.Around (x i : Nat) (h g : Hub) : Prop where
  cells : g.cells = h.cells
  own : g.stg' x i = h.stg' x i
  swap : ∀ u, (NMap.get g.tile u).swap = (NMap.get h.tile u).swap
  inq : h.ctxKind (ctxOf x) ≠ 6 → i = 0 ∧ x < 192 → (NMap.get g.ctx x).inq = (NMap.get h.ctx x).inq
  reg : ∀ a < 0xA0000, g.reg a = h.reg a

namespace Hub.Around

variable {x i : Nat} {h g k : Hub}

theorem trans (hg : h.Around x i g) (gk : g.Around x i k) : h.Around x i k where
  cells := gk.cells.trans hg.cells
  own := gk.own.trans hg.own
  swap u := (gk.swap u).trans (hg.swap u)
  inq hk hp := (gk.inq (by rwa [Hub.ctxKind_congr hg.cells]) hp).trans (hg.inq hk hp)
  reg a ha := (gk.reg a ha).trans (hg.reg a ha)

theorem rd (hg : h.Around x i g) {f : Fld} (hf : f.addr < 0xA0000) : g.rd f = h.rd f := Hub.rd_congr (hg.reg _ hf)

/-- What waits for the stage stays too. -/
theorem stageIn (hg : h.Around x i g) (hk : h.ctxKind (ctxOf x) ≠ 6) : g.stageIn x i = h.stageIn x i := by
  unfold Hub.stageIn
  rw [hg.own]
  split
  · rename_i hp
    exact hg.inq hk hp
  · rfl

end Hub.Around

theorem Hub.Sends.around {h g : Hub} (hg : h.Sends g) (x i : Nat) : h.Around x i g where
  cells := hg.cells
  own := by unfold Hub.stg'; rw [hg.stg]
  swap u := by rw [hg.tile]
  inq _ _ := hg.inq x
  reg := hg.reg

/-- No branch feeds a stage of a context's own chain but the first. -/
theorem Hub.Flows.around {h g : Hub} (hg : h.Flows g) {x i : Nat} (hx : x < 192) (hi : i < 8) : h.Around x i g where
  cells := hg.cells
  own := hg.own _ (by omega)
  swap u := by rw [hg.tile]
  inq hk _ := hg.inq x (by rwa [show ctxOf x = x from Nat.mod_eq_of_lt hx] at hk)
  reg := hg.reg

/-- The next stage of the chain takes a sample. -/
theorem Hub.modStg_around (h : Hub) (x i : Nat) (f : Stage → Stage) : h.Around x i (h.modStg x (i + 1) f) where
  cells := rfl
  own := NMap.get_set_ne _ _ (by omega)
  swap _ := rfl
  inq _ _ := rfl
  reg _ _ := rfl

/-! ### Taking an input -/

/-- A stage after it took an input that carries no CAL; `q` is what waits for it. -/
def Stage.took (s : Stage) (v : Samp) (q : List Samp) : Stage :=
  { s with inq := q, bridge := v.val, gapDue := s.gapDue || v.has tGap, lateDue := s.lateDue || v.has tLate }

/-- A stage took the input `v`, behind which `rest` waits. -/
structure Hub.Took (x i : Nat) (v : Samp) (rest : List Samp) (h g : Hub) : Prop where
  cells : g.cells = h.cells
  tile : g.tile = h.tile
  reg : ∀ a < 0xA0000, g.reg a = h.reg a
  own : ∃ q, g.stg' x i = (h.stg' x i).took v q
  next : h.ctxKind (ctxOf x) ≠ 6 → g.stageIn x i = rest

/-- The next sample leaves the queue of a stage. -/
structure Hub.Popped (x i : Nat) (rest : List Samp) (h g : Hub) : Prop where
  cells : g.cells = h.cells
  tile : g.tile = h.tile
  reg : ∀ a < 0xA0000, g.reg a = h.reg a
  own : ∃ q, g.stg' x i = { h.stg' x i with inq := q }
  next : h.ctxKind (ctxOf x) ≠ 6 → g.stageIn x i = rest

/-- The oldest sample leaves the ingress of a context, past its IN digest. -/
def Hub.inqPopped (h : Hub) (x : Nat) (v : Samp) (rest : List Samp) : Hub :=
  { h with ctx := NMap.modify h.ctx x (fun y => { y with
    inq := rest, digIn := if h.digOn x false then y.digIn.add (h.digBlock x) (sampWord v) else y.digIn }) }

theorem Hub.popIn_pops {h : Hub} {x i : Nat} {v : Samp} {rest : List Samp} (hi : i < 8) (hin : h.stageIn x i = v :: rest) :
    ∃ g, h.popIn x i = some (v, g) ∧ h.Popped x i rest g := by
  unfold Hub.stageIn at hin
  unfold Hub.popIn
  by_cases hp : i = 0 ∧ x < 192
  · rw [if_pos hp] at hin
    rw [if_pos hp, hin]
    have hflow := (h.inqPopped x v rest).pointOut_flows x 0 v
    refine ⟨(h.inqPopped x v rest).pointOut x 0 v, rfl, hflow.cells, hflow.tile, hflow.reg,
      ⟨(h.stg' x i).inq, (hflow.around hp.2 hi).own⟩, fun hk => ?_⟩
    unfold Hub.stageIn
    rw [if_pos hp, (hflow.around hp.2 hi).inq hk hp]
    unfold Hub.inqPopped
    dsimp only
    rw [NMap.get_modify_same]
  · rw [if_neg hp] at hin
    rw [if_neg hp, hin]
    refine ⟨_, rfl, rfl, rfl, fun _ _ => rfl, ⟨rest, Hub.stg'_modStg ..⟩, fun _ => ?_⟩
    unfold Hub.stageIn
    rw [if_neg hp, Hub.stg'_modStg]

/-- A stage records the input it took. -/
def Hub.fed (h : Hub) (x i : Nat) (v : Samp) : Hub :=
  (h.modStg x i (fun s => { s with bridge := v.val })).modStg x i
    (fun s => { s with gapDue := s.gapDue || v.has tGap, lateDue := s.lateDue || v.has tLate })

theorem Hub.takeIn_takes {h : Hub} {x i kind : Nat} {v : Samp} {rest : List Samp} (hi : i < 8) (ht : h.takes x i kind v rest) :
    ∃ g, h.takeIn x i = (some v, g) ∧ h.Took x i v rest g := by
  obtain ⟨-, hin, hcal, hgap⟩ := ht
  obtain ⟨h1, hpop, hcells, htile, hreg, ⟨q, hown⟩, hnext⟩ := Hub.popIn_pops hi hin
  have hgap1 : (h1.stg' x i).calGap = false := by rw [hown]; exact hgap
  refine ⟨h1.fed x i v, ?_, hcells, htile, hreg, ⟨q, ?_⟩, fun hk => ?_⟩
  · unfold Hub.takeIn
    rw [hpop]
    dsimp only
    rw [hcal, hgap1]
    rfl
  · unfold Hub.fed
    rw [Hub.stg'_modStg, Hub.stg'_modStg, hown]
    rfl
  · rw [← hnext hk]
    unfold Hub.stageIn Hub.fed
    split
    · rfl
    · rw [Hub.stg'_modStg, Hub.stg'_modStg]

/-- A stage command whose stage runs and has an input. -/
theorem Hub.evalStage_takes {h : Hub} {x i kind : Nat} {v : Samp} {rest : List Samp} (hi : i < 8) (ht : h.takes x i kind v rest)
    (f : Hub → Samp → Hub) : ∃ g, h.evalStage x i kind noParity f = f g v ∧ h.Took x i v rest g := by
  obtain ⟨g, htake, hg⟩ := Hub.takeIn_takes hi ht
  refine ⟨g, ?_, hg⟩
  unfold Hub.evalStage
  rw [if_pos ht.1]
  change (match h.takeIn x i with | (some x, h1) => f h1 x | (none, h1) => h1) = f g v
  rw [htake]

/-! ### Stored parity -/

/-- No bad word among those a stage reads. -/
theorem Hub.checkParity_good {h : Hub} {x i : Nat} {u : Option BankUse} (hc : (NMap.get h.tile (h.stTile x i)).badCoef = [])
    (hh : ((h.stg' x i).hist.all (fun w => !w.bad)) = true) (fx : Fixed) (lo len : Nat) :
    Hub.checkParity fx h x i lo len u = (false, h) := by
  have hcoef : u.bind (h.badCoefOf x i) = none := by
    cases u with
    | none => rfl
    | some u => simp [Hub.badCoefOf, hc]
  have hdelay : (((h.stg' x i).hist.drop lo).take len).any (fun w => w.bad) = false := by
    rw [List.any_eq_false]
    intro w hw
    simpa using List.all_eq_true.1 hh w (List.mem_of_mem_drop (List.mem_of_mem_take hw))
  unfold Hub.checkParity
  simp only [hcoef, hdelay]
  rfl

/-! ### Giving an output -/

/-- A stage after it gave an output. -/
def Stage.gave (s : Stage) (v : Int) (spoilt : Bool) : Stage :=
  { s with prev := if spoilt then s.prev else toVal v, outs := s.outs + 1, gapDue := false, lateDue := false }

theorem Hub.giveOut_around {h : Hub} {x i : Nat} (hi : i < 8) (hr : h.noCtxReset (ctxOf x) i)
    (hx : x < 192 ∨ h.ctxShadow (ctxOf x) = true) (fx : Fixed) (v : Int) (limited spoilt : Bool) (tag : BitVec 8) (time : Nat) :
    (h.setStg x i ((h.stg' x i).gave v spoilt)).Around x i (Hub.giveOut fx h x i v limited spoilt tag time) := by
  unfold Hub.giveOut
  extract_lets s c val y0 y h1 h2 h3 h4
  have hbusy : h1.Around x i h2 :=
    ⟨rfl, rfl, fun u => NMap.get_modify_keep Tile.swap h1.tile (h.stTile x i) u (f := fun t => { t with busy := true }) fun _ => rfl,
      fun _ _ => rfl, fun _ _ => rfl⟩
  have hsat : h2.Sends h3 := by
    unfold h3
    split
    · exact ((Hub.Sends.refl h2).wr (f := fFabCStatusSat c) (by simp only [fFabCStatusSat, rFabCStatus]; omega) 1).present _
    · exact Hub.Sends.refl h2
  have hgave : h1.Around x i h3 := hbusy.trans (hsat.around x i)
  split
  · have hnext : h1.Around x i h4 := hgave.trans (h3.modStg_around x i _)
    split
    · rename_i hp
      exact hnext.trans ((h4.pointOut_flows x (i + 1) y).around hp hi)
    · exact hnext
  · rename_i hlast
    have hcells : h3.cells = h.cells := hgave.cells
    have hcmp : h3.ctxShadow (ctxOf x) = false ∨ h3.cf 5 (32 + ctxOf x) 0 22 2 ≠ 2 := by
      rw [Hub.ctxStages_congr hcells] at hlast
      rw [Hub.ctxShadow_congr hcells, Hub.cf_congr hcells]
      exact hr.imp_right fun hr => hr.resolve_left hlast
    have hcopy : x < 192 ∨ h3.ctxShadow (ctxOf x) = true := by rwa [Hub.ctxShadow_congr hcells]
    split
    · rename_i hp
      have hflow := h3.pointOut_flows x (i + 1) y
      refine (hgave.trans (hflow.around hp hi)).trans ((Hub.lastOutput_sends ?_ (.inl hp) fx y).around x i)
      rwa [Hub.ctxShadow_congr hflow.cells, Hub.cf_congr hflow.cells]
    · exact hgave.trans ((Hub.lastOutput_sends hcmp hcopy fx y).around x i)

/-- An output during a swap changes of the stages only how far they switched. -/
theorem Hub.swapOutput_frame (h : Hub) (x i : Nat) (fir : Bool) : h.SwapFrame (h.swapOutput x i fir) := by
  unfold Hub.swapOutput
  dsimp only
  split
  · exact Hub.SwapFrame.refl h
  · exact ((Hub.SwapFrame.refl h).stg (8 * x + i) (f := fun s => { s with
      swOuts := s.swOuts + 1, switched := s.switched || !fir || decide (_ ≤ s.swOuts + 1) }) fun _ => rfl).trans
      (Hub.endSwap_frame 2 _ (h.stTile_lt x i))

end Sys2Proof.Machine
end

section
/-! SUPPORT. What one input makes a FIR stage, a sieve and the averager do (R175, R177, R179, R180, R184, R189). -/

namespace Sys2Proof.Machine
open Sys2Proof

/-! ### The chain a command names -/

@[simp] theorem ctxOf_chainOf (c : Fin 192) (sh : Bool) : ctxOf (chainOf c sh) = c := by
  unfold ctxOf chainOf
  split <;> omega

/-- Only the copies of a context with a shadow run. -/
theorem Hub.stUp_copy {h : Hub} {x i kind : Nat} (hup : h.stUp x i kind = true) (hkind : kind ≠ 0) :
    x < 192 ∨ h.ctxShadow (ctxOf x) = true := by
  simp only [Hub.stUp, Bool.and_eq_true, beq_iff_eq] at hup
  obtain ⟨⟨⟨-, hk⟩, -⟩, -⟩ := hup
  unfold Hub.stKind at hk
  split at hk
  · rename_i hon
    simp only [Bool.and_eq_true, Bool.or_eq_true, decide_eq_true_eq] at hon
    exact hon.2
  · exact absurd hk.symm hkind

/-! ### The stage after its input -/

@[simp] theorem latchIrq_stg' (h0 : Hub) (m0 : Met) (h : Hub) (m : Met) (x i : Nat) : (latchIrq h0 m0 h m).stg' x i = h.stg' x i := by
  unfold Hub.stg'
  rw [latchIrq_stg]

@[simp] theorem latchIrq_stageIn (h0 : Hub) (m0 : Met) (h : Hub) (m : Met) (x i : Nat) :
    (latchIrq h0 m0 h m).stageIn x i = h.stageIn x i := by
  unfold Hub.stageIn
  rw [latchIrq_stg', latchIrq_ctx]

/-- What waits for a stage stays while the rest of it changes. -/
theorem Hub.stageIn_setStg {h : Hub} {x i : Nat} {s : Stage} (hs : s.inq = (h.stg' x i).inq) :
    (h.setStg x i s).stageIn x i = h.stageIn x i := by
  unfold Hub.stageIn
  rw [Hub.stg'_setStg, hs]
  rfl

theorem Hub.SwapFrame.stageIn {h g : Hub} (hg : h.SwapFrame g) (x i : Nat) : g.stageIn x i = h.stageIn x i := by
  unfold Hub.stageIn
  rw [hg.ctx, show (g.stg' x i).inq = (h.stg' x i).inq from Stage.eq_of_apartSwap (hg.stage _) Stage.inq]

/-- A delay line of good words takes a good word. -/
theorem Stage.shift_good {s : Stage} (hs : (s.hist.all (fun w => !w.bad)) = true) (n : Nat) (v : Samp) :
    ((s.shift n v).hist.all (fun w => !w.bad)) = true := by
  rw [List.all_eq_true] at hs ⊢
  intro w hw
  rcases List.mem_cons.1 (List.mem_of_mem_take hw) with rfl | hw
  · rfl
  · exact hs w hw

namespace Hub.Took

variable {x i : Nat} {v : Samp} {rest : List Samp} {h g k : Hub}

theorem rd (hg : h.Took x i v rest g) {f : Fld} (hf : f.addr < 0xA0000) : g.rd f = h.rd f := Hub.rd_congr (hg.reg _ hf)

/-- The words of the stage are good still. -/
theorem parity (hg : h.Took x i v rest g) (hp : h.parityGood x i) (fx : Fixed) (n lo len : Nat) (u : Option BankUse) :
    Hub.checkParity fx (g.modStg x i (fun s => s.shift n v)) x i lo len u = (false, g.modStg x i (fun s => s.shift n v)) := by
  obtain ⟨hcoef, hhist, -⟩ := hp
  obtain ⟨q, hown⟩ := hg.own
  refine Hub.checkParity_good ?_ ?_ fx lo len
  · have htile : (g.modStg x i (fun s => s.shift n v)).stTile = h.stTile := Hub.stTile_congr hg.cells
    rw [htile, ← hcoef, ← hg.tile]
    rfl
  · rw [Hub.stg'_modStg, hown]
    exact Stage.shift_good hhist n v

/-- What the stage takes next, where only its own record changed since. -/
theorem stageIn (hg : h.Took x i v rest g) {s : Stage} (hs : s.inq = (g.stg' x i).inq) (hk : h.ctxKind (ctxOf x) ≠ 6) :
    (g.setStg x i s).stageIn x i = rest := (Hub.stageIn_setStg hs).trans (hg.next hk)

end Hub.Took

/-- The stage gives an output, its record being `s` before. -/
theorem Hub.Took.gives {x i kind : Nat} {v : Samp} {rest : List Samp} {h g k : Hub} {s : Stage} (hg : h.Took x i v rest g)
    (hi : i < 8) (hup : h.stUp x i kind = true) (hkind : kind ≠ 0) (hr : h.noCtxReset (ctxOf x) i)
    (hs : s.inq = (g.stg' x i).inq) (hcells : k.cells = g.cells) (hstg : k.stg' x i = s) (hctx : k.ctx = g.ctx)
    (fx : Fixed) (y : Int) (lim spoilt : Bool) (tag : BitVec 8) (time : Nat) :
    (Hub.giveOut fx k x i y lim spoilt tag time).stg' x i = s.gave y spoilt ∧
      (h.ctxKind (ctxOf x) ≠ 6 → (Hub.giveOut fx k x i y lim spoilt tag time).stageIn x i = rest) ∧
      ∀ f : Fld, f.addr < 0xA0000 → (Hub.giveOut fx k x i y lim spoilt tag time).rd f = k.rd f := by
  have hsame : k.cells = h.cells := hcells.trans hg.cells
  have hr' : k.noCtxReset (ctxOf x) i := by
    unfold Hub.noCtxReset
    rwa [Hub.ctxShadow_congr hsame, Hub.ctxStages_congr hsame, Hub.cf_congr hsame]
  have hx : x < 192 ∨ k.ctxShadow (ctxOf x) = true := by
    rw [Hub.ctxShadow_congr hsame]
    exact Hub.stUp_copy hup hkind
  have hout := Hub.giveOut_around hi hr' hx fx y lim spoilt tag time
  refine ⟨?_, fun hk => ?_, fun f hf => hout.rd hf⟩
  · rw [hout.own, Hub.stg'_setStg, hstg]
  · have hsetcells : (k.setStg x i ((k.stg' x i).gave y spoilt)).ctxKind (ctxOf x) ≠ 6 := by
      rwa [Hub.ctxKind_congr (h := h) (g := k.setStg x i _) hsame]
    rw [hout.stageIn hsetcells, Hub.stageIn_setStg (by rfl), ← hg.next hk]
    unfold Hub.stageIn
    rw [hctx, hstg, hs]

/-! ### FIR (R175) -/

/-- The value of a FIR stage's output: the products of its coefficients in use with its newest inputs, rounded and limited, or their
magnitude. -/
def Hub.firOut (h : Hub) (x i : Nat) (s : Stage) (u : BankUse) : Int :=
  let r := (outShift (macSum (s.hist.mapIdx (fun k w => (h.coefOf (h.stTile x i) (h.coefOff x i + k) u, valOf w.samp.val)))).1
    (h.stShift x i)).1
  if h.sc x i 0 15 1 = 1 then (sat24 (if r < 0 then -r else r)).1 else r

theorem Hub.firOut_congr {h g : Hub} (e : g.cells = h.cells) : g.firOut = h.firOut := by
  have hcoef : ∀ t k u, g.coefOf t k u = h.coefOf t k u := fun t k u => by
    cases u <;> simp only [Hub.coefOf, Hub.coef, Hub.cf_congr e]
  funext x i s u
  simp only [Hub.firOut, hcoef, Hub.coefOff, Hub.stShift, Hub.sc_congr e, Hub.stTile_congr e]
  rfl

/-- The words a stage reads depend on the cells, its tile's swap and bank, and how far it switched. -/
theorem Hub.bankUse_congr {h g : Hub} {x i : Nat} (hcells : g.cells = h.cells) (htile : g.tile = h.tile)
    (hreg : ∀ a < 0xA0000, g.reg a = h.reg a) (hsw : (g.stg' x i).switched = (h.stg' x i).switched)
    (hout : (g.stg' x i).swOuts = (h.stg' x i).swOuts) (fir : Bool) : g.bankUse x i fir = h.bankUse x i fir := by
  have hact : g.rd (fFabTStatusBankAct (h.stTile x i)) = h.rd (fFabTStatusBankAct (h.stTile x i)) := by
    refine Hub.rd_congr (hreg _ ?_)
    have ht := h.stTile_lt x i
    simp only [fFabTStatusBankAct, rFabTStatus]
    omega
  simp only [Hub.bankUse, Hub.stTile_congr hcells, htile, hact, hsw, hout]

/-- The newest input of an output's window is the input `n`. -/
abbrev Hub.firDue (h : Hub) (x i n : Nat) : Prop := h.sc x i 4 10 10 ≤ n ∧ (n - h.sc x i 4 10 10) % (h.sc x i 4 0 10 + 1) = 0

/-- A FIR stage between outputs. -/
theorem Hub.firTake_rests {g : Hub} {x i : Nat} (hd : ¬g.firDue x i (g.stg' x i).n) (fx : Fixed) (v : Samp) :
    Hub.firTake fx x i g v = g.modStg x i (fun s => s.shift (g.coefLen x i) v) := by
  unfold Hub.firTake
  extract_lets n df ph h1 s idx
  have hidx : idx = (g.stg' x i).n := by
    unfold idx s h1
    rw [Hub.stg'_modStg]
    rfl
  rw [if_neg (by rwa [hidx])]

/-- A FIR stage at an output, what its parity check found being `pc`. -/
theorem Hub.firTake_outputs {g : Hub} {x i : Nat} (hd : g.firDue x i (g.stg' x i).n) (fx : Fixed) (v : Samp) {pc : Bool × Hub}
    (hpc : Hub.checkParity fx (g.modStg x i (fun s => s.shift (g.coefLen x i) v)) x i 0 (g.coefLen x i)
      (some ((g.modStg x i (fun s => s.shift (g.coefLen x i) v)).bankUse x i true)) = pc) :
    ∃ lim tag k, (k = pc.2 ∨ k = pc.2.countSat (fFabTScntEvents (g.stTile x i) (g.stSlot x i)) 1) ∧
      Hub.firTake fx x i g v = (Hub.giveOut fx k x i (g.firOut x i ((g.stg' x i).shift (g.coefLen x i) v)
        ((g.modStg x i (fun s => s.shift (g.coefLen x i) v)).bankUse x i true)) lim pc.1 tag v.time).swapOutput x i true := by
  unfold Hub.firTake
  extract_lets n df ph h1 s idx u t o acc r y lim pc' tag h2
  have hs : s = (g.stg' x i).shift n v := Hub.stg'_modStg ..
  have hidx : idx = (g.stg' x i).n := by
    unfold idx
    rw [hs]
    rfl
  have hpc' : pc' = pc := hpc
  have hy : y.1 = g.firOut x i ((g.stg' x i).shift n v) u := by
    rw [← Hub.firOut_congr (g := h1) (h := g) rfl, ← hs]
    unfold y
    split
    · rename_i hmag
      unfold Hub.firOut
      dsimp only
      rw [if_pos hmag]
    · rename_i hmag
      unfold Hub.firOut
      dsimp only
      rw [if_neg hmag]
  refine ⟨lim, tag, h2, ?_, ?_⟩
  · unfold h2
    rw [hpc']
    split
    · exact .inr rfl
    · exact .inl rfl
  · rw [if_pos (by rwa [hidx]), hpc', hy]

/-- What an output of a FIR stage leaves of it, its parity check having found `pc`. -/
theorem Hub.Took.fir {x i : Nat} {v : Samp} {rest : List Samp} {h g : Hub} (hg : h.Took x i v rest g) (hi : i < 8)
    (hup : h.stUp x i 1 = true) (hr : h.noCtxReset (ctxOf x) i) (hd : h.firDue x i (h.stg' x i).n) (fx : Fixed) {pc : Bool × Hub}
    (hpc : Hub.checkParity fx (g.modStg x i (fun s => s.shift (h.coefLen x i) v)) x i 0 (h.coefLen x i)
      (some (h.bankUse x i true)) = pc)
    (hcells : pc.2.cells = g.cells) (hstg : pc.2.stg' x i = (g.stg' x i).shift (h.coefLen x i) v) (hctx : pc.2.ctx = g.ctx) :
    let r := Hub.firTake fx x i g v
    (r.stg' x i).prev = (if pc.1 then (h.stg' x i).prev
      else toVal (h.firOut x i ((h.stg' x i).shift (h.coefLen x i) v) (h.bankUse x i true))) ∧
      (r.stg' x i).n = (h.stg' x i).n + 1 ∧ (r.stg' x i).outs = (h.stg' x i).outs + 1 ∧
      (h.ctxKind (ctxOf x) ≠ 6 → r.stageIn x i = rest) ∧
      ∀ f : Fld, f.addr < 0xA0000 → f.offSwap → f.addr ≠ rFabTScnt (h.stTile x i) (h.stSlot x i) → r.rd f = pc.2.rd f := by
  obtain ⟨q, hown⟩ := hg.own
  have hlen : g.coefLen x i = h.coefLen x i := by simp only [Hub.coefLen, Hub.sc_congr hg.cells]
  have hdue : g.firDue x i (g.stg' x i).n := by
    unfold Hub.firDue
    rw [Hub.sc_congr hg.cells, hown]
    exact hd
  have huse : (g.modStg x i (fun s => s.shift (h.coefLen x i) v)).bankUse x i true = h.bankUse x i true := by
    refine Hub.bankUse_congr (g := g.modStg x i _) hg.cells hg.tile hg.reg ?_ ?_ true <;> rw [Hub.stg'_modStg, hown] <;> rfl
  obtain ⟨lim, tag, k, hk, htake⟩ := Hub.firTake_outputs hdue fx v (pc := pc) (by rw [hlen, huse, hpc])
  have hkcells : k.cells = g.cells := by rcases hk with rfl | rfl <;> exact hcells
  have hkstg : k.stg' x i = (g.stg' x i).shift (h.coefLen x i) v := by rcases hk with rfl | rfl <;> exact hstg
  have hkctx : k.ctx = g.ctx := by rcases hk with rfl | rfl <;> exact hctx
  obtain ⟨hgave, hnext, hrd⟩ := hg.gives hi hup (by decide) hr (s := (g.stg' x i).shift (h.coefLen x i) v) rfl hkcells hkstg hkctx fx
    (h.firOut x i ((g.stg' x i).shift (h.coefLen x i) v) (h.bankUse x i true)) lim pc.1 tag v.time
  rw [hlen, huse, Hub.firOut_congr hg.cells] at htake
  have hframe := Hub.swapOutput_frame (Hub.giveOut fx k x i (h.firOut x i ((g.stg' x i).shift (h.coefLen x i) v)
    (h.bankUse x i true)) lim pc.1 tag v.time) x i true
  have hstage := hframe.stage (8 * x + i)
  rw [show NMap.get _ (8 * x + i) = _ from hgave] at hstage
  dsimp only
  rw [htake]
  refine ⟨(Stage.eq_of_apartSwap hstage Stage.prev).trans ?_, (Stage.eq_of_apartSwap hstage Stage.n).trans ?_,
    (Stage.eq_of_apartSwap hstage Stage.outs).trans ?_, fun hkind => (hframe.stageIn x i).trans (hnext hkind), fun f hlow hoff hne => ?_⟩
  · rw [hown]
    rfl
  · rw [hown]
    rfl
  · rw [hown]
    rfl
  · rw [hframe.rd f hoff, hrd f hlow]
    rcases hk with rfl | rfl
    · rfl
    · rw [Hub.stTile_congr hg.cells, Hub.stSlot_congr hg.cells]
      exact Hub.rd_wr_addr _ _ hne

/-- What a tile shows of a bad coefficient word. -/
def Hub.parShown (h : Hub) (t k : Nat) : Hub :=
  (((h.on (fFabTStatusParCoef t)).countSat (fFabTCountParCoef t) 1).wr (fFabTParAddrMem t) (1 + k / 512)).wr (fFabTParAddrAddr t)
    (k % 512)

/-- A coefficient word is among those reported. -/
def Hub.coefNoted (h : Hub) (t k : Nat) : Hub := { h with flt := { h.flt with coefSeen := h.flt.coefSeen ++ [1024 * t + k] } }

theorem Hub.parCoef_eq (h : Hub) (t k : Nat) : h.parCoef t k =
    let h1 := h.parShown t k
    if h1.flt.coefSeen.contains (1024 * t + k) then h1
    else (h1.coefNoted t k).fault 0x20 t 0xC2 (w32 (k % 512)) (w32 (k / 512)) := rfl

theorem Hub.coefNoted_fault_rd (h : Hub) (t k code unit src : Nat) (d7 d8 : Word) {f : Fld} (hf : f.addr < 0x1F8000) :
    ((h.coefNoted t k).fault code unit src d7 d8).rd f = h.rd f := by
  rw [Hub.fault_rd _ _ _ _ _ _ (.inl hf)]
  exact Hub.rd_congr (Hub.reg_congr rfl _)

theorem Hub.parCoef_rd (h : Hub) (t k : Nat) {f : Fld} (hf : f.addr < 0x1F8000) :
    (h.parCoef t k).rd f = (h.parShown t k).rd f := by
  rw [Hub.parCoef_eq]
  dsimp only
  split
  · rfl
  · exact Hub.coefNoted_fault_rd _ _ _ _ _ _ _ _ hf

/-- A bad coefficient word is reported: its flag and its place. -/
theorem Hub.parShown_shows (h : Hub) (t k : Nat) : (h.parShown t k).is (fFabTStatusParCoef t) = true ∧
    (h.parShown t k).rd (fFabTParAddrAddr t) = k % 512 ∧ (h.parShown t k).rd (fFabTParAddrMem t) = (1 + k / 512) % 4 := by
  have hplace : rFabTStatus t ≠ rFabTParAddr t := by simp
  have hcount : rFabTStatus t ≠ rFabTCount t := by simp
  have hmem : (fFabTParAddrAddr t).apart (fFabTParAddrMem t) := by simp [Fld.apart, fFabTParAddrAddr, fFabTParAddrMem]
  unfold Hub.parShown
  refine ⟨?_, ?_, ?_⟩
  · calc _ = (h.on (fFabTStatusParCoef t)).is (fFabTStatusParCoef t) := Hub.is_congr
          (((Hub.rd_wr_addr (f := fFabTParAddrAddr t) (g := fFabTStatusParCoef t) _ _ hplace).trans
            (Hub.rd_wr_addr (f := fFabTParAddrMem t) (g := fFabTStatusParCoef t) _ _ hplace)).trans
            (Hub.rd_wr_addr (f := fFabTCountParCoef t) (g := fFabTStatusParCoef t) _ _ hcount))
      _ = true := Hub.is_on_same _ (by simp [fFabTStatusParCoef]) (by simp [fFabTStatusParCoef])
  · rw [Hub.rd_wr_same _ _ (by simp [fFabTParAddrAddr])]
    simp only [fFabTParAddrAddr]
    omega
  · rw [Hub.rd_wr_apart _ _ hmem, Hub.rd_wr_same _ _ (by simp [fFabTParAddrMem])]
    simp only [fFabTParAddrMem]
    omega

/-- What a tile shows of bad coefficient words stands beside what shows its swaps. -/
theorem offSwap_of_parity {t : Nat} {f : Fld} (hf : f ∈ [fFabTStatusParCoef t, fFabTParAddrAddr t, fFabTParAddrMem t]) :
    f.offSwap := by
  intro u _ g hg
  simp only [swapFlds, shownFlds, List.mem_cons, List.not_mem_nil, or_false] at hf hg
  rcases hf with rfl | rfl | rfl <;> rcases hg with rfl | rfl | rfl | rfl | rfl | rfl | rfl <;>
    simp only [Fld.apart, fFabTStatusBankAct, fFabTFadeIdle, fFabTStatusParCoef, fFabTParAddrAddr, fFabTParAddrMem,
      fFabTStatusFading, fFabTStatusSwapPend, fFabTFadeLeft, fFabTFadeWaitBank, fFabTFadeWaitLen, rFabTStatus, rFabTFade,
      rFabTParAddr] <;> omega

@[simp] theorem Hub.parCoef_cells (h : Hub) (t k : Nat) : (h.parCoef t k).cells = h.cells := by
  unfold Hub.parCoef
  dsimp only
  split <;> simp

@[simp] theorem Hub.parCoef_stg (h : Hub) (t k : Nat) : (h.parCoef t k).stg = h.stg := by
  unfold Hub.parCoef
  dsimp only
  split <;> simp

@[simp] theorem Hub.parCoef_ctx (h : Hub) (t k : Nat) : (h.parCoef t k).ctx = h.ctx := by
  unfold Hub.parCoef
  dsimp only
  split <;> simp

/-- The words a stage reads hold a bad coefficient, and its delay line none. -/
theorem Hub.Took.parCoef {x i : Nat} {v : Samp} {rest : List Samp} {h g : Hub} (hg : h.Took x i v rest g)
    (hh : ((h.stg' x i).hist.all (fun w => !w.bad)) = true) {u : BankUse} {k : Nat} (hk : h.badCoefOf x i u = some k) (fx : Fixed)
    (n lo len : Nat) : Hub.checkParity fx (g.modStg x i (fun s => s.shift n v)) x i lo len (some u) =
      (true, (g.modStg x i (fun s => s.shift n v)).parCoef (h.stTile x i) k) := by
  obtain ⟨q, hown⟩ := hg.own
  have hcells : (g.modStg x i (fun s => s.shift n v)).cells = h.cells := hg.cells
  have hbad : (g.modStg x i (fun s => s.shift n v)).badCoefOf x i u = some k := by
    rw [← hk]
    simp only [Hub.badCoefOf, Hub.coefOff, Hub.coefLen, Hub.sc_congr hcells, Hub.stTile_congr hcells]
    rw [← hg.tile]
    rfl
  have hline : ∀ a : Hub, a.stg' x i = (g.stg' x i).shift n v →
      (((a.stg' x i).hist.drop lo).take len).any (fun w => w.bad) = false := by
    intro a ha
    rw [ha, hown, List.any_eq_false]
    intro w hw
    simpa using List.all_eq_true.1 (Stage.shift_good hh n v) w (List.mem_of_mem_drop (List.mem_of_mem_take hw))
  have hstg : ((g.modStg x i (fun s => s.shift n v)).parCoef (h.stTile x i) k).stg' x i = (g.stg' x i).shift n v := by
    unfold Hub.stg'
    rw [Hub.parCoef_stg]
    exact Hub.stg'_modStg ..
  unfold Hub.checkParity
  simp only [Option.bind_some, hbad, Hub.stTile_congr hcells, hline _ hstg]
  rfl

/-! ### Sieve (R177) -/

/-- A sieve whose centre has arrived: the centre of a window not yet full, or the sieve's decision on that of a full one. -/
theorem Hub.sieveTake_gives {g : Hub} {x i : Nat} {v : Samp} (fx : Fixed)
    (hc : (g.sc x i 4 0 5 - 1) / 2 ≤ (g.stg' x i).n)
    (hpc : Hub.checkParity fx (g.modStg x i (fun s => s.shift (g.sc x i 4 0 5) v)) x i 0 (g.sc x i 4 0 5) none =
      (false, g.modStg x i (fun s => s.shift (g.sc x i 4 0 5) v))) :
    let s := (g.stg' x i).shift (g.sc x i 4 0 5) v
    let n := (g.stg' x i).n - (g.sc x i 4 0 5 - 1) / 2
    ∃ k tag time, k.cells = g.cells ∧ k.stg' x i = s ∧ k.ctx = g.ctx ∧ Hub.sieveTake fx x i g v = Hub.giveOut fx k x i
      (if n < (g.sc x i 4 0 5 - 1) / 2 then s.valAt n else (sieveTest (g.sc x i 4 8 8) (g.sc x i 5 0 24) (s.valAt n)
        (s.hist.map (fun w => valOf w.samp.val))).1) false false tag time := by
  unfold Hub.sieveTake
  extract_lets s0 n w hw h1 s idx n' pc tags r h2
  have hs : s = s0 := Hub.stg'_modStg ..
  have hidx : idx = (g.stg' x i).n := by
    unfold idx
    rw [hs]
    rfl
  have hn : n' = n := by
    unfold n' n
    rw [hidx]
  have hpc' : pc = (false, h1) := hpc
  rw [if_pos (by rwa [hidx]), hn, hs, hpc']
  split
  · exact ⟨h1, _, _, rfl, hs, rfl, rfl⟩
  · have hr : r = sieveTest (g.sc x i 4 8 8) (g.sc x i 5 0 24) (s0.valAt n) (s0.hist.map (fun w => valOf w.samp.val)) := by
      unfold r
      rw [hn, hs]
      rfl
    refine ⟨h2, tags, s0.timeAt n, ?_, ?_, ?_, by rw [hr]⟩ <;> unfold h2 <;> rw [hpc'] <;> split
    · rfl
    · rfl
    · exact hs
    · exact hs
    · rfl
    · rfl

theorem Hub.sieveTake_rests {g : Hub} {x i : Nat} (hc : (g.stg' x i).n < (g.sc x i 4 0 5 - 1) / 2) (fx : Fixed) (v : Samp) :
    Hub.sieveTake fx x i g v = g.modStg x i (fun s => s.shift (g.sc x i 4 0 5) v) := by
  unfold Hub.sieveTake
  extract_lets w hw h1 s idx
  have hidx : idx = (g.stg' x i).n := by
    unfold idx s h1
    rw [Hub.stg'_modStg]
    rfl
  rw [if_neg (by rw [hidx]; omega)]

/-! ### Settling averager (R179, R180) -/

/-- The averager's stage at a run start that discards the block. -/
def Stage.blockLeft (s : Stage) : Stage := { s with sum := 0, cnt := 0, inBlk := 0, orTag := 0#8, gapDue := true }

/-- The averager's stage takes an input into its block. -/
def Stage.piece (s : Stage) (x : Samp) : Stage :=
  { s with
    n := s.n + 1
    sum := if !x.has tSettle then s.sum + valOf x.val else s.sum
    cnt := if !x.has tSettle then s.cnt + 1 else s.cnt
    inBlk := s.inBlk + 1
    orTag := if !x.has tSettle then s.orTag ||| x.tag else s.orTag
    badW := [], blkBad := s.inBlk != 0 && s.blkBad
    wasSettle := x.has tSettle }

/-- The averager's stage with its block done. -/
def Stage.blockDone (s : Stage) : Stage := { s with sum := 0, cnt := 0, inBlk := 0, orTag := 0#8, blkBad := false }

/-- An input is the first of a settled run, where blocks are aligned to runs. -/
def Hub.runStart (h : Hub) (x i : Nat) (v : Samp) : Bool := h.sc x i 4 16 1 == 1 && v.has tSettle && !(h.stg' x i).wasSettle

/-- The averager's stage with an input more in its block. -/
def Hub.pieceOf (h : Hub) (x i : Nat) (v : Samp) : Stage :=
  (if h.runStart x i v && (h.stg' x i).inBlk != 0 then (h.stg' x i).blockLeft else h.stg' x i).piece v

theorem Hub.settleTake_eq {g : Hub} {x i : Nat} {v : Samp} (hw : (g.stg' x i).badW = []) (fx : Fixed) :
    Hub.settleTake fx x i g v =
      let s := g.pieceOf x i v
      let h1 := g.setStg x i s.blockDone
      if s.inBlk < g.sc x i 4 0 16 + 1 then g.setStg x i s
      else if s.cnt = 0 then Hub.giveOut fx h1 x i (valOf s.prev) false s.blkBad tSettle v.time
      else Hub.giveOut fx h1 x i ((2 * s.sum + (s.cnt : Int)) / (2 * (s.cnt : Int))) false s.blkBad (s.orTag &&& passMask) v.time := by
  have hgood : ∀ b : Bool, (if b = true then (g.stg' x i).blockLeft else g.stg' x i).badW = [] := by
    intro b
    cases b
    · exact hw
    · exact hw
  unfold Hub.settleTake
  extract_lets m align s0 runStart s1 met h0 keep s2 k1 n s h1
  have hs1 : s1 = if g.runStart x i v && (g.stg' x i).inBlk != 0 then (g.stg' x i).blockLeft else g.stg' x i := rfl
  have hmet : met = false := by
    unfold met
    rw [hs1, hgood]
    simp
  have hs2 : s2 = g.pieceOf x i v := by
    unfold s2 Hub.pieceOf Stage.piece
    rw [hmet, hs1]
    rfl
  have hh0 : h0 = g := by
    unfold h0
    rw [hmet]
    rfl
  have hk1 : k1 = h1 := by
    unfold k1 h1
    rw [hh0, hs2]
    rfl
  have hn : n = (s.cnt : Int) := by
    unfold n
    rw [hs2]
  rw [hs2, hh0, hk1, hn]

end Sys2Proof.Machine
end

section
/-! SUPPORT. What one input makes a RESAMPLE and a DELAY stage do (R196, R197, R199, R200, R202). -/

namespace Sys2Proof.Machine
open Sys2Proof

/-! ### The interpolator at phase 0 (R196) -/

theorem valOf_bounds (v : BitVec 24) : -8388608 ≤ valOf v ∧ valOf v ≤ 8388607 := by
  have hlo := BitVec.le_toInt v
  have hhi := BitVec.toInt_lt (x := v)
  unfold valOf
  norm_num at hlo hhi
  omega

@[simp] theorem toVal_valOf (v : BitVec 24) : toVal (valOf v) = v := BitVec.ofInt_toInt

theorem Stage.valAt_bounds (s : Stage) (j : Int) : -8388608 ≤ s.valAt j ∧ s.valAt j ≤ 8388607 := by
  unfold Stage.valAt
  split
  · exact valOf_bounds _
  · omega

/-- One addition to the accumulator (R153). -/
def macStep (a : Int × Bool) (p : Int × Int) : Int × Bool :=
  let r := sat56 (a.1 + p.1 * p.2)
  (r.1, a.2 || r.2)

theorem macSum_eq (ps : List (Int × Int)) : macSum ps = ps.foldl macStep (0, false) := rfl

/-- An addition within the accumulator's range. -/
theorem macStep_fits {a : Int} {p : Int × Int}
    (ha : -36028797018963968 ≤ a + p.1 * p.2 ∧ a + p.1 * p.2 ≤ 36028797018963967) (b : Bool) :
    macStep (a, b) p = (a + p.1 * p.2, b) := by
  obtain ⟨hlo, hhi⟩ := ha
  unfold macStep sat56
  rw [if_neg (by omega), if_neg (by omega)]
  dsimp only
  rw [Bool.or_false]

/-- Products with zero coefficients add nothing. -/
theorem foldl_macStep_zeros {l : List (Int × Int)} (hl : ∀ p ∈ l, p.1 = 0) {a : Int}
    (ha : -36028797018963968 ≤ a ∧ a ≤ 36028797018963967) (b : Bool) : l.foldl macStep (a, b) = (a, b) := by
  induction l with
  | nil => rfl
  | cons p l ih =>
    have hp : a + p.1 * p.2 = a := by rw [hl p List.mem_cons_self, Int.zero_mul, Int.add_zero]
    rw [List.foldl_cons, macStep_fits (by rwa [hp]), hp]
    exact ih fun q hq => hl q (List.mem_cons_of_mem _ hq)

/-- At phase 0 the interpolated value is the input at the position itself. -/
theorem Stage.interp_zero (s : Stage) (m : Int) : (s.interp m 0).1 = s.valAt m := by
  have hbounds := s.valAt_bounds m
  have hrange : List.range 32 = List.range 16 ++ 16 :: List.range' 17 15 := by decide
  have hzeros : ∀ l : List Nat, 16 ∉ l →
      ∀ p ∈ l.map (fun (i : Nat) => (romAt 0 i, s.valAt (m + 16 - (i : Int)))), p.1 = 0 := by
    intro l hl p hp
    obtain ⟨i, hi, rfl⟩ := List.mem_map.1 hp
    have hne : i ≠ 16 := fun e => hl (e ▸ hi)
    simp [romAt, hne]
  have hsum : macSum ((List.range 32).map (fun (i : Nat) => (romAt 0 i, s.valAt (m + 16 - (i : Int))))) =
      (4194304 * s.valAt m, false) := by
    have hcenter : (romAt 0 16, s.valAt (m + 16 - ((16 : Nat) : Int))) = (4194304, s.valAt m) := by
      rw [show m + 16 - ((16 : Nat) : Int) = m by omega]
      rfl
    have hleft := foldl_macStep_zeros (hzeros (List.range 16) (by decide)) (a := 0) (by omega) false
    have hstep : macStep (0, false) (4194304, s.valAt m) = (4194304 * s.valAt m, false) := by
      rw [macStep_fits (by dsimp only; omega), Int.zero_add]
    rw [macSum_eq, hrange, List.map_append, List.map_cons, hcenter, List.foldl_append, List.foldl_cons, hleft, hstep]
    exact foldl_macStep_zeros (hzeros (List.range' 17 15) (by decide)) (by omega) false
  unfold Stage.interp
  dsimp only
  rw [hsum]
  unfold outShift sat24
  rw [if_neg (by decide)]
  dsimp only
  have hround : (4194304 * s.valAt m + (2 : Int) ^ (22 - 1)) / (2 : Int) ^ 22 = s.valAt m := by
    norm_num
    omega
  rw [hround, if_neg (by omega), if_neg (by omega)]

/-! ### RESAMPLE (R199, R200) -/

theorem Hub.outAt_gives {k : Hub} {x i : Nat} (fx : Fixed) (hpc : ∀ lo len, Hub.checkParity fx k x i lo len none = (false, k)) (p : Nat)
    (extra : BitVec 8) (time : Nat) : ∃ lim tag, Hub.outAt fx x i k p extra time =
      Hub.giveOut fx k x i ((k.stg' x i).interp (roundPos p).1 (roundPos p).2).1 lim false tag time := by
  unfold Hub.outAt
  extract_lets s mp r pc tag
  have hpc' : pc = (false, k) := hpc ..
  rw [hpc']
  exact ⟨_, _, rfl⟩

theorem Hub.fixedRun_rests {k : Hub} {x i : Nat} (hp : (k.stg' x i).n ≤ (k.stg' x i).pos / 16777216 + 16) (fx : Fixed) (r fuel : Nat) :
    Hub.fixedRun fx x i r fuel k = k := by
  cases fuel with
  | zero => rfl
  | succ fuel =>
    have hnot : (k.stg' x i).reached (k.stg' x i).pos = false := by
      simp only [Stage.reached, decide_eq_false_iff_not]
      omega
    unfold Hub.fixedRun
    dsimp only
    rw [hnot]
    rfl

theorem Hub.fixedRun_reached {k : Hub} {x i : Nat} (hp : (k.stg' x i).pos / 16777216 + 16 < (k.stg' x i).n) (fx : Fixed) (r fuel : Nat) :
    Hub.fixedRun fx x i r (fuel + 1) k = Hub.fixedRun fx x i r fuel ((Hub.outAt fx x i k (k.stg' x i).pos 0#8
      ((k.stg' x i).timePos (k.stg' x i).pos)).modStg x i (fun y => { y with pos := y.pos + r })) := by
  have hreached : (k.stg' x i).reached (k.stg' x i).pos = true := by
    simp only [Stage.reached, decide_eq_true_eq]
    exact hp
  rw [Hub.fixedRun]
  dsimp only
  rw [if_pos hreached]

theorem Hub.gridRun_rests {t1 tau : Nat} (ht : t1 ≤ tau) (fx : Fixed) (x i m t0 tg fuel : Nat) (k : Hub) :
    Hub.gridRun fx x i m t0 t1 tg fuel tau k = k := by
  cases fuel with
  | zero => rfl
  | succ fuel =>
    unfold Hub.gridRun
    rw [if_neg (by omega)]

/-- The one grid time of an interval. -/
theorem Hub.gridRun_one {t1 tg tau : Nat} (ht : tau < t1) (hnext : t1 ≤ tau + tg) (fx : Fixed) (x i m t0 fuel : Nat) (k : Hub) :
    Hub.gridRun fx x i m t0 t1 tg (fuel + 1) tau k =
      Hub.outAt fx x i k (m * 16777216 + (2 * (tau - t0) * 16777216 + (t1 - t0)) / (2 * (t1 - t0))) 0#8 tau := by
  rw [Hub.gridRun]
  dsimp only
  rw [if_pos ht, Hub.gridRun_rests hnext]

theorem Hub.rateOf_congr {h g : Hub} (e : g.cells = h.cells) (fuel c : Nat) : Hub.rateOf fuel g c = Hub.rateOf fuel h c := by
  induction fuel generalizing c with
  | zero => rfl
  | succ fuel ih =>
    have hslot : g.slotOfCtx c = h.slotOfCtx c := by simp only [Hub.slotOfCtx, e]
    have hfield : g.fieldOfCtx c = h.fieldOfCtx c := by simp only [Hub.fieldOfCtx, e]
    have hrun : g.planRun = h.planRun := by
      funext p e'
      simp only [Hub.planRun, Hub.cf_congr e]
    simp only [Hub.rateOf, ih, hrun, hslot, hfield, Hub.ctxKind_congr e, Hub.planLen, Hub.outRate, Hub.sc_congr e, Hub.cf_congr e]

theorem Hub.inRate_congr {h g : Hub} (e : g.cells = h.cells) : g.inRate = h.inRate := by
  funext x i
  simp only [Hub.inRate, Hub.rateOf_congr e, Hub.outRate, Hub.sc_congr e]

/-- The set value of a stage's slot is a register of the fabric's tiles. -/
theorem Hub.slotSet_low (h : Hub) (x i : Nat) : (fFabTSlSetSet (h.stTile x i) (h.stSlot x i)).addr < 0xA0000 := by
  have ht := h.stTile_lt x i
  have hs : h.stSlot x i < 64 := fieldOf_lt _ _ 6
  simp only [fFabTSlSetSet, rFabTSlSet]
  omega

theorem Hub.resampleTake_fixed {g : Hub} {x i : Nat} (hf : g.sc x i 4 0 1 = 0) (fx : Fixed) (v : Samp) :
    Hub.resampleTake fx x i g v = Hub.fixedRun fx x i (g.rd (fFabTSlSetSet (g.stTile x i) (g.stSlot x i))) 300
      (g.modStg x i (fun s => s.shift 64 v)) := by
  unfold Hub.resampleTake
  extract_lets h1 s
  exact if_pos hf

theorem Hub.resampleTake_early {g : Hub} {x i : Nat} (hf : g.sc x i 4 0 1 ≠ 0) (hn : (g.stg' x i).n < 16) (fx : Fixed) (v : Samp) :
    Hub.resampleTake fx x i g v = g.modStg x i (fun s => s.shift 64 v) := by
  unfold Hub.resampleTake
  extract_lets h1 s m t0 t1 tg off rate gap near
  have hs : s = (g.stg' x i).shift 64 v := Hub.stg'_modStg ..
  have hearly : s.n < 17 := by
    rw [hs]
    exact Nat.succ_lt_succ hn
  rw [if_neg (show ¬h1.sc x i 4 0 1 = 0 from hf), if_pos hearly]

/-- A RESAMPLE stage in GRID mode, the two inputs of its interval being near neighbours. -/
theorem Hub.resampleTake_grid {g : Hub} {x i : Nat} {v : Samp} {s : Stage} {t0 t1 tg : Nat} (hf : g.sc x i 4 0 1 ≠ 0)
    (hn : 16 ≤ (g.stg' x i).n) (hs : s = (g.stg' x i).shift 64 v) (ht0 : t0 = s.timeAt ((g.stg' x i).n - 16 : Nat))
    (ht1 : t1 = s.timeAt ((g.stg' x i).n - 15 : Nat))
    (hgap : ((s.at? ((g.stg' x i).n - 15 : Nat)).map (fun y => y.has tGap)).getD false = false) (hlt : t0 < t1)
    (hnear : (g.inRate x i).1 = 0 ∨ (t1 - t0) * (g.inRate x i).1 ≤ 2 * 65536000000000 * (g.inRate x i).2)
    (htg : tg = g.sc x i 8 0 32 * 65536 + g.sc x i 9 0 16) (hpos : 0 < tg) (fx : Fixed) :
    Hub.resampleTake fx x i g v = Hub.gridRun fx x i ((g.stg' x i).n - 16) t0 t1 tg 600
      (gridFirst (g.sc x i 10 0 32 * 65536) tg t0) (g.modStg x i (fun s => s.shift 64 v)) := by
  unfold Hub.resampleTake
  extract_lets h1 s' m u0 u1 ug off rate gap near
  have hs' : s' = s := (Hub.stg'_modStg ..).trans hs.symm
  have hm : m = (g.stg' x i).n - 16 := by
    unfold m
    rw [hs', hs]
    unfold Stage.shift
    dsimp only
    omega
  have hm1 : (m : Int) + 1 = (((g.stg' x i).n - 15 : Nat) : Int) := by omega
  have hu0 : u0 = t0 := by rw [ht0, ← hm, ← hs']
  have hu1 : u1 = t1 := by rw [ht1, ← hm1, ← hs']
  have hug : ug = tg := htg.symm
  have hnogap : gap = false := by
    unfold gap
    rw [hs', hm1]
    cases hat : s.at? (((g.stg' x i).n - 15 : Nat) : Int) with
    | none => rfl
    | some y => rwa [hat] at hgap
  have hnear' : near = true := by
    have hrate : rate = g.inRate x i := Hub.inRate_congr (h := g) (g := h1) rfl ▸ rfl
    unfold near
    rw [hnogap, hu0, hu1, hrate]
    simpa [hlt] using hnear
  have hlate : ¬s'.n < 17 := by
    rw [hs', hs]
    unfold Stage.shift
    dsimp only
    omega
  rw [if_neg (show ¬h1.sc x i 4 0 1 = 0 from hf), if_neg hlate, if_neg (by omega), if_pos hnear', hm, hu0, hu1, hug]
  rfl

/-! ### DELAY (R202) -/

/-- The position a DELAY stage reads for an input of index `n`, its set value being `set`. -/
def delayAt (n set : Nat) : Int × Nat :=
  if natField set 0 10 = 0 then ((n : Int) - 16 - natField set 10 11, 0)
  else ((n : Int) - 17 - natField set 10 11, 1024 - natField set 0 10)

theorem Hub.delayTake_gives {g : Hub} {x i : Nat} {v : Samp} (fx : Fixed)
    (hpc : ∀ lo len, Hub.checkParity fx (g.modStg x i (fun s => s.shift (g.delayLen x i) v)) x i lo len none =
      (false, g.modStg x i (fun s => s.shift (g.delayLen x i) v))) :
    let p := delayAt (g.stg' x i).n (g.rd (fFabTSlSetSet (g.stTile x i) (g.stSlot x i)))
    ∃ lim tag, Hub.delayTake fx x i g v = Hub.giveOut fx (g.modStg x i (fun s => s.shift (g.delayLen x i) v)) x i
      (((g.stg' x i).shift (g.delayLen x i) v).interp p.1 p.2).1 lim false tag v.time := by
  unfold Hub.delayTake
  extract_lets p set f ip h1 s k m phi r need pc tag
  have hs : s = (g.stg' x i).shift (g.delayLen x i) v := Hub.stg'_modStg ..
  have hk : k = (g.stg' x i).n := by
    unfold k
    rw [hs]
    rfl
  have hp : p = (m, phi) := by
    unfold p delayAt m phi
    rw [hk]
    exact (apply_ite₂ Prod.mk (f = 0) _ _ _ _).symm
  have hpc' : pc = (false, h1) := hpc ..
  rw [hpc', hp, ← hs]
  exact ⟨_, _, rfl⟩

end Sys2Proof.Machine
end

section
/-! SUPPORT. The statement about the outputs of the stage kinds (R153, R155, R175, R177, R179, R180, R184, R186, R189, R196, R199, R200,
R202). -/

namespace Sys2Proof.Machine
open Sys2Proof

section
variable {h : Hub} {x i : Nat} {v : Samp} {rest : List Samp} (hi : i < 8)
include hi

/-! ### FIR -/

theorem Hub.firEval_outputs (ht : h.takesNext x i 1 v rest) (hd : h.firDue x i (h.stg' x i).n) (fx : Fixed) :
    let r := h.evalStage x i 1 noParity (Hub.firTake fx x i)
    (r.stg' x i).prev = toVal (h.firOut x i ((h.stg' x i).shift (h.coefLen x i) v) (h.bankUse x i true)) ∧
      (r.stg' x i).n = (h.stg' x i).n + 1 ∧ (r.stg' x i).outs = (h.stg' x i).outs + 1 ∧
      (h.ctxKind (ctxOf x) ≠ 6 → r.stageIn x i = rest) := by
  obtain ⟨htake, hpar, hr⟩ := ht
  obtain ⟨g, heval, hg⟩ := Hub.evalStage_takes hi htake (Hub.firTake fx x i)
  have hpc := hg.parity hpar fx (h.coefLen x i) 0 (h.coefLen x i) (some (h.bankUse x i true))
  obtain ⟨hprev, hn, houts, hnext, -⟩ := hg.fir hi htake.1 hr hd fx hpc rfl (Hub.stg'_modStg ..) rfl
  dsimp only
  rw [heval]
  exact ⟨hprev, hn, houts, hnext⟩

theorem Hub.firEval_rests (ht : h.takesNext x i 1 v rest) (hd : ¬h.firDue x i (h.stg' x i).n) (fx : Fixed) :
    let r := h.evalStage x i 1 noParity (Hub.firTake fx x i)
    (∃ q, r.stg' x i = ((h.stg' x i).took v q).shift (h.coefLen x i) v) ∧
      (h.ctxKind (ctxOf x) ≠ 6 → r.stageIn x i = rest) := by
  obtain ⟨htake, -, -⟩ := ht
  obtain ⟨g, heval, hg⟩ := Hub.evalStage_takes hi htake (Hub.firTake fx x i)
  obtain ⟨q, hown⟩ := hg.own
  have hrest : ¬g.firDue x i (g.stg' x i).n := by
    rw [hown]
    unfold Hub.firDue
    rw [Hub.sc_congr hg.cells]
    exact hd
  have hlen : g.coefLen x i = h.coefLen x i := by simp only [Hub.coefLen, Hub.sc_congr hg.cells]
  dsimp only
  rw [heval, Hub.firTake_rests hrest, Hub.stg'_modStg, hown, hlen]
  exact ⟨⟨q, rfl⟩, hg.stageIn rfl⟩

omit hi in
/-- The fields in which a tile reports a bad coefficient word stand beside what an output changes. -/
theorem parity_place {t j : Nat} (htile : t < 32) {f : Fld} (hf : f ∈ [fFabTStatusParCoef t, fFabTParAddrAddr t, fFabTParAddrMem t]) :
    f.addr ≠ 0x30 ∧ f.addr < 0xA0000 ∧ f.addr ≠ rFabTScnt t j := by
  simp only [List.mem_cons, List.not_mem_nil, or_false] at hf
  rcases hf with rfl | rfl | rfl <;>
    simp only [fFabTStatusParCoef, fFabTParAddrAddr, fFabTParAddrMem, rFabTStatus, rFabTParAddr, rFabTScnt] <;> omega

theorem Hub.firEval_bad {k : Nat} (ht : h.takes x i 1 v rest) (hr : h.noCtxReset (ctxOf x) i)
    (hh : ((h.stg' x i).hist.all (fun w => !w.bad)) = true) (hbad : h.badCoefOf x i (h.bankUse x i true) = some k)
    (hd : h.firDue x i (h.stg' x i).n) (fx : Fixed) :
    let r := h.evalStage x i 1 noParity (Hub.firTake fx x i)
    (r.stg' x i).prev = (h.stg' x i).prev ∧ (r.stg' x i).outs = (h.stg' x i).outs + 1 ∧
      r.is (fFabTStatusParCoef (h.stTile x i)) = true ∧ r.rd (fFabTParAddrAddr (h.stTile x i)) = k % 512 ∧
      r.rd (fFabTParAddrMem (h.stTile x i)) = (1 + k / 512) % 4 := by
  obtain ⟨g, heval, hg⟩ := Hub.evalStage_takes hi ht (Hub.firTake fx x i)
  have hpc := hg.parCoef hh hbad fx (h.coefLen x i) 0 (h.coefLen x i)
  have hstg : ∀ a : Hub, (a.parCoef (h.stTile x i) k).stg' x i = a.stg' x i := fun a => by
    unfold Hub.stg'
    rw [Hub.parCoef_stg]
  obtain ⟨hprev, -, houts, -, hrd⟩ := hg.fir hi ht.1 hr hd fx hpc (Hub.parCoef_cells ..) ((hstg _).trans (Hub.stg'_modStg ..))
    (Hub.parCoef_ctx ..)
  have hshown : ∀ f ∈ [fFabTStatusParCoef (h.stTile x i), fFabTParAddrAddr (h.stTile x i), fFabTParAddrMem (h.stTile x i)],
      (Hub.firTake fx x i g v).rd f =
        ((g.modStg x i (fun s => s.shift (h.coefLen x i) v)).parShown (h.stTile x i) k).rd f := by
    intro f hf
    obtain ⟨-, hlow, hcount⟩ := parity_place (h.stTile_lt x i) hf
    exact (hrd f hlow (offSwap_of_parity hf) hcount).trans (Hub.parCoef_rd _ _ _ (by omega))
  obtain ⟨hflag, haddr, hmem⟩ := (g.modStg x i (fun s => s.shift (h.coefLen x i) v)).parShown_shows (h.stTile x i) k
  dsimp only
  rw [heval]
  exact ⟨hprev, houts, (Hub.is_congr (hshown (fFabTStatusParCoef (h.stTile x i)) (by simp))).trans hflag,
    (hshown (fFabTParAddrAddr (h.stTile x i)) (by simp)).trans haddr, (hshown (fFabTParAddrMem (h.stTile x i)) (by simp)).trans hmem⟩

/-! ### Sieve -/

/-- A sieve whose centre has arrived gives it, or its decision on the centre of a full window. -/
theorem Hub.sieveEval_outputs (ht : h.takesNext x i 2 v rest) (hc : (h.sc x i 4 0 5 - 1) / 2 ≤ (h.stg' x i).n) (fx : Fixed) :
    let r := h.evalStage x i 2 noParity (Hub.sieveTake fx x i)
    let s := (h.stg' x i).shift (h.sc x i 4 0 5) v
    let n := (h.stg' x i).n - (h.sc x i 4 0 5 - 1) / 2
    (r.stg' x i).prev = toVal (if n < (h.sc x i 4 0 5 - 1) / 2 then s.valAt n else (sieveTest (h.sc x i 4 8 8) (h.sc x i 5 0 24)
      (s.valAt n) (s.hist.map (fun w => valOf w.samp.val))).1) ∧
      (r.stg' x i).n = (h.stg' x i).n + 1 ∧ (r.stg' x i).outs = (h.stg' x i).outs + 1 ∧
      (h.ctxKind (ctxOf x) ≠ 6 → r.stageIn x i = rest) := by
  obtain ⟨htake, hpar, hr⟩ := ht
  obtain ⟨g, heval, hg⟩ := Hub.evalStage_takes hi htake (Hub.sieveTake fx x i)
  obtain ⟨q, hown⟩ := hg.own
  have hsc := Hub.sc_congr hg.cells
  have hcenter : (g.sc x i 4 0 5 - 1) / 2 ≤ (g.stg' x i).n := by
    rw [hown, hsc]
    exact hc
  obtain ⟨k, tag, time, hcells, hstg, hctx, hgive⟩ := Hub.sieveTake_gives fx hcenter (hg.parity hpar fx _ _ _ none)
  rw [hown, hsc] at hgive hstg
  obtain ⟨hgave, hnext, -⟩ := hg.gives hi htake.1 (by decide) hr (s := ((h.stg' x i).took v q).shift (h.sc x i 4 0 5) v)
    (by rw [hown]; rfl) hcells hstg hctx fx _ false false tag time
  dsimp only
  rw [heval, hgive, hgave]
  exact ⟨rfl, rfl, rfl, hnext⟩

theorem Hub.sieveEval_rests (ht : h.takesNext x i 2 v rest) (hc : (h.stg' x i).n < (h.sc x i 4 0 5 - 1) / 2) (fx : Fixed) :
    let r := h.evalStage x i 2 noParity (Hub.sieveTake fx x i)
    (r.stg' x i).n = (h.stg' x i).n + 1 ∧ (r.stg' x i).outs = (h.stg' x i).outs ∧
      (h.ctxKind (ctxOf x) ≠ 6 → r.stageIn x i = rest) := by
  obtain ⟨htake, -, -⟩ := ht
  obtain ⟨g, heval, hg⟩ := Hub.evalStage_takes hi htake (Hub.sieveTake fx x i)
  obtain ⟨q, hown⟩ := hg.own
  have hsc := Hub.sc_congr hg.cells
  have hearly : (g.stg' x i).n < (g.sc x i 4 0 5 - 1) / 2 := by
    rw [hown, hsc]
    exact hc
  dsimp only
  rw [heval, Hub.sieveTake_rests hearly, Hub.stg'_modStg, hown]
  exact ⟨rfl, rfl, hg.stageIn rfl⟩

/-! ### Settling averager -/

omit hi in
/-- No run starts where blocks are not aligned, the input carries no SETTLE, or the one before did. -/
theorem Hub.runStart_none (hn : h.sc x i 4 16 1 = 0 ∨ v.has tSettle = false ∨ (h.stg' x i).wasSettle = true) :
    h.runStart x i v = false := by
  unfold Hub.runStart
  rcases hn with hn | hn | hn <;> simp [hn]

omit hi in
/-- The averager's stage with an input more, from the hub before it took that input. -/
theorem Hub.Took.pieceOf {g : Hub} {q : List Samp} (hg : h.Took x i v rest g) (hown : g.stg' x i = (h.stg' x i).took v q) :
    g.pieceOf x i v = (if h.runStart x i v && (h.stg' x i).inBlk != 0 then ((h.stg' x i).took v q).blockLeft
      else (h.stg' x i).took v q).piece v := by
  unfold Hub.pieceOf Hub.runStart
  rw [hown, Hub.sc_congr hg.cells]
  rfl

/-- An input inside a block, or the first of a new one. -/
theorem Hub.settleEval_inside (ht : h.takesNext x i 3 v rest)
    (hm : (if h.runStart x i v && (h.stg' x i).inBlk != 0 then 0 else (h.stg' x i).inBlk) < h.sc x i 4 0 16) (fx : Fixed) :
    let r := h.evalStage x i 3 noParity (Hub.settleTake fx x i)
    (∃ q, r.stg' x i = (if h.runStart x i v && (h.stg' x i).inBlk != 0 then ((h.stg' x i).took v q).blockLeft
      else (h.stg' x i).took v q).piece v) ∧ (h.ctxKind (ctxOf x) ≠ 6 → r.stageIn x i = rest) := by
  obtain ⟨htake, ⟨-, -, hwords⟩, -⟩ := ht
  obtain ⟨g, heval, hg⟩ := Hub.evalStage_takes hi htake (Hub.settleTake fx x i)
  obtain ⟨q, hown⟩ := hg.own
  have hpiece := hg.pieceOf hown
  have hshort : (g.pieceOf x i v).inBlk < g.sc x i 4 0 16 + 1 := by
    rw [hpiece, Hub.sc_congr hg.cells]
    split at hm <;> rename_i hrun
    · rw [if_pos hrun]
      exact Nat.succ_lt_succ hm
    · rw [if_neg hrun]
      exact Nat.succ_lt_succ hm
  have hinq : (g.pieceOf x i v).inq = (g.stg' x i).inq := by
    rw [hpiece, hown]
    split <;> rfl
  dsimp only
  rw [heval, Hub.settleTake_eq (by rw [hown]; exact hwords)]
  dsimp only
  rw [if_pos hshort, Hub.stg'_setStg]
  exact ⟨⟨q, hpiece⟩, hg.stageIn hinq⟩

/-- The last input of a block. -/
theorem Hub.settleEval_mean (ht : h.takesNext x i 3 v rest) (hrun : h.runStart x i v = false) (hgood : (h.stg' x i).blkBad = false)
    (hm : (h.stg' x i).inBlk = h.sc x i 4 0 16) (fx : Fixed) :
    let r := h.evalStage x i 3 noParity (Hub.settleTake fx x i)
    let s := (h.stg' x i).piece v
    (r.stg' x i).prev = (if s.cnt = 0 then (h.stg' x i).prev else toVal ((2 * s.sum + (s.cnt : Int)) / (2 * (s.cnt : Int)))) ∧
      (r.stg' x i).inBlk = 0 ∧ (r.stg' x i).sum = 0 ∧ (r.stg' x i).outs = (h.stg' x i).outs + 1 ∧
      (h.ctxKind (ctxOf x) ≠ 6 → r.stageIn x i = rest) := by
  obtain ⟨htake, ⟨-, -, hwords⟩, hr⟩ := ht
  obtain ⟨g, heval, hg⟩ := Hub.evalStage_takes hi htake (Hub.settleTake fx x i)
  obtain ⟨q, hown⟩ := hg.own
  have hpiece : g.pieceOf x i v = ((h.stg' x i).took v q).piece v := by
    rw [hg.pieceOf hown, hrun]
    rfl
  have hbad : (((h.stg' x i).took v q).piece v).blkBad = false := by
    change ((h.stg' x i).inBlk != 0 && (h.stg' x i).blkBad) = false
    rw [hgood, Bool.and_false]
  have hlast : ¬(((h.stg' x i).took v q).piece v).inBlk < h.sc x i 4 0 16 + 1 := by
    change ¬(h.stg' x i).inBlk + 1 < _
    omega
  have hgives := fun y tag => hg.gives hi htake.1 (by decide) hr (s := (((h.stg' x i).took v q).piece v).blockDone)
    (k := g.setStg x i (((h.stg' x i).took v q).piece v).blockDone) (by rw [hown]; rfl) rfl (Hub.stg'_setStg ..) rfl fx y false false
    tag v.time
  dsimp only
  rw [heval, Hub.settleTake_eq (by rw [hown]; exact hwords), hpiece, Hub.sc_congr hg.cells]
  dsimp only
  rw [if_neg hlast, hbad]
  by_cases hcnt : ((h.stg' x i).piece v).cnt = 0
  · rw [if_pos hcnt, if_pos (show (((h.stg' x i).took v q).piece v).cnt = 0 from hcnt)]
    obtain ⟨hgave, hnext, -⟩ := hgives (valOf (((h.stg' x i).took v q).piece v).prev) tSettle
    rw [hgave]
    exact ⟨toVal_valOf _, rfl, rfl, rfl, hnext⟩
  · rw [if_neg hcnt, if_neg (show ¬(((h.stg' x i).took v q).piece v).cnt = 0 from hcnt)]
    obtain ⟨hgave, hnext, -⟩ := hgives _ _
    rw [hgave]
    exact ⟨rfl, rfl, rfl, rfl, hnext⟩

/-! ### RESAMPLE -/

/-- A position that the input completes, the next one not reached. -/
theorem Hub.resampleEval_fixed (ht : h.takesNext x i 4 v rest) (hf : h.sc x i 4 0 1 = 0)
    (hp : (h.stg' x i).pos / 16777216 + 16 < (h.stg' x i).n + 1)
    (hn : (h.stg' x i).n + 1 ≤ ((h.stg' x i).pos + h.rd (fFabTSlSetSet (h.stTile x i) (h.stSlot x i))) / 16777216 + 16) (fx : Fixed) :
    let r := h.evalStage x i 4 noParity (Hub.resampleTake fx x i)
    let s := (h.stg' x i).shift 64 v
    (r.stg' x i).prev = toVal (s.interp (roundPos (h.stg' x i).pos).1 (roundPos (h.stg' x i).pos).2).1 ∧
      (r.stg' x i).pos = (h.stg' x i).pos + h.rd (fFabTSlSetSet (h.stTile x i) (h.stSlot x i)) ∧
      (r.stg' x i).outs = (h.stg' x i).outs + 1 ∧ (h.ctxKind (ctxOf x) ≠ 6 → r.stageIn x i = rest) := by
  obtain ⟨htake, hpar, hr⟩ := ht
  obtain ⟨g, heval, hg⟩ := Hub.evalStage_takes hi htake (Hub.resampleTake fx x i)
  obtain ⟨q, hown⟩ := hg.own
  have hset : g.rd (fFabTSlSetSet (g.stTile x i) (g.stSlot x i)) = h.rd (fFabTSlSetSet (h.stTile x i) (h.stSlot x i)) := by
    rw [Hub.stTile_congr hg.cells, Hub.stSlot_congr hg.cells, hg.rd (h.slotSet_low x i)]
  have hstg : (g.modStg x i (fun s => s.shift 64 v)).stg' x i = ((h.stg' x i).took v q).shift 64 v := by
    rw [Hub.stg'_modStg, hown]
  obtain ⟨lim, tag, hout⟩ := Hub.outAt_gives fx (fun lo len => hg.parity hpar fx 64 lo len none) (h.stg' x i).pos 0#8
    ((((h.stg' x i).took v q).shift 64 v).timePos (h.stg' x i).pos)
  obtain ⟨hgave, hnext, -⟩ := hg.gives hi htake.1 (by decide) hr (s := ((h.stg' x i).took v q).shift 64 v)
    (k := g.modStg x i (fun s => s.shift 64 v)) (by rw [hown]; rfl) rfl hstg rfl fx
    ((((h.stg' x i).took v q).shift 64 v).interp (roundPos (h.stg' x i).pos).1 (roundPos (h.stg' x i).pos).2).1 lim false tag
    ((((h.stg' x i).took v q).shift 64 v).timePos (h.stg' x i).pos)
  rw [hstg] at hout
  dsimp only
  rw [heval, Hub.resampleTake_fixed (by rw [Hub.sc_congr hg.cells]; exact hf), Hub.fixedRun_reached (by rw [hstg]; exact hp), hset, hstg]
  rw [show (((h.stg' x i).took v q).shift 64 v).pos = (h.stg' x i).pos from rfl, hout, Hub.fixedRun_rests (by
    rw [Hub.stg'_modStg, hgave]
    exact hn), Hub.stg'_modStg, hgave]
  refine ⟨rfl, rfl, rfl, fun hk => ?_⟩
  rw [← hnext hk]
  exact Hub.stageIn_setStg rfl

/-- No position is reached. -/
theorem Hub.resampleEval_rests (ht : h.takesNext x i 4 v rest)
    (hn : h.sc x i 4 0 1 = 0 ∧ (h.stg' x i).n ≤ (h.stg' x i).pos / 16777216 + 15 ∨ h.sc x i 4 0 1 ≠ 0 ∧ (h.stg' x i).n < 16)
    (fx : Fixed) :
    let r := h.evalStage x i 4 noParity (Hub.resampleTake fx x i)
    (∃ q, r.stg' x i = ((h.stg' x i).took v q).shift 64 v) ∧ (h.ctxKind (ctxOf x) ≠ 6 → r.stageIn x i = rest) := by
  obtain ⟨htake, -, -⟩ := ht
  obtain ⟨g, heval, hg⟩ := Hub.evalStage_takes hi htake (Hub.resampleTake fx x i)
  obtain ⟨q, hown⟩ := hg.own
  have hstg : (g.modStg x i (fun s => s.shift 64 v)).stg' x i = ((h.stg' x i).took v q).shift 64 v := by
    rw [Hub.stg'_modStg, hown]
  have hsame : Hub.resampleTake fx x i g v = g.modStg x i (fun s => s.shift 64 v) := by
    rcases hn with ⟨hf, hn⟩ | ⟨hf, hn⟩
    · rw [Hub.resampleTake_fixed (by rw [Hub.sc_congr hg.cells]; exact hf), Hub.fixedRun_rests]
      rw [hstg]
      exact Nat.succ_le_succ hn
    · exact Hub.resampleTake_early (by rw [Hub.sc_congr hg.cells]; exact hf) (by rw [hown]; exact hn) fx v
  dsimp only
  rw [heval, hsame]
  exact ⟨⟨q, hstg⟩, hg.stageIn rfl⟩

/-- One grid time in the interval that the input completes. -/
theorem Hub.resampleEval_grid {t0 t1 tg tau : Nat} (ht : h.takesNext x i 4 v rest) (hf : h.sc x i 4 0 1 ≠ 0) (hn : 16 ≤ (h.stg' x i).n)
    (ht0 : t0 = ((h.stg' x i).shift 64 v).timeAt ((h.stg' x i).n - 16 : Nat))
    (ht1 : t1 = ((h.stg' x i).shift 64 v).timeAt ((h.stg' x i).n - 15 : Nat))
    (hgap : ((((h.stg' x i).shift 64 v).at? ((h.stg' x i).n - 15 : Nat)).map (fun y => y.has tGap)).getD false = false) (hlt : t0 < t1)
    (hnear : (h.inRate x i).1 = 0 ∨ (t1 - t0) * (h.inRate x i).1 ≤ 2 * 65536000000000 * (h.inRate x i).2)
    (htg : tg = h.sc x i 8 0 32 * 65536 + h.sc x i 9 0 16) (hpos : 0 < tg)
    (htau : tau = gridFirst (h.sc x i 10 0 32 * 65536) tg t0) (hin : tau < t1) (hone : t1 ≤ tau + tg) (fx : Fixed) :
    let r := h.evalStage x i 4 noParity (Hub.resampleTake fx x i)
    let p := roundPos (((h.stg' x i).n - 16) * 16777216 + (2 * (tau - t0) * 16777216 + (t1 - t0)) / (2 * (t1 - t0)))
    (r.stg' x i).prev = toVal (((h.stg' x i).shift 64 v).interp p.1 p.2).1 ∧ (r.stg' x i).outs = (h.stg' x i).outs + 1 ∧
      (h.ctxKind (ctxOf x) ≠ 6 → r.stageIn x i = rest) := by
  obtain ⟨htake, hpar, hr⟩ := ht
  obtain ⟨g, heval, hg⟩ := Hub.evalStage_takes hi htake (Hub.resampleTake fx x i)
  obtain ⟨q, hown⟩ := hg.own
  have hsc := Hub.sc_congr hg.cells
  have hstg : (g.modStg x i (fun s => s.shift 64 v)).stg' x i = ((h.stg' x i).took v q).shift 64 v := by
    rw [Hub.stg'_modStg, hown]
  have hrun := Hub.resampleTake_grid (g := g) (x := x) (i := i) (v := v) (s := ((h.stg' x i).took v q).shift 64 v) (t0 := t0) (t1 := t1)
    (tg := tg) (by rw [hsc]; exact hf) (by rw [hown]; exact hn) (by rw [hown]) (by rw [hown]; exact ht0) (by rw [hown]; exact ht1)
    (by rw [hown]; exact hgap) hlt (by rw [Hub.inRate_congr hg.cells]; exact hnear) (by rw [hsc]; exact htg) hpos fx
  rw [hsc, ← htau, Hub.gridRun_one hin hone] at hrun
  obtain ⟨lim, tag, hout⟩ := Hub.outAt_gives fx (fun lo len => hg.parity hpar fx 64 lo len none)
    (((g.stg' x i).n - 16) * 16777216 + (2 * (tau - t0) * 16777216 + (t1 - t0)) / (2 * (t1 - t0))) 0#8 tau
  rw [hout, hstg, hown] at hrun
  obtain ⟨hgave, hnext, -⟩ := hg.gives hi htake.1 (by decide) hr (s := ((h.stg' x i).took v q).shift 64 v)
    (k := g.modStg x i (fun s => s.shift 64 v)) (by rw [hown]; rfl) rfl hstg rfl fx _ lim false tag tau
  dsimp only
  rw [heval, hrun, hgave]
  exact ⟨rfl, rfl, hnext⟩

/-! ### DELAY -/

theorem Hub.delayEval_outputs (ht : h.takesNext x i 6 v rest) (fx : Fixed) :
    let r := h.evalStage x i 6 noParity (Hub.delayTake fx x i)
    let p := delayAt (h.stg' x i).n (h.rd (fFabTSlSetSet (h.stTile x i) (h.stSlot x i)))
    (r.stg' x i).prev = toVal (((h.stg' x i).shift (h.delayLen x i) v).interp p.1 p.2).1 ∧
      (r.stg' x i).n = (h.stg' x i).n + 1 ∧ (r.stg' x i).outs = (h.stg' x i).outs + 1 ∧
      (h.ctxKind (ctxOf x) ≠ 6 → r.stageIn x i = rest) := by
  obtain ⟨htake, hpar, hr⟩ := ht
  obtain ⟨g, heval, hg⟩ := Hub.evalStage_takes hi htake (Hub.delayTake fx x i)
  obtain ⟨q, hown⟩ := hg.own
  have hlen : g.delayLen x i = h.delayLen x i := by simp only [Hub.delayLen, Hub.sc_congr hg.cells]
  have hset : g.rd (fFabTSlSetSet (g.stTile x i) (g.stSlot x i)) = h.rd (fFabTSlSetSet (h.stTile x i) (h.stSlot x i)) := by
    rw [Hub.stTile_congr hg.cells, Hub.stSlot_congr hg.cells, hg.rd (h.slotSet_low x i)]
  have hstg : (g.modStg x i (fun s => s.shift (h.delayLen x i) v)).stg' x i = ((h.stg' x i).took v q).shift (h.delayLen x i) v := by
    rw [Hub.stg'_modStg, hown]
  obtain ⟨lim, tag, hgive⟩ := Hub.delayTake_gives fx (fun lo len => hg.parity hpar fx (g.delayLen x i) lo len none)
  rw [hlen, hset, hown] at hgive
  obtain ⟨hgave, hnext, -⟩ := hg.gives hi htake.1 (by decide) hr (s := ((h.stg' x i).took v q).shift (h.delayLen x i) v)
    (k := g.modStg x i (fun s => s.shift (h.delayLen x i) v)) (by rw [hown]; rfl) rfl hstg rfl fx _ lim false tag v.time
  dsimp only
  rw [heval, hgive, hgave]
  exact ⟨rfl, rfl, rfl, hnext⟩

end

/-- Settles O14: a stage that takes its input stands as `Hub.Took` says, and each kind's output is what `Hub.Took.gives` leaves of it. -/
theorem stageOutputs : Obligations.StageOutputs := by
  refine ⟨?_, ?_, ?_, ?_, ?_, ?_, ?_, ?_, ?_, ?_, ?_, ?_⟩
  · -- FIR_EVALUATION at the newest input of an output's window
    intro s c sh i x rest ht hph hdf
    obtain ⟨hprev, hn, houts, hnext⟩ := Hub.firEval_outputs i.isLt ht ⟨hph, hdf⟩ s.fixed
    refine ⟨_, rfl, ?_⟩
    dsimp only
    rw [latchIrq_stg', latchIrq_stageIn]
    exact ⟨hprev, hn, houts, fun hk => hnext (by rwa [ctxOf_chainOf])⟩
  · -- FIR_EVALUATION between outputs
    intro s c sh i x rest ht hbetween
    obtain ⟨⟨q, hown⟩, hnext⟩ := Hub.firEval_rests i.isLt ht
      (fun ⟨hph, hdf⟩ => hbetween.elim (Nat.not_lt.2 hph) fun hne => hne hdf) s.fixed
    refine ⟨_, rfl, ?_⟩
    dsimp only
    rw [latchIrq_stg', latchIrq_stageIn, hown]
    exact ⟨rfl, rfl, rfl, rfl, fun hk => hnext (by rwa [ctxOf_chainOf])⟩
  · -- FIR_EVALUATION of an output that reads a bad coefficient word
    intro s c sh i x rest k ht hr hh hbad hph hdf
    obtain ⟨hprev, houts, hflag, haddr, hmem⟩ :=
      Hub.firEval_bad i.isLt ht (by rwa [ctxOf_chainOf]) hh hbad ⟨hph, hdf⟩ s.fixed
    have hat : ∀ f ∈ [fFabTStatusParCoef (s.hub.stTile (chainOf c sh) i), fFabTParAddrAddr (s.hub.stTile (chainOf c sh) i),
        fFabTParAddrMem (s.hub.stTile (chainOf c sh) i)], f.addr ≠ 0x30 :=
      fun f hf => (parity_place (j := 0) (s.hub.stTile_lt _ _) hf).1
    refine ⟨_, rfl, ?_⟩
    dsimp only
    rw [latchIrq_stg', latchIrq_is _ _ _ _ (hat (fFabTStatusParCoef (s.hub.stTile (chainOf c sh) i)) (by simp)),
      latchIrq_rd _ _ _ _ (hat (fFabTParAddrAddr (s.hub.stTile (chainOf c sh) i)) (by simp)),
      latchIrq_rd _ _ _ _ (hat (fFabTParAddrMem (s.hub.stTile (chainOf c sh) i)) (by simp))]
    exact ⟨hprev, houts, hflag, haddr, hmem⟩
  · -- SIEVE_EVALUATION with a full window
    intro s c sh i x rest ht hfull
    obtain ⟨hprev, -, houts, hnext⟩ := Hub.sieveEval_outputs i.isLt ht (by omega) s.fixed
    rw [if_neg (by omega)] at hprev
    refine ⟨_, rfl, ?_⟩
    dsimp only
    rw [latchIrq_stg', latchIrq_stageIn]
    exact ⟨hprev, houts, fun hk => hnext (by rwa [ctxOf_chainOf])⟩
  · -- SIEVE_EVALUATION before its window is full
    intro s c sh i x rest ht hearly
    refine ⟨_, rfl, ?_⟩
    dsimp only
    rw [latchIrq_stg', latchIrq_stageIn]
    by_cases hc : (s.hub.sc (chainOf c sh) i 4 0 5 - 1) / 2 ≤ (s.hub.stg' (chainOf c sh) i).n
    · obtain ⟨hprev, hn, houts, hnext⟩ := Hub.sieveEval_outputs i.isLt ht hc s.fixed
      rw [if_pos (by omega)] at hprev
      rw [if_pos hc]
      exact ⟨hn, houts, fun _ => hprev, fun hk => hnext (by rwa [ctxOf_chainOf])⟩
    · obtain ⟨hn, houts, hnext⟩ := Hub.sieveEval_rests i.isLt ht (Nat.lt_of_not_le hc) s.fixed
      rw [if_neg hc]
      exact ⟨hn, houts, fun h => absurd h hc, fun hk => hnext (by rwa [ctxOf_chainOf])⟩
  · -- SETTLE_PIECE that completes a block
    intro s c sh i x rest ht hnone hgood hm
    obtain ⟨hprev, hblk, hsum, houts, hnext⟩ := Hub.settleEval_mean i.isLt ht (Hub.runStart_none hnone) hgood hm s.fixed
    refine ⟨_, rfl, ?_⟩
    dsimp only
    rw [latchIrq_stg', latchIrq_stageIn, hprev]
    unfold Stage.piece
    dsimp only
    refine ⟨fun hx => ?_, fun hx hcnt => ?_, fun hx hcnt => ?_, hblk, hsum, houts, fun hk => hnext (by rwa [ctxOf_chainOf])⟩
    · rw [hx]
      rfl
    · rw [hx]
      exact if_neg (Nat.ne_of_gt hcnt)
    · rw [hx]
      exact if_pos hcnt
  · -- SETTLE_PIECE inside a block
    intro s c sh i x rest ht hnone hm
    have hrun := Hub.runStart_none hnone
    obtain ⟨⟨q, hown⟩, hnext⟩ := Hub.settleEval_inside i.isLt ht (by rw [hrun]; exact hm) s.fixed
    rw [hrun, Bool.false_and, if_neg Bool.false_ne_true] at hown
    refine ⟨_, rfl, ?_⟩
    dsimp only
    rw [latchIrq_stg', latchIrq_stageIn, hown]
    unfold Stage.piece
    dsimp only
    refine ⟨?_, ?_, rfl, rfl, fun hk => hnext (by rwa [ctxOf_chainOf])⟩ <;> cases x.has tSettle <;> rfl
  · -- SETTLE_PIECE at a run start inside a block of at least two inputs, with alignment
    intro s c sh i x rest ht halign hx hwas hblk hm
    have hrun : (s.hub.runStart (chainOf c sh) i x && (s.hub.stg' (chainOf c sh) i).inBlk != 0) = true := by
      simp [Hub.runStart, halign, hx, hwas, hblk]
    obtain ⟨⟨q, hown⟩, hnext⟩ := Hub.settleEval_inside i.isLt ht (by rw [if_pos hrun]; exact hm) s.fixed
    rw [if_pos hrun] at hown
    refine ⟨_, rfl, ?_⟩
    dsimp only
    rw [latchIrq_stg', latchIrq_stageIn, hown]
    unfold Stage.piece
    dsimp only
    rw [hx]
    exact ⟨rfl, rfl, rfl, rfl, rfl, fun hk => hnext (by rwa [ctxOf_chainOf])⟩
  · -- RESAMPLE_EVALUATION, FIXED, one output completed
    intro s c sh i x rest r ht hf hr hp hn
    subst hr
    obtain ⟨hprev, hpos, houts, hnext⟩ := Hub.resampleEval_fixed i.isLt ht hf hp hn s.fixed
    refine ⟨_, rfl, ?_⟩
    dsimp only
    rw [latchIrq_stg', latchIrq_stageIn]
    exact ⟨hprev, hpos, houts, fun hk => hnext (by rwa [ctxOf_chainOf])⟩
  · -- RESAMPLE_EVALUATION, no position reached
    intro s c sh i x rest ht hn
    obtain ⟨⟨q, hown⟩, hnext⟩ := Hub.resampleEval_rests i.isLt ht hn s.fixed
    refine ⟨_, rfl, ?_⟩
    dsimp only
    rw [latchIrq_stg', latchIrq_stageIn, hown]
    exact ⟨rfl, fun hk => hnext (by rwa [ctxOf_chainOf])⟩
  · -- RESAMPLE_EVALUATION, GRID, one grid time in an interval between adjacent inputs
    intro s c sh i x rest t0 t1 tg tau ht hf hn ht0 ht1 hgap hlt hnear htg hpos htau hin hone
    obtain ⟨hprev, houts, hnext⟩ :=
      Hub.resampleEval_grid i.isLt ht hf hn ht0 ht1 hgap hlt hnear htg hpos htau hin hone s.fixed
    refine ⟨_, rfl, ?_⟩
    dsimp only
    rw [latchIrq_stg', latchIrq_stageIn]
    exact ⟨hprev, houts, fun hk => hnext (by rwa [ctxOf_chainOf])⟩
  · -- DELAY_EVALUATION
    intro s c sh i x rest ht
    obtain ⟨hprev, hn, houts, hnext⟩ := Hub.delayEval_outputs i.isLt ht s.fixed
    refine ⟨_, rfl, ?_⟩
    dsimp only
    rw [latchIrq_stg', latchIrq_stageIn]
    refine ⟨fun hf => ?_, fun hf => ?_, hn, houts, fun hk => hnext (by rwa [ctxOf_chainOf])⟩
    · rw [hprev, delayAt, if_pos hf, Stage.interp_zero]
    · rw [hprev, delayAt, if_neg hf]

end Sys2Proof.Machine
end

section
/-! SUPPORT. What one input makes an ORDER stage do: its stamps, its missing edges and its outputs (R204 to R207). -/

namespace Sys2Proof.Machine
open Sys2Proof

/-! ### The words an evaluation reads -/

/-- No bad word is among those a stage reads after it took an input, whatever of its own record changed but its delay line's parity. -/
theorem Hub.Took.reads_good {x i : Nat} {v : Samp} {rest : List Samp} {h g k : Hub} (hg : h.Took x i v rest g)
    (hcoef : (NMap.get h.tile (h.stTile x i)).badCoef = []) (hcells : k.cells = g.cells) (htile : k.tile = g.tile)
    (hline : ((k.stg' x i).hist.all (fun w => !w.bad)) = true) (fx : Fixed) (lo len : Nat) (u : Option BankUse) :
    Hub.checkParity fx k x i lo len u = (false, k) := by
  refine Hub.checkParity_good ?_ hline fx lo len
  rw [Hub.stTile_congr (hcells.trans hg.cells), htile, hg.tile]
  exact hcoef

/-! ### Missing edges and stamps -/

/-- No edge is missing while nothing is acquired, or before the window's end (R207). -/
theorem Hub.ordMissing_rests {h : Hub} {x i u : Nat} (hs : (h.stg' x i).acquired = false ∨ u < (h.stg' x i).winHi) (k : OrdCfg)
    (fuel : Nat) : Hub.ordMissing x i k u fuel h = h := by
  cases fuel with
  | zero => rfl
  | succ fuel =>
    have hnot : ((h.stg' x i).acquired && decide ((h.stg' x i).winHi ≤ u)) = false := by
      rcases hs with hs | hs
      · rw [hs, Bool.false_and]
      · rw [decide_eq_false (Nat.not_le.2 hs), Bool.and_false]
    unfold Hub.ordMissing
    dsimp only
    rw [hnot]
    rfl

/-- The first edge of an acquisition is kept (R205). -/
theorem Hub.ordStamp_first {h : Hub} {x i : Nat} (hacq : (h.stg' x i).acquired = false) (hedges : (h.stg' x i).edges = []) (k : OrdCfg)
    (u : Nat) : h.ordStamp x i k u = h.setStg x i { h.stg' x i with edges := [u] } := by
  unfold Hub.ordStamp
  rw [Hub.ordMissing_rests (.inl hacq)]
  dsimp only
  rw [hacq, if_neg Bool.false_ne_true, hedges]
  rfl

/-! ### Outputs -/

/-- The state of a stage's slot is a register of the fabric's tiles. -/
theorem Hub.slotState_low (h : Hub) (x i : Nat) : (fFabTSlStState (h.stTile x i) (h.stSlot x i)).addr < 0xA0000 := by
  have ht := h.stTile_lt x i
  have hs : h.stSlot x i < 64 := fieldOf_lt _ _ 6
  simp only [fFabTSlStState, rFabTSlSt]
  omega

/-- No output without an acquired angle, or before its window's newest input. -/
theorem Hub.ordRun_rests {h : Hub} {x i : Nat}
    (hs : (h.stg' x i).acquired = false ∨ (h.stg' x i).n ≤ (h.stg' x i).pos / 16777216 + 16) (fx : Fixed) (k : OrdCfg) (fuel : Nat) :
    Hub.ordRun fx x i k fuel h = h := by
  cases fuel with
  | zero => rfl
  | succ fuel =>
    have hnot : ((h.stg' x i).acquired && (h.stg' x i).reached (h.stg' x i).pos) = false := by
      rcases hs with hs | hs
      · rw [hs, Bool.false_and]
      · rw [Stage.reached, decide_eq_false (Nat.not_lt.2 hs), Bool.and_false]
    unfold Hub.ordRun
    dsimp only
    rw [hnot]
    rfl

/-- The next output of a stage that is not STOPPED, its window complete. -/
theorem Hub.ordRun_reached {h : Hub} {x i : Nat} (hacq : (h.stg' x i).acquired = true)
    (hp : (h.stg' x i).pos / 16777216 + 16 < (h.stg' x i).n) (hst : h.rd (fFabTSlStState (h.stTile x i) (h.stSlot x i)) ≠ 4)
    (fx : Fixed) (k : OrdCfg) (fuel : Nat) : ∃ extra,
    let h1 := Hub.outAt fx x i h (h.stg' x i).pos extra ((h.stg' x i).timePos (h.stg' x i).pos)
    Hub.ordRun fx x i k (fuel + 1) h = Hub.ordRun fx x i k fuel (h1.modStg x i (fun s =>
      { s with pos := s.pos + h1.rd (fFabTSlSetSet (h.stTile x i) (h.stSlot x i)), kNext := s.kNext + 1 })) := by
  have hreached : ((h.stg' x i).acquired && (h.stg' x i).reached (h.stg' x i).pos) = true := by
    rw [hacq, Stage.reached, decide_eq_true hp]
    rfl
  refine ⟨(if (h.stg' x i).eReal * k.q ≤ (h.stg' x i).kNext then tBridged else 0#8) |||
    (if h.rd (fFabTSlStState (h.stTile x i) (h.stSlot x i)) = 3 then tAborted else 0#8), ?_⟩
  rw [Hub.ordRun]
  dsimp only
  rw [if_pos hreached, if_neg hst]

/-! ### An input of the stage -/

/-- An ORDER stage takes an input, and the stamps up to it are no longer due. -/
def Stage.ordShift (s : Stage) (v : Samp) : Stage :=
  { s.shift 64 v with stamps := s.stamps.filter (fun e => decide (v.time < e)) }

/-- The time of the input before the one a stage takes. -/
def Stage.timeBefore (s : Stage) (v : Samp) : Nat := (s.shift 64 v).timeAt ((s.n : Int) - 1)

/-- The stamps between the previous input and the one a stage takes (R204). -/
def Stage.dueStamps (s : Stage) (v : Samp) : List Nat :=
  s.stamps.filter (fun e => decide (s.timeBefore v < e) && decide (e ≤ v.time))

/-- The position of a stamp between the previous input and the one a stage takes (R204). -/
def Stage.stampPos (s : Stage) (v : Samp) (e : Nat) : Nat :=
  (s.n - 1) * 16777216 + divNear ((e - s.timeBefore v) * 16777216) (v.time - s.timeBefore v)

/-- The hub once an ORDER stage took its input. -/
def Hub.ordTaken (h : Hub) (x i : Nat) (v : Samp) : Hub :=
  (h.modStg x i (fun s => s.shift 64 v)).setStg x i ((h.stg' x i).ordShift v)

@[simp] theorem Hub.ordTaken_stg' (h : Hub) (x i : Nat) (v : Samp) : (h.ordTaken x i v).stg' x i = (h.stg' x i).ordShift v :=
  Hub.stg'_setStg ..

theorem Hub.ordTaken_stageIn (h : Hub) (x i : Nat) (v : Samp) : (h.ordTaken x i v).stageIn x i = h.stageIn x i := by
  unfold Hub.stageIn
  rw [Hub.ordTaken_stg']
  rfl

theorem Stage.timeBefore_eq {s : Stage} (hn : 0 < s.n) (v : Samp) : s.timeBefore v = (s.shift 64 v).timeAt (s.n - 1 : Nat) := by
  unfold Stage.timeBefore
  rw [Nat.cast_sub hn]
  rfl

/-- With every stamp later than the input none is due. -/
theorem Stage.dueStamps_none {s : Stage} {v : Samp} (hs : s.stamps.all (fun e => decide (v.time < e)) = true) : s.dueStamps v = [] := by
  unfold Stage.dueStamps
  rw [List.filter_eq_nil_iff]
  intro e he
  have hlate : v.time < e := of_decide_eq_true (List.all_eq_true.1 hs e he)
  rw [decide_eq_false (Nat.not_le.2 hlate), Bool.and_false]
  exact Bool.false_ne_true

theorem Stage.ordShift_none {s : Stage} {v : Samp} (hs : s.stamps.all (fun e => decide (v.time < e)) = true) :
    s.ordShift v = s.shift 64 v := by
  unfold Stage.ordShift
  rw [List.filter_eq_self.2 (List.all_eq_true.1 hs)]
  rfl

/-- The input of a stage that has nothing to lose by a GAP: stamps, then a missing edge, then outputs. -/
theorem Hub.orderTake_eq {g : Hub} {x i : Nat} {v : Samp} (hgap : (v.has tGap && (g.stg' x i).acquired) = false) (fx : Fixed) :
    Hub.orderTake fx x i g v =
      let s := g.stg' x i
      let k := g.ordCfg x i
      let h2 := g.ordTaken x i v
      let h3 := if s.n = 0 then h2 else (s.dueStamps v).foldl (fun a e => a.ordStamp x i k (s.stampPos v e)) h2
      Hub.ordRun fx x i k (16777216 / k.rFloor + 2) (Hub.ordMissing x i k (s.n * 16777216) 16 h3) := by
  unfold Hub.orderTake
  dsimp only
  rw [hgap, if_neg Bool.false_ne_true, Hub.stg'_modStg]
  rfl

/-- The input of a stage no stamp of which is due. -/
theorem Hub.orderTake_noStamp {g : Hub} {x i : Nat} {v : Samp} (hgap : (v.has tGap && (g.stg' x i).acquired) = false)
    (hs : (g.stg' x i).stamps.all (fun e => decide (v.time < e)) = true)
    (hwin : (g.stg' x i).acquired = false ∨ (g.stg' x i).n * 16777216 < (g.stg' x i).winHi) (fx : Fixed) :
    ∃ k : OrdCfg, Hub.orderTake fx x i g v = Hub.ordRun fx x i k (16777216 / k.rFloor + 2) (g.ordTaken x i v) := by
  refine ⟨g.ordCfg x i, ?_⟩
  rw [Hub.orderTake_eq hgap]
  dsimp only
  rw [Stage.dueStamps_none hs, List.foldl_nil, ite_self, Hub.ordMissing_rests (by rw [Hub.ordTaken_stg']; exact hwin)]

end Sys2Proof.Machine
end

section
/-! SUPPORT. What one input makes a DETECT stage do, and what the delivery of its block leaves (R210, R211, R233). -/

namespace Sys2Proof.Machine
open Sys2Proof

/-! ### The bins of a stage (R210) -/

/-- The bins of a DETECT stage begin a new block, their phases at 0. -/
def Stage.binsCleared (s : Stage) : Stage := { s with phase := [], iacc := [], qacc := [], inBlk := 0, orTag := 0#8 }

/-- Every bin of a DETECT stage accumulates an input; `tag` and `time` are those of the block so far. -/
def Hub.binsTake (h : Hub) (x i : Nat) (u : BankUse) (s : Stage) (v : Samp) (tag : BitVec 8) (time : Nat) : Stage :=
  { s with
    n := s.n + 1
    phase := (List.range (h.sc x i 4 0 4)).map (fun b => (s.phase.getD b 0 + h.binInc x i b u) % 2 ^ 48)
    iacc := (List.range (h.sc x i 4 0 4)).map (fun b => (sat56 (s.iacc.getD b 0 + valOf v.val * cosTab (s.phase.getD b 0 / 2 ^ 34))).1)
    qacc := (List.range (h.sc x i 4 0 4)).map (fun b => (sat56 (s.qacc.getD b 0 - valOf v.val * sinTab (s.phase.getD b 0 / 2 ^ 34))).1)
    inBlk := s.inBlk + 1, orTag := tag, blkTime := time }

/-- The first input of a block, its phases at 0. -/
theorem Hub.binsTake_cleared (h : Hub) (x i : Nat) (u : BankUse) (s : Stage) (v : Samp) (tag : BitVec 8) (time : Nat) :
    (h.binsTake x i u s.binsCleared v tag time).iacc =
      (List.range (h.sc x i 4 0 4)).map (fun _ => (sat56 (valOf v.val * cosTab 0)).1) := by
  refine List.map_congr_left fun b _ => ?_
  change (sat56 (0 + valOf v.val * cosTab (0 / 2 ^ 34))).1 = _
  rw [Int.zero_add, Nat.zero_div]

/-- The block of a DETECT stage is done; only a context's own stage keeps it for delivery. -/
def Stage.binsDone (s : Stage) (x : Nat) : Stage :=
  { s with iacc := [], qacc := [], inBlk := 0, orTag := 0#8
           done := if x < 192 then some { i := s.iacc, q := s.qacc, flags := s.orTag, time := s.blkTime } else none }

theorem Hub.binsTake_congr {h g : Hub} (e : g.cells = h.cells) : g.binsTake = h.binsTake := by
  have hcoef : ∀ t k u, g.coefOf t k u = h.coefOf t k u := fun t k u => by
    cases u <;> simp only [Hub.coefOf, Hub.coef, Hub.cf_congr e]
  funext x i u s v tag time
  simp only [Hub.binsTake, Hub.binInc, hcoef, Hub.coefOff, Hub.sc_congr e, Hub.stTile_congr e]

/-- A DETECT stage after an input: a GAP begins a block before it, and a full block is done behind it (R211). -/
def Hub.detectNext (h : Hub) (x i : Nat) (u : BankUse) (s : Stage) (v : Samp) (tag : BitVec 8) (time : Nat) : Stage :=
  let s1 := h.binsTake x i u (if v.has tGap then s.binsCleared else s) v tag time
  if h.sc x i 4 5 16 + 1 ≤ s1.inBlk then s1.binsDone x else s1

section
variable {h : Hub} {x i : Nat} {u : BankUse} {s : Stage} {v : Samp} {tag : BitVec 8} {time : Nat}

theorem Hub.detectNext_inside (hgap : v.has tGap = false) (hin : s.inBlk < h.sc x i 4 5 16) :
    h.detectNext x i u s v tag time = h.binsTake x i u s v tag time := by
  unfold Hub.detectNext
  rw [hgap, if_neg Bool.false_ne_true]
  exact if_neg (Nat.not_le.2 (Nat.succ_lt_succ hin))

theorem Hub.detectNext_last (hgap : v.has tGap = false) (hlast : h.sc x i 4 5 16 ≤ s.inBlk) :
    h.detectNext x i u s v tag time = (h.binsTake x i u s v tag time).binsDone x := by
  unfold Hub.detectNext
  rw [hgap, if_neg Bool.false_ne_true]
  exact if_pos (Nat.succ_le_succ hlast)

theorem Hub.detectNext_gap (hgap : v.has tGap = true) (hlong : 0 < h.sc x i 4 5 16) :
    h.detectNext x i u s v tag time = h.binsTake x i u s.binsCleared v tag time := by
  unfold Hub.detectNext
  rw [if_pos hgap]
  exact if_neg (Nat.not_le.2 (Nat.succ_lt_succ hlong))

end

theorem Hub.detectNext_congr {h g : Hub} (e : g.cells = h.cells) : g.detectNext = h.detectNext := by
  funext x i u s v tag time
  simp only [Hub.detectNext, Hub.binsTake_congr e, Hub.sc_congr e]

theorem Hub.detectNext_inq (h : Hub) (x i : Nat) (u : BankUse) (s : Stage) (v : Samp) (tag : BitVec 8) (time : Nat) :
    (h.detectNext x i u s v tag time).inq = s.inq := by
  unfold Hub.detectNext
  dsimp only
  split <;> split <;> rfl

/-- A DETECT stage takes an input, no word it reads being bad. -/
theorem Hub.detectTake_eq {g : Hub} {x i : Nat} {fx : Fixed}
    (hpc : Hub.checkParity fx g x i 0 0 (some (g.bankUse x i false)) = (false, g)) (hw : (g.stg' x i).badW = []) (v : Samp) :
    ∃ tag time, Hub.detectTake fx x i g v =
      (Hub.giveOut fx (g.setStg x i (g.detectNext x i (g.bankUse x i false) (g.stg' x i) v tag time)) x i (valOf v.val) false false
        (v.tag &&& ~~~(tGap ||| tLate)) v.time).swapOutput x i false := by
  unfold Hub.detectTake
  extract_lets bins nb u pc met h1 s0 fresh s val ph ia qa lim tag s1 s2
  have hpc' : pc = (false, g) := hpc
  have hmet : met = false := by
    unfold met
    rw [hpc', hw]
    rfl
  have hh1 : h1 = g := by
    unfold h1
    rw [hmet, hpc']
    rfl
  have hs : s = if v.has tGap then (g.stg' x i).binsCleared else g.stg' x i := by
    unfold s s0
    rw [hh1]
    rfl
  have hph : ∀ b ∈ List.range bins, ph.getD b 0 = s.phase.getD b 0 := fun b hb => by
    simp [ph, List.mem_range.1 hb]
  have hs1 : s1 = g.binsTake x i u s v tag (if fresh then v.time else s.blkTime) := by
    unfold s1 ia qa Hub.binsTake
    rw [List.map_map, List.map_map, List.map_congr_left fun b hb => by rw [hph b hb]]
    congr 1
    · exact List.map_congr_left fun b hb => by rw [Function.comp, hph b hb]
    · exact List.map_congr_left fun b hb => by rw [Function.comp, hph b hb]
  refine ⟨tag, if fresh then v.time else s.blkTime, ?_⟩
  unfold Hub.detectNext
  rw [← hs, ← hs1, hpc', hmet, hh1]
  rfl

/-! ### The delivery of a block (R211, R233) -/

/-- A record given to the limit engine changes no register below the engine's own. -/
theorem Hub.limPush_rd (h : Hub) (r : FeaRec) {f : Fld} (hf : f.addr < 0x170000) : (h.limPush r).rd f = h.rd f := by
  unfold Hub.limPush
  split
  · exact (Hub.rd_wr_addr (f := fLimCountDropped) (g := f) _ _ (by simp only [fLimCountDropped, rLimCount]; omega)).trans
      (Hub.rd_wr_addr (f := fLimStatusOver) (g := f) _ _ (by simp only [fLimStatusOver, rLimStatus]; omega))
  · rfl

/-- A finished record is counted (R250). -/
theorem Hub.featDone_counts (h : Hub) (r : FeaRec) (hr : r.ctx < 192) (snap : Bool) (n : Nat) :
    (h.featDone r snap n).rd (fFeaCCountRecords r.ctx) = satTo 16 (h.rd (fFeaCCountRecords r.ctx) + 1) := by
  unfold Hub.featDone
  extract_lets c h1 h2
  have hcount : h1.rd (fFeaCCountRecords c) = satTo 16 (h.rd (fFeaCCountRecords c) + 1) := by
    unfold h1
    rw [Hub.present_rd _ _ (.inl (by simp only [fFeaCCountRecords, rFeaCCount]; omega))]
    exact Hub.rd_countSat_same _ _ (by simp [fFeaCCountRecords])
  have hpush : h2.rd (fFeaCCountRecords c) = h1.rd (fFeaCCountRecords c) := by
    unfold h2
    split
    · split
      · exact Hub.pushOut_rd ..
      · exact (Hub.rd_wr_ne (f := fFeaCCountLost c) (g := fFeaCCountRecords c) _ _ (by simp [fFeaCCountLost])
          (by simp [fFeaCCountRecords]) (by simp [fFeaCCountLost, fFeaCCountRecords])).trans
          (Hub.rd_wr_addr (f := fFeaCStatusRecLost c) (g := fFeaCCountRecords c) _ _
            (by simp only [fFeaCCountRecords, fFeaCStatusRecLost, rFeaCCount, rFeaCStatus]; omega))
    · rfl
  have hlim : (h2.limPush r).rd (fFeaCCountRecords c) = h2.rd (fFeaCCountRecords c) :=
    Hub.limPush_rd _ _ (by simp only [fFeaCCountRecords, rFeaCCount, c]; omega)
  split
  · exact hpush.trans hcount
  · exact (hlim.trans hpush).trans hcount

/-- The hub once a stage's finished block was taken, and counted where a DETECT stage counts. -/
def Hub.blockTaken (h : Hub) (c i : Nat) : Hub :=
  (h.setStg c i { h.stg' c i with done := none }).setReg (rFabTSlCnt (h.stTile c i) (h.stSlot c i))
    (h.reg (rFabTSlCnt (h.stTile c i) (h.stSlot c i)) + 1#32)

/-- The record of a finished block (R233). -/
def Hub.blockRec (h : Hub) (c i : Nat) (d : DetBlock) : FeaRec :=
  { ctx := c, set := 2, tag := d.flags, time := d.time, vals := binVals (h.sc c i 4 5 16 + 1) d, cyc := h.cyc }

theorem Hub.detectResult_eq {h : Hub} {c i : Nat} {d : DetBlock} (hk : h.stKind c i = 7) (hd : (h.stg' c i).done = some d) :
    h.detectResult c i = if (h.blockTaken c i).feaOn c then (h.blockTaken c i).featDone (h.blockRec c i d) false d.i.length
      else h.blockTaken c i := by
  unfold Hub.detectResult
  rw [if_pos hk]
  dsimp only
  rw [hd]
  rfl

/-- The count of a slot is a register of the fabric's tiles. -/
theorem Hub.slotCnt_place (h : Hub) (x i : Nat) :
    0x80000 ≤ rFabTSlCnt (h.stTile x i) (h.stSlot x i) ∧ rFabTSlCnt (h.stTile x i) (h.stSlot x i) < 0xA0000 := by
  have ht := h.stTile_lt x i
  have hs : h.stSlot x i < 64 := fieldOf_lt _ _ 6
  simp only [rFabTSlCnt]
  omega

/-- A delivered block is counted, with a record of the feature set where that is on. -/
theorem Hub.detectResult_delivers {h : Hub} {c i : Nat} {d : DetBlock} (hc : c < 192) (hk : h.stKind c i = 7)
    (hd : (h.stg' c i).done = some d) :
    let r := h.detectResult c i
    (r.stg' c i).done = none ∧
      r.reg (rFabTSlCnt (h.stTile c i) (h.stSlot c i)) = h.reg (rFabTSlCnt (h.stTile c i) (h.stSlot c i)) + 1#32 ∧
      (h.feaOn c = true → r.rd (fFeaCCountRecords c) = satTo 16 (h.rd (fFeaCCountRecords c) + 1)) := by
  obtain ⟨hhigh, hlow⟩ := h.slotCnt_place c i
  have hon : (h.blockTaken c i).feaOn c = h.feaOn c := by
    unfold Hub.feaOn
    rw [show (h.blockTaken c i).is fLdrStatusConfigured = h.is fLdrStatusConfigured from
      Hub.is_congr (Hub.rd_congr (Hub.reg_setReg_ne _ _ (by simp only [fLdrStatusConfigured, rLdrStatus]; omega)))]
    rfl
  have hrec : (h.blockTaken c i).rd (fFeaCCountRecords c) = h.rd (fFeaCCountRecords c) :=
    Hub.rd_congr (Hub.reg_setReg_ne _ _ (by simp only [fFeaCCountRecords, rFeaCCount]; omega))
  have hsends : (h.blockTaken c i).Sends (h.detectResult c i) := by
    rw [Hub.detectResult_eq hk hd]
    split
    · exact Hub.featDone_sends ..
    · exact Hub.Sends.refl _
  refine ⟨?_, (hsends.reg _ hlow).trans (Hub.reg_setReg_same ..), fun hfea => ?_⟩
  · unfold Hub.stg'
    rw [hsends.stg]
    exact congrArg Stage.done (Hub.stg'_setStg h c i _)
  · rw [Hub.detectResult_eq hk hd, hon, if_pos hfea, ← hrec]
    exact Hub.featDone_counts _ (h.blockRec c i d) hc ..

end Sys2Proof.Machine
end

section
/-! SUPPORT. The statement about ORDER and DETECT stages (R203, R205 to R207, R210, R211). -/

namespace Sys2Proof.Machine
open Sys2Proof

section
variable {h : Hub} {x i : Nat} {v : Samp} {rest : List Samp} (hi : i < 8)
include hi

/-! ### ORDER -/

/-- An input in ACQUIRE before the next stamp. -/
theorem Hub.orderEval_acquires (ht : h.takesNext x i 5 v rest) (hacq : (h.stg' x i).acquired = false)
    (hs : (h.stg' x i).stamps.all (fun e => decide (v.time < e)) = true) (fx : Fixed) :
    let r := h.evalStage x i 5 noParity (Hub.orderTake fx x i)
    (∃ q, r.stg' x i = ((h.stg' x i).took v q).shift 64 v) ∧ (h.ctxKind (ctxOf x) ≠ 6 → r.stageIn x i = rest) := by
  obtain ⟨htake, -, -⟩ := ht
  obtain ⟨g, heval, hg⟩ := Hub.evalStage_takes hi htake (Hub.orderTake fx x i)
  obtain ⟨q, hown⟩ := hg.own
  have hacq' : (g.stg' x i).acquired = false := by rw [hown]; exact hacq
  have hs' : (g.stg' x i).stamps.all (fun e => decide (v.time < e)) = true := by rw [hown]; exact hs
  obtain ⟨k, hrun⟩ := Hub.orderTake_noStamp (by rw [hacq', Bool.and_false]) hs' (.inl hacq') fx
  dsimp only
  rw [heval, hrun, Hub.ordRun_rests (by rw [Hub.ordTaken_stg']; exact .inl hacq'), Hub.ordTaken_stg', Stage.ordShift_none hs', hown]
  exact ⟨⟨q, rfl⟩, fun hk => (g.ordTaken_stageIn x i v).trans (hg.next hk)⟩

/-- The first stamp of an acquisition lies between the previous input and this one. -/
theorem Hub.orderEval_firstStamp {e : Nat} (ht : h.takesNext x i 5 v rest) (hacq : (h.stg' x i).acquired = false)
    (hedges : (h.stg' x i).edges = []) (hn : 0 < (h.stg' x i).n) (hstamp : (h.stg' x i).stamps = [e])
    (hafter : (h.stg' x i).timeBefore v < e) (hupto : e ≤ v.time) (fx : Fixed) :
    let r := h.evalStage x i 5 noParity (Hub.orderTake fx x i)
    (r.stg' x i).edges = [(h.stg' x i).stampPos v e] ∧ (r.stg' x i).stamps = [] ∧ (r.stg' x i).outs = (h.stg' x i).outs := by
  obtain ⟨htake, -, -⟩ := ht
  obtain ⟨g, heval, hg⟩ := Hub.evalStage_takes hi htake (Hub.orderTake fx x i)
  obtain ⟨q, hown⟩ := hg.own
  have hgap : (v.has tGap && (g.stg' x i).acquired) = false := by
    rw [hown, show ((h.stg' x i).took v q).acquired = false from hacq, Bool.and_false]
  have hdue : (g.stg' x i).dueStamps v = [e] := by
    rw [hown, show ((h.stg' x i).took v q).dueStamps v = (h.stg' x i).dueStamps v from rfl, Stage.dueStamps, hstamp]
    simp [hafter, hupto]
  have hleft : (g.stg' x i).ordShift v = { ((h.stg' x i).took v q).shift 64 v with stamps := [] } := by
    rw [hown, Stage.ordShift, show ((h.stg' x i).took v q).stamps = [e] from hstamp]
    simp [hupto]
  have hpos : (g.stg' x i).stampPos v e = (h.stg' x i).stampPos v e := by rw [hown]; rfl
  have hn' : (g.stg' x i).n ≠ 0 := by rw [hown]; exact Nat.ne_of_gt hn
  have hfirst : (g.ordTaken x i v).ordStamp x i (g.ordCfg x i) ((h.stg' x i).stampPos v e) = (g.ordTaken x i v).setStg x i
      { ((h.stg' x i).took v q).shift 64 v with stamps := [], edges := [(h.stg' x i).stampPos v e] } := by
    rw [Hub.ordStamp_first (by rw [Hub.ordTaken_stg', hleft]; exact hacq) (by rw [Hub.ordTaken_stg', hleft]; exact hedges),
      Hub.ordTaken_stg', hleft]
  dsimp only
  rw [heval, Hub.orderTake_eq hgap]
  dsimp only
  rw [if_neg hn', hdue, List.foldl_cons, List.foldl_nil, hpos, hfirst, Hub.ordMissing_rests (by rw [Hub.stg'_setStg]; exact .inl hacq),
    Hub.ordRun_rests (by rw [Hub.stg'_setStg]; exact .inl hacq), Hub.stg'_setStg]
  exact ⟨rfl, rfl, rfl⟩

/-- An input in TRACK or COAST with no edge due, that completes one output. -/
theorem Hub.orderEval_outputs (ht : h.takesNext x i 5 v rest) (hacq : (h.stg' x i).acquired = true) (hgap : v.has tGap = false)
    (hs : (h.stg' x i).stamps.all (fun e => decide (v.time < e)) = true) (hwin : (h.stg' x i).n * 16777216 < (h.stg' x i).winHi)
    (hst : h.rd (fFabTSlStState (h.stTile x i) (h.stSlot x i)) ≠ 4) (hp : (h.stg' x i).pos / 16777216 + 16 < (h.stg' x i).n + 1)
    (hn : (h.stg' x i).n + 1 ≤ ((h.stg' x i).pos + h.rd (fFabTSlSetSet (h.stTile x i) (h.stSlot x i))) / 16777216 + 16) (fx : Fixed) :
    let r := h.evalStage x i 5 noParity (Hub.orderTake fx x i)
    let s := (h.stg' x i).shift 64 v
    (r.stg' x i).prev = toVal (s.interp (roundPos (h.stg' x i).pos).1 (roundPos (h.stg' x i).pos).2).1 ∧
      (r.stg' x i).pos = (h.stg' x i).pos + h.rd (fFabTSlSetSet (h.stTile x i) (h.stSlot x i)) ∧
      (r.stg' x i).kNext = (h.stg' x i).kNext + 1 ∧ (r.stg' x i).outs = (h.stg' x i).outs + 1 ∧
      (h.ctxKind (ctxOf x) ≠ 6 → r.stageIn x i = rest) := by
  obtain ⟨htake, ⟨hcoef, hline, -⟩, hr⟩ := ht
  obtain ⟨g, heval, hg⟩ := Hub.evalStage_takes hi htake (Hub.orderTake fx x i)
  obtain ⟨q, hown⟩ := hg.own
  have hs' : (g.stg' x i).stamps.all (fun e => decide (v.time < e)) = true := by rw [hown]; exact hs
  have hstg : (g.ordTaken x i v).stg' x i = ((h.stg' x i).took v q).shift 64 v := by
    rw [Hub.ordTaken_stg', Stage.ordShift_none hs', hown]
  have htile : (g.ordTaken x i v).stTile x i = h.stTile x i := by rw [← Hub.stTile_congr hg.cells]; rfl
  have hslot : (g.ordTaken x i v).stSlot x i = h.stSlot x i := by rw [← Hub.stSlot_congr hg.cells]; rfl
  have hstate : (g.ordTaken x i v).rd (fFabTSlStState (h.stTile x i) (h.stSlot x i)) ≠ 4 := by
    rwa [← hg.rd (h.slotState_low x i)] at hst
  have hset : (g.ordTaken x i v).rd (fFabTSlSetSet (h.stTile x i) (h.stSlot x i)) = h.rd (fFabTSlSetSet (h.stTile x i) (h.stSlot x i)) :=
    hg.rd (h.slotSet_low x i)
  obtain ⟨k, hrun⟩ := Hub.orderTake_noStamp (by rw [hgap, Bool.false_and]) hs' (.inr (by rw [hown]; exact hwin)) fx
  have hpc : ∀ lo len, Hub.checkParity fx (g.ordTaken x i v) x i lo len none = (false, g.ordTaken x i v) := fun lo len =>
    hg.reads_good (k := g.ordTaken x i v) hcoef rfl rfl (by rw [hstg]; exact Stage.shift_good hline 64 v) fx lo len none
  obtain ⟨extra, hone⟩ := Hub.ordRun_reached (h := g.ordTaken x i v) (x := x) (i := i) (by rw [hstg]; exact hacq)
    (by rw [hstg]; exact hp) (by rw [htile, hslot]; exact hstate) fx k (16777216 / k.rFloor + 1)
  rw [htile, hslot, hstg] at hone
  obtain ⟨lim, tag, hout⟩ := Hub.outAt_gives fx hpc (h.stg' x i).pos extra
    ((((h.stg' x i).took v q).shift 64 v).timePos (h.stg' x i).pos)
  rw [hstg] at hout
  obtain ⟨hgave, hnext, hrd⟩ := hg.gives hi htake.1 (by decide) hr (s := ((h.stg' x i).took v q).shift 64 v) (k := g.ordTaken x i v)
    (by rw [hown]; rfl) rfl hstg rfl fx
    ((((h.stg' x i).took v q).shift 64 v).interp (roundPos (h.stg' x i).pos).1 (roundPos (h.stg' x i).pos).2).1 lim false tag
    ((((h.stg' x i).took v q).shift 64 v).timePos (h.stg' x i).pos)
  rw [show (((h.stg' x i).took v q).shift 64 v).pos = (h.stg' x i).pos from rfl, hout] at hone
  dsimp only at hone ⊢
  rw [hrd _ (h.slotSet_low x i), hset] at hone
  rw [heval, hrun, hone, Hub.ordRun_rests (by rw [Hub.stg'_modStg, hgave]; exact .inr hn), Hub.stg'_modStg, hgave]
  refine ⟨rfl, rfl, rfl, rfl, fun hk => ?_⟩
  rw [← hnext hk]
  exact Hub.stageIn_setStg rfl

/-! ### DETECT -/

/-- What an input leaves of a DETECT stage, which passes it on, but for a swap of its bank. -/
theorem Hub.detectEval_gives (ht : h.takesNext x i 7 v rest) (fx : Fixed) :
    let r := h.evalStage x i 7 noParity (Hub.detectTake fx x i)
    ∃ q tag time, (r.stg' x i).apartSwap =
        ((h.detectNext x i (h.bankUse x i false) ((h.stg' x i).took v q) v tag time).gave (valOf v.val) false).apartSwap ∧
      (h.ctxKind (ctxOf x) ≠ 6 → r.stageIn x i = rest) := by
  obtain ⟨htake, ⟨hcoef, hline, hwords⟩, hr⟩ := ht
  obtain ⟨g, heval, hg⟩ := Hub.evalStage_takes hi htake (Hub.detectTake fx x i)
  obtain ⟨q, hown⟩ := hg.own
  have huse : g.bankUse x i false = h.bankUse x i false :=
    Hub.bankUse_congr hg.cells hg.tile hg.reg (by rw [hown]; rfl) (by rw [hown]; rfl) false
  obtain ⟨tag, time, hgive⟩ := Hub.detectTake_eq (hg.reads_good hcoef rfl rfl (by rw [hown]; exact hline) fx 0 0 _)
    (by rw [hown]; exact hwords) v
  rw [huse, Hub.detectNext_congr hg.cells, hown] at hgive
  obtain ⟨hgave, hnext, -⟩ := hg.gives hi htake.1 (by decide) hr
    (s := h.detectNext x i (h.bankUse x i false) ((h.stg' x i).took v q) v tag time) (k := g.setStg x i _)
    (by rw [hown, Hub.detectNext_inq]) rfl (Hub.stg'_setStg ..) rfl fx (valOf v.val) false false (v.tag &&& ~~~(tGap ||| tLate)) v.time
  have hframe := Hub.swapOutput_frame (Hub.giveOut fx (g.setStg x i (h.detectNext x i (h.bankUse x i false)
    ((h.stg' x i).took v q) v tag time)) x i (valOf v.val) false false (v.tag &&& ~~~(tGap ||| tLate)) v.time) x i false
  refine ⟨q, tag, time, ?_⟩
  rw [heval, hgive]
  exact ⟨(hframe.stage _).trans (congrArg Stage.apartSwap hgave), fun hk => (hframe.stageIn x i).trans (hnext hk)⟩

end

/-- Settles O15: each stage kind by what its evaluation leaves of the stage that took its input, and a delivery by what it counts. -/
theorem orderAndDetect : Obligations.OrderAndDetect := by
  refine ⟨?_, ?_, ?_, ?_, ?_, ?_, ?_⟩
  · -- ORDER_EVALUATION, nothing acquired and no stamp due
    intro s c sh i x rest ht hacq hs
    obtain ⟨⟨q, hown⟩, hnext⟩ := Hub.orderEval_acquires i.isLt ht hacq hs s.fixed
    refine ⟨_, rfl, ?_⟩
    dsimp only
    rw [latchIrq_stg', latchIrq_stageIn, hown]
    exact ⟨rfl, rfl, rfl, rfl, rfl, fun hk => hnext (by rwa [ctxOf_chainOf])⟩
  · -- ORDER_EVALUATION, the first stamp lies between the previous input and this one
    intro s c sh i x rest e ht hacq hedges hn hstamp hafter hupto
    obtain ⟨hedge, hleft, houts⟩ := Hub.orderEval_firstStamp i.isLt ht hacq hedges hn hstamp
      (by rwa [Stage.timeBefore_eq hn]) hupto s.fixed
    refine ⟨_, rfl, ?_⟩
    dsimp only
    rw [latchIrq_stg', ← Stage.timeBefore_eq hn]
    exact ⟨hedge, hleft, houts⟩
  · -- ORDER_EVALUATION in TRACK or COAST, no stamp and no missing edge due, one output completed
    intro s c sh i x rest r ht hacq hgap hs hwin hst hr hp hn
    subst hr
    obtain ⟨hprev, hpos, hk, houts, hnext⟩ := Hub.orderEval_outputs i.isLt ht hacq hgap hs hwin (by omega) hp hn s.fixed
    refine ⟨_, rfl, ?_⟩
    dsimp only
    rw [latchIrq_stg', latchIrq_stageIn]
    exact ⟨hprev, hpos, hk, houts, fun hk => hnext (by rwa [ctxOf_chainOf])⟩
  · -- DETECT_EVALUATION inside a block
    intro s c sh i x rest ht hgap hin
    obtain ⟨q, tag, time, hstage, hnext⟩ := Hub.detectEval_gives i.isLt ht s.fixed
    rw [Hub.detectNext_inside (s := (s.hub.stg' (chainOf c sh) i).took x q) hgap hin] at hstage
    refine ⟨_, rfl, ?_⟩
    dsimp only
    rw [latchIrq_stg', latchIrq_stageIn]
    exact ⟨(Stage.eq_of_apartSwap hstage Stage.prev).trans (toVal_valOf _), Stage.eq_of_apartSwap hstage Stage.inBlk,
      Stage.eq_of_apartSwap hstage Stage.iacc, Stage.eq_of_apartSwap hstage Stage.qacc, Stage.eq_of_apartSwap hstage Stage.phase,
      Stage.eq_of_apartSwap hstage Stage.outs, fun hk => hnext (by rwa [ctxOf_chainOf])⟩
  · -- DETECT_EVALUATION of the last input of a block
    intro s c sh i x rest ht hgap hlast hsh
    obtain ⟨q, tag, time, hstage, -⟩ := Hub.detectEval_gives i.isLt ht s.fixed
    have hown : chainOf c sh < 192 := by
      rw [hsh]
      exact c.isLt
    rw [Hub.detectNext_last (s := (s.hub.stg' (chainOf c sh) i).took x q) hgap hlast, Stage.binsDone, if_pos hown] at hstage
    refine ⟨_, rfl, ?_⟩
    dsimp only
    rw [latchIrq_stg']
    exact ⟨(Stage.eq_of_apartSwap hstage Stage.prev).trans (toVal_valOf _), Stage.eq_of_apartSwap hstage Stage.inBlk,
      Stage.eq_of_apartSwap hstage Stage.iacc, Stage.eq_of_apartSwap hstage (fun z => z.done.map (fun d => d.i)),
      Stage.eq_of_apartSwap hstage Stage.outs⟩
  · -- DETECT_EVALUATION of an input with GAP
    intro s c sh i x rest ht hgap hlong
    obtain ⟨q, tag, time, hstage, -⟩ := Hub.detectEval_gives i.isLt ht s.fixed
    rw [Hub.detectNext_gap (s := (s.hub.stg' (chainOf c sh) i).took x q) hgap hlong] at hstage
    refine ⟨_, rfl, ?_⟩
    dsimp only
    rw [latchIrq_stg']
    exact ⟨(Stage.eq_of_apartSwap hstage Stage.prev).trans (toVal_valOf _), Stage.eq_of_apartSwap hstage Stage.inBlk,
      (Stage.eq_of_apartSwap hstage Stage.iacc).trans
        (Hub.binsTake_cleared _ _ _ (s.hub.bankUse (chainOf c sh) i false) _ _ tag time),
      Stage.eq_of_apartSwap hstage Stage.outs⟩
  · -- DETECT_BLOCK_RESULT
    intro s c i d hk hd
    obtain ⟨hdone, hcnt, hrec⟩ := Hub.detectResult_delivers c.isLt hk hd
    have hlow := s.hub.slotCnt_place c i
    refine ⟨_, rfl, ?_⟩
    dsimp only
    rw [latchIrq_stg', latchIrq_reg _ _ _ _ (by omega), latchIrq_rd _ _ _ _ (by simp only [fFeaCCountRecords, rFeaCCount]; omega)]
    exact ⟨hdone, hcnt, hrec⟩

end Sys2Proof.Machine
end

section
/-! SUPPORT. Feature sets: the records they finish, their six values and their snapshots (R231, R234 to R236, R239, R250). -/

namespace Sys2Proof.Machine
open Sys2Proof

/-! ### A record for the limit engine (R239) -/

theorem Hub.limPush_room {h : Hub} (hroom : h.lim.fifo.length < 64) (r : FeaRec) :
    h.limPush r = { h with lim := { h.lim with fifo := limInsert { r with cyc := h.cyc } h.lim.fifo } } :=
  if_neg (by omega)

theorem Hub.limPush_full {h : Hub} (hfull : 64 ≤ h.lim.fifo.length) (r : FeaRec) :
    h.limPush r = (h.on fLimStatusOver).countSat fLimCountDropped 1 := if_pos hfull

@[simp] theorem Hub.limPush_fea (h : Hub) (r : FeaRec) : (h.limPush r).fea = h.fea := by
  unfold Hub.limPush
  split <;> rfl

@[simp] theorem Hub.limPush_outbox (h : Hub) (r : FeaRec) : (h.limPush r).outbox = h.outbox := by
  unfold Hub.limPush
  split <;> rfl

theorem Hub.limPush_reg (h : Hub) (r : FeaRec) {a : Nat} (ha : a < 0x170000) : (h.limPush r).reg a = h.reg a := by
  unfold Hub.limPush
  split
  · exact (Hub.reg_countSat_ne _ fLimCountDropped 1 (by simp only [fLimCountDropped, rLimCount]; omega)).trans
      (Hub.reg_on_ne _ fLimStatusOver (by simp only [fLimStatusOver, rLimStatus]; omega))
  · rfl

/-! ### A finished record (R234, R236) -/

/-- A finished record is counted and presented. -/
def Hub.recCounted (h : Hub) (c : Nat) : Hub := (h.countSat (fFeaCCountRecords c) 1).present (0x4100 + c)

/-- A finished record goes to its queue, or is lost behind one that still waits. -/
def Hub.recSent (h : Hub) (r : FeaRec) (snap : Bool) (n : Nat) : Hub :=
  if h.cf 6 (4 + r.ctx) 0 (13 + r.set) 1 = 1 then
    if (NMap.get h.outbox (prodFea r.ctx)).isEmpty || !h.qHolds (h.feaQueue r.ctx) (prodFea r.ctx) then
      h.pushOut (prodFea r.ctx) (h.feaQueue r.ctx) (recordWords 2 (featureWords h r snap n))
    else (h.on (fFeaCStatusRecLost r.ctx)).countSat (fFeaCCountLost r.ctx) 1
  else h

theorem Hub.featDone_eq (h : Hub) (r : FeaRec) (snap : Bool) (n : Nat) : h.featDone r snap n =
    if snap then (h.recCounted r.ctx).recSent r snap n else ((h.recCounted r.ctx).recSent r snap n).limPush r := rfl

@[simp] theorem Hub.recCounted_fea (h : Hub) (c : Nat) : (h.recCounted c).fea = h.fea := by simp [Hub.recCounted]
@[simp] theorem Hub.recCounted_lim (h : Hub) (c : Nat) : (h.recCounted c).lim = h.lim := by simp [Hub.recCounted]
@[simp] theorem Hub.recCounted_cyc (h : Hub) (c : Nat) : (h.recCounted c).cyc = h.cyc := by simp [Hub.recCounted]
@[simp] theorem Hub.recCounted_outbox (h : Hub) (c : Nat) : (h.recCounted c).outbox = h.outbox := by simp [Hub.recCounted]
@[simp] theorem Hub.recCounted_cells (h : Hub) (c : Nat) : (h.recCounted c).cells = h.cells := by simp [Hub.recCounted]

theorem Hub.recCounted_reg (h : Hub) {c a : Nat} (ha : a < 0x180000) (hc : a ≠ rFeaCCount c) :
    (h.recCounted c).reg a = h.reg a :=
  (Hub.present_reg _ _ (.inl ha)).trans (h.reg_countSat_ne (fFeaCCountRecords c) 1 hc)

theorem Hub.recCounted_rd (h : Hub) {c : Nat} {f : Fld} (hf : f.addr < 0x180000)
    (hfc : (fFeaCCountRecords c).apart f) : (h.recCounted c).rd f = h.rd f :=
  (Hub.present_rd _ _ (.inl hf)).trans (h.rd_wr_apart _ hfc)

@[simp] theorem Hub.recSent_fea (h : Hub) (r : FeaRec) (snap : Bool) (n : Nat) : (h.recSent r snap n).fea = h.fea := by
  unfold Hub.recSent
  (repeat' split) <;> rfl

@[simp] theorem Hub.recSent_lim (h : Hub) (r : FeaRec) (snap : Bool) (n : Nat) : (h.recSent r snap n).lim = h.lim := by
  unfold Hub.recSent
  (repeat' split) <;> rfl

@[simp] theorem Hub.recSent_cyc (h : Hub) (r : FeaRec) (snap : Bool) (n : Nat) : (h.recSent r snap n).cyc = h.cyc := by
  unfold Hub.recSent
  (repeat' split) <;> rfl

theorem Hub.recSent_reg (h : Hub) (r : FeaRec) (snap : Bool) (n : Nat) {a : Nat} (hs : a ≠ rFeaCStatus r.ctx)
    (hc : a ≠ rFeaCCount r.ctx) : (h.recSent r snap n).reg a = h.reg a := by
  unfold Hub.recSent
  split
  · split
    · rfl
    · exact (Hub.reg_countSat_ne _ (fFeaCCountLost r.ctx) 1 hc).trans (Hub.reg_on_ne _ (fFeaCStatusRecLost r.ctx) hs)
  · rfl

/-- A delivered record behind which no word of its set waits joins the set's outgoing words (R236). -/
theorem Hub.recSent_delivers {h : Hub} {r : FeaRec} (hd : h.cf 6 (4 + r.ctx) 0 (13 + r.set) 1 = 1)
    (hempty : NMap.get h.outbox (prodFea r.ctx) = []) (snap : Bool) (n : Nat) : h.recSent r snap n =
      h.pushOut (prodFea r.ctx) (h.feaQueue r.ctx) (recordWords 2 (featureWords h r snap n)) := by
  unfold Hub.recSent
  rw [if_pos hd, if_pos (by simp [hempty])]

theorem featureWords_congr {h g : Hub} (e : g.cells = h.cells) : featureWords g = featureWords h := by
  funext r snap n
  unfold featureWords Hub.feaAc Hub.cf Hub.cell
  rw [e]

theorem Hub.feaQueue_congr {h g : Hub} (e : g.cells = h.cells) : g.feaQueue = h.feaQueue := by
  funext c
  unfold Hub.feaQueue Hub.cf Hub.cell
  rw [e]

@[simp] theorem Hub.featDone_fea (h : Hub) (r : FeaRec) (snap : Bool) (n : Nat) : (h.featDone r snap n).fea = h.fea := by
  rw [Hub.featDone_eq]
  split <;> simp

theorem Hub.featDone_reg (h : Hub) (r : FeaRec) (snap : Bool) (n : Nat) {a : Nat} (ha : a < 0x170000)
    (hs : a ≠ rFeaCStatus r.ctx) (hc : a ≠ rFeaCCount r.ctx) : (h.featDone r snap n).reg a = h.reg a := by
  have hsent : ((h.recCounted r.ctx).recSent r snap n).reg a = h.reg a :=
    (Hub.recSent_reg _ r snap n hs hc).trans (h.recCounted_reg (by omega) hc)
  rw [Hub.featDone_eq]
  split
  · exact hsent
  · exact (Hub.limPush_reg _ r ha).trans hsent

/-- A snapshot's record does not reach the limit engine (R235). -/
theorem Hub.featDone_snap_lim (h : Hub) (r : FeaRec) (n : Nat) : (h.featDone r true n).lim = h.lim := by
  rw [Hub.featDone_eq, if_pos rfl, Hub.recSent_lim, Hub.recCounted_lim]

/-- A record of this cycle takes its place with the limit engine, which drops it when 64 wait (R239). -/
theorem Hub.featDone_fifo (h : Hub) {r : FeaRec} (hcyc : r.cyc = h.cyc) (n : Nat) :
    (h.lim.fifo.length < 64 → (h.featDone r false n).lim.fifo = limInsert r h.lim.fifo) ∧
      (64 ≤ h.lim.fifo.length →
        (h.featDone r false n).lim.fifo = h.lim.fifo ∧ (h.featDone r false n).is fLimStatusOver = true) := by
  have hlim : ((h.recCounted r.ctx).recSent r false n).lim = h.lim := by simp
  have hnow : { r with cyc := ((h.recCounted r.ctx).recSent r false n).cyc } = r := by
    simp [← hcyc]
  rw [Hub.featDone_eq, if_neg (by decide)]
  refine ⟨fun hroom => ?_, fun hfull => ?_⟩
  · rw [Hub.limPush_room (by rwa [hlim]), hnow, hlim]
  · rw [Hub.limPush_full (by rwa [hlim])]
    exact ⟨congrArg Lim.fifo hlim, (Hub.is_wr_apart _ _ (by decide)).trans (Hub.is_on_same _ (by decide) (by decide))⟩

/-- A record that is delivered with no word of its set waiting: its words, and none counted as lost. -/
theorem Hub.featDone_delivers {h : Hub} {r : FeaRec} (hr : r.ctx < 192) (hd : h.cf 6 (4 + r.ctx) 0 (13 + r.set) 1 = 1)
    (hempty : NMap.get h.outbox (prodFea r.ctx) = []) (n : Nat) :
    NMap.get (h.featDone r false n).outbox (prodFea r.ctx) =
        (recordWords 2 (featureWords h r false n)).map (fun w => (h.feaQueue r.ctx, w)) ∧
      (h.featDone r false n).rd (fFeaCCountLost r.ctx) = h.rd (fFeaCCountLost r.ctx) := by
  have hcells := h.recCounted_cells r.ctx
  have hd' : (h.recCounted r.ctx).cf 6 (4 + r.ctx) 0 (13 + r.set) 1 = 1 := by
    unfold Hub.cf Hub.cell
    rw [hcells]
    exact hd
  have hempty' : NMap.get (h.recCounted r.ctx).outbox (prodFea r.ctx) = [] := by rwa [Hub.recCounted_outbox]
  rw [Hub.featDone_eq, if_neg (by decide), Hub.limPush_outbox, Hub.recSent_delivers hd' hempty']
  refine ⟨?_, ?_⟩
  · unfold Hub.pushOut
    rw [NMap.get_modify_same, hempty', featureWords_congr hcells, Hub.feaQueue_congr hcells, List.nil_append]
  · have hlow : (fFeaCCountLost r.ctx).addr < 0x170000 := by simp only [fFeaCCountLost, rFeaCCount]; omega
    rw [Hub.limPush_rd _ _ hlow, Hub.pushOut_rd]
    exact h.recCounted_rd (by omega) (by simp [Fld.apart, fFeaCCountRecords, fFeaCCountLost])

/-! ### The six values (R231, R250) -/

/-- Store a set's values in their registers. -/
def Hub.putValues (h : Hub) (c : Nat) (vs : List Word) : Hub :=
  vs.zipIdx.foldl (fun a p => a.setReg (rFeaCValues c p.2) p.1) h

theorem Hub.putValues_concat (h : Hub) (c : Nat) (vs : List Word) (v : Word) :
    h.putValues c (vs ++ [v]) = (h.putValues c vs).setReg (rFeaCValues c vs.length) v := by
  simp [Hub.putValues, List.zipIdx_append]

theorem Hub.putValues_records (h : Hub) (c : Nat) (vs : List Word) :
    h.putValues c vs = { h with regs := (h.putValues c vs).regs } := by
  induction vs using List.reverseRecOn with
  | nil => rfl
  | append_singleton vs v ih => rw [Hub.putValues_concat, ih]; rfl

theorem Hub.putValues_reg (h : Hub) {c a : Nat} (vs : List Word) (ha : ∀ k < vs.length, a ≠ rFeaCValues c k) :
    (h.putValues c vs).reg a = h.reg a := by
  induction vs using List.reverseRecOn with
  | nil => rfl
  | append_singleton vs v ih =>
    rw [List.length_append, List.length_singleton] at ha
    rw [Hub.putValues_concat, Hub.reg_setReg_ne _ _ (ha _ (by omega)), ih fun k hk => ha k (by omega)]

theorem Hub.putValues_value (h : Hub) (c : Nat) (vs : List Word) {k : Nat} (hk : k < vs.length) :
    (h.putValues c vs).reg (rFeaCValues c k) = vs[k] := by
  induction vs using List.reverseRecOn with
  | nil => exact absurd hk (Nat.not_lt_zero k)
  | append_singleton vs v ih =>
    rw [Hub.putValues_concat]
    by_cases hlast : k = vs.length
    · subst hlast
      simp
    · rw [List.length_append, List.length_singleton] at hk
      rw [Hub.reg_setReg_ne _ _ (by simp only [rFeaCValues]; omega), ih (by omega),
        List.getElem_append_left (by omega)]

theorem Hub.feaValues_putValues (h : Hub) (c : Nat) {vs : List Word} (hvs : vs.length = 6) :
    (h.putValues c vs).feaValues c = vs := by
  refine List.ext_getElem (by simp [Hub.feaValues, hvs]) fun k _ hk => ?_
  simpa [Hub.feaValues] using Hub.putValues_value h c vs hk

theorem timeValues_length (ac : Bool) (xs : List Samp) : (timeValues ac xs).length = 6 := rfl

theorem Hub.feaValues_congr {h g : Hub} {c : Nat} (e : ∀ k < 6, g.reg (rFeaCValues c k) = h.reg (rFeaCValues c k)) :
    g.feaValues c = h.feaValues c :=
  List.map_congr_left fun k hk => e k (List.mem_range.1 hk)

/-- A finished record leaves the set's values. -/
theorem Hub.featDone_feaValues (h : Hub) {r : FeaRec} (hr : r.ctx < 192) (snap : Bool) (n : Nat) :
    (h.featDone r snap n).feaValues r.ctx = h.feaValues r.ctx :=
  Hub.feaValues_congr fun k hk => h.featDone_reg r snap n (by simp only [rFeaCValues]; omega)
    (by simp only [rFeaCValues, rFeaCStatus]; omega) (by simp only [rFeaCValues, rFeaCCount]; omega)

/-- A read of the first value latches all six (R250). -/
theorem Hub.feaRead_latches (h : Hub) (c : Nat) : (NMap.get (h.feaRead c).2.fea c).latch = h.feaValues c := by
  unfold Hub.feaRead
  dsimp only
  rw [NMap.get_modify_same]

/-! ### A full block (R231, R236) -/

/-- The samples of a set's full block. -/
def Hub.fullBlock (h : Hub) (c : Nat) : List Samp := (NMap.get h.fea c).blk.take (h.feaN c)

/-- A full block left its set, whose values are the block's. -/
def Hub.blockCut (h : Hub) (c : Nat) : Hub :=
  Hub.putValues { h with fea := NMap.set h.fea c { NMap.get h.fea c with blk := (NMap.get h.fea c).blk.drop (h.feaN c) } } c
    (timeValues (h.feaAc c) (h.fullBlock c))

theorem Hub.timeBlock_full {h : Hub} {c : Nat} (hon : h.feaOn c = true) (hfull : h.feaN c ≤ (NMap.get h.fea c).blk.length) :
    h.timeBlock c = (h.blockCut c).featDone (h.timeRec c (h.fullBlock c)) false (h.feaN c) := by
  unfold Hub.timeBlock
  dsimp only
  rw [if_pos (by simp [hon, hfull])]
  rfl

theorem Hub.timeBlock_rests {h : Hub} {c : Nat}
    (hrest : h.feaOn c = false ∨ (NMap.get h.fea c).blk.length < h.feaN c) : h.timeBlock c = h := by
  unfold Hub.timeBlock
  rcases hrest with hoff | hshort
  · exact if_neg (by simp [hoff])
  · exact if_neg (by simp [hshort])

theorem Hub.blockCut_records (h : Hub) (c : Nat) : h.blockCut c = { h with
    regs := (h.blockCut c).regs
    fea := NMap.set h.fea c { NMap.get h.fea c with blk := (NMap.get h.fea c).blk.drop (h.feaN c) } } :=
  Hub.putValues_records ..

theorem Hub.blockCut_rd (h : Hub) (c : Nat) {f : Fld} (hf : ∀ k < 6, f.addr ≠ rFeaCValues c k) :
    (h.blockCut c).rd f = h.rd f :=
  Hub.rd_congr (Hub.putValues_reg _ _ fun k hk => hf k (by rwa [timeValues_length] at hk))

/-- What a full block leaves of its set: the samples behind it, its values, and one more record counted. -/
theorem Hub.timeBlock_records {h : Hub} {c : Nat} (hc : c < 192) (hon : h.feaOn c = true)
    (hfull : h.feaN c ≤ (NMap.get h.fea c).blk.length) :
    (NMap.get (h.timeBlock c).fea c).blk = (NMap.get h.fea c).blk.drop (h.feaN c) ∧
      (h.timeBlock c).feaValues c = timeValues (h.feaAc c) (h.fullBlock c) ∧
      (h.timeBlock c).rd (fFeaCCountRecords c) = satTo 16 (h.rd (fFeaCCountRecords c) + 1) := by
  rw [Hub.timeBlock_full hon hfull]
  refine ⟨?_, ?_, ?_⟩
  · rw [Hub.featDone_fea, Hub.blockCut_records]
    exact congrArg Fea.blk (NMap.get_set_same ..)
  · exact ((h.blockCut c).featDone_feaValues (r := h.timeRec c _) hc false _).trans
      (Hub.feaValues_putValues _ c (timeValues_length ..))
  · rw [← h.blockCut_rd c (f := fFeaCCountRecords c) fun k _ => by simp only [fFeaCCountRecords, rFeaCCount, rFeaCValues]; omega]
    exact (h.blockCut c).featDone_counts (h.timeRec c _) hc false _

/-! ### A snapshot (R235) -/

theorem Hub.snapshot_full {h : Hub} {c : Nat} (hon : h.feaOn c = true) (hr : h.recovering 2 c = false)
    (hfull : h.feaN c ≤ (NMap.get h.fea c).blk.length) : h.snapshot c = h.timeBlock c := by
  unfold Hub.snapshot
  dsimp only
  rw [if_neg (by simp [hon, hr]), if_pos hfull]

theorem Hub.snapshot_part {h : Hub} {c : Nat} (hon : h.feaOn c = true) (hr : h.recovering 2 c = false)
    (htwo : 2 ≤ (NMap.get h.fea c).blk.length) (hpart : (NMap.get h.fea c).blk.length < h.feaN c) :
    h.snapshot c = h.featDone (h.timeRec c (NMap.get h.fea c).blk) true (NMap.get h.fea c).blk.length := by
  unfold Hub.snapshot
  dsimp only
  rw [if_neg (by simp [hon, hr]), if_neg (by omega), if_neg (by omega)]

theorem Hub.snapshot_refused {h : Hub} {c : Nat} (hon : h.feaOn c = true) (hr : h.recovering 2 c = false)
    (hone : (NMap.get h.fea c).blk.length < 2) (hpart : (NMap.get h.fea c).blk.length < h.feaN c) :
    h.snapshot c = h.on (fFeaCStatusSnapRefused c) := by
  unfold Hub.snapshot
  dsimp only
  rw [if_neg (by simp [hon, hr]), if_neg (by omega), if_pos hone]

/-! ### The statement -/

theorem latchIrq_feaValues (h0 : Hub) (m0 : Met) (h : Hub) (m : Met) (c : Nat) :
    (latchIrq h0 m0 h m).feaValues c = h.feaValues c :=
  Hub.feaValues_congr fun _ _ => latchIrq_reg _ _ _ _ (by simp only [rFeaCValues]; omega)

/-- The registers of a feature set lie above `glb.wake`. -/
theorem feaCount_addr_ne_wake (c : Nat) : (fFeaCCountRecords c).addr ≠ 0x30 := by
  simp only [fFeaCCountRecords, rFeaCCount]
  omega

/-- Settles O19: a block and a snapshot by the record they finish, read behind the interrupt latch. -/
theorem featureSets : Obligations.FeatureSets := by
  refine ⟨?_, ?_, ?_, ?_, ?_, ?_, ?_⟩
  · -- TIME_BLOCK_COMPLETE
    intro s c hon hfull
    obtain ⟨hblk, hvals, hcount⟩ := Hub.timeBlock_records c.isLt hon hfull
    have hcut := s.hub.blockCut_records c
    have hlim : (s.hub.blockCut c).lim = s.hub.lim := by rw [hcut]
    obtain ⟨hroom, hover⟩ := (s.hub.blockCut c).featDone_fifo (r := s.hub.timeRec c (s.hub.fullBlock c))
      (by rw [hcut]; rfl) (s.hub.feaN c)
    rw [← Hub.timeBlock_full hon hfull, hlim] at hroom hover
    refine ⟨_, rfl, ?_⟩
    dsimp only
    rw [latchIrq_fea, latchIrq_lim, latchIrq_rd _ _ _ _ (feaCount_addr_ne_wake c), latchIrq_is _ _ _ _ (by decide)]
    exact ⟨hblk, (latchIrq_feaValues ..).trans hvals, hcount, hroom, hover⟩
  · -- TIME_BLOCK_COMPLETE of a set that delivers TIME records
    intro s c hon hfull hd hempty
    have hcut := s.hub.blockCut_records c
    have hcells : (s.hub.blockCut c).cells = s.hub.cells := by rw [hcut]
    obtain ⟨hwords, hlost⟩ := (s.hub.blockCut c).featDone_delivers (r := s.hub.timeRec c (s.hub.fullBlock c)) c.isLt
      (by rw [hcut]; exact hd) (by rw [hcut]; exact hempty) (s.hub.feaN c)
    rw [← Hub.timeBlock_full hon hfull] at hwords hlost
    rw [featureWords_congr hcells, Hub.feaQueue_congr hcells] at hwords
    refine ⟨_, rfl, ?_⟩
    dsimp only
    rw [latchIrq_outbox, latchIrq_rd _ _ _ _ (by simp only [fFeaCCountLost, rFeaCCount]; omega)]
    exact ⟨hwords, hlost.trans (s.hub.blockCut_rd c fun k _ => by
      simp only [Hub.timeRec, fFeaCCountLost, rFeaCCount, rFeaCValues]; omega)⟩
  · -- TIME_BLOCK_COMPLETE below a full block
    intro s c hrest
    refine ⟨_, rfl, ?_⟩
    dsimp only
    rw [Hub.timeBlock_rests hrest, latchIrq_fea, latchIrq_outbox]
    exact ⟨rfl, rfl, fun a ha => latchIrq_reg _ _ _ _ ha⟩
  · -- FEATURE_SNAPSHOT of a block in progress
    intro s c hans hon hr htwo hpart
    refine ⟨_, rfl, ?_⟩
    dsimp only
    rw [Hub.atReg_answers _ hans, Hub.snapshot_part hon hr htwo hpart, latchIrq_fea, latchIrq_lim, Hub.featDone_fea,
      Hub.featDone_snap_lim, latchIrq_rd _ _ _ _ (feaCount_addr_ne_wake c)]
    exact ⟨rfl, rfl, (latchIrq_feaValues ..).trans (s.hub.featDone_feaValues (r := s.hub.timeRec c _) c.isLt true _),
      s.hub.featDone_counts (s.hub.timeRec c _) c.isLt true _⟩
  · -- FEATURE_SNAPSHOT of a full block
    intro s c hans hon hr hfull
    obtain ⟨hblk, hvals, hcount⟩ := Hub.timeBlock_records c.isLt hon hfull
    refine ⟨_, rfl, ?_⟩
    dsimp only
    rw [Hub.atReg_answers _ hans, Hub.snapshot_full hon hr hfull, latchIrq_fea,
      latchIrq_rd _ _ _ _ (feaCount_addr_ne_wake c)]
    exact ⟨hblk, (latchIrq_feaValues ..).trans hvals, hcount⟩
  · -- FEATURE_SNAPSHOT below two samples
    intro s c hans hon hr hone hpart
    refine ⟨_, rfl, ?_⟩
    dsimp only
    rw [Hub.atReg_answers _ hans, Hub.snapshot_refused hon hr hone hpart, latchIrq_fea, latchIrq_outbox,
      latchIrq_is _ _ _ _ (by simp only [fFeaCStatusSnapRefused, rFeaCStatus]; omega)]
    refine ⟨Hub.is_on_same _ (by simp [fFeaCStatusSnapRefused]) (by simp [fFeaCStatusSnapRefused]), rfl, rfl, ?_⟩
    intro a ⟨hwake, hstatus⟩
    rw [latchIrq_reg _ _ _ _ hwake, Hub.reg_on_ne _ (fFeaCStatusSnapRefused c) hstatus]
  · -- FEA_VALUES_READ
    intro s c hans
    refine ⟨_, rfl, ?_⟩
    dsimp only
    rw [Hub.readOf_answers _ hans, latchIrq_host, latchIrq_fea]
    exact ⟨rfl, s.hub.feaRead_latches c, fun a ha => latchIrq_reg _ _ _ _ ha⟩

end Sys2Proof.Machine
end

section
/-! SUPPORT. Spectral jobs: full blocks, the engine's transform and starts (R219, R220, R222, R223, R225 to R227, R229). -/

namespace Sys2Proof.Machine
open Sys2Proof

@[simp] theorem Hub.job'_setJob (h : Hub) (e j : Nat) (x : Job) : (h.setJob e j x).job' e j = x := NMap.get_set_same ..

@[simp] theorem Hub.on_job' (h : Hub) (f : Fld) (e j : Nat) : (h.on f).job' e j = h.job' e j := rfl
@[simp] theorem Hub.countSat_job' (h : Hub) (f : Fld) (n e j : Nat) : (h.countSat f n).job' e j = h.job' e j := rfl

@[simp] theorem latchIrq_job' (h0 : Hub) (m0 : Met) (h : Hub) (m : Met) (e j : Nat) :
    (latchIrq h0 m0 h m).job' e j = h.job' e j := by
  unfold Hub.job'
  rw [latchIrq_job]

/-- The registers of an engine lie above `glb.wake`. -/
theorem spcStatus_ne_wake (e : Nat) : rSpcEStatus e ≠ 0x30 := by simp only [rSpcEStatus]; omega
theorem spcCount_ne_wake (e : Nat) : rSpcECount e ≠ 0x30 := by simp only [rSpcECount]; omega

/-- A flag and, behind it, a count elsewhere: both are shown. -/
theorem Hub.flagged_counted (h : Hub) {f g : Fld} (hfg : f.apart g) (hgf : g.apart f) (hl : f.len = 1) :
    ((h.on f).countSat g 1).is f = true ∧ ((h.on f).countSat g 1).rd g = satTo g.len (h.rd g + 1) := by
  refine ⟨(Hub.is_wr_apart _ _ hgf).trans (Hub.is_on_same _ hfg.1 (by omega)), ?_⟩
  rw [Hub.rd_countSat_same _ 1 hgf.1, Hub.rd_on_apart _ hfg]

/-! ### A full block (R220, R222, R223) -/

/-- How far a job's gathering moves on behind a block: by the block when it is triggered, else by its hop. -/
def Hub.jobGo (h : Hub) (e j : Nat) : Nat := if h.jobTrig e j then h.jobN e j else h.jobHop e j

/-- A job whose full block waits for its engine. -/
def Hub.jobWaits (h : Hub) (e j : Nat) : Job :=
  { h.job' e j with
    buf := (h.job' e j).buf.drop (h.jobGo e j), ran := true, off := h.jobGo e j
    ready := some ((h.job' e j).buf.take (h.jobN e j)) }

/-- A job whose full block is dropped behind one that waits. -/
def Hub.jobDrops (h : Hub) (e j : Nat) : Job :=
  { h.job' e j with
    buf := (h.job' e j).buf.drop (h.jobGo e j), ran := true, off := (h.job' e j).off + h.jobGo e j, dropped := true }

theorem Hub.blockDone_rests {h : Hub} {e j : Nat} (hrest : h.jobOn e j = false ∨ (h.job' e j).buf.length < h.jobN e j) :
    h.blockDone e j = h := by
  unfold Hub.blockDone
  rcases hrest with hoff | hshort
  · exact if_neg (by simp [hoff])
  · exact if_neg (by simp [hshort])

section
variable {h : Hub} {e j : Nat} (hon : h.jobOn e j = true) (hfull : h.jobN e j ≤ (h.job' e j).buf.length)
include hon hfull

theorem Hub.blockDone_waits (hready : (h.job' e j).ready = none) : h.blockDone e j =
    { h.setJob e j (h.jobWaits e j) with
      spc := NMap.modify h.spc e (fun s => { s with order := spcInsert (h.cyc, j) s.order }) } := by
  unfold Hub.blockDone
  dsimp only
  rw [if_pos (by simp [hon, hfull]), if_neg (by simp [hready])]
  rfl

theorem Hub.blockDone_drops (hready : (h.job' e j).ready ≠ none) : h.blockDone e j =
    ((h.setJob e j (h.jobDrops e j)).on (fSpcEStatusOverrun e)).countSat (fSpcECountDropped e) 1 := by
  unfold Hub.blockDone
  dsimp only
  rw [if_pos (by simp [hon, hfull]), if_pos (Option.isSome_iff_ne_none.2 hready)]
  rfl

end

/-! ### The block the engine takes (R222, R226, R229) -/

/-- What the engine's average takes of a block: its words, those that fail their check as 0. -/
def blockInts (blk : List HistWord) : List Int := blk.map (fun w => if w.bad then 0 else sInt w.samp)

/-- A word of a block fails its check. -/
def blockBad (blk : List HistWord) : Bool := blk.any (fun w => w.bad)

/-- A block's tag: its samples' tags, with ABORTED when a word fails its check. -/
def blockTag (blk : List HistWord) : BitVec 8 :=
  orTags (blk.map (fun w => w.samp)) ||| (if blockBad blk then tAborted else 0#8)

theorem blockInts_good {blk : List HistWord} (hgood : blockBad blk = false) :
    blockInts blk = (blk.map (fun w => w.samp)).map sInt := by
  have hall : ∀ w ∈ blk, w.bad = false := by simpa [blockBad] using hgood
  rw [blockInts, List.map_map]
  exact List.map_congr_left fun w hw => if_neg (by simp [hall w hw])

theorem blockTag_good {blk : List HistWord} (hgood : blockBad blk = false) :
    blockTag blk = orTags (blk.map (fun w => w.samp)) := by
  simp [blockTag, hgood]

theorem blockTag_bad {blk : List HistWord} (hbad : blockBad blk = true) :
    blockTag blk = orTags (blk.map (fun w => w.samp)) ||| tAborted := by
  simp [blockTag, hbad]

/-- The oldest waiting block leaves its engine's list and is counted; words that fail their check are flagged and reported. -/
def Hub.spcTaken (h : Hub) (e j : Nat) (rest : List (Nat × Nat)) (hit : Bool) : Hub :=
  let h1 := Hub.countSat { h with spc := NMap.modify h.spc e (fun s => { s with order := rest, busy := true }) }
    (fSpcECountBlocks e) 1
  if hit then (h1.on (fSpcEStatusParity e)).fault 0x24 e 0xC3 (w32 j) 0#32 else h1

/-- A job after its average took a block. -/
def Hub.averaged (h : Hub) (e j : Nat) (x : Job) (blk : List HistWord) : Job :=
  { x with
    ready := none, parity := x.parity || blockBad blk
    acc := avgStep (h.jobAvg e j) (h.jc e j 1 0 5) x.acc (binVector (h.jobComplex e j) (h.jobWin e j) (h.jobLog e j) (blockInts blk))
    cnt := x.cnt + 1, tag := x.tag ||| blockTag blk
    time := if x.cnt = 0 then ((blk.map HistWord.samp).headD default).time else x.time }

theorem Hub.transform_idle {h : Hub} {e : Nat} (hnone : (NMap.get h.spc e).order = []) (bad : List Nat) :
    h.transform e bad = h := by
  unfold Hub.transform
  rw [hnone]

section
variable {h : Hub} {e c j : Nat} {rest : List (Nat × Nat)} {bad : List Nat} {blk : List HistWord}
  (horder : (NMap.get h.spc e).order = (c, j) :: rest) (hready : ((h.job' e j).spoil bad).ready = some blk)
include horder hready

theorem Hub.transform_block : h.transform e bad =
    if (blockTag blk).toNat &&& h.jc e j 3 8 8 ≠ 0 then
      (((h.spcTaken e j rest (blockBad blk)).setJob e j { (h.job' e j).spoil bad with ready := none }).on
        (fSpcEStatusExcluded e)).countSat (fSpcECountExcluded e) 1
    else
      let z := h.averaged e j ((h.job' e j).spoil bad) blk
      if h.outDue e j z.cnt then (h.spcTaken e j rest (blockBad blk)).specOut e j z
      else (h.spcTaken e j rest (blockBad blk)).setJob e j z := by
  unfold Hub.transform
  rw [horder]
  dsimp only
  rw [show Hub.job' { h with spc := NMap.modify h.spc e (fun s => { s with order := rest, busy := true }) } e j = h.job' e j
    from rfl, hready]
  rfl

theorem Hub.transform_excluded (hx : (blockTag blk).toNat &&& h.jc e j 3 8 8 ≠ 0) : h.transform e bad =
    (((h.spcTaken e j rest (blockBad blk)).setJob e j { (h.job' e j).spoil bad with ready := none }).on
      (fSpcEStatusExcluded e)).countSat (fSpcECountExcluded e) 1 := by
  rw [Hub.transform_block horder hready, if_pos hx]

theorem Hub.transform_runs (hx : (blockTag blk).toNat &&& h.jc e j 3 8 8 = 0)
    (hdue : h.outDue e j ((h.job' e j).cnt + 1) = false) : h.transform e bad =
    (h.spcTaken e j rest (blockBad blk)).setJob e j (h.averaged e j ((h.job' e j).spoil bad) blk) := by
  rw [Hub.transform_block horder hready, if_neg (not_not.2 hx)]
  exact if_neg (Bool.eq_false_iff.1 hdue)

theorem Hub.transform_outputs (hx : (blockTag blk).toNat &&& h.jc e j 3 8 8 = 0)
    (hdue : h.outDue e j ((h.job' e j).cnt + 1) = true) : h.transform e bad =
    (h.spcTaken e j rest (blockBad blk)).specOut e j (h.averaged e j ((h.job' e j).spoil bad) blk) := by
  rw [Hub.transform_block horder hready, if_neg (not_not.2 hx)]
  exact if_pos hdue

end

/-- Of good words the average is the accepted block's; beside it only the gathering moved on. -/
theorem Hub.averaged_good {h : Hub} {e j : Nat} {blk : List HistWord} (hgood : blockBad blk = false) (bad : List Nat) :
    h.averaged e j ((h.job' e j).spoil bad) blk =
      { h.accepted e j blk with buf := ((h.job' e j).spoil bad).buf, ready := none } := by
  unfold Hub.averaged
  rw [blockInts_good hgood, blockTag_good hgood, hgood, Bool.or_false]
  rfl

/-! ### What is left of the engine -/

section
variable (h : Hub) (e j : Nat) (rest : List (Nat × Nat)) (hit : Bool)

@[simp] theorem Hub.spcTaken_cells : (h.spcTaken e j rest hit).cells = h.cells := by
  unfold Hub.spcTaken
  cases hit <;> simp

@[simp] theorem Hub.spcTaken_order : (NMap.get (h.spcTaken e j rest hit).spc e).order = rest := by
  have hspc : (h.spcTaken e j rest hit).spc = NMap.modify h.spc e (fun s => { s with order := rest, busy := true }) := by
    unfold Hub.spcTaken
    cases hit <;> simp
  rw [hspc, NMap.get_modify_same]

@[simp] theorem Hub.spcTaken_outbox : (h.spcTaken e j rest false).outbox = h.outbox := rfl

theorem Hub.spcTaken_blocks :
    (h.spcTaken e j rest false).rd (fSpcECountBlocks e) = satTo 16 (h.rd (fSpcECountBlocks e) + 1) :=
  Hub.rd_countSat_same _ 1 (by simp [fSpcECountBlocks])

theorem Hub.spcTaken_excluded :
    (h.spcTaken e j rest false).rd (fSpcECountExcluded e) = h.rd (fSpcECountExcluded e) :=
  Hub.rd_wr_apart _ _ (by simp [Fld.apart, fSpcECountBlocks, fSpcECountExcluded])

theorem Hub.spcTaken_parity (he : e < 4) : (h.spcTaken e j rest true).is (fSpcEStatusParity e) = true := by
  unfold Hub.spcTaken
  dsimp only
  rw [if_pos rfl, Hub.fault_is _ _ _ _ _ _ (.inl (by simp only [fSpcEStatusParity, rSpcEStatus]; omega))]
  exact Hub.is_on_same _ (by simp [fSpcEStatusParity]) (by simp [fSpcEStatusParity])

end

/-! ### An output (R226, R227) -/

theorem Hub.jc_congr {h g : Hub} (e : g.cells = h.cells) : g.jc = h.jc := by
  funext n j k lo len
  unfold Hub.jc Hub.cf Hub.cell
  rw [e]

theorem Hub.jobAvg_congr {h g : Hub} (e : g.cells = h.cells) : g.jobAvg = h.jobAvg := by
  funext n j
  unfold Hub.jobAvg
  rw [Hub.jc_congr e]

theorem Hub.jobComplex_congr {h g : Hub} (e : g.cells = h.cells) : g.jobComplex = h.jobComplex := by
  funext n j
  unfold Hub.jobComplex
  rw [Hub.jc_congr e]

theorem Hub.jobUnit_congr {h g : Hub} (e : g.cells = h.cells) : g.jobUnit = h.jobUnit := by
  funext n j k
  unfold Hub.jobUnit
  rw [Hub.jobAvg_congr e, Hub.jobComplex_congr e]

theorem Hub.spectrumWords_congr {h g : Hub} (e : g.cells = h.cells) : g.spectrumWords = h.spectrumWords := by
  funext n j x k d
  unfold Hub.spectrumWords Hub.jobComplex Hub.jobCtx Hub.jobWin Hub.jobLog Hub.jobAvg
  rw [Hub.jc_congr e]

theorem Hub.jobBands_congr {h g : Hub} (e : g.cells = h.cells) (n j : Nat) :
    g.feaBands (g.jobCtx n j) = h.feaBands (h.jobCtx n j) := by
  unfold Hub.feaBands Hub.jobCtx Hub.cf Hub.cell
  rw [Hub.jc_congr e, e]

/-- Without bands an output finishes no BAND record. -/
theorem Hub.bandRec_off {h : Hub} {e j : Nat} (hb : h.feaBands (h.jobCtx e j) = 0) (x : Job) (d : Nat) :
    h.bandRec e j x d = h := by
  unfold Hub.bandRec
  exact if_neg (by simp [hb])

/-- A job after an output: the average starts anew, unless it is exponential. -/
def Hub.outputDone (h : Hub) (e j : Nat) (x : Job) : Job :=
  { x with acc := if h.jobAvg e j = 2 then x.acc else [], cnt := 0, tag := 0#8, dropped := false, parity := false }

theorem Hub.specOut_delivers {h : Hub} {e j : Nat} (hd : h.jc e j 3 6 1 = 1) (hb : h.feaBands (h.jobCtx e j) = 0) (x : Job) :
    h.specOut e j x = ((h.pushOut (prodSpc e) (h.jc e j 3 0 6)
      (recordWords 3 (h.spectrumWords e j x x.cnt (h.jobUnit e j x.cnt)))).present (0x4000 + 64 * e + j)).setJob e j
        (h.outputDone e j x) := by
  have hunit : h.jobUnit e j x.cnt =
      if h.jobAvg e j = 1 then x.cnt * (if h.jobComplex e j then 2 ^ 46 else 2 ^ 92)
      else if h.jobComplex e j then 2 ^ 46 else 2 ^ 92 := by
    unfold Hub.jobUnit
    split
    · rfl
    · exact Nat.one_mul _
  unfold Hub.specOut
  dsimp only
  rw [if_pos hd, Hub.bandRec_off (by rwa [Hub.jobBands_congr (h := h) (by simp)]), ← hunit]
  rfl

/-! ### Starts (R219) -/

theorem Hub.jobStart_ignored {h : Hub} {e j : Nat}
    (hoff : h.jobOn e j = false ∨ h.jobTrig e j = false ∨ (h.job' e j).started = h.cyc + 1) : h.jobStart e j = h := by
  unfold Hub.jobStart
  rcases hoff with hoff | htrig | honce
  · exact if_pos (by simp [hoff])
  · exact if_pos (by simp [htrig])
  · exact if_pos (by simp [honce])

section
variable {h : Hub} {e j : Nat} (hon : h.jobOn e j = true) (htrig : h.jobTrig e j = true)
  (hnew : (h.job' e j).started ≠ h.cyc + 1)
include hon htrig hnew

theorem Hub.jobStart_arms (hidle : (h.job' e j).buf = [] ∨ h.jobN e j ≤ (h.job' e j).buf.length) : h.jobStart e j =
    (h.setJob e j { h.job' e j with started := h.cyc + 1 }).setJob e j
      { h.job' e j with started := h.cyc + 1, armed := true } := by
  unfold Hub.jobStart
  dsimp only
  rw [if_neg (by simp [hon, htrig, hnew]), if_neg]
  rcases hidle with hempty | hfull
  · simp [hempty]
  · simp [hfull]

theorem Hub.jobStart_busy (hbuf : (h.job' e j).buf ≠ []) (hpart : (h.job' e j).buf.length < h.jobN e j) : h.jobStart e j =
    ((h.setJob e j { h.job' e j with started := h.cyc + 1 }).on (fSpcEStatusBusyStart e)).countSat (fSpcEBusyBusy e) 1 := by
  unfold Hub.jobStart
  dsimp only
  rw [if_neg (by simp [hon, htrig, hnew]), if_pos (by simp [hbuf, hpart])]

end

/-! ### The statement -/

/-- Settles O18: each command by its outcome in the case its clause names, read behind the interrupt latch. -/
theorem spectralJobs : Obligations.SpectralJobs := by
  refine ⟨?_, ?_, ?_, ?_, ?_, ?_, ?_, ?_, ?_, ?_, ?_⟩
  · -- SPECTRAL_BLOCK_COMPLETE, no block of the job waiting
    intro s e j hon hfull hready
    refine ⟨_, rfl, ?_⟩
    dsimp only
    rw [Hub.blockDone_waits hon hfull hready, latchIrq_job', latchIrq_spc]
    have hjob := s.hub.job'_setJob e j (s.hub.jobWaits e j)
    have horder := NMap.get_modify_same s.hub.spc e (fun x => { x with order := spcInsert (s.hub.cyc, j.val) x.order })
    exact ⟨congrArg Job.ready hjob, congrArg Job.buf hjob, congrArg Spc.order horder,
      fun a ha => latchIrq_reg _ _ _ _ ha⟩
  · -- SPECTRAL_BLOCK_COMPLETE while a block still waits
    intro s e j hon hfull hready
    refine ⟨_, rfl, ?_⟩
    dsimp only
    rw [Hub.blockDone_drops hon hfull hready, latchIrq_job', latchIrq_spc, latchIrq_is _ _ _ _ (spcStatus_ne_wake e),
      latchIrq_rd _ _ _ _ (spcCount_ne_wake e), Hub.countSat_job', Hub.on_job', Hub.job'_setJob]
    have hshow := Hub.flagged_counted (s.hub.setJob e j (s.hub.jobDrops e j)) (f := fSpcEStatusOverrun e)
      (g := fSpcECountDropped e) (by simp [Fld.apart, fSpcEStatusOverrun, fSpcECountDropped]) (by simp [Fld.apart, fSpcEStatusOverrun, fSpcECountDropped]) rfl
    exact ⟨rfl, rfl, rfl, hshow.1, hshow.2, rfl⟩
  · -- SPECTRAL_BLOCK_COMPLETE of a job that is off or whose block is not full
    intro s e j hrest
    refine ⟨_, rfl, ?_⟩
    dsimp only
    rw [Hub.blockDone_rests hrest, latchIrq_job, latchIrq_spc]
    exact ⟨rfl, rfl, fun a ha => latchIrq_reg _ _ _ _ ha⟩
  · -- SPECTRAL_TRANSFORM with no block waiting
    intro s e p hnone hheld
    refine ⟨_, rfl, ?_⟩
    dsimp only
    rw [if_neg (by simp [hheld]), Hub.transform_idle hnone, latchIrq_job, latchIrq_outbox]
    exact ⟨rfl, rfl, fun a ha => latchIrq_reg _ _ _ _ ha⟩
  · -- SPECTRAL_TRANSFORM of good words, no output due
    intro s e p c j rest blk hheld horder hready hgood hx hdue
    refine ⟨_, rfl, ?_⟩
    dsimp only
    rw [if_neg (by simp [hheld]), Hub.transform_runs horder hready (by rwa [blockTag_good hgood]) hdue,
      Hub.averaged_good hgood, show blockBad blk = false from hgood, latchIrq_job', Hub.job'_setJob, latchIrq_spc,
      latchIrq_outbox, latchIrq_rd _ _ _ _ (spcCount_ne_wake e), Hub.setJob_spc, Hub.setJob_rd, Hub.setJob_outbox]
    exact ⟨rfl, rfl, rfl, rfl, Hub.spcTaken_order .., s.hub.spcTaken_blocks e j rest, rfl⟩
  · -- SPECTRAL_TRANSFORM of good words, an output delivered
    intro s e p c j rest blk hheld horder hready hgood hx hdue hd hb
    have hcells := s.hub.spcTaken_cells e j rest false
    have hd' : (s.hub.spcTaken e j rest false).jc e j 3 6 1 = 1 := by rwa [Hub.jc_congr hcells]
    have hb' : (s.hub.spcTaken e j rest false).feaBands ((s.hub.spcTaken e j rest false).jobCtx e j) = 0 := by
      rwa [Hub.jobBands_congr hcells]
    refine ⟨_, rfl, ?_⟩
    dsimp only
    rw [if_neg (by simp [hheld]), Hub.transform_outputs horder hready (by rwa [blockTag_good hgood]) hdue,
      Hub.averaged_good hgood, show blockBad blk = false from hgood, Hub.specOut_delivers hd' hb', latchIrq_job',
      Hub.job'_setJob, latchIrq_spc, latchIrq_outbox, latchIrq_rd _ _ _ _ (spcCount_ne_wake e), Hub.setJob_spc,
      Hub.present_spc, Hub.setJob_outbox, Hub.present_outbox, Hub.setJob_rd,
      Hub.present_rd _ _ (.inl (by simp only [fSpcECountBlocks, rSpcECount]; omega)), Hub.pushOut_spc, Hub.pushOut_rd,
      Hub.spectrumWords_congr hcells, Hub.jobUnit_congr hcells, Hub.jc_congr hcells]
    refine ⟨rfl, rfl, ?_, Hub.spcTaken_order .., s.hub.spcTaken_blocks e j rest, ?_⟩
    · unfold Hub.outputDone
      rw [Hub.jobAvg_congr hcells]
    · rw [Hub.pushOut, Hub.spcTaken_outbox, NMap.get_modify_same]
      rfl
  · -- SPECTRAL_TRANSFORM of a block with words that fail their check
    intro s e p c j rest blk hheld horder hready hbad hx hdue
    have hbad' : blockBad blk = true := hbad
    refine ⟨_, rfl, ?_⟩
    dsimp only
    rw [if_neg (by simp [hheld]), Hub.transform_runs horder hready (by rwa [blockTag_bad hbad']) hdue, hbad', latchIrq_job',
      Hub.job'_setJob, latchIrq_is _ _ _ _ (spcStatus_ne_wake e), Hub.setJob_is]
    refine ⟨rfl, ?_, ?_, s.hub.spcTaken_parity e j rest e.isLt⟩
    · rw [← blockTag_bad hbad']
      rfl
    · unfold Hub.averaged
      rw [hbad', Bool.or_true]
  · -- SPECTRAL_TRANSFORM of a block with an excluded tag
    intro s e p c j rest blk hheld horder hready hgood hx
    refine ⟨_, rfl, ?_⟩
    dsimp only
    rw [if_neg (by simp [hheld]), Hub.transform_excluded horder hready (by rwa [blockTag_good hgood]),
      show blockBad blk = false from hgood, latchIrq_job', latchIrq_outbox, latchIrq_is _ _ _ _ (spcStatus_ne_wake e),
      latchIrq_rd _ _ _ _ (spcCount_ne_wake e), Hub.countSat_job', Hub.on_job', Hub.job'_setJob]
    have hshow := Hub.flagged_counted ((s.hub.spcTaken e j rest false).setJob e j
      { (s.hub.job' e j).spoil (p.map Fin.val) with ready := none })
      (f := fSpcEStatusExcluded e) (g := fSpcECountExcluded e)
      (by simp [Fld.apart, fSpcEStatusExcluded, fSpcECountExcluded]) (by simp [Fld.apart, fSpcEStatusExcluded, fSpcECountExcluded]) rfl
    rw [Hub.setJob_rd, Hub.spcTaken_excluded] at hshow
    exact ⟨rfl, rfl, rfl, hshow.1, hshow.2, rfl⟩
  · -- SPECTRAL_KICK of a triggered job that does not gather
    intro s e j hans hon htrig hnew hidle
    refine ⟨_, rfl, ?_⟩
    dsimp only
    rw [Hub.atReg_answers _ hans, Hub.jobStart_arms hon htrig hnew hidle, latchIrq_job', Hub.job'_setJob]
    exact ⟨rfl, rfl, rfl, fun a ha => by rw [latchIrq_reg _ _ _ _ ha, Hub.setJob_reg, Hub.setJob_reg]⟩
  · -- SPECTRAL_KICK while the job gathers
    intro s e j hans hon htrig hnew hbuf hpart
    refine ⟨_, rfl, ?_⟩
    dsimp only
    rw [Hub.atReg_answers _ hans, Hub.jobStart_busy hon htrig hnew hbuf hpart, latchIrq_job',
      latchIrq_is _ _ _ _ (spcStatus_ne_wake e), latchIrq_rd _ _ _ _ (by simp only [fSpcEBusyBusy, rSpcEBusy]; omega),
      Hub.countSat_job', Hub.on_job', Hub.job'_setJob]
    have hshow := Hub.flagged_counted (s.hub.setJob e j { s.hub.job' e j with started := s.hub.cyc + 1 })
      (f := fSpcEStatusBusyStart e) (g := fSpcEBusyBusy e)
      (by simp [Fld.apart, fSpcEStatusBusyStart, fSpcEBusyBusy]) (by simp [Fld.apart, fSpcEStatusBusyStart, fSpcEBusyBusy]) rfl
    exact ⟨rfl, rfl, hshow.1, hshow.2⟩
  · -- SPECTRAL_KICK of a job that is off or not triggered, or started in this cycle already
    intro s e j hans hoff
    refine ⟨_, rfl, ?_⟩
    dsimp only
    rw [Hub.atReg_answers _ hans, Hub.jobStart_ignored hoff, latchIrq_job]
    exact ⟨rfl, fun a ha => latchIrq_reg _ _ _ _ ha⟩

end Sys2Proof.Machine
end

section
/-! SUPPORT. The stored words of the limit table: reads through the check bits, and what an applied entry writes (R237, R238, R244
to R246). -/

namespace Sys2Proof.Machine
open Sys2Proof

/-! ### Words as they stand -/

/-- A word of an entry as last written. -/
def Hub.limWord (h : Hub) (e i : Nat) : Word := h.cell 7 (e / 64) (4 * (e % 64) + i)

/-- No bit of an entry's stored words has flipped. -/
def Hub.limClean (h : Hub) (e : Nat) : Prop := ∀ i < 4, NMap.get h.lim.ups (4 * e + i) = 0#39

theorem Hub.limClean_of_all {h : Hub} {e : Nat}
    (hall : (List.range 4).all (fun i => NMap.get h.lim.ups (4 * e + i) == 0#39) = true) : h.limClean e := fun i hi => by
  simpa using List.all_eq_true.1 hall i (List.mem_range.2 hi)

theorem Hub.limRaw_eq (h : Hub) (e i : Nat) :
    h.limRaw e i = h.limWord e i ^^^ (NMap.get h.lim.ups (4 * e + i)).setWidth 32 := rfl

theorem Hub.limWord_congr {h g : Hub} (e : g.cells = h.cells) : g.limWord = h.limWord := by
  funext n i
  unfold Hub.limWord Hub.cell
  rw [e]

theorem Hub.limRaw_congr {h g : Hub} (ecells : g.cells = h.cells) (elim : g.lim = h.lim) : g.limRaw = h.limRaw := by
  funext n i
  rw [Hub.limRaw_eq, Hub.limRaw_eq, Hub.limWord_congr ecells, elim]

theorem Hub.limRaw_clean {h : Hub} {e i : Nat} (hclean : NMap.get h.lim.ups (4 * e + i) = 0#39) :
    h.limRaw e i = h.limWord e i := by
  rw [Hub.limRaw_eq, hclean]
  exact BitVec.xor_zero

/-! ### A read of one word (R246) -/

/-- How many of a stored word's bits have flipped. -/
abbrev flippedBits (u : BitVec 39) : Nat := ((List.range 39).filter (fun k => u.getLsbD k)).length

/-- A stored word's flipped bit is corrected and counted. -/
def Hub.limCorrected (h : Hub) (e i : Nat) : Hub :=
  (Hub.on { h with lim := { h.lim with ups := NMap.set h.lim.ups (4 * e + i) 0#39 } } fLimStatusCorr).countSat fLimCountCorr 1

theorem Hub.limCorrected_shows (h : Hub) (e i : Nat) : NMap.get (h.limCorrected e i).lim.ups (4 * e + i) = 0#39 ∧
    (h.limCorrected e i).is fLimStatusCorr = true ∧
    (h.limCorrected e i).rd fLimCountCorr = satTo 8 (h.rd fLimCountCorr + 1) :=
  ⟨NMap.get_set_same h.lim.ups _ 0#39, Hub.flagged_counted _ (f := fLimStatusCorr) (g := fLimCountCorr) (by decide) (by decide) rfl⟩

theorem Hub.limRead_clean {h : Hub} {e i : Nat} (hclean : NMap.get h.lim.ups (4 * e + i) = 0#39) :
    h.limRead e i = (some (h.limWord e i), h) := by
  unfold Hub.limRead
  rw [hclean]
  exact if_pos rfl

theorem Hub.limRead_single {h : Hub} {e i : Nat} (hone : flippedBits (NMap.get h.lim.ups (4 * e + i)) = 1) :
    h.limRead e i = (some (h.limWord e i), h.limCorrected e i) := by
  have hn : Hub.limRead.popcount39 (NMap.get h.lim.ups (4 * e + i)) = 1 := hone
  unfold Hub.limRead
  dsimp only
  rw [hn, if_neg (by decide), if_pos rfl]
  rfl

theorem Hub.limRead_double {h : Hub} {e i : Nat} (htwo : flippedBits (NMap.get h.lim.ups (4 * e + i)) = 2) :
    h.limRead e i = (none, h.limUncorr e i) := by
  have hn : Hub.limRead.popcount39 (NMap.get h.lim.ups (4 * e + i)) = 2 := htwo
  unfold Hub.limRead
  dsimp only
  rw [hn, if_neg (by decide), if_neg (by decide), if_pos rfl]

@[simp] theorem Hub.limUncorr_cells (h : Hub) (e i : Nat) : (h.limUncorr e i).cells = h.cells := by
  unfold Hub.limUncorr
  dsimp only
  split <;> simp

@[simp] theorem Hub.limUncorr_lim (h : Hub) (e i : Nat) : (h.limUncorr e i).lim = h.lim := by
  unfold Hub.limUncorr
  dsimp only
  split <;> simp

/-- The entries' state registers lie below the engine's own. -/
theorem limSt_ne {e a : Nat} (he : e < 8192) (ha : 0x170000 ≤ a) : rLimSt e ≠ a := by
  simp only [rLimSt]
  omega

theorem limSt_ne_wake (e : Nat) : rLimSt e ≠ 0x30 := by simp only [rLimSt]; omega

/-- An uncorrectable word's entry is bad; the word is flagged and counted. -/
theorem Hub.limUncorr_marks (h : Hub) {e : Nat} (he : e < 8192) (i : Nat) :
    (h.limUncorr e i).limBad e = true ∧ (h.limUncorr e i).is fLimStatusUncorr = true ∧
      (h.limUncorr e i).rd fLimCountUncorr = satTo 8 (h.rd fLimCountUncorr + 1) := by
  unfold Hub.limUncorr
  extract_lets h1
  have hflag : h1.is fLimStatusUncorr = true :=
    calc h1.is fLimStatusUncorr = ((h.on fLimStatusUncorr).countSat fLimCountUncorr 1).is fLimStatusUncorr :=
          (Hub.is_wr_apart _ _ (by decide)).trans (Hub.is_wr_apart _ _ (by decide))
      _ = (h.on fLimStatusUncorr).is fLimStatusUncorr := Hub.is_wr_apart _ _ (by decide)
      _ = true := Hub.is_on_same _ (by decide) (by decide)
  have hcount : h1.rd fLimCountUncorr = satTo 8 (h.rd fLimCountUncorr + 1) :=
    calc h1.rd fLimCountUncorr = ((h.on fLimStatusUncorr).countSat fLimCountUncorr 1).rd fLimCountUncorr :=
          (Hub.rd_wr_apart _ _ (by decide)).trans (Hub.rd_wr_apart _ _ (by decide))
      _ = satTo 8 ((h.on fLimStatusUncorr).rd fLimCountUncorr + 1) := Hub.rd_countSat_same _ 1 (by decide)
      _ = satTo 8 (h.rd fLimCountUncorr + 1) := by rw [Hub.rd_on_apart _ (by decide)]
  have hentry : h1.rd (fLimStBad e) = h.rd (fLimStBad e) :=
    calc h1.rd (fLimStBad e) = ((h.on fLimStatusUncorr).countSat fLimCountUncorr 1).rd (fLimStBad e) :=
          (Hub.rd_wr_addr _ _ (limSt_ne he (by decide))).trans (Hub.rd_wr_addr _ _ (limSt_ne he (by decide)))
      _ = h.rd (fLimStBad e) :=
          (Hub.rd_wr_addr _ _ (limSt_ne he (by decide))).trans (Hub.rd_wr_addr _ _ (limSt_ne he (by decide)))
  split
  next hbad => exact ⟨(Hub.is_congr hentry).trans hbad, hflag, hcount⟩
  next =>
    refine ⟨?_, ?_, ?_⟩
    · rw [Hub.limBad, Hub.fault_is _ _ _ _ _ _ (.inl (by simp only [fLimStBad, rLimSt]; omega))]
      exact Hub.is_on_same _ (by simp [fLimStBad]) (by simp [fLimStBad])
    · rw [Hub.fault_is _ _ _ _ _ _ (.inl (by decide))]
      exact (Hub.is_congr (Hub.rd_wr_addr (f := fLimStBad e) _ _ (limSt_ne he (by decide)).symm)).trans hflag
    · rw [Hub.fault_rd _ _ _ _ _ _ (.inl (by decide))]
      exact (Hub.rd_wr_addr (f := fLimStBad e) _ _ (limSt_ne he (by decide)).symm).trans hcount

/-- What a read of a stored word may change of the table: the flipped bits of that word. -/
theorem Hub.limRead_table (h : Hub) (e i : Nat) : (h.limRead e i).2.cells = h.cells ∧
    ∃ m, (h.limRead e i).2.lim = { h.lim with ups := m } ∧ ∀ a, a ≠ 4 * e + i → NMap.get m a = NMap.get h.lim.ups a := by
  unfold Hub.limRead
  dsimp only
  split
  · exact ⟨rfl, _, rfl, fun _ _ => rfl⟩
  split
  · exact ⟨rfl, _, rfl, fun a ha => NMap.get_set_ne _ _ ha⟩
  split
  · exact ⟨Hub.limUncorr_cells .., _, Hub.limUncorr_lim .., fun _ _ => rfl⟩
  split
  · exact ⟨Hub.limUncorr_cells .., _, Hub.limUncorr_lim .., fun _ _ => rfl⟩
  · exact ⟨rfl, _, rfl, fun _ _ => rfl⟩

/-! ### A read of the words of an entry -/

/-- The hub once the first `n` words of an entry were read. -/
def Hub.limReads (h : Hub) (e n : Nat) : Hub := (List.range n).foldl (fun a i => (a.limRead e i).2) h

theorem Hub.limReads_succ (h : Hub) (e n : Nat) : h.limReads e (n + 1) = ((h.limReads e n).limRead e n).2 := by
  simp [Hub.limReads, List.range_succ]

theorem Hub.limEntry_reads (h : Hub) (e : Nat) : (h.limEntry e).2 = h.limReads e 4 := rfl

theorem Hub.limReads_cells (h : Hub) (e n : Nat) : (h.limReads e n).cells = h.cells :=
  foldl_keep Hub.cells _ (fun a i => (a.limRead_table e i).1) _ h

theorem Hub.limReads_fifo (h : Hub) (e n : Nat) : (h.limReads e n).lim.fifo = h.lim.fifo :=
  foldl_keep (fun k => k.lim.fifo) _ (fun a i => by
    obtain ⟨-, m, hm, -⟩ := a.limRead_table e i
    rw [hm]) _ h

/-- Of an entry one word of which may have flipped bits, that word's read is all that happens. -/
theorem Hub.limReads_one {h : Hub} {e k : Nat} (hothers : ∀ i < 4, i ≠ k → NMap.get h.lim.ups (4 * e + i) = 0#39) {n : Nat}
    (hn : n ≤ 4) : h.limReads e n = if k < n then (h.limRead e k).2 else h := by
  induction n with
  | zero => rfl
  | succ n ih =>
    rw [Hub.limReads_succ, ih (by omega)]
    rcases Nat.lt_trichotomy k n with hk | rfl | hk
    · obtain ⟨-, m, hm, hsame⟩ := h.limRead_table e k
      have hclean : NMap.get (h.limRead e k).2.lim.ups (4 * e + n) = 0#39 := by
        rw [hm]
        exact (hsame _ (by omega)).trans (hothers n (by omega) (by omega))
      rw [if_pos hk, if_pos (by omega), Hub.limRead_clean hclean]
    · rw [if_neg (by omega), if_pos (by omega)]
    · rw [if_neg (by omega), if_neg (by omega), Hub.limRead_clean (hothers n (by omega) (by omega))]

theorem Hub.limReads_clean {h : Hub} {e : Nat} (hclean : h.limClean e) : h.limReads e 4 = h :=
  Hub.limReads_one (k := 4) (fun i hi _ => hclean i hi) (Nat.le_refl 4)

theorem Hub.limEntry_clean {h : Hub} {e : Nat} (hclean : h.limClean e) : h.limEntry e = (some (h.limWords e), h) := by
  unfold Hub.limEntry Hub.limWords
  rw [show List.range 4 = [0, 1, 2, 3] from rfl]
  simp only [List.foldl_cons, List.foldl_nil, Hub.limRead_clean (hclean 0 (by decide)), Hub.limRead_clean (hclean 1 (by decide)),
    Hub.limRead_clean (hclean 2 (by decide)), Hub.limRead_clean (hclean 3 (by decide))]
  rfl

theorem Hub.limStored_clean {h : Hub} {e : Nat} (hclean : h.limClean e) : h.limStored e = (h.limWords e, h) := by
  unfold Hub.limStored Hub.limWords
  rw [show List.range 4 = [0, 1, 2, 3] from rfl]
  simp only [List.foldl_cons, List.foldl_nil, Hub.limRead_clean (hclean 0 (by decide)), Hub.limRead_clean (hclean 1 (by decide)),
    Hub.limRead_clean (hclean 2 (by decide)), Hub.limRead_clean (hclean 3 (by decide))]
  rfl

/-! ### Words with fresh check bits (R245, R246) -/

/-- A word given for an entry is stored with fresh check bits. -/
def Hub.limPutWord (h : Hub) (e i : Nat) (w : Option Word) : Hub :=
  match w with
  | some w => { (h.setCell (limCell e i) w) with lim := { h.lim with ups := NMap.erase h.lim.ups (4 * e + i) } }
  | none => h

/-- The hub once the first `n` words of an entry were stored. -/
def Hub.limPuts (h : Hub) (e : Nat) (ws : List (Option Word)) (n : Nat) : Hub :=
  (List.range n).foldl (fun a i => a.limPutWord e i (ws.getD i none)) h

theorem Hub.limPuts_succ (h : Hub) (e : Nat) (ws : List (Option Word)) (n : Nat) :
    h.limPuts e ws (n + 1) = (h.limPuts e ws n).limPutWord e n (ws.getD n none) := by
  simp [Hub.limPuts, List.range_succ]

theorem Hub.limPut_eq (h : Hub) (e : Nat) (ws : List (Option Word)) : h.limPut e ws =
    if (List.range 4).all (fun i => NMap.get (h.limPuts e ws 4).lim.ups (4 * e + i) == 0#39) then
      (h.limPuts e ws 4).off (fLimStBad e) else h.limPuts e ws 4 := rfl

theorem Hub.cell_setCell (h : Hub) (k : Nat) (w : Word) (x y z : Nat) :
    (h.setCell k w).cell x y z = if cellKey x y z = k then w else h.cell x y z := by
  by_cases hk : cellKey x y z = k
  · rw [if_pos hk, ← hk]
    exact NMap.getD_setD_same ..
  · rw [if_neg hk]
    exact NMap.getD_setD_ne _ _ _ _ hk

theorem Hub.limPutWord_word (h : Hub) (e i : Nat) (w : Option Word) (k : Nat) :
    (h.limPutWord e i w).limWord e k = if k = i then w.getD (h.limWord e k) else h.limWord e k := by
  cases w with
  | none => simp [Hub.limPutWord]
  | some w =>
    refine (Hub.cell_setCell h (limCell e i) w 7 (e / 64) (4 * (e % 64) + k)).trans ?_
    by_cases hk : k = i
    · rw [if_pos (by rw [hk, limCell]), if_pos hk, Option.getD_some]
    · rw [if_neg (by unfold limCell cellKey; omega), if_neg hk]
      rfl

theorem Hub.limPutWord_ups (h : Hub) (e i : Nat) (w : Option Word) (k : Nat) :
    NMap.get (h.limPutWord e i w).lim.ups (4 * e + k) =
      if k = i ∧ w.isSome then 0#39 else NMap.get h.lim.ups (4 * e + k) := by
  cases w with
  | none => simp [Hub.limPutWord]
  | some w =>
    by_cases hk : k = i
    · rw [hk, if_pos ⟨rfl, rfl⟩]
      exact NMap.getD_erase_same ..
    · rw [if_neg (by simp [hk])]
      exact NMap.getD_erase_ne _ _ (by omega)

theorem Hub.limPuts_word (h : Hub) (e : Nat) (ws : List (Option Word)) (n k : Nat) :
    (h.limPuts e ws n).limWord e k = if k < n then (ws.getD k none).getD (h.limWord e k) else h.limWord e k := by
  induction n with
  | zero => rfl
  | succ n ih =>
    rw [Hub.limPuts_succ, Hub.limPutWord_word, ih]
    rcases Nat.lt_trichotomy k n with hk | rfl | hk
    · rw [if_neg (by omega), if_pos hk, if_pos (by omega)]
    · rw [if_pos rfl, if_neg (by omega), if_pos (by omega)]
    · rw [if_neg (by omega), if_neg (by omega), if_neg (by omega)]

theorem Hub.limPuts_ups (h : Hub) (e : Nat) (ws : List (Option Word)) (n k : Nat) :
    NMap.get (h.limPuts e ws n).lim.ups (4 * e + k) =
      if k < n ∧ (ws.getD k none).isSome then 0#39 else NMap.get h.lim.ups (4 * e + k) := by
  induction n with
  | zero => simp [Hub.limPuts]
  | succ n ih =>
    rw [Hub.limPuts_succ, Hub.limPutWord_ups, ih]
    rcases Nat.lt_trichotomy k n with hk | rfl | hk
    · simp only [hk, Nat.lt_succ_of_lt hk, Nat.ne_of_lt hk, true_and, false_and, if_false]
    · simp only [Nat.lt_irrefl, Nat.lt_succ_self, true_and, false_and, if_false]
    · simp only [Nat.not_lt_of_gt hk, show ¬k < n + 1 by omega, Nat.ne_of_gt hk, false_and, if_false]

theorem Hub.limPuts_entry (h : Hub) (e : Nat) (ws : List (Option Word)) (n : Nat) :
    (h.limPuts e ws n).lim.entry = h.lim.entry :=
  foldl_keep (fun k => k.lim.entry) _ (fun a i => by
    unfold Hub.limPutWord
    split <;> rfl) _ h

theorem Hub.limPuts_raw (h : Hub) (e : Nat) (ws : List (Option Word)) {n k : Nat} (hk : k < n) :
    (h.limPuts e ws n).limRaw e k = (ws.getD k none).getD (h.limRaw e k) := by
  rw [Hub.limRaw_eq, Hub.limPuts_word, Hub.limPuts_ups, if_pos hk]
  cases ws.getD k none with
  | none => simp [Hub.limRaw_eq]
  | some w => simp [hk]

/-- Four words given for an entry are its words, with no bit flipped. -/
theorem Hub.limPuts_four (h : Hub) (e : Nat) (w0 w1 w2 w : Word) :
    (List.range 4).map ((h.limPuts e [some w0, some w1, some w2, some w] 4).limWord e) = [w0, w1, w2, w] := by
  simp [List.range_succ, Hub.limPuts_word]

theorem Hub.limPuts_four_ups (h : Hub) (e : Nat) (w0 w1 w2 w : Word) :
    (List.range 4).map (fun i => NMap.get (h.limPuts e [some w0, some w1, some w2, some w] 4).lim.ups (4 * e + i)) =
      [0#39, 0#39, 0#39, 0#39] := by
  simp [List.range_succ, Hub.limPuts_ups, -Nat.add_zero]

/-- Word 3 given alone stands with the stored words 0 to 2. -/
theorem Hub.limPuts_last (h : Hub) (e : Nat) (w : Word) :
    (List.range 4).map (fun i => (h.limPuts e [none, none, none, some w] 4).limRaw e i) =
      [h.limRaw e 0, h.limRaw e 1, h.limRaw e 2, w] := by
  simp [List.range_succ, Hub.limPuts_raw]

theorem Hub.limPut_cells (h : Hub) (e : Nat) (ws : List (Option Word)) : (h.limPut e ws).cells = (h.limPuts e ws 4).cells := by
  rw [Hub.limPut_eq]
  split <;> rfl

theorem Hub.limPut_lim (h : Hub) (e : Nat) (ws : List (Option Word)) : (h.limPut e ws).lim = (h.limPuts e ws 4).lim := by
  rw [Hub.limPut_eq]
  split <;> rfl

/-- An entry whose four words are given is no longer passed over. -/
theorem Hub.limPut_good (h : Hub) (e : Nat) {ws : List (Option Word)} (hall : ∀ i < 4, (ws.getD i none).isSome = true) :
    (h.limPut e ws).limBad e = false := by
  rw [Hub.limPut_eq, if_pos]
  · exact Hub.is_off_same _ (by simp [fLimStBad])
  · rw [List.all_eq_true]
    intro i hi
    rw [Hub.limPuts_ups, if_pos ⟨List.mem_range.1 hi, hall i (List.mem_range.1 hi)⟩]
    rfl

end Sys2Proof.Machine
end

section
/-! SUPPORT. The limit engine's walk, its transitions and the application of a host's entry (R239 to R242, R244, R245). -/

namespace Sys2Proof.Machine
open Sys2Proof

/-! ### A level taken (R241, R244) -/

theorem Hub.limSetLevel_rd (h : Hub) {e : Nat} (new : Nat) {f : Fld} (hl : (fLimStLevel e).apart f) (ha : f.addr ≠ rLimActive) :
    (h.limSetLevel e new).rd f = h.rd f :=
  (Hub.rd_wr_addr (f := fLimActiveAlarm) _ _ ha).trans
    ((Hub.rd_wr_addr (f := fLimActiveWarning) _ _ ha).trans (Hub.rd_wr_apart _ _ hl))

theorem Hub.limSetLevel_level (h : Hub) {e new : Nat} (he : e < 8192) (hnew : new < 4) :
    (h.limSetLevel e new).rd (fLimStLevel e) = new := by
  have hset : (h.wr (fLimStLevel e) new).rd (fLimStLevel e) = new :=
    (Hub.rd_wr_same _ _ (by simp [fLimStLevel])).trans (Nat.mod_eq_of_lt hnew)
  exact (Hub.rd_wr_addr (f := fLimActiveAlarm) _ _ (limSt_ne he (by decide))).trans
    ((Hub.rd_wr_addr (f := fLimActiveWarning) _ _ (limSt_ne he (by decide))).trans hset)

theorem Hub.limSetLevel_warning (h : Hub) {e : Nat} (he : e < 8192) (new : Nat) :
    (h.limSetLevel e new).rd fLimActiveWarning =
      (h.rd fLimActiveWarning + b2n (new == 1) - b2n (h.rd (fLimStLevel e) == 1)) % 2 ^ fLimActiveWarning.len := by
  have hkeep : (h.wr (fLimStLevel e) new).rd fLimActiveWarning = h.rd fLimActiveWarning :=
    Hub.rd_wr_addr (f := fLimStLevel e) _ _ (limSt_ne he (by decide)).symm
  rw [← hkeep]
  exact (Hub.rd_wr_apart _ _ (by decide)).trans (Hub.rd_wr_same _ _ (by decide))

/-- An acting transition changes no register below the engine's own, no stored entry and no waiting record (R242). -/
theorem Hub.limAct_frame (fx : Fixed) (h : Hub) (e : Nat) (ws rec : List Word) :
    (h.limAct fx e ws rec).cells = h.cells ∧ (h.limAct fx e ws rec).lim = h.lim ∧
      ∀ a < 0x170000, (h.limAct fx e ws rec).reg a = h.reg a := by
  unfold Hub.limAct
  extract_lets s h1 h2 h3 h4
  have halarm (g : Hub) {p : Nat} (hp : p < 3) (c : Bool) : (if c then g.alarmTo p s else g).cells = g.cells ∧
      (if c then g.alarmTo p s else g).lim = g.lim ∧ ∀ a < 0x170000, (if c then g.alarmTo p s else g).reg a = g.reg a := by
    cases c
    · exact ⟨rfl, rfl, fun _ _ => rfl⟩
    · exact ⟨Hub.alarmTo_cells .., Hub.alarmTo_lim .., fun a ha => g.alarmTo_reg p s hp (.inl (by omega))⟩
  obtain ⟨hcells1, hlim1, hreg1⟩ := halarm h (p := 0) (by decide) (leAct ws 15)
  obtain ⟨hcells2, hlim2, hreg2⟩ := halarm h1 (p := 1) (by decide) (leAct ws 13 && !h1.isMaster fx && !h1.standalone fx)
  obtain ⟨hcells3, hlim3, hreg3⟩ := halarm h2 (p := 2) (by decide) (leAct ws 15 && h2.radioAlarm (leCtx ws))
  have hchan : fieldOf (recWord ws 3) 5 7 < 256 := Nat.lt_trans (fieldOf_lt _ _ _) (by decide)
  have h4keeps : h4.cells = h3.cells ∧ h4.lim = h3.lim ∧ ∀ a < 0x170000, h4.reg a = h3.reg a := by
    unfold h4
    split
    · exact ⟨Hub.presentChan_cells .., Hub.presentChan_lim .., fun a ha => h3.presentAt_reg _ _ hchan (.inl (by omega))⟩
    · exact ⟨rfl, rfl, fun _ _ => rfl⟩
  obtain ⟨hcells4, hlim4, hreg4⟩ := h4keeps
  have hcells : h4.cells = h.cells := hcells4.trans (hcells3.trans (hcells2.trans hcells1))
  have hlim : h4.lim = h.lim := hlim4.trans (hlim3.trans (hlim2.trans hlim1))
  have hreg : ∀ a < 0x170000, h4.reg a = h.reg a := fun a ha =>
    (hreg4 a ha).trans ((hreg3 a ha).trans ((hreg2 a ha).trans (hreg1 a ha)))
  split
  · exact ⟨hcells, hlim, fun a ha => (h4.reg_on_ne fLimStatusAct (by simp only [fLimStatusAct, rLimStatus]; omega)).trans (hreg a ha)⟩
  · exact ⟨hcells, hlim, hreg⟩

/-! ### A changed entry (R244) -/

/-- A changed entry is NORMAL; neither what is stored nor the mark of a bad entry changes. -/
theorem Hub.limChanged_frame (fx : Fixed) (h : Hub) {e : Nat} (he : e < 8192) (old new : List Word) :
    (h.limChanged fx e old new).cells = h.cells ∧ (h.limChanged fx e old new).lim = h.lim ∧
      (h.limChanged fx e old new).limBad e = h.limBad e ∧ (h.limChanged fx e old new).rd (fLimStLevel e) = 0 := by
  unfold Hub.limChanged
  extract_lets lv h1 ws
  have hbad : h1.rd (fLimStBad e) = h.rd (fLimStBad e) :=
    calc h1.rd (fLimStBad e) = (h.limSetLevel e 0).rd (fLimStBad e) :=
          (Hub.rd_wr_apart _ _ (by simp [Fld.apart, fLimStTrans, fLimStBad])).trans
            ((Hub.rd_wr_apart _ _ (by simp [Fld.apart, fLimStOffCnt, fLimStBad])).trans
              (Hub.rd_wr_apart _ _ (by simp [Fld.apart, fLimStOnCnt, fLimStBad])))
      _ = h.rd (fLimStBad e) := Hub.limSetLevel_rd _ 0 (by simp [Fld.apart, fLimStLevel, fLimStBad]) (limSt_ne he (by decide))
  have hlevel : h1.rd (fLimStLevel e) = 0 :=
    calc h1.rd (fLimStLevel e) = (h.limSetLevel e 0).rd (fLimStLevel e) :=
          (Hub.rd_wr_apart _ _ (by simp [Fld.apart, fLimStTrans, fLimStLevel])).trans
            ((Hub.rd_wr_apart _ _ (by simp [Fld.apart, fLimStOffCnt, fLimStLevel])).trans
              (Hub.rd_wr_apart _ _ (by simp [Fld.apart, fLimStOnCnt, fLimStLevel])))
      _ = 0 := Hub.limSetLevel_level _ he (by decide)
  split
  · exact ⟨rfl, rfl, Hub.is_congr hbad, hlevel⟩
  · obtain ⟨hcells, hlim, hreg⟩ := h1.limAct_frame fx e ws
      (h1.alarmWords e ws (report (h1.tbVal (h1.ctxTb (leCtx ws)))) 0#8 0 lv 1 0#32 0#32)
    have hst := hreg (rLimSt e) (by simp only [rLimSt]; omega)
    exact ⟨hcells, hlim, Hub.is_congr ((Hub.rd_congr hst).trans hbad), (Hub.rd_congr hst).trans hlevel⟩

/-! ### The evaluation of an entry (R240, R241) -/

/-- An entry takes a level: its counts start anew and the transition is counted. -/
def Hub.limTaken (h : Hub) (e new : Nat) : Hub :=
  (((h.limSetLevel e new).wr (fLimStOnCnt e) 0).wr (fLimStOffCnt e) 0).count (fLimStTrans e) 1

theorem Hub.limGoes_quiet {ws : List Word} {old new : Nat} (hquiet : limActs ws old new = false) (fx : Fixed) (h : Hub) (e : Nat)
    (r : FeaRec) (v : Word) : h.limGoes fx e ws r v old new = h.limTaken e new := by
  unfold Hub.limGoes
  exact if_neg (by simp [hquiet])

theorem Hub.limTaken_level (h : Hub) {e new : Nat} (he : e < 8192) (hnew : new < 4) :
    (h.limTaken e new).rd (fLimStLevel e) = new :=
  (Hub.rd_wr_apart _ _ (by simp [Fld.apart, fLimStTrans, fLimStLevel])).trans
    ((Hub.rd_wr_apart _ _ (by simp [Fld.apart, fLimStOffCnt, fLimStLevel])).trans
      ((Hub.rd_wr_apart _ _ (by simp [Fld.apart, fLimStOnCnt, fLimStLevel])).trans (h.limSetLevel_level he hnew)))

theorem Hub.limTaken_trans (h : Hub) {e : Nat} (he : e < 8192) (new : Nat) :
    (h.limTaken e new).rd (fLimStTrans e) = (h.rd (fLimStTrans e) + 1) % 2 ^ (fLimStTrans e).len := by
  have hkeep : (((h.limSetLevel e new).wr (fLimStOnCnt e) 0).wr (fLimStOffCnt e) 0).rd (fLimStTrans e) = h.rd (fLimStTrans e) :=
    (Hub.rd_wr_apart _ _ (by simp [Fld.apart, fLimStOffCnt, fLimStTrans])).trans
      ((Hub.rd_wr_apart _ _ (by simp [Fld.apart, fLimStOnCnt, fLimStTrans])).trans
        (Hub.limSetLevel_rd _ new (by simp [Fld.apart, fLimStLevel, fLimStTrans]) (limSt_ne he (by decide))))
  rw [← hkeep]
  exact Hub.rd_count_same _ 1 (by simp [fLimStTrans])

theorem Hub.limTaken_warning (h : Hub) {e : Nat} (he : e < 8192) (new : Nat) :
    (h.limTaken e new).rd fLimActiveWarning =
      (h.rd fLimActiveWarning + b2n (new == 1) - b2n (h.rd (fLimStLevel e) == 1)) % 2 ^ fLimActiveWarning.len :=
  have hne : rLimActive ≠ rLimSt e := (limSt_ne he (by decide)).symm
  (Hub.rd_wr_addr (f := fLimStTrans e) _ _ hne).trans ((Hub.rd_wr_addr (f := fLimStOffCnt e) _ _ hne).trans
    ((Hub.rd_wr_addr (f := fLimStOnCnt e) _ _ hne).trans (h.limSetLevel_warning he new)))

section
variable {ws : List Word} {r : FeaRec} (hskip : (leAct ws 3 && r.tag &&& 0xC4#8 != 0#8) = false) {h : Hub} {e : Nat} {v : Word}
include hskip

theorem Hub.limEval_holds (hp : propLevel ws v (h.rd (fLimStLevel e)) = h.rd (fLimStLevel e)) (fx : Fixed) :
    h.limEval fx e ws r v = (h.wr (fLimStOnCnt e) 0).wr (fLimStOffCnt e) 0 := by
  unfold Hub.limEval
  dsimp only
  rw [if_neg (by simp [hskip]), if_neg (by omega), if_neg (by omega)]

theorem Hub.limEval_countsOn (hp : h.rd (fLimStLevel e) < propLevel ws v (h.rd (fLimStLevel e)))
    (hn : h.rd (fLimStOnCnt e) + 1 < leOn ws) (fx : Fixed) :
    h.limEval fx e ws r v = (h.wr (fLimStOnCnt e) (h.rd (fLimStOnCnt e) + 1)).wr (fLimStOffCnt e) 0 := by
  unfold Hub.limEval
  dsimp only
  rw [if_neg (by simp [hskip]), if_pos hp, if_neg (by omega)]

theorem Hub.limEval_countsOff (hp : propLevel ws v (h.rd (fLimStLevel e)) < h.rd (fLimStLevel e))
    (hn : h.rd (fLimStOffCnt e) + 1 < leOff ws) (fx : Fixed) :
    h.limEval fx e ws r v = (h.wr (fLimStOffCnt e) (h.rd (fLimStOffCnt e) + 1)).wr (fLimStOnCnt e) 0 := by
  unfold Hub.limEval
  dsimp only
  rw [if_neg (by simp [hskip]), if_neg (by omega), if_pos hp, if_neg (by omega)]

theorem Hub.limEval_rises {lv p : Nat} (hlv : h.rd (fLimStLevel e) = lv) (hp : propLevel ws v lv = p) (hup : lv < p)
    (hn : leOn ws ≤ h.rd (fLimStOnCnt e) + 1) (fx : Fixed) : h.limEval fx e ws r v = h.limGoes fx e ws r v lv p := by
  unfold Hub.limEval
  dsimp only
  rw [if_neg (by simp [hskip]), hlv, hp, if_pos hup, if_pos hn]

theorem Hub.limEval_falls {lv p : Nat} (hlv : h.rd (fLimStLevel e) = lv) (hp : propLevel ws v lv = p) (hdown : p < lv)
    (hn : leOff ws ≤ h.rd (fLimStOffCnt e) + 1) (fx : Fixed) : h.limEval fx e ws r v = h.limGoes fx e ws r v lv p := by
  unfold Hub.limEval
  dsimp only
  rw [if_neg (by simp [hskip]), hlv, hp, if_neg (by omega), if_pos hdown, if_pos hn]

end

/-- One of an entry's counts is stored and the other begins anew: the level stays, and no other register changes. -/
theorem Hub.limCounted_shows (h : Hub) {e n : Nat} {f g : Fld} (hf : f.addr = rLimSt e) (hg : g.addr = rLimSt e)
    (hfl : f.apart (fLimStLevel e)) (hgl : g.apart (fLimStLevel e)) (hgf : g.apart f) (hn : n < 2 ^ f.len) :
    ((h.wr f n).wr g 0).rd (fLimStLevel e) = h.rd (fLimStLevel e) ∧ ((h.wr f n).wr g 0).rd f = n ∧
      ((h.wr f n).wr g 0).rd g = 0 ∧ ∀ a, a ≠ (fLimStLevel e).addr → ((h.wr f n).wr g 0).reg a = h.reg a := by
  refine ⟨(Hub.rd_wr_apart _ _ hgl).trans (Hub.rd_wr_apart _ _ hfl), ?_, ?_, fun a ha => ?_⟩
  · rw [Hub.rd_wr_apart _ _ hgf, Hub.rd_wr_same _ _ hfl.1, Nat.mod_eq_of_lt hn]
  · rw [Hub.rd_wr_same _ _ hgl.1, Nat.zero_mod]
  · rw [Hub.reg_wr_ne _ g _ (hg ▸ ha), Hub.reg_wr_ne _ f _ (hf ▸ ha)]

/-- An evaluation changes neither the stored entries nor the waiting records. -/
theorem Hub.limEval_frame (fx : Fixed) (h : Hub) (e : Nat) (ws : List Word) (r : FeaRec) (v : Word) :
    (h.limEval fx e ws r v).cells = h.cells ∧ (h.limEval fx e ws r v).lim = h.lim := by
  have hgoes (old new : Nat) : (h.limGoes fx e ws r v old new).cells = h.cells ∧ (h.limGoes fx e ws r v old new).lim = h.lim := by
    unfold Hub.limGoes
    dsimp only
    split
    · obtain ⟨hcells, hlim, -⟩ := (h.limTaken e new).limAct_frame fx e ws
        ((h.limTaken e new).alarmWords e ws r.time r.tag new old 0 v (crossedLevel ws old new))
      exact ⟨hcells, hlim⟩
    · exact ⟨rfl, rfl⟩
  unfold Hub.limEval
  dsimp only
  split
  · exact ⟨rfl, rfl⟩
  split
  · split
    · exact hgoes _ _
    · exact ⟨rfl, rfl⟩
  split
  · split
    · exact hgoes _ _
    · exact ⟨rfl, rfl⟩
  · exact ⟨rfl, rfl⟩

/-! ### The walk (R239) -/

/-- A record the engine took left its input. -/
def Hub.recordTaken (h : Hub) (rest : List FeaRec) : Hub := { h with lim := { h.lim with fifo := rest } }

theorem Hub.limRecord_idle {h : Hub} (hnone : h.lim.fifo = []) (fx : Fixed) : h.limRecord fx = h := by
  unfold Hub.limRecord
  rw [hnone]

theorem Hub.limRecord_walk {h : Hub} {r : FeaRec} {rest : List FeaRec} (hfifo : h.lim.fifo = r :: rest) (fx : Fixed) :
    h.limRecord fx = ((List.range (h.limRun r.ctx).2).map (fun i => (h.limRun r.ctx).1 + i)).foldl (Hub.limStep fx r)
      (h.recordTaken rest) := by
  unfold Hub.limRecord
  rw [hfifo]
  rfl

theorem Hub.limStep_bad {h : Hub} {e : Nat} (hbad : h.limBad e = true) (fx : Fixed) (r : FeaRec) : Hub.limStep fx r h e = h :=
  if_pos hbad

theorem Hub.limStep_frame (fx : Fixed) (r : FeaRec) (h : Hub) (e : Nat) :
    (Hub.limStep fx r h e).cells = h.cells ∧ (Hub.limStep fx r h e).lim.fifo = h.lim.fifo := by
  have hread : (h.limEntry e).2.cells = h.cells ∧ (h.limEntry e).2.lim.fifo = h.lim.fifo := by
    rw [Hub.limEntry_reads]
    exact ⟨h.limReads_cells e 4, h.limReads_fifo e 4⟩
  unfold Hub.limStep
  split
  · exact ⟨rfl, rfl⟩
  dsimp only
  split
  · split
    next v _ =>
      obtain ⟨hcells, hlim⟩ := (h.limEntry e).2.limEval_frame fx e _ r v
      exact ⟨hcells.trans hread.1, (congrArg Lim.fifo hlim).trans hread.2⟩
    next => exact hread
  · exact hread

/-- A clean valid entry of the record's context whose value the record holds is evaluated. -/
theorem Hub.limStep_evaluates {h : Hub} {e : Nat} {r : FeaRec} {v : Word} (hgood : h.limBad e = false) (hclean : h.limClean e)
    (hvalid : leValid (h.limWords e) = true) (hctx : leCtx (h.limWords e) = r.ctx)
    (hval : r.value (leSel (h.limWords e)) = some v) (fx : Fixed) :
    Hub.limStep fx r h e = h.limEval fx e (h.limWords e) r v := by
  unfold Hub.limStep
  rw [if_neg (by simp [hgood]), Hub.limEntry_clean hclean]
  dsimp only
  rw [if_pos (by simp [hvalid, hctx]), hval]

theorem Hub.limRecord_takes {h : Hub} {r : FeaRec} {rest : List FeaRec} (hfifo : h.lim.fifo = r :: rest) (fx : Fixed) :
    (h.limRecord fx).lim.fifo = rest ∧ (h.limRecord fx).cells = h.cells := by
  rw [Hub.limRecord_walk hfifo]
  exact ⟨foldl_keep (fun k => k.lim.fifo) _ (fun a e => (Hub.limStep_frame fx r a e).2) _ _,
    foldl_keep Hub.cells _ (fun a e => (Hub.limStep_frame fx r a e).1) _ _⟩

/-- A run of bad entries is passed over. -/
theorem Hub.limRecord_passes {h : Hub} {r : FeaRec} {rest : List FeaRec} (hfifo : h.lim.fifo = r :: rest)
    (hbad : ∀ i ∈ List.range (h.limRun r.ctx).2, h.limBad ((h.limRun r.ctx).1 + i) = true) (fx : Fixed) :
    h.limRecord fx = h.recordTaken rest := by
  have hwalk : ∀ l : List Nat, (∀ e ∈ l, h.limBad e = true) →
      l.foldl (Hub.limStep fx r) (h.recordTaken rest) = h.recordTaken rest := by
    intro l hl
    induction l with
    | nil => rfl
    | cons e l ih =>
      rw [List.forall_mem_cons] at hl
      rw [List.foldl_cons, Hub.limStep_bad (h := h.recordTaken rest) hl.1, ih hl.2]
  rw [Hub.limRecord_walk hfifo]
  exact hwalk _ (by simpa using hbad)

/-- A run of one entry that is evaluated. -/
theorem Hub.limRecord_one {h : Hub} {e : Nat} {r : FeaRec} {rest : List FeaRec} {v : Word} (hfifo : h.lim.fifo = r :: rest)
    (hrun : h.limRun r.ctx = (e, 1)) (hgood : h.limBad e = false) (hclean : h.limClean e)
    (hvalid : leValid (h.limWords e) = true) (hctx : leCtx (h.limWords e) = r.ctx)
    (hval : r.value (leSel (h.limWords e)) = some v) (fx : Fixed) :
    h.limRecord fx = (h.recordTaken rest).limEval fx e (h.limWords e) r v := by
  rw [Hub.limRecord_walk hfifo, hrun]
  exact Hub.limStep_evaluates (h := h.recordTaken rest) hgood hclean hvalid hctx hval fx

/-- A run begins within the table (R248). -/
theorem Hub.limRun_lt {h : Hub} {c e n : Nat} (hrun : h.limRun c = (e, n)) : e < 8192 := by
  have hlt : (h.limRun c).1 < 2 ^ 13 := fieldOf_lt _ _ _
  rwa [hrun] at hlt

/-! ### Host writes (R245) -/

theorem Hub.limHold_first {h : Hub} (hheld : h.stHeld heldLimit = false) (hnone : h.lim.entry = none) (e i : Nat) (w : Word) :
    h.limHold e i w = { h with lim := { h.lim with entry := some e, buf := [(i, w)] } } := by
  unfold Hub.limHold
  rw [if_neg (by simp [hheld]), hnone]

theorem Hub.limHold_more {h : Hub} {e : Nat} (hheld : h.stHeld heldLimit = false) (hsame : h.lim.entry = some e) (i : Nat)
    (w : Word) : h.limHold e i w = { h with lim := { h.lim with buf := NMap.insert (NMap.erase h.lim.buf i) i w } } := by
  unfold Hub.limHold
  rw [if_neg (by simp [hheld]), hsame]
  exact if_pos rfl

theorem Hub.limHold_other {h : Hub} {e e0 : Nat} (hheld : h.stHeld heldLimit = false) (hother : h.lim.entry = some e0)
    (hne : e0 ≠ e) (i : Nat) (w : Word) : h.limHold e i w =
      { h.on fLimStatusWrDiscard with lim := { h.lim with entry := some e, buf := [(i, w)] } } := by
  unfold Hub.limHold
  rw [if_neg (by simp [hheld]), hother]
  exact if_neg hne

/-- The words given for an entry are applied with the stored ones, or refused. -/
def Hub.limApplied (fx : Fixed) (h : Hub) (e : Nat) (old new : List Word) (given : List (Option Word)) : Hub :=
  if h.limRefused e new then h.on fLimStatusWrRefused
  else if new = old then h.limPut e given else (h.limPut e given).limChanged fx e old new

/-- The held words were taken up. -/
def Hub.limReleased (h : Hub) : Hub := { h with lim := { h.lim with entry := none, buf := [] } }

theorem Hub.limReleased_limRefused (h : Hub) (e : Nat) (ws : List Word) : h.limReleased.limRefused e ws = h.limRefused e ws := rfl

theorem Hub.limApply_held {h : Hub} {e : Nat} {w0 w1 w2 : Word} (hheld : h.stHeld heldLimit = false)
    (hentry : h.lim.entry = some e) (hbuf : h.lim.buf = [(0, w0), (1, w1), (2, w2)]) (fx : Fixed) (w : Word) :
    h.limApply fx e w = (h.limStored e).2.limReleased.limApplied fx e (h.limStored e).1 [w0, w1, w2, w]
      [some w0, some w1, some w2, some w] := by
  unfold Hub.limApply
  rw [if_neg (by simp [hheld])]
  simp only [hentry, hbuf, beq_self_eq_true, if_true]
  rfl

theorem Hub.limApply_alone {h : Hub} {e : Nat} (hheld : h.stHeld heldLimit = false) (hentry : h.lim.entry = none)
    (hclean : h.limClean e) (fx : Fixed) (w : Word) :
    h.limApply fx e w = h.limApplied fx e (h.limWords e) [h.limWord e 0, h.limWord e 1, h.limWord e 2, w]
      [none, none, none, some w] := by
  unfold Hub.limApply
  rw [if_neg (by simp [hheld]), Hub.limStored_clean hclean]
  simp only [hentry]
  rfl

theorem Hub.limApplied_refused {h : Hub} {e : Nat} {new : List Word} (href : h.limRefused e new = true) (fx : Fixed)
    (old : List Word) (given : List (Option Word)) : h.limApplied fx e old new given = h.on fLimStatusWrRefused :=
  if_pos href

/-- What an accepted write leaves: the words given stored, and a changed entry NORMAL. -/
theorem Hub.limApplied_accepted {h : Hub} {e : Nat} (he : e < 8192) {new : List Word} (hacc : h.limRefused e new = false)
    (fx : Fixed) (old : List Word) (given : List (Option Word)) :
    (h.limApplied fx e old new given).cells = (h.limPut e given).cells ∧
      (h.limApplied fx e old new given).lim = (h.limPut e given).lim ∧
      (h.limApplied fx e old new given).limBad e = (h.limPut e given).limBad e ∧
      (old ≠ new → (h.limApplied fx e old new given).rd (fLimStLevel e) = 0) := by
  unfold Hub.limApplied
  rw [if_neg (by simp [hacc])]
  split
  next hsame => exact ⟨rfl, rfl, rfl, fun hne => absurd hsame.symm hne⟩
  next =>
    obtain ⟨hcells, hlim, hbad, hlevel⟩ := (h.limPut e given).limChanged_frame fx he old new
    exact ⟨hcells, hlim, hbad, fun _ => hlevel⟩

/-! ### The scrubber (R246) -/

@[simp] theorem Hub.limUpset_none (h : Hub) : h.limUpset none = h := rfl

/-- An upset changes stored bits alone. -/
theorem Hub.limUpset_records (h : Hub) (u : Option LimUpset) :
    h.limUpset u = { h with lim := { h.lim with ups := (h.limUpset u).lim.ups } } := by
  cases u <;> rfl

theorem Hub.limUpset_some (h : Hub) (x : LimUpset) : (h.limUpset (some x)).lim.ups =
    NMap.modify h.lim.ups (4 * x.entry + x.word) (fun b => b ^^^ x.bits) := rfl

/-- Only the upset word of a clean entry has flipped bits. -/
theorem Hub.limUpset_ups {h : Hub} {x : LimUpset} (hclean : h.limClean x.entry) {i : Nat} (hi : i < 4) :
    NMap.get (h.limUpset (some x)).lim.ups (4 * x.entry + i) = if i = x.word then x.bits else 0#39 := by
  rw [Hub.limUpset_some]
  by_cases hk : i = x.word
  · rw [if_pos hk, hk, NMap.get_modify_same, hclean _ x.word.isLt]
    exact BitVec.zero_xor
  · rw [if_neg hk, NMap.get_modify_ne _ _ (by omega), hclean i hi]

theorem Hub.limUpset_reads {h : Hub} {x : LimUpset} (hclean : h.limClean x.entry) :
    (h.limUpset (some x)).limReads x.entry 4 = ((h.limUpset (some x)).limRead x.entry x.word).2 := by
  rw [Hub.limReads_one (k := x.word) (fun i hi hk => by rw [Hub.limUpset_ups hclean hi, if_neg hk]) (Nat.le_refl 4),
    if_pos x.word.isLt]

theorem Hub.limScrub_rests {h : Hub} (hoff : h.is fLimCfgScrub = false ∨ h.lim.fifo ≠ []) :
    (h.is fLimCfgScrub && h.lim.fifo.isEmpty && !h.stHeld heldLimit) = false := by
  rcases hoff with hoff | hwaits
  · simp [hoff]
  · simp [hwaits]

theorem Hub.limScrub_reads {h : Hub} (hheld : h.stHeld heldLimit = false) (hon : h.is fLimCfgScrub = true)
    (hidle : h.lim.fifo = []) : (h.is fLimCfgScrub && h.lim.fifo.isEmpty && !h.stHeld heldLimit) = true := by
  simp [hheld, hon, hidle]

/-! ### The statement -/

/-- Settles O20: a record by what its run's entry does, a host write by the words it gives, a scrub by the one word that flipped. -/
theorem limitTable : Obligations.LimitTable := by
  refine ⟨?_, ?_, ?_, ?_, ?_, ?_, ?_, ?_, ?_, ?_, ?_, ?_, ?_, ?_, ?_, ?_, ?_, ?_⟩
  · -- LIMIT_RECORD_EVALUATE with no record waiting
    intro s u hheld hnone
    have hups := s.hub.limUpset_records u
    have hidle : (s.hub.limUpset u).lim.fifo = [] := by rw [hups]; exact hnone
    refine ⟨_, rfl, ?_⟩
    dsimp only
    rw [if_neg (by simp [hheld]), Hub.limRecord_idle hidle, latchIrq_lim, latchIrq_cells]
    refine ⟨hidle, by rw [hups], fun a ha => ?_⟩
    rw [latchIrq_reg _ _ _ _ ha, hups]
    rfl
  · -- LIMIT_RECORD_EVALUATE of the oldest record, any run
    intro s u r rest hheld hfifo
    have hups := s.hub.limUpset_records u
    obtain ⟨hrest, hcells⟩ := Hub.limRecord_takes (h := s.hub.limUpset u) (r := r) (rest := rest) (by rw [hups]; exact hfifo) s.fixed
    refine ⟨_, rfl, ?_⟩
    dsimp only
    rw [if_neg (by simp [hheld]), latchIrq_lim, latchIrq_cells]
    exact ⟨hrest, hcells.trans (by rw [hups])⟩
  · -- LIMIT_RECORD_EVALUATE, the value proposes the present level
    intro s e r rest v hheld hfifo hrun hgood hclean hvalid hctx hval hskip hp
    refine ⟨_, rfl, ?_⟩
    dsimp only
    rw [if_neg (by simp [hheld]), Hub.limUpset_none,
      Hub.limRecord_one hfifo hrun hgood (Hub.limClean_of_all hclean) hvalid hctx hval,
      Hub.limEval_holds (h := s.hub.recordTaken rest) hskip hp, latchIrq_lim, latchIrq_rd _ _ _ _ (limSt_ne_wake e),
      latchIrq_rd _ _ _ _ (limSt_ne_wake e), latchIrq_rd _ _ _ _ (limSt_ne_wake e)]
    obtain ⟨hlevel, hcount, hother, hreg⟩ := Hub.limCounted_shows (s.hub.recordTaken rest) (e := e) (n := 0)
      (f := fLimStOnCnt e) (g := fLimStOffCnt e) rfl rfl (by simp [Fld.apart, fLimStOnCnt, fLimStLevel])
      (by simp [Fld.apart, fLimStOffCnt, fLimStLevel]) (by simp [Fld.apart, fLimStOnCnt, fLimStOffCnt]) (Nat.two_pow_pos _)
    exact ⟨rfl, hlevel, hcount, hother, fun a ⟨hwake, hst⟩ => (latchIrq_reg _ _ _ _ hwake).trans (hreg a hst)⟩
  · -- LIMIT_RECORD_EVALUATE, a higher level proposed below the on count
    intro s e r rest v hheld hfifo hrun hgood hclean hvalid hctx hval hskip hp hn
    have hfits : s.hub.rd (fLimStOnCnt e) + 1 < 2 ^ (fLimStOnCnt e).len :=
      Nat.lt_of_lt_of_le hn (fieldOf_lt _ 9 4)
    refine ⟨_, rfl, ?_⟩
    dsimp only
    rw [if_neg (by simp [hheld]), Hub.limUpset_none,
      Hub.limRecord_one hfifo hrun hgood (Hub.limClean_of_all hclean) hvalid hctx hval,
      Hub.limEval_countsOn (h := s.hub.recordTaken rest) hskip hp hn, latchIrq_lim, latchIrq_rd _ _ _ _ (limSt_ne_wake e),
      latchIrq_rd _ _ _ _ (limSt_ne_wake e), latchIrq_rd _ _ _ _ (limSt_ne_wake e)]
    obtain ⟨hlevel, hcount, hother, hreg⟩ := Hub.limCounted_shows (s.hub.recordTaken rest) (e := e) (n := s.hub.rd (fLimStOnCnt e) + 1)
      (f := fLimStOnCnt e) (g := fLimStOffCnt e) rfl rfl (by simp [Fld.apart, fLimStOnCnt, fLimStLevel])
      (by simp [Fld.apart, fLimStOffCnt, fLimStLevel]) (by simp [Fld.apart, fLimStOnCnt, fLimStOffCnt]) hfits
    exact ⟨rfl, hlevel, hcount, hother, fun a ⟨hwake, hst⟩ => (latchIrq_reg _ _ _ _ hwake).trans (hreg a hst)⟩
  · -- LIMIT_RECORD_EVALUATE, a lower level proposed below the off count
    intro s e r rest v hheld hfifo hrun hgood hclean hvalid hctx hval hskip hp hn
    have hfits : s.hub.rd (fLimStOffCnt e) + 1 < 2 ^ (fLimStOffCnt e).len :=
      Nat.lt_of_lt_of_le hn (fieldOf_lt _ 5 4)
    refine ⟨_, rfl, ?_⟩
    dsimp only
    rw [if_neg (by simp [hheld]), Hub.limUpset_none,
      Hub.limRecord_one hfifo hrun hgood (Hub.limClean_of_all hclean) hvalid hctx hval,
      Hub.limEval_countsOff (h := s.hub.recordTaken rest) hskip hp hn, latchIrq_lim, latchIrq_rd _ _ _ _ (limSt_ne_wake e),
      latchIrq_rd _ _ _ _ (limSt_ne_wake e), latchIrq_rd _ _ _ _ (limSt_ne_wake e)]
    obtain ⟨hlevel, hcount, hother, hreg⟩ := Hub.limCounted_shows (s.hub.recordTaken rest) (e := e) (n := s.hub.rd (fLimStOffCnt e) + 1)
      (f := fLimStOffCnt e) (g := fLimStOnCnt e) rfl rfl (by simp [Fld.apart, fLimStOffCnt, fLimStLevel])
      (by simp [Fld.apart, fLimStOnCnt, fLimStLevel]) (by simp [Fld.apart, fLimStOffCnt, fLimStOnCnt]) hfits
    exact ⟨rfl, hlevel, hcount, hother, fun a ⟨hwake, hst⟩ => (latchIrq_reg _ _ _ _ hwake).trans (hreg a hst)⟩
  · -- LIMIT_RECORD_EVALUATE, the last of the on count, to WARNING
    intro s e r rest v hheld hfifo hrun hgood hclean hvalid hctx hval hskip hlevel hp hn hacts
    have he := Hub.limRun_lt hrun
    refine ⟨_, rfl, ?_⟩
    dsimp only
    rw [if_neg (by simp [hheld]), Hub.limUpset_none,
      Hub.limRecord_one hfifo hrun hgood (Hub.limClean_of_all hclean) hvalid hctx hval,
      Hub.limEval_rises (h := s.hub.recordTaken rest) hskip hlevel hp (by decide) hn,
      Hub.limGoes_quiet (by simp [limActs, hacts]), latchIrq_lim, latchIrq_flt, latchIrq_rd _ _ _ _ (limSt_ne_wake e),
      latchIrq_rd _ _ _ _ (limSt_ne_wake e), latchIrq_rd _ _ _ _ (by decide), Hub.limTaken_level _ he (by decide),
      Hub.limTaken_trans _ he, Hub.limTaken_warning _ he, show (s.hub.recordTaken rest).rd (fLimStLevel e) = 0 from hlevel]
    exact ⟨rfl, rfl, rfl, rfl, rfl⟩
  · -- LIMIT_RECORD_EVALUATE, the last of the off count, back to NORMAL
    intro s e r rest v hheld hfifo hrun hgood hclean hvalid hctx hval hskip hlevel hp hn hacts hwarn
    have he := Hub.limRun_lt hrun
    have hfits : s.hub.rd fLimActiveWarning - 1 < 2 ^ fLimActiveWarning.len :=
      Nat.lt_of_le_of_lt (Nat.sub_le _ 1) (s.hub.rd_lt fLimActiveWarning)
    refine ⟨_, rfl, ?_⟩
    dsimp only
    rw [if_neg (by simp [hheld]), Hub.limUpset_none,
      Hub.limRecord_one hfifo hrun hgood (Hub.limClean_of_all hclean) hvalid hctx hval,
      Hub.limEval_falls (h := s.hub.recordTaken rest) hskip hlevel hp (by decide) hn,
      Hub.limGoes_quiet (by simp [limActs, hacts]), latchIrq_lim, latchIrq_rd _ _ _ _ (limSt_ne_wake e),
      latchIrq_rd _ _ _ _ (limSt_ne_wake e), latchIrq_rd _ _ _ _ (by decide), Hub.limTaken_level _ he (by decide),
      Hub.limTaken_trans _ he, Hub.limTaken_warning _ he, show (s.hub.recordTaken rest).rd (fLimStLevel e) = 1 from hlevel]
    exact ⟨rfl, rfl, rfl, Nat.mod_eq_of_lt hfits⟩
  · -- LIMIT_RECORD_EVALUATE, every entry of the run bad
    intro s r rest hheld hfifo hbad
    refine ⟨_, rfl, ?_⟩
    dsimp only
    rw [if_neg (by simp [hheld]), Hub.limUpset_none, Hub.limRecord_passes hfifo hbad, latchIrq_lim]
    exact ⟨rfl, fun a ha => latchIrq_reg _ _ _ _ ha⟩
  · -- LIM_ENTRY_WORD_HOLD, nothing held for another entry
    intro s e i w hans hheld hnone
    refine ⟨_, rfl, ?_⟩
    dsimp only
    rw [Hub.atReg_answers _ hans, Hub.limHold_first hheld hnone, latchIrq_lim, latchIrq_cells]
    exact ⟨rfl, rfl, rfl, fun a ha => latchIrq_reg _ _ _ _ ha⟩
  · -- LIM_ENTRY_WORD_HOLD, words of the same entry held
    intro s e i w hans hheld hsame
    refine ⟨_, rfl, ?_⟩
    dsimp only
    rw [Hub.atReg_answers _ hans, Hub.limHold_more hheld hsame, latchIrq_lim, latchIrq_cells]
    exact ⟨hsame, rfl, rfl, fun a ha => latchIrq_reg _ _ _ _ ha⟩
  · -- LIM_ENTRY_WORD_HOLD, words of another entry discarded
    intro s e i w e0 hans hheld hother hne
    refine ⟨_, rfl, ?_⟩
    dsimp only
    rw [Hub.atReg_answers _ hans, Hub.limHold_other hheld hother hne, latchIrq_lim, latchIrq_cells, latchIrq_is _ _ _ _ (by decide)]
    exact ⟨rfl, rfl, Hub.is_on_same s.hub (by decide) (by decide), rfl⟩
  · -- LIM_ENTRY_APPLY of four words the check accepts
    intro s e w0 w1 w2 w hans hheld hentry hbuf hacc
    rw [← Hub.limReleased_limRefused] at hacc
    obtain ⟨hcells, hlim, hbad, hlevel⟩ := Hub.limApplied_accepted e.isLt hacc s.fixed
      (s.hub.limStored e).1 [some w0, some w1, some w2, some w]
    have hgood := (s.hub.limStored e).2.limReleased.limPut_good e (ws := [some w0, some w1, some w2, some w])
      fun i hi => by interval_cases i <;> rfl
    refine ⟨_, rfl, ?_⟩
    dsimp only
    rw [Hub.atReg_answers _ hans, Hub.limApply_held hheld hentry hbuf, latchIrq_lim, latchIrq_rd _ _ _ _ (limSt_ne_wake e),
      Hub.limBad, latchIrq_is _ _ _ _ (limSt_ne_wake e), hlim, Hub.limPut_lim]
    refine ⟨?_, Hub.limPuts_four_ups .., Hub.limPuts_entry .., hbad.trans hgood, hlevel⟩
    have hword := Hub.limWord_congr ((latchIrq_cells s.hub s.met _ s.met).trans (hcells.trans (Hub.limPut_cells ..)))
    exact (congrArg (fun f : Nat → Nat → Word => (List.range 4).map (f e)) hword).trans (Hub.limPuts_four ..)
  · -- LIM_ENTRY_APPLY with no word held
    intro s e w hans hheld hentry hall hacc
    have hclean := Hub.limClean_of_all hall
    have hraw {i : Nat} (hi : i < 4) : s.hub.limRaw e i = s.hub.limWord e i := Hub.limRaw_clean (hclean i hi)
    rw [hraw (by decide), hraw (by decide), hraw (by decide)] at hacc
    obtain ⟨hcells, hlim, -, -⟩ := Hub.limApplied_accepted e.isLt hacc s.fixed (s.hub.limWords e) [none, none, none, some w]
    rw [Hub.limPut_cells] at hcells
    rw [Hub.limPut_lim] at hlim
    refine ⟨_, rfl, ?_⟩
    dsimp only
    rw [Hub.atReg_answers _ hans, Hub.limApply_alone hheld hentry hclean, latchIrq_lim, hlim, Hub.limPuts_entry]
    rw [Hub.limRaw_congr (latchIrq_cells ..) (latchIrq_lim ..), Hub.limRaw_congr hcells hlim]
    exact ⟨Hub.limPuts_last .., hentry⟩
  · -- LIM_ENTRY_APPLY of four words the check refuses
    intro s e w0 w1 w2 w hans hheld hentry hbuf hclean href
    have hstored := Hub.limStored_clean (Hub.limClean_of_all hclean)
    refine ⟨_, rfl, ?_⟩
    dsimp only
    rw [Hub.atReg_answers _ hans, Hub.limApply_held hheld hentry hbuf, hstored,
      Hub.limApplied_refused ((s.hub.limReleased_limRefused ..).trans href), latchIrq_lim, latchIrq_cells, latchIrq_is _ _ _ _ (by decide)]
    refine ⟨Hub.is_on_same _ (by decide) (by decide), rfl, rfl, fun a ⟨hwake, hstatus⟩ => ?_⟩
    rw [latchIrq_reg _ _ _ _ hwake, Hub.reg_on_ne _ fLimStatusWrRefused hstatus]
    rfl
  · -- LIMIT_SCRUB_READ of a clean entry
    intro s hheld hon hidle hclean
    refine ⟨_, rfl, ?_⟩
    dsimp only
    rw [Hub.limUpset_none, if_pos (Hub.limScrub_reads hheld hon hidle), Hub.limEntry_reads,
      Hub.limReads_clean (Hub.limClean_of_all hclean), latchIrq_lim, latchIrq_cells, latchIrq_rd _ _ _ _ (by decide)]
    refine ⟨rfl, rfl, Hub.rd_wr_same _ _ (by decide), fun a ⟨hwake, hpos⟩ => ?_⟩
    rw [latchIrq_reg _ _ _ _ hwake, Hub.reg_wr_ne _ fLimScrubPos _ hpos]
  · -- LIMIT_SCRUB_READ of an entry in which one bit flipped
    intro s x hheld hon hidle hentry hall hone
    have hclean : s.hub.limClean x.entry := Hub.limClean_of_all (hentry ▸ hall)
    have hups := Hub.limUpset_ups hclean x.word.isLt
    rw [if_pos rfl] at hups
    obtain ⟨hrepaired, hflag, hcount⟩ := (s.hub.limUpset (some x)).limCorrected_shows x.entry x.word
    refine ⟨_, rfl, ?_⟩
    dsimp only
    rw [if_pos (Hub.limScrub_reads (h := s.hub.limUpset (some x)) hheld hon hidle), Hub.limEntry_reads,
      show (s.hub.limUpset (some x)).rd fLimScrubPos = x.entry from hentry.symm, Hub.limUpset_reads hclean,
      Hub.limRead_single (by rw [hups]; exact hone), latchIrq_lim, latchIrq_cells, latchIrq_is _ _ _ _ (by decide),
      latchIrq_rd _ _ _ _ (by decide)]
    exact ⟨hrepaired, rfl, (Hub.is_wr_apart _ _ (by decide)).trans hflag,
      (Hub.rd_wr_apart _ _ (by decide)).trans hcount⟩
  · -- LIMIT_SCRUB_READ of an entry in which two bits of one word flipped
    intro s x hheld hon hidle hentry hall htwo
    have hclean : s.hub.limClean x.entry := Hub.limClean_of_all (hentry ▸ hall)
    have hups := Hub.limUpset_ups hclean x.word.isLt
    rw [if_pos rfl] at hups
    obtain ⟨hbad, hflag, hcount⟩ := (s.hub.limUpset (some x)).limUncorr_marks x.entry.isLt x.word
    refine ⟨_, rfl, ?_⟩
    dsimp only
    rw [if_pos (Hub.limScrub_reads (h := s.hub.limUpset (some x)) hheld hon hidle), Hub.limEntry_reads,
      show (s.hub.limUpset (some x)).rd fLimScrubPos = x.entry from hentry.symm, Hub.limUpset_reads hclean,
      Hub.limRead_double (by rw [hups]; exact htwo), Hub.limBad, latchIrq_is _ _ _ _ (limSt_ne_wake _),
      latchIrq_is _ _ _ _ (by decide), latchIrq_rd _ _ _ _ (by decide)]
    exact ⟨(Hub.is_congr (Hub.rd_wr_addr _ _ (limSt_ne x.entry.isLt (by decide)))).trans hbad,
      (Hub.is_wr_apart _ _ (by decide)).trans hflag, (Hub.rd_wr_apart _ _ (by decide)).trans hcount⟩
  · -- LIMIT_SCRUB_READ while the scrubber is off or a record waits
    intro s hoff
    refine ⟨_, rfl, ?_⟩
    dsimp only
    rw [Hub.limUpset_none, if_neg (Bool.eq_false_iff.1 (Hub.limScrub_rests hoff)), latchIrq_lim]
    exact ⟨rfl, fun a ha => latchIrq_reg _ _ _ _ ha⟩

end Sys2Proof.Machine
end

section
/-! SUPPORT. Event channels (R254, R260 to R264, R268): what a firing, a hold and a storm leave of a channel and its registers. -/

namespace Sys2Proof.Machine
open Sys2Proof

/-! ### A channel's record behind an update -/

theorem Hub.chan_congr {h g : Hub} (e : g.ev = h.ev) (n : Nat) : g.chan n = h.chan n := by
  unfold Hub.chan
  rw [e]

@[simp] theorem Hub.wr_chan (h : Hub) (f : Fld) (v n : Nat) : (h.wr f v).chan n = h.chan n := rfl
@[simp] theorem Hub.on_chan (h : Hub) (f : Fld) (n : Nat) : (h.on f).chan n = h.chan n := rfl
@[simp] theorem Hub.countSat_chan (h : Hub) (f : Fld) (v n : Nat) : (h.countSat f v).chan n = h.chan n := rfl
@[simp] theorem Hub.reach_chan (h : Hub) (c n : Nat) : (h.reach c).chan n = h.chan n := Hub.chan_congr (h.reach_ev c) n
@[simp] theorem latchIrq_chan (h0 : Hub) (m0 : Met) (h : Hub) (m : Met) (n : Nat) :
    (latchIrq h0 m0 h m).chan n = h.chan n := Hub.chan_congr (latchIrq_ev h0 m0 h m) n

@[simp] theorem Hub.modChan_chan_same (h : Hub) (n : Nat) (f : EvChan → EvChan) : (h.modChan n f).chan n = f (h.chan n) :=
  NMap.get_modify_same ..

theorem Hub.modChan_chan_ne (h : Hub) {n k : Nat} (hk : k ≠ n) (f : EvChan → EvChan) : (h.modChan n f).chan k = h.chan k :=
  NMap.get_modify_ne _ _ hk

/-! ### Registers of a channel -/

/-- No register of the event block is the one the interrupt latch writes. -/
theorem evReg_ne_wake {k d n : Nat} (hk : 0x180000 ≤ k) : k + d * n ≠ 0x30 := by omega

theorem Hub.setChanBit_bit (h : Hub) (r : Nat → Nat) (n : Nat) :
    ((h.setChanBit r n).reg (r (n / 32))).getLsbD (n % 32) = true := by
  have hlt : n % 32 < 32 := Nat.mod_lt _ (by decide)
  unfold Hub.setChanBit w32
  rw [Hub.reg_setReg_same, BitVec.getLsbD_or, BitVec.getLsbD_ofNat, Nat.testBit_two_pow_self]
  simp [hlt]

theorem Hub.setChanBit_reg_ne (h : Hub) {r : Nat → Nat} {n a : Nat} (ha : a ≠ r (n / 32)) :
    (h.setChanBit r n).reg a = h.reg a := h.reg_setReg_ne _ ha

/-! ### A producer presented to a channel (R256) -/

/-- What a presentation does: nothing at a disabled channel, a count at a muted one, a presented cycle elsewhere. -/
theorem Hub.presentAt_cases (h : Hub) (c p : Nat) :
    h.presentAt c p = h ∨ h.presentAt c p = h.countSat (fEvCDropMuted c) 1 ∨
      h.presentAt c p = h.modChan c (fun x => { x with presented := x.presented ++ [p] }) := by
  unfold Hub.presentAt
  split
  · split
    · exact .inr (.inl rfl)
    · exact .inr (.inr rfl)
  · exact .inl rfl

theorem Hub.presentAt_reg_ne (h : Hub) {c a : Nat} (ha : a ≠ rEvCDrop c) (p : Nat) : (h.presentAt c p).reg a = h.reg a := by
  rcases h.presentAt_cases c p with e | e | e <;> rw [e]
  · exact h.reg_countSat_ne _ _ ha
  · rfl

theorem Hub.presentAt_chan_ne (h : Hub) {c n : Nat} (hn : n ≠ c) (p : Nat) : (h.presentAt c p).chan n = h.chan n := by
  rcases h.presentAt_cases c p with e | e | e <;> rw [e]
  · rfl
  · exact h.modChan_chan_ne hn _

/-- Of a channel's record a presentation changes the presented cycles alone. -/
theorem Hub.presentAt_chan (h : Hub) (c p n : Nat) : ∃ l, (h.presentAt c p).chan n = { h.chan n with presented := l } := by
  by_cases hn : n = c
  · subst hn
    rcases h.presentAt_cases n p with e | e | e <;> rw [e]
    · exact ⟨(h.chan n).presented, rfl⟩
    · exact ⟨(h.chan n).presented, rfl⟩
    · exact ⟨(h.chan n).presented ++ [p], h.modChan_chan_same n _⟩
  · exact ⟨(h.chan n).presented, h.presentAt_chan_ne hn p⟩

/-- An enabled channel that is not muted takes what is presented to it. -/
theorem Hub.presentAt_heard {h : Hub} {n p : Nat} (hon : h.chanEnabled n = true) (hmute : h.is (fEvCStMuted n) = false)
    (hlive : (h.chan n).live ≤ p) :
    h.presentAt n p = h.modChan n (fun x => { x with presented := x.presented ++ [p] }) := by
  have hdeaf : ¬(h.is (fEvCStMuted n) || decide (p < (h.chan n).live)) = true := by simpa [hmute] using hlive
  exact (if_pos hon).trans (if_neg hdeaf)

/-! ### The watchdog's windows (R264) -/

/-- A firing in cycle `f` stays within the limit of the window it falls in. -/
abbrev Hub.windowRoom (h : Hub) (n f : Nat) : Prop :=
  (f < (h.chan n).winStart + h.evWindow n ∧ h.rd (fEvCStWindow n) < h.evLimit n) ∨
    ((h.chan n).winStart + h.evWindow n ≤ f ∧ 0 < h.evLimit n)

theorem Hub.newWindow_window (h : Hub) (n c : Nat) : (h.newWindow n c).rd (fEvCStWindow n) = 0 :=
  Hub.rd_wr_same _ 0 (by simp [fEvCStWindow])

theorem Hub.rollWindow_stays {h : Hub} {n f : Nat} (hf : f < (h.chan n).winStart + h.evWindow n) : h.rollWindow n f = h :=
  if_neg (by omega)

theorem Hub.rollWindow_turns {h : Hub} {n f : Nat} (hf : (h.chan n).winStart + h.evWindow n ≤ f) :
    h.rollWindow n f =
      h.newWindow n ((h.chan n).winStart + (f - (h.chan n).winStart) / h.evWindow n * h.evWindow n) :=
  if_pos hf

theorem Hub.rollWindow_records (h : Hub) (n f : Nat) :
    h.rollWindow n f = { h with regs := (h.rollWindow n f).regs, ev := (h.rollWindow n f).ev } := by
  unfold Hub.rollWindow
  dsimp only
  split <;> rfl

theorem Hub.rollWindow_reg_ne (h : Hub) {n a : Nat} (ha : a ≠ rEvCSt n) (f : Nat) : (h.rollWindow n f).reg a = h.reg a := by
  unfold Hub.rollWindow
  dsimp only
  split
  · exact Hub.reg_wr_ne _ _ _ ha
  · rfl

theorem Hub.rollWindow_chan (h : Hub) (n f : Nat) : ∃ s, (h.rollWindow n f).chan n = { h.chan n with winStart := s } := by
  unfold Hub.rollWindow
  dsimp only
  split
  · exact ⟨_, h.modChan_chan_same n (fun x => { x with winStart := _ })⟩
  · exact ⟨(h.chan n).winStart, rfl⟩

theorem Hub.rollWindow_room {h : Hub} {n f : Nat} (hroom : h.windowRoom n f) :
    (h.rollWindow n f).rd (fEvCStWindow n) < h.evLimit n := by
  rcases hroom with ⟨hin, hcount⟩ | ⟨hpast, hlimit⟩
  · rwa [Hub.rollWindow_stays hin]
  · rwa [Hub.rollWindow_turns hpast, Hub.newWindow_window]

/-! ### A firing (R260, R261) -/

/-- Channel `n` fires in cycle `f`: flag, counts and stamp, and no firing is held any more. -/
def Hub.fireMarked (h : Hub) (n f : Nat) : Hub :=
  ((((h.setChanBit rEvFlag n).count (fEvCFiresFires n) 1).count (fEvCStWindow n) 1).modChan n (fun x =>
    { x with stamp := h.edgeTime (h.evTb n) f, lastFire := some f, heldFire := false })).off (fEvCStHeld n)

/-- The firing shows whether it was held. -/
def Hub.fired (h : Hub) (n f : Nat) (held : Bool) : Hub :=
  (if held then (h.fireMarked n f).countSat (fEvCLostHeld n) 1 else h.fireMarked n f).wr (fEvCStamp3Held n) (b2n held)

/-- The firing is traced, the channels that list it hear it, and the delivery cycle comes. -/
def Hub.fireSpread (h : Hub) (n f : Nat) : Hub :=
  ((h.chansOf (0x7000 + n)).foldl (fun a c => a.presentAt c (f + 1)) (h.traceFire n)).reach (f + 2)

/-- The hub that the delivery of a firing finds. -/
def Hub.atDelivery (h : Hub) (n f : Nat) (held : Bool) : Hub :=
  (((h.reach f).rollWindow n f).fired n f held).fireSpread n f

/-- A firing within the limit is made and delivered. -/
theorem Hub.fireAt_room {h : Hub} {n f : Nat} (hroom : h.windowRoom n f) (fx : Fixed) (held : Bool) (tasks : List Nat) :
    h.fireAt fx n f held tasks = (h.atDelivery n f held).deliverFiring fx n tasks := by
  have hreach : (h.reach f).windowRoom n f := by
    simpa only [Hub.windowRoom, Hub.evWindow, Hub.evLimit, Hub.reach_chan, Hub.reach_rd, Hub.reach_cf] using hroom
  have hlimit : ((h.reach f).rollWindow n f).evLimit n = (h.reach f).evLimit n := by
    rw [Hub.rollWindow_records]
    rfl
  exact if_neg (by have := Hub.rollWindow_room hreach; omega)

/-- A firing beyond the limit is a storm. -/
theorem Hub.fireAt_storms {h : Hub} {n f : Nat} (hin : f < (h.chan n).winStart + h.evWindow n)
    (hlimit : h.evLimit n ≤ h.rd (fEvCStWindow n)) (fx : Fixed) (held : Bool) (tasks : List Nat) :
    h.fireAt fx n f held tasks = (h.reach f).evStorm n := by
  have hstays : (h.reach f).rollWindow n f = h.reach f := Hub.rollWindow_stays (by
    simpa only [Hub.evWindow, Hub.reach_chan, Hub.reach_cf] using hin)
  unfold Hub.fireAt
  dsimp only
  rw [hstays]
  exact if_pos (by simpa only [Hub.evLimit, Hub.reach_rd, Hub.reach_cf] using hlimit)

/-! #### The firing itself -/

theorem Hub.fireMarked_reg (h : Hub) {n a : Nat} (hst : a ≠ rEvCSt n) (f : Nat) :
    (h.fireMarked n f).reg a = ((h.setChanBit rEvFlag n).count (fEvCFiresFires n) 1).reg a := by
  unfold Hub.fireMarked
  rw [Hub.reg_off_ne _ (fEvCStHeld n) hst, Hub.modChan_reg, Hub.reg_count_ne _ (fEvCStWindow n) 1 hst]

theorem Hub.fired_records (h : Hub) (n f : Nat) (held : Bool) :
    h.fired n f held = { h with regs := (h.fired n f held).regs, ev := (h.fired n f held).ev } := by
  cases held <;> rfl

theorem Hub.fired_chan (h : Hub) (n f : Nat) (held : Bool) : (h.fired n f held).chan n =
    { h.chan n with stamp := h.edgeTime (h.evTb n) f, lastFire := some f, heldFire := false } := by
  cases held <;> exact h.modChan_chan_same n (fun x =>
    { x with stamp := h.edgeTime (h.evTb n) f, lastFire := some f, heldFire := false })

/-- What a firing marks stays but for the losses and the stamp. -/
theorem Hub.fired_reg (h : Hub) {n a : Nat} (hlost : a ≠ rEvCLost n) (hstamp : a ≠ rEvCStamp3 n) (f : Nat) (held : Bool) :
    (h.fired n f held).reg a = (h.fireMarked n f).reg a := by
  refine (Hub.reg_wr_ne _ (fEvCStamp3Held n) _ hstamp).trans ?_
  split
  · exact Hub.reg_countSat_ne _ (fEvCLostHeld n) 1 hlost
  · rfl

/-- The flag and the count of firings. -/
theorem Hub.fired_shows (h : Hub) (n f : Nat) (held : Bool) :
    ((h.fired n f held).reg (rEvFlag (n / 32))).getLsbD (n % 32) = true ∧
      (h.fired n f held).rd (fEvCFiresFires n) = (h.rd (fEvCFiresFires n) + 1) % 2 ^ 32 := by
  constructor
  · rw [Hub.fired_reg _ (by simp only [rEvFlag, rEvCLost]; omega) (by simp only [rEvFlag, rEvCStamp3]; omega),
      Hub.fireMarked_reg _ (by simp only [rEvFlag, rEvCSt]; omega),
      Hub.reg_count_ne _ _ _ (by simp only [rEvFlag, fEvCFiresFires, rEvCFires]; omega)]
    exact h.setChanBit_bit rEvFlag n
  · have hflag : (h.setChanBit rEvFlag n).rd (fEvCFiresFires n) = h.rd (fEvCFiresFires n) :=
      Hub.rd_congr (h.setChanBit_reg_ne (by simp only [rEvFlag, fEvCFiresFires, rEvCFires]; omega))
    have hkeep := (h.fired_reg (n := n) (a := rEvCFires n) (by simp only [rEvCFires, rEvCLost]; omega)
      (by simp only [rEvCFires, rEvCStamp3]; omega) f held).trans
      (h.fireMarked_reg (n := n) (by simp only [rEvCFires, rEvCSt]; omega) f)
    rw [Hub.rd_congr (f := fEvCFiresFires n) hkeep, Hub.rd_count_same _ _ (by simp [fEvCFiresFires]), hflag]
    rfl

theorem Hub.fired_unheld (h : Hub) (n f : Nat) (held : Bool) : (h.fired n f held).is (fEvCStHeld n) = false := by
  have hkeep := h.fired_reg (n := n) (a := rEvCSt n) (by simp only [rEvCSt, rEvCLost]; omega)
    (by simp only [rEvCSt, rEvCStamp3]; omega) f held
  rw [Hub.is_congr (Hub.rd_congr (f := fEvCStHeld n) hkeep)]
  exact Hub.is_off_same _ (by simp [fEvCStHeld])

theorem Hub.fired_stamp (h : Hub) (n f : Nat) (held : Bool) : (h.fired n f held).is (fEvCStamp3Held n) = held := by
  unfold Hub.fired Hub.is
  rw [Hub.rd_wr_same _ _ (by simp [fEvCStamp3Held])]
  cases held <;> rfl

/-- A firing that was held counts in `held`. -/
theorem Hub.fired_lost (h : Hub) (n f : Nat) :
    (h.fired n f true).rd (fEvCLostHeld n) = satTo 16 (h.rd (fEvCLostHeld n) + 1) := by
  have hkeep : (h.fireMarked n f).reg (rEvCLost n) = h.reg (rEvCLost n) := by
    rw [Hub.fireMarked_reg _ (by simp only [rEvCLost, rEvCSt]; omega),
      Hub.reg_count_ne _ _ _ (by simp only [rEvCLost, fEvCFiresFires, rEvCFires]; omega),
      Hub.setChanBit_reg_ne _ (by simp only [rEvCLost, rEvFlag]; omega)]
  refine (Hub.rd_wr_addr _ _ (by simp only [fEvCStamp3Held, fEvCLostHeld, rEvCLost, rEvCStamp3]; omega)).trans ?_
  rw [if_pos rfl, Hub.rd_countSat_same _ _ (by simp [fEvCLostHeld]), Hub.rd_congr (f := fEvCLostHeld n) hkeep]
  rfl

/-! #### What follows a firing -/

/-- What every trace keeps, the trace of a firing keeps. -/
theorem Hub.traceFire_keep {β : Type} (g : Hub → β)
    (hg : ∀ (k : Hub) (typ src time : Nat) (w5 w6 : Word), g (k.trace typ src time w5 w6) = g k) (h : Hub) (n : Nat) :
    g (h.traceFire n) = g h := by
  unfold Hub.traceFire
  split
  · exact hg ..
  · rfl

theorem Hub.chansOf_congr {h g : Hub} (e : g.cells = h.cells) (code : Nat) : g.chansOf code = h.chansOf code := by
  unfold Hub.chansOf
  rw [e]

theorem Hub.traceFire_chan (h : Hub) (n k : Nat) : (h.traceFire n).chan k = h.chan k :=
  Hub.traceFire_keep (fun a => a.chan k) (fun a _ _ _ _ _ => Hub.chan_congr (a.trace_ev ..) k) h n

theorem Hub.fireSpread_recs (h : Hub) (n f : Nat) : (h.fireSpread n f).flt.recs = h.flt.recs := by
  unfold Hub.fireSpread
  rw [Hub.reach_flt, foldl_keep (fun a => a.flt) _ (fun a c => a.presentAt_flt c _),
    Hub.traceFire_keep (fun a => a.flt.recs) Hub.trace_flt_recs]

theorem Hub.fireSpread_cyc {h : Hub} (hg : h.clk.gates = true) (n f : Nat) : (h.fireSpread n f).cyc = max h.cyc (f + 2) := by
  unfold Hub.fireSpread
  rw [Hub.reach_cyc, foldl_keep (fun a => a.cyc) _ (fun a c => a.presentAt_cyc c _),
    Hub.traceFire_keep (fun a => a.cyc) Hub.trace_cyc]
  rwa [foldl_keep (fun a => a.clk) _ (fun a c => a.presentAt_clk c _), Hub.traceFire_keep (fun a => a.clk) Hub.trace_clk]

theorem Hub.fireSpread_reg (h : Hub) {a : Nat} (hdrop : ∀ c, a ≠ rEvCDrop c) (ha : a < 0x1F8000) (n f : Nat) :
    (h.fireSpread n f).reg a = h.reg a := by
  unfold Hub.fireSpread
  rw [Hub.reach_reg, foldl_keep (fun k => k.reg a) _ (fun k c => k.presentAt_reg_ne (hdrop c) _),
    Hub.traceFire_keep (fun k => k.reg a) (fun k _ _ _ _ _ => k.trace_reg _ _ _ _ _ (.inl ha))]

/-- Of the channel's own record, what follows a firing changes the presented cycles alone. -/
theorem Hub.fireSpread_chan (h : Hub) (n f : Nat) : ∃ l, (h.fireSpread n f).chan n = { h.chan n with presented := l } := by
  unfold Hub.fireSpread
  rw [Hub.reach_chan]
  refine List.foldlRecOn (motive := fun k : Hub => ∃ l, k.chan n = { h.chan n with presented := l }) _ _
    ⟨(h.chan n).presented, h.traceFire_chan n n⟩ fun k ⟨l, hl⟩ c _ => ?_
  obtain ⟨l', e⟩ := k.presentAt_chan c (f + 1) n
  exact ⟨l', by rw [e, hl]⟩

theorem Hub.fireSpread_alone {h : Hub} {n : Nat} (hlist : h.chansOf (0x7000 + n) = []) (f : Nat) :
    (h.fireSpread n f).chan n = h.chan n := by
  unfold Hub.fireSpread
  rw [hlist, Hub.reach_chan]
  exact h.traceFire_chan n n

/-! #### The hub a delivery finds -/

/-- Channel `n` fired in cycle `f`: the hub `g` that the delivery finds, against the hub `h` before. -/
structure Hub.FiredAt (n f : Nat) (held : Bool) (h g : Hub) : Prop where
  last : (g.chan n).lastFire = some f
  unheld : (g.chan n).heldFire = false
  fires : g.rd (fEvCFiresFires n) = (h.rd (fEvCFiresFires n) + 1) % 2 ^ 32
  flag : (g.reg (rEvFlag (n / 32))).getLsbD (n % 32) = true
  stamp : g.is (fEvCStamp3Held n) = held
  status : g.is (fEvCStHeld n) = false
  lost : held = true → g.rd (fEvCLostHeld n) = satTo 16 (h.rd (fEvCLostHeld n) + 1)
  alone : h.chansOf (0x7000 + n) = [] → (g.chan n).presented = (h.chan n).presented
  cyc : h.clk.gates = true → g.cyc = max h.cyc (f + 2)
  recs : g.flt.recs = h.flt.recs
  reg : ∀ a < 0x180000, g.reg a = h.reg a

theorem Hub.fired_spread (h : Hub) {n : Nat} (hn : n < 128) (f : Nat) (held : Bool) :
    h.FiredAt n f held ((h.fired n f held).fireSpread n f) := by
  have hrec := h.fired_records n f held
  obtain ⟨l, hspread⟩ := (h.fired n f held).fireSpread_chan n f
  obtain ⟨hflag, hfires⟩ := h.fired_shows n f held
  have hkeep {a : Nat} (hdrop : ∀ c, a ≠ rEvCDrop c) (ha : a < 0x1F8000) :=
    (h.fired n f held).fireSpread_reg hdrop ha n f
  refine { last := ?_, unheld := ?_, fires := ?_, flag := ?_, stamp := ?_, status := ?_, lost := ?_, alone := ?_, cyc := ?_,
           recs := ?_, reg := ?_ }
  · rw [hspread, h.fired_chan]
  · rw [hspread, h.fired_chan]
  · have hreg := hkeep (a := rEvCFires n) (fun c => by simp only [rEvCFires, rEvCDrop]; omega) (by simp only [rEvCFires]; omega)
    exact (Hub.rd_congr (f := fEvCFiresFires n) hreg).trans hfires
  · rwa [hkeep (fun c => by simp only [rEvFlag, rEvCDrop]; omega) (by simp only [rEvFlag]; omega)]
  · have hreg := hkeep (a := rEvCStamp3 n) (fun c => by simp only [rEvCStamp3, rEvCDrop]; omega)
      (by simp only [rEvCStamp3]; omega)
    exact (Hub.is_congr (Hub.rd_congr (f := fEvCStamp3Held n) hreg)).trans (h.fired_stamp n f held)
  · have hreg := hkeep (a := rEvCSt n) (fun c => by simp only [rEvCSt, rEvCDrop]; omega) (by simp only [rEvCSt]; omega)
    exact (Hub.is_congr (Hub.rd_congr (f := fEvCStHeld n) hreg)).trans (h.fired_unheld n f held)
  · rintro rfl
    have hreg := hkeep (a := rEvCLost n) (fun c => by simp only [rEvCLost, rEvCDrop]; omega) (by simp only [rEvCLost]; omega)
    exact (Hub.rd_congr (f := fEvCLostHeld n) hreg).trans (h.fired_lost n f)
  · intro hnone
    rw [Hub.fireSpread_alone (by rwa [Hub.chansOf_congr (h := h) (by rw [hrec])]), h.fired_chan]
  · intro hg
    rw [Hub.fireSpread_cyc (by rwa [hrec]), hrec]
  · rw [Hub.fireSpread_recs, hrec]
  · intro a ha
    rw [hkeep (fun c => by simp only [rEvCDrop]; omega) (by omega),
      h.fired_reg (by simp only [rEvCLost]; omega) (by simp only [rEvCStamp3]; omega),
      h.fireMarked_reg (by simp only [rEvCSt]; omega),
      Hub.reg_count_ne _ _ _ (by simp only [fEvCFiresFires, rEvCFires]; omega),
      Hub.setChanBit_reg_ne _ (by simp only [rEvFlag]; omega)]

/-- Neither the time that passes up to the firing nor a window that begins with it changes what the firing shows. -/
theorem Hub.atDelivery_fired (h : Hub) {n : Nat} (hn : n < 128) (f : Nat) (held : Bool) :
    h.FiredAt n f held (h.atDelivery n f held) := by
  have hg := ((h.reach f).rollWindow n f).fired_spread hn f held
  have hrec := (h.reach f).rollWindow_records n f
  obtain ⟨w, hchan⟩ := (h.reach f).rollWindow_chan n f
  have hreg {a : Nat} (ha : a ≠ rEvCSt n) : ((h.reach f).rollWindow n f).reg a = h.reg a :=
    ((h.reach f).rollWindow_reg_ne ha f).trans (h.reach_reg f a)
  have hcells : ((h.reach f).rollWindow n f).cells = h.cells := by
    rw [hrec]
    exact h.reach_cells f
  refine { hg with fires := ?_, lost := fun hl => ?_, alone := fun hnone => ?_, cyc := fun hgates => ?_, recs := ?_,
                   reg := fun a ha => ?_ }
  · rw [← Hub.rd_congr (f := fEvCFiresFires n) (hreg (a := rEvCFires n) (by simp only [rEvCFires, rEvCSt]; omega))]
    exact hg.fires
  · rw [← Hub.rd_congr (f := fEvCLostHeld n) (hreg (a := rEvCLost n) (by simp only [rEvCLost, rEvCSt]; omega))]
    exact hg.lost hl
  · rw [← h.reach_chan f n]
    exact (hg.alone (by rwa [Hub.chansOf_congr hcells])).trans (by rw [hchan])
  · have hcyc := hg.cyc (by rw [hrec]; exact (congrArg Clk.gates (h.reach_clk f)).trans hgates)
    rw [show ((h.reach f).rollWindow n f).cyc = (h.reach f).cyc by rw [hrec], h.reach_cyc f hgates] at hcyc
    exact hcyc.trans (by omega)
  · refine hg.recs.trans ?_
    rw [hrec]
    exact congrArg Flt.recs (h.reach_flt f)
  · exact (hg.reg a ha).trans (hreg (by simp only [rEvCSt]; omega))

/-- Flags below the event block stay as they are up to the delivery. -/
theorem Hub.FiredAt.is_below {n f : Nat} {held : Bool} {h g : Hub} (hg : h.FiredAt n f held g) {x : Fld}
    (hx : x.addr < 0x180000) : g.is x = h.is x := Hub.is_congr (Hub.rd_congr (hg.reg _ hx))

/-! ### Delivery (R258, R259, R268) -/

/-- A firing without tasks, at which no commit is armed, delivers nothing. -/
theorem Hub.deliverFiring_rests {h : Hub} (hl : h.is fLdrCommitArm = false) (hg : h.is fGlbCommitArm = false) (fx : Fixed)
    (n : Nat) : h.deliverFiring fx n [] = h := by
  have hload : h.armedLoad n = h := if_neg (by simp [hl])
  have hcommit : h.armedCommit fx n = h := if_neg (by simp [hg])
  unfold Hub.deliverFiring
  rw [List.foldl_nil, hload, hcommit]

theorem Hub.taskHit_reg_ne (h : Hub) (code : Nat) {a : Nat} (ha : a ≠ rEvCoinc) : (h.taskHit code).2.reg a = h.reg a := by
  have hcount (k : Hub) : (k.coincide code).reg a = k.reg a :=
    (Hub.reg_wr_ne _ fEvCoincLast _ ha).trans (k.reg_countSat_ne fEvCoincCount _ ha)
  unfold Hub.taskHit
  generalize (if h.evSeen.cyc = h.cyc + 1 then h.evSeen else _) = x
  dsimp only
  split
  · split
    · rfl
    · exact hcount _
  split
  · split
    · rfl
    · dsimp only
      split
      · rfl
      · exact hcount _
  · rfl

/-- The IRQ0 input takes a firing, whether or not it coincides with another. -/
theorem Hub.deliverTask_irq0 {h : Hub} (hr : h.flt.recs = []) (n : Nat) :
    h.deliverTask n 0x8000 = (h.taskHit 0x8000).2.setChanBit rEvIrq0 n := by
  have hfree : h.taskRecovers 0x8000 = false := by
    change h.recovering 8 0 = false
    unfold Hub.recovering
    rw [hr]
    rfl
  unfold Hub.deliverTask
  rw [if_neg (by simp [hfree]), if_neg (by decide)]
  exact if_pos rfl

/-- A firing whose only task is the IRQ0 input, at which no commit is armed. -/
theorem Hub.deliverFiring_irq0 {h : Hub} (hr : h.flt.recs = []) (hl : h.is fLdrCommitArm = false)
    (hg : h.is fGlbCommitArm = false) (fx : Fixed) (n : Nat) :
    h.deliverFiring fx n [0x8000] = (h.taskHit 0x8000).2.setChanBit rEvIrq0 n := by
  have hkeep {f : Fld} (hf : f.addr < 0x180000) : ((h.taskHit 0x8000).2.setChanBit rEvIrq0 n).is f = h.is f := by
    refine Hub.is_congr (Hub.rd_congr ((Hub.setChanBit_reg_ne _ ?_).trans (h.taskHit_reg _ (.inl hf))))
    simp only [rEvIrq0]
    omega
  have hnone := Hub.deliverFiring_rests ((hkeep (by decide)).trans hl) ((hkeep (by decide)).trans hg) fx n
  have htask : [0x8000].foldl (Hub.deliverTask n) h = (h.taskHit 0x8000).2.setChanBit rEvIrq0 n := Hub.deliverTask_irq0 hr n
  unfold Hub.deliverFiring at hnone ⊢
  rw [htask]
  exact hnone

/-! ### A storm (R264) -/

/-- A storm mutes the channel and shows it, and counts no firing. -/
theorem Hub.evStorm_mutes (h : Hub) {n : Nat} (hn : n < 128) :
    (h.evStorm n).is (fEvCStMuted n) = true ∧ ((h.evStorm n).reg (rEvStorm (n / 32))).getLsbD (n % 32) = true ∧
      (h.evStorm n).rd (fEvCFiresFires n) = h.rd (fEvCFiresFires n) := by
  set k := ((h.modChan n (fun x => { x with heldFire := false })).off (fEvCStHeld n)).on (fEvCStMuted n) with hk
  have hfault {a : Nat} (ha : a < 0x1F8000) : (h.evStorm n).reg a = (k.setChanBit rEvStorm n).reg a :=
    Hub.fault_reg _ _ _ _ _ _ (.inl ha)
  have hbit {a : Nat} (ha : 0x181000 ≤ a) : (k.setChanBit rEvStorm n).reg a = k.reg a :=
    k.setChanBit_reg_ne (by simp only [rEvStorm]; omega)
  refine ⟨?_, ?_, ?_⟩
  · have hst := (hfault (a := rEvCSt n) (by simp only [rEvCSt]; omega)).trans (hbit (by simp only [rEvCSt]; omega))
    rw [Hub.is_congr (Hub.rd_congr (f := fEvCStMuted n) hst)]
    exact Hub.is_on_same _ (by simp [fEvCStMuted]) (by simp [fEvCStMuted])
  · rw [hfault (by simp only [rEvStorm]; omega)]
    exact k.setChanBit_bit rEvStorm n
  · have hne : rEvCFires n ≠ rEvCSt n := by simp only [rEvCFires, rEvCSt]; omega
    have hmute : k.reg (rEvCFires n) = h.reg (rEvCFires n) := by
      rw [hk, Hub.reg_on_ne _ (fEvCStMuted n) hne, Hub.reg_off_ne _ (fEvCStHeld n) hne, Hub.modChan_reg]
    have hfires := (hfault (a := rEvCFires n) (by simp only [rEvCFires]; omega)).trans (hbit (by simp only [rEvCFires]; omega))
    exact Hub.rd_congr (f := fEvCFiresFires n) (hfires.trans hmute)

/-! ### CHANNEL_FIRE (R260, R261) -/

/-- The producers presented to channel `n` are taken. -/
def Hub.tookProducers (h : Hub) (n : Nat) : Hub := h.modChan n (fun x => { x with presented := [] })

/-- Channel `n` hears one producer of cycle `p`: it is dropped, merged, held or makes the channel fire. -/
def Hub.hearsOne (fx : Fixed) (h : Hub) (n p : Nat) (tasks : List Nat) : Hub :=
  if h.is (fEvCStMuted n) || decide (p < (h.chan n).live) then h.countSat (fEvCDropMuted n) 1
  else if (h.chan n).heldFire then (h.reach p).countSat (fEvCLostMerged n) 1
  else
    let h1 := h.countSat (fEvCLostMerged n) 0
    let early := match (h1.chan n).lastFire with
      | some l => decide (p + 1 < l + h1.evSpacing n)
      | none => false
    if early then ((h1.reach p).modChan n (fun x => { x with heldFire := true })).on (fEvCStHeld n)
    else h1.fireAt fx n (p + 1) false tasks

/-- One producer waits and no held firing is due. -/
theorem Hub.channelFireOn_one {h : Hub} {n p : Nat} (hp : (h.chan n).presented = [p])
    (hheld : (h.chan n).heldFire = true → p < h.heldCycle n) (fx : Fixed) (tasks : List Nat) :
    h.channelFireOn fx n tasks = (h.tookProducers n).hearsOne fx n p tasks := by
  have hdue : ¬((h.chan n).heldFire && decide (h.heldCycle n ≤ ([] : List Nat).foldl min p)) = true := by
    rw [Bool.and_eq_true, decide_eq_true_eq, List.foldl_nil]
    exact fun ⟨hf, hle⟩ => absurd (hheld hf) (Nat.not_lt.2 hle)
  have hone : [p].filter (fun x => x == ([] : List Nat).foldl min p) = [p] := by simp
  have hrest : [p].filter (fun x => x != ([] : List Nat).foldl min p) = [] := by simp
  unfold Hub.channelFireOn
  rw [hp]
  dsimp only
  rw [if_neg hdue, hp, hone, hrest]
  rfl

/-- The hub in which channel `n` has taken a producer that no other merges with. -/
def Hub.hearing (h : Hub) (n : Nat) : Hub := (h.tookProducers n).countSat (fEvCLostMerged n) 0

@[simp] theorem Hub.tookProducers_chan (h : Hub) (n : Nat) :
    (h.tookProducers n).chan n = { h.chan n with presented := [] } := h.modChan_chan_same n _

theorem Hub.hearing_chan (h : Hub) (n : Nat) : (h.hearing n).chan n = { h.chan n with presented := [] } :=
  h.tookProducers_chan n

theorem Hub.hearing_reg (h : Hub) {n a : Nat} (ha : a ≠ rEvCLost n) : (h.hearing n).reg a = h.reg a :=
  (Hub.reg_countSat_ne _ (fEvCLostMerged n) 0 ha).trans (h.modChan_reg ..)

theorem Hub.hearing_fires (h : Hub) (n : Nat) : (h.hearing n).rd (fEvCFiresFires n) = h.rd (fEvCFiresFires n) :=
  Hub.rd_congr (h.hearing_reg (by simp only [fEvCFiresFires, rEvCFires, rEvCLost]; omega))

theorem Hub.hearing_window (h : Hub) (n : Nat) : (h.hearing n).rd (fEvCStWindow n) = h.rd (fEvCStWindow n) :=
  Hub.rd_congr (h.hearing_reg (by simp only [fEvCStWindow, rEvCSt, rEvCLost]; omega))

theorem Hub.hearing_is_below (h : Hub) (n : Nat) {x : Fld} (hx : x.addr < 0x180000) : (h.hearing n).is x = h.is x :=
  Hub.is_congr (Hub.rd_congr (h.hearing_reg (by simp only [rEvCLost]; omega)))

/-- A channel that is neither muted nor unmuted later than `p` hears what was presented in cycle `p`. -/
theorem Hub.tookProducers_hears {h : Hub} {n p : Nat} (hmute : h.is (fEvCStMuted n) = false) (hlive : (h.chan n).live ≤ p) :
    ¬((h.tookProducers n).is (fEvCStMuted n) || decide (p < ((h.tookProducers n).chan n).live)) = true := by
  rw [h.tookProducers_chan, show (h.tookProducers n).is (fEvCStMuted n) = false from hmute, Bool.false_or, decide_eq_true_eq]
  exact Nat.not_lt.2 hlive

theorem Hub.tookProducers_free {h : Hub} {n : Nat} (hfree : (h.chan n).heldFire = false) :
    ¬((h.tookProducers n).chan n).heldFire = true := by
  rw [h.tookProducers_chan]
  exact Bool.eq_false_iff.1 hfree

theorem Hub.channelFire_drops {h : Hub} {n p : Nat} (hp : (h.chan n).presented = [p]) (hfree : (h.chan n).heldFire = false)
    (hmute : h.is (fEvCStMuted n) = true) (fx : Fixed) :
    h.channelFire fx n = (h.tookProducers n).countSat (fEvCDropMuted n) 1 :=
  (Hub.channelFireOn_one hp (by simp [hfree]) fx _).trans (if_pos (by simp [Hub.tookProducers, hmute]))

theorem Hub.channelFire_merges {h : Hub} {n p : Nat} (hp : (h.chan n).presented = [p]) (hheld : (h.chan n).heldFire = true)
    (hmute : h.is (fEvCStMuted n) = false) (hlive : (h.chan n).live ≤ p) (hearly : p < h.heldCycle n) (fx : Fixed) :
    h.channelFire fx n = ((h.tookProducers n).reach p).countSat (fEvCLostMerged n) 1 := by
  refine (Hub.channelFireOn_one hp (fun _ => hearly) fx _).trans 
    ((if_neg (Hub.tookProducers_hears hmute hlive)).trans (if_pos ?_))
  rwa [h.tookProducers_chan]

/-- The spacing does not allow the firing yet. -/
theorem Hub.channelFire_holds {h : Hub} {n p l : Nat} (hp : (h.chan n).presented = [p]) (hfree : (h.chan n).heldFire = false)
    (hmute : h.is (fEvCStMuted n) = false) (hlive : (h.chan n).live ≤ p) (hlast : (h.chan n).lastFire = some l)
    (hearly : p + 1 < l + h.evSpacing n) (fx : Fixed) :
    h.channelFire fx n = (((h.hearing n).reach p).modChan n (fun x => { x with heldFire := true })).on (fEvCStHeld n) := by
  refine (Hub.channelFireOn_one hp (by simp [hfree]) fx _).trans
    ((if_neg (Hub.tookProducers_hears hmute hlive)).trans ((if_neg (Hub.tookProducers_free hfree)).trans (if_pos ?_)))
  rw [Hub.countSat_chan, h.tookProducers_chan]
  simp only [hlast]
  exact decide_eq_true hearly

/-- The spacing allows the firing. -/
theorem Hub.channelFire_due {h : Hub} {n p : Nat} (hp : (h.chan n).presented = [p]) (hfree : (h.chan n).heldFire = false)
    (hmute : h.is (fEvCStMuted n) = false) (hlive : (h.chan n).live ≤ p)
    (hspace : (h.chan n).lastFire.all (fun l => decide (l + h.evSpacing n ≤ p + 1)) = true) (fx : Fixed) :
    h.channelFire fx n = (h.hearing n).fireAt fx n (p + 1) false (h.evTasks n) := by
  refine (Hub.channelFireOn_one hp (by simp [hfree]) fx _).trans
    ((if_neg (Hub.tookProducers_hears hmute hlive)).trans ((if_neg (Hub.tookProducers_free hfree)).trans (if_neg ?_)))
  rw [Hub.countSat_chan, h.tookProducers_chan]
  dsimp only
  cases hlast : (h.chan n).lastFire with
  | none => exact Bool.false_ne_true
  | some l =>
    rw [hlast] at hspace
    have hle : l + h.evSpacing n ≤ p + 1 := of_decide_eq_true hspace
    exact fun hlt => absurd (of_decide_eq_true hlt) (Nat.not_lt.2 hle)

/-- A channel that may fire does so in the cycle after the producer's. -/
theorem Hub.channelFire_fires {h : Hub} {n p : Nat} (hn : n < 128) (hp : (h.chan n).presented = [p])
    (hfree : (h.chan n).heldFire = false) (hmute : h.is (fEvCStMuted n) = false) (hlive : (h.chan n).live ≤ p)
    (hspace : (h.chan n).lastFire.all (fun l => decide (l + h.evSpacing n ≤ p + 1)) = true)
    (hroom : h.windowRoom n (p + 1)) (fx : Fixed) :
    ∃ g, h.channelFire fx n = g.deliverFiring fx n (h.evTasks n) ∧ (h.hearing n).FiredAt n (p + 1) false g := by
  have hroom' : (h.hearing n).windowRoom n (p + 1) := by
    unfold Hub.windowRoom
    rw [h.hearing_chan, h.hearing_window]
    exact hroom
  exact ⟨_, (Hub.channelFire_due hp hfree hmute hlive hspace fx).trans (Hub.fireAt_room hroom' ..),
    Hub.atDelivery_fired _ hn _ _⟩

/-- The held firing is made in the first cycle the spacing allows. -/
theorem Hub.releaseHeld_fires {h : Hub} {n : Nat} (hn : n < 128) (hheld : (h.chan n).heldFire = true)
    (hmute : h.is (fEvCStMuted n) = false) (hroom : h.windowRoom n (h.heldCycle n)) (fx : Fixed) :
    ∃ g, h.releaseHeld fx n = g.deliverFiring fx n (h.evTasks n) ∧ h.FiredAt n (h.heldCycle n) true g :=
  ⟨_, (if_pos (by simp [hheld, hmute])).trans (Hub.fireAt_room hroom ..), Hub.atDelivery_fired _ hn _ _⟩

theorem Hub.releaseHeld_rests {h : Hub} {n : Nat} (hrest : (h.chan n).heldFire = false ∨ h.is (fEvCStMuted n) = true)
    (fx : Fixed) : h.releaseHeld fx n = h := by
  refine if_neg ?_
  rcases hrest with hr | hr <;> simp [hr]

/-- The spacing after the last firing is when the held one is due, but for a reload of the spacing (R270). -/
theorem Hub.heldCycle_spaced {h : Hub} {n l : Nat} (hlast : (h.chan n).lastFire = some l)
    (hreload : (h.chan n).notBefore ≤ l + h.evSpacing n) : h.heldCycle n = l + h.evSpacing n := by
  unfold Hub.heldCycle
  rw [hlast]
  exact Nat.max_eq_left hreload

end Sys2Proof.Machine
end

section
/-! SUPPORT. The host's writes and reads of event channels (R265 to R267), and what their commands leave. -/

namespace Sys2Proof.Machine
open Sys2Proof

/-! ### Folds over channels -/

/-- What the round of one member leaves and every round keeps, the fold leaves. -/
theorem foldl_establishes {α : Type} {P : Hub → Prop} {f : Hub → α → Hub} {l : List α} {x : α} (hx : x ∈ l)
    (hset : ∀ a, P (f a x)) (hkeep : ∀ a y, P a → P (f a y)) (h : Hub) : P (l.foldl f h) := by
  obtain ⟨l1, l2, rfl⟩ := List.append_of_mem hx
  rw [List.foldl_append, List.foldl_cons]
  exact List.foldlRecOn _ _ (hset _) fun a ha y _ => hkeep a y ha

/-- The one round of a member turns `P` into `Q`, and every other round keeps both. -/
theorem foldl_turns {α : Type} {P Q : Hub → Prop} {f : Hub → α → Hub} {l : List α} {x : α} (hl : l.Nodup) (hx : x ∈ l)
    (hbefore : ∀ a y, y ≠ x → P a → P (f a y)) (hturn : ∀ a, P a → Q (f a x)) (hafter : ∀ a y, y ≠ x → Q a → Q (f a y))
    {h : Hub} (hP : P h) : Q (l.foldl f h) := by
  obtain ⟨l1, l2, rfl⟩ := List.append_of_mem hx
  obtain ⟨-, hcons, hdisj⟩ := List.nodup_append.1 hl
  have hfront : P (l1.foldl f h) :=
    List.foldlRecOn _ _ hP fun a ha y hy => hbefore a y (hdisj y hy x List.mem_cons_self) ha
  rw [List.foldl_append, List.foldl_cons]
  refine List.foldlRecOn _ _ (hturn _ hfront) fun a ha y hy => hafter a y ?_ ha
  rintro rfl
  exact (List.nodup_cons.1 hcons).1 hy

/-! ### STORM_CLEAR (R265) -/

theorem Hub.unmute_reg_ne (h : Hub) {n a : Nat} (ha : a ≠ rEvCSt n) : (h.unmute n).reg a = h.reg a := by
  unfold Hub.unmute
  split
  · rw [Hub.modChan_reg, Hub.newWindow, Hub.reg_wr_ne _ (fEvCStWindow n) 0 ha, Hub.modChan_reg,
      Hub.reg_off_ne _ (fEvCStMuted n) ha]
  · rfl

theorem Hub.unmute_cells (h : Hub) (n : Nat) : (h.unmute n).cells = h.cells := by
  unfold Hub.unmute
  split <;> rfl

theorem Hub.unmute_clears (h : Hub) (n : Nat) : (h.unmute n).is (fEvCStMuted n) = false := by
  unfold Hub.unmute
  split
  · rw [Hub.modChan_is, Hub.newWindow, Hub.is_wr_apart _ _ (by simp [Fld.apart, fEvCStWindow, fEvCStMuted]), Hub.modChan_is]
    exact h.is_off_same (by simp [fEvCStMuted])
  · next hmute => exact Bool.eq_false_iff.2 hmute

theorem Hub.unmute_keeps {h : Hub} {n : Nat} (hn : h.is (fEvCStMuted n) = false) (k : Nat) :
    (h.unmute k).is (fEvCStMuted n) = false := by
  by_cases hk : n = k
  · rw [hk]
    exact h.unmute_clears k
  · rwa [Hub.is_congr (Hub.rd_congr (h.unmute_reg_ne (by simp only [fEvCStMuted, rEvCSt]; omega)))]

theorem Hub.stormClear_storm (h : Hub) {k : Nat} (hk : k < 4) (w : Word) :
    (h.stormClear k w).reg (rEvStorm k) = h.reg (rEvStorm k) &&& ~~~w := by
  unfold Hub.stormClear
  rw [foldl_keep (fun a => a.reg (rEvStorm k)), Hub.reg_setReg_same]
  intro a i
  split
  · exact a.unmute_reg_ne (by simp only [rEvStorm, rEvCSt]; omega)
  · rfl

theorem Hub.stormClear_unmutes (h : Hub) (k : Nat) {w : Word} {i : Nat} (hi : i < 32) (hw : w.getLsbD i = true) :
    (h.stormClear k w).is (fEvCStMuted (32 * k + i)) = false := by
  unfold Hub.stormClear
  refine foldl_establishes (P := fun a => a.is (fEvCStMuted (32 * k + i)) = false) (List.mem_range.2 hi) (fun a => ?_)
    (fun a j ha => ?_) _
  · rw [if_pos hw]
    exact a.unmute_clears _
  · split
    · exact Hub.unmute_keeps ha _
    · exact ha

theorem Hub.stormClear_cells (h : Hub) (k : Nat) (w : Word) : (h.stormClear k w).cells = h.cells := by
  unfold Hub.stormClear
  rw [foldl_keep (fun a => a.cells)]
  · rfl
  · intro a i
    split
    · exact a.unmute_cells _
    · rfl

/-! ### EV_FIRE (R267) -/

theorem Hub.evFire_cells (h : Hub) (w : Word) : (h.evFire w).cells = h.cells := by
  unfold Hub.evFire
  refine foldl_keep (fun a => a.cells) _ (fun a i => ?_) _ h
  split
  · exact a.presentChan_cells _
  · rfl

/-- A channel whose bit is 0 hears nothing. -/
theorem Hub.evFire_quiet (h : Hub) {w : Word} {i : Nat} (hw : w.getLsbD i = false) :
    (h.evFire w).chan (32 * h.rd fEvFireBankFireBank + i) = h.chan (32 * h.rd fEvFireBankFireBank + i) := by
  unfold Hub.evFire
  refine foldl_keep (fun a => a.chan (32 * h.rd fEvFireBankFireBank + i)) _ (fun a j => ?_) _ h
  split
  · next hj =>
    refine a.presentAt_chan_ne (fun e => ?_) _
    rw [show i = j by omega, hj] at hw
    exact Bool.noConfusion hw
  · rfl

/-- What decides whether a channel hears a presentation of now, and what it has heard. -/
def Hub.sameHearing (n : Nat) (h g : Hub) : Prop :=
  g.chan n = h.chan n ∧ g.is (fEvCStMuted n) = h.is (fEvCStMuted n) ∧ g.cells = h.cells ∧ g.cyc = h.cyc

theorem Hub.sameHearing.presentChan {n c : Nat} {h g : Hub} (hg : h.sameHearing n g) (hc : n ≠ c) :
    h.sameHearing n (g.presentChan c) := by
  obtain ⟨hchan, hmute, hcells, hcyc⟩ := hg
  have hreg := g.presentAt_reg_ne (c := c) (a := rEvCSt n) (by simp only [rEvCSt, rEvCDrop]; omega) g.cyc
  exact ⟨(g.presentAt_chan_ne hc _).trans hchan, (Hub.is_congr (Hub.rd_congr (f := fEvCStMuted n) hreg)).trans hmute,
    (g.presentChan_cells c).trans hcells, (g.presentChan_cyc c).trans hcyc⟩

/-- A channel that hears and whose bit is 1 is presented now. -/
theorem Hub.evFire_presents {h : Hub} {w : Word} {i n : Nat} (hi : i < 32) (hn : 32 * h.rd fEvFireBankFireBank + i = n)
    (hw : w.getLsbD i = true) (hon : h.chanEnabled n = true) (hmute : h.is (fEvCStMuted n) = false)
    (hlive : (h.chan n).live ≤ h.cyc) : ((h.evFire w).chan n).presented = (h.chan n).presented ++ [h.cyc] := by
  unfold Hub.evFire
  refine foldl_turns (P := h.sameHearing n) (Q := fun a => (a.chan n).presented = (h.chan n).presented ++ [h.cyc])
    List.nodup_range (List.mem_range.2 hi) (fun a j hj ha => ?_) (fun a ha => ?_) (fun a j hj ha => ?_) ⟨rfl, rfl, rfl, rfl⟩
  · split
    · exact ha.presentChan (by omega)
    · exact ha
  · obtain ⟨hchan, hmute', hcells, hcyc⟩ := ha
    have hon' : a.chanEnabled n = true := by
      unfold Hub.chanEnabled at hon ⊢
      rwa [Hub.cf_congr hcells]
    rw [if_pos hw, hn, Hub.presentChan, Hub.presentAt_heard hon' (hmute'.trans hmute) (by rwa [hchan, hcyc]),
      Hub.modChan_chan_same, hchan, hcyc]
  · split
    · exact (congrArg EvChan.presented (a.presentAt_chan_ne (by omega) _)).trans ha
    · exact ha

/-! ### EV_STAMP_READ (R266) -/

/-- The first word read is that of the stamp just latched. -/
theorem Hub.stampRead_word (h : Hub) (n : Nat) : (h.stampRead n).1 = (timeWords (h.chan n).stamp).getD 0 0#32 := by
  have hheld : h.rd (fEvCStamp3Held n) < 2 := h.rd_lt _
  have hstamp : (2 * (h.chan n).stamp + h.rd (fEvCStamp3Held n)) / 2 = (h.chan n).stamp := by omega
  unfold Hub.stampRead Hub.stampWord
  dsimp only
  rw [Hub.modChan_chan_same, if_neg (by decide)]
  dsimp only
  rw [hstamp]
  rfl

/-! ### WATCHDOG_WINDOW_END (R264) -/

/-- At the end of a window the next one begins. -/
theorem Hub.rollWindow_end {h : Hub} {n e : Nat} (he : (h.chan n).winStart + h.evWindow n = e) :
    h.rollWindow n e = h.newWindow n e := by
  have hpos : 0 < h.evWindow n := Nat.two_pow_pos _
  rw [Hub.rollWindow_turns he.le, ← he, Nat.add_sub_cancel_left, Nat.div_self hpos, Nat.one_mul]

/-! ### The statement -/

/-- Settles O21: a firing by what its delivery finds (`Hub.FiredAt`), the other outcomes of a producer each by its own lemma, and
host writes by the rounds of their folds over channels. -/
theorem channelFirings : Obligations.ChannelFirings := by
  refine ⟨?_, ?_, ?_, ?_, ?_, ?_, ?_, ?_, ?_, ?_, ?_, ?_, ?_, ?_, ?_, ?_⟩
  · -- CHANNEL_FIRE with nothing presented
    intro s n hnone
    have hrest : s.hub.channelFire s.fixed n = s.hub := by
      unfold Hub.channelFire Hub.channelFireOn
      rw [hnone]
    refine ⟨_, rfl, ?_⟩
    dsimp only
    rw [hrest]
    exact ⟨latchIrq_ev .., fun a ha => latchIrq_reg _ _ _ _ ha⟩
  · -- CHANNEL_FIRE, whatever the channel's tasks
    intro s n p hp hfree hmute hlive hspace hroom
    obtain ⟨g, hg, hfired⟩ := Hub.channelFire_fires n.isLt hp hfree hmute hlive hspace hroom s.fixed
    exact ⟨_, rfl, g, congrArg (latchIrq s.hub s.met · s.met) hg, hfired.last, hfired.unheld,
      by rw [hfired.fires, Hub.hearing_fires], hfired.flag, hfired.stamp, hfired.cyc⟩
  · -- CHANNEL_FIRE of a channel no commit, channel or task follows
    intro s n p hp hfree hmute hlive hspace hroom htasks hlist hldr hglb
    obtain ⟨g, hg, hfired⟩ := Hub.channelFire_fires n.isLt hp hfree hmute hlive hspace hroom s.fixed
    have harm {x : Fld} (hx : x.addr < 0x180000) : g.is x = s.hub.is x :=
      (hfired.is_below hx).trans (s.hub.hearing_is_below n hx)
    rw [htasks, Hub.deliverFiring_rests ((harm (by decide)).trans hldr) ((harm (by decide)).trans hglb)] at hg
    refine ⟨_, rfl, ?_⟩
    dsimp only
    rw [hg, latchIrq_chan, latchIrq_rd _ _ _ _ (evReg_ne_wake (by decide)), latchIrq_reg _ _ _ _ (evReg_ne_wake (by decide)),
      latchIrq_is _ _ _ _ (evReg_ne_wake (by decide)), latchIrq_cyc, hfired.alone hlist, Hub.hearing_chan, hfired.fires,
      Hub.hearing_fires]
    exact ⟨rfl, hfired.last, rfl, hfired.flag, hfired.stamp, hfired.cyc⟩
  · -- CHANNEL_FIRE of a channel whose only task is the IRQ0 input
    intro s n p hp hfree hmute hlive hspace hroom htasks _ hldr hglb hrecs
    obtain ⟨g, hg, hfired⟩ := Hub.channelFire_fires n.isLt hp hfree hmute hlive hspace hroom s.fixed
    have harm {x : Fld} (hx : x.addr < 0x180000) : g.is x = s.hub.is x :=
      (hfired.is_below hx).trans (s.hub.hearing_is_below n hx)
    rw [htasks, Hub.deliverFiring_irq0 (hfired.recs.trans hrecs) ((harm (by decide)).trans hldr)
      ((harm (by decide)).trans hglb)] at hg
    have hfires : ((g.taskHit 0x8000).2.setChanBit rEvIrq0 n).reg (rEvCFires n) = g.reg (rEvCFires n) :=
      (Hub.setChanBit_reg_ne _ (by simp only [rEvCFires, rEvIrq0]; omega)).trans
        (g.taskHit_reg_ne _ (by simp only [rEvCFires, rEvCoinc]; omega))
    refine ⟨_, rfl, ?_⟩
    dsimp only
    rw [hg, latchIrq_rd _ _ _ _ (evReg_ne_wake (by decide)), latchIrq_reg _ _ _ _ (evReg_ne_wake (by decide)),
      Hub.rd_congr (f := fEvCFiresFires n) hfires, hfired.fires, Hub.hearing_fires]
    exact ⟨Hub.setChanBit_bit .., rfl⟩
  · -- CHANNEL_FIRE inside the spacing
    intro s n p l hp hfree hmute hlive hlast hearly
    refine ⟨_, rfl, ?_⟩
    dsimp only
    rw [Hub.channelFire_holds hp hfree hmute hlive hlast hearly, latchIrq_chan, latchIrq_rd _ _ _ _ (evReg_ne_wake (by decide)),
      latchIrq_is _ _ _ _ (evReg_ne_wake (by decide)), Hub.on_chan, Hub.modChan_chan_same, Hub.reach_chan, Hub.hearing_chan]
    refine ⟨rfl, rfl, Hub.is_on_same _ (by simp [fEvCStHeld]) (by simp [fEvCStHeld]), ?_⟩
    rw [Hub.on, Hub.rd_wr_addr _ _ (by simp only [fEvCFiresFires, fEvCStHeld, rEvCFires, rEvCSt]; omega), Hub.modChan_rd,
      Hub.reach_rd, Hub.hearing_fires]
  · -- CHANNEL_FIRE of a muted channel
    intro s n p hp hfree hmute
    refine ⟨_, rfl, ?_⟩
    dsimp only
    rw [Hub.channelFire_drops hp hfree hmute, latchIrq_chan, latchIrq_rd _ _ _ _ (evReg_ne_wake (by decide)),
      latchIrq_rd _ _ _ _ (evReg_ne_wake (by decide)), Hub.countSat_chan, Hub.tookProducers_chan]
    exact ⟨rfl, Hub.rd_countSat_same _ _ (by simp [fEvCDropMuted]),
      Hub.rd_wr_addr _ _ (by simp only [fEvCFiresFires, fEvCDropMuted, rEvCFires, rEvCDrop]; omega)⟩
  · -- CHANNEL_FIRE while a firing is held
    intro s n p hp hheld hmute hlive hearly
    refine ⟨_, rfl, ?_⟩
    dsimp only
    rw [Hub.channelFire_merges hp hheld hmute hlive hearly, latchIrq_chan, latchIrq_rd _ _ _ _ (evReg_ne_wake (by decide)),
      latchIrq_rd _ _ _ _ (evReg_ne_wake (by decide)), Hub.countSat_chan, Hub.reach_chan, Hub.tookProducers_chan,
      Hub.rd_countSat_same _ _ (by simp [fEvCLostMerged]), Hub.reach_rd]
    refine ⟨rfl, hheld, rfl, ?_⟩
    rw [Hub.countSat, Hub.rd_wr_addr _ _ (by simp only [fEvCFiresFires, fEvCLostMerged, rEvCFires, rEvCLost]; omega), Hub.reach_rd]
    rfl
  · -- CHANNEL_FIRE beyond the watchdog limit
    intro s n p hp hfree hmute hlive hspace hin hlimit
    have hstorm : s.hub.channelFire s.fixed n = ((s.hub.hearing n).reach (p + 1)).evStorm n := by
      rw [Hub.channelFire_due hp hfree hmute hlive hspace]
      exact Hub.fireAt_storms (by rw [Hub.hearing_chan]; exact hin) (by rw [Hub.hearing_window]; exact hlimit) _ _ _
    obtain ⟨hmuted, hbit, hfires⟩ := Hub.evStorm_mutes ((s.hub.hearing n).reach (p + 1)) n.isLt
    refine ⟨_, rfl, ?_⟩
    dsimp only
    rw [hstorm, latchIrq_is _ _ _ _ (evReg_ne_wake (by decide)), latchIrq_reg _ _ _ _ (evReg_ne_wake (by decide)),
      latchIrq_rd _ _ _ _ (evReg_ne_wake (by decide)), hfires, Hub.reach_rd, Hub.hearing_fires]
    exact ⟨hmuted, hbit, rfl⟩
  · -- HELD_FIRING_RELEASE, whatever the channel's tasks
    intro s n hheld hmute hroom
    obtain ⟨g, hg, hfired⟩ := Hub.releaseHeld_fires n.isLt hheld hmute hroom s.fixed
    exact ⟨_, rfl, g, congrArg (latchIrq s.hub s.met · s.met) hg, hfired.last, hfired.unheld, hfired.fires, hfired.flag,
      hfired.stamp, hfired.cyc⟩
  · -- HELD_FIRING_RELEASE of a channel no commit, channel or task follows
    intro s n l hheld hlast hreload hmute hroom htasks hlist hldr hglb
    have hcycle := Hub.heldCycle_spaced hlast hreload
    obtain ⟨g, hg, hfired⟩ := Hub.releaseHeld_fires n.isLt hheld hmute (hcycle ▸ hroom) s.fixed
    rw [htasks, Hub.deliverFiring_rests ((hfired.is_below (by decide)).trans hldr)
      ((hfired.is_below (by decide)).trans hglb)] at hg
    refine ⟨_, rfl, ?_⟩
    dsimp only
    rw [hg, latchIrq_chan, latchIrq_rd _ _ _ _ (evReg_ne_wake (by decide)), latchIrq_rd _ _ _ _ (evReg_ne_wake (by decide)),
      latchIrq_is _ _ _ _ (evReg_ne_wake (by decide)), latchIrq_is _ _ _ _ (evReg_ne_wake (by decide))]
    exact ⟨hfired.unheld, hcycle ▸ hfired.last, hfired.fires, hfired.lost rfl, hfired.stamp, hfired.status⟩
  · -- HELD_FIRING_RELEASE with no firing held, or muted
    intro s n hrest
    refine ⟨_, rfl, ?_⟩
    dsimp only
    rw [Hub.releaseHeld_rests hrest]
    exact ⟨latchIrq_ev .., fun a ha => latchIrq_reg _ _ _ _ ha⟩
  · -- WATCHDOG_WINDOW_END
    intro s n hon
    set e := (s.hub.chan n).winStart + s.hub.evWindow n with he
    have hroll : (s.hub.reach e).rollWindow n e = (s.hub.reach e).newWindow n e :=
      Hub.rollWindow_end (by rw [Hub.reach_chan, Hub.evWindow, Hub.reach_cf]; rfl)
    refine ⟨_, rfl, ?_⟩
    dsimp only
    rw [if_pos hon, ← he, hroll, latchIrq_chan, latchIrq_rd _ _ _ _ (evReg_ne_wake (by decide)), latchIrq_cyc,
      Hub.newWindow_window]
    refine ⟨rfl, ?_, fun hg => Hub.reach_cyc _ _ hg⟩
    rw [Hub.newWindow, Hub.wr_chan, Hub.modChan_chan_same]
  · -- STORM_CLEAR
    intro s k w hans
    refine ⟨_, rfl, ?_⟩
    dsimp only
    rw [Hub.atReg_answers _ hans, latchIrq_reg _ _ _ _ (evReg_ne_wake (by decide)), latchIrq_cells,
      Hub.stormClear_storm _ k.isLt, Hub.stormClear_cells]
    refine ⟨rfl, List.all_eq_true.2 fun i hi => ?_, rfl⟩
    rw [latchIrq_is _ _ _ _ (evReg_ne_wake (by decide))]
    cases hw : w.getLsbD i with
    | false => rfl
    | true => rw [Hub.stormClear_unmutes _ _ (List.mem_range.1 hi) hw]; rfl
  · -- EV_FIRE: a channel whose bit is written 1
    intro s w i hans hw hon hmute hlive
    refine ⟨_, rfl, ?_⟩
    dsimp only
    rw [Hub.atReg_answers _ hans, latchIrq_chan, latchIrq_cells, Hub.evFire_cells]
    exact ⟨Hub.evFire_presents i.isLt rfl hw hon hmute hlive, rfl⟩
  · -- EV_FIRE: a channel whose bit is written 0
    intro s w i hw
    obtain ⟨t, hexec, -, ht⟩ := exec_write (c := .evFire w) (s := s) rfl
    refine ⟨t, hexec, ?_⟩
    obtain ⟨r, e | e⟩ := ht.records
    · rw [e]
      rfl
    · rw [e]
      exact s.hub.evFire_quiet hw
  · -- EV_STAMP_READ
    intro s n hans
    refine ⟨_, rfl, ?_⟩
    dsimp only
    rw [Hub.readOf_answers _ hans, latchIrq_host, latchIrq_chan, ← s.hub.stampRead_word n]
    refine ⟨rfl, ?_, fun a ha => latchIrq_reg _ _ _ _ ha⟩
    exact congrArg EvChan.latch (s.hub.modChan_chan_same n fun x =>
      { x with latch := 2 * x.stamp + s.hub.rd (fEvCStamp3Held n) })

end Sys2Proof.Machine
end

section
/-! SUPPORT. Lines of the stockpot: what a line stored reads as, and what reads through upsets that leave the data readable yield (R279,
R290, R291). -/

namespace Sys2Proof.Machine
open Sys2Proof

/-! ### Stockpot words behind an update -/

theorem Hub.stockAt_congr {h g : Hub} (hs : g.stock = h.stock) (hf : g.stockFill = h.stockFill) : g.stockAt = h.stockAt := by
  funext a
  unfold Hub.stockAt
  rw [hs, hf]

theorem Hub.lineData_congr {h g : Hub} (hs : g.stock = h.stock) (hf : g.stockFill = h.stockFill) : g.lineData = h.lineData := by
  funext a
  unfold Hub.lineData
  rw [Hub.stockAt_congr hs hf]

/-! ### Lines stored -/

/-- Words stored one behind the other read back at their places, and every other word as before. -/
theorem Hub.stockAt_storeWords (ds : List (BitVec 64)) (h : Hub) (a n k : Nat) :
    ((ds.zipIdx n).foldl (fun b p => b.setStock (a + p.2) p.1) h).stockAt k =
      if a + n ≤ k ∧ k < a + n + ds.length then ds.getD (k - (a + n)) 0#64 else h.stockAt k := by
  induction ds generalizing h n with
  | nil => exact (if_neg (by simp only [List.length_nil]; omega)).symm
  | cons d ds ih =>
    rw [List.zipIdx_cons, List.foldl_cons, ih, List.length_cons, Hub.stockAt_setStock]
    rcases Nat.lt_trichotomy k (a + n) with hk | rfl | hk
    · rw [if_neg (by omega), if_neg (by omega), if_neg (by omega)]
    · rw [if_neg (by omega), if_pos rfl, if_pos (by omega), Nat.sub_self, List.getD_cons_zero]
    · rw [if_neg (by omega : ¬k = a + n), show k - (a + n) = k - (a + (n + 1)) + 1 by omega, List.getD_cons_succ]
      exact if_congr (by omega) rfl rfl

theorem packLine_length (ws : List QWord) : (packLine ws).length = 5 := by simp [packLine]

theorem Hub.stockAt_storeLine (h : Hub) (a k : Nat) (ws : List QWord) : (h.storeLine a ws).stockAt k =
    if a ≤ k ∧ k < a + 5 then (packLine ws).getD (k - a) 0#64 else h.stockAt k := by
  unfold Hub.storeLine
  rw [Hub.stockAt_storeWords, packLine_length]
  rfl

/-- A line stored stands at its address. -/
theorem Hub.lineData_storeLine (h : Hub) (a : Nat) (ws : List QWord) : (h.storeLine a ws).lineData a = packLine ws := by
  refine List.ext_getElem (by simp [Hub.lineData, packLine_length]) fun k hk hk' => ?_
  rw [packLine_length] at hk'
  simp only [Hub.lineData, List.getElem_map, List.getElem_range]
  rw [Hub.stockAt_storeLine, if_pos (by omega), Nat.add_sub_cancel_left, List.getD_eq_getElem?_getD,
    List.getElem?_eq_getElem (by rw [packLine_length]; exact hk'), Option.getD_some]

/-- A line stored changes the stockpot alone. -/
theorem Hub.storeLine_records (h : Hub) (a : Nat) (ws : List QWord) :
    h.storeLine a ws = { h with stock := (h.storeLine a ws).stock } := by
  unfold Hub.storeLine
  induction (packLine ws).zipIdx generalizing h with
  | nil => rfl
  | cons p ps ih =>
    rw [List.foldl_cons, ih]
    rfl

/-! ### Reads -/

/-- Reads that each yield the stored word, whatever their outcome, and take no free value. -/
theorem Hub.readWords_of_reads {h : Hub} {a n : Nat} {us : List Upset} {o : Nat → StockRead}
    (hread : ∀ k < n, h.readStock (a + k) (us.getD k noUpset) = (o k, h.stockAt (a + k), h)) :
    h.readWords a n us = ((List.range n).map (fun k => (o k, h.stockAt (a + k))), h) := by
  unfold Hub.readWords
  induction n with
  | zero => rfl
  | succ n ih =>
    rw [List.range_succ, List.foldl_append, ih fun k hk => hread k (by omega), List.foldl_cons, List.foldl_nil]
    dsimp only
    rw [hread n (by omega), List.map_append]
    rfl

theorem getD_noUpset {us : List Upset} (hus : us.all (fun u => u == noUpset) = true) (k : Nat) : us.getD k noUpset = noUpset := by
  rw [List.getD_eq_getElem?_getD]
  cases hk : us[k]? with
  | none => rfl
  | some u => exact eq_of_beq (List.all_eq_true.1 hus u (List.mem_of_getElem? hk))

/-- Reads of words nothing has changed. -/
theorem Hub.readWords_clean (h : Hub) (a n : Nat) {us : List Upset} (hus : us.all (fun u => u == noUpset) = true) :
    h.readWords a n us = ((List.range n).map (fun k => (.good, h.stockAt (a + k))), h) :=
  Hub.readWords_of_reads fun k _ => by rw [getD_noUpset hus, Hub.readStock_clean]

/-- Reads of words of which the first has one flipped bit. -/
theorem Hub.readWords_corrected (h : Hub) (a n : Nat) {u : Upset} (hd : popcount u.data.toNat 72 = 1) (ha : u.addr = 0#21) :
    h.readWords a n [u] = ((List.range n).map (fun k => (if k = 0 then .corrected else .good, h.stockAt (a + k))), h) := by
  refine Hub.readWords_of_reads fun k _ => ?_
  cases k with
  | zero => exact h.readStock_corrected _ hd ha
  | succ k => exact h.readStock_clean _

/-- The data of a line's five reads. -/
theorem Hub.lineData_of_reads (h : Hub) (a : Nat) (o : Nat → StockRead) :
    ((List.range 5).map (fun k => (o k, h.stockAt (a + k)))).map Prod.snd = h.lineData a := List.map_map ..

end Sys2Proof.Machine
end

section
/-! SUPPORT. The words of a queue and the window the host reads them through (R280, R283, R285, R286). -/

namespace Sys2Proof.Machine
open Sys2Proof

/-! ### The words of a queue -/

/-- The words of middle lines. -/
def Hub.midWords (h : Hub) (q : Nat) (mid : List MidLine) : List QWord :=
  mid.flatMap (fun m => unpackLine (h.lineData (h.qBase q + 5 * m.slot)) m.n)

/-- The words queue `q` would hold with the record `x`. -/
def Hub.wordsOf (h : Hub) (q : Nat) (x : Queue) : List QWord := x.head ++ h.midWords q x.mid ++ x.tail

theorem Hub.midWords_congr {h g : Hub} (hcells : g.cells = h.cells) (hs : g.stock = h.stock) (hf : g.stockFill = h.stockFill) :
    g.midWords = h.midWords := by
  funext q mid
  unfold Hub.midWords Hub.qBase
  rw [Hub.lineData_congr hs hf, Hub.cf_congr hcells]

/-- The words of a queue, over a hub with the same stockpot and structure. -/
theorem Hub.qWords_of {h g : Hub} {q : Nat} {x : Queue} (hx : NMap.get g.q q = x) (hcells : g.cells = h.cells)
    (hs : g.stock = h.stock) (hf : g.stockFill = h.stockFill) : g.qWords q = h.wordsOf q x := by
  rw [← hx]
  unfold Hub.wordsOf
  rw [← Hub.midWords_congr hcells hs hf]
  rfl

/-! ### Bypass (R280) -/

theorem Queue.bypass_eq (x : Queue) : x.bypass = { x with head := x.bypass.head, tail := x.bypass.tail } := by
  unfold Queue.bypass
  split <;> rfl

/-- Bypass keeps the words and their order. -/
theorem Hub.wordsOf_bypass (h : Hub) (q : Nat) (x : Queue) : h.wordsOf q x.bypass = h.wordsOf q x := by
  unfold Queue.bypass
  split
  next hmid =>
    have hnil : x.mid = [] := List.isEmpty_iff.1 hmid
    simp [Hub.wordsOf, Hub.midWords, hnil]
  next => rfl

/-! ### A word leaves for the consumer (R282, R285, R286) -/

/-- Of a queue's record the threshold's memory alone may change. -/
theorem Hub.rearmThr_queue (h : Hub) (q : Nat) :
    ∃ b, NMap.get (h.rearmThr q).q q = { NMap.get h.q q with thrDone := b } := by
  unfold Hub.rearmThr
  dsimp only
  split
  · exact ⟨false, NMap.get_set_same ..⟩
  · exact ⟨_, rfl⟩

theorem Hub.qPop_empty {h : Hub} {q : Nat} (hhead : (NMap.get h.q q).head = []) : h.qPop q = none := by
  unfold Hub.qPop
  dsimp only
  rw [hhead]

/-- The oldest word of the head is the one removed, and every other word of the queue stays. -/
theorem Hub.qPop_oldest {h : Hub} {q : Nat} {w : QWord} {rest : List QWord} (hhead : (NMap.get h.q q).head = w :: rest) :
    ∃ h1, h.qPop q = some (w, h1) ∧ h.qWords q = w :: h1.qWords q := by
  unfold Hub.qPop
  dsimp only
  rw [hhead]
  refine ⟨_, rfl, ?_⟩
  obtain ⟨b, hb⟩ := Hub.rearmThr_queue (Hub.headLeave { h with q := NMap.set h.q q ({ NMap.get h.q q with
    head := rest, begun := !qEnd w
    pkts := if qEnd w then (NMap.get h.q q).pkts - 1 else (NMap.get h.q q).pkts } : Queue).bypass } q w) q
  rw [Hub.headLeave_q, NMap.get_set_same] at hb
  rw [Hub.qWords_of (h := h) hb (by simp) (by simp) (by simp)]
  refine .trans ?_ (congrArg (w :: ·) (h.wordsOf_bypass q _).symm)
  change h.wordsOf q (NMap.get h.q q) = _
  simp [Hub.wordsOf, hhead]

/-! ### The window (R283, R285, R286) -/

/-- What a read of the idle item gives. -/
def idleRead (payload : Bool) : Word := if payload then 0#32 else winInfo idleWord

theorem winInfo_idleWord : winInfo idleWord = w32 (2 ^ 7) := by decide

theorem idleRead_fields (payload : Bool) :
    idleRead payload = if payload then idleWord.extractLsb' 0 32 else (idleWord.extractLsb' 32 8).setWidth 32 := by
  cases payload <;> decide

theorem idleRead_eq (payload : Bool) : idleRead payload = if payload then 0#32 else w32 (2 ^ 7) := by
  rw [idleRead, winInfo_idleWord]

/-- A queue that no recovery covers is tested by none. -/
theorem Hub.testsLine_of_not_recovering {h : Hub} {q : Nat} (hr : h.recovering 1 q = false) : h.testsLine q = false := by
  have hnone : h.flt.recs.any (fun r => (r.scope == 1 && r.unit == q) || r.scope == 7) = false := by
    refine List.any_eq_false.2 fun r hmem hhit => ?_
    refine List.any_eq_false.1 hr r hmem ?_
    rcases Bool.or_eq_true _ _ ▸ hhit with hq | h7
    · simp only [Bool.and_eq_true, beq_iff_eq] at hq
      simp [Hub.recCovers, hq]
    · simp [Hub.recCovers, scopeCovers, h7]
  unfold Hub.testsLine
  rw [hnone, Bool.and_false]

/-- A refill moves nothing where the middle is empty or the head has no room for a line. -/
theorem Hub.refill_rests {h : Hub} {q : Nat} (ht : h.testsLine q = false)
    (hrest : (NMap.get h.q q).mid = [] ∨ 8 < (NMap.get h.q q).head.length) (fx : Fixed) (ptr : BitVec 38) (us : List Upset) :
    h.refill fx q ptr us = h := by
  unfold Hub.refill
  dsimp only
  rw [if_neg (by simp [ht])]
  split
  · rfl
  · split
    · rfl
    next m rest hmid =>
      have hlong := hrest.resolve_left (by simp [hmid])
      exact if_neg (by omega)

/-- With words in the head, or no line to fetch, nothing is fetched ahead. -/
theorem Hub.fetchAhead_rests {h : Hub} {q : Nat} (hrest : (NMap.get h.q q).head ≠ [] ∨ (NMap.get h.q q).mid = []) (fx : Fixed) :
    h.fetchAhead fx q = h := by
  unfold Hub.fetchAhead
  split
  next hfetch =>
    simp only [Bool.and_eq_true, List.isEmpty_iff, Bool.not_eq_true'] at hfetch
    exact Hub.refill_rests (Hub.testsLine_of_not_recovering hfetch.2) (.inl (hrest.resolve_left fun hne => hne hfetch.1)) _ _ _
  next => rfl

/-- A CASCADE queue answers idle, flagged. -/
theorem Hub.windowRead_cascade {h : Hub} {q : Nat} (he : h.qEnabled q = true) (hc : h.cf 9 q 0 1 1 = 1) (fx : Fixed)
    (payload : Bool) : h.windowRead fx q payload = (idleRead payload, h.on (fQQStatusNotHost q)) :=
  if_pos (by simp [he, hc])

/-- The host's queue is enabled, under no recovery and no test, and it is the host that consumes it. -/
structure Hub.Readable (h : Hub) (q : Nat) : Prop where
  enabled : h.qEnabled q = true
  sound : h.recovering 1 q = false
  free : h.stHoldsQueues = false
  host : h.cf 9 q 0 1 1 = 0

/-- What a read of a readable queue's window does once nothing is fetched. -/
theorem Hub.windowRead_readable {h : Hub} {q : Nat} (hq : h.Readable q)
    (hrest : (NMap.get h.q q).head ≠ [] ∨ (NMap.get h.q q).mid = []) (fx : Fixed) (payload : Bool) :
    h.windowRead fx q payload =
      if payload then (match h.qPop q with | some (w, h1) => (qPayload w, h1) | none => (idleRead payload, h))
      else (match (NMap.get h.q q).head with | w :: _ => (winInfo w, h) | [] => (idleRead payload, h)) := by
  obtain ⟨he, hr, hs, hc⟩ := hq
  unfold Hub.windowRead
  dsimp only
  rw [if_neg (by simp [hc]), Hub.fetchAhead_rests hrest, if_neg (by simp [he, hr, hs])]
  rfl

/-- A refused access changes the counts of the tests that hold the queues, and nothing where none does. -/
theorem Hub.refusedBy_queue_reg (h : Hub) {a : Nat}
    (ha : h.stHoldsQueues = true → a ≠ rHltStSkipped 0 ∧ a ≠ rHltStSkipped 5 ∧ a ≠ rHltStSkipped 6) :
    (h.refusedBy heldQueue).reg a = h.reg a := by
  cases hs : h.stHoldsQueues with
  | false => rw [Hub.refusedBy_free hs]
  | true => exact h.refusedBy_reg heldQueue (by simpa [heldQueue] using ha hs)

/-- An empty queue, whatever its state is, answers idle; but for a notice or a count of refused accesses nothing changes. -/
theorem Hub.windowRead_empty {h : Hub} {q : Nat} (hmid : (NMap.get h.q q).mid = []) (hhead : (NMap.get h.q q).head = [])
    (fx : Fixed) (payload : Bool) : ∃ g, h.windowRead fx q payload = (idleRead payload, g) ∧ g = { h with regs := g.regs } ∧
      ∀ a, a ≠ rQQStatus q ∧ (h.stHoldsQueues = true → a ≠ rHltStSkipped 0 ∧ a ≠ rHltStSkipped 5 ∧ a ≠ rHltStSkipped 6) →
        g.reg a = h.reg a := by
  unfold Hub.windowRead
  dsimp only
  rw [Hub.fetchAhead_rests (.inr hmid), Hub.qPop_empty hhead, hhead]
  split
  · exact ⟨_, rfl, rfl, fun a ha => h.reg_on_ne (fQQStatusNotHost q) ha.1⟩
  · split
    · exact ⟨_, rfl, h.refusedBy_records heldQueue, fun a ha => h.refusedBy_queue_reg ha.2⟩
    · exact ⟨h, by cases payload <;> rfl, rfl, fun _ _ => rfl⟩

/-! ### The statement -/

/-- Settles O58: the idle word by computation, the window by what a read of an empty queue gives. -/
theorem emptyQueueRead : Obligations.EmptyQueueRead := by
  refine ⟨by decide, fun fx h q payload _ hmid hhead => ?_, fun s q payload hans _ hmid hhead => ⟨_, rfl, ?_⟩⟩
  · obtain ⟨g, hread, hrecords, hregs⟩ := Hub.windowRead_empty hmid hhead fx payload
    have hq : g.q = h.q := by rw [hrecords]
    have hctx : g.ctx = h.ctx := by rw [hrecords]
    rw [hread]
    exact ⟨idleRead_fields payload, hq, hctx, Hub.qPop_empty hhead, hregs⟩
  · obtain ⟨g, hread, -, -⟩ := Hub.windowRead_empty hmid hhead s.fixed payload
    dsimp only
    rw [Hub.readOf_answers _ hans, latchIrq_host, hread]
    cases payload <;> rfl

end Sys2Proof.Machine
end

section
/-! SUPPORT. What a producer's write, a spill, a refill and a flush do to a queue (R280 to R284, R287, R289, R291, R443). -/

namespace Sys2Proof.Machine
open Sys2Proof

/-! ### A word joins its queue (R281, R282) -/

/-- The record of a queue that has taken a producer's word. -/
def Queue.pushed (x : Queue) (producer : Nat) (w : QWord) : Queue :=
  ({ x with
    tail := x.tail ++ [w], holder := if qEnd w then none else some producer
    inItem := if qEnd w then 0 else x.inItem + 1, pkts := if qEnd w then x.pkts + 1 else x.pkts } : Queue).bypass

/-- Behind a word that joins, the threshold's memory may change. -/
theorem Hub.qPush_queue (h : Hub) (q p : Nat) (w : QWord) :
    ∃ b, NMap.get (h.qPush q p w).q q = { (NMap.get h.q q).pushed p w with thrDone := b } := by
  unfold Hub.qPush
  extract_lets x x1 h1 h2 thr
  have hq : NMap.get h2.q q = x.pushed p w := by
    have hpresent : h2.q = h1.q := by
      simp only [h2]
      split <;> simp
    rw [hpresent]
    exact NMap.get_set_same ..
  split
  · refine ⟨true, ?_⟩
    dsimp only
    rw [NMap.get_modify_same, hq]
  · exact ⟨_, hq⟩

theorem Hub.qPush_keeps (h : Hub) (q p : Nat) (w : QWord) : (h.qPush q p w).outbox = h.outbox ∧
    (h.qPush q p w).cells = h.cells ∧ (h.qPush q p w).stock = h.stock ∧ (h.qPush q p w).stockFill = h.stockFill := by
  unfold Hub.qPush
  dsimp only
  split <;> split <;> simp

theorem Hub.itemLeft_keeps (h : Hub) (p : Nat) (w : QWord) : (h.itemLeft p w).q = h.q ∧ (h.itemLeft p w).outbox = h.outbox ∧
    (h.itemLeft p w).cells = h.cells ∧ (h.itemLeft p w).stock = h.stock ∧ (h.itemLeft p w).stockFill = h.stockFill := by
  unfold Hub.itemLeft
  split
  · unfold Hub.captureEnd Hub.ringIdle
    dsimp only
    split <;> simp
  · exact ⟨rfl, rfl, rfl, rfl, rfl⟩

/-- The word pushed stands behind every word of the queue. -/
theorem Hub.wordsOf_pushed (h : Hub) (q p : Nat) (x : Queue) (w : QWord) : h.wordsOf q (x.pushed p w) = h.wordsOf q x ++ [w] := by
  unfold Queue.pushed
  rw [Hub.wordsOf_bypass]
  simp [Hub.wordsOf]

theorem Queue.pushed_pkts (x : Queue) (p : Nat) (w : QWord) : (x.pushed p w).pkts = x.pkts + b2n (qEnd w) := by
  unfold Queue.pushed
  rw [Queue.bypass_eq]
  cases qEnd w <;> rfl

theorem Queue.pushed_holder (x : Queue) (p : Nat) (w : QWord) : (x.pushed p w).holder = if qEnd w then none else some p := by
  unfold Queue.pushed
  rw [Queue.bypass_eq]

section
variable {h : Hub} {p q : Nat} {w : QWord} {rest : List (Nat × QWord)} (hout : NMap.get h.outbox p = (q, w) :: rest)
include hout

/-- A producer whose turn it is, or who holds the write port, writes into a queue with room. -/
theorem Hub.producerWrite_takes (he : h.qEnabled q = true) (hr : h.recovering 1 q = false) (hs : h.stHoldsQueues = false)
    (hd : (NMap.get h.q q).discard = false)
    (hturn : (NMap.get h.q q).holder = some p ∨ (NMap.get h.q q).holder = none ∧ h.qTurn q = some p)
    (htail : (NMap.get h.q q).tail.length < 16) (hlevel : (NMap.get h.q q).level < h.qCap q) :
    h.producerWrite p = (Hub.qPush { h with
      outbox := NMap.set h.outbox p rest, q := NMap.set h.q q { NMap.get h.q q with turn := p + 1 } } q p w).itemLeft p w := by
  have hport : (if (NMap.get h.q q).holder.isNone then h.qTurn q == some p else (NMap.get h.q q).holder == some p) = true := by
    rcases hturn with hp | ⟨hn, ht⟩
    · simp [hp]
    · simp [hn, ht]
  unfold Hub.producerWrite
  rw [hout]
  dsimp only
  rw [if_neg (by simp [hd]), if_pos (by simp only [he, hr, hs, hport, htail, hlevel]; rfl)]

/-- A full queue, or one another producer's item holds, takes nothing. -/
theorem Hub.producerWrite_waits
    (hfull : h.qCap q ≤ (NMap.get h.q q).level ∨ (NMap.get h.q q).holder.any (fun o => o != p) = true)
    (hitem : ((NMap.get h.q q).holder == some p && (NMap.get h.q q).discard) = false) (hs : h.stHeld heldQueue = false) :
    h.producerWrite p = h := by
  have hitem' : ¬((NMap.get h.q q).holder = some p ∧ (NMap.get h.q q).discard = true) := by simpa using hitem
  unfold Hub.producerWrite
  rw [hout]
  dsimp only
  rw [if_neg hitem', if_neg, Hub.refusedBy_free hs]
  rcases hfull with hlevel | hother
  · simp [Nat.not_lt.2 hlevel]
  · obtain ⟨o, ho, hne⟩ := (Option.any_eq_true _ _).1 hother
    simp [ho, (bne_iff_ne.1 hne)]

end

/-- A producer with no word writes nothing. -/
theorem Hub.producerWrite_none {h : Hub} {p : Nat} (hout : NMap.get h.outbox p = []) : h.producerWrite p = h := by
  unfold Hub.producerWrite
  rw [hout]

/-! ### Line pointers (R289) -/

/-- Pointers moved agree with their copies exactly when no upset makes them differ. -/
theorem Queue.movePtr_ptrOk (x : Queue) (wr rd : BitVec 19) (ptr : BitVec 38) : (x.movePtr wr rd ptr).ptrOk = decide (ptr = 0#38) := by
  have hcopy (a b : BitVec 19) : a = a ^^^ b ↔ b = 0#19 :=
    ⟨fun e => by simpa [← BitVec.xor_assoc] using (congrArg (a ^^^ ·) e).symm, fun e => by rw [e, BitVec.xor_zero]⟩
  have hhalves : ptr.extractLsb' 0 19 = 0#19 ∧ ptr.extractLsb' 19 19 = 0#19 ↔ ptr = 0#38 := by
    refine ⟨fun ⟨hlo, hhi⟩ => BitVec.eq_of_getLsbD_eq fun i hi => ?_, fun e => by subst e; decide⟩
    by_cases hlow : i < 19
    · simpa [hlow] using congrArg (·.getLsbD i) hlo
    · have hbit := congrArg (·.getLsbD (i - 19)) hhi
      simpa [show i - 19 < 19 by omega, show 19 + (i - 19) = i by omega] using hbit
  unfold Queue.movePtr Queue.ptrOk
  rw [Bool.eq_iff_iff, Bool.and_eq_true, beq_iff_eq, beq_iff_eq, hcopy, hcopy, hhalves, decide_eq_true_iff]

/-! ### Spill (R280) -/

/-- The record of a queue whose eight oldest tail words go to a line of the middle. -/
def Hub.spilledQueue (h : Hub) (q : Nat) (ptr : BitVec 38) : Queue :=
  ({ NMap.get h.q q with
    tail := (NMap.get h.q q).tail.drop 8, mid := (NMap.get h.q q).mid ++ [{ slot := (NMap.get h.q q).wr.toNat, n := 8 }] } : Queue).movePtr
    (h.nextSlot q (NMap.get h.q q).wr.toNat) (NMap.get h.q q).rd ptr

/-- The hub after such a spill. -/
def Hub.spilled (h : Hub) (q : Nat) (ptr : BitVec 38) : Hub :=
  { h with
    stock := (h.storeLine (h.qBase q + 5 * (NMap.get h.q q).wr.toNat) ((NMap.get h.q q).tail.take 8)).stock
    q := NMap.set h.q q (h.spilledQueue q ptr) }

/-- The words spilled stand in the line the write pointer named. -/
theorem Hub.spilled_lineData (h : Hub) (q : Nat) (ptr : BitVec 38) :
    (h.spilled q ptr).lineData (h.qBase q + 5 * (NMap.get h.q q).wr.toNat) = packLine ((NMap.get h.q q).tail.take 8) := by
  have hfill : (h.storeLine (h.qBase q + 5 * (NMap.get h.q q).wr.toNat) ((NMap.get h.q q).tail.take 8)).stockFill =
      h.stockFill := by rw [Hub.storeLine_records]
  rw [← h.lineData_storeLine]
  refine congrFun (Hub.lineData_congr ?_ ?_) _
  · rfl
  · exact hfill.symm

/-- A spill moves eight words where the tail has them, the head is full or behind, and a line is free. -/
theorem Hub.spill_moves {h : Hub} {q : Nat} (htail : 8 ≤ (NMap.get h.q q).tail.length)
    (hhead : (NMap.get h.q q).mid ≠ [] ∨ 16 ≤ (NMap.get h.q q).head.length)
    (hmid : (NMap.get h.q q).mid.length < h.qLines q) (hr : h.recovering 1 q = false) (hs : h.stHoldsQueues = false)
    (fx : Fixed) (ptr : BitVec 38) :
    h.spill fx q ptr = if ptr = 0#38 then h.spilled q ptr else (h.spilled q ptr).ptrFault fx q := by
  have hfull : (!(NMap.get h.q q).mid.isEmpty || decide (16 ≤ (NMap.get h.q q).head.length)) = true := by
    rcases hhead with hne | hlen
    · simp [hne]
    · simp [hlen]
  unfold Hub.spill
  dsimp only
  rw [if_pos (by simp only [htail, hmid, hr, hs, hfull]; rfl), Queue.movePtr_ptrOk, Hub.storeLine_records]
  simp only [decide_eq_true_eq]
  rfl

theorem Hub.spill_rests {h : Hub} {q : Nat} (hrest : (NMap.get h.q q).tail.length < 8 ∨
      h.qLines q ≤ (NMap.get h.q q).mid.length ∨ (NMap.get h.q q).mid = [] ∧ (NMap.get h.q q).head.length < 16)
    (fx : Fixed) (ptr : BitVec 38) : h.spill fx q ptr = h := by
  refine if_neg ?_
  rcases hrest with htail | hmid | ⟨hnil, hhead⟩
  · simp [Nat.not_le.2 htail]
  · simp [Nat.not_lt.2 hmid]
  · simp [hnil, Nat.not_le.2 hhead]

/-! ### Refill (R280, R291, R443) -/

/-- A line's reads without a flipped bit are no event. -/
theorem Hub.stockEvents_good (fx : Fixed) (q : Nat) {rs : List (StockRead × BitVec 64)} (hrs : ∀ r ∈ rs, r.1 = .good) (h : Hub)
    (a : Nat) : Hub.stockEvents fx q rs h a = h := by
  induction rs generalizing a with
  | nil => rfl
  | cons r rs ih =>
    rw [List.forall_mem_cons] at hrs
    obtain ⟨hr, hrs⟩ := hrs
    unfold Hub.stockEvents
    rw [if_neg (by simp [hr]), hr]
    exact ih hrs _

/-- A corrected word in front of good ones is flagged and counted. -/
theorem Hub.stockEvents_corrected (fx : Fixed) (q : Nat) (d : BitVec 64) {rs : List (StockRead × BitVec 64)}
    (hrs : ∀ r ∈ rs, r.1 = .good) (h : Hub) (a : Nat) :
    Hub.stockEvents fx q ((.corrected, d) :: rs) h a = (h.on (fQQStatusCorr q)).countSat (fQQCountCorr q) 1 := by
  unfold Hub.stockEvents
  exact (if_neg (by simp)).trans (Hub.stockEvents_good fx q hrs _ _)

/-- The record of a queue whose oldest line `m` has gone to the head. -/
def Hub.refilledQueue (h : Hub) (q : Nat) (m : MidLine) (rest : List MidLine) : Queue :=
  (({ NMap.get h.q q with
      mid := rest, head := (NMap.get h.q q).head ++ unpackLine (h.lineData (h.qBase q + 5 * m.slot)) m.n } : Queue).movePtr
    (NMap.get h.q q).wr (h.nextSlot q m.slot) 0#38).bypass

section
variable {h : Hub} {q : Nat} {m : MidLine} {rest : List MidLine}

theorem Hub.wordsOf_refilledQueue (hmid : (NMap.get h.q q).mid = m :: rest) :
    h.wordsOf q (h.refilledQueue q m rest) = h.qWords q := by
  unfold Hub.refilledQueue
  rw [Hub.wordsOf_bypass]
  change _ = h.wordsOf q (NMap.get h.q q)
  simp [Hub.wordsOf, Hub.midWords, Queue.movePtr, hmid]

/-- A refill whose reads all leave the data readable moves the oldest line to the head. -/
theorem Hub.refill_moves (hr : h.recovering 1 q = false) (hs : h.stHoldsQueues = false)
    (hmid : (NMap.get h.q q).mid = m :: rest) (hhead : (NMap.get h.q q).head.length ≤ 8) {us : List Upset} {o : Nat → StockRead}
    (hread : h.readWords (h.qBase q + 5 * m.slot) 5 us =
      ((List.range 5).map (fun k => (o k, h.stockAt (h.qBase q + 5 * m.slot + k))), h))
    (ho : ∀ k, o k ≠ .uncorrectable) (fx : Fixed) :
    h.refill fx q 0#38 us =
      (let h1 := Hub.stockEvents fx q ((List.range 5).map (fun k => (o k, h.stockAt (h.qBase q + 5 * m.slot + k)))) h
        (h.qBase q + 5 * m.slot)
      { h1 with q := NMap.set h1.q q (h.refilledQueue q m rest) }) := by
  have hreadable : ((List.range 5).map (fun k => (o k, h.stockAt (h.qBase q + 5 * m.slot + k)))).any
      (fun w => w.1 == .uncorrectable) = false := by
    simp [ho]
  unfold Hub.refill
  dsimp only
  rw [if_neg (by simp [Hub.testsLine_of_not_recovering hr]), if_neg (by simp [hr, hs]), hmid]
  dsimp only
  rw [if_pos hhead, hread]
  dsimp only
  rw [if_neg (by simp [hreadable]), if_pos (by rw [Queue.movePtr_ptrOk]; rfl), Hub.lineData_of_reads]
  rfl

end

/-- Where a recovery tests line 0 the pattern written touches the stockpot and the free values alone. -/
theorem Hub.writePattern_keeps (h : Hub) (q : Nat) : (h.writePattern q).q = h.q ∧ (h.writePattern q).regs = h.regs := by
  unfold Hub.writePattern
  dsimp only
  rw [Hub.storeLine_records]
  exact List.foldlRecOn (motive := fun r : List QWord × Hub => r.2.q = h.q ∧ r.2.regs = h.regs) _ _ ⟨rfl, rfl⟩
    fun _ hr _ _ => hr

/-- A clean test of line 0 leaves what the pattern written leaves. -/
theorem Hub.refill_tests {h : Hub} {q : Nat} (ht : h.testsLine q = true) {us : List Upset}
    (hus : us.all (fun u => u == noUpset) = true) (fx : Fixed) (ptr : BitVec 38) : h.refill fx q ptr us = h.writePattern q := by
  unfold Hub.refill
  dsimp only
  rw [if_pos ht, Hub.readWords_clean _ _ _ hus]
  exact Hub.stockEvents_good fx q (by simp) _ _

end Sys2Proof.Machine
end

section
/-! SUPPORT. What a flush leaves of a queue (R287). -/

namespace Sys2Proof.Machine
open Sys2Proof

/-! ### The words kept -/

theorem Hub.length_midWords (h : Hub) (q : Nat) (mid : List MidLine) :
    (h.midWords q mid).length = (mid.map (fun m => m.n)).sum := by
  simp [Hub.midWords, List.length_flatMap, unpackLine]

/-- The first words of a line are those of the line cut there. -/
theorem unpackLine_take {ds : List (BitVec 64)} {k n : Nat} (hk : k ≤ n) : (unpackLine ds n).take k = unpackLine ds k := by
  unfold unpackLine
  dsimp only
  rw [← List.map_take, List.take_range, Nat.min_eq_left hk]

/-- The middle lines kept hold the first words. -/
theorem Hub.midWords_keepMid (h : Hub) (q k : Nat) (mid : List MidLine) :
    h.midWords q (keepMid k mid) = (h.midWords q mid).take k := by
  unfold Hub.midWords
  induction mid generalizing k with
  | nil => simp [keepMid]
  | cons m mid ih =>
    have hlen : (unpackLine (h.lineData (h.qBase q + 5 * m.slot)) m.n).length = m.n := by simp [unpackLine]
    unfold keepMid
    rw [List.flatMap_cons, List.take_append, hlen]
    split
    next hk => simp [hk]
    next hk =>
      split
      next hcut =>
        rw [unpackLine_take hcut.le, Nat.sub_eq_zero_of_le hcut.le]
        simp
      next hwhole =>
        rw [List.flatMap_cons, ih, List.take_of_length_le (l := unpackLine _ _) (by rw [hlen]; omega)]

/-- The record a flush leaves a queue of whose words the first `k` stay. -/
def Hub.flushedQueue (h : Hub) (q k : Nat) (whole trunc : Bool) : Queue :=
  let x := NMap.get h.q q
  let mid := keepMid (k - x.head.length) x.mid
  (({ x with
      head := x.head.take k, mid := mid, tail := x.tail.take (k - x.head.length - (x.mid.map (fun m => m.n)).sum)
      pkts := b2n whole, discard := x.discard || trunc, inItem := if trunc then 0 else x.inItem } : Queue).movePtr
    (match mid.getLast? with | some m => h.nextSlot q m.slot | none => x.rd) x.rd 0#38).bypass

theorem Hub.wordsOf_flushedQueue (h : Hub) (q k : Nat) (whole trunc : Bool) :
    h.wordsOf q (h.flushedQueue q k whole trunc) = (h.qWords q).take k := by
  unfold Hub.flushedQueue
  rw [Hub.wordsOf_bypass]
  change _ = (h.wordsOf q (NMap.get h.q q)).take k
  unfold Hub.wordsOf Queue.movePtr
  dsimp only
  rw [h.midWords_keepMid, List.take_append, List.take_append, List.length_append, Hub.length_midWords, Nat.sub_sub]

theorem Hub.flushedQueue_discard (h : Hub) (q k : Nat) (whole trunc : Bool) :
    (h.flushedQueue q k whole trunc).discard = ((NMap.get h.q q).discard || trunc) := by
  unfold Hub.flushedQueue
  rw [Queue.bypass_eq]
  rfl

/-! ### The flush -/

/-- The end word of the item the consumer has begun is among the words kept. -/
def Hub.keepsWhole (h : Hub) (q : Nat) : Bool :=
  (NMap.get h.q q).begun && ((h.qWords q).take (keptWords (NMap.get h.q q).begun (h.qWords q))).any qEnd

/-- A flush truncates the item in progress. -/
def Hub.flushCuts (h : Hub) (q : Nat) : Bool :=
  (NMap.get h.q q).holder.isSome && !(NMap.get h.q q).discard && (!(NMap.get h.q q).begun || h.keepsWhole q)

/-- A flush as the status register shows it, before it shows a truncation. -/
def Hub.flushShown (h : Hub) (q : Nat) : Hub :=
  (Hub.countSat (Hub.on { h with q := NMap.set h.q q (h.flushedQueue q (keptWords (NMap.get h.q q).begun (h.qWords q))
    (h.keepsWhole q) (h.flushCuts q)) } (fQQStatusFlushed q)) (fQQCountFlush q) 1).stopDigests q

theorem Hub.flush_eq (fx : Fixed) (h : Hub) (q : Nat) : h.flush fx q 0#38 =
    (if h.flushCuts q then (((h.flushShown q).on (fQQStatusTrunc q)).countSat (fQQCountTrunc q) 1).present (0x6200 + q)
      else h.flushShown q).rearmThr q := by
  unfold Hub.flush
  dsimp only
  rw [if_neg (by rw [Queue.movePtr_ptrOk]; simp)]
  rfl

/-! ### What shows of it -/

@[simp] theorem Hub.stopDigests_q (h : Hub) (q : Nat) : (h.stopDigests q).q = h.q := by
  unfold Hub.stopDigests
  refine foldl_keep (fun a => a.q) _ (fun a u => ?_) _ h
  rfl
@[simp] theorem Hub.stopDigests_flt (h : Hub) (q : Nat) : (h.stopDigests q).flt = h.flt := by
  unfold Hub.stopDigests
  refine foldl_keep (fun a => a.flt) _ (fun a u => ?_) _ h
  rfl
@[simp] theorem Hub.stopDigests_cells (h : Hub) (q : Nat) : (h.stopDigests q).cells = h.cells := by
  unfold Hub.stopDigests
  refine foldl_keep (fun a => a.cells) _ (fun a u => ?_) _ h
  rfl
@[simp] theorem Hub.stopDigests_stock (h : Hub) (q : Nat) : (h.stopDigests q).stock = h.stock := by
  unfold Hub.stopDigests
  refine foldl_keep (fun a => a.stock) _ (fun a u => ?_) _ h
  rfl
@[simp] theorem Hub.stopDigests_stockFill (h : Hub) (q : Nat) : (h.stopDigests q).stockFill = h.stockFill := by
  unfold Hub.stopDigests
  refine foldl_keep (fun a => a.stockFill) _ (fun a u => ?_) _ h
  rfl

theorem Hub.usedUnits_lt (h : Hub) {sect u : Nat} (hu : u ∈ h.usedUnits sect) : u < 256 := by
  obtain ⟨e, -, rfl⟩ := List.mem_map.1 (mem_dedup_of hu)
  exact Nat.mod_lt _ (by decide)

theorem Hub.stopDigests_reg (h : Hub) (q : Nat) {a : Nat} (ha : 0x1A0000 ≤ a) : (h.stopDigests q).reg a = h.reg a := by
  refine foldl_keep_mem (fun k => k.reg a) _ _ (fun k u hu => ?_) h
  have hlt := h.usedUnits_lt (List.mem_filter.1 hu).1
  exact k.reg_on_ne (fFabCStatusDigLost (u - 32)) (by simp only [fFabCStatusDigLost, rFabCStatus]; omega)

theorem Hub.flushShown_queue (h : Hub) (q : Nat) : NMap.get (h.flushShown q).q q =
    h.flushedQueue q (keptWords (NMap.get h.q q).begun (h.qWords q)) (h.keepsWhole q) (h.flushCuts q) := by
  unfold Hub.flushShown
  rw [Hub.stopDigests_q]
  exact NMap.get_set_same ..

/-- A queue's flags and counts share no bit. -/
theorem qFlush_apart (q : Nat) : (fQQStatusFlushed q).apart (fQQCountFlush q) ∧ (fQQCountFlush q).apart (fQQStatusFlushed q) := by
  simp only [Fld.apart, fQQStatusFlushed, fQQCountFlush, rQQStatus, rQQCount]
  omega

theorem Hub.flushShown_shows (h : Hub) (q : Nat) : (h.flushShown q).is (fQQStatusFlushed q) = true ∧
    (h.flushShown q).rd (fQQCountFlush q) = satTo 8 (h.rd (fQQCountFlush q) + 1) := by
  have hreg : ∀ (g : Hub) (f : Fld), 0x1A0000 ≤ f.addr → (g.stopDigests q).rd f = g.rd f :=
    fun g f hf => Hub.rd_congr (g.stopDigests_reg q hf)
  unfold Hub.flushShown
  rw [Hub.is_congr (hreg _ (fQQStatusFlushed q) (by simp only [fQQStatusFlushed, rQQStatus]; omega)),
    hreg _ (fQQCountFlush q) (by simp only [fQQCountFlush, rQQCount]; omega)]
  exact Hub.flagged_counted _ (qFlush_apart q).1 (qFlush_apart q).2 rfl

/-- Showing a truncation leaves the queue's record, the flag of the flush and its count. -/
theorem Hub.flushCut_keeps (h : Hub) (q : Nat) :
    ((((h.on (fQQStatusTrunc q)).countSat (fQQCountTrunc q) 1).present (0x6200 + q)).is (fQQStatusTrunc q) = true) ∧
    (((h.on (fQQStatusTrunc q)).countSat (fQQCountTrunc q) 1).present (0x6200 + q)).is (fQQStatusFlushed q) =
      h.is (fQQStatusFlushed q) := by
  rw [Hub.present_is _ _ (.inr (by simp only [fQQStatusTrunc, rQQStatus]; omega)),
    Hub.present_is _ _ (.inr (by simp only [fQQStatusFlushed, rQQStatus]; omega))]
  refine ⟨(Hub.flagged_counted _ ?_ ?_ rfl).1, (Hub.is_wr_apart _ _ ?_).trans (Hub.is_on_apart _ ?_)⟩ <;>
    simp only [Fld.apart, fQQStatusFlushed, fQQStatusTrunc, fQQCountTrunc, rQQStatus, rQQCount] <;> omega

/-- A flush leaves the structure and the stockpot. -/
theorem Hub.flush_keeps (fx : Fixed) (h : Hub) (q : Nat) : (h.flush fx q 0#38).cells = h.cells ∧
    (h.flush fx q 0#38).stock = h.stock ∧ (h.flush fx q 0#38).stockFill = h.stockFill := by
  rw [Hub.flush_eq]
  split <;> simp [Hub.flushShown]

/-- The record of the queue flushed, but for the threshold's memory. -/
theorem Hub.flush_queue (fx : Fixed) (h : Hub) (q : Nat) : ∃ b, NMap.get (h.flush fx q 0#38).q q =
    { h.flushedQueue q (keptWords (NMap.get h.q q).begun (h.qWords q)) (h.keepsWhole q) (h.flushCuts q) with thrDone := b } := by
  rw [Hub.flush_eq]
  obtain ⟨b, hb⟩ := Hub.rearmThr_queue (if h.flushCuts q then
    (((h.flushShown q).on (fQQStatusTrunc q)).countSat (fQQCountTrunc q) 1).present (0x6200 + q) else h.flushShown q) q
  refine ⟨b, hb.trans ?_⟩
  rw [← h.flushShown_queue]
  split <;> simp

/-- A flush keeps the first words and no other. -/
theorem Hub.flush_words (fx : Fixed) (h : Hub) (q : Nat) :
    (h.flush fx q 0#38).qWords q = (h.qWords q).take (keptWords (NMap.get h.q q).begun (h.qWords q)) := by
  obtain ⟨b, hb⟩ := h.flush_queue fx q
  obtain ⟨hcells, hstock, hfill⟩ := h.flush_keeps fx q
  exact (Hub.qWords_of (h := h) hb hcells hstock hfill).trans (h.wordsOf_flushedQueue q _ _ _)

/-- Without an item to truncate a flush shows its flag and its count. -/
theorem Hub.flush_shows {h : Hub} {q : Nat} (hcut : h.flushCuts q = false) (fx : Fixed) :
    (h.flush fx q 0#38).is (fQQStatusFlushed q) = true ∧
      (h.flush fx q 0#38).rd (fQQCountFlush q) = satTo 8 (h.rd (fQQCountFlush q) + 1) := by
  rw [Hub.flush_eq, if_neg (by simp [hcut]), Hub.rearmThr_is, Hub.rearmThr_rd]
  exact h.flushShown_shows q

/-- With one it shows the truncation beside its flag. -/
theorem Hub.flush_cuts {h : Hub} {q : Nat} (hcut : h.flushCuts q = true) (fx : Fixed) :
    (h.flush fx q 0#38).is (fQQStatusTrunc q) = true ∧ (h.flush fx q 0#38).is (fQQStatusFlushed q) = true := by
  obtain ⟨htrunc, hflushed⟩ := (h.flushShown q).flushCut_keeps q
  rw [Hub.flush_eq, if_pos hcut, Hub.rearmThr_is, Hub.rearmThr_is, hflushed]
  exact ⟨htrunc, (h.flushShown_shows q).1⟩

end Sys2Proof.Machine
end

section
/-! SUPPORT. A QUEUE recovery that a pointer fault starts (R289, R443): it runs, and the flag of the fault outlasts the reset. -/

namespace Sys2Proof.Machine
open Sys2Proof

/-! ### What every entry of a register meets -/

/-- The word of the register at `a`, and every entry the table of registers lists for it, meets `P`: so a reset, which goes through the
entries one by one, meets only such words. -/
def Hub.Shows (h : Hub) (a : Nat) (P : Word → Prop) : Prop := P (h.reg a) ∧ ∀ e ∈ h.regs, e.1 = a → P e.2

namespace Hub.Shows

variable {h : Hub} {a : Nat} {P : Word → Prop}

theorem congr (hs : h.Shows a P) {g : Hub} (hg : g.regs = h.regs) : g.Shows a P := by
  unfold Hub.Shows
  rw [Hub.reg_congr hg, hg]
  exact hs

/-- A register just stored has the one entry, or none. -/
theorem of_setReg (h : Hub) {w : Word} (hw : P w) : (h.setReg a w).Shows a P := by
  have herased : ∀ e ∈ NMap.erase h.regs a, e.1 ≠ a := fun e he => by
    rw [NMap.erase_eq_filter, List.mem_filter] at he
    simpa using he.2
  refine ⟨by rwa [Hub.reg_setReg_same], fun e he ha => ?_⟩
  unfold Hub.setReg NMap.setD at he
  dsimp only at he
  split at he
  · exact absurd ha (herased e he)
  · rcases (NMap.mem_insert _ _ _ _).1 he with rfl | he
    · exact hw
    · exact absurd ha (herased e he)

/-- A store of another register. -/
theorem setReg (hs : h.Shows a P) {b : Nat} (hb : b ≠ a) (w : Word) : (h.setReg b w).Shows a P := by
  obtain ⟨hreg, hall⟩ := hs
  refine ⟨by rwa [Hub.reg_setReg_ne _ _ hb.symm], fun e he ha => ?_⟩
  have hkept : ∀ e ∈ NMap.erase h.regs b, e ∈ h.regs := fun e he => by
    rw [NMap.erase_eq_filter] at he
    exact (List.mem_filter.1 he).1
  unfold Hub.setReg NMap.setD at he
  dsimp only at he
  split at he
  · exact hall e (hkept e he) ha
  · rcases (NMap.mem_insert _ _ _ _).1 he with rfl | he
    · exact absurd ha hb
    · exact hall e (hkept e he) ha

theorem wr (hs : h.Shows a P) {f : Fld} (hf : f.addr ≠ a) (n : Nat) : (h.wr f n).Shows a P := hs.setReg hf _

/-- The registers of the buckets lie in the health block. -/
theorem bucketReg_health (b : Nat) : 0x1F8000 ≤ rHltBk b := by simp only [rHltBk]; omega

/-! ### Reports of faults write the health block alone -/

section
variable (hs : h.Shows a P) (ha : a < 0x1F8000)
include hs ha

theorem wrHealth {f : Fld} (hf : 0x1F8000 ≤ f.addr) (n : Nat) : (h.wr f n).Shows a P := hs.wr (by omega) n

theorem bkTake (b : Nat) : (h.bkTake b).Shows a P := hs.wrHealth ha (bucketReg_health b) _

theorem sendSuppressed : h.sendSuppressed.Shows a P := by
  unfold Hub.sendSuppressed
  split
  · exact (hs.bkTake ha 1).congr rfl
  · exact hs

theorem sendUpSuppressed : h.sendUpSuppressed.Shows a P := by
  unfold Hub.sendUpSuppressed
  split
  · exact (hs.bkTake ha 4).congr rfl
  · exact hs

/-- A suppressed log is flagged and counted. -/
theorem suppressed (b : Nat) : ((h.on fHltFltStatusSuppressed).countSat (fHltBkCount b) 1).Shows a P :=
  (hs.wrHealth ha (by decide) 1).wrHealth ha (bucketReg_health b) _

theorem logUp (typ : Nat) (ws : List Word) : (h.logUp typ ws).Shows a P := by
  unfold Hub.logUp
  split
  · exact hs
  · split
    · exact ((hs.sendUpSuppressed ha).bkTake ha 4).congr rfl
    · exact ((hs.sendUpSuppressed ha).suppressed ha 4).congr rfl

theorem logWords (typ : Nat) (ws : List Word) : (h.logWords typ ws).Shows a P := by
  have hsent := (hs.logUp ha typ ws).sendSuppressed ha
  unfold Hub.logWords
  dsimp only
  split
  · exact (hsent.bkTake ha 1).congr rfl
  · exact (hsent.suppressed ha 1).congr rfl

theorem reportFault (code scope unit src : Nat) (d7 d8 : Word) : (h.reportFault code scope unit src d7 d8).Shows a P := by
  unfold Hub.reportFault Hub.log
  exact ((((hs.wrHealth ha (by decide) _).wrHealth ha (by decide) _).wrHealth ha (by decide) _).wrHealth ha
    (by decide) _).logWords ha _ _

end

/-- A reset of registers keeps at `a` what its row's fields keep of every word. -/
theorem resetRegs (hs : h.Shows a P) {hit : Scope → Nat → Bool}
    (hkeep : ∀ r, rowOf a = some r → ∀ w, P w → P (resetFields (fun s => hit s a) r.fields w)) :
    P ((h.resetRegs hit).reg a) := by
  obtain ⟨hreg, hall⟩ := hs
  unfold Hub.resetRegs
  refine List.foldlRecOn (motive := fun k : Hub => P (k.reg a)) _ _ hreg fun k hk e he => ?_
  cases hrow : rowOf e.1 with
  | none => exact hk
  | some r =>
    dsimp only
    by_cases hea : e.1 = a
    · rw [hea, Hub.reg_setReg_same]
      exact hkeep r (hea ▸ hrow) _ (hall e he hea)
    · rwa [Hub.reg_setReg_ne _ _ (Ne.symm hea)]

end Hub.Shows

/-- A bit outside every field the reset covers stays. -/
theorem getLsbD_resetFields {hit : Scope → Bool} {fs : List RField} {b : Nat} (hb : b < 32)
    (hfs : ∀ f ∈ fs, hit f.scope = true → f.lo + f.len ≤ 32 ∧ (b < f.lo ∨ f.lo + f.len ≤ b)) (w : Word) :
    (resetFields hit fs w).getLsbD b = w.getLsbD b := by
  unfold resetFields
  refine List.foldlRecOn (motive := fun k : Word => k.getLsbD b = w.getLsbD b) _ _ rfl fun k hk f hf => ?_
  split
  next hhit =>
    obtain ⟨hlen, hout⟩ := hfs f hf hhit
    rw [getLsbD_putField k _ _ hlen hb, if_neg (by omega), hk]
  next => exact hk

/-! ### The QUEUE reset (R288) -/

/-- The fault flag of a queue's pointers is not among the fields its reset covers. -/
theorem rowOf_qStatus : ∀ q : Fin 64, (rowOf (rQQStatus q)).all (fun r => r.fields.all (fun f =>
    f.scope != .queue || (decide (f.lo + f.len ≤ 32) && (decide (4 < f.lo) || decide (f.lo + f.len ≤ 4))))) = true := by
  decide +kernel

theorem Hub.resetRegs_ptrErr {h : Hub} (q : Fin 64) (hs : h.Shows (rQQStatus q) (fun w => w.getLsbD 4 = true)) :
    ((h.resetRegs (fun s a => s == .queue && decide (0x1A0000 ≤ a) && decide (a < 0x1B0000) &&
      queueOfAddr a == q)).reg (rQQStatus q)).getLsbD 4 = true := by
  refine Hub.Shows.resetRegs hs fun r hr w hw => ?_
  refine (getLsbD_resetFields (by decide) (fun f hf hhit => ?_) w).trans hw
  have hrow : (rowOf (rQQStatus q)).all _ = true := rowOf_qStatus q
  rw [hr] at hrow
  have hout := List.all_eq_true.1 hrow f hf
  have hscope : f.scope = .queue := by
    simp only [Bool.and_eq_true, beq_iff_eq] at hhit
    exact hhit.1.1.1
  simpa [hscope] using hout

/-- Another table of queues leaves the registers. -/
theorem Hub.reg_withQueues (h : Hub) (qs : NMap Queue) (a : Nat) : ({ h with q := qs } : Hub).reg a = h.reg a := rfl

theorem Hub.rd_withQueues (h : Hub) (qs : NMap Queue) (f : Fld) : ({ h with q := qs } : Hub).rd f = h.rd f := rfl

theorem Hub.is_withQueues (h : Hub) (qs : NMap Queue) (f : Fld) : ({ h with q := qs } : Hub).is f = h.is f := rfl

/-- The end of a ring's read-out shows in that ring's status. -/
theorem Hub.ringIdle_reg (h : Hub) (c : Nat) (rearm : Bool) {a : Nat} (ha : a ≠ rQRStatus c) :
    (h.ringIdle c rearm).reg a = h.reg a := Hub.reg_wr_ne _ (fQRStatusState c) _ ha

/-- A QUEUE reset keeps the flag of the queue's pointers. -/
theorem Hub.clearQueue_ptrErr {h : Hub} (q : Fin 64) (hs : h.Shows (rQQStatus q) (fun w => w.getLsbD 4 = true)) :
    ((h.clearQueue q).reg (rQQStatus q)).getLsbD 4 = true := by
  unfold Hub.clearQueue
  extract_lets x h1 h2 blank h3
  have hseed : h1.reg (rQQStatus q) = _ :=
    Hub.reg_wr_ne _ (fQQThrThr q) _ (by simp only [fQQThrThr, rQQStatus, rQQThr]; omega)
  have hepoch : h2.reg (rQQStatus q) = h1.reg (rQQStatus q) :=
    h1.reg_wr_ne (fQQEpochEpoch q) _ (by simp only [fQQEpochEpoch, rQQStatus, rQQEpoch]; omega)
  have hdigests : h3.reg (rQQStatus q) = h2.reg (rQQStatus q) :=
    (Hub.stopDigests_reg _ q (by simp only [rQQStatus]; omega)).trans (h2.reg_withQueues _ _)
  rw [foldl_keep (fun k => k.reg (rQQStatus q)), hdigests, hepoch, hseed]
  · exact Hub.resetRegs_ptrErr q hs
  · intro k e
    dsimp only
    split
    · exact (Hub.reg_congr rfl _).trans (k.ringIdle_reg _ _ (by simp only [rQQStatus, rQRStatus]; omega))
    · rfl

theorem Hub.resetRegs_flt (h : Hub) (hit : Scope → Nat → Bool) : (h.resetRegs hit).flt = h.flt := by
  unfold Hub.resetRegs
  refine foldl_keep (fun k => k.flt) _ (fun k e => ?_) _ _
  split <;> rfl

/-- A QUEUE reset leaves the recoveries that run. -/
theorem Hub.clearQueue_flt (h : Hub) (q : Nat) : (h.clearQueue q).flt = h.flt := by
  unfold Hub.clearQueue
  dsimp only
  rw [foldl_keep (fun k => k.flt), Hub.stopDigests_flt]
  · exact h.resetRegs_flt _
  · intro k e
    split <;> rfl

/-- A field of one bit is set when its bit is. -/
theorem Hub.is_of_bit {h : Hub} {f : Fld} (hlen : f.len = 1) (hbit : (h.reg f.addr).getLsbD f.lo = true) : h.is f = true := by
  rw [Hub.is_iff]
  intro hzero
  have hnone : (h.reg f.addr).extractLsb' f.lo f.len = 0#f.len := BitVec.eq_of_toNat_eq (hzero.trans (by simp))
  have hfirst := congrArg (fun w : BitVec f.len => w.getLsbD 0) hnone
  simp [hlen, hbit] at hfirst

/-! ### The recovery -/

/-- The QUEUE recovery that a fault starts where none runs. -/
def Hub.queueRec (h : Hub) (q : Nat) : Rec := { (default : Rec) with scope := 1, unit := q, start := h.cyc, faults := 1 }

theorem Hub.callRec_queue {h : Hub} (hr : h.flt.recs = []) (fx : Fixed) (q : Nat) :
    h.callRec fx 1 q = h.startRec fx (h.queueRec q) := by
  unfold Hub.callRec
  simp [hr, Hub.queueRec]

/-- Where no recovery runs, a QUEUE recovery is the one that runs once it has started. -/
theorem Hub.startRec_queue_recs {h : Hub} (hr : h.flt.recs = []) (fx : Fixed) (q : Nat) :
    ∃ r, (h.startRec fx (h.queueRec q)).flt.recs = [r] ∧ r.scope = 1 ∧ r.unit = q := by
  unfold Hub.startRec
  extract_lets inner r1 flt0 h1 h2 flt2 h3 h4
  have h2flt : h2.flt.recs = [] := by
    simp only [h2]
    change ((h1.testsReset 1).clearQueue q).flt.recs = []
    rw [Hub.clearQueue_flt]
    simp [Hub.testsReset, h1, flt0, hr]
  refine ⟨r1, ?_, rfl, rfl⟩
  rw [Hub.showRecs_flt]
  simp only [h4]
  rw [if_neg (by simp [Hub.queueRec])]
  simp [h3, h2flt]

/-- A QUEUE recovery that starts keeps the flag of the queue's pointers. -/
theorem Hub.startRec_queue_ptrErr {h : Hub} (q : Fin 64) (hs : h.Shows (rQQStatus q) (fun w => w.getLsbD 4 = true)) (fx : Fixed) :
    ((h.startRec fx (h.queueRec q)).reg (rQQStatus q)).getLsbD 4 = true := by
  unfold Hub.startRec
  extract_lets inner r1 flt0 h1 h2 flt2 h3 h4
  rw [Hub.showRecs_reg _ (by simp only [rQQStatus]; omega)]
  simp only [h4]
  rw [if_neg (by simp [Hub.queueRec])]
  exact Hub.clearQueue_ptrErr q (Hub.Shows.congr hs rfl)

/-- Where no recovery runs, a fault of a queue but q62 is reported and starts the queue's recovery. -/
theorem Hub.faultRec_queue {h : Hub} (hr : h.flt.recs = []) {q : Nat} (hq : q ≠ 62) (fx : Fixed) (code src : Nat) (d7 d8 : Word) :
    h.faultRec fx code 1 q src d7 d8 =
      (h.reportFault code 1 q src d7 d8).startRec fx ((h.reportFault code 1 q src d7 d8).queueRec q) := by
  have hrecs : (h.reportFault code 1 q src d7 d8).flt.recs = [] := by rw [Hub.reportFault_flt_recs, hr]
  obtain ⟨r, hruns, hscope, -⟩ := Hub.startRec_queue_recs hrecs fx q
  unfold Hub.faultRec
  dsimp only
  rw [if_neg (by simp [hq]), Hub.callRec_queue hrecs, Hub.escalateAll_none]
  rw [hruns]
  simp [Hub.dependsOn, hscope]

/-- Pointers that disagree start a QUEUE recovery and are flagged. -/
theorem Hub.ptrFault_recovers {h : Hub} (hr : h.flt.recs = []) (q : Fin 64) (hq : q ≠ 62) (fx : Fixed) :
    (h.ptrFault fx q).recovering 1 q = true ∧ (h.ptrFault fx q).is (fQQStatusPtrErr q) = true := by
  have hne : q.val ≠ 62 := fun e => hq (Fin.ext e)
  have hon : (h.on (fQQStatusPtrErr q)).flt.recs = [] := by rw [Hub.on_flt, hr]
  have hflag : (h.on (fQQStatusPtrErr q)).Shows (rQQStatus q) (fun w => w.getLsbD 4 = true) := by
    refine Hub.Shows.of_setReg h ?_
    simp only [fQQStatusPtrErr]
    rw [getLsbD_putField _ _ _ (by decide) (by decide)]
    rfl
  unfold Hub.ptrFault
  rw [Hub.faultRec_queue hon hne]
  constructor
  · obtain ⟨r, hruns, hscope, hunit⟩ := Hub.startRec_queue_recs (h := (h.on (fQQStatusPtrErr q)).reportFault 0x32 1 q 0xC6
      (w32 q) 0#32) (by rw [Hub.reportFault_flt_recs, hon]) fx q
    unfold Hub.recovering
    rw [hruns]
    simp [Hub.recCovers, hscope, hunit]
  · have hbit := Hub.startRec_queue_ptrErr q (hflag.reportFault (by simp only [rQQStatus]; omega) 0x32 1 q 0xC6 (w32 q) 0#32) fx
    exact Hub.is_of_bit rfl hbit

end Sys2Proof.Machine
end

section
/-! SUPPORT. The statement about queues (R280 to R287, R289, R291, R302, R443). -/

namespace Sys2Proof.Machine
open Sys2Proof

/-- A producer's word that a queue takes. -/
theorem Hub.producerWrite_outcome {h : Hub} {p q : Nat} {w : QWord} {rest : List (Nat × QWord)} {x : Queue}
    (hx : { NMap.get h.q q with turn := p + 1 } = x)
    (hwrite : h.producerWrite p = (Hub.qPush { h with
      outbox := NMap.set h.outbox p rest, q := NMap.set h.q q x } q p w).itemLeft p w) :
    (h.producerWrite p).qWords q = h.qWords q ++ [w] ∧ NMap.get (h.producerWrite p).outbox p = rest ∧
      ∃ b, NMap.get (h.producerWrite p).q q = { x.pushed p w with thrDone := b } := by
  obtain ⟨hq, hout, hcells, hstock, hfill⟩ := Hub.itemLeft_keeps
    (Hub.qPush { h with outbox := NMap.set h.outbox p rest, q := NMap.set h.q q x } q p w) p w
  obtain ⟨hout', hcells', hstock', hfill'⟩ := Hub.qPush_keeps
    { h with outbox := NMap.set h.outbox p rest, q := NMap.set h.q q x } q p w
  obtain ⟨b, hb⟩ := Hub.qPush_queue { h with outbox := NMap.set h.outbox p rest, q := NMap.set h.q q x } q p w
  rw [NMap.get_set_same] at hb
  rw [← hwrite] at hq hout hcells hstock hfill
  rw [← hq] at hb
  refine ⟨?_, ?_, b, hb⟩
  · rw [Hub.qWords_of (h := h) hb (hcells.trans hcells') (hstock.trans hstock') (hfill.trans hfill')]
    refine (h.wordsOf_pushed q p x w).trans ?_
    rw [← hx]
    rfl
  · rw [hout, hout']
    exact NMap.get_set_same ..

/-- Behind a refill's events stands the record with the oldest line in the head: no word is lost. -/
theorem Hub.refilled_outcome {h h1 g : Hub} {q : Nat} {m : MidLine} {rest : List MidLine}
    (hg : g = { h1 with q := NMap.set h1.q q (h.refilledQueue q m rest) }) (hmid : (NMap.get h.q q).mid = m :: rest)
    (hcells : h1.cells = h.cells) (hs : h1.stock = h.stock) (hf : h1.stockFill = h.stockFill) :
    NMap.get g.q q = h.refilledQueue q m rest ∧ g.qWords q = h.qWords q := by
  have hqueue : NMap.get g.q q = h.refilledQueue q m rest := by
    rw [hg]
    exact NMap.get_set_same ..
  refine ⟨hqueue, (Hub.qWords_of (h := h) hqueue ?_ ?_ ?_).trans (Hub.wordsOf_refilledQueue hmid)⟩ <;> rw [hg]
  · exact hcells
  · exact hs
  · exact hf

theorem qCorr_apart (q : Nat) : (fQQStatusCorr q).apart (fQQCountCorr q) ∧ (fQQCountCorr q).apart (fQQStatusCorr q) := by
  simp only [Fld.apart, fQQStatusCorr, fQQCountCorr, rQQStatus, rQQCount]
  omega

theorem latchIrq_recovering (h0 : Hub) (m0 : Met) (h : Hub) (m : Met) (scope unit : Nat) :
    (latchIrq h0 m0 h m).recovering scope unit = h.recovering scope unit := by
  simp [Hub.recovering, Hub.recCovers, Hub.isPartner]

/-- Settles O22: each command by what it does to the queue's record and its lines, in the case its clause names. -/
theorem queueOrder : Obligations.QueueOrder := by
  refine ⟨?_, ?_, ?_, ?_, ?_, ?_, ?_, ?_, ?_, ?_, ?_, ?_, ?_, ?_, ?_, ?_, ?_⟩
  · -- QUEUE_PRODUCER_WRITE of a word the queue takes
    intro s p q w rest hout he hr hs hd hturn htail hlevel
    obtain ⟨hwords, hrest, b, hb⟩ :=
      Hub.producerWrite_outcome rfl (Hub.producerWrite_takes hout he hr hs hd hturn htail hlevel)
    refine ⟨_, rfl, hwords, hrest, ?_, ?_, rfl⟩ <;> rw [hb]
    · exact Queue.pushed_pkts ..
    · exact Queue.pushed_holder ..
  · -- QUEUE_PRODUCER_WRITE while the word waits
    intro s p q w rest hout hfull hitem hs
    rw [Hub.producerWrite_waits hout hfull hitem hs]
    refine ⟨_, rfl, rfl, rfl, ?_⟩
    dsimp only
    rw [Hub.producerWrite_waits hout hfull hitem hs]
  · -- QUEUE_PRODUCER_WRITE of a producer with no word
    intro s p hout
    refine ⟨_, rfl, ?_⟩
    dsimp only
    rw [Hub.producerWrite_none hout]
  · -- QUEUE_SPILL with agreeing pointers
    intro s q htail hhead hmid hr hs _
    have hspill := Hub.spill_moves htail hhead hmid hr hs s.fixed 0#38
    rw [if_pos rfl] at hspill
    have hqueue : NMap.get (s.hub.spilled q 0#38).q q = s.hub.spilledQueue q 0#38 := NMap.get_set_same ..
    refine ⟨_, rfl, ?_⟩
    dsimp only
    rw [hspill, latchIrq_q, hqueue, Hub.lineData_congr (latchIrq_stock ..) (latchIrq_stockFill ..)]
    exact ⟨rfl, rfl, rfl, s.hub.spilled_lineData q 0#38, rfl, fun a ha => latchIrq_reg _ _ _ _ ha⟩
  · -- QUEUE_SPILL that leaves a pointer different from its copy
    intro s q ptr htail hhead hmid hrecs hs hptr hq
    have hr : s.hub.recovering 1 q = false := by simp [Hub.recovering, hrecs]
    have hspill := Hub.spill_moves htail hhead hmid hr hs s.fixed ptr
    rw [if_neg hptr] at hspill
    obtain ⟨hruns, hflag⟩ := Hub.ptrFault_recovers (h := s.hub.spilled q ptr) hrecs q hq s.fixed
    refine ⟨_, rfl, ?_⟩
    dsimp only
    rw [hspill, latchIrq_recovering, latchIrq_is _ _ _ _ (by simp only [fQQStatusPtrErr, rQQStatus]; omega)]
    exact ⟨hruns, hflag⟩
  · -- QUEUE_SPILL without eight words to move, or without room in the middle
    intro s q ptr hrest
    refine ⟨_, rfl, ?_⟩
    dsimp only
    rw [Hub.spill_rests hrest, latchIrq_q, latchIrq_stock]
    exact ⟨rfl, rfl, fun a ha => latchIrq_reg _ _ _ _ ha⟩
  · -- QUEUE_REFILL of a clean line
    intro s q m rest us hr _ hs hmid hhead _ hus
    have hrefill := Hub.refill_moves hr hs hmid hhead (s.hub.readWords_clean _ 5 hus) (by simp) s.fixed
    rw [Hub.stockEvents_good _ _ (by simp)] at hrefill
    obtain ⟨hqueue, hwords⟩ := Hub.refilled_outcome hrefill hmid rfl rfl rfl
    refine ⟨_, rfl, hwords, ?_, ?_, by rw [hrefill], rfl⟩
    · rw [hqueue, Hub.refilledQueue, Queue.bypass_eq]
      rfl
    · rw [hqueue, Hub.refilledQueue, Queue.bypass_eq]
      rfl
  · -- QUEUE_REFILL of a line with one flipped bit
    intro s q m rest u hr _ hs hmid hhead _ hd ha
    have hrefill := Hub.refill_moves hr hs hmid hhead (s.hub.readWords_corrected _ 5 hd ha)
      (fun k => by split <;> simp) s.fixed
    rw [List.range_succ_eq_map, List.map_cons, List.map_map, if_pos rfl, Hub.stockEvents_corrected _ _ _ (by simp)] at hrefill
    obtain ⟨-, hwords⟩ := Hub.refilled_outcome hrefill hmid (by simp) (by simp) (by simp)
    obtain ⟨hflag, hcount⟩ := s.hub.flagged_counted (f := fQQStatusCorr q) (g := fQQCountCorr q)
      (qCorr_apart q).1 (qCorr_apart q).2 rfl
    refine ⟨_, rfl, hwords, ?_, ?_, rfl⟩ <;> rw [hrefill]
    · exact (Hub.is_withQueues _ _ _).trans hflag
    · exact (Hub.rd_withQueues _ _ _).trans hcount
  · -- QUEUE_REFILL with no line in the middle, or no room for one
    intro s q us ht hrest
    refine ⟨_, rfl, ?_⟩
    dsimp only
    rw [Hub.refill_rests ht hrest]
  · -- QUEUE_REFILL by a recovery
    intro s q us ht hus
    obtain ⟨hq, hregs⟩ := s.hub.writePattern_keeps q
    refine ⟨_, rfl, ?_, ?_, rfl⟩ <;> rw [Hub.refill_tests ht hus]
    · exact hq
    · exact hregs
  · -- QUEUE_WINDOW_READ of the payload
    intro s q w rest hans he hr hs hc hhead
    have haddr : 0x1A0200 + 0x400 * q.val + 4 * b2n true = 0x1A0204 + 0x400 * q.val := by simp only [b2n_true]; omega
    obtain ⟨h1, hpop, hwords⟩ := Hub.qPop_oldest hhead
    have hread := Hub.windowRead_readable ⟨he, hr, hs, hc⟩ (.inl (by simp [hhead])) s.fixed true
    rw [if_pos rfl, hpop] at hread
    refine ⟨_, rfl, ?_, ?_⟩
    · rw [hread]
      exact hwords
    · dsimp only
      rw [Hub.readOf_answers _ (haddr ▸ hans), hread]
  · -- QUEUE_WINDOW_READ of the information
    intro s q w rest hans he hr hs hc hhead
    have hread := Hub.windowRead_readable ⟨he, hr, hs, hc⟩ (.inl (by simp [hhead])) s.fixed false
    rw [if_neg (by simp), hhead] at hread
    refine ⟨_, rfl, ?_⟩
    refine (congrArg (latchIrq s.hub s.met · s.met) (Hub.readOf_answers _ hans)).trans ?_
    rw [hread]
    rfl
  · -- QUEUE_WINDOW_READ of an empty queue
    intro s q payload hans he hr hs _ hc hhead hmid
    have hread := Hub.windowRead_readable ⟨he, hr, hs, hc⟩ (.inr hmid) s.fixed payload
    rw [Hub.qPop_empty hhead, hhead, idleRead_eq] at hread
    refine ⟨_, rfl, ?_⟩
    dsimp only
    rw [Hub.readOf_answers _ hans, hread, ite_self]
  · -- QUEUE_WINDOW_READ of a CASCADE queue
    intro s q payload hans he hc
    refine ⟨_, rfl, ?_⟩
    dsimp only
    rw [Hub.readOf_answers _ hans, Hub.windowRead_cascade he hc, idleRead_eq]
  · -- QUEUE_FLUSH with no item in progress
    intro s q ptr hans he hholder hptr _
    subst hptr
    have hcut : s.hub.flushCuts q = false := by simp [Hub.flushCuts, hholder]
    obtain ⟨hflag, hcount⟩ := Hub.flush_shows hcut s.fixed
    refine ⟨_, rfl, s.hub.flush_words s.fixed q, hflag, hcount, ?_⟩
    dsimp only
    rw [Hub.atReg_answers _ hans, if_pos he]
  · -- QUEUE_FLUSH with an item in progress that the consumer has not begun
    intro s q p hans he hholder hd hb _
    have hcut : s.hub.flushCuts q = true := by simp [Hub.flushCuts, hholder, hd, hb]
    obtain ⟨htrunc, hflag⟩ := Hub.flush_cuts hcut s.fixed
    obtain ⟨b, hqueue⟩ := s.hub.flush_queue s.fixed q
    refine ⟨_, rfl, ?_, ?_, htrunc, hflag, ?_⟩
    · rw [Hub.flush_words, hb]
      exact List.take_zero
    · rw [hqueue]
      dsimp only
      rw [Hub.flushedQueue_discard, hcut, Bool.or_true]
    · dsimp only
      rw [Hub.atReg_answers _ hans, if_pos he]
  · -- QUEUE_FLUSH of a queue that is not enabled
    intro s q ptr hans he
    refine ⟨_, rfl, ?_⟩
    dsimp only
    rw [Hub.atReg_answers _ hans, if_neg (by simp [he]), latchIrq_q]
    exact ⟨rfl, fun a ha => latchIrq_reg _ _ _ _ ha⟩

end Sys2Proof.Machine
end

section
/-! SUPPORT. Rewind rings: lines written, arms, fires and the read-out (R293 to R298). -/

namespace Sys2Proof.Machine
open Sys2Proof

/-! ### RING_LINE_WRITE (R294) -/

/-- A ring line stored: its samples, and behind them the two words of its first sample's time. -/
theorem Hub.storeRing_line (h : Hub) (k : RingCfg) (line : Nat) (x : Samp) (l : List Samp) :
    (h.storeRing k line (x :: l)).lineData (k.addr line) =
        packLine (((x :: l).take 8).map (fun y => qword false 1 0 (sampWord y))) ∧
      (h.storeRing k line (x :: l)).stockAt (k.addr line + 5) = BitVec.ofNat 64 (x.time / 65536000000000) ∧
      (h.storeRing k line (x :: l)).stockAt (k.addr line + 6) = BitVec.ofNat 64 (x.time % 65536000000000) := by
  unfold Hub.storeRing
  dsimp only
  refine ⟨?_, ?_, ?_⟩
  · rw [← h.lineData_storeLine]
    refine List.map_congr_left fun i hi => ?_
    have hlt := List.mem_range.1 hi
    rw [Hub.stockAt_setStock, if_neg (by omega), Hub.stockAt_setStock, if_neg (by omega)]
  · rw [Hub.stockAt_setStock, if_neg (by omega), Hub.stockAt_setStock, if_pos rfl]
  · rw [Hub.stockAt_setStock, if_pos rfl]

theorem Hub.storeRing_records (h : Hub) (k : RingCfg) (line : Nat) (xs : List Samp) :
    h.storeRing k line xs = { h with stock := (h.storeRing k line xs).stock } := by
  unfold Hub.storeRing
  dsimp only
  rw [Hub.storeLine_records]
  rfl

/-- The hub after a line of a ring is written. -/
theorem Hub.ringLine_stores {h : Hub} {c : Nat} {k : RingCfg} (hk : h.ringCfg c = some k)
    (hlen : 8 ≤ (NMap.get h.ring c).line.length) (hs : h.stHoldsQueues = false) :
    h.ringLine c = { h with
      stock := (h.storeRing k (((NMap.get h.ring c).next - (NMap.get h.ring c).line.length) / 8) (NMap.get h.ring c).line).stock
      ring := NMap.set h.ring c { NMap.get h.ring c with line := (NMap.get h.ring c).line.drop 8 } } := by
  unfold Hub.ringLine
  rw [hk]
  dsimp only
  rw [if_neg (by simp [hs]; omega), Hub.storeRing_records]

theorem Hub.ringLine_rests {h : Hub} {c : Nat} (hrest : h.ringCfg c = none ∨ (NMap.get h.ring c).line.length < 8) :
    h.ringLine c = h := by
  unfold Hub.ringLine
  split
  · rfl
  next k hk =>
    have hshort := hrest.resolve_left (by simp [hk])
    exact if_pos (.inl hshort)

/-! ### RING_ARM and RING_FIRE (R295, R296) -/

/-- The ring's state as last stored. -/
theorem Hub.ringState_wr (h : Hub) (c : Nat) {n : Nat} (hn : n < 8) : (h.wr (fQRStatusState c) n).ringState c = n :=
  (Hub.rd_wr_same _ _ (by simp [fQRStatusState])).trans (Nat.mod_eq_of_lt hn)

/-- A ring's registers lie above `glb.wake`. -/
theorem ringStatus_ne_wake (c : Nat) : rQRStatus c ≠ 0x30 := by simp only [rQRStatus]; omega
theorem ringCount_ne_wake (c : Nat) : rQRCount c ≠ 0x30 := by simp only [rQRCount]; omega

theorem latchIrq_ringState (h0 : Hub) (m0 : Met) (h : Hub) (m : Met) (c : Nat) :
    (latchIrq h0 m0 h m).ringState c = h.ringState c := latchIrq_rd _ _ _ _ (ringStatus_ne_wake c)

section
variable {h : Hub} {c : Nat}

theorem Hub.ringArm_idle (hk : (h.ringCfg c).isSome = true) (hst : h.ringState c = 0)
    (hign : (NMap.get h.ring c).ign.all (fun x => x.1 != h.cyc) = true) : h.ringArm c = h.wr (fQRStatusState c) 1 := by
  obtain ⟨k, hk⟩ := Option.isSome_iff_exists.1 hk
  unfold Hub.ringArm
  rw [hk]
  dsimp only
  rw [if_pos hst]
  split
  next y f n hy =>
    rw [hy] at hign
    exact if_neg (by simpa using hign)
  next => rfl

theorem Hub.ringArm_armed (hst : h.ringState c = 1) : h.ringArm c = h := by
  unfold Hub.ringArm
  split
  · rfl
  · dsimp only
    rw [if_neg (by omega), if_pos hst]

theorem Hub.ringArm_busy (hk : (h.ringCfg c).isSome = true) (hst : 2 ≤ h.ringState c) :
    h.ringArm c = h.on (fQRStatusArmRef c) := by
  obtain ⟨k, hk⟩ := Option.isSome_iff_exists.1 hk
  unfold Hub.ringArm
  rw [hk]
  dsimp only
  rw [if_neg (by omega), if_neg (by omega)]

theorem Hub.ringArm_none (hk : h.ringCfg c = none) : h.ringArm c = h := by
  unfold Hub.ringArm
  rw [hk]

theorem Hub.ringFire_none (hk : h.ringCfg c = none) : h.ringFire c = h := by
  unfold Hub.ringFire
  rw [hk]

theorem Hub.ringFire_armed {k : RingCfg} (hk : h.ringCfg c = some k) (hst : h.ringState c = 1) :
    h.ringFire c = h.ringTrigger c k := by
  unfold Hub.ringFire
  rw [hk]
  exact if_pos hst

/-- A fire of a ring that is not armed is flagged and counted. -/
theorem Hub.ringFire_ignored (hk : (h.ringCfg c).isSome = true) (hst : h.ringState c ≠ 1) :
    ∃ rs, h.ringFire c = (Hub.on { h with ring := rs } (fQRStatusFireIgn c)).countSat (fQRCountIgnored c) 1 := by
  obtain ⟨k, hk⟩ := Option.isSome_iff_exists.1 hk
  unfold Hub.ringFire
  rw [hk]
  dsimp only
  rw [if_neg hst]
  split
  · exact ⟨_, rfl⟩
  · exact ⟨h.ring, rfl⟩

end

/-- The ring a fire has triggered: where its capture begins and what of it is lost already. -/
theorem Hub.ringTrigger_ring (h : Hub) (c : Nat) (k : RingCfg) :
    (NMap.get (h.ringTrigger c k).ring c).trig = (NMap.get h.ring c).next ∧
      (NMap.get (h.ringTrigger c k).ring c).post = k.post ∧
      (NMap.get (h.ringTrigger c k).ring c).mark = max (((NMap.get h.ring c).next - k.pre) / 8 * 8)
        ((((NMap.get h.ring c).next + 7) / 8 - k.lines) * 8) ∧
      (NMap.get (h.ringTrigger c k).ring c).lost =
        (((NMap.get h.ring c).next + 7) / 8 - k.lines) * 8 - ((NMap.get h.ring c).next - k.pre) / 8 * 8 := by
  unfold Hub.ringTrigger
  dsimp only
  rw [Hub.wr_ring]
  dsimp only
  rw [NMap.get_set_same]
  exact ⟨rfl, rfl, rfl, rfl⟩

/-! ### The read-out (R297, R298) -/

section
variable {h : Hub} {c : Nat} {k : RingCfg} {g : Ring} {us : List Upset}

/-- The time of a capture whose first line stands in the stockpot. -/
theorem Hub.ringTime_clean (hgone : g.gone.contains (g.pos / 8) = false) (hheld : g.held (g.pos / 8) = none)
    (hus : us.all (fun u => u == noUpset) = true) : h.ringTime c k g us =
      ((h.stockAt (k.addr (g.pos / 8) + 5)).toNat * 65536000000000 + (h.stockAt (k.addr (g.pos / 8) + 6)).toNat, h) := by
  have hrest : (us.drop 5).all (fun u => u == noUpset) = true :=
    List.all_eq_true.2 fun u hu => List.all_eq_true.1 hus u (List.mem_of_mem_drop hu)
  unfold Hub.ringTime
  dsimp only
  rw [if_neg (ne_true_of_eq_false hgone), hheld, h.readWords_clean _ 2 hrest]
  rfl

/-- The samples of a line that stands in the stockpot. -/
theorem Hub.ringWords_clean {ln : Nat} (hgone : g.gone.contains ln = false) (hheld : g.held ln = none)
    (hus : us.all (fun u => u == noUpset) = true) :
    h.ringWords c k g ln us = ((unpackLine (h.lineData (k.addr ln)) 8).map qPayload, h) := by
  unfold Hub.ringWords
  rw [if_neg (ne_true_of_eq_false hgone), hheld]
  dsimp -zeta only
  extract_lets a r bad ws
  have hr : r = ((List.range 5).map (fun i => (.good, h.stockAt (a + i))), h) := h.readWords_clean a 5 hus
  have hbad : ∀ w, bad w = false := by
    intro w
    simp only [bad, hr, List.getElem?_map]
    cases (List.range 5)[w]? <;> rfl
  have hws : ws = unpackLine (h.lineData a) 8 := by
    simp only [ws, hr]
    rw [Hub.lineData_of_reads]
  have hpayload : ws.zipIdx.map (fun p => qPayload p.1) = ws.map qPayload :=
    (List.map_map (f := Prod.fst) (g := qPayload)).symm.trans (by rw [List.zipIdx_map_fst])
  simp only [hbad, Bool.or_self, Bool.false_eq_true, if_false, hpayload]
  rw [hws, hr]
  rfl

/-- Where a grant's samples end: with the line, or with the capture. -/
def Ring.grantEnd (g : Ring) : Nat := min (8 * (g.pos / 8) + 8) g.stop

/-- The samples a grant gives of a line that stands in the stockpot. -/
def Hub.grantWords (h : Hub) (k : RingCfg) (g : Ring) : List Word :=
  (((unpackLine (h.lineData (k.addr (g.pos / 8))) 8).map qPayload).drop (g.pos % 8)).take (g.grantEnd - g.pos)

end

/-- Words given to a producer stand behind those it has. -/
theorem Hub.get_outbox_pushOut (h : Hub) (p q : Nat) (ws : List QWord) :
    NMap.get (h.pushOut p q ws).outbox p = NMap.get h.outbox p ++ ws.map (fun w => (q, w)) :=
  NMap.get_modify_same h.outbox p (fun l => l ++ ws.map (fun w => (q, w)))

/-- A read-out goes on: the capture is being read, its queue takes words and has taken those given before. -/
structure Hub.ReadsOut (h : Hub) (c : Nat) (k : RingCfg) : Prop where
  ring : h.ringCfg c = some k
  reading : h.ringState c = 3
  sound : h.recovering 1 k.q = false
  free : h.stHoldsQueues = false
  taken : NMap.get h.outbox (prodRing c) = []

/-- The next line of the capture stands in the stockpot. -/
structure Hub.LineStored (h : Hub) (c : Nat) : Prop where
  kept : (NMap.get h.ring c).gone.contains ((NMap.get h.ring c).pos / 8) = false
  stored : (NMap.get h.ring c).held ((NMap.get h.ring c).pos / 8) = none
  left : (NMap.get h.ring c).pos < (NMap.get h.ring c).stop

section
variable {h : Hub} {c : Nat} {k : RingCfg} {us : List Upset}

theorem Hub.readout_rests (hrest : h.ringState c ≠ 3 ∨ NMap.get h.outbox (prodRing c) ≠ []) : h.readout c us = h := by
  unfold Hub.readout
  split
  · rfl
  · refine if_pos ?_
    rcases hrest with hst | hout
    · simp [hst]
    · simp [hout]

variable (hd : h.ReadsOut c k)
include hd

/-- The first grant gives the header before its samples. -/
theorem Hub.readout_first (hl : h.LineStored c) (hhdr : (NMap.get h.ring c).hdrDone = false)
    (hus : us.all (fun u => u == noUpset) = true) : ∃ g, g.hdrDone = true ∧ g.pos = (NMap.get h.ring c).grantEnd ∧
      h.readout c us = { (h.pushOut (prodRing c) k.q (captureHeader h c k (NMap.get h.ring c)
          ((h.stockAt (k.addr ((NMap.get h.ring c).pos / 8) + 5)).toNat * 65536000000000 +
            (h.stockAt (k.addr ((NMap.get h.ring c).pos / 8) + 6)).toNat))).pushOut (prodRing c) k.q
          ((h.grantWords k (NMap.get h.ring c)).map (fun w => qword false 1 0 w)) with ring := NMap.set h.ring c g } := by
  obtain ⟨hk, hst, hr, hs, hout⟩ := hd
  obtain ⟨hgone, hheld, hpos⟩ := hl
  unfold Hub.readout
  rw [hk]
  dsimp only
  rw [if_neg (by simp [hst, hr, hs, hout]), hhdr, if_neg Bool.false_ne_true, if_pos hpos, Hub.ringTime_clean hgone hheld hus]
  rw [Hub.ringWords_clean (by exact hgone) (by exact hheld) hus]
  exact ⟨_, rfl, rfl, rfl⟩

/-- A further grant gives samples alone. -/
theorem Hub.readout_line (hl : h.LineStored c) (hhdr : (NMap.get h.ring c).hdrDone = true)
    (hus : us.all (fun u => u == noUpset) = true) : ∃ g, g.pos = (NMap.get h.ring c).grantEnd ∧
      h.readout c us = { h.pushOut (prodRing c) k.q
          ((h.grantWords k (NMap.get h.ring c)).map (fun w => qword false 1 0 w)) with ring := NMap.set h.ring c g } := by
  obtain ⟨hk, hst, hr, hs, hout⟩ := hd
  obtain ⟨hgone, hheld, hpos⟩ := hl
  unfold Hub.readout
  rw [hk]
  dsimp only
  rw [if_neg (by simp [hst, hr, hs, hout]), if_pos hhdr, if_pos hpos]
  rw [Hub.ringWords_clean (by exact hgone) (by exact hheld) hus]
  exact ⟨_, rfl, rfl⟩

/-- Behind the last sample comes the trailer. -/
theorem Hub.readout_trailer (hhdr : (NMap.get h.ring c).hdrDone = true)
    (hend : (NMap.get h.ring c).stop ≤ (NMap.get h.ring c).pos) : ∃ g,
      h.readout c us = { h.pushOut (prodRing c) k.q [qword true 7 0 (w32 (satTo 16 (NMap.get h.ring c).rdLost * 65536 +
        (NMap.get h.ring c).orTag.toNat * 256))] with ring := NMap.set h.ring c g } := by
  obtain ⟨hk, hst, hr, hs, hout⟩ := hd
  unfold Hub.readout
  rw [hk]
  dsimp only
  rw [if_neg (by simp [hst, hr, hs, hout]), if_pos hhdr, if_neg (by omega)]
  exact ⟨_, rfl⟩

end

end Sys2Proof.Machine
end

section
/-! SUPPORT. The statement about rewind rings (R293 to R298). -/

namespace Sys2Proof.Machine
open Sys2Proof

/-- What of a hub shows a ring's state. -/
theorem Hub.ringState_congr {h g : Hub} (e : g.regs = h.regs) (c : Nat) : g.ringState c = h.ringState c :=
  Hub.rd_congr (Hub.reg_congr e _)

/-- A flag of a ring's status beside its state. -/
theorem ringFlag_apart (c : Nat) : (fQRStatusArmRef c).apart (fQRStatusState c) ∧ (fQRStatusFireIgn c).apart (fQRStatusState c) ∧
    (fQRStatusFireIgn c).apart (fQRCountIgnored c) ∧ (fQRCountIgnored c).apart (fQRStatusFireIgn c) ∧
    (fQRCountIgnored c).apart (fQRStatusState c) := by
  simp only [Fld.apart, fQRStatusArmRef, fQRStatusState, fQRStatusFireIgn, fQRCountIgnored, rQRStatus, rQRCount]
  omega

/-- Settles O23: each command by what it does to the ring's record, its lines and its registers, in the case its clause names. -/
theorem rewindRings : Obligations.RewindRings := by
  refine ⟨?_, ?_, ?_, ?_, ?_, ?_, ?_, ?_, ?_, ?_, ?_, ?_⟩
  · -- RING_LINE_WRITE
    intro s c k l x hk hline hlen hs
    have hwrite := Hub.ringLine_stores hk (by rw [hline, List.length_cons]; omega) hs
    rw [hline, List.length_cons] at hwrite
    obtain ⟨hdata, hhigh, hlow⟩ := s.hub.storeRing_line k (((NMap.get s.hub.ring c).next - (l.length + 1)) / 8) x l
    have hstock : (latchIrq s.hub s.met (s.hub.ringLine c) s.met).stockAt =
        (s.hub.storeRing k (((NMap.get s.hub.ring c).next - (l.length + 1)) / 8) (x :: l)).stockAt := by
      refine Hub.stockAt_congr ?_ ?_
      · rw [latchIrq_stock, hwrite]
      · rw [latchIrq_stockFill, hwrite, Hub.storeRing_records]
    refine ⟨_, rfl, ?_, ?_, ?_, ?_, fun a ha => ?_⟩
    · dsimp only
      rw [latchIrq_ring, hwrite]
      exact NMap.get_set_same ..
    · refine .trans ?_ hdata
      unfold Hub.lineData
      dsimp only
      rw [hstock]
    · exact (congrFun hstock _).trans hhigh
    · exact (congrFun hstock _).trans hlow
    · dsimp only
      rw [latchIrq_reg _ _ _ _ ha]
      exact Hub.reg_congr (by rw [hwrite]) a
  · -- RING_LINE_WRITE without a ring or below a line
    intro s c hrest
    refine ⟨_, rfl, ?_⟩
    dsimp only
    rw [Hub.ringLine_rests hrest, latchIrq_ring, latchIrq_stock]
    exact ⟨rfl, rfl, fun a ha => latchIrq_reg _ _ _ _ ha⟩
  · -- RING_ARM of an idle ring
    intro s c hans hk hst hign
    refine ⟨_, rfl, ?_⟩
    dsimp only
    rw [Hub.atReg_answers _ hans, Hub.ringArm_idle hk hst hign, latchIrq_ringState, latchIrq_ring, Hub.ringState_wr _ _ (by decide)]
    exact ⟨rfl, rfl, fun a ⟨hwake, hne⟩ => (latchIrq_reg _ _ _ _ hwake).trans (Hub.reg_wr_ne _ _ _ hne)⟩
  · -- RING_ARM of an armed ring
    intro s c hans hk hst
    refine ⟨_, rfl, ?_⟩
    dsimp only
    rw [Hub.atReg_answers _ hans, Hub.ringArm_armed hst, latchIrq_ringState, latchIrq_ring]
    exact ⟨hst, rfl, fun a ha => latchIrq_reg _ _ _ _ ha⟩
  · -- RING_ARM during a capture or its read-out
    intro s c hans hk hst
    refine ⟨_, rfl, ?_⟩
    dsimp only
    rw [Hub.atReg_answers _ hans, Hub.ringArm_busy hk hst, latchIrq_ringState, latchIrq_ring,
      latchIrq_is _ _ _ _ (ringStatus_ne_wake c)]
    exact ⟨Hub.is_on_same _ (by simp [fQRStatusArmRef]) (by simp [fQRStatusArmRef]), Hub.rd_on_apart _ (ringFlag_apart c).1, rfl⟩
  · -- RING_FIRE of an armed ring
    intro s c k hans hk hst
    refine ⟨_, rfl, ?_⟩
    dsimp only
    rw [Hub.atReg_answers _ hans, Hub.ringFire_armed hk hst, latchIrq_ringState, latchIrq_ring]
    exact ⟨Hub.ringState_wr _ _ (by decide), s.hub.ringTrigger_ring c k⟩
  · -- RING_FIRE of a ring that is not armed
    intro s c hans hk hst
    obtain ⟨-, hign, hcount, hflag, hstate⟩ := ringFlag_apart c
    obtain ⟨rs, hfire⟩ := Hub.ringFire_ignored hk hst
    obtain ⟨hflagged, hcounted⟩ := Hub.flagged_counted { s.hub with ring := rs } hcount hflag rfl
    refine ⟨_, rfl, ?_⟩
    dsimp only
    rw [Hub.atReg_answers _ hans, hfire, latchIrq_ringState, latchIrq_is _ _ _ _ (ringStatus_ne_wake c),
      latchIrq_rd _ _ _ _ (ringCount_ne_wake c)]
    refine ⟨hflagged, hcounted, ?_⟩
    exact (Hub.rd_wr_apart _ _ hstate).trans ((Hub.rd_on_apart _ hign).trans (Hub.ringState_congr rfl c))
  · -- RING_ARM and RING_FIRE of a context without a ring
    intro s c hans hk
    refine ⟨{ s with hub := latchIrq s.hub s.met s.hub s.met }, ?_, ?_, latchIrq_ring .., fun a ha => latchIrq_reg _ _ _ _ ha⟩
    · refine congrArg (fun h => Host.Outcome.next { s with hub := latchIrq s.hub s.met h s.met }) ?_
      exact (Hub.atReg_answers _ hans).trans (Hub.ringArm_none hk)
    · refine congrArg (fun h => Host.Outcome.next { s with hub := latchIrq s.hub s.met h s.met }) ?_
      exact (Hub.atReg_answers _ hans).trans (Hub.ringFire_none hk)
  · -- CAPTURE_READOUT, the first line
    intro s c k us hk hst hr hs hout hhdr hgone hheld hleft hus
    obtain ⟨g, hdone, hpos, hread⟩ := Hub.readout_first ⟨hk, hst, hr, hs, hout⟩ ⟨hgone, hheld, hleft⟩ hhdr hus
    refine ⟨_, rfl, ?_⟩
    dsimp only
    rw [latchIrq_ringState, latchIrq_ring, latchIrq_outbox, hread]
    dsimp only
    rw [NMap.get_set_same, Hub.get_outbox_pushOut, Hub.get_outbox_pushOut, hout, List.nil_append, ← List.map_append]
    exact ⟨hdone, hpos, rfl, hst⟩
  · -- CAPTURE_READOUT of a further line
    intro s c k us hk hst hr hs hout hhdr hgone hheld hleft hus
    obtain ⟨g, hpos, hread⟩ := Hub.readout_line ⟨hk, hst, hr, hs, hout⟩ ⟨hgone, hheld, hleft⟩ hhdr hus
    refine ⟨_, rfl, ?_⟩
    dsimp only
    rw [latchIrq_ringState, latchIrq_ring, latchIrq_outbox, hread]
    dsimp only
    rw [NMap.get_set_same, Hub.get_outbox_pushOut, hout, List.nil_append, List.map_map]
    exact ⟨hpos, rfl, hst⟩
  · -- CAPTURE_READOUT, the trailer
    intro s c k us hk hst hr hs hout hhdr hend
    obtain ⟨g, hread⟩ := Hub.readout_trailer ⟨hk, hst, hr, hs, hout⟩ hhdr hend
    refine ⟨_, rfl, ?_⟩
    dsimp only
    rw [latchIrq_ringState, latchIrq_outbox, hread]
    dsimp only
    rw [Hub.get_outbox_pushOut, hout, List.nil_append]
    exact ⟨rfl, hst⟩
  · -- CAPTURE_READOUT outside a read-out, or while words of it wait for the queue
    intro s c us hrest
    refine ⟨_, rfl, ?_⟩
    dsimp only
    rw [Hub.readout_rests hrest, latchIrq_ring, latchIrq_outbox]
    exact ⟨rfl, rfl, fun a ha => latchIrq_reg _ _ _ _ ha⟩

end Sys2Proof.Machine
end

section
/-! SUPPORT. The passing of TCLK cycles: what a timebase holds after it, and a step without a command (R307, R311, R312). -/

namespace Sys2Proof.Machine
open Sys2Proof

/-! ### One timebase -/

/-- A timebase after `n` ticks: its value, and the slew ticks then left (R307, R311). -/
def Hub.tbTicked (h : Hub) (k n : Nat) : TimeBase :=
  { NMap.get h.tb k with
    val := tbAfter (NMap.get h.tb k).val (NMap.get h.tb k).slewTicks (h.tbIncr k) (signedOf (h.rd (fTmTbSlewAdjSlewAdj k)) 32) n
    slewTicks := (NMap.get h.tb k).slewTicks - n }

theorem Hub.tickTb_own (h : Hub) {k : Nat} (hk : k ≠ 17) (n : Nat) : NMap.get (h.tickTb k n).tb k = h.tbTicked k n := by
  unfold Hub.tickTb
  rw [if_neg hk]
  dsimp only
  rw [NMap.get_modify_same]
  rfl

theorem Hub.tickTb_others (h : Hub) {k j : Nat} (hj : j ≠ k) (n : Nat) : NMap.get (h.tickTb k n).tb j = NMap.get h.tb j := by
  unfold Hub.tickTb
  split
  · split <;> rfl
  · dsimp only
    rw [NMap.get_modify_ne _ _ hj]

theorem Hub.tickTb_latch (h : Hub) (k n j : Nat) : (NMap.get (h.tickTb k n).tb j).latch = (NMap.get h.tb j).latch := by
  by_cases hj : j = k
  · by_cases hk : k = 17
    · unfold Hub.tickTb
      rw [if_pos hk]
      split <;> rfl
    · rw [hj, h.tickTb_own hk]
      rfl
  · rw [h.tickTb_others hj]

theorem Hub.tickTb_records (h : Hub) (k n : Nat) :
    h.tickTb k n = { h with tb := (h.tickTb k n).tb, tbMet := (h.tickTb k n).tbMet } := by
  unfold Hub.tickTb
  split
  · split <;> rfl
  · rfl

/-! ### All of them -/

theorem Hub.tickN_stopped {h : Hub} (hg : h.clk.gates = false) (n : Nat) : h.tickN n = h := if_pos (by simp [hg])

theorem Hub.tickN_runs {h : Hub} (hg : h.clk.gates = true) {n : Nat} (hn : n ≠ 0) :
    h.tickN n = (List.range 18).foldl (fun a k => a.tickTb k n) { h with cyc := h.cyc + n } := if_neg (by simp [hg, hn])

/-- Of the hub the cycle counter, the timebases and the copy of tb_met change. -/
theorem Hub.tickN_records (h : Hub) (n : Nat) :
    h.tickN n = { h with cyc := (h.tickN n).cyc, tb := (h.tickN n).tb, tbMet := (h.tickN n).tbMet } := by
  unfold Hub.tickN
  split
  · rfl
  · refine List.foldlRecOn (motive := fun a : Hub => a = { h with cyc := a.cyc, tb := a.tb, tbMet := a.tbMet }) _ _ rfl
      fun a ha k _ => ?_
    rw [a.tickTb_records k n, ha]

theorem Hub.tickN_latch (h : Hub) (n j : Nat) : (NMap.get (h.tickN n).tb j).latch = (NMap.get h.tb j).latch := by
  unfold Hub.tickN
  split
  · rfl
  · exact foldl_keep (fun a => (NMap.get a.tb j).latch) _ (fun a k => a.tickTb_latch k n j) _ _

/-- Each timebase of the hub ticks once in every cycle. -/
theorem Hub.tickN_own {h : Hub} (hg : h.clk.gates = true) {n : Nat} (hn : n ≠ 0) {k : Nat} (hk : k < 17) :
    NMap.get (h.tickN n).tb k = h.tbTicked k n := by
  rw [Hub.tickN_runs hg hn]
  refine foldl_turns (P := fun a => NMap.get a.tb k = NMap.get h.tb k ∧ a.regs = h.regs)
    (Q := fun a => NMap.get a.tb k = h.tbTicked k n) List.nodup_range (List.mem_range.2 (by omega : k < 18))
    (fun a j hj ha => ⟨(a.tickTb_others hj.symm n).trans ha.1, (a.tickTb_regs j n).trans ha.2⟩)
    (fun a ha => ?_) (fun a j hj ha => (a.tickTb_others hj.symm n).trans ha) ⟨rfl, rfl⟩
  obtain ⟨htb, hregs⟩ := ha
  rw [a.tickTb_own (by omega), Hub.tbTicked, htb, Hub.tbIncr, Hub.rd_congr (Hub.reg_congr hregs _),
    Hub.rd_congr (Hub.reg_congr hregs _), Hub.rd_congr (Hub.reg_congr hregs _)]
  rfl

theorem Hub.tbVal_hub (h : Hub) {k : Nat} (hk : k ≠ 17) : h.tbVal k = (NMap.get h.tb k).val := if_neg hk

/-- One tick adds the increment, and the slew while it runs. -/
theorem Hub.tbTicked_once (h : Hub) {k : Nat} (hk : k ≠ 17) : (h.tbTicked k 1).val = h.tbNext k := by
  unfold Hub.tbTicked Hub.tbNext Hub.tbAdd tbAfter
  rw [if_neg hk, h.tbVal_hub hk]
  dsimp only
  by_cases hs : (NMap.get h.tb k).slewTicks = 0
  · rw [if_pos hs, hs]
    simp
  · rw [if_neg hs, Nat.min_eq_left (Nat.pos_of_ne_zero hs)]
    simp

/-! ### A step without a command -/

/-- Settles O46: the cycle passes by `Hub.tickN`, read behind the interrupt latch. -/
theorem idleCycle : Obligations.IdleCycle := by
  intro s hp
  have hstep : step s = idle s := by
    unfold step
    rw [hp]
  refine ⟨_, hstep, rfl, rfl, hp, ?_, fun a ha => ?_, fun hg hs => ?_, fun hstands => ?_⟩ <;>
    simp only [latchIrq_cyc, latchIrq_tb, latchIrq_tbMet]
  · split
    · exact latchIrq_eq _ _ _ _
    · exact latchIrq_eq_of (s.hub.tickN_records 1)
  · rw [latchIrq_reg _ _ _ _ ha]
    split
    · rfl
    · exact s.hub.tickN_reg 1 a
  · rw [hs, if_neg Bool.false_ne_true]
    refine ⟨s.hub.tickN_cyc 1 hg, fun n hn => ?_⟩
    rw [Hub.tbVal_hub _ (by omega), latchIrq_tb, Hub.tickN_own hg (by decide) hn, s.hub.tbTicked_once (by omega)]
  · have hrest : (if s.hub.asleep then s.hub else s.hub.tickN 1) = s.hub := by
      rcases hstands with hg | hs
      · rw [Hub.tickN_stopped hg, ite_self]
      · exact if_pos hs
    rw [hrest]
    exact ⟨rfl, rfl, rfl⟩

/-! ### The words of a timebase's value -/

/-- The registers of timebase `n` that the host reads: `now0` latches, `now1` to `now3` give the latched words. -/
theorem readTm_now0 (h : Hub) {n : Nat} (hn : n < 18) : readTm h (0x1C0000 + 0x40 * n) = h.nowRead n := by
  have hunit : (0x1C0000 + 0x40 * n - 0x1C0000) / 0x40 = n := by omega
  have hoff : (0x1C0000 + 0x40 * n - 0x1C0000) % 0x40 = 0 := by omega
  unfold readTm
  rw [if_pos (by omega), hunit, hoff]
  rfl

theorem readTm_latched (h : Hub) {n k : Nat} (hn : n < 18) (h0 : 0 < k) (h4 : k < 4) :
    readTm h (0x1C0000 + 0x40 * n + 4 * k) = (latchedWord (NMap.get h.tb n).latch k, h) := by
  have hunit : (0x1C0000 + 0x40 * n + 4 * k - 0x1C0000) / 0x40 = n := by omega
  have hoff : (0x1C0000 + 0x40 * n + 4 * k - 0x1C0000) % 0x40 = 4 * k := by omega
  unfold readTm
  rw [if_pos (by omega), hunit, hoff]
  dsimp only
  rw [if_neg (by omega), if_pos (by omega), Nat.mul_div_cancel_left _ (by decide)]

theorem Hub.nowRead_latch (h : Hub) (n : Nat) : (NMap.get (h.nowRead n).2.tb n).latch = report (h.tbVal n) :=
  congrArg TimeBase.latch (NMap.get_modify_same h.tb n fun x => { x with latch := report (h.tbVal n) })

/-- Settles O59: a later read gives the word of the latch, which the passing of cycles leaves. -/
theorem timebaseLatch : Obligations.TimebaseLatch := by
  refine ⟨fun s n m hans => ⟨_, rfl, ?_, fun k ⟨h0, h4⟩ => ?_⟩, fun fx h m n => readTm_now0 h n.isLt⟩ <;> dsimp only
  · rw [Hub.readOf_answers _ hans, latchIrq_host]
    rfl
  · rw [Hub.readOf_answers _ hans]
    refine (readTm_latched _ n.isLt h0 h4).trans ?_
    rw [Hub.tickN_latch, latchIrq_tb, Hub.toHost_tb, s.hub.nowRead_latch]
    rfl

end Sys2Proof.Machine
end

section
/-! SUPPORT. Timebases, TRG outputs and TACH inputs: reads that latch, slews, pulses and edges (R307, R311, R312, R316 to R318). -/

namespace Sys2Proof.Machine
open Sys2Proof

/-! ### Values of timebases -/

@[simp] theorem latchIrq_tbVal (h0 : Hub) (m0 : Met) (h : Hub) (m : Met) (k : Nat) :
    (latchIrq h0 m0 h m).tbVal k = h.tbVal k := by
  unfold Hub.tbVal
  rw [latchIrq_tb, latchIrq_tbMet]

/-- Reading a value leaves it. -/
theorem Hub.nowRead_tbVal (h : Hub) (n : Nat) : (h.nowRead n).2.tbVal n = h.tbVal n := by
  unfold Hub.tbVal
  split
  · rfl
  · exact (congrArg TimeBase.val (NMap.get_modify_same h.tb n fun x => { x with latch := report (h.tbVal n) })).trans rfl

/-! ### TRG outputs (R316) -/

theorem Hub.trgEnd_none {h : Hub} {k : Nat} (hk : NMap.get h.trg k = 0) : h.trgEnd k = h := if_pos hk

theorem Hub.trgEnd_ends {h : Hub} {k : Nat} (hk : NMap.get h.trg k ≠ 0) :
    h.trgEnd k = { h.reach (NMap.get h.trg k) with trg := NMap.set (h.reach (NMap.get h.trg k)).trg k 0 } := if_neg hk

/-! ### Edges of a TACH input (R317, R318) -/

/-- The edge is one of those the input's polarity asks for. -/
abbrev Hub.tachWants (h : Hub) (t : Nat) (rising : Bool) : Prop :=
  h.cf 10 16 (2 * t) 0 2 = 3 ∨ h.cf 10 16 (2 * t) 0 2 = 1 ∧ rising = true ∨ h.cf 10 16 (2 * t) 0 2 = 2 ∧ rising = false

/-- An edge against the polarity is nothing. -/
theorem Hub.tachEdge_against {h : Hub} {t : Nat} {rising : Bool}
    (hpol : h.cf 10 16 (2 * t) 0 2 = 0 ∨ h.cf 10 16 (2 * t) 0 2 = 1 ∧ rising = false ∨
      h.cf 10 16 (2 * t) 0 2 = 2 ∧ rising = true) : h.tachEdge t rising = h := by
  unfold Hub.tachEdge
  rcases hpol with e | ⟨e, hr⟩ | ⟨e, hr⟩ <;> exact if_pos (by simp [*])

theorem Hub.tachWants.heard {h : Hub} {t : Nat} {rising : Bool} (hpol : h.tachWants t rising) :
    ¬(!(h.cf 10 16 (2 * t) 0 2 == 3 || (h.cf 10 16 (2 * t) 0 2 == 1 && rising) ||
      (h.cf 10 16 (2 * t) 0 2 == 2 && !rising))) = true := by
  rcases hpol with e | ⟨e, hr⟩ | ⟨e, hr⟩ <;> simp [*]

/-- An edge inside the hold-off is counted as rejected. -/
theorem Hub.tachEdge_rejected {h : Hub} {t : Nat} {rising : Bool} (hpol : h.tachWants t rising)
    (hany : (NMap.get h.tach t).any = true)
    (hgap : h.cyc - (NMap.get h.tach t).lastCyc < 16 * h.cf 10 16 (2 * t) 2 16) :
    h.tachEdge t rising = h.countSat (fTmTachCountRej t) 1 := by
  unfold Hub.tachEdge
  exact (if_neg hpol.heard).trans (if_pos (by simp [hany, hgap]))

/-- The value of every timebase now. -/
def Hub.stampsNow (h : Hub) : NMap Nat := (List.range 18).foldl (fun m k => NMap.set m k (report (h.tbVal k))) []

/-- The input with an edge of now, stamped on every timebase, as its last. -/
def Hub.tachNow (h : Hub) (t : Nat) : Tach :=
  { NMap.get h.tach t with any := true, lastCyc := h.cyc, stamps := h.stampsNow }

/-- The hub with that edge kept. -/
def Hub.tachKept (h : Hub) (t : Nat) : Hub := { h with tach := NMap.set h.tach t (h.tachNow t) }

/-- The edge kept and counted, and its period measured from the one before. -/
def Hub.tachTaken (h : Hub) (t : Nat) : Hub :=
  if (NMap.get h.tach t).any then
    ((h.tachKept t).count (fTmTachCountQual t) 1).wr (fTmTachPeriodPeriod t) (satTo 32 (h.cyc - (NMap.get h.tach t).lastCyc))
  else (h.tachKept t).count (fTmTachCountQual t) 1

/-- An edge outside the hold-off is taken, presented two cycles on and given to the ORDER stages. -/
theorem Hub.tachEdge_qualifies {h : Hub} {t : Nat} {rising : Bool} (hpol : h.tachWants t rising)
    (hgap : (NMap.get h.tach t).any = false ∨ 16 * h.cf 10 16 (2 * t) 2 16 ≤ h.cyc - (NMap.get h.tach t).lastCyc) :
    h.tachEdge t rising =
      ((h.tachTaken t).tachToStages t (fun k => report (h.tbVal k))).presentCode (0x5000 + t) (h.cyc + 2) := by
  unfold Hub.tachEdge
  refine (if_neg hpol.heard).trans (if_neg ?_)
  rcases hgap with hany | hle
  · simp [hany]
  · simp [hle]

theorem NMap.get_foldl_set {α : Type} [Inhabited α] [DecidableEq α] (f : Nat → α) (l : List Nat) (m : NMap α) (k : Nat) :
    NMap.get (l.foldl (fun m k => NMap.set m k (f k)) m) k = if k ∈ l then f k else NMap.get m k := by
  induction l generalizing m with
  | nil => simp
  | cons x l ih =>
    rw [List.foldl_cons, ih]
    by_cases hx : k = x
    · simp [hx]
    · rw [NMap.get_set_ne _ _ hx]
      simp [hx]

theorem Hub.stampsNow_get (h : Hub) {k : Nat} (hk : k ∈ List.range 18) : NMap.get h.stampsNow k = report (h.tbVal k) :=
  (NMap.get_foldl_set (fun k => report (h.tbVal k)) _ [] k).trans (if_pos hk)

theorem Hub.tachKept_tach (h : Hub) (t : Nat) : NMap.get (h.tachKept t).tach t = h.tachNow t :=
  NMap.get_set_same h.tach t (h.tachNow t)

theorem Hub.tachTaken_tach (h : Hub) (t : Nat) : (h.tachTaken t).tach = (h.tachKept t).tach := by
  unfold Hub.tachTaken
  split <;> rfl

/-- The period is not in the register of the counts. -/
theorem tachPeriod_ne_count (t : Nat) : (fTmTachPeriodPeriod t).addr ≠ (fTmTachCountQual t).addr := by
  simp only [fTmTachPeriodPeriod, fTmTachCountQual, rTmTachPeriod, rTmTachCount]
  omega

theorem Hub.tachTaken_count (h : Hub) (t : Nat) :
    (h.tachTaken t).rd (fTmTachCountQual t) = (h.rd (fTmTachCountQual t) + 1) % 65536 := by
  have hcount : ((h.tachKept t).count (fTmTachCountQual t) 1).rd (fTmTachCountQual t) =
      (h.rd (fTmTachCountQual t) + 1) % 65536 := Hub.rd_count_same _ 1 (by simp [fTmTachCountQual])
  unfold Hub.tachTaken
  split
  · rwa [Hub.rd_wr_addr _ _ (tachPeriod_ne_count t).symm]
  · exact hcount

theorem Hub.tachTaken_period (h : Hub) (t : Nat) :
    (h.tachTaken t).rd (fTmTachPeriodPeriod t) = if (NMap.get h.tach t).any then
      satTo 32 (h.cyc - (NMap.get h.tach t).lastCyc) else h.rd (fTmTachPeriodPeriod t) := by
  have hle := satTo_le 32 (h.cyc - (NMap.get h.tach t).lastCyc)
  unfold Hub.tachTaken
  split
  · exact (Hub.rd_wr_same _ _ (by simp [fTmTachPeriodPeriod])).trans
      (Nat.mod_eq_of_lt (by simp only [fTmTachPeriodPeriod]; omega))
  · exact Hub.rd_congr (Hub.reg_count_ne _ _ _ (tachPeriod_ne_count t))

/-- Stamps reach the stages alone. -/
theorem Hub.tachToStages_records (h : Hub) (t : Nat) (stamp : Nat → Nat) :
    h.tachToStages t stamp = { h with stg := (h.tachToStages t stamp).stg } := by
  unfold Hub.tachToStages
  refine List.foldlRecOn (motive := fun a : Hub => a = { h with stg := a.stg }) _ _ rfl fun a ha u _ => ?_
  refine List.foldlRecOn (motive := fun a : Hub => a = { h with stg := a.stg }) _ _ ha fun b hb x _ => ?_
  refine List.foldlRecOn (motive := fun a : Hub => a = { h with stg := a.stg }) _ _ hb fun d hd i _ => ?_
  split
  · rw [hd]
    rfl
  · exact hd

@[simp] theorem Hub.tachToStages_tach (h : Hub) (t : Nat) (stamp : Nat → Nat) : (h.tachToStages t stamp).tach = h.tach := by
  rw [h.tachToStages_records]

@[simp] theorem Hub.tachToStages_rd (h : Hub) (t : Nat) (stamp : Nat → Nat) (f : Fld) :
    (h.tachToStages t stamp).rd f = h.rd f := by
  rw [h.tachToStages_records]
  rfl

/-! ### The statement -/

/-- Settles O25: each command by its outcome in the case its clause names, read behind the interrupt latch. -/
theorem timebases : Obligations.Timebases := by
  refine ⟨?_, ?_, ?_, ?_, ?_, ?_, ?_, ?_, ?_⟩
  · -- TM_NOW_READ
    intro s n hans
    refine ⟨_, rfl, ?_⟩
    dsimp only
    rw [Hub.readOf_answers _ hans, latchIrq_host, latchIrq_tb, latchIrq_tbVal]
    exact ⟨rfl, s.hub.nowRead_latch n, s.hub.nowRead_tbVal n, fun a ha => latchIrq_reg _ _ _ _ ha⟩
  · -- SLEW_END: the slew's ticks have passed
    intro s n hg hslew
    have hn : n.castSucc.val ≠ 17 := n.isLt.ne
    have hown := Hub.tickN_own hg hslew n.isLt
    refine ⟨_, rfl, ?_⟩
    dsimp only
    rw [if_neg hn, Fin.val_castSucc, latchIrq_tb, latchIrq_cyc, latchIrq_tbVal, Hub.tbVal_hub _ n.isLt.ne,
      Hub.tbVal_hub _ n.isLt.ne, hown]
    exact ⟨Nat.sub_self _, s.hub.tickN_cyc _ hg, rfl, fun a ha => (latchIrq_reg _ _ _ _ ha).trans (s.hub.tickN_reg _ a)⟩
  · -- SLEW_END of a timebase that does not slew
    intro s n hrest
    have hzero : (if n.val = 17 then 0 else (NMap.get s.hub.tb n).slewTicks) = 0 := ite_eq_left_iff.2 hrest.resolve_left
    refine ⟨_, rfl, ?_⟩
    dsimp only
    rw [hzero, Hub.tickN_zero, latchIrq_tb, latchIrq_cyc]
    exact ⟨rfl, rfl, fun a ha => latchIrq_reg _ _ _ _ ha⟩
  · -- TRG_PULSE_END
    intro s k hk
    refine ⟨_, rfl, ?_⟩
    dsimp only
    rw [Hub.trgEnd_ends hk, latchIrq_trg, latchIrq_cyc]
    exact ⟨NMap.get_set_same (s.hub.reach _).trg k.val 0, fun hg => s.hub.reach_cyc _ hg,
      fun a ha => (latchIrq_reg _ _ _ _ ha).trans (s.hub.reach_reg _ a)⟩
  · -- TRG_PULSE_END with no pulse
    intro s k hk
    refine ⟨_, rfl, ?_⟩
    dsimp only
    rw [Hub.trgEnd_none hk, latchIrq_trg, latchIrq_cyc]
    exact ⟨rfl, rfl, fun a ha => latchIrq_reg _ _ _ _ ha⟩
  · -- TACH_EDGE that qualifies
    intro s i rising hconf hpol hgap
    refine ⟨_, rfl, ?_⟩
    dsimp only
    rw [if_pos hconf, Hub.tachEdge_qualifies hpol hgap, latchIrq_tach, latchIrq_rd _ _ _ _ (evReg_ne_wake (by decide)),
      latchIrq_rd _ _ _ _ (evReg_ne_wake (by decide)), Hub.presentCode_tach,
      Hub.presentCode_rd _ _ _ (.inr (by simp only [fTmTachCountQual, rTmTachCount]; omega)),
      Hub.presentCode_rd _ _ _ (.inr (by simp only [fTmTachPeriodPeriod, rTmTachPeriod]; omega)), Hub.tachToStages_tach,
      Hub.tachToStages_rd, Hub.tachToStages_rd, Hub.tachTaken_tach, Hub.tachKept_tach, Hub.tachTaken_count,
      Hub.tachTaken_period]
    exact ⟨rfl, rfl, fun k hk => s.hub.stampsNow_get hk, rfl, rfl⟩
  · -- TACH_EDGE inside the hold-off: rejected
    intro s i rising hconf hpol hany hgap
    refine ⟨_, rfl, ?_⟩
    dsimp only
    rw [if_pos hconf, Hub.tachEdge_rejected hpol hany hgap, latchIrq_rd _ _ _ _ (evReg_ne_wake (by decide)), latchIrq_tach,
      latchIrq_ev]
    exact ⟨Hub.rd_countSat_same _ _ (by simp [fTmTachCountRej]), rfl, rfl⟩
  · -- TACH_EDGE against the polarity, or before a structure is loaded
    intro s i rising hrest
    have hnone : (if s.hub.is fLdrStatusConfigured then s.hub.tachEdge i rising else s.hub) = s.hub := by
      rcases hrest with hconf | hpol
      · exact if_neg (by simp [hconf])
      · rw [Hub.tachEdge_against hpol, ite_self]
    refine ⟨_, rfl, ?_⟩
    dsimp only
    rw [hnone, latchIrq_tach, latchIrq_ev]
    exact ⟨rfl, rfl, fun a ha => latchIrq_reg _ _ _ _ ha⟩
  · -- TACH_STAMP_READ
    intro s i hans
    refine ⟨_, rfl, ?_⟩
    dsimp only
    rw [Hub.readOf_answers _ hans, latchIrq_host, latchIrq_tach]
    exact ⟨rfl, congrArg Tach.latch (NMap.get_modify_same s.hub.tach i.val fun x => { x with latch := s.hub.tachStamp i }),
      fun a ha => latchIrq_reg _ _ _ _ ha⟩

end Sys2Proof.Machine
end

section
/-! SUPPORT. Triggers: their due times, and the targets they fire (R313 to R316). -/

namespace Sys2Proof.Machine
open Sys2Proof

/-! ### The enable bit (R313) -/

theorem Hub.tgEnable_off {h : Hub} {g : Nat} {on : Bool} (hoff : on = false ∨ h.tgPeriod g = 0) :
    h.tgEnable g on = h.off (fTmTgCtlEnable g) := by
  unfold Hub.tgEnable
  rcases hoff with e | e
  · rw [e]
    rfl
  · rw [if_pos e, ite_self]

theorem Hub.tgEnable_again {h : Hub} {g : Nat} (hper : h.tgPeriod g ≠ 0) (hon : h.is (fTmTgCtlEnable g) = true) :
    h.tgEnable g true = h := by
  unfold Hub.tgEnable
  rw [if_neg (by decide), if_neg hper, if_pos hon]

theorem Hub.tgEnable_arms {h : Hub} {g : Nat} (hper : h.tgPeriod g ≠ 0) (hon : h.is (fTmTgCtlEnable g) = false) :
    h.tgEnable g true = (h.on (fTmTgCtlEnable g)).armTrig g := by
  unfold Hub.tgEnable
  rw [if_neg (by decide), if_neg hper, if_neg (by simp [hon])]

/-- A trigger's grid and its timebase behind the write of a register. -/
theorem Hub.wr_tgPeriod (h : Hub) (f : Fld) (n g : Nat) : (h.wr f n).tgPeriod g = h.tgPeriod g := rfl
theorem Hub.wr_tgPhase (h : Hub) (f : Fld) (n g : Nat) : (h.wr f n).tgPhase g = h.tgPhase g := rfl
theorem Hub.wr_tgTb (h : Hub) (f : Fld) (n g : Nat) : (h.wr f n).tgTb g = h.tgTb g := rfl
theorem Hub.wr_tbVal (h : Hub) (f : Fld) (n k : Nat) : (h.wr f n).tbVal k = h.tbVal k := rfl

theorem Hub.armTrig_due (h : Hub) (f : Fld) (n g : Nat) : (NMap.get ((h.wr f n).armTrig g).trig g).due =
    firstGrid (h.tgPeriod g) (h.tgPhase g) (h.tbVal (h.tgTb g)) := by
  unfold Hub.armTrig
  rw [NMap.get_set_same, Hub.wr_tgPeriod, Hub.wr_tgPhase, Hub.wr_tgTb, Hub.wr_tbVal]

/-- Of the hub a new due time changes the triggers alone. -/
theorem Hub.armTrig_records (h : Hub) (g : Nat) : ∃ t, h.armTrig g = { h with trig := t } := ⟨_, rfl⟩

theorem Hub.armTrig_reg (h : Hub) (g a : Nat) : (h.armTrig g).reg a = h.reg a := by
  obtain ⟨t, e⟩ := h.armTrig_records g
  rw [e]
  rfl

/-! ### A due time (R314) -/

/-- A due time its timebase has reached is reached now. -/
theorem Hub.reachDue_past {h : Hub} {k due : Nat} (hd : due * 2 ^ 32 ≤ h.tbVal k) : h.reachDue k due = h := if_pos hd

/-- A trigger on its next grid point, those it passed counted as missed. -/
def Hub.tgNext (h : Hub) (g : Nat) : Hub :=
  (h.countSat (fTmTgStMissed g) (gridAfter (h.tgPeriod g) (NMap.get h.trig g).due (h.tbVal (h.tgTb g)))).armTrig g

theorem Hub.tgNext_due (h : Hub) (g : Nat) :
    (NMap.get (h.tgNext g).trig g).due = firstGrid (h.tgPeriod g) (h.tgPhase g) (h.tbVal (h.tgTb g)) := h.armTrig_due _ _ g

theorem Hub.tgNext_missed (h : Hub) (g : Nat) : (h.tgNext g).rd (fTmTgStMissed g) =
    satTo 16 (h.rd (fTmTgStMissed g) + gridAfter (h.tgPeriod g) (NMap.get h.trig g).due (h.tbVal (h.tgTb g))) := by
  unfold Hub.tgNext
  rw [Hub.rd_congr (Hub.armTrig_reg _ _ _), Hub.rd_countSat_same _ _ (by simp [fTmTgStMissed])]
  rfl

theorem Hub.tgNext_records (h : Hub) (g : Nat) : ∃ r t, h.tgNext g = { h with regs := r, trig := t } := by
  unfold Hub.tgNext
  obtain ⟨t, e⟩ := Hub.armTrig_records _ g
  rw [e]
  exact ⟨_, t, rfl⟩

theorem Hub.tgNext_cyc (h : Hub) (g : Nat) : (h.tgNext g).cyc = h.cyc := by
  obtain ⟨r, t, e⟩ := h.tgNext_records g
  rw [e]

theorem Hub.tgNext_cell (h : Hub) (g x y z : Nat) : (h.tgNext g).cell x y z = h.cell x y z := by
  obtain ⟨r, t, e⟩ := h.tgNext_records g
  rw [e]
  rfl

theorem Hub.triggerDue_rests {h : Hub} {g : Nat} (hoff : h.tgOn g = false) (fx : Fixed) : h.triggerDue fx g = h :=
  if_neg (by simp [hoff])

/-- A trigger whose due time has come takes the next one and fires its targets. -/
theorem Hub.triggerDue_fires {h : Hub} {g : Nat} (hon : h.tgOn g = true)
    (hd : (NMap.get h.trig g).due * 2 ^ 32 ≤ h.tbVal (h.tgTb g)) (fx : Fixed) :
    h.triggerDue fx g = (h.tgNext g).fireTargets fx g (((NMap.get h.trig g).due - h.tgPhase g) / h.tgPeriod g) := by
  have hper : h.tgPeriod g ≠ 0 := by
    simp only [Hub.tgOn, Bool.and_eq_true, bne_iff_ne] at hon
    exact hon.2
  unfold Hub.triggerDue Hub.tgNext
  rw [if_pos hon]
  dsimp only
  rw [Hub.reachDue_past hd, if_pos hd]
  unfold Hub.tgFire
  dsimp only
  rw [if_neg Bool.false_ne_true, if_neg Bool.false_ne_true, if_neg hper]

/-! ### Targets (R315, R316) -/

/-- A field of bits the word does not reach. -/
theorem fieldOf_above {w : Word} {lo : Nat} (len : Nat) (hw : w.toNat < 2 ^ lo) : fieldOf w lo len = 0 := by
  unfold fieldOf
  rw [BitVec.extractLsb'_toNat, Nat.shiftRight_eq_div_pow, Nat.div_eq_of_lt hw, Nat.zero_mod]

theorem Hub.trgPulse_cells (h : Hub) (k : Nat) : (h.trgPulse k).cells = h.cells := by
  unfold Hub.trgPulse
  dsimp only
  (repeat' split) <;> simp

theorem Hub.trgPulse_trig (h : Hub) (k : Nat) : (h.trgPulse k).trig = h.trig := by
  unfold Hub.trgPulse
  dsimp only
  (repeat' split) <;> simp

theorem Hub.fireTargets_none {h : Hub} {g : Nat} (hcell : h.cell 10 16 (0x25 + 6 * g) = 0#32) (fx : Fixed) (k : Nat) :
    h.fireTargets fx g k = h := by
  refine List.foldlRecOn (motive := fun a : Hub => a = h) _ _ rfl fun a ha i _ => ?_
  have ht : a.cf 10 16 (0x25 + 6 * g) (8 * i) 8 = 0 := by
    rw [ha, Hub.cf, hcell]
    exact fieldOf_above 8 (Nat.two_pow_pos _)
  simpa [ht] using ha

/-- A trigger whose only target is TRGk starts its pulse. -/
theorem Hub.fireTargets_pulse {h : Hub} {g k : Nat} (hk : k < 16) (hcell : h.cell 10 16 (0x25 + 6 * g) = w32 (0x20 + k))
    (fx : Fixed) (n : Nat) : h.fireTargets fx g n = h.trgPulse k := by
  have hword : (w32 (0x20 + k)).toNat = 0x20 + k := Nat.mod_eq_of_lt (by omega)
  have hfirst (a : Hub) (ha : a.cells = h.cells) : a.cf 10 16 (0x25 + 6 * g) (8 * 0) 8 = 0x20 + k := by
    rw [Hub.cf_congr ha, Hub.cf, hcell, fieldOf, BitVec.extractLsb'_toNat, hword]
    exact Nat.mod_eq_of_lt (by simp; omega)
  have hrest (a : Hub) (ha : a.cells = h.cells) {i : Nat} (hi : i ≠ 0) : a.cf 10 16 (0x25 + 6 * g) (8 * i) 8 = 0 := by
    have h256 : 2 ^ 8 ≤ 2 ^ (8 * i) := Nat.pow_le_pow_right (by decide) (by omega)
    rw [Hub.cf_congr ha, Hub.cf, hcell]
    exact fieldOf_above 8 (by omega)
  refine foldl_turns (P := fun a => a = h) (Q := fun a => a = h.trgPulse k) List.nodup_range
    (List.mem_range.2 (by decide : 0 < 4)) (fun a i hi ha => ?_) (fun a ha => ?_) (fun a i hi ha => ?_) rfl
  · dsimp only
    rw [hrest a (congrArg Hub.cells ha) hi]
    simpa using ha
  · dsimp only
    rw [hfirst a (congrArg Hub.cells ha), if_neg (by omega), if_pos (by omega), ha, Nat.add_sub_cancel_left]
  · dsimp only
    rw [hrest a ((congrArg Hub.cells ha).trans (h.trgPulse_cells k)) hi]
    simpa using ha

end Sys2Proof.Machine
end

section
/-! SUPPORT. Actions of the kitchen timer: held words, their control word, and firings (R319 to R321). -/

namespace Sys2Proof.Machine
open Sys2Proof

/-! ### Hubs whose time runs alike -/

/-- Two hubs whose timebases stand and run alike. -/
structure Hub.SameTime (h g : Hub) : Prop where
  tb : g.tb = h.tb
  tbMet : g.tbMet = h.tbMet
  follows : g.metFollows = h.metFollows
  gates : g.clk.gates = h.clk.gates
  regs : ∀ a, a < 0x1C0800 → g.reg a = h.reg a

theorem Hub.SameTime.tbVal {h g : Hub} (hg : h.SameTime g) (k : Nat) : g.tbVal k = h.tbVal k := by
  unfold Hub.tbVal
  rw [hg.tb, hg.tbMet]

theorem Hub.SameTime.tickTb {h g : Hub} (hg : h.SameTime g) {k : Nat} (hk : k < 18) (n : Nat) :
    (h.tickTb k n).SameTime (g.tickTb k n) := by
  have hrd {f : Fld} (hf : f.addr < 0x1C0800) : g.rd f = h.rd f := Hub.rd_congr (hg.regs _ hf)
  have hincr : g.tbIncr k = h.tbIncr k := by
    unfold Hub.tbIncr
    rw [hrd (by simp only [fTmTbIncHiIncHi, rTmTbIncHi]; omega), hrd (by simp only [fTmTbIncLoIncLo, rTmTbIncLo]; omega)]
  have hslew : g.rd (fTmTbSlewAdjSlewAdj k) = h.rd (fTmTbSlewAdjSlewAdj k) :=
    hrd (by simp only [fTmTbSlewAdjSlewAdj, rTmTbSlewAdj]; omega)
  refine ⟨?_, ?_, ?_, ?_, fun a ha => ?_⟩
  · unfold Hub.tickTb
    rw [hg.follows, hincr, hslew]
    split
    · split <;> exact hg.tb
    · dsimp only
      rw [hg.tb]
  · unfold Hub.tickTb
    split
    next h17 =>
      rw [hg.follows, hg.tbMet, ← h17, hincr]
      split
      · rfl
      · exact hg.tbMet
    · exact hg.tbMet
  · rw [Hub.tickTb_metFollows, Hub.tickTb_metFollows, hg.follows]
  · rw [Hub.tickTb_clk, Hub.tickTb_clk, hg.gates]
  · rw [Hub.tickTb_reg, Hub.tickTb_reg, hg.regs a ha]

theorem Hub.SameTime.tickN {h g : Hub} (hg : h.SameTime g) (n : Nat) : (h.tickN n).SameTime (g.tickN n) := by
  unfold Hub.tickN
  rw [hg.gates]
  split
  · exact hg
  · exact List.foldl_rel (r := Hub.SameTime) ⟨hg.tb, hg.tbMet, hg.follows, hg.gates, hg.regs⟩
      fun k hk a b hab => hab.tickTb (List.mem_range.1 hk) n

/-! ### Fields of the control word -/

theorem fieldOf_and {w m : Word} {lo len : Nat} (hm : ∀ i, i < len → m.getLsbD (lo + i) = true) :
    fieldOf (w &&& m) lo len = fieldOf w lo len :=
  fieldOf_eq_of_bits fun i hi => by rw [BitVec.getLsbD_and, hm i hi, Bool.and_true]

theorem fieldOf_bit (w : Word) (i : Nat) : fieldOf w i 1 = b2n (bitOf w i) := by
  unfold fieldOf bitOf
  rw [BitVec.extractLsb'_toNat, Nat.shiftRight_eq_div_pow, pow_one, ← Nat.toNat_testBit, BitVec.testBit_toNat]
  cases w.getLsbD i <;> rfl

theorem ktKept_bit (w : Word) {i : Nat} (hi : 24 ≤ i ∧ i < 32) : fieldOf (w &&& 0xFF00007F#32) i 1 = b2n (bitOf w i) := by
  rw [← fieldOf_bit]
  refine fieldOf_and fun j hj => ?_
  have hij : ∀ b < 32, 24 ≤ b → (0xFF00007F#32).getLsbD b = true := by decide
  exact hij _ (by omega) (by omega)

theorem ktKept_tb (w : Word) : fieldOf (w &&& 0xFF00007F#32) 24 5 = fieldOf w 24 5 := fieldOf_and (by decide)

/-! ### Held words (R319) -/

theorem Hub.ktHold_held (h : Hub) (a i : Nat) (w : Word) :
    NMap.getD (NMap.get (h.ktHold a i w).kt a).held i 0#32 = if i = 4 then w &&& 0xFFFF0000#32 else w := by
  unfold Hub.ktHold
  dsimp only
  rw [NMap.get_modify_same]
  exact (NMap.getD_insert_erase _ i i _ _).trans (if_pos rfl)

/-! ### Applying the held words (R319, R320) -/

/-- A word of an action as its control word applies it: the held one, or else the register's. -/
abbrev Hub.ktWord (h : Hub) (a i : Nat) : Word := NMap.getD (NMap.get h.kt a).held i (h.reg (0x1C1000 + 0x20 * a + 4 * i))

/-- The period such words give, in units of 2^-16 ns. -/
abbrev Hub.ktPeriodWritten (h : Hub) (a : Nat) : Nat :=
  (NMap.getD (NMap.get h.kt a).held 3 (h.reg (rTmKtPer0 a))).toNat * 65536 +
    fieldOf (NMap.getD (NMap.get h.kt a).held 4 (h.reg (0x1C1010 + 0x20 * a))) 16 16

theorem Hub.ktPeriodWritten_words (h : Hub) (a : Nat) :
    (h.ktWord a 3).toNat * 65536 + fieldOf (h.ktWord a 4) 16 16 = h.ktPeriodWritten a := by
  have h3 : 0x1C1000 + 0x20 * a + 4 * 3 = rTmKtPer0 a := by simp only [rTmKtPer0]; omega
  have h4 : 0x1C1000 + 0x20 * a + 4 * 4 = 0x1C1010 + 0x20 * a := by omega
  unfold Hub.ktWord Hub.ktPeriodWritten
  rw [h3, h4]

/-- What a control word is refused for: a period below 20 ns, or a timebase that does not exist. -/
abbrev Hub.ktRefuses (fx : Fixed) (h : Hub) (a : Nat) (w : Word) : Prop :=
  (bitOf w 30 = true ∧ h.ktPeriodWritten a < 20 * 65536) ∨ 18 ≤ fieldOf w 24 5 ∨
    (fieldOf w 24 5 = 17 ∧ fx.variant.hasMet = false)

theorem Hub.ktTakes {fx : Fixed} {h : Hub} {a : Nat} {w : Word}
    (hper : bitOf w 30 = false ∨ 20 * 65536 ≤ h.ktPeriodWritten a)
    (htb : fieldOf w 24 5 < 17 ∨ fieldOf w 24 5 = 17 ∧ fx.variant.hasMet = true) : ¬h.ktRefuses fx a w := by
  rintro (⟨hp, hlow⟩ | hno | ⟨h17, hmet⟩)
  · rcases hper with e | e
    · exact absurd hp (by simp [e])
    · omega
  · omega
  · rcases htb with e | ⟨-, e⟩
    · omega
    · exact absurd hmet (by simp [e])

/-- The hub with an action's words in its registers. -/
def Hub.ktStored (h : Hub) (a : Nat) : Hub :=
  (List.range 5).foldl (fun b i => b.setReg (0x1C1000 + 0x20 * a + 4 * i) (h.ktWord a i)) h

/-- The action with its words applied: a new due time has no fraction. -/
def Hub.ktFresh (h : Hub) (a : Nat) : KtAct :=
  { held := [], frac := if (NMap.get h.kt a).held.any (fun e => decide (e.1 < 3)) then 0 else (NMap.get h.kt a).frac }

/-- The hub with an action's words and its control word applied. -/
def Hub.ktApplied (h : Hub) (a : Nat) (w : Word) : Hub :=
  ({ h.ktStored a with kt := NMap.set (h.ktStored a).kt a (h.ktFresh a) } : Hub).setReg (0x1C1014 + 0x20 * a) (w &&& 0xFF00007F#32)

theorem Hub.ktCtl_refused {fx : Fixed} {h : Hub} {a : Nat} {w : Word} (hr : h.ktRefuses fx a w) :
    h.ktCtl fx a w = (h.on (fTmKtStRefused a)).on fTmStatusKtRefused := by
  unfold Hub.ktCtl
  refine if_pos ?_
  rw [h.ktPeriodWritten_words a]
  rcases hr with ⟨hp, hlow⟩ | hno | ⟨h17, hmet⟩
  · simp [hp, hlow]
  · simp [hno]
  · simp [h17, hmet]

theorem Hub.ktCtl_applied {fx : Fixed} {h : Hub} {a : Nat} {w : Word} (hr : ¬h.ktRefuses fx a w) :
    h.ktCtl fx a w = (h.ktApplied a w).ktConsider a 2 := by
  unfold Hub.ktCtl
  refine if_neg ?_
  rw [h.ktPeriodWritten_words a]
  simpa [Hub.ktRefuses, or_assoc] using hr

theorem Hub.ktStored_records (h : Hub) (a : Nat) : h.ktStored a = { h with regs := (h.ktStored a).regs } := by
  refine List.foldlRecOn (motive := fun b : Hub => b = { h with regs := b.regs }) _ _ rfl fun b hb i _ => ?_
  rw [hb]
  rfl

theorem Hub.ktStored_word (h : Hub) (a : Nat) {i : Nat} (hi : i < 5) :
    (h.ktStored a).reg (0x1C1000 + 0x20 * a + 4 * i) = h.ktWord a i :=
  foldl_turns (P := fun _ => True) (Q := fun b => b.reg (0x1C1000 + 0x20 * a + 4 * i) = h.ktWord a i)
    List.nodup_range (List.mem_range.2 hi) (fun _ _ _ _ => trivial) (fun b _ => b.reg_setReg_same _ _)
    (fun b j hj hb => (b.reg_setReg_ne _ (by omega)).trans hb) trivial

theorem Hub.ktStored_reg_ne (h : Hub) (a : Nat) {x : Nat} (hx : x < 0x1C1000 + 0x20 * a ∨ 0x1C1014 + 0x20 * a ≤ x) :
    (h.ktStored a).reg x = h.reg x :=
  foldl_keep_mem (fun b => b.reg x) _ _ (fun b i hi => b.reg_setReg_ne _ (by have := List.mem_range.1 hi; omega)) h

/-- Behind the stored words the action and its control word alone change. -/
theorem Hub.ktApplied_split (h : Hub) (a : Nat) (w : Word) : ∃ k, NMap.get k a = h.ktFresh a ∧
    h.ktApplied a w = ({ h.ktStored a with kt := k } : Hub).setReg (0x1C1014 + 0x20 * a) (w &&& 0xFF00007F#32) :=
  ⟨_, NMap.get_set_same .., rfl⟩

theorem Hub.ktApplied_records (h : Hub) (a : Nat) (w : Word) : ∃ r k, h.ktApplied a w = { h with regs := r, kt := k } := by
  obtain ⟨k, -, e⟩ := h.ktApplied_split a w
  rw [e, h.ktStored_records]
  exact ⟨_, k, rfl⟩

theorem Hub.ktApplied_ev (h : Hub) (a : Nat) (w : Word) : (h.ktApplied a w).ev = h.ev := by
  obtain ⟨r, k, e⟩ := h.ktApplied_records a w
  rw [e]

theorem Hub.ktApplied_kt (h : Hub) (a : Nat) (w : Word) : NMap.get (h.ktApplied a w).kt a = h.ktFresh a := by
  obtain ⟨k, hk, e⟩ := h.ktApplied_split a w
  rw [e]
  exact hk

theorem Hub.ktApplied_ctl (h : Hub) (a : Nat) (w : Word) : (h.ktApplied a w).reg (rTmKtCtl a) = w &&& 0xFF00007F#32 :=
  Hub.reg_setReg_same ..

theorem Hub.withKt_reg (h : Hub) (k : NMap KtAct) (x : Nat) : ({ h with kt := k } : Hub).reg x = h.reg x := rfl

theorem Hub.ktApplied_reg_ne (h : Hub) (a : Nat) (w : Word) {x : Nat} (hx : x ≠ 0x1C1014 + 0x20 * a) :
    (h.ktApplied a w).reg x = (h.ktStored a).reg x := by
  obtain ⟨k, -, e⟩ := h.ktApplied_split a w
  rw [e, Hub.reg_setReg_ne _ _ hx, Hub.withKt_reg]

theorem Hub.ktApplied_word (h : Hub) (a : Nat) (w : Word) {i : Nat} (hi : i < 5) :
    (h.ktApplied a w).reg (0x1C1000 + 0x20 * a + 4 * i) = h.ktWord a i :=
  (h.ktApplied_reg_ne a w (by omega)).trans (h.ktStored_word a hi)

end Sys2Proof.Machine
end

section
/-! SUPPORT. When the kitchen timer considers an action, and what its firing leaves (R319 to R321). -/

namespace Sys2Proof.Machine
open Sys2Proof

/-! ### An action behind an update -/

theorem Hub.ktDue_congr {h g : Hub} {a : Nat} (hreg : ∀ k < 3, g.reg (rTmKtDue a k) = h.reg (rTmKtDue a k))
    (hfrac : (NMap.get g.kt a).frac = (NMap.get h.kt a).frac) : g.ktDue a = h.ktDue a := by
  have hrd {k : Nat} (hk : k < 3) : g.rd (fTmKtDueDue a k) = h.rd (fTmKtDueDue a k) := Hub.rd_congr (hreg k hk)
  unfold Hub.ktDue
  rw [hrd (k := 0) (by decide), hrd (k := 1) (by decide), hrd (k := 2) (by decide), hfrac]

theorem latchIrq_ktDue (h0 : Hub) (m0 : Met) (h : Hub) (m : Met) (a : Nat) : (latchIrq h0 m0 h m).ktDue a = h.ktDue a :=
  Hub.ktDue_congr (fun _ _ => latchIrq_reg _ _ _ _ (by simp only [rTmKtDue]; omega)) (by rw [latchIrq_kt])

theorem Hub.tickN_ktDue (h : Hub) (n a : Nat) : (h.tickN n).ktDue a = h.ktDue a :=
  Hub.ktDue_congr (fun _ _ => h.tickN_reg n _) (by rw [Hub.tickN_kt])

theorem Hub.ktApplied_bit (h : Hub) (a : Nat) (w : Word) {i : Nat} (hi : 24 ≤ i ∧ i < 32) :
    (h.ktApplied a w).is ⟨rTmKtCtl a, i, 1⟩ = bitOf w i := by
  unfold Hub.is Hub.rd
  rw [h.ktApplied_ctl, ktKept_bit w hi]
  cases bitOf w i <;> rfl

theorem Hub.ktApplied_tb (h : Hub) (a : Nat) (w : Word) : (h.ktApplied a w).ktTb a = fieldOf w 24 5 :=
  (congrArg (fieldOf · 24 5) (h.ktApplied_ctl a w)).trans (ktKept_tb w)

theorem Hub.ktApplied_below (h : Hub) (a : Nat) (w : Word) {x : Nat} (hx : x < 0x1C1000) :
    (h.ktApplied a w).reg x = h.reg x :=
  (h.ktApplied_reg_ne a w (by omega)).trans (h.ktStored_reg_ne a (by omega))

theorem Hub.ktApplied_on (h : Hub) (a : Nat) (w : Word) :
    (h.ktApplied a w).ktOn a = (h.is fLdrStatusConfigured && bitOf w 31) := by
  have hconf : (h.ktApplied a w).is fLdrStatusConfigured = h.is fLdrStatusConfigured :=
    Hub.is_congr (Hub.rd_congr (h.ktApplied_below a w (by decide)))
  unfold Hub.ktOn
  rw [hconf]
  exact congrArg (h.is fLdrStatusConfigured && ·) (h.ktApplied_bit a w (by decide))

/-- With no word held the due time is the one before. -/
theorem Hub.ktApplied_due {h : Hub} {a : Nat} (hheld : (NMap.get h.kt a).held = []) (w : Word) :
    (h.ktApplied a w).ktDue a = h.ktDue a := by
  refine Hub.ktDue_congr (fun k hk => ?_) ?_
  · refine (h.ktApplied_word a w (by omega)).trans ?_
    unfold Hub.ktWord
    rw [hheld]
    rfl
  · rw [h.ktApplied_kt, Hub.ktFresh, hheld]
    rfl

theorem Hub.ktApplied_sameTime (h : Hub) (a : Nat) (w : Word) : h.SameTime (h.ktApplied a w) := by
  have hregs (x : Nat) (hx : x < 0x1C0800) := h.ktApplied_below a w (x := x) (by omega)
  obtain ⟨r, k, e⟩ := h.ktApplied_records a w
  rw [e] at hregs ⊢
  exact ⟨rfl, rfl, rfl, rfl, hregs⟩

/-! ### The first consideration (R319, R321) -/

theorem Hub.ktConsider_off {h : Hub} {a : Nat} (hoff : h.ktOn a = false) (n : Nat) : h.ktConsider a n = h :=
  if_pos (by simp [hoff])

/-- An action whose due time lies ahead in the cycle of its consideration waits. -/
theorem Hub.ktConsider_ahead {h : Hub} {a n : Nat} (hbefore : (h.tickN (n - 1)).tbVal (h.ktTb a) < h.ktDue a * 2 ^ 32)
    (hthen : (h.tickN n).tbVal (h.ktTb a) < h.ktDue a * 2 ^ 32) : h.ktConsider a n = h := by
  have htb : (h.tickN n).ktTb a = h.ktTb a := h.tickN_rd n _
  unfold Hub.ktConsider
  split
  · rfl
  · dsimp only
    rw [if_neg (Nat.not_le.2 hbefore), htb, if_neg (Nat.not_le.2 hthen)]

/-- One whose due time was reached the cycle before fires late. -/
theorem Hub.ktConsider_late {h : Hub} {a n : Nat} (hon : h.ktOn a = true)
    (hd : h.ktDue a * 2 ^ 32 ≤ (h.tickN (n - 1)).tbVal (h.ktTb a)) : h.ktConsider a n = (h.tickN n).ktFire a true := by
  unfold Hub.ktConsider
  dsimp only
  rw [if_neg (by simp [hon]), if_pos hd]

/-! ### A firing (R320, R321) -/

/-- The action's channel is presented and its bit of `kt.fired` set. -/
def Hub.ktHit (h : Hub) (a : Nat) : Hub := (h.presentChan (h.rd (fTmKtCtlChan a))).setChanBit rTmKtFired a

/-- A late firing is noted with its lateness. -/
def Hub.ktNoted (h : Hub) (a : Nat) (late : Bool) : Hub :=
  if late then
    (((h.ktHit a).on (fTmKtStLate a)).on fTmStatusKtLate).wr (fTmKtLatenessLateness a)
      (wholeNs (h.tbVal (h.ktTb a) - h.ktDue a * 2 ^ 32))
  else h.ktHit a

theorem Hub.ktHit_reg (h : Hub) {a x : Nat} (hx : 0x1A0000 ≤ x ∧ x ≠ rTmKtFired (a / 32)) : (h.ktHit a).reg x = h.reg x := by
  have hchan : h.rd (fTmKtCtlChan a) < 2 ^ 7 := h.rd_lt _
  exact (Hub.setChanBit_reg_ne _ hx.2).trans (h.presentAt_reg _ _ (by omega) (.inr hx.1))

theorem Hub.ktNoted_reg (h : Hub) {a x : Nat} (hx : x ≠ rTmKtSt a ∧ x ≠ rTmStatus ∧ x ≠ rTmKtLateness a) (late : Bool) :
    (h.ktNoted a late).reg x = (h.ktHit a).reg x := by
  obtain ⟨hst, hstatus, hlateness⟩ := hx
  unfold Hub.ktNoted
  split
  · rw [Hub.reg_wr_ne _ (fTmKtLatenessLateness a) _ hlateness, Hub.reg_on_ne _ fTmStatusKtLate hstatus,
      Hub.reg_on_ne _ (fTmKtStLate a) hst]
  · rfl

/-- The control word of the action that fires stands until it is disabled. -/
theorem Hub.ktNoted_ctl (h : Hub) {a : Nat} (ha : a < 256) (late : Bool) :
    (h.ktNoted a late).reg (rTmKtCtl a) = h.reg (rTmKtCtl a) :=
  (h.ktNoted_reg (by simp only [rTmKtCtl, rTmKtSt, rTmStatus, rTmKtLateness]; omega) late).trans
    (h.ktHit_reg (by simp only [rTmKtCtl, rTmKtFired]; omega))

theorem Hub.ktNoted_is_ctl (h : Hub) {a : Nat} (ha : a < 256) (late : Bool) {f : Fld} (hf : f.addr = rTmKtCtl a) :
    (h.ktNoted a late).is f = h.is f := Hub.is_congr (Hub.rd_congr (by rw [hf, h.ktNoted_ctl ha]))

theorem Hub.ktNoted_late (h : Hub) (a : Nat) :
    (h.ktNoted a true).is (fTmKtStLate a) = true ∧ (h.ktNoted a true).is fTmStatusKtLate = true := by
  unfold Hub.ktNoted
  rw [if_pos rfl, Hub.is_wr_apart _ _ (by simp [Fld.apart, fTmKtLatenessLateness, fTmKtStLate]),
    Hub.is_wr_apart _ _ (by simp only [Fld.apart, fTmKtLatenessLateness, fTmStatusKtLate, rTmKtLateness, rTmStatus]; omega),
    Hub.is_on_apart _ (by simp [Fld.apart, fTmStatusKtLate, fTmKtStLate])]
  exact ⟨Hub.is_on_same _ (by simp [fTmKtStLate]) (by simp [fTmKtStLate]), Hub.is_on_same _ (by decide) (by decide)⟩

/-- An action that is not periodic fires once. -/
theorem Hub.ktFire_once {h : Hub} {a : Nat} (ha : a < 256) (hp : h.is (fTmKtCtlPeriodic a) = false) (late : Bool) :
    h.ktFire a late = (h.ktNoted a late).off (fTmKtCtlEnable a) :=
  if_neg (ne_true_of_eq_false ((h.ktNoted_is_ctl ha late (f := fTmKtCtlPeriodic a) rfl).trans hp))

/-- A periodic one takes its next due time, the grid points it passed counted as missed. -/
theorem Hub.ktFire_again {h : Hub} {a : Nat} (ha : a < 256) (hp : h.is (fTmKtCtlPeriodic a) = true) (late : Bool) :
    ∃ d, h.ktFire a late = ((h.ktNoted a late).countSat (fTmKtStMissed a)
      (gridAfter (h.ktPeriod a) (h.ktDue a) (h.tbVal (h.ktTb a)))).setKtDue a d :=
  ⟨_, if_pos ((h.ktNoted_is_ctl ha late (f := fTmKtCtlPeriodic a) rfl).trans hp)⟩

theorem Hub.setKtDue_reg_ne (h : Hub) {a x : Nat} (hx : x < 0x1C1000 + 0x20 * a ∨ 0x1C100C + 0x20 * a ≤ x) (d : Nat) :
    (h.setKtDue a d).reg x = h.reg x := by
  have hne (k : Nat) (hk : k < 3) : x ≠ rTmKtDue a k := by simp only [rTmKtDue]; omega
  unfold Hub.setKtDue
  dsimp only
  rw [Hub.withKt_reg, Hub.reg_setReg_ne _ _ (hne 2 (by decide)), Hub.reg_setReg_ne _ _ (hne 1 (by decide)),
    Hub.reg_setReg_ne _ _ (hne 0 (by decide))]

/-- Registers outside the action's own stand as its firing was noted. -/
theorem Hub.ktFire_reg (h : Hub) {a x : Nat} (ha : a < 256) (hx : x < 0x1C1000 + 0x20 * a ∨ 0x1C1020 + 0x20 * a ≤ x)
    (late : Bool) : (h.ktFire a late).reg x = (h.ktNoted a late).reg x := by
  cases hp : h.is (fTmKtCtlPeriodic a) with
  | false =>
    rw [Hub.ktFire_once ha hp]
    exact Hub.reg_off_ne _ _ (by simp only [fTmKtCtlEnable, rTmKtCtl]; omega)
  | true =>
    obtain ⟨d, e⟩ := Hub.ktFire_again ha hp late
    rw [e, Hub.setKtDue_reg_ne _ (by omega)]
    exact Hub.reg_countSat_ne _ _ _ (by simp only [fTmKtStMissed, rTmKtSt]; omega)

theorem Hub.ktFire_fired (h : Hub) {a : Nat} (ha : a < 256) (late : Bool) :
    ((h.ktFire a late).reg (rTmKtFired (a / 32))).getLsbD (a % 32) = true := by
  rw [h.ktFire_reg ha (by simp only [rTmKtFired]; omega),
    h.ktNoted_reg (by simp only [rTmKtFired, rTmKtSt, rTmStatus, rTmKtLateness]; omega)]
  exact Hub.setChanBit_bit ..

/-- An action stays enabled by firing if it is periodic. -/
theorem Hub.ktFire_enable (h : Hub) {a : Nat} (ha : a < 256) (late : Bool) :
    (h.ktFire a late).is (fTmKtCtlEnable a) = (h.is (fTmKtCtlPeriodic a) && h.is (fTmKtCtlEnable a)) := by
  cases hp : h.is (fTmKtCtlPeriodic a) with
  | false =>
    rw [Hub.ktFire_once ha hp]
    exact Hub.is_off_same _ (by simp [fTmKtCtlEnable])
  | true =>
    obtain ⟨d, e⟩ := Hub.ktFire_again ha hp late
    rw [e, Bool.true_and, ← h.ktNoted_is_ctl ha late (f := fTmKtCtlEnable a) rfl]
    refine Hub.is_congr (Hub.rd_congr ((Hub.setKtDue_reg_ne _ ?_ d).trans (Hub.reg_countSat_ne _ _ _ ?_)))
    · simp only [fTmKtCtlEnable, rTmKtCtl]; omega
    · simp only [fTmKtCtlEnable, fTmKtStMissed, rTmKtCtl, rTmKtSt]; omega

theorem Hub.ktFire_missed {h : Hub} {a : Nat} (ha : a < 256) (hp : h.is (fTmKtCtlPeriodic a) = true) :
    (h.ktFire a false).rd (fTmKtStMissed a) =
      satTo 16 (h.rd (fTmKtStMissed a) + gridAfter (h.ktPeriod a) (h.ktDue a) (h.tbVal (h.ktTb a))) := by
  have hst : (h.ktNoted a false).rd (fTmKtStMissed a) = h.rd (fTmKtStMissed a) :=
    Hub.rd_congr (h.ktHit_reg (by simp only [fTmKtStMissed, rTmKtSt, rTmKtFired]; omega))
  obtain ⟨d, e⟩ := Hub.ktFire_again ha hp false
  rw [e, Hub.rd_congr (Hub.setKtDue_reg_ne _ (by simp only [fTmKtStMissed, rTmKtSt]; omega) d),
    Hub.rd_countSat_same _ _ (by simp [fTmKtStMissed]), hst]
  rfl

theorem Hub.ktNoted_chan (h : Hub) (a : Nat) (late : Bool) (n : Nat) :
    (h.ktNoted a late).chan n = (h.presentChan (h.rd (fTmKtCtlChan a))).chan n := by
  unfold Hub.ktNoted
  split <;> rfl

theorem Hub.setKtDue_chan (h : Hub) (a d n : Nat) : (h.setKtDue a d).chan n = h.chan n := rfl

theorem Hub.ktFire_chan (h : Hub) {a : Nat} (ha : a < 256) (late : Bool) (n : Nat) :
    (h.ktFire a late).chan n = (h.presentChan (h.rd (fTmKtCtlChan a))).chan n := by
  cases hp : h.is (fTmKtCtlPeriodic a) with
  | false =>
    rw [Hub.ktFire_once ha hp]
    exact h.ktNoted_chan a late n
  | true =>
    obtain ⟨d, e⟩ := Hub.ktFire_again ha hp late
    rw [e, Hub.setKtDue_chan, Hub.countSat_chan, h.ktNoted_chan]

end Sys2Proof.Machine
end

section
/-! SUPPORT. The statement about triggers and the kitchen timer (R313 to R316, R319 to R321). -/

namespace Sys2Proof.Machine
open Sys2Proof

/-- Settles O26: each command by its outcome in the case its clause names, read behind the interrupt latch. -/
theorem triggersAndTimer : Obligations.TriggersAndTimer := by
  refine ⟨?_, ?_, ?_, ?_, ?_, ?_, ?_, ?_, ?_, ?_, ?_, ?_, ?_, ?_⟩
  · -- TRIGGER_ENABLE_WRITE of 1
    intro s g w hans hw hper hoff
    refine ⟨_, rfl, ?_⟩
    dsimp only
    rw [Hub.atReg_answers _ hans, hw, Hub.tgEnable_arms hper hoff, latchIrq_is _ _ _ _ (evReg_ne_wake (by decide)),
      latchIrq_trig, Hub.is_congr (Hub.rd_congr (Hub.armTrig_reg _ _ _))]
    refine ⟨Hub.is_on_same _ (by simp [fTmTgCtlEnable]) (by simp [fTmTgCtlEnable]), s.hub.armTrig_due _ 1 g, fun a ha => ?_⟩
    rw [latchIrq_reg _ _ _ _ ha.1, Hub.armTrig_reg, Hub.reg_on_ne _ (fTmTgCtlEnable g) ha.2]
  · -- TRIGGER_ENABLE_WRITE of 1 to an enabled trigger
    intro s g w hans hw hper hon
    refine ⟨_, rfl, ?_⟩
    dsimp only
    rw [Hub.atReg_answers _ hans, hw, Hub.tgEnable_again hper hon, latchIrq_trig]
    exact ⟨rfl, fun a ha => latchIrq_reg _ _ _ _ ha⟩
  · -- TRIGGER_ENABLE_WRITE of 0, and of 1 while the period is 0
    intro s g w hans hoff
    refine ⟨_, rfl, ?_⟩
    dsimp only
    rw [Hub.atReg_answers _ hans, Hub.tgEnable_off hoff, latchIrq_is _ _ _ _ (evReg_ne_wake (by decide)), latchIrq_trig]
    exact ⟨Hub.is_off_same _ (by simp [fTmTgCtlEnable]), rfl,
      fun a ha => (latchIrq_reg _ _ _ _ ha.1).trans (Hub.reg_off_ne _ _ ha.2)⟩
  · -- TRIGGER_DUE at a due time its timebase has reached, whatever the targets
    intro s g hon hd
    exact ⟨_, rfl, s.hub.tgNext g, congrArg (latchIrq s.hub s.met · s.met) (Hub.triggerDue_fires hon hd _),
      s.hub.tgNext_due g, s.hub.tgNext_missed g, s.hub.tgNext_cyc g⟩
  · -- TRIGGER_DUE at a due time its timebase has reached, no target
    intro s g hon hd hcell
    refine ⟨_, rfl, ?_⟩
    dsimp only
    rw [Hub.triggerDue_fires hon hd, Hub.fireTargets_none ((s.hub.tgNext_cell g _ _ _).trans hcell), latchIrq_trig,
      latchIrq_rd _ _ _ _ (evReg_ne_wake (by decide)), latchIrq_cyc]
    exact ⟨s.hub.tgNext_due g, s.hub.tgNext_missed g, s.hub.tgNext_cyc g⟩
  · -- TRIGGER_DUE with the only target TRGk: its pulse
    intro s g k hon hd hcell hwidth
    have hcf (lo len : Nat) : (s.hub.tgNext g).cf 10 16 (0x010 + k) lo len = s.hub.cf 10 16 (0x010 + k) lo len :=
      congrArg (fieldOf · lo len) (s.hub.tgNext_cell g _ _ _)
    refine ⟨_, rfl, ?_⟩
    dsimp only
    rw [Hub.triggerDue_fires hon hd, Hub.fireTargets_pulse k.isLt ((s.hub.tgNext_cell g _ _ _).trans hcell), latchIrq_trg,
      latchIrq_trig, Hub.trgPulse_trig, Hub.trgPulse_stop ((hcf 17 1).trans hwidth), hcf, s.hub.tgNext_cyc]
    exact ⟨rfl, s.hub.tgNext_due g⟩
  · -- TRIGGER_DUE of a trigger that does not run
    intro s g hoff
    refine ⟨_, rfl, ?_⟩
    dsimp only
    rw [Hub.triggerDue_rests hoff, latchIrq_trig, latchIrq_cyc]
    exact ⟨rfl, rfl, fun a ha => latchIrq_reg _ _ _ _ ha⟩
  · -- KT_HELD_WORD_WRITE: held, nothing shown
    intro s a i w hans
    refine ⟨_, rfl, ?_⟩
    dsimp only
    rw [Hub.atReg_answers _ hans, latchIrq_kt]
    exact ⟨s.hub.ktHold_held a i w, fun b hb => latchIrq_reg _ _ _ _ hb⟩
  · -- KT_CTL_WRITE that disables the action: the held words are applied
    intro s a w hans hoff hper htb
    have hrest : (s.hub.ktApplied a w).ktOn a = false := by rw [Hub.ktApplied_on, hoff, Bool.and_false]
    refine ⟨_, rfl, ?_⟩
    dsimp only
    rw [Hub.atReg_answers _ hans, Hub.ktCtl_applied (Hub.ktTakes hper htb), Hub.ktConsider_off hrest, latchIrq_kt, latchIrq_ev,
      latchIrq_reg _ _ _ _ (evReg_ne_wake (by decide)), Hub.ktApplied_kt, Hub.ktApplied_ctl]
    refine ⟨rfl, rfl, List.map_congr_left fun i hi => ?_, s.hub.ktApplied_ev a w⟩
    rw [latchIrq_reg _ _ _ _ (by omega)]
    exact s.hub.ktApplied_word a w (List.mem_range.1 hi)
  · -- KT_CTL_WRITE that enables an action without held words whose due time lies ahead
    intro s a w hans hper htb hheld hbefore hthen
    have hahead {n : Nat} (hn : (s.hub.tickN n).tbVal (fieldOf w 24 5) < s.hub.ktDue a * 2 ^ 32) :
        ((s.hub.ktApplied a w).tickN n).tbVal ((s.hub.ktApplied a w).ktTb a) < (s.hub.ktApplied a w).ktDue a * 2 ^ 32 := by
      rwa [((s.hub.ktApplied_sameTime a w).tickN n).tbVal, Hub.ktApplied_tb, Hub.ktApplied_due hheld]
    have hwaits : (s.hub.ktApplied a w).ktConsider a 2 = s.hub.ktApplied a w :=
      Hub.ktConsider_ahead (hahead hbefore) (hahead hthen)
    refine ⟨_, rfl, ?_⟩
    dsimp only
    rw [Hub.atReg_answers _ hans, Hub.ktCtl_applied (Hub.ktTakes hper htb), hwaits, latchIrq_ktDue, latchIrq_ev,
      latchIrq_reg _ _ _ _ (evReg_ne_wake (by decide)), Hub.ktApplied_ctl, Hub.ktApplied_due hheld]
    exact ⟨rfl, rfl, s.hub.ktApplied_ev a w⟩
  · -- KT_CTL_WRITE that enables an action without held words, to fire once, whose due time has passed: it fires late
    intro s a w hans hconf hon honce htb hheld hd
    have hrun : (s.hub.ktApplied a w).ktOn a = true := by rw [Hub.ktApplied_on, hconf, hon, Bool.and_true]
    have hlate : (s.hub.ktApplied a w).ktConsider a 2 = ((s.hub.ktApplied a w).tickN 2).ktFire a true := by
      refine Hub.ktConsider_late hrun ?_
      rwa [((s.hub.ktApplied_sameTime a w).tickN _).tbVal, Hub.ktApplied_tb, Hub.ktApplied_due hheld]
    have hperiodic : ((s.hub.ktApplied a w).tickN 2).is (fTmKtCtlPeriodic a) = false :=
      (Hub.tickN_is _ _ _).trans ((s.hub.ktApplied_bit a w (by decide)).trans honce)
    have hfires := Hub.ktFire_once a.isLt hperiodic true
    obtain ⟨hflag, hstatus⟩ := ((s.hub.ktApplied a w).tickN 2).ktNoted_late a
    refine ⟨_, rfl, ?_⟩
    dsimp only
    rw [Hub.atReg_answers _ hans, Hub.ktCtl_applied (Hub.ktTakes (.inl honce) htb), hlate,
      latchIrq_is _ _ _ _ (evReg_ne_wake (by decide)), latchIrq_is _ _ _ _ (evReg_ne_wake (by decide)),
      latchIrq_is _ _ _ _ (by decide), latchIrq_reg _ _ _ _ (evReg_ne_wake (by decide)), Hub.ktFire_enable _ a.isLt, hperiodic]
    refine ⟨rfl, Hub.ktFire_fired _ a.isLt true, ?_, ?_⟩
    · rw [hfires, Hub.is_off_apart _ (by simp [Fld.apart, fTmKtCtlEnable, fTmKtStLate]), hflag]
    · rw [hfires, Hub.is_off_apart _ (by simp only [Fld.apart, fTmKtCtlEnable, fTmStatusKtLate, rTmKtCtl, rTmStatus]; omega),
        hstatus]
  · -- KT_CTL_WRITE of a periodic action with a period below 20 ns, or of a timebase that does not exist: refused
    intro s a w hans hrefused
    refine ⟨_, rfl, ?_⟩
    dsimp only
    rw [Hub.atReg_answers _ hans, Hub.ktCtl_refused hrefused, latchIrq_is _ _ _ _ (evReg_ne_wake (by decide)),
      latchIrq_is _ _ _ _ (by decide), latchIrq_kt, latchIrq_reg _ _ _ _ (evReg_ne_wake (by decide)),
      Hub.reg_on_ne _ fTmStatusKtRefused (by simp only [fTmStatusKtRefused, rTmStatus]; omega),
      Hub.reg_on_ne _ (fTmKtStRefused a) (by simp only [fTmKtStRefused, rTmKtSt]; omega),
      Hub.is_on_apart _ (by simp only [Fld.apart, fTmStatusKtRefused, fTmKtStRefused, rTmStatus, rTmKtSt]; omega)]
    exact ⟨Hub.is_on_same _ (by simp [fTmKtStRefused]) (by simp [fTmKtStRefused]), Hub.is_on_same _ (by decide) (by decide),
      rfl, rfl⟩
  · -- KT_ACTION_DUE at a due time its timebase has reached
    intro s a hon hd
    have henabled : s.hub.is (fTmKtCtlEnable a) = true := (Bool.and_eq_true_iff.1 hon).2
    refine ⟨_, rfl, ?_⟩
    dsimp only
    rw [if_pos hon, Hub.reachDue_past hd, if_pos hd, latchIrq_is _ _ _ _ (evReg_ne_wake (by decide)),
      latchIrq_reg _ _ _ _ (evReg_ne_wake (by decide)), latchIrq_rd _ _ _ _ (evReg_ne_wake (by decide)), latchIrq_chan,
      Hub.ktFire_enable _ a.isLt, henabled, Bool.and_true, Hub.ktFire_chan _ a.isLt]
    refine ⟨rfl, Hub.ktFire_fired _ a.isLt false, Hub.ktFire_missed a.isLt, fun hchan hmute hlive => ?_⟩
    rw [Hub.presentChan, Hub.presentAt_heard hchan hmute hlive, Hub.modChan_chan_same]
  · -- KT_ACTION_DUE of an action that is not enabled
    intro s a hoff
    refine ⟨_, rfl, ?_⟩
    dsimp only
    rw [if_neg (by simp [hoff]), latchIrq_ev, latchIrq_cyc]
    exact ⟨rfl, rfl, fun b hb => latchIrq_reg _ _ _ _ hb⟩

end Sys2Proof.Machine
end
